-- ==== Sys2Proof/Word.lean ====
section
/-!
DEFINITION. The words of the block's register file and payloads (R12: little-endian, bit 0 least significant).
-/
namespace Sys2Proof

/-- One byte. -/
abbrev Byte := BitVec 8

/-- A 32-bit register or payload word. -/
abbrev Word := BitVec 32

/-- A 64-bit register, two consecutive words with the lower half first (R13). -/
abbrev Dword := BitVec 64

end Sys2Proof
end

