-- ==== Sys2Proof/Config.lean ====
section
/-!
DEFINITION. What one part fixes (fused values, the keys of its boot ROM) and the free values: constants with no body,
so that no proof can see what they are.
-/
namespace Sys2Proof

/-- The unit serial (R38, ID_SERIAL_LO and ID_SERIAL_HI: fused). -/
opaque Config.serial : Dword

/-- Whether the ECDSA P-256 signature of a firmware image verifies against the boot ROM's key (R72, R547, R554). -/
opaque Config.signatureOk : List Byte → Bool

/-- The FW_VERSION a firmware image carries (R38, R72); the image's layout is not in the spec. -/
opaque Config.imageVersion : List Byte → Word

/-- The build identifier a firmware image carries (R69). -/
opaque Config.imageBuild : List Byte → Word

/-- What a half of the QSPI flash holds that the unit itself has never written (assumption log 36). -/
opaque Config.flashHalf : Bool → List Byte

/-- The angle of the corrected sine and cosine of an encoder in SINCOS mode (R318), in 4,096ths of a period: encoder, state of its correction, sine and
cosine as converted. How the correction is formed is not in the spec (assumption log 16). -/
opaque Config.encAngle : Nat → Nat → BitVec 14 → BitVec 14 → Nat

/-- The 64 B unit of DRAM that holds an accumulator of calibration (R298, R480): bank, of a nozzle or of a column, column, and row or band. Where the
accumulators lie is not in the spec (assumption log 26). -/
opaque Config.calUnit : Bool → Bool → Nat → Nat → Nat

/-- A free value: the n-th value the spec leaves open, as a number the reader narrows to the width of its place
(assumption log 3). -/
opaque Config.freeNat : Nat → Nat

/-- A free signed value (assumption log 3). -/
opaque Config.freeInt : Nat → Int

end Sys2Proof
end

