-- ==== Sys2Proof/Syntax.lean ====
section
/-!
DEFINITION. The commands and events the block takes: one constructor per row of spec/opcode_table.json. A mailbox
command names the slot it was rung in (its words are the copy the doorbell made); an event carries what arrives with
it from outside the block: fetched bytes, samples, readings, received frames.
-/
namespace Sys2Proof

/-- What an encoder's inputs bring in one sample, which is 10 ENC clocks (R317). -/
inductive EncIn where
  /-- What the tracks come to: the count change since the sample before, positive where A leads B (R319, R322). -/
  | count (d : Int)
  /-- ABZ: the levels of A, B and Z at each ENC clock, oldest first (R320). -/
  | pins (levels : List (Bool × Bool × Bool))
  /-- SINCOS: sine and cosine as converted, and the level of the Z comparator at each ENC clock (R318, R320). -/
  | tracks (sine cosine : BitVec 14) (z : List Bool)
  deriving DecidableEq, Repr

/-- Encoder samples, oldest first: what ENC0 and ENC1 bring in each (R317). -/
abbrev Samples := List (EncIn × EncIn)

/-- A CSI-2 long packet as the port receives it (R251, R252): its data type, whether the header ECC corrected a bit, whether
header and payload CRC are good, and its samples. -/
structure CsiPacket where
  /-- Data type: 0x2B RAW10, 0x2C RAW12. -/
  type : Nat
  /-- The header ECC corrected one bit. -/
  corrected : Bool
  /-- The header could be corrected and the payload CRC is right. -/
  good : Bool
  /-- Samples. -/
  samples : List Nat
  deriving DecidableEq, Repr

/-- A request as its requester presents it (R483): bytes of one 256 B chunk of DRAM, so that it never crosses a 256 B boundary. -/
structure MemAsk where
  /-- Requester (R483). -/
  requester : Fin 10
  /-- It writes; requesters of class RT only read. -/
  write : Bool
  /-- DRAM address ÷ 256. -/
  chunk : Word
  /-- One end of its bytes in the chunk. -/
  a : Byte
  /-- The other end. -/
  b : Byte
  /-- What the data belongs to (R480). -/
  what : Nat
  deriving DecidableEq, Repr

/-- An ECHO ordered set that a head has returned (R223, R224), with the round trip in 312.5 ps steps. -/
structure EchoBack where
  /-- D1: the identifier. -/
  id : Byte
  /-- Check byte. -/
  check : Byte
  /-- Round trip. -/
  trip : Nat
  deriving DecidableEq, Repr

/-- sequenceId and logMessageInterval of a PTP message, and the transport that carries it (R340, R341). -/
structure PtpHeader where
  /-- It comes over UDP and IPv4, else as an IEEE 802.3 frame. -/
  udp : Bool
  /-- sequenceId. -/
  seq : Nat
  /-- logMessageInterval. -/
  log : Int
  deriving DecidableEq, Repr

/-- The port a PTP message comes from, its logMessageInterval and the transport that carries it (R340, R343). -/
structure PtpSource where
  /-- It comes over UDP and IPv4, else as an IEEE 802.3 frame. -/
  udp : Bool
  /-- sourcePortIdentity. -/
  port : Dword
  /-- logMessageInterval. -/
  log : Int
  deriving DecidableEq, Repr

/-- The commands and events of the block: one constructor per row of spec/opcode_table.json. -/
inductive Instr where
  /-- LINE_BOUNDARY (R11): The 32.18 position passes into a new line beyond the highest index reached in the epoch, and all line-keyed work for that boundary is started. -/
  | lineBoundary (samples : Samples)
  /-- REG64_LOWER_READ (R13): A read of the lower word of a 64-bit register latches its upper word. -/
  | reg64LowerRead (reg : Fin 0x100000)
  /-- REG64_UPPER_READ (R13): A read of the upper word of a 64-bit register returns the latched or present upper half and releases the latch. -/
  | reg64UpperRead (reg : Fin 0x100000)
  /-- REG64_LOWER_WRITE (R13): A write to the lower word of a 64-bit register is held until the upper word is written, replacing any held value. -/
  | reg64LowerWrite (reg : Fin 0x100000) (v : Word)
  /-- REG64_UPPER_WRITE (R13): A write to the upper word of a 64-bit register applies both halves together, or the upper half alone if no lower write is held. -/
  | reg64UpperWrite (reg : Fin 0x100000) (v : Word)
  /-- GLOBAL_STATE_READ (R40): A read of GLOBAL_STATE latches BAR_CONFIG and both words of LINE_POS at the same clock. -/
  | globalStateRead
  /-- REGISTER_WRITE (R14): A BAR0 write to a register that has no behaviour of its own is applied under its access code. -/
  | registerWrite (off : Fin 0x100000) (bytes : List (Option Byte))
  /-- FLR (R35): A function-level reset resets the PCI Express function, slot ownership, queue pointers and DMA engines; printing goes on. -/
  | flr
  /-- PCIE_LINK_DOWN (R36): The link goes down; the unit acts as for an FLR and sets PCIE_LINK_DOWN. -/
  | pcieLinkDown
  /-- PCIE_LINK_TRAINED (R36): The link trains again, and PCIE_LINK_DEGRADED is set if it trained below Gen4 x4. -/
  | pcieLinkTrained (gen : BitVec 4) (width : BitVec 5)
  /-- PCIE_UNCORR (R65): AER logs an uncorrectable error and PCIE_UNCORR is set. -/
  | pcieUncorr
  /-- PCIE_CORR (R65): AER logs a correctable error and PCIE_CORR is set. -/
  | pcieCorr
  /-- BUS_MASTER_ENABLE (R130): Bus mastering is enabled again; page records that fell due are written in index order and fetching resumes. -/
  | busMasterEnable
  /-- MSIX_UNMASK (R59): The host enables MSI-X or unmasks a vector, and the pending vector 2 and vector 3 messages are sent. -/
  | msixUnmask (enable funcMask : Bool) (unmask : Option (Fin 16))
  /-- HOST_ALIVE (R41): A write to HOST_ALIVE restarts the host watchdog count and ends any expiry. -/
  | hostAlive
  /-- HOST_WDOG_CFG (R41): A write to HOST_WDOG_CFG sets the timeout and action, restarts the count or disables the watchdog, and ends any expiry. -/
  | hostWdogCfg (v : Word)
  /-- HOST_WDOG_EXPIRED (R41): The host watchdog expires: HOST_WDOG is set, event 0x0103 is queued, and with ACTION 1 the unit leaves PRINT at the next boundary. -/
  | hostWdogExpired
  /-- COMMAND_SLOT_WRITE (R47): A host write to a command slot is stored, or is discarded when the slot is in DEVICE state. -/
  | commandSlotWrite (slot : Fin 16) (off : Nat) (bytes : List Byte)
  /-- DOORBELL (R46): A DOORBELL write moves each named slot from HOST to DEVICE and copies its command in ring order. -/
  | doorbell (mask : BitVec 16)
  /-- RESP_ACK (R47): A RESP_ACK write returns each named slot from DONE to HOST. -/
  | respAck (mask : BitVec 16)
  /-- EVQ_TAIL (R56): A write of EVQ_TAIL frees queue entries, or is rejected with EVQ_TAIL_INVALID when out of range. -/
  | evqTail (v : Word)
  /-- COALESCE_TIME_EXPIRY (R60): COALESCE_TIME passes after the first unsignalled entry and a vector 1 message is sent. -/
  | coalesceTimeExpiry (vector : Fin 16)
  /-- STK_CLEAR (R64): A W1C write to an STK register clears the named sticky bits, unless hardware sets them in the same clock. -/
  | stkClear (n : Fin 16) (v setNow : Word)
  /-- BERYL_HEARTBEAT (R38): Each 1 ms while Beryl runs, BERYL_HEARTBEAT increments. -/
  | berylHeartbeat
  /-- BERYL_RESTART (R53): Beryl restarts without a chip reset: MBX_READY goes to 0, ARMED groups abort with FW_RESTART, and rung commands are held. -/
  | berylRestart
  /-- BERYL_RESTART_DONE (R53): The restarted firmware completes held slots and outstanding commands with HW_FAULT, sets FW_RESTART and sets MBX_READY. -/
  | berylRestartDone
  /-- SYS_ECHO (R68): Returns its payload unchanged. -/
  | sysEcho (slot : Fin 16)
  /-- SYS_GET_INFO (R69): Returns firmware, serial, capacity and link information. -/
  | sysGetInfo (slot : Fin 16)
  /-- SYS_SET_OP_STATE (R70): Requests a transition of the operating state and answers once it is in force. -/
  | sysSetOpState (slot : Fin 16)
  /-- SYS_RESET_UNIT (R71): Requests a restart of Beryl or a chip reset, stopping firing first when FORCE is set in PRINT. -/
  | sysResetUnit (slot : Fin 16)
  /-- SYS_RESET_BEGIN (R71): 1 ms after the SYS_RESET_UNIT response, the requested reset begins. -/
  | sysResetBegin
  /-- SYS_FW_STAGE (R72): Checks its fields and starts fetching a signed firmware image into the inactive QSPI half. -/
  | sysFwStage (slot : Fin 16)
  /-- SYS_FW_STAGE_DONE (R72): The image fetch, signature check and QSPI write end, and the completion event reports the outcome. -/
  | sysFwStageDone (image : List Byte) (writeOk : Bool)
  /-- CG_OPEN (R104): Opens the lowest EMPTY group slot and returns a new HANDLE. -/
  | cgOpen (slot : Fin 16)
  /-- CG_STAGE (R105): Checks its fields and starts the DMA fetch of one object into a group. -/
  | cgStage (slot : Fin 16)
  /-- CG_STAGE_DONE (R84): The object fetch ends; the CRC is checked and the object is staged or the group keeps its previous state. -/
  | cgStageDone (group : Fin 4) (bytes : Option (List Byte))
  /-- CG_VALIDATE (R106): Starts validation of an OPEN group. -/
  | cgValidate (slot : Fin 16)
  /-- CG_VALIDATE_DONE (R85): Validation ends: the group becomes VALID with its digest, or the first failing object and reason are reported. -/
  | cgValidateDone (group : Fin 4)
  /-- CG_ARM (R107): Arms a group on a trigger, sends the arm record over Vigil and starts the loads its objects need. -/
  | cgArm (slot : Fin 16)
  /-- CG_ABORT (R103): Aborts an ARMED group with cause HOST. -/
  | cgAbort (slot : Fin 16)
  /-- CG_RELEASE (R103): Returns a group slot to EMPTY. -/
  | cgRelease (slot : Fin 16)
  /-- CG_LOCK_LINE (R88): The position reaches Lc - 64: an ARMED group is revalidated, the twin decision is taken, and it locks or aborts. -/
  | cgLockLine (group : Fin 4)
  /-- CG_COMMIT (R80): At boundary Lc a LOCKED group takes effect as a single action, with the new F_LIM and any new epoch. -/
  | cgCommit (samples : Samples)
  /-- WEB_STOPPED (R89): No line boundary has occurred for 1 ms and the web counts as stopped. -/
  | webStopped
  /-- CG_LOADS_COMPLETE (R89): On a stopped web, the loads of an IMMEDIATE group complete, and it is revalidated and takes effect at once. -/
  | cgLoadsComplete (group : Fin 4)
  /-- CG_TIME_REACHED_STOPPED (R90): On a stopped web, the given network time of a TIME group is reached and the group locks. -/
  | cgTimeReachedStopped (group : Fin 4)
  /-- CG_DECISION_DEADLINE (R95): Line Lc - 48 passes with no lock decision, so a STANDBY role unit aborts with TWIN_NO_LOCK and becomes unsynchronised. -/
  | cgDecisionDeadline (group : Fin 4)
  /-- RING_PROD (R115): A RING_PROD write makes new descriptors available for fetching. -/
  | ringProd (ring : Fin 4) (v : Word)
  /-- FETCH_RESUME (R116): Page store space frees, and a ring that waited for space resumes fetching. -/
  | fetchResume
  /-- DESC_FETCH_DONE (R114): A descriptor and its block table arrive and are checked, and block fetches are issued or the ring halts. -/
  | descFetchDone (ring : Fin 4) (desc table : List Byte)
  /-- BLOCK_FETCH_DONE (R121): A fetched block is decoded and checked at ingest, then stored or fetched again, up to a BAD store. -/
  | blockFetchDone (ring : Fin 4) (index : Word) (entry : Nat) (bytes : List Byte)
  /-- DMA_ERROR (R134): A fetch ends in a completion error or timeout, which is handled as a check failure, and DMA_ERROR is set. -/
  | dmaError (ring : Fin 4) (index : Word) (entry : Option Nat) (page : Option Nat)
  /-- TOPAZ_BLOCK_DECODED (R124): An engine finishes decoding a block and verifies it, releasing its lines or fetching the block again. -/
  | topazBlockDecoded (page entry : Nat) (poisoned : Bool)
  /-- TOPAZ_REFETCH_DONE (R124): A print-time refetch arrives and is decoded, and it replaces the stored copy or fails. -/
  | topazRefetchDone (page entry : Nat) (bytes : List Byte)
  /-- PD_RING_CONFIG (R135): Configures and enables a descriptor ring and resets its indices. -/
  | pdRingConfig (slot : Fin 16)
  /-- PD_RING_RESET (R135): Resets a ring and writes NOT_PRINTED records for pages that have not started. -/
  | pdRingReset (slot : Fin 16)
  /-- PD_PAGE_RELEASE (R135): Releases a retained page. -/
  | pdPageRelease (slot : Fin 16)
  /-- PD_REPRINT (R127): Places a retained page again in the page order, before BEFORE_PAGE. -/
  | pdReprint (slot : Fin 16)
  /-- PD_STORE_INFO (R135): Returns the page store capacity and usage. -/
  | pdStoreInfo (slot : Fin 16)
  /-- CV_COMPUTE (R135): Starts a check-value computation over host memory in a context. -/
  | cvCompute (slot : Fin 16)
  /-- CV_COMPUTE_DONE (R135): A CV_COMPUTE computation ends, or is stopped by an FLR, and its completion is queued. -/
  | cvComputeDone (ctx : Fin 4) (bytes : List Byte)
  /-- CV_START (R132): A CV_START write loads INIT into VALUE and processes the fold-in tag. -/
  | cvStart (ctx : Fin 4)
  /-- CV_DATA (R133): A CV_DATA write feeds 4 bytes into the context. -/
  | cvData (ctx : Fin 4) (v : Word)
  /-- CV_DATA64 (R132): A write of the upper word of CV_DATA64 feeds 8 bytes into the context. -/
  | cvData64 (ctx : Fin 4) (upper : Word)
  /-- CV_DATA8 (R132): A CV_DATA8 write feeds 1 byte into the context. -/
  | cvData8 (ctx : Fin 4) (v : Byte)
  /-- CV_VALUE_WRITE (R132): A write of CV_VALUE sets the running register so that a computation can resume. -/
  | cvValueWrite (ctx : Fin 4) (v : Dword)
  /-- SLICE_LINE_START (R137): A Garnet slice begins an image line at L - 16, or once it has finished the previous line. -/
  | sliceLineStart (mod : Fin 16)
  /-- SLICE_LINE_DONE (R137): A slice finishes an image line; its drops are placed in fire lines and energy sums are formed. -/
  | sliceLineDone (mod : Fin 16)
  /-- CURVE_BANK_LOAD (R149): With a group ARMED and a pending bank free, a slice starts loading the group's tone curve. -/
  | curveBankLoad (mod : Fin 16)
  /-- CURVE_BANK_LOADED (R149): A slice's pending curve bank finishes loading. -/
  | curveBankLoaded (mod : Fin 16)
  /-- SCR_GET_STATUS (R173): Returns the Garnet counters, clearing them if asked. -/
  | scrGetStatus (slot : Fin 16)
  /-- SCR_ROW_STATE_SAVE (R174): Arranges the capture of the row-choice state at L_s. -/
  | scrRowStateSave (slot : Fin 16)
  /-- SCR_ROW_STATE_SAVE_DONE (R174): The captured row state has been written to host memory and the completion is queued. -/
  | scrRowStateSaveDone (writeOk : Bool)
  /-- SCR_ROW_STATE_LOAD (R175): Starts fetching a row-state image to load at L_s. -/
  | scrRowStateLoad (slot : Fin 16)
  /-- SCR_ROW_STATE_FETCHED (R175): The row-state image arrives and is checked, then installed as each slice begins L_s, or rejected. -/
  | scrRowStateFetched (image : Option (List Byte))
  /-- SCR_TRACE (R176): Arranges a trace of one column through one image line. -/
  | scrTrace (slot : Fin 16)
  /-- TRAIN_COMMIT (R180): A sample puts t_fire within 400 ns, so the train's fire instant is committed and its COMMIT marker is sent. -/
  | trainCommit (mod : Fin 16) (fire : Nat) (row : Fin 4) (grp : Fin 8) (tx : Nat) (samples : Samples)
  /-- TRAIN_POSTPONED_START (R190): A train postponed by the current or refill guards starts once the guards allow it, or is withheld. -/
  | trainPostponedStart (mod : Fin 16) (fire : Nat) (row : Fin 4) (grp : Fin 8) (tx : Nat) (samples : Samples)
  /-- TRAIN_ABANDON (R181): 100 µs after a stop order, a train that has not started is abandoned and SLOT_ABANDONED is set. -/
  | trainAbandon (mod : Fin 16) (fire : Nat) (row : Fin 4) (grp : Fin 8)
  /-- PREP_MARKER (R232): A sample puts the predicted t_fire within 3,000 ns, so a PREP marker is sent for a train with pre-heat. -/
  | prepMarker (mod : Fin 16) (fire : Nat) (row : Fin 4) (grp : Fin 8) (tx : Nat) (samples : Samples)
  /-- TEMP_STALE (R196): No reading of a zone arrives for 20 µs, so the zone counts as at T_TRIP and TEMP_STALE is set. -/
  | tempStale (mod : Fin 16)
  /-- FIRE_GET_STATUS (R208): Returns the firing status registers, clearing the counters if asked. -/
  | fireGetStatus (slot : Fin 16)
  /-- FIRE_CONFIG (R209): Sets the slot pitch, rotation, heater limit, temperature levels and margin. -/
  | fireConfig (slot : Fin 16)
  /-- FIRE_RESUME (R198): Resumes firing after a heat hold or an overspeed stop when every zone is cool enough. -/
  | fireResume (slot : Fin 16)
  /-- FIRE_PROBE (R210): Starts or stops an energy probe plan. -/
  | fireProbe (slot : Fin 16)
  /-- FIRE_MEASURE_R (R202): Starts heater resistance measurement on the heads. -/
  | fireMeasureR (slot : Fin 16)
  /-- FIRE_MEASURE_R_DONE (R203): All readings are in and written to host memory, and the completion is queued. -/
  | fireMeasureRDone (written : Bool)
  /-- FIRE_SPIT (R212): Starts maintenance spitting of LINES lines at RATE in SERVICE. -/
  | fireSpit (slot : Fin 16)
  /-- SPIT_LINE (R204): The internal line clock of a spit run ticks and the next spit line is fired. -/
  | spitLine (samples : Samples)
  /-- RECEIVER_DETECT (R218): Every 1 ms in DETECT, the lane runs receiver detection and moves to POLL once a load and a signal are found. -/
  | receiverDetect (lane : Fin 16) (load signal : Bool)
  /-- TRAINING_SET_RX (R218): A valid TS1 or TS2 ordered set is received and counted for the lane's state transitions. -/
  | trainingSetRx (lane : Fin 16) (data : Byte × Byte) (check : Byte)
  /-- LANE_STATE_TIMEOUT (R218): A lane state's timeout expires and the lane returns to DETECT. -/
  | laneStateTimeout (lane : Fin 16)
  /-- CAP_BLOCK_RX (R222): A capability record is received and checked, and it is accepted or puts the lane in HELD. -/
  | capBlockRx (lane : Fin 16) (words : List Word)
  /-- ECHO_SEND (R223): Every 4 µs in LATENCY, the unit sends an ECHO ordered set. -/
  | echoSend (lane : Fin 16)
  /-- ECHO_RETURN_RX (R223): An ECHO return is received and timed; after 16, LAT is set and the lane goes ACTIVE. -/
  | echoReturnRx (lane : Fin 16) (echo : EchoBack)
  /-- LANE_RECOVERY (R219): Symbol errors or loss of signal send an ACTIVE lane to RECOVERY, and LANE_DOWN is set. -/
  | laneRecovery (lane : Fin 16) (lossOfSignal : Bool) (errors : Fin 257)
  /-- STATUS_FRAME_TIMEOUT (R219): No valid status frame arrives for 8 µs and the lane enters RECOVERY. -/
  | statusFrameTimeout (lane : Fin 16)
  /-- STATUS_FRAME_RX (R234): A head status frame is received and checked; its readings, faults, claims and reports are acted on. -/
  | statusFrameRx (lane : Fin 16) (words : List Word) (crc : Word)
  /-- BLANK_REPEAT (R241): Every 1 µs while a lane blanks, a BLANK ordered set is sent again. -/
  | blankRepeat (lane : Fin 16)
  /-- HL_GET_STATUS (R247): Returns a lane's view registers, clearing the counters if asked. -/
  | hlGetStatus (slot : Fin 16)
  /-- HL_LANE_CONFIG (R248): Enables or disables lanes and sets their electrical settings. -/
  | hlLaneConfig (slot : Fin 16)
  /-- HL_RETRAIN (R249): Sends each named enabled lane to DETECT. -/
  | hlRetrain (slot : Fin 16)
  /-- HL_GET_CAPS (R250): Returns the last capability record received on a lane. -/
  | hlGetCaps (slot : Fin 16)
  /-- COMPARATOR_FIRE (R333): A position comparator reaches its target and issues its action. -/
  | comparatorFire (cmp : Fin 24) (samples : Samples)
  /-- CSI_LINE_RX (R254): A camera line arrives as one CSI-2 frame; it is checked and buffered, and frames are dropped if no buffer is free. -/
  | csiLineRx (camera vc : Fin 4) (early : Bool) (packets : List CsiPacket)
  /-- CAMERA_LINE_TIMEOUT (R254): LINE_TIMEOUT passes after a trigger with no FE, so the line is missing. -/
  | cameraLineTimeout (camera : Fin 4)
  /-- OPAL_FRAME_START (R276): Opal begins the WAITING frame with the earliest deadline once its reference has been read. -/
  | opalFrameStart
  /-- OPAL_FRAME_DONE (R281): Opal finishes a frame and writes its statistics record, calibration data and page verdicts. -/
  | opalFrameDone
  /-- I2C_WRITE_DONE (R274): A script I²C write ends; the set applies LATENCY frames later, or is abandoned on a missing acknowledgement. -/
  | i2cWriteDone (camera : Fin 4) (ack : Bool)
  /-- INSP_GET_STATUS (R287): Returns a camera's view registers. -/
  | inspGetStatus (slot : Fin 16)
  /-- INSP_RING_CONFIG (R287): Configures the statistics or quality record ring. -/
  | inspRingConfig (slot : Fin 16)
  /-- INSP_SET_EXPOSURE (R288): Queues a new exposure set for a camera. -/
  | inspSetExposure (slot : Fin 16)
  /-- INSP_I2C_XFER (R289): Runs an I²C write and read with a camera. -/
  | inspI2cXfer (slot : Fin 16) (reason : Fin 4) (bytes : List Byte)
  /-- INSP_CAPTURE (R290): Arranges the copy of one camera frame to host memory. -/
  | inspCapture (slot : Fin 16)
  /-- CAL_SOLVE_START (R301): Enough pages have contributed, so a solve begins at L_snap and gathering moves to the other bank. -/
  | calSolveStart
  /-- CAL_SOLVE_DONE (R301): A solve ends with new curves, classifications and codes, or is rejected. -/
  | calSolveDone
  /-- CAL_AUTO_COMMIT (R309): A READY result is put into force by an own group once a slot is free and no host group blocks it. -/
  | calAutoCommit
  /-- CAL_GET_STATUS (R315): Returns the calibration view. -/
  | calGetStatus (slot : Fin 16)
  /-- CAL_CONFIG (R316): Sets the calibration controls and limits. -/
  | calConfig (slot : Fin 16)
  /-- CAL_RUN (R315): Starts a solve on request. -/
  | calRun (slot : Fin 16)
  /-- CAL_EXPORT (R312): Starts writing the READY result to host memory. -/
  | calExport (slot : Fin 16)
  /-- CAL_EXPORT_DONE (R312): The exported result has been written and the completion is queued. -/
  | calExportDone (written : Bool)
  /-- CAL_DISCARD (R308): Discards a READY result. -/
  | calDiscard (slot : Fin 16)
  /-- CAL_CLEAR (R315): Clears the accumulators and pending classifications of the named modules. -/
  | calClear (slot : Fin 16)
  /-- ENC_SIGNAL_FAULT (R321): An encoder develops a SIGNAL fault; its count holds and, for ENC0, no boundary or comparator acts. -/
  | encSignalFault (enc : Fin 2)
  /-- ENC_RECOVERED (R321): After 1 ms of valid signal, counting resumes and event 0x0902 is queued. -/
  | encRecovered (enc : Fin 2)
  /-- OVERFREQ (R319): The SINCOS signal frequency rises above 525 kHz, so OVERFREQ_LIVE is 1 and OVERFREQ is set. -/
  | overfreq (enc : Fin 2)
  /-- QUAD_ERR (R319): In ABZ mode A and B change in the same filtered sample, so the count is left unchanged and QUAD_ERR is set. -/
  | quadErr (enc : Fin 2)
  /-- DIRECTION (R323): An encoder's DIR changes past its hysteresis and event 0x0903 is queued. -/
  | direction (enc : Fin 2) (samples : Samples)
  /-- ENC_INDEX (R325): An index pulse arrives in forward motion and is checked against REF, with a small slip corrected. -/
  | encIndex (enc : Fin 2) (samples : Samples)
  /-- INDEX_MISSING (R326): No index arrives within 1.5 × INDEX_COUNTS forward counts, so INDEX_MISSING is set. -/
  | indexMissing (enc : Fin 2) (samples : Samples)
  /-- ENC_AGREE_WINDOW (R328): Each 1 ms the speeds of ENC0 and ENC1 are compared and AGREE is updated. -/
  | encAgreeWindow (samples : Samples)
  /-- PTP_SYNC_RX (R341): A PTP Sync or Follow_Up message is received and stamped in software. -/
  | ptpSyncRx (domain : Byte) (port : Dword) (hdr : PtpHeader) (followUp : Bool) (t1 : Option Dword) (jitter : Int)
  /-- PTP_DELAY_REQ_TX (R341): A Delay_Req is sent and stamped in software. -/
  | ptpDelayReqTx (seq : Nat) (jitter : Int)
  /-- PTP_DELAY_RESP_RX (R341): A Delay_Resp completes an exchange and the servo steps or slews NET_TIME. -/
  | ptpDelayRespRx (domain : Byte) (source : PtpSource) (seq : Nat) (t4 : Dword)
  /-- PTP_ANNOUNCE_RX (R343): A PTP Announce is received and master selection runs. -/
  | ptpAnnounceRx (domain : Byte) (p1 cls acc var p2 : Nat) (gm : Dword) (steps : Nat) (source : PtpSource)
  /-- PTP_MASTER_LOST (R343): Announce or Sync intervals pass without a message, so the master is lost and HOLDOVER begins. -/
  | ptpMasterLost
  /-- HOLDOVER_EXPIRED (R345): The holdover error estimate passes HOLDOVER_LIMIT, so the state becomes EXPIRED. -/
  | holdoverExpired
  /-- TIMER_FIRE (R349): A timer reaches its instant on its time scale and issues its action. -/
  | timerFire (timer : Fin 8) (samples : Samples)
  /-- ABS_READ_DONE (R352): An absolute-position read ends and its outcome updates or holds the position. -/
  | absReadDone (port : Fin 2) (started : Bool) (raw err crcRx : Nat)
  /-- POS_GET_STATUS (R355): Returns the position view registers. -/
  | posGetStatus (slot : Fin 16)
  /-- POS_ENC_CONFIG (R356): Sets the mode and parameters of an encoder. -/
  | posEncConfig (slot : Fin 16)
  /-- POS_ENCO_CONFIG (R357): Sets the emulation output. -/
  | posEncoConfig (slot : Fin 16)
  /-- POS_CMP_ARM (R358): Arms a host comparator, which may turn out late. -/
  | posCmpArm (slot : Fin 16)
  /-- POS_CMP_DISARM (R355): Disarms a comparator and returns its state. -/
  | posCmpDisarm (slot : Fin 16)
  /-- POS_CAPTURE_READ (R355): Takes up to 7 capture records out of the FIFO. -/
  | posCaptureRead (slot : Fin 16)
  /-- POS_ABS_CONFIG (R361): Sets the protocol and parameters of an absolute-position port. -/
  | posAbsConfig (slot : Fin 16)
  /-- TIME_CONFIG (R360): Sets PTP and holdover parameters. -/
  | timeConfig (slot : Fin 16)
  /-- TIME_SET (R344): Steps NET_TIME to a given value. -/
  | timeSet (slot : Fin 16)
  /-- TIME_TIMER_ARM (R359): Arms or disarms a timer. -/
  | timeTimerArm (slot : Fin 16)
  /-- PLANNER_TICK (R369): Every 10 µs the axis planner updates the motion under its limits and the causes acting on it. -/
  | plannerTick
  /-- AX_HOLD_CURRENT (R370): An axis has stood still for HOLD_MS, so I_NOW drops to I_HOLD. -/
  | axHoldCurrent (axis : Fin 2)
  /-- CHOP_ON_END (R367): After blanking, the chopper comparator goes high and the on-period ends. -/
  | chopOnEnd (axis : Fin 2) (b : Bool)
  /-- CHOP_OFF_END (R367): T_OFF expires and a new on-period begins. -/
  | chopOffEnd (axis : Fin 2) (b : Bool)
  /-- LIMIT_SWITCH_EDGE (R376): A filtered limit switch trips, so the axis stops if moving towards it and LIMIT_TRIP is set. -/
  | limitSwitchEdge (axis : Fin 2) (hi level : Bool) (clocks : Nat)
  /-- HOME_EDGE (R377): A filtered HOME edge latches the commanded position. -/
  | homeEdge (axis : Fin 2) (level : Bool) (clocks : Nat)
  /-- CAP_SW_EDGE (R384): CAP_SW changes, so CAP_CONFIRMED is updated and event 0x0A08 is queued. -/
  | capSwEdge (level : Bool) (clocks : Nat)
  /-- AX_GET_STATUS (R387): Returns an axis view. -/
  | axGetStatus (slot : Fin 16)
  /-- AX_CONFIG (R388): Sets an axis's drive and motion parameters. -/
  | axConfig (slot : Fin 16)
  /-- AX_MOVE (R371): Queues or replaces a move of an axis. -/
  | axMove (slot : Fin 16)
  /-- AX_STOP (R372): Empties an axis's queue and stops it. -/
  | axStop (slot : Fin 16)
  /-- AX_HOME (R379): Starts homing of an axis. -/
  | axHome (slot : Fin 16)
  /-- AX_SEQ (R383): Starts the CAP, UNCAP or WIPE sequence. -/
  | axSeq (slot : Fin 16)
  /-- AX_SEQ_CONFIG (R389): Sets the positions used by the sequences. -/
  | axSeqConfig (slot : Fin 16)
  /-- AX_CLEAR_FAULT (R387): Clears an axis FAULT once its cause is gone. -/
  | axClearFault (slot : Fin 16)
  /-- LAMP_STATUS_FRAME (R401): Every 10 ms a LOAD 0 frame is sent to the Lantern chain to gather driver status. -/
  | lampStatusFrame (chain : Fin 2)
  /-- LANTERN_RETURN_RX (R403): A return stream arrives; derating, open and short status and PENDING_OK are taken from it. -/
  | lanternReturnRx (chain : Fin 2) (h seen : Byte) (statuses : List (List Byte))
  /-- LANTERN_RETURN_TIMEOUT (R403): No correct return stream arrives within 2 frame times, so CHAIN_BROKEN is set. -/
  | lanternReturnTimeout (chain : Fin 2)
  /-- LAMP_GET_STATUS (R409): Returns a chain's view. -/
  | lampGetStatus (slot : Fin 16)
  /-- LAMP_DIAG_NOW (R409): Places a DIAG pulse at the next camera line. -/
  | lampDiagNow (slot : Fin 16)
  /-- LAMP_READ_DRIVERS (R409): Returns the last driver status words. -/
  | lampReadDrivers (slot : Fin 16)
  /-- VIGIL_FRAME_TX (R418): Every 2.560 µs the unit sends a Vigil frame with its state, claim and digest. -/
  | vigilFrameTx (samples : Samples)
  /-- VIGIL_FRAME_RX (R419): A Vigil frame is received and checked; the peer state and digests are compared. -/
  | vigilFrameRx (words : List Word) (crc : Word)
  /-- VIGIL_PEER_LOST (R421): No valid Vigil frame arrives for 7.68 µs, so the peer is lost. -/
  | vigilPeerLost
  /-- VIGIL_GRACE_EXPIRY (R433): The peer stays lost for VIGIL_GRACE_MS while heads fire it, so the STANDBY role unit becomes unsynchronised. -/
  | vigilGraceExpiry
  /-- VIGIL_POSITION_TX (R420): Every 1 ms a unit in SOLO or ACTIVE role queues a POSITION message. -/
  | vigilPositionTx
  /-- ARM (R94): A peer's arm record message is received and held for the lock-line comparison. -/
  | arm (seq : Byte) (epoch line digest : Word)
  /-- DECISION (R95): The ACTIVE role unit's lock or abort decision is received and acted on. -/
  | decision (seq : Byte) (epoch line : Word) (lock : Bool) (cause : Byte)
  /-- PAGE_START (R123): The peer's L_s for a page is received, and the STANDBY role unit begins the page there. -/
  | pageStart (seq : Byte) (epoch line number : Word)
  /-- SWITCH (R432): A SWITCH message is received; the new claim is written and sent from line L_sw. -/
  | switch (seq : Byte) (epoch line claim : Word)
  /-- POSITION (R425): A POSITION message is adopted or compared with the own position. -/
  | position (seq : Byte) (epoch : Word) (position : BitVec 50) (samples : Samples)
  /-- JOIN_A (R439): The first part of the join context is received. -/
  | joinA (seq : Byte) (epoch line jobId : Word)
  /-- JOIN_B (R439): The second part of the join context is received. -/
  | joinB (seq : Byte) (number first pages : Word)
  /-- SERIAL (R419): The peer's serial is received. -/
  | serial (seq : Byte) (serial : Dword)
  /-- PRSNT_CHANGE (R436): The filtered PRSNT_N changes; on release, the unit blanks and idles its lanes and enters LISTEN. -/
  | prsntChange (low : Bool)
  /-- TWIN_GET_STATUS (R443): Returns the twin view. -/
  | twinGetStatus (slot : Fin 16)
  /-- TWIN_SET_ROLE (R444): Assigns a role under the conditions of R411. -/
  | twinSetRole (slot : Fin 16)
  /-- TWIN_SWITCHOVER (R445): Hands the bar to the synchronised peer at L_sw. -/
  | twinSwitchover (slot : Fin 16)
  /-- TWIN_JOIN (R446): Arms the join group for L_s and asks the peer for the join context. -/
  | twinJoin (slot : Fin 16)
  /-- TWIN_CONFIG (R447): Sets TAKEOVER_EN, VIGIL_GRACE_MS and SYNC_LINES. -/
  | twinConfig (slot : Fin 16)
  /-- TWIN_WAKE_PEER (R422): Sends the Vigil wake pattern. -/
  | twinWakePeer (slot : Fin 16)
  /-- ONYX_TICK (R454): Each 1 ms Onyx forms the encoder speeds, grants or withdraws permissions, and checks its configuration and outputs. -/
  | onyxTick (edges0 edges1 : Int) (encPresent capSw hpwrFb : Bool) (present : BitVec 17) (failedItem : Option Nat)
  /-- ONYX_ENVELOPE_LOSS (R454): An encoder track envelope is lost, or a pair reads open, for 2 µs, so Onyx withdraws WEB at once. -/
  | onyxEnvelopeLoss (enc : Fin 2)
  /-- ONYX_GATE_CLOSE (R456): 100 µs after its own withdrawal without a new grant, Onyx closes its marker gates. -/
  | onyxGateClose
  /-- ONYX_ENERGY_SUM (R460): Onyx receives an energy sum and compares E_F + E_W with E_G for the fire line. -/
  | onyxEnergySum (mod : Fin 16) (fire : Nat) (eG : Option Word) (eFW : Option (Word × Word))
  /-- ONYX_LAMP_OFF (R458): Both speeds stay below V_LAMP for 50 ms, or 1.0 ms passes after a trip, so LAMP_PWR_EN goes low. -/
  | onyxLampOff
  /-- ONYX_AXIS_RESTORE (R459): 100 ms after an axis enable was removed by a trip, it is restored. -/
  | onyxAxisRestore (axis : Fin 2)
  /-- ONYX_WDOG_KICK (R462): Beryl kicks the Onyx watchdog, and the kick is checked for its window and value. -/
  | onyxWdogKick (value : Byte) (interval : Nat)
  /-- ONYX_WDOG_TIMEOUT (R462): No valid kick arrives in time, so WATCHDOG trips and Beryl is restarted or held. -/
  | onyxWdogTimeout
  /-- ONYX_CLOCK_CHECK (R463): Each 5 µs of AON time the main clock count is checked, and CLOCK trips if it is out of range. -/
  | onyxClockCheck (count : Nat)
  /-- SUPPLY_FAULT (R463): A rail stays outside its limits for 2 µs and SUPPLY trips. -/
  | supplyFault (rail : Fin 7)
  /-- DIE_TEMP_TRIP (R461): TJ stays at or above 125 °C for 1 ms and DIE_TEMP trips. -/
  | dieTempTrip (tj : Int)
  /-- HPWR_STUCK (R461): HPWR_FB is still high 1 ms after the own enables fell, and HPWR_STUCK trips. -/
  | hpwrStuck
  /-- SAFE_GET_STATUS (R474): Returns the Onyx view. -/
  | safeGetStatus (slot : Fin 16)
  /-- SAFE_CONFIG (R475): Sets the Onyx configuration and renews its CRC. -/
  | safeConfig (slot : Fin 16)
  /-- SAFE_EXIT (R467): Leaves SAFE for READY in LISTEN role when no cause remains. -/
  | safeExit (slot : Fin 16)
  /-- SAFE_TRIP (R474): Trips Onyx with cause HOST. -/
  | safeTrip (slot : Fin 16)
  /-- DRAM_REFRESH (R487): tREFI expires and an all-bank refresh stalls every requester, with ZQCS and the temperature readout every 128th time. -/
  | dramRefresh (rank0 rank1 : Option (Fin 3))
  /-- DRAM_READ_RETURN (R480): Read data returns and is checked by ECC, corrected with write-back or marked poisoned. -/
  | dramReadReturn (rtAsks asks : List MemAsk) (slots : List (List Nat)) (corrected lost : List (Fin 32)) (empty0 empty1 empty2 : Bool)
  /-- BULK_PROMOTE (R484): A BULK request waits AGE and is promoted to URGENT. -/
  | bulkPromote (rtAsks asks : List MemAsk)
  /-- STARVED (R484): A promoted request waits a further 4 × AGE, so STARVED is set. -/
  | starved (asks : List MemAsk)
  /-- ECC_CORRECTED (R497): At most once per second, event 0x0E01 reports the corrections counted since the previous one. -/
  | eccCorrected
  /-- TRAINING_PASS_DONE (R491): A training pass ends; the values are kept or the pass fails. -/
  | trainingPassDone (failStep : Option (Fin 8)) (margin : BitVec 24) (cmp : Word) (verifyOk : Bool)
  /-- ZERO_FILL_DONE (R482): The zero fill of DRAM ends and requesters are admitted. -/
  | zeroFillDone (ok : Bool)
  /-- MEM_GET_STATUS (R498): Returns the DRAM view. -/
  | memGetStatus (slot : Fin 16)
  /-- MEM_TRAIN (R495): Starts a training pass. -/
  | memTrain (slot : Fin 16)
  /-- MEM_SET_RATE (R494): Changes the DRAM data rate through self-refresh and retraining. -/
  | memSetRate (slot : Fin 16)
  /-- MEM_CLASS_CONFIG (R498): Sets the AGE of a BULK requester. -/
  | memClassConfig (slot : Fin 16)
  /-- MEM_ECC_INJECT (R498): Writes a word with injected errors and reads it back under ECC. -/
  | memEccInject (slot : Fin 16)
  /-- PRF_WRITE (R503): A host write to a PRF word persists, or is discarded when protected or worn out, and the wear counter increments. -/
  | prfWrite (word : Fin 1024) (v : Word)
  /-- MRAM_REFRESH (R502): Every 7 days of OP_MINUTES, every persistent MRAM word is read and written back. -/
  | mramRefresh (corrected : Bool) (uncorrectable : Option Nat)
  /-- OP_MINUTE (R517): A powered minute passes and OP_MINUTES is incremented and stored. -/
  | opMinute
  /-- ALMANAC_BUDGET_TICK (R520): Every 3.906 25 ms the Almanac budget gains one record. -/
  | almanacBudgetTick
  /-- ALMANAC_RECORD_WRITE (R521): A queued record is written to its ring slot once budget allows. -/
  | almanacRecordWrite
  /-- SET_WRITE_START (R513): A pending calibration set write starts once no write runs and SET_MIN_S has passed. -/
  | setWriteStart
  /-- SET_WRITE_DONE (R513): A set write finishes its read-back and commit record, or fails. -/
  | setWriteDone (copied committed : Bool)
  /-- PERS_GET_STATUS (R526): Returns the wear counters, set view and Almanac counters. -/
  | persGetStatus (slot : Fin 16)
  /-- PERS_SET_WRITE (R526): Requests a calibration set write of the state in force. -/
  | persSetWrite (slot : Fin 16)
  /-- PERS_SET_INVALIDATE (R526): Invalidates the commit records of the named slots. -/
  | persSetInvalidate (slot : Fin 16)
  /-- ALM_WRITE (R526): Records a host entry in Almanac. -/
  | almWrite (slot : Fin 16)
  /-- ALM_READ (R526): Returns up to 7 Almanac records. -/
  | almRead (slot : Fin 16)
  /-- PWR_GET_STATUS (R550): Returns the power view. -/
  | pwrGetStatus (slot : Fin 16)
  /-- PWR_SET_STATE (R551): Moves the unit to a power state, or arms it for SLEEP. -/
  | pwrSetState (slot : Fin 16)
  /-- PWR_RESUME (R542): Ends a brownout hold once VDD_CORE is stable. -/
  | pwrResume (slot : Fin 16)
  /-- PWR_PAD_RELEASE (R552): Releases the held pads of the named islands. -/
  | pwrPadRelease (slot : Fin 16)
  /-- PWR_WAKE_CONFIG (R553): Sets the wake sources and the wake frame parameters. -/
  | pwrWakeConfig (slot : Fin 16)
  /-- PWR_BOOT_LOAD (R554): Fetches a signed image from host memory while the boot ROM waits. -/
  | pwrBootLoad (slot : Fin 16)
  /-- PWR_BOOT_LOAD_DONE (R554): The pushed image is verified and started, or rejected with CHECK_MISMATCH. -/
  | pwrBootLoadDone (image : List Byte)
  /-- ISLAND_DRAIN_DONE (R531): An island's transaction tracker reaches 0, so it is isolated and its pads are held. -/
  | islandDrainDone (island : Fin 4)
  /-- DRAIN_TIMEOUT (R531): The tracker does not reach 0 within 100 µs, so the request fails with BUSY. -/
  | drainTimeout (island : Fin 4) (count : Nat)
  /-- ISLAND_STAGE_READY (R538): An island bring-up stage reports ready and the next stage or island starts. -/
  | islandStageReady (island : Fin 4)
  /-- SEQ_TIMEOUT (R539): An island bring-up stage times out, so the island is retried or the failure outcome applies. -/
  | seqTimeout (island : Fin 4)
  /-- SLEEP_ENTER (R535): With VIG_RX quiet and the link in L2, an armed unit enters SLEEP. -/
  | sleepEnter
  /-- SLEEP_ABORTED (R535): 1 s after arming without the conditions for SLEEP, the unit disarms. -/
  | sleepAborted (reason : Fin 3)
  /-- SLEEP_MINUTE (R536): The AON island counts a whole minute in SLEEP. -/
  | sleepMinute
  /-- VIGIL_ACTIVITY_WAKE (R534): Vigil activity is detected and wakes the unit from SLEEP. -/
  | vigilActivityWake
  /-- VIGIL_WAKE_PATTERN (R534): The Vigil wake pattern is detected and wakes the unit. -/
  | vigilWakePattern
  /-- ETH_WAKE_FRAME (R534): A matching Ethernet wake frame wakes the unit from SLEEP. -/
  | ethWakeFrame (fcsGood : Bool) (etype : BitVec 16) (payload : List Byte)
  /-- PCIE_L2_EXIT (R534): Release of PERST_N, or a link exit from L2, wakes the unit from SLEEP. -/
  | pcieL2Exit
  /-- BROWNOUT_WARN (R541): VDD_CORE falls below the warning level, so the brownout hold begins and SUPPLY is withdrawn. -/
  | brownoutWarn (mv : Nat)
  /-- BROWNOUT (R541): VDD_CORE rises back above the warning level, and event 0x0F02 is queued. -/
  | brownout (lowMv micros : Nat)
  /-- CORE_STABLE (R540): VDD_CORE has held at or above 0.715 V for 1 ms and counts as stable. -/
  | coreStable
  /-- CORE_UNDERVOLTAGE (R543): VDD_CORE stays below 0.675 V for 2 µs, so a SUPPLY trip latches and a core reset follows. -/
  | coreUndervoltage
  /-- CORE_RESET_ASSERT (R543): 8.0 µs after the undervoltage trip, core reset is asserted with cause CORE_UV. -/
  | coreResetAssert
  /-- POWER_ON_RESET (R544): Power-on reset is asserted or released as the rails leave or enter their limits. -/
  | powerOnReset (asserted : Bool)
  /-- RESET_N (R544): RESET_N is held low for at least 1 µs and causes a chip reset. -/
  | resetN (low : Bool)
  /-- PERST_N (R545): PERST_N holds or releases the PCI Express controller. -/
  | perstN (low : Bool)
  /-- TRST_N (R544): TRST_N resets the test logic. -/
  | trstN (low : Bool)
  /-- CHIP_RESET_RELEASE (R546): Chip reset is released; the Onyx self-test and island bring-up begin. -/
  | chipResetRelease (selfTestFail : Option Nat)
  /-- FIRMWARE_START (R547): The boot image is read and verified and the firmware starts, or the boot ROM waits for a pushed image. -/
  | firmwareStart (halfA halfB : List Byte)
  /-- BOOT_COMPLETE (R66): Beryl completes boot and self-test, the calibration set is loaded, and the unit enters READY. -/
  | bootComplete (badA badB : Bool)
  /-- CTLE_SETTLED (R218): In EQUALISE, the adaptive receive CTLE finishes its 16 trial settings and settles, which can move the lane to CONFIG. -/
  | ctleSettled (lane : Fin 16) (width height : List Byte)
  /-- AON_CLOCK_CHECK (R463): Every 1,000 ENC clocks the ENC domain checks its count of AON clocks, and Onyx trips CLOCK if it is out of range. -/
  | aonClockCheck (count : Nat)
  /-- LOCKSTEP_MISMATCH (R461): Beryl's two lockstep cores differ and Onyx latches a hard LOCKSTEP trip. -/
  | lockstepMismatch
  /-- HEAD_POWER_ENABLE_REMOVED (R464): 6.0 µs after a trip latches, HPWR_EN_A is held low, HPWR_EN_B and SAFE_OK go low, and SAFE entry completes. -/
  | headPowerEnableRemoved
  /-- CORE_UV_AT_ONCE (R543): VDD_CORE falls below 0.600 V before the 2 µs undervoltage filter elapses, and core reset is asserted at once. -/
  | coreUvAtOnce
  /-- STARTUP_RETRY (R539): After a second bring-up timeout of the CPU or IO island, the chip stays in reset and retries the whole start-up sequence every 1 s. -/
  | startupRetry
  /-- ALM_WRITE_TIMEOUT (R526): A host Almanac entry not written within 10 ms of the ALM_WRITE start is withdrawn from the queue, and the command answers BUSY. -/
  | almWriteTimeout (slot : Fin 16)
  /-- OVERFREQ_CLEAR (R319): The SINCOS signal frequency falls back below the over-frequency band and OVERFREQ_LIVE returns to 0. -/
  | overfreqClear (enc : Fin 2)
  /-- ENCO_OVERRUN (R330): The emulation output falls more than 16 counts behind ENC0, so ENCO_OVERRUN is set. -/
  | encoOverrun (samples : Samples)
  /-- TBL_BLOCK_TX (R242): The lane transmitter has spare symbols and sends the next TBL block of a pending table load. -/
  | tblBlockTx (lane : Fin 16)
  /-- LEGACY_STROBE_END (R404): At the end of the on-time of a legacy-mode strobe, the chip shifts zeros into the chain and latches them. -/
  | legacyStrobeEnd (chain : Fin 2)
  deriving DecidableEq, Repr

end Sys2Proof
end

