-- ==== Sys2Proof/WellFormed.lean ====
section
/-!
DEFINITION. Which commands are well-formed: the shapes of the lists, the sizes and the ranges that the spec gives what arrives from outside.
The machine gives every command a meaning, well-formed or not (log 30).
-/
namespace Sys2Proof

/-- A sample moves an encoder by at most a quarter of a signal period, 1,024 counts in SINCOS mode (R317, R319), and is 10 ENC clocks (R320). -/
def EncIn.wf : EncIn → Bool
  | .count d => decide (-1024 ≤ d ∧ d ≤ 1024)
  | .pins l => l.length == 10
  | .tracks _ _ z => z.length == 10

/-- Each sample is what both encoders can bring. -/
def Samples.wf (l : Samples) : Bool := l.all fun x => x.1.wf && x.2.wf

/-- A RAW10 or RAW12 packet whose samples fit its data type (R251, R252). -/
def CsiPacket.wf (p : CsiPacket) : Bool :=
  (p.type == 0x2B && p.samples.all (· < 1024)) || (p.type == 0x2C && p.samples.all (· < 4096)) || (p.type != 0x2B && p.type != 0x2C)

/-- An aligned 64-bit register's lower word (R13). -/
def pairAligned (reg : Fin 0x100000) : Bool := reg.val % 8 == 0

/-- Well-formedness of a command: a write lies inside its slot or inside BAR0 (R34, R37, R42), a list has the number of words or bytes its
frame, block or descriptor has (R113, R221, R234, R419), and a number fits its field. -/
def Instr.wf : Instr → Bool
  | .lineBoundary s | .cgCommit s | .spitLine s | .encAgreeWindow s | .vigilFrameTx s | .encoOverrun s => s.wf
  | .trainCommit _ _ _ _ _ s | .trainPostponedStart _ _ _ _ _ s | .prepMarker _ _ _ _ _ s | .comparatorFire _ s => s.wf
  | .direction _ s | .encIndex _ s | .indexMissing _ s | .timerFire _ s | .position _ _ _ s => s.wf
  | .reg64LowerRead r | .reg64UpperRead r | .reg64LowerWrite r _ | .reg64UpperWrite r _ => pairAligned r
  | .registerWrite off bytes => decide (0 < bytes.length ∧ off.val + bytes.length ≤ 0x100000)
  | .commandSlotWrite _ off bytes => decide (off + bytes.length ≤ 256)
  | .pcieLinkTrained gen width => decide (1 ≤ gen.toNat ∧ gen.toNat ≤ 4) && [1, 2, 4].contains width.toNat
  | .descFetchDone _ desc table => desc.length == 64 && table.length % 16 == 0
  | .capBlockRx _ words => words.length == 16
  | .statusFrameRx _ words _ => words.length == 24
  | .vigilFrameRx words _ => words.length == 8
  | .csiLineRx _ _ _ packets => packets.all CsiPacket.wf
  | .lanternReturnRx _ _ _ statuses => decide (statuses.length ≤ 255)
  | .absReadDone _ _ raw err crcRx => decide (raw < 2 ^ 64 ∧ err < 4 ∧ crcRx < 2 ^ 16)
  | .ptpAnnounceRx _ p1 cls acc var p2 _ steps _ =>
    decide (p1 < 256 ∧ cls < 256 ∧ acc < 256 ∧ var < 65536 ∧ p2 < 256 ∧ steps < 65536)
  | .ptpSyncRx _ _ hdr _ _ _ => decide (hdr.seq < 65536)
  | .ptpDelayReqTx seq _ | .ptpDelayRespRx _ _ seq _ => decide (seq < 65536)
  | .ctleSettled _ width height => width.length == 16 && height.length == 16
  | .dramReadReturn rtAsks asks _ _ _ _ _ _ | .bulkPromote rtAsks asks =>
    rtAsks.all (fun x => !x.write && x.requester.val < 3) && asks.all fun x => !(x.requester.val < 3)
  | .starved asks => asks.all fun x => !(x.write && x.requester.val < 3)
  | .sleepAborted reason => reason != 0
  | _ => true

end Sys2Proof
end

