-- ==== Sys2Proof/Machine/State.lean ====
section
/-!
DEFINITION. The state of the block as plain data. Each sub-structure's fields have as their defaults the values right
after reset, so that `State.reset` is the structure with every field at its default (INVENTORY.md, State).
-/
namespace Sys2Proof.Machine

/-- MSI-X table right after reset: 16 entries of four words, vector control 1 (masked) (R32; PCI Express Base). -/
def Config.msixTableReset : List Word := (List.replicate 16 [0, 0, 0, 1]).flatten

/-- Defined bits of STK register n = 0x00 to 0x0F (R63 and the sticky tables of the chapters); entry 0 is unused. -/
def Config.stkDefined : List Word := [0x00000000, 0x00003FFF, 0x0000003F, 0x000001FF, 0x0000003F, 0x00001FFF, 0x000007FF, 0x000001FF, 0x0000003F, 0x0003FFFF, 0x000000FF, 0x000001FF, 0x000007FF, 0x000001FF, 0x0001FFFF, 0x0000000F]

/-- The PRF as delivered: every word is 0 (R505). -/
def Config.prfDelivered : List Word := List.replicate 1024 0

/-- State of a mailbox slot pair (R45). -/
inductive SlotState where
  | host | device | done
  deriving DecidableEq, Repr

/-- Operating state, with the codes of R39. -/
inductive OpState where
  | boot | ready | print | service | safe
  deriving DecidableEq, Repr

/-- Code of an operating state (R39). -/
def OpState.code : OpState → Nat
  | .boot => 0 | .ready => 1 | .print => 2 | .service => 3 | .safe => 4

/-- Role, with the codes of R39. -/
inductive Role where
  | solo | active | standby | listen
  deriving DecidableEq, Repr

/-- Code of a role (R39). -/
def Role.code : Role → Nat
  | .solo => 0 | .active => 1 | .standby => 2 | .listen => 3

/-- Power state, with the codes of R39 (OFF cannot be read). -/
inductive PwrState where
  | sleep | hold | standby | run
  deriving DecidableEq, Repr

/-- Code of a power state (R39). -/
def PwrState.code : PwrState → Nat
  | .sleep => 1 | .hold => 2 | .standby => 3 | .run => 4

/-- State of a commit-group slot (R83, R101). -/
inductive CgState where
  | empty | opened | valid | armed | locked | committed | aborted
  deriving DecidableEq, Repr

/-- Code of a group state (R83). -/
def CgState.code : CgState → Nat
  | .empty => 0 | .opened => 1 | .valid => 2 | .armed => 3 | .locked => 4 | .committed => 5 | .aborted => 6

/-- A block of a page in the page store (R121). -/
inductive BlkState where
  | wanted | good | bad
  deriving DecidableEq, Repr

/-- Print-time decoding of a block (R124). -/
inductive BlkDec where
  | idle | decoding | released | blanked | refetching
  deriving DecidableEq, Repr

/-- State of a Vozor Head Link lane (R218, R244). -/
inductive LaneState where
  | disabled | detect | poll | equalise | config | latency | active | recovery | held
  deriving DecidableEq, Repr

/-- What became of a train (R180, R189, R190). -/
inductive TrainState where
  | waiting | prepared | postponed | fired | withheld
  deriving DecidableEq, Repr

/-- Camera port state (R284). -/
inductive CamState where
  | off | sync | stream | lost
  deriving DecidableEq, Repr

/-- Camera frame buffer state (R284). -/
inductive BufState where
  | free | filling | waiting | processing
  deriving DecidableEq, Repr

/-- Calibration result state (R313). -/
inductive CalResult where
  | none | solving | ready | committing
  deriving DecidableEq, Repr

/-- Comparator state (R353). -/
inductive CmpState where
  | idle | armed | fired | late | ended
  deriving DecidableEq, Repr

/-- Time synchronisation state (R343). -/
inductive TimeState where
  | freeRun | acquiring | locked | holdover | expired
  deriving DecidableEq, Repr

/-- Axis state (R385). -/
inductive AxState where
  | idle | moving | homing | sequence | stopping | fault
  deriving DecidableEq, Repr

/-- A cause that acts on an axis at the next planner tick, in the order of R378. -/
inductive StopCause where
  | posInvalid | stall | interlock | limit | stopHard | stopSoft
  deriving DecidableEq, Repr

/-- The K symbols of ordered sets (R224). -/
inductive KSym where
  | k28_5 | k28_2 | k29_7 | k30_7 | k28_0 | k28_4 | k28_6 | k23_7 | k27_7 | k28_1
  deriving DecidableEq, Repr

/-- What a Vozor Head Link lane sends. -/
inductive LaneItem where
  /-- An ordered set: K symbol, D1, D2 and check byte (R224). -/
  | set (k : KSym) (d1 d2 check : Byte)
  /-- An ordered set that is sent over and over until the lane's state changes (R218, R225). -/
  | always (k : KSym) (d1 d2 check : Byte)
  /-- A part of a frame with its check, as it is sent or resent (R226, R236). -/
  | part (bytes : List Byte)
  /-- A TBL block after its K28.3: header, data and check (R242). -/
  | table (bytes : List Byte)
  /-- Receiver detection (R218). -/
  | detect
  /-- The transmitter goes into electrical idle (R429, R436). -/
  | elecIdle
  deriving DecidableEq, Repr

/-- What an illumination chain sends. -/
inductive LampItem where
  /-- A configuration frame: RESET and its bits, as ns high and then ns low each (R391, R392). -/
  | frame (pulses : List (Nat × Nat))
  /-- A marker: ns high (1,000 STROBE, 2,000 SWAP, 3,000 DIAG), and the instant of its rising edge, ns (R391, R398, R400, R402). -/
  | marker (high : Nat) (sent : Int)
  /-- A pattern shifted out and latched in legacy mode, with its instant, ns (R404). -/
  | latch (light : Int) (pattern : List Byte)
  /-- Legacy lights decided for instants after this one (ns) are not latched after all (R405). -/
  | withdraw (since : Int)
  deriving DecidableEq, Repr

/-- A command on the DRAM interface: ranks, bank groups, banks, rows and columns as R479 maps them. -/
inductive DdrCmd where
  /-- ACTIVATE of a row. -/
  | activate (rank group bank row : Nat)
  /-- A column read or write burst, the last of an entry with auto-precharge. -/
  | burst (write last : Bool) (rank group bank col : Nat)
  /-- PRECHARGE ALL on a rank. -/
  | prechargeAll (rank : Nat)
  /-- REFRESH of all banks of a rank. -/
  | refresh (rank : Nat)
  /-- ZQCS on a rank. -/
  | zqcs (rank : Nat)
  deriving DecidableEq, Repr

/-- What the block puts out: on its PCI Express link, its serial links and its pins. -/
inductive Output where
  /-- A command on the DRAM interface (R485, R487). -/
  | dram (cmd : DdrCmd)
  /-- Data of a BAR0 read (offset, value). -/
  | readData (offset : Nat) (value : Word)
  /-- An MSI-X message. -/
  | msix (vector : Nat)
  /-- A DMA read the block asks for (address, bytes). -/
  | dmaRead (addr : Nat) (len : Nat)
  /-- A DMA write to host memory. -/
  | dmaWrite (addr : Nat) (bytes : List Byte)
  /-- A level on a named pin. -/
  | pin (name : String) (level : Bool)
  /-- A pulse on a named pin: width in ns, whether it is a high one, and the instant it begins, ns of MONO_TIME. -/
  | pulse (name : String) (width : Nat) (high : Bool) (start : Nat)
  /-- Something sent on a Vozor Head Link lane. -/
  | lane (lane : Nat) (item : LaneItem)
  /-- Something sent on an illumination chain. -/
  | lamp (chain : Nat) (item : LampItem)
  /-- A Vigil frame as it leaves, from preamble to CRC (R418), or the wake pattern (none, R422). -/
  | vigil (frame : Option (List Byte))
  /-- A PTP message sent (R340, R341): Delay_Req with its sequence number; none over IEEE 802.3, or the own IPv4 address and mask of the interface that
  sends it over UDP. -/
  | delayReq (seq : Nat) (ipv4 : Option (Word × Word))
  /-- An I²C transfer to a camera (R257, R289): port, I2C_SPEED, 7-bit address, the bytes written after it, and how many bytes are then read
  after a repeated start (0: none). -/
  | i2c (camera speed addr : Nat) (write : List Byte) (read : Nat)
  /-- A read of an absolute-position port begins (R351). -/
  | absRead (port : Nat)
  deriving DecidableEq, Repr

/-- Why a fire line of a module is withheld whole, in the order of R189. -/
inductive WithheldBy where
  | onyx | heat | overStop | omission
  deriving DecidableEq, Repr
/-- One zone field of a frame header (R227). -/
structure ZoneSel where
  /-- PH_COUNT. -/
  count : Nat
  /-- PH_WIDTH. -/
  width : Nat
  /-- PH_GAP. -/
  gap : Nat
  /-- DERATE. -/
  derate : Nat
  /-- The zone was in warning as the header was made (R197). -/
  warned : Bool := false
  deriving DecidableEq, Repr
/-- The save, load or trace that runs (R172). Lines are on the unrebased count. -/
inductive ScrJob where
  /-- A save: TAG, address, epoch and number of L_s, L_s, P at L_s, and the columns captured by module. -/
  | save (tag : Word) (addr : Nat) (epoch line : Word) (at_ : Nat) (pages : Nat) (parts : List (Nat × List Byte))
  /-- A load: TAG, none for a join; the image once it has been checked; and the modules that have taken it. -/
  | load (tag : Option Word) (image : Option (List Byte)) (at_ : Nat) (taken : List Nat)
  /-- A trace: TAG, bar column, epoch, image line. -/
  | trace (tag : Word) (col : Nat) (epoch : Word) (at_ : Nat)
  deriving DecidableEq, Repr
/-- A running FIRE_MEASURE_R (R202): TAG, modules, address and the readings that are in, by index of R203. -/
structure MeasJob where
  /-- TAG. -/
  tag : Word
  /-- Modules measured. -/
  mods : List Nat
  /-- Address of the buffer. -/
  addr : Nat
  /-- Readings by index 13,056 × m + 4 × k + r. -/
  readings : List (Nat × Nat) := []
  deriving DecidableEq, Repr
/-- A running FIRE_SPIT (R204). -/
structure SpitJob where
  /-- TAG. -/
  tag : Word
  /-- LINES. -/
  lines : Nat
  /-- DROP. -/
  drop : Nat
  /-- RATE. -/
  rate : Nat
  /-- MODULE_MASK. -/
  mods : BitVec 16
  /-- First image line of the run (unrebased). -/
  first : Nat
  /-- Instant of the last tick of the line clock (MONO_TIME). -/
  tick : Dword
  deriving DecidableEq, Repr
/-- A running INSP_CAPTURE (R290). -/
structure CapJob where
  /-- TAG. -/
  tag : Word
  /-- CAMERA. -/
  cam : Nat
  /-- STAGE: after the matrix. -/
  matrix : Bool
  /-- LINE, unrebased. -/
  start : Nat
  /-- Host address. -/
  addr : Nat
  deriving DecidableEq, Repr
/-- A homing in progress (R379). -/
structure HomeJob where
  /-- TAG. -/
  tag : Word
  /-- 0 moving against HOME_DIR off HOME, 1 stopping after it, 2 moving in HOME_DIR, 3 stopping after the edge, 4 stopping at the
  far limit. -/
  phase : Nat
  /-- Approach after the far limit. -/
  far : Bool := false
  /-- HOME has been active since phase 0 began. -/
  seen : Bool := false
  /-- Latched edge. -/
  edge : Option Int := none
  deriving DecidableEq, Repr
/-- A sequence in progress (R383). -/
structure SeqJob where
  /-- TAG. -/
  tag : Word
  /-- SEQ: 1 CAP, 2 UNCAP, 3 WIPE. -/
  seq : Nat
  /-- PASSES. -/
  passes : Nat
  /-- Strokes done. -/
  strokes : Nat := 0
  /-- The move of the step has been given to its axis. -/
  issued : Bool := false
  /-- Instant the step began (MONO_TIME). -/
  since : Dword := 0
  deriving DecidableEq, Repr
/-- A TWIN_JOIN in progress (R439, R446). -/
structure JoinJob where
  /-- TAG. -/
  tag : Word
  /-- Join group. -/
  group : Nat
  /-- RING. -/
  ring : Nat
  /-- EPOCH. -/
  epoch : Word
  /-- L_s on the unrebased count. -/
  ls : Nat
  /-- JOB_ID, once JOIN_A has come. -/
  jobId : Option Word := none
  /-- Page number, first line and P, once JOIN_B has come. -/
  page : Option (Word × Word × Word) := none
  /-- The page of the context has started. -/
  started : Bool := false
  /-- L_s has been reached. -/
  entered : Bool := false
  deriving DecidableEq, Repr
/-- A Vigil message (R420). -/
structure VMsg where
  /-- MSG_TYPE. -/
  type : Nat
  /-- Word 5. -/
  w5 : Word := 0
  /-- Word 6. -/
  w6 : Word := 0
  /-- Word 7. -/
  w7 : Word := 0
  deriving DecidableEq, Repr
/-- A foreign master as its Announce messages describe it (R340). -/
structure PtpMaster where
  /-- grandmasterPriority1. -/
  p1 : Nat
  /-- clockClass. -/
  cls : Nat
  /-- clockAccuracy. -/
  acc : Nat
  /-- offsetScaledLogVariance. -/
  var : Nat
  /-- grandmasterPriority2. -/
  p2 : Nat
  /-- grandmasterIdentity. -/
  gm : Dword
  /-- stepsRemoved. -/
  steps : Nat
  /-- Identity of the port that sent it. -/
  port : Dword
  deriving DecidableEq, Repr
/-- CRC-32C of the reset configuration words of SAFE_CONFIG (R451, R475). -/
def Config.onyxCrcReset : Word := 0xA49E8D04
/-- Where a DRAM request is (R485): at its requester, in one of the 32 entries kept for RT, in one of the 96 shared ones. -/
inductive MemPlace where
  | outside | reserved | shared
  deriving DecidableEq, Repr

/-- A command the device has copied from its slot and not yet answered (R46, R49) (spec/02_host_interface_and_mailbox.md). Each field's default is its value right after reset. -/
structure RungCmd where
  /-- R46. -/
  slot : Nat := 0
  /-- R42, R46. -/
  words : List Word := []
  /-- R35, R49. -/
  running : Bool := false
  /-- R35. -/
  discard : Bool := false
  deriving DecidableEq, Repr

/-- An outstanding completion (R50) (spec/02_host_interface_and_mailbox.md). Each field's default is its value right after reset. -/
structure Outst where
  /-- R50. -/
  tag : Word := 0
  /-- R50, R54. -/
  opcode : BitVec 16 := 0
  /-- R50. -/
  ref : Nat := 0
  /-- R50, R56. -/
  evIdx : Option Word := none
  deriving DecidableEq, Repr

/-- PCI Express function, mailbox, event queue, interrupts and sticky status (spec/02_host_interface_and_mailbox.md). Each field's default is its value right after reset. -/
structure HostIf where
  /-- R38, R39 GLOBAL_STATE.OP_STATE. -/
  opState : OpState := .boot
  /-- R38 GLOBAL_STATE.MBX_READY. -/
  mbxReady : Bool := false
  /-- R38 GLOBAL_STATE.FIRING. -/
  firing : Bool := false
  /-- R38 FW_VERSION. -/
  fwVersion : Word := 0
  /-- R69 FW_BUILD. -/
  fwBuild : Word := 0
  /-- R38 BERYL_HEARTBEAT. -/
  heartbeat : Word := 0
  /-- R38 instant of the last increment of BERYL_HEARTBEAT (MONO_TIME). -/
  beatAt : Dword := 0
  /-- R38, R53 Beryl executes firmware. -/
  berylRunning : Bool := false
  /-- R53 a restart of Beryl alone is in progress. -/
  restarting : Bool := false
  /-- R547 boot ROM waits for a pushed image. -/
  bootRomWaiting : Bool := false
  /-- R38 HOST_WDOG_CFG.TIMEOUT_MS. -/
  wdogTimeout : BitVec 16 := 0
  /-- R38 HOST_WDOG_CFG.ACTION. -/
  wdogAction : Bool := false
  /-- R41 the watchdog stays expired. -/
  wdogExpired : Bool := false
  /-- R41 instant the count was last started (MONO_TIME). -/
  wdogStart : Dword := 0
  /-- R38 SCRATCH. -/
  scratch : Word := 0
  /-- R40 latch of BAR_CONFIG, LINE_POS_LO, LINE_POS_HI. -/
  gsLatch : Option (Word × Word × Word) := none
  /-- R13 read latches of the 64-bit registers, by offset. -/
  latch64 : List (Nat × Word) := []
  /-- R13 held lower-word writes, by offset. -/
  held64 : List (Nat × Word) := []
  /-- R13 lower word last written of a WO register. -/
  woLow : List (Nat × Word) := []
  /-- R36 link in L0. -/
  linkUp : Bool := false
  /-- R69 LINK_GEN. -/
  linkGen : BitVec 4 := 0
  /-- R69 LINK_WIDTH. -/
  linkWidth : BitVec 5 := 0
  /-- R535 link in L2. -/
  linkInL2 : Bool := false
  /-- R545 PERST_N holds the controller. -/
  perstLow : Bool := false
  /-- R130 bus mastering enabled. -/
  busMaster : Bool := false
  /-- R32 Vendor ID. -/
  vendorId : BitVec 16 := 0x1D9E
  /-- R32 Device ID. -/
  deviceId : BitVec 16 := 0x5216
  /-- R32 class code. -/
  classCode : BitVec 24 := 0x118000
  /-- R32, R535 the function is in D3hot (else D0). -/
  d3hot : Bool := false
  /-- R32 Max payload size in force: 128, 256 or 512 B. -/
  maxPayload : Nat := 128
  /-- R32, R116 Max read request size in force, at most 4,096 B. -/
  maxRead : Nat := 512
  /-- R33 subsystem vendor ID as loaded. -/
  subsysVendor : BitVec 16 := 0
  /-- R33 subsystem ID as loaded. -/
  subsysId : BitVec 16 := 0
  /-- R33, R545 the IDs have been loaded since chip reset. -/
  idsLoaded : Bool := false
  /-- R59 MSI-X enable. -/
  msixEnable : Bool := false
  /-- R59 MSI-X function mask. -/
  msixFuncMask : Bool := false
  /-- R32 MSI-X table, 16 entries of 4 words. -/
  msixTable : List Word := Config.msixTableReset
  /-- R32, R62 PBA / IRQ_MIRROR. -/
  pba : BitVec 16 := 0
  /-- R42 command slots. -/
  cmdSlots : List (List Word) := List.replicate 16 (List.replicate 64 0)
  /-- R43, R44 response slots. -/
  rspSlots : List (List Word) := List.replicate 16 (List.replicate 64 0)
  /-- R45 SLOT_STATE. -/
  slotState : List SlotState := List.replicate 16 .host
  /-- R46, R49 rung commands in ring order. -/
  rung : List RungCmd := []
  /-- R45 MBX_CTRL.RESP_IRQ_EN. -/
  respIrqEn : Bool := true
  /-- R45 LAST_SEQ. -/
  lastSeq : Word := 0
  /-- R50 outstanding completions. -/
  outst : List Outst := []
  /-- R54, R56 event queue entries. -/
  evq : List (List Word) := List.replicate 64 (List.replicate 8 0)
  /-- R45 EVQ_HEAD. -/
  evqHead : Word := 0
  /-- R45 EVQ_TAIL. -/
  evqTail : Word := 0
  /-- R45 EVQ_LOST. -/
  evqLost : Word := 0
  /-- R57 an overflow since 0x0105 was last queued. -/
  evqOverflowed : Bool := false
  /-- R45 EVQ_CFG.MIN_SEVERITY. -/
  minSeverity : BitVec 3 := 1
  /-- R45 EVQ_CFG.COALESCE_COUNT. -/
  coalesceCount : BitVec 8 := 1
  /-- R45 EVQ_CFG.COALESCE_TIME. -/
  coalesceTime : BitVec 16 := 0
  /-- R61 VEC_MAP_8 to VEC_MAP_15. -/
  vecMap : List Word := List.replicate 8 0
  /-- R60 queued entries not yet signalled, by vector: index and instant (MONO_TIME). -/
  unsig : List (List (Word × Dword)) := List.replicate 16 []
  /-- R63 STK registers 0x01 to 0x0F (index n). -/
  stk : List Word := List.replicate 16 0
  /-- R63 STK_MASK registers. -/
  stkMask : List Word := Config.stkDefined
  /-- R63 STK_FIRST (none: VALID 0). -/
  stkFirst : List (Option (BitVec 5)) := List.replicate 16 none
  /-- R70 a SYS_SET_OP_STATE waiting for its line boundary (slot, target). -/
  opReq : Option (Nat × OpState) := none
  /-- R41, R66 watchdog with ACTION 1 orders READY at the next boundary. -/
  wdogForce : Bool := false
  /-- R71 reset to begin (KIND 1?, BOOT_ALT, instant of the response). -/
  resetReq : Option (Bool × Bool × Dword) := none
  /-- R71 FORCE: firing stops first (slot, KIND 1?, BOOT_ALT). -/
  resetStop : Option (Nat × Bool × Bool) := none
  /-- R72 staging running (TAG, address, length). -/
  fwStage : Option (Word × Dword × Word) := none
  /-- R71, R72 staged image of the inactive half (its FW_VERSION). -/
  stagedImage : Option Word := none
  /-- R72, R547 QSPI half marked active, the one whose image is in use (false A, true B). -/
  activeHalf : Bool := false
  /-- R72, R547 image halves A and B as the unit has written or read them (empty: marked empty; none: not read yet). -/
  qspi : List (Option (List Byte)) := [none, none]
  /-- R71 boot the staged image at the next boot. -/
  bootAlt : Bool := false
  /-- R69 BOOT_SOURCE. -/
  bootSource : BitVec 2 := 0
  /-- R554 PWR_BOOT_LOAD running (TAG, address, length). -/
  bootLoad : Option (Word × Dword × Word) := none
  deriving DecidableEq, Repr

/-- One object: kind, target and bytes (R73) (spec/03_commit_groups.md). Each field's default is its value right after reset. -/
structure Obj where
  /-- R73. -/
  kind : Nat := 0
  /-- R73. -/
  target : Nat := 0
  /-- R73. -/
  bytes : List Byte := []
  deriving DecidableEq, Repr

/-- A CG_STAGE fetch in progress (R84) (spec/03_commit_groups.md). Each field's default is its value right after reset. -/
structure StageJob where
  /-- R84. -/
  tag : Word := 0
  /-- R105. -/
  kind : Nat := 0
  /-- R105. -/
  target : Nat := 0
  /-- R105. -/
  len : Nat := 0
  /-- R105. -/
  crc : Word := 0
  deriving DecidableEq, Repr

/-- A commit-group slot (spec/03_commit_groups.md). Each field's default is its value right after reset. -/
structure Group where
  /-- R83, R101 CG_STATE.STATE. -/
  st : CgState := .empty
  /-- R101 CG_STATE.OWNER_CAL. -/
  ownerCal : Bool := false
  /-- R101 CG_STATE.ABORT_CAUSE. -/
  abortCause : Nat := 0
  /-- R101 CG_HANDLE. -/
  handle : Word := 0
  /-- R74, R75 staged objects. -/
  objs : List Obj := []
  /-- R86, R101 CG_DIGEST. -/
  digest : Word := 0
  /-- R101 CG_EPOCH. -/
  epoch : Word := 0
  /-- R101 CG_LINE (none: 0xFFFF_FFFF). -/
  line : Option Word := none
  /-- R88 Lc on the unrebased count once known. -/
  abs : Nat := 0
  /-- R87 TRIGGER of the arm. -/
  trigger : Nat := 0
  /-- R107 TWIN_POLICY. -/
  policy : Bool := false
  /-- R107 PERSIST. -/
  persist : Bool := false
  /-- R90 given network time. -/
  time : Dword := 0
  /-- R89 armed IMMEDIATE or TIME on a stopped web, not yet resolved. -/
  stopped : Bool := false
  /-- R107 TAG of the CG_ARM whose completion is due. -/
  armTag : Option Word := none
  /-- R84 fetch in progress. -/
  stage : Option StageJob := none
  /-- R106 TAG of the CG_VALIDATE in progress. -/
  validTag : Option Word := none
  /-- R580 D of the revalidation at the lock line. -/
  dPend : List (List Nat) := []
  /-- R439 armed by TWIN_JOIN. -/
  joinGroup : Bool := false
  /-- R92, R480 kind and target of staged objects whose data came back poisoned. -/
  bad : List (Nat × Nat) := []
  deriving DecidableEq, Repr

/-- An arm record received over Vigil (R94) (spec/03_commit_groups.md). Each field's default is its value right after reset. -/
structure ArmRec where
  /-- R94, R420. -/
  epoch : Word := 0
  /-- R94, R420. -/
  line : Word := 0
  /-- R94, R420. -/
  digest : Word := 0
  deriving DecidableEq, Repr

/-- Commit groups and the state in force (spec/03_commit_groups.md). Each field's default is its value right after reset. -/
structure Commit where
  /-- R75 group slots 0 to 3. -/
  groups : List Group := List.replicate 4 {}
  /-- R104 last HANDLE issued. -/
  handleCtr : Word := 0
  /-- R101 CG_EPOCH_NOW. -/
  epochNow : Word := 0
  /-- R73, R79, R97 objects in force, ascending kind then target. -/
  inForce : List Obj := []
  /-- R79 (Lc on the unrebased count, objects that governed the lines below it), newest first. -/
  old : List (Nat × List Obj) := []
  /-- R38 BAR_CONFIG.MODULES. -/
  modules : Nat := 0
  /-- R38 BAR_CONFIG.ROWS. -/
  rows : Nat := 0
  /-- R38 BAR_CONFIG.LPI600. -/
  lpi600 : Bool := false
  /-- R26, R76 LINE_STEP in force (POS_LINE_STEP). -/
  lineStep : BitVec 52 := 0
  /-- R77, R128 JOB_ID of earlier epochs, and of one that begins at a LOCKED Lc. -/
  jobs : List (Word × Word) := []
  /-- R77 JOB_ID of the epoch. -/
  jobId : Word := 0
  /-- R77 FIRST_PAGE of the epoch. -/
  firstPage : Word := 0
  /-- R19, R580 D(m,r) in force, raw 32.18. -/
  dOff : List (List Nat) := []
  /-- R28, R205 FIRE_FLIM. -/
  fLim : Nat := 0
  /-- R28 f_head the limit was computed with. -/
  fHead : Nat := 0
  /-- R28 k_live. -/
  kLive : Nat := 0
  /-- R89 the web counts as stopped. -/
  webStopped : Bool := true
  /-- R8, R160 unrebased line count of line 0 of the epoch. -/
  imgKeyEpoch : Nat := 0
  /-- R94 peer arm records held. -/
  peerArms : List ArmRec := []
  deriving DecidableEq, Repr

/-- A block of a page (R113, R121) (spec/04_page_data_and_check_values.md). Each field's default is its value right after reset. -/
structure Blk where
  /-- R113. -/
  idx : Word := 0
  /-- R113. -/
  addr : Dword := 0
  /-- R113. -/
  len : Nat := 0
  /-- R113. -/
  blank : Bool := false
  /-- R121. -/
  fetches : Nat := 0
  /-- R121. -/
  st : BlkState := .wanted
  /-- R120. -/
  data : List Byte := []
  /-- R124. -/
  dec : BlkDec := .idle
  /-- R121, R128. -/
  counted : Bool := false
  /-- R119, R480. -/
  poison : Bool := false
  deriving DecidableEq, Repr

/-- A page the device holds (R113, R125) (spec/04_page_data_and_check_values.md). Each field's default is its value right after reset. -/
structure Page where
  /-- R125. -/
  uid : Nat := 0
  /-- R582. -/
  lpi600 : Bool := false
  /-- R128. -/
  unfired : Bool := false
  /-- R111. -/
  ring : Nat := 0
  /-- R111. -/
  descIdx : Word := 0
  /-- R113. -/
  desc : List Word := []
  /-- R113. -/
  blocks : List Blk := []
  /-- R127. -/
  reprint : Bool := false
  /-- R122, R127. -/
  gapUsed : Nat := 0
  /-- R127. -/
  before : Option Word := none
  /-- R122. -/
  started : Bool := false
  /-- R128. -/
  epoch : Word := 0
  /-- R128. -/
  firstLine : Word := 0xFFFFFFFF
  /-- R160. -/
  firstAbs : Nat := 0
  /-- R113. -/
  lines : Nat := 0
  /-- R159. -/
  pNo : Nat := 0
  /-- R128. -/
  spoiled : Bool := false
  /-- R128. -/
  truncated : Bool := false
  /-- R128. -/
  notPrinted : Bool := false
  /-- R128. -/
  notInsp : Bool := false
  /-- R125, R283. -/
  inspBy : BitVec 4 := 0
  /-- R128. -/
  blankBlocks : Nat := 0
  /-- R128. -/
  refetches : Nat := 0
  /-- R128. -/
  offsetOmit : Nat := 0
  /-- R128. -/
  overOmit : Nat := 0
  /-- R128. -/
  underrun : Nat := 0
  /-- R283. -/
  qualDone : Bool := false
  /-- R283. -/
  qualRef : Word := 0xFFFFFFFF
  /-- R125. -/
  fired : Bool := false
  /-- R126. -/
  recorded : Bool := false
  /-- R126. -/
  retained : Bool := false
  /-- R171, R285, R497. -/
  evSeen : BitVec 8 := 0
  deriving DecidableEq, Repr

/-- A descriptor ring (spec/04_page_data_and_check_values.md). Each field's default is its value right after reset. -/
structure Ring where
  /-- R111 RING_PROD. -/
  prod : Word := 0
  /-- R111 RING_FETCH. -/
  fetch : Word := 0
  /-- R111 RING_STORED. -/
  stored : Word := 0
  /-- R111 RING_DONE. -/
  done : Word := 0
  /-- R112 ENABLED. -/
  enabled : Bool := false
  /-- R112 HALTED. -/
  halted : Bool := false
  /-- R112 IN_FORCE. -/
  inForce : Bool := false
  /-- R112 STOPPED. -/
  stopped : Bool := false
  /-- R112 HALT_REASON. -/
  haltReason : Nat := 0
  /-- R135 DESC_BASE. -/
  descBase : Dword := 0
  /-- R135 SIZE_LOG2. -/
  sizeLog2 : Nat := 4
  /-- R135 RECORD_BASE. -/
  recordBase : Dword := 0
  /-- R135 IRQ_COUNT. -/
  irqCount : Nat := 1
  /-- R130 records since the last vector 4. -/
  sinceIrq : Nat := 0
  /-- R116, R126 fetching waits for page-store space. -/
  waitSpace : Bool := false
  deriving DecidableEq, Repr

/-- A check-value context (spec/04_page_data_and_check_values.md). Each field's default is its value right after reset. -/
structure CvCtx where
  /-- R132 CV_CTRL.WIDTH. -/
  width : Nat := 32
  /-- R132 CV_CTRL.REFIN. -/
  refin : Bool := true
  /-- R132 CV_CTRL.REFOUT. -/
  refout : Bool := true
  /-- R132 CV_CTRL.TAG_BYTES. -/
  tagBytes : Nat := 0
  /-- R132 CV_POLY. -/
  poly : Dword := 0x04C11DB7
  /-- R132 CV_INIT. -/
  init : Dword := 0xFFFFFFFF
  /-- R132 CV_XOROUT. -/
  xorout : Dword := 0xFFFFFFFF
  /-- R132 CV_TAG. -/
  tag : Dword := 0
  /-- R132 CV_VALUE. -/
  value : Dword := 0
  /-- R132 CV_COUNT. -/
  count : Word := 0
  /-- R135 an FLR or link loss stopped the computation. -/
  stopped : Bool := false
  /-- R132 CV_CTRL.BUSY, R135 running CV_COMPUTE (TAG, address, length). -/
  busy : Option (Word × Dword × Word) := none
  deriving DecidableEq, Repr

/-- Rings, page store and check-value contexts (spec/04_page_data_and_check_values.md). Each field's default is its value right after reset. -/
structure Pages where
  /-- R111. -/
  rings : List Ring := List.replicate 4 {}
  /-- R120, R125 pages held, in page order. -/
  pages : List Page := []
  /-- R120 page-store bytes (fitted DRAM less 512 MiB). -/
  capacity : Nat := 0
  /-- R122 nominal first line of the next page less its GAP_LINES (unrebased). -/
  nominal : Nat := 0
  /-- R122 PAGE_NUMBER of the previous page started in the epoch. -/
  lastNumber : Option Word := none
  /-- R159 pages started in the epoch. -/
  startedCnt : Nat := 0
  /-- R123 an underrun is reported and not over. -/
  underrunOn : Bool := false
  /-- R123, R420 PAGE_START messages received and not used (EPOCH, L_s, PAGE_NUMBER). -/
  peerStart : List (Word × Word × Word) := []
  /-- R122, R127 pages decided to start (ring, EPOCH, first and last PAGE_NUMBER), the latest first. -/
  decided : List (Nat × Word × Word × Word) := []
  /-- R114 descriptor fetches in progress (ring, index). -/
  descReq : List (Nat × Word) := []
  /-- R125 pages taken in so far. -/
  nextUid : Nat := 0
  /-- R93, R159 the latest epochs, a LOCKED one first: unrebased count of line 0, number, and for one that is followed the pages started in it. -/
  epochs : List (Nat × Word × Nat) := [(0, 0, 0)]
  /-- R135 PD_RING_RESET commands whose NOT_PRINTED records are still to be written (slot, ring). -/
  resets : List (Nat × Nat) := []
  /-- R122, R582 ring whose pages the start decisions take. -/
  decRing : Option Nat := none
  /-- R122, R582 unrebased count of line 0 of the epoch the decisions are for. -/
  decBase : Nat := 0
  /-- R122 its epoch. -/
  decEpoch : Word := 0
  /-- R122 its FIRST_PAGE. -/
  decFirst : Word := 0
  /-- R582 its addressability. -/
  decLpi600 : Bool := false
  /-- R122 its module count. -/
  decModules : Nat := 0
  /-- R132 contexts 0 to 3. -/
  cv : List CvCtx := List.replicate 4 {}
  deriving DecidableEq, Repr

/-- A drop placed in a fire line (R165) (spec/05_tone_and_screening.md). Each field's default is its value right after reset. -/
structure Drop where
  /-- R160, R165. -/
  fire : Nat := 0
  /-- R165. -/
  col : Nat := 0
  /-- R165. -/
  row : Nat := 0
  /-- R7. -/
  code : Nat := 0
  /-- R21. -/
  img : Nat := 0
  /-- R21, R178. -/
  frac : Nat := 0
  /-- R193. -/
  probe : Option Nat := none
  /-- R128. -/
  page : Option Nat := none
  deriving DecidableEq, Repr

/-- A Garnet slice (spec/05_tone_and_screening.md). Each field's default is its value right after reset. -/
structure Slice where
  /-- R137 next image line to begin (unrebased). -/
  next : Nat := 0
  /-- R137 line in progress. -/
  busy : Option Nat := none
  /-- R161 drops decided for the line in progress. -/
  result : List Drop := []
  /-- R165 next fire line to pass on (unrebased). -/
  passed : Nat := 0
  /-- R89, R138 the line in progress came too late. -/
  late : Bool := false
  /-- R170 SCR_BANK.PENDING. -/
  bankPending : Nat := 0
  /-- R170 SCR_BANK.GROUP. -/
  bankGroup : Nat := 0
  /-- R170 SCR_BANK.IN_FORCE. -/
  bankInForce : Bool := false
  /-- R170 SCR_ESUM. -/
  esum : Word := 0
  deriving DecidableEq, Repr

/-- Tone path and screening (spec/05_tone_and_screening.md). Each field's default is its value right after reset. -/
structure Screen where
  /-- R137. -/
  slices : List Slice := List.replicate 16 {}
  /-- R160, R164 claimed (column, fire line) and the image line that claimed it, unrebased. -/
  claims : List (Nat × Nat × Nat) := []
  /-- R160, R164 LAST_FIRE of (column, row) with its image line, newest first, unrebased. -/
  lastFire : List ((Nat × Nat) × List (Int × Nat)) := []
  /-- R165 drops of fire lines not yet past. -/
  placed : List Drop := []
  /-- R89 image lines below it are being rebuilt (unrebased). -/
  rebuild : Nat := 0
  /-- R170 SCR_LINE_EPOCH. -/
  lineEpoch : Word := 0
  /-- R170 SCR_LINE_DONE as shown. -/
  doneLine : Word := 0xFFFFFFFF
  /-- R170 SCR_ROW_OMIT_COUNT. -/
  rowOmit : Word := 0
  /-- R170 SCR_DEAD_OMIT_COUNT. -/
  deadOmit : Word := 0
  /-- R170 SCR_LATE_LINES. -/
  lateLines : Word := 0
  /-- R170 SCR_DEAD_COLUMN_DROPS. -/
  deadColDrops : Word := 0
  /-- R170 SCR_DEAD_COLUMNS. -/
  deadCols : Word := 0
  /-- R170 fire line of the sums last delivered (unrebased); SCR_ESUM_LINE shows it in the epoch in force. -/
  esumLine : Nat := 0
  /-- R81, R161 offset reductions that lines still to be screened can meet: Lc (unrebased) and, by module and row, by how many lines Dint fell. -/
  reduce : List (Nat × List (List Nat)) := []
  /-- R172 save, load or trace in progress. -/
  job : Option ScrJob := none
  /-- R89, R175 an image that has been loaded, its L_s, and the modules that take it anew after a rebuild. -/
  loaded : Option (List Byte × Nat × List Nat) := none
  /-- R480 image lines (unrebased) whose tile row came back poisoned. -/
  tileBad : List Nat := []
  /-- R176 trace registers. -/
  trace : List Word := List.replicate 8 0
  deriving DecidableEq, Repr

/-- One row and slot of a module in a fire line (R177, R182) (spec/06_firing_and_energy.md). Each field's default is its value right after reset. -/
structure Train where
  /-- R178. -/
  fire : Nat := 0
  /-- R178. -/
  mod : Nat := 0
  /-- R177. -/
  row : Nat := 0
  /-- R177. -/
  grp : Nat := 0
  /-- R177. -/
  slot : Nat := 0
  /-- R180, R189. -/
  st : TrainState := .waiting
  /-- R180. -/
  tMain : Int := 0
  deriving DecidableEq, Repr

/-- A head zone (R196) (spec/06_firing_and_energy.md). Each field's default is its value right after reset. -/
structure ZoneT where
  /-- R205 FIRE_TEMP. -/
  reading : Nat := 0
  /-- R196. -/
  fresh : Bool := false
  /-- R205 FIRE_ZONE_FLAGS.STALE. -/
  stale : Bool := false
  /-- R205 FIRE_ZONE_FLAGS.WARN. -/
  warn : Bool := false
  /-- R197 warning as sent in the frames. -/
  warnSend : Bool := false
  /-- R205 FIRE_ZONE_FLAGS.TRIP. -/
  trip : Bool := false
  deriving DecidableEq, Repr

/-- A running FIRE_PROBE plan (R193, R210) (spec/06_firing_and_energy.md). Each field's default is its value right after reset. -/
structure Probe where
  /-- R210. -/
  tag : Word := 0
  /-- R210. -/
  steps : Nat := 1
  /-- R210. -/
  stride : Nat := 1
  /-- R210. -/
  drops : Nat := 2
  /-- R210. -/
  epoch : Word := 0
  /-- R210. -/
  startLine : Word := 0
  /-- R210. -/
  mods : BitVec 16 := 0
  /-- R210. -/
  rows : BitVec 4 := 0
  /-- R210. -/
  stopping : Bool := false
  /-- R193. -/
  no : Nat := 0
  /-- R193. -/
  visit : Nat := 0
  /-- R193. -/
  window : Option (Nat × Nat) := none
  /-- R193. -/
  lastGap : Nat := 0
  deriving DecidableEq, Repr

/-- Fire timing generator (spec/06_firing_and_energy.md). Each field's default is its value right after reset. -/
structure Fire where
  /-- R209 SLOT_PITCH. -/
  slotPitch : Nat := 0x8000
  /-- R209 ROTATE. -/
  rotate : Bool := true
  /-- R209 OVERSPEED_AUTO_RESUME. -/
  autoResume : Bool := true
  /-- R209 MAX_HEATERS. -/
  maxHeaters : Nat := 3264
  /-- R209 T_WARN (none: T_TRIP - 16). -/
  tWarn : Option Nat := none
  /-- R209 T_TRIP (none: lowest T_HEAD_MAX). -/
  tTrip : Option Nat := none
  /-- R209 T_HYST. -/
  tHyst : Nat := 6
  /-- R209 WARN_DERATE. -/
  warnDerate : Nat := 2
  /-- R209 MARGIN. -/
  margin : Nat := 0x9334
  /-- R205 FIRE_STATUS.HEAT_HOLD. -/
  heatHold : Bool := false
  /-- R205 FIRE_STATUS.OVERSPEED_HOLD. -/
  overHold : Bool := false
  /-- R205 FIRE_STATUS.OMITTING. -/
  omitting : Bool := false
  /-- R205 FIRE_STATUS.OVERSPEED_WARN_LIVE. -/
  warnLive : Bool := false
  /-- R205 FIRE_STATUS.SLOWDOWN, R201 SLOWDOWN_N low. -/
  slowdown : Bool := false
  /-- R205 FIRE_RATE. -/
  rate : Word := 0
  /-- R205 FIRE_RATIO. -/
  ratio : BitVec 16 := 0
  /-- R205 FIRE_OMIT_LINES. -/
  omitLines : Word := 0
  /-- R205 FIRE_POSTPONE. -/
  postpone : Word := 0
  /-- R205 FIRE_SLOT_OMIT. -/
  slotOmit : Word := 0
  /-- R205 FIRE_ABANDONED. -/
  abandoned : Word := 0
  /-- R205 FIRE_PROBE_VISIT. -/
  probeVisit : Word := 0
  /-- R205 FIRE_PROBE_SKIP. -/
  probeSkip : Word := 0
  /-- R183, R205 zone readings and flags. -/
  zones : List (List ZoneT) := List.replicate 16 (List.replicate 8 {})
  /-- R200 acc[m] of the error diffusion. -/
  acc : List Nat := (List.range 16).map (fun m => m * 4096)
  /-- R199 instants of the last boundaries, newest first. -/
  bTimes : List Dword := []
  /-- R201 consecutive boundaries at or below F_LIM. -/
  slowRun : Nat := 0
  /-- R178 to R181 trains of the fire lines in progress. -/
  trains : List Train := []
  /-- R189 (fire line, module) withheld whole and why. -/
  lineWhy : List ((Nat × Nat) × WithheldBy) := []
  /-- R183, R227 zone fields sent for (fire line, module). -/
  hdr : List ((Nat × Nat) × List ZoneSel) := []
  /-- R191 last main-pulse start of (column, row). -/
  lastMain : List ((Nat × Nat) × Int) := []
  /-- R190 energised heaters (module, from, to, count). -/
  heaters : List (Nat × Int × Int × Nat) := []
  /-- R205 FIRE_ESUM_F. -/
  esumF : List Word := List.replicate 16 0
  /-- R205 FIRE_ESUM_W. -/
  esumW : List Word := List.replicate 16 0
  /-- R189 running E_F by (fire line, module). -/
  sumF : List ((Nat × Nat) × Nat) := []
  /-- R189 running E_W by (fire line, module). -/
  sumW : List ((Nat × Nat) × Nat) := []
  /-- R205 fire line of the sums last delivered (unrebased); FIRE_ESUM_LINE shows it in the epoch in force. -/
  esumLine : Nat := 0
  /-- R453 both sides permitted the line in progress. -/
  permitted : Bool := false
  /-- R201 FIRE_RESUME given for the overspeed hold. -/
  resumeReq : Bool := false
  /-- R198 FIRE_RESUME given for the heat hold. -/
  resumeHeat : Bool := false
  /-- R206 a FIRE_RESUME has ended a hold, and event 0x0506 waits for the first fired line. -/
  resumeDue : Bool := false
  /-- R181 MONO_TIME at which firing was ordered to stop. -/
  stopAt : Option Dword := none
  /-- R193, R306 plans started. -/
  plans : Nat := 0
  /-- R210 probe plan. -/
  probe : Option Probe := none
  /-- R202 FIRE_MEASURE_R in progress. -/
  meas : Option MeasJob := none
  /-- R203, R304 readings of the last measurement that completed OK. -/
  ohms : List (Nat × Nat) := []
  /-- R204 FIRE_SPIT in progress. -/
  spit : Option SpitJob := none
  deriving DecidableEq, Repr

/-- A Vozor Head Link lane and what the unit knows of its head (spec/07_vozor_head_link.md). Each field's default is its value right after reset. -/
structure Lane where
  /-- R218, R220, R244 HL_LANE_STATE.STATE. -/
  st : LaneState := .detect
  /-- R218 MONO_TIME of entry into the state. -/
  enteredAt : Dword := 0
  /-- R218 MONO_TIME of the last receiver detection in the state. -/
  detectAt : Option Dword := none
  /-- R196 MONO_TIME of the last zone readings. -/
  readAt : Dword := 0
  /-- R248 ENABLE. -/
  enabled : Bool := true
  /-- R244 HL_LANE_STATE.CTLE. -/
  ctle : Nat := 0
  /-- R244 HL_LANE_STATE.ACCEPTED. -/
  accepted : Bool := false
  /-- R244 HL_LANE_STATE.BLANKING. -/
  blanking : Bool := false
  /-- R429 BLANK ordered sets sent since blanking began, after the first. -/
  blankRuns : Nat := 0
  /-- R241 MONO_TIME of the last BLANK ordered set. -/
  blankAt : Dword := 0
  /-- R429, R436 transmitter held in electrical idle. -/
  idleHeld : Bool := false
  /-- R244 HL_LANE_STATE.HELD_REASON. -/
  heldReason : Nat := 0
  /-- R244 HL_LATENCY. -/
  lat : Nat := 0
  /-- R244 HL_FRAMES. -/
  frames : Word := 0
  /-- R244 HL_PARTS_FAILED. -/
  partsFailed : Word := 0
  /-- R244 HL_PARTS_RESENT. -/
  partsResent : Word := 0
  /-- R244 HL_LINES_BLANKED. -/
  linesBlanked : Word := 0
  /-- R244 HL_RESEND_OVERFLOW. -/
  resendOver : Word := 0
  /-- R244 HL_CODE_ERRORS. -/
  codeErrors : Word := 0
  /-- R244 HL_RECOVERIES. -/
  recoveries : Word := 0
  /-- R244 HL_STATUS_BAD. -/
  statusBad : Word := 0
  /-- R244 HL_HEAD_FAULTS. -/
  faults : Word := 0
  /-- R244 HL_EYE. -/
  eye : BitVec 16 := 0
  /-- R246 the lane has passed POLL. -/
  passedPoll : Bool := false
  /-- R217, R248 SWING in force. -/
  swing : Nat := 4
  /-- R217, R248 DEEMPH in force. -/
  deemph : Nat := 1
  /-- R217, R248 CTLE_FIXED in force. -/
  ctleFixed : Bool := false
  /-- R248 CTLE_BOOST in force. -/
  ctleBoost : Nat := 0
  /-- R248 settings for the next entry into POLL. -/
  nextCfg : Nat × Nat × Bool × Nat := (4, 1, false, 0)
  /-- R218 consecutive training sets counted in the state. -/
  tsCount : Nat := 0
  /-- R218 own CTLE settled. -/
  ctleDone : Bool := false
  /-- R218 a capability record passed R222. -/
  capOk : Bool := false
  /-- R221, R250 last capability record received. -/
  cap : Option (List Word) := none
  /-- R222 record whose latency is still to be checked. -/
  capNext : Option (List Word) := none
  /-- R219, R222 record accepted. -/
  capHeld : Option (List Word) := none
  /-- R223 ECHO sets sent. -/
  echoSent : Nat := 0
  /-- R223 MONO_TIME of the last ECHO set. -/
  echoAt : Dword := 0
  /-- R223 identifiers whose echo has returned. -/
  echoIds : BitVec 16 := 0
  /-- R223 echoes returned. -/
  echoSeen : Nat := 0
  /-- R223 sum of the round trips, 312.5 ps. -/
  echoSum : Nat := 0
  /-- R233, R234 STATUS_SEQ of the last valid status frame. -/
  statusSeq : Option Nat := none
  /-- R219, R233 instant of the last valid status frame (ns). -/
  statusTime : Dword := 0
  /-- R219 MONO_TIME at which the lane last became ACTIVE. -/
  upAt : Dword := 0
  /-- R234 ACC_CLAIM last reported. -/
  accClaim : Word := 0
  /-- R234 ACC_SERIAL last reported. -/
  accSerial : Dword := 0
  /-- R234 ACC_PORT last reported. -/
  accPort : Bool := false
  /-- R234 ACC_VALID last reported. -/
  accValid : Bool := false
  /-- R240 status frames in a row with another accepted claim. -/
  otherRun : Nat := 0
  /-- R417, R461 status frames in a row with a greater accepted pair. -/
  higherRun : Nat := 0
  /-- R235 reports already acted on (fire line unrebased, SEQ, mask). -/
  nackSeen : List ((Option Nat × Nat) × BitVec 17) := []
  /-- R237 blanked fire lines counted, the latest first (unrebased). -/
  blankSeen : List Nat := []
  /-- R236 last fire line counted in HL_RESEND_OVERFLOW (unrebased). -/
  overLine : Option Nat := none
  /-- R225 what waits for the transmitter, with its place in the order. -/
  txq : List (Nat × List LaneItem) := []
  /-- R215, R225 instant (ns) at which the transmitter has sent what it began. -/
  txFree : Nat := 0
  /-- R236 parts to resend (fire line, PART). -/
  resend : List (Nat × Nat) := []
  /-- R233 markers sent (instant in 312.5 ps steps, fire line). -/
  sentMarks : List (Int × Nat) := []
  /-- R242 LOAD_ID. -/
  loadId : Nat := 0
  /-- R242 bank the load fills. -/
  loadBank : Bool := true
  /-- R227, R242 EBANK. -/
  ebank : Bool := false
  /-- R242 blocks still to send (KIND, BLOCK). -/
  tblQueue : List (Nat × Nat) := []
  /-- R188 group being loaded (4: the boot set). -/
  loadGroup : Option Nat := none
  /-- R188 groups waiting for the store. -/
  loadWait : List Nat := []
  /-- R188, R242 the load is acknowledged. -/
  loaded : Bool := false
  deriving DecidableEq, Repr

/-- Vozor Head Link (spec/07_vozor_head_link.md). Each field's default is its value right after reset. -/
structure Hlink where
  /-- R214. -/
  lanes : List Lane := List.replicate 16 {}
  deriving DecidableEq, Repr

/-- A segment of a camera (R259) (spec/08_inspection_pipeline.md). Each field's default is its value right after reset. -/
structure CamSeg where
  /-- R259. -/
  start : Nat := 0
  /-- R259. -/
  base : Nat := 0
  /-- R259. -/
  epoch : Word := 0
  /-- R255. -/
  ctx : List Byte := []
  deriving DecidableEq, Repr

/-- A trigger that no CSI-2 frame has answered (R253, R254) (spec/08_inspection_pipeline.md). Each field's default is its value right after reset. -/
structure CamTrig where
  /-- R253. -/
  seg : CamSeg := {}
  /-- R253. -/
  j : Nat := 0
  /-- R259. -/
  first : Bool := false
  /-- R259, R82. -/
  last : Bool := false
  /-- R259. -/
  index : Word := 0
  /-- R273. -/
  expSet : BitVec 16 := 0
  /-- R82. -/
  late : Bool := false
  /-- R295. -/
  count : Nat := 0
  /-- R276. -/
  deadline : Nat := 0
  /-- R254. -/
  fired : Nat := 0
  deriving DecidableEq, Repr

/-- A camera frame in a buffer (R259, R261) (spec/08_inspection_pipeline.md). Each field's default is its value right after reset. -/
structure CamFrame where
  /-- R259. -/
  trig : CamTrig := {}
  /-- R252, R254. -/
  lines : List (Option (List (List Nat))) := []
  /-- R259. -/
  short : Bool := false
  /-- R265. -/
  restart : Bool := false
  /-- R276. -/
  deadline : Nat := 0
  deriving DecidableEq, Repr

/-- An exposure set not yet applied (R273, R274) (spec/08_inspection_pipeline.md). Each field's default is its value right after reset. -/
structure ExpSet where
  /-- R273. -/
  id : BitVec 16 := 0
  /-- R288. -/
  tag : Option Word := none
  /-- R257. -/
  script : List (Word × Word) := []
  /-- R257. -/
  bus : Nat × Nat := (0, 0)
  /-- R275. -/
  due : Option Nat := none
  /-- R275. -/
  opens : Nat := 0
  /-- R275. -/
  urgent : Bool := false
  /-- R274. -/
  started : Bool := false
  /-- R274. -/
  startFrame : Nat := 0
  /-- R274. -/
  written : Bool := false
  /-- R274. -/
  applyAt : Nat := 0
  /-- R274. -/
  late : Bool := false
  deriving DecidableEq, Repr

/-- A camera port and its context (spec/08_inspection_pipeline.md). Each field's default is its value right after reset. -/
structure Cam where
  /-- R284 INSP_CAM_STATE.STATE. -/
  st : CamState := .off
  /-- R261, R284 INSP_CAM_STATE.BUF. -/
  bufs : List BufState := [.free, .free]
  /-- R261 frames held in the buffers. -/
  frames : List CamFrame := [{}, {}]
  /-- R261 buffer being filled. -/
  fill : Option Nat := none
  /-- R259 segment in progress. -/
  seg : Option CamSeg := none
  /-- R259 segments that commits have begun and Lc has not reached the camera. -/
  next : List CamSeg := []
  /-- R253 next camera line of the segment. -/
  camLine : Nat := 0
  /-- R82 the comparator waits for the segment's end and not for a camera line. -/
  change : Bool := false
  /-- R253 triggers not yet answered, oldest first. -/
  trigs : List CamTrig := []
  /-- R295 camera lines triggered. -/
  trigCount : Nat := 0
  /-- R274 frames begun. -/
  frameSeq : Nat := 0
  /-- R259 FRAME_INDEX of the last frame begun. -/
  lastIndex : Word := 0
  /-- R259 FRAME_INDEX of the next frame. -/
  nextIndex : Word := 0
  /-- R290 first image line of the last frame begun. -/
  lastBegun : Nat := 0
  /-- R284 EXP_SET_ID of the frame in progress. -/
  expSet : BitVec 16 := 0
  /-- R273 last ID issued. -/
  lastId : BitVec 16 := 0
  /-- R273 to R275 exposure sets not yet applied, oldest first. -/
  sets : List ExpSet := []
  /-- R82 the frame in progress is not inspected. -/
  frameLate : Bool := false
  /-- R284 INSP_FRAME. -/
  frameIndex : Word := 0
  /-- R284 INSP_FRAMES_DONE. -/
  framesDone : Word := 0
  /-- R284 INSP_FRAMES_DROPPED. -/
  framesDropped : Word := 0
  /-- R284 INSP_LINES_BAD. -/
  linesBad : Word := 0
  /-- R284 INSP_LINES_MISSING. -/
  linesMissing : Word := 0
  /-- R254 consecutive missing lines. -/
  missRun : Nat := 0
  /-- R270, R284 INSP_ALIGN.DX. -/
  dx : Int := 0
  /-- R270, R284 INSP_ALIGN.DY. -/
  dy : Int := 0
  /-- R270 epoch of DX and DY. -/
  alignEpoch : Word := 0
  /-- R270 the epoch before it, with its last DX and DY. -/
  oldAlign : Word × Int × Int := (0, 0, 0)
  /-- R284 INSP_ALIGN_CONF. -/
  conf : Nat := 0
  /-- R284 INSP_CSI_CORRECTED. -/
  csiCorrected : Word := 0
  /-- R251 packets of other data types. -/
  otherTypes : Word := 0
  /-- R254 discarding a partial frame. -/
  skipPart : Bool := false
  /-- R258 restarting: missing lines set no sticky bit. -/
  quiet : Bool := false
  /-- R265 temporal noise state z. -/
  tnr : List (List Nat) := []
  /-- R265 next good line restarts. -/
  tnrRestart : Bool := true
  /-- R265 the next frame follows a dropped one. -/
  afterDrop : Bool := false
  /-- R296 reference of the previous good camera line. -/
  prevRef : List Nat := []
  /-- R272 measurements of the last camera lines, by first image line. -/
  meas : List (Nat × Option (List Nat)) := []
  deriving DecidableEq, Repr

/-- An INSP_I2C_XFER and what its transfer will give (R289) (spec/08_inspection_pipeline.md). Each field's default is its value right after reset. -/
structure XferJob where
  /-- R289. -/
  slot : Nat := 0
  /-- R289. -/
  cam : Nat := 0
  /-- R289. -/
  bus : Nat × Nat := (0, 0)
  /-- R289. -/
  write : List Byte := []
  /-- R289. -/
  read : Nat := 0
  /-- R289. -/
  reason : Nat := 0
  /-- R289. -/
  bytes : List Byte := []
  deriving DecidableEq, Repr

/-- Statistics or quality ring (spec/08_inspection_pipeline.md). Each field's default is its value right after reset. -/
structure InspRing where
  /-- R279 STATS_PROD / QUAL_PROD. -/
  prod : Word := 0
  /-- R279 STATS_CONS / QUAL_CONS. -/
  cons : Word := 0
  /-- R287 ENABLE. -/
  enabled : Bool := false
  /-- R287 BASE. -/
  base : Dword := 0
  /-- R287 SIZE_LOG2. -/
  sizeLog2 : Nat := 4
  /-- R287 IRQ_COUNT. -/
  irqCount : Nat := 1
  /-- R279 records since the last vector 5. -/
  sinceIrq : Nat := 0
  deriving DecidableEq, Repr

/-- What is gathered for a page's quality record, per camera (R282) (spec/08_inspection_pipeline.md). Each field's default is its value right after reset. -/
structure QualAcc where
  /-- R282. -/
  uid : Nat := 0
  /-- R282. -/
  cam : Nat := 0
  /-- R282. -/
  insp : Nat := 0
  /-- R282. -/
  notInsp : Nat := 0
  /-- R282. -/
  frames : Nat := 0
  /-- R282. -/
  dropped : Nat := 0
  /-- R282. -/
  holds : Nat := 0
  /-- R282. -/
  expSet : BitVec 16 := 0
  /-- R282. -/
  lastFrame : Nat := 0
  /-- R282. -/
  dxSum : Int := 0
  /-- R282. -/
  dySum : Int := 0
  /-- R282. -/
  aligned : Nat := 0
  /-- R282. -/
  measSum : Nat := 0
  /-- R282. -/
  measCnt : Nat := 0
  deriving DecidableEq, Repr

/-- Inspection pipeline (spec/08_inspection_pipeline.md). Each field's default is its value right after reset. -/
structure Insp where
  /-- R251. -/
  cams : List Cam := List.replicate 4 {}
  /-- R279 statistics ring. -/
  stats : InspRing := {}
  /-- R279 quality ring. -/
  qual : InspRing := {}
  /-- R276 frame in processing (camera, buffer). -/
  running : Option (Nat × Nat) := none
  /-- R284 when it began, ns. -/
  since : Nat := 0
  /-- R284 intervals of the last 1 ms in which Opal was busy, ns (INSP_UTIL). -/
  busy : List (Nat × Nat) := []
  /-- R284 INSP_LOAD. -/
  load : Word := 0
  /-- R290 INSP_CAPTURE in progress. -/
  capture : Option CapJob := none
  /-- R289 INSP_I2C_XFER that waits for its turn between script entries. -/
  xfer : Option XferJob := none
  /-- R276 camera of the last frame processed, and when it ended (ns). -/
  lastDone : Option (Nat × Nat) := none
  /-- R282 gathered for pages not yet reported. -/
  quals : List QualAcc := []
  deriving DecidableEq, Repr

/-- A nozzle's pair of probe marks (R193, R272) (spec/09_content_calibration.md). Each field's default is its value right after reset. -/
structure Mark where
  /-- R193. -/
  plan : Nat := 0
  /-- R193. -/
  first : Nat := 0
  /-- R193. -/
  drops : Nat := 2
  /-- R193. -/
  steps : Nat := 1
  /-- R193. -/
  stride : Nat := 1
  /-- R193. -/
  q : Nat := 0
  /-- R193. -/
  col : Nat := 0
  /-- R193. -/
  row : Nat := 0
  /-- R193. -/
  e0 : Nat := 0
  deriving DecidableEq, Repr

/-- A measured step of a nozzle's ladder (R194) (spec/09_content_calibration.md). Each field's default is its value right after reset. -/
structure LadderRow where
  /-- R194. -/
  plan : Nat := 0
  /-- R194. -/
  col : Nat := 0
  /-- R194. -/
  row : Nat := 0
  /-- R194. -/
  steps : Nat := 1
  /-- R194. -/
  stride : Nat := 1
  /-- R194. -/
  q : Nat := 0
  /-- R194. -/
  e0 : Nat := 0
  /-- R194. -/
  rho : Option Nat := none
  deriving DecidableEq, Repr

/-- Sums of a column band or a nozzle (R298) (spec/09_content_calibration.md). Each field's default is its value right after reset. -/
structure CalSum where
  /-- R298. -/
  w : Rat := 0
  /-- R298. -/
  a : Rat := 0
  /-- R298. -/
  e : Rat := 0
  /-- R298. -/
  pages : List (Nat × Word) := []
  deriving DecidableEq, Repr

/-- An accumulator bank (R300) (spec/09_content_calibration.md). Each field's default is its value right after reset. -/
structure CalBank where
  /-- R298. -/
  cols : List ((Nat × Nat) × CalSum) := []
  /-- R298. -/
  noz : List ((Nat × Nat) × CalSum) := []
  /-- R301. -/
  pages : List (Nat × Word) := []
  deriving DecidableEq, Repr

/-- A result (R308, R312) (spec/09_content_calibration.md). Each field's default is its value right after reset. -/
structure CalRes where
  /-- R312. -/
  id : Word := 0
  /-- R312. -/
  epoch : Word := 0
  /-- R312. -/
  lastLine : Word := 0
  /-- R312. -/
  pages : Nat := 0
  /-- R312. -/
  objs : List Obj := []
  /-- R312. -/
  columns : Nat := 0
  /-- R312. -/
  newDead : Nat := 0
  /-- R312. -/
  newWeak : Nat := 0
  /-- R312. -/
  fLimNew : Nat := 0
  /-- R312. -/
  ceiling : Nat := 0
  /-- R312. -/
  outliers : Nat := 0
  /-- R312. -/
  modOut : BitVec 16 := 0
  /-- R303. -/
  auto : Bool := false
  deriving DecidableEq, Repr

/-- Calibration (spec/09_content_calibration.md). Each field's default is its value right after reset. -/
structure Cal where
  /-- R316 ENABLE. -/
  enable : Bool := false
  /-- R316 AUTO_SOLVE. -/
  autoSolve : Bool := true
  /-- R316 AUTO_COMMIT. -/
  autoCommit : Bool := false
  /-- R316 PERSIST. -/
  persist : Bool := true
  /-- R316 GUARD_ALL. -/
  guardAll : Bool := true
  /-- R316 MATCH. -/
  absolute : Bool := false
  /-- R316 CURVES. -/
  curves : Bool := true
  /-- R316 CLASSIFY. -/
  classify : Bool := true
  /-- R316 CODES. -/
  codes : Bool := true
  /-- R316 CAMERA_MASK. -/
  cameraMask : BitVec 4 := 0xF
  /-- R316 MIN_SAMPLES. -/
  minSamples : Nat := 4096
  /-- R316 MIN_NOZZLE. -/
  minNozzle : Nat := 1024
  /-- R316 GAIN. -/
  gain : Nat := 0x80
  /-- R316 MIN_PAGES. -/
  minPages : Nat := 8
  /-- R316 MAX_KNOT_STEP. -/
  maxKnotStep : Nat := 0x2000
  /-- R316 SOLVE_PAGES. -/
  solvePages : Nat := 64
  /-- R316 LEAD_US. -/
  leadUs : Nat := 5000
  /-- R316 FLAT_TOL. -/
  flatTol : Nat := 0x1000
  /-- R316 VOL_S. -/
  volS : Nat := 64
  /-- R316 VOL_M. -/
  volM : Nat := 128
  /-- R316 VOL_L. -/
  volL : Nat := 192
  /-- R316 AIM. -/
  aim : List Nat := (List.range 17).map (fun j => 0xE666 * j / 16)
  /-- R313 CAL_STATE.RESULT. -/
  result : CalResult := .none
  /-- R313 CAL_STATE.BANK. -/
  bank : Bool := false
  /-- R298, R300 gathering or solve bank 0. -/
  bank0 : CalBank := {}
  /-- R298, R300 gathering or solve bank 1. -/
  bank1 : CalBank := {}
  /-- R313 CAL_RESULT_ID. -/
  resultId : Word := 0
  /-- R313 CAL_SAMPLES. -/
  samples : Word := 0
  /-- R313 CAL_EXCLUDED. -/
  excluded : Word := 0
  /-- R313 CAL_COMMITS. -/
  commits : Word := 0
  /-- R313 CAL_REJECTS. -/
  rejects : Word := 0
  /-- R295 W_p by camera and pixel, with the camera line of its last update. -/
  white : List (List (Option (Nat × Nat))) := []
  /-- R295 image line from which a camera's white estimates may be taken (unrebased). -/
  whiteFrom : List Nat := List.replicate 4 0
  /-- R299 latest clearing Lc by module (unrebased). -/
  clearBelow : List Nat := List.replicate 16 0
  /-- R305 pending classifications (column, row, map byte). -/
  pend : List ((Nat × Nat) × Byte) := []
  /-- R301, R315 solve in progress: TAG of CAL_RUN, MODULE_MASK. -/
  run : Option (Option Word × BitVec 16) := none
  /-- R315 CAL_RUN given and not begun (TAG, MODULE_MASK). -/
  runReq : Option (Word × BitVec 16) := none
  /-- R301 L_snap of the running solve (epoch, line). -/
  snap : Option (Word × Word) := none
  /-- R308 the result. -/
  res : Option CalRes := none
  /-- R312 CAL_EXPORT transfers in progress (TAG, bytes), oldest first. -/
  sending : List (Word × Nat) := []
  /-- R309 own commit group. -/
  group : Option Nat := none
  /-- R309 instant before which no own group is armed (3 ms after a host group's Lc). -/
  quietUntil : Dword := 0
  /-- R296 image lines of a module that give no samples (module, line). -/
  excl : List (Nat × Nat) := []
  /-- R166, R297 drops passed to calibration (image line, column, row, code). -/
  laid : List (Nat × Nat × Nat × Nat) := []
  /-- R272 probe marks placed and not yet measured. -/
  marks : List Mark := []
  /-- R304 successive visits of a nozzle whose reference mark was below the floor; 0: the last was valid. -/
  probed : List ((Nat × Nat) × Nat) := []
  /-- R194 ladder measurements. -/
  ladder : List LadderRow := []
  /-- R306 nozzles probed while their zone was in warning (plan, column, row). -/
  probeWarm : List (Nat × Nat × Nat) := []
  deriving DecidableEq, Repr

/-- An encoder (spec/10_web_position_and_time.md). Each field's default is its value right after reset. -/
structure Enc where
  /-- R356 MODE, R353 POS_ENC_STATE.MODE. -/
  mode : Nat := 0
  /-- R356 FWD_SENSE. -/
  fwdSense : Bool := false
  /-- R356 AUTO_CORR. -/
  autoCorr : Bool := true
  /-- R356 FILTER_N. -/
  filterN : Nat := 4
  /-- R356 DIR_HYST. -/
  dirHyst : Nat := 64
  /-- R356 SCALE. -/
  scale : Nat := 0
  /-- R356 INDEX_COUNTS. -/
  indexCounts : Nat := 0
  /-- R319, R353 SIGNAL fault (SIGNAL_OK is 0 while OFF). -/
  fault : Bool := false
  /-- R323 DIR. -/
  dir : Bool := false
  /-- R323 counts fallen below (risen above, in reverse) the extreme since the last DIR change. -/
  dirExt : Int := 0
  /-- R325 INDEX_VALID. -/
  indexValid : Bool := false
  /-- R319 OVERFREQ_LIVE. -/
  overfreq : Bool := false
  /-- R322 ENC_COUNT. -/
  count : Word := 0
  /-- R324 ENC_SPEED. -/
  speed : Int := 0
  /-- R353 SPEED_VALID. -/
  speedValid : Bool := false
  /-- R324 count changes of the last samples, newest first. -/
  hist : List Int := []
  /-- R325 REF. -/
  ref : Word := 0
  /-- R326 forward counts since the last index. -/
  sinceIndex : Int := 0
  /-- R326 in a run of missing indices. -/
  missing : Bool := false
  /-- R353 POS_INDEX_SLIPS. -/
  slips : Word := 0
  /-- R353 POS_INDEX_DEV. -/
  dev : Word := 0
  /-- R353 POS_QUAD_ERRORS. -/
  quadErrors : Word := 0
  /-- R328 count change of the 1 ms window. -/
  winCount : Int := 0
  /-- R321 instant the SIGNAL fault began (MONO_TIME). -/
  faultAt : Dword := 0
  /-- R320 the accepted levels of A, B and Z, each with the clocks the other level has lasted. -/
  filt : List (Bool × Nat) := [(false, 0), (false, 0), (false, 0)]
  /-- R318 angle of the last sample, in steps of a 4,096th of a period. -/
  phase : Option Nat := none
  /-- R318 which state the correction of offset, ratio and phase is in: the model's own, the index of a free value. -/
  corrNo : Nat := 0
  /-- R325 the last sample is the first in which filtered Z is high; none where it brought no level of Z. -/
  zRise : Option Bool := none
  deriving DecidableEq, Repr

/-- A position comparator (spec/10_web_position_and_time.md). Each field's default is its value right after reset. -/
structure Cmp where
  /-- R353 POS_CMP_STATE.STATE. -/
  st : CmpState := .idle
  /-- R353 DIR. -/
  dir : Nat := 0
  /-- R353 LATE_ACTION. -/
  late : Bool := false
  /-- R353 FIRINGS. -/
  firings : BitVec 16 := 0
  /-- R335 firings counted against COUNT. -/
  total : Nat := 0
  /-- R353 POS_CMP_EPOCH. -/
  epoch : Word := 0
  /-- R353 POS_CMP_TARGET. -/
  target : BitVec 50 := 0
  /-- R338 ACTION. -/
  action : Nat := 0
  /-- R338 PIN. -/
  pin : Nat := 0
  /-- R338 EVENT. -/
  event : Bool := false
  /-- R336 EPOCH_BOUND. -/
  epochBound : Bool := false
  /-- R334 late under fire-now: the action comes at the next sample. -/
  now : Bool := false
  /-- R335 PERIOD. -/
  period : Nat := 0
  /-- R335 COUNT. -/
  cnt : Nat := 0
  /-- R338 WIDTH. -/
  width : Nat := 0
  /-- R333 DIR either: it has fired for a crossing to come or just made, forwards or in reverse. -/
  pre : Option Bool := none
  /-- R337 sample instant of its last firing (MONO_TIME). -/
  firedAt : Option Dword := none
  deriving DecidableEq, Repr

/-- A timer (spec/10_web_position_and_time.md). Each field's default is its value right after reset. -/
structure Timer where
  /-- R353 TT_STATE.STATE. -/
  st : Nat := 0
  /-- R349 BASE. -/
  base : Bool := false
  /-- R350 LATE_ACTION. -/
  late : Bool := false
  /-- R349 ACTION. -/
  action : Nat := 0
  /-- R359 PIN. -/
  pin : Nat := 0
  /-- R350 EVENT. -/
  event : Bool := false
  /-- R349 START. -/
  start : Dword := 0
  /-- R349 next instant. -/
  nextAt : Dword := 0
  /-- R349 PERIOD. -/
  period : Nat := 0
  /-- R359 WIDTH. -/
  width : Nat := 0
  deriving DecidableEq, Repr

/-- An absolute-position port (spec/10_web_position_and_time.md). Each field's default is its value right after reset. -/
structure AbsPort where
  /-- R361 PROTOCOL. -/
  protocol : Nat := 0
  /-- R361 GRAY. -/
  gray : Bool := false
  /-- R361 POS_BITS. -/
  posBits : Nat := 0
  /-- R361 ERR_BITS. -/
  errBits : Nat := 0
  /-- R361 CRC_WIDTH. -/
  crcWidth : Nat := 6
  /-- R361 CLOCK_KHZ. -/
  clockKhz : Nat := 2000
  /-- R361 CRC_POLY. -/
  crcPoly : Nat := 0x0003
  /-- R361 CRC_XOROUT. -/
  crcXor : Nat := 0x003F
  /-- R361 TIMEOUT_US. -/
  timeoutUs : Nat := 20
  /-- R361 MONO_US. -/
  monoUs : Nat := 25
  /-- R361 DELAY_NS. -/
  delayNs : Nat := 0
  /-- R361 MAX_STEP. -/
  maxStep : Nat := 0
  /-- R352 a position has been read. -/
  good : Bool := false
  /-- R353 ABS_STATE.POS_VALID. -/
  posValid : Bool := false
  /-- R353 ABS_STATE.WARN. -/
  warn : Bool := false
  /-- R353 ABS_STATE.OUTCOME. -/
  outcome : Nat := 0
  /-- R353 ABS_POS. -/
  pos : BitVec 40 := 0
  /-- R353 ABS_ERRORS. -/
  errors : Word := 0
  /-- R352 consecutive held reads. -/
  badRun : Nat := 0
  /-- R352 consecutive good reads. -/
  goodRun : Nat := 0
  /-- R349 a read is in progress. -/
  reading : Bool := false
  deriving DecidableEq, Repr

/-- Web position, comparators, time and absolute ports (spec/10_web_position_and_time.md). Each field's default is its value right after reset. -/
structure Pos where
  /-- R317. -/
  encs : List Enc := [{}, {}]
  /-- R25 position accumulator, 32-bit line and 48-bit fraction (LINE_POS). -/
  acc : BitVec 80 := 0
  /-- R27 highest line index reached in the epoch. -/
  high : Word := 0
  /-- R160 the same on the count that is not rebased. -/
  absHigh : Nat := 0
  /-- R353 POS_T_S. -/
  tS : Word := 0xFFFFFFFF
  /-- R324 raw 32.18 changes of the last samples. -/
  posHist : List Int := []
  /-- R327 pending index correction, 2^-48 line. -/
  corr : Int := 0
  /-- R353 PENDING. -/
  corrOn : Bool := false
  /-- R353 POS_AGREE. -/
  agree : Bool := false
  /-- R328 windows that agreed in a row. -/
  agreeRun : Nat := 0
  /-- R328 instant the last window ended (MONO_TIME). -/
  agreeAt : Dword := 0
  /-- R328 S0, um/s. -/
  s0 : Int := 0
  /-- R328 S1, um/s. -/
  s1 : Int := 0
  /-- R357 ENCO_ENABLE. -/
  encoEnable : Bool := false
  /-- R357 ENCO_RATIO. -/
  encoRatio : Nat := 65536
  /-- R357 ENCO_Z_COUNTS. -/
  encoZ : Nat := 0
  /-- R330 output count. -/
  encoCount : Int := 0
  /-- R330 counts of ENC0 not yet turned into output, 2^-16. -/
  encoRem : Int := 0
  /-- R330 count the output should be at (ENCO_STATE.LAG is the distance). -/
  encoTgt : Int := 0
  /-- R330 the last edge is less than 100 ns old. -/
  encoWait : Bool := false
  /-- R332. -/
  cmps : List Cmp := List.replicate 24 {}
  /-- R339 capture FIFO, oldest first. -/
  fifo : List (List Word) := []
  /-- R339 SEQ of the next capture. -/
  capSeq : BitVec 16 := 0
  /-- R342, R584 MONO_TIME. -/
  mono : Dword := 0
  /-- R342, R584 NET_TIME with 32 fraction bits. -/
  net : BitVec 96 := 0
  /-- R342, R584 RATE_ADJ. -/
  rateAdj : Int := 0
  /-- R345 last updates of RATE_ADJ. -/
  rateHist : List Int := []
  /-- R348 LINE_TIME. -/
  lineTime : Dword := 0
  /-- R343 TIME_STATE.STATE. -/
  tState : TimeState := .freeRun
  /-- R344 STEP_GEN. -/
  stepGen : Byte := 0
  /-- R353 TIME_OFFSET. -/
  offset : Word := 0
  /-- R345 instant HOLDOVER began (MONO_TIME). -/
  holdStart : Option Dword := none
  /-- R360 PTP_ENABLE. -/
  ptpEnable : Bool := false
  /-- R360 TRANSPORT. -/
  ptpUdp : Bool := false
  /-- R340 DOMAIN. -/
  ptpDomain : Byte := 0
  /-- R345 HOLDOVER_PPB. -/
  holdPpb : Nat := 1000
  /-- R345 HOLDOVER_LIMIT. -/
  holdLimit : Nat := 10
  /-- R360 IPV4_ADDR. -/
  ipv4 : Word := 0
  /-- R360 IPV4_MASK. -/
  ipv4Mask : Word := 0
  /-- R340, R343 selected master. -/
  master : Option PtpMaster := none
  /-- R340 foreign masters heard and their Announce messages. -/
  foreign : List (PtpMaster × Nat) := []
  /-- R343 instant of the master's last Announce (MONO_TIME). -/
  annAt : Dword := 0
  /-- R343 its announce interval, ns. -/
  annNs : Nat := 0
  /-- R343 instant of the master's last Sync, or of its selection (MONO_TIME). -/
  syncAt : Dword := 0
  /-- R343 its sync interval, ns. -/
  syncNs : Nat := 0
  /-- R341 last Sync: t1 once it is known, t2, sequence. -/
  syncT1 : Option (Option Dword × Dword × Nat) := none
  /-- R341 last Delay_Req: t3, sequence. -/
  delayT3 : Option (Dword × Nat) := none
  /-- R341 exchanges (round trip, offset) of the window of 8. -/
  xchg : List (Int × Int) := []
  /-- R343 filtered exchanges in a row within 2 us. -/
  okRun : Nat := 0
  /-- R349. -/
  timers : List Timer := List.replicate 8 {}
  /-- R351. -/
  abs : List AbsPort := [{}, {}]
  deriving DecidableEq, Repr

/-- A queued move (R369) (spec/11_lift_and_cap_axes.md). Each field's default is its value right after reset. -/
structure Move where
  /-- R369. -/
  target : Int := 0
  /-- R369. -/
  v : Nat := 0
  /-- R369. -/
  blend : Bool := false
  /-- R387. -/
  tag : Option Word := none
  /-- R369. -/
  dir : Int := 0
  deriving DecidableEq, Repr

/-- AX_CONFIG of an axis (R388) (spec/11_lift_and_cap_axes.md). Each field's default is its value right after reset. -/
structure AxCfg where
  /-- R388 FWD_SENSE. -/
  fwdSense : Bool := false
  /-- R388 DECAY. -/
  decay : Nat := 0
  /-- R388 FAST_FRAC. -/
  fastFrac : Nat := 0
  /-- R388 POL. -/
  pol : BitVec 4 := 0
  /-- R388 HOME_DIR. -/
  homeDir : Bool := false
  /-- R388 T_OFF. -/
  tOff : Nat := 0
  /-- R388 T_BLANK. -/
  tBlank : Nat := 0
  /-- R388 HOLD_MS. -/
  holdMs : Nat := 0
  /-- R388 STALL_CYCLES. -/
  stallCycles : Nat := 0
  /-- R388 I_HOLD. -/
  iHold : Nat := 0
  /-- R388 I_RUN. -/
  iRun : Nat := 0
  /-- R388 I_BOOST. -/
  iBoost : Nat := 0
  /-- R388 V_MAX. -/
  vMax : Nat := 0
  /-- R388 A_MAX. -/
  aMax : Nat := 0
  /-- R388 D_MAX. -/
  dMax : Nat := 0
  /-- R388 J_MAX. -/
  jMax : Nat := 0
  /-- R388 SOFT_MIN. -/
  softMin : Int := 0
  /-- R388 SOFT_MAX. -/
  softMax : Int := 0
  /-- R388 ABS_RATIO. -/
  absRatio : Nat := 0
  /-- R388 STALL_ERR. -/
  stallErr : Nat := 0
  /-- R388 BOOST_ERR. -/
  boostErr : Nat := 0
  /-- R388 FILT_N. -/
  filtN : Nat := 0
  /-- R388 SW_HYST. -/
  swHyst : Nat := 0
  /-- R388 BOOST_GAIN. -/
  boostGain : Nat := 0
  /-- R388 HOME_V. -/
  homeV : Nat := 0
  /-- R388 HOME_POS. -/
  homePos : Int := 0
  deriving DecidableEq, Repr

/-- A chopper phase (R367) (spec/11_lift_and_cap_axes.md). Each field's default is its value right after reset. -/
structure Phase where
  /-- R367 on-period running. -/
  on : Bool := false
  /-- R367 first part of the off-period in fast decay. -/
  fast : Bool := false
  /-- R366 DAC code in force. -/
  code : Nat := 0
  /-- R366 polarity in force. -/
  neg : Bool := false
  /-- R367 instant the on-period or off-period began (MONO_TIME). -/
  since : Dword := 0
  deriving DecidableEq, Repr

/-- An axis (spec/11_lift_and_cap_axes.md). Each field's default is its value right after reset. -/
structure Axis where
  /-- R385 AX_STATE.STATE. -/
  st : AxState := .idle
  /-- R369 move queue. -/
  queue : List Move := []
  /-- R388 configuration. -/
  cfg : AxCfg := {}
  /-- R364 ABS_OFFSET in use. -/
  offset : Int := 0
  /-- R380 HOMED. -/
  homed : Bool := false
  /-- R385 SW filtered active levels. -/
  sw : BitVec 4 := 0
  /-- R377 filtered active levels with the changes that are ignored. -/
  swIn : BitVec 4 := 0
  /-- R377 inputs whose filtered level has been seen since reset: the model's own. -/
  swSeen : BitVec 4 := 0
  /-- R377 inputs ignored until SW_HYST is passed. -/
  swMask : BitVec 4 := 0
  /-- R377 latched positions of the last edges. -/
  edgePos : List Int := [0, 0, 0, 0]
  /-- R384 CAP_CONFIRMED (CAP axis). -/
  capConf : Bool := false
  /-- R385 FAULT. -/
  fault : Nat := 0
  /-- R385 INTERLOCK. -/
  interlock : Nat := 0
  /-- R385 AX_CMD_POS. -/
  cmd : Int := 0
  /-- R365 phase accumulator. -/
  frac : Nat := 0
  /-- R365 electrical index i. -/
  elec : Nat := 0
  /-- R385 AX_MEAS_POS. -/
  meas : Int := 0
  /-- R364 commanded position latched at the read. -/
  latched : Int := 0
  /-- R385 AX_VEL (planner velocity, 10^-10 microstep/s). -/
  vel : Int := 0
  /-- R369 planner acceleration (10^-5 microstep/s2). -/
  accel : Int := 0
  /-- R385 AX_FOLLOW_ERR. -/
  err : Int := 0
  /-- R370, R385 AX_CURRENT.I_NOW. -/
  iNow : Nat := 0
  /-- R385 AX_EDGE_LATCH. -/
  edgeLatch : Int := 0
  /-- R385 AX_STALLS. -/
  stalls : Word := 0
  /-- R385 AX_LIMIT_TRIPS. -/
  limitTrips : Word := 0
  /-- R385 AX_REPLANS. -/
  replans : Word := 0
  /-- R374 cycles beyond STALL_ERR in a row. -/
  stallRun : Nat := 0
  /-- R370 stood still for HOLD_MS: base is I_HOLD. -/
  hold : Bool := false
  /-- R370 instant the axis came to stand still (MONO_TIME). -/
  stillAt : Dword := 0
  /-- R370 I_NOW is at I_BOOST. -/
  boosting : Bool := false
  /-- R366, R367 phase A. -/
  phA : Phase := {}
  /-- R366, R367 phase B. -/
  phB : Phase := {}
  /-- R379 homing in progress. -/
  home : Option HomeJob := none
  /-- R372 stop in progress uses D_MAX. -/
  stopHard : Bool := false
  /-- R378 causes that act at the next planner tick. -/
  stopDue : List StopCause := []
  /-- R459, R472 AXa_EN level. -/
  enabled : Bool := false
  deriving DecidableEq, Repr

/-- Both axes, sequences and interlocks (spec/11_lift_and_cap_axes.md). Each field's default is its value right after reset. -/
structure Axes where
  /-- R369 instant of the last planner tick (MONO_TIME). -/
  tickAt : Dword := 0
  /-- R362. -/
  ax : List Axis := [{}, {}]
  /-- R385 AX_SEQ_STEP. -/
  seqStep : Nat := 0
  /-- R383 sequence in progress. -/
  seq : Option SeqJob := none
  /-- R389 LIFT_PRINT, LIFT_GUARD, LIFT_CLEAR, LIFT_CAP, LIFT_WIPE. -/
  lifts : List Int := [0, 0, 0, 0, 0]
  /-- R389 CAP_PARK, CAP_CAPPOS, WIPE_START, WIPE_END. -/
  caps : List Int := [0, 0, 0, 0]
  /-- R389 POS_TOL. -/
  posTol : Nat := 0
  /-- R389 CONFIRM_MS. -/
  confirmMs : Nat := 0
  /-- R389 WIPE_V. -/
  wipeV : Nat := 0
  /-- R382, R389 AX_SEQ_CONFIG has been given. -/
  seqCfgd : Bool := false
  deriving DecidableEq, Repr

/-- What the chip knows of a Lantern driver (spec/12_illumination_drive.md). Each field's default is its value right after reset. -/
structure Drv where
  /-- R393, R401 DERATE sent. -/
  derate : Nat := 255
  /-- R401 sent OFF. -/
  off : Bool := false
  /-- R394, R409 last status word. -/
  status : List Byte := List.replicate 8 0
  /-- R400 its last valid status since the levels were sent with LOAD has PENDING_OK. -/
  pendOk : Bool := false
  deriving DecidableEq, Repr

/-- An illumination chain (spec/12_illumination_drive.md). Each field's default is its value right after reset. -/
structure Chain where
  /-- R407 LAMP_STATE.IN_USE. -/
  inUse : Bool := false
  /-- R407 LAMP_STATE.MODE. -/
  legacy : Bool := false
  /-- R407 LAMP_STATE.SEEN. -/
  seen : Nat := 0
  /-- R407 LAMP_STATE.CAMERA. -/
  camera : Nat := 0
  /-- R407 LAMP_STATE.DERATING. -/
  derating : Bool := false
  /-- R407 LAMP_STROBES. -/
  strobes : Word := 0
  /-- R407 LAMP_SKIPS. -/
  skips : Word := 0
  /-- R407 LAMP_DIAG_RUNS. -/
  diagRuns : Word := 0
  /-- R407 LAMP_STATUS_BAD. -/
  statusBad : Word := 0
  /-- R395. -/
  drvs : List Drv := List.replicate 32 {}
  /-- R396, R400 ILLUM_LEVELS object the chain works from. -/
  levels : List Byte := []
  /-- R400 group whose levels were sent with LOAD. -/
  pendGroup : Option Nat := none
  /-- R400 every driver reported PENDING_OK. -/
  pendOk : Bool := false
  /-- R82, R400 levels that take force at the first frame from Lc (unrebased), oldest first. -/
  swaps : List (Nat × List Byte) := []
  /-- R401 MONO_TIME of the last frame with LOAD 0 sent for status. -/
  statusAt : Dword := 0
  /-- R403 frames whose return streams are due, oldest first: DRIVERS, and the instant (ns) by which each is due. -/
  returnBy : List (Nat × Nat) := []
  /-- R392, R403 DRIVERS of the last frame sent. -/
  frameH : Nat := 0
  /-- R400 instant (ns) at which the levels that wait were committed. -/
  swapAt : Int := 0
  /-- R399 end of the previous light (ns). -/
  lastEnd : Int := 0
  /-- R399 lights of the last 1 ms (start, length ns). -/
  lit : List (Int × Int) := []
  /-- R402 camera lines tried for a DIAG that is due. -/
  diagTries : Option Nat := none
  /-- R404 legacy pattern latched on the outputs. -/
  pattern : List Byte := []
  /-- R404 a legacy light is on or to come. -/
  lightOn : Bool := false
  /-- R404 legacy lights whose zeros have not been latched, oldest first (start and end, ns). -/
  legacyLights : List (Int × Int) := []
  deriving DecidableEq, Repr

/-- Illumination (spec/12_illumination_drive.md). Each field's default is its value right after reset. -/
structure Lamp where
  /-- R390. -/
  chains : List Chain := [{}, {}]
  deriving DecidableEq, Repr

/-- Twin unit state (spec/13_twin_units_and_hot_plug.md). Each field's default is its value right after reset. -/
structure Twin where
  /-- R4, R38, R441 ROLE. -/
  role : Role := .listen
  /-- R441 SYNCED. -/
  synced : Bool := false
  /-- R441 JOINING, R439 the join in progress. -/
  joining : Option JoinJob := none
  /-- R441 PEER_PRESENT. -/
  peerPresent : Bool := false
  /-- R421 valid frames in a row. -/
  peerRun : Nat := 0
  /-- R441 PEER_HEARS. -/
  peerHears : Bool := false
  /-- R441 PEER_ROLE. -/
  peerRole : Nat := 0
  /-- R441 PEER_OP_STATE. -/
  peerOp : Nat := 0
  /-- R441 PEER_SYNCED. -/
  peerSynced : Bool := false
  /-- R419 peer FIRING. -/
  peerFiring : Bool := false
  /-- R441 PRSNT. -/
  prsnt : Bool := false
  /-- R441, R447 TAKEOVER_EN. -/
  takeoverEn : Bool := true
  /-- R441 POS_ADOPTED. -/
  posAdopted : Bool := false
  /-- R441 CLAIM_OWN. -/
  claimOwn : Word := 0
  /-- R441 CLAIM_PEER. -/
  claimPeer : Word := 0
  /-- R415 highest CLAIM or ACC_CLAIM received since chip reset. -/
  claimSeen : Word := 0
  /-- R415 claim space exhausted. -/
  exhausted : Bool := false
  /-- R441 PEER_SERIAL. -/
  peerSerial : Dword := 0
  /-- R441 DIGEST_LINE. -/
  digestLine : Word := 0
  /-- R441 DIGEST_OWN. -/
  digestOwn : Word := 0
  /-- R441 DIGEST_PEER. -/
  digestPeer : Word := 0
  /-- R441 SYNC_LINE. -/
  syncLine : Word := 0xFFFFFFFF
  /-- R441 TAKEOVERS. -/
  takeovers : Word := 0
  /-- R441 DIGEST_MISMATCHES. -/
  mismatches : Word := 0
  /-- R441 VIGIL_CRC_ERRORS. -/
  crcErrors : Word := 0
  /-- R441 VIGIL_LOSSES. -/
  losses : Word := 0
  /-- R433 instant the peer was lost (MONO_TIME). -/
  lostAt : Dword := 0
  /-- R421 instant of the last valid frame (MONO_TIME). -/
  rxAt : Dword := 0
  /-- R418 instant the next frame is due (MONO_TIME). -/
  txAt : Dword := 0
  /-- R420 instant of the last POSITION message (MONO_TIME). -/
  posTxAt : Dword := 0
  /-- R441 POS_DIFF. -/
  posDiff : Word := 0
  /-- R447 VIGIL_GRACE_MS. -/
  graceMs : Nat := 1000
  /-- R447 SYNC_LINES. -/
  syncLines : Nat := 256
  /-- R419, R423 the first fire line, unrebased, whose digest is not formed: the model's own. -/
  digestNext : Nat := 0
  /-- R424 own digests of the last 64 fire lines (epoch, line, digest). -/
  digests : List (Word × Word × Word) := []
  /-- R424 peer digests that wait for the own line. -/
  peerDig : List (Word × Word × Word) := []
  /-- R440 matching fire lines in a row. -/
  matchRun : Nat := 0
  /-- R440 F_sync (unrebased). -/
  fSync : Option Nat := none
  /-- R419 FSEQ of the next frame. -/
  fseq : Byte := 0
  /-- R419 MSG_SEQ of the last message. -/
  msgSeq : Byte := 0
  /-- R420 MSG_SEQ last acted on. -/
  peerMsgSeq : Option Byte := none
  /-- R420 queued messages. -/
  txQueue : List VMsg := []
  /-- R420 message whose second copy is due. -/
  txCopy : Option VMsg := none
  /-- R419 SERIAL sent since PEER_OK became 1. -/
  serialSent : Bool := false
  /-- R419 PEER_OK: a valid frame within 7.68 us. -/
  rxFresh : Bool := false
  /-- R432 switchover: L_sw (unrebased), new claim, TAG at the ACTIVE role unit. -/
  swLine : Option (Nat × Word × Option Word) := none
  deriving DecidableEq, Repr

/-- SAFE_CONFIG (R475) (spec/14_safety.md). Each field's default is its value right after reset. -/
structure OnyxCfg where
  /-- R475 V_MIN. -/
  vMin : Nat := 100000
  /-- R475 V_LAMP. -/
  vLamp : Nat := 10000
  /-- R475 SCALE0. -/
  scale0 : Nat := 0
  /-- R475 SCALE1. -/
  scale1 : Nat := 0
  /-- R475 CAP1_LO. -/
  cap1Lo : Word := 1
  /-- R475 CAP1_HI. -/
  cap1Hi : Word := 0
  /-- R475 CAP0_LO. -/
  cap0Lo : Word := 1
  /-- R475 CAP0_HI. -/
  cap0Hi : Word := 0
  /-- R475 LIFT_GUARD. -/
  liftGuard : Word := 0
  /-- R475 AX_TOL. -/
  axTol : Nat := 64
  /-- R475 LIFT_UP_RISING. -/
  liftUpRising : Bool := true
  /-- R475 ENC0_FWD. -/
  enc0Fwd : Bool := false
  /-- R475 ENC1_FWD. -/
  enc1Fwd : Bool := false
  /-- R475 E_MAX. -/
  eMax : Word := 0xFFFFFFFF
  deriving DecidableEq, Repr

/-- Energy sums Onyx holds for a fire line and module (R460) (spec/14_safety.md). Each field's default is its value right after reset. -/
structure ESum where
  /-- R460. -/
  fire : Nat := 0
  /-- R460. -/
  mod : Nat := 0
  /-- R460. -/
  eG : Option Word := none
  /-- R460. -/
  eFW : Option (Word × Word) := none
  deriving DecidableEq, Repr

/-- Onyx's own reading of an ABS port (R459) (spec/14_safety.md). Each field's default is its value right after reset. -/
structure OnyxAbs where
  /-- R472 ONYX_ABS. -/
  pos : Word := 0
  /-- R459 good positions of the last 10 ms. -/
  hist : List (Dword × Word) := []
  /-- R459 failed reads in a row. -/
  badRun : Nat := 0
  /-- R459 good reads in a row. -/
  goodRun : Nat := 0
  /-- R459 position known. -/
  known : Bool := false
  /-- R453, R459 ms since the last good read, 21 for more than 20 or for none. -/
  age : Nat := 21
  deriving DecidableEq, Repr

/-- Safety supervisor (spec/14_safety.md). Each field's default is its value right after reset. -/
structure Onyx where
  /-- R475 configuration. -/
  cfg : OnyxCfg := {}
  /-- R451 CRC-32C of the configuration. -/
  cfgCrc : Word := Config.onyxCrcReset
  /-- R472 ONYX_STATE.TRIPPED. -/
  tripped : Bool := false
  /-- R464 trip latched, head power not yet removed. -/
  reacting : Bool := false
  /-- R472 PERMIT_MAIN. -/
  permMain : BitVec 4 := 0
  /-- R472 PERMIT_ONYX. -/
  permOnyx : BitVec 4 := 0
  /-- R472 GATE_OPEN. -/
  gateOpen : Bool := false
  /-- R456 granted again: opens at the next boundary. -/
  gateReopen : Bool := false
  /-- R472 HPWR_A. -/
  hpwrA : Bool := false
  /-- R472 HPWR_B. -/
  hpwrB : Bool := false
  /-- R472 SAFE_OK. -/
  safeOk : Bool := false
  /-- R472 HPWR_FB pin. -/
  hpwrFb : Bool := false
  /-- R472 LAMP_PWR_EN. -/
  lampPwr : Bool := false
  /-- R472 WDOG_RUNNING. -/
  wdogRunning : Bool := false
  /-- R472 BERYL_HELD. -/
  berylHeld : Bool := false
  /-- R472 ONYX_TRIP.CAUSE. -/
  cause : Nat := 0
  /-- R472 TRIP_SEQ. -/
  tripSeq : BitVec 16 := 0
  /-- R472 ONYX_TRIP_MASK. -/
  mask : BitVec 17 := 0
  /-- R472 ONYX_ACTIVE. -/
  active : BitVec 17 := 0
  /-- R472 ONYX_TRIP_PARAM. -/
  param : Word := 0
  /-- R472 ONYX_TRIP_LINE. -/
  tripLine : Word := 0
  /-- R472 ONYX_SPEED0. -/
  speed0 : Int := 0
  /-- R472 ONYX_SPEED1. -/
  speed1 : Int := 0
  /-- R454 net forward edges of the last ms of ENC0, newest first. -/
  edges0 : List Int := []
  /-- R454 the same for ENC1. -/
  edges1 : List Int := []
  /-- R454 envelope lost or pair open, by encoder. -/
  envLost : BitVec 2 := 0
  /-- R454 ticks in a row that met the WEB conditions. -/
  webRun : Nat := 0
  /-- R458 ms both speeds have been below V_LAMP. -/
  lampLow : Nat := 0
  /-- R459. -/
  abs : List OnyxAbs := [{}, {}]
  /-- R453 ms the filtered CAP_SW has been active. -/
  capSwMs : Nat := 0
  /-- R449 filtered CAP_SW. -/
  capSw : Bool := false
  /-- R472 ONYX_TRIPS. -/
  trips : Word := 0
  /-- R472 ONYX_WDOG_LAST. -/
  wdogLast : BitVec 16 := 0
  /-- R462 value the next kick must carry. -/
  wdogNext : Byte := 0x5A
  /-- R462 restarts in a row without a kick. -/
  wdogRestarts : Nat := 0
  /-- R460 sums kept. -/
  sums : List ESum := []
  /-- R466 a WATCHDOG trip's restart of Beryl follows the entry into SAFE. -/
  restartDue : Bool := false
  /-- R450, R451 last self-test passed. -/
  selfTestOk : Bool := false
  /-- R474 SAFE_TRIP that waits for SAFE. -/
  tripSlot : Option Nat := none
  /-- R459 why AXa_EN is removed: 0 not, 1 trip, 2 unknown position. -/
  axRemoved : List Nat := [0, 0]
  /-- R459 instant a trip removed AXa_EN (MONO_TIME). -/
  removedAt : List Dword := [0, 0]
  /-- R464 instant the trip latched (MONO_TIME). -/
  tripAt : Dword := 0
  /-- R456 instant Onyx withdrew permission p (MONO_TIME). -/
  wdrAt : List Dword := [0, 0, 0, 0]
  /-- R462 instant of the last kick, or of the restart that waits for one (MONO_TIME). -/
  kickAt : Dword := 0
  /-- R461 instant the head power enables fell (MONO_TIME). -/
  fellAt : Dword := 0
  /-- R453 instant of the last ONYX_TICK (MONO_TIME). -/
  tickAt : Dword := 0
  deriving DecidableEq, Repr

/-- A request of one requester, at the requester or in an entry of the scheduler (R483 to R486) (spec/15_dram_controller.md). Each field's default is its value right after reset. -/
structure MemReq where
  /-- R486 its number in the order of presentation. -/
  id : Nat := 0
  /-- R483 requester 0 to 9. -/
  requester : Nat := 0
  /-- R481, R486 it writes. -/
  write : Bool := false
  /-- R479 DRAM address ÷ 256. -/
  chunk : Nat := 0
  /-- R483 first byte in the chunk. -/
  first : Nat := 0
  /-- R483 last byte in the chunk. -/
  last : Nat := 0
  /-- R480 what the data belongs to: a block, a line, a group, a column, a transfer. -/
  what : Nat := 0
  /-- R484 MONO_TIME of its presentation. -/
  born : Dword := 0
  /-- R484, R498 the AGE that applies to it. -/
  age : Nat := 0
  /-- R484 promoted. -/
  urgent : Bool := false
  /-- R484 reported as starved. -/
  starved : Bool := false
  /-- R485 its entry, or none. -/
  place : MemPlace := .outside
  /-- R485 its ACTIVATE is issued. -/
  opened : Bool := false
  /-- R485 column commands issued since. -/
  cols : Nat := 0
  /-- R481 the read of a read-modify-write is done. -/
  readDone : Bool := false
  deriving DecidableEq, Repr

/-- DRAM controller (spec/15_dram_controller.md). Each field's default is its value right after reset. -/
structure Dram where
  /-- R496 MEM_STATE.RATE. -/
  rate : Nat := 0
  /-- R496 REF_FAST. -/
  refFast : Bool := false
  /-- R496 TRAINED. -/
  trained : Bool := false
  /-- R496 TRAIN_STEP. -/
  trainStep : Nat := 0
  /-- R496 RATE_PENDING, R495 the MEM_SET_RATE waiting or running (TAG, RATE). -/
  ratePending : Option (Word × Nat) := none
  /-- R496 DRAM_FAIL. -/
  fail : Bool := false
  /-- R496 TEMP_RANGE. -/
  tempRange : Nat := 3
  /-- R496 MEM_CONFIG. -/
  config : Word := 0
  /-- R496 MEM_INFLIGHT.PEAK. -/
  peak : Nat := 0
  /-- R496 MEM_ECC_CORR. -/
  eccCorr : Word := 0
  /-- R496 MEM_ECC_UNCORR. -/
  eccUncorr : Word := 0
  /-- R496 MEM_ECC_ADDR. -/
  eccAddr : Word := 0
  /-- R496 MEM_REFRESHES. -/
  refreshes : Word := 0
  /-- R496 MEM_PROMOTIONS. -/
  promotions : Word := 0
  /-- R496 MEM_RT_LAT_MAX. -/
  rtLatMax : Word := 0
  /-- R496 MEM_RT_UNDERRUNS. -/
  rtUnderruns : Word := 0
  /-- R496 MEM_BW: instant, bytes and RT class of each request completed in the last 1 ms. -/
  served : List (Dword × Nat × Bool) := []
  /-- R496 MEM_MARGIN. -/
  margin : BitVec 24 := 0
  /-- R496 MEM_TRN_CMP. -/
  trnCmp : Word := 0
  /-- R483 AGE by requester. -/
  age : List Nat := [0, 0, 0, 4000, 4000, 4000, 1000, 4000, 65535]
  /-- R484 to R486, R496 MEM_INFLIGHT: the requests presented and not completed, oldest first. -/
  reqs : List MemReq := []
  /-- R486 requests presented so far. -/
  nextReq : Nat := 0
  /-- R482 the 64 B unit that the patrol scrubber reads next. -/
  scrub : Nat := 0
  /-- R487 instant (ns) until which a refresh stalls the requesters. -/
  stallTo : Nat := 0
  /-- R485 reads whose column commands are all issued, in that order. -/
  returning : List Nat := []
  /-- R487 MONO_TIME of the last refresh. -/
  refreshAt : Option Dword := none
  /-- R490 a readout above 85 degC has been seen at 7.8 us. -/
  hotSeen : Bool := false
  /-- R497 corrections since the last 0x0E01. -/
  corrSince : Nat := 0
  /-- R497 instant of the last 0x0E01 (MONO_TIME). -/
  corrAt : Option Dword := none
  /-- R490 ns since the last readout above 85 degC. -/
  coolNs : Nat := 0
  /-- R487 refreshes since the last ZQCS. -/
  sinceZq : Nat := 0
  /-- R482 zero fill done. -/
  zeroed : Bool := false
  /-- R491, R495 pass running (TAG of MEM_TRAIN, MARGIN_ONLY). -/
  training : Option (Option Word × Bool) := none
  /-- R495 the pass in progress is discarded. -/
  discardPass : Bool := false
  /-- R494 rate to return to. -/
  oldRate : Nat := 0
  deriving DecidableEq, Repr

/-- A calibration-set slot (R510, R511) (spec/16_persistence_and_almanac.md). Each field's default is its value right after reset. -/
structure SetSlot where
  /-- R511 commit record. -/
  commit : List Word := List.replicate 16 0
  /-- R510 content. -/
  objs : List Obj := []
  /-- R524 SET_WRITES. -/
  writes : Word := 0
  deriving DecidableEq, Repr

/-- An Almanac record waiting for budget (R520) (spec/16_persistence_and_almanac.md). Each field's default is its value right after reset. -/
structure AlmRec where
  /-- R519. -/
  code : BitVec 16 := 0
  /-- R519. -/
  source : Byte := 0
  /-- R519. -/
  severity : Nat := 0
  /-- R519. -/
  p0 : Word := 0
  /-- R519. -/
  p1 : Word := 0
  /-- R519. -/
  p2 : Word := 0
  /-- R519. -/
  p3 : BitVec 16 := 0
  /-- R526. -/
  host : Option Nat := none
  /-- R526. -/
  asked : Dword := 0
  /-- R520. -/
  seq : Nat := 0
  deriving DecidableEq, Repr

/-- A running set write (R513) (spec/16_persistence_and_almanac.md). Each field's default is its value right after reset. -/
structure SetJob where
  /-- R513. -/
  slot : Bool := false
  /-- R511. -/
  gen : Word := 0
  /-- R512. -/
  image : List Obj := []
  /-- R511. -/
  line : Word := 0xFFFFFFFF
  /-- R511. -/
  epoch : Word := 0
  /-- R511. -/
  modules : Nat := 0
  /-- R526. -/
  tags : List Word := []
  deriving DecidableEq, Repr

/-- MRAM, Almanac and calibration sets (spec/16_persistence_and_almanac.md). Each field's default is its value right after reset. -/
structure Pers where
  /-- R503, R505 PRF words. -/
  prf : List Word := Config.prfDelivered
  /-- R506 wear counters. -/
  wear : List Nat := List.replicate 16 0
  /-- R507 stored counters. -/
  wearStore : List Nat := List.replicate 16 0
  /-- R507 CLEAN. -/
  clean : Bool := true
  /-- R508 0x0E11 queued once per page. -/
  wearLimitSeen : BitVec 16 := 0
  /-- R510 slot A. -/
  slotA : SetSlot := {}
  /-- R510 slot B. -/
  slotB : SetSlot := {}
  /-- R524 SET_STATE.BOOT_SLOT. -/
  bootSlot : Nat := 2
  /-- R524 SET_STATE.WRITING. -/
  writing : Option SetJob := none
  /-- R524 SET_STATE.PENDING. -/
  pendWrite : Bool := false
  /-- R526 PERS_SET_WRITE tags of the pending write. -/
  pendTags : List Word := []
  /-- R514 start of the last set write (MONO_TIME). -/
  lastStart : Option Dword := none
  /-- R512 persistent image. -/
  image : List Obj := []
  /-- R511 LINE of the image. -/
  imageLine : Word := 0xFFFFFFFF
  /-- R511 MODULES of the image. -/
  imageModules : Nat := 0
  /-- R511 EPOCH of LINE. -/
  imageEpoch : Word := 0
  /-- R517 instant of the last powered minute (MONO_TIME). -/
  minuteAt : Dword := 0
  /-- R502 OP_MINUTES at the last refresh. -/
  refreshMin : Word := 0
  /-- R520 instant the budget last grew (MONO_TIME). -/
  almTickAt : Dword := 0
  /-- R517 OP_MINUTES. -/
  opMinutes : Word := 0
  /-- R517 POWER_CYCLES. -/
  powerCycles : Word := 0
  /-- R499, R521 Almanac ring: slots written, ascending. -/
  alm : List (Nat × List Word) := []
  /-- R521 ALM_NEXT. -/
  almNext : Word := 1
  /-- R522 ALM_CURSOR. -/
  almCursor : Word := 0
  /-- R522 ALM_SUPPRESSED. -/
  almSuppressed : Word := 0
  /-- R520 budget. -/
  almBudget : Nat := 256
  /-- R520 queue. -/
  almQueue : List AlmRec := []
  /-- R520 arrivals counted. -/
  almArrive : Nat := 0
  /-- R519 LOST_BEFORE of the next record. -/
  lostBefore : Bool := false
  /-- R520 dropped since the previous 0x0E15. -/
  lostSince : Word := 0
  /-- R520 0x0E15 is owed after the next record. -/
  lostOwe : Bool := false
  /-- R519 BOOT: no record since power-up. -/
  firstRec : Bool := true
  deriving DecidableEq, Repr

/-- A core island (spec/17_power_clocks_and_reset.md). Each field's default is its value right after reset. -/
structure Island where
  /-- R548 ISL_ON. -/
  on : Bool := true
  /-- R548 PAD_HELD. -/
  padHeld : Bool := false
  /-- R548 PWR_SEQ.STAGE. -/
  stage : Nat := 5
  /-- R548 PWR_SEQ.TIMEOUT. -/
  timeout : Bool := false
  /-- R539 bring-ups that timed out in the sequence. -/
  tries : Nat := 0
  /-- R538 instant the stage began (MONO_TIME). -/
  stageAt : Dword := 0
  /-- R531 instant the drain began (MONO_TIME). -/
  drainAt : Dword := 0
  /-- R531 new transactions refused. -/
  draining : Bool := false
  deriving DecidableEq, Repr

/-- Power, clocks and reset (spec/17_power_clocks_and_reset.md). Each field's default is its value right after reset. -/
structure Pwr where
  /-- R39, R548 PWR_STATUS.STATE. -/
  state : PwrState := .run
  /-- R548 ENTERING, R551 target with its slot or TAG. -/
  target : Option (PwrState × Option Nat × Option Word) := none
  /-- R548 SLEEP_ARMED. -/
  sleepArmed : Bool := false
  /-- R548 BROWNOUT_HOLD. -/
  brownout : Bool := false
  /-- R543 instant of the core undervoltage trip (MONO_TIME). -/
  uvAt : Dword := 0
  /-- R535 instant the unit was armed for SLEEP (MONO_TIME). -/
  armedAt : Dword := 0
  /-- R536 instant of the last whole minute in SLEEP, or of the entry (MONO_TIME). -/
  minuteAt : Dword := 0
  /-- R539 instant of the second timeout that left the chip in reset (MONO_TIME). -/
  retryAt : Dword := 0
  /-- R548 CORE_STABLE. -/
  coreStable : Bool := false
  /-- R540 VDD_CORE below the warning level. -/
  warnNow : Bool := false
  /-- R540, R542 instant VDD_CORE rose above the warning level (MONO_TIME). -/
  riseAt : Option Dword := none
  /-- R493, R539 only the system and memory groups are served. -/
  limited : Bool := false
  /-- R538, R546 the start-up sequence of the islands runs. -/
  starting : Bool := false
  /-- R534 source of the move to RUN under way. -/
  wakeBy : Nat := 0
  /-- R541 lowest voltage of the dip, mV. -/
  dipMin : Nat := 0
  /-- R541 time below 0.705 V, us. -/
  dipUs : Nat := 0
  /-- R527. -/
  islands : List Island := List.replicate 4 {}
  /-- R548 PWR_RESET_CAUSE. -/
  cause : BitVec 5 := 0
  /-- R548 WAKE_SRC. -/
  wakeSrc : BitVec 3 := 0
  /-- R548 PWR_VCORE.NOW. -/
  vcore : Nat := 0
  /-- R548 PWR_VCORE.MIN. -/
  vcoreMin : Nat := 0x3FF
  /-- R548 PWR_BROWNOUTS. -/
  brownouts : Word := 0
  /-- R548 PWR_TJ.NOW. -/
  tj : Int := 0
  /-- R548 PWR_TJ.MAX. -/
  tjMax : Int := -128
  /-- R548 PWR_DRAIN_TIMEOUTS. -/
  drainTimeouts : Word := 0
  /-- R553 WAKE_VIGIL. -/
  wakeVigil : Bool := true
  /-- R553 WAKE_PATTERN. -/
  wakePattern : Bool := true
  /-- R553 WAKE_ETH. -/
  wakeEth : Bool := false
  /-- R553 WAKE_ETYPE. -/
  wakeEtype : BitVec 16 := 0x88B5
  /-- R553 WAKE_KEY. -/
  wakeKey : Word := 0
  /-- R536 minutes counted in SLEEP. -/
  sleepMinutes : Nat := 0
  /-- R536 WAKE_N driven low. -/
  wakeN : Bool := false
  /-- R544 chip reset held. -/
  inReset : Bool := false
  /-- R544 power-on reset asserted. -/
  porHeld : Bool := false
  /-- R544 RESET_N low. -/
  resetPin : Bool := false
  /-- R543 core undervoltage: reset held until the level clears. -/
  uvHeld : Bool := false
  /-- R543 SUPPLY trip latched, core reset due. -/
  uvPending : Bool := false
  /-- R544 TRST_N low. -/
  trstLow : Bool := false
  /-- R573 test-port instruction register. -/
  jtagIr : BitVec 6 := 0x01
  /-- R557 GPIO[0:7] levels driven. -/
  gpio : Byte := 0
  deriving DecidableEq, Repr

/-- The whole block. `pending` is the queue of commands that wait, first in, first out; `free` (the number of free
values taken so far) and `out` (what the block has put on its links, pins and host memory, newest first) are the
model's own fields. -/
structure State where
  /-- PCI Express function, mailbox, event queue, interrupts, sticky status. -/
  host : HostIf := {}
  /-- Commit groups and the objects in force. -/
  cg : Commit := {}
  /-- Descriptor rings, page store, check-value contexts. -/
  pg : Pages := {}
  /-- Tone path and screening. -/
  scr : Screen := {}
  /-- Fire timing, energy, head heat. -/
  fire : Fire := {}
  /-- Vozor Head Link. -/
  hl : Hlink := {}
  /-- Inspection pipeline. -/
  insp : Insp := {}
  /-- Calibration. -/
  cal : Cal := {}
  /-- Web position, comparators, network time. -/
  pos : Pos := {}
  /-- Lift and cap axes. -/
  axes : Axes := {}
  /-- Illumination. -/
  lamp : Lamp := {}
  /-- Twin unit. -/
  twin : Twin := {}
  /-- Safety supervisor. -/
  onyx : Onyx := {}
  /-- DRAM controller. -/
  dram : Dram := {}
  /-- Persistent storage and event recorder. -/
  pers : Pers := {}
  /-- Power, clocks and reset. -/
  pwr : Pwr := {}
  /-- Commands that wait, front first. -/
  pending : List Instr := []
  /-- Free values taken so far (the model's own). -/
  free : Nat := 0
  /-- What the block has put out, newest first (the model's own). -/
  out : List Output := []
  deriving DecidableEq, Repr

/-- The machine right after reset: every field at the value the spec gives, or the value a log entry names. -/
def State.reset : State := {}

/-- Why the machine stops: nothing in the spec stops the block, so there is no such reason. -/
inductive Fault where
  deriving DecidableEq, Repr

/-- Why a command has no meaning. -/
inductive Refusal where
  /-- A row of the command table that has no meaning yet; raised by exec's arm of that row alone (safe: no state is
  answered). -/
  | notModelled (mnemonic : String)
  deriving DecidableEq, Repr

end Sys2Proof.Machine
end

