-- ==== Sys2Proof/Machine/Operands.lean ====
section
/-!
DEFINITION. Operand forms: bit fields, signed fields, little-endian bytes (R12), list cells, the general CRC (R131)
and the named CRCs of the chapters, rounding, saturating counters.
-/
namespace Sys2Proof.Machine

/-- Bits [lo + n - 1 : lo] of a number. -/
def bits (x lo n : Nat) : Nat := (x >>> lo) % 2 ^ n

/-- Bit i of a number. -/
def bit (x i : Nat) : Bool := x.testBit i

/-- Field [lo + n - 1 : lo] of a word. -/
def fld (w : Word) (lo n : Nat) : Nat := bits w.toNat lo n

/-- One-bit field of a word. -/
def flag (w : Word) (i : Nat) : Bool := w.toNat.testBit i

/-- A one-bit field's value. -/
def b2n (b : Bool) : Nat := if b then 1 else 0

/-- A number as a word, modulo 2^32. -/
def w32 (n : Nat) : Word := BitVec.ofNat 32 n

/-- A signed number as a word, modulo 2^32. -/
def wInt (i : Int) : Word := BitVec.ofInt 32 i

/-- Reads an n-bit field as two's complement. -/
def sx (n x : Nat) : Int := if x % 2 ^ n < 2 ^ (n - 1) then (x % 2 ^ n : Nat) else (x % 2 ^ n : Nat) - (2 ^ n : Int)

/-- Word i of a payload; a word that is not there reads 0. -/
def wd (ws : List Word) (i : Nat) : Word := ws.getD i 0

/-- Word i of a payload as a number. -/
def wn (ws : List Word) (i : Nat) : Nat := (wd ws i).toNat

/-- Two consecutive words as one number, lower half first (R13). -/
def wn64 (ws : List Word) (i : Nat) : Nat := wn ws i + 2 ^ 32 * wn ws (i + 1)

/-- The two words of a 64-bit value, lower half first (R13). -/
def words64 (n : Nat) : List Word := [w32 n, w32 (n >>> 32)]

/-- Byte i of a byte list; a byte that is not there reads 0. -/
def by8 (bs : List Byte) (i : Nat) : Nat := (bs.getD i 0).toNat

/-- n bytes from offset i as a little-endian number (R12). -/
def leN (bs : List Byte) (i : Nat) : Nat → Nat
  | 0 => 0
  | n + 1 => by8 bs i + 256 * leN bs (i + 1) n

/-- A little-endian 16-bit field. -/
def le16 (bs : List Byte) (i : Nat) : Nat := leN bs i 2

/-- A little-endian 32-bit field. -/
def le32 (bs : List Byte) (i : Nat) : Nat := leN bs i 4

/-- n little-endian bytes of a number (R12). -/
def bytesLE : Nat → Nat → List Byte
  | 0, _ => []
  | n + 1, x => BitVec.ofNat 8 x :: bytesLE n (x / 256)

/-- The bytes of a list of words (R12). -/
def wordBytes (ws : List Word) : List Byte := ws.flatMap fun w => bytesLE 4 w.toNat

/-- n words read from bytes, little-endian. -/
def bytesToWords (bs : List Byte) (i : Nat) : Nat → List Word
  | 0 => []
  | n + 1 => w32 (le32 bs i) :: bytesToWords bs (i + 4) n

/-- Cell i of a list, with a default where there is none. -/
def cell {α : Type} (l : List α) (i : Nat) (d : α) : α := l.getD i d

/-- Changes cell i of a list by f; a list too short stays. -/
def upd {α : Type} (l : List α) (i : Nat) (f : α → α) : List α := l.modify i f

/-- Looks a key up. -/
def find? {κ β : Type} [DecidableEq κ] (l : List (κ × β)) (k : κ) : Option β := l.lookup k

/-- Replaces the value at a key, or adds the pair. -/
def put {κ β : Type} [DecidableEq κ] (l : List (κ × β)) (k : κ) (v : β) : List (κ × β) :=
  (k, v) :: l.filter fun p => p.1 ≠ k

/-- A 32-bit counter that counts on and stays at its top (the saturating counters of the views). -/
def satAdd (w : Word) (n : Nat) : Word := w32 (min (w.toNat + n) 0xFFFFFFFF)

/-- Counts of a list that satisfy a test. -/
def countIf {α : Type} (l : List α) (p : α → Bool) : Nat := (l.filter p).length

/-- n / d rounded to the nearest integer, an exact half up. -/
def roundHalfUp (n : Int) (d : Nat) : Int := (2 * n + d) / (2 * d : Int)

/-- Floor of a rational. -/
def ratFloor (q : Rat) : Int := q.floor

/-- A rational rounded to the nearest integer, an exact half up. -/
def ratRound (q : Rat) : Int := (q + 1 / 2).floor

/-- Clamps to a range. -/
def clampI (lo hi x : Int) : Int := max lo (min hi x)

/-- Bits of a number reversed within a width (REFIN and REFOUT of R131). -/
def reflect : Nat → Nat → Nat
  | 0, _ => 0
  | n + 1, x => (if x.testBit 0 then 2 ^ n else 0) + reflect n (x / 2)

/-- One bit step of a CRC of the given width, most significant bit first (R131). -/
def crcBit (width poly reg : Nat) (b : Bool) : Nat :=
  let top := reg.testBit (width - 1)
  let r := (reg * 2) % 2 ^ width
  if top != b then Nat.xor r poly else r

/-- The bits of a byte, most significant first. -/
def byteBits (x : Nat) : List Bool := (List.range 8).map fun i => x.testBit (7 - i)

/-- Feeds one byte into a CRC register (R131): bits reversed first where REFIN is 1. -/
def crcByte (width poly : Nat) (refin : Bool) (reg : Nat) (b : Byte) : Nat :=
  (byteBits (if refin then reflect 8 b.toNat else b.toNat)).foldl (crcBit width poly) reg

/-- The CRC of a message under the parameters of R131. -/
def crc (width poly init : Nat) (refin refout : Bool) (xorout : Nat) (bs : List Byte) : Nat :=
  let r := bs.foldl (crcByte width poly refin) init
  Nat.xor (if refout then reflect width r else r) xorout

/-- CRC-32, ISO-HDLC (R131). -/
def crc32 (bs : List Byte) : Nat := crc 32 0x04C11DB7 0xFFFFFFFF true true 0xFFFFFFFF bs

/-- CRC-32C (R131). -/
def crc32c (bs : List Byte) : Nat := crc 32 0x1EDC6F41 0xFFFFFFFF true true 0xFFFFFFFF bs

/-- CRC-16, CCITT-FALSE (R131). -/
def crc16 (bs : List Byte) : Nat := crc 16 0x1021 0xFFFF false false 0 bs

end Sys2Proof.Machine
end

