-- ==== Sys2Proof/Machine/Flags.lean ====
section
/-!
DEFINITION. Flags: sticky status (R63 to R65), the events and their severities (R54 to R57, R579), interrupt messages
(R58 to R62) and the recording queue of Almanac (R518 to R520). All of it acts on the host interface, the persistent
storage and the output log, and on nothing else of the state.
-/
namespace Sys2Proof.Machine

/-- A sticky bit: subsystem n and bit b of STK register n (R63). -/
structure Sticky where
  /-- Subsystem. -/
  n : Nat
  /-- Bit. -/
  b : Nat
  deriving DecidableEq, Repr

/-- DOORBELL_MISUSE: A slot not in HOST was rung -/
def Sticky.doorbellMisuse : Sticky := ⟨1, 0⟩
/-- ACK_MISUSE: A slot not in DONE was acknowledged -/
def Sticky.ackMisuse : Sticky := ⟨1, 1⟩
/-- SLOT_WRITE_WHILE_OWNED: A write to a command slot in DEVICE was discarded -/
def Sticky.slotWriteWhileOwned : Sticky := ⟨1, 2⟩
/-- BAR_PARTIAL_WRITE: A BAR0 write was discarded under R34 -/
def Sticky.barPartialWrite : Sticky := ⟨1, 3⟩
/-- EVQ_OVERFLOW: An event was dropped under R57 -/
def Sticky.evqOverflow : Sticky := ⟨1, 4⟩
/-- HOST_WDOG: The host watchdog expired -/
def Sticky.hostWdog : Sticky := ⟨1, 5⟩
/-- FLR_SEEN: A function-level reset occurred -/
def Sticky.flrSeen : Sticky := ⟨1, 6⟩
/-- FW_RESTART: Beryl restarted without a chip reset -/
def Sticky.fwRestart : Sticky := ⟨1, 7⟩
/-- PCIE_LINK_DOWN: The link left L0 other than for power management -/
def Sticky.pcieLinkDown : Sticky := ⟨1, 8⟩
/-- PCIE_LINK_DEGRADED: The link trained below Gen4 x4 -/
def Sticky.pcieLinkDegraded : Sticky := ⟨1, 9⟩
/-- PCIE_UNCORR: AER logged an uncorrectable error -/
def Sticky.pcieUncorr : Sticky := ⟨1, 10⟩
/-- PCIE_CORR: AER logged a correctable error -/
def Sticky.pcieCorr : Sticky := ⟨1, 11⟩
/-- EVQ_TAIL_INVALID: An EVQ_TAIL write was rejected -/
def Sticky.evqTailInvalid : Sticky := ⟨1, 12⟩
/-- OP_STATE_FORCED: The unit left PRINT or SERVICE without a host command, other than into SAFE -/
def Sticky.opStateForced : Sticky := ⟨1, 13⟩
/-- ABORT_LATE: A group aborted with LATE or EPOCH_ENDED -/
def Sticky.abortLate : Sticky := ⟨2, 0⟩
/-- ABORT_TWIN: A group aborted with TWIN_MISMATCH, TWIN_NO_PEER or TWIN_NO_LOCK -/
def Sticky.abortTwin : Sticky := ⟨2, 1⟩
/-- ABORT_FAULT: A group aborted with SAFE, FW_RESTART, REVALIDATION, STAGE_FAULT or STATE -/
def Sticky.abortFault : Sticky := ⟨2, 2⟩
/-- OFFSET_OMIT: Drops were omitted under R81 -/
def Sticky.offsetOmit : Sticky := ⟨2, 3⟩
/-- CAMERA_CONTEXT_LATE: R82 frames were not inspected -/
def Sticky.cameraContextLate : Sticky := ⟨2, 4⟩
/-- REBUILD_BLANK: Lines printed blank under R89 -/
def Sticky.rebuildBlank : Sticky := ⟨2, 5⟩
/-- PAGE_UNDERRUN: A page did not start on time (R123) -/
def Sticky.pageUnderrun : Sticky := ⟨3, 0⟩
/-- BLOCK_REFETCH: A block failed and was fetched again -/
def Sticky.blockRefetch : Sticky := ⟨3, 1⟩
/-- BLOCK_BAD_INGEST: A block was stored BAD (R121) -/
def Sticky.blockBadIngest : Sticky := ⟨3, 2⟩
/-- BLOCK_BLANKED: A region printed blank at print time (R124) -/
def Sticky.blockBlanked : Sticky := ⟨3, 3⟩
/-- DESC_ERROR: A ring halted (R114) -/
def Sticky.descError : Sticky := ⟨3, 4⟩
/-- DMA_ERROR: A fetch ended in a completion error or timeout; handled as a check failure -/
def Sticky.dmaError : Sticky := ⟨3, 5⟩
/-- STORE_FULL: Fetching waited for page store space -/
def Sticky.storeFull : Sticky := ⟨3, 6⟩
/-- EPOCH_DISCARD: Pages were discarded under R129 -/
def Sticky.epochDiscard : Sticky := ⟨3, 7⟩
/-- CV_CONFLICT: R133 -/
def Sticky.cvConflict : Sticky := ⟨3, 8⟩
/-- ROW_OMIT: A drop was omitted under R161 -/
def Sticky.rowOmit : Sticky := ⟨4, 0⟩
/-- SCREEN_LATE: R138 -/
def Sticky.screenLate : Sticky := ⟨4, 1⟩
/-- NO_TILE: R156 -/
def Sticky.noTile : Sticky := ⟨4, 2⟩
/-- CURVE_NOT_LOADED: R149 -/
def Sticky.curveNotLoaded : Sticky := ⟨4, 3⟩
/-- COLUMN_DEAD: R163 -/
def Sticky.columnDead : Sticky := ⟨4, 4⟩
/-- DEAD_ROW_OMIT: A drop was omitted under R162 -/
def Sticky.deadRowOmit : Sticky := ⟨4, 5⟩
/-- OVERSPEED_WARN: R199 -/
def Sticky.overspeedWarn : Sticky := ⟨5, 0⟩
/-- OVERSPEED_OMIT: R200 -/
def Sticky.overspeedOmit : Sticky := ⟨5, 1⟩
/-- OVERSPEED_STOP: R201 -/
def Sticky.overspeedStop : Sticky := ⟨5, 2⟩
/-- HEAT_WARN: R197 -/
def Sticky.heatWarn : Sticky := ⟨5, 3⟩
/-- HEAT_TRIP: R198 -/
def Sticky.heatTrip : Sticky := ⟨5, 4⟩
/-- TEMP_STALE: R196 -/
def Sticky.tempStale : Sticky := ⟨5, 5⟩
/-- SLOT_OMIT: R179 -/
def Sticky.slotOmit : Sticky := ⟨5, 6⟩
/-- SLOT_ABANDONED: R181 -/
def Sticky.slotAbandoned : Sticky := ⟨5, 7⟩
/-- ENERGY_NOT_LOADED: R188 -/
def Sticky.energyNotLoaded : Sticky := ⟨5, 8⟩
/-- NO_ENERGY_TABLE: R187 -/
def Sticky.noEnergyTable : Sticky := ⟨5, 9⟩
/-- PROBE_SKIPPED: R193 -/
def Sticky.probeSkipped : Sticky := ⟨5, 10⟩
/-- MEAS_INCOMPLETE: R202 -/
def Sticky.measIncomplete : Sticky := ⟨5, 11⟩
/-- SLOT_POSTPONED: R191 -/
def Sticky.slotPostponed : Sticky := ⟨5, 12⟩
/-- LANE_DOWN: A lane left ACTIVE (R219) -/
def Sticky.laneDown : Sticky := ⟨6, 0⟩
/-- PART_FAILED: A head reported a failed part -/
def Sticky.partFailed : Sticky := ⟨6, 1⟩
/-- LINE_BLANKED: R237 -/
def Sticky.lineBlanked : Sticky := ⟨6, 2⟩
/-- RESEND_OVERFLOW: R236 -/
def Sticky.resendOverflow : Sticky := ⟨6, 3⟩
/-- STATUS_BAD: R234 -/
def Sticky.statusBad : Sticky := ⟨6, 4⟩
/-- CAP_REJECT: R222 -/
def Sticky.capReject : Sticky := ⟨6, 5⟩
/-- MARKER_ERR: A head reported MARKER_ERR or TRAIN_DROPPED (R233) -/
def Sticky.markerErr : Sticky := ⟨6, 6⟩
/-- CLAIM_NOT_ACCEPTED: R240 -/
def Sticky.claimNotAccepted : Sticky := ⟨6, 7⟩
/-- TBL_RETRY: R242 -/
def Sticky.tblRetry : Sticky := ⟨6, 8⟩
/-- HEAD_FAULT: Onset of HEAD_OVERTEMP or HEATER_FAULT, or SUPPLY_OK going to 0 -/
def Sticky.headFault : Sticky := ⟨6, 9⟩
/-- LATE_MAIN: R232 -/
def Sticky.lateMain : Sticky := ⟨6, 10⟩
/-- FRAME_DROP: R277 -/
def Sticky.frameDrop : Sticky := ⟨7, 0⟩
/-- LINE_BAD: R254 -/
def Sticky.lineBad : Sticky := ⟨7, 1⟩
/-- LINE_MISSING: R254 -/
def Sticky.lineMissing : Sticky := ⟨7, 2⟩
/-- CAMERA_LOST: R254 -/
def Sticky.cameraLost : Sticky := ⟨7, 3⟩
/-- EXPOSURE_LATE: R274 -/
def Sticky.exposureLate : Sticky := ⟨7, 4⟩
/-- ALIGN_HOLD: R270 -/
def Sticky.alignHold : Sticky := ⟨7, 5⟩
/-- STATS_LOST: R281 -/
def Sticky.statsLost : Sticky := ⟨7, 6⟩
/-- QUALITY_LOST: R283 -/
def Sticky.qualityLost : Sticky := ⟨7, 7⟩
/-- I2C_ERROR: R274 or INSP_I2C_XFER -/
def Sticky.i2cError : Sticky := ⟨7, 8⟩
/-- RESULT_REJECTED: R303 -/
def Sticky.resultRejected : Sticky := ⟨8, 0⟩
/-- COMMIT_ABORTED: R310 -/
def Sticky.commitAborted : Sticky := ⟨8, 1⟩
/-- MAP_HELD_SPEED: R311 -/
def Sticky.mapHeldSpeed : Sticky := ⟨8, 2⟩
/-- COLUMN_AT_RISK: R305 -/
def Sticky.columnAtRisk : Sticky := ⟨8, 3⟩
/-- MODULE_OUTLIER: R301 -/
def Sticky.moduleOutlier : Sticky := ⟨8, 4⟩
/-- PENDING_FULL: A classification was dropped because 4,096 were pending -/
def Sticky.pendingFull : Sticky := ⟨8, 5⟩
/-- ENC0_SIGNAL: R321 -/
def Sticky.enc0Signal : Sticky := ⟨9, 0⟩
/-- ENC1_SIGNAL: R321 -/
def Sticky.enc1Signal : Sticky := ⟨9, 1⟩
/-- OVERFREQ: R319 -/
def Sticky.overfreq : Sticky := ⟨9, 2⟩
/-- QUAD_ERR: R319 -/
def Sticky.quadErr : Sticky := ⟨9, 3⟩
/-- REVERSE: R323 -/
def Sticky.reverse : Sticky := ⟨9, 4⟩
/-- INDEX_MISMATCH: R326 -/
def Sticky.indexMismatch : Sticky := ⟨9, 5⟩
/-- INDEX_MISSING: R326 -/
def Sticky.indexMissing : Sticky := ⟨9, 6⟩
/-- ENC_DISAGREE: R328 -/
def Sticky.encDisagree : Sticky := ⟨9, 7⟩
/-- ENCO_OVERRUN: R330 -/
def Sticky.encoOverrun : Sticky := ⟨9, 8⟩
/-- COMPARE_LATE: R334 -/
def Sticky.compareLate : Sticky := ⟨9, 9⟩
/-- CAPTURE_LOST: R339 -/
def Sticky.captureLost : Sticky := ⟨9, 10⟩
/-- TIMER_LATE: R350 -/
def Sticky.timerLate : Sticky := ⟨9, 11⟩
/-- TIME_STEP: R344 -/
def Sticky.timeStep : Sticky := ⟨9, 12⟩
/-- PTP_MASTER_LOST: R343 -/
def Sticky.ptpMasterLost : Sticky := ⟨9, 13⟩
/-- HOLDOVER_EXPIRED: R343 -/
def Sticky.holdoverExpired : Sticky := ⟨9, 14⟩
/-- ABS0_FAULT: R352 -/
def Sticky.abs0Fault : Sticky := ⟨9, 15⟩
/-- ABS1_FAULT: R352 -/
def Sticky.abs1Fault : Sticky := ⟨9, 16⟩
/-- ABS_ERROR: R352 -/
def Sticky.absError : Sticky := ⟨9, 17⟩
/-- STALL: R374 -/
def Sticky.stall : Sticky := ⟨10, 0⟩
/-- POS_INVALID: R375 -/
def Sticky.posInvalid : Sticky := ⟨10, 1⟩
/-- LIMIT_TRIP: R376 -/
def Sticky.limitTrip : Sticky := ⟨10, 2⟩
/-- HOME_FAR_LIMIT: R379 -/
def Sticky.homeFarLimit : Sticky := ⟨10, 3⟩
/-- REPLAN_REVERSE: R371 -/
def Sticky.replanReverse : Sticky := ⟨10, 4⟩
/-- INTERLOCK_STOP: R381 -/
def Sticky.interlockStop : Sticky := ⟨10, 5⟩
/-- SEQ_ABORTED: R383 -/
def Sticky.seqAborted : Sticky := ⟨10, 6⟩
/-- BOOST_MAX: R370 -/
def Sticky.boostMax : Sticky := ⟨10, 7⟩
/-- LAMP_OPEN: R403 -/
def Sticky.lampOpen : Sticky := ⟨11, 0⟩
/-- LAMP_SHORT: R403 -/
def Sticky.lampShort : Sticky := ⟨11, 1⟩
/-- LAMP_HOT: R401 -/
def Sticky.lampHot : Sticky := ⟨11, 2⟩
/-- DERATING: R401 -/
def Sticky.derating : Sticky := ⟨11, 3⟩
/-- CHAIN_BROKEN: R403 -/
def Sticky.chainBroken : Sticky := ⟨11, 4⟩
/-- STROBE_SKIP: R399 -/
def Sticky.strobeSkip : Sticky := ⟨11, 5⟩
/-- DUTY_LIMIT: R399 -/
def Sticky.dutyLimit : Sticky := ⟨11, 6⟩
/-- DIAG_SKIPPED: R402 -/
def Sticky.diagSkipped : Sticky := ⟨11, 7⟩
/-- LAMP_NOT_LOADED: R400 -/
def Sticky.lampNotLoaded : Sticky := ⟨11, 8⟩
/-- TWIN_UNSYNC: R426 -/
def Sticky.twinUnsync : Sticky := ⟨12, 0⟩
/-- PEER_LOST: R421 -/
def Sticky.peerLost : Sticky := ⟨12, 1⟩
/-- VIGIL_CRC: R421 -/
def Sticky.vigilCrc : Sticky := ⟨12, 2⟩
/-- DIGEST_MISMATCH: R424 -/
def Sticky.digestMismatch : Sticky := ⟨12, 3⟩
/-- POS_SKEW: R425 -/
def Sticky.posSkew : Sticky := ⟨12, 4⟩
/-- TAKEOVER: R428 -/
def Sticky.takeover : Sticky := ⟨12, 5⟩
/-- DISPLACED: R417 -/
def Sticky.displaced : Sticky := ⟨12, 6⟩
/-- SWITCHOVER_FAILED: R431, R445 -/
def Sticky.switchoverFailed : Sticky := ⟨12, 7⟩
/-- JOIN_FAILED: R439 -/
def Sticky.joinFailed : Sticky := ⟨12, 8⟩
/-- PRSNT_REMOVED: R436 -/
def Sticky.prsntRemoved : Sticky := ⟨12, 9⟩
/-- CLAIM_EXHAUSTED: R415 -/
def Sticky.claimExhausted : Sticky := ⟨12, 10⟩
/-- TRIP: A trip was latched (R461) -/
def Sticky.trip : Sticky := ⟨13, 0⟩
/-- WEB_WITHDRAWN: Permission 1 withdrawn by either side -/
def Sticky.webWithdrawn : Sticky := ⟨13, 1⟩
/-- CAP_WITHDRAWN: Permission 2 withdrawn -/
def Sticky.capWithdrawn : Sticky := ⟨13, 2⟩
/-- SUPPLY_WITHDRAWN: Permission 3 withdrawn -/
def Sticky.supplyWithdrawn : Sticky := ⟨13, 3⟩
/-- LAMP_OFF: LAMP_PWR_EN fell (R458) -/
def Sticky.lampOff : Sticky := ⟨13, 4⟩
/-- AXIS_DISABLED: An AXa_EN fell (R459) -/
def Sticky.axisDisabled : Sticky := ⟨13, 5⟩
/-- WDOG_RESTART: Onyx restarted Beryl (R462) -/
def Sticky.wdogRestart : Sticky := ⟨13, 6⟩
/-- BERYL_HELD: R462 -/
def Sticky.berylHeld : Sticky := ⟨13, 7⟩
/-- GATE_HELD: R456 -/
def Sticky.gateHeld : Sticky := ⟨13, 8⟩
/-- ECC_CORR: R480 -/
def Sticky.eccCorr : Sticky := ⟨14, 0⟩
/-- ECC_UNCORR: R480 -/
def Sticky.eccUncorr : Sticky := ⟨14, 1⟩
/-- REFRESH_FAST: R490 -/
def Sticky.refreshFast : Sticky := ⟨14, 2⟩
/-- RT_UNDERRUN: R488 -/
def Sticky.rtUnderrun : Sticky := ⟨14, 3⟩
/-- TRAIN_FAIL: A training pass failed -/
def Sticky.trainFail : Sticky := ⟨14, 4⟩
/-- RATE_CHANGE_FAIL: R494 -/
def Sticky.rateChangeFail : Sticky := ⟨14, 5⟩
/-- DRAM_FAIL: R493, R494 -/
def Sticky.dramFail : Sticky := ⟨14, 6⟩
/-- STARVED: R484 -/
def Sticky.starved : Sticky := ⟨14, 7⟩
/-- PRF_WEAR_WARN: R508 -/
def Sticky.prfWearWarn : Sticky := ⟨14, 8⟩
/-- PRF_WEAR_LIMIT: R508 -/
def Sticky.prfWearLimit : Sticky := ⟨14, 9⟩
/-- PRF_PROTECTED: R504 -/
def Sticky.prfProtected : Sticky := ⟨14, 10⟩
/-- SET_WRITE_FAIL: R513 -/
def Sticky.setWriteFail : Sticky := ⟨14, 11⟩
/-- SET_FALLBACK: R515 -/
def Sticky.setFallback : Sticky := ⟨14, 12⟩
/-- SET_NONE: R515 -/
def Sticky.setNone : Sticky := ⟨14, 13⟩
/-- ALM_SUPPRESSED: R520 -/
def Sticky.almSuppressed : Sticky := ⟨14, 14⟩
/-- MRAM_CORR: R500 -/
def Sticky.mramCorr : Sticky := ⟨14, 15⟩
/-- MRAM_UNCORR: R500 -/
def Sticky.mramUncorr : Sticky := ⟨14, 16⟩
/-- BROWNOUT_WARN: R541 -/
def Sticky.brownoutWarn : Sticky := ⟨15, 0⟩
/-- SEQ_TIMEOUT: R539 -/
def Sticky.seqTimeout : Sticky := ⟨15, 1⟩
/-- DRAIN_TIMEOUT: R531 -/
def Sticky.drainTimeout : Sticky := ⟨15, 2⟩
/-- SLEEP_ABORTED: R535 -/
def Sticky.sleepAborted : Sticky := ⟨15, 3⟩

/-- The events that are not completions (R67, R579), named as the chapters name them. -/
inductive Ev where
  | bootComplete | stateChange | flrDone | hostWdogExpired | eventsLost | cgCommitted
  | cgAborted | underrun | blockFailed | ringHalted | descError | rowOmit
  | screenLate | noTile | columnDead | overspeedClear | fireResumed | overspeedWarn
  | heatWarn | overspeedStop | heatTrip | laneUp | claimNotAccepted | laneDown
  | lineBlanked | capReject | headFault | cameraUp | frameDrop | exposureLate
  | alignHold | i2cError | cameraLost | resultReady | resultRejected | mapHeldSpeed
  | columnAtRisk | moduleOutlier | encRecovered | direction | compareFired | timeState
  | timerFired | indexMismatch | compareLate | timeStep | encFault | encDisagree
  | absFault | homeFarLimit | replanReverse | capConfirmed | limitTrip | interlockStop
  | stall | posInvalid | seqAborted | diagSkipped | lampOpen | lampHot
  | chainBroken | roleChanged | peerFound | synced | peerLost | unsync
  | takeover | digestMismatch | claimExhausted | trip | permission | safeExited
  | axisEnable | berylRestart | eccCorrected | refreshRate | setWritten | starved
  | prfWearWarn | almanacSuppressed | eccUncorrectable | rtUnderrun | prfWearLimit | setWriteFailed
  | setFallback | mramUncorrectable | powerState | sleepAborted | drainTimeout | brownout
  | seqTimeout
  deriving DecidableEq, Repr

/-- Event code (R579). -/
def Ev.code : Ev → Nat
  | .bootComplete => 0x0101 | .stateChange => 0x0102 | .flrDone => 0x0104
  | .hostWdogExpired => 0x0103 | .eventsLost => 0x0105 | .cgCommitted => 0x0210
  | .cgAborted => 0x0211 | .underrun => 0x0320 | .blockFailed => 0x0321
  | .ringHalted => 0x0322 | .descError => 0x0323 | .rowOmit => 0x0401
  | .screenLate => 0x0402 | .noTile => 0x0403 | .columnDead => 0x0404
  | .overspeedClear => 0x0503 | .fireResumed => 0x0506 | .overspeedWarn => 0x0501
  | .heatWarn => 0x0504 | .overspeedStop => 0x0502 | .heatTrip => 0x0505
  | .laneUp => 0x0601 | .claimNotAccepted => 0x0605 | .laneDown => 0x0602
  | .lineBlanked => 0x0603 | .capReject => 0x0604 | .headFault => 0x0606
  | .cameraUp => 0x0703 | .frameDrop => 0x0701 | .exposureLate => 0x0704
  | .alignHold => 0x0705 | .i2cError => 0x0706 | .cameraLost => 0x0702
  | .resultReady => 0x0801 | .resultRejected => 0x0802 | .mapHeldSpeed => 0x0803
  | .columnAtRisk => 0x0804 | .moduleOutlier => 0x0805 | .encRecovered => 0x0902
  | .direction => 0x0903 | .compareFired => 0x0907 | .timeState => 0x0908
  | .timerFired => 0x090B | .indexMismatch => 0x0904 | .compareLate => 0x0906
  | .timeStep => 0x0909 | .encFault => 0x0901 | .encDisagree => 0x0905
  | .absFault => 0x090A | .homeFarLimit => 0x0A03 | .replanReverse => 0x0A04
  | .capConfirmed => 0x0A08 | .limitTrip => 0x0A02 | .interlockStop => 0x0A06
  | .stall => 0x0A01 | .posInvalid => 0x0A05 | .seqAborted => 0x0A07
  | .diagSkipped => 0x0B04 | .lampOpen => 0x0B01 | .lampHot => 0x0B02
  | .chainBroken => 0x0B03 | .roleChanged => 0x0C01 | .peerFound => 0x0C03
  | .synced => 0x0C06 | .peerLost => 0x0C02 | .unsync => 0x0C05
  | .takeover => 0x0C04 | .digestMismatch => 0x0C07 | .claimExhausted => 0x0C08
  | .trip => 0x0D01 | .permission => 0x0D02 | .safeExited => 0x0D03
  | .axisEnable => 0x0D05 | .berylRestart => 0x0D04 | .eccCorrected => 0x0E01
  | .refreshRate => 0x0E03 | .setWritten => 0x0E12 | .starved => 0x0E05
  | .prfWearWarn => 0x0E10 | .almanacSuppressed => 0x0E15 | .eccUncorrectable => 0x0E02
  | .rtUnderrun => 0x0E04 | .prfWearLimit => 0x0E11 | .setWriteFailed => 0x0E13
  | .setFallback => 0x0E14 | .mramUncorrectable => 0x0E16 | .powerState => 0x0F01
  | .sleepAborted => 0x0F03 | .drainTimeout => 0x0F05 | .brownout => 0x0F02
  | .seqTimeout => 0x0F04

/-- Severity (R579): 1 NOTICE, 2 WARNING, 3 ERROR, 4 SAFETY; `granted` is PARAM1 = 1, which decides for PERMISSION. -/
def Ev.severity (granted : Bool) : Ev → Nat
  | .permission => if granted then 1 else 2
  | .bootComplete => 1 | .stateChange => 1 | .flrDone => 1
  | .hostWdogExpired => 2 | .eventsLost => 2 | .cgCommitted => 1
  | .cgAborted => 2 | .underrun => 3 | .blockFailed => 3
  | .ringHalted => 3 | .descError => 3 | .rowOmit => 3
  | .screenLate => 3 | .noTile => 3 | .columnDead => 2
  | .overspeedClear => 1 | .fireResumed => 1 | .overspeedWarn => 2
  | .heatWarn => 2 | .overspeedStop => 3 | .heatTrip => 3
  | .laneUp => 1 | .claimNotAccepted => 2 | .laneDown => 3
  | .lineBlanked => 3 | .capReject => 3 | .headFault => 3
  | .cameraUp => 1 | .frameDrop => 2 | .exposureLate => 2
  | .alignHold => 2 | .i2cError => 2 | .cameraLost => 3
  | .resultReady => 1 | .resultRejected => 2 | .mapHeldSpeed => 2
  | .columnAtRisk => 2 | .moduleOutlier => 2 | .encRecovered => 1
  | .direction => 1 | .compareFired => 1 | .timeState => 1
  | .timerFired => 1 | .indexMismatch => 2 | .compareLate => 2
  | .timeStep => 2 | .encFault => 3 | .encDisagree => 3
  | .absFault => 3 | .homeFarLimit => 1 | .replanReverse => 1
  | .capConfirmed => 1 | .limitTrip => 2 | .interlockStop => 2
  | .stall => 3 | .posInvalid => 3 | .seqAborted => 3
  | .diagSkipped => 1 | .lampOpen => 2 | .lampHot => 2
  | .chainBroken => 3 | .roleChanged => 1 | .peerFound => 1
  | .synced => 1 | .peerLost => 2 | .unsync => 2
  | .takeover => 3 | .digestMismatch => 3 | .claimExhausted => 3
  | .trip => 4 | .safeExited => 1
  | .axisEnable => 2 | .berylRestart => 3 | .eccCorrected => 1
  | .refreshRate => 1 | .setWritten => 1 | .starved => 2
  | .prfWearWarn => 2 | .almanacSuppressed => 2 | .eccUncorrectable => 3
  | .rtUnderrun => 3 | .prfWearLimit => 3 | .setWriteFailed => 3
  | .setFallback => 3 | .mramUncorrectable => 3 | .powerState => 1
  | .sleepAborted => 2 | .drainTimeout => 2 | .brownout => 3
  | .seqTimeout => 3

/-- What messages, events and records act on. -/
structure Log where
  /-- Host interface. -/
  host : HostIf
  /-- Persistent storage. -/
  pers : Pers
  /-- Output log. -/
  out : List Output
  /-- MONO_TIME at this instant, read only. -/
  now : Dword

/-- The part of the state that messages, events and records act on. -/
def State.log (s : State) : Log := { host := s.host, pers := s.pers, out := s.out, now := s.pos.mono }

/-- The state with that part replaced. -/
def State.withLog (l : Log) (s : State) : State := { s with host := l.host, pers := l.pers, out := l.out }

/-- Line index of a 32-bit line, 48-bit fraction accumulator (R25). -/
def lineOf (acc : BitVec 80) : Word := w32 (acc.toNat >>> 48)

/-- The 32.18 position: the accumulator with its fraction truncated (R25). -/
def State.pos50 (s : State) : Nat := s.pos.acc.toNat >>> 30

/-- The present line index at the datum. -/
def State.line (s : State) : Word := lineOf s.pos.acc

/-! ## Interrupt messages -/

/-- Whether vector v's message can be sent: MSI-X enabled, neither the function nor the vector masked (R59). -/
def HostIf.vecOpen (h : HostIf) (v : Nat) : Bool :=
  h.msixEnable && !h.msixFuncMask && !flag (wd h.msixTable (4 * v + 3)) 0

/-- Sends vector v, or holds it pending in the PBA while masked (R58, R59, R62). -/
def Log.send (v : Nat) (l : Log) : Log :=
  if l.host.vecOpen v then { l with out := .msix v :: l.out }
  else { l with host := { l.host with pba := l.host.pba ||| (1#16 <<< v) } }

/-! ## Sticky bits -/

/-- Sets a sticky bit (R63, R64): the first bit after all clear goes into STK_FIRST, and a bit that goes from 0 to 1
under a set mask bit sends vector 2. A bit its register does not define is reserved and stays 0 (R15). -/
def Log.stick (k : Sticky) (l : Log) : Log :=
  if !flag (wd Config.stkDefined k.n) k.b then l else
    let old := wd l.host.stk k.n
    let l1 := { l with host := { l.host with
        stk := upd l.host.stk k.n (fun w => w ||| (1#32 <<< k.b))
        stkFirst := upd l.host.stkFirst k.n (fun f => if old = 0 then some (BitVec.ofNat 5 k.b) else f) } }
    if !flag old k.b && flag (wd l.host.stkMask k.n) k.b then l1.send 2 else l1

/-- Clears the named bits of STK register n (R14, R64); STK_FIRST's VALID clears with the last bit (R63). -/
def Log.stkClear (n : Nat) (w : Word) (l : Log) : Log :=
  let v := wd l.host.stk n &&& ~~~ w
  { l with host := { l.host with
      stk := upd l.host.stk n (fun _ => v)
      stkFirst := upd l.host.stkFirst n (fun f => if v = 0 then none else f) } }

/-! ## Responses -/

/-- Final answer to a command: status, DETAIL and payload (R43, R51, R52). -/
structure Ans where
  /-- Status code of R51. -/
  status : Nat
  /-- DETAIL of R52. -/
  detail : Nat := 0
  /-- Payload words. -/
  payload : List Word := []

/-- The rung command of a slot that runs, else the first one rung there. -/
def HostIf.rungOf (h : HostIf) (slot : Nat) : Option RungCmd :=
  match h.rung.find? (fun c => c.slot == slot && c.running) with
  | some c => some c
  | none => h.rung.find? (fun c => c.slot == slot)

/-- Removes a rung command from the list. -/
def dropRung (slot : Nat) : List RungCmd → List RungCmd
  | [] => []
  | c :: cs => if c.slot = slot ∧ c.running then cs else c :: dropRung slot cs

/-- The next COMPLETION_SEQ: it wraps from 0xFFFF_FFFF to 1 (R44). -/
def nextSeq (w : Word) : Word := if w = 0xFFFFFFFF then 1 else w + 1

/-- Completes a command (R48): the response slot, LAST_SEQ, DONE, then vector 0 unless QUIET or RESP_IRQ_EN 0; a
response an FLR discarded only leaves the list (R35). -/
def Log.respond (slot : Nat) (a : Ans) (l : Log) : Log :=
  match l.host.rung.find? (fun c => c.slot == slot && c.running) with
  | none => l
  | some c =>
    let h := { l.host with rung := dropRung slot l.host.rung }
    if c.discard then { l with host := h } else
      let seq := nextSeq h.lastSeq
      let w0 := (wd c.words 0 &&& 0xFFFF) ||| w32 (a.status * 65536)
      let w2 := w32 (a.payload.length + 65536 * a.detail)
      let rsp := fun old => [w0, wd c.words 1, w2, seq] ++ a.payload ++ old.drop (4 + a.payload.length)
      let l1 := { l with host := { h with
          rspSlots := upd h.rspSlots slot rsp
          lastSeq := seq
          slotState := upd h.slotState slot (fun _ => .done) } }
      if flag (wd c.words 0) 17 || !h.respIrqEn then l1 else l1.send 0

/-! ## Almanac queue -/

/-- Position of the oldest record of the lowest severity in a queue (R520). -/
def worstRec : List AlmRec → Option AlmRec
  | [] => none
  | r :: rs => match worstRec rs with
    | none => some r
    | some b => if r.severity < b.severity ∨ (r.severity = b.severity ∧ r.seq < b.seq) then some r else some b

/-- A record joins the queue of 16 (R520); if the queue is full, the oldest record of the lowest severity is dropped,
counted in ALM_SUPPRESSED, and its host entry answered BUSY (R526). -/
def Log.record (r : AlmRec) (l : Log) : Log :=
  let p := l.pers
  let r := { r with seq := p.almArrive }
  if p.almQueue.length < 16 then
    { l with pers := { p with almQueue := p.almQueue ++ [r], almArrive := p.almArrive + 1 } }
  else
    let worst := worstRec p.almQueue
    let q := match worst with
      | none => p.almQueue
      | some b => p.almQueue.filter (fun x => x.seq != b.seq)
    let l1 := { l with pers := { p with
      almQueue := q ++ [r], almArrive := p.almArrive + 1
      almSuppressed := satAdd p.almSuppressed 1
      lostBefore := true, lostOwe := true, lostSince := satAdd p.lostSince 1 } }
    let l2 := l1.stick Sticky.almSuppressed
    match worst.bind (·.host) with
    | some sl => l2.respond sl { status := 0x13 }
    | none => l2

/-- ALM_MIN_SEVERITY (R505). -/
def Pers.almMinSeverity (p : Pers) : Nat := fld (wd p.prf 5) 12 3

/-- A sticky bit whose occurrence has no event of its own: set, and recorded with code 0xnn80 + b as WARNING (R518).
The record carries the source of R55, and as parameter 3 the low half of the line. DEDUCED: a bit that is set already does not
set again, so nothing is recorded (log 10). -/
def Log.stickRec (line : Word) (k : Sticky) (l : Log) (source : Nat := 0) : Log :=
  if flag (wd l.host.stk k.n) k.b then l else
    (l.stick k).record
      { code := BitVec.ofNat 16 (256 * k.n + 0x80 + k.b), source := BitVec.ofNat 8 source, severity := 2, p3 := line.setWidth 16 }

/-! ## Events -/

/-- Entries in the event queue (R56). -/
def HostIf.evqCount (h : HostIf) : Nat := (h.evqHead - h.evqTail).toNat

/-- Vector the events of subsystem n map to, with EXCLUSIVE: the lowest enabled VEC_MAP naming it (R61). -/
def HostIf.mapOf (h : HostIf) (n : Nat) : Option (Nat × Bool) :=
  ((List.range 8).find? fun i => flag (wd h.vecMap i) 8 && fld (wd h.vecMap i) 0 8 == n).map
    fun i => (8 + i, flag (wd h.vecMap i) 9)

/-- One more entry, of index i, for vector v: its message goes out at once, or when COALESCE_COUNT entries wait unsignalled
(R60, R61). -/
def Log.signal (now : Bool) (i : Word) (v : Nat) (l : Log) : Log :=
  let q := cell l.host.unsig v [] ++ [(i, l.now)]
  if now || q.length ≥ max 1 l.host.coalesceCount.toNat then
    ({ l with host := { l.host with unsig := upd l.host.unsig v (fun _ => []) } }).send v
  else { l with host := { l.host with unsig := upd l.host.unsig v (fun _ => q) } }

/-- Writes an entry at EVQ_HEAD and signals it (R54, R56, R60, R61). -/
def Log.enqueue (line : Word) (code source sev : Nat) (tag p0 p1 p2 : Word) (w7 : Word) (l : Log) : Log :=
  let h := l.host
  let i := h.evqHead
  let e := [i, w32 (code + 65536 * source + 16777216 * sev), tag, line, p0, p1, p2, w7]
  let l1 := { l with host := { h with
      evq := upd h.evq (i.toNat % 64) (fun _ => e), evqHead := i + 1 } }
  let now := flag w7 16 || sev == 4
  match h.mapOf (code / 256) with
  | none => l1.signal now i 1
  | some (v, true) => l1.signal now i v
  | some (v, false) => (l1.signal now i v).signal now i 1

/-- An event that is not a completion: what it carries, and whether its record is written whatever
ALM_MIN_SEVERITY says (R518). -/
structure Event where
  /-- Which event. -/
  ev : Ev
  /-- SOURCE of R55. -/
  source : Nat := 0
  /-- PARAM0. -/
  p0 : Word := 0
  /-- PARAM1. -/
  p1 : Word := 0
  /-- PARAM2. -/
  p2 : Word := 0
  /-- Parameter 3. -/
  p3 : Word := 0
  /-- Recorded whatever its severity. -/
  always : Bool := false

/-- Queues an event if its severity reaches MIN_SEVERITY and 16 entries stay free after it, else drops and counts it
(R57, R579). -/
def Log.queueEvent (line : Word) (e : Event) (l : Log) : Log :=
  let sev := e.ev.severity (e.p1 == 1)
  if sev < l.host.minSeverity.toNat then l
  else if l.host.evqCount + 1 + 16 ≤ 64 then
    l.enqueue line e.ev.code e.source sev 0 e.p0 e.p1 e.p2 (e.p3 &&& 0xFFFF)
  else
    ({ l with host := { l.host with evqLost := satAdd l.host.evqLost 1, evqOverflowed := true } }).stickRec line
      Sticky.evqOverflow

/-- An event happens (R57): queued under the queue's rules, and recorded under R518. -/
def Log.event (line : Word) (e : Event) (l : Log) : Log :=
  let sev := e.ev.severity (e.p1 == 1)
  let l1 := l.queueEvent line e
  if e.always || sev ≥ 3 || sev ≥ l.pers.almMinSeverity then
    l1.record { code := BitVec.ofNat 16 e.ev.code, source := BitVec.ofNat 8 e.source, severity := sev,
                p0 := e.p0, p1 := e.p1, p2 := e.p2, p3 := line.setWidth 16 }
  else l1

/-- A completion event (R50, R54): always queued, SOURCE 0xFF, NOTICE, and its entry keeps the completion outstanding
until EVQ_TAIL passes it. -/
def Log.complete (line : Word) (opcode : Nat) (tag : Word) (status : Nat) (p0 p1 p2 : Word) (l : Log) : Log :=
  let idx := l.host.evqHead
  let due := l.host.outst.findIdx? fun o => o.tag == tag && o.opcode.toNat == opcode && o.evIdx.isNone
  let l1 := { l with host := { l.host with outst := match due with
      | some i => upd l.host.outst i (fun o => { o with evIdx := some idx })
      | none => l.host.outst } }
  l1.enqueue line opcode 0xFF 1 tag p0 p1 p2 (w32 (status + 65536))

/-! ## The same, on the state -/

/-- Sets a sticky bit whose occurrence has an event of its own (R518: no second record). -/
def stick (k : Sticky) (s : State) : State := s.withLog (s.log.stick k)

/-- Sets a sticky bit that has no event of its own, and records the setting with its source (R55, R518). -/
def stickRec (k : Sticky) (s : State) (source : Nat := 0) : State := s.withLog (s.log.stickRec s.line k source)

/-- An event happens. -/
def event (e : Event) (s : State) : State := s.withLog (s.log.event s.line e)

/-- An event happens that carries the line it is about in place of the present one (R465). -/
def eventAt (line : Word) (e : Event) (s : State) : State := s.withLog (s.log.event line e)

/-- A sticky bit sets and its own event happens: one record, whatever ALM_MIN_SEVERITY says (R518). DEDUCED: where the
bit was set already, nothing sets, and the record follows the event's severity (log 10). -/
def stickEvent (k : Sticky) (e : Event) (s : State) : State :=
  s.withLog ((s.log.stick k).event s.line { e with always := e.always || !flag (wd s.host.stk k.n) k.b })

/-- A completion event is queued. -/
def completeNow (opcode : Nat) (tag : Word) (status : Nat) (p0 p1 p2 : Word) (s : State) : State :=
  s.withLog (s.log.complete s.line opcode tag status p0 p1 p2)

/-- A completion event falls due. While Beryl restarts it is not queued: the restarted firmware completes every outstanding command with
HW_FAULT, whatever has become of its work (R53, R98). -/
def complete (opcode : Nat) (tag : Word) (status : Nat) (p0 p1 p2 : Word) (s : State) : State :=
  if s.host.restarting then s else completeNow opcode tag status p0 p1 p2 s

/-- Sends an interrupt vector. -/
def sendVec (v : Nat) (s : State) : State := s.withLog (s.log.send v)

/-- Answers the running command of a slot. -/
def respond (slot : Nat) (a : Ans) (s : State) : State := s.withLog (s.log.respond slot a)

/-- Nanoseconds of MONO_TIME since an instant (R342: the count wraps). -/
def State.since (s : State) (t : Dword) : Nat := (s.pos.mono - t).toNat

/-- The same for times Onyx and the AON island measure: their clock is good to 2 % (R449, R527), so what they time may come that much
early. -/
def State.aonDue (s : State) (t : Dword) (ns : Nat) : Bool := decide (98 * ns ≤ 100 * s.since t)

/-- The island whose held pads keep an output from appearing (R532). DEDUCED from the table: trigger, I²C and SLOWDOWN_N pads are at the edge of
the PIPE island, the lamp, axis, position and ABS pads at the edge of the IO island (log 11). -/
def padIsland : Output → Option Nat
  | .pulse name _ _ _ => if ["CAM_TRIG0", "CAM_TRIG1", "CAM_TRIG2", "CAM_TRIG3"].contains name then some 2 else some 3
  | .pin name _ => if name = "SLOWDOWN_N" then some 2 else if name = "LAMP_PWR_EN" then none else some 3
  | .i2c .. => some 2
  | .lamp .. => some 3
  | .absRead _ => some 3
  | _ => none

/-- The pad of an output is held, so that it keeps its level whatever its block does (R532). -/
def padHeld (o : Output) (s : State) : Bool := match padIsland o with
  | some i => (cell s.pwr.islands i {}).padHeld
  | none => false

/-- Puts something out, unless its pad is held (R532). -/
def emit (o : Output) (s : State) : State := if padHeld o s then s else { s with out := o :: s.out }

/-- Drives several pads, first one first. -/
def drive (os : List Output) (s : State) : State := os.foldl (fun s o => emit o s) s

/-- A bridge input's pin: axis, phase, input. -/
def bridgePin (a : Nat) (b two : Bool) : String :=
  (if a = 0 then "AX0_PH" else "AX1_PH") ++ (if b then "B_IN" else "A_IN") ++ (if two then "2" else "1")

/-- The levels of a phase's bridge inputs (R366, R367): both 0 in slow decay and at code 0. -/
def bridgeOut (a : Nat) (b : Bool) (p : Phase) : List Output :=
  [.pin (bridgePin a b false) (p.on && p.code != 0 && !p.neg), .pin (bridgePin a b true) (p.on && p.code != 0 && p.neg)]

/-- The levels of all bridge inputs. -/
def bridgeLevels (s : State) : List Output :=
  let one := fun (a : Nat) =>
    let x := cell s.axes.ax a {}
    bridgeOut a false x.phA ++ bridgeOut a true x.phB
  one 0 ++ one 1

/-- A pulse on the same pin that begins in the same tick. -/
def samePulse (name : String) (start : Nat) : Output → Bool
  | .pulse n _ _ t => n == name && t == start
  | _ => false

/-- Makes a pulse at least that wide. -/
def widen (width : Nat) : Output → Output
  | .pulse n w h t => .pulse n (max w width) h t
  | o => o

/-- A high pulse of an action (R337, R338): two on one pin in the same tick give one of the longer width. -/
def emitPulse (name : String) (width start : Nat) (s : State) : State :=
  if s.out.any (samePulse name start) then
    { s with out := s.out.map fun o => if samePulse name start o then widen width o else o }
  else emit (.pulse name width true start) s

/-- Puts several things out on lanes or pins that no island holds, first one first. -/
def emits (os : List Output) (s : State) : State := { s with out := os.reverse ++ s.out }

/-- Applies f when the condition holds. -/
def applyIf (c : Bool) (f : State → State) (s : State) : State := if c then f s else s

end Sys2Proof.Machine
end

