-- ==== Sys2Proof/Machine/CalBank.lean ====
section
/-!
DEFINITION. The two accumulator banks of calibration (R300) and what becomes of a result that does not come into force (R308, R310).
-/
namespace Sys2Proof.Machine

/-- The gathering bank. -/
def Cal.gathering (c : Cal) : CalBank := if c.bank then c.bank1 else c.bank0

/-- The bank a solve reads. -/
def Cal.solveBank (c : Cal) : CalBank := if c.bank then c.bank0 else c.bank1

/-- Changes the gathering bank. -/
def Cal.gather (f : CalBank → CalBank) (c : Cal) : Cal :=
  if c.bank then { c with bank1 := f c.bank1 } else { c with bank0 := f c.bank0 }

/-- Two entries together; halved where SUM_W would exceed 65,536. -/
def CalSum.merge (x y : CalSum) : CalSum :=
  let z : CalSum := { w := x.w + y.w, a := x.a + y.a, e := x.e + y.e, pages := (x.pages ++ y.pages).dedup }
  if z.w > 65536 then { z with w := z.w / 2, a := z.a / 2, e := z.e / 2 } else z

/-- Adds a list of sums to another. -/
def mergeSums (l m : List ((Nat × Nat) × CalSum)) : List ((Nat × Nat) × CalSum) :=
  m.foldl (fun l x => put l x.1 (((find? l x.1).getD {}).merge x.2)) l

/-- The solve bank is added back into the gathering bank (R300). -/
def mergeBack (s : State) : State :=
  let old := s.cal.solveBank
  let c := s.cal.gather fun b => { b with cols := mergeSums b.cols old.cols, noz := mergeSums b.noz old.noz }
  { s with cal := if c.bank then { c with bank0 := {} } else { c with bank1 := {} } }

end Sys2Proof.Machine
end

