-- ==== Sys2Proof/Machine/Ops.lean ====
section
/-!
DEFINITION. The shared operations: running a mailbox command (R42 to R53), changing the operating state and the role
(R66, R411), group aborts (R92), permissions (R453, R456), latching a trip (R461, R464), Vigil messages (R420) and
device writes of persistent words (R503 to R508).
-/
namespace Sys2Proof.Machine

/-! ## Answers -/

/-- OK with a payload. -/
def okWith (p : List Word) : Ans := { status := 0, payload := p }
/-- OK. -/
def ok : Ans := { status := 0 }
/-- ACCEPTED. -/
def accepted : Ans := { status := 1 }
/-- DEFERRED. -/
def deferred : Ans := { status := 2 }
/-- BAD_OPCODE. -/
def badOpcode : Ans := { status := 0x10 }
/-- BAD_PARAM with the offending payload word (R52). -/
def badParam (i : Nat) : Ans := { status := 0x11, detail := i }
/-- BAD_STATE. -/
def badState : Ans := { status := 0x12 }
/-- BUSY. -/
def busy : Ans := { status := 0x13 }
/-- NO_RESOURCE. -/
def noResource : Ans := { status := 0x14 }
/-- VALIDATION_FAILED with its reason (R52). -/
def validationFailed (r : Nat) : Ans := { status := 0x20, detail := r }
/-- LATE. -/
def late : Ans := { status := 0x21 }
/-- HW_FAULT. -/
def hwFault : Ans := { status := 0x30 }
/-- SAFETY_BLOCKED with the number of the permission that is missing (R52). -/
def safetyBlocked (p : Nat) : Ans := { status := 0x31, detail := p }
/-- WEAR_LIMIT. -/
def wearLimit : Ans := { status := 0x40 }

/-- Place of a status in the order of R51. -/
def rank (a : Ans) : Nat :=
  if a.status = 0x10 then 0
  else if a.status = 0x11 then (if a.detail = 0xFFFE then 1 else if a.detail = 0xFFFF then 2 else 3)
  else if a.status = 0 then 4
  else if a.status = 0x13 then 5
  else if a.status = 0x12 ∨ a.status = 0x31 then 6
  else if a.status = 0x14 then 7
  else 8

/-- The answer of the checks that apply: the first in the order of R51, and among equals the first listed. -/
def pick : List (Bool × Ans) → Option Ans
  | [] => none
  | (c, a) :: rest =>
    match pick rest with
    | some b => if c && decide (rank a ≤ rank b) then some a else some b
    | none => if c then some a else none

/-- A payload word whose bits outside the mask must be 0 (R51). -/
def reservedW (ws : List Word) (i : Nat) (mask : Word) : Bool × Ans :=
  (wd ws i &&& ~~~ mask != 0, badParam i)

/-- 16 completions are outstanding already (R50). -/
def completionsFull (s : State) : Bool × Ans := (decide (s.host.outst.length ≥ 16), noResource)

/-- Notes an outstanding completion (R50). -/
def outstand (opcode : Nat) (tag : Word) (ref : Nat) (s : State) : State :=
  { s with host := { s.host with outst := s.host.outst ++ [{ tag := tag, opcode := BitVec.ofNat 16 opcode, ref := ref }] } }

/-- OP_STATE is BOOT. -/
def inBoot (s : State) : Bool := s.host.opState == .boot

/-- Commands "Allowed in any state but BOOT". -/
def notBoot (s : State) : Bool × Ans := (inBoot s, badState)

/-! ## Running a command -/

/-- The opcode of a rung command. -/
def RungCmd.opcode (c : RungCmd) : Nat := fld (wd c.words 0) 0 16
/-- Its subsystem: the opcode's high byte. -/
def RungCmd.subsystem (c : RungCmd) : Nat := fld (wd c.words 0) 8 8
/-- Its ORDERED bit. -/
def RungCmd.ordered (c : RungCmd) : Bool := flag (wd c.words 0) 16
/-- Its TAG. -/
def RungCmd.tag (c : RungCmd) : Word := wd c.words 1
/-- Its PAYLOAD_WORDS. -/
def RungCmd.payloadWords (c : RungCmd) : Nat := fld (wd c.words 2) 0 8
/-- Its payload. -/
def RungCmd.payload (c : RungCmd) : List Word := (c.words.drop 4).take c.payloadWords

/-- A fault of the header: a reserved bit set, or more than 60 payload words (R42). -/
def RungCmd.headerBad (c : RungCmd) : Bool :=
  fld (wd c.words 0) 18 14 != 0 || fld (wd c.words 2) 8 24 != 0 || wd c.words 3 != 0 || decide (c.payloadWords > 60)

/-- Commands rung before the one in a slot, in ring order. DEDUCED: one that still runs though an FLR has discarded its response counts
among them, under the slot number it keeps, until it ends (log 29). -/
def rungBefore (slot : Nat) : List RungCmd → List RungCmd
  | [] => []
  | c :: cs => if c.slot = slot ∧ ¬ c.discard then [] else c :: rungBefore slot cs

/-- Whether the command rung in a slot may start (R49, R53): MBX_READY; no earlier one of its subsystem, none earlier
with ORDERED, and none at all earlier if it has ORDERED itself. -/
def startable (h : HostIf) (c : RungCmd) : Bool :=
  let before := rungBefore c.slot h.rung
  h.mbxReady && !c.running && !c.discard &&
  before.all (fun b => b.subsystem != c.subsystem && !b.ordered) && (!c.ordered || before.isEmpty)

/-- What a unit that cannot serve everything answers (R493, R529, R535, R547): the boot ROM serves three commands; with
DRAM_FAIL only the system and memory groups; armed for SLEEP only two; a subsystem whose island is off or whose clock is stopped only its
GET_STATUS, the opcode with low byte 00 (DEDUCED which subsystems those are, log 11). -/
def served (opcode : Nat) (s : State) : List (Bool × Ans) :=
  let sub := opcode / 256
  let pwrGet := opcode == 0x0F00
  let stopped := [4, 5, 7].contains sub && (s.pwr.state == .hold || s.pwr.state == .standby)
  let off := (stopped || (sub == 6 && s.pwr.state == .hold)) && opcode % 256 != 0
  [ (s.host.bootRomWaiting && !(opcode == 0x0100 || pwrGet || opcode == 0x0F05), badState),
    ((s.dram.fail || s.pwr.limited) && !(sub == 1 || sub == 0xE), hwFault),
    (s.pwr.sleepArmed && !(pwrGet || opcode == 0x0F01), badState),
    (off, badState) ]

/-- Marks the command of a slot as running. -/
def markRunning (slot : Nat) : List RungCmd → List RungCmd
  | [] => []
  | c :: cs => if c.slot = slot ∧ ¬ c.discard then { c with running := true } :: cs else c :: markRunning slot cs

/-- The command in a slot that has been rung and not discarded. -/
def HostIf.waiting (h : HostIf) (slot : Nat) : Option RungCmd := h.rung.find? fun c => c.slot == slot && !c.discard

/-- Runs the mailbox command of a slot: if it is the one rung there and may start, its checks give the answer of R51,
or it has its effect and answers then or later (R48 to R52). A row whose command is not in the slot, or may not start
yet, changes nothing. -/
def command (opcode minWords : Nat) (slot : Fin 16) (checks : State → List Word → List (Bool × Ans))
    (effect : Word → List Word → State → State × Option Ans) (s : State) : State :=
  match s.host.waiting slot with
  | none => s
  | some c =>
    if c.opcode = opcode ∧ startable s.host c then
      let s1 := { s with host := { s.host with rung := markRunning slot s.host.rung } }
      let short := decide (c.payloadWords < minWords)
      let common := [(c.headerBad, badParam 0xFFFE), (short, badParam 0xFFFF)] ++ served opcode s
      match pick (common ++ (if c.headerBad || short then [] else checks s c.payload)) with
      | some a => respond slot a s1
      | none =>
        match effect c.tag c.payload s1 with
        | (s2, some a) => respond slot a s2
        | (s2, none) => s2
    else s

/-- A command whose effect is answered at once. -/
def done (p : State × Ans) : State × Option Ans := (p.1, some p.2)

/-! ## Reads of host memory -/

/-- The requests of a read: at most the max read request size each (R32, R116). -/
def readReqs (size addr len : Nat) : List Output :=
  (List.range ((len + size - 1) / size)).map fun i => .dmaRead (addr + i * size) (min size (len - i * size))

/-- Asks for bytes of host memory (R116). -/
def readHost (addr len : Nat) (s : State) : State := { s with out := (readReqs s.host.maxRead addr len).reverse ++ s.out }

/-! ## Free values -/

/-- The next free value, and the state in which it has been taken. -/
def takeFree (s : State) : Nat × State := (Config.freeNat s.free, { s with free := s.free + 1 })

/-- The next free signed value, and the state in which it has been taken. -/
def takeFreeInt (s : State) : Int × State := (Config.freeInt s.free, { s with free := s.free + 1 })

/-! ## Operating state and role -/

/-- The head power enables and SAFE_OK (R450, R533): both enables while OP_STATE is READY, PRINT or SERVICE in RUN with no trip
latched; SAFE_OK also needs the last self-test to have passed, and not the power state RUN. -/
def Onyx.outputs (op : OpState) (p : PwrState) (o : Onyx) : Onyx :=
  let on := (op == .ready || op == .print || op == .service) && !o.tripped
  { o with hpwrA := on && p == .run, hpwrB := on && p == .run
           safeOk := on && o.selfTestOk && p != .sleep }

/-- Drives the head power enables and SAFE_OK, and notes when the enables fall (R461 code 14). -/
def setOutputs (op : OpState) (p : PwrState) (s : State) : State :=
  let o := s.onyx.outputs op p
  let falls := (s.onyx.hpwrA || s.onyx.hpwrB) && !o.hpwrA
  { s with onyx := { o with fellAt := if falls then s.pos.mono else o.fellAt } }

/-- A SYS_SET_OP_STATE that waits answers once the state it asked for is in force, or SAFE is (R70). -/
def answerOpReq (new : OpState) (s : State) : State :=
  match s.host.opReq with
  | none => s
  | some (slot, t) =>
    let s1 := { s with host := { s.host with opReq := none } }
    if t = new then respond slot ok s1
    else if new = .safe then respond slot (safetyBlocked 4) s1
    else s

/-- A change of the operating state (R66): event 0x0102 with the old and the new state; `forced` also sets
OP_STATE_FORCED; SAFE also sends vector 2 (R59). A command that waited for the new state answers (R70). A change to the same state is none. -/
def setOpState (new : OpState) (forced : Bool) (s : State) : State :=
  if s.host.opState = new then s else
    let e : Event := { ev := .stateChange, p0 := w32 s.host.opState.code, p1 := w32 new.code }
    let s1 := setOutputs new s.pwr.state { s with host := { s.host with opState := new } }
    let s2 := if forced then stickEvent .opStateForced e s1 else event e s1
    answerOpReq new (if new = .safe then sendVec 2 s2 else s2)

/-- No line boundary has occurred for 1 ms (R89). -/
def quietWeb (s : State) : Bool := match s.fire.bTimes.head? with
  | some t => decide (t.toNat + 1000000 ≤ s.pos.mono.toNat)
  | none => true

/-- A line is firing, so that what waits for the next line boundary has one to wait for (R66): DEDUCED: not where boundaries have ceased for
1 ms (R89), as on a stopped web or over a SIGNAL fault of ENC0 (R321), while the internal clock of a spit run goes on (log 28). -/
def lineFires (s : State) : Bool := s.host.firing && (s.fire.spit.isSome || !quietWeb s)

/-! ## Vigil messages -/

/-- Place of a message type in the order of R420. -/
def vmsgRank (t : Nat) : Nat :=
  if t = 2 then 0 else if t = 3 then 1 else if t = 4 then 2 else if t = 6 then 3 else if t = 7 then 3
  else if t = 1 then 5 else if t = 5 then 6 else 7

/-- A message joins the queue behind those that go before it (R420). -/
def insertMsg (m : VMsg) : List VMsg → List VMsg
  | [] => [m]
  | x :: xs => if vmsgRank x.type ≤ vmsgRank m.type then x :: insertMsg m xs else m :: x :: xs

/-- Queues a message. -/
def vigilSend (m : VMsg) (s : State) : State :=
  { s with twin := { s.twin with txQueue := insertMsg m s.twin.txQueue } }

/-! ## Group aborts -/

/-- Status of the CG_ARM completion of an abort cause (R92). -/
def abortStatus (cause : Nat) : Nat :=
  match cause with
  | 2 => 0x21 | 3 => 0x21 | 4 => 0x41 | 7 => 0x31 | 8 => 0x30 | 9 => 0x20 | 10 => 0x30 | _ => 0x12

/-- Sticky bit of an abort cause (R102). -/
def abortSticky (cause : Nat) : Option Sticky :=
  if cause = 2 ∨ cause = 3 then some .abortLate
  else if cause = 4 ∨ cause = 5 ∨ cause = 6 then some .abortTwin
  else if 7 ≤ cause ∧ cause ≤ 11 then some .abortFault
  else none

/-- Group g. -/
def Commit.group (c : Commit) (g : Nat) : Group := cell c.groups g {}

/-- Changes group g. -/
def setGroup (g : Nat) (f : Group → Group) (s : State) : State :=
  { s with cg := { s.cg with groups := upd s.cg.groups g f } }

/-- A slot that returns to EMPTY: its handle and its last abort cause stay readable (R101; DEDUCED until the next CG_OPEN, log 33). -/
def Group.released (g : Group) : Group := { handle := g.handle, abortCause := g.abortCause }

/-- What a group that is no longer ARMED or LOCKED held: pending curve banks, head table loads, lamp levels (R149, R188,
R400) become free. -/
def dropLoads (g : Nat) (s : State) : State :=
  { s with
    scr := { s.scr with slices := s.scr.slices.map fun sl =>
      if sl.bankPending ≠ 0 ∧ sl.bankGroup = g then { sl with bankPending := 0 } else sl }
    hl := { s.hl with lanes := s.hl.lanes.map fun l =>
      let w := l.loadWait.filter (· != g)
      if l.loadGroup = some g then { l with loadGroup := none, tblQueue := [], loaded := false, loadWait := w }
      else { l with loadWait := w } }
    lamp := { s.lamp with chains := s.lamp.chains.map fun c =>
      if c.pendGroup = some g then { c with pendGroup := none, pendOk := false } else c } }

/-- The CG_ARM completion of a group falls due. -/
def completeArm (g : Nat) (status : Nat) (p0 p1 p2 : Word) (s : State) : State :=
  match (s.cg.group g).armTag with
  | none => s
  | some t => setGroup g (fun x => { x with armTag := none }) (complete 0x0203 t status p0 p1 p2 s)

/-- The fire line that twin events carry: the present one. -/
def fireLineNow (s : State) : Word := s.line

/-- A STANDBY role unit becomes unsynchronised (R426). A failed lock decision sets TWIN_UNSYNC in a unit that is not synchronised too, though
nothing changes that an event could report (R95, R149). DEDUCED: a failed join reports cause 8 though the unit was not synchronised (log 19). -/
def unsync (cause : Nat) (s : State) : State :=
  if s.twin.role ≠ .standby then s
  else if s.twin.synced ∨ cause = 8 then
    stickEvent .twinUnsync { ev := .unsync, p0 := w32 cause, p1 := fireLineNow s, always := true }
      { s with twin := { s.twin with synced := false } }
  else if 3 ≤ cause ∧ cause ≤ 5 then stickRec .twinUnsync s
  else s

/-- A join fails (R439, R446): JOIN_FAILED, the completion of TWIN_JOIN with what failed, and cause 8 of R426. DEDUCED: the group it armed
stays armed unless it is what failed (log 19). -/
def failJoin (what : Nat) (s : State) : State :=
  match s.twin.joining with
  | none => s
  | some j =>
    let s1 := { s with twin := { s.twin with joining := none, fSync := none } }
    let s2 := stickRec .joinFailed s1
    unsync 8 (complete 0x0C03 j.tag 0x30 (w32 what) 0 0 s2)

/-- The comparators of a group that is no longer ARMED or LOCKED end (R332). -/
def endGroupCmps (g : Nat) (s : State) : State :=
  let stop : Cmp → Cmp := fun c => if c.st = .armed then { c with st := .ended } else c
  { s with pos := { s.pos with cmps := upd (upd s.pos.cmps (2 * g) stop) (2 * g + 1) stop } }

/-- A result is discarded after the abort of its group (R300, R310): COMMIT_ABORTED and event 0x0802 with reason 5; where an automatic solve had made
it, RESULT_REJECTED too (R303). -/
def dropResult (cause : Nat) (s0 : State) : State :=
  let s := match s0.cal.res with
    | some r => if r.auto then stickRec .resultRejected s0 else s0
    | none => s0
  let s1 := mergeBack { s with cal := { s.cal with
    result := .none, res := none, group := none, rejects := satAdd s.cal.rejects 1 } }
  sendVec 6 (stickEvent .commitAborted { ev := .resultRejected, p0 := 5, p1 := w32 cause } s1)

/-- An ARMED group aborts (R92): its objects stay staged and the state in force is untouched; a calibration group reports
0x0211 and releases itself (R83, R102), its result READY again after the abort of R309 (`again`) and discarded after any other (R310). A join whose
group aborts fails (R439). -/
def abortGroupTo (again : Bool) (g cause : Nat) (s : State) : State :=
  let grp := s.cg.group g
  if grp.st ≠ .armed then s else
    let lc : Word := grp.line.getD 0xFFFFFFFF
    let s1 := endGroupCmps g (dropLoads g (setGroup g (fun x => { x with st := .aborted, abortCause := cause, stopped := false, joinGroup := false }) s))
    if grp.ownerCal then
      let ev : Event := { ev := .cgAborted, p0 := w32 g, p1 := lc, p2 := w32 cause }
      let s2 := sendVec 6 (match abortSticky cause with
        | some k => stickEvent k ev s1
        | none => event ev s1)
      let s3 := setGroup g Group.released s2
      if again then { s3 with cal := { s3.cal with result := .ready, group := none } }
      else
        dropResult cause s3
    else
      let s2 := match abortSticky cause with
        | some k => stickRec k s1
        | none => s1
      let s3 := completeArm g (abortStatus cause) (w32 cause) lc 0 s2
      if grp.joinGroup then failJoin 1 s3 else s3

/-- An ARMED group aborts, and the result of a calibration group goes (R92, R310). -/
def abortGroup (g cause : Nat) (s : State) : State := abortGroupTo false g cause s

/-- Every ARMED group aborts. -/
def abortArmed (cause : Nat) (s : State) : State :=
  (List.range 4).foldl (fun s g => abortGroup g cause s) s

/-! ## Roles -/

/-- Calibration's ARMED group ends when the role leaves SOLO (R310): the result is discarded. DEDUCED: the cause is HOST, as Beryl gives it in R309
(log 28). -/
def leaveSolo (s : State) : State :=
  (List.range 4).foldl (fun s g =>
    let grp := s.cg.group g
    if grp.st ≠ .armed ∨ ¬ grp.ownerCal then s else abortGroup g 1 s) s

/-- A join ends with the STANDBY role: which failure its completion names is not stated (log 3). -/
def leaveJoin (s : State) : State :=
  match s.twin.joining with
  | none => s
  | some _ =>
    let (x, s1) := takeFree s
    failJoin x s1

/-- A change of role (R411): the count of R240 starts again; event 0x0C01 with the claim in force after it, and vector 3. -/
def setRole (new : Role) (s : State) : State :=
  if s.twin.role = new then s else
    let old := s.twin.role
    let s0 := if old = .solo then leaveSolo s else if old = .standby then leaveJoin s else s
    let claim := if new = .listen then 0 else s0.twin.claimOwn
    let s1 := { s0 with twin := { s0.twin with role := new, claimOwn := claim }
                        hl := { s0.hl with lanes := s0.hl.lanes.map fun l => { l with otherRun := 0, higherRun := 0 } } }
    sendVec 3 (event { ev := .roleChanged, p0 := w32 old.code, p1 := w32 new.code, p2 := claim } s1)

/-- A unit that enters LISTEN from PRINT or SERVICE goes to READY at the same instant, forced (R412). -/
def enterListen (s : State) : State :=
  let s1 := setRole .listen { s with twin := { s.twin with synced := false } }
  if s1.host.opState = .print ∨ s1.host.opState = .service then
    setOpState .ready true { s1 with host := { s1.host with firing := false } }
  else s1

/-! ## Permissions -/

/-- Sticky bit of a withdrawn permission (R473); NO_TRIP has none. -/
def withdrawnSticky (p : Nat) : Option Sticky :=
  if p = 1 then some .webWithdrawn else if p = 2 then some .capWithdrawn
  else if p = 3 then some .supplyWithdrawn else none

/-- A side's grant of permission p (1 to 4) changes (R456): event 0x0D02, and the sticky bit of a withdrawal. Side 1 is
the main side, 2 is Onyx. -/
def setPermission (side p : Nat) (granted : Bool) (s : State) : State :=
  let cur := if side = 1 then s.onyx.permMain else s.onyx.permOnyx
  if cur.getLsbD (p - 1) = granted then s else
    let m : BitVec 4 := 1#4 <<< (p - 1)
    let new := if granted then cur ||| m else cur &&& ~~~ m
    let s1 := if side = 1 then { s with onyx := { s.onyx with permMain := new } }
      else { s with onyx := { s.onyx with
        permOnyx := new
        wdrAt := if granted then s.onyx.wdrAt else upd s.onyx.wdrAt (p - 1) (fun _ => s.pos.mono) } }
    let e : Event := { ev := .permission, p0 := w32 p, p1 := if granted then 1 else 0, p2 := w32 side }
    if granted then event e s1 else
      match withdrawnSticky p with
      | some k => stickEvent k e s1
      | none => event e s1

/-- Permission p is granted by both sides. -/
def State.permits (s : State) (p : Nat) : Bool :=
  s.onyx.permMain.getLsbD (p - 1) && s.onyx.permOnyx.getLsbD (p - 1)

/-- The first missing permission of a list (R453). -/
def firstMissing (ps : List Nat) (s : State) : Option Nat := ps.find? fun p => !s.permits p

/-! ## Trips -/

/-- Fitted lanes: those of modules 0 to N - 1 (R5). -/
def State.fitted (s : State) : List Nat := List.range s.cg.modules

/-- Changes lane m. -/
def setLane (m : Nat) (f : Lane → Lane) (s : State) : State :=
  { s with hl := { s.hl with lanes := upd s.hl.lanes m f } }

/-- Lane m. -/
def State.lane (s : State) (m : Nat) : Lane := cell s.hl.lanes m {}

/-- CRC-8 of an ordered set (R224). -/
def crc8 (bs : List Byte) : Nat := crc 8 0x07 0 false false 0 bs

/-- An ordered set with its check byte (R224). -/
def orderedSet (k : KSym) (d1 d2 : Nat) : LaneItem :=
  let a : Byte := BitVec.ofNat 8 d1
  let b : Byte := BitVec.ofNat 8 d2
  .set k a b (BitVec.ofNat 8 (crc8 [a, b]))

/-- The check byte of a received ordered set is right (R224). -/
def setGood (d1 d2 check : Byte) : Bool := check == BitVec.ofNat 8 (crc8 [d1, d2])

/-- A BLANK OS (R224, R241). -/
def blankSet (reason : Nat) : LaneItem := orderedSet .k28_1 reason 0

/-- Fitted lanes blank: a BLANK OS on each, repeated by BLANK_REPEAT (R241, R464). -/
def blankLanes (reason : Nat) (s : State) : State :=
  let s1 := { s with hl := { s.hl with lanes := s.hl.lanes.zipIdx.map fun (l, m) =>
    if m < s.cg.modules then { l with blanking := true, blankRuns := 0, blankAt := s.pos.mono } else l } }
  emits (s.fitted.map fun m => .lane m (blankSet reason)) s1

/-- Trains that have not started are withheld as an Onyx stop (R465). -/
def withholdAll (s : State) : State :=
  { s with fire := { s.fire with trains := s.fire.trains.map fun t =>
    if t.st = .fired then t else { t with st := .withheld } } }

/-- Whether a cause is hard (R461). -/
def hardCause (c : Nat) : Bool := c == 9 || c == 10 || c == 15

/-- A cause latches (R461, R464 steps 1 to 4, R465): the first one records CAUSE, TRIP_PARAM and the fire line, closes the
gates and blanks the lanes; HEAD_POWER_ENABLE_REMOVED carries the rest. A cause that comes while a trip is latched sets its bit in
ONYX_TRIP_MASK and is counted; in the AON tick of the latch a lower code becomes CAUSE (R466). -/
def latchTrip (cause : Nat) (param : Word) (s : State) : State :=
  let o := s.onyx
  let mask := o.mask ||| (1#17 <<< cause)
  if o.tripped then
    let first := decide (cause < o.cause) && s.pos.mono.toNat / 40 == o.tripAt.toNat / 40
    { s with onyx := { o with
        mask := mask, trips := satAdd o.trips 1
        cause := if first then cause else o.cause, param := if first then param else o.param } }
  else
    let s1 := { s with
      onyx := { o with
        tripped := true, reacting := true, gateOpen := false, gateReopen := false
        cause := cause, param := param, tripSeq := o.tripSeq + 1, mask := 1#17 <<< cause
        tripLine := s.line, trips := satAdd o.trips 1, tripAt := s.pos.mono }
      host := { s.host with firing := false } }
    let s2 := withholdAll (blankLanes 1 s1)
    let s3 := setPermission 2 4 false s2
    stick .trip s3

/-- AXa_EN changes (R459): event 0x0D05 with the axis, the level and the reason, and AXIS_DISABLED as it falls. -/
def setAxisEnable (a : Nat) (level : Bool) (reason : Nat) (s : State) : State :=
  if (cell s.axes.ax a {}).enabled = level then s else
    let s1 := { s with axes := { s.axes with ax := upd s.axes.ax a (fun x => { x with enabled := level }) } }
    let e : Event := { ev := .axisEnable, source := 0x40 + a, p0 := w32 a, p1 := if level then 1 else 0, p2 := w32 reason }
    if level then event e s1 else stickEvent .axisDisabled e s1

/-! ## Persistent words -/

/-- A page's wear counter has reached LIMIT: the page is read-only (R506). -/
def pageFull (p : Pers) (page : Nat) : Bool := decide (cell p.wear page 0 ≥ 100000000)

/-- k writes to words of a PRF page count (R506, R507, R508): CLEAN clears, every 1,024 increments the counter is stored,
and the onset of WARN queues 0x0E10. -/
def countWear (page k : Nat) (s : State) : State :=
  let old := cell s.pers.wear page 0
  let n := min (old + k) 100000000
  let s1 := { s with pers := { s.pers with
    wear := upd s.pers.wear page (fun _ => n), clean := false
    wearStore := if old / 1024 ≠ n / 1024 then upd s.pers.wearStore page (fun _ => n) else s.pers.wearStore } }
  if old < 90000000 ∧ 90000000 ≤ n then
    stickEvent .prfWearWarn { ev := .prfWearWarn, p0 := w32 page, p1 := w32 n } s1
  else s1

/-- A write to a PRF page at LIMIT is discarded: PRF_WEAR_LIMIT, and 0x0E11 once per page (R508). -/
def wornOut (page : Nat) (s : State) : State :=
  if s.pers.wearLimitSeen.getLsbD page then stickRec .prfWearLimit s else
    stickEvent .prfWearLimit { ev := .prfWearLimit, p0 := w32 page, p1 := w32 (cell s.pers.wear page 0) }
      { s with pers := { s.pers with wearLimitSeen := s.pers.wearLimitSeen ||| (1#16 <<< page) } }

/-- A write of PRF word w, by the device or by the host once it is allowed (R503, R506, R508). -/
def prfStore (w : Nat) (v : Word) (s : State) : State :=
  if pageFull s.pers (w / 64) then wornOut (w / 64) s else
    countWear (w / 64) 1 { s with pers := { s.pers with prf := upd s.pers.prf w (fun _ => v) } }

/-- The highest claim seen or issued (R415). -/
def maxClaim (s : State) : Nat :=
  max (max (wd s.pers.prf 16).toNat 1) s.twin.claimSeen.toNat

/-- Issues a claim (R415): written to PRF word 16 before use; none when the space is exhausted or page 0 is read-only
(R508). -/
def issueClaim (s : State) : Option Word × State :=
  let n := maxClaim s + 1
  if pageFull s.pers 0 then (none, wornOut 0 s)
  else if n ≥ 0xFFFFFFFF then
    (none, stickEvent .claimExhausted { ev := .claimExhausted, p0 := w32 (n - 1), always := true }
      { s with twin := { s.twin with exhausted := true } })
  else (some (w32 n), prfStore 16 (w32 n)
    { s with twin := { s.twin with claimOwn := w32 n, exhausted := false } })

end Sys2Proof.Machine
end

