-- ==== Sys2Proof/Machine/Mailbox.lean ====
section
/-!
DEFINITION. The host's side: slots, doorbells, acknowledgements, the event queue's tail, coalescing, MSI-X unmasking, the
host watchdog, sticky clears, the heartbeat and the system commands (R41 to R72).
-/
namespace Sys2Proof.Machine

/-! ## Slots and doorbells -/

/-- Writes some bytes into a slot's 256 bytes, little-endian words (R34, R42). -/
def patchBytes (ws : List Word) (off : Nat) (bs : List Byte) : List Word :=
  let old := wordBytes ws
  let new := old.zipIdx.map fun (b, i) => if off ≤ i ∧ i < off + bs.length then bs.getD (i - off) 0 else b
  bytesToWords new 0 ws.length

/-- COMMAND_SLOT_WRITE (R47): stored, or discarded with SLOT_WRITE_WHILE_OWNED while the slot is in DEVICE state; the
slots take writes of any size and byte enables (R34). -/
def execCommandSlotWrite (slot : Fin 16) (off : Nat) (bytes : List Byte) (s : State) : Host.Outcome State Fault Refusal :=
  .next (if cell s.host.slotState slot .host = .device then stickRec .slotWriteWhileOwned s else
    { s with host := { s.host with cmdSlots := upd s.host.cmdSlots slot (fun ws => patchBytes ws off bytes) } })

/-- One slot is rung (R46, R47). -/
def ring (s : State) (slot : Nat) : State :=
  if cell s.host.slotState slot .device = .host then
    { s with host := { s.host with
      slotState := upd s.host.slotState slot (fun _ => .device)
      rung := s.host.rung ++ [{ slot := slot, words := cell s.host.cmdSlots slot [] }] } }
  else stickRec .doorbellMisuse s

/-- The slots a mask names, ascending. -/
def slotsOf (mask : BitVec 16) : List Nat := (List.range 16).filter fun i => mask.getLsbD i

/-- A DOORBELL write (R46). -/
def doorbell (mask : BitVec 16) (s : State) : State := (slotsOf mask).foldl ring s

/-- DOORBELL. -/
def execDoorbell (mask : BitVec 16) (s : State) : Host.Outcome State Fault Refusal := .next (doorbell mask s)

/-- One slot is acknowledged (R47). -/
def acknowledge (s : State) (slot : Nat) : State :=
  if cell s.host.slotState slot .host = .done then
    { s with host := { s.host with slotState := upd s.host.slotState slot (fun _ => .host) } }
  else stickRec .ackMisuse s

/-- A RESP_ACK write (R45, R47). -/
def respAck (mask : BitVec 16) (s : State) : State := (slotsOf mask).foldl acknowledge s

/-- RESP_ACK. -/
def execRespAck (mask : BitVec 16) (s : State) : Host.Outcome State Fault Refusal := .next (respAck mask s)

/-! ## Event queue -/

/-- When the queue has room again after an overflow, EVENTS_LOST is queued with EVQ_LOST (R57). -/
def evqRoom (s : State) : State :=
  if s.host.evqOverflowed ∧ s.host.evqCount + 17 ≤ 64 then
    event { ev := .eventsLost, p0 := s.host.evqLost }
      { s with host := { s.host with evqOverflowed := false } }
  else s

/-- Whether a queue entry lies below a new tail, on the free-running count (R56). -/
def freed (tail idx : Word) : Bool := decide (0 < (tail - idx).toNat ∧ (tail - idx).toNat < 2 ^ 31)

/-- A write of EVQ_TAIL (R50, R56): the entries below the value are freed, and with them the completions they hold and what they count
towards a message (R60); a value out of range has no effect and sets EVQ_TAIL_INVALID. -/
def evqTail (v : Word) (s : State) : State :=
  let h := s.host
  if (h.evqHead - v).toNat > 64 then stickRec .evqTailInvalid s else
    evqRoom { s with host := { h with
      evqTail := v
      unsig := h.unsig.map fun q => q.filter fun x => !freed v x.1
      outst := h.outst.filter fun o => match o.evIdx with
        | some i => !freed v i
        | none => true } }

/-- EVQ_TAIL. -/
def execEvqTail (v : Word) (s : State) : Host.Outcome State Fault Refusal := .next (evqTail v s)

/-- COALESCE_TIME_EXPIRY (R60, R61): COALESCE_TIME has passed since the first unsignalled entry of vector 1 or of a mapped
vector. -/
def execCoalesceTimeExpiry (vector : Fin 16) (s : State) : Host.Outcome State Fault Refusal :=
  .next (match cell s.host.unsig vector [] with
    | [] => s
    | (_, t) :: _ =>
      if s.host.coalesceTime ≠ 0 ∧ t.toNat + 1000 * s.host.coalesceTime.toNat ≤ s.pos.mono.toNat then
        sendVec vector { s with host := { s.host with unsig := upd s.host.unsig vector (fun _ => []) } }
      else s)

/-- Sends every pending message whose vector is open now (R59, R62). -/
def Log.flush (l : Log) : Log :=
  (List.range 16).foldl (fun l v =>
    if l.host.pba.getLsbD v && l.host.vecOpen v then
      { l with host := { l.host with pba := l.host.pba &&& ~~~ (1#16 <<< v) }, out := .msix v :: l.out }
    else l) l

/-- MSIX_UNMASK (R59): the host sets MSI-X enable and the function mask, and may unmask a vector; what is pending and open is
sent. -/
def execMsixUnmask (enable funcMask : Bool) (unmask : Option (Fin 16)) (s : State) : Host.Outcome State Fault Refusal :=
  let h := { s.host with
    msixEnable := enable, msixFuncMask := funcMask
    msixTable := match unmask with
      | some v => upd s.host.msixTable (4 * v + 3) (fun w => w &&& ~~~ 1#32)
      | none => s.host.msixTable }
  let s1 := { s with host := h }
  .next (s1.withLog s1.log.flush)

/-! ## Host watchdog, sticky clears, heartbeat -/

/-- A write that ends an expiry and restarts the count (R41); READY that an expiry has ordered still comes at its boundary. -/
def wdogRestart (s : State) : State :=
  { s with host := { s.host with wdogExpired := false, wdogStart := s.pos.mono } }

/-- HOST_ALIVE (R41). -/
def execHostAlive (s : State) : Host.Outcome State Fault Refusal := .next (wdogRestart s)

/-- A write of HOST_WDOG_CFG (R38, R41). -/
def hostWdogCfg (v : Word) (s : State) : State :=
  wdogRestart { s with host := { s.host with
    wdogTimeout := v.setWidth 16, wdogAction := flag v 16 } }

/-- HOST_WDOG_CFG. -/
def execHostWdogCfg (v : Word) (s : State) : Host.Outcome State Fault Refusal := .next (hostWdogCfg v s)

/-- TIMEOUT_MS has passed since the count started (R41). -/
def wdogDue (s : State) : Bool :=
  s.host.wdogTimeout != 0 && !s.host.wdogExpired &&
    decide (s.host.wdogStart.toNat + 1000000 * s.host.wdogTimeout.toNat ≤ s.pos.mono.toNat)

/-- HOST_WDOG_EXPIRED (R41, R66): HOST_WDOG and event 0x0103; with ACTION 1 in PRINT the unit goes to READY at the next line
boundary, or at once if no line is firing. -/
def execHostWdogExpired (s : State) : Host.Outcome State Fault Refusal :=
  let leave := s.host.wdogAction && s.host.opState == .print
  .next (if !wdogDue s then s else
    let s1 := stickEvent .hostWdog { ev := .hostWdogExpired }
      { s with host := { s.host with wdogExpired := true, wdogForce := s.host.wdogForce || (leave && lineFires s) } }
    if leave && !lineFires s then setOpState .ready true s1 else s1)

/-- STK_CLEAR (R14, R16, R64): a write to STK register n; `setNow` holds the bits hardware sets in the same clock, which
stay set. -/
def execStkClear (n : Fin 16) (v setNow : Word) (s : State) : Host.Outcome State Fault Refusal :=
  .next (s.withLog (s.log.stkClear n (v &&& ~~~ setNow)))

/-- BERYL_HEARTBEAT (R38): each 1 ms while Beryl runs. -/
def execBerylHeartbeat (s : State) : Host.Outcome State Fault Refusal :=
  .next (if s.host.berylRunning ∧ s.since s.host.beatAt ≥ 1000000 then
    { s with host := { s.host with heartbeat := s.host.heartbeat + 1, beatAt := s.pos.mono } }
  else s)

/-! ## Beryl restarts -/

/-- The jobs a restart of the firmware ends: what a command had asked for and is later completed with HW_FAULT. DEDUCED: an ALM_WRITE entry is
withdrawn, a move of the power state and a switchover go on without their command (log 29). -/
def dropJobs (s : State) : State :=
  { s with
    host := { s.host with opReq := none, resetReq := none, resetStop := none, fwStage := none, bootLoad := none }
    cg := { s.cg with groups := s.cg.groups.map fun g =>
      { g with armTag := none, stage := none, validTag := none } }
    pg := { s.pg with resets := [], cv := s.pg.cv.map fun c => { c with busy := none } }
    scr := { s.scr with job := none }
    fire := { s.fire with meas := none, spit := none, probe := none }
    insp := { s.insp with capture := none, xfer := none, cams := s.insp.cams.map fun c => { c with sets := c.sets.map fun e => { e with tag := none } } }
    cal := { s.cal with run := s.cal.run.map (fun r => (none, r.2)), runReq := none, sending := [] }
    onyx := { s.onyx with tripSlot := none }
    dram := { s.dram with ratePending := none, training := s.dram.training.map fun t => (none, t.2) }
    axes := { s.axes with seq := none, seqStep := 0, ax := s.axes.ax.map fun x => { x with
      home := none, queue := x.queue.map fun m => { m with tag := none }
      st := if x.st = .homing ∨ x.st = .sequence then .stopping else x.st, stopHard := x.stopHard || x.st == .homing || x.st == .sequence } }
    pers := { s.pers with
      pendTags := [], writing := s.pers.writing.map fun j => { j with tags := [] }
      almQueue := s.pers.almQueue.filter fun r => r.host.isNone }
    pwr := { s.pwr with target := s.pwr.target.map fun x => (x.1, none, none) }
    twin := { s.twin with swLine := s.twin.swLine.map fun x => (x.1, x.2.1, none) } }

/-- A restart of Beryl alone begins (R53, R98): MBX_READY 0, the heartbeat holds, ARMED groups abort with FW_RESTART, and the jobs of its
commands end; DEDUCED: a join is one of them and fails (log 29). Where the firmware has not started yet, or its boot ROM waits, the boot begins
again. -/
def berylRestart (s : State) : State :=
  let h := s.host
  let s1 : State := { s with host := { h with
    restarting := true
    mbxReady := false, berylRunning := false, bootRomWaiting := false
    rung := h.rung.map fun c => { c with running := true } } }
  dropJobs (failJoin 0 (abortArmed 8 s1))

/-- BERYL_RESTART. -/
def execBerylRestart (s : State) : Host.Outcome State Fault Refusal := .next (berylRestart s)

/-- Answers HW_FAULT in every slot that was in DEVICE state when the restart began (R53). -/
def failRung (s : State) : State :=
  (s.host.rung.filter (·.running)).foldl (fun s c => respond c.slot hwFault s) s

/-- Completes every outstanding command with HW_FAULT (R53). -/
def failOutstanding (s : State) : State :=
  (s.host.outst.filter (fun o => o.evIdx.isNone)).foldl
    (fun s o => completeNow o.opcode.toNat o.tag 0x30 0 0 0 s) s

/-- What is done before MBX_READY is set again (R53): held slots and outstanding commands end with HW_FAULT, and FW_RESTART sets. Commands
rung after the restart began run normally. -/
def berylRestarted (s : State) : State :=
  let s1 := stickRec .fwRestart (failOutstanding (failRung s))
  { s1 with host := { s1.host with restarting := false } }

/-! ## System commands -/

/-- SYS_ECHO (R68). -/
def execSysEcho (slot : Fin 16) (s : State) : Host.Outcome State Fault Refusal :=
  .next (command 0x0100 0 slot (fun _ _ => []) (fun _ ws s => done (s, okWith ws)) s)

/-- Bytes of the fitted memory of PRF word 4 (R477), none where the word is not valid. -/
def fittedBytes (w : Word) : Option Nat :=
  let rank := if flag w 0 then (if flag w 1 then 8 else 4) else (if flag w 1 then 16 else 8)
  let total := if flag w 2 then 2 * rank else rank
  if !flag w 31 ∨ total > 16 ∨ fld w 8 2 > fld w 4 2 then none else some (total * 2 ^ 30)

/-- Fitted DRAM in MiB by PRF word 4 as read at bring-up (R477), 0 while DRAM_FAIL is set (R69). DEDUCED: before the word has been read there is
no capacity to report, and it is 0 (log 26). -/
def dramMib (s : State) : Nat := if s.dram.fail then 0 else (fittedBytes s.dram.config).getD 0 / 1048576

/-- Words 4 to 11 of SYS_GET_INFO (R69). -/
def sysInfo (s : State) : List Word :=
  [s.host.fwVersion, s.host.fwBuild] ++ words64 Config.serial.toNat ++
  [w32 (16 + 4 * 32 + 4 * 256), w32 (dramMib s), w32 (s.host.linkGen.toNat + 16 * s.host.linkWidth.toNat),
   w32 s.host.bootSource.toNat]

/-- SYS_GET_INFO. -/
def execSysGetInfo (slot : Fin 16) (s : State) : Host.Outcome State Fault Refusal :=
  .next (command 0x0101 0 slot (fun _ _ => []) (fun _ _ s => done (s, okWith (sysInfo s))) s)

/-- The operating state a TARGET names (R70). -/
def opTarget (t : Nat) : Option OpState :=
  if t = 1 then some .ready else if t = 2 then some .print else if t = 3 then some .service else none

/-- Every fitted lane is ACTIVE. -/
def lanesActive (s : State) : Bool := s.fitted.all fun m => (s.lane m).st == .active

/-- Conditions of SYS_SET_OP_STATE (R66, R70, R530). -/
def setOpChecks (s : State) (ws : List Word) : List (Bool × Ans) :=
  let t := opTarget (fld (wd ws 0) 0 3)
  let cur := s.host.opState
  let toPrint := cur == .ready && t == some .print
  let toService := cur == .ready && t == some .service
  let legal := toPrint || toService || (cur == .print && t == some .ready) || (cur == .service && t == some .ready)
  [ (t.isNone, badParam 0), reservedW ws 0 7,
    (t == some cur, ok),
    (cur == .safe, safetyBlocked 4),
    (!legal, badState),
    (toPrint && (s.twin.role == .listen || s.cg.modules == 0 || !lanesActive s), badState),
    ((toPrint || toService) && s.pwr.state != .run, badState),
    (toService && !s.permits 2, safetyBlocked 2) ]

/-- Effect of SYS_SET_OP_STATE: at once, but leaving PRINT waits for the next line boundary while a line is firing
(R66). -/
def setOpEffect (slot : Fin 16) (_tag : Word) (ws : List Word) (s : State) : State × Option Ans :=
  match opTarget (fld (wd ws 0) 0 3) with
  | none => (s, some (badParam 0))
  | some t =>
    if s.host.opState = .print ∧ lineFires s then
      ({ s with host := { s.host with opReq := some (slot, t) } }, none)
    else (setOpState t false s, some ok)

/-- SYS_SET_OP_STATE. -/
def execSysSetOpState (slot : Fin 16) (s : State) : Host.Outcome State Fault Refusal :=
  .next (command 0x0102 1 slot setOpChecks (setOpEffect slot) s)

/-- A reset has been answered and is to begin 1 ms later (R71). DESIGN CHOICE: the spec does not say what a second SYS_RESET_UNIT does in that
time; the first one stands (log 36). -/
def askReset (kind alt : Bool) (s : State) : State :=
  if s.host.resetReq.isSome then s else { s with host := { s.host with resetReq := some (kind, alt, s.pos.mono) } }

/-- SYS_RESET_UNIT (R71): the response is written before the reset, which SYS_RESET_BEGIN begins; with FORCE in PRINT firing
stops first, at the next line boundary. -/
def execSysResetUnit (slot : Fin 16) (s : State) : Host.Outcome State Fault Refusal :=
  .next (command 0x0103 1 slot
    (fun s ws => [(decide (fld (wd ws 0) 0 2 > 1), badParam 0), reservedW ws 0 0x303,
      (flag (wd ws 0) 9 && s.host.stagedImage.isNone, badParam 0),
      (s.host.opState == .print && !flag (wd ws 0) 8, badState)])
    (fun _ ws s =>
      let kind := flag (wd ws 0) 0
      let alt := flag (wd ws 0) 9
      if s.host.opState = .print ∧ lineFires s then
        ({ s with host := { s.host with resetStop := some (slot, kind, alt) } }, none)
      else
        (askReset kind alt (if s.host.opState = .print then setOpState .ready false s else s), some ok)) s)

/-- SYS_FW_STAGE (R72). DESIGN CHOICE: until a staging has ended the half keeps what it held, and an image staged before stays one that BOOT_ALT
may name, also where an FLR or a restart of Beryl has stopped the staging: the spec says what the half holds only once it has ended
(log 36). -/
def execSysFwStage (slot : Fin 16) (s : State) : Host.Outcome State Fault Refusal :=
  .next (command 0x0104 3 slot
    (fun s ws => [(wn ws 0 % 4096 != 0, badParam 0),
      (decide (wn ws 2 < 4096 ∨ wn ws 2 > 4194304), badParam 2),
      (s.host.fwStage.isSome, busy), notBoot s, completionsFull s])
    (fun tag ws s =>
      let s1 := outstand 0x0104 tag 0 s
      done (readHost (wn64 ws 0) (wn ws 2)
        { s1 with host := { s1.host with fwStage := some (tag, BitVec.ofNat 64 (wn64 ws 0), wd ws 2) } }, accepted)) s)

/-- FW_VERSION of an image: its bits [31:24] are reserved and 0 (R38). -/
def imageFwVersion (image : List Byte) : Word := Config.imageVersion image &&& 0xFFFFFF

/-- An image verifies (R72, R547); a half marked empty holds none. -/
def imageGood (image : List Byte) : Bool := !image.isEmpty && Config.signatureOk image

/-- SYS_FW_STAGE_DONE (R72): the LENGTH bytes of the image as fetched, and whether the QSPI write and read-back succeeded. The image goes into the
half that is not active; in both failure cases that half is marked empty. -/
def execSysFwStageDone (image : List Byte) (writeOk : Bool) (s : State) : Host.Outcome State Fault Refusal :=
  .next (match s.host.fwStage with
    | none => s
    | some (tag, _, n) =>
      if image.length ≠ n.toNat then s else
      let good := imageGood image && writeOk
      let v := imageFwVersion image
      let s1 := { s with host := { s.host with
        fwStage := none, stagedImage := if good then some v else none
        qspi := upd s.host.qspi (b2n !s.host.activeHalf) fun _ => some (if good then image else []) } }
      let st := if !imageGood image then 0x41 else if !writeOk then 0x30 else 0
      complete 0x0104 tag st (if good then v else 0) 0 0 s1)

end Sys2Proof.Machine
end

