-- ==== Sys2Proof/Machine/Onyx.lean ====
section
/-!
DEFINITION. Onyx, the safety supervisor (R448 to R475): permissions, gates, energy sums, axis checks, watchdog, clock and
supply checks, and its commands but those that enter or leave SAFE.
-/
namespace Sys2Proof.Machine

/-! ## Main-side conditions -/

/-- Main-side conditions of permissions 1 to 4 (R453). -/
def mainCondition (p : Nat) (s : State) : Bool :=
  let e := cell s.pos.encs 0 {}
  if p = 1 then e.mode != 0 && !e.fault && !e.dir && s.pos.agree && decide (e.speed ≥ (s.onyx.cfg.vMin : Int))
  else if p = 2 then (cell s.axes.ax 1 {}).capConf
  else if p = 3 then !s.pwr.brownout
  else s.host.opState != .safe

/-- The main side takes its grants from its conditions; SUPPLY returns only through PWR_RESUME (R541), so here it is only
withdrawn. -/
def mainPermissions (s : State) : State :=
  let s1 := setPermission 1 1 (mainCondition 1 s) s
  let s2 := setPermission 1 2 (mainCondition 2 s1) s1
  let s3 := setPermission 1 3 (mainCondition 3 s2) s2
  setPermission 1 4 (mainCondition 4 s3) s3

/-! ## Onyx conditions -/

/-- Speed of an encoder in µm/s from the net edges of 16 ms (R454): N16 × SCALE ÷ 16 ms, SCALE in nm as u16.16. DEDUCED:
the fraction is dropped towards minus infinity (log 12). -/
def onyxSpeed (edges : List Int) (scale : Nat) : Int := (edges.sum * (scale : Int)) / (65536 * 16)

/-- The conditions of WEB in one tick (R454). -/
def webCondition (present : Bool) (s0 s1 : Int) (c : OnyxCfg) : Bool :=
  present && decide (s0 ≥ c.vMin) && decide (s1 ≥ c.vMin) &&
  decide (|s0 - s1| * 20 ≤ max s0 s1)

/-- The conditions of CAP (R453): CAP_SW active for 10 ms, both last good Onyx positions no older than 20 ms and inside their
windows. -/
def capCondition (o : Onyx) : Bool :=
  let a0 := cell o.abs 0 {}
  let a1 := cell o.abs 1 {}
  decide (o.capSwMs ≥ 10) && decide (a0.age ≤ 20) && decide (a1.age ≤ 20) &&
  decide (o.cfg.cap0Lo ≤ a0.pos) && decide (a0.pos ≤ o.cfg.cap0Hi) &&
  decide (o.cfg.cap1Lo ≤ a1.pos) && decide (a1.pos ≤ o.cfg.cap1Hi)

/-- The permissions firing needs in the present state (R453). -/
def firingNeeds (op : OpState) : List Nat :=
  if op = .service then [2, 3, 4] else [1, 3, 4]

/-- Onyx grants what the present state needs. -/
def onyxGrants (s : State) : Bool := (firingNeeds s.host.opState).all fun p => s.onyx.permOnyx.getLsbD (p - 1)

/-- Both sides grant what the present state needs (R453). -/
def bothGrant (s : State) : Bool := (firingNeeds s.host.opState).all fun p => s.permits p

/-- A grant that stands lets the gates reopen at the next line boundary (R456). -/
def noteGrant (s : State) : State :=
  { s with onyx := { s.onyx with gateReopen := onyxGrants s && !s.onyx.gateOpen && !s.onyx.tripped } }

/-- R457: CAP withdrawn in SERVICE. While a spit run fires, its next line clock ends it; else the unit goes to READY at
once, forced. -/
def serviceCheck (s : State) : State :=
  if s.host.opState = .service ∧ ¬ s.permits 2 ∧ s.fire.spit.isNone then
    setOpState .ready true { s with host := { s.host with firing := false } }
  else s

/-- Holds an axis enable low while Onyx does not know its position, and gives it back once it does (R459). -/
def axisKnown (a : Nat) (s : State) : State :=
  let known := (cell s.onyx.abs a {}).known
  let why := cell s.onyx.axRemoved a 0
  if !known && why = 0 then
    setAxisEnable a false 2 { s with onyx := { s.onyx with axRemoved := upd s.onyx.axRemoved a (fun _ => 2) } }
  else if known && why = 2 && s.host.opState != .boot then
    setAxisEnable a true 2 { s with onyx := { s.onyx with axRemoved := upd s.onyx.axRemoved a (fun _ => 0) } }
  else if known && why = 0 && s.host.opState != .boot && !(cell s.axes.ax a {}).enabled then
    setAxisEnable a true 2 s
  else s

/-- The encoder part of a tick: edges in the configured forward order, the two speeds, and WEB after 3 ticks that meet its
conditions (R454). -/
def tickWeb (e0 e1 : Int) (present : Bool) (s : State) : State :=
  let o := s.onyx
  let l0 := ((if o.cfg.enc0Fwd then -e0 else e0) :: o.edges0).take 16
  let l1 := ((if o.cfg.enc1Fwd then -e1 else e1) :: o.edges1).take 16
  let v0 := onyxSpeed l0 o.cfg.scale0
  let v1 := onyxSpeed l1 o.cfg.scale1
  let good := webCondition present v0 v1 o.cfg
  let run := if good then min 3 (o.webRun + 1) else 0
  setPermission 2 1 (run ≥ 3) { s with onyx := { o with
    edges0 := l0, edges1 := l1, speed0 := v0, speed1 := v1, webRun := run
    envLost := if present then 0 else o.envLost
    lampLow := if v0 < o.cfg.vLamp ∧ v1 < o.cfg.vLamp then min 50 (o.lampLow + 1) else 0 } }

/-- The lamp enable rises at the first tick in which both speeds reach V_LAMP (R458), in RUN with no trip latched
(R533). -/
def tickLamp (s : State) : State :=
  let o := s.onyx
  if !o.lampPwr && !o.tripped && s.pwr.state == .run && s.host.opState != .boot &&
     decide (o.speed0 ≥ o.cfg.vLamp ∧ o.speed1 ≥ o.cfg.vLamp) then
    emit (.pin "LAMP_PWR_EN" true) { s with onyx := { o with lampPwr := true } }
  else s

/-- The cap part of a tick: CAP_SW time and the ages of the two positions (R453, R459). -/
def tickCap (capSw : Bool) (s : State) : State :=
  let o := s.onyx
  let s1 := { s with onyx := { o with
    capSw := capSw, capSwMs := if capSw then min 10 (o.capSwMs + 1) else 0
    abs := o.abs.map fun a => { a with
      age := min 21 (a.age + 1), known := a.known && decide (a.age + 1 ≤ 20)
      goodRun := if a.age + 1 ≤ 20 then a.goodRun else 0 } } }
  let s2 := setPermission 2 2 (capCondition s1.onyx) s1
  axisKnown 1 (axisKnown 0 s2)

/-- HPWR_FB and the conditions that only Onyx's own monitors show present: LOCKSTEP, CLOCK and SUPPLY. Every other bit of ONYX_ACTIVE follows from what
the unit holds (R472). -/
def tickActive (present : BitVec 17) (hpwrFb : Bool) (s : State) : State :=
  { s with onyx := { s.onyx with active := present &&& 0xE00, hpwrFb := hpwrFb } }

/-- ONYX_TICK (R451, R453, R454, R456, R458, R459): the edges of the last ms in A-leads-B order, whether both encoders are
present, the filtered CAP_SW, HPWR_FB, the trip conditions that are present, and the item the CRC or read-back check finds
wrong. A tick comes each millisecond of AON time. -/
def execOnyxTick (edges0 edges1 : Int) (encPresent capSw hpwrFb : Bool) (present : BitVec 17) (failedItem : Option Nat)
    (s : State) : Host.Outcome State Fault Refusal :=
  if !s.aonDue s.onyx.tickAt 1000000 then .next s else
  let s0 := { s with onyx := { s.onyx with tickAt := s.pos.mono } }
  let s1 := tickLamp (tickCap capSw (tickWeb edges0 edges1 encPresent s0))
  let s2 := setPermission 2 3 (s1.pwr.coreStable && !s1.pwr.warnNow) s1
  let s3 := setPermission 2 4 (!s2.onyx.tripped) s2
  let s4 := tickActive present hpwrFb (mainPermissions s3)
  let s5 := serviceCheck (noteGrant s4)
  .next (match failedItem with
    | some i => latchTrip 15 (w32 i) { s5 with onyx := { s5.onyx with selfTestOk := false } }
    | none => s5)

/-- ONYX_ENVELOPE_LOSS (R454): WEB is withdrawn at once. -/
def execOnyxEnvelopeLoss (enc : Fin 2) (s : State) : Host.Outcome State Fault Refusal :=
  .next (setPermission 2 1 false { s with onyx := { s.onyx with
    envLost := s.onyx.envLost ||| (1#2 <<< (enc : Nat)), webRun := 0 } })

/-- 100 µs have passed since Onyx withdrew a permission that the present state needs and that it has not granted again (R456). -/
def gateDue (s : State) : Bool := (firingNeeds s.host.opState).any fun p =>
  !s.onyx.permOnyx.getLsbD (p - 1) && s.aonDue (cell s.onyx.wdrAt (p - 1) 0) 100000

/-- ONYX_GATE_CLOSE (R456): 100 µs after Onyx's own withdrawal without a new grant. -/
def execOnyxGateClose (s : State) : Host.Outcome State Fault Refusal :=
  .next (if !gateDue s then s else { s with onyx := { s.onyx with gateOpen := false, gateReopen := false } })

/-! ## Dual energy check -/

/-- The sums held for a fire line and module. -/
def Onyx.sumOf (o : Onyx) (fire mod : Nat) : Option ESum := o.sums.find? fun e => e.fire == fire && e.mod == mod

/-- Puts sums in, keeping 16 fire lines per module (R460). DEDUCED: counted back from the last line whose own sums E_F and E_W are there, since E_G of
later lines comes ahead of them (log 12). -/
def Onyx.putSum (o : Onyx) (e : ESum) : List ESum :=
  let l := e :: o.sums.filter fun x => !(x.fire == e.fire && x.mod == e.mod)
  let last := ((l.filter fun x => x.mod == e.mod && x.eFW.isSome).map (·.fire)).foldl max 0
  l.filter fun x => x.mod != e.mod || decide (last < x.fire + 16)

/-- A sum arrives and is compared (R460): E_F above E_MAX is ENERGY_LIMIT, a difference from E_G is ENERGY_MISMATCH; in one
tick the lower code becomes the cause (R466). -/
def onyxSum (mod fire : Nat) (eG : Option Word) (eFW : Option (Word × Word)) (s : State) : State :=
  let old := (s.onyx.sumOf fire mod).getD { fire := fire, mod := mod }
  let e : ESum := { old with eG := eG.or old.eG, eFW := eFW.or old.eFW }
  let s1 := { s with onyx := { s.onyx with sums := s.onyx.putSum e } }
  let s2 := match e.eG, e.eFW with
    | some g, some (f, w) => if f + w ≠ g then latchTrip 1 (w32 mod) s1 else s1
    | _, _ => s1
  match eFW with
  | some (f, _) => if f > s.onyx.cfg.eMax then latchTrip 3 (w32 mod) s2 else s2
  | none => s2

/-- ONYX_ENERGY_SUM (R460): E_G from Garnet, or E_F and E_W from the fire timing generator, as Onyx receives them; the fire
line is on the count that commits do not rebase. -/
def execOnyxEnergySum (mod : Fin 16) (fire : Nat) (eG : Option Word) (eFW : Option (Word × Word)) (s : State) :
    Host.Outcome State Fault Refusal := .next (onyxSum mod fire eG eFW s)

/-- The boundary's check (R460): E_F and E_W of fire line F, whose content the generator has taken for these modules, must have arrived by boundary
F + 2. -/
def sumsMissing (boundary : Nat) (s : State) : State :=
  if boundary < 2 then s else
    ((s.fire.hdr.filter fun h => h.1.1 == boundary - 2).map (·.1.2)).foldl (fun s m =>
      if ((s.onyx.sumOf (boundary - 2) m).bind (·.eFW)).isNone then latchTrip 2 (w32 m) s else s) s

/-- A marker presented at a lane's transmitter (R456, R460, R461 codes 2, 5 and 7): whether it leaves, and what its presenting
does. Every cause that applies latches, the lowest code first (R466). -/
def presentMarker (m fire : Nat) (s : State) : Bool × State :=
  let o := s.onyx
  let gArrived := match o.sumOf fire m with
    | some e => e.eG.isSome
    | none => false
  let l := s.lane m
  if o.tripped then (false, s)
  else if !o.gateOpen then (false, stickRec .gateHeld s)
  else
    let stale := l.statusSeq.isNone || decide (s.pos.mono.toNat > l.statusTime.toNat + 40000)
    let s1 := if gArrived then s else latchTrip 2 (w32 (m + 16)) s
    let s2 := if stale then latchTrip 5 (w32 m) s1 else s1
    let s3 := if l.higherRun ≥ 8 then latchTrip 7 (w32 m) s2 else s2
    (!s3.onyx.tripped, s3)

/-- The levels on HPWR_EN_A (whether it toggles), HPWR_EN_B, SAFE_OK, AX0_EN, AX1_EN and LAMP_PWR_EN (R450, R452): none is high impedance, as in chip
reset, which the hold of VDD_AON below 0.675 V is part of. -/
def safetyPins (s : State) : List (Option Bool) :=
  let o := s.onyx
  [o.hpwrA, o.hpwrB, o.safeOk, (cell s.axes.ax 0 {}).enabled, (cell s.axes.ax 1 {}).enabled, o.lampPwr].map fun x =>
    if s.pwr.inReset ∨ s.pwr.porHeld then none else some x

/-! ## Lamps and axes -/

/-- ONYX_LAMP_OFF (R458, R464 step 9): both speeds below V_LAMP for 50 ms, or 1.0 ms after a trip. -/
def execOnyxLampOff (s : State) : Host.Outcome State Fault Refusal :=
  .next (if s.onyx.lampPwr ∧ (s.onyx.lampLow ≥ 50 ∨ (s.onyx.tripped ∧ s.aonDue s.onyx.tripAt 1000000)) then
    stickRec .lampOff (emit (.pin "LAMP_PWR_EN" false) { s with onyx := { s.onyx with lampPwr := false } })
  else s)

/-- The web counts as still for Onyx (R459). -/
def onyxStill (o : Onyx) : Bool := decide (|o.speed0| < 10000) && decide (|o.speed1| < 10000)

/-- A position lies on the downward side of LIFT_GUARD (R459, R475). -/
def belowGuard (o : Onyx) (p : Word) : Bool :=
  if o.cfg.liftUpRising then decide (p < o.cfg.liftGuard) else decide (p > o.cfg.liftGuard)

/-- How far down a move from p to q goes, in counts. -/
def downBy (o : Onyx) (p q : Word) : Int :=
  if o.cfg.liftUpRising then (p.toNat : Int) - q.toNat else (q.toNat : Int) - p.toNat

/-- A forbidden motion of an axis within 10 ms (R459): to position p from one of those read before. -/
def axisMoves (a : Nat) (p : Word) (hist : List (Dword × Word)) (o : Onyx) : Bool :=
  !onyxStill o && belowGuard o (cell o.abs 0 {}).pos && hist.any fun h =>
    if a = 0 then decide (downBy o h.2 p > o.cfg.axTol) else decide (|(h.2.toNat : Int) - p.toNat| > o.cfg.axTol)

/-- The positions read in the last 10 ms. -/
def lately (now : Dword) (hist : List (Dword × Word)) : List (Dword × Word) := hist.filter fun h => decide (now.toNat ≤ h.1.toNat + 10000000)

/-- Onyx takes a read of an ABS port (R459): `good` holds bits [31:0] of a position whose CRC Onyx found right. Three failed
reads in a row make the position unknown, three good ones restore the enable; a forbidden motion within 10 ms trips
AXIS. -/
def onyxAbsRead (a : Nat) (good : Option Word) (s : State) : State :=
  let o := s.onyx
  let x := cell o.abs a {}
  match good with
  | none =>
    let run := min 3 (x.badRun + 1)
    axisKnown a { s with onyx := { o with abs := upd o.abs a fun _ =>
      { x with badRun := run, goodRun := 0, known := x.known && decide (run < 3) } } }
  | some p =>
    let run := min 3 (x.goodRun + 1)
    let now := s.pos.mono
    let hist := lately now ((now, p) :: x.hist)
    let known := x.known || decide (run ≥ 3)
    let s1 := axisKnown a { s with onyx := { o with abs := upd o.abs a fun _ =>
      { x with pos := p, hist := hist, badRun := 0, goodRun := run, age := 0, known := known } } }
    let o1 := s1.onyx
    if axisMoves a p hist o1 then
      let s2 := setAxisEnable a false 1 { s1 with onyx := { o1 with
        axRemoved := upd o1.axRemoved a (fun _ => 1), removedAt := upd o1.removedAt a (fun _ => now) } }
      latchTrip 13 (w32 a) s2
    else s1

/-- ONYX_AXIS_RESTORE (R459): 100 ms after a trip removed an enable it is restored, unless the position is unknown. -/
def execOnyxAxisRestore (axis : Fin 2) (s : State) : Host.Outcome State Fault Refusal :=
  .next (if cell s.onyx.axRemoved axis 0 = 1 ∧ s.aonDue (cell s.onyx.removedAt axis 0) 100000000 then
    if (cell s.onyx.abs axis {}).known then
      setAxisEnable axis true 1 { s with onyx := { s.onyx with axRemoved := upd s.onyx.axRemoved axis (fun _ => 0) } }
    else { s with onyx := { s.onyx with axRemoved := upd s.onyx.axRemoved axis (fun _ => 2) } }
  else s)

/-! ## Watchdog, clocks, supplies -/

/-- Onyx restarts Beryl (R53, R462): event 0x0D04 with the count of restarts without a kick. -/
def onyxRestart (s : State) : State :=
  let n := s.onyx.wdogRestarts + 1
  berylRestart (stickEvent .wdogRestart { ev := .berylRestart, p0 := w32 n }
    { s with onyx := { s.onyx with
      wdogRestarts := n, wdogRunning := false, wdogNext := 0x5A, restartDue := false, kickAt := s.pos.mono } })

/-- A WATCHDOG trip (R462, R466): SAFE is entered before Beryl restarts; where a trip is latched and SAFE in force already, the
restart begins at once. -/
def wdogTrip (param : Nat) (s : State) : State :=
  let s1 := latchTrip 8 (w32 param) { s with onyx := { s.onyx with wdogRunning := false, wdogNext := 0x5A } }
  if s1.onyx.reacting then { s1 with onyx := { s1.onyx with restartDue := true } } else onyxRestart s1

/-- An interval in µs of AON time agrees with MONO_TIME since the last kick, to the 2 % of the AON clock (R449, R462). -/
def aonInterval (interval : Nat) (s : State) : Bool :=
  let ns := s.since s.onyx.kickAt
  decide (98 * ns ≤ 100000 * (interval + 1)) && decide (100000 * interval ≤ 102 * ns)

/-- ONYX_WDOG_KICK (R462): the value and the µs of AON time since the previous kick. The first kick starts the watchdog; an interval that the time
passed rules out names no kick. -/
def execOnyxWdogKick (value : Byte) (interval : Nat) (s : State) : Host.Outcome State Fault Refusal :=
  let o := s.onyx
  let next : Byte := if value = 0x5A then 0xA5 else 0x5A
  .next (
    if !o.wdogRunning then
      if value ≠ o.wdogNext then wdogTrip 3 s
      else { s with onyx := { o with wdogRunning := true, wdogNext := next, wdogRestarts := 0, kickAt := s.pos.mono } }
    else if !aonInterval interval s then s
    else
      let s1 := { s with onyx := { o with wdogLast := BitVec.ofNat 16 interval, kickAt := s.pos.mono } }
      if interval < 750 then wdogTrip 1 s1
      else if interval > 1250 then wdogTrip 2 s1
      else if value ≠ o.wdogNext then wdogTrip 3 s1
      else { s1 with onyx := { s1.onyx with wdogNext := next } })

/-- ONYX_WDOG_TIMEOUT (R462): no kick by 1,250 µs trips; no first kick within 2,000 ms of a restart restarts Beryl again, and
after 3 restarts without a kick Beryl is held in reset. -/
def execOnyxWdogTimeout (s : State) : Host.Outcome State Fault Refusal :=
  .next (
    if s.pwr.inReset ∨ s.onyx.berylHeld ∨ !s.aonDue s.onyx.kickAt (if s.onyx.wdogRunning then 1250000 else 2000000000) then s
    else if s.onyx.wdogRunning ∨ s.onyx.wdogRestarts = 0 then wdogTrip 2 s
    else if s.onyx.wdogRestarts ≥ 3 then
      stickRec .berylHeld { s with onyx := { s.onyx with berylHeld := true }
                                   host := { s.host with mbxReady := false, berylRunning := false } }
    else onyxRestart s)

/-- Notes a cause's condition as present (R472). -/
def activeNow (cause : Nat) (s : State) : State :=
  { s with onyx := { s.onyx with active := s.onyx.active ||| (1#17 <<< cause) } }

/-- ONYX_CLOCK_CHECK (R463): 940 to 1,060 ENC clocks in 5 µs of AON time. -/
def execOnyxClockCheck (count : Nat) (s : State) : Host.Outcome State Fault Refusal :=
  .next (if 940 ≤ count ∧ count ≤ 1060 then s else latchTrip 10 1 (activeNow 10 s))

/-- AON_CLOCK_CHECK (R463): 117 to 133 AON clocks in 1,000 ENC clocks. -/
def execAonClockCheck (count : Nat) (s : State) : Host.Outcome State Fault Refusal :=
  .next (if 117 ≤ count ∧ count ≤ 133 then s else latchTrip 10 2 (activeNow 10 s))

/-- SUPPLY_FAULT (R463): the rail in the row order of R463. -/
def execSupplyFault (rail : Fin 7) (s : State) : Host.Outcome State Fault Refusal :=
  .next (latchTrip 11 (w32 rail) (activeNow 11 s))

/-- DIE_TEMP_TRIP (R461): TJ at or above 125 °C for 1 ms. -/
def execDieTempTrip (tj : Int) (s : State) : Host.Outcome State Fault Refusal :=
  .next (if tj ≥ 125 then latchTrip 12 (wInt tj) (activeNow 12 { s with pwr := { s.pwr with tj := tj, tjMax := max s.pwr.tjMax tj } })
    else { s with pwr := { s.pwr with tj := tj, tjMax := max s.pwr.tjMax tj } })

/-- HPWR_STUCK (R461): HPWR_FB high 1 ms after the own enables fell, or high while they are low. -/
def execHpwrStuck (s : State) : Host.Outcome State Fault Refusal :=
  .next (if s.onyx.hpwrA ∨ s.onyx.hpwrB ∨ !s.aonDue s.onyx.fellAt 1000000 then s
    else latchTrip 14 0 (activeNow 14 { s with onyx := { s.onyx with hpwrFb := true } }))

/-- LOCKSTEP_MISMATCH (R461): a hard trip. -/
def execLockstepMismatch (s : State) : Host.Outcome State Fault Refusal :=
  .next (latchTrip 9 0 (activeNow 9 s))

/-! ## Commands -/

/-- ONYX_T_LIMIT (R461): the lowest T_HEAD_MAX of the fitted heads + 4; 0 while no head has reported (R221).
-/
def onyxTLimit (tHeadMax : Option Nat) : Nat := match tHeadMax with
  | some t => min 255 (t + 4)
  | none => 0

/-- Words 4 to 16 of SAFE_GET_STATUS: the view of R472. -/
def onyxView (tLimit : Nat) (s : State) : List Word :=
  let o := s.onyx
  let hard := o.mask.getLsbD 9 || o.mask.getLsbD 10 || o.mask.getLsbD 15
  let st := b2n o.tripped + 2 * b2n hard + 4 * (o.permMain &&& o.permOnyx).toNat + 64 * o.permMain.toNat +
    1024 * o.permOnyx.toNat + 16384 * b2n o.gateOpen + 2 ^ 15 * b2n o.hpwrA + 2 ^ 16 * b2n o.hpwrB +
    2 ^ 17 * b2n o.safeOk + 2 ^ 18 * b2n o.hpwrFb + 2 ^ 19 * b2n o.lampPwr +
    2 ^ 20 * b2n (cell s.axes.ax 0 {}).enabled + 2 ^ 21 * b2n (cell s.axes.ax 1 {}).enabled +
    2 ^ 22 * b2n o.wdogRunning + 2 ^ 23 * b2n o.berylHeld
  [w32 st, w32 (o.cause + 65536 * o.tripSeq.toNat), w32 o.mask.toNat, w32 o.active.toNat, o.param, o.tripLine,
   wInt o.speed0, wInt o.speed1, w32 tLimit, (cell o.abs 0 {}).pos, (cell o.abs 1 {}).pos, o.trips,
   w32 o.wdogLast.toNat]

/-- The configuration as SAFE_CONFIG's words (R475), over which its CRC runs (R451). -/
def cfgWords (c : OnyxCfg) : List Word :=
  [w32 c.vMin, w32 c.vLamp, w32 c.scale0, w32 c.scale1, c.cap1Lo, c.cap1Hi, c.cap0Lo, c.cap0Hi, c.liftGuard,
   w32 (c.axTol + 65536 * b2n c.liftUpRising + 131072 * b2n c.enc0Fwd + 262144 * b2n c.enc1Fwd), c.eMax]

/-- The configuration a SAFE_CONFIG payload gives (R475). -/
def cfgOf (ws : List Word) : OnyxCfg :=
  { vMin := wn ws 0, vLamp := wn ws 1, scale0 := wn ws 2, scale1 := wn ws 3
    cap1Lo := wd ws 4, cap1Hi := wd ws 5, cap0Lo := wd ws 6, cap0Hi := wd ws 7, liftGuard := wd ws 8
    axTol := fld (wd ws 9) 0 16, liftUpRising := flag (wd ws 9) 16, enc0Fwd := flag (wd ws 9) 17
    enc1Fwd := flag (wd ws 9) 18, eMax := wd ws 10 }

/-- V_MIN ≥ 4 × the edge length in nm (R454); the length is u16.16. -/
def vMinTooLow (vMin scale : Nat) : Bool := decide (vMin * 65536 < 4 * scale)

/-- SAFE_CONFIG (R475). -/
def execSafeConfig (slot : Fin 16) (s : State) : Host.Outcome State Fault Refusal :=
  .next (command 0x0D01 11 slot
    (fun s ws => [(decide (wn ws 0 < 50000 ∨ wn ws 0 > 5000000) || vMinTooLow (wn ws 0) (wn ws 2) || vMinTooLow (wn ws 0) (wn ws 3),
        badParam 0),
      (decide (wn ws 1 < 1000 ∨ wn ws 1 > 1000000), badParam 1),
      (fld (wd ws 9) 0 16 == 0, badParam 9), reservedW ws 9 0x7FFFF,
      (s.host.firing, badState)])
    (fun _ ws s =>
      let c := cfgOf ws
      done ({ s with onyx := { s.onyx with cfg := c, cfgCrc := w32 (crc32c (wordBytes (cfgWords c))) } }, ok)) s)

/-- SAFE_TRIP (R474): cause HOST; the response is written once SAFE is in force. -/
def execSafeTrip (slot : Fin 16) (s : State) : Host.Outcome State Fault Refusal :=
  .next (command 0x0D03 0 slot (fun s _ => [notBoot s])
    (fun _ _ s =>
      if s.host.opState = .safe then (latchTrip 16 0 s, some ok)
      else (latchTrip 16 0 { s with onyx := { s.onyx with tripSlot := some slot } }, none)) s)

end Sys2Proof.Machine
end

