-- ==== Sys2Proof/Machine/Pos.lean ====
section
/-!
DEFINITION. Encoders, the 32.18 position, direction, speed, index pulses, agreement and the emulation output (R317 to R331, R355 to
R357).
-/
namespace Sys2Proof.Machine

/-! ## Samples -/

/-- Encoder k. -/
def Pos.enc (p : Pos) (k : Nat) : Enc := cell p.encs k {}

/-- Changes encoder k. -/
def setEnc (k : Nat) (f : Enc → Enc) (s : State) : State := { s with pos := { s.pos with encs := upd s.pos.encs k f } }

/-- An encoder counts: it is not OFF and has no SIGNAL fault (R319, R321). -/
def Enc.counting (e : Enc) : Bool := e.mode != 0 && !e.fault

/-- The digital filter of R320: a new level counts once it has lasted FILTER_N consecutive ENC clocks. -/
def filterStep (n : Nat) (f : Bool × Nat) (x : Bool) : Bool × Nat :=
  if x = f.1 then (x, 0) else if n ≤ f.2 + 1 then (x, 0) else (f.1, f.2 + 1)

/-- Filtered level of A (0), B (1) or Z (2). -/
def Enc.level (e : Enc) (i : Nat) : Bool := (cell e.filt i (false, 0)).1

/-- Place of filtered A and B in the quadrature order in which A leads B. -/
def Enc.quad (e : Enc) : Nat := match e.level 0, e.level 1 with
  | false, false => 0
  | true, false => 1
  | true, true => 2
  | false, true => 3

/-- Counts of one filtered sample of A and B (R317, R319): both changing at once leaves the count unchanged. -/
def quadCounts (a b : Nat) : Int := match (b + 4 - a) % 4 with
  | 1 => 1
  | 3 => -1
  | _ => 0

/-- One ENC clock of the tracks of an ABZ encoder: with the counts so far. -/
def Enc.clock (x : Enc × Int) (l : Bool × Bool × Bool) : Enc × Int :=
  let e := { x.1 with filt := [filterStep x.1.filterN (cell x.1.filt 0 (false, 0)) l.1, filterStep x.1.filterN (cell x.1.filt 1 (false, 0)) l.2.1,
                               filterStep x.1.filterN (cell x.1.filt 2 (false, 0)) l.2.2] }
  (e, x.2 + quadCounts x.1.quad e.quad)

/-- The way from one angle to another, in steps: the shorter one (R318, R319). -/
def angleStep (a b : Nat) : Int := ((((b : Int) - a) + 2048) % 4096) - 2048

/-- What the inputs of encoder k come to in one sample (R317 to R320): its filters, its angle and its count change, positive where A leads B. The
correction of R318 goes on adapting while AUTO_CORR is 1 and keeps its state while it is 0; what it does to an angle is a free value (log 16). -/
def Enc.front (k : Nat) (inp : EncIn) (e : Enc) : Enc × Int := match inp with
  | .count d => ({ e with zRise := none }, d)
  | .pins l =>
    let r := l.foldl Enc.clock (e, 0)
    ({ r.1 with zRise := some (r.1.level 2 && !e.level 2) }, if e.mode = 2 then r.2 else 0)
  | .tracks sine cosine z =>
    let e1 := { e with filt := upd e.filt 2 fun f => z.foldl (filterStep e.filterN) f }
    let angle := Config.encAngle k e.corrNo sine cosine % 4096
    ({ e1 with phase := some angle, corrNo := if e.autoCorr then e.corrNo + 1 else e.corrNo, zRise := some (e1.level 2 && !e.level 2) },
     match e.phase with
     | some p => if e.mode = 1 then angleStep p angle else 0
     | none => 0)

/-- The window of R324: the smallest of 16, 32, … 1,024 samples over which the count changed by at least 4,096, or 1,024. -/
def Enc.window (e : Enc) : Nat :=
  (([16, 32, 64, 128, 256, 512].find? fun n => decide (4096 ≤ |(e.hist.take n).sum|))).getD 1024

/-- SPEED in µm/s, truncated towards zero (R324). -/
def Enc.speedNow (e : Enc) : Int :=
  let n := e.window
  Int.tdiv ((e.hist.take n).sum * (e.scale : Int) * 1000000) (65536 * (n : Int) * 50)

/-- An encoder after one sample of d counts (R322 to R324, R326, R328). -/
def Enc.sample (d : Int) (e : Enc) : Enc :=
  if !e.counting then { e with speedValid := false } else
    let e1 := { e with
      count := e.count + wInt d
      hist := (d :: e.hist).take 1024
      dirExt := if e.dir then max 0 (e.dirExt + d) else max 0 (e.dirExt - d)
      sinceIndex := e.sinceIndex + d
      winCount := e.winCount + d }
    { e1 with speed := e1.speedNow, speedValid := decide (16 ≤ e1.hist.length) }

/-- T_s as a raw 24.8 value in 312.5 ps (R324). -/
def tS (n : Nat) (dp : Int) : Word :=
  if dp ≤ 0 then 0xFFFFFFFF else
    let t := roundHalfUp ((n * 160 * 2 ^ 26 : Nat) : Int) dp.toNat
    if t > 0xFFFFFFFF then 0xFFFFFFFF else wInt t

/-- One 5 ns step of the two time scales times n (R342, R584). -/
def Pos.clock (n : Nat) (p : Pos) : Pos :=
  { p with
    mono := p.mono + BitVec.ofNat 64 (5 * n)
    net := p.net + BitVec.ofInt 96 ((n : Int) * (5 * 2 ^ 32 + p.rateAdj)) }

/-- The emulation output follows ENC0 (R330): one output count per ENCO_RATIO counts, one edge per two samples at most. -/
def Pos.enco (d : Int) (p : Pos) : Pos :=
  if !p.encoEnable ∨ p.encoRatio = 0 then { p with encoRem := 0, encoTgt := p.encoCount, encoWait := false } else
    let r := p.encoRem + d * 65536
    let tgt := p.encoTgt + r / (p.encoRatio : Int)
    let p1 := { p with encoRem := r % (p.encoRatio : Int), encoTgt := tgt }
    if p.encoWait ∨ tgt = p.encoCount then { p1 with encoWait := false }
    else { p1 with encoCount := if tgt > p.encoCount then p.encoCount + 1 else p.encoCount - 1, encoWait := true }

/-- ENCO_STATE.LAG (R353). -/
def Pos.encoLag (p : Pos) : Nat := min 0xFFFF (p.encoTgt - p.encoCount).natAbs

/-- The present position as a raw 32.18 number (R10, R25). -/
def Pos.raw (p : Pos) : Nat := p.acc.toNat >>> 30

/-- A count change in an encoder's forward order (R322): A leads B, or B leads A with FWD_SENSE. -/
def Enc.forward (e : Enc) (d : Int) : Int := if e.fwdSense then -d else d

/-- One sample (R25, R317, R324): 50 ns pass on both time scales, both encoders count, and ENC0 moves the accumulator by Δ × LINE_STEP. -/
def sample1 (s : State) (x : EncIn × EncIn) : State :=
  let p := s.pos.clock 10
  let a := (p.enc 0).front 0 x.1
  let b := (p.enc 1).front 1 x.2
  let f0 := a.1.forward a.2
  let d0 := if a.1.counting then f0 else 0
  let e0 := a.1.sample f0
  let e1 := b.1.sample (b.1.forward b.2)
  let acc := p.acc + BitVec.ofInt 80 (d0 * (s.cg.lineStep.toNat : Int))
  let p1 := { p with encs := [e0, e1], acc := acc }
  if !e0.counting then { s with pos := p1 } else
    let dp := sx 50 (p1.raw + 2 ^ 50 - p.raw)
    let hist := (dp :: p.posHist).take 1024
    let n := e0.window
    { s with pos := { p1.enco d0 with posHist := hist, tS := tS n (hist.take n).sum } }

/-- The samples a row brings (R317). -/
def advance (samples : Samples) (s : State) : State := samples.foldl sample1 s

/-- The main side judges its permissions again (R453, R455, R457). -/
def mainUpdate (s : State) : State := serviceCheck (noteGrant (mainPermissions s))

/-- The last sample moved ENC0 forward (+), back (-) or not at all (0). -/
def Pos.motion (p : Pos) : Int := (p.enc 0).hist.headD 0

/-- The web moves (R89). -/
def webMoves (s : State) : Bool := !s.cg.webStopped

/-- d = TARGET - P of a comparator, as a signed 50-bit value (R333). -/
def Cmp.d (c : Cmp) (p : Pos) : Int := sx 50 (c.target.toNat + 2 ^ 50 - p.raw)

/-- ENC clocks until a target at distance d is reached (R333); 0 while T_s gives no rate. DEDUCED for reverse motion (log 24). -/
def clocksTo (d : Int) (p : Pos) : Nat :=
  if p.tS = 0xFFFFFFFF then 0 else (roundHalfUp (|d| * (p.tS.toNat : Int)) (2 ^ 30)).toNat

/-- ENC clocks from the sample to a comparator's action (R333); none where fire-now issues it at the sample (R334). -/
def Cmp.clocks (c : Cmp) (p : Pos) : Nat := if c.now then 0 else clocksTo (c.d p) p

/-- The next line boundary is due (R11, R27, R327): the accumulator with the pending correction has passed into the line after the highest
reached. -/
def boundaryDue (p : Pos) : Bool :=
  decide (0 ≤ sx 80 ((p.acc.toNat : Int) + p.corr - (p.high.toNat + 1 : Int) * 2 ^ 48 + 2 ^ 82).toNat) &&
  (p.enc 0).counting

/-! ## Signal faults, overfrequency, quadrature errors -/

/-- ENC_SIGNAL_FAULT (R319, R321). -/
def execEncSignalFault (enc : Fin 2) (s : State) : Host.Outcome State Fault Refusal :=
  let e := s.pos.enc enc
  .next (if e.mode = 0 ∨ e.fault then s else
    let s1 := setEnc enc (fun e => { e with fault := true, faultAt := s.pos.mono, speedValid := false, indexValid := false, sinceIndex := 0, missing := false }) s
    mainUpdate (stickEvent (if (enc : Nat) = 0 then .enc0Signal else .enc1Signal)
      { ev := .encFault, source := 0x30 + enc, p0 := w32 enc } s1))

/-- ENC_RECOVERED (R321): valid for 1 ms; the windows of R324 start again. -/
def execEncRecovered (enc : Fin 2) (s : State) : Host.Outcome State Fault Refusal :=
  .next (if !(s.pos.enc enc).fault ∨ s.since (s.pos.enc enc).faultAt < 1000000 then s else
    let s1 := setEnc enc (fun e => { e with fault := false, hist := [] }) s
    let s2 := if (enc : Nat) = 0 then { s1 with pos := { s1.pos with posHist := [] } } else s1
    mainUpdate (event { ev := .encRecovered, source := 0x30 + enc, p0 := w32 enc } s2))

/-- OVERFREQ (R319). -/
def execOverfreq (enc : Fin 2) (s : State) : Host.Outcome State Fault Refusal :=
  let e := s.pos.enc enc
  .next (if e.mode ≠ 1 ∨ e.overfreq then s else stickRec (source := 0x30 + enc) .overfreq (setEnc enc (fun e => { e with overfreq := true }) s))

/-- OVERFREQ_CLEAR (R319). -/
def execOverfreqClear (enc : Fin 2) (s : State) : Host.Outcome State Fault Refusal :=
  .next (setEnc enc (fun e => { e with overfreq := false }) s)

/-- QUAD_ERR (R319): the count stays. -/
def execQuadErr (enc : Fin 2) (s : State) : Host.Outcome State Fault Refusal :=
  let e := s.pos.enc enc
  .next (if e.mode ≠ 2 ∨ e.fault then s else
    stickRec (source := 0x30 + enc) .quadErr (setEnc enc (fun e => { e with quadErrors := satAdd e.quadErrors 1 }) s))

/-! ## Direction, index, agreement -/

/-- DIRECTION (R323): the count has moved DIR_HYST from its extreme. -/
def execDirection (enc : Fin 2) (samples : Samples) (s : State) : Host.Outcome State Fault Refusal :=
  let s1 := advance samples s
  let e := s1.pos.enc enc
  .next (if e.counting ∧ e.dirExt ≥ (e.dirHyst : Int) then
    let new := !e.dir
    let s2 := setEnc enc (fun e => { e with dir := new, dirExt := 0 }) s1
    let ev : Event := { ev := .direction, source := 0x30 + enc, p0 := w32 enc, p1 := w32 (b2n new), p2 := s1.line }
    mainUpdate (if (enc : Nat) = 0 && new then stickEvent .reverse ev s2 else event ev s2)
  else mainUpdate s1)

/-- The deviation of an index at count C (R325): dev = (C - REF) - n × INDEX_COUNTS, with n the nearest whole number of periods. -/
def indexDev (c ref : Word) (counts : Nat) : Int :=
  let d := sx 32 (c - ref).toNat
  d - roundHalfUp d counts * (counts : Int)

/-- ENC_INDEX (R325 to R327): the first sample in which filtered Z is high; a sample that brings the level of Z decides whether it is one. -/
def execEncIndex (enc : Fin 2) (samples : Samples) (s : State) : Host.Outcome State Fault Refusal :=
  let s1 := advance samples s
  let e := s1.pos.enc enc
  .next (if !e.counting ∨ e.dir ∨ e.indexCounts = 0 ∨ e.zRise = some false then mainUpdate s1
  else if !e.indexValid then
    mainUpdate (setEnc enc (fun e => { e with indexValid := true, ref := e.count, sinceIndex := 0, missing := false }) s1)
  else
    let dev := indexDev e.count e.ref e.indexCounts
    let s2 := setEnc enc (fun e => { e with dev := wInt dev, sinceIndex := 0, missing := false }) s1
    if |dev| ≤ 2 then
      if dev = 0 then mainUpdate s2 else
        let s3 := setEnc enc (fun e => { e with count := e.count - wInt dev, slips := satAdd e.slips 1 }) s2
        mainUpdate (if (enc : Nat) = 0 then
          { s3 with pos := { s3.pos with corr := s3.pos.corr - dev * (s3.cg.lineStep.toNat : Int), corrOn := true } } else s3)
    else
      let s3 := setEnc enc (fun e => { e with ref := e.count }) s2
      mainUpdate (stickEvent .indexMismatch
        { ev := .indexMismatch, source := 0x30 + enc, p0 := w32 enc, p1 := wInt dev, p2 := s1.line } s3))

/-- INDEX_MISSING (R326): 1.5 × INDEX_COUNTS forward counts without an index, once per run. -/
def execIndexMissing (enc : Fin 2) (samples : Samples) (s : State) : Host.Outcome State Fault Refusal :=
  let s1 := advance samples s
  let e := s1.pos.enc enc
  .next (mainUpdate (if e.counting ∧ e.indexValid ∧ e.indexCounts ≠ 0 ∧ ¬ e.missing ∧ 2 * e.sinceIndex > 3 * (e.indexCounts : Int) then
    stickRec (source := 0x30 + enc) .indexMissing (setEnc enc (fun e => { e with missing := true }) s1)
  else s1))

/-- Count change × SCALE of the 1 ms window, in 2⁻¹⁶ µm/s (R328). -/
def Enc.winSpeed (e : Enc) : Int := e.winCount * (e.scale : Int)

/-- The first condition of R328 in one window. -/
def agreeCondition (e0 e1 : Enc) : Bool :=
  e0.counting && e1.counting && !e0.dir && !e1.dir &&
  decide (20 * |e0.winSpeed - e1.winSpeed| ≤ max |e0.winSpeed| |e1.winSpeed|)

/-- The second condition of R328: both below 0.01 m/s. -/
def slowCondition (e0 e1 : Enc) : Bool :=
  decide (|e0.winSpeed| < 10000 * 65536) && decide (|e1.winSpeed| < 10000 * 65536)

/-- ENC_AGREE_WINDOW (R328): a millisecond has passed. -/
def execEncAgreeWindow (samples : Samples) (s : State) : Host.Outcome State Fault Refusal :=
  let s1 := advance samples s
  let e0 := s1.pos.enc 0
  let e1 := s1.pos.enc 1
  let on := e0.mode != 0 && e1.mode != 0
  let run := if agreeCondition e0 e1 then min 3 (s1.pos.agreeRun + 1) else 0
  let new := on && (decide (run ≥ 3) || slowCondition e0 e1)
  let v0 := Int.tdiv e0.winSpeed 65536
  let v1 := Int.tdiv e1.winSpeed 65536
  let s2 := { s1 with pos := { s1.pos with
    agree := new, agreeRun := run, agreeAt := s1.pos.mono, s0 := v0, s1 := v1
    encs := [{ e0 with winCount := 0 }, { e1 with winCount := 0 }] } }
  .next (mainUpdate (if s1.since s1.pos.agreeAt < 1000000 then s1 else if s1.pos.agree ∧ ¬ new ∧ on then
    stickEvent .encDisagree { ev := .encDisagree, p0 := wInt (Int.tdiv v0 1000), p1 := wInt (Int.tdiv v1 1000) } s2
  else s2))

/-- ENCO_OVERRUN (R330): the output lags by more than 16 counts. -/
def execEncoOverrun (samples : Samples) (s : State) : Host.Outcome State Fault Refusal :=
  let s1 := advance samples s
  .next (mainUpdate (if s1.pos.encoEnable ∧ s1.pos.encoLag > 16 then stickRec .encoOverrun s1 else s1))

/-- ENCO is driven (R331): the chip is out of reset and the IO island, whose output it is (R532), has power. -/
def encoDriven (s : State) : Bool :=
  s.pos.encoEnable && !(s.pos.enc 0).fault && !s.pwr.inReset && (cell s.pwr.islands 3 {}).on

/-- Levels of ENCO_A, ENCO_B and ENCO_Z while they are driven (R330): quadrature in A-leads-B order, Z for one output count at a multiple of
ENCO_Z_COUNTS while A and B are high. DESIGN CHOICE: both tracks are high at counts that are 1 modulo 4, and Z comes with the one
such count among the four from the multiple on (log 16). -/
def encoPins (p : Pos) : Bool × Bool × Bool :=
  let q := (p.encoCount % 4).toNat
  let z := p.encoZ != 0 && q == 1 && decide (p.encoCount % (p.encoZ : Int) < 4)
  (q == 0 || q == 1, q == 1 || q == 2, z)

/-! ## Commands -/

/-- State word of an encoder in the view (R353). -/
def Enc.stateWord (e : Enc) (pending : Bool) : Word :=
  w32 (e.mode + 4 * b2n e.counting + 8 * b2n e.dir + 16 * b2n e.speedValid + 32 * b2n e.indexValid + 64 * b2n e.overfreq +
    128 * b2n pending)

/-- TIME_VALID (R343). -/
def TimeState.valid : TimeState → Bool
  | .locked => true
  | .holdover => true
  | _ => false

/-- Code of a time state (R343). -/
def TimeState.code : TimeState → Nat
  | .freeRun => 0 | .acquiring => 1 | .locked => 2 | .holdover => 3 | .expired => 4

/-- NET_TIME in ns. -/
def Pos.netNow (p : Pos) : Nat := p.net.toNat >>> 32

/-- TIME_ERR_EST in ns (R345): HOLDOVER_PPB × the time since HOLDOVER began. -/
def Pos.errNow (p : Pos) : Nat := match p.holdStart with
  | some t => p.holdPpb * (p.mono - t).toNat / 1000000000
  | none => 0

/-- The 27 registers at 0x000 to 0x068 (R353, R355). -/
def posView (s : State) : List Word :=
  let p := s.pos
  let e0 := p.enc 0
  let e1 := p.enc 1
  [e0.stateWord p.corrOn, e1.stateWord false, e0.count, e1.count, wInt e0.speed, wInt e1.speed, p.tS, w32 (b2n p.agree),
   e0.slips, e1.slips, e0.dev, e1.dev, e0.quadErrors, e1.quadErrors] ++
  words64 s.cg.lineStep.toNat ++ words64 p.netNow ++ words64 p.mono.toNat ++ words64 p.lineTime.toNat ++
  [w32 (p.tState.code + 8 * b2n p.tState.valid + 256 * p.stepGen.toNat), p.offset, w32 (min 0xFFFFFFFF p.errNow),
   w32 (b2n (encoDriven s) + 65536 * p.encoLag), w32 p.fifo.length]

/-- POS_GET_STATUS (R353, R355). -/
def execPosGetStatus (slot : Fin 16) (s : State) : Host.Outcome State Fault Refusal :=
  .next (command 0x0900 1 slot (fun s ws => [reservedW ws 0 1, notBoot s])
    (fun _ ws s =>
      let s1 := if flag (wd ws 0) 0 then { s with pos := { s.pos with
          encs := s.pos.encs.map fun e => { e with slips := 0, quadErrors := 0 }
          abs := s.pos.abs.map fun a => { a with errors := 0 } } } else s
      done (s1, okWith (posView s))) s)

/-- POS_ENC_CONFIG (R328, R355, R356). DEDUCED: the new settings start the windows, the index reference and the fault check afresh
(log 16). -/
def execPosEncConfig (slot : Fin 16) (s : State) : Host.Outcome State Fault Refusal :=
  .next (command 0x0901 3 slot
    (fun s ws => [
      (fld (wd ws 0) 1 2 == 3 || fld (wd ws 0) 8 8 == 0 || fld (wd ws 0) 16 16 == 0, badParam 0), reservedW ws 0 0xFFFFFF1F,
      (decide (wn ws 2 ≠ 0 ∧ (wn ws 2 < 4 ∨ wn ws 2 ≥ 2 ^ 31)), badParam 2), (s.host.firing, badState)])
    (fun _ ws s =>
      let k := fld (wd ws 0) 0 1
      let mode := fld (wd ws 0) 1 2
      let s1 := setEnc k (fun e => { e with
        mode := mode, fwdSense := flag (wd ws 0) 3, autoCorr := flag (wd ws 0) 4, filterN := fld (wd ws 0) 8 8
        dirHyst := fld (wd ws 0) 16 16, scale := wn ws 1, indexCounts := wn ws 2
        fault := false, indexValid := false, sinceIndex := 0, missing := false, hist := [], speed := 0, speedValid := false
        overfreq := false, winCount := 0, phase := none }) s
      let s2 := { s1 with pos := { s1.pos with agree := s1.pos.agree && mode != 0, agreeRun := 0 } }
      done (mainUpdate s2, ok)) s)

/-- POS_ENCO_CONFIG (R330, R355, R357). DEDUCED: counts of ENC0 gathered towards an output count of the old ratio are dropped, so that the output stays
where it is (log 16). -/
def execPosEncoConfig (slot : Fin 16) (s : State) : Host.Outcome State Fault Refusal :=
  .next (command 0x0902 3 slot
    (fun s ws => [reservedW ws 0 1, (decide (wn ws 1 < 65536 ∨ wn ws 1 > 65535 * 65536), badParam 1), notBoot s])
    (fun _ ws s => done ({ s with pos := { s.pos with
      encoEnable := flag (wd ws 0) 0, encoRatio := wn ws 1, encoZ := wn ws 2, encoRem := 0 } }, ok)) s)

end Sys2Proof.Machine
end

