-- ==== Sys2Proof/Machine/AxOps.lean ====
section
/-!
DEFINITION. The axis operations that other units use as well (R363 to R384): the measured position, the sine table, the planner's
limits, the step generator, switch inputs, interlocks, aborts, the control cycle and CAP_CONFIRMED.
-/
namespace Sys2Proof.Machine

/-- A position truncated to signed 32 bits (R363). -/
def wrap32 (i : Int) : Int := (wInt i).toInt

/-- Axis a: 0 LIFT, 1 CAP (R362). -/
def State.axis (s : State) (a : Nat) : Axis := cell s.axes.ax a {}

/-- Changes axis a. -/
def setAxis (a : Nat) (f : Axis → Axis) (s : State) : State := { s with axes := { s.axes with ax := upd s.axes.ax a f } }

/-- MEAS of the last good ABS_POS (R364): 64-bit product, floored shift, 32-bit result. -/
def Axis.measure (x : Axis) (absPos : Nat) : Int := wrap32 (((absPos * x.cfg.absRatio % 2 ^ 64) / 65536 : Nat) + x.offset)

/-! ## Current references (R366) -/

/-- round(1,023 × sin(2π n ÷ 1,024)) for n = 0 to 256 (R366). -/
def sineQuarter : List Nat :=
  [0, 6, 13, 19, 25, 31, 38, 44, 50, 56, 63, 69, 75, 82, 88, 94, 100, 107, 113, 119, 125, 131, 138, 144, 150, 156,
   163, 169, 175, 181, 187, 193, 200, 206, 212, 218, 224, 230, 236, 242, 249, 255, 261, 267, 273, 279, 285, 291,
   297, 303, 309, 315, 321, 327, 333, 339, 345, 351, 356, 362, 368, 374, 380, 386] ++
  [391, 397, 403, 409, 415, 420, 426, 432, 437, 443, 449, 454, 460, 466, 471, 477, 482, 488, 493, 499, 504, 510,
   515, 521, 526, 531, 537, 542, 547, 553, 558, 563, 568, 574, 579, 584, 589, 594, 599, 604, 609, 614, 619, 624,
   629, 634, 639, 644, 649, 654, 659, 663, 668, 673, 678, 682, 687, 692, 696, 701, 705, 710, 714, 719] ++
  [723, 728, 732, 737, 741, 745, 750, 754, 758, 762, 766, 771, 775, 779, 783, 787, 791, 795, 799, 803, 806, 810,
   814, 818, 822, 825, 829, 833, 836, 840, 844, 847, 851, 854, 858, 861, 864, 868, 871, 874, 877, 881, 884, 887,
   890, 893, 896, 899, 902, 905, 908, 911, 914, 917, 919, 922, 925, 927, 930, 933, 935, 938, 940, 943] ++
  [945, 948, 950, 952, 954, 957, 959, 961, 963, 965, 967, 969, 971, 973, 975, 977, 979, 981, 983, 984, 986, 988,
   989, 991, 992, 994, 995, 997, 998, 999, 1001, 1002, 1003, 1005, 1006, 1007, 1008, 1009, 1010, 1011, 1012, 1013,
   1014, 1015, 1015, 1016, 1017, 1017, 1018, 1019, 1019, 1020, 1020, 1021, 1021, 1021, 1022, 1022, 1022, 1023,
   1023, 1023, 1023, 1023, 1023]

/-- |S(n)| of R366. -/
def sineAbs (n : Nat) : Nat :=
  let k := n % 512
  sineQuarter.getD (if k ≤ 256 then k else 512 - k) 0

/-- S(n) is negative. -/
def sineNeg (n : Nat) : Bool := decide (n % 1024 > 512)

/-- DAC code of a phase index (R366). -/
def dacCode (iNow n : Nat) : Nat := (iNow * sineAbs n + 512) / 1024

/-- Index of a phase into S: A leads B by a quarter (R366). -/
def Axis.phaseIndex (x : Axis) (b : Bool) : Nat := if b then x.elec else x.elec + 256

/-! ## Planner (R369, R372) -/

/-- Whether an axis at velocity v and acceleration a can come down to velocity u within distance r, under acceleration limit A and jerk
limit J. All in units of one tick and 10^-15 microstep. -/
def canSlow (v a u r : Rat) (lim jerk : Rat) : Bool :=
  let mag := if a < 0 then -a else a
  let t := mag / jerk
  let w := v - u + a * a / (2 * jerk)
  let q := if a < 0 then r + ((u + w) * t - jerk * t * t * t / 6) else r - (v * t + a * t * t / 2 - jerk * t * t * t / 6)
  if a < 0 ∧ 2 * jerk * (v - u) ≤ a * a then true
  else if w ≤ 0 then true
  else if w * jerk ≥ lim * lim then decide ((u + w / 2) * (w / lim + lim / jerk) ≤ q)
  else decide (0 ≤ q ∧ (2 * u + w) * (2 * u + w) * w ≤ q * q * jerk)

/-- Velocity and acceleration after one tick of stopping from v ≥ 0 within the limits (R372). -/
def brake (v a lim jerk : Int) : Int × Int :=
  let a1 := if a < 0 ∧ 2 * jerk * v ≤ a * a then min 0 (a + jerk) else max (-lim) (a - jerk)
  if v + a1 ≤ 0 then (0, 0) else (v + a1, a1)

/-- One tick of stopping in either direction. -/
def brakeEither (v a lim jerk : Int) : Int × Int :=
  if v < 0 then let p := brake (-v) (-a) lim jerk; (-p.1, -p.2) else brake v a lim jerk

/-- One tick of a motion in the positive direction under a velocity limit, with the distances by which the velocity must be down to given
values (R369). DEDUCED from the worked example: the first of more acceleration, the same, none and less that keeps every
limit (log 25). -/
def planTick (v a vmax lim jerk : Int) (stops : List (Int × Int)) : Int × Int :=
  if v < 0 then let p := brake (-v) (-a) lim jerk; (-p.1, -p.2) else
    let tries := [min lim (a + jerk), a] ++ (if |a| ≤ jerk then [0] else []) ++ [max (-lim) (a - jerk)]
    let fits := fun k : Int =>
      let w := v + k
      decide (0 ≤ w) && decide (2 * jerk * w + (if 0 < k then k * k else 0) ≤ 2 * jerk * vmax) &&
      stops.all fun p => canSlow w k p.2 (p.1 - w) lim jerk
    match tries.find? fits with
    | some k => (v + k, k)
    | none => brake v a lim jerk

/-- Velocity increment of the step generator (R365), from 10^-10 microstep/s. -/
def velInc (v : Int) : Nat := (2 * v.natAbs * 2 ^ 32 + 10 ^ 18) / (2 * 10 ^ 18)

/-- 1,000 clocks of the step generator at a velocity (R365). -/
def Axis.steps (x : Axis) (v : Int) : Axis :=
  let tot : Nat := x.frac + 1000 * velInc v
  let n : Nat := tot / 2 ^ 32
  let d : Int := if v < 0 then -(n : Int) else (n : Int)
  { x with frac := tot % 2 ^ 32, cmd := wrap32 (x.cmd + d), elec := (((x.elec : Int) + d) % 1024).toNat }

/-- Commanded position a number of MOT clocks ago (R377), at the velocity in force. -/
def Axis.cmdBefore (x : Axis) (clocks : Nat) : Int :=
  let inc : Int := ((velInc x.vel * clocks : Nat) : Int)
  if x.vel < 0 then -((-x.cmd * 2 ^ 32 + x.frac - inc) / 2 ^ 32) else (x.cmd * 2 ^ 32 + x.frac - inc) / 2 ^ 32

/-- A distance left in 10^-15 microstep, less the part step already made. -/
def Axis.left (x : Axis) (steps : Nat) : Int := ((steps : Int) * 2 ^ 32 - x.frac) * 10 ^ 15 / 2 ^ 32

/-- Velocity limit of a move in 10^-10 microstep/s (R369). -/
def Axis.limit (x : Axis) (v : Nat) : Int := (if v = 0 then x.cfg.vMax else min v x.cfg.vMax : Nat) * 10 ^ 10

/-- Acceleration limit in 10^-5 microstep/s²: D_MAX for a hard stop, else A_MAX (R372). -/
def Axis.accLim (x : Axis) (hard : Bool) : Int := ((if hard then x.cfg.dMax else x.cfg.aMax) : Nat) * 10 ^ 5

/-- Sign of a number. -/
def sgn (i : Int) : Int := if i < 0 then -1 else if i = 0 then 0 else 1

/-- The next move goes on past the target of one that blends (R369). -/
def Move.goesOn (m : Move) (dir : Int) (rest : List Move) : Bool :=
  match rest with
  | [] => false
  | n :: _ => m.blend && dir != 0 && sgn (n.target - m.target) == dir

/-- The velocities to which the axis must be down, and where, along moves that blend (R369). -/
def Axis.stops (x : Axis) (dir : Int) : List Move → List (Int × Int)
  | [] => []
  | m :: rest =>
    let d := x.left ((m.target - x.cmd) * dir).toNat
    if m.goesOn dir rest then (d, x.limit (rest.headD {}).v) :: x.stops dir rest else [(d, 0)]

/-- Whether the axis can stop at a target ahead of it (R371). -/
def Axis.canStopAt (x : Axis) (target : Int) : Bool :=
  let d := sgn (target - x.cmd)
  decide (0 ≤ x.vel * d) && (x.vel == 0 || d != 0 && x.cfg.jMax != 0 && x.cfg.aMax != 0 &&
    canSlow (x.vel * d) (x.accel * d) 0 (x.left (target - x.cmd).natAbs) (x.accLim false) x.cfg.jMax)

/-! ## Interlocks (R381) -/

/-- Within POS_TOL (R389). -/
def Axes.near (x : Axes) (p q : Int) : Bool := decide (|p - q| ≤ (x.posTol : Int))

/-- The web counts as still for the interlocks. -/
def webStill (s : State) : Bool :=
  s.pos.encs.all (fun e => e.mode != 0 && !e.fault) && decide (|s.pos.s0| < 10000) && decide (|s.pos.s1| < 10000)

/-- CAP is in its park zone: CAP_PARK ± POS_TOL with AX1_HOME active. -/
def capParked (s : State) : Bool :=
  s.axes.near (s.axis 1).meas (cell s.axes.caps 0 0) && (s.axis 1).sw.getLsbD 2

/-- LIFT_PRINT, LIFT_GUARD, LIFT_CLEAR, LIFT_CAP, LIFT_WIPE. -/
def Axes.lift (x : Axes) (i : Nat) : Int := cell x.lifts i 0
/-- CAP_PARK, CAP_CAPPOS, WIPE_START, WIPE_END. -/
def Axes.cap (x : Axes) (i : Nat) : Int := cell x.caps i 0

/-- The interlock that a motion of axis a to `dest` breaks at position `at_` (R381); `stroke`: the wipe stroke. -/
def interlockOf (a : Nat) (at_ dest : Int) (stroke : Bool) (s : State) : Option Nat :=
  let x := s.axes
  let tol : Int := x.posTol
  let capAt := (s.axis 1).meas
  if a = 0 then
    if dest ≥ (s.axis 0).cmd then none
    else if at_ < x.lift 1 ∧ ¬ (webStill s ∧ capParked s) then some 1
    else
      let allowed := (x.near dest (x.lift 3) && x.near capAt (x.cap 1)) || (x.near dest (x.lift 4) && x.near capAt (x.cap 2))
      if !capParked s && decide (at_ < x.lift 2 - tol) && !allowed then some 3 else none
  else
    let inside := capParked s && x.near (s.axis 1).cmd (x.cap 0) && x.near dest (x.cap 0)
    if inside || stroke || decide ((s.axis 0).meas ≥ x.lift 2 - tol) then none else some 2

/-! ## Aborts (R371, R376, R378, R383) -/

/-- Empties an axis' queue: its moves complete with a status and a cause (R387). -/
def emptyQueue (a status cause : Nat) (s : State) : State :=
  let q := (s.axis a).queue
  q.foldl (fun s m => match m.tag with
    | none => s
    | some t => complete 0x0A02 t status 0 (w32 cause) 0 s) (setAxis a (fun x => { x with queue := [] }) s)

/-- Ends a homing of axis a with a status (R379, R387). -/
def failHome (a status : Nat) (s : State) : State :=
  match (s.axis a).home with
  | none => s
  | some h => complete 0x0A04 h.tag status 0 0 0
      (setAxis a (fun x => { x with home := none, st := if x.st = .homing then .stopping else x.st }) s)

/-- An axis stops: at once if it stands, else within the limits (R372). -/
def stopAxis (a : Nat) (hard : Bool) (s : State) : State :=
  setAxis a (fun x =>
    if x.st = .fault then { x with stopHard := x.stopHard || hard }
    else if x.vel = 0 then { x with st := .idle, accel := 0 }
    else { x with st := .stopping, stopHard := hard || (x.st == .stopping && x.stopHard) }) s

/-- The sequence in progress aborts (R383): both axes stop, BAD_STATE with the step and the cause. A failure for which the spec names no
cause code carries a free value (log 25). -/
def abortSeq (a : Nat) (cause : Option Nat) (hard : Bool) (s : State) : State :=
  match s.axes.seq with
  | none => s
  | some q =>
    let step := s.axes.seqStep
    let (c, s0) := match cause with
      | some c => (c, s)
      | none => takeFree s
    let s1 := { s0 with axes := { s0.axes with seq := none, seqStep := 0 } }
    let clear := fun (n : Nat) (s : State) => stopAxis n hard (emptyQueue n 0x12 c s)
    let s2 := stickEvent .seqAborted { ev := .seqAborted, source := 0x40 + a, p0 := w32 a } (clear 1 (clear 0 s1))
    complete 0x0A05 q.tag 0x12 (w32 step) (w32 c) 0 s2

/-- An axis enters FAULT (R374, R375): its moves and its homing end with HW_FAULT, a sequence aborts. -/
def axisFault (a code : Nat) (s : State) : State :=
  let s1 := emptyQueue a 0x30 0 s
  let s2 := match (s1.axis a).home with
    | none => s1
    | some _ => failHome a 0x30 s1
  let s3 := abortSeq a none true s2
  setAxis a (fun x => { x with st := .fault, fault := if x.fault = 0 then code else x.fault, stopHard := true }) s3

/-- A cause waits for the next planner tick (R378). -/
def addCause (a : Nat) (c : StopCause) (s : State) : State :=
  setAxis a (fun x => if x.stopDue.contains c then x else { x with stopDue := x.stopDue ++ [c] }) s

/-- The direction in which an axis moves, or is about to (R376). -/
def Axis.heading (x : Axis) : Int :=
  if x.vel ≠ 0 then sgn x.vel else
    match x.home, x.queue with
    | some h, _ => if h.phase = 2 then (if x.cfg.homeDir then 1 else -1) else if h.phase = 0 then (if x.cfg.homeDir then -1 else 1) else 0
    | none, m :: _ => sgn (m.target - x.cmd)
    | none, [] => 0

/-- Where the axis' motion leads: its move's target, or the end of the range in the direction of homing. -/
def Axis.dest (x : Axis) : Int :=
  match x.home, x.queue with
  | some _, _ => x.cmd + x.heading * 2 ^ 31
  | none, m :: _ => m.target
  | none, [] => x.cmd

/-- Where the motion of the moment leads: on in its own direction while it still runs against the way to the target (R371, R381). -/
def Axis.course (x : Axis) : Int :=
  if x.vel < 0 ∧ x.cmd ≤ x.dest then x.cmd - 1 else if 0 < x.vel ∧ x.dest ≤ x.cmd then x.cmd + 1 else x.dest

/-- Axis a makes the wipe stroke (R383). -/
def inStroke (a : Nat) (s : State) : Bool :=
  a == 1 && s.axes.seqStep == 4 && (match s.axes.seq with
    | some q => q.seq == 3
    | none => false)

/-- A planned motion that comes to break an interlock (R381): INTERLOCK_STOP and event 0x0A06, and the axis will stop. -/
def interlockTick (a : Nat) (s : State) : State :=
  let x := s.axis a
  let planned := x.st != .stopping && x.st != .fault && (x.vel != 0 || !x.queue.isEmpty || x.home.isSome)
  match (if planned then interlockOf a x.cmd x.course (inStroke a s) s else none) with
  | none => s
  | some n => addCause a .interlock (stickEvent .interlockStop { ev := .interlockStop, source := 0x40 + a, p0 := w32 a }
      (setAxis a (fun x => { x with interlock := n }) s))

/-- One cause acts on axis a (R374 to R378): an invalid position and a stall make a FAULT, a stall stands still at MEAS; an interlock, a
limit and AX_STOP stop. A limit that homing meets in HOME_DIR before the edge turns it round, the other one fails it, and one met while
it stops after the edge only makes the stop hard (R372, R379). -/
def applyCause (a : Nat) (s : State) (c : StopCause) : State :=
  match c with
  | .posInvalid => axisFault a 2 s
  | .stall => setAxis a (fun x => { x with cmd := x.meas, vel := 0, accel := 0, frac := 0, iNow := x.cfg.iRun }) (axisFault a 1 s)
  | .interlock => stopAxis a true (abortSeq a (some 3) true (failHome a 0x12 (emptyQueue a 0x12 3 s)))
  | .limit =>
    match (s.axis a).home with
    | some h =>
      if h.phase = 2 then
        stickEvent .homeFarLimit { ev := .homeFarLimit, source := 0x40 + a, p0 := w32 a }
          (setAxis a (fun x => { x with home := some { h with phase := 4, far := true, edge := none } }) s)
      else if h.phase = 0 ∨ h.phase = 1 then stopAxis a true (failHome a 0x30 s)
      else setAxis a (fun x => { x with stopHard := true }) s
    | none => stopAxis a true (abortSeq a (some 2) true (emptyQueue a 0x12 2 s))
  | .stopHard => stopAxis a true s
  | .stopSoft => stopAxis a false s

/-- The causes of a tick act in the order of R378. -/
def applyCauses (a : Nat) (s : State) : State :=
  let due := (s.axis a).stopDue
  let order : List StopCause := [.posInvalid, .stall, .interlock, .limit, .stopHard, .stopSoft]
  (order.filter due.contains).foldl (applyCause a) (setAxis a (fun x => { x with stopDue := [] }) s)

/-- What acts on an axis before a command of the same tick does (R378): an interlock that its motion breaks and the causes that wait. -/
def settle (a : Nat) (s : State) : State :=
  let s1 := interlockTick a s
  if (s1.axis a).stopDue.isEmpty then s1 else applyCauses a s1

/-- Entry into SAFE (R378): an AX_STOP with HARD on both axes, after the causes that come before one, and homing and sequences abort. -/
def axesSafe (s0 : State) : State :=
  let s := settle 1 (settle 0 s0)
  let one := fun (s : State) (a : Nat) => addCause a .stopHard (failHome a 0x12 (emptyQueue a 0x12 4 s))
  [0, 1].foldl one (abortSeq (if (s.axis 1).queue.isEmpty then 0 else 1) (some 4) true s)

/-! ## CAP_CONFIRMED (R384) -/

/-- The conditions of CAP_CONFIRMED. -/
def capConditions (s : State) : Bool :=
  (s.axis 1).sw.getLsbD 3 && s.axes.near (s.axis 1).meas (s.axes.cap 1) && s.axes.near (s.axis 0).meas (s.axes.lift 3) &&
  s.pos.abs.all (·.posValid)

/-- CAP_CONFIRMED follows its conditions: each change queues event 0x0A08, and the main side judges permission 2 again (R384, R453). -/
def capUpdate (s : State) : State :=
  let new := capConditions s
  if (s.axis 1).capConf = new then s else
    mainUpdate (event { ev := .capConfirmed, source := 0x41, p0 := 1, p1 := w32 (b2n new) }
      (setAxis 1 (fun x => { x with capConf := new }) s))

/-! ## Control cycle (R370, R373 to R375) -/

/-- I_NOW after a control cycle (R370). DEDUCED: a boost that asks for less falls by at most 8 codes as well (log 25). -/
def Axis.current (x : Axis) (err : Int) : Nat :=
  let base := if x.hold then x.cfg.iHold else x.cfg.iRun
  let fall := max base (x.iNow - 8)
  if err.natAbs > x.cfg.boostErr then
    let want := min x.cfg.iBoost (x.cfg.iRun + (err.natAbs - x.cfg.boostErr) * x.cfg.boostGain / 256)
    if want ≥ x.iNow then want else max want (x.iNow - 8)
  else if x.iNow > base then fall else base

/-- POS_VALID of the axis' port becomes 0 (R375): POS_INVALID and event 0x0A05, and the axis will stop in FAULT. -/
def posLost (a : Nat) (s : State) : State :=
  addCause a .posInvalid (stickEvent .posInvalid { ev := .posInvalid, source := 0x40 + a, p0 := w32 a } s)

/-- The control cycle of axis a after its absolute read (R364, R370, R373, R374, R375), with the offset that its PRF word then holds (R504); `was`:
POS_VALID before the read. -/
def controlCycle (a : Nat) (was : Bool) (s0 : State) : State :=
  let s := setAxis a (fun x => { x with offset := (wd s0.pers.prf (8 + a)).toInt }) s0
  let p := cell s.pos.abs a {}
  let x := s.axis a
  let meas := if p.good then x.measure p.pos.toNat else x.meas
  let err := wrap32 (x.latched - meas)
  let i := x.current err
  let boost := decide (err.natAbs > x.cfg.boostErr) && i == x.cfg.iBoost && decide (0 < x.cfg.iBoost)
  let above := p.posValid && decide (err.natAbs > x.cfg.stallErr) && x.cfg.stallCycles != 0
  let run := if above then min 255 (x.stallRun + 1) else 0
  let stalls := above && decide (x.cfg.stallCycles ≤ run) && x.st != .fault && !x.stopDue.contains .stall
  let s1 := setAxis a (fun x => { x with meas := meas, err := err, iNow := i, boosting := boost, stallRun := run }) s
  let s2 := if boost && !x.boosting then stickRec (source := 0x40 + a) .boostMax s1 else s1
  let s3 := if was && !p.posValid then posLost a s2 else s2
  let s4 := if stalls then
      addCause a .stall (stickEvent .stall { ev := .stall, source := 0x40 + a, p0 := w32 a, p1 := wInt err, p2 := wInt meas }
        (setAxis a (fun x => { x with stalls := satAdd x.stalls 1 }) s3))
    else s3
  capUpdate s4

/-! ## Switch inputs (R377) -/

/-- A change of input i of axis a to a level that has been stable for so many MOT clocks: whether it was a valid edge, and the state. A level
stable for less than FILT_N is not accepted, and a change within SW_HYST of the last edge is ignored. -/
def switchInput (a i : Nat) (level : Bool) (clocks : Nat) (s : State) : Bool × State :=
  let x := s.axis a
  if clocks < x.cfg.filtN then (false, s) else
  let m : BitVec 4 := 1#4 <<< i
  let active := level == x.cfg.pol.getLsbD i
  let put1 := fun (v : BitVec 4) => if active then v ||| m else v &&& ~~~ m
  let s1 := setAxis a (fun x => { x with swIn := put1 x.swIn, swSeen := x.swSeen ||| m }) s
  if x.swMask.getLsbD i || x.sw.getLsbD i == active then (false, s1) else
    let p := wrap32 (x.cmdBefore clocks)
    (true, setAxis a (fun x => { x with
      sw := put1 x.sw, edgePos := upd x.edgePos i (fun _ => p)
      swMask := if x.cfg.swHyst = 0 then x.swMask else x.swMask ||| m
      edgeLatch := if i = 2 then p else x.edgeLatch }) s1)

/-- POL gives each input's active level (R377): with another POL the inputs seen so far read the other way round. DEDUCED: that is no edge (log 25). -/
def Axis.repolar (x : Axis) (pol : BitVec 4) : Axis :=
  let m := (x.cfg.pol ^^^ pol) &&& x.swSeen
  { x with sw := x.sw ^^^ m, swIn := x.swIn ^^^ m }

/-- Inputs whose SW_HYST has been passed are read again (R377). -/
def Axis.unmask (x : Axis) : Axis :=
  (List.range 4).foldl (fun x i =>
    let m : BitVec 4 := 1#4 <<< i
    if x.swMask.getLsbD i && decide (|x.cmd - cell x.edgePos i 0| ≥ (x.cfg.swHyst : Int)) then
      { x with swMask := x.swMask &&& ~~~ m, sw := (x.sw &&& ~~~ m) ||| (x.swIn &&& m) }
    else x) x

end Sys2Proof.Machine
end

