-- ==== Sys2Proof/Machine/Persist.lean ====
section
/-!
DEFINITION. Persistent words, wear counters, calibration set slots and the Almanac ring (R499 to R526).
-/
namespace Sys2Proof.Machine

/-! ## PRF -/

/-- Bits of a device word (0 to 63) the host may write (R504, R505, R477, R380); none: the word is RO or reserved. -/
def prfMask (w : Nat) : Option Word :=
  if w = 0 ∨ w = 8 ∨ w = 9 then some 0xFFFFFFFF
  else if w = 4 then some 0x80000737
  else if w = 5 then some 0x17FFF
  else if w = 10 then some 3
  else if 64 ≤ w then some 0xFFFFFFFF
  else none

/-- A host write to a PRF word (R503, R504, R508). -/
def prfWrite (w : Nat) (v : Word) (s : State) : State :=
  match prfMask w with
  | none => stickRec .prfProtected s
  | some m => prfStore w (v &&& m) s

/-- PRF_WRITE. -/
def execPrfWrite (word : Fin 1024) (v : Word) (s : State) : Host.Outcome State Fault Refusal := .next (prfWrite word v s)

/-- MRAM_REFRESH (R500, R502): each 7 days of OP_MINUTES every word is read and written back; the writes count, and a read may correct a word or find one
uncorrectable (its MRAM byte address). -/
def execMramRefresh (corrected : Bool) (uncorrectable : Option Nat) (s : State) : Host.Outcome State Fault Refusal :=
  if s.pwr.state = .sleep ∨ s.pers.opMinutes - s.pers.refreshMin < 10080 then .next s else
  let s1 := (List.range 16).foldl (fun s p => countWear p 64 s) { s with pers := { s.pers with refreshMin := s.pers.opMinutes } }
  let s2 := if corrected then stickRec .mramCorr s1 else s1
  .next (match uncorrectable with
    | some a => stickEvent .mramUncorr { ev := .mramUncorrectable, p0 := w32 a } s2
    | none => s2)

/-- OP_MINUTE (R517): a powered minute has passed. Minutes in SLEEP are counted by the AON island (R536). -/
def execOpMinute (s : State) : Host.Outcome State Fault Refusal :=
  .next (if s.pwr.state = .sleep ∨ s.since s.pers.minuteAt < 60000000000 then s else
    { s with pers := { s.pers with opMinutes := s.pers.opMinutes + 1, minuteAt := s.pos.mono } })

/-! ## Almanac -/

/-- ALMANAC_BUDGET_TICK (R520): the budget grows 256 times a second and holds 256 records. -/
def execAlmanacBudgetTick (s : State) : Host.Outcome State Fault Refusal :=
  .next (if s.since s.pers.almTickAt < 3906250 then s else
    { s with pers := { s.pers with almBudget := min 256 (s.pers.almBudget + 1), almTickAt := s.pos.mono } })

/-- The record served next: highest severity first, then oldest (R520). -/
def bestRec : List AlmRec → Option AlmRec
  | [] => none
  | r :: rs => match bestRec rs with
    | none => some r
    | some b => if b.severity < r.severity ∨ (b.severity = r.severity ∧ r.seq < b.seq) then some r else some b

/-- The eight words of a record (R519); the CRC runs over bytes 0 to 29. -/
def almWords (seq : Word) (timeValid : Bool) (r : AlmRec) (p : Pers) : List Word :=
  let w1 := w32 (r.code.toNat + 65536 * r.source.toNat + 16777216 * r.severity)
  let w3 := w32 (p.powerCycles.toNat % 16777216 + 16777216 * b2n p.firstRec + 33554432 * b2n p.lostBefore +
    67108864 * b2n timeValid)
  let body := [seq, w1, p.opMinutes, w3, r.p0, r.p1, r.p2]
  let c := crc16 (wordBytes body ++ bytesLE 2 r.p3.toNat)
  body ++ [w32 (r.p3.toNat + 65536 * c)]

/-- TIME_VALID (R343). -/
def timeValid (s : State) : Bool := s.pos.tState == .locked || s.pos.tState == .holdover

/-- Puts a record into the ring, kept by ascending slot (R499, R521). -/
def ringPut (k : Nat) (ws : List Word) : List (Nat × List Word) → List (Nat × List Word)
  | [] => [(k, ws)]
  | p :: ps => if p.1 < k then p :: ringPut k ws ps else if p.1 = k then (k, ws) :: ps else (k, ws) :: p :: ps

/-- A queued record is written once budget allows (R519 to R523, R526). -/
def almWriteRecord (s : State) : State :=
  match bestRec s.pers.almQueue with
  | none => s
  | some r =>
    if s.pers.almBudget = 0 then s else
      let p := s.pers
      let seq := p.almNext
      let s1 := { s with pers := { p with
        alm := ringPut (seq.toNat % 4096) (almWords seq (timeValid s) r p) p.alm
        almNext := nextSeq seq, almBudget := p.almBudget - 1
        almQueue := p.almQueue.filter (fun x => x.seq != r.seq)
        firstRec := false, lostBefore := false } }
      let s2 := match r.host with
        | some sl => respond sl (okWith [seq]) s1
        | none => s1
      let irqAll := flag (wd p.prf 5) 16
      let s3 := if irqAll ∨ r.severity ≥ 3 ∨ r.code = 0x0E15 then sendVec 7 s2 else s2
      if p.lostOwe then
        event { ev := .almanacSuppressed, p0 := p.lostSince, p1 := p.almSuppressed, always := true }
          { s3 with pers := { s3.pers with lostOwe := false, lostSince := 0 } }
      else s3

/-- ALMANAC_RECORD_WRITE. -/
def execAlmanacRecordWrite (s : State) : Host.Outcome State Fault Refusal := .next (almWriteRecord s)

/-- ALM_OLDEST (R522). -/
def almOldest (p : Pers) : Word := if p.almNext.toNat ≤ 4097 then 1 else p.almNext - 4096

/-- ALM_WRITE (R526): the entry joins the queue; the response is written with its record. -/
def execAlmWrite (slot : Fin 16) (s : State) : Host.Outcome State Fault Refusal :=
  .next (command 0x0E13 5 slot
    (fun s ws => [(decide (fld (wd ws 0) 8 3 > 3), badParam 0), reservedW ws 0 0x7FF, reservedW ws 4 0xFFFF,
      (decide (s.pers.almQueue.length ≥ 16), busy), notBoot s])
    (fun _ ws s =>
      let r : AlmRec := { code := BitVec.ofNat 16 (fld (wd ws 0) 0 8), source := 0xFF, severity := fld (wd ws 0) 8 3
                          p0 := wd ws 1, p1 := wd ws 2, p2 := wd ws 3, p3 := (wd ws 4).setWidth 16, host := some slot, asked := s.pos.mono }
      (s.withLog (s.log.record r), none)) s)

/-- ALM_WRITE_TIMEOUT (R526): 10 ms after the ALM_WRITE started, the entry is withdrawn and the command answers BUSY. -/
def execAlmWriteTimeout (slot : Fin 16) (s : State) : Host.Outcome State Fault Refusal :=
  .next (if s.pers.almQueue.any (fun r => r.host == some (slot : Nat) && decide (s.since r.asked ≥ 10000000)) then
    respond slot busy { s with pers := { s.pers with almQueue := s.pers.almQueue.filter fun r => r.host != some (slot : Nat) } }
  else s)

/-- The record with sequence number n, if the ring holds it (R521, R522). -/
def heldRecord (p : Pers) (n : Nat) : Option (List Word) :=
  match p.alm.lookup (n % 4096) with
  | some ws => if wd ws 0 = w32 n then some ws else none
  | none => none

/-- The held records from sequence number `start` on, by ascending number (R522, R526). -/
def heldFrom (p : Pers) (start : Nat) : List (List Word) :=
  let held := p.alm.filter fun x =>
    decide (start ≤ wn x.2 0 ∧ wn x.2 0 < p.almNext.toNat) && heldRecord p (wn x.2 0) == some x.2
  ((held.filter fun x => decide (start % 4096 ≤ x.1)) ++ held.filter fun x => decide (x.1 < start % 4096)).map (·.2)

/-- ALM_READ (R526). -/
def execAlmRead (slot : Fin 16) (s : State) : Host.Outcome State Fault Refusal :=
  .next (command 0x0E14 2 slot
    (fun _ ws => [(fld (wd ws 1) 0 3 == 0, badParam 1), reservedW ws 1 7])
    (fun _ ws s =>
      let rs := (heldFrom s.pers (max (wn ws 0) (almOldest s.pers).toNat)).take (fld (wd ws 1) 0 3)
      done (s, okWith (w32 rs.length :: rs.flatten))) s)

/-! ## Calibration sets -/

/-- The five kinds a calibration set holds (R100). -/
def setKinds : List Nat := [3, 7, 9, 10, 11]

/-- A stored object of a kind and module. -/
def objOf (objs : List Obj) (kind target : Nat) : Option (List Byte) :=
  (objs.find? fun o => o.kind == kind && o.target == target).map (·.bytes)

/-- An object comes before another in ascending order of kind, then target (R86). -/
def Obj.before (a b : Obj) : Bool := decide (a.kind < b.kind) || (a.kind == b.kind && decide (a.target < b.target))

/-- Puts an object into an ascending list, in place of one for the same pair (R74). -/
def insertObj (o : Obj) : List Obj → List Obj
  | [] => [o]
  | x :: xs => if x.before o then x :: insertObj o xs else if o.before x then o :: x :: xs else o :: xs

/-- Objects replace those of the same kind and target (R73, R512). -/
def mergeObjs (new old : List Obj) : List Obj := new.foldl (fun l o => insertObj o l) old

/-! ## The objects in force for a line (R79) -/

/-- A word of an object's bytes. -/
def objWord (bs : List Byte) (i : Nat) : Word := w32 (le32 bs (4 * i))

/-- What a BAR_CONFIG object sets (R76). -/
structure BarCfg where
  /-- MODULES. -/
  modules : Nat := 0
  /-- ROWS. -/
  rows : Nat := 0
  /-- LPI600. -/
  lpi600 : Bool := false
  /-- LINE_STEP. -/
  lineStep : Nat := 0
  deriving DecidableEq, Repr

/-- The bar configuration of a set of objects; none: no configuration (R38). -/
def barOf (objs : List Obj) : BarCfg :=
  match objOf objs 1 0 with
  | none => {}
  | some b =>
    let w0 := objWord b 0
    { modules := fld w0 0 5, rows := fld w0 8 3, lpi600 := flag w0 12
      lineStep := (objWord b 2).toNat + 2 ^ 32 * fld (objWord b 3) 0 20 }

/-- LOCKED groups whose Lc lies at or below line L, earliest Lc first. -/
def lockedUpTo (L : Nat) (s : State) : List Group :=
  (s.cg.groups.filter fun g => g.st == .locked && decide (g.abs ≤ L)).mergeSort fun a b => a.abs ≤ b.abs

/-- The objects in force for image line or fire line L (R79): those of an earlier commit for lines below its Lc, and for lines at or above
the Lc of a LOCKED group those of the group. -/
def objsAt (L : Nat) (s : State) : List Obj :=
  match (s.cg.old.filter fun b => decide (L < b.1)).getLast? with
  | some b => b.2
  | none => (lockedUpTo L s).foldl (fun o g => mergeObjs (g.objs.filter fun x => x.kind != 2) o) s.cg.inForce

/-- n zero bytes. -/
def zeros (n : Nat) : List Byte := List.replicate n 0

/-- The 17 knots of one local column packed into 39 bytes (R510). -/
def packKnots (bs : List Byte) (col : Nat) : List Byte :=
  bytesLE 39 ((List.range 17).foldl (fun a j => a + (le32 bs (4 * (17 * col + j)) % 2 ^ 18) * 2 ^ (18 * j)) 0)

/-- A module's part of a slot area; what is absent is 0 (R511). -/
def setPart (objs : List Obj) (kind size m : Nat) : List Byte :=
  match objOf objs kind m with
  | none => zeros size
  | some b => if kind = 3 then (List.range 3264).flatMap (packKnots b) else (b ++ zeros size).take size

/-- Slot bytes 0x00_0000 to 0x25_C3FF (R510). -/
def slotBytes (objs : List Obj) : List Byte :=
  let area := fun kind size => (List.range 16).flatMap (setPart objs kind size)
  area 3 127296 ++ area 7 13056 ++ area 10 13056 ++ area 9 256 ++ area 11 1024

/-- Which modules of a kind a set holds. -/
def presentMask (objs : List Obj) (kind : Nat) : Nat :=
  (List.range 16).foldl (fun a m => if (objOf objs kind m).isSome then a + 2 ^ m else a) 0

/-- A commit record (R511). -/
def commitRecord (gen epoch line : Word) (modules : Nat) (objs : List Obj) : List Word :=
  let body := [0x5A534554, gen, epoch, line, w32 modules,
    w32 (presentMask objs 3 + 65536 * presentMask objs 7), w32 (presentMask objs 10 + 65536 * presentMask objs 9),
    w32 (presentMask objs 11), w32 (crc32c (slotBytes objs)), 0, 0, 0, 0, 0, 0]
  body ++ [w32 (crc32c (wordBytes body))]

/-- A commit record is valid (R515). -/
def recordValid (ws : List Word) : Bool :=
  wd ws 0 == 0x5A534554 && wd ws 15 == w32 (crc32c (wordBytes (ws.take 15))) &&
  [4, 8, 12, 16].contains (fld (wd ws 4) 0 5)

/-- SET_GEN of a slot, 0 if invalid (R524). -/
def slotGen (t : SetSlot) : Nat := if recordValid t.commit then wn t.commit 1 else 0

/-- The slot a set write targets: the one that does not hold the higher valid SET_GEN, A if neither is valid (R513). -/
def writeTarget (p : Pers) : Bool :=
  if !recordValid p.slotA.commit && !recordValid p.slotB.commit then false
  else if !recordValid p.slotB.commit then true
  else if !recordValid p.slotA.commit then false
  else decide (slotGen p.slotA ≥ slotGen p.slotB)

/-- Changes a slot. -/
def setSlot (b : Bool) (f : SetSlot → SetSlot) (p : Pers) : Pers :=
  if b then { p with slotB := f p.slotB } else { p with slotA := f p.slotA }

/-- A slot whose commit record is zeros. -/
def SetSlot.invalid (t : SetSlot) : SetSlot := { t with commit := List.replicate 16 0 }

/-- A set write starts (R511 to R513): the target's record becomes zeros and the image is copied. -/
def startSetWrite (tags : List Word) (s : State) : State :=
  let p := s.pers
  let b := writeTarget p
  let gen := max (slotGen p.slotA) (slotGen p.slotB) + 1
  let p1 := setSlot b SetSlot.invalid p
  { s with pers := { p1 with
    pendWrite := false, pendTags := [], lastStart := some s.pos.mono
    writing := some { slot := b, gen := w32 gen, image := p.image, line := p.imageLine, epoch := p.imageEpoch
                      modules := p.imageModules, tags := tags } } }

/-- SET_MIN_S in force, in seconds (R505). -/
def setMinS (p : Pers) : Nat :=
  let v := fld (wd p.prf 5) 0 12
  if v = 0 then 60 else if v < 10 then 10 else v

/-- SET_MIN_S has passed since the last start (R514). -/
def setMinPassed (s : State) : Bool := match s.pers.lastStart with
  | none => true
  | some t => decide (setMinS s.pers * 1000000000 ≤ s.since t)

/-- A set write is asked for (R514): it starts at once, or becomes the pending one and replaces an older one. -/
def requestSetWrite (tags : List Word) (s : State) : State :=
  if s.pers.writing.isNone ∧ setMinPassed s ∧ ¬ s.pers.pendWrite then startSetWrite tags s
  else { s with pers := { s.pers with pendWrite := true, pendTags := s.pers.pendTags ++ tags } }

/-- The state in force of the five kinds, for every fitted module (R512). -/
def setObjects (s : State) : List Obj :=
  s.cg.inForce.filter fun o => setKinds.contains o.kind && decide (o.target < s.cg.modules)

/-- PERS_SET_WRITE (R512, R514, R526). -/
def execPersSetWrite (slot : Fin 16) (s : State) : Host.Outcome State Fault Refusal :=
  .next (command 0x0E11 0 slot
    (fun s _ => [(!(s.host.opState == .ready || s.host.opState == .print || s.host.opState == .service), badState),
      completionsFull s])
    (fun tag _ s =>
      let s1 := outstand 0x0E11 tag 0 { s with pers := { s.pers with
        image := setObjects s, imageLine := 0xFFFFFFFF, imageEpoch := s.cg.epochNow, imageModules := s.cg.modules } }
      let now := s.pers.writing.isNone && setMinPassed s && !s.pers.pendWrite
      done (requestSetWrite [tag] s1, if now then accepted else deferred)) s)

/-- SET_WRITE_START (R514): the pending write starts. -/
def execSetWriteStart (s : State) : Host.Outcome State Fault Refusal :=
  .next (if s.pers.pendWrite ∧ s.pers.writing.isNone ∧ setMinPassed s then startSetWrite s.pers.pendTags s else s)

/-- Completions of the PERS_SET_WRITE commands of a write (R526). -/
def completeSet (tags : List Word) (status : Nat) (p0 p1 : Word) (s : State) : State :=
  tags.foldl (fun s t => complete 0x0E11 t status p0 p1 0 s) s

/-- Microseconds since the set write started (R513). -/
def setMicros (s : State) : Nat := match s.pers.lastStart with
  | some t => s.since t / 1000
  | none => 0

/-- SET_WRITE_DONE (R513): the commit record is written, or a read-back differed at step 4 or 5. Firmware does the steps, so none ends while it does not
run (R514). -/
def execSetWriteDone (copied committed : Bool) (s : State) : Host.Outcome State Fault Refusal :=
  .next (if !s.host.berylRunning then s else match s.pers.writing with
    | none => s
    | some j =>
      let sl := w32 (b2n j.slot)
      match (if !copied then some 4 else if !committed then some 5 else none) with
      | some k =>
        let s1 := stickEvent .setWriteFail { ev := .setWriteFailed, p0 := sl, p1 := w32 k }
          { s with pers := { setSlot j.slot SetSlot.invalid s.pers with writing := none } }
        completeSet j.tags 0x30 (w32 k) 0 s1
      | none =>
        let new : SetSlot → SetSlot := fun t => { t with
          commit := commitRecord j.gen j.epoch j.line j.modules j.image, objs := j.image, writes := t.writes + 1 }
        let s1 := event { ev := .setWritten, p0 := sl, p1 := j.gen, p2 := w32 (setMicros s) }
          { s with pers := { setSlot j.slot new s.pers with writing := none } }
        completeSet j.tags 0 sl j.gen s1)

/-- SET_STATE, SET_GEN_A, SET_GEN_B, SET_WRITES_A, SET_WRITES_B (R524). -/
def setView (p : Pers) : List Word :=
  let target := match p.writing with
    | some j => j.slot
    | none => writeTarget p
  [w32 (p.bootSlot + 4 * b2n p.writing.isSome + 8 * b2n p.pendWrite + 16 * b2n target),
   w32 (slotGen p.slotA), w32 (slotGen p.slotB), p.slotA.writes, p.slotB.writes]

/-- A wear counter register (R506). -/
def wearReg (n : Nat) : Word := w32 (n + 2 ^ 29 * b2n (decide (n ≥ 90000000)) + 2 ^ 30 * b2n (decide (n ≥ 100000000)))

/-- PERS_GET_STATUS (R526). -/
def execPersGetStatus (slot : Fin 16) (s : State) : Host.Outcome State Fault Refusal :=
  .next (command 0x0E10 0 slot (fun s _ => [notBoot s])
    (fun _ _ s => done (s, okWith (s.pers.wear.map wearReg ++ setView s.pers ++
      [s.pers.almNext, almOldest s.pers, s.pers.almSuppressed, s.pers.opMinutes, s.pers.powerCycles]))) s)

/-- PERS_SET_INVALIDATE (R514, R526). -/
def execPersSetInvalidate (slot : Fin 16) (s : State) : Host.Outcome State Fault Refusal :=
  .next (command 0x0E12 1 slot
    (fun s ws => [(fld (wd ws 0) 0 2 == 0, badParam 0), reservedW ws 0 3,
      ((match s.pers.writing with
        | some j => flag (wd ws 0) (b2n j.slot)
        | none => false), busy), notBoot s])
    (fun _ ws s =>
      let p1 := if flag (wd ws 0) 0 then setSlot false SetSlot.invalid s.pers else s.pers
      let p2 := if flag (wd ws 0) 1 then setSlot true SetSlot.invalid p1 else p1
      done ({ s with pers := p2 }, ok)) s)

end Sys2Proof.Machine
end

