-- ==== Sys2Proof/Machine/Topaz.lean ====
section
/-!
DEFINITION. Page formats, Topaz blocks and their checks (R108 to R119).
-/
namespace Sys2Proof.Machine

/-- LINE_BYTES of a FORMAT (R108); none where the format is not known. -/
def lineBytes (fmt : Nat) : Option Nat :=
  match fmt with
  | 0 => some 3264
  | 1 => some 6528
  | 2 => some 1632
  | 3 => some 3264
  | 8 => some 816
  | _ => none

/-- A 600 ppi format (R108). -/
def is600 (fmt : Nat) : Bool := fmt == 2 || fmt == 3

/-- Image lines per page line at an addressability; none where the format is not allowed (R108). -/
def linesPer (fmt : Nat) (lpi600 : Bool) : Option Nat :=
  match fmt with
  | 0 => if lpi600 then none else some 1
  | 1 => if lpi600 then none else some 1
  | 2 => some (if lpi600 then 1 else 2)
  | 3 => some (if lpi600 then 1 else 2)
  | 8 => some 1
  | _ => none

/-- Most page lines a band may hold (R110). -/
def maxBandLines (fmt : Nat) : Nat :=
  match lineBytes fmt with
  | some b => min 64 (65536 / b)
  | none => 0

/-- n bytes copied from LINE_BYTES earlier in an output kept newest first; 0 before the start of the block (R118). -/
def copyUp (lb : Nat) : Nat → List Byte → List Byte
  | 0, out => out
  | n + 1, out => copyUp lb n (out.getD (lb - 1) 0 :: out)

/-- One TOKEN at the head of a payload: what it adds to the output (newest first) and what is left (R118); none where the payload
ends inside it. -/
def tokenStep (lb : Nat) (out : List Byte) : List Byte → Option (List Byte × List Byte)
  | [] => none
  | c :: rest =>
    let k := c.toNat / 64
    let n6 := c.toNat % 64
    let n5 := c.toNat % 32
    if k = 0 then
      if rest.length < n6 + 1 then none else some ((rest.take (n6 + 1)).reverse ++ out, rest.drop (n6 + 1))
    else if k = 2 then some (copyUp lb (n6 + 1) out, rest)
    else if k = 3 ∧ c.getLsbD 5 then some (copyUp lb ((n5 + 1) * 64) out, rest)
    else match rest with
      | [] => none
      | v :: rest' =>
        let n := if k = 1 then n6 + 3 else (n5 + 1) * 64
        some (List.replicate n v ++ out, rest')

/-- Decodes a TOKEN payload of exactly `size` output bytes; none where it is malformed (R118). `fuel` bounds the tokens by the payload's
length. -/
def decodeTokens (lb size : Nat) : Nat → List Byte → List Byte → Option (List Byte)
  | 0, out, pay => if pay.isEmpty && out.length == size then some out.reverse else none
  | fuel + 1, out, pay =>
    if out.length > size then none
    else if pay.isEmpty then (if out.length = size then some out.reverse else none)
    else if out.length = size then none
    else match tokenStep lb out pay with
      | none => none
      | some (out', pay') => decodeTokens lb size fuel out' pay'

/-- Decodes and checks a block of a table entry (R117 to R119): LENGTH and block index of the entry, its module, and the descriptor's
FORMAT. Gives the original bytes, or none where the block fails its check. DESIGN CHOICE: LINES is held to 1 to 64 as R117 has it and not
compared with the lines of the band; what a block has beyond them is not used, what it lacks is zero (log 14). -/
def checkBlock (idx : Word) (module fmt length : Nat) (bs : List Byte) : Option (List Byte) :=
  let h := bytesToWords bs 0 4
  let pay := wn h 3
  let padded := 4 * ((pay + 3) / 4)
  match lineBytes fmt with
  | none => none
  | some lb =>
    let method := fld (wd h 0) 20 4
    let lines := fld (wd h 2) 0 7
    let size := lines * lb
    let payload := (bs.drop 16).take pay
    let padding := (bs.drop (16 + pay)).take (padded - pay)
    let ok :=
      fld (wd h 0) 0 16 == 0x5A54 && fld (wd h 0) 16 4 == 1 && fld (wd h 0) 24 8 == 0 && decide (method ≤ 1) &&
      wd h 1 == idx &&
      decide (1 ≤ lines ∧ lines ≤ 64) && fld (wd h 2) 8 4 == fmt && fld (wd h 2) 16 4 == module &&
      !flag (wd h 2) 7 && fld (wd h 2) 12 4 == 0 && fld (wd h 2) 20 12 == 0 &&
      decide (1 ≤ pay ∧ pay ≤ 65536) && (method != 0 || pay == size) &&
      length == 16 + padded + 4 && bs.length == length && padding.all (· == 0)
    if !ok then none else
      match (if method = 0 then some payload else decodeTokens lb size payload.length [] payload) with
      | none => none
      | some out =>
        if crc32 (bytesLE 4 idx.toNat ++ out) = le32 bs (16 + padded) then some out else none

end Sys2Proof.Machine
end

