-- ==== Sys2Proof/Machine/Pages.lean ====
section
/-!
DEFINITION. Descriptor rings, ingest, the page store, starting pages, print-time decoding, retention, records and check-value contexts
(R111 to R135).
-/
namespace Sys2Proof.Machine

/-! ## Pages held -/

/-- Ring r. -/
def Pages.ring (p : Pages) (r : Nat) : Ring := cell p.rings r {}

/-- Changes ring r. -/
def setRing (r : Nat) (f : Ring → Ring) (s : State) : State :=
  { s with pg := { s.pg with rings := upd s.pg.rings r f } }

/-- Changes the pages a test picks. -/
def mapPages (p : Page → Bool) (f : Page → Page) (s : State) : State :=
  { s with pg := { s.pg with pages := s.pg.pages.map fun x => if p x then f x else x } }

/-- Changes page uid. -/
def setPage (uid : Nat) (f : Page → Page) (s : State) : State := mapPages (fun p => p.uid == uid) f s

/-- Marks pages as spoiled (R128). -/
def spoil (uids : List Nat) (s : State) : State :=
  mapPages (fun p => uids.contains p.uid) (fun p => { p with spoiled := true }) s

/-- Marks pages some line of which was not fired: spoiled too (R128, R456). -/
def unfire (uids : List Nat) (s : State) : State :=
  mapPages (fun p => uids.contains p.uid) (fun p => { p with spoiled := true, unfired := true }) s

/-- The page of a uid. -/
def Pages.page? (p : Pages) (uid : Nat) : Option Page := p.pages.find? fun x => x.uid == uid

/-- The original (not reprint) page of a descriptor. -/
def Pages.ofDesc (p : Pages) (r : Nat) (idx : Word) : Option Page :=
  p.pages.find? fun x => x.ring == r && x.descIdx == idx && !x.reprint && !x.recorded

/-- Descriptor fields (R113). -/
def Page.type (p : Page) : Nat := fld (wd p.desc 0) 0 8
/-- FORMAT. -/
def Page.format (p : Page) : Nat := fld (wd p.desc 0) 8 4
/-- RETAIN. -/
def Page.retain (p : Page) : Bool := flag (wd p.desc 0) 16
/-- EARLY_FREE. -/
def Page.earlyFree (p : Page) : Bool := flag (wd p.desc 0) 17
/-- PAGE_NUMBER. -/
def Page.number (p : Page) : Word := wd p.desc 1
/-- PAGE_LINES. -/
def Page.pageLines (p : Page) : Nat := wn p.desc 2
/-- GAP_LINES. -/
def Page.gap (p : Page) : Nat := fld (wd p.desc 3) 0 16
/-- BAND_LINES. -/
def Page.bandLines (p : Page) : Nat := fld (wd p.desc 4) 0 7
/-- MODULES. -/
def Page.modules (p : Page) : Nat := fld (wd p.desc 4) 16 5

/-- Bytes a page takes in the page store: the Topaz form of its blocks (R120). -/
def Page.size (p : Page) : Nat := (p.blocks.map fun b => if b.blank then 0 else b.len).sum

/-- Bytes of the page store in use. -/
def Pages.used (p : Pages) : Nat := (p.pages.map Page.size).sum

/-- Every block of a page is stored, good or BAD (R121). -/
def Page.stored (p : Page) : Bool := p.blocks.all fun b => b.blank || b.st != .wanted

/-! ## Fetching -/

/-- Page data may be fetched for ring r while `used` bytes of the page store are in use: one that is not in force fetches only while more than
half of it is free, and gives way to a ring in force that waits for space (R116). -/
def fetchRoom (r used : Nat) (s : State) : Bool :=
  (s.pg.ring r).inForce || (!(s.pg.rings.any fun g => g.inForce && g.waitSpace) && decide (2 * used < s.pg.capacity))

/-- A ring may fetch its next descriptor (R115, R116, R130). -/
def mayFetch (r : Nat) (s : State) : Bool :=
  let g := s.pg.ring r
  g.enabled && !g.halted && !g.stopped && !g.waitSpace && g.fetch != g.prod && s.host.busMaster &&
  decide ((g.prod - g.done).toNat ≤ 2 ^ g.sizeLog2) && !s.pg.descReq.any (fun d => d.1 == r) &&
  fetchRoom r s.pg.used s

/-- Asks for the next descriptor of a ring (R111, R116). -/
def fetchNext (r : Nat) (s : State) : State :=
  if mayFetch r s then
    let g := s.pg.ring r
    readHost (g.descBase.toNat + 64 * (g.fetch.toNat % 2 ^ g.sizeLog2)) 64
      { s with pg := { s.pg with descReq := s.pg.descReq ++ [(r, g.fetch)] } }
  else s

/-- The ring in force first, then the others by number (R116). -/
def ringOrder (s : State) : List Nat :=
  (List.range 4).filter (fun r => (s.pg.ring r).inForce) ++ (List.range 4).filter (fun r => !(s.pg.ring r).inForce)

/-- Every ring that may fetch asks for its next descriptor. -/
def fetchAll (s : State) : State := (ringOrder s).foldl (fun s r => fetchNext r s) s

/-- A write of RING_PROD (R111, R115). -/
def ringProd (r : Nat) (v : Word) (s : State) : State := fetchNext r (setRing r (fun g => { g with prod := v }) s)

/-- RING_PROD. -/
def execRingProd (ring : Fin 4) (v : Word) (s : State) : Host.Outcome State Fault Refusal := .next (ringProd ring v s)

/-- FETCH_RESUME (R116, R126): space has become free, and the rings that waited for it fetch again. -/
def execFetchResume (s : State) : Host.Outcome State Fault Refusal :=
  .next (fetchAll { s with pg := { s.pg with rings := s.pg.rings.map fun g => { g with waitSpace := false } } })

/-- A descriptor fetch that runs for a ring is given up: what arrives for it is not taken. -/
def dropFetch (r : Nat) (s : State) : State := { s with pg := { s.pg with descReq := s.pg.descReq.filter fun d => d.1 != r } }

/-- A ring halts (R114, R130): it stops fetching, DESC_ERROR, vector 4, and the event of the time at which the error was found. -/
def haltRing (r code : Nat) (idx : Word) (ev : Ev) (s : State) : State :=
  let s1 := setRing r (fun g => { g with halted := true, haltReason := code, sinceIrq := 0 }) (dropFetch r s)
  sendVec 4 (stickEvent .descError { ev := ev, p0 := w32 r, p1 := w32 code, p2 := idx } s1)

/-- A block table entry (R113). -/
def blkOf (first : Word) (table : List Byte) (j : Nat) : Blk :=
  let w := bytesToWords table (16 * j) 4
  { idx := first + w32 j, addr := BitVec.ofNat 64 (wn64 w 0), len := wn w 2, blank := flag (wd w 3) 0 }

/-- A table entry's address or LENGTH lies outside R113. -/
def blkBad (b : Blk) : Bool :=
  !b.blank && (b.addr.toNat % 8 != 0 || b.len % 4 != 0 || decide (b.len < 24 ∨ b.len > 65556))

/-- The first fetch-time check a descriptor itself fails, in the order of the codes of R114. DEDUCED: that order (log 14). -/
def headCheck (desc : List Word) : Option Nat :=
  let type := fld (wd desc 0) 0 8
  let fmt := fld (wd desc 0) 8 4
  let page := type == 1
  let lines := wn desc 2
  let band := fld (wd desc 4) 0 7
  let mods := fld (wd desc 4) 16 5
  let count := wn desc 8
  if wd desc 15 ≠ w32 (crc32c (wordBytes (desc.take 15))) then some 1
  else if type ≠ 1 ∧ type ≠ 2 then some 2
  else if page ∧ (lineBytes fmt).isNone then some 3
  else if lines < 1 ∨ lines > 262144 then some 4
  else if page ∧ (band < 1 ∨ band > maxBandLines fmt) then some 5
  else if (!page ∧ count ≠ 0) ∨ (page ∧ (count = 0 ∨ mods = 0 ∨ count % mods ≠ 0)) then some 7
  else if !([4, 8, 12, 16].contains mods) then some 8
  else none

/-- The first check that fails in a descriptor with its table (R114). DEDUCED: a BLANK entry's address and LENGTH are not checked (log 14). -/
def descCheck (desc : List Word) (blocks : List Blk) (capacity : Nat) : Option Nat :=
  let page := fld (wd desc 0) 0 8 == 1
  let total := (blocks.map fun b => if b.blank then 0 else b.len).sum
  match headCheck desc with
  | some code => some code
  | none =>
    if page ∧ 4 * total > capacity then some 9
    else if page ∧ (wn desc 6 % 16 ≠ 0 ∨ blocks.any blkBad) then some 10
    else none

/-- RING_STORED advances past every page all of whose blocks are stored (R121). -/
def advanceStored (r : Nat) : Nat → State → State
  | 0, s => s
  | fuel + 1, s =>
    let g := s.pg.ring r
    match s.pg.ofDesc r g.stored with
    | some p => if p.stored ∧ g.stored ≠ g.fetch then
        advanceStored r fuel (setRing r (fun g => { g with stored := g.stored + 1 }) s) else s
    | none => s

/-- The bytes of a descriptor's block table (R113); a descriptor that fails its own checks and a BLANK_PAGE have none. -/
def tableLen (desc : List Word) : Nat := if fld (wd desc 0) 0 8 = 1 ∧ (headCheck desc).isNone then 16 * wn desc 8 else 0

/-- The entries of a descriptor's block table. -/
def tableOf (desc : List Word) (table : List Byte) : List Blk :=
  (List.range (tableLen desc / 16)).map (blkOf (wd desc 5) table)

/-- Bytes of a page before its last block. -/
def Page.sizeButLast (p : Page) : Nat := (((p.blocks.filter fun b => !b.blank).map (·.len)).dropLast).sum

/-- A page whose descriptor passed is taken in: RING_FETCH moves on and its blocks are asked for (R116, R121). Without space for it the ring
waits, with STORE_FULL (R126).
DEDUCED: a ring that is not in force waits, without STORE_FULL, until every block of the page, the last one too, is fetched while more than
half of the store is free (log 14). -/
def takePage (r : Nat) (idx : Word) (desc : List Word) (blocks : List Blk) (s : State) : State :=
  let p : Page := { uid := s.pg.nextUid, ring := r, descIdx := idx, desc := desc, lines := wn desc 2
                    blocks := blocks.map fun b => { b with fetches := 1 } }
  if s.pg.used + p.size > s.pg.capacity then
    stickRec .storeFull (setRing r (fun g => { g with waitSpace := true }) s)
  else if ¬ fetchRoom r (s.pg.used + p.sizeButLast) s then setRing r (fun g => { g with waitSpace := true }) s
  else
    let s1 := setRing r (fun g => { g with fetch := g.fetch + 1 })
      { s with pg := { s.pg with pages := s.pg.pages ++ [p], nextUid := s.pg.nextUid + 1 } }
    let s2 := (blocks.filter fun b => !b.blank).foldl (fun s b => readHost b.addr.toNat b.len s) s1
    fetchNext r (advanceStored r (s2.pg.pages.length) s2)

/-- A descriptor and its table have arrived (R114, R116, R121). The table is asked for once the descriptor has passed its own checks, with the
descriptor's arrival; then the table is checked, and the block fetches are issued, the ring halts, or it waits for space with STORE_FULL.
A table of another length than BLOCK_COUNT gives is not the one asked for. -/
def descArrived (r : Nat) (descBytes table : List Byte) (s : State) : State :=
  match s.pg.descReq.find? fun d => d.1 == r with
  | none => s
  | some (_, idx) =>
    let desc := bytesToWords descBytes 0 16
    if table.length ≠ tableLen desc then s else
      let s1 := readHost (wn64 desc 6) (tableLen desc) (dropFetch r s)
      match descCheck desc (tableOf desc table) s.pg.capacity with
      | some code => haltRing r code idx .descError s1
      | none => takePage r idx desc (tableOf desc table) s1

/-- DESC_FETCH_DONE. -/
def execDescFetchDone (ring : Fin 4) (desc table : List Byte) (s : State) : Host.Outcome State Fault Refusal :=
  .next (descArrived ring desc table s)

/-- Changes entry j of a page. -/
def setBlk (uid j : Nat) (f : Blk → Blk) (s : State) : State :=
  setPage uid (fun p => { p with blocks := upd p.blocks j f }) s

/-- A block of a page and the page. -/
def blkAt (r : Nat) (idx : Word) (j : Nat) (s : State) : Option (Page × Blk) :=
  match s.pg.ofDesc r idx with
  | some p => (p.blocks[j]?).map fun b => (p, b)
  | none => none

/-- A fetched block fails at ingest (R121): fetched again, up to 3 fetches in all, then stored BAD.
DESIGN CHOICE: the blocks of pages already taken in are taken, repeated and asked for again on a ring that has halted, too (log 14). -/
def ingestFail (p : Page) (j : Nat) (b : Blk) (s : State) : State :=
  let s1 := stickRec .blockRefetch s
  if b.fetches < 3 then
    readHost b.addr.toNat b.len
      (setPage p.uid (fun p => { p with refetches := p.refetches + 1 })
        (setBlk p.uid j (fun b => { b with fetches := b.fetches + 1 }) s1))
  else
    let s2 := setBlk p.uid j (fun b => { b with st := .bad }) s1
    advanceStored p.ring s2.pg.pages.length
      (stickEvent .blockBadIngest { ev := .blockFailed, p0 := w32 p.ring, p1 := b.idx, p2 := 1 } s2)

/-- BLOCK_FETCH_DONE (R121): entry j of a descriptor's table as fetched; an FLR or link loss has stopped the fetches until bus mastering is
enabled again (R35, R130). -/
def execBlockFetchDone (ring : Fin 4) (index : Word) (entry : Nat) (bytes : List Byte) (s : State) :
    Host.Outcome State Fault Refusal :=
  .next (match blkAt ring index entry s with
    | none => s
    | some (p, b) =>
      if b.blank ∨ b.st ≠ .wanted ∨ ¬ s.host.busMaster then s
      else match checkBlock b.idx (entry % p.modules) p.format b.len bytes with
        | none => ingestFail p entry b s
        | some _ =>
          let s1 := setBlk p.uid entry (fun b => { b with st := .good, data := bytes }) s
          advanceStored ring s1.pg.pages.length s1)

/-! ## Records -/

/-- Configured cameras: a CAMERA_CONTEXT with ENABLE 1 in force (R255, R38). -/
def camsConfigured (s : State) : BitVec 4 :=
  (List.range 4).foldl (fun a k => match objOf s.cg.inForce 12 k with
    | some b => if (b.getD 0 0).getLsbD 0 then a ||| (1#4 <<< k) else a
    | none => a) 0

/-- The first two conditions of R125: fired from every row, and reported for every configured camera. -/
def Page.finished (cams : BitVec 4) (p : Page) : Bool := p.fired && p.inspBy &&& cams == cams

/-- JOB_ID of an epoch (R128). -/
def jobOf (epoch : Word) (s : State) : Word := (find? s.cg.jobs epoch).getD s.cg.jobId

/-- A page that stays after its record (R126): RETAIN or SPOILED; a discarded page does not (R129). -/
def Page.keeps (p : Page) : Bool := (p.retain || p.spoiled) && !p.notPrinted

/-- A page record (R128). -/
def recordWords (jobId : Word) (p : Page) : List Word :=
  let printed := p.started && !p.notPrinted && !p.truncated && !p.unfired
  let flags := b2n printed + 2 * b2n p.spoiled + 4 * b2n p.notInsp + 8 * b2n p.keeps +
    16 * b2n p.reprint + 32 * b2n p.truncated + 64 * b2n p.notPrinted
  let body := [p.number, jobId, p.epoch, p.firstLine, w32 flags, w32 p.blankBlocks, w32 p.refetches,
    w32 (min p.offsetOmit 0xFFFF + 65536 * min p.overOmit 0xFFFF), w32 p.underrun, p.qualRef, wd p.desc 10, wd p.desc 11,
    p.descIdx, 0, 0]
  body ++ [w32 (crc32c (wordBytes body))]

/-- A page that is retained keeps its space to the end of its epoch (R126); from then on it is retained without it (R129). DEDUCED (log 15). -/
def Page.withoutSpace (p : Page) : Page := { p with blocks := [] }

/-- A page's record is written (R111, R126, R128, R130); a page that is not retained leaves the page store (R125). DESIGN CHOICE: a page
that never started shows EPOCH 0 and the JOB_ID in force; a reprint's own record takes the slot of its descriptor index, and RING_DONE
stays (log 15). -/
def writeRecord (p : Page) (s : State) : State :=
  let g := s.pg.ring p.ring
  let addr := g.recordBase.toNat + 64 * (p.descIdx.toNat % 2 ^ g.sizeLog2)
  let n := g.sinceIrq + 1
  let irq := decide (n ≥ max 1 g.irqCount)
  let s1 := emit (.dmaWrite addr (wordBytes (recordWords (jobOf (if p.started then p.epoch else s.cg.epochNow) s) p))) s
  let s2 := setRing p.ring (fun g => { g with
    done := if p.reprint then g.done else g.done + 1, sinceIrq := if irq then 0 else n }) s1
  let pages := s2.pg.pages.filterMap fun x =>
    if x.uid = p.uid then
      (if p.keeps then
        some { (if p.epoch = s.cg.epochNow then x else x.withoutSpace) with recorded := true, retained := true } else none)
    else some x
  let s3 := { s2 with pg := { s2.pg with pages := pages } }
  if irq then sendVec 4 s3 else s3

/-- The page of a ring whose record is due next: records are written in index order (R130); a reprint's own record does not wait for
others. -/
def nextRecord (s : State) : Option Page :=
  let cams := camsConfigured s
  s.pg.pages.find? fun p => !p.recorded && p.finished cams &&
    (p.reprint || p.descIdx == (s.pg.ring p.ring).done)

/-- Writes every record that is due while bus mastering is enabled (R130). -/
def writeRecords : Nat → State → State
  | 0, s => s
  | fuel + 1, s =>
    if !s.host.busMaster then s else
      match nextRecord s with
      | none => s
      | some p => writeRecords fuel (writeRecord p s)

/-- A page of a ring has been discarded and its record is still to be written. -/
def discarding (r : Nat) (s : State) : Bool := s.pg.pages.any fun p => p.ring == r && p.notPrinted && !p.recorded

/-- PD_RING_RESET commands answer once the records of the pages they discarded are written (R135). -/
def answerResets (s : State) : State :=
  (s.pg.resets.filter fun x => !discarding x.2 s).foldl (fun s x => respond x.1 ok s)
    { s with pg := { s.pg with resets := s.pg.resets.filter fun x => discarding x.2 s } }

/-- Writes what is due. -/
def recordsDue (s : State) : State := answerResets (writeRecords s.pg.pages.length s)

/-- Block fetches that an FLR or a link loss stopped are asked for again (R130). -/
def resumeBlocks (s : State) : State :=
  ((s.pg.pages.filter fun p => !p.reprint && !p.recorded).flatMap fun p =>
    p.blocks.filter fun b => !b.blank && b.st == .wanted).foldl (fun s b => readHost b.addr.toNat b.len s) s

/-- BUS_MASTER_ENABLE (R32, R130): the function is in D0, the records that fell due are written in index order and fetching resumes. The max
payload size and the max read request size that the host has set in Device Control by then are not among the row's operands: free values
(log 3) within R32's limits. -/
def execBusMasterEnable (s : State) : Host.Outcome State Fault Refusal :=
  let (payload, s1) := takeFree s
  let (request, s2) := takeFree s1
  let s3 := { s2 with host := { s2.host with
    busMaster := true, d3hot := false, maxPayload := 128 * 2 ^ (payload % 3), maxRead := 128 * 2 ^ (request % 6) } }
  .next (if s.host.busMaster then s else fetchAll (resumeBlocks (recordsDue s3)))

/-- A page gets a record with NOT_PRINTED and leaves (R129, R135). -/
def discardPages (which : Page → Bool) (s : State) : State :=
  recordsDue (mapPages (fun p => which p && !p.started && !p.recorded)
    (fun p => { p with notPrinted := true, fired := true, inspBy := 15 }) s)

/-! ## Starting pages -/

/-- The page a start decision takes: the first of the ring that has not started; a reprint stands directly before its BEFORE_PAGE
(R122, R127). -/
def nextPage (r : Nat) (s : State) : Option Page :=
  s.pg.pages.find? fun p => p.ring == r && !p.started && !p.recorded && !p.notPrinted

/-- The blank image lines before a page (R122): its GAP_LINES; a reprint takes the place of its BEFORE_PAGE, and so the GAP_LINES of that page,
which then follows it with its own (R127). -/
def gapBefore (p : Page) (s : State) : Nat := match p.before with
  | none => p.gap
  | some n => ((s.pg.pages.find? fun x => x.ring == p.ring && x.number == n && !x.started && !x.recorded && !x.reprint).map Page.gap).getD p.gap

/-- MODULES of the configuration in force for an image line or a fire line (R79, R122). -/
def modulesAt (L : Nat) (s : State) : Nat := (barOf (objsAt L s)).modules

/-- A group that changes what pages are checked against has reached its lock line and is not yet decided: start decisions for lines from its
Lc on wait for it (R88, R122, R582). -/
def lockPending (B nominal : Nat) (s : State) : Bool :=
  s.cg.groups.any fun g => g.st == .armed && g.line.isSome && decide (g.abs ≤ nominal ∧ g.abs ≤ B + 64 ∧ B < g.abs) &&
    g.objs.any fun o => o.kind == 1 || o.kind == 2

/-- The start-decision checks of R114 and R122 other than storage for a page of a nominal first line, in the order of the codes. -/
def startCheck (p : Page) (nominal : Nat) (s : State) : Option Nat :=
  let page := p.type == 1
  let k := linesPer p.format s.pg.decLpi600
  let expected := match s.pg.lastNumber with
    | some n => n + 1
    | none => s.pg.decFirst
  let perPage := p.pageLines / k.getD 1
  if page ∧ k.isNone then some 3
  else if page ∧ k = some 2 ∧ p.pageLines % 2 = 1 then some 4
  else if !p.reprint ∧ p.number ≠ expected then some 6
  else if page ∧ p.blocks.length ≠ ((perPage + p.bandLines - 1) / p.bandLines) * p.modules then some 7
  else if p.modules ≠ modulesAt nominal s then some 8
  else none

/-- The page numbers decided to start, by ring and epoch, the latest first; numbers of an epoch follow one another (R122). -/
def noteDecided (ring : Nat) (epoch num : Word) (l : List (Nat × Word × Word × Word)) : List (Nat × Word × Word × Word) :=
  match l with
  | (r, e, first, last) :: t =>
    if r = ring ∧ e = epoch then (r, e, first, num) :: t else (ring, epoch, num, num) :: ((r, e, first, last) :: t).take 7
  | [] => [(ring, epoch, num, num)]

/-- The start decision for a page number of a ring has been taken in an epoch, whether or not the page is still held (R127). -/
def decidedPage (ring : Nat) (epoch num : Word) (s : State) : Bool :=
  s.pg.decided.any fun (r, e, first, last) => r == ring && e == epoch && decide ((num - first).toNat ≤ (last - first).toNat)

/-- A page starts at an image line (R122, R123): its underrun lines, its place P in the epoch (R159), and where the next one
follows. The ACTIVE role unit sends the line over Vigil.
DEDUCED: for every page it starts, since its peer may lack one that it holds (log 19). -/
def startPage (p : Page) (nominal first : Nat) (s : State) : State :=
  let s1 := setPage p.uid (fun x => { x with
    started := true, gapUsed := gapBefore p s, before := none, epoch := s.pg.decEpoch, firstAbs := first, firstLine := w32 (first - s.pg.decBase)
    underrun := first - nominal, pNo := s.pg.startedCnt, lpi600 := s.pg.decLpi600 }) s
  let s2 := { s1 with pg := { s1.pg with
    nominal := first + p.lines, startedCnt := s1.pg.startedCnt + 1, underrunOn := false
    lastNumber := if p.reprint then s1.pg.lastNumber else some p.number
    decided := if p.reprint then s1.pg.decided else noteDecided p.ring s.pg.decEpoch p.number s1.pg.decided } }
  if s.twin.role = .active then
    vigilSend { type := 3, w5 := s.pg.decEpoch, w6 := w32 (first - s.pg.decBase), w7 := p.number } s2
  else s2

/-- An underrun's first failed decision is reported (R123) with the page's nominal first image line.
DESIGN CHOICE: so too where that decision is taken late, at the boundary at which the epoch began (R582), and its line + 64 is another
(log 15). -/
def underrun (r nominal : Nat) (s : State) : State :=
  if s.pg.underrunOn then s else
    stickEvent .pageUnderrun { ev := .underrun, p0 := w32 r, p1 := w32 (nominal - s.pg.decBase) }
      { s with pg := { s.pg with underrunOn := true } }

/-- A STANDBY role unit with its peer present takes the line at which a late page begins from the peer (R123). -/
def followsPeer (s : State) : Bool := s.twin.role == .standby && s.twin.peerPresent

/-- One start decision at boundary B (R122, R123). -/
def decide1 (B : Nat) (s : State) : State :=
  match s.pg.decRing with
  | none => s
  | some r =>
    match nextPage r s with
    | none => if B + 64 ≥ s.pg.nominal ∧ ¬ lockPending B s.pg.nominal s then underrun r s.pg.nominal s else s
    | some p =>
      let nominal := s.pg.nominal + gapBefore p s
      if B + 64 < nominal ∨ lockPending B nominal s then s
      else if (s.pg.ring r).halted ∨ !p.stored then underrun r nominal s
      else match startCheck p nominal s with
        | some code => haltRing r code p.descIdx .ringHalted s
        | none =>
          let late := s.pg.underrunOn || decide (B + 64 > nominal)
          if late ∧ s.pg.underrunOn ∧ followsPeer s then s
          else
            startPage p nominal (if s.pg.underrunOn then max (B + 64) nominal else nominal) s

/-- The start decisions that fall due at boundary B: pages short enough may start together. -/
def decisions (B : Nat) : Nat → State → State
  | 0, s => s
  | fuel + 1, s =>
    let s1 := decide1 B s
    if s1.pg.startedCnt = s.pg.startedCnt then s1 else decisions B fuel s1

/-- Start decisions at boundary B. -/
def pageDecisions (B : Nat) (s : State) : State := decisions B (s.pg.pages.length + 1) s

/-- A page of the epoch of the decisions that has started under a number, at `first` where that is given. -/
def startedAs (num : Word) (first : Option Nat) (s : State) : Option Page :=
  s.pg.pages.find? fun p => p.started && !p.recorded && p.epoch == s.pg.decEpoch && p.number == num && first.all (· == p.firstAbs)

/-- A started page, and every one that has started after it in its epoch, begins `delta` lines later, or earlier (R123). -/
def movePages (p : Page) (delta : Int) (s : State) : State :=
  let s1 := mapPages (fun x => x.started && !x.recorded && x.epoch == p.epoch && decide (p.pNo ≤ x.pNo))
    (fun x => { x with firstAbs := (x.firstAbs + delta).toNat, firstLine := x.firstLine + wInt delta }) s
  setPage p.uid (fun x => { x with underrun := (x.underrun + delta).toNat })
    { s1 with pg := { s1.pg with nominal := (s1.pg.nominal + delta).toNat } }

/-- What a PAGE_START of the peer does at a boundary (R123): none while it waits. A page that the unit holds begins at the peer's line, one that it
has itself begun elsewhere is moved there, and one that it does not hold stored by that line makes it unsynchronised, which the caller acts
on: the flag. -/
def followStart (B : Nat) (m : Word × Word × Word) (s : State) : Option (Bool × State) :=
  let (e, ls, num) := m
  let first := s.pg.decBase + ls.toNat
  if e ≠ s.pg.decEpoch then (if e < s.pg.decEpoch then some (false, s) else none)
  else if (startedAs num (some first) s).isSome then some (false, s)
  else
    let waits := if B ≥ first then some (true, s) else none
    match s.pg.decRing.bind fun r => nextPage r s with
    | some p =>
      let nominal := s.pg.nominal + gapBefore p s
      if p.number = num then
        if p.stored ∧ ¬ (s.pg.ring p.ring).halted ∧ (startCheck p nominal s).isNone then some (false, startPage p nominal first s) else waits
      else match startedAs num none s with
        | some q => some (false, movePages q ((first : Int) - q.firstAbs) s)
        | none => waits
    | none => match startedAs num none s with
      | some q => some (false, movePages q ((first : Int) - q.firstAbs) s)
      | none => waits

/-- What the PAGE_STARTs of the peer that wait do in STANDBY role, in the order in which they came, and whether a page was not held in time
(R123). -/
def peerPageStart (B : Nat) (s : State) : Bool × State :=
  if s.twin.role ≠ .standby then (false, { s with pg := { s.pg with peerStart := [] } }) else
  s.pg.peerStart.foldl (fun (lost, s) m => match followStart B m s with
    | none => (lost, s)
    | some (late, s1) => (lost || late, { s1 with pg := { s1.pg with peerStart := s1.pg.peerStart.filter fun x => x != m } })) (false, s)

/-! ## Print-time decoding -/

/-- First image line (unrebased) of the band of entry j. -/
def bandFirst (p : Page) (j : Nat) : Nat :=
  p.firstAbs + (j / p.modules) * p.bandLines * (linesPer p.format p.lpi600).getD 1

/-- Garnet receives zero lines for a block (R124): the page is spoiled, BLOCK_BLANKED and event 0x0321. -/
def blankBlock (p : Page) (j : Nat) (b : Blk) (s : State) : State :=
  let s1 := setPage p.uid (fun x => { x with spoiled := true }) (setBlk p.uid j (fun b => { b with dec := .blanked }) s)
  stickEvent .blockBlanked { ev := .blockFailed, p0 := w32 p.ring, p1 := b.idx, p2 := 2 } s1

/-- A block that prints blank is counted as its band prints, and its page is spoiled (R121, R128). -/
def countBlank (p : Page) (j : Nat) (s : State) : State :=
  setPage p.uid (fun x => { x with blankBlocks := x.blankBlocks + 1, spoiled := true }) (setBlk p.uid j (fun b => { b with counted := true }) s)

/-- A block's own step at boundary B (R121, R124): it begins at its band's first line - 48, where a BAD one is given up; one that has not
passed by first line - 16 is blanked; at the first line one that prints blank is counted. -/
def blockStep (B : Nat) (p : Page) (s : State) (jb : Blk × Nat) : State :=
  let (b, j) := jb
  let first := bandFirst p j
  if first ≥ p.firstAbs + p.lines then s
  else if b.dec = .blanked ∧ ¬ b.counted ∧ B ≥ first then countBlank p j s
  else if b.dec = .idle ∧ B + 48 ≥ first then
    if b.blank then setBlk p.uid j (fun b => { b with dec := .released }) s
    else if b.st = .bad then setBlk p.uid j (fun b => { b with dec := .blanked }) s
    else setBlk p.uid j (fun b => { b with dec := .decoding }) s
  else if (b.dec = .decoding ∨ b.dec = .refetching) ∧ B + 16 ≥ first then blankBlock p j b s
  else s

/-- Topaz at boundary B (R30, R124). -/
def topazStep (B : Nat) (s : State) : State :=
  (s.pg.pages.filter fun p => p.started && !p.fired).foldl (fun s p => p.blocks.zipIdx.foldl (blockStep B p) s) s

/-- The started page of a descriptor and an entry of it, original or reprint. -/
def printBlk (uid j : Nat) (s : State) : Option (Page × Blk) :=
  match s.pg.page? uid with
  | some p => (p.blocks[j]?).map fun b => (p, b)
  | none => none

/-- TOPAZ_BLOCK_DECODED (R124): an engine has decoded a stored block of a held page; its page-store read was
uncorrectable where `poisoned` says so, or where the controller has returned it poisoned (R119, R480). -/
def execTopazBlockDecoded (page entry : Nat) (poisoned : Bool) (s : State) : Host.Outcome State Fault Refusal :=
  .next (match printBlk page entry s with
    | none => s
    | some (p, b) =>
      if b.dec ≠ .decoding then s
      else if !poisoned ∧ !b.poison ∧ (checkBlock b.idx (entry % p.modules) p.format b.len b.data).isSome then
        setBlk page entry (fun b => { b with dec := .released }) s
      else if p.earlyFree ∨ !s.host.busMaster then blankBlock p entry b s
      else
        let s1 := setPage page (fun p => { p with refetches := p.refetches + 1 })
          (setBlk page entry (fun b => { b with dec := .refetching, poison := false }) s)
        readHost b.addr.toNat b.len (stickRec .blockRefetch s1))

/-- TOPAZ_REFETCH_DONE (R124): the copy fetched at print time, decoded; it replaces the stored one or the block is blanked. -/
def execTopazRefetchDone (page entry : Nat) (bytes : List Byte) (s : State) : Host.Outcome State Fault Refusal :=
  .next (match printBlk page entry s with
    | none => s
    | some (p, b) =>
      if b.dec ≠ .refetching then s
      else if (checkBlock b.idx (entry % p.modules) p.format b.len bytes).isSome then
        setBlk page entry (fun b => { b with dec := .released, data := bytes }) s
      else blankBlock p entry b s)

/-- DMA_ERROR (R121, R124, R134): a fetch ended in a completion error or timeout and is handled as a check failure: of the ring's
descriptor (`entry` none), of a block at ingest, or of one at print time. DEDUCED: the check that a descriptor fails so is DESC_CRC, code 1
of HALT_REASON (log 14). -/
def execDmaError (ring : Fin 4) (index : Word) (entry : Option Nat) (page : Option Nat) (s : State) : Host.Outcome State Fault Refusal :=
  let s1 := stickRec .dmaError s
  .next (match entry with
    | none => if s.pg.descReq.contains ((ring : Nat), index) then
        haltRing ring 1 index .descError s1
      else s
    | some j => match page with
      | none => match blkAt ring index j s with
        | some (p, b) => if b.blank ∨ b.st ≠ .wanted ∨ ¬ s.host.busMaster then s else ingestFail p j b s1
        | none => s
      | some u => match printBlk u j s with
        | some (p, b) => if b.dec = .refetching then blankBlock p j b s1 else s
        | none => s)

/-! ## Image lines -/

/-- The epoch a line falls in (R8, R93): line 0, number, pages started in it. -/
def epochAt (L : Nat) (s : State) : Nat × Word × Nat :=
  (s.pg.epochs.find? fun e => decide (e.1 ≤ L)).getD (s.cg.imgKeyEpoch, s.cg.epochNow, 0)

/-- The page an image line (unrebased) belongs to: one of the epoch the line falls in (R93, R129). -/
def pageAt (L : Nat) (s : State) : Option Page :=
  let epoch := (epochAt L s).2.1
  s.pg.pages.find? fun p => p.started && !p.recorded && p.epoch == epoch && decide (p.firstAbs ≤ L ∧ L < p.firstAbs + p.lines)

/-- Pages whose last image line has fired from every row by boundary B (R21, R125): `maxD` is the largest Dint in force. -/
def pagesFired (B maxD : Nat) (s : State) : State :=
  mapPages (fun p => p.started && !p.fired && decide (p.firstAbs + p.lines + maxD + 1 ≤ B)) (fun p => { p with fired := true }) s

/-- An epoch that begins at a line, ahead of those before it; the one it follows keeps the number of its pages. -/
def pushEpoch (base : Nat) (epoch : Word) (started : Nat) (l : List (Nat × Word × Nat)) : List (Nat × Word × Nat) :=
  match l with
  | (b, e, n) :: t => if b = base ∧ e = epoch then (b, e, n) :: t else (base, epoch, 0) :: (((b, e, started) :: t).take 7)
  | [] => [(base, epoch, 0)]

/-- The epoch's pages pass to a new epoch at image line `lc` (R122, R129, R582): the ring, the epoch's number, FIRST_PAGE, addressability
and module count of the start decisions. -/
def beginEpochPages (ring lc : Nat) (epoch first : Word) (lpi600 : Bool) (modules : Nat) (s : State) : State :=
  { s with pg := { s.pg with
    decRing := some ring, decBase := lc, decEpoch := epoch, decFirst := first, decLpi600 := lpi600, decModules := modules
    epochs := pushEpoch lc epoch s.pg.startedCnt s.pg.epochs, nominal := lc, lastNumber := none, startedCnt := 0, underrunOn := false } }

/-- The page side of a JOB_START commit at `lc` (R93, R112, R129): a page in progress is cut short and spoiled; another ring takes over and
the old one stops, what it was fetching is not taken, its pages that have not started are discarded; the same ring carries on. Pages
retained from the ended epoch give up their space (R126).
DESIGN CHOICE: a reprint that was placed and has not started when its epoch ends stays where it stands in the page order of a ring that
carries on (log 15). -/
def commitEpochPages (ring lc : Nat) (epoch : Word) (s : State) : State :=
  let cut := mapPages (fun p => p.started && p.epoch != epoch && decide (p.firstAbs < lc ∧ lc < p.firstAbs + p.lines))
    (fun p => { p with lines := lc - p.firstAbs, truncated := true, spoiled := true }) s
  let rings := cut.pg.rings.zipIdx.map fun (g, r) =>
    if r = ring then { g with inForce := true, waitSpace := false } else if g.inForce then { g with inForce := false, stopped := true } else g
  let olds := (List.range 4).filter fun r => (s.pg.ring r).inForce && r != ring
  let s1 := { cut with pg := { cut.pg with rings := rings } }
  let some := s1.pg.pages.any fun p => olds.contains p.ring && !p.started && !p.recorded
  let s2 := discardPages (fun p => olds.contains p.ring)
    (mapPages (fun p => p.retained && p.epoch != epoch) Page.withoutSpace (olds.foldl (fun s r => dropFetch r s) s1))
  fetchAll (if some then stickRec .epochDiscard s2 else s2)

/-! ## Commands -/

/-- PD_RING_CONFIG (R135). -/
def execPdRingConfig (slot : Fin 16) (s : State) : Host.Outcome State Fault Refusal :=
  .next (command 0x0300 7 slot
    (fun s ws =>
      let g := s.pg.ring (fld (wd ws 0) 0 2)
      [reservedW ws 0 0x103, (wn ws 1 % 4096 != 0, badParam 1),
       (decide (fld (wd ws 3) 0 4 < 4 ∨ fld (wd ws 3) 0 4 > 12), badParam 3), reservedW ws 3 0xF,
       (wn ws 4 % 4096 != 0, badParam 4), reservedW ws 6 0xFF,
       (g.inForce || g.fetch != g.done, busy)])
    (fun _ ws s =>
      let r := fld (wd ws 0) 0 2
      done (setRing r (fun g => { g with
        prod := 0, fetch := 0, stored := 0, done := 0, enabled := flag (wd ws 0) 8
        descBase := BitVec.ofNat 64 (wn64 ws 1), sizeLog2 := fld (wd ws 3) 0 4
        recordBase := BitVec.ofNat 64 (wn64 ws 4), irqCount := fld (wd ws 6) 0 8, sinceIrq := 0, waitSpace := false }) (dropFetch r s), ok)) s)

/-- A page of a ring is in progress: started, with image lines still to come. DEDUCED (log 15). -/
def pageInProgress (r : Nat) (s : State) : Bool :=
  s.pg.pages.any fun p => p.ring == r && p.started && !p.recorded && decide (s.pos.absHigh < p.firstAbs + p.lines)

/-- PD_RING_RESET (R114, R129, R135): it answers once the NOT_PRINTED records it causes are written, which happens in index order (R130).
DEDUCED: fetching goes on from RING_FETCH. DESIGN CHOICE: RING_STORED moves up to it, over discarded pages that were not stored (log 15). -/
def execPdRingReset (slot : Fin 16) (s : State) : Host.Outcome State Fault Refusal :=
  .next (command 0x0301 1 slot
    (fun s ws => [reservedW ws 0 3, (pageInProgress (fld (wd ws 0) 0 2) s, busy)])
    (fun _ ws s =>
      let r := fld (wd ws 0) 0 2
      let s1 := discardPages (fun p => p.ring == r) s
      let s2 := fetchNext r (setRing r (fun g => { g with halted := false, haltReason := 0, stopped := false, waitSpace := false, stored := g.fetch })
        (dropFetch r s1))
      if discarding r s2 then ({ s2 with pg := { s2.pg with resets := s2.pg.resets ++ [((slot : Nat), r)] } }, none) else done (s2, ok)) s)

/-- The retained page of a ring, number and epoch. -/
def retainedPage (r : Nat) (num epoch : Word) (s : State) : Option Page :=
  s.pg.pages.find? fun p => p.retained && p.ring == r && p.number == num && p.epoch == epoch

/-- PD_PAGE_RELEASE (R125, R126, R135). -/
def execPdPageRelease (slot : Fin 16) (s : State) : Host.Outcome State Fault Refusal :=
  .next (command 0x0302 3 slot
    (fun s ws => [reservedW ws 0 3, ((retainedPage (fld (wd ws 0) 0 2) (wd ws 1) (wd ws 2) s).isNone, badParam 1)])
    (fun _ ws s =>
      match retainedPage (fld (wd ws 0) 0 2) (wd ws 1) (wd ws 2) s with
      | some p => done ({ s with pg := { s.pg with pages := s.pg.pages.filter fun x => x.uid != p.uid } }, ok)
      | none => done (s, ok)) s)

/-- Places a page directly before the first page of the ring with a number that has not started. -/
def insertBefore (p : Page) (num : Word) : List Page → List Page
  | [] => []
  | x :: xs => if x.ring = p.ring ∧ x.number = num ∧ ¬ x.started ∧ ¬ x.recorded ∧ ¬ x.reprint then p :: x :: xs
    else x :: insertBefore p num xs

/-- PD_REPRINT (R127, R135). DEDUCED: the reprint takes its own space in the page store, and a BEFORE_PAGE that is neither held nor decided
in the epoch gives BAD_PARAM (log 15). -/
def execPdReprint (slot : Fin 16) (s : State) : Host.Outcome State Fault Refusal :=
  .next (command 0x0303 3 slot
    (fun s ws =>
      let r := fld (wd ws 0) 0 2
      let kept := s.pg.pages.filter fun p => p.retained && p.ring == r && p.number == wd ws 1
      let cur := kept.find? fun p => p.epoch == s.cg.epochNow
      let before := s.pg.pages.filter fun p => p.ring == r && p.number == wd ws 2 && !p.reprint
      let open_ := before.any fun p => !p.started && !p.recorded
      let taken := !open_ && (!before.isEmpty || decidedPage r s.cg.epochNow (wd ws 2) s)
      let size := ((cur.map Page.size).getD 0)
      [ reservedW ws 0 3, (kept.isEmpty, badParam 1), (before.isEmpty && !taken, badParam 2),
        (!kept.isEmpty && cur.isNone, badState),
        (decide (s.pg.used + size > s.pg.capacity), noResource),
        (taken, late) ])
    (fun _ ws s =>
      let r := fld (wd ws 0) 0 2
      match s.pg.pages.find? fun p => p.retained && p.ring == r && p.number == wd ws 1 && p.epoch == s.cg.epochNow with
      | none => done (s, badState)
      | some p =>
        let q : Page := { uid := s.pg.nextUid, ring := r, descIdx := p.descIdx, desc := p.desc, lines := p.pageLines, before := some (wd ws 2)
                          blocks := p.blocks.map fun b => { b with dec := .idle, counted := false }, reprint := true }
        done ({ s with pg := { s.pg with pages := insertBefore q (wd ws 2) s.pg.pages, nextUid := s.pg.nextUid + 1 } }, ok)) s)

/-- PD_STORE_INFO (R135). -/
def execPdStoreInfo (slot : Fin 16) (s : State) : Host.Outcome State Fault Refusal :=
  .next (command 0x0304 0 slot (fun _ _ => [])
    (fun _ _ s =>
      let kept := ((s.pg.pages.filter (·.retained)).map Page.size).sum
      let waiting := (List.range 4).map fun r => w32 (countIf s.pg.pages fun p => p.ring == r && p.stored && !p.started && !p.recorded)
      done (s, okWith (words64 s.pg.capacity ++ words64 s.pg.used ++ words64 kept ++ waiting))) s)

/-! ## Check-value contexts -/

/-- Context k. -/
def Pages.ctx (p : Pages) (k : Nat) : CvCtx := cell p.cv k {}

/-- Changes context k. -/
def setCtx (k : Nat) (f : CvCtx → CvCtx) (s : State) : State := { s with pg := { s.pg with cv := upd s.pg.cv k f } }

/-- WIDTH 0 or above 64 disables a context (R132). -/
def CvCtx.disabled (c : CvCtx) : Bool := c.width == 0 || decide (c.width > 64)

/-- A 64-bit field of a context uses its low WIDTH bits (R132). -/
def CvCtx.narrow (c : CvCtx) (x : Nat) : Nat := x % 2 ^ c.width

/-- Feeds bytes into a context, byte 0 first (R132). -/
def CvCtx.feed (c : CvCtx) (bs : List Byte) : CvCtx :=
  { c with
    value := BitVec.ofNat 64 (bs.foldl (crcByte c.width (c.narrow c.poly.toNat) c.refin) (c.narrow c.value.toNat))
    count := c.count + w32 bs.length }

/-- CV_START (R132): VALUE takes INIT, and TAG_BYTES bytes of TAG are processed. -/
def CvCtx.start (c : CvCtx) : CvCtx :=
  { c with value := BitVec.ofNat 64 (c.narrow c.init.toNat), count := 0 }.feed (bytesLE (min 8 c.tagBytes) c.tag.toNat)

/-- CV_RESULT (R132). DEDUCED: where the Reset column's 0 differs from the formula over the reset values, the formula is read (log 15). -/
def CvCtx.result (c : CvCtx) : Nat :=
  if c.disabled then 0 else
    let v := c.narrow c.value.toNat
    Nat.xor (if c.refout then reflect c.width v else v) (c.narrow c.xorout.toNat)

/-- A BAR0 write to a context: discarded with CV_CONFLICT while it is BUSY (R133), ignored where `data` and the context is disabled
(R132). -/
def cvWrite (k : Nat) (data : Bool) (f : CvCtx → CvCtx) (s : State) : State :=
  let c := s.pg.ctx k
  if c.busy.isSome then stickRec .cvConflict s
  else if data && c.disabled then s
  else setCtx k f s

/-- CV_START. -/
def execCvStart (ctx : Fin 4) (s : State) : Host.Outcome State Fault Refusal := .next (cvWrite ctx true CvCtx.start s)

/-- CV_DATA: 4 bytes. -/
def execCvData (ctx : Fin 4) (v : Word) (s : State) : Host.Outcome State Fault Refusal :=
  .next (cvWrite ctx true (fun c => c.feed (bytesLE 4 v.toNat)) s)

/-- BAR0 offset of a register of context k (R132). -/
def cvOffset (k off : Nat) : Nat := 0x40000 + 0x1000 * k + off

/-- CV_DATA64 (R13, R132): the upper word is written; the lower half is the lower word last written. -/
def cvData64 (k : Nat) (upper : Word) (s : State) : State :=
  let lo : Word := (find? s.host.woLow (cvOffset k 0x48)).getD 0
  cvWrite k true (fun c => c.feed (bytesLE 4 lo.toNat ++ bytesLE 4 upper.toNat)) s

/-- CV_DATA64. -/
def execCvData64 (ctx : Fin 4) (upper : Word) (s : State) : Host.Outcome State Fault Refusal := .next (cvData64 ctx upper s)

/-- CV_DATA8: one byte. -/
def execCvData8 (ctx : Fin 4) (v : Byte) (s : State) : Host.Outcome State Fault Refusal :=
  .next (cvWrite ctx true (fun c => c.feed [v]) s)

/-- A write of a 64-bit field of a context: bits above WIDTH are ignored (R132). -/
def CvCtx.put (c : CvCtx) (old v : Dword) : Dword :=
  let mask : Dword := BitVec.ofNat 64 (2 ^ min 64 c.width - 1)
  (old &&& ~~~ mask) ||| (v &&& mask)

/-- CV_VALUE_WRITE (R132): the running register, within WIDTH; a disabled context holds it. -/
def execCvValueWrite (ctx : Fin 4) (v : Dword) (s : State) : Host.Outcome State Fault Refusal :=
  .next (cvWrite ctx true (fun c => { c with value := c.put c.value v }) s)

/-- CV_COMPUTE (R132, R135). -/
def execCvCompute (slot : Fin 16) (s : State) : Host.Outcome State Fault Refusal :=
  .next (command 0x0305 4 slot
    (fun s ws =>
      let c := s.pg.ctx (fld (wd ws 0) 0 2)
      [(c.disabled, badParam 0), reservedW ws 0 3, (wd ws 3 == 0, badParam 3), (c.busy.isSome, busy), completionsFull s])
    (fun tag ws s =>
      let k := fld (wd ws 0) 0 2
      let s1 := outstand 0x0305 tag k (setCtx k (fun c => { c with
        busy := some (tag, BitVec.ofNat 64 (wn64 ws 1), wd ws 3), stopped := false }) s)
      done (readHost (wn64 ws 1) (wn ws 3) s1, accepted)) s)

/-- CV_COMPUTE_DONE (R135): the bytes processed, all that were asked for; a computation an FLR or link loss stopped completes with HW_FAULT and
the number of those it had processed. -/
def execCvComputeDone (ctx : Fin 4) (bytes : List Byte) (s : State) : Host.Outcome State Fault Refusal :=
  let c := s.pg.ctx ctx
  .next (match c.busy with
    | none => s
    | some (tag, _, len) => if (if c.stopped then len.toNat < bytes.length else bytes.length ≠ len.toNat) then s else
      let c1 := { c.feed bytes with busy := none, stopped := false }
      let s1 := setCtx ctx (fun _ => c1) s
      if c.stopped then complete 0x0305 tag 0x30 (w32 bytes.length) 0 0 s1
      else complete 0x0305 tag 0 (w32 c1.result) (w32 (c1.result >>> 32)) 0 s1)

end Sys2Proof.Machine
end

