-- ==== Sys2Proof/Machine/Bar.lean ====
section
/-!
DEFINITION. The bar: the state in force for an image line or a fire line (R79), row offsets (R19 to R21, R580), live rows (R158), the
line-rate limit (R28), energy weights (R185 to R187) and pages by fire line.
-/
namespace Sys2Proof.Machine

/-! ## Offsets -/

/-- D(m,r) for image lines from L on (R580), raw 32.18. -/
def dAt (L : Nat) (s : State) : List (List Nat) :=
  match ((lockedUpTo L s).filter fun g => !g.dPend.isEmpty).getLast? with
  | some g => g.dPend
  | none => s.cg.dOff

/-- D of module m and row r. -/
def dOf (d : List (List Nat)) (m r : Nat) : Nat := cell (cell d m []) r 0

/-- Dint (R21). -/
def dInt (d : List (List Nat)) (m r : Nat) : Nat := dOf d m r / 2 ^ 18

/-- Dfrac (R21). -/
def dFrac (d : List (List Nat)) (m r : Nat) : Nat := dOf d m r % 2 ^ 18

/-- The Dint of every fitted module and row in use. -/
def dInts (d : List (List Nat)) (modules rows : Nat) : List Nat :=
  (List.range modules).flatMap fun m => (List.range rows).map fun r => dInt d m r

/-- The largest of a list, 0 of none. -/
def maxOf (l : List Nat) : Nat := l.foldl max 0

/-- The smallest of a list, 0 of none. -/
def minOf : List Nat → Nat
  | [] => 0
  | x :: xs => xs.foldl min x

/-- The largest Dint in force. -/
def maxDint (s : State) : Nat := maxOf (dInts s.cg.dOff s.cg.modules s.cg.rows)

/-- Epoch and number of a line in the epoch it falls in (R8, R93). -/
def lineIn (L : Nat) (s : State) : Word × Nat := ((epochAt L s).2.1, L - (epochAt L s).1)

/-- The unrebased count of a line of the epoch in force. -/
def absOf (line : Word) (s : State) : Nat := s.cg.imgKeyEpoch + line.toNat

/-! ## Nozzle maps and rows -/

/-- Columns of a module (R5). -/
def colsPer : Nat := 3264

/-- The map byte of local column k and row r (R292); a module with no map has every nozzle LIVE (R293). -/
def mapByte (objs : List Obj) (m k r : Nat) : Nat :=
  match objOf objs 7 m with
  | some b => by8 b (4 * k + r)
  | none => 0

/-- LIVE or WEAK (R293). -/
def liveByte (b : Nat) : Bool := decide (b % 4 ≤ 1)

/-- A nozzle is live (R158). -/
def liveNozzle (objs : List Obj) (m k r : Nat) : Bool := liveByte (mapByte objs m k r)

/-- LR_c: live rows of a column among the rows in use, in letter order (R158). -/
def liveRows (objs : List Obj) (rows m k : Nat) : List Nat := (List.range rows).filter fun r => liveNozzle objs m k r

/-- k_c of every column of the fitted modules. -/
def kCols (objs : List Obj) (modules rows : Nat) : List Nat :=
  (List.range modules).flatMap fun m => (List.range colsPer).map fun k => (liveRows objs rows m k).length

/-- k_live (R28). DESIGN CHOICE: where no fitted column has a live row it is 0, and so F_LIM: no line rate is then held against it
(log 37). -/
def kLiveOf (objs : List Obj) (modules rows : Nat) : Nat := minOf ((kCols objs modules rows).filter fun k => decide (0 < k))

/-- Fitted columns with no live row (R163). -/
def deadColsOf (objs : List Obj) (modules rows : Nat) : Nat := countIf (kCols objs modules rows) fun k => k == 0

/-! ## Capability records (R221) -/

/-- The accepted record of lane m. -/
def capOf (m : Nat) (s : State) : List Word := (s.lane m).capHeld.getD []

/-- ROWS_FITTED. -/
def capRows (c : List Word) : Nat := fld (wd c 0) 20 3
/-- F_HEAD. -/
def capFHead (c : List Word) : Nat := wn c 4
/-- REFILL_NS. -/
def capRefill (c : List Word) : Nat := fld (wd c 5) 0 16
/-- MAX_HEATERS. -/
def capHeaters (c : List Word) : Nat := fld (wd c 5) 16 16
/-- T_HEAD_MAX. -/
def capTMax (c : List Word) : Nat := fld (wd c 6) 0 8
/-- MAX_MAIN. -/
def capMaxMain (c : List Word) : Nat := fld (wd c 6) 8 10
/-- PH_MAX. -/
def capPhMax (c : List Word) : Nat := fld (wd c 6) 18 6
/-- HEAD_FIXED. -/
def capFixed (c : List Word) : Nat := fld (wd c 7) 0 16
/-- ROW_OFFSET of row r, nm. -/
def capRowOffset (c : List Word) (r : Nat) : Nat := wn c (8 + r)
/-- HEAD_SERIAL. -/
def capSerial (c : List Word) : Nat := wn64 c 2

/-- The lowest T_HEAD_MAX of the fitted heads (R196). -/
def lowestTMax (s : State) : Option Nat :=
  let l := (s.fitted.filter fun m => (s.lane m).capHeld.isSome).map fun m => capTMax (capOf m s)
  if l.isEmpty then none else some (minOf l)

/-- f_head: the lowest F_HEAD that a fitted module reports (R28). DESIGN CHOICE: a module whose record is not held reports none and does not
count; where no module reports one it is 0 (log 37). -/
def fHeadOf (modules : Nat) (s : State) : Nat :=
  minOf (((List.range modules).filter fun m => (s.lane m).capHeld.isSome).map fun m => capFHead (capOf m s))

/-- F_LIM in whole lines per second (R28). -/
def fLimOf (kLive fHead : Nat) : Nat := min 236220 (kLive * fHead)

/-! ## Row offsets -/

/-- O(m,r) in nm (R20). DESIGN CHOICE: where no record of the module is held its reported offset counts as 0 (log 37). -/
def rowO (objs : List Obj) (s : State) (m r : Nat) : Int :=
  let reg : Int := match objOf objs 8 0 with
    | some b => (objWord b (4 * m + r)).toInt
    | none => 0
  (capRowOffset (capOf m s) r : Int) + reg

/-- D(m,r) of every fitted module and row in use (R20): to the nearest 2⁻¹⁸ line, an exact half up. -/
def dCompute (objs : List Obj) (bar : BarCfg) (s : State) : List (List Int) :=
  let o := (List.range bar.modules).map fun m => (List.range bar.rows).map (rowO objs s m)
  let least := match o.flatten with
    | [] => 0
    | x :: xs => xs.foldl min x
  let lpi : Int := if bar.lpi600 then 600 else 1200
  o.map fun l => l.map fun x => roundHalfUp ((x - least) * lpi * 2 ^ 18) 25400000

/-- A D outside R19. -/
def dBad (d : List (List Int)) : Bool := d.any fun l => l.any fun x => decide (x < 0 ∨ x ≥ 1024 * 2 ^ 18)

/-! ## Energy -/

/-- A width field of an ENERGY_TABLE entry for drop size d (R185). -/
def widthField (table : List Byte) (e d : Nat) : Nat := fld (objWord table e) (10 * (d - 1)) 10

/-- The energy code of a nozzle (R186). -/
def codeOf (codes : List Byte) (k r : Nat) : Nat := by8 codes (4 * k + r) % 64

/-- The weight of a drop of size d at code e (R187). -/
def weight (table : List Byte) (e d : Nat) : Nat := if d = 0 then 0 else 160 + widthField table e d

/-- ENERGY_TABLE and ENERGY_CODES in force for a module, if it has both (R187). -/
def energyOf (objs : List Obj) (m : Nat) : Option (List Byte × List Byte) :=
  match objOf objs 9 m, objOf objs 10 m with
  | some t, some c => some (t, c)
  | _, _ => none

/-- The code a drop uses: its own for a probe drop (R193), else the nozzle's. -/
def Drop.energyCode (codes : List Byte) (d : Drop) : Nat := d.probe.getD (codeOf codes (d.col % colsPer) d.row)

/-- The weight of a placed drop under the objects keyed to its fire line (R166, R187). -/
def dropWeight (objs : List Obj) (d : Drop) : Nat :=
  match energyOf objs (d.col / colsPer) with
  | some (t, c) => weight t (d.energyCode c) d.code
  | none => 0

/-! ## Drops -/

/-- The drops placed in fire line F of module m (R165). -/
def dropsOf (F m : Nat) (s : State) : List Drop := s.scr.placed.filter fun d => d.fire == F && d.col / colsPer == m

/-- Pages with a drop in a list. -/
def pagesIn (ds : List Drop) : List Nat := (ds.filterMap (·.page)).dedup

/-- Image lines of a module that give no calibration samples (R296). -/
def exclude (l : List (Nat × Nat)) (s : State) : State :=
  { s with cal := { s.cal with excl := l.filter (fun x => !s.cal.excl.contains x) ++ s.cal.excl } }

/-- The module and image line of every drop. -/
def drawnBy (ds : List Drop) : List (Nat × Nat) := (ds.map fun d => (d.col / colsPer, d.img)).dedup

/-- Drops that are not fired: every page with one of them is spoiled (R128), and their image lines give no samples (R296). -/
def spoilDrops (ds : List Drop) (s : State) : State := exclude (drawnBy ds) (spoil (pagesIn ds) s)

/-- The same, the pages having an unfired line (R456). -/
def unfireDrops (ds : List Drop) (s : State) : State := exclude (drawnBy ds) (unfire (pagesIn ds) s)

/-! ## Times -/

/-- The sample instant in 312.5 ps steps: MONO_TIME × 16 ÷ 5. -/
def nowSteps (s : State) : Int := (s.pos.mono.toNat * 16 / 5 : Nat)

/-- A time in ns as 312.5 ps steps. -/
def steps (ns : Nat) : Int := (ns * 16 / 5 : Nat)

/-- A least time in ns as 312.5 ps steps: never short of it. -/
def stepsUp (ns : Nat) : Int := ((ns * 16 + 4) / 5 : Nat)

/-- T_s as a raw 24.8 number of 312.5 ps steps; none while the web stands or moves backwards (R324). -/
def lineTs (s : State) : Option Nat := if s.pos.tS = 0xFFFFFFFF then none else some s.pos.tS.toNat

/-- The unit may send frames and markers (R413). -/
def sendsFrames (s : State) : Bool :=
  (s.twin.role == .solo || s.twin.role == .active || (s.twin.role == .standby && s.twin.synced)) &&
  (s.host.opState == .print || s.host.opState == .service) && s.twin.prsnt

/-- Folds an operation over a list of numbers. -/
def forAll (l : List Nat) (f : Nat → State → State) (s : State) : State := l.foldl (fun s n => f n s) s

end Sys2Proof.Machine
end

