-- ==== Sys2Proof/Machine/Garnet.lean ====
section
/-!
DEFINITION. Garnet: tone path, screening, row choice, fire-line assembly, row-state save and load, trace (R136 to R176), and the drops of
a probe visit (R193).
-/
namespace Sys2Proof.Machine

/-! ## From page data to the tone word -/

/-- Expansion to u1.17 (R141); `bits16` for 16-bit contone. -/
def expandTone (bits16 : Bool) (v : Nat) : Nat :=
  if bits16 then (v * 131072 + 32767) / 65535 else (v * 131072 + 127) / 255

/-- The bytes of page line j of module m, or none where they reach Garnet as zeros: a BLANK entry, a blanked block, or a block that
does not hold the line (R124, R142). -/
def pageLineBytes (p : Page) (m j : Nat) : Option (List Byte) :=
  let e := (j / p.bandLines) * p.modules + m
  match p.blocks[e]?, lineBytes p.format with
  | some b, some lb =>
    if b.blank ∨ b.dec ≠ .released then none
    else match checkBlock b.idx m p.format b.len b.data with
      | some bytes => some ((bytes.drop ((j % p.bandLines) * lb)).take lb)
      | none => none
  | _, _ => none

/-- The expanded tones of the pixels of page line j of module m (R140 to R142). DEDUCED: INVERT does not touch lines that are blank,
which keep contone value 0 (log 17). -/
def pixelTones (inv : Bool) (p : Page) (m j : Nat) : List Nat :=
  let wide := p.format == 1 || p.format == 3
  let n := if is600 p.format then 1632 else 3264
  let full := if wide then 65535 else 255
  match pageLineBytes p m j with
  | none => List.replicate n 0
  | some bs => (List.range n).map fun i =>
    let v := if wide then le16 bs (2 * i) else by8 bs i
    expandTone wide (if inv then full - v else v)

/-- Across-web upsampling of a 600 ppi page line (R139, R143). -/
def acrossTones (interp inv : Bool) (p : Page) (m j : Nat) : List Nat :=
  let a := pixelTones inv p m j
  let before := if m = 0 then a.headD 0 else (pixelTones inv p (m - 1) j).getLastD 0
  if !is600 p.format then a
  else if !interp then a.flatMap fun x => [x, x]
  else (List.range 1632).flatMap fun i =>
    let prev := if i = 0 then before else cell a (i - 1) 0
    [(prev + cell a i 0 + 1) / 2, cell a i 0]

/-- The tone word of every local column for line i of a page (R143). DEDUCED: the previous page line is taken under the state that governs
the present one (log 17). -/
def pageTones (interp inv : Bool) (p : Page) (m i : Nat) : List Nat :=
  let k := (linesPer p.format p.lpi600).getD 1
  let j := i / k
  let b := acrossTones interp inv p m j
  if k = 2 ∧ interp ∧ i % 2 = 0 ∧ j ≠ 0 then
    (List.zip (acrossTones interp inv p m (j - 1)) b).map fun (x, y) => (x + y + 1) / 2
  else b

/-- The drop codes of a DROP2 page line (R109). -/
def drop2Codes (p : Page) (m j : Nat) : List Nat :=
  match pageLineBytes p m j with
  | none => List.replicate 3264 0
  | some bs => (List.range 3264).map fun k => bits (by8 bs (k / 4)) (2 * (k % 4)) 2

/-! ## Tone curves and screening -/

/-- Knot j of local column k of module m; the identity where there is no curve (R144, R148). -/
def knot (objs : List Obj) (m k j : Nat) : Nat :=
  match objOf objs 3 m with
  | some b => le32 b (4 * (17 * k + j)) % 2 ^ 18
  | none => j * 0x2000

/-- The curve's output for an input tone (R145). -/
def curve (K : Nat → Nat) (t : Nat) : Nat :=
  let i := t / 8192
  let f := t % 8192
  if i = 16 then K 16
  else ((K i : Int) + (((K (i + 1) : Int) - K i) * f + 4096) / 8192).toNat

/-- The 64-bit cell (x, y) of a tile (R150). -/
def tileCell (tile : List Byte) (x y : Nat) : Nat := leN tile (8 * (256 * y + x)) 8

/-- A threshold is met (R152). -/
def met (t T : Nat) : Bool := T != 0x3FFFF && decide (t ≥ T)

/-- The screening decision (R152). -/
def screenCode (c t : Nat) : Nat :=
  if met t (bits c 36 18) then 3 else if met t (bits c 18 18) then 2 else if met t (bits c 0 18) then 1 else 0

/-- SCREEN_SELECT word i; all zero where none is in force (R155). -/
def selectWord (objs : List Obj) (i : Nat) : Word := match objOf objs 5 0 with
  | some b => objWord b i
  | none => 0

/-- ROW_POLICY word 0; all zero where none is in force (R157). -/
def policyWord (objs : List Obj) : Word := match objOf objs 6 0 with
  | some b => objWord b 0
  | none => 0

/-- TILE_SLOT. -/
def tileSlot (objs : List Obj) : Nat := fld (selectWord objs 0) 0 3
/-- INVERT. -/
def invert (objs : List Obj) : Bool := flag (selectWord objs 0) 4
/-- UPSAMPLE is INTERPOLATE. -/
def interpolate (objs : List Obj) : Bool := flag (selectWord objs 0) 5
/-- The tile in the selected slot. -/
def tileOf (objs : List Obj) : Option (List Byte) := objOf objs 4 (tileSlot objs)

/-- The cell of bar column c in line n of its epoch: x and y (R151). -/
def cellXY (objs : List Obj) (c n : Nat) : Nat × Nat :=
  let w := selectWord objs 1
  ((c + fld w 0 8) % 256, (n + fld w 8 8) % 256)

/-- What stages 1 to 4 give for one column: tone in, tone out, cell, drop code. -/
structure ToneOut where
  /-- Tone after upsampling. -/
  tin : Nat := 0
  /-- Tone after the curve. -/
  tout : Nat := 0
  /-- Tile x, y and the cell used. -/
  x : Nat := 0
  /-- Tile y. -/
  y : Nat := 0
  /-- The cell. -/
  cell64 : Nat := 0
  /-- Drop code. -/
  code : Nat := 0

/-- Stages 3 and 4 for one column (R145, R151, R152): t is the tone after upsampling, n the line in its epoch. A contone line met while the
slot is empty is all 0b00 (R156). -/
def screenTone (objs : List Obj) (m n k t : Nat) : ToneOut :=
  let o := curve (knot objs m k) t
  let (x, y) := cellXY objs (m * colsPer + k) n
  match tileOf objs with
  | none => { tin := t, tout := o, x := x, y := y }
  | some tile =>
    let c := tileCell tile x y
    { tin := t, tout := o, x := x, y := y, cell64 := c, code := screenCode c o }

/-- A line that reaches stage 1 as contone value 0 in every column (R142). -/
def blankTones (objs : List Obj) (m n : Nat) : List ToneOut := (List.range colsPer).map fun k => screenTone objs m n k 0

/-- Stages 1 to 4 for the columns of module m in line i of a page, n in its epoch (R136, R142).
DESIGN CHOICE: where no cell is used the trace's cell is 0; its X and Y are 0 on a DROP2 page (log 17). -/
def toneLine (objs : List Obj) (p : Page) (m i n : Nat) : List ToneOut :=
  if p.type ≠ 1 then blankTones objs m n
  else if p.format = 8 then (drop2Codes p m i).map fun c => { code := c }
  else (pageTones (interpolate objs) (invert objs) p m i).zipIdx.map fun (t, k) => screenTone objs m n k t

/-! ## Row choice -/

/-- What governs the row choice of module m in image line L. -/
structure RowCtx where
  /-- Image line, unrebased. -/
  L : Nat
  /-- Its number in its epoch. -/
  n : Nat
  /-- P of R159. -/
  p : Nat
  /-- Module. -/
  m : Nat
  /-- Rows in use. -/
  rows : Nat
  /-- Objects in force for the line. -/
  objs : List Obj
  /-- D(m,r) in force for the line. -/
  d : List (List Nat)
  /-- The offset reductions of R81: the Lc each counts from and d by row of the module. -/
  reduced : List (Nat × List Nat)
  /-- The page that holds the line. -/
  page : Option Nat

/-- The row-choice state with what a line adds to it. -/
structure RowSt where
  /-- Claims (column, fire line, image line). -/
  claims : List (Nat × Nat × Nat)
  /-- LAST_FIRE histories. -/
  last : List ((Nat × Nat) × List (Int × Nat))
  /-- Drops placed. -/
  drops : List Drop := []
  /-- Outcomes by local column: code of R176, row, fire line. -/
  outs : List (Nat × Nat × Nat × Nat) := []

/-- LAST_FIRE(c, r) (R160). -/
def RowSt.lastFire (rs : RowSt) (c r : Nat) : Option Int := ((find? rs.last (c, r)).bind (·.head?)).map (·.1)

/-- A row is eligible (R160); kk is k_c, or BAR_CONFIG.ROWS under NO_TAKEOVER (R162). -/
def eligible (x : RowCtx) (rs : RowSt) (k kk r : Nat) : Bool :=
  let c := x.m * colsPer + k
  let F := x.L + dInt x.d x.m r
  liveNozzle x.objs x.m k r && !(rs.claims.any fun y => y.1 == c && y.2.1 == F) &&
  (match rs.lastFire c r with
    | some f => decide (f + kk ≤ (F : Int))
    | none => true)

/-- A row's LAST_FIRE is lower than another's: "none" is the lowest (R161, R164). -/
def earlier : Option Int → Option Int → Bool
  | none, some _ => true
  | some a, some b => decide (a < b)
  | _, none => false

/-- The fallback of R161: among eligible rows the lowest LAST_FIRE, the earlier letter on a tie. -/
def fallback (x : RowCtx) (rs : RowSt) (k kk : Nat) (lr : List Nat) : Option Nat :=
  let c := x.m * colsPer + k
  (lr.filter (eligible x rs k kk)).foldl (fun best r => match best with
    | none => some r
    | some b => if earlier (rs.lastFire c r) (rs.lastFire c b) then some r else some b) none

/-- Claims the fire line and places the drop (R161, R165). -/
def takeRow (x : RowCtx) (rs : RowSt) (k r code : Nat) (probe : Option Nat) : RowSt :=
  let c := x.m * colsPer + k
  let F := x.L + dInt x.d x.m r
  { rs with
    claims := (c, F, x.L) :: rs.claims
    last := put rs.last (c, r) (((F : Int), x.L) :: (find? rs.last (c, r)).getD [])
    drops := { fire := F, col := c, row := r, code := code, img := x.L, frac := dFrac x.d x.m r, probe := probe, page := x.page } :: rs.drops
    outs := (k, 0, r, F) :: rs.outs }

/-- What image lines below Lc have left in the row-choice state, taken away. -/
def RowSt.since (rs : RowSt) (lc : Nat) : RowSt :=
  { rs with
    claims := rs.claims.filter fun y => decide (lc ≤ y.2.2)
    last := rs.last.map fun e => (e.1, e.2.filter fun h => decide (lc ≤ h.2)) }

/-- An offset reduction is the cause of an omission (R81, R161): the line is one of Lc to Lc + d - 1 of a live row of the column whose Dint
has fallen by d, and that row would be eligible but for what image lines below Lc were assigned. -/
def byReduction (x : RowCtx) (rs : RowSt) (k kk : Nat) (lr : List Nat) : Bool :=
  x.reduced.any fun w => lr.any fun r => decide (w.1 ≤ x.L ∧ x.L < w.1 + cell w.2 r 0) && eligible x (rs.since w.1) k kk r

/-- The row choice for one drop (R158 to R163). -/
def placeDrop (x : RowCtx) (rs : RowSt) (k code : Nat) : RowSt :=
  if code = 0 then { rs with outs := (k, 1, 0, 0) :: rs.outs } else
    let pol := policyWord x.objs
    let noTake := flag pol 5
    let lr := liveRows x.objs x.rows x.m k
    let kk := if noTake then x.rows else lr.length
    if lr.isEmpty && !noTake || kk == 0 then { rs with outs := (k, 4, 0, 0) :: rs.outs } else
      let c := x.m * colsPer + k
      let idx := (x.n + fld pol 0 2 * c + b2n (flag pol 4) * x.p) % kk
      let pref := if noTake then idx else cell lr idx 0
      if noTake && !liveNozzle x.objs x.m k pref then { rs with outs := (k, 3, 0, 0) :: rs.outs }
      else
        let best := if eligible x rs k kk pref then some pref else fallback x rs k kk lr
        match best with
        | some r => takeRow x rs k r code none
        | none => { rs with outs := (k, if byReduction x rs k kk lr then 6 else 2, 0, 0) :: rs.outs }

/-- A probe drop goes into its stated row if that is eligible (R193); `outs` code 7 counts a skip. -/
def placeProbe (x : RowCtx) (rs : RowSt) (k r code : Nat) : RowSt :=
  let kk := if flag (policyWord x.objs) 5 then x.rows else (liveRows x.objs x.rows x.m k).length
  if eligible x rs k kk r then takeRow x rs k r 3 (some code) else { rs with outs := (k, 7, 0, 0) :: rs.outs }

/-! ## Probe drops -/

/-- ΔD of R192. -/
def deltaD (s : State) : Nat :=
  let l := dInts s.cg.dOff s.cg.modules s.cg.rows
  maxOf l - minOf l

/-- The probe drops of module m in image line L (R193): local column, row, energy code. -/
def probeDrops (objs : List Obj) (rows m L : Nat) (s : State) : List (Nat × Nat × Nat) :=
  match s.fire.probe with
  | none => []
  | some pl => match pl.window with
    | none => []
    | some (w0, v) =>
      let used := (List.range rows).filter fun r => pl.rows.getLsbD r
      let n := used.length
      if !pl.mods.getLsbD m || n == 0 || decide (L < w0) then [] else
        let r := cell used ((v / 32) % n) 0
        let q := (v / (32 * n)) % pl.steps
        let off := L - w0
        let second := 4 * pl.drops + 16
        let cols := ((List.range 102).map fun i => 32 * i + v % 32).filter fun k => liveNozzle objs m k r
        match objOf objs 10 m with
        | none => []
        | some codes =>
          if off % 4 = 0 ∧ off / 4 < pl.drops then cols.map fun k => (k, r, codeOf codes k r)
          else if second ≤ off ∧ (off - second) % 4 = 0 ∧ (off - second) / 4 < pl.drops then
            cols.filterMap fun k =>
              let e0 := codeOf codes k r
              let down := pl.stride * (q + 1)
              if down ≤ e0 then some (k, r, e0 - down) else none
          else []

/-! ## Screening a line -/

/-- Changes slice m. -/
def setSlice (m : Nat) (f : Slice → Slice) (s : State) : State :=
  { s with scr := { s.scr with slices := upd s.scr.slices m f } }

/-- Slice m. -/
def State.slice (s : State) (m : Nat) : Slice := cell s.scr.slices m {}

/-- P for a line, counted in its own epoch (R159): of its page, else of the next page; where the epoch has none to come, the pages that started
in it. -/
def pagesBefore (L : Nat) (s : State) : Nat :=
  let (base, ep, n) := epochAt L s
  match pageAt L s with
  | some p => p.pNo
  | none =>
    match (s.pg.pages.filter fun p => p.started && p.epoch == ep && decide (L < p.firstAbs)).head? with
    | some p => p.pNo
    | none => if ep = s.pg.decEpoch ∧ base = s.pg.decBase then s.pg.startedCnt else n

/-- An occurrence whose event is queued once per page (R171, R285, R497); bit b of the page's marks. -/
def oncePerPage (b : Nat) (k : Sticky) (e : Event) (page : Option Page) (s : State) : State :=
  match page with
  | none => stickRec k s
  | some p =>
    if p.evSeen.getLsbD b then stick k s
    else stickEvent k e (setPage p.uid (fun p => { p with evSeen := p.evSeen ||| (1#8 <<< b) }) s)

/-- Counts the outcomes of a line (R128, R161 to R163, R193): omissions, their sticky bits and events, spoiled pages. -/
def noteOutcomes (m L : Nat) (page : Option Page) (outs : List (Nat × Nat × Nat × Nat)) (s : State) : State :=
  let n := fun o => countIf outs fun x => x.2.1 == o
  let uids := (page.map (·.uid)).toList
  let (ep, ln) := lineIn L s
  let s := if outs.any (fun x => [2, 3, 6].contains x.2.1) then exclude [(m, L)] s else s
  let s1 := { s with scr := { s.scr with
    rowOmit := satAdd s.scr.rowOmit (n 2), deadOmit := satAdd s.scr.deadOmit (n 3)
    deadColDrops := satAdd s.scr.deadColDrops (n 4) } }
  let col := ((outs.filter fun x => x.2.1 == 2).getLast?).map fun x => m * colsPer + x.1
  let s2 := if n 2 = 0 then s1 else
    spoil uids (oncePerPage 0 .rowOmit { ev := .rowOmit, p0 := w32 (col.getD 0), p1 := w32 ln, p2 := ep } page s1)
  let s3 := if n 3 = 0 then s2 else stickRec .deadRowOmit s2
  let s4 := if n 6 = 0 then s3 else
    stickRec .offsetOmit (mapPages (fun p => uids.contains p.uid) (fun p => { p with offsetOmit := p.offsetOmit + n 6 }) s3)
  if n 7 = 0 then s4 else
    stickRec .probeSkipped { s4 with fire := { s4.fire with probeSkip := satAdd s4.fire.probeSkip (n 7) } }

/-- The outcome of a column that the trace shows (R176): a probe drop that was skipped leaves the page's own. -/
def tracedOut (k : Nat) (outs : List (Nat × Nat × Nat × Nat)) : Nat × Nat × Nat × Nat :=
  (outs.find? fun o => o.1 == k && o.2.1 != 7).getD (k, 1, 0, 0)

/-- The drop code that the trace shows: of the drop placed in the column, else the one screening gave. -/
def tracedCode (c : Nat) (t : ToneOut) (ds : List Drop) : Nat := ((ds.find? fun d => d.col == c).map (·.code)).getD t.code

/-- The trace registers of a column (R176): a column's tone stages, drop code and outcome.
DESIGN CHOICE: where no row is assigned ROW and the fire line read 0; SLOT reads the selected slot although no cell is used (log 17). -/
def traceWords (objs : List Obj) (t : ToneOut) (out : Nat × Nat × Nat × Nat) (lineNo : Nat → Nat) : List Word :=
  let (_, o, r, f) := out
  [w32 t.tin, w32 t.tout, w32 (t.x + 256 * t.y + 65536 * tileSlot objs), 0] ++ words64 t.cell64 ++
  [w32 (t.code + 4 * r + 16 * o), w32 (if o = 0 then lineNo f else 0)]

/-- Screens image line L in slice m with the tone stage's results given (R136, R158 to R165): the outcome is held in the slice until the line is
done. DESIGN CHOICE: the trace registers take their content as the slice begins the line (log 17). -/
def screenWith (m L : Nat) (page : Option Page) (tones : List ToneOut) (s : State) : State :=
  let objs := objsAt L s
  let bar := barOf objs
  let (ep, n) := lineIn L s
  let x : RowCtx := { L := L, n := n, p := pagesBefore L s, m := m, rows := bar.rows, objs := objs, d := dAt L s
                      reduced := s.scr.reduce.map fun w => (w.1, cell w.2 m []), page := page.map (·.uid) }
  let rs0 : RowSt := { claims := s.scr.claims, last := s.scr.lastFire }
  let rs1 := tones.zipIdx.foldl (fun rs (t, k) => placeDrop x rs k t.code) rs0
  let rs2 := (probeDrops objs bar.rows m L s).foldl (fun rs (k, r, e) => placeProbe x rs k r e) rs1
  let s1 := { s with scr := { s.scr with claims := rs2.claims, lastFire := rs2.last } }
  let s2 := setSlice m (fun sl => { sl with result := rs2.drops.reverse }) s1
  let s3 := match s.scr.job with
    | some (.trace _ c e l) =>
      if l = L ∧ e = ep ∧ c / colsPer = m then
        let k := c % colsPer
        let t := cell tones k {}
        { s2 with scr := { s2.scr with
          trace := traceWords objs { t with code := tracedCode c t rs2.drops } (tracedOut k rs2.outs) (fun f => f - (L - n)) } }
      else s2
    | _ => s2
  noteOutcomes m L page rs2.outs s3

/-- The tone stage of a line of a spit run (R204): the drop of the command in every column of the modules it names, as a DROP2 line. -/
def spitTones (m L : Nat) (s : State) : Option (List ToneOut) :=
  s.fire.spit.bind fun j =>
    if j.first ≤ L ∧ L < j.first + j.lines then some (List.replicate 3264 { code := if j.mods.getLsbD m then j.drop else 0 }) else none

/-- The objects that stages 1 to 4 of image line L use: a tile that could not be read counts as an empty slot. -/
def toneObjs (L : Nat) (s : State) : List Obj :=
  if s.scr.tileBad.contains L then (objsAt L s).filter fun o => o.kind != 4 else objsAt L s

/-- What stages 1 to 4 give for image line L in slice m (R136, R142, R204). -/
def lineTones (m L : Nat) (s : State) : List ToneOut :=
  let objs := toneObjs L s
  let n := (lineIn L s).2
  match spitTones m L s, pageAt L s with
  | some ts, _ => ts
  | none, none => blankTones objs m n
  | none, some p => toneLine objs p m (L - p.firstAbs) n

/-- Screens image line L of the page data in slice m; NO_TILE marks the page (R156). -/
def screenLine (m L : Nat) (s : State) : State :=
  let ts := lineTones m L s
  match spitTones m L s, pageAt L s with
  | some _, _ => screenWith m L none ts s
  | none, none => screenWith m L none ts s
  | none, some p =>
    let (ep, n) := lineIn L s
    let s1 := screenWith m L (some p) ts s
    if p.type = 1 ∧ p.format ≠ 8 ∧ (tileOf (toneObjs L s)).isNone then
      spoil [p.uid] (oncePerPage 2 .noTile { ev := .noTile, p0 := 0xFFFFFFFF, p1 := w32 n, p2 := ep } (s1.pg.page? p.uid) s1)
    else s1

/-- The trace of a line that has come too late (R138, R176): its tone stages, no row and no drop.
DESIGN CHOICE: so too, with OUTCOME 5, of a line that was not rebuilt in time (R89, log 17). -/
def traceLate (m L c : Nat) (s : State) : List Word :=
  let k := c % colsPer
  traceWords (objsAt L s) (cell (lineTones m L s) k {}) (k, 5, 0, 0) id

/-- Takes back what lines at or above L did to the row-choice state of module m, and what calibration was told of them: drops, marks and
omissions (R89, R138, R296, R297). None of these lines has fired. -/
def undoLines (m L : Nat) (s : State) : State :=
  let mine := fun c => c / colsPer == m
  { s with scr := { s.scr with
    claims := s.scr.claims.filter fun x => !(mine x.1 && decide (L ≤ x.2.2))
    lastFire := s.scr.lastFire.map fun e => if mine e.1.1 then (e.1, e.2.filter fun h => decide (h.2 < L)) else e
    placed := s.scr.placed.filter fun d => !(mine d.col && decide (L ≤ d.img)) }
           cal := { s.cal with
    laid := s.cal.laid.filter fun d => !(mine d.2.1 && decide (L ≤ d.1))
    marks := s.cal.marks.filter fun k => !(mine k.col && decide (L ≤ k.first))
    excl := s.cal.excl.filter fun x => !(x.1 == m && decide (L ≤ x.2)) } }

/-! ## Row-choice state images -/

/-- LAST_FIRE - L_s as 16 bits; -32,768 means none within 32,767 lines (R168). -/
def lastField (last : Option Int) (Ls : Nat) : Nat :=
  match last with
  | none => 0x8000
  | some f =>
    let d : Int := f - Ls
    if d < -32767 then 0x8000 else (d % 65536).toNat

/-- The 136-byte record of bar column c at L_s (R168). -/
def columnRecord (c Ls : Nat) (s : State) : List Byte :=
  let claimed := (s.scr.claims.filter fun x => x.1 == c && decide (Ls ≤ x.2.1 ∧ x.2.1 < Ls + 1024)).foldl
    (fun a x => Nat.lor a (2 ^ (x.2.1 - Ls))) 0
  let lf := fun r => lastField (((find? s.scr.lastFire (c, r)).bind (·.head?)).map (·.1)) Ls
  bytesLE 128 claimed ++ bytesLE 2 (lf 0) ++ bytesLE 2 (lf 1) ++ bytesLE 2 (lf 2) ++ bytesLE 2 (lf 3)

/-- Puts a column's record into the row-choice state (R175). -/
def loadColumn (c Ls : Nat) (rec_ : List Byte) (s : State) : State :=
  let claimed := leN rec_ 0 128
  let cl := ((List.range 1024).filter fun i => claimed.testBit i).map fun i => (c, Ls + i, Ls - 1)
  let hist := fun r =>
    let v := le16 rec_ (128 + 2 * r)
    if v = 0x8000 then [] else [((Ls + sx 16 v : Int), Ls - 1)]
  let others := s.scr.lastFire.filter fun e => e.1.1 != c
  { s with scr := { s.scr with
    claims := s.scr.claims.filter (fun x => x.1 != c) ++ cl
    lastFire := (List.range 4).map (fun r => ((c, r), hist r)) ++ others } }

/-- STATE_DIGEST (R168): SCREEN_SELECT, ROW_POLICY and the nozzle maps in force at L_s, by module. -/
def stateDigest (objs : List Obj) (modules : Nat) : Nat :=
  let sel := (objOf objs 5 0).getD (zeros 64)
  let pol := (objOf objs 6 0).getD (zeros 64)
  crc32c (sel ++ pol ++ (List.range modules).flatMap fun m => (objOf objs 7 m).getD (zeros 13056))

/-- The image of a save (R168). -/
def rowImage (modules : Nat) (epoch line : Word) (pages digest : Nat) (cols : List Byte) : List Byte :=
  let head := wordBytes ([w32 (1 + 65536 * modules), epoch, line, w32 pages, w32 digest] ++ List.replicate 10 0)
  head ++ bytesLE 4 (crc32c (head ++ zeros 4 ++ cols)) ++ cols

/-- Bytes of an image (R168). -/
def rowImageSize (modules : Nat) : Nat := 64 + modules * colsPer * 136

/-- Any slice of a fitted module has begun line L. -/
def anyBegan (L : Nat) (s : State) : Bool :=
  (List.range (barOf (objsAt L s)).modules).any fun m =>
    let sl := s.slice m
    decide (L < sl.next) || sl.busy == some L

/-- Loads every column of module m from a row-state image at line L (R168, R175). -/
def loadModule (m L : Nat) (img : List Byte) (s : State) : State :=
  (List.range colsPer).foldl (fun s k => loadColumn (m * colsPer + k) L ((img.drop (64 + 136 * (m * colsPer + k))).take 136) s) s

/-- A slice that begins L_s anew on a web that had stopped takes an image that has been loaded once more (R89, R175). -/
def reloadAtStart (m L : Nat) (s : State) : State :=
  match s.scr.loaded with
  | some (img, at_, again) =>
    if at_ = L ∧ objWord img 1 = (lineIn L s).1 ∧ m ∈ again then
      loadModule m L img { s with scr := { s.scr with loaded := some (img, at_, again.filter (· != m)) } }
    else s
  | none => s

/-- As slice m begins line L: a save captures its columns, a load replaces them (R174, R175). -/
def jobAtStart (m L : Nat) (s : State) : State :=
  let s := reloadAtStart m L s
  match s.scr.job with
  | some (.save tag addr ep ln at_ pages parts) =>
    if at_ = L ∧ ep = (lineIn L s).1 ∧ ¬ parts.any (fun x => x.1 == m) then
      let cols := (List.range colsPer).flatMap fun k => columnRecord (m * colsPer + k) L s
      let pg := if parts.isEmpty then pagesBefore L s else pages
      { s with scr := { s.scr with job := some (.save tag addr ep ln at_ pg (parts ++ [(m, cols)])) } }
    else s
  | some (.load tag (some img) at_ taken) =>
    if at_ = L ∧ objWord img 1 = (lineIn L s).1 ∧ m ∉ taken then
      let s1 := loadModule m L img s
      let taken := taken ++ [m]
      let all := decide (taken.length ≥ (barOf (objsAt L s)).modules)
      let s2 := { s1 with scr := { s1.scr with
        job := if all then none else some (.load tag (some img) at_ taken)
        loaded := if all then some (img, at_, []) else s1.scr.loaded } }
      match tag, all with
      | some t, true => complete 0x0402 t 0 0 0 0 s2
      | _, _ => s2
    else s
  | _ => s

/-- What a rebuild from line lc does to a save and to a load (R89, R174, R175): columns captured as slices began L_s are captured anew, and an
image loaded before lines below L_s were discarded is taken anew. -/
def rebuildJobs (lc : Nat) (s : State) : State :=
  let job := match s.scr.job with
    | some (.save tag addr ep ln at_ pages parts) =>
      if lc ≤ at_ then some (.save tag addr ep ln at_ 0 []) else some (.save tag addr ep ln at_ pages parts)
    | some (.load tag img at_ taken) => some (.load tag img at_ (if lc < at_ then [] else taken))
    | j => j
  let loaded := s.scr.loaded.map fun (img, at_, again) => (img, at_, if lc < at_ then List.range 16 else again)
  { s with scr := { s.scr with job := job, loaded := loaded } }

/-! ## Slices -/

/-- Slice m takes the new curve bank as it begins the first line of the group that holds it (R149). -/
def switchBank (m L : Nat) (s : State) : State :=
  let sl := s.slice m
  let g := s.cg.group sl.bankGroup
  if sl.bankPending = 2 ∧ g.st = .locked ∧ g.abs ≤ L then
    setSlice m (fun sl => { sl with bankInForce := !sl.bankInForce, bankPending := 0 }) s
  else s

/-- A line has come too late for a slice: under R138 at position L - 8, for a line being rebuilt under R89 at L itself. -/
def tooLate (L : Nat) (s : State) : Bool :=
  if L < s.scr.rebuild then decide (L ≤ s.pos.absHigh) else decide (L ≤ s.pos.absHigh + 8)

/-- SLICE_LINE_START (R30, R137): slice m begins its next image line at L - 16. -/
def execSliceLineStart (mod : Fin 16) (s : State) : Host.Outcome State Fault Refusal :=
  let sl := s.slice mod
  let L := sl.next
  .next (if sl.busy.isSome ∨ L > s.pos.absHigh + 16 ∨ (mod : Nat) ≥ (barOf (objsAt L s)).modules then s else
    let late := tooLate L s
    let s1 := setSlice mod (fun sl => { sl with busy := some L, result := [], late := late }) (switchBank mod L s)
    let s2 := jobAtStart mod L s1
    if late then s2 else screenLine mod L s2)

/-- The energy sum E_G(F, m) (R166). -/
def energyG (F m : Nat) (s : State) : Word :=
  let objs := objsAt F s
  w32 ((dropsOf F m s).map (dropWeight objs)).sum

/-- Fire line F of module m is complete: it passes to the fire timing generator, and E_G to Onyx (R165, R166). -/
def assemble (m : Nat) (s : State) (F : Nat) : State :=
  let e := energyG F m s
  let s1 := { s with scr := { s.scr with esumLine := F } }
  onyxSum m F (some e) none (setSlice m (fun sl => { sl with esum := e, passed := F + 1 }) s1)

/-- The smallest Dint of the rows of module m in use for image line L. -/
def dMin (m L : Nat) (s : State) : Nat :=
  minOf ((List.range (barOf (objsAt L s)).rows).map fun r => dInt (dAt L s) m r)

/-- The first fire line that an image line after L may still place a drop in, under the state in force and LOCKED (R79, R165). -/
def firstOpen (m L : Nat) (s : State) : Nat :=
  ((s.cg.groups.filter fun g => g.st == .locked && decide (L < g.abs)).map fun g => g.abs + dMin m g.abs s).foldl min (L + 1 + dMin m (L + 1) s)

/-- Passes on every fire line of module m that is complete once image line L has been screened (R165). A line further ahead than any group
that may still lock can name waits until the state in force for it is known, so that E_G does not depend on when a slice is done (R166,
R167). DEDUCED (log 17). -/
def passOn (m L : Nat) (s : State) : State :=
  let first := (s.slice m).passed
  ((List.range (min (firstOpen m L s) (s.pos.absHigh + 48))).drop first).foldl (assemble m) s

/-- Slice m serves image line L: its module is fitted in the configuration of that line (R5, R79). -/
def serves (m L : Nat) (s : State) : Bool := decide (m < (barOf (objsAt L s)).modules)

/-- Every slice that serves image line L has finished it. -/
def lineFinished (L : Nat) (s : State) : Bool :=
  serves 0 L s && (List.range 16).all fun m => !serves m L s || decide (L < (s.slice m).next)

/-- SCR_LINE_DONE and SCR_LINE_EPOCH (R170): the last image line finished by every slice that serves it. -/
def noteLineDone (s : State) : State :=
  let last := ((List.range 16).map fun m => (s.slice m).next).filter fun n => n != 0 && lineFinished (n - 1) s
  if last.isEmpty then s else
    let (ep, n) := lineIn (maxOf last - 1) s
    { s with scr := { s.scr with doneLine := w32 n, lineEpoch := ep } }

/-- The probe marks that begin with a line: one for each nozzle whose reference drop lies on the first window line (R193). -/
def newMarks (ds : List Drop) (s : State) : List Mark :=
  match s.fire.probe with
  | none => []
  | some pl => match pl.window with
    | none => []
    | some (w0, v) =>
      let n := countIf (List.range s.cg.rows) fun r => pl.rows.getLsbD r
      (ds.filter fun d => d.probe.isSome && d.img == w0).map fun d =>
        { plan := pl.no, first := w0, drops := pl.drops, steps := pl.steps, stride := pl.stride
          q := (v / (32 * n)) % pl.steps, col := d.col, row := d.row, e0 := d.probe.getD 0 }

/-- Takes the drops of a line to calibration (R166, R272, R297): image line, column, row, drop code, and the probe marks that begin. -/
def feedCal (ds : List Drop) (s : State) : State :=
  { s with cal := { s.cal with
    marks := s.cal.marks ++ newMarks ds s, laid := ds.map (fun d => (d.img, d.col, d.row, d.code)) ++ s.cal.laid } }

/-- Slice m finishes image line L (R137, R165, R176). -/
def lineDone (mod L : Nat) (s : State) : State :=
  let sl := s.slice mod
  let ds := if sl.late then [] else sl.result
  let s1 := feedCal ds { s with scr := { s.scr with placed := s.scr.placed ++ ds } }
  let s2 := setSlice mod (fun sl => { sl with busy := none, result := [], late := false, next := L + 1 }) s1
  let s3 := noteLineDone (passOn mod L s2)
  match s3.scr.job with
  | some (.trace tag c e l) =>
    if l = L ∧ e = (lineIn L s).1 ∧ c / colsPer = mod then
      let s4 := if sl.late then { s3 with scr := { s3.scr with trace := traceLate mod L c s } } else s3
      complete 0x0403 tag 0 0 0 0 { s4 with scr := { s4.scr with job := none } }
    else s3
  | _ => s3

/-- Lines that a slice serves and has not finished in time at boundary B (R89, R138). -/
def sliceLate (B : Nat) (m : Nat) (s : State) : State :=
  let sl := s.slice m
  let check := fun (L : Nat) (rebuilt : Bool) (s : State) =>
    let open_ := sl.busy == some L || decide (sl.next ≤ L)
    if !serves m L s || !open_ || (sl.late && sl.busy == some L) then s else
      let page := pageAt L s
      let uids := (page.map (·.uid)).toList
      let s1 := if sl.busy = some L then setSlice m (fun sl => { sl with late := true, result := [] }) (undoLines m L s) else s
      let (ep, n) := lineIn L s
      if rebuilt then spoil uids (stickRec .rebuildBlank s1)
      else spoil uids (oncePerPage 1 .screenLate { ev := .screenLate, p0 := 0xFFFFFFFF, p1 := w32 n, p2 := ep } page
        { s1 with scr := { s1.scr with lateLines := satAdd s1.scr.lateLines 1 } })
  let s1 := if B < s.scr.rebuild then check B true s else s
  if B + 8 < s.scr.rebuild then s1 else check (B + 8) false s1

/-- Old claims, histories and drops leave the row-choice state at boundary B: what no later line can meet. -/
def pruneRows (B : Nat) (s : State) : State :=
  { s with scr := { s.scr with
    claims := s.scr.claims.filter fun x => decide (B ≤ x.2.1 + 32)
    reduce := s.scr.reduce.filter fun w => decide (B ≤ w.1 + maxOf w.2.flatten + 32)
    loaded := s.scr.loaded.filter fun x => decide (B ≤ x.2.1)
    lastFire := s.scr.lastFire.map fun e => (e.1, e.2.filter (fun h => decide (B ≤ h.2 + 32)) ++ (e.2.filter (fun h => decide (h.2 + 32 < B))).take 1)
    placed := s.scr.placed.filter fun d => decide (B ≤ d.fire + 64) } }

/-- Garnet at boundary B: every slice that serves a line, also one that only a LOCKED configuration fits. -/
def garnetBoundary (B : Nat) (s : State) : State := pruneRows B (forAll (List.range 16) (sliceLate B) s)

/-! ## Curve banks -/

/-- The waiting group whose curve slice m loads next: an ARMED one that holds TONE_CURVE for m and is not loaded (R149).
DESIGN CHOICE: of several, the lowest group slot (log 17). -/
def curveWaiting (m : Nat) (s : State) : Option Nat :=
  (List.range 4).find? fun g => (s.cg.group g).st == .armed && (objOf (s.cg.group g).objs 3 m).isSome

/-- CURVE_BANK_LOAD (R149): the pending bank is free and an ARMED group waits. -/
def execCurveBankLoad (mod : Fin 16) (s : State) : Host.Outcome State Fault Refusal :=
  .next (match curveWaiting mod s with
    | some g => if (s.slice mod).bankPending = 0 then
        setSlice mod (fun sl => { sl with bankPending := 1, bankGroup := g }) s else s
    | none => s)

/-- CURVE_BANK_LOADED (R149). -/
def execCurveBankLoaded (mod : Fin 16) (s : State) : Host.Outcome State Fault Refusal :=
  .next (if (s.slice mod).bankPending = 1 then setSlice mod (fun sl => { sl with bankPending := 2 }) s else s)

/-- Every curve of a group is in its slice's pending bank (R149). -/
def curvesLoaded (g : Nat) (s : State) : Bool :=
  (List.range 16).all fun m => (objOf (s.cg.group g).objs 3 m).isNone ||
    ((s.slice m).bankPending == 2 && (s.slice m).bankGroup == g)

/-! ## Content checks (R146, R153, R156, R169) -/

/-- The first subcode a list of checks gives. -/
def firstCode (l : List (Bool × Nat)) : Option Nat := (l.find? (·.1)).map (·.2)

/-- The first entry of a range that gives a subcode. -/
def firstIn (n : Nat) (f : Nat → Option Nat) : Option Nat :=
  match n with
  | 0 => none
  | n + 1 => match firstIn n f with
    | some c => some c
    | none => f n

/-- TONE_CURVE (R146): knots in ascending byte offset. -/
def checkCurve (b : List Byte) : Option Nat :=
  firstIn (colsPer * 17) fun i =>
    let w := objWord b i
    firstCode [(fld w 18 14 != 0, 0x0301), (i % 17 == 0 && fld w 0 18 != 0, 0x0302)]

/-- SCREEN_TILE (R153). -/
def checkTile (b : List Byte) : Option Nat :=
  firstIn 65536 fun i =>
    let c := leN b (8 * i) 8
    let s := bits c 0 18
    let m := bits c 18 18
    let l := bits c 36 18
    firstCode [(bits c 54 10 != 0, 0x0401), (!(decide (1 ≤ s ∧ s ≤ m ∧ m ≤ l)), 0x0402)]

/-- SCREEN_SELECT (R155, R156); `has` says whether the slot it names would hold a tile. -/
def checkSelect (b : List Byte) (has : Nat → Bool) : Option Nat :=
  let w := objWord b 0
  firstCode [
    (w &&& 0xFFFFFFC8 != 0 || fld (objWord b 1) 16 16 != 0 || (List.range 14).any (fun i => objWord b (i + 2) != 0), 0x0501),
    (!has (fld w 0 3), 0x0502)]

/-- ROW_POLICY (R157). -/
def checkPolicy (b : List Byte) : Option Nat :=
  firstCode [(objWord b 0 &&& 0xFFFFFFCC != 0 || (List.range 15).any (fun i => objWord b (i + 1) != 0), 0x0601)]

/-- NOZZLE_MAP (R294). -/
def checkMap (b : List Byte) : Option Nat :=
  firstIn 13056 fun i =>
    let x := by8 b i
    let st := x % 4
    let cause := bits x 2 2
    firstCode [(decide (x ≥ 16), 0x0701),
      ((cause == 0 && st != 0) || (cause != 0 && st == 0) || (st == 3 && cause != 3), 0x0702)]

/-! ## Commands -/

/-- The unrebased count of a line named by epoch and number, in the epoch in force or one that is LOCKED; none of any other epoch. -/
def namedLine (ep line : Word) (s : State) : Option Nat :=
  if ep = s.cg.epochNow then some (absOf line s)
  else if ep < s.cg.epochNow then none
  else (s.pg.epochs.find? fun e => e.2.1 == ep).map fun e => e.1 + line.toNat

/-- SCR_GET_STATUS (R170, R173). -/
def execScrGetStatus (slot : Fin 16) (s : State) : Host.Outcome State Fault Refusal :=
  .next (command 0x0400 1 slot (fun s ws => [reservedW ws 0 1, notBoot s])
    (fun _ ws s =>
      let r := [s.scr.rowOmit, s.scr.deadOmit, s.scr.lateLines, s.scr.deadColDrops, s.scr.deadCols, s.scr.doneLine]
      let s1 := if flag (wd ws 0) 0 then { s with scr := { s.scr with
          rowOmit := 0, deadOmit := 0, lateLines := 0, deadColDrops := 0, deadCols := 0 } } else s
      done (s1, okWith r)) s)

/-- SCR_ROW_STATE_SAVE (R172, R174). DESIGN CHOICE: an EPOCH that has not begun answers BAD_PARAM (log 17). -/
def execScrRowStateSave (slot : Fin 16) (s : State) : Host.Outcome State Fault Refusal :=
  .next (command 0x0401 6 slot
    (fun s ws =>
      let l := namedLine (wd ws 4) (wd ws 5) s
      [ reservedW ws 0 0, (wn ws 1 % 4096 != 0, badParam 1), (decide (wn ws 3 < rowImageSize s.cg.modules), badParam 3),
        (l.isNone && decide (s.cg.epochNow < wd ws 4), badParam 4), (s.scr.job.isSome, busy),
        (!(s.host.opState == .ready || s.host.opState == .print || s.host.opState == .service), badState),
        completionsFull s,
        (match l with
          | some a => anyBegan a s
          | none => true, late) ])
    (fun tag ws s =>
      let a := (namedLine (wd ws 4) (wd ws 5) s).getD 0
      let j := ScrJob.save tag (wn64 ws 1) (wd ws 4) (wd ws 5) a 0 []
      done (outstand 0x0401 tag 0 { s with scr := { s.scr with job := some j } }, accepted)) s)

/-- SCR_ROW_STATE_SAVE_DONE (R168, R174): every slice has been captured and the image written, or the write failed. -/
def execScrRowStateSaveDone (writeOk : Bool) (s : State) : Host.Outcome State Fault Refusal :=
  .next (match s.scr.job with
    | some (.save tag addr ep ln at_ pages parts) =>
      let mods := (barOf (objsAt at_ s)).modules
      if parts.length < mods then s else
        let cols := (List.range mods).flatMap fun m => (find? parts m).getD []
        let img := rowImage mods ep ln pages (stateDigest (objsAt at_ s) mods) cols
        let s1 := { s with scr := { s.scr with job := none } }
        if writeOk && s.host.busMaster then complete 0x0401 tag 0 (w32 img.length) (w32 (le32 img 60)) 0 (emit (.dmaWrite addr img) s1)
        else complete 0x0401 tag 0x30 0 0 0 s1
    | _ => s)

/-- SCR_ROW_STATE_LOAD (R172, R175). -/
def execScrRowStateLoad (slot : Fin 16) (s : State) : Host.Outcome State Fault Refusal :=
  .next (command 0x0402 4 slot
    (fun s ws => [ reservedW ws 0 0, (wn ws 1 % 4096 != 0, badParam 1), (s.scr.job.isSome, busy),
      (!(s.twin.role == .listen || s.twin.role == .standby), badState), notBoot s, completionsFull s ])
    (fun tag ws s =>
      let s1 := outstand 0x0402 tag 0 { s with scr := { s.scr with job := some (.load (some tag) none 0 []) } }
      done (readHost (wn64 ws 1) (wn ws 3) s1, accepted)) s)

/-- The checks of a fetched image (R175): 1 a check value, 2 MODULES, 3 too late. DESIGN CHOICE: an image that names an epoch which is over or
has not begun is too late: there is no state for its L_s to check it against (log 17). -/
def imageCheck (img : List Byte) (s : State) : Nat × Nat :=
  let ep := objWord img 1
  let at_ := namedLine ep (objWord img 2) s
  let objs := objsAt (at_.getD 0) s
  let mods := (barOf objs).modules
  let snap := crc32c (img.take 60 ++ zeros 4 ++ img.drop 64)
  let a := at_.getD 0
  if img.length < 64 ∨ le32 img 60 ≠ snap ∨ (at_.isSome ∧ le32 img 16 ≠ stateDigest objs mods) then (1, a)
  else if at_.isSome ∧ fld (objWord img 0) 16 5 ≠ mods then (2, a)
  else if at_.isNone ∨ anyBegan a s then (3, a)
  else (0, a)

/-- The image of a load has been fetched; none where the fetch failed (R175). -/
def rowStateFetched (image : Option (List Byte)) (s : State) : State :=
  match s.scr.job with
    | some (.load tag none _ _) =>
      let fail := fun (st : Nat) (p0 : Word) =>
        let s1 := { s with scr := { s.scr with job := none } }
        match tag with
        | some t => failJoin 2 (complete 0x0402 t st p0 0 0 s1)
        | none => s1
      match image with
      | none => fail 0x30 0
      | some img =>
        match imageCheck img s with
        | (1, _) => fail 0x41 0
        | (2, _) => fail 0x41 1
        | (3, _) => fail 0x21 0
        | (_, a) => { s with scr := { s.scr with job := some (.load tag (some img) a []) } }
    | _ => s

/-- SCR_ROW_STATE_FETCHED (R175). -/
def execScrRowStateFetched (image : Option (List Byte)) (s : State) : Host.Outcome State Fault Refusal := .next (rowStateFetched image s)

/-- SCR_TRACE (R172, R176). DESIGN CHOICE: it is LATE once the slice of the column's module has begun the line (log 17). -/
def execScrTrace (slot : Fin 16) (s : State) : Host.Outcome State Fault Refusal :=
  .next (command 0x0403 3 slot
    (fun s ws =>
      let l := namedLine (wd ws 1) (wd ws 2) s
      let c := fld (wd ws 0) 0 16
      let begun := match l with
        | some a => decide (a < (s.slice (c / colsPer)).next) || (s.slice (c / colsPer)).busy == some a
        | none => true
      [ reservedW ws 0 0xFFFF, (decide (c ≥ colsPer * s.cg.modules), badParam 0),
        (l.isNone && decide (s.cg.epochNow < wd ws 1), badParam 1), (s.scr.job.isSome, busy), notBoot s,
        completionsFull s, (begun, late) ])
    (fun tag ws s =>
      let a := (namedLine (wd ws 1) (wd ws 2) s).getD 0
      done (outstand 0x0403 tag 0 { s with scr := { s.scr with job := some (.trace tag (fld (wd ws 0) 0 16) (wd ws 1) a) } }, accepted)) s)

/-- A save, load or trace of the ending epoch that has not reached its line when the epoch ends at lc completes LATE (R172, R174). -/
def endScrJob (lc : Nat) (s : State) : State :=
  let end_ := fun (op : Nat) (tag : Option Word) =>
    let s1 := { s with scr := { s.scr with job := none } }
    match tag with
    | some t => complete op t 0x21 0 0 0 s1
    | none => s1
  match s.scr.job with
  | some (.save tag _ ep _ at_ _ _) => if ep = s.cg.epochNow ∧ lc ≤ at_ then end_ 0x0401 (some tag) else s
  | some (.load tag (some img) at_ _) => if objWord img 1 = s.cg.epochNow ∧ lc ≤ at_ then failJoin 2 (end_ 0x0402 tag) else s
  | some (.trace tag _ ep at_) => if ep = s.cg.epochNow ∧ lc ≤ at_ then end_ 0x0403 (some tag) else s
  | _ => s

end Sys2Proof.Machine
end

