-- ==== Sys2Proof/Machine/Frame.lean ====
section
/-!
DEFINITION. The order in which a lane sends (R225), firing frames and their checks (R226 to R230), zone selections (R183, R227), the output
digest (R423), and the trains of a fire line (R177 to R179).
-/
namespace Sys2Proof.Machine

/-! ## The lane transmitter -/

/-- Symbols of an item (R224, R229, R242). -/
def LaneItem.symbols : LaneItem → Nat
  | .part bs => bs.length
  | .table bs => bs.length + 1
  | .set _ _ _ _ => 4
  | _ => 0

/-- Joins the queue of a transmitter behind what has its place or goes before it (R225): 2 for SOF, 3 for resent parts with their SOR, 4 for
frame parts, the last of them with the EOF. -/
def insertTx (x : Nat × List LaneItem) : List (Nat × List LaneItem) → List (Nat × List LaneItem)
  | [] => [x]
  | y :: ys => if y.1 ≤ x.1 then y :: insertTx x ys else x :: y :: ys

/-- Items wait for lane m's transmitter (R225). A free transmitter takes the first of them at once. -/
def queueTx (m : Nat) (l : List (Nat × List LaneItem)) (s : State) : State :=
  setLane m (fun x => { x with
    txq := l.foldl (fun q e => insertTx e q) x.txq
    txFree := if x.txq.isEmpty then max x.txFree s.pos.mono.toNat else x.txFree }) s

/-- What a transmitter sends by an instant: the items, what still waits, and when it is free; a symbol lasts 2 ns (R215, R225). -/
def drainTx (now : Nat) : List (Nat × List LaneItem) → Nat → List LaneItem × List (Nat × List LaneItem) × Nat
  | [], free => ([], [], free)
  | x :: xs, free =>
    if now < free then ([], x :: xs, free) else
      let (sent, rest, f) := drainTx now xs (free + 2 * (x.2.map LaneItem.symbols).sum)
      (x.2 ++ sent, rest, f)

/-- Lane m sends what its turn has come for; what waits goes where the lane is not ACTIVE, or the unit sends no frames (R219, R220, R413). -/
def drainLane (m : Nat) (s : State) : State :=
  let l := s.lane m
  if l.txq.isEmpty then s
  else if l.st ≠ .active ∨ l.idleHeld ∨ ¬ sendsFrames s then setLane m (fun l => { l with txq := [] }) s
  else
    let (sent, rest, free) := drainTx s.pos.mono.toNat l.txq l.txFree
    emits (sent.map (.lane m)) (setLane m (fun l => { l with txq := rest, txFree := free }) s)

/-- Every lane sends what its turn has come for. -/
def drainLanes (s : State) : State := forAll (List.range 16) drainLane s

/-- A marker goes before everything that waits, inside a part where one is being sent (R225). -/
def sendMarker (m : Nat) (x : LaneItem) (s : State) : State :=
  emit (.lane m x) (setLane m (fun l => { l with txFree := max l.txFree s.pos.mono.toNat + 8 }) (drainLane m s))

/-- The K symbol of a COMMIT marker names its row (R224, R231). -/
def rowSym (row : Nat) : KSym := cell [.k28_4, .k28_6, .k23_7, .k27_7] row .k28_4

/-- An ordered set whose D1 and D2 are one 16-bit field (R231, R232). -/
def markerSet (k : KSym) (v : Nat) : LaneItem := orderedSet k (v % 256) (v / 256)

/-- A COMMIT marker (R231). -/
def commitMarker (row lph grp delay : Nat) : LaneItem := markerSet (rowSym row) (lph + 4 * grp + 32 * delay)

/-- A PREP marker (R232). -/
def prepMarker (lph row grp delay : Nat) : LaneItem := markerSet .k28_0 (lph + 4 * row + 16 * grp + 128 * delay)

/-- A frame as it waits for the transmitter (R225, R226): SOF, the parts, and the EOF after the last. -/
def frameItems (phase : Nat) (restart : Bool) (parts : List (List Byte)) : List (Nat × List LaneItem) :=
  (2, [orderedSet .k28_2 (phase + 16 * b2n restart) 0]) ::
    parts.zipIdx.map fun (p, i) => (4, if i + 1 = parts.length then [.part p, orderedSet .k29_7 phase 0] else [.part p])

/-- A resent part with its SOR (R225, R236). -/
def resendItem (phase part : Nat) (bytes : List Byte) : Nat × List LaneItem := (3, [orderedSet .k30_7 phase part, .part bytes])

/-! ## Checks -/

/-- A part with its check: the tag of module, SEQ and PART is folded in ahead and not sent (R229). -/
def partWithCheck (m seq part : Nat) (bs : List Byte) : List Byte :=
  bs ++ bytesLE 4 (crc32c (bytesLE 1 m ++ bytesLE 2 seq ++ bytesLE 1 part ++ bs))

/-! ## Zone selections -/

/-- Zone of a local column (R183). -/
def zoneOf (k : Nat) : Nat := k / 408

/-- A zone's state. -/
def State.zone (s : State) (m z : Nat) : ZoneT := cell (cell s.fire.zones m []) z {}

/-- The PREHEAT_TABLE entry of a module at a reading; PH_COUNT 0 where none is in force (R183). -/
def preheatEntry (objs : List Obj) (m reading : Nat) : ZoneSel :=
  match objOf objs 11 m with
  | none => { count := 0, width := 0, gap := 0, derate := 0 }
  | some b =>
    let w := objWord b reading
    { count := fld w 0 3, width := fld w 4 6, gap := fld w 16 7, derate := 0 }

/-- The zone fields of a frame of fire line F as its transmission begins (R183, R197, R227). -/
def zoneSels (F m : Nat) (s : State) : List ZoneSel :=
  (List.range 8).map fun z =>
    let t := s.zone m z
    let e := preheatEntry (objsAt F s) m t.reading
    if t.warnSend then { e with count := 0, derate := s.fire.warnDerate, warned := true } else e

/-- The 24-bit zone field (R227). -/
def zoneField (z : ZoneSel) : Nat := z.count % 8 + 8 * (z.width % 64) + 512 * (z.gap % 128) + 65536 * (z.derate % 8)

/-- The zone fields sent for a fire line and module. -/
def zonesSent (F m : Nat) (s : State) : List ZoneSel := (find? s.fire.hdr (F, m)).getD []

/-! ## Frames -/

/-- The claim sent for fire line F: 0 from a unit that drives none; the new claim of a switchover from L_sw on at the unit that takes over
(R227, R432). -/
def claimFor (F : Nat) (s : State) : Word :=
  if s.twin.role = .listen then 0 else
    match s.twin.swLine with
    | some (l, c, none) => if l ≤ F then c else s.twin.claimOwn
    | _ => s.twin.claimOwn

/-- EBANK for fire line F of lane m: the loaded bank from Lc of its group on (R242). -/
def ebankFor (F m : Nat) (s : State) : Bool :=
  let l := s.lane m
  match l.loadGroup with
  | some g =>
    let grp := s.cg.group g
    if l.loaded && grp.st == .locked && decide (grp.abs ≤ F) then l.loadBank else l.ebank
  | none => l.ebank

/-- The header part (R227). -/
def headerPart (F m : Nat) (zones : List ZoneSel) (s : State) : List Byte :=
  bytesLE 4 (claimFor F s).toNat ++ bytesLE 8 Config.serial.toNat ++ bytesLE 4 (b2n (ebankFor F m s)) ++
  zones.flatMap fun z => bytesLE 3 (zoneField z)

/-- The nibble of local column k (R228). -/
def nibble (ds : List Drop) (k : Nat) : Nat := match ds.find? fun d => d.col % colsPer == k with
  | some d => d.code % 4 + 4 * (d.row % 4)
  | none => 0

/-- The 1,632 segment payload bytes of fire line F of module m (R228). -/
def payloadOf (F m : Nat) (s : State) : List Byte :=
  let ds := dropsOf F m s
  (List.range 1632).map fun i => BitVec.ofNat 8 (nibble ds (2 * i) + 16 * nibble ds (2 * i + 1))

/-- The 17 parts of a frame, each with its check (R226, R229). -/
def frameParts (F m : Nat) (zones : List ZoneSel) (s : State) : List (List Byte) :=
  let seq := (lineIn F s).2
  let pay := payloadOf F m s
  partWithCheck m seq 0 (headerPart F m zones s) ::
    (List.range 16).map fun j => partWithCheck m seq (j + 1) ((pay.drop (102 * j)).take 102)

/-- The output digest of fire line F (R423). -/
def digestOf (F : Nat) (s : State) : Word :=
  let (ep, n) := lineIn F s
  w32 (crc32c (bytesLE 4 ep.toNat ++ bytesLE 4 n ++
    (List.range (modulesAt F s)).flatMap fun m => payloadOf F m s ++ bytesLE 4 (energyG F m s).toNat))

/-- Every module fitted for fire line F has passed it on: its content is complete (R165). -/
def contentDone (F : Nat) (s : State) : Bool := (List.range (modulesAt F s)).all fun m => decide (F < (s.slice m).passed)

/-- Forms the digest of fire line F, once (R423, R424). -/
def formDigest (s : State) (F : Nat) : State :=
  if F < s.twin.digestNext ∨ modulesAt F s = 0 then s else
    let (ep, n) := lineIn F s
    { s with twin := { s.twin with digestNext := F + 1, digests := ((ep, w32 n, digestOf F s) :: s.twin.digests).take 64 } }

/-- Forms the digests of the fire lines that are complete (R165, R419). -/
def formDigests (s : State) : State :=
  let first := max s.twin.digestNext s.pos.absHigh
  ((List.range' first (s.pos.absHigh + 48 - first)).takeWhile fun F => contentDone F s).foldl formDigest s

/-! ## Trains -/

/-- Fire group of a bar column (R177). -/
def groupOf (col : Nat) : Nat := (col % colsPer) % 8

/-- Slot of a group in fire line F (R177). -/
def slotOf (F grp : Nat) (s : State) : Nat := if s.fire.rotate then (grp + (lineIn F s).2) % 8 else grp

/-- The trains of fire line F of module m: one for each row and group with a drop, in row and slot order. -/
def trainsOf (F m : Nat) (s : State) : List Train :=
  let ds := dropsOf F m s
  (List.range 4).flatMap fun r =>
    let gs := (List.range 8).filter fun g => ds.any fun d => d.row == r && groupOf d.col == g
    (gs.map fun g => ({ fire := F, mod := m, row := r, grp := g, slot := slotOf F g s } : Train)).mergeSort fun a b => a.slot ≤ b.slot

/-- The drops of a train. -/
def Train.drops (t : Train) (s : State) : List Drop :=
  (dropsOf t.fire t.mod s).filter fun d => d.row == t.row && groupOf d.col == t.grp

/-- Target position of a train as a raw 32.18 number on the unrebased count (R178). DEDUCED: where an offset change lets drops of two image
lines meet in a train, the earlier line's fraction governs it (log 18). -/
def Train.target (t : Train) (s : State) : Int :=
  let frac := match t.drops s with
    | [] => 0
    | d :: ds => (ds.foldl (fun b x => if x.img < b.img then x else b) d).frac
  ((t.fire * 2 ^ 18 + frac + t.slot * s.fire.slotPitch : Nat) : Int)

end Sys2Proof.Machine
end

