-- ==== Sys2Proof/Machine/Fire.lean ====
section
/-!
DEFINITION. The fire timing generator (R177 to R213): trains, guards, energy sums, head heat, overspeed, probe visits, resistance
measurement and maintenance spitting.
-/
namespace Sys2Proof.Machine

/-! ## Position and time -/

/-- Period of the internal line clock in 312.5 ps steps (R204). -/
def SpitJob.period (j : SpitJob) : Nat := 3200000000 / j.rate

/-- The 32.18 position, raw, on the unrebased count. -/
def webAbs (s : State) : Int :=
  let d : Int := (s.pos.raw : Int) - (s.pos.high.toNat * 2 ^ 18 : Nat) + (2 ^ 50 : Int)
  (s.pos.absHigh * 2 ^ 18 : Nat) + sx 50 d.toNat

/-- Where the web, or the internal line clock of a spit run, stands: raw 32.18 on the unrebased count. -/
def posAbs (s : State) : Int :=
  match s.fire.spit with
  | some j => (s.pos.absHigh * 2 ^ 18 : Nat) + ((nowSteps s - steps j.tick.toNat) * 2 ^ 18) / (max 1 j.period : Int)
  | none => webAbs s

/-- T_s as a raw 24.8 number; none while the web does not move forward (R180, R181). -/
def rawTs (s : State) : Option Nat :=
  match s.fire.spit with
  | some j => some (j.period * 256)
  | none => if s.pos.tS = 0xFFFFFFFF then none else some s.pos.tS.toNat

/-- Nothing moves the web backwards: the last sample of ENC0, or the internal line clock of a spit run (R181, R204). -/
def forward (s : State) : Bool := s.fire.spit.isSome || decide (0 ≤ s.pos.motion)

/-- Firing is ordered to stop: the instant of the first order counts until a line fires again (R181). -/
def orderStop (s : State) : State := { s with fire := { s.fire with stopAt := s.fire.stopAt.or (some s.pos.mono) } }

/-- Steps from now until position X is reached by the present rate, halves up (R180). -/
def stepsTo (x : Int) (s : State) : Option Int :=
  (rawTs s).map fun t => roundHalfUp ((x - posAbs s) * (t : Int)) (2 ^ 26)

/-! ## Energy of a train -/

/-- The zone field that governs a drop. -/
def zoneSel (d : Drop) (zs : List ZoneSel) : ZoneSel := cell zs (zoneOf (d.col % colsPer)) { count := 0, width := 0, gap := 0, derate := 0 }

/-- Width field of a drop's main pulse under its derating (R186, R197); none where the module has no table or codes (R187). -/
def firedField (objs : List Obj) (zs : List ZoneSel) (d : Drop) : Option Nat :=
  (energyOf objs (d.col / colsPer)).map fun (t, c) => widthField t (d.energyCode c - (zoneSel d zs).derate) d.code

/-- Weights of a train: at the codes it uses and at the codes in force (R187, R189). -/
def Train.weights (t : Train) (s : State) : Nat × Nat :=
  let objs := objsAt t.fire s
  let zs := zonesSent t.fire t.mod s
  let ds := t.drops s
  ((ds.map fun d => match firedField objs zs d with
      | some w => 160 + w
      | none => 0).sum, (ds.map (dropWeight objs)).sum)

/-- Length of the pre-heat of a zone in 312.5 ps steps (R182, R183). -/
def ZoneSel.preLen (z : ZoneSel) : Nat := z.count * ((128 + 8 * z.width) + (128 + 8 * z.gap))

/-- From the first pre-heat pulse of a train to its main pulse (R182): the longest of its zones. -/
def Train.preLen (t : Train) (s : State) : Nat :=
  maxOf ((t.drops s).map fun d => (zoneSel d (zonesSent t.fire t.mod s)).preLen)

/-- How a train's heaters are energised around its main pulses (R190): steps from a heater's first pre-heat pulse to them, steps from them to the end
of its own main pulse, and how many heaters are so. -/
def Train.heating (t : Train) (s : State) : List (Int × Int × Nat) :=
  let objs := objsAt t.fire s
  let zs := zonesSent t.fire t.mod s
  let l : List (Int × Int) := (t.drops s).map fun d =>
    (((zoneSel d zs).preLen : Int), match firedField objs zs d with
      | some w => 1280 + 8 * w
      | none => 0)
  l.dedup.map fun x => (x.1, x.2, l.count x)

/-! ## Sums -/

/-- A train has neither started nor been withheld. -/
def Train.open_ (t : Train) : Bool := t.st == .waiting || t.st == .prepared || t.st == .postponed

/-- Changes the trains a test picks. -/
def mapTrains (p : Train → Bool) (f : Train → Train) (s : State) : State :=
  { s with fire := { s.fire with trains := s.fire.trains.map fun t => if p t then f t else t } }

/-- The same train. -/
def Train.is (t u : Train) : Bool := t.fire == u.fire && t.mod == u.mod && t.row == u.row && t.grp == u.grp

/-- Open trains a test picks are withheld, and the pages with drops in them spoiled. -/
def withhold (p : Train → Bool) (s : State) : State :=
  let ts := s.fire.trains.filter fun t => t.open_ && p t
  spoilDrops (ts.flatMap fun t => t.drops s) (mapTrains (fun t => t.open_ && p t) (fun t => { t with st := .withheld }) s)

/-- The sums of fire line F and module m go to Onyx (R189): what was scheduled, what derating took away, and the full weight of every withheld
train. -/
def deliver (s : State) (k : Nat × Nat) : State :=
  let (F, m) := k
  let ts := s.fire.trains.filter fun t => t.fire == F && t.mod == m
  if F > s.pos.absHigh ∨ ts.any Train.open_ then s else
    let held := ts.filter fun t => t.st == .withheld
    let f := w32 ((find? s.fire.sumF k).getD 0)
    let w := w32 ((find? s.fire.sumW k).getD 0 + (held.map fun t => (t.weights s).2).sum)
    let s1 := spoilDrops (held.flatMap fun t => t.drops s) s
    let s2 := { s1 with fire := { s1.fire with
      trains := s1.fire.trains.filter fun t => !(t.fire == F && t.mod == m)
      sumF := s1.fire.sumF.filter fun x => x.1 != k
      sumW := s1.fire.sumW.filter fun x => x.1 != k
      esumF := upd s1.fire.esumF m (fun _ => f), esumW := upd s1.fire.esumW m (fun _ => w)
      esumLine := F } }
    onyxSum m F none (some (f, w)) s2

/-- Every pair of sums that can be delivered is (R189). -/
def deliverAll (s : State) : State := (s.fire.sumF.map (·.1)).reverse.foldl deliver s

/-- Adds to a running sum. -/
def addSum (l : List ((Nat × Nat) × Nat)) (k : Nat × Nat) (n : Nat) : List ((Nat × Nat) × Nat) :=
  l.map fun x => if x.1 = k then (k, x.2 + n) else x

/-! ## Guards -/

/-- Heaters of module m energised at an instant, of the records given: module, from, to, how many. -/
def energisedAt (m : Nat) (t : Int) (hs : List (Nat × Int × Int × Nat)) : Nat :=
  ((hs.filter fun h => h.1 == m && decide (h.2.1 ≤ t ∧ t < h.2.2.1)).map (·.2.2.2)).sum

/-- The records of a train of module m whose main pulses are at an instant. -/
def heatRecords (m : Nat) (main : Int) (own : List (Int × Int × Nat)) : List (Nat × Int × Int × Nat) :=
  own.map fun x => (m, main - x.1, main + x.2.1, x.2.2)

/-- MAX_HEATERS in force for a module (R190). -/
def heaterLimit (m : Nat) (s : State) : Nat :=
  match (s.lane m).capHeld with
  | some c => min (capHeaters c) s.fire.maxHeaters
  | none => s.fire.maxHeaters

/-- A train's heaters fit beside those energised (R190): the number rises only where heaters start. -/
def heatersFit (m : Nat) (main : Int) (own : List (Int × Int × Nat)) (s : State) : Bool :=
  let mine := heatRecords m main own
  ((mine ++ s.fire.heaters.filter fun h => h.1 == m).map (·.2.1)).all fun t =>
    energisedAt m t mine == 0 || decide (energisedAt m t mine + energisedAt m t s.fire.heaters ≤ heaterLimit m s)

/-- The next instant of the main pulses at which some of the train's heaters start as heaters are released. -/
def nextRelease (m : Nat) (main : Int) (own : List (Int × Int × Nat)) (s : State) : Option Int :=
  (((s.fire.heaters.filter fun h => h.1 == m).flatMap fun h => own.map fun x => h.2.2.1 + x.1).filter fun t => decide (main < t)).min?

/-- The heater guard (R190): the main pulses move to the next release until enough heaters are free; `fuel` bounds the releases by the
records held. -/
def heaterGuard (m : Nat) (own : List (Int × Int × Nat)) (s : State) : Nat → Int → Int
  | 0, main => main
  | fuel + 1, main =>
    if heatersFit m main own s then main
    else match nextRelease m main own s with
      | some t => heaterGuard m own s fuel t
      | none => main

/-- The guards in their order (R191): the start of a train whose main pulses are wanted at an instant. -/
def guardedStart (t : Train) (main : Int) (s : State) : Int :=
  let refill : Int := stepsUp (capRefill (capOf t.mod s))
  let own := t.heating s
  let refilled := (t.drops s).foldl (fun a d => match find? s.fire.lastMain (d.col, d.row) with
    | some l => max a (l + refill)
    | none => a) main
  heaterGuard t.mod own s (s.fire.heaters.length * own.length) refilled - t.preLen s

/-! ## Markers -/

/-- Notes a marker whose first symbol leaves lane m `tx` steps from now (R233): kept for as long as a report can look back, 3.2 µs and the delays of
lane and frame before the last valid status frame. -/
def noteMarker (m F tx : Nat) (s : State) : State :=
  let at_ := nowSteps s + tx
  setLane m (fun l => { l with sentMarks := (at_, F) :: l.sentMarks.filter fun x => decide (steps l.statusTime.toNat ≤ x.1 + 32000) }) s

/-- LPH of a fire line's markers: F mod 4, F numbered in its epoch (R177, R231). -/
def lphOf (F : Nat) (s : State) : Nat := (lineIn F s).2 % 4

/-- One-way delay of a lane and its head, steps (R231). -/
def linkDelay (m : Nat) (s : State) : Int := ((s.lane m).lat + capFixed (capOf m s) : Nat)

/-- A train's COMMIT marker at `tx` steps from now (R231): it leaves if Onyx lets it and the lane is up; the generator books the train as
scheduled either way (R189, R233). DEDUCED: a marker that is held at the gate, or that a lane that is down cannot carry, leaves its
pages spoiled (log 18). -/
def sendCommit (t : Train) (tx : Nat) (main : Int) (s : State) : State :=
  let delay := main - (nowSteps s + tx) - linkDelay t.mod s
  let ds := t.drops s
  let active := (s.lane t.mod).st == .active && !(s.lane t.mod).blanking && !(s.lane t.mod).idleHeld
  let (go, s1) := if active then presentMarker t.mod t.fire s else (false, s)
  if go then
    sendMarker t.mod (commitMarker t.row (lphOf t.fire s) t.grp (min 2047 (max 0 delay).toNat)) (noteMarker t.mod t.fire tx s1)
  else if s1.onyx.tripped then s1
  else unfireDrops ds s1

/-- A train starts (R180, R189, R190, R191): its marker, its weights, the refill and heater records. -/
def fireTrain (t : Train) (tx : Nat) (main : Int) (s : State) : State :=
  let at_ := max main (nowSteps s + tx + linkDelay t.mod s)
  let ds := t.drops s
  let (used, full) := t.weights s
  let zs := zonesSent t.fire t.mod s
  let plan := match s.fire.probe with
    | some p => p.no
    | none => s.fire.plans - 1
  let warm := (ds.filter fun d => d.probe.isSome && (zoneSel d zs).warned).map fun d => (plan, d.col, d.row)
  let s1 := (if zs.any (fun z => z.derate != 0) then exclude (drawnBy ds) else id) (sendCommit t tx main s)
  if s1.onyx.tripped ∧ ¬ s.onyx.tripped then s1 else
    let keys := ds.map fun d => (d.col, d.row)
    let f := s1.fire
    mapTrains (Train.is t) (fun t => { t with st := .fired, tMain := at_ })
      { s1 with
        fire := { f with
          sumF := addSum f.sumF (t.fire, t.mod) used
          sumW := addSum f.sumW (t.fire, t.mod) (full - used)
          lastMain := keys.map (fun k => (k, at_)) ++ f.lastMain.filter fun x => !keys.contains x.1
          heaters := heatRecords t.mod at_ (t.heating s) ++ f.heaters.filter fun h => decide (nowSteps s < h.2.2.1 + 6400) }
        cal := { s1.cal with probeWarm := warm ++ s1.cal.probeWarm } }

/-- Steps from now to the predicted boundary of fire line F (R179). -/
def boundaryIn (F : Nat) (s : State) : Option Int := stepsTo ((F * 2 ^ 18 : Nat) : Int) s

/-- A train that the guards would delay past boundary F + 2 (R179). -/
def slotOmit (t : Train) (s : State) : State :=
  withhold (Train.is t) (stickRec (source := 0x10 + t.mod) .slotOmit { s with fire := { s.fire with slotOmit := satAdd s.fire.slotOmit 1 } })

/-- Starts a train whose main pulses are wanted at an instant, or postpones or withholds it (R179, R190, R191); an instant that the link can no
longer reach gives way to the earliest one it can (R180). `first` says whether this is its first try. -/
def tryTrain (first : Bool) (t : Train) (tx : Nat) (wanted : Int) (s : State) : State :=
  let main := max wanted (nowSteps s + tx + linkDelay t.mod s)
  let pre : Int := t.preLen s
  let start := guardedStart t main s
  let past := match boundaryIn (t.fire + 2) s with
    | some b => decide (start ≥ nowSteps s + b)
    | none => false
  if past then slotOmit t s
  else if start = main - pre then fireTrain t tx main s
  else
    let s1 := mapTrains (Train.is t) (fun t => { t with st := .postponed, tMain := start + pre }) s
    if first then stickRec (source := 0x10 + t.mod) .slotPostponed { s1 with fire := { s1.fire with postpone := satAdd s1.fire.postpone 1 } } else s1

/-- The open train of a fire line, module, row and group. -/
def findTrain (mod fire row grp : Nat) (s : State) : Option Train :=
  s.fire.trains.find? fun t => t.fire == fire && t.mod == mod && t.row == row && t.grp == grp

/-- Trains of a fire line may start: its boundary has passed, or it is the next line, the line in progress fires and nothing orders firing
to stop or omits lines (R179 to R181). -/
def lineOpen (F : Nat) (s : State) : Bool :=
  decide (F ≤ s.pos.absHigh) ||
  (decide (F = s.pos.absHigh + 1) && s.fire.permitted && bothGrant s && sendsFrames s && !s.fire.heatHold && !s.fire.overHold && !s.fire.omitting)

/-- 100 µs have passed since firing was ordered to stop, and it has not begun again (R181). -/
def stopExpired (s : State) : Bool := match s.fire.stopAt with
  | some t => decide (t.toNat + 100000 ≤ s.pos.mono.toNat)
  | none => false

/-- The instant at which an open train is ready: its target by the present rate, or where the guards have put it; the present instant once that
has passed. None while it cannot start: no forward motion, or it is to be abandoned (R180, R181). -/
def readyAt (t : Train) (s : State) : Option Int :=
  if !forward s || !lineOpen t.fire s || !sendsFrames s || stopExpired s then none
  else if t.st = .postponed then (rawTs s).map fun _ => max (nowSteps s) t.tMain
  else if t.st = .waiting ∨ t.st = .prepared then (stepsTo (t.target s) s).map fun d => nowSteps s + max 0 d
  else none

/-- One instant comes before another. -/
def instantBefore (a b : Option Int) : Bool := match a, b with
  | some x, some y => decide (x < y)
  | _, _ => false

/-- A train of the same module that goes first: it is ready earlier (R225), or at the same instant with an earlier fire line, then an earlier row
letter, then a lower slot (R190). -/
def goesFirst (t u : Train) (s : State) : Bool :=
  u.mod == t.mod && (instantBefore (readyAt u s) (readyAt t s) || (readyAt u s == readyAt t s &&
    (decide (u.fire < t.fire) || (u.fire == t.fire && (decide (u.row < t.row) || (u.row == t.row && decide (u.slot < t.slot)))))))

/-- It is a train's turn: it is ready less than 400 ns ahead, and no other goes first (R180, R190, R225). -/
def trainTurn (t : Train) (s : State) : Bool := match readyAt t s with
  | some r => decide (r < nowSteps s + 1280) && !s.fire.trains.any fun u => goesFirst t u s
  | none => false

/-- It is the turn of a train's PREP: no train of the module that is ready earlier waits for a COMMIT or a PREP that is due (R225, R232). -/
def prepTurn (t : Train) (s : State) : Bool :=
  (readyAt t s).isSome && !s.fire.trains.any fun u =>
    u.mod == t.mod && instantBefore (readyAt u s) (readyAt t s) &&
    (instantBefore (readyAt u s) (some (nowSteps s + 1280)) || (u.st == .waiting && decide (0 < u.preLen s)))

/-- TRAIN_COMMIT (R180): the first sample from which t_fire of a waiting train lies less than 400 ns ahead; `tx` is the number of steps from
the sample to the marker's first symbol. -/
def execTrainCommit (mod : Fin 16) (fire : Nat) (row : Fin 4) (grp : Fin 8) (tx : Nat) (samples : Samples) (s : State) :
    Host.Outcome State Fault Refusal :=
  let s1 := mainUpdate (advance samples s)
  .next (match findTrain mod fire row grp s1 with
    | none => s1
    | some t =>
      match stepsTo (t.target s1) s1 with
      | none => s1
      | some d =>
        if (t.st = .waiting ∨ t.st = .prepared) ∧ trainTurn t s1 then deliverAll (tryTrain true t tx (nowSteps s1 + d) s1) else s1)

/-- TRAIN_POSTPONED_START (R190, R191): a postponed train whose start lies less than 400 ns ahead. -/
def execTrainPostponedStart (mod : Fin 16) (fire : Nat) (row : Fin 4) (grp : Fin 8) (tx : Nat) (samples : Samples) (s : State) :
    Host.Outcome State Fault Refusal :=
  let s1 := mainUpdate (advance samples s)
  .next (match findTrain mod fire row grp s1 with
    | none => s1
    | some t => if t.st = .postponed ∧ trainTurn t s1 then deliverAll (tryTrain false t tx t.tMain s1) else s1)

/-- TRAIN_ABANDON (R181): 100 µs after firing was ordered to stop, a train of a line whose boundary has passed and that has not
started. -/
def execTrainAbandon (mod : Fin 16) (fire : Nat) (row : Fin 4) (grp : Fin 8) (s : State) : Host.Outcome State Fault Refusal :=
  .next (match findTrain mod fire row grp s with
    | none => s
    | some t =>
      if t.open_ ∧ t.fire ≤ s.pos.absHigh ∧ stopExpired s then
        deliverAll (withhold (Train.is t) (stickRec (source := 0x10 + mod) .slotAbandoned
          { s with fire := { s.fire with abandoned := satAdd s.fire.abandoned 1 } }))
      else s)

/-- PREP_MARKER (R232): the first sample from which t_fire of a train with pre-heat lies less than 3,000 ns ahead. -/
def execPrepMarker (mod : Fin 16) (fire : Nat) (row : Fin 4) (grp : Fin 8) (tx : Nat) (samples : Samples) (s : State) :
    Host.Outcome State Fault Refusal :=
  let s1 := mainUpdate (advance samples s)
  .next (match findTrain mod fire row grp s1 with
    | none => s1
    | some t =>
      match stepsTo (t.target s1) s1 with
      | none => s1
      | some d =>
        if t.st = .waiting ∧ d < 9600 ∧ 0 < t.preLen s1 ∧ prepTurn t s1 ∧ (s1.lane mod).st = .active then
          let (go, s2) := presentMarker mod t.fire s1
          if !go then s2 else
            let delay := roundHalfUp (d - tx - linkDelay mod s2) 32
            sendMarker mod (prepMarker (lphOf t.fire s1) row grp (min 511 (max 0 delay).toNat))
              (noteMarker mod t.fire tx (mapTrains (Train.is t) (fun t => { t with st := .prepared }) s2))
        else s1)

/-! ## Head heat -/

/-- T_TRIP (R196); none while no fitted head has declared a T_HEAD_MAX. -/
def tripLevel (s : State) : Option Nat := s.fire.tTrip.or (lowestTMax s)

/-- T_WARN (R196). -/
def warnLevel (s : State) : Option Nat := s.fire.tWarn.or ((tripLevel s).map (· - 16))

/-- Changes zone z of module m. -/
def setZone (m z : Nat) (f : ZoneT → ZoneT) (s : State) : State :=
  { s with fire := { s.fire with zones := upd s.fire.zones m (fun l => upd l z f) } }

/-- A zone of a fitted module counts as at T_TRIP (R196, R198): firing is ordered to stop from the next boundary, HEAT_TRIP, event
0x0505 recorded. -/
def heatTrip (m z : Nat) (s : State) : State :=
  let t := s.zone m z
  if t.trip ∨ m ≥ s.cg.modules then s else
    let s1 := setZone m z (fun t => { t with trip := true }) (orderStop { s with fire := { s.fire with heatHold := true, resumeHeat := false } })
    stickEvent .heatTrip { ev := .heatTrip, source := 0x10 + m, p0 := w32 m, p1 := w32 z, p2 := w32 t.reading, always := true } s1

/-- The reading that a zone of module m holds is judged against the levels in force (R196 to R198). -/
def judgeZone (m z : Nat) (s : State) : State :=
  let v := (s.zone m z).reading
  if m ≥ s.cg.modules then s else
    let trip := match tripLevel s with
      | some t => decide (t ≤ v)
      | none => false
    let warn := match warnLevel s with
      | some w => decide (w ≤ v)
      | none => false
    let s1 := if warn && !(s.zone m z).warn then
        stickEvent .heatWarn { ev := .heatWarn, source := 0x10 + m, p0 := w32 m, p1 := w32 z, p2 := w32 v }
          (setZone m z (fun t => { t with warn := true }) s)
      else s
    if trip then heatTrip m z s1 else setZone m z (fun t => { t with trip := false }) s1

/-- A reading of zone z of module m arrives (R196 to R198). -/
def zoneReading (m z v : Nat) (s : State) : State :=
  judgeZone m z (setLane m (fun l => { l with readAt := s.pos.mono })
    (setZone m z (fun t => { t with reading := v, fresh := true, stale := false }) s))

/-- Readings that stand are judged again under new levels (R196): a zone is at T_TRIP while its reading is at or above it. -/
def judgeAll (s : State) : State :=
  forAll s.fitted (fun m s => forAll (List.range 8) (fun z s => if (s.zone m z).fresh then judgeZone m z s else s) s) s

/-- TEMP_STALE (R196): no reading of the zones of a fitted module has arrived for 20 µs. -/
def execTempStale (mod : Fin 16) (s : State) : Host.Outcome State Fault Refusal :=
  .next (if s.pos.mono.toNat < (s.lane mod).readAt.toNat + 20000 ∨ (mod : Nat) ≥ s.cg.modules ∨ (List.range 8).all (fun z => (s.zone mod z).stale) then s else
    let s1 := forAll (List.range 8) (fun z => setZone mod z (fun t => { t with stale := true, fresh := false })) s
    forAll (List.range 8) (heatTrip mod) (stickRec (source := 0x10 + mod) .tempStale s1))

/-- Every zone of every fitted module is below T_WARN - T_HYST (R198). -/
def coolEnough (s : State) : Bool :=
  match warnLevel s with
  | none => true
  | some w => s.fitted.all fun m => (List.range 8).all fun z =>
    let t := s.zone m z
    decide (t.reading + s.fire.tHyst < w) && !t.trip

/-- Warnings at a boundary (R197): those that cooled clear, and the frames from now on carry what stands. -/
def warnStep (s : State) : State :=
  match warnLevel s with
  | none => s
  | some w => { s with fire := { s.fire with zones := s.fire.zones.map fun l => l.map fun t =>
      let warn := t.warn && !decide (t.reading + s.fire.tHyst < w)
      { t with warn := warn, warnSend := warn } } }

/-! ## Overspeed -/

/-- R at a boundary: 8 lines divided by the time the last 8 line periods took (R199). -/
def rateStep (s : State) : State :=
  let times := (s.pos.mono :: s.fire.bTimes).take 9
  let r := match times.head?, times[8]? with
    | some a, some b => 8000000000 / (a - b).toNat
    | _, _ => 0
  let f := s.cg.fLim
  { s with fire := { s.fire with
    bTimes := times, rate := w32 (min r 0xFFFFFFFF), ratio := BitVec.ofNat 16 (if f = 0 then 0 else min 0xFFFF (r * 16384 / f)) } }

/-- The overspeed events carry R and F_LIM (R206). -/
def speedEvent (e : Ev) (s : State) : Event := { ev := e, p0 := s.fire.rate, p1 := w32 s.cg.fLim }

/-- OVERSPEED_WARN_LIVE (R199). -/
def overWarn (s : State) : State :=
  let r := 100 * s.fire.rate.toNat
  let f := s.cg.fLim
  if f = 0 then s
  else if !s.fire.warnLive && decide (95 * f ≤ r) then
    stickEvent .overspeedWarn (speedEvent .overspeedWarn s) { s with fire := { s.fire with warnLive := true } }
  else if s.fire.warnLive && decide (r < 94 * f) then { s with fire := { s.fire with warnLive := false } }
  else s

/-- Consecutive boundaries at ρ ≤ 1.00, the present one among them (R201). -/
def overCount (s : State) : State :=
  { s with fire := { s.fire with slowRun := if s.fire.rate.toNat ≤ s.cg.fLim then min 64 (s.fire.slowRun + 1) else 0 } }

/-- ρ above 1.03 at a boundary (R201): firing is ordered to stop from the next one, and a FIRE_RESUME given before does not count. -/
def overStop (s : State) : State :=
  if s.cg.fLim = 0 ∨ 100 * s.fire.rate.toNat ≤ 103 * s.cg.fLim ∨ s.fire.overHold then s else
    stickEvent .overspeedStop (speedEvent .overspeedStop s)
      (emit (.pin "SLOWDOWN_N" false) (orderStop
        { s with fire := { s.fire with overHold := true, slowdown := true, resumeReq := false } }))

/-- Resumption after an overspeed stop: 64 boundaries at or below F_LIM, and FIRE_RESUME where OVERSPEED_AUTO_RESUME is 0 (R201). -/
def overClear (s : State) : State :=
  if s.fire.overHold ∧ s.fire.slowRun ≥ 64 ∧ (s.fire.autoResume ∨ s.fire.resumeReq) then
    event (speedEvent .overspeedClear s)
      (emit (.pin "SLOWDOWN_N" true) { s with fire := { s.fire with
        overHold := false, slowdown := false, resumeReq := false, resumeDue := s.fire.resumeDue || s.fire.resumeReq } })
  else s

/-- The error diffusion of a boundary (R200): the new accumulators, and the modules whose fire line is omitted. -/
def diffuse (s : State) : List Nat × List Nat :=
  let r := s.fire.rate.toNat
  let f := s.cg.fLim
  if r ≤ f ∨ f = 0 then ((List.range 16).map fun m => m * 4096 % 65536, [])
  else if 100 * r ≤ 103 * f then
    let q := 65536 - 65536 * f / r
    let sums := s.fire.acc.map (· + q)
    (sums.map fun a => if a ≥ 65536 then a - 65536 else a, (List.range 16).filter fun m => decide (cell sums m 0 ≥ 65536))
  else (s.fire.acc, [])

/-! ## Fire lines -/

/-- Records why a fire line of a module is withheld whole, and withholds its trains that have not started (R189). -/
def withholdLine (F : Nat) (why : WithheldBy) (s : State) (m : Nat) : State :=
  let ds := dropsOf F m s
  let s1 := { s with fire := { s.fire with lineWhy := ((F, m), why) :: s.fire.lineWhy } }
  let s2 := match why with
    | .omission =>
      mapPages (fun p => (pagesIn ds).contains p.uid) (fun p => { p with overOmit := p.overOmit + 1, spoiled := true })
        (exclude (drawnBy ds) { s1 with fire := { s1.fire with omitLines := satAdd s1.fire.omitLines 1 } })
    | _ => unfireDrops ds s1
  withhold (fun t => t.fire == F && t.mod == m) s2

/-- The unit may fire the line that begins: PRINT, or SERVICE in a spit run, permissions of both sides, and frames sent (R39, R413,
R453). -/
def firingAllowed (s : State) : Bool :=
  (s.host.opState == .print || (s.host.opState == .service && s.fire.spit.isSome)) && bothGrant s && sendsFrames s

/-- The fire line that begins at boundary B is fired, or withheld whole under the first cause that applies (R189, R198, R200,
R201). -/
def beginLine (B : Nat) (skip_ : List Nat) (s : State) : State :=
  let may := firingAllowed s
  let fires := may && !s.fire.heatHold && !s.fire.overHold
  let s0 := if fires then { s with fire := { s.fire with stopAt := none } } else if s.fire.permitted then orderStop s else s
  let s1 := { s0 with host := { s0.host with firing := fires }, fire := { s0.fire with permitted := may } }
  let mods := List.range (modulesAt B s)
  if !may then mods.foldl (withholdLine B .onyx) s1
  else if s.fire.heatHold then mods.foldl (withholdLine B .heat) s1
  else if s.fire.overHold then mods.foldl (withholdLine B .overStop) s1
  else (mods.filter skip_.contains).foldl (withholdLine B .omission) s1

/-- A module without ENERGY_TABLE or ENERGY_CODES in force withholds every train of a line with drops (R187). -/
def noTable (F m : Nat) (s : State) : State :=
  if (energyOf (objsAt F s) m).isSome ∨ (dropsOf F m s).isEmpty then s
  else withhold (fun t => t.fire == F && t.mod == m) (stickRec (source := 0x10 + m) .noEnergyTable s)

/-- The frame of fire line F of module m begins transmission (R183, R226): its zone fields, its trains, and the frame itself where the unit
sends frames and the lane is ACTIVE. -/
def sendFrame (F : Nat) (s : State) (m : Nat) : State :=
  let zs := zoneSels F m s
  let s1 := { s with fire := { s.fire with
    hdr := ((F, m), zs) :: s.fire.hdr
    trains := s.fire.trains ++ trainsOf F m s
    sumF := ((F, m), 0) :: s.fire.sumF, sumW := ((F, m), 0) :: s.fire.sumW } }
  let s2 := noTable F m s1
  if sendsFrames s2 && (s2.lane m).st == .active then
    let n := (lineIn F s).2
    queueTx m (frameItems (n % 16) (n == 0) (frameParts F m zs s2))
      (setLane m (fun l => { l with frames := satAdd l.frames 1 }) s2)
  else s2

/-- The frames of fire line F (R30, R226), once, and its digest where a slice never finished it (R423). DESIGN CHOICE: frames that a commit on a stopped web has made anew for lines
whose own boundary F - 2 has passed are sent at the next boundary, that of line Lc (log 18). -/
def sendLine (F : Nat) (s : State) : State :=
  let n := modulesAt F s
  if n = 0 ∨ s.fire.hdr.any (fun h => h.1.1 == F) then s else
    formDigest ((List.range n).foldl (sendFrame F) s) F

/-- Trains of fire line B - 2 that have not started (R179). -/
def lateTrains (B : Nat) (s : State) : State :=
  (s.fire.trains.filter fun t => t.open_ && decide (t.fire + 2 ≤ B)).foldl (fun s t => slotOmit t s) s

/-! ## Probe visits -/

/-- The lines a gap must have to be used (R192). -/
def gapNeeds (pl : Probe) (s : State) : Nat := 2 * (deltaD s + 8) + 8 * pl.drops + 16

/-- Gaps that a visit could use, as first line and length: that of the next page, and that of the last page started where it began on
time (R192). -/
def gapsNow (s : State) : List (Nat × Nat) :=
  let coming := match s.pg.decRing with
    | some r => match nextPage r s with
      | some p => [(s.pg.nominal, gapBefore p s)]
      | none => []
    | none => []
  let begun := match (s.pg.pages.filter fun p => p.started && !p.recorded && p.pNo + 1 == s.pg.startedCnt).getLast? with
    | some p => if p.underrun = 0 ∧ p.pNo ≠ 0 then [(p.firstAbs - p.gapUsed, p.gapUsed)] else []
    | none => []
  if s.pg.startedCnt = 0 then [] else begun ++ coming

/-- A visit may use an image line (R210). -/
def probeFrom (pl : Probe) (L : Nat) (s : State) : Bool :=
  let (ep, n) := lineIn L s
  decide (pl.epoch < ep) || (decide (pl.epoch = ep) && decide (pl.startLine.toNat ≤ n))

/-- Visits of a whole plan (R193). -/
def probeTotal (pl : Probe) (s : State) : Nat := 32 * countIf (List.range s.cg.rows) (fun r => pl.rows.getLsbD r) * pl.steps

/-- The plan ends (R193, R210). -/
def endProbe (pl : Probe) (s : State) : State :=
  complete 0x0503 pl.tag 0 (w32 pl.visit) 0 0 { s with fire := { s.fire with probe := none } }

/-- Probe visits at boundary B (R192, R193, R210): a qualifying gap becomes the next visit as slices come to its window; the plan ends after
its last visit, or at the next one once it was told to stop. -/
def probeStep (B : Nat) (s : State) : State :=
  match s.fire.probe with
  | none => s
  | some pl =>
    let past := match pl.window with
      | some (w, _) => decide (w + 8 * pl.drops + 16 ≤ B)
      | none => true
    if pl.visit ≥ probeTotal pl s then (if past then endProbe pl s else s) else
      let first := fun (g : Nat × Nat) => g.1 + deltaD s + 8
      let fit := (gapsNow s).find? fun g =>
        decide (g.1 ≠ pl.lastGap ∧ gapNeeds pl s ≤ g.2 ∧ first g ≤ B + 16) && probeFrom pl (first g) s && !anyBegan (first g) s
      match fit with
      | none => s
      | some g =>
        if pl.stopping then endProbe pl s else
          { s with fire := { s.fire with
            probe := some { pl with window := some (first g, pl.visit), visit := pl.visit + 1, lastGap := g.1 }
            probeVisit := w32 (pl.visit + 1) } }

/-! ## Resistance measurement -/

/-- A measurement ends (R202, R203). -/
def endMeasure (j : MeasJob) (status : Nat) (p0 p1 p2 : Word) (s : State) : State :=
  complete 0x0504 j.tag status p0 p1 p2 { s with fire := { s.fire with meas := none } }

/-- A reading of a heater that the head has (R202, R203). -/
def fittedReading (s : State) (x : Nat × Nat) : Bool := decide (x.1 % 4 < capRows (capOf (x.1 / 13056) s))

/-- Firing that becomes permitted stops a measurement (R202). -/
def stopMeasure (s : State) : State :=
  match s.fire.meas with
  | some j => stickRec (source := match j.mods with | [m] => 0x10 + m | _ => 0) .measIncomplete (endMeasure j 0x12 (w32 (countIf j.readings (fittedReading s))) 0 0 s)
  | none => s

/-- Sixteen readings of a status frame (R202, R234 words 15 to 23). -/
def takeReadings (m index : Nat) (vals : List Nat) (s : State) : State :=
  match s.fire.meas with
  | none => s
  | some j =>
    if m ∉ j.mods then s else
      let new := vals.zipIdx.map fun (v, i) => (13056 * m + index + i, v)
      { s with fire := { s.fire with meas := some { j with
        readings := new ++ j.readings.filter fun x => !new.any fun y => y.1 == x.1 } } }

/-- Whether a reading is valid: neither open nor short (R203). -/
def goodOhm (v : Nat) : Bool := v != 0 && v != 0xFFFF

/-- The median, the lower of the two middle ones of an even number; 0 of none. DESIGN CHOICE (log 18). -/
def medianOf (l : List Nat) : Nat :=
  let xs := l.mergeSort (· ≤ ·)
  cell xs ((xs.length - 1) / 2) 0

/-- Every heater of the measured modules is in: 3,264 for each row that the head has (R202). -/
def measureFull (j : MeasJob) (s : State) : Bool := j.mods.all fun m =>
  decide (countIf j.readings (fun x => x.1 / 13056 == m && fittedReading s x) ≥ colsPer * capRows (capOf m s))

/-- FIRE_MEASURE_R_DONE (R203): all readings are in; `written` says whether the buffer could be written. -/
def execFireMeasureRDone (written : Bool) (s : State) : Host.Outcome State Fault Refusal :=
  .next (match s.fire.meas with
    | none => s
    | some j =>
      if !measureFull j s then s
      else if !written ∨ !s.host.busMaster then endMeasure j 0x30 0 0 0 s
      else
        let n := 13056 * s.cg.modules
        let fitted := j.readings.filter (fittedReading s)
        let bytes := (List.range n).flatMap fun i => bytesLE 2 ((find? j.readings i).getD 0)
        let opens := countIf fitted fun x => x.2 == 0xFFFF
        let shorts := countIf fitted fun x => x.2 == 0
        let mid := medianOf ((fitted.filter fun x => goodOhm x.2).map (·.2))
        endMeasure j 0 (w32 opens) (w32 shorts) (w32 mid)
          (emit (.dmaWrite j.addr bytes) { s with fire := { s.fire with ohms := j.readings } }))

/-! ## The boundary -/

/-- FIRE_RESUME acts on a heat hold at the first boundary after it, if every zone is still cool enough there (R198). -/
def resumeStep (s : State) : State :=
  if !s.fire.resumeHeat then s else
    let go := s.fire.heatHold && coolEnough s
    { s with fire := { s.fire with resumeHeat := false, heatHold := s.fire.heatHold && !go, resumeDue := s.fire.resumeDue || go } }

/-- Event 0x0506 names the first line fired after a FIRE_RESUME (R206). -/
def resumed (B : Nat) (s : State) : State :=
  if s.fire.resumeDue ∧ s.host.firing then
    event { ev := .fireResumed, p0 := w32 (lineIn B s).2 } { s with fire := { s.fire with resumeDue := false } }
  else s

/-- What no later step looks at leaves the records. -/
def pruneFire (B : Nat) (s : State) : State :=
  { s with fire := { s.fire with
    hdr := s.fire.hdr.filter fun h => decide (B ≤ h.1.1 + 4)
    lineWhy := s.fire.lineWhy.filter fun h => decide (B ≤ h.1.1 + 4)
    lastMain := s.fire.lastMain.filter fun x => decide (nowSteps s ≤ x.2 + steps 65536) } }

/-- The sums of fire line B - 2 are complete by boundary B (R179, R189): trains still waiting are withheld, what can be delivered is, and Onyx
finds what is missing (R460). -/
def closeLine (B : Nat) (s : State) : State := sumsMissing B (deliverAll (lateTrains B s))

/-- Fire timing at boundary B (R179, R189, R193, R197 to R202, R226). -/
def fireBoundary (B : Nat) (s : State) : State :=
  let s1 := warnStep (resumeStep (overWarn (rateStep s)))
  let s2 := overClear (overCount s1)
  let (acc, skip_) := diffuse s2
  let omitting := decide (s2.cg.fLim < s2.fire.rate.toNat ∧ 100 * s2.fire.rate.toNat ≤ 103 * s2.cg.fLim) && s2.cg.fLim != 0
  let s3 := { s2 with fire := { s2.fire with acc := acc, omitting := omitting } }
  let s4 := if omitting && !s2.fire.omitting then stickRec .overspeedOmit s3 else s3
  let s5 := resumed B (beginLine B skip_ (closeLine B s4))
  let s6 := if s5.host.firing then stopMeasure s5 else s5
  let s7 := probeStep B (overStop s6)
  pruneFire B (deliverAll (sendLine (B + 2) (sendLine (B + 1) (sendLine B s7))))

/-! ## Maintenance spitting -/

/-- The run is over: all its lines have fired from every row. -/
def spitOver (B : Nat) (j : SpitJob) (s : State) : Bool := decide (j.first + j.lines + maxDint s + 2 ≤ B)

/-- What a tick of the internal line clock does once the line has begun (R204, R212, R457): the run ends with OK, or with SAFETY_BLOCKED and
the unit leaves SERVICE where a permission is missing. DEDUCED: SAFETY_BLOCKED too where the unit has left SERVICE by command (log 18). -/
def spitStep (B : Nat) (s : State) : State :=
  match s.fire.spit with
  | none => s
  | some j =>
    if !bothGrant s || s.host.opState != .service then
      serviceCheck (complete 0x0505 j.tag 0x31 0 0 0
        { s with fire := { s.fire with spit := none }, host := { s.host with firing := false } })
    else if spitOver B j s then
      complete 0x0505 j.tag 0 0 0 0 { s with fire := { s.fire with spit := none }, host := { s.host with firing := false } }
    else s

/-! ## Content checks (R213) -/

/-- ENERGY_TABLE against the declared maximum main pulse of its head. -/
def checkEtab (maxMain : Nat) (b : List Byte) : Option Nat :=
  firstIn 64 fun e =>
    let w := objWord b e
    let f := fun d => widthField b e d
    let next := fun d => widthField b (e + 1) d
    let any := fun (p : Nat → Bool) => [1, 2, 3].any p
    firstCode [(fld w 30 2 != 0, 0x0901), (any fun d => decide (f d > 640), 0x0902),
      (decide (e < 63) && (any fun d => decide (next d < f d)), 0x0903), (any fun d => decide (f d > maxMain), 0x0904)]

/-- ENERGY_CODES. -/
def checkEcode (b : List Byte) : Option Nat := firstIn 13056 fun i => firstCode [(decide (by8 b i ≥ 64), 0x0A01)]

/-- PREHEAT_TABLE against the declared pre-heat maximum of its head. -/
def checkPreheat (phMax : Nat) (b : List Byte) : Option Nat :=
  firstIn 256 fun i =>
    let w := objWord b i
    let width := fld w 4 6
    firstCode [(w &&& 0xFF80FC08 != 0, 0x0B01), (decide (width > 48 ∨ fld w 16 7 > 64 ∨ width > phMax), 0x0B02)]

/-! ## Commands -/

/-- FIRE_STATUS (R205). -/
def fireStatus (s : State) : Word :=
  let f := s.fire
  w32 (b2n f.heatHold + 2 * b2n f.overHold + 4 * b2n f.omitting + 8 * b2n f.warnLive + 16 * b2n f.slowdown +
    32 * b2n f.probe.isSome + 64 * b2n f.meas.isSome + 128 * b2n f.spit.isSome)

/-- The registers at 0x000 to 0x024 (R205). -/
def fireView (s : State) : List Word :=
  let f := s.fire
  [fireStatus s, f.rate, w32 s.cg.fLim, w32 f.ratio.toNat, f.omitLines, f.postpone, f.slotOmit, f.abandoned, f.probeVisit, f.probeSkip]

/-- FIRE_GET_STATUS (R208). -/
def execFireGetStatus (slot : Fin 16) (s : State) : Host.Outcome State Fault Refusal :=
  .next (command 0x0500 1 slot (fun s ws => [reservedW ws 0 1, notBoot s])
    (fun _ ws s =>
      let s1 := if flag (wd ws 0) 0 then { s with fire := { s.fire with
          omitLines := 0, postpone := 0, slotOmit := 0, abandoned := 0, probeVisit := 0, probeSkip := 0 } } else s
      done (s1, okWith (fireView s))) s)

/-- Trains that have not started take the slots that the ROTATE in force gives them (R177, R209). -/
def slotAgain (s : State) : State := mapTrains Train.open_ (fun t => { t with slot := slotOf t.fire t.grp s }) s

/-- FIRE_CONFIG (R196, R209). -/
def execFireConfig (slot : Fin 16) (s : State) : Host.Outcome State Fault Refusal :=
  .next (command 0x0501 3 slot
    (fun s ws =>
      let mh := fld (wd ws 0) 20 12
      let hyst := fld (wd ws 1) 16 8
      let aboveHead := match lowestTMax s with
        | some t => decide (t < fld (wd ws 1) 8 8)
        | none => false
      [(decide (fld (wd ws 0) 0 18 > 0x8000 ∨ mh < 408 ∨ mh > 3264), badParam 0),
       (decide (hyst < 2 ∨ hyst > 40) || aboveHead, badParam 1), reservedW ws 1 0x07FFFFFF,
       (decide (wn ws 2 % 65536 < 0x9334 ∨ wn ws 2 % 65536 > 0xC000), badParam 2), reservedW ws 2 0xFFFF,
       (s.host.firing, badState)])
    (fun _ ws s =>
      done (judgeAll (slotAgain { s with fire := { s.fire with
        slotPitch := fld (wd ws 0) 0 18, rotate := flag (wd ws 0) 18, autoResume := flag (wd ws 0) 19, maxHeaters := fld (wd ws 0) 20 12
        tWarn := some (fld (wd ws 1) 0 8), tTrip := some (fld (wd ws 1) 8 8), tHyst := fld (wd ws 1) 16 8
        warnDerate := fld (wd ws 1) 24 3, margin := fld (wd ws 2) 0 16 } }), ok)) s)

/-- FIRE_RESUME (R198, R201). -/
def execFireResume (slot : Fin 16) (s : State) : Host.Outcome State Fault Refusal :=
  .next (command 0x0502 0 slot
    (fun s _ => [(s.host.opState != .print && s.host.opState != .service, badState), (s.fire.heatHold && !coolEnough s, badState)])
    (fun _ _ s => done ({ s with fire := { s.fire with resumeHeat := s.fire.heatHold, resumeReq := s.fire.overHold } }, ok)) s)

/-- A FIRE_PROBE names a line that Garnet has begun, or an epoch that is over (R210). -/
def probeLate (epoch line : Word) (s : State) : Bool :=
  match namedLine epoch line s with
  | some L => anyBegan L s
  | none => decide (epoch < s.cg.epochNow)

/-- FIRE_PROBE (R210). -/
def execFireProbe (slot : Fin 16) (s : State) : Host.Outcome State Fault Refusal :=
  .next (command 0x0503 4 slot
    (fun s ws =>
      let w := wd ws 0
      let start := flag w 0
      let steps := fld w 4 4
      let stride := fld w 8 4
      let drops := fld w 12 5
      [reservedW ws 0 0x1FFF1,
       (start && decide (steps < 1 ∨ steps > 8 ∨ stride < 1 ∨ stride > 8 ∨ drops < 2 ∨ drops > 16), badParam 0), reservedW ws 3 0xFFFFF,
       (start && s.fire.probe.isSome, busy), (s.host.opState != .ready && s.host.opState != .print, badState),
       (start && decide (s.host.outst.length ≥ 16), noResource), (start && probeLate (wd ws 1) (wd ws 2) s, late)])
    (fun tag ws s =>
      let w := wd ws 0
      if flag w 0 then
        let pl : Probe := { tag := tag, no := s.fire.plans, steps := fld w 4 4, stride := fld w 8 4, drops := fld w 12 5, epoch := wd ws 1, startLine := wd ws 2
                            mods := BitVec.ofNat 16 (fld (wd ws 3) 0 16), rows := BitVec.ofNat 4 (fld (wd ws 3) 16 4) }
        (outstand 0x0503 tag 0 { s with fire := { s.fire with probe := some pl, plans := s.fire.plans + 1, probeVisit := 0 } }, some accepted)
      else
        ({ s with fire := { s.fire with probe := s.fire.probe.map fun p => { p with stopping := true } } }, some ok)) s)

/-- FIRE_MEASURE_R (R202, R211). -/
def execFireMeasureR (slot : Fin 16) (s : State) : Host.Outcome State Fault Refusal :=
  .next (command 0x0504 3 slot
    (fun s ws => [reservedW ws 0 0xFFFF, (wn ws 1 % 4096 != 0, badParam 1), (s.fire.meas.isSome, busy),
      (s.host.opState != .ready && s.host.opState != .service && s.host.opState != .print, badState),
      (s.twin.role != .solo && s.twin.role != .active, badState), (s.host.firing, badState), completionsFull s])
    (fun tag ws s =>
      let mods := s.fitted.filter fun m => (wd ws 0).getLsbD m
      (outstand 0x0504 tag 0 { s with fire := { s.fire with meas := some { tag := tag, mods := mods, addr := wn64 ws 1 } } }, some accepted)) s)

/-- FIRE_SPIT (R204, R212): the run's first image line is the next one that no slice has begun. -/
def execFireSpit (slot : Fin 16) (s : State) : Host.Outcome State Fault Refusal :=
  .next (command 0x0505 3 slot
    (fun s ws => [(fld (wd ws 0) 16 2 == 0, badParam 0), reservedW ws 0 0x3FFFF,
      (decide (wn ws 1 < 1000 ∨ wn ws 1 > 20000), badParam 1), reservedW ws 2 0xFFFF,
      (s.host.opState != .service || s.fire.spit.isSome, badState),
      ((firstMissing [2, 3, 4] s).isSome, safetyBlocked ((firstMissing [2, 3, 4] s).getD 0)), completionsFull s])
    (fun tag ws s =>
      let begun := maxOf (s.fitted.map fun m => (s.slice m).next + b2n (s.slice m).busy.isSome)
      let j : SpitJob := { tag := tag, lines := fld (wd ws 0) 0 16, drop := fld (wd ws 0) 16 2, rate := wn ws 1
                           mods := BitVec.ofNat 16 (wn ws 2), first := max begun (s.pos.absHigh + 17), tick := s.pos.mono }
      (outstand 0x0505 tag 0 { s with fire := { s.fire with spit := some j } }, some accepted)) s)

end Sys2Proof.Machine
end

