-- ==== Sys2Proof/Machine/TwinOps.lean ====
section
/-!
DEFINITION. Shared twin operations: take-over (R427, R428), displacement (R417), becoming unsynchronised (R426), digest comparison (R424), the
SOLO and ACTIVE change (R411), blanking before electrical idle (R429).
-/
namespace Sys2Proof.Machine

/-- A switchover fails (R431, R445): its completion at the ACTIVE role unit, and SWITCHOVER_FAILED. -/
def failSwitch (s : State) : State :=
  match s.twin.swLine with
  | none => s
  | some (_, _, tag) =>
    let s1 := stickRec .switchoverFailed { s with twin := { s.twin with swLine := none } }
    match tag with
    | some t => complete 0x0C02 t 0x12 0 0 0 s1
    | none => s1

/-- The peer is on Vigil as a synchronised STANDBY role unit. -/
def peerReady (s : State) : Bool := s.twin.peerPresent && s.twin.peerRole == 2 && s.twin.peerSynced

/-- Take-over (R428): a synchronised STANDBY role unit in PRINT with TAKEOVER_EN issues a claim and enters SOLO, or ACTIVE while its peer
reports STANDBY role. -/
def takeOver (cause : Nat) (s : State) : State :=
  if s.twin.role = .standby ∧ s.twin.synced ∧ s.host.opState = .print ∧ s.twin.takeoverEn then
    match issueClaim (failSwitch s) with
    | (none, s1) => s1
    | (some c, s1) =>
      let new : Role := if s1.twin.peerPresent && s1.twin.peerRole == 2 then .active else .solo
      let s2 := setRole new { s1 with twin := { s1.twin with takeovers := satAdd s1.twin.takeovers 1 } }
      stickEvent .takeover { ev := .takeover, p0 := w32 cause, p1 := fireLineNow s2, p2 := c, always := true } s2
  else s

/-- The causes of R427: a fitted lane reports the own serial accepted (1), or the present peer reports SAFE or LISTEN (2). -/
def takeoverCause (s : State) : Option Nat :=
  if s.fitted.any (fun m => (s.lane m).st == .active && (s.lane m).accValid && (s.lane m).accSerial == Config.serial) then some 1
  else if s.twin.peerPresent && (s.twin.peerOp == 4 || s.twin.peerRole == 3) then some 2
  else none

/-- Takes over where a cause holds (R427). -/
def checkTakeover (s : State) : State := match takeoverCause s with
  | some c => takeOver c s
  | none => s

/-- Displacement (R417): a fitted lane has reported a greater accepted pair in 4 status frames in a row. -/
def checkDisplaced (s : State) : State :=
  if (s.twin.role = .solo ∨ s.twin.role = .active) ∧ s.fitted.any (fun m => decide ((s.lane m).higherRun ≥ 4)) then
    enterListen (stickRec .displaced (failSwitch s))
  else s

/-- Two digests of a line are compared (R424). -/
def compareDigests (line own peer : Word) (s : State) : State :=
  let s1 := { s with twin := { s.twin with digestLine := line, digestOwn := own, digestPeer := peer } }
  if own = peer then s1 else
    let s2 := stickEvent .digestMismatch { ev := .digestMismatch, p0 := line, p1 := own, p2 := peer }
      { s1 with twin := { s1.twin with mismatches := satAdd s1.twin.mismatches 1, matchRun := 0 } }
    unsync 1 s2

/-- The own digest of a line, if the unit holds it (R424). -/
def ownDigest (epoch line : Word) (s : State) : Option Word :=
  (s.twin.digests.find? fun d => d.1 == epoch && d.2.1 == line).map (·.2.2)

/-- A line counts towards synchronisation when it lies at or beyond F_sync and its digests match (R440); a line that does not follow the one
compared before it begins a new run. -/
def countMatch (epoch line own peer prev : Word) (s : State) : State :=
  match s.twin.fSync with
  | some f =>
    if own = peer ∧ epoch = s.cg.epochNow ∧ f ≤ absOf line s then
      { s with twin := { s.twin with matchRun := if line = prev + 1 then s.twin.matchRun + 1 else 1 } }
    else s
  | none => s

/-- A peer's digest of a line arrives (R424): compared once if the unit holds the line, kept for later if it has not reached it. -/
def peerDigest (epoch line d : Word) (s : State) : State :=
  match ownDigest epoch line s with
  | some own =>
    if s.twin.digestLine = line ∧ s.twin.digestPeer = d ∧ s.twin.digestOwn = own then s
    else countMatch epoch line own d s.twin.digestLine (compareDigests line own d s)
  | none =>
    let newer := match s.twin.digests.head? with
      | some h => decide (h.1 < epoch) || (h.1 == epoch && decide (h.2.1 < line))
      | none => true
    if newer && !s.twin.peerDig.contains (epoch, line, d) then
      { s with twin := { s.twin with peerDig := (s.twin.peerDig ++ [(epoch, line, d)]).drop (s.twin.peerDig.length + 1 - 64) } }
    else s

/-- Peer digests that waited are compared once the own line is complete (R424). -/
def waitingDigests (s : State) : State :=
  let l := s.twin.peerDig
  l.foldl (fun s (e, n, d) => peerDigest e n d s) { s with twin := { s.twin with peerDig := [] } }

/-- SLICE_LINE_DONE (R137, R165, R176, R419): slice m finishes its line; the digests of the fire lines that are complete with it are formed, and
compared with those of the peer that wait. -/
def execSliceLineDone (mod : Fin 16) (s : State) : Host.Outcome State Fault Refusal :=
  .next (match (s.slice mod).busy with
    | none => s
    | some L => waitingDigests (formDigests (lineDone mod L s)))

/-- The claim a unit sends in its headers (R416): its own while it holds the bar, C - 1 in STANDBY role, 0 in LISTEN. -/
def claimStep (s : State) : State :=
  match s.twin.role with
  | .standby => { s with twin := { s.twin with claimOwn := s.twin.claimPeer - 1 } }
  | .listen => { s with twin := { s.twin with claimOwn := 0 } }
  | _ => s

/-- A claim seen on Vigil or on a lane (R415): CLAIM_HWM in PRF word 16 is the highest issued or seen. -/
def seeClaim (c : Word) (s : State) : State :=
  if s.twin.claimSeen < c then
    let s1 := if wd s.pers.prf 16 < c then prfStore 16 c s else s
    { s1 with twin := { s1.twin with claimSeen := c } }
  else s

/-- A unit that holds the bar, or is in STANDBY role, and releases PRSNT_N blanks its lanes (R241, R429). -/
def blankForIdle (s : State) : State := blankLanes 3 s

end Sys2Proof.Machine
end

