-- ==== Sys2Proof/Machine/Hlink.lean ====
section
/-!
DEFINITION. The Vozor Head Link (R214 to R250): lane training, capability records, latency, status frames, resends, blanking, table loads and
its commands.
-/
namespace Sys2Proof.Machine

/-! ## Lane states -/

/-- An ordered set of K28.5 with its TYPE and VALUE, sent over and over (R224, R225). -/
def alwaysSet (type value : Nat) : LaneItem :=
  match orderedSet .k28_5 type value with
  | .set k a b c => .always k a b c
  | x => x

/-- The lane transmits the training set or the idle of its state (R218). -/
def laneTx (m : Nat) (st : LaneState) : LaneItem :=
  match st with
  | .disabled => .elecIdle
  | .detect => .elecIdle
  | .poll => alwaysSet 1 0
  | .equalise => alwaysSet 1 0x80
  | .config => alwaysSet 2 m
  | .latency => alwaysSet 0 0
  | .active => alwaysSet 0 0
  | .recovery => alwaysSet 1 0
  | .held => alwaysSet 2 (m + 0x80)

/-- A lane enters a state: its counts and its timeout start again and the transmitter follows, but where it is held in electrical idle
(R429, R436, R464). -/
def enterLane (m : Nat) (st : LaneState) (s : State) : State :=
  emit (.lane m (if (s.lane m).idleHeld then .elecIdle else laneTx m st)) (setLane m (fun l => { l with st := st, tsCount := 0, enteredAt := s.pos.mono, detectAt := none, txq := [] }) s)

/-- The time since entry into the lane's state has reached a number of ns (R218). -/
def Lane.inStateFor (l : Lane) (ns : Nat) (s : State) : Bool := decide (l.enteredAt.toNat + ns ≤ s.pos.mono.toNat)

/-- A lane leaves ACTIVE (R219, R245): LANE_DOWN and event 0x0602 with the cause. -/
def laneDown (m : Nat) (cause : Word) (s : State) : State :=
  stickEvent .laneDown { ev := .laneDown, source := 0x10 + m, p0 := w32 m, p1 := cause } s

/-- What was known of the head goes as a lane begins anew (R218, R219). -/
def Lane.forget (l : Lane) : Lane :=
  { l with capOk := false, capNext := none, capHeld := none, ctleDone := false, statusSeq := none, accepted := false, accValid := false
           heldReason := 0, otherRun := 0, higherRun := 0 }

/-- A lane that leaves ACTIVE by command, configuration or power state reports a cause the spec does not state (R219, R245, log 3). -/
def leaveActive (m : Nat) (s : State) : State :=
  if (s.lane m).st ≠ .active then s else
    let (c, s0) := takeFree s
    laneDown m (w32 c) s0

/-- Entry into DETECT: what was known of the head's answers goes. -/
def toDetect (m : Nat) (s : State) : State := enterLane m .detect (setLane m Lane.forget (leaveActive m s))

/-- A lane is disabled (R218, R220, R248). -/
def toDisabled (m : Nat) (s : State) : State :=
  if (s.lane m).st = .disabled then setLane m (fun l => { l with enabled := false }) s
  else enterLane m .disabled (setLane m (fun l => { l.forget with enabled := false }) (leaveActive m s))

/-- Enabled lanes enter DETECT, and no transmitter is held idle any longer (R220, R529, R546). -/
def lanesToDetect (s : State) : State :=
  forAll (List.range 16) (fun m s =>
    let s1 := setLane m (fun l => { l with idleHeld := false }) s
    if (s.lane m).enabled then toDetect m s1 else s1) s

/-- The lanes go off with their power (R529, R535): lanes that were ACTIVE are down, and the transmitters stay in electrical idle. -/
def lanesOff (s : State) : State :=
  forAll (List.range 16) (fun m s => enterLane m .disabled (setLane m (fun l => { l.forget with idleHeld := true }) (leaveActive m s))) s

/-- RECEIVER_DETECT (R218): every 1 ms in DETECT, while the PIPE island runs; a load on the transmit pair and a signal on the receive pair move the lane to POLL, where the
settings given take effect, a fixed boost among them (R248). -/
def execReceiverDetect (lane : Fin 16) (load signal : Bool) (s : State) : Host.Outcome State Fault Refusal :=
  let l := s.lane lane
  let due := match l.detectAt with
    | some t => decide (t.toNat + 1000000 ≤ s.pos.mono.toNat)
    | none => true
  .next (if l.st ≠ .detect ∨ l.idleHeld ∨ ¬ s.twin.prsnt ∨ ¬ (cell s.pwr.islands 2 {}).on ∨ !due then s else
    let s1 := emit (.lane lane .detect) (setLane lane (fun l => { l with detectAt := some s.pos.mono }) s)
    if load ∧ signal then
      enterLane lane .poll (setLane lane (fun l => { l with
        swing := l.nextCfg.1, deemph := l.nextCfg.2.1, ctleFixed := l.nextCfg.2.2.1, ctleBoost := l.nextCfg.2.2.2
        ctle := if l.nextCfg.2.2.1 then l.nextCfg.2.2.2 else l.ctle }) s1)
    else s1)

/-- EQUALISE ends once the own CTLE has settled and 8 TS1 with bit 7 clear have come (R218). -/
def equaliseDone (m : Nat) (s : State) : State :=
  let l := s.lane m
  if l.st = .equalise ∧ l.ctleDone ∧ l.tsCount ≥ 8 then enterLane m .config s else s

/-- CONFIG ends once a record has passed and 8 TS2 have echoed the lane number (R218); LATENCY begins with no echo sent. -/
def configDone (m : Nat) (s : State) : State :=
  let l := s.lane m
  if l.st = .config ∧ l.capOk ∧ l.tsCount ≥ 8 then
    enterLane m .latency (setLane m (fun l => { l with echoSent := 0, echoSeen := 0, echoIds := 0, echoSum := 0 }) s)
  else s

/-- A store load begins on a lane (R188, R242): a new LOAD_ID, the bank that is not in use, and every block of the three kinds. Group 4 stands
for the objects in force after a boot. -/
def startLoad (g m : Nat) (s : State) : State :=
  let blocks := (List.range 4).map (fun b => (9, b)) ++ (List.range 204).map (fun b => (10, b)) ++ (List.range 16).map fun b => (11, b)
  setLane m (fun l => { l with
    loadId := (l.loadId + 1) % 65536, loadBank := !l.ebank, tblQueue := blocks, loadGroup := some g, loaded := false }) s

/-- A group's load of a lane begins, or waits for the store (R188). -/
def queueLoad (g m : Nat) (s : State) : State :=
  if (s.lane m).loadGroup.isNone then startLoad g m s
  else setLane m (fun l => { l with loadWait := l.loadWait ++ [g] }) s

/-- A group holds a FIRE kind for module m. -/
def hasFireKind (objs : List Obj) (m : Nat) : Bool := objs.any fun o => (o.kind == 9 || o.kind == 10 || o.kind == 11) && o.target == m

/-- The loads of a group that was armed (R188). -/
def startLoads (g : Nat) (s : State) : State :=
  forAll ((List.range 16).filter fun m => hasFireKind (s.cg.group g).objs m) (queueLoad g) s

/-- Every load of a group is acknowledged (R188). -/
def headsLoaded (g : Nat) (s : State) : Bool :=
  (List.range 16).all fun m => !hasFireKind (s.cg.group g).objs m || ((s.lane m).loadGroup == some g && (s.lane m).loaded)

/-- The loaded bank of lane m becomes the one in use (R242), and the next group that waits starts. -/
def switchBank1 (m : Nat) (s : State) : State :=
  let s1 := setLane m (fun l => { l with ebank := l.loadBank, loadGroup := none, loaded := false }) s
  match (s.lane m).loadWait with
  | [] => s1
  | w :: ws => startLoad w m (setLane m (fun l => { l with loadWait := ws }) s1)

/-- At the group's commit its heads have switched (R242). -/
def switchBanks (g : Nat) (s : State) : State :=
  forAll (List.range 16) (fun m s => if (s.lane m).loadGroup = some g then switchBank1 m s else s) s

/-- A lane reaches ACTIVE (R245): event 0x0601; the objects in force for its module are loaded where it has any (R188). DEDUCED: they are
loaded whenever the lane comes up from LATENCY (log 20). -/
def toActive (m : Nat) (fresh : Bool) (s : State) : State :=
  let s1 := enterLane m .active (setLane m (fun l => { l with upAt := s.pos.mono, resend := [] }) s)
  let s2 := event { ev := .laneUp, source := 0x10 + m, p0 := w32 m, p1 := w32 (capSerial (capOf m s)) } s1
  if fresh ∧ hasFireKind s2.cg.inForce m then queueLoad 4 m s2 else s2

/-- TRAINING_SET_RX (R218, R224): an ordered set of K28.5 with its D1, D2 and check byte. TYPE 0x01 and 0x02 are TS1 and TS2; a set whose check
byte is wrong is discarded, and a lane held in electrical idle does not train (R429, R436). DEDUCED: in POLL any set but a valid TS1 or TS2 ends the row
of consecutive ones (log 20). -/
def execTrainingSetRx (lane : Fin 16) (data : Byte × Byte) (check : Byte) (s : State) : Host.Outcome State Fault Refusal :=
  let l := s.lane lane
  let (type, value) := data
  let good := setGood type value check
  let ts2 := type == 2
  let counted := setLane lane (fun l => { l with tsCount := l.tsCount + 1 }) s
  .next (if l.idleHeld then s
  else if !good ∨ (type ≠ 1 ∧ type ≠ 2) then (if l.st = .poll then setLane lane (fun l => { l with tsCount := 0 }) s else s)
  else match l.st with
    | .poll => if l.tsCount + 1 ≥ 8 then
        enterLane lane .equalise (setLane lane (fun l => { l with passedPoll := true, ctleDone := l.ctleFixed }) s)
      else counted
    | .equalise => if !ts2 && !value.getLsbD 7 then equaliseDone lane counted else s
    | .config => if ts2 && !value.getLsbD 7 && value.toNat % 16 == lane then configDone lane counted else s
    | .recovery => if ts2 then s else if l.tsCount + 1 ≥ 8 then toActive lane false s else counted
    | _ => s)

/-- Horizontal times vertical opening of an eye, in the fields of HL_EYE (R217, R244). -/
def eyeArea (e : BitVec 16) : Nat := e.toNat % 256 * (e.toNat / 256)

/-- Eyes as HL_EYE holds them (R244): horizontal opening in [7:0], vertical opening in [15:8]. -/
def eyesOf (width height : List Byte) : List (BitVec 16) := (List.range 16).map fun i => cell height i 0 ++ cell width i 0

/-- The best of 16 boosts (R217): the largest product of the two openings, on a tie the lower boost. -/
def bestBoost (eyes : List (BitVec 16)) : Nat :=
  (List.range 16).foldl (fun b i => if eyeArea (cell eyes b 0) < eyeArea (cell eyes i 0) then i else b) 0

/-- CTLE_SETTLED (R217, R218): the horizontal and vertical eye openings that the 16 trials of 64 µs have measured, boost 0 first. -/
def execCtleSettled (lane : Fin 16) (width height : List Byte) (s : State) : Host.Outcome State Fault Refusal :=
  let l := s.lane lane
  let eyes := eyesOf width height
  let b := bestBoost eyes
  .next (if l.st ≠ .equalise ∨ l.ctleFixed ∨ l.ctleDone ∨ ¬ l.inStateFor 1024000 s then s
    else equaliseDone lane (setLane lane (fun l => { l with ctle := b, ctleDone := true, eye := cell eyes b 0 }) s))

/-- Timeout of a state in ns (R218); none for states without one. -/
def LaneState.timeout : LaneState → Option Nat
  | .poll => some 12000000
  | .equalise => some 2000000
  | .config => some 8000000
  | .latency => some 1000000
  | .recovery => some 1000000
  | _ => none

/-- LANE_STATE_TIMEOUT (R218): the timeout of the state has passed since entry into it. -/
def execLaneStateTimeout (lane : Fin 16) (s : State) : Host.Outcome State Fault Refusal :=
  let l := s.lane lane
  .next (match l.st.timeout with
    | some ns => if l.inStateFor ns s then toDetect lane s else s
    | none => s)

/-! ## Capability records -/

/-- The first check of R222 that a record fails. `held` is the record held, for RECOVERY. -/
def capReason (lane : Nat) (ws : List Word) (held : Option (List Word)) : Option Nat :=
  firstCode [
    (wd ws 15 != w32 (crc32c (wordBytes (ws.take 15))) || fld (wd ws 0) 0 16 != 1, 1),
    (fld (wd ws 0) 16 4 != lane, 2),
    (decide (capRows ws < 1 ∨ capRows ws > 4 ∨ capFHead ws < 1000 ∨ capFHead ws > 64000 ∨ capHeaters ws < 408 ∨ capHeaters ws > 3264), 3),
    (decide (capRefill ws > 100000000000 / (103 * capFHead ws)), 4),
    (decide (capFixed ws > 640 ∨ capMaxMain ws > 640 ∨ capPhMax ws > 48), 5),
    (match held with
      | some h => h != ws
      | none => false, 6)]

/-- A record fails R222: HELD, CAP_REJECT, event 0x0604. -/
def rejectCap (m reason : Nat) (s : State) : State :=
  stickEvent .capReject { ev := .capReject, source := 0x10 + m, p0 := w32 m, p1 := w32 reason }
    (enterLane m .held (setLane m (fun l => { l with heldReason := reason, capOk := false, capNext := none }) s))

/-- CAP_BLOCK_RX (R222): the 16 words of a record, kept as the last one received in every state in which the lane has symbol lock (R218, R250). In
CONFIG one that passes is held for the last check, that of the latency. -/
def execCapBlockRx (lane : Fin 16) (words : List Word) (s : State) : Host.Outcome State Fault Refusal :=
  let l := s.lane lane
  let ws := words.take 16
  let s1 := setLane lane (fun l => { l with cap := some ws }) s
  .next (match l.st with
    | .config =>
      match capReason lane ws none with
      | some r => rejectCap lane r s1
      | none => configDone lane (setLane lane (fun l => { l with capOk := true, capNext := some ws }) s1)
    | .recovery =>
      match capReason lane ws l.capHeld with
      | some r => rejectCap lane r s1
      | none => s1
    | .disabled => s
    | .detect => s
    | .poll => s
    | _ => s1)

/-- ECHO_SEND (R223): the first as LATENCY begins, then every 4 µs. -/
def execEchoSend (lane : Fin 16) (s : State) : Host.Outcome State Fault Refusal :=
  let l := s.lane lane
  let due := l.echoSent = 0 ∨ l.echoAt.toNat + 4000 ≤ s.pos.mono.toNat
  .next (if l.st ≠ .latency ∨ l.idleHeld ∨ l.echoSent ≥ 16 ∨ ¬ due then s
    else emit (.lane lane (orderedSet .k28_5 4 l.echoSent))
      (setLane lane (fun l => { l with echoSent := l.echoSent + 1, echoAt := s.pos.mono }) s))

/-- LAT in 312.5 ps steps (R223). DEDUCED: halves up, and never below 0 (log 20). -/
def latOf (sum turn : Nat) : Nat := (roundHalfUp ((sum : Int) - 16 * turn) 32).toNat

/-- ECHO_RETURN_RX (R223, R224): an ECHO return with its identifier and check byte, and its round trip in 312.5 ps steps; the 16th sets LAT, and
the record is accepted and the lane goes ACTIVE unless LAT exceeds 100 ns (R222). An identifier counts once. -/
def execEchoReturnRx (lane : Fin 16) (echo : EchoBack) (s : State) : Host.Outcome State Fault Refusal :=
  let l := s.lane lane
  let n := echo.id.toNat
  .next (if !setGood 5 echo.id echo.check ∨ l.st ≠ .latency ∨ l.echoSent ≤ n ∨ l.echoIds.getLsbD n then s else
    let s1 := setLane lane (fun l => { l with
      echoIds := l.echoIds ||| (1#16 <<< n), echoSeen := l.echoSeen + 1, echoSum := l.echoSum + echo.trip }) s
    if l.echoSeen + 1 < 16 then s1 else
      let lat := latOf (l.echoSum + echo.trip) (fld (wd (l.capNext.getD []) 7) 16 16)
      let s2 := setLane lane (fun l => { l with lat := lat }) s1
      if lat > 320 then rejectCap lane 7 s2
      else toActive lane true (setLane lane (fun l => { l with capHeld := l.capNext, capNext := none }) s2))

/-! ## Leaving ACTIVE -/

/-- An ACTIVE lane enters RECOVERY (R219). -/
def toRecovery (m cause : Nat) (s : State) : State :=
  laneDown m (w32 cause) (enterLane m .recovery (setLane m (fun l => { l with recoveries := satAdd l.recoveries 1, resend := [] }) s))

/-- LANE_RECOVERY (R219, R244): `errors` invalid symbols and disparity errors have come among the last 256 symbols, or there have been no
transitions for 100 ns. Every error counts; 4 or more, or the loss of signal, end ACTIVE. -/
def execLaneRecovery (lane : Fin 16) (lossOfSignal : Bool) (errors : Fin 257) (s : State) : Host.Outcome State Fault Refusal :=
  let s1 := setLane lane (fun l => { l with codeErrors := satAdd l.codeErrors errors }) s
  .next (if (s.lane lane).st = .active ∧ (lossOfSignal ∨ 4 ≤ (errors : Nat)) then toRecovery lane (if lossOfSignal then 2 else 1) s1 else s1)

/-- STATUS_FRAME_TIMEOUT (R219): no valid status frame for 8 µs of ACTIVE. -/
def execStatusFrameTimeout (lane : Fin 16) (s : State) : Host.Outcome State Fault Refusal :=
  let l := s.lane lane
  .next (if l.st = .active ∧ max l.statusTime.toNat l.upAt.toNat + 8000 ≤ s.pos.mono.toNat then toRecovery lane 3 s else s)

/-! ## Status frames -/

/-- Zone readings of a valid status frame, in zone order (R234). -/
def statusTemps (ws : List Word) : List Nat := (List.range 8).map fun z => fld (wd ws (6 + z / 4)) (8 * (z % 4)) 8

/-- Zone readings go to the generator and to Onyx (R234, R461 code 4). -/
def takeTemps (m : Nat) (ws : List Word) (s : State) : State :=
  let ts := statusTemps ws
  let s1 := ts.zipIdx.foldl (fun s (v, z) => zoneReading m z v s) s
  let limit := onyxTLimit (lowestTMax s1)
  if m ≥ s1.cg.modules ∨ limit = 0 then s1 else
    match ts.zipIdx.find? fun x => decide (limit ≤ x.1) with
    | some (v, z) => latchTrip 4 (w32 (m + 16 * z + 256 * v)) (activeNow 4 s1)
    | none => s1

/-- A pair (CLAIM, SERIAL) is greater than another, CLAIM first (R240). -/
def pairLt (a b : Word × Dword) : Bool := decide (a.1 < b.1) || (a.1 == b.1 && decide (a.2 < b.2))

/-- The accepted claim a status frame reports (R234, R240, R415): the fourth frame in a row with another one is reported, once a row. -/
def takeClaim (m : Nat) (ws : List Word) (s : State) : State :=
  let claim := wd ws 1
  let serial : Dword := BitVec.ofNat 64 (wn64 ws 2)
  let valid := flag (wd ws 4) 1
  let holds := s.twin.role = .solo ∨ s.twin.role = .active
  let own := (s.twin.claimOwn, Config.serial)
  let mine := valid && serial == Config.serial
  let other := valid && (claim, serial) != own
  let higher := valid && pairLt own (claim, serial)
  let s1 := setLane m (fun l => { l with
    accClaim := claim, accSerial := serial, accPort := flag (wd ws 4) 0, accValid := valid, accepted := mine
    otherRun := if holds ∧ other then min 5 (l.otherRun + 1) else 0, higherRun := if higher then min 8 (l.higherRun + 1) else 0 }) s
  let s2 := if valid then seeClaim claim s1 else s1
  if holds ∧ (s2.lane m).otherRun = 4 then
    stickEvent .claimNotAccepted { ev := .claimNotAccepted, source := 0x10 + m, p0 := w32 m } s2
  else s2

/-- The fire line of a SEQ among those whose frames were sent lately (R230). -/
def fireOfSeq (m seq : Nat) (s : State) : Option Nat :=
  (s.fire.hdr.find? fun h => h.1.2 == m && (lineIn h.1.1 s).2 % 65536 == seq).map (·.1.1)

/-- Bits set in a mask of 17. -/
def maskBits (x : Nat) : List Nat := (List.range 17).filter fun i => x.testBit i

/-- Symbols of a resent part: its SOR, and the part with its check (R238). -/
def resendSymbols (part : Nat) : Nat := if part = 0 then 48 else 110

/-- Whole symbols in the predicted duration of a line, T_s less 2 % (R236). -/
def lineSymbols (s : State) : Nat := match rawTs s with
  | some t => t * 98 * 10 / (100 * 256 * 64)
  | none => 2 ^ 32

/-- The parts of frame F fit in line F - 1 with frame F + 1 and the markers of that line (R236, R238). -/
def resendFits (parts : List Nat) (used : Nat) (s : State) : Bool :=
  decide ((parts.map resendSymbols).sum + used + 1748 + 64 * s.cg.rows ≤ lineSymbols s)

/-- Resends the failed parts of frame F, or counts the frame as overflow, once (R236). `used` is what resends have taken of the line
already. -/
def resendParts (m F : Nat) (parts : List Nat) (used : Nat) (s : State) : State :=
  if parts.isEmpty ∨ (s.lane m).overLine = some F then s
  else if resendFits parts used s then
    let seq := (lineIn F s).2 % 16
    let all := frameParts F m (zonesSent F m s) s
    queueTx m (parts.map fun p => resendItem seq p (cell all p []))
      (setLane m (fun l => { l with partsResent := satAdd l.partsResent parts.length }) s)
  else stickRec (source := 0x10 + m) .resendOverflow (setLane m (fun l => { l with resendOver := satAdd l.resendOver 1, overLine := some F }) s)

/-- What has been reported failed in a frame so far. -/
def nackMask (m : Nat) (key : Option Nat × Nat) (s : State) : Nat :=
  (((s.lane m).nackSeen.filter fun x => x.1 == key).map fun x => x.2.toNat).foldl Nat.lor 0

/-- A module-line that its head has printed blank (R237): counted once, with the sticky bit and the event, and every page with a drop in it spoiled. -/
def noteBlanked (m F : Nat) (s : State) : State :=
  if (s.lane m).blankSeen.contains F then s else
    let (_, n) := lineIn F s
    let s1 := setLane m (fun l => { l with blankSeen := (F :: l.blankSeen).take 8, linesBlanked := satAdd l.linesBlanked 1 }) s
    spoilDrops (dropsOf F m s) (stickEvent .lineBlanked
      { ev := .lineBlanked, source := 0x10 + m, p0 := w32 m, p1 := w32 n, p2 := w32 (nackMask m (some F, n % 65536) s) } s1)

/-- One check report (R235, R236): what is new in it is counted; parts of a frame whose line is not yet latched are resent in the line before
it. A frame reported missing is not resent; its SOF would have latched the frame two lines before it, which has printed blank (R237, R239). -/
def takeNack (m : Nat) (w0 mask : Word) (s : State) : State :=
  if !flag w0 16 then s else
    let seq := fld w0 0 16
    let bitsNow := fld mask 0 17
    let line := fireOfSeq m seq s
    let fresh := (maskBits bitsNow).filter fun i => !(nackMask m (line, seq) s).testBit i
    if fresh.isEmpty then s else
      let s1 := stickRec (source := 0x10 + m) .partFailed (setLane m (fun l => { l with
        partsFailed := satAdd l.partsFailed fresh.length
        nackSeen := (((line, seq), BitVec.ofNat 17 bitsNow) :: l.nackSeen).take 8 }) s)
      match line, flag w0 17 with
      | some F, false =>
        if F = s1.pos.absHigh + 2 then setLane m (fun l => { l with resend := l.resend ++ fresh.map fun p => (F, p) }) s1
        else if F = s1.pos.absHigh + 1 ∧ sendsFrames s1 then
          let used := (((s1.lane m).resend.filter fun r => r.1 == F).map fun r => resendSymbols r.2).sum
          setLane m (fun l => { l with resend := l.resend ++ fresh.map fun p => (F, p) }) (resendParts m F fresh used s1)
        else s1
      | some F, true => if 2 ≤ F then noteBlanked m (F - 2) s1 else s1
      | none, _ => s1

/-- The resends of frame B + 1 at the boundary of line B (R236): parts of frame B that still wait are not resent any more. -/
def resendStep (B m : Nat) (s : State) : State :=
  let l := s.lane m
  let parts := (l.resend.filter fun r => r.1 == B + 1).map (·.2)
  let s1 := setLane m (fun l => { l with
    resend := l.resend.filter fun r => decide (B < r.1), txq := l.txq.filter fun x => x.1 != 3 }) s
  if sendsFrames s1 && l.st == .active then resendParts m (B + 1) parts 0 s1 else s1

/-- A line that its head reports blanked as it latched (R237). -/
def takeLatch (m : Nat) (w5 : Word) (s : State) : State :=
  if !flag w5 16 then s else
    match fireOfSeq m (fld w5 0 16) s with
    | none => s
    | some F => noteBlanked m F s

/-- Suspect fire lines of a report on lane m (R233): those with a marker sent from t_p - 3.2 µs to t_r. The receive instants are those of a
frame's last symbol, 202 ns after its first. -/
def suspects (m : Nat) (prev : Nat) (s : State) : List Nat :=
  let l := s.lane m
  let back : Int := stepsUp 202 + l.lat
  let tp := steps prev - back - 10240
  let tr := nowSteps s - back
  ((l.sentMarks.filter fun x => decide (tp ≤ x.1 ∧ x.1 ≤ tr)).map (·.2)).dedup

/-- FAULTS of a status frame (R232 to R234, R245, R461 code 6). `prev` is the instant of the previous valid frame. -/
def takeFaults (m prev : Nat) (w : Word) (s : State) : State :=
  let old := (s.lane m).faults
  let onset := (flag old 0 && !flag w 0) || (!flag old 1 && flag w 1) || (!flag old 2 && flag w 2)
  let s1 := setLane m (fun l => { l with faults := w }) s
  let s2 := if onset then
      stickEvent .headFault { ev := .headFault, source := 0x10 + m, p0 := w32 m, p1 := w } s1
    else s1
  let s3 := if flag w 3 || flag w 4 then
      spoil (pagesIn ((suspects m prev s).flatMap fun F => dropsOf F m s)) (stickRec (source := 0x10 + m) .markerErr s2)
    else s2
  let s4 := if flag w 5 then stickRec (source := 0x10 + m) .lateMain s3 else s3
  if m < s.cg.modules ∧ (flag w 1 ∨ flag w 2) then latchTrip 6 (w32 (m + 65536 * fld w 0 16)) (activeNow 6 s4) else s4

/-- Table load reports (R242): the acknowledgement of the load in progress, and a failed block, which is sent again. The objects in force are in
use on the lane as soon as it has acknowledged them (R188). -/
def takeTable (m : Nat) (w13 w14 : Word) (s : State) : State :=
  let l := s.lane m
  let s1 := if flag w14 16 then
      stickRec (source := 0x10 + m) .tblRetry (setLane m (fun l => { l with tblQueue := l.tblQueue ++ [(fld w14 0 8, fld w14 8 8)] }) s)
    else s
  if l.loadGroup.isSome ∧ fld w13 0 16 = l.loadId ∧ flag w13 16 = l.loadBank ∧ fld w13 17 3 = 7 then
    if l.loadGroup = some 4 then switchBank1 m s1
    else setLane m (fun l => { l with loaded := true }) s1
  else s1

/-- Heater readings (R202, R234). -/
def takeMeas (m : Nat) (ws : List Word) (s : State) : State :=
  if !flag (wd ws 15) 16 then s
  else takeReadings m (fld (wd ws 15) 0 16) ((List.range 16).map fun i => fld (wd ws (16 + i / 2)) (16 * (i % 2)) 16) s

/-- The CRC-32C of a frame's words (R131, R234, R418). -/
def frameCrc (words : List Word) : Word := w32 (crc32c (wordBytes words))

/-- STATUS_FRAME_RX (R234): the 24 words of a frame and the CRC-32C received with them. -/
def execStatusFrameRx (lane : Fin 16) (words : List Word) (crc : Word) (s : State) : Host.Outcome State Fault Refusal :=
  let l := s.lane lane
  .next (if l.st ≠ .active then s
  else if crc ≠ frameCrc words ∨ fld (wd words 0) 0 4 ≠ lane then
    stickRec (source := 0x10 + lane) .statusBad (setLane lane (fun l => { l with statusBad := satAdd l.statusBad 1 }) s)
  else
    let prev := l.statusTime.toNat
    let s1 := setLane lane (fun l => { l with statusSeq := some (fld (wd words 0) 8 8), statusTime := s.pos.mono }) s
    let s2 := takeClaim lane words (takeTemps lane words s1)
    let s3 := takeNack lane (wd words 11) (wd words 12) (takeNack lane (wd words 9) (wd words 10) s2)
    let s4 := takeFaults lane prev (wd words 8) (takeLatch lane (wd words 5) s3)
    let s5 := takeMeas lane words (takeTable lane (wd words 13) (wd words 14) s4)
    checkTakeover (checkDisplaced s5))

/-! ## Blanking -/

/-- BLANK_REPEAT (R241, R429): 1 µs after a BLANK it is sent again; 2 µs after the first the transmitter goes into electrical idle and stays
there. -/
def execBlankRepeat (lane : Fin 16) (s : State) : Host.Outcome State Fault Refusal :=
  let l := s.lane lane
  .next (if !l.blanking ∨ s.pos.mono.toNat < l.blankAt.toNat + 1000 then s
  else if l.blankRuns ≥ 1 then
    emit (.lane lane .elecIdle) (setLane lane (fun l => { l with blanking := false, blankRuns := 0, idleHeld := true }) s)
  else
    emit (.lane lane (blankSet (if s.onyx.tripped then 1 else 3)))
      (setLane lane (fun l => { l with blankRuns := l.blankRuns + 1, blankAt := s.pos.mono }) s))

/-- Lanes held in electrical idle are released and train again from DETECT (R429, R436). -/
def releaseIdle (s : State) : State :=
  forAll (List.range 16) (fun m s =>
    let l := s.lane m
    if l.idleHeld ∨ l.blanking then
      let s1 := setLane m (fun l => { l with idleHeld := false, blanking := false, blankRuns := 0 }) s
      if l.st = .disabled ∨ l.st = .held then s1 else toDetect m s1
    else s) s

/-! ## Table loads -/

/-- The 64 data bytes of a block (R242): from the group that is loaded, or from what is in force where it does not change the kind. -/
def tableData (g kind m block : Nat) (s : State) : List Byte :=
  let objs := if g < 4 then mergeObjs (s.cg.group g).objs s.cg.inForce else s.cg.inForce
  match objOf objs kind m with
  | some b => ((b.drop (64 * block)) ++ zeros 64).take 64
  | none => zeros 64

/-- TBL_BLOCK_TX (R225, R242): the next block of the load, where the lane is ACTIVE and nothing of a higher priority waits or is being sent. -/
def execTblBlockTx (lane : Fin 16) (s : State) : Host.Outcome State Fault Refusal :=
  let s0 := match (s.lane lane).loadGroup, (s.lane lane).loadWait with
    | none, w :: ws => startLoad w lane (setLane lane (fun l => { l with loadWait := ws }) s)
    | _, _ => s
  let l := s0.lane lane
  .next (match l.tblQueue, l.loadGroup with
    | (kind, block) :: rest, some g =>
      if l.st ≠ .active ∨ l.idleHeld ∨ ¬ l.txq.isEmpty ∨ s0.pos.mono.toNat < l.txFree then s0 else
        let body := wordBytes [w32 (kind + 256 * b2n l.loadBank + 65536 * block), w32 l.loadId] ++ tableData g kind lane block s0
        emit (.lane lane (.table (body ++ bytesLE 4 (crc32c (bytesLE 1 lane ++ body)))))
          (setLane lane (fun l => { l with tblQueue := rest, txFree := s0.pos.mono.toNat + 154 }) s0)
    | _, _ => s0)

/-- The head link at boundary B (R236): resends join their queues, and the transmitters go on. -/
def hlinkBoundary (B : Nat) (s : State) : State := drainLanes (forAll s.fitted (resendStep B) (drainLanes s))

/-! ## Commands -/

/-- Code of a lane state (R218). -/
def LaneState.code : LaneState → Nat
  | .disabled => 0 | .detect => 1 | .poll => 2 | .equalise => 3 | .config => 4 | .latency => 5 | .active => 6 | .recovery => 7 | .held => 8

/-- The registers at 0x00 to 0x2C of a lane (R244). -/
def laneView (l : Lane) : List Word :=
  [w32 (l.st.code + 16 * l.ctle + 256 * b2n l.accepted + 512 * b2n l.blanking + 65536 * l.heldReason), w32 l.lat, l.frames, l.partsFailed,
   l.partsResent, l.linesBlanked, l.resendOver, l.codeErrors, l.recoveries, l.statusBad, l.faults, w32 l.eye.toNat]

/-- HL_GET_STATUS (R247). -/
def execHlGetStatus (slot : Fin 16) (s : State) : Host.Outcome State Fault Refusal :=
  .next (command 0x0600 1 slot (fun s ws => [reservedW ws 0 0x10F, notBoot s])
    (fun _ ws s =>
      let m := fld (wd ws 0) 0 4
      let s1 := if flag (wd ws 0) 8 then setLane m (fun l => { l with
          frames := 0, partsFailed := 0, partsResent := 0, linesBlanked := 0, resendOver := 0, codeErrors := 0, recoveries := 0
          statusBad := 0 }) s else s
      done (s1, okWith (laneView (s.lane m)))) s)

/-- HL_LANE_CONFIG (R248). -/
def execHlLaneConfig (slot : Fin 16) (s : State) : Host.Outcome State Fault Refusal :=
  .next (command 0x0601 2 slot
    (fun s ws =>
      let beyond := flag (wd ws 0) 16 && s.cg.modules != 0 && decide (fld (wd ws 0) 0 16 ≥ 2 ^ s.cg.modules)
      [(beyond, badParam 0), reservedW ws 0 0x1FFFF,
       (decide (fld (wd ws 1) 0 3 > 6 ∨ fld (wd ws 1) 3 2 = 3), badParam 1), reservedW ws 1 0x3FF,
       (s.host.firing, badState)])
    (fun _ ws s =>
      let w := wd ws 1
      let cfg := (fld w 0 3, fld w 3 2, flag w 5, fld w 6 4)
      let lanes := (List.range 16).filter fun m => flag (wd ws 0) m
      done (forAll lanes (fun m s =>
        let s1 := setLane m (fun l => { l with nextCfg := cfg }) s
        if flag (wd ws 0) 16 then
          if (s.lane m).st = .disabled then enterLane m .detect (setLane m (fun l => { l with enabled := true }) s1) else s1
        else toDisabled m s1) s, ok)) s)

/-- HL_RETRAIN (R249). -/
def execHlRetrain (slot : Fin 16) (s : State) : Host.Outcome State Fault Refusal :=
  .next (command 0x0602 1 slot (fun s ws => [reservedW ws 0 0xFFFF, (s.host.firing, badState)])
    (fun _ ws s => done (forAll ((List.range 16).filter fun m => flag (wd ws 0) m && (s.lane m).enabled) toDetect s, ok)) s)

/-- HL_GET_CAPS (R250). -/
def execHlGetCaps (slot : Fin 16) (s : State) : Host.Outcome State Fault Refusal :=
  .next (command 0x0603 1 slot
    (fun s ws => [reservedW ws 0 0xF, notBoot s, (!(s.lane (fld (wd ws 0) 0 4)).passedPoll, badState)])
    (fun _ ws s =>
      let l := s.lane (fld (wd ws 0) 0 4)
      done (s, okWith ((List.range 16).map (fun i => wd (l.cap.getD []) i) ++ [w32 l.st.code]))) s)

end Sys2Proof.Machine
end

