-- ==== Sys2Proof/Machine/Lamp.lean ====
section
/-!
DEFINITION. Inspection illumination (R390 to R410): shares and frames, strobes, swaps, derating, diagnostics, legacy mode.
-/
namespace Sys2Proof.Machine

/-! ## The ILLUM_LEVELS object (R396, R397) -/

/-- A header word. -/
def lvWord (b : List Byte) (i : Nat) : Word := objWord b i
/-- ENABLE. -/
def lvEnable (b : List Byte) : Bool := flag (lvWord b 0) 0
/-- MODE is legacy. -/
def lvLegacy (b : List Byte) : Bool := flag (lvWord b 0) 1
/-- DRIVERS. -/
def lvDrivers (b : List Byte) : Nat := fld (lvWord b 0) 2 6
/-- CAMERA. -/
def lvCamera (b : List Byte) : Nat := fld (lvWord b 0) 8 2
/-- ON_TIME, 10 ns. -/
def lvOnTime (b : List Byte) : Nat := fld (lvWord b 1) 0 16
/-- LEAD, 10 ns. -/
def lvLead (b : List Byte) : Nat := fld (lvWord b 1) 16 16
/-- EXP_START, 10 ns. -/
def lvExpStart (b : List Byte) : Nat := fld (lvWord b 2) 0 16
/-- EXP_END, 10 ns. -/
def lvExpEnd (b : List Byte) : Nat := fld (lvWord b 2) 16 16
/-- KNEE. -/
def lvKnee (b : List Byte) : Nat := fld (lvWord b 3) 0 8
/-- SLOPE. -/
def lvSlope (b : List Byte) : Nat := fld (lvWord b 3) 8 8
/-- FLOOR. -/
def lvFloor (b : List Byte) : Nat := fld (lvWord b 3) 16 8
/-- T_OFF. -/
def lvTOff (b : List Byte) : Nat := fld (lvWord b 3) 24 8
/-- DIAG_LOG2. -/
def lvDiagLog2 (b : List Byte) : Nat := fld (lvWord b 4) 0 4
/-- LEGACY_BITS. -/
def lvLegacyBits (b : List Byte) : Nat := fld (lvWord b 5) 0 9

/-- T_CHAIN in ns (R398, R404). -/
def tChain (b : List Byte) : Nat := if lvLegacy b then 0 else 1000 + 40 * (lvDrivers b - 1)

/-! ## Frames (R392, R393) -/

/-- Share d: what it loads, if anything; the on-time and skew; OFF and DERATE. -/
def shareOf (d drivers onTime derate : Nat) (off : Bool) (load : Option (List Byte)) : List Byte :=
  let b0 := b2n load.isSome + 2 * b2n off
  let e := match load with
    | some b => (b.drop (64 + 32 * d)).take 18
    | none => zeros 18
  let body := bytesLE 1 b0 ++ e.take 1 ++ bytesLE 2 onTime ++ bytesLE 1 (4 * (drivers - 1 - d)) ++ bytesLE 1 derate ++ (e.drop 2).take 16
  body ++ bytesLE 2 (crc16 (bytesLE 1 d ++ body))

/-- A frame on the wire (R391): RESET, then its bytes MSB first, a 1 high for 300 ns and a 0 for 100 ns of 400 ns. -/
def lanternPulses (bytes : List Byte) : List (Nat × Nat) :=
  (0, 20000) :: bytes.flatMap fun b => (List.range 8).map fun i => if b.getLsbD (7 - i) then (300, 100) else (100, 300)

/-- Chain k. -/
def State.chain (s : State) (k : Nat) : Chain := cell s.lamp.chains k {}

/-- Changes chain k. -/
def setChain (k : Nat) (f : Chain → Chain) (s : State) : State := { s with lamp := { s.lamp with chains := upd s.lamp.chains k f } }

/-- The chip expects a chain of n drivers to answer within 2 frame times (R403). DEDUCED: a frame time is that of its 2 + 24 n bytes, 400 ns a bit
(R391, log 21). -/
def awaitReturn (k n : Nat) (s : State) : State :=
  setChain k (fun c => { c with frameH := n, returnBy := c.returnBy ++ [(n, s.pos.mono.toNat + 2 * (3200 * (2 + 24 * n)))] }) s

/-- A configuration frame of chain k (R392): H = DRIVERS, S = 0, one share for each driver. Drivers stay dark in SAFE and while the chain is
not in use (R405). -/
def lampFrame (k : Nat) (load : Option (List Byte)) (s : State) : State :=
  let c := s.chain k
  let levels := if c.levels.isEmpty then load.getD [] else c.levels
  let n := lvDrivers (load.getD levels)
  let dark := s.host.opState == .safe || (!c.inUse && load.isNone)
  let shares := (List.range n).flatMap fun d =>
    let v := cell c.drvs d {}
    shareOf d n (lvOnTime levels) v.derate (dark || v.off) load
  emit (.lamp k (.frame (lanternPulses (bytesLE 1 n ++ bytesLE 1 0 ++ shares)))) (awaitReturn k n s)

/-- The zeros of a legacy board. -/
def legacyZeros (b : List Byte) : List Byte := zeros ((lvLegacyBits b + 7) / 8)

/-- The ON pattern of a legacy board: LEGACY_BITS channels, no more (R397, R404). -/
def legacyPattern (b : List Byte) : List Byte :=
  ((b.drop 64).take ((lvLegacyBits b + 7) / 8)).zipIdx.map fun (x, i) =>
    if 8 * (i + 1) ≤ lvLegacyBits b then x else BitVec.ofNat 8 (x.toNat % 2 ^ (lvLegacyBits b % 8))

/-- Legacy lights not yet lit are given up; one already lit runs to its end, and without one zeros are latched at once (R404, R405). -/
def legacyOff (k : Nat) (s : State) : State :=
  let now : Int := s.pos.mono.toNat
  let c := s.chain k
  let left := c.legacyLights.filter fun l => decide (l.1 ≤ now)
  let ahead := c.legacyLights.length - left.length
  let s1 := setChain k (fun c => { c with
    legacyLights := left, lightOn := !left.isEmpty, strobes := c.strobes - w32 ahead, lit := c.lit.filter fun l => decide (l.1 ≤ now) }) s
  let s2 := if ahead = 0 then s1 else emit (.lamp k (.withdraw now)) s1
  if !left.isEmpty then s2 else emit (.lamp k (.latch now (legacyZeros c.levels))) (setChain k (fun c => { c with pattern := [] }) s2)

/-- The chip sends OFF to every driver, or latches zeros in legacy mode; a strobe already lit runs to its end (R404, R405). -/
def lampOff (k : Nat) (s : State) : State :=
  let c := s.chain k
  if c.levels.isEmpty then s
  else if c.legacy then legacyOff k s
  else
    let n := lvDrivers c.levels
    emit (.lamp k (.frame (lanternPulses (bytesLE 1 n ++ bytesLE 1 0 ++ (List.range n).flatMap fun d =>
      shareOf d n (lvOnTime c.levels) (cell c.drvs d {}).derate true none)))) (awaitReturn k n s)

/-! ## Levels (R400) -/

/-- The levels of an ARMED group are sent with LOAD (R400); legacy mode has no pending store (R404). -/
def lampLoads (g : Nat) (s : State) : State :=
  forAll [0, 1] (fun k s => match objOf (s.cg.group g).objs 13 k with
    | some b => if lvLegacy b then s
      else lampFrame k (some b) (setChain k (fun c => { c with pendGroup := some g, pendOk := false, drvs := c.drvs.map fun v => { v with pendOk := false } }) s)
    | none => s) s

/-- Every driver of the chains of a group reports PENDING_OK (R400). -/
def lampsLoaded (g : Nat) (s : State) : Bool :=
  [0, 1].all fun k => match objOf (s.cg.group g).objs 13 k with
    | some b => lvLegacy b || ((s.chain k).pendGroup == some g && (s.chain k).pendOk)
    | none => true

/-- LANTk_CLK and LANTk_LAT are driven low in Lantern mode (R390). -/
def lanternPins (k : Nat) (s : State) : State :=
  emit (.pin (cell ["LANT0_LAT", "LANT1_LAT"] k "") false) (emit (.pin (cell ["LANT0_CLK", "LANT1_CLK"] k "") false) s)

/-- An ILLUM_LEVELS object governs the chain (R396, R404, R407): its MODE, CAMERA and DRIVERS; what is known of drivers that it does not have goes, and
in legacy mode no status, derating or diagnosis exists. -/
def governs (k : Nat) (b : List Byte) (s : State) : State :=
  let n := if lvLegacy b then 0 else lvDrivers b
  let s1 := setChain k (fun c => { c with
    levels := b, legacy := lvLegacy b, camera := lvCamera b, drvs := c.drvs.zipIdx.map fun (v, d) => if d < n then v else {}
    derating := c.derating && !lvLegacy b, diagTries := if lvLegacy b then none else c.diagTries, returnBy := if lvLegacy b then [] else c.returnBy }) s
  if !lvLegacy b ∧ (s.chain k).legacy then lanternPins k s1 else s1

/-- Levels take force (R400): SWAP at the end of the chain's last light, or at the commit where that came later, and a frame that carries the new on-time;
what waits from lines before `start` goes with them. DEDUCED: that instant and that frame (log 21). -/
def lampSwap (k : Nat) (b : List Byte) (start : Nat) (s : State) : State :=
  let sent := max (s.chain k).lastEnd (s.chain k).swapAt
  let s1 := setChain k (fun c => { c with swaps := c.swaps.filter (fun x => decide (start < x.1)), inUse := true }) (governs k b s)
  if lvLegacy b then s1 else lampFrame k none (emit (.lamp k (.marker 2000 sent)) s1)

/-- The commit of a group at line lc (R79, R82, R400, R405): levels wait for the frame of their CAMERA that starts at lc; ENABLE 0 sends OFF at the
commit (R405; DEDUCED that it does not wait for a frame, log 21). -/
def lampCommit (lc g : Nat) (s : State) : State :=
  forAll [0, 1] (fun k s => match objOf (s.cg.group g).objs 13 k with
    | none => s
    | some b =>
      let s1 := setChain k (fun c => { c with pendGroup := none, pendOk := false }) s
      if !lvEnable b then
        let s2 := setChain k (fun c => { c with inUse := false, swaps := [] }) s1
        if (s2.chain k).levels.isEmpty then lampOff k (governs k b s2) else governs k b (lampOff k s2)
      else setChain k (fun c => { c with swaps := c.swaps ++ [(lc, b)], swapAt := s.pos.mono.toNat }) s1) s

/-! ## Strobes (R398, R399) -/

/-- A light of `on` ns from an instant on would start less than 1 µs after the end of one that comes before it, or end less than 1 µs before one already
decided that comes after it (R399). DEDUCED: the later decision is the one withheld (log 21). -/
def tooClose (lit : List (Int × Int)) (light on : Int) : Bool :=
  lit.any fun l => decide (light < l.1 + l.2 + 1000 ∧ l.1 < light + on + 1000)

/-- Lit time of the window of 1 ms that ends at an instant, ns. -/
def litIn (lit : List (Int × Int)) (b : Int) : Int :=
  (lit.map fun l => max 0 (min (l.1 + l.2) b - max l.1 (b - 1000000))).sum

/-- With a light of `on` ns from an instant on, the lit time of some millisecond would exceed 25 % (R399): the one that ends with it, or with a light already
decided that comes after it. -/
def overDuty (lit : List (Int × Int)) (light on : Int) : Bool :=
  let all := (light, on) :: lit
  all.any fun l => decide (light ≤ l.1) && decide (4 * litIn all (l.1 + l.2) > 1000000)

/-- A strobe of chain k with its light at an instant (ns): lit, with the marker T_CHAIN before it (R398), or withheld under R399. In SAFE the drivers are
OFF and a legacy board stays dark (R405). -/
def strobe (k : Nat) (light : Int) (s : State) : State :=
  let c := s.chain k
  if !c.inUse || (c.legacy && s.host.opState == .safe) then s else
    let on : Int := 10 * lvOnTime c.levels
    let skip := fun (x : Sticky) => stickRec (source := 0x50 + k) x (setChain k (fun c => { c with skips := satAdd c.skips 1 }) s)
    if tooClose c.lit light on then skip .strobeSkip
    else if overDuty c.lit light on then skip .dutyLimit
    else
      let s1 := setChain k (fun c => { c with
        strobes := satAdd c.strobes 1, lastEnd := max c.lastEnd (light + on)
        lit := (light, on) :: c.lit.filter fun l => decide ((s.pos.mono.toNat : Int) < l.1 + l.2 + 1000000) }) s
      if c.legacy then
        let pat := legacyPattern c.levels
        let before := c.legacyLights.filter fun l => decide (l.1 < light)
        let after := c.legacyLights.filter fun l => decide (light ≤ l.1)
        emit (.lamp k (.latch light pat)) (setChain k (fun c => { c with
          pattern := pat, lightOn := true, legacyLights := before ++ (light, light + on) :: after }) s1)
      else emit (.lamp k (.marker 1000 (light - tChain c.levels))) s1

/-- A strobe from a comparator or timer: the light follows its instant by T_CHAIN (R398). -/
def strobeAction (k : Nat) (at_ : Int) (s : State) : State := strobe k (at_ + tChain (s.chain k).levels) s

/-- LEGACY_STROBE_END (R404): zeros are shifted in and latched at the end of the on-time. -/
def execLegacyStrobeEnd (chain : Fin 2) (s : State) : Host.Outcome State Fault Refusal :=
  let c := s.chain chain
  .next (match c.legacyLights with
    | (_, stop) :: rest =>
      if (s.pos.mono.toNat : Int) < stop then s else
        emit (.lamp chain (.latch stop (legacyZeros c.levels)))
          (setChain chain (fun c => { c with legacyLights := rest, lightOn := !rest.isEmpty, pattern := legacyZeros c.levels }) s)
    | [] => s)

/-! ## Diagnostics (R402) -/

/-- A DIAG that is due at a camera trigger (ns) whose next trigger is predicted `period` 4,096ths of a ns later: placed where it fits; DIAG_SKIPPED after 64
camera lines. DESIGN CHOICE: without a line rate there is no prediction, and it is placed (log 21). -/
def diagAt (k : Nat) (trig : Int) (period : Option Int) (s : State) : State :=
  let c := s.chain k
  match c.diagTries with
  | none => s
  | some n =>
    let start := trig + 10 * lvExpEnd c.levels + 200
    let fits := match period with
      | some p => decide (4096 * (start + 4000 + 200) ≤ 4096 * (trig + 10 * lvExpStart c.levels) + p)
      | none => true
    if fits then
      lampFrame k none (emit (.lamp k (.marker 3000 (start - 2000 - tChain c.levels))) (setChain k (fun c => { c with diagTries := none, diagRuns := satAdd c.diagRuns 1 }) s))
    else if n + 1 ≥ 64 then
      stickEvent .diagSkipped { ev := .diagSkipped, source := 0x50 + k, p0 := w32 k } (setChain k (fun c => { c with diagTries := none }) s)
    else setChain k (fun c => { c with diagTries := some (n + 1) }) s

/-- A trigger at an instant of a camera whose segment starts at image line `start` (R398, R400, R402): levels whose frame has come swap; the chains
of the camera strobe, and place a DIAG that is due. From Lc on a chain that goes over to another camera waits for that one. -/
def lampTrigger (camera : Nat) (at_ : Int) (start : Nat) (newFrame : Bool) (index : Nat) (period : Option Int) (s : State) : State :=
  forAll [0, 1] (fun k s =>
    let due := ((s.chain k).swaps.filter fun x => decide (x.1 ≤ start)).getLast?
    let s0 := match due with
      | some (_, b) => if lvCamera b = camera then lampSwap k b start s else s
      | none => s
    let c := s0.chain k
    if !c.inUse || c.camera != camera || c.swaps.any (fun x => decide (x.1 ≤ start)) then s0 else
      let n := lvDiagLog2 c.levels
      let diag := newFrame && !c.legacy && n != 0 && index % 2 ^ n == 0
      let s1 := if diag then setChain k (fun c => { c with diagTries := some 0 }) s0 else s0
      diagAt k at_ period (strobe k (at_ + 10 * lvLead c.levels) s1)) s

/-! ## Status (R401, R403) -/

/-- LAMP_STATUS_FRAME (R401): every 10 ms, a frame with LOAD 0. -/
def execLampStatusFrame (chain : Fin 2) (s : State) : Host.Outcome State Fault Refusal :=
  let c := s.chain chain
  .next (if c.inUse ∧ ¬ c.legacy ∧ (c.statusAt = 0 ∨ c.statusAt.toNat + 10000000 ≤ s.pos.mono.toNat) then
    lampFrame chain none (setChain chain (fun c => { c with statusAt := s.pos.mono }) s) else s)

/-- DERATE target at a reading (R401). -/
def derateTarget (b : List Byte) (temp : Nat) : Nat :=
  if temp ≤ lvKnee b then 255 else max (lvFloor b) (255 - lvSlope b * (temp - lvKnee b) / 256)

/-- One step of DERATE towards its target. -/
def stepTo (x target : Nat) : Nat := if x < target then x + 1 else if x > target then x - 1 else x

/-- The object by whose KNEE, SLOPE, FLOOR and T_OFF a chain's drivers are judged: the levels in force, and before any are those sent with LOAD. DEDUCED
(log 21). -/
def judgeLevels (k : Nat) (s : State) : List Byte :=
  let c := s.chain k
  if !c.levels.isEmpty ∧ !c.legacy then c.levels else
    ((c.pendGroup.bind fun g => objOf (s.cg.group g).objs 13 k).getD c.levels)

/-- The status word of driver d, checked (R394, R401, R403). -/
def takeDriver (k d : Nat) (st : List Byte) (s : State) : State :=
  if le16 st 6 ≠ crc16 (bytesLE 1 d ++ st.take 6) then setChain k (fun c => { c with statusBad := satAdd c.statusBad 1 }) s else
    let c := s.chain k
    let v := cell c.drvs d {}
    let temp := by8 st 0
    let old := by8 v.status 2
    let new := by8 st 2
    let fresh := new &&& (255 - old)
    let b := judgeLevels k s
    let off := if temp ≥ lvTOff b then true else if temp + 10 < lvTOff b then false else v.off
    let v1 : Drv := { derate := stepTo v.derate (derateTarget b temp), off := off, status := st.take 8, pendOk := by8 st 1 / 2 % 2 == 1 }
    let s1 := setChain k (fun c => { c with drvs := upd c.drvs d (fun _ => v1) }) s
    let s2 := if fresh % 16 ≠ 0 then stick .lampOpen s1 else s1
    let s3 := if fresh / 16 ≠ 0 then stick .lampShort s2 else s2
    let sets := fun (k : Sticky) => !flag (wd s.host.stk k.n) k.b
    let always := (decide (fresh % 16 ≠ 0) && sets .lampOpen) || (decide (fresh / 16 ≠ 0) && sets .lampShort)
    let s4 := if fresh = 0 then s3 else
      event { ev := .lampOpen, source := 0x50 + k, p0 := w32 k, p1 := w32 d, p2 := w32 new, always := always } s3
    if off && !v.off then
      stickEvent .lampHot { ev := .lampHot, source := 0x50 + k, p0 := w32 k, p1 := w32 d, p2 := w32 temp } s4
    else s4

/-- CHAIN_BROKEN (R403). -/
def chainBroken (k seen : Nat) (s : State) : State :=
  stickEvent .chainBroken { ev := .chainBroken, source := 0x50 + k, p0 := w32 k, p1 := w32 seen } s

/-- DRIVERS the chip expects to answer: of the oldest frame whose return is due, else of the last frame sent (R392, R403). -/
def driversOf (k : Nat) (s : State) : Nat := ((s.chain k).returnBy.head?.map (·.1)).getD (s.chain k).frameH

/-- A return stream means something: a frame waits for one, or the chain has been sent one and is not in legacy mode, where LANTk_RI is not used (R390,
R404). -/
def listens (k : Nat) (s : State) : Bool :=
  let c := s.chain k
  !c.returnBy.isEmpty || (c.frameH != 0 && !c.legacy)

/-- LANTERN_RETURN_RX (R401, R403): the header's H and S and the status words of a return stream. -/
def execLanternReturnRx (chain : Fin 2) (h seen : Byte) (statuses : List (List Byte)) (s : State) : Host.Outcome State Fault Refusal :=
  let n := driversOf chain s
  let s1 := setChain chain (fun c => { c with seen := seen.toNat % 64, returnBy := c.returnBy.drop 1 }) s
  .next (if !listens chain s then s else if h ≠ 0 ∨ seen.toNat ≠ n then chainBroken chain seen.toNat s1 else
    let s2 := (List.range n).foldl (fun s d => takeDriver chain d (cell statuses d []) s) s1
    let c := s2.chain chain
    let derating := !c.legacy && (c.drvs.take n).any fun v => v.derate != 255
    let m := ((c.pendGroup.bind fun g => objOf (s.cg.group g).objs 13 chain).map lvDrivers).getD n
    let s3 := setChain chain (fun c => { c with pendOk := c.pendGroup.isSome && (c.drvs.take m).all (·.pendOk), derating := derating }) s2
    if derating && !c.derating then stickRec (source := 0x50 + chain) .derating s3 else s3)

/-- LANTERN_RETURN_TIMEOUT (R403): nothing correct within 2 frame times; the S reported is that of the last return stream. DEDUCED
(log 21). -/
def execLanternReturnTimeout (chain : Fin 2) (s : State) : Host.Outcome State Fault Refusal :=
  .next (match (s.chain chain).returnBy with
    | (_, t) :: rest => if t ≤ s.pos.mono.toNat then chainBroken chain (s.chain chain).seen (setChain chain (fun c => { c with returnBy := rest }) s) else s
    | [] => s)

/-! ## Content checks (R410) -/

/-- ILLUM_LEVELS, by ascending byte offset and then the object as a whole (R581); `camOk` says that its CAMERA would be configured after the group.
DESIGN CHOICE: which entry a check on two fields belongs to: LEAD against T_CHAIN (of DRIVERS) to word 1, the legacy rule of ON_TIME against LEGACY_BITS
to the object as a whole (log 21). -/
def checkLevels (b : List Byte) (camOk : Bool) : Option Nat :=
  let w := lvWord b
  let legacy := lvLegacy b
  let entries := if legacy then (lvLegacyBits b + 7) / 8 else 32 * lvDrivers b
  let badEntry := !legacy && (List.range (lvDrivers b)).any fun d => ((b.drop (64 + 32 * d + 18)).take 14).any (· != 0)
  firstCode [
    (fld (w 0) 10 22 != 0, 0x0D01), (!legacy && decide (lvDrivers b < 1 ∨ lvDrivers b > 32), 0x0D02),
    (decide (lvOnTime b < 20 ∨ 10 * lvLead b < tChain b), 0x0D03), (decide (lvTOff b ≤ lvKnee b), 0x0D03), (fld (w 4) 4 28 != 0, 0x0D01),
    (fld (w 5) 9 23 != 0, 0x0D01), (legacy && decide (lvLegacyBits b < 8 ∨ lvLegacyBits b > 256), 0x0D02),
    ((List.range 10).any (fun i => w (6 + i) != 0) || badEntry || (b.drop (64 + entries)).any (· != 0), 0x0D01),
    (b.length != 256 * ((64 + entries + 255) / 256), 0x0D02),
    (legacy && decide (10 * lvOnTime b < 50 * lvLegacyBits b + 200), 0x0D03), (!camOk, 0x0D04)]

/-! ## Commands (R409) -/

/-- Drivers of a chain: those of the levels in force, and before any are those of the frame sent. -/
def Chain.drivers (c : Chain) : List Drv :=
  c.drvs.take (if c.legacy then 0 else if c.levels.isEmpty then c.frameH else lvDrivers c.levels)

/-- The registers at 0x00 to 0x24 of a chain (R407). -/
def lampView (c : Chain) : List Word :=
  let temps := (c.drivers.zipIdx.map fun (v, d) => (by8 v.status 0, d))
  let hot := temps.foldl (fun b x => if b.1 < x.1 then x else b) (0, 0)
  let opens := (List.range 4).map fun i => w32 ((List.range 8).map fun j => by8 (cell c.drivers (8 * i + j) {}).status 2 % 16 * 16 ^ j).sum
  [w32 (b2n c.inUse + 2 * b2n c.legacy + 4 * c.seen + 256 * c.camera + 1024 * b2n c.derating), c.strobes, c.skips, c.diagRuns] ++ opens ++
  [w32 (hot.1 + 256 * hot.2), c.statusBad]

/-- LAMP_GET_STATUS. -/
def execLampGetStatus (slot : Fin 16) (s : State) : Host.Outcome State Fault Refusal :=
  .next (command 0x0B00 1 slot (fun s ws => [reservedW ws 0 0x101, notBoot s])
    (fun _ ws s =>
      let k := fld (wd ws 0) 0 1
      let s1 := if flag (wd ws 0) 8 then setChain k (fun c => { c with strobes := 0, skips := 0, diagRuns := 0, statusBad := 0 }) s else s
      done (s1, okWith (lampView (s.chain k)))) s)

/-- The camera's trigger comparator runs (R332). -/
def triggerRuns (camera : Nat) (s : State) : Bool := (cell s.pos.cmps (8 + camera) {}).st == .armed

/-- LAMP_DIAG_NOW. -/
def execLampDiagNow (slot : Fin 16) (s : State) : Host.Outcome State Fault Refusal :=
  .next (command 0x0B01 1 slot
    (fun s ws =>
      let c := s.chain (fld (wd ws 0) 0 1)
      [reservedW ws 0 1, (s.host.opState != .ready && s.host.opState != .print, badState),
       (!c.inUse || c.legacy || !triggerRuns c.camera s, badState)])
    (fun _ ws s => done (setChain (fld (wd ws 0) 0 1) (fun c => { c with diagTries := some 0 }) s, ok)) s)

/-- LAMP_READ_DRIVERS. DEDUCED: a response holds 60 payload words, so of more than 30 drivers the first 30 are returned (log 21). -/
def execLampReadDrivers (slot : Fin 16) (s : State) : Host.Outcome State Fault Refusal :=
  .next (command 0x0B02 1 slot (fun s ws => [reservedW ws 0 1, notBoot s])
    (fun _ ws s =>
      let c := s.chain (fld (wd ws 0) 0 1)
      done (s, okWith ((c.drivers.take 30).flatMap fun v => bytesToWords v.status 0 2))) s)

end Sys2Proof.Machine
end

