-- ==== Sys2Proof/Machine/Sample.lean ====
section
/-!
DEFINITION. Camera contexts (R255, R256), the page reference (R269), calibration samples and accumulators (R295 to R300), and probe marks
(R194, R272).
-/
namespace Sys2Proof.Machine

/-! ## The CAMERA_CONTEXT object (R255, R256) -/

/-- ENABLE. -/
def cxEnable (b : List Byte) : Bool := flag (objWord b 0) 0
/-- LAYOUT: 0 MONO, 1 TRILINEAR, 2 BAYER. -/
def cxLayout (b : List Byte) : Nat := fld (objWord b 0) 1 2
/-- CFA. -/
def cxCfa (b : List Byte) : Nat := fld (objWord b 0) 3 2
/-- RAW12. -/
def cxRaw12 (b : List Byte) : Bool := flag (objWord b 0) 5
/-- VC. -/
def cxVc (b : List Byte) : Nat := fld (objWord b 0) 6 2
/-- What a port restart depends on (R258): LAYOUT, CFA, RAW12, VC, LANES, LANE_MBPS. -/
def cxPort (b : List Byte) : Nat × Nat := (fld (objWord b 0) 1 10, fld (objWord b 1) 0 13)
/-- ROI_X0. -/
def cxX0 (b : List Byte) : Nat := fld (objWord b 2) 0 14
/-- ROI_WIDTH. -/
def cxWidth (b : List Byte) : Nat := fld (objWord b 2) 16 14
/-- FRAME_LINES. -/
def cxFrameLines (b : List Byte) : Nat := fld (objWord b 3) 0 7
/-- LINES_PER_CAM. -/
def cxPerCam (b : List Byte) : Nat := fld (objWord b 3) 8 4
/-- PRIORITY. -/
def cxPriority (b : List Byte) : Nat := fld (objWord b 3) 12 2
/-- LATENCY. -/
def cxLatency (b : List Byte) : Nat := fld (objWord b 3) 16 3
/-- CAM_OFFSET, raw 32.18 (R10, R31). -/
def cxOffset (b : List Byte) : Nat := (objWord b 4).toNat + 2 ^ 32 * fld (objWord b 5) 0 18
/-- COL0, raw signed 18.14. -/
def cxCol0 (b : List Byte) : Int := (objWord b 6).toInt
/-- PITCH, raw u4.16. -/
def cxPitch (b : List Byte) : Nat := fld (objWord b 7) 0 20
/-- MEAS_CH. -/
def cxMeasCh (b : List Byte) : Nat := fld (objWord b 18) 0 2
/-- ALIGN_MIN. -/
def cxAlignMin (b : List Byte) : Nat := fld (objWord b 20) 16 10
/-- SCRIPT_LEN. -/
def cxScriptLen (b : List Byte) : Nat := fld (objWord b 21) 10 6
/-- The exposure script (R257). -/
def cxScript (b : List Byte) : List (Word × Word) :=
  (List.range (cxScriptLen b)).map fun i => (objWord b (192 + 2 * i), objWord b (193 + 2 * i))

/-- The CAMERA_CONTEXT of camera k in a set of objects, if it configures the camera. -/
def ctxIn (objs : List Obj) (k : Nat) : Option (List Byte) := match objOf objs 12 k with
  | some b => if cxEnable b then some b else none
  | none => none

/-- First image line of camera line j of a segment (R253). -/
def CamSeg.line (g : CamSeg) (j : Nat) : Nat := g.start + cxPerCam g.ctx * j

/-! ## Cameras -/

/-- Camera k. -/
def State.cam (s : State) (k : Nat) : Cam := cell s.insp.cams k {}

/-- Changes camera k. -/
def setCam (k : Nat) (f : Cam → Cam) (s : State) : State :=
  { s with insp := { s.insp with cams := upd s.insp.cams k f } }

/-- Camera lines of a frame. -/
def CamFrame.n (f : CamFrame) : Nat := f.lines.length
/-- The context a frame is taken under. -/
def CamFrame.ctx (f : CamFrame) : List Byte := f.trig.seg.ctx
/-- First image line (unrebased) of line i of a frame. -/
def CamFrame.lineAt (f : CamFrame) (i : Nat) : Nat := f.trig.seg.line (f.trig.j + i)
/-- The image line behind the last of a frame. -/
def CamFrame.endLine (f : CamFrame) : Nat := f.lineAt f.n
/-- Lines of a frame that are good. -/
def CamFrame.good (f : CamFrame) : Nat := countIf f.lines Option.isSome

/-! ## The page reference (R269) -/

/-- Tone of every bar column in image line L: after upsampling for contone pages, full where a DROP2 page has a drop, 0 outside pages. -/
def toneOfLine (L : Nat) (s : State) : List Nat :=
  let objs := objsAt L s
  let mods := (barOf objs).modules
  match pageAt L s with
  | none => List.replicate (mods * colsPer) 0
  | some p => (List.range mods).flatMap fun m => (toneLine objs p m (L - p.firstAbs) (lineIn L s).2).map fun t =>
    if p.format = 8 then (if t.code = 0 then 0 else 0x20000) else min 0x20000 t.tin

/-- A mean, rounded as R268 rounds one; 0 of nothing. DEDUCED for the reference (log 22). -/
def meanOf (sum count : Nat) : Nat := if count = 0 then 0 else (sum + count / 2) / count

/-- The reference of every pixel of camera line j of a segment. -/
def refLine (g : CamSeg) (j : Nat) (s : State) : List Nat :=
  let lines := (List.range (cxPerCam g.ctx)).map fun i => toneOfLine (g.line j + i) s
  let pitch := cxPitch g.ctx
  let cols := (pitch + 65535) / 65536
  (List.range (cxWidth g.ctx)).map fun p =>
    let c0 : Int := (cxCol0 g.ctx * 4 + (pitch * p : Nat)) / 65536
    let sum := (lines.map fun l => ((List.range cols).map fun i =>
      let c := c0 + i
      if c < 0 then 0 else cell l c.toNat 0).sum).sum
    meanOf sum (cols * lines.length)

/-! ## What a frame gives calibration -/

/-- A processed frame: measurements and references by camera line, the alignment in force and whether the frame as a whole may give
samples (R271, R296). -/
structure Measured where
  /-- Camera. -/
  cam : Nat
  /-- The frame. -/
  frame : CamFrame
  /-- Measurement channel by line; none where the line is not good. -/
  meas : List (Option (List Nat))
  /-- Reference by line. -/
  refs : List (List Nat)
  /-- DX. -/
  dx : Int
  /-- DY. -/
  dy : Int
  /-- Its alignment is trusted, its camera is taken and no rule shuts it out. -/
  trusted : Bool

/-- Bar column of pixel p (R271), in 2⁻²⁰ columns. -/
def Measured.col (x : Measured) (p : Nat) : Int :=
  cxCol0 x.frame.ctx * 64 + (cxPitch x.frame.ctx : Int) * (16 * p - x.dx)

/-- First image line (unrebased) of line i of the frame as aligned (R271), rounded down. DEDUCED (log 22). -/
def Measured.line (x : Measured) (i : Nat) : Nat :=
  ((x.frame.trig.seg.start : Int) + (cxPerCam x.frame.ctx : Int) * (16 * (x.frame.trig.j + i : Nat) - x.dy) / 16).toNat

/-! ## White (R295) -/

/-- A camera's white estimates. -/
def whiteOf (k : Nat) (s : State) : List (Option (Nat × Nat)) := cell s.cal.white k []

/-- W_p: valid for 16,384 camera lines after its last update. -/
def whiteAt (w : List (Option (Nat × Nat))) (p now : Nat) : Option Nat :=
  match cell w p none with
  | some (v, at_) => if now < at_ + 16384 then some v else none
  | none => none

/-- Pixel p and both its neighbours satisfy a test. DEDUCED: a pixel with one neighbour does not (log 22). -/
def withNeighbours (t : List Nat) (p : Nat) (test : Nat → Nat → Bool) : Bool :=
  match p with
  | 0 => false
  | q + 1 => match t[q]?, t[q + 1]?, t[q + 2]? with
    | some a, some b, some c => test b a && test b c
    | _, _, _ => false

/-- White after a good camera line: measurements v, references t, camera lines so far. -/
def whiteStep (w : List (Option (Nat × Nat))) (v t : List Nat) (now : Nat) : List (Option (Nat × Nat)) :=
  v.zipIdx.map fun (x, p) =>
    if withNeighbours t p (fun a b => a == 0 && b == 0) then
      match whiteAt w p now with
      | none => some (x, now)
      | some old => some (((old : Int) + ((x : Int) - old + 8) / 16).toNat, now)
    else cell w p none

/-! ## Accumulators (R298, R300) -/

/-- Adds a weight and its two products to an entry, halving it first where SUM_W would exceed 65,536. -/
def CalSum.add (x : CalSum) (w : Rat) (a e : Nat) (page : Nat × Word) : CalSum :=
  let y := if x.w + w > 65536 then { x with w := x.w / 2, a := x.a / 2, e := x.e / 2 } else x
  { y with w := y.w + w, a := y.a + w * a, e := y.e + w * e
           pages := if y.pages.contains page then y.pages else page :: y.pages }

/-- Adds to the entry at a key. -/
def addTo (l : List ((Nat × Nat) × CalSum)) (k : Nat × Nat) (w : Rat) (a e : Nat) (page : Nat × Word) : List ((Nat × Nat) × CalSum) :=
  if w = 0 then l else put l k (((find? l k).getD {}).add w a e page)

/-- Overlap of the span of width `pitch` centred on x with column c, as a part of `pitch` (R297); x and pitch in 2⁻²⁰ columns. -/
def overlap (x : Int) (pitch : Nat) (c : Nat) : Rat :=
  let u : Int := 2 ^ 20
  let lo : Int := max (2 * x - pitch) (2 * c * u - u)
  let hi : Int := min (2 * x + pitch) (2 * c * u + u)
  if pitch = 0 then 0 else (max 0 (hi - lo) : Int) / (2 * pitch : Rat)

/-- Columns a span touches. -/
def columnsOf (x : Int) (pitch total : Nat) : List Nat :=
  let u : Int := 2 ^ 20
  let lo := ((2 * x - pitch + u) / (2 * u)).toNat
  let hi := ((2 * x + pitch + u) / (2 * u)).toNat
  ((List.range (hi + 1)).drop lo).filter fun c => decide (c < total ∧ 0 < overlap x pitch c)

/-- V_cr of a column's rows in a footprint's image lines (R297). -/
def volumes (c : Nat) (lines : List Nat) (s : State) : List (Nat × Nat) :=
  (List.range 4).map fun r => (r, ((s.cal.laid.filter fun d => d.2.1 == c && d.2.2.1 == r && lines.contains d.1).map fun d =>
    match d.2.2.2 with
    | 1 => s.cal.volS
    | 2 => s.cal.volM
    | 3 => s.cal.volL
    | _ => 0).sum)

/-- AIM(t), by the arithmetic of R145. -/
def aimAt (aim : List Nat) (t : Nat) : Nat := curve (fun j => cell aim j 0) t

/-- a_p (R295). -/
def absorptance (w v : Nat) : Nat := if v ≥ w then 0 else min 65535 (((w - v) * 65536) / w)

/-- A sample is shared out (R297 to R299): `x` is the pixel's column, `lines` the image lines of its footprint. -/
def shareSample (x : Int) (pitch : Nat) (lines : List Nat) (a e t : Nat) (page : Nat × Word) (s : State) : State :=
  let first := minOf lines
  let cols := (columnsOf x pitch (s.cg.modules * colsPer)).filter fun c => decide (cell s.cal.clearBelow (c / colsPer) 0 ≤ first)
  let band := min 15 (t / 0x2000)
  let step := fun (b : CalBank) (c : Nat) =>
    let w := overlap x pitch c
    let vs := volumes c lines s
    let total := (vs.map (·.2)).sum
    let noz := vs.foldl (fun l rv =>
      if total = 0 then l else addTo l (c, rv.1) (w * (rv.2 : Rat) / (total : Rat)) a e page) b.noz
    { b with cols := addTo b.cols (c, band) w a e page, noz := noz }
  if cols.isEmpty then s else
    { s with cal := { s.cal.gather (fun b =>
      let b1 := cols.foldl step b
      { b1 with pages := if b1.pages.contains page then b1.pages else page :: b1.pages }) with samples := satAdd s.cal.samples 1 } }

/-! ## Samples (R296) -/

/-- An image line of a module that gives no samples: outside pages, blanked at print time, or noted (R296). DEDUCED: an underrun or probe line
lies outside pages (log 22). -/
def lineShut (m L : Nat) (s : State) : Bool :=
  s.cal.excl.contains (m, L) ||
  match pageAt L s with
  | none => true
  | some p =>
    let k := (linesPer p.format p.lpi600).getD 1
    let entry := ((L - p.firstAbs) / k / p.bandLines) * p.modules + m
    p.type != 1 || (match p.blocks[entry]? with
      | some b => b.dec == .blanked
      | none => true)

/-- The pixels of a good camera line: sampled or excluded. -/
def sampleLine (x : Measured) (i : Nat) (v t prev : List Nat) (s : State) : State :=
  let ctx := x.frame.ctx
  let pitch := 16 * cxPitch ctx
  let tol := s.cal.flatTol
  let near := fun (a b : Nat) => decide (a ≤ b + tol ∧ b ≤ a + tol)
  let l0 := x.line i
  let lines := (List.range (cxPerCam ctx)).map (l0 + ·)
  let w := whiteOf x.cam s
  let now := x.frame.trig.count + i
  let shut := (List.range s.cg.modules).filter fun m => lines.any fun L => lineShut m L s
  let page := match pageAt l0 s with
    | some p => (p.uid, p.epoch)
    | none => (0, 0)
  v.zipIdx.foldl (fun s (vp, p) =>
    let tp := cell t p 0
    let pos := x.col p
    let flat := withNeighbours t p near && (match prev[p]? with
      | some q => near tp q
      | none => false)
    let mods := ((columnsOf pos pitch (s.cg.modules * colsPer)).map (· / colsPer)).dedup
    match x.trusted && decide (0 < tp) && flat && !mods.any shut.contains, whiteAt w p now with
    | true, some wp => shareSample pos pitch lines (absorptance wp vp) (aimAt s.cal.aim tp) tp page s
    | _, _ => { s with cal := { s.cal with excluded := satAdd s.cal.excluded 1 } }) s

/-- Camera line i of a processed frame (R271, R295, R296): white, samples while ENABLE is 1, and the reference of the last good line. -/
def calLine (x : Measured) (i : Nat) (s : State) : State :=
  match cell x.meas i none with
  | none => s
  | some v =>
    let t := cell x.refs i []
    let prev := (s.cam x.cam).prevRef
    let s1 := if s.cal.enable then sampleLine x i v t prev s else s
    let now := x.frame.trig.count + i
    let old := cell s1.cal.whiteFrom x.cam 0
    let s2 := if x.frame.lineAt i < old then s1 else
      { s1 with cal := { s1.cal with white := ((List.range 4).map fun k =>
        if k = x.cam then whiteStep (whiteOf k s1) v t now else whiteOf k s1) } }
    setCam x.cam (fun c => { c with prevRef := t }) s2

/-! ## Probe marks (R194, R272, R304) -/

/-- Camera lines of a window: those that cover `count` image lines from L on, and one on each side; as first image lines. -/
def markLines (x : Measured) (L count : Nat) : List Nat :=
  let per := cxPerCam x.frame.ctx
  let at_ := fun (l : Nat) => (16 * ((l : Int) - x.frame.trig.seg.start) + x.dy * per) / (16 * per : Int)
  let a := at_ L - 1
  let b := at_ (L + count - 1) + 1
  (List.range (b - a + 1).toNat).map fun (i : Nat) => ((x.frame.trig.seg.start : Int) + (a + i) * per).toNat

/-- The density of a mark about pixel p over camera lines, with the number of pixels of its window; none where a line is bad or a
pixel lies outside (R272). -/
def density (meas : List (Nat × Option (List Nat))) (lines : List Nat) (p : Nat) : Option (Int × Nat) :=
  let rows := lines.map fun l => (find? meas l).join
  if p < 8 ∨ rows.any Option.isNone then none else
    let data := rows.filterMap id
    if data.any fun r => decide (r.length ≤ p + 8) then none else
      let whites := data.flatMap fun r => [cell r (p - 8) 0, cell r (p + 8) 0]
      let w : Int := meanOf whites.sum whites.length
      let vals := data.flatMap fun r => [cell r (p - 1) 0, cell r p 0, cell r (p + 1) 0]
      some ((vals.map fun v => w - (v : Int)).sum, vals.length)

/-- The pixel that holds a bar column under the frame's alignment: the nearest centre. -/
def pixelOf (x : Measured) (c : Nat) : Int :=
  let pitch : Int := 16 * cxPitch x.frame.ctx
  if pitch = 0 then -1 else roundHalfUp ((c : Int) * 2 ^ 20 - x.col 0) (16 * cxPitch x.frame.ctx)

/-- A mark pair seen by the camera of a processed frame, once all its lines are in. -/
def measureMark (x : Measured) (s : State) (k : Mark) : State :=
  let p := pixelOf x k.col
  let second := k.first + 4 * k.drops + 16
  let cam := s.cam x.cam
  let need := markLines x second (4 * k.drops)
  if p < 8 ∨ p + 8 ≥ cxWidth x.frame.ctx ∨ k.first < x.frame.trig.seg.start ∨ x.frame.endLine ≤ need.getLastD 0 ∨ k ∉ s.cal.marks then s else
    let dref := density cam.meas (markLines x k.first (4 * k.drops)) p.toNat
    let dprobe := density cam.meas need p.toNat
    let low := match dref with
      | some (d, n) => decide (d < 64 * n)
      | none => false
    let rho : Option Nat := match dref, dprobe with
      | some (d, n), some (q, _) => if d < 64 * n then none else some (Int.tdiv (q * 32768) d).toNat
      | _, _ => none
    let key := (k.col, k.row)
    let run := (find? s.cal.probed key).getD 0
    let probed := match dref with
      | some _ => put s.cal.probed key (if low then run + 1 else 0)
      | none => s.cal.probed
    let row : LadderRow := { plan := k.plan, col := k.col, row := k.row, steps := k.steps, stride := k.stride, q := k.q, e0 := k.e0, rho := rho }
    let printed := decide (k.stride * (k.q + 1) ≤ k.e0)
    { s with cal := { s.cal with
      marks := s.cal.marks.filter (· ≠ k), probed := probed
      ladder := if printed then row :: s.cal.ladder else s.cal.ladder } }

/-- The marks a processed frame completes, and the lines kept for those to come. -/
def measureMarks (x : Measured) (s : State) : State :=
  let new := (List.range x.frame.n).map fun i => (x.frame.lineAt i, cell x.meas i none)
  let s1 := setCam x.cam (fun c => { c with meas := c.meas ++ new }) s
  let s2 := s1.cal.marks.foldl (measureMark x) s1
  let keep := minOf (x.frame.endLine :: s2.cal.marks.map (·.first))
  setCam x.cam (fun c => { c with meas := c.meas.filter fun m => decide (keep ≤ m.1 + 64) }) s2

/-- What a processed frame gives calibration; what no later frame needs leaves the records. -/
def calFrame (x : Measured) (s : State) : State :=
  let s1 := measureMarks x ((List.range x.frame.n).foldl (fun s i => calLine x i s) s)
  let old := x.frame.trig.seg.start + cxPerCam x.frame.ctx * x.frame.trig.j
  { s1 with cal := { s1.cal with
    laid := s1.cal.laid.filter fun d => decide (old ≤ d.1 + 65536)
    excl := s1.cal.excl.filter fun d => decide (old ≤ d.2 + 65536)
    marks := s1.cal.marks.filter fun k => decide (old ≤ k.first + 65536) } }

/-! ## Clearing (R299) -/

/-- A bank without the entries of some modules. -/
def CalBank.clear (mods : List Nat) (b : CalBank) : CalBank :=
  { b with cols := b.cols.filter fun x => !mods.contains (x.1.1 / colsPer)
           noz := b.noz.filter fun x => !mods.contains (x.1.1 / colsPer) }

/-- The accumulators of modules clear, in both banks; the count of contributing pages starts again (R301: since the last solve or clear). -/
def clearSums (mods : List Nat) (s : State) : State :=
  if mods.isEmpty then s else
    let c := { s.cal with bank0 := s.cal.bank0.clear mods, bank1 := s.cal.bank1.clear mods }
    { s with cal := c.gather fun b => { b with pages := [] } }

end Sys2Proof.Machine
end

