-- ==== Sys2Proof/Machine/Insp.lean ====
section
/-!
DEFINITION. Opal, the inspection pipeline (R251 to R291): triggers, camera lines, frames and buffers, the stages, records, exposure sets.
-/
namespace Sys2Proof.Machine

/-! ## Pages and image lines -/

/-- Image lines of a page in a range. -/
def Page.within (p : Page) (a b : Nat) : Nat := min b (p.firstAbs + p.lines) - max a p.firstAbs

/-- Pages with image lines in a range. -/
def pagesWithin (a b : Nat) (s : State) : List Page := s.pg.pages.filter fun p => p.started && !p.recorded && decide (0 < p.within a b)

/-- Changes what is gathered for a page and a camera (R282). -/
def setQual (uid k : Nat) (f : QualAcc → QualAcc) (s : State) : State :=
  let is := fun (q : QualAcc) => q.uid == uid && q.cam == k
  let quals := if s.insp.quals.any is then s.insp.quals.map fun q => if is q then f q else q
    else f { uid := uid, cam := k } :: s.insp.quals
  { s with insp := { s.insp with quals := quals } }

/-- Image lines that camera k does not inspect (R278): their pages show it, and their numbers are counted. -/
def notInspect (k a b : Nat) (s : State) : State :=
  (pagesWithin a b s).foldl (fun s p =>
    setQual p.uid k (fun q => { q with notInsp := q.notInsp + p.within a b })
      (setPage p.uid (fun x => { x with notInsp := true }) s)) s

/-! ## Rings (R279, R281, R283) -/

/-- A record for a ring: its index and the ring after it; none where the ring is off or full. -/
def InspRing.take (r : InspRing) : Option (Word × InspRing) :=
  if !r.enabled ∨ (r.prod - r.cons).toNat ≥ 2 ^ r.sizeLog2 then none
  else
    let n := r.sinceIrq + 1
    some (r.prod, { r with prod := r.prod + 1, sinceIrq := if n ≥ max 1 r.irqCount then 0 else n })

/-- A record for a ring; none, too, while the DMA engines stand still after an FLR or a link loss (R35, R36). DESIGN CHOICE: such a record is lost
as on a full ring (log 22). -/
def takeRecord (r : InspRing) (s : State) : Option (Word × InspRing) := if s.host.busMaster then r.take else none

/-- Address of record i. -/
def InspRing.addr (r : InspRing) (size : Nat) (i : Word) : Nat := r.base.toNat + size * (i.toNat % 2 ^ r.sizeLog2)

/-- A quality record (R282). -/
def qualityWords (cams : BitVec 4) (quals : List QualAcc) (p : Page) : List Word :=
  let of_ := fun (k : Nat) => (quals.find? fun q => q.uid == p.uid && q.cam == k).getD {}
  let bad := ((List.range 4).map fun k => if cams.getLsbD k && (of_ k).notInsp != 0 then 2 ^ k else 0).sum
  let cam := fun (k : Nat) =>
    let q := of_ k
    if !cams.getLsbD k then List.replicate 6 (0 : Word) else
      let mean := fun (x : Int) => (wInt (if q.aligned = 0 then 0 else roundHalfUp x q.aligned)) &&& 0xFFFF
      [w32 q.insp, w32 q.notInsp, w32 (q.frames % 65536 + 65536 * q.dropped), w32 (q.holds % 65536 + 65536 * q.expSet.toNat),
       mean q.dxSum ||| (mean q.dySum <<< 16), w32 (meanOf q.measSum q.measCnt)]
  let head := [p.number, p.epoch, p.firstLine, w32 p.pageLines, w32 (cams.toNat + 16 * bad), 0, 0]
  let rest := (List.range 4).flatMap cam
  head ++ [w32 (crc32c (wordBytes (head ++ [0] ++ rest)))] ++ rest

/-- A page's quality record falls due (R283): written, or QUALITY_LOST with QUALITY_REF all ones. DESIGN CHOICE: a ring that is off loses no
record (log 22). -/
def qualityRecord (cams : BitVec 4) (p : Page) (s : State) : State :=
  let words := qualityWords cams s.insp.quals p
  let s0 := { s with insp := { s.insp with quals := s.insp.quals.filter fun q => q.uid != p.uid } }
  match takeRecord s.insp.qual s with
  | some (i, r) =>
    let s1 := emit (.dmaWrite (s.insp.qual.addr 128 i) (wordBytes words))
      (setPage p.uid (fun x => { x with qualDone := true, qualRef := i }) { s0 with insp := { s0.insp with qual := r } })
    if r.sinceIrq = 0 then sendVec 5 s1 else s1
  | none =>
    let s1 := setPage p.uid (fun x => { x with qualDone := true }) s0
    if s.insp.qual.enabled then stickRec .qualityLost s1 else s1

/-- The quality records that every configured camera's report makes due, and the page records behind them (R125, R283). As the last camera leaves
configuration at a line, the pages that began before it are reported for it (`left`). -/
def qualitiesFor (left : Option Nat) (s : State) : State :=
  let cams := camsConfigured s
  let due := s.pg.pages.filter fun p => p.started && !p.recorded && !p.qualDone && p.inspBy &&& cams == cams &&
    (cams != 0 || left.any fun lc => decide (p.firstAbs < lc))
  recordsDue (due.foldl (fun s p => qualityRecord cams p s) s)

/-- The quality records that are due while cameras are configured. -/
def qualitiesDue (s : State) : State := qualitiesFor none s

/-- A frame that still lies in a buffer of camera k holds the image line before E (R261). -/
def heldBefore (k E : Nat) (s : State) : Bool :=
  (List.range 2).any fun b =>
    let f := cell (s.cam k).frames b {}
    cell (s.cam k).bufs b .free != .free && decide (f.lineAt 0 < E ∧ E ≤ f.endLine)

/-- Camera k has finished or dropped the frame that reaches image line E: pages that end there are reported (R283), but those whose last line lies in
an older frame that is not finished. -/
def reportPages (k E : Nat) (s : State) : State :=
  qualitiesDue (mapPages (fun p => p.started && !p.recorded && decide (p.firstAbs + p.lines ≤ E) && !heldBefore k (p.firstAbs + p.lines) s)
    (fun p => { p with inspBy := p.inspBy ||| (1#4 <<< k) }) s)

/-! ## Statistics records (R280) -/

/-- What a finished frame's statistics hold. -/
structure FrameStats where
  /-- Histogram bins by channel. -/
  hist : List (List Nat) := []
  /-- Zone means and counts by channel, y, x. -/
  zones : List (List (List (Nat × Nat))) := []
  /-- PIXELS. -/
  pixels : Nat := 0
  /-- Frame means by channel. -/
  means : List Nat := []
  /-- ALIGN_HOLD. -/
  hold : Bool := false
  /-- DX. -/
  dx : Int := 0
  /-- DY. -/
  dy : Int := 0
  /-- CONF. -/
  conf : Nat := 0

/-- A statistics record: 20,480 bytes. -/
def statsRecord (k : Nat) (index : Word) (f : CamFrame) (dropped : Bool) (st : FrameStats) (s : State) : List Byte :=
  let g := f.trig.seg
  let bad := if dropped then 0 else f.n - f.good
  let notInsp := dropped || f.trig.late || bad != 0
  let w := fun (x : Nat) => w32 x
  let head := [index, w (k + 4 * b2n f.short + 8 * b2n dropped + 16 * b2n notInsp + 32 * b2n st.hold), g.epoch, f.trig.index,
    w (g.line f.trig.j - g.base), w (f.n + 65536 * bad), w f.trig.expSet.toNat,
    (wInt st.dx &&& 0xFFFF) ||| ((wInt st.dy &&& 0xFFFF) <<< 16), w st.conf, jobOf g.epoch s, w st.pixels,
    w (cell st.means 0 0), w (cell st.means 1 0), w (cell st.means 2 0)]
  let hist := (List.range 3).flatMap fun c => (List.range 1024).flatMap fun b => bytesLE 4 (cell (cell st.hist c []) b 0)
  let zone := (List.range 3).flatMap fun c => (List.range 4).flatMap fun y => (List.range 64).flatMap fun x =>
    let z := cell (cell (cell st.zones c []) y []) x (0, 0)
    bytesLE 4 z.1 ++ bytesLE 4 z.2
  let body := fun (crcWord : Word) => wordBytes (head ++ [crcWord] ++ List.replicate 49 0) ++ hist ++ zone
  body (w32 (crc32c (body 0))) ++ zeros 1792

/-- A frame's record is written (R279, R281). DESIGN CHOICE: a ring that is off loses no record (log 22). -/
def writeStats (k : Nat) (f : CamFrame) (dropped : Bool) (st : FrameStats) (s : State) : State :=
  match takeRecord s.insp.stats s with
  | some (i, r) =>
    let s1 := emit (.dmaWrite (s.insp.stats.addr 20480 i) (statsRecord k i f dropped st s)) { s with insp := { s.insp with stats := r } }
    if r.sinceIrq = 0 then sendVec 5 s1 else s1
  | none => if s.insp.stats.enabled then stickRec .statsLost s else s

/-! ## Frames -/

/-- EXP_SET_ID of a page's last frame (R282): frames may be dropped before an older one is processed. -/
def QualAcc.sawFrame (q : QualAcc) (f : CamFrame) : QualAcc :=
  if q.lastFrame ≤ f.lineAt 0 then { q with expSet := f.trig.expSet, lastFrame := f.lineAt 0 } else q

/-- A frame is dropped (R277, R278). -/
def dropFrame (k : Nat) (f : CamFrame) (s : State) : State :=
  let a := f.lineAt 0
  let b := f.endLine
  let s1 := setCam k (fun c => { c with framesDropped := satAdd c.framesDropped 1, frameIndex := f.trig.index, afterDrop := true }) s
  let s2 := stickEvent .frameDrop
    { ev := .frameDrop, source := 0x20 + k, p0 := w32 k, p1 := f.trig.index, p2 := f.trig.seg.epoch } s1
  let s3 := (pagesWithin a b s2).foldl (fun s p => setQual p.uid k (fun q =>
    { q.sawFrame f with frames := q.frames + 1, dropped := q.dropped + 1 }) s) (notInspect k a b s2)
  reportPages k b (writeStats k f true {} s3)

/-- The line at which the segment in progress of camera k ends (R259, R260): that of the next segment, or Lc of a LOCKED group. -/
def segEnd (k : Nat) (s : State) : Option Nat :=
  let c := s.cam k
  let locked := ((s.cg.groups.filter fun x => x.st == .locked).map (·.abs)).filter fun a => match c.seg with
    | some g => decide (g.start < a)
    | none => false
  (c.next.map (·.start) ++ locked).min?

/-- A frame's first line has come, or is missing: it fills a FREE buffer, or the frame is dropped (R261, R277). The length of a frame dropped
so is that of a whole frame, less what lies beyond the segment, and it is SHORT where that cuts it (R259). DEDUCED (log 22). -/
def beginFill (k : Nat) (t : CamTrig) (s : State) : State :=
  let c := s.cam k
  match (List.range 2).find? fun b => cell c.bufs b .waiting == .free with
  | some b => setCam k (fun c => { c with
      bufs := upd c.bufs b (fun _ => .filling), frames := upd c.frames b (fun _ => { trig := t, restart := c.afterDrop })
      fill := some b, afterDrop := false }) s
  | none =>
    let whole := cxFrameLines t.seg.ctx - t.j % max 1 (cxFrameLines t.seg.ctx)
    let n := match segEnd k s with
      | some e => min whole ((e - t.seg.line t.j) / max 1 (cxPerCam t.seg.ctx))
      | none => whole
    dropFrame k { trig := t, lines := List.replicate n none, short := decide (n < whole) } s

/-- The frame in buffer b is complete: WAITING, or dropped as the newer of two (R261, R277). -/
def endFill (k b : Nat) (deadline : Nat) (s : State) : State :=
  let s1 := setCam k (fun c => { c with
    fill := none, bufs := upd c.bufs b (fun _ => .waiting)
    frames := upd c.frames b (fun f => { f with deadline := deadline, short := decide (f.n < cxFrameLines f.ctx) }) }) s
  let c := s1.cam k
  if cell c.bufs (1 - b) .free = .waiting then
    dropFrame k (cell c.frames b {}) (setCam k (fun c => { c with bufs := upd c.bufs b (fun _ => .free) }) s1)
  else s1

/-- The oldest trigger that waits is answered by a camera line; none for a bad or missing one. -/
def takeLine (k : Nat) (data : Option (List (List Nat))) (s : State) : State :=
  match (s.cam k).trigs with
  | [] => s
  | t :: ts =>
    let s1 := setCam k (fun c => { c with trigs := ts }) s
    let s2 := if t.first then beginFill k t s1 else s1
    match (s2.cam k).fill with
    | none => s2
    | some b =>
      let s3 := setCam k (fun c => { c with frames := upd c.frames b (fun f => { f with lines := f.lines ++ [data], deadline := t.deadline }) }) s2
      if t.last then endFill k b t.deadline s3 else s3

/-! ## Exposure sets (R273 to R275) -/

/-- The bytes of a script entry's I²C write (R257): register address and data, most significant first. -/
def scriptBytes (e : Word × Word) : List Byte :=
  let be := fun (two : Bool) (x : Nat) => if two then [BitVec.ofNat 8 (x / 256), BitVec.ofNat 8 x] else [BitVec.ofNat 8 x]
  be (flag e.1 16) (fld e.1 0 16) ++ be (flag e.1 17) (fld e.2 0 16)

/-- The context the port works with: of the segment in progress, else of what is in force. -/
def camCtx (k : Nat) (s : State) : List Byte := match (s.cam k).seg with
  | some g => g.ctx
  | none => (ctxIn s.cg.inForce k).getD []

/-- LATENCY that governs a set: of its group's context, which is in force or in a LOCKED group, else of the camera's. -/
def latencyOf (k : Nat) (e : ExpSet) (s : State) : Nat := match e.due with
  | some lc => cxLatency ((ctxIn (objsAt lc s) k).getD (camCtx k s))
  | none => cxLatency (camCtx k s)

/-- I2C_SPEED and I2C_ADDR of a context (R255, R257). -/
def cxBus (b : List Byte) : Nat × Nat := (fld (objWord b 21) 8 2, fld (objWord b 21) 0 7)

/-- A script entry goes out on the bus of its set (R257). -/
def sendEntry (k : Nat) (e : ExpSet) (w : Word × Word) (s : State) : State := emit (.i2c k e.bus.1 e.bus.2 (scriptBytes w) 0) s

/-- An unapplied set is abandoned; an INSP_SET_EXPOSURE completes with a status. -/
def abandonSets (k : Nat) (which : ExpSet → Bool) (status : Nat) (s : State) : State :=
  let gone := (s.cam k).sets.filter which
  gone.foldl (fun s e => match e.tag with
      | some t => complete 0x0702 t status 0 0 0 s
      | none => s)
    (setCam k (fun c => { c with sets := c.sets.filter fun e => !which e }) s)

/-- The script of a commit may start (R275): at once, or since the frame that begins. -/
def ExpSet.opened (e : ExpSet) (atStart : Bool) (c : Cam) : Bool :=
  e.due.isSome && !e.started && (e.urgent || (atStart && decide (e.opens + 1 ≤ c.frameSeq)))

/-- The scripts of commits whose point has come wait for nothing more, and sets that INSP_SET_EXPOSURE has not started by then are abandoned
(R275). -/
def openScripts (k : Nat) (atStart : Bool) (s : State) : State :=
  if !(s.cam k).sets.any (fun e => e.opened atStart (s.cam k)) then s else
    abandonSets k (fun e => e.due.isNone && !e.started) 0x12
      (setCam k (fun c => { c with sets := c.sets.map fun e => if e.opened atStart c then { e with urgent := true } else e }) s)

/-- The first set that may start does (R274, R275): none before it is still being written; one without a script is written at once, and the next
follows. `fuel` bounds the sets. -/
def startSets (k : Nat) (atStart : Bool) : Nat → State → State
  | 0, s => s
  | fuel + 1, s =>
    let c := s.cam k
    if c.sets.any fun e => e.started && !e.written then s else
      match c.sets.find? fun e => !e.started with
      | none => s
      | some e =>
        if !(e.urgent || (e.due.isNone && atStart)) then s else
          let lat := latencyOf k e s
          let e1 := { e with started := true, startFrame := c.frameSeq, written := e.script.isEmpty, applyAt := c.frameSeq + lat - 1 }
          let s1 := setCam k (fun c => { c with sets := c.sets.map fun x => if x.id = e.id then e1 else x }) s
          match e.script with
          | [] => startSets k atStart fuel s1
          | w :: _ => sendEntry k e w s1

/-- The sets of camera k that may start do. `atStart` says that a frame begins. -/
def startSet (k : Nat) (atStart : Bool) (s : State) : State :=
  let s1 := openScripts k atStart s
  startSets k atStart (s1.cam k).sets.length s1

/-- A set that is not finished when the frame after the one it started in begins (R274). -/
def lateSets (k : Nat) (s : State) : State :=
  let c := s.cam k
  let late := fun (e : ExpSet) => e.started && !e.written && !e.late && decide (e.startFrame < c.frameSeq)
  (c.sets.filter late).foldl (fun s e =>
    stickEvent .exposureLate { ev := .exposureLate, source := 0x20 + k, p0 := w32 k, p1 := w32 e.id.toNat } s)
    (setCam k (fun c => { c with sets := c.sets.map fun e => if late e then { e with late := true } else e }) s)

/-- The sets whose settings hold from the frame that begins apply, each at its own frame (R274, R288). -/
def applySets (k : Nat) (index epoch : Word) (s : State) : State :=
  let c := s.cam k
  let due := fun (e : ExpSet) => e.written && decide (e.applyAt + 1 ≤ c.frameSeq)
  let ready := c.sets.filter due
  ready.foldl (fun s e => match e.tag with
      | some t => complete 0x0702 t 0 (w32 e.id.toNat) index epoch s
      | none => s)
    (setCam k (fun c => { c with
      sets := c.sets.filter fun e => !due e
      expSet := match ready.getLast? with
        | some e => e.id
        | none => c.expSet }) s)

/-- The next ID of a camera: 1 to 0xFFFF, then 1 (R273). -/
def nextId (x : BitVec 16) : BitVec 16 := if x = 0xFFFF then 1 else x + 1

/-- What an INSP_I2C_XFER answers (R289). -/
def XferJob.ans (j : XferJob) : Ans :=
  if j.reason = 0 then okWith (bytesToWords (j.bytes.take j.read) 0 ((j.read + 3) / 4)) else { status := 0x30, payload := [w32 j.reason] }

/-- The transfer of an INSP_I2C_XFER goes over the bus (R285, R289). -/
def runXfer (j : XferJob) (s : State) : State :=
  let s1 := emit (.i2c j.cam j.bus.1 j.bus.2 j.write j.read) s
  if j.reason = 0 then s1 else stickEvent .i2cError { ev := .i2cError, source := 0x20 + j.cam, p0 := w32 j.cam } s1

/-- A transfer that waits takes its turn after a script entry of its camera (R289). -/
def turnXfer (k : Nat) (s : State) : State :=
  match s.insp.xfer with
  | some j => if j.cam = k then respond j.slot j.ans (runXfer j { s with insp := { s.insp with xfer := none } }) else s
  | none => s

/-- A script of camera k is being written. -/
def writingSet (k : Nat) (s : State) : Bool := (s.cam k).sets.any fun e => e.started && !e.written

/-- I2C_WRITE_DONE (R274, R275): a script write of a camera ends, acknowledged or not. -/
def execI2cWriteDone (camera : Fin 4) (ack : Bool) (s : State) : Host.Outcome State Fault Refusal :=
  let k : Nat := camera
  .next (match (s.cam k).sets.find? fun e => e.started && !e.written with
    | none => s
    | some e =>
      if !ack then
        let s1 := abandonSets k (fun x => x.id == e.id) 0x30 s
        startSet k false (turnXfer k (stickEvent .i2cError { ev := .i2cError, source := 0x20 + k, p0 := w32 k } s1))
      else
        let rest := e.script.drop 1
        let e1 := { e with script := rest, written := rest.isEmpty, applyAt := (s.cam k).frameSeq + latencyOf k e s - 1 }
        let s1 := turnXfer k (setCam k (fun c => { c with sets := c.sets.map fun x => if x.id = e.id then e1 else x }) s)
        match rest with
        | [] => startSet k false s1
        | w :: _ => sendEntry k e w s1)

/-! ## Triggers and segments -/

/-- Where the comparator of camera k stands next (R253, R260), raw 32.18 and unrebased: the next camera line that lies whole below the
next segment, or that segment's line as the old offset sees it. -/
def nextTarget (k : Nat) (s : State) : Option (Bool × Nat) := (s.cam k).seg.map fun g =>
  let j := (s.cam k).camLine
  let line := (false, g.line j * 2 ^ 18 + cxOffset g.ctx)
  match segEnd k s with
  | some e => if g.line (j + 1) > e then (true, e * 2 ^ 18 + cxOffset g.ctx) else line
  | none => line

/-- Arms the comparator of camera k (R253, R332, R334): fire-now; COMPARE_LATE and event 0x0906 where the target of a camera line is not
ahead. -/
def armCam (k : Nat) (s : State) : State :=
  let set := fun (f : Cmp → Cmp) (s : State) => { s with pos := { s.pos with cmps := upd s.pos.cmps (8 + k) f } }
  match nextTarget k s with
  | none => set (fun c => { c with st := .idle, now := false }) s
  | some (change, t) =>
    let d : Int := (t : Int) - webAbs s
    let target : BitVec 50 := BitVec.ofInt 50 ((t : Int) - (s.cg.imgKeyEpoch * 2 ^ 18 : Nat))
    let s1 := setCam k (fun c => { c with change := change }) s
    let s2 := set (fun c => { c with
      st := .armed, dir := 0, late := true, action := 1, epoch := s.cg.epochNow, target := target, now := decide (d ≤ 0),
      firings := if c.st = .armed then c.firings else 0 }) s1
    if d ≤ 0 && !change then
      stickEvent .compareLate { ev := .compareLate, p0 := w32 (8 + k), p1 := wInt (d / 2 ^ 18) } s2
    else s2

/-- The frame in progress ends with the triggers given so far (R82). -/
def cutFrame (k : Nat) (s : State) : State :=
  let c := s.cam k
  match c.trigs.getLast?, c.fill with
  | some _, _ => setCam k (fun c => { c with trigs := c.trigs.dropLast ++ (c.trigs.getLast?.map fun t => { t with last := true }).toList }) s
  | none, some b => endFill k b (cell c.frames b {}).deadline s
  | none, none => s

/-- A segment of camera k begins (R82, R258 to R260): the frame in progress ends short; a context with ENABLE 0 stops the trigger and the I²C
controller for its sets, the sets of later commits stay, and a transfer that waited for a script entry takes its turn (R289). A LOST camera stays LOST
until its first good line (R254); FRAME_INDEX, DX and DY begin at 0 in each epoch (R259, R270). -/
def beginSeg (k : Nat) (g : CamSeg) (s : State) : State :=
  let c := s.cam k
  let s1 := match c.seg with
    | some o => notInspect k (o.line c.camLine) g.start (cutFrame k s)
    | none => s
  if !cxEnable g.ctx then
    let ends := fun (e : ExpSet) => match e.due with
      | some lc => decide (lc ≤ g.start)
      | none => true
    let s0 := abandonSets k ends 0x12 s1
    let s2 := if writingSet k s0 then s0 else turnXfer k s0
    let s3 := match s2.insp.capture with
      | some j => if j.cam = k then complete 0x0704 j.tag 0x21 0 0 0 { s2 with insp := { s2.insp with capture := none } } else s2
      | none => s2
    startSet k false (setCam k (fun c => { c with
      st := .off, seg := none, quiet := false, missRun := 0, sets := c.sets.map fun e => { e with urgent := true } }) s3)
  else
    let restart := match c.seg with
      | some o => cxPort o.ctx != cxPort g.ctx
      | none => true
    let newEpoch := c.alignEpoch != g.epoch
    setCam k (fun x => { x with
      seg := some g, camLine := 0, nextIndex := if newEpoch then 0 else x.nextIndex
      expSet := if c.seg.isNone then 0 else x.expSet
      oldAlign := if newEpoch then (x.alignEpoch, x.dx, x.dy) else x.oldAlign, alignEpoch := g.epoch
      dx := if newEpoch then 0 else x.dx, dy := if newEpoch then 0 else x.dy
      st := if restart && x.st != .lost then .sync else x.st, quiet := restart || x.quiet }) s1

/-- The segments of camera k whose line has come. -/
def nextSeg (k : Nat) (s : State) : State :=
  match (s.cam k).next with
  | [] => s
  | g :: rest =>
    let s1 := beginSeg k g (setCam k (fun c => { c with next := rest }) s)
    match (s1.cam k).seg, rest with
    | none, h :: more => beginSeg k h (setCam k (fun c => { c with next := more }) s1)
    | _, _ => s1

/-- A camera frame begins (R259, R274, R275, R82). -/
def beginFrame (k : Nat) (g : CamSeg) (j : Nat) (s : State) : State :=
  let index := (s.cam k).nextIndex
  let s1 := setCam k (fun c => { c with
    frameSeq := c.frameSeq + 1, lastIndex := index, nextIndex := index + 1, lastBegun := g.line j }) s
  let s2 := startSet k true (applySets k index g.epoch (lateSets k s1))
  let late := (s2.cam k).sets.any fun e => match e.due with
    | some lc => decide (lc ≤ g.start)
    | none => false
  let s3 := setCam k (fun c => { c with frameLate := late }) s2
  if late then stickRec (source := 0x20 + k) .cameraContextLate s3 else s3

/-- Period of a camera line by the present rate, 4,096ths of a ns (T_s with all its fraction bits); none while the web does not move forward. -/
def camPeriodFine (ctx : List Byte) (s : State) : Option Nat := (lineTs s).map fun t => cxPerCam ctx * t * 5

/-- The same in whole ns. -/
def camPeriod (ctx : List Byte) (s : State) : Option Nat := (camPeriodFine ctx s).map fun p => p / 4096

/-- A camera line is triggered, n ENC clocks after the sample (R253, R333): the pulse, the lamps of the camera, and the trigger that a CSI-2 frame must answer. DESIGN CHOICE: while there
is no present line rate the frame period of a deadline counts as 0 (log 22). -/
def camTrigger (k clocks : Nat) (s : State) : State :=
  match (s.cam k).seg with
  | none => s
  | some g =>
    let j := (s.cam k).camLine
    let fl := max 1 (cxFrameLines g.ctx)
    let first := j % fl == 0
    let s1 := if first then beginFrame k g j s else s
    let c := s1.cam k
    let period := camPeriod g.ctx s
    let now := s.pos.mono.toNat + 5 * clocks
    let t : CamTrig := { seg := g, j := j, first := first, last := j % fl + 1 == fl, index := c.lastIndex, expSet := c.expSet, late := c.frameLate
                         count := c.trigCount, deadline := now + period.getD 0 * (1 + fl), fired := now }
    let s2 := setCam k (fun c => { c with trigs := c.trigs ++ [t], camLine := j + 1, trigCount := c.trigCount + 1 }) s1
    let s3 := emit (.pulse (cell ["CAM_TRIG0", "CAM_TRIG1", "CAM_TRIG2", "CAM_TRIG3"] k "") (10 * fld (objWord g.ctx 8) 0 10) (flag (objWord g.ctx 8) 16) now) s2
    lampTrigger k now g.start first c.lastIndex.toNat ((camPeriodFine g.ctx s).map fun p => (p : Int)) s3

/-- The comparator of camera k fires, n ENC clocks after the sample (R253, R259, R335): a camera line, or the line at which the next segment begins, whose own first line
may lie there too. -/
def camFire (k clocks : Nat) (s : State) : State :=
  let count := fun (f : BitVec 16 → BitVec 16) (s : State) =>
    { s with pos := { s.pos with cmps := upd s.pos.cmps (8 + k) (fun c => { c with firings := f c.firings, firedAt := some s.pos.mono }) } }
  let fired := count fun n => if n = 0xFFFF then n else n + 1
  let here := match nextTarget k s with
    | some (_, t) => t
    | none => 0
  let s1 := if (s.cam k).change then count (fun _ => 0) (nextSeg k s) else fired (camTrigger k clocks s)
  match (s.cam k).change, nextTarget k s1 with
  | true, some (false, t) => if t = here then armCam k (fired (camTrigger k clocks s1)) else armCam k s1
  | _, _ => armCam k s1

/-- A commit at image line lc for camera k (R82, R259): its new segment waits for lc to reach the camera, or begins where the camera was not
configured. -/
def camCommit (lc base : Nat) (epoch : Word) (k : Nat) (s : State) : State :=
  let ctx := (objOf s.cg.inForce 12 k).getD []
  let g : CamSeg := { start := lc, base := base, epoch := epoch, ctx := ctx }
  match (s.cam k).seg with
  | none => if cxEnable ctx then armCam k (beginSeg k g s) else s
  | some _ => armCam k (setCam k (fun c => { c with next := c.next ++ [g] }) s)

/-- Frames of camera k from a segment start to image line L, over the segments that lie between. -/
def framesTo (k L : Nat) (s : State) : Nat :=
  let c := s.cam k
  match c.seg with
  | none => 0
  | some g =>
    let starts := (c.next.map (·.start) ++ (s.cg.groups.filter fun x => x.st == .locked).map (·.abs)).filter fun a => decide (a < L)
    let cuts := (g.start :: (starts.mergeSort fun a b => a ≤ b)) ++ [L]
    ((List.zip cuts (cuts.drop 1)).map fun (a, b) =>
      let ctx := if a = g.start then g.ctx else (ctxIn (objsAt a s) k).getD g.ctx
      let lines := (b - a) / max 1 (cxPerCam ctx)
      let fl := max 1 (cxFrameLines ctx)
      (lines + fl - 1) / fl).sum

/-- A line that is no longer to be triggered gives way to the segment's end (R260). -/
def rearm (k : Nat) (s : State) : State :=
  match nextTarget k s with
  | some (true, _) => if (s.cam k).change then s else armCam k s
  | _ => s

/-- A group is LOCKED (R259, R260, R275): no camera triggers lines that would reach Lc, and the script of a CAMERA_CONTEXT that configures its camera is
queued. -/
def camLock (g : Nat) (s : State) : State :=
  let grp := s.cg.group g
  (List.range 4).foldl (fun s k => match objOf grp.objs 12 k with
    | none => rearm k s
    | some b =>
      let s1 := rearm k s
      if !cxEnable b then s1 else
        let c := s1.cam k
        let fl := max 1 (match c.seg with
          | some x => cxFrameLines x.ctx
          | none => 1)
        let firstSeq := c.frameSeq - (c.camLine + fl - 1) / fl
        let opens := firstSeq + framesTo k grp.abs s1 - cxLatency b
        let id := nextId c.lastId
        let e : ExpSet := { id := id, script := cxScript b, bus := cxBus b, due := some grp.abs, opens := opens
                            urgent := c.seg.isNone || decide (opens < c.frameSeq) }
        startSet k false (setCam k (fun c => { c with sets := c.sets ++ [e], lastId := id }) s1)) s

/-! ## Camera lines (R251 to R254) -/

/-- The samples of the region of interest of a packet, scaled to 16 bits by a shift. -/
def roiOf (b : List Byte) (p : CsiPacket) : List Nat := (p.samples.drop (cxX0 b)).take (cxWidth b)

/-- The channels of a camera line (R252). The mean of the two greens is taken on the samples, which are scaled after it. DEDUCED (log
22). -/
def formPixels (b : List Byte) (ps : List CsiPacket) : List (List Nat) :=
  let scale := fun (x : Nat) => x * (if cxRaw12 b then 16 else 64)
  let pkt := fun (i : Nat) => (ps[i]?).getD { type := 0, corrected := false, good := false, samples := [] }
  let channels := match cxLayout b with
    | 0 => let l := roiOf b (pkt 0); [l, l.map fun _ => 0, l.map fun _ => 0]
    | 1 => (List.range 3).map fun i => roiOf b (pkt i)
    | _ =>
      let smp := fun (row p : Nat) => cell (pkt (row)).samples p 0
      let cells := (List.range (cxWidth b)).map fun p =>
        let q := 2 * (cxX0 b + p)
        [smp 0 q, smp 0 (q + 1), smp 1 q, smp 1 (q + 1)]
      let order := match cxCfa b with
        | 0 => (0, 1, 2, 3)
        | 1 => (1, 0, 3, 2)
        | 2 => (2, 0, 3, 1)
        | _ => (3, 1, 2, 0)
      let (r, g1, g2, bl) := order
      [cells.map fun c => cell c r 0, cells.map fun c => (cell c g1 0 + cell c g2 0 + 1) / 2, cells.map fun c => cell c bl 0]
  channels.map fun l => l.map scale

/-- A camera line's packets fit the layout (R252, R254): their number, the context's data type, one length for all, at most 8,192 samples and
enough for the region of interest. DEDUCED: what a wrong length is (log 22). -/
def lineFits (b : List Byte) (ps : List CsiPacket) : Bool :=
  let count := match cxLayout b with
    | 0 => 1
    | 1 => 3
    | _ => 2
  let need := (cxX0 b + cxWidth b) * (if cxLayout b = 2 then 2 else 1)
  let len := ((ps.head?).map fun p => p.samples.length).getD 0
  ps.length == count && decide (need ≤ len ∧ len ≤ 8192) &&
  ps.all fun p => p.type == (if cxRaw12 b then 0x2C else 0x2B) && p.samples.length == len

/-- A trigger belongs to the port as it now runs, not to a context under which it ran before a restart or its end (R258). -/
def ofPort (k : Nat) (t : CamTrig) (s : State) : Bool := match (s.cam k).seg with
  | some g => cxPort g.ctx == cxPort t.seg.ctx
  | none => false

/-- A good line came (R254): the camera streams, and one that was LOST is up again. While the port restarts, a line of the context before it does not
end the restart (R258). -/
def lineGood (k : Nat) (t : CamTrig) (s : State) : State :=
  let c := s.cam k
  if c.seg.isNone then s else
    let own := ofPort k t s
    let s1 := setCam k (fun c => { c with
      st := if own then .stream else if c.st = .lost then .sync else c.st, quiet := c.quiet && !own, missRun := 0 }) s
    if c.st = .lost then event { ev := .cameraUp, source := 0x20 + k, p0 := w32 k } s1 else s1

/-- A line is missing (R254, R258): no sticky bit of its own while the port restarts; the 16th in a row loses the camera. -/
def lineMissing (k : Nat) (t : CamTrig) (s : State) : State :=
  let c := s.cam k
  let s1 := setCam k (fun c => { c with linesMissing := satAdd c.linesMissing 1, missRun := min 16 (c.missRun + 1) }) s
  let s2 := if c.quiet && ofPort k t s then s1 else stickRec (source := 0x20 + k) .lineMissing s1
  if c.seg.isSome ∧ c.missRun + 1 = 16 ∧ c.st ≠ .lost then
    stickEvent .cameraLost { ev := .cameraLost, source := 0x20 + k, p0 := w32 k } (setCam k (fun c => { c with st := .lost }) s2)
  else s2

/-- What is counted in a CSI-2 frame on the port's virtual channel, whatever becomes of it (R251, R284): packets of other data types, which are
discarded, and header ECC corrections. -/
def countPackets (k : Nat) (ps : List CsiPacket) (s : State) : State :=
  setCam k (fun c => { c with
    otherTypes := satAdd c.otherTypes (countIf ps fun p => p.type != 0x2B && p.type != 0x2C)
    csiCorrected := satAdd c.csiCorrected (countIf ps CsiPacket.corrected) }) s

/-- CSI_LINE_RX (R251 to R254, R258, R261, R277): one CSI-2 frame on a virtual channel; `early` says that its FS came before the trigger
that it would be paired with, which after a missing line makes it a part to be discarded. A packet whose header cannot be corrected or whose payload CRC
fails makes the line bad, whatever its data type. -/
def execCsiLineRx (camera vc : Fin 4) (early : Bool) (packets : List CsiPacket) (s : State) : Host.Outcome State Fault Refusal :=
  let k : Nat := camera
  let c := s.cam k
  .next (match c.trigs with
    | [] => if c.seg.isSome ∧ (vc : Nat) = cxVc (camCtx k s) then countPackets k packets s else s
    | t :: _ =>
      let b := t.seg.ctx
      if (vc : Nat) ≠ cxVc b then s
      else if c.skipPart ∧ early then countPackets k packets s
      else
        let known := packets.filter fun p => p.type == 0x2B || p.type == 0x2C
        let s1 := setCam k (fun c => { c with skipPart := false }) (countPackets k packets s)
        if packets.all (·.good) && lineFits b known then takeLine k (some (formPixels b known)) (lineGood k t s1)
        else if c.quiet && ofPort k t s then takeLine k none (lineMissing k t s1)
        else takeLine k none (stickRec (source := 0x20 + k) .lineBad (setCam k (fun c => { c with linesBad := satAdd c.linesBad 1, missRun := 0 }) s1)))

/-- CAMERA_LINE_TIMEOUT (R254): LINE_TIMEOUT after the oldest trigger with no FE. -/
def execCameraLineTimeout (camera : Fin 4) (s : State) : Host.Outcome State Fault Refusal :=
  let k : Nat := camera
  .next (match (s.cam k).trigs with
    | [] => s
    | t :: _ =>
      if s.pos.mono.toNat < t.fired + 1000 * fld (objWord t.seg.ctx 8) 20 12 then s
      else takeLine k none (lineMissing k t (setCam k (fun c => { c with skipPart := true }) s)))

/-! ## Scheduling (R276) -/

/-- The WAITING frames: deadline, PRIORITY, camera, buffer. -/
def waitingFrames (s : State) : List (Nat × Nat × Nat × Nat) :=
  (List.range 4).flatMap fun k => (List.range 2).filterMap fun b =>
    let c := s.cam k
    if cell c.bufs b .free = .waiting then
      let f := cell c.frames b {}
      some (f.deadline, cxPriority f.ctx, k, b)
    else none

/-- Earlier deadline, then higher PRIORITY, then lower camera number. -/
def before (x y : Nat × Nat × Nat × Nat) : Bool :=
  decide (x.1 < y.1 ∨ (x.1 = y.1 ∧ (x.2.1 < y.2.1 ∨ (x.2.1 = y.2.1 ∧ x.2.2.1 < y.2.2.1))))

/-- Opal has switched to camera k (R276): 512 ISP clocks after a frame of another camera. -/
def switched (k : Nat) (s : State) : Bool := match s.insp.lastDone with
  | some (j, t) => j == k || decide (t + 1024 ≤ s.pos.mono.toNat)
  | none => true

/-- OPAL_FRAME_START (R261, R276): Opal is free and begins the first of the WAITING frames. -/
def execOpalFrameStart (s : State) : Host.Outcome State Fault Refusal :=
  let first := (waitingFrames s).foldl (fun best x => match best with
    | none => some x
    | some y => if before x y then some x else some y) (none : Option (Nat × Nat × Nat × Nat))
  .next (match s.insp.running, first with
    | none, some (_, _, k, b) =>
      if !switched k s then s else
      let s1 := setCam k (fun c => { c with bufs := upd c.bufs b (fun _ => .processing) }) s
      { s1 with insp := { s1.insp with running := some (k, b), since := s.pos.mono.toNat } }
    | _, _ => s)

/-! ## The stages (R263 to R267) -/

/-- A stage's output (R263). -/
def clamp16 (x : Int) : Nat := (clampI 0 65535 x).toNat

/-- Spatial noise reduction of one channel of a camera line (R264). -/
def spatial (thresh : Nat) (x : List Nat) : List Nat :=
  x.zipIdx.map fun (v, i) =>
    let taps := ([(0, 1), (1, 2), (2, 4), (3, 2), (4, 1)] : List (Nat × Nat)).filterMap fun (d, w) =>
      if i + d < 2 then none else match x[i + d - 2]? with
        | some u => if u ≤ v + thresh ∧ v ≤ u + thresh then some (w, w * u) else none
        | none => none
    let W := (taps.map (·.1)).sum
    ((taps.map (·.2)).sum + W / 2) / W

/-- Temporal noise reduction of one value (R265). -/
def temporal (alpha thresh : Nat) (z x : Nat) : Nat :=
  if x > z + thresh ∨ z > x + thresh then x else clamp16 ((z : Int) + (((x : Int) - z) * alpha + 8) / 16)

/-- Shading gain of pixel p, u2.14 (R256). -/
def shading (b : List Byte) (p : Nat) : Nat :=
  let w := objWord b 22
  let e := p / 2 ^ fld w 14 2
  if e < fld w 0 13 then le16 b (1024 + 2 * e) else 16384

/-- Knot j of the linearisation table of channel c (R256). -/
def linKnot (b : List Byte) (c j : Nat) : Nat := le16 b (256 + 4 * (33 * c + j))

/-- Linearisation with shading gain (R266). DEDUCED: the product is held to 65,535 before the table (log 22). -/
def linearise (b : List Byte) (c p x : Nat) : Nat :=
  let v := min 65535 ((x * shading b p + 8192) / 16384)
  let i := v / 2048
  let f := v % 2048
  clamp16 ((linKnot b c i : Int) + (((linKnot b c (i + 1) : Int) - linKnot b c i) * f + 1024) / 2048)

/-- Half h of the words from `first` on, signed 16-bit. -/
def halfAt (b : List Byte) (first h : Nat) : Int := sx 16 (le16 b (4 * first + 2 * h))

/-- The colour matrix (R267). -/
def colour (b : List Byte) (x : List Nat) : List Nat :=
  (List.range 3).map fun i =>
    let sum := ((List.range 3).map fun j => halfAt b 11 (3 * i + j) * (cell x j 0 : Int)).sum
    clamp16 ((sum + 2048) / 4096 + halfAt b 16 i)

/-- Output channels in use: one for MONO, which has no matrix (R267). -/
def channelsOf (b : List Byte) : Nat := if cxLayout b = 0 then 1 else 3

/-- Stages 1 to 4 of a good camera line: the temporal state after it, and the output channels. -/
def stageLine (b : List Byte) (z : Option (List (List Nat))) (x : List (List Nat)) : List (List Nat) × List (List Nat) :=
  let n := channelsOf b
  let snr := fld (objWord b 9) 0 16
  let alpha := fld (objWord b 10) 0 5
  let thresh := fld (objWord b 10) 16 16
  let s1 := (x.take n).map (spatial snr)
  let s2 := match z with
    | none => s1
    | some z => (List.zip z s1).map fun (a, c) => (List.zip a c).map fun (u, v) => temporal alpha thresh u v
  let s3 := s2.zipIdx.map fun (l, c) => l.zipIdx.map fun (v, p) => linearise b c p v
  if n = 1 then (s2, s3) else
    let px := (List.range (cxWidth b)).map fun p => colour b (s3.map fun l => cell l p 0)
    (s2, (List.range 3).map fun c => px.map fun v => cell v c 0)

/-- Stages 1 to 4 of a frame (R263 to R267): the output channels of every good line, and the temporal state with whether the next good line
restarts. -/
def stageFrame (b : List Byte) (lines : List (Option (List (List Nat)))) (z : Option (List (List Nat))) :
    List (Option (List (List Nat))) × Option (List (List Nat)) :=
  lines.foldl (fun (acc : List (Option (List (List Nat))) × Option (List (List Nat))) l => match l with
    | none => (acc.1 ++ [none], none)
    | some x =>
      let (z1, o) := stageLine b acc.2 x
      (acc.1 ++ [some o], some z1)) ([], z)

/-! ## Statistics (R268) -/

/-- Histogram, zone means and frame means of a frame. -/
def statsOf (b : List Byte) (out : List (Option (List (List Nat)))) : FrameStats :=
  let n := channelsOf b
  let good := out.filterMap id
  let w := cxWidth b
  let zx := fld (objWord b 19) 0 7
  let zy := fld (objWord b 19) 8 3
  let chan := fun (c : Nat) => good.flatMap fun l => cell l c []
  let zone := fun (c y x : Nat) =>
    let lines := ((out.take ((y + 1) * out.length / zy)).drop (y * out.length / zy)).filterMap id
    let vals := lines.flatMap fun l => ((cell l c []).take ((x + 1) * w / zx)).drop (x * w / zx)
    (meanOf vals.sum vals.length, vals.length)
  { hist := (List.range n).map fun c => (List.range 1024).map fun bin => countIf (chan c) fun v => v / 64 == bin
    zones := (List.range n).map fun c => (List.range zy).map fun y => (List.range zx).map fun x => zone c y x
    pixels := (chan 0).length
    means := (List.range n).map fun c => meanOf (chan c).sum (chan c).length }

/-! ## Alignment (R270) -/

/-- Normalised cross-correlation of pairs, in units of 2⁻⁴⁰; 0 where either side does not vary. DEDUCED: about the means, and that
precision (log 22). -/
def ncc (l : List (Int × Int)) : Int :=
  let n : Int := l.length
  let sa := (l.map (·.1)).sum
  let st := (l.map (·.2)).sum
  let saa := (l.map fun x => x.1 * x.1).sum
  let stt := (l.map fun x => x.2 * x.2).sum
  let sat := (l.map fun x => x.1 * x.2).sum
  let num := n * sat - sa * st
  let den := (n * saa - sa * sa) * (n * stt - st * st)
  if den = 0 then 0 else num.sign * (Nat.sqrt ((num * num * 2 ^ 80 / den).toNat) : Int)

/-- The pairs that both images hold at a shift (R270): measurement pixel p of line j against reference pixel p - dx of line j - dy, as R271
maps them. -/
def pairsAt (meas : List (Option (List Nat))) (refs : List (List Nat)) (dx dy : Int) : List (Int × Int) :=
  meas.zipIdx.flatMap fun (l, j) => match l with
    | none => []
    | some v => if (j : Int) - dy < 0 then [] else match refs[((j : Int) - dy).toNat]? with
      | none => []
      | some r => (v.zipIdx.filterMap fun (x, p) =>
        if (p : Int) - dx < 0 then none else (r[((p : Int) - dx).toNat]?).map fun t => (65535 - (x : Int), (t : Int)))

/-- The vertex of the parabola through three scores, in sixteenths from the middle one, an exact half up (R270). -/
def vertex (a m c : Int) : Int :=
  let d := a - 2 * m + c
  if d = 0 then 0 else ratRound ((8 * (a - c) : Int) / (d : Rat))

/-- What alignment finds: DX, DY, CONF and whether it is held. Of equal peaks a free value says which is taken. -/
def align (b : List Byte) (dx0 dy0 : Int) (meas : List (Option (List Nat))) (refs : List (List Nat)) (free : Nat) : Int × Int × Nat × Bool :=
  let sx_ := fld (objWord b 20) 0 4
  let sy := fld (objWord b 20) 4 3
  let cx := roundHalfUp dx0 16
  let cy := roundHalfUp dy0 16
  let score := fun (x y : Int) => ncc (pairsAt meas refs x y)
  let all := (List.range (2 * sy + 1)).flatMap fun y => (List.range (2 * sx_ + 1)).map fun x =>
    let px := cx + x - sx_
    let py := cy + y - sy
    (score px py, px, py)
  let peak := (all.map (·.1)).foldl max ((all.head?.map (·.1)).getD 0)
  let best := all.filter fun x => x.1 == peak
  let (_, bx, by_) := cell best (Config.freeNat free % max 1 best.length) (0, 0, 0)
  let conf := (ratRound ((1023 * max 0 peak : Int) / (2 ^ 40 : Rat))).toNat
  let flat := match refs.flatten with
    | [] => true
    | r :: rs => rs.all (· == r)
  let edge := (bx - cx).natAbs == sx_ || (by_ - cy).natAbs == sy
  let hold := decide (conf < cxAlignMin b) || edge || flat
  if hold then (dx0, dy0, conf, true)
  else (16 * bx + vertex (score (bx - 1) by_) peak (score (bx + 1) by_), 16 * by_ + vertex (score bx (by_ - 1)) peak (score bx (by_ + 1)), conf, false)

/-! ## A frame ends (R268 to R272, R281 to R283, R290) -/

/-- The bytes INSP_CAPTURE copies (R290): three channels per pixel, a bad line as zeros. -/
def captureBytes (b : List Byte) (lines : List (Option (List (List Nat)))) : List Byte :=
  lines.flatMap fun l => (List.range (cxWidth b)).flatMap fun p => (List.range 3).flatMap fun c =>
    bytesLE 2 (match l with
      | some x => cell (cell x c []) p 0
      | none => 0)

/-- A capture whose frame has been processed (R290); it completes with HW_FAULT while the DMA engines stand still (R35). -/
def captureDone (k : Nat) (f : CamFrame) (out : List (Option (List (List Nat)))) (s : State) : State :=
  match s.insp.capture with
  | none => s
  | some j =>
    if j.cam ≠ k ∨ f.lineAt 0 < j.start then s else
      let bytes := captureBytes f.ctx (if j.matrix then out else f.lines)
      let s1 : State := { s with insp := { s.insp with capture := none } }
      if s.host.busMaster then complete 0x0704 j.tag 0 0 0 0 (emit (.dmaWrite j.addr bytes) s1) else complete 0x0704 j.tag 0x30 0 0 0 s1

/-- What a processed frame adds to its pages (R278, R282, R283). -/
def framePages (k : Nat) (f : CamFrame) (meas : List (Option (List Nat))) (st : FrameStats) (s : State) : State :=
  let per := cxPerCam f.ctx
  (pagesWithin (f.lineAt 0) f.endLine s).foldl (fun s p =>
    let parts := meas.zipIdx.map fun (l, i) => (l, p.within (f.lineAt i) (f.lineAt i + per))
    let bad := if f.trig.late then (parts.map (·.2)).sum else ((parts.filter fun x => x.1.isNone).map (·.2)).sum
    let good := (parts.map (·.2)).sum - bad
    let vals := (parts.filter fun x => decide (0 < x.2)).flatMap fun x => x.1.getD []
    let s1 := setQual p.uid k (fun q => { q.sawFrame f with
      insp := q.insp + good, notInsp := q.notInsp + bad, frames := q.frames + 1, holds := q.holds + b2n st.hold
      dxSum := q.dxSum + st.dx, dySum := q.dySum + st.dy, aligned := q.aligned + 1
      measSum := q.measSum + vals.sum, measCnt := q.measCnt + vals.length }) s
    if bad = 0 then s1 else setPage p.uid (fun x => { x with notInsp := true }) s1) s

/-- ALIGN_HOLD (R270, R285): the bit, and event 0x0705 once per page. -/
def noteHold (k : Nat) (f : CamFrame) (s : State) : State :=
  let e : Event := { ev := .alignHold, source := 0x20 + k, p0 := w32 k, p1 := f.trig.index }
  match pagesWithin (f.lineAt 0) f.endLine s with
  | [] => stickRec (source := 0x20 + k) .alignHold s
  | ps => ps.foldl (fun s p => oncePerPage 3 .alignHold e (some p) s) s

/-- A frame has run through the stages. The lines of a frame that R82 shuts out give no calibration data (R278). -/
def finishFrame (k b : Nat) (f : CamFrame) (s : State) : State :=
  let c := s.cam k
  let ctx := f.ctx
  let g := f.trig.seg
  let restart := f.restart || c.tnrRestart || f.trig.j == 0
  let (out, z) := stageFrame ctx f.lines (if restart then none else some c.tnr)
  let meas := out.map fun l => l.map fun x => cell x (if cxLayout ctx = 0 then 0 else cxMeasCh ctx) []
  let refs := (List.range f.n).map fun i => refLine g (f.trig.j + i) s
  let same := c.alignEpoch == g.epoch
  let last := if same then (c.dx, c.dy) else if c.oldAlign.1 = g.epoch then c.oldAlign.2 else (0, 0)
  let (dx, dy, conf, hold) := align ctx last.1 last.2 meas refs s.free
  let st := { statsOf ctx out with hold := hold, dx := dx, dy := dy, conf := conf }
  let s1 := setCam k (fun c => { c with
    dx := if same then dx else c.dx, dy := if same then dy else c.dy, oldAlign := if same then c.oldAlign else (g.epoch, dx, dy)
    conf := conf, tnr := z.getD c.tnr, tnrRestart := z.isNone
    bufs := upd c.bufs b (fun _ => .free), framesDone := satAdd c.framesDone 1, frameIndex := f.trig.index }) { s with free := s.free + 1 }
  let now := s.pos.mono.toNat
  let s2 := { s1 with insp := { s1.insp with
    running := none, lastDone := some (k, now), busy := (s.insp.since, now) :: s.insp.busy.filter fun x => decide (now < x.2 + 1000000) } }
  let s3 := if hold then noteHold k f s2 else s2
  let trusted := s.cal.cameraMask.getLsbD k && c.st != .lost && !hold && decide (cxAlignMin ctx ≤ conf) && !f.trig.late
  let x : Measured := { cam := k, frame := f, meas := if f.trig.late then meas.map fun _ => none else meas, refs := refs, dx := dx, dy := dy, trusted := trusted }
  let s4 := captureDone k f out (writeStats k f false st s3)
  reportPages k f.endLine (framePages k f meas st (calFrame x s4))

/-- OPAL_FRAME_DONE. -/
def execOpalFrameDone (s : State) : Host.Outcome State Fault Refusal :=
  .next (match s.insp.running with
    | none => s
    | some (k, b) => finishFrame k b (cell (s.cam k).frames b {}) s)

/-! ## View (R284) -/

/-- INSP_UTIL. -/
def inspUtil (s : State) : Nat :=
  let now := s.pos.mono.toNat
  let all := (match s.insp.running with
    | some _ => [(s.insp.since, now)]
    | none => []) ++ s.insp.busy
  let part := (all.map fun (a, b) => min b now - max a (now - 1000000)).sum
  min 1023 (part * 1023 / 1000000)

/-- Code of a camera state. -/
def CamState.code : CamState → Nat
  | .off => 0 | .sync => 1 | .stream => 2 | .lost => 3

/-- Code of a buffer state. -/
def BufState.code : BufState → Nat
  | .free => 0 | .filling => 1 | .waiting => 2 | .processing => 3

/-- A camera's registers at 0x00 to 0x20. -/
def camView (c : Cam) : List Word :=
  [w32 (c.st.code + 16 * (cell c.bufs 0 .free).code + 64 * (cell c.bufs 1 .free).code + 65536 * c.expSet.toNat),
   c.frameIndex, c.framesDone, c.framesDropped, c.linesBad, c.linesMissing,
   (wInt c.dx &&& 0xFFFF) ||| ((wInt c.dy &&& 0xFFFF) <<< 16), w32 c.conf, c.csiCorrected]

/-- Load of R262 of the cameras a set of objects configures, pixels/s × LINES_PER_CAM cleared by truncation at the end. -/
def camLoad (objs : List Obj) : Rat :=
  ((List.range 4).map fun k => match ctxIn objs k with
    | some b => ((cxWidth b * 236220 : Nat) : Rat) / (cxPerCam b : Rat)
    | none => 0).sum

/-- INSP_LOAD: 10⁶ pixels/s, truncated. -/
def loadWord (objs : List Obj) : Word := wInt (ratFloor (camLoad objs / 1000000))

/-! ## Content checks (R291) -/

/-- What a word of the field block may hold (R255). -/
def ctxMasks : List Word := [0x7FF, 0x1FFF, 0x3FFF3FFF, 0x73F7F, 0xFFFFFFFF, 0x3FFFF, 0xFFFFFFFF, 0xFFFFF, 0xFFF103FF, 0xFFFF, 0xFFFF001F,
  0xFFFFFFFF, 0xFFFFFFFF, 0xFFFFFFFF, 0xFFFFFFFF, 0xFFFF, 0xFFFFFFFF, 0xFFFF, 0x3, 0x77F, 0x3FF007F, 0xFF7F, 0xDFFF]

/-- The checks of word i of the field block, in the order of the subcodes. -/
def ctxWord (b : List Byte) (i : Nat) : Option Nat :=
  let w := objWord b i
  let out := fun (x lo hi : Nat) => decide (x < lo ∨ hi < x)
  firstCode ((w &&& ~~~ (ctxMasks.getD i 0) != 0, 0x0C01) :: match i with
    | 0 => [(cxLayout b == 3 || out (fld w 8 3) 1 4, 0x0C02)]
    | 1 => [(out (fld w 0 13) 80 4500, 0x0C02)]
    | 2 => [(out (cxWidth b) 1 8192 || decide (cxX0 b + cxWidth b > if cxLayout b = 2 then 4096 else 8192), 0x0C03)]
    | 3 => [(out (cxFrameLines b) 16 64 || cxPerCam b == 0, 0x0C03), (cxLatency b == 0, 0x0C05)]
    | 8 => [(out (fld w 0 10) 10 1000 || out (fld w 20 12) 1 1000, 0x0C05)]
    | 10 => [(out (fld w 0 5) 1 16, 0x0C05)]
    | 18 => [(cxLayout b == 0 && cxMeasCh b != 0, 0x0C02), (cxMeasCh b == 3, 0x0C05)]
    | 19 => [(out (fld w 0 7) 1 64 || out (fld w 8 3) 1 4, 0x0C05)]
    | 20 => [(out (fld w 0 4) 0 8 || out (fld w 4 3) 0 4, 0x0C05)]
    | 21 => [(fld w 8 2 == 3, 0x0C05), (decide (cxScriptLen b > 32), 0x0C06)]
    | 22 => [(decide (fld w 0 13 > 7680) || fld w 14 2 == 3, 0x0C05)]
    | _ => [])

/-- CAMERA_CONTEXT, by ascending byte offset and then the object as a whole (R291, R581); `overload` says that the cameras configured up to
this one exceed R262. DEDUCED: subcode 0x0C05 for LATENCY (log 22). -/
def checkContext (b : List Byte) (overload : Bool) : Option Nat :=
  let entries := fld (objWord b 22) 0 13
  match firstIn 64 (ctxWord b) with
  | some c => some c
  | none => firstCode [
      ((List.range 99).any (fun i => fld (objWord b (64 + i)) 16 16 != 0) || ((b.take 768).drop 652).any (· != 0) ||
        (List.range 32).any (fun i => fld (objWord b (192 + 2 * i)) 18 14 != 0 || fld (objWord b (193 + 2 * i)) 16 16 != 0) ||
        (b.drop (1024 + 2 * entries)).any (· != 0), 0x0C01),
      (decide (cxFrameLines b * cxWidth b > 262144), 0x0C03), (overload, 0x0C04),
      (b.length != 1024 + 1024 * ((2 * entries + 1023) / 1024), 0x0C05)]

/-! ## Commands (R286 to R290) -/

/-- INSP_GET_STATUS. -/
def execInspGetStatus (slot : Fin 16) (s : State) : Host.Outcome State Fault Refusal :=
  .next (command 0x0700 1 slot (fun s ws => [reservedW ws 0 0x103, notBoot s])
    (fun _ ws s =>
      let k := fld (wd ws 0) 0 2
      let s1 := if flag (wd ws 0) 8 then setCam k (fun c => { c with
          framesDone := 0, framesDropped := 0, linesBad := 0, linesMissing := 0, csiCorrected := 0 }) s else s
      done (s1, okWith (camView (s.cam k)))) s)

/-- INSP_RING_CONFIG. -/
def execInspRingConfig (slot : Fin 16) (s : State) : Host.Outcome State Fault Refusal :=
  .next (command 0x0701 5 slot
    (fun s ws => [reservedW ws 0 0x101, (wn ws 1 % 4096 != 0, badParam 1), reservedW ws 3 0xF,
      (decide (fld (wd ws 3) 0 4 < 4 ∨ fld (wd ws 3) 0 4 > 10), badParam 3), reservedW ws 4 0xFF, (camsConfigured s != 0, busy)])
    (fun _ ws s =>
      let r : InspRing := { enabled := flag (wd ws 0) 8, base := BitVec.ofNat 64 (wn64 ws 1), sizeLog2 := fld (wd ws 3) 0 4, irqCount := fld (wd ws 4) 0 8 }
      done (if flag (wd ws 0) 0 then { s with insp := { s.insp with qual := r } } else { s with insp := { s.insp with stats := r } }, ok)) s)

/-- Camera k is configured (R255). -/
def configured (k : Nat) (s : State) : Bool := (camsConfigured s).getLsbD k

/-- The script of an INSP_SET_EXPOSURE. -/
def setScript (ws : List Word) : List (Word × Word) :=
  (List.range (fld (wd ws 0) 8 5)).map fun i => (wd ws (1 + 2 * i), wd ws (2 + 2 * i))

/-- INSP_SET_EXPOSURE. -/
def execInspSetExposure (slot : Fin 16) (s : State) : Host.Outcome State Fault Refusal :=
  .next (command 0x0702 3 slot
    (fun s ws =>
      let k := fld (wd ws 0) 0 2
      let n := fld (wd ws 0) 8 5
      let held := s.cg.groups.any fun g => (g.st == .armed || g.st == .locked) && (objOf g.objs 12 k).isSome
      [reservedW ws 0 0x1F03, (decide (n < 1 ∨ n > 29), badParam 0), (decide (ws.length < 1 + 2 * n), badParam 0xFFFF)] ++
      (List.range n).flatMap (fun i => [reservedW ws (1 + 2 * i) 0x3FFFF, reservedW ws (2 + 2 * i) 0xFFFF]) ++
      [(!(s.cam k).sets.isEmpty || held, busy), (!configured k s, badState), completionsFull s])
    (fun tag ws s =>
      let k := fld (wd ws 0) 0 2
      let id := nextId (s.cam k).lastId
      let e : ExpSet := { id := id, tag := some tag, script := setScript ws, bus := cxBus (camCtx k s) }
      done (outstand 0x0702 tag k (setCam k (fun c => { c with sets := c.sets ++ [e], lastId := id }) s), accepted)) s)

/-- INSP_I2C_XFER: `reason` is 0 or the reason of a failure, `bytes` what the camera returns. While a script entry is being written the transfer waits
for its turn. -/
def execInspI2cXfer (slot : Fin 16) (reason : Fin 4) (bytes : List Byte) (s : State) : Host.Outcome State Fault Refusal :=
  .next (command 0x0703 9 slot
    (fun s ws =>
      let w := wd ws 0
      [reservedW ws 0 0x3FFF7F03, (decide (fld w 16 2 = 3 ∨ fld w 18 6 > 32 ∨ fld w 24 6 > 32), badParam 0), notBoot s])
    (fun _ ws s =>
      let w := wd ws 0
      let k := fld w 0 2
      let j : XferJob := { slot := slot, cam := k, bus := (fld w 16 2, fld w 8 7), write := (wordBytes (ws.drop 1)).take (fld w 18 6), read := fld w 24 6
                           reason := reason, bytes := bytes }
      if writingSet k s then ({ s with insp := { s.insp with xfer := some j } }, none)
      else done (runXfer j s, j.ans)) s)

/-- INSP_CAPTURE. DEDUCED: LATE is the status of the completion, and of an EPOCH that has not begun BAD_PARAM (log 22). -/
def execInspCapture (slot : Fin 16) (s : State) : Host.Outcome State Fault Refusal :=
  .next (command 0x0704 6 slot
    (fun s ws =>
      let k := fld (wd ws 0) 0 2
      let b := camCtx k s
      [reservedW ws 0 0x103, ((namedLine (wd ws 1) (wd ws 2) s).isNone && decide (s.cg.epochNow < wd ws 1), badParam 1),
       (wn ws 3 % 4096 != 0, badParam 3), (configured k s && decide (wn ws 5 < 6 * cxWidth b * cxFrameLines b), badParam 5),
       (s.insp.capture.isSome, busy), (!configured k s, badState), completionsFull s])
    (fun tag ws s =>
      let k := fld (wd ws 0) 0 2
      let c := s.cam k
      let s1 := outstand 0x0704 tag k s
      match namedLine (wd ws 1) (wd ws 2) s with
      | none => done (complete 0x0704 tag 0x21 0 0 0 s1, accepted)
      | some a =>
        if c.frameSeq ≠ 0 ∧ a ≤ c.lastBegun then done (complete 0x0704 tag 0x21 0 0 0 s1, accepted)
        else
          let j : CapJob := { tag := tag, cam := k, matrix := flag (wd ws 0) 8, start := a, addr := wn64 ws 3 }
          done ({ s1 with insp := { s1.insp with capture := some j } }, accepted)) s)

end Sys2Proof.Machine
end

