-- ==== Sys2Proof/Machine/Cal.lean ====
section
/-!
DEFINITION. Calibration from live content: solving (R301 to R303), classifying (R304, R305), energy codes (R194, R306), plausibility (R307), results
(R308, R312), clearing at a commit (R299), commands (R313 to R316).
-/
namespace Sys2Proof.Machine

/-! ## Banks and results -/

/-- A calibration event: vector 6 goes with it (R314). -/
def calEvent (e : Event) (s : State) : State := sendVec 6 (event e s)

/-- The same with its sticky bit. -/
def calStickEvent (k : Sticky) (e : Event) (s : State) : State := sendVec 6 (stickEvent k e s)

/-- The result goes, reported by no event (R308). -/
def discardResult (s : State) : State :=
  mergeBack { s with cal := { s.cal with result := .none, res := none } }

/-- Modules a result changes. -/
def CalRes.modules (r : CalRes) : List Nat := (r.objs.map (·.target)).dedup

/-- A READY result that changes one of some modules goes (R308). -/
def discardIf (mods : List Nat) (s : State) : State :=
  match s.cal.result, s.cal.res with
  | .ready, some r => if r.modules.any mods.contains then discardResult s else s
  | _, _ => s

/-! ## Clearing at a commit (R295, R299) -/

/-- The modules whose accumulators a group clears. -/
def clearedBy (objs inForce : List Obj) (modules : Nat) : List Nat :=
  let slot := tileSlot (mergeObjs objs inForce)
  let all := objs.any fun o => [1, 8, 6, 5, 12, 13].contains o.kind || (o.kind == 4 && o.target == slot)
  if all then List.range 16 else
    (List.range (max 16 modules)).filter fun m => objs.any fun o => [3, 7, 9, 10, 11].contains o.kind && o.target == m

/-- The cameras whose white estimates a group makes invalid (R295): those of its CAMERA_CONTEXT objects, and those that the chains of its
ILLUM_LEVELS light before or after it. -/
def whiteCleared (objs inForce : List Obj) : List Nat :=
  let lit := fun (k chain : Nat) => match objOf inForce 13 chain with
    | some b => lvCamera b == k
    | none => false
  (List.range 4).filter fun k => objs.any fun o => (o.kind == 12 && o.target == k) || (o.kind == 13 && (lvCamera o.bytes == k || lit k o.target))

/-- What a commit at image line lc does to calibration: `objs` is the group, without its JOB_START. -/
def calCommit (objs : List Obj) (lc : Nat) (s : State) : State :=
  let mods := clearedBy objs s.cg.inForce s.cg.modules
  let cams := whiteCleared objs s.cg.inForce
  let s1 := clearSums mods s
  let s2 := { s1 with cal := { s1.cal with
    clearBelow := s1.cal.clearBelow.zipIdx.map fun (x, m) => if mods.contains m then lc else x
    white := s1.cal.white.zipIdx.map fun (w, k) => if cams.contains k then [] else w
    whiteFrom := s1.cal.whiteFrom.zipIdx.map fun (x, k) => if cams.contains k then lc else x } }
  discardIf mods s2

/-! ## Solving curves (R301, R302) -/

/-- The lower middle value of a list; none of nothing. -/
def medianRat (l : List Rat) : Option Rat :=
  let xs := l.mergeSort fun a b => decide (a ≤ b)
  xs[(xs.length - 1) / 2]?

/-- round(16,384 × q), halves up. -/
def r14 (q : Rat) : Int := ratRound (16384 * q)

/-- What the solve knows of a column: its bands that pass, with SUM_W and r14, whether a band was out of range, and its pooled ratio. -/
structure ColFit where
  /-- Column. -/
  col : Nat
  /-- Bands that pass: band, SUM_W, r14. -/
  bands : List (Nat × Rat × Int)
  /-- An outlier column. -/
  outlier : Bool
  /-- It has data. -/
  data : Bool
  /-- Pooled ratio. -/
  pooled : Option Int

/-- Bands of a column with MIN_SAMPLES (step 1): band, SUM_W, Q, SUM_A, SUM_E. DEDUCED: an entry with SUM_E 0 forms no Q (log 23). -/
def bandsOf (c : Cal) (bank : CalBank) (col : Nat) : List (Nat × Rat × Rat × Rat × Rat) :=
  (List.range 16).filterMap fun b => match find? bank.cols (col, b) with
    | some x => if x.w ≥ c.minSamples ∧ x.e ≠ 0 then some (b, x.w, x.a / x.e, x.a, x.e) else none
    | none => none

/-- Steps 1 to 4 for every fitted column. DEDUCED: the pooled ratio is formed as step 3 forms r14, from the sums of a column's bands that pass
and, for RELATIVE, the median of those quotients (log 23). -/
def fitColumns (c : Cal) (bank : CalBank) (modules : Nat) : List ColFit :=
  let raw := (List.range (modules * colsPer)).map fun col => (col, bandsOf c bank col)
  let med := fun (b : Nat) => (medianRat (raw.flatMap fun x => (x.2.filter fun y => y.1 == b).map fun y => y.2.2.1)).getD 1
  let meds := (List.range 16).map med
  let ratio := fun (q m : Rat) => r14 (if c.absolute then q else if m = 0 then 0 else q / m)
  let fits : List (Nat × List (Nat × Rat × Int) × Bool × Bool × Option Rat) := raw.map fun (col, bs) =>
    let rs : List (Nat × Rat × Int × Rat × Rat) := bs.map fun (b, w, q, a, e) => (b, w, ratio q (cell meds b 1), a, e)
    let pass := rs.filter fun r => decide (11469 ≤ r.2.2.1 ∧ r.2.2.1 ≤ 22938)
    let sa := (pass.map fun r => r.2.2.2.1).sum
    let se := (pass.map fun r => r.2.2.2.2).sum
    (col, pass.map fun r => (r.1, r.2.1, r.2.2.1), decide (pass.length < rs.length), !bs.isEmpty, if pass.isEmpty ∨ se = 0 then none else some (sa / se))
  let pm := (medianRat (fits.filterMap fun f => f.2.2.2.2)).getD 1
  fits.map fun (col, bands, out, data, q) =>
    { col := col, bands := bands, outlier := out, data := data, pooled := q.map fun q => ratio q pm }

/-- The pooled-ratio median of a module (step 4). -/
def moduleMedian (fits : List ColFit) (m : Nat) : Option Int :=
  let l := ((fits.filter fun f => f.col / colsPer == m).filterMap (·.pooled)).mergeSort fun a b => decide (a ≤ b)
  l[(l.length - 1) / 2]?

/-- A module outlier (step 4). -/
def moduleOut (fits : List ColFit) (m : Nat) : Bool := match moduleMedian fits m with
  | some x => decide (x < 13107 ∨ x > 20480)
  | none => false

/-- The knot ratio r(c, j) (step 5). -/
def knotRatio (f : ColFit) (j : Nat) : Option Int :=
  let bs := f.bands.filter fun b => if j = 16 then b.1 == 15 else b.1 + 1 == j || b.1 == j
  let w := (bs.map fun b => b.2.1).sum
  if bs.isEmpty ∨ w = 0 then none else some (ratRound ((bs.map fun b => b.2.1 * (b.2.2 : Rat)).sum / w))

/-- The new curve of a column (R302); K is the curve in force. -/
def newCurve (c : Cal) (f : ColFit) (K : Nat → Nat) : List Nat :=
  (List.range 16).foldl (fun (acc : List Nat) i =>
    let j := i + 1
    let d : Int := match knotRatio f j with
      | some r => if r ≤ 0 then 0 else
        clampI (-(c.maxKnotStep : Int)) c.maxKnotStep (ratRound (((c.gain * K j : Nat) : Int) * (16384 - r) / (256 * r : Rat)))
      | none => 0
    acc ++ [max (clampI 0 0x28000 ((K j : Int) + d)).toNat (acc.getLastD 0)]) [0]

/-- The TONE_CURVE object of a module from the curves of its columns. -/
def curveBytes (curves : List (List Nat)) : List Byte := curves.flatMap fun k => k.flatMap fun x => bytesLE 4 x

/-! ## Classifying (R304, R305) -/

/-- The map byte of a nozzle with what is pending. -/
def pendByte (objs : List Obj) (pend : List ((Nat × Nat) × Byte)) (c r : Nat) : Nat :=
  match find? pend (c, r) with
  | some b => b.toNat
  | none => mapByte objs (c / colsPer) (c % colsPer) r

/-- R_cr of a nozzle that meets MIN_NOZZLE. -/
def nozzleR (c : Cal) (bank : CalBank) (col r : Nat) : Option Rat := match find? bank.noz (col, r) with
  | some x => if x.w ≥ c.minNozzle ∧ x.e ≠ 0 then some (x.a / x.e) else none
  | none => none

/-- Z_cr: against the mean of the other live rows of the column that meet MIN_NOZZLE. -/
def nozzleZ (c : Cal) (bank : CalBank) (col r : Nat) (live : List Nat) : Option Rat :=
  let others := (live.filter (· != r)).filterMap fun q => nozzleR c bank col q
  match nozzleR c bank col r with
  | some x => if others.isEmpty ∨ others.sum = 0 then none else some (x * (others.length : Rat) / others.sum)
  | none => none

/-- The new state and cause that the sources of R304 give a nozzle, none for no change. DEDUCED: a finding of DEAD goes before one of WEAK, and otherwise
the first row of the table (log 23). -/
def findState (s : State) (bank : CalBank) (pooled : Option Int) (col r : Nat) (live : List Nat) (byte : Nat) : Option Nat :=
  let m := col / colsPer
  let ohm := find? s.fire.ohms (13056 * m + 4 * (col % colsPer) + r)
  let mid := medianOf ((s.fire.ohms.filter fun x => x.1 / 13056 == m && goodOhm x.2).map (·.2))
  let z := nozzleZ s.cal bank col r live
  let probe := find? s.cal.probed (col, r)
  let low := match z, pooled with
    | some q, some p => decide (q ≤ 3 / 5 ∧ p * (live.length : Int) ≤ 16384 * (live.length : Int) - 5734)
    | _, _ => false
  let bad := match ohm with
    | some v => !goodOhm v
    | none => false
  let off := match ohm with
    | some v => goodOhm v && decide (5 * v < 4 * mid ∨ 4 * v > 5 * mid)
    | none => false
  let weak := match z with
    | some q => decide (3 / 5 < q ∧ q ≤ 17 / 20)
    | none => false
  let back := byte == 9 && (match z with
    | some q => decide (q > 23 / 25)
    | none => false)
  if bad then some 6
  else if (probe.getD 0) ≥ 2 then some 10
  else if low && probe != some 0 then some 10
  else if off then some 5
  else if weak || low then some 9
  else if back then some 0
  else none

/-- What classifying gathers: pending classifications, nozzles newly DEAD and WEAK, columns at risk, and whether one was dropped. -/
structure Found where
  /-- Pending classifications. -/
  pend : List ((Nat × Nat) × Byte)
  /-- Newly DEAD. -/
  dead : Nat := 0
  /-- Newly WEAK. -/
  weak : Nat := 0
  /-- Columns at risk. -/
  risk : List Nat := []
  /-- A classification was dropped. -/
  full : Bool := false

/-- A nozzle's classification joins the pending ones (R305). -/
def Found.take (f : Found) (objs : List Obj) (col r new : Nat) : Found :=
  let old := pendByte objs f.pend col r
  let force := mapByte objs (col / colsPer) (col % colsPer) r
  if new = old then f
  else if new = force then { f with pend := f.pend.filter fun x => x.1 ≠ (col, r) }
  else if (find? f.pend (col, r)).isNone ∧ f.pend.length ≥ 4096 then { f with full := true }
  else { f with pend := put f.pend (col, r) (BitVec.ofNat 8 new)
                dead := f.dead + b2n (new % 4 == 2), weak := f.weak + b2n (new % 4 == 1) }

/-- Rows of a column that are live with what is pending. -/
def rowsLeft (s : State) (f : Found) (col : Nat) : List Nat :=
  (List.range s.cg.rows).filter fun q => liveByte (pendByte s.cg.inForce f.pend col q)

/-- A row's finding joins what is pending: the last live nozzle of a column is not made DEAD by PRINT (R305). -/
def takeFinding (s : State) (col : Nat) (f : Found) (x : Nat × Nat) : Found :=
  if x.2 = 10 ∧ rowsLeft s f col = [x.1] then { (f.take s.cg.inForce col x.1 0) with risk := f.risk ++ [col] }
  else f.take s.cg.inForce col x.1 x.2

/-- A column left with no live nozzle by RESISTANCE keeps one that PRINT had made DEAD and that is not DEAD in force (R305). -/
def keepOne (s : State) (col : Nat) (f : Found) : Found :=
  if !(rowsLeft s f col).isEmpty then f else
    match (List.range s.cg.rows).find? fun r => find? f.pend (col, r) == some 10 && liveByte (mapByte s.cg.inForce (col / colsPer) (col % colsPer) r) with
    | some r => { (f.take s.cg.inForce col r (mapByte s.cg.inForce (col / colsPer) (col % colsPer) r)) with risk := f.risk ++ [col] }
    | none => f

/-- The rows of a column (R304, R305): live rows and k_c are those of the map in force (R158, R293), and a nozzle that waits as DEAD is not classified
again; RESISTANCE findings of DEAD come first. -/
def classifyColumn (s : State) (bank : CalBank) (fits : List ColFit) (f : Found) (col : Nat) : Found :=
  let objs := s.cg.inForce
  let pooled := ((fits[col]?).bind (·.pooled))
  let live := (List.range s.cg.rows).filter fun q => liveByte (mapByte objs (col / colsPer) (col % colsPer) q)
  let found := (List.range s.cg.rows).filterMap fun r =>
    let byte := pendByte objs f.pend col r
    if !liveByte byte then none else (findState s bank pooled col r live byte).map fun new => (r, new)
  let f1 := (found.filter fun x => x.2 == 6).foldl (takeFinding s col) f
  (found.filter fun x => x.2 != 6).foldl (takeFinding s col) (keepOne s col f1)

/-! ## Energy codes (R194, R306) -/

/-- The plans below this one are completed (R306). -/
def openPlan (s : State) : Nat := match s.fire.probe with
  | some p => p.no
  | none => s.fire.plans

/-- The ladder measurements of a nozzle's last completed plan, in the order of the steps. -/
def ladderOf (s : State) (col r : Nat) : List LadderRow :=
  let all := s.cal.ladder.filter fun x => x.col == col && x.row == r && decide (x.plan < openPlan s)
  let last := maxOf (all.map (·.plan))
  (all.filter fun x => x.plan == last).mergeSort fun a b => a.q ≤ b.q

/-- A ladder code is full: ρ ≥ WEAK_RATIO. -/
def fullRho (rho : Nat) : Bool := decide (10 * rho ≥ 9 * 32768)

/-- e_new of R194 and whether W_L(63) misses the bound; none where a measurement is missing or invalid (R195). -/
def newCode (s : State) (table : List Byte) (rows : List LadderRow) : Option (Nat × Bool) :=
  match rows with
  | [] => none
  | x :: _ =>
    let printed := countIf (List.range x.steps) fun q => decide (x.stride * (q + 1) ≤ x.e0)
    let rhos := (List.range printed).map fun q => ((rows.find? fun y => y.q == q).bind (·.rho))
    if printed = 0 ∨ rhos.any Option.isNone then none else
      let n := ((rhos.map fun o => o.getD 0).takeWhile fullRho).length
      let eth := x.e0 - x.stride * n
      let bound := s.fire.margin * (widthField table eth 3 + 160)
      match (List.range 64).find? fun e => decide (32768 * (widthField table e 3 + 160) ≥ bound) with
      | some e => some (e, false)
      | none => some (63, true)

/-- The new code of a nozzle under the limits of R306, and whether it is reported ENERGY_CEILING. -/
def limitedCode (s : State) (pend : List ((Nat × Nat) × Byte)) (table codes : List Byte) (col r : Nat) : Nat × Bool :=
  let k := col % colsPer
  let now := codeOf codes k r
  match newCode s table (ladderOf s col r) with
  | none => (now, false)
  | some (e, ceil) =>
    if pendByte s.cg.inForce pend col r % 4 = 2 ∨ s.cal.probeWarm.any (fun x => decide (x.1 < openPlan s) && x.2 == (col, r)) then (now, ceil)
    else (max e (now - 16), ceil)

/-! ## The solve -/

/-- Modules a mask names (R315): 0 every fitted one. -/
def maskModules (mask : BitVec 16) (modules : Nat) : List Nat :=
  (List.range modules).filter fun m => mask == 0 || mask.getLsbD m

/-- A solve may begin: CAL_RUN was given, or AUTO_SOLVE is 1 and SOLVE_PAGES pages have contributed; no result is READY or COMMITTING (R301). -/
def solveMode (s : State) : Option (Option Word × BitVec 16) :=
  if s.cal.result != .none then none else match s.cal.runReq with
    | some (tag, mask) => some (some tag, mask)
    | none => if s.cal.autoSolve && decide (s.cal.solvePages ≤ s.cal.gathering.pages.length) then some (none, 0) else none

/-- CAL_SOLVE_START (R300, R301): at a line boundary gathering moves to the other bank. -/
def execCalSolveStart (s : State) : Host.Outcome State Fault Refusal :=
  .next (match solveMode s with
    | none => s
    | some run =>
      let old := s.cal.gathering
      let c := { s.cal with bank := !s.cal.bank, run := some run, runReq := none, result := .solving, snap := some (s.cg.epochNow, s.line) }
      let c1 := c.gather fun _ => {}
      { s with cal := if c1.bank then { c1 with bank0 := { old with pages := [] } } else { c1 with bank1 := { old with pages := [] } } })

/-- A solve ends with no result: CAL_RUN completes with a status, an automatic solve reports a rejection (R303). -/
def endSolve (run : Option Word × BitVec 16) (reason : Nat) (s : State) : State :=
  let s1 := mergeBack { s with cal := { s.cal with run := none, snap := none, result := .none } }
  let count := fun (s : State) => { s with cal := { s.cal with rejects := satAdd s.cal.rejects 1 } }
  match run.1, reason with
  | some t, 0 => complete 0x0802 t 0 0 0 0 s1
  | none, 0 => s1
  | some t, r => complete 0x0802 t 0x20 (w32 r) 0 0 (count s1)
  | none, r => calStickEvent .resultRejected { ev := .resultRejected, p0 := w32 r } (count s1)

/-- The reasons of R303 that the fit gives. -/
def solveReason (c : Cal) (bank : CalBank) (fits : List ColFit) (mods : List Nat) : Nat :=
  let mine := fits.filter fun f => mods.contains (f.col / colsPer)
  let pages := ((bank.cols.map (·.2) ++ bank.noz.map (·.2)).flatMap (·.pages)).dedup
  let out := countIf fits (·.outlier)
  let data := countIf fits (·.data)
  if mine.all fun f => !f.data then 1
  else if pages.length < c.minPages then 2
  else if 50 * out > data then 3
  else if mods.all (moduleOut fits) then 4
  else 0

/-- The objects of a result and the columns whose curves change. -/
def curveObjs (s : State) (fits : List ColFit) (mods : List Nat) : List Obj × Nat :=
  if !s.cal.curves then ([], 0) else
    let objs := s.cg.inForce
    let parts := (mods.filter fun m => !moduleOut fits m).map fun m =>
      let cs := ((fits.drop (m * colsPer)).take colsPer).map fun f =>
        let K := knot objs m (f.col % colsPer)
        newCurve s.cal f K
      let changed := countIf (cs.zipIdx) fun x => decide (x.1 ≠ (List.range 17).map (knot objs m x.2))
      (m, cs, changed)
    ((parts.filter fun p => decide (0 < p.2.2)).map fun p => { kind := 3, target := p.1, bytes := curveBytes p.2.1 },
     (parts.map fun p => p.2.2).sum)

/-- NOZZLE_MAP objects with what is pending, of whatever module: it is carried into every result (R305). -/
def mapObjs (s : State) (pend : List ((Nat × Nat) × Byte)) : List Obj :=
  if !s.cal.classify then [] else
    (s.fitted.filter fun m => pend.any fun x => x.1.1 / colsPer == m).map fun m =>
      { kind := 7, target := m, bytes := (List.range 13056).map fun i => BitVec.ofNat 8 (
          if i % 4 < s.cg.rows then pendByte s.cg.inForce pend (m * colsPer + i / 4) (i % 4) else mapByte s.cg.inForce m (i / 4) (i % 4)) }

/-- ENERGY_CODES objects, and nozzles reported ENERGY_CEILING. -/
def codeObjs (s : State) (pend : List ((Nat × Nat) × Byte)) (mods : List Nat) : List Obj × Nat :=
  if !s.cal.codes then ([], 0) else
    let parts := mods.filterMap fun m => (energyOf s.cg.inForce m).map fun (table, codes) =>
      let new := (List.range 13056).map fun i => limitedCode s pend table codes (m * colsPer + i / 4) (i % 4)
      let bytes : List Byte := (List.range 13056).map fun i => BitVec.ofNat 8 ((cell new i (0, false)).1)
      (m, bytes, decide (bytes ≠ codes), countIf new (·.2))
    ((parts.filter fun p => p.2.2.1).map fun p => { kind := 10, target := p.1, bytes := p.2.1 }, (parts.map fun p => p.2.2.2).sum)

/-- The next RESULT_ID: never 0 (R312). -/
def nextResult (w : Word) : Word := if w = 0xFFFFFFFF then 1 else w + 1

/-- CAL_SOLVE_DONE (R301 to R308). -/
def execCalSolveDone (s : State) : Host.Outcome State Fault Refusal :=
  .next (match s.cal.run, s.cal.result with
    | some run, .solving =>
      let bank := s.cal.solveBank
      let mods := maskModules run.2 s.cg.modules
      let fits := fitColumns s.cal bank s.cg.modules
      let outs := mods.filter (moduleOut fits)
      let s1 := outs.foldl (fun s m => calStickEvent .moduleOutlier
        { ev := .moduleOutlier, p0 := w32 m, p1 := wInt ((moduleMedian fits m).getD 0) } s) s
      let reason := solveReason s.cal bank fits mods
      if reason ≠ 0 then endSolve run reason s1 else
        let cols := mods.flatMap fun m => (List.range colsPer).map fun k => m * colsPer + k
        let found : Found := if s.cal.classify then cols.foldl (classifyColumn s bank fits) { pend := s.cal.pend } else { pend := s.cal.pend }
        let s2 := found.risk.foldl (fun s c => calStickEvent .columnAtRisk { ev := .columnAtRisk, p0 := w32 c } s) s1
        let s3 := if found.full then stickRec .pendingFull s2 else s2
        let (curves, n) := curveObjs s fits mods
        let (codes, ceil) := codeObjs s found.pend mods
        let objs := curves ++ mapObjs s found.pend ++ codes
        let s4 := { s3 with cal := { s3.cal with pend := found.pend } }
        if objs.isEmpty then endSolve run 0 s4 else
          let id := nextResult s.cal.resultId
          let after := mergeObjs objs s.cg.inForce
          let open_ := openPlan s
          let snap := s.cal.snap.getD (0, 0)
          let res : CalRes := {
            id := id, epoch := snap.1, lastLine := snap.2 - 1
            pages := ((bank.cols.map (·.2) ++ bank.noz.map (·.2)).flatMap (·.pages)).dedup.length
            objs := objs, columns := n, newDead := found.dead, newWeak := found.weak
            fLimNew := fLimOf (kLiveOf after s.cg.modules s.cg.rows) s.cg.fHead
            ceiling := ceil, outliers := countIf fits (·.outlier)
            modOut := BitVec.ofNat 16 ((outs.map fun m => 2 ^ m).sum), auto := run.1.isNone }
          let s5 := { s4 with cal := { s4.cal with
            run := none, snap := none, result := .ready, res := some res, resultId := id
            ladder := s4.cal.ladder.filter fun x => decide (open_ ≤ x.plan) || !mods.contains (x.col / colsPer)
            probeWarm := s4.cal.probeWarm.filter fun x => decide (open_ ≤ x.1) || !mods.contains (x.2.1 / colsPer) } }
          let s6 := calEvent { ev := .resultReady, p0 := id, p1 := w32 n, p2 := w32 found.dead } s5
          match run.1 with
          | some t => complete 0x0802 t 0 id (w32 n) (w32 found.dead) s6
          | none => s6
    | _, _ => s)

/-! ## Plausibility (R307) -/

/-- A nozzle leaves LIVE or WEAK for DEAD. -/
def newlyDead (old new : Nat) : Bool := liveByte old && new % 4 == 2

/-- Nozzles that an object's map newly makes DEAD. -/
def deadCount (o : Obj) (inForce : List Obj) : Nat :=
  countIf (List.range 13056) fun i => newlyDead (mapByte inForce o.target (i / 4) (i % 4)) (by8 o.bytes i)

/-- The limits of R307 on one object, its entries before what concerns it as a whole (R581); `rows` in use, `earlier` what the group's maps before it make DEAD. -/
def implausible (o : Obj) (inForce : List Obj) (rows earlier : Nat) : Option Nat :=
  match o.kind with
  | 3 => firstIn (colsPer * 17) fun i =>
    let k := fun j => (objWord o.bytes j).toNat
    let old := knot inForce o.target (i / 17) (i % 17)
    firstCode [(decide (k i > old + 0x4000 ∨ old > k i + 0x4000), 0x0801), (decide (i % 17 ≠ 0 ∧ k i < k (i - 1)), 0x0802),
      (decide (k i > 0x28000), 0x0803)]
  | 7 =>
    let column := fun (k : Nat) =>
      let live := fun (f : Nat → Nat) => countIf (List.range rows) fun r => liveByte (f r)
      let new := fun r => by8 o.bytes (4 * k + r)
      let old := fun r => mapByte inForce o.target k r
      live old != 0 && live new == 0 && (List.range rows).any fun r => liveByte (old r) && !liveByte (new r) && new r / 4 == 2
    let n := deadCount o inForce
    firstCode [((List.range colsPer).any column, 0x0805), (decide (n > 64 ∨ earlier + n > 256), 0x0804)]
  | 10 => match objOf inForce 10 o.target with
    | none => none
    | some old =>
      match firstIn 13056 fun i => firstCode [(decide (by8 old i % 64 > by8 o.bytes i % 64 + 16), 0x0806)] with
      | some c => some c
      | none =>
        let sum := fun (b : List Byte) => ((List.range 13056).map fun i => by8 b i % 64).sum
        firstCode [(decide (sum old > sum o.bytes + 4 * 13056), 0x0807)]
  | _ => none

/-! ## Sending results (R312) -/

/-- The bytes of a result. -/
def resultBytes (r : CalRes) : List Byte :=
  let head := [r.id, r.epoch, r.lastLine, w32 r.pages, w32 (r.objs.length % 256), w32 r.columns,
    w32 (min 0xFFFF r.newDead + 65536 * min 0xFFFF r.newWeak), w32 r.fLimNew, w32 r.ceiling, w32 r.outliers, w32 r.modOut.toNat, 0, 0, 0, 0]
  wordBytes (head ++ [w32 (crc32c (wordBytes head))]) ++ r.objs.flatMap fun o =>
    wordBytes [w32 (o.kind + 256 * o.target), w32 o.bytes.length, w32 (crc32 o.bytes), 0] ++ o.bytes

/-! ## View (R313) and commands (R315, R316) -/

/-- Bit k: camera k has valid white on at least 90 % of its pixels. -/
def whiteValid (s : State) : Nat :=
  ((List.range 4).map fun k =>
    let w := whiteOf k s
    let now := (s.cam k).trigCount
    let n := cxWidth (camCtx k s)
    let good := countIf (List.range n) fun p => (whiteAt w p now).isSome
    if n ≠ 0 ∧ 10 * good ≥ 9 * n then 2 ^ k else 0).sum

/-- Code of a result state. -/
def CalResult.code : CalResult → Nat
  | .none => 0 | .solving => 1 | .ready => 2 | .committing => 3

/-- Samples are taken (R296, R313): ENABLE is 1 and a camera of CAMERA_MASK streams. DEDUCED: of R296's conditions, those that are not of one line or
pixel (log 23). -/
def gathers (s : State) : Bool :=
  s.cal.enable && (List.range 4).any fun k => s.cal.cameraMask.getLsbD k && (s.cam k).st == .stream

/-- The registers at 0x000 to 0x020. -/
def calView (s : State) : List Word :=
  let c := s.cal
  let pend := fun (st : Nat) => countIf c.pend fun x => x.2.toNat % 4 == st
  [w32 (b2n (gathers s) + 2 * c.result.code + 16 * b2n c.bank), c.resultId, w32 c.gathering.pages.length, w32 (pend 2 + 65536 * pend 1),
   c.samples, c.excluded, c.commits, c.rejects, w32 (whiteValid s)]

/-- CAL_GET_STATUS. -/
def execCalGetStatus (slot : Fin 16) (s : State) : Host.Outcome State Fault Refusal :=
  .next (command 0x0800 1 slot (fun s ws => [reservedW ws 0 1, notBoot s])
    (fun _ ws s =>
      let s1 := if flag (wd ws 0) 0 then { s with cal := { s.cal with samples := 0, excluded := 0, commits := 0, rejects := 0 } } else s
      done (s1, okWith (calView s))) s)

/-- AIM j of a CAL_CONFIG payload. -/
def aimWord (ws : List Word) (j : Nat) : Nat := fld (wd ws (6 + j / 2)) (16 * (j % 2)) 16

/-- SOLVING or COMMITTING. -/
def calBusy (s : State) : Bool := s.cal.result == .solving || s.cal.result == .committing

/-- CAL_CONFIG. DEDUCED: the fields of the sample rules are CAMERA_MASK, FLAT_TOL, the volumes and AIM (log 23). -/
def execCalConfig (slot : Fin 16) (s : State) : Host.Outcome State Fault Refusal :=
  .next (command 0x0801 15 slot
    (fun s ws =>
      let lo := fun i => fld (wd ws i) 0 16
      let hi := fun i => fld (wd ws i) 16 16
      let by_ := fun i n => fld (wd ws i) (8 * n) 8
      [ reservedW ws 0 0x1FFF, (decide (lo 1 < 256 ∨ hi 1 < 64), badParam 1),
        (by_ 2 0 == 0 || by_ 2 1 == 0 || decide (hi 2 < 1 ∨ hi 2 > 0x4000), badParam 2), (lo 3 == 0 || decide (hi 3 < 3000), badParam 3),
        reservedW ws 4 0xFFFF, reservedW ws 5 0xFFFFFF, (by_ 5 0 == 0 || by_ 5 1 == 0 || by_ 5 2 == 0, badParam 5),
        (aimWord ws 0 != 0, badParam 6)] ++
      (List.range 16).map (fun j => (decide (aimWord ws (j + 1) < aimWord ws j), badParam (6 + (j + 1) / 2))) ++
      [reservedW ws 14 0xFFFF, (calBusy s, busy), notBoot s])
    (fun _ ws s =>
      let w := wd ws 0
      let b := fun i => flag w i
      let c := s.cal
      let n := { c with
        enable := b 0, autoSolve := b 1, autoCommit := b 2, persist := b 3, guardAll := b 4, absolute := b 5, curves := b 6, classify := b 7
        codes := b 8, cameraMask := BitVec.ofNat 4 (fld w 9 4)
        minSamples := fld (wd ws 1) 0 16, minNozzle := fld (wd ws 1) 16 16, gain := fld (wd ws 2) 0 8, minPages := fld (wd ws 2) 8 8
        maxKnotStep := fld (wd ws 2) 16 16, solvePages := fld (wd ws 3) 0 16, leadUs := fld (wd ws 3) 16 16, flatTol := fld (wd ws 4) 0 16
        volS := fld (wd ws 5) 0 8, volM := fld (wd ws 5) 8 8, volL := fld (wd ws 5) 16 8, aim := (List.range 17).map (aimWord ws) }
      let same := n.cameraMask == c.cameraMask && n.flatTol == c.flatTol && n.volS == c.volS && n.volM == c.volM && n.volL == c.volL && n.aim == c.aim
      let s1 := { s with cal := n }
      done (if same then s1 else clearSums (List.range 16) s1, ok)) s)

/-- CAL_RUN. -/
def execCalRun (slot : Fin 16) (s : State) : Host.Outcome State Fault Refusal :=
  .next (command 0x0802 1 slot
    (fun s ws => [reservedW ws 0 0xFFFF, (s.cal.result != .none || s.cal.runReq.isSome, busy),
      (!(s.host.opState == .ready || s.host.opState == .print), badState), completionsFull s])
    (fun tag ws s => done (outstand 0x0802 tag 0
      { s with cal := { s.cal with runReq := some (tag, BitVec.ofNat 16 (fld (wd ws 0) 0 16)) } }, accepted)) s)

/-- CAL_EXPORT. -/
def execCalExport (slot : Fin 16) (s : State) : Host.Outcome State Fault Refusal :=
  .next (command 0x0803 4 slot
    (fun s ws =>
      let size := match s.cal.res with
        | some r => (resultBytes r).length
        | none => 0
      [reservedW ws 0 0, (wn ws 1 % 4096 != 0, badParam 1), (s.cal.result == .ready && decide (wn ws 3 < size), badParam 3),
       (s.cal.result != .ready, badState), completionsFull s])
    (fun tag ws s => match s.cal.res with
      | none => (s, some badState)
      | some r =>
        let bytes := resultBytes r
        done (outstand 0x0803 tag 0 (emit (.dmaWrite (wn64 ws 1) bytes)
          { s with cal := { s.cal with sending := s.cal.sending ++ [(tag, bytes.length)] } }), accepted)) s)

/-- CAL_EXPORT_DONE: the results sent first have been written, or its writing failed. -/
def execCalExportDone (written : Bool) (s : State) : Host.Outcome State Fault Refusal :=
  .next (match s.cal.sending with
    | [] => s
    | (tag, n) :: rest =>
      let s1 := { s with cal := { s.cal with sending := rest } }
      if written then complete 0x0803 tag 0 (w32 n) 0 0 s1 else complete 0x0803 tag 0x30 0 0 0 s1)

/-- CAL_DISCARD. -/
def execCalDiscard (slot : Fin 16) (s : State) : Host.Outcome State Fault Refusal :=
  .next (command 0x0804 0 slot (fun s _ => [(s.cal.result == .committing, badState), notBoot s])
    (fun _ _ s => done (if s.cal.result = .ready then discardResult s else s, ok)) s)

/-- CAL_CLEAR. -/
def execCalClear (slot : Fin 16) (s : State) : Host.Outcome State Fault Refusal :=
  .next (command 0x0805 1 slot (fun s ws => [reservedW ws 0 0xFFFF, (calBusy s, busy), notBoot s])
    (fun _ ws s =>
      let mods := maskModules (BitVec.ofNat 16 (fld (wd ws 0) 0 16)) s.cg.modules
      let s1 := clearSums mods s
      let s2 := { s1 with cal := { s1.cal with pend := s1.cal.pend.filter fun x => !mods.contains (x.1.1 / colsPer) } }
      done (discardIf mods s2, ok)) s)

end Sys2Proof.Machine
end

