-- ==== Sys2Proof/Machine/Time.lean ====
section
/-!
DEFINITION. Position comparators and captures (R332 to R339), network time (R340 to R348), timers (R349, R350), absolute-position ports (R351,
R352) and their commands (R355, R358 to R361).
-/
namespace Sys2Proof.Machine

/-! ## Actions (R338, R339) -/

/-- NET_TIME in ns, n ENC clocks from now. -/
def netAfter (n : Nat) (p : Pos) : Nat := (p.clock n).netNow

/-- A capture record (R339): full, it is dropped and CAPTURE_LOST set. -/
def capture (source n : Nat) (pos : BitVec 50) (s : State) : State :=
  if s.pos.fifo.length ≥ 32 then stickRec .captureLost s else
    let p := s.pos
    let r : List Word := [w32 (source + 256 * p.stepGen.toNat + 65536 * p.capSeq.toNat), w32 (netAfter n p)] ++ words64 pos.toNat ++
      [s.cg.epochNow, (p.enc 0).count, (p.enc 1).count, 0]
    { s with pos := { p with fifo := p.fifo ++ [r], capSeq := p.capSeq + 1 } }

/-- POS_OUT pins. -/
def posOut (n : Nat) : String := cell ["POS_OUT0", "POS_OUT1", "POS_OUT2", "POS_OUT3"] n ""

/-- An action of R338, n ENC clocks from now. -/
def doAction (action pin width source n : Nat) (pos : BitVec 50) (s : State) : State :=
  match action with
  | 1 => emitPulse (posOut pin) (10 * width) (s.pos.mono.toNat + 5 * n) s
  | 2 => strobeAction (pin % 2) (s.pos.mono.toNat + 5 * n) s
  | 3 => capture source n pos s
  | _ => s

/-! ## Comparators (R333 to R337) -/

/-- Comparator n. -/
def State.cmp (s : State) (n : Nat) : Cmp := cell s.pos.cmps n {}

/-- Changes comparator n. -/
def setCmp (n : Nat) (f : Cmp → Cmp) (s : State) : State := { s with pos := { s.pos with cmps := upd s.pos.cmps n f } }

/-- A comparator whose target is not ahead (R334). -/
def Cmp.isLate (c : Cmp) (p : Pos) : Bool :=
  match c.dir with
  | 0 => decide (c.d p ≤ 0)
  | 1 => decide (c.d p ≥ 0)
  | _ => false

/-- The late test of R334 on an armed comparator: COMPARE_LATE and event 0x0906; discard ends it, fire-now fires it at the next
sample. -/
def lateTest (n : Nat) (s : State) : State :=
  let c := s.cmp n
  if !c.isLate s.pos then s else
    stickEvent .compareLate { ev := .compareLate, p0 := w32 n, p1 := wInt (c.d s.pos / 2 ^ 18) }
      (setCmp n (fun c => if c.late then { c with now := true } else { c with st := .late }) s)

/-- A comparator of DIR either fires at a sample of motion dp at distance d (R333): its target will be crossed within the next sample period, or the last
sample crossed it and nothing had fired for that crossing; each crossing fires once. -/
def Cmp.crosses (c : Cmp) (d dp : Int) : Bool :=
  if 0 < dp then c.pre != some true && decide (d ≤ dp ∧ 0 < d + dp)
  else c.pre != some false && decide (dp < 0 ∧ dp ≤ d ∧ d + dp < 0)

/-- Whether a comparator fires at a sample (R321, R333): ENC0 counts, and its target will be reached within the next sample period by the motion of the
last one.
DEDUCED: a forward or reverse target that the last sample has passed fires at it (log 24). -/
def Cmp.fires (c : Cmp) (p : Pos) : Bool :=
  let d := c.d p
  let dp := p.posHist.headD 0
  c.st == .armed && (p.enc 0).counting && (c.now || match c.dir with
    | 0 => decide (0 < dp ∧ d ≤ dp)
    | 1 => decide (dp < 0 ∧ dp ≤ d)
    | _ => c.crosses d dp)

/-- A comparator of yours fires (R335, R338). DEDUCED: DIR either goes on firing until COUNT (log 24). -/
def cmpFire (n : Nat) (s : State) : State :=
  let c := s.cmp n
  let clocks := c.clocks s.pos
  let pos : BitVec 50 := if c.now then BitVec.ofNat 50 s.pos.raw else c.target
  let line := if c.now then s.line else w32 (c.target.toNat / 2 ^ 18)
  let s1 := doAction c.action c.pin c.width n clocks pos s
  let s2 := if c.event then event { ev := .compareFired, p0 := w32 n, p1 := line } s1 else s1
  let total := c.total + 1
  let more := (c.dir == 2 || c.period != 0) && (c.cnt == 0 || decide (total < c.cnt))
  let step : BitVec 50 := BitVec.ofNat 50 c.period
  let c1 := { c with
    now := false, total := total, firings := if c.firings = 0xFFFF then c.firings else c.firings + 1
    pre := if c.dir = 2 then some (decide (0 < s.pos.posHist.headD 0)) else none, firedAt := some s.pos.mono
    st := if more then .armed else .fired
    target := if more then (if c.dir = 1 then c.target - step else c.target + step) else c.target }
  let s3 := setCmp n (fun _ => c1) s2
  if more then lateTest n s3 else s3

/-- A comparator of yours or of a camera fires if it is due (R253, R333). -/
def fireOne (n : Nat) (s : State) : State :=
  let c := s.cmp n
  if n < 8 ∨ !c.fires s.pos then s
  else if n < 12 then camFire (n - 8) (c.clocks s.pos) (setCmp n (fun c => { c with now := false }) s)
  else cmpFire n s

/-- A comparator of a lower number is due in the same sample: it comes first (R337). -/
def lowerDue (n : Nat) (s : State) : Bool := (List.range n).any fun k => decide (8 ≤ k) && (s.cmp k).fires s.pos

/-- COMPARATOR_FIRE (R332, R333, R337): a comparator of yours or of a camera; those of commit groups act with the row of their line. -/
def execComparatorFire (cmp : Fin 24) (samples : Samples) (s : State) : Host.Outcome State Fault Refusal :=
  let s1 := mainUpdate (advance samples s)
  .next (if lowerDue cmp s1 then s1 else fireOne cmp s1)

/-- The comparisons of a sample are made, in ascending order (R336, R337). -/
def fireDue (s : State) : State := (List.range 24).foldl (fun s n => fireOne n s) s

/-- What a JOB_START commit at line lc does to every armed comparator of yours (R336). -/
def rebaseCmps (lc : Int) (epoch : Word) (s : State) : State :=
  (List.range 12).foldl (fun s i =>
    let n := 12 + i
    let c := s.cmp n
    if c.st ≠ .armed then s
    else if c.epochBound then
      event { ev := .compareLate, p0 := w32 n, p1 := 0 } (setCmp n (fun c => { c with st := .ended }) s)
    else setCmp n (fun c => { c with target := c.target - BitVec.ofInt 50 (lc * 2 ^ 18), epoch := epoch }) s) s

/-- Code of a comparator state (R353). -/
def CmpState.code : CmpState → Nat
  | .idle => 0 | .armed => 1 | .fired => 2 | .late => 3 | .ended => 4

/-- POS_CMP_ARM (R337, R355, R358): an old setting that fires in this sample fires first. -/
def execPosCmpArm (slot : Fin 16) (s : State) : Host.Outcome State Fault Refusal :=
  .next (command 0x0903 6 slot
    (fun s ws =>
      let w := wd ws 0
      let n := fld w 0 5
      [(decide (n < 12 ∨ n > 23 ∨ fld w 5 2 = 3), badParam 0), reservedW ws 0 0x3FFF, (decide (s.cg.epochNow < wd ws 1), badParam 1),
       reservedW ws 3 0x3FFFF, (fld w 5 2 == 2 && wd ws 4 != 0, badParam 4), (fld w 8 2 == 1 && fld (wd ws 5) 16 16 == 0, badParam 5),
       (!(s.host.opState == .ready || s.host.opState == .print || s.host.opState == .service), badState), (decide (wd ws 1 < s.cg.epochNow), late)])
    (fun _ ws s =>
      let w := wd ws 0
      let n := fld w 0 5
      let c : Cmp := { st := .armed, dir := fld w 5 2, late := flag w 7, action := fld w 8 2, pin := fld w 10 2, event := flag w 12
                       epochBound := flag w 13, epoch := wd ws 1, target := BitVec.ofNat 50 (wn64 ws 2), period := wn ws 4
                       cnt := fld (wd ws 5) 0 16, width := fld (wd ws 5) 16 16 }
      let s1 := lateTest n (setCmp n (fun _ => c) (fireOne n s))
      done (s1, if (s1.cmp n).st = .late then late else okWith [w32 (b2n (s1.cmp n).now)])) s)

/-- A comparator fires in the present sample, or has fired in it (R337). -/
def firedNow (n : Nat) (s : State) : Bool := match (s.cmp n).firedAt with
  | some t => decide (s.since t < 50)
  | none => false

/-- POS_CMP_DISARM (R337, R355): a firing in the same sample stays and the comparator ends FIRED. DEDUCED: a comparator that is not yours gives BAD_PARAM
(log 24). -/
def execPosCmpDisarm (slot : Fin 16) (s : State) : Host.Outcome State Fault Refusal :=
  .next (command 0x0904 1 slot
    (fun s ws => [(decide (fld (wd ws 0) 0 5 < 12 ∨ fld (wd ws 0) 0 5 > 23), badParam 0), reservedW ws 0 0x1F, notBoot s])
    (fun _ ws s =>
      let n := fld (wd ws 0) 0 5
      let s0 := fireOne n s
      let st : CmpState := if firedNow n s0 then .fired else .idle
      let s1 := setCmp n (fun c => if c.st = .armed then { c with st := st, now := false } else c) s0
      done (s1, okWith [w32 (s1.cmp n).st.code])) s)

/-- POS_CAPTURE_READ (R355). -/
def execPosCaptureRead (slot : Fin 16) (s : State) : Host.Outcome State Fault Refusal :=
  .next (command 0x0905 0 slot (fun s _ => [notBoot s])
    (fun _ _ s =>
      let rs := s.pos.fifo.take 7
      done ({ s with pos := { s.pos with fifo := s.pos.fifo.drop 7 } }, okWith (w32 rs.length :: rs.flatten))) s)

/-! ## Timers (R349, R350) -/

/-- Timer t. -/
def State.timer (s : State) (t : Nat) : Timer := cell s.pos.timers t {}

/-- Changes timer t. -/
def setTimer (t : Nat) (f : Timer → Timer) (s : State) : State := { s with pos := { s.pos with timers := upd s.pos.timers t f } }

/-- The time scale of a timer, ns. -/
def Timer.now (t : Timer) (p : Pos) : Nat := if t.base then p.netNow else p.mono.toNat

/-- The first instant START + n × PERIOD after a time. -/
def Timer.after (t : Timer) (now : Nat) : Nat :=
  if t.start.toNat > now ∨ t.period = 0 then t.start.toNat else t.start.toNat + ((now - t.start.toNat) / t.period + 1) * t.period

/-- TIMER_FIRE (R349): a timer whose instant comes before the next sample. TT0 and TT1 start a read of their absolute port, which latches the
axis' commanded position (R364). DEDUCED: a timer that was late goes on at its first instant to come (log 24). -/
def execTimerFire (timer : Fin 8) (samples : Samples) (s : State) : Host.Outcome State Fault Refusal :=
  let s1 := mainUpdate (advance samples s)
  let n : Nat := timer
  let t := s1.timer n
  let now := t.now s1.pos
  .next (if t.st ≠ 1 ∨ t.nextAt.toNat ≥ now + 50 then s1 else
    let clocks := (t.nextAt.toNat - now) / 5
    let s2 := if t.action = 4 then
        let s2 := { s1 with pos := { s1.pos with abs := upd s1.pos.abs n (fun a => { a with reading := a.protocol != 0 }) }
                            axes := { s1.axes with ax := upd s1.axes.ax n (fun a => { a with latched := a.cmd }) } }
        if (cell s1.pos.abs n {}).protocol = 0 then s2 else emit (.absRead n) s2
      else doAction t.action t.pin t.width (0x80 + n) clocks (BitVec.ofNat 50 s1.pos.raw) s1
    let s3 := setTimer n (fun t => if t.period = 0 then { t with st := 2 }
      else { t with nextAt := BitVec.ofNat 64 (max (t.nextAt.toNat + t.period) (t.after now)) }) s2
    if t.event then event { ev := .timerFired, p0 := w32 n } s3 else s3)

/-- A NET_TIME timer after a step (R350): one whose instant the step has passed is late. -/
def timerStep (s : State) (n : Nat) : State :=
  let t := s.timer n
  let now := s.pos.netNow
  if t.st ≠ 1 ∨ !t.base then s else
    let late := decide (t.nextAt.toNat ≤ now)
    let s1 := if t.period ≠ 0 then setTimer n (fun t => { t with nextAt := BitVec.ofNat 64 (t.after now) }) s
      else if late && !t.late then setTimer n (fun t => { t with st := 3 }) s else s
    if late then stickRec .timerLate s1 else s1

/-- TIME_TIMER_ARM (R355, R359). -/
def execTimeTimerArm (slot : Fin 16) (s : State) : Host.Outcome State Fault Refusal :=
  .next (command 0x0909 5 slot
    (fun s ws =>
      let w := wd ws 0
      let n := fld w 0 3
      let act := fld w 5 3
      let stop := flag w 11
      let period := wn ws 3
      [reservedW ws 0 0xFFF, (!stop && (if n < 2 then act != 4 else decide (act ≥ 4)), badParam 0),
       (!stop && decide (period ≠ 0 ∧ (period < 10000 ∨ period > 1000000000)), badParam 3),
       (!stop && (fld (wd ws 4) 16 16 != 0 || (act == 1 && fld (wd ws 4) 0 16 == 0)), badParam 4), notBoot s])
    (fun _ ws s =>
      let w := wd ws 0
      let n := fld w 0 3
      if flag w 11 then done (setTimer n (fun t => { t with st := 0 }) s, ok) else
        let start : Dword := BitVec.ofNat 64 (wn64 ws 1)
        let t : Timer := { st := 1, base := flag w 3 && decide (2 ≤ n), late := flag w 4, action := fld w 5 3, pin := fld w 8 2
                           event := flag w 10, start := start, nextAt := start, period := wn ws 3, width := fld (wd ws 4) 0 16 }
        let isLate := decide (start.toNat ≤ t.now s.pos)
        let s1 := setTimer n (fun _ => if isLate && !t.late then { t with st := 3 } else t) s
        if isLate then done (stickRec .timerLate s1, if t.late then okWith [1] else late) else done (s1, okWith [0])) s)

/-! ## Network time (R340 to R346) -/

/-- A TIME group that is ARMED and not resolved aborts with cause LATE (R346, R92). -/
def abortTimeGroups (s : State) : State :=
  (List.range 4).foldl (fun s g => if (s.cg.group g).trigger = 1 ∧ (s.cg.group g).line.isNone then abortGroup g 2 s else s) s

/-- A change of the time state (R343): event 0x0908, with a sticky bit where it has one; TIME groups abort as TIME_VALID falls. -/
def setTime (new : TimeState) (k : Option Sticky) (s : State) : State :=
  let old := s.pos.tState
  if old = new then (match k with
    | some k => stickRec k s
    | none => s)
  else
    let e : Event := { ev := .timeState, p0 := w32 old.code, p1 := w32 new.code }
    let s1 := { s with pos := { s.pos with
      tState := new, okRun := 0, holdStart := if new = .holdover then some s.pos.mono else none } }
    let s2 := match k with
      | some k => stickEvent k e s1
      | none => event e s1
    if old.valid && !new.valid then abortTimeGroups s2 else s2

/-- A step of NET_TIME (R344). -/
def stepNet (delta : Int) (s : State) : State :=
  let d64 : BitVec 64 := BitVec.ofInt 64 delta
  let s1 := { s with pos := { s.pos with net := s.pos.net + BitVec.ofInt 96 (delta * 2 ^ 32), stepGen := s.pos.stepGen + 1 } }
  let s2 := stickEvent .timeStep { ev := .timeStep, p0 := w32 d64.toNat, p1 := w32 (d64.toNat / 2 ^ 32) } s1
  (List.range 8).foldl timerStep s2

/-- The servo slews (R342, R344): RATE_ADJ takes a free value within ±200 ppm (log 3). -/
def slew (s : State) : State :=
  let (x, s1) := takeFreeInt s
  let r := clampI (-4294967) 4294967 x
  { s1 with pos := { s1.pos with rateAdj := r, rateHist := (r :: s1.pos.rateHist).take 64 } }

/-- A filtered exchange (R341, R343, R344): `o` is the offset from the master, ns. -/
def filtered (o : Int) (s : State) : State :=
  let s1 := { s with pos := { s.pos with offset := wInt o } }
  let near := decide (|o| ≤ 2000)
  match s1.pos.tState with
  | .acquiring =>
    let s2 := if |o| > 1000000 then stepNet (-o) s1 else slew s1
    let run := if near then s1.pos.okRun + 1 else 0
    if run ≥ 16 then setTime .locked none s2 else { s2 with pos := { s2.pos with okRun := run } }
  | .locked =>
    let s2 := slew s1
    if |o| > 10000 then setTime .acquiring none s2 else s2
  | .holdover =>
    if !near then setTime .acquiring none s1
    else if s1.pos.okRun + 1 ≥ 4 then setTime .locked none s1
    else { s1 with pos := { s1.pos with okRun := s1.pos.okRun + 1 } }
  | _ => s1

/-- A message interval of 2^log seconds, in ns (R340, R343). -/
def logNs (log : Int) : Nat := if 0 ≤ log then 1000000000 * 2 ^ log.toNat else 1000000000 / 2 ^ (-log).toNat

/-- A PTP message the unit takes: PTP is enabled, and domain and transport are those of TIME_CONFIG (R340, R360). -/
def hears (domain : Byte) (udp : Bool) (s : State) : Bool := s.pos.ptpEnable && domain == s.pos.ptpDomain && udp == s.pos.ptpUdp

/-- It comes from the selected master (R340). -/
def fromMaster (domain : Byte) (udp : Bool) (port : Dword) (s : State) : Bool :=
  hears domain udp s && (match s.pos.master with
    | some m => m.port == port
    | none => false)

/-- PTP_SYNC_RX (R340, R341): a Sync, which carries t1 from a one-step master, or the Follow_Up that brings it; `jitter` is that of the software
stamp, at most 1 µs, and `logSync` is logSyncInterval, accepted from -4 to +1. -/
def execPtpSyncRx (domain : Byte) (port : Dword) (hdr : PtpHeader) (followUp : Bool) (t1 : Option Dword) (jitter : Int) (s : State) :
    Host.Outcome State Fault Refusal :=
  let seq := hdr.seq
  .next (if !fromMaster domain hdr.udp port s ∨ hdr.log < -4 ∨ 1 < hdr.log then s
  else if followUp then
    match s.pos.syncT1 with
    | some (none, t2, q) => if q = seq then { s with pos := { s.pos with syncT1 := some (t1, t2, q) } } else s
    | _ => s
  else { s with pos := { s.pos with
    syncT1 := some (t1, BitVec.ofInt 64 (s.pos.netNow + jitter), seq), syncAt := s.pos.mono, syncNs := logNs hdr.log } })

/-- PTP_DELAY_REQ_TX (R341), by the transport of TIME_CONFIG, over UDP from the unit's own address (R360). -/
def execPtpDelayReqTx (seq : Nat) (jitter : Int) (s : State) : Host.Outcome State Fault Refusal :=
  .next (if !s.pos.ptpEnable ∨ s.pos.master.isNone then s else
    emit (.delayReq seq (if s.pos.ptpUdp then some (s.pos.ipv4, s.pos.ipv4Mask) else none)) { s with pos := { s.pos with delayT3 := some (BitVec.ofInt 64 (s.pos.netNow + jitter), seq) } })

/-- An exchange: round trip and offset. -/
def exchangeOf (t1 t2 t3 t4 : Int) : Int × Int := ((t4 - t1) - (t3 - t2), ((t2 - t1) - (t4 - t3)) / 2)

/-- The exchange of a window with the smallest round trip. -/
def bestOf : List (Int × Int) → Option (Int × Int)
  | [] => none
  | x :: xs => match bestOf xs with
    | none => some x
    | some y => if x.1 ≤ y.1 then some x else some y

/-- PTP_DELAY_RESP_RX (R341): the exchange joins the window of 8, which then gives a filtered exchange. -/
def execPtpDelayRespRx (domain : Byte) (source : PtpSource) (seq : Nat) (t4 : Dword) (s : State) : Host.Outcome State Fault Refusal :=
  .next (if !fromMaster domain source.udp source.port s then s else
    match s.pos.syncT1, s.pos.delayT3 with
    | some (some t1, t2, _), some (t3, q) =>
      if q ≠ seq then s else
        let x := exchangeOf t1.toNat t2.toNat t3.toNat t4.toNat
        let all := s.pos.xchg ++ [x]
        let s1 := { s with pos := { s.pos with syncT1 := none, delayT3 := none, xchg := if all.length ≥ 8 then [] else all } }
        if all.length < 8 then s1 else match bestOf all with
          | some b => filtered b.2 s1
          | none => s1
    | _, _ => s)

/-- The best master clock order (R340): priority 1, class, accuracy, variance, priority 2, identity, steps removed, port. -/
def PtpMaster.key (m : PtpMaster) : List Nat := [m.p1, m.cls, m.acc, m.var, m.p2, m.gm.toNat, m.steps, m.port.toNat]

/-- Lexicographic order. -/
def lexLt : List Nat → List Nat → Bool
  | [], _ => false
  | _, [] => false
  | x :: xs, y :: ys => decide (x < y) || (x == y && lexLt xs ys)

/-- The best of the foreign masters that have been heard often enough. PRESUMED: 2 Announce messages, as IEEE 1588 qualifies one (log 24). -/
def selectMaster (l : List (PtpMaster × Nat)) : Option PtpMaster :=
  (l.filter fun x => decide (2 ≤ x.2)).foldl (fun b x => match b with
    | none => some x.1
    | some y => if lexLt x.1.key y.key then some x.1 else some y) none

/-- PTP_ANNOUNCE_RX (R340, R343): the data set of a foreign master and its announce interval. DEDUCED: until a new master's first Sync its sync interval is
taken as the longest accepted, 2 s (log 24). -/
def execPtpAnnounceRx (domain : Byte) (p1 cls acc var p2 : Nat) (gm : Dword) (steps : Nat) (source : PtpSource) (s : State) :
    Host.Outcome State Fault Refusal :=
  let port := source.port
  .next (if !hears domain source.udp s then s else
    let m : PtpMaster := { p1 := p1, cls := cls, acc := acc, var := var, p2 := p2, gm := gm, steps := steps, port := port }
    let n := ((s.pos.foreign.find? fun x => x.1.port == port).map (·.2)).getD 0
    let foreign := (m, n + 1) :: s.pos.foreign.filter fun x => x.1.port != port
    let best := selectMaster foreign
    let same := best.map (·.port) == s.pos.master.map (·.port)
    let heard := best.map (·.port) == some port
    let s1 : State := { s with pos := { s.pos with
      foreign := foreign, master := best
      annAt := if heard then s.pos.mono else s.pos.annAt, annNs := if heard then logNs source.log else s.pos.annNs
      syncAt := if same then s.pos.syncAt else s.pos.mono, syncNs := if same then s.pos.syncNs else logNs 1
      xchg := if same then s.pos.xchg else [], syncT1 := if same then s.pos.syncT1 else none, delayT3 := if same then s.pos.delayT3 else none } }
    if best.isSome ∧ (s1.pos.tState = .freeRun ∨ s1.pos.tState = .expired) then setTime .acquiring none s1 else s1)

/-- RATE_ADJ in HOLDOVER: the mean of its last 64 updates (R345). -/
def meanRate (p : Pos) : Int := if p.rateHist.isEmpty then p.rateAdj else p.rateHist.sum / (p.rateHist.length : Int)

/-- No Announce for 3 announce intervals, or no Sync for 4 sync intervals (R343). -/
def masterGone (s : State) : Bool :=
  decide (3 * s.pos.annNs ≤ s.since s.pos.annAt) || decide (4 * s.pos.syncNs ≤ s.since s.pos.syncAt)

/-- The selected master is lost (R343, R345); `left` are the foreign masters that remain. -/
def loseMaster (left : List (PtpMaster × Nat)) (s : State) : State :=
  let s1 := { s with pos := { s.pos with master := none, foreign := left, xchg := [], syncT1 := none, delayT3 := none } }
  if s1.pos.tState = .locked then
    setTime .holdover (some .ptpMasterLost) { s1 with pos := { s1.pos with rateAdj := meanRate s1.pos } }
  else stickRec .ptpMasterLost s1

/-- PTP_MASTER_LOST (R343). -/
def execPtpMasterLost (s : State) : Host.Outcome State Fault Refusal :=
  .next (match s.pos.master with
    | none => s
    | some m => if !masterGone s then s else loseMaster (s.pos.foreign.filter fun x => x.1.port != m.port) s)

/-- The masters of another domain or transport are not among those the unit hears (R340, R360): none of them stays. DEDUCED: a selected one is lost at once
(log 24). -/
def forgetMasters (s : State) : State :=
  if s.pos.master.isSome then loseMaster [] s else { s with pos := { s.pos with foreign := [] } }

/-- HOLDOVER_EXPIRED (R345). -/
def execHoldoverExpired (s : State) : Host.Outcome State Fault Refusal :=
  .next (if s.pos.tState = .holdover ∧ s.pos.errNow > 1000 * s.pos.holdLimit then setTime .expired (some .holdoverExpired) s else s)

/-- TIME_CONFIG (R340, R355, R360). -/
def execTimeConfig (slot : Fin 16) (s : State) : Host.Outcome State Fault Refusal :=
  .next (command 0x0907 5 slot
    (fun s ws => [reservedW ws 0 0xFF03, (decide (wn ws 1 < 1 ∨ wn ws 1 > 100000), badParam 1),
      (decide (wn ws 2 < 1 ∨ wn ws 2 > 1000), badParam 2), notBoot s])
    (fun _ ws s =>
      let on := flag (wd ws 0) 0
      let p := s.pos
      let s1 := { s with pos := { p with
        ptpEnable := on, ptpUdp := flag (wd ws 0) 1, ptpDomain := BitVec.ofNat 8 (fld (wd ws 0) 8 8), holdPpb := wn ws 1, holdLimit := wn ws 2
        ipv4 := wd ws 3, ipv4Mask := wd ws 4 } }
      let off := { s1 with pos := { s1.pos with master := none, foreign := [], xchg := [], syncT1 := none, delayT3 := none } }
      let same := p.ptpUdp == s1.pos.ptpUdp && p.ptpDomain == s1.pos.ptpDomain
      done (if !on then setTime .freeRun none off else if same then s1 else forgetMasters s1, ok)) s)

/-- TIME_SET (R344, R355). -/
def execTimeSet (slot : Fin 16) (s : State) : Host.Outcome State Fault Refusal :=
  .next (command 0x0908 2 slot (fun s _ => [(!(s.pos.tState == .freeRun || s.pos.tState == .expired), badState)])
    (fun _ ws s =>
      let delta : Int := (wn64 ws 0 : Int) - s.pos.netNow
      let s1 := stepNet delta s
      done ({ s1 with pos := { s1.pos with net := BitVec.ofNat 96 (wn64 ws 0 * 2 ^ 32) } }, ok)) s)

/-! ## Absolute-position ports (R351, R352, R361) -/

/-- Gray code to binary. -/
def ungray : Nat → Nat → Nat
  | 0, x => x
  | n + 1, x => Nat.xor x (ungray n (x / 2))

/-- The bits of a number, most significant first. -/
def bitsOf (n x : Nat) : List Bool := (List.range n).map fun i => x.testBit (n - 1 - i)

/-- The CRC of R351 over position and error bits. DEDUCED: CRC_XOROUT is the inversion of the bits sent (log 24). -/
def absCrc (a : AbsPort) (pos err : Nat) : Nat :=
  if a.crcWidth = 0 then 0 else
    Nat.xor ((bitsOf a.posBits pos ++ bitsOf a.errBits err).foldl (crcBit a.crcWidth a.crcPoly) 0) (a.crcXor % 2 ^ a.crcWidth)

/-- Outcome of a read (R352): 0 GOOD, 1 WARN, 2 TIMEOUT, 3 CRC, 4 ENC_ERROR, 5 JUMP. `pos` is as decoded. -/
def absOutcome (a : AbsPort) (started : Bool) (pos err crcRx : Nat) : Nat :=
  let jump := a.good && a.maxStep != 0 && decide (((pos : Int) - a.pos.toNat).natAbs > a.maxStep)
  if !started then 2
  else if a.protocol = 1 ∧ crcRx ≠ absCrc a pos err then 3
  else if a.protocol = 1 ∧ a.errBits ≥ 1 ∧ ¬ err.testBit (a.errBits - 1) then 4
  else if jump then 5
  else if a.protocol = 1 ∧ a.errBits = 2 ∧ ¬ err.testBit 0 then 1
  else 0

/-- Changes port k. -/
def setAbs (k : Nat) (f : AbsPort → AbsPort) (s : State) : State := { s with pos := { s.pos with abs := upd s.pos.abs k f } }

/-- ABS_READ_DONE (R351, R352): whether the encoder answered, its position bits, its error bits and its CRC bits. The read ends a control
cycle of its axis (R373), and Onyx checks it on its own (R459). -/
def execAbsReadDone (port : Fin 2) (started : Bool) (raw err crcRx : Nat) (s : State) : Host.Outcome State Fault Refusal :=
  let a := cell s.pos.abs port {}
  .next (if !a.reading then s else
    let pos := if a.protocol = 2 ∧ a.gray then ungray a.posBits (raw % 2 ^ a.posBits) else raw % 2 ^ a.posBits
    let o := absOutcome a started pos err crcRx
    let s1 := if o < 2 then
        let run := min 3 (a.goodRun + 1)
        setAbs port (fun a => { a with reading := false, outcome := o, warn := o == 1, pos := BitVec.ofNat 40 pos, good := true, badRun := 0
                                       goodRun := run, posValid := a.posValid || decide (run ≥ 3) }) s
      else
        let run := min 3 (a.badRun + 1)
        let s1 := (if a.badRun = 2 then stick .absError else stickRec (source := 0x40 + port) .absError) (setAbs port (fun a => { a with
          reading := false, outcome := o, warn := false, goodRun := 0, badRun := run, errors := satAdd a.errors 1
          posValid := a.posValid && decide (run < 3) }) s)
        if a.badRun = 2 then
          stickEvent (if (port : Nat) = 0 then .abs0Fault else .abs1Fault) { ev := .absFault, source := 0x40 + port, p0 := w32 port, p1 := w32 o } s1
        else s1
    let read := started && (a.protocol != 1 || crcRx == absCrc a pos err)
    onyxAbsRead port (if read then some (w32 pos) else none) (controlCycle port a.posValid s1))

/-- Time of a read in ns (R351): the bits at CLOCK_KHZ, and MONO_US for SSI. DEDUCED (log 24). -/
def readTime (protocol posBits errBits crcWidth khz mono : Nat) : Nat :=
  match protocol with
  | 1 => (2 + posBits + errBits + crcWidth) * 1000000 / khz
  | 2 => posBits * 1000000 / khz + 1000 * mono
  | _ => 0

/-- POS_ABS_CONFIG (R355, R361). DEDUCED: a port with new settings has no valid position until three good reads (log 24), and its axis takes that as any
loss of POS_VALID (R375). -/
def execPosAbsConfig (slot : Fin 16) (s : State) : Host.Outcome State Fault Refusal :=
  .next (command 0x0906 5 slot
    (fun s ws =>
      let w := wd ws 0
      let k := fld w 0 1
      let khz := fld (wd ws 1) 0 16
      let out := fun (x lo hi : Nat) => decide (x < lo ∨ hi < x)
      let t := s.timer k
      let ax := cell s.axes.ax k {}
      let long := t.st == 1 && t.period != 0 && khz != 0 &&
        decide (readTime (fld w 1 2) (fld w 4 6) (fld w 10 2) (fld w 12 5) khz (fld (wd ws 2) 24 8) > t.period)
      [(fld w 1 2 == 3 || out (fld w 4 6) 8 40 || fld w 10 2 == 3 || out (fld w 12 5) 0 16, badParam 0), reservedW ws 0 0x1FFFF,
       (out khz 100 10000 || long, badParam 1), (out (fld (wd ws 2) 16 8) 1 100 || out (fld (wd ws 2) 24 8) 1 100, badParam 2),
       (decide (fld (wd ws 3) 0 16 > 2000), badParam 3), reservedW ws 3 0xFFFF,
       (ax.vel != 0, badState)])
    (fun _ ws s =>
      let w := wd ws 0
      let k := fld w 0 1
      let s := if (cell s.pos.abs k {}).posValid then posLost k s else s
      done (setAbs k (fun a => { a with
        protocol := fld w 1 2, gray := flag w 3, posBits := fld w 4 6, errBits := fld w 10 2, crcWidth := fld w 12 5
        clockKhz := fld (wd ws 1) 0 16, crcPoly := fld (wd ws 1) 16 16, crcXor := fld (wd ws 2) 0 16, timeoutUs := fld (wd ws 2) 16 8
        monoUs := fld (wd ws 2) 24 8, delayNs := fld (wd ws 3) 0 16, maxStep := wn ws 4
        reading := false, posValid := false, good := false, badRun := 0, goodRun := 0 }) s, ok)) s)

end Sys2Proof.Machine
end

