-- ==== Sys2Proof/Machine/Axis.lean ====
section
/-!
DEFINITION. Bar lift and cap axes (R362 to R389): the planner's tick, choppers, switch edges, homing, the cap and wipe sequences and the
axis commands.
-/
namespace Sys2Proof.Machine

/-! ## Planner tick (R369, R371, R372, R378) -/

/-- The axis takes a velocity and acceleration for a tick, and while it moves I_NOW is at least I_RUN (R365, R370). -/
def Axis.go (x : Axis) (v acc : Int) : Axis :=
  let x1 := x.steps v
  if v = 0 then { x1 with vel := 0, accel := acc } else { x1 with vel := v, accel := acc, hold := false, iNow := max x1.iNow x.cfg.iRun }

/-- One tick of stopping. -/
def Axis.stopTick (x : Axis) (hard : Bool) : Axis :=
  if x.vel = 0 then { x with accel := 0 } else
    let p := if x.cfg.jMax = 0 then (0, 0) else brakeEither x.vel x.accel (x.accLim hard) x.cfg.jMax
    x.go p.1 p.2

/-- The axis can move at all: its limits are not 0 (R388). -/
def Axis.canMove (x : Axis) : Bool := x.cfg.jMax != 0 && x.cfg.aMax != 0 && x.cfg.vMax != 0

/-- One tick of homing's motion (R379). -/
def Axis.homeMotion (x : Axis) (h : HomeJob) : Axis :=
  if h.phase = 0 ∨ h.phase = 2 then
    if !x.canMove then x else
      let d : Int := if x.cfg.homeDir == (h.phase == 2) then 1 else -1
      let p := planTick (x.vel * d) (x.accel * d) ((min x.cfg.homeV x.cfg.vMax : Nat) * 10 ^ 10) (x.accLim false) x.cfg.jMax []
      x.go (p.1 * d) (p.2 * d)
  else x.stopTick (h.phase = 4 || x.stopHard)

/-- One tick towards the target of the head of the queue (R369): it ends at the target with zero velocity, unless a blended move goes
on. -/
def Axis.moveMotion (x : Axis) (m : Move) (rest : List Move) : Axis :=
  if !x.canMove then x else
    let left := m.target - x.cmd
    let d := if left = 0 then sgn x.vel else sgn left
    let lim := x.accLim false
    let p := planTick (x.vel * d) (x.accel * d) (x.limit m.v) lim x.cfg.jMax (x.stops d (m :: rest))
    let x1 := x.go (p.1 * d) (p.2 * d)
    let reach := decide (0 < left * d ∧ (m.target - x1.cmd) * d ≤ 0 ∧ p.1 ≤ 16 * min (x.cfg.jMax : Int) lim + 10 ^ 9)
    if !m.goesOn d rest && (reach || p.1 == 0 && decide (left.natAbs ≤ 1)) then
      { x1 with cmd := m.target, vel := 0, accel := 0, frac := 0, elec := (((x1.elec : Int) + (m.target - x1.cmd)) % 1024).toNat }
    else x1

/-- The head of the queue completes: OK with MEAS (R387). -/
def moveDone (a : Nat) (s : State) : State :=
  let x := s.axis a
  let s1 := setAxis a (fun x => { x with queue := x.queue.drop 1 }) s
  match x.queue with
  | { tag := some t, .. } :: _ => complete 0x0A02 t 0 (wInt x.meas) 0 0 s1
  | _ => s1

/-- A move that blends completes when its target is passed (R369). -/
def passTick (a : Nat) (s : State) : State :=
  let x := s.axis a
  match x.queue with
  | m :: rest =>
    if m.goesOn m.dir rest ∧ (m.target - x.cmd) * m.dir ≤ 0 ∧ 0 < x.vel * m.dir then moveDone a s else s
  | [] => s

/-- The head of the queue begins: its direction is noted. -/
def Axis.begin_ (x : Axis) : Axis :=
  match x.queue with
  | m :: rest => if m.dir = 0 then { x with queue := { m with dir := sgn (m.target - x.cmd) } :: rest } else x
  | [] => x

/-- The motion of a tick. A move at its target completes once |following error| ≤ STALL_ERR (worked example of the chapter). -/
def motionTick (a : Nat) (s : State) : State :=
  let x := s.axis a
  let rest : AxState := if s.axes.seq.isSome then .sequence else .idle
  if x.st = .fault then setAxis a (fun x => x.stopTick true) s
  else if x.st = .stopping then
    setAxis a (fun x =>
      let y := x.stopTick x.stopHard
      if y.vel = 0 then { y with st := rest, stopHard := false } else y) s
  else match x.home with
  | some h => setAxis a (fun x => x.homeMotion h) s
  | none =>
    let s1 := setAxis a Axis.begin_ (passTick a s)
    match (s1.axis a).queue with
    | [] => setAxis a (fun x => { x.stopTick false with st := if x.vel = 0 then rest else x.st }) s1
    | m :: ms =>
      let y := s1.axis a
      if m.target = y.cmd ∧ y.vel = 0 then
        let s2 := setAxis a (fun x => { x with accel := 0 }) s1
        if m.tag.isSome ∧ y.err.natAbs > y.cfg.stallErr then s2 else moveDone a s2
      else setAxis a (fun x => { x.moveMotion m ms with st := if rest = .idle then .moving else rest }) s1

/-! ## Homing (R379, R380) -/

/-- Homing has succeeded (R380): MEAS and the commanded position shift together, the offset is stored, then the axis' bit of
AX_HOMED. With PRF page 0 read-only it has no effect but WEAR_LIMIT (R508); where the offset was the page's last write, HOMED is not set. -/
def homeDone (a : Nat) (h : HomeJob) (edge : Int) (s : State) : State :=
  let x := s.axis a
  if pageFull s.pers 0 then
    complete 0x0A04 h.tag 0x40 0 0 0 (wornOut 0 (setAxis a (fun x => { x with st := .idle, home := none, stopHard := false }) s)) else
  let delta := x.cfg.homePos - edge
  let offset := wrap32 (x.offset + delta)
  let s1 := setAxis a (fun x => { x with
    st := .idle, home := none, stopHard := false, offset := offset, cmd := wrap32 (x.cmd + delta), meas := wrap32 (x.meas + delta)
    latched := wrap32 (x.latched + delta), edgePos := x.edgePos.map fun p => wrap32 (p + delta) }) s
  let s2 := prfStore (8 + a) (wInt offset) s1
  let w := wd s2.pers.prf 10
  if !flag w a && pageFull s2.pers 0 then complete 0x0A04 h.tag 0x40 0 0 0 (wornOut 0 s2) else
  let s3 := if flag w a then s2 else prfStore 10 (w ||| (1#32 <<< a)) s2
  complete 0x0A04 h.tag 0 (wInt edge) (w32 (b2n h.far)) 0 (setAxis a (fun x => { x with homed := true }) s3)

/-- Homing's steps at a tick (R379). -/
def homeTick (a : Nat) (s : State) : State :=
  let x := s.axis a
  match x.home with
  | none => s
  | some h =>
    let on := x.sw.getLsbD 2
    let set := fun (h : HomeJob) => setAxis a (fun x => { x with home := some h }) s
    if h.phase = 0 then
      let seen := h.seen || on
      let edge := match h.edge with
        | some e => some e
        | none => if seen && !on then some x.cmd else none
      let past := match edge with
        | some e => decide (|x.cmd - e| ≥ (x.cfg.swHyst : Int))
        | none => false
      set { h with seen := seen, edge := edge, phase := if past then 1 else 0 }
    else if x.vel ≠ 0 then s
    else if h.phase = 1 then set { h with phase := 2, edge := none }
    else if h.phase = 4 then set { h with phase := 0, edge := none, seen := on }
    else if h.phase = 3 then homeDone a h (h.edge.getD 0) s
    else s

/-! ## Sequences (R383) -/

/-- The move of a sequence step: axis, target, velocity limit (R383). -/
def seqMove (x : Axes) (seq step : Nat) : Option (Nat × Int × Nat) :=
  match seq, step with
  | 1, 1 => some (0, x.lift 2, 0)
  | 1, 2 => some (1, x.cap 1, 0)
  | 1, 3 => some (0, x.lift 3, 0)
  | 2, 1 => some (0, x.lift 2, 0)
  | 2, 2 => some (1, x.cap 0, 0)
  | 3, 1 => some (0, x.lift 2, 0)
  | 3, 2 => some (1, x.cap 2, 0)
  | 3, 3 => some (0, x.lift 4, 0)
  | 3, 4 => some (1, x.cap 3, x.wipeV)
  | 3, 5 => some (0, x.lift 2, 0)
  | 3, 7 => some (1, x.cap 0, 0)
  | _, _ => none

/-- The sequence is done: completion OK. -/
def seqDone (q : SeqJob) (s : State) : State :=
  let s1 := { s with axes := { s.axes with seq := none, seqStep := 0 } }
  let idle := fun (x : Axis) => { x with st := if x.st = .sequence then .idle else x.st }
  complete 0x0A05 q.tag 0 0 0 0 (setAxis 1 idle (setAxis 0 idle s1))

/-- The sequence goes to a step. -/
def seqGo (q : SeqJob) (step : Nat) (s : State) : State :=
  { s with axes := { s.axes with seq := some { q with issued := false, since := s.pos.mono }, seqStep := step } }

/-- A limit switch is active towards which a target lies (R376). -/
def Axis.limited (x : Axis) (target : Int) : Bool :=
  (x.sw.getLsbD 0 && decide (target < x.cmd)) || (x.sw.getLsbD 1 && decide (target > x.cmd))

/-- A sequence's part of a tick (R383, R384): a step waits until its move has completed with |following error| ≤ POS_TOL. -/
def seqTick (s : State) : State :=
  match s.axes.seq with
  | none => s
  | some q =>
    let step := s.axes.seqStep
    match seqMove s.axes q.seq step with
    | some (a, target, v) =>
      let x := s.axis a
      if !q.issued then
        if x.limited target then abortSeq a (some 2) true s else
          setAxis a (fun x => { x with queue := x.queue ++ [{ target := target, v := v }] })
            { s with axes := { s.axes with seq := some { q with issued := true } } }
      else if x.queue.isEmpty && x.vel == 0 && decide (x.err.natAbs ≤ s.axes.posTol) then
        if (q.seq = 3 ∧ step = 7) then seqDone q s else seqGo q (step + 1) s
      else s
    | none =>
      if q.seq = 1 then
        if (s.axis 1).capConf then seqDone q s
        else if s.pos.mono.toNat ≥ q.since.toNat + s.axes.confirmMs * 1000000 then abortSeq 1 none true s
        else s
      else if q.seq = 2 then (if capParked s then seqDone q s else abortSeq 1 none true s)
      else if q.strokes + 1 < q.passes then seqGo { q with strokes := q.strokes + 1 } 2 s
      else seqGo q 7 s

/-- Notes when an axis comes to stand still (R370). -/
def noteStill (a : Nat) (before s : State) : State :=
  if (before.axis a).vel ≠ 0 ∧ (s.axis a).vel = 0 then setAxis a (fun x => { x with stillAt := s.pos.mono }) s else s

/-- One axis' tick. -/
def axisTick (s : State) (a : Nat) : State :=
  noteStill a s (homeTick a (motionTick a (applyCauses a (interlockTick a (setAxis a Axis.unmask s)))))

/-- PLANNER_TICK (R369, R378): each 10 µs both axes, then the sequence. -/
def execPlannerTick (s : State) : Host.Outcome State Fault Refusal :=
  .next (if s.since s.axes.tickAt < 10000 then s else
    capUpdate (seqTick ([0, 1].foldl axisTick { s with axes := { s.axes with tickAt := s.pos.mono } })))

/-- AX_HOLD_CURRENT (R370): the axis has stood still for HOLD_MS; a boost that has not yet fallen to I_RUN goes on falling with the control cycles. -/
def execAxHoldCurrent (axis : Fin 2) (s : State) : Host.Outcome State Fault Refusal :=
  let x := s.axis axis
  .next (if x.vel ≠ 0 ∨ x.hold ∨ s.since x.stillAt < 1000000 * x.cfg.holdMs then s else
    setAxis axis (fun x => { x with hold := true, iNow := if x.err.natAbs > x.cfg.boostErr ∨ x.iNow > x.cfg.iRun then x.iNow else x.cfg.iHold }) s)

/-! ## Choppers (R366 to R368) -/

/-- A phase of an axis: A, or B. -/
def Axis.phase (x : Axis) (b : Bool) : Phase := if b then x.phB else x.phA

/-- Changes a phase. -/
def setPhase (a : Nat) (b : Bool) (f : Phase → Phase) (s : State) : State :=
  setAxis a (fun x => if b then { x with phB := f x.phB } else { x with phA := f x.phA }) s

/-- |S| of a phase is falling (R368). -/
def Axis.falling (x : Axis) (b : Bool) : Bool :=
  let k := x.phaseIndex b % 512
  if x.vel > 0 then decide (256 ≤ k) else if x.vel < 0 then decide (0 < k ∧ k ≤ 256) else false

/-- CHOP_ON_END (R367, R368): T_BLANK has passed and the comparator is high. The off-period begins, its first FAST_FRAC ÷ 8 in reverse polarity. -/
def execChopOnEnd (axis : Fin 2) (b : Bool) (s : State) : Host.Outcome State Fault Refusal :=
  let x := s.axis axis
  let p := x.phase b
  .next (if !p.on ∨ s.since p.since < 50 * x.cfg.tBlank then s else
    let fast := x.cfg.fastFrac != 0 && p.code != 0 && (x.cfg.decay == 1 || (x.cfg.decay == 2 && x.falling b))
    let q : Phase := { p with on := false, fast := fast, since := s.pos.mono }
    let s2 := drive (bridgeOut axis b q) (setPhase axis b (fun _ => q) s)
    if fast then emit (.pulse (bridgePin axis b (!p.neg)) (x.cfg.tOff * 100 * x.cfg.fastFrac / 8) true s2.pos.mono.toNat) s2 else s2)

/-- CHOP_OFF_END (R363, R366, R367): T_OFF has passed. DESIGN CHOICE: FWD_SENSE 1 turns the motor the other way by driving phase B in the opposite
polarity (log 25). A new on-period in the polarity of S with the DAC code of the moment; code 0 holds both inputs at 0. -/
def execChopOffEnd (axis : Fin 2) (b : Bool) (s : State) : Host.Outcome State Fault Refusal :=
  let x := s.axis axis
  .next (if (x.phase b).on ∨ s.since (x.phase b).since < 100 * x.cfg.tOff then s else
    let n := x.phaseIndex b
    let code := dacCode x.iNow n
    let neg := sineNeg n != (b && x.cfg.fwdSense)
    let q : Phase := { on := true, fast := false, code := code, neg := neg, since := s.pos.mono }
    drive (bridgeOut axis b q) (setPhase axis b (fun _ => q) s))

/-! ## Switches (R376, R377, R379, R384) -/

/-- LIMIT_SWITCH_EDGE (R376, R383: any trip aborts a sequence): the level accepted, and the MOT clocks since the first clock of its stable run. -/
def execLimitSwitchEdge (axis : Fin 2) (hi level : Bool) (clocks : Nat) (s : State) : Host.Outcome State Fault Refusal :=
  let r := switchInput axis (b2n hi) level clocks s
  let s1 := r.2
  let x := s1.axis axis
  .next (if !(r.1 && x.sw.getLsbD (b2n hi)) then s1 else
    let s2 := setAxis axis (fun x => { x with limitTrips := satAdd x.limitTrips 1 }) s1
    let s3 := stickEvent .limitTrip
      { ev := .limitTrip, source := 0x40 + axis, p0 := w32 axis, p1 := w32 (b2n hi), p2 := wInt x.meas } s2
    if x.heading = (if hi then 1 else -1) ∨ s.axes.seq.isSome then addCause axis .limit s3 else s3)

/-- HOME_EDGE (R377, R379): the edge latches the commanded position; the one that homing looks for ends its step 2. -/
def execHomeEdge (axis : Fin 2) (level : Bool) (clocks : Nat) (s : State) : Host.Outcome State Fault Refusal :=
  let r := switchInput axis 2 level clocks s
  let s1 := r.2
  let x := s1.axis axis
  let on := x.sw.getLsbD 2
  .next (match x.home with
    | none => s1
    | some h =>
      if !r.1 then s1
      else if h.phase = 2 ∧ on then setAxis axis (fun x => { x with home := some { h with phase := 3, edge := some x.edgeLatch } }) s1
      else if h.phase = 0 ∧ ¬ on then setAxis axis (fun x => { x with home := some { h with edge := some x.edgeLatch } }) s1
      else s1)

/-- CAP_SW_EDGE (R377, R384). -/
def execCapSwEdge (level : Bool) (clocks : Nat) (s : State) : Host.Outcome State Fault Refusal :=
  .next (capUpdate (switchInput 1 3 level clocks s).2)

/-! ## Commands (R387 to R389) -/

/-- The axis view, 0x00 to 0x28 (R385). -/
def axisView (a : Nat) (s : State) : List Word :=
  let x := s.axis a
  let st := match x.st with
    | .idle => 0 | .moving => 1 | .homing => 2 | .sequence => 3 | .stopping => 4 | .fault => 5
  let w0 := st + 8 * min 8 x.queue.length + 128 * b2n x.homed + 256 * x.sw.toNat + 4096 * b2n (a == 1 && x.capConf) + 8192 * x.fault + 65536 * x.interlock
  [w32 w0, wInt x.cmd, wInt x.meas, wInt (x.vel / 10 ^ 10), wInt x.err, w32 (x.iNow + 1024 * x.phA.code + 1048576 * x.phB.code),
   wInt x.edgeLatch, x.stalls, x.limitTrips, x.replans, w32 s.axes.seqStep]

/-- The control cycle of an axis has a period of 100 µs to 10 ms (R373). -/
def cycleOk (a : Nat) (s : State) : Bool :=
  let t := s.timer a
  t.st == 1 && t.action == 4 && decide (100000 ≤ t.period ∧ t.period ≤ 10000000)

/-- AX_GET_STATUS (R387). -/
def execAxGetStatus (slot : Fin 16) (s : State) : Host.Outcome State Fault Refusal :=
  .next (command 0x0A00 1 slot (fun s ws => [reservedW ws 0 0x101, notBoot s])
    (fun _ ws s =>
      let a := fld (wd ws 0) 0 1
      let s1 := if flag (wd ws 0) 8 then setAxis a (fun x => { x with stalls := 0, limitTrips := 0, replans := 0 }) s else s
      done (s1, okWith (axisView a s))) s)

/-- The configuration a payload of AX_CONFIG gives (R388). -/
def axCfgOf (ws : List Word) : AxCfg :=
  let w := wd ws 0
  { fwdSense := flag w 1, decay := fld w 2 2, fastFrac := fld w 4 3, pol := BitVec.ofNat 4 (fld w 8 4), homeDir := flag w 12
    tOff := fld (wd ws 1) 0 8, tBlank := fld (wd ws 1) 8 8, holdMs := fld (wd ws 1) 16 8, stallCycles := fld (wd ws 1) 24 8
    iHold := fld (wd ws 2) 0 10, iRun := fld (wd ws 2) 10 10, iBoost := fld (wd ws 2) 20 10
    vMax := wn ws 3, aMax := wn ws 4, dMax := wn ws 5, jMax := wn ws 6
    softMin := (wd ws 7).toInt, softMax := (wd ws 8).toInt, absRatio := wn ws 9
    stallErr := fld (wd ws 10) 0 16, boostErr := fld (wd ws 10) 16 16, filtN := fld (wd ws 11) 0 16, swHyst := fld (wd ws 11) 16 16
    boostGain := fld (wd ws 12) 0 16, homeV := wn ws 13, homePos := (wd ws 14).toInt }

/-- AX_CONFIG (R377, R388). -/
def execAxConfig (slot : Fin 16) (s : State) : Host.Outcome State Fault Refusal :=
  .next (command 0x0A01 15 slot
    (fun s ws =>
      let c := axCfgOf ws
      [reservedW ws 0 0x1F7F, (c.decay == 3, badParam 0),
       (decide (c.tOff < 5 ∨ c.tBlank < 4 ∨ 60 < c.tBlank ∨ c.stallCycles = 0), badParam 1),
       reservedW ws 2 0x3FFFFFFF, (decide (c.iRun < c.iHold ∨ c.iBoost < c.iRun), badParam 2),
       (decide (c.vMax > 2000000), badParam 3), (decide (c.dMax < c.aMax), badParam 4), (c.filtN == 0, badParam 11),
       reservedW ws 12 0xFFFF, ((s.axis (fld (wd ws 0) 0 1)).st != .idle || s.host.opState == .safe, badState)])
    (fun _ ws s => done (capUpdate (setAxis (fld (wd ws 0) 0 1) (fun x => { x.repolar (axCfgOf ws).pol with cfg := axCfgOf ws }) s), ok)) s)

/-- Homing or a sequence runs (interlock 4 of R381). -/
def axesBusy (s : State) : Bool := s.axes.seq.isSome || s.axes.ax.any (·.home.isSome)

/-- The interlock that refuses an AX_MOVE (R381): none refuses an upward one of LIFT. -/
def moveInterlock (a : Nat) (target : Int) (s : State) : Option Nat :=
  match interlockOf a target target false s with
  | some n => some n
  | none => if axesBusy s ∧ ¬ (a = 0 ∧ (s.axis 0).cmd < target) then some 4 else none

/-- A move joins the queue of axis a, or replaces it (R369, R371), after what acts on the axis before a command (R378). -/
def queueMove (a : Nat) (m : Move) (replace : Bool) (s0 : State) : State :=
  let s := settle a s0
  let x := s.axis a
  let join := fun (s : State) => setAxis a (fun x => { x with queue := x.queue ++ [m] }) s
  if !replace then join s else
    let s1 := emptyQueue a 0x12 1 s
    let s2 := if x.canStopAt m.target then s1 else
      stickEvent .replanReverse { ev := .replanReverse, source := 0x40 + a, p0 := w32 a, p1 := wInt x.cmd }
        (setAxis a (fun x => { x with replans := satAdd x.replans 1 }) s1)
    join s2

/-- AX_MOVE (R369, R371, R376, R381, R387). -/
def execAxMove (slot : Fin 16) (s : State) : Host.Outcome State Fault Refusal :=
  .next (command 0x0A02 3 slot
    (fun s ws =>
      let a := fld (wd ws 0) 0 1
      let x := s.axis a
      let target := (wd ws 1).toInt
      let up := a == 0 && decide (target > x.cmd)
      let op := s.host.opState
      [reservedW ws 0 7, (decide (target < x.cfg.softMin ∨ x.cfg.softMax < target), badParam 1), (decide (wn ws 2 > x.cfg.vMax), badParam 2),
       (!(op == .ready || op == .print || op == .service || (op == .safe && up)), badState),
       (!cycleOk a s || x.st == .fault || x.limited target, badState)])
    (fun tag ws s =>
      let w := wd ws 0
      let a := fld w 0 1
      let target := (wd ws 1).toInt
      match moveInterlock a target s with
      | some n => done (setAxis a (fun x => { x with interlock := n }) s, { badState with payload := [w32 n] })
      | none =>
        if (!flag w 2 && decide ((s.axis a).queue.length ≥ 8)) || (completionsFull s).1 then done (s, noResource)
        else if ((settle a s).axis a).st = .fault then done (settle a s, badState)
        else done (queueMove a { target := target, v := wn ws 2, blend := flag w 1, tag := some tag } (flag w 2) (outstand 0x0A02 tag a s), accepted)) s)

/-- AX_STOP (R372, R378, R387), after the causes that come before it. -/
def execAxStop (slot : Fin 16) (s : State) : Host.Outcome State Fault Refusal :=
  .next (command 0x0A03 1 slot (fun s ws => [reservedW ws 0 3, notBoot s])
    (fun _ ws s =>
      let a := fld (wd ws 0) 0 1
      let hard := flag (wd ws 0) 1
      let s1 := abortSeq a (some 1) hard (failHome a 0x12 (emptyQueue a 0x12 1 (settle a s)))
      done (addCause a (if hard then .stopHard else .stopSoft) s1, ok)) s)

/-- AX_HOME (R379, R387). -/
def execAxHome (slot : Fin 16) (s : State) : Host.Outcome State Fault Refusal :=
  .next (command 0x0A04 1 slot
    (fun s ws =>
      let a := fld (wd ws 0) 0 1
      [reservedW ws 0 1, (s.host.opState != .ready || (s.axis a).st != .idle, badState),
       (!cycleOk a s || !(cell s.pos.abs a {}).posValid, badState)])
    (fun tag ws s =>
      let a := fld (wd ws 0) 0 1
      let on := (s.axis a).sw.getLsbD 2
      let s1 := setAxis a (fun x => { x with st := .homing, home := some { tag := tag, phase := if on then 0 else 2, seen := on } }) s
      match interlockOf a (s1.axis a).cmd (s1.axis a).dest false s1 with
      | some n => done (setAxis a (fun x => { x with interlock := n }) s, { badState with payload := [w32 n] })
      | none => if (completionsFull s).1 then done (s, noResource) else done (outstand 0x0A04 tag a s1, accepted)) s)

/-- AX_SEQ (R383, R387). DEDUCED: SERVICE allows CAP and WIPE (log 25). -/
def execAxSeq (slot : Fin 16) (s : State) : Host.Outcome State Fault Refusal :=
  .next (command 0x0A05 1 slot
    (fun s ws =>
      let q := fld (wd ws 0) 8 2
      let op := s.host.opState
      [reservedW ws 0 0xF301, (q == 0 || (q == 3 && fld (wd ws 0) 12 4 == 0), badParam 0),
       (!(op == .ready || (op == .service && q != 2)), badState),
       (!s.axes.seqCfgd || !(cycleOk 0 s && cycleOk 1 s) || s.axes.ax.any (·.st != .idle), badState), completionsFull s])
    (fun tag ws s =>
      let q : SeqJob := { tag := tag, seq := fld (wd ws 0) 8 2, passes := fld (wd ws 0) 12 4, since := s.pos.mono }
      let go := fun (x : Axis) => { x with st := .sequence }
      done (outstand 0x0A05 tag 0 (setAxis 1 go (setAxis 0 go { s with axes := { s.axes with seq := some q, seqStep := 1 } })), accepted)) s)

/-- AX_SEQ_CONFIG (R382, R389): LIFT's positions within LIFT's soft limits, CAP's within CAP's. -/
def execAxSeqConfig (slot : Fin 16) (s : State) : Host.Outcome State Fault Refusal :=
  .next (command 0x0A06 11 slot
    (fun s ws =>
      let p := fun (i : Nat) => (wd ws i).toInt
      let c := (s.axis 0).cfg
      let k := (s.axis 1).cfg
      let confirm := fld (wd ws 9) 16 16
      (List.range 5).map (fun i => (decide (p i < c.softMin ∨ c.softMax < p i), badParam i)) ++
      (List.range 4).map (fun i => (decide (p (5 + i) < k.softMin ∨ k.softMax < p (5 + i)), badParam (5 + i))) ++
      [(decide (p 1 ≤ p 0 ∨ min (p 3) (p 4) < p 1), badParam 1), (decide (p 2 ≤ max (p 3) (p 4)), badParam 2),
       (decide (confirm < 1 ∨ 1000 < confirm), badParam 9),
       (s.axes.ax.any (·.st != .idle) || s.host.opState == .safe, badState)])
    (fun _ ws s =>
      let p := fun (i : Nat) => (wd ws i).toInt
      done ({ s with axes := { s.axes with
        lifts := (List.range 5).map p, caps := (List.range 4).map fun i => p (5 + i)
        posTol := fld (wd ws 9) 0 16, confirmMs := fld (wd ws 9) 16 16, wipeV := wn ws 10, seqCfgd := true } }, ok)) s)

/-- AX_CLEAR_FAULT (R375, R387): an invalid position is gone once POS_VALID is 1 again, and an axis that still stops goes on stopping; a stall once the
axis stands, its position is valid and its error is within STALL_ERR. -/
def execAxClearFault (slot : Fin 16) (s : State) : Host.Outcome State Fault Refusal :=
  .next (command 0x0A07 1 slot
    (fun s ws =>
      let a := fld (wd ws 0) 0 1
      let x := s.axis a
      [reservedW ws 0 1,
       (!(x.st == .fault && (cell s.pos.abs a {}).posValid && (x.fault == 2 || x.vel == 0 && decide (x.err.natAbs ≤ x.cfg.stallErr))), badState)])
    (fun _ ws s => done (setAxis (fld (wd ws 0) 0 1) (fun x => { x with
      st := if x.vel = 0 then .idle else .stopping, fault := 0, stallRun := 0, stopHard := x.vel != 0 }) s, ok)) s)

end Sys2Proof.Machine
end

