-- ==== Sys2Proof/Machine/Power.lean ====
section
/-!
DEFINITION. Power states, islands, wake, brownout, resets and start-up (R527 to R554), with the calibration set loaded at boot
(R515).
-/
namespace Sys2Proof.Machine

/-! ## Chip reset -/

/-- Onyx's and the watchdog's orderly store of the wear counters (R507): stored, and CLEAN set. -/
def orderlyStore (p : Pers) : Pers := { p with wearStore := p.wear, clean := true }

/-- What MRAM and the counters since power-up keep through a chip reset (R507, R519, R520, R544). -/
def Pers.afterReset (p : Pers) : Pers :=
  { p with
    wearLimitSeen := 0, bootSlot := 2, writing := none, pendWrite := false, pendTags := [], lastStart := none
    image := [], imageLine := 0xFFFFFFFF, imageEpoch := 0, imageModules := 0
    almCursor := 0, almBudget := 256, almQueue := [], almArrive := 0, minuteAt := 0, almTickAt := 0 }

/-- An island at the start of the start-up sequence. -/
def islandOff : Island := { on := false, stage := 0 }

/-- What the AON power controller keeps through a chip reset (R537, R544): wake settings, held pads, reset cause, minutes in
SLEEP, the supply's own condition. MONO_TIME starts from 0 again, and an instant from before the reset lies before it. -/
def Pwr.afterReset (cause : Nat) (mono : Dword) (p : Pwr) : Pwr :=
  { wakeVigil := p.wakeVigil, wakePattern := p.wakePattern, wakeEth := p.wakeEth, wakeEtype := p.wakeEtype
    wakeKey := p.wakeKey, sleepMinutes := p.sleepMinutes, wakeN := p.wakeN, wakeSrc := p.wakeSrc
    cause := 1#5 <<< cause, brownout := p.brownout, coreStable := p.coreStable, warnNow := p.warnNow
    riseAt := p.riseAt.map (· - mono), porHeld := p.porHeld, resetPin := p.resetPin, uvHeld := p.uvHeld, trstLow := p.trstLow
    jtagIr := p.jtagIr, inReset := true
    islands := p.islands.map fun i => { islandOff with padHeld := i.padHeld } }

/-- A chip reset (R544) with its place in PWR_RESET_CAUSE: 0 POR, 1 CORE_UV, 2 PIN, 3 SOFT, 4 WAKE. Every island's state returns to
its reset value; MRAM, QSPI and the AON power controller keep theirs; a role other than LISTEN becomes LISTEN (R4,
R411). -/
def chipReset (cause : Nat) (s : State) : State :=
  let r := State.reset
  let s1 : State := { r with
    pers := s.pers.afterReset, pwr := s.pwr.afterReset cause s.pos.mono
    host := { r.host with perstLow := s.host.perstLow, activeHalf := s.host.activeHalf, stagedImage := s.host.stagedImage
                          bootAlt := s.host.bootAlt, qspi := s.host.qspi }
    pending := s.pending, free := s.free, out := s.out }
  if s.twin.role = .listen then s1 else
    sendVec 3 (event { ev := .roleChanged, p0 := w32 s.twin.role.code, p1 := 3, p2 := 0 } s1)

/-! ## Start-up -/

/-- Changes island i. -/
def setIsland (i : Nat) (f : Island → Island) (s : State) : State :=
  { s with pwr := { s.pwr with islands := upd s.pwr.islands i f } }

/-- An island's bring-up begins at REG (R538). -/
def beginIsland (i : Nat) (s : State) : State :=
  setIsland i (fun x => { x with stage := 1, on := false, stageAt := s.pos.mono }) s

/-- The island that follows at start-up (R538): CPU, IO, MEM, PIPE. -/
def nextIsland (i : Nat) : Option Nat :=
  if i = 0 then some 3 else if i = 3 then some 1 else if i = 1 then some 2 else none

/-- The wear counters are loaded; where no orderly store preceded, each counts 1,024 more (R507). -/
def loadWear (p : Pers) : Pers :=
  if p.clean then { p with wear := p.wearStore } else
    let w := p.wearStore.map fun n => min (n + 1024) 100000000
    { p with wear := w, wearStore := w, clean := true }

/-- Loads ABS_OFFSET and HOMED from the PRF at chip reset (R364, R380). -/
def loadAxes (s : State) : State :=
  { s with axes := { s.axes with ax := s.axes.ax.zipIdx.map fun (x, a) =>
    { x with offset := (wd s.pers.prf (8 + a)).toInt, homed := flag (wd s.pers.prf 10) a } } }

/-- MONO_TIME and NET_TIME begin at 0 at the release of chip reset, RATE_ADJ with them (R584): what is timed from the release starts there, the first kick
of the Onyx watchdog too (R462), and an instant of the supply's from before it lies before it. -/
def releaseClocks (s : State) : State :=
  { s with
    pos := { s.pos with mono := 0, net := 0, rateAdj := 0 }
    host := { s.host with beatAt := 0, wdogStart := 0 }
    onyx := { s.onyx with kickAt := 0, tickAt := 0 }
    pers := { s.pers with minuteAt := 0, almTickAt := 0 }
    pwr := { s.pwr with riseAt := s.pwr.riseAt.map (· - s.pos.mono), uvAt := s.pwr.uvAt - s.pos.mono } }

/-- CHIP_RESET_RELEASE (R451, R462, R507, R546): nothing holds reset any more; the Onyx self-test runs (its failed item, if
any, is a SELFTEST trip that sends the unit from BOOT to SAFE), its outputs are low, and the CPU island comes up first. -/
def execChipResetRelease (selfTestFail : Option Nat) (s : State) : Host.Outcome State Fault Refusal :=
  .next (if s.pwr.porHeld ∨ s.pwr.resetPin ∨ s.pwr.uvHeld ∨ ¬ s.pwr.inReset then s else
    let s0 := releaseClocks s
    let s1 : State := { s0 with
      pers := loadWear { s0.pers with opMinutes := s.pers.opMinutes + w32 s.pwr.sleepMinutes }
      pwr := { s0.pwr with
        inReset := false, starting := true, sleepMinutes := 0,
        islands := s.pwr.islands.map fun i => { islandOff with padHeld := i.padHeld } }
      onyx := { s0.onyx with selfTestOk := selfTestFail.isNone } }
    let s2 := beginIsland 0 (loadAxes s1)
    match selfTestFail with
    | none => s2
    | some i => setOpState .safe false (latchTrip 15 (w32 i) s2))

/-- The subsystem IDs are loaded from PRF word 0; 0 reports 0x1D9E and 0x5216 (R33). -/
def loadIds (s : State) : State :=
  let w := wd s.pers.prf 0
  { s with host := { s.host with
    idsLoaded := true
    subsysVendor := if w = 0 then 0x1D9E else w.setWidth 16
    subsysId := if w = 0 then 0x5216 else (w >>> 16).setWidth 16 } }

/-- A move to RUN from a lower state is in force (R534): event 0x0F01 with the old state, the new one and the source. -/
def enterRun (src : Nat) (s : State) : State :=
  let old := s.pwr.state
  let s1 := { s with pwr := { s.pwr with state := .run, target := none, wakeBy := 0 } }
  event { ev := .powerState, p0 := w32 old.code, p1 := 4, p2 := w32 src } (setOutputs s.host.opState .run s1)

/-! ## DRAM bring-up (R477, R493) -/

/-- DRAM bring-up fails (R493): the unit goes from BOOT to SAFE with DRAM_FAIL, and Beryl serves two groups only. -/
def dramFailed (s : State) : State :=
  let s1 := stickRec .dramFail { s with
    dram := { s.dram with fail := true, training := none, trainStep := 0, trained := false }
    host := { s.host with mbxReady := true, berylRunning := true } }
  if s.host.opState = .boot then setOpState .safe false s1 else s1

/-- A training pass begins (R491). TRAIN_STEP goes through 1 to 7 as the pass runs: a free value (log 26). -/
def beginPass (tag : Option Word) (marginOnly : Bool) (s : State) : State :=
  let (n, s1) := takeFree s
  { s1 with dram := { s1.dram with training := some (tag, marginOnly), trainStep := 1 + n % 7 } }

/-- DRAM bring-up: the PRF word is read once and checked, the clock is set to RATE, and the boot pass begins (R477, R493). -/
def dramBringUp (s : State) : State :=
  let w := wd s.pers.prf 4
  let s1 := { s with dram := { s.dram with config := w } }
  if (fittedBytes w).isNone then dramFailed s1
  else beginPass none false { s1 with dram := { s1.dram with rate := fld w 8 2, refFast := flag w 10 } }

/-- An island has come up (R538): at start-up the next one begins, and the IO island's readiness loads the subsystem IDs; on the
way out of HOLD the PIPE island ends the move. -/
def islandReady (i : Nat) (s : State) : State :=
  let s1 := setIsland i (fun x => { x with stage := 5, on := true, timeout := false, tries := 0 }) s
  let s2 := if i = 3 then loadIds s1 else if i = 1 ∧ s.pwr.starting then dramBringUp s1 else s1
  if s.pwr.starting then
    match nextIsland i with
    | some j => beginIsland j s2
    | none => lanesToDetect { s2 with pwr := { s2.pwr with starting := false } }
  else
    match s.pwr.target with
    | some (.run, _, tag) =>
      let s3 := lanesToDetect (enterRun s.pwr.wakeBy s2)
      match tag with
      | some t => complete 0x0F01 t 0 0 0 0 s3
      | none => s3
    | some (.standby, slot, _) =>
      let s3 := { s2 with pwr := { s2.pwr with state := .standby, target := none } }
      let s4 := lanesToDetect (setOutputs s3.host.opState .standby s3)
      match slot with
      | some k => respond k ok s4
      | none => s4
    | _ => s2

/-- ISLAND_STAGE_READY (R538). -/
def execIslandStageReady (island : Fin 4) (s : State) : Host.Outcome State Fault Refusal :=
  let st := (cell s.pwr.islands island {}).stage
  .next (if st = 0 ∨ st ≥ 5 then s
    else if st < 4 then setIsland island (fun x => { x with stage := st + 1, stageAt := s.pos.mono }) s
    else islandReady island s)

/-- A second timeout while leaving a lower state: the unit stays there and PWR_SET_STATE ends with HW_FAULT (R539). -/
def failRise (s : State) : State :=
  let s1 := { s with pwr := { s.pwr with target := none, wakeBy := 0 } }
  match s.pwr.target with
  | some (_, some k, _) => respond k hwFault s1
  | some (_, none, some t) => complete 0x0F01 t 0x30 0 0 0 s1
  | _ => s1

/-- Timeout of a bring-up stage, ns (R538). -/
def stageLimit (stage : Nat) : Nat := cell [0, 500000, 500000, 2000000, 100000] stage 0

/-- SEQ_TIMEOUT (R539): the first timeout brings the island up once more; the second one has the outcome of its island and
occasion. -/
def execSeqTimeout (island : Fin 4) (s : State) : Host.Outcome State Fault Refusal :=
  let x := cell s.pwr.islands island {}
  .next (if x.stage = 0 ∨ x.stage ≥ 5 ∨ !s.aonDue x.stageAt (stageLimit x.stage) then s
    else if x.tries = 0 then
      stickRec .seqTimeout (setIsland island (fun x => { x with tries := 1, stage := 1, stageAt := s.pos.mono }) s)
    else
      let off := setIsland island (fun x => { x with tries := 0, stage := 0, on := false, timeout := true }) s
      let ev : Event := { ev := .seqTimeout, p0 := w32 island, p1 := w32 x.stage, always := true }
      if s.pwr.starting then
        if (island : Nat) = 0 ∨ (island : Nat) = 3 then
          stickRec .seqTimeout { off with pwr := { off.pwr with inReset := true, starting := false, retryAt := s.pos.mono } }
        else
          let s1 := stickEvent .seqTimeout ev { off with
            host := { off.host with mbxReady := true, berylRunning := true }
            pwr := { off.pwr with limited := true, starting := false } }
          if (island : Nat) = 1 then dramFailed s1 else setOpState .safe false s1
      else failRise (stickEvent .seqTimeout ev off))

/-- STARTUP_RETRY (R539): the whole sequence starts again. -/
def execStartupRetry (s : State) : Host.Outcome State Fault Refusal :=
  .next (if s.pwr.islands.any (fun i => i.timeout) ∧ s.pwr.inReset ∧ s.host.opState = .boot ∧ s.aonDue s.pwr.retryAt 1000000000 then
    let s := releaseClocks s
    beginIsland 0 { s with pwr := { s.pwr with inReset := false, starting := true
                                               islands := s.pwr.islands.map fun i => { islandOff with padHeld := i.padHeld } } }
  else s)

/-- A verified image starts (R69, R546, R547). -/
def startFirmware (image : List Byte) (source : Nat) (s : State) : State :=
  { s with host := { s.host with
    fwVersion := imageFwVersion image, fwBuild := Config.imageBuild image
    bootSource := BitVec.ofNat 2 source, berylRunning := true, bootRomWaiting := false, mbxReady := true, bootAlt := false } }

/-- What the boot ROM finds in a QSPI half (R72, R547), read or written before. -/
def halfRead (h : HostIf) (b : Bool) : List Byte := (cell h.qspi (b2n b) none).getD []

/-- The halves are read for the first time: `halfA` and `halfB` are what the flash holds where the unit has written nothing (log 36). -/
def readHalves (halfA halfB : List Byte) (s : State) : State :=
  { s with host := { s.host with qspi := [(cell s.host.qspi 0 none).or (some halfA), (cell s.host.qspi 1 none).or (some halfB)] } }

/-- A half boots. DEDUCED: it is the active one from then on, since SYS_FW_STAGE must not touch the image in use (R72); the image staged in it is
no longer one that BOOT_ALT could name (log 36). -/
def bootHalf (b : Bool) (image : List Byte) (s : State) : State :=
  let s1 := startFirmware image (b2n b) s
  { s1 with host := { s1.host with activeHalf := b, stagedImage := if b = s.host.activeHalf then s.host.stagedImage else none } }

/-- A staged image that fails at boot is recorded in Almanac (R71). The spec gives the record no code and no severity: free values (log 3). -/
def recordBadImage (s : State) : State :=
  let (c, s1) := takeFree s
  let (v, s2) := takeFree s1
  s2.withLog (s2.log.record { code := BitVec.ofNat 16 c, severity := v % 5 })

/-- The boot image (R53, R71, R547). The half marked active is tried first, or the staged one under BOOT_ALT, then the other. If neither verifies,
the boot ROM waits for a pushed image. -/
def bootImage (s : State) : State :=
  let first := if s.host.bootAlt then !s.host.activeHalf else s.host.activeHalf
  let img := halfRead s.host
  if imageGood (img first) then bootHalf first (img first) s
  else
    let s1 := if s.host.bootAlt then recordBadImage s else s
    if imageGood (img !first) then bootHalf (!first) (img !first) s1
    else { s1 with host := { s1.host with bootRomWaiting := true, mbxReady := true, bootAlt := false } }

/-- FIRMWARE_START (R71, R546, R547): DRAM is ready and the boot image is read. -/
def execFirmwareStart (halfA halfB : List Byte) (s : State) : Host.Outcome State Fault Refusal :=
  .next (if s.host.opState ≠ .boot ∨ s.host.berylRunning ∨ s.host.bootRomWaiting ∨ s.host.restarting ∨ s.onyx.berylHeld ∨ s.pwr.inReset ∨
      !s.dram.zeroed then s
    else bootImage (readHalves halfA halfB s))

/-! ## The set loaded at boot -/

/-- A slot passes: its record is valid and DATA_CRC matches its data, with no uncorrectable word (R500, R515). -/
def slotPasses (t : SetSlot) (badRead : Bool) : Bool :=
  recordValid t.commit && !badRead && wd t.commit 8 == w32 (crc32c (slotBytes t.objs))

/-- A slot becomes the state in force (R97, R515). -/
def loadSlot (b : Bool) (s : State) : State :=
  let t := if b then s.pers.slotB else s.pers.slotA
  { s with
    pers := { s.pers with bootSlot := b2n b, image := t.objs, imageLine := wd t.commit 3, imageEpoch := wd t.commit 2
                          imageModules := fld (wd t.commit 4) 0 5 }
    cg := { s.cg with inForce := t.objs }
    hl := { s.hl with lanes := s.hl.lanes.map fun l => { l with loadWait := [4] } } }

/-- The calibration set of the valid slot with the higher SET_GEN, else the other one, else the defaults (R515). -/
def loadSet (badA badB : Bool) (s : State) : State :=
  let p := s.pers
  if s.dram.fail then s else
    let hi := decide (slotGen p.slotB > slotGen p.slotA)
    let slot := fun (b : Bool) => if b then p.slotB else p.slotA
    let bad := fun (b : Bool) => if b then badB else badA
    if !recordValid p.slotA.commit && !recordValid p.slotB.commit then stickRec .setNone s
    else if slotPasses (slot hi) (bad hi) then loadSlot hi s
    else if slotPasses (slot !hi) (bad !hi) then
      stickEvent .setFallback { ev := .setFallback, p0 := w32 (b2n !hi), p1 := w32 (b2n hi) } (loadSlot (!hi) s)
    else stickRec .setNone s

/-- BOOT_COMPLETE (R66, R515, R546): the PIPE island being ready, the set is loaded (`badA`, `badB`: a slot holds an uncorrectable word),
BOOT_COMPLETE is queued, and the unit goes to READY; with a trip latched it goes to SAFE (DESIGN CHOICE, log 13). -/
def execBootComplete (badA badB : Bool) (s : State) : Host.Outcome State Fault Refusal :=
  .next (if s.host.opState ≠ .boot ∨ !s.host.berylRunning ∨ s.host.bootRomWaiting ∨ s.pwr.starting ∨ !(cell s.pwr.islands 2 {}).on then s else
    let s1 := event { ev := .bootComplete } (loadSet badA badB s)
    if s1.onyx.tripped then setOpState .safe false s1
    else setPermission 2 4 true (setPermission 1 4 true (setOpState .ready false s1)))

/-! ## Power states -/

/-- Conditions of R530 for a state below RUN. -/
def lowerBlocked (toSleep : Bool) (s : State) : Bool :=
  let roleOk := s.twin.role == .listen || (!toSleep && s.twin.role == .solo)
  let groupsIdle := s.cg.groups.all fun g => g.st != .armed && g.st != .locked
  let axesStill := s.axes.ax.all fun a => (a.st == .idle || a.st == .fault) && a.vel == 0
  let jobs := s.fire.meas.isSome || s.fire.spit.isSome || s.fire.probe.isSome || s.dram.training.isSome ||
    s.dram.ratePending.isSome
  !((s.host.opState == .ready || s.host.opState == .safe) && !s.host.firing && roleOk && groupsIdle && axesStill && !jobs) ||
    (toSleep && (s.pers.writing.isSome || s.pers.pendWrite))

/-- LAMP_PWR_EN is low below RUN (R533). -/
def lampLow (s : State) : State :=
  if s.onyx.lampPwr then stickRec .lampOff (emit (.pin "LAMP_PWR_EN" false) { s with onyx := { s.onyx with lampPwr := false } }) else s

/-- The state a TARGET names (R551). -/
def pwrTarget (t : Nat) : Option PwrState :=
  if t = 1 then some .sleep else if t = 2 then some .hold else if t = 3 then some .standby else if t = 4 then some .run else none

/-- PWR_SET_STATE (R530, R531, R535, R551). -/
def execPwrSetState (slot : Fin 16) (s : State) : Host.Outcome State Fault Refusal :=
  .next (command 0x0F01 1 slot
    (fun s ws =>
      let t := pwrTarget (fld (wd ws 0) 0 3)
      let disarm := s.pwr.sleepArmed && t == some .run
      [ (t.isNone, badParam 0), reservedW ws 0 7,
        (t == some s.pwr.state && !disarm, ok),
        (s.pwr.target.isSome, busy),
        (t == some .run && inBoot s, badState),
        ((t == some .sleep || t == some .hold || t == some .standby) && lowerBlocked (t == some .sleep) s, badState),
        (s.pwr.state == .hold && t == some .run && decide (s.host.outst.length ≥ 16), noResource) ])
    (fun tag ws s =>
      let p := s.pwr
      match pwrTarget (fld (wd ws 0) 0 3) with
      | some .sleep => ({ s with pwr := { p with sleepArmed := true, armedAt := s.pos.mono } }, some ok)
      | some .run =>
        if p.sleepArmed ∧ p.state = .run then ({ s with pwr := { p with sleepArmed := false } }, some ok)
        else if p.state = .hold then
          let s1 := outstand 0x0F01 tag 0 { s with pwr := { p with target := some (.run, none, some tag), wakeBy := 5, sleepArmed := false } }
          (beginIsland 2 s1, some accepted)
        else (enterRun 5 { s with pwr := { p with sleepArmed := false } }, some ok)
      | some t =>
        if p.state = .hold then (beginIsland 2 { s with pwr := { p with target := some (t, some slot, none) } }, none)
        else (setIsland 2 (fun i => { i with draining := true, drainAt := s.pos.mono })
          { s with pwr := { p with target := some (t, some slot, none) } }, none)
      | none => (s, some (badParam 0))) s)

/-- ISLAND_DRAIN_DONE (R529, R531, R532): the PIPE island's clocks stop, or it is isolated with its pads held and powered
down. -/
def execIslandDrainDone (island : Fin 4) (s : State) : Host.Outcome State Fault Refusal :=
  .next (if !(cell s.pwr.islands island {}).draining then s else
    let s1 := setIsland island (fun i => { i with draining := false }) s
    match s.pwr.target with
    | some (.standby, slot, _) =>
      let s2 := lampLow (setOutputs s1.host.opState .standby { s1 with pwr := { s1.pwr with state := .standby, target := none } })
      match slot with
      | some k => respond k ok s2
      | none => s2
    | some (.hold, slot, _) =>
      let s2 := setIsland island (fun i => { i with on := false, stage := 0, padHeld := true }) s1
      let s2 := lanesOff s2
      let s3 := lampLow (setOutputs s2.host.opState .hold { s2 with
        pwr := { s2.pwr with state := .hold, target := none }
        insp := { s2.insp with cams := s2.insp.cams.map fun c => { c with st := .off } } })
      match slot with
      | some k => respond k ok s3
      | none => s3
    | _ => s1)

/-- DRAIN_TIMEOUT (R531): the request fails with BUSY and the island number, and the island stays as it was. -/
def execDrainTimeout (island : Fin 4) (count : Nat) (s : State) : Host.Outcome State Fault Refusal :=
  let x := cell s.pwr.islands island {}
  .next (if !x.draining ∨ !s.aonDue x.drainAt 100000 then s else
    let s1 := setIsland island (fun i => { i with draining := false })
      { s with pwr := { s.pwr with target := none, drainTimeouts := satAdd s.pwr.drainTimeouts 1 } }
    let s2 := stickEvent .drainTimeout { ev := .drainTimeout, p0 := w32 island, p1 := w32 count } s1
    match s.pwr.target with
    | some (_, some k, _) => respond k { status := 0x13, payload := [w32 island] } s2
    | _ => s2)

/-- VIG_RX has been quiet for 100 µs (R535). DEDUCED: what the model sees of it are the valid frames (log 13). -/
def vigilQuiet (s : State) : Bool := s.twin.rxAt == 0 || s.aonDue s.twin.rxAt 100000

/-- SLEEP_ENTER (R507, R533, R535): the armed unit enters SLEEP; the wear counters are stored, the islands go off with their pads
held, and every enable is low; the reason that 0x0D05 gives for an AXa_EN that falls is not stated: a free value (log 3). -/
def execSleepEnter (s : State) : Host.Outcome State Fault Refusal :=
  .next (if !s.pwr.sleepArmed ∨ !vigilQuiet s then s else
    let (why, s0) := takeFree s
    let off := fun (a : Nat) (s : State) => setAxisEnable a false why s
    let s1 := off 1 (off 0 (setOutputs s.host.opState .sleep (lampLow (lanesOff s0))))
    { s1 with
      pers := orderlyStore s1.pers
      pwr := { s1.pwr with state := .sleep, sleepArmed := false, target := none, sleepMinutes := 0, minuteAt := s.pos.mono
                           islands := s1.pwr.islands.map fun _ => { islandOff with padHeld := true } }
      host := { s1.host with mbxReady := false, berylRunning := false, linkInL2 := s1.host.linkUp, d3hot := s1.host.linkUp } })

/-- SLEEP_ABORTED (R535): reason 1 for Vigil not quiet, 2 for the link not in L2. -/
def execSleepAborted (reason : Fin 3) (s : State) : Host.Outcome State Fault Refusal :=
  .next (if !s.pwr.sleepArmed ∨ (reason : Nat) = 0 ∨ !s.aonDue s.pwr.armedAt 1000000000 then s else
    stickEvent .sleepAborted { ev := .sleepAborted, p0 := w32 reason } { s with pwr := { s.pwr with sleepArmed := false } })

/-- SLEEP_MINUTE (R536). -/
def execSleepMinute (s : State) : Host.Outcome State Fault Refusal :=
  .next (if s.pwr.state = .sleep ∧ s.aonDue s.pwr.minuteAt 60000000000 then
    { s with pwr := { s.pwr with sleepMinutes := s.pwr.sleepMinutes + 1, minuteAt := s.pos.mono } } else s)

/-- A wake from SLEEP (R536, R537): a chip reset with cause WAKE; WAKE_N is low until PERST_N has been seen released. -/
def wake (src : Nat) (s : State) : State :=
  let s1 := chipReset 4 s
  { s1 with pwr := { s1.pwr with wakeSrc := BitVec.ofNat 3 src, wakeN := s.host.perstLow } }

/-- A source that wakes HOLD and STANDBY power state too (R534): it ends an entry that drains, with BAD_STATE for the request, and else
moves the unit to RUN. -/
def wakeLower (src : Nat) (s : State) : State :=
  if s.pwr.islands.any (·.draining) then
    let s1 := { s with pwr := { s.pwr with target := none, islands := s.pwr.islands.map fun i => { i with draining := false } } }
    match s.pwr.target with
    | some (_, some k, _) => respond k badState s1
    | _ => s1
  else if s.pwr.target.isSome then s
  else if s.pwr.state = .standby then enterRun src s
  else if s.pwr.state = .hold then
    beginIsland 2 { s with pwr := { s.pwr with target := some (.run, none, none), wakeBy := src } }
  else s

/-- VIGIL_ACTIVITY_WAKE (R534). -/
def execVigilActivityWake (s : State) : Host.Outcome State Fault Refusal :=
  .next (if s.pwr.state = .sleep ∧ s.pwr.wakeVigil then wake 1 s else s)

/-- VIGIL_WAKE_PATTERN (R422, R534). -/
def execVigilWakePattern (s : State) : Host.Outcome State Fault Refusal :=
  .next (if !s.pwr.wakePattern then s else if s.pwr.state = .sleep then wake 2 s else wakeLower 2 s)

/-- ETH_WAKE_FRAME (R534): a frame with its FCS verdict, EtherType and payload. -/
def execEthWakeFrame (fcsGood : Bool) (etype : BitVec 16) (payload : List Byte) (s : State) : Host.Outcome State Fault Refusal :=
  .next (if s.pwr.state = .sleep ∧ s.pwr.wakeEth ∧ fcsGood ∧ etype = s.pwr.wakeEtype ∧
      leN payload 0 8 = Config.serial.toNat ∧ leN payload 8 4 = s.pwr.wakeKey.toNat ∧ payload.length ≥ 12 then wake 3 s else s)

/-- PCIE_L2_EXIT (R534). -/
def execPcieL2Exit (s : State) : Host.Outcome State Fault Refusal :=
  .next (if s.pwr.state = .sleep then wake 4 s else { s with host := { s.host with linkInL2 := false } })

/-! ## Supplies -/

/-- Notes a VDD_CORE reading (R548). -/
def noteVcore (mv : Nat) (p : Pwr) : Pwr := { p with vcore := mv, vcoreMin := min p.vcoreMin mv }

/-- BROWNOUT_WARN (R540, R541): each onset, a reading below 0.705 V, begins the hold and withdraws SUPPLY on both sides. -/
def execBrownoutWarn (mv : Nat) (s : State) : Host.Outcome State Fault Refusal :=
  let s1 := { s with pwr := noteVcore mv s.pwr }
  .next (if s.pwr.warnNow ∨ 705 ≤ mv then s1 else
    let s2 := { s1 with pwr := { s1.pwr with
      warnNow := true, brownout := true, coreStable := false, riseAt := none, brownouts := satAdd s1.pwr.brownouts 1
      dipMin := mv, dipUs := 0 } }
    setPermission 2 3 false (setPermission 1 3 false (stick .brownoutWarn s2)))

/-- BROWNOUT (R541): VDD_CORE clears the warning level; the dip's lowest voltage and its time below 0.705 V. A dip that reached the reset level is
reported by that reset alone. -/
def execBrownout (lowMv micros : Nat) (s : State) : Host.Outcome State Fault Refusal :=
  .next (if !s.pwr.warnNow then s
    else if s.pwr.uvHeld ∨ s.pwr.uvPending then { s with pwr := { noteVcore lowMv s.pwr with warnNow := false, riseAt := some s.pos.mono } }
    else event { ev := .brownout, p0 := w32 lowMv, p1 := w32 micros, always := true }
      { s with pwr := { noteVcore lowMv s.pwr with warnNow := false, riseAt := some s.pos.mono, dipMin := lowMv, dipUs := micros } })

/-- CORE_STABLE (R540, R541, R543): VDD_CORE has held 0.715 V for 1 ms; Onyx grants SUPPLY again, and a core undervoltage reset is no
longer held. -/
def execCoreStable (s : State) : Host.Outcome State Fault Refusal :=
  .next (if s.pwr.warnNow ∨ (s.pwr.riseAt.any fun t => !s.aonDue t 1000000) then s else
    let s1 := { s with pwr := { s.pwr with coreStable := true, uvHeld := false } }
    if s.pwr.inReset then s1 else noteGrant (setPermission 2 3 true s1))

/-- CORE_UNDERVOLTAGE (R543): a supply that low is below the warning level as well. -/
def execCoreUndervoltage (s : State) : Host.Outcome State Fault Refusal :=
  let start := if s.pwr.uvPending then s.pwr.uvAt else s.pos.mono
  .next (latchTrip 11 0 (activeNow 11 { s with pwr := { s.pwr with
    uvPending := true, uvAt := start, coreStable := false, warnNow := true, riseAt := none } }))

/-- CORE_RESET_ASSERT (R543): 8.0 µs after the undervoltage trip. -/
def execCoreResetAssert (s : State) : Host.Outcome State Fault Refusal :=
  .next (if !s.pwr.uvPending ∨ !s.aonDue s.pwr.uvAt 8000 then s else
    let s1 := chipReset 1 s
    { s1 with pwr := { s1.pwr with uvHeld := true } })

/-- CORE_UV_AT_ONCE (R543): below 0.600 V core reset is asserted at once. -/
def execCoreUvAtOnce (s : State) : Host.Outcome State Fault Refusal :=
  let s1 := chipReset 1 s
  .next { s1 with pwr := { s1.pwr with uvHeld := true, coreStable := false, warnNow := true, riseAt := none } }

/-- The number after the newest of the ring's records (R521): the one no other lies less than 2³¹ ahead of, since numbers wrap. -/
def nextOf : List Word → Word
  | [] => 1
  | x :: xs => nextSeq (xs.foldl (fun a b => if (b - a).toNat < 2 ^ 31 then b else a) x)

/-- POWER_ON_RESET (R505, R507, R517, R519 to R521, R544, R553): asserted, the whole chip with the AON island returns to reset; released,
POWER_CYCLES counts and ALM_NEXT follows the highest SEQ of the ring. -/
def execPowerOnReset (asserted : Bool) (s : State) : Host.Outcome State Fault Refusal :=
  .next (if asserted then
    let s1 := chipReset 0 s
    { s1 with
      pers := { s1.pers with almSuppressed := 0, firstRec := true, lostBefore := false, lostSince := 0, lostOwe := false }
      pwr := { ({} : Pwr) with cause := 1, inReset := true, porHeld := true, resetPin := s.pwr.resetPin, trstLow := s.pwr.trstLow
                               islands := List.replicate 4 islandOff } }
  else if !s.pwr.porHeld then s
  else
    { s with
      pwr := { s.pwr with porHeld := false, coreStable := true }
      pers := { s.pers with powerCycles := s.pers.powerCycles + 1
                            almNext := nextOf (s.pers.alm.map fun p => wd p.2 0) } })

/-- RESET_N (R544): held low for at least 1 µs, or released. -/
def execResetN (low : Bool) (s : State) : Host.Outcome State Fault Refusal :=
  .next (if low then
    let s1 := chipReset 2 s
    { s1 with pwr := { s1.pwr with resetPin := true } }
  else { s with pwr := { s.pwr with resetPin := false } })

/-- TRST_N (R544): the test logic alone; its register returns to IDCODE. -/
def execTrstN (low : Bool) (s : State) : Host.Outcome State Fault Refusal :=
  .next { s with pwr := { s.pwr with trstLow := low, jtagIr := if low then 0x01 else s.pwr.jtagIr } }

/-- SYS_RESET_BEGIN (R71): 1 ms after its response, the reset that SYS_RESET_UNIT asked for; a chip reset stores the wear counters first
(R507). -/
def execSysResetBegin (s : State) : Host.Outcome State Fault Refusal :=
  .next (match s.host.resetReq with
    | none => s
    | some (kind, alt, t) =>
      if s.pos.mono.toNat < t.toNat + 1000000 then s else
        let s1 : State := { s with host := { s.host with resetReq := none, bootAlt := alt } }
        if kind then chipReset 3 { s1 with pers := orderlyStore s1.pers } else berylRestart s1)

/-- The image is read from QSPI again after a restart of Beryl and verified, as at boot (R53, R547). What a half holds that has not been read since
power-on and that the unit has not written is a free value (log 3). A boot that had not come to its image goes on to FIRMWARE_START. -/
def rebootImage (s : State) : State :=
  if s.host.opState = .boot ∧ ¬ s.dram.zeroed then s
  else bootImage (readHalves (Config.flashHalf false) (Config.flashHalf true) s)

/-- BERYL_RESTART_DONE (R53, R514, R547): the slots and commands of before end, the image is read and verified again, and the mailbox is served
again; a set write that was in progress runs again from its first step. -/
def execBerylRestartDone (s : State) : Host.Outcome State Fault Refusal :=
  .next (if !s.host.restarting ∨ s.onyx.berylHeld then s else
    let s1 := rebootImage (berylRestarted s)
    if s1.pers.writing.isSome then startSetWrite [] { s1 with pers := { s1.pers with writing := none } } else s1)

/-! ## Commands -/

/-- Words 4 to 10 of PWR_GET_STATUS: the view of R548. -/
def pwrView (s : State) : List Word :=
  let p := s.pwr
  let mask := fun (f : Island → Bool) => (List.range 4).foldl (fun a i => if f (cell p.islands i {}) then a + 2 ^ i else a) 0
  let entering := p.target.isSome || p.islands.any (fun i => i.draining || (decide (0 < i.stage) && decide (i.stage < 5)))
  let st := p.state.code + 8 * b2n entering + 16 * b2n p.sleepArmed + 32 * b2n p.brownout + 64 * b2n p.coreStable +
    256 * mask (·.on) + 4096 * mask (·.padHeld)
  let seq := (List.range 4).foldl (fun a i =>
    let x := cell p.islands i {}
    a + (x.stage + 8 * b2n x.timeout) * 2 ^ (8 * i)) 0
  [w32 st, w32 seq, w32 (p.cause.toNat + 256 * p.wakeSrc.toNat), w32 (p.vcore % 1024 + 65536 * (p.vcoreMin % 1024)),
   p.brownouts, w32 ((wInt p.tj).toNat % 256 + 256 * ((wInt p.tjMax).toNat % 256)), p.drainTimeouts]

/-- PWR_GET_STATUS (R548, R550). -/
def execPwrGetStatus (slot : Fin 16) (s : State) : Host.Outcome State Fault Refusal :=
  .next (command 0x0F00 1 slot (fun _ ws => [reservedW ws 0 1])
    (fun _ ws s =>
      let s1 := if flag (wd ws 0) 0 then { s with pwr := { s.pwr with
        vcoreMin := 0x3FF, tjMax := -128, brownouts := 0, drainTimeouts := 0 } } else s
      done (s1, okWith (pwrView s))) s)

/-- µs of stability still to run (R540, R542). -/
def stableLeft (s : State) : Nat := match s.pwr.riseAt with
  | some t => 1000 - s.since t / 1000
  | none => 1000

/-- PWR_RESUME (R542). -/
def execPwrResume (slot : Fin 16) (s : State) : Host.Outcome State Fault Refusal :=
  .next (command 0x0F02 0 slot
    (fun s _ => [(inBoot s, badState), (!s.pwr.brownout && !inBoot s, ok),
      (s.pwr.brownout && !s.pwr.coreStable, { status := 0x12, payload := [w32 (stableLeft s)] })])
    (fun _ _ s => done (setPermission 1 3 true { s with pwr := { s.pwr with brownout := false } }, ok)) s)

/-- PWR_PAD_RELEASE (R532, R552): SLOWDOWN_N and the bridge inputs take the levels their logic drives then; the other pads carry pulses
and messages, and rest. -/
def execPwrPadRelease (slot : Fin 16) (s : State) : Host.Outcome State Fault Refusal :=
  .next (command 0x0F03 1 slot
    (fun s ws => [(fld (wd ws 0) 0 4 == 0, badParam 0), reservedW ws 0 0xF, notBoot s,
      ((List.range 4).any (fun i => flag (wd ws 0) i && !(cell s.pwr.islands i {}).on), badState)])
    (fun _ ws s =>
      let isl := s.pwr.islands.zipIdx.map fun (x, i) => if flag (wd ws 0) i then { x with padHeld := false } else x
      let s1 := { s with pwr := { s.pwr with islands := isl } }
      let freed := flag (wd ws 0) 2 && (cell s.pwr.islands 2 {}).padHeld
      let moved := flag (wd ws 0) 3 && (cell s.pwr.islands 3 {}).padHeld
      done (applyIf moved (fun s => drive (bridgeLevels s) s) (applyIf freed (emit (.pin "SLOWDOWN_N" (!s.fire.slowdown))) s1), ok)) s)

/-- PWR_WAKE_CONFIG (R553). -/
def execPwrWakeConfig (slot : Fin 16) (s : State) : Host.Outcome State Fault Refusal :=
  .next (command 0x0F04 3 slot
    (fun s ws => [reservedW ws 0 7, reservedW ws 1 0xFFFF, notBoot s])
    (fun _ ws s => done ({ s with pwr := { s.pwr with
      wakeVigil := flag (wd ws 0) 0, wakePattern := flag (wd ws 0) 1, wakeEth := flag (wd ws 0) 2
      wakeEtype := (wd ws 1).setWidth 16, wakeKey := wd ws 2 } }, ok)) s)

/-- PWR_BOOT_LOAD (R547, R554). -/
def execPwrBootLoad (slot : Fin 16) (s : State) : Host.Outcome State Fault Refusal :=
  .next (command 0x0F05 3 slot
    (fun s ws => [(wn ws 0 % 4096 != 0, badParam 0), (decide (wn ws 2 < 4096 ∨ wn ws 2 > 4194304), badParam 2),
      (s.host.bootLoad.isSome, busy), (!s.host.bootRomWaiting, badState), completionsFull s])
    (fun tag ws s =>
      let s1 := outstand 0x0F05 tag 0 s
      done (readHost (wn64 ws 0) (wn ws 2)
        { s1 with host := { s1.host with bootLoad := some (tag, BitVec.ofNat 64 (wn64 ws 0), wd ws 2) } }, accepted)) s)

/-- PWR_BOOT_LOAD_DONE (R554): the LENGTH bytes of the pushed image; it starts and its completion is the first event, or CHECK_MISMATCH and the boot ROM waits
on. -/
def execPwrBootLoadDone (image : List Byte) (s : State) : Host.Outcome State Fault Refusal :=
  .next (match s.host.bootLoad with
    | none => s
    | some (tag, _, n) =>
      if image.length ≠ n.toNat then s else
      let s1 := { s with host := { s.host with bootLoad := none } }
      if imageGood image then complete 0x0F05 tag 0 0 0 0 (startFirmware image 2 s1)
      else complete 0x0F05 tag 0x41 0 0 0 s1)

end Sys2Proof.Machine
end

