-- ==== Sys2Proof/Machine/Dram.lean ====
section
/-!
DEFINITION. DRAM controller (R476 to R498): refresh, read returns and ECC, ageing, training, rate changes and the memory commands.
-/
namespace Sys2Proof.Machine

/-- Changes the DRAM controller's state. -/
def setDram (f : Dram → Dram) (s : State) : State := { s with dram := f s.dram }

/-! ## Requests and the scheduler (R481, R483 to R486) -/

/-- Class RT (R483): requesters 0 to 2. -/
def MemReq.rt (r : MemReq) : Bool := decide (r.requester < 3)

/-- Place of its class in the order of service (R486): RT, URGENT, BULK. -/
def MemReq.cls (r : MemReq) : Nat := if r.rt then 0 else if r.urgent then 1 else 2

/-- It holds an entry (R485). -/
def MemReq.inEntry (r : MemReq) : Bool := r.place != .outside

/-- The aligned 64 B units it touches, as DRAM addresses ÷ 64: one column command each. -/
def MemReq.units (r : MemReq) : List Nat :=
  (List.range (r.last / 64 + 1 - r.first / 64)).map fun n => 4 * r.chunk + r.first / 64 + n

/-- A write of less than 64 B, or not 64 B aligned: a read-modify-write (R481). -/
def MemReq.split (r : MemReq) : Bool := r.write && (r.first % 64 != 0 || r.last % 64 != 63)

/-- Its commands read: a read, or the first half of a read-modify-write. -/
def MemReq.reads (r : MemReq) : Bool := !r.write || (r.split && !r.readDone)

/-- A read-modify-write from the start of its read to the end of its write, also while its data returns: it shuts out other requests to the same
64 B (R481). -/
def MemReq.holds (d : Dram) (r : MemReq) : Bool := r.split && (r.opened || r.readDone || d.returning.contains r.id)

/-- Bytes in common. -/
def MemReq.overlaps (r q : MemReq) : Bool := r.chunk == q.chunk && decide (r.first ≤ q.last ∧ q.first ≤ r.last)

/-- 64 B units in common. -/
def MemReq.sameUnit (r q : MemReq) : Bool := r.chunk == q.chunk && decide (r.first / 64 ≤ q.last / 64 ∧ q.first / 64 ≤ r.last / 64)

/-- Where a 64 B unit lies: rank, bank group, bank, row, and column C[9:0] of its burst. -/
structure DramPlace where
  /-- Rank. -/
  rank : Nat
  /-- Bank group. -/
  group : Nat
  /-- Bank of the group. -/
  bank : Nat
  /-- Row. -/
  row : Nat
  /-- Column. -/
  col : Nat
  deriving DecidableEq, Repr

/-- The mapping of R479, of the unit at DRAM address 64 × `unit`. -/
def placeOf (config : Word) (unit : Nat) : DramPlace :=
  let groups := if flag config 0 then 2 else 4
  let ranks := if flag config 2 then 2 else 1
  let c := unit / 4
  { group := c % groups, bank := c / groups % 4, col := c / (4 * groups) % 32 * 32 + unit % 4 * 8
    rank := c / (128 * groups) % ranks, row := c / (128 * groups * ranks) }

/-- Bank of a chunk, with its rank where there are two (R479). -/
def bankOf (config : Word) (chunk : Nat) : Nat × Nat × Nat :=
  let p := placeOf config (4 * chunk)
  (p.rank, p.group, p.bank)

/-- Bytes of a rank. -/
def rankBytes (config : Word) : Nat := (fittedBytes config).getD 0 / (if flag config 2 then 2 else 1)

/-- A chunk lies in the training area, the top 1 MiB of its rank (R479). -/
def inTraining (config : Word) (chunk : Nat) : Bool :=
  let below := 128 * if flag config 0 then 2 else 4
  let own := if flag config 2 then chunk / (2 * below) * below + chunk % below else chunk
  decide (rankBytes config ≤ 256 * own + 2 ^ 20)

/-- A request that a requester may present (R479, R480, R482): of an address that is fitted, in the training area from the training helpers alone; ECC
write-backs are the controller's own, and the patrol scrubber brings its own address. -/
def askable (d : Dram) (k : MemAsk) : Bool :=
  if (k.requester : Nat) = 8 then !k.write && decide (0 < rankBytes d.config)
  else decide (256 * k.chunk.toNat < (fittedBytes d.config).getD 0) && inTraining d.config k.chunk.toNat == decide ((k.requester : Nat) = 9)

/-- The object that a request of commit staging belongs to: group `what` mod 4, and of that group's objects number `what` ÷ 4. -/
def stagedObj (what : Nat) (s : State) : Option Obj := (s.cg.group (what % 4)).objs[what / 4]?

/-- The load of a tile (R481). -/
def tileLoad (s : State) (k : MemAsk) : Bool := decide ((k.requester : Nat) = 4) && ((stagedObj k.what s).map (·.kind)) == some 4

/-- The patrol scrubber's next read (R482). DEDUCED: it takes in the training area too (log 26). -/
def patrol (d : Dram) (mono : Dword) : MemReq :=
  let first := 64 * (d.scrub % 4)
  { id := d.nextReq, requester := 8, chunk := d.scrub / 4, first := first, last := first + 63, born := mono, age := (d.age[8]?).getD 0 }

/-- The request as the controller takes it: requesters of class RT only read, ingest only writes, and they and the loads of tiles move whole 64 B units
(R481). -/
def askedReq (whole : Bool) (d : Dram) (mono : Dword) (k : MemAsk) : MemReq :=
  let lo := min k.a.toNat k.b.toNat
  let hi := max k.a.toNat k.b.toNat
  let whole := whole || decide ((k.requester : Nat) < 4)
  { id := d.nextReq, requester := k.requester, write := (k.write && decide (3 ≤ (k.requester : Nat))) || decide ((k.requester : Nat) = 3)
    chunk := k.chunk.toNat, first := if whole then lo / 64 * 64 else lo, last := if whole then hi / 64 * 64 + 63 else hi
    what := k.what, born := mono, age := (d.age[(k.requester : Nat)]?).getD 0 }

/-- The requester is admitted and served now: the training helpers during a pass, every other one once the zero fill is done (R482, R491,
R494). DESIGN CHOICE: an entry held as a pass begins is served after it (log 26). -/
def admits (d : Dram) (requester : Nat) : Bool :=
  if d.training.isSome then requester == 9 else d.zeroed && requester != 9

/-- The entry a request gets, if one of its class is free (R485): of the 32 kept for RT, or of the 96 shared ones. -/
def freePlace (d : Dram) (r : MemReq) : MemPlace :=
  if r.rt && decide (countIf d.reqs (fun q => q.place == .reserved) < 32) then .reserved
  else if countIf d.reqs (fun q => q.place == .shared) < 96 then .shared else .outside

/-- One request that waits at its requester is admitted if it finds an entry. -/
def admitOne (d : Dram) (id : Nat) : Dram :=
  { d with reqs := d.reqs.map fun r => if r.id == id && !r.inEntry then { r with place := freePlace d r } else r }

/-- Requests that wait are admitted. DEDUCED: in the order of R486, oldest first within a class (log 26). -/
def admitted (d : Dram) : Dram :=
  let ids := fun (c : Nat) => (d.reqs.filter fun r => r.cls == c && !r.inEntry && admits d r.requester).map (·.id)
  let d1 := (ids 0 ++ ids 1 ++ ids 2).foldl admitOne d
  { d1 with peak := max d1.peak (countIf d1.reqs (·.inEntry)) }

/-- A request joins those presented; the patrol scrubber goes on to the 64 B after the one it reads (R482). -/
def presentOne (mono : Dword) (d : Dram) (k : MemAsk × Bool) : Dram :=
  if (k.1.requester : Nat) = 8 ∧ !k.1.write then
    { d with reqs := d.reqs ++ [patrol d mono], nextReq := d.nextReq + 1, scrub := (d.scrub + 1) % max 1 ((fittedBytes d.config).getD 0 / 64) }
  else { d with reqs := d.reqs ++ [askedReq k.2 d mono k.1], nextReq := d.nextReq + 1 }

/-- Requests are presented at the present instant. -/
def present (asks : List MemAsk) (s : State) : State :=
  setDram (fun d => admitted ((asks.map fun k => (k, tileLoad s k)).foldl (presentOne s.pos.mono) d)) s

/-- What the requesters present that they may (R479). -/
def asked (asks : List MemAsk) (s : State) : State := present (asks.filter (askable s.dram)) s

/-- A request may be given its next command (R481, R486): it holds an entry whose requester is served; its commands are not all issued; no other
entry has its bank open; no other read-modify-write holds its 64 B; and it waits for every earlier write of its requester to its bytes. DEDUCED: a write
too, so that a later read returns the last of them (log 26). -/
def mayIssue (d : Dram) (r : MemReq) : Bool :=
  r.inEntry && admits d r.requester && !d.returning.contains r.id &&
  !d.reqs.any fun q => q.id != r.id &&
    ((q.opened && bankOf d.config q.chunk == bankOf d.config r.chunk) || (q.holds d && q.sameUnit r) ||
      (q.write && q.requester == r.requester && decide (q.id < r.id) && q.overlaps r))

/-- Place within its class (R486): a write that a waiting read of the class overlaps, then the reads, then the other writes. -/
def writeRank (d : Dram) (r : MemReq) : Nat :=
  if !r.write then 1 else if d.reqs.any fun q =>
    !q.write && q.inEntry && !d.returning.contains q.id && q.cls == r.cls && q.overlaps r then 0 else 2

/-- The entry issued at a command slot (R486): RT, URGENT, BULK, and the oldest of the first place that has one. `busy` names the entries whose bank or
bus timings forbid their next command. -/
def pickReq (d : Dram) (busy : List Nat) : Option MemReq :=
  let can := d.reqs.filter fun r => mayIssue d r && !busy.contains r.id
  (List.range 9).findSome? fun p => can.find? fun r => 3 * r.cls + writeRank d r == p

/-- Changes request `id`. -/
def setReq (id : Nat) (f : MemReq → MemReq) (d : Dram) : Dram := { d with reqs := d.reqs.map fun r => if r.id == id then f r else r }

/-- A request has completed: its entry is free, and its bytes count in MEM_BW. -/
def endReq (mono : Dword) (r : MemReq) (d : Dram) : Dram :=
  admitted { d with
    reqs := d.reqs.filter fun q => q.id != r.id
    served := (d.served.filter fun x => decide (mono.toNat < x.1.toNat + 1000000)) ++ [(mono, 64 * r.units.length, r.rt)] }

/-- Closed-page service of an entry (R485): one ACTIVATE, then its column commands, the last with auto-precharge. The data of a read then returns;
a write is done. DEDUCED: a read-modify-write is served so twice, for its read and for its write (log 26). -/
def issue (mono : Dword) (r : MemReq) (d : Dram) : Dram :=
  if !r.opened then setReq r.id (fun q => { q with opened := true, cols := 0 }) d
  else if r.cols + 1 < r.units.length then setReq r.id (fun q => { q with cols := q.cols + 1 }) d
  else if r.reads then
    let d1 := setReq r.id (fun q => { q with opened := false, cols := 0 }) d
    { d1 with returning := d1.returning ++ [r.id] }
  else endReq mono r d

/-- The command that an entry is issued next (R479, R485). -/
def nextCmd (config : Word) (r : MemReq) : DdrCmd :=
  let p := placeOf config (4 * r.chunk + r.first / 64 + r.cols)
  if r.opened then .burst (!r.reads) (decide (r.units.length ≤ r.cols + 1)) p.rank p.group p.bank p.col else .activate p.rank p.group p.bank p.row

/-- A command slot: the commands put out so far, newest last. -/
def commandSlot (mono : Dword) (x : Dram × List DdrCmd) (busy : List Nat) : Dram × List DdrCmd :=
  match pickReq x.1 busy with
  | some r => (issue mono r x.1, x.2 ++ [nextCmd x.1.config r])
  | none => x

/-- The bursts of an opened entry that are left (R486). -/
def finishReq (mono : Dword) (x : Dram × List DdrCmd) (r : MemReq) : Dram × List DdrCmd :=
  (List.range' r.cols (r.units.length - r.cols)).foldl (fun x n =>
    let q := { r with cols := n }
    (issue mono q x.1, x.2 ++ [nextCmd x.1.config q])) x

/-- The bursts of the opened entries complete, as a refresh falls due (R486, R487). -/
def finishOpen (mono : Dword) (d : Dram) : Dram × List DdrCmd := (d.reqs.filter (·.opened)).foldl (finishReq mono) (d, [])

/-- The command slots run, each with the entries that the timings hold back; none while a refresh stalls every requester (R487). -/
def runSlots (slots : List (List Nat)) (s : State) : State :=
  if s.pos.mono.toNat < s.dram.stallTo then s else
    let (d, cs) := slots.foldl (commandSlot s.pos.mono) (s.dram, [])
    emits (cs.map .dram) { s with dram := d }

/-! ## Refresh (R487, R490) -/

/-- tREFI changes (R490): REFRESH_FAST when it becomes 3.9 µs, event 0x0E03 with the new value. -/
def setRefresh (fast : Bool) (s : State) : State :=
  let s1 := setDram (fun d => { d with refFast := fast, hotSeen := false }) s
  let e : Event := { ev := .refreshRate, p0 := if fast then 3900 else 7800 }
  if fast then stickEvent .refreshFast e s1 else event e s1

/-- The temperature readout after a 128th refresh (R490): the range of the hottest one, none where the devices lack it. A first readout above 85 °C
takes effect at the next refresh. -/
def readout (range : Option Nat) (s : State) : State :=
  let d := s.dram
  match range with
  | none => setDram (fun d => { d with tempRange := 3 }) s
  | some r =>
    let hot := decide (r ≥ 2)
    let cool := if hot then 0 else d.coolNs + 128 * (if d.refFast then 3900 else 7800)
    let s1 := setDram (fun d => { d with tempRange := min r 2, coolNs := min cool 1000000000, hotSeen := hot && !d.refFast }) s
    if !hot && d.refFast && !flag d.config 10 && decide (cool ≥ 1000000000) then setRefresh false s1 else s1

/-- tREFI in ns. -/
def Dram.trefi (d : Dram) : Nat := if d.refFast then 3900 else 7800

/-- A refresh is due: tREFI has passed since the last one (R487). A valid PRF word 4 has set the interface up (R477). -/
def refreshDue (s : State) : Bool :=
  (fittedBytes s.dram.config).isSome && flag s.dram.config 31 && (match s.dram.refreshAt with
    | none => true
    | some t => decide (t.toNat + s.dram.trefi ≤ s.pos.mono.toNat))

/-- The hotter of the two ranks' readouts (R490); none where the devices of neither give one. -/
def hotter (rank0 rank1 : Option (Fin 3)) : Option Nat := match rank0, rank1 with
  | some a, some b => some (max a.val b.val)
  | some a, none | none, some a => some a.val
  | none, none => none

/-- T_STALL (R478, R487): 60 ns + tRFC1, and 130 ns more after every 128th refresh. -/
def stallNs (config : Word) (last : Bool) : Nat := 60 + (if flag config 1 then 550 else 350) + (if last then 130 else 0)

/-- The ranks fitted (R477). -/
def ranksOf (config : Word) : List Nat := if flag config 2 then [0, 1] else [0]

/-- DRAM_REFRESH (R487): bursts already issued complete, then PRECHARGE ALL and REFRESH go to every rank and every requester is stalled; every 128th
refresh adds ZQCS and reads the temperature ranges of the two ranks. -/
def execDramRefresh (rank0 rank1 : Option (Fin 3)) (s : State) : Host.Outcome State Fault Refusal :=
  .next (if !refreshDue s then s else
    let last := decide (s.dram.sinceZq ≥ 127)
    let s1 := if s.dram.hotSeen then setRefresh true s else s
    let (d, cs) := finishOpen s.pos.mono s1.dram
    let ranks := ranksOf d.config
    let cmds := cs ++ ranks.map .prechargeAll ++ ranks.map .refresh ++ (if last then ranks.map .zqcs else [])
    let s2 := emits (cmds.map .dram) { s1 with dram := { d with
      refreshes := satAdd d.refreshes 1, sinceZq := if last then 0 else d.sinceZq + 1, refreshAt := some s.pos.mono
      stallTo := s.pos.mono.toNat + stallNs d.config last } }
    if last then readout (hotter rank0 rank1) s2 else s2)

/-! ## Reads and ECC (R480, R488) -/

/-- A single-bit error in the 64-bit word at DRAM address 8 × `word` is corrected (R480), and the ECC write-back writes it back, a read-modify-write
of class BULK. -/
def eccCorrected (word : Nat) (s : State) : State :=
  let off := BitVec.ofNat 8 (8 * (word % 32))
  present [{ requester := 8, write := true, chunk := w32 (word / 32), a := off, b := off + 7, what := 0 }]
    (stickRec .eccCorr (setDram (fun d => { d with eccCorr := satAdd d.eccCorr 1, corrSince := d.corrSince + 1 }) s))

/-- An uncorrectable error, with the DRAM address ÷ 64 (R480). -/
def eccUncorrectable (requester : Nat) (addr : Word) (s : State) : State :=
  stickEvent .eccUncorr { ev := .eccUncorrectable, p0 := addr, p1 := w32 requester }
    (setDram (fun d => { d with eccUncorr := satAdd d.eccUncorr 1, eccAddr := addr }) s)

/-- The host-directed transfer in progress ends with HW_FAULT (R480): 0 row-state save, 1 load, 2 calibration results, 3 capture. -/
def failTransfer (what : Nat) (s : State) : State :=
  match what with
  | 0 => (match s.scr.job with
    | some (.save tag ..) => complete 0x0401 tag 0x30 0 0 0 { s with scr := { s.scr with job := none } }
    | _ => s)
  | 1 => (match s.scr.job with
    | some (.load (some tag) ..) => complete 0x0402 tag 0x30 0 0 0 { s with scr := { s.scr with job := none } }
    | _ => s)
  | 2 => (match s.cal.sending with
    | (tag, _) :: rest => complete 0x0803 tag 0x30 0 0 0 { s with cal := { s.cal with sending := rest } }
    | [] => s)
  | 3 => (match s.insp.capture with
    | some j => complete 0x0704 j.tag 0x30 0 0 0 { s with insp := { s.insp with capture := none } }
    | none => s)
  | _ => s

/-- A camera line of a frame whose reference is read counts as bad (R254, R269, R480): camera `what` mod 4, its buffer `what` ÷ 4 mod 2, line `what` ÷ 8,
of a frame that waits for its reference or is in processing. -/
def spoilCamLine (what : Nat) (s : State) : State :=
  let k := what % 4
  let b := what / 4 % 2
  let st := cell (s.cam k).bufs b .free
  if st = .waiting ∨ st = .processing then
    stickRec (source := 0x20 + k) .lineBad (setCam k (fun c => { c with
      linesBad := satAdd c.linesBad 1
      frames := upd c.frames b (fun f => { f with lines := upd f.lines (what / 8) (fun _ => none) }) }) s)
  else s

/-- The accumulators of a bank that lie in some 64 B units are zeroed (R480). -/
def zeroUnits (second : Bool) (units : List Nat) (b : CalBank) : CalBank :=
  { b with
    cols := b.cols.filter fun c => !units.contains (Config.calUnit second false c.1.1 c.1.2)
    noz := b.noz.filter fun c => !units.contains (Config.calUnit second true c.1.1 c.1.2) }

/-- What a requester does with poisoned data (R480). `what` names what the read belonged to: a block that Topaz decodes (page and entry), an image line
(unrebased) of Garnet's tile rows, a camera line, a staged object, a transfer; `units` are the 64 B units that came back poisoned. -/
def poisoned (requester what : Nat) (units : List Nat) (s : State) : State :=
  match requester with
  | 0 => setBlk (what / 2 ^ 32) (what % 2 ^ 32) (fun b => if b.dec = .decoding then { b with poison := true } else b) s
  | 1 => { s with scr := { s.scr with tileBad := what :: s.scr.tileBad.filter fun l => decide (l > s.pos.absHigh) } }
  | 2 => spoilCamLine what s
  | 4 => (match stagedObj what s with
    | some o => setGroup (what % 4) (fun g => { g with bad := (o.kind, o.target) :: g.bad }) s
    | none => s)
  | 5 => { s with cal := { s.cal with bank0 := zeroUnits false units s.cal.bank0, bank1 := zeroUnits true units s.cal.bank1 } }
  | 6 => berylRestart s
  | 7 => failTransfer what s
  | _ => s

/-- What the check finds in one 64-bit word of a read (R480). -/
def wordError (r : MemReq) (s : State) (e : Fin 32 × Bool) : State :=
  let word := 32 * r.chunk + e.1
  if !r.units.contains (word / 8) then s
  else if e.2 then eccUncorrectable r.requester (w32 (word / 8)) s else eccCorrected word s

/-- The data of a read returns and is checked (R480, R488). The write of a read-modify-write then follows; DESIGN CHOICE: after an uncorrectable word it
does not, since poisoned data is not written back (log 26). -/
def returnRead (r : MemReq) (errors : List (Fin 32 × Bool)) (s : State) : State :=
  let mono := s.pos.mono
  let lost := ((errors.filter (·.2)).map fun e => (32 * r.chunk + e.1) / 8).filter r.units.contains
  let bad := !lost.isEmpty
  let s1 := setDram (fun d =>
    let d1 := { d with returning := d.returning.filter fun id => id != r.id
                       rtLatMax := if r.rt then w32 (max d.rtLatMax.toNat (min (mono.toNat - r.born.toNat) 0xFFFFFFFF)) else d.rtLatMax }
    if r.write && !bad then setReq r.id (fun q => { q with readDone := true }) d1 else endReq mono r d1) s
  let s2 := errors.foldl (fun s e => wordError r s e) s1
  if bad then poisoned r.requester r.what lost s2 else s2

/-- An RT reader finds its FIFO empty while it needs data (R488, R497). -/
def rtUnderrun (requester : Nat) (s : State) : State :=
  oncePerPage 4 .rtUnderrun { ev := .rtUnderrun, p0 := w32 requester } (pageAt s.pos.absHigh s)
    (setDram (fun d => { d with rtUnderruns := satAdd d.rtUnderruns 1 }) s)

/-- The words of a read that the check finds wrong (R480): corrected (false) or uncorrectable (true), each once. -/
def wordErrors (corrected lost : List (Fin 32)) : List (Fin 32 × Bool) :=
  ((corrected.filter fun w => !lost.contains w).map fun w => (w, false)).eraseDups ++ (lost.map fun w => (w, true)).eraseDups

/-- The RT readers that have found their FIFO empty (R488): requesters 0, 1 and 2. -/
def emptied (empty0 empty1 empty2 : Bool) (s : State) : State :=
  ([(0, empty0), (1, empty1), (2, empty2)].filter (·.2)).foldl (fun s x => rtUnderrun x.1 s) s

/-- DRAM_READ_RETURN (R480 to R488): the requests presented since the last one, those of the RT readers and the others; the command slots; the
words of the read whose data returns that the check finds wrong; and the RT readers whose FIFO was empty. The read is the first whose column
commands are all issued. -/
def execDramReadReturn (rtAsks asks : List MemAsk) (slots : List (List Nat)) (corrected lost : List (Fin 32)) (empty0 empty1 empty2 : Bool) (s : State) :
    Host.Outcome State Fault Refusal :=
  .next (if s.dram.fail ∨ ¬ flag s.dram.config 31 then s else
    let s2 := emptied empty0 empty1 empty2 (runSlots slots (asked (rtAsks ++ asks) s))
    match s2.dram.returning.head?.bind (fun id => s2.dram.reqs.find? (·.id == id)) with
    | some r => returnRead r (wordErrors corrected lost) s2
    | none => s2)

/-- ECC_CORRECTED (R497): event 0x0E01, at most once per second. -/
def execEccCorrected (s : State) : Host.Outcome State Fault Refusal :=
  let wait : Bool := match s.dram.corrAt with
    | none => false
    | some t => decide (s.pos.mono.toNat < t.toNat + 1000000000)
  .next (if s.dram.corrSince = 0 ∨ wait = true then s else
    event { ev := .eccCorrected, p0 := w32 s.dram.corrSince } (setDram (fun d => { d with corrSince := 0, corrAt := some s.pos.mono }) s))

/-! ## Ageing (R484) -/

/-- A request ages: of a BULK requester 3 to 8. -/
def MemReq.ages (r : MemReq) : Bool := decide (3 ≤ r.requester ∧ r.requester ≤ 8)

/-- BULK_PROMOTE (R484): the oldest request that has waited AGE and is not promoted. -/
def execBulkPromote (rtAsks asks : List MemAsk) (s : State) : Host.Outcome State Fault Refusal :=
  let s1 := asked (rtAsks ++ asks) s
  .next (match s1.dram.reqs.find? fun r => r.ages && !r.urgent && decide (r.born.toNat + r.age ≤ s1.pos.mono.toNat) with
    | none => s1
    | some r => setDram (fun d => admitted (setReq r.id (fun q => { q with urgent := true }) { d with promotions := satAdd d.promotions 1 })) s1)

/-- STARVED (R484): the oldest promoted request that has waited a further 4 × AGE. -/
def execStarved (asks : List MemAsk) (s : State) : Host.Outcome State Fault Refusal :=
  let s1 := asked asks s
  .next (match s1.dram.reqs.find? fun r => r.urgent && !r.starved && decide (r.born.toNat + 5 * r.age ≤ s1.pos.mono.toNat) with
    | none => s1
    | some r => stickEvent .starved { ev := .starved, p0 := w32 r.requester } (setDram (setReq r.id (fun q => { q with starved := true })) s1))

/-! ## Training and rate changes (R491 to R495) -/

/-- The rate change of a MEM_SET_RATE begins (R494): a full pass at the new rate. -/
def beginRate (rate : Nat) (s : State) : State :=
  beginPass none false (setDram (fun d => { d with oldRate := d.rate, rate := rate, trained := false, discardPass := false }) s)

/-- The step in which a pass failed (R491): the one given, or the read or write centring whose margin is below 16. -/
def passFailed (failStep : Option Nat) (margin : BitVec 24) : Option Nat :=
  match failStep with
  | some n => some n
  | none => if margin.toNat % 256 < 16 then some 4 else if margin.toNat / 256 % 256 < 16 then some 5 else none

/-- A pass has ended: its margins and its last compare are shown (R492, R496). -/
def endPass (ok : Bool) (margin : BitVec 24) (cmp : Word) (s : State) : State :=
  let s1 := setDram (fun d => admitted { d with training := none, trainStep := 0, trained := ok, margin := margin, trnCmp := cmp &&& 0xFFFF01FF }) s
  if ok then s1 else stickRec .trainFail s1

/-- TRAINING_PASS_DONE (R491 to R495): the step that failed, if any, the margins, the last compare, and whether the kept values verify
after a rate change that failed. -/
def execTrainingPassDone (failStep : Option (Fin 8)) (margin : BitVec 24) (cmp : Word) (verifyOk : Bool) (s : State) :
    Host.Outcome State Fault Refusal :=
  let fail := passFailed (failStep.map fun n => (n : Nat)) margin
  .next (match s.dram.training with
    | none => s
    | some (tag, _) =>
      if s.dram.discardPass then
        let s1 := match tag with
          | some t => complete 0x0E01 t 0x12 1 0 0 s
          | none => s
        match s.dram.ratePending with
        | some (_, r) => beginRate r s1
        | none => setDram (fun d => admitted { d with training := none, trainStep := 0, discardPass := false }) s1
      else
        let s1 := endPass fail.isNone margin cmp s
        match s.dram.ratePending with
        | some (t, r) =>
          let s2 := setDram (fun d => { d with ratePending := none }) s1
          if fail.isNone then complete 0x0E02 t 0 (w32 r) 0 0 s2
          else
            let s3 := stickRec .rateChangeFail (setDram (fun d => { d with rate := d.oldRate, trained := verifyOk }) s2)
            complete 0x0E02 t 0x30 0 0 0 (if verifyOk then s3 else dramFailed s3)
        | none =>
          match tag, fail with
          | some t, none => complete 0x0E01 t 0 (w32 (margin.toNat % 256)) (w32 (margin.toNat / 256 % 256)) 0 s1
          | some t, some n => complete 0x0E01 t 0x30 (w32 n) 0 0 s1
          | none, some _ => if s.dram.zeroed then s1 else dramFailed s1
          | none, none => s1)

/-- ZERO_FILL_DONE (R482, R493): requesters are admitted; the page store is what is fitted less 512 MiB (R120). -/
def execZeroFillDone (ok : Bool) (s : State) : Host.Outcome State Fault Refusal :=
  .next (if !s.dram.trained ∨ s.dram.zeroed ∨ s.dram.training.isSome ∨ s.dram.fail then s
    else if !ok then dramFailed s
    else
      let s1 := setDram (fun d => admitted { d with zeroed := true }) s
      { s1 with pg := { s1.pg with capacity := (fittedBytes s.dram.config).getD 0 - 512 * 2 ^ 20 } })

/-! ## Commands (R495, R498) -/

/-- MEM_BW (R496): the bytes of the requests completed in the last 1 ms, of class RT and all, in units of 10 MB/s. -/
def Dram.traffic (d : Dram) (mono : Dword) : Word :=
  let sum := fun (p : Bool → Bool) => ((d.served.filter fun x => decide (mono.toNat < x.1.toNat + 1000000) && p x.2.2).map fun x => x.2.1).sum
  w32 (min (sum (fun rt => rt) / 10000) 0xFFFF + 65536 * min (sum (fun _ => true) / 10000) 0xFFFF)

/-- The registers 0x00 to 0x30 of the DRAM view (R496). -/
def memView (mono : Dword) (d : Dram) : List Word :=
  [w32 (d.rate + 4 * b2n d.refFast + 8 * b2n d.trained + 16 * d.trainStep + 256 * b2n d.ratePending.isSome + 512 * b2n d.fail + 1024 * d.tempRange),
   d.config,
   w32 (countIf d.reqs (·.inEntry) + 256 * countIf d.reqs (fun r => r.inEntry && r.rt) + 65536 * countIf d.reqs (fun r => r.inEntry && r.urgent)
     + 16777216 * d.peak),
   d.eccCorr, d.eccUncorr, d.eccAddr, d.refreshes, d.promotions, d.rtLatMax, d.rtUnderruns, d.traffic mono, d.margin.setWidth 32, d.trnCmp]

/-- MEM_GET_STATUS. -/
def execMemGetStatus (slot : Fin 16) (s : State) : Host.Outcome State Fault Refusal :=
  .next (command 0x0E00 1 slot (fun s ws => [reservedW ws 0 1, notBoot s])
    (fun _ ws s =>
      let clear := fun (d : Dram) => { d with
        eccCorr := 0, eccUncorr := 0, refreshes := 0, promotions := 0, rtLatMax := 0, rtUnderruns := 0, peak := countIf d.reqs (·.inEntry) }
      done (if flag (wd ws 0) 0 then setDram clear s else s, okWith (memView s.pos.mono s.dram))) s)

/-- MEM_TRAIN and MEM_SET_RATE may run (R495). -/
def memBlocked (s : State) : Bool :=
  let op := s.host.opState
  !(op == .ready || (op == .service && !s.host.firing)) || s.cg.groups.any (fun g => g.st == .armed || g.st == .locked)

/-- MEM_TRAIN (R495, R498). -/
def execMemTrain (slot : Fin 16) (s : State) : Host.Outcome State Fault Refusal :=
  .next (command 0x0E01 1 slot
    (fun s ws => [reservedW ws 0 1, (s.dram.ratePending.isSome || s.dram.training.isSome, busy), (memBlocked s, badState), completionsFull s])
    (fun tag ws s => done (beginPass (some tag) (flag (wd ws 0) 0) (outstand 0x0E01 tag 0 s), accepted)) s)

/-- MEM_SET_RATE (R494, R495, R498). -/
def execMemSetRate (slot : Fin 16) (s : State) : Host.Outcome State Fault Refusal :=
  .next (command 0x0E02 1 slot
    (fun s ws => [reservedW ws 0 3, (decide (fld (wd ws 0) 0 2 > fld s.dram.config 4 2), badParam 0), (s.dram.ratePending.isSome, busy),
      (memBlocked s, badState), completionsFull s])
    (fun tag ws s =>
      let r := fld (wd ws 0) 0 2
      let s1 := outstand 0x0E02 tag 0 s
      if r = s.dram.rate then done (complete 0x0E02 tag 0 (w32 r) 0 0 s1, accepted)
      else
        let s2 := setDram (fun d => { d with ratePending := some (tag, r) }) s1
        if s.dram.training.isSome then done (setDram (fun d => { d with discardPass := true }) s2, deferred)
        else done (beginRate r s2, accepted)) s)

/-- MEM_CLASS_CONFIG (R484, R498). -/
def execMemClassConfig (slot : Fin 16) (s : State) : Host.Outcome State Fault Refusal :=
  .next (command 0x0E03 2 slot
    (fun s ws =>
      let r := fld (wd ws 0) 0 4
      [reservedW ws 0 0xF, (decide (r < 3 ∨ 8 < r), badParam 0), reservedW ws 1 0xFFFF, (decide (fld (wd ws 1) 0 16 < 250), badParam 1), notBoot s])
    (fun _ ws s => done (setDram (fun d => { d with age := upd d.age (fld (wd ws 0) 0 4) (fun _ => fld (wd ws 1) 0 16) }) s, ok)) s)

/-- DRAM address ÷ 64 of an offset in the training area of rank 0, the top 1 MiB of the rank (R479): with two ranks the rank bit, 0, lies
above the column. -/
def trainingAddr (config : Word) (off : Nat) : Word :=
  let two := flag config 2
  let rank := (fittedBytes config).getD (2 ^ 20) / (if two then 2 else 1)
  let a := rank - 2 ^ 20 + off
  let k := if flag config 0 then 16 else 17
  w32 ((if two then a % 2 ^ k + a / 2 ^ k * 2 ^ (k + 1) else a) / 64)

/-- MEM_ECC_INJECT (R498): one inverted bit is corrected, two are uncorrectable. DEDUCED: the read belongs to the training helpers, requester 9
(log 26). -/
def execMemEccInject (slot : Fin 16) (s : State) : Host.Outcome State Fault Refusal :=
  .next (command 0x0E04 2 slot
    (fun s ws => [reservedW ws 0 1, (wn ws 1 % 64 != 0 || decide (wn ws 1 ≥ 2 ^ 20), badParam 1), (s.host.firing, badState)])
    (fun _ ws s =>
      if flag (wd ws 0) 0 then done (eccUncorrectable 9 (trainingAddr s.dram.config (wn ws 1)) s, okWith [2])
      else done (eccCorrected (8 * (trainingAddr s.dram.config (wn ws 1)).toNat) s, okWith [1])) s)

end Sys2Proof.Machine
end

