-- ==== Sys2Proof/Machine/Validate.lean ====
section
/-!
DEFINITION. Validation of a commit group (R73, R85, R86, R580, R581): sizes, targets, content of each kind, offsets, plausibility, digest.
-/
namespace Sys2Proof.Machine

/-- Length of an object of a kind (R73). -/
def sizeOk (kind n : Nat) : Bool :=
  if kind = 12 then decide (1024 ≤ n ∧ n ≤ 16384)
  else if kind = 13 then decide (256 ≤ n ∧ n ≤ 1280)
  else find? [(1, 64), (2, 32), (3, 221952), (4, 524288), (5, 64), (6, 64), (7, 13056), (8, 320), (9, 256), (10, 13056), (11, 1024)] kind == some n

/-- Range of a kind's target (R73). -/
def targetOk (kind t : Nat) : Bool :=
  if [3, 7, 9, 10, 11].contains kind then decide (t < 16)
  else if kind = 4 then decide (t < 8)
  else if kind = 12 then decide (t < 4)
  else if kind = 13 then decide (t < 2)
  else t == 0

/-- The kinds whose target is a module. -/
def moduleKind (kind : Nat) : Bool := [3, 7, 9, 10, 11].contains kind

/-- What the checks of one object look at. -/
structure CheckCtx where
  /-- The objects of the group. -/
  objs : List Obj
  /-- The objects in force. -/
  base : List Obj
  /-- The objects that would be in force after the group. -/
  merged : List Obj
  /-- The bar configuration after the group. -/
  bar : BarCfg
  /-- The limits of R307 apply. -/
  guard : Bool

/-- The state after a group, without its JOB_START. -/
def afterGroup (objs base : List Obj) : List Obj := mergeObjs (objs.filter fun o => o.kind != 2) base

/-- Own fields of BAR_CONFIG (R76): reason 3 or 4. -/
def checkBar (b : List Byte) : Option (Nat × Nat) :=
  let w := objWord b
  let bar := barOf [{ kind := 1, target := 0, bytes := b }]
  if w 0 &&& 0xFFFFE8E0 ≠ 0 ∨ w 1 ≠ 0 ∨ fld (w 3) 20 12 ≠ 0 ∨ (List.range 12).any (fun i => w (4 + i) != 0) ∨
      ¬ [4, 8, 12, 16].contains bar.modules ∨ bar.rows < 1 ∨ bar.rows > 4 then some (3, 0)
  else if bar.lineStep = 0 then some (4, 0)
  else none

/-- Own fields of JOB_START (R77). -/
def checkJob (b : List Byte) : Option Nat :=
  let w := objWord b
  if fld (w 1) 2 30 ≠ 0 ∨ (List.range 5).any (fun i => w (3 + i) != 0) then some 0x0201 else none

/-- The limit a head declares, where it has declared one: DEDUCED: without a record there is none to exceed (log 27). -/
def declared (m : Nat) (f : List Word → Nat) (s : State) : Nat := if (s.lane m).capHeld.isSome then f (capOf m s) else 1023

/-- The cameras of a group up to one of them, beside those in force that it leaves alone, exceed the load limit (R262). -/
def overloads (x : CheckCtx) (k : Nat) : Bool :=
  let mine := x.objs.filter fun o => o.kind == 12 && decide (o.target ≤ k)
  let others := x.base.filter fun o => o.kind == 12 && !(x.objs.any fun p => p.kind == 12 && p.target == o.target)
  decide ((1800000000 : Rat) < camLoad (others ++ mine))

/-- Content of an object (R85 reason 7). -/
def checkContent (x : CheckCtx) (o : Obj) (s : State) : Option Nat :=
  match o.kind with
  | 2 => checkJob o.bytes
  | 3 => checkCurve o.bytes
  | 4 => checkTile o.bytes
  | 5 => checkSelect o.bytes fun t => (objOf x.merged 4 t).isSome
  | 6 => checkPolicy o.bytes
  | 7 => checkMap o.bytes
  | 9 => checkEtab (declared o.target capMaxMain s) o.bytes
  | 10 => checkEcode o.bytes
  | 11 => checkPreheat (declared o.target capPhMax s) o.bytes
  | 12 => checkContext o.bytes (overloads x o.target)
  | 13 => checkLevels o.bytes (ctxIn x.merged (lvCamera o.bytes)).isSome
  | _ => none

/-- A module that is not fitted; for BAR_CONFIG a lane that is not ACTIVE or a head with too few rows (R85, R220). -/
def targetMissing (x : CheckCtx) (o : Obj) (s : State) : Bool :=
  if o.kind = 1 then (List.range x.bar.modules).any fun m => (s.lane m).st != .active || decide (capRows (capOf m s) < x.bar.rows)
  else moduleKind o.kind && decide (x.bar.modules ≤ o.target)

/-- An entry of REG_OFFSETS for a module that is not fitted is not 0 (R78). -/
def strayOffsets (modules : Nat) (b : List Byte) : Bool :=
  (List.range 16).any fun m => decide (modules ≤ m) &&
    ((List.range 4).any (fun r => objWord b (4 * m + r) != 0) || objWord b (64 + m) != 0)

/-- OFFSET_RANGE (R19, R85, R580). -/
def offsetsBad (x : CheckCtx) (o : Obj) (s : State) : Bool :=
  (o.kind == 1 || o.kind == 8) && dBad (dCompute x.merged x.bar s) || (o.kind == 8 && strayOffsets x.bar.modules o.bytes)

/-- NEEDS_JOB_START (R85). -/
def needsJob (x : CheckCtx) (o : Obj) : Bool :=
  let old := barOf x.base
  o.kind == 1 && old.modules != 0 && (objOf x.objs 2 0).isNone && (old.lpi600 != x.bar.lpi600 || old.lineStep != x.bar.lineStep)

/-- The limits of R307 on an object. -/
def checkPlausible (x : CheckCtx) (o : Obj) : Option Nat :=
  let earlier := ((x.objs.filter fun p => p.kind == 7 && decide (p.target < o.target)).map fun p => deadCount p x.base).sum
  if x.guard then implausible o x.base x.bar.rows earlier else none

/-- The checks of one object in the order of R581: reason and subcode. -/
def checkObj (x : CheckCtx) (o : Obj) (s : State) : Option (Nat × Nat) :=
  if !sizeOk o.kind o.bytes.length then some (1, 0)
  else if !targetOk o.kind o.target then some (2, 0)
  else match (if o.kind = 1 then checkBar o.bytes else (checkContent x o s).map fun c => (7, c)) with
    | some r => some r
    | none =>
      if targetMissing x o s then some (2, 0)
      else if offsetsBad x o s then some (5, 0)
      else if needsJob x o then some (6, 0)
      else (checkPlausible x o).map fun c => (8, c)

/-- Validation of a group against a state in force (R85, R581): reason, position in ascending order, subcode of the first failure. -/
def checkGroup (own : Bool) (objs base : List Obj) (s : State) : Option (Nat × Nat × Nat) :=
  if objs.isEmpty then some (10, 0xFFFFFFFF, 0) else
    let merged := afterGroup objs base
    let x : CheckCtx := { objs := objs, base := base, merged := merged, bar := barOf merged
                          guard := own || (s.cal.guardAll && (objOf objs 2 0).isNone) }
    objs.zipIdx.findSome? fun (o, i) => (checkObj x o s).map fun (r, c) => (r, i, c)

/-- The digest of a group (R86). -/
def groupDigest (objs : List Obj) : Word :=
  w32 (crc32c (objs.flatMap fun o => bytesLE 1 o.kind ++ bytesLE 1 o.target ++ bytesLE 2 0 ++ bytesLE 4 o.bytes.length ++ o.bytes))

end Sys2Proof.Machine
end

