-- ==== Sys2Proof/Machine/Commit.lean ====
section
/-!
DEFINITION. Commit groups (R73 to R107): staging, arming, the lock line with the twin decision (R94, R95), and the commit as one action
(R79, R80, R93), on a moving and on a stopped web (R89).
-/
namespace Sys2Proof.Machine

/-! ## Groups -/

/-- The groups a test picks. -/
def groupsWhere (p : Group → Bool) (s : State) : List Nat := (List.range 4).filter fun g => p (s.cg.group g)

/-- Staged bytes of a group (R101). -/
def Group.size (g : Group) : Nat := (g.objs.map fun o => o.bytes.length).sum

/-- CG_STAGED_TOTAL. -/
def stagedTotal (s : State) : Nat := (s.cg.groups.map Group.size).sum

/-- A CG_STAGE or CG_VALIDATE of the group runs (R49, R103). -/
def Group.running (g : Group) : Bool := g.stage.isSome || g.validTag.isSome

/-- Every load that the objects of a group need is complete (R89). -/
def loadsDone (g : Nat) (s : State) : Bool := curvesLoaded g s && headsLoaded g s && lampsLoaded g s

/-- The highest line index reached in the epoch: -1 before the first boundary of an epoch that began on a stopped web (R27, R89). -/
def topLine (s : State) : Int := if s.pos.high = 0xFFFFFFFF then -1 else s.pos.high.toNat

/-- By how many lines the web has reversed from the highest line reached (R10, R27). -/
def linesBack (s : State) : Nat := ((s.pos.absHigh : Int) - webAbs s / 2 ^ 18).toNat

/-- The present line index (R10, R25): that of the position, which a pending correction does not move past the line reached. -/
def lineIndex (s : State) : Int := topLine s - linesBack s

/-- Comparators 2g and 2g + 1 stand on the lock line of a line Lc and on Lc (R87, R332). -/
def cmpsAt (g lc : Nat) (lock commit : CmpState) (s : State) : State :=
  let at_ := fun (abs : Int) => BitVec.ofInt 50 ((abs - s.cg.imgKeyEpoch) * 2 ^ 18)
  let one := fun (st : CmpState) (abs : Int) (c : Cmp) => { c with
    st := st, dir := 0, late := false, action := 0, epoch := s.cg.epochNow, target := at_ abs
    firings := if c.st ≠ .armed ∧ st = .armed then 0 else if st = .fired ∧ c.st = .armed ∧ c.firings ≠ 0xFFFF then c.firings + 1 else c.firings }
  let cmps := upd (upd s.pos.cmps (2 * g) (one lock ((lc : Int) - 64))) (2 * g + 1) (one commit lc)
  { s with pos := { s.pos with cmps := cmps } }

/-- A group's comparators stand on its own lock line and Lc. -/
def groupCmps (g : Nat) (lock commit : CmpState) (s : State) : State := cmpsAt g (s.cg.group g).abs lock commit s

/-- The commit line of a group becomes known, n lines beyond the present line index (R87, R89, R90). DEDUCED: where the web has reversed past that
many lines, the group takes effect as the next line begins, since no line at or below the highest reached begins again (R27, log 28). -/
def resolve (g n : Nat) (s : State) : State :=
  groupCmps g .armed .armed (setGroup g (fun x => { x with
    line := some (wInt (lineIndex s + n)), abs := s.pos.absHigh + max 1 (n - linesBack s), epoch := s.cg.epochNow }) s)

/-! ## Twin agreement (R94, R95) -/

/-- A peer on Vigil takes part: otherwise the unit locks alone (R95). -/
def withPeer (s : State) : Bool := s.twin.peerPresent && (s.twin.role == .active || s.twin.role == .standby)

/-- Lc as the arm record of a group carries it: DEDUCED: all ones where it was not known at arming (log 28). -/
def sentLine (g : Group) : Word := if g.trigger = 1 ∨ g.stopped then 0xFFFFFFFF else g.line.getD 0xFFFFFFFF

/-- A peer's arm record matches a group (R94). -/
def recMatches (r : ArmRec) (g : Group) : Bool := r.epoch == g.epoch && r.line == sentLine g && r.digest == g.digest

/-- The ACTIVE role unit sends its decision (R94). -/
def sendDecision (g : Nat) (cause : Option Nat) (s : State) : State :=
  let grp := s.cg.group g
  if s.twin.role = .active ∧ s.twin.peerPresent then
    vigilSend { type := 2, w5 := grp.epoch, w6 := grp.line.getD 0xFFFFFFFF
                w7 := match cause with
                  | none => 1
                  | some c => w32 (256 * c) } s
  else s

/-- What the ACTIVE role unit finds at the lock line (R94): an abort cause, or none to lock. Records that match another ARMED group speak for
that one (log 28). -/
def twinCause (g : Nat) (s : State) : Option Nat :=
  let grp := s.cg.group g
  if s.cg.peerArms.any fun r => recMatches r grp then none
  else
    let spare := s.cg.peerArms.filter fun r => !((groupsWhere (fun x => x.st == .armed) s).any fun k => recMatches r (s.cg.group k))
    if !spare.isEmpty then some 4 else if grp.policy then none else some 5

/-- The records a decision has used leave; after a difference every record that speaks for no other group does. -/
def usedRecords (g : Nat) (s : State) : State :=
  let grp := s.cg.group g
  let others := (groupsWhere (fun x => x.st == .armed) s).filter fun k => k != g
  let keep : ArmRec → Bool := fun r => !recMatches r grp && others.any fun k => recMatches r (s.cg.group k)
  let all := s.cg.peerArms.any fun r => recMatches r grp
  { s with cg := { s.cg with peerArms := s.cg.peerArms.filter fun r => if all then !recMatches r grp else keep r } }

/-! ## The lock (R88, R149, R188, R400) -/

/-- A group whose Lc was resolved after it was armed meets another of the same line that holds the same kind and target (R85 reason OVERLAP,
R91): one already LOCKED, or one still ARMED. DEDUCED: of two ARMED ones the group given its LINE at arming stays, and of two resolved ones
the lower (log 28). -/
def overlapsAtLock (g : Nat) (s : State) : Bool :=
  let grp := s.cg.group g
  (groupsWhere (fun x => (x.st == .armed || x.st == .locked) && x.line.isSome && x.abs == grp.abs) s).any fun k =>
    let other := s.cg.group k
    k != g && (other.st == .locked || (grp.trigger != 0 && (other.trigger == 0 || decide (k < g)))) &&
    other.objs.any fun o => (objOf grp.objs o.kind o.target).isSome

/-- Why a group cannot lock, before the twin has a say: STAGE_FAULT, STATE, or a revalidation that fails (R85, R88, R89, R92); DEDUCED: a LOCKED
group that comes into force first counts as in force (log 28). -/
def lockCause (g : Nat) (s : State) : Option Nat :=
  let grp := s.cg.group g
  let base := objsAt grp.abs s
  let old := barOf base
  let new := barOf (afterGroup grp.objs base)
  if grp.objs.any fun o => grp.bad.contains (o.kind, o.target) then some 10
  else if s.host.firing ∧ (old.modules ≠ new.modules ∨ old.rows ≠ new.rows) then some 11
  else if !loadsDone g s || overlapsAtLock g s || (checkGroup grp.ownerCal grp.objs base s).isSome then some 9
  else none

/-- The loads that are missing at the lock line set their bits. -/
def missingLoads (g : Nat) (s : State) : State :=
  let s1 := if curvesLoaded g s then s else stickRec .curveNotLoaded s
  let s2 := if headsLoaded g s then s1 else stickRec .energyNotLoaded s1
  if lampsLoaded g s then s2 else stickRec .lampNotLoaded s2

/-- An ARMED group fails at its lock line. -/
def failLock (g cause : Nat) (s : State) : State :=
  let s1 := if cause = 9 then missingLoads g s else s
  abortGroup g cause (sendDecision g (some cause) s1)

/-- By how many lines a group lowers Dint, by module and row (R81). -/
def lowered (old new : List (List Nat)) : List (List Nat) :=
  new.zipIdx.map fun (rows, m) => (List.range rows.length).map fun r => dInt old m r - dInt new m r

/-- D as revalidation computes it (R580): it takes effect at Lc. Groups of the same line that are LOCKED share it. -/
def lockOffsets (g : Nat) (s : State) : State :=
  let grp := s.cg.group g
  if (objOf grp.objs 1 0).isNone ∧ (objOf grp.objs 8 0).isNone then s else
    let objs := objsAt grp.abs s
    let d := (dCompute objs (barOf objs) s).map fun l => l.map Int.toNat
    let low := lowered (dAt (grp.abs - 1) s) d
    let share : Group × Nat → Group := fun (x, k) =>
      if k = g ∨ (x.st = .locked ∧ x.abs = grp.abs ∧ ¬ x.dPend.isEmpty) then { x with dPend := d } else x
    let s1 : State := { s with cg := { s.cg with groups := s.cg.groups.zipIdx.map share } }
    { s1 with scr := { s1.scr with reduce := (grp.abs, low) :: s1.scr.reduce.filter fun w => w.1 != grp.abs } }

/-- The slices of modules that a group fits begin at its Lc (R5, R76). -/
def fitSlices (g : Nat) (s : State) : State :=
  let grp := s.cg.group g
  let old := (barOf (objsAt (grp.abs - 1) s)).modules
  let new := (barOf (objsAt grp.abs s)).modules
  forAll ((List.range new).drop old) (fun m => setSlice m fun sl => { sl with next := grp.abs, passed := grp.abs, busy := none, result := [], late := false }) s

/-- The epoch a LOCKED JOB_START begins: one more for every other that comes before it. -/
def epochOf (g : Nat) (s : State) : Word :=
  let grp := s.cg.group g
  s.cg.epochNow + 1 + w32 (groupsWhere (fun x => x.st == .locked && decide (x.abs < grp.abs) && (objOf x.objs 2 0).isSome) s).length

/-- Pages of the ending epoch started ahead for lines from Lc on are given up: none of their lines prints, so nothing is counted or spoiled for
them (R89, R121, R129). -/
def unstart (lc : Nat) (epoch : Word) (s : State) : State :=
  let ahead : Page → Bool := fun p => p.started && !p.recorded && p.epoch != epoch && decide (lc ≤ p.firstAbs)
  let s1 := if s.pg.decEpoch = epoch then s else
    { s with pg := { s.pg with startedCnt := s.pg.startedCnt - countIf s.pg.pages ahead } }
  mapPages ahead
    (fun p => { p with
      started := false, epoch := 0, firstLine := 0xFFFFFFFF, firstAbs := 0, pNo := 0, underrun := 0, spoiled := false, blankBlocks := 0
      blocks := p.blocks.map fun b => { b with dec := .idle, counted := false } }) s1

/-- Start decisions pass to the epoch of a JOB_START at the lock line (R122, R129, R582), and its JOB_ID is kept for records (R128). -/
def lockPages (g : Nat) (s : State) : State :=
  let grp := s.cg.group g
  match objOf grp.objs 2 0 with
  | none => s
  | some b =>
    let bar := barOf (objsAt grp.abs s)
    let ep := epochOf g s
    beginEpochPages (fld (objWord b 1) 0 2) grp.abs ep (objWord b 2) bar.lpi600 bar.modules
      (unstart grp.abs ep { s with cg := { s.cg with jobs := (ep, objWord b 0) :: s.cg.jobs } })

/-- A group becomes LOCKED (R88). -/
def lockGroup (g : Nat) (s : State) : State :=
  let s1 := groupCmps g .fired .armed (setGroup g (fun x => { x with st := .locked }) (usedRecords g (sendDecision g none s)))
  camLock g (lockPages g (fitSlices g (lockOffsets g s1)))

/-- An ARMED group meets its lock condition (R88, R94 to R96): it locks, aborts, or waits for the ACTIVE role unit's decision. A join group
locks alone (R439). -/
def tryLock (g : Nat) (s : State) : State :=
  let grp := s.cg.group g
  match lockCause g s with
  | some c => failLock g c s
  | none =>
    if !withPeer s || grp.joinGroup then lockGroup g s
    else if s.twin.role = .standby then s
    else match twinCause g s with
      | some c => failLock g c (usedRecords g s)
      | none => lockGroup g s

/-! ## The commit (R79, R80, R93) -/

/-- The bar configuration takes effect (R38, R76): lanes from MODULES on are disabled (R5, R220). -/
def commitBar (objs : List Obj) (s : State) : State :=
  if (objOf objs 1 0).isNone then s else
    let bar := barOf objs
    let s1 := { s with cg := { s.cg with modules := bar.modules, rows := bar.rows, lpi600 := bar.lpi600, lineStep := BitVec.ofNat 52 bar.lineStep } }
    forAll ((List.range 16).drop bar.modules) toDisabled s1

/-- The line-rate limit and the columns that no row can print follow the rows, the maps and the heads (R28, R163). -/
def commitLimits (objs : List Obj) (s : State) : State :=
  if !objs.any (fun o => o.kind == 1 || o.kind == 7) then s else
    let c := s.cg
    let k := kLiveOf c.inForce c.modules c.rows
    let fh := fHeadOf c.modules s
    let dead := deadColsOf c.inForce c.modules c.rows
    let s1 := { s with cg := { c with kLive := k, fHead := fh, fLim := fLimOf k fh }, scr := { s.scr with deadCols := w32 dead } }
    if objs.any (fun o => o.kind == 7) && dead != 0 then stickEvent .columnDead { ev := .columnDead, p0 := w32 dead } s1 else s1

/-- Every group still ARMED for a line of the ended epoch at or after the new epoch's start aborts (R91). -/
def endEpochGroups (ended : Word) (lc : Nat) (s : State) : State :=
  forAll (groupsWhere (fun x => x.st == .armed && x.line.isSome && x.epoch == ended && decide (lc ≤ x.abs)) s) (fun g => abortGroup g 3) s

/-- A group that is LOCKED beyond the start of a new epoch is numbered in it from then on (R79, R107), its comparators with it (R336). -/
def renumber (g lc : Nat) (epoch : Word) (s : State) : State :=
  groupCmps g .fired .armed (setGroup g (fun x => { x with line := some (w32 (x.abs - lc)), epoch := epoch }) s)

/-- A new epoch at Lc (R93): the position is rebased, comparators follow (R336), the ring of the new epoch feeds the page path (R129).
On a stopped web Lc is the line after the present one (R89), and the position stands in the line below line 0. DEDUCED: the highest index is
all ones until line 0 has begun, as at reset: line 0 would otherwise never begin (log 28). -/
def commitEpoch (job : List Byte) (lc : Nat) (moving : Bool) (s : State) : State :=
  let old := s.cg.epochNow
  let new := old + 1
  let line : Int := if moving then (lc : Int) - s.cg.imgKeyEpoch else lineIndex s + 1
  let s1 := endScrJob lc s
  let s2 := { s1 with
    cg := { s1.cg with epochNow := new, imgKeyEpoch := lc, jobId := objWord job 0, firstPage := objWord job 2
                       peerArms := s1.cg.peerArms.filter fun r => decide (new ≤ r.epoch) }
    pos := { s1.pos with acc := s1.pos.acc - BitVec.ofInt 80 (line * 2 ^ 48), high := if moving then 0 else 0xFFFFFFFF } }
  let s3 := rebaseCmps line new s2
  let s4 := forAll (groupsWhere (fun x => x.st == .locked && decide (lc < x.abs)) s3) (fun g => renumber g lc new) s3
  let s5 := if (s4.pg.decEpoch = new ∧ s4.pg.decBase = lc) then s4
    else beginEpochPages (fld (objWord job 1) 0 2) lc new (objWord job 2) s4.cg.lpi600 s4.cg.modules s4
  endEpochGroups old lc (commitEpochPages (fld (objWord job 1) 0 2) lc new (unstart lc new s5))

/-- The curve banks of a group that its slices have not yet taken switch (R149). -/
def commitBanks (g : Nat) (s : State) : State :=
  forAll (List.range 16) (fun m s =>
    let sl := s.slice m
    if sl.bankPending ≠ 0 ∧ sl.bankGroup = g then setSlice m (fun x => { x with bankInForce := !x.bankInForce, bankPending := 0 }) s else s) s

/-- Classifications that a committed map has put into force are no longer pending (R305), nor those of a nozzle that it makes DEAD or DISABLED: such a
nozzle is not reclassified, and only a host's own map returns it to LIVE (R304). -/
def commitPending (objs : List Obj) (s : State) : State :=
  { s with cal := { s.cal with pend := s.cal.pend.filter fun x =>
    let m := x.1.1 / colsPer
    let now := mapByte s.cg.inForce m (x.1.1 % colsPer) x.1.2
    (objOf objs 7 m).isNone || (now != x.2.toNat && liveByte now) } }

/-- The persistent image takes the objects of a PERSIST group, and a set write is asked for (R100, R512, R514). -/
def commitPersist (g : Nat) (line epoch : Word) (s : State) : State :=
  let grp := s.cg.group g
  if !grp.persist then s else
    let objs := grp.objs.filter fun o => setKinds.contains o.kind
    requestSetWrite [] { s with pers := { s.pers with
      image := mergeObjs objs s.pers.image, imageLine := line, imageEpoch := epoch, imageModules := s.cg.modules } }

/-- A group is COMMITTED (R83, R107): its bytes are freed and its completion falls due; a calibration group reports 0x0210 and releases
itself (R102, R310). -/
def finishGroup (g : Nat) (s : State) : State :=
  let grp := s.cg.group g
  let lc : Word := grp.line.getD 0xFFFFFFFF
  let s1 := groupCmps g .fired .fired (setGroup g (fun x => { x with st := .committed, objs := [], bad := [], dPend := [], stopped := false, joinGroup := false }) s)
  if grp.ownerCal then
    let s2 := calEvent { ev := .cgCommitted, p0 := w32 g, p1 := lc } (setGroup g Group.released s1)
    mergeBack { s2 with cal := { s2.cal with result := .none, res := none, group := none, commits := satAdd s2.cal.commits 1 } }
  else
    completeArm g 0 lc s1.cg.epochNow grp.digest
      { s1 with cal := { s1.cal with quietUntil := s1.pos.mono + 3000000 } }

/-- The LOCKED groups of line Lc take effect as one action (R80, R91). `moving` says that the boundary that begins Lc has just occurred;
otherwise they take effect on a stopped web (R89). -/
def commitAt (lc : Nat) (moving : Bool) (gs : List Nat) (s : State) : State :=
  if gs.isEmpty then s else
    let objs := gs.foldl (fun l g => mergeObjs (s.cg.group g).objs l) []
    let kinds := objs.filter fun o => o.kind != 2
    let line := w32 (lc - s.cg.imgKeyEpoch)
    let epoch := s.cg.epochNow
    let d := (gs.map fun g => (s.cg.group g).dPend).filter fun d => !d.isEmpty
    let s1 := calCommit kinds lc s
    let s2 := { s1 with cg := { s1.cg with
      old := (lc, s1.cg.inForce) :: s1.cg.old, inForce := mergeObjs kinds s1.cg.inForce, dOff := d.getLast?.getD s1.cg.dOff } }
    let s3 := commitLimits kinds (commitBar kinds s2)
    let s4 := match objOf objs 2 0 with
      | some job => commitEpoch job lc moving s3
      | none => s3
    let s5 := forAll gs (fun g s => lampCommit lc g (switchBanks g (commitBanks g s))) s4
    let s6 := forAll [0, 1, 2, 3] (camCommit lc s5.cg.imgKeyEpoch s5.cg.epochNow) s5
    let s7 := commitPending kinds { s6 with insp := { s6.insp with load := loadWord s6.cg.inForce } }
    let s8 := forAll gs (fun g => commitPersist g line epoch) s7
    forAll gs finishGroup (recordsDue (qualitiesFor (if camsConfigured s = 0 then none else some lc) s8))

/-- The groups LOCKED for a line. -/
def lockedAt (lc : Nat) (s : State) : List Nat := groupsWhere (fun x => x.st == .locked && x.abs == lc) s

/-! ## A stopped web (R89) -/

/-- Every stage discards its work for lines from Lc on, to rebuild it under the new state (R89). -/
def rebuild (lc : Nat) (s : State) : State :=
  let below := fun (x : (Nat × Nat) × Nat) => decide (x.1.1 < lc)
  let s1 := forAll (List.range 16) (fun m s =>
    setSlice m (fun sl => if sl.next > lc ∨ sl.busy = some lc then
      { sl with next := min sl.next lc, passed := min sl.passed lc, busy := none, result := [], late := false } else
      { sl with passed := min sl.passed lc }) (undoLines m lc s)) s
  let s1 := rebuildJobs lc s1
  { s1 with
    scr := { s1.scr with rebuild := lc + 16 }
    fire := { s1.fire with
      trains := s1.fire.trains.filter fun t => decide (t.fire < lc)
      hdr := s1.fire.hdr.filter fun h => decide (h.1.1 < lc)
      sumF := s1.fire.sumF.filter below, sumW := s1.fire.sumW.filter below
      lineWhy := s1.fire.lineWhy.filter fun h => decide (h.1.1 < lc) }
    twin := { s1.twin with digests := s1.twin.digests.drop (s1.twin.digestNext - lc), digestNext := min s1.twin.digestNext lc }
    onyx := { s1.onyx with sums := s1.onyx.sums.filter fun e => decide (e.fire < lc) } }

/-- Start decisions and decoding whose points have passed are taken at once (R89, R124, R582). -/
def catchUp (s : State) : State := topazStep s.pos.absHigh (pageDecisions s.pos.absHigh s)

/-- A group on a web that is still stopped locks with Lc the next line and takes effect at once, with the others of that line (R89, R90). -/
def commitStopped (g : Nat) (s : State) : State :=
  let s1 := tryLock g (resolve g 1 s)
  if (s1.cg.group g).st = .locked then
    let lc := (s1.cg.group g).abs
    catchUp (rebuild lc (commitAt lc false (lockedAt lc s1) s1))
  else if (s1.cg.group g).st = .armed then endGroupCmps g (setGroup g (fun x => { x with line := none, abs := 0 }) s1)
  else s1

/-- The 3 ms around a calibration group's Lc into which no lock line of another group may fall (R309), in lines at the present rate. DEDUCED:
no rate, no clash (log 28). -/
def within3ms (a b : Nat) (s : State) : Bool := match lineTs s with
  | some t => decide ((max a b - min a b) * t ≤ 9600000 * 256)
  | none => false

/-- ARMED calibration groups that a host group's lock line comes too near are aborted by Beryl, as that line becomes known (R309). -/
def clearCal (g : Nat) (s : State) : State :=
  let grp := s.cg.group g
  if grp.line.isNone ∨ grp.ownerCal then s else
    forAll (groupsWhere (fun x => x.st == .armed && x.ownerCal && within3ms x.abs (grp.abs - 64) s) s) (fun k => abortGroupTo true k 1) s

/-- The loads of a group that waits on a stopped web are complete (R89): it takes effect at once, or 65 lines on if the web moves again. -/
def loadsReady (g : Nat) (s : State) : State :=
  if webMoves s then clearCal g (resolve g 65 s) else commitStopped g s

/-! ## Rows -/

/-- CG_LOCK_LINE (R88): the position has reached Lc - 64 of a group. Start decisions that waited for it are taken (R122). -/
def execCgLockLine (group : Fin 4) (s : State) : Host.Outcome State Fault Refusal :=
  let g := s.cg.group group
  .next (if g.st = .armed ∧ g.line.isSome ∧ g.abs + linesBack s ≤ s.pos.absHigh + 64 ∧ s.pos.absHigh < g.abs then
    pageDecisions s.pos.absHigh (tryLock group s) else s)

/-- CG_LOADS_COMPLETE (R89). -/
def execCgLoadsComplete (group : Fin 4) (s : State) : Host.Outcome State Fault Refusal :=
  let g := s.cg.group group
  .next (if g.st = .armed ∧ g.stopped ∧ g.line.isNone ∧ loadsDone group s then loadsReady group s else s)

/-- CG_TIME_REACHED_STOPPED (R90): the given time comes while the web is stopped; a group whose loads are not complete waits for them. -/
def execCgTimeReachedStopped (group : Fin 4) (s : State) : Host.Outcome State Fault Refusal :=
  let g := s.cg.group group
  .next (if g.st = .armed ∧ g.trigger = 1 ∧ g.line.isNone ∧ ¬ webMoves s ∧ g.time.toNat ≤ s.pos.netNow then
    (if loadsDone group s then commitStopped group s else setGroup group (fun x => { x with stopped := true }) s) else s)

/-- CG_DECISION_DEADLINE (R95): Lc - 48 passes in a STANDBY role unit without a decision. -/
def execCgDecisionDeadline (group : Fin 4) (s : State) : Host.Outcome State Fault Refusal :=
  let g := s.cg.group group
  .next (if s.twin.role = .standby ∧ withPeer s ∧ g.st = .armed ∧ g.line.isSome ∧ ¬ g.joinGroup ∧ g.abs ≤ s.pos.absHigh + 48 then
    unsync 3 (abortGroup group 6 s) else s)

/-! ## Commands (R103 to R107) -/

/-- The checks every command on a group makes (R103): `mask` is what word 4 may hold. -/
def groupChecks (mask : Word) (s : State) (ws : List Word) : List (Bool × Ans) :=
  let g := s.cg.group (fld (wd ws 0) 0 2)
  [reservedW ws 0 mask, (wd ws 1 != g.handle, badParam 1), (g.running, busy)]

/-- The next HANDLE (R104). -/
def nextHandle (w : Word) : Word := if w = 0xFFFFFFFF then 1 else w + 1

/-- Opens the lowest EMPTY slot (R104). -/
def openGroup (own : Bool) (s : State) : Option Nat × State :=
  match (groupsWhere (fun x => x.st == .empty) s).head? with
  | none => (none, s)
  | some g =>
    let h := nextHandle s.cg.handleCtr
    (some g, setGroup g (fun _ => { st := .opened, handle := h, ownerCal := own }) { s with cg := { s.cg with handleCtr := h } })

/-- CG_OPEN (R103, R104). -/
def execCgOpen (slot : Fin 16) (s : State) : Host.Outcome State Fault Refusal :=
  .next (command 0x0200 0 slot
    (fun s _ => [notBoot s, ((groupsWhere (fun x => x.st == .empty) s).isEmpty, noResource)])
    (fun _ _ s => match openGroup false s with
      | (some g, s1) => done (s1, okWith [w32 g, s1.cg.handleCtr])
      | (none, s1) => done (s1, noResource)) s)

/-- CG_STAGE (R84, R105). -/
def execCgStage (slot : Fin 16) (s : State) : Host.Outcome State Fault Refusal :=
  .next (command 0x0201 7 slot
    (fun s ws =>
      let st := (s.cg.group (fld (wd ws 0) 0 2)).st
      groupChecks 3 s ws ++
      [(decide (fld (wd ws 2) 0 8 < 1 ∨ fld (wd ws 2) 0 8 > 13), badParam 2), reservedW ws 2 0xFFFF, (wn ws 3 % 8 != 0, badParam 3),
       (!(st == .opened || st == .valid || st == .aborted), badState), completionsFull s])
    (fun tag ws s =>
      let g := fld (wd ws 0) 0 2
      let j : StageJob := { tag := tag, kind := fld (wd ws 2) 0 8, target := fld (wd ws 2) 8 8, len := wn ws 5, crc := wd ws 6 }
      let s1 := outstand 0x0201 tag g (setGroup g (fun x => { x with stage := some j }) s)
      done (readHost (wn64 ws 3) (wn ws 5) s1, accepted)) s)

/-- The object of a CG_STAGE has been fetched (R74, R75, R83, R84, R105). -/
def stageObject (g : Nat) (j : StageJob) (bytes : List Byte) (s : State) : State :=
  let s1 := setGroup g (fun x => { x with stage := none }) s
  let objs := insertObj { kind := j.kind, target := j.target, bytes := bytes } (s.cg.group g).objs
  let s2 := setGroup g (fun x => { x with objs := objs, bad := x.bad.filter (· != (j.kind, j.target)), st := .opened, digest := 0 }) s1
  if crc32 bytes ≠ j.crc.toNat then complete 0x0201 j.tag 0x41 0 0 0 s1
  else if objs.length > 128 ∨ stagedTotal s2 > 67108864 then complete 0x0201 j.tag 0x14 0 0 0 s1
  else complete 0x0201 j.tag 0 (w32 objs.length) (w32 (s2.cg.group g).size) (w32 (stagedTotal s2)) s2

/-- CG_STAGE_DONE: the bytes of the object, or none where the fetch failed (R84, R99). -/
def execCgStageDone (group : Fin 4) (bytes : Option (List Byte)) (s : State) : Host.Outcome State Fault Refusal :=
  .next (match (s.cg.group group).stage, bytes with
    | none, _ => s
    | some j, none => complete 0x0201 j.tag 0x30 0 0 0 (setGroup group (fun x => { x with stage := none }) s)
    | some j, some bs => if bs.length = j.len then stageObject group j bs s else s)

/-- CG_VALIDATE (R106). -/
def execCgValidate (slot : Fin 16) (s : State) : Host.Outcome State Fault Refusal :=
  .next (command 0x0202 2 slot
    (fun s ws => groupChecks 3 s ws ++ [((s.cg.group (fld (wd ws 0) 0 2)).st != .opened, badState), completionsFull s])
    (fun tag ws s =>
      let g := fld (wd ws 0) 0 2
      done (outstand 0x0202 tag g (setGroup g (fun x => { x with validTag := some tag }) s), accepted)) s)

/-- CG_VALIDATE_DONE (R83, R85, R86, R106). -/
def execCgValidateDone (group : Fin 4) (s : State) : Host.Outcome State Fault Refusal :=
  let g := s.cg.group group
  .next (match g.validTag with
    | none => s
    | some tag =>
      let s1 := setGroup group (fun x => { x with validTag := none }) s
      match checkGroup g.ownerCal g.objs s.cg.inForce s with
      | some (r, i, c) => complete 0x0202 tag 0x20 (w32 r) (w32 i) (w32 c) s1
      | none =>
        let d := groupDigest g.objs
        complete 0x0202 tag 0 d 0 0 (setGroup group (fun x => { x with st := .valid, digest := d }) s1))

/-- Another group armed for the same epoch and line holds the same kind and target (R91). -/
def overlaps (g abs : Nat) (s : State) : Bool :=
  (groupsWhere (fun x => (x.st == .armed || x.st == .locked) && x.line.isSome && x.abs == abs) s).any fun k =>
    k != g && (s.cg.group k).objs.any fun o => (objOf (s.cg.group g).objs o.kind o.target).isSome

/-- A group is ARMED (R87, R94, R149, R188, R400): its arm record goes out and the loads its objects need begin. -/
def armGroup (g : Nat) (s : State) : State :=
  let s1 := setGroup g (fun x => { x with st := .armed }) s
  let grp := s1.cg.group g
  let s2 := if s1.twin.role = .active ∨ s1.twin.role = .standby then
    vigilSend { type := 1, w5 := grp.epoch, w6 := sentLine grp, w7 := grp.digest } s1 else s1
  lampLoads g (startLoads g s2)

/-- A LINE group of the epoch in force comes too late (R88): the line index has passed Lc - 65, or the line has begun before. -/
def lineLate (line : Word) (s : State) : Bool := decide ((line.toNat : Int) < lineIndex s + 65 ∨ (line.toNat : Int) ≤ topLine s)

/-- The hardware arms the comparators of a LINE group too late (R88, R334): those whose target is not ahead are late, the others end, and the group
stays as it was. -/
def lateCmps (g lc : Nat) (s : State) : State :=
  endGroupCmps g (lateTest (2 * g + 1) (lateTest (2 * g) (cmpsAt g lc .armed .armed s)))

/-- CG_ARM (R87, R88, R90, R91, R107, R334, R346). -/
def execCgArm (slot : Fin 16) (s : State) : Host.Outcome State Fault Refusal :=
  .next (command 0x0203 6 slot
    (fun s ws =>
      let g := fld (wd ws 0) 0 2
      let t := fld (wd ws 0) 4 2
      let st := (s.cg.group g).st
      let abs := if t = 0 then absOf (wd ws 3) s else s.pos.absHigh + max 1 (65 - linesBack s)
      [reservedW ws 0 0x333, (t == 3, badParam 0)] ++ groupChecks 0x333 s ws ++
      [(!(st == .valid || st == .aborted), badState), (t == 1 && !s.pos.tState.valid, badState), completionsFull s,
       (t == 0 && wd ws 2 != s.cg.epochNow, late), (t == 1 && decide (wn64 ws 4 < s.pos.netNow), late),
       (((t == 0 && !lineLate (wd ws 3) s) || (t == 2 && webMoves s)) && overlaps g abs s, validationFailed 9)])
    (fun tag ws s =>
      let g := fld (wd ws 0) 0 2
      let t := fld (wd ws 0) 4 2
      if t = 0 ∧ lineLate (wd ws 3) s then done (lateCmps g (absOf (wd ws 3) s) s, late) else
      let s1 := outstand 0x0203 tag g (setGroup g (fun x => { x with
        trigger := t, policy := flag (wd ws 0) 8, persist := flag (wd ws 0) 9, armTag := some tag, epoch := s.cg.epochNow
        line := none, abs := 0, time := BitVec.ofNat 64 (wn64 ws 4), stopped := t == 2 && !webMoves s }) s)
      let s2 := if t = 0 then
          groupCmps g .armed .armed (setGroup g (fun x => { x with line := some (wd ws 3), abs := absOf (wd ws 3) s }) s1)
        else if t = 2 ∧ webMoves s then resolve g 65 s1 else s1
      done (clearCal g (armGroup g s2), accepted)) s)

/-- CG_ABORT (R92, R103). -/
def execCgAbort (slot : Fin 16) (s : State) : Host.Outcome State Fault Refusal :=
  .next (command 0x0204 2 slot
    (fun s ws =>
      let st := (s.cg.group (fld (wd ws 0) 0 2)).st
      groupChecks 3 s ws ++ [(!(st == .armed || st == .locked || st == .committed), badState), (st == .locked || st == .committed, late)])
    (fun _ ws s => done (abortGroup (fld (wd ws 0) 0 2) 1 s, ok)) s)

/-- CG_RELEASE (R83, R103). -/
def execCgRelease (slot : Fin 16) (s : State) : Host.Outcome State Fault Refusal :=
  .next (command 0x0205 2 slot
    (fun s ws =>
      let st := (s.cg.group (fld (wd ws 0) 0 2)).st
      groupChecks 3 s ws ++ [(!(st == .opened || st == .valid || st == .committed || st == .aborted), badState)])
    (fun _ ws s => done (setGroup (fld (wd ws 0) 0 2) Group.released s, ok)) s)

/-! ## Calibration puts its result into force (R309, R311, R314) -/

/-- No host group is ARMED or LOCKED, and 3 ms have passed since the Lc of the last one (R309). -/
def hostQuiet (s : State) : Bool :=
  (groupsWhere (fun x => (x.st == .armed || x.st == .locked) && !x.ownerCal) s).isEmpty && decide (s.cal.quietUntil ≤ s.pos.mono)

/-- The commit line of a calibration group: LEAD_US ahead, and at least 65 lines (R309). -/
def calLead (s : State) : Nat := match lineTs s with
  | some t => if t = 0 then 65 else max 65 ((s.cal.leadUs * 819200 + t - 1) / t)
  | none => 65

/-- The maps of a result are held back where they would set an F_LIM below the present rate (R311): they stay pending. -/
def holdMaps (r : CalRes) (s : State) : List Obj × State :=
  let new := fLimOf (kLiveOf (mergeObjs r.objs s.cg.inForce) s.cg.modules s.cg.rows) s.cg.fHead
  if r.objs.any (fun o => o.kind == 7) && decide (new < s.fire.rate.toNat) then
    (r.objs.filter (fun o => o.kind != 7),
     calStickEvent .mapHeldSpeed { ev := .mapHeldSpeed, p0 := w32 new, p1 := s.fire.rate } s)
  else (r.objs, s)

/-- CAL_AUTO_COMMIT (R309 to R311): calibration opens a group, stages, validates and arms it. -/
def execCalAutoCommit (s : State) : Host.Outcome State Fault Refusal :=
  .next (match s.cal.result, s.cal.res with
    | .ready, some r =>
      if !s.cal.autoCommit || s.twin.role != .solo || s.host.opState != .print || !webMoves s || !hostQuiet s ||
          (groupsWhere (fun x => x.st == .empty) s).isEmpty then s
      else
        let (objs, s1) := holdMaps r s
        if objs.isEmpty then discardResult s1
        else match checkGroup true objs s.cg.inForce s with
          | some (why, _, _) =>
            dropResult why s1
          | none => match openGroup true s1 with
            | (none, _) => s
            | (some g, s2) =>
              let s3 := setGroup g (fun x => { x with objs := objs.foldl (fun l o => insertObj o l) [], digest := groupDigest objs, persist := s.cal.persist }) s2
              let s4 := resolve g (calLead s) s3
              armGroup g { s4 with cal := { s4.cal with result := .committing, group := some g } }
    | _, _ => s)

end Sys2Proof.Machine
end

