-- ==== Sys2Proof/Machine/Twin.lean ====
section
/-!
DEFINITION. Vigil frames and messages, roles, switchover, joining and hot plug (R411 to R447).
-/
namespace Sys2Proof.Machine

/-! ## Sending frames (R418 to R420) -/

/-- The unit sends Vigil frames (R418, R436, R535). -/
def vigilRuns (s : State) : Bool :=
  s.twin.prsnt && !s.pwr.sleepArmed && s.pwr.state != .sleep && !s.pwr.inReset && (cell s.pwr.islands 3 {}).on

/-- SYNCED of a frame: a synchronised STANDBY role unit, or one that holds the bar (R419). -/
def sendsSynced (s : State) : Bool := s.twin.synced || s.twin.role == .solo || s.twin.role == .active

/-- Word 0 of a frame (R419). -/
def frameWord0 (type : Nat) (seq : Byte) (s : State) : Word :=
  let t := s.twin
  w32 (t.fseq.toNat + 256 * t.role.code + 1024 * s.host.opState.code + 8192 * b2n (sendsSynced s) + 16384 * b2n s.host.firing +
    32768 * b2n t.rxFresh + 65536 * type + 16777216 * seq.toNat)

/-- The payload of a message: POSITION takes its values at the sample in which its frame's start delimiter leaves (R420). -/
def msgWords (m : VMsg) (s : State) : List Word :=
  if m.type = 5 then [(s.pos.enc 0).count, w32 s.pos.raw, w32 (s.pos.raw >>> 32)] else [m.w5, m.w6, m.w7]

/-- The message of the next frame: the second copy of the last one, the serial first after PEER_OK (R419), else the first that waits; and
the state after it is taken (R420). -/
def nextMsg (s : State) : Option VMsg × State :=
  let t := s.twin
  match t.txCopy with
  | some m => (some m, { s with twin := { t with txCopy := none } })
  | none =>
    if t.rxFresh ∧ ¬ t.serialSent then
      let m : VMsg := { type := 8, w5 := w32 Config.serial.toNat, w6 := w32 (Config.serial.toNat >>> 32), w7 := 0 }
      (some m, { s with twin := { t with serialSent := true, txCopy := some m, msgSeq := t.msgSeq + 1 } })
    else match t.txQueue with
      | [] => (none, s)
      | m :: rest => (some m, { s with twin := { t with txQueue := rest, txCopy := some m, msgSeq := t.msgSeq + 1 } })

/-- The latest fire line whose digest is complete, and the digest; what a unit that has none sends is not stated (log 3). DEDUCED: of the epoch in
force, since the frame's EPOCH and LINE name the line (R424, log 19). -/
def latestDigest (s : State) : (Word × Word) × State :=
  match s.twin.digests.find? fun d => d.1 == s.cg.epochNow with
  | some d => ((d.2.1, d.2.2), s)
  | none =>
    let (a, s1) := takeFree s
    let (b, s2) := takeFree s1
    ((w32 a, w32 b), s2)

/-- The next frame is due (R418): frames begin every 2.560 µs, at the first sample from their instant on. -/
def frameDue (s : State) : Bool := decide (s.since s.twin.txAt < 2 ^ 63)

/-- When the frame after this one is due; frames that were not sent are not made up. -/
def nextTx (s : State) : Dword := (if s.since s.twin.txAt < 2560 then s.twin.txAt else s.pos.mono) + 2560

/-- A frame as it leaves (R418): preamble 0x55, start delimiter 0xD5, body and CRC-32C of the body. -/
def vigilFrame (body : List Word) : List Byte := [0x55, 0xD5] ++ wordBytes body ++ bytesLE 4 (crc32c (wordBytes body))

/-- VIGIL_FRAME_TX (R418 to R420); CLAIM is that of the headers now sent, those of the line 2 ahead (R30, R432). -/
def execVigilFrameTx (samples : Samples) (s : State) : Host.Outcome State Fault Refusal :=
  let s0 := mainUpdate (advance samples s)
  .next (if !vigilRuns s0 ∨ !frameDue s0 then s0 else
    let s1 := claimStep { s0 with twin := { s0.twin with txAt := nextTx s0 } }
    let (m, s2) := nextMsg s1
    let ((line, digest), s3) := latestDigest s2
    let type := (m.map (·.type)).getD 0
    let msg := match m with
      | some m => msgWords m s3
      | none => [0, 0, 0]
    let body := [frameWord0 type s3.twin.msgSeq s3, claimFor (s3.pos.absHigh + 2) s3, s3.cg.epochNow, line, digest] ++ msg
    emit (.vigil (some (vigilFrame body))) { s3 with twin := { s3.twin with fseq := s3.twin.fseq + 1 } })

/-- VIGIL_POSITION_TX (R420). -/
def execVigilPositionTx (s : State) : Host.Outcome State Fault Refusal :=
  .next (if (s.twin.role = .solo ∨ s.twin.role = .active) ∧ s.since s.twin.posTxAt ≥ 1000000 then
    vigilSend { type := 5 } { s with twin := { s.twin with posTxAt := s.pos.mono } } else s)

/-! ## Receiving frames (R419, R421, R424) -/

/-- What the peer's state does to the own role (R411, R445): SOLO becomes ACTIVE beside a synchronised STANDBY role unit; ACTIVE becomes SOLO
when that ends, and a switchover that waits fails. -/
def followPeer (before : Nat) (s : State) : State :=
  let s1 := if s.twin.role = .active ∧ s.twin.swLine.isSome ∧ ¬ peerReady s then failSwitch s else s
  if s1.twin.role = .solo ∧ peerReady s1 then setRole .active s1
  else if s1.twin.role = .active ∧ ((before = 2 ∧ s1.twin.peerRole ≠ 2) ∨ ¬ s1.twin.peerSynced) then setRole .solo s1
  else s1

/-- A join fails when the peer leaves SOLO or ACTIVE role (R439). -/
def joinPeer (s : State) : State := if s.twin.peerRole = 2 ∨ s.twin.peerRole = 3 then failJoin 5 s else s

/-- The state words of a valid frame (R419): `w` are words 0 to 4. -/
def takeFrame (w : List Word) (s : State) : State :=
  let t := s.twin
  let w0 := wd w 0
  let run := min 2 (t.peerRun + 1)
  let s1 : State := { s with twin := { t with
    rxFresh := true, rxAt := s.pos.mono, peerRun := run, peerRole := fld w0 8 2, peerOp := fld w0 10 3, peerSynced := flag w0 13
    peerFiring := flag w0 14, peerHears := flag w0 15, claimPeer := wd w 1 } }
  let s2 := seeClaim (wd w 1) s1
  let s3 := if run = 2 ∧ ¬ t.peerPresent then
    event { ev := .peerFound, source := 0x60, p0 := w32 t.peerSerial.toNat } { s2 with twin := { s2.twin with peerPresent := true } } else s2
  let s4 := claimStep (peerDigest (wd w 2) (wd w 3) (wd w 4) s3)
  if s4.twin.peerPresent then checkTakeover (joinPeer (followPeer t.peerRole s4)) else s4

/-- VIGIL_FRAME_RX (R418, R419, R421): the 8 words of a body and the CRC-32C received with it; the message it carries is a row of its own. -/
def execVigilFrameRx (words : List Word) (crc : Word) (s : State) : Host.Outcome State Fault Refusal :=
  .next (if crc = frameCrc words then takeFrame words s else
    stickRec .vigilCrc { s with twin := { s.twin with crcErrors := satAdd s.twin.crcErrors 1, peerRun := 0 } } (source := 0x60))

/-- VIGIL_PEER_LOST (R421): no valid frame for 7.68 µs. -/
def execVigilPeerLost (s : State) : Host.Outcome State Fault Refusal :=
  let s1 : State := { s with twin := { s.twin with rxFresh := false, serialSent := false, peerRun := 0, peerMsgSeq := none } }
  .next (if s.since s.twin.rxAt < 7680 then s else if !s.twin.peerPresent then s1 else
    let s2 := stickEvent .peerLost { ev := .peerLost, source := 0x60 }
      { s1 with twin := { s1.twin with peerPresent := false, lostAt := s.pos.mono, losses := satAdd s1.twin.losses 1 } }
    let s3 := if s2.twin.role = .active then failSwitch s2 else s2
    if s3.twin.role = .active then setRole .solo s3 else s3)

/-- Heads fire the peer: a fitted lane reports another serial accepted (R433). -/
def headsFirePeer (s : State) : Bool :=
  s.fitted.any fun m => (s.lane m).accValid && (s.lane m).accSerial != Config.serial

/-- VIGIL_GRACE_EXPIRY (R426, R433): the peer has been lost for VIGIL_GRACE_MS. -/
def execVigilGraceExpiry (s : State) : Host.Outcome State Fault Refusal :=
  .next (if !s.twin.peerPresent && headsFirePeer s && decide (s.twin.lostAt.toNat + 1000000 * s.twin.graceMs ≤ s.pos.mono.toNat)
    then unsync 7 s else s)

/-! ## Messages (R420) -/

/-- The receiver acts on the first valid copy of a message (R420). -/
def onMessage (seq : Byte) (f : State → State) (s : State) : State :=
  if s.twin.peerMsgSeq = some seq then s else f { s with twin := { s.twin with peerMsgSeq := some seq } }

/-- ARM (R94): the record is held for the lock-line comparison. -/
def execArm (seq : Byte) (epoch line digest : Word) (s : State) : Host.Outcome State Fault Refusal :=
  let r : ArmRec := { epoch := epoch, line := line, digest := digest }
  .next (onMessage seq (fun s => if s.cg.peerArms.contains r then s else
    { s with cg := { s.cg with peerArms := (s.cg.peerArms ++ [r]).drop (s.cg.peerArms.length + 1 - 16) } }) s)

/-- The ARMED group a decision is about (R95): of its epoch and line, else one whose line was not known at arming. -/
def decidedGroup (epoch line : Word) (which : Group → Bool) (s : State) : Option Nat :=
  match (groupsWhere (fun x => x.st == .armed && !x.joinGroup && x.epoch == epoch && x.line == some line && which x) s).head? with
  | some g => some g
  | none => (groupsWhere (fun x => x.st == .armed && !x.joinGroup && x.epoch == epoch && x.line.isNone && which x) s).head?

/-- A group does not differ from the ACTIVE role unit's arm record for its line (R94, R95). DEDUCED: where no record has come, its epoch and
line are all there is to match (log 28). -/
def agrees (s : State) (g : Group) : Bool :=
  let recs := s.cg.peerArms.filter fun r => r.epoch == g.epoch && r.line == sentLine g
  recs.isEmpty || recs.any fun r => r.digest == g.digest

/-- A decision on a group of line Lc comes after line Lc - 48 has been reached (R95). On a stopped web a group takes effect at once, without that
lead (R89). -/
def decisionLate (abs : Nat) (s : State) : Bool := decide (abs ≤ s.pos.absHigh + 48) && (webMoves s || abs != s.pos.absHigh + 1)

/-- The ACTIVE role unit's decision to lock (R95, R149): a group that cannot follow aborts, and the unit is unsynchronised. A decision that comes
too late is none. -/
def followLock (g : Nat) (line : Word) (s : State) : State :=
  let s1 := if (s.cg.group g).line.isSome then s else
    groupCmps g .armed .armed (setGroup g (fun x => { x with line := some line, abs := absOf line s }) s)
  if decisionLate (s1.cg.group g).abs s then s else
  match lockCause g s1 with
  | some c => unsync (if curvesLoaded g s1 then 4 else 5) (failLock g c s1)
  | none =>
    let s2 := lockGroup g s1
    let lc := (s1.cg.group g).abs
    if !webMoves s2 && lc == s2.pos.absHigh + 1 then catchUp (rebuild lc (commitAt lc false (lockedAt lc s2) s2)) else s2

/-- DECISION (R94, R95): lock, or abort with its cause. -/
def execDecision (seq : Byte) (epoch line : Word) (lock : Bool) (cause : Byte) (s : State) : Host.Outcome State Fault Refusal :=
  .next (onMessage seq (fun s =>
    if s.twin.role ≠ .standby then s else
      if lock then
        match decidedGroup epoch line (agrees s) s with
        | some g => followLock g line s
        | none => unsync 4 s
      else match decidedGroup epoch line (fun _ => true) s with
        | some g => abortGroup g cause.toNat s
        | none => s) s)

/-- PAGE_START (R123): the STANDBY role unit begins the page at the peer's L_s. -/
def execPageStart (seq : Byte) (epoch line number : Word) (s : State) : Host.Outcome State Fault Refusal :=
  .next (onMessage seq (fun s =>
    if s.twin.role ≠ .standby then s else
      let (lost, s1) := peerPageStart s.pos.absHigh { s with pg := { s.pg with peerStart := s.pg.peerStart ++ [(epoch, line, number)] } }
      if lost then unsync 6 s1 else s1) s)

/-- SWITCH (R432): the new claim is written and goes from the header of fire line L_sw; a unit whose claim space is exhausted, or whose page 0 takes no
more writes, does not write it and the switchover fails (R415, R508). -/
def execSwitch (seq : Byte) (epoch line claim : Word) (s : State) : Host.Outcome State Fault Refusal :=
  .next (onMessage seq (fun s =>
    if s.twin.role ≠ .standby ∨ ¬ s.twin.synced ∨ epoch ≠ s.cg.epochNow then s
    else if s.twin.exhausted ∨ maxClaim s + 1 ≥ 0xFFFFFFFF then stickRec .switchoverFailed s
    else if pageFull s.pers 0 then stickRec .switchoverFailed (wornOut 0 s)
    else prfStore 16 claim { s with twin := { s.twin with swLine := some (absOf line s, claim, none) } }) s)

/-- A STANDBY role unit takes its peer's epoch and position (R425). DEDUCED: what it held for lines of its own epoch goes (log 19).
DESIGN CHOICE: a trace, save or load for a line of that epoch completes LATE, as at an epoch's end (log 19). -/
def adopt (epoch : Word) (p : BitVec 50) (s : State) : State :=
  let s := if epoch = s.cg.epochNow then s else endScrJob 0 s
  let line := p.toNat >>> 18
  let base := if epoch = s.cg.epochNow then s.cg.imgKeyEpoch else s.pos.absHigh + 2048
  let top := base + line
  let s1 : State := { s with
    cg := { s.cg with epochNow := epoch, imgKeyEpoch := base }
    pos := { s.pos with acc := BitVec.ofNat 80 (p.toNat * 2 ^ 30), high := w32 line, absHigh := top, corr := 0, corrOn := false }
    twin := { s.twin with posAdopted := true } }
  if epoch = s.cg.epochNow then s1 else
    let s2 := forAll (List.range 16) (fun m => setSlice m fun sl => { sl with next := top + 17, passed := top + 17, busy := none, result := [] }) s1
    let s3 : State := { s2 with
      twin := { s2.twin with digests := [], digestNext := top + 17 }
      scr := { s2.scr with claims := [], lastFire := [], placed := [], reduce := [] }
      pg := { s2.pg with epochs := [(base, epoch, 0)], decRing := none, peerStart := [], underrunOn := false } }
    forAll [0, 1, 2, 3] (fun k s => match (s.cam k).seg with
      | none => s
      | some g => armCam k (beginSeg k { g with start := top + 1, base := base, epoch := epoch } (setCam k (fun c => { c with next := [] }) s))) s3

/-- Own position minus the peer's, 2⁻¹⁸ line (R425). -/
def skewOf (p : BitVec 50) (s : State) : Int := sx 50 (s.pos.raw + 2 ^ 50 - p.toNat)

/-- What a STANDBY role unit does with the peer's position (R425). DEDUCED: positions of different epochs are not compared (log 19). -/
def takePosition (epoch : Word) (position : BitVec 50) (s : State) : State :=
  if s.twin.role ≠ .standby then s
  else if !s.twin.posAdopted then adopt epoch position s
  else if epoch ≠ s.cg.epochNow then s
  else
    let d := skewOf position s
    let s1 : State := { s with twin := { s.twin with posDiff := wInt d } }
    if 4096 < d.natAbs then unsync 2 (stickRec .posSkew s1) else s1

/-- POSITION (R425): the epoch of its frame, the 32.18 position and the sample that received the start delimiter; the count of word 5 is
not used. -/
def execPosition (seq : Byte) (epoch : Word) (position : BitVec 50) (samples : Samples) (s : State) : Host.Outcome State Fault Refusal :=
  .next (onMessage seq (takePosition epoch position) (mainUpdate (advance samples s)))

/-- JOIN_A (R420, R439). -/
def execJoinA (seq : Byte) (epoch line jobId : Word) (s : State) : Host.Outcome State Fault Refusal :=
  .next (onMessage seq (fun s => match s.twin.joining with
    | some j => if j.epoch = epoch ∧ j.ls = absOf line s then { s with twin := { s.twin with joining := some { j with jobId := some jobId } } } else s
    | none => s) s)

/-- JOIN_B (R420, R439). -/
def execJoinB (seq : Byte) (number first pages : Word) (s : State) : Host.Outcome State Fault Refusal :=
  .next (onMessage seq (fun s => match s.twin.joining with
    | some j => { s with twin := { s.twin with joining := some { j with page := some (number, first, pages) } } }
    | none => s) s)

/-- SERIAL (R419). -/
def execSerial (seq : Byte) (serial : Dword) (s : State) : Host.Outcome State Fault Refusal :=
  .next (onMessage seq (fun s => { s with twin := { s.twin with peerSerial := serial } }) s)

/-! ## At line boundaries -/

/-- Boundary L_sw (R432, R445): the roles exchange. DEDUCED: a peer that does not report the new claim by then has not written it, and the switchover
fails (R415, log 19). -/
def switchStep (B : Nat) (s : State) : State :=
  match s.twin.swLine with
  | none => s
  | some (l, n, tag) =>
    if B < l then s else
      let s1 : State := { s with twin := { s.twin with swLine := none } }
      match tag with
      | some t => if s.twin.claimPeer ≠ n then failSwitch s else
        complete 0x0C02 t 0 n 0 0
          (setRole .standby { s1 with twin := { s1.twin with synced := true, claimOwn := n - 1, posAdopted := false } })
      | none =>
        if s.twin.role = .standby ∧ s.twin.synced then setRole .active { s1 with twin := { s1.twin with claimOwn := n, synced := false } } else s1

/-- The join context of a page boundary (R420, R439): the page that holds or follows image line L, its first line and P. -/
def joinPage (L : Nat) (s : State) : Word × Word × Word :=
  match s.pg.pages.find? fun p => p.started && !p.recorded && decide (L < p.firstAbs + p.lines) with
  | some p => (p.number, p.firstLine, w32 p.pNo)
  | none => match s.pg.decRing.bind fun r => nextPage r s with
    | some p => (p.number, w32 (s.pg.nominal + gapBefore p s - s.pg.decBase), w32 s.pg.startedCnt)
    | none => (0, w32 (s.pg.nominal - s.pg.decBase), w32 s.pg.startedCnt)

/-- The peer of a joining unit sends the context as L_s - 64 passes (R439). DEDUCED: it knows L_s from its SCR_ROW_STATE_SAVE (log 19). -/
def joinContext (B : Nat) (s : State) : State :=
  match s.scr.job with
  | some (.save _ _ ep ln at_ _ _) =>
    if (s.twin.role = .solo ∨ s.twin.role = .active) ∧ at_ = B + 64 then
      let (number, first, pages) := joinPage at_ s
      vigilSend { type := 7, w5 := number, w6 := first, w7 := pages } (vigilSend { type := 6, w5 := ep, w6 := ln, w7 := jobOf ep s } s)
    else s
  | _ => s

/-- The page of the context starts (R122, R439), and the pages of the joining unit follow it. -/
def startJoinPage (j : JoinJob) (jobId number first pages : Word) (p : Page) (s : State) : State :=
  let base := s.cg.imgKeyEpoch
  let s1 := beginEpochPages j.ring base j.epoch number s.cg.lpi600 s.cg.modules s
  let rings := s1.pg.rings.zipIdx.map fun (g, r) => { g with inForce := r == j.ring }
  let s2 : State := { s1 with
    cg := { s1.cg with jobId := jobId }
    pg := { s1.pg with rings := rings, startedCnt := pages.toNat, nominal := base + first.toNat }
    twin := { s1.twin with joining := some { j with started := true } } }
  startPage p (base + first.toNat) (base + first.toNat) s2

/-- The page of the context at its start decision (R439): not stored by then, the join fails. -/
def joinStart (B : Nat) (j : JoinJob) (s : State) : State :=
  match j.jobId, j.page with
  | some id, some (number, first, pages) =>
    if j.started ∨ B + 64 < s.cg.imgKeyEpoch + first.toNat then s else
      match nextPage j.ring s with
      | some p => if p.number = number ∧ p.stored then startJoinPage j id number first pages p s else failJoin 4 s
      | none => failJoin 4 s
  | _, _ => if j.ls ≤ B + 48 then failJoin 3 s else s

/-- A joining unit at boundary B (R439): the context is due by L_s - 48, and at L_s the unit enters PRINT from READY, as R66 has it. DEDUCED: a
unit that has left READY by then stays where it is (log 19). -/
def joinStep (B : Nat) (s : State) : State :=
  match s.twin.joining with
  | none => s
  | some j =>
    let s1 := joinStart B j s
    match s1.twin.joining with
    | none => s1
    | some j1 =>
      if j1.entered ∨ B < j1.ls then s1 else
        let s2 : State := { s1 with twin := { s1.twin with
          joining := some { j1 with entered := true }, fSync := some (j1.ls + maxDint s1), matchRun := 0 } }
        if s2.host.opState = .ready then setOpState .print false s2 else s2

/-- A unit that has found SYNC_LINES matching lines from F_sync on is synchronised (R440). -/
def syncStep (B : Nat) (s : State) : State :=
  match s.twin.joining, s.twin.fSync with
  | some j, some f =>
    if s.twin.role = .standby ∧ ¬ s.twin.synced ∧ s.twin.syncLines ≤ s.twin.matchRun then
      let line := w32 (lineIn B s).2
      let s1 : State := { s with twin := { s.twin with synced := true, syncLine := line, joining := none, fSync := none } }
      complete 0x0C03 j.tag 0 line 0 0 (event { ev := .synced, p0 := w32 (lineIn f s).2, p1 := line } s1)
    else s
  | _, _ => s

/-- The peer of a STANDBY role unit in PRINT has made an orderly stop (R414). -/
def peerStopped (s : State) : Bool :=
  s.twin.role == .standby && s.host.opState == .print && s.twin.peerPresent && (s.twin.peerOp == 1 || s.twin.peerOp == 3)

/-- A STANDBY role unit in PRINT follows an orderly stop of its peer (R414). -/
def followStop (s : State) : State :=
  if peerStopped s then
    setOpState .ready true { s with host := { s.host with firing := false } }
  else s

/-! ## Hot plug (R429, R436) -/

/-- The lane transmitters of a unit that is not seated go into electrical idle. -/
def holdIdle (s : State) : State :=
  forAll (List.range 16) (fun m s =>
    let l := s.lane m
    if l.st = .disabled ∨ l.blanking ∨ l.idleHeld then s
    else emit (.lane m .elecIdle) (setLane m (fun l => { l with idleHeld := true }) s)) s

/-- PRSNT_CHANGE (R429, R436): the filtered level of PRSNT_N. -/
def execPrsntChange (low : Bool) (s : State) : Host.Outcome State Fault Refusal :=
  let s1 : State := { s with twin := { s.twin with prsnt := low } }
  .next (if s.twin.prsnt = low then s
  else if low then (if s.host.opState = .safe then s1 else releaseIdle s1)
  else if s.twin.role = .listen then holdIdle s1
  else holdIdle (enterListen (stickRec .prsntRemoved (failSwitch (blankForIdle s1)))))

/-! ## Commands (R443 to R447) -/

/-- TWIN_STATE (R441). -/
def twinStateWord (s : State) : Word :=
  let t := s.twin
  w32 (t.role.code + 4 * b2n t.synced + 8 * b2n t.joining.isSome + 16 * b2n t.peerPresent + 32 * b2n t.peerHears + 64 * t.peerRole +
    256 * t.peerOp + 2048 * b2n t.peerSynced + 4096 * b2n t.prsnt + 8192 * b2n t.takeoverEn + 16384 * b2n t.posAdopted)

/-- A map of lanes. -/
def laneMap (p : Lane → Bool) (s : State) : Nat := ((s.hl.lanes.zipIdx.filter fun x => p x.1).map fun x => 2 ^ x.2).sum

/-- The registers at 0x000 to 0x040 of the twin view (R441). -/
def twinView (s : State) : List Word :=
  let t := s.twin
  let acc := laneMap (fun l => l.accValid && l.accSerial == Config.serial) s + 65536 * laneMap (fun l => l.accValid && l.accSerial == t.peerSerial) s
  [twinStateWord s, (claimStep s).twin.claimOwn, t.claimPeer, wd s.pers.prf 16, w32 t.peerSerial.toNat, w32 (t.peerSerial.toNat >>> 32), w32 acc,
   t.digestLine, t.digestOwn, t.digestPeer, t.syncLine, t.takeovers, t.mismatches, t.crcErrors, t.losses, t.posDiff,
   w32 (laneMap (fun l => l.st == .active) s)]

/-- TWIN_GET_STATUS (R441, R443). -/
def execTwinGetStatus (slot : Fin 16) (s : State) : Host.Outcome State Fault Refusal :=
  .next (command 0x0C00 1 slot (fun s ws => [reservedW ws 0 1, notBoot s])
    (fun _ ws s =>
      let r := twinView s
      let s1 : State := if flag (wd ws 0) 0 then { s with twin := { s.twin with takeovers := 0, mismatches := 0, crcErrors := 0, losses := 0 } } else s
      done (s1, okWith r)) s)

/-- The conditions of R411 on a role that is asked for are met. -/
def roleAllowed (role : Nat) (s : State) : Bool :=
  let t := s.twin
  let foreign := s.hl.lanes.any fun l => l.st == .active && l.accValid && l.accSerial != Config.serial
  match role with
  | 0 => t.role == .listen && !(t.peerPresent && decide (t.peerRole ≤ 2)) && !foreign
  | 2 => t.role == .listen && t.peerPresent && decide (t.peerRole ≤ 1) && s.cg.modules != 0
  | _ => !((t.role == .solo || t.role == .active) && s.host.firing)

/-- Takes the role asked for (R411, R412, R415, R416). -/
def takeRole (role : Nat) (s : State) : State × Ans :=
  match role with
  | 0 =>
    match issueClaim s with
    | (some _, s1) => (setRole .solo s1, ok)
    | (none, s1) => (s1, if pageFull s.pers 0 then wearLimit else noResource)
  | 2 => (setRole .standby { s with twin := { s.twin with synced := false, posAdopted := false, claimOwn := s.twin.claimPeer - 1 } }, ok)
  | _ => (enterListen (failSwitch s), ok)

/-- TWIN_SET_ROLE (R411, R436, R444, R530): a role that is in force already is OK once BAD_PARAM is passed (R51). -/
def execTwinSetRole (slot : Fin 16) (s : State) : Host.Outcome State Fault Refusal :=
  .next (command 0x0C01 1 slot
    (fun s ws =>
      let r := fld (wd ws 0) 0 2
      [reservedW ws 0 3, (r == 1, badParam 0), (r == s.twin.role.code, ok),
       (!(s.host.opState == .ready || s.host.opState == .print || s.host.opState == .service), badState), (!s.twin.prsnt, badState),
       (!roleAllowed r s || (r == 2 && s.pwr.state != .run), badState)])
    (fun _ ws s => done (takeRole (fld (wd ws 0) 0 2) s)) s)

/-- TWIN_SWITCHOVER (R415, R432, R445). DEDUCED: an EPOCH that is over is LATE, one to come BAD_PARAM (log 19). -/
def execTwinSwitchover (slot : Fin 16) (s : State) : Host.Outcome State Fault Refusal :=
  .next (command 0x0C02 3 slot
    (fun s ws =>
      [reservedW ws 0 0, (decide (s.cg.epochNow < wd ws 1), badParam 1), (s.twin.swLine.isSome, busy),
       (s.twin.role != .active || s.host.opState != .print || !peerReady s, badState),
       (decide (maxClaim s + 1 ≥ 0xFFFFFFFF), noResource), completionsFull s,
       (wd ws 1 != s.cg.epochNow || decide ((wn ws 2 : Int) < lineIndex s + 65 ∨ (wn ws 2 : Int) ≤ topLine s), late)])
    (fun tag ws s =>
      let n := w32 (max (wd s.pers.prf 16).toNat s.twin.claimOwn.toNat + 1)
      let s1 := outstand 0x0C02 tag 0 { s with twin := { s.twin with swLine := some (absOf (wd ws 2) s, n, some tag) } }
      done (vigilSend { type := 4, w5 := wd ws 1, w6 := wd ws 2, w7 := n } s1, accepted)) s)

/-- TWIN_JOIN arms its group for L_s (R439, R446). DEDUCED: no arm record is sent for it (log 19). -/
def startJoin (tag : Word) (ws : List Word) (s : State) : State :=
  let g := fld (wd ws 0) 0 2
  let ls := absOf (wd ws 3) s
  let s1 := setGroup g (fun x => { x with
    st := .armed, trigger := 0, policy := false, persist := false, armTag := none, epoch := wd ws 2, line := some (wd ws 3)
    abs := ls, stopped := false, joinGroup := true }) s
  let s2 := lampLoads g (startLoads g (groupCmps g .armed .armed s1))
  { s2 with twin := { s2.twin with fSync := none, matchRun := 0
                                   joining := some { tag := tag, group := g, ring := fld (wd ws 0) 8 2, epoch := wd ws 2, ls := ls } } }

/-- TWIN_JOIN (R439, R446). -/
def execTwinJoin (slot : Fin 16) (s : State) : Host.Outcome State Fault Refusal :=
  .next (command 0x0C03 4 slot
    (fun s ws =>
      let grp := s.cg.group (fld (wd ws 0) 0 2)
      [reservedW ws 0 0x303, (grp.st != .valid, badParam 0), (wd ws 1 != grp.handle, badParam 1), (decide (s.cg.epochNow < wd ws 2), badParam 2),
       (grp.running || s.fire.probe.isSome || s.twin.joining.isSome, busy),
       (s.twin.role != .standby || s.host.opState != .ready || !s.twin.posAdopted, badState), completionsFull s,
       (wd ws 2 != s.cg.epochNow || decide ((wn ws 3 : Int) < lineIndex s + 65 ∨ (wn ws 3 : Int) ≤ topLine s), late)])
    (fun tag ws s => done (startJoin tag ws (outstand 0x0C03 tag 0 s), accepted)) s)

/-- TWIN_CONFIG (R447). -/
def execTwinConfig (slot : Fin 16) (s : State) : Host.Outcome State Fault Refusal :=
  .next (command 0x0C04 2 slot
    (fun s ws =>
      let lines := fld (wd ws 1) 16 16
      [reservedW ws 0 1, (decide (fld (wd ws 1) 0 16 > 60000 ∨ lines < 64 ∨ lines > 4096), badParam 1), notBoot s])
    (fun _ ws s =>
      done ({ s with twin := { s.twin with takeoverEn := flag (wd ws 0) 0, graceMs := fld (wd ws 1) 0 16, syncLines := fld (wd ws 1) 16 16 } }, ok)) s)

/-- TWIN_WAKE_PEER (R422): nothing goes out on Vigil while PRSNT_N is high (R436). -/
def execTwinWakePeer (slot : Fin 16) (s : State) : Host.Outcome State Fault Refusal :=
  .next (command 0x0C05 0 slot (fun s _ => [notBoot s]) (fun _ _ s => done (if s.twin.prsnt then emit (.vigil none) s else s, ok)) s)

end Sys2Proof.Machine
end

