-- ==== Sys2Proof/Machine/Boundary.lean ====
section
/-!
DEFINITION. The line boundary (R11, R27, R79, R204, R327): everything that is keyed to the beginning of a line, in one order.
-/
namespace Sys2Proof.Machine

/-! ## Operating state (R41, R66, R70, R71) -/

/-- Firing stops at this boundary. -/
def stopFiring (s : State) : State := { s with host := { s.host with firing := false } }

/-- A cause of a forced transition to READY falls at this boundary (R41, R66, R414). -/
def forcedNow (s : State) : Bool := s.host.wdogForce || peerStopped s

/-- A SYS_SET_OP_STATE that waits for the boundary takes effect and answers (R70); together with a cause of a forced transition it counts as
forced (R66). -/
def opReqStep (s : State) : State :=
  match s.host.opReq with
  | none => s
  | some (slot, t) =>
    respond slot ok (setOpState t (forcedNow s) (stopFiring { s with host := { s.host with opReq := none } }))

/-- A SYS_RESET_UNIT with FORCE has stopped firing: it answers, and the reset may begin (R71). -/
def resetStopStep (s : State) : State :=
  match s.host.resetStop with
  | none => s
  | some (slot, kind, alt) =>
    let s1 := stopFiring (askReset kind alt { s with host := { s.host with resetStop := none } })
    respond slot ok (if s1.host.opState = .print then setOpState .ready (forcedNow s) s1 else s1)

/-- The watchdog with ACTION 1 takes the unit out of PRINT (R41). -/
def wdogStep (s : State) : State :=
  if s.host.wdogForce then
    let s1 := { s with host := { s.host with wdogForce := false } }
    if s.host.opState = .print then setOpState .ready true (stopFiring s1) else s1
  else s

/-- Changes of the operating state at a line boundary (R66, R414). -/
def opStateBoundary (s : State) : State := followStop (wdogStep (resetStopStep (opReqStep s)))

/-- WEB_STOPPED (R66, R89): due once no line boundary has occurred for 1 ms; no line is firing then, and what waited for the next boundary
happens at once. -/
def execWebStopped (s : State) : Host.Outcome State Fault Refusal :=
  .next (if quietWeb s then
    let s1 := { s with cg := { s.cg with webStopped := true } }
    if s1.fire.spit.isSome then s1 else wdogStep (resetStopStep (opReqStep (stopFiring s1)))
  else s)

/-! ## Safety (R456, R460) -/

/-- Onyx at a boundary: the gates reopen after a fresh grant that still stands (R456). -/
def onyxBoundary (s : State) : State :=
  if s.onyx.gateReopen ∧ onyxGrants s ∧ ¬ s.onyx.tripped then { s with onyx := { s.onyx with gateOpen := true, gateReopen := false } } else s

/-! ## Pages -/

/-- Start decisions, a page its peer has begun, and the decoding that starts (R122 to R124). -/
def pagesBoundary (B : Nat) (s : State) : State :=
  let (lost, s1) := peerPageStart B (pageDecisions B s)
  topazStep B (if lost then unsync 6 s1 else s1)

/-! ## TIME triggers (R90, R92) -/

/-- The network time at which the line 64 ahead begins, in ns, by the present rate (R90). -/
def timeAhead (s : State) : Int :=
  let gap : Int := ((s.pos.absHigh + 64) * 2 ^ 18 : Nat) - webAbs s
  s.pos.netNow + roundHalfUp (gap * (s.pos.tS.toNat : Int) * 5) (2 ^ 30)

/-- A TIME group at a boundary: its time has passed and it aborts (R92), or its line is now known and it locks (R90). -/
def timeGroup (g : Nat) (s : State) : State :=
  let grp := s.cg.group g
  if grp.st ≠ .armed ∨ grp.trigger ≠ 1 ∨ grp.line.isSome ∨ grp.stopped then s
  else if grp.time.toNat < s.pos.netNow then abortGroup g 2 s
  else if (grp.time.toNat : Int) ≤ timeAhead s then tryLock g (clearCal g (resolve g 64 s))
  else s

/-! ## The boundary -/

/-- What a boundary of line B starts, once the groups of the line have taken effect: `B` on the unrebased count. -/
def boundaryCore (B : Nat) (s : State) : State :=
  let s1 := { s with cg := { s.cg with webStopped := false }, pos := { s.pos with lineTime := BitVec.ofNat 64 s.pos.netNow } }
  let s2 := pagesBoundary B (forAll [0, 1, 2, 3] timeGroup (onyxBoundary (opStateBoundary s1)))
  let s3 := syncStep B (waitingDigests (joinStep B (joinContext B (switchStep B (garnetBoundary B s2)))))
  let s4 := recordsDue (pagesFired B (maxDint s3) (hlinkBoundary B (fireBoundary B s3)))
  waitingDigests s4

/-- The pending index correction is added to the position (R327), and the change of P that T_s measures has it in it (R324). -/
def addCorr (p : Pos) : Pos :=
  if p.corr = 0 then { p with corrOn := false } else
    let p1 := { p with acc := p.acc + BitVec.ofInt 80 p.corr, corr := 0, corrOn := false }
    match p.posHist with
    | [] => p1
    | d :: l =>
      let hist := (d + sx 50 (p1.raw + 2 ^ 50 - p.raw)) :: l
      { p1 with posHist := hist, tS := tS (p.enc 0).window (hist.take (p.enc 0).window).sum }

/-- A LOCKED group begins a new epoch with line B (R93). -/
def startsJob (B : Nat) (s : State) : Bool := (lockedAt B s).any fun g => (s.cg.group g).objs.any fun o => o.kind == 2 && o.target == 0

/-- The line index moves on, the pending index correction is added (R27, R327), and the groups LOCKED for the line take effect (R80). Before a JOB_START
rebases their targets the comparisons of the sample are made (R336). -/
def beginBoundary (s0 : State) : State :=
  let s := if startsJob (s0.pos.absHigh + 1) s0 then fireDue s0 else s0
  let p := addCorr s.pos
  let s1 := { s with pos := { p with high := p.high + 1, absHigh := p.absHigh + 1 } }
  let B := s1.pos.absHigh
  boundaryCore B (commitAt B true (lockedAt B s1) s1)

/-- A group is LOCKED for the line that begins next. -/
def commitDue (s : State) : Bool := !(lockedAt (s.pos.absHigh + 1) s).isEmpty

/-- The next boundary is due and no spit run holds the line clock (R204). -/
def boundaryNow (s : State) : Bool := boundaryDue s.pos && s.fire.spit.isNone

/-- LINE_BOUNDARY (R11, R27): the sample in which the position passes into a new line. -/
def execLineBoundary (samples : Samples) (s : State) : Host.Outcome State Fault Refusal :=
  let s1 := mainUpdate (advance samples s)
  .next (if boundaryNow s1 then beginBoundary s1 else s1)

/-- CG_COMMIT (R80): the boundary of a line Lc, at which its LOCKED groups take effect. -/
def execCgCommit (samples : Samples) (s : State) : Host.Outcome State Fault Refusal :=
  let s1 := mainUpdate (advance samples s)
  .next (if boundaryNow s1 && commitDue s1 then beginBoundary s1 else s1)

/-- A tick of the internal line clock of FIRE_SPIT begins a line (R204). -/
def spitTick (s : State) : State :=
  match s.fire.spit with
  | none => s
  | some j =>
    let p := s.pos
    let s2 := { s with
      pos := { p with acc := p.acc + BitVec.ofNat 80 (2 ^ 48) }
      fire := { s.fire with spit := some { j with tick := p.mono } } }
    spitStep (s2.pos.absHigh + 1) (beginBoundary s2)

/-- The internal line clock is due to tick: 1 ÷ RATE has passed since its last tick (R204). -/
def spitDue (s : State) : Bool := match s.fire.spit with
  | some j => decide (1000000000 ≤ (s.pos.mono - j.tick).toNat * j.rate)
  | none => false

/-- SPIT_LINE (R204). -/
def execSpitLine (samples : Samples) (s : State) : Host.Outcome State Fault Refusal :=
  let s1 := mainUpdate (advance samples s)
  .next (if spitDue s1 then spitTick s1 else s1)

end Sys2Proof.Machine
end

