-- ==== Sys2Proof/Machine/Safe.lean ====
section
/-!
DEFINITION. Entry into SAFE and leaving it (R464 to R467), and the Onyx status command (R474).
-/
namespace Sys2Proof.Machine

/-! ## Entry into SAFE -/

/-- A SYS_RESET_UNIT that waited for a line boundary goes on, since firing has stopped (R71); a change of state that waited has been answered as SAFE
came into force (R70). -/
def answerWaiting (s : State) : State :=
  let s2 := { s with host := { s.host with wdogForce := false } }
  match s2.host.resetStop with
  | some (slot, kind, alt) => respond slot ok (askReset kind alt { s2 with host := { s2.host with resetStop := none } })
  | none => s2

/-- Jobs of the fire timing generator that SAFE ends (R465). -/
def endFireJobs (s : State) : State :=
  let s1 := match s.fire.spit with
    | some j => complete 0x0505 j.tag 0x31 0 0 0 { s with fire := { s.fire with spit := none } }
    | none => s
  match s1.fire.meas with
  | some j => endMeasure j 0x12 (w32 (countIf j.readings (fittedReading s))) 0 0 s1
  | none => s1

/-- OP_STATE becomes SAFE, from any state but BOOT (R66). -/
def enterSafeState (s : State) : State :=
  if s.host.opState = .boot then setOutputs .boot s.pwr.state s else setOpState .safe false s

/-- A SAFE_TRIP that waits is answered (R474), and the restart of Beryl that a WATCHDOG trip owes begins (R466). -/
def afterSafe (s : State) : State :=
  let s1 := match s.onyx.tripSlot with
    | some k => respond k ok { s with onyx := { s.onyx with tripSlot := none } }
    | none => s
  if s1.onyx.restartDue then onyxRestart s1 else s1

/-- HEAD_POWER_ENABLE_REMOVED (R464 steps 7 and 8, R465): 6 µs after a trip the head power enables and SAFE_OK are low, and the unit is in SAFE
and LISTEN. -/
def execHeadPowerEnableRemoved (s : State) : Host.Outcome State Fault Refusal :=
  .next (if !s.onyx.reacting ∨ !s.aonDue s.onyx.tripAt 6000 then s else
    let s1 := { s with onyx := { s.onyx with reacting := false }, host := { s.host with firing := false } }
    let s2 := abortArmed 7 (enterSafeState s1)
    let s3 := enterListen (failSwitch s2)
    let o := s3.onyx
    let s4 := eventAt o.tripLine { ev := .trip, p0 := w32 o.cause, p1 := o.param, p2 := w32 o.tripSeq.toNat } s3
    let s5 := axesSafe (endFireJobs (answerWaiting (deliverAll s4)))
    afterSafe (mainUpdate (forAll [0, 1] lampOff s5)))

/-! ## Causes that are present (R472) -/

/-- ONYX_ACTIVE: what the monitors show (9 to 11), a zone of a fitted head at the limit (4), a head's FAULTS (6), TJ (12), a forbidden motion (13),
HPWR_FB against the own enables (14), and the last self-test (15). The other causes are of an instant. -/
def activeCauses (s : State) : BitVec 17 :=
  let o := s.onyx
  let limit := onyxTLimit (lowestTMax s)
  let hot := limit != 0 && s.fitted.any fun m => (List.range 8).any fun z => decide (limit ≤ (s.zone m z).reading)
  let headFault := s.fitted.any fun m => flag (s.lane m).faults 1 || flag (s.lane m).faults 2
  let moving := [0, 1].any fun a => let x := cell o.abs a {}
    axisMoves a x.pos (lately s.pos.mono x.hist) o
  let stuck := o.hpwrFb && !o.hpwrA && !o.hpwrB && s.aonDue o.fellAt 1000000
  let bits := [(4, hot), (6, headFault), (12, decide (s.pwr.tj ≥ 125)), (13, moving), (14, stuck), (15, !o.selfTestOk)]
  bits.foldl (fun v (c, on) => if on then v ||| (1#17 <<< c) else v) (o.active &&& 0xE00)

/-- ONYX_ACTIVE as it reads. -/
def noteActive (s : State) : State := { s with onyx := { s.onyx with active := activeCauses s } }

/-! ## Commands -/

/-- SAFE_GET_STATUS (R472, R474). -/
def execSafeGetStatus (slot : Fin 16) (s : State) : Host.Outcome State Fault Refusal :=
  .next (command 0x0D00 1 slot (fun s ws => [reservedW ws 0 1, notBoot s])
    (fun _ ws s =>
      let s1 := if flag (wd ws 0) 0 then { s with onyx := { s.onyx with trips := 0 } } else s
      done (s1, okWith (onyxView (onyxTLimit (lowestTMax s)) (noteActive s)))) s)

/-- A hard cause is in ONYX_TRIP_MASK (R461). -/
def Onyx.hard (o : Onyx) : Bool := o.mask.getLsbD 9 || o.mask.getLsbD 10 || o.mask.getLsbD 15

/-- The unit leaves SAFE (R467): READY in LISTEN role, its lanes train from DETECT again. -/
def leaveSafe (s : State) : State :=
  let s1 := setPermission 2 4 true { s with onyx := { s.onyx with tripped := false } }
  let s2 := setOpState .ready false s1
  let s3 := if s2.twin.prsnt then releaseIdle s2 else s2
  mainUpdate (event { ev := .safeExited, p0 := w32 s3.onyx.tripSeq.toNat } s3)

/-- SAFE_EXIT (R467, R474). -/
def execSafeExit (slot : Fin 16) (s : State) : Host.Outcome State Fault Refusal :=
  .next (command 0x0D02 1 slot
    (fun s ws =>
      let o := s.onyx
      [(wn ws 0 != o.tripSeq.toNat, badParam 0), (s.host.opState != .safe, badState),
       (activeCauses s != 0, { status := 0x12, payload := [w32 (activeCauses s).toNat] }), (!o.wdogRunning || o.reacting, badState), (o.hard, hwFault)])
    (fun _ _ s => done (leaveSafe s, ok)) s)

end Sys2Proof.Machine
end

