-- ==== Sys2Proof/Machine/Bar0.lean ====
section
/-!
DEFINITION. What BAR0 reads return (R34, R37): the value of every 32-bit register of the map, each block a list of words from its base.
-/
namespace Sys2Proof.Machine

/-! ## Identity and global registers (R38) -/

/-- GLOBAL_STATE. -/
def globalState (s : State) : Word :=
  w32 (s.host.opState.code + 16 * s.twin.role.code + 256 * s.pwr.state.code + 2 ^ 16 * b2n s.host.mbxReady + 2 ^ 17 * b2n s.host.firing +
    2 ^ 18 * b2n s.onyx.safeOk + 2 ^ 19 * b2n (s.onyx.hpwrA && s.onyx.hpwrB))

/-- BAR_CONFIG at this instant. -/
def barConfig (s : State) : Word :=
  w32 (s.cg.modules + 256 * s.cg.rows + 4096 * b2n s.cg.lpi600 + 65536 * (camsConfigured s).toNat)

/-- The low and high word of LINE_POS at this instant. -/
def linePos (s : State) : Word × Word := (w32 s.pos.raw, w32 (s.pos.raw >>> 32))

/-- 0x0000 to 0x0034; BAR_CONFIG and LINE_POS come from the latch of a GLOBAL_STATE read while it is held (R40). -/
def idBlock (s : State) : List Word :=
  let (bar, lo, hi) := s.host.gsLatch.getD (barConfig s, (linePos s).1, (linePos s).2)
  [0x5216, 0x10] ++ words64 Config.serial.toNat ++ [s.host.fwVersion, globalState s, bar, 0, lo, hi, s.host.heartbeat, 0,
   w32 (s.host.wdogTimeout.toNat + 65536 * b2n s.host.wdogAction), s.host.scratch]

/-! ## Sticky status, MSI-X (R59, R62, R63) -/

/-- STK_SUMMARY. -/
def stkSummary (h : HostIf) : Word := w32 (((List.range 16).filter fun n => n != 0 && wd h.stk n != 0).map fun n => 2 ^ n).sum

/-- STK_FIRST of register n. -/
def stkFirstWord (h : HostIf) (n : Nat) : Word := match cell h.stkFirst n none with
  | some b => w32 (b.toNat + 2 ^ 31)
  | none => 0

/-- 0x1000 to 0x10FC: STK_SUMMARY, then the four words of each subsystem. -/
def stickyBlock (h : HostIf) : List Word :=
  [stkSummary h, 0, 0, 0] ++ (List.range 15).flatMap fun i => [wd h.stk (i + 1), wd h.stkMask (i + 1), stkFirstWord h (i + 1), 0]

/-! ## Doorbell and queue control (R45, R61, R111, R112) -/

/-- Code of a slot's state. -/
def SlotState.code : SlotState → Nat
  | .host => 0 | .device => 1 | .done => 2

/-- The four index registers of a ring (R111). -/
def ringWords (g : Ring) : List Word := [g.prod, g.fetch, g.stored, g.done]

/-- RING_STATUS. -/
def ringStatus (g : Ring) : Word :=
  w32 (b2n g.enabled + 2 * b2n g.halted + 4 * b2n g.inForce + 8 * b2n g.stopped + 256 * g.haltReason)

/-- 0x1_F000 to 0x1_F0EC (R45, R61, R111, R112, R279). -/
def controlBlock (s : State) : List Word :=
  let h := s.host
  let states := (h.slotState.zipIdx.map fun (x, i) => x.code * 4 ^ i).sum
  let dones := ((h.slotState.zipIdx.filter fun x => x.1 == .done).map fun x => 2 ^ x.2).sum
  let cfg := w32 (h.minSeverity.toNat + 256 * h.coalesceCount.toNat + 65536 * h.coalesceTime.toNat)
  [w32 states, 0, 0, w32 dones, w32 (b2n h.respIrqEn), h.lastSeq, 0, 0, h.evqHead, h.evqTail, h.evqLost, cfg] ++ List.replicate 4 0 ++
  h.vecMap ++ List.replicate 8 0 ++ s.pg.rings.flatMap ringWords ++ s.pg.rings.map ringStatus ++ List.replicate 4 0 ++
  [s.insp.stats.prod, s.insp.stats.cons, s.insp.qual.prod, s.insp.qual.cons]

/-! ## Almanac window (R522) -/

/-- The eight words of ring slot ALM_CURSOR + i. -/
def almWindow (p : Pers) (i : Nat) : List Word := (p.alm.lookup ((p.almCursor.toNat + i) % 4096)).getD (List.replicate 8 0)

/-- A word of the Almanac window at 0x2_0000. -/
def almanacRead (off : Nat) (p : Pers) : Word :=
  if off < 0x18 then wd [p.almCursor, p.almNext, almOldest p, p.almSuppressed, p.opMinutes, p.powerCycles] (off / 4)
  else if 0x1000 ≤ off ∧ off < 0x1800 then wd (almWindow p ((off - 0x1000) / 32)) (off / 4 % 8)
  else 0

/-! ## Check-value contexts (R132) -/

/-- The registers of a context. -/
def cvView (c : CvCtx) : List Word :=
  let ctrl := w32 (c.width + 256 * b2n c.refin + 512 * b2n c.refout + 65536 * c.tagBytes + 2 ^ 31 * b2n c.busy.isSome)
  let n := fun (x : Dword) => words64 (c.narrow x.toNat)
  [ctrl, 0] ++ n c.poly ++ n c.init ++ n c.xorout ++ words64 c.tag.toNat ++ [0, 0] ++ n c.value ++ words64 c.result ++
  [0, 0, 0, 0, 0, 0, c.count]

/-! ## Diagnostic views -/

/-- Commit groups (R101), 0x8_2000 to 0x8_2084. -/
def groupsView (s : State) : List Word :=
  let one := fun (g : Group) =>
    [w32 (g.st.code + 8 * b2n g.ownerCal + 256 * g.abortCause + 65536 * g.objs.length), g.handle, w32 g.size, g.digest, g.epoch,
     g.line.getD 0xFFFFFFFF, 0, 0]
  s.cg.groups.flatMap one ++ [s.cg.epochNow, w32 (stagedTotal s)]

/-- Garnet (R170), 0x8_4000 to 0x8_40C0. -/
def garnetView (s : State) : List Word :=
  let c := s.scr
  let (snap, trace) := match c.job with
    | some (.trace _ _ _ _) => (0, 1)
    | some _ => (1, 0)
    | none => (0, 0)
  let bank := fun (x : Slice) => w32 (x.bankPending + 16 * x.bankGroup + 256 * b2n x.bankInForce)
  [w32 (2 ^ s.cg.modules - 1 + 65536 * trace + 131072 * snap), c.doneLine, c.lineEpoch, c.rowOmit, c.deadOmit, c.lateLines, c.deadColDrops, c.deadCols] ++
  List.replicate 8 0 ++ c.slices.map bank ++ c.slices.map (·.esum) ++ [wInt ((c.esumLine : Int) - s.cg.imgKeyEpoch)]

/-- Zone flags of a module (R205). -/
def zoneFlags (zs : List ZoneT) : Word :=
  let mask := fun (f : ZoneT → Bool) => ((zs.zipIdx.filter fun x => f x.1).map fun x => 2 ^ x.2).sum
  w32 (mask (·.warn) + 256 * mask (·.trip) + 65536 * mask (·.stale))

/-- Zone readings of a module, four to a word (R205). -/
def zoneTemps (zs : List ZoneT) : List Word :=
  [0, 1].map fun h => w32 ((List.range 4).map fun n => (cell zs (4 * h + n) {}).reading * 256 ^ n).sum

/-- Fire timing (R205), 0x8_6000 to 0x8_6180. -/
def fireTimingView (s : State) : List Word :=
  let f := s.fire
  fireView s ++ List.replicate 6 0 ++ f.zones.map zoneFlags ++ f.zones.flatMap zoneTemps ++ f.esumF ++ f.esumW ++ [wInt ((f.esumLine : Int) - s.cg.imgKeyEpoch)]

/-- Words of a view that fills a fixed span, the rest reserved. -/
def padTo (n : Nat) (ws : List Word) : List Word := (ws ++ List.replicate n 0).take n

/-- Opal (R284), 0x8_A000 to 0x8_A104. -/
def opalView (s : State) : List Word := s.insp.cams.flatMap (fun c => padTo 16 (camView c)) ++ [s.insp.load, w32 (inspUtil s)]

/-- Web position and time (R353), 0x8_E000 to 0x8_E27C. -/
def positionView (s : State) : List Word :=
  let p := s.pos
  let st := fun (a : AbsPort) => w32 (b2n a.posValid + 2 * b2n a.warn + 4 * a.outcome)
  let tt := fun (t : Timer) => w32 (t.st + 4 * b2n t.base)
  let cmp := fun (c : Cmp) =>
    [w32 (c.st.code + 8 * c.dir + 32 * b2n c.late + 65536 * c.firings.toNat), c.epoch] ++ words64 c.target.toNat
  padTo 64 (posView s ++ [0] ++ p.abs.map st ++ p.abs.flatMap (fun a => words64 a.pos.toNat) ++ p.abs.map (·.errors) ++ p.timers.map tt) ++
  p.cmps.flatMap cmp

/-- The island a diagnostic view belongs to (R527): PIPE, IO or MEM; the others are of blocks that every power state but SLEEP keeps. -/
def viewIsland (off : Nat) : Option Nat :=
  if 0x84000 ≤ off ∧ off < 0x8C000 then some 2
  else if 0x8E000 ≤ off ∧ off < 0x92000 then some 3
  else if 0x93000 ≤ off ∧ off < 0x94000 then some 1
  else none

/-- A view reads 0 while its island is off (R529). -/
def viewOff (off : Nat) (s : State) : Bool := match viewIsland off with
  | some i => !(cell s.pwr.islands i {}).on
  | none => false

/-- A word of the diagnostic views, 0x8_0000 to 0xF_FFFF. -/
def viewRead (off : Nat) (s : State) : Word :=
  if viewOff off s then 0 else
  let at_ := fun (base : Nat) (ws : List Word) => wd ws ((off - base) / 4)
  if off < 0x82000 then 0
  else if off < 0x84000 then at_ 0x82000 (groupsView s)
  else if off < 0x84200 then at_ 0x84000 (garnetView s)
  else if off < 0x86000 then at_ 0x84200 s.scr.trace
  else if off < 0x88000 then at_ 0x86000 (fireTimingView s)
  else if off < 0x8A000 then at_ 0x88000 (s.hl.lanes.flatMap fun l => padTo 16 (laneView l))
  else if off < 0x8C000 then at_ 0x8A000 (opalView s)
  else if off < 0x8E000 then at_ 0x8C000 (calView s)
  else if off < 0x90000 then at_ 0x8E000 (positionView s)
  else if off < 0x91000 then at_ 0x90000 ([0, 1].flatMap fun a => padTo 16 (axisView a s))
  else if off < 0x92000 then at_ 0x91000 (s.lamp.chains.flatMap fun c => padTo 16 (lampView c))
  else if off < 0x93000 then at_ 0x92000 (onyxView (onyxTLimit (lowestTMax s)) (noteActive s))
  else if off < 0x94000 then at_ 0x93000 (memView s.pos.mono s.dram)
  else if off < 0x95000 then at_ 0x94000 (pwrView s)
  else 0

/-! ## The map (R37) -/

/-- The value of the 32-bit word at a BAR0 offset at this instant; reserved space reads 0. -/
def bar0Word (off : Nat) (s : State) : Word :=
  let h := s.host
  if off < 0x1000 then wd (idBlock s) (off / 4)
  else if off < 0x1100 then wd (stickyBlock h) ((off - 0x1000) / 4)
  else if off < 0x1104 then w32 h.pba.toNat
  else if off < 0x1800 then 0
  else if off < 0x1900 then wd h.msixTable ((off - 0x1800) / 4)
  else if off < 0x1904 then w32 h.pba.toNat
  else if off < 0x10000 then 0
  else if off < 0x11000 then wd (cell h.cmdSlots ((off - 0x10000) / 256) []) (off / 4 % 64)
  else if off < 0x12000 then wd (cell h.rspSlots ((off - 0x11000) / 256) []) (off / 4 % 64)
  else if off < 0x12800 then wd (cell h.evq ((off - 0x12000) / 32) []) (off / 4 % 8)
  else if off < 0x1F000 then 0
  else if off < 0x20000 then wd (controlBlock s) ((off - 0x1F000) / 4)
  else if off < 0x30000 then almanacRead (off - 0x20000) s.pers
  else if off < 0x31000 then wd s.pers.prf ((off - 0x30000) / 4)
  else if off < 0x32000 then wd (s.pers.wear.map wearReg ++ setView s.pers) ((off - 0x31000) / 4)
  else if off < 0x40000 then 0
  else if off < 0x44000 then wd (cvView (s.pg.ctx ((off - 0x40000) / 4096))) (off % 4096 / 4)
  else if off < 0x50000 then 0
  else if off < 0x60000 then wd (twinView s) ((off - 0x50000) / 4)
  else if off < 0x80000 then 0
  else if off < 0x100000 then viewRead off s
  else 0

/-! ## 64-bit registers (R13) -/

/-- Offsets of the lower words of the 64-bit registers (R13, R38, R132, R176, R353, R441). -/
def pairOffsets : List Nat :=
  [0x8, 0x20] ++ ([0, 1, 2, 3].flatMap fun k => [0x8, 0x10, 0x18, 0x20, 0x30, 0x38, 0x48].map (cvOffset k)) ++
  [0x50010, 0x84210, 0x8E038, 0x8E040, 0x8E048, 0x8E050, 0x8E078, 0x8E080] ++ ((List.range 24).map fun n => 0x8E108 + 0x10 * n)

/-- The offset is that of a 64-bit register's lower word. -/
def isPair (off : Nat) : Bool := pairOffsets.contains off

/-- What a read puts on the link. -/
def readOut (off : Nat) (v : Word) (s : State) : State := emit (.readData off v) s

/-- A read of a register's lower word (R13): the upper word is latched. While the latch of R40 is held, LINE_POS_LO comes from it and latches
nothing. A register of one word is simply read. -/
def execReg64LowerRead (reg : Fin 0x100000) (s : State) : Host.Outcome State Fault Refusal :=
  let off : Nat := reg
  .next (
    if isPair off && !(off == 0x20 && s.host.gsLatch.isSome) then
      readOut off (bar0Word off s) { s with host := { s.host with latch64 := put s.host.latch64 off (bar0Word (off + 4) s) } }
    else readOut off (bar0Word off s) s)

/-- A read of the upper word of the register whose lower word lies at `reg` (R13, R40): the latched value, whose latch is released, or the
present upper half. -/
def execReg64UpperRead (reg : Fin 0x100000) (s : State) : Host.Outcome State Fault Refusal :=
  let off : Nat := reg
  let drop := fun (s : State) => { s with host := { s.host with latch64 := s.host.latch64.filter fun x => x.1 != off } }
  .next (match off == 0x20, s.host.gsLatch with
    | true, some (_, _, hi) => readOut (off + 4) hi (drop { s with host := { s.host with gsLatch := none } })
    | _, _ => match find? s.host.latch64 off with
      | some v => readOut (off + 4) v (drop s)
      | none => readOut (off + 4) (bar0Word (off + 4) s) s)

/-- GLOBAL_STATE_READ (R40): BAR_CONFIG and LINE_POS are latched at the same clock. -/
def execGlobalStateRead (s : State) : Host.Outcome State Fault Refusal :=
  let (lo, hi) := linePos s
  .next (readOut 0x14 (globalState s) { s with host := { s.host with gsLatch := some (barConfig s, lo, hi) } })

end Sys2Proof.Machine
end

