-- ==== Sys2Proof/Machine/HostBus.lean ====
section
/-!
DEFINITION. The PCI Express side: function-level reset, link loss and training, PERST_N, AER errors (R32, R35, R36, R545), and BAR0 writes
(R13 to R15, R34, R37).
-/
namespace Sys2Proof.Machine

/-! ## Function-level reset and link loss (R35, R36) -/

/-- Adds 16 to a slot number: the number a command whose response an FLR discarded keeps (log 29). -/
def pastSlot (n : Nat) : Nat := n + 16

/-- Commands in DEVICE state (R35): one that has started runs on and its response is discarded, one that has not is dropped. -/
def discardRung (s : State) : State :=
  { s with
    host := { s.host with
      rung := (s.host.rung.filter (·.running)).map fun c => { c with discard := true, slot := pastSlot c.slot }
      opReq := s.host.opReq.map fun (k, t) => (pastSlot k, t)
      resetStop := s.host.resetStop.map fun (k, x) => (pastSlot k, x) }
    onyx := { s.onyx with tripSlot := s.onyx.tripSlot.map pastSlot }
    insp := { s.insp with xfer := s.insp.xfer.map fun j => { j with slot := pastSlot j.slot } }
    pg := { s.pg with resets := s.pg.resets.map fun (k, r) => (pastSlot k, r) }
    pers := { s.pers with almQueue := s.pers.almQueue.map fun r => { r with host := r.host.map pastSlot } }
    pwr := { s.pwr with target := s.pwr.target.map fun (p, k, w) => (p, k.map pastSlot, w) } }

/-- The PCI Express function, the MSI-X table, slot ownership and the event queue's indices as reset; pending vector 2 and 3 messages stay
(R35, R59). -/
def resetFunction (s : State) : State :=
  let s1 := discardRung s
  { s1 with host := { s1.host with
    busMaster := false, d3hot := false, maxPayload := 128, maxRead := 512, msixEnable := false, msixFuncMask := false, msixTable := Config.msixTableReset, pba := s1.host.pba &&& 0xC
    slotState := List.replicate 16 .host, evqHead := 0, evqTail := 0, unsig := List.replicate 16 []
    outst := s1.host.outst.filter fun o => o.evIdx.isNone } }

/-- A CG_STAGE fetch stops (R99): the object is not staged and the group keeps its state. -/
def stopStage (g : Nat) (s : State) : State :=
  match (s.cg.group g).stage with
  | some j => complete 0x0201 j.tag 0x30 0 0 0 (setGroup g (fun x => { x with stage := none }) s)
  | none => s

/-- A firmware image fetch stops. -/
def stopFwStage (s : State) : State :=
  match s.host.fwStage with
  | some (tag, _, _) => complete 0x0104 tag 0x30 0 0 0 { s with host := { s.host with fwStage := none } }
  | none => s

/-- A boot load stops. -/
def stopBootLoad (s : State) : State :=
  match s.host.bootLoad with
  | some (tag, _, _) => complete 0x0F05 tag 0x30 0 0 0 { s with host := { s.host with bootLoad := none } }
  | none => s

/-- A row-state transfer stops: a load being fetched, or a save being written. -/
def stopRowState (s : State) : State :=
  match s.scr.job with
  | some (.load _ none _ _) => rowStateFetched none s
  | some (.save tag _ _ _ at_ _ parts) =>
    if parts.length < (barOf (objsAt at_ s)).modules then s
    else complete 0x0401 tag 0x30 0 0 0 { s with scr := { s.scr with job := none } }
  | _ => s

/-- Calibration results being written stop. -/
def stopSending (s : State) : State :=
  s.cal.sending.foldl (fun s x => complete 0x0803 x.1 0x30 0 0 0 s) { s with cal := { s.cal with sending := [] } }

/-- Resistance readings being written stop. -/
def stopReadings (s : State) : State :=
  match s.fire.meas with
  | some j => if measureFull j s then endMeasure j 0x30 0 0 0 s else s
  | none => s

/-- Blocks being fetched at print time: their fetch fails (R124). -/
def stopRefetches (s : State) : State :=
  s.pg.pages.foldl (fun s p => p.blocks.zipIdx.foldl (fun s x => if x.1.dec = .refetching then blankBlock p x.2 x.1 s else s) s) s

/-- The DMA engines stop (R35, R99, R135): a command whose transfer it was completes with HW_FAULT; a computation stops and completes with
the bytes it has processed. -/
def stopDma (s : State) : State :=
  let s1 := forAll [0, 1, 2, 3] stopStage s
  let s2 : State := { s1 with pg := { s1.pg with
    descReq := [], cv := s1.pg.cv.map fun c => { c with stopped := c.stopped || c.busy.isSome } } }
  stopRefetches (stopReadings (stopSending (stopRowState (stopBootLoad (stopFwStage s2)))))

/-- What an FLR and a link loss share (R35, R36). -/
def functionReset (s : State) : State := evqRoom (stopDma (resetFunction s))

/-- FLR (R35, R65): FLR_SEEN and event 0x0104. -/
def execFlr (s : State) : Host.Outcome State Fault Refusal :=
  .next (stickEvent .flrSeen { ev := .flrDone } (functionReset s))

/-- The link goes down (R36): as for an FLR, and PCIE_LINK_DOWN sets. -/
def linkLost (s : State) : State :=
  let s1 := stickEvent .flrSeen { ev := .flrDone } (functionReset s)
  stickRec .pcieLinkDown { s1 with host := { s1.host with linkUp := false, linkInL2 := false } }

/-- PCIE_LINK_DOWN. -/
def execPcieLinkDown (s : State) : Host.Outcome State Fault Refusal := .next (if s.host.linkUp then linkLost s else s)

/-- PCIE_LINK_TRAINED (R32, R36) at a generation and width; below Gen4 x4 PCIE_LINK_DEGRADED sets. While PERST_N is low the controller is
held in reset (R545), and training begins only once the IO island is ready and the subsystem IDs are loaded (R33, R546). -/
def execPcieLinkTrained (gen : BitVec 4) (width : BitVec 5) (s : State) : Host.Outcome State Fault Refusal :=
  .next (if s.host.perstLow ∨ s.pwr.inReset ∨ !(cell s.pwr.islands 3 {}).on ∨ !s.host.idsLoaded then s else
    let s1 := { s with host := { s.host with linkUp := true, linkInL2 := false, linkGen := gen, linkWidth := width } }
    if gen.toNat < 4 ∨ width.toNat < 4 then stickRec .pcieLinkDegraded s1 else s1)

/-- PCIE_UNCORR (R65). -/
def execPcieUncorr (s : State) : Host.Outcome State Fault Refusal := .next (stickRec .pcieUncorr s)

/-- PCIE_CORR (R65). -/
def execPcieCorr (s : State) : Host.Outcome State Fault Refusal := .next (stickRec .pcieCorr s)

/-- PERST_N (R534, R536, R545): low, the controller is held in reset as for a link loss; released, WAKE_N rises, and in SLEEP the release
wakes the unit. -/
def execPerstN (low : Bool) (s : State) : Host.Outcome State Fault Refusal :=
  let s1 : State := { s with host := { s.host with perstLow := low } }
  .next (
    if low then (if s.host.linkUp ∧ s.pwr.state ≠ .sleep then linkLost s1 else s1)
    else
      let s2 : State := { s1 with pwr := { s1.pwr with wakeN := false } }
      if s.host.perstLow ∧ s.pwr.state = .sleep then wake 4 s2 else s2)

/-! ## Plain registers (R14, R15, R38, R45, R61, R63, R111, R132, R279, R522) -/

/-- Writes the host interface's registers that only hold a value. -/
def setHost (f : HostIf → HostIf) (s : State) : State := { s with host := f s.host }

/-- Writable bits of a word of an MSI-X table entry: address, upper address, data, vector control. -/
def msixMask (i : Nat) : Word := if i = 0 then 0xFFFFFFFC else if i = 3 then 1 else 0xFFFFFFFF

/-- A write of a word of the MSI-X table; messages that are open now are sent (R59). -/
def msixWrite (i : Nat) (v : Word) (s : State) : State :=
  let s1 := setHost (fun h => { h with msixTable := upd h.msixTable i fun _ => v &&& msixMask (i % 4) }) s
  s1.withLog s1.log.flush

/-- A write of a register of the sticky block, at 0x10 × n + reg: W1C, mask, or read-only. -/
def stickyWrite (n reg : Nat) (v : Word) (s : State) : State :=
  if n = 0 then s
  else if reg = 0 then s.withLog (s.log.stkClear n v)
  else if reg = 4 then setHost (fun h => { h with stkMask := upd h.stkMask n fun _ => v }) s
  else s

/-- A write of a register of the doorbell and queue control block. -/
def controlWrite (reg : Nat) (v : Word) (s : State) : State :=
  if reg = 0x04 then doorbell (v.setWidth 16) s
  else if reg = 0x08 then respAck (v.setWidth 16) s
  else if reg = 0x10 then setHost (fun h => { h with respIrqEn := flag v 0 }) s
  else if reg = 0x24 then evqTail v s
  else if reg = 0x28 then setHost (fun h => { h with evqLost := v }) s
  else if reg = 0x2C then setHost (fun h => { h with
    minSeverity := v.setWidth 3, coalesceCount := (v >>> 8).setWidth 8, coalesceTime := (v >>> 16).setWidth 16 }) s
  else if 0x40 ≤ reg ∧ reg < 0x60 then setHost (fun h => { h with vecMap := upd h.vecMap ((reg - 0x40) / 4) fun _ => v &&& 0x3FF }) s
  else if 0x80 ≤ reg ∧ reg < 0xC0 ∧ reg % 16 = 0 then ringProd ((reg - 0x80) / 16) v s
  else if reg = 0xE4 then { s with insp := { s.insp with stats := { s.insp.stats with cons := v } } }
  else if reg = 0xEC then { s with insp := { s.insp with qual := { s.insp.qual with cons := v } } }
  else s

/-- CV_CTRL (R132). -/
def CvCtx.control (v : Word) (c : CvCtx) : CvCtx :=
  { c with width := fld v 0 7, refin := flag v 8, refout := flag v 9, tagBytes := fld v 16 4 }

/-- A write of a one-word register of context k. -/
def cvRegWrite (k reg : Nat) (v : Word) (s : State) : State :=
  if reg = 0x00 then cvWrite k false (CvCtx.control v) s
  else if reg = 0x28 then cvWrite k true CvCtx.start s
  else if reg = 0x40 then cvWrite k true (fun c => c.feed (bytesLE 4 v.toNat)) s
  else if reg = 0x50 then cvWrite k true (fun c => c.feed [v.setWidth 8]) s
  else cvWrite k false id s

/-! ## 64-bit registers (R13) -/

/-- The 64-bit fields of a context that are written, by offset (R132); none: read-only. -/
def CvCtx.pairAt (c : CvCtx) (reg : Nat) : Option (Dword × (Dword → CvCtx)) :=
  if reg = 0x08 then some (c.poly, fun v => { c with poly := c.put c.poly v })
  else if reg = 0x10 then some (c.init, fun v => { c with init := c.put c.init v })
  else if reg = 0x18 then some (c.xorout, fun v => { c with xorout := c.put c.xorout v })
  else if reg = 0x20 then some (c.tag, fun v => { c with tag := v })
  else if reg = 0x30 then some (c.value, fun v => if c.disabled then c else { c with value := c.put c.value v })
  else none

/-- The offset lies in the check-value contexts. -/
def inCv (off : Nat) : Bool := decide (0x40000 ≤ off ∧ off < 0x44000)

/-- The context and register of an offset among the contexts. -/
def cvPlace (off : Nat) : Nat × Nat := ((off - 0x40000) / 4096, off % 4096)

/-- A write of the lower word of the 64-bit register at `off`: held until the upper word is written, replacing a held value. Read-only
registers ignore it; a BUSY context discards it with CV_CONFLICT (R133). -/
def lowerWrite (off : Nat) (v : Word) (s : State) : State :=
  if !inCv off then s else
    let (k, reg) := cvPlace off
    let c := s.pg.ctx k
    if c.busy.isSome then stickRec .cvConflict s
    else if reg = 0x48 then (if c.disabled then s else setHost (fun h => { h with woLow := put h.woLow off v }) s)
    else if (c.pairAt reg).isSome then setHost (fun h => { h with held64 := put h.held64 off v }) s
    else s

/-- A write of the upper word: it takes effect with the held lower word, or with the lower half as it stands. -/
def upperWrite (off : Nat) (v : Word) (s : State) : State :=
  if !inCv off then s else
    let (k, reg) := cvPlace off
    let c := s.pg.ctx k
    if c.busy.isSome then stickRec .cvConflict s
    else if reg = 0x48 then cvData64 k v s
    else match c.pairAt reg with
      | none => s
      | some (old, set_) =>
        let lo : Word := (find? s.host.held64 off).getD (old.setWidth 32)
        setHost (fun h => { h with held64 := h.held64.filter fun x => x.1 != off }) (setCtx k (fun _ => set_ (v ++ lo)) s)

/-! ## BAR0 writes (R34, R37) -/

/-- A write of the 32-bit word at an offset outside the command slots, under its register's access code: read-only and reserved space
ignores it. -/
def bar0Write (off : Nat) (v : Word) (s : State) : State :=
  if isPair off then lowerWrite off v s
  else if 4 ≤ off ∧ isPair (off - 4) then upperWrite (off - 4) v s
  else if off = 0x2C then wdogRestart s
  else if off = 0x30 then hostWdogCfg v s
  else if off = 0x34 then setHost (fun h => { h with scratch := v }) s
  else if 0x1000 ≤ off ∧ off < 0x1100 then stickyWrite ((off - 0x1000) / 16) (off % 16) v s
  else if 0x1800 ≤ off ∧ off < 0x1900 then msixWrite ((off - 0x1800) / 4) v s
  else if 0x1F000 ≤ off ∧ off < 0x20000 then controlWrite (off - 0x1F000) v s
  else if off = 0x20000 then { s with pers := { s.pers with almCursor := v } }
  else if 0x30000 ≤ off ∧ off < 0x31000 then prfWrite ((off - 0x30000) / 4) v s
  else if inCv off then cvRegWrite (cvPlace off).1 (cvPlace off).2 v s
  else s

/-- Stores the enabled bytes of a write into one command slot, `i` being the first one's place in it. -/
def patchEnabled (i : Int) (bytes : List (Option Byte)) (ws : List Word) : List Word :=
  bytesToWords ((wordBytes ws).zipIdx.map fun (b, j) =>
    if i ≤ j ∧ (j : Int) < i + bytes.length then ((cell bytes (j - i).toNat none).getD b) else b) 0 ws.length

/-- A write to the command slots, of any size and byte enables (R34, R47). -/
def slotsWrite (off : Nat) (bytes : List (Option Byte)) (s : State) : State :=
  forAll (List.range 16) (fun k s =>
    let i : Int := (off : Int) - (0x10000 + 256 * k : Nat)
    if i ≥ 256 ∨ i + bytes.length ≤ 0 then s
    else if cell s.host.slotState k .host = .device then stickRec .slotWriteWhileOwned s
    else setHost (fun h => { h with cmdSlots := upd h.cmdSlots k (patchEnabled i bytes) }) s) s

/-- REGISTER_WRITE (R14, R15, R34, R37): a BAR0 write at an offset, each byte none where its byte enable is clear. -/
def execRegisterWrite (off : Fin 0x100000) (bytes : List (Option Byte)) (s : State) : Host.Outcome State Fault Refusal :=
  let o : Nat := off
  let bs := bytes.filterMap id
  let word := fun i => w32 (le32 bs i)
  .next (
    if 0x10000 ≤ o ∧ o < 0x11000 then slotsWrite o bytes s
    else if bs.length ≠ bytes.length ∨ !(bytes.length == 4 || bytes.length == 8) ∨ o % bytes.length ≠ 0 then stickRec .barPartialWrite s
    else if bytes.length = 4 then bar0Write o (word 0) s
    else bar0Write (o + 4) (word 4) (bar0Write o (word 0) s))

/-- REG64_LOWER_WRITE (R13): a write of the word at `reg`, the lower word of a 64-bit register; no effect where no such register lies there. -/
def execReg64LowerWrite (reg : Fin 0x100000) (v : Word) (s : State) : Host.Outcome State Fault Refusal :=
  .next (if isPair reg then lowerWrite reg v s else s)

/-- REG64_UPPER_WRITE (R13): a write of the upper word of the 64-bit register at `reg`. -/
def execReg64UpperWrite (reg : Fin 0x100000) (v : Word) (s : State) : Host.Outcome State Fault Refusal :=
  .next (if isPair reg then upperWrite reg v s else s)

end Sys2Proof.Machine
end

