-- ==== Sys2Proof/Machine/Dispatch.lean ====
section
/-!
DEFINITION. One arm per command: a direct call of the command's meaning.
-/
namespace Sys2Proof.Machine

def exec (i : Instr) (s : State) : Host.Outcome State Fault Refusal :=
  match i with
  | .lineBoundary samples => Sys2Proof.Machine.execLineBoundary samples s
  | .reg64LowerRead reg => Sys2Proof.Machine.execReg64LowerRead reg s
  | .reg64UpperRead reg => Sys2Proof.Machine.execReg64UpperRead reg s
  | .reg64LowerWrite reg v => Sys2Proof.Machine.execReg64LowerWrite reg v s
  | .reg64UpperWrite reg v => Sys2Proof.Machine.execReg64UpperWrite reg v s
  | .globalStateRead => Sys2Proof.Machine.execGlobalStateRead s
  | .registerWrite off bytes => Sys2Proof.Machine.execRegisterWrite off bytes s
  | .flr => Sys2Proof.Machine.execFlr s
  | .pcieLinkDown => Sys2Proof.Machine.execPcieLinkDown s
  | .pcieLinkTrained gen width => Sys2Proof.Machine.execPcieLinkTrained gen width s
  | .pcieUncorr => Sys2Proof.Machine.execPcieUncorr s
  | .pcieCorr => Sys2Proof.Machine.execPcieCorr s
  | .busMasterEnable => Sys2Proof.Machine.execBusMasterEnable s
  | .msixUnmask enable funcMask unmask => Sys2Proof.Machine.execMsixUnmask enable funcMask unmask s
  | .hostAlive => Sys2Proof.Machine.execHostAlive s
  | .hostWdogCfg v => Sys2Proof.Machine.execHostWdogCfg v s
  | .hostWdogExpired => Sys2Proof.Machine.execHostWdogExpired s
  | .commandSlotWrite slot off bytes => Sys2Proof.Machine.execCommandSlotWrite slot off bytes s
  | .doorbell mask => Sys2Proof.Machine.execDoorbell mask s
  | .respAck mask => Sys2Proof.Machine.execRespAck mask s
  | .evqTail v => Sys2Proof.Machine.execEvqTail v s
  | .coalesceTimeExpiry vector => Sys2Proof.Machine.execCoalesceTimeExpiry vector s
  | .stkClear n v setNow => Sys2Proof.Machine.execStkClear n v setNow s
  | .berylHeartbeat => Sys2Proof.Machine.execBerylHeartbeat s
  | .berylRestart => Sys2Proof.Machine.execBerylRestart s
  | .berylRestartDone => Sys2Proof.Machine.execBerylRestartDone s
  | .sysEcho slot => Sys2Proof.Machine.execSysEcho slot s
  | .sysGetInfo slot => Sys2Proof.Machine.execSysGetInfo slot s
  | .sysSetOpState slot => Sys2Proof.Machine.execSysSetOpState slot s
  | .sysResetUnit slot => Sys2Proof.Machine.execSysResetUnit slot s
  | .sysResetBegin => Sys2Proof.Machine.execSysResetBegin s
  | .sysFwStage slot => Sys2Proof.Machine.execSysFwStage slot s
  | .sysFwStageDone image writeOk => Sys2Proof.Machine.execSysFwStageDone image writeOk s
  | .cgOpen slot => Sys2Proof.Machine.execCgOpen slot s
  | .cgStage slot => Sys2Proof.Machine.execCgStage slot s
  | .cgStageDone group bytes => Sys2Proof.Machine.execCgStageDone group bytes s
  | .cgValidate slot => Sys2Proof.Machine.execCgValidate slot s
  | .cgValidateDone group => Sys2Proof.Machine.execCgValidateDone group s
  | .cgArm slot => Sys2Proof.Machine.execCgArm slot s
  | .cgAbort slot => Sys2Proof.Machine.execCgAbort slot s
  | .cgRelease slot => Sys2Proof.Machine.execCgRelease slot s
  | .cgLockLine group => Sys2Proof.Machine.execCgLockLine group s
  | .cgCommit samples => Sys2Proof.Machine.execCgCommit samples s
  | .webStopped => Sys2Proof.Machine.execWebStopped s
  | .cgLoadsComplete group => Sys2Proof.Machine.execCgLoadsComplete group s
  | .cgTimeReachedStopped group => Sys2Proof.Machine.execCgTimeReachedStopped group s
  | .cgDecisionDeadline group => Sys2Proof.Machine.execCgDecisionDeadline group s
  | .ringProd ring v => Sys2Proof.Machine.execRingProd ring v s
  | .fetchResume => Sys2Proof.Machine.execFetchResume s
  | .descFetchDone ring desc table => Sys2Proof.Machine.execDescFetchDone ring desc table s
  | .blockFetchDone ring index entry bytes => Sys2Proof.Machine.execBlockFetchDone ring index entry bytes s
  | .dmaError ring index entry page => Sys2Proof.Machine.execDmaError ring index entry page s
  | .topazBlockDecoded page entry poisoned => Sys2Proof.Machine.execTopazBlockDecoded page entry poisoned s
  | .topazRefetchDone page entry bytes => Sys2Proof.Machine.execTopazRefetchDone page entry bytes s
  | .pdRingConfig slot => Sys2Proof.Machine.execPdRingConfig slot s
  | .pdRingReset slot => Sys2Proof.Machine.execPdRingReset slot s
  | .pdPageRelease slot => Sys2Proof.Machine.execPdPageRelease slot s
  | .pdReprint slot => Sys2Proof.Machine.execPdReprint slot s
  | .pdStoreInfo slot => Sys2Proof.Machine.execPdStoreInfo slot s
  | .cvCompute slot => Sys2Proof.Machine.execCvCompute slot s
  | .cvComputeDone ctx bytes => Sys2Proof.Machine.execCvComputeDone ctx bytes s
  | .cvStart ctx => Sys2Proof.Machine.execCvStart ctx s
  | .cvData ctx v => Sys2Proof.Machine.execCvData ctx v s
  | .cvData64 ctx upper => Sys2Proof.Machine.execCvData64 ctx upper s
  | .cvData8 ctx v => Sys2Proof.Machine.execCvData8 ctx v s
  | .cvValueWrite ctx v => Sys2Proof.Machine.execCvValueWrite ctx v s
  | .sliceLineStart mod => Sys2Proof.Machine.execSliceLineStart mod s
  | .sliceLineDone mod => Sys2Proof.Machine.execSliceLineDone mod s
  | .curveBankLoad mod => Sys2Proof.Machine.execCurveBankLoad mod s
  | .curveBankLoaded mod => Sys2Proof.Machine.execCurveBankLoaded mod s
  | .scrGetStatus slot => Sys2Proof.Machine.execScrGetStatus slot s
  | .scrRowStateSave slot => Sys2Proof.Machine.execScrRowStateSave slot s
  | .scrRowStateSaveDone writeOk => Sys2Proof.Machine.execScrRowStateSaveDone writeOk s
  | .scrRowStateLoad slot => Sys2Proof.Machine.execScrRowStateLoad slot s
  | .scrRowStateFetched image => Sys2Proof.Machine.execScrRowStateFetched image s
  | .scrTrace slot => Sys2Proof.Machine.execScrTrace slot s
  | .trainCommit mod fire row grp tx samples => Sys2Proof.Machine.execTrainCommit mod fire row grp tx samples s
  | .trainPostponedStart mod fire row grp tx samples => Sys2Proof.Machine.execTrainPostponedStart mod fire row grp tx samples s
  | .trainAbandon mod fire row grp => Sys2Proof.Machine.execTrainAbandon mod fire row grp s
  | .prepMarker mod fire row grp tx samples => Sys2Proof.Machine.execPrepMarker mod fire row grp tx samples s
  | .tempStale mod => Sys2Proof.Machine.execTempStale mod s
  | .fireGetStatus slot => Sys2Proof.Machine.execFireGetStatus slot s
  | .fireConfig slot => Sys2Proof.Machine.execFireConfig slot s
  | .fireResume slot => Sys2Proof.Machine.execFireResume slot s
  | .fireProbe slot => Sys2Proof.Machine.execFireProbe slot s
  | .fireMeasureR slot => Sys2Proof.Machine.execFireMeasureR slot s
  | .fireMeasureRDone written => Sys2Proof.Machine.execFireMeasureRDone written s
  | .fireSpit slot => Sys2Proof.Machine.execFireSpit slot s
  | .spitLine samples => Sys2Proof.Machine.execSpitLine samples s
  | .receiverDetect lane load signal => Sys2Proof.Machine.execReceiverDetect lane load signal s
  | .trainingSetRx lane data check => Sys2Proof.Machine.execTrainingSetRx lane data check s
  | .laneStateTimeout lane => Sys2Proof.Machine.execLaneStateTimeout lane s
  | .capBlockRx lane words => Sys2Proof.Machine.execCapBlockRx lane words s
  | .echoSend lane => Sys2Proof.Machine.execEchoSend lane s
  | .echoReturnRx lane echo => Sys2Proof.Machine.execEchoReturnRx lane echo s
  | .laneRecovery lane lossOfSignal errors => Sys2Proof.Machine.execLaneRecovery lane lossOfSignal errors s
  | .statusFrameTimeout lane => Sys2Proof.Machine.execStatusFrameTimeout lane s
  | .statusFrameRx lane words crc => Sys2Proof.Machine.execStatusFrameRx lane words crc s
  | .blankRepeat lane => Sys2Proof.Machine.execBlankRepeat lane s
  | .hlGetStatus slot => Sys2Proof.Machine.execHlGetStatus slot s
  | .hlLaneConfig slot => Sys2Proof.Machine.execHlLaneConfig slot s
  | .hlRetrain slot => Sys2Proof.Machine.execHlRetrain slot s
  | .hlGetCaps slot => Sys2Proof.Machine.execHlGetCaps slot s
  | .comparatorFire cmp samples => Sys2Proof.Machine.execComparatorFire cmp samples s
  | .csiLineRx camera vc early packets => Sys2Proof.Machine.execCsiLineRx camera vc early packets s
  | .cameraLineTimeout camera => Sys2Proof.Machine.execCameraLineTimeout camera s
  | .opalFrameStart => Sys2Proof.Machine.execOpalFrameStart s
  | .opalFrameDone => Sys2Proof.Machine.execOpalFrameDone s
  | .i2cWriteDone camera ack => Sys2Proof.Machine.execI2cWriteDone camera ack s
  | .inspGetStatus slot => Sys2Proof.Machine.execInspGetStatus slot s
  | .inspRingConfig slot => Sys2Proof.Machine.execInspRingConfig slot s
  | .inspSetExposure slot => Sys2Proof.Machine.execInspSetExposure slot s
  | .inspI2cXfer slot reason bytes => Sys2Proof.Machine.execInspI2cXfer slot reason bytes s
  | .inspCapture slot => Sys2Proof.Machine.execInspCapture slot s
  | .calSolveStart => Sys2Proof.Machine.execCalSolveStart s
  | .calSolveDone => Sys2Proof.Machine.execCalSolveDone s
  | .calAutoCommit => Sys2Proof.Machine.execCalAutoCommit s
  | .calGetStatus slot => Sys2Proof.Machine.execCalGetStatus slot s
  | .calConfig slot => Sys2Proof.Machine.execCalConfig slot s
  | .calRun slot => Sys2Proof.Machine.execCalRun slot s
  | .calExport slot => Sys2Proof.Machine.execCalExport slot s
  | .calExportDone written => Sys2Proof.Machine.execCalExportDone written s
  | .calDiscard slot => Sys2Proof.Machine.execCalDiscard slot s
  | .calClear slot => Sys2Proof.Machine.execCalClear slot s
  | .encSignalFault enc => Sys2Proof.Machine.execEncSignalFault enc s
  | .encRecovered enc => Sys2Proof.Machine.execEncRecovered enc s
  | .overfreq enc => Sys2Proof.Machine.execOverfreq enc s
  | .quadErr enc => Sys2Proof.Machine.execQuadErr enc s
  | .direction enc samples => Sys2Proof.Machine.execDirection enc samples s
  | .encIndex enc samples => Sys2Proof.Machine.execEncIndex enc samples s
  | .indexMissing enc samples => Sys2Proof.Machine.execIndexMissing enc samples s
  | .encAgreeWindow samples => Sys2Proof.Machine.execEncAgreeWindow samples s
  | .ptpSyncRx domain port hdr followUp t1 jitter => Sys2Proof.Machine.execPtpSyncRx domain port hdr followUp t1 jitter s
  | .ptpDelayReqTx seq jitter => Sys2Proof.Machine.execPtpDelayReqTx seq jitter s
  | .ptpDelayRespRx domain source seq t4 => Sys2Proof.Machine.execPtpDelayRespRx domain source seq t4 s
  | .ptpAnnounceRx domain p1 cls acc var p2 gm steps source => Sys2Proof.Machine.execPtpAnnounceRx domain p1 cls acc var p2 gm steps source s
  | .ptpMasterLost => Sys2Proof.Machine.execPtpMasterLost s
  | .holdoverExpired => Sys2Proof.Machine.execHoldoverExpired s
  | .timerFire timer samples => Sys2Proof.Machine.execTimerFire timer samples s
  | .absReadDone port started raw err crcRx => Sys2Proof.Machine.execAbsReadDone port started raw err crcRx s
  | .posGetStatus slot => Sys2Proof.Machine.execPosGetStatus slot s
  | .posEncConfig slot => Sys2Proof.Machine.execPosEncConfig slot s
  | .posEncoConfig slot => Sys2Proof.Machine.execPosEncoConfig slot s
  | .posCmpArm slot => Sys2Proof.Machine.execPosCmpArm slot s
  | .posCmpDisarm slot => Sys2Proof.Machine.execPosCmpDisarm slot s
  | .posCaptureRead slot => Sys2Proof.Machine.execPosCaptureRead slot s
  | .posAbsConfig slot => Sys2Proof.Machine.execPosAbsConfig slot s
  | .timeConfig slot => Sys2Proof.Machine.execTimeConfig slot s
  | .timeSet slot => Sys2Proof.Machine.execTimeSet slot s
  | .timeTimerArm slot => Sys2Proof.Machine.execTimeTimerArm slot s
  | .plannerTick => Sys2Proof.Machine.execPlannerTick s
  | .axHoldCurrent axis => Sys2Proof.Machine.execAxHoldCurrent axis s
  | .chopOnEnd axis b => Sys2Proof.Machine.execChopOnEnd axis b s
  | .chopOffEnd axis b => Sys2Proof.Machine.execChopOffEnd axis b s
  | .limitSwitchEdge axis hi level clocks => Sys2Proof.Machine.execLimitSwitchEdge axis hi level clocks s
  | .homeEdge axis level clocks => Sys2Proof.Machine.execHomeEdge axis level clocks s
  | .capSwEdge level clocks => Sys2Proof.Machine.execCapSwEdge level clocks s
  | .axGetStatus slot => Sys2Proof.Machine.execAxGetStatus slot s
  | .axConfig slot => Sys2Proof.Machine.execAxConfig slot s
  | .axMove slot => Sys2Proof.Machine.execAxMove slot s
  | .axStop slot => Sys2Proof.Machine.execAxStop slot s
  | .axHome slot => Sys2Proof.Machine.execAxHome slot s
  | .axSeq slot => Sys2Proof.Machine.execAxSeq slot s
  | .axSeqConfig slot => Sys2Proof.Machine.execAxSeqConfig slot s
  | .axClearFault slot => Sys2Proof.Machine.execAxClearFault slot s
  | .lampStatusFrame chain => Sys2Proof.Machine.execLampStatusFrame chain s
  | .lanternReturnRx chain h seen statuses => Sys2Proof.Machine.execLanternReturnRx chain h seen statuses s
  | .lanternReturnTimeout chain => Sys2Proof.Machine.execLanternReturnTimeout chain s
  | .lampGetStatus slot => Sys2Proof.Machine.execLampGetStatus slot s
  | .lampDiagNow slot => Sys2Proof.Machine.execLampDiagNow slot s
  | .lampReadDrivers slot => Sys2Proof.Machine.execLampReadDrivers slot s
  | .vigilFrameTx samples => Sys2Proof.Machine.execVigilFrameTx samples s
  | .vigilFrameRx words crc => Sys2Proof.Machine.execVigilFrameRx words crc s
  | .vigilPeerLost => Sys2Proof.Machine.execVigilPeerLost s
  | .vigilGraceExpiry => Sys2Proof.Machine.execVigilGraceExpiry s
  | .vigilPositionTx => Sys2Proof.Machine.execVigilPositionTx s
  | .arm seq epoch line digest => Sys2Proof.Machine.execArm seq epoch line digest s
  | .decision seq epoch line lock cause => Sys2Proof.Machine.execDecision seq epoch line lock cause s
  | .pageStart seq epoch line number => Sys2Proof.Machine.execPageStart seq epoch line number s
  | .switch seq epoch line claim => Sys2Proof.Machine.execSwitch seq epoch line claim s
  | .position seq epoch position samples => Sys2Proof.Machine.execPosition seq epoch position samples s
  | .joinA seq epoch line jobId => Sys2Proof.Machine.execJoinA seq epoch line jobId s
  | .joinB seq number first pages => Sys2Proof.Machine.execJoinB seq number first pages s
  | .serial seq serial => Sys2Proof.Machine.execSerial seq serial s
  | .prsntChange low => Sys2Proof.Machine.execPrsntChange low s
  | .twinGetStatus slot => Sys2Proof.Machine.execTwinGetStatus slot s
  | .twinSetRole slot => Sys2Proof.Machine.execTwinSetRole slot s
  | .twinSwitchover slot => Sys2Proof.Machine.execTwinSwitchover slot s
  | .twinJoin slot => Sys2Proof.Machine.execTwinJoin slot s
  | .twinConfig slot => Sys2Proof.Machine.execTwinConfig slot s
  | .twinWakePeer slot => Sys2Proof.Machine.execTwinWakePeer slot s
  | .onyxTick edges0 edges1 encPresent capSw hpwrFb present failedItem => Sys2Proof.Machine.execOnyxTick edges0 edges1 encPresent capSw hpwrFb present failedItem s
  | .onyxEnvelopeLoss enc => Sys2Proof.Machine.execOnyxEnvelopeLoss enc s
  | .onyxGateClose => Sys2Proof.Machine.execOnyxGateClose s
  | .onyxEnergySum mod fire eG eFW => Sys2Proof.Machine.execOnyxEnergySum mod fire eG eFW s
  | .onyxLampOff => Sys2Proof.Machine.execOnyxLampOff s
  | .onyxAxisRestore axis => Sys2Proof.Machine.execOnyxAxisRestore axis s
  | .onyxWdogKick value interval => Sys2Proof.Machine.execOnyxWdogKick value interval s
  | .onyxWdogTimeout => Sys2Proof.Machine.execOnyxWdogTimeout s
  | .onyxClockCheck count => Sys2Proof.Machine.execOnyxClockCheck count s
  | .supplyFault rail => Sys2Proof.Machine.execSupplyFault rail s
  | .dieTempTrip tj => Sys2Proof.Machine.execDieTempTrip tj s
  | .hpwrStuck => Sys2Proof.Machine.execHpwrStuck s
  | .safeGetStatus slot => Sys2Proof.Machine.execSafeGetStatus slot s
  | .safeConfig slot => Sys2Proof.Machine.execSafeConfig slot s
  | .safeExit slot => Sys2Proof.Machine.execSafeExit slot s
  | .safeTrip slot => Sys2Proof.Machine.execSafeTrip slot s
  | .dramRefresh rank0 rank1 => Sys2Proof.Machine.execDramRefresh rank0 rank1 s
  | .dramReadReturn rtAsks asks slots corrected lost empty0 empty1 empty2 => Sys2Proof.Machine.execDramReadReturn rtAsks asks slots corrected lost empty0 empty1 empty2 s
  | .bulkPromote rtAsks asks => Sys2Proof.Machine.execBulkPromote rtAsks asks s
  | .starved asks => Sys2Proof.Machine.execStarved asks s
  | .eccCorrected => Sys2Proof.Machine.execEccCorrected s
  | .trainingPassDone failStep margin cmp verifyOk => Sys2Proof.Machine.execTrainingPassDone failStep margin cmp verifyOk s
  | .zeroFillDone ok => Sys2Proof.Machine.execZeroFillDone ok s
  | .memGetStatus slot => Sys2Proof.Machine.execMemGetStatus slot s
  | .memTrain slot => Sys2Proof.Machine.execMemTrain slot s
  | .memSetRate slot => Sys2Proof.Machine.execMemSetRate slot s
  | .memClassConfig slot => Sys2Proof.Machine.execMemClassConfig slot s
  | .memEccInject slot => Sys2Proof.Machine.execMemEccInject slot s
  | .prfWrite word v => Sys2Proof.Machine.execPrfWrite word v s
  | .mramRefresh corrected uncorrectable => Sys2Proof.Machine.execMramRefresh corrected uncorrectable s
  | .opMinute => Sys2Proof.Machine.execOpMinute s
  | .almanacBudgetTick => Sys2Proof.Machine.execAlmanacBudgetTick s
  | .almanacRecordWrite => Sys2Proof.Machine.execAlmanacRecordWrite s
  | .setWriteStart => Sys2Proof.Machine.execSetWriteStart s
  | .setWriteDone copied committed => Sys2Proof.Machine.execSetWriteDone copied committed s
  | .persGetStatus slot => Sys2Proof.Machine.execPersGetStatus slot s
  | .persSetWrite slot => Sys2Proof.Machine.execPersSetWrite slot s
  | .persSetInvalidate slot => Sys2Proof.Machine.execPersSetInvalidate slot s
  | .almWrite slot => Sys2Proof.Machine.execAlmWrite slot s
  | .almRead slot => Sys2Proof.Machine.execAlmRead slot s
  | .pwrGetStatus slot => Sys2Proof.Machine.execPwrGetStatus slot s
  | .pwrSetState slot => Sys2Proof.Machine.execPwrSetState slot s
  | .pwrResume slot => Sys2Proof.Machine.execPwrResume slot s
  | .pwrPadRelease slot => Sys2Proof.Machine.execPwrPadRelease slot s
  | .pwrWakeConfig slot => Sys2Proof.Machine.execPwrWakeConfig slot s
  | .pwrBootLoad slot => Sys2Proof.Machine.execPwrBootLoad slot s
  | .pwrBootLoadDone image => Sys2Proof.Machine.execPwrBootLoadDone image s
  | .islandDrainDone island => Sys2Proof.Machine.execIslandDrainDone island s
  | .drainTimeout island count => Sys2Proof.Machine.execDrainTimeout island count s
  | .islandStageReady island => Sys2Proof.Machine.execIslandStageReady island s
  | .seqTimeout island => Sys2Proof.Machine.execSeqTimeout island s
  | .sleepEnter => Sys2Proof.Machine.execSleepEnter s
  | .sleepAborted reason => Sys2Proof.Machine.execSleepAborted reason s
  | .sleepMinute => Sys2Proof.Machine.execSleepMinute s
  | .vigilActivityWake => Sys2Proof.Machine.execVigilActivityWake s
  | .vigilWakePattern => Sys2Proof.Machine.execVigilWakePattern s
  | .ethWakeFrame fcsGood etype payload => Sys2Proof.Machine.execEthWakeFrame fcsGood etype payload s
  | .pcieL2Exit => Sys2Proof.Machine.execPcieL2Exit s
  | .brownoutWarn mv => Sys2Proof.Machine.execBrownoutWarn mv s
  | .brownout lowMv micros => Sys2Proof.Machine.execBrownout lowMv micros s
  | .coreStable => Sys2Proof.Machine.execCoreStable s
  | .coreUndervoltage => Sys2Proof.Machine.execCoreUndervoltage s
  | .coreResetAssert => Sys2Proof.Machine.execCoreResetAssert s
  | .powerOnReset asserted => Sys2Proof.Machine.execPowerOnReset asserted s
  | .resetN low => Sys2Proof.Machine.execResetN low s
  | .perstN low => Sys2Proof.Machine.execPerstN low s
  | .trstN low => Sys2Proof.Machine.execTrstN low s
  | .chipResetRelease selfTestFail => Sys2Proof.Machine.execChipResetRelease selfTestFail s
  | .firmwareStart halfA halfB => Sys2Proof.Machine.execFirmwareStart halfA halfB s
  | .bootComplete badA badB => Sys2Proof.Machine.execBootComplete badA badB s
  | .ctleSettled lane width height => Sys2Proof.Machine.execCtleSettled lane width height s
  | .aonClockCheck count => Sys2Proof.Machine.execAonClockCheck count s
  | .lockstepMismatch => Sys2Proof.Machine.execLockstepMismatch s
  | .headPowerEnableRemoved => Sys2Proof.Machine.execHeadPowerEnableRemoved s
  | .coreUvAtOnce => Sys2Proof.Machine.execCoreUvAtOnce s
  | .startupRetry => Sys2Proof.Machine.execStartupRetry s
  | .almWriteTimeout slot => Sys2Proof.Machine.execAlmWriteTimeout slot s
  | .overfreqClear enc => Sys2Proof.Machine.execOverfreqClear enc s
  | .encoOverrun samples => Sys2Proof.Machine.execEncoOverrun samples s
  | .tblBlockTx lane => Sys2Proof.Machine.execTblBlockTx lane s
  | .legacyStrobeEnd chain => Sys2Proof.Machine.execLegacyStrobeEnd chain s

end Sys2Proof.Machine
end

