-- ==== Sys2Proof/Machine/Idle.lean ====
section
/-!
DEFINITION. What passes while no command waits: one 5 ns ENC clock on the two time scales (R342), and the answer to a rung mailbox command
whose opcode no command has (R48, R51), which the table gives no row.
-/
namespace Sys2Proof.Machine

/-- Subsystem codes with the number of commands each has from low byte 0x00 on; 0x0E has five more from 0x10 on (R484, R521 to R525). -/
def opcodeCounts : List (Nat × Nat) :=
  [(1, 5), (2, 6), (3, 6), (4, 4), (5, 6), (6, 4), (7, 5), (8, 6), (9, 10), (10, 8), (11, 3), (12, 6), (13, 4), (14, 5), (15, 6)]

/-- The opcode is one that some command has. -/
def definedOpcode (op : Nat) : Bool :=
  opcodeCounts.any (fun x => decide (256 * x.1 ≤ op ∧ op < 256 * x.1 + x.2)) ||
  decide (0x0E10 ≤ op ∧ op ≤ 0x0E14)

/-- Beryl answers BAD_OPCODE to the first command that may start and has no defined opcode (R48, R51). -/
def answerUndefined (s : State) : State :=
  match s.host.rung.find? fun c => startable s.host c && !definedOpcode c.opcode with
  | none => s
  | some c => respond c.slot badOpcode { s with host := { s.host with rung := markRunning c.slot s.host.rung } }

/-- One step with no command waiting: a clock passes, and the lane transmitters go on (R215, R225). -/
def idleTick (s : State) : State := answerUndefined (drainLanes { s with pos := s.pos.clock 1 })

end Sys2Proof.Machine
end

