-- ==== Sys2Proof/Safety.lean ====
section
/-!
DEFINITION. What a sound state and a safe run are, in the terms the statements use.
-/
namespace Sys2Proof.Machine

/-- The sticky block is sound: there are STK, STK_MASK and STK_FIRST registers for all sixteen subsystem codes, an STK register's reserved bits are 0
(R15, R63), and its STK_FIRST is valid exactly while it is not all clear (R63). -/
structure StkSound (stk mask : List Word) (first : List (Option (BitVec 5))) : Prop where
  /-- One STK register for each code. -/
  stkLen : stk.length = 16
  /-- One STK_MASK register for each code. -/
  maskLen : mask.length = 16
  /-- One STK_FIRST register for each code. -/
  firstLen : first.length = 16
  /-- Reserved bits of STK read 0. -/
  stkBits : ∀ n, n < 16 → wd stk n &&& ~~~ wd Config.stkDefined n = 0
  /-- STK_FIRST.VALID. -/
  valid : ∀ n, n < 16 → ((cell first n none).isSome = true ↔ wd stk n ≠ 0)

/-- The host interface's sticky block is sound. -/
def HostIf.StkSound (h : HostIf) : Prop := Machine.StkSound h.stk h.stkMask h.stkFirst

/-- The state's sticky block is sound. -/
def State.StkSound (s : State) : Prop := s.host.StkSound

/-- A command of `op` stands in slot k, may start (R49, R53), has a right header and at least `minWords` payload words (R42, R44), and the unit
serves its opcode now (R493, R529, R535, R547). -/
structure Rung (op minWords : Nat) (k : Fin 16) (c : RungCmd) (s : State) : Prop where
  /-- It was rung in slot k and has not been answered. -/
  waiting : s.host.waiting k = some c
  /-- Its opcode. -/
  opcode : c.opcode = op
  /-- Nothing rung earlier holds it back. -/
  starts : startable s.host c = true
  /-- Its header has no reserved bit set and at most 60 payload words. -/
  header : c.headerBad = false
  /-- It has the payload words its definition uses. -/
  words : minWords ≤ c.payloadWords
  /-- The unit serves its opcode. -/
  served : pick (served op s) = none

/-- The state in which the command of slot k has started. -/
def begun (k : Fin 16) (s : State) : State := { s with host := { s.host with rung := markRunning k s.host.rung } }

/-- Every check of a command that has started passes. -/
def Passes (checks : List (Bool × Ans)) : Prop := ∀ x ∈ checks, x.1 = false

/-- A word of a command's payload. -/
def RungCmd.w (c : RungCmd) (i : Nat) : Word := wd c.payload i

/-- The parts of the state. -/
inductive Part where
  | host | cg | pg | scr | fire | hl | insp | cal | pos | axes | lamp | twin | onyx | dram | pers | pwr | pending | free | out
  deriving DecidableEq, Repr

/-- Two states agree in a part. -/
def State.agree (s t : State) : Part → Prop
  | .host => s.host = t.host | .cg => s.cg = t.cg | .pg => s.pg = t.pg | .scr => s.scr = t.scr | .fire => s.fire = t.fire
  | .hl => s.hl = t.hl | .insp => s.insp = t.insp | .cal => s.cal = t.cal | .pos => s.pos = t.pos | .axes => s.axes = t.axes
  | .lamp => s.lamp = t.lamp | .twin => s.twin = t.twin | .onyx => s.onyx = t.onyx | .dram => s.dram = t.dram | .pers => s.pers = t.pers
  | .pwr => s.pwr = t.pwr | .pending => s.pending = t.pending | .free => s.free = t.free | .out => s.out = t.out

/-- The frame of a command: every part but those named is unchanged. -/
def OnlyChanges (parts : List Part) (s t : State) : Prop := ∀ p, p ∉ parts → s.agree t p

end Sys2Proof.Machine
end

