-- ==== Sys2Proof/Certificates/Slice0/Obligations.lean ====
section
/-!
DEFINITION. The statements about the model. Where a statement says `exec i s = .next t` for a t that is written out, t is the whole next state, so
what it does not name is unchanged; where it says that there is such a t, OnlyChanges names the parts that may change.
-/
open Sys2Proof Sys2Proof.Machine

/-! ## The queue and reset -/

/-- STEP RUNS THE FRONT COMMAND. With a command at the front of the queue, step is exec of that command on the state with the queue's rest; with
none, one clock passes (log 2: the model's choice). -/
def Obligations.StepRunsFrontCommand : Prop :=
  (∀ (c : Instr) (rest : List Instr) (s : State), s.pending = c :: rest → step s = exec c { s with pending := rest }) ∧
  (∀ s : State, s.pending = [] → step s = .next (idleTick s))

/-- RESET VALUES the spec gives: OP_STATE BOOT and LISTEN role (R4, R544), every slot in HOST (R45), nothing queued, MIN_SEVERITY 1,
COALESCE_COUNT 1, COALESCE_TIME 0, RESP_IRQ_EN 1 (R45), LAST_SEQ 0 (R44), sticky bits 0 with every defined mask bit 1 (R63), the four groups
EMPTY (R83), and each check-value context in CRC-32's form (R132). -/
def Obligations.ResetValues : Prop :=
  State.reset.host.opState = .boot ∧ State.reset.twin.role = .listen ∧
  State.reset.host.slotState = List.replicate 16 .host ∧ State.reset.host.rung = [] ∧
  State.reset.host.evqHead = 0 ∧ State.reset.host.evqTail = 0 ∧ State.reset.host.evqLost = 0 ∧
  State.reset.host.minSeverity = 1 ∧ State.reset.host.coalesceCount = 1 ∧ State.reset.host.coalesceTime = 0 ∧
  State.reset.host.respIrqEn = true ∧ State.reset.host.lastSeq = 0 ∧
  State.reset.host.stk = List.replicate 16 0 ∧ State.reset.host.stkMask = Config.stkDefined ∧
  (∀ g, g < 4 → (State.reset.cg.group g).st = .empty) ∧
  (∀ k, k < 4 → (State.reset.pg.ctx k).width = 32 ∧ (State.reset.pg.ctx k).refin = true ∧ (State.reset.pg.ctx k).refout = true ∧
    (State.reset.pg.ctx k).tagBytes = 0 ∧ (State.reset.pg.ctx k).poly = 0x04C11DB7 ∧ (State.reset.pg.ctx k).init = 0xFFFFFFFF ∧
    (State.reset.pg.ctx k).xorout = 0xFFFFFFFF ∧ (State.reset.pg.ctx k).value = 0 ∧ (State.reset.pg.ctx k).count = 0) ∧
  State.reset.pending = []

/-! ## The sticky block -/

/-- The sticky block is sound after reset. -/
def Obligations.StickySoundAtReset : Prop := State.reset.StkSound

/-- EVERY STEP KEEPS THE STICKY BLOCK SOUND, from every state in which it is: reserved bits of the STK registers read 0 (R15, R63),
and STK_FIRST.VALID is 1 exactly while its register is not all clear (R63). -/
def Obligations.StickySoundKept : Prop := ∀ s t : State, s.StkSound → step s = .next t → t.StkSound

/-- STK_CLEAR (R14, R16, R64): the bits written as 1 clear but for those that hardware sets in the same clock, every other bit and every other
register stays, STK_FIRST of the register is cleared exactly when it becomes all clear, and nothing else changes. -/
def Claims.StickyClear : Prop :=
  ∀ (n : Fin 16) (v setNow : Word) (s : State), s.StkSound →
    ∃ t, exec (.stkClear n v setNow) s = .next t ∧ OnlyChanges [.host] s t ∧
      (∀ m, m < 16 → wd t.host.stk m = if m = n.val then wd s.host.stk m &&& ~~~ (v &&& ~~~ setNow) else wd s.host.stk m) ∧
      (∀ m, m < 16 → cell t.host.stkFirst m none = if m = n.val ∧ wd t.host.stk m = 0 then none else cell s.host.stkFirst m none) ∧
      t.host.stkMask = s.host.stkMask

/-- SETTING A STICKY BIT (R63, R64): a defined bit is 1 afterwards, every other bit stays, STK_FIRST takes its number when the register was all
clear, and a message of vector 2 goes out, or pends in the PBA, exactly when the bit went from 0 to 1 under a set mask bit. -/
def Claims.StickySet : Prop :=
  ∀ (k : Sticky) (s : State), s.StkSound → flag (wd Config.stkDefined k.n) k.b = true →
    OnlyChanges [.host, .out] s (stick k s) ∧
    (∀ m, m < 16 → wd (stick k s).host.stk m = if m = k.n then wd s.host.stk m ||| (1#32 <<< k.b) else wd s.host.stk m) ∧
    (∀ m, m < 16 → cell (stick k s).host.stkFirst m none =
      if m = k.n ∧ wd s.host.stk m = 0 then some (BitVec.ofNat 5 k.b) else cell s.host.stkFirst m none) ∧
    ((flag (wd s.host.stk k.n) k.b = false ∧ flag (wd s.host.stkMask k.n) k.b = true) →
      if s.host.vecOpen 2 then (stick k s).out = .msix 2 :: s.out else (stick k s).host.pba = s.host.pba ||| 4) ∧
    ((flag (wd s.host.stk k.n) k.b = true ∨ flag (wd s.host.stkMask k.n) k.b = false) →
      (stick k s).out = s.out ∧ (stick k s).host.pba = s.host.pba)

/-- StickyBlock: Claims.StickyClear and Claims.StickySet. -/
def Obligations.StickyBlock : Prop := Claims.StickyClear ∧ Claims.StickySet

/-! ## BAR0 (R13, R34, R37, R40) -/

/-- 64-BIT READS (R13, R40). A read of the lower word gives it and latches the upper word of the same instant, which a read of the upper word then
gives, whatever has happened to the register since, releasing the latch; with no latch held it gives the present upper half. A read of
GLOBAL_STATE latches BAR_CONFIG and both words of LINE_POS, and a read of LINE_POS_LO and one of LINE_POS_HI then give those. -/
def Claims.PairReads : Prop :=
  (∀ (r : Fin 0x100000) (s : State), isPair r = true → (r.val = 0x20 → s.host.gsLatch = none) →
    ∃ t, exec (.reg64LowerRead r) s = .next t ∧ OnlyChanges [.host, .out] s t ∧ t.out = .readData r (bar0Word r s) :: s.out ∧
      find? t.host.latch64 r.val = some (bar0Word (r.val + 4) s)) ∧
  (∀ (r : Fin 0x100000) (v : Word) (s : State), (r.val = 0x20 → s.host.gsLatch = none) → find? s.host.latch64 r.val = some v →
    ∃ t, exec (.reg64UpperRead r) s = .next t ∧ OnlyChanges [.host, .out] s t ∧ t.out = .readData (r.val + 4) v :: s.out ∧
      find? t.host.latch64 r.val = none) ∧
  (∀ (r : Fin 0x100000) (s : State), (r.val = 0x20 → s.host.gsLatch = none) → find? s.host.latch64 r.val = none →
    exec (.reg64UpperRead r) s = .next { s with out := .readData (r.val + 4) (bar0Word (r.val + 4) s) :: s.out }) ∧
  (∀ s : State, ∃ t, exec .globalStateRead s = .next t ∧ OnlyChanges [.host, .out] s t ∧ t.out = .readData 0x14 (globalState s) :: s.out ∧
    t.host.gsLatch = some (barConfig s, (linePos s).1, (linePos s).2)) ∧
  (∀ (b lo hi : Word) (s : State), s.host.gsLatch = some (b, lo, hi) →
    exec (.reg64LowerRead 0x20) s = .next { s with out := .readData 0x20 lo :: s.out } ∧
    ∃ t, exec (.reg64UpperRead 0x20) s = .next t ∧ OnlyChanges [.host, .out] s t ∧ t.out = .readData 0x24 hi :: s.out ∧ t.host.gsLatch = none)

/-- 64-BIT WRITES of a check-value context (R13, R132). A write of the lower word changes no context and is held, replacing a held one; a write of
the upper word makes both halves take effect together, or takes the lower half as it stands where none is held; bits above WIDTH are ignored
but in TAG; the running value of a disabled context holds; and a write to a BUSY context is discarded and sets CV_CONFLICT (R133). -/
def Claims.PairWrites : Prop :=
  (∀ (r : Fin 0x100000) (k reg : Nat) (v : Word) (s : State), k < 4 → reg ∈ [0x08, 0x10, 0x18, 0x20, 0x30] → r.val = cvOffset k reg →
    (s.pg.ctx k).busy = none →
    ∃ t, exec (.reg64LowerWrite r v) s = .next t ∧ OnlyChanges [.host] s t ∧ find? t.host.held64 r.val = some v) ∧
  (∀ (r : Fin 0x100000) (k reg : Nat) (lo v : Word) (old : Dword) (f : Dword → CvCtx) (s : State), k < 4 → r.val = cvOffset k reg →
    reg ∈ [0x08, 0x10, 0x18, 0x20, 0x30] → s.pg.cv.length = 4 → (s.pg.ctx k).busy = none → (s.pg.ctx k).pairAt reg = some (old, f) →
    (find? s.host.held64 r.val).getD (old.setWidth 32) = lo →
    ∃ t, exec (.reg64UpperWrite r v) s = .next t ∧ OnlyChanges [.host, .pg] s t ∧ t.pg.ctx k = f (v ++ lo) ∧
      find? t.host.held64 r.val = none ∧ ∀ j, j ≠ k → t.pg.ctx j = s.pg.ctx j) ∧
  (∀ (c : CvCtx) (old v : Dword) (f : Dword → CvCtx), c.disabled = true → c.pairAt 0x30 = some (old, f) → f v = c) ∧
  (∀ (c : CvCtx) (old v : Dword) (i : Nat), i < 64 → (c.put old v).getLsbD i = if i < c.width then v.getLsbD i else old.getLsbD i) ∧
  (∀ (r : Fin 0x100000) (k reg : Nat) (v : Word) (s : State), k < 4 → reg ∈ [0x08, 0x10, 0x18, 0x20, 0x30, 0x48] → r.val = cvOffset k reg →
    (s.pg.ctx k).busy.isSome = true →
    exec (.reg64LowerWrite r v) s = .next (stickRec .cvConflict s) ∧ exec (.reg64UpperWrite r v) s = .next (stickRec .cvConflict s))

/-- Pairs: Claims.PairReads and Claims.PairWrites. -/
def Obligations.Pairs : Prop := Claims.PairReads ∧ Claims.PairWrites

/-- GLOBAL_STATE ENCODES ITS FIELDS (R39): OP_STATE in bits 2 to 0, ROLE in bits 5 and 4 and PWR_STATE in bits 10 to 8 of what a read gives. Other values are not
produced: a value that no state has is never read. -/
def Obligations.GlobalStateFields : Prop :=
  ∀ s : State, ∃ t g, exec .globalStateRead s = .next t ∧ t.out = .readData 0x14 g :: s.out ∧
    (s.host.opState = .boot ↔ fld g 0 3 = 0) ∧ (s.host.opState = .ready ↔ fld g 0 3 = 1) ∧ (s.host.opState = .print ↔ fld g 0 3 = 2) ∧
    (s.host.opState = .service ↔ fld g 0 3 = 3) ∧ (s.host.opState = .safe ↔ fld g 0 3 = 4) ∧ fld g 0 3 ≤ 4 ∧
    (s.twin.role = .solo ↔ fld g 4 2 = 0) ∧ (s.twin.role = .active ↔ fld g 4 2 = 1) ∧ (s.twin.role = .standby ↔ fld g 4 2 = 2) ∧
    (s.twin.role = .listen ↔ fld g 4 2 = 3) ∧
    (s.pwr.state = .sleep ↔ fld g 8 3 = 1) ∧ (s.pwr.state = .hold ↔ fld g 8 3 = 2) ∧ (s.pwr.state = .standby ↔ fld g 8 3 = 3) ∧
    (s.pwr.state = .run ↔ fld g 8 3 = 4) ∧ 1 ≤ fld g 8 3 ∧ fld g 8 3 ≤ 4

/-- IRQ_MIRROR (R62): at 0x1100, the bits of the vectors that pend in the PBA, read-only and 0 at reset. -/
def Obligations.IrqMirror : Prop :=
  (∀ (s : State) (v : Nat), v < 16 → (bar0Word 0x1100 s).getLsbD v = s.host.pba.getLsbD v) ∧
  (∀ (s : State) (i : Nat), 16 ≤ i → (bar0Word 0x1100 s).getLsbD i = false) ∧
  bar0Word 0x1100 State.reset = 0 ∧
  (∀ (v : List (Option Byte)) (s : State), v.length = 4 → none ∉ v → exec (.registerWrite 0x1100 v) s = .next s)

/-- REGISTER WRITES (R14, R15, R34, R41): a write of the wrong size or alignment, or with a byte enable clear, is discarded and sets
BAR_PARTIAL_WRITE; an aligned 32-bit write of SCRATCH stores its little-endian value; one of reserved space changes nothing. HOST_ALIVE and
HOST_WDOG_CFG end an expiry and restart the count, and leave an ordered READY ordered; the heartbeat counts each millisecond while Beryl runs. STK_MASK
takes all 32 bits (R63), and STATS_CONS and QUAL_CONS take what is written (R279). -/
def Claims.RegisterWrites : Prop :=
  (∀ (off : Fin 0x100000) (bs : List (Option Byte)) (s : State), ¬ (0x10000 ≤ off.val ∧ off.val < 0x11000) →
    (none ∈ bs ∨ (bs.length ≠ 4 ∧ bs.length ≠ 8) ∨ off.val % bs.length ≠ 0) →
    exec (.registerWrite off bs) s = .next (stickRec .barPartialWrite s)) ∧
  (∀ (b0 b1 b2 b3 : Byte) (s : State), exec (.registerWrite 0x34 [some b0, some b1, some b2, some b3]) s =
    .next { s with host := { s.host with scratch := b3 ++ b2 ++ b1 ++ b0 } }) ∧
  (∀ (b0 b1 b2 b3 : Byte) (s : State), exec (.registerWrite 0x38 [some b0, some b1, some b2, some b3]) s = .next s) ∧
  (∀ s : State, exec .hostAlive s = .next { s with host := { s.host with wdogExpired := false, wdogStart := s.pos.mono } }) ∧
  (∀ (v : Word) (s : State), exec (.hostWdogCfg v) s = .next { s with host := { s.host with
    wdogTimeout := v.setWidth 16, wdogAction := flag v 16, wdogExpired := false, wdogStart := s.pos.mono } }) ∧
  (∀ s : State, s.host.berylRunning = true → 1000000 ≤ s.since s.host.beatAt → exec .berylHeartbeat s =
    .next { s with host := { s.host with heartbeat := s.host.heartbeat + 1, beatAt := s.pos.mono } }) ∧
  (∀ (n : Nat) (b0 b1 b2 b3 : Byte) (off : Fin 0x100000) (s : State), 0 < n → n < 16 → off.val = 0x1004 + 16 * n →
    exec (.registerWrite off [some b0, some b1, some b2, some b3]) s =
      .next { s with host := { s.host with stkMask := upd s.host.stkMask n fun _ => b3 ++ b2 ++ b1 ++ b0 } }) ∧
  (∀ (b0 b1 b2 b3 : Byte) (s : State), exec (.registerWrite 0x1F0E4 [some b0, some b1, some b2, some b3]) s =
    .next { s with insp := { s.insp with stats := { s.insp.stats with cons := b3 ++ b2 ++ b1 ++ b0 } } } ∧
    exec (.registerWrite 0x1F0EC [some b0, some b1, some b2, some b3]) s =
    .next { s with insp := { s.insp with qual := { s.insp.qual with cons := b3 ++ b2 ++ b1 ++ b0 } } })

/-- THE HOST WATCHDOG (R41, R66): before TIMEOUT_MS has passed nothing happens; an expiry sets HOST_WDOG and queues event 0x0103; with ACTION 0, or outside PRINT, the operating state stays;
with ACTION 1 in PRINT the unit goes to READY, at once where no line is firing (none does while the web stands quiet, log 11) and else at the next boundary. -/
def Claims.HostWatchdog : Prop :=
  (∀ s : State, s.host.wdogTimeout ≠ 0 → s.host.wdogExpired = false →
    s.pos.mono.toNat < s.host.wdogStart.toNat + 1000000 * s.host.wdogTimeout.toNat → exec .hostWdogExpired s = .next s) ∧
  (∀ s : State, s.host.wdogTimeout ≠ 0 → s.host.wdogExpired = false →
    s.host.wdogStart.toNat + 1000000 * s.host.wdogTimeout.toNat ≤ s.pos.mono.toNat →
    ((s.host.wdogAction = false ∨ s.host.opState ≠ .print) → exec .hostWdogExpired s =
      .next (stickEvent .hostWdog { ev := .hostWdogExpired } { s with host := { s.host with wdogExpired := true } })) ∧
    (s.host.wdogAction = true → s.host.opState = .print → lineFires s = true → exec .hostWdogExpired s =
      .next (stickEvent .hostWdog { ev := .hostWdogExpired } { s with host := { s.host with wdogExpired := true, wdogForce := true } })) ∧
    (s.host.wdogAction = true → s.host.opState = .print → lineFires s = false →
      ∃ t, exec .hostWdogExpired s = .next t ∧ t.host.opState = .ready ∧ t.host.wdogExpired = true))

/-- RegistersAndWatchdog: Claims.RegisterWrites and Claims.HostWatchdog. -/
def Obligations.RegistersAndWatchdog : Prop := Claims.RegisterWrites ∧ Claims.HostWatchdog

/-! ## The mailbox -/

/-- A DOORBELL WRITE (R46, R47): each named slot in HOST goes to DEVICE and its words are copied, in ascending slot number; a named slot in another
state stays as it is, and DOORBELL_MISUSE is set if there is one. Slots not named stay. (While the recording queue
is full, recording DOORBELL_MISUSE may also answer the host entry it drops, R520.) -/
def Claims.Doorbells : Prop :=
  ∀ (mask : BitVec 16) (s : State), s.host.slotState.length = 16 → s.StkSound → s.pers.almQueue.length < 16 →
    ∃ t, exec (.doorbell mask) s = .next t ∧ OnlyChanges [.host, .pers, .out] s t ∧
      (∀ k, k < 16 → cell t.host.slotState k .host =
        if mask.getLsbD k = true ∧ cell s.host.slotState k .host = .host then .device else cell s.host.slotState k .host) ∧
      t.host.rung = s.host.rung ++ ((List.range 16).filter fun k => mask.getLsbD k && cell s.host.slotState k .host == .host).map
        (fun k => { slot := k, words := cell s.host.cmdSlots k [] }) ∧
      t.host.cmdSlots = s.host.cmdSlots ∧
      ((∃ k, k < 16 ∧ mask.getLsbD k = true ∧ cell s.host.slotState k .host ≠ .host) → flag (wd t.host.stk 1) 0 = true)

/-- ACKNOWLEDGEMENTS AND COMMAND SLOTS (R47): acknowledging returns a slot from DONE to HOST, and any other named slot stays and ACK_MISUSE is set (the
recording queue not being full, as above); a
write to a command slot in DEVICE is discarded with SLOT_WRITE_WHILE_OWNED, and one to a slot in HOST or DONE stores its bytes. -/
def Claims.AcksAndSlotWrites : Prop :=
  (∀ (mask : BitVec 16) (s : State), s.host.slotState.length = 16 → s.StkSound → s.pers.almQueue.length < 16 →
    ∃ t, exec (.respAck mask) s = .next t ∧ OnlyChanges [.host, .pers, .out] s t ∧
      (∀ k, k < 16 → cell t.host.slotState k .host =
        if mask.getLsbD k = true ∧ cell s.host.slotState k .host = .done then .host else cell s.host.slotState k .host) ∧
      t.host.rung = s.host.rung ∧
      ((∃ k, k < 16 ∧ mask.getLsbD k = true ∧ cell s.host.slotState k .host ≠ .done) → flag (wd t.host.stk 1) 1 = true)) ∧
  (∀ (k : Fin 16) (off : Nat) (bytes : List Byte) (s : State), cell s.host.slotState k .host = .device →
    exec (.commandSlotWrite k off bytes) s = .next (stickRec .slotWriteWhileOwned s)) ∧
  (∀ (k : Fin 16) (off : Nat) (bytes : List Byte) (s : State), cell s.host.slotState k .host ≠ .device → off + bytes.length ≤ 256 →
    s.host.cmdSlots.length = 16 → (cell s.host.cmdSlots k []).length = 64 →
    ∃ t, exec (.commandSlotWrite k off bytes) s = .next t ∧ OnlyChanges [.host] s t ∧
      (∀ i, i < 256 → (wordBytes (cell t.host.cmdSlots k [])).getD i 0 =
        if off ≤ i ∧ i < off + bytes.length then bytes.getD (i - off) 0 else (wordBytes (cell s.host.cmdSlots k [])).getD i 0) ∧
      ∀ j, j ≠ k.val → cell t.host.cmdSlots j [] = cell s.host.cmdSlots j [])

/-- SlotsAndDoorbells: Claims.Doorbells and Claims.AcksAndSlotWrites. -/
def Obligations.SlotsAndDoorbells : Prop := Claims.Doorbells ∧ Claims.AcksAndSlotWrites

/-- ANSWERING A COMMAND (R43, R44, R48): LAST_SEQ takes the next value of COMPLETION_SEQ, which is never 0 and wraps to 1; the response slot holds
OPCODE, STATUS, TAG, the number of payload words, DETAIL, COMPLETION_SEQ and the payload; the slot is DONE; and vector 0 is sent, or pends, unless
QUIET is set or RESP_IRQ_EN is 0. -/
def Claims.Responses : Prop :=
  (∀ (k : Fin 16) (a : Ans) (c : RungCmd) (s : State), s.host.rung.find? (fun x => x.slot == k.val && x.running) = some c → c.discard = false →
    s.host.slotState.length = 16 → s.host.rspSlots.length = 16 → a.status < 65536 → a.detail < 65536 → a.payload.length ≤ 60 →
    let t := respond k a s
    let seq : Word := if s.host.lastSeq = 0xFFFFFFFF then 1 else s.host.lastSeq + 1
    t.host.lastSeq = seq ∧ seq ≠ 0 ∧ cell t.host.slotState k .host = .done ∧
    (cell t.host.rspSlots k []).take (4 + a.payload.length) =
      [w32 (fld (wd c.words 0) 0 16 + 65536 * a.status), wd c.words 1, w32 (a.payload.length + 65536 * a.detail), seq] ++ a.payload ∧
    (flag (wd c.words 0) 17 = false → s.host.respIrqEn = true → s.host.vecOpen 0 = true → t.out = .msix 0 :: s.out) ∧
    ((flag (wd c.words 0) 17 = true ∨ s.host.respIrqEn = false) → t.out = s.out ∧ t.host.pba = s.host.pba) ∧
    OnlyChanges [.host, .out] s t) ∧
  (∀ (k : Fin 16) (a : Ans) (c : RungCmd) (s : State), s.host.rung.find? (fun x => x.slot == k.val && x.running) = some c → c.discard = true →
    (respond k a s).host.lastSeq = s.host.lastSeq ∧ (respond k a s).host.rspSlots = s.host.rspSlots ∧
    (respond k a s).host.slotState = s.host.slotState ∧ (respond k a s).out = s.out)

/-- THE ORDER OF STATUSES (R51): of the checks that fail, a command answers one whose place in the order is the first. -/
def Claims.AnswerOrder : Prop :=
  ∀ (l : List (Bool × Ans)) (a : Ans), pick l = some a → (true, a) ∈ l ∧ ∀ b, (true, b) ∈ l → rank a ≤ rank b

/-- RING ORDER (R49, R53; a command an FLR has discarded that still runs counts among the earlier ones, the model's reading, log 29): a command does not start while MBX_READY is 0, while an earlier one of its subsystem or an earlier ORDERED one has no
response, or, being ORDERED itself, while any earlier one has none; its row then changes nothing. -/
def Claims.RingOrder : Prop :=
  ∀ (k : Fin 16) (c b : RungCmd) (s : State), s.host.waiting k = some c →
    (s.host.mbxReady = false ∨ (b ∈ rungBefore k s.host.rung ∧ (b.subsystem = c.subsystem ∨ b.ordered = true ∨ c.ordered = true)) ∨ c.running = true) →
    exec (.sysEcho k) s = .next s ∧ exec (.sysGetInfo k) s = .next s ∧ exec (.sysSetOpState k) s = .next s ∧ exec (.cgOpen k) s = .next s

/-- RunningCommands: Claims.Responses and Claims.AnswerOrder and Claims.RingOrder. -/
def Obligations.RunningCommands : Prop := Claims.Responses ∧ Claims.AnswerOrder ∧ Claims.RingOrder

/-- EVENT QUEUE (R50, R56, R57, R60): a write of EVQ_TAIL out of range changes nothing but that EVQ_TAIL_INVALID sets; one in range sets the tail and
frees the completions below it, and its entries no longer count as unsignalled. An event that would leave fewer than 16 entries free is not queued, increments EVQ_LOST and sets EVQ_OVERFLOW; a
completion is queued even so (while Beryl restarts its own completions wait for the HW_FAULT of R53). -/
def Claims.EventQueue : Prop :=
  (∀ (v : Word) (s : State), 64 < (s.host.evqHead - v).toNat → exec (.evqTail v) s = .next (stickRec .evqTailInvalid s)) ∧
  (∀ (v : Word) (s : State), (s.host.evqHead - v).toNat ≤ 64 → s.host.evqOverflowed = false →
    exec (.evqTail v) s = .next { s with host := { s.host with
      evqTail := v, unsig := s.host.unsig.map fun q => q.filter fun x => !freed v x.1, outst := s.host.outst.filter fun o => match o.evIdx with
        | some i => !freed v i
        | none => true } }) ∧
  (∀ (e : Event) (s : State), s.host.minSeverity.toNat ≤ e.ev.severity (e.p1 == 1) → 64 < s.host.evqCount + 17 → s.host.evqLost ≠ 0xFFFFFFFF → s.StkSound →
    (event e s).host.evqLost = s.host.evqLost + 1 ∧ (event e s).host.evqHead = s.host.evqHead ∧ (event e s).host.evq = s.host.evq ∧
    flag (wd (event e s).host.stk 1) 4 = true) ∧
  (∀ (opcode : Nat) (tag : Word) (status : Nat) (p0 p1 p2 : Word) (s : State), s.host.restarting = false → s.host.evq.length = 64 → opcode < 65536 → status < 65536 →
    (complete opcode tag status p0 p1 p2 s).host.evqHead = s.host.evqHead + 1 ∧
    cell (complete opcode tag status p0 p1 p2 s).host.evq (s.host.evqHead.toNat % 64) [] =
      [s.host.evqHead, w32 (opcode + 0xFF0000 + 0x1000000), tag, s.line, p0, p1, p2, w32 (status + 65536)] ∧
    ∀ i, i ≠ s.host.evqHead.toNat % 64 → cell (complete opcode tag status p0 p1 p2 s).host.evq i [] = cell s.host.evq i [])

/-- INTERRUPTS (R59, R60): an unmasked vector's message that was pending is sent and leaves the PBA; COALESCE_TIME after the oldest entry not
signalled yet, its vector is sent and counts them all as signalled, and no earlier. -/
def Claims.Interrupts : Prop :=
  (∀ (v : Fin 16) (s : State), s.host.pba = 1#16 <<< v.val → s.host.msixTable.length = 64 →
    ∃ t, exec (.msixUnmask true false (some v)) s = .next t ∧ OnlyChanges [.host, .out] s t ∧ t.out = .msix v :: s.out ∧ t.host.pba = 0 ∧
      t.host.msixEnable = true ∧ t.host.msixFuncMask = false) ∧
  (∀ (v : Fin 16) (i : Word) (at_ : Dword) (q : List (Word × Dword)) (s : State), cell s.host.unsig v [] = (i, at_) :: q →
    (s.host.coalesceTime ≠ 0 → at_.toNat + 1000 * s.host.coalesceTime.toNat ≤ s.pos.mono.toNat → s.host.vecOpen v = true →
      exec (.coalesceTimeExpiry v) s = .next { s with
        host := { s.host with unsig := upd s.host.unsig v fun _ => [] }, out := .msix v :: s.out }) ∧
    (s.pos.mono.toNat < at_.toNat + 1000 * s.host.coalesceTime.toNat → exec (.coalesceTimeExpiry v) s = .next s))

/-- EventsAndInterrupts: Claims.EventQueue and Claims.Interrupts. -/
def Obligations.EventsAndInterrupts : Prop := Claims.EventQueue ∧ Claims.Interrupts

/-! ## PCI Express, resets and restarts -/

/-- FLR AND LINK (R32, R35, R36, R59, R65, R545): an FLR returns the function's registers, the slots and the queue's indices as after reset, keeps
started commands only, discarding their responses, and reports event 0x0104 and FLR_SEEN; a link loss does the same, drops the link and sets PCIE_LINK_DOWN;
training, while PERST_N is high and once the IO island is up and the IDs are loaded (R33), brings the link up at what it trained to, and PCIE_LINK_DEGRADED sets below Gen4 x4; AER errors set
their bits. -/
def Claims.FunctionReset : Prop :=
  (∀ s : State, exec .flr s = .next (stickEvent .flrSeen { ev := .flrDone } (functionReset s)) ∧
    functionReset s = evqRoom (stopDma (resetFunction s)) ∧ OnlyChanges [.host, .onyx, .insp, .pg, .pers, .pwr] s (resetFunction s) ∧
    (resetFunction s).host.maxPayload = 128 ∧ (resetFunction s).host.maxRead = 512 ∧ (resetFunction s).host.slotState = List.replicate 16 .host ∧ (resetFunction s).host.evqHead = 0 ∧ (resetFunction s).host.evqTail = 0 ∧
    (resetFunction s).host.busMaster = false ∧ (resetFunction s).host.msixEnable = false ∧
    (resetFunction s).host.msixTable = Config.msixTableReset ∧ (resetFunction s).host.pba = s.host.pba &&& 0xC ∧
    (resetFunction s).host.stk = s.host.stk ∧ (resetFunction s).host.opState = s.host.opState ∧
    ∀ c ∈ (resetFunction s).host.rung, c.running = true ∧ c.discard = true ∧ 16 ≤ c.slot) ∧
  (∀ s : State, s.host.linkUp = true →
    ∃ t u, exec .pcieLinkDown s = .next t ∧ exec .flr s = .next u ∧ t.host.linkUp = false ∧
      t = stickRec .pcieLinkDown { u with host := { u.host with linkUp := false, linkInL2 := false } }) ∧
  (∀ (gen : BitVec 4) (width : BitVec 5) (s : State), (s.host.perstLow = true ∨ (cell s.pwr.islands 3 {}).on = false ∨ s.host.idsLoaded = false) →
    exec (.pcieLinkTrained gen width) s = .next s) ∧
  (∀ (gen : BitVec 4) (width : BitVec 5) (s : State), s.host.perstLow = false → s.pwr.inReset = false → (cell s.pwr.islands 3 {}).on = true →
    s.host.idsLoaded = true → ∀ u : State,
    u = { s with host := { s.host with linkUp := true, linkInL2 := false, linkGen := gen, linkWidth := width } } →
    (4 ≤ gen.toNat ∧ 4 ≤ width.toNat → exec (.pcieLinkTrained gen width) s = .next u) ∧
    (gen.toNat < 4 ∨ width.toNat < 4 → exec (.pcieLinkTrained gen width) s = .next (stickRec .pcieLinkDegraded u))) ∧
  (∀ s : State, exec .pcieUncorr s = .next (stickRec .pcieUncorr s) ∧ exec .pcieCorr s = .next (stickRec .pcieCorr s)) ∧
  (∀ s : State, s.pwr.state ≠ .sleep → exec (.perstN false) s =
    .next { s with host := { s.host with perstLow := false }, pwr := { s.pwr with wakeN := false } }) ∧
  (∀ s : State, s.host.linkUp = false → exec (.perstN true) s = .next { s with host := { s.host with perstLow := true } }) ∧
  (∀ s : State, s.host.busMaster = false → s.pg.pages = [] → (∀ r, r < 4 → (s.pg.ring r).enabled = false) →
    ∃ t, exec .busMasterEnable s = .next t ∧ t.host.busMaster = true ∧ (∃ p, p ≤ 2 ∧ t.host.maxPayload = 128 * 2 ^ p) ∧
      (∃ q, q ≤ 5 ∧ t.host.maxRead = 128 * 2 ^ q) ∧ OnlyChanges [.host, .pg, .free, .out] s t) ∧
  (∀ s : State, s.host.busMaster = true → exec .busMasterEnable s = .next s)

/-- WHAT A CHIP RESET LEAVES (R544, R4, R411): every part is as after reset but MRAM, its page wear and Almanac, the AON power controller's
settings, held pads and pin states, and what QSPI holds; OP_STATE is BOOT, the role LISTEN, and PWR_RESET_CAUSE names the cause. -/
def Claims.ChipReset : Prop :=
  ∀ (cause : Fin 5) (s : State),
    (chipReset cause s).host.opState = .boot ∧ (chipReset cause s).twin.role = .listen ∧ (chipReset cause s).pwr.cause = 1#5 <<< cause.val ∧
    (chipReset cause s).cg = State.reset.cg ∧ (chipReset cause s).pg = State.reset.pg ∧ (chipReset cause s).scr = State.reset.scr ∧
    (chipReset cause s).fire = State.reset.fire ∧ (chipReset cause s).hl = State.reset.hl ∧ (chipReset cause s).insp = State.reset.insp ∧
    (chipReset cause s).cal = State.reset.cal ∧ (chipReset cause s).pos = State.reset.pos ∧ (chipReset cause s).axes = State.reset.axes ∧
    (chipReset cause s).lamp = State.reset.lamp ∧ (chipReset cause s).twin = State.reset.twin ∧ (chipReset cause s).onyx = State.reset.onyx ∧
    (chipReset cause s).dram = State.reset.dram ∧
    (chipReset cause s).pers.prf = s.pers.prf ∧ (chipReset cause s).pers.alm = s.pers.alm ∧ (chipReset cause s).pers.slotA = s.pers.slotA ∧
    (chipReset cause s).pers.slotB = s.pers.slotB ∧ (chipReset cause s).pers.wear = s.pers.wear ∧
    (chipReset cause s).host.qspi = s.host.qspi ∧ (chipReset cause s).host.activeHalf = s.host.activeHalf ∧
    (chipReset cause s).pwr.wakeKey = s.pwr.wakeKey ∧ (chipReset cause s).pwr.wakeEtype = s.pwr.wakeEtype ∧
    (∀ i, i < s.pwr.islands.length → (cell (chipReset cause s).pwr.islands i {}).padHeld = (cell s.pwr.islands i {}).padHeld ∧
      (cell (chipReset cause s).pwr.islands i {}).on = false) ∧
    (chipReset cause s).pending = s.pending

/-- RESETS AND BERYL'S RESTART (R53, R71, R449, R507, R514, R543, R544): what each reset command does. A reset SYS_RESET_UNIT asked for begins 1 ms
after its answer; a restart ends every job of Beryl's commands, and Beryl boots the active half of QSPI again, as at boot. -/
def Claims.ResetCommands : Prop :=
  (∀ (kind alt : Bool) (at_ : Dword) (s : State), s.host.resetReq = some (kind, alt, at_) → s.pos.mono.toNat < at_.toNat + 1000000 →
    exec .sysResetBegin s = .next s) ∧
  (∀ (alt : Bool) (at_ : Dword) (s : State), s.host.resetReq = some (true, alt, at_) → at_.toNat + 1000000 ≤ s.pos.mono.toNat →
    exec .sysResetBegin s = .next (chipReset 3 { s with
      host := { s.host with resetReq := none, bootAlt := alt }, pers := { s.pers with wearStore := s.pers.wear, clean := true } })) ∧
  (∀ (alt : Bool) (at_ : Dword) (s : State), s.host.resetReq = some (false, alt, at_) → at_.toNat + 1000000 ≤ s.pos.mono.toNat →
    exec .sysResetBegin s = .next (berylRestart { s with host := { s.host with resetReq := none, bootAlt := alt } })) ∧
  (∀ s : State, ∃ t, exec .berylRestart s = .next t ∧ t.host.mbxReady = false ∧ t.host.berylRunning = false ∧
    t.host.restarting = true ∧
    (∀ c ∈ t.host.rung, c.running = true) ∧ t.host.heartbeat = s.host.heartbeat ∧ t.cal.sending = [] ∧ t.scr.job = none ∧ t.fire.spit = none ∧
    t.fire.meas = none ∧ t.fire.probe = none) ∧
  (∀ s u : State, s.host.restarting = true → s.onyx.berylHeld = false → s.pers.writing = none → s.host.bootAlt = false →
    (s.host.opState ≠ .boot ∨ s.dram.zeroed = true) → u = readHalves (Config.flashHalf false) (Config.flashHalf true) s →
    imageGood (halfRead u.host s.host.activeHalf) = true →
    ∃ t, exec .berylRestartDone s = .next t ∧ t.host.mbxReady = true ∧ t.host.berylRunning = true ∧ t.host.restarting = false ∧
      t.host.fwVersion = imageFwVersion (halfRead u.host s.host.activeHalf)) ∧
  (∀ s : State, s.host.restarting = false → exec .berylRestartDone s = .next s) ∧
  (∀ s : State, exec (.resetN true) s = .next { chipReset 2 s with pwr := { (chipReset 2 s).pwr with resetPin := true } }) ∧
  (∀ s : State, exec (.resetN false) s = .next { s with pwr := { s.pwr with resetPin := false } }) ∧
  (∀ s : State, exec (.trstN true) s = .next { s with pwr := { s.pwr with trstLow := true, jtagIr := 0x01 } } ∧
    exec (.trstN false) s = .next { s with pwr := { s.pwr with trstLow := false } }) ∧
  (∀ s : State, ∃ t, exec (.powerOnReset true) s = .next t ∧ t.pwr.porHeld = true ∧ t.pwr.cause = 1 ∧ t.pwr.wakeKey = 0 ∧
    t.host.opState = .boot ∧ t.pers.prf = s.pers.prf ∧ t.pers.alm = s.pers.alm) ∧
  (∀ s : State, s.pwr.porHeld = true → ∃ t, exec (.powerOnReset false) s = .next t ∧ OnlyChanges [.pwr, .pers] s t ∧ t.pwr.porHeld = false ∧
    t.pers.powerCycles = s.pers.powerCycles + 1 ∧ (s.pers.alm = [] → t.pers.almNext = 1)) ∧
  (∀ s : State, exec .coreUvAtOnce s = .next { chipReset 1 s with pwr := { (chipReset 1 s).pwr with
    uvHeld := true, coreStable := false, warnNow := true, riseAt := none } }) ∧
  (∀ s : State, s.pwr.uvPending = true → s.aonDue s.pwr.uvAt 8000 = true →
    exec .coreResetAssert s = .next { chipReset 1 s with pwr := { (chipReset 1 s).pwr with uvHeld := true } })

/-- Resets: Claims.FunctionReset and Claims.ChipReset and Claims.ResetCommands. -/
def Obligations.Resets : Prop := Claims.FunctionReset ∧ Claims.ChipReset ∧ Claims.ResetCommands

/-! ## The system commands -/

/-- SYSTEM COMMANDS (R68 to R72): SYS_ECHO returns its payload; SYS_GET_INFO the eight words of R69; SYS_SET_OP_STATE moves between READY and
PRINT or SERVICE where R66 and R70 permit it; SYS_RESET_UNIT answers before the reset (a second one before the first begins is
answered and changes nothing, the model's choice, log 36); SYS_FW_STAGE is accepted, and its end, when all LENGTH bytes are read,
writes the half not in use and completes it. -/
def Claims.SystemCommands : Prop :=
  (∀ k c s, Rung 0x0100 0 k c s → exec (.sysEcho k) s = .next (respond k (okWith c.payload) (begun k s))) ∧
  (∀ k c s, Rung 0x0101 0 k c s → exec (.sysGetInfo k) s = .next (respond k (okWith (sysInfo s)) (begun k s))) ∧
  (∀ k c s, Rung 0x0102 1 k c s → c.w 0 = 2 → s.host.opState = .ready → s.twin.role ≠ .listen → s.cg.modules ≠ 0 → s.pwr.state = .run →
    (∀ m, m < s.cg.modules → (s.lane m).st = .active) →
    exec (.sysSetOpState k) s = .next (respond k ok (setOpState .print false (begun k s)))) ∧
  (∀ k c s, Rung 0x0102 1 k c s → c.w 0 = 3 → s.host.opState = .ready → s.pwr.state = .run → s.permits 2 = true →
    exec (.sysSetOpState k) s = .next (respond k ok (setOpState .service false (begun k s)))) ∧
  (∀ k c s, Rung 0x0102 1 k c s → c.w 0 = 1 → (s.host.opState = .service ∨ (s.host.opState = .print ∧ lineFires s = false)) →
    exec (.sysSetOpState k) s = .next (respond k ok (setOpState .ready false (begun k s)))) ∧
  (∀ k c s, Rung 0x0102 1 k c s → c.w 0 = 1 → s.host.opState = .safe →
    exec (.sysSetOpState k) s = .next (respond k (safetyBlocked 4) (begun k s))) ∧
  (∀ k c s, Rung 0x0103 1 k c s → c.w 0 ≤ 1 → s.host.opState ≠ .print →
    (s.host.resetReq = none → exec (.sysResetUnit k) s =
      .next (respond k ok { begun k s with host := { (begun k s).host with resetReq := some (flag (c.w 0) 0, false, s.pos.mono) } })) ∧
    (s.host.resetReq.isSome = true → exec (.sysResetUnit k) s = .next (respond k ok (begun k s)))) ∧
  (∀ k c s, Rung 0x0104 3 k c s → (c.w 0).toNat % 4096 = 0 → 4096 ≤ (c.w 2).toNat → (c.w 2).toNat ≤ 4194304 → s.host.fwStage = none →
    s.host.opState ≠ .boot → s.host.outst.length < 16 →
    ∃ t, exec (.sysFwStage k) s = .next (respond k accepted t) ∧ OnlyChanges [.host, .out] (begun k s) t ∧
      t.host.fwStage = some (c.tag, c.w 1 ++ c.w 0, c.w 2) ∧
      t.out = (readReqs s.host.maxRead (wn64 c.payload 0) (c.w 2).toNat).reverse ++ s.out ∧ t.host.outst = s.host.outst ++ [{ tag := c.tag, opcode := 0x0104, ref := 0 }]) ∧
  (∀ (image : List Byte) (w : Bool) (tag : Word) (a : Dword) (n : Word) (s : State), s.host.fwStage = some (tag, a, n) → image.length = n.toNat →
    (imageGood image = true → w = true → exec (.sysFwStageDone image w) s =
      .next (complete 0x0104 tag 0 (imageFwVersion image) 0 0 { s with host := { s.host with
        fwStage := none, stagedImage := some (imageFwVersion image), qspi := upd s.host.qspi (b2n (!s.host.activeHalf)) (fun _ => some image) } })) ∧
    (imageGood image = false → exec (.sysFwStageDone image w) s =
      .next (complete 0x0104 tag 0x41 0 0 0 { s with host := { s.host with fwStage := none, stagedImage := none, qspi := upd s.host.qspi (b2n (!s.host.activeHalf)) (fun _ => some []) } })) ∧
    (imageGood image = true → w = false → exec (.sysFwStageDone image w) s =
      .next (complete 0x0104 tag 0x30 0 0 0 { s with host := { s.host with fwStage := none, stagedImage := none, qspi := upd s.host.qspi (b2n (!s.host.activeHalf)) (fun _ => some []) } })))

/-- A COMMAND THAT IS TURNED AWAY (R42, R44, R51, R52): a header with a reserved bit answers BAD_PARAM with detail 0xFFFE, too few payload words
BAD_PARAM with 0xFFFF; while armed for SLEEP, and in the boot ROM, commands not served answer BAD_STATE; each of a command's own checks that
fails alone gives its answer; and nothing but the answer happens. -/
def Claims.TurnedAway : Prop :=
  ∀ (op n : Nat) (k : Fin 16) (c : RungCmd) (s : State) (checks : State → List Word → List (Bool × Ans))
    (effect : Word → List Word → State → State × Option Ans),
    s.host.waiting k = some c → c.opcode = op → startable s.host c = true →
    (c.headerBad = true → command op n k checks effect s = respond k (badParam 0xFFFE) (begun k s)) ∧
    (c.headerBad = false → c.payloadWords < n → command op n k checks effect s = respond k (badParam 0xFFFF) (begun k s)) ∧
    (∀ a, c.headerBad = false → n ≤ c.payloadWords → pick (served op s) = none → pick (checks s c.payload) = some a →
      command op n k checks effect s = respond k a (begun k s))

/-- SystemCommandsAnswer: Claims.SystemCommands and Claims.TurnedAway. -/
def Obligations.SystemCommandsAnswer : Prop := Claims.SystemCommands ∧ Claims.TurnedAway

/-! ## Power, islands and start-up -/

/-- START-UP (R462, R507, R538, R539, R546): core reset is released once nothing holds it; the CPU island begins; each stage follows the one
before; the last stage of an island turns it on and begins the next in the order CPU, IO, MEM, PIPE; a stage's limit of time passed once begins its island
once more; and after a CPU or IO island's second timeout the whole sequence runs again 1 s later. (The AON island's times are good to 2 %, R527.) -/
def Claims.StartUp : Prop :=
  (∀ (f : Option Nat) (s : State), s.pwr.porHeld = false → s.pwr.resetPin = false → s.pwr.uvHeld = false → s.pwr.inReset = true →
    s.pwr.islands.length = 4 → ∃ t, exec (.chipResetRelease f) s = .next t ∧ t.pwr.inReset = false ∧ t.pwr.starting = true ∧ (cell t.pwr.islands 0 {}).stage = 1 ∧
      t.pers.opMinutes = s.pers.opMinutes + w32 s.pwr.sleepMinutes ∧ t.onyx.selfTestOk = f.isNone ∧
      (f = none → t.onyx.tripped = s.onyx.tripped ∧ t.host.opState = s.host.opState ∧ t.pos.mono = 0 ∧ t.pos.net = 0) ∧
      (∀ i, f = some i → s.onyx.tripped = false → t.onyx.tripped = true ∧ t.onyx.cause = 15 ∧ t.onyx.param = w32 i ∧ t.host.opState = .safe)) ∧
  (∀ (i : Fin 4) (s : State), (cell s.pwr.islands i {}).stage ∈ [1, 2, 3] →
    exec (.islandStageReady i) s = .next (setIsland i (fun x => { x with stage := (cell s.pwr.islands i {}).stage + 1, stageAt := s.pos.mono }) s)) ∧
  (∀ (i : Fin 4) (s : State), (cell s.pwr.islands i {}).stage = 4 → s.pwr.islands.length = 4 →
    ∃ t, exec (.islandStageReady i) s = .next t ∧ (cell t.pwr.islands i {}).on = true ∧ (cell t.pwr.islands i {}).stage = 5 ∧
      (s.pwr.starting = true → i = 0 → (cell t.pwr.islands 3 {}).stage = 1 ∧ OnlyChanges [.pwr] s t) ∧
      (s.pwr.starting = true → i = 3 → (cell t.pwr.islands 1 {}).stage = 1 ∧ OnlyChanges [.pwr, .host] s t) ∧
      (s.pwr.starting = true → i = 1 → (cell t.pwr.islands 2 {}).stage = 1) ∧
      (s.pwr.starting = true → i = 2 → t.pwr.starting = false ∧
        ((∀ m, m < 16 → (s.lane m).st ≠ .active) → OnlyChanges [.pwr, .hl, .out] s t))) ∧
  (∀ (i : Fin 4) (s : State), s.aonDue (cell s.pwr.islands i {}).stageAt (stageLimit (cell s.pwr.islands i {}).stage) = false →
    exec (.seqTimeout i) s = .next s) ∧
  (∀ (i : Fin 4) (s : State), (cell s.pwr.islands i {}).stage ∈ [1, 2, 3, 4] → (cell s.pwr.islands i {}).tries = 0 →
    s.aonDue (cell s.pwr.islands i {}).stageAt (stageLimit (cell s.pwr.islands i {}).stage) = true →
    exec (.seqTimeout i) s = .next (stickRec .seqTimeout (setIsland i (fun x => { x with tries := 1, stage := 1, stageAt := s.pos.mono }) s))) ∧
  (∀ (i : Fin 4) (s : State), (cell s.pwr.islands i {}).stage ∈ [1, 2, 3, 4] → (cell s.pwr.islands i {}).tries ≠ 0 → s.pwr.starting = true →
    s.aonDue (cell s.pwr.islands i {}).stageAt (stageLimit (cell s.pwr.islands i {}).stage) = true →
    (i = 0 ∨ i = 3) → ∃ t, exec (.seqTimeout i) s = .next t ∧ t.pwr.inReset = true ∧ t.pwr.starting = false) ∧
  (∀ s : State, s.pwr.inReset = true → s.host.opState = .boot → s.pwr.islands.length = 4 → (∃ x ∈ s.pwr.islands, x.timeout = true) →
    s.aonDue s.pwr.retryAt 1000000000 = true → ∃ t, exec .startupRetry s = .next t ∧ OnlyChanges [.pwr, .pos, .host, .onyx, .pers] s t ∧ t.pos.mono = 0 ∧ t.pwr.inReset = false ∧ t.pwr.starting = true ∧
      (cell t.pwr.islands 0 {}).stage = 1 ∧ ∀ i, 0 < i → i < 4 → (cell t.pwr.islands i {}).stage = 0)

/-- THE FIRMWARE STARTS (R66, R71, R515, R546, R547): the active half is tried first, then the other, or with BOOT_ALT the other first, and the
half booted is the active one from then on (what QSPI holds where nothing has been staged comes with the command and stays, log 36); with neither good the boot ROM waits; and
at BOOT_COMPLETE the unit is READY with NO_TRIP granted, unless a trip is latched (log 13). -/
def Claims.FirmwareStarts : Prop :=
  (∀ (a b : List Byte) (s u : State), s.host.opState = .boot → s.host.berylRunning = false → s.host.bootRomWaiting = false → s.host.restarting = false →
    s.onyx.berylHeld = false → s.pwr.inReset = false → s.dram.zeroed = true → u = readHalves a b s →
    (s.host.bootAlt = false → imageGood (halfRead u.host s.host.activeHalf) = true → exec (.firmwareStart a b) s =
      .next (bootHalf s.host.activeHalf (halfRead u.host s.host.activeHalf) u)) ∧
    (s.host.bootAlt = false → imageGood (halfRead u.host s.host.activeHalf) = false →
      imageGood (halfRead u.host (!s.host.activeHalf)) = true →
      exec (.firmwareStart a b) s = .next (bootHalf (!s.host.activeHalf) (halfRead u.host (!s.host.activeHalf)) u)) ∧
    (s.host.bootAlt = true → imageGood (halfRead u.host (!s.host.activeHalf)) = true → exec (.firmwareStart a b) s =
      .next (bootHalf (!s.host.activeHalf) (halfRead u.host (!s.host.activeHalf)) u)) ∧
    (s.host.bootAlt = false → (∀ h, imageGood (halfRead u.host h) = false) → exec (.firmwareStart a b) s =
      .next { u with host := { u.host with bootRomWaiting := true, mbxReady := true, bootAlt := false } })) ∧
  (∀ (a b : List Byte) (s : State), OnlyChanges [.host] s (readHalves a b s) ∧
    halfRead (readHalves a b s).host false = ((cell s.host.qspi 0 none).getD a) ∧
    halfRead (readHalves a b s).host true = ((cell s.host.qspi 1 none).getD b)) ∧
  (∀ (h : Bool) (image : List Byte) (s : State), (bootHalf h image s).host.fwVersion = imageFwVersion image ∧
    (bootHalf h image s).host.bootSource = BitVec.ofNat 2 (b2n h) ∧ (bootHalf h image s).host.activeHalf = h ∧
    (bootHalf h image s).host.berylRunning = true ∧ (bootHalf h image s).host.mbxReady = true ∧ OnlyChanges [.host] s (bootHalf h image s)) ∧
  (∀ (a b : Bool) (s : State), s.host.opState = .boot → s.host.berylRunning = true → s.host.bootRomWaiting = false →
    s.pwr.starting = false → (cell s.pwr.islands 2 {}).on = true →
    ∃ t, exec (.bootComplete a b) s = .next t ∧ (s.onyx.tripped = false → t.host.opState = .ready ∧ t.permits 4 = true) ∧
      (s.onyx.tripped = true → t.host.opState = .safe)) ∧
  (∀ k c s, Rung 0x0F05 3 k c s → (c.w 0).toNat % 4096 = 0 → 4096 ≤ (c.w 2).toNat → (c.w 2).toNat ≤ 4194304 → s.host.bootLoad = none →
    s.host.bootRomWaiting = true → s.host.outst.length < 16 →
    ∃ t, exec (.pwrBootLoad k) s = .next (respond k accepted t) ∧ OnlyChanges [.host, .out] (begun k s) t ∧
      t.host.bootLoad = some (c.tag, c.w 1 ++ c.w 0, c.w 2) ∧
      t.out = (readReqs s.host.maxRead (wn64 c.payload 0) (c.w 2).toNat).reverse ++ s.out) ∧
  (∀ (image : List Byte) (tag : Word) (a : Dword) (n : Word) (s : State), s.host.bootLoad = some (tag, a, n) → image.length = n.toNat →
    (imageGood image = true → exec (.pwrBootLoadDone image) s =
      .next (complete 0x0F05 tag 0 0 0 0 (startFirmware image 2 { s with host := { s.host with bootLoad := none } }))) ∧
    (imageGood image = false → exec (.pwrBootLoadDone image) s =
      .next (complete 0x0F05 tag 0x41 0 0 0 { s with host := { s.host with bootLoad := none } })))

/-- StartUpAndFirmware: Claims.StartUp and Claims.FirmwareStarts. -/
def Obligations.StartUpAndFirmware : Prop := Claims.StartUp ∧ Claims.FirmwareStarts

/-- POWER COMMANDS (R530, R531, R532, R535, R542, R548 to R553): each one's answer and effect where its conditions hold. -/
def Obligations.PowerCommands : Prop :=
  (∀ k c s, Rung 0x0F00 1 k c s → c.w 0 = 0 → exec (.pwrGetStatus k) s = .next (respond k (okWith (pwrView s)) (begun k s))) ∧
  (∀ k c s, Rung 0x0F00 1 k c s → c.w 0 = 1 → exec (.pwrGetStatus k) s = .next (respond k (okWith (pwrView s)) { begun k s with
    pwr := { s.pwr with vcoreMin := 0x3FF, tjMax := -128, brownouts := 0, drainTimeouts := 0 } })) ∧
  (∀ k c s, Rung 0x0F01 1 k c s → c.w 0 = 3 → s.pwr.state = .run → s.pwr.target = none → lowerBlocked false s = false →
    exec (.pwrSetState k) s = .next (setIsland 2 (fun i => { i with draining := true, drainAt := s.pos.mono })
      { begun k s with pwr := { s.pwr with target := some (.standby, some k, none) } })) ∧
  (∀ k c s, Rung 0x0F01 1 k c s → c.w 0 = 1 → s.pwr.state = .run → s.pwr.target = none → lowerBlocked true s = false →
    exec (.pwrSetState k) s = .next (respond k ok { begun k s with pwr := { s.pwr with sleepArmed := true, armedAt := s.pos.mono } })) ∧
  (∀ k c s, Rung 0x0F01 1 k c s → c.w 0 = 4 → s.pwr.state = .hold → s.pwr.target = none → s.host.opState ≠ .boot → s.host.outst.length < 16 →
    s.pwr.sleepArmed = false → ∃ t, exec (.pwrSetState k) s = .next (respond k accepted t) ∧
      t.pwr.target = some (.run, none, some c.tag) ∧ (s.pwr.islands.length = 4 → (cell t.pwr.islands 2 {}).stage = 1) ∧
      t.host.outst = s.host.outst ++ [{ tag := c.tag, opcode := 0x0F01, ref := 0 }]) ∧
  (∀ k c s, Rung 0x0F01 1 k c s → c.w 0 = 4 → s.pwr.state = .standby → s.pwr.target = none → s.host.opState ≠ .boot →
    exec (.pwrSetState k) s = .next (respond k ok (enterRun 5 { begun k s with pwr := { s.pwr with sleepArmed := false } }))) ∧
  (∀ k c s, Rung 0x0F02 0 k c s → s.host.opState ≠ .boot →
    (s.pwr.brownout = false → exec (.pwrResume k) s = .next (respond k ok (begun k s))) ∧
    (s.pwr.brownout = true → s.pwr.coreStable = true → exec (.pwrResume k) s =
      .next (respond k ok (setPermission 1 3 true { begun k s with pwr := { s.pwr with brownout := false } }))) ∧
    (s.pwr.brownout = true → s.pwr.coreStable = false →
      ∃ p, exec (.pwrResume k) s = .next (respond k { status := 0x12, payload := [p] } (begun k s)))) ∧
  (∀ k c s, Rung 0x0F03 1 k c s → 1 ≤ (c.w 0).toNat → (c.w 0).toNat ≤ 15 → s.host.opState ≠ .boot → s.pwr.islands.length = 4 →
    (∀ i, i < 4 → flag (c.w 0) i = true → (cell s.pwr.islands i {}).on = true) →
    ∃ t, exec (.pwrPadRelease k) s = .next (respond k ok t) ∧ OnlyChanges [.pwr, .out] (begun k s) t ∧
      (flag (c.w 0) 2 = true → (cell s.pwr.islands 2 {}).padHeld = true → Output.pin "SLOWDOWN_N" (!s.fire.slowdown) ∈ t.out) ∧
      ∀ i, i < 4 → (cell t.pwr.islands i {}).padHeld = ((cell s.pwr.islands i {}).padHeld && !flag (c.w 0) i)) ∧
  (∀ k c s, Rung 0x0F04 3 k c s → (c.w 0).toNat < 8 → (c.w 1).toNat < 65536 → s.host.opState ≠ .boot →
    exec (.pwrWakeConfig k) s = .next (respond k ok { begun k s with pwr := { s.pwr with
      wakeVigil := flag (c.w 0) 0, wakePattern := flag (c.w 0) 1, wakeEth := flag (c.w 0) 2, wakeEtype := (c.w 1).setWidth 16, wakeKey := c.w 2 } }))

/-- LEAVING AND ENTERING POWER STATES (R529, R531 to R536): a drain that ends takes the unit to STANDBY, or to HOLD with the PIPE island off and its
pads held; one that times out answers BUSY and changes no state; SLEEP is entered with every enable low and left through a chip reset. -/
def Claims.PowerStates : Prop :=
  (∀ (i : Fin 4) (k : Fin 16) (w : Option Word) (s : State), (cell s.pwr.islands i {}).draining = true → s.pwr.target = some (.standby, some k.val, w) →
    ∃ t, exec (.islandDrainDone i) s = .next (respond k ok t) ∧ t.pwr.state = .standby ∧ t.pwr.target = none ∧ t.onyx.lampPwr = false) ∧
  (∀ (k : Fin 16) (w : Option Word) (s : State), (cell s.pwr.islands 2 {}).draining = true → s.pwr.islands.length = 4 → s.hl.lanes.length = 16 →
    s.pwr.target = some (.hold, some k.val, w) →
    ∃ t, exec (.islandDrainDone 2) s = .next (respond k ok t) ∧ t.pwr.state = .hold ∧ (cell t.pwr.islands 2 {}).on = false ∧
      (cell t.pwr.islands 2 {}).padHeld = true ∧ (∀ l ∈ t.hl.lanes, l.st = .disabled) ∧ t.onyx.lampPwr = false) ∧
  (∀ (i : Fin 4) (n : Nat) (k : Fin 16) (p : PwrState) (w : Option Word) (s : State), (cell s.pwr.islands i {}).draining = true →
    s.pwr.target = some (p, some k.val, w) → s.aonDue (cell s.pwr.islands i {}).drainAt 100000 = true → exec (.drainTimeout i n) s =
      .next (respond k { status := 0x13, payload := [w32 i] } (stickEvent .drainTimeout { ev := .drainTimeout, p0 := w32 i, p1 := w32 n }
        (setIsland i (fun x => { x with draining := false })
          { s with pwr := { s.pwr with target := none, drainTimeouts := satAdd s.pwr.drainTimeouts 1 } })))) ∧
  (∀ s : State, s.pwr.sleepArmed = true → vigilQuiet s = true → ∃ t, exec .sleepEnter s = .next t ∧ t.pwr.state = .sleep ∧ t.pwr.sleepArmed = false ∧
    t.pers.wearStore = s.pers.wear ∧ t.pers.clean = true ∧ t.onyx.hpwrA = false ∧ t.onyx.hpwrB = false ∧ t.onyx.safeOk = false ∧
    t.onyx.lampPwr = false ∧ (∀ a, a < 2 → (cell t.axes.ax a {}).enabled = false) ∧ (∀ i ∈ t.pwr.islands, i.on = false ∧ i.padHeld = true) ∧
    t.host.mbxReady = false) ∧
  (∀ (r : Fin 3) (s : State), s.pwr.sleepArmed = true → r ≠ 0 → s.aonDue s.pwr.armedAt 1000000000 = true → exec (.sleepAborted r) s =
    .next (stickEvent .sleepAborted { ev := .sleepAborted, p0 := w32 r } { s with pwr := { s.pwr with sleepArmed := false } })) ∧
  (∀ s : State, s.pwr.state = .sleep →
    (s.aonDue s.pwr.minuteAt 60000000000 = true →
      exec .sleepMinute s = .next { s with pwr := { s.pwr with sleepMinutes := s.pwr.sleepMinutes + 1, minuteAt := s.pos.mono } }) ∧
    (s.aonDue s.pwr.minuteAt 60000000000 = false → exec .sleepMinute s = .next s) ∧
    exec .pcieL2Exit s = .next (wake 4 s) ∧
    (s.pwr.wakeVigil = true → exec .vigilActivityWake s = .next (wake 1 s)) ∧ (s.pwr.wakeVigil = false → exec .vigilActivityWake s = .next s) ∧
    (s.pwr.wakePattern = true → exec .vigilWakePattern s = .next (wake 2 s)) ∧ (s.pwr.wakePattern = false → exec .vigilWakePattern s = .next s)) ∧
  (∀ (payload : List Byte) (s : State), s.pwr.state = .sleep → s.pwr.wakeEth = true → 12 ≤ payload.length →
    leN payload 0 8 = Config.serial.toNat → leN payload 8 4 = s.pwr.wakeKey.toNat →
    exec (.ethWakeFrame true s.pwr.wakeEtype payload) s = .next (wake 3 s) ∧ exec (.ethWakeFrame false s.pwr.wakeEtype payload) s = .next s) ∧
  (∀ (n : Fin 5) (s : State), (wake n s).host.opState = .boot ∧ (wake n s).pwr.cause = 16 ∧ (wake n s).pwr.wakeSrc = BitVec.ofNat 3 n)

/-- SUPPLIES (R540, R541, R543): the onset of a brownout withdraws SUPPLY on both sides, sets BROWNOUT_WARN and begins the hold; its end reports
event BROWNOUT, but not when the dip reached the reset level; stability 1 ms after that grants SUPPLY on Onyx's side; a core undervoltage latches trip 11. -/
def Claims.Supplies : Prop :=
  (∀ (mv : Nat) (s : State), 705 ≤ mv → exec (.brownoutWarn mv) s = .next { s with pwr := noteVcore mv s.pwr }) ∧
  (∀ (mv : Nat) (s : State), s.pwr.warnNow = false → mv < 705 → ∃ t, exec (.brownoutWarn mv) s = .next t ∧
    t.permits 3 = false ∧ t.onyx.permMain.getLsbD 2 = false ∧ t.onyx.permOnyx.getLsbD 2 = false ∧ t.pwr.brownout = true ∧ t.pwr.warnNow = true ∧
    t.pwr.coreStable = false ∧ t.pwr.brownouts = satAdd s.pwr.brownouts 1 ∧ t.pwr.vcore = mv ∧ t.pwr.vcoreMin = min s.pwr.vcoreMin mv) ∧
  (∀ (mv us : Nat) (s : State), s.pwr.warnNow = true → (s.pwr.uvHeld = true ∨ s.pwr.uvPending = true) → ∃ t, exec (.brownout mv us) s = .next t ∧
    OnlyChanges [.pwr] s t ∧ t.pwr.warnNow = false ∧ t.pwr.riseAt = some s.pos.mono) ∧
  (∀ (mv us : Nat) (s : State), s.pwr.warnNow = true → s.pwr.uvHeld = false → s.pwr.uvPending = false → ∃ t, exec (.brownout mv us) s = .next t ∧
    t = event { ev := .brownout, p0 := w32 mv, p1 := w32 us, always := true } { s with pwr := t.pwr } ∧
    t.pwr.warnNow = false ∧ t.pwr.brownout = s.pwr.brownout ∧ t.pwr.riseAt = some s.pos.mono) ∧
  (∀ (at_ : Dword) (s : State), s.pwr.riseAt = some at_ → s.aonDue at_ 1000000 = false → exec .coreStable s = .next s) ∧
  (∀ s : State, s.pwr.warnNow = false → s.pwr.inReset = false → (∀ t, s.pwr.riseAt = some t → s.aonDue t 1000000 = true) → ∃ t, exec .coreStable s = .next t ∧ t.pwr.coreStable = true ∧
    t.onyx.permOnyx.getLsbD 2 = true) ∧
  (∀ s : State, s.onyx.tripped = false → ∃ t, exec .coreUndervoltage s = .next t ∧ t.onyx.tripped = true ∧ t.onyx.cause = 11 ∧
    t.onyx.gateOpen = false ∧ t.pwr.uvPending = true ∧ t.pwr.coreStable = false ∧ t.host.firing = false)

/-- PowerAndSupplies: Claims.PowerStates and Claims.Supplies. -/
def Obligations.PowerAndSupplies : Prop := Claims.PowerStates ∧ Claims.Supplies

/-! ## Page data -/

/-- RING FETCHES (R111, R114 to R116, R130, R134): a write of RING_PROD sets it and, where the ring may fetch, asks for the 64 bytes at DESC_BASE + 64
× (index mod 2^SIZE_LOG2); space that comes free lets waiting rings fetch again; a descriptor arrives with the block table its checks let be read,
in requests of at most the maximum read request; one that fails a check halts its ring with DESC_ERROR, event and the check's code (a fetch that
fails halts it with code 1, the model's choice, log 14); one whose page does not fit waits with STORE_FULL, and one the 50 % rule of
R116 holds back waits without it; and one that fits becomes the last page, its blocks asked for. A halted ring has no fetch under way. -/
def Obligations.RingFetches : Prop :=
  (∀ (r : Fin 4) (v : Word) (s : State), mayFetch r (setRing r (fun g => { g with prod := v }) s) = true → s.pg.rings.length = 4 →
    ∃ t, exec (.ringProd r v) s = .next t ∧ OnlyChanges [.pg, .out] s t ∧ t.pg.descReq = s.pg.descReq ++ [(r.val, (s.pg.ring r).fetch)] ∧
      t.pg.ring r = { s.pg.ring r with prod := v } ∧ (∀ q, q ≠ r.val → t.pg.ring q = s.pg.ring q) ∧
      t.out = (readReqs s.host.maxRead ((s.pg.ring r).descBase.toNat + 64 * ((s.pg.ring r).fetch.toNat % 2 ^ (s.pg.ring r).sizeLog2)) 64).reverse ++
        s.out) ∧
  (∀ (r : Fin 4) (v : Word) (s : State), ((s.pg.ring r).halted = true ∨ (s.pg.ring r).enabled = false ∨ (s.pg.ring r).fetch = v) →
    s.pg.rings.length = 4 → exec (.ringProd r v) s = .next { s with pg := { s.pg with rings := upd s.pg.rings r fun g => { g with prod := v } } }) ∧
  (∀ s : State, s.pg.rings.length = 4 → ∃ t, exec .fetchResume s = .next t ∧ OnlyChanges [.pg, .out] s t ∧
    ∀ r, r < 4 → t.pg.ring r = { s.pg.ring r with waitSpace := false }) ∧
  (∀ (r : Fin 4) (idx : Word) (bytes table : List Byte) (desc : List Word) (blocks : List Blk) (s u : State),
    s.pg.descReq.find? (fun d => d.1 == r.val) = some (r.val, idx) → desc = bytesToWords bytes 0 16 → table.length = tableLen desc →
    blocks = tableOf desc table → u = readHost (wn64 desc 6) (tableLen desc) (dropFetch r s) →
    (∀ code, descCheck desc blocks s.pg.capacity = some code →
      exec (.descFetchDone r bytes table) s = .next (haltRing r code idx .descError u)) ∧
    (descCheck desc blocks s.pg.capacity = none →
      s.pg.used + (blocks.map fun b => if b.blank then 0 else b.len).sum > s.pg.capacity →
      ∃ t, exec (.descFetchDone r bytes table) s = .next (stickRec .storeFull t) ∧ OnlyChanges [.pg] u t ∧ t.pg.pages = s.pg.pages ∧
        (s.pg.rings.length = 4 → (t.pg.ring r).waitSpace = true)) ∧
    (∀ q : Page, q = { uid := s.pg.nextUid, ring := r.val, descIdx := idx, desc := desc, lines := wn desc 2
                       blocks := blocks.map fun b => { b with fetches := 1 } } →
      descCheck desc blocks s.pg.capacity = none →
      s.pg.used + (blocks.map fun b => if b.blank then 0 else b.len).sum ≤ s.pg.capacity → fetchRoom r (s.pg.used + q.sizeButLast) u = false →
      ∃ t, exec (.descFetchDone r bytes table) s = .next t ∧ OnlyChanges [.pg] u t ∧ t.pg.pages = s.pg.pages ∧
        (s.pg.rings.length = 4 → (t.pg.ring r).waitSpace = true)) ∧
    (∀ q : Page, q = { uid := s.pg.nextUid, ring := r.val, descIdx := idx, desc := desc, lines := wn desc 2
                       blocks := blocks.map fun b => { b with fetches := 1 } } →
      descCheck desc blocks s.pg.capacity = none →
      s.pg.used + (blocks.map fun b => if b.blank then 0 else b.len).sum ≤ s.pg.capacity → fetchRoom r (s.pg.used + q.sizeButLast) u = true →
      ∃ t p, exec (.descFetchDone r bytes table) s = .next t ∧ OnlyChanges [.pg, .out] s t ∧ t.pg.pages = s.pg.pages ++ [p] ∧
        p.ring = r.val ∧ p.descIdx = idx ∧ p.desc = desc ∧ p.started = false ∧ p.blocks.length = blocks.length ∧
        (s.pg.rings.length = 4 → (t.pg.ring r).fetch = (s.pg.ring r).fetch + 1))) ∧
  (∀ (r : Fin 4) (bytes table : List Byte) (s : State), table.length ≠ tableLen (bytesToWords bytes 0 16) → exec (.descFetchDone r bytes table) s = .next s) ∧
  (∀ (r : Fin 4) (idx : Word) (page : Option Nat) (s : State), s.pg.descReq.contains (r.val, idx) = true →
    exec (.dmaError r idx none page) s = .next (haltRing r 1 idx .descError (stickRec .dmaError s))) ∧
  (∀ (r : Fin 4) (code : Nat) (idx : Word) (ev : Ev) (s : State), s.pg.rings.length = 4 →
    (haltRing r code idx ev s).pg.ring r = { s.pg.ring r with halted := true, haltReason := code, sinceIrq := 0 } ∧
    (∀ d ∈ (haltRing r code idx ev s).pg.descReq, d.1 ≠ r) ∧ OnlyChanges [.host, .pg, .pers, .out] s (haltRing r code idx ev s))

/-- BLOCKS (R121, R124, R134): a fetched block that passes is stored; one that fails is fetched again, at most 3 fetches in all, then stored BAD
with BLOCK_BAD_INGEST (after an FLR has stopped DMA nothing is stored, R35); a stored block that decodes at print time is released, one that does not is fetched once more, and one that fails
again, or may not be fetched, is blanked with BLOCK_BLANKED and its page spoiled; a DMA error is one of these failures with DMA_ERROR set. -/
def Obligations.BlocksFetched : Prop :=
  (∀ (r : Fin 4) (idx : Word) (j : Nat) (bytes : List Byte) (p : Page) (b : Blk) (s : State), blkAt r idx j s = some (p, b) →
    b.blank = false → b.st = .wanted → s.host.busMaster = true →
    ((checkBlock b.idx (j % p.modules) p.format b.len bytes).isSome = true →
      exec (.blockFetchDone r idx j bytes) s = .next (advanceStored r s.pg.pages.length
        (setBlk p.uid j (fun b => { b with st := .good, data := bytes }) s))) ∧
    (checkBlock b.idx (j % p.modules) p.format b.len bytes = none → exec (.blockFetchDone r idx j bytes) s = .next (ingestFail p j b s)) ∧
    exec (.dmaError r idx (some j) none) s = .next (ingestFail p j b (stickRec .dmaError s))) ∧
  (∀ (r : Fin 4) (idx : Word) (j : Nat) (bytes : List Byte) (s : State), s.host.busMaster = false → exec (.blockFetchDone r idx j bytes) s = .next s) ∧
  (∀ (p : Page) (j : Nat) (b : Blk) (s : State), b.fetches < 3 → ingestFail p j b s = readHost b.addr.toNat b.len
    (setPage p.uid (fun p => { p with refetches := p.refetches + 1 }) (setBlk p.uid j (fun b => { b with fetches := b.fetches + 1 })
      (stickRec .blockRefetch s)))) ∧
  (∀ (p : Page) (j : Nat) (b : Blk) (s : State), 3 ≤ b.fetches → ∃ n, ingestFail p j b s = advanceStored p.ring n
    (stickEvent .blockBadIngest { ev := .blockFailed, p0 := w32 p.ring, p1 := b.idx, p2 := 1 }
      (setBlk p.uid j (fun b => { b with st := .bad }) (stickRec .blockRefetch s)))) ∧
  (∀ (u j : Nat) (p : Page) (b : Blk) (s : State), printBlk u j s = some (p, b) → b.dec = .decoding →
    ((checkBlock b.idx (j % p.modules) p.format b.len b.data).isSome = true →
      b.poison = false → exec (.topazBlockDecoded u j false) s = .next (setBlk u j (fun b => { b with dec := .released }) s)) ∧
    (∀ poisoned, poisoned = true ∨ b.poison = true ∨ checkBlock b.idx (j % p.modules) p.format b.len b.data = none →
      (p.earlyFree = true ∨ s.host.busMaster = false → exec (.topazBlockDecoded u j poisoned) s = .next (blankBlock p j b s)) ∧
      (p.earlyFree = false → s.host.busMaster = true → exec (.topazBlockDecoded u j poisoned) s = .next (readHost b.addr.toNat b.len
        (stickRec .blockRefetch (setPage u (fun p => { p with refetches := p.refetches + 1 })
          (setBlk u j (fun b => { b with dec := .refetching, poison := false }) s))))))) ∧
  (∀ (u j : Nat) (bytes : List Byte) (p : Page) (b : Blk) (s : State), printBlk u j s = some (p, b) → b.dec = .refetching →
    ((checkBlock b.idx (j % p.modules) p.format b.len bytes).isSome = true →
      exec (.topazRefetchDone u j bytes) s = .next (setBlk u j (fun b => { b with dec := .released, data := bytes }) s)) ∧
    (checkBlock b.idx (j % p.modules) p.format b.len bytes = none → exec (.topazRefetchDone u j bytes) s = .next (blankBlock p j b s)) ∧
    ∀ r idx, exec (.dmaError r idx (some j) (some u)) s = .next (blankBlock p j b (stickRec .dmaError s)))

/-- THE TOPAZ FORM (R117 to R119): the header and check value around its original make a STORED block pass its check and decode to that original, for
every format, module, index and number of lines that R109, R110 and R117 allow. -/
def Claims.StoredBlockDecodes : Prop :=
  ∀ (idx : Word) (module fmt lines lb : Nat) (data : List Byte), module < 16 → lineBytes fmt = some lb → 1 ≤ lines → lines ≤ maxBandLines fmt →
    data.length = lines * lb →
    checkBlock idx module fmt (data.length + 20) (wordBytes [0x00015A54, idx, w32 (lines + 256 * fmt + 65536 * module),
      w32 data.length] ++ data ++ bytesLE 4 (crc32 (bytesLE 4 idx.toNat ++ data))) = some data

/-- TOKENS (R118): what each kind of token puts out, and that a payload of LIT tokens decodes to the bytes they carry. -/
def Claims.TokensDecode : Prop :=
  (∀ (lb n : Nat) (out data rest : List Byte), n < 64 → data.length = n + 1 →
    tokenStep lb out (BitVec.ofNat 8 n :: (data ++ rest)) = some (data.reverse ++ out, rest)) ∧
  (∀ (lb n : Nat) (v : Byte) (out rest : List Byte), n < 64 →
    tokenStep lb out (BitVec.ofNat 8 (64 + n) :: v :: rest) = some (List.replicate (n + 3) v ++ out, rest)) ∧
  (∀ (lb n : Nat) (out rest : List Byte), n < 64 → tokenStep lb out (BitVec.ofNat 8 (128 + n) :: rest) = some (copyUp lb (n + 1) out, rest)) ∧
  (∀ (lb n : Nat) (v : Byte) (out rest : List Byte), n < 32 →
    tokenStep lb out (BitVec.ofNat 8 (192 + n) :: v :: rest) = some (List.replicate ((n + 1) * 64) v ++ out, rest)) ∧
  (∀ (lb n : Nat) (out rest : List Byte), n < 32 → tokenStep lb out (BitVec.ofNat 8 (224 + n) :: rest) = some (copyUp lb ((n + 1) * 64) out, rest)) ∧
  (∀ (lb n i : Nat) (out : List Byte), 0 < lb → i < out.length + n →
    (copyUp lb n out).reverse.getD i 0 = if i < out.length then out.reverse.getD i 0 else if i < lb then 0 else (copyUp lb n out).reverse.getD (i - lb) 0) ∧
  (∀ (lb : Nat) (chunks : List (List Byte)), (∀ c ∈ chunks, 1 ≤ c.length ∧ c.length ≤ 64) → ∀ fuel, chunks.length ≤ fuel →
    decodeTokens lb chunks.flatten.length fuel [] (chunks.flatMap fun c => BitVec.ofNat 8 (c.length - 1) :: c) = some chunks.flatten)

/-- BlockDecoding: Claims.StoredBlockDecodes and Claims.TokensDecode. -/
def Obligations.BlockDecoding : Prop := Claims.StoredBlockDecodes ∧ Claims.TokensDecode

/-- THE PAGE COMMANDS (R114, R125 to R127, R129, R135): each one's answer and effect where its conditions hold; PD_RING_RESET answers once the
records of the pages it discards are written, and a reprint is placed before the page named. -/
def Obligations.PageCommands : Prop :=
  (∀ k c s, Rung 0x0300 7 k c s → ∀ r, r = fld (c.w 0) 0 2 → c.w 0 &&& ~~~ 0x103 = 0 → (c.w 1).toNat % 4096 = 0 → (c.w 4).toNat % 4096 = 0 →
    4 ≤ (c.w 3).toNat → (c.w 3).toNat ≤ 12 → (c.w 6).toNat < 256 → (s.pg.ring r).inForce = false → (s.pg.ring r).fetch = (s.pg.ring r).done →
    s.pg.rings.length = 4 →
    ∃ t, exec (.pdRingConfig k) s = .next (respond k ok t) ∧ OnlyChanges [.pg] (begun k s) t ∧ (∀ q, q ≠ r → t.pg.ring q = s.pg.ring q) ∧
      t.pg.ring r = { s.pg.ring r with
        prod := 0, fetch := 0, stored := 0, done := 0, enabled := flag (c.w 0) 8, descBase := c.w 2 ++ c.w 1, sizeLog2 := (c.w 3).toNat
        recordBase := c.w 5 ++ c.w 4, irqCount := (c.w 6).toNat, sinceIrq := 0, waitSpace := false }) ∧
  (∀ k c s, Rung 0x0301 1 k c s → (c.w 0).toNat < 4 → pageInProgress (c.w 0).toNat s = false → s.pg.rings.length = 4 →
    ∃ t, OnlyChanges [.host, .pg, .out] (begun k s) t ∧ (t.pg.ring (c.w 0).toNat).halted = false ∧ (t.pg.ring (c.w 0).toNat).haltReason = 0 ∧
      (∀ p ∈ t.pg.pages, p.ring = (c.w 0).toNat → p.started = true ∨ p.notPrinted = true ∨ p.recorded = true) ∧
      (discarding (c.w 0).toNat t = false → exec (.pdRingReset k) s = .next (respond k ok t)) ∧
      (discarding (c.w 0).toNat t = true → exec (.pdRingReset k) s =
        .next { t with pg := { t.pg with resets := t.pg.resets ++ [(k.val, (c.w 0).toNat)] } }) ∧
      ((∀ p ∈ s.pg.pages, p.ring = (c.w 0).toNat → p.recorded = true) → discarding (c.w 0).toNat t = false)) ∧
  (∀ k c s p, Rung 0x0302 3 k c s → (c.w 0).toNat < 4 → retainedPage (c.w 0).toNat (c.w 1) (c.w 2) s = some p →
    exec (.pdPageRelease k) s = .next (respond k ok { begun k s with pg := { s.pg with pages := s.pg.pages.filter fun x => x.uid != p.uid } })) ∧
  (∀ k c s, Rung 0x0302 3 k c s → (c.w 0).toNat < 4 → retainedPage (c.w 0).toNat (c.w 1) (c.w 2) s = none →
    exec (.pdPageRelease k) s = .next (respond k (badParam 1) (begun k s))) ∧
  (∀ k c s p, Rung 0x0303 3 k c s → (c.w 0).toNat < 4 →
    s.pg.pages.find? (fun p => p.retained && p.ring == (c.w 0).toNat && p.number == c.w 1 && p.epoch == s.cg.epochNow) = some p →
    (∃ q ∈ s.pg.pages, q.ring = (c.w 0).toNat ∧ q.number = c.w 2 ∧ q.reprint = false ∧ q.started = false ∧ q.recorded = false) →
    s.pg.used + p.size ≤ s.pg.capacity →
    ∃ t q, exec (.pdReprint k) s = .next (respond k ok t) ∧ OnlyChanges [.pg] (begun k s) t ∧
      t.pg.pages = insertBefore q (c.w 2) s.pg.pages ∧ q.reprint = true ∧ q.started = false ∧ q.number = p.number ∧ q.descIdx = p.descIdx ∧
      q.ring = (c.w 0).toNat ∧ q.before = some (c.w 2)) ∧
  (∀ k c s, Rung 0x0304 0 k c s → exec (.pdStoreInfo k) s = .next (respond k (okWith (words64 s.pg.capacity ++ words64 s.pg.used ++
    words64 ((s.pg.pages.filter (·.retained)).map Page.size).sum ++
    (List.range 4).map fun r => w32 (countIf s.pg.pages fun p => p.ring == r && p.stored && !p.started && !p.recorded))) (begun k s)))

/-! ## Check values -/

/-- THE NAMED CRCS (R131): the three parameter sets, and their results over "123456789" with no tag. -/
def Obligations.CheckValues : Prop :=
  (∀ (bs : List Byte), crc32 bs = crc 32 0x04C11DB7 0xFFFFFFFF true true 0xFFFFFFFF bs ∧
    crc32c bs = crc 32 0x1EDC6F41 0xFFFFFFFF true true 0xFFFFFFFF bs ∧ crc16 bs = crc 16 0x1021 0xFFFF false false 0x0000 bs) ∧
  crc32 [0x31, 0x32, 0x33, 0x34, 0x35, 0x36, 0x37, 0x38, 0x39] = 0xCBF43926 ∧
  crc32c [0x31, 0x32, 0x33, 0x34, 0x35, 0x36, 0x37, 0x38, 0x39] = 0xE3069283 ∧
  crc16 [0x31, 0x32, 0x33, 0x34, 0x35, 0x36, 0x37, 0x38, 0x39] = 0x29B1

/-- CONTEXT WRITES (R132, R133, R135): CV_START, the data registers and CV_VALUE act on an enabled context that is not BUSY and on nothing else; a
disabled one ignores them; a BUSY one discards them with CV_CONFLICT; a computation of CV_COMPUTE feeds the bytes read and completes with
CV_RESULT. -/
def Claims.ContextWrites : Prop :=
  (∀ (k : Fin 4) (s : State), (s.pg.ctx k).busy = none → (s.pg.ctx k).disabled = false →
    exec (.cvStart k) s = .next (setCtx k CvCtx.start s) ∧
    (∀ v, exec (.cvData k v) s = .next (setCtx k (fun c => c.feed (bytesLE 4 v.toNat)) s)) ∧
    (∀ lo up, find? s.host.woLow (cvOffset k 0x48) = some lo →
      exec (.cvData64 k up) s = .next (setCtx k (fun c => c.feed (bytesLE 4 lo.toNat ++ bytesLE 4 up.toNat)) s)) ∧
    (∀ v, exec (.cvData8 k v) s = .next (setCtx k (fun c => c.feed [v]) s)) ∧
    (∀ v, exec (.cvValueWrite k v) s = .next (setCtx k (fun c => { c with value := c.put c.value v }) s))) ∧
  (∀ (k : Fin 4) (s : State), (s.pg.ctx k).busy = none → (s.pg.ctx k).disabled = true →
    exec (.cvStart k) s = .next s ∧ (∀ v, exec (.cvData k v) s = .next s) ∧ (∀ v, exec (.cvData64 k v) s = .next s) ∧
    (∀ v, exec (.cvData8 k v) s = .next s) ∧ (∀ v, exec (.cvValueWrite k v) s = .next s)) ∧
  (∀ (k : Fin 4) (s : State), (s.pg.ctx k).busy.isSome = true →
    exec (.cvStart k) s = .next (stickRec .cvConflict s) ∧ (∀ v, exec (.cvData k v) s = .next (stickRec .cvConflict s)) ∧
    (∀ v, exec (.cvData64 k v) s = .next (stickRec .cvConflict s)) ∧ (∀ v, exec (.cvData8 k v) s = .next (stickRec .cvConflict s)) ∧
    (∀ v, exec (.cvValueWrite k v) s = .next (stickRec .cvConflict s))) ∧
  (∀ k c s, Rung 0x0305 4 k c s → (c.w 0).toNat < 4 → (s.pg.ctx (c.w 0).toNat).disabled = false → (s.pg.ctx (c.w 0).toNat).busy = none →
    c.w 3 ≠ 0 → s.host.outst.length < 16 →
    ∃ t, exec (.cvCompute k) s = .next (respond k accepted t) ∧ OnlyChanges [.host, .pg, .out] (begun k s) t ∧
      t.out = (readReqs s.host.maxRead (wn64 c.payload 1) (c.w 3).toNat).reverse ++ s.out ∧
      t.pg = (setCtx (c.w 0).toNat (fun x => { x with busy := some (c.tag, c.w 2 ++ c.w 1, c.w 3), stopped := false }) s).pg) ∧
  (∀ (k : Fin 4) (bytes : List Byte) (tag : Word) (a : Dword) (n : Word) (u : CvCtx) (s : State), (s.pg.ctx k).busy = some (tag, a, n) →
    u = { (s.pg.ctx k).feed bytes with busy := none, stopped := false } →
    ((s.pg.ctx k).stopped = false → bytes.length = n.toNat → exec (.cvComputeDone k bytes) s =
      .next (complete 0x0305 tag 0 (w32 u.result) (w32 (u.result >>> 32)) 0 (setCtx k (fun _ => u) s))) ∧
    ((s.pg.ctx k).stopped = true → bytes.length ≤ n.toNat → exec (.cvComputeDone k bytes) s =
      .next (complete 0x0305 tag 0x30 (w32 bytes.length) 0 0 (setCtx k (fun _ => u) s))))

/-- WHAT A CONTEXT COMPUTES (R131 to R133, R135): data fed in parts gives what it gives in one, so computations chain; the context as after reset,
started, gives CRC-32 of what it is fed; and with the block index as a tag of 4 bytes it gives a Topaz block's CHECK. -/
def Claims.ContextsCompute : Prop :=
  (∀ (c : CvCtx) (a b : List Byte), c.width ≤ 64 → (c.feed a).feed b = c.feed (a ++ b)) ∧
  (∀ bs : List Byte, ((CvCtx.start {}).feed bs).result = crc32 bs) ∧
  (∀ (idx : Word) (bs : List Byte),
    ((CvCtx.start { tag := idx.setWidth 64, tagBytes := 4 }).feed bs).result = crc32 (bytesLE 4 idx.toNat ++ bs)) ∧
  (∀ c : CvCtx, c.disabled = true → c.result = 0)

/-- CheckValueContexts: Claims.ContextWrites and Claims.ContextsCompute. -/
def Obligations.CheckValueContexts : Prop := Claims.ContextWrites ∧ Claims.ContextsCompute

/-! ## Commit groups -/

/-- OPENING, STAGING AND RELEASING (R83, R84, R99, R101, R103 to R105): CG_OPEN opens the lowest EMPTY slot under the next handle, which is never
0, or answers NO_RESOURCE; CG_STAGE is accepted for an OPEN, VALID or ABORTED group named by its handle, and fetches the object; the
object that arrives whole and with the right CRC joins the group, which is OPEN; any other end leaves the group as it was; CG_RELEASE empties the
slot, its handle and its last abort cause still readable. -/
def Claims.GroupStaging : Prop :=
  (∀ k c s g, Rung 0x0200 0 k c s → s.host.opState ≠ .boot → s.cg.groups.length = 4 → g < 4 → (s.cg.group g).st = .empty →
    (∀ j, j < g → (s.cg.group j).st ≠ .empty) →
    ∃ t h, exec (.cgOpen k) s = .next (respond k (okWith [w32 g, h]) t) ∧ OnlyChanges [.cg] (begun k s) t ∧
      h = (if s.cg.handleCtr = 0xFFFFFFFF then 1 else s.cg.handleCtr + 1) ∧ h ≠ 0 ∧ t.cg.group g = { st := .opened, handle := h } ∧
      (∀ j, j ≠ g → t.cg.group j = s.cg.group j) ∧ t.cg.inForce = s.cg.inForce) ∧
  (∀ k c s, Rung 0x0200 0 k c s → s.host.opState ≠ .boot → (∀ j, j < 4 → (s.cg.group j).st ≠ .empty) →
    exec (.cgOpen k) s = .next (respond k noResource (begun k s))) ∧
  (∀ k c s g, Rung 0x0201 7 k c s → (c.w 0).toNat = g → g < 4 → c.w 1 = (s.cg.group g).handle → (s.cg.group g).running = false →
    ((s.cg.group g).st = .opened ∨ (s.cg.group g).st = .valid ∨ (s.cg.group g).st = .aborted) → 1 ≤ (c.w 2).toNat % 256 → (c.w 2).toNat % 256 ≤ 13 →
    (c.w 2).toNat < 65536 → (c.w 3).toNat % 8 = 0 → s.host.outst.length < 16 → s.cg.groups.length = 4 →
    ∃ t, exec (.cgStage k) s = .next (respond k accepted t) ∧ OnlyChanges [.host, .cg, .out] (begun k s) t ∧
      t.cg.group g = { s.cg.group g with
        stage := some { tag := c.tag, kind := (c.w 2).toNat % 256, target := (c.w 2).toNat / 256, len := (c.w 5).toNat, crc := c.w 6 } } ∧
      t.out = (readReqs s.host.maxRead (wn64 c.payload 3) (c.w 5).toNat).reverse ++ s.out ∧ t.cg.inForce = s.cg.inForce) ∧
  (∀ (g : Fin 4) (j : StageJob) (bytes : List Byte) (objs : List Obj) (u : Group) (s : State), (s.cg.group g).stage = some j → s.cg.groups.length = 4 →
    objs = insertObj { kind := j.kind, target := j.target, bytes := bytes } (s.cg.group g).objs →
    u = { s.cg.group g with stage := none, objs := objs, bad := (s.cg.group g).bad.filter (· != (j.kind, j.target)), st := .opened, digest := 0 } →
    (bytes.length = j.len → crc32 bytes = j.crc.toNat → objs.length ≤ 128 → stagedTotal (setGroup g (fun _ => u) s) ≤ 67108864 →
      exec (.cgStageDone g (some bytes)) s = .next (complete 0x0201 j.tag 0 (w32 objs.length) (w32 u.size)
        (w32 (stagedTotal (setGroup g (fun _ => u) s))) (setGroup g (fun _ => u) s))) ∧
    (bytes.length = j.len → crc32 bytes ≠ j.crc.toNat → exec (.cgStageDone g (some bytes)) s =
      .next (complete 0x0201 j.tag 0x41 0 0 0 (setGroup g (fun x => { x with stage := none }) s))) ∧
    exec (.cgStageDone g none) s = .next (complete 0x0201 j.tag 0x30 0 0 0 (setGroup g (fun x => { x with stage := none }) s))) ∧
  (∀ k c s g, Rung 0x0205 2 k c s → (c.w 0).toNat = g → g < 4 → c.w 1 = (s.cg.group g).handle → (s.cg.group g).running = false →
    ((s.cg.group g).st = .opened ∨ (s.cg.group g).st = .valid ∨ (s.cg.group g).st = .committed ∨ (s.cg.group g).st = .aborted) →
    exec (.cgRelease k) s = .next (respond k ok (setGroup g Group.released (begun k s))))

/-- VALIDATION (R83, R85, R86, R106, R581): CG_VALIDATE of an OPEN group is accepted, and its end gives the group VALID with its digest, or leaves it
OPEN with the reason, position and subcode of the first check that fails; an empty group fails with reason 10; and staging again takes VALID
away. -/
def Claims.GroupValidation : Prop :=
  (∀ k c s g, Rung 0x0202 2 k c s → (c.w 0).toNat = g → g < 4 → c.w 1 = (s.cg.group g).handle → (s.cg.group g).running = false →
    (s.cg.group g).st = .opened → s.host.outst.length < 16 →
    ∃ t, exec (.cgValidate k) s = .next (respond k accepted t) ∧ OnlyChanges [.host, .cg] (begun k s) t ∧
      (s.cg.groups.length = 4 → t.cg.group g = { s.cg.group g with validTag := some c.tag }) ∧
      t.host.outst = s.host.outst ++ [{ tag := c.tag, opcode := 0x0202, ref := g }]) ∧
  (∀ (g : Fin 4) (tag : Word) (s : State), (s.cg.group g).validTag = some tag → s.cg.groups.length = 4 →
    (checkGroup (s.cg.group g).ownerCal (s.cg.group g).objs s.cg.inForce s = none →
      exec (.cgValidateDone g) s = .next (complete 0x0202 tag 0 (groupDigest (s.cg.group g).objs) 0 0
        (setGroup g (fun x => { x with validTag := none, st := .valid, digest := groupDigest (s.cg.group g).objs }) s))) ∧
    (∀ r i sub, checkGroup (s.cg.group g).ownerCal (s.cg.group g).objs s.cg.inForce s = some (r, i, sub) →
      exec (.cgValidateDone g) s = .next (complete 0x0202 tag 0x20 (w32 r) (w32 i) (w32 sub)
        (setGroup g (fun x => { x with validTag := none }) s)))) ∧
  (∀ own base s, checkGroup own [] base s = some (10, 0xFFFFFFFF, 0)) ∧
  (∀ own objs base s r i sub, checkGroup own objs base s = some (r, i, sub) → objs ≠ [] →
    i < objs.length ∧ ∀ j, j < i → ∀ o, objs[j]? = some o → sizeOk o.kind o.bytes.length = true ∧ targetOk o.kind o.target = true)

/-- GroupsStagedAndValidated: Claims.GroupStaging and Claims.GroupValidation. -/
def Obligations.GroupsStagedAndValidated : Prop := Claims.GroupStaging ∧ Claims.GroupValidation

/-- ARMING AND ABORTING (R87 to R92, R103, R107): CG_ARM of a VALID or ABORTED group with the right handle is accepted: LINE sets the line given,
at least 65 lines ahead of the line index; IMMEDIATE on a moving web the line 65 ahead of it; TIME leaves it open; another epoch answers LATE, and so does a line
too near, its two comparators then late too (R334); CG_ABORT of an ARMED group
aborts it with cause 1, its CG_ARM completes with BAD_STATE, its objects stay, and the state in force is untouched. -/
def Claims.GroupArming : Prop :=
  (∀ k c s (g : Nat), Rung 0x0203 6 k c s → fld (c.w 0) 0 2 = g → c.w 0 &&& ~~~ 0x333 = 0 → c.w 1 = (s.cg.group g).handle → (s.cg.group g).running = false →
    ((s.cg.group g).st = .valid ∨ (s.cg.group g).st = .aborted) → s.host.outst.length < 16 → s.cg.groups.length = 4 →
    (s.cg.group g).ownerCal = false →
    (fld (c.w 0) 4 2 = 0 → c.w 2 = s.cg.epochNow → lineIndex s + 65 ≤ (c.w 3).toNat → topLine s < (c.w 3).toNat → overlaps g (absOf (c.w 3) s) s = false →
      ∃ t, exec (.cgArm k) s = .next (respond k accepted t) ∧ (t.cg.group g).st = .armed ∧ (t.cg.group g).line = some (c.w 3) ∧
        (t.cg.group g).abs = s.cg.imgKeyEpoch + (c.w 3).toNat ∧ (t.cg.group g).armTag = some c.tag ∧ (t.cg.group g).objs = (s.cg.group g).objs ∧
        (t.cg.group g).persist = flag (c.w 0) 9 ∧ (t.cg.group g).policy = flag (c.w 0) 8 ∧ t.cg.inForce = s.cg.inForce) ∧
    (fld (c.w 0) 4 2 = 0 → c.w 2 ≠ s.cg.epochNow → exec (.cgArm k) s = .next (respond k late (begun k s))) ∧
    (fld (c.w 0) 4 2 = 0 → c.w 2 = s.cg.epochNow → ((c.w 3).toNat < lineIndex s + 65 ∨ (c.w 3).toNat ≤ topLine s) →
      exec (.cgArm k) s = .next (respond k late (lateCmps g (absOf (c.w 3) s) (begun k s)))) ∧
    (fld (c.w 0) 4 2 = 1 → s.pos.tState.valid = true → s.pos.netNow ≤ wn64 c.payload 4 →
      ∃ t, exec (.cgArm k) s = .next (respond k accepted t) ∧ (t.cg.group g).st = .armed ∧ (t.cg.group g).line = none ∧
        (t.cg.group g).time = c.w 5 ++ c.w 4 ∧ (t.cg.group g).armTag = some c.tag ∧ t.cg.inForce = s.cg.inForce) ∧
    (fld (c.w 0) 4 2 = 2 → s.cg.webStopped = false → overlaps g (s.pos.absHigh + max 1 (65 - linesBack s)) s = false →
      ∃ t, exec (.cgArm k) s = .next (respond k accepted t) ∧ (t.cg.group g).st = .armed ∧
        (t.cg.group g).line = some (wInt (lineIndex s + 65)) ∧ (t.cg.group g).abs = s.pos.absHigh + max 1 (65 - linesBack s) ∧ t.cg.inForce = s.cg.inForce)) ∧
  (∀ k c s g, Rung 0x0204 2 k c s → (c.w 0).toNat = g → g < 4 → c.w 1 = (s.cg.group g).handle → (s.cg.group g).running = false →
    ((s.cg.group g).st = .armed → exec (.cgAbort k) s = .next (respond k ok (abortGroup g 1 (begun k s)))) ∧
    (((s.cg.group g).st = .locked ∨ (s.cg.group g).st = .committed) → exec (.cgAbort k) s = .next (respond k late (begun k s)))) ∧
  (∀ (g cause : Nat) (s : State), (s.cg.group g).st = .armed → g < 4 → s.cg.groups.length = 4 → (s.cg.group g).ownerCal = false →
    ((abortGroup g cause s).cg.group g).st = .aborted ∧ ((abortGroup g cause s).cg.group g).abortCause = cause ∧
    ((abortGroup g cause s).cg.group g).objs = (s.cg.group g).objs ∧ (abortGroup g cause s).cg.inForce = s.cg.inForce ∧
    (∀ j, j ≠ g → (abortGroup g cause s).cg.group j = s.cg.group j)) ∧
  (∀ (g cause : Nat) (s : State), (s.cg.group g).st ≠ .armed → abortGroup g cause s = s)

/-- THE LOCK LINE (R88, R89, R90, R92, R94, R95): an ARMED group whose lock line has come, with its loads complete and its checks passing, locks where
no peer has a say or the ACTIVE role unit finds the peer's record the same; a STANDBY role unit waits; a group that fails its checks, an
overlap with another armed group of the line among them, aborts with the cause; and the page starts that waited for the lock are decided then. A web has
stopped once no boundary has come for 1 ms, no line fires from then on, and orders that waited for the lines' end take effect; on a stopped web a group takes effect at once when its loads are complete; and a STANDBY role unit without a decision 48 lines ahead
aborts with cause 6 and becomes unsynchronised. -/
def Claims.GroupLocking : Prop :=
  (∀ (g : Fin 4) (s : State), (s.cg.group g).st = .armed → (s.cg.group g).line.isSome = true → (s.cg.group g).abs + linesBack s ≤ s.pos.absHigh + 64 →
    s.pos.absHigh < (s.cg.group g).abs →
    (lockCause g s = none → withPeer s = false → exec (.cgLockLine g) s = .next (pageDecisions s.pos.absHigh (lockGroup g s))) ∧
    (lockCause g s = none → withPeer s = true → (s.cg.group g).joinGroup = false → s.twin.role = .standby → exec (.cgLockLine g) s =
      .next (pageDecisions s.pos.absHigh s)) ∧
    (lockCause g s = none → withPeer s = true → s.twin.role = .active → (∃ r ∈ s.cg.peerArms, recMatches r (s.cg.group g) = true) →
      exec (.cgLockLine g) s = .next (pageDecisions s.pos.absHigh (lockGroup g s))) ∧
    (∀ cause, lockCause g s = some cause → exec (.cgLockLine g) s = .next (pageDecisions s.pos.absHigh (failLock g cause s))) ∧
    (s.twin.role = .standby → withPeer s = true → (s.cg.group g).joinGroup = false → (s.cg.group g).abs ≤ s.pos.absHigh + 48 →
      exec (.cgDecisionDeadline g) s = .next (unsync 3 (abortGroup g 6 s)))) ∧
  (∀ (g : Fin 4) (s : State), s.cg.groups.length = 4 → ((lockGroup g s).cg.group g).st = .locked ∧ (lockGroup g s).cg.inForce = s.cg.inForce ∧
    ((lockGroup g s).cg.group g).objs = (s.cg.group g).objs) ∧
  (∀ (g : Fin 4) (s : State), ((∃ o ∈ (s.cg.group g).objs, (o.kind, o.target) ∈ (s.cg.group g).bad) → lockCause g s = some 10) ∧
    ((s.cg.group g).bad = [] → s.host.firing = false → loadsDone g s = false ∨ overlapsAtLock g s = true → lockCause g s = some 9)) ∧
  (∀ s u : State, quietWeb s = true → u = { s with cg := { s.cg with webStopped := true } } →
    (s.fire.spit.isSome = true → exec .webStopped s = .next u) ∧
    (s.fire.spit = none → exec .webStopped s = .next (wdogStep (resetStopStep (opReqStep (stopFiring u)))))) ∧
  (∀ (t : Dword) (l : List Dword) (s : State), s.fire.bTimes = t :: l → s.pos.mono.toNat < t.toNat + 1000000 → exec .webStopped s = .next s) ∧
  (∀ (g : Fin 4) (s : State), (s.cg.group g).st = .armed → (s.cg.group g).stopped = true → (s.cg.group g).line = none → loadsDone g s = true →
    (s.cg.webStopped = false → exec (.cgLoadsComplete g) s = .next (clearCal g (resolve g 65 s))) ∧
    (s.cg.webStopped = true → exec (.cgLoadsComplete g) s = .next (commitStopped g s))) ∧
  (∀ (g : Fin 4) (s : State), (s.cg.group g).st = .armed → (s.cg.group g).trigger = 1 → (s.cg.group g).line = none → s.cg.webStopped = true →
    (s.cg.group g).time.toNat ≤ s.pos.netNow →
    (loadsDone g s = true → exec (.cgTimeReachedStopped g) s = .next (commitStopped g s)) ∧
    (loadsDone g s = false → exec (.cgTimeReachedStopped g) s = .next (setGroup g (fun x => { x with stopped := true }) s)))

/-- GroupsArmedAndLocked: Claims.GroupArming and Claims.GroupLocking. -/
def Obligations.GroupsArmedAndLocked : Prop := Claims.GroupArming ∧ Claims.GroupLocking

/-- THE LINE BOUNDARY AND THE COMMIT (R11, R27, R79, R80, R83, R93, R204, R327): where the position has passed into a new line the comparisons of that sample are made
where the line starts a job, the line index moves on by one, the groups LOCKED for that line take effect together, and what the line starts follows; CG_COMMIT is such a boundary of a line with a
LOCKED group; a spit run's clock begins lines in its place, 1/RATE after the last; and before the boundary the state in force does not change. The groups
that take effect are COMMITTED and their objects are in force, the others' stay. -/
def Obligations.LineBoundaries : Prop :=
  (∀ (x : Samples) (s u v w : State) (B : Nat), u = mainUpdate (advance x s) → B = u.pos.absHigh + 1 →
    (startsJob B u = true → v = fireDue u) → (startsJob B u = false → v = u) → v.pos.absHigh = u.pos.absHigh →
    w = { v with pos := { addCorr v.pos with high := v.pos.high + 1, absHigh := B } } →
    (boundaryDue u.pos = true → u.fire.spit = none →
      ∃ t, exec (.lineBoundary x) s = .next t ∧ t = boundaryCore B (commitAt B true (lockedAt B w) w) ∧
        (lockedAt B u ≠ [] → exec (.cgCommit x) s = .next t)) ∧
    (addCorr v.pos).acc = v.pos.acc + BitVec.ofInt 80 v.pos.corr ∧ (addCorr v.pos).corr = 0 ∧ (addCorr v.pos).corrOn = false ∧
    (boundaryDue u.pos = false ∨ u.fire.spit.isSome = true → exec (.lineBoundary x) s = .next u ∧ exec (.cgCommit x) s = .next u) ∧
    (u.fire.spit = none → exec (.spitLine x) s = .next u) ∧
    (∀ j, u.fire.spit = some j → (1000000000 ≤ (u.pos.mono - j.tick).toNat * j.rate → exec (.spitLine x) s = .next (spitTick u)) ∧
      ((u.pos.mono - j.tick).toNat * j.rate < 1000000000 → exec (.spitLine x) s = .next u))) ∧
  (∀ (lc : Nat) (moving : Bool) (s : State), commitAt lc moving [] s = s) ∧
  (∀ (lc g : Nat) (moving : Bool) (s : State), g < 4 → s.cg.groups.length = 4 → (s.cg.group g).st = .locked → (s.cg.group g).ownerCal = false →
    (s.cg.group g).persist = false → (∀ o ∈ (s.cg.group g).objs, o.kind = 5 ∨ o.kind = 6) →
    (commitAt lc moving [g] s).cg.inForce = mergeObjs ((s.cg.group g).objs.filter fun o => o.kind != 2) s.cg.inForce ∧
    ((commitAt lc moving [g] s).cg.group g).st = .committed ∧ ((commitAt lc moving [g] s).cg.group g).objs = [] ∧
    (∀ j, j ≠ g → ((commitAt lc moving [g] s).cg.group j).st = (s.cg.group j).st) ∧ (commitAt lc moving [g] s).cg.epochNow = s.cg.epochNow)

/-! ## Tone, screening and rows -/

/-- TONE AND SCREENING (R141, R144, R145, R148, R152, R153): the ends of the expansion; a curve passes through its knots, stays between the two of
its segment, and without an object is the identity; a threshold of 0x3FFFF is never met; and over a cell that the content check accepts, more tone never gives
a smaller drop. -/
def Obligations.ToneAndScreening : Prop :=
  expandTone false 0 = 0 ∧ expandTone false 255 = 0x20000 ∧ expandTone true 0 = 0 ∧ expandTone true 65535 = 0x20000 ∧
  (∀ (w : Bool) (a b : Nat), a ≤ b → expandTone w a ≤ expandTone w b) ∧
  (∀ (K : Nat → Nat) (j : Nat), j ≤ 16 → curve K (8192 * j) = K j) ∧
  (∀ (K : Nat → Nat) (t : Nat), t < 0x20000 → min (K (t / 8192)) (K (t / 8192 + 1)) ≤ curve K t ∧ curve K t ≤ max (K (t / 8192)) (K (t / 8192 + 1))) ∧
  (∀ (objs : List Obj) (m k t : Nat), objOf objs 3 m = none → t ≤ 0x20000 → curve (knot objs m k) t = t) ∧
  (∀ t, met t 0x3FFFF = false) ∧
  (∀ c t t' : Nat, bits c 0 18 ≤ bits c 18 18 → bits c 18 18 ≤ bits c 36 18 → t ≤ t' → screenCode c t ≤ screenCode c t')

/-- ROW CHOICE (R158 to R163): a drop that is placed goes to a row whose nozzle is live, whose fire line no drop of the column has claimed, and which
fired at least k_c lines earlier, namely the preferred one where it is eligible; it claims that fire line; where a row among those in use is
eligible the drop is placed, unless NO_TAKEOVER; otherwise nothing changes but the outcome noted. -/
def Claims.RowChoice : Prop :=
  ∀ (x : RowCtx) (rs : RowSt) (k code : Nat) (lr : List Nat) (kk idx : Nat) (noTake : Bool), code ≠ 0 → noTake = flag (policyWord x.objs) 5 →
    lr = liveRows x.objs x.rows x.m k → kk = (if noTake then x.rows else lr.length) →
    idx = (x.n + fld (policyWord x.objs) 0 2 * (x.m * colsPer + k) + b2n (flag (policyWord x.objs) 4) * x.p) % kk →
    (((placeDrop x rs k code).drops = rs.drops ∧ (placeDrop x rs k code).claims = rs.claims ∧ (placeDrop x rs k code).last = rs.last) ∨
      ∃ r, placeDrop x rs k code = takeRow x rs k r code none ∧ eligible x rs k kk r = true ∧ liveNozzle x.objs x.m k r = true ∧
        (∀ i, (x.m * colsPer + k, x.L + dInt x.d x.m r, i) ∉ rs.claims)) ∧
    (noTake = false → kk ≠ 0 → eligible x rs k kk (cell lr idx 0) = true →
      placeDrop x rs k code = takeRow x rs k (cell lr idx 0) code none) ∧
    (noTake = false → (∃ r ∈ lr, eligible x rs k kk r = true) → (placeDrop x rs k code).drops.length = rs.drops.length + 1) ∧
    (noTake = true → kk ≠ 0 → eligible x rs k kk idx = true → placeDrop x rs k code = takeRow x rs k idx code none) ∧
    (lr = [] → noTake = false → (placeDrop x rs k code).outs = (k, 4, 0, 0) :: rs.outs)

/-- NO TWO DROPS OF A COLUMN SHARE A FIRE LINE (R160, R161, R165): every placement keeps the claims of the row choice, as pairs of column and fire line,
without a repeat, whatever the tones and the objects in force; so do the drops of a probe. -/
def Claims.ClaimsDistinct : Prop :=
  (∀ (x : RowCtx) (rs : RowSt) (codes : List Nat), (rs.claims.map fun y => (y.1, y.2.1)).Nodup →
    ((codes.zipIdx.foldl (fun rs (code, k) => placeDrop x rs k code) rs).claims.map fun y => (y.1, y.2.1)).Nodup) ∧
  (∀ (x : RowCtx) (rs : RowSt) (k r code : Nat), (rs.claims.map fun y => (y.1, y.2.1)).Nodup →
    ((placeProbe x rs k r code).claims.map fun y => (y.1, y.2.1)).Nodup)

/-- RowsAndClaims: Claims.RowChoice and Claims.ClaimsDistinct. -/
def Obligations.RowsAndClaims : Prop := Claims.RowChoice ∧ Claims.ClaimsDistinct

/-- ROW-STATE RECORDS (R168, R175): a column's record of 136 bytes, loaded at the line it was captured for, gives back every claim of the 1,024
fire lines from there and every LAST_FIRE within 32,767 lines. -/
def Obligations.RowStateRoundTrip : Prop :=
  ∀ (col Ls : Nat) (s t : State), t = loadColumn col Ls (columnRecord col Ls s) s →
    (columnRecord col Ls s).length = 136 ∧ OnlyChanges [.scr] s t ∧
    (∀ F, Ls ≤ F → F < Ls + 1024 → ((∃ i, (col, F, i) ∈ t.scr.claims) ↔ ∃ i, (col, F, i) ∈ s.scr.claims)) ∧
    (∀ d F i, d ≠ col → ((d, F, i) ∈ t.scr.claims ↔ (d, F, i) ∈ s.scr.claims)) ∧
    (∀ r f i h, r < 4 → find? s.scr.lastFire (col, r) = some ((f, i) :: h) → (Ls : Int) ≤ f + 32767 → f ≤ (Ls : Int) + 32767 →
      ∃ j, find? t.scr.lastFire (col, r) = some [(f, j)]) ∧
    (∀ r, r < 4 → find? s.scr.lastFire (col, r) = none → find? t.scr.lastFire (col, r) = some [])

/-- SLICES (R30, R137, R138, R149, R165): slice m begins its next line 16 lines ahead, and screens it unless it has come too late; it finishes it, its
drops placed unless late, and goes on to the next; a curve of an ARMED group loads into a free pending bank and is then loaded. -/
def Claims.Slices : Prop :=
  (∀ (m : Fin 16) (L : Nat) (u s : State), (s.slice m).next = L → (s.slice m).busy = none → L ≤ s.pos.absHigh + 16 →
    m.val < (barOf (objsAt L s)).modules →
    u = jobAtStart m L (setSlice m (fun sl => { sl with busy := some L, result := [], late := tooLate L s }) (switchBank m L s)) →
    exec (.sliceLineStart m) s = .next (if tooLate L s then u else screenLine m L u)) ∧
  (∀ (m : Fin 16) (s : State), ((s.slice m).busy.isSome = true ∨ s.pos.absHigh + 16 < (s.slice m).next) → exec (.sliceLineStart m) s = .next s) ∧
  (∀ (m : Fin 16) (L : Nat) (s : State), (s.slice m).busy = some L → s.scr.job = none → s.scr.slices.length = 16 →
    ∃ t, exec (.sliceLineDone m) s = .next t ∧ (t.slice m).busy = none ∧ (t.slice m).next = L + 1 ∧ (t.slice m).late = false ∧
      t.scr.placed = s.scr.placed ++ (if (s.slice m).late then [] else (s.slice m).result)) ∧
  (∀ (m : Fin 16) (g : Nat) (s : State), curveWaiting m s = some g → (s.slice m).bankPending = 0 →
    exec (.curveBankLoad m) s = .next (setSlice m (fun sl => { sl with bankPending := 1, bankGroup := g }) s)) ∧
  (∀ (m : Fin 16) (s : State), (s.slice m).bankPending = 1 → exec (.curveBankLoaded m) s = .next (setSlice m (fun sl => { sl with bankPending := 2 }) s))

/-- THE SCREENING COMMANDS (R170, R172 to R176): SCR_GET_STATUS reports the counters and may clear them; a save, a load and a trace are accepted where
their conditions hold and are held until their line; a line that a slice has begun answers LATE; an image that is written, or fetched
and good, or not, ends or goes on with the job. -/
def Claims.ScreeningCommands : Prop :=
  (∀ k c s, Rung 0x0400 1 k c s → s.host.opState ≠ .boot → (c.w 0).toNat < 2 → exec (.scrGetStatus k) s = .next (respond k
    (okWith [s.scr.rowOmit, s.scr.deadOmit, s.scr.lateLines, s.scr.deadColDrops, s.scr.deadCols, s.scr.doneLine])
    (if c.w 0 = 1 then { begun k s with scr := { s.scr with rowOmit := 0, deadOmit := 0, lateLines := 0, deadColDrops := 0, deadCols := 0 } }
      else begun k s))) ∧
  (∀ k c s L, Rung 0x0401 6 k c s → c.w 0 = 0 → (c.w 1).toNat % 4096 = 0 → rowImageSize s.cg.modules ≤ (c.w 3).toNat →
    namedLine (c.w 4) (c.w 5) s = some L → s.scr.job = none → (s.host.opState = .ready ∨ s.host.opState = .print ∨ s.host.opState = .service) →
    s.host.outst.length < 16 →
    (anyBegan L s = false → exec (.scrRowStateSave k) s = .next (respond k accepted (outstand 0x0401 c.tag 0
      { begun k s with scr := { s.scr with job := some (.save c.tag (wn64 c.payload 1) (c.w 4) (c.w 5) L 0 []) } }))) ∧
    (anyBegan L s = true → exec (.scrRowStateSave k) s = .next (respond k late (begun k s)))) ∧
  (∀ (tag : Word) (a : Nat) (ep ln : Word) (L p : Nat) (parts : List (Nat × List Byte)) (s : State),
    s.scr.job = some (.save tag a ep ln L p parts) → (barOf (objsAt L s)).modules ≤ parts.length →
    exec (.scrRowStateSaveDone false) s = .next (complete 0x0401 tag 0x30 0 0 0 { s with scr := { s.scr with job := none } }) ∧
    (s.host.busMaster = false → exec (.scrRowStateSaveDone true) s = .next (complete 0x0401 tag 0x30 0 0 0 { s with scr := { s.scr with job := none } })) ∧
    (s.host.busMaster = true → ∃ img crc, exec (.scrRowStateSaveDone true) s = .next (complete 0x0401 tag 0 (w32 img.length) crc 0
      (emit (.dmaWrite a img) { s with scr := { s.scr with job := none } })) ∧ crc = w32 (le32 img 60) ∧
      le32 img 60 = crc32c (img.take 60 ++ zeros 4 ++ img.drop 64))) ∧
  (∀ k c s, Rung 0x0402 4 k c s → c.w 0 = 0 → (c.w 1).toNat % 4096 = 0 → s.scr.job = none → (s.twin.role = .listen ∨ s.twin.role = .standby) →
    s.host.opState ≠ .boot → s.host.outst.length < 16 →
    exec (.scrRowStateLoad k) s = .next (respond k accepted (readHost (wn64 c.payload 1) (c.w 3).toNat (outstand 0x0402 c.tag 0
      { begun k s with scr := { s.scr with job := some (.load (some c.tag) none 0 []) } })))) ∧
  (∀ (tag : Word) (L : Nat) (taken : List Nat) (s u : State), s.scr.job = some (.load (some tag) none L taken) → s.twin.joining = none →
    u = { s with scr := { s.scr with job := none } } →
    exec (.scrRowStateFetched none) s = .next (complete 0x0402 tag 0x30 0 0 0 u) ∧
    (∀ img a, (imageCheck img s = (1, a) → exec (.scrRowStateFetched (some img)) s = .next (complete 0x0402 tag 0x41 0 0 0 u)) ∧
      (imageCheck img s = (2, a) → exec (.scrRowStateFetched (some img)) s = .next (complete 0x0402 tag 0x41 1 0 0 u)) ∧
      (imageCheck img s = (3, a) → exec (.scrRowStateFetched (some img)) s = .next (complete 0x0402 tag 0x21 0 0 0 u)) ∧
      (imageCheck img s = (0, a) → exec (.scrRowStateFetched (some img)) s =
        .next { s with scr := { s.scr with job := some (.load (some tag) (some img) a []) } }))) ∧
  (∀ k c s L, Rung 0x0403 3 k c s → (c.w 0).toNat < colsPer * s.cg.modules → (c.w 0).toNat < 65536 → namedLine (c.w 1) (c.w 2) s = some L →
    s.scr.job = none → s.host.opState ≠ .boot → s.host.outst.length < 16 → (s.slice ((c.w 0).toNat / colsPer)).busy ≠ some L →
    (s.slice ((c.w 0).toNat / colsPer)).next ≤ L →
    exec (.scrTrace k) s = .next (respond k accepted (outstand 0x0403 c.tag 0
      { begun k s with scr := { s.scr with job := some (.trace c.tag (c.w 0).toNat (c.w 1) L) } })))

/-- SlicesAndScreening: Claims.Slices and Claims.ScreeningCommands. -/
def Obligations.SlicesAndScreening : Prop := Claims.Slices ∧ Claims.ScreeningCommands

/-! ## Firing -/

/-- TRAINS (R179 to R181, R190, R191, R232, R233): a train whose time has come, on a line that may fire and a web that moves forward, is
tried when it is its turn among the trains ready at that instant; the trial fires it, postpones it with its
bit, or omits it with SLOT_OMIT; a postponed one is tried again at its new time; a train that has not started 100 µs after firing was ordered to stop
is withheld and counted; a PREP marker goes once to a train with pre-heat; a row that is not due changes nothing but what its samples do. -/
def Claims.Trains : Prop :=
  (∀ (m : Fin 16) (fire : Nat) (row : Fin 4) (grp : Fin 8) (tx : Nat) (x : Samples) (s u : State), u = mainUpdate (advance x s) →
    (findTrain m fire row grp u = none → exec (.trainCommit m fire row grp tx x) s = .next u ∧ exec (.trainPostponedStart m fire row grp tx x) s = .next u ∧
      exec (.prepMarker m fire row grp tx x) s = .next u) ∧
    (∀ t d, findTrain m fire row grp u = some t → stepsTo (t.target u) u = some d → (t.st = .waiting ∨ t.st = .prepared) →
      exec (.trainCommit m fire row grp tx x) s = .next (if trainTurn t u then deliverAll (tryTrain true t tx (nowSteps u + d) u) else u)) ∧
    (∀ t, findTrain m fire row grp u = some t → t.st = .postponed →
      exec (.trainPostponedStart m fire row grp tx x) s = .next (if trainTurn t u then deliverAll (tryTrain false t tx t.tMain u) else u)) ∧
    (∀ t d, findTrain m fire row grp u = some t → stepsTo (t.target u) u = some d → t.st = .waiting → d < 9600 → 0 < t.preLen u →
      prepTurn t u = true → (u.lane m).st = .active →
      ∃ v, exec (.prepMarker m fire row grp tx x) s = .next v ∧ ((presentMarker m t.fire u).1 = false → v = (presentMarker m t.fire u).2) ∧
        ((presentMarker m t.fire u).1 = true →
          ∃ delay, delay ≤ 511 ∧ v.out.head? = some (.lane m (prepMarker (lphOf t.fire u) row grp delay))))) ∧
  (∀ (t : Train) (s : State), trainTurn t s = true ↔ ∃ r, readyAt t s = some r ∧ r < nowSteps s + 1280 ∧ ∀ x ∈ s.fire.trains, goesFirst t x s = false) ∧
  (∀ (t : Train) (s : State), (forward s = false ∨ lineOpen t.fire s = false ∨ sendsFrames s = false ∨ stopExpired s = true) → readyAt t s = none) ∧
  (∀ (m : Fin 16) (fire : Nat) (row : Fin 4) (grp : Fin 8) (s : State) (t : Train), findTrain m fire row grp s = some t → t.open_ = true →
    t.fire ≤ s.pos.absHigh →
    (∀ at_, s.fire.stopAt = some at_ → at_.toNat + 100000 ≤ s.pos.mono.toNat → exec (.trainAbandon m fire row grp) s =
      .next (deliverAll (withhold (Train.is t) (stickRec (source := 0x10 + m) .slotAbandoned
        { s with fire := { s.fire with abandoned := satAdd s.fire.abandoned 1 } })))) ∧
    (∀ at_, s.fire.stopAt = some at_ → s.pos.mono.toNat < at_.toNat + 100000 → exec (.trainAbandon m fire row grp) s = .next s) ∧
    (s.fire.stopAt = none → exec (.trainAbandon m fire row grp) s = .next s)) ∧
  (∀ (first : Bool) (t : Train) (tx : Nat) (wanted main b : Int) (s : State), main = max wanted (nowSteps s + tx + linkDelay t.mod s) →
    boundaryIn (t.fire + 2) s = some b →
    (nowSteps s + b ≤ guardedStart t main s → tryTrain first t tx wanted s = slotOmit t s) ∧
    (guardedStart t main s < nowSteps s + b → guardedStart t main s = main - t.preLen s → tryTrain first t tx wanted s = fireTrain t tx main s))

/-- THE GUARDS (R182, R190, R191): they never start a train earlier than it was wanted; every drop's main pulse is at least the head's refill time after
its nozzle's last one, rounded up to whole steps; and where a start is delayed, it is to an instant at which heaters are released, or to the refill. -/
def Claims.TrainGuards : Prop :=
  (∀ (t : Train) (main : Int) (s : State), main - t.preLen s ≤ guardedStart t main s) ∧
  (∀ (t : Train) (main l : Int) (d : Drop) (s : State), d ∈ t.drops s → find? s.fire.lastMain (d.col, d.row) = some l →
    l + stepsUp (capRefill (capOf t.mod s)) ≤ guardedStart t main s + t.preLen s) ∧
  (∀ (m fuel : Nat) (own : List (Int × Int × Nat)) (main : Int) (s : State), main ≤ heaterGuard m own s fuel main ∧
    (heaterGuard m own s fuel main ≠ main →
      ∃ h ∈ s.fire.heaters, h.1 = m ∧ ∃ x ∈ own, heaterGuard m own s fuel main = h.2.2.1 + x.1)) ∧
  (∀ (m fuel : Nat) (own : List (Int × Int × Nat)) (main : Int) (s : State), s.fire.heaters.length * own.length ≤ fuel →
    (own.map fun x => x.2.2).sum ≤ heaterLimit m s → heatersFit m (heaterGuard m own s fuel main) own s = true)

/-- TrainsAndGuards: Claims.Trains and Claims.TrainGuards. -/
def Obligations.TrainsAndGuards : Prop := Claims.Trains ∧ Claims.TrainGuards

/-- HEAD HEAT (R196 to R198): a reading is held; at T_TRIP or above, at its onset, it stops firing from the next boundary with HEAT_TRIP and event
0x0505; below it the trip ends, firing staying stopped; zones of a fitted module without a reading for 20 µs count as tripped, with TEMP_STALE. -/
def Claims.HeadHeat : Prop :=
  (∀ (m z v T : Nat) (s : State), m < s.cg.modules → z < 8 → (cell s.fire.zones m []).length = 8 → m < s.fire.zones.length → tripLevel s = some T →
    (T ≤ v → (zoneReading m z v s).fire.heatHold = true ∨ (s.zone m z).trip = true) ∧
    (T ≤ v → ((zoneReading m z v s).zone m z).trip = true) ∧ ((zoneReading m z v s).zone m z).reading = v ∧
    (v < T → ((zoneReading m z v s).zone m z).trip = false ∧ (zoneReading m z v s).fire.heatHold = s.fire.heatHold)) ∧
  (∀ (m : Fin 16) (s : State), m.val < s.cg.modules → s.fire.zones.length = 16 → (∀ l ∈ s.fire.zones, l.length = 8) →
    (s.lane m).readAt.toNat + 20000 ≤ s.pos.mono.toNat → (∃ z, z < 8 ∧ (s.zone m z).stale = false) → (∀ z, z < 8 → (s.zone m z).trip = false) →
    ∃ t, exec (.tempStale m) s = .next t ∧ t.fire.heatHold = true ∧ ∀ z, z < 8 → (t.zone m z).trip = true ∧ (t.zone m z).stale = true) ∧
  (∀ (m : Fin 16) (s : State), s.pos.mono.toNat < (s.lane m).readAt.toNat + 20000 →
    exec (.tempStale m) s = .next s)

/-- SPEED (R199 to R201): above 1.03 F_LIM firing is held and SLOWDOWN_N falls, once; the error diffusion between F_LIM and 1.03 F_LIM keeps its accumulators
below 65,536, and omits no line at or below F_LIM; the hold ends only after 64 boundaries at or below F_LIM. -/
def Claims.Overspeed : Prop :=
  (∀ s : State, s.cg.fLim ≠ 0 → 103 * s.cg.fLim < 100 * s.fire.rate.toNat → (overStop s).fire.overHold = true ∧
    (s.fire.overHold = false → (overStop s).fire.slowdown = true ∧ (overStop s).fire.resumeReq = false ∧ (overStop s).fire.stopAt.isSome = true)) ∧
  (∀ s : State, (s.fire.rate.toNat ≤ s.cg.fLim → (overCount s).fire.slowRun = min 64 (s.fire.slowRun + 1)) ∧
    (s.cg.fLim < s.fire.rate.toNat → (overCount s).fire.slowRun = 0)) ∧
  (∀ s : State, 100 * s.fire.rate.toNat ≤ 103 * s.cg.fLim → (overStop s).fire.overHold = s.fire.overHold ∧ (overStop s).fire.slowdown = s.fire.slowdown) ∧
  (∀ s : State, s.fire.acc.length = 16 → (∀ a ∈ s.fire.acc, a < 65536) → (∀ a ∈ (diffuse s).1, a < 65536) ∧ (diffuse s).1.length = 16) ∧
  (∀ s : State, s.fire.rate.toNat ≤ s.cg.fLim → (diffuse s).2 = []) ∧
  (∀ s : State, s.fire.overHold = true → s.fire.slowRun < 64 → overClear s = s) ∧
  (∀ s : State, s.fire.overHold = true → 64 ≤ s.fire.slowRun → s.fire.autoResume = true → (overClear s).fire.overHold = false ∧
    (overClear s).fire.slowdown = false)

/-- HeatAndSpeed: Claims.HeadHeat and Claims.Overspeed. -/
def Obligations.HeatAndSpeed : Prop := Claims.HeadHeat ∧ Claims.Overspeed

/-- THE FIRE COMMANDS (R198, R201 to R205, R208 to R212): each one's answer and effect where its conditions hold. -/
def Obligations.FireCommands : Prop :=
  (∀ k c s, Rung 0x0500 1 k c s → s.host.opState ≠ .boot → (c.w 0).toNat < 2 → exec (.fireGetStatus k) s = .next (respond k (okWith (fireView s))
    (if c.w 0 = 1 then { begun k s with fire := { s.fire with
      omitLines := 0, postpone := 0, slotOmit := 0, abandoned := 0, probeVisit := 0, probeSkip := 0 } } else begun k s))) ∧
  (∀ k c s, Rung 0x0501 3 k c s → fld (c.w 0) 0 18 ≤ 0x8000 → 408 ≤ fld (c.w 0) 20 12 → fld (c.w 0) 20 12 ≤ 3264 → c.w 1 &&& ~~~ 0x07FFFFFF = 0 →
    2 ≤ fld (c.w 1) 16 8 → fld (c.w 1) 16 8 ≤ 40 → (∀ t, lowestTMax s = some t → fld (c.w 1) 8 8 ≤ t) → 0x9334 ≤ (c.w 2).toNat → (c.w 2).toNat ≤ 0xC000 →
    s.host.firing = false → exec (.fireConfig k) s = .next (respond k ok (judgeAll (slotAgain { begun k s with fire := { s.fire with
      slotPitch := fld (c.w 0) 0 18, rotate := flag (c.w 0) 18, autoResume := flag (c.w 0) 19, maxHeaters := fld (c.w 0) 20 12
      tWarn := some (fld (c.w 1) 0 8), tTrip := some (fld (c.w 1) 8 8), tHyst := fld (c.w 1) 16 8
      warnDerate := fld (c.w 1) 24 3, margin := (c.w 2).toNat } })))) ∧
  (∀ k c s, Rung 0x0502 0 k c s → (s.host.opState = .print ∨ s.host.opState = .service) →
    ((s.fire.heatHold = false ∨ coolEnough s = true) → exec (.fireResume k) s = .next (respond k ok
      { begun k s with fire := { s.fire with resumeHeat := s.fire.heatHold, resumeReq := s.fire.overHold } })) ∧
    (s.fire.heatHold = true → coolEnough s = false → exec (.fireResume k) s = .next (respond k badState (begun k s)))) ∧
  (∀ k c s, Rung 0x0503 4 k c s → flag (c.w 0) 0 = true → c.w 0 &&& ~~~ 0x1FFF1 = 0 → 1 ≤ fld (c.w 0) 4 4 → fld (c.w 0) 4 4 ≤ 8 →
    1 ≤ fld (c.w 0) 8 4 → fld (c.w 0) 8 4 ≤ 8 → 2 ≤ fld (c.w 0) 12 5 → fld (c.w 0) 12 5 ≤ 16 → c.w 3 &&& ~~~ 0xFFFFF = 0 → s.fire.probe = none →
    (s.host.opState = .ready ∨ s.host.opState = .print) → s.host.outst.length < 16 → probeLate (c.w 1) (c.w 2) s = false →
    ∃ t pl, exec (.fireProbe k) s = .next (respond k accepted t) ∧ OnlyChanges [.host, .fire] (begun k s) t ∧ t.fire.probe = some pl ∧
      t.fire.probeVisit = 0 ∧ pl.tag = c.tag ∧ pl.steps = fld (c.w 0) 4 4 ∧ pl.stride = fld (c.w 0) 8 4 ∧ pl.drops = fld (c.w 0) 12 5 ∧
      pl.epoch = c.w 1 ∧ pl.startLine = c.w 2 ∧ pl.mods.toNat = fld (c.w 3) 0 16 ∧ pl.rows.toNat = fld (c.w 3) 16 4) ∧
  (∀ k c s, Rung 0x0503 4 k c s → c.w 0 = 0 → c.w 3 &&& ~~~ 0xFFFFF = 0 → (s.host.opState = .ready ∨ s.host.opState = .print) →
    exec (.fireProbe k) s = .next (respond k ok { begun k s with fire := { s.fire with probe := s.fire.probe.map fun p => { p with stopping := true } } })) ∧
  (∀ k c s, Rung 0x0504 3 k c s → (c.w 0).toNat < 65536 → (c.w 1).toNat % 4096 = 0 → s.fire.meas = none →
    (s.host.opState = .ready ∨ s.host.opState = .service ∨ s.host.opState = .print) → (s.twin.role = .solo ∨ s.twin.role = .active) →
    s.host.firing = false → s.host.outst.length < 16 →
    exec (.fireMeasureR k) s = .next (respond k accepted (outstand 0x0504 c.tag 0 { begun k s with fire := { s.fire with
      meas := some { tag := c.tag, mods := s.fitted.filter fun m => (c.w 0).getLsbD m, addr := wn64 c.payload 1 } } }))) ∧
  (∀ (j : MeasJob) (s : State), s.fire.meas = some j → measureFull j s = true →
    ((exec (.fireMeasureRDone false) s = .next (endMeasure j 0x30 0 0 0 s)) ∧
    (s.host.busMaster = true → ∃ t bytes o sh mid, exec (.fireMeasureRDone true) s = .next (endMeasure j 0 o sh mid t) ∧
      OnlyChanges [.fire, .out] s t ∧ t.out = .dmaWrite j.addr bytes :: s.out ∧ bytes.length = 26112 * s.cg.modules ∧ t.fire.ohms = j.readings))) ∧
  (∀ k c s, Rung 0x0505 3 k c s → c.w 0 &&& ~~~ 0x3FFFF = 0 → fld (c.w 0) 16 2 ≠ 0 → 1000 ≤ (c.w 1).toNat → (c.w 1).toNat ≤ 20000 →
    (c.w 2).toNat < 65536 → s.host.opState = .service → s.fire.spit = none → s.permits 2 = true → s.permits 3 = true → s.permits 4 = true →
    s.host.outst.length < 16 →
    ∃ t j, exec (.fireSpit k) s = .next (respond k accepted t) ∧ OnlyChanges [.host, .fire] (begun k s) t ∧ t.fire.spit = some j ∧ j.tag = c.tag ∧
      j.lines = fld (c.w 0) 0 16 ∧ j.drop = fld (c.w 0) 16 2 ∧ j.rate = (c.w 1).toNat ∧ j.mods.toNat = (c.w 2).toNat ∧ s.pos.absHigh + 17 ≤ j.first) ∧
  (∀ k c s, Rung 0x0505 3 k c s → c.w 0 &&& ~~~ 0x3FFFF = 0 → fld (c.w 0) 16 2 ≠ 0 → 1000 ≤ (c.w 1).toNat → (c.w 1).toNat ≤ 20000 →
    (c.w 2).toNat < 65536 → s.host.opState = .service → s.fire.spit = none → s.permits 2 = false →
    exec (.fireSpit k) s = .next (respond k (safetyBlocked 2) (begun k s)))

/-! ## The head link -/

/-- LANE TRAINING (R217, R218, R222, R223): a load and a signal take a lane that is not held from DETECT to POLL; the 8th TS takes POLL to EQUALISE and
RECOVERY to ACTIVE; EQUALISE ends with the CTLE settled and 8 sets, CONFIG with a good record and 8 echoes of the lane number; the 16th ECHO return sets LAT
and makes the lane ACTIVE, its record in use from then on, or holds it with reason 7 above 100 ns; a timeout that has passed returns a lane in training to DETECT. A row whose time has not come
changes nothing. -/
def Claims.LaneTraining : Prop :=
  (∀ (m : Fin 16) (s : State), s.hl.lanes.length = 16 → (s.lane m).st = .detect → (s.lane m).idleHeld = false → s.twin.prsnt = true →
    (cell s.pwr.islands 2 {}).on = true → (∀ x, (s.lane m).detectAt = some x → x.toNat + 1000000 ≤ s.pos.mono.toNat) →
    (∃ t, exec (.receiverDetect m true true) s = .next t ∧ OnlyChanges [.hl, .out] s t ∧ (t.lane m).st = .poll ∧ (t.lane m).tsCount = 0 ∧
      (t.lane m).swing = (s.lane m).nextCfg.1 ∧ ((s.lane m).nextCfg.2.2.1 = true → (t.lane m).ctle = (s.lane m).nextCfg.2.2.2) ∧
      ∀ j, j ≠ m.val → t.lane j = s.lane j) ∧
    (∀ a b, a = false ∨ b = false → exec (.receiverDetect m a b) s =
      .next (emit (.lane m .detect) (setLane m (fun l => { l with detectAt := some s.pos.mono }) s)))) ∧
  (∀ (m : Fin 16) (a b : Bool) (x : Dword) (s : State), (s.lane m).detectAt = some x → s.pos.mono.toNat < x.toNat + 1000000 →
    exec (.receiverDetect m a b) s = .next s) ∧
  (∀ (m : Fin 16) (ty v c : Byte) (s : State), s.hl.lanes.length = 16 → (s.lane m).st = .poll → (s.lane m).idleHeld = false →
    ((setGood ty v c = false ∨ (ty ≠ 1 ∧ ty ≠ 2)) → exec (.trainingSetRx m (ty, v) c) s = .next (setLane m (fun l => { l with tsCount := 0 }) s)) ∧
    (setGood ty v c = true → ty = 1 ∨ ty = 2 → (s.lane m).tsCount + 1 < 8 →
      exec (.trainingSetRx m (ty, v) c) s = .next (setLane m (fun l => { l with tsCount := l.tsCount + 1 }) s)) ∧
    (setGood ty v c = true → ty = 1 ∨ ty = 2 → 8 ≤ (s.lane m).tsCount + 1 → ∃ t, exec (.trainingSetRx m (ty, v) c) s = .next t ∧
      (t.lane m).st = .equalise ∧ (t.lane m).tsCount = 0 ∧ (t.lane m).passedPoll = true ∧ OnlyChanges [.hl, .out] s t)) ∧
  (∀ (m : Fin 16) (v c : Byte) (s : State), (s.lane m).st = .config → (s.lane m).idleHeld = false → setGood 2 v c = true → v.toNat = m.val →
    exec (.trainingSetRx m (2, v) c) s = .next (configDone m (setLane m (fun l => { l with tsCount := l.tsCount + 1 }) s))) ∧
  (∀ (m : Fin 16) (v c : Byte) (s : State), (s.lane m).st = .recovery → (s.lane m).idleHeld = false → setGood 1 v c = true → 8 ≤ (s.lane m).tsCount + 1 →
    exec (.trainingSetRx m (1, v) c) s = .next (toActive m false s)) ∧
  (∀ (m : Fin 16) (w h : List Byte) (eyes : List (BitVec 16)) (s : State), eyes = eyesOf w h → s.hl.lanes.length = 16 → (s.lane m).st = .equalise → (s.lane m).ctleFixed = false →
    (s.lane m).ctleDone = false → (s.lane m).enteredAt.toNat + 1024000 ≤ s.pos.mono.toNat →
    ∃ t b, exec (.ctleSettled m w h) s = .next t ∧ (t.lane m).ctle = b ∧ (t.lane m).eye = cell eyes b 0 ∧ OnlyChanges [.hl, .out] s t ∧ b < 16 ∧
      (∀ i, i < 16 → eyeArea (cell eyes i 0) ≤ eyeArea (cell eyes b 0) ∧ (i < b → eyeArea (cell eyes i 0) < eyeArea (cell eyes b 0))) ∧
      (t.lane m).st = if 8 ≤ (s.lane m).tsCount then .config else .equalise) ∧
  (∀ (m : Fin 16) (words : List Word) (s : State), s.hl.lanes.length = 16 → (s.lane m).st = .config →
    (capReason m (words.take 16) none = none → ∃ t, exec (.capBlockRx m words) s = .next t ∧ (t.lane m).capNext = some (words.take 16) ∧
      (t.lane m).capHeld = (s.lane m).capHeld ∧ (t.lane m).capOk = true ∧ (t.lane m).st = (if 8 ≤ (s.lane m).tsCount then .latency else .config) ∧ OnlyChanges [.hl, .out] s t) ∧
    (∀ r, capReason m (words.take 16) none = some r → ∃ t, exec (.capBlockRx m words) s = .next t ∧ (t.lane m).st = .held ∧
      (t.lane m).heldReason = r ∧ (t.lane m).capHeld = (s.lane m).capHeld ∧ OnlyChanges [.hl, .host, .pers, .out] s t)) ∧
  (∀ (m : Fin 16) (s : State), s.hl.lanes.length = 16 → (s.lane m).st = .latency → (s.lane m).idleHeld = false →
    ((s.lane m).echoSent < 16 → ((s.lane m).echoSent = 0 ∨ (s.lane m).echoAt.toNat + 4000 ≤ s.pos.mono.toNat) → exec (.echoSend m) s =
      .next (emit (.lane m (orderedSet .k28_5 4 (s.lane m).echoSent))
        (setLane m (fun l => { l with echoSent := l.echoSent + 1, echoAt := s.pos.mono }) s))) ∧
    ((s.lane m).echoSent ≠ 0 → s.pos.mono.toNat < (s.lane m).echoAt.toNat + 4000 → exec (.echoSend m) s = .next s) ∧
    (∀ id c trip, setGood 5 id c = true → id.toNat < (s.lane m).echoSent → (s.lane m).echoIds.getLsbD id.toNat = false →
      (s.lane m).echoSeen + 1 < 16 → exec (.echoReturnRx m ⟨id, c, trip⟩) s = .next (setLane m (fun l => { l with
        echoIds := l.echoIds ||| (1#16 <<< id.toNat), echoSeen := l.echoSeen + 1, echoSum := l.echoSum + trip }) s)) ∧
    (∀ id c trip, (setGood 5 id c = false ∨ (s.lane m).echoIds.getLsbD id.toNat = true) → exec (.echoReturnRx m ⟨id, c, trip⟩) s = .next s) ∧
    (∀ id c trip lat, setGood 5 id c = true → id.toNat < (s.lane m).echoSent → (s.lane m).echoIds.getLsbD id.toNat = false →
      (s.lane m).echoSeen = 15 → lat = latOf ((s.lane m).echoSum + trip) (fld (wd ((s.lane m).capNext.getD []) 7) 16 16) →
      ∃ t, exec (.echoReturnRx m ⟨id, c, trip⟩) s = .next t ∧ (t.lane m).lat = lat ∧
        (lat ≤ 320 → (t.lane m).st = .active ∧ (t.lane m).capHeld = (s.lane m).capNext) ∧
        (320 < lat → (t.lane m).st = .held ∧ (t.lane m).heldReason = 7 ∧ (t.lane m).capHeld = (s.lane m).capHeld))) ∧
  (∀ (m : Fin 16) (ns : Nat) (s : State), (s.lane m).st.timeout = some ns →
    ((s.lane m).enteredAt.toNat + ns ≤ s.pos.mono.toNat → exec (.laneStateTimeout m) s = .next (toDetect m s)) ∧
    (s.pos.mono.toNat < (s.lane m).enteredAt.toNat + ns → exec (.laneStateTimeout m) s = .next s)) ∧
  (LaneState.timeout .poll = some 12000000 ∧ LaneState.timeout .equalise = some 2000000 ∧ LaneState.timeout .config = some 8000000 ∧
    LaneState.timeout .latency = some 1000000 ∧ LaneState.timeout .recovery = some 1000000) ∧
  (∀ (m : Fin 16) (s : State), ((s.lane m).st = .active ∨ (s.lane m).st = .disabled ∨ (s.lane m).st = .detect ∨ (s.lane m).st = .held) →
    exec (.laneStateTimeout m) s = .next s)

/-- CAPABILITY RECORDS (R222): a record is accepted exactly when every check passes, and the reason given is that of the first that fails. -/
def Claims.CapabilityRecords : Prop :=
  (∀ (lane : Nat) (ws : List Word) (held : Option (List Word)), capReason lane ws held = none ↔
    (wd ws 15 = w32 (crc32c (wordBytes (ws.take 15))) ∧ fld (wd ws 0) 0 16 = 1 ∧ fld (wd ws 0) 16 4 = lane ∧ 1 ≤ capRows ws ∧ capRows ws ≤ 4 ∧
      1000 ≤ capFHead ws ∧ capFHead ws ≤ 64000 ∧ 408 ≤ capHeaters ws ∧ capHeaters ws ≤ 3264 ∧
      capRefill ws ≤ 100000000000 / (103 * capFHead ws) ∧ capFixed ws ≤ 640 ∧ capMaxMain ws ≤ 640 ∧ capPhMax ws ≤ 48 ∧
      ∀ h, held = some h → h = ws)) ∧
  (∀ (lane : Nat) (ws : List Word) (held : Option (List Word)) (r : Nat), capReason lane ws held = some r → 1 ≤ r ∧ r ≤ 6)

/-- LanesTrained: Claims.LaneTraining and Claims.CapabilityRecords. -/
def Obligations.LanesTrained : Prop := Claims.LaneTraining ∧ Claims.CapabilityRecords

/-- LANES IN SERVICE (R219, R233, R234, R241, R242): bad symbols or a loss of signal, and 8 µs without a status frame, take an ACTIVE lane to RECOVERY with
LANE_DOWN; a status frame with a bad CRC or another lane's number only counts; a good one is taken in; BLANK is sent once more and then the lane goes idle; and
a table load sends its blocks one by one under the check of R242. -/
def Obligations.LanesInService : Prop :=
  (∀ (m : Fin 16) (e : Fin 257) (s : State), e.val < 4 →
    exec (.laneRecovery m false e) s = .next (setLane m (fun l => { l with codeErrors := satAdd l.codeErrors e }) s)) ∧
  (∀ (m : Fin 16) (los : Bool) (e : Fin 257) (s : State), s.hl.lanes.length = 16 → (s.lane m).st = .active → (los = true ∨ 4 ≤ e.val) →
    ∃ t, exec (.laneRecovery m los e) s = .next t ∧ (t.lane m).st = .recovery ∧ (t.lane m).capHeld = (s.lane m).capHeld ∧
      (t.lane m).lat = (s.lane m).lat ∧ (t.lane m).ctle = (s.lane m).ctle ∧ (t.lane m).recoveries = satAdd (s.lane m).recoveries 1 ∧
      (t.lane m).codeErrors = satAdd (s.lane m).codeErrors e ∧ OnlyChanges [.hl, .host, .pers, .out] s t) ∧
  (∀ (m : Fin 16) (s : State), (s.lane m).st = .active →
    ((s.lane m).statusTime.toNat + 8000 ≤ s.pos.mono.toNat → (s.lane m).upAt.toNat + 8000 ≤ s.pos.mono.toNat →
      exec (.statusFrameTimeout m) s = .next (toRecovery m 3 s)) ∧
    ((s.pos.mono.toNat < (s.lane m).statusTime.toNat + 8000 ∨ s.pos.mono.toNat < (s.lane m).upAt.toNat + 8000) →
      exec (.statusFrameTimeout m) s = .next s)) ∧
  (∀ (m : Fin 16) (ws : List Word) (crc : Word) (s : State), (s.lane m).st = .active → (crc ≠ frameCrc ws ∨ fld (wd ws 0) 0 4 ≠ m.val) →
    exec (.statusFrameRx m ws crc) s = .next (stickRec (source := 0x10 + m) .statusBad (setLane m (fun l => { l with statusBad := satAdd l.statusBad 1 }) s))) ∧
  (∀ (m : Fin 16) (ws : List Word) (s : State), (s.lane m).st = .active → fld (wd ws 0) 0 4 = m.val → ∃ t, exec (.statusFrameRx m ws (frameCrc ws)) s = .next t ∧
    (∀ u, u = takeClaim m ws (takeTemps m ws (setLane m (fun l => { l with statusSeq := some (fld (wd ws 0) 8 8), statusTime := s.pos.mono }) s)) →
      ∃ v, v = takeFaults m (s.lane m).statusTime.toNat (wd ws 8) (takeLatch m (wd ws 5)
        (takeNack m (wd ws 11) (wd ws 12) (takeNack m (wd ws 9) (wd ws 10) u))) ∧
        t = checkTakeover (checkDisplaced (takeMeas m ws (takeTable m (wd ws 13) (wd ws 14) v))))) ∧
  (∀ (m : Fin 16) (s : State), (s.lane m).blanking = true → (s.lane m).blankAt.toNat + 1000 ≤ s.pos.mono.toNat →
    (1 ≤ (s.lane m).blankRuns → exec (.blankRepeat m) s = .next (emit (.lane m .elecIdle)
      (setLane m (fun l => { l with blanking := false, blankRuns := 0, idleHeld := true }) s))) ∧
    ((s.lane m).blankRuns = 0 → exec (.blankRepeat m) s = .next (emit (.lane m (blankSet (if s.onyx.tripped then 1 else 3)))
      (setLane m (fun l => { l with blankRuns := l.blankRuns + 1, blankAt := s.pos.mono }) s)))) ∧
  (∀ (m : Fin 16) (s : State), s.pos.mono.toNat < (s.lane m).blankAt.toNat + 1000 → exec (.blankRepeat m) s = .next s) ∧
  (∀ (m : Fin 16) (kind block g : Nat) (rest : List (Nat × Nat)) (s : State), (s.lane m).loadGroup = some g → (s.lane m).tblQueue = (kind, block) :: rest →
    (s.lane m).st = .active → (s.lane m).idleHeld = false → (s.lane m).txq = [] → (s.lane m).txFree ≤ s.pos.mono.toNat →
    ∃ body, exec (.tblBlockTx m) s = .next (emit (.lane m (.table (body ++ bytesLE 4 (crc32c (bytesLE 1 m ++ body)))))
        (setLane m (fun l => { l with tblQueue := rest, txFree := s.pos.mono.toNat + 154 }) s)) ∧
      body = wordBytes [w32 (kind + 256 * b2n (s.lane m).loadBank + 65536 * block), w32 (s.lane m).loadId] ++ tableData g kind m block s ∧
      body.length = 72)

/-- FIRING FRAMES (R226 to R229): 17 parts, the first with the header and the others with 102 bytes each, each followed by its check value over its bytes and the
folded-in module, SEQ and part number; the payload holds for every column the drop code and row of the drop that fires there, and 0 where none does. -/
def Obligations.FiringFrames : Prop :=
  (∀ (F m : Nat) (zs : List ZoneSel) (s : State), zs.length = 8 → (frameParts F m zs s).length = 17 ∧ (cell (frameParts F m zs s) 0 []).length = 44 ∧
    ∀ j, 1 ≤ j → j ≤ 16 → cell (frameParts F m zs s) j [] =
      partWithCheck m (lineIn F s).2 j (((payloadOf F m s).drop (102 * (j - 1))).take 102) ∧ (cell (frameParts F m zs s) j []).length = 106) ∧
  (∀ (F m : Nat) (s : State), (payloadOf F m s).length = 1632) ∧
  (∀ (F m k : Nat) (s : State), k < 3264 →
    (by8 (payloadOf F m s) (k / 2) / 16 ^ (k % 2)) % 16 = (match (dropsOf F m s).find? fun d => d.col % colsPer == k with
      | some d => d.code % 4 + 4 * (d.row % 4)
      | none => 0)) ∧
  (∀ (m seq part : Nat) (bs : List Byte), leN (partWithCheck m seq part bs) bs.length 4 =
    crc32c (bytesLE 1 m ++ bytesLE 2 seq ++ bytesLE 1 part ++ bs))

/-- THE LANE COMMANDS (R247 to R250): each one's answer and effect where its conditions hold. -/
def Obligations.LaneCommands : Prop :=
  (∀ k c s, Rung 0x0600 1 k c s → (c.w 0).toNat < 16 → s.host.opState ≠ .boot →
    exec (.hlGetStatus k) s = .next (respond k (okWith (laneView (s.lane (c.w 0).toNat))) (begun k s))) ∧
  (∀ k c s m, Rung 0x0600 1 k c s → (c.w 0).toNat = 256 + m → m < 16 → s.host.opState ≠ .boot →
    exec (.hlGetStatus k) s = .next (respond k (okWith (laneView (s.lane m))) (setLane m (fun l => { l with
      frames := 0, partsFailed := 0, partsResent := 0, linesBlanked := 0, resendOver := 0, codeErrors := 0, recoveries := 0, statusBad := 0 })
      (begun k s)))) ∧
  (∀ k c s, Rung 0x0601 2 k c s → (c.w 0).toNat < 65536 → c.w 1 &&& ~~~ 0x3FF = 0 → fld (c.w 1) 0 3 ≤ 6 → fld (c.w 1) 3 2 ≠ 3 → s.host.firing = false →
    ∃ t, exec (.hlLaneConfig k) s = .next (respond k ok t) ∧ (s.hl.lanes.length = 16 → ∀ m, m < 16 → flag (c.w 0) m = true →
      (t.lane m).enabled = false ∧ (t.lane m).st = .disabled ∧ (t.lane m).nextCfg = (fld (c.w 1) 0 3, fld (c.w 1) 3 2, flag (c.w 1) 5, fld (c.w 1) 6 4)) ∧
      ∀ m, m < 16 → flag (c.w 0) m = false → t.lane m = s.lane m) ∧
  (∀ k c s, Rung 0x0601 2 k c s → 65536 ≤ (c.w 0).toNat → (c.w 0).toNat < 65536 + 2 ^ s.cg.modules → s.cg.modules ≠ 0 → s.cg.modules ≤ 16 →
    c.w 1 &&& ~~~ 0x3FF = 0 → fld (c.w 1) 0 3 ≤ 6 → fld (c.w 1) 3 2 ≠ 3 → s.host.firing = false →
    ∃ t, exec (.hlLaneConfig k) s = .next (respond k ok t) ∧ OnlyChanges [.hl, .out] (begun k s) t ∧ (s.hl.lanes.length = 16 →
      ∀ m, m < 16 → flag (c.w 0) m = true → (t.lane m).st = (if (s.lane m).st = .disabled then .detect else (s.lane m).st) ∧
        (t.lane m).nextCfg = (fld (c.w 1) 0 3, fld (c.w 1) 3 2, flag (c.w 1) 5, fld (c.w 1) 6 4))) ∧
  (∀ k c s, Rung 0x0602 1 k c s → (c.w 0).toNat < 65536 → s.host.firing = false →
    ∃ t, exec (.hlRetrain k) s = .next (respond k ok t) ∧ (s.hl.lanes.length = 16 → ∀ m, m < 16 →
      (flag (c.w 0) m = true → (s.lane m).enabled = true → (t.lane m).st = .detect) ∧
      ((flag (c.w 0) m = false ∨ (s.lane m).enabled = false) → t.lane m = s.lane m))) ∧
  (∀ k c s m, Rung 0x0603 1 k c s → (c.w 0).toNat = m → m < 16 → s.host.opState ≠ .boot → (s.lane m).passedPoll = true →
    exec (.hlGetCaps k) s = .next (respond k (okWith ((List.range 16).map (fun i => wd ((s.lane m).cap.getD []) i) ++ [w32 (s.lane m).st.code]))
      (begun k s))) ∧
  (∀ k c s m, Rung 0x0603 1 k c s → (c.w 0).toNat = m → m < 16 → s.host.opState ≠ .boot → (s.lane m).passedPoll = false →
    exec (.hlGetCaps k) s = .next (respond k badState (begun k s)))

/-! ## Inspection -/

/-- CAMERA LINES (R251 to R254, R258): a CSI-2 frame on the camera's virtual channel whose packets are good and fit answers the oldest trigger as a good line,
and another one as a bad line with LINE_BAD; a trigger without an answer by LINE_TIMEOUT is a missing line, and the 16th in a row loses the camera; frames on
another channel change nothing, and those on the port's channel are counted even where no trigger is open. -/
def Claims.CameraLines : Prop :=
  (∀ (k vc : Fin 4) (early : Bool) (ps : List CsiPacket) (s : State), (s.cam k).trigs = [] →
    exec (.cameraLineTimeout k) s = .next s ∧
    (((s.cam k).seg = none ∨ vc.val ≠ cxVc (camCtx k s)) → exec (.csiLineRx k vc early ps) s = .next s) ∧
    ((s.cam k).seg.isSome = true → vc.val = cxVc (camCtx k s) → exec (.csiLineRx k vc early ps) s = .next (countPackets k ps s))) ∧
  (∀ (k vc : Fin 4) (early : Bool) (ps known : List CsiPacket) (t : CamTrig) (ts : List CamTrig) (s u : State), (s.cam k).trigs = t :: ts →
    known = (ps.filter fun p => p.type == 0x2B || p.type == 0x2C) →
    u = setCam k (fun c => { c with skipPart := false }) (countPackets k ps s) →
    (vc.val ≠ cxVc t.seg.ctx → exec (.csiLineRx k vc early ps) s = .next s) ∧
    (vc.val = cxVc t.seg.ctx → (s.cam k).skipPart = true → early = true → exec (.csiLineRx k vc early ps) s = .next (countPackets k ps s)) ∧
    (vc.val = cxVc t.seg.ctx → ((s.cam k).skipPart = false ∨ early = false) →
      ((∀ p ∈ ps, p.good = true) → lineFits t.seg.ctx known = true →
        exec (.csiLineRx k vc early ps) s = .next (takeLine k (some (formPixels t.seg.ctx known)) (lineGood k t u))) ∧
      (((∃ p ∈ ps, p.good = false) ∨ lineFits t.seg.ctx known = false) →
        (((s.cam k).quiet = false ∨ ofPort k t s = false) → exec (.csiLineRx k vc early ps) s = .next (takeLine k none
          (stickRec (source := 0x20 + k) .lineBad (setCam k (fun c => { c with linesBad := satAdd c.linesBad 1, missRun := 0 }) u)))) ∧
        ((s.cam k).quiet = true → ofPort k t s = true → exec (.csiLineRx k vc early ps) s = .next (takeLine k none (lineMissing k t u))))) ∧
    (s.pos.mono.toNat < t.fired + 1000 * fld (objWord t.seg.ctx 8) 20 12 → exec (.cameraLineTimeout k) s = .next s) ∧
    (t.fired + 1000 * fld (objWord t.seg.ctx 8) 20 12 ≤ s.pos.mono.toNat →
      exec (.cameraLineTimeout k) s = .next (takeLine k none (lineMissing k t (setCam k (fun c => { c with skipPart := true }) s))))) ∧
  (∀ (k : Nat) (t : CamTrig) (s : State), k < 4 → s.insp.cams.length = 4 →
    ((lineMissing k t s).cam k).linesMissing = satAdd (s.cam k).linesMissing 1 ∧
    ((s.cam k).seg.isSome = true → ((s.cam k).missRun = 15 → ((lineMissing k t s).cam k).st = .lost) ∧
      ((lineGood k t s).cam k).missRun = 0 ∧ (ofPort k t s = true → ((lineGood k t s).cam k).st = .stream) ∧
      (ofPort k t s = false → ((lineGood k t s).cam k).st = if (s.cam k).st = .lost then .sync else (s.cam k).st)) ∧
    ((s.cam k).missRun ≠ 15 → ((lineMissing k t s).cam k).st = (s.cam k).st) ∧
    ((s.cam k).seg = none → ((lineMissing k t s).cam k).st = (s.cam k).st ∧ lineGood k t s = s))

/-- FRAMES AND SCRIPTS (R261, R274 to R276): Opal, where it is free, begins the WAITING frame of the earliest deadline, of another camera 512 clocks of the
pipeline after the last frame; a frame that ends frees its buffer and counts;
a script write that is acknowledged leads to the next or makes the set apply LATENCY frames on; one that is not ends the set with HW_FAULT and I2C_ERROR. -/
def Claims.FramesAndScripts : Prop :=
  (∀ s : State, s.insp.running = none → (waitingFrames s ≠ []) →
    ∃ d p k b, (d, p, k, b) ∈ waitingFrames s ∧ (∀ x ∈ waitingFrames s, d ≤ x.1) ∧
      (switched k s = false → exec .opalFrameStart s = .next s) ∧
      (switched k s = true → exec .opalFrameStart s = .next { setCam k (fun c => { c with bufs := upd c.bufs b (fun _ => .processing) }) s with
        insp := { (setCam k (fun c => { c with bufs := upd c.bufs b (fun _ => .processing) }) s).insp with
          running := some (k, b), since := s.pos.mono.toNat } })) ∧
  (∀ (j k t : Nat) (s : State), s.insp.lastDone = some (j, t) → (switched k s = true ↔ (j = k ∨ t + 1024 ≤ s.pos.mono.toNat))) ∧
  (∀ s : State, (s.insp.running.isSome = true ∨ waitingFrames s = []) → exec .opalFrameStart s = .next s) ∧
  (∀ s : State, s.insp.running = none → exec .opalFrameDone s = .next s) ∧
  (∀ (k b : Nat) (s : State), s.insp.running = some (k, b) → k < 4 → s.insp.cams.length = 4 →
    ∃ t, exec .opalFrameDone s = .next t ∧ t.insp.running = none ∧ (t.cam k).framesDone = satAdd (s.cam k).framesDone 1) ∧
  (∀ (k : Fin 4) (e : ExpSet) (s : State), (s.cam k).sets.find? (fun e => e.started && !e.written) = some e →
    (∀ w x rest, e.script = w :: x :: rest → exec (.i2cWriteDone k true) s =
      .next (emit (.i2c k e.bus.1 e.bus.2 (scriptBytes x) 0)
        (turnXfer k (setCam k (fun c => { c with sets := c.sets.map fun y => if y.id = e.id then { e with
          script := x :: rest, written := false, applyAt := (s.cam k).frameSeq + latencyOf k e s - 1 } else y }) s)))) ∧
    (∀ w, e.script = [w] → exec (.i2cWriteDone k true) s = .next (startSet k false
      (turnXfer k (setCam k (fun c => { c with sets := c.sets.map fun y => if y.id = e.id then { e with
          script := [], written := true, applyAt := (s.cam k).frameSeq + latencyOf k e s - 1 } else y }) s)))) ∧
    exec (.i2cWriteDone k false) s = .next (startSet k false (turnXfer k (stickEvent .i2cError { ev := .i2cError, source := 0x20 + k, p0 := w32 k }
      (abandonSets k (fun x => x.id == e.id) 0x30 s))))) ∧
  (∀ (k : Fin 4) (s : State), (∀ e ∈ (s.cam k).sets, e.started = false ∨ e.written = true) → exec (.i2cWriteDone k true) s = .next s ∧
    exec (.i2cWriteDone k false) s = .next s)

/-- CamerasAndFrames: Claims.CameraLines and Claims.FramesAndScripts. -/
def Obligations.CamerasAndFrames : Prop := Claims.CameraLines ∧ Claims.FramesAndScripts

/-- THE IMAGE STAGES (R264 to R267): a stage's output stays within 16 bits; a line that does not vary passes noise reduction unchanged, and a pixel is left as it is where
every neighbour differs by more than the threshold; temporal reduction takes the new value where it differs by more than the threshold, and with
ALPHA 16 always. -/
def Obligations.ImageStages : Prop :=
  (∀ x : Int, clamp16 x ≤ 65535) ∧
  (∀ (thresh v n : Nat), spatial thresh (List.replicate n v) = List.replicate n v) ∧
  (∀ (thresh i v : Nat) (x : List Nat), x[i]? = some v →
    (∀ d u, d ≤ 4 → d ≠ 2 → 2 ≤ i + d → x[i + d - 2]? = some u → v + thresh < u ∨ u + thresh < v) → (spatial thresh x)[i]? = some v) ∧
  (∀ (alpha thresh z x : Nat), x > z + thresh ∨ z > x + thresh → temporal alpha thresh z x = x) ∧
  (∀ (thresh z x : Nat), x ≤ 65535 → temporal 16 thresh z x = x) ∧
  (∀ (alpha thresh z : Nat), z ≤ 65535 → temporal alpha thresh z z = z) ∧
  (∀ (b : List Byte) (c p x : Nat), linearise b c p x ≤ 65535) ∧
  (∀ (b : List Byte) (x : List Nat), (colour b x).length = 3 ∧ ∀ v ∈ colour b x, v ≤ 65535)

/-- THE INSPECTION COMMANDS (R273, R286 to R290): each one's answer and effect where its conditions hold. -/
def Obligations.InspectionCommands : Prop :=
  (∀ k c s, Rung 0x0700 1 k c s → (c.w 0).toNat < 4 → s.host.opState ≠ .boot →
    exec (.inspGetStatus k) s = .next (respond k (okWith (camView (s.cam (c.w 0).toNat))) (begun k s))) ∧
  (∀ k c s m, Rung 0x0700 1 k c s → (c.w 0).toNat = 256 + m → m < 4 → s.host.opState ≠ .boot →
    exec (.inspGetStatus k) s = .next (respond k (okWith (camView (s.cam m))) (setCam m (fun c => { c with
      framesDone := 0, framesDropped := 0, linesBad := 0, linesMissing := 0, csiCorrected := 0 }) (begun k s)))) ∧
  (∀ k c s, Rung 0x0701 5 k c s → c.w 0 &&& ~~~ 0x101 = 0 → (c.w 1).toNat % 4096 = 0 → 4 ≤ (c.w 3).toNat → (c.w 3).toNat ≤ 10 →
    (c.w 4).toNat < 256 → camsConfigured s = 0 → ∀ r : InspRing,
    r = { enabled := flag (c.w 0) 8, base := c.w 2 ++ c.w 1, sizeLog2 := (c.w 3).toNat, irqCount := (c.w 4).toNat } →
    exec (.inspRingConfig k) s = .next (respond k ok { begun k s with
      insp := if flag (c.w 0) 0 then { s.insp with qual := r } else { s.insp with stats := r } })) ∧
  (∀ k c s cam n, Rung 0x0702 3 k c s → (c.w 0).toNat = cam + 256 * n → cam < 4 → 1 ≤ n → n ≤ 29 → 1 + 2 * n ≤ c.payload.length →
    (∀ i, i < n → (c.w (1 + 2 * i)).toNat < 262144 ∧ (c.w (2 + 2 * i)).toNat < 65536) → (s.cam cam).sets = [] → configured cam s = true →
    (∀ g ∈ s.cg.groups, (g.st = .armed ∨ g.st = .locked) → objOf g.objs 12 cam = none) → s.host.outst.length < 16 → s.insp.cams.length = 4 →
    ∃ t e, exec (.inspSetExposure k) s = .next (respond k accepted t) ∧ OnlyChanges [.host, .insp] (begun k s) t ∧ (t.cam cam).sets = [e] ∧
      e.tag = some c.tag ∧ e.script.length = n ∧ e.id = nextId (s.cam cam).lastId ∧ e.id ≠ 0 ∧ (t.cam cam).lastId = e.id ∧
      ∀ i, i < n → e.script[i]? = some (c.w (1 + 2 * i), c.w (2 + 2 * i))) ∧
  (∀ k c s (bytes : List Byte), Rung 0x0703 9 k c s → c.w 0 &&& ~~~ 0x3FFF7F03 = 0 → fld (c.w 0) 16 2 ≠ 3 → fld (c.w 0) 18 6 ≤ 32 →
    fld (c.w 0) 24 6 ≤ 32 → s.host.opState ≠ .boot → ∀ out : Output,
    out = .i2c (fld (c.w 0) 0 2) (fld (c.w 0) 16 2) (fld (c.w 0) 8 7) ((wordBytes (c.payload.drop 1)).take (fld (c.w 0) 18 6)) (fld (c.w 0) 24 6) →
    (∀ e ∈ (s.cam (fld (c.w 0) 0 2)).sets, e.started = false ∨ e.written = true) → exec (.inspI2cXfer k 0 bytes) s = .next (respond k (okWith (bytesToWords (bytes.take (fld (c.w 0) 24 6)) 0 ((fld (c.w 0) 24 6 + 3) / 4)))
      (emit out (begun k s))) ∧
    ∀ r : Fin 4, r ≠ 0 → exec (.inspI2cXfer k r bytes) s = .next (respond k { status := 0x30, payload := [w32 r] }
      (stickEvent .i2cError { ev := .i2cError, source := 0x20 + fld (c.w 0) 0 2, p0 := w32 (fld (c.w 0) 0 2) } (emit out (begun k s))))) ∧
  (∀ k c s (r : Fin 4) (bytes : List Byte), Rung 0x0703 9 k c s → c.w 0 &&& ~~~ 0x3FFF7F03 = 0 → fld (c.w 0) 16 2 ≠ 3 → fld (c.w 0) 18 6 ≤ 32 →
    fld (c.w 0) 24 6 ≤ 32 → s.host.opState ≠ .boot → (∃ e ∈ (s.cam (fld (c.w 0) 0 2)).sets, e.started = true ∧ e.written = false) →
    exec (.inspI2cXfer k r bytes) s = .next { begun k s with insp := { s.insp with xfer := some {
      slot := k, cam := fld (c.w 0) 0 2, bus := (fld (c.w 0) 16 2, fld (c.w 0) 8 7), write := (wordBytes (c.payload.drop 1)).take (fld (c.w 0) 18 6)
      read := fld (c.w 0) 24 6, reason := r, bytes := bytes } } }) ∧
  (∀ (k : Nat) (j : XferJob) (s : State), s.insp.xfer = some j → j.cam = k →
    turnXfer k s = respond j.slot j.ans (runXfer j { s with insp := { s.insp with xfer := none } })) ∧
  (∀ k c s cam L, Rung 0x0704 6 k c s → c.w 0 &&& ~~~ 0x103 = 0 → fld (c.w 0) 0 2 = cam → namedLine (c.w 1) (c.w 2) s = some L → (c.w 3).toNat % 4096 = 0 →
    6 * cxWidth (camCtx cam s) * cxFrameLines (camCtx cam s) ≤ (c.w 5).toNat → s.insp.capture = none → configured cam s = true → s.host.outst.length < 16 →
    ((s.cam cam).lastBegun < L → exec (.inspCapture k) s = .next (respond k accepted { outstand 0x0704 c.tag cam (begun k s) with
      insp := { s.insp with capture := some { tag := c.tag, cam := cam, matrix := flag (c.w 0) 8, start := L, addr := wn64 c.payload 3 } } })) ∧
    ((s.cam cam).frameSeq ≠ 0 → L ≤ (s.cam cam).lastBegun → exec (.inspCapture k) s =
      .next (respond k accepted (complete 0x0704 c.tag 0x21 0 0 0 (outstand 0x0704 c.tag cam (begun k s))))))

/-! ## Calibration -/

/-- CALIBRATION RUNS (R299 to R310). A solve begins where one is due: gathering moves to the other bank, empty, and the old one is solved. It ends with no
result or with a READY one, whose RESULT_ID is the next and never 0; one that a reason of R303 stops counts as a rejection and keeps RESULT_ID. A READY result is
committed where R309 allows: a calibration group with its objects is ARMED, the state in force and the other groups staying. -/
def Obligations.CalibrationRuns : Prop :=
  (∀ s : State, solveMode s = none → exec .calSolveStart s = .next s) ∧
  (∀ (run : Option Word × BitVec 16) (s : State), solveMode s = some run →
    ∃ t, exec .calSolveStart s = .next t ∧ OnlyChanges [.cal] s t ∧ t.cal.bank = (!s.cal.bank) ∧ t.cal.result = .solving ∧ t.cal.run = some run ∧
      t.cal.runReq = none ∧ t.cal.gathering = {} ∧ t.cal.solveBank = { s.cal.gathering with pages := [] }) ∧
  (∀ s : State, (s.cal.run = none ∨ s.cal.result ≠ .solving) → exec .calSolveDone s = .next s) ∧
  (∀ (run : Option Word × BitVec 16) (reason : Nat) (s : State), s.cal.run = some run → s.cal.result = .solving →
    reason = solveReason s.cal s.cal.solveBank (fitColumns s.cal s.cal.solveBank s.cg.modules) (maskModules run.2 s.cg.modules) →
    ∃ t, exec .calSolveDone s = .next t ∧ OnlyChanges [.host, .pers, .out, .cal] s t ∧ t.cal.run = none ∧
      (t.cal.result = .ready → reason = 0) ∧ t.cal.rejects = (if reason = 0 then s.cal.rejects else satAdd s.cal.rejects 1) ∧
      match t.cal.result, t.cal.res with
      | .ready, some r => t.cal.resultId = nextResult s.cal.resultId ∧ r.id = t.cal.resultId ∧ r.objs ≠ []
      | .none, _ => t.cal.resultId = s.cal.resultId
      | _, _ => False) ∧
  (∀ w : Word, nextResult w ≠ 0) ∧
  (∀ s : State, (s.cal.result ≠ .ready ∨ s.cal.autoCommit = false ∨ s.twin.role ≠ .solo ∨ s.host.opState ≠ .print ∨ s.cg.webStopped = true ∨
      hostQuiet s = false ∨ ∀ g, g < 4 → (s.cg.group g).st ≠ .empty) → exec .calAutoCommit s = .next s) ∧
  (∀ (r : CalRes) (objs : List Obj) (s1 : State) (g : Nat) (s : State), s.cal.result = .ready → s.cal.res = some r → s.cal.autoCommit = true →
    s.twin.role = .solo → s.host.opState = .print → s.cg.webStopped = false → hostQuiet s = true → holdMaps r s = (objs, s1) → s.cg.groups.length = 4 →
    g < 4 → (s.cg.group g).st = .empty → (∀ j, j < g → (s.cg.group j).st ≠ .empty) →
    (objs = [] → exec .calAutoCommit s = .next (discardResult s1)) ∧
    (∀ why x, objs ≠ [] → checkGroup true objs s.cg.inForce s = some (why, x) → exec .calAutoCommit s = .next (dropResult why s1)) ∧
    (objs ≠ [] → checkGroup true objs s.cg.inForce s = none →
      ∃ t, exec .calAutoCommit s = .next t ∧ t.cal.result = .committing ∧ t.cal.group = some g ∧ (t.cg.group g).st = .armed ∧
        (t.cg.group g).ownerCal = true ∧ (t.cg.group g).objs = objs.foldl (fun l o => insertObj o l) [] ∧ t.cg.inForce = s.cg.inForce ∧
        (t.cg.group g).abs = s.pos.absHigh + max 1 (calLead s - linesBack s) ∧ 65 ≤ calLead s ∧ ∀ j, j ≠ g → t.cg.group j = s.cg.group j))

/-- THE CALIBRATION COMMANDS (R308, R312 to R316): each one's answer and effect where its conditions hold. -/
def Obligations.CalibrationCommands : Prop :=
  (∀ k c s, Rung 0x0800 1 k c s → c.w 0 = 0 → s.host.opState ≠ .boot →
    exec (.calGetStatus k) s = .next (respond k (okWith (calView (begun k s))) (begun k s))) ∧
  (∀ k c s, Rung 0x0800 1 k c s → c.w 0 = 1 → s.host.opState ≠ .boot →
    exec (.calGetStatus k) s = .next (respond k (okWith (calView (begun k s)))
      { begun k s with cal := { s.cal with samples := 0, excluded := 0, commits := 0, rejects := 0 } })) ∧
  (∀ k c s, Rung 0x0801 15 k c s → c.w 0 &&& ~~~ 0x1FFF = 0 → 256 ≤ fld (c.w 1) 0 16 → 64 ≤ fld (c.w 1) 16 16 → 1 ≤ fld (c.w 2) 0 8 →
    1 ≤ fld (c.w 2) 8 8 → 1 ≤ fld (c.w 2) 16 16 → fld (c.w 2) 16 16 ≤ 0x4000 → 1 ≤ fld (c.w 3) 0 16 → 3000 ≤ fld (c.w 3) 16 16 →
    c.w 4 &&& ~~~ 0xFFFF = 0 → c.w 5 &&& ~~~ 0xFFFFFF = 0 → 1 ≤ fld (c.w 5) 0 8 → 1 ≤ fld (c.w 5) 8 8 → 1 ≤ fld (c.w 5) 16 8 →
    aimWord c.payload 0 = 0 → (∀ j, j < 16 → aimWord c.payload j ≤ aimWord c.payload (j + 1)) → c.w 14 &&& ~~~ 0xFFFF = 0 →
    s.cal.result ≠ .solving → s.cal.result ≠ .committing → s.host.opState ≠ .boot →
    ∃ t, exec (.calConfig k) s = .next (respond k ok t) ∧ OnlyChanges [.cal] (begun k s) t ∧
      t.cal.enable = flag (c.w 0) 0 ∧ t.cal.autoSolve = flag (c.w 0) 1 ∧ t.cal.autoCommit = flag (c.w 0) 2 ∧ t.cal.persist = flag (c.w 0) 3 ∧
      t.cal.guardAll = flag (c.w 0) 4 ∧ t.cal.absolute = flag (c.w 0) 5 ∧ t.cal.curves = flag (c.w 0) 6 ∧ t.cal.classify = flag (c.w 0) 7 ∧
      t.cal.codes = flag (c.w 0) 8 ∧ t.cal.minSamples = fld (c.w 1) 0 16 ∧ t.cal.minNozzle = fld (c.w 1) 16 16 ∧ t.cal.gain = fld (c.w 2) 0 8 ∧
      t.cal.minPages = fld (c.w 2) 8 8 ∧ t.cal.maxKnotStep = fld (c.w 2) 16 16 ∧ t.cal.solvePages = fld (c.w 3) 0 16 ∧ t.cal.leadUs = fld (c.w 3) 16 16 ∧
      t.cal.flatTol = fld (c.w 4) 0 16 ∧ t.cal.aim = (List.range 17).map (aimWord c.payload) ∧ t.cal.result = s.cal.result ∧ t.cal.pend = s.cal.pend) ∧
  (∀ k c s, Rung 0x0802 1 k c s → c.w 0 &&& ~~~ 0xFFFF = 0 → s.cal.result = .none → s.cal.runReq = none → (s.host.opState = .ready ∨ s.host.opState = .print) →
    s.host.outst.length < 16 → exec (.calRun k) s = .next (respond k accepted (outstand 0x0802 c.tag 0 { begun k s with
      cal := { s.cal with runReq := some (c.tag, BitVec.ofNat 16 (fld (c.w 0) 0 16)) } }))) ∧
  (∀ k c s r, Rung 0x0803 4 k c s → s.cal.result = .ready → s.cal.res = some r → (c.w 1).toNat % 4096 = 0 → (resultBytes r).length ≤ (c.w 3).toNat →
    c.w 0 = 0 → s.host.outst.length < 16 → exec (.calExport k) s = .next (respond k accepted (outstand 0x0803 c.tag 0 { begun k s with
      cal := { s.cal with sending := s.cal.sending ++ [(c.tag, (resultBytes r).length)] }
      out := .dmaWrite (wn64 c.payload 1) (resultBytes r) :: s.out }))) ∧
  (∀ s : State, s.cal.sending = [] → exec (.calExportDone true) s = .next s ∧ exec (.calExportDone false) s = .next s) ∧
  (∀ (tag : Word) (n : Nat) (rest : List (Word × Nat)) (s : State), s.cal.sending = (tag, n) :: rest →
    exec (.calExportDone true) s = .next (complete 0x0803 tag 0 (w32 n) 0 0 { s with cal := { s.cal with sending := rest } }) ∧
    exec (.calExportDone false) s = .next (complete 0x0803 tag 0x30 0 0 0 { s with cal := { s.cal with sending := rest } })) ∧
  (∀ k c s, Rung 0x0804 0 k c s → s.cal.result ≠ .committing → s.host.opState ≠ .boot →
    (s.cal.result = .ready → ∃ t, exec (.calDiscard k) s = .next (respond k ok t) ∧ OnlyChanges [.cal] (begun k s) t ∧ t.cal.result = .none ∧
      t.cal.res = none ∧ t.cal.pend = s.cal.pend) ∧
    (s.cal.result ≠ .ready → exec (.calDiscard k) s = .next (respond k ok (begun k s)))) ∧
  (∀ k c s, Rung 0x0805 1 k c s → c.w 0 &&& ~~~ 0xFFFF = 0 → s.cal.result ≠ .solving → s.cal.result ≠ .committing → s.host.opState ≠ .boot →
    ∃ t, exec (.calClear k) s = .next (respond k ok t) ∧ OnlyChanges [.cal] (begun k s) t ∧
      t.cal.pend = (s.cal.pend.filter fun x => !(maskModules (BitVec.ofNat 16 (fld (c.w 0) 0 16)) s.cg.modules).contains (x.1.1 / colsPer)) ∧
      (s.cal.result = .none → t.cal.result = .none))

/-! ## Encoders, position and comparators -/

/-- SAMPLES (R25, R317, R322, R324): a sample takes 50 ns; a counting encoder's count moves by its counts in FWD_SENSE, and another's stays (the
inputs come as counts or, ABZ, as the levels at the ten ENC clocks, each accepted after FILTER_N clocks, R320); ENC0 moves the position by
the same counts times LINE_STEP; a sample changes nothing outside position and time; and T_s is all ones where the web does not move forward. -/
def Obligations.SamplesMove : Prop :=
  (∀ (x0 x1 : EncIn) (d0 d1 : Int) (s : State), d0 = ((s.pos.enc 0).front 0 x0).2 → d1 = ((s.pos.enc 1).front 1 x1).2 →
    OnlyChanges [.pos] s (sample1 s (x0, x1)) ∧ (sample1 s (x0, x1)).pos.mono = s.pos.mono + 50 ∧
    ((sample1 s (x0, x1)).pos.enc 0).count = (if (s.pos.enc 0).counting then (s.pos.enc 0).count + wInt ((s.pos.enc 0).forward d0) else (s.pos.enc 0).count) ∧
    ((sample1 s (x0, x1)).pos.enc 1).count = (if (s.pos.enc 1).counting then (s.pos.enc 1).count + wInt ((s.pos.enc 1).forward d1) else (s.pos.enc 1).count) ∧
    (sample1 s (x0, x1)).pos.acc = (if (s.pos.enc 0).counting then
      s.pos.acc + BitVec.ofInt 80 ((s.pos.enc 0).forward d0 * (s.cg.lineStep.toNat : Int)) else s.pos.acc)) ∧
  (∀ (k : Nat) (d : Int) (l : List (Bool × Bool × Bool)) (e : Enc), (e.front k (.count d)).2 = d ∧ (e.mode ≠ 2 → (e.front k (.pins l)).2 = 0)) ∧
  (∀ (n c : Nat) (b : Bool), filterStep n (b, c) b = (b, 0) ∧ filterStep n (b, c) (!b) = if n ≤ c + 1 then (!b, 0) else (b, c + 1)) ∧
  (∀ (e : Enc) (d : Int), (e.fwdSense = false → e.forward d = d) ∧ (e.fwdSense = true → e.forward d = -d)) ∧
  (∀ (n : Nat) (dp : Int), dp ≤ 0 → tS n dp = 0xFFFFFFFF) ∧
  (∀ (samples : Samples) (s : State), OnlyChanges [.pos] s (advance samples s) ∧
    (advance samples s).pos.mono = s.pos.mono + BitVec.ofNat 64 (50 * samples.length)) ∧
  (∀ e : Enc, e.window ∈ [16, 32, 64, 128, 256, 512, 1024])

/-- ENCODER FAULTS (R319, R321, R326, R330): a signal fault, once, makes speed and index invalid and raises its bit and event 0x0900; recovery, 1 ms after the fault, begins the
windows again; an overfrequency, a quadrature error, a missing index and an overrun of the emulation output set their bits. -/
def Claims.EncoderFaults : Prop :=
  (∀ (k : Fin 2) (s : State), ((s.pos.enc k).mode = 0 ∨ (s.pos.enc k).fault = true) → exec (.encSignalFault k) s = .next s) ∧
  (∀ (k : Fin 2) (s : State), (s.pos.enc k).mode ≠ 0 → (s.pos.enc k).fault = false → exec (.encSignalFault k) s =
    .next (mainUpdate (stickEvent (if (k : Nat) = 0 then .enc0Signal else .enc1Signal) { ev := .encFault, source := 0x30 + k, p0 := w32 k }
      (setEnc k (fun e => { e with
        fault := true, faultAt := s.pos.mono, speedValid := false, indexValid := false, sinceIndex := 0, missing := false }) s)))) ∧
  (∀ (k : Fin 2) (s : State), ((s.pos.enc k).fault = false ∨ s.since (s.pos.enc k).faultAt < 1000000) → exec (.encRecovered k) s = .next s) ∧
  (∀ s : State, (s.pos.enc 1).fault = true → 1000000 ≤ s.since (s.pos.enc 1).faultAt → exec (.encRecovered 1) s =
    .next (mainUpdate (event { ev := .encRecovered, source := 0x31, p0 := 1 } (setEnc 1 (fun e => { e with fault := false, hist := [] }) s)))) ∧
  (∀ s : State, (s.pos.enc 0).fault = true → 1000000 ≤ s.since (s.pos.enc 0).faultAt → exec (.encRecovered 0) s = .next (mainUpdate (event { ev := .encRecovered, source := 0x30, p0 := 0 }
    { setEnc 0 (fun e => { e with fault := false, hist := [] }) s with pos :=
      { (setEnc 0 (fun e => { e with fault := false, hist := [] }) s).pos with posHist := [] } }))) ∧
  (∀ (k : Fin 2) (s : State), ((s.pos.enc k).mode ≠ 1 ∨ (s.pos.enc k).overfreq = true) → exec (.overfreq k) s = .next s) ∧
  (∀ (k : Fin 2) (s : State), (s.pos.enc k).mode = 1 → (s.pos.enc k).overfreq = false →
    exec (.overfreq k) s = .next (stickRec (source := 0x30 + k) .overfreq (setEnc k (fun e => { e with overfreq := true }) s))) ∧
  (∀ (k : Fin 2) (s : State), exec (.overfreqClear k) s = .next (setEnc k (fun e => { e with overfreq := false }) s)) ∧
  (∀ (k : Fin 2) (s : State), ((s.pos.enc k).mode ≠ 2 ∨ (s.pos.enc k).fault = true) → exec (.quadErr k) s = .next s) ∧
  (∀ (k : Fin 2) (s : State), (s.pos.enc k).mode = 2 → (s.pos.enc k).fault = false →
    exec (.quadErr k) s = .next (stickRec (source := 0x30 + k) .quadErr (setEnc k (fun e => { e with quadErrors := satAdd e.quadErrors 1 }) s))) ∧
  (∀ (k : Fin 2) (x : Samples) (s : State) (e : Enc), e = (advance x s).pos.enc k →
    ((e.counting = true ∧ e.indexValid = true ∧ e.indexCounts ≠ 0 ∧ e.missing = false ∧ 2 * e.sinceIndex > 3 * (e.indexCounts : Int)) →
      exec (.indexMissing k x) s = .next (mainUpdate (stickRec (source := 0x30 + k) .indexMissing (setEnc k (fun e => { e with missing := true }) (advance x s))))) ∧
    ((e.counting = false ∨ e.indexValid = false ∨ e.indexCounts = 0 ∨ e.missing = true ∨ 2 * e.sinceIndex ≤ 3 * (e.indexCounts : Int)) →
      exec (.indexMissing k x) s = .next (mainUpdate (advance x s)))) ∧
  (∀ (x : Samples) (s : State), ((advance x s).pos.encoEnable = true → 16 < (advance x s).pos.encoLag →
      exec (.encoOverrun x) s = .next (mainUpdate (stickRec .encoOverrun (advance x s)))) ∧
    (((advance x s).pos.encoEnable = false ∨ (advance x s).pos.encoLag ≤ 16) → exec (.encoOverrun x) s = .next (mainUpdate (advance x s))))

/-- DIRECTION AND INDEX (R323, R325 to R327). DIR turns where the count has moved DIR_HYST from its extreme, with event 0x0902, and with REVERSE when ENC0 turns
backwards. The first index forwards becomes the reference; a later one deviates by less than a period's half: by at most 2 it is a slip, which
corrects the count and, for ENC0, the position; by more it is a mismatch and a new reference; backwards an index changes nothing. -/
def Claims.DirectionAndIndex : Prop :=
  (∀ (k : Fin 2) (x : Samples) (s u : State) (e : Enc), u = advance x s → e = u.pos.enc k →
    ((e.counting = false ∨ e.dirExt < (e.dirHyst : Int)) → exec (.direction k x) s = .next (mainUpdate u)) ∧
    (e.counting = true → (e.dirHyst : Int) ≤ e.dirExt → e.dir = true → exec (.direction k x) s = .next (mainUpdate
      (event { ev := .direction, source := 0x30 + k, p0 := w32 k, p1 := 0, p2 := u.line } (setEnc k (fun e => { e with dir := false, dirExt := 0 }) u)))) ∧
    (e.counting = true → (e.dirHyst : Int) ≤ e.dirExt → e.dir = false → k = 0 → exec (.direction k x) s = .next (mainUpdate
      (stickEvent .reverse { ev := .direction, source := 0x30 + k, p0 := w32 k, p1 := 1, p2 := u.line }
        (setEnc k (fun e => { e with dir := true, dirExt := 0 }) u)))) ∧
    (e.counting = true → (e.dirHyst : Int) ≤ e.dirExt → e.dir = false → k = 1 → exec (.direction k x) s = .next (mainUpdate
      (event { ev := .direction, source := 0x30 + k, p0 := w32 k, p1 := 1, p2 := u.line } (setEnc k (fun e => { e with dir := true, dirExt := 0 }) u))))) ∧
  (∀ (k : Fin 2) (x : Samples) (s u : State) (e : Enc) (dev : Int), u = advance x s → e = u.pos.enc k → dev = indexDev e.count e.ref e.indexCounts →
    ((e.counting = false ∨ e.dir = true ∨ e.indexCounts = 0 ∨ e.zRise = some false) → exec (.encIndex k x) s = .next (mainUpdate u)) ∧
    (e.counting = true → e.dir = false → e.indexCounts ≠ 0 → e.zRise ≠ some false →
      (e.indexValid = false → exec (.encIndex k x) s = .next (mainUpdate
        (setEnc k (fun e => { e with indexValid := true, ref := e.count, sinceIndex := 0, missing := false }) u))) ∧
      (e.indexValid = true → 2 < |dev| → exec (.encIndex k x) s = .next (mainUpdate (stickEvent .indexMismatch
        { ev := .indexMismatch, source := 0x30 + k, p0 := w32 k, p1 := wInt dev, p2 := u.line }
        (setEnc k (fun e => { e with ref := e.count }) (setEnc k (fun e => { e with dev := wInt dev, sinceIndex := 0, missing := false }) u))))) ∧
      (e.indexValid = true → dev = 0 → exec (.encIndex k x) s = .next (mainUpdate
        (setEnc k (fun e => { e with dev := 0, sinceIndex := 0, missing := false }) u))) ∧
      (e.indexValid = true → |dev| ≤ 2 → dev ≠ 0 → u.pos.encs.length = 2 → ∃ t, exec (.encIndex k x) s = .next (mainUpdate t) ∧ OnlyChanges [.pos] u t ∧
        t.pos.acc = u.pos.acc ∧ (t.pos.enc k).count = e.count - wInt dev ∧ (t.pos.enc k).slips = satAdd e.slips 1 ∧
        (k = 0 → t.pos.corr = u.pos.corr - dev * (u.cg.lineStep.toNat : Int) ∧ t.pos.corrOn = true) ∧ (k = 1 → t.pos.corr = u.pos.corr)))) ∧
  (∀ (c ref : Word) (n : Nat), n ≠ 0 → |2 * indexDev c ref n| ≤ n)

/-- AGREEMENT (R328): the two encoders agree after three windows in a row within 5 per cent, both forwards, or while both are below 0.01 m/s, and never with one OFF, windows being 1 ms; the end of
agreement sets ENC_DISAGREE with event 0x0905. -/
def Claims.Agreement : Prop :=
  ∀ (x : Samples) (s u : State) (e0 e1 : Enc) (run : Nat) (new : Bool), u = advance x s → e0 = u.pos.enc 0 → e1 = u.pos.enc 1 →
    (u.since u.pos.agreeAt < 1000000 → exec (.encAgreeWindow x) s = .next (mainUpdate u)) ∧ (1000000 ≤ u.since u.pos.agreeAt →
    run = (if agreeCondition e0 e1 then min 3 (u.pos.agreeRun + 1) else 0) →
    new = (e0.mode != 0 && e1.mode != 0 && (decide (3 ≤ run) || slowCondition e0 e1)) →
    ∃ t, OnlyChanges [.pos] u t ∧ t.pos.agree = new ∧ t.pos.agreeRun = run ∧ t.pos.agreeAt = u.pos.mono ∧ (t.pos.enc 0) = { e0 with winCount := 0 } ∧
      (t.pos.enc 1) = { e1 with winCount := 0 } ∧ t.pos.acc = u.pos.acc ∧
      ((u.pos.agree = false ∨ new = true ∨ e0.mode = 0 ∨ e1.mode = 0) → exec (.encAgreeWindow x) s = .next (mainUpdate t)) ∧
      ((u.pos.agree = true ∧ new = false ∧ e0.mode ≠ 0 ∧ e1.mode ≠ 0) → exec (.encAgreeWindow x) s = .next (mainUpdate (stickEvent .encDisagree
        { ev := .encDisagree, p0 := wInt (Int.tdiv (Int.tdiv e0.winSpeed 65536) 1000), p1 := wInt (Int.tdiv (Int.tdiv e1.winSpeed 65536) 1000) } t))))

/-- Encoders: Claims.EncoderFaults and Claims.DirectionAndIndex and Claims.Agreement. -/
def Obligations.Encoders : Prop := Claims.EncoderFaults ∧ Claims.DirectionAndIndex ∧ Claims.Agreement

/-- COMPARATORS AND CAPTURES (R332 to R339, R358). A comparator that does not fire changes nothing, nor does one while a lower one of the same sample is due; a one-shot of yours that fires ends FIRED and counts; one with a
period moves on to its next target; a capture joins the 32 records, and where they are full sets CAPTURE_LOST instead. Arming, disarming and
reading records answer and change what their conditions give. -/
def Claims.Comparators : Prop :=
  (∀ (n : Fin 24) (x : Samples) (s u : State), u = mainUpdate (advance x s) → (n.val < 8 ∨ (u.cmp n).fires u.pos = false) →
    exec (.comparatorFire n x) s = .next u) ∧
  (∀ (n : Fin 24) (x : Samples) (s u : State), u = mainUpdate (advance x s) → lowerDue n u = true → exec (.comparatorFire n x) s = .next u) ∧
  (∀ (n : Fin 24) (x : Samples) (s u : State), u = mainUpdate (advance x s) → 8 ≤ n.val → n.val < 12 → (u.cmp n).fires u.pos = true →
    lowerDue n u = false → exec (.comparatorFire n x) s = .next (camFire (n.val - 8) ((u.cmp n).clocks u.pos) (setCmp n (fun c => { c with now := false }) u))) ∧
  (∀ (n : Fin 24) (x : Samples) (s u : State), u = mainUpdate (advance x s) → 12 ≤ n.val → (u.cmp n).fires u.pos = true → lowerDue n u = false → u.pos.cmps.length = 24 →
    ∃ t, exec (.comparatorFire n x) s = .next t ∧ t.cg = u.cg ∧ t.pos.acc = u.pos.acc ∧ (t.cmp n).total = (u.cmp n).total + 1 ∧
      (∀ j, j ≠ n.val → t.cmp j = u.cmp j) ∧
      (((u.cmp n).dir ≠ 2 ∧ (u.cmp n).period = 0) ∨ ((u.cmp n).cnt ≠ 0 ∧ (u.cmp n).cnt ≤ (u.cmp n).total + 1) →
        (t.cmp n).st = .fired ∧ (t.cmp n).target = (u.cmp n).target) ∧
      ((u.cmp n).dir = 0 → (u.cmp n).period ≠ 0 → (u.cmp n).cnt = 0 → (t.cmp n).target = (u.cmp n).target + BitVec.ofNat 50 (u.cmp n).period) ∧
      ((u.cmp n).action = 0 → (u.cmp n).event = false → (u.cmp n).dir = 0 → (u.cmp n).period = 0 → OnlyChanges [.pos] u t)) ∧
  (∀ (source n : Nat) (p : BitVec 50) (s : State), s.pos.fifo.length < 32 → ∃ r, capture source n p s = { s with pos := { s.pos with
    fifo := s.pos.fifo ++ [r], capSeq := s.pos.capSeq + 1 } } ∧ r.length = 8) ∧
  (∀ (source n : Nat) (p : BitVec 50) (s : State), 32 ≤ s.pos.fifo.length → capture source n p s = stickRec .captureLost s) ∧
  (∀ k c s n, Rung 0x0903 6 k c s → n = fld (c.w 0) 0 5 → 12 ≤ n → n ≤ 23 → fld (c.w 0) 5 2 ≤ 2 → c.w 0 &&& ~~~ 0x3FFF = 0 → c.w 1 = s.cg.epochNow →
    c.w 3 &&& ~~~ 0x3FFFF = 0 → (fld (c.w 0) 5 2 = 2 → c.w 4 = 0) → (fld (c.w 0) 8 2 = 1 → fld (c.w 5) 16 16 ≠ 0) → s.pos.cmps.length = 24 →
    (s.host.opState = .ready ∨ s.host.opState = .print ∨ s.host.opState = .service) → (s.cmp n).fires s.pos = false → ∀ p : Cmp,
    p = { st := .armed, dir := fld (c.w 0) 5 2, late := flag (c.w 0) 7, action := fld (c.w 0) 8 2, pin := fld (c.w 0) 10 2, event := flag (c.w 0) 12
          epochBound := flag (c.w 0) 13, epoch := c.w 1, target := BitVec.ofNat 50 (wn64 c.payload 2), period := (c.w 4).toNat
          cnt := fld (c.w 5) 0 16, width := fld (c.w 5) 16 16 } →
    (p.isLate s.pos = false → exec (.posCmpArm k) s = .next (respond k (okWith [0]) (setCmp n (fun _ => p) (begun k s)))) ∧
    (p.isLate s.pos = true → p.late = true → ∃ t, exec (.posCmpArm k) s = .next (respond k (okWith [1]) t) ∧ t.cmp n = { p with now := true } ∧
      OnlyChanges [.host, .pers, .out, .pos] (begun k s) t) ∧
    (p.isLate s.pos = true → p.late = false → ∃ t, exec (.posCmpArm k) s = .next (respond k late t) ∧ t.cmp n = { p with st := .late } ∧
      OnlyChanges [.host, .pers, .out, .pos] (begun k s) t)) ∧
  (∀ k c s n, Rung 0x0904 1 k c s → (c.w 0).toNat = n → 12 ≤ n → n ≤ 23 → s.host.opState ≠ .boot → s.pos.cmps.length = 24 →
    ((s.cmp n).st = .armed → (s.cmp n).fires s.pos = false → firedNow n s = false →
      exec (.posCmpDisarm k) s = .next (respond k (okWith [0]) (setCmp n (fun c => { c with st := .idle, now := false }) (begun k s)))) ∧
    ((s.cmp n).st = .armed → (s.cmp n).fires s.pos = false → firedNow n s = true →
      exec (.posCmpDisarm k) s = .next (respond k (okWith [w32 CmpState.fired.code]) (setCmp n (fun c => { c with st := .fired, now := false }) (begun k s)))) ∧
    ((s.cmp n).st ≠ .armed → ∃ t, exec (.posCmpDisarm k) s = .next (respond k (okWith [w32 (s.cmp n).st.code]) t) ∧ t.cmp n = s.cmp n ∧
      OnlyChanges [.pos] (begun k s) t ∧ ∀ j, t.cmp j = s.cmp j)) ∧
  (∀ k c s, Rung 0x0905 0 k c s → s.host.opState ≠ .boot →
    exec (.posCaptureRead k) s = .next (respond k (okWith (w32 (s.pos.fifo.take 7).length :: (s.pos.fifo.take 7).flatten))
      { begun k s with pos := { s.pos with fifo := s.pos.fifo.drop 7 } }))

/-- THE POSITION COMMANDS (R353 to R357): each one's answer and effect where its conditions hold. -/
def Claims.PositionCommands : Prop :=
  (∀ k c s, Rung 0x0900 1 k c s → s.host.opState ≠ .boot →
    (c.w 0 = 0 → exec (.posGetStatus k) s = .next (respond k (okWith (posView (begun k s))) (begun k s))) ∧
    (c.w 0 = 1 → exec (.posGetStatus k) s = .next (respond k (okWith (posView (begun k s))) { begun k s with pos := { s.pos with
      encs := s.pos.encs.map fun e => { e with slips := 0, quadErrors := 0 }
      abs := s.pos.abs.map fun a => { a with errors := 0 } } }))) ∧
  (∀ k c s n mode, Rung 0x0901 3 k c s → n = fld (c.w 0) 0 1 → mode = fld (c.w 0) 1 2 → mode ≠ 3 → 1 ≤ fld (c.w 0) 8 8 → 1 ≤ fld (c.w 0) 16 16 →
    c.w 0 &&& ~~~ 0xFFFFFF1F = 0 → (c.w 2 = 0 ∨ (4 ≤ (c.w 2).toNat ∧ (c.w 2).toNat < 2 ^ 31)) → s.host.firing = false → s.pos.encs.length = 2 →
    ∃ t, exec (.posEncConfig k) s = .next (respond k ok (mainUpdate t)) ∧ OnlyChanges [.pos] (begun k s) t ∧ (t.pos.enc n).mode = mode ∧
      (t.pos.enc n).fwdSense = flag (c.w 0) 3 ∧ (t.pos.enc n).autoCorr = flag (c.w 0) 4 ∧ (t.pos.enc n).filterN = fld (c.w 0) 8 8 ∧
      (t.pos.enc n).dirHyst = fld (c.w 0) 16 16 ∧ (t.pos.enc n).scale = (c.w 1).toNat ∧ (t.pos.enc n).indexCounts = (c.w 2).toNat ∧
      (t.pos.enc n).count = (s.pos.enc n).count ∧ (∀ j, j ≠ n → t.pos.enc j = s.pos.enc j) ∧ t.pos.acc = s.pos.acc) ∧
  (∀ k c s, Rung 0x0902 3 k c s → c.w 0 &&& ~~~ 1 = 0 → 65536 ≤ (c.w 1).toNat → (c.w 1).toNat ≤ 65535 * 65536 → s.host.opState ≠ .boot →
    exec (.posEncoConfig k) s = .next (respond k ok { begun k s with pos := { s.pos with
      encoEnable := flag (c.w 0) 0, encoRatio := (c.w 1).toNat, encoZ := (c.w 2).toNat, encoRem := 0 } }))

/-! ## Time, timers and absolute position -/

/-- TIMERS (R349, R350, R359). A timer that is not armed, or whose instant is beyond the next sample, changes nothing; one that fires is FIRED, or with a period goes on to
an instant to come. A step of NET_TIME makes a one-shot whose instant it passed LATE. Arming answers whether the start had passed already. -/
def Claims.Timers : Prop :=
  (∀ (n : Fin 8) (x : Samples) (s u : State), u = mainUpdate (advance x s) →
    ((u.timer n).st ≠ 1 ∨ (u.timer n).now u.pos + 50 ≤ (u.timer n).nextAt.toNat) → exec (.timerFire n x) s = .next u) ∧
  (∀ (n : Fin 8) (x : Samples) (s u : State), u = mainUpdate (advance x s) → (u.timer n).st = 1 → (u.timer n).nextAt.toNat < (u.timer n).now u.pos + 50 →
    u.pos.timers.length = 8 → ∃ t, exec (.timerFire n x) s = .next t ∧ t.cg = u.cg ∧ t.pos.acc = u.pos.acc ∧
      ((u.timer n).period = 0 → (t.timer n).st = 2) ∧
      ((u.timer n).period ≠ 0 → (t.timer n).st = 1 ∧ (t.timer n).nextAt =
        BitVec.ofNat 64 (max ((u.timer n).nextAt.toNat + (u.timer n).period) ((u.timer n).after ((u.timer n).now u.pos)))) ∧
      (∀ j, j ≠ n.val → t.timer j = u.timer j) ∧
      ((u.timer n).action = 1 → (u.timer n).event = false →
        t.out = (emitPulse (posOut (u.timer n).pin) (10 * (u.timer n).width)
          (u.pos.mono.toNat + 5 * (((u.timer n).nextAt.toNat - (u.timer n).now u.pos) / 5)) u).out) ∧
      ((u.timer n).action = 4 → n.val < 2 → (cell u.pos.abs n.val {}).protocol ≠ 0 → u.pos.abs.length = 2 → u.axes.ax.length = 2 →
        (cell t.pos.abs n.val {}).reading = true ∧ (t.axis n.val).latched = (u.axis n.val).cmd)) ∧
  (∀ (n : Nat) (s : State), (s.timer n).st = 1 → (s.timer n).base = true → (s.timer n).period = 0 → (s.timer n).late = false →
    (s.timer n).nextAt.toNat ≤ s.pos.netNow → timerStep s n = stickRec .timerLate (setTimer n (fun t => { t with st := 3 }) s)) ∧
  (∀ k c s n, Rung 0x0909 5 k c s → n = fld (c.w 0) 0 3 → c.w 0 &&& ~~~ 0xFFF = 0 → s.host.opState ≠ .boot → s.pos.timers.length = 8 →
    (flag (c.w 0) 11 = true → exec (.timeTimerArm k) s = .next (respond k ok (setTimer n (fun t => { t with st := 0 }) (begun k s)))) ∧
    (flag (c.w 0) 11 = false → (n < 2 → fld (c.w 0) 5 3 = 4) → (2 ≤ n → fld (c.w 0) 5 3 < 4) →
      ((c.w 3).toNat = 0 ∨ (10000 ≤ (c.w 3).toNat ∧ (c.w 3).toNat ≤ 1000000000)) → fld (c.w 4) 16 16 = 0 → (fld (c.w 0) 5 3 = 1 → fld (c.w 4) 0 16 ≠ 0) →
      ∀ t : Timer, t = { st := 1, base := flag (c.w 0) 3 && decide (2 ≤ n), late := flag (c.w 0) 4, action := fld (c.w 0) 5 3, pin := fld (c.w 0) 8 2
                         event := flag (c.w 0) 10, start := BitVec.ofNat 64 (wn64 c.payload 1), nextAt := BitVec.ofNat 64 (wn64 c.payload 1)
                         period := (c.w 3).toNat, width := fld (c.w 4) 0 16 } →
      (t.now s.pos < t.start.toNat → exec (.timeTimerArm k) s = .next (respond k (okWith [0]) (setTimer n (fun _ => t) (begun k s)))) ∧
      (t.start.toNat ≤ t.now s.pos → t.late = true → exec (.timeTimerArm k) s =
        .next (respond k (okWith [1]) (stickRec .timerLate (setTimer n (fun _ => t) (begun k s))))) ∧
      (t.start.toNat ≤ t.now s.pos → t.late = false → exec (.timeTimerArm k) s =
        .next (respond k late (stickRec .timerLate (setTimer n (fun _ => { t with st := 3 }) (begun k s)))))))

/-- ComparatorsAndTimers: Claims.Comparators and Claims.Timers. -/
def Obligations.ComparatorsAndTimers : Prop := Claims.Comparators ∧ Claims.Timers

/-- NETWORK TIME, THE MESSAGES (R340, R341): a Sync or Follow_Up, a Delay_Req and a Delay_Resp of the selected master make an exchange; the eighth gives a filtered
exchange; other domains, transports and ports change nothing. An Announce makes its sender the master where it is the best. -/
def Claims.TimeMessages : Prop :=
  (∀ (d : Byte) (b : Bool) (p : Dword) (s : State), ¬(s.pos.ptpEnable = true ∧ d = s.pos.ptpDomain ∧ b = s.pos.ptpUdp ∧
    ∃ m, s.pos.master = some m ∧ m.port = p) → fromMaster d b p s = false) ∧
  (∀ (d : Byte) (b : Bool) (p : Dword) (seq : Nat) (f : Bool) (log : Int) (t1 : Option Dword) (t4 : Dword) (j : Int) (s : State), fromMaster d b p s = false →
    exec (.ptpSyncRx d p ⟨b, seq, log⟩ f t1 j) s = .next s ∧ exec (.ptpDelayRespRx d ⟨b, p, log⟩ seq t4) s = .next s) ∧
  (∀ (d : Byte) (b : Bool) (p : Dword) (seq : Nat) (f : Bool) (log : Int) (t1 : Option Dword) (j : Int) (s : State), (log < -4 ∨ 1 < log) →
    exec (.ptpSyncRx d p ⟨b, seq, log⟩ f t1 j) s = .next s) ∧
  (∀ (d : Byte) (b : Bool) (p : Dword) (seq : Nat) (log : Int) (t1 : Option Dword) (j : Int) (s : State), fromMaster d b p s = true → -4 ≤ log → log ≤ 1 →
    exec (.ptpSyncRx d p ⟨b, seq, log⟩ false t1 j) s = .next { s with pos := { s.pos with
      syncT1 := some (t1, BitVec.ofInt 64 (s.pos.netNow + j), seq), syncAt := s.pos.mono, syncNs := logNs log } } ∧
    (∀ t2, s.pos.syncT1 = some (none, t2, seq) →
      exec (.ptpSyncRx d p ⟨b, seq, log⟩ true t1 j) s = .next { s with pos := { s.pos with syncT1 := some (t1, t2, seq) } })) ∧
  (∀ (seq : Nat) (j : Int) (s : State), (s.pos.ptpEnable = false ∨ s.pos.master = none) → exec (.ptpDelayReqTx seq j) s = .next s) ∧
  (∀ (seq : Nat) (j : Int) (s : State), s.pos.ptpEnable = true → s.pos.master.isSome = true → exec (.ptpDelayReqTx seq j) s =
    .next (emit (.delayReq seq (if s.pos.ptpUdp then some (s.pos.ipv4, s.pos.ipv4Mask) else none)) { s with pos := { s.pos with delayT3 := some (BitVec.ofInt 64 (s.pos.netNow + j), seq) } })) ∧
  (∀ (d : Byte) (b : Bool) (p : Dword) (log : Int) (seq q2 : Nat) (t1 t2 t3 t4 : Dword) (s : State), fromMaster d b p s = true → s.pos.syncT1 = some (some t1, t2, q2) →
    s.pos.delayT3 = some (t3, seq) →
    (s.pos.xchg.length < 7 → exec (.ptpDelayRespRx d ⟨b, p, log⟩ seq t4) s = .next { s with pos := { s.pos with
      syncT1 := none, delayT3 := none, xchg := s.pos.xchg ++ [exchangeOf t1.toNat t2.toNat t3.toNat t4.toNat] } }) ∧
    (s.pos.xchg.length = 7 → ∃ x, x ∈ s.pos.xchg ++ [exchangeOf t1.toNat t2.toNat t3.toNat t4.toNat] ∧
      (∀ y ∈ s.pos.xchg ++ [exchangeOf t1.toNat t2.toNat t3.toNat t4.toNat], x.1 ≤ y.1) ∧
      exec (.ptpDelayRespRx d ⟨b, p, log⟩ seq t4) s = .next (filtered x.2 { s with pos := { s.pos with syncT1 := none, delayT3 := none, xchg := [] } }))) ∧
  (∀ (d : Byte) (p1 cls acc var p2 : Nat) (gm : Dword) (steps : Nat) (b : Bool) (port : Dword) (log : Int) (s : State),
    (s.pos.ptpEnable = false ∨ d ≠ s.pos.ptpDomain ∨ b ≠ s.pos.ptpUdp) → exec (.ptpAnnounceRx d p1 cls acc var p2 gm steps ⟨b, port, log⟩) s = .next s) ∧
  (∀ (d : Byte) (m : PtpMaster) (n : Nat) (log : Int) (s : State), s.pos.ptpEnable = true → d = s.pos.ptpDomain → s.pos.foreign = [(m, n)] → 1 ≤ n →
    s.pos.master = none → (s.pos.tState = .freeRun ∨ s.pos.tState = .expired) →
    ∃ t, exec (.ptpAnnounceRx d m.p1 m.cls m.acc m.var m.p2 m.gm m.steps ⟨s.pos.ptpUdp, m.port, log⟩) s = .next t ∧ t.pos.master = some m ∧
      t.pos.foreign = [(m, n + 1)] ∧ t.pos.annAt = s.pos.mono ∧ t.pos.annNs = logNs log ∧ t.pos.tState = .acquiring ∧ t.pos.net = s.pos.net) ∧
  (∀ (d : Byte) (m : PtpMaster) (log : Int) (s : State), s.pos.ptpEnable = true → d = s.pos.ptpDomain → s.pos.foreign = [] → s.pos.master = none →
    ∃ t, exec (.ptpAnnounceRx d m.p1 m.cls m.acc m.var m.p2 m.gm m.steps ⟨s.pos.ptpUdp, m.port, log⟩) s = .next t ∧ OnlyChanges [.pos] s t ∧ t.pos.master = none ∧
      t.pos.foreign = [(m, 1)] ∧ t.pos.tState = s.pos.tState)

/-- THE TIME STATE (R343 to R345): 16 filtered exchanges in a row within 2 µs lead from ACQUIRING to LOCKED; more than 10 µs leads back; losing the master leads from
LOCKED to HOLDOVER; 4 within 2 µs lead back to LOCKED, and an error estimate beyond the limit to EXPIRED. A step moves NET_TIME by its size and
counts; TIME_SET sets it, and TIME_CONFIG without PTP frees it. Another domain or transport loses the
master at once (DEDUCED, log 24). -/
def Claims.TimeStates : Prop :=
  (∀ (o : Int) (s : State), s.pos.tState = .acquiring → |o| ≤ 2000 →
    (15 ≤ s.pos.okRun → (filtered o s).pos.tState = .locked) ∧
    (s.pos.okRun < 15 → (filtered o s).pos.tState = .acquiring ∧ (filtered o s).pos.okRun = s.pos.okRun + 1)) ∧
  (∀ (o : Int) (s : State), s.pos.tState = .acquiring → 2000 < |o| → (filtered o s).pos.tState = .acquiring ∧ (filtered o s).pos.okRun = 0 ∧
    ((filtered o s).pos.net ≠ s.pos.net → 1000000 < |o|)) ∧
  (∀ (o : Int) (s : State), s.pos.tState = .locked → (10000 < |o| → (filtered o s).pos.tState = .acquiring) ∧
    (|o| ≤ 10000 → (filtered o s).pos.tState = .locked) ∧ (filtered o s).pos.net = s.pos.net ∧ |(filtered o s).pos.rateAdj| ≤ 4294967) ∧
  (∀ (o : Int) (s : State), s.pos.tState = .holdover → (2000 < |o| → (filtered o s).pos.tState = .acquiring) ∧
    (|o| ≤ 2000 → 3 ≤ s.pos.okRun → (filtered o s).pos.tState = .locked) ∧
    (|o| ≤ 2000 → s.pos.okRun < 3 → (filtered o s).pos.tState = .holdover ∧ (filtered o s).pos.okRun = s.pos.okRun + 1)) ∧
  (∀ s : State, (s.pos.master = none ∨ (s.since s.pos.annAt < 3 * s.pos.annNs ∧ s.since s.pos.syncAt < 4 * s.pos.syncNs)) →
    exec .ptpMasterLost s = .next s) ∧
  (∀ (m : PtpMaster) (s : State), s.pos.master = some m → (3 * s.pos.annNs ≤ s.since s.pos.annAt ∨ 4 * s.pos.syncNs ≤ s.since s.pos.syncAt) → ∃ t, exec .ptpMasterLost s = .next t ∧ t.pos.master = none ∧ t.pos.net = s.pos.net ∧
    t.pos.tState = (if s.pos.tState = .locked then .holdover else s.pos.tState) ∧ (s.pos.tState = .locked → t.pos.holdStart = some s.pos.mono)) ∧
  (∀ s : State, (s.pos.tState ≠ .holdover ∨ s.pos.errNow ≤ 1000 * s.pos.holdLimit) → exec .holdoverExpired s = .next s) ∧
  (∀ s : State, s.pos.tState = .holdover → 1000 * s.pos.holdLimit < s.pos.errNow → ∃ t, exec .holdoverExpired s = .next t ∧ t.pos.tState = .expired ∧
    (∀ g, g < 4 → (s.cg.group g).trigger = 1 → (s.cg.group g).line = none → (t.cg.group g).st ≠ .armed) ∧ t.cg.inForce = s.cg.inForce) ∧
  (∀ (delta : Int) (s : State), (stepNet delta s).pos.net = s.pos.net + BitVec.ofInt 96 (delta * 2 ^ 32) ∧
    (stepNet delta s).pos.stepGen = s.pos.stepGen + 1 ∧ (stepNet delta s).pos.mono = s.pos.mono ∧ OnlyChanges [.host, .pers, .out, .pos] s (stepNet delta s)) ∧
  (∀ s : State, (forgetMasters s).pos.master = none ∧ (forgetMasters s).pos.foreign = [] ∧ (forgetMasters s).pos.net = s.pos.net ∧
    (forgetMasters s).pos.tState = (if s.pos.master.isSome ∧ s.pos.tState = .locked then .holdover else s.pos.tState)) ∧
  (∀ k c s, Rung 0x0907 5 k c s → c.w 0 &&& ~~~ 0xFF03 = 0 → 1 ≤ (c.w 1).toNat → (c.w 1).toNat ≤ 100000 → 1 ≤ (c.w 2).toNat → (c.w 2).toNat ≤ 1000 →
    s.host.opState ≠ .boot →
    (flag (c.w 0) 0 = true → ∀ u, u = { begun k s with pos := { s.pos with
        ptpEnable := true, ptpUdp := flag (c.w 0) 1, ptpDomain := BitVec.ofNat 8 (fld (c.w 0) 8 8), holdPpb := (c.w 1).toNat
        holdLimit := (c.w 2).toNat, ipv4 := c.w 3, ipv4Mask := c.w 4 } } →
      (u.pos.ptpUdp = s.pos.ptpUdp → u.pos.ptpDomain = s.pos.ptpDomain → exec (.timeConfig k) s = .next (respond k ok u)) ∧
      ((u.pos.ptpUdp ≠ s.pos.ptpUdp ∨ u.pos.ptpDomain ≠ s.pos.ptpDomain) → exec (.timeConfig k) s = .next (respond k ok (forgetMasters u)))) ∧
    (flag (c.w 0) 0 = false → ∃ t, exec (.timeConfig k) s = .next (respond k ok t) ∧ t.pos.ptpEnable = false ∧ t.pos.tState = .freeRun ∧
      t.pos.master = none ∧ t.pos.net = s.pos.net ∧ t.pos.holdPpb = (c.w 1).toNat)) ∧
  (∀ k c s, Rung 0x0908 2 k c s → (s.pos.tState = .freeRun ∨ s.pos.tState = .expired) → ∃ t, exec (.timeSet k) s = .next (respond k ok t) ∧
    t.pos.net = BitVec.ofNat 96 (wn64 c.payload 0 * 2 ^ 32) ∧ t.pos.stepGen = s.pos.stepGen + 1 ∧ t.pos.mono = s.pos.mono ∧
    OnlyChanges [.host, .pers, .out, .pos] (begun k s) t)

/-- NetworkTime: Claims.TimeMessages and Claims.TimeStates. -/
def Obligations.NetworkTime : Prop := Claims.TimeMessages ∧ Claims.TimeStates

/-- ABSOLUTE POSITION (R351, R352, R361): a read that ends in a GOOD or WARN outcome gives the position, one in another outcome an error, keeping the position; three good ones in a row
make POS_VALID, three bad ones take it away. Gray code is decoded to binary. A port configured anew has no valid
position, which its standing axis takes as a loss of POS_VALID (DEDUCED, log 24). -/
def Claims.AbsolutePosition : Prop :=
  (∀ (k : Fin 2) (b : Bool) (raw err crc : Nat) (s : State), (cell s.pos.abs k.val {}).reading = false → exec (.absReadDone k b raw err crc) s = .next s) ∧
  (∀ (k : Fin 2) (b : Bool) (raw err crc pos o : Nat) (a : AbsPort) (s : State), a = cell s.pos.abs k.val {} → a.reading = true → s.pos.abs.length = 2 →
    pos = (if a.protocol = 2 ∧ a.gray then ungray a.posBits (raw % 2 ^ a.posBits) else raw % 2 ^ a.posBits) → o = absOutcome a b pos err crc →
    ∃ t p, exec (.absReadDone k b raw err crc) s = .next t ∧ cell t.pos.abs k.val {} = p ∧ p.reading = false ∧ p.outcome = o ∧
      (o < 2 → p.pos = BitVec.ofNat 40 pos ∧ p.good = true ∧ p.errors = a.errors ∧ p.posValid = (a.posValid || decide (2 ≤ a.goodRun))) ∧
      (2 ≤ o → p.pos = a.pos ∧ p.good = a.good ∧ p.errors = satAdd a.errors 1 ∧ p.posValid = (a.posValid && decide (a.badRun < 2)))) ∧
  (∀ n x : Nat, x < 2 ^ n → ungray n (Nat.xor x (x / 2)) = x) ∧
  (∀ (a : AbsPort) (pos err crc : Nat), absOutcome a false pos err crc = 2 ∧ absOutcome a true pos err crc ≤ 5 ∧
    (a.protocol = 1 → crc ≠ absCrc a pos err → absOutcome a true pos err crc = 3)) ∧
  (∀ k c s n, Rung 0x0906 5 k c s → n = fld (c.w 0) 0 1 → c.w 0 &&& ~~~ 0x1FFFF = 0 → fld (c.w 0) 1 2 ≠ 3 → 8 ≤ fld (c.w 0) 4 6 → fld (c.w 0) 4 6 ≤ 40 →
    fld (c.w 0) 10 2 ≠ 3 → fld (c.w 0) 12 5 ≤ 16 → 100 ≤ fld (c.w 1) 0 16 → fld (c.w 1) 0 16 ≤ 10000 →
    ((s.timer n).st ≠ 1 ∨ (s.timer n).period = 0 ∨
      readTime (fld (c.w 0) 1 2) (fld (c.w 0) 4 6) (fld (c.w 0) 10 2) (fld (c.w 0) 12 5) (fld (c.w 1) 0 16) (fld (c.w 2) 24 8) ≤ (s.timer n).period) →
    1 ≤ fld (c.w 2) 16 8 → fld (c.w 2) 16 8 ≤ 100 → 1 ≤ fld (c.w 2) 24 8 → fld (c.w 2) 24 8 ≤ 100 → fld (c.w 3) 0 16 ≤ 2000 → c.w 3 &&& ~~~ 0xFFFF = 0 →
    (s.axis n).vel = 0 → s.pos.abs.length = 2 → ∀ u, u = (if (cell s.pos.abs n {}).posValid then posLost n (begun k s) else begun k s) →
    ∃ t a, exec (.posAbsConfig k) s = .next (respond k ok t) ∧ OnlyChanges [.pos] u t ∧ cell t.pos.abs n {} = a ∧ a.protocol = fld (c.w 0) 1 2 ∧
      a.gray = flag (c.w 0) 3 ∧ a.posBits = fld (c.w 0) 4 6 ∧ a.errBits = fld (c.w 0) 10 2 ∧ a.crcWidth = fld (c.w 0) 12 5 ∧
      a.clockKhz = fld (c.w 1) 0 16 ∧ a.crcPoly = fld (c.w 1) 16 16 ∧ a.crcXor = fld (c.w 2) 0 16 ∧ a.timeoutUs = fld (c.w 2) 16 8 ∧
      a.monoUs = fld (c.w 2) 24 8 ∧ a.delayNs = fld (c.w 3) 0 16 ∧ a.maxStep = (c.w 4).toNat ∧ a.posValid = false ∧
      ∀ j, j ≠ n → cell t.pos.abs j {} = cell s.pos.abs j {})

/-- PositionAndItsCommands: Claims.PositionCommands and Claims.AbsolutePosition. -/
def Obligations.PositionAndItsCommands : Prop := Claims.PositionCommands ∧ Claims.AbsolutePosition

/-! ## Axes -/

/-- THE STEP GENERATOR AND THE CURRENTS (R365, R366): 1,000 clocks add 1,000 increments to the phase, a carry is a step in the direction of the velocity, and the
electrical index follows it; a DAC code is never above the current scale; S is 0 at 0, 1,023 at a quarter, and its quadrature holds to rounding. -/
def Claims.StepsAndCurrents : Prop :=
  (∀ (x : Axis) (v : Int), 0 ≤ v → ∃ n : Nat, (x.steps v).frac + n * 2 ^ 32 = x.frac + 1000 * velInc v ∧ (x.steps v).frac < 2 ^ 32 ∧
    (x.steps v).cmd = wrap32 (x.cmd + n) ∧ (x.steps v).elec = (x.elec + n) % 1024) ∧
  (∀ (x : Axis) (v : Int), v < 0 → ∃ n : Nat, (x.steps v).frac + n * 2 ^ 32 = x.frac + 1000 * velInc v ∧ (x.steps v).frac < 2 ^ 32 ∧
    (x.steps v).cmd = wrap32 (x.cmd - n) ∧ ((x.steps v).elec : Int) = ((x.elec : Int) - n) % 1024) ∧
  (∀ i n : Nat, dacCode i n ≤ i) ∧
  (∀ n : Nat, sineAbs (n + 512) = sineAbs n ∧ sineNeg (n + 1024) = sineNeg n ∧ sineAbs n ≤ 1023) ∧
  sineAbs 0 = 0 ∧ sineAbs 256 = 1023 ∧
  (∀ n : Nat, n ≤ 256 → sineAbs n * sineAbs n + sineAbs (256 - n) * sineAbs (256 - n) ≤ 1023 * 1023 + 1450 ∧
    1023 * 1023 ≤ sineAbs n * sineAbs n + sineAbs (256 - n) * sineAbs (256 - n) + 1450) ∧
  (∀ i : Int, -2 ^ 31 ≤ i → i < 2 ^ 31 → wrap32 i = i)

/-- THE PLANNER'S LIMITS (R369, R372): a tick keeps the acceleration within its limit, changes it by at most the jerk, except in the tick in which the axis comes to
rest, does not turn the direction round, and keeps the velocity limit unless it brakes. -/
def Claims.PlannerLimits : Prop :=
  (∀ (v a lim jerk : Int), 0 ≤ v → |a| ≤ lim → 0 < jerk → ∀ p, p = brake v a lim jerk →
    0 ≤ p.1 ∧ |p.2| ≤ lim ∧ ((p.1 = v + p.2 ∧ |p.2 - a| ≤ jerk) ∨ p = (0, 0))) ∧
  (∀ (v a vmax lim jerk : Int) (stops : List (Int × Int)), 0 ≤ v → |a| ≤ lim → 0 < jerk → ∀ p, p = planTick v a vmax lim jerk stops →
    0 ≤ p.1 ∧ |p.2| ≤ lim ∧ ((p.1 = v + p.2 ∧ |p.2 - a| ≤ jerk) ∨ p = (0, 0)) ∧ (p.1 ≤ vmax ∨ p = brake v a lim jerk))

/-- StepsAndPlanner: Claims.StepsAndCurrents and Claims.PlannerLimits. -/
def Obligations.StepsAndPlanner : Prop := Claims.StepsAndCurrents ∧ Claims.PlannerLimits

/-- TICKS AND CAUSES (R369, R374 to R378, R383, R384). A tick, every 10 µs, is the two axes' ticks in order, then the sequence and CAP_CONFIRMED. An invalid position and a stall make a FAULT with an
empty queue (a command finds the causes before it applied, R378), and a stall stands still at MEAS with I_RUN; an axis in FAULT keeps its target queue empty and stays in FAULT; a move at its target ends with OK and MEAS. -/
def Claims.TicksAndCauses : Prop :=
  (∀ s : State, s.since s.axes.tickAt < 10000 → exec .plannerTick s = .next s) ∧
  (∀ s u : State, 10000 ≤ s.since s.axes.tickAt → u = { s with axes := { s.axes with tickAt := s.pos.mono } } →
    exec .plannerTick s = .next (capUpdate (seqTick (axisTick (axisTick u 0) 1)))) ∧
  (∀ (a : Nat) (s : State), a < 2 → s.axes.ax.length = 2 →
    ((applyCause a s .posInvalid).axis a).st = .fault ∧ ((applyCause a s .posInvalid).axis a).queue = [] ∧
    ((applyCause a s .stall).axis a).st = .fault ∧ ((applyCause a s .stall).axis a).queue = [] ∧
    ((applyCause a s .stall).axis a).cmd = (s.axis a).meas ∧ ((applyCause a s .stall).axis a).vel = 0 ∧
    ((applyCause a s .stall).axis a).iNow = (s.axis a).cfg.iRun ∧ (applyCause a s .stall).axes.seq = none) ∧
  (∀ (a : Nat) (s : State), a < 2 → s.axes.ax.length = 2 → (s.axis a).st = .fault → (motionTick a s) = setAxis a (fun x => x.stopTick true) s ∧
    ((motionTick a s).axis a).st = .fault) ∧
  (∀ (a : Nat) (m : Move) (tag : Word) (s : State), a < 2 → s.axes.ax.length = 2 → (s.axis a).st = .moving → (s.axis a).home = none →
    (s.axis a).queue = [m] → m.tag = some tag → m.dir ≠ 0 → m.target = (s.axis a).cmd → (s.axis a).vel = 0 →
    (s.axis a).err.natAbs ≤ (s.axis a).cfg.stallErr →
    ∃ t, motionTick a s = complete 0x0A02 tag 0 (wInt (s.axis a).meas) 0 0 t ∧ OnlyChanges [.axes] s t ∧ (t.axis a).queue = [] ∧ (t.axis a).cmd = m.target) ∧
  (∀ (a : Nat) (s : State), (s.axis a).stopDue ≠ [] → settle a s = applyCauses a (interlockTick a s)) ∧
  (∀ (a : Nat) (s : State), ((s.axis a).st = .stopping ∨ (s.axis a).st = .fault) → (s.axis a).stopDue = [] → settle a s = s) ∧
  (∀ s : State, (capUpdate s).axes.seq = s.axes.seq ∧ ((capUpdate s).axis 0) = s.axis 0) ∧
  (∀ s : State, s.axes.ax.length = 2 → ((capUpdate s).axis 1).capConf = capConditions s)

/-- AXIS CURRENT, CHOPPERS AND SWITCHES (R366 to R368, R370, R376, R377, R379, R384): each row's effect; a switch change that is ignored, or
that does not become active, trips nothing. -/
def Claims.ChoppersAndSwitches : Prop :=
  (∀ (a : Fin 2) (s : State), ((s.axis a).vel ≠ 0 ∨ (s.axis a).hold = true ∨
    s.since (s.axis a).stillAt < 1000000 * (s.axis a).cfg.holdMs) → exec (.axHoldCurrent a) s = .next s) ∧
  (∀ (a : Fin 2) (s : State), (s.axis a).vel = 0 → (s.axis a).hold = false → 1000000 * (s.axis a).cfg.holdMs ≤ s.since (s.axis a).stillAt →
    exec (.axHoldCurrent a) s = .next (setAxis a (fun x => { x with hold := true, iNow := if x.err.natAbs > x.cfg.boostErr ∨ x.cfg.iRun < x.iNow then x.iNow else x.cfg.iHold }) s)) ∧
  (∀ (a : Fin 2) (b : Bool) (s : State) (x : Axis) (p q : Phase), x = s.axis a → p = x.phase b → p.on = false → exec (.chopOnEnd a b) s = .next s ∧
    (s.since p.since < 100 * x.cfg.tOff → exec (.chopOffEnd a b) s = .next s) ∧
    (100 * x.cfg.tOff ≤ s.since p.since → q = { on := true, fast := false, code := dacCode x.iNow (x.phaseIndex b), neg := sineNeg (x.phaseIndex b) != (b && x.cfg.fwdSense)
                                                since := s.pos.mono } →
      exec (.chopOffEnd a b) s = .next (drive (bridgeOut a b q) (setPhase a b (fun _ => q) s)))) ∧
  (∀ (a : Fin 2) (b : Bool) (s u : State) (x : Axis) (p q : Phase), x = s.axis a → p = x.phase b → p.on = true → exec (.chopOffEnd a b) s = .next s ∧
    (s.since p.since < 50 * x.cfg.tBlank → exec (.chopOnEnd a b) s = .next s) ∧
    (50 * x.cfg.tBlank ≤ s.since p.since →
      ((x.cfg.decay = 0 ∨ x.cfg.fastFrac = 0 ∨ p.code = 0 ∨ (x.cfg.decay = 2 ∧ x.falling b = false)) →
        q = { p with on := false, fast := false, since := s.pos.mono } →
        exec (.chopOnEnd a b) s = .next (drive (bridgeOut a b q) (setPhase a b (fun _ => q) s))) ∧
      (x.cfg.fastFrac ≠ 0 → p.code ≠ 0 → (x.cfg.decay = 1 ∨ (x.cfg.decay = 2 ∧ x.falling b = true)) →
        q = { p with on := false, fast := true, since := s.pos.mono } → u = drive (bridgeOut a b q) (setPhase a b (fun _ => q) s) →
        exec (.chopOnEnd a b) s =
          .next (emit (.pulse (bridgePin a b (!p.neg)) (x.cfg.tOff * 100 * x.cfg.fastFrac / 8) true u.pos.mono.toNat) u)))) ∧
  (∀ (a i clocks : Nat) (level : Bool) (s : State), a < 2 → i < 4 → s.axes.ax.length = 2 →
    (clocks < (s.axis a).cfg.filtN ∨ (s.axis a).swMask.getLsbD i = true ∨ (s.axis a).sw.getLsbD i = (level == (s.axis a).cfg.pol.getLsbD i)) →
    (switchInput a i level clocks s).1 = false ∧ ((switchInput a i level clocks s).2.axis a).sw = (s.axis a).sw ∧
    OnlyChanges [.axes] s (switchInput a i level clocks s).2) ∧
  (∀ (a i clocks : Nat) (level : Bool) (s : State), a < 2 → i < 4 → s.axes.ax.length = 2 → (s.axis a).edgePos.length = 4 → (s.axis a).cfg.filtN ≤ clocks →
    (s.axis a).swMask.getLsbD i = false → (s.axis a).sw.getLsbD i ≠ (level == (s.axis a).cfg.pol.getLsbD i) →
    (switchInput a i level clocks s).1 = true ∧ ((switchInput a i level clocks s).2.axis a).sw.getLsbD i = (level == (s.axis a).cfg.pol.getLsbD i) ∧
    cell ((switchInput a i level clocks s).2.axis a).edgePos i 0 = wrap32 ((s.axis a).cmdBefore clocks) ∧
    OnlyChanges [.axes] s (switchInput a i level clocks s).2) ∧
  (∀ (a : Fin 2) (hi level : Bool) (clocks : Nat) (s u : State) (e : Bool), (e, u) = switchInput a (b2n hi) level clocks s →
    (e = false ∨ (u.axis a).sw.getLsbD (b2n hi) = false → exec (.limitSwitchEdge a hi level clocks) s = .next u) ∧
    (e = true → (u.axis a).sw.getLsbD (b2n hi) = true → ∀ v, v = stickEvent .limitTrip
        { ev := .limitTrip, source := 0x40 + a, p0 := w32 a, p1 := w32 (b2n hi), p2 := wInt (u.axis a).meas }
        (setAxis a (fun x => { x with limitTrips := satAdd x.limitTrips 1 }) u) →
      ((u.axis a).heading = (if hi then 1 else -1) ∨ s.axes.seq.isSome = true → exec (.limitSwitchEdge a hi level clocks) s = .next (addCause a .limit v)) ∧
      ((u.axis a).heading ≠ (if hi then 1 else -1) → s.axes.seq = none → exec (.limitSwitchEdge a hi level clocks) s = .next v))) ∧
  (∀ (a : Fin 2) (level : Bool) (clocks : Nat) (s u : State) (e : Bool), (e, u) = switchInput a 2 level clocks s →
    ((u.axis a).home = none ∨ e = false → exec (.homeEdge a level clocks) s = .next u) ∧
    (∀ h, (u.axis a).home = some h → e = true → h.phase = 2 → (u.axis a).sw.getLsbD 2 = true → exec (.homeEdge a level clocks) s =
      .next (setAxis a (fun x => { x with home := some { h with phase := 3, edge := some (u.axis a).edgeLatch } }) u)) ∧
    (∀ h, (u.axis a).home = some h → e = true → h.phase = 0 → (u.axis a).sw.getLsbD 2 = false → exec (.homeEdge a level clocks) s =
      .next (setAxis a (fun x => { x with home := some { h with edge := some (u.axis a).edgeLatch } }) u))) ∧
  (∀ (level : Bool) (clocks : Nat) (s : State), exec (.capSwEdge level clocks) s = .next (capUpdate (switchInput 1 3 level clocks s).2))

/-- AxisMotion: Claims.TicksAndCauses and Claims.ChoppersAndSwitches. -/
def Obligations.AxisMotion : Prop := Claims.TicksAndCauses ∧ Claims.ChoppersAndSwitches

/-- THE AXIS COMMANDS (R369, R371, R372, R375, R381 to R383, R387 to R389): each one's answer and effect where its conditions hold; a broken interlock
answers BAD_STATE with its number. -/
def Obligations.AxisCommands : Prop :=
  (∀ k c s a, Rung 0x0A00 1 k c s → s.host.opState ≠ .boot → (c.w 0).toNat = a → a < 2 →
    exec (.axGetStatus k) s = .next (respond k (okWith (axisView a s)) (begun k s))) ∧
  (∀ k c s a, Rung 0x0A00 1 k c s → s.host.opState ≠ .boot → (c.w 0).toNat = 256 + a → a < 2 →
    exec (.axGetStatus k) s = .next (respond k (okWith (axisView a s))
      (setAxis a (fun x => { x with stalls := 0, limitTrips := 0, replans := 0 }) (begun k s)))) ∧
  (∀ k c s a g, Rung 0x0A01 15 k c s → a = fld (c.w 0) 0 1 → g = axCfgOf c.payload → c.w 0 &&& ~~~ 0x1F7F = 0 → g.decay ≤ 2 → 5 ≤ g.tOff →
    4 ≤ g.tBlank → g.tBlank ≤ 60 → 1 ≤ g.stallCycles → c.w 2 &&& ~~~ 0x3FFFFFFF = 0 → g.iHold ≤ g.iRun → g.iRun ≤ g.iBoost → g.vMax ≤ 2000000 →
    g.aMax ≤ g.dMax → 1 ≤ g.filtN → c.w 12 &&& ~~~ 0xFFFF = 0 → (s.axis a).st = .idle → s.host.opState ≠ .safe →
    exec (.axConfig k) s = .next (respond k ok (capUpdate (setAxis a (fun x => { x.repolar g.pol with cfg := g }) (begun k s))))) ∧
  (∀ (x : Axis) (pol : BitVec 4) (i : Nat), (x.repolar pol).sw.getLsbD i =
    (if x.swSeen.getLsbD i = true ∧ x.cfg.pol.getLsbD i ≠ pol.getLsbD i then !x.sw.getLsbD i else x.sw.getLsbD i)) ∧
  (∀ k c s a target, Rung 0x0A02 3 k c s → a = fld (c.w 0) 0 1 → target = (c.w 1).toInt → c.w 0 &&& ~~~ 7 = 0 → (s.axis a).cfg.softMin ≤ target →
    target ≤ (s.axis a).cfg.softMax → (c.w 2).toNat ≤ (s.axis a).cfg.vMax →
    (s.host.opState ∈ [.ready, .print, .service] ∨ (s.host.opState = .safe ∧ a = 0 ∧ (s.axis a).cmd < target)) → cycleOk a s = true →
    (s.axis a).st ≠ .fault → (s.axis a).limited target = false →
    (∀ n, moveInterlock a target s = some n → exec (.axMove k) s = .next (respond k { badState with payload := [w32 n] }
      (setAxis a (fun x => { x with interlock := n }) (begun k s)))) ∧
    (a = 0 → (s.axis 0).cmd < target → moveInterlock a target s = none) ∧
    (moveInterlock a target s = none → s.host.outst.length < 16 → (flag (c.w 0) 2 = true ∨ (s.axis a).queue.length < 8) →
      (((settle a (begun k s)).axis a).st = .fault → exec (.axMove k) s = .next (respond k badState (settle a (begun k s)))) ∧
      (((settle a (begun k s)).axis a).st ≠ .fault → ∀ u, u = settle a (outstand 0x0A02 c.tag a (begun k s)) →
        (flag (c.w 0) 2 = false → exec (.axMove k) s = .next (respond k accepted (setAxis a (fun x => { x with
          queue := x.queue ++ [{ target := target, v := (c.w 2).toNat, blend := flag (c.w 0) 1, tag := some c.tag }] }) u))) ∧
        (flag (c.w 0) 2 = true → u.axes.ax.length = 2 → ∃ t, exec (.axMove k) s = .next (respond k accepted t) ∧ OnlyChanges [.host, .pers, .out, .axes] u t ∧
          (t.axis a).queue = [{ target := target, v := (c.w 2).toNat, blend := flag (c.w 0) 1, tag := some c.tag }] ∧ (t.axis a).cmd = (u.axis a).cmd ∧
          (t.axis a).replans = (if (u.axis a).canStopAt target then (u.axis a).replans else satAdd (u.axis a).replans 1))))) ∧
  (∀ k c s a, Rung 0x0A03 1 k c s → a = fld (c.w 0) 0 1 → c.w 0 &&& ~~~ 3 = 0 → s.host.opState ≠ .boot → ∀ u, u = settle a (begun k s) →
    u.axes.ax.length = 2 → ∃ t, exec (.axStop k) s = .next (respond k ok t) ∧ OnlyChanges [.host, .pers, .out, .axes] u t ∧ (t.axis a).queue = [] ∧ (t.axis a).home = none ∧
      t.axes.seq = none ∧ (if flag (c.w 0) 1 then .stopHard else .stopSoft) ∈ (t.axis a).stopDue ∧ (t.axis a).cmd = (u.axis a).cmd) ∧
  (∀ k c s a u, Rung 0x0A04 1 k c s → a = fld (c.w 0) 0 1 → c.w 0 &&& ~~~ 1 = 0 → s.host.opState = .ready → (s.axis a).st = .idle → cycleOk a s = true →
    (cell s.pos.abs a {}).posValid = true → u = setAxis a (fun x => { x with st := .homing, home := some { tag := c.tag, phase := (if (s.axis a).sw.getLsbD 2 then 0 else 2), seen := (s.axis a).sw.getLsbD 2 } }) (begun k s) →
    (∀ n, interlockOf a (u.axis a).cmd (u.axis a).dest false u = some n → exec (.axHome k) s = .next (respond k { badState with payload := [w32 n] }
      (setAxis a (fun x => { x with interlock := n }) (begun k s)))) ∧
    (interlockOf a (u.axis a).cmd (u.axis a).dest false u = none → s.host.outst.length < 16 →
      exec (.axHome k) s = .next (respond k accepted (outstand 0x0A04 c.tag a u)))) ∧
  (∀ k c s q, Rung 0x0A05 1 k c s → q = fld (c.w 0) 8 2 → c.w 0 &&& ~~~ 0xF301 = 0 → q ≠ 0 → (q = 3 → fld (c.w 0) 12 4 ≠ 0) →
    (s.host.opState = .ready ∨ (s.host.opState = .service ∧ q ≠ 2)) → s.axes.seqCfgd = true → cycleOk 0 s = true → cycleOk 1 s = true →
    (∀ x ∈ s.axes.ax, x.st = .idle) → s.host.outst.length < 16 → s.axes.ax.length = 2 →
    ∃ t, exec (.axSeq k) s = .next (respond k accepted (outstand 0x0A05 c.tag 0 t)) ∧ OnlyChanges [.axes] (begun k s) t ∧ t.axes.seqStep = 1 ∧
      (∃ j, t.axes.seq = some j ∧ j.tag = c.tag ∧ j.seq = q ∧ j.passes = fld (c.w 0) 12 4) ∧ (t.axis 0).st = .sequence ∧ (t.axis 1).st = .sequence) ∧
  (∀ (k : Fin 16) (c : RungCmd) (s : State) (p : Nat → Int), Rung 0x0A06 11 k c s → (∀ i, p i = (c.w i).toInt) → (∀ i, i < 5 → (s.axis 0).cfg.softMin ≤ p i ∧ p i ≤ (s.axis 0).cfg.softMax) →
    (∀ i, i < 4 → (s.axis 1).cfg.softMin ≤ p (5 + i) ∧ p (5 + i) ≤ (s.axis 1).cfg.softMax) → p 0 < p 1 → p 1 ≤ p 3 → p 1 ≤ p 4 → p 3 < p 2 → p 4 < p 2 → 1 ≤ fld (c.w 9) 16 16 → fld (c.w 9) 16 16 ≤ 1000 → (∀ x ∈ s.axes.ax, x.st = .idle) →
    s.host.opState ≠ .safe → exec (.axSeqConfig k) s = .next (respond k ok { begun k s with axes := { s.axes with
      lifts := [p 0, p 1, p 2, p 3, p 4], caps := [p 5, p 6, p 7, p 8], posTol := fld (c.w 9) 0 16, confirmMs := fld (c.w 9) 16 16
      wipeV := (c.w 10).toNat, seqCfgd := true } })) ∧
  (∀ k c s a, Rung 0x0A07 1 k c s → a = fld (c.w 0) 0 1 → c.w 0 &&& ~~~ 1 = 0 → (s.axis a).st = .fault → (cell s.pos.abs a {}).posValid = true →
    ((s.axis a).fault = 2 ∨ ((s.axis a).vel = 0 ∧ (s.axis a).err.natAbs ≤ (s.axis a).cfg.stallErr)) →
    exec (.axClearFault k) s = .next (respond k ok (setAxis a (fun x => { x with
      st := (if x.vel = 0 then .idle else .stopping), fault := 0, stallRun := 0, stopHard := x.vel != 0 }) (begun k s))))

/-! ## Illumination -/

/-- ILLUMINATION (R392 to R394, R398, R399, R401 to R404): a status frame, every 10 ms, has a share of 24 bytes for each driver; a broken return, and one that does
not come in twice its time, breaks the chain; a status word with a wrong CRC is
only counted, and a right one moves DERATE one step towards its target and turns the driver off from T_OFF on until it has cooled by 10 K. A chain not in use never strobes. -/
def Claims.Illumination : Prop :=
  (∀ (k : Fin 2) (s : State), ((s.chain k).inUse = false ∨ (s.chain k).legacy = true ∨
    ((s.chain k).statusAt ≠ 0 ∧ s.pos.mono.toNat < (s.chain k).statusAt.toNat + 10000000)) → exec (.lampStatusFrame k) s = .next s) ∧
  (∀ (k : Fin 2) (s : State), (s.chain k).inUse = true → (s.chain k).legacy = false →
    ((s.chain k).statusAt = 0 ∨ (s.chain k).statusAt.toNat + 10000000 ≤ s.pos.mono.toNat) → s.lamp.chains.length = 2 →
    ∃ b, exec (.lampStatusFrame k) s = .next (emit (.lamp k (.frame (lanternPulses b))) (awaitReturn k (lvDrivers (s.chain k).levels)
      (setChain k (fun c => { c with statusAt := s.pos.mono }) s))) ∧ b.length = 2 + 24 * lvDrivers (s.chain k).levels ∧ b.getD 1 0 = 0) ∧
  (∀ (k : Fin 2) (h seen : Byte) (sts : List (List Byte)) (s : State), (s.chain k).returnBy = [] → ((s.chain k).frameH = 0 ∨ (s.chain k).legacy = true) →
    exec (.lanternReturnRx k h seen sts) s = .next s) ∧
  (∀ (k : Fin 2) (h seen : Byte) (sts : List (List Byte)) (s u : State), listens k s = true →
    u = setChain k (fun c => { c with seen := seen.toNat % 64, returnBy := c.returnBy.drop 1 }) s →
    (h ≠ 0 ∨ seen.toNat ≠ driversOf k s) → exec (.lanternReturnRx k h seen sts) s =
      .next (stickEvent .chainBroken { ev := .chainBroken, source := 0x50 + k, p0 := w32 k, p1 := w32 seen.toNat } u)) ∧
  (∀ (k : Fin 2) (h seen : Byte) (sts : List (List Byte)) (s : State), listens k s = true → h = 0 → seen.toNat = driversOf k s → s.lamp.chains.length = 2 →
    ∃ t, exec (.lanternReturnRx k h seen sts) s = .next t ∧ OnlyChanges [.host, .pers, .out, .lamp] s t ∧ (t.chain k).seen = seen.toNat % 64 ∧
      (t.chain k).returnBy = (s.chain k).returnBy.drop 1 ∧
      (t.chain k).levels = (s.chain k).levels ∧ (t.chain k).strobes = (s.chain k).strobes ∧ ((s.chain k).pendGroup = none → (t.chain k).pendOk = false) ∧
      (∀ g b, (s.chain k).pendGroup = some g → objOf (s.cg.group g).objs 13 k = some b → lvDrivers b ≤ driversOf k s →
        (∀ d, d < driversOf k s → le16 (cell sts d []) 6 = crc16 (bytesLE 1 d ++ (cell sts d []).take 6) ∧
          by8 (cell sts d []) 1 / 2 % 2 = 1) → (t.chain k).pendOk = true)) ∧
  (∀ (k d : Nat) (st : List Byte) (s : State), k < 2 → s.lamp.chains.length = 2 → le16 st 6 ≠ crc16 (bytesLE 1 d ++ st.take 6) →
    takeDriver k d st s = setChain k (fun c => { c with statusBad := satAdd c.statusBad 1 }) s) ∧
  (∀ (k d : Nat) (st : List Byte) (s : State) (v w : Drv), k < 2 → d < 32 → s.lamp.chains.length = 2 → (s.chain k).drvs.length = 32 →
    le16 st 6 = crc16 (bytesLE 1 d ++ st.take 6) → v = cell (s.chain k).drvs d {} → w = cell ((takeDriver k d st s).chain k).drvs d {} →
    w.derate = stepTo v.derate (derateTarget (judgeLevels k s) (by8 st 0)) ∧ (lvTOff (judgeLevels k s) ≤ by8 st 0 → w.off = true) ∧
    (by8 st 0 + 10 < lvTOff (judgeLevels k s) → w.off = false) ∧
    (by8 st 0 < lvTOff (judgeLevels k s) → lvTOff (judgeLevels k s) ≤ by8 st 0 + 10 → w.off = v.off)) ∧
  (∀ (k : Nat) (s : State), (s.chain k).levels ≠ [] → (s.chain k).legacy = false → judgeLevels k s = (s.chain k).levels) ∧
  (∀ (b : List Byte) (temp : Nat), lvFloor b ≤ derateTarget b temp ∧ derateTarget b temp ≤ 255) ∧
  (∀ x y : Nat, (stepTo x y = y ∨ (x < y ∧ stepTo x y = x + 1) ∨ (y < x ∧ stepTo x y + 1 = x))) ∧
  (∀ (k : Fin 2) (s : State), (s.chain k).returnBy = [] → exec (.lanternReturnTimeout k) s = .next s) ∧
  (∀ (k : Fin 2) (m t : Nat) (rest : List (Nat × Nat)) (s : State), (s.chain k).returnBy = (m, t) :: rest →
    (s.pos.mono.toNat < t → exec (.lanternReturnTimeout k) s = .next s) ∧
    (t ≤ s.pos.mono.toNat → exec (.lanternReturnTimeout k) s = .next (stickEvent .chainBroken
      { ev := .chainBroken, source := 0x50 + k, p0 := w32 k, p1 := w32 (s.chain k).seen } (setChain k (fun c => { c with returnBy := rest }) s)))) ∧
  (∀ (k : Nat) (light : Int) (s : State), ((s.chain k).inUse = false ∨ ((s.chain k).legacy = true ∧ s.host.opState = .safe)) → strobe k light s = s) ∧
  (∀ (lit : List (Int × Int)) (light on : Int), tooClose lit light on = false ↔ ∀ l ∈ lit, l.1 + l.2 + 1000 ≤ light ∨ light + on + 1000 ≤ l.1) ∧
  (∀ (lit : List (Int × Int)) (light on : Int), overDuty lit light on = false → 4 * litIn ((light, on) :: lit) (light + on) ≤ 1000000 ∧
    ∀ l ∈ lit, light ≤ l.1 → 4 * litIn ((light, on) :: lit) (l.1 + l.2) ≤ 1000000) ∧
  (∀ (k : Nat) (light on : Int) (s : State), k < 2 → s.lamp.chains.length = 2 → (s.chain k).inUse = true →
    ((s.chain k).legacy = false ∨ s.host.opState ≠ .safe) → on = 10 * lvOnTime (s.chain k).levels →
    (tooClose (s.chain k).lit light on = false → overDuty (s.chain k).lit light on = false →
      ((strobe k light s).chain k).strobes = satAdd (s.chain k).strobes 1 ∧ ((strobe k light s).chain k).skips = (s.chain k).skips ∧
      (light, on) ∈ ((strobe k light s).chain k).lit) ∧
    ((tooClose (s.chain k).lit light on = true ∨ overDuty (s.chain k).lit light on = true) →
      ((strobe k light s).chain k).skips = satAdd (s.chain k).skips 1 ∧ ((strobe k light s).chain k).strobes = (s.chain k).strobes ∧
      ((strobe k light s).chain k).lit = (s.chain k).lit)) ∧
  (∀ (k : Fin 2) (s : State), (s.chain k).legacyLights = [] → exec (.legacyStrobeEnd k) s = .next s) ∧
  (∀ (k : Fin 2) (start stop : Int) (rest : List (Int × Int)) (s : State) (z : List Byte), (s.chain k).legacyLights = (start, stop) :: rest →
    z = zeros ((lvLegacyBits (s.chain k).levels + 7) / 8) →
    ((s.pos.mono.toNat : Int) < stop → exec (.legacyStrobeEnd k) s = .next s) ∧
    (stop ≤ (s.pos.mono.toNat : Int) → exec (.legacyStrobeEnd k) s = .next (emit (.lamp k (.latch stop z))
      (setChain k (fun c => { c with legacyLights := rest, lightOn := !rest.isEmpty, pattern := z }) s))))

/-- THE LAMP COMMANDS (R402, R407, R409): each one's answer and effect where its conditions hold. -/
def Claims.LampCommands : Prop :=
  (∀ k c s n, Rung 0x0B00 1 k c s → s.host.opState ≠ .boot → n < 2 →
    ((c.w 0).toNat = n → exec (.lampGetStatus k) s = .next (respond k (okWith (lampView (s.chain n))) (begun k s))) ∧
    ((c.w 0).toNat = 256 + n → exec (.lampGetStatus k) s = .next (respond k (okWith (lampView (s.chain n)))
      (setChain n (fun c => { c with strobes := 0, skips := 0, diagRuns := 0, statusBad := 0 }) (begun k s))))) ∧
  (∀ k c s n, Rung 0x0B01 1 k c s → (c.w 0).toNat = n → n < 2 → (s.host.opState = .ready ∨ s.host.opState = .print) → (s.chain n).inUse = true →
    (s.chain n).legacy = false → triggerRuns (s.chain n).camera s = true →
    exec (.lampDiagNow k) s = .next (respond k ok (setChain n (fun c => { c with diagTries := some 0 }) (begun k s)))) ∧
  (∀ k c s n, Rung 0x0B02 1 k c s → (c.w 0).toNat = n → n < 2 → s.host.opState ≠ .boot →
    exec (.lampReadDrivers k) s = .next (respond k (okWith (((s.chain n).drivers.take 30).flatMap fun v => bytesToWords v.status 0 2)) (begun k s)) ∧
      ((s.chain n).legacy = false → (s.chain n).levels ≠ [] → (s.chain n).drivers = (s.chain n).drvs.take (lvDrivers (s.chain n).levels)))

/-- Lamps: Claims.Illumination and Claims.LampCommands. -/
def Obligations.Lamps : Prop := Claims.Illumination ∧ Claims.LampCommands

/-! ## Twin units -/

/-- VIGIL FRAMES (R418 to R421, R433): a unit that sends puts out a body of 8 words with its frame number, its claim and its epoch, and counts; frames leave every 2.56 µs and a POSITION every 1 ms; a frame with a wrong CRC only counts;
a right one gives the peer's state; after 7.68 µs without one the peer is lost, and an ACTIVE unit is then SOLO. -/
def Claims.VigilFrames : Prop :=
  (∀ (x : Samples) (s u : State), u = mainUpdate (advance x s) → (vigilRuns u = false ∨ frameDue u = false) →
    exec (.vigilFrameTx x) s = .next u) ∧
  (∀ (x : Samples) (s u : State), u = mainUpdate (advance x s) → vigilRuns u = true → frameDue u = true →
    ∃ t body, exec (.vigilFrameTx x) s = .next t ∧ OnlyChanges [.twin, .free, .out] u t ∧ t.out = .vigil (some (vigilFrame body)) :: u.out ∧ body.length = 8 ∧
      fld (wd body 0) 0 8 = u.twin.fseq.toNat ∧ t.twin.fseq = u.twin.fseq + 1 ∧ t.twin.txAt = nextTx u ∧
      wd body 1 = claimFor (u.pos.absHigh + 2) t ∧ wd body 2 = u.cg.epochNow ∧
      t.twin.claimOwn = (match u.twin.role with | .standby => u.twin.claimPeer - 1 | .listen => 0 | _ => u.twin.claimOwn)) ∧
  (∀ (F : Nat) (s : State), (s.twin.role = .listen → claimFor F s = 0) ∧ (s.twin.role ≠ .listen →
    (s.twin.swLine = none → claimFor F s = s.twin.claimOwn) ∧ (∀ l c, s.twin.swLine = some (l, c, none) → l ≤ F → claimFor F s = c) ∧
    (∀ l c t, s.twin.swLine = some (l, c, t) → F < l → claimFor F s = s.twin.claimOwn))) ∧
  (∀ s : State, (s.twin.role = .solo ∨ s.twin.role = .active) → 1000000 ≤ s.since s.twin.posTxAt → ∃ t, exec .vigilPositionTx s = .next t ∧ OnlyChanges [.twin] s t ∧
    t.twin.txQueue.length = s.twin.txQueue.length + 1 ∧ ({ type := 5 } : VMsg) ∈ t.twin.txQueue) ∧
  (∀ s : State, (s.twin.role = .standby ∨ s.twin.role = .listen ∨ s.since s.twin.posTxAt < 1000000) → exec .vigilPositionTx s = .next s) ∧
  (∀ (w : List Word) (crc : Word) (s : State), crc.toNat ≠ crc32c (wordBytes w) → exec (.vigilFrameRx w crc) s =
    .next (stickRec (source := 0x60) .vigilCrc { s with twin := { s.twin with crcErrors := satAdd s.twin.crcErrors 1, peerRun := 0 } })) ∧
  (∀ (w : List Word) (crc : Word) (s : State), crc = frameCrc w → ∃ t, exec (.vigilFrameRx w crc) s = .next t ∧ t.twin.rxFresh = true ∧ t.twin.peerRole = fld (wd w 0) 8 2 ∧
    t.twin.peerOp = fld (wd w 0) 10 3 ∧ t.twin.peerSynced = flag (wd w 0) 13 ∧ t.twin.peerFiring = flag (wd w 0) 14 ∧
    t.twin.peerHears = flag (wd w 0) 15 ∧ t.twin.claimPeer = wd w 1 ∧ s.twin.claimSeen ≤ t.twin.claimSeen ∧ wd w 1 ≤ t.twin.claimSeen ∧
    (1 ≤ s.twin.peerRun → t.twin.peerPresent = true) ∧ t.cg.inForce = s.cg.inForce ∧ t.pos.acc = s.pos.acc) ∧
  (∀ s : State, s.since s.twin.rxAt < 7680 → exec .vigilPeerLost s = .next s) ∧
  (∀ s : State, 7680 ≤ s.since s.twin.rxAt → s.twin.peerPresent = false → exec .vigilPeerLost s =
    .next { s with twin := { s.twin with rxFresh := false, serialSent := false, peerRun := 0, peerMsgSeq := none } }) ∧
  (∀ s : State, 7680 ≤ s.since s.twin.rxAt → s.twin.peerPresent = true → ∃ t, exec .vigilPeerLost s = .next t ∧ t.twin.peerPresent = false ∧ t.twin.lostAt = s.pos.mono ∧ t.twin.rxFresh = false ∧
    t.twin.losses = satAdd s.twin.losses 1 ∧ t.twin.role = (if s.twin.role = .active then .solo else s.twin.role) ∧ t.twin.synced = s.twin.synced) ∧
  (∀ s : State, (s.twin.peerPresent = true ∨ headsFirePeer s = false ∨ s.twin.role ≠ .standby ∨ s.twin.synced = false ∨
    s.pos.mono.toNat < s.twin.lostAt.toNat + 1000000 * s.twin.graceMs) → exec .vigilGraceExpiry s = .next s) ∧
  (∀ s : State, s.twin.peerPresent = false → headsFirePeer s = true → s.twin.role = .standby → s.twin.synced = true →
    s.twin.lostAt.toNat + 1000000 * s.twin.graceMs ≤ s.pos.mono.toNat → exec .vigilGraceExpiry s =
    .next (stickEvent .twinUnsync { ev := .unsync, p0 := 7, p1 := fireLineNow s, always := true } { s with twin := { s.twin with synced := false } }))

/-- VIGIL MESSAGES (R94, R95, R123, R419, R420, R425, R432, R439). The second copy of a message changes nothing. The first of an ARM is held, of a DECISION locks or aborts the STANDBY role
unit's group, one that differs from the record of its line excepted (log 28), of a PAGE_START starts its page, waits or finds it missing, of a SWITCH writes the new claim, of a POSITION is adopted once and compared afterwards, of JOIN_A, JOIN_B and SERIAL is noted. -/
def Claims.VigilMessages : Prop :=
  (∀ (q : Byte) (a b c : Word) (l : Bool) (d : Byte) (n : Dword) (s : State), s.twin.peerMsgSeq = some q →
    exec (.arm q a b c) s = .next s ∧ exec (.decision q a b l d) s = .next s ∧ exec (.pageStart q a b c) s = .next s ∧
    exec (.switch q a b c) s = .next s ∧ exec (.joinA q a b c) s = .next s ∧ exec (.joinB q a b c) s = .next s ∧ exec (.serial q n) s = .next s ∧
    exec (.position q a 0 []) s = .next (mainUpdate s)) ∧
  (∀ (q : Byte) (s u : State), s.twin.peerMsgSeq ≠ some q → u = { s with twin := { s.twin with peerMsgSeq := some q } } →
    (∀ (r : ArmRec), r ∉ s.cg.peerArms → s.cg.peerArms.length < 16 → exec (.arm q r.epoch r.line r.digest) s =
      .next { u with cg := { s.cg with peerArms := s.cg.peerArms ++ [r] } }) ∧
    (∀ (r : ArmRec), r ∈ s.cg.peerArms → exec (.arm q r.epoch r.line r.digest) s = .next u) ∧
    (∀ (e l : Word) (b : Bool) (c : Byte), s.twin.role ≠ .standby → exec (.decision q e l b c) s = .next u ∧ exec (.pageStart q e l 0) s = .next u) ∧
    (∀ (e l : Word) (c : Byte), s.twin.role = .standby →
      (decidedGroup e l (agrees s) s = none → exec (.decision q e l true c) s = .next (unsync 4 u)) ∧
      (decidedGroup e l (fun _ => true) s = none → exec (.decision q e l false c) s = .next u) ∧
      (∀ g, decidedGroup e l (agrees s) s = some g → exec (.decision q e l true c) s = .next (followLock g l u)) ∧
      (∀ g, decidedGroup e l (fun _ => true) s = some g → exec (.decision q e l false c) s = .next (abortGroup g c.toNat u))) ∧
    (∀ (e l num : Word), s.twin.role = .standby → s.pg.peerStart = [] →
      (s.pg.decEpoch < e ∨ (e = s.pg.decEpoch ∧ s.pg.decRing = none ∧ startedAs num none s = none ∧ s.pos.absHigh < s.pg.decBase + l.toNat) →
        exec (.pageStart q e l num) s = .next { u with pg := { s.pg with peerStart := [(e, l, num)] } }) ∧
      (e = s.pg.decEpoch → s.pg.decRing = none → startedAs num none s = none → s.pg.decBase + l.toNat ≤ s.pos.absHigh →
        exec (.pageStart q e l num) s = .next (unsync 6 u)) ∧
      (∀ r p first, e = s.pg.decEpoch → s.pg.decRing = some r → nextPage r s = some p → p.number = num → p.stored = true →
        first = s.pg.decBase + l.toNat → startedAs num (some first) s = none → (s.pg.ring p.ring).halted = false →
        startCheck p (s.pg.nominal + gapBefore p s) s = none → exec (.pageStart q e l num) s = .next (startPage p (s.pg.nominal + gapBefore p s) first u))) ∧
    (∀ (e l claim : Word), (s.twin.role ≠ .standby ∨ s.twin.synced = false ∨ e ≠ s.cg.epochNow) → exec (.switch q e l claim) s = .next u) ∧
    (∀ (e l claim : Word), s.twin.role = .standby → s.twin.synced = true → e = s.cg.epochNow →
      (s.twin.exhausted = true ∨ 0xFFFFFFFF ≤ maxClaim s + 1 → exec (.switch q e l claim) s = .next (stickRec .switchoverFailed u)) ∧
      (s.twin.exhausted = false → maxClaim s + 1 < 0xFFFFFFFF → pageFull s.pers 0 = true → exec (.switch q e l claim) s =
        .next (stickRec .switchoverFailed (wornOut 0 u)))) ∧
    (∀ (e l claim : Word), s.twin.role = .standby → s.twin.synced = true → s.twin.exhausted = false → maxClaim s + 1 < 0xFFFFFFFF → e = s.cg.epochNow →
      pageFull s.pers 0 = false → s.pers.prf.length = 1024 → ∃ t, exec (.switch q e l claim) s = .next t ∧ OnlyChanges [.host, .pers, .out, .twin] s t ∧
        t.twin.swLine = some (absOf l s, claim, none) ∧ wd t.pers.prf 16 = claim ∧ ∀ i, i ≠ 16 → wd t.pers.prf i = wd s.pers.prf i) ∧
    (∀ (j : JoinJob) (e l id n f p : Word), s.twin.joining = some j →
      (j.epoch = e → j.ls = absOf l s → exec (.joinA q e l id) s = .next { u with twin := { u.twin with joining := some { j with jobId := some id } } }) ∧
      ((j.epoch ≠ e ∨ j.ls ≠ absOf l s) → exec (.joinA q e l id) s = .next u) ∧
      exec (.joinB q n f p) s = .next { u with twin := { u.twin with joining := some { j with page := some (n, f, p) } } }) ∧
    (∀ (e l id n f p : Word), s.twin.joining = none → exec (.joinA q e l id) s = .next u ∧ exec (.joinB q n f p) s = .next u) ∧
    (∀ n : Dword, exec (.serial q n) s = .next { u with twin := { u.twin with peerSerial := n } })) ∧
  (∀ (s : State) (x : Group) (r : ArmRec), r ∈ s.cg.peerArms → r.epoch = x.epoch → r.line = sentLine x →
    (∀ r' ∈ s.cg.peerArms, r'.epoch = x.epoch → r'.line = sentLine x → r'.digest ≠ x.digest) → agrees s x = false) ∧
  (∀ (q : Byte) (e : Word) (p : BitVec 50) (x : Samples) (s v u : State), v = mainUpdate (advance x s) → v.twin.peerMsgSeq ≠ some q →
    u = { v with twin := { v.twin with peerMsgSeq := some q } } →
    (v.twin.role ≠ .standby → exec (.position q e p x) s = .next u) ∧
    (v.twin.role = .standby → v.twin.posAdopted = false → ∃ t, exec (.position q e p x) s = .next t ∧ t.twin.posAdopted = true ∧ t.cg.epochNow = e ∧
      t.pos.acc = BitVec.ofNat 80 (p.toNat * 2 ^ 30) ∧ t.pos.high = w32 (p.toNat >>> 18) ∧ t.cg.inForce = v.cg.inForce) ∧
    (v.twin.role = .standby → v.twin.posAdopted = true → e ≠ v.cg.epochNow → exec (.position q e p x) s = .next u) ∧
    (v.twin.role = .standby → v.twin.posAdopted = true → e = v.cg.epochNow → (skewOf p v).natAbs ≤ 4096 →
      exec (.position q e p x) s = .next { u with twin := { u.twin with posDiff := wInt (skewOf p v) } }) ∧
    (v.twin.role = .standby → v.twin.posAdopted = true → e = v.cg.epochNow → 4096 < (skewOf p v).natAbs →
      ∃ t, exec (.position q e p x) s = .next t ∧ t.twin.synced = false ∧ t.twin.posDiff = wInt (skewOf p v) ∧ t.pos = v.pos ∧ t.cg = v.cg))

/-- Vigil: Claims.VigilFrames and Claims.VigilMessages. -/
def Obligations.Vigil : Prop := Claims.VigilFrames ∧ Claims.VigilMessages

/-- ROLES AND CLAIMS (R411, R412, R415, R427 to R429, R436): a claim that is issued is above every one seen or issued and stands in PRF word 16; none is issued when the space is
exhausted; a take-over needs a synchronised STANDBY role unit in PRINT with TAKEOVER_EN; a unit that takes over holds a claim and is
SOLO or ACTIVE; entering LISTEN ends printing. A removal makes the unit LISTEN. -/
def Claims.RolesAndClaims : Prop :=
  (∀ (c : Word) (s t : State), issueClaim s = (some c, t) → s.pers.prf.length = 1024 → c.toNat = maxClaim s + 1 ∧ t.twin.claimOwn = c ∧ wd t.pers.prf 16 = c ∧
    OnlyChanges [.host, .pers, .out, .twin] s t) ∧
  (∀ s : State, 0xFFFFFFFF ≤ maxClaim s + 1 → (issueClaim s).1 = none) ∧
  (∀ (cause : Nat) (s : State), (s.twin.role ≠ .standby ∨ s.twin.synced = false ∨ s.host.opState ≠ .print ∨ s.twin.takeoverEn = false) → takeOver cause s = s) ∧
  (∀ (cause : Nat) (s : State), s.twin.role = .standby → s.twin.synced = true → s.host.opState = .print → s.twin.takeoverEn = true → s.twin.swLine = none →
    pageFull s.pers 0 = false → maxClaim s + 1 < 0xFFFFFFFF →
    (takeOver cause s).twin.role = (if s.twin.peerPresent = true ∧ s.twin.peerRole = 2 then .active else .solo) ∧
    (takeOver cause s).twin.claimOwn = w32 (maxClaim s + 1) ∧ (takeOver cause s).twin.takeovers = satAdd s.twin.takeovers 1 ∧
    (takeOver cause s).host.opState = .print) ∧
  (∀ s : State, (enterListen s).twin.role = .listen ∧ (enterListen s).twin.synced = false ∧ (enterListen s).host.opState ≠ .print ∧
    (enterListen s).host.opState ≠ .service) ∧
  (∀ (low : Bool) (s : State), s.twin.prsnt = low → exec (.prsntChange low) s = .next s) ∧
  (∀ s : State, s.twin.prsnt = false → s.host.opState = .safe → exec (.prsntChange true) s = .next { s with twin := { s.twin with prsnt := true } }) ∧
  (∀ s : State, s.twin.prsnt = false → s.host.opState ≠ .safe → ∃ t, exec (.prsntChange true) s = .next t ∧ OnlyChanges [.hl, .out, .host, .pers, .twin, .free] s t ∧
    t.twin = { s.twin with prsnt := true } ∧ (s.hl.lanes.length = 16 → ∀ m, m < 16 → (t.lane m).idleHeld = false)) ∧
  (∀ s : State, s.twin.prsnt = true → ∃ t, exec (.prsntChange false) s = .next t ∧ t.twin.prsnt = false ∧ t.twin.role = .listen ∧
    (s.twin.role ≠ .listen → t.host.opState ≠ .print ∧ t.host.opState ≠ .service) ∧ t.cg.inForce = s.cg.inForce)

/-- THE TWIN COMMANDS (R411, R415, R422, R432, R439, R441, R443 to R447): each one's answer and effect where its conditions hold. -/
def Claims.TwinCommands : Prop :=
  (∀ k c s, Rung 0x0C00 1 k c s → s.host.opState ≠ .boot →
    (c.w 0 = 0 → exec (.twinGetStatus k) s = .next (respond k (okWith (twinView (begun k s))) (begun k s))) ∧
    (c.w 0 = 1 → exec (.twinGetStatus k) s = .next (respond k (okWith (twinView (begun k s)))
      { begun k s with twin := { s.twin with takeovers := 0, mismatches := 0, crcErrors := 0, losses := 0 } }))) ∧
  (∀ k c s, Rung 0x0C01 1 k c s → (∀ r : Role, (c.w 0).toNat = r.code → r ≠ .active → s.twin.role = r → exec (.twinSetRole k) s = .next (respond k ok (begun k s))) ∧
    ((s.host.opState = .ready ∨ s.host.opState = .print ∨ s.host.opState = .service) → s.twin.prsnt = true →
    (c.w 0 = 0 → roleAllowed 0 s = true → pageFull s.pers 0 = false → maxClaim s + 1 < 0xFFFFFFFF →
      ∃ t, exec (.twinSetRole k) s = .next (respond k ok t) ∧ t.twin.role = .solo ∧ t.twin.claimOwn = w32 (maxClaim s + 1)) ∧
    (c.w 0 = 0 → roleAllowed 0 s = true → pageFull s.pers 0 = false → 0xFFFFFFFF ≤ maxClaim s + 1 →
      ∃ t, exec (.twinSetRole k) s = .next (respond k noResource t) ∧ t.twin.role = .listen) ∧
    (c.w 0 = 2 → roleAllowed 2 s = true → s.pwr.state = .run → ∃ t, exec (.twinSetRole k) s = .next (respond k ok t) ∧ t.twin.role = .standby ∧ t.twin.synced = false ∧
      t.twin.posAdopted = false ∧ t.twin.claimOwn = s.twin.claimPeer - 1) ∧
    (c.w 0 = 3 → s.twin.role ≠ .listen → roleAllowed 3 s = true → ∃ t, exec (.twinSetRole k) s = .next (respond k ok t) ∧ t.twin.role = .listen ∧
      t.twin.synced = false))) ∧
  (∀ k c s n, Rung 0x0C02 3 k c s → c.w 0 = 0 → c.w 1 = s.cg.epochNow → lineIndex s + 65 ≤ (c.w 2).toNat → topLine s < (c.w 2).toNat → s.twin.swLine = none → s.twin.role = .active →
    s.host.opState = .print → peerReady s = true → maxClaim s + 1 < 0xFFFFFFFF → s.host.outst.length < 16 →
    n = w32 (max (wd s.pers.prf 16).toNat s.twin.claimOwn.toNat + 1) →
    exec (.twinSwitchover k) s = .next (respond k accepted (vigilSend { type := 4, w5 := c.w 1, w6 := c.w 2, w7 := n }
      (outstand 0x0C02 c.tag 0 { begun k s with twin := { s.twin with swLine := some (absOf (c.w 2) s, n, some c.tag) } })))) ∧
  (∀ k c s g, Rung 0x0C03 4 k c s → g = fld (c.w 0) 0 2 → c.w 0 &&& ~~~ 0x303 = 0 → (s.cg.group g).st = .valid → c.w 1 = (s.cg.group g).handle →
    c.w 2 = s.cg.epochNow → lineIndex s + 65 ≤ (c.w 3).toNat → topLine s < (c.w 3).toNat → (s.cg.group g).running = false → s.fire.probe = none → s.twin.joining = none →
    s.twin.role = .standby → s.host.opState = .ready → s.twin.posAdopted = true → s.host.outst.length < 16 → s.cg.groups.length = 4 →
    ∃ t j, exec (.twinJoin k) s = .next (respond k accepted t) ∧ t.twin.joining = some j ∧ j.tag = c.tag ∧ j.group = g ∧ j.ring = fld (c.w 0) 8 2 ∧
      j.ls = absOf (c.w 3) s ∧ (t.cg.group g).st = .armed ∧ (t.cg.group g).joinGroup = true ∧ (t.cg.group g).line = some (c.w 3) ∧
      (∀ i, i ≠ g → t.cg.group i = s.cg.group i) ∧ t.cg.inForce = s.cg.inForce) ∧
  (∀ k c s, Rung 0x0C04 2 k c s → c.w 0 &&& ~~~ 1 = 0 → fld (c.w 1) 0 16 ≤ 60000 → 64 ≤ fld (c.w 1) 16 16 → fld (c.w 1) 16 16 ≤ 4096 →
    s.host.opState ≠ .boot → exec (.twinConfig k) s = .next (respond k ok { begun k s with twin := { s.twin with
      takeoverEn := flag (c.w 0) 0, graceMs := fld (c.w 1) 0 16, syncLines := fld (c.w 1) 16 16 } })) ∧
  (∀ k c s, Rung 0x0C05 0 k c s → s.host.opState ≠ .boot → exec (.twinWakePeer k) s =
    .next (respond k ok (if s.twin.prsnt then { begun k s with out := .vigil none :: s.out } else begun k s)))

/-- TwinRoles: Claims.RolesAndClaims and Claims.TwinCommands. -/
def Obligations.TwinRoles : Prop := Claims.RolesAndClaims ∧ Claims.TwinCommands

/-! ## Safety -/

/-- TRIPS (R461, R463 to R466). The first cause latches with its parameter and the fire line, closes the gates, withholds the trains that wait and withdraws NO_TRIP; a later one only sets its
bit and is counted, and one with a lower code in the same AON tick becomes the cause. A clock, a supply, the die temperature, the head power sense and the lockstep compare trip where their limits say. After 6 µs
a trip has put the unit into SAFE and LISTEN, with its enables low and no group ARMED. -/
def Claims.Trips : Prop :=
  (∀ (c : Nat) (p : Word) (s : State), c < 17 → s.onyx.tripped = false →
    (latchTrip c p s).onyx.tripped = true ∧ (latchTrip c p s).onyx.cause = c ∧ (latchTrip c p s).onyx.param = p ∧
    (latchTrip c p s).onyx.mask = 1#17 <<< c ∧ (latchTrip c p s).onyx.gateOpen = false ∧ (latchTrip c p s).onyx.tripSeq = s.onyx.tripSeq + 1 ∧
    (latchTrip c p s).onyx.tripLine = s.line ∧ (latchTrip c p s).onyx.tripAt = s.pos.mono ∧ (latchTrip c p s).host.firing = false ∧ (latchTrip c p s).onyx.permOnyx.getLsbD 3 = false ∧
    (∀ t ∈ (latchTrip c p s).fire.trains, t.st = .fired ∨ t.st = .withheld) ∧ OnlyChanges [.host, .pers, .out, .hl, .fire, .onyx] s (latchTrip c p s)) ∧
  (∀ (c : Nat) (p : Word) (s : State), c < 17 → s.onyx.tripped = true →
    ((s.onyx.cause ≤ c ∨ s.pos.mono.toNat / 40 ≠ s.onyx.tripAt.toNat / 40) →
      latchTrip c p s = { s with onyx := { s.onyx with mask := s.onyx.mask ||| (1#17 <<< c), trips := satAdd s.onyx.trips 1 } }) ∧
    (c < s.onyx.cause → s.pos.mono.toNat / 40 = s.onyx.tripAt.toNat / 40 → latchTrip c p s = { s with onyx := { s.onyx with
      mask := s.onyx.mask ||| (1#17 <<< c), trips := satAdd s.onyx.trips 1, cause := c, param := p } })) ∧
  (∀ (n : Nat) (s : State), (940 ≤ n → n ≤ 1060 → exec (.onyxClockCheck n) s = .next s) ∧ (117 ≤ n → n ≤ 133 → exec (.aonClockCheck n) s = .next s) ∧
    (n < 940 ∨ 1060 < n → exec (.onyxClockCheck n) s = .next (latchTrip 10 1 (activeNow 10 s))) ∧
    (n < 117 ∨ 133 < n → exec (.aonClockCheck n) s = .next (latchTrip 10 2 (activeNow 10 s)))) ∧
  (∀ (r : Fin 7) (s : State), exec (.supplyFault r) s = .next (latchTrip 11 (w32 r) (activeNow 11 s))) ∧
  (∀ (tj : Int) (s u : State), u = { s with pwr := { s.pwr with tj := tj, tjMax := max s.pwr.tjMax tj } } →
    (tj < 125 → exec (.dieTempTrip tj) s = .next u) ∧ (125 ≤ tj → exec (.dieTempTrip tj) s = .next (latchTrip 12 (wInt tj) (activeNow 12 u)))) ∧
  (∀ s : State, (s.onyx.hpwrA = true ∨ s.onyx.hpwrB = true ∨ s.aonDue s.onyx.fellAt 1000000 = false) → exec .hpwrStuck s = .next s) ∧
  (∀ s : State, s.onyx.hpwrA = false → s.onyx.hpwrB = false → s.aonDue s.onyx.fellAt 1000000 = true → exec .hpwrStuck s =
    .next (latchTrip 14 0 (activeNow 14 { s with onyx := { s.onyx with hpwrFb := true } }))) ∧
  (∀ s : State, exec .lockstepMismatch s = .next (latchTrip 9 0 (activeNow 9 s))) ∧
  (∀ s : State, (s.onyx.reacting = false ∨ s.aonDue s.onyx.tripAt 6000 = false) → exec .headPowerEnableRemoved s = .next s) ∧
  (∀ s : State, s.onyx.reacting = true → s.aonDue s.onyx.tripAt 6000 = true → ∃ t, exec .headPowerEnableRemoved s = .next t ∧ (s.onyx.tripped = true → t.onyx.reacting = false) ∧ t.host.firing = false ∧
    t.host.opState = (if s.host.opState = .boot then .boot else .safe) ∧ t.twin.role = .listen ∧ t.cg.inForce = s.cg.inForce ∧
    (s.host.opState ≠ .safe → t.onyx.hpwrA = false ∧ t.onyx.hpwrB = false ∧ t.onyx.safeOk = false) ∧ t.fire.spit = none ∧
    ∀ g, g < 4 → (t.cg.group g).st ≠ .armed)

/-- ONYX PERMISSIONS AND CHECKS (R453, R454, R456, R458 to R460): WEB is granted after three ticks that meet its conditions and withdrawn at once by a lost envelope; SUPPLY follows the
supply and NO_TRIP the trip; a failed self check is a hard trip; a module's energy sums that agree and keep the limit trip nothing, and others trip ENERGY_MISMATCH or
ENERGY_LIMIT; a marker whose sum, status or claim is not in order trips with every cause that applies; gates, lamp and axis enables change as their rows say. -/
def Claims.OnyxChecks : Prop :=
  (∀ (e0 e1 : Int) (here sw fb : Bool) (act : BitVec 17) (s : State) (v0 v1 : Int) (run : Nat),
    v0 = onyxSpeed (((if s.onyx.cfg.enc0Fwd then -e0 else e0) :: s.onyx.edges0).take 16) s.onyx.cfg.scale0 →
    v1 = onyxSpeed (((if s.onyx.cfg.enc1Fwd then -e1 else e1) :: s.onyx.edges1).take 16) s.onyx.cfg.scale1 →
    run = (if webCondition here v0 v1 s.onyx.cfg then min 3 (s.onyx.webRun + 1) else 0) → s.aonDue s.onyx.tickAt 1000000 = true →
    ∃ t, exec (.onyxTick e0 e1 here sw fb act none) s = .next t ∧ t.onyx.speed0 = v0 ∧ t.onyx.speed1 = v1 ∧ t.onyx.webRun = run ∧
      t.onyx.permOnyx.getLsbD 0 = decide (3 ≤ run) ∧ t.onyx.permOnyx.getLsbD 2 = (s.pwr.coreStable && !s.pwr.warnNow) ∧
      t.onyx.permOnyx.getLsbD 3 = (!s.onyx.tripped) ∧ t.onyx.tripped = s.onyx.tripped ∧ t.onyx.hpwrFb = fb ∧ t.onyx.capSw = sw ∧
      t.cg = s.cg ∧ t.pos = s.pos ∧ (t.onyx.lampPwr = true → s.onyx.lampPwr = true ∨ (s.onyx.cfg.vLamp ≤ v0 ∧ s.onyx.cfg.vLamp ≤ v1))) ∧
  (∀ (e0 e1 : Int) (here sw fb : Bool) (act : BitVec 17) (i : Nat) (s : State), s.aonDue s.onyx.tickAt 1000000 = true →
    ∃ t, exec (.onyxTick e0 e1 here sw fb act (some i)) s = .next t ∧
    t.onyx.tripped = true ∧ t.onyx.mask.getLsbD 15 = true ∧ t.onyx.hard = true ∧ t.onyx.selfTestOk = false) ∧
  (∀ (e0 e1 : Int) (here sw fb : Bool) (act : BitVec 17) (i : Option Nat) (s : State), s.aonDue s.onyx.tickAt 1000000 = false →
    exec (.onyxTick e0 e1 here sw fb act i) s = .next s) ∧
  (∀ (k : Fin 2) (s : State), ∃ t, exec (.onyxEnvelopeLoss k) s = .next t ∧ OnlyChanges [.host, .pers, .out, .onyx] s t ∧ t.onyx.webRun = 0 ∧
    t.onyx.permOnyx = s.onyx.permOnyx &&& 14#4 ∧ t.onyx.envLost = s.onyx.envLost ||| (1#2 <<< k.val)) ∧
  (∀ s : State, (gateDue s = false → exec .onyxGateClose s = .next s) ∧ (gateDue s = true → exec .onyxGateClose s =
    .next { s with onyx := { s.onyx with gateOpen := false, gateReopen := false } })) ∧
  (∀ s : State, gateDue s = true ↔ ∃ p ∈ firingNeeds s.host.opState, s.onyx.permOnyx.getLsbD (p - 1) = false ∧
    98 * 100000 ≤ 100 * s.since (cell s.onyx.wdrAt (p - 1) 0)) ∧
  (∀ (m : Fin 16) (f : Nat) (g : Option Word) (ef : Option (Word × Word)) (s : State), s.onyx.tripped = false →
    (∀ x y w, (g.or ((s.onyx.sumOf f m).bind (·.eG))) = some x → ef = some (y, w) → y + w = x → y ≤ s.onyx.cfg.eMax →
      exec (.onyxEnergySum m f g ef) s = .next { s with onyx := { s.onyx with sums := s.onyx.putSum { fire := f, mod := m, eG := some x, eFW := some (y, w) } } }) ∧
    (∀ x y w, (g.or ((s.onyx.sumOf f m).bind (·.eG))) = some x → ef = some (y, w) → y + w ≠ x →
      ∃ t, exec (.onyxEnergySum m f g ef) s = .next t ∧ t.onyx.tripped = true ∧ t.onyx.cause = 1 ∧ t.onyx.param = w32 m) ∧
    (∀ x y w, (g.or ((s.onyx.sumOf f m).bind (·.eG))) = some x → ef = some (y, w) → y + w = x → s.onyx.cfg.eMax < y →
      ∃ t, exec (.onyxEnergySum m f g ef) s = .next t ∧ t.onyx.tripped = true ∧ t.onyx.cause = 3 ∧ t.onyx.param = w32 m) ∧
    (∀ x, g = some x → s.onyx.sumOf f m = none → ef = none →
      exec (.onyxEnergySum m f g ef) s = .next { s with onyx := { s.onyx with sums := s.onyx.putSum { fire := f, mod := m, eG := some x } } })) ∧
  (∀ (m fire : Nat) (s : State), (s.onyx.tripped = true → presentMarker m fire s = (false, s)) ∧
    (s.onyx.tripped = false → s.onyx.gateOpen = false → presentMarker m fire s = (false, stickRec .gateHeld s)) ∧
    (s.onyx.tripped = false → s.onyx.gateOpen = true → ∀ t noSum stale higher, t = (presentMarker m fire s).2 →
      noSum = ((s.onyx.sumOf fire m).bind (·.eG)).isNone → higher = decide (8 ≤ (s.lane m).higherRun) →
      stale = ((s.lane m).statusSeq.isNone || decide ((s.lane m).statusTime.toNat + 40000 < s.pos.mono.toNat)) →
      (presentMarker m fire s).1 = !(noSum || stale || higher) ∧ t.onyx.tripped = (noSum || stale || higher) ∧
      ((noSum || stale || higher) = true → t.onyx.mask.getLsbD 2 = noSum ∧ t.onyx.mask.getLsbD 5 = stale ∧ t.onyx.mask.getLsbD 7 = higher ∧
        t.onyx.cause = (if noSum then 2 else if stale then 5 else 7)))) ∧
  (∀ s : State, (s.onyx.lampPwr = false ∨ (s.onyx.lampLow < 50 ∧ (s.onyx.tripped = false ∨ s.aonDue s.onyx.tripAt 1000000 = false))) → exec .onyxLampOff s = .next s) ∧
  (∀ s : State, s.onyx.lampPwr = true → (50 ≤ s.onyx.lampLow ∨ (s.onyx.tripped = true ∧ s.aonDue s.onyx.tripAt 1000000 = true)) →
    exec .onyxLampOff s = .next (stickRec .lampOff (emit (.pin "LAMP_PWR_EN" false) { s with onyx := { s.onyx with lampPwr := false } }))) ∧
  (∀ (a : Fin 2) (s : State), (cell s.onyx.axRemoved a.val 0 ≠ 1 ∨ s.aonDue (cell s.onyx.removedAt a.val 0) 100000000 = false) →
    exec (.onyxAxisRestore a) s = .next s) ∧
  (∀ (a : Fin 2) (s : State), cell s.onyx.axRemoved a.val 0 = 1 → s.aonDue (cell s.onyx.removedAt a.val 0) 100000000 = true →
    ((cell s.onyx.abs a.val {}).known = true → exec (.onyxAxisRestore a) s =
      .next (setAxisEnable a true 1 { s with onyx := { s.onyx with axRemoved := upd s.onyx.axRemoved a (fun _ => 0) } })) ∧
    ((cell s.onyx.abs a.val {}).known = false → exec (.onyxAxisRestore a) s =
      .next { s with onyx := { s.onyx with axRemoved := upd s.onyx.axRemoved a (fun _ => 2) } }))

/-- THE WATCHDOG (R462): the first kick, 0x5A, starts it; a kick in time with the value whose turn it is changes the turn; one too early, too late or with the wrong value trips WATCHDOG with 1, 2 or 3; no first kick restarts
Beryl, and after three restarts holds it. -/
def Claims.Watchdog : Prop :=
  (∀ (p : Nat) (s : State), s.onyx.tripped = false → (wdogTrip p s).onyx.cause = 8 ∧ (wdogTrip p s).onyx.param = w32 p ∧
    (wdogTrip p s).onyx.restartDue = true ∧ (wdogTrip p s).onyx.wdogRunning = false) ∧
  (∀ (n : Nat) (s : State), s.onyx.wdogRunning = false → s.onyx.wdogNext = 0x5A → exec (.onyxWdogKick 0x5A n) s =
    .next { s with onyx := { s.onyx with wdogRunning := true, wdogNext := 0xA5, wdogRestarts := 0, kickAt := s.pos.mono } }) ∧
  (∀ (v : Byte) (n : Nat) (s : State), s.onyx.wdogRunning = false → v ≠ s.onyx.wdogNext → exec (.onyxWdogKick v n) s = .next (wdogTrip 3 s)) ∧
  (∀ (v : Byte) (n : Nat) (s u : State), s.onyx.wdogRunning = true → aonInterval n s = true →
    u = { s with onyx := { s.onyx with wdogLast := BitVec.ofNat 16 n, kickAt := s.pos.mono } } →
    (n < 750 → exec (.onyxWdogKick v n) s = .next (wdogTrip 1 u)) ∧ (1250 < n → exec (.onyxWdogKick v n) s = .next (wdogTrip 2 u)) ∧
    (750 ≤ n → n ≤ 1250 → v ≠ s.onyx.wdogNext → exec (.onyxWdogKick v n) s = .next (wdogTrip 3 u)) ∧
    (750 ≤ n → n ≤ 1250 → v = s.onyx.wdogNext → v = 0x5A → exec (.onyxWdogKick v n) s = .next { u with onyx := { u.onyx with wdogNext := 0xA5 } }) ∧
    (750 ≤ n → n ≤ 1250 → v = s.onyx.wdogNext → v = 0xA5 → exec (.onyxWdogKick v n) s = .next { u with onyx := { u.onyx with wdogNext := 0x5A } })) ∧
  (∀ (v : Byte) (n : Nat) (s : State), s.onyx.wdogRunning = true → aonInterval n s = false → exec (.onyxWdogKick v n) s = .next s) ∧
  (∀ s : State, (s.pwr.inReset = true ∨ s.onyx.berylHeld = true ∨ s.aonDue s.onyx.kickAt (if s.onyx.wdogRunning then 1250000 else 2000000000) = false) →
    exec .onyxWdogTimeout s = .next s) ∧
  (∀ s : State, s.pwr.inReset = false → s.aonDue s.onyx.kickAt (if s.onyx.wdogRunning then 1250000 else 2000000000) = true →
    (s.onyx.berylHeld = false → (s.onyx.wdogRunning = true ∨ s.onyx.wdogRestarts = 0) → exec .onyxWdogTimeout s = .next (wdogTrip 2 s)) ∧
    (s.onyx.berylHeld = false → s.onyx.wdogRunning = false → 3 ≤ s.onyx.wdogRestarts → ∃ t, exec .onyxWdogTimeout s = .next t ∧ t.onyx.berylHeld = true ∧
      t.host.mbxReady = false ∧ t.host.berylRunning = false) ∧
    (s.onyx.berylHeld = false → s.onyx.wdogRunning = false → 1 ≤ s.onyx.wdogRestarts → s.onyx.wdogRestarts < 3 →
      ∃ t, exec .onyxWdogTimeout s = .next t ∧ t.onyx.wdogRestarts = s.onyx.wdogRestarts + 1 ∧ t.onyx.wdogNext = 0x5A ∧ t.host.mbxReady = false))

/-- TripsAndWatchdog: Claims.Trips and Claims.Watchdog. -/
def Obligations.TripsAndWatchdog : Prop := Claims.Trips ∧ Claims.Watchdog

/-- THE SAFETY COMMANDS (R453, R467, R472, R474, R475): each one's answer and effect where its conditions hold. -/
def Claims.SafetyCommands : Prop :=
  (∀ k c s, Rung 0x0D00 1 k c s → s.host.opState ≠ .boot →
    (c.w 0 = 0 → exec (.safeGetStatus k) s = .next (respond k (okWith (onyxView (onyxTLimit (lowestTMax (begun k s))) (noteActive (begun k s)))) (begun k s))) ∧
    (c.w 0 = 1 → exec (.safeGetStatus k) s = .next (respond k (okWith (onyxView (onyxTLimit (lowestTMax (begun k s))) (noteActive (begun k s))))
      { begun k s with onyx := { s.onyx with trips := 0 } }))) ∧
  (∀ k c s, Rung 0x0D01 11 k c s → 50000 ≤ (c.w 0).toNat → (c.w 0).toNat ≤ 5000000 → 4 * (c.w 2).toNat ≤ (c.w 0).toNat * 65536 →
    4 * (c.w 3).toNat ≤ (c.w 0).toNat * 65536 → 1000 ≤ (c.w 1).toNat → (c.w 1).toNat ≤ 1000000 → 1 ≤ fld (c.w 9) 0 16 → c.w 9 &&& ~~~ 0x7FFFF = 0 →
    s.host.firing = false → exec (.safeConfig k) s = .next (respond k ok { begun k s with onyx := { s.onyx with
      cfg := { vMin := (c.w 0).toNat, vLamp := (c.w 1).toNat, scale0 := (c.w 2).toNat, scale1 := (c.w 3).toNat
               cap1Lo := c.w 4, cap1Hi := c.w 5, cap0Lo := c.w 6, cap0Hi := c.w 7, liftGuard := c.w 8
               axTol := fld (c.w 9) 0 16, liftUpRising := flag (c.w 9) 16, enc0Fwd := flag (c.w 9) 17
               enc1Fwd := flag (c.w 9) 18, eMax := c.w 10 }
      cfgCrc := w32 (crc32c (wordBytes (cfgWords (cfgOf c.payload)))) } })) ∧
  (∀ k c s, Rung 0x0D02 1 k c s → (c.w 0).toNat = s.onyx.tripSeq.toNat → s.host.opState = .safe → activeCauses s = 0 → s.onyx.wdogRunning = true →
    s.onyx.reacting = false → s.onyx.hard = false → ∃ t, exec (.safeExit k) s = .next (respond k ok t) ∧ t.host.opState = .ready ∧ t.onyx.tripped = false ∧
      t.onyx.hpwrA = (s.pwr.state == .run) ∧ t.onyx.hpwrB = (s.pwr.state == .run) ∧ t.onyx.cause = s.onyx.cause ∧ t.onyx.mask = s.onyx.mask ∧
      t.onyx.permOnyx.getLsbD 3 = true ∧ t.twin.role = s.twin.role ∧ t.cg = s.cg) ∧
  (∀ k c s, Rung 0x0D03 0 k c s → s.host.opState = .safe → exec (.safeTrip k) s = .next (respond k ok (latchTrip 16 0 (begun k s)))) ∧
  (∀ k c s, Rung 0x0D03 0 k c s → s.host.opState ≠ .safe → s.host.opState ≠ .boot → s.onyx.tripped = false → ∃ t, exec (.safeTrip k) s = .next t ∧
    t.onyx.tripped = true ∧ t.onyx.cause = 16 ∧ t.onyx.tripSlot = some k.val ∧ t.host.firing = false)

/-- Onyx: Claims.OnyxChecks and Claims.SafetyCommands. -/
def Obligations.Onyx : Prop := Claims.OnyxChecks ∧ Claims.SafetyCommands

/-! ## Memory -/

/-- DRAM REQUESTS (R480, R481, R483 to R486, R488). Where the interface is up, DRAM_READ_RETURN completes: the requests that their requesters may present are presented, the command slots run where no refresh stalls them, and the oldest read whose commands are
all issued returns; one with an uncorrectable word gives its address and poisons its reader, and the read of a read-modify-write leaves its write to be done. Every slot takes the first entry that may be
served in the order RT, URGENT, BULK, and in a class reads before the writes that no read overlaps; entries keep their limits. BULK_PROMOTE and STARVED complete: the oldest request that has waited long enough is promoted, or reported. -/
def Obligations.DramRequests : Prop :=
  (∀ (rt asks : List MemAsk) (slots : List (List Nat)) (one two : List (Fin 32)) (e0 e1 e2 : Bool) (s : State),
    (s.dram.fail = true ∨ flag s.dram.config 31 = false) → exec (.dramReadReturn rt asks slots one two e0 e1 e2) s = .next s) ∧
  (∀ (rt asks : List MemAsk) (slots : List (List Nat)) (one two : List (Fin 32)) (e0 e1 e2 : Bool) (s v : State),
    s.dram.fail = false → flag s.dram.config 31 = true → v = emptied e0 e1 e2 (runSlots slots (asked (rt ++ asks) s)) →
    (v.dram.returning = [] → exec (.dramReadReturn rt asks slots one two e0 e1 e2) s = .next v) ∧
    (∀ id rest r, v.dram.returning = id :: rest → v.dram.reqs.find? (·.id == id) = some r →
      exec (.dramReadReturn rt asks slots one two e0 e1 e2) s = .next (returnRead r (wordErrors one two) v))) ∧
  (∀ (one two : List (Fin 32)) (x : Fin 32) (b : Bool), (x, b) ∈ wordErrors one two ↔ if b then x ∈ two else x ∈ one ∧ x ∉ two) ∧
  (∀ (e0 e1 e2 : Bool) (s : State), OnlyChanges [.host, .pers, .out, .pg, .dram] s (emptied e0 e1 e2 s) ∧
    (e0 = false → e1 = false → e2 = false → emptied e0 e1 e2 s = s) ∧ (e0 = true → e1 = false → e2 = false → emptied e0 e1 e2 s = rtUnderrun 0 s)) ∧
  (∀ (asks : List MemAsk) (s : State), asked asks s = present (asks.filter (askable s.dram)) s) ∧
  (∀ (d : Dram) (k : MemAsk), k.requester.val ≠ 8 → ((fittedBytes d.config).getD 0 ≤ 256 * k.chunk.toNat → askable d k = false) ∧
    (k.requester.val ≠ 9 → inTraining d.config k.chunk.toNat = true → askable d k = false) ∧
    (k.requester.val ≠ 9 → inTraining d.config k.chunk.toNat = false → 256 * k.chunk.toNat < (fittedBytes d.config).getD 0 → askable d k = true)) ∧
  (∀ (slots : List (List Nat)) (s : State), s.pos.mono.toNat < s.dram.stallTo → runSlots slots s = s) ∧
  (∀ (asks : List MemAsk) (slots : List (List Nat)) (s : State), OnlyChanges [.dram, .out] s (runSlots slots (present asks s)) ∧
    (present asks s).dram.nextReq = s.dram.nextReq + asks.length ∧ s.dram.reqs.length + asks.length = (present asks s).dram.reqs.length) ∧
  (∀ (r : MemReq) (s : State), OnlyChanges [.dram] s (returnRead r [] s) ∧ r.id ∉ (returnRead r [] s).dram.returning ∧
    (r.write = false → ∀ q ∈ (returnRead r [] s).dram.reqs, q.id ≠ r.id) ∧
    (r.write = true → ∀ q ∈ (returnRead r [] s).dram.reqs, q.id = r.id → q.readDone = true)) ∧
  (∀ (r : MemReq) (w : Fin 32) (s u : State), (32 * r.chunk + w) / 8 ∈ r.units →
    u = setDram (fun d => endReq s.pos.mono r { d with
      returning := d.returning.filter fun id => id != r.id
      rtLatMax := if r.rt then w32 (max d.rtLatMax.toNat (min (s.pos.mono.toNat - r.born.toNat) 0xFFFFFFFF)) else d.rtLatMax }) s →
    returnRead r [(w, true)] s = poisoned r.requester r.what [(32 * r.chunk + w) / 8] (eccUncorrectable r.requester (w32 ((32 * r.chunk + w) / 8)) u)) ∧
  (∀ (q : Nat) (a : Word) (s : State), (eccUncorrectable q a s).dram.eccUncorr = satAdd s.dram.eccUncorr 1 ∧ (eccUncorrectable q a s).dram.eccAddr = a ∧
    OnlyChanges [.host, .pers, .out, .dram] s (eccUncorrectable q a s)) ∧
  (∀ (w : Nat) (s : State), (eccCorrected w s).dram.eccCorr = satAdd s.dram.eccCorr 1 ∧ (eccCorrected w s).dram.reqs.length = s.dram.reqs.length + 1) ∧
  (∀ (q : Fin 3) (s : State), (rtUnderrun q s).dram.rtUnderruns = satAdd s.dram.rtUnderruns 1) ∧
  (∀ (d : Dram) (busy : List Nat) (r : MemReq), pickReq d busy = some r → r ∈ d.reqs ∧ mayIssue d r = true ∧ r.id ∉ busy ∧
    ∀ q ∈ d.reqs, mayIssue d q = true → q.id ∉ busy → 3 * r.cls + writeRank d r ≤ 3 * q.cls + writeRank d q) ∧
  (∀ (d : Dram) (busy : List Nat), pickReq d busy = none → ∀ q ∈ d.reqs, mayIssue d q = false ∨ q.id ∈ busy) ∧
  (∀ (d : Dram) (q r : MemReq), q ∈ d.reqs → q.id ≠ r.id → ((q.holds d = true ∧ q.sameUnit r = true) ∨
    (q.write = true ∧ q.requester = r.requester ∧ q.id < r.id ∧ q.overlaps r = true)) → mayIssue d r = false) ∧
  (∀ (d : Dram) (r : MemReq), (freePlace d r = .reserved → r.rt = true ∧ countIf d.reqs (fun q => q.place == .reserved) < 32) ∧
    (freePlace d r = .shared → countIf d.reqs (fun q => q.place == .shared) < 96)) ∧
  (∀ d : Dram, (d.reqs.map (·.id)).Nodup → countIf d.reqs (fun q => q.place == .reserved) ≤ 32 → countIf d.reqs (fun q => q.place == .shared) ≤ 96 →
    countIf (admitted d).reqs (fun q => q.place == .reserved) ≤ 32 ∧ countIf (admitted d).reqs (fun q => q.place == .shared) ≤ 96) ∧
  (∀ (rt asks : List MemAsk) (s u : State), u = asked (rt ++ asks) s →
    ((∀ r ∈ u.dram.reqs, r.ages = false ∨ r.urgent = true ∨ s.pos.mono.toNat < r.born.toNat + r.age) → exec (.bulkPromote rt asks) s = .next u) ∧
    (∀ r, u.dram.reqs.find? (fun r => r.ages && !r.urgent && decide (r.born.toNat + r.age ≤ s.pos.mono.toNat)) = some r →
      exec (.bulkPromote rt asks) s = .next (setDram (fun d => admitted (setReq r.id (fun q => { q with urgent := true })
        { d with promotions := satAdd d.promotions 1 })) u))) ∧
  (∀ (asks : List MemAsk) (s u : State), u = asked asks s →
    ((∀ r ∈ u.dram.reqs, r.urgent = false ∨ r.starved = true ∨ s.pos.mono.toNat < r.born.toNat + 5 * r.age) → exec (.starved asks) s = .next u) ∧
    (∀ r, u.dram.reqs.find? (fun r => r.urgent && !r.starved && decide (r.born.toNat + 5 * r.age ≤ s.pos.mono.toNat)) = some r →
      exec (.starved asks) s = .next (stickEvent .starved { ev := .starved, p0 := w32 r.requester } (setDram (setReq r.id (fun q => { q with starved := true })) u))))

/-- DRAM UPKEEP (R482, R487, R490 to R494, R497). DRAM_REFRESH, ECC_CORRECTED, TRAINING_PASS_DONE and ZERO_FILL_DONE complete: a refresh that is due counts, ends the bursts in progress, puts out PRECHARGE ALL and REFRESH and stalls every
requester, and each 128th adds ZQCS and reads the temperature; corrected errors are reported at most once a second; the first good pass and the zero fill let the requesters in; a failed boot pass leads to SAFE, and a failed rate change to the old rate. -/
def Obligations.DramUpkeep : Prop :=
  (∀ (r0 r1 : Option (Fin 3)) (s : State), (fittedBytes s.dram.config = none ∨
      ∃ t, s.dram.refreshAt = some t ∧ s.pos.mono.toNat < t.toNat + (if s.dram.refFast then 3900 else 7800)) → exec (.dramRefresh r0 r1) s = .next s) ∧
  (∀ (r0 r1 : Option (Fin 3)) (s : State), (fittedBytes s.dram.config).isSome = true →
    (∀ t, s.dram.refreshAt = some t → t.toNat + (if s.dram.refFast then 3900 else 7800) ≤ s.pos.mono.toNat) →
    (s.dram.sinceZq < 127 → s.dram.hotSeen = false → ∀ d cs, (d, cs) = finishOpen s.pos.mono s.dram → exec (.dramRefresh r0 r1) s =
      .next (emits ((cs ++ (ranksOf d.config).map DdrCmd.prechargeAll ++ (ranksOf d.config).map DdrCmd.refresh).map Output.dram) { s with dram := { d with
        refreshes := satAdd d.refreshes 1, sinceZq := d.sinceZq + 1, refreshAt := some s.pos.mono
        stallTo := s.pos.mono.toNat + (60 + if flag d.config 1 then 550 else 350) } })) ∧
    (s.dram.sinceZq < 127 → s.dram.hotSeen = true → ∃ t, exec (.dramRefresh r0 r1) s = .next t ∧ OnlyChanges [.host, .pers, .out, .dram] s t ∧
      t.dram.refFast = true ∧ t.dram.hotSeen = false ∧ t.dram.sinceZq = s.dram.sinceZq + 1) ∧
    (127 ≤ s.dram.sinceZq → ∃ t, exec (.dramRefresh r0 r1) s = .next t ∧ OnlyChanges [.host, .pers, .out, .dram] s t ∧ t.dram.sinceZq = 0 ∧
      t.dram.refreshes = satAdd s.dram.refreshes 1 ∧ t.dram.refreshAt = some s.pos.mono ∧
      t.dram.stallTo = s.pos.mono.toNat + (190 + if flag s.dram.config 1 then 550 else 350) ∧
      (∀ r ∈ ranksOf s.dram.config, .dram (.prechargeAll r) ∈ t.out ∧ .dram (.refresh r) ∈ t.out ∧ .dram (.zqcs r) ∈ t.out) ∧ (hotter r0 r1 = none → t.dram.tempRange = 3) ∧
      (∀ x, hotter r0 r1 = some x → t.dram.tempRange = x ∧
        (x = 2 → s.dram.hotSeen = false → t.dram.refFast = s.dram.refFast ∧ t.dram.hotSeen = !s.dram.refFast)))) ∧
  (∀ x y : Fin 3, hotter (some x) (some y) = some (max x.val y.val) ∧ hotter (some x) none = some x.val ∧ hotter none (some y) = some y.val ∧
    hotter none none = none) ∧
  (∀ s : State, (s.dram.corrSince = 0 ∨ ∃ t, s.dram.corrAt = some t ∧ s.pos.mono.toNat < t.toNat + 1000000000) → exec .eccCorrected s = .next s) ∧
  (∀ s : State, s.dram.corrSince ≠ 0 → (∀ t, s.dram.corrAt = some t → t.toNat + 1000000000 ≤ s.pos.mono.toNat) → exec .eccCorrected s =
    .next (event { ev := .eccCorrected, p0 := w32 s.dram.corrSince } { s with dram := { s.dram with corrSince := 0, corrAt := some s.pos.mono } })) ∧
  (∀ (f : Option (Fin 8)) (mg : BitVec 24) (cmp : Word) (v : Bool) (s : State), s.dram.training = none → exec (.trainingPassDone f mg cmp v) s = .next s) ∧
  (∀ (mg : BitVec 24) (cmp : Word) (v : Bool) (tag : Option Word) (b : Bool) (s u : State), s.dram.training = some (tag, b) → s.dram.discardPass = false →
    16 ≤ mg.toNat % 256 → 16 ≤ mg.toNat / 256 % 256 → u = setDram (fun d => admitted { d with
      training := none, trainStep := 0, trained := true, margin := mg, trnCmp := cmp &&& 0xFFFF01FF }) s →
    (s.dram.ratePending = none → tag = none → exec (.trainingPassDone none mg cmp v) s = .next u) ∧
    (∀ t, s.dram.ratePending = none → tag = some t → exec (.trainingPassDone none mg cmp v) s =
      .next (complete 0x0E01 t 0 (w32 (mg.toNat % 256)) (w32 (mg.toNat / 256 % 256)) 0 u)) ∧
    (∀ t r, s.dram.ratePending = some (t, r) → exec (.trainingPassDone none mg cmp v) s =
      .next (complete 0x0E02 t 0 (w32 r) 0 0 (setDram (fun d => { d with ratePending := none }) u)))) ∧
  (∀ (n : Fin 8) (mg : BitVec 24) (cmp : Word) (v b : Bool) (s : State), s.dram.training = some (none, b) → s.dram.discardPass = false →
    s.dram.ratePending = none → s.dram.zeroed = false → s.host.opState = .boot → ∃ t, exec (.trainingPassDone (some n) mg cmp v) s = .next t ∧
      t.dram.fail = true ∧ t.dram.trained = false ∧ t.host.opState = .safe ∧ t.host.mbxReady = true) ∧
  (∀ (n : Fin 8) (mg : BitVec 24) (cmp : Word) (b : Bool) (tag : Option Word) (t0 : Word) (r : Nat) (s : State), s.dram.training = some (tag, b) →
    s.dram.discardPass = false → s.dram.ratePending = some (t0, r) → ∃ t, exec (.trainingPassDone (some n) mg cmp true) s = .next t ∧
      t.dram.rate = s.dram.oldRate ∧ t.dram.trained = true ∧ t.dram.ratePending = none ∧ t.host.opState = s.host.opState) ∧
  (∀ (b : Bool) (s : State), (s.dram.trained = false ∨ s.dram.zeroed = true ∨ s.dram.training.isSome = true ∨ s.dram.fail = true) →
    exec (.zeroFillDone b) s = .next s) ∧
  (∀ s u : State, s.dram.trained = true → s.dram.zeroed = false → s.dram.training = none → s.dram.fail = false →
    u = setDram (fun d => admitted { d with zeroed := true }) s →
    exec (.zeroFillDone true) s = .next { u with pg := { u.pg with capacity := (fittedBytes s.dram.config).getD 0 - 512 * 2 ^ 20 } } ∧
    exec (.zeroFillDone false) s = .next (dramFailed s))

/-- THE MEMORY COMMANDS (R484, R494 to R496, R498): MEM_GET_STATUS, MEM_TRAIN, MEM_SET_RATE, MEM_CLASS_CONFIG and MEM_ECC_INJECT complete, each with its answer and effect, where its conditions hold. -/
def Obligations.MemoryCommands : Prop :=
  (∀ k c s, Rung 0x0E00 1 k c s → s.host.opState ≠ .boot →
    (c.w 0 = 0 → exec (.memGetStatus k) s = .next (respond k (okWith (memView s.pos.mono s.dram)) (begun k s))) ∧
    (c.w 0 = 1 → exec (.memGetStatus k) s = .next (respond k (okWith (memView s.pos.mono s.dram)) { begun k s with dram := { s.dram with
      eccCorr := 0, eccUncorr := 0, refreshes := 0, promotions := 0, rtLatMax := 0, rtUnderruns := 0, peak := countIf s.dram.reqs (·.inEntry) } }))) ∧
  (∀ k c s, Rung 0x0E01 1 k c s → c.w 0 &&& ~~~ 1 = 0 → s.dram.ratePending = none → s.dram.training = none → memBlocked s = false → s.host.outst.length < 16 →
    ∃ t, exec (.memTrain k) s = .next (respond k accepted t) ∧ OnlyChanges [.host, .dram, .free] (begun k s) t ∧
      t.dram.training = some (some c.tag, flag (c.w 0) 0) ∧ 1 ≤ t.dram.trainStep ∧ t.dram.trainStep ≤ 7) ∧
  (∀ k c s r, Rung 0x0E02 1 k c s → (c.w 0).toNat = r → r ≤ fld s.dram.config 4 2 → s.dram.ratePending = none → memBlocked s = false →
    s.host.outst.length < 16 →
    (r = s.dram.rate → exec (.memSetRate k) s = .next (respond k accepted (complete 0x0E02 c.tag 0 (w32 r) 0 0 (outstand 0x0E02 c.tag 0 (begun k s))))) ∧
    (r ≠ s.dram.rate → s.dram.training = none → ∃ t, exec (.memSetRate k) s = .next (respond k accepted t) ∧ t.dram.rate = r ∧ t.dram.oldRate = s.dram.rate ∧
      t.dram.ratePending = some (c.tag, r) ∧ t.dram.trained = false ∧ t.dram.training = some (none, false)) ∧
    (r ≠ s.dram.rate → s.dram.training.isSome = true → ∃ t, exec (.memSetRate k) s = .next (respond k deferred t) ∧ t.dram.rate = s.dram.rate ∧
      t.dram.ratePending = some (c.tag, r) ∧ t.dram.discardPass = true ∧ t.dram.training = s.dram.training)) ∧
  (∀ k c s r, Rung 0x0E03 2 k c s → (c.w 0).toNat = r → 3 ≤ r → r ≤ 8 → 250 ≤ (c.w 1).toNat → (c.w 1).toNat < 65536 → s.host.opState ≠ .boot →
    exec (.memClassConfig k) s = .next (respond k ok { begun k s with dram := { s.dram with age := upd s.dram.age r (fun _ => (c.w 1).toNat) } })) ∧
  (∀ k c s, Rung 0x0E04 2 k c s → (c.w 1).toNat % 64 = 0 → (c.w 1).toNat < 2 ^ 20 → s.host.firing = false →
    (c.w 0 = 0 → ∃ t, exec (.memEccInject k) s = .next (respond k (okWith [1]) t) ∧ t.dram.eccCorr = satAdd s.dram.eccCorr 1 ∧
      t.dram.eccUncorr = s.dram.eccUncorr ∧ OnlyChanges [.host, .pers, .out, .dram] (begun k s) t) ∧
    (c.w 0 = 1 → ∃ t, exec (.memEccInject k) s = .next (respond k (okWith [2]) t) ∧ t.dram.eccUncorr = satAdd s.dram.eccUncorr 1 ∧
      t.dram.eccAddr = trainingAddr s.dram.config (c.w 1).toNat ∧ OnlyChanges [.host, .pers, .out, .dram] (begun k s) t))

/-! ## Persistence -/

/-- PERSISTENT WORDS (R500, R502 to R508): a host write stores the writable bits of its word and no other word, and counts; a protected word stays and sets PRF_PROTECTED; in a page at
its limit a write is discarded; the refresh, after a week of operation, counts 64 writes for every page and keeps every word. -/
def Claims.PersistentWords : Prop :=
  (∀ (w : Fin 1024) (v m : Word) (s : State), prfMask w = some m → pageFull s.pers (w.val / 64) = false → s.pers.prf.length = 1024 → s.pers.wear.length = 16 →
    ∃ t, exec (.prfWrite w v) s = .next t ∧ OnlyChanges [.host, .pers, .out] s t ∧
      (∀ i, i < 1024 → wd t.pers.prf i = if i = w.val then v &&& m else wd s.pers.prf i) ∧
      (∀ p, p < 16 → cell t.pers.wear p 0 = if p = w.val / 64 then min (cell s.pers.wear p 0 + 1) 100000000 else cell s.pers.wear p 0) ∧ t.pers.clean = false) ∧
  (∀ (w : Fin 1024) (v : Word) (s : State), prfMask w = none → exec (.prfWrite w v) s = .next (stickRec .prfProtected s)) ∧
  (∀ (w : Fin 1024) (v m : Word) (s : State), prfMask w = some m → pageFull s.pers (w.val / 64) = true →
    ∃ t, exec (.prfWrite w v) s = .next t ∧ OnlyChanges [.host, .pers, .out] s t ∧ t.pers.prf = s.pers.prf ∧ t.pers.wear = s.pers.wear) ∧
  (∀ w, 64 ≤ w → prfMask w = some 0xFFFFFFFF) ∧ prfMask 16 = none ∧ prfMask 10 = some 3 ∧
  (∀ (c : Bool) (u : Option Nat) (s : State), (s.pwr.state = .sleep ∨ s.pers.opMinutes - s.pers.refreshMin < 10080) →
    exec (.mramRefresh c u) s = .next s) ∧
  (∀ (c : Bool) (u : Option Nat) (s : State), s.pwr.state ≠ .sleep → 10080 ≤ s.pers.opMinutes - s.pers.refreshMin → s.pers.wear.length = 16 → ∃ t, exec (.mramRefresh c u) s = .next t ∧ OnlyChanges [.host, .pers, .out] s t ∧
    t.pers.prf = s.pers.prf ∧ t.pers.refreshMin = s.pers.opMinutes ∧ ∀ p, p < 16 → cell t.pers.wear p 0 = min (cell s.pers.wear p 0 + 64) 100000000) ∧
  (∀ s : State, ((s.pwr.state = .sleep ∨ s.since s.pers.minuteAt < 60000000000) → exec .opMinute s = .next s) ∧
    (s.pwr.state ≠ .sleep → 60000000000 ≤ s.since s.pers.minuteAt → exec .opMinute s =
      .next { s with pers := { s.pers with opMinutes := s.pers.opMinutes + 1, minuteAt := s.pos.mono } }))

/-- THE ALMANAC (R519 to R522, R526): the record served is of the highest severity and then the oldest; it takes a unit of the budget, which holds at most 256, and stands in the ring at its sequence number modulo
4,096 with a right CRC, the rest of the ring staying. ALM_WRITE queues an entry whose response comes with its record, or BUSY when it is withdrawn; ALM_READ returns at most 7 records that
the ring holds. -/
def Claims.Almanac : Prop :=
  (∀ (l : List AlmRec) (b : AlmRec), bestRec l = some b → b ∈ l ∧ ∀ x ∈ l, x.severity ≤ b.severity ∧ (x.severity = b.severity → b.seq ≤ x.seq)) ∧
  (∀ s : State, (s.since s.pers.almTickAt < 3906250 → exec .almanacBudgetTick s = .next s) ∧
    (3906250 ≤ s.since s.pers.almTickAt → exec .almanacBudgetTick s = .next { s with pers := { s.pers with
      almBudget := min 256 (s.pers.almBudget + 1), almTickAt := s.pos.mono } })) ∧
  (∀ s : State, (s.pers.almQueue = [] ∨ s.pers.almBudget = 0) → exec .almanacRecordWrite s = .next s) ∧
  (∀ (r : AlmRec) (s : State), bestRec s.pers.almQueue = some r → s.pers.almBudget ≠ 0 →
    ∃ t w, exec .almanacRecordWrite s = .next t ∧ OnlyChanges [.host, .pers, .out] s t ∧ t.pers.almNext = nextSeq s.pers.almNext ∧
      t.pers.almBudget + 1 = s.pers.almBudget ∧ t.pers.alm.lookup (s.pers.almNext.toNat % 4096) = some w ∧ w.length = 8 ∧ wd w 0 = s.pers.almNext ∧
      fld (wd w 1) 0 16 = r.code.toNat ∧ fld (wd w 7) 16 16 = crc16 ((wordBytes w).take 30) ∧
      ∀ j, j ≠ s.pers.almNext.toNat % 4096 → t.pers.alm.lookup j = s.pers.alm.lookup j) ∧
  (∀ k c s, Rung 0x0E13 5 k c s → fld (c.w 0) 8 3 ≤ 3 → c.w 0 &&& ~~~ 0x7FF = 0 → c.w 4 &&& ~~~ 0xFFFF = 0 → s.pers.almQueue.length < 16 →
    s.host.opState ≠ .boot → ∃ t r, exec (.almWrite k) s = .next t ∧ OnlyChanges [.pers] (begun k s) t ∧ t.pers.almQueue = s.pers.almQueue ++ [r] ∧
      r.code.toNat = fld (c.w 0) 0 8 ∧ r.source = 0xFF ∧ r.severity = fld (c.w 0) 8 3 ∧ r.p0 = c.w 1 ∧ r.p1 = c.w 2 ∧ r.p2 = c.w 3 ∧ r.host = some k.val ∧
      r.asked = s.pos.mono ∧ t.pers.alm = s.pers.alm) ∧
  (∀ (k : Fin 16) (s : State), (∀ r ∈ s.pers.almQueue, r.host ≠ some k.val ∨ s.since r.asked < 10000000) → exec (.almWriteTimeout k) s = .next s) ∧
  (∀ (k : Fin 16) (r : AlmRec) (s : State), r ∈ s.pers.almQueue → r.host = some k.val → 10000000 ≤ s.since r.asked → exec (.almWriteTimeout k) s = .next (respond k busy
    { s with pers := { s.pers with almQueue := s.pers.almQueue.filter fun r => r.host != some k.val } })) ∧
  (∀ k c s n, Rung 0x0E14 2 k c s → (c.w 1).toNat = n → 1 ≤ n → n ≤ 7 → ∃ rs : List (List Word), exec (.almRead k) s =
    .next (respond k (okWith (w32 rs.length :: rs.flatten)) (begun k s)) ∧ rs.length ≤ n ∧
    ∀ w ∈ rs, ∃ i, max (c.w 0).toNat (almOldest s.pers).toNat ≤ i ∧ i < s.pers.almNext.toNat ∧ heldRecord s.pers i = some w) ∧
  (∀ (p : Pers) (n : Nat) (w : List Word), heldRecord p n = some w → p.alm.lookup (n % 4096) = some w ∧ wd w 0 = w32 n)

/-- WordsAndAlmanac: Claims.PersistentWords and Claims.Almanac. -/
def Obligations.WordsAndAlmanac : Prop := Claims.PersistentWords ∧ Claims.Almanac

/-- CALIBRATION SETS (R510 to R515, R524, R526): a write targets the slot that does not hold the higher valid generation and makes its record zeros first; done, the slot holds the copied state under the next
generation with a valid record; failed, it stays invalid and the other slot is unchanged. Asked for while one runs, within SET_MIN_S, or while one waits, it is deferred. -/
def Claims.CalibrationSets : Prop :=
  (∀ s : State, (s.pers.pendWrite = false ∨ s.pers.writing.isSome = true ∨ setMinPassed s = false) → exec .setWriteStart s = .next s) ∧
  (∀ s : State, s.pers.pendWrite = true → s.pers.writing = none → setMinPassed s = true → ∃ t j, exec .setWriteStart s = .next t ∧ OnlyChanges [.pers] s t ∧ t.pers.writing = some j ∧
    j.slot = writeTarget s.pers ∧ j.gen = w32 (max (slotGen s.pers.slotA) (slotGen s.pers.slotB) + 1) ∧ j.image = s.pers.image ∧ j.tags = s.pers.pendTags ∧
    t.pers.pendWrite = false ∧ (if j.slot then slotGen t.pers.slotB = 0 ∧ t.pers.slotA = s.pers.slotA else slotGen t.pers.slotA = 0 ∧ t.pers.slotB = s.pers.slotB)) ∧
  (∀ (c k : Bool) (s : State), (s.pers.writing = none ∨ s.host.berylRunning = false) → exec (.setWriteDone c k) s = .next s) ∧
  (∀ (j : SetJob) (s : State), s.host.berylRunning = true → s.pers.writing = some j → j.slot = true → ∃ t, exec (.setWriteDone true true) s = .next t ∧ t.pers.writing = none ∧
    t.pers.slotA = s.pers.slotA ∧ t.pers.slotB.objs = j.image ∧ t.pers.slotB.writes = s.pers.slotB.writes + 1 ∧
    t.pers.slotB.commit = commitRecord j.gen j.epoch j.line j.modules j.image ∧ OnlyChanges [.host, .pers, .out] s t) ∧
  (∀ (j : SetJob) (s : State), s.host.berylRunning = true → s.pers.writing = some j → j.slot = false → ∃ t, exec (.setWriteDone true true) s = .next t ∧ t.pers.writing = none ∧
    t.pers.slotB = s.pers.slotB ∧ t.pers.slotA.objs = j.image ∧ t.pers.slotA.writes = s.pers.slotA.writes + 1 ∧
    t.pers.slotA.commit = commitRecord j.gen j.epoch j.line j.modules j.image ∧ OnlyChanges [.host, .pers, .out] s t) ∧
  (∀ (j : SetJob) (c k : Bool) (s : State), s.host.berylRunning = true → s.pers.writing = some j → c = false ∨ k = false → ∃ t, exec (.setWriteDone c k) s = .next t ∧
    t.pers.writing = none ∧ (s.StkSound → flag (wd t.host.stk Sticky.setWriteFail.n) Sticky.setWriteFail.b = true) ∧ OnlyChanges [.host, .pers, .out] s t ∧
    (if j.slot then slotGen t.pers.slotB = 0 ∧ t.pers.slotA = s.pers.slotA else slotGen t.pers.slotA = 0 ∧ t.pers.slotB = s.pers.slotB)) ∧
  (∀ (g e l : Word) (m : Nat) (objs : List Obj), m ∈ [4, 8, 12, 16] → recordValid (commitRecord g e l m objs) = true ∧ wd (commitRecord g e l m objs) 1 = g) ∧
  (∀ p : Pers, recordValid p.slotA.commit = true → recordValid p.slotB.commit = true → writeTarget p = decide (slotGen p.slotB ≤ slotGen p.slotA)) ∧
  (∀ p : Pers, recordValid p.slotA.commit = false → writeTarget p = false) ∧
  (∀ p : Pers, recordValid p.slotA.commit = true → recordValid p.slotB.commit = false → writeTarget p = true)

/-- THE PERSISTENCE COMMANDS (R512, R514, R524, R526): each one's answer and effect where its conditions hold. -/
def Claims.PersistenceCommands : Prop :=
  (∀ k c s, Rung 0x0E10 0 k c s → s.host.opState ≠ .boot → exec (.persGetStatus k) s = .next (respond k (okWith (s.pers.wear.map wearReg ++
    setView s.pers ++ [s.pers.almNext, almOldest s.pers, s.pers.almSuppressed, s.pers.opMinutes, s.pers.powerCycles])) (begun k s))) ∧
  (∀ k c s u, Rung 0x0E11 0 k c s → (s.host.opState = .ready ∨ s.host.opState = .print ∨ s.host.opState = .service) → s.host.outst.length < 16 →
    u = outstand 0x0E11 c.tag 0 { begun k s with pers := { s.pers with
      image := setObjects s, imageLine := 0xFFFFFFFF, imageEpoch := s.cg.epochNow, imageModules := s.cg.modules } } →
    (s.pers.writing = none → setMinPassed s = true → s.pers.pendWrite = false → exec (.persSetWrite k) s = .next (respond k accepted (startSetWrite [c.tag] u))) ∧
    ((s.pers.writing.isSome = true ∨ setMinPassed s = false ∨ s.pers.pendWrite = true) → exec (.persSetWrite k) s = .next (respond k deferred
      { u with pers := { u.pers with pendWrite := true, pendTags := s.pers.pendTags ++ [c.tag] } }))) ∧
  (∀ k c s n, Rung 0x0E12 1 k c s → (c.w 0).toNat = n → 1 ≤ n → n ≤ 3 → s.pers.writing = none → s.host.opState ≠ .boot →
    exec (.persSetInvalidate k) s = .next (respond k ok { begun k s with pers := { s.pers with
      slotA := if n = 2 then s.pers.slotA else s.pers.slotA.invalid, slotB := if n = 1 then s.pers.slotB else s.pers.slotB.invalid } }))

/-- SetsAndPersistence: Claims.CalibrationSets and Claims.PersistenceCommands. -/
def Obligations.SetsAndPersistence : Prop := Claims.CalibrationSets ∧ Claims.PersistenceCommands
end

