-- ==== Sys2Proof/Laws/Ops.lean ====
section
/-!
SUPPORT. What the shared operations do, once each: picking an answer (R51), running a mailbox command (R42 to R53), the frames of messages,
events, completions and answers.
-/
namespace Sys2Proof.Machine

/-! ## Picking an answer -/

theorem pick_none_iff (l : List (Bool × Ans)) : pick l = none ↔ ∀ x ∈ l, x.1 = false := by
  induction l with
  | nil => simp [pick]
  | cons x l ih =>
    obtain ⟨c, a⟩ := x
    simp only [pick, List.mem_cons, forall_eq_or_imp]
    rw [← ih]
    cases h : pick l with
    | none => cases c <;> simp
    | some b =>
      simp only [reduceCtorEq, and_false, iff_false]
      split <;> simp

theorem pick_append_none (l m : List (Bool × Ans)) : pick (l ++ m) = none ↔ pick l = none ∧ pick m = none := by
  rw [pick_none_iff, List.forall_mem_append, ← pick_none_iff, ← pick_none_iff]

/-! ## Running a mailbox command -/

variable {op minWords : Nat} {k : Fin 16} {c : RungCmd} {s : State}
  {checks : State → List Word → List (Bool × Ans)} {effect : Word → List Word → State → State × Option Ans}

/-- A command whose checks pass has its effect, and answers now or later. -/
theorem command_run (h : Rung op minWords k c s) (hp : Passes (checks s c.payload)) :
    command op minWords k checks effect s =
      match effect c.tag c.payload (begun k s) with
      | (s2, some a) => respond k a s2
      | (s2, none) => s2 := by
  have hw : ¬ c.payloadWords < minWords := by have := h.words; omega
  have hn : pick ([(c.headerBad, badParam 0xFFFE), (decide (c.payloadWords < minWords), badParam 0xFFFF)] ++ served op s ++
      (if c.headerBad || decide (c.payloadWords < minWords) then [] else checks s c.payload)) = none := by
    rw [pick_append_none, pick_append_none]
    refine ⟨⟨?_, h.served⟩, ?_⟩
    · simp [pick_none_iff, h.header, hw]
    · simp only [h.header, hw, decide_false, Bool.or_self, Bool.false_eq_true, if_false]
      exact (pick_none_iff _).mpr hp
  unfold command
  rw [h.waiting]
  simp only [h.opcode, h.starts, and_self, if_true, hn]
  rfl

/-- The same for a command that is answered at once. -/
theorem command_done (h : Rung op minWords k c s) (hp : Passes (checks s c.payload)) {t : State} {a : Ans}
    (he : effect c.tag c.payload (begun k s) = (t, some a)) : command op minWords k checks effect s = respond k a t := by
  rw [command_run h hp, he]

/-- The same for a command that is answered later. -/
theorem command_later (h : Rung op minWords k c s) (hp : Passes (checks s c.payload)) {t : State}
    (he : effect c.tag c.payload (begun k s) = (t, none)) : command op minWords k checks effect s = t := by
  rw [command_run h hp, he]

/-- A row whose command is not in its slot changes nothing. -/
theorem command_absent (h : s.host.waiting k = none) : command op minWords k checks effect s = s := by
  unfold command; rw [h]

/-- A command that may not start yet changes nothing. -/
theorem command_held (h : s.host.waiting k = some c) (hs : startable s.host c = false) : command op minWords k checks effect s = s := by
  unfold command; rw [h]; simp [hs]

@[simp] theorem passes_nil : Passes [] := fun _ h => absurd h (by simp)

@[simp] theorem passes_cons (x : Bool × Ans) (l : List (Bool × Ans)) : Passes (x :: l) ↔ x.1 = false ∧ Passes l := by
  simp [Passes]

@[simp] theorem passes_append (l m : List (Bool × Ans)) : Passes (l ++ m) ↔ Passes l ∧ Passes m :=
  List.forall_mem_append

end Sys2Proof.Machine
end

