-- ==== Sys2Proof/Laws/Sticky.lean ====
section
/-!
SUPPORT. The sticky block (R15, R63, R64): reading a list after an update, and that messages, sticky bits, records, events, completions and
answers keep the block sound.
-/
namespace Sys2Proof.Machine

/-! ## Reading the predicate off a record -/

@[simp] theorem stkSound_host (s : State) : s.host.StkSound ↔ s.StkSound := Iff.rfl
@[simp] theorem stkSound_parts (s : State) : Machine.StkSound s.host.stk s.host.stkMask s.host.stkFirst ↔ s.StkSound := Iff.rfl
@[simp] theorem stkSound_logParts (l : Log) : Machine.StkSound l.host.stk l.host.stkMask l.host.stkFirst ↔ l.host.StkSound := Iff.rfl
theorem stkSound_of_host {s t : State} (h : s.StkSound) (e : t.host = s.host) : t.StkSound := by
  unfold State.StkSound; rw [e]; exact h

/-! ## Lists -/

theorem cell_upd {α : Type} (l : List α) (i j : Nat) (f : α → α) (d : α) (hi : i < l.length) :
    cell (upd l i f) j d = if i = j then f (cell l j d) else cell l j d := by
  rcases eq_or_ne i j with rfl | ne
  · simp [cell, upd, hi]
  · simp [cell, upd, List.getD_eq_getElem?_getD, ne]

@[simp] theorem length_upd {α : Type} (l : List α) (i : Nat) (f : α → α) : (upd l i f).length = l.length := by
  simp [upd]

theorem wd_upd (l : List Word) (i j : Nat) (f : Word → Word) (hi : i < l.length) :
    wd (upd l i f) j = if i = j then f (wd l j) else wd l j := cell_upd l i j f 0 hi

/-! ## Messages, sticky bits, records, events -/

@[simp] theorem Log.send_stk (v : Nat) (l : Log) (h : l.host.StkSound) : (l.send v).host.StkSound := by
  unfold Log.send; split <;> exact h

theorem Log.stick_parts (k : Sticky) (l : Log) (hd : flag (wd Config.stkDefined k.n) k.b = true) :
    (l.stick k).host.stk = upd l.host.stk k.n (fun w => w ||| (1#32 <<< k.b)) ∧ (l.stick k).host.stkMask = l.host.stkMask ∧
    (l.stick k).host.stkFirst = upd l.host.stkFirst k.n (fun f => if wd l.host.stk k.n = 0 then some (BitVec.ofNat 5 k.b) else f) := by
  have hs : ∀ (v : Nat) (l : Log), (l.send v).host.stk = l.host.stk ∧ (l.send v).host.stkMask = l.host.stkMask ∧
      (l.send v).host.stkFirst = l.host.stkFirst := by
    intro v l; unfold Log.send; split <;> simp
  unfold Log.stick
  simp only [hd, Bool.not_true, Bool.false_eq_true, if_false]
  split
  · simp [hs]
  · simp

theorem flag_lt (n b : Nat) (h : flag (wd Config.stkDefined n) b = true) : n < 16 ∧ b < 32 := by
  constructor
  · by_contra hn
    have : wd Config.stkDefined n = 0 := by
      unfold wd; rw [List.getD_eq_getElem?_getD, List.getElem?_eq_none (by simp [Config.stkDefined]; omega)]; rfl
    rw [this] at h; simp [flag] at h
  · by_contra hb
    unfold flag at h
    have := Nat.testBit_lt_two_pow (x := (wd Config.stkDefined n).toNat) (i := b)
      (lt_of_lt_of_le (wd Config.stkDefined n).isLt (Nat.pow_le_pow_right (by norm_num) (by omega)))
    rw [this] at h; exact absurd h (by simp)

theorem bit_reserved (d : Word) (b : Nat) (hd : flag d b = true) : (1#32 <<< b) &&& ~~~ d = 0 := by
  have hb : d.getLsbD b = true := hd
  apply BitVec.eq_of_getLsbD_eq
  intro i hi
  by_cases e : i = b
  · subst e; simp [BitVec.getLsbD_and, BitVec.getLsbD_not, hb]
  · have : (1#32 <<< b).getLsbD i = false := by
      rw [BitVec.getLsbD_shiftLeft, BitVec.getLsbD_one]
      simp only [Bool.and_eq_false_imp, decide_eq_true_eq]
      simp
      omega
    rw [BitVec.getLsbD_and, this]; simp

theorem and_reserved (w x d : Word) (h : w &&& ~~~ d = 0) : (w &&& x) &&& ~~~ d = 0 := by
  rw [BitVec.and_assoc, BitVec.and_comm x, ← BitVec.and_assoc, h]; simp

theorem bit_or_reserved (w d : Word) (b : Nat) (hd : flag d b = true) (h : w &&& ~~~ d = 0) : (w ||| (1#32 <<< b)) &&& ~~~ d = 0 := by
  rw [BitVec.and_or_distrib_right, h, bit_reserved d b hd]; rfl

theorem bit_or_ne_zero (w : Word) (b : Nat) (hb : b < 32) : w ||| (1#32 <<< b) ≠ 0 := by
  intro h
  have := congrArg (fun x => x.getLsbD b) h
  simp [hb] at this

@[simp] theorem Log.stick_stk (k : Sticky) (l : Log) (h : l.host.StkSound) : (l.stick k).host.StkSound := by
  by_cases hd : flag (wd Config.stkDefined k.n) k.b = true
  · obtain ⟨e1, e2, e3⟩ := l.stick_parts k hd
    obtain ⟨hn, hb⟩ := flag_lt _ _ hd
    unfold HostIf.StkSound at *
    rw [e1, e2, e3]
    refine ⟨by simp [h.stkLen], h.maskLen, by simp [h.firstLen], ?_, ?_⟩
    · intro n hlt
      rw [wd_upd _ _ _ _ (by rw [h.stkLen]; exact hn)]
      split
      · subst_vars; exact bit_or_reserved _ _ _ hd (h.stkBits _ hlt)
      · exact h.stkBits n hlt
    · intro n hlt
      rw [wd_upd _ _ _ _ (by rw [h.stkLen]; exact hn), cell_upd _ _ _ _ _ (by rw [h.firstLen]; exact hn)]
      split
      · rename_i e
        subst e
        have := h.valid _ hlt
        constructor
        · intro _; exact bit_or_ne_zero _ _ hb
        · intro _
          split
          · rfl
          · rename_i hz; exact this.mpr hz
      · exact h.valid n hlt
  · unfold Log.stick
    simp only [Bool.not_eq_true] at hd
    simpa [hd] using h

@[simp] theorem Log.stkClear_stk (n : Nat) (w : Word) (l : Log) (h : l.host.StkSound) : (l.stkClear n w).host.StkSound := by
  by_cases hn : n < 16
  · unfold Log.stkClear
    simp only [HostIf.StkSound] at *
    refine ⟨by simp [h.stkLen], h.maskLen, by simp [h.firstLen], ?_, ?_⟩
    · intro m hm
      rw [wd_upd _ _ _ _ (by rw [h.stkLen]; exact hn)]
      split
      · subst_vars; exact and_reserved _ _ _ (h.stkBits _ hm)
      · exact h.stkBits m hm
    · intro m hm
      rw [wd_upd _ _ _ _ (by rw [h.stkLen]; exact hn), cell_upd _ _ _ _ _ (by rw [h.firstLen]; exact hn)]
      split
      · rename_i e
        subst e
        have hv := h.valid _ hm
        by_cases hz : wd l.host.stk n &&& ~~~ w = 0
        · simp [hz]
        · simp only [hz, if_false, ne_eq, not_false_eq_true, iff_true]
          apply hv.mpr
          intro h0
          apply hz
          rw [h0]; simp
      · exact h.valid m hm
  · have e1 : upd l.host.stk n (fun _ => wd l.host.stk n &&& ~~~ w) = l.host.stk := by
      unfold upd; apply List.modify_eq_self
      have : l.host.stk.length = 16 := h.stkLen
      omega
    have e2 : ∀ f, upd l.host.stkFirst n f = l.host.stkFirst := by
      intro f
      unfold upd; apply List.modify_eq_self
      have : l.host.stkFirst.length = 16 := h.firstLen
      omega
    unfold Log.stkClear
    simp only [HostIf.StkSound] at *
    rw [e1, e2]; exact h

@[simp] theorem Log.respond_stk (k : Nat) (a : Ans) (l : Log) (h : l.host.StkSound) : (l.respond k a).host.StkSound := by
  unfold Log.respond
  split
  · exact h
  · dsimp only
    split
    · exact h
    · split
      · exact h
      · apply Log.send_stk; exact h

@[simp] theorem Log.record_stk (r : AlmRec) (l : Log) (h : l.host.StkSound) : (l.record r).host.StkSound := by
  unfold Log.record
  dsimp only
  split
  · exact h
  · split
    · apply Log.respond_stk; apply Log.stick_stk; exact h
    · apply Log.stick_stk; exact h

@[simp] theorem Log.stickRec_stk (line : Word) (k : Sticky) (l : Log) (source : Nat) (h : l.host.StkSound) : (l.stickRec line k source).host.StkSound := by
  unfold Log.stickRec
  split
  · exact h
  · exact Log.record_stk _ _ (Log.stick_stk _ _ h)

@[simp] theorem Log.signal_stk (now : Bool) (i : Word) (v : Nat) (l : Log) (h : l.host.StkSound) : (l.signal now i v).host.StkSound := by
  unfold Log.signal
  dsimp only
  split
  · apply Log.send_stk; exact h
  · exact h

@[simp] theorem Log.enqueue_stk (line : Word) (code source sev : Nat) (tag p0 p1 p2 w7 : Word) (l : Log) (h : l.host.StkSound) :
    (l.enqueue line code source sev tag p0 p1 p2 w7).host.StkSound := by
  unfold Log.enqueue
  dsimp only
  split
  · apply Log.signal_stk; exact h
  · apply Log.signal_stk; exact h
  · apply Log.signal_stk; apply Log.signal_stk; exact h

@[simp] theorem Log.queueEvent_stk (line : Word) (e : Event) (l : Log) (h : l.host.StkSound) : (l.queueEvent line e).host.StkSound := by
  unfold Log.queueEvent
  dsimp only
  split
  · exact h
  · split
    · apply Log.enqueue_stk; exact h
    · apply Log.stickRec_stk; exact h

@[simp] theorem Log.event_stk (line : Word) (e : Event) (l : Log) (h : l.host.StkSound) : (l.event line e).host.StkSound := by
  unfold Log.event
  dsimp only
  split
  · exact Log.record_stk _ _ (Log.queueEvent_stk _ _ _ h)
  · exact Log.queueEvent_stk _ _ _ h

@[simp] theorem Log.complete_stk (line : Word) (opcode : Nat) (tag : Word) (status : Nat) (p0 p1 p2 : Word) (l : Log) (h : l.host.StkSound) :
    (l.complete line opcode tag status p0 p1 p2).host.StkSound := by
  unfold Log.complete
  apply Log.enqueue_stk; exact h

@[simp] theorem Log.flush_stk (l : Log) (h : l.host.StkSound) : l.flush.host.StkSound := by
  unfold Log.flush
  generalize List.range 16 = xs
  induction xs generalizing l with
  | nil => exact h
  | cons x xs ih =>
    rw [List.foldl_cons]
    apply ih
    split <;> exact h

/-! ## The state -/

@[simp] theorem withLog_stk (l : Log) (s : State) : (s.withLog l).StkSound ↔ l.host.StkSound := Iff.rfl
@[simp] theorem log_stk (s : State) : s.log.host.StkSound ↔ s.StkSound := Iff.rfl

/-- A fold keeps the sticky block sound when each of its steps does. -/
@[simp] theorem foldl_stk {α : Type} (g : State → α → State) (l : List α) (s : State) (hs : s.StkSound)
    (h : ∀ s x, s.StkSound → (g s x).StkSound) : (l.foldl g s).StkSound := by
  exact List.foldlRecOn l g hs fun t ht x _ => h t x ht

@[simp] theorem forAll_stk (l : List Nat) (f : Nat → State → State) (s : State) (hs : s.StkSound)
    (h : ∀ n s, s.StkSound → (f n s).StkSound) : (forAll l f s).StkSound :=
  foldl_stk _ _ _ hs fun s x => h x s

@[simp] theorem applyIf_stk (c : Bool) (f : State → State) (s : State) (hs : s.StkSound) (h : ∀ s, s.StkSound → (f s).StkSound) :
    (applyIf c f s).StkSound := by
  unfold applyIf; split
  · exact h s hs
  · exact hs

end Sys2Proof.Machine
end

