-- ==== Sys2Proof/Laws/StickyKept.lean ====
section
/-!
SUPPORT. Every operation and every command keeps the sticky block sound (R15, R63): one lemma for each definition of the machine that gives a
state.
-/
namespace Sys2Proof.Machine
set_option linter.unusedSimpArgs false
set_option linter.unusedTactic false
set_option linter.unreachableTactic false
set_option linter.unnecessarySeqFocus false


@[simp] theorem state_mk_stk (host cg pg scr fire hl insp cal pos axes lamp twin onyx dram pers pwr pending free out) : (State.mk host cg pg scr fire hl insp cal pos axes lamp twin onyx dram pers pwr pending free out).StkSound ↔ host.StkSound := Iff.rfl
@[simp] theorem host_mk_stk (opState mbxReady firing fwVersion fwBuild heartbeat beatAt berylRunning restarting bootRomWaiting wdogTimeout wdogAction wdogExpired wdogStart scratch gsLatch latch64 held64 woLow linkUp linkGen linkWidth linkInL2 perstLow busMaster vendorId deviceId classCode d3hot maxPayload maxRead subsysVendor subsysId idsLoaded msixEnable msixFuncMask msixTable pba cmdSlots rspSlots slotState rung respIrqEn lastSeq outst evq evqHead evqTail evqLost evqOverflowed minSeverity coalesceCount coalesceTime vecMap unsig stk stkMask stkFirst opReq wdogForce resetReq resetStop fwStage stagedImage activeHalf qspi bootAlt bootSource bootLoad) : (HostIf.mk opState mbxReady firing fwVersion fwBuild heartbeat beatAt berylRunning restarting bootRomWaiting wdogTimeout wdogAction wdogExpired wdogStart scratch gsLatch latch64 held64 woLow linkUp linkGen linkWidth linkInL2 perstLow busMaster vendorId deviceId classCode d3hot maxPayload maxRead subsysVendor subsysId idsLoaded msixEnable msixFuncMask msixTable pba cmdSlots rspSlots slotState rung respIrqEn lastSeq outst evq evqHead evqTail evqLost evqOverflowed minSeverity coalesceCount coalesceTime vecMap unsig stk stkMask stkFirst opReq wdogForce resetReq resetStop fwStage stagedImage activeHalf qspi bootAlt bootSource bootLoad).StkSound ↔ Machine.StkSound stk stkMask stkFirst := Iff.rfl
theorem ite_stk {c : Prop} [Decidable c] {a b : State} (ha : a.StkSound) (hb : b.StkSound) : (if c then a else b).StkSound := by
  split
  · exact ha
  · exact hb

@[simp] theorem done_fst (p : State × Ans) : (done p).1 = p.1 := rfl

@[simp] theorem stick_stk (k : Sticky) (s : State) (h : s.StkSound) : (stick k s).StkSound := by
  simp (maxDischargeDepth := 9) [stick, h]
@[simp] theorem stickRec_stk (k : Sticky) (s : State) (source : optParam Nat 0) (h : s.StkSound) : (stickRec k s source).StkSound := by
  simp (maxDischargeDepth := 9) [stickRec, h]
@[simp] theorem event_stk (e : Event) (s : State) (h : s.StkSound) : (event e s).StkSound := by
  simp (maxDischargeDepth := 9) [event, h]
theorem withPg_stk {s : State} (h : s.StkSound) (x : Pages) : State.StkSound { s with pg := x } := h
theorem withScr_stk {s : State} (h : s.StkSound) (x : Screen) : State.StkSound { s with scr := x } := h
theorem withTwin_stk {s : State} (h : s.StkSound) (x : Twin) : State.StkSound { s with twin := x } := h
theorem withPos_stk {s : State} (h : s.StkSound) (x : Pos) : State.StkSound { s with pos := x } := h
theorem withOnyx_stk {s : State} (h : s.StkSound) (x : Onyx) : State.StkSound { s with onyx := x } := h
theorem withCal_stk {s : State} (h : s.StkSound) (x : Cal) : State.StkSound { s with cal := x } := h
theorem withInsp_stk {s : State} (h : s.StkSound) (x : Insp) : State.StkSound { s with insp := x } := h
theorem withFire_stk {s : State} (h : s.StkSound) (x : Fire) : State.StkSound { s with fire := x } := h
theorem withCg_stk {s : State} (h : s.StkSound) (x : Commit) : State.StkSound { s with cg := x } := h
theorem withAxes_stk {s : State} (h : s.StkSound) (x : Axes) : State.StkSound { s with axes := x } := h
theorem withDram_stk {s : State} (h : s.StkSound) (x : Dram) : State.StkSound { s with dram := x } := h
theorem withLamp_stk {s : State} (h : s.StkSound) (x : Lamp) : State.StkSound { s with lamp := x } := h
@[simp] theorem eventAt_stk (line : Word) (e : Event) (s : State) (h : s.StkSound) : (eventAt line e s).StkSound := by
  simp (maxDischargeDepth := 9) [eventAt, h]
@[simp] theorem stickEvent_stk (k : Sticky) (e : Event) (s : State) (h : s.StkSound) : (stickEvent k e s).StkSound := by
  simp (maxDischargeDepth := 9) [stickEvent, h]
@[simp] theorem completeNow_stk (opcode : Nat) (tag : Word) (status : Nat) (p0 : Word) (p1 : Word) (p2 : Word) (s : State) (h : s.StkSound) : (completeNow opcode tag status p0 p1 p2 s).StkSound := by
  simp (maxDischargeDepth := 9) [completeNow, h]
@[simp] theorem complete_stk (opcode : Nat) (tag : Word) (status : Nat) (p0 : Word) (p1 : Word) (p2 : Word) (s : State) (h : s.StkSound) : (complete opcode tag status p0 p1 p2 s).StkSound := by
  unfold complete completeNow
  exact ite_stk h (by simp [h])
@[simp] theorem sendVec_stk (v : Nat) (s : State) (h : s.StkSound) : (sendVec v s).StkSound := by
  simp (maxDischargeDepth := 9) [sendVec, h]
@[simp] theorem respond_stk (slot : Nat) (a : Ans) (s : State) (h : s.StkSound) : (respond slot a s).StkSound := by
  simp (maxDischargeDepth := 9) [respond, h]
@[simp] theorem emit_stk (o : Output) (s : State) (h : s.StkSound) : (emit o s).StkSound := by
  exact ite_stk h h
@[simp] theorem drive_stk (os : List Output) (s : State) (h : s.StkSound) : (drive os s).StkSound := by
  unfold drive; refine foldl_stk _ _ _ (by simp (maxDischargeDepth := 9) [h]) ?_; intro s x h; first | (simp (maxDischargeDepth := 9) [h]; done) | ((repeat' split) <;> simp (maxDischargeDepth := 9) [h]; done) | (dsimp only; (repeat' split) <;> simp (maxDischargeDepth := 9) [h]; done)
@[simp] theorem emitPulse_stk (name : String) (width : Nat) (start : Nat) (s : State) (h : s.StkSound) : (emitPulse name width start s).StkSound := by
  unfold emitPulse; (repeat' split) <;> simp (maxDischargeDepth := 9) [h]
@[simp] theorem emits_stk (os : List Output) (s : State) (h : s.StkSound) : (emits os s).StkSound := by
  simp (maxDischargeDepth := 9) [emits, h]
@[simp] theorem mergeBack_stk (s : State) (h : s.StkSound) : (mergeBack s).StkSound := by
  simp (maxDischargeDepth := 9) [mergeBack, h]
@[simp] theorem outstand_stk (opcode : Nat) (tag : Word) (ref : Nat) (s : State) (h : s.StkSound) : (outstand opcode tag ref s).StkSound := by
  simp (maxDischargeDepth := 9) [outstand, h]
@[simp] theorem command_stk (opcode minWords : Nat) (slot : Fin 16) (checks : State → List Word → List (Bool × Ans))
    (effect : Word → List Word → State → State × Option Ans) (s : State) (h : s.StkSound)
    (he : ∀ tag ws s, s.StkSound → (effect tag ws s).1.StkSound) : (command opcode minWords slot checks effect s).StkSound := by
  have hm : ∀ c : RungCmd, (effect c.tag c.payload { s with host := { s.host with rung := markRunning slot s.host.rung } }).1.StkSound :=
    fun c => he _ _ _ h
  unfold command
  split
  · exact h
  · rename_i c _
    have hc := hm c
    dsimp only
    split
    · split
      · exact respond_stk _ _ _ h
      · split
        · rename_i e; rw [e] at hc; exact respond_stk _ _ _ hc
        · rename_i e; rw [e] at hc; exact hc
    · exact h

@[simp] theorem readHost_stk (addr : Nat) (len : Nat) (s : State) (h : s.StkSound) : (readHost addr len s).StkSound := by
  simp (maxDischargeDepth := 9) [readHost, h]
@[simp] theorem takeFree_stk (s : State) (h : s.StkSound) : (takeFree s).2.StkSound := by
  simp (maxDischargeDepth := 9) [takeFree, h]
@[simp] theorem takeFreeInt_stk (s : State) (h : s.StkSound) : (takeFreeInt s).2.StkSound := by
  simp (maxDischargeDepth := 9) [takeFreeInt, h]
@[simp] theorem setOutputs_stk (op : OpState) (p : PwrState) (s : State) (h : s.StkSound) : (setOutputs op p s).StkSound := by
  simp (maxDischargeDepth := 9) [setOutputs, h]
@[simp] theorem answerOpReq_stk (new : OpState) (s : State) (h : s.StkSound) : (answerOpReq new s).StkSound := by
  unfold answerOpReq; dsimp only; (repeat' split) <;> simp (maxDischargeDepth := 9) [h]
@[simp] theorem setOpState_stk (new : OpState) (forced : Bool) (s : State) (h : s.StkSound) : (setOpState new forced s).StkSound := by
  unfold setOpState; (repeat' split) <;> simp (maxDischargeDepth := 9) [h]
@[simp] theorem vigilSend_stk (m : VMsg) (s : State) (h : s.StkSound) : (vigilSend m s).StkSound := by
  simp (maxDischargeDepth := 9) [vigilSend, h]
@[simp] theorem setGroup_stk (g : Nat) (f : Group → Group) (s : State) (h : s.StkSound) : (setGroup g f s).StkSound := by
  simp (maxDischargeDepth := 9) [setGroup, h]
@[simp] theorem dropLoads_stk (g : Nat) (s : State) (h : s.StkSound) : (dropLoads g s).StkSound := by
  simp (maxDischargeDepth := 9) [dropLoads, h]
@[simp] theorem completeArm_stk (g : Nat) (status : Nat) (p0 : Word) (p1 : Word) (p2 : Word) (s : State) (h : s.StkSound) : (completeArm g status p0 p1 p2 s).StkSound := by
  unfold completeArm; (repeat' split) <;> simp (maxDischargeDepth := 9) [h]
@[simp] theorem unsync_stk (cause : Nat) (s : State) (h : s.StkSound) : (unsync cause s).StkSound := by
  unfold unsync; (repeat' split) <;> simp (maxDischargeDepth := 9) [h]
@[simp] theorem failJoin_stk (what : Nat) (s : State) (h : s.StkSound) : (failJoin what s).StkSound := by
  unfold failJoin; (repeat' split) <;> simp (maxDischargeDepth := 9) [h]
@[simp] theorem endGroupCmps_stk (g : Nat) (s : State) (h : s.StkSound) : (endGroupCmps g s).StkSound := by
  simp (maxDischargeDepth := 9) [endGroupCmps, h]
@[simp] theorem dropResult_stk (cause : Nat) (s0 : State) (h : s0.StkSound) : (dropResult cause s0).StkSound := by
  unfold dropResult
  cases s0.cal.res with
  | none => simp (maxDischargeDepth := 9) [h]
  | some r => cases e : r.auto <;> simp (maxDischargeDepth := 9) [h, e]
@[simp] theorem abortGroupTo_stk (again : Bool) (g : Nat) (cause : Nat) (s : State) (h : s.StkSound) : (abortGroupTo again g cause s).StkSound := by
  unfold abortGroupTo; dsimp only; (repeat' split) <;> simp (maxDischargeDepth := 9) [h]
@[simp] theorem abortGroup_stk (g : Nat) (cause : Nat) (s : State) (h : s.StkSound) : (abortGroup g cause s).StkSound := by
  exact abortGroupTo_stk _ _ _ _ h
@[simp] theorem abortArmed_stk (cause : Nat) (s : State) (h : s.StkSound) : (abortArmed cause s).StkSound := by
  unfold abortArmed; refine foldl_stk _ _ _ (by simp (maxDischargeDepth := 9) [h]) ?_; intro s x h; first | (simp (maxDischargeDepth := 9) [h]; done) | ((repeat' split) <;> simp (maxDischargeDepth := 9) [h]; done) | (dsimp only; (repeat' split) <;> simp (maxDischargeDepth := 9) [h]; done)
@[simp] theorem leaveSolo_stk (s : State) (h : s.StkSound) : (leaveSolo s).StkSound := by
  unfold leaveSolo; refine foldl_stk _ _ _ (by simp (maxDischargeDepth := 9) [h]) ?_; intro s x h; first | (simp (maxDischargeDepth := 9) [h]; done) | ((repeat' split) <;> simp (maxDischargeDepth := 9) [h]; done) | (dsimp only; (repeat' split) <;> simp (maxDischargeDepth := 9) [h]; done)
@[simp] theorem leaveJoin_stk (s : State) (h : s.StkSound) : (leaveJoin s).StkSound := by
  unfold leaveJoin; dsimp only; (repeat' split) <;> simp (maxDischargeDepth := 9) [h]
@[simp] theorem setRole_stk (new : Role) (s : State) (h : s.StkSound) : (setRole new s).StkSound := by
  unfold setRole; dsimp only; (repeat' split) <;> simp (maxDischargeDepth := 9) [h]
@[simp] theorem enterListen_stk (s : State) (h : s.StkSound) : (enterListen s).StkSound := by
  unfold enterListen; dsimp only; (repeat' split) <;> simp (maxDischargeDepth := 9) [h]
@[simp] theorem setPermission_stk (side : Nat) (p : Nat) (granted : Bool) (s : State) (h : s.StkSound) : (setPermission side p granted s).StkSound := by
  unfold setPermission; dsimp only; (repeat' split) <;> simp (maxDischargeDepth := 9) [h]
@[simp] theorem setLane_stk (m : Nat) (f : Lane → Lane) (s : State) (h : s.StkSound) : (setLane m f s).StkSound := by
  simp (maxDischargeDepth := 9) [setLane, h]
@[simp] theorem blankLanes_stk (reason : Nat) (s : State) (h : s.StkSound) : (blankLanes reason s).StkSound := by
  simp (maxDischargeDepth := 9) [blankLanes, h]
@[simp] theorem withholdAll_stk (s : State) (h : s.StkSound) : (withholdAll s).StkSound := by
  simp (maxDischargeDepth := 9) [withholdAll, h]
@[simp] theorem latchTrip_stk (cause : Nat) (param : Word) (s : State) (h : s.StkSound) : (latchTrip cause param s).StkSound := by
  unfold latchTrip; dsimp only; (repeat' split) <;> simp (maxDischargeDepth := 9) [h]
@[simp] theorem setAxisEnable_stk (a : Nat) (level : Bool) (reason : Nat) (s : State) (h : s.StkSound) : (setAxisEnable a level reason s).StkSound := by
  unfold setAxisEnable; (repeat' split) <;> simp (maxDischargeDepth := 9) [h]
@[simp] theorem countWear_stk (page : Nat) (k : Nat) (s : State) (h : s.StkSound) : (countWear page k s).StkSound := by
  unfold countWear; dsimp only; (repeat' split) <;> simp (maxDischargeDepth := 9) [h]
@[simp] theorem wornOut_stk (page : Nat) (s : State) (h : s.StkSound) : (wornOut page s).StkSound := by
  unfold wornOut; (repeat' split) <;> simp (maxDischargeDepth := 9) [h]
@[simp] theorem prfStore_stk (w : Nat) (v : Word) (s : State) (h : s.StkSound) : (prfStore w v s).StkSound := by
  unfold prfStore; (repeat' split) <;> simp (maxDischargeDepth := 9) [h]
@[simp] theorem issueClaim_stk (s : State) (h : s.StkSound) : (issueClaim s).2.StkSound := by
  unfold issueClaim; dsimp only; (repeat' split) <;> simp (maxDischargeDepth := 9) [h]
theorem execCommandSlotWrite_stk (slot : Fin 16) (off : Nat) (bytes : List Byte) (s : State) {t : State} (h : s.StkSound) (e : execCommandSlotWrite slot off bytes s = .next t) : t.StkSound := by
  unfold execCommandSlotWrite at e
  cases e
  (repeat' split) <;> simp (maxDischargeDepth := 9) [h]
@[simp] theorem ring_stk (s : State) (slot : Nat) (h : s.StkSound) : (ring s slot).StkSound := by
  unfold ring; (repeat' split) <;> simp (maxDischargeDepth := 9) [h]
@[simp] theorem doorbell_stk (mask : BitVec 16) (s : State) (h : s.StkSound) : (doorbell mask s).StkSound := by
  unfold doorbell; refine foldl_stk _ _ _ (by simp (maxDischargeDepth := 9) [h]) ?_; intro s x h; first | (simp (maxDischargeDepth := 9) [h]; done) | ((repeat' split) <;> simp (maxDischargeDepth := 9) [h]; done) | (dsimp only; (repeat' split) <;> simp (maxDischargeDepth := 9) [h]; done)
theorem execDoorbell_stk (mask : BitVec 16) (s : State) {t : State} (h : s.StkSound) (e : execDoorbell mask s = .next t) : t.StkSound := by
  unfold execDoorbell at e
  cases e
  simp (maxDischargeDepth := 9) [h]
@[simp] theorem acknowledge_stk (s : State) (slot : Nat) (h : s.StkSound) : (acknowledge s slot).StkSound := by
  unfold acknowledge; (repeat' split) <;> simp (maxDischargeDepth := 9) [h]
@[simp] theorem respAck_stk (mask : BitVec 16) (s : State) (h : s.StkSound) : (respAck mask s).StkSound := by
  unfold respAck; refine foldl_stk _ _ _ (by simp (maxDischargeDepth := 9) [h]) ?_; intro s x h; first | (simp (maxDischargeDepth := 9) [h]; done) | ((repeat' split) <;> simp (maxDischargeDepth := 9) [h]; done) | (dsimp only; (repeat' split) <;> simp (maxDischargeDepth := 9) [h]; done)
theorem execRespAck_stk (mask : BitVec 16) (s : State) {t : State} (h : s.StkSound) (e : execRespAck mask s = .next t) : t.StkSound := by
  unfold execRespAck at e
  cases e
  simp (maxDischargeDepth := 9) [h]
@[simp] theorem evqRoom_stk (s : State) (h : s.StkSound) : (evqRoom s).StkSound := by
  unfold evqRoom; (repeat' split) <;> simp (maxDischargeDepth := 9) [h]
@[simp] theorem evqTail_stk (v : Word) (s : State) (h : s.StkSound) : (evqTail v s).StkSound := by
  unfold evqTail; dsimp only; (repeat' split) <;> simp (maxDischargeDepth := 9) [h]
theorem execEvqTail_stk (v : Word) (s : State) {t : State} (h : s.StkSound) (e : execEvqTail v s = .next t) : t.StkSound := by
  unfold execEvqTail at e
  cases e
  simp (maxDischargeDepth := 9) [h]
theorem execCoalesceTimeExpiry_stk (vector : Fin 16) (s : State) {t : State} (h : s.StkSound) (e : execCoalesceTimeExpiry vector s = .next t) : t.StkSound := by
  unfold execCoalesceTimeExpiry at e
  cases e
  (repeat' split) <;> simp (maxDischargeDepth := 9) [h]
theorem execMsixUnmask_stk (enable : Bool) (funcMask : Bool) (unmask : Option (Fin 16)) (s : State) {t : State} (h : s.StkSound) (e : execMsixUnmask enable funcMask unmask s = .next t) : t.StkSound := by
  unfold execMsixUnmask at e
  cases e
  simp (maxDischargeDepth := 9) [h]
@[simp] theorem wdogRestart_stk (s : State) (h : s.StkSound) : (wdogRestart s).StkSound := by
  simp (maxDischargeDepth := 9) [wdogRestart, h]
theorem execHostAlive_stk (s : State) {t : State} (h : s.StkSound) (e : execHostAlive s = .next t) : t.StkSound := by
  unfold execHostAlive at e
  cases e
  simp (maxDischargeDepth := 9) [h]
@[simp] theorem hostWdogCfg_stk (v : Word) (s : State) (h : s.StkSound) : (hostWdogCfg v s).StkSound := by
  simp (maxDischargeDepth := 9) [hostWdogCfg, h]
theorem execHostWdogCfg_stk (v : Word) (s : State) {t : State} (h : s.StkSound) (e : execHostWdogCfg v s = .next t) : t.StkSound := by
  unfold execHostWdogCfg at e
  cases e
  simp (maxDischargeDepth := 9) [h]
theorem execHostWdogExpired_stk (s : State) {t : State} (h : s.StkSound) (e : execHostWdogExpired s = .next t) : t.StkSound := by
  unfold execHostWdogExpired at e
  cases e
  (repeat' split) <;> simp (maxDischargeDepth := 9) [h]
theorem execStkClear_stk (n : Fin 16) (v : Word) (setNow : Word) (s : State) {t : State} (h : s.StkSound) (e : execStkClear n v setNow s = .next t) : t.StkSound := by
  unfold execStkClear at e
  cases e
  simp (maxDischargeDepth := 9) [h]
theorem execBerylHeartbeat_stk (s : State) {t : State} (h : s.StkSound) (e : execBerylHeartbeat s = .next t) : t.StkSound := by
  unfold execBerylHeartbeat at e
  cases e
  (repeat' split) <;> simp (maxDischargeDepth := 9) [h]
@[simp] theorem dropJobs_stk (s : State) (h : s.StkSound) : (dropJobs s).StkSound := by
  simp (maxDischargeDepth := 9) [dropJobs, h]
@[simp] theorem berylRestart_stk (s : State) (h : s.StkSound) : (berylRestart s).StkSound := by
  simp (maxDischargeDepth := 9) [berylRestart, h]
theorem execBerylRestart_stk (s : State) {t : State} (h : s.StkSound) (e : execBerylRestart s = .next t) : t.StkSound := by
  injection (e : Host.Outcome.next (berylRestart s) = _) with e
  rw [← e]
  exact berylRestart_stk _ h

@[simp] theorem failRung_stk (s : State) (h : s.StkSound) : (failRung s).StkSound := by
  unfold failRung; refine foldl_stk _ _ _ (by simp (maxDischargeDepth := 9) [h]) ?_; intro s x h; first | (simp (maxDischargeDepth := 9) [h]; done) | ((repeat' split) <;> simp (maxDischargeDepth := 9) [h]; done) | (dsimp only; (repeat' split) <;> simp (maxDischargeDepth := 9) [h]; done)
@[simp] theorem failOutstanding_stk (s : State) (h : s.StkSound) : (failOutstanding s).StkSound := by
  unfold failOutstanding; refine foldl_stk _ _ _ (by simp (maxDischargeDepth := 9) [h]) ?_; intro s x h; first | (simp (maxDischargeDepth := 9) [h]; done) | ((repeat' split) <;> simp (maxDischargeDepth := 9) [h]; done) | (dsimp only; (repeat' split) <;> simp (maxDischargeDepth := 9) [h]; done)
@[simp] theorem berylRestarted_stk (s : State) (h : s.StkSound) : (berylRestarted s).StkSound := by
  simp (maxDischargeDepth := 9) [berylRestarted, h]
theorem execSysEcho_stk (slot : Fin 16) (s : State) {t : State} (h : s.StkSound) (e : execSysEcho slot s = .next t) : t.StkSound := by
  unfold execSysEcho at e
  cases e
  refine command_stk _ _ _ _ _ _ h ?_; intro tag ws s h; first | (simp (maxDischargeDepth := 9) [h]; done) | ((repeat' split) <;> simp (maxDischargeDepth := 9) [h]; done) | (dsimp only; (repeat' split) <;> simp (maxDischargeDepth := 9) [h]; done)
theorem execSysGetInfo_stk (slot : Fin 16) (s : State) {t : State} (h : s.StkSound) (e : execSysGetInfo slot s = .next t) : t.StkSound := by
  unfold execSysGetInfo at e
  cases e
  refine command_stk _ _ _ _ _ _ h ?_; intro tag ws s h; first | (simp (maxDischargeDepth := 9) [h]; done) | ((repeat' split) <;> simp (maxDischargeDepth := 9) [h]; done) | (dsimp only; (repeat' split) <;> simp (maxDischargeDepth := 9) [h]; done)
@[simp] theorem setOpEffect_stk (slot : Fin 16) (_tag : Word) (ws : List Word) (s : State) (h : s.StkSound) : (setOpEffect slot _tag ws s).1.StkSound := by
  unfold setOpEffect; (repeat' split) <;> simp (maxDischargeDepth := 9) [h]
theorem execSysSetOpState_stk (slot : Fin 16) (s : State) {t : State} (h : s.StkSound) (e : execSysSetOpState slot s = .next t) : t.StkSound := by
  unfold execSysSetOpState at e
  cases e
  refine command_stk _ _ _ _ _ _ h ?_; intro tag ws s h; first | (simp (maxDischargeDepth := 9) [h]; done) | ((repeat' split) <;> simp (maxDischargeDepth := 9) [h]; done) | (dsimp only; (repeat' split) <;> simp (maxDischargeDepth := 9) [h]; done)
@[simp] theorem askReset_stk (kind : Bool) (alt : Bool) (s : State) (h : s.StkSound) : (askReset kind alt s).StkSound := by
  unfold askReset; (repeat' split) <;> simp (maxDischargeDepth := 9) [h]
theorem execSysResetUnit_stk (slot : Fin 16) (s : State) {t : State} (h : s.StkSound) (e : execSysResetUnit slot s = .next t) : t.StkSound := by
  unfold execSysResetUnit at e
  cases e
  refine command_stk _ _ _ _ _ _ h ?_; intro tag ws s h; first | (simp (maxDischargeDepth := 9) [h]; done) | ((repeat' split) <;> simp (maxDischargeDepth := 9) [h]; done) | (dsimp only; (repeat' split) <;> simp (maxDischargeDepth := 9) [h]; done)
theorem execSysFwStage_stk (slot : Fin 16) (s : State) {t : State} (h : s.StkSound) (e : execSysFwStage slot s = .next t) : t.StkSound := by
  unfold execSysFwStage at e
  cases e
  refine command_stk _ _ _ _ _ _ h ?_; intro tag ws s h; first | (simp (maxDischargeDepth := 9) [h]; done) | ((repeat' split) <;> simp (maxDischargeDepth := 9) [h]; done) | (dsimp only; (repeat' split) <;> simp (maxDischargeDepth := 9) [h]; done)
theorem execSysFwStageDone_stk (image : List Byte) (writeOk : Bool) (s : State) {t : State} (h : s.StkSound) (e : execSysFwStageDone image writeOk s = .next t) : t.StkSound := by
  unfold execSysFwStageDone at e
  cases e
  (repeat' split) <;> simp (maxDischargeDepth := 9) [h]
@[simp] theorem mainPermissions_stk (s : State) (h : s.StkSound) : (mainPermissions s).StkSound := by
  simp (maxDischargeDepth := 9) [mainPermissions, h]
@[simp] theorem noteGrant_stk (s : State) (h : s.StkSound) : (noteGrant s).StkSound := by
  simp (maxDischargeDepth := 9) [noteGrant, h]
@[simp] theorem serviceCheck_stk (s : State) (h : s.StkSound) : (serviceCheck s).StkSound := by
  unfold serviceCheck; (repeat' split) <;> simp (maxDischargeDepth := 9) [h]
@[simp] theorem axisKnown_stk (a : Nat) (s : State) (h : s.StkSound) : (axisKnown a s).StkSound := by
  unfold axisKnown; dsimp only; (repeat' split) <;> simp (maxDischargeDepth := 9) [h]
@[simp] theorem tickWeb_stk (e0 : Int) (e1 : Int) (present : Bool) (s : State) (h : s.StkSound) : (tickWeb e0 e1 present s).StkSound := by
  simp (maxDischargeDepth := 9) [tickWeb, h]
@[simp] theorem tickLamp_stk (s : State) (h : s.StkSound) : (tickLamp s).StkSound := by
  unfold tickLamp; dsimp only; (repeat' split) <;> simp (maxDischargeDepth := 9) [h]
@[simp] theorem tickCap_stk (capSw : Bool) (s : State) (h : s.StkSound) : (tickCap capSw s).StkSound := by
  simp (maxDischargeDepth := 9) [tickCap, h]
@[simp] theorem tickActive_stk (present : BitVec 17) (hpwrFb : Bool) (s : State) (h : s.StkSound) : (tickActive present hpwrFb s).StkSound := by
  simp (maxDischargeDepth := 9) [tickActive, h]
theorem execOnyxTick_stk (edges0 : Int) (edges1 : Int) (encPresent : Bool) (capSw : Bool) (hpwrFb : Bool) (present : BitVec 17) (failedItem : Option Nat)
    (s : State) {t : State} (h : s.StkSound) (e : execOnyxTick edges0 edges1 encPresent capSw hpwrFb present failedItem s = .next t) : t.StkSound := by
  unfold execOnyxTick at e
  split at e
  · injection e with e; rw [← e]; exact h
  extract_lets o1 s0 s1 s2 s3 s4 s5 o2 at e
  have h1 : s1.StkSound := tickLamp_stk _ (tickCap_stk _ _ (tickWeb_stk _ _ _ _ (show s0.StkSound from h)))
  have h3 : s3.StkSound := setPermission_stk _ _ _ _ (setPermission_stk _ _ _ _ h1)
  have h5 : s5.StkSound := serviceCheck_stk _ (noteGrant_stk _ (tickActive_stk _ _ _ (mainPermissions_stk _ h3)))
  clear_value o2 s5
  injection e with e
  rw [← e]
  cases failedItem with
  | none => exact h5
  | some i => exact latchTrip_stk _ _ _ h5

theorem execOnyxEnvelopeLoss_stk (enc : Fin 2) (s : State) {t : State} (h : s.StkSound) (e : execOnyxEnvelopeLoss enc s = .next t) : t.StkSound := by
  unfold execOnyxEnvelopeLoss at e
  cases e
  simp (maxDischargeDepth := 9) [h]
theorem execOnyxGateClose_stk (s : State) {t : State} (h : s.StkSound) (e : execOnyxGateClose s = .next t) : t.StkSound := by
  unfold execOnyxGateClose at e
  cases e
  (repeat' split) <;> simp (maxDischargeDepth := 9) [h]
@[simp] theorem onyxSum_stk (mod : Nat) (fire : Nat) (eG : Option Word) (eFW : Option (Word × Word)) (s : State) (h : s.StkSound) : (onyxSum mod fire eG eFW s).StkSound := by
  unfold onyxSum; dsimp only; (repeat' split) <;> simp (maxDischargeDepth := 9) [h]
theorem execOnyxEnergySum_stk (mod : Fin 16) (fire : Nat) (eG : Option Word) (eFW : Option (Word × Word)) (s : State) {t : State} (h : s.StkSound) (e : execOnyxEnergySum mod fire eG eFW s = .next t) : t.StkSound := by
  unfold execOnyxEnergySum at e
  cases e
  simp (maxDischargeDepth := 9) [h]
@[simp] theorem sumsMissing_stk (boundary : Nat) (s : State) (h : s.StkSound) : (sumsMissing boundary s).StkSound := by
  unfold sumsMissing
  refine ite_stk h (foldl_stk _ _ _ h fun s m hs => ite_stk (latchTrip_stk _ _ _ hs) hs)
@[simp] theorem presentMarker_stk (m : Nat) (fire : Nat) (s : State) (h : s.StkSound) : (presentMarker m fire s).2.StkSound := by
  unfold presentMarker; dsimp only; (repeat' split) <;> simp (maxDischargeDepth := 9) [h]
theorem execOnyxLampOff_stk (s : State) {t : State} (h : s.StkSound) (e : execOnyxLampOff s = .next t) : t.StkSound := by
  unfold execOnyxLampOff at e
  cases e
  (repeat' split) <;> simp (maxDischargeDepth := 9) [h]
@[simp] theorem onyxAbsRead_stk (a : Nat) (good : Option Word) (s : State) (h : s.StkSound) : (onyxAbsRead a good s).StkSound := by
  unfold onyxAbsRead; dsimp only; (repeat' split) <;> simp (maxDischargeDepth := 9) [h]
theorem execOnyxAxisRestore_stk (axis : Fin 2) (s : State) {t : State} (h : s.StkSound) (e : execOnyxAxisRestore axis s = .next t) : t.StkSound := by
  unfold execOnyxAxisRestore at e
  cases e
  (repeat' split) <;> simp (maxDischargeDepth := 9) [h]
@[simp] theorem onyxRestart_stk (s : State) (h : s.StkSound) : (onyxRestart s).StkSound := by
  simp (maxDischargeDepth := 9) [onyxRestart, h]
@[simp] theorem wdogTrip_stk (param : Nat) (s : State) (h : s.StkSound) : (wdogTrip param s).StkSound := by
  unfold wdogTrip; dsimp only; (repeat' split) <;> simp (maxDischargeDepth := 9) [h]
theorem execOnyxWdogKick_stk (value : Byte) (interval : Nat) (s : State) {t : State} (h : s.StkSound) (e : execOnyxWdogKick value interval s = .next t) : t.StkSound := by
  unfold execOnyxWdogKick at e
  cases e
  (repeat' split) <;> simp (maxDischargeDepth := 9) [h]
theorem execOnyxWdogTimeout_stk (s : State) {t : State} (h : s.StkSound) (e : execOnyxWdogTimeout s = .next t) : t.StkSound := by
  unfold execOnyxWdogTimeout at e
  cases e
  (repeat' split) <;> simp (maxDischargeDepth := 9) [h]
@[simp] theorem activeNow_stk (cause : Nat) (s : State) (h : s.StkSound) : (activeNow cause s).StkSound := by
  simp (maxDischargeDepth := 9) [activeNow, h]
theorem execOnyxClockCheck_stk (count : Nat) (s : State) {t : State} (h : s.StkSound) (e : execOnyxClockCheck count s = .next t) : t.StkSound := by
  unfold execOnyxClockCheck at e
  cases e
  (repeat' split) <;> simp (maxDischargeDepth := 9) [h]
theorem execAonClockCheck_stk (count : Nat) (s : State) {t : State} (h : s.StkSound) (e : execAonClockCheck count s = .next t) : t.StkSound := by
  unfold execAonClockCheck at e
  cases e
  (repeat' split) <;> simp (maxDischargeDepth := 9) [h]
theorem execSupplyFault_stk (rail : Fin 7) (s : State) {t : State} (h : s.StkSound) (e : execSupplyFault rail s = .next t) : t.StkSound := by
  unfold execSupplyFault at e
  cases e
  simp (maxDischargeDepth := 9) [h]
theorem execDieTempTrip_stk (tj : Int) (s : State) {t : State} (h : s.StkSound) (e : execDieTempTrip tj s = .next t) : t.StkSound := by
  unfold execDieTempTrip at e
  cases e
  (repeat' split) <;> simp (maxDischargeDepth := 9) [h]
theorem execHpwrStuck_stk (s : State) {t : State} (h : s.StkSound) (e : execHpwrStuck s = .next t) : t.StkSound := by
  unfold execHpwrStuck at e
  cases e
  (repeat' split) <;> simp (maxDischargeDepth := 9) [h]
theorem execLockstepMismatch_stk (s : State) {t : State} (h : s.StkSound) (e : execLockstepMismatch s = .next t) : t.StkSound := by
  unfold execLockstepMismatch at e
  cases e
  simp (maxDischargeDepth := 9) [h]
theorem execSafeConfig_stk (slot : Fin 16) (s : State) {t : State} (h : s.StkSound) (e : execSafeConfig slot s = .next t) : t.StkSound := by
  unfold execSafeConfig at e
  cases e
  refine command_stk _ _ _ _ _ _ h ?_; intro tag ws s h; first | (simp (maxDischargeDepth := 9) [h]; done) | ((repeat' split) <;> simp (maxDischargeDepth := 9) [h]; done) | (dsimp only; (repeat' split) <;> simp (maxDischargeDepth := 9) [h]; done)
theorem execSafeTrip_stk (slot : Fin 16) (s : State) {t : State} (h : s.StkSound) (e : execSafeTrip slot s = .next t) : t.StkSound := by
  unfold execSafeTrip at e
  cases e
  refine command_stk _ _ _ _ _ _ h ?_; intro tag ws s h; first | (simp (maxDischargeDepth := 9) [h]; done) | ((repeat' split) <;> simp (maxDischargeDepth := 9) [h]; done) | (dsimp only; (repeat' split) <;> simp (maxDischargeDepth := 9) [h]; done)
@[simp] theorem prfWrite_stk (w : Nat) (v : Word) (s : State) (h : s.StkSound) : (prfWrite w v s).StkSound := by
  unfold prfWrite; (repeat' split) <;> simp (maxDischargeDepth := 9) [h]
theorem execPrfWrite_stk (word : Fin 1024) (v : Word) (s : State) {t : State} (h : s.StkSound) (e : execPrfWrite word v s = .next t) : t.StkSound := by
  unfold execPrfWrite at e
  cases e
  simp (maxDischargeDepth := 9) [h]
theorem execMramRefresh_stk (corrected : Bool) (uncorrectable : Option Nat) (s : State) {t : State} (h : s.StkSound)
    (e : execMramRefresh corrected uncorrectable s = .next t) : t.StkSound := by
  unfold execMramRefresh at e
  split at e
  · injection e with e; rw [← e]; exact h
  extract_lets p1 s1 s2 at e
  have h0 : State.StkSound { s with pers := p1 } := h
  have h1 : s1.StkSound := foldl_stk _ _ _ h0 fun s p hs => countWear_stk _ _ _ hs
  clear_value s1
  have h2 : s2.StkSound := ite_stk (stickRec_stk _ _ _ h1) h1
  clear_value s2
  injection e with e
  rw [← e]
  cases uncorrectable with
  | none => exact h2
  | some a => exact stickEvent_stk _ _ _ h2

theorem execOpMinute_stk (s : State) {t : State} (h : s.StkSound) (e : execOpMinute s = .next t) : t.StkSound := by
  unfold execOpMinute at e
  cases e
  exact ite_stk h h
theorem execAlmanacBudgetTick_stk (s : State) {t : State} (h : s.StkSound) (e : execAlmanacBudgetTick s = .next t) : t.StkSound := by
  unfold execAlmanacBudgetTick at e
  cases e
  exact ite_stk h h
@[simp] theorem almWriteRecord_stk (s : State) (h : s.StkSound) : (almWriteRecord s).StkSound := by
  unfold almWriteRecord; dsimp only; (repeat' split) <;> simp (maxDischargeDepth := 9) [h]
theorem execAlmanacRecordWrite_stk (s : State) {t : State} (h : s.StkSound) (e : execAlmanacRecordWrite s = .next t) : t.StkSound := by
  unfold execAlmanacRecordWrite at e
  cases e
  simp (maxDischargeDepth := 9) [h]
theorem execAlmWrite_stk (slot : Fin 16) (s : State) {t : State} (h : s.StkSound) (e : execAlmWrite slot s = .next t) : t.StkSound := by
  unfold execAlmWrite at e
  cases e
  refine command_stk _ _ _ _ _ _ h ?_; intro tag ws s h; first | (simp (maxDischargeDepth := 9) [h]; done) | ((repeat' split) <;> simp (maxDischargeDepth := 9) [h]; done) | (dsimp only; (repeat' split) <;> simp (maxDischargeDepth := 9) [h]; done)
theorem execAlmWriteTimeout_stk (slot : Fin 16) (s : State) {t : State} (h : s.StkSound) (e : execAlmWriteTimeout slot s = .next t) : t.StkSound := by
  unfold execAlmWriteTimeout at e
  cases e
  (repeat' split) <;> simp (maxDischargeDepth := 9) [h]
theorem execAlmRead_stk (slot : Fin 16) (s : State) {t : State} (h : s.StkSound) (e : execAlmRead slot s = .next t) : t.StkSound := by
  unfold execAlmRead at e
  cases e
  refine command_stk _ _ _ _ _ _ h ?_; intro tag ws s h; first | (simp (maxDischargeDepth := 9) [h]; done) | ((repeat' split) <;> simp (maxDischargeDepth := 9) [h]; done) | (dsimp only; (repeat' split) <;> simp (maxDischargeDepth := 9) [h]; done)
@[simp] theorem startSetWrite_stk (tags : List Word) (s : State) (h : s.StkSound) : (startSetWrite tags s).StkSound := by
  simp (maxDischargeDepth := 9) [startSetWrite, h]
@[simp] theorem requestSetWrite_stk (tags : List Word) (s : State) (h : s.StkSound) : (requestSetWrite tags s).StkSound := by
  unfold requestSetWrite; (repeat' split) <;> simp (maxDischargeDepth := 9) [h]
theorem execPersSetWrite_stk (slot : Fin 16) (s : State) {t : State} (h : s.StkSound) (e : execPersSetWrite slot s = .next t) : t.StkSound := by
  unfold execPersSetWrite at e
  cases e
  refine command_stk _ _ _ _ _ _ h ?_; intro tag ws s h; first | (simp (maxDischargeDepth := 9) [h]; done) | ((repeat' split) <;> simp (maxDischargeDepth := 9) [h]; done) | (dsimp only; (repeat' split) <;> simp (maxDischargeDepth := 9) [h]; done)
theorem execSetWriteStart_stk (s : State) {t : State} (h : s.StkSound) (e : execSetWriteStart s = .next t) : t.StkSound := by
  unfold execSetWriteStart at e
  cases e
  (repeat' split) <;> simp (maxDischargeDepth := 9) [h]
@[simp] theorem completeSet_stk (tags : List Word) (status : Nat) (p0 : Word) (p1 : Word) (s : State) (h : s.StkSound) : (completeSet tags status p0 p1 s).StkSound := by
  unfold completeSet; refine foldl_stk _ _ _ (by simp (maxDischargeDepth := 9) [h]) ?_; intro s x h; first | (simp (maxDischargeDepth := 9) [h]; done) | ((repeat' split) <;> simp (maxDischargeDepth := 9) [h]; done) | (dsimp only; (repeat' split) <;> simp (maxDischargeDepth := 9) [h]; done)
theorem execSetWriteDone_stk (copied committed : Bool) (s : State) {t : State} (h : s.StkSound) (e : execSetWriteDone copied committed s = .next t) : t.StkSound := by
  unfold execSetWriteDone at e
  cases e
  (repeat' split) <;> simp (maxDischargeDepth := 9) [h]
theorem execPersGetStatus_stk (slot : Fin 16) (s : State) {t : State} (h : s.StkSound) (e : execPersGetStatus slot s = .next t) : t.StkSound := by
  unfold execPersGetStatus at e
  cases e
  refine command_stk _ _ _ _ _ _ h ?_; intro tag ws s h; first | (simp (maxDischargeDepth := 9) [h]; done) | ((repeat' split) <;> simp (maxDischargeDepth := 9) [h]; done) | (dsimp only; (repeat' split) <;> simp (maxDischargeDepth := 9) [h]; done)
theorem execPersSetInvalidate_stk (slot : Fin 16) (s : State) {t : State} (h : s.StkSound) (e : execPersSetInvalidate slot s = .next t) : t.StkSound := by
  unfold execPersSetInvalidate at e
  cases e
  refine command_stk _ _ _ _ _ _ h ?_; intro tag ws s h; first | (simp (maxDischargeDepth := 9) [h]; done) | ((repeat' split) <;> simp (maxDischargeDepth := 9) [h]; done) | (dsimp only; (repeat' split) <;> simp (maxDischargeDepth := 9) [h]; done)
@[simp] theorem setRing_stk (r : Nat) (f : Ring → Ring) (s : State) (h : s.StkSound) : (setRing r f s).StkSound := by
  simp (maxDischargeDepth := 9) [setRing, h]
@[simp] theorem mapPages_stk (p : Page → Bool) (f : Page → Page) (s : State) (h : s.StkSound) : (mapPages p f s).StkSound := by
  simp (maxDischargeDepth := 9) [mapPages, h]
@[simp] theorem setPage_stk (uid : Nat) (f : Page → Page) (s : State) (h : s.StkSound) : (setPage uid f s).StkSound := by
  simp (maxDischargeDepth := 9) [setPage, h]
@[simp] theorem spoil_stk (uids : List Nat) (s : State) (h : s.StkSound) : (spoil uids s).StkSound := by
  simp (maxDischargeDepth := 9) [spoil, h]
@[simp] theorem unfire_stk (uids : List Nat) (s : State) (h : s.StkSound) : (unfire uids s).StkSound := by
  simp (maxDischargeDepth := 9) [unfire, h]
@[simp] theorem fetchNext_stk (r : Nat) (s : State) (h : s.StkSound) : (fetchNext r s).StkSound := by
  unfold fetchNext; (repeat' split) <;> simp (maxDischargeDepth := 9) [h]
@[simp] theorem fetchAll_stk (s : State) (h : s.StkSound) : (fetchAll s).StkSound := by
  unfold fetchAll; refine foldl_stk _ _ _ (by simp (maxDischargeDepth := 9) [h]) ?_; intro s x h; first | (simp (maxDischargeDepth := 9) [h]; done) | ((repeat' split) <;> simp (maxDischargeDepth := 9) [h]; done) | (dsimp only; (repeat' split) <;> simp (maxDischargeDepth := 9) [h]; done)
@[simp] theorem ringProd_stk (r : Nat) (v : Word) (s : State) (h : s.StkSound) : (ringProd r v s).StkSound := by
  simp (maxDischargeDepth := 9) [ringProd, h]
theorem execRingProd_stk (ring : Fin 4) (v : Word) (s : State) {t : State} (h : s.StkSound) (e : execRingProd ring v s = .next t) : t.StkSound := by
  unfold execRingProd at e
  cases e
  simp (maxDischargeDepth := 9) [h]
theorem execFetchResume_stk (s : State) {t : State} (h : s.StkSound) (e : execFetchResume s = .next t) : t.StkSound := by
  unfold execFetchResume at e
  cases e
  simp (maxDischargeDepth := 9) [h]
@[simp] theorem dropFetch_stk (r : Nat) (s : State) (h : s.StkSound) : (dropFetch r s).StkSound := by
  simp (maxDischargeDepth := 9) [dropFetch, h]
@[simp] theorem haltRing_stk (r : Nat) (code : Nat) (idx : Word) (ev : Ev) (s : State) (h : s.StkSound) : (haltRing r code idx ev s).StkSound := by
  simp (maxDischargeDepth := 9) [haltRing, h]
@[simp] theorem advanceStored_stk (r : Nat) (x1 : Nat) (x2 : State) (h : x2.StkSound) : (advanceStored r x1 x2).StkSound := by
  induction x1 generalizing x2 with
  | zero => exact h
  | succ n ih =>
    unfold advanceStored
    dsimp only
    split
    · split
      · exact ih _ (setRing_stk _ _ _ h)
      · exact h
    · exact h
@[simp] theorem takePage_stk (r : Nat) (idx : Word) (desc : List Word) (blocks : List Blk) (s : State) (h : s.StkSound) : (takePage r idx desc blocks s).StkSound := by
  unfold takePage
  dsimp only
  refine ite_stk (stickRec_stk _ _ _ (setRing_stk _ _ _ h)) (ite_stk (setRing_stk _ _ _ h) (fetchNext_stk _ _ (advanceStored_stk _ _ _ ?_)))
  exact foldl_stk _ _ _ (setRing_stk _ _ _ h) fun s b hs => readHost_stk _ _ _ hs
@[simp] theorem descArrived_stk (r : Nat) (descBytes : List Byte) (table : List Byte) (s : State) (h : s.StkSound) : (descArrived r descBytes table s).StkSound := by
  unfold descArrived; dsimp only; (repeat' split) <;> simp (maxDischargeDepth := 9) [h]
theorem execDescFetchDone_stk (ring : Fin 4) (desc : List Byte) (table : List Byte) (s : State) {t : State} (h : s.StkSound) (e : execDescFetchDone ring desc table s = .next t) : t.StkSound := by
  unfold execDescFetchDone at e
  cases e
  simp (maxDischargeDepth := 9) [h]
@[simp] theorem setBlk_stk (uid : Nat) (j : Nat) (f : Blk → Blk) (s : State) (h : s.StkSound) : (setBlk uid j f s).StkSound := by
  simp (maxDischargeDepth := 9) [setBlk, h]
@[simp] theorem ingestFail_stk (p : Page) (j : Nat) (b : Blk) (s : State) (h : s.StkSound) : (ingestFail p j b s).StkSound := by
  unfold ingestFail; (repeat' split) <;> simp (maxDischargeDepth := 9) [h]
theorem execBlockFetchDone_stk (ring : Fin 4) (index : Word) (entry : Nat) (bytes : List Byte) (s : State) {t : State} (h : s.StkSound) (e : execBlockFetchDone ring index entry bytes s = .next t) : t.StkSound := by
  unfold execBlockFetchDone at e
  cases e
  (repeat' split) <;> simp (maxDischargeDepth := 9) [h]
@[simp] theorem writeRecord_stk (p : Page) (s : State) (h : s.StkSound) : (writeRecord p s).StkSound := by
  unfold writeRecord; dsimp only; (repeat' split) <;> simp (maxDischargeDepth := 9) [h]
@[simp] theorem writeRecords_stk (x0 : Nat) (x1 : State) (h : x1.StkSound) : (writeRecords x0 x1).StkSound := by
  induction x0 generalizing x1 with
  | zero => exact h
  | succ n ih =>
    unfold writeRecords
    split
    · exact h
    · split
      · exact h
      · exact ih _ (writeRecord_stk _ _ h)
@[simp] theorem answerResets_stk (s : State) (h : s.StkSound) : (answerResets s).StkSound := by
  unfold answerResets; refine foldl_stk _ _ _ (by simp (maxDischargeDepth := 9) [h]) ?_; intro s x h; first | (simp (maxDischargeDepth := 9) [h]; done) | ((repeat' split) <;> simp (maxDischargeDepth := 9) [h]; done) | (dsimp only; (repeat' split) <;> simp (maxDischargeDepth := 9) [h]; done)
@[simp] theorem recordsDue_stk (s : State) (h : s.StkSound) : (recordsDue s).StkSound := by
  simp (maxDischargeDepth := 9) [recordsDue, h]
@[simp] theorem resumeBlocks_stk (s : State) (h : s.StkSound) : (resumeBlocks s).StkSound := by
  exact foldl_stk _ _ _ h fun s b hs => readHost_stk _ _ _ hs
theorem execBusMasterEnable_stk (s : State) {t : State} (h : s.StkSound) (e : execBusMasterEnable s = .next t) : t.StkSound := by
  unfold execBusMasterEnable at e
  cases e
  (repeat' split) <;> simp (maxDischargeDepth := 9) [h]
@[simp] theorem discardPages_stk (which : Page → Bool) (s : State) (h : s.StkSound) : (discardPages which s).StkSound := by
  simp (maxDischargeDepth := 9) [discardPages, h]
@[simp] theorem startPage_stk (p : Page) (nominal : Nat) (first : Nat) (s : State) (h : s.StkSound) : (startPage p nominal first s).StkSound := by
  unfold startPage
  dsimp only
  exact ite_stk (vigilSend_stk _ _ (withPg_stk (setPage_stk _ _ _ h) _)) (withPg_stk (setPage_stk _ _ _ h) _)
@[simp] theorem underrun_stk (r : Nat) (nominal : Nat) (s : State) (h : s.StkSound) : (underrun r nominal s).StkSound := by
  unfold underrun; (repeat' split) <;> simp (maxDischargeDepth := 9) [h]
@[simp] theorem decide1_stk (B : Nat) (s : State) (h : s.StkSound) : (decide1 B s).StkSound := by
  unfold decide1; dsimp only; (repeat' split) <;> simp (maxDischargeDepth := 9) [h]
@[simp] theorem decisions_stk (B : Nat) (x1 : Nat) (x2 : State) (h : x2.StkSound) : (decisions B x1 x2).StkSound := by
  induction x1 generalizing x2 with
  | zero => exact h
  | succ n ih =>
    unfold decisions
    dsimp only
    split
    · exact decide1_stk _ _ h
    · exact ih _ (decide1_stk _ _ h)
@[simp] theorem pageDecisions_stk (B : Nat) (s : State) (h : s.StkSound) : (pageDecisions B s).StkSound := by
  simp (maxDischargeDepth := 9) [pageDecisions, h]
@[simp] theorem movePages_stk (p : Page) (delta : Int) (s : State) (h : s.StkSound) : (movePages p delta s).StkSound := by
  unfold movePages; exact setPage_stk _ _ _ (withPg_stk (mapPages_stk _ _ _ h) _)
theorem followStart_stk (B : Nat) (m : Word × Word × Word) (s : State) (h : s.StkSound) {late : Bool} {t : State}
    (e : followStart B m s = some (late, t)) : t.StkSound := by
  unfold followStart at e
  dsimp only at e
  repeat' split at e
  all_goals first
    | (cases e; simp (maxDischargeDepth := 9) [h]; done)
    | simp at e
@[simp] theorem peerPageStart_stk (B : Nat) (s : State) (h : s.StkSound) : (peerPageStart B s).2.StkSound := by
  unfold peerPageStart
  split
  · exact h
  · refine List.foldlRecOn (motive := fun x : Bool × State => x.2.StkSound) _ _ h ?_
    intro x hx m _
    obtain ⟨lost, t⟩ := x
    dsimp only
    cases e : followStart B m t with
    | none => exact hx
    | some v => exact withPg_stk (followStart_stk _ _ _ hx (late := v.1) (t := v.2) e) _
@[simp] theorem blankBlock_stk (p : Page) (j : Nat) (b : Blk) (s : State) (h : s.StkSound) : (blankBlock p j b s).StkSound := by
  simp (maxDischargeDepth := 9) [blankBlock, h]
@[simp] theorem countBlank_stk (p : Page) (j : Nat) (s : State) (h : s.StkSound) : (countBlank p j s).StkSound := by
  simp (maxDischargeDepth := 9) [countBlank, h]
@[simp] theorem blockStep_stk (B : Nat) (p : Page) (s : State) (jb : Blk × Nat) (h : s.StkSound) : (blockStep B p s jb).StkSound := by
  unfold blockStep; dsimp only; (repeat' split) <;> simp (maxDischargeDepth := 9) [h]
@[simp] theorem topazStep_stk (B : Nat) (s : State) (h : s.StkSound) : (topazStep B s).StkSound := by
  exact foldl_stk _ _ _ h fun s p hs => foldl_stk _ _ _ hs fun s x hs => blockStep_stk _ _ _ _ hs
theorem execTopazBlockDecoded_stk (page : Nat) (entry : Nat) (poisoned : Bool) (s : State) {t : State} (h : s.StkSound) (e : execTopazBlockDecoded page entry poisoned s = .next t) : t.StkSound := by
  unfold execTopazBlockDecoded at e
  cases e
  (repeat' split) <;> simp (maxDischargeDepth := 9) [h]
theorem execTopazRefetchDone_stk (page : Nat) (entry : Nat) (bytes : List Byte) (s : State) {t : State} (h : s.StkSound) (e : execTopazRefetchDone page entry bytes s = .next t) : t.StkSound := by
  unfold execTopazRefetchDone at e
  cases e
  (repeat' split) <;> simp (maxDischargeDepth := 9) [h]
theorem execDmaError_stk (ring : Fin 4) (index : Word) (entry : Option Nat) (page : Option Nat) (s : State) {t : State} (h : s.StkSound) (e : execDmaError ring index entry page s = .next t) : t.StkSound := by
  unfold execDmaError at e
  cases e
  (repeat' split) <;> simp (maxDischargeDepth := 9) [h]
@[simp] theorem pagesFired_stk (B : Nat) (maxD : Nat) (s : State) (h : s.StkSound) : (pagesFired B maxD s).StkSound := by
  simp (maxDischargeDepth := 9) [pagesFired, h]
@[simp] theorem beginEpochPages_stk (ring : Nat) (lc : Nat) (epoch : Word) (first : Word) (lpi600 : Bool) (modules : Nat) (s : State) (h : s.StkSound) : (beginEpochPages ring lc epoch first lpi600 modules s).StkSound := by
  simp (maxDischargeDepth := 9) [beginEpochPages, h]
@[simp] theorem commitEpochPages_stk (ring : Nat) (lc : Nat) (epoch : Word) (s : State) (h : s.StkSound) : (commitEpochPages ring lc epoch s).StkSound := by
  unfold commitEpochPages
  dsimp only
  have h2 : ∀ (l : List Nat) (t : State), t.StkSound → (l.foldl (fun s r => dropFetch r s) t).StkSound :=
    fun l t ht => foldl_stk _ _ _ ht fun s r hs => dropFetch_stk _ _ hs
  have h3 := fun (q : Pages) (l : List Nat) => discardPages_stk (fun p => l.contains p.ring) _ (mapPages_stk (fun p => p.retained && p.epoch != epoch)
    Page.withoutSpace _ (h2 l { s with pg := q } h))
  exact fetchAll_stk _ (ite_stk (stickRec_stk _ _ _ (h3 _ _)) (h3 _ _))
theorem execPdRingConfig_stk (slot : Fin 16) (s : State) {t : State} (h : s.StkSound) (e : execPdRingConfig slot s = .next t) : t.StkSound := by
  unfold execPdRingConfig at e
  cases e
  refine command_stk _ _ _ _ _ _ h ?_; intro tag ws s h; first | (simp (maxDischargeDepth := 9) [h]; done) | ((repeat' split) <;> simp (maxDischargeDepth := 9) [h]; done) | (dsimp only; (repeat' split) <;> simp (maxDischargeDepth := 9) [h]; done)
theorem execPdRingReset_stk (slot : Fin 16) (s : State) {t : State} (h : s.StkSound) (e : execPdRingReset slot s = .next t) : t.StkSound := by
  unfold execPdRingReset at e
  cases e
  refine command_stk _ _ _ _ _ _ h ?_; intro tag ws s h; first | (simp (maxDischargeDepth := 9) [h]; done) | ((repeat' split) <;> simp (maxDischargeDepth := 9) [h]; done) | (dsimp only; (repeat' split) <;> simp (maxDischargeDepth := 9) [h]; done)
theorem execPdPageRelease_stk (slot : Fin 16) (s : State) {t : State} (h : s.StkSound) (e : execPdPageRelease slot s = .next t) : t.StkSound := by
  unfold execPdPageRelease at e
  cases e
  refine command_stk _ _ _ _ _ _ h ?_; intro tag ws s h; first | (simp (maxDischargeDepth := 9) [h]; done) | ((repeat' split) <;> simp (maxDischargeDepth := 9) [h]; done) | (dsimp only; (repeat' split) <;> simp (maxDischargeDepth := 9) [h]; done)
theorem execPdReprint_stk (slot : Fin 16) (s : State) {t : State} (h : s.StkSound) (e : execPdReprint slot s = .next t) : t.StkSound := by
  unfold execPdReprint at e
  cases e
  refine command_stk _ _ _ _ _ _ h ?_; intro tag ws s h; first | (simp (maxDischargeDepth := 9) [h]; done) | ((repeat' split) <;> simp (maxDischargeDepth := 9) [h]; done) | (dsimp only; (repeat' split) <;> simp (maxDischargeDepth := 9) [h]; done)
theorem execPdStoreInfo_stk (slot : Fin 16) (s : State) {t : State} (h : s.StkSound) (e : execPdStoreInfo slot s = .next t) : t.StkSound := by
  unfold execPdStoreInfo at e
  cases e
  refine command_stk _ _ _ _ _ _ h ?_; intro tag ws s h; first | (simp (maxDischargeDepth := 9) [h]; done) | ((repeat' split) <;> simp (maxDischargeDepth := 9) [h]; done) | (dsimp only; (repeat' split) <;> simp (maxDischargeDepth := 9) [h]; done)
@[simp] theorem setCtx_stk (k : Nat) (f : CvCtx → CvCtx) (s : State) (h : s.StkSound) : (setCtx k f s).StkSound := by
  simp (maxDischargeDepth := 9) [setCtx, h]
@[simp] theorem cvWrite_stk (k : Nat) (data : Bool) (f : CvCtx → CvCtx) (s : State) (h : s.StkSound) : (cvWrite k data f s).StkSound := by
  unfold cvWrite; dsimp only; (repeat' split) <;> simp (maxDischargeDepth := 9) [h]
theorem execCvStart_stk (ctx : Fin 4) (s : State) {t : State} (h : s.StkSound) (e : execCvStart ctx s = .next t) : t.StkSound := by
  unfold execCvStart at e
  cases e
  simp (maxDischargeDepth := 9) [h]
theorem execCvData_stk (ctx : Fin 4) (v : Word) (s : State) {t : State} (h : s.StkSound) (e : execCvData ctx v s = .next t) : t.StkSound := by
  unfold execCvData at e
  cases e
  simp (maxDischargeDepth := 9) [h]
@[simp] theorem cvData64_stk (k : Nat) (upper : Word) (s : State) (h : s.StkSound) : (cvData64 k upper s).StkSound := by
  simp (maxDischargeDepth := 9) [cvData64, h]
theorem execCvData64_stk (ctx : Fin 4) (upper : Word) (s : State) {t : State} (h : s.StkSound) (e : execCvData64 ctx upper s = .next t) : t.StkSound := by
  unfold execCvData64 at e
  cases e
  simp (maxDischargeDepth := 9) [h]
theorem execCvData8_stk (ctx : Fin 4) (v : Byte) (s : State) {t : State} (h : s.StkSound) (e : execCvData8 ctx v s = .next t) : t.StkSound := by
  unfold execCvData8 at e
  cases e
  simp (maxDischargeDepth := 9) [h]
theorem execCvValueWrite_stk (ctx : Fin 4) (v : Dword) (s : State) {t : State} (h : s.StkSound) (e : execCvValueWrite ctx v s = .next t) : t.StkSound := by
  unfold execCvValueWrite at e
  cases e
  simp (maxDischargeDepth := 9) [h]
theorem execCvCompute_stk (slot : Fin 16) (s : State) {t : State} (h : s.StkSound) (e : execCvCompute slot s = .next t) : t.StkSound := by
  unfold execCvCompute at e
  cases e
  refine command_stk _ _ _ _ _ _ h ?_; intro tag ws s h; first | (simp (maxDischargeDepth := 9) [h]; done) | ((repeat' split) <;> simp (maxDischargeDepth := 9) [h]; done) | (dsimp only; (repeat' split) <;> simp (maxDischargeDepth := 9) [h]; done)
theorem execCvComputeDone_stk (ctx : Fin 4) (bytes : List Byte) (s : State) {t : State} (h : s.StkSound) (e : execCvComputeDone ctx bytes s = .next t) : t.StkSound := by
  unfold execCvComputeDone at e
  cases e
  (repeat' split) <;> simp (maxDischargeDepth := 9) [h]
@[simp] theorem setEnc_stk (k : Nat) (f : Enc → Enc) (s : State) (h : s.StkSound) : (setEnc k f s).StkSound := by
  simp (maxDischargeDepth := 9) [setEnc, h]
@[simp] theorem sample1_stk (s : State) (x : EncIn × EncIn) (h : s.StkSound) : (sample1 s x).StkSound := by
  unfold sample1; dsimp only; exact ite_stk h h
@[simp] theorem advance_stk (samples : Samples) (s : State) (h : s.StkSound) : (advance samples s).StkSound := by
  unfold advance; exact foldl_stk _ _ _ h fun s x hs => sample1_stk s x hs
@[simp] theorem mainUpdate_stk (s : State) (h : s.StkSound) : (mainUpdate s).StkSound := by
  simp (maxDischargeDepth := 9) [mainUpdate, h]
theorem execEncSignalFault_stk (enc : Fin 2) (s : State) {t : State} (h : s.StkSound) (e : execEncSignalFault enc s = .next t) : t.StkSound := by
  unfold execEncSignalFault at e
  cases e
  (repeat' split) <;> simp (maxDischargeDepth := 9) [h]
theorem execEncRecovered_stk (enc : Fin 2) (s : State) {t : State} (h : s.StkSound) (e : execEncRecovered enc s = .next t) : t.StkSound := by
  unfold execEncRecovered at e
  cases e
  (repeat' split) <;> simp (maxDischargeDepth := 9) [h]
theorem execOverfreq_stk (enc : Fin 2) (s : State) {t : State} (h : s.StkSound) (e : execOverfreq enc s = .next t) : t.StkSound := by
  unfold execOverfreq at e
  cases e
  (repeat' split) <;> simp (maxDischargeDepth := 9) [h]
theorem execOverfreqClear_stk (enc : Fin 2) (s : State) {t : State} (h : s.StkSound) (e : execOverfreqClear enc s = .next t) : t.StkSound := by
  unfold execOverfreqClear at e
  cases e
  simp (maxDischargeDepth := 9) [h]
theorem execQuadErr_stk (enc : Fin 2) (s : State) {t : State} (h : s.StkSound) (e : execQuadErr enc s = .next t) : t.StkSound := by
  unfold execQuadErr at e
  cases e
  (repeat' split) <;> simp (maxDischargeDepth := 9) [h]
theorem execDirection_stk (enc : Fin 2) (samples : Samples) (s : State) {t : State} (h : s.StkSound) (e : execDirection enc samples s = .next t) : t.StkSound := by
  unfold execDirection at e
  cases e
  dsimp only; (repeat' split) <;> simp (maxDischargeDepth := 9) [h]
theorem execEncIndex_stk (enc : Fin 2) (samples : Samples) (s : State) {t : State} (h : s.StkSound) (e : execEncIndex enc samples s = .next t) : t.StkSound := by
  unfold execEncIndex at e
  cases e
  dsimp only; (repeat' split) <;> simp (maxDischargeDepth := 9) [h]
theorem execIndexMissing_stk (enc : Fin 2) (samples : Samples) (s : State) {t : State} (h : s.StkSound) (e : execIndexMissing enc samples s = .next t) : t.StkSound := by
  unfold execIndexMissing at e
  cases e
  (repeat' split) <;> simp (maxDischargeDepth := 9) [h]
theorem execEncAgreeWindow_stk (samples : Samples) (s : State) {t : State} (h : s.StkSound) (e : execEncAgreeWindow samples s = .next t) : t.StkSound := by
  unfold execEncAgreeWindow at e
  cases e
  (repeat' split) <;> simp (maxDischargeDepth := 9) [h]
theorem execEncoOverrun_stk (samples : Samples) (s : State) {t : State} (h : s.StkSound) (e : execEncoOverrun samples s = .next t) : t.StkSound := by
  unfold execEncoOverrun at e
  cases e
  (repeat' split) <;> simp (maxDischargeDepth := 9) [h]
theorem execPosGetStatus_stk (slot : Fin 16) (s : State) {t : State} (h : s.StkSound) (e : execPosGetStatus slot s = .next t) : t.StkSound := by
  unfold execPosGetStatus at e
  cases e
  refine command_stk _ _ _ _ _ _ h ?_; intro tag ws s h; first | (simp (maxDischargeDepth := 9) [h]; done) | ((repeat' split) <;> simp (maxDischargeDepth := 9) [h]; done) | (dsimp only; (repeat' split) <;> simp (maxDischargeDepth := 9) [h]; done)
theorem execPosEncConfig_stk (slot : Fin 16) (s : State) {t : State} (h : s.StkSound) (e : execPosEncConfig slot s = .next t) : t.StkSound := by
  unfold execPosEncConfig at e
  cases e
  refine command_stk _ _ _ _ _ _ h ?_; intro tag ws s h; first | (simp (maxDischargeDepth := 9) [h]; done) | ((repeat' split) <;> simp (maxDischargeDepth := 9) [h]; done) | (dsimp only; (repeat' split) <;> simp (maxDischargeDepth := 9) [h]; done)
theorem execPosEncoConfig_stk (slot : Fin 16) (s : State) {t : State} (h : s.StkSound) (e : execPosEncoConfig slot s = .next t) : t.StkSound := by
  unfold execPosEncoConfig at e
  cases e
  refine command_stk _ _ _ _ _ _ h ?_; intro tag ws s h; first | (simp (maxDischargeDepth := 9) [h]; done) | ((repeat' split) <;> simp (maxDischargeDepth := 9) [h]; done) | (dsimp only; (repeat' split) <;> simp (maxDischargeDepth := 9) [h]; done)
@[simp] theorem setAxis_stk (a : Nat) (f : Axis → Axis) (s : State) (h : s.StkSound) : (setAxis a f s).StkSound := by
  simp (maxDischargeDepth := 9) [setAxis, h]
@[simp] theorem emptyQueue_stk (a : Nat) (status : Nat) (cause : Nat) (s : State) (h : s.StkSound) : (emptyQueue a status cause s).StkSound := by
  unfold emptyQueue; refine foldl_stk _ _ _ (by simp (maxDischargeDepth := 9) [h]) ?_; intro s x h; first | (simp (maxDischargeDepth := 9) [h]; done) | ((repeat' split) <;> simp (maxDischargeDepth := 9) [h]; done) | (dsimp only; (repeat' split) <;> simp (maxDischargeDepth := 9) [h]; done)
@[simp] theorem failHome_stk (a : Nat) (status : Nat) (s : State) (h : s.StkSound) : (failHome a status s).StkSound := by
  unfold failHome; (repeat' split) <;> simp (maxDischargeDepth := 9) [h]
@[simp] theorem stopAxis_stk (a : Nat) (hard : Bool) (s : State) (h : s.StkSound) : (stopAxis a hard s).StkSound := by
  simp (maxDischargeDepth := 9) [stopAxis, h]
@[simp] theorem abortSeq_stk (a : Nat) (cause : Option Nat) (hard : Bool) (s : State) (h : s.StkSound) : (abortSeq a cause hard s).StkSound := by
  unfold abortSeq; dsimp only; (repeat' split) <;> simp (maxDischargeDepth := 9) [h]
@[simp] theorem axisFault_stk (a : Nat) (code : Nat) (s : State) (h : s.StkSound) : (axisFault a code s).StkSound := by
  unfold axisFault; dsimp only; (repeat' split) <;> simp (maxDischargeDepth := 9) [h]
@[simp] theorem addCause_stk (a : Nat) (c : StopCause) (s : State) (h : s.StkSound) : (addCause a c s).StkSound := by
  simp (maxDischargeDepth := 9) [addCause, h]
@[simp] theorem interlockTick_stk (a : Nat) (s : State) (h : s.StkSound) : (interlockTick a s).StkSound := by
  unfold interlockTick; dsimp only; (repeat' split) <;> simp (maxDischargeDepth := 9) [h]
@[simp] theorem applyCause_stk (a : Nat) (s : State) (c : StopCause) (h : s.StkSound) : (applyCause a s c).StkSound := by
  unfold applyCause; (repeat' split) <;> simp (maxDischargeDepth := 9) [h]
@[simp] theorem applyCauses_stk (a : Nat) (s : State) (h : s.StkSound) : (applyCauses a s).StkSound := by
  unfold applyCauses; refine foldl_stk _ _ _ (by simp (maxDischargeDepth := 9) [h]) ?_; intro s x h; first | (simp (maxDischargeDepth := 9) [h]; done) | ((repeat' split) <;> simp (maxDischargeDepth := 9) [h]; done) | (dsimp only; (repeat' split) <;> simp (maxDischargeDepth := 9) [h]; done)
@[simp] theorem settle_stk (a : Nat) (s : State) (h : s.StkSound) : (settle a s).StkSound := by
  unfold settle; exact ite_stk (interlockTick_stk _ _ h) (applyCauses_stk _ _ (interlockTick_stk _ _ h))
@[simp] theorem posLost_stk (a : Nat) (s : State) (h : s.StkSound) : (posLost a s).StkSound := by
  simp (maxDischargeDepth := 9) [posLost, h]
@[simp] theorem axesSafe_stk (s : State) (h : s.StkSound) : (axesSafe s).StkSound := by
  unfold axesSafe
  refine foldl_stk _ _ _ (abortSeq_stk _ _ _ _ (settle_stk _ _ (settle_stk _ _ h))) fun s a hs => ?_
  exact addCause_stk _ _ _ (failHome_stk _ _ _ (emptyQueue_stk _ _ _ _ hs))
@[simp] theorem capUpdate_stk (s : State) (h : s.StkSound) : (capUpdate s).StkSound := by
  unfold capUpdate; dsimp only; (repeat' split) <;> simp (maxDischargeDepth := 9) [h]
@[simp] theorem controlCycle_stk (a : Nat) (was : Bool) (s0 : State) (h : s0.StkSound) : (controlCycle a was s0).StkSound := by
  have h0 := setAxis_stk a (fun x => { x with offset := (wd s0.pers.prf (8 + a)).toInt }) s0 h
  unfold controlCycle
  dsimp only
  generalize setAxis a (fun x => { x with offset := (wd s0.pers.prf (8 + a)).toInt }) s0 = s at h0
  refine capUpdate_stk _ (ite_stk (addCause_stk _ _ _ (stickEvent_stk _ _ _ (setAxis_stk _ _ _ ?_))) ?_) <;>
    exact ite_stk (posLost_stk _ _ (ite_stk (stickRec_stk _ _ _ (setAxis_stk _ _ _ h0)) (setAxis_stk _ _ _ h0)))
      (ite_stk (stickRec_stk _ _ _ (setAxis_stk _ _ _ h0)) (setAxis_stk _ _ _ h0))
@[simp] theorem switchInput_stk (a : Nat) (i : Nat) (level : Bool) (clocks : Nat) (s : State) (h : s.StkSound) : (switchInput a i level clocks s).2.StkSound := by
  unfold switchInput; dsimp only; (repeat' split) <;> simp (maxDischargeDepth := 9) [h]
@[simp] theorem exclude_stk (l : List (Nat × Nat)) (s : State) (h : s.StkSound) : (exclude l s).StkSound := by
  simp (maxDischargeDepth := 9) [exclude, h]
@[simp] theorem spoilDrops_stk (ds : List Drop) (s : State) (h : s.StkSound) : (spoilDrops ds s).StkSound := by
  simp (maxDischargeDepth := 9) [spoilDrops, h]
@[simp] theorem unfireDrops_stk (ds : List Drop) (s : State) (h : s.StkSound) : (unfireDrops ds s).StkSound := by
  simp (maxDischargeDepth := 9) [unfireDrops, h]
@[simp] theorem setSlice_stk (m : Nat) (f : Slice → Slice) (s : State) (h : s.StkSound) : (setSlice m f s).StkSound := by
  simp (maxDischargeDepth := 9) [setSlice, h]
@[simp] theorem oncePerPage_stk (b : Nat) (k : Sticky) (e : Event) (page : Option Page) (s : State) (h : s.StkSound) : (oncePerPage b k e page s).StkSound := by
  unfold oncePerPage; (repeat' split) <;> simp (maxDischargeDepth := 9) [h]
@[simp] theorem noteOutcomes_stk (m : Nat) (L : Nat) (page : Option Page) (outs : List (Nat × Nat × Nat × Nat)) (s : State) (h : s.StkSound) : (noteOutcomes m L page outs s).StkSound := by
  unfold noteOutcomes; dsimp only; (repeat' split) <;> simp (maxDischargeDepth := 9) [h]
@[simp] theorem screenWith_stk (m : Nat) (L : Nat) (page : Option Page) (tones : List ToneOut) (s : State) (h : s.StkSound) : (screenWith m L page tones s).StkSound := by
  unfold screenWith; (repeat' split) <;> simp (maxDischargeDepth := 9) [h]
@[simp] theorem screenLine_stk (m : Nat) (L : Nat) (s : State) (h : s.StkSound) : (screenLine m L s).StkSound := by
  unfold screenLine
  extract_lets ts
  clear_value ts
  split
  · exact screenWith_stk _ _ _ _ _ h
  · exact screenWith_stk _ _ _ _ _ h
  · extract_lets s1
    have h1 : s1.StkSound := screenWith_stk _ _ _ _ _ h
    exact ite_stk (spoil_stk _ _ (oncePerPage_stk _ _ _ _ _ h1)) h1
@[simp] theorem undoLines_stk (m : Nat) (L : Nat) (s : State) (h : s.StkSound) : (undoLines m L s).StkSound := by
  simp (maxDischargeDepth := 9) [undoLines, h]
@[simp] theorem loadColumn_stk (c : Nat) (Ls : Nat) (rec_ : List Byte) (s : State) (h : s.StkSound) : (loadColumn c Ls rec_ s).StkSound := by
  simp (maxDischargeDepth := 9) [loadColumn, h]
@[simp] theorem loadModule_stk (m : Nat) (L : Nat) (img : List Byte) (s : State) (h : s.StkSound) : (loadModule m L img s).StkSound := by
  exact foldl_stk _ _ _ h fun s k hs => loadColumn_stk _ _ _ _ hs
@[simp] theorem reloadAtStart_stk (m : Nat) (L : Nat) (s : State) (h : s.StkSound) : (reloadAtStart m L s).StkSound := by
  unfold reloadAtStart
  split
  · exact ite_stk (loadModule_stk _ _ _ _ h) h
  · exact h
@[simp] theorem jobAtStart_stk (m : Nat) (L : Nat) (s : State) (h : s.StkSound) : (jobAtStart m L s).StkSound := by
  have hk : ∀ (t : State) (c : Screen), t.StkSound → State.StkSound { t with scr := c } := fun _ _ ht => ht
  have h0 := reloadAtStart_stk m L s h
  unfold jobAtStart
  generalize reloadAtStart m L s = s at h0
  dsimp only
  split
  · split
    · exact h0
    · exact h0
  · split
    · rename_i img _ _ _ _
      have h1 := loadModule_stk m L img s h0
      generalize loadModule m L img s = s1 at h1
      split
      · exact complete_stk _ _ _ _ _ _ _ (hk _ _ h1)
      · exact hk _ _ h1
    · exact h0
  · exact h0
@[simp] theorem switchBank_stk (m : Nat) (L : Nat) (s : State) (h : s.StkSound) : (switchBank m L s).StkSound := by
  unfold switchBank; dsimp only; (repeat' split) <;> simp (maxDischargeDepth := 9) [h]
theorem execSliceLineStart_stk (mod : Fin 16) (s : State) {t : State} (h : s.StkSound) (e : execSliceLineStart mod s = .next t) : t.StkSound := by
  unfold execSliceLineStart at e
  cases e
  dsimp only; (repeat' split) <;> simp (maxDischargeDepth := 9) [h]
@[simp] theorem assemble_stk (m : Nat) (s : State) (F : Nat) (h : s.StkSound) : (assemble m s F).StkSound := by
  simp (maxDischargeDepth := 9) [assemble, h]
@[simp] theorem passOn_stk (m : Nat) (L : Nat) (s : State) (h : s.StkSound) : (passOn m L s).StkSound := by
  unfold passOn; refine foldl_stk _ _ _ (by simp (maxDischargeDepth := 9) [h]) ?_; intro s x h; first | (simp (maxDischargeDepth := 9) [h]; done) | ((repeat' split) <;> simp (maxDischargeDepth := 9) [h]; done) | (dsimp only; (repeat' split) <;> simp (maxDischargeDepth := 9) [h]; done)
@[simp] theorem noteLineDone_stk (s : State) (h : s.StkSound) : (noteLineDone s).StkSound := by
  unfold noteLineDone; dsimp only; (repeat' split) <;> simp (maxDischargeDepth := 9) [h]
@[simp] theorem feedCal_stk (ds : List Drop) (s : State) (h : s.StkSound) : (feedCal ds s).StkSound := by
  simp (maxDischargeDepth := 9) [feedCal, h]
@[simp] theorem lineDone_stk (mod : Nat) (L : Nat) (s : State) (h : s.StkSound) : (lineDone mod L s).StkSound := by
  unfold lineDone; dsimp only; (repeat' split) <;> simp (maxDischargeDepth := 9) [h]
@[simp] theorem sliceLate_stk (B : Nat) (m : Nat) (s : State) (h : s.StkSound) : (sliceLate B m s).StkSound := by
  unfold sliceLate; dsimp only; (repeat' split) <;> simp (maxDischargeDepth := 9) [h]
@[simp] theorem pruneRows_stk (B : Nat) (s : State) (h : s.StkSound) : (pruneRows B s).StkSound := by
  simp (maxDischargeDepth := 9) [pruneRows, h]
@[simp] theorem garnetBoundary_stk (B : Nat) (s : State) (h : s.StkSound) : (garnetBoundary B s).StkSound := by
  exact pruneRows_stk _ _ (forAll_stk _ _ _ h fun n s hs => sliceLate_stk _ _ _ hs)
theorem execCurveBankLoad_stk (mod : Fin 16) (s : State) {t : State} (h : s.StkSound) (e : execCurveBankLoad mod s = .next t) : t.StkSound := by
  unfold execCurveBankLoad at e
  cases e
  (repeat' split) <;> simp (maxDischargeDepth := 9) [h]
theorem execCurveBankLoaded_stk (mod : Fin 16) (s : State) {t : State} (h : s.StkSound) (e : execCurveBankLoaded mod s = .next t) : t.StkSound := by
  unfold execCurveBankLoaded at e
  cases e
  (repeat' split) <;> simp (maxDischargeDepth := 9) [h]
theorem execScrGetStatus_stk (slot : Fin 16) (s : State) {t : State} (h : s.StkSound) (e : execScrGetStatus slot s = .next t) : t.StkSound := by
  unfold execScrGetStatus at e
  cases e
  refine command_stk _ _ _ _ _ _ h ?_; intro tag ws s h; first | (simp (maxDischargeDepth := 9) [h]; done) | ((repeat' split) <;> simp (maxDischargeDepth := 9) [h]; done) | (dsimp only; (repeat' split) <;> simp (maxDischargeDepth := 9) [h]; done)
theorem execScrRowStateSave_stk (slot : Fin 16) (s : State) {t : State} (h : s.StkSound) (e : execScrRowStateSave slot s = .next t) : t.StkSound := by
  unfold execScrRowStateSave at e
  cases e
  refine command_stk _ _ _ _ _ _ h ?_; intro tag ws s h; first | (simp (maxDischargeDepth := 9) [h]; done) | ((repeat' split) <;> simp (maxDischargeDepth := 9) [h]; done) | (dsimp only; (repeat' split) <;> simp (maxDischargeDepth := 9) [h]; done)
theorem execScrRowStateSaveDone_stk (writeOk : Bool) (s : State) {t : State} (h : s.StkSound) (e : execScrRowStateSaveDone writeOk s = .next t) : t.StkSound := by
  unfold execScrRowStateSaveDone at e
  cases e
  dsimp only; (repeat' split) <;> simp (maxDischargeDepth := 9) [h]
theorem execScrRowStateLoad_stk (slot : Fin 16) (s : State) {t : State} (h : s.StkSound) (e : execScrRowStateLoad slot s = .next t) : t.StkSound := by
  unfold execScrRowStateLoad at e
  cases e
  refine command_stk _ _ _ _ _ _ h ?_; intro tag ws s h; first | (simp (maxDischargeDepth := 9) [h]; done) | ((repeat' split) <;> simp (maxDischargeDepth := 9) [h]; done) | (dsimp only; (repeat' split) <;> simp (maxDischargeDepth := 9) [h]; done)
@[simp] theorem rowStateFetched_stk (image : Option (List Byte)) (s : State) (h : s.StkSound) : (rowStateFetched image s).StkSound := by
  unfold rowStateFetched; (repeat' split) <;> simp (maxDischargeDepth := 9) [h]
theorem execScrRowStateFetched_stk (image : Option (List Byte)) (s : State) {t : State} (h : s.StkSound) (e : execScrRowStateFetched image s = .next t) : t.StkSound := by
  unfold execScrRowStateFetched at e
  cases e
  simp (maxDischargeDepth := 9) [h]
theorem execScrTrace_stk (slot : Fin 16) (s : State) {t : State} (h : s.StkSound) (e : execScrTrace slot s = .next t) : t.StkSound := by
  unfold execScrTrace at e
  cases e
  refine command_stk _ _ _ _ _ _ h ?_; intro tag ws s h; first | (simp (maxDischargeDepth := 9) [h]; done) | ((repeat' split) <;> simp (maxDischargeDepth := 9) [h]; done) | (dsimp only; (repeat' split) <;> simp (maxDischargeDepth := 9) [h]; done)
@[simp] theorem endScrJob_stk (lc : Nat) (s : State) (h : s.StkSound) : (endScrJob lc s).StkSound := by
  unfold endScrJob; dsimp only; (repeat' split) <;> simp (maxDischargeDepth := 9) [h]
@[simp] theorem queueTx_stk (m : Nat) (l : List (Nat × List LaneItem)) (s : State) (h : s.StkSound) : (queueTx m l s).StkSound := by
  simp (maxDischargeDepth := 9) [queueTx, h]
@[simp] theorem drainLane_stk (m : Nat) (s : State) (h : s.StkSound) : (drainLane m s).StkSound := by
  unfold drainLane; dsimp only; (repeat' split) <;> simp (maxDischargeDepth := 9) [h]
@[simp] theorem drainLanes_stk (s : State) (h : s.StkSound) : (drainLanes s).StkSound := by
  unfold drainLanes; refine foldl_stk _ _ _ (by simp (maxDischargeDepth := 9) [h]) ?_; intro s x h; first | (simp (maxDischargeDepth := 9) [h]; done) | ((repeat' split) <;> simp (maxDischargeDepth := 9) [h]; done) | (dsimp only; (repeat' split) <;> simp (maxDischargeDepth := 9) [h]; done)
@[simp] theorem sendMarker_stk (m : Nat) (x : LaneItem) (s : State) (h : s.StkSound) : (sendMarker m x s).StkSound := by
  simp (maxDischargeDepth := 9) [sendMarker, h]
@[simp] theorem orderStop_stk (s : State) (h : s.StkSound) : (orderStop s).StkSound := by
  simp (maxDischargeDepth := 9) [orderStop, h]
@[simp] theorem mapTrains_stk (p : Train → Bool) (f : Train → Train) (s : State) (h : s.StkSound) : (mapTrains p f s).StkSound := by
  simp (maxDischargeDepth := 9) [mapTrains, h]
@[simp] theorem withhold_stk (p : Train → Bool) (s : State) (h : s.StkSound) : (withhold p s).StkSound := by
  simp (maxDischargeDepth := 9) [withhold, h]
@[simp] theorem deliver_stk (s : State) (k : Nat × Nat) (h : s.StkSound) : (deliver s k).StkSound := by
  unfold deliver; dsimp only; (repeat' split) <;> simp (maxDischargeDepth := 9) [h]
@[simp] theorem deliverAll_stk (s : State) (h : s.StkSound) : (deliverAll s).StkSound := by
  unfold deliverAll; refine foldl_stk _ _ _ (by simp (maxDischargeDepth := 9) [h]) ?_; intro s x h; first | (simp (maxDischargeDepth := 9) [h]; done) | ((repeat' split) <;> simp (maxDischargeDepth := 9) [h]; done) | (dsimp only; (repeat' split) <;> simp (maxDischargeDepth := 9) [h]; done)
@[simp] theorem noteMarker_stk (m F tx : Nat) (s : State) (h : s.StkSound) : (noteMarker m F tx s).StkSound := by
  simp (maxDischargeDepth := 9) [noteMarker, h]
@[simp] theorem sendCommit_stk (t : Train) (tx : Nat) (main : Int) (s : State) (h : s.StkSound) : (sendCommit t tx main s).StkSound := by
  unfold sendCommit
  dsimp only
  have h1 : ∀ b : Bool, (if b = true then presentMarker t.mod t.fire s else (false, s)).2.StkSound := by
    intro b; cases b
    · exact h
    · exact presentMarker_stk _ _ _ h
  exact ite_stk (sendMarker_stk _ _ _ (noteMarker_stk _ _ _ _ (h1 _))) (ite_stk (h1 _) (unfireDrops_stk _ _ (h1 _)))
@[simp] theorem fireTrain_stk (t : Train) (tx : Nat) (main : Int) (s : State) (h : s.StkSound) : (fireTrain t tx main s).StkSound := by
  unfold fireTrain; dsimp only; (repeat' split) <;> simp (maxDischargeDepth := 9) [h]
@[simp] theorem slotOmit_stk (t : Train) (s : State) (h : s.StkSound) : (slotOmit t s).StkSound := by
  simp (maxDischargeDepth := 9) [slotOmit, h]
@[simp] theorem tryTrain_stk (first : Bool) (t : Train) (tx : Nat) (wanted : Int) (s : State) (h : s.StkSound) : (tryTrain first t tx wanted s).StkSound := by
  unfold tryTrain; dsimp only; (repeat' split) <;> simp (maxDischargeDepth := 9) [h]
theorem execTrainCommit_stk (mod : Fin 16) (fire : Nat) (row : Fin 4) (grp : Fin 8) (tx : Nat) (samples : Samples) (s : State) {t : State} (h : s.StkSound) (e : execTrainCommit mod fire row grp tx samples s = .next t) : t.StkSound := by
  unfold execTrainCommit at e
  cases e
  (repeat' split) <;> simp (maxDischargeDepth := 9) [h]
theorem execTrainPostponedStart_stk (mod : Fin 16) (fire : Nat) (row : Fin 4) (grp : Fin 8) (tx : Nat) (samples : Samples) (s : State) {t : State} (h : s.StkSound) (e : execTrainPostponedStart mod fire row grp tx samples s = .next t) : t.StkSound := by
  unfold execTrainPostponedStart at e
  cases e
  (repeat' split) <;> simp (maxDischargeDepth := 9) [h]
theorem execTrainAbandon_stk (mod : Fin 16) (fire : Nat) (row : Fin 4) (grp : Fin 8) (s : State) {t : State} (h : s.StkSound) (e : execTrainAbandon mod fire row grp s = .next t) : t.StkSound := by
  unfold execTrainAbandon at e
  cases e
  (repeat' split) <;> simp (maxDischargeDepth := 9) [h]
theorem execPrepMarker_stk (mod : Fin 16) (fire : Nat) (row : Fin 4) (grp : Fin 8) (tx : Nat) (samples : Samples) (s : State) {t : State} (h : s.StkSound) (e : execPrepMarker mod fire row grp tx samples s = .next t) : t.StkSound := by
  unfold execPrepMarker at e
  cases e
  dsimp only; (repeat' split) <;> simp (maxDischargeDepth := 9) [h]
@[simp] theorem setZone_stk (m : Nat) (z : Nat) (f : ZoneT → ZoneT) (s : State) (h : s.StkSound) : (setZone m z f s).StkSound := by
  simp (maxDischargeDepth := 9) [setZone, h]
@[simp] theorem heatTrip_stk (m : Nat) (z : Nat) (s : State) (h : s.StkSound) : (heatTrip m z s).StkSound := by
  unfold heatTrip; dsimp only; (repeat' split) <;> simp (maxDischargeDepth := 9) [h]
@[simp] theorem judgeZone_stk (m : Nat) (z : Nat) (s : State) (h : s.StkSound) : (judgeZone m z s).StkSound := by
  unfold judgeZone; dsimp only; (repeat' split) <;> simp (maxDischargeDepth := 9) [h]
@[simp] theorem zoneReading_stk (m : Nat) (z : Nat) (v : Nat) (s : State) (h : s.StkSound) : (zoneReading m z v s).StkSound := by
  exact judgeZone_stk _ _ _ (setLane_stk _ _ _ (setZone_stk _ _ _ _ h))
@[simp] theorem judgeAll_stk (s : State) (h : s.StkSound) : (judgeAll s).StkSound := by
  exact forAll_stk _ _ _ h fun m s hs => forAll_stk _ _ _ hs fun z s hs => ite_stk (judgeZone_stk _ _ _ hs) hs
theorem execTempStale_stk (mod : Fin 16) (s : State) {t : State} (h : s.StkSound) (e : execTempStale mod s = .next t) : t.StkSound := by
  unfold execTempStale at e
  cases e
  refine ite_stk h (forAll_stk _ _ _ (stickRec_stk _ _ _ ?_) fun n s hs => heatTrip_stk _ _ _ hs)
  exact forAll_stk _ _ _ h fun n s hs => setZone_stk _ _ _ _ hs
@[simp] theorem warnStep_stk (s : State) (h : s.StkSound) : (warnStep s).StkSound := by
  unfold warnStep; (repeat' split) <;> simp (maxDischargeDepth := 9) [h]
@[simp] theorem rateStep_stk (s : State) (h : s.StkSound) : (rateStep s).StkSound := by
  simp (maxDischargeDepth := 9) [rateStep, h]
@[simp] theorem overWarn_stk (s : State) (h : s.StkSound) : (overWarn s).StkSound := by
  unfold overWarn; dsimp only; (repeat' split) <;> simp (maxDischargeDepth := 9) [h]
@[simp] theorem overCount_stk (s : State) (h : s.StkSound) : (overCount s).StkSound := by
  simp (maxDischargeDepth := 9) [overCount, h]
@[simp] theorem overStop_stk (s : State) (h : s.StkSound) : (overStop s).StkSound := by
  unfold overStop; (repeat' split) <;> simp (maxDischargeDepth := 9) [h]
@[simp] theorem overClear_stk (s : State) (h : s.StkSound) : (overClear s).StkSound := by
  unfold overClear; (repeat' split) <;> simp (maxDischargeDepth := 9) [h]
@[simp] theorem withholdLine_stk (F : Nat) (why : WithheldBy) (s : State) (m : Nat) (h : s.StkSound) : (withholdLine F why s m).StkSound := by
  unfold withholdLine; (repeat' split) <;> simp (maxDischargeDepth := 9) [h]
@[simp] theorem beginLine_stk (B : Nat) (skip_ : List Nat) (s : State) (h : s.StkSound) : (beginLine B skip_ s).StkSound := by
  unfold beginLine
  dsimp only
  have hf : ∀ (l : List Nat) (why : WithheldBy) (t : State), t.StkSound → (l.foldl (withholdLine B why) t).StkSound :=
    fun l why t ht => foldl_stk _ _ _ ht fun s x hs => withholdLine_stk _ _ _ _ hs
  refine ite_stk (hf _ _ _ ?_) (ite_stk (hf _ _ _ ?_) (ite_stk (hf _ _ _ ?_) (hf _ _ _ ?_)))
  all_goals exact ite_stk h (ite_stk (orderStop_stk _ h) h)
@[simp] theorem noTable_stk (F : Nat) (m : Nat) (s : State) (h : s.StkSound) : (noTable F m s).StkSound := by
  unfold noTable; (repeat' split) <;> simp (maxDischargeDepth := 9) [h]
@[simp] theorem sendFrame_stk (F : Nat) (s : State) (m : Nat) (h : s.StkSound) : (sendFrame F s m).StkSound := by
  unfold sendFrame; dsimp only; (repeat' split) <;> simp (maxDischargeDepth := 9) [h]
@[simp] theorem formDigest_stk (s : State) (F : Nat) (h : s.StkSound) : (formDigest s F).StkSound := by
  exact ite_stk h (withTwin_stk h _)
@[simp] theorem formDigests_stk (s : State) (h : s.StkSound) : (formDigests s).StkSound := by
  exact foldl_stk _ _ _ h fun s F hs => formDigest_stk _ _ hs
@[simp] theorem sendLine_stk (F : Nat) (s : State) (h : s.StkSound) : (sendLine F s).StkSound := by
  unfold sendLine
  dsimp only
  split
  · exact h
  · exact formDigest_stk _ _ (foldl_stk (sendFrame F) _ _ h fun s x hs => sendFrame_stk _ _ _ hs)
@[simp] theorem lateTrains_stk (B : Nat) (s : State) (h : s.StkSound) : (lateTrains B s).StkSound := by
  unfold lateTrains; refine foldl_stk _ _ _ (by simp (maxDischargeDepth := 9) [h]) ?_; intro s x h; first | (simp (maxDischargeDepth := 9) [h]; done) | ((repeat' split) <;> simp (maxDischargeDepth := 9) [h]; done) | (dsimp only; (repeat' split) <;> simp (maxDischargeDepth := 9) [h]; done)
@[simp] theorem endProbe_stk (pl : Probe) (s : State) (h : s.StkSound) : (endProbe pl s).StkSound := by
  simp (maxDischargeDepth := 9) [endProbe, h]
@[simp] theorem probeStep_stk (B : Nat) (s : State) (h : s.StkSound) : (probeStep B s).StkSound := by
  unfold probeStep; dsimp only; (repeat' split) <;> simp (maxDischargeDepth := 9) [h]
@[simp] theorem endMeasure_stk (j : MeasJob) (status : Nat) (p0 : Word) (p1 : Word) (p2 : Word) (s : State) (h : s.StkSound) : (endMeasure j status p0 p1 p2 s).StkSound := by
  simp (maxDischargeDepth := 9) [endMeasure, h]
@[simp] theorem stopMeasure_stk (s : State) (h : s.StkSound) : (stopMeasure s).StkSound := by
  unfold stopMeasure; (repeat' split) <;> simp (maxDischargeDepth := 9) [h]
@[simp] theorem takeReadings_stk (m : Nat) (index : Nat) (vals : List Nat) (s : State) (h : s.StkSound) : (takeReadings m index vals s).StkSound := by
  unfold takeReadings; (repeat' split) <;> simp (maxDischargeDepth := 9) [h]
theorem execFireMeasureRDone_stk (written : Bool) (s : State) {t : State} (h : s.StkSound) (e : execFireMeasureRDone written s = .next t) : t.StkSound := by
  unfold execFireMeasureRDone at e
  cases e
  (repeat' split) <;> simp (maxDischargeDepth := 9) [h]
@[simp] theorem resumeStep_stk (s : State) (h : s.StkSound) : (resumeStep s).StkSound := by
  unfold resumeStep; (repeat' split) <;> simp (maxDischargeDepth := 9) [h]
@[simp] theorem resumed_stk (B : Nat) (s : State) (h : s.StkSound) : (resumed B s).StkSound := by
  unfold resumed; (repeat' split) <;> simp (maxDischargeDepth := 9) [h]
@[simp] theorem pruneFire_stk (B : Nat) (s : State) (h : s.StkSound) : (pruneFire B s).StkSound := by
  simp (maxDischargeDepth := 9) [pruneFire, h]
@[simp] theorem closeLine_stk (B : Nat) (s : State) (h : s.StkSound) : (closeLine B s).StkSound := by
  simp (maxDischargeDepth := 9) [closeLine, h]
@[simp] theorem fireBoundary_stk (B : Nat) (s : State) (h : s.StkSound) : (fireBoundary B s).StkSound := by
  unfold fireBoundary
  extract_lets s1 s2 omitting
  have h2 : s2.StkSound := overClear_stk _ (overCount_stk _ (warnStep_stk _ (resumeStep_stk _ (overWarn_stk _ (rateStep_stk _ h)))))
  clear_value s2
  split
  extract_lets s3 s4 s5 s6 s7
  have h3 : s3.StkSound := h2
  have h4 : s4.StkSound := ite_stk (stickRec_stk _ _ _ h3) h3
  have h5 : s5.StkSound := resumed_stk _ _ (beginLine_stk _ _ _ (closeLine_stk _ _ h4))
  have h6 : s6.StkSound := ite_stk (stopMeasure_stk _ h5) h5
  have h7 : s7.StkSound := probeStep_stk _ _ (overStop_stk _ h6)
  exact pruneFire_stk _ _ (deliverAll_stk _ (sendLine_stk _ _ (sendLine_stk _ _ (sendLine_stk _ _ h7))))
@[simp] theorem spitStep_stk (B : Nat) (s : State) (h : s.StkSound) : (spitStep B s).StkSound := by
  unfold spitStep; (repeat' split) <;> simp (maxDischargeDepth := 9) [h]
theorem execFireGetStatus_stk (slot : Fin 16) (s : State) {t : State} (h : s.StkSound) (e : execFireGetStatus slot s = .next t) : t.StkSound := by
  unfold execFireGetStatus at e
  cases e
  refine command_stk _ _ _ _ _ _ h ?_; intro tag ws s h; first | (simp (maxDischargeDepth := 9) [h]; done) | ((repeat' split) <;> simp (maxDischargeDepth := 9) [h]; done) | (dsimp only; (repeat' split) <;> simp (maxDischargeDepth := 9) [h]; done)
@[simp] theorem slotAgain_stk (s : State) (h : s.StkSound) : (slotAgain s).StkSound := by
  exact mapTrains_stk _ _ _ h
theorem execFireConfig_stk (slot : Fin 16) (s : State) {t : State} (h : s.StkSound) (e : execFireConfig slot s = .next t) : t.StkSound := by
  unfold execFireConfig at e
  cases e
  refine command_stk _ _ _ _ _ _ h ?_; intro tag ws s h; first | (simp (maxDischargeDepth := 9) [h]; done) | ((repeat' split) <;> simp (maxDischargeDepth := 9) [h]; done) | (dsimp only; (repeat' split) <;> simp (maxDischargeDepth := 9) [h]; done)
theorem execFireResume_stk (slot : Fin 16) (s : State) {t : State} (h : s.StkSound) (e : execFireResume slot s = .next t) : t.StkSound := by
  unfold execFireResume at e
  cases e
  refine command_stk _ _ _ _ _ _ h ?_; intro tag ws s h; first | (simp (maxDischargeDepth := 9) [h]; done) | ((repeat' split) <;> simp (maxDischargeDepth := 9) [h]; done) | (dsimp only; (repeat' split) <;> simp (maxDischargeDepth := 9) [h]; done)
theorem execFireProbe_stk (slot : Fin 16) (s : State) {t : State} (h : s.StkSound) (e : execFireProbe slot s = .next t) : t.StkSound := by
  unfold execFireProbe at e
  cases e
  refine command_stk _ _ _ _ _ _ h ?_; intro tag ws s h; first | (simp (maxDischargeDepth := 9) [h]; done) | ((repeat' split) <;> simp (maxDischargeDepth := 9) [h]; done) | (dsimp only; (repeat' split) <;> simp (maxDischargeDepth := 9) [h]; done)
theorem execFireMeasureR_stk (slot : Fin 16) (s : State) {t : State} (h : s.StkSound) (e : execFireMeasureR slot s = .next t) : t.StkSound := by
  unfold execFireMeasureR at e
  cases e
  refine command_stk _ _ _ _ _ _ h ?_; intro tag ws s h; first | (simp (maxDischargeDepth := 9) [h]; done) | ((repeat' split) <;> simp (maxDischargeDepth := 9) [h]; done) | (dsimp only; (repeat' split) <;> simp (maxDischargeDepth := 9) [h]; done)
theorem execFireSpit_stk (slot : Fin 16) (s : State) {t : State} (h : s.StkSound) (e : execFireSpit slot s = .next t) : t.StkSound := by
  unfold execFireSpit at e
  cases e
  refine command_stk _ _ _ _ _ _ h ?_; intro tag ws s h; first | (simp (maxDischargeDepth := 9) [h]; done) | ((repeat' split) <;> simp (maxDischargeDepth := 9) [h]; done) | (dsimp only; (repeat' split) <;> simp (maxDischargeDepth := 9) [h]; done)
@[simp] theorem failSwitch_stk (s : State) (h : s.StkSound) : (failSwitch s).StkSound := by
  unfold failSwitch; (repeat' split) <;> simp (maxDischargeDepth := 9) [h]
@[simp] theorem takeOver_stk (cause : Nat) (s : State) (h : s.StkSound) : (takeOver cause s).StkSound := by
  unfold takeOver
  split
  · have hi := issueClaim_stk _ (failSwitch_stk _ h)
    dsimp only
    split
    · rename_i e; rw [e] at hi; exact hi
    · rename_i e; rw [e] at hi
      exact stickEvent_stk _ _ _ (setRole_stk _ _ hi)
  · exact h
@[simp] theorem checkTakeover_stk (s : State) (h : s.StkSound) : (checkTakeover s).StkSound := by
  unfold checkTakeover; (repeat' split) <;> simp (maxDischargeDepth := 9) [h]
@[simp] theorem checkDisplaced_stk (s : State) (h : s.StkSound) : (checkDisplaced s).StkSound := by
  unfold checkDisplaced; (repeat' split) <;> simp (maxDischargeDepth := 9) [h]
@[simp] theorem compareDigests_stk (line : Word) (own : Word) (peer : Word) (s : State) (h : s.StkSound) : (compareDigests line own peer s).StkSound := by
  unfold compareDigests; (repeat' split) <;> simp (maxDischargeDepth := 9) [h]
@[simp] theorem countMatch_stk (epoch : Word) (line : Word) (own : Word) (peer : Word) (prev : Word) (s : State) (h : s.StkSound) : (countMatch epoch line own peer prev s).StkSound := by
  unfold countMatch; (repeat' split) <;> simp (maxDischargeDepth := 9) [h]
@[simp] theorem peerDigest_stk (epoch : Word) (line : Word) (d : Word) (s : State) (h : s.StkSound) : (peerDigest epoch line d s).StkSound := by
  unfold peerDigest; dsimp only; (repeat' split) <;> simp (maxDischargeDepth := 9) [h]
@[simp] theorem waitingDigests_stk (s : State) (h : s.StkSound) : (waitingDigests s).StkSound := by
  unfold waitingDigests; refine foldl_stk _ _ _ (by simp (maxDischargeDepth := 9) [h]) ?_; intro s x h; first | (simp (maxDischargeDepth := 9) [h]; done) | ((repeat' split) <;> simp (maxDischargeDepth := 9) [h]; done) | (dsimp only; (repeat' split) <;> simp (maxDischargeDepth := 9) [h]; done)
theorem execSliceLineDone_stk (mod : Fin 16) (s : State) {t : State} (h : s.StkSound) (e : execSliceLineDone mod s = .next t) : t.StkSound := by
  unfold execSliceLineDone at e
  cases e
  split
  · exact h
  · exact waitingDigests_stk _ (formDigests_stk _ (lineDone_stk _ _ _ h))
@[simp] theorem claimStep_stk (s : State) (h : s.StkSound) : (claimStep s).StkSound := by
  unfold claimStep; (repeat' split) <;> simp (maxDischargeDepth := 9) [h]
@[simp] theorem seeClaim_stk (c : Word) (s : State) (h : s.StkSound) : (seeClaim c s).StkSound := by
  have hp : (if wd s.pers.prf 16 < c then prfStore 16 c s else s).StkSound := ite_stk (prfStore_stk _ _ _ h) h
  exact ite_stk (withTwin_stk hp _) h
@[simp] theorem blankForIdle_stk (s : State) (h : s.StkSound) : (blankForIdle s).StkSound := by
  simp (maxDischargeDepth := 9) [blankForIdle, h]
@[simp] theorem enterLane_stk (m : Nat) (st : LaneState) (s : State) (h : s.StkSound) : (enterLane m st s).StkSound := by
  simp (maxDischargeDepth := 9) [enterLane, h]
@[simp] theorem laneDown_stk (m : Nat) (cause : Word) (s : State) (h : s.StkSound) : (laneDown m cause s).StkSound := by
  simp (maxDischargeDepth := 9) [laneDown, h]
@[simp] theorem leaveActive_stk (m : Nat) (s : State) (h : s.StkSound) : (leaveActive m s).StkSound := by
  unfold leaveActive; dsimp only; (repeat' split) <;> simp (maxDischargeDepth := 9) [h]
@[simp] theorem toDetect_stk (m : Nat) (s : State) (h : s.StkSound) : (toDetect m s).StkSound := by
  exact enterLane_stk _ _ _ (setLane_stk _ _ _ (leaveActive_stk _ _ h))
@[simp] theorem toDisabled_stk (m : Nat) (s : State) (h : s.StkSound) : (toDisabled m s).StkSound := by
  unfold toDisabled; (repeat' split) <;> simp (maxDischargeDepth := 9) [h]
@[simp] theorem lanesToDetect_stk (s : State) (h : s.StkSound) : (lanesToDetect s).StkSound := by
  exact forAll_stk _ _ _ h fun m s hs => ite_stk (toDetect_stk _ _ (setLane_stk _ _ _ hs)) hs
@[simp] theorem lanesOff_stk (s : State) (h : s.StkSound) : (lanesOff s).StkSound := by
  unfold lanesOff; refine foldl_stk _ _ _ (by simp (maxDischargeDepth := 9) [h]) ?_; intro s x h; first | (simp (maxDischargeDepth := 9) [h]; done) | ((repeat' split) <;> simp (maxDischargeDepth := 9) [h]; done) | (dsimp only; (repeat' split) <;> simp (maxDischargeDepth := 9) [h]; done)
theorem execReceiverDetect_stk (lane : Fin 16) (load : Bool) (signal : Bool) (s : State) {t : State} (h : s.StkSound) (e : execReceiverDetect lane load signal s = .next t) : t.StkSound := by
  unfold execReceiverDetect at e
  cases e
  (repeat' split) <;> simp (maxDischargeDepth := 9) [h]
@[simp] theorem equaliseDone_stk (m : Nat) (s : State) (h : s.StkSound) : (equaliseDone m s).StkSound := by
  unfold equaliseDone; dsimp only; (repeat' split) <;> simp (maxDischargeDepth := 9) [h]
@[simp] theorem configDone_stk (m : Nat) (s : State) (h : s.StkSound) : (configDone m s).StkSound := by
  unfold configDone; dsimp only; (repeat' split) <;> simp (maxDischargeDepth := 9) [h]
@[simp] theorem startLoad_stk (g : Nat) (m : Nat) (s : State) (h : s.StkSound) : (startLoad g m s).StkSound := by
  simp (maxDischargeDepth := 9) [startLoad, h]
@[simp] theorem queueLoad_stk (g : Nat) (m : Nat) (s : State) (h : s.StkSound) : (queueLoad g m s).StkSound := by
  unfold queueLoad; (repeat' split) <;> simp (maxDischargeDepth := 9) [h]
@[simp] theorem startLoads_stk (g : Nat) (s : State) (h : s.StkSound) : (startLoads g s).StkSound := by
  unfold startLoads; refine foldl_stk _ _ _ (by simp (maxDischargeDepth := 9) [h]) ?_; intro s x h; first | (simp (maxDischargeDepth := 9) [h]; done) | ((repeat' split) <;> simp (maxDischargeDepth := 9) [h]; done) | (dsimp only; (repeat' split) <;> simp (maxDischargeDepth := 9) [h]; done)
@[simp] theorem switchBank1_stk (m : Nat) (s : State) (h : s.StkSound) : (switchBank1 m s).StkSound := by
  unfold switchBank1; (repeat' split) <;> simp (maxDischargeDepth := 9) [h]
@[simp] theorem switchBanks_stk (g : Nat) (s : State) (h : s.StkSound) : (switchBanks g s).StkSound := by
  unfold switchBanks; refine foldl_stk _ _ _ (by simp (maxDischargeDepth := 9) [h]) ?_; intro s x h; first | (simp (maxDischargeDepth := 9) [h]; done) | ((repeat' split) <;> simp (maxDischargeDepth := 9) [h]; done) | (dsimp only; (repeat' split) <;> simp (maxDischargeDepth := 9) [h]; done)
@[simp] theorem toActive_stk (m : Nat) (fresh : Bool) (s : State) (h : s.StkSound) : (toActive m fresh s).StkSound := by
  unfold toActive; dsimp only; (repeat' split) <;> simp (maxDischargeDepth := 9) [h]
theorem execTrainingSetRx_stk (lane : Fin 16) (data : Byte × Byte) (check : Byte) (s : State) {t : State} (h : s.StkSound) (e : execTrainingSetRx lane data check s = .next t) : t.StkSound := by
  unfold execTrainingSetRx at e
  cases e
  (repeat' split) <;> simp (maxDischargeDepth := 9) [h]
theorem execCtleSettled_stk (lane : Fin 16) (width height : List Byte) (s : State) {t : State} (h : s.StkSound) (e : execCtleSettled lane width height s = .next t) : t.StkSound := by
  unfold execCtleSettled at e
  cases e
  (repeat' split) <;> simp (maxDischargeDepth := 9) [h]
theorem execLaneStateTimeout_stk (lane : Fin 16) (s : State) {t : State} (h : s.StkSound) (e : execLaneStateTimeout lane s = .next t) : t.StkSound := by
  unfold execLaneStateTimeout at e
  cases e
  (repeat' split) <;> simp (maxDischargeDepth := 9) [h]
@[simp] theorem rejectCap_stk (m : Nat) (reason : Nat) (s : State) (h : s.StkSound) : (rejectCap m reason s).StkSound := by
  simp (maxDischargeDepth := 9) [rejectCap, h]
theorem execCapBlockRx_stk (lane : Fin 16) (words : List Word) (s : State) {t : State} (h : s.StkSound) (e : execCapBlockRx lane words s = .next t) : t.StkSound := by
  unfold execCapBlockRx at e
  cases e
  (repeat' split) <;> simp (maxDischargeDepth := 9) [h]
theorem execEchoSend_stk (lane : Fin 16) (s : State) {t : State} (h : s.StkSound) (e : execEchoSend lane s = .next t) : t.StkSound := by
  unfold execEchoSend at e
  cases e
  (repeat' split) <;> simp (maxDischargeDepth := 9) [h]
theorem execEchoReturnRx_stk (lane : Fin 16) (echo : EchoBack) (s : State) {t : State} (h : s.StkSound) (e : execEchoReturnRx lane echo s = .next t) : t.StkSound := by
  unfold execEchoReturnRx at e
  cases e
  dsimp only; (repeat' split) <;> simp (maxDischargeDepth := 9) [h]
@[simp] theorem toRecovery_stk (m : Nat) (cause : Nat) (s : State) (h : s.StkSound) : (toRecovery m cause s).StkSound := by
  simp (maxDischargeDepth := 9) [toRecovery, h]
theorem execLaneRecovery_stk (lane : Fin 16) (lossOfSignal : Bool) (errors : Fin 257) (s : State) {t : State} (h : s.StkSound) (e : execLaneRecovery lane lossOfSignal errors s = .next t) : t.StkSound := by
  unfold execLaneRecovery at e
  cases e
  (repeat' split) <;> simp (maxDischargeDepth := 9) [h]
theorem execStatusFrameTimeout_stk (lane : Fin 16) (s : State) {t : State} (h : s.StkSound) (e : execStatusFrameTimeout lane s = .next t) : t.StkSound := by
  unfold execStatusFrameTimeout at e
  cases e
  (repeat' split) <;> simp (maxDischargeDepth := 9) [h]
@[simp] theorem takeTemps_stk (m : Nat) (ws : List Word) (s : State) (h : s.StkSound) : (takeTemps m ws s).StkSound := by
  have h1 : ((statusTemps ws).zipIdx.foldl (fun s (x : Nat × Nat) => zoneReading m x.2 x.1 s) s).StkSound :=
    foldl_stk _ _ _ h fun s x hs => zoneReading_stk _ _ _ _ hs
  unfold takeTemps
  dsimp only
  split
  · exact h1
  · split
    · exact latchTrip_stk _ _ _ (activeNow_stk _ _ h1)
    · exact h1
@[simp] theorem takeClaim_stk (m : Nat) (ws : List Word) (s : State) (h : s.StkSound) : (takeClaim m ws s).StkSound := by
  unfold takeClaim; dsimp only; (repeat' split) <;> simp (maxDischargeDepth := 9) [h]
@[simp] theorem resendParts_stk (m : Nat) (F : Nat) (parts : List Nat) (used : Nat) (s : State) (h : s.StkSound) : (resendParts m F parts used s).StkSound := by
  unfold resendParts; (repeat' split) <;> simp (maxDischargeDepth := 9) [h]
@[simp] theorem noteBlanked_stk (m F : Nat) (s : State) (h : s.StkSound) : (noteBlanked m F s).StkSound := by
  unfold noteBlanked; dsimp only; (repeat' split) <;> simp (maxDischargeDepth := 9) [h]
@[simp] theorem takeNack_stk (m : Nat) (w0 : Word) (mask : Word) (s : State) (h : s.StkSound) : (takeNack m w0 mask s).StkSound := by
  unfold takeNack; dsimp only; (repeat' split) <;> simp (maxDischargeDepth := 9) [h]
@[simp] theorem resendStep_stk (B : Nat) (m : Nat) (s : State) (h : s.StkSound) : (resendStep B m s).StkSound := by
  exact ite_stk (resendParts_stk _ _ _ _ _ (setLane_stk _ _ _ h)) (setLane_stk _ _ _ h)
@[simp] theorem takeLatch_stk (m : Nat) (w5 : Word) (s : State) (h : s.StkSound) : (takeLatch m w5 s).StkSound := by
  unfold takeLatch; (repeat' split) <;> simp (maxDischargeDepth := 9) [h]
@[simp] theorem takeFaults_stk (m : Nat) (prev : Nat) (w : Word) (s : State) (h : s.StkSound) : (takeFaults m prev w s).StkSound := by
  unfold takeFaults; dsimp only; (repeat' split) <;> simp (maxDischargeDepth := 9) [h]
@[simp] theorem takeTable_stk (m : Nat) (w13 : Word) (w14 : Word) (s : State) (h : s.StkSound) : (takeTable m w13 w14 s).StkSound := by
  unfold takeTable; dsimp only; (repeat' split) <;> simp (maxDischargeDepth := 9) [h]
@[simp] theorem takeMeas_stk (m : Nat) (ws : List Word) (s : State) (h : s.StkSound) : (takeMeas m ws s).StkSound := by
  unfold takeMeas; (repeat' split) <;> simp (maxDischargeDepth := 9) [h]
theorem execStatusFrameRx_stk (lane : Fin 16) (words : List Word) (crc : Word) (s : State) {t : State} (h : s.StkSound) (e : execStatusFrameRx lane words crc s = .next t) : t.StkSound := by
  unfold execStatusFrameRx at e
  cases e
  have h1 := fun f => setLane_stk lane f s h
  refine ite_stk h (ite_stk (stickRec_stk _ _ _ (h1 _)) ?_)
  refine checkTakeover_stk _ (checkDisplaced_stk _ (takeMeas_stk _ _ _ (takeTable_stk _ _ _ _ (takeFaults_stk _ _ _ _ (takeLatch_stk _ _ _ ?_)))))
  exact takeNack_stk _ _ _ _ (takeNack_stk _ _ _ _ (takeClaim_stk _ _ _ (takeTemps_stk _ _ _ (h1 _))))
theorem execBlankRepeat_stk (lane : Fin 16) (s : State) {t : State} (h : s.StkSound) (e : execBlankRepeat lane s = .next t) : t.StkSound := by
  unfold execBlankRepeat at e
  cases e
  (repeat' split) <;> simp (maxDischargeDepth := 9) [h]
@[simp] theorem releaseIdle_stk (s : State) (h : s.StkSound) : (releaseIdle s).StkSound := by
  unfold releaseIdle; refine foldl_stk _ _ _ (by simp (maxDischargeDepth := 9) [h]) ?_; intro s x h; first | (simp (maxDischargeDepth := 9) [h]; done) | ((repeat' split) <;> simp (maxDischargeDepth := 9) [h]; done) | (dsimp only; (repeat' split) <;> simp (maxDischargeDepth := 9) [h]; done)
theorem execTblBlockTx_stk (lane : Fin 16) (s : State) {t : State} (h : s.StkSound) (e : execTblBlockTx lane s = .next t) : t.StkSound := by
  unfold execTblBlockTx at e
  cases e
  (repeat' split) <;> simp (maxDischargeDepth := 9) [h]
@[simp] theorem hlinkBoundary_stk (B : Nat) (s : State) (h : s.StkSound) : (hlinkBoundary B s).StkSound := by
  have h1 : ∀ n, (forAll n (resendStep B) (drainLanes s)).StkSound :=
    fun n => forAll_stk _ _ _ (drainLanes_stk _ h) fun m s hs => resendStep_stk _ _ _ hs
  exact drainLanes_stk _ (h1 _)
theorem execHlGetStatus_stk (slot : Fin 16) (s : State) {t : State} (h : s.StkSound) (e : execHlGetStatus slot s = .next t) : t.StkSound := by
  unfold execHlGetStatus at e
  cases e
  refine command_stk _ _ _ _ _ _ h ?_; intro tag ws s h; first | (simp (maxDischargeDepth := 9) [h]; done) | ((repeat' split) <;> simp (maxDischargeDepth := 9) [h]; done) | (dsimp only; (repeat' split) <;> simp (maxDischargeDepth := 9) [h]; done)
theorem execHlLaneConfig_stk (slot : Fin 16) (s : State) {t : State} (h : s.StkSound) (e : execHlLaneConfig slot s = .next t) : t.StkSound := by
  unfold execHlLaneConfig at e
  cases e
  refine command_stk _ _ _ _ _ _ h fun tag ws s h => ?_
  rw [done_fst]
  refine forAll_stk _ _ _ h fun m s hs => ?_
  dsimp only
  refine ite_stk (ite_stk (enterLane_stk _ _ _ (setLane_stk _ _ _ (setLane_stk _ _ _ hs))) (setLane_stk _ _ _ hs)) ?_
  exact toDisabled_stk _ _ (setLane_stk _ _ _ hs)
theorem execHlRetrain_stk (slot : Fin 16) (s : State) {t : State} (h : s.StkSound) (e : execHlRetrain slot s = .next t) : t.StkSound := by
  unfold execHlRetrain at e
  cases e
  refine command_stk _ _ _ _ _ _ h fun tag ws s h => ?_
  rw [done_fst]
  exact forAll_stk _ _ _ h fun m s hs => toDetect_stk _ _ hs
theorem execHlGetCaps_stk (slot : Fin 16) (s : State) {t : State} (h : s.StkSound) (e : execHlGetCaps slot s = .next t) : t.StkSound := by
  unfold execHlGetCaps at e
  cases e
  refine command_stk _ _ _ _ _ _ h ?_; intro tag ws s h; first | (simp (maxDischargeDepth := 9) [h]; done) | ((repeat' split) <;> simp (maxDischargeDepth := 9) [h]; done) | (dsimp only; (repeat' split) <;> simp (maxDischargeDepth := 9) [h]; done)
@[simp] theorem chipReset_stk (cause : Nat) (s : State) (h : s.StkSound) : (chipReset cause s).StkSound := by
  unfold chipReset
  have hr : State.reset.StkSound := ⟨rfl, rfl, rfl, by decide, by decide⟩
  extract_lets r s1
  have h1 : s1.StkSound := hr
  exact ite_stk h1 (sendVec_stk _ _ (event_stk _ _ h1))
@[simp] theorem setIsland_stk (i : Nat) (f : Island → Island) (s : State) (h : s.StkSound) : (setIsland i f s).StkSound := by
  simp (maxDischargeDepth := 9) [setIsland, h]
@[simp] theorem beginIsland_stk (i : Nat) (s : State) (h : s.StkSound) : (beginIsland i s).StkSound := by
  simp (maxDischargeDepth := 9) [beginIsland, h]
@[simp] theorem loadAxes_stk (s : State) (h : s.StkSound) : (loadAxes s).StkSound := by
  simp (maxDischargeDepth := 9) [loadAxes, h]
@[simp] theorem releaseClocks_stk (s : State) (h : s.StkSound) : (releaseClocks s).StkSound := h
theorem execChipResetRelease_stk (selfTestFail : Option Nat) (s : State) {t : State} (h : s.StkSound) (e : execChipResetRelease selfTestFail s = .next t) : t.StkSound := by
  unfold execChipResetRelease at e
  cases e
  split
  · exact h
  · have h2 : ∀ p q o, (beginIsland 0 (loadAxes { releaseClocks s with pers := p, pwr := q, onyx := o })).StkSound :=
      fun p q o => beginIsland_stk _ _ (loadAxes_stk _ (releaseClocks_stk s h))
    dsimp only
    split
    · exact h2 _ _ _
    · exact setOpState_stk _ _ _ (latchTrip_stk _ _ _ (h2 _ _ _))
@[simp] theorem loadIds_stk (s : State) (h : s.StkSound) : (loadIds s).StkSound := by
  simp (maxDischargeDepth := 9) [loadIds, h]
@[simp] theorem enterRun_stk (src : Nat) (s : State) (h : s.StkSound) : (enterRun src s).StkSound := by
  simp (maxDischargeDepth := 9) [enterRun, h]
@[simp] theorem dramFailed_stk (s : State) (h : s.StkSound) : (dramFailed s).StkSound := by
  unfold dramFailed; (repeat' split) <;> simp (maxDischargeDepth := 9) [h]
@[simp] theorem beginPass_stk (tag : Option Word) (marginOnly : Bool) (s : State) (h : s.StkSound) : (beginPass tag marginOnly s).StkSound := by
  simp (maxDischargeDepth := 9) [beginPass, h]
@[simp] theorem dramBringUp_stk (s : State) (h : s.StkSound) : (dramBringUp s).StkSound := by
  unfold dramBringUp; dsimp only; (repeat' split) <;> simp (maxDischargeDepth := 9) [h]
@[simp] theorem islandReady_stk (i : Nat) (s : State) (h : s.StkSound) : (islandReady i s).StkSound := by
  unfold islandReady; (repeat' split) <;> simp (maxDischargeDepth := 9) [h]
theorem execIslandStageReady_stk (island : Fin 4) (s : State) {t : State} (h : s.StkSound) (e : execIslandStageReady island s = .next t) : t.StkSound := by
  unfold execIslandStageReady at e
  cases e
  (repeat' split) <;> simp (maxDischargeDepth := 9) [h]
@[simp] theorem failRise_stk (s : State) (h : s.StkSound) : (failRise s).StkSound := by
  unfold failRise; (repeat' split) <;> simp (maxDischargeDepth := 9) [h]
theorem execSeqTimeout_stk (island : Fin 4) (s : State) {t : State} (h : s.StkSound) (e : execSeqTimeout island s = .next t) : t.StkSound := by
  unfold execSeqTimeout at e
  cases e
  (repeat' split) <;> simp (maxDischargeDepth := 9) [h]
theorem execStartupRetry_stk (s : State) {t : State} (h : s.StkSound) (e : execStartupRetry s = .next t) : t.StkSound := by
  unfold execStartupRetry at e
  cases e
  refine ite_stk (beginIsland_stk _ _ ?_) h
  exact releaseClocks_stk s h
@[simp] theorem startFirmware_stk (image : List Byte) (source : Nat) (s : State) (h : s.StkSound) : (startFirmware image source s).StkSound := by
  simp (maxDischargeDepth := 9) [startFirmware, h]
@[simp] theorem bootHalf_stk (b : Bool) (image : List Byte) (s : State) (h : s.StkSound) : (bootHalf b image s).StkSound := by
  simp (maxDischargeDepth := 9) [bootHalf, h]
@[simp] theorem recordBadImage_stk (s : State) (h : s.StkSound) : (recordBadImage s).StkSound := by
  simp (maxDischargeDepth := 9) [recordBadImage, h]
@[simp] theorem readHalves_stk (halfA halfB : List Byte) (s : State) (h : s.StkSound) : (readHalves halfA halfB s).StkSound := h

@[simp] theorem bootImage_stk (s : State) (h : s.StkSound) : (bootImage s).StkSound := by
  unfold bootImage; dsimp only; (repeat' split) <;> simp (maxDischargeDepth := 9) [h]
theorem execFirmwareStart_stk (halfA : List Byte) (halfB : List Byte) (s : State) {t : State} (h : s.StkSound) (e : execFirmwareStart halfA halfB s = .next t) : t.StkSound := by
  unfold execFirmwareStart at e
  cases e
  exact ite_stk h (bootImage_stk _ (readHalves_stk _ _ _ h))
@[simp] theorem loadSlot_stk (b : Bool) (s : State) (h : s.StkSound) : (loadSlot b s).StkSound := by
  simp (maxDischargeDepth := 9) [loadSlot, h]
@[simp] theorem loadSet_stk (badA : Bool) (badB : Bool) (s : State) (h : s.StkSound) : (loadSet badA badB s).StkSound := by
  unfold loadSet; dsimp only; (repeat' split) <;> simp (maxDischargeDepth := 9) [h]
theorem execBootComplete_stk (badA : Bool) (badB : Bool) (s : State) {t : State} (h : s.StkSound) (e : execBootComplete badA badB s = .next t) : t.StkSound := by
  unfold execBootComplete at e
  cases e
  dsimp only; (repeat' split) <;> simp (maxDischargeDepth := 9) [h]
@[simp] theorem lampLow_stk (s : State) (h : s.StkSound) : (lampLow s).StkSound := by
  unfold lampLow; (repeat' split) <;> simp (maxDischargeDepth := 9) [h]
theorem execPwrSetState_stk (slot : Fin 16) (s : State) {t : State} (h : s.StkSound) (e : execPwrSetState slot s = .next t) : t.StkSound := by
  unfold execPwrSetState at e
  cases e
  refine command_stk _ _ _ _ _ _ h ?_; intro tag ws s h; first | (simp (maxDischargeDepth := 9) [h]; done) | ((repeat' split) <;> simp (maxDischargeDepth := 9) [h]; done) | (dsimp only; (repeat' split) <;> simp (maxDischargeDepth := 9) [h]; done)
theorem execIslandDrainDone_stk (island : Fin 4) (s : State) {t : State} (h : s.StkSound) (e : execIslandDrainDone island s = .next t) : t.StkSound := by
  unfold execIslandDrainDone at e
  cases e
  (repeat' split) <;> simp (maxDischargeDepth := 9) [h]
theorem execDrainTimeout_stk (island : Fin 4) (count : Nat) (s : State) {t : State} (h : s.StkSound) (e : execDrainTimeout island count s = .next t) : t.StkSound := by
  unfold execDrainTimeout at e
  cases e
  (repeat' split) <;> simp (maxDischargeDepth := 9) [h]
theorem execSleepEnter_stk (s : State) {t : State} (h : s.StkSound) (e : execSleepEnter s = .next t) : t.StkSound := by
  unfold execSleepEnter at e
  cases e
  have h0 : (takeFree s).2.StkSound := takeFree_stk s h
  split
  · exact h
  · generalize takeFree s = p at h0 ⊢
    obtain ⟨why, s0⟩ := p
    have h1 : (setAxisEnable 1 false why (setAxisEnable 0 false why (setOutputs s.host.opState .sleep (lampLow (lanesOff s0))))).StkSound :=
      setAxisEnable_stk _ _ _ _ (setAxisEnable_stk _ _ _ _ (setOutputs_stk _ _ _ (lampLow_stk _ (lanesOff_stk _ h0))))
    dsimp only
    generalize setAxisEnable 1 false why _ = s1 at h1 ⊢
    exact h1
theorem execSleepAborted_stk (reason : Fin 3) (s : State) {t : State} (h : s.StkSound) (e : execSleepAborted reason s = .next t) : t.StkSound := by
  unfold execSleepAborted at e
  cases e
  (repeat' split) <;> simp (maxDischargeDepth := 9) [h]
theorem execSleepMinute_stk (s : State) {t : State} (h : s.StkSound) (e : execSleepMinute s = .next t) : t.StkSound := by
  unfold execSleepMinute at e
  cases e
  (repeat' split) <;> simp (maxDischargeDepth := 9) [h]
@[simp] theorem wake_stk (src : Nat) (s : State) (h : s.StkSound) : (wake src s).StkSound := by
  simp (maxDischargeDepth := 9) [wake, h]
@[simp] theorem wakeLower_stk (src : Nat) (s : State) (h : s.StkSound) : (wakeLower src s).StkSound := by
  unfold wakeLower; (repeat' split) <;> simp (maxDischargeDepth := 9) [h]
theorem execVigilActivityWake_stk (s : State) {t : State} (h : s.StkSound) (e : execVigilActivityWake s = .next t) : t.StkSound := by
  unfold execVigilActivityWake at e
  cases e
  (repeat' split) <;> simp (maxDischargeDepth := 9) [h]
theorem execVigilWakePattern_stk (s : State) {t : State} (h : s.StkSound) (e : execVigilWakePattern s = .next t) : t.StkSound := by
  unfold execVigilWakePattern at e
  cases e
  (repeat' split) <;> simp (maxDischargeDepth := 9) [h]
theorem execEthWakeFrame_stk (fcsGood : Bool) (etype : BitVec 16) (payload : List Byte) (s : State) {t : State} (h : s.StkSound) (e : execEthWakeFrame fcsGood etype payload s = .next t) : t.StkSound := by
  unfold execEthWakeFrame at e
  cases e
  (repeat' split) <;> simp (maxDischargeDepth := 9) [h]
theorem execPcieL2Exit_stk (s : State) {t : State} (h : s.StkSound) (e : execPcieL2Exit s = .next t) : t.StkSound := by
  unfold execPcieL2Exit at e
  cases e
  (repeat' split) <;> simp (maxDischargeDepth := 9) [h]
theorem execBrownoutWarn_stk (mv : Nat) (s : State) {t : State} (h : s.StkSound) (e : execBrownoutWarn mv s = .next t) : t.StkSound := by
  unfold execBrownoutWarn at e
  cases e
  (repeat' split) <;> simp (maxDischargeDepth := 9) [h]
theorem execBrownout_stk (lowMv : Nat) (micros : Nat) (s : State) {t : State} (h : s.StkSound) (e : execBrownout lowMv micros s = .next t) : t.StkSound := by
  unfold execBrownout at e
  cases e
  (repeat' split) <;> simp (maxDischargeDepth := 9) [h]
theorem execCoreStable_stk (s : State) {t : State} (h : s.StkSound) (e : execCoreStable s = .next t) : t.StkSound := by
  unfold execCoreStable at e
  cases e
  (repeat' split) <;> simp (maxDischargeDepth := 9) [h]
theorem execCoreUndervoltage_stk (s : State) {t : State} (h : s.StkSound) (e : execCoreUndervoltage s = .next t) : t.StkSound := by
  unfold execCoreUndervoltage at e
  cases e
  simp (maxDischargeDepth := 9) [h]
theorem execCoreResetAssert_stk (s : State) {t : State} (h : s.StkSound) (e : execCoreResetAssert s = .next t) : t.StkSound := by
  unfold execCoreResetAssert at e
  cases e
  (repeat' split) <;> simp (maxDischargeDepth := 9) [h]
theorem execCoreUvAtOnce_stk (s : State) {t : State} (h : s.StkSound) (e : execCoreUvAtOnce s = .next t) : t.StkSound := by
  unfold execCoreUvAtOnce at e
  cases e
  simp (maxDischargeDepth := 9) [h]
theorem execPowerOnReset_stk (asserted : Bool) (s : State) {t : State} (h : s.StkSound) (e : execPowerOnReset asserted s = .next t) : t.StkSound := by
  unfold execPowerOnReset at e
  cases e
  (repeat' split) <;> simp (maxDischargeDepth := 9) [h]
theorem execResetN_stk (low : Bool) (s : State) {t : State} (h : s.StkSound) (e : execResetN low s = .next t) : t.StkSound := by
  unfold execResetN at e
  cases e
  (repeat' split) <;> simp (maxDischargeDepth := 9) [h]
theorem execTrstN_stk (low : Bool) (s : State) {t : State} (h : s.StkSound) (e : execTrstN low s = .next t) : t.StkSound := by
  unfold execTrstN at e
  cases e
  simp (maxDischargeDepth := 9) [h]
theorem execSysResetBegin_stk (s : State) {t : State} (h : s.StkSound) (e : execSysResetBegin s = .next t) : t.StkSound := by
  unfold execSysResetBegin at e
  cases e
  (repeat' split) <;> simp (maxDischargeDepth := 9) [h]
@[simp] theorem rebootImage_stk (s : State) (h : s.StkSound) : (rebootImage s).StkSound := by
  exact ite_stk h (bootImage_stk _ (readHalves_stk _ _ _ h))
theorem execBerylRestartDone_stk (s : State) {t : State} (h : s.StkSound) (e : execBerylRestartDone s = .next t) : t.StkSound := by
  unfold execBerylRestartDone at e
  cases e
  have h1 : (rebootImage (berylRestarted s)).StkSound := rebootImage_stk _ (berylRestarted_stk _ h)
  exact ite_stk h (ite_stk (startSetWrite_stk _ _ h1) h1)
theorem execPwrGetStatus_stk (slot : Fin 16) (s : State) {t : State} (h : s.StkSound) (e : execPwrGetStatus slot s = .next t) : t.StkSound := by
  unfold execPwrGetStatus at e
  cases e
  refine command_stk _ _ _ _ _ _ h ?_; intro tag ws s h; first | (simp (maxDischargeDepth := 9) [h]; done) | ((repeat' split) <;> simp (maxDischargeDepth := 9) [h]; done) | (dsimp only; (repeat' split) <;> simp (maxDischargeDepth := 9) [h]; done)
theorem execPwrResume_stk (slot : Fin 16) (s : State) {t : State} (h : s.StkSound) (e : execPwrResume slot s = .next t) : t.StkSound := by
  unfold execPwrResume at e
  cases e
  refine command_stk _ _ _ _ _ _ h ?_; intro tag ws s h; first | (simp (maxDischargeDepth := 9) [h]; done) | ((repeat' split) <;> simp (maxDischargeDepth := 9) [h]; done) | (dsimp only; (repeat' split) <;> simp (maxDischargeDepth := 9) [h]; done)
theorem execPwrPadRelease_stk (slot : Fin 16) (s : State) {t : State} (h : s.StkSound) (e : execPwrPadRelease slot s = .next t) : t.StkSound := by
  unfold execPwrPadRelease at e
  cases e
  refine command_stk _ _ _ _ _ _ h fun tag ws s h => ?_
  rw [done_fst]
  exact applyIf_stk _ _ _ (applyIf_stk _ _ _ h fun s hs => emit_stk _ _ hs) fun s hs => drive_stk _ _ hs
theorem execPwrWakeConfig_stk (slot : Fin 16) (s : State) {t : State} (h : s.StkSound) (e : execPwrWakeConfig slot s = .next t) : t.StkSound := by
  unfold execPwrWakeConfig at e
  cases e
  refine command_stk _ _ _ _ _ _ h ?_; intro tag ws s h; first | (simp (maxDischargeDepth := 9) [h]; done) | ((repeat' split) <;> simp (maxDischargeDepth := 9) [h]; done) | (dsimp only; (repeat' split) <;> simp (maxDischargeDepth := 9) [h]; done)
theorem execPwrBootLoad_stk (slot : Fin 16) (s : State) {t : State} (h : s.StkSound) (e : execPwrBootLoad slot s = .next t) : t.StkSound := by
  unfold execPwrBootLoad at e
  cases e
  refine command_stk _ _ _ _ _ _ h ?_; intro tag ws s h; first | (simp (maxDischargeDepth := 9) [h]; done) | ((repeat' split) <;> simp (maxDischargeDepth := 9) [h]; done) | (dsimp only; (repeat' split) <;> simp (maxDischargeDepth := 9) [h]; done)
theorem execPwrBootLoadDone_stk (image : List Byte) (s : State) {t : State} (h : s.StkSound) (e : execPwrBootLoadDone image s = .next t) : t.StkSound := by
  unfold execPwrBootLoadDone at e
  cases e
  (repeat' split) <;> simp (maxDischargeDepth := 9) [h]
@[simp] theorem setChain_stk (k : Nat) (f : Chain → Chain) (s : State) (h : s.StkSound) : (setChain k f s).StkSound := by
  simp (maxDischargeDepth := 9) [setChain, h]
@[simp] theorem awaitReturn_stk (k : Nat) (n : Nat) (s : State) (h : s.StkSound) : (awaitReturn k n s).StkSound := by
  simp (maxDischargeDepth := 9) [awaitReturn, h]
@[simp] theorem lampFrame_stk (k : Nat) (load : Option (List Byte)) (s : State) (h : s.StkSound) : (lampFrame k load s).StkSound := by
  simp (maxDischargeDepth := 9) [lampFrame, h]
@[simp] theorem legacyOff_stk (k : Nat) (s : State) (h : s.StkSound) : (legacyOff k s).StkSound := by
  have h2 : ∀ (c : Prop) [Decidable c] (f : Chain → Chain) o, (if c then setChain k f s else emit o (setChain k f s)).StkSound :=
    fun c _ f o => ite_stk (setChain_stk _ _ _ h) (emit_stk _ _ (setChain_stk _ _ _ h))
  exact ite_stk (h2 _ _ _) (emit_stk _ _ (setChain_stk _ _ _ (h2 _ _ _)))
@[simp] theorem lampOff_stk (k : Nat) (s : State) (h : s.StkSound) : (lampOff k s).StkSound := by
  unfold lampOff; dsimp only; (repeat' split) <;> simp (maxDischargeDepth := 9) [h]
@[simp] theorem lampLoads_stk (g : Nat) (s : State) (h : s.StkSound) : (lampLoads g s).StkSound := by
  unfold lampLoads; refine foldl_stk _ _ _ (by simp (maxDischargeDepth := 9) [h]) ?_; intro s x h; first | (simp (maxDischargeDepth := 9) [h]; done) | ((repeat' split) <;> simp (maxDischargeDepth := 9) [h]; done) | (dsimp only; (repeat' split) <;> simp (maxDischargeDepth := 9) [h]; done)
@[simp] theorem lanternPins_stk (k : Nat) (s : State) (h : s.StkSound) : (lanternPins k s).StkSound := emit_stk _ _ (emit_stk _ _ h)
@[simp] theorem governs_stk (k : Nat) (b : List Byte) (s : State) (h : s.StkSound) : (governs k b s).StkSound := by
  exact ite_stk (lanternPins_stk _ _ (setChain_stk _ _ _ h)) (setChain_stk _ _ _ h)
@[simp] theorem lampSwap_stk (k : Nat) (b : List Byte) (start : Nat) (s : State) (h : s.StkSound) : (lampSwap k b start s).StkSound := by
  exact ite_stk (setChain_stk _ _ _ (governs_stk _ _ _ h)) (lampFrame_stk _ _ _ (emit_stk _ _ (setChain_stk _ _ _ (governs_stk _ _ _ h))))
@[simp] theorem lampCommit_stk (lc : Nat) (g : Nat) (s : State) (h : s.StkSound) : (lampCommit lc g s).StkSound := by
  refine forAll_stk _ _ _ h fun k s hs => ?_
  dsimp only
  split
  · exact hs
  · have h1 : ∀ f, (setChain k f s).StkSound := fun f => setChain_stk _ _ _ hs
    have h2 : ∀ f f', (setChain k f' (setChain k f s)).StkSound := fun f f' => setChain_stk _ _ _ (h1 f)
    exact ite_stk (ite_stk (lampOff_stk _ _ (governs_stk _ _ _ (h2 _ _))) (governs_stk _ _ _ (lampOff_stk _ _ (h2 _ _)))) (h2 _ _)
@[simp] theorem strobe_stk (k : Nat) (light : Int) (s : State) (h : s.StkSound) : (strobe k light s).StkSound := by
  unfold strobe
  extract_lets c on skip s1 pat before after
  have hk : ∀ x, (skip x).StkSound := fun x => stickRec_stk _ _ _ (setChain_stk _ _ _ h)
  have h1 : s1.StkSound := setChain_stk _ _ _ h
  exact ite_stk h (ite_stk (hk _) (ite_stk (hk _) (ite_stk (emit_stk _ _ (setChain_stk _ _ _ h1)) (emit_stk _ _ h1))))
@[simp] theorem strobeAction_stk (k : Nat) (at_ : Int) (s : State) (h : s.StkSound) : (strobeAction k at_ s).StkSound := by
  simp (maxDischargeDepth := 9) [strobeAction, h]
theorem execLegacyStrobeEnd_stk (chain : Fin 2) (s : State) {t : State} (h : s.StkSound) (e : execLegacyStrobeEnd chain s = .next t) : t.StkSound := by
  unfold execLegacyStrobeEnd at e
  cases e
  (repeat' split) <;> simp (maxDischargeDepth := 9) [h]
@[simp] theorem diagAt_stk (k : Nat) (trig : Int) (period : Option Int) (s : State) (h : s.StkSound) : (diagAt k trig period s).StkSound := by
  unfold diagAt; dsimp only; (repeat' split) <;> simp (maxDischargeDepth := 9) [h]
@[simp] theorem lampTrigger_stk (camera : Nat) (at_ : Int) (start : Nat) (newFrame : Bool) (index : Nat) (period : Option Int) (s : State) (h : s.StkSound) : (lampTrigger camera at_ start newFrame index period s).StkSound := by
  unfold lampTrigger; refine foldl_stk _ _ _ (by simp (maxDischargeDepth := 9) [h]) ?_; intro s x h; first | (simp (maxDischargeDepth := 9) [h]; done) | ((repeat' split) <;> simp (maxDischargeDepth := 9) [h]; done) | (dsimp only; (repeat' split) <;> simp (maxDischargeDepth := 9) [h]; done)
theorem execLampStatusFrame_stk (chain : Fin 2) (s : State) {t : State} (h : s.StkSound) (e : execLampStatusFrame chain s = .next t) : t.StkSound := by
  unfold execLampStatusFrame at e
  cases e
  (repeat' split) <;> simp (maxDischargeDepth := 9) [h]
@[simp] theorem takeDriver_stk (k : Nat) (d : Nat) (st : List Byte) (s : State) (h : s.StkSound) : (takeDriver k d st s).StkSound := by
  unfold takeDriver; dsimp only; (repeat' split) <;> simp (maxDischargeDepth := 9) [h]
@[simp] theorem chainBroken_stk (k : Nat) (seen : Nat) (s : State) (h : s.StkSound) : (chainBroken k seen s).StkSound := by
  simp (maxDischargeDepth := 9) [chainBroken, h]
theorem execLanternReturnRx_stk (chain : Fin 2) (hd : Byte) (seen : Byte) (statuses : List (List Byte)) (s : State) {t : State} (h : s.StkSound)
    (e : execLanternReturnRx chain hd seen statuses s = .next t) : t.StkSound := by
  unfold execLanternReturnRx at e
  cases e
  have h1 : ∀ f, (setChain chain f s).StkSound := fun f => setChain_stk _ _ _ h
  refine ite_stk h (ite_stk (chainBroken_stk _ _ _ (h1 _)) ?_)
  have h2 : ∀ f n, ((List.range n).foldl (fun s d => takeDriver chain d (cell statuses d []) s) (setChain chain f s)).StkSound :=
    fun f n => foldl_stk _ _ _ (h1 f) fun s d hs => takeDriver_stk _ _ _ _ hs
  extract_lets s2 c derating m s3
  have h3 : s3.StkSound := setChain_stk _ _ _ (h2 _ _)
  exact ite_stk (stickRec_stk _ _ _ h3) h3
theorem execLanternReturnTimeout_stk (chain : Fin 2) (s : State) {t : State} (h : s.StkSound) (e : execLanternReturnTimeout chain s = .next t) : t.StkSound := by
  unfold execLanternReturnTimeout at e
  cases e
  split
  · exact ite_stk (chainBroken_stk _ _ _ (setChain_stk _ _ _ h)) h
  · exact h
theorem execLampGetStatus_stk (slot : Fin 16) (s : State) {t : State} (h : s.StkSound) (e : execLampGetStatus slot s = .next t) : t.StkSound := by
  unfold execLampGetStatus at e
  cases e
  refine command_stk _ _ _ _ _ _ h ?_; intro tag ws s h; first | (simp (maxDischargeDepth := 9) [h]; done) | ((repeat' split) <;> simp (maxDischargeDepth := 9) [h]; done) | (dsimp only; (repeat' split) <;> simp (maxDischargeDepth := 9) [h]; done)
theorem execLampDiagNow_stk (slot : Fin 16) (s : State) {t : State} (h : s.StkSound) (e : execLampDiagNow slot s = .next t) : t.StkSound := by
  unfold execLampDiagNow at e
  cases e
  refine command_stk _ _ _ _ _ _ h ?_; intro tag ws s h; first | (simp (maxDischargeDepth := 9) [h]; done) | ((repeat' split) <;> simp (maxDischargeDepth := 9) [h]; done) | (dsimp only; (repeat' split) <;> simp (maxDischargeDepth := 9) [h]; done)
theorem execLampReadDrivers_stk (slot : Fin 16) (s : State) {t : State} (h : s.StkSound) (e : execLampReadDrivers slot s = .next t) : t.StkSound := by
  unfold execLampReadDrivers at e
  cases e
  refine command_stk _ _ _ _ _ _ h ?_; intro tag ws s h; first | (simp (maxDischargeDepth := 9) [h]; done) | ((repeat' split) <;> simp (maxDischargeDepth := 9) [h]; done) | (dsimp only; (repeat' split) <;> simp (maxDischargeDepth := 9) [h]; done)
@[simp] theorem setCam_stk (k : Nat) (f : Cam → Cam) (s : State) (h : s.StkSound) : (setCam k f s).StkSound := by
  simp (maxDischargeDepth := 9) [setCam, h]
@[simp] theorem shareSample_stk (x : Int) (pitch : Nat) (lines : List Nat) (a : Nat) (e : Nat) (t : Nat) (page : Nat × Word) (s : State) (h : s.StkSound) : (shareSample x pitch lines a e t page s).StkSound := by
  unfold shareSample; dsimp only; (repeat' split) <;> simp (maxDischargeDepth := 9) [h]
@[simp] theorem sampleLine_stk (x : Measured) (i : Nat) (v : List Nat) (t : List Nat) (prev : List Nat) (s : State) (h : s.StkSound) : (sampleLine x i v t prev s).StkSound := by
  unfold sampleLine
  extract_lets
  refine foldl_stk _ _ _ h ?_
  intro s x hs
  obtain ⟨vp, p⟩ := x
  dsimp only
  generalize hg : (Bool.and _ _) = g
  split
  · exact shareSample_stk _ _ _ _ _ _ _ _ hs
  · exact hs
@[simp] theorem calLine_stk (x : Measured) (i : Nat) (s : State) (h : s.StkSound) : (calLine x i s).StkSound := by
  unfold calLine; dsimp only; (repeat' split) <;> simp (maxDischargeDepth := 9) [h]
@[simp] theorem measureMark_stk (x : Measured) (s : State) (k : Mark) (h : s.StkSound) : (measureMark x s k).StkSound := by
  unfold measureMark; dsimp only; (repeat' split) <;> simp (maxDischargeDepth := 9) [h]
@[simp] theorem measureMarks_stk (x : Measured) (s : State) (h : s.StkSound) : (measureMarks x s).StkSound := by
  unfold measureMarks; refine foldl_stk _ _ _ (by simp (maxDischargeDepth := 9) [h]) ?_; intro s x h; first | (simp (maxDischargeDepth := 9) [h]; done) | ((repeat' split) <;> simp (maxDischargeDepth := 9) [h]; done) | (dsimp only; (repeat' split) <;> simp (maxDischargeDepth := 9) [h]; done)
@[simp] theorem calFrame_stk (x : Measured) (s : State) (h : s.StkSound) : (calFrame x s).StkSound := by
  exact (measureMarks_stk x _ (foldl_stk _ _ _ h fun s i hs => calLine_stk _ _ _ hs) :
    (measureMarks x ((List.range x.frame.n).foldl (fun s i => calLine x i s) s)).StkSound)
@[simp] theorem clearSums_stk (mods : List Nat) (s : State) (h : s.StkSound) : (clearSums mods s).StkSound := by
  unfold clearSums; (repeat' split) <;> simp (maxDischargeDepth := 9) [h]
@[simp] theorem setQual_stk (uid : Nat) (k : Nat) (f : QualAcc → QualAcc) (s : State) (h : s.StkSound) : (setQual uid k f s).StkSound := by
  simp (maxDischargeDepth := 9) [setQual, h]
@[simp] theorem notInspect_stk (k : Nat) (a : Nat) (b : Nat) (s : State) (h : s.StkSound) : (notInspect k a b s).StkSound := by
  unfold notInspect; refine foldl_stk _ _ _ (by simp (maxDischargeDepth := 9) [h]) ?_; intro s x h; first | (simp (maxDischargeDepth := 9) [h]; done) | ((repeat' split) <;> simp (maxDischargeDepth := 9) [h]; done) | (dsimp only; (repeat' split) <;> simp (maxDischargeDepth := 9) [h]; done)
@[simp] theorem qualityRecord_stk (cams : BitVec 4) (p : Page) (s : State) (h : s.StkSound) : (qualityRecord cams p s).StkSound := by
  unfold qualityRecord; (repeat' split) <;> simp (maxDischargeDepth := 9) [h]
@[simp] theorem qualitiesFor_stk (left : Option Nat) (s : State) (h : s.StkSound) : (qualitiesFor left s).StkSound := by
  exact recordsDue_stk _ (foldl_stk _ _ _ h fun s p hs => qualityRecord_stk _ _ _ hs)
@[simp] theorem qualitiesDue_stk (s : State) (h : s.StkSound) : (qualitiesDue s).StkSound := by
  exact qualitiesFor_stk _ _ h
@[simp] theorem reportPages_stk (k : Nat) (E : Nat) (s : State) (h : s.StkSound) : (reportPages k E s).StkSound := by
  simp (maxDischargeDepth := 9) [reportPages, h]
@[simp] theorem writeStats_stk (k : Nat) (f : CamFrame) (dropped : Bool) (st : FrameStats) (s : State) (h : s.StkSound) : (writeStats k f dropped st s).StkSound := by
  unfold writeStats; (repeat' split) <;> simp (maxDischargeDepth := 9) [h]
@[simp] theorem dropFrame_stk (k : Nat) (f : CamFrame) (s : State) (h : s.StkSound) : (dropFrame k f s).StkSound := by
  unfold dropFrame
  extract_lets a b s1 s2 s3
  have h2 : s2.StkSound := stickEvent_stk _ _ _ (setCam_stk _ _ _ h)
  have h3 : s3.StkSound := foldl_stk _ _ _ (notInspect_stk _ _ _ _ h2) fun s p hs => setQual_stk _ _ _ _ hs
  exact reportPages_stk _ _ _ (writeStats_stk _ _ _ _ _ h3)
@[simp] theorem beginFill_stk (k : Nat) (t : CamTrig) (s : State) (h : s.StkSound) : (beginFill k t s).StkSound := by
  unfold beginFill; dsimp only; (repeat' split) <;> simp (maxDischargeDepth := 9) [h]
@[simp] theorem endFill_stk (k : Nat) (b : Nat) (deadline : Nat) (s : State) (h : s.StkSound) : (endFill k b deadline s).StkSound := by
  unfold endFill; dsimp only; (repeat' split) <;> simp (maxDischargeDepth := 9) [h]
@[simp] theorem takeLine_stk (k : Nat) (data : Option (List (List Nat))) (s : State) (h : s.StkSound) : (takeLine k data s).StkSound := by
  unfold takeLine; dsimp only; (repeat' split) <;> simp (maxDischargeDepth := 9) [h]
@[simp] theorem sendEntry_stk (k : Nat) (e : ExpSet) (w : Word × Word) (s : State) (h : s.StkSound) : (sendEntry k e w s).StkSound := by
  simp (maxDischargeDepth := 9) [sendEntry, h]
@[simp] theorem abandonSets_stk (k : Nat) (which : ExpSet → Bool) (status : Nat) (s : State) (h : s.StkSound) : (abandonSets k which status s).StkSound := by
  unfold abandonSets; refine foldl_stk _ _ _ (by simp (maxDischargeDepth := 9) [h]) ?_; intro s x h; first | (simp (maxDischargeDepth := 9) [h]; done) | ((repeat' split) <;> simp (maxDischargeDepth := 9) [h]; done) | (dsimp only; (repeat' split) <;> simp (maxDischargeDepth := 9) [h]; done)
@[simp] theorem openScripts_stk (k : Nat) (atStart : Bool) (s : State) (h : s.StkSound) : (openScripts k atStart s).StkSound := by
  unfold openScripts; (repeat' split) <;> simp (maxDischargeDepth := 9) [h]
@[simp] theorem startSets_stk (k : Nat) (atStart : Bool) (fuel : Nat) (s : State) (h : s.StkSound) : (startSets k atStart fuel s).StkSound := by
  induction fuel generalizing s with
  | zero => exact h
  | succ n ih =>
    unfold startSets
    dsimp only
    refine ite_stk h ?_
    split
    · exact h
    · refine ite_stk h ?_
      split
      · exact ih _ (setCam_stk _ _ _ h)
      · exact sendEntry_stk _ _ _ _ (setCam_stk _ _ _ h)
@[simp] theorem startSet_stk (k : Nat) (atStart : Bool) (s : State) (h : s.StkSound) : (startSet k atStart s).StkSound := by
  exact startSets_stk _ _ _ _ (openScripts_stk _ _ _ h)
@[simp] theorem lateSets_stk (k : Nat) (s : State) (h : s.StkSound) : (lateSets k s).StkSound := by
  unfold lateSets; refine foldl_stk _ _ _ (by simp (maxDischargeDepth := 9) [h]) ?_; intro s x h; first | (simp (maxDischargeDepth := 9) [h]; done) | ((repeat' split) <;> simp (maxDischargeDepth := 9) [h]; done) | (dsimp only; (repeat' split) <;> simp (maxDischargeDepth := 9) [h]; done)
@[simp] theorem applySets_stk (k : Nat) (index : Word) (epoch : Word) (s : State) (h : s.StkSound) : (applySets k index epoch s).StkSound := by
  unfold applySets; refine foldl_stk _ _ _ (by simp (maxDischargeDepth := 9) [h]) ?_; intro s x h; first | (simp (maxDischargeDepth := 9) [h]; done) | ((repeat' split) <;> simp (maxDischargeDepth := 9) [h]; done) | (dsimp only; (repeat' split) <;> simp (maxDischargeDepth := 9) [h]; done)
@[simp] theorem runXfer_stk (j : XferJob) (s : State) (h : s.StkSound) : (runXfer j s).StkSound := by
  unfold runXfer; (repeat' split) <;> simp (maxDischargeDepth := 9) [h]
@[simp] theorem turnXfer_stk (k : Nat) (s : State) (h : s.StkSound) : (turnXfer k s).StkSound := by
  unfold turnXfer; (repeat' split) <;> simp (maxDischargeDepth := 9) [h]
theorem execI2cWriteDone_stk (camera : Fin 4) (ack : Bool) (s : State) {t : State} (h : s.StkSound) (e : execI2cWriteDone camera ack s = .next t) : t.StkSound := by
  unfold execI2cWriteDone at e
  cases e
  dsimp only; (repeat' split) <;> simp (maxDischargeDepth := 9) [h]
@[simp] theorem armCam_stk (k : Nat) (s : State) (h : s.StkSound) : (armCam k s).StkSound := by
  unfold armCam; dsimp only; (repeat' split) <;> simp (maxDischargeDepth := 9) [h]
@[simp] theorem cutFrame_stk (k : Nat) (s : State) (h : s.StkSound) : (cutFrame k s).StkSound := by
  unfold cutFrame; dsimp only; (repeat' split) <;> simp (maxDischargeDepth := 9) [h]
@[simp] theorem beginSeg_stk (k : Nat) (g : CamSeg) (s : State) (h : s.StkSound) : (beginSeg k g s).StkSound := by
  unfold beginSeg; dsimp only; (repeat' split) <;> simp (maxDischargeDepth := 9) [h]
@[simp] theorem nextSeg_stk (k : Nat) (s : State) (h : s.StkSound) : (nextSeg k s).StkSound := by
  unfold nextSeg; dsimp only; (repeat' split) <;> simp (maxDischargeDepth := 9) [h]
@[simp] theorem beginFrame_stk (k : Nat) (g : CamSeg) (j : Nat) (s : State) (h : s.StkSound) : (beginFrame k g j s).StkSound := by
  unfold beginFrame; dsimp only; (repeat' split) <;> simp (maxDischargeDepth := 9) [h]
@[simp] theorem camTrigger_stk (k clocks : Nat) (s : State) (h : s.StkSound) : (camTrigger k clocks s).StkSound := by
  unfold camTrigger
  split
  · exact h
  · rename_i g _
    extract_lets j fl first s1 c period now t s2 s3
    have h1 : s1.StkSound := ite_stk (beginFrame_stk _ _ _ _ h) h
    have h2 : s2.StkSound := setCam_stk _ _ _ h1
    have h3 : s3.StkSound := emit_stk _ _ h2
    exact lampTrigger_stk _ _ _ _ _ _ _ h3
@[simp] theorem camFire_stk (k clocks : Nat) (s : State) (h : s.StkSound) : (camFire k clocks s).StkSound := by
  unfold camFire
  extract_lets count fired here s1
  have hf : ∀ t : State, t.StkSound → (fired t).StkSound := fun t ht => withPos_stk ht _
  have h1 : s1.StkSound := ite_stk (withPos_stk (nextSeg_stk _ _ h) _) (hf _ (camTrigger_stk _ _ _ h))
  clear_value s1 fired
  split
  · exact ite_stk (armCam_stk _ _ (hf _ (camTrigger_stk _ _ _ h1))) (armCam_stk _ _ h1)
  · exact armCam_stk _ _ h1
@[simp] theorem camCommit_stk (lc : Nat) (base : Nat) (epoch : Word) (k : Nat) (s : State) (h : s.StkSound) : (camCommit lc base epoch k s).StkSound := by
  unfold camCommit; dsimp only; (repeat' split) <;> simp (maxDischargeDepth := 9) [h]
@[simp] theorem rearm_stk (k : Nat) (s : State) (h : s.StkSound) : (rearm k s).StkSound := by
  unfold rearm; (repeat' split) <;> simp (maxDischargeDepth := 9) [h]
@[simp] theorem camLock_stk (g : Nat) (s : State) (h : s.StkSound) : (camLock g s).StkSound := by
  unfold camLock; refine foldl_stk _ _ _ (by simp (maxDischargeDepth := 9) [h]) ?_; intro s x h; first | (simp (maxDischargeDepth := 9) [h]; done) | ((repeat' split) <;> simp (maxDischargeDepth := 9) [h]; done) | (dsimp only; (repeat' split) <;> simp (maxDischargeDepth := 9) [h]; done)
@[simp] theorem lineGood_stk (k : Nat) (t : CamTrig) (s : State) (h : s.StkSound) : (lineGood k t s).StkSound := by
  unfold lineGood; dsimp only; (repeat' split) <;> simp (maxDischargeDepth := 9) [h]
@[simp] theorem lineMissing_stk (k : Nat) (t : CamTrig) (s : State) (h : s.StkSound) : (lineMissing k t s).StkSound := by
  unfold lineMissing; dsimp only; (repeat' split) <;> simp (maxDischargeDepth := 9) [h]
@[simp] theorem countPackets_stk (k : Nat) (ps : List CsiPacket) (s : State) (h : s.StkSound) : (countPackets k ps s).StkSound := by
  simp (maxDischargeDepth := 9) [countPackets, h]
theorem execCsiLineRx_stk (camera : Fin 4) (vc : Fin 4) (early : Bool) (packets : List CsiPacket) (s : State) {t : State} (h : s.StkSound) (e : execCsiLineRx camera vc early packets s = .next t) : t.StkSound := by
  unfold execCsiLineRx at e
  cases e
  dsimp only; (repeat' split) <;> simp (maxDischargeDepth := 9) [h]
theorem execCameraLineTimeout_stk (camera : Fin 4) (s : State) {t : State} (h : s.StkSound) (e : execCameraLineTimeout camera s = .next t) : t.StkSound := by
  unfold execCameraLineTimeout at e
  cases e
  (repeat' split) <;> simp (maxDischargeDepth := 9) [h]
theorem execOpalFrameStart_stk (s : State) {t : State} (h : s.StkSound) (e : execOpalFrameStart s = .next t) : t.StkSound := by
  unfold execOpalFrameStart at e
  cases e
  (repeat' split) <;> simp (maxDischargeDepth := 9) [h]
@[simp] theorem captureDone_stk (k : Nat) (f : CamFrame) (out : List (Option (List (List Nat)))) (s : State) (h : s.StkSound) : (captureDone k f out s).StkSound := by
  unfold captureDone; (repeat' split) <;> simp (maxDischargeDepth := 9) [h]
@[simp] theorem framePages_stk (k : Nat) (f : CamFrame) (meas : List (Option (List Nat))) (st : FrameStats) (s : State) (h : s.StkSound) : (framePages k f meas st s).StkSound := by
  unfold framePages; refine foldl_stk _ _ _ (by simp (maxDischargeDepth := 9) [h]) ?_; intro s x h; first | (simp (maxDischargeDepth := 9) [h]; done) | ((repeat' split) <;> simp (maxDischargeDepth := 9) [h]; done) | (dsimp only; (repeat' split) <;> simp (maxDischargeDepth := 9) [h]; done)
@[simp] theorem noteHold_stk (k : Nat) (f : CamFrame) (s : State) (h : s.StkSound) : (noteHold k f s).StkSound := by
  unfold noteHold
  extract_lets e
  split
  · exact stickRec_stk _ _ _ h
  · exact foldl_stk _ _ _ h fun s p hs => oncePerPage_stk _ _ _ _ _ hs
@[simp] theorem finishFrame_stk (k : Nat) (b : Nat) (f : CamFrame) (s : State) (h : s.StkSound) : (finishFrame k b f s).StkSound := by
  unfold finishFrame; dsimp only; (repeat' split) <;> simp (maxDischargeDepth := 9) [h]
theorem execOpalFrameDone_stk (s : State) {t : State} (h : s.StkSound) (e : execOpalFrameDone s = .next t) : t.StkSound := by
  unfold execOpalFrameDone at e
  cases e
  (repeat' split) <;> simp (maxDischargeDepth := 9) [h]
theorem execInspGetStatus_stk (slot : Fin 16) (s : State) {t : State} (h : s.StkSound) (e : execInspGetStatus slot s = .next t) : t.StkSound := by
  unfold execInspGetStatus at e
  cases e
  refine command_stk _ _ _ _ _ _ h ?_; intro tag ws s h; first | (simp (maxDischargeDepth := 9) [h]; done) | ((repeat' split) <;> simp (maxDischargeDepth := 9) [h]; done) | (dsimp only; (repeat' split) <;> simp (maxDischargeDepth := 9) [h]; done)
theorem execInspRingConfig_stk (slot : Fin 16) (s : State) {t : State} (h : s.StkSound) (e : execInspRingConfig slot s = .next t) : t.StkSound := by
  unfold execInspRingConfig at e
  cases e
  refine command_stk _ _ _ _ _ _ h ?_; intro tag ws s h; first | (simp (maxDischargeDepth := 9) [h]; done) | ((repeat' split) <;> simp (maxDischargeDepth := 9) [h]; done) | (dsimp only; (repeat' split) <;> simp (maxDischargeDepth := 9) [h]; done)
theorem execInspSetExposure_stk (slot : Fin 16) (s : State) {t : State} (h : s.StkSound) (e : execInspSetExposure slot s = .next t) : t.StkSound := by
  unfold execInspSetExposure at e
  cases e
  refine command_stk _ _ _ _ _ _ h ?_; intro tag ws s h; first | (simp (maxDischargeDepth := 9) [h]; done) | ((repeat' split) <;> simp (maxDischargeDepth := 9) [h]; done) | (dsimp only; (repeat' split) <;> simp (maxDischargeDepth := 9) [h]; done)
theorem execInspI2cXfer_stk (slot : Fin 16) (reason : Fin 4) (bytes : List Byte) (s : State) {t : State} (h : s.StkSound) (e : execInspI2cXfer slot reason bytes s = .next t) : t.StkSound := by
  unfold execInspI2cXfer at e
  cases e
  refine command_stk _ _ _ _ _ _ h ?_; intro tag ws s h; first | (simp (maxDischargeDepth := 9) [h]; done) | ((repeat' split) <;> simp (maxDischargeDepth := 9) [h]; done) | (dsimp only; (repeat' split) <;> simp (maxDischargeDepth := 9) [h]; done)
theorem execInspCapture_stk (slot : Fin 16) (s : State) {t : State} (h : s.StkSound) (e : execInspCapture slot s = .next t) : t.StkSound := by
  unfold execInspCapture at e
  cases e
  refine command_stk _ _ _ _ _ _ h ?_; intro tag ws s h; first | (simp (maxDischargeDepth := 9) [h]; done) | ((repeat' split) <;> simp (maxDischargeDepth := 9) [h]; done) | (dsimp only; (repeat' split) <;> simp (maxDischargeDepth := 9) [h]; done)
@[simp] theorem calEvent_stk (e : Event) (s : State) (h : s.StkSound) : (calEvent e s).StkSound := by
  simp (maxDischargeDepth := 9) [calEvent, h]
@[simp] theorem calStickEvent_stk (k : Sticky) (e : Event) (s : State) (h : s.StkSound) : (calStickEvent k e s).StkSound := by
  simp (maxDischargeDepth := 9) [calStickEvent, h]
@[simp] theorem discardResult_stk (s : State) (h : s.StkSound) : (discardResult s).StkSound := by
  simp (maxDischargeDepth := 9) [discardResult, h]
@[simp] theorem discardIf_stk (mods : List Nat) (s : State) (h : s.StkSound) : (discardIf mods s).StkSound := by
  unfold discardIf; (repeat' split) <;> simp (maxDischargeDepth := 9) [h]
@[simp] theorem calCommit_stk (objs : List Obj) (lc : Nat) (s : State) (h : s.StkSound) : (calCommit objs lc s).StkSound := by
  simp (maxDischargeDepth := 9) [calCommit, h]
theorem execCalSolveStart_stk (s : State) {t : State} (h : s.StkSound) (e : execCalSolveStart s = .next t) : t.StkSound := by
  unfold execCalSolveStart at e
  cases e
  (repeat' split) <;> simp (maxDischargeDepth := 9) [h]
@[simp] theorem endSolve_stk (run : Option Word × BitVec 16) (reason : Nat) (s : State) (h : s.StkSound) : (endSolve run reason s).StkSound := by
  unfold endSolve; (repeat' split) <;> simp (maxDischargeDepth := 9) [h]
theorem execCalSolveDone_stk (s : State) {t : State} (h : s.StkSound) (e : execCalSolveDone s = .next t) : t.StkSound := by
  unfold execCalSolveDone at e
  cases e
  split
  · have h1 : ∀ (l : List Nat) (f : Nat → Event), (l.foldl (fun s m => calStickEvent .moduleOutlier (f m) s) s).StkSound :=
      fun l f => foldl_stk _ _ _ h fun s m hs => calStickEvent_stk _ _ _ hs
    extract_lets bank mods fits outs s1 reason cols found s2 s3
    have hs1 : s1.StkSound := h1 _ _
    have hs2 : s2.StkSound := foldl_stk _ _ _ hs1 fun s m hs => calStickEvent_stk _ _ _ hs
    have hs3 : s3.StkSound := by
      show (if found.full then stickRec .pendingFull s2 else s2).StkSound
      split
      · exact stickRec_stk _ _ _ hs2
      · exact hs2
    split
    · exact endSolve_stk _ _ _ hs1
    · dsimp only
      split
      · exact endSolve_stk _ _ _ hs3
      · split
        · exact complete_stk _ _ _ _ _ _ _ (calEvent_stk _ _ hs3)
        · exact calEvent_stk _ _ hs3
  · exact h
theorem execCalGetStatus_stk (slot : Fin 16) (s : State) {t : State} (h : s.StkSound) (e : execCalGetStatus slot s = .next t) : t.StkSound := by
  unfold execCalGetStatus at e
  cases e
  refine command_stk _ _ _ _ _ _ h ?_; intro tag ws s h; first | (simp (maxDischargeDepth := 9) [h]; done) | ((repeat' split) <;> simp (maxDischargeDepth := 9) [h]; done) | (dsimp only; (repeat' split) <;> simp (maxDischargeDepth := 9) [h]; done)
theorem execCalConfig_stk (slot : Fin 16) (s : State) {t : State} (h : s.StkSound) (e : execCalConfig slot s = .next t) : t.StkSound := by
  unfold execCalConfig at e
  cases e
  refine command_stk _ _ _ _ _ _ h ?_; intro tag ws s h; first | (simp (maxDischargeDepth := 9) [h]; done) | ((repeat' split) <;> simp (maxDischargeDepth := 9) [h]; done) | (dsimp only; (repeat' split) <;> simp (maxDischargeDepth := 9) [h]; done)
theorem execCalRun_stk (slot : Fin 16) (s : State) {t : State} (h : s.StkSound) (e : execCalRun slot s = .next t) : t.StkSound := by
  unfold execCalRun at e
  cases e
  refine command_stk _ _ _ _ _ _ h ?_; intro tag ws s h; first | (simp (maxDischargeDepth := 9) [h]; done) | ((repeat' split) <;> simp (maxDischargeDepth := 9) [h]; done) | (dsimp only; (repeat' split) <;> simp (maxDischargeDepth := 9) [h]; done)
theorem execCalExport_stk (slot : Fin 16) (s : State) {t : State} (h : s.StkSound) (e : execCalExport slot s = .next t) : t.StkSound := by
  unfold execCalExport at e
  cases e
  refine command_stk _ _ _ _ _ _ h ?_; intro tag ws s h; first | (simp (maxDischargeDepth := 9) [h]; done) | ((repeat' split) <;> simp (maxDischargeDepth := 9) [h]; done) | (dsimp only; (repeat' split) <;> simp (maxDischargeDepth := 9) [h]; done)
theorem execCalExportDone_stk (written : Bool) (s : State) {t : State} (h : s.StkSound) (e : execCalExportDone written s = .next t) : t.StkSound := by
  unfold execCalExportDone at e
  cases e
  (repeat' split) <;> simp (maxDischargeDepth := 9) [h]
theorem execCalDiscard_stk (slot : Fin 16) (s : State) {t : State} (h : s.StkSound) (e : execCalDiscard slot s = .next t) : t.StkSound := by
  unfold execCalDiscard at e
  cases e
  refine command_stk _ _ _ _ _ _ h ?_; intro tag ws s h; first | (simp (maxDischargeDepth := 9) [h]; done) | ((repeat' split) <;> simp (maxDischargeDepth := 9) [h]; done) | (dsimp only; (repeat' split) <;> simp (maxDischargeDepth := 9) [h]; done)
theorem execCalClear_stk (slot : Fin 16) (s : State) {t : State} (h : s.StkSound) (e : execCalClear slot s = .next t) : t.StkSound := by
  unfold execCalClear at e
  cases e
  refine command_stk _ _ _ _ _ _ h ?_; intro tag ws s h; first | (simp (maxDischargeDepth := 9) [h]; done) | ((repeat' split) <;> simp (maxDischargeDepth := 9) [h]; done) | (dsimp only; (repeat' split) <;> simp (maxDischargeDepth := 9) [h]; done)
@[simp] theorem capture_stk (source : Nat) (n : Nat) (pos : BitVec 50) (s : State) (h : s.StkSound) : (capture source n pos s).StkSound := by
  unfold capture; (repeat' split) <;> simp (maxDischargeDepth := 9) [h]
@[simp] theorem doAction_stk (action : Nat) (pin : Nat) (width : Nat) (source : Nat) (n : Nat) (pos : BitVec 50) (s : State) (h : s.StkSound) : (doAction action pin width source n pos s).StkSound := by
  unfold doAction; (repeat' split) <;> simp (maxDischargeDepth := 9) [h]
@[simp] theorem setCmp_stk (n : Nat) (f : Cmp → Cmp) (s : State) (h : s.StkSound) : (setCmp n f s).StkSound := by
  simp (maxDischargeDepth := 9) [setCmp, h]
@[simp] theorem lateTest_stk (n : Nat) (s : State) (h : s.StkSound) : (lateTest n s).StkSound := by
  unfold lateTest; dsimp only; (repeat' split) <;> simp (maxDischargeDepth := 9) [h]
@[simp] theorem cmpFire_stk (n : Nat) (s : State) (h : s.StkSound) : (cmpFire n s).StkSound := by
  unfold cmpFire; dsimp only; (repeat' split) <;> simp (maxDischargeDepth := 9) [h]
@[simp] theorem fireOne_stk (n : Nat) (s : State) (h : s.StkSound) : (fireOne n s).StkSound := by
  exact ite_stk h (ite_stk (camFire_stk _ _ _ (setCmp_stk _ _ _ h)) (cmpFire_stk _ _ h))
@[simp] theorem fireDue_stk (s : State) (h : s.StkSound) : (fireDue s).StkSound := by
  exact foldl_stk _ _ _ h fun s n hs => fireOne_stk _ _ hs
theorem execComparatorFire_stk (cmp : Fin 24) (samples : Samples) (s : State) {t : State} (h : s.StkSound) (e : execComparatorFire cmp samples s = .next t) : t.StkSound := by
  unfold execComparatorFire at e
  cases e
  have h1 : (mainUpdate (advance samples s)).StkSound := mainUpdate_stk _ (advance_stk _ _ h)
  exact ite_stk h1 (fireOne_stk _ _ h1)
@[simp] theorem rebaseCmps_stk (lc : Int) (epoch : Word) (s : State) (h : s.StkSound) : (rebaseCmps lc epoch s).StkSound := by
  unfold rebaseCmps; refine foldl_stk _ _ _ (by simp (maxDischargeDepth := 9) [h]) ?_; intro s x h; first | (simp (maxDischargeDepth := 9) [h]; done) | ((repeat' split) <;> simp (maxDischargeDepth := 9) [h]; done) | (dsimp only; (repeat' split) <;> simp (maxDischargeDepth := 9) [h]; done)
theorem execPosCmpArm_stk (slot : Fin 16) (s : State) {t : State} (h : s.StkSound) (e : execPosCmpArm slot s = .next t) : t.StkSound := by
  unfold execPosCmpArm at e
  cases e
  refine command_stk _ _ _ _ _ _ h fun tag ws s h => ?_
  rw [done_fst]
  exact lateTest_stk _ _ (setCmp_stk _ _ _ (fireOne_stk _ _ h))
theorem execPosCmpDisarm_stk (slot : Fin 16) (s : State) {t : State} (h : s.StkSound) (e : execPosCmpDisarm slot s = .next t) : t.StkSound := by
  unfold execPosCmpDisarm at e
  cases e
  refine command_stk _ _ _ _ _ _ h fun tag ws s h => ?_
  rw [done_fst]
  exact setCmp_stk _ _ _ (fireOne_stk _ _ h)
theorem execPosCaptureRead_stk (slot : Fin 16) (s : State) {t : State} (h : s.StkSound) (e : execPosCaptureRead slot s = .next t) : t.StkSound := by
  unfold execPosCaptureRead at e
  cases e
  refine command_stk _ _ _ _ _ _ h ?_; intro tag ws s h; first | (simp (maxDischargeDepth := 9) [h]; done) | ((repeat' split) <;> simp (maxDischargeDepth := 9) [h]; done) | (dsimp only; (repeat' split) <;> simp (maxDischargeDepth := 9) [h]; done)
@[simp] theorem setTimer_stk (t : Nat) (f : Timer → Timer) (s : State) (h : s.StkSound) : (setTimer t f s).StkSound := by
  simp (maxDischargeDepth := 9) [setTimer, h]
theorem execTimerFire_stk (timer : Fin 8) (samples : Samples) (s : State) {t : State} (h : s.StkSound) (e : execTimerFire timer samples s = .next t) : t.StkSound := by
  unfold execTimerFire at e
  cases e
  (repeat' split) <;> simp (maxDischargeDepth := 9) [h]
@[simp] theorem timerStep_stk (s : State) (n : Nat) (h : s.StkSound) : (timerStep s n).StkSound := by
  unfold timerStep; dsimp only; (repeat' split) <;> simp (maxDischargeDepth := 9) [h]
theorem execTimeTimerArm_stk (slot : Fin 16) (s : State) {t : State} (h : s.StkSound) (e : execTimeTimerArm slot s = .next t) : t.StkSound := by
  unfold execTimeTimerArm at e
  cases e
  refine command_stk _ _ _ _ _ _ h ?_; intro tag ws s h; first | (simp (maxDischargeDepth := 9) [h]; done) | ((repeat' split) <;> simp (maxDischargeDepth := 9) [h]; done) | (dsimp only; (repeat' split) <;> simp (maxDischargeDepth := 9) [h]; done)
@[simp] theorem abortTimeGroups_stk (s : State) (h : s.StkSound) : (abortTimeGroups s).StkSound := by
  unfold abortTimeGroups; refine foldl_stk _ _ _ (by simp (maxDischargeDepth := 9) [h]) ?_; intro s x h; first | (simp (maxDischargeDepth := 9) [h]; done) | ((repeat' split) <;> simp (maxDischargeDepth := 9) [h]; done) | (dsimp only; (repeat' split) <;> simp (maxDischargeDepth := 9) [h]; done)
@[simp] theorem setTime_stk (new : TimeState) (k : Option Sticky) (s : State) (h : s.StkSound) : (setTime new k s).StkSound := by
  unfold setTime; dsimp only; (repeat' split) <;> simp (maxDischargeDepth := 9) [h]
@[simp] theorem stepNet_stk (delta : Int) (s : State) (h : s.StkSound) : (stepNet delta s).StkSound := by
  unfold stepNet; refine foldl_stk _ _ _ (by simp (maxDischargeDepth := 9) [h]) ?_; intro s x h; first | (simp (maxDischargeDepth := 9) [h]; done) | ((repeat' split) <;> simp (maxDischargeDepth := 9) [h]; done) | (dsimp only; (repeat' split) <;> simp (maxDischargeDepth := 9) [h]; done)
@[simp] theorem slew_stk (s : State) (h : s.StkSound) : (slew s).StkSound := by
  simp (maxDischargeDepth := 9) [slew, h]
@[simp] theorem filtered_stk (o : Int) (s : State) (h : s.StkSound) : (filtered o s).StkSound := by
  unfold filtered; dsimp only; (repeat' split) <;> simp (maxDischargeDepth := 9) [h]
theorem execPtpSyncRx_stk (domain : Byte) (port : Dword) (hdr : PtpHeader) (followUp : Bool) (t1 : Option Dword) (jitter : Int) (s : State) {t : State} (h : s.StkSound) (e : execPtpSyncRx domain port hdr followUp t1 jitter s = .next t) : t.StkSound := by
  unfold execPtpSyncRx at e
  cases e
  (repeat' split) <;> simp (maxDischargeDepth := 9) [h]
theorem execPtpDelayReqTx_stk (seq : Nat) (jitter : Int) (s : State) {t : State} (h : s.StkSound) (e : execPtpDelayReqTx seq jitter s = .next t) : t.StkSound := by
  unfold execPtpDelayReqTx at e
  cases e
  (repeat' split) <;> simp (maxDischargeDepth := 9) [h]
theorem execPtpDelayRespRx_stk (domain : Byte) (source : PtpSource) (seq : Nat) (t4 : Dword) (s : State) {t : State} (h : s.StkSound) (e : execPtpDelayRespRx domain source seq t4 s = .next t) : t.StkSound := by
  unfold execPtpDelayRespRx at e
  cases e
  dsimp only; (repeat' split) <;> simp (maxDischargeDepth := 9) [h]
theorem execPtpAnnounceRx_stk (domain : Byte) (p1 cls acc var p2 : Nat) (gm : Dword) (steps : Nat) (source : PtpSource) (s : State) {t : State} (h : s.StkSound) (e : execPtpAnnounceRx domain p1 cls acc var p2 gm steps source s = .next t) : t.StkSound := by
  unfold execPtpAnnounceRx at e
  cases e
  dsimp only; (repeat' split) <;> simp (maxDischargeDepth := 9) [h]
@[simp] theorem loseMaster_stk (left : List (PtpMaster × Nat)) (s : State) (h : s.StkSound) : (loseMaster left s).StkSound := by
  exact ite_stk (setTime_stk _ _ _ (withPos_stk (withPos_stk h _) _)) (stickRec_stk _ _ _ (withPos_stk h _))
@[simp] theorem forgetMasters_stk (s : State) (h : s.StkSound) : (forgetMasters s).StkSound := by
  exact ite_stk (loseMaster_stk _ _ h) (withPos_stk h _)
theorem execPtpMasterLost_stk (s : State) {t : State} (h : s.StkSound) (e : execPtpMasterLost s = .next t) : t.StkSound := by
  unfold execPtpMasterLost at e
  cases e
  split
  · exact h
  · exact ite_stk h (loseMaster_stk _ _ h)
theorem execHoldoverExpired_stk (s : State) {t : State} (h : s.StkSound) (e : execHoldoverExpired s = .next t) : t.StkSound := by
  unfold execHoldoverExpired at e
  cases e
  (repeat' split) <;> simp (maxDischargeDepth := 9) [h]
theorem execTimeConfig_stk (slot : Fin 16) (s : State) {t : State} (h : s.StkSound) (e : execTimeConfig slot s = .next t) : t.StkSound := by
  unfold execTimeConfig at e
  cases e
  refine command_stk _ _ _ _ _ _ h fun tag ws s h => ?_
  rw [done_fst]
  exact ite_stk (setTime_stk _ _ _ (withPos_stk (withPos_stk h _) _)) (ite_stk (withPos_stk h _) (forgetMasters_stk _ (withPos_stk h _)))
theorem execTimeSet_stk (slot : Fin 16) (s : State) {t : State} (h : s.StkSound) (e : execTimeSet slot s = .next t) : t.StkSound := by
  unfold execTimeSet at e
  cases e
  refine command_stk _ _ _ _ _ _ h ?_; intro tag ws s h; first | (simp (maxDischargeDepth := 9) [h]; done) | ((repeat' split) <;> simp (maxDischargeDepth := 9) [h]; done) | (dsimp only; (repeat' split) <;> simp (maxDischargeDepth := 9) [h]; done)
@[simp] theorem setAbs_stk (k : Nat) (f : AbsPort → AbsPort) (s : State) (h : s.StkSound) : (setAbs k f s).StkSound := by
  simp (maxDischargeDepth := 9) [setAbs, h]
theorem execAbsReadDone_stk (port : Fin 2) (started : Bool) (raw : Nat) (err : Nat) (crcRx : Nat) (s : State) {t : State} (h : s.StkSound) (e : execAbsReadDone port started raw err crcRx s = .next t) : t.StkSound := by
  unfold execAbsReadDone at e
  cases e
  dsimp only; (repeat' split) <;> simp (maxDischargeDepth := 9) [h]
theorem execPosAbsConfig_stk (slot : Fin 16) (s : State) {t : State} (h : s.StkSound) (e : execPosAbsConfig slot s = .next t) : t.StkSound := by
  unfold execPosAbsConfig at e
  cases e
  refine command_stk _ _ _ _ _ _ h ?_; intro tag ws s h; first | (simp (maxDischargeDepth := 9) [h]; done) | ((repeat' split) <;> simp (maxDischargeDepth := 9) [h]; done) | (dsimp only; (repeat' split) <;> simp (maxDischargeDepth := 9) [h]; done)
@[simp] theorem cmpsAt_stk (g lc : Nat) (lock commit : CmpState) (s : State) (h : s.StkSound) : (cmpsAt g lc lock commit s).StkSound := withPos_stk h _
@[simp] theorem lateCmps_stk (g lc : Nat) (s : State) (h : s.StkSound) : (lateCmps g lc s).StkSound := by
  exact endGroupCmps_stk _ _ (lateTest_stk _ _ (lateTest_stk _ _ (cmpsAt_stk _ _ _ _ _ h)))
@[simp] theorem groupCmps_stk (g : Nat) (lock : CmpState) (commit : CmpState) (s : State) (h : s.StkSound) : (groupCmps g lock commit s).StkSound := by
  exact cmpsAt_stk _ _ _ _ _ h
@[simp] theorem resolve_stk (g : Nat) (n : Nat) (s : State) (h : s.StkSound) : (resolve g n s).StkSound := by
  simp (maxDischargeDepth := 9) [resolve, h]
@[simp] theorem sendDecision_stk (g : Nat) (cause : Option Nat) (s : State) (h : s.StkSound) : (sendDecision g cause s).StkSound := by
  unfold sendDecision; (repeat' split) <;> simp (maxDischargeDepth := 9) [h]
@[simp] theorem usedRecords_stk (g : Nat) (s : State) (h : s.StkSound) : (usedRecords g s).StkSound := by
  simp (maxDischargeDepth := 9) [usedRecords, h]
@[simp] theorem missingLoads_stk (g : Nat) (s : State) (h : s.StkSound) : (missingLoads g s).StkSound := by
  unfold missingLoads; (repeat' split) <;> simp (maxDischargeDepth := 9) [h]
@[simp] theorem failLock_stk (g : Nat) (cause : Nat) (s : State) (h : s.StkSound) : (failLock g cause s).StkSound := by
  unfold failLock; (repeat' split) <;> simp (maxDischargeDepth := 9) [h]
@[simp] theorem lockOffsets_stk (g : Nat) (s : State) (h : s.StkSound) : (lockOffsets g s).StkSound := by
  unfold lockOffsets; dsimp only; (repeat' split) <;> simp (maxDischargeDepth := 9) [h]
@[simp] theorem fitSlices_stk (g : Nat) (s : State) (h : s.StkSound) : (fitSlices g s).StkSound := by
  unfold fitSlices; refine foldl_stk _ _ _ (by simp (maxDischargeDepth := 9) [h]) ?_; intro s x h; first | (simp (maxDischargeDepth := 9) [h]; done) | ((repeat' split) <;> simp (maxDischargeDepth := 9) [h]; done) | (dsimp only; (repeat' split) <;> simp (maxDischargeDepth := 9) [h]; done)
@[simp] theorem unstart_stk (lc : Nat) (epoch : Word) (s : State) (h : s.StkSound) : (unstart lc epoch s).StkSound := by
  exact mapPages_stk _ _ _ (ite_stk h h)
@[simp] theorem lockPages_stk (g : Nat) (s : State) (h : s.StkSound) : (lockPages g s).StkSound := by
  unfold lockPages; dsimp only; (repeat' split) <;> simp (maxDischargeDepth := 9) [h]
@[simp] theorem lockGroup_stk (g : Nat) (s : State) (h : s.StkSound) : (lockGroup g s).StkSound := by
  simp (maxDischargeDepth := 9) [lockGroup, h]
@[simp] theorem tryLock_stk (g : Nat) (s : State) (h : s.StkSound) : (tryLock g s).StkSound := by
  unfold tryLock; dsimp only; (repeat' split) <;> simp (maxDischargeDepth := 9) [h]
@[simp] theorem commitBar_stk (objs : List Obj) (s : State) (h : s.StkSound) : (commitBar objs s).StkSound := by
  unfold commitBar
  dsimp only
  split
  · exact h
  · exact forAll_stk _ _ _ h fun n s hs => toDisabled_stk _ _ hs
@[simp] theorem commitLimits_stk (objs : List Obj) (s : State) (h : s.StkSound) : (commitLimits objs s).StkSound := by
  unfold commitLimits; dsimp only; (repeat' split) <;> simp (maxDischargeDepth := 9) [h]
@[simp] theorem endEpochGroups_stk (ended : Word) (lc : Nat) (s : State) (h : s.StkSound) : (endEpochGroups ended lc s).StkSound := by
  unfold endEpochGroups; refine foldl_stk _ _ _ (by simp (maxDischargeDepth := 9) [h]) ?_; intro s x h; first | (simp (maxDischargeDepth := 9) [h]; done) | ((repeat' split) <;> simp (maxDischargeDepth := 9) [h]; done) | (dsimp only; (repeat' split) <;> simp (maxDischargeDepth := 9) [h]; done)
@[simp] theorem renumber_stk (g : Nat) (lc : Nat) (epoch : Word) (s : State) (h : s.StkSound) : (renumber g lc epoch s).StkSound := by
  simp (maxDischargeDepth := 9) [renumber, h]
@[simp] theorem commitEpoch_stk (job : List Byte) (lc : Nat) (moving : Bool) (s : State) (h : s.StkSound) : (commitEpoch job lc moving s).StkSound := by
  unfold commitEpoch
  extract_lets old new line s1 c1 p1 s2 s3 s4 s5
  have h1 : s1.StkSound := endScrJob_stk _ _ h
  have h2 : s2.StkSound := h1
  have h3 : s3.StkSound := rebaseCmps_stk _ _ _ h2
  have h4 : s4.StkSound := forAll_stk _ _ _ h3 fun n s hs => renumber_stk _ _ _ _ hs
  have h5 : s5.StkSound := ite_stk h4 (beginEpochPages_stk _ _ _ _ _ _ _ h4)
  clear_value s5
  exact endEpochGroups_stk _ _ _ (commitEpochPages_stk _ _ _ _ (unstart_stk _ _ _ h5))
@[simp] theorem commitBanks_stk (g : Nat) (s : State) (h : s.StkSound) : (commitBanks g s).StkSound := by
  unfold commitBanks; refine foldl_stk _ _ _ (by simp (maxDischargeDepth := 9) [h]) ?_; intro s x h; first | (simp (maxDischargeDepth := 9) [h]; done) | ((repeat' split) <;> simp (maxDischargeDepth := 9) [h]; done) | (dsimp only; (repeat' split) <;> simp (maxDischargeDepth := 9) [h]; done)
@[simp] theorem commitPending_stk (objs : List Obj) (s : State) (h : s.StkSound) : (commitPending objs s).StkSound := by
  simp (maxDischargeDepth := 9) [commitPending, h]
@[simp] theorem commitPersist_stk (g : Nat) (line : Word) (epoch : Word) (s : State) (h : s.StkSound) : (commitPersist g line epoch s).StkSound := by
  unfold commitPersist; dsimp only; (repeat' split) <;> simp (maxDischargeDepth := 9) [h]
@[simp] theorem finishGroup_stk (g : Nat) (s : State) (h : s.StkSound) : (finishGroup g s).StkSound := by
  unfold finishGroup; dsimp only; (repeat' split) <;> simp (maxDischargeDepth := 9) [h]
@[simp] theorem commitAt_stk (lc : Nat) (moving : Bool) (gs : List Nat) (s : State) (h : s.StkSound) : (commitAt lc moving gs s).StkSound := by
  unfold commitAt
  split
  · exact h
  · extract_lets objs kinds line epoch d s1 c1 s2 s3 s4 s5 s6 i1 s7 s8
    have h1 : s1.StkSound := calCommit_stk _ _ _ h
    have h2 : s2.StkSound := h1
    have h3 : s3.StkSound := commitLimits_stk _ _ (commitBar_stk _ _ h2)
    have h4 : s4.StkSound := by
      unfold s4
      cases objOf objs 2 0 with
      | none => exact h3
      | some job => exact commitEpoch_stk _ _ _ _ h3
    have h5 : s5.StkSound := forAll_stk _ _ _ h4 fun g s hs => lampCommit_stk _ _ _ (switchBanks_stk _ _ (commitBanks_stk _ _ hs))
    have h6 : s6.StkSound := forAll_stk _ _ _ h5 fun g s hs => camCommit_stk _ _ _ _ _ hs
    have h6' : State.StkSound { s6 with insp := { i1 with load := loadWord s6.cg.inForce } } := h6
    have h7 : s7.StkSound := commitPending_stk _ _ h6'
    have h8 : s8.StkSound := forAll_stk _ _ _ h7 fun g s hs => commitPersist_stk _ _ _ _ hs
    exact forAll_stk _ _ _ (recordsDue_stk _ (qualitiesFor_stk _ _ h8)) fun g s hs => finishGroup_stk _ _ hs
@[simp] theorem rebuildJobs_stk (lc : Nat) (s : State) (h : s.StkSound) : (rebuildJobs lc s).StkSound := withScr_stk h _
@[simp] theorem rebuild_stk (lc : Nat) (s : State) (h : s.StkSound) : (rebuild lc s).StkSound := by
  unfold rebuild
  extract_lets below s1 s2
  have h1 : s1.StkSound := forAll_stk _ _ _ h fun m s hs => setSlice_stk _ _ _ (undoLines_stk _ _ _ hs)
  have h2 : s2.StkSound := rebuildJobs_stk _ _ h1
  clear_value s2
  exact h2
@[simp] theorem catchUp_stk (s : State) (h : s.StkSound) : (catchUp s).StkSound := by
  simp (maxDischargeDepth := 9) [catchUp, h]
@[simp] theorem clearCal_stk (g : Nat) (s : State) (h : s.StkSound) : (clearCal g s).StkSound := by
  unfold clearCal
  dsimp only
  split
  · exact h
  · exact forAll_stk _ _ _ h fun g s hs => abortGroupTo_stk _ _ _ _ hs
@[simp] theorem commitStopped_stk (g : Nat) (s : State) (h : s.StkSound) : (commitStopped g s).StkSound := by
  unfold commitStopped
  dsimp only
  have h1 : (tryLock g (resolve g 1 s)).StkSound := tryLock_stk _ _ (resolve_stk _ _ _ h)
  exact ite_stk (catchUp_stk _ (rebuild_stk _ _ (commitAt_stk _ _ _ _ h1))) (ite_stk (endGroupCmps_stk _ _ (setGroup_stk _ _ _ h1)) h1)
@[simp] theorem loadsReady_stk (g : Nat) (s : State) (h : s.StkSound) : (loadsReady g s).StkSound := by
  exact ite_stk (clearCal_stk _ _ (resolve_stk _ _ _ h)) (commitStopped_stk _ _ h)
@[simp] theorem stopFiring_stk (s : State) (h : s.StkSound) : (stopFiring s).StkSound := by
  simp (maxDischargeDepth := 9) [stopFiring, h]
@[simp] theorem opReqStep_stk (s : State) (h : s.StkSound) : (opReqStep s).StkSound := by
  unfold opReqStep; (repeat' split) <;> simp (maxDischargeDepth := 9) [h]
@[simp] theorem resetStopStep_stk (s : State) (h : s.StkSound) : (resetStopStep s).StkSound := by
  unfold resetStopStep; dsimp only; (repeat' split) <;> simp (maxDischargeDepth := 9) [h]
@[simp] theorem wdogStep_stk (s : State) (h : s.StkSound) : (wdogStep s).StkSound := by
  unfold wdogStep; (repeat' split) <;> simp (maxDischargeDepth := 9) [h]
theorem execWebStopped_stk (s : State) {t : State} (h : s.StkSound) (e : execWebStopped s = .next t) : t.StkSound := by
  unfold execWebStopped at e
  cases e
  refine ite_stk ?_ h
  have h1 : State.StkSound { s with cg := { s.cg with webStopped := true } } := withCg_stk h _
  exact ite_stk h1 (wdogStep_stk _ (resetStopStep_stk _ (opReqStep_stk _ (stopFiring_stk _ h1))))
theorem execCgLockLine_stk (group : Fin 4) (s : State) {t : State} (h : s.StkSound) (e : execCgLockLine group s = .next t) : t.StkSound := by
  unfold execCgLockLine at e
  cases e
  (repeat' split) <;> simp (maxDischargeDepth := 9) [h]
theorem execCgLoadsComplete_stk (group : Fin 4) (s : State) {t : State} (h : s.StkSound) (e : execCgLoadsComplete group s = .next t) : t.StkSound := by
  unfold execCgLoadsComplete at e
  cases e
  (repeat' split) <;> simp (maxDischargeDepth := 9) [h]
theorem execCgTimeReachedStopped_stk (group : Fin 4) (s : State) {t : State} (h : s.StkSound) (e : execCgTimeReachedStopped group s = .next t) : t.StkSound := by
  unfold execCgTimeReachedStopped at e
  cases e
  (repeat' split) <;> simp (maxDischargeDepth := 9) [h]
theorem execCgDecisionDeadline_stk (group : Fin 4) (s : State) {t : State} (h : s.StkSound) (e : execCgDecisionDeadline group s = .next t) : t.StkSound := by
  unfold execCgDecisionDeadline at e
  cases e
  (repeat' split) <;> simp (maxDischargeDepth := 9) [h]
@[simp] theorem openGroup_stk (own : Bool) (s : State) (h : s.StkSound) : (openGroup own s).2.StkSound := by
  unfold openGroup; (repeat' split) <;> simp (maxDischargeDepth := 9) [h]
theorem execCgOpen_stk (slot : Fin 16) (s : State) {t : State} (h : s.StkSound) (e : execCgOpen slot s = .next t) : t.StkSound := by
  unfold execCgOpen at e
  cases e
  refine command_stk _ _ _ _ _ _ h fun tag ws s h => ?_
  have ho := openGroup_stk false s h
  split
  · rename_i e; rw [e] at ho; exact ho
  · rename_i e; rw [e] at ho; exact ho
theorem execCgStage_stk (slot : Fin 16) (s : State) {t : State} (h : s.StkSound) (e : execCgStage slot s = .next t) : t.StkSound := by
  unfold execCgStage at e
  cases e
  refine command_stk _ _ _ _ _ _ h ?_; intro tag ws s h; first | (simp (maxDischargeDepth := 9) [h]; done) | ((repeat' split) <;> simp (maxDischargeDepth := 9) [h]; done) | (dsimp only; (repeat' split) <;> simp (maxDischargeDepth := 9) [h]; done)
@[simp] theorem stageObject_stk (g : Nat) (j : StageJob) (bytes : List Byte) (s : State) (h : s.StkSound) : (stageObject g j bytes s).StkSound := by
  unfold stageObject; dsimp only; (repeat' split) <;> simp (maxDischargeDepth := 9) [h]
theorem execCgStageDone_stk (group : Fin 4) (bytes : Option (List Byte)) (s : State) {t : State} (h : s.StkSound) (e : execCgStageDone group bytes s = .next t) : t.StkSound := by
  unfold execCgStageDone at e
  cases e
  (repeat' split) <;> simp (maxDischargeDepth := 9) [h]
theorem execCgValidate_stk (slot : Fin 16) (s : State) {t : State} (h : s.StkSound) (e : execCgValidate slot s = .next t) : t.StkSound := by
  unfold execCgValidate at e
  cases e
  refine command_stk _ _ _ _ _ _ h ?_; intro tag ws s h; first | (simp (maxDischargeDepth := 9) [h]; done) | ((repeat' split) <;> simp (maxDischargeDepth := 9) [h]; done) | (dsimp only; (repeat' split) <;> simp (maxDischargeDepth := 9) [h]; done)
theorem execCgValidateDone_stk (group : Fin 4) (s : State) {t : State} (h : s.StkSound) (e : execCgValidateDone group s = .next t) : t.StkSound := by
  unfold execCgValidateDone at e
  cases e
  (repeat' split) <;> simp (maxDischargeDepth := 9) [h]
@[simp] theorem armGroup_stk (g : Nat) (s : State) (h : s.StkSound) : (armGroup g s).StkSound := by
  unfold armGroup; dsimp only; (repeat' split) <;> simp (maxDischargeDepth := 9) [h]
theorem execCgArm_stk (slot : Fin 16) (s : State) {t : State} (h : s.StkSound) (e : execCgArm slot s = .next t) : t.StkSound := by
  unfold execCgArm at e
  cases e
  refine command_stk _ _ _ _ _ _ h fun tag ws s h => ?_
  extract_lets g t s1 s2
  have h1 : s1.StkSound := outstand_stk _ _ _ _ (setGroup_stk _ _ _ h)
  have h2 : s2.StkSound := ite_stk (groupCmps_stk _ _ _ _ (setGroup_stk _ _ _ h1)) (ite_stk (resolve_stk _ _ _ h1) h1)
  clear_value s2
  have h3 : (clearCal g (armGroup g s2)).StkSound := clearCal_stk g _ (armGroup_stk g s2 h2)
  have h4 : (lateCmps g (absOf (wd ws 3) s) s).StkSound := lateCmps_stk _ _ _ h
  clear_value g t
  generalize clearCal g (armGroup g s2) = a at h3 ⊢
  generalize lateCmps g (absOf (wd ws 3) s) s = b at h4 ⊢
  split
  · exact h4
  · exact h3
theorem execCgAbort_stk (slot : Fin 16) (s : State) {t : State} (h : s.StkSound) (e : execCgAbort slot s = .next t) : t.StkSound := by
  unfold execCgAbort at e
  cases e
  refine command_stk _ _ _ _ _ _ h ?_; intro tag ws s h; first | (simp (maxDischargeDepth := 9) [h]; done) | ((repeat' split) <;> simp (maxDischargeDepth := 9) [h]; done) | (dsimp only; (repeat' split) <;> simp (maxDischargeDepth := 9) [h]; done)
theorem execCgRelease_stk (slot : Fin 16) (s : State) {t : State} (h : s.StkSound) (e : execCgRelease slot s = .next t) : t.StkSound := by
  unfold execCgRelease at e
  cases e
  refine command_stk _ _ _ _ _ _ h ?_; intro tag ws s h; first | (simp (maxDischargeDepth := 9) [h]; done) | ((repeat' split) <;> simp (maxDischargeDepth := 9) [h]; done) | (dsimp only; (repeat' split) <;> simp (maxDischargeDepth := 9) [h]; done)
@[simp] theorem holdMaps_stk (r : CalRes) (s : State) (h : s.StkSound) : (holdMaps r s).2.StkSound := by
  unfold holdMaps
  dsimp only
  split
  · exact calStickEvent_stk _ _ _ h
  · exact h
theorem execCalAutoCommit_stk (s : State) {t : State} (h : s.StkSound) (e : execCalAutoCommit s = .next t) : t.StkSound := by
  unfold execCalAutoCommit at e
  cases e
  split
  · split
    · exact h
    · rename_i r _ _ _
      have hm := holdMaps_stk r s h
      dsimp only
      split
      · exact discardResult_stk _ hm
      · split
        · exact dropResult_stk _ _ hm
        · have ho := openGroup_stk true _ hm
          split
          · exact h
          · rename_i e; rw [e] at ho
            refine armGroup_stk _ _ ?_
            simp (maxDischargeDepth := 9) [ho]
  · exact h
@[simp] theorem nextMsg_stk (s : State) (h : s.StkSound) : (nextMsg s).2.StkSound := by
  unfold nextMsg; dsimp only; (repeat' split) <;> simp (maxDischargeDepth := 9) [h]
@[simp] theorem latestDigest_stk (s : State) (h : s.StkSound) : (latestDigest s).2.StkSound := by
  unfold latestDigest; dsimp only; (repeat' split) <;> simp (maxDischargeDepth := 9) [h]
theorem execVigilFrameTx_stk (samples : Samples) (s : State) {t : State} (h : s.StkSound) (e : execVigilFrameTx samples s = .next t) : t.StkSound := by
  unfold execVigilFrameTx at e
  cases e
  (repeat' split) <;> simp (maxDischargeDepth := 9) [h]
theorem execVigilPositionTx_stk (s : State) {t : State} (h : s.StkSound) (e : execVigilPositionTx s = .next t) : t.StkSound := by
  unfold execVigilPositionTx at e
  cases e
  (repeat' split) <;> simp (maxDischargeDepth := 9) [h]
@[simp] theorem followPeer_stk (before : Nat) (s : State) (h : s.StkSound) : (followPeer before s).StkSound := by
  unfold followPeer; dsimp only; (repeat' split) <;> simp (maxDischargeDepth := 9) [h]
@[simp] theorem joinPeer_stk (s : State) (h : s.StkSound) : (joinPeer s).StkSound := by
  unfold joinPeer; (repeat' split) <;> simp (maxDischargeDepth := 9) [h]
@[simp] theorem takeFrame_stk (w : List Word) (s : State) (h : s.StkSound) : (takeFrame w s).StkSound := by
  unfold takeFrame; dsimp only; (repeat' split) <;> simp (maxDischargeDepth := 9) [h]
theorem execVigilFrameRx_stk (words : List Word) (crc : Word) (s : State) {t : State} (h : s.StkSound) (e : execVigilFrameRx words crc s = .next t) : t.StkSound := by
  unfold execVigilFrameRx at e
  cases e
  (repeat' split) <;> simp (maxDischargeDepth := 9) [h]
theorem execVigilPeerLost_stk (s : State) {t : State} (h : s.StkSound) (e : execVigilPeerLost s = .next t) : t.StkSound := by
  unfold execVigilPeerLost at e
  cases e
  dsimp only; (repeat' split) <;> simp (maxDischargeDepth := 9) [h]
theorem execVigilGraceExpiry_stk (s : State) {t : State} (h : s.StkSound) (e : execVigilGraceExpiry s = .next t) : t.StkSound := by
  unfold execVigilGraceExpiry at e
  cases e
  (repeat' split) <;> simp (maxDischargeDepth := 9) [h]
@[simp] theorem onMessage_stk (seq : Byte) (f : State → State) (s : State) (h : s.StkSound) (hf : ∀ s, s.StkSound → (f s).StkSound) : (onMessage seq f s).StkSound := by
  unfold onMessage; dsimp only; (repeat' split) <;> simp (maxDischargeDepth := 9) [*]
theorem execArm_stk (seq : Byte) (epoch : Word) (line : Word) (digest : Word) (s : State) {t : State} (h : s.StkSound) (e : execArm seq epoch line digest s = .next t) : t.StkSound := by
  unfold execArm at e
  cases e
  refine onMessage_stk _ _ _ h ?_
  intro s hs
  split
  · exact hs
  · exact hs
@[simp] theorem followLock_stk (g : Nat) (line : Word) (s : State) (h : s.StkSound) : (followLock g line s).StkSound := by
  unfold followLock; dsimp only; (repeat' split) <;> simp (maxDischargeDepth := 9) [h]
theorem execDecision_stk (seq : Byte) (epoch : Word) (line : Word) (lock : Bool) (cause : Byte) (s : State) {t : State} (h : s.StkSound) (e : execDecision seq epoch line lock cause s = .next t) : t.StkSound := by
  unfold execDecision at e
  cases e
  refine onMessage_stk _ _ _ h ?_
  intro s hs
  refine ite_stk hs (ite_stk ?_ ?_)
  · split
    · exact followLock_stk _ _ _ hs
    · exact unsync_stk _ _ hs
  · split
    · exact abortGroup_stk _ _ _ hs
    · exact hs
theorem execPageStart_stk (seq : Byte) (epoch : Word) (line : Word) (number : Word) (s : State) {t : State} (h : s.StkSound) (e : execPageStart seq epoch line number s = .next t) : t.StkSound := by
  unfold execPageStart at e
  cases e
  refine onMessage_stk _ _ _ h ?_
  intro s hs
  refine ite_stk hs ?_
  have hp := peerPageStart_stk s.pos.absHigh _ (withPg_stk hs { s.pg with peerStart := s.pg.peerStart ++ [(epoch, line, number)] })
  exact ite_stk (unsync_stk _ _ hp) hp
theorem execSwitch_stk (seq : Byte) (epoch : Word) (line : Word) (claim : Word) (s : State) {t : State} (h : s.StkSound) (e : execSwitch seq epoch line claim s = .next t) : t.StkSound := by
  unfold execSwitch at e
  cases e
  refine onMessage_stk _ _ _ h ?_
  intro s hs
  exact ite_stk hs (ite_stk (stickRec_stk _ _ _ hs) (ite_stk (stickRec_stk _ _ _ (wornOut_stk _ _ hs)) (prfStore_stk _ _ _ (withTwin_stk hs _))))
@[simp] theorem adopt_stk (epoch : Word) (p : BitVec 50) (s : State) (h : s.StkSound) : (adopt epoch p s).StkSound := by
  unfold adopt
  have h0 : (if epoch = s.cg.epochNow then s else endScrJob 0 s).StkSound := ite_stk h (endScrJob_stk _ _ h)
  extract_lets s0 line base top c1 p1 w1 s1 s2 d1 r1 g1 s3
  have h1 : s1.StkSound := stkSound_of_host (s := s0) h0 rfl
  clear_value s1
  have h2 : s2.StkSound := forAll_stk _ _ _ h1 fun m s hs => setSlice_stk _ _ _ hs
  clear_value s2
  have h3 : s3.StkSound := stkSound_of_host h2 rfl
  refine ite_stk h1 (forAll_stk _ _ _ h3 ?_)
  intro k s hs
  split
  · exact hs
  · exact armCam_stk _ _ (beginSeg_stk _ _ _ (setCam_stk _ _ _ hs))
@[simp] theorem takePosition_stk (epoch : Word) (position : BitVec 50) (s : State) (h : s.StkSound) : (takePosition epoch position s).StkSound := by
  unfold takePosition
  split
  · exact h
  · split
    · exact adopt_stk _ _ _ h
    · split
      · exact h
      · generalize skewOf position s = d
        dsimp only
        have h1 : ∀ w : Twin, State.StkSound { s with twin := w } := fun _ => h
        split
        · exact unsync_stk _ _ (stickRec_stk _ _ _ (h1 _))
        · exact h1 _
theorem execPosition_stk (seq : Byte) (epoch : Word) (position : BitVec 50) (samples : Samples) (s : State) {t : State} (h : s.StkSound) (e : execPosition seq epoch position samples s = .next t) : t.StkSound := by
  unfold execPosition at e
  cases e
  exact onMessage_stk _ _ _ (mainUpdate_stk _ (advance_stk _ _ h)) fun s hs => takePosition_stk _ _ _ hs
theorem execJoinA_stk (seq : Byte) (epoch : Word) (line : Word) (jobId : Word) (s : State) {t : State} (h : s.StkSound) (e : execJoinA seq epoch line jobId s = .next t) : t.StkSound := by
  unfold execJoinA at e
  cases e
  refine onMessage_stk _ _ _ h ?_
  intro s hs
  split
  · split
    · exact hs
    · exact hs
  · exact hs
theorem execJoinB_stk (seq : Byte) (number : Word) (first : Word) (pages : Word) (s : State) {t : State} (h : s.StkSound) (e : execJoinB seq number first pages s = .next t) : t.StkSound := by
  unfold execJoinB at e
  cases e
  refine onMessage_stk _ _ _ h ?_
  intro s hs
  split
  · exact hs
  · exact hs
theorem execSerial_stk (seq : Byte) (serial : Dword) (s : State) {t : State} (h : s.StkSound) (e : execSerial seq serial s = .next t) : t.StkSound := by
  unfold execSerial at e
  cases e
  simp (maxDischargeDepth := 9) [h]
@[simp] theorem switchStep_stk (B : Nat) (s : State) (h : s.StkSound) : (switchStep B s).StkSound := by
  unfold switchStep; (repeat' split) <;> simp (maxDischargeDepth := 9) [h]
@[simp] theorem joinContext_stk (B : Nat) (s : State) (h : s.StkSound) : (joinContext B s).StkSound := by
  unfold joinContext; (repeat' split) <;> simp (maxDischargeDepth := 9) [h]
@[simp] theorem startJoinPage_stk (j : JoinJob) (jobId : Word) (number : Word) (first : Word) (pages : Word) (p : Page) (s : State) (h : s.StkSound) : (startJoinPage j jobId number first pages p s).StkSound := by
  simp (maxDischargeDepth := 9) [startJoinPage, h]
@[simp] theorem joinStart_stk (B : Nat) (j : JoinJob) (s : State) (h : s.StkSound) : (joinStart B j s).StkSound := by
  unfold joinStart; (repeat' split) <;> simp (maxDischargeDepth := 9) [h]
@[simp] theorem joinStep_stk (B : Nat) (s : State) (h : s.StkSound) : (joinStep B s).StkSound := by
  unfold joinStep; dsimp only; (repeat' split) <;> simp (maxDischargeDepth := 9) [h]
@[simp] theorem syncStep_stk (B : Nat) (s : State) (h : s.StkSound) : (syncStep B s).StkSound := by
  unfold syncStep; (repeat' split) <;> simp (maxDischargeDepth := 9) [h]
@[simp] theorem followStop_stk (s : State) (h : s.StkSound) : (followStop s).StkSound := by
  unfold followStop; (repeat' split) <;> simp (maxDischargeDepth := 9) [h]
@[simp] theorem holdIdle_stk (s : State) (h : s.StkSound) : (holdIdle s).StkSound := by
  unfold holdIdle; refine foldl_stk _ _ _ (by simp (maxDischargeDepth := 9) [h]) ?_; intro s x h; first | (simp (maxDischargeDepth := 9) [h]; done) | ((repeat' split) <;> simp (maxDischargeDepth := 9) [h]; done) | (dsimp only; (repeat' split) <;> simp (maxDischargeDepth := 9) [h]; done)
theorem execPrsntChange_stk (low : Bool) (s : State) {t : State} (h : s.StkSound) (e : execPrsntChange low s = .next t) : t.StkSound := by
  unfold execPrsntChange at e
  cases e
  (repeat' split) <;> simp (maxDischargeDepth := 9) [h]
theorem execTwinGetStatus_stk (slot : Fin 16) (s : State) {t : State} (h : s.StkSound) (e : execTwinGetStatus slot s = .next t) : t.StkSound := by
  unfold execTwinGetStatus at e
  cases e
  refine command_stk _ _ _ _ _ _ h ?_; intro tag ws s h; first | (simp (maxDischargeDepth := 9) [h]; done) | ((repeat' split) <;> simp (maxDischargeDepth := 9) [h]; done) | (dsimp only; (repeat' split) <;> simp (maxDischargeDepth := 9) [h]; done)
@[simp] theorem takeRole_stk (role : Nat) (s : State) (h : s.StkSound) : (takeRole role s).1.StkSound := by
  unfold takeRole
  split
  · have hi := issueClaim_stk s h
    split
    · rename_i e; rw [e] at hi; exact setRole_stk _ _ hi
    · rename_i e; rw [e] at hi; exact hi
  · exact setRole_stk _ _ (withTwin_stk h _)
  · exact enterListen_stk _ (failSwitch_stk _ h)
theorem execTwinSetRole_stk (slot : Fin 16) (s : State) {t : State} (h : s.StkSound) (e : execTwinSetRole slot s = .next t) : t.StkSound := by
  unfold execTwinSetRole at e
  cases e
  refine command_stk _ _ _ _ _ _ h ?_; intro tag ws s h; first | (simp (maxDischargeDepth := 9) [h]; done) | ((repeat' split) <;> simp (maxDischargeDepth := 9) [h]; done) | (dsimp only; (repeat' split) <;> simp (maxDischargeDepth := 9) [h]; done)
theorem execTwinSwitchover_stk (slot : Fin 16) (s : State) {t : State} (h : s.StkSound) (e : execTwinSwitchover slot s = .next t) : t.StkSound := by
  unfold execTwinSwitchover at e
  cases e
  refine command_stk _ _ _ _ _ _ h ?_; intro tag ws s h; first | (simp (maxDischargeDepth := 9) [h]; done) | ((repeat' split) <;> simp (maxDischargeDepth := 9) [h]; done) | (dsimp only; (repeat' split) <;> simp (maxDischargeDepth := 9) [h]; done)
@[simp] theorem startJoin_stk (tag : Word) (ws : List Word) (s : State) (h : s.StkSound) : (startJoin tag ws s).StkSound := by
  simp (maxDischargeDepth := 9) [startJoin, h]
theorem execTwinJoin_stk (slot : Fin 16) (s : State) {t : State} (h : s.StkSound) (e : execTwinJoin slot s = .next t) : t.StkSound := by
  unfold execTwinJoin at e
  cases e
  refine command_stk _ _ _ _ _ _ h ?_; intro tag ws s h; first | (simp (maxDischargeDepth := 9) [h]; done) | ((repeat' split) <;> simp (maxDischargeDepth := 9) [h]; done) | (dsimp only; (repeat' split) <;> simp (maxDischargeDepth := 9) [h]; done)
theorem execTwinConfig_stk (slot : Fin 16) (s : State) {t : State} (h : s.StkSound) (e : execTwinConfig slot s = .next t) : t.StkSound := by
  unfold execTwinConfig at e
  cases e
  refine command_stk _ _ _ _ _ _ h ?_; intro tag ws s h; first | (simp (maxDischargeDepth := 9) [h]; done) | ((repeat' split) <;> simp (maxDischargeDepth := 9) [h]; done) | (dsimp only; (repeat' split) <;> simp (maxDischargeDepth := 9) [h]; done)
theorem execTwinWakePeer_stk (slot : Fin 16) (s : State) {t : State} (h : s.StkSound) (e : execTwinWakePeer slot s = .next t) : t.StkSound := by
  unfold execTwinWakePeer at e
  cases e
  refine command_stk _ _ _ _ _ _ h ?_; intro tag ws s h; first | (simp (maxDischargeDepth := 9) [h]; done) | ((repeat' split) <;> simp (maxDischargeDepth := 9) [h]; done) | (dsimp only; (repeat' split) <;> simp (maxDischargeDepth := 9) [h]; done)
@[simp] theorem moveDone_stk (a : Nat) (s : State) (h : s.StkSound) : (moveDone a s).StkSound := by
  unfold moveDone; dsimp only; (repeat' split) <;> simp (maxDischargeDepth := 9) [h]
@[simp] theorem passTick_stk (a : Nat) (s : State) (h : s.StkSound) : (passTick a s).StkSound := by
  unfold passTick; dsimp only; (repeat' split) <;> simp (maxDischargeDepth := 9) [h]
@[simp] theorem motionTick_stk (a : Nat) (s : State) (h : s.StkSound) : (motionTick a s).StkSound := by
  unfold motionTick
  extract_lets x rest
  refine ite_stk (setAxis_stk _ _ _ h) (ite_stk (setAxis_stk _ _ _ h) ?_)
  split
  · exact setAxis_stk _ _ _ h
  · have h1 := setAxis_stk a Axis.begin_ _ (passTick_stk a _ h)
    split
    · exact setAxis_stk _ _ _ h1
    · dsimp only
      exact ite_stk (ite_stk (setAxis_stk _ _ _ h1) (moveDone_stk _ _ (setAxis_stk _ _ _ h1))) (setAxis_stk _ _ _ h1)
@[simp] theorem homeDone_stk (a : Nat) (j : HomeJob) (edge : Int) (s : State) (h : s.StkSound) : (homeDone a j edge s).StkSound := by
  have h1 := fun f => setAxis_stk a f s h
  unfold homeDone
  refine ite_stk (complete_stk _ _ _ _ _ _ _ (wornOut_stk _ _ (h1 _))) ?_
  extract_lets delta offset s1 s2 w s3
  have h2 : s2.StkSound := prfStore_stk _ _ _ (h1 _)
  have h3 : s3.StkSound := ite_stk h2 (prfStore_stk _ _ _ h2)
  exact ite_stk (complete_stk _ _ _ _ _ _ _ (wornOut_stk _ _ h2)) (complete_stk _ _ _ _ _ _ _ (setAxis_stk _ _ _ h3))
@[simp] theorem homeTick_stk (a : Nat) (s : State) (h : s.StkSound) : (homeTick a s).StkSound := by
  unfold homeTick
  dsimp only
  (repeat' split) <;> first | exact h | exact setAxis_stk _ _ _ h | exact homeDone_stk _ _ _ _ h
@[simp] theorem seqDone_stk (q : SeqJob) (s : State) (h : s.StkSound) : (seqDone q s).StkSound := by
  simp (maxDischargeDepth := 9) [seqDone, h]
@[simp] theorem seqGo_stk (q : SeqJob) (step : Nat) (s : State) (h : s.StkSound) : (seqGo q step s).StkSound := by
  simp (maxDischargeDepth := 9) [seqGo, h]
@[simp] theorem seqTick_stk (s : State) (h : s.StkSound) : (seqTick s).StkSound := by
  unfold seqTick; dsimp only; (repeat' split) <;> simp (maxDischargeDepth := 9) [h]
@[simp] theorem noteStill_stk (a : Nat) (before : State) (s : State) (h : s.StkSound) : (noteStill a before s).StkSound := by
  unfold noteStill; (repeat' split) <;> simp (maxDischargeDepth := 9) [h]
@[simp] theorem axisTick_stk (s : State) (a : Nat) (h : s.StkSound) : (axisTick s a).StkSound := by
  exact noteStill_stk _ _ _ (homeTick_stk _ _ (motionTick_stk _ _ (applyCauses_stk _ _ (interlockTick_stk _ _ (setAxis_stk _ _ _ h)))))
theorem execPlannerTick_stk (s : State) {t : State} (h : s.StkSound) (e : execPlannerTick s = .next t) : t.StkSound := by
  unfold execPlannerTick at e
  cases e
  refine ite_stk h (capUpdate_stk _ (seqTick_stk _ (foldl_stk _ _ _ ?_ fun s a hs => axisTick_stk _ _ hs)))
  exact h
theorem execAxHoldCurrent_stk (axis : Fin 2) (s : State) {t : State} (h : s.StkSound) (e : execAxHoldCurrent axis s = .next t) : t.StkSound := by
  unfold execAxHoldCurrent at e
  cases e
  (repeat' split) <;> simp (maxDischargeDepth := 9) [h]
@[simp] theorem setPhase_stk (a : Nat) (b : Bool) (f : Phase → Phase) (s : State) (h : s.StkSound) : (setPhase a b f s).StkSound := by
  simp (maxDischargeDepth := 9) [setPhase, h]
theorem execChopOnEnd_stk (axis : Fin 2) (b : Bool) (s : State) {t : State} (h : s.StkSound) (e : execChopOnEnd axis b s = .next t) : t.StkSound := by
  unfold execChopOnEnd at e
  cases e
  dsimp only; (repeat' split) <;> simp (maxDischargeDepth := 9) [h]
theorem execChopOffEnd_stk (axis : Fin 2) (b : Bool) (s : State) {t : State} (h : s.StkSound) (e : execChopOffEnd axis b s = .next t) : t.StkSound := by
  unfold execChopOffEnd at e
  cases e
  (repeat' split) <;> simp (maxDischargeDepth := 9) [h]
theorem execLimitSwitchEdge_stk (axis : Fin 2) (hi : Bool) (level : Bool) (clocks : Nat) (s : State) {t : State} (h : s.StkSound) (e : execLimitSwitchEdge axis hi level clocks s = .next t) : t.StkSound := by
  unfold execLimitSwitchEdge at e
  cases e
  (repeat' split) <;> simp (maxDischargeDepth := 9) [h]
theorem execHomeEdge_stk (axis : Fin 2) (level : Bool) (clocks : Nat) (s : State) {t : State} (h : s.StkSound) (e : execHomeEdge axis level clocks s = .next t) : t.StkSound := by
  unfold execHomeEdge at e
  cases e
  (repeat' split) <;> simp (maxDischargeDepth := 9) [h]
theorem execCapSwEdge_stk (level : Bool) (clocks : Nat) (s : State) {t : State} (h : s.StkSound) (e : execCapSwEdge level clocks s = .next t) : t.StkSound := by
  unfold execCapSwEdge at e
  cases e
  simp (maxDischargeDepth := 9) [h]
theorem execAxGetStatus_stk (slot : Fin 16) (s : State) {t : State} (h : s.StkSound) (e : execAxGetStatus slot s = .next t) : t.StkSound := by
  unfold execAxGetStatus at e
  cases e
  refine command_stk _ _ _ _ _ _ h ?_; intro tag ws s h; first | (simp (maxDischargeDepth := 9) [h]; done) | ((repeat' split) <;> simp (maxDischargeDepth := 9) [h]; done) | (dsimp only; (repeat' split) <;> simp (maxDischargeDepth := 9) [h]; done)
theorem execAxConfig_stk (slot : Fin 16) (s : State) {t : State} (h : s.StkSound) (e : execAxConfig slot s = .next t) : t.StkSound := by
  unfold execAxConfig at e
  cases e
  refine command_stk _ _ _ _ _ _ h ?_; intro tag ws s h; first | (simp (maxDischargeDepth := 9) [h]; done) | ((repeat' split) <;> simp (maxDischargeDepth := 9) [h]; done) | (dsimp only; (repeat' split) <;> simp (maxDischargeDepth := 9) [h]; done)
@[simp] theorem queueMove_stk (a : Nat) (m : Move) (replace : Bool) (s : State) (h : s.StkSound) : (queueMove a m replace s).StkSound := by
  unfold queueMove; dsimp only; (repeat' split) <;> simp (maxDischargeDepth := 9) [h]
theorem execAxMove_stk (slot : Fin 16) (s : State) {t : State} (h : s.StkSound) (e : execAxMove slot s = .next t) : t.StkSound := by
  unfold execAxMove at e
  cases e
  refine command_stk _ _ _ _ _ _ h ?_; intro tag ws s h; first | (simp (maxDischargeDepth := 9) [h]; done) | ((repeat' split) <;> simp (maxDischargeDepth := 9) [h]; done) | (dsimp only; (repeat' split) <;> simp (maxDischargeDepth := 9) [h]; done)
theorem execAxStop_stk (slot : Fin 16) (s : State) {t : State} (h : s.StkSound) (e : execAxStop slot s = .next t) : t.StkSound := by
  unfold execAxStop at e
  cases e
  refine command_stk _ _ _ _ _ _ h ?_; intro tag ws s h; first | (simp (maxDischargeDepth := 9) [h]; done) | ((repeat' split) <;> simp (maxDischargeDepth := 9) [h]; done) | (dsimp only; (repeat' split) <;> simp (maxDischargeDepth := 9) [h]; done)
theorem execAxHome_stk (slot : Fin 16) (s : State) {t : State} (h : s.StkSound) (e : execAxHome slot s = .next t) : t.StkSound := by
  unfold execAxHome at e
  cases e
  refine command_stk _ _ _ _ _ _ h fun tag ws s h => ?_
  dsimp only
  split
  · exact setAxis_stk _ _ _ h
  · split
    · exact h
    · exact outstand_stk _ _ _ _ (setAxis_stk _ _ _ h)
theorem execAxSeq_stk (slot : Fin 16) (s : State) {t : State} (h : s.StkSound) (e : execAxSeq slot s = .next t) : t.StkSound := by
  unfold execAxSeq at e
  cases e
  refine command_stk _ _ _ _ _ _ h ?_; intro tag ws s h; first | (simp (maxDischargeDepth := 9) [h]; done) | ((repeat' split) <;> simp (maxDischargeDepth := 9) [h]; done) | (dsimp only; (repeat' split) <;> simp (maxDischargeDepth := 9) [h]; done)
theorem execAxSeqConfig_stk (slot : Fin 16) (s : State) {t : State} (h : s.StkSound) (e : execAxSeqConfig slot s = .next t) : t.StkSound := by
  unfold execAxSeqConfig at e
  cases e
  refine command_stk _ _ _ _ _ _ h ?_; intro tag ws s h; first | (simp (maxDischargeDepth := 9) [h]; done) | ((repeat' split) <;> simp (maxDischargeDepth := 9) [h]; done) | (dsimp only; (repeat' split) <;> simp (maxDischargeDepth := 9) [h]; done)
theorem execAxClearFault_stk (slot : Fin 16) (s : State) {t : State} (h : s.StkSound) (e : execAxClearFault slot s = .next t) : t.StkSound := by
  unfold execAxClearFault at e
  cases e
  refine command_stk _ _ _ _ _ _ h ?_; intro tag ws s h; first | (simp (maxDischargeDepth := 9) [h]; done) | ((repeat' split) <;> simp (maxDischargeDepth := 9) [h]; done) | (dsimp only; (repeat' split) <;> simp (maxDischargeDepth := 9) [h]; done)
@[simp] theorem setDram_stk (f : Dram → Dram) (s : State) (h : s.StkSound) : (setDram f s).StkSound := by
  simp (maxDischargeDepth := 9) [setDram, h]
@[simp] theorem present_stk (asks : List MemAsk) (s : State) (h : s.StkSound) : (present asks s).StkSound := by
  simp (maxDischargeDepth := 9) [present, h]
@[simp] theorem runSlots_stk (slots : List (List Nat)) (s : State) (h : s.StkSound) : (runSlots slots s).StkSound := by
  unfold runSlots
  refine ite_stk h ?_
  exact emits_stk _ _ (withDram_stk h _)
@[simp] theorem setRefresh_stk (fast : Bool) (s : State) (h : s.StkSound) : (setRefresh fast s).StkSound := by
  unfold setRefresh; (repeat' split) <;> simp (maxDischargeDepth := 9) [h]
@[simp] theorem readout_stk (range : Option Nat) (s : State) (h : s.StkSound) : (readout range s).StkSound := by
  unfold readout; dsimp only; (repeat' split) <;> simp (maxDischargeDepth := 9) [h]
theorem execDramRefresh_stk (rank0 rank1 : Option (Fin 3)) (s : State) {t : State} (h : s.StkSound) (e : execDramRefresh rank0 rank1 s = .next t) : t.StkSound := by
  unfold execDramRefresh at e
  cases e
  refine ite_stk h ?_
  have h1 : (if s.dram.hotSeen = true then setRefresh true s else s).StkSound := ite_stk (setRefresh_stk _ _ h) h
  generalize (if s.dram.hotSeen = true then setRefresh true s else s) = s1 at h1
  exact ite_stk (readout_stk _ _ (emits_stk _ _ (withDram_stk h1 _))) (emits_stk _ _ (withDram_stk h1 _))
@[simp] theorem eccCorrected_stk (word : Nat) (s : State) (h : s.StkSound) : (eccCorrected word s).StkSound := by
  simp (maxDischargeDepth := 9) [eccCorrected, h]
@[simp] theorem eccUncorrectable_stk (requester : Nat) (addr : Word) (s : State) (h : s.StkSound) : (eccUncorrectable requester addr s).StkSound := by
  simp (maxDischargeDepth := 9) [eccUncorrectable, h]
@[simp] theorem failTransfer_stk (what : Nat) (s : State) (h : s.StkSound) : (failTransfer what s).StkSound := by
  unfold failTransfer; (repeat' split) <;> simp (maxDischargeDepth := 9) [h]
@[simp] theorem spoilCamLine_stk (what : Nat) (s : State) (h : s.StkSound) : (spoilCamLine what s).StkSound := by
  exact ite_stk (stickRec_stk _ _ _ (setCam_stk _ _ _ h)) h
@[simp] theorem poisoned_stk (requester what : Nat) (units : List Nat) (s : State) (h : s.StkSound) : (poisoned requester what units s).StkSound := by
  unfold poisoned
  split
  · exact setBlk_stk _ _ _ _ h
  · exact withScr_stk h _
  · exact spoilCamLine_stk _ _ h
  · split
    · exact setGroup_stk _ _ _ h
    · exact h
  · exact withCal_stk h _
  · exact berylRestart_stk _ h
  · exact failTransfer_stk _ _ h
  · exact h
@[simp] theorem wordError_stk (r : MemReq) (s : State) (e : Fin 32 × Bool) (h : s.StkSound) : (wordError r s e).StkSound := by
  unfold wordError; dsimp only; (repeat' split) <;> simp (maxDischargeDepth := 9) [h]
@[simp] theorem returnRead_stk (r : MemReq) (errors : List (Fin 32 × Bool)) (s : State) (h : s.StkSound) : (returnRead r errors s).StkSound := by
  unfold returnRead
  extract_lets mono lost bad s1 s2
  have h1 : s1.StkSound := setDram_stk _ _ h
  have h2 : s2.StkSound := foldl_stk _ _ _ h1 fun s e hs => wordError_stk _ _ _ hs
  exact ite_stk (poisoned_stk _ _ _ _ h2) h2
@[simp] theorem rtUnderrun_stk (requester : Nat) (s : State) (h : s.StkSound) : (rtUnderrun requester s).StkSound := by
  simp (maxDischargeDepth := 9) [rtUnderrun, h]
@[simp] theorem emptied_stk (empty0 empty1 empty2 : Bool) (s : State) (h : s.StkSound) : (emptied empty0 empty1 empty2 s).StkSound :=
  foldl_stk _ _ _ h fun s x h => rtUnderrun_stk x.1 s h

@[simp] theorem asked_stk (asks : List MemAsk) (s : State) (h : s.StkSound) : (asked asks s).StkSound := present_stk _ _ h
theorem execDramReadReturn_stk (rtAsks asks : List MemAsk) (slots : List (List Nat)) (corrected lost : List (Fin 32)) (empty0 empty1 empty2 : Bool) (s : State) {t : State} (h : s.StkSound) (e : execDramReadReturn rtAsks asks slots corrected lost empty0 empty1 empty2 s = .next t) : t.StkSound := by
  unfold execDramReadReturn at e
  cases e
  refine ite_stk h ?_
  have h1 := emptied_stk empty0 empty1 empty2 _ (runSlots_stk slots _ (asked_stk (rtAsks ++ asks) s h))
  dsimp only; split; exacts [returnRead_stk _ _ _ h1, h1]
theorem execEccCorrected_stk (s : State) {t : State} (h : s.StkSound) (e : execEccCorrected s = .next t) : t.StkSound := by
  unfold execEccCorrected at e
  cases e
  (repeat' split) <;> simp (maxDischargeDepth := 9) [h]
theorem execBulkPromote_stk (rtAsks asks : List MemAsk) (s : State) {t : State} (h : s.StkSound) (e : execBulkPromote rtAsks asks s = .next t) : t.StkSound := by
  unfold execBulkPromote at e
  cases e
  have h1 := asked_stk (rtAsks ++ asks) s h
  split
  · exact h1
  · exact setDram_stk _ _ h1
theorem execStarved_stk (asks : List MemAsk) (s : State) {t : State} (h : s.StkSound) (e : execStarved asks s = .next t) : t.StkSound := by
  unfold execStarved at e
  cases e
  have h1 := asked_stk asks s h
  split
  · exact h1
  · exact stickEvent_stk _ _ _ (setDram_stk _ _ h1)
@[simp] theorem beginRate_stk (rate : Nat) (s : State) (h : s.StkSound) : (beginRate rate s).StkSound := by
  simp (maxDischargeDepth := 9) [beginRate, h]
@[simp] theorem endPass_stk (ok : Bool) (margin : BitVec 24) (cmp : Word) (s : State) (h : s.StkSound) : (endPass ok margin cmp s).StkSound := by
  unfold endPass; (repeat' split) <;> simp (maxDischargeDepth := 9) [h]
theorem execTrainingPassDone_stk (failStep : Option (Fin 8)) (margin : BitVec 24) (cmp : Word) (verifyOk : Bool) (s : State) {t : State} (h : s.StkSound) (e : execTrainingPassDone failStep margin cmp verifyOk s = .next t) : t.StkSound := by
  unfold execTrainingPassDone at e
  cases e
  (repeat' split) <;> simp (maxDischargeDepth := 9) [h]
theorem execZeroFillDone_stk (ok : Bool) (s : State) {t : State} (h : s.StkSound) (e : execZeroFillDone ok s = .next t) : t.StkSound := by
  unfold execZeroFillDone at e
  cases e
  (repeat' split) <;> simp (maxDischargeDepth := 9) [h]
theorem execMemGetStatus_stk (slot : Fin 16) (s : State) {t : State} (h : s.StkSound) (e : execMemGetStatus slot s = .next t) : t.StkSound := by
  unfold execMemGetStatus at e
  cases e
  refine command_stk _ _ _ _ _ _ h ?_; intro tag ws s h; first | (simp (maxDischargeDepth := 9) [h]; done) | ((repeat' split) <;> simp (maxDischargeDepth := 9) [h]; done) | (dsimp only; (repeat' split) <;> simp (maxDischargeDepth := 9) [h]; done)
theorem execMemTrain_stk (slot : Fin 16) (s : State) {t : State} (h : s.StkSound) (e : execMemTrain slot s = .next t) : t.StkSound := by
  unfold execMemTrain at e
  cases e
  refine command_stk _ _ _ _ _ _ h ?_; intro tag ws s h; first | (simp (maxDischargeDepth := 9) [h]; done) | ((repeat' split) <;> simp (maxDischargeDepth := 9) [h]; done) | (dsimp only; (repeat' split) <;> simp (maxDischargeDepth := 9) [h]; done)
theorem execMemSetRate_stk (slot : Fin 16) (s : State) {t : State} (h : s.StkSound) (e : execMemSetRate slot s = .next t) : t.StkSound := by
  unfold execMemSetRate at e
  cases e
  refine command_stk _ _ _ _ _ _ h ?_; intro tag ws s h; first | (simp (maxDischargeDepth := 9) [h]; done) | ((repeat' split) <;> simp (maxDischargeDepth := 9) [h]; done) | (dsimp only; (repeat' split) <;> simp (maxDischargeDepth := 9) [h]; done)
theorem execMemClassConfig_stk (slot : Fin 16) (s : State) {t : State} (h : s.StkSound) (e : execMemClassConfig slot s = .next t) : t.StkSound := by
  unfold execMemClassConfig at e
  cases e
  refine command_stk _ _ _ _ _ _ h ?_; intro tag ws s h; first | (simp (maxDischargeDepth := 9) [h]; done) | ((repeat' split) <;> simp (maxDischargeDepth := 9) [h]; done) | (dsimp only; (repeat' split) <;> simp (maxDischargeDepth := 9) [h]; done)
theorem execMemEccInject_stk (slot : Fin 16) (s : State) {t : State} (h : s.StkSound) (e : execMemEccInject slot s = .next t) : t.StkSound := by
  unfold execMemEccInject at e
  cases e
  refine command_stk _ _ _ _ _ _ h ?_; intro tag ws s h; first | (simp (maxDischargeDepth := 9) [h]; done) | ((repeat' split) <;> simp (maxDischargeDepth := 9) [h]; done) | (dsimp only; (repeat' split) <;> simp (maxDischargeDepth := 9) [h]; done)
@[simp] theorem opStateBoundary_stk (s : State) (h : s.StkSound) : (opStateBoundary s).StkSound := by
  simp (maxDischargeDepth := 9) [opStateBoundary, h]
@[simp] theorem onyxBoundary_stk (s : State) (h : s.StkSound) : (onyxBoundary s).StkSound := by
  unfold onyxBoundary; (repeat' split) <;> simp (maxDischargeDepth := 9) [h]
@[simp] theorem pagesBoundary_stk (B : Nat) (s : State) (h : s.StkSound) : (pagesBoundary B s).StkSound := by
  have h1 := peerPageStart_stk B _ (pageDecisions_stk B s h)
  exact topazStep_stk _ _ (ite_stk (unsync_stk _ _ h1) h1)
@[simp] theorem timeGroup_stk (g : Nat) (s : State) (h : s.StkSound) : (timeGroup g s).StkSound := by
  unfold timeGroup; dsimp only; (repeat' split) <;> simp (maxDischargeDepth := 9) [h]
@[simp] theorem boundaryCore_stk (B : Nat) (s : State) (h : s.StkSound) : (boundaryCore B s).StkSound := by
  unfold boundaryCore
  extract_lets c1 p1 s1 s2 s3 s4
  have h1 : s1.StkSound := withPos_stk (withCg_stk h c1) p1
  have h2 : s2.StkSound := pagesBoundary_stk _ _ (forAll_stk _ _ _ (onyxBoundary_stk _ (opStateBoundary_stk _ h1)) fun g s hs => timeGroup_stk _ _ hs)
  clear_value s2
  have h3 : s3.StkSound := syncStep_stk _ _ (waitingDigests_stk _ (joinStep_stk _ _ (joinContext_stk _ _ (switchStep_stk _ _ (garnetBoundary_stk _ _ h2)))))
  clear_value s3
  exact waitingDigests_stk _ (recordsDue_stk _ (pagesFired_stk _ _ _ (hlinkBoundary_stk _ _ (fireBoundary_stk _ _ h3))))
@[simp] theorem beginBoundary_stk (s : State) (h : s.StkSound) : (beginBoundary s).StkSound := by
  have h0 : (if startsJob (s.pos.absHigh + 1) s = true then fireDue s else s).StkSound := ite_stk (fireDue_stk _ h) h
  unfold beginBoundary
  extract_lets s0 p s1 B
  have h1 : s1.StkSound := stkSound_of_host (s := s0) h0 rfl
  clear_value s1
  exact boundaryCore_stk _ _ (commitAt_stk _ _ _ _ h1)
theorem execLineBoundary_stk (samples : Samples) (s : State) {t : State} (h : s.StkSound) (e : execLineBoundary samples s = .next t) : t.StkSound := by
  unfold execLineBoundary at e
  cases e
  (repeat' split) <;> simp (maxDischargeDepth := 9) [h]
theorem execCgCommit_stk (samples : Samples) (s : State) {t : State} (h : s.StkSound) (e : execCgCommit samples s = .next t) : t.StkSound := by
  unfold execCgCommit at e
  cases e
  (repeat' split) <;> simp (maxDischargeDepth := 9) [h]
@[simp] theorem spitTick_stk (s : State) (h : s.StkSound) : (spitTick s).StkSound := by
  unfold spitTick
  split
  · exact h
  · extract_lets p1 f1 s2
    have h2 : s2.StkSound := h
    exact spitStep_stk _ _ (beginBoundary_stk _ h2)
theorem execSpitLine_stk (samples : Samples) (s : State) {t : State} (h : s.StkSound) (e : execSpitLine samples s = .next t) : t.StkSound := by
  unfold execSpitLine at e
  cases e
  have h1 := mainUpdate_stk _ (advance_stk samples s h)
  exact ite_stk (spitTick_stk _ h1) h1
@[simp] theorem answerWaiting_stk (s : State) (h : s.StkSound) : (answerWaiting s).StkSound := by
  unfold answerWaiting; dsimp only; (repeat' split) <;> simp (maxDischargeDepth := 9) [h]
@[simp] theorem endFireJobs_stk (s : State) (h : s.StkSound) : (endFireJobs s).StkSound := by
  unfold endFireJobs; dsimp only; (repeat' split) <;> simp (maxDischargeDepth := 9) [h]
@[simp] theorem enterSafeState_stk (s : State) (h : s.StkSound) : (enterSafeState s).StkSound := by
  unfold enterSafeState; (repeat' split) <;> simp (maxDischargeDepth := 9) [h]
@[simp] theorem afterSafe_stk (s : State) (h : s.StkSound) : (afterSafe s).StkSound := by
  unfold afterSafe; dsimp only; (repeat' split) <;> simp (maxDischargeDepth := 9) [h]
theorem execHeadPowerEnableRemoved_stk (s : State) {t : State} (h : s.StkSound) (e : execHeadPowerEnableRemoved s = .next t) : t.StkSound := by
  unfold execHeadPowerEnableRemoved at e
  cases e
  refine ite_stk h ?_
  extract_lets o1 b1 s1 s2 s3 o s4 s5
  have h1 : s1.StkSound := h
  clear_value s1
  have h3 : s3.StkSound := enterListen_stk _ (failSwitch_stk _ (abortArmed_stk _ _ (enterSafeState_stk _ h1)))
  clear_value s3
  have h5 : s5.StkSound := axesSafe_stk _ (endFireJobs_stk _ (answerWaiting_stk _ (deliverAll_stk _ (eventAt_stk _ _ _ h3))))
  clear_value s5
  exact afterSafe_stk _ (mainUpdate_stk _ (forAll_stk _ _ _ h5 fun k s hs => lampOff_stk _ _ hs))
@[simp] theorem noteActive_stk (s : State) (h : s.StkSound) : (noteActive s).StkSound := withOnyx_stk h _
theorem execSafeGetStatus_stk (slot : Fin 16) (s : State) {t : State} (h : s.StkSound) (e : execSafeGetStatus slot s = .next t) : t.StkSound := by
  unfold execSafeGetStatus at e
  cases e
  refine command_stk _ _ _ _ _ _ h ?_; intro tag ws s h; first | (simp (maxDischargeDepth := 9) [h]; done) | ((repeat' split) <;> simp (maxDischargeDepth := 9) [h]; done) | (dsimp only; (repeat' split) <;> simp (maxDischargeDepth := 9) [h]; done)
@[simp] theorem leaveSafe_stk (s : State) (h : s.StkSound) : (leaveSafe s).StkSound := by
  unfold leaveSafe; dsimp only; (repeat' split) <;> simp (maxDischargeDepth := 9) [h]
theorem execSafeExit_stk (slot : Fin 16) (s : State) {t : State} (h : s.StkSound) (e : execSafeExit slot s = .next t) : t.StkSound := by
  unfold execSafeExit at e
  cases e
  refine command_stk _ _ _ _ _ _ h ?_; intro tag ws s h; first | (simp (maxDischargeDepth := 9) [h]; done) | ((repeat' split) <;> simp (maxDischargeDepth := 9) [h]; done) | (dsimp only; (repeat' split) <;> simp (maxDischargeDepth := 9) [h]; done)
@[simp] theorem readOut_stk (off : Nat) (v : Word) (s : State) (h : s.StkSound) : (readOut off v s).StkSound := by
  simp (maxDischargeDepth := 9) [readOut, h]
theorem execReg64LowerRead_stk (reg : Fin 1048576) (s : State) {t : State} (h : s.StkSound) (e : execReg64LowerRead reg s = .next t) : t.StkSound := by
  unfold execReg64LowerRead at e
  cases e
  (repeat' split) <;> simp (maxDischargeDepth := 9) [h]
theorem execReg64UpperRead_stk (reg : Fin 1048576) (s : State) {t : State} (h : s.StkSound) (e : execReg64UpperRead reg s = .next t) : t.StkSound := by
  unfold execReg64UpperRead at e
  cases e
  (repeat' split) <;> simp (maxDischargeDepth := 9) [h]
theorem execGlobalStateRead_stk (s : State) {t : State} (h : s.StkSound) (e : execGlobalStateRead s = .next t) : t.StkSound := by
  unfold execGlobalStateRead at e
  cases e
  simp (maxDischargeDepth := 9) [h]
@[simp] theorem discardRung_stk (s : State) (h : s.StkSound) : (discardRung s).StkSound := by
  simp (maxDischargeDepth := 9) [discardRung, h]
@[simp] theorem resetFunction_stk (s : State) (h : s.StkSound) : (resetFunction s).StkSound := by
  simp (maxDischargeDepth := 9) [resetFunction, h]
@[simp] theorem stopStage_stk (g : Nat) (s : State) (h : s.StkSound) : (stopStage g s).StkSound := by
  unfold stopStage; (repeat' split) <;> simp (maxDischargeDepth := 9) [h]
@[simp] theorem stopFwStage_stk (s : State) (h : s.StkSound) : (stopFwStage s).StkSound := by
  unfold stopFwStage; (repeat' split) <;> simp (maxDischargeDepth := 9) [h]
@[simp] theorem stopBootLoad_stk (s : State) (h : s.StkSound) : (stopBootLoad s).StkSound := by
  unfold stopBootLoad; (repeat' split) <;> simp (maxDischargeDepth := 9) [h]
@[simp] theorem stopRowState_stk (s : State) (h : s.StkSound) : (stopRowState s).StkSound := by
  unfold stopRowState; (repeat' split) <;> simp (maxDischargeDepth := 9) [h]
@[simp] theorem stopSending_stk (s : State) (h : s.StkSound) : (stopSending s).StkSound := by
  unfold stopSending; refine foldl_stk _ _ _ (by simp (maxDischargeDepth := 9) [h]) ?_; intro s x h; first | (simp (maxDischargeDepth := 9) [h]; done) | ((repeat' split) <;> simp (maxDischargeDepth := 9) [h]; done) | (dsimp only; (repeat' split) <;> simp (maxDischargeDepth := 9) [h]; done)
@[simp] theorem stopReadings_stk (s : State) (h : s.StkSound) : (stopReadings s).StkSound := by
  unfold stopReadings; (repeat' split) <;> simp (maxDischargeDepth := 9) [h]
@[simp] theorem stopRefetches_stk (s : State) (h : s.StkSound) : (stopRefetches s).StkSound := by
  refine foldl_stk _ _ _ h fun s p hs => foldl_stk _ _ _ hs fun s x hs => ?_
  split
  · exact blankBlock_stk _ _ _ _ hs
  · exact hs
@[simp] theorem stopDma_stk (s : State) (h : s.StkSound) : (stopDma s).StkSound := by
  unfold stopDma
  extract_lets s1 p1 s2
  have h1 : s1.StkSound := forAll_stk _ _ _ h fun g s hs => stopStage_stk _ _ hs
  have h2 : s2.StkSound := h1
  exact stopRefetches_stk _ (stopReadings_stk _ (stopSending_stk _ (stopRowState_stk _ (stopBootLoad_stk _ (stopFwStage_stk _ h2)))))
@[simp] theorem functionReset_stk (s : State) (h : s.StkSound) : (functionReset s).StkSound := by
  simp (maxDischargeDepth := 9) [functionReset, h]
theorem execFlr_stk (s : State) {t : State} (h : s.StkSound) (e : execFlr s = .next t) : t.StkSound := by
  unfold execFlr at e
  cases e
  simp (maxDischargeDepth := 9) [h]
@[simp] theorem linkLost_stk (s : State) (h : s.StkSound) : (linkLost s).StkSound := by
  simp (maxDischargeDepth := 9) [linkLost, h]
theorem execPcieLinkDown_stk (s : State) {t : State} (h : s.StkSound) (e : execPcieLinkDown s = .next t) : t.StkSound := by
  unfold execPcieLinkDown at e
  cases e
  (repeat' split) <;> simp (maxDischargeDepth := 9) [h]
theorem execPcieLinkTrained_stk (gen : BitVec 4) (width : BitVec 5) (s : State) {t : State} (h : s.StkSound) (e : execPcieLinkTrained gen width s = .next t) : t.StkSound := by
  unfold execPcieLinkTrained at e
  cases e
  (repeat' split) <;> simp (maxDischargeDepth := 9) [h]
theorem execPcieUncorr_stk (s : State) {t : State} (h : s.StkSound) (e : execPcieUncorr s = .next t) : t.StkSound := by
  unfold execPcieUncorr at e
  cases e
  simp (maxDischargeDepth := 9) [h]
theorem execPcieCorr_stk (s : State) {t : State} (h : s.StkSound) (e : execPcieCorr s = .next t) : t.StkSound := by
  unfold execPcieCorr at e
  cases e
  simp (maxDischargeDepth := 9) [h]
theorem execPerstN_stk (low : Bool) (s : State) {t : State} (h : s.StkSound) (e : execPerstN low s = .next t) : t.StkSound := by
  unfold execPerstN at e
  cases e
  (repeat' split) <;> simp (maxDischargeDepth := 9) [h]
@[simp] theorem setHost_stk (f : HostIf → HostIf) (s : State) : (setHost f s).StkSound ↔ (f s.host).StkSound := Iff.rfl

@[simp] theorem msixWrite_stk (i : Nat) (v : Word) (s : State) (h : s.StkSound) : (msixWrite i v s).StkSound := by
  simp (maxDischargeDepth := 9) [msixWrite, h]
@[simp] theorem stickyWrite_stk (n : Nat) (reg : Nat) (v : Word) (s : State) (h : s.StkSound) : (stickyWrite n reg v s).StkSound := by
  have hm : State.StkSound (setHost (fun h => { h with stkMask := upd h.stkMask n fun _ => v }) s) :=
    ⟨h.stkLen, (length_upd _ _ _).trans h.maskLen, h.firstLen, h.stkBits, h.valid⟩
  exact ite_stk h (ite_stk (Log.stkClear_stk _ _ _ h) (ite_stk hm h))
@[simp] theorem controlWrite_stk (reg : Nat) (v : Word) (s : State) (h : s.StkSound) : (controlWrite reg v s).StkSound := by
  unfold controlWrite
  refine ite_stk (doorbell_stk _ _ h) (ite_stk (respAck_stk _ _ h) (ite_stk h (ite_stk (evqTail_stk _ _ h) ?_)))
  exact ite_stk h (ite_stk h (ite_stk h (ite_stk (ringProd_stk _ _ _ h) (ite_stk h (ite_stk h h)))))
@[simp] theorem cvRegWrite_stk (k : Nat) (reg : Nat) (v : Word) (s : State) (h : s.StkSound) : (cvRegWrite k reg v s).StkSound := by
  unfold cvRegWrite; (repeat' split) <;> simp (maxDischargeDepth := 9) [h]
@[simp] theorem lowerWrite_stk (off : Nat) (v : Word) (s : State) (h : s.StkSound) : (lowerWrite off v s).StkSound := by
  unfold lowerWrite; dsimp only; (repeat' split) <;> simp (maxDischargeDepth := 9) [h]
@[simp] theorem upperWrite_stk (off : Nat) (v : Word) (s : State) (h : s.StkSound) : (upperWrite off v s).StkSound := by
  unfold upperWrite; dsimp only; (repeat' split) <;> simp (maxDischargeDepth := 9) [h]
@[simp] theorem bar0Write_stk (off : Nat) (v : Word) (s : State) (h : s.StkSound) : (bar0Write off v s).StkSound := by
  have h1 := fun n r => stickyWrite_stk n r v s h
  have hp : State.StkSound { s with pers := { s.pers with almCursor := v } } := h
  have hq : (setHost (fun h => { h with scratch := v }) s).StkSound := h
  unfold bar0Write
  refine ite_stk (lowerWrite_stk _ _ _ h) (ite_stk (upperWrite_stk _ _ _ h) (ite_stk (wdogRestart_stk _ h) (ite_stk (hostWdogCfg_stk _ _ h) ?_)))
  refine ite_stk hq (ite_stk (h1 _ _) (ite_stk (msixWrite_stk _ _ _ h) (ite_stk (controlWrite_stk _ _ _ h) ?_)))
  exact ite_stk hp (ite_stk (prfWrite_stk _ _ _ h) (ite_stk (cvRegWrite_stk _ _ _ _ h) h))
@[simp] theorem slotsWrite_stk (off : Nat) (bytes : List (Option Byte)) (s : State) (h : s.StkSound) : (slotsWrite off bytes s).StkSound := by
  unfold slotsWrite; refine foldl_stk _ _ _ (by simp (maxDischargeDepth := 9) [h]) ?_; intro s x h; first | (simp (maxDischargeDepth := 9) [h]; done) | ((repeat' split) <;> simp (maxDischargeDepth := 9) [h]; done) | (dsimp only; (repeat' split) <;> simp (maxDischargeDepth := 9) [h]; done)
theorem execRegisterWrite_stk (off : Fin 1048576) (bytes : List (Option Byte)) (s : State) {t : State} (h : s.StkSound) (e : execRegisterWrite off bytes s = .next t) : t.StkSound := by
  unfold execRegisterWrite at e
  cases e
  (repeat' split) <;> simp (maxDischargeDepth := 9) [h]
theorem execReg64LowerWrite_stk (reg : Fin 1048576) (v : Word) (s : State) {t : State} (h : s.StkSound) (e : execReg64LowerWrite reg v s = .next t) : t.StkSound := by
  unfold execReg64LowerWrite at e
  cases e
  (repeat' split) <;> simp (maxDischargeDepth := 9) [h]
theorem execReg64UpperWrite_stk (reg : Fin 1048576) (v : Word) (s : State) {t : State} (h : s.StkSound) (e : execReg64UpperWrite reg v s = .next t) : t.StkSound := by
  unfold execReg64UpperWrite at e
  cases e
  (repeat' split) <;> simp (maxDischargeDepth := 9) [h]
@[simp] theorem answerUndefined_stk (s : State) (h : s.StkSound) : (answerUndefined s).StkSound := by
  unfold answerUndefined; (repeat' split) <;> simp (maxDischargeDepth := 9) [h]
@[simp] theorem idleTick_stk (s : State) (h : s.StkSound) : (idleTick s).StkSound := by
  simp (maxDischargeDepth := 9) [idleTick, h]
end Sys2Proof.Machine
end

