-- ==== Sys2Proof/Laws/State.lean ====
section
/-!
SUPPORT. What each named update of the state leaves and writes, part by part, so that no proof need unfold a record update: one lemma for each
part and update.
-/
namespace Sys2Proof.Machine

variable (s : State)

/-! ## setHost -/

@[simp] theorem setHost_host (f : HostIf → HostIf) : (setHost f s).host = f s.host := rfl
@[simp] theorem setHost_cg (f : HostIf → HostIf) : (setHost f s).cg = s.cg := rfl
@[simp] theorem setHost_pg (f : HostIf → HostIf) : (setHost f s).pg = s.pg := rfl
@[simp] theorem setHost_scr (f : HostIf → HostIf) : (setHost f s).scr = s.scr := rfl
@[simp] theorem setHost_fire (f : HostIf → HostIf) : (setHost f s).fire = s.fire := rfl
@[simp] theorem setHost_hl (f : HostIf → HostIf) : (setHost f s).hl = s.hl := rfl
@[simp] theorem setHost_insp (f : HostIf → HostIf) : (setHost f s).insp = s.insp := rfl
@[simp] theorem setHost_cal (f : HostIf → HostIf) : (setHost f s).cal = s.cal := rfl
@[simp] theorem setHost_pos (f : HostIf → HostIf) : (setHost f s).pos = s.pos := rfl
@[simp] theorem setHost_axes (f : HostIf → HostIf) : (setHost f s).axes = s.axes := rfl
@[simp] theorem setHost_lamp (f : HostIf → HostIf) : (setHost f s).lamp = s.lamp := rfl
@[simp] theorem setHost_twin (f : HostIf → HostIf) : (setHost f s).twin = s.twin := rfl
@[simp] theorem setHost_onyx (f : HostIf → HostIf) : (setHost f s).onyx = s.onyx := rfl
@[simp] theorem setHost_dram (f : HostIf → HostIf) : (setHost f s).dram = s.dram := rfl
@[simp] theorem setHost_pers (f : HostIf → HostIf) : (setHost f s).pers = s.pers := rfl
@[simp] theorem setHost_pwr (f : HostIf → HostIf) : (setHost f s).pwr = s.pwr := rfl
@[simp] theorem setHost_pending (f : HostIf → HostIf) : (setHost f s).pending = s.pending := rfl
@[simp] theorem setHost_free (f : HostIf → HostIf) : (setHost f s).free = s.free := rfl
@[simp] theorem setHost_out (f : HostIf → HostIf) : (setHost f s).out = s.out := rfl

/-! ## setDram -/

@[simp] theorem setDram_host (f : Dram → Dram) : (setDram f s).host = s.host := rfl
@[simp] theorem setDram_cg (f : Dram → Dram) : (setDram f s).cg = s.cg := rfl
@[simp] theorem setDram_pg (f : Dram → Dram) : (setDram f s).pg = s.pg := rfl
@[simp] theorem setDram_scr (f : Dram → Dram) : (setDram f s).scr = s.scr := rfl
@[simp] theorem setDram_fire (f : Dram → Dram) : (setDram f s).fire = s.fire := rfl
@[simp] theorem setDram_hl (f : Dram → Dram) : (setDram f s).hl = s.hl := rfl
@[simp] theorem setDram_insp (f : Dram → Dram) : (setDram f s).insp = s.insp := rfl
@[simp] theorem setDram_cal (f : Dram → Dram) : (setDram f s).cal = s.cal := rfl
@[simp] theorem setDram_pos (f : Dram → Dram) : (setDram f s).pos = s.pos := rfl
@[simp] theorem setDram_axes (f : Dram → Dram) : (setDram f s).axes = s.axes := rfl
@[simp] theorem setDram_lamp (f : Dram → Dram) : (setDram f s).lamp = s.lamp := rfl
@[simp] theorem setDram_twin (f : Dram → Dram) : (setDram f s).twin = s.twin := rfl
@[simp] theorem setDram_onyx (f : Dram → Dram) : (setDram f s).onyx = s.onyx := rfl
@[simp] theorem setDram_dram (f : Dram → Dram) : (setDram f s).dram = f s.dram := rfl
@[simp] theorem setDram_pers (f : Dram → Dram) : (setDram f s).pers = s.pers := rfl
@[simp] theorem setDram_pwr (f : Dram → Dram) : (setDram f s).pwr = s.pwr := rfl
@[simp] theorem setDram_pending (f : Dram → Dram) : (setDram f s).pending = s.pending := rfl
@[simp] theorem setDram_free (f : Dram → Dram) : (setDram f s).free = s.free := rfl
@[simp] theorem setDram_out (f : Dram → Dram) : (setDram f s).out = s.out := rfl

/-! ## withLog -/

@[simp] theorem withLog_host (l : Log) : (s.withLog l).host = l.host := rfl
@[simp] theorem withLog_cg (l : Log) : (s.withLog l).cg = s.cg := rfl
@[simp] theorem withLog_pg (l : Log) : (s.withLog l).pg = s.pg := rfl
@[simp] theorem withLog_scr (l : Log) : (s.withLog l).scr = s.scr := rfl
@[simp] theorem withLog_fire (l : Log) : (s.withLog l).fire = s.fire := rfl
@[simp] theorem withLog_hl (l : Log) : (s.withLog l).hl = s.hl := rfl
@[simp] theorem withLog_insp (l : Log) : (s.withLog l).insp = s.insp := rfl
@[simp] theorem withLog_cal (l : Log) : (s.withLog l).cal = s.cal := rfl
@[simp] theorem withLog_pos (l : Log) : (s.withLog l).pos = s.pos := rfl
@[simp] theorem withLog_axes (l : Log) : (s.withLog l).axes = s.axes := rfl
@[simp] theorem withLog_lamp (l : Log) : (s.withLog l).lamp = s.lamp := rfl
@[simp] theorem withLog_twin (l : Log) : (s.withLog l).twin = s.twin := rfl
@[simp] theorem withLog_onyx (l : Log) : (s.withLog l).onyx = s.onyx := rfl
@[simp] theorem withLog_dram (l : Log) : (s.withLog l).dram = s.dram := rfl
@[simp] theorem withLog_pers (l : Log) : (s.withLog l).pers = l.pers := rfl
@[simp] theorem withLog_pwr (l : Log) : (s.withLog l).pwr = s.pwr := rfl
@[simp] theorem withLog_pending (l : Log) : (s.withLog l).pending = s.pending := rfl
@[simp] theorem withLog_free (l : Log) : (s.withLog l).free = s.free := rfl
@[simp] theorem withLog_out (l : Log) : (s.withLog l).out = l.out := rfl

/-! ## stick -/

@[simp] theorem stick_host (k : Sticky) : (stick k s).host = (s.log.stick k).host := rfl
@[simp] theorem stick_cg (k : Sticky) : (stick k s).cg = s.cg := rfl
@[simp] theorem stick_pg (k : Sticky) : (stick k s).pg = s.pg := rfl
@[simp] theorem stick_scr (k : Sticky) : (stick k s).scr = s.scr := rfl
@[simp] theorem stick_fire (k : Sticky) : (stick k s).fire = s.fire := rfl
@[simp] theorem stick_hl (k : Sticky) : (stick k s).hl = s.hl := rfl
@[simp] theorem stick_insp (k : Sticky) : (stick k s).insp = s.insp := rfl
@[simp] theorem stick_cal (k : Sticky) : (stick k s).cal = s.cal := rfl
@[simp] theorem stick_pos (k : Sticky) : (stick k s).pos = s.pos := rfl
@[simp] theorem stick_axes (k : Sticky) : (stick k s).axes = s.axes := rfl
@[simp] theorem stick_lamp (k : Sticky) : (stick k s).lamp = s.lamp := rfl
@[simp] theorem stick_twin (k : Sticky) : (stick k s).twin = s.twin := rfl
@[simp] theorem stick_onyx (k : Sticky) : (stick k s).onyx = s.onyx := rfl
@[simp] theorem stick_dram (k : Sticky) : (stick k s).dram = s.dram := rfl
@[simp] theorem stick_pers (k : Sticky) : (stick k s).pers = (s.log.stick k).pers := rfl
@[simp] theorem stick_pwr (k : Sticky) : (stick k s).pwr = s.pwr := rfl
@[simp] theorem stick_pending (k : Sticky) : (stick k s).pending = s.pending := rfl
@[simp] theorem stick_free (k : Sticky) : (stick k s).free = s.free := rfl
@[simp] theorem stick_out (k : Sticky) : (stick k s).out = (s.log.stick k).out := rfl

/-! ## stickRec -/

@[simp] theorem stickRec_host (k : Sticky) (source : Nat) : (stickRec k s source).host = (s.log.stickRec s.line k source).host := rfl
@[simp] theorem stickRec_cg (k : Sticky) (source : Nat) : (stickRec k s source).cg = s.cg := rfl
@[simp] theorem stickRec_pg (k : Sticky) (source : Nat) : (stickRec k s source).pg = s.pg := rfl
@[simp] theorem stickRec_scr (k : Sticky) (source : Nat) : (stickRec k s source).scr = s.scr := rfl
@[simp] theorem stickRec_fire (k : Sticky) (source : Nat) : (stickRec k s source).fire = s.fire := rfl
@[simp] theorem stickRec_hl (k : Sticky) (source : Nat) : (stickRec k s source).hl = s.hl := rfl
@[simp] theorem stickRec_insp (k : Sticky) (source : Nat) : (stickRec k s source).insp = s.insp := rfl
@[simp] theorem stickRec_cal (k : Sticky) (source : Nat) : (stickRec k s source).cal = s.cal := rfl
@[simp] theorem stickRec_pos (k : Sticky) (source : Nat) : (stickRec k s source).pos = s.pos := rfl
@[simp] theorem stickRec_axes (k : Sticky) (source : Nat) : (stickRec k s source).axes = s.axes := rfl
@[simp] theorem stickRec_lamp (k : Sticky) (source : Nat) : (stickRec k s source).lamp = s.lamp := rfl
@[simp] theorem stickRec_twin (k : Sticky) (source : Nat) : (stickRec k s source).twin = s.twin := rfl
@[simp] theorem stickRec_onyx (k : Sticky) (source : Nat) : (stickRec k s source).onyx = s.onyx := rfl
@[simp] theorem stickRec_dram (k : Sticky) (source : Nat) : (stickRec k s source).dram = s.dram := rfl
@[simp] theorem stickRec_pers (k : Sticky) (source : Nat) : (stickRec k s source).pers = (s.log.stickRec s.line k source).pers := rfl
@[simp] theorem stickRec_pwr (k : Sticky) (source : Nat) : (stickRec k s source).pwr = s.pwr := rfl
@[simp] theorem stickRec_pending (k : Sticky) (source : Nat) : (stickRec k s source).pending = s.pending := rfl
@[simp] theorem stickRec_free (k : Sticky) (source : Nat) : (stickRec k s source).free = s.free := rfl
@[simp] theorem stickRec_out (k : Sticky) (source : Nat) : (stickRec k s source).out = (s.log.stickRec s.line k source).out := rfl

/-! ## event -/

@[simp] theorem event_host (e : Event) : (event e s).host = (s.log.event s.line e).host := rfl
@[simp] theorem event_cg (e : Event) : (event e s).cg = s.cg := rfl
@[simp] theorem event_pg (e : Event) : (event e s).pg = s.pg := rfl
@[simp] theorem event_scr (e : Event) : (event e s).scr = s.scr := rfl
@[simp] theorem event_fire (e : Event) : (event e s).fire = s.fire := rfl
@[simp] theorem event_hl (e : Event) : (event e s).hl = s.hl := rfl
@[simp] theorem event_insp (e : Event) : (event e s).insp = s.insp := rfl
@[simp] theorem event_cal (e : Event) : (event e s).cal = s.cal := rfl
@[simp] theorem event_pos (e : Event) : (event e s).pos = s.pos := rfl
@[simp] theorem event_axes (e : Event) : (event e s).axes = s.axes := rfl
@[simp] theorem event_lamp (e : Event) : (event e s).lamp = s.lamp := rfl
@[simp] theorem event_twin (e : Event) : (event e s).twin = s.twin := rfl
@[simp] theorem event_onyx (e : Event) : (event e s).onyx = s.onyx := rfl
@[simp] theorem event_dram (e : Event) : (event e s).dram = s.dram := rfl
@[simp] theorem event_pers (e : Event) : (event e s).pers = (s.log.event s.line e).pers := rfl
@[simp] theorem event_pwr (e : Event) : (event e s).pwr = s.pwr := rfl
@[simp] theorem event_pending (e : Event) : (event e s).pending = s.pending := rfl
@[simp] theorem event_free (e : Event) : (event e s).free = s.free := rfl
@[simp] theorem event_out (e : Event) : (event e s).out = (s.log.event s.line e).out := rfl

/-! ## completeNow -/

@[simp] theorem completeNow_host (opcode : Nat) (tag : Word) (status : Nat) (p0 p1 p2 : Word) : (completeNow opcode tag status p0 p1 p2 s).host = (s.log.complete s.line opcode tag status p0 p1 p2).host := rfl
@[simp] theorem completeNow_cg (opcode : Nat) (tag : Word) (status : Nat) (p0 p1 p2 : Word) : (completeNow opcode tag status p0 p1 p2 s).cg = s.cg := rfl
@[simp] theorem completeNow_pg (opcode : Nat) (tag : Word) (status : Nat) (p0 p1 p2 : Word) : (completeNow opcode tag status p0 p1 p2 s).pg = s.pg := rfl
@[simp] theorem completeNow_scr (opcode : Nat) (tag : Word) (status : Nat) (p0 p1 p2 : Word) : (completeNow opcode tag status p0 p1 p2 s).scr = s.scr := rfl
@[simp] theorem completeNow_fire (opcode : Nat) (tag : Word) (status : Nat) (p0 p1 p2 : Word) : (completeNow opcode tag status p0 p1 p2 s).fire = s.fire := rfl
@[simp] theorem completeNow_hl (opcode : Nat) (tag : Word) (status : Nat) (p0 p1 p2 : Word) : (completeNow opcode tag status p0 p1 p2 s).hl = s.hl := rfl
@[simp] theorem completeNow_insp (opcode : Nat) (tag : Word) (status : Nat) (p0 p1 p2 : Word) : (completeNow opcode tag status p0 p1 p2 s).insp = s.insp := rfl
@[simp] theorem completeNow_cal (opcode : Nat) (tag : Word) (status : Nat) (p0 p1 p2 : Word) : (completeNow opcode tag status p0 p1 p2 s).cal = s.cal := rfl
@[simp] theorem completeNow_pos (opcode : Nat) (tag : Word) (status : Nat) (p0 p1 p2 : Word) : (completeNow opcode tag status p0 p1 p2 s).pos = s.pos := rfl
@[simp] theorem completeNow_axes (opcode : Nat) (tag : Word) (status : Nat) (p0 p1 p2 : Word) : (completeNow opcode tag status p0 p1 p2 s).axes = s.axes := rfl
@[simp] theorem completeNow_lamp (opcode : Nat) (tag : Word) (status : Nat) (p0 p1 p2 : Word) : (completeNow opcode tag status p0 p1 p2 s).lamp = s.lamp := rfl
@[simp] theorem completeNow_twin (opcode : Nat) (tag : Word) (status : Nat) (p0 p1 p2 : Word) : (completeNow opcode tag status p0 p1 p2 s).twin = s.twin := rfl
@[simp] theorem completeNow_onyx (opcode : Nat) (tag : Word) (status : Nat) (p0 p1 p2 : Word) : (completeNow opcode tag status p0 p1 p2 s).onyx = s.onyx := rfl
@[simp] theorem completeNow_dram (opcode : Nat) (tag : Word) (status : Nat) (p0 p1 p2 : Word) : (completeNow opcode tag status p0 p1 p2 s).dram = s.dram := rfl
@[simp] theorem completeNow_pers (opcode : Nat) (tag : Word) (status : Nat) (p0 p1 p2 : Word) : (completeNow opcode tag status p0 p1 p2 s).pers = (s.log.complete s.line opcode tag status p0 p1 p2).pers := rfl
@[simp] theorem completeNow_pwr (opcode : Nat) (tag : Word) (status : Nat) (p0 p1 p2 : Word) : (completeNow opcode tag status p0 p1 p2 s).pwr = s.pwr := rfl
@[simp] theorem completeNow_pending (opcode : Nat) (tag : Word) (status : Nat) (p0 p1 p2 : Word) : (completeNow opcode tag status p0 p1 p2 s).pending = s.pending := rfl
@[simp] theorem completeNow_free (opcode : Nat) (tag : Word) (status : Nat) (p0 p1 p2 : Word) : (completeNow opcode tag status p0 p1 p2 s).free = s.free := rfl
@[simp] theorem completeNow_out (opcode : Nat) (tag : Word) (status : Nat) (p0 p1 p2 : Word) : (completeNow opcode tag status p0 p1 p2 s).out = (s.log.complete s.line opcode tag status p0 p1 p2).out := rfl

/-! ## sendVec -/

@[simp] theorem sendVec_host (v : Nat) : (sendVec v s).host = (s.log.send v).host := rfl
@[simp] theorem sendVec_cg (v : Nat) : (sendVec v s).cg = s.cg := rfl
@[simp] theorem sendVec_pg (v : Nat) : (sendVec v s).pg = s.pg := rfl
@[simp] theorem sendVec_scr (v : Nat) : (sendVec v s).scr = s.scr := rfl
@[simp] theorem sendVec_fire (v : Nat) : (sendVec v s).fire = s.fire := rfl
@[simp] theorem sendVec_hl (v : Nat) : (sendVec v s).hl = s.hl := rfl
@[simp] theorem sendVec_insp (v : Nat) : (sendVec v s).insp = s.insp := rfl
@[simp] theorem sendVec_cal (v : Nat) : (sendVec v s).cal = s.cal := rfl
@[simp] theorem sendVec_pos (v : Nat) : (sendVec v s).pos = s.pos := rfl
@[simp] theorem sendVec_axes (v : Nat) : (sendVec v s).axes = s.axes := rfl
@[simp] theorem sendVec_lamp (v : Nat) : (sendVec v s).lamp = s.lamp := rfl
@[simp] theorem sendVec_twin (v : Nat) : (sendVec v s).twin = s.twin := rfl
@[simp] theorem sendVec_onyx (v : Nat) : (sendVec v s).onyx = s.onyx := rfl
@[simp] theorem sendVec_dram (v : Nat) : (sendVec v s).dram = s.dram := rfl
@[simp] theorem sendVec_pers (v : Nat) : (sendVec v s).pers = (s.log.send v).pers := rfl
@[simp] theorem sendVec_pwr (v : Nat) : (sendVec v s).pwr = s.pwr := rfl
@[simp] theorem sendVec_pending (v : Nat) : (sendVec v s).pending = s.pending := rfl
@[simp] theorem sendVec_free (v : Nat) : (sendVec v s).free = s.free := rfl
@[simp] theorem sendVec_out (v : Nat) : (sendVec v s).out = (s.log.send v).out := rfl

/-! ## respond -/

@[simp] theorem respond_host (slot : Nat) (a : Ans) : (respond slot a s).host = (s.log.respond slot a).host := rfl
@[simp] theorem respond_cg (slot : Nat) (a : Ans) : (respond slot a s).cg = s.cg := rfl
@[simp] theorem respond_pg (slot : Nat) (a : Ans) : (respond slot a s).pg = s.pg := rfl
@[simp] theorem respond_scr (slot : Nat) (a : Ans) : (respond slot a s).scr = s.scr := rfl
@[simp] theorem respond_fire (slot : Nat) (a : Ans) : (respond slot a s).fire = s.fire := rfl
@[simp] theorem respond_hl (slot : Nat) (a : Ans) : (respond slot a s).hl = s.hl := rfl
@[simp] theorem respond_insp (slot : Nat) (a : Ans) : (respond slot a s).insp = s.insp := rfl
@[simp] theorem respond_cal (slot : Nat) (a : Ans) : (respond slot a s).cal = s.cal := rfl
@[simp] theorem respond_pos (slot : Nat) (a : Ans) : (respond slot a s).pos = s.pos := rfl
@[simp] theorem respond_axes (slot : Nat) (a : Ans) : (respond slot a s).axes = s.axes := rfl
@[simp] theorem respond_lamp (slot : Nat) (a : Ans) : (respond slot a s).lamp = s.lamp := rfl
@[simp] theorem respond_twin (slot : Nat) (a : Ans) : (respond slot a s).twin = s.twin := rfl
@[simp] theorem respond_onyx (slot : Nat) (a : Ans) : (respond slot a s).onyx = s.onyx := rfl
@[simp] theorem respond_dram (slot : Nat) (a : Ans) : (respond slot a s).dram = s.dram := rfl
@[simp] theorem respond_pers (slot : Nat) (a : Ans) : (respond slot a s).pers = (s.log.respond slot a).pers := rfl
@[simp] theorem respond_pwr (slot : Nat) (a : Ans) : (respond slot a s).pwr = s.pwr := rfl
@[simp] theorem respond_pending (slot : Nat) (a : Ans) : (respond slot a s).pending = s.pending := rfl
@[simp] theorem respond_free (slot : Nat) (a : Ans) : (respond slot a s).free = s.free := rfl
@[simp] theorem respond_out (slot : Nat) (a : Ans) : (respond slot a s).out = (s.log.respond slot a).out := rfl

/-! ## emits -/

@[simp] theorem emits_host (os : List Output) : (emits os s).host = s.host := rfl
@[simp] theorem emits_cg (os : List Output) : (emits os s).cg = s.cg := rfl
@[simp] theorem emits_pg (os : List Output) : (emits os s).pg = s.pg := rfl
@[simp] theorem emits_scr (os : List Output) : (emits os s).scr = s.scr := rfl
@[simp] theorem emits_fire (os : List Output) : (emits os s).fire = s.fire := rfl
@[simp] theorem emits_hl (os : List Output) : (emits os s).hl = s.hl := rfl
@[simp] theorem emits_insp (os : List Output) : (emits os s).insp = s.insp := rfl
@[simp] theorem emits_cal (os : List Output) : (emits os s).cal = s.cal := rfl
@[simp] theorem emits_pos (os : List Output) : (emits os s).pos = s.pos := rfl
@[simp] theorem emits_axes (os : List Output) : (emits os s).axes = s.axes := rfl
@[simp] theorem emits_lamp (os : List Output) : (emits os s).lamp = s.lamp := rfl
@[simp] theorem emits_twin (os : List Output) : (emits os s).twin = s.twin := rfl
@[simp] theorem emits_onyx (os : List Output) : (emits os s).onyx = s.onyx := rfl
@[simp] theorem emits_dram (os : List Output) : (emits os s).dram = s.dram := rfl
@[simp] theorem emits_pers (os : List Output) : (emits os s).pers = s.pers := rfl
@[simp] theorem emits_pwr (os : List Output) : (emits os s).pwr = s.pwr := rfl
@[simp] theorem emits_pending (os : List Output) : (emits os s).pending = s.pending := rfl
@[simp] theorem emits_free (os : List Output) : (emits os s).free = s.free := rfl
@[simp] theorem emits_out (os : List Output) : (emits os s).out = os.reverse ++ s.out := rfl

/-! ## readHost -/

@[simp] theorem readHost_host (addr len : Nat) : (readHost addr len s).host = s.host := rfl
@[simp] theorem readHost_cg (addr len : Nat) : (readHost addr len s).cg = s.cg := rfl
@[simp] theorem readHost_pg (addr len : Nat) : (readHost addr len s).pg = s.pg := rfl
@[simp] theorem readHost_scr (addr len : Nat) : (readHost addr len s).scr = s.scr := rfl
@[simp] theorem readHost_fire (addr len : Nat) : (readHost addr len s).fire = s.fire := rfl
@[simp] theorem readHost_hl (addr len : Nat) : (readHost addr len s).hl = s.hl := rfl
@[simp] theorem readHost_insp (addr len : Nat) : (readHost addr len s).insp = s.insp := rfl
@[simp] theorem readHost_cal (addr len : Nat) : (readHost addr len s).cal = s.cal := rfl
@[simp] theorem readHost_pos (addr len : Nat) : (readHost addr len s).pos = s.pos := rfl
@[simp] theorem readHost_axes (addr len : Nat) : (readHost addr len s).axes = s.axes := rfl
@[simp] theorem readHost_lamp (addr len : Nat) : (readHost addr len s).lamp = s.lamp := rfl
@[simp] theorem readHost_twin (addr len : Nat) : (readHost addr len s).twin = s.twin := rfl
@[simp] theorem readHost_onyx (addr len : Nat) : (readHost addr len s).onyx = s.onyx := rfl
@[simp] theorem readHost_dram (addr len : Nat) : (readHost addr len s).dram = s.dram := rfl
@[simp] theorem readHost_pers (addr len : Nat) : (readHost addr len s).pers = s.pers := rfl
@[simp] theorem readHost_pwr (addr len : Nat) : (readHost addr len s).pwr = s.pwr := rfl
@[simp] theorem readHost_pending (addr len : Nat) : (readHost addr len s).pending = s.pending := rfl
@[simp] theorem readHost_free (addr len : Nat) : (readHost addr len s).free = s.free := rfl
@[simp] theorem readHost_out (addr len : Nat) : (readHost addr len s).out = (readReqs s.host.maxRead addr len).reverse ++ s.out := rfl

/-! ## orderStop -/

@[simp] theorem orderStop_host : (orderStop s).host = s.host := rfl
@[simp] theorem orderStop_cg : (orderStop s).cg = s.cg := rfl
@[simp] theorem orderStop_pg : (orderStop s).pg = s.pg := rfl
@[simp] theorem orderStop_scr : (orderStop s).scr = s.scr := rfl
@[simp] theorem orderStop_fire : (orderStop s).fire = { s.fire with stopAt := s.fire.stopAt.or (some s.pos.mono) } := rfl
@[simp] theorem orderStop_hl : (orderStop s).hl = s.hl := rfl
@[simp] theorem orderStop_insp : (orderStop s).insp = s.insp := rfl
@[simp] theorem orderStop_cal : (orderStop s).cal = s.cal := rfl
@[simp] theorem orderStop_pos : (orderStop s).pos = s.pos := rfl
@[simp] theorem orderStop_axes : (orderStop s).axes = s.axes := rfl
@[simp] theorem orderStop_lamp : (orderStop s).lamp = s.lamp := rfl
@[simp] theorem orderStop_twin : (orderStop s).twin = s.twin := rfl
@[simp] theorem orderStop_onyx : (orderStop s).onyx = s.onyx := rfl
@[simp] theorem orderStop_dram : (orderStop s).dram = s.dram := rfl
@[simp] theorem orderStop_pers : (orderStop s).pers = s.pers := rfl
@[simp] theorem orderStop_pwr : (orderStop s).pwr = s.pwr := rfl
@[simp] theorem orderStop_pending : (orderStop s).pending = s.pending := rfl
@[simp] theorem orderStop_free : (orderStop s).free = s.free := rfl
@[simp] theorem orderStop_out : (orderStop s).out = s.out := rfl

/-! ## dropFetch -/

@[simp] theorem dropFetch_host (r : Nat) : (dropFetch r s).host = s.host := rfl
@[simp] theorem dropFetch_cg (r : Nat) : (dropFetch r s).cg = s.cg := rfl
@[simp] theorem dropFetch_pg (r : Nat) : (dropFetch r s).pg = { s.pg with descReq := s.pg.descReq.filter fun d => d.1 != r } := rfl
@[simp] theorem dropFetch_scr (r : Nat) : (dropFetch r s).scr = s.scr := rfl
@[simp] theorem dropFetch_fire (r : Nat) : (dropFetch r s).fire = s.fire := rfl
@[simp] theorem dropFetch_hl (r : Nat) : (dropFetch r s).hl = s.hl := rfl
@[simp] theorem dropFetch_insp (r : Nat) : (dropFetch r s).insp = s.insp := rfl
@[simp] theorem dropFetch_cal (r : Nat) : (dropFetch r s).cal = s.cal := rfl
@[simp] theorem dropFetch_pos (r : Nat) : (dropFetch r s).pos = s.pos := rfl
@[simp] theorem dropFetch_axes (r : Nat) : (dropFetch r s).axes = s.axes := rfl
@[simp] theorem dropFetch_lamp (r : Nat) : (dropFetch r s).lamp = s.lamp := rfl
@[simp] theorem dropFetch_twin (r : Nat) : (dropFetch r s).twin = s.twin := rfl
@[simp] theorem dropFetch_onyx (r : Nat) : (dropFetch r s).onyx = s.onyx := rfl
@[simp] theorem dropFetch_dram (r : Nat) : (dropFetch r s).dram = s.dram := rfl
@[simp] theorem dropFetch_pers (r : Nat) : (dropFetch r s).pers = s.pers := rfl
@[simp] theorem dropFetch_pwr (r : Nat) : (dropFetch r s).pwr = s.pwr := rfl
@[simp] theorem dropFetch_pending (r : Nat) : (dropFetch r s).pending = s.pending := rfl
@[simp] theorem dropFetch_free (r : Nat) : (dropFetch r s).free = s.free := rfl
@[simp] theorem dropFetch_out (r : Nat) : (dropFetch r s).out = s.out := rfl

/-! ## setOutputs -/

@[simp] theorem setOutputs_host (op : OpState) (p : PwrState) : (setOutputs op p s).host = s.host := rfl
@[simp] theorem setOutputs_cg (op : OpState) (p : PwrState) : (setOutputs op p s).cg = s.cg := rfl
@[simp] theorem setOutputs_pg (op : OpState) (p : PwrState) : (setOutputs op p s).pg = s.pg := rfl
@[simp] theorem setOutputs_scr (op : OpState) (p : PwrState) : (setOutputs op p s).scr = s.scr := rfl
@[simp] theorem setOutputs_fire (op : OpState) (p : PwrState) : (setOutputs op p s).fire = s.fire := rfl
@[simp] theorem setOutputs_hl (op : OpState) (p : PwrState) : (setOutputs op p s).hl = s.hl := rfl
@[simp] theorem setOutputs_insp (op : OpState) (p : PwrState) : (setOutputs op p s).insp = s.insp := rfl
@[simp] theorem setOutputs_cal (op : OpState) (p : PwrState) : (setOutputs op p s).cal = s.cal := rfl
@[simp] theorem setOutputs_pos (op : OpState) (p : PwrState) : (setOutputs op p s).pos = s.pos := rfl
@[simp] theorem setOutputs_axes (op : OpState) (p : PwrState) : (setOutputs op p s).axes = s.axes := rfl
@[simp] theorem setOutputs_lamp (op : OpState) (p : PwrState) : (setOutputs op p s).lamp = s.lamp := rfl
@[simp] theorem setOutputs_twin (op : OpState) (p : PwrState) : (setOutputs op p s).twin = s.twin := rfl
@[simp] theorem setOutputs_dram (op : OpState) (p : PwrState) : (setOutputs op p s).dram = s.dram := rfl
@[simp] theorem setOutputs_pers (op : OpState) (p : PwrState) : (setOutputs op p s).pers = s.pers := rfl
@[simp] theorem setOutputs_pwr (op : OpState) (p : PwrState) : (setOutputs op p s).pwr = s.pwr := rfl
@[simp] theorem setOutputs_pending (op : OpState) (p : PwrState) : (setOutputs op p s).pending = s.pending := rfl
@[simp] theorem setOutputs_free (op : OpState) (p : PwrState) : (setOutputs op p s).free = s.free := rfl
@[simp] theorem setOutputs_out (op : OpState) (p : PwrState) : (setOutputs op p s).out = s.out := rfl

/-! ## setGroup -/

@[simp] theorem setGroup_host (g : Nat) (f : Group → Group) : (setGroup g f s).host = s.host := rfl
@[simp] theorem setGroup_cg (g : Nat) (f : Group → Group) : (setGroup g f s).cg = { s.cg with groups := upd s.cg.groups g f } := rfl
@[simp] theorem setGroup_pg (g : Nat) (f : Group → Group) : (setGroup g f s).pg = s.pg := rfl
@[simp] theorem setGroup_scr (g : Nat) (f : Group → Group) : (setGroup g f s).scr = s.scr := rfl
@[simp] theorem setGroup_fire (g : Nat) (f : Group → Group) : (setGroup g f s).fire = s.fire := rfl
@[simp] theorem setGroup_hl (g : Nat) (f : Group → Group) : (setGroup g f s).hl = s.hl := rfl
@[simp] theorem setGroup_insp (g : Nat) (f : Group → Group) : (setGroup g f s).insp = s.insp := rfl
@[simp] theorem setGroup_cal (g : Nat) (f : Group → Group) : (setGroup g f s).cal = s.cal := rfl
@[simp] theorem setGroup_pos (g : Nat) (f : Group → Group) : (setGroup g f s).pos = s.pos := rfl
@[simp] theorem setGroup_axes (g : Nat) (f : Group → Group) : (setGroup g f s).axes = s.axes := rfl
@[simp] theorem setGroup_lamp (g : Nat) (f : Group → Group) : (setGroup g f s).lamp = s.lamp := rfl
@[simp] theorem setGroup_twin (g : Nat) (f : Group → Group) : (setGroup g f s).twin = s.twin := rfl
@[simp] theorem setGroup_onyx (g : Nat) (f : Group → Group) : (setGroup g f s).onyx = s.onyx := rfl
@[simp] theorem setGroup_dram (g : Nat) (f : Group → Group) : (setGroup g f s).dram = s.dram := rfl
@[simp] theorem setGroup_pers (g : Nat) (f : Group → Group) : (setGroup g f s).pers = s.pers := rfl
@[simp] theorem setGroup_pwr (g : Nat) (f : Group → Group) : (setGroup g f s).pwr = s.pwr := rfl
@[simp] theorem setGroup_pending (g : Nat) (f : Group → Group) : (setGroup g f s).pending = s.pending := rfl
@[simp] theorem setGroup_free (g : Nat) (f : Group → Group) : (setGroup g f s).free = s.free := rfl
@[simp] theorem setGroup_out (g : Nat) (f : Group → Group) : (setGroup g f s).out = s.out := rfl

/-! ## setLane -/

@[simp] theorem setLane_host (m : Nat) (f : Lane → Lane) : (setLane m f s).host = s.host := rfl
@[simp] theorem setLane_cg (m : Nat) (f : Lane → Lane) : (setLane m f s).cg = s.cg := rfl
@[simp] theorem setLane_pg (m : Nat) (f : Lane → Lane) : (setLane m f s).pg = s.pg := rfl
@[simp] theorem setLane_scr (m : Nat) (f : Lane → Lane) : (setLane m f s).scr = s.scr := rfl
@[simp] theorem setLane_fire (m : Nat) (f : Lane → Lane) : (setLane m f s).fire = s.fire := rfl
@[simp] theorem setLane_hl (m : Nat) (f : Lane → Lane) : (setLane m f s).hl = { s.hl with lanes := upd s.hl.lanes m f } := rfl
@[simp] theorem setLane_insp (m : Nat) (f : Lane → Lane) : (setLane m f s).insp = s.insp := rfl
@[simp] theorem setLane_cal (m : Nat) (f : Lane → Lane) : (setLane m f s).cal = s.cal := rfl
@[simp] theorem setLane_pos (m : Nat) (f : Lane → Lane) : (setLane m f s).pos = s.pos := rfl
@[simp] theorem setLane_axes (m : Nat) (f : Lane → Lane) : (setLane m f s).axes = s.axes := rfl
@[simp] theorem setLane_lamp (m : Nat) (f : Lane → Lane) : (setLane m f s).lamp = s.lamp := rfl
@[simp] theorem setLane_twin (m : Nat) (f : Lane → Lane) : (setLane m f s).twin = s.twin := rfl
@[simp] theorem setLane_onyx (m : Nat) (f : Lane → Lane) : (setLane m f s).onyx = s.onyx := rfl
@[simp] theorem setLane_dram (m : Nat) (f : Lane → Lane) : (setLane m f s).dram = s.dram := rfl
@[simp] theorem setLane_pers (m : Nat) (f : Lane → Lane) : (setLane m f s).pers = s.pers := rfl
@[simp] theorem setLane_pwr (m : Nat) (f : Lane → Lane) : (setLane m f s).pwr = s.pwr := rfl
@[simp] theorem setLane_pending (m : Nat) (f : Lane → Lane) : (setLane m f s).pending = s.pending := rfl
@[simp] theorem setLane_free (m : Nat) (f : Lane → Lane) : (setLane m f s).free = s.free := rfl
@[simp] theorem setLane_out (m : Nat) (f : Lane → Lane) : (setLane m f s).out = s.out := rfl

/-! ## mapPages -/

@[simp] theorem mapPages_host (p : Page → Bool) (f : Page → Page) : (mapPages p f s).host = s.host := rfl
@[simp] theorem mapPages_cg (p : Page → Bool) (f : Page → Page) : (mapPages p f s).cg = s.cg := rfl
@[simp] theorem mapPages_pg (p : Page → Bool) (f : Page → Page) : (mapPages p f s).pg = { s.pg with pages := s.pg.pages.map fun x => if p x then f x else x } := rfl
@[simp] theorem mapPages_scr (p : Page → Bool) (f : Page → Page) : (mapPages p f s).scr = s.scr := rfl
@[simp] theorem mapPages_fire (p : Page → Bool) (f : Page → Page) : (mapPages p f s).fire = s.fire := rfl
@[simp] theorem mapPages_hl (p : Page → Bool) (f : Page → Page) : (mapPages p f s).hl = s.hl := rfl
@[simp] theorem mapPages_insp (p : Page → Bool) (f : Page → Page) : (mapPages p f s).insp = s.insp := rfl
@[simp] theorem mapPages_cal (p : Page → Bool) (f : Page → Page) : (mapPages p f s).cal = s.cal := rfl
@[simp] theorem mapPages_pos (p : Page → Bool) (f : Page → Page) : (mapPages p f s).pos = s.pos := rfl
@[simp] theorem mapPages_axes (p : Page → Bool) (f : Page → Page) : (mapPages p f s).axes = s.axes := rfl
@[simp] theorem mapPages_lamp (p : Page → Bool) (f : Page → Page) : (mapPages p f s).lamp = s.lamp := rfl
@[simp] theorem mapPages_twin (p : Page → Bool) (f : Page → Page) : (mapPages p f s).twin = s.twin := rfl
@[simp] theorem mapPages_onyx (p : Page → Bool) (f : Page → Page) : (mapPages p f s).onyx = s.onyx := rfl
@[simp] theorem mapPages_dram (p : Page → Bool) (f : Page → Page) : (mapPages p f s).dram = s.dram := rfl
@[simp] theorem mapPages_pers (p : Page → Bool) (f : Page → Page) : (mapPages p f s).pers = s.pers := rfl
@[simp] theorem mapPages_pwr (p : Page → Bool) (f : Page → Page) : (mapPages p f s).pwr = s.pwr := rfl
@[simp] theorem mapPages_pending (p : Page → Bool) (f : Page → Page) : (mapPages p f s).pending = s.pending := rfl
@[simp] theorem mapPages_free (p : Page → Bool) (f : Page → Page) : (mapPages p f s).free = s.free := rfl
@[simp] theorem mapPages_out (p : Page → Bool) (f : Page → Page) : (mapPages p f s).out = s.out := rfl

/-! ## setRing -/

@[simp] theorem setRing_host (r : Nat) (f : Ring → Ring) : (setRing r f s).host = s.host := rfl
@[simp] theorem setRing_cg (r : Nat) (f : Ring → Ring) : (setRing r f s).cg = s.cg := rfl
@[simp] theorem setRing_pg (r : Nat) (f : Ring → Ring) : (setRing r f s).pg = { s.pg with rings := upd s.pg.rings r f } := rfl
@[simp] theorem setRing_scr (r : Nat) (f : Ring → Ring) : (setRing r f s).scr = s.scr := rfl
@[simp] theorem setRing_fire (r : Nat) (f : Ring → Ring) : (setRing r f s).fire = s.fire := rfl
@[simp] theorem setRing_hl (r : Nat) (f : Ring → Ring) : (setRing r f s).hl = s.hl := rfl
@[simp] theorem setRing_insp (r : Nat) (f : Ring → Ring) : (setRing r f s).insp = s.insp := rfl
@[simp] theorem setRing_cal (r : Nat) (f : Ring → Ring) : (setRing r f s).cal = s.cal := rfl
@[simp] theorem setRing_pos (r : Nat) (f : Ring → Ring) : (setRing r f s).pos = s.pos := rfl
@[simp] theorem setRing_axes (r : Nat) (f : Ring → Ring) : (setRing r f s).axes = s.axes := rfl
@[simp] theorem setRing_lamp (r : Nat) (f : Ring → Ring) : (setRing r f s).lamp = s.lamp := rfl
@[simp] theorem setRing_twin (r : Nat) (f : Ring → Ring) : (setRing r f s).twin = s.twin := rfl
@[simp] theorem setRing_onyx (r : Nat) (f : Ring → Ring) : (setRing r f s).onyx = s.onyx := rfl
@[simp] theorem setRing_dram (r : Nat) (f : Ring → Ring) : (setRing r f s).dram = s.dram := rfl
@[simp] theorem setRing_pers (r : Nat) (f : Ring → Ring) : (setRing r f s).pers = s.pers := rfl
@[simp] theorem setRing_pwr (r : Nat) (f : Ring → Ring) : (setRing r f s).pwr = s.pwr := rfl
@[simp] theorem setRing_pending (r : Nat) (f : Ring → Ring) : (setRing r f s).pending = s.pending := rfl
@[simp] theorem setRing_free (r : Nat) (f : Ring → Ring) : (setRing r f s).free = s.free := rfl
@[simp] theorem setRing_out (r : Nat) (f : Ring → Ring) : (setRing r f s).out = s.out := rfl

/-! ## setCtx -/

@[simp] theorem setCtx_host (k : Nat) (f : CvCtx → CvCtx) : (setCtx k f s).host = s.host := rfl
@[simp] theorem setCtx_cg (k : Nat) (f : CvCtx → CvCtx) : (setCtx k f s).cg = s.cg := rfl
@[simp] theorem setCtx_pg (k : Nat) (f : CvCtx → CvCtx) : (setCtx k f s).pg = { s.pg with cv := upd s.pg.cv k f } := rfl
@[simp] theorem setCtx_scr (k : Nat) (f : CvCtx → CvCtx) : (setCtx k f s).scr = s.scr := rfl
@[simp] theorem setCtx_fire (k : Nat) (f : CvCtx → CvCtx) : (setCtx k f s).fire = s.fire := rfl
@[simp] theorem setCtx_hl (k : Nat) (f : CvCtx → CvCtx) : (setCtx k f s).hl = s.hl := rfl
@[simp] theorem setCtx_insp (k : Nat) (f : CvCtx → CvCtx) : (setCtx k f s).insp = s.insp := rfl
@[simp] theorem setCtx_cal (k : Nat) (f : CvCtx → CvCtx) : (setCtx k f s).cal = s.cal := rfl
@[simp] theorem setCtx_pos (k : Nat) (f : CvCtx → CvCtx) : (setCtx k f s).pos = s.pos := rfl
@[simp] theorem setCtx_axes (k : Nat) (f : CvCtx → CvCtx) : (setCtx k f s).axes = s.axes := rfl
@[simp] theorem setCtx_lamp (k : Nat) (f : CvCtx → CvCtx) : (setCtx k f s).lamp = s.lamp := rfl
@[simp] theorem setCtx_twin (k : Nat) (f : CvCtx → CvCtx) : (setCtx k f s).twin = s.twin := rfl
@[simp] theorem setCtx_onyx (k : Nat) (f : CvCtx → CvCtx) : (setCtx k f s).onyx = s.onyx := rfl
@[simp] theorem setCtx_dram (k : Nat) (f : CvCtx → CvCtx) : (setCtx k f s).dram = s.dram := rfl
@[simp] theorem setCtx_pers (k : Nat) (f : CvCtx → CvCtx) : (setCtx k f s).pers = s.pers := rfl
@[simp] theorem setCtx_pwr (k : Nat) (f : CvCtx → CvCtx) : (setCtx k f s).pwr = s.pwr := rfl
@[simp] theorem setCtx_pending (k : Nat) (f : CvCtx → CvCtx) : (setCtx k f s).pending = s.pending := rfl
@[simp] theorem setCtx_free (k : Nat) (f : CvCtx → CvCtx) : (setCtx k f s).free = s.free := rfl
@[simp] theorem setCtx_out (k : Nat) (f : CvCtx → CvCtx) : (setCtx k f s).out = s.out := rfl

/-! ## setIsland -/

@[simp] theorem setIsland_host (i : Nat) (f : Island → Island) : (setIsland i f s).host = s.host := rfl
@[simp] theorem setIsland_cg (i : Nat) (f : Island → Island) : (setIsland i f s).cg = s.cg := rfl
@[simp] theorem setIsland_pg (i : Nat) (f : Island → Island) : (setIsland i f s).pg = s.pg := rfl
@[simp] theorem setIsland_scr (i : Nat) (f : Island → Island) : (setIsland i f s).scr = s.scr := rfl
@[simp] theorem setIsland_fire (i : Nat) (f : Island → Island) : (setIsland i f s).fire = s.fire := rfl
@[simp] theorem setIsland_hl (i : Nat) (f : Island → Island) : (setIsland i f s).hl = s.hl := rfl
@[simp] theorem setIsland_insp (i : Nat) (f : Island → Island) : (setIsland i f s).insp = s.insp := rfl
@[simp] theorem setIsland_cal (i : Nat) (f : Island → Island) : (setIsland i f s).cal = s.cal := rfl
@[simp] theorem setIsland_pos (i : Nat) (f : Island → Island) : (setIsland i f s).pos = s.pos := rfl
@[simp] theorem setIsland_axes (i : Nat) (f : Island → Island) : (setIsland i f s).axes = s.axes := rfl
@[simp] theorem setIsland_lamp (i : Nat) (f : Island → Island) : (setIsland i f s).lamp = s.lamp := rfl
@[simp] theorem setIsland_twin (i : Nat) (f : Island → Island) : (setIsland i f s).twin = s.twin := rfl
@[simp] theorem setIsland_onyx (i : Nat) (f : Island → Island) : (setIsland i f s).onyx = s.onyx := rfl
@[simp] theorem setIsland_dram (i : Nat) (f : Island → Island) : (setIsland i f s).dram = s.dram := rfl
@[simp] theorem setIsland_pers (i : Nat) (f : Island → Island) : (setIsland i f s).pers = s.pers := rfl
@[simp] theorem setIsland_pwr (i : Nat) (f : Island → Island) : (setIsland i f s).pwr = { s.pwr with islands := upd s.pwr.islands i f } := rfl
@[simp] theorem setIsland_pending (i : Nat) (f : Island → Island) : (setIsland i f s).pending = s.pending := rfl
@[simp] theorem setIsland_free (i : Nat) (f : Island → Island) : (setIsland i f s).free = s.free := rfl
@[simp] theorem setIsland_out (i : Nat) (f : Island → Island) : (setIsland i f s).out = s.out := rfl

/-! ## setAxis -/

@[simp] theorem setAxis_host (a : Nat) (f : Axis → Axis) : (setAxis a f s).host = s.host := rfl
@[simp] theorem setAxis_cg (a : Nat) (f : Axis → Axis) : (setAxis a f s).cg = s.cg := rfl
@[simp] theorem setAxis_pg (a : Nat) (f : Axis → Axis) : (setAxis a f s).pg = s.pg := rfl
@[simp] theorem setAxis_scr (a : Nat) (f : Axis → Axis) : (setAxis a f s).scr = s.scr := rfl
@[simp] theorem setAxis_fire (a : Nat) (f : Axis → Axis) : (setAxis a f s).fire = s.fire := rfl
@[simp] theorem setAxis_hl (a : Nat) (f : Axis → Axis) : (setAxis a f s).hl = s.hl := rfl
@[simp] theorem setAxis_insp (a : Nat) (f : Axis → Axis) : (setAxis a f s).insp = s.insp := rfl
@[simp] theorem setAxis_cal (a : Nat) (f : Axis → Axis) : (setAxis a f s).cal = s.cal := rfl
@[simp] theorem setAxis_pos (a : Nat) (f : Axis → Axis) : (setAxis a f s).pos = s.pos := rfl
@[simp] theorem setAxis_axes (a : Nat) (f : Axis → Axis) : (setAxis a f s).axes = { s.axes with ax := upd s.axes.ax a f } := rfl
@[simp] theorem setAxis_lamp (a : Nat) (f : Axis → Axis) : (setAxis a f s).lamp = s.lamp := rfl
@[simp] theorem setAxis_twin (a : Nat) (f : Axis → Axis) : (setAxis a f s).twin = s.twin := rfl
@[simp] theorem setAxis_onyx (a : Nat) (f : Axis → Axis) : (setAxis a f s).onyx = s.onyx := rfl
@[simp] theorem setAxis_dram (a : Nat) (f : Axis → Axis) : (setAxis a f s).dram = s.dram := rfl
@[simp] theorem setAxis_pers (a : Nat) (f : Axis → Axis) : (setAxis a f s).pers = s.pers := rfl
@[simp] theorem setAxis_pwr (a : Nat) (f : Axis → Axis) : (setAxis a f s).pwr = s.pwr := rfl
@[simp] theorem setAxis_pending (a : Nat) (f : Axis → Axis) : (setAxis a f s).pending = s.pending := rfl
@[simp] theorem setAxis_free (a : Nat) (f : Axis → Axis) : (setAxis a f s).free = s.free := rfl
@[simp] theorem setAxis_out (a : Nat) (f : Axis → Axis) : (setAxis a f s).out = s.out := rfl

/-! ## setCam -/

@[simp] theorem setCam_host (k : Nat) (f : Cam → Cam) : (setCam k f s).host = s.host := rfl
@[simp] theorem setCam_cg (k : Nat) (f : Cam → Cam) : (setCam k f s).cg = s.cg := rfl
@[simp] theorem setCam_pg (k : Nat) (f : Cam → Cam) : (setCam k f s).pg = s.pg := rfl
@[simp] theorem setCam_scr (k : Nat) (f : Cam → Cam) : (setCam k f s).scr = s.scr := rfl
@[simp] theorem setCam_fire (k : Nat) (f : Cam → Cam) : (setCam k f s).fire = s.fire := rfl
@[simp] theorem setCam_hl (k : Nat) (f : Cam → Cam) : (setCam k f s).hl = s.hl := rfl
@[simp] theorem setCam_insp (k : Nat) (f : Cam → Cam) : (setCam k f s).insp = { s.insp with cams := upd s.insp.cams k f } := rfl
@[simp] theorem setCam_cal (k : Nat) (f : Cam → Cam) : (setCam k f s).cal = s.cal := rfl
@[simp] theorem setCam_pos (k : Nat) (f : Cam → Cam) : (setCam k f s).pos = s.pos := rfl
@[simp] theorem setCam_axes (k : Nat) (f : Cam → Cam) : (setCam k f s).axes = s.axes := rfl
@[simp] theorem setCam_lamp (k : Nat) (f : Cam → Cam) : (setCam k f s).lamp = s.lamp := rfl
@[simp] theorem setCam_twin (k : Nat) (f : Cam → Cam) : (setCam k f s).twin = s.twin := rfl
@[simp] theorem setCam_onyx (k : Nat) (f : Cam → Cam) : (setCam k f s).onyx = s.onyx := rfl
@[simp] theorem setCam_dram (k : Nat) (f : Cam → Cam) : (setCam k f s).dram = s.dram := rfl
@[simp] theorem setCam_pers (k : Nat) (f : Cam → Cam) : (setCam k f s).pers = s.pers := rfl
@[simp] theorem setCam_pwr (k : Nat) (f : Cam → Cam) : (setCam k f s).pwr = s.pwr := rfl
@[simp] theorem setCam_pending (k : Nat) (f : Cam → Cam) : (setCam k f s).pending = s.pending := rfl
@[simp] theorem setCam_free (k : Nat) (f : Cam → Cam) : (setCam k f s).free = s.free := rfl
@[simp] theorem setCam_out (k : Nat) (f : Cam → Cam) : (setCam k f s).out = s.out := rfl

/-! ## setEnc -/

@[simp] theorem setEnc_host (k : Nat) (f : Enc → Enc) : (setEnc k f s).host = s.host := rfl
@[simp] theorem setEnc_cg (k : Nat) (f : Enc → Enc) : (setEnc k f s).cg = s.cg := rfl
@[simp] theorem setEnc_pg (k : Nat) (f : Enc → Enc) : (setEnc k f s).pg = s.pg := rfl
@[simp] theorem setEnc_scr (k : Nat) (f : Enc → Enc) : (setEnc k f s).scr = s.scr := rfl
@[simp] theorem setEnc_fire (k : Nat) (f : Enc → Enc) : (setEnc k f s).fire = s.fire := rfl
@[simp] theorem setEnc_hl (k : Nat) (f : Enc → Enc) : (setEnc k f s).hl = s.hl := rfl
@[simp] theorem setEnc_insp (k : Nat) (f : Enc → Enc) : (setEnc k f s).insp = s.insp := rfl
@[simp] theorem setEnc_cal (k : Nat) (f : Enc → Enc) : (setEnc k f s).cal = s.cal := rfl
@[simp] theorem setEnc_pos (k : Nat) (f : Enc → Enc) : (setEnc k f s).pos = { s.pos with encs := upd s.pos.encs k f } := rfl
@[simp] theorem setEnc_axes (k : Nat) (f : Enc → Enc) : (setEnc k f s).axes = s.axes := rfl
@[simp] theorem setEnc_lamp (k : Nat) (f : Enc → Enc) : (setEnc k f s).lamp = s.lamp := rfl
@[simp] theorem setEnc_twin (k : Nat) (f : Enc → Enc) : (setEnc k f s).twin = s.twin := rfl
@[simp] theorem setEnc_onyx (k : Nat) (f : Enc → Enc) : (setEnc k f s).onyx = s.onyx := rfl
@[simp] theorem setEnc_dram (k : Nat) (f : Enc → Enc) : (setEnc k f s).dram = s.dram := rfl
@[simp] theorem setEnc_pers (k : Nat) (f : Enc → Enc) : (setEnc k f s).pers = s.pers := rfl
@[simp] theorem setEnc_pwr (k : Nat) (f : Enc → Enc) : (setEnc k f s).pwr = s.pwr := rfl
@[simp] theorem setEnc_pending (k : Nat) (f : Enc → Enc) : (setEnc k f s).pending = s.pending := rfl
@[simp] theorem setEnc_free (k : Nat) (f : Enc → Enc) : (setEnc k f s).free = s.free := rfl
@[simp] theorem setEnc_out (k : Nat) (f : Enc → Enc) : (setEnc k f s).out = s.out := rfl

/-! ## setCmp -/

@[simp] theorem setCmp_host (n : Nat) (f : Cmp → Cmp) : (setCmp n f s).host = s.host := rfl
@[simp] theorem setCmp_cg (n : Nat) (f : Cmp → Cmp) : (setCmp n f s).cg = s.cg := rfl
@[simp] theorem setCmp_pg (n : Nat) (f : Cmp → Cmp) : (setCmp n f s).pg = s.pg := rfl
@[simp] theorem setCmp_scr (n : Nat) (f : Cmp → Cmp) : (setCmp n f s).scr = s.scr := rfl
@[simp] theorem setCmp_fire (n : Nat) (f : Cmp → Cmp) : (setCmp n f s).fire = s.fire := rfl
@[simp] theorem setCmp_hl (n : Nat) (f : Cmp → Cmp) : (setCmp n f s).hl = s.hl := rfl
@[simp] theorem setCmp_insp (n : Nat) (f : Cmp → Cmp) : (setCmp n f s).insp = s.insp := rfl
@[simp] theorem setCmp_cal (n : Nat) (f : Cmp → Cmp) : (setCmp n f s).cal = s.cal := rfl
@[simp] theorem setCmp_pos (n : Nat) (f : Cmp → Cmp) : (setCmp n f s).pos = { s.pos with cmps := upd s.pos.cmps n f } := rfl
@[simp] theorem setCmp_axes (n : Nat) (f : Cmp → Cmp) : (setCmp n f s).axes = s.axes := rfl
@[simp] theorem setCmp_lamp (n : Nat) (f : Cmp → Cmp) : (setCmp n f s).lamp = s.lamp := rfl
@[simp] theorem setCmp_twin (n : Nat) (f : Cmp → Cmp) : (setCmp n f s).twin = s.twin := rfl
@[simp] theorem setCmp_onyx (n : Nat) (f : Cmp → Cmp) : (setCmp n f s).onyx = s.onyx := rfl
@[simp] theorem setCmp_dram (n : Nat) (f : Cmp → Cmp) : (setCmp n f s).dram = s.dram := rfl
@[simp] theorem setCmp_pers (n : Nat) (f : Cmp → Cmp) : (setCmp n f s).pers = s.pers := rfl
@[simp] theorem setCmp_pwr (n : Nat) (f : Cmp → Cmp) : (setCmp n f s).pwr = s.pwr := rfl
@[simp] theorem setCmp_pending (n : Nat) (f : Cmp → Cmp) : (setCmp n f s).pending = s.pending := rfl
@[simp] theorem setCmp_free (n : Nat) (f : Cmp → Cmp) : (setCmp n f s).free = s.free := rfl
@[simp] theorem setCmp_out (n : Nat) (f : Cmp → Cmp) : (setCmp n f s).out = s.out := rfl

/-! ## setTimer -/

@[simp] theorem setTimer_host (t : Nat) (f : Timer → Timer) : (setTimer t f s).host = s.host := rfl
@[simp] theorem setTimer_cg (t : Nat) (f : Timer → Timer) : (setTimer t f s).cg = s.cg := rfl
@[simp] theorem setTimer_pg (t : Nat) (f : Timer → Timer) : (setTimer t f s).pg = s.pg := rfl
@[simp] theorem setTimer_scr (t : Nat) (f : Timer → Timer) : (setTimer t f s).scr = s.scr := rfl
@[simp] theorem setTimer_fire (t : Nat) (f : Timer → Timer) : (setTimer t f s).fire = s.fire := rfl
@[simp] theorem setTimer_hl (t : Nat) (f : Timer → Timer) : (setTimer t f s).hl = s.hl := rfl
@[simp] theorem setTimer_insp (t : Nat) (f : Timer → Timer) : (setTimer t f s).insp = s.insp := rfl
@[simp] theorem setTimer_cal (t : Nat) (f : Timer → Timer) : (setTimer t f s).cal = s.cal := rfl
@[simp] theorem setTimer_pos (t : Nat) (f : Timer → Timer) : (setTimer t f s).pos = { s.pos with timers := upd s.pos.timers t f } := rfl
@[simp] theorem setTimer_axes (t : Nat) (f : Timer → Timer) : (setTimer t f s).axes = s.axes := rfl
@[simp] theorem setTimer_lamp (t : Nat) (f : Timer → Timer) : (setTimer t f s).lamp = s.lamp := rfl
@[simp] theorem setTimer_twin (t : Nat) (f : Timer → Timer) : (setTimer t f s).twin = s.twin := rfl
@[simp] theorem setTimer_onyx (t : Nat) (f : Timer → Timer) : (setTimer t f s).onyx = s.onyx := rfl
@[simp] theorem setTimer_dram (t : Nat) (f : Timer → Timer) : (setTimer t f s).dram = s.dram := rfl
@[simp] theorem setTimer_pers (t : Nat) (f : Timer → Timer) : (setTimer t f s).pers = s.pers := rfl
@[simp] theorem setTimer_pwr (t : Nat) (f : Timer → Timer) : (setTimer t f s).pwr = s.pwr := rfl
@[simp] theorem setTimer_pending (t : Nat) (f : Timer → Timer) : (setTimer t f s).pending = s.pending := rfl
@[simp] theorem setTimer_free (t : Nat) (f : Timer → Timer) : (setTimer t f s).free = s.free := rfl
@[simp] theorem setTimer_out (t : Nat) (f : Timer → Timer) : (setTimer t f s).out = s.out := rfl

/-! ## setAbs -/

@[simp] theorem setAbs_host (k : Nat) (f : AbsPort → AbsPort) : (setAbs k f s).host = s.host := rfl
@[simp] theorem setAbs_cg (k : Nat) (f : AbsPort → AbsPort) : (setAbs k f s).cg = s.cg := rfl
@[simp] theorem setAbs_pg (k : Nat) (f : AbsPort → AbsPort) : (setAbs k f s).pg = s.pg := rfl
@[simp] theorem setAbs_scr (k : Nat) (f : AbsPort → AbsPort) : (setAbs k f s).scr = s.scr := rfl
@[simp] theorem setAbs_fire (k : Nat) (f : AbsPort → AbsPort) : (setAbs k f s).fire = s.fire := rfl
@[simp] theorem setAbs_hl (k : Nat) (f : AbsPort → AbsPort) : (setAbs k f s).hl = s.hl := rfl
@[simp] theorem setAbs_insp (k : Nat) (f : AbsPort → AbsPort) : (setAbs k f s).insp = s.insp := rfl
@[simp] theorem setAbs_cal (k : Nat) (f : AbsPort → AbsPort) : (setAbs k f s).cal = s.cal := rfl
@[simp] theorem setAbs_pos (k : Nat) (f : AbsPort → AbsPort) : (setAbs k f s).pos = { s.pos with abs := upd s.pos.abs k f } := rfl
@[simp] theorem setAbs_axes (k : Nat) (f : AbsPort → AbsPort) : (setAbs k f s).axes = s.axes := rfl
@[simp] theorem setAbs_lamp (k : Nat) (f : AbsPort → AbsPort) : (setAbs k f s).lamp = s.lamp := rfl
@[simp] theorem setAbs_twin (k : Nat) (f : AbsPort → AbsPort) : (setAbs k f s).twin = s.twin := rfl
@[simp] theorem setAbs_onyx (k : Nat) (f : AbsPort → AbsPort) : (setAbs k f s).onyx = s.onyx := rfl
@[simp] theorem setAbs_dram (k : Nat) (f : AbsPort → AbsPort) : (setAbs k f s).dram = s.dram := rfl
@[simp] theorem setAbs_pers (k : Nat) (f : AbsPort → AbsPort) : (setAbs k f s).pers = s.pers := rfl
@[simp] theorem setAbs_pwr (k : Nat) (f : AbsPort → AbsPort) : (setAbs k f s).pwr = s.pwr := rfl
@[simp] theorem setAbs_pending (k : Nat) (f : AbsPort → AbsPort) : (setAbs k f s).pending = s.pending := rfl
@[simp] theorem setAbs_free (k : Nat) (f : AbsPort → AbsPort) : (setAbs k f s).free = s.free := rfl
@[simp] theorem setAbs_out (k : Nat) (f : AbsPort → AbsPort) : (setAbs k f s).out = s.out := rfl

/-! ## setChain -/

@[simp] theorem setChain_host (k : Nat) (f : Chain → Chain) : (setChain k f s).host = s.host := rfl
@[simp] theorem setChain_cg (k : Nat) (f : Chain → Chain) : (setChain k f s).cg = s.cg := rfl
@[simp] theorem setChain_pg (k : Nat) (f : Chain → Chain) : (setChain k f s).pg = s.pg := rfl
@[simp] theorem setChain_scr (k : Nat) (f : Chain → Chain) : (setChain k f s).scr = s.scr := rfl
@[simp] theorem setChain_fire (k : Nat) (f : Chain → Chain) : (setChain k f s).fire = s.fire := rfl
@[simp] theorem setChain_hl (k : Nat) (f : Chain → Chain) : (setChain k f s).hl = s.hl := rfl
@[simp] theorem setChain_insp (k : Nat) (f : Chain → Chain) : (setChain k f s).insp = s.insp := rfl
@[simp] theorem setChain_cal (k : Nat) (f : Chain → Chain) : (setChain k f s).cal = s.cal := rfl
@[simp] theorem setChain_pos (k : Nat) (f : Chain → Chain) : (setChain k f s).pos = s.pos := rfl
@[simp] theorem setChain_axes (k : Nat) (f : Chain → Chain) : (setChain k f s).axes = s.axes := rfl
@[simp] theorem setChain_lamp (k : Nat) (f : Chain → Chain) : (setChain k f s).lamp = { s.lamp with chains := upd s.lamp.chains k f } := rfl
@[simp] theorem setChain_twin (k : Nat) (f : Chain → Chain) : (setChain k f s).twin = s.twin := rfl
@[simp] theorem setChain_onyx (k : Nat) (f : Chain → Chain) : (setChain k f s).onyx = s.onyx := rfl
@[simp] theorem setChain_dram (k : Nat) (f : Chain → Chain) : (setChain k f s).dram = s.dram := rfl
@[simp] theorem setChain_pers (k : Nat) (f : Chain → Chain) : (setChain k f s).pers = s.pers := rfl
@[simp] theorem setChain_pwr (k : Nat) (f : Chain → Chain) : (setChain k f s).pwr = s.pwr := rfl
@[simp] theorem setChain_pending (k : Nat) (f : Chain → Chain) : (setChain k f s).pending = s.pending := rfl
@[simp] theorem setChain_free (k : Nat) (f : Chain → Chain) : (setChain k f s).free = s.free := rfl
@[simp] theorem setChain_out (k : Nat) (f : Chain → Chain) : (setChain k f s).out = s.out := rfl

/-! ## setSlice -/

@[simp] theorem setSlice_host (m : Nat) (f : Slice → Slice) : (setSlice m f s).host = s.host := rfl
@[simp] theorem setSlice_cg (m : Nat) (f : Slice → Slice) : (setSlice m f s).cg = s.cg := rfl
@[simp] theorem setSlice_pg (m : Nat) (f : Slice → Slice) : (setSlice m f s).pg = s.pg := rfl
@[simp] theorem setSlice_scr (m : Nat) (f : Slice → Slice) : (setSlice m f s).scr = { s.scr with slices := upd s.scr.slices m f } := rfl
@[simp] theorem setSlice_fire (m : Nat) (f : Slice → Slice) : (setSlice m f s).fire = s.fire := rfl
@[simp] theorem setSlice_hl (m : Nat) (f : Slice → Slice) : (setSlice m f s).hl = s.hl := rfl
@[simp] theorem setSlice_insp (m : Nat) (f : Slice → Slice) : (setSlice m f s).insp = s.insp := rfl
@[simp] theorem setSlice_cal (m : Nat) (f : Slice → Slice) : (setSlice m f s).cal = s.cal := rfl
@[simp] theorem setSlice_pos (m : Nat) (f : Slice → Slice) : (setSlice m f s).pos = s.pos := rfl
@[simp] theorem setSlice_axes (m : Nat) (f : Slice → Slice) : (setSlice m f s).axes = s.axes := rfl
@[simp] theorem setSlice_lamp (m : Nat) (f : Slice → Slice) : (setSlice m f s).lamp = s.lamp := rfl
@[simp] theorem setSlice_twin (m : Nat) (f : Slice → Slice) : (setSlice m f s).twin = s.twin := rfl
@[simp] theorem setSlice_onyx (m : Nat) (f : Slice → Slice) : (setSlice m f s).onyx = s.onyx := rfl
@[simp] theorem setSlice_dram (m : Nat) (f : Slice → Slice) : (setSlice m f s).dram = s.dram := rfl
@[simp] theorem setSlice_pers (m : Nat) (f : Slice → Slice) : (setSlice m f s).pers = s.pers := rfl
@[simp] theorem setSlice_pwr (m : Nat) (f : Slice → Slice) : (setSlice m f s).pwr = s.pwr := rfl
@[simp] theorem setSlice_pending (m : Nat) (f : Slice → Slice) : (setSlice m f s).pending = s.pending := rfl
@[simp] theorem setSlice_free (m : Nat) (f : Slice → Slice) : (setSlice m f s).free = s.free := rfl
@[simp] theorem setSlice_out (m : Nat) (f : Slice → Slice) : (setSlice m f s).out = s.out := rfl

/-! ## setZone -/

@[simp] theorem setZone_host (m z : Nat) (f : ZoneT → ZoneT) : (setZone m z f s).host = s.host := rfl
@[simp] theorem setZone_cg (m z : Nat) (f : ZoneT → ZoneT) : (setZone m z f s).cg = s.cg := rfl
@[simp] theorem setZone_pg (m z : Nat) (f : ZoneT → ZoneT) : (setZone m z f s).pg = s.pg := rfl
@[simp] theorem setZone_scr (m z : Nat) (f : ZoneT → ZoneT) : (setZone m z f s).scr = s.scr := rfl
@[simp] theorem setZone_fire (m z : Nat) (f : ZoneT → ZoneT) : (setZone m z f s).fire = { s.fire with zones := upd s.fire.zones m (fun l => upd l z f) } := rfl
@[simp] theorem setZone_hl (m z : Nat) (f : ZoneT → ZoneT) : (setZone m z f s).hl = s.hl := rfl
@[simp] theorem setZone_insp (m z : Nat) (f : ZoneT → ZoneT) : (setZone m z f s).insp = s.insp := rfl
@[simp] theorem setZone_cal (m z : Nat) (f : ZoneT → ZoneT) : (setZone m z f s).cal = s.cal := rfl
@[simp] theorem setZone_pos (m z : Nat) (f : ZoneT → ZoneT) : (setZone m z f s).pos = s.pos := rfl
@[simp] theorem setZone_axes (m z : Nat) (f : ZoneT → ZoneT) : (setZone m z f s).axes = s.axes := rfl
@[simp] theorem setZone_lamp (m z : Nat) (f : ZoneT → ZoneT) : (setZone m z f s).lamp = s.lamp := rfl
@[simp] theorem setZone_twin (m z : Nat) (f : ZoneT → ZoneT) : (setZone m z f s).twin = s.twin := rfl
@[simp] theorem setZone_onyx (m z : Nat) (f : ZoneT → ZoneT) : (setZone m z f s).onyx = s.onyx := rfl
@[simp] theorem setZone_dram (m z : Nat) (f : ZoneT → ZoneT) : (setZone m z f s).dram = s.dram := rfl
@[simp] theorem setZone_pers (m z : Nat) (f : ZoneT → ZoneT) : (setZone m z f s).pers = s.pers := rfl
@[simp] theorem setZone_pwr (m z : Nat) (f : ZoneT → ZoneT) : (setZone m z f s).pwr = s.pwr := rfl
@[simp] theorem setZone_pending (m z : Nat) (f : ZoneT → ZoneT) : (setZone m z f s).pending = s.pending := rfl
@[simp] theorem setZone_free (m z : Nat) (f : ZoneT → ZoneT) : (setZone m z f s).free = s.free := rfl
@[simp] theorem setZone_out (m z : Nat) (f : ZoneT → ZoneT) : (setZone m z f s).out = s.out := rfl

/-! ## complete: nothing while Beryl restarts (R53) -/

@[simp] theorem complete_running (opcode : Nat) (tag : Word) (status : Nat) (p0 p1 p2 : Word) (h : s.host.restarting = false) :
    complete opcode tag status p0 p1 p2 s = completeNow opcode tag status p0 p1 p2 s := by simp [complete, h]

@[simp] theorem complete_cg (opcode : Nat) (tag : Word) (status : Nat) (p0 p1 p2 : Word) : (complete opcode tag status p0 p1 p2 s).cg = s.cg := by
  unfold complete; split <;> rfl
@[simp] theorem complete_pg (opcode : Nat) (tag : Word) (status : Nat) (p0 p1 p2 : Word) : (complete opcode tag status p0 p1 p2 s).pg = s.pg := by
  unfold complete; split <;> rfl
@[simp] theorem complete_scr (opcode : Nat) (tag : Word) (status : Nat) (p0 p1 p2 : Word) : (complete opcode tag status p0 p1 p2 s).scr = s.scr := by
  unfold complete; split <;> rfl
@[simp] theorem complete_fire (opcode : Nat) (tag : Word) (status : Nat) (p0 p1 p2 : Word) : (complete opcode tag status p0 p1 p2 s).fire = s.fire := by
  unfold complete; split <;> rfl
@[simp] theorem complete_hl (opcode : Nat) (tag : Word) (status : Nat) (p0 p1 p2 : Word) : (complete opcode tag status p0 p1 p2 s).hl = s.hl := by
  unfold complete; split <;> rfl
@[simp] theorem complete_insp (opcode : Nat) (tag : Word) (status : Nat) (p0 p1 p2 : Word) : (complete opcode tag status p0 p1 p2 s).insp = s.insp := by
  unfold complete; split <;> rfl
@[simp] theorem complete_cal (opcode : Nat) (tag : Word) (status : Nat) (p0 p1 p2 : Word) : (complete opcode tag status p0 p1 p2 s).cal = s.cal := by
  unfold complete; split <;> rfl
@[simp] theorem complete_pos (opcode : Nat) (tag : Word) (status : Nat) (p0 p1 p2 : Word) : (complete opcode tag status p0 p1 p2 s).pos = s.pos := by
  unfold complete; split <;> rfl
@[simp] theorem complete_axes (opcode : Nat) (tag : Word) (status : Nat) (p0 p1 p2 : Word) : (complete opcode tag status p0 p1 p2 s).axes = s.axes := by
  unfold complete; split <;> rfl
@[simp] theorem complete_lamp (opcode : Nat) (tag : Word) (status : Nat) (p0 p1 p2 : Word) : (complete opcode tag status p0 p1 p2 s).lamp = s.lamp := by
  unfold complete; split <;> rfl
@[simp] theorem complete_twin (opcode : Nat) (tag : Word) (status : Nat) (p0 p1 p2 : Word) : (complete opcode tag status p0 p1 p2 s).twin = s.twin := by
  unfold complete; split <;> rfl
@[simp] theorem complete_onyx (opcode : Nat) (tag : Word) (status : Nat) (p0 p1 p2 : Word) : (complete opcode tag status p0 p1 p2 s).onyx = s.onyx := by
  unfold complete; split <;> rfl
@[simp] theorem complete_dram (opcode : Nat) (tag : Word) (status : Nat) (p0 p1 p2 : Word) : (complete opcode tag status p0 p1 p2 s).dram = s.dram := by
  unfold complete; split <;> rfl
@[simp] theorem complete_pwr (opcode : Nat) (tag : Word) (status : Nat) (p0 p1 p2 : Word) : (complete opcode tag status p0 p1 p2 s).pwr = s.pwr := by
  unfold complete; split <;> rfl
@[simp] theorem complete_pending (opcode : Nat) (tag : Word) (status : Nat) (p0 p1 p2 : Word) : (complete opcode tag status p0 p1 p2 s).pending = s.pending := by
  unfold complete; split <;> rfl
@[simp] theorem complete_free (opcode : Nat) (tag : Word) (status : Nat) (p0 p1 p2 : Word) : (complete opcode tag status p0 p1 p2 s).free = s.free := by
  unfold complete; split <;> rfl

/-! ## emit and drive: only what has been put out can change, and only when the pad is not held (R532) -/

theorem emit_out (o : Output) : (emit o s).out = if padHeld o s then s.out else o :: s.out := by
  unfold emit; split <;> rfl

@[simp] theorem emit_unheld (o : Output) (h : padIsland o = none) : emit o s = { s with out := o :: s.out } := by
  simp [emit, padHeld, h]

@[simp] theorem emit_host (o : Output) : (emit o s).host = s.host := by unfold emit; split <;> rfl
@[simp] theorem emit_cg (o : Output) : (emit o s).cg = s.cg := by unfold emit; split <;> rfl
@[simp] theorem emit_pg (o : Output) : (emit o s).pg = s.pg := by unfold emit; split <;> rfl
@[simp] theorem emit_scr (o : Output) : (emit o s).scr = s.scr := by unfold emit; split <;> rfl
@[simp] theorem emit_fire (o : Output) : (emit o s).fire = s.fire := by unfold emit; split <;> rfl
@[simp] theorem emit_hl (o : Output) : (emit o s).hl = s.hl := by unfold emit; split <;> rfl
@[simp] theorem emit_insp (o : Output) : (emit o s).insp = s.insp := by unfold emit; split <;> rfl
@[simp] theorem emit_cal (o : Output) : (emit o s).cal = s.cal := by unfold emit; split <;> rfl
@[simp] theorem emit_pos (o : Output) : (emit o s).pos = s.pos := by unfold emit; split <;> rfl
@[simp] theorem emit_axes (o : Output) : (emit o s).axes = s.axes := by unfold emit; split <;> rfl
@[simp] theorem emit_lamp (o : Output) : (emit o s).lamp = s.lamp := by unfold emit; split <;> rfl
@[simp] theorem emit_twin (o : Output) : (emit o s).twin = s.twin := by unfold emit; split <;> rfl
@[simp] theorem emit_onyx (o : Output) : (emit o s).onyx = s.onyx := by unfold emit; split <;> rfl
@[simp] theorem emit_dram (o : Output) : (emit o s).dram = s.dram := by unfold emit; split <;> rfl
@[simp] theorem emit_pers (o : Output) : (emit o s).pers = s.pers := by unfold emit; split <;> rfl
@[simp] theorem emit_pwr (o : Output) : (emit o s).pwr = s.pwr := by unfold emit; split <;> rfl
@[simp] theorem emit_pending (o : Output) : (emit o s).pending = s.pending := by unfold emit; split <;> rfl
@[simp] theorem emit_free (o : Output) : (emit o s).free = s.free := by unfold emit; split <;> rfl
@[simp] theorem drive_host (os : List Output) : (drive os s).host = s.host :=
  List.foldlRecOn (motive := fun t => t.host = s.host) os _ rfl fun t h o _ => (emit_host t o).trans h
@[simp] theorem drive_cg (os : List Output) : (drive os s).cg = s.cg :=
  List.foldlRecOn (motive := fun t => t.cg = s.cg) os _ rfl fun t h o _ => (emit_cg t o).trans h
@[simp] theorem drive_pg (os : List Output) : (drive os s).pg = s.pg :=
  List.foldlRecOn (motive := fun t => t.pg = s.pg) os _ rfl fun t h o _ => (emit_pg t o).trans h
@[simp] theorem drive_scr (os : List Output) : (drive os s).scr = s.scr :=
  List.foldlRecOn (motive := fun t => t.scr = s.scr) os _ rfl fun t h o _ => (emit_scr t o).trans h
@[simp] theorem drive_fire (os : List Output) : (drive os s).fire = s.fire :=
  List.foldlRecOn (motive := fun t => t.fire = s.fire) os _ rfl fun t h o _ => (emit_fire t o).trans h
@[simp] theorem drive_hl (os : List Output) : (drive os s).hl = s.hl :=
  List.foldlRecOn (motive := fun t => t.hl = s.hl) os _ rfl fun t h o _ => (emit_hl t o).trans h
@[simp] theorem drive_insp (os : List Output) : (drive os s).insp = s.insp :=
  List.foldlRecOn (motive := fun t => t.insp = s.insp) os _ rfl fun t h o _ => (emit_insp t o).trans h
@[simp] theorem drive_cal (os : List Output) : (drive os s).cal = s.cal :=
  List.foldlRecOn (motive := fun t => t.cal = s.cal) os _ rfl fun t h o _ => (emit_cal t o).trans h
@[simp] theorem drive_pos (os : List Output) : (drive os s).pos = s.pos :=
  List.foldlRecOn (motive := fun t => t.pos = s.pos) os _ rfl fun t h o _ => (emit_pos t o).trans h
@[simp] theorem drive_axes (os : List Output) : (drive os s).axes = s.axes :=
  List.foldlRecOn (motive := fun t => t.axes = s.axes) os _ rfl fun t h o _ => (emit_axes t o).trans h
@[simp] theorem drive_lamp (os : List Output) : (drive os s).lamp = s.lamp :=
  List.foldlRecOn (motive := fun t => t.lamp = s.lamp) os _ rfl fun t h o _ => (emit_lamp t o).trans h
@[simp] theorem drive_twin (os : List Output) : (drive os s).twin = s.twin :=
  List.foldlRecOn (motive := fun t => t.twin = s.twin) os _ rfl fun t h o _ => (emit_twin t o).trans h
@[simp] theorem drive_onyx (os : List Output) : (drive os s).onyx = s.onyx :=
  List.foldlRecOn (motive := fun t => t.onyx = s.onyx) os _ rfl fun t h o _ => (emit_onyx t o).trans h
@[simp] theorem drive_dram (os : List Output) : (drive os s).dram = s.dram :=
  List.foldlRecOn (motive := fun t => t.dram = s.dram) os _ rfl fun t h o _ => (emit_dram t o).trans h
@[simp] theorem drive_pers (os : List Output) : (drive os s).pers = s.pers :=
  List.foldlRecOn (motive := fun t => t.pers = s.pers) os _ rfl fun t h o _ => (emit_pers t o).trans h
@[simp] theorem drive_pwr (os : List Output) : (drive os s).pwr = s.pwr :=
  List.foldlRecOn (motive := fun t => t.pwr = s.pwr) os _ rfl fun t h o _ => (emit_pwr t o).trans h
@[simp] theorem drive_pending (os : List Output) : (drive os s).pending = s.pending :=
  List.foldlRecOn (motive := fun t => t.pending = s.pending) os _ rfl fun t h o _ => (emit_pending t o).trans h
@[simp] theorem drive_free (os : List Output) : (drive os s).free = s.free :=
  List.foldlRecOn (motive := fun t => t.free = s.free) os _ rfl fun t h o _ => (emit_free t o).trans h

end Sys2Proof.Machine
end

