-- ==== Sys2Proof/Tests/Slice0.lean ====
section
/-!
SUPPORT. Tests: one witness theorem per statement, which shows states and operands that meet the hypotheses of each of its clauses; ill-formed
terms that WellFormed refuses; and steps whose results the spec's own examples give.
-/
namespace Sys2Proof.Tests
set_option Elab.async false
set_option maxRecDepth 100000
set_option linter.unusedVariables false
open Sys2Proof Sys2Proof.Machine

/-- Rung, from its fields as one decidable check. -/
theorem rung_ok {op n : Nat} {k : Fin 16} {c : RungCmd} {s : State}
    (h : s.host.waiting k = some c ∧ c.opcode = op ∧ startable s.host c = true ∧ c.headerBad = false ∧ n ≤ c.payloadWords ∧
      (pick (served op s)).isNone = true) : Rung op n k c s :=
  have ⟨waits, code, free, head, words, served⟩ := h
  ⟨waits, code, free, head, words, Option.isNone_iff_eq_none.mp served⟩

/-- StkSound, from its fields as one decidable check. -/
theorem stk_ok {s : State} (h : s.host.stk.length = 16 ∧ s.host.stkMask.length = 16 ∧ s.host.stkFirst.length = 16 ∧
    (∀ n : Nat, n < 16 → wd s.host.stk n &&& ~~~ wd Config.stkDefined n = 0) ∧
    ∀ n : Nat, n < 16 → ((cell s.host.stkFirst n none).isSome = true ↔ wd s.host.stk n ≠ 0)) : s.StkSound :=
  have ⟨bits, masks, firsts, defined, first⟩ := h
  ⟨bits, masks, firsts, defined, first⟩


/-- A condition on the value of an option, from its check on that one value. -/
theorem every_some {α : Type} {o : Option α} {p : α → Prop} [DecidablePred p] (h : o.all (fun x => decide (p x)) = true) :
    ∀ x, o = some x → p x := by
  intro x e
  simpa [e] using h

/-- A command of an opcode with payload words. -/
def mkCmd (op : Nat) (ws : List Word) (slot : Nat := 0) : RungCmd :=
  { slot := slot, words := [BitVec.ofNat 32 op, 7, BitVec.ofNat 32 ws.length, 0] ++ ws }

/-- A state with one rung command. -/
def ring (c : RungCmd) (s : State) : State :=
  { s with host := { s.host with rung := [c], slotState := s.host.slotState.set c.slot .device } }

/-- READY and RUN, with four modules of four rows. -/
def ready : State :=
  { State.reset with
    host := { State.reset.host with opState := .ready, mbxReady := true, berylRunning := true, linkUp := true, linkGen := 4, linkWidth := 4 }
    pwr := { State.reset.pwr with state := .run, inReset := false, islands := List.replicate 4 { on := true, stage := 5 } }
    cg := { State.reset.cg with modules := 4, rows := 4 }
    pos := { State.reset.pos with mono := 1000000000000 } }

/-- A stored block of format 8, one line: 816 bytes of zeros. -/
def blkBytes : List Byte :=
  wordBytes [0x00015A54, 5, w32 (1 + 256 * 8), w32 816] ++ zeros 816 ++ bytesLE 4 (crc32 (bytesLE 4 5 ++ zeros 816))

/-- A descriptor with its check value. -/
def mkDesc (ws : List Word) : List Word := ws.take 15 ++ [w32 (crc32c (wordBytes (ws.take 15)))]

/-- A descriptor of a page of four blocks. -/
def descWords : List Word := mkDesc ([1 + 256 * 8, 9, 1, 0, 1 + 65536 * 4, 5, 0x1000, 0, 4, 0, 0, 0, 0, 0, 0])

/-- A block. -/
def aBlk : Blk := { idx := 5, addr := 0x1000, len := 836, fetches := 1 }

/-- A page. -/
def aPage : Page := { uid := 3, ring := 0, descIdx := 0, desc := descWords, lines := 1, blocks := List.replicate 4 aBlk }

/-- READY with a page in the store. -/
def paged : State := { ready with
  host := { ready.host with busMaster := true }
  pg := { ready.pg with capacity := 100000000, pages := [aPage], rings := ready.pg.rings.map fun g => { g with enabled := true } } }

/-- A bar configuration: four modules, four rows. -/
def barObj : Obj := { kind := 1, bytes := wordBytes ([4 + 256 * 4, 0, 0, 1] ++ List.replicate 12 0) }

/-- A screening policy. -/
def polObj : Obj := { kind := 6, bytes := zeros 64 }

/-- READY with a bar configuration in force. -/
def barred : State := { ready with cg := { ready.cg with inForce := [barObj], lineStep := 0x100000000 }, pg := { ready.pg with capacity := 100000000 } }

/-- A fetch of a screening policy. -/
def jobG : StageJob := { tag := 9, kind := 6, target := 0, len := 64, crc := BitVec.ofNat 32 (crc32 (zeros 64)) }

/-- Counts so that a boundary is due. -/
def due : State := setEnc 0 (fun e => { e with mode := 1 }) { barred with pos := { barred.pos with acc := BitVec.ofNat 80 (2 ^ 48), high := 0 } }

/-- An ARMED group. -/
def armedG : Group := { st := .armed, handle := 1, objs := [polObj], line := some 70, abs := 70, digest := 5 }

/-- A state with an ARMED group. -/
def withArmed : State := setGroup 0 (fun _ => armedG) { barred with pos := { barred.pos with high := 10, absHigh := 10 }, cg := { barred.cg with webStopped := false } }

/-- A line being screened. -/
def rowCtx : RowCtx := { L := 100, n := 100, p := 0, m := 0, rows := 4, objs := [barObj], d := [], reduced := [], page := none }

/-- No drop placed yet. -/
def rowSt : RowSt := { claims := [], last := [] }

/-- A row-state image's header for line `line` of epoch `ep`, with no column. -/
def rowImg (ep line mods : Word) (s : State) : List Byte :=
  let L := (namedLine ep line s).getD 0
  let h := wordBytes ([mods <<< 16, ep, line, 0, w32 (stateDigest (objsAt L s) (barOf (objsAt L s)).modules)] ++ List.replicate 10 0)
  h ++ bytesLE 4 (crc32c (h ++ zeros 4))

/-- PRINT on a moving web. -/
def printing : State := setEnc 0 (fun e => { e with mode := 1 }) { barred with
  host := { barred.host with opState := .print }
  twin := { barred.twin with role := .solo, prsnt := true }
  pos := { barred.pos with acc := BitVec.ofNat 80 (10 * 2 ^ 48), high := 10, absHigh := 10, tS := 0x100000 }
  cg := { barred.cg with webStopped := false }
  hl := { barred.hl with lanes := barred.hl.lanes.map fun l => { l with st := .active } }
  fire := { barred.fire with trains := [{ fire := 10 }], hdr := [((10, 0), List.replicate 8 { count := 4, width := 8, gap := 8, derate := 0 })] }
  scr := { barred.scr with placed := [{ fire := 10, col := 0, row := 0, code := 1, img := 10 }] } }

/-- A capability record. -/
def capWords : List Word := let ws : List Word := [1 + 65536 * 0 + 0x100000 * 4, 0, 0, 0, 1000, 408 * 65536] ++ List.replicate 9 0; ws ++ [w32 (crc32c (wordBytes ws))]

/-- A camera context. -/
def ctxBytes : List Byte := 1 :: zeros 1023

/-- A camera context. -/
def camObj : Obj := { kind := 12, bytes := ctxBytes }

/-- A camera line. -/
def camPacket : CsiPacket := { type := 0x2B, good := true, corrected := false, samples := [] }

/-- A master. -/
def ptp : PtpMaster := ⟨1, 2, 3, 4, 5, 6, 7, 8⟩

/-- A state with a master. -/
def slaved : State := { ready with pos := { ready.pos with ptpEnable := true, master := some ptp } }

/-- Status bytes of a driver. -/
def drvBytes (t : Nat) : List Byte := let b := bytesLE 1 t ++ zeros 5; b ++ bytesLE 2 (crc16 (bytesLE 1 0 ++ b))

/-- Lamp levels with one driver. -/
def levels : List Byte := wordBytes [1 + 4, 0, 0, 85 * 0x1000000] ++ zeros 240

/-- A STANDBY role unit. -/
def standing : State := { barred with twin := { barred.twin with role := .standby, peerPresent := true, prsnt := true } }

/-- A read of class RT in an entry. -/
def aReq : MemReq := { id := 4, requester := 1, chunk := 3, last := 63, place := .reserved }

/-- A BULK read in an entry. -/
def bReq : MemReq := { id := 6, requester := 5, chunk := 3, last := 63, place := .shared }

theorem test_wit_StepRunsFrontCommand :
    (∃ (c : Instr) (rest : List Instr) (s : State), (s.pending = c :: rest)) ∧
    (∃ (s : State), (s.pending = [])) :=
  ⟨⟨((.safeTrip 0 : Instr)), (([] : List Instr)), ((let s : State := ready; let s : State := { s with pending := [.safeTrip 0] }; s : State)), by decide +kernel⟩,
   ⟨((let s : State := ready; let s : State := { s with pending := [] }; s : State)), by decide +kernel⟩⟩

theorem test_wit_ResetValues :
    (∃ (g : _), (g < 4)) ∧
    (∃ (k : _), (k < 4)) :=
  ⟨⟨((0 : Nat)), by decide +kernel⟩,
   ⟨((0 : Nat)), by decide +kernel⟩⟩

theorem test_wit_StickySoundKept :
    (∃ (s : State) (t : State), s.StkSound ∧ (step s = .next t)) :=
  ⟨((let s : State := ready; s : State)), (((match step ((let s : State := ready; s : State)) with | .next t => t | _ => ((let s : State := ready; s : State))) : State)), stk_ok (by decide +kernel), rfl⟩

theorem test_wit_StickyClear :
    (∃ (n : Fin 16) (v : Word) (setNow : Word) (s : State), s.StkSound) :=
  ⟨((0 : Fin 16)), ((0 : Word)), ((0 : Word)), ((let s : State := ready; s : State)), stk_ok (by decide +kernel)⟩

theorem test_wit_StickySet :
    (∃ (k : Sticky) (s : State) (m : _), s.StkSound ∧ (flag (wd Config.stkDefined k.n) k.b = true) ∧ (m < 16)) ∧
    (∃ (k : Sticky) (s : State), s.StkSound ∧ (flag (wd Config.stkDefined k.n) k.b = true) ∧ (flag (wd s.host.stk k.n) k.b = false ∧ flag (wd s.host.stkMask k.n) k.b = true)) ∧
    (∃ (k : Sticky) (s : State), s.StkSound ∧ (flag (wd Config.stkDefined k.n) k.b = true) ∧ (flag (wd s.host.stk k.n) k.b = true ∨ flag (wd s.host.stkMask k.n) k.b = false)) :=
  ⟨⟨((.flrSeen : Sticky)), ((let s : State := ready; s : State)), ((0 : Nat)), stk_ok (by decide +kernel), by decide +kernel⟩,
   ⟨((.flrSeen : Sticky)), ((let s : State := ready; s : State)), stk_ok (by decide +kernel), by decide +kernel⟩,
   ⟨((.flrSeen : Sticky)), ((let s : State := ready; let s : State := { s with host.stkMask := List.replicate 16 0 }; s : State)), stk_ok (by decide +kernel), by decide +kernel⟩⟩

theorem test_wit_PairReads :
    (∃ (r : Fin 0x100000) (s : State), (isPair r = true) ∧ (r.val = 0x20 → s.host.gsLatch = none)) ∧
    (∃ (r : Fin 0x100000) (v : Word) (s : State), (r.val = 0x20 → s.host.gsLatch = none) ∧ (find? s.host.latch64 r.val = some v)) ∧
    (∃ (r : Fin 0x100000) (s : State), (r.val = 0x20 → s.host.gsLatch = none) ∧ (find? s.host.latch64 r.val = none)) ∧
    (∃ (b : Word) (lo : Word) (hi : Word) (s : State), (s.host.gsLatch = some (b, lo, hi))) :=
  ⟨⟨((0x20 : Fin 0x100000)), ((let s : State := ready; s : State)), by decide +kernel⟩,
   ⟨((0x20 : Fin 0x100000)), ((5 : Word)), ((let s : State := ready; let s : State := { s with host.latch64 := [(0x20, 5)] }; s : State)), by decide +kernel⟩,
   ⟨((0 : Fin 0x100000)), ((let s : State := ready; s : State)), by decide +kernel⟩,
   ⟨((0 : Word)), ((0 : Word)), ((0 : Word)), ((let s : State := ready; let s : State := { s with host.gsLatch := some (((0 : Word)), ((0 : Word)), ((0 : Word))) }; s : State)), by decide +kernel⟩⟩

theorem test_wit_PairWrites :
    (∃ (r : Fin 0x100000) (k : Nat) (reg : Nat) (v : Word) (s : State), (k < 4) ∧ (reg ∈ [0x08, 0x10, 0x18, 0x20, 0x30]) ∧ (r.val = cvOffset k reg) ∧ ((s.pg.ctx k).busy = none)) ∧
    (∃ (r : Fin 0x100000) (k : Nat) (reg : Nat) (lo : Word) (v : Word) (old : Dword) (f : Dword → CvCtx) (s : State), (k < 4) ∧ (r.val = cvOffset k reg) ∧ (reg ∈ [0x08, 0x10, 0x18, 0x20, 0x30]) ∧ (s.pg.cv.length = 4) ∧ ((s.pg.ctx k).busy = none) ∧ ((s.pg.ctx k).pairAt reg = some (old, f)) ∧ ((find? s.host.held64 r.val).getD (old.setWidth 32) = lo)) ∧
    (∃ (c : CvCtx) (old : Dword) (v : Dword) (f : Dword → CvCtx), (c.disabled = true) ∧ (c.pairAt 0x30 = some (old, f))) ∧
    (∃ (c : CvCtx) (old : Dword) (v : Dword) (i : Nat), (i < 64)) ∧
    (∃ (r : Fin 0x100000) (k : Nat) (reg : Nat) (v : Word) (s : State), (k < 4) ∧ (reg ∈ [0x08, 0x10, 0x18, 0x20, 0x30, 0x48]) ∧ (r.val = cvOffset k reg) ∧ ((s.pg.ctx k).busy.isSome = true)) :=
  ⟨⟨((BitVec.toFin (BitVec.ofNat 20 (cvOffset 0 8)) : Fin 0x100000)), ((0 : Nat)), ((0x08 : Nat)), ((0 : Word)), ((let s : State := ready; let s : State := setCtx ((0 : Nat)) (fun zz => { zz with busy := none }) s; s : State)), by decide +kernel⟩,
   ⟨((BitVec.toFin (BitVec.ofNat 20 (cvOffset 0 8)) : Fin 0x100000)), ((0 : Nat)), ((0x08 : Nat)), ((9 : Word)), ((3 : Word)), (((match (((let s : State := ready; let s : State := setCtx ((0 : Nat)) (fun zz => { zz with busy := none }) s; let s : State := { s with host.held64 := [(cvOffset 0 8, 9)] }; s : State)).pg.ctx ((0 : Nat))).pairAt ((0x08 : Nat)) with | some p => p.1 | none => 0) : Dword)), (((match (((let s : State := ready; let s : State := setCtx ((0 : Nat)) (fun zz => { zz with busy := none }) s; let s : State := { s with host.held64 := [(cvOffset 0 8, 9)] }; s : State)).pg.ctx ((0 : Nat))).pairAt ((0x08 : Nat)) with | some p => p.2 | none => fun _ => {}) : Dword → CvCtx)), ((let s : State := ready; let s : State := setCtx ((0 : Nat)) (fun zz => { zz with busy := none }) s; let s : State := { s with host.held64 := [(cvOffset 0 8, 9)] }; s : State)), by decide +kernel, by decide +kernel, by decide +kernel, by decide +kernel, by decide +kernel, rfl, by decide +kernel⟩,
   ⟨(({ width := 0 } : CvCtx)), (((match (({ width := 0 } : CvCtx)).pairAt 0x30 with | some p => p.1 | none => 0) : Dword)), ((0 : Dword)), (((match (({ width := 0 } : CvCtx)).pairAt 0x30 with | some p => p.2 | none => fun _ => {}) : Dword → CvCtx)), by decide +kernel, rfl⟩,
   ⟨(({} : CvCtx)), ((0 : Dword)), ((0 : Dword)), ((0 : Nat)), by decide +kernel⟩,
   ⟨((BitVec.toFin (BitVec.ofNat 20 (cvOffset 0 0x48)) : Fin 0x100000)), ((0 : Nat)), ((0x48 : Nat)), ((0 : Word)), ((let s : State := ready; let s : State := setCtx ((0 : Nat)) (fun zz => { zz with busy := some default }) s; s : State)), by decide +kernel⟩⟩

theorem test_wit_IrqMirror :
    (∃ (s : State) (v : Nat), (v < 16)) ∧
    (∃ (s : State) (i : Nat), (16 ≤ i)) ∧
    (∃ (v : List (Option Byte)) (s : State), (v.length = 4) ∧ (none ∉ v)) :=
  ⟨⟨((let s : State := ready; s : State)), ((0 : Nat)), by decide +kernel⟩,
   ⟨((let s : State := ready; s : State)), ((16 : Nat)), by decide +kernel⟩,
   ⟨(([some 1, some 2, some 3, some 4] : List (Option Byte))), ((let s : State := ready; s : State)), by decide +kernel⟩⟩

theorem test_wit_RegisterWrites :
    (∃ (off : Fin 0x100000) (bs : List (Option Byte)) (s : State), (¬ (0x10000 ≤ off.val ∧ off.val < 0x11000)) ∧ (none ∈ bs ∨ (bs.length ≠ 4 ∧ bs.length ≠ 8) ∨ off.val % bs.length ≠ 0)) ∧
    (∃ (s : State), (s.host.berylRunning = true) ∧ (1000000 ≤ s.since s.host.beatAt)) ∧
    (∃ (n : Nat) (b0 : Byte) (b1 : Byte) (b2 : Byte) (b3 : Byte) (off : Fin 0x100000) (s : State), (0 < n) ∧ (n < 16) ∧ (off.val = 0x1004 + 16 * n)) :=
  ⟨⟨((0 : Fin 0x100000)), (([none] : List (Option Byte))), ((let s : State := ready; s : State)), by decide +kernel⟩,
   ⟨((let s : State := ready; let s : State := { s with host.berylRunning := true }; s : State)), by decide +kernel⟩,
   ⟨((1 : Nat)), ((0 : Byte)), ((0 : Byte)), ((0 : Byte)), ((0 : Byte)), ((0x1014 : Fin 0x100000)), ((let s : State := ready; s : State)), by decide +kernel⟩⟩

theorem test_wit_HostWatchdog :
    (∃ (s : State), (s.host.wdogTimeout ≠ 0) ∧ (s.host.wdogExpired = false) ∧ (s.pos.mono.toNat < s.host.wdogStart.toNat + 1000000 * s.host.wdogTimeout.toNat)) ∧
    (∃ (s : State), (s.host.wdogTimeout ≠ 0) ∧ (s.host.wdogExpired = false) ∧ (s.host.wdogStart.toNat + 1000000 * s.host.wdogTimeout.toNat ≤ s.pos.mono.toNat) ∧ (s.host.wdogAction = false ∨ s.host.opState ≠ .print)) ∧
    (∃ (s : State), (s.host.wdogTimeout ≠ 0) ∧ (s.host.wdogExpired = false) ∧ (s.host.wdogStart.toNat + 1000000 * s.host.wdogTimeout.toNat ≤ s.pos.mono.toNat) ∧ (s.host.wdogAction = true) ∧ (s.host.opState = .print) ∧ (lineFires s = true)) ∧
    (∃ (s : State), (s.host.wdogTimeout ≠ 0) ∧ (s.host.wdogExpired = false) ∧ (s.host.wdogStart.toNat + 1000000 * s.host.wdogTimeout.toNat ≤ s.pos.mono.toNat) ∧ (s.host.wdogAction = true) ∧ (s.host.opState = .print) ∧ (lineFires s = false)) :=
  ⟨⟨((let s : State := ready; let s : State := { s with host.wdogTimeout := 1 }; let s : State := { s with host.wdogExpired := false }; let s : State := { s with host.wdogTimeout := 4, host.wdogStart := s.pos.mono }; s : State)), by decide +kernel⟩,
   ⟨((let s : State := ready; let s : State := { s with host.wdogTimeout := 1 }; let s : State := { s with host.wdogExpired := false }; let s : State := { s with host.wdogAction := false }; s : State)), by decide +kernel⟩,
   ⟨((let s : State := ready; let s : State := { s with host.wdogTimeout := 1 }; let s : State := { s with host.wdogExpired := false }; let s : State := { s with host.wdogAction := true }; let s : State := { s with host.opState := .print }; let s : State := { s with host.firing := true, fire.bTimes := [s.pos.mono] }; s : State)), by decide +kernel⟩,
   ⟨((let s : State := ready; let s : State := { s with host.wdogTimeout := 1 }; let s : State := { s with host.wdogExpired := false }; let s : State := { s with host.wdogAction := true }; let s : State := { s with host.opState := .print }; s : State)), by decide +kernel⟩⟩

theorem test_wit_Doorbells :
    (∃ (mask : BitVec 16) (s : State), s.StkSound ∧ (s.host.slotState.length = 16) ∧ (s.pers.almQueue.length < 16)) :=
  ⟨((0 : BitVec 16)), ((let s : State := ready; s : State)), stk_ok (by decide +kernel), by decide +kernel⟩

theorem test_wit_AcksAndSlotWrites :
    (∃ (mask : BitVec 16) (s : State), s.StkSound ∧ (s.host.slotState.length = 16) ∧ (s.pers.almQueue.length < 16)) ∧
    (∃ (k : Fin 16) (off : Nat) (bytes : List Byte) (s : State), (cell s.host.slotState k .host = .device)) ∧
    (∃ (k : Fin 16) (off : Nat) (bytes : List Byte) (s : State), (cell s.host.slotState k .host ≠ .device) ∧ (off + bytes.length ≤ 256) ∧ (s.host.cmdSlots.length = 16) ∧ ((cell s.host.cmdSlots k []).length = 64)) :=
  ⟨⟨((0 : BitVec 16)), ((let s : State := ready; s : State)), stk_ok (by decide +kernel), by decide +kernel⟩,
   ⟨((0 : Fin 16)), ((0 : Nat)), (([] : List Byte)), ((let s : State := ready; let s : State := { s with host.slotState := s.host.slotState.set 0 .device }; s : State)), by decide +kernel⟩,
   ⟨((0 : Fin 16)), ((0 : Nat)), (([] : List Byte)), ((let s : State := ready; s : State)), by decide +kernel⟩⟩

theorem test_wit_Responses :
    (∃ (k : Fin 16) (a : Ans) (c : RungCmd) (s : State), (s.host.rung.find? (fun x => x.slot == k.val && x.running) = some c) ∧ (c.discard = false) ∧ (s.host.slotState.length = 16) ∧ (s.host.rspSlots.length = 16) ∧ (a.status < 65536) ∧ (a.detail < 65536) ∧ (a.payload.length ≤ 60)) ∧
    (∃ (k : Fin 16) (a : Ans) (c : RungCmd) (s : State), (s.host.rung.find? (fun x => x.slot == k.val && x.running) = some c) ∧ (c.discard = true)) :=
  ⟨⟨((0 : Fin 16)), (({ status := 3, payload := [1, 2] } : Ans)), (({ mkCmd 0x0100 [] with running := true } : RungCmd)), ((let s : State := (ring (({ mkCmd 0x0100 [] with running := true } : RungCmd)) ready); s : State)), by decide +kernel⟩,
   ⟨((0 : Fin 16)), (({ status := 0 } : Ans)), (({ mkCmd 0x0100 [] with running := true, discard := true } : RungCmd)), ((let s : State := (ring (({ mkCmd 0x0100 [] with running := true, discard := true } : RungCmd)) ready); s : State)), by decide +kernel⟩⟩

theorem test_wit_AnswerOrder :
    (∃ (l : List (Bool × Ans)) (a : Ans) (b : Ans), (pick l = some a) ∧ ((true, b) ∈ l)) :=
  ⟨(([(true, badState), (true, hwFault)] : List (Bool × Ans))), ((badState : Ans)), ((hwFault : Ans)), rfl, by simp⟩

theorem test_wit_RingOrder :
    (∃ (k : Fin 16) (c : RungCmd) (b : RungCmd) (s : State), (s.host.waiting k = some c) ∧ (s.host.mbxReady = false ∨ (b ∈ rungBefore k s.host.rung ∧ (b.subsystem = c.subsystem ∨ b.ordered = true ∨ c.ordered = true)) ∨ c.running = true)) :=
  ⟨((0 : Fin 16)), ((mkCmd 0x0100 [] : RungCmd)), (({} : RungCmd)), ((let s : State := (ring ((mkCmd 0x0100 [] : RungCmd)) ready); let s : State := { s with host.mbxReady := false }; s : State)), by decide +kernel⟩

theorem test_wit_EventQueue :
    (∃ (v : Word) (s : State), (64 < (s.host.evqHead - v).toNat)) ∧
    (∃ (v : Word) (s : State), ((s.host.evqHead - v).toNat ≤ 64) ∧ (s.host.evqOverflowed = false)) ∧
    (∃ (e : Event) (s : State), s.StkSound ∧ (s.host.minSeverity.toNat ≤ e.ev.severity (e.p1 == 1)) ∧ (64 < s.host.evqCount + 17) ∧ (s.host.evqLost ≠ 0xFFFFFFFF)) ∧
    (∃ (opcode : Nat) (tag : Word) (status : Nat) (p0 : Word) (p1 : Word) (p2 : Word) (s : State) (i : _), (s.host.restarting = false) ∧ (s.host.evq.length = 64) ∧ (opcode < 65536) ∧ (status < 65536) ∧ (i ≠ s.host.evqHead.toNat % 64)) :=
  ⟨⟨((0xFFFFFF00 : Word)), ((let s : State := ready; s : State)), by decide +kernel⟩,
   ⟨((0 : Word)), ((let s : State := ready; let s : State := { s with host.evqOverflowed := false }; s : State)), by decide +kernel⟩,
   ⟨(({ ev := .brownout } : Event)), ((let s : State := ready; let s : State := { s with host.evqHead := 60 }; s : State)), stk_ok (by decide +kernel), by decide +kernel⟩,
   ⟨((0 : Nat)), ((0 : Word)), ((0 : Nat)), ((0 : Word)), ((0 : Word)), ((0 : Word)), ((let s : State := ready; let s : State := { s with host.restarting := false }; s : State)), 1, by decide +kernel⟩⟩

theorem test_wit_Interrupts :
    (∃ (v : Fin 16) (s : State), (s.host.pba = 1#16 <<< v.val) ∧ (s.host.msixTable.length = 64)) ∧
    (∃ (v : Fin 16) (i : Word) (at_ : Dword) (q : List (Word × Dword)) (s : State), (cell s.host.unsig v [] = (i, at_) :: q) ∧ (s.host.coalesceTime ≠ 0) ∧ (at_.toNat + 1000 * s.host.coalesceTime.toNat ≤ s.pos.mono.toNat) ∧ (s.host.vecOpen v = true)) ∧
    (∃ (v : Fin 16) (i : Word) (at_ : Dword) (q : List (Word × Dword)) (s : State), (cell s.host.unsig v [] = (i, at_) :: q) ∧ (s.pos.mono.toNat < at_.toNat + 1000 * s.host.coalesceTime.toNat)) :=
  ⟨⟨((0 : Fin 16)), ((let s : State := ready; let s : State := { s with host.pba := 1, host.msixTable := [0xFEE00000, 0, 0, 0] ++ s.host.msixTable.drop 4 }; s : State)), by decide +kernel⟩,
   ⟨((0 : Fin 16)), ((5 : Word)), ((0 : Dword)), (([] : List (Word × Dword))), ((let s : State := ready; let s : State := { s with host.coalesceTime := 1 }; let s : State := { s with host.unsig := s.host.unsig.set 0 [(5, 0)], host.coalesceTime := 7, host.msixEnable := true, host.msixTable := [0xFEE00000, 0, 0, 0] ++ s.host.msixTable.drop 4 }; s : State)), by decide +kernel⟩,
   ⟨((0 : Fin 16)), ((5 : Word)), ((1000000000000 : Dword)), (([] : List (Word × Dword))), ((let s : State := ready; let s : State := { s with host.unsig := s.host.unsig.set 0 [(5, 1000000000000)], host.coalesceTime := 7 }; s : State)), by decide +kernel⟩⟩

theorem test_wit_FunctionReset :
    (∃ (s : State) (c : _), (c ∈ (resetFunction s).host.rung)) ∧
    (∃ (s : State), (s.host.linkUp = true)) ∧
    (∃ (gen : BitVec 4) (width : BitVec 5) (s : State), (s.host.perstLow = true ∨ (cell s.pwr.islands 3 {}).on = false ∨ s.host.idsLoaded = false)) ∧
    (∃ (gen : BitVec 4) (width : BitVec 5) (s : State) (u : State), (s.host.perstLow = false) ∧ (s.pwr.inReset = false) ∧ ((cell s.pwr.islands 3 {}).on = true) ∧ (s.host.idsLoaded = true) ∧ (u = { s with host := { s.host with linkUp := true, linkInL2 := false, linkGen := gen, linkWidth := width } }) ∧ (4 ≤ gen.toNat ∧ 4 ≤ width.toNat)) ∧
    (∃ (gen : BitVec 4) (width : BitVec 5) (s : State) (u : State), (s.host.perstLow = false) ∧ (s.pwr.inReset = false) ∧ ((cell s.pwr.islands 3 {}).on = true) ∧ (s.host.idsLoaded = true) ∧ (u = { s with host := { s.host with linkUp := true, linkInL2 := false, linkGen := gen, linkWidth := width } }) ∧ (gen.toNat < 4 ∨ width.toNat < 4)) ∧
    (∃ (s : State), (s.pwr.state ≠ .sleep)) ∧
    (∃ (s : State), (s.host.linkUp = false)) ∧
    (∃ (s : State), (s.host.busMaster = false) ∧ (s.pg.pages = []) ∧ (∀ r, r < 4 → (s.pg.ring r).enabled = false)) ∧
    (∃ (s : State), (s.host.busMaster = true)) :=
  ⟨⟨((let s : State := (ring (({ mkCmd 0x0100 [] with running := true, discard := true, slot := 16 } : RungCmd)) ready); let s : State := { s with host.rung := [{ mkCmd 0x0100 [] with running := true }, mkCmd 0x0100 [] 1] }; s : State)), (({ mkCmd 0x0100 [] with running := true, discard := true, slot := 16 } : RungCmd)), by decide +kernel⟩,
   ⟨((let s : State := ready; let s : State := { s with host.linkUp := true }; s : State)), by decide +kernel⟩,
   ⟨((0 : BitVec 4)), ((0 : BitVec 5)), ((let s : State := ready; let s : State := { s with host.perstLow := true }; s : State)), by decide +kernel⟩,
   ⟨((4 : BitVec 4)), ((4 : BitVec 5)), ((let s : State := ready; let s : State := { s with host.perstLow := false }; let s : State := { s with pwr.inReset := false }; let s : State := setIsland 3 (fun zz => { zz with on := true }) s; let s : State := { s with host.idsLoaded := true }; s : State)), (({ ((let s : State := ready; let s : State := { s with host.perstLow := false }; let s : State := { s with pwr.inReset := false }; let s : State := setIsland 3 (fun zz => { zz with on := true }) s; let s : State := { s with host.idsLoaded := true }; s : State)) with host := { ((let s : State := ready; let s : State := { s with host.perstLow := false }; let s : State := { s with pwr.inReset := false }; let s : State := setIsland 3 (fun zz => { zz with on := true }) s; let s : State := { s with host.idsLoaded := true }; s : State)).host with linkUp := true, linkInL2 := false, linkGen := ((4 : BitVec 4)), linkWidth := ((4 : BitVec 5)) } } : State)), by decide +kernel⟩,
   ⟨((0 : BitVec 4)), ((0 : BitVec 5)), ((let s : State := ready; let s : State := { s with host.perstLow := false }; let s : State := { s with pwr.inReset := false }; let s : State := setIsland 3 (fun zz => { zz with on := true }) s; let s : State := { s with host.idsLoaded := true }; s : State)), (({ ((let s : State := ready; let s : State := { s with host.perstLow := false }; let s : State := { s with pwr.inReset := false }; let s : State := setIsland 3 (fun zz => { zz with on := true }) s; let s : State := { s with host.idsLoaded := true }; s : State)) with host := { ((let s : State := ready; let s : State := { s with host.perstLow := false }; let s : State := { s with pwr.inReset := false }; let s : State := setIsland 3 (fun zz => { zz with on := true }) s; let s : State := { s with host.idsLoaded := true }; s : State)).host with linkUp := true, linkInL2 := false, linkGen := ((0 : BitVec 4)), linkWidth := ((0 : BitVec 5)) } } : State)), by decide +kernel⟩,
   ⟨((let s : State := ready; s : State)), by decide +kernel⟩,
   ⟨((let s : State := ready; let s : State := { s with host.linkUp := false }; s : State)), by decide +kernel⟩,
   ⟨((let s : State := ready; let s : State := { s with host.busMaster := false }; let s : State := { s with pg.pages := [] }; s : State)), by decide +kernel⟩,
   ⟨((let s : State := ready; let s : State := { s with host.busMaster := true }; s : State)), by decide +kernel⟩⟩

theorem test_wit_ChipReset :
    (∃ (cause : Fin 5) (s : State) (i : _), (i < s.pwr.islands.length)) :=
  ⟨((0 : Fin 5)), ((let s : State := ready; s : State)), ((0 : Nat)), by decide +kernel⟩

theorem test_wit_ResetCommands :
    (∃ (kind : Bool) (alt : Bool) (at_ : Dword) (s : State), (s.host.resetReq = some (kind, alt, at_)) ∧ (s.pos.mono.toNat < at_.toNat + 1000000)) ∧
    (∃ (alt : Bool) (at_ : Dword) (s : State), (s.host.resetReq = some (true, alt, at_)) ∧ (at_.toNat + 1000000 ≤ s.pos.mono.toNat)) ∧
    (∃ (alt : Bool) (at_ : Dword) (s : State), (s.host.resetReq = some (false, alt, at_)) ∧ (at_.toNat + 1000000 ≤ s.pos.mono.toNat)) ∧
    (∃ (s : State), (s.host.restarting = false)) ∧
    (∃ (s : State), (s.pwr.porHeld = true)) ∧
    (∃ (s : State), (s.pwr.uvPending = true) ∧ (s.aonDue s.pwr.uvAt 8000 = true)) :=
  ⟨⟨((false : Bool)), ((false : Bool)), ((1000000000000 : Dword)), ((let s : State := ready; let s : State := { s with host.resetReq := some (((false : Bool)), ((false : Bool)), ((1000000000000 : Dword))) }; s : State)), by decide +kernel⟩,
   ⟨((false : Bool)), ((0 : Dword)), ((let s : State := ready; let s : State := { s with host.resetReq := some (true, ((false : Bool)), ((0 : Dword))) }; s : State)), by decide +kernel⟩,
   ⟨((false : Bool)), ((0 : Dword)), ((let s : State := ready; let s : State := { s with host.resetReq := some (false, ((false : Bool)), ((0 : Dword))) }; s : State)), by decide +kernel⟩,
   ⟨((let s : State := ready; let s : State := { s with host.restarting := false }; s : State)), by decide +kernel⟩,
   ⟨((let s : State := ready; let s : State := { s with pwr.porHeld := true }; s : State)), by decide +kernel⟩,
   ⟨((let s : State := ready; let s : State := { s with pwr.uvPending := true }; s : State)), by decide +kernel⟩⟩

theorem test_wit_SystemCommands :
    (∃ (k : _) (c : _) (s : _), Rung 0x0100 0 k c s) ∧
    (∃ (k : _) (c : _) (s : _), Rung 0x0101 0 k c s) ∧
    (∃ (k : _) (c : _) (s : _), Rung 0x0102 1 k c s ∧ (c.w 0 = 2) ∧ (s.host.opState = .ready) ∧ (s.twin.role ≠ .listen) ∧ (s.cg.modules ≠ 0) ∧ (s.pwr.state = .run) ∧ (∀ m, m < s.cg.modules → (s.lane m).st = .active)) ∧
    (∃ (k : _) (c : _) (s : _), Rung 0x0102 1 k c s ∧ (c.w 0 = 3) ∧ (s.host.opState = .ready) ∧ (s.pwr.state = .run) ∧ (s.permits 2 = true)) ∧
    (∃ (k : _) (c : _) (s : _), Rung 0x0102 1 k c s ∧ (c.w 0 = 1) ∧ (s.host.opState = .service ∨ (s.host.opState = .print ∧ lineFires s = false))) ∧
    (∃ (k : _) (c : _) (s : _), Rung 0x0102 1 k c s ∧ (c.w 0 = 1) ∧ (s.host.opState = .safe)) ∧
    (∃ (k : _) (c : _) (s : _), Rung 0x0103 1 k c s ∧ (c.w 0 ≤ 1) ∧ (s.host.opState ≠ .print) ∧ (s.host.resetReq = none)) ∧
    (∃ (k : _) (c : _) (s : _), Rung 0x0103 1 k c s ∧ (c.w 0 ≤ 1) ∧ (s.host.opState ≠ .print) ∧ (s.host.resetReq.isSome = true)) ∧
    (∃ (k : _) (c : _) (s : _), Rung 0x0104 3 k c s ∧ ((c.w 0).toNat % 4096 = 0) ∧ (4096 ≤ (c.w 2).toNat) ∧ ((c.w 2).toNat ≤ 4194304) ∧ (s.host.fwStage = none) ∧ (s.host.opState ≠ .boot) ∧ (s.host.outst.length < 16)) :=
  ⟨⟨((0 : Fin 16)), ((mkCmd 0x0100 [] : RungCmd)), ((let s : State := (ring ((mkCmd 0x0100 [] : RungCmd)) ready); s : State)), rung_ok (by decide +kernel)⟩,
   ⟨((0 : Fin 16)), ((mkCmd 0x0101 [] : RungCmd)), ((let s : State := (ring ((mkCmd 0x0101 [] : RungCmd)) ready); s : State)), rung_ok (by decide +kernel)⟩,
   ⟨((0 : Fin 16)), ((mkCmd 0x0102 [2] : RungCmd)), ((let s : State := (ring ((mkCmd 0x0102 [2] : RungCmd)) ready); let s : State := { s with host.opState := .ready }; let s : State := { s with cg.modules := 1 }; let s : State := { s with pwr.state := .run }; let s : State := { s with hl.lanes := s.hl.lanes.map fun l => { l with st := .active }, twin.role := .solo }; s : State)), rung_ok (by decide +kernel), by decide +kernel⟩,
   ⟨((0 : Fin 16)), ((mkCmd 0x0102 [3] : RungCmd)), ((let s : State := (ring ((mkCmd 0x0102 [3] : RungCmd)) ready); let s : State := { s with host.opState := .ready }; let s : State := { s with pwr.state := .run }; let s : State := { s with onyx.permMain := 15, onyx.permOnyx := 15 }; s : State)), rung_ok (by decide +kernel), by decide +kernel⟩,
   ⟨((0 : Fin 16)), ((mkCmd 0x0102 [1] : RungCmd)), ((let s : State := (ring ((mkCmd 0x0102 [1] : RungCmd)) ready); let s : State := { s with host.opState := .service }; s : State)), rung_ok (by decide +kernel), by decide +kernel⟩,
   ⟨((0 : Fin 16)), ((mkCmd 0x0102 [1] : RungCmd)), ((let s : State := (ring ((mkCmd 0x0102 [1] : RungCmd)) ready); let s : State := { s with host.opState := .safe }; s : State)), rung_ok (by decide +kernel), by decide +kernel⟩,
   ⟨((0 : Fin 16)), ((mkCmd 0x0103 [0] : RungCmd)), ((let s : State := (ring ((mkCmd 0x0103 [0] : RungCmd)) ready); let s : State := { s with host.resetReq := none }; s : State)), rung_ok (by decide +kernel), by decide +kernel⟩,
   ⟨((0 : Fin 16)), ((mkCmd 0x0103 [0] : RungCmd)), ((let s : State := (ring ((mkCmd 0x0103 [0] : RungCmd)) ready); let s : State := { s with host.resetReq := some default }; s : State)), rung_ok (by decide +kernel), by decide +kernel⟩,
   ⟨((0 : Fin 16)), ((mkCmd 0x0104 [0, 0, 4096] : RungCmd)), ((let s : State := (ring ((mkCmd 0x0104 [0, 0, 4096] : RungCmd)) ready); let s : State := { s with host.fwStage := none }; s : State)), rung_ok (by decide +kernel), by decide +kernel⟩⟩

theorem test_wit_TurnedAway :
    (∃ (op : Nat) (n : Nat) (k : Fin 16) (c : RungCmd) (s : State) (checks : State → List Word → List (Bool × Ans)) (effect : Word → List Word → State → State × Option Ans), (s.host.waiting k = some c) ∧ (c.opcode = op) ∧ (startable s.host c = true) ∧ (c.headerBad = true)) ∧
    (∃ (op : Nat) (n : Nat) (k : Fin 16) (c : RungCmd) (s : State) (checks : State → List Word → List (Bool × Ans)) (effect : Word → List Word → State → State × Option Ans), (s.host.waiting k = some c) ∧ (c.opcode = op) ∧ (startable s.host c = true) ∧ (c.headerBad = false) ∧ (c.payloadWords < n)) ∧
    (∃ (op : Nat) (n : Nat) (k : Fin 16) (c : RungCmd) (s : State) (checks : State → List Word → List (Bool × Ans)) (effect : Word → List Word → State → State × Option Ans) (a : Ans), (s.host.waiting k = some c) ∧ (c.opcode = op) ∧ (startable s.host c = true) ∧ (c.headerBad = false) ∧ (n ≤ c.payloadWords) ∧ (pick (served op s) = none) ∧ (pick (checks s c.payload) = some a)) :=
  ⟨⟨((0x0100 : Nat)), ((0 : Nat)), ((0 : Fin 16)), (({ mkCmd 0x0100 [] with words := [0x80000100, 7, 0, 0] } : RungCmd)), ((let s : State := (ring (({ mkCmd 0x0100 [] with words := [0x80000100, 7, 0, 0] } : RungCmd)) ready); s : State)), ((fun _ _ => [] : State → List Word → List (Bool × Ans))), ((fun _ _ z => (z, none) : Word → List Word → State → State × Option Ans)), by decide +kernel⟩,
   ⟨((0x0100 : Nat)), ((1 : Nat)), ((0 : Fin 16)), ((mkCmd 0x0100 [] : RungCmd)), ((let s : State := (ring ((mkCmd 0x0100 [] : RungCmd)) ready); s : State)), ((fun _ _ => [] : State → List Word → List (Bool × Ans))), ((fun _ _ z => (z, none) : Word → List Word → State → State × Option Ans)), by decide +kernel⟩,
   ⟨((0x0100 : Nat)), ((0 : Nat)), ((0 : Fin 16)), ((mkCmd 0x0100 [] : RungCmd)), ((let s : State := (ring ((mkCmd 0x0100 [] : RungCmd)) ready); s : State)), ((fun _ _ => [(true, badState)] : State → List Word → List (Bool × Ans))), ((fun _ _ z => (z, none) : Word → List Word → State → State × Option Ans)), ((badState : Ans)), by decide +kernel, by decide +kernel, by decide +kernel, by decide +kernel, by decide +kernel, by decide +kernel, rfl⟩⟩

theorem test_wit_StartUp :
    (∃ (f : Option Nat) (s : State), (s.pwr.porHeld = false) ∧ (s.pwr.resetPin = false) ∧ (s.pwr.uvHeld = false) ∧ (s.pwr.inReset = true) ∧ (s.pwr.islands.length = 4)) ∧
    (∃ (i : Fin 4) (s : State), ((cell s.pwr.islands i {}).stage ∈ [1, 2, 3])) ∧
    (∃ (i : Fin 4) (s : State), ((cell s.pwr.islands i {}).stage = 4) ∧ (s.pwr.islands.length = 4)) ∧
    (∃ (i : Fin 4) (s : State), (s.aonDue (cell s.pwr.islands i {}).stageAt (stageLimit (cell s.pwr.islands i {}).stage) = false)) ∧
    (∃ (i : Fin 4) (s : State), ((cell s.pwr.islands i {}).stage ∈ [1, 2, 3, 4]) ∧ ((cell s.pwr.islands i {}).tries = 0) ∧ (s.aonDue (cell s.pwr.islands i {}).stageAt (stageLimit (cell s.pwr.islands i {}).stage) = true)) ∧
    (∃ (i : Fin 4) (s : State), ((cell s.pwr.islands i {}).stage ∈ [1, 2, 3, 4]) ∧ ((cell s.pwr.islands i {}).tries ≠ 0) ∧ (s.pwr.starting = true) ∧ (s.aonDue (cell s.pwr.islands i {}).stageAt (stageLimit (cell s.pwr.islands i {}).stage) = true) ∧ (i = 0 ∨ i = 3)) ∧
    (∃ (s : State), (s.pwr.inReset = true) ∧ (s.host.opState = .boot) ∧ (s.pwr.islands.length = 4) ∧ (∃ x ∈ s.pwr.islands, x.timeout = true) ∧ (s.aonDue s.pwr.retryAt 1000000000 = true)) :=
  ⟨⟨((none : Option Nat)), ((let s : State := ready; let s : State := { s with pwr.porHeld := false }; let s : State := { s with pwr.resetPin := false }; let s : State := { s with pwr.uvHeld := false }; let s : State := { s with pwr.inReset := true }; s : State)), by decide +kernel⟩,
   ⟨((0 : Fin 4)), ((let s : State := ready; let s : State := setIsland 0 (fun zz => { zz with stage := 1 }) s; s : State)), by decide +kernel⟩,
   ⟨((0 : Fin 4)), ((let s : State := ready; let s : State := setIsland ((0 : Fin 4)) (fun zz => { zz with stage := 4 }) s; s : State)), by decide +kernel⟩,
   ⟨((0 : Fin 4)), ((let s : State := ready; let s : State := setIsland ((0 : Fin 4)) (fun zz => { zz with stageAt := s.pos.mono, stage := 1 }) s; s : State)), by decide +kernel⟩,
   ⟨((0 : Fin 4)), ((let s : State := ready; let s : State := setIsland ((0 : Fin 4)) (fun zz => { zz with tries := 0 }) s; let s : State := setIsland 0 (fun zz => { zz with stage := 1 }) s; s : State)), by decide +kernel⟩,
   ⟨((0 : Fin 4)), ((let s : State := ready; let s : State := setIsland ((0 : Fin 4)) (fun zz => { zz with tries := 1 }) s; let s : State := { s with pwr.starting := true }; let s : State := setIsland 0 (fun zz => { zz with stage := 1 }) s; s : State)), by decide +kernel⟩,
   ⟨((let s : State := ready; let s : State := { s with pwr.inReset := true }; let s : State := { s with host.opState := .boot }; let s : State := setIsland 0 (fun zz => { zz with timeout := true }) s; s : State)), by decide +kernel⟩⟩

theorem test_wit_FirmwareStarts :
    (∃ (a : Bool) (b : Bool) (s : State), (s.host.opState = .boot) ∧ (s.host.berylRunning = true) ∧ (s.host.bootRomWaiting = false) ∧ (s.pwr.starting = false) ∧ ((cell s.pwr.islands 2 {}).on = true)) ∧
    (∃ (k : _) (c : _) (s : _), Rung 0x0F05 3 k c s ∧ ((c.w 0).toNat % 4096 = 0) ∧ (4096 ≤ (c.w 2).toNat) ∧ ((c.w 2).toNat ≤ 4194304) ∧ (s.host.bootLoad = none) ∧ (s.host.bootRomWaiting = true) ∧ (s.host.outst.length < 16)) :=
  ⟨⟨((false : Bool)), ((false : Bool)), ((let s : State := ready; let s : State := { s with host.opState := .boot }; let s : State := { s with host.berylRunning := true }; let s : State := { s with host.bootRomWaiting := false }; let s : State := { s with pwr.starting := false }; let s : State := setIsland 2 (fun zz => { zz with on := true }) s; s : State)), by decide +kernel⟩,
   ⟨((0 : Fin 16)), ((mkCmd 0x0F05 [0, 0, 4096] : RungCmd)), ((let s : State := (ring ((mkCmd 0x0F05 [0, 0, 4096] : RungCmd)) ready); let s : State := { s with host.bootLoad := none }; let s : State := { s with host.bootRomWaiting := true }; s : State)), rung_ok (by decide +kernel), by decide +kernel⟩⟩

theorem test_wit_PowerCommands :
    (∃ (k : _) (c : _) (s : _), Rung 0x0F00 1 k c s ∧ (c.w 0 = 0)) ∧
    (∃ (k : _) (c : _) (s : _), Rung 0x0F00 1 k c s ∧ (c.w 0 = 1)) ∧
    (∃ (k : _) (c : _) (s : _), Rung 0x0F01 1 k c s ∧ (c.w 0 = 3) ∧ (s.pwr.state = .run) ∧ (s.pwr.target = none) ∧ (lowerBlocked false s = false)) ∧
    (∃ (k : _) (c : _) (s : _), Rung 0x0F01 1 k c s ∧ (c.w 0 = 1) ∧ (s.pwr.state = .run) ∧ (s.pwr.target = none) ∧ (lowerBlocked true s = false)) ∧
    (∃ (k : _) (c : _) (s : _), Rung 0x0F01 1 k c s ∧ (c.w 0 = 4) ∧ (s.pwr.state = .hold) ∧ (s.pwr.target = none) ∧ (s.host.opState ≠ .boot) ∧ (s.host.outst.length < 16) ∧ (s.pwr.sleepArmed = false)) ∧
    (∃ (k : _) (c : _) (s : _), Rung 0x0F01 1 k c s ∧ (c.w 0 = 4) ∧ (s.pwr.state = .standby) ∧ (s.pwr.target = none) ∧ (s.host.opState ≠ .boot)) ∧
    (∃ (k : _) (c : _) (s : _), Rung 0x0F02 0 k c s ∧ (s.host.opState ≠ .boot) ∧ (s.pwr.brownout = false)) ∧
    (∃ (k : _) (c : _) (s : _), Rung 0x0F02 0 k c s ∧ (s.host.opState ≠ .boot) ∧ (s.pwr.brownout = true) ∧ (s.pwr.coreStable = true)) ∧
    (∃ (k : _) (c : _) (s : _), Rung 0x0F02 0 k c s ∧ (s.host.opState ≠ .boot) ∧ (s.pwr.brownout = true) ∧ (s.pwr.coreStable = false)) ∧
    (∃ (k : _) (c : _) (s : _), Rung 0x0F03 1 k c s ∧ (1 ≤ (c.w 0).toNat) ∧ ((c.w 0).toNat ≤ 15) ∧ (s.host.opState ≠ .boot) ∧ (s.pwr.islands.length = 4) ∧ (∀ i, i < 4 → flag (c.w 0) i = true → (cell s.pwr.islands i {}).on = true)) ∧
    (∃ (k : _) (c : _) (s : _), Rung 0x0F04 3 k c s ∧ ((c.w 0).toNat < 8) ∧ ((c.w 1).toNat < 65536) ∧ (s.host.opState ≠ .boot)) :=
  ⟨⟨((0 : Fin 16)), ((mkCmd 0x0F00 [0] : RungCmd)), ((let s : State := (ring ((mkCmd 0x0F00 [0] : RungCmd)) ready); s : State)), rung_ok (by decide +kernel), by decide +kernel⟩,
   ⟨((0 : Fin 16)), ((mkCmd 0x0F00 [1] : RungCmd)), ((let s : State := (ring ((mkCmd 0x0F00 [1] : RungCmd)) ready); s : State)), rung_ok (by decide +kernel), by decide +kernel⟩,
   ⟨((0 : Fin 16)), ((mkCmd 0x0F01 [3] : RungCmd)), ((let s : State := (ring ((mkCmd 0x0F01 [3] : RungCmd)) ready); let s : State := { s with pwr.state := .run }; let s : State := { s with pwr.target := none }; s : State)), rung_ok (by decide +kernel), by decide +kernel⟩,
   ⟨((0 : Fin 16)), ((mkCmd 0x0F01 [1] : RungCmd)), ((let s : State := (ring ((mkCmd 0x0F01 [1] : RungCmd)) ready); let s : State := { s with pwr.state := .run }; let s : State := { s with pwr.target := none }; s : State)), rung_ok (by decide +kernel), by decide +kernel⟩,
   ⟨((0 : Fin 16)), ((mkCmd 0x0F01 [4] : RungCmd)), ((let s : State := (ring ((mkCmd 0x0F01 [4] : RungCmd)) ready); let s : State := { s with pwr.state := .hold }; let s : State := { s with pwr.target := none }; let s : State := { s with pwr.sleepArmed := false }; s : State)), rung_ok (by decide +kernel), by decide +kernel⟩,
   ⟨((0 : Fin 16)), ((mkCmd 0x0F01 [4] : RungCmd)), ((let s : State := (ring ((mkCmd 0x0F01 [4] : RungCmd)) ready); let s : State := { s with pwr.state := .standby }; let s : State := { s with pwr.target := none }; s : State)), rung_ok (by decide +kernel), by decide +kernel⟩,
   ⟨((0 : Fin 16)), ((mkCmd 0x0F02 [] : RungCmd)), ((let s : State := (ring ((mkCmd 0x0F02 [] : RungCmd)) ready); let s : State := { s with pwr.brownout := false }; s : State)), rung_ok (by decide +kernel), by decide +kernel⟩,
   ⟨((0 : Fin 16)), ((mkCmd 0x0F02 [] : RungCmd)), ((let s : State := (ring ((mkCmd 0x0F02 [] : RungCmd)) ready); let s : State := { s with pwr.brownout := true }; let s : State := { s with pwr.coreStable := true }; s : State)), rung_ok (by decide +kernel), by decide +kernel⟩,
   ⟨((0 : Fin 16)), ((mkCmd 0x0F02 [] : RungCmd)), ((let s : State := (ring ((mkCmd 0x0F02 [] : RungCmd)) ready); let s : State := { s with pwr.brownout := true }; let s : State := { s with pwr.coreStable := false }; s : State)), rung_ok (by decide +kernel), by decide +kernel⟩,
   ⟨((0 : Fin 16)), ((mkCmd 0x0F03 [1] : RungCmd)), ((let s : State := (ring ((mkCmd 0x0F03 [1] : RungCmd)) ready); s : State)), rung_ok (by decide +kernel), by decide +kernel⟩,
   ⟨((0 : Fin 16)), ((mkCmd 0x0F04 [0, 0, 0] : RungCmd)), ((let s : State := (ring ((mkCmd 0x0F04 [0, 0, 0] : RungCmd)) ready); s : State)), rung_ok (by decide +kernel), by decide +kernel⟩⟩

theorem test_wit_PowerStates :
    (∃ (i : Fin 4) (k : Fin 16) (w : Option Word) (s : State), ((cell s.pwr.islands i {}).draining = true) ∧ (s.pwr.target = some (.standby, some k.val, w))) ∧
    (∃ (k : Fin 16) (w : Option Word) (s : State), ((cell s.pwr.islands 2 {}).draining = true) ∧ (s.pwr.islands.length = 4) ∧ (s.hl.lanes.length = 16) ∧ (s.pwr.target = some (.hold, some k.val, w))) ∧
    (∃ (i : Fin 4) (n : Nat) (k : Fin 16) (p : PwrState) (w : Option Word) (s : State), ((cell s.pwr.islands i {}).draining = true) ∧ (s.pwr.target = some (p, some k.val, w)) ∧ (s.aonDue (cell s.pwr.islands i {}).drainAt 100000 = true)) ∧
    (∃ (s : State), (s.pwr.sleepArmed = true) ∧ (vigilQuiet s = true)) ∧
    (∃ (r : Fin 3) (s : State), (s.pwr.sleepArmed = true) ∧ (r ≠ 0) ∧ (s.aonDue s.pwr.armedAt 1000000000 = true)) ∧
    (∃ (s : State), (s.pwr.state = .sleep) ∧ (s.aonDue s.pwr.minuteAt 60000000000 = true)) ∧
    (∃ (s : State), (s.pwr.state = .sleep) ∧ (s.aonDue s.pwr.minuteAt 60000000000 = false)) ∧
    (∃ (s : State), (s.pwr.state = .sleep) ∧ (s.pwr.wakeVigil = true)) ∧
    (∃ (s : State), (s.pwr.state = .sleep) ∧ (s.pwr.wakeVigil = false)) ∧
    (∃ (s : State), (s.pwr.state = .sleep) ∧ (s.pwr.wakePattern = true)) ∧
    (∃ (s : State), (s.pwr.state = .sleep) ∧ (s.pwr.wakePattern = false)) :=
  ⟨⟨((0 : Fin 4)), ((0 : Fin 16)), ((none : Option Word)), ((let s : State := ready; let s : State := setIsland ((0 : Fin 4)) (fun zz => { zz with draining := true }) s; let s : State := { s with pwr.target := some (.standby, some ((0 : Fin 16)).val, ((none : Option Word))) }; s : State)), by decide +kernel⟩,
   ⟨((0 : Fin 16)), ((none : Option Word)), ((let s : State := ready; let s : State := setIsland 2 (fun zz => { zz with draining := true }) s; let s : State := { s with pwr.target := some (.hold, some ((0 : Fin 16)).val, ((none : Option Word))) }; s : State)), by decide +kernel⟩,
   ⟨((0 : Fin 4)), ((0 : Nat)), ((0 : Fin 16)), ((.standby : PwrState)), ((none : Option Word)), ((let s : State := ready; let s : State := setIsland ((0 : Fin 4)) (fun zz => { zz with draining := true }) s; let s : State := { s with pwr.target := some (((.standby : PwrState)), some ((0 : Fin 16)).val, ((none : Option Word))) }; s : State)), by decide +kernel⟩,
   ⟨((let s : State := ready; let s : State := { s with pwr.sleepArmed := true }; s : State)), by decide +kernel⟩,
   ⟨((1 : Fin 3)), ((let s : State := ready; let s : State := { s with pwr.sleepArmed := true }; s : State)), by decide +kernel⟩,
   ⟨((let s : State := ready; let s : State := { s with pwr.state := .sleep }; s : State)), by decide +kernel⟩,
   ⟨((let s : State := ready; let s : State := { s with pwr.state := .sleep }; let s : State := { s with pwr.minuteAt := s.pos.mono }; s : State)), by decide +kernel⟩,
   ⟨((let s : State := ready; let s : State := { s with pwr.state := .sleep }; let s : State := { s with pwr.wakeVigil := true }; s : State)), by decide +kernel⟩,
   ⟨((let s : State := ready; let s : State := { s with pwr.state := .sleep }; let s : State := { s with pwr.wakeVigil := false }; s : State)), by decide +kernel⟩,
   ⟨((let s : State := ready; let s : State := { s with pwr.state := .sleep }; let s : State := { s with pwr.wakePattern := true }; s : State)), by decide +kernel⟩,
   ⟨((let s : State := ready; let s : State := { s with pwr.state := .sleep }; let s : State := { s with pwr.wakePattern := false }; s : State)), by decide +kernel⟩⟩

theorem test_wit_Supplies :
    (∃ (mv : Nat) (s : State), (705 ≤ mv)) ∧
    (∃ (mv : Nat) (s : State), (s.pwr.warnNow = false) ∧ (mv < 705)) ∧
    (∃ (mv : Nat) (us : Nat) (s : State), (s.pwr.warnNow = true) ∧ (s.pwr.uvHeld = true ∨ s.pwr.uvPending = true)) ∧
    (∃ (mv : Nat) (us : Nat) (s : State), (s.pwr.warnNow = true) ∧ (s.pwr.uvHeld = false) ∧ (s.pwr.uvPending = false)) ∧
    (∃ (at_ : Dword) (s : State), (s.pwr.riseAt = some at_) ∧ (s.aonDue at_ 1000000 = false)) ∧
    (∃ (s : State), (s.pwr.warnNow = false) ∧ (s.pwr.inReset = false) ∧ (∀ t, s.pwr.riseAt = some t → s.aonDue t 1000000 = true)) ∧
    (∃ (s : State), (s.onyx.tripped = false)) :=
  ⟨⟨((705 : Nat)), ((let s : State := ready; s : State)), by decide +kernel⟩,
   ⟨((0 : Nat)), ((let s : State := ready; let s : State := { s with pwr.warnNow := false }; s : State)), by decide +kernel⟩,
   ⟨((0 : Nat)), ((0 : Nat)), ((let s : State := ready; let s : State := { s with pwr.warnNow := true }; let s : State := { s with pwr.uvHeld := true }; s : State)), by decide +kernel⟩,
   ⟨((0 : Nat)), ((0 : Nat)), ((let s : State := ready; let s : State := { s with pwr.warnNow := true }; let s : State := { s with pwr.uvHeld := false }; let s : State := { s with pwr.uvPending := false }; s : State)), by decide +kernel⟩,
   ⟨((1000000000000 : Dword)), ((let s : State := ready; let s : State := { s with pwr.riseAt := some 1000000000000 }; s : State)), by decide +kernel⟩,
   ⟨((let s : State := ready; let s : State := { s with pwr.warnNow := false }; let s : State := { s with pwr.inReset := false }; s : State)), by decide +kernel, by decide +kernel, every_some (by decide +kernel)⟩,
   ⟨((let s : State := ready; let s : State := { s with onyx.tripped := false }; s : State)), by decide +kernel⟩⟩

theorem test_wit_RingFetches :
    (∃ (r : Fin 4) (v : Word) (s : State), (mayFetch r (setRing r (fun g => { g with prod := v }) s) = true) ∧ (s.pg.rings.length = 4)) ∧
    (∃ (r : Fin 4) (v : Word) (s : State), ((s.pg.ring r).halted = true ∨ (s.pg.ring r).enabled = false ∨ (s.pg.ring r).fetch = v) ∧ (s.pg.rings.length = 4)) ∧
    (∃ (s : State), (s.pg.rings.length = 4)) ∧
    (∃ (r : Fin 4) (idx : Word) (bytes : List Byte) (table : List Byte) (desc : List Word) (blocks : List Blk) (s : State) (u : State) (code : _), (s.pg.descReq.find? (fun d => d.1 == r.val) = some (r.val, idx)) ∧ (desc = bytesToWords bytes 0 16) ∧ (table.length = tableLen desc) ∧ (blocks = tableOf desc table) ∧ (u = readHost (wn64 desc 6) (tableLen desc) (dropFetch r s)) ∧ (descCheck desc blocks s.pg.capacity = some code)) ∧
    (∃ (r : Fin 4) (idx : Word) (bytes : List Byte) (table : List Byte) (desc : List Word) (blocks : List Blk) (s : State) (u : State), (s.pg.descReq.find? (fun d => d.1 == r.val) = some (r.val, idx)) ∧ (desc = bytesToWords bytes 0 16) ∧ (table.length = tableLen desc) ∧ (blocks = tableOf desc table) ∧ (u = readHost (wn64 desc 6) (tableLen desc) (dropFetch r s)) ∧ (descCheck desc blocks s.pg.capacity = none) ∧ (s.pg.used + (blocks.map fun b => if b.blank then 0 else b.len).sum > s.pg.capacity)) ∧
    (∃ (r : Fin 4) (idx : Word) (bytes : List Byte) (table : List Byte) (desc : List Word) (blocks : List Blk) (s : State) (u : State) (q : Page), (s.pg.descReq.find? (fun d => d.1 == r.val) = some (r.val, idx)) ∧ (desc = bytesToWords bytes 0 16) ∧ (table.length = tableLen desc) ∧ (blocks = tableOf desc table) ∧ (u = readHost (wn64 desc 6) (tableLen desc) (dropFetch r s)) ∧ (q = { uid := s.pg.nextUid, ring := r.val, descIdx := idx, desc := desc, lines := wn desc 2, blocks := blocks.map fun b => { b with fetches := 1 } }) ∧ (descCheck desc blocks s.pg.capacity = none) ∧ (s.pg.used + (blocks.map fun b => if b.blank then 0 else b.len).sum ≤ s.pg.capacity) ∧ (fetchRoom r (s.pg.used + q.sizeButLast) u = false)) ∧
    (∃ (r : Fin 4) (idx : Word) (bytes : List Byte) (table : List Byte) (desc : List Word) (blocks : List Blk) (s : State) (u : State) (q : Page), (s.pg.descReq.find? (fun d => d.1 == r.val) = some (r.val, idx)) ∧ (desc = bytesToWords bytes 0 16) ∧ (table.length = tableLen desc) ∧ (blocks = tableOf desc table) ∧ (u = readHost (wn64 desc 6) (tableLen desc) (dropFetch r s)) ∧ (q = { uid := s.pg.nextUid, ring := r.val, descIdx := idx, desc := desc, lines := wn desc 2, blocks := blocks.map fun b => { b with fetches := 1 } }) ∧ (descCheck desc blocks s.pg.capacity = none) ∧ (s.pg.used + (blocks.map fun b => if b.blank then 0 else b.len).sum ≤ s.pg.capacity) ∧ (fetchRoom r (s.pg.used + q.sizeButLast) u = true)) ∧
    (∃ (r : Fin 4) (bytes : List Byte) (table : List Byte) (s : State), (table.length ≠ tableLen (bytesToWords bytes 0 16))) ∧
    (∃ (r : Fin 4) (idx : Word) (page : Option Nat) (s : State), (s.pg.descReq.contains (r.val, idx) = true)) ∧
    (∃ (r : Fin 4) (code : Nat) (idx : Word) (ev : Ev) (s : State) (d : Nat × Word), (s.pg.rings.length = 4) ∧ (d ∈ (haltRing r code idx ev s).pg.descReq)) :=
  ⟨⟨((0 : Fin 4)), ((1 : Word)), ((let s : State := paged; s : State)), by decide +kernel⟩,
   ⟨((0 : Fin 4)), ((0 : Word)), ((let s : State := ready; let s : State := setRing ((0 : Fin 4)) (fun zz => { zz with halted := true }) s; s : State)), by decide +kernel⟩,
   ⟨((let s : State := ready; s : State)), by decide +kernel⟩,
   ⟨((0 : Fin 4)), ((0 : Word)), (([] : List Byte)), (([] : List Byte)), ((bytesToWords (([] : List Byte)) 0 16 : List Word)), ((tableOf ((bytesToWords (([] : List Byte)) 0 16 : List Word)) (([] : List Byte)) : List Blk)), ((let s : State := ready; let s : State := { s with pg.descReq := [(0, 0)] }; s : State)), ((readHost (wn64 ((bytesToWords (([] : List Byte)) 0 16 : List Word)) 6) (tableLen ((bytesToWords (([] : List Byte)) 0 16 : List Word))) (dropFetch ((0 : Fin 4)) ((let s : State := ready; let s : State := { s with pg.descReq := [(0, 0)] }; s : State))) : State)), 1, by decide +kernel⟩,
   ⟨((0 : Fin 4)), ((0 : Word)), ((wordBytes descWords : List Byte)), (((List.range 4).flatMap fun _ => wordBytes [0x1000, 0, 836, 0] : List Byte)), ((bytesToWords ((wordBytes descWords : List Byte)) 0 16 : List Word)), ((tableOf ((bytesToWords ((wordBytes descWords : List Byte)) 0 16 : List Word)) (((List.range 4).flatMap fun _ => wordBytes [0x1000, 0, 836, 0] : List Byte)) : List Blk)), ((let s : State := paged; let s : State := { s with pg.descReq := [(0, 0)], pg.capacity := 20000, pg.pages := List.replicate 6 aPage }; s : State)), ((readHost (wn64 ((bytesToWords ((wordBytes descWords : List Byte)) 0 16 : List Word)) 6) (tableLen ((bytesToWords ((wordBytes descWords : List Byte)) 0 16 : List Word))) (dropFetch ((0 : Fin 4)) ((let s : State := paged; let s : State := { s with pg.descReq := [(0, 0)], pg.capacity := 20000, pg.pages := List.replicate 6 aPage }; s : State))) : State)), by decide +kernel⟩,
   ⟨((0 : Fin 4)), ((0 : Word)), ((wordBytes descWords : List Byte)), (((List.range 4).flatMap fun _ => wordBytes [0x1000, 0, 836, 0] : List Byte)), ((bytesToWords ((wordBytes descWords : List Byte)) 0 16 : List Word)), ((tableOf ((bytesToWords ((wordBytes descWords : List Byte)) 0 16 : List Word)) (((List.range 4).flatMap fun _ => wordBytes [0x1000, 0, 836, 0] : List Byte)) : List Blk)), ((let s : State := paged; let s : State := { s with pg.descReq := [(0, 0)], pg.pages := List.replicate 4 aPage, pg.capacity := 30000, pg.rings := s.pg.rings.map fun g => { g with inForce := false } }; s : State)), ((readHost (wn64 ((bytesToWords ((wordBytes descWords : List Byte)) 0 16 : List Word)) 6) (tableLen ((bytesToWords ((wordBytes descWords : List Byte)) 0 16 : List Word))) (dropFetch ((0 : Fin 4)) ((let s : State := paged; let s : State := { s with pg.descReq := [(0, 0)], pg.pages := List.replicate 4 aPage, pg.capacity := 30000, pg.rings := s.pg.rings.map fun g => { g with inForce := false } }; s : State))) : State)), (({ uid := ((let s : State := paged; let s : State := { s with pg.descReq := [(0, 0)], pg.pages := List.replicate 4 aPage, pg.capacity := 30000, pg.rings := s.pg.rings.map fun g => { g with inForce := false } }; s : State)).pg.nextUid, ring := ((0 : Fin 4)).val, descIdx := ((0 : Word)), desc := ((bytesToWords ((wordBytes descWords : List Byte)) 0 16 : List Word)), lines := wn ((bytesToWords ((wordBytes descWords : List Byte)) 0 16 : List Word)) 2, blocks := ((tableOf ((bytesToWords ((wordBytes descWords : List Byte)) 0 16 : List Word)) (((List.range 4).flatMap fun _ => wordBytes [0x1000, 0, 836, 0] : List Byte)) : List Blk)).map fun b => { b with fetches := 1 } } : Page)), by decide +kernel⟩,
   ⟨((0 : Fin 4)), ((0 : Word)), ((wordBytes descWords : List Byte)), (((List.range 4).flatMap fun _ => wordBytes [0x1000, 0, 836, 0] : List Byte)), ((bytesToWords ((wordBytes descWords : List Byte)) 0 16 : List Word)), ((tableOf ((bytesToWords ((wordBytes descWords : List Byte)) 0 16 : List Word)) (((List.range 4).flatMap fun _ => wordBytes [0x1000, 0, 836, 0] : List Byte)) : List Blk)), ((let s : State := paged; let s : State := { s with pg.capacity := s.pg.used + (((tableOf ((bytesToWords ((wordBytes descWords : List Byte)) 0 16 : List Word)) (((List.range 4).flatMap fun _ => wordBytes [0x1000, 0, 836, 0] : List Byte)) : List Blk)).map fun b => if b.blank then 0 else b.len).sum }; let s : State := { s with pg.descReq := [(0, 0)], pg.capacity := 1000000 }; s : State)), ((readHost (wn64 ((bytesToWords ((wordBytes descWords : List Byte)) 0 16 : List Word)) 6) (tableLen ((bytesToWords ((wordBytes descWords : List Byte)) 0 16 : List Word))) (dropFetch ((0 : Fin 4)) ((let s : State := paged; let s : State := { s with pg.capacity := s.pg.used + (((tableOf ((bytesToWords ((wordBytes descWords : List Byte)) 0 16 : List Word)) (((List.range 4).flatMap fun _ => wordBytes [0x1000, 0, 836, 0] : List Byte)) : List Blk)).map fun b => if b.blank then 0 else b.len).sum }; let s : State := { s with pg.descReq := [(0, 0)], pg.capacity := 1000000 }; s : State))) : State)), (({ uid := ((let s : State := paged; let s : State := { s with pg.capacity := s.pg.used + (((tableOf ((bytesToWords ((wordBytes descWords : List Byte)) 0 16 : List Word)) (((List.range 4).flatMap fun _ => wordBytes [0x1000, 0, 836, 0] : List Byte)) : List Blk)).map fun b => if b.blank then 0 else b.len).sum }; let s : State := { s with pg.descReq := [(0, 0)], pg.capacity := 1000000 }; s : State)).pg.nextUid, ring := ((0 : Fin 4)).val, descIdx := ((0 : Word)), desc := ((bytesToWords ((wordBytes descWords : List Byte)) 0 16 : List Word)), lines := wn ((bytesToWords ((wordBytes descWords : List Byte)) 0 16 : List Word)) 2, blocks := ((tableOf ((bytesToWords ((wordBytes descWords : List Byte)) 0 16 : List Word)) (((List.range 4).flatMap fun _ => wordBytes [0x1000, 0, 836, 0] : List Byte)) : List Blk)).map fun b => { b with fetches := 1 } } : Page)), by decide +kernel⟩,
   ⟨((0 : Fin 4)), (([] : List Byte)), (([1] : List Byte)), ((let s : State := ready; s : State)), by decide +kernel⟩,
   ⟨((0 : Fin 4)), ((0 : Word)), ((none : Option Nat)), ((let s : State := ready; let s : State := { s with pg.descReq := [(0, 0)] }; s : State)), by decide +kernel⟩,
   ⟨((0 : Fin 4)), ((0 : Nat)), ((0 : Word)), ((.descError : Ev)), ((let s : State := ready; let s : State := { s with pg.descReq := [(1, 0)] }; s : State)), (((1, 0) : Nat × Word)), by decide +kernel⟩⟩

theorem test_wit_BlocksFetched :
    (∃ (r : Fin 4) (idx : Word) (j : Nat) (bytes : List Byte) (p : Page) (b : Blk) (s : State), (blkAt r idx j s = some (p, b)) ∧ (b.blank = false) ∧ (b.st = .wanted) ∧ (s.host.busMaster = true) ∧ ((checkBlock b.idx (j % p.modules) p.format b.len bytes).isSome = true)) ∧
    (∃ (r : Fin 4) (idx : Word) (j : Nat) (bytes : List Byte) (p : Page) (b : Blk) (s : State), (blkAt r idx j s = some (p, b)) ∧ (b.blank = false) ∧ (b.st = .wanted) ∧ (s.host.busMaster = true) ∧ (checkBlock b.idx (j % p.modules) p.format b.len bytes = none)) ∧
    (∃ (r : Fin 4) (idx : Word) (j : Nat) (bytes : List Byte) (s : State), (s.host.busMaster = false)) ∧
    (∃ (p : Page) (j : Nat) (b : Blk) (s : State), (b.fetches < 3)) ∧
    (∃ (p : Page) (j : Nat) (b : Blk) (s : State), (3 ≤ b.fetches)) ∧
    (∃ (u : Nat) (j : Nat) (p : Page) (b : Blk) (s : State), (printBlk u j s = some (p, b)) ∧ (b.dec = .decoding) ∧ ((checkBlock b.idx (j % p.modules) p.format b.len b.data).isSome = true) ∧ (b.poison = false)) ∧
    (∃ (u : Nat) (j : Nat) (p : Page) (b : Blk) (s : State) (poisoned : Bool), (printBlk u j s = some (p, b)) ∧ (b.dec = .decoding) ∧ (poisoned = true ∨ b.poison = true ∨ checkBlock b.idx (j % p.modules) p.format b.len b.data = none) ∧ (p.earlyFree = true ∨ s.host.busMaster = false)) ∧
    (∃ (u : Nat) (j : Nat) (p : Page) (b : Blk) (s : State) (poisoned : Bool), (printBlk u j s = some (p, b)) ∧ (b.dec = .decoding) ∧ (poisoned = true ∨ b.poison = true ∨ checkBlock b.idx (j % p.modules) p.format b.len b.data = none) ∧ (p.earlyFree = false) ∧ (s.host.busMaster = true)) ∧
    (∃ (u : Nat) (j : Nat) (bytes : List Byte) (p : Page) (b : Blk) (s : State), (printBlk u j s = some (p, b)) ∧ (b.dec = .refetching) ∧ ((checkBlock b.idx (j % p.modules) p.format b.len bytes).isSome = true)) ∧
    (∃ (u : Nat) (j : Nat) (bytes : List Byte) (p : Page) (b : Blk) (s : State), (printBlk u j s = some (p, b)) ∧ (b.dec = .refetching) ∧ (checkBlock b.idx (j % p.modules) p.format b.len bytes = none)) ∧
    (∃ (u : Nat) (j : Nat) (bytes : List Byte) (p : Page) (b : Blk) (s : State) (r : Fin 4) (idx : Word), (printBlk u j s = some (p, b)) ∧ (b.dec = .refetching)) :=
  ⟨⟨((0 : Fin 4)), ((0 : Word)), ((0 : Nat)), ((blkBytes : List Byte)), ((aPage : Page)), ((aBlk : Blk)), ((let s : State := paged; let s : State := { s with host.busMaster := true }; s : State)), by decide +kernel⟩,
   ⟨((0 : Fin 4)), ((0 : Word)), ((0 : Nat)), (([] : List Byte)), ((aPage : Page)), ((aBlk : Blk)), ((let s : State := paged; let s : State := { s with host.busMaster := true }; s : State)), by decide +kernel⟩,
   ⟨((0 : Fin 4)), ((0 : Word)), ((0 : Nat)), (([] : List Byte)), ((let s : State := ready; let s : State := { s with host.busMaster := false }; s : State)), by decide +kernel⟩,
   ⟨((aPage : Page)), ((0 : Nat)), ((aBlk : Blk)), ((let s : State := paged; s : State)), by decide +kernel⟩,
   ⟨((aPage : Page)), ((0 : Nat)), (({ aBlk with fetches := 3 } : Blk)), ((let s : State := paged; s : State)), by decide +kernel⟩,
   ⟨((3 : Nat)), ((0 : Nat)), (({ aPage with blocks := [{ aBlk with dec := .decoding, data := blkBytes }] } : Page)), (({ aBlk with dec := .decoding, data := blkBytes } : Blk)), ((let s : State := paged; let s : State := { s with pg.pages := [(({ aPage with blocks := [{ aBlk with dec := .decoding, data := blkBytes }] } : Page))] }; s : State)), by decide +kernel⟩,
   ⟨((3 : Nat)), ((0 : Nat)), (({ aPage with blocks := [{ aBlk with dec := .decoding, data := blkBytes }] } : Page)), (({ aBlk with dec := .decoding, data := blkBytes } : Blk)), ((let s : State := paged; let s : State := { s with pg.pages := [(({ aPage with blocks := [{ aBlk with dec := .decoding, data := blkBytes }] } : Page))], host.busMaster := false }; s : State)), ((true : Bool)), by decide +kernel⟩,
   ⟨((3 : Nat)), ((0 : Nat)), (({ aPage with blocks := [{ aBlk with dec := .decoding }] } : Page)), (({ aBlk with dec := .decoding } : Blk)), ((let s : State := paged; let s : State := { s with host.busMaster := true }; let s : State := { s with pg.pages := [(({ aPage with blocks := [{ aBlk with dec := .decoding }] } : Page))] }; s : State)), ((false : Bool)), by decide +kernel⟩,
   ⟨((3 : Nat)), ((0 : Nat)), ((blkBytes : List Byte)), (({ aPage with blocks := [{ aBlk with dec := .refetching }] } : Page)), (({ aBlk with dec := .refetching } : Blk)), ((let s : State := paged; let s : State := { s with pg.pages := [(({ aPage with blocks := [{ aBlk with dec := .refetching }] } : Page))] }; s : State)), by decide +kernel⟩,
   ⟨((3 : Nat)), ((0 : Nat)), (([] : List Byte)), (({ aPage with blocks := [{ aBlk with dec := .refetching }] } : Page)), (({ aBlk with dec := .refetching } : Blk)), ((let s : State := paged; let s : State := { s with pg.pages := [(({ aPage with blocks := [{ aBlk with dec := .refetching }] } : Page))] }; s : State)), by decide +kernel⟩,
   ⟨((3 : Nat)), ((0 : Nat)), (([] : List Byte)), (({ aPage with blocks := [{ aBlk with dec := .refetching }] } : Page)), (({ aBlk with dec := .refetching } : Blk)), ((let s : State := paged; let s : State := { s with pg.pages := [(({ aPage with blocks := [{ aBlk with dec := .refetching }] } : Page))] }; s : State)), ((0 : Fin 4)), ((0 : Word)), by decide +kernel⟩⟩

theorem test_wit_StoredBlockDecodes :
    (∃ (idx : Word) (module : Nat) (fmt : Nat) (lines : Nat) (lb : Nat) (data : List Byte), (module < 16) ∧ (lineBytes fmt = some lb) ∧ (1 ≤ lines) ∧ (lines ≤ maxBandLines fmt) ∧ (data.length = lines * lb)) :=
  ⟨((77 : Word)), ((15 : Nat)), ((8 : Nat)), ((64 : Nat)), ((816 : Nat)), (((List.range (64 * 816)).map fun i => BitVec.ofNat 8 i : List Byte)), by decide +kernel⟩

theorem test_wit_TokensDecode :
    (∃ (lb : Nat) (n : Nat) (out : List Byte) (data : List Byte) (rest : List Byte), (n < 64) ∧ (data.length = n + 1)) ∧
    (∃ (lb : Nat) (n : Nat) (v : Byte) (out : List Byte) (rest : List Byte), (n < 64)) ∧
    (∃ (lb : Nat) (n : Nat) (out : List Byte) (rest : List Byte), (n < 64)) ∧
    (∃ (lb : Nat) (n : Nat) (v : Byte) (out : List Byte) (rest : List Byte), (n < 32)) ∧
    (∃ (lb : Nat) (n : Nat) (out : List Byte) (rest : List Byte), (n < 32)) ∧
    (∃ (lb : Nat) (n : Nat) (i : Nat) (out : List Byte), (0 < lb) ∧ (i < out.length + n)) ∧
    (∃ (lb : Nat) (chunks : List (List Byte)) (fuel : _), (∀ c ∈ chunks, 1 ≤ c.length ∧ c.length ≤ 64) ∧ (chunks.length ≤ fuel)) :=
  ⟨⟨((0 : Nat)), ((1 : Nat)), (([9] : List Byte)), (([3, 4] : List Byte)), (([7] : List Byte)), by decide +kernel⟩,
   ⟨((0 : Nat)), ((63 : Nat)), ((4 : Byte)), (([9] : List Byte)), (([7] : List Byte)), by decide +kernel⟩,
   ⟨((5 : Nat)), ((63 : Nat)), (([9, 8, 7] : List Byte)), (([7] : List Byte)), by decide +kernel⟩,
   ⟨((0 : Nat)), ((31 : Nat)), ((4 : Byte)), (([9] : List Byte)), (([7] : List Byte)), by decide +kernel⟩,
   ⟨((5 : Nat)), ((31 : Nat)), (([9, 8, 7, 6, 5, 4] : List Byte)), (([7] : List Byte)), by decide +kernel⟩,
   ⟨((3 : Nat)), ((8 : Nat)), ((7 : Nat)), (([9, 8, 7, 6, 5] : List Byte)), by decide +kernel⟩,
   ⟨((816 : Nat)), (([[1, 2], [3], List.replicate 64 9] : List (List Byte))), 5, by decide +kernel⟩⟩

theorem test_wit_PageCommands :
    (∃ (k : _) (c : _) (s : _) (r : _), Rung 0x0300 7 k c s ∧ (r = fld (c.w 0) 0 2) ∧ (c.w 0 &&& ~~~ 0x103 = 0) ∧ ((c.w 1).toNat % 4096 = 0) ∧ ((c.w 4).toNat % 4096 = 0) ∧ (4 ≤ (c.w 3).toNat) ∧ ((c.w 3).toNat ≤ 12) ∧ ((c.w 6).toNat < 256) ∧ ((s.pg.ring r).inForce = false) ∧ ((s.pg.ring r).fetch = (s.pg.ring r).done) ∧ (s.pg.rings.length = 4)) ∧
    (∃ (k : _) (c : _) (s : _), Rung 0x0301 1 k c s ∧ ((c.w 0).toNat < 4) ∧ (pageInProgress (c.w 0).toNat s = false) ∧ (s.pg.rings.length = 4)) ∧
    (∃ (k : _) (c : _) (s : _) (p : Page), Rung 0x0302 3 k c s ∧ ((c.w 0).toNat < 4) ∧ (retainedPage (c.w 0).toNat (c.w 1) (c.w 2) s = some p)) ∧
    (∃ (k : _) (c : _) (s : _), Rung 0x0302 3 k c s ∧ ((c.w 0).toNat < 4) ∧ (retainedPage (c.w 0).toNat (c.w 1) (c.w 2) s = none)) ∧
    (∃ (k : _) (c : _) (s : _) (p : Page), Rung 0x0303 3 k c s ∧ ((c.w 0).toNat < 4) ∧ (s.pg.pages.find? (fun p => p.retained && p.ring == (c.w 0).toNat && p.number == c.w 1 && p.epoch == s.cg.epochNow) = some p) ∧ (∃ q ∈ s.pg.pages, q.ring = (c.w 0).toNat ∧ q.number = c.w 2 ∧ q.reprint = false ∧ q.started = false ∧ q.recorded = false) ∧ (s.pg.used + p.size ≤ s.pg.capacity)) ∧
    (∃ (k : _) (c : _) (s : _), Rung 0x0304 0 k c s) :=
  ⟨⟨((0 : Fin 16)), ((mkCmd 0x0300 [0, 0, 0, 4, 0, 0, 0] : RungCmd)), ((let s : State := (ring ((mkCmd 0x0300 [0, 0, 0, 4, 0, 0, 0] : RungCmd)) ready); let s : State := setRing 0 (fun zz => { zz with inForce := false }) s; let s : State := setRing 0 (fun zz => { zz with fetch := (s.pg.ring 0).done }) s; s : State)), 0, rung_ok (by decide +kernel), by decide +kernel⟩,
   ⟨((0 : Fin 16)), ((mkCmd 0x0301 [0] : RungCmd)), ((let s : State := (ring ((mkCmd 0x0301 [0] : RungCmd)) ready); s : State)), rung_ok (by decide +kernel), by decide +kernel⟩,
   ⟨((0 : Fin 16)), ((mkCmd 0x0302 [0, 9, 0] : RungCmd)), ((let s : State := (ring ((mkCmd 0x0302 [0, 9, 0] : RungCmd)) ready); let s : State := { s with pg.pages := [(({ aPage with retained := true } : Page))], host.busMaster := true }; s : State)), (({ aPage with retained := true } : Page)), rung_ok (by decide +kernel), by decide +kernel⟩,
   ⟨((0 : Fin 16)), ((mkCmd 0x0302 [0, 0, 0] : RungCmd)), ((let s : State := (ring ((mkCmd 0x0302 [0, 0, 0] : RungCmd)) ready); s : State)), rung_ok (by decide +kernel), by decide +kernel⟩,
   ⟨((0 : Fin 16)), ((mkCmd 0x0303 [0, 9, 9] : RungCmd)), ((let s : State := (ring ((mkCmd 0x0303 [0, 9, 9] : RungCmd)) ready); let s : State := { s with pg.capacity := s.pg.used + (({ aPage with retained := true } : Page)).size }; let s : State := { s with pg.pages := [(({ aPage with retained := true } : Page)), { aPage with uid := 4 }], pg.capacity := 100000 }; s : State)), (({ aPage with retained := true } : Page)), rung_ok (by decide +kernel), by decide +kernel⟩,
   ⟨((0 : Fin 16)), ((mkCmd 0x0304 [] : RungCmd)), ((let s : State := (ring ((mkCmd 0x0304 [] : RungCmd)) ready); s : State)), rung_ok (by decide +kernel)⟩⟩

theorem test_wit_ContextWrites :
    (∃ (k : Fin 4) (s : State) (v : Word), ((s.pg.ctx k).busy = none) ∧ ((s.pg.ctx k).disabled = false)) ∧
    (∃ (k : Fin 4) (s : State) (lo : Word) (up : Word), ((s.pg.ctx k).busy = none) ∧ ((s.pg.ctx k).disabled = false) ∧ (find? s.host.woLow (cvOffset k 0x48) = some lo)) ∧
    (∃ (k : Fin 4) (s : State) (v : Word), ((s.pg.ctx k).busy = none) ∧ ((s.pg.ctx k).disabled = true)) ∧
    (∃ (k : Fin 4) (s : State) (v : Word), ((s.pg.ctx k).busy.isSome = true)) ∧
    (∃ (k : _) (c : _) (s : _), Rung 0x0305 4 k c s ∧ ((c.w 0).toNat < 4) ∧ ((s.pg.ctx (c.w 0).toNat).disabled = false) ∧ ((s.pg.ctx (c.w 0).toNat).busy = none) ∧ (c.w 3 ≠ 0) ∧ (s.host.outst.length < 16)) ∧
    (∃ (k : Fin 4) (bytes : List Byte) (tag : Word) (a : Dword) (n : Word) (u : CvCtx) (s : State), ((s.pg.ctx k).busy = some (tag, a, n)) ∧ (u = { (s.pg.ctx k).feed bytes with busy := none, stopped := false }) ∧ ((s.pg.ctx k).stopped = false) ∧ (bytes.length = n.toNat)) ∧
    (∃ (k : Fin 4) (bytes : List Byte) (tag : Word) (a : Dword) (n : Word) (u : CvCtx) (s : State), ((s.pg.ctx k).busy = some (tag, a, n)) ∧ (u = { (s.pg.ctx k).feed bytes with busy := none, stopped := false }) ∧ ((s.pg.ctx k).stopped = true) ∧ (bytes.length ≤ n.toNat)) :=
  ⟨⟨((0 : Fin 4)), ((let s : State := ready; s : State)), ((0x01020304 : Word)), by decide +kernel⟩,
   ⟨((0 : Fin 4)), ((let s : State := ready; let s : State := { s with host.woLow := [(cvOffset 0 0x48, 5)] }; s : State)), ((5 : Word)), ((6 : Word)), by decide +kernel⟩,
   ⟨((0 : Fin 4)), ((let s : State := ready; let s : State := setCtx ((0 : Fin 4)) (fun zz => { zz with width := 0 }) s; s : State)), ((0 : Word)), by decide +kernel⟩,
   ⟨((0 : Fin 4)), ((let s : State := ready; let s : State := setCtx ((0 : Fin 4)) (fun zz => { zz with busy := some default }) s; s : State)), ((0 : Word)), by decide +kernel⟩,
   ⟨((0 : Fin 16)), ((mkCmd 0x0305 [0, 0, 0, 1] : RungCmd)), ((let s : State := (ring ((mkCmd 0x0305 [0, 0, 0, 1] : RungCmd)) ready); s : State)), rung_ok (by decide +kernel), by decide +kernel⟩,
   ⟨((0 : Fin 4)), (([] : List Byte)), ((0 : Word)), ((0 : Dword)), ((0 : Word)), (({ (((let s : State := ready; let s : State := setCtx ((0 : Fin 4)) (fun zz => { zz with busy := some (((0 : Word)), ((0 : Dword)), ((0 : Word))) }) s; let s : State := setCtx ((0 : Fin 4)) (fun zz => { zz with stopped := false }) s; s : State)).pg.ctx ((0 : Fin 4))).feed (([] : List Byte)) with busy := none, stopped := false } : CvCtx)), ((let s : State := ready; let s : State := setCtx ((0 : Fin 4)) (fun zz => { zz with busy := some (((0 : Word)), ((0 : Dword)), ((0 : Word))) }) s; let s : State := setCtx ((0 : Fin 4)) (fun zz => { zz with stopped := false }) s; s : State)), by decide +kernel⟩,
   ⟨((0 : Fin 4)), (([] : List Byte)), ((0 : Word)), ((0 : Dword)), ((0 : Word)), (({ (((let s : State := ready; let s : State := setCtx ((0 : Fin 4)) (fun zz => { zz with busy := some (((0 : Word)), ((0 : Dword)), ((0 : Word))) }) s; let s : State := setCtx ((0 : Fin 4)) (fun zz => { zz with stopped := true }) s; s : State)).pg.ctx ((0 : Fin 4))).feed (([] : List Byte)) with busy := none, stopped := false } : CvCtx)), ((let s : State := ready; let s : State := setCtx ((0 : Fin 4)) (fun zz => { zz with busy := some (((0 : Word)), ((0 : Dword)), ((0 : Word))) }) s; let s : State := setCtx ((0 : Fin 4)) (fun zz => { zz with stopped := true }) s; s : State)), by decide +kernel⟩⟩

theorem test_wit_ContextsCompute :
    (∃ (c : CvCtx) (a : List Byte) (b : List Byte), (c.width ≤ 64)) ∧
    (∃ (c : CvCtx), (c.disabled = true)) :=
  ⟨⟨(({ width := 16, tagBytes := 3, tag := 77 } : CvCtx)), (([1,2,3] : List Byte)), (([4,5] : List Byte)), by decide +kernel⟩,
   ⟨(({ width := 70 } : CvCtx)), by decide +kernel⟩⟩

theorem test_wit_GroupStaging :
    (∃ (k : _) (c : _) (s : _) (g : _), Rung 0x0200 0 k c s ∧ (s.host.opState ≠ .boot) ∧ (s.cg.groups.length = 4) ∧ (g < 4) ∧ ((s.cg.group g).st = .empty) ∧ (∀ j, j < g → (s.cg.group j).st ≠ .empty)) ∧
    (∃ (k : _) (c : _) (s : _), Rung 0x0200 0 k c s ∧ (s.host.opState ≠ .boot) ∧ (∀ j, j < 4 → (s.cg.group j).st ≠ .empty)) ∧
    (∃ (k : _) (c : _) (s : _) (g : _), Rung 0x0201 7 k c s ∧ ((c.w 0).toNat = g) ∧ (g < 4) ∧ (c.w 1 = (s.cg.group g).handle) ∧ ((s.cg.group g).running = false) ∧ ((s.cg.group g).st = .opened ∨ (s.cg.group g).st = .valid ∨ (s.cg.group g).st = .aborted) ∧ (1 ≤ (c.w 2).toNat % 256) ∧ ((c.w 2).toNat % 256 ≤ 13) ∧ ((c.w 2).toNat < 65536) ∧ ((c.w 3).toNat % 8 = 0) ∧ (s.host.outst.length < 16) ∧ (s.cg.groups.length = 4)) ∧
    (∃ (g : Fin 4) (j : StageJob) (bytes : List Byte) (objs : List Obj) (u : Group) (s : State), ((s.cg.group g).stage = some j) ∧ (s.cg.groups.length = 4) ∧ (objs = insertObj { kind := j.kind, target := j.target, bytes := bytes } (s.cg.group g).objs) ∧ (u = { s.cg.group g with stage := none, objs := objs, bad := (s.cg.group g).bad.filter (· != (j.kind, j.target)), st := .opened, digest := 0 }) ∧ (bytes.length = j.len) ∧ (crc32 bytes = j.crc.toNat) ∧ (objs.length ≤ 128) ∧ (stagedTotal (setGroup g (fun _ => u) s) ≤ 67108864)) ∧
    (∃ (g : Fin 4) (j : StageJob) (bytes : List Byte) (objs : List Obj) (u : Group) (s : State), ((s.cg.group g).stage = some j) ∧ (s.cg.groups.length = 4) ∧ (objs = insertObj { kind := j.kind, target := j.target, bytes := bytes } (s.cg.group g).objs) ∧ (u = { s.cg.group g with stage := none, objs := objs, bad := (s.cg.group g).bad.filter (· != (j.kind, j.target)), st := .opened, digest := 0 }) ∧ (bytes.length = j.len) ∧ (crc32 bytes ≠ j.crc.toNat)) ∧
    (∃ (k : _) (c : _) (s : _) (g : _), Rung 0x0205 2 k c s ∧ ((c.w 0).toNat = g) ∧ (g < 4) ∧ (c.w 1 = (s.cg.group g).handle) ∧ ((s.cg.group g).running = false) ∧ ((s.cg.group g).st = .opened ∨ (s.cg.group g).st = .valid ∨ (s.cg.group g).st = .committed ∨ (s.cg.group g).st = .aborted)) :=
  ⟨⟨((0 : Fin 16)), ((mkCmd 0x0200 [] : RungCmd)), ((let s : State := (ring ((mkCmd 0x0200 [] : RungCmd)) ready); let s : State := setGroup ((0 : Nat)) (fun zz => { zz with st := .empty }) s; s : State)), ((0 : Nat)), rung_ok (by decide +kernel), by decide +kernel⟩,
   ⟨((0 : Fin 16)), ((mkCmd 0x0200 [] : RungCmd)), ((let s : State := (ring ((mkCmd 0x0200 [] : RungCmd)) ready); let s : State := { s with cg.groups := s.cg.groups.map fun x => { x with st := .opened } }; s : State)), rung_ok (by decide +kernel), by decide +kernel⟩,
   ⟨((0 : Fin 16)), ((mkCmd 0x0201 [(BitVec.ofNat 32 (((0 : Nat)))), 0, 6, 0, 0, 0, 0] : RungCmd)), ((let s : State := (ring ((mkCmd 0x0201 [(BitVec.ofNat 32 (((0 : Nat)))), 0, 6, 0, 0, 0, 0] : RungCmd)) ready); let s : State := setGroup ((0 : Nat)) (fun zz => { zz with st := .opened }) s; s : State)), ((0 : Nat)), rung_ok (by decide +kernel), by decide +kernel⟩,
   ⟨((0 : Fin 4)), ((jobG : StageJob)), ((zeros 64 : List Byte)), ((insertObj { kind := ((jobG : StageJob)).kind, target := ((jobG : StageJob)).target, bytes := ((zeros 64 : List Byte)) } (((let s : State := ready; let s : State := setGroup ((0 : Fin 4)) (fun zz => { zz with stage := some ((jobG : StageJob)) }) s; s : State)).cg.group ((0 : Fin 4))).objs : List Obj)), (({ ((let s : State := ready; let s : State := setGroup ((0 : Fin 4)) (fun zz => { zz with stage := some ((jobG : StageJob)) }) s; s : State)).cg.group ((0 : Fin 4)) with stage := none, objs := ((insertObj { kind := ((jobG : StageJob)).kind, target := ((jobG : StageJob)).target, bytes := ((zeros 64 : List Byte)) } (((let s : State := ready; let s : State := setGroup ((0 : Fin 4)) (fun zz => { zz with stage := some ((jobG : StageJob)) }) s; s : State)).cg.group ((0 : Fin 4))).objs : List Obj)), bad := (((let s : State := ready; let s : State := setGroup ((0 : Fin 4)) (fun zz => { zz with stage := some ((jobG : StageJob)) }) s; s : State)).cg.group ((0 : Fin 4))).bad.filter (· != (((jobG : StageJob)).kind, ((jobG : StageJob)).target)), st := .opened, digest := 0 } : Group)), ((let s : State := ready; let s : State := setGroup ((0 : Fin 4)) (fun zz => { zz with stage := some ((jobG : StageJob)) }) s; s : State)), by decide +kernel⟩,
   ⟨((0 : Fin 4)), ((jobG : StageJob)), ((1 :: zeros 63 : List Byte)), ((insertObj { kind := ((jobG : StageJob)).kind, target := ((jobG : StageJob)).target, bytes := ((1 :: zeros 63 : List Byte)) } (((let s : State := ready; let s : State := setGroup ((0 : Fin 4)) (fun zz => { zz with stage := some ((jobG : StageJob)) }) s; s : State)).cg.group ((0 : Fin 4))).objs : List Obj)), (({ ((let s : State := ready; let s : State := setGroup ((0 : Fin 4)) (fun zz => { zz with stage := some ((jobG : StageJob)) }) s; s : State)).cg.group ((0 : Fin 4)) with stage := none, objs := ((insertObj { kind := ((jobG : StageJob)).kind, target := ((jobG : StageJob)).target, bytes := ((1 :: zeros 63 : List Byte)) } (((let s : State := ready; let s : State := setGroup ((0 : Fin 4)) (fun zz => { zz with stage := some ((jobG : StageJob)) }) s; s : State)).cg.group ((0 : Fin 4))).objs : List Obj)), bad := (((let s : State := ready; let s : State := setGroup ((0 : Fin 4)) (fun zz => { zz with stage := some ((jobG : StageJob)) }) s; s : State)).cg.group ((0 : Fin 4))).bad.filter (· != (((jobG : StageJob)).kind, ((jobG : StageJob)).target)), st := .opened, digest := 0 } : Group)), ((let s : State := ready; let s : State := setGroup ((0 : Fin 4)) (fun zz => { zz with stage := some ((jobG : StageJob)) }) s; s : State)), by decide +kernel⟩,
   ⟨((0 : Fin 16)), ((mkCmd 0x0205 [(BitVec.ofNat 32 (((0 : Nat)))), 0] : RungCmd)), ((let s : State := (ring ((mkCmd 0x0205 [(BitVec.ofNat 32 (((0 : Nat)))), 0] : RungCmd)) ready); let s : State := setGroup ((0 : Nat)) (fun zz => { zz with st := .opened }) s; s : State)), ((0 : Nat)), rung_ok (by decide +kernel), by decide +kernel⟩⟩

theorem test_wit_GroupValidation :
    (∃ (k : _) (c : _) (s : _) (g : _), Rung 0x0202 2 k c s ∧ ((c.w 0).toNat = g) ∧ (g < 4) ∧ (c.w 1 = (s.cg.group g).handle) ∧ ((s.cg.group g).running = false) ∧ ((s.cg.group g).st = .opened) ∧ (s.host.outst.length < 16)) ∧
    (∃ (g : Fin 4) (tag : Word) (s : State), ((s.cg.group g).validTag = some tag) ∧ (s.cg.groups.length = 4) ∧ (checkGroup (s.cg.group g).ownerCal (s.cg.group g).objs s.cg.inForce s = none)) ∧
    (∃ (g : Fin 4) (tag : Word) (s : State) (r : Nat) (i : Nat) (sub : Nat), ((s.cg.group g).validTag = some tag) ∧ (s.cg.groups.length = 4) ∧ (checkGroup (s.cg.group g).ownerCal (s.cg.group g).objs s.cg.inForce s = some (r, i, sub))) ∧
    (∃ (own : Bool) (objs : List Obj) (base : List Obj) (s : State) (r : Nat) (i : Nat) (sub : Nat) (j : Nat) (o : Obj), (checkGroup own objs base s = some (r, i, sub)) ∧ (objs ≠ []) ∧ (j < i) ∧ (objs[j]? = some o)) :=
  ⟨⟨((0 : Fin 16)), ((mkCmd 0x0202 [(BitVec.ofNat 32 (((0 : Nat)))), 0] : RungCmd)), ((let s : State := (ring ((mkCmd 0x0202 [(BitVec.ofNat 32 (((0 : Nat)))), 0] : RungCmd)) ready); let s : State := setGroup ((0 : Nat)) (fun zz => { zz with st := .opened }) s; s : State)), ((0 : Nat)), rung_ok (by decide +kernel), by decide +kernel⟩,
   ⟨((0 : Fin 4)), ((0 : Word)), ((let s : State := barred; let s : State := setGroup ((0 : Fin 4)) (fun zz => { zz with validTag := some ((0 : Word)) }) s; let s : State := setGroup 0 (fun zz => { zz with objs := [polObj], st := .opened }) s; s : State)), by decide +kernel⟩,
   ⟨((0 : Fin 4)), ((0 : Word)), ((let s : State := barred; let s : State := setGroup ((0 : Fin 4)) (fun zz => { zz with validTag := some ((0 : Word)) }) s; let s : State := setGroup 0 (fun zz => { zz with objs := [{ kind := 6, bytes := 1 :: 255 :: 4 :: zeros 61 }], st := .opened }) s; s : State)), ((7 : Nat)), ((0 : Nat)), ((0x0601 : Nat)), by decide +kernel⟩,
   ⟨((false : Bool)), (([polObj, { kind := 7, bytes := [] }] : List Obj)), (([barObj] : List Obj)), ((let s : State := ready; s : State)), ((1 : Nat)), ((1 : Nat)), ((0 : Nat)), ((0 : Nat)), ((polObj : Obj)), by decide +kernel⟩⟩

theorem test_wit_GroupArming :
    (∃ (k : _) (c : _) (s : _) (g : Nat), Rung 0x0203 6 k c s ∧ (fld (c.w 0) 0 2 = g) ∧ (c.w 0 &&& ~~~ 0x333 = 0) ∧ (c.w 1 = (s.cg.group g).handle) ∧ ((s.cg.group g).running = false) ∧ ((s.cg.group g).st = .valid ∨ (s.cg.group g).st = .aborted) ∧ (s.host.outst.length < 16) ∧ (s.cg.groups.length = 4) ∧ ((s.cg.group g).ownerCal = false) ∧ (fld (c.w 0) 4 2 = 0) ∧ (c.w 2 = s.cg.epochNow) ∧ (lineIndex s + 65 ≤ (c.w 3).toNat) ∧ (topLine s < (c.w 3).toNat) ∧ (overlaps g (absOf (c.w 3) s) s = false)) ∧
    (∃ (k : _) (c : _) (s : _) (g : Nat), Rung 0x0203 6 k c s ∧ (fld (c.w 0) 0 2 = g) ∧ (c.w 0 &&& ~~~ 0x333 = 0) ∧ (c.w 1 = (s.cg.group g).handle) ∧ ((s.cg.group g).running = false) ∧ ((s.cg.group g).st = .valid ∨ (s.cg.group g).st = .aborted) ∧ (s.host.outst.length < 16) ∧ (s.cg.groups.length = 4) ∧ ((s.cg.group g).ownerCal = false) ∧ (fld (c.w 0) 4 2 = 0) ∧ (c.w 2 ≠ s.cg.epochNow)) ∧
    (∃ (k : _) (c : _) (s : _) (g : Nat), Rung 0x0203 6 k c s ∧ (fld (c.w 0) 0 2 = g) ∧ (c.w 0 &&& ~~~ 0x333 = 0) ∧ (c.w 1 = (s.cg.group g).handle) ∧ ((s.cg.group g).running = false) ∧ ((s.cg.group g).st = .valid ∨ (s.cg.group g).st = .aborted) ∧ (s.host.outst.length < 16) ∧ (s.cg.groups.length = 4) ∧ ((s.cg.group g).ownerCal = false) ∧ (fld (c.w 0) 4 2 = 0) ∧ (c.w 2 = s.cg.epochNow) ∧ ((c.w 3).toNat < lineIndex s + 65 ∨ (c.w 3).toNat ≤ topLine s)) ∧
    (∃ (k : _) (c : _) (s : _) (g : Nat), Rung 0x0203 6 k c s ∧ (fld (c.w 0) 0 2 = g) ∧ (c.w 0 &&& ~~~ 0x333 = 0) ∧ (c.w 1 = (s.cg.group g).handle) ∧ ((s.cg.group g).running = false) ∧ ((s.cg.group g).st = .valid ∨ (s.cg.group g).st = .aborted) ∧ (s.host.outst.length < 16) ∧ (s.cg.groups.length = 4) ∧ ((s.cg.group g).ownerCal = false) ∧ (fld (c.w 0) 4 2 = 1) ∧ (s.pos.tState.valid = true) ∧ (s.pos.netNow ≤ wn64 c.payload 4)) ∧
    (∃ (k : _) (c : _) (s : _) (g : Nat), Rung 0x0203 6 k c s ∧ (fld (c.w 0) 0 2 = g) ∧ (c.w 0 &&& ~~~ 0x333 = 0) ∧ (c.w 1 = (s.cg.group g).handle) ∧ ((s.cg.group g).running = false) ∧ ((s.cg.group g).st = .valid ∨ (s.cg.group g).st = .aborted) ∧ (s.host.outst.length < 16) ∧ (s.cg.groups.length = 4) ∧ ((s.cg.group g).ownerCal = false) ∧ (fld (c.w 0) 4 2 = 2) ∧ (s.cg.webStopped = false) ∧ (overlaps g (s.pos.absHigh + max 1 (65 - linesBack s)) s = false)) ∧
    (∃ (k : _) (c : _) (s : _) (g : _), Rung 0x0204 2 k c s ∧ ((c.w 0).toNat = g) ∧ (g < 4) ∧ (c.w 1 = (s.cg.group g).handle) ∧ ((s.cg.group g).running = false) ∧ ((s.cg.group g).st = .armed)) ∧
    (∃ (k : _) (c : _) (s : _) (g : _), Rung 0x0204 2 k c s ∧ ((c.w 0).toNat = g) ∧ (g < 4) ∧ (c.w 1 = (s.cg.group g).handle) ∧ ((s.cg.group g).running = false) ∧ ((s.cg.group g).st = .locked ∨ (s.cg.group g).st = .committed)) ∧
    (∃ (g : Nat) (cause : Nat) (s : State) (j : Nat), ((s.cg.group g).st = .armed) ∧ (g < 4) ∧ (s.cg.groups.length = 4) ∧ ((s.cg.group g).ownerCal = false) ∧ (j ≠ g)) ∧
    (∃ (g : Nat) (cause : Nat) (s : State), ((s.cg.group g).st ≠ .armed)) :=
  ⟨⟨((0 : Fin 16)), ((mkCmd 0x0203 [(0 + 0), 0, 0, 100, 0, 0] : RungCmd)), ((let s : State := (ring ((mkCmd 0x0203 [(0 + 0), 0, 0, 100, 0, 0] : RungCmd)) barred); let s : State := setGroup ((0 : Nat)) (fun zz => { zz with st := .valid }) s; let s : State := setGroup ((0 : Nat)) (fun zz => { zz with ownerCal := false }) s; s : State)), ((0 : Nat)), rung_ok (by decide +kernel), by decide +kernel⟩,
   ⟨((0 : Fin 16)), ((mkCmd 0x0203 [(0 + 0), 0, 1, 0, 0, 0] : RungCmd)), ((let s : State := (ring ((mkCmd 0x0203 [(0 + 0), 0, 1, 0, 0, 0] : RungCmd)) barred); let s : State := setGroup ((0 : Nat)) (fun zz => { zz with st := .valid }) s; s : State)), ((0 : Nat)), rung_ok (by decide +kernel), by decide +kernel⟩,
   ⟨((0 : Fin 16)), ((mkCmd 0x0203 [(0 + 0), 0, 0, 0, 0, 0] : RungCmd)), ((let s : State := (ring ((mkCmd 0x0203 [(0 + 0), 0, 0, 0, 0, 0] : RungCmd)) ready); let s : State := setGroup ((0 : Nat)) (fun zz => { zz with st := .valid }) s; let s : State := setGroup ((0 : Nat)) (fun zz => { zz with ownerCal := false }) s; s : State)), ((0 : Nat)), rung_ok (by decide +kernel), by decide +kernel⟩,
   ⟨((0 : Fin 16)), ((mkCmd 0x0203 [(0 + 16), 0, 0, 0, 0, 0] : RungCmd)), ((let s : State := (ring ((mkCmd 0x0203 [(0 + 16), 0, 0, 0, 0, 0] : RungCmd)) barred); let s : State := setGroup ((0 : Nat)) (fun zz => { zz with st := .valid }) s; let s : State := setGroup ((0 : Nat)) (fun zz => { zz with ownerCal := false }) s; let s : State := { s with pos.tState := .locked }; s : State)), ((0 : Nat)), rung_ok (by decide +kernel), by decide +kernel⟩,
   ⟨((0 : Fin 16)), ((mkCmd 0x0203 [(0 + 32), 0, 0, 0, 0, 0] : RungCmd)), ((let s : State := (ring ((mkCmd 0x0203 [(0 + 32), 0, 0, 0, 0, 0] : RungCmd)) ready); let s : State := setGroup ((0 : Nat)) (fun zz => { zz with st := .valid }) s; let s : State := setGroup ((0 : Nat)) (fun zz => { zz with ownerCal := false }) s; let s : State := { s with cg.webStopped := false }; s : State)), ((0 : Nat)), rung_ok (by decide +kernel), by decide +kernel⟩,
   ⟨((0 : Fin 16)), ((mkCmd 0x0204 [(BitVec.ofNat 32 (((0 : Nat)))), 0] : RungCmd)), ((let s : State := (ring ((mkCmd 0x0204 [(BitVec.ofNat 32 (((0 : Nat)))), 0] : RungCmd)) ready); let s : State := setGroup ((0 : Nat)) (fun zz => { zz with st := .armed }) s; s : State)), ((0 : Nat)), rung_ok (by decide +kernel), by decide +kernel⟩,
   ⟨((0 : Fin 16)), ((mkCmd 0x0204 [(BitVec.ofNat 32 (((0 : Nat)))), 0] : RungCmd)), ((let s : State := (ring ((mkCmd 0x0204 [(BitVec.ofNat 32 (((0 : Nat)))), 0] : RungCmd)) ready); let s : State := setGroup ((0 : Nat)) (fun zz => { zz with st := .locked }) s; s : State)), ((0 : Nat)), rung_ok (by decide +kernel), by decide +kernel⟩,
   ⟨((0 : Nat)), ((3 : Nat)), ((let s : State := withArmed; let s : State := setGroup ((0 : Nat)) (fun zz => { zz with st := .armed }) s; let s : State := setGroup ((0 : Nat)) (fun zz => { zz with ownerCal := false }) s; s : State)), ((1 : Nat)), by decide +kernel⟩,
   ⟨((0 : Nat)), ((0 : Nat)), ((let s : State := ready; s : State)), by decide +kernel⟩⟩

theorem test_wit_GroupLocking :
    (∃ (g : Fin 4) (s : State), ((s.cg.group g).st = .armed) ∧ ((s.cg.group g).line.isSome = true) ∧ ((s.cg.group g).abs + linesBack s ≤ s.pos.absHigh + 64) ∧ (s.pos.absHigh < (s.cg.group g).abs) ∧ (lockCause g s = none) ∧ (withPeer s = false)) ∧
    (∃ (g : Fin 4) (s : State), ((s.cg.group g).st = .armed) ∧ ((s.cg.group g).line.isSome = true) ∧ ((s.cg.group g).abs + linesBack s ≤ s.pos.absHigh + 64) ∧ (s.pos.absHigh < (s.cg.group g).abs) ∧ (lockCause g s = none) ∧ (withPeer s = true) ∧ ((s.cg.group g).joinGroup = false) ∧ (s.twin.role = .standby)) ∧
    (∃ (g : Fin 4) (s : State), ((s.cg.group g).st = .armed) ∧ ((s.cg.group g).line.isSome = true) ∧ ((s.cg.group g).abs + linesBack s ≤ s.pos.absHigh + 64) ∧ (s.pos.absHigh < (s.cg.group g).abs) ∧ (lockCause g s = none) ∧ (withPeer s = true) ∧ (s.twin.role = .active) ∧ (∃ r ∈ s.cg.peerArms, recMatches r (s.cg.group g) = true)) ∧
    (∃ (g : Fin 4) (s : State) (cause : Nat), ((s.cg.group g).st = .armed) ∧ ((s.cg.group g).line.isSome = true) ∧ ((s.cg.group g).abs + linesBack s ≤ s.pos.absHigh + 64) ∧ (s.pos.absHigh < (s.cg.group g).abs) ∧ (lockCause g s = some cause)) ∧
    (∃ (g : Fin 4) (s : State), ((s.cg.group g).st = .armed) ∧ ((s.cg.group g).line.isSome = true) ∧ ((s.cg.group g).abs + linesBack s ≤ s.pos.absHigh + 64) ∧ (s.pos.absHigh < (s.cg.group g).abs) ∧ (s.twin.role = .standby) ∧ (withPeer s = true) ∧ ((s.cg.group g).joinGroup = false) ∧ ((s.cg.group g).abs ≤ s.pos.absHigh + 48)) ∧
    (∃ (g : Fin 4) (s : State), (s.cg.groups.length = 4)) ∧
    (∃ (g : Fin 4) (s : State), (∃ o ∈ (s.cg.group g).objs, (o.kind, o.target) ∈ (s.cg.group g).bad)) ∧
    (∃ (g : Fin 4) (s : State), ((s.cg.group g).bad = []) ∧ (s.host.firing = false) ∧ (loadsDone g s = false ∨ overlapsAtLock g s = true)) ∧
    (∃ (s : State) (u : State), (quietWeb s = true) ∧ (u = { s with cg := { s.cg with webStopped := true } }) ∧ (s.fire.spit.isSome = true)) ∧
    (∃ (s : State) (u : State), (quietWeb s = true) ∧ (u = { s with cg := { s.cg with webStopped := true } }) ∧ (s.fire.spit = none)) ∧
    (∃ (t : Dword) (l : List Dword) (s : State), (s.fire.bTimes = t :: l) ∧ (s.pos.mono.toNat < t.toNat + 1000000)) ∧
    (∃ (g : Fin 4) (s : State), ((s.cg.group g).st = .armed) ∧ ((s.cg.group g).stopped = true) ∧ ((s.cg.group g).line = none) ∧ (loadsDone g s = true) ∧ (s.cg.webStopped = false)) ∧
    (∃ (g : Fin 4) (s : State), ((s.cg.group g).st = .armed) ∧ ((s.cg.group g).stopped = true) ∧ ((s.cg.group g).line = none) ∧ (loadsDone g s = true) ∧ (s.cg.webStopped = true)) ∧
    (∃ (g : Fin 4) (s : State), ((s.cg.group g).st = .armed) ∧ ((s.cg.group g).trigger = 1) ∧ ((s.cg.group g).line = none) ∧ (s.cg.webStopped = true) ∧ ((s.cg.group g).time.toNat ≤ s.pos.netNow) ∧ (loadsDone g s = true)) ∧
    (∃ (g : Fin 4) (s : State), ((s.cg.group g).st = .armed) ∧ ((s.cg.group g).trigger = 1) ∧ ((s.cg.group g).line = none) ∧ (s.cg.webStopped = true) ∧ ((s.cg.group g).time.toNat ≤ s.pos.netNow) ∧ (loadsDone g s = false)) :=
  ⟨⟨((0 : Fin 4)), ((let s : State := withArmed; let s : State := { s with pos.absHigh := 6 }; let s : State := { s with pos.absHigh := 6, pos.high := 6, pos.acc := BitVec.ofNat 80 (6 * 2 ^ 48) }; s : State)), by decide +kernel⟩,
   ⟨((0 : Fin 4)), ((let s : State := withArmed; let s : State := { s with pos.absHigh := 6, twin.peerPresent := true, twin.role := .standby }; let s : State := { s with pos.absHigh := 6, pos.high := 6, pos.acc := BitVec.ofNat 80 (6 * 2 ^ 48) }; s : State)), by decide +kernel⟩,
   ⟨((0 : Fin 4)), ((let s : State := withArmed; let s : State := { s with pos.absHigh := 6, twin.peerPresent := true, twin.role := .active, cg.peerArms := [{ epoch := 0, line := 70, digest := 5 }] }; let s : State := { s with pos.absHigh := 6, pos.high := 6, pos.acc := BitVec.ofNat 80 (6 * 2 ^ 48) }; s : State)), by decide +kernel⟩,
   ⟨((0 : Fin 4)), ((let s : State := withArmed; let s : State := setGroup 0 (fun zz => { zz with bad := [(6, 0)] }) s; let s : State := { s with pos.absHigh := 6, pos.high := 6, pos.acc := BitVec.ofNat 80 (6 * 2 ^ 48) }; s : State)), ((10 : Nat)), by decide +kernel⟩,
   ⟨((0 : Fin 4)), ((let s : State := withArmed; let s : State := { s with pos.absHigh := 22, twin.peerPresent := true, twin.role := .standby }; s : State)), by decide +kernel⟩,
   ⟨((0 : Fin 4)), ((let s : State := ready; s : State)), by decide +kernel⟩,
   ⟨((0 : Fin 4)), ((let s : State := withArmed; let s : State := setGroup 0 (fun zz => { zz with bad := [(6, 0)] }) s; s : State)), by decide +kernel⟩,
   ⟨((0 : Fin 4)), ((let s : State := withArmed; let s : State := setGroup ((0 : Fin 4)) (fun zz => { zz with bad := [] }) s; let s : State := { s with host.firing := false }; let s : State := setGroup 0 (fun zz => { zz with objs := [{ kind := 3, bytes := [] }] }) s; s : State)), by decide +kernel⟩,
   ⟨((let s : State := ready; let s : State := { s with fire.spit := some { tag := 1, lines := 10, drop := 1, rate := 1000, mods := 1, first := 0, tick := 0 } }; s : State)), (({ ((let s : State := ready; let s : State := { s with fire.spit := some { tag := 1, lines := 10, drop := 1, rate := 1000, mods := 1, first := 0, tick := 0 } }; s : State)) with cg := { ((let s : State := ready; let s : State := { s with fire.spit := some { tag := 1, lines := 10, drop := 1, rate := 1000, mods := 1, first := 0, tick := 0 } }; s : State)).cg with webStopped := true } } : State)), by decide +kernel⟩,
   ⟨((let s : State := ready; let s : State := { s with fire.spit := none }; s : State)), (({ ((let s : State := ready; let s : State := { s with fire.spit := none }; s : State)) with cg := { ((let s : State := ready; let s : State := { s with fire.spit := none }; s : State)).cg with webStopped := true } } : State)), by decide +kernel⟩,
   ⟨((1000000000000 : Dword)), (([] : List Dword)), ((let s : State := ready; let s : State := { s with fire.bTimes := ((1000000000000 : Dword)) :: (([] : List Dword)) }; s : State)), by decide +kernel⟩,
   ⟨((0 : Fin 4)), ((let s : State := ready; let s : State := setGroup ((0 : Fin 4)) (fun zz => { zz with st := .armed }) s; let s : State := setGroup ((0 : Fin 4)) (fun zz => { zz with stopped := true }) s; let s : State := setGroup ((0 : Fin 4)) (fun zz => { zz with line := none }) s; let s : State := { s with cg.webStopped := false }; s : State)), by decide +kernel⟩,
   ⟨((0 : Fin 4)), ((let s : State := ready; let s : State := setGroup ((0 : Fin 4)) (fun zz => { zz with st := .armed }) s; let s : State := setGroup ((0 : Fin 4)) (fun zz => { zz with stopped := true }) s; let s : State := setGroup ((0 : Fin 4)) (fun zz => { zz with line := none }) s; let s : State := { s with cg.webStopped := true }; s : State)), by decide +kernel⟩,
   ⟨((0 : Fin 4)), ((let s : State := ready; let s : State := setGroup ((0 : Fin 4)) (fun zz => { zz with st := .armed }) s; let s : State := setGroup ((0 : Fin 4)) (fun zz => { zz with trigger := 1 }) s; let s : State := setGroup ((0 : Fin 4)) (fun zz => { zz with line := none }) s; let s : State := { s with cg.webStopped := true }; let s : State := setGroup ((0 : Fin 4)) (fun zz => { zz with time := 0 }) s; s : State)), by decide +kernel⟩,
   ⟨((0 : Fin 4)), ((let s : State := ready; let s : State := setGroup ((0 : Fin 4)) (fun zz => { zz with st := .armed }) s; let s : State := setGroup ((0 : Fin 4)) (fun zz => { zz with trigger := 1 }) s; let s : State := setGroup ((0 : Fin 4)) (fun zz => { zz with line := none }) s; let s : State := { s with cg.webStopped := true }; let s : State := setGroup 0 (fun zz => { zz with time := 0, objs := [{ kind := 3, bytes := [] }] }) s; s : State)), by decide +kernel⟩⟩

theorem test_wit_LineBoundaries :
    (∃ (x : Samples) (s : State) (u : State) (v : State) (w : State) (B : Nat), (u = mainUpdate (advance x s)) ∧ (B = u.pos.absHigh + 1) ∧ (startsJob B u = true → v = fireDue u) ∧ (startsJob B u = false → v = u) ∧ (v.pos.absHigh = u.pos.absHigh) ∧ (w = { v with pos := { addCorr v.pos with high := v.pos.high + 1, absHigh := B } }) ∧ (boundaryDue u.pos = true) ∧ (u.fire.spit = none)) ∧
    (∃ (x : Samples) (s : State) (u : State) (v : State) (w : State) (B : Nat), (u = mainUpdate (advance x s)) ∧ (B = u.pos.absHigh + 1) ∧ (startsJob B u = true → v = fireDue u) ∧ (startsJob B u = false → v = u) ∧ (v.pos.absHigh = u.pos.absHigh) ∧ (w = { v with pos := { addCorr v.pos with high := v.pos.high + 1, absHigh := B } }) ∧ (boundaryDue u.pos = false ∨ u.fire.spit.isSome = true)) ∧
    (∃ (x : Samples) (s : State) (u : State) (v : State) (w : State) (B : Nat), (u = mainUpdate (advance x s)) ∧ (B = u.pos.absHigh + 1) ∧ (startsJob B u = true → v = fireDue u) ∧ (startsJob B u = false → v = u) ∧ (v.pos.absHigh = u.pos.absHigh) ∧ (w = { v with pos := { addCorr v.pos with high := v.pos.high + 1, absHigh := B } }) ∧ (u.fire.spit = none)) ∧
    (∃ (x : Samples) (s : State) (u : State) (v : State) (w : State) (B : Nat) (j : SpitJob), (u = mainUpdate (advance x s)) ∧ (B = u.pos.absHigh + 1) ∧ (startsJob B u = true → v = fireDue u) ∧ (startsJob B u = false → v = u) ∧ (v.pos.absHigh = u.pos.absHigh) ∧ (w = { v with pos := { addCorr v.pos with high := v.pos.high + 1, absHigh := B } }) ∧ (u.fire.spit = some j) ∧ (1000000000 ≤ (u.pos.mono - j.tick).toNat * j.rate)) ∧
    (∃ (x : Samples) (s : State) (u : State) (v : State) (w : State) (B : Nat) (j : SpitJob), (u = mainUpdate (advance x s)) ∧ (B = u.pos.absHigh + 1) ∧ (startsJob B u = true → v = fireDue u) ∧ (startsJob B u = false → v = u) ∧ (v.pos.absHigh = u.pos.absHigh) ∧ (w = { v with pos := { addCorr v.pos with high := v.pos.high + 1, absHigh := B } }) ∧ (u.fire.spit = some j) ∧ ((u.pos.mono - j.tick).toNat * j.rate < 1000000000)) ∧
    (∃ (lc : Nat) (g : Nat) (moving : Bool) (s : State) (j : Nat), (g < 4) ∧ (s.cg.groups.length = 4) ∧ ((s.cg.group g).st = .locked) ∧ ((s.cg.group g).ownerCal = false) ∧ ((s.cg.group g).persist = false) ∧ (∀ o ∈ (s.cg.group g).objs, o.kind = 5 ∨ o.kind = 6) ∧ (j ≠ g)) :=
  ⟨⟨(([] : Samples)), ((let s : State := due; s : State)), ((mainUpdate (advance (([] : Samples)) ((let s : State := due; s : State))) : State)), ((if startsJob ((((mainUpdate (advance (([] : Samples)) ((let s : State := due; s : State))) : State)).pos.absHigh + 1 : Nat)) ((mainUpdate (advance (([] : Samples)) ((let s : State := due; s : State))) : State)) then fireDue ((mainUpdate (advance (([] : Samples)) ((let s : State := due; s : State))) : State)) else ((mainUpdate (advance (([] : Samples)) ((let s : State := due; s : State))) : State)) : State)), (({ ((if startsJob ((((mainUpdate (advance (([] : Samples)) ((let s : State := due; s : State))) : State)).pos.absHigh + 1 : Nat)) ((mainUpdate (advance (([] : Samples)) ((let s : State := due; s : State))) : State)) then fireDue ((mainUpdate (advance (([] : Samples)) ((let s : State := due; s : State))) : State)) else ((mainUpdate (advance (([] : Samples)) ((let s : State := due; s : State))) : State)) : State)) with pos := { addCorr ((if startsJob ((((mainUpdate (advance (([] : Samples)) ((let s : State := due; s : State))) : State)).pos.absHigh + 1 : Nat)) ((mainUpdate (advance (([] : Samples)) ((let s : State := due; s : State))) : State)) then fireDue ((mainUpdate (advance (([] : Samples)) ((let s : State := due; s : State))) : State)) else ((mainUpdate (advance (([] : Samples)) ((let s : State := due; s : State))) : State)) : State)).pos with high := ((if startsJob ((((mainUpdate (advance (([] : Samples)) ((let s : State := due; s : State))) : State)).pos.absHigh + 1 : Nat)) ((mainUpdate (advance (([] : Samples)) ((let s : State := due; s : State))) : State)) then fireDue ((mainUpdate (advance (([] : Samples)) ((let s : State := due; s : State))) : State)) else ((mainUpdate (advance (([] : Samples)) ((let s : State := due; s : State))) : State)) : State)).pos.high + 1, absHigh := ((((mainUpdate (advance (([] : Samples)) ((let s : State := due; s : State))) : State)).pos.absHigh + 1 : Nat)) } } : State)), ((((mainUpdate (advance (([] : Samples)) ((let s : State := due; s : State))) : State)).pos.absHigh + 1 : Nat)), by decide +kernel⟩,
   ⟨(([] : Samples)), ((let s : State := ready; s : State)), ((mainUpdate (advance (([] : Samples)) ((let s : State := ready; s : State))) : State)), ((if startsJob ((((mainUpdate (advance (([] : Samples)) ((let s : State := ready; s : State))) : State)).pos.absHigh + 1 : Nat)) ((mainUpdate (advance (([] : Samples)) ((let s : State := ready; s : State))) : State)) then fireDue ((mainUpdate (advance (([] : Samples)) ((let s : State := ready; s : State))) : State)) else ((mainUpdate (advance (([] : Samples)) ((let s : State := ready; s : State))) : State)) : State)), (({ ((if startsJob ((((mainUpdate (advance (([] : Samples)) ((let s : State := ready; s : State))) : State)).pos.absHigh + 1 : Nat)) ((mainUpdate (advance (([] : Samples)) ((let s : State := ready; s : State))) : State)) then fireDue ((mainUpdate (advance (([] : Samples)) ((let s : State := ready; s : State))) : State)) else ((mainUpdate (advance (([] : Samples)) ((let s : State := ready; s : State))) : State)) : State)) with pos := { addCorr ((if startsJob ((((mainUpdate (advance (([] : Samples)) ((let s : State := ready; s : State))) : State)).pos.absHigh + 1 : Nat)) ((mainUpdate (advance (([] : Samples)) ((let s : State := ready; s : State))) : State)) then fireDue ((mainUpdate (advance (([] : Samples)) ((let s : State := ready; s : State))) : State)) else ((mainUpdate (advance (([] : Samples)) ((let s : State := ready; s : State))) : State)) : State)).pos with high := ((if startsJob ((((mainUpdate (advance (([] : Samples)) ((let s : State := ready; s : State))) : State)).pos.absHigh + 1 : Nat)) ((mainUpdate (advance (([] : Samples)) ((let s : State := ready; s : State))) : State)) then fireDue ((mainUpdate (advance (([] : Samples)) ((let s : State := ready; s : State))) : State)) else ((mainUpdate (advance (([] : Samples)) ((let s : State := ready; s : State))) : State)) : State)).pos.high + 1, absHigh := ((((mainUpdate (advance (([] : Samples)) ((let s : State := ready; s : State))) : State)).pos.absHigh + 1 : Nat)) } } : State)), ((((mainUpdate (advance (([] : Samples)) ((let s : State := ready; s : State))) : State)).pos.absHigh + 1 : Nat)), by decide +kernel⟩,
   ⟨(([] : Samples)), ((let s : State := ready; s : State)), ((mainUpdate (advance (([] : Samples)) ((let s : State := ready; s : State))) : State)), ((if startsJob ((((mainUpdate (advance (([] : Samples)) ((let s : State := ready; s : State))) : State)).pos.absHigh + 1 : Nat)) ((mainUpdate (advance (([] : Samples)) ((let s : State := ready; s : State))) : State)) then fireDue ((mainUpdate (advance (([] : Samples)) ((let s : State := ready; s : State))) : State)) else ((mainUpdate (advance (([] : Samples)) ((let s : State := ready; s : State))) : State)) : State)), (({ ((if startsJob ((((mainUpdate (advance (([] : Samples)) ((let s : State := ready; s : State))) : State)).pos.absHigh + 1 : Nat)) ((mainUpdate (advance (([] : Samples)) ((let s : State := ready; s : State))) : State)) then fireDue ((mainUpdate (advance (([] : Samples)) ((let s : State := ready; s : State))) : State)) else ((mainUpdate (advance (([] : Samples)) ((let s : State := ready; s : State))) : State)) : State)) with pos := { addCorr ((if startsJob ((((mainUpdate (advance (([] : Samples)) ((let s : State := ready; s : State))) : State)).pos.absHigh + 1 : Nat)) ((mainUpdate (advance (([] : Samples)) ((let s : State := ready; s : State))) : State)) then fireDue ((mainUpdate (advance (([] : Samples)) ((let s : State := ready; s : State))) : State)) else ((mainUpdate (advance (([] : Samples)) ((let s : State := ready; s : State))) : State)) : State)).pos with high := ((if startsJob ((((mainUpdate (advance (([] : Samples)) ((let s : State := ready; s : State))) : State)).pos.absHigh + 1 : Nat)) ((mainUpdate (advance (([] : Samples)) ((let s : State := ready; s : State))) : State)) then fireDue ((mainUpdate (advance (([] : Samples)) ((let s : State := ready; s : State))) : State)) else ((mainUpdate (advance (([] : Samples)) ((let s : State := ready; s : State))) : State)) : State)).pos.high + 1, absHigh := ((((mainUpdate (advance (([] : Samples)) ((let s : State := ready; s : State))) : State)).pos.absHigh + 1 : Nat)) } } : State)), ((((mainUpdate (advance (([] : Samples)) ((let s : State := ready; s : State))) : State)).pos.absHigh + 1 : Nat)), by decide +kernel⟩,
   ⟨(([] : Samples)), ((let s : State := ready; let s : State := { s with fire.spit := some (({ tag := 1, lines := 10, drop := 1, rate := 1000, mods := 1, first := 0, tick := 0 } : SpitJob)) }; s : State)), ((mainUpdate (advance (([] : Samples)) ((let s : State := ready; let s : State := { s with fire.spit := some (({ tag := 1, lines := 10, drop := 1, rate := 1000, mods := 1, first := 0, tick := 0 } : SpitJob)) }; s : State))) : State)), ((if startsJob ((((mainUpdate (advance (([] : Samples)) ((let s : State := ready; let s : State := { s with fire.spit := some (({ tag := 1, lines := 10, drop := 1, rate := 1000, mods := 1, first := 0, tick := 0 } : SpitJob)) }; s : State))) : State)).pos.absHigh + 1 : Nat)) ((mainUpdate (advance (([] : Samples)) ((let s : State := ready; let s : State := { s with fire.spit := some (({ tag := 1, lines := 10, drop := 1, rate := 1000, mods := 1, first := 0, tick := 0 } : SpitJob)) }; s : State))) : State)) then fireDue ((mainUpdate (advance (([] : Samples)) ((let s : State := ready; let s : State := { s with fire.spit := some (({ tag := 1, lines := 10, drop := 1, rate := 1000, mods := 1, first := 0, tick := 0 } : SpitJob)) }; s : State))) : State)) else ((mainUpdate (advance (([] : Samples)) ((let s : State := ready; let s : State := { s with fire.spit := some (({ tag := 1, lines := 10, drop := 1, rate := 1000, mods := 1, first := 0, tick := 0 } : SpitJob)) }; s : State))) : State)) : State)), (({ ((if startsJob ((((mainUpdate (advance (([] : Samples)) ((let s : State := ready; let s : State := { s with fire.spit := some (({ tag := 1, lines := 10, drop := 1, rate := 1000, mods := 1, first := 0, tick := 0 } : SpitJob)) }; s : State))) : State)).pos.absHigh + 1 : Nat)) ((mainUpdate (advance (([] : Samples)) ((let s : State := ready; let s : State := { s with fire.spit := some (({ tag := 1, lines := 10, drop := 1, rate := 1000, mods := 1, first := 0, tick := 0 } : SpitJob)) }; s : State))) : State)) then fireDue ((mainUpdate (advance (([] : Samples)) ((let s : State := ready; let s : State := { s with fire.spit := some (({ tag := 1, lines := 10, drop := 1, rate := 1000, mods := 1, first := 0, tick := 0 } : SpitJob)) }; s : State))) : State)) else ((mainUpdate (advance (([] : Samples)) ((let s : State := ready; let s : State := { s with fire.spit := some (({ tag := 1, lines := 10, drop := 1, rate := 1000, mods := 1, first := 0, tick := 0 } : SpitJob)) }; s : State))) : State)) : State)) with pos := { addCorr ((if startsJob ((((mainUpdate (advance (([] : Samples)) ((let s : State := ready; let s : State := { s with fire.spit := some (({ tag := 1, lines := 10, drop := 1, rate := 1000, mods := 1, first := 0, tick := 0 } : SpitJob)) }; s : State))) : State)).pos.absHigh + 1 : Nat)) ((mainUpdate (advance (([] : Samples)) ((let s : State := ready; let s : State := { s with fire.spit := some (({ tag := 1, lines := 10, drop := 1, rate := 1000, mods := 1, first := 0, tick := 0 } : SpitJob)) }; s : State))) : State)) then fireDue ((mainUpdate (advance (([] : Samples)) ((let s : State := ready; let s : State := { s with fire.spit := some (({ tag := 1, lines := 10, drop := 1, rate := 1000, mods := 1, first := 0, tick := 0 } : SpitJob)) }; s : State))) : State)) else ((mainUpdate (advance (([] : Samples)) ((let s : State := ready; let s : State := { s with fire.spit := some (({ tag := 1, lines := 10, drop := 1, rate := 1000, mods := 1, first := 0, tick := 0 } : SpitJob)) }; s : State))) : State)) : State)).pos with high := ((if startsJob ((((mainUpdate (advance (([] : Samples)) ((let s : State := ready; let s : State := { s with fire.spit := some (({ tag := 1, lines := 10, drop := 1, rate := 1000, mods := 1, first := 0, tick := 0 } : SpitJob)) }; s : State))) : State)).pos.absHigh + 1 : Nat)) ((mainUpdate (advance (([] : Samples)) ((let s : State := ready; let s : State := { s with fire.spit := some (({ tag := 1, lines := 10, drop := 1, rate := 1000, mods := 1, first := 0, tick := 0 } : SpitJob)) }; s : State))) : State)) then fireDue ((mainUpdate (advance (([] : Samples)) ((let s : State := ready; let s : State := { s with fire.spit := some (({ tag := 1, lines := 10, drop := 1, rate := 1000, mods := 1, first := 0, tick := 0 } : SpitJob)) }; s : State))) : State)) else ((mainUpdate (advance (([] : Samples)) ((let s : State := ready; let s : State := { s with fire.spit := some (({ tag := 1, lines := 10, drop := 1, rate := 1000, mods := 1, first := 0, tick := 0 } : SpitJob)) }; s : State))) : State)) : State)).pos.high + 1, absHigh := ((((mainUpdate (advance (([] : Samples)) ((let s : State := ready; let s : State := { s with fire.spit := some (({ tag := 1, lines := 10, drop := 1, rate := 1000, mods := 1, first := 0, tick := 0 } : SpitJob)) }; s : State))) : State)).pos.absHigh + 1 : Nat)) } } : State)), ((((mainUpdate (advance (([] : Samples)) ((let s : State := ready; let s : State := { s with fire.spit := some (({ tag := 1, lines := 10, drop := 1, rate := 1000, mods := 1, first := 0, tick := 0 } : SpitJob)) }; s : State))) : State)).pos.absHigh + 1 : Nat)), (({ tag := 1, lines := 10, drop := 1, rate := 1000, mods := 1, first := 0, tick := 0 } : SpitJob)), by decide +kernel⟩,
   ⟨(([] : Samples)), ((let s : State := ready; let s : State := { s with fire.spit := some (({ tag := 1, lines := 10, drop := 1, rate := 1, mods := 1, first := 0, tick := 999999999990 } : SpitJob)) }; s : State)), ((mainUpdate (advance (([] : Samples)) ((let s : State := ready; let s : State := { s with fire.spit := some (({ tag := 1, lines := 10, drop := 1, rate := 1, mods := 1, first := 0, tick := 999999999990 } : SpitJob)) }; s : State))) : State)), ((if startsJob ((((mainUpdate (advance (([] : Samples)) ((let s : State := ready; let s : State := { s with fire.spit := some (({ tag := 1, lines := 10, drop := 1, rate := 1, mods := 1, first := 0, tick := 999999999990 } : SpitJob)) }; s : State))) : State)).pos.absHigh + 1 : Nat)) ((mainUpdate (advance (([] : Samples)) ((let s : State := ready; let s : State := { s with fire.spit := some (({ tag := 1, lines := 10, drop := 1, rate := 1, mods := 1, first := 0, tick := 999999999990 } : SpitJob)) }; s : State))) : State)) then fireDue ((mainUpdate (advance (([] : Samples)) ((let s : State := ready; let s : State := { s with fire.spit := some (({ tag := 1, lines := 10, drop := 1, rate := 1, mods := 1, first := 0, tick := 999999999990 } : SpitJob)) }; s : State))) : State)) else ((mainUpdate (advance (([] : Samples)) ((let s : State := ready; let s : State := { s with fire.spit := some (({ tag := 1, lines := 10, drop := 1, rate := 1, mods := 1, first := 0, tick := 999999999990 } : SpitJob)) }; s : State))) : State)) : State)), (({ ((if startsJob ((((mainUpdate (advance (([] : Samples)) ((let s : State := ready; let s : State := { s with fire.spit := some (({ tag := 1, lines := 10, drop := 1, rate := 1, mods := 1, first := 0, tick := 999999999990 } : SpitJob)) }; s : State))) : State)).pos.absHigh + 1 : Nat)) ((mainUpdate (advance (([] : Samples)) ((let s : State := ready; let s : State := { s with fire.spit := some (({ tag := 1, lines := 10, drop := 1, rate := 1, mods := 1, first := 0, tick := 999999999990 } : SpitJob)) }; s : State))) : State)) then fireDue ((mainUpdate (advance (([] : Samples)) ((let s : State := ready; let s : State := { s with fire.spit := some (({ tag := 1, lines := 10, drop := 1, rate := 1, mods := 1, first := 0, tick := 999999999990 } : SpitJob)) }; s : State))) : State)) else ((mainUpdate (advance (([] : Samples)) ((let s : State := ready; let s : State := { s with fire.spit := some (({ tag := 1, lines := 10, drop := 1, rate := 1, mods := 1, first := 0, tick := 999999999990 } : SpitJob)) }; s : State))) : State)) : State)) with pos := { addCorr ((if startsJob ((((mainUpdate (advance (([] : Samples)) ((let s : State := ready; let s : State := { s with fire.spit := some (({ tag := 1, lines := 10, drop := 1, rate := 1, mods := 1, first := 0, tick := 999999999990 } : SpitJob)) }; s : State))) : State)).pos.absHigh + 1 : Nat)) ((mainUpdate (advance (([] : Samples)) ((let s : State := ready; let s : State := { s with fire.spit := some (({ tag := 1, lines := 10, drop := 1, rate := 1, mods := 1, first := 0, tick := 999999999990 } : SpitJob)) }; s : State))) : State)) then fireDue ((mainUpdate (advance (([] : Samples)) ((let s : State := ready; let s : State := { s with fire.spit := some (({ tag := 1, lines := 10, drop := 1, rate := 1, mods := 1, first := 0, tick := 999999999990 } : SpitJob)) }; s : State))) : State)) else ((mainUpdate (advance (([] : Samples)) ((let s : State := ready; let s : State := { s with fire.spit := some (({ tag := 1, lines := 10, drop := 1, rate := 1, mods := 1, first := 0, tick := 999999999990 } : SpitJob)) }; s : State))) : State)) : State)).pos with high := ((if startsJob ((((mainUpdate (advance (([] : Samples)) ((let s : State := ready; let s : State := { s with fire.spit := some (({ tag := 1, lines := 10, drop := 1, rate := 1, mods := 1, first := 0, tick := 999999999990 } : SpitJob)) }; s : State))) : State)).pos.absHigh + 1 : Nat)) ((mainUpdate (advance (([] : Samples)) ((let s : State := ready; let s : State := { s with fire.spit := some (({ tag := 1, lines := 10, drop := 1, rate := 1, mods := 1, first := 0, tick := 999999999990 } : SpitJob)) }; s : State))) : State)) then fireDue ((mainUpdate (advance (([] : Samples)) ((let s : State := ready; let s : State := { s with fire.spit := some (({ tag := 1, lines := 10, drop := 1, rate := 1, mods := 1, first := 0, tick := 999999999990 } : SpitJob)) }; s : State))) : State)) else ((mainUpdate (advance (([] : Samples)) ((let s : State := ready; let s : State := { s with fire.spit := some (({ tag := 1, lines := 10, drop := 1, rate := 1, mods := 1, first := 0, tick := 999999999990 } : SpitJob)) }; s : State))) : State)) : State)).pos.high + 1, absHigh := ((((mainUpdate (advance (([] : Samples)) ((let s : State := ready; let s : State := { s with fire.spit := some (({ tag := 1, lines := 10, drop := 1, rate := 1, mods := 1, first := 0, tick := 999999999990 } : SpitJob)) }; s : State))) : State)).pos.absHigh + 1 : Nat)) } } : State)), ((((mainUpdate (advance (([] : Samples)) ((let s : State := ready; let s : State := { s with fire.spit := some (({ tag := 1, lines := 10, drop := 1, rate := 1, mods := 1, first := 0, tick := 999999999990 } : SpitJob)) }; s : State))) : State)).pos.absHigh + 1 : Nat)), (({ tag := 1, lines := 10, drop := 1, rate := 1, mods := 1, first := 0, tick := 999999999990 } : SpitJob)), by decide +kernel⟩,
   ⟨((70 : Nat)), ((0 : Nat)), ((false : Bool)), ((let s : State := barred; let s : State := setGroup ((0 : Nat)) (fun zz => { zz with st := .locked }) s; let s : State := setGroup ((0 : Nat)) (fun zz => { zz with ownerCal := false }) s; let s : State := setGroup ((0 : Nat)) (fun zz => { zz with persist := false }) s; let s : State := setGroup 0 (fun zz => { zz with objs := [polObj], abs := 70 }) s; s : State)), ((1 : Nat)), by decide +kernel⟩⟩

theorem test_wit_ToneAndScreening :
    (∃ (w : Bool) (a : Nat) (b : Nat), (a ≤ b)) ∧
    (∃ (K : Nat → Nat) (j : Nat), (j ≤ 16)) ∧
    (∃ (K : Nat → Nat) (t : Nat), (t < 0x20000)) ∧
    (∃ (objs : List Obj) (m : Nat) (k : Nat) (t : Nat), (objOf objs 3 m = none) ∧ (t ≤ 0x20000)) ∧
    (∃ (c : Nat) (t : Nat) (t' : Nat), (bits c 0 18 ≤ bits c 18 18) ∧ (bits c 18 18 ≤ bits c 36 18) ∧ (t ≤ t')) :=
  ⟨⟨((false : Bool)), ((0 : Nat)), ((0 : Nat)), by decide +kernel⟩,
   ⟨((fun i => i * 3 : Nat → Nat)), ((16 : Nat)), by decide +kernel⟩,
   ⟨((fun i => i * 3 : Nat → Nat)), ((0x1FFFF : Nat)), by decide +kernel⟩,
   ⟨(([] : List Obj)), ((0 : Nat)), ((0 : Nat)), ((0 : Nat)), by decide +kernel⟩,
   ⟨((5 + 9 * 2 ^ 18 + 70 * 2 ^ 36 : Nat)), ((9 : Nat)), ((80 : Nat)), by decide +kernel⟩⟩

theorem test_wit_RowChoice :
    (∃ (x : RowCtx) (rs : RowSt) (k : Nat) (code : Nat) (lr : List Nat) (kk : Nat) (idx : Nat) (noTake : Bool), (code ≠ 0) ∧ (noTake = flag (policyWord x.objs) 5) ∧ (lr = liveRows x.objs x.rows x.m k) ∧ (kk = (if noTake then x.rows else lr.length)) ∧ (idx = (x.n + fld (policyWord x.objs) 0 2 * (x.m * colsPer + k) + b2n (flag (policyWord x.objs) 4) * x.p) % kk) ∧ (noTake = false) ∧ (kk ≠ 0) ∧ (eligible x rs k kk (cell lr idx 0) = true)) ∧
    (∃ (x : RowCtx) (rs : RowSt) (k : Nat) (code : Nat) (lr : List Nat) (kk : Nat) (idx : Nat) (noTake : Bool), (code ≠ 0) ∧ (noTake = flag (policyWord x.objs) 5) ∧ (lr = liveRows x.objs x.rows x.m k) ∧ (kk = (if noTake then x.rows else lr.length)) ∧ (idx = (x.n + fld (policyWord x.objs) 0 2 * (x.m * colsPer + k) + b2n (flag (policyWord x.objs) 4) * x.p) % kk) ∧ (noTake = false) ∧ (∃ r ∈ lr, eligible x rs k kk r = true)) ∧
    (∃ (x : RowCtx) (rs : RowSt) (k : Nat) (code : Nat) (lr : List Nat) (kk : Nat) (idx : Nat) (noTake : Bool), (code ≠ 0) ∧ (noTake = flag (policyWord x.objs) 5) ∧ (lr = liveRows x.objs x.rows x.m k) ∧ (kk = (if noTake then x.rows else lr.length)) ∧ (idx = (x.n + fld (policyWord x.objs) 0 2 * (x.m * colsPer + k) + b2n (flag (policyWord x.objs) 4) * x.p) % kk) ∧ (noTake = true) ∧ (kk ≠ 0) ∧ (eligible x rs k kk idx = true)) ∧
    (∃ (x : RowCtx) (rs : RowSt) (k : Nat) (code : Nat) (lr : List Nat) (kk : Nat) (idx : Nat) (noTake : Bool), (code ≠ 0) ∧ (noTake = flag (policyWord x.objs) 5) ∧ (lr = liveRows x.objs x.rows x.m k) ∧ (kk = (if noTake then x.rows else lr.length)) ∧ (idx = (x.n + fld (policyWord x.objs) 0 2 * (x.m * colsPer + k) + b2n (flag (policyWord x.objs) 4) * x.p) % kk) ∧ (lr = []) ∧ (noTake = false)) :=
  ⟨⟨((rowCtx : RowCtx)), ((rowSt : RowSt)), ((0 : Nat)), ((1 : Nat)), ((liveRows ((rowCtx : RowCtx)).objs ((rowCtx : RowCtx)).rows ((rowCtx : RowCtx)).m ((0 : Nat)) : List Nat)), (((if ((flag (policyWord ((rowCtx : RowCtx)).objs) 5 : Bool)) then ((rowCtx : RowCtx)).rows else ((liveRows ((rowCtx : RowCtx)).objs ((rowCtx : RowCtx)).rows ((rowCtx : RowCtx)).m ((0 : Nat)) : List Nat)).length) : Nat)), (((((rowCtx : RowCtx)).n + fld (policyWord ((rowCtx : RowCtx)).objs) 0 2 * (((rowCtx : RowCtx)).m * colsPer + ((0 : Nat))) + b2n (flag (policyWord ((rowCtx : RowCtx)).objs) 4) * ((rowCtx : RowCtx)).p) % (((if ((flag (policyWord ((rowCtx : RowCtx)).objs) 5 : Bool)) then ((rowCtx : RowCtx)).rows else ((liveRows ((rowCtx : RowCtx)).objs ((rowCtx : RowCtx)).rows ((rowCtx : RowCtx)).m ((0 : Nat)) : List Nat)).length) : Nat)) : Nat)), ((flag (policyWord ((rowCtx : RowCtx)).objs) 5 : Bool)), by decide +kernel⟩,
   ⟨((rowCtx : RowCtx)), (({ rowSt with last := [((0, 0), [(99, 0)])] } : RowSt)), ((0 : Nat)), ((1 : Nat)), ((liveRows ((rowCtx : RowCtx)).objs ((rowCtx : RowCtx)).rows ((rowCtx : RowCtx)).m ((0 : Nat)) : List Nat)), (((if ((flag (policyWord ((rowCtx : RowCtx)).objs) 5 : Bool)) then ((rowCtx : RowCtx)).rows else ((liveRows ((rowCtx : RowCtx)).objs ((rowCtx : RowCtx)).rows ((rowCtx : RowCtx)).m ((0 : Nat)) : List Nat)).length) : Nat)), (((((rowCtx : RowCtx)).n + fld (policyWord ((rowCtx : RowCtx)).objs) 0 2 * (((rowCtx : RowCtx)).m * colsPer + ((0 : Nat))) + b2n (flag (policyWord ((rowCtx : RowCtx)).objs) 4) * ((rowCtx : RowCtx)).p) % (((if ((flag (policyWord ((rowCtx : RowCtx)).objs) 5 : Bool)) then ((rowCtx : RowCtx)).rows else ((liveRows ((rowCtx : RowCtx)).objs ((rowCtx : RowCtx)).rows ((rowCtx : RowCtx)).m ((0 : Nat)) : List Nat)).length) : Nat)) : Nat)), ((flag (policyWord ((rowCtx : RowCtx)).objs) 5 : Bool)), by decide +kernel⟩,
   ⟨(({ rowCtx with objs := [barObj, { kind := 6, bytes := 32 :: zeros 63 }] } : RowCtx)), ((rowSt : RowSt)), ((0 : Nat)), ((1 : Nat)), ((liveRows (({ rowCtx with objs := [barObj, { kind := 6, bytes := 32 :: zeros 63 }] } : RowCtx)).objs (({ rowCtx with objs := [barObj, { kind := 6, bytes := 32 :: zeros 63 }] } : RowCtx)).rows (({ rowCtx with objs := [barObj, { kind := 6, bytes := 32 :: zeros 63 }] } : RowCtx)).m ((0 : Nat)) : List Nat)), (((if ((flag (policyWord (({ rowCtx with objs := [barObj, { kind := 6, bytes := 32 :: zeros 63 }] } : RowCtx)).objs) 5 : Bool)) then (({ rowCtx with objs := [barObj, { kind := 6, bytes := 32 :: zeros 63 }] } : RowCtx)).rows else ((liveRows (({ rowCtx with objs := [barObj, { kind := 6, bytes := 32 :: zeros 63 }] } : RowCtx)).objs (({ rowCtx with objs := [barObj, { kind := 6, bytes := 32 :: zeros 63 }] } : RowCtx)).rows (({ rowCtx with objs := [barObj, { kind := 6, bytes := 32 :: zeros 63 }] } : RowCtx)).m ((0 : Nat)) : List Nat)).length) : Nat)), ((((({ rowCtx with objs := [barObj, { kind := 6, bytes := 32 :: zeros 63 }] } : RowCtx)).n + fld (policyWord (({ rowCtx with objs := [barObj, { kind := 6, bytes := 32 :: zeros 63 }] } : RowCtx)).objs) 0 2 * ((({ rowCtx with objs := [barObj, { kind := 6, bytes := 32 :: zeros 63 }] } : RowCtx)).m * colsPer + ((0 : Nat))) + b2n (flag (policyWord (({ rowCtx with objs := [barObj, { kind := 6, bytes := 32 :: zeros 63 }] } : RowCtx)).objs) 4) * (({ rowCtx with objs := [barObj, { kind := 6, bytes := 32 :: zeros 63 }] } : RowCtx)).p) % (((if ((flag (policyWord (({ rowCtx with objs := [barObj, { kind := 6, bytes := 32 :: zeros 63 }] } : RowCtx)).objs) 5 : Bool)) then (({ rowCtx with objs := [barObj, { kind := 6, bytes := 32 :: zeros 63 }] } : RowCtx)).rows else ((liveRows (({ rowCtx with objs := [barObj, { kind := 6, bytes := 32 :: zeros 63 }] } : RowCtx)).objs (({ rowCtx with objs := [barObj, { kind := 6, bytes := 32 :: zeros 63 }] } : RowCtx)).rows (({ rowCtx with objs := [barObj, { kind := 6, bytes := 32 :: zeros 63 }] } : RowCtx)).m ((0 : Nat)) : List Nat)).length) : Nat)) : Nat)), ((flag (policyWord (({ rowCtx with objs := [barObj, { kind := 6, bytes := 32 :: zeros 63 }] } : RowCtx)).objs) 5 : Bool)), by decide +kernel⟩,
   ⟨(({ rowCtx with rows := 0 } : RowCtx)), ((rowSt : RowSt)), ((0 : Nat)), ((1 : Nat)), ((liveRows (({ rowCtx with rows := 0 } : RowCtx)).objs (({ rowCtx with rows := 0 } : RowCtx)).rows (({ rowCtx with rows := 0 } : RowCtx)).m ((0 : Nat)) : List Nat)), (((if ((flag (policyWord (({ rowCtx with rows := 0 } : RowCtx)).objs) 5 : Bool)) then (({ rowCtx with rows := 0 } : RowCtx)).rows else ((liveRows (({ rowCtx with rows := 0 } : RowCtx)).objs (({ rowCtx with rows := 0 } : RowCtx)).rows (({ rowCtx with rows := 0 } : RowCtx)).m ((0 : Nat)) : List Nat)).length) : Nat)), ((((({ rowCtx with rows := 0 } : RowCtx)).n + fld (policyWord (({ rowCtx with rows := 0 } : RowCtx)).objs) 0 2 * ((({ rowCtx with rows := 0 } : RowCtx)).m * colsPer + ((0 : Nat))) + b2n (flag (policyWord (({ rowCtx with rows := 0 } : RowCtx)).objs) 4) * (({ rowCtx with rows := 0 } : RowCtx)).p) % (((if ((flag (policyWord (({ rowCtx with rows := 0 } : RowCtx)).objs) 5 : Bool)) then (({ rowCtx with rows := 0 } : RowCtx)).rows else ((liveRows (({ rowCtx with rows := 0 } : RowCtx)).objs (({ rowCtx with rows := 0 } : RowCtx)).rows (({ rowCtx with rows := 0 } : RowCtx)).m ((0 : Nat)) : List Nat)).length) : Nat)) : Nat)), ((flag (policyWord (({ rowCtx with rows := 0 } : RowCtx)).objs) 5 : Bool)), by decide +kernel⟩⟩

theorem test_wit_ClaimsDistinct :
    (∃ (x : RowCtx) (rs : RowSt) (codes : List Nat), ((rs.claims.map fun y => (y.1, y.2.1)).Nodup)) ∧
    (∃ (x : RowCtx) (rs : RowSt) (k : Nat) (r : Nat) (code : Nat), ((rs.claims.map fun y => (y.1, y.2.1)).Nodup)) :=
  ⟨⟨((rowCtx : RowCtx)), ((rowSt : RowSt)), (([1, 2, 0, 3, 1] : List Nat)), by decide +kernel⟩,
   ⟨((rowCtx : RowCtx)), ((rowSt : RowSt)), ((0 : Nat)), ((0 : Nat)), ((1 : Nat)), by decide +kernel⟩⟩

theorem test_wit_RowStateRoundTrip :
    (∃ (col : Nat) (Ls : Nat) (s : State) (t : State) (F : Nat), (t = loadColumn col Ls (columnRecord col Ls s) s) ∧ (Ls ≤ F) ∧ (F < Ls + 1024)) ∧
    (∃ (col : Nat) (Ls : Nat) (s : State) (t : State) (d : Nat) (F : Nat) (i : Nat), (t = loadColumn col Ls (columnRecord col Ls s) s) ∧ (d ≠ col)) ∧
    (∃ (col : Nat) (Ls : Nat) (s : State) (t : State) (r : Nat) (f : Int) (i : Nat) (h : List (Int × Nat)), (t = loadColumn col Ls (columnRecord col Ls s) s) ∧ (r < 4) ∧ (find? s.scr.lastFire (col, r) = some ((f, i) :: h)) ∧ ((Ls : Int) ≤ f + 32767) ∧ (f ≤ (Ls : Int) + 32767)) ∧
    (∃ (col : Nat) (Ls : Nat) (s : State) (t : State) (r : _), (t = loadColumn col Ls (columnRecord col Ls s) s) ∧ (r < 4) ∧ (find? s.scr.lastFire (col, r) = none)) :=
  ⟨⟨((3 : Nat)), ((100 : Nat)), ((let s : State := ready; let s : State := { s with scr.lastFire := [((3, 1), [(99, 7), (98, 6)])], scr.claims := [(3, 150, 7), (3, 20, 7), (4, 150, 5)] }; s : State)), ((loadColumn ((3 : Nat)) ((100 : Nat)) (columnRecord ((3 : Nat)) ((100 : Nat)) ((let s : State := ready; let s : State := { s with scr.lastFire := [((3, 1), [(99, 7), (98, 6)])], scr.claims := [(3, 150, 7), (3, 20, 7), (4, 150, 5)] }; s : State))) ((let s : State := ready; let s : State := { s with scr.lastFire := [((3, 1), [(99, 7), (98, 6)])], scr.claims := [(3, 150, 7), (3, 20, 7), (4, 150, 5)] }; s : State)) : State)), ((150 : Nat)), by decide +kernel⟩,
   ⟨((3 : Nat)), ((100 : Nat)), ((let s : State := ready; let s : State := { s with scr.lastFire := [((3, 1), [(99, 7), (98, 6)])], scr.claims := [(3, 150, 7), (2, 150, 5)] }; s : State)), ((loadColumn ((3 : Nat)) ((100 : Nat)) (columnRecord ((3 : Nat)) ((100 : Nat)) ((let s : State := ready; let s : State := { s with scr.lastFire := [((3, 1), [(99, 7), (98, 6)])], scr.claims := [(3, 150, 7), (2, 150, 5)] }; s : State))) ((let s : State := ready; let s : State := { s with scr.lastFire := [((3, 1), [(99, 7), (98, 6)])], scr.claims := [(3, 150, 7), (2, 150, 5)] }; s : State)) : State)), ((2 : Nat)), ((150 : Nat)), ((5 : Nat)), by decide +kernel⟩,
   ⟨((3 : Nat)), ((100 : Nat)), ((let s : State := ready; let s : State := { s with scr.lastFire := [((3, 1), [(99, 7), (98, 6)])], scr.claims := [(3, 150, 7)] }; s : State)), ((loadColumn ((3 : Nat)) ((100 : Nat)) (columnRecord ((3 : Nat)) ((100 : Nat)) ((let s : State := ready; let s : State := { s with scr.lastFire := [((3, 1), [(99, 7), (98, 6)])], scr.claims := [(3, 150, 7)] }; s : State))) ((let s : State := ready; let s : State := { s with scr.lastFire := [((3, 1), [(99, 7), (98, 6)])], scr.claims := [(3, 150, 7)] }; s : State)) : State)), ((1 : Nat)), ((99 : Int)), ((7 : Nat)), (([(98, 6)] : List (Int × Nat))), by decide +kernel⟩,
   ⟨((3 : Nat)), ((100 : Nat)), ((let s : State := ready; let s : State := { s with scr.lastFire := [((3, 1), [(99, 7), (98, 6)])] }; s : State)), ((loadColumn ((3 : Nat)) ((100 : Nat)) (columnRecord ((3 : Nat)) ((100 : Nat)) ((let s : State := ready; let s : State := { s with scr.lastFire := [((3, 1), [(99, 7), (98, 6)])] }; s : State))) ((let s : State := ready; let s : State := { s with scr.lastFire := [((3, 1), [(99, 7), (98, 6)])] }; s : State)) : State)), ((0 : Nat)), by decide +kernel⟩⟩

theorem test_wit_Slices :
    (∃ (m : Fin 16) (L : Nat) (u : State) (s : State), ((s.slice m).next = L) ∧ ((s.slice m).busy = none) ∧ (L ≤ s.pos.absHigh + 16) ∧ (m.val < (barOf (objsAt L s)).modules) ∧ (u = jobAtStart m L (setSlice m (fun sl => { sl with busy := some L, result := [], late := tooLate L s }) (switchBank m L s)))) ∧
    (∃ (m : Fin 16) (s : State), ((s.slice m).busy.isSome = true ∨ s.pos.absHigh + 16 < (s.slice m).next)) ∧
    (∃ (m : Fin 16) (L : Nat) (s : State), ((s.slice m).busy = some L) ∧ (s.scr.job = none) ∧ (s.scr.slices.length = 16)) ∧
    (∃ (m : Fin 16) (g : Nat) (s : State), (curveWaiting m s = some g) ∧ ((s.slice m).bankPending = 0)) ∧
    (∃ (m : Fin 16) (s : State), ((s.slice m).bankPending = 1)) :=
  ⟨⟨((0 : Fin 16)), ((0 : Nat)), ((jobAtStart ((0 : Fin 16)) ((0 : Nat)) (setSlice ((0 : Fin 16)) (fun sl => { sl with busy := some ((0 : Nat)), result := [], late := tooLate ((0 : Nat)) ((let s : State := barred; let s : State := setSlice ((0 : Fin 16)) (fun zz => { zz with next := ((0 : Nat)) }) s; let s : State := setSlice ((0 : Fin 16)) (fun zz => { zz with busy := none }) s; s : State)) }) (switchBank ((0 : Fin 16)) ((0 : Nat)) ((let s : State := barred; let s : State := setSlice ((0 : Fin 16)) (fun zz => { zz with next := ((0 : Nat)) }) s; let s : State := setSlice ((0 : Fin 16)) (fun zz => { zz with busy := none }) s; s : State)))) : State)), ((let s : State := barred; let s : State := setSlice ((0 : Fin 16)) (fun zz => { zz with next := ((0 : Nat)) }) s; let s : State := setSlice ((0 : Fin 16)) (fun zz => { zz with busy := none }) s; s : State)), by decide +kernel⟩,
   ⟨((0 : Fin 16)), ((let s : State := ready; let s : State := setSlice ((0 : Fin 16)) (fun zz => { zz with busy := some default }) s; s : State)), by decide +kernel⟩,
   ⟨((0 : Fin 16)), ((0 : Nat)), ((let s : State := ready; let s : State := setSlice ((0 : Fin 16)) (fun zz => { zz with busy := some ((0 : Nat)) }) s; let s : State := { s with scr.job := none }; s : State)), by decide +kernel⟩,
   ⟨((0 : Fin 16)), ((2 : Nat)), ((let s : State := barred; let s : State := setSlice ((0 : Fin 16)) (fun zz => { zz with bankPending := 0 }) s; let s : State := setGroup 2 (fun zz => { zz with st := .armed, objs := [{ kind := 3 }] }) s; s : State)), by decide +kernel⟩,
   ⟨((0 : Fin 16)), ((let s : State := ready; let s : State := setSlice ((0 : Fin 16)) (fun zz => { zz with bankPending := 1 }) s; s : State)), by decide +kernel⟩⟩

theorem test_wit_ScreeningCommands :
    (∃ (k : _) (c : _) (s : _), Rung 0x0400 1 k c s ∧ (s.host.opState ≠ .boot) ∧ ((c.w 0).toNat < 2)) ∧
    (∃ (k : _) (c : _) (s : _) (L : Nat), Rung 0x0401 6 k c s ∧ (c.w 0 = 0) ∧ ((c.w 1).toNat % 4096 = 0) ∧ (rowImageSize s.cg.modules ≤ (c.w 3).toNat) ∧ (namedLine (c.w 4) (c.w 5) s = some L) ∧ (s.scr.job = none) ∧ (s.host.opState = .ready ∨ s.host.opState = .print ∨ s.host.opState = .service) ∧ (s.host.outst.length < 16) ∧ (anyBegan L s = false)) ∧
    (∃ (k : _) (c : _) (s : _) (L : Nat), Rung 0x0401 6 k c s ∧ (c.w 0 = 0) ∧ ((c.w 1).toNat % 4096 = 0) ∧ (rowImageSize s.cg.modules ≤ (c.w 3).toNat) ∧ (namedLine (c.w 4) (c.w 5) s = some L) ∧ (s.scr.job = none) ∧ (s.host.opState = .ready ∨ s.host.opState = .print ∨ s.host.opState = .service) ∧ (s.host.outst.length < 16) ∧ (anyBegan L s = true)) ∧
    (∃ (tag : Word) (a : Nat) (ep : Word) (ln : Word) (L : Nat) (p : Nat) (parts : List (Nat × List Byte)) (s : State), (s.scr.job = some (.save tag a ep ln L p parts)) ∧ ((barOf (objsAt L s)).modules ≤ parts.length) ∧ (s.host.busMaster = false)) ∧
    (∃ (tag : Word) (a : Nat) (ep : Word) (ln : Word) (L : Nat) (p : Nat) (parts : List (Nat × List Byte)) (s : State), (s.scr.job = some (.save tag a ep ln L p parts)) ∧ ((barOf (objsAt L s)).modules ≤ parts.length) ∧ (s.host.busMaster = true)) ∧
    (∃ (k : _) (c : _) (s : _), Rung 0x0402 4 k c s ∧ (c.w 0 = 0) ∧ ((c.w 1).toNat % 4096 = 0) ∧ (s.scr.job = none) ∧ (s.twin.role = .listen ∨ s.twin.role = .standby) ∧ (s.host.opState ≠ .boot) ∧ (s.host.outst.length < 16)) ∧
    (∃ (tag : Word) (L : Nat) (taken : List Nat) (s : State) (u : State) (img : List Byte) (a : Nat), (s.scr.job = some (.load (some tag) none L taken)) ∧ (s.twin.joining = none) ∧ (u = { s with scr := { s.scr with job := none } }) ∧ (imageCheck img s = (1, a))) ∧
    (∃ (tag : Word) (L : Nat) (taken : List Nat) (s : State) (u : State) (img : List Byte) (a : Nat), (s.scr.job = some (.load (some tag) none L taken)) ∧ (s.twin.joining = none) ∧ (u = { s with scr := { s.scr with job := none } }) ∧ (imageCheck img s = (2, a))) ∧
    (∃ (tag : Word) (L : Nat) (taken : List Nat) (s : State) (u : State) (img : List Byte) (a : Nat), (s.scr.job = some (.load (some tag) none L taken)) ∧ (s.twin.joining = none) ∧ (u = { s with scr := { s.scr with job := none } }) ∧ (imageCheck img s = (3, a))) ∧
    (∃ (tag : Word) (L : Nat) (taken : List Nat) (s : State) (u : State) (img : List Byte) (a : Nat), (s.scr.job = some (.load (some tag) none L taken)) ∧ (s.twin.joining = none) ∧ (u = { s with scr := { s.scr with job := none } }) ∧ (imageCheck img s = (0, a))) ∧
    (∃ (k : _) (c : _) (s : _) (L : Nat), Rung 0x0403 3 k c s ∧ ((c.w 0).toNat < colsPer * s.cg.modules) ∧ ((c.w 0).toNat < 65536) ∧ (namedLine (c.w 1) (c.w 2) s = some L) ∧ (s.scr.job = none) ∧ (s.host.opState ≠ .boot) ∧ (s.host.outst.length < 16) ∧ ((s.slice ((c.w 0).toNat / colsPer)).busy ≠ some L) ∧ ((s.slice ((c.w 0).toNat / colsPer)).next ≤ L)) :=
  ⟨⟨((0 : Fin 16)), ((mkCmd 0x0400 [0] : RungCmd)), ((let s : State := (ring ((mkCmd 0x0400 [0] : RungCmd)) ready); s : State)), rung_ok (by decide +kernel), by decide +kernel⟩,
   ⟨((0 : Fin 16)), ((mkCmd 0x0401 [0, 0, 0, 2000000, 0, 0] : RungCmd)), ((let s : State := (ring ((mkCmd 0x0401 [0, 0, 0, 2000000, 0, 0] : RungCmd)) barred); let s : State := { s with cg.imgKeyEpoch := 500, scr.slices := s.scr.slices.map fun x => { x with next := 500 } }; s : State)), ((((let s : State := (ring ((mkCmd 0x0401 [0, 0, 0, 2000000, 0, 0] : RungCmd)) barred); let s : State := { s with cg.imgKeyEpoch := 500, scr.slices := s.scr.slices.map fun x => { x with next := 500 } }; s : State)).cg.imgKeyEpoch : Nat)), rung_ok (by decide +kernel), by decide +kernel⟩,
   ⟨((0 : Fin 16)), ((mkCmd 0x0401 [0, 0, 0, 2000000, 0, 0] : RungCmd)), ((let s : State := (ring ((mkCmd 0x0401 [0, 0, 0, 2000000, 0, 0] : RungCmd)) barred); let s : State := { s with cg.imgKeyEpoch := 500, scr.slices := s.scr.slices.map fun x => { x with next := 501 } }; s : State)), ((((let s : State := (ring ((mkCmd 0x0401 [0, 0, 0, 2000000, 0, 0] : RungCmd)) barred); let s : State := { s with cg.imgKeyEpoch := 500, scr.slices := s.scr.slices.map fun x => { x with next := 501 } }; s : State)).cg.imgKeyEpoch : Nat)), rung_ok (by decide +kernel), by decide +kernel⟩,
   ⟨((0 : Word)), ((0 : Nat)), ((0 : Word)), ((0 : Word)), ((0 : Nat)), ((0 : Nat)), (([] : List (Nat × List Byte))), ((let s : State := ready; let s : State := { s with scr.job := some (.save ((0 : Word)) ((0 : Nat)) ((0 : Word)) ((0 : Word)) ((0 : Nat)) ((0 : Nat)) (([] : List (Nat × List Byte)))) }; let s : State := { s with host.busMaster := false }; s : State)), by decide +kernel⟩,
   ⟨((0 : Word)), ((0 : Nat)), ((0 : Word)), ((0 : Word)), ((0 : Nat)), ((0 : Nat)), (([] : List (Nat × List Byte))), ((let s : State := ready; let s : State := { s with scr.job := some (.save ((0 : Word)) ((0 : Nat)) ((0 : Word)) ((0 : Word)) ((0 : Nat)) ((0 : Nat)) (([] : List (Nat × List Byte)))) }; let s : State := { s with host.busMaster := true }; s : State)), by decide +kernel⟩,
   ⟨((0 : Fin 16)), ((mkCmd 0x0402 [0, 0, 0, 0] : RungCmd)), ((let s : State := (ring ((mkCmd 0x0402 [0, 0, 0, 0] : RungCmd)) ready); let s : State := { s with scr.job := none }; let s : State := { s with twin.role := .listen }; s : State)), rung_ok (by decide +kernel), by decide +kernel⟩,
   ⟨((0 : Word)), ((0 : Nat)), (([] : List Nat)), ((let s : State := ready; let s : State := { s with scr.job := some (.load (some ((0 : Word))) none ((0 : Nat)) (([] : List Nat))) }; let s : State := { s with twin.joining := none }; s : State)), (({ ((let s : State := ready; let s : State := { s with scr.job := some (.load (some ((0 : Word))) none ((0 : Nat)) (([] : List Nat))) }; let s : State := { s with twin.joining := none }; s : State)) with scr := { ((let s : State := ready; let s : State := { s with scr.job := some (.load (some ((0 : Word))) none ((0 : Nat)) (([] : List Nat))) }; let s : State := { s with twin.joining := none }; s : State)).scr with job := none } } : State)), (([] : List Byte)), ((0 : Nat)), by decide +kernel⟩,
   ⟨((0 : Word)), ((0 : Nat)), (([] : List Nat)), ((let s : State := ready; let s : State := { s with scr.job := some (.load (some ((0 : Word))) none ((0 : Nat)) (([] : List Nat))) }; let s : State := { s with twin.joining := none }; s : State)), (({ ((let s : State := ready; let s : State := { s with scr.job := some (.load (some ((0 : Word))) none ((0 : Nat)) (([] : List Nat))) }; let s : State := { s with twin.joining := none }; s : State)) with scr := { ((let s : State := ready; let s : State := { s with scr.job := some (.load (some ((0 : Word))) none ((0 : Nat)) (([] : List Nat))) }; let s : State := { s with twin.joining := none }; s : State)).scr with job := none } } : State)), ((([0, 0, 8] ++ List.replicate 13 0 ++ [219, 100, 39, 8] ++ List.replicate 40 0 ++ [96, 216, 182, 160]) : List Byte)), ((0 : Nat)), by decide +kernel⟩,
   ⟨((0 : Word)), ((0 : Nat)), (([] : List Nat)), ((let s : State := ready; let s : State := { s with scr.job := some (.load (some ((0 : Word))) none ((0 : Nat)) (([] : List Nat))) }; let s : State := { s with twin.joining := none }; s : State)), (({ ((let s : State := ready; let s : State := { s with scr.job := some (.load (some ((0 : Word))) none ((0 : Nat)) (([] : List Nat))) }; let s : State := { s with twin.joining := none }; s : State)) with scr := { ((let s : State := ready; let s : State := { s with scr.job := some (.load (some ((0 : Word))) none ((0 : Nat)) (([] : List Nat))) }; let s : State := { s with twin.joining := none }; s : State)).scr with job := none } } : State)), ((([0, 0, 4, 0, 9] ++ List.replicate 11 0 ++ [219, 100, 39, 8] ++ List.replicate 40 0 ++ [88, 182, 164, 34]) : List Byte)), ((0 : Nat)), by decide +kernel⟩,
   ⟨((0 : Word)), ((0 : Nat)), (([] : List Nat)), ((let s : State := ready; let s : State := { s with scr.job := some (.load (some ((0 : Word))) none ((0 : Nat)) (([] : List Nat))) }; let s : State := { s with twin.joining := none }; s : State)), (({ ((let s : State := ready; let s : State := { s with scr.job := some (.load (some ((0 : Word))) none ((0 : Nat)) (([] : List Nat))) }; let s : State := { s with twin.joining := none }; s : State)) with scr := { ((let s : State := ready; let s : State := { s with scr.job := some (.load (some ((0 : Word))) none ((0 : Nat)) (([] : List Nat))) }; let s : State := { s with twin.joining := none }; s : State)).scr with job := none } } : State)), (((List.replicate 16 0 ++ [219, 100, 39, 8] ++ List.replicate 40 0 ++ [80, 133, 54, 199]) : List Byte)), ((0 : Nat)), by decide +kernel⟩,
   ⟨((0 : Fin 16)), ((mkCmd 0x0403 [0, 0, 0] : RungCmd)), ((let s : State := (ring ((mkCmd 0x0403 [0, 0, 0] : RungCmd)) barred); let s : State := { s with scr.job := none }; let s : State := { s with cg.imgKeyEpoch := 500 }; s : State)), ((500 : Nat)), rung_ok (by decide +kernel), by decide +kernel⟩⟩

theorem test_wit_Trains :
    (∃ (m : Fin 16) (fire : Nat) (row : Fin 4) (grp : Fin 8) (tx : Nat) (x : Samples) (s : State) (u : State), (u = mainUpdate (advance x s)) ∧ (findTrain m fire row grp u = none)) ∧
    (∃ (m : Fin 16) (fire : Nat) (row : Fin 4) (grp : Fin 8) (tx : Nat) (x : Samples) (s : State) (u : State) (t : Train) (d : Int), (u = mainUpdate (advance x s)) ∧ (findTrain m fire row grp u = some t) ∧ (stepsTo (t.target u) u = some d) ∧ (t.st = .waiting ∨ t.st = .prepared)) ∧
    (∃ (m : Fin 16) (fire : Nat) (row : Fin 4) (grp : Fin 8) (tx : Nat) (x : Samples) (s : State) (u : State) (t : Train), (u = mainUpdate (advance x s)) ∧ (findTrain m fire row grp u = some t) ∧ (t.st = .postponed)) ∧
    (∃ (m : Fin 16) (fire : Nat) (row : Fin 4) (grp : Fin 8) (tx : Nat) (x : Samples) (s : State) (u : State) (t : Train) (d : Int), (u = mainUpdate (advance x s)) ∧ (findTrain m fire row grp u = some t) ∧ (stepsTo (t.target u) u = some d) ∧ (t.st = .waiting) ∧ (d < 9600) ∧ (0 < t.preLen u) ∧ (prepTurn t u = true) ∧ ((u.lane m).st = .active)) ∧
    (∃ (t : Train) (s : State), (forward s = false ∨ lineOpen t.fire s = false ∨ sendsFrames s = false ∨ stopExpired s = true)) ∧
    (∃ (m : Fin 16) (fire : Nat) (row : Fin 4) (grp : Fin 8) (s : State) (t : Train) (at_ : Dword), (findTrain m fire row grp s = some t) ∧ (t.open_ = true) ∧ (t.fire ≤ s.pos.absHigh) ∧ (s.fire.stopAt = some at_) ∧ (at_.toNat + 100000 ≤ s.pos.mono.toNat)) ∧
    (∃ (m : Fin 16) (fire : Nat) (row : Fin 4) (grp : Fin 8) (s : State) (t : Train) (at_ : Dword), (findTrain m fire row grp s = some t) ∧ (t.open_ = true) ∧ (t.fire ≤ s.pos.absHigh) ∧ (s.fire.stopAt = some at_) ∧ (s.pos.mono.toNat < at_.toNat + 100000)) ∧
    (∃ (m : Fin 16) (fire : Nat) (row : Fin 4) (grp : Fin 8) (s : State) (t : Train), (findTrain m fire row grp s = some t) ∧ (t.open_ = true) ∧ (t.fire ≤ s.pos.absHigh) ∧ (s.fire.stopAt = none)) ∧
    (∃ (first : Bool) (t : Train) (tx : Nat) (wanted : Int) (main : Int) (b : Int) (s : State), (main = max wanted (nowSteps s + tx + linkDelay t.mod s)) ∧ (boundaryIn (t.fire + 2) s = some b) ∧ (nowSteps s + b ≤ guardedStart t main s)) ∧
    (∃ (first : Bool) (t : Train) (tx : Nat) (wanted : Int) (main : Int) (b : Int) (s : State), (main = max wanted (nowSteps s + tx + linkDelay t.mod s)) ∧ (boundaryIn (t.fire + 2) s = some b) ∧ (guardedStart t main s < nowSteps s + b) ∧ (guardedStart t main s = main - t.preLen s)) :=
  ⟨⟨((0 : Fin 16)), ((0 : Nat)), ((0 : Fin 4)), ((0 : Fin 8)), ((0 : Nat)), (([] : Samples)), ((let s : State := printing; s : State)), ((mainUpdate (advance (([] : Samples)) ((let s : State := printing; s : State))) : State)), by decide +kernel⟩,
   ⟨((0 : Fin 16)), ((10 : Nat)), ((0 : Fin 4)), ((0 : Fin 8)), ((0 : Nat)), (([] : Samples)), ((let s : State := printing; s : State)), ((mainUpdate (advance (([] : Samples)) ((let s : State := printing; s : State))) : State)), (({ fire := 10 } : Train)), ((0 : Int)), by decide +kernel⟩,
   ⟨((0 : Fin 16)), ((10 : Nat)), ((0 : Fin 4)), ((0 : Fin 8)), ((0 : Nat)), (([] : Samples)), ((let s : State := printing; let s : State := { s with fire.trains := [{ fire := 10, st := .postponed, tMain := 5 }] }; s : State)), ((mainUpdate (advance (([] : Samples)) ((let s : State := printing; let s : State := { s with fire.trains := [{ fire := 10, st := .postponed, tMain := 5 }] }; s : State))) : State)), (({ fire := 10, st := .postponed, tMain := 5 } : Train)), by decide +kernel⟩,
   ⟨((0 : Fin 16)), ((10 : Nat)), ((0 : Fin 4)), ((0 : Fin 8)), ((0 : Nat)), (([] : Samples)), ((let s : State := printing; s : State)), ((mainUpdate (advance (([] : Samples)) ((let s : State := printing; s : State))) : State)), (({ fire := 10 } : Train)), ((0 : Int)), by decide +kernel⟩,
   ⟨(({ fire := 10 } : Train)), ((let s : State := ready; s : State)), by decide +kernel⟩,
   ⟨((0 : Fin 16)), ((10 : Nat)), ((0 : Fin 4)), ((0 : Fin 8)), ((let s : State := printing; let s : State := { s with fire.stopAt := some 0 }; s : State)), (({ fire := 10 } : Train)), ((0 : Dword)), by decide +kernel⟩,
   ⟨((0 : Fin 16)), ((10 : Nat)), ((0 : Fin 4)), ((0 : Fin 8)), ((let s : State := printing; let s : State := { s with fire.stopAt := some 1000000000000 }; s : State)), (({ fire := 10 } : Train)), ((1000000000000 : Dword)), by decide +kernel⟩,
   ⟨((0 : Fin 16)), ((10 : Nat)), ((0 : Fin 4)), ((0 : Fin 8)), ((let s : State := printing; let s : State := { s with fire.stopAt := none }; s : State)), (({ fire := 10 } : Train)), by decide +kernel⟩,
   ⟨((false : Bool)), (({ fire := 10 } : Train)), ((0 : Nat)), ((3200000900000 : Int)), ((max ((3200000900000 : Int)) (nowSteps ((let s : State := printing; s : State)) + ((0 : Nat)) + linkDelay (({ fire := 10 } : Train)).mod ((let s : State := printing; s : State))) : Int)), ((8192 : Int)), ((let s : State := printing; s : State)), by decide +kernel⟩,
   ⟨((false : Bool)), (({ fire := 10 } : Train)), ((0 : Nat)), ((0 : Int)), ((max ((0 : Int)) (nowSteps ((let s : State := printing; s : State)) + ((0 : Nat)) + linkDelay (({ fire := 10 } : Train)).mod ((let s : State := printing; s : State))) : Int)), ((8192 : Int)), ((let s : State := printing; s : State)), by decide +kernel⟩⟩

theorem test_wit_TrainGuards :
    (∃ (t : Train) (main : Int) (l : Int) (d : Drop) (s : State), (d ∈ t.drops s) ∧ (find? s.fire.lastMain (d.col, d.row) = some l)) ∧
    (∃ (m : Nat) (fuel : Nat) (own : List (Int × Int × Nat)) (main : Int) (s : State), (heaterGuard m own s fuel main ≠ main)) ∧
    (∃ (m : Nat) (fuel : Nat) (own : List (Int × Int × Nat)) (main : Int) (s : State), (s.fire.heaters.length * own.length ≤ fuel) ∧ ((own.map fun x => x.2.2).sum ≤ heaterLimit m s)) :=
  ⟨⟨(({ fire := 10 } : Train)), ((0 : Int)), ((77 : Int)), (({ fire := 10, col := 0, row := 0, code := 1, img := 10 } : Drop)), ((let s : State := printing; let s : State := { s with fire.lastMain := [((0, 0), 77)] }; s : State)), by decide +kernel⟩,
   ⟨((0 : Nat)), ((2 : Nat)), (([(5, 50, 5)] : List (Int × Int × Nat))), ((0 : Int)), ((let s : State := printing; let s : State := { s with fire.maxHeaters := 5, fire.heaters := [(0, 0, 50, 5)] }; s : State)), by decide +kernel⟩,
   ⟨((0 : Nat)), ((2 : Nat)), (([(5, 50, 5)] : List (Int × Int × Nat))), ((0 : Int)), ((let s : State := printing; let s : State := { s with fire.maxHeaters := 5, fire.heaters := [(0, 0, 50, 5)] }; s : State)), by decide +kernel⟩⟩

theorem test_wit_HeadHeat :
    (∃ (m : Nat) (z : Nat) (v : Nat) (T : Nat) (s : State), (m < s.cg.modules) ∧ (z < 8) ∧ ((cell s.fire.zones m []).length = 8) ∧ (m < s.fire.zones.length) ∧ (tripLevel s = some T) ∧ (T ≤ v)) ∧
    (∃ (m : Nat) (z : Nat) (v : Nat) (T : Nat) (s : State), (m < s.cg.modules) ∧ (z < 8) ∧ ((cell s.fire.zones m []).length = 8) ∧ (m < s.fire.zones.length) ∧ (tripLevel s = some T) ∧ (v < T)) ∧
    (∃ (m : Fin 16) (s : State), (m.val < s.cg.modules) ∧ (s.fire.zones.length = 16) ∧ (∀ l ∈ s.fire.zones, l.length = 8) ∧ ((s.lane m).readAt.toNat + 20000 ≤ s.pos.mono.toNat) ∧ (∃ z, z < 8 ∧ (s.zone m z).stale = false) ∧ (∀ z, z < 8 → (s.zone m z).trip = false)) ∧
    (∃ (m : Fin 16) (s : State), (s.pos.mono.toNat < (s.lane m).readAt.toNat + 20000)) :=
  ⟨⟨((0 : Nat)), ((0 : Nat)), ((70 : Nat)), ((70 : Nat)), ((let s : State := ready; let s : State := { s with cg.modules := (((0 : Nat)) + 1) }; let s : State := { s with fire.tTrip := some 70 }; s : State)), by decide +kernel⟩,
   ⟨((0 : Nat)), ((0 : Nat)), ((69 : Nat)), ((70 : Nat)), ((let s : State := ready; let s : State := { s with cg.modules := (((0 : Nat)) + 1) }; let s : State := { s with fire.tTrip := some 70 }; let s : State := setZone 0 0 (fun zz => { zz with trip := true }) s; s : State)), by decide +kernel⟩,
   ⟨((0 : Fin 16)), ((let s : State := ready; let s : State := { s with cg.modules := (((0 : Fin 16)).val + 1) }; let s : State := { s with pos.mono := 20000 }; s : State)), by decide +kernel⟩,
   ⟨((0 : Fin 16)), ((let s : State := ready; let s : State := setLane ((0 : Fin 16)) (fun zz => { zz with readAt := s.pos.mono }) s; s : State)), by decide +kernel⟩⟩

theorem test_wit_Overspeed :
    (∃ (s : State), (s.cg.fLim ≠ 0) ∧ (103 * s.cg.fLim < 100 * s.fire.rate.toNat) ∧ (s.fire.overHold = false)) ∧
    (∃ (s : State), (s.fire.rate.toNat ≤ s.cg.fLim)) ∧
    (∃ (s : State), (s.cg.fLim < s.fire.rate.toNat)) ∧
    (∃ (s : State), (100 * s.fire.rate.toNat ≤ 103 * s.cg.fLim)) ∧
    (∃ (s : State) (a : _), (s.fire.acc.length = 16) ∧ (∀ a ∈ s.fire.acc, a < 65536) ∧ (a ∈ (diffuse s).1)) ∧
    (∃ (s : State), (s.fire.overHold = true) ∧ (s.fire.slowRun < 64)) ∧
    (∃ (s : State), (s.fire.overHold = true) ∧ (64 ≤ s.fire.slowRun) ∧ (s.fire.autoResume = true)) :=
  ⟨⟨((let s : State := ready; let s : State := { s with cg.fLim := 1 }; let s : State := { s with fire.overHold := false }; let s : State := { s with cg.fLim := 1000, fire.rate := 1031 }; s : State)), by decide +kernel⟩,
   ⟨((let s : State := ready; let s : State := { s with cg.fLim := s.fire.rate.toNat }; s : State)), by decide +kernel⟩,
   ⟨((let s : State := ready; let s : State := { s with cg.fLim := 5, fire.rate := 9 }; s : State)), by decide +kernel⟩,
   ⟨((let s : State := ready; s : State)), by decide +kernel⟩,
   ⟨((let s : State := ready; s : State)), ((0 : Nat)), by decide +kernel⟩,
   ⟨((let s : State := ready; let s : State := { s with fire.overHold := true }; s : State)), by decide +kernel⟩,
   ⟨((let s : State := ready; let s : State := { s with fire.overHold := true }; let s : State := { s with fire.slowRun := 64 }; let s : State := { s with fire.autoResume := true }; s : State)), by decide +kernel⟩⟩

theorem test_wit_FireCommands :
    (∃ (k : _) (c : _) (s : _), Rung 0x0500 1 k c s ∧ (s.host.opState ≠ .boot) ∧ ((c.w 0).toNat < 2)) ∧
    (∃ (k : _) (c : _) (s : _), Rung 0x0501 3 k c s ∧ (fld (c.w 0) 0 18 ≤ 0x8000) ∧ (408 ≤ fld (c.w 0) 20 12) ∧ (fld (c.w 0) 20 12 ≤ 3264) ∧ (c.w 1 &&& ~~~ 0x07FFFFFF = 0) ∧ (2 ≤ fld (c.w 1) 16 8) ∧ (fld (c.w 1) 16 8 ≤ 40) ∧ (∀ t, lowestTMax s = some t → fld (c.w 1) 8 8 ≤ t) ∧ (0x9334 ≤ (c.w 2).toNat) ∧ ((c.w 2).toNat ≤ 0xC000) ∧ (s.host.firing = false)) ∧
    (∃ (k : _) (c : _) (s : _), Rung 0x0502 0 k c s ∧ (s.host.opState = .print ∨ s.host.opState = .service) ∧ (s.fire.heatHold = false ∨ coolEnough s = true)) ∧
    (∃ (k : _) (c : _) (s : _), Rung 0x0502 0 k c s ∧ (s.host.opState = .print ∨ s.host.opState = .service) ∧ (s.fire.heatHold = true) ∧ (coolEnough s = false)) ∧
    (∃ (k : _) (c : _) (s : _), Rung 0x0503 4 k c s ∧ (flag (c.w 0) 0 = true) ∧ (c.w 0 &&& ~~~ 0x1FFF1 = 0) ∧ (1 ≤ fld (c.w 0) 4 4) ∧ (fld (c.w 0) 4 4 ≤ 8) ∧ (1 ≤ fld (c.w 0) 8 4) ∧ (fld (c.w 0) 8 4 ≤ 8) ∧ (2 ≤ fld (c.w 0) 12 5) ∧ (fld (c.w 0) 12 5 ≤ 16) ∧ (c.w 3 &&& ~~~ 0xFFFFF = 0) ∧ (s.fire.probe = none) ∧ (s.host.opState = .ready ∨ s.host.opState = .print) ∧ (s.host.outst.length < 16) ∧ (probeLate (c.w 1) (c.w 2) s = false)) ∧
    (∃ (k : _) (c : _) (s : _), Rung 0x0503 4 k c s ∧ (c.w 0 = 0) ∧ (c.w 3 &&& ~~~ 0xFFFFF = 0) ∧ (s.host.opState = .ready ∨ s.host.opState = .print)) ∧
    (∃ (k : _) (c : _) (s : _), Rung 0x0504 3 k c s ∧ ((c.w 0).toNat < 65536) ∧ ((c.w 1).toNat % 4096 = 0) ∧ (s.fire.meas = none) ∧ (s.host.opState = .ready ∨ s.host.opState = .service ∨ s.host.opState = .print) ∧ (s.twin.role = .solo ∨ s.twin.role = .active) ∧ (s.host.firing = false) ∧ (s.host.outst.length < 16)) ∧
    (∃ (j : MeasJob) (s : State), (s.fire.meas = some j) ∧ (measureFull j s = true) ∧ (s.host.busMaster = true)) ∧
    (∃ (k : _) (c : _) (s : _), Rung 0x0505 3 k c s ∧ (c.w 0 &&& ~~~ 0x3FFFF = 0) ∧ (fld (c.w 0) 16 2 ≠ 0) ∧ (1000 ≤ (c.w 1).toNat) ∧ ((c.w 1).toNat ≤ 20000) ∧ ((c.w 2).toNat < 65536) ∧ (s.host.opState = .service) ∧ (s.fire.spit = none) ∧ (s.permits 2 = true) ∧ (s.permits 3 = true) ∧ (s.permits 4 = true) ∧ (s.host.outst.length < 16)) ∧
    (∃ (k : _) (c : _) (s : _), Rung 0x0505 3 k c s ∧ (c.w 0 &&& ~~~ 0x3FFFF = 0) ∧ (fld (c.w 0) 16 2 ≠ 0) ∧ (1000 ≤ (c.w 1).toNat) ∧ ((c.w 1).toNat ≤ 20000) ∧ ((c.w 2).toNat < 65536) ∧ (s.host.opState = .service) ∧ (s.fire.spit = none) ∧ (s.permits 2 = false)) :=
  ⟨⟨((0 : Fin 16)), ((mkCmd 0x0500 [0] : RungCmd)), ((let s : State := (ring ((mkCmd 0x0500 [0] : RungCmd)) ready); s : State)), rung_ok (by decide +kernel), by decide +kernel⟩,
   ⟨((0 : Fin 16)), ((mkCmd 0x0501 [(0 + 427819008), (0 + 131072), 0x9334] : RungCmd)), ((let s : State := (ring ((mkCmd 0x0501 [(0 + 427819008), (0 + 131072), 0x9334] : RungCmd)) ready); let s : State := { s with host.firing := false }; s : State)), rung_ok (by decide +kernel), by decide +kernel, by decide +kernel, by decide +kernel, by decide +kernel, by decide +kernel, by decide +kernel, every_some (by decide +kernel), by decide +kernel⟩,
   ⟨((0 : Fin 16)), ((mkCmd 0x0502 [] : RungCmd)), ((let s : State := (ring ((mkCmd 0x0502 [] : RungCmd)) ready); let s : State := { s with host.opState := .print }; let s : State := { s with fire.heatHold := false }; s : State)), rung_ok (by decide +kernel), by decide +kernel⟩,
   ⟨((0 : Fin 16)), ((mkCmd 0x0502 [] : RungCmd)), ((let s : State := (ring ((mkCmd 0x0502 [] : RungCmd)) ready); let s : State := { s with host.opState := .print }; let s : State := { s with fire.heatHold := true }; let s : State := { s with fire.tTrip := some 70 }; let s : State := setZone 0 0 (fun zz => { zz with trip := true }) s; s : State)), rung_ok (by decide +kernel), by decide +kernel⟩,
   ⟨((0 : Fin 16)), ((mkCmd 0x0503 [((((0 + 1) + 16) + 256) + 8192), 0, 0, 0] : RungCmd)), ((let s : State := (ring ((mkCmd 0x0503 [((((0 + 1) + 16) + 256) + 8192), 0, 0, 0] : RungCmd)) ready); let s : State := { s with fire.probe := none }; let s : State := { s with host.opState := .ready }; s : State)), rung_ok (by decide +kernel), by decide +kernel⟩,
   ⟨((0 : Fin 16)), ((mkCmd 0x0503 [0, 0, 0, 0] : RungCmd)), ((let s : State := (ring ((mkCmd 0x0503 [0, 0, 0, 0] : RungCmd)) ready); let s : State := { s with host.opState := .ready }; s : State)), rung_ok (by decide +kernel), by decide +kernel⟩,
   ⟨((0 : Fin 16)), ((mkCmd 0x0504 [0, 0, 0] : RungCmd)), ((let s : State := (ring ((mkCmd 0x0504 [0, 0, 0] : RungCmd)) ready); let s : State := { s with fire.meas := none }; let s : State := { s with host.opState := .ready }; let s : State := { s with twin.role := .solo }; let s : State := { s with host.firing := false }; s : State)), rung_ok (by decide +kernel), by decide +kernel⟩,
   ⟨(({ tag := 3, mods := [], addr := 4096 } : MeasJob)), ((let s : State := ready; let s : State := { s with fire.meas := some (({ tag := 3, mods := [], addr := 4096 } : MeasJob)) }; let s : State := { s with host.busMaster := true }; s : State)), by decide +kernel⟩,
   ⟨((0 : Fin 16)), ((mkCmd 0x0505 [(0 + 65536), 1000, 0] : RungCmd)), ((let s : State := (ring ((mkCmd 0x0505 [(0 + 65536), 1000, 0] : RungCmd)) ready); let s : State := { s with host.opState := .service }; let s : State := { s with fire.spit := none }; let s : State := { s with onyx.permMain := 15, onyx.permOnyx := 15 }; s : State)), rung_ok (by decide +kernel), by decide +kernel⟩,
   ⟨((0 : Fin 16)), ((mkCmd 0x0505 [(0 + 65536), 1000, 0] : RungCmd)), ((let s : State := (ring ((mkCmd 0x0505 [(0 + 65536), 1000, 0] : RungCmd)) ready); let s : State := { s with host.opState := .service }; let s : State := { s with fire.spit := none }; s : State)), rung_ok (by decide +kernel), by decide +kernel⟩⟩

theorem test_wit_LaneTraining :
    (∃ (m : Fin 16) (s : State) (a : _) (b : _), (s.hl.lanes.length = 16) ∧ ((s.lane m).st = .detect) ∧ ((s.lane m).idleHeld = false) ∧ (s.twin.prsnt = true) ∧ ((cell s.pwr.islands 2 {}).on = true) ∧ (∀ x, (s.lane m).detectAt = some x → x.toNat + 1000000 ≤ s.pos.mono.toNat) ∧ (a = false ∨ b = false)) ∧
    (∃ (m : Fin 16) (a : Bool) (b : Bool) (x : Dword) (s : State), ((s.lane m).detectAt = some x) ∧ (s.pos.mono.toNat < x.toNat + 1000000)) ∧
    (∃ (m : Fin 16) (ty : Byte) (v : Byte) (c : Byte) (s : State), (s.hl.lanes.length = 16) ∧ ((s.lane m).st = .poll) ∧ ((s.lane m).idleHeld = false) ∧ (setGood ty v c = false ∨ (ty ≠ 1 ∧ ty ≠ 2))) ∧
    (∃ (m : Fin 16) (ty : Byte) (v : Byte) (c : Byte) (s : State), (s.hl.lanes.length = 16) ∧ ((s.lane m).st = .poll) ∧ ((s.lane m).idleHeld = false) ∧ (setGood ty v c = true) ∧ (ty = 1 ∨ ty = 2) ∧ ((s.lane m).tsCount + 1 < 8)) ∧
    (∃ (m : Fin 16) (ty : Byte) (v : Byte) (c : Byte) (s : State), (s.hl.lanes.length = 16) ∧ ((s.lane m).st = .poll) ∧ ((s.lane m).idleHeld = false) ∧ (setGood ty v c = true) ∧ (ty = 1 ∨ ty = 2) ∧ (8 ≤ (s.lane m).tsCount + 1)) ∧
    (∃ (m : Fin 16) (v : Byte) (c : Byte) (s : State), ((s.lane m).st = .config) ∧ ((s.lane m).idleHeld = false) ∧ (setGood 2 v c = true) ∧ (v.toNat = m.val)) ∧
    (∃ (m : Fin 16) (v : Byte) (c : Byte) (s : State), ((s.lane m).st = .recovery) ∧ ((s.lane m).idleHeld = false) ∧ (setGood 1 v c = true) ∧ (8 ≤ (s.lane m).tsCount + 1)) ∧
    (∃ (m : Fin 16) (w : List Byte) (h : List Byte) (eyes : List (BitVec 16)) (s : State), (eyes = eyesOf w h) ∧ (s.hl.lanes.length = 16) ∧ ((s.lane m).st = .equalise) ∧ ((s.lane m).ctleFixed = false) ∧ ((s.lane m).ctleDone = false) ∧ ((s.lane m).enteredAt.toNat + 1024000 ≤ s.pos.mono.toNat)) ∧
    (∃ (m : Fin 16) (words : List Word) (s : State), (s.hl.lanes.length = 16) ∧ ((s.lane m).st = .config) ∧ (capReason m (words.take 16) none = none)) ∧
    (∃ (m : Fin 16) (words : List Word) (s : State) (r : Nat), (s.hl.lanes.length = 16) ∧ ((s.lane m).st = .config) ∧ (capReason m (words.take 16) none = some r)) ∧
    (∃ (m : Fin 16) (s : State), (s.hl.lanes.length = 16) ∧ ((s.lane m).st = .latency) ∧ ((s.lane m).idleHeld = false) ∧ ((s.lane m).echoSent < 16) ∧ ((s.lane m).echoSent = 0 ∨ (s.lane m).echoAt.toNat + 4000 ≤ s.pos.mono.toNat)) ∧
    (∃ (m : Fin 16) (s : State), (s.hl.lanes.length = 16) ∧ ((s.lane m).st = .latency) ∧ ((s.lane m).idleHeld = false) ∧ ((s.lane m).echoSent ≠ 0) ∧ (s.pos.mono.toNat < (s.lane m).echoAt.toNat + 4000)) ∧
    (∃ (m : Fin 16) (s : State) (id : Byte) (c : Byte) (trip : Nat), (s.hl.lanes.length = 16) ∧ ((s.lane m).st = .latency) ∧ ((s.lane m).idleHeld = false) ∧ (setGood 5 id c = true) ∧ (id.toNat < (s.lane m).echoSent) ∧ ((s.lane m).echoIds.getLsbD id.toNat = false) ∧ ((s.lane m).echoSeen + 1 < 16)) ∧
    (∃ (m : Fin 16) (s : State) (id : Byte) (c : Byte) (trip : Nat), (s.hl.lanes.length = 16) ∧ ((s.lane m).st = .latency) ∧ ((s.lane m).idleHeld = false) ∧ (setGood 5 id c = false ∨ (s.lane m).echoIds.getLsbD id.toNat = true)) ∧
    (∃ (m : Fin 16) (s : State) (id : Byte) (c : Byte) (trip : Nat) (lat : Nat), (s.hl.lanes.length = 16) ∧ ((s.lane m).st = .latency) ∧ ((s.lane m).idleHeld = false) ∧ (setGood 5 id c = true) ∧ (id.toNat < (s.lane m).echoSent) ∧ ((s.lane m).echoIds.getLsbD id.toNat = false) ∧ ((s.lane m).echoSeen = 15) ∧ (lat = latOf ((s.lane m).echoSum + trip) (fld (wd ((s.lane m).capNext.getD []) 7) 16 16))) ∧
    (∃ (m : Fin 16) (ns : Nat) (s : State), ((s.lane m).st.timeout = some ns) ∧ ((s.lane m).enteredAt.toNat + ns ≤ s.pos.mono.toNat)) ∧
    (∃ (m : Fin 16) (ns : Nat) (s : State), ((s.lane m).st.timeout = some ns) ∧ (s.pos.mono.toNat < (s.lane m).enteredAt.toNat + ns)) ∧
    (∃ (m : Fin 16) (s : State), ((s.lane m).st = .active ∨ (s.lane m).st = .disabled ∨ (s.lane m).st = .detect ∨ (s.lane m).st = .held)) :=
  ⟨⟨((0 : Fin 16)), ((let s : State := ready; let s : State := setLane ((0 : Fin 16)) (fun zz => { zz with st := .detect }) s; let s : State := setLane ((0 : Fin 16)) (fun zz => { zz with idleHeld := false }) s; let s : State := { s with twin.prsnt := true }; let s : State := setIsland 2 (fun zz => { zz with on := true }) s; s : State)), true, false, by decide +kernel, by decide +kernel, by decide +kernel, by decide +kernel, by decide +kernel, every_some (by decide +kernel), by decide +kernel⟩,
   ⟨((0 : Fin 16)), ((false : Bool)), ((false : Bool)), ((1000000000000 : Dword)), ((let s : State := ready; let s : State := setLane ((0 : Fin 16)) (fun zz => { zz with detectAt := some ((1000000000000 : Dword)) }) s; let s : State := setLane ((0 : Fin 16)) (fun zz => { zz with detectAt := some 1000000000000 }) s; s : State)), by decide +kernel⟩,
   ⟨((0 : Fin 16)), ((1 : Byte)), ((0 : Byte)), ((BitVec.ofNat 8 (crc8 [1, 0]) + 1 : Byte)), ((let s : State := ready; let s : State := setLane ((0 : Fin 16)) (fun zz => { zz with st := .poll }) s; let s : State := setLane ((0 : Fin 16)) (fun zz => { zz with idleHeld := false }) s; s : State)), by decide +kernel⟩,
   ⟨((0 : Fin 16)), ((1 : Byte)), ((0 : Byte)), ((BitVec.ofNat 8 (crc8 [1, 0]) : Byte)), ((let s : State := ready; let s : State := setLane ((0 : Fin 16)) (fun zz => { zz with st := .poll }) s; let s : State := setLane ((0 : Fin 16)) (fun zz => { zz with idleHeld := false }) s; s : State)), by decide +kernel⟩,
   ⟨((0 : Fin 16)), ((1 : Byte)), ((0 : Byte)), ((BitVec.ofNat 8 (crc8 [1, 0]) : Byte)), ((let s : State := ready; let s : State := setLane ((0 : Fin 16)) (fun zz => { zz with st := .poll }) s; let s : State := setLane ((0 : Fin 16)) (fun zz => { zz with idleHeld := false }) s; let s : State := setLane ((0 : Fin 16)) (fun zz => { zz with tsCount := 7 }) s; s : State)), by decide +kernel⟩,
   ⟨((0 : Fin 16)), ((0 : Byte)), ((BitVec.ofNat 8 (crc8 [2, 0]) : Byte)), ((let s : State := ready; let s : State := setLane ((0 : Fin 16)) (fun zz => { zz with st := .config }) s; let s : State := setLane ((0 : Fin 16)) (fun zz => { zz with idleHeld := false }) s; s : State)), by decide +kernel⟩,
   ⟨((0 : Fin 16)), ((0 : Byte)), ((BitVec.ofNat 8 (crc8 [1, 0]) : Byte)), ((let s : State := ready; let s : State := setLane ((0 : Fin 16)) (fun zz => { zz with st := .recovery }) s; let s : State := setLane ((0 : Fin 16)) (fun zz => { zz with idleHeld := false }) s; let s : State := setLane ((0 : Fin 16)) (fun zz => { zz with tsCount := 7 }) s; s : State)), by decide +kernel⟩,
   ⟨((0 : Fin 16)), (([] : List Byte)), (([] : List Byte)), ((eyesOf (([] : List Byte)) (([] : List Byte)) : List (BitVec 16))), ((let s : State := ready; let s : State := setLane ((0 : Fin 16)) (fun zz => { zz with st := .equalise }) s; let s : State := setLane ((0 : Fin 16)) (fun zz => { zz with ctleFixed := false }) s; let s : State := setLane ((0 : Fin 16)) (fun zz => { zz with ctleDone := false }) s; s : State)), by decide +kernel⟩,
   ⟨((0 : Fin 16)), ((capWords : List Word)), ((let s : State := ready; let s : State := setLane ((0 : Fin 16)) (fun zz => { zz with st := .config }) s; s : State)), by decide +kernel⟩,
   ⟨((0 : Fin 16)), (([] : List Word)), ((let s : State := ready; let s : State := setLane ((0 : Fin 16)) (fun zz => { zz with st := .config }) s; s : State)), ((1 : Nat)), by decide +kernel⟩,
   ⟨((0 : Fin 16)), ((let s : State := ready; let s : State := setLane ((0 : Fin 16)) (fun zz => { zz with st := .latency }) s; let s : State := setLane ((0 : Fin 16)) (fun zz => { zz with idleHeld := false }) s; let s : State := setLane ((0 : Fin 16)) (fun zz => { zz with echoSent := 0 }) s; s : State)), by decide +kernel⟩,
   ⟨((0 : Fin 16)), ((let s : State := ready; let s : State := setLane ((0 : Fin 16)) (fun zz => { zz with st := .latency }) s; let s : State := setLane ((0 : Fin 16)) (fun zz => { zz with idleHeld := false }) s; let s : State := setLane ((0 : Fin 16)) (fun zz => { zz with echoSent := 1 }) s; let s : State := setLane ((0 : Fin 16)) (fun zz => { zz with echoSent := 3 }) s; let s : State := setLane ((0 : Fin 16)) (fun zz => { zz with echoAt := s.pos.mono }) s; s : State)), by decide +kernel⟩,
   ⟨((0 : Fin 16)), ((let s : State := ready; let s : State := setLane ((0 : Fin 16)) (fun zz => { zz with st := .latency }) s; let s : State := setLane ((0 : Fin 16)) (fun zz => { zz with idleHeld := false }) s; let s : State := setLane ((0 : Fin 16)) (fun zz => { zz with echoSent := (((2 : Byte)).toNat + 1) }) s; let s : State := setLane ((0 : Fin 16)) (fun zz => { zz with echoSent := 3 }) s; s : State)), ((2 : Byte)), ((BitVec.ofNat 8 (crc8 [5, 2]) : Byte)), ((0 : Nat)), by decide +kernel⟩,
   ⟨((0 : Fin 16)), ((let s : State := ready; let s : State := setLane ((0 : Fin 16)) (fun zz => { zz with st := .latency }) s; let s : State := setLane ((0 : Fin 16)) (fun zz => { zz with idleHeld := false }) s; s : State)), ((2 : Byte)), ((BitVec.ofNat 8 (crc8 [5, 2]) + 1 : Byte)), ((0 : Nat)), by decide +kernel⟩,
   ⟨((0 : Fin 16)), ((let s : State := ready; let s : State := setLane ((0 : Fin 16)) (fun zz => { zz with st := .latency }) s; let s : State := setLane ((0 : Fin 16)) (fun zz => { zz with idleHeld := false }) s; let s : State := setLane ((0 : Fin 16)) (fun zz => { zz with echoSent := (((2 : Byte)).toNat + 1) }) s; let s : State := setLane ((0 : Fin 16)) (fun zz => { zz with echoSeen := 15 }) s; let s : State := setLane ((0 : Fin 16)) (fun zz => { zz with echoSeen := 15, echoSent := 16 }) s; s : State)), ((2 : Byte)), ((BitVec.ofNat 8 (crc8 [5, 2]) : Byte)), ((10 : Nat)), ((latOf ((((let s : State := ready; let s : State := setLane ((0 : Fin 16)) (fun zz => { zz with st := .latency }) s; let s : State := setLane ((0 : Fin 16)) (fun zz => { zz with idleHeld := false }) s; let s : State := setLane ((0 : Fin 16)) (fun zz => { zz with echoSent := (((2 : Byte)).toNat + 1) }) s; let s : State := setLane ((0 : Fin 16)) (fun zz => { zz with echoSeen := 15 }) s; let s : State := setLane ((0 : Fin 16)) (fun zz => { zz with echoSeen := 15, echoSent := 16 }) s; s : State)).lane ((0 : Fin 16))).echoSum + ((10 : Nat))) (fld (wd (capOf ((0 : Fin 16)) ((let s : State := ready; let s : State := setLane ((0 : Fin 16)) (fun zz => { zz with st := .latency }) s; let s : State := setLane ((0 : Fin 16)) (fun zz => { zz with idleHeld := false }) s; let s : State := setLane ((0 : Fin 16)) (fun zz => { zz with echoSent := (((2 : Byte)).toNat + 1) }) s; let s : State := setLane ((0 : Fin 16)) (fun zz => { zz with echoSeen := 15 }) s; let s : State := setLane ((0 : Fin 16)) (fun zz => { zz with echoSeen := 15, echoSent := 16 }) s; s : State))) 7) 16 16) : Nat)), by decide +kernel⟩,
   ⟨((0 : Fin 16)), ((12000000 : Nat)), ((let s : State := ready; let s : State := setLane ((0 : Fin 16)) (fun zz => { zz with st := .poll }) s; s : State)), by decide +kernel⟩,
   ⟨((0 : Fin 16)), ((12000000 : Nat)), ((let s : State := ready; let s : State := setLane ((0 : Fin 16)) (fun zz => { zz with st := .poll }) s; let s : State := setLane ((0 : Fin 16)) (fun zz => { zz with enteredAt := 1000000000000 }) s; s : State)), by decide +kernel⟩,
   ⟨((0 : Fin 16)), ((let s : State := ready; let s : State := setLane ((0 : Fin 16)) (fun zz => { zz with st := .active }) s; s : State)), by decide +kernel⟩⟩

theorem test_wit_CapabilityRecords :
    (∃ (lane : Nat) (ws : List Word) (held : Option (List Word)) (r : Nat), (capReason lane ws held = some r)) :=
  ⟨((0 : Nat)), ((capWords : List Word)), ((some [] : Option (List Word))), ((6 : Nat)), by decide +kernel⟩

theorem test_wit_LanesInService :
    (∃ (m : Fin 16) (e : Fin 257) (s : State), (e.val < 4)) ∧
    (∃ (m : Fin 16) (los : Bool) (e : Fin 257) (s : State), (s.hl.lanes.length = 16) ∧ ((s.lane m).st = .active) ∧ (los = true ∨ 4 ≤ e.val)) ∧
    (∃ (m : Fin 16) (s : State), ((s.lane m).st = .active) ∧ ((s.lane m).statusTime.toNat + 8000 ≤ s.pos.mono.toNat) ∧ ((s.lane m).upAt.toNat + 8000 ≤ s.pos.mono.toNat)) ∧
    (∃ (m : Fin 16) (s : State), ((s.lane m).st = .active) ∧ (s.pos.mono.toNat < (s.lane m).statusTime.toNat + 8000 ∨ s.pos.mono.toNat < (s.lane m).upAt.toNat + 8000)) ∧
    (∃ (m : Fin 16) (ws : List Word) (crc : Word) (s : State), ((s.lane m).st = .active) ∧ (crc ≠ frameCrc ws ∨ fld (wd ws 0) 0 4 ≠ m.val)) ∧
    (∃ (m : Fin 16) (ws : List Word) (s : State), ((s.lane m).st = .active) ∧ (fld (wd ws 0) 0 4 = m.val)) ∧
    (∃ (m : Fin 16) (s : State), ((s.lane m).blanking = true) ∧ ((s.lane m).blankAt.toNat + 1000 ≤ s.pos.mono.toNat) ∧ (1 ≤ (s.lane m).blankRuns)) ∧
    (∃ (m : Fin 16) (s : State), ((s.lane m).blanking = true) ∧ ((s.lane m).blankAt.toNat + 1000 ≤ s.pos.mono.toNat) ∧ ((s.lane m).blankRuns = 0)) ∧
    (∃ (m : Fin 16) (s : State), (s.pos.mono.toNat < (s.lane m).blankAt.toNat + 1000)) ∧
    (∃ (m : Fin 16) (kind : Nat) (block : Nat) (g : Nat) (rest : List (Nat × Nat)) (s : State), ((s.lane m).loadGroup = some g) ∧ ((s.lane m).tblQueue = (kind, block) :: rest) ∧ ((s.lane m).st = .active) ∧ ((s.lane m).idleHeld = false) ∧ ((s.lane m).txq = []) ∧ ((s.lane m).txFree ≤ s.pos.mono.toNat)) :=
  ⟨⟨((0 : Fin 16)), ((0 : Fin 257)), ((let s : State := ready; s : State)), by decide +kernel⟩,
   ⟨((0 : Fin 16)), ((true : Bool)), ((0 : Fin 257)), ((let s : State := ready; let s : State := setLane ((0 : Fin 16)) (fun zz => { zz with st := .active }) s; s : State)), by decide +kernel⟩,
   ⟨((0 : Fin 16)), ((let s : State := ready; let s : State := setLane ((0 : Fin 16)) (fun zz => { zz with st := .active }) s; let s : State := { s with pos.mono := 8000 }; s : State)), by decide +kernel⟩,
   ⟨((0 : Fin 16)), ((let s : State := ready; let s : State := setLane ((0 : Fin 16)) (fun zz => { zz with st := .active }) s; let s : State := setLane ((0 : Fin 16)) (fun zz => { zz with upAt := s.pos.mono }) s; s : State)), by decide +kernel⟩,
   ⟨((0 : Fin 16)), (([] : List Word)), ((1 : Word)), ((let s : State := ready; let s : State := setLane ((0 : Fin 16)) (fun zz => { zz with st := .active }) s; s : State)), by decide +kernel⟩,
   ⟨((0 : Fin 16)), (([] : List Word)), ((let s : State := ready; let s : State := setLane ((0 : Fin 16)) (fun zz => { zz with st := .active }) s; s : State)), by decide +kernel⟩,
   ⟨((0 : Fin 16)), ((let s : State := ready; let s : State := setLane ((0 : Fin 16)) (fun zz => { zz with blanking := true }) s; let s : State := setLane ((0 : Fin 16)) (fun zz => { zz with blankRuns := 1 }) s; s : State)), by decide +kernel⟩,
   ⟨((0 : Fin 16)), ((let s : State := ready; let s : State := setLane ((0 : Fin 16)) (fun zz => { zz with blanking := true }) s; let s : State := setLane ((0 : Fin 16)) (fun zz => { zz with blankRuns := 0 }) s; s : State)), by decide +kernel⟩,
   ⟨((0 : Fin 16)), ((let s : State := ready; let s : State := setLane ((0 : Fin 16)) (fun zz => { zz with blankAt := s.pos.mono }) s; s : State)), by decide +kernel⟩,
   ⟨((0 : Fin 16)), ((0 : Nat)), ((0 : Nat)), ((0 : Nat)), (([] : List (Nat × Nat))), ((let s : State := ready; let s : State := setLane ((0 : Fin 16)) (fun zz => { zz with loadGroup := some ((0 : Nat)) }) s; let s : State := setLane ((0 : Fin 16)) (fun zz => { zz with tblQueue := (((0 : Nat)), ((0 : Nat))) :: (([] : List (Nat × Nat))) }) s; let s : State := setLane ((0 : Fin 16)) (fun zz => { zz with st := .active }) s; let s : State := setLane ((0 : Fin 16)) (fun zz => { zz with idleHeld := false }) s; let s : State := setLane ((0 : Fin 16)) (fun zz => { zz with txq := [] }) s; s : State)), by decide +kernel⟩⟩

theorem test_wit_FiringFrames :
    (∃ (F : Nat) (m : Nat) (zs : List ZoneSel) (s : State) (j : _), (zs.length = 8) ∧ (1 ≤ j) ∧ (j ≤ 16)) ∧
    (∃ (F : Nat) (m : Nat) (k : Nat) (s : State), (k < 3264)) :=
  ⟨⟨((0 : Nat)), ((0 : Nat)), ((List.replicate 8 { count := 1, width := 2, gap := 3, derate := 4 } : List ZoneSel)), ((let s : State := ready; s : State)), 1, by decide +kernel⟩,
   ⟨((0 : Nat)), ((0 : Nat)), ((0 : Nat)), ((let s : State := ready; s : State)), by decide +kernel⟩⟩

theorem test_wit_LaneCommands :
    (∃ (k : _) (c : _) (s : _), Rung 0x0600 1 k c s ∧ ((c.w 0).toNat < 16) ∧ (s.host.opState ≠ .boot)) ∧
    (∃ (k : _) (c : _) (s : _) (m : _), Rung 0x0600 1 k c s ∧ ((c.w 0).toNat = 256 + m) ∧ (m < 16) ∧ (s.host.opState ≠ .boot)) ∧
    (∃ (k : _) (c : _) (s : _), Rung 0x0601 2 k c s ∧ ((c.w 0).toNat < 65536) ∧ (c.w 1 &&& ~~~ 0x3FF = 0) ∧ (fld (c.w 1) 0 3 ≤ 6) ∧ (fld (c.w 1) 3 2 ≠ 3) ∧ (s.host.firing = false)) ∧
    (∃ (k : _) (c : _) (s : _), Rung 0x0601 2 k c s ∧ (65536 ≤ (c.w 0).toNat) ∧ ((c.w 0).toNat < 65536 + 2 ^ s.cg.modules) ∧ (s.cg.modules ≠ 0) ∧ (s.cg.modules ≤ 16) ∧ (c.w 1 &&& ~~~ 0x3FF = 0) ∧ (fld (c.w 1) 0 3 ≤ 6) ∧ (fld (c.w 1) 3 2 ≠ 3) ∧ (s.host.firing = false)) ∧
    (∃ (k : _) (c : _) (s : _), Rung 0x0602 1 k c s ∧ ((c.w 0).toNat < 65536) ∧ (s.host.firing = false)) ∧
    (∃ (k : _) (c : _) (s : _) (m : _), Rung 0x0603 1 k c s ∧ ((c.w 0).toNat = m) ∧ (m < 16) ∧ (s.host.opState ≠ .boot) ∧ ((s.lane m).passedPoll = true)) ∧
    (∃ (k : _) (c : _) (s : _) (m : _), Rung 0x0603 1 k c s ∧ ((c.w 0).toNat = m) ∧ (m < 16) ∧ (s.host.opState ≠ .boot) ∧ ((s.lane m).passedPoll = false)) :=
  ⟨⟨((0 : Fin 16)), ((mkCmd 0x0600 [0] : RungCmd)), ((let s : State := (ring ((mkCmd 0x0600 [0] : RungCmd)) ready); s : State)), rung_ok (by decide +kernel), by decide +kernel⟩,
   ⟨((0 : Fin 16)), ((mkCmd 0x0600 [(BitVec.ofNat 32 (256 + ((0 : Nat))))] : RungCmd)), ((let s : State := (ring ((mkCmd 0x0600 [(BitVec.ofNat 32 (256 + ((0 : Nat))))] : RungCmd)) ready); s : State)), ((0 : Nat)), rung_ok (by decide +kernel), by decide +kernel⟩,
   ⟨((0 : Fin 16)), ((mkCmd 0x0601 [0, 0] : RungCmd)), ((let s : State := (ring ((mkCmd 0x0601 [0, 0] : RungCmd)) ready); let s : State := { s with host.firing := false }; s : State)), rung_ok (by decide +kernel), by decide +kernel⟩,
   ⟨((0 : Fin 16)), ((mkCmd 0x0601 [65536, 0] : RungCmd)), ((let s : State := (ring ((mkCmd 0x0601 [65536, 0] : RungCmd)) ready); let s : State := { s with cg.modules := 1 }; let s : State := { s with host.firing := false }; s : State)), rung_ok (by decide +kernel), by decide +kernel⟩,
   ⟨((0 : Fin 16)), ((mkCmd 0x0602 [0] : RungCmd)), ((let s : State := (ring ((mkCmd 0x0602 [0] : RungCmd)) ready); let s : State := { s with host.firing := false }; s : State)), rung_ok (by decide +kernel), by decide +kernel⟩,
   ⟨((0 : Fin 16)), ((mkCmd 0x0603 [(BitVec.ofNat 32 (((0 : Nat))))] : RungCmd)), ((let s : State := (ring ((mkCmd 0x0603 [(BitVec.ofNat 32 (((0 : Nat))))] : RungCmd)) ready); let s : State := setLane ((0 : Nat)) (fun zz => { zz with passedPoll := true }) s; s : State)), ((0 : Nat)), rung_ok (by decide +kernel), by decide +kernel⟩,
   ⟨((0 : Fin 16)), ((mkCmd 0x0603 [(BitVec.ofNat 32 (((0 : Nat))))] : RungCmd)), ((let s : State := (ring ((mkCmd 0x0603 [(BitVec.ofNat 32 (((0 : Nat))))] : RungCmd)) ready); let s : State := setLane ((0 : Nat)) (fun zz => { zz with passedPoll := false }) s; s : State)), ((0 : Nat)), rung_ok (by decide +kernel), by decide +kernel⟩⟩

theorem test_wit_CameraLines :
    (∃ (k : Fin 4) (vc : Fin 4) (early : Bool) (ps : List CsiPacket) (s : State), ((s.cam k).trigs = []) ∧ ((s.cam k).seg = none ∨ vc.val ≠ cxVc (camCtx k s))) ∧
    (∃ (k : Fin 4) (vc : Fin 4) (early : Bool) (ps : List CsiPacket) (s : State), ((s.cam k).trigs = []) ∧ ((s.cam k).seg.isSome = true) ∧ (vc.val = cxVc (camCtx k s))) ∧
    (∃ (k : Fin 4) (vc : Fin 4) (early : Bool) (ps : List CsiPacket) (known : List CsiPacket) (t : CamTrig) (ts : List CamTrig) (s : State) (u : State), ((s.cam k).trigs = t :: ts) ∧ (known = (ps.filter fun p => p.type == 0x2B || p.type == 0x2C)) ∧ (u = setCam k (fun c => { c with skipPart := false }) (countPackets k ps s)) ∧ (vc.val ≠ cxVc t.seg.ctx)) ∧
    (∃ (k : Fin 4) (vc : Fin 4) (early : Bool) (ps : List CsiPacket) (known : List CsiPacket) (t : CamTrig) (ts : List CamTrig) (s : State) (u : State), ((s.cam k).trigs = t :: ts) ∧ (known = (ps.filter fun p => p.type == 0x2B || p.type == 0x2C)) ∧ (u = setCam k (fun c => { c with skipPart := false }) (countPackets k ps s)) ∧ (vc.val = cxVc t.seg.ctx) ∧ ((s.cam k).skipPart = true) ∧ (early = true)) ∧
    (∃ (k : Fin 4) (vc : Fin 4) (early : Bool) (ps : List CsiPacket) (known : List CsiPacket) (t : CamTrig) (ts : List CamTrig) (s : State) (u : State), ((s.cam k).trigs = t :: ts) ∧ (known = (ps.filter fun p => p.type == 0x2B || p.type == 0x2C)) ∧ (u = setCam k (fun c => { c with skipPart := false }) (countPackets k ps s)) ∧ (vc.val = cxVc t.seg.ctx) ∧ ((s.cam k).skipPart = false ∨ early = false) ∧ (∀ p ∈ ps, p.good = true) ∧ (lineFits t.seg.ctx known = true)) ∧
    (∃ (k : Fin 4) (vc : Fin 4) (early : Bool) (ps : List CsiPacket) (known : List CsiPacket) (t : CamTrig) (ts : List CamTrig) (s : State) (u : State), ((s.cam k).trigs = t :: ts) ∧ (known = (ps.filter fun p => p.type == 0x2B || p.type == 0x2C)) ∧ (u = setCam k (fun c => { c with skipPart := false }) (countPackets k ps s)) ∧ (vc.val = cxVc t.seg.ctx) ∧ ((s.cam k).skipPart = false ∨ early = false) ∧ ((∃ p ∈ ps, p.good = false) ∨ lineFits t.seg.ctx known = false) ∧ ((s.cam k).quiet = false ∨ ofPort k t s = false)) ∧
    (∃ (k : Fin 4) (vc : Fin 4) (early : Bool) (ps : List CsiPacket) (known : List CsiPacket) (t : CamTrig) (ts : List CamTrig) (s : State) (u : State), ((s.cam k).trigs = t :: ts) ∧ (known = (ps.filter fun p => p.type == 0x2B || p.type == 0x2C)) ∧ (u = setCam k (fun c => { c with skipPart := false }) (countPackets k ps s)) ∧ (vc.val = cxVc t.seg.ctx) ∧ ((s.cam k).skipPart = false ∨ early = false) ∧ ((∃ p ∈ ps, p.good = false) ∨ lineFits t.seg.ctx known = false) ∧ ((s.cam k).quiet = true) ∧ (ofPort k t s = true)) ∧
    (∃ (k : Fin 4) (vc : Fin 4) (early : Bool) (ps : List CsiPacket) (known : List CsiPacket) (t : CamTrig) (ts : List CamTrig) (s : State) (u : State), ((s.cam k).trigs = t :: ts) ∧ (known = (ps.filter fun p => p.type == 0x2B || p.type == 0x2C)) ∧ (u = setCam k (fun c => { c with skipPart := false }) (countPackets k ps s)) ∧ (s.pos.mono.toNat < t.fired + 1000 * fld (objWord t.seg.ctx 8) 20 12)) ∧
    (∃ (k : Fin 4) (vc : Fin 4) (early : Bool) (ps : List CsiPacket) (known : List CsiPacket) (t : CamTrig) (ts : List CamTrig) (s : State) (u : State), ((s.cam k).trigs = t :: ts) ∧ (known = (ps.filter fun p => p.type == 0x2B || p.type == 0x2C)) ∧ (u = setCam k (fun c => { c with skipPart := false }) (countPackets k ps s)) ∧ (t.fired + 1000 * fld (objWord t.seg.ctx 8) 20 12 ≤ s.pos.mono.toNat)) ∧
    (∃ (k : Nat) (t : CamTrig) (s : State), (k < 4) ∧ (s.insp.cams.length = 4) ∧ ((s.cam k).seg.isSome = true) ∧ ((s.cam k).missRun = 15)) ∧
    (∃ (k : Nat) (t : CamTrig) (s : State), (k < 4) ∧ (s.insp.cams.length = 4) ∧ ((s.cam k).seg.isSome = true) ∧ (ofPort k t s = true)) ∧
    (∃ (k : Nat) (t : CamTrig) (s : State), (k < 4) ∧ (s.insp.cams.length = 4) ∧ ((s.cam k).seg.isSome = true) ∧ (ofPort k t s = false)) ∧
    (∃ (k : Nat) (t : CamTrig) (s : State), (k < 4) ∧ (s.insp.cams.length = 4) ∧ ((s.cam k).missRun ≠ 15)) ∧
    (∃ (k : Nat) (t : CamTrig) (s : State), (k < 4) ∧ (s.insp.cams.length = 4) ∧ ((s.cam k).seg = none)) :=
  ⟨⟨((0 : Fin 4)), ((0 : Fin 4)), ((false : Bool)), (([] : List CsiPacket)), ((let s : State := ready; let s : State := setCam ((0 : Fin 4)) (fun zz => { zz with trigs := [] }) s; let s : State := setCam ((0 : Fin 4)) (fun zz => { zz with seg := none }) s; s : State)), by decide +kernel⟩,
   ⟨((0 : Fin 4)), ((0 : Fin 4)), ((false : Bool)), (([] : List CsiPacket)), ((let s : State := ready; let s : State := setCam ((0 : Fin 4)) (fun zz => { zz with trigs := [] }) s; let s : State := setCam ((0 : Fin 4)) (fun zz => { zz with seg := some {} }) s; s : State)), by decide +kernel⟩,
   ⟨((0 : Fin 4)), ((1 : Fin 4)), ((false : Bool)), (([] : List CsiPacket)), ((((([] : List CsiPacket)).filter fun p => p.type == 0x2B || p.type == 0x2C) : List CsiPacket)), (({} : CamTrig)), (([] : List CamTrig)), ((let s : State := ready; let s : State := setCam ((0 : Fin 4)) (fun zz => { zz with trigs := (({} : CamTrig)) :: (([] : List CamTrig)) }) s; s : State)), ((setCam ((0 : Fin 4)) (fun c => { c with skipPart := false }) (countPackets ((0 : Fin 4)) (([] : List CsiPacket)) ((let s : State := ready; let s : State := setCam ((0 : Fin 4)) (fun zz => { zz with trigs := (({} : CamTrig)) :: (([] : List CamTrig)) }) s; s : State))) : State)), by decide +kernel⟩,
   ⟨((0 : Fin 4)), ((0 : Fin 4)), ((true : Bool)), (([] : List CsiPacket)), ((((([] : List CsiPacket)).filter fun p => p.type == 0x2B || p.type == 0x2C) : List CsiPacket)), (({} : CamTrig)), (([] : List CamTrig)), ((let s : State := ready; let s : State := setCam ((0 : Fin 4)) (fun zz => { zz with trigs := (({} : CamTrig)) :: (([] : List CamTrig)) }) s; let s : State := setCam ((0 : Fin 4)) (fun zz => { zz with skipPart := true }) s; s : State)), ((setCam ((0 : Fin 4)) (fun c => { c with skipPart := false }) (countPackets ((0 : Fin 4)) (([] : List CsiPacket)) ((let s : State := ready; let s : State := setCam ((0 : Fin 4)) (fun zz => { zz with trigs := (({} : CamTrig)) :: (([] : List CamTrig)) }) s; let s : State := setCam ((0 : Fin 4)) (fun zz => { zz with skipPart := true }) s; s : State))) : State)), by decide +kernel⟩,
   ⟨((0 : Fin 4)), ((0 : Fin 4)), ((false : Bool)), (([camPacket] : List CsiPacket)), ((((([camPacket] : List CsiPacket)).filter fun p => p.type == 0x2B || p.type == 0x2C) : List CsiPacket)), (({ seg := { ctx := ctxBytes } } : CamTrig)), (([] : List CamTrig)), ((let s : State := ready; let s : State := setCam ((0 : Fin 4)) (fun zz => { zz with trigs := (({ seg := { ctx := ctxBytes } } : CamTrig)) :: (([] : List CamTrig)) }) s; let s : State := setCam ((0 : Fin 4)) (fun zz => { zz with skipPart := false }) s; s : State)), ((setCam ((0 : Fin 4)) (fun c => { c with skipPart := false }) (countPackets ((0 : Fin 4)) (([camPacket] : List CsiPacket)) ((let s : State := ready; let s : State := setCam ((0 : Fin 4)) (fun zz => { zz with trigs := (({ seg := { ctx := ctxBytes } } : CamTrig)) :: (([] : List CamTrig)) }) s; let s : State := setCam ((0 : Fin 4)) (fun zz => { zz with skipPart := false }) s; s : State))) : State)), by decide +kernel⟩,
   ⟨((0 : Fin 4)), ((0 : Fin 4)), ((false : Bool)), (([] : List CsiPacket)), ((((([] : List CsiPacket)).filter fun p => p.type == 0x2B || p.type == 0x2C) : List CsiPacket)), (({} : CamTrig)), (([] : List CamTrig)), ((let s : State := ready; let s : State := setCam ((0 : Fin 4)) (fun zz => { zz with trigs := (({} : CamTrig)) :: (([] : List CamTrig)) }) s; let s : State := setCam ((0 : Fin 4)) (fun zz => { zz with skipPart := false }) s; let s : State := setCam ((0 : Fin 4)) (fun zz => { zz with quiet := false }) s; s : State)), ((setCam ((0 : Fin 4)) (fun c => { c with skipPart := false }) (countPackets ((0 : Fin 4)) (([] : List CsiPacket)) ((let s : State := ready; let s : State := setCam ((0 : Fin 4)) (fun zz => { zz with trigs := (({} : CamTrig)) :: (([] : List CamTrig)) }) s; let s : State := setCam ((0 : Fin 4)) (fun zz => { zz with skipPart := false }) s; let s : State := setCam ((0 : Fin 4)) (fun zz => { zz with quiet := false }) s; s : State))) : State)), by decide +kernel⟩,
   ⟨((0 : Fin 4)), ((0 : Fin 4)), ((false : Bool)), (([] : List CsiPacket)), ((((([] : List CsiPacket)).filter fun p => p.type == 0x2B || p.type == 0x2C) : List CsiPacket)), (({} : CamTrig)), (([] : List CamTrig)), ((let s : State := ready; let s : State := setCam ((0 : Fin 4)) (fun zz => { zz with trigs := (({} : CamTrig)) :: (([] : List CamTrig)) }) s; let s : State := setCam ((0 : Fin 4)) (fun zz => { zz with skipPart := false }) s; let s : State := setCam ((0 : Fin 4)) (fun zz => { zz with quiet := true }) s; let s : State := setCam ((0 : Fin 4)) (fun zz => { zz with seg := some {} }) s; s : State)), ((setCam ((0 : Fin 4)) (fun c => { c with skipPart := false }) (countPackets ((0 : Fin 4)) (([] : List CsiPacket)) ((let s : State := ready; let s : State := setCam ((0 : Fin 4)) (fun zz => { zz with trigs := (({} : CamTrig)) :: (([] : List CamTrig)) }) s; let s : State := setCam ((0 : Fin 4)) (fun zz => { zz with skipPart := false }) s; let s : State := setCam ((0 : Fin 4)) (fun zz => { zz with quiet := true }) s; let s : State := setCam ((0 : Fin 4)) (fun zz => { zz with seg := some {} }) s; s : State))) : State)), by decide +kernel⟩,
   ⟨((0 : Fin 4)), ((0 : Fin 4)), ((false : Bool)), (([] : List CsiPacket)), ((((([] : List CsiPacket)).filter fun p => p.type == 0x2B || p.type == 0x2C) : List CsiPacket)), (({ fired := 1000000000001 } : CamTrig)), (([] : List CamTrig)), ((let s : State := ready; let s : State := setCam ((0 : Fin 4)) (fun zz => { zz with trigs := (({ fired := 1000000000001 } : CamTrig)) :: (([] : List CamTrig)) }) s; s : State)), ((setCam ((0 : Fin 4)) (fun c => { c with skipPart := false }) (countPackets ((0 : Fin 4)) (([] : List CsiPacket)) ((let s : State := ready; let s : State := setCam ((0 : Fin 4)) (fun zz => { zz with trigs := (({ fired := 1000000000001 } : CamTrig)) :: (([] : List CamTrig)) }) s; s : State))) : State)), by decide +kernel⟩,
   ⟨((0 : Fin 4)), ((0 : Fin 4)), ((false : Bool)), (([] : List CsiPacket)), ((((([] : List CsiPacket)).filter fun p => p.type == 0x2B || p.type == 0x2C) : List CsiPacket)), (({} : CamTrig)), (([] : List CamTrig)), ((let s : State := ready; let s : State := setCam ((0 : Fin 4)) (fun zz => { zz with trigs := (({} : CamTrig)) :: (([] : List CamTrig)) }) s; s : State)), ((setCam ((0 : Fin 4)) (fun c => { c with skipPart := false }) (countPackets ((0 : Fin 4)) (([] : List CsiPacket)) ((let s : State := ready; let s : State := setCam ((0 : Fin 4)) (fun zz => { zz with trigs := (({} : CamTrig)) :: (([] : List CamTrig)) }) s; s : State))) : State)), by decide +kernel⟩,
   ⟨((0 : Nat)), (({} : CamTrig)), ((let s : State := ready; let s : State := setCam ((0 : Nat)) (fun zz => { zz with seg := some {} }) s; let s : State := setCam ((0 : Nat)) (fun zz => { zz with missRun := 15 }) s; let s : State := setCam ((0 : Nat)) (fun zz => { zz with seg := some {} }) s; s : State)), by decide +kernel⟩,
   ⟨((0 : Nat)), (({} : CamTrig)), ((let s : State := ready; let s : State := setCam ((0 : Nat)) (fun zz => { zz with seg := some {} }) s; let s : State := setCam ((0 : Nat)) (fun zz => { zz with seg := some {} }) s; s : State)), by decide +kernel⟩,
   ⟨((0 : Nat)), (({ seg := { ctx := zeros 3 ++ List.replicate 253 255 } } : CamTrig)), ((let s : State := ready; let s : State := setCam ((0 : Nat)) (fun zz => { zz with seg := some { ctx := zeros 256 } }) s; s : State)), by decide +kernel⟩,
   ⟨((0 : Nat)), (({} : CamTrig)), ((let s : State := ready; let s : State := setCam ((0 : Nat)) (fun zz => { zz with seg := some {} }) s; s : State)), by decide +kernel⟩,
   ⟨((0 : Nat)), (({} : CamTrig)), ((let s : State := ready; let s : State := setCam ((0 : Nat)) (fun zz => { zz with seg := none }) s; s : State)), by decide +kernel⟩⟩

theorem test_wit_FramesAndScripts :
    (∃ (s : State), (s.insp.running = none) ∧ (waitingFrames s ≠ [])) ∧
    (∃ (j : Nat) (k : Nat) (t : Nat) (s : State), (s.insp.lastDone = some (j, t))) ∧
    (∃ (s : State), (s.insp.running.isSome = true ∨ waitingFrames s = [])) ∧
    (∃ (k : Nat) (b : Nat) (s : State), (s.insp.running = some (k, b)) ∧ (k < 4) ∧ (s.insp.cams.length = 4)) ∧
    (∃ (k : Fin 4) (e : ExpSet) (s : State) (w : Word × Word) (x : Word × Word) (rest : List (Word × Word)), ((s.cam k).sets.find? (fun e => e.started && !e.written) = some e) ∧ (e.script = w :: x :: rest)) ∧
    (∃ (k : Fin 4) (e : ExpSet) (s : State) (w : Word × Word), ((s.cam k).sets.find? (fun e => e.started && !e.written) = some e) ∧ (e.script = [w])) ∧
    (∃ (k : Fin 4) (s : State), (∀ e ∈ (s.cam k).sets, e.started = false ∨ e.written = true)) :=
  ⟨⟨((let s : State := ready; let s : State := setCam 1 (fun zz => { zz with bufs := [.waiting, .waiting], frames := [{ deadline := 9 }, { deadline := 4 }] }) s; s : State)), by decide +kernel⟩,
   ⟨((0 : Nat)), ((0 : Nat)), ((0 : Nat)), ((let s : State := ready; let s : State := { s with insp.lastDone := some (((0 : Nat)), ((0 : Nat))) }; s : State)), by decide +kernel⟩,
   ⟨((let s : State := ready; let s : State := { s with insp.running := some (0, 0) }; s : State)), by decide +kernel⟩,
   ⟨((0 : Nat)), ((0 : Nat)), ((let s : State := ready; let s : State := { s with insp.running := some (0, 0) }; s : State)), by decide +kernel⟩,
   ⟨((0 : Fin 4)), (({ started := true, script := [(1, 2), (3, 4)] } : ExpSet)), ((let s : State := ready; let s : State := setCam ((0 : Fin 4)) (fun zz => { zz with sets := [(({ started := true, script := [(1, 2), (3, 4)] } : ExpSet))] }) s; s : State)), (((1, 2) : Word × Word)), (((3, 4) : Word × Word)), (([] : List (Word × Word))), by decide +kernel⟩,
   ⟨((0 : Fin 4)), (({ started := true, script := [(1, 2)] } : ExpSet)), ((let s : State := ready; let s : State := setCam ((0 : Fin 4)) (fun zz => { zz with sets := [(({ started := true, script := [(1, 2)] } : ExpSet))] }) s; s : State)), (((1, 2) : Word × Word)), by decide +kernel⟩,
   ⟨((0 : Fin 4)), ((let s : State := ready; s : State)), by decide +kernel⟩⟩

theorem test_wit_ImageStages :
    (∃ (thresh : Nat) (i : Nat) (v : Nat) (x : List Nat), (x[i]? = some v) ∧ (∀ d u, d ≤ 4 → d ≠ 2 → 2 ≤ i + d → x[i + d - 2]? = some u → v + thresh < u ∨ u + thresh < v)) ∧
    (∃ (alpha : Nat) (thresh : Nat) (z : Nat) (x : Nat), (x > z + thresh ∨ z > x + thresh)) ∧
    (∃ (thresh : Nat) (z : Nat) (x : Nat), (x ≤ 65535)) ∧
    (∃ (alpha : Nat) (thresh : Nat) (z : Nat), (z ≤ 65535)) ∧
    (∃ (b : List Byte) (x : List Nat) (v : _), (v ∈ colour b x)) :=
  ⟨⟨((10 : Nat)), ((2 : Nat)), ((500 : Nat)), (([100, 200, 500, 900, 30] : List Nat)), by decide +kernel, by
    intro d u h1 h2 _ h4
    interval_cases d <;> simp at h2 h4 <;> omega⟩,
   ⟨((0 : Nat)), ((5 : Nat)), ((0 : Nat)), ((100 : Nat)), by decide +kernel⟩,
   ⟨((0 : Nat)), ((0 : Nat)), ((0 : Nat)), by decide +kernel⟩,
   ⟨((0 : Nat)), ((0 : Nat)), ((0 : Nat)), by decide +kernel⟩,
   ⟨(([] : List Byte)), (([] : List Nat)), ((0 : Nat)), by decide +kernel⟩⟩

theorem test_wit_InspectionCommands :
    (∃ (k : _) (c : _) (s : _), Rung 0x0700 1 k c s ∧ ((c.w 0).toNat < 4) ∧ (s.host.opState ≠ .boot)) ∧
    (∃ (k : _) (c : _) (s : _) (m : _), Rung 0x0700 1 k c s ∧ ((c.w 0).toNat = 256 + m) ∧ (m < 4) ∧ (s.host.opState ≠ .boot)) ∧
    (∃ (k : _) (c : _) (s : _) (r : InspRing), Rung 0x0701 5 k c s ∧ (c.w 0 &&& ~~~ 0x101 = 0) ∧ ((c.w 1).toNat % 4096 = 0) ∧ (4 ≤ (c.w 3).toNat) ∧ ((c.w 3).toNat ≤ 10) ∧ ((c.w 4).toNat < 256) ∧ (camsConfigured s = 0) ∧ (r = { enabled := flag (c.w 0) 8, base := c.w 2 ++ c.w 1, sizeLog2 := (c.w 3).toNat, irqCount := (c.w 4).toNat })) ∧
    (∃ (k : _) (c : _) (s : _) (cam : _) (n : _), Rung 0x0702 3 k c s ∧ ((c.w 0).toNat = cam + 256 * n) ∧ (cam < 4) ∧ (1 ≤ n) ∧ (n ≤ 29) ∧ (1 + 2 * n ≤ c.payload.length) ∧ (∀ i, i < n → (c.w (1 + 2 * i)).toNat < 262144 ∧ (c.w (2 + 2 * i)).toNat < 65536) ∧ ((s.cam cam).sets = []) ∧ (configured cam s = true) ∧ (∀ g ∈ s.cg.groups, (g.st = .armed ∨ g.st = .locked) → objOf g.objs 12 cam = none) ∧ (s.host.outst.length < 16) ∧ (s.insp.cams.length = 4)) ∧
    (∃ (k : _) (c : _) (s : _) (bytes : List Byte) (out : Output) (r : Fin 4), Rung 0x0703 9 k c s ∧ (c.w 0 &&& ~~~ 0x3FFF7F03 = 0) ∧ (fld (c.w 0) 16 2 ≠ 3) ∧ (fld (c.w 0) 18 6 ≤ 32) ∧ (fld (c.w 0) 24 6 ≤ 32) ∧ (s.host.opState ≠ .boot) ∧ (out = .i2c (fld (c.w 0) 0 2) (fld (c.w 0) 16 2) (fld (c.w 0) 8 7) ((wordBytes (c.payload.drop 1)).take (fld (c.w 0) 18 6)) (fld (c.w 0) 24 6)) ∧ (∀ e ∈ (s.cam (fld (c.w 0) 0 2)).sets, e.started = false ∨ e.written = true) ∧ (r ≠ 0)) ∧
    (∃ (k : _) (c : _) (s : _) (r : Fin 4) (bytes : List Byte), Rung 0x0703 9 k c s ∧ (c.w 0 &&& ~~~ 0x3FFF7F03 = 0) ∧ (fld (c.w 0) 16 2 ≠ 3) ∧ (fld (c.w 0) 18 6 ≤ 32) ∧ (fld (c.w 0) 24 6 ≤ 32) ∧ (s.host.opState ≠ .boot) ∧ (∃ e ∈ (s.cam (fld (c.w 0) 0 2)).sets, e.started = true ∧ e.written = false)) ∧
    (∃ (k : Nat) (j : XferJob) (s : State), (s.insp.xfer = some j) ∧ (j.cam = k)) ∧
    (∃ (k : _) (c : _) (s : _) (cam : _) (L : Nat), Rung 0x0704 6 k c s ∧ (c.w 0 &&& ~~~ 0x103 = 0) ∧ (fld (c.w 0) 0 2 = cam) ∧ (namedLine (c.w 1) (c.w 2) s = some L) ∧ ((c.w 3).toNat % 4096 = 0) ∧ (6 * cxWidth (camCtx cam s) * cxFrameLines (camCtx cam s) ≤ (c.w 5).toNat) ∧ (s.insp.capture = none) ∧ (configured cam s = true) ∧ (s.host.outst.length < 16) ∧ ((s.cam cam).lastBegun < L)) ∧
    (∃ (k : _) (c : _) (s : _) (cam : _) (L : Nat), Rung 0x0704 6 k c s ∧ (c.w 0 &&& ~~~ 0x103 = 0) ∧ (fld (c.w 0) 0 2 = cam) ∧ (namedLine (c.w 1) (c.w 2) s = some L) ∧ ((c.w 3).toNat % 4096 = 0) ∧ (6 * cxWidth (camCtx cam s) * cxFrameLines (camCtx cam s) ≤ (c.w 5).toNat) ∧ (s.insp.capture = none) ∧ (configured cam s = true) ∧ (s.host.outst.length < 16) ∧ ((s.cam cam).frameSeq ≠ 0) ∧ (L ≤ (s.cam cam).lastBegun)) :=
  ⟨⟨((0 : Fin 16)), ((mkCmd 0x0700 [0] : RungCmd)), ((let s : State := (ring ((mkCmd 0x0700 [0] : RungCmd)) ready); s : State)), rung_ok (by decide +kernel), by decide +kernel⟩,
   ⟨((0 : Fin 16)), ((mkCmd 0x0700 [(BitVec.ofNat 32 (256 + ((0 : Nat))))] : RungCmd)), ((let s : State := (ring ((mkCmd 0x0700 [(BitVec.ofNat 32 (256 + ((0 : Nat))))] : RungCmd)) ready); s : State)), ((0 : Nat)), rung_ok (by decide +kernel), by decide +kernel⟩,
   ⟨((0 : Fin 16)), ((mkCmd 0x0701 [0, 0, 0, 4, 0] : RungCmd)), ((let s : State := (ring ((mkCmd 0x0701 [0, 0, 0, 4, 0] : RungCmd)) ready); s : State)), (({ enabled := flag (((mkCmd 0x0701 [0, 0, 0, 4, 0] : RungCmd)).w 0) 8, base := ((mkCmd 0x0701 [0, 0, 0, 4, 0] : RungCmd)).w 2 ++ ((mkCmd 0x0701 [0, 0, 0, 4, 0] : RungCmd)).w 1, sizeLog2 := (((mkCmd 0x0701 [0, 0, 0, 4, 0] : RungCmd)).w 3).toNat, irqCount := (((mkCmd 0x0701 [0, 0, 0, 4, 0] : RungCmd)).w 4).toNat } : InspRing)), rung_ok (by decide +kernel), by decide +kernel⟩,
   ⟨((0 : Fin 16)), ((mkCmd 0x0702 [256, 3, 4] : RungCmd)), ((let s : State := (ring ((mkCmd 0x0702 [256, 3, 4] : RungCmd)) ready); let s : State := setCam ((0 : Nat)) (fun zz => { zz with sets := [] }) s; let s : State := { s with cg.inForce := [barObj, camObj] }; s : State)), ((0 : Nat)), 1, rung_ok (by decide +kernel), by decide +kernel⟩,
   ⟨((0 : Fin 16)), ((mkCmd 0x0703 (List.replicate 9 0) : RungCmd)), ((let s : State := (ring ((mkCmd 0x0703 (List.replicate 9 0) : RungCmd)) ready); s : State)), (([] : List Byte)), ((.i2c (fld (((mkCmd 0x0703 (List.replicate 9 0) : RungCmd)).w 0) 0 2) (fld (((mkCmd 0x0703 (List.replicate 9 0) : RungCmd)).w 0) 16 2) (fld (((mkCmd 0x0703 (List.replicate 9 0) : RungCmd)).w 0) 8 7) ((wordBytes (((mkCmd 0x0703 (List.replicate 9 0) : RungCmd)).payload.drop 1)).take (fld (((mkCmd 0x0703 (List.replicate 9 0) : RungCmd)).w 0) 18 6)) (fld (((mkCmd 0x0703 (List.replicate 9 0) : RungCmd)).w 0) 24 6) : Output)), ((1 : Fin 4)), rung_ok (by decide +kernel), by decide +kernel⟩,
   ⟨((0 : Fin 16)), ((mkCmd 0x0703 (List.replicate 9 0) : RungCmd)), ((let s : State := (ring ((mkCmd 0x0703 (List.replicate 9 0) : RungCmd)) ready); let s : State := setCam 0 (fun zz => { zz with sets := [{ started := true }] }) s; s : State)), ((0 : Fin 4)), (([] : List Byte)), rung_ok (by decide +kernel), by decide +kernel⟩,
   ⟨((0 : Nat)), (({} : XferJob)), ((let s : State := ready; let s : State := { s with insp.xfer := some (({} : XferJob)) }; s : State)), by decide +kernel⟩,
   ⟨((0 : Fin 16)), ((mkCmd 0x0704 [0, 0, 5, 0, 0, 0] : RungCmd)), ((let s : State := (ring ((mkCmd 0x0704 [0, 0, 5, 0, 0, 0] : RungCmd)) ready); let s : State := { s with insp.capture := none }; let s : State := { s with cg.inForce := [barObj, camObj] }; s : State)), ((0 : Nat)), ((5 : Nat)), rung_ok (by decide +kernel), by decide +kernel⟩,
   ⟨((0 : Fin 16)), ((mkCmd 0x0704 [0, 0, 5, 0, 0, 0] : RungCmd)), ((let s : State := (ring ((mkCmd 0x0704 [0, 0, 5, 0, 0, 0] : RungCmd)) ready); let s : State := { s with insp.capture := none }; let s : State := setCam ((0 : Nat)) (fun zz => { zz with frameSeq := 1 }) s; let s : State := setCam ((0 : Nat)) (fun zz => { zz with lastBegun := ((5 : Nat)) }) s; let s : State := { s with cg.inForce := [barObj, camObj] }; let s : State := setCam 0 (fun zz => { zz with frameSeq := 1, lastBegun := 5 }) s; s : State)), ((0 : Nat)), ((5 : Nat)), rung_ok (by decide +kernel), by decide +kernel⟩⟩

theorem test_wit_CalibrationRuns :
    (∃ (s : State), (solveMode s = none)) ∧
    (∃ (run : Option Word × BitVec 16) (s : State), (solveMode s = some run)) ∧
    (∃ (s : State), (s.cal.run = none ∨ s.cal.result ≠ .solving)) ∧
    (∃ (run : Option Word × BitVec 16) (reason : Nat) (s : State), (s.cal.run = some run) ∧ (s.cal.result = .solving) ∧ (reason = solveReason s.cal s.cal.solveBank (fitColumns s.cal s.cal.solveBank s.cg.modules) (maskModules run.2 s.cg.modules))) ∧
    (∃ (s : State), (s.cal.result ≠ .ready ∨ s.cal.autoCommit = false ∨ s.twin.role ≠ .solo ∨ s.host.opState ≠ .print ∨ s.cg.webStopped = true ∨ hostQuiet s = false ∨ ∀ g, g < 4 → (s.cg.group g).st ≠ .empty)) ∧
    (∃ (r : CalRes) (objs : List Obj) (s1 : State) (g : Nat) (s : State), (s.cal.result = .ready) ∧ (s.cal.res = some r) ∧ (s.cal.autoCommit = true) ∧ (s.twin.role = .solo) ∧ (s.host.opState = .print) ∧ (s.cg.webStopped = false) ∧ (hostQuiet s = true) ∧ (holdMaps r s = (objs, s1)) ∧ (s.cg.groups.length = 4) ∧ (g < 4) ∧ ((s.cg.group g).st = .empty) ∧ (∀ j, j < g → (s.cg.group j).st ≠ .empty) ∧ (objs = [])) ∧
    (∃ (r : CalRes) (objs : List Obj) (s1 : State) (g : Nat) (s : State) (why : Nat) (x : Nat × Nat), (s.cal.result = .ready) ∧ (s.cal.res = some r) ∧ (s.cal.autoCommit = true) ∧ (s.twin.role = .solo) ∧ (s.host.opState = .print) ∧ (s.cg.webStopped = false) ∧ (hostQuiet s = true) ∧ (holdMaps r s = (objs, s1)) ∧ (s.cg.groups.length = 4) ∧ (g < 4) ∧ ((s.cg.group g).st = .empty) ∧ (∀ j, j < g → (s.cg.group j).st ≠ .empty) ∧ (objs ≠ []) ∧ (checkGroup true objs s.cg.inForce s = some (why, x))) ∧
    (∃ (r : CalRes) (objs : List Obj) (s1 : State) (g : Nat) (s : State), (s.cal.result = .ready) ∧ (s.cal.res = some r) ∧ (s.cal.autoCommit = true) ∧ (s.twin.role = .solo) ∧ (s.host.opState = .print) ∧ (s.cg.webStopped = false) ∧ (hostQuiet s = true) ∧ (holdMaps r s = (objs, s1)) ∧ (s.cg.groups.length = 4) ∧ (g < 4) ∧ ((s.cg.group g).st = .empty) ∧ (∀ j, j < g → (s.cg.group j).st ≠ .empty) ∧ (objs ≠ []) ∧ (checkGroup true objs s.cg.inForce s = none)) :=
  ⟨⟨((let s : State := ready; s : State)), by decide +kernel⟩,
   ⟨(((some 7, 0) : Option Word × BitVec 16)), ((let s : State := ready; let s : State := { s with cal.runReq := some (7, 0) }; s : State)), by decide +kernel⟩,
   ⟨((let s : State := ready; let s : State := { s with cal.run := none }; s : State)), by decide +kernel⟩,
   ⟨(((some 7, 0) : Option Word × BitVec 16)), ((solveReason ((let s : State := ready; let s : State := { s with cal.run := some (((some 7, 0) : Option Word × BitVec 16)) }; let s : State := { s with cal.result := .solving }; s : State)).cal ((let s : State := ready; let s : State := { s with cal.run := some (((some 7, 0) : Option Word × BitVec 16)) }; let s : State := { s with cal.result := .solving }; s : State)).cal.solveBank (fitColumns ((let s : State := ready; let s : State := { s with cal.run := some (((some 7, 0) : Option Word × BitVec 16)) }; let s : State := { s with cal.result := .solving }; s : State)).cal ((let s : State := ready; let s : State := { s with cal.run := some (((some 7, 0) : Option Word × BitVec 16)) }; let s : State := { s with cal.result := .solving }; s : State)).cal.solveBank ((let s : State := ready; let s : State := { s with cal.run := some (((some 7, 0) : Option Word × BitVec 16)) }; let s : State := { s with cal.result := .solving }; s : State)).cg.modules) (maskModules (((some 7, 0) : Option Word × BitVec 16)).2 ((let s : State := ready; let s : State := { s with cal.run := some (((some 7, 0) : Option Word × BitVec 16)) }; let s : State := { s with cal.result := .solving }; s : State)).cg.modules) : Nat)), ((let s : State := ready; let s : State := { s with cal.run := some (((some 7, 0) : Option Word × BitVec 16)) }; let s : State := { s with cal.result := .solving }; s : State)), by decide +kernel, by decide +kernel, rfl⟩,
   ⟨((let s : State := ready; s : State)), by decide +kernel⟩,
   ⟨(({} : CalRes)), (([] : List Obj)), ((((let s : State := printing; let s : State := { s with cal.result := .ready }; let s : State := { s with cal.res := some (({} : CalRes)) }; let s : State := { s with cal.autoCommit := true }; let s : State := { s with twin.role := .solo }; let s : State := { s with host.opState := .print }; let s : State := { s with cg.webStopped := false }; let s : State := setGroup ((0 : Nat)) (fun zz => { zz with st := .empty }) s; s : State)) : State)), ((0 : Nat)), ((let s : State := printing; let s : State := { s with cal.result := .ready }; let s : State := { s with cal.res := some (({} : CalRes)) }; let s : State := { s with cal.autoCommit := true }; let s : State := { s with twin.role := .solo }; let s : State := { s with host.opState := .print }; let s : State := { s with cg.webStopped := false }; let s : State := setGroup ((0 : Nat)) (fun zz => { zz with st := .empty }) s; s : State)), by decide +kernel⟩,
   ⟨(({ objs := [{ kind := 6 }], fLimNew := 1000 } : CalRes)), (([{ kind := 6 }] : List Obj)), ((((let s : State := printing; let s : State := { s with cal.result := .ready }; let s : State := { s with cal.res := some (({ objs := [{ kind := 6 }], fLimNew := 1000 } : CalRes)) }; let s : State := { s with cal.autoCommit := true }; let s : State := { s with twin.role := .solo }; let s : State := { s with host.opState := .print }; let s : State := { s with cg.webStopped := false }; let s : State := setGroup ((0 : Nat)) (fun zz => { zz with st := .empty }) s; s : State)) : State)), ((0 : Nat)), ((let s : State := printing; let s : State := { s with cal.result := .ready }; let s : State := { s with cal.res := some (({ objs := [{ kind := 6 }], fLimNew := 1000 } : CalRes)) }; let s : State := { s with cal.autoCommit := true }; let s : State := { s with twin.role := .solo }; let s : State := { s with host.opState := .print }; let s : State := { s with cg.webStopped := false }; let s : State := setGroup ((0 : Nat)) (fun zz => { zz with st := .empty }) s; s : State)), ((1 : Nat)), (((0, 0) : Nat × Nat)), by decide +kernel⟩,
   ⟨(({ objs := [polObj], fLimNew := 1000 } : CalRes)), (([polObj] : List Obj)), ((((let s : State := printing; let s : State := { s with cal.result := .ready }; let s : State := { s with cal.res := some (({ objs := [polObj], fLimNew := 1000 } : CalRes)) }; let s : State := { s with cal.autoCommit := true }; let s : State := { s with twin.role := .solo }; let s : State := { s with host.opState := .print }; let s : State := { s with cg.webStopped := false }; let s : State := setGroup ((0 : Nat)) (fun zz => { zz with st := .empty }) s; s : State)) : State)), ((0 : Nat)), ((let s : State := printing; let s : State := { s with cal.result := .ready }; let s : State := { s with cal.res := some (({ objs := [polObj], fLimNew := 1000 } : CalRes)) }; let s : State := { s with cal.autoCommit := true }; let s : State := { s with twin.role := .solo }; let s : State := { s with host.opState := .print }; let s : State := { s with cg.webStopped := false }; let s : State := setGroup ((0 : Nat)) (fun zz => { zz with st := .empty }) s; s : State)), by decide +kernel⟩⟩

theorem test_wit_CalibrationCommands :
    (∃ (k : _) (c : _) (s : _), Rung 0x0800 1 k c s ∧ (c.w 0 = 0) ∧ (s.host.opState ≠ .boot)) ∧
    (∃ (k : _) (c : _) (s : _), Rung 0x0800 1 k c s ∧ (c.w 0 = 1) ∧ (s.host.opState ≠ .boot)) ∧
    (∃ (k : _) (c : _) (s : _), Rung 0x0801 15 k c s ∧ (c.w 0 &&& ~~~ 0x1FFF = 0) ∧ (256 ≤ fld (c.w 1) 0 16) ∧ (64 ≤ fld (c.w 1) 16 16) ∧ (1 ≤ fld (c.w 2) 0 8) ∧ (1 ≤ fld (c.w 2) 8 8) ∧ (1 ≤ fld (c.w 2) 16 16) ∧ (fld (c.w 2) 16 16 ≤ 0x4000) ∧ (1 ≤ fld (c.w 3) 0 16) ∧ (3000 ≤ fld (c.w 3) 16 16) ∧ (c.w 4 &&& ~~~ 0xFFFF = 0) ∧ (c.w 5 &&& ~~~ 0xFFFFFF = 0) ∧ (1 ≤ fld (c.w 5) 0 8) ∧ (1 ≤ fld (c.w 5) 8 8) ∧ (1 ≤ fld (c.w 5) 16 8) ∧ (aimWord c.payload 0 = 0) ∧ (∀ j, j < 16 → aimWord c.payload j ≤ aimWord c.payload (j + 1)) ∧ (c.w 14 &&& ~~~ 0xFFFF = 0) ∧ (s.cal.result ≠ .solving) ∧ (s.cal.result ≠ .committing) ∧ (s.host.opState ≠ .boot)) ∧
    (∃ (k : _) (c : _) (s : _), Rung 0x0802 1 k c s ∧ (c.w 0 &&& ~~~ 0xFFFF = 0) ∧ (s.cal.result = .none) ∧ (s.cal.runReq = none) ∧ (s.host.opState = .ready ∨ s.host.opState = .print) ∧ (s.host.outst.length < 16)) ∧
    (∃ (k : _) (c : _) (s : _) (r : CalRes), Rung 0x0803 4 k c s ∧ (s.cal.result = .ready) ∧ (s.cal.res = some r) ∧ ((c.w 1).toNat % 4096 = 0) ∧ ((resultBytes r).length ≤ (c.w 3).toNat) ∧ (c.w 0 = 0) ∧ (s.host.outst.length < 16)) ∧
    (∃ (s : State), (s.cal.sending = [])) ∧
    (∃ (tag : Word) (n : Nat) (rest : List (Word × Nat)) (s : State), (s.cal.sending = (tag, n) :: rest)) ∧
    (∃ (k : _) (c : _) (s : _), Rung 0x0804 0 k c s ∧ (s.cal.result ≠ .committing) ∧ (s.host.opState ≠ .boot) ∧ (s.cal.result = .ready)) ∧
    (∃ (k : _) (c : _) (s : _), Rung 0x0804 0 k c s ∧ (s.cal.result ≠ .committing) ∧ (s.host.opState ≠ .boot) ∧ (s.cal.result ≠ .ready)) ∧
    (∃ (k : _) (c : _) (s : _), Rung 0x0805 1 k c s ∧ (c.w 0 &&& ~~~ 0xFFFF = 0) ∧ (s.cal.result ≠ .solving) ∧ (s.cal.result ≠ .committing) ∧ (s.host.opState ≠ .boot)) :=
  ⟨⟨((0 : Fin 16)), ((mkCmd 0x0800 [0] : RungCmd)), ((let s : State := (ring ((mkCmd 0x0800 [0] : RungCmd)) ready); s : State)), rung_ok (by decide +kernel), by decide +kernel⟩,
   ⟨((0 : Fin 16)), ((mkCmd 0x0800 [1] : RungCmd)), ((let s : State := (ring ((mkCmd 0x0800 [1] : RungCmd)) ready); s : State)), rung_ok (by decide +kernel), by decide +kernel⟩,
   ⟨((0 : Fin 16)), ((mkCmd 0x0801 ([0, ((0 + 256) + 4194304), (((0 + 1) + 256) + 65536), ((0 + 1) + 196608000), 0, (((0 + 1) + 256) + 65536)] ++ List.replicate 9 0) : RungCmd)), ((let s : State := (ring ((mkCmd 0x0801 ([0, ((0 + 256) + 4194304), (((0 + 1) + 256) + 65536), ((0 + 1) + 196608000), 0, (((0 + 1) + 256) + 65536)] ++ List.replicate 9 0) : RungCmd)) ready); s : State)), rung_ok (by decide +kernel), by decide +kernel⟩,
   ⟨((0 : Fin 16)), ((mkCmd 0x0802 [0] : RungCmd)), ((let s : State := (ring ((mkCmd 0x0802 [0] : RungCmd)) ready); let s : State := { s with cal.result := .none }; let s : State := { s with cal.runReq := none }; let s : State := { s with host.opState := .ready }; s : State)), rung_ok (by decide +kernel), by decide +kernel⟩,
   ⟨((0 : Fin 16)), ((mkCmd 0x0803 [0, 0, 0, 100000] : RungCmd)), ((let s : State := (ring ((mkCmd 0x0803 [0, 0, 0, 100000] : RungCmd)) ready); let s : State := { s with cal.result := .ready }; let s : State := { s with cal.res := some (({} : CalRes)) }; s : State)), (({} : CalRes)), rung_ok (by decide +kernel), by decide +kernel⟩,
   ⟨((let s : State := ready; let s : State := { s with cal.sending := [] }; s : State)), by decide +kernel⟩,
   ⟨((0 : Word)), ((0 : Nat)), (([] : List (Word × Nat))), ((let s : State := ready; let s : State := { s with cal.sending := (((0 : Word)), ((0 : Nat))) :: (([] : List (Word × Nat))) }; s : State)), by decide +kernel⟩,
   ⟨((0 : Fin 16)), ((mkCmd 0x0804 [] : RungCmd)), ((let s : State := (ring ((mkCmd 0x0804 [] : RungCmd)) ready); let s : State := { s with cal.result := .ready }; s : State)), rung_ok (by decide +kernel), by decide +kernel⟩,
   ⟨((0 : Fin 16)), ((mkCmd 0x0804 [] : RungCmd)), ((let s : State := (ring ((mkCmd 0x0804 [] : RungCmd)) ready); s : State)), rung_ok (by decide +kernel), by decide +kernel⟩,
   ⟨((0 : Fin 16)), ((mkCmd 0x0805 [0] : RungCmd)), ((let s : State := (ring ((mkCmd 0x0805 [0] : RungCmd)) ready); s : State)), rung_ok (by decide +kernel), by decide +kernel⟩⟩

theorem test_wit_SamplesMove :
    (∃ (x0 : EncIn) (x1 : EncIn) (d0 : Int) (d1 : Int) (s : State), (d0 = ((s.pos.enc 0).front 0 x0).2) ∧ (d1 = ((s.pos.enc 1).front 1 x1).2)) ∧
    (∃ (k : Nat) (d : Int) (l : List (Bool × Bool × Bool)) (e : Enc), (e.mode ≠ 2)) ∧
    (∃ (e : Enc) (d : Int), (e.fwdSense = false)) ∧
    (∃ (e : Enc) (d : Int), (e.fwdSense = true)) ∧
    (∃ (n : Nat) (dp : Int), (dp ≤ 0)) :=
  ⟨⟨(((.count 3) : EncIn)), (((.count 3) : EncIn)), ((((((let s : State := ready; s : State)).pos.enc 0).front 0 (((.count 3) : EncIn))).2 : Int)), ((((((let s : State := ready; s : State)).pos.enc 1).front 1 (((.count 3) : EncIn))).2 : Int)), ((let s : State := ready; s : State)), by decide +kernel⟩,
   ⟨((0 : Nat)), ((0 : Int)), (([] : List (Bool × Bool × Bool))), (({} : Enc)), by decide +kernel⟩,
   ⟨(({} : Enc)), ((0 : Int)), by decide +kernel⟩,
   ⟨(({ fwdSense := true } : Enc)), ((0 : Int)), by decide +kernel⟩,
   ⟨((0 : Nat)), ((0 : Int)), by decide +kernel⟩⟩

theorem test_wit_EncoderFaults :
    (∃ (k : Fin 2) (s : State), ((s.pos.enc k).mode = 0 ∨ (s.pos.enc k).fault = true)) ∧
    (∃ (k : Fin 2) (s : State), ((s.pos.enc k).mode ≠ 0) ∧ ((s.pos.enc k).fault = false)) ∧
    (∃ (k : Fin 2) (s : State), ((s.pos.enc k).fault = false ∨ s.since (s.pos.enc k).faultAt < 1000000)) ∧
    (∃ (s : State), ((s.pos.enc 1).fault = true) ∧ (1000000 ≤ s.since (s.pos.enc 1).faultAt)) ∧
    (∃ (s : State), ((s.pos.enc 0).fault = true) ∧ (1000000 ≤ s.since (s.pos.enc 0).faultAt)) ∧
    (∃ (k : Fin 2) (s : State), ((s.pos.enc k).mode ≠ 1 ∨ (s.pos.enc k).overfreq = true)) ∧
    (∃ (k : Fin 2) (s : State), ((s.pos.enc k).mode = 1) ∧ ((s.pos.enc k).overfreq = false)) ∧
    (∃ (k : Fin 2) (s : State), ((s.pos.enc k).mode ≠ 2 ∨ (s.pos.enc k).fault = true)) ∧
    (∃ (k : Fin 2) (s : State), ((s.pos.enc k).mode = 2) ∧ ((s.pos.enc k).fault = false)) ∧
    (∃ (k : Fin 2) (x : Samples) (s : State) (e : Enc), (e = (advance x s).pos.enc k) ∧ (e.counting = true ∧ e.indexValid = true ∧ e.indexCounts ≠ 0 ∧ e.missing = false ∧ 2 * e.sinceIndex > 3 * (e.indexCounts : Int))) ∧
    (∃ (k : Fin 2) (x : Samples) (s : State) (e : Enc), (e = (advance x s).pos.enc k) ∧ (e.counting = false ∨ e.indexValid = false ∨ e.indexCounts = 0 ∨ e.missing = true ∨ 2 * e.sinceIndex ≤ 3 * (e.indexCounts : Int))) ∧
    (∃ (x : Samples) (s : State), ((advance x s).pos.encoEnable = true) ∧ (16 < (advance x s).pos.encoLag)) ∧
    (∃ (x : Samples) (s : State), ((advance x s).pos.encoEnable = false ∨ (advance x s).pos.encoLag ≤ 16)) :=
  ⟨⟨((0 : Fin 2)), ((let s : State := ready; let s : State := setEnc ((0 : Fin 2)) (fun zz => { zz with mode := 0 }) s; s : State)), by decide +kernel⟩,
   ⟨((0 : Fin 2)), ((let s : State := ready; let s : State := setEnc ((0 : Fin 2)) (fun zz => { zz with mode := 1 }) s; let s : State := setEnc ((0 : Fin 2)) (fun zz => { zz with fault := false }) s; s : State)), by decide +kernel⟩,
   ⟨((0 : Fin 2)), ((let s : State := ready; let s : State := setEnc ((0 : Fin 2)) (fun zz => { zz with fault := false }) s; s : State)), by decide +kernel⟩,
   ⟨((let s : State := ready; let s : State := setEnc 1 (fun zz => { zz with fault := true }) s; s : State)), by decide +kernel⟩,
   ⟨((let s : State := ready; let s : State := setEnc 0 (fun zz => { zz with fault := true }) s; s : State)), by decide +kernel⟩,
   ⟨((0 : Fin 2)), ((let s : State := ready; s : State)), by decide +kernel⟩,
   ⟨((0 : Fin 2)), ((let s : State := ready; let s : State := setEnc ((0 : Fin 2)) (fun zz => { zz with mode := 1 }) s; let s : State := setEnc ((0 : Fin 2)) (fun zz => { zz with overfreq := false }) s; s : State)), by decide +kernel⟩,
   ⟨((0 : Fin 2)), ((let s : State := ready; s : State)), by decide +kernel⟩,
   ⟨((0 : Fin 2)), ((let s : State := ready; let s : State := setEnc ((0 : Fin 2)) (fun zz => { zz with mode := 2 }) s; let s : State := setEnc ((0 : Fin 2)) (fun zz => { zz with fault := false }) s; s : State)), by decide +kernel⟩,
   ⟨((0 : Fin 2)), (([] : Samples)), ((let s : State := ready; let s : State := setEnc ((0 : Fin 2)) (fun zz => { zz with mode := 1, indexCounts := 1000, indexValid := true, sinceIndex := 1501 }) s; s : State)), (((advance (([] : Samples)) ((let s : State := ready; let s : State := setEnc ((0 : Fin 2)) (fun zz => { zz with mode := 1, indexCounts := 1000, indexValid := true, sinceIndex := 1501 }) s; s : State))).pos.enc ((0 : Fin 2)) : Enc)), by decide +kernel⟩,
   ⟨((0 : Fin 2)), (([] : Samples)), ((let s : State := ready; s : State)), (((advance (([] : Samples)) ((let s : State := ready; s : State))).pos.enc ((0 : Fin 2)) : Enc)), by decide +kernel⟩,
   ⟨(([] : Samples)), ((let s : State := ready; let s : State := { s with pos.encoEnable := true, pos.encoTgt := 17 }; s : State)), by decide +kernel⟩,
   ⟨(([] : Samples)), ((let s : State := ready; s : State)), by decide +kernel⟩⟩

theorem test_wit_DirectionAndIndex :
    (∃ (k : Fin 2) (x : Samples) (s : State) (u : State) (e : Enc), (u = advance x s) ∧ (e = u.pos.enc k) ∧ (e.counting = false ∨ e.dirExt < (e.dirHyst : Int))) ∧
    (∃ (k : Fin 2) (x : Samples) (s : State) (u : State) (e : Enc), (u = advance x s) ∧ (e = u.pos.enc k) ∧ (e.counting = true) ∧ ((e.dirHyst : Int) ≤ e.dirExt) ∧ (e.dir = true)) ∧
    (∃ (k : Fin 2) (x : Samples) (s : State) (u : State) (e : Enc), (u = advance x s) ∧ (e = u.pos.enc k) ∧ (e.counting = true) ∧ ((e.dirHyst : Int) ≤ e.dirExt) ∧ (e.dir = false) ∧ (k = 0)) ∧
    (∃ (k : Fin 2) (x : Samples) (s : State) (u : State) (e : Enc), (u = advance x s) ∧ (e = u.pos.enc k) ∧ (e.counting = true) ∧ ((e.dirHyst : Int) ≤ e.dirExt) ∧ (e.dir = false) ∧ (k = 1)) ∧
    (∃ (k : Fin 2) (x : Samples) (s : State) (u : State) (e : Enc) (dev : Int), (u = advance x s) ∧ (e = u.pos.enc k) ∧ (dev = indexDev e.count e.ref e.indexCounts) ∧ (e.counting = false ∨ e.dir = true ∨ e.indexCounts = 0 ∨ e.zRise = some false)) ∧
    (∃ (k : Fin 2) (x : Samples) (s : State) (u : State) (e : Enc) (dev : Int), (u = advance x s) ∧ (e = u.pos.enc k) ∧ (dev = indexDev e.count e.ref e.indexCounts) ∧ (e.counting = true) ∧ (e.dir = false) ∧ (e.indexCounts ≠ 0) ∧ (e.zRise ≠ some false) ∧ (e.indexValid = false)) ∧
    (∃ (k : Fin 2) (x : Samples) (s : State) (u : State) (e : Enc) (dev : Int), (u = advance x s) ∧ (e = u.pos.enc k) ∧ (dev = indexDev e.count e.ref e.indexCounts) ∧ (e.counting = true) ∧ (e.dir = false) ∧ (e.indexCounts ≠ 0) ∧ (e.zRise ≠ some false) ∧ (e.indexValid = true) ∧ (2 < |dev|)) ∧
    (∃ (k : Fin 2) (x : Samples) (s : State) (u : State) (e : Enc) (dev : Int), (u = advance x s) ∧ (e = u.pos.enc k) ∧ (dev = indexDev e.count e.ref e.indexCounts) ∧ (e.counting = true) ∧ (e.dir = false) ∧ (e.indexCounts ≠ 0) ∧ (e.zRise ≠ some false) ∧ (e.indexValid = true) ∧ (dev = 0)) ∧
    (∃ (k : Fin 2) (x : Samples) (s : State) (u : State) (e : Enc) (dev : Int), (u = advance x s) ∧ (e = u.pos.enc k) ∧ (dev = indexDev e.count e.ref e.indexCounts) ∧ (e.counting = true) ∧ (e.dir = false) ∧ (e.indexCounts ≠ 0) ∧ (e.zRise ≠ some false) ∧ (e.indexValid = true) ∧ (|dev| ≤ 2) ∧ (dev ≠ 0) ∧ (u.pos.encs.length = 2)) ∧
    (∃ (c : Word) (ref : Word) (n : Nat), (n ≠ 0)) :=
  ⟨⟨((0 : Fin 2)), (([] : Samples)), ((let s : State := ready; s : State)), ((advance (([] : Samples)) ((let s : State := ready; s : State)) : State)), ((((advance (([] : Samples)) ((let s : State := ready; s : State)) : State)).pos.enc ((0 : Fin 2)) : Enc)), by decide +kernel⟩,
   ⟨((0 : Fin 2)), (([] : Samples)), ((let s : State := ready; let s : State := setEnc ((0 : Fin 2)) (fun zz => { zz with mode := 1, indexCounts := 1000, indexValid := true, dirHyst := 4, dirExt := 4, dir := true }) s; s : State)), ((advance (([] : Samples)) ((let s : State := ready; let s : State := setEnc ((0 : Fin 2)) (fun zz => { zz with mode := 1, indexCounts := 1000, indexValid := true, dirHyst := 4, dirExt := 4, dir := true }) s; s : State)) : State)), ((((advance (([] : Samples)) ((let s : State := ready; let s : State := setEnc ((0 : Fin 2)) (fun zz => { zz with mode := 1, indexCounts := 1000, indexValid := true, dirHyst := 4, dirExt := 4, dir := true }) s; s : State)) : State)).pos.enc ((0 : Fin 2)) : Enc)), by decide +kernel⟩,
   ⟨((0 : Fin 2)), (([] : Samples)), ((let s : State := ready; let s : State := setEnc ((0 : Fin 2)) (fun zz => { zz with mode := 1, indexCounts := 1000, indexValid := true, dirHyst := 4, dirExt := 4, dir := false }) s; s : State)), ((advance (([] : Samples)) ((let s : State := ready; let s : State := setEnc ((0 : Fin 2)) (fun zz => { zz with mode := 1, indexCounts := 1000, indexValid := true, dirHyst := 4, dirExt := 4, dir := false }) s; s : State)) : State)), ((((advance (([] : Samples)) ((let s : State := ready; let s : State := setEnc ((0 : Fin 2)) (fun zz => { zz with mode := 1, indexCounts := 1000, indexValid := true, dirHyst := 4, dirExt := 4, dir := false }) s; s : State)) : State)).pos.enc ((0 : Fin 2)) : Enc)), by decide +kernel⟩,
   ⟨((1 : Fin 2)), (([] : Samples)), ((let s : State := ready; let s : State := setEnc ((1 : Fin 2)) (fun zz => { zz with mode := 1, indexCounts := 1000, indexValid := true, dirHyst := 4, dirExt := 4, dir := false }) s; s : State)), ((advance (([] : Samples)) ((let s : State := ready; let s : State := setEnc ((1 : Fin 2)) (fun zz => { zz with mode := 1, indexCounts := 1000, indexValid := true, dirHyst := 4, dirExt := 4, dir := false }) s; s : State)) : State)), ((((advance (([] : Samples)) ((let s : State := ready; let s : State := setEnc ((1 : Fin 2)) (fun zz => { zz with mode := 1, indexCounts := 1000, indexValid := true, dirHyst := 4, dirExt := 4, dir := false }) s; s : State)) : State)).pos.enc ((1 : Fin 2)) : Enc)), by decide +kernel⟩,
   ⟨((0 : Fin 2)), (([] : Samples)), ((let s : State := ready; s : State)), ((advance (([] : Samples)) ((let s : State := ready; s : State)) : State)), ((((advance (([] : Samples)) ((let s : State := ready; s : State)) : State)).pos.enc ((0 : Fin 2)) : Enc)), ((indexDev ((((advance (([] : Samples)) ((let s : State := ready; s : State)) : State)).pos.enc ((0 : Fin 2)) : Enc)).count ((((advance (([] : Samples)) ((let s : State := ready; s : State)) : State)).pos.enc ((0 : Fin 2)) : Enc)).ref ((((advance (([] : Samples)) ((let s : State := ready; s : State)) : State)).pos.enc ((0 : Fin 2)) : Enc)).indexCounts : Int)), by decide +kernel⟩,
   ⟨((0 : Fin 2)), (([] : Samples)), ((let s : State := ready; let s : State := setEnc ((0 : Fin 2)) (fun zz => { zz with mode := 1, indexCounts := 1000, indexValid := false }) s; s : State)), ((advance (([] : Samples)) ((let s : State := ready; let s : State := setEnc ((0 : Fin 2)) (fun zz => { zz with mode := 1, indexCounts := 1000, indexValid := false }) s; s : State)) : State)), ((((advance (([] : Samples)) ((let s : State := ready; let s : State := setEnc ((0 : Fin 2)) (fun zz => { zz with mode := 1, indexCounts := 1000, indexValid := false }) s; s : State)) : State)).pos.enc ((0 : Fin 2)) : Enc)), ((indexDev ((((advance (([] : Samples)) ((let s : State := ready; let s : State := setEnc ((0 : Fin 2)) (fun zz => { zz with mode := 1, indexCounts := 1000, indexValid := false }) s; s : State)) : State)).pos.enc ((0 : Fin 2)) : Enc)).count ((((advance (([] : Samples)) ((let s : State := ready; let s : State := setEnc ((0 : Fin 2)) (fun zz => { zz with mode := 1, indexCounts := 1000, indexValid := false }) s; s : State)) : State)).pos.enc ((0 : Fin 2)) : Enc)).ref ((((advance (([] : Samples)) ((let s : State := ready; let s : State := setEnc ((0 : Fin 2)) (fun zz => { zz with mode := 1, indexCounts := 1000, indexValid := false }) s; s : State)) : State)).pos.enc ((0 : Fin 2)) : Enc)).indexCounts : Int)), by decide +kernel⟩,
   ⟨((0 : Fin 2)), (([] : Samples)), ((let s : State := ready; let s : State := setEnc ((0 : Fin 2)) (fun zz => { zz with mode := 1, indexCounts := 1000, indexValid := true, count := 1003, ref := 0 }) s; s : State)), ((advance (([] : Samples)) ((let s : State := ready; let s : State := setEnc ((0 : Fin 2)) (fun zz => { zz with mode := 1, indexCounts := 1000, indexValid := true, count := 1003, ref := 0 }) s; s : State)) : State)), ((((advance (([] : Samples)) ((let s : State := ready; let s : State := setEnc ((0 : Fin 2)) (fun zz => { zz with mode := 1, indexCounts := 1000, indexValid := true, count := 1003, ref := 0 }) s; s : State)) : State)).pos.enc ((0 : Fin 2)) : Enc)), ((indexDev ((((advance (([] : Samples)) ((let s : State := ready; let s : State := setEnc ((0 : Fin 2)) (fun zz => { zz with mode := 1, indexCounts := 1000, indexValid := true, count := 1003, ref := 0 }) s; s : State)) : State)).pos.enc ((0 : Fin 2)) : Enc)).count ((((advance (([] : Samples)) ((let s : State := ready; let s : State := setEnc ((0 : Fin 2)) (fun zz => { zz with mode := 1, indexCounts := 1000, indexValid := true, count := 1003, ref := 0 }) s; s : State)) : State)).pos.enc ((0 : Fin 2)) : Enc)).ref ((((advance (([] : Samples)) ((let s : State := ready; let s : State := setEnc ((0 : Fin 2)) (fun zz => { zz with mode := 1, indexCounts := 1000, indexValid := true, count := 1003, ref := 0 }) s; s : State)) : State)).pos.enc ((0 : Fin 2)) : Enc)).indexCounts : Int)), by decide +kernel⟩,
   ⟨((0 : Fin 2)), (([] : Samples)), ((let s : State := ready; let s : State := setEnc ((0 : Fin 2)) (fun zz => { zz with mode := 1, indexCounts := 1000, indexValid := true, count := 2000, ref := 0 }) s; s : State)), ((advance (([] : Samples)) ((let s : State := ready; let s : State := setEnc ((0 : Fin 2)) (fun zz => { zz with mode := 1, indexCounts := 1000, indexValid := true, count := 2000, ref := 0 }) s; s : State)) : State)), ((((advance (([] : Samples)) ((let s : State := ready; let s : State := setEnc ((0 : Fin 2)) (fun zz => { zz with mode := 1, indexCounts := 1000, indexValid := true, count := 2000, ref := 0 }) s; s : State)) : State)).pos.enc ((0 : Fin 2)) : Enc)), ((0 : Int)), by decide +kernel⟩,
   ⟨((0 : Fin 2)), (([] : Samples)), ((let s : State := ready; let s : State := setEnc ((0 : Fin 2)) (fun zz => { zz with mode := 1, indexCounts := 1000, indexValid := true, count := 998, ref := 0, autoCorr := true }) s; s : State)), ((advance (([] : Samples)) ((let s : State := ready; let s : State := setEnc ((0 : Fin 2)) (fun zz => { zz with mode := 1, indexCounts := 1000, indexValid := true, count := 998, ref := 0, autoCorr := true }) s; s : State)) : State)), ((((advance (([] : Samples)) ((let s : State := ready; let s : State := setEnc ((0 : Fin 2)) (fun zz => { zz with mode := 1, indexCounts := 1000, indexValid := true, count := 998, ref := 0, autoCorr := true }) s; s : State)) : State)).pos.enc ((0 : Fin 2)) : Enc)), ((indexDev ((((advance (([] : Samples)) ((let s : State := ready; let s : State := setEnc ((0 : Fin 2)) (fun zz => { zz with mode := 1, indexCounts := 1000, indexValid := true, count := 998, ref := 0, autoCorr := true }) s; s : State)) : State)).pos.enc ((0 : Fin 2)) : Enc)).count ((((advance (([] : Samples)) ((let s : State := ready; let s : State := setEnc ((0 : Fin 2)) (fun zz => { zz with mode := 1, indexCounts := 1000, indexValid := true, count := 998, ref := 0, autoCorr := true }) s; s : State)) : State)).pos.enc ((0 : Fin 2)) : Enc)).ref ((((advance (([] : Samples)) ((let s : State := ready; let s : State := setEnc ((0 : Fin 2)) (fun zz => { zz with mode := 1, indexCounts := 1000, indexValid := true, count := 998, ref := 0, autoCorr := true }) s; s : State)) : State)).pos.enc ((0 : Fin 2)) : Enc)).indexCounts : Int)), by decide +kernel⟩,
   ⟨((77 : Word)), ((5 : Word)), ((1000 : Nat)), by decide +kernel⟩⟩

theorem test_wit_Agreement :
    (∃ (x : Samples) (s : State) (u : State) (e0 : Enc) (e1 : Enc) (run : Nat) (new : Bool), (u = advance x s) ∧ (e0 = u.pos.enc 0) ∧ (e1 = u.pos.enc 1) ∧ (u.since u.pos.agreeAt < 1000000)) ∧
    (∃ (x : Samples) (s : State) (u : State) (e0 : Enc) (e1 : Enc) (run : Nat) (new : Bool), (u = advance x s) ∧ (e0 = u.pos.enc 0) ∧ (e1 = u.pos.enc 1) ∧ (1000000 ≤ u.since u.pos.agreeAt) ∧ (run = (if agreeCondition e0 e1 then min 3 (u.pos.agreeRun + 1) else 0)) ∧ (new = (e0.mode != 0 && e1.mode != 0 && (decide (3 ≤ run) || slowCondition e0 e1)))) :=
  ⟨⟨(([] : Samples)), ((let s : State := ready; let s : State := { s with pos.agreeAt := s.pos.mono }; s : State)), ((advance (([] : Samples)) ((let s : State := ready; let s : State := { s with pos.agreeAt := s.pos.mono }; s : State)) : State)), ((((advance (([] : Samples)) ((let s : State := ready; let s : State := { s with pos.agreeAt := s.pos.mono }; s : State)) : State)).pos.enc 0 : Enc)), ((((advance (([] : Samples)) ((let s : State := ready; let s : State := { s with pos.agreeAt := s.pos.mono }; s : State)) : State)).pos.enc 1 : Enc)), ((0 : Nat)), ((false : Bool)), by decide +kernel⟩,
   ⟨(([] : Samples)), ((let s : State := ready; s : State)), ((advance (([] : Samples)) ((let s : State := ready; s : State)) : State)), ((((advance (([] : Samples)) ((let s : State := ready; s : State)) : State)).pos.enc 0 : Enc)), ((((advance (([] : Samples)) ((let s : State := ready; s : State)) : State)).pos.enc 1 : Enc)), (((if agreeCondition ((((advance (([] : Samples)) ((let s : State := ready; s : State)) : State)).pos.enc 0 : Enc)) ((((advance (([] : Samples)) ((let s : State := ready; s : State)) : State)).pos.enc 1 : Enc)) then min 3 (((advance (([] : Samples)) ((let s : State := ready; s : State)) : State)).pos.agreeRun + 1) else 0) : Nat)), (((((((advance (([] : Samples)) ((let s : State := ready; s : State)) : State)).pos.enc 0 : Enc)).mode != 0 && ((((advance (([] : Samples)) ((let s : State := ready; s : State)) : State)).pos.enc 1 : Enc)).mode != 0 && (decide (3 ≤ (((if agreeCondition ((((advance (([] : Samples)) ((let s : State := ready; s : State)) : State)).pos.enc 0 : Enc)) ((((advance (([] : Samples)) ((let s : State := ready; s : State)) : State)).pos.enc 1 : Enc)) then min 3 (((advance (([] : Samples)) ((let s : State := ready; s : State)) : State)).pos.agreeRun + 1) else 0) : Nat))) || slowCondition ((((advance (([] : Samples)) ((let s : State := ready; s : State)) : State)).pos.enc 0 : Enc)) ((((advance (([] : Samples)) ((let s : State := ready; s : State)) : State)).pos.enc 1 : Enc)))) : Bool)), by decide +kernel⟩⟩

theorem test_wit_Comparators :
    (∃ (n : Fin 24) (x : Samples) (s : State) (u : State), (u = mainUpdate (advance x s)) ∧ (n.val < 8 ∨ (u.cmp n).fires u.pos = false)) ∧
    (∃ (n : Fin 24) (x : Samples) (s : State) (u : State), (u = mainUpdate (advance x s)) ∧ (lowerDue n u = true)) ∧
    (∃ (n : Fin 24) (x : Samples) (s : State) (u : State), (u = mainUpdate (advance x s)) ∧ (8 ≤ n.val) ∧ (n.val < 12) ∧ ((u.cmp n).fires u.pos = true) ∧ (lowerDue n u = false)) ∧
    (∃ (n : Fin 24) (x : Samples) (s : State) (u : State), (u = mainUpdate (advance x s)) ∧ (12 ≤ n.val) ∧ ((u.cmp n).fires u.pos = true) ∧ (lowerDue n u = false) ∧ (u.pos.cmps.length = 24)) ∧
    (∃ (source : Nat) (n : Nat) (p : BitVec 50) (s : State), (s.pos.fifo.length < 32)) ∧
    (∃ (source : Nat) (n : Nat) (p : BitVec 50) (s : State), (32 ≤ s.pos.fifo.length)) ∧
    (∃ (k : _) (c : _) (s : _) (n : Nat) (p : Cmp), Rung 0x0903 6 k c s ∧ (n = fld (c.w 0) 0 5) ∧ (12 ≤ n) ∧ (n ≤ 23) ∧ (fld (c.w 0) 5 2 ≤ 2) ∧ (c.w 0 &&& ~~~ 0x3FFF = 0) ∧ (c.w 1 = s.cg.epochNow) ∧ (c.w 3 &&& ~~~ 0x3FFFF = 0) ∧ (fld (c.w 0) 5 2 = 2 → c.w 4 = 0) ∧ (fld (c.w 0) 8 2 = 1 → fld (c.w 5) 16 16 ≠ 0) ∧ (s.pos.cmps.length = 24) ∧ (s.host.opState = .ready ∨ s.host.opState = .print ∨ s.host.opState = .service) ∧ ((s.cmp n).fires s.pos = false) ∧ (p = { st := .armed, dir := fld (c.w 0) 5 2, late := flag (c.w 0) 7, action := fld (c.w 0) 8 2, pin := fld (c.w 0) 10 2, event := flag (c.w 0) 12, epochBound := flag (c.w 0) 13, epoch := c.w 1, target := BitVec.ofNat 50 (wn64 c.payload 2), period := (c.w 4).toNat, cnt := fld (c.w 5) 0 16, width := fld (c.w 5) 16 16 }) ∧ (p.isLate s.pos = false)) ∧
    (∃ (k : _) (c : _) (s : _) (n : Nat) (p : Cmp), Rung 0x0903 6 k c s ∧ (n = fld (c.w 0) 0 5) ∧ (12 ≤ n) ∧ (n ≤ 23) ∧ (fld (c.w 0) 5 2 ≤ 2) ∧ (c.w 0 &&& ~~~ 0x3FFF = 0) ∧ (c.w 1 = s.cg.epochNow) ∧ (c.w 3 &&& ~~~ 0x3FFFF = 0) ∧ (fld (c.w 0) 5 2 = 2 → c.w 4 = 0) ∧ (fld (c.w 0) 8 2 = 1 → fld (c.w 5) 16 16 ≠ 0) ∧ (s.pos.cmps.length = 24) ∧ (s.host.opState = .ready ∨ s.host.opState = .print ∨ s.host.opState = .service) ∧ ((s.cmp n).fires s.pos = false) ∧ (p = { st := .armed, dir := fld (c.w 0) 5 2, late := flag (c.w 0) 7, action := fld (c.w 0) 8 2, pin := fld (c.w 0) 10 2, event := flag (c.w 0) 12, epochBound := flag (c.w 0) 13, epoch := c.w 1, target := BitVec.ofNat 50 (wn64 c.payload 2), period := (c.w 4).toNat, cnt := fld (c.w 5) 0 16, width := fld (c.w 5) 16 16 }) ∧ (p.isLate s.pos = true) ∧ (p.late = true)) ∧
    (∃ (k : _) (c : _) (s : _) (n : Nat) (p : Cmp), Rung 0x0903 6 k c s ∧ (n = fld (c.w 0) 0 5) ∧ (12 ≤ n) ∧ (n ≤ 23) ∧ (fld (c.w 0) 5 2 ≤ 2) ∧ (c.w 0 &&& ~~~ 0x3FFF = 0) ∧ (c.w 1 = s.cg.epochNow) ∧ (c.w 3 &&& ~~~ 0x3FFFF = 0) ∧ (fld (c.w 0) 5 2 = 2 → c.w 4 = 0) ∧ (fld (c.w 0) 8 2 = 1 → fld (c.w 5) 16 16 ≠ 0) ∧ (s.pos.cmps.length = 24) ∧ (s.host.opState = .ready ∨ s.host.opState = .print ∨ s.host.opState = .service) ∧ ((s.cmp n).fires s.pos = false) ∧ (p = { st := .armed, dir := fld (c.w 0) 5 2, late := flag (c.w 0) 7, action := fld (c.w 0) 8 2, pin := fld (c.w 0) 10 2, event := flag (c.w 0) 12, epochBound := flag (c.w 0) 13, epoch := c.w 1, target := BitVec.ofNat 50 (wn64 c.payload 2), period := (c.w 4).toNat, cnt := fld (c.w 5) 0 16, width := fld (c.w 5) 16 16 }) ∧ (p.isLate s.pos = true) ∧ (p.late = false)) ∧
    (∃ (k : _) (c : _) (s : _) (n : _), Rung 0x0904 1 k c s ∧ ((c.w 0).toNat = n) ∧ (12 ≤ n) ∧ (n ≤ 23) ∧ (s.host.opState ≠ .boot) ∧ (s.pos.cmps.length = 24) ∧ ((s.cmp n).st = .armed) ∧ ((s.cmp n).fires s.pos = false) ∧ (firedNow n s = false)) ∧
    (∃ (k : _) (c : _) (s : _) (n : Nat), Rung 0x0904 1 k c s ∧ ((c.w 0).toNat = n) ∧ (12 ≤ n) ∧ (n ≤ 23) ∧ (s.host.opState ≠ .boot) ∧ (s.pos.cmps.length = 24) ∧ ((s.cmp n).st = .armed) ∧ ((s.cmp n).fires s.pos = false) ∧ (firedNow n s = true)) ∧
    (∃ (k : _) (c : _) (s : _) (n : Nat), Rung 0x0904 1 k c s ∧ ((c.w 0).toNat = n) ∧ (12 ≤ n) ∧ (n ≤ 23) ∧ (s.host.opState ≠ .boot) ∧ (s.pos.cmps.length = 24) ∧ ((s.cmp n).st ≠ .armed)) ∧
    (∃ (k : _) (c : _) (s : _), Rung 0x0905 0 k c s ∧ (s.host.opState ≠ .boot)) :=
  ⟨⟨((0 : Fin 24)), (([] : Samples)), ((let s : State := ready; s : State)), ((mainUpdate (advance (([] : Samples)) ((let s : State := ready; s : State))) : State)), by decide +kernel⟩,
   ⟨((13 : Fin 24)), (([] : Samples)), ((let s : State := ready; let s : State := setCmp 9 (fun zz => { zz with st := .armed, now := true }) s; let s : State := setEnc 0 (fun e => { e with mode := 1 }) s; s : State)), ((mainUpdate (advance (([] : Samples)) ((let s : State := ready; let s : State := setCmp 9 (fun zz => { zz with st := .armed, now := true }) s; let s : State := setEnc 0 (fun e => { e with mode := 1 }) s; s : State))) : State)), by decide +kernel⟩,
   ⟨((9 : Fin 24)), (([] : Samples)), ((let s : State := ready; let s : State := setCmp ((9 : Fin 24)) (fun zz => { zz with st := .armed, now := true }) s; let s : State := setEnc 0 (fun e => { e with mode := 1 }) s; s : State)), ((mainUpdate (advance (([] : Samples)) ((let s : State := ready; let s : State := setCmp ((9 : Fin 24)) (fun zz => { zz with st := .armed, now := true }) s; let s : State := setEnc 0 (fun e => { e with mode := 1 }) s; s : State))) : State)), by decide +kernel⟩,
   ⟨((13 : Fin 24)), (([] : Samples)), ((let s : State := ready; let s : State := setCmp ((13 : Fin 24)) (fun zz => { zz with st := .armed, now := true, period := 5 }) s; let s : State := setEnc 0 (fun e => { e with mode := 1 }) s; s : State)), ((mainUpdate (advance (([] : Samples)) ((let s : State := ready; let s : State := setCmp ((13 : Fin 24)) (fun zz => { zz with st := .armed, now := true, period := 5 }) s; let s : State := setEnc 0 (fun e => { e with mode := 1 }) s; s : State))) : State)), by decide +kernel⟩,
   ⟨((0 : Nat)), ((0 : Nat)), ((0 : BitVec 50)), ((let s : State := ready; s : State)), by decide +kernel⟩,
   ⟨((0 : Nat)), ((0 : Nat)), ((0 : BitVec 50)), ((let s : State := ready; let s : State := { s with pos.fifo := List.replicate 32 [] }; s : State)), by decide +kernel⟩,
   ⟨((0 : Fin 16)), ((mkCmd 0x0903 [12, 0, 9, 0, 0, 0] : RungCmd)), ((let s : State := (ring ((mkCmd 0x0903 [12, 0, 9, 0, 0, 0] : RungCmd)) ready); let s : State := { s with host.opState := .ready }; s : State)), ((fld (((mkCmd 0x0903 [12, 0, 9, 0, 0, 0] : RungCmd)).w 0) 0 5 : Nat)), (({ st := .armed, dir := fld (((mkCmd 0x0903 [12, 0, 9, 0, 0, 0] : RungCmd)).w 0) 5 2, late := flag (((mkCmd 0x0903 [12, 0, 9, 0, 0, 0] : RungCmd)).w 0) 7, action := fld (((mkCmd 0x0903 [12, 0, 9, 0, 0, 0] : RungCmd)).w 0) 8 2, pin := fld (((mkCmd 0x0903 [12, 0, 9, 0, 0, 0] : RungCmd)).w 0) 10 2, event := flag (((mkCmd 0x0903 [12, 0, 9, 0, 0, 0] : RungCmd)).w 0) 12, epochBound := flag (((mkCmd 0x0903 [12, 0, 9, 0, 0, 0] : RungCmd)).w 0) 13, epoch := ((mkCmd 0x0903 [12, 0, 9, 0, 0, 0] : RungCmd)).w 1, target := BitVec.ofNat 50 (wn64 ((mkCmd 0x0903 [12, 0, 9, 0, 0, 0] : RungCmd)).payload 2), period := (((mkCmd 0x0903 [12, 0, 9, 0, 0, 0] : RungCmd)).w 4).toNat, cnt := fld (((mkCmd 0x0903 [12, 0, 9, 0, 0, 0] : RungCmd)).w 5) 0 16, width := fld (((mkCmd 0x0903 [12, 0, 9, 0, 0, 0] : RungCmd)).w 5) 16 16 } : Cmp)), rung_ok (by decide +kernel), by decide +kernel⟩,
   ⟨((0 : Fin 16)), ((mkCmd 0x0903 [(12 + 128), 0, 0, 0, 0, 0] : RungCmd)), ((let s : State := (ring ((mkCmd 0x0903 [(12 + 128), 0, 0, 0, 0, 0] : RungCmd)) ready); let s : State := { s with host.opState := .ready }; s : State)), ((fld (((mkCmd 0x0903 [(12 + 128), 0, 0, 0, 0, 0] : RungCmd)).w 0) 0 5 : Nat)), (({ st := .armed, dir := fld (((mkCmd 0x0903 [(12 + 128), 0, 0, 0, 0, 0] : RungCmd)).w 0) 5 2, late := flag (((mkCmd 0x0903 [(12 + 128), 0, 0, 0, 0, 0] : RungCmd)).w 0) 7, action := fld (((mkCmd 0x0903 [(12 + 128), 0, 0, 0, 0, 0] : RungCmd)).w 0) 8 2, pin := fld (((mkCmd 0x0903 [(12 + 128), 0, 0, 0, 0, 0] : RungCmd)).w 0) 10 2, event := flag (((mkCmd 0x0903 [(12 + 128), 0, 0, 0, 0, 0] : RungCmd)).w 0) 12, epochBound := flag (((mkCmd 0x0903 [(12 + 128), 0, 0, 0, 0, 0] : RungCmd)).w 0) 13, epoch := ((mkCmd 0x0903 [(12 + 128), 0, 0, 0, 0, 0] : RungCmd)).w 1, target := BitVec.ofNat 50 (wn64 ((mkCmd 0x0903 [(12 + 128), 0, 0, 0, 0, 0] : RungCmd)).payload 2), period := (((mkCmd 0x0903 [(12 + 128), 0, 0, 0, 0, 0] : RungCmd)).w 4).toNat, cnt := fld (((mkCmd 0x0903 [(12 + 128), 0, 0, 0, 0, 0] : RungCmd)).w 5) 0 16, width := fld (((mkCmd 0x0903 [(12 + 128), 0, 0, 0, 0, 0] : RungCmd)).w 5) 16 16 } : Cmp)), rung_ok (by decide +kernel), by decide +kernel⟩,
   ⟨((0 : Fin 16)), ((mkCmd 0x0903 [12, 0, 0, 0, 0, 0] : RungCmd)), ((let s : State := (ring ((mkCmd 0x0903 [12, 0, 0, 0, 0, 0] : RungCmd)) ready); let s : State := { s with host.opState := .ready }; s : State)), ((fld (((mkCmd 0x0903 [12, 0, 0, 0, 0, 0] : RungCmd)).w 0) 0 5 : Nat)), (({ st := .armed, dir := fld (((mkCmd 0x0903 [12, 0, 0, 0, 0, 0] : RungCmd)).w 0) 5 2, late := flag (((mkCmd 0x0903 [12, 0, 0, 0, 0, 0] : RungCmd)).w 0) 7, action := fld (((mkCmd 0x0903 [12, 0, 0, 0, 0, 0] : RungCmd)).w 0) 8 2, pin := fld (((mkCmd 0x0903 [12, 0, 0, 0, 0, 0] : RungCmd)).w 0) 10 2, event := flag (((mkCmd 0x0903 [12, 0, 0, 0, 0, 0] : RungCmd)).w 0) 12, epochBound := flag (((mkCmd 0x0903 [12, 0, 0, 0, 0, 0] : RungCmd)).w 0) 13, epoch := ((mkCmd 0x0903 [12, 0, 0, 0, 0, 0] : RungCmd)).w 1, target := BitVec.ofNat 50 (wn64 ((mkCmd 0x0903 [12, 0, 0, 0, 0, 0] : RungCmd)).payload 2), period := (((mkCmd 0x0903 [12, 0, 0, 0, 0, 0] : RungCmd)).w 4).toNat, cnt := fld (((mkCmd 0x0903 [12, 0, 0, 0, 0, 0] : RungCmd)).w 5) 0 16, width := fld (((mkCmd 0x0903 [12, 0, 0, 0, 0, 0] : RungCmd)).w 5) 16 16 } : Cmp)), rung_ok (by decide +kernel), by decide +kernel⟩,
   ⟨((0 : Fin 16)), ((mkCmd 0x0904 [(BitVec.ofNat 32 (12))] : RungCmd)), ((let s : State := (ring ((mkCmd 0x0904 [(BitVec.ofNat 32 (12))] : RungCmd)) ready); let s : State := setCmp 12 (fun zz => { zz with st := .armed }) s; s : State)), 12, rung_ok (by decide +kernel), by decide +kernel⟩,
   ⟨((0 : Fin 16)), ((mkCmd 0x0904 [(BitVec.ofNat 32 (((12 : Nat))))] : RungCmd)), ((let s : State := (ring ((mkCmd 0x0904 [(BitVec.ofNat 32 (((12 : Nat))))] : RungCmd)) ready); let s : State := setCmp ((12 : Nat)) (fun zz => { zz with st := .armed }) s; let s : State := setCmp ((12 : Nat)) (fun zz => { zz with firedAt := some s.pos.mono }) s; s : State)), ((12 : Nat)), rung_ok (by decide +kernel), by decide +kernel⟩,
   ⟨((0 : Fin 16)), ((mkCmd 0x0904 [12] : RungCmd)), ((let s : State := (ring ((mkCmd 0x0904 [12] : RungCmd)) ready); s : State)), ((12 : Nat)), rung_ok (by decide +kernel), by decide +kernel⟩,
   ⟨((0 : Fin 16)), ((mkCmd 0x0905 [] : RungCmd)), ((let s : State := (ring ((mkCmd 0x0905 [] : RungCmd)) ready); s : State)), rung_ok (by decide +kernel), by decide +kernel⟩⟩

theorem test_wit_PositionCommands :
    (∃ (k : _) (c : _) (s : _), Rung 0x0900 1 k c s ∧ (s.host.opState ≠ .boot) ∧ (c.w 0 = 0)) ∧
    (∃ (k : _) (c : _) (s : _), Rung 0x0900 1 k c s ∧ (s.host.opState ≠ .boot) ∧ (c.w 0 = 1)) ∧
    (∃ (k : _) (c : _) (s : _) (n : _) (mode : _), Rung 0x0901 3 k c s ∧ (n = fld (c.w 0) 0 1) ∧ (mode = fld (c.w 0) 1 2) ∧ (mode ≠ 3) ∧ (1 ≤ fld (c.w 0) 8 8) ∧ (1 ≤ fld (c.w 0) 16 16) ∧ (c.w 0 &&& ~~~ 0xFFFFFF1F = 0) ∧ (c.w 2 = 0 ∨ (4 ≤ (c.w 2).toNat ∧ (c.w 2).toNat < 2 ^ 31)) ∧ (s.host.firing = false) ∧ (s.pos.encs.length = 2)) ∧
    (∃ (k : _) (c : _) (s : _), Rung 0x0902 3 k c s ∧ (c.w 0 &&& ~~~ 1 = 0) ∧ (65536 ≤ (c.w 1).toNat) ∧ ((c.w 1).toNat ≤ 65535 * 65536) ∧ (s.host.opState ≠ .boot)) :=
  ⟨⟨((0 : Fin 16)), ((mkCmd 0x0900 [0] : RungCmd)), ((let s : State := (ring ((mkCmd 0x0900 [0] : RungCmd)) ready); s : State)), rung_ok (by decide +kernel), by decide +kernel⟩,
   ⟨((0 : Fin 16)), ((mkCmd 0x0900 [1] : RungCmd)), ((let s : State := (ring ((mkCmd 0x0900 [1] : RungCmd)) ready); s : State)), rung_ok (by decide +kernel), by decide +kernel⟩,
   ⟨((0 : Fin 16)), ((mkCmd 0x0901 [((0 + 256) + 65536), 0, 0] : RungCmd)), ((let s : State := (ring ((mkCmd 0x0901 [((0 + 256) + 65536), 0, 0] : RungCmd)) ready); let s : State := { s with host.firing := false }; s : State)), (fld (((mkCmd 0x0901 [((0 + 256) + 65536), 0, 0] : RungCmd)).w 0) 0 1), (fld (((mkCmd 0x0901 [((0 + 256) + 65536), 0, 0] : RungCmd)).w 0) 1 2), rung_ok (by decide +kernel), by decide +kernel⟩,
   ⟨((0 : Fin 16)), ((mkCmd 0x0902 [0, 65536, 0] : RungCmd)), ((let s : State := (ring ((mkCmd 0x0902 [0, 65536, 0] : RungCmd)) ready); s : State)), rung_ok (by decide +kernel), by decide +kernel⟩⟩

theorem test_wit_Timers :
    (∃ (n : Fin 8) (x : Samples) (s : State) (u : State), (u = mainUpdate (advance x s)) ∧ ((u.timer n).st ≠ 1 ∨ (u.timer n).now u.pos + 50 ≤ (u.timer n).nextAt.toNat)) ∧
    (∃ (n : Fin 8) (x : Samples) (s : State) (u : State), (u = mainUpdate (advance x s)) ∧ ((u.timer n).st = 1) ∧ ((u.timer n).nextAt.toNat < (u.timer n).now u.pos + 50) ∧ (u.pos.timers.length = 8)) ∧
    (∃ (n : Nat) (s : State), ((s.timer n).st = 1) ∧ ((s.timer n).base = true) ∧ ((s.timer n).period = 0) ∧ ((s.timer n).late = false) ∧ ((s.timer n).nextAt.toNat ≤ s.pos.netNow)) ∧
    (∃ (k : _) (c : _) (s : _) (n : _), Rung 0x0909 5 k c s ∧ (n = fld (c.w 0) 0 3) ∧ (c.w 0 &&& ~~~ 0xFFF = 0) ∧ (s.host.opState ≠ .boot) ∧ (s.pos.timers.length = 8) ∧ (flag (c.w 0) 11 = true)) ∧
    (∃ (k : _) (c : _) (s : _) (n : Nat) (t : Timer), Rung 0x0909 5 k c s ∧ (n = fld (c.w 0) 0 3) ∧ (c.w 0 &&& ~~~ 0xFFF = 0) ∧ (s.host.opState ≠ .boot) ∧ (s.pos.timers.length = 8) ∧ (flag (c.w 0) 11 = false) ∧ (n < 2 → fld (c.w 0) 5 3 = 4) ∧ (2 ≤ n → fld (c.w 0) 5 3 < 4) ∧ ((c.w 3).toNat = 0 ∨ (10000 ≤ (c.w 3).toNat ∧ (c.w 3).toNat ≤ 1000000000)) ∧ (fld (c.w 4) 16 16 = 0) ∧ (fld (c.w 0) 5 3 = 1 → fld (c.w 4) 0 16 ≠ 0) ∧ (t = { st := 1, base := flag (c.w 0) 3 && decide (2 ≤ n), late := flag (c.w 0) 4, action := fld (c.w 0) 5 3, pin := fld (c.w 0) 8 2, event := flag (c.w 0) 10, start := BitVec.ofNat 64 (wn64 c.payload 1), nextAt := BitVec.ofNat 64 (wn64 c.payload 1), period := (c.w 3).toNat, width := fld (c.w 4) 0 16 }) ∧ (t.now s.pos < t.start.toNat)) ∧
    (∃ (k : _) (c : _) (s : _) (n : Nat) (t : Timer), Rung 0x0909 5 k c s ∧ (n = fld (c.w 0) 0 3) ∧ (c.w 0 &&& ~~~ 0xFFF = 0) ∧ (s.host.opState ≠ .boot) ∧ (s.pos.timers.length = 8) ∧ (flag (c.w 0) 11 = false) ∧ (n < 2 → fld (c.w 0) 5 3 = 4) ∧ (2 ≤ n → fld (c.w 0) 5 3 < 4) ∧ ((c.w 3).toNat = 0 ∨ (10000 ≤ (c.w 3).toNat ∧ (c.w 3).toNat ≤ 1000000000)) ∧ (fld (c.w 4) 16 16 = 0) ∧ (fld (c.w 0) 5 3 = 1 → fld (c.w 4) 0 16 ≠ 0) ∧ (t = { st := 1, base := flag (c.w 0) 3 && decide (2 ≤ n), late := flag (c.w 0) 4, action := fld (c.w 0) 5 3, pin := fld (c.w 0) 8 2, event := flag (c.w 0) 10, start := BitVec.ofNat 64 (wn64 c.payload 1), nextAt := BitVec.ofNat 64 (wn64 c.payload 1), period := (c.w 3).toNat, width := fld (c.w 4) 0 16 }) ∧ (t.start.toNat ≤ t.now s.pos) ∧ (t.late = true)) ∧
    (∃ (k : _) (c : _) (s : _) (n : Nat) (t : Timer), Rung 0x0909 5 k c s ∧ (n = fld (c.w 0) 0 3) ∧ (c.w 0 &&& ~~~ 0xFFF = 0) ∧ (s.host.opState ≠ .boot) ∧ (s.pos.timers.length = 8) ∧ (flag (c.w 0) 11 = false) ∧ (n < 2 → fld (c.w 0) 5 3 = 4) ∧ (2 ≤ n → fld (c.w 0) 5 3 < 4) ∧ ((c.w 3).toNat = 0 ∨ (10000 ≤ (c.w 3).toNat ∧ (c.w 3).toNat ≤ 1000000000)) ∧ (fld (c.w 4) 16 16 = 0) ∧ (fld (c.w 0) 5 3 = 1 → fld (c.w 4) 0 16 ≠ 0) ∧ (t = { st := 1, base := flag (c.w 0) 3 && decide (2 ≤ n), late := flag (c.w 0) 4, action := fld (c.w 0) 5 3, pin := fld (c.w 0) 8 2, event := flag (c.w 0) 10, start := BitVec.ofNat 64 (wn64 c.payload 1), nextAt := BitVec.ofNat 64 (wn64 c.payload 1), period := (c.w 3).toNat, width := fld (c.w 4) 0 16 }) ∧ (t.start.toNat ≤ t.now s.pos) ∧ (t.late = false)) :=
  ⟨⟨((0 : Fin 8)), (([] : Samples)), ((let s : State := ready; s : State)), ((mainUpdate (advance (([] : Samples)) ((let s : State := ready; s : State))) : State)), by decide +kernel⟩,
   ⟨((0 : Fin 8)), (([] : Samples)), ((let s : State := ready; let s : State := setTimer ((0 : Fin 8)) (fun zz => { zz with st := 1, nextAt := 20 }) s; s : State)), ((mainUpdate (advance (([] : Samples)) ((let s : State := ready; let s : State := setTimer ((0 : Fin 8)) (fun zz => { zz with st := 1, nextAt := 20 }) s; s : State))) : State)), by decide +kernel⟩,
   ⟨((0 : Nat)), ((let s : State := ready; let s : State := setTimer ((0 : Nat)) (fun zz => { zz with st := 1 }) s; let s : State := setTimer ((0 : Nat)) (fun zz => { zz with base := true }) s; let s : State := setTimer ((0 : Nat)) (fun zz => { zz with period := 0 }) s; let s : State := setTimer ((0 : Nat)) (fun zz => { zz with late := false }) s; s : State)), by decide +kernel⟩,
   ⟨((0 : Fin 16)), ((mkCmd 0x0909 [(0 + 2048), 0, 0, 0, 0] : RungCmd)), ((let s : State := (ring ((mkCmd 0x0909 [(0 + 2048), 0, 0, 0, 0] : RungCmd)) ready); s : State)), (fld (((mkCmd 0x0909 [(0 + 2048), 0, 0, 0, 0] : RungCmd)).w 0) 0 3), rung_ok (by decide +kernel), by decide +kernel⟩,
   ⟨((0 : Fin 16)), ((mkCmd 0x0909 [2, 0xFFFFFFFF, 0xFFFF, (BitVec.ofNat 32 (0)), (0 + 0)] : RungCmd)), ((let s : State := (ring ((mkCmd 0x0909 [2, 0xFFFFFFFF, 0xFFFF, (BitVec.ofNat 32 (0)), (0 + 0)] : RungCmd)) ready); s : State)), ((fld (((mkCmd 0x0909 [2, 0xFFFFFFFF, 0xFFFF, (BitVec.ofNat 32 (0)), (0 + 0)] : RungCmd)).w 0) 0 3 : Nat)), (({ st := 1, base := flag (((mkCmd 0x0909 [2, 0xFFFFFFFF, 0xFFFF, (BitVec.ofNat 32 (0)), (0 + 0)] : RungCmd)).w 0) 3 && decide (2 ≤ ((fld (((mkCmd 0x0909 [2, 0xFFFFFFFF, 0xFFFF, (BitVec.ofNat 32 (0)), (0 + 0)] : RungCmd)).w 0) 0 3 : Nat))), late := flag (((mkCmd 0x0909 [2, 0xFFFFFFFF, 0xFFFF, (BitVec.ofNat 32 (0)), (0 + 0)] : RungCmd)).w 0) 4, action := fld (((mkCmd 0x0909 [2, 0xFFFFFFFF, 0xFFFF, (BitVec.ofNat 32 (0)), (0 + 0)] : RungCmd)).w 0) 5 3, pin := fld (((mkCmd 0x0909 [2, 0xFFFFFFFF, 0xFFFF, (BitVec.ofNat 32 (0)), (0 + 0)] : RungCmd)).w 0) 8 2, event := flag (((mkCmd 0x0909 [2, 0xFFFFFFFF, 0xFFFF, (BitVec.ofNat 32 (0)), (0 + 0)] : RungCmd)).w 0) 10, start := BitVec.ofNat 64 (wn64 ((mkCmd 0x0909 [2, 0xFFFFFFFF, 0xFFFF, (BitVec.ofNat 32 (0)), (0 + 0)] : RungCmd)).payload 1), nextAt := BitVec.ofNat 64 (wn64 ((mkCmd 0x0909 [2, 0xFFFFFFFF, 0xFFFF, (BitVec.ofNat 32 (0)), (0 + 0)] : RungCmd)).payload 1), period := (((mkCmd 0x0909 [2, 0xFFFFFFFF, 0xFFFF, (BitVec.ofNat 32 (0)), (0 + 0)] : RungCmd)).w 3).toNat, width := fld (((mkCmd 0x0909 [2, 0xFFFFFFFF, 0xFFFF, (BitVec.ofNat 32 (0)), (0 + 0)] : RungCmd)).w 4) 0 16 } : Timer)), rung_ok (by decide +kernel), by decide +kernel⟩,
   ⟨((0 : Fin 16)), ((mkCmd 0x0909 [(2 + 16), 0, 0, (BitVec.ofNat 32 (0)), (0 + 0)] : RungCmd)), ((let s : State := (ring ((mkCmd 0x0909 [(2 + 16), 0, 0, (BitVec.ofNat 32 (0)), (0 + 0)] : RungCmd)) ready); s : State)), ((fld (((mkCmd 0x0909 [(2 + 16), 0, 0, (BitVec.ofNat 32 (0)), (0 + 0)] : RungCmd)).w 0) 0 3 : Nat)), (({ st := 1, base := flag (((mkCmd 0x0909 [(2 + 16), 0, 0, (BitVec.ofNat 32 (0)), (0 + 0)] : RungCmd)).w 0) 3 && decide (2 ≤ ((fld (((mkCmd 0x0909 [(2 + 16), 0, 0, (BitVec.ofNat 32 (0)), (0 + 0)] : RungCmd)).w 0) 0 3 : Nat))), late := flag (((mkCmd 0x0909 [(2 + 16), 0, 0, (BitVec.ofNat 32 (0)), (0 + 0)] : RungCmd)).w 0) 4, action := fld (((mkCmd 0x0909 [(2 + 16), 0, 0, (BitVec.ofNat 32 (0)), (0 + 0)] : RungCmd)).w 0) 5 3, pin := fld (((mkCmd 0x0909 [(2 + 16), 0, 0, (BitVec.ofNat 32 (0)), (0 + 0)] : RungCmd)).w 0) 8 2, event := flag (((mkCmd 0x0909 [(2 + 16), 0, 0, (BitVec.ofNat 32 (0)), (0 + 0)] : RungCmd)).w 0) 10, start := BitVec.ofNat 64 (wn64 ((mkCmd 0x0909 [(2 + 16), 0, 0, (BitVec.ofNat 32 (0)), (0 + 0)] : RungCmd)).payload 1), nextAt := BitVec.ofNat 64 (wn64 ((mkCmd 0x0909 [(2 + 16), 0, 0, (BitVec.ofNat 32 (0)), (0 + 0)] : RungCmd)).payload 1), period := (((mkCmd 0x0909 [(2 + 16), 0, 0, (BitVec.ofNat 32 (0)), (0 + 0)] : RungCmd)).w 3).toNat, width := fld (((mkCmd 0x0909 [(2 + 16), 0, 0, (BitVec.ofNat 32 (0)), (0 + 0)] : RungCmd)).w 4) 0 16 } : Timer)), rung_ok (by decide +kernel), by decide +kernel⟩,
   ⟨((0 : Fin 16)), ((mkCmd 0x0909 [(0 + 128), 0, 0, (BitVec.ofNat 32 (0)), (0 + 0)] : RungCmd)), ((let s : State := (ring ((mkCmd 0x0909 [(0 + 128), 0, 0, (BitVec.ofNat 32 (0)), (0 + 0)] : RungCmd)) ready); s : State)), ((fld (((mkCmd 0x0909 [(0 + 128), 0, 0, (BitVec.ofNat 32 (0)), (0 + 0)] : RungCmd)).w 0) 0 3 : Nat)), (({ st := 1, base := flag (((mkCmd 0x0909 [(0 + 128), 0, 0, (BitVec.ofNat 32 (0)), (0 + 0)] : RungCmd)).w 0) 3 && decide (2 ≤ ((fld (((mkCmd 0x0909 [(0 + 128), 0, 0, (BitVec.ofNat 32 (0)), (0 + 0)] : RungCmd)).w 0) 0 3 : Nat))), late := flag (((mkCmd 0x0909 [(0 + 128), 0, 0, (BitVec.ofNat 32 (0)), (0 + 0)] : RungCmd)).w 0) 4, action := fld (((mkCmd 0x0909 [(0 + 128), 0, 0, (BitVec.ofNat 32 (0)), (0 + 0)] : RungCmd)).w 0) 5 3, pin := fld (((mkCmd 0x0909 [(0 + 128), 0, 0, (BitVec.ofNat 32 (0)), (0 + 0)] : RungCmd)).w 0) 8 2, event := flag (((mkCmd 0x0909 [(0 + 128), 0, 0, (BitVec.ofNat 32 (0)), (0 + 0)] : RungCmd)).w 0) 10, start := BitVec.ofNat 64 (wn64 ((mkCmd 0x0909 [(0 + 128), 0, 0, (BitVec.ofNat 32 (0)), (0 + 0)] : RungCmd)).payload 1), nextAt := BitVec.ofNat 64 (wn64 ((mkCmd 0x0909 [(0 + 128), 0, 0, (BitVec.ofNat 32 (0)), (0 + 0)] : RungCmd)).payload 1), period := (((mkCmd 0x0909 [(0 + 128), 0, 0, (BitVec.ofNat 32 (0)), (0 + 0)] : RungCmd)).w 3).toNat, width := fld (((mkCmd 0x0909 [(0 + 128), 0, 0, (BitVec.ofNat 32 (0)), (0 + 0)] : RungCmd)).w 4) 0 16 } : Timer)), rung_ok (by decide +kernel), by decide +kernel⟩⟩

theorem test_wit_TimeMessages :
    (∃ (d : Byte) (b : Bool) (p : Dword) (s : State), (¬(s.pos.ptpEnable = true ∧ d = s.pos.ptpDomain ∧ b = s.pos.ptpUdp ∧ ∃ m, s.pos.master = some m ∧ m.port = p))) ∧
    (∃ (d : Byte) (b : Bool) (p : Dword) (seq : Nat) (f : Bool) (log : Int) (t1 : Option Dword) (t4 : Dword) (j : Int) (s : State), (fromMaster d b p s = false)) ∧
    (∃ (d : Byte) (b : Bool) (p : Dword) (seq : Nat) (f : Bool) (log : Int) (t1 : Option Dword) (j : Int) (s : State), (log < -4 ∨ 1 < log)) ∧
    (∃ (d : Byte) (b : Bool) (p : Dword) (seq : Nat) (log : Int) (t1 : Option Dword) (j : Int) (s : State) (t2 : Dword), (fromMaster d b p s = true) ∧ (-4 ≤ log) ∧ (log ≤ 1) ∧ (s.pos.syncT1 = some (none, t2, seq))) ∧
    (∃ (seq : Nat) (j : Int) (s : State), (s.pos.ptpEnable = false ∨ s.pos.master = none)) ∧
    (∃ (seq : Nat) (j : Int) (s : State), (s.pos.ptpEnable = true) ∧ (s.pos.master.isSome = true)) ∧
    (∃ (d : Byte) (b : Bool) (p : Dword) (log : Int) (seq : Nat) (q2 : Nat) (t1 : Dword) (t2 : Dword) (t3 : Dword) (t4 : Dword) (s : State), (fromMaster d b p s = true) ∧ (s.pos.syncT1 = some (some t1, t2, q2)) ∧ (s.pos.delayT3 = some (t3, seq)) ∧ (s.pos.xchg.length < 7)) ∧
    (∃ (d : Byte) (b : Bool) (p : Dword) (log : Int) (seq : Nat) (q2 : Nat) (t1 : Dword) (t2 : Dword) (t3 : Dword) (t4 : Dword) (s : State), (fromMaster d b p s = true) ∧ (s.pos.syncT1 = some (some t1, t2, q2)) ∧ (s.pos.delayT3 = some (t3, seq)) ∧ (s.pos.xchg.length = 7)) ∧
    (∃ (d : Byte) (p1 : Nat) (cls : Nat) (acc : Nat) (var : Nat) (p2 : Nat) (gm : Dword) (steps : Nat) (b : Bool) (port : Dword) (log : Int) (s : State), (s.pos.ptpEnable = false ∨ d ≠ s.pos.ptpDomain ∨ b ≠ s.pos.ptpUdp)) ∧
    (∃ (d : Byte) (m : PtpMaster) (n : Nat) (log : Int) (s : State), (s.pos.ptpEnable = true) ∧ (d = s.pos.ptpDomain) ∧ (s.pos.foreign = [(m, n)]) ∧ (1 ≤ n) ∧ (s.pos.master = none) ∧ (s.pos.tState = .freeRun ∨ s.pos.tState = .expired)) ∧
    (∃ (d : Byte) (m : PtpMaster) (log : Int) (s : State), (s.pos.ptpEnable = true) ∧ (d = s.pos.ptpDomain) ∧ (s.pos.foreign = []) ∧ (s.pos.master = none)) :=
  ⟨⟨((0 : Byte)), ((false : Bool)), ((0 : Dword)), ((let s : State := ready; s : State)), by decide +kernel⟩,
   ⟨((0 : Byte)), ((false : Bool)), ((0 : Dword)), ((0 : Nat)), ((false : Bool)), ((0 : Int)), ((none : Option Dword)), ((0 : Dword)), ((0 : Int)), ((let s : State := ready; s : State)), by decide +kernel⟩,
   ⟨((0 : Byte)), ((false : Bool)), ((0 : Dword)), ((0 : Nat)), ((false : Bool)), ((2 : Int)), ((none : Option Dword)), ((0 : Int)), ((let s : State := ready; s : State)), by decide +kernel⟩,
   ⟨((0 : Byte)), ((false : Bool)), ((8 : Dword)), ((0 : Nat)), ((0 : Int)), ((none : Option Dword)), ((0 : Int)), ((let s : State := slaved; let s : State := { s with pos.syncT1 := some (none, ((55 : Dword)), ((0 : Nat))) }; s : State)), ((55 : Dword)), by decide +kernel⟩,
   ⟨((0 : Nat)), ((0 : Int)), ((let s : State := ready; let s : State := { s with pos.ptpEnable := false }; s : State)), by decide +kernel⟩,
   ⟨((0 : Nat)), ((0 : Int)), ((let s : State := slaved; s : State)), by decide +kernel⟩,
   ⟨((0 : Byte)), ((false : Bool)), ((8 : Dword)), ((0 : Int)), ((0 : Nat)), ((0 : Nat)), ((100 : Dword)), ((150 : Dword)), ((200 : Dword)), ((260 : Dword)), ((let s : State := slaved; let s : State := { s with pos.syncT1 := some (some ((100 : Dword)), ((150 : Dword)), ((0 : Nat))) }; let s : State := { s with pos.delayT3 := some (((200 : Dword)), ((0 : Nat))) }; s : State)), by decide +kernel⟩,
   ⟨((0 : Byte)), ((false : Bool)), ((8 : Dword)), ((0 : Int)), ((0 : Nat)), ((0 : Nat)), ((100 : Dword)), ((150 : Dword)), ((200 : Dword)), ((260 : Dword)), ((let s : State := slaved; let s : State := { s with pos.syncT1 := some (some ((100 : Dword)), ((150 : Dword)), ((0 : Nat))) }; let s : State := { s with pos.delayT3 := some (((200 : Dword)), ((0 : Nat))) }; let s : State := { s with pos.xchg := List.replicate 7 (exchangeOf 100 160 200 260) }; s : State)), by decide +kernel⟩,
   ⟨((0 : Byte)), ((0 : Nat)), ((0 : Nat)), ((0 : Nat)), ((0 : Nat)), ((0 : Nat)), ((0 : Dword)), ((0 : Nat)), ((false : Bool)), ((0 : Dword)), ((0 : Int)), ((let s : State := ready; let s : State := { s with pos.ptpEnable := false }; s : State)), by decide +kernel⟩,
   ⟨((((let s : State := ready; let s : State := { s with pos.ptpEnable := true }; let s : State := { s with pos.foreign := [(((ptp : PtpMaster)), ((1 : Nat)))] }; let s : State := { s with pos.master := none }; let s : State := { s with pos.tState := .freeRun }; let s : State := { s with pos.foreign := [(ptp, 1)] }; s : State)).pos.ptpDomain : Byte)), ((ptp : PtpMaster)), ((1 : Nat)), ((0 : Int)), ((let s : State := ready; let s : State := { s with pos.ptpEnable := true }; let s : State := { s with pos.foreign := [(((ptp : PtpMaster)), ((1 : Nat)))] }; let s : State := { s with pos.master := none }; let s : State := { s with pos.tState := .freeRun }; let s : State := { s with pos.foreign := [(ptp, 1)] }; s : State)), by decide +kernel⟩,
   ⟨((((let s : State := ready; let s : State := { s with pos.ptpEnable := true }; let s : State := { s with pos.foreign := [] }; let s : State := { s with pos.master := none }; s : State)).pos.ptpDomain : Byte)), ((ptp : PtpMaster)), ((0 : Int)), ((let s : State := ready; let s : State := { s with pos.ptpEnable := true }; let s : State := { s with pos.foreign := [] }; let s : State := { s with pos.master := none }; s : State)), by decide +kernel⟩⟩

theorem test_wit_TimeStates :
    (∃ (o : Int) (s : State), (s.pos.tState = .acquiring) ∧ (|o| ≤ 2000) ∧ (15 ≤ s.pos.okRun)) ∧
    (∃ (o : Int) (s : State), (s.pos.tState = .acquiring) ∧ (|o| ≤ 2000) ∧ (s.pos.okRun < 15)) ∧
    (∃ (o : Int) (s : State), (s.pos.tState = .acquiring) ∧ (2000 < |o|) ∧ ((filtered o s).pos.net ≠ s.pos.net)) ∧
    (∃ (o : Int) (s : State), (s.pos.tState = .locked) ∧ (10000 < |o|)) ∧
    (∃ (o : Int) (s : State), (s.pos.tState = .locked) ∧ (|o| ≤ 10000)) ∧
    (∃ (o : Int) (s : State), (s.pos.tState = .holdover) ∧ (2000 < |o|)) ∧
    (∃ (o : Int) (s : State), (s.pos.tState = .holdover) ∧ (|o| ≤ 2000) ∧ (3 ≤ s.pos.okRun)) ∧
    (∃ (o : Int) (s : State), (s.pos.tState = .holdover) ∧ (|o| ≤ 2000) ∧ (s.pos.okRun < 3)) ∧
    (∃ (s : State), (s.pos.master = none ∨ (s.since s.pos.annAt < 3 * s.pos.annNs ∧ s.since s.pos.syncAt < 4 * s.pos.syncNs))) ∧
    (∃ (m : PtpMaster) (s : State), (s.pos.master = some m) ∧ (3 * s.pos.annNs ≤ s.since s.pos.annAt ∨ 4 * s.pos.syncNs ≤ s.since s.pos.syncAt)) ∧
    (∃ (s : State), (s.pos.tState ≠ .holdover ∨ s.pos.errNow ≤ 1000 * s.pos.holdLimit)) ∧
    (∃ (s : State), (s.pos.tState = .holdover) ∧ (1000 * s.pos.holdLimit < s.pos.errNow)) ∧
    (∃ (k : _) (c : _) (s : _) (u : _), Rung 0x0907 5 k c s ∧ (c.w 0 &&& ~~~ 0xFF03 = 0) ∧ (1 ≤ (c.w 1).toNat) ∧ ((c.w 1).toNat ≤ 100000) ∧ (1 ≤ (c.w 2).toNat) ∧ ((c.w 2).toNat ≤ 1000) ∧ (s.host.opState ≠ .boot) ∧ (flag (c.w 0) 0 = true) ∧ (u = { begun k s with pos := { s.pos with ptpEnable := true, ptpUdp := flag (c.w 0) 1, ptpDomain := BitVec.ofNat 8 (fld (c.w 0) 8 8), holdPpb := (c.w 1).toNat, holdLimit := (c.w 2).toNat, ipv4 := c.w 3, ipv4Mask := c.w 4 } }) ∧ (u.pos.ptpUdp = s.pos.ptpUdp) ∧ (u.pos.ptpDomain = s.pos.ptpDomain)) ∧
    (∃ (k : _) (c : _) (s : _) (u : State), Rung 0x0907 5 k c s ∧ (c.w 0 &&& ~~~ 0xFF03 = 0) ∧ (1 ≤ (c.w 1).toNat) ∧ ((c.w 1).toNat ≤ 100000) ∧ (1 ≤ (c.w 2).toNat) ∧ ((c.w 2).toNat ≤ 1000) ∧ (s.host.opState ≠ .boot) ∧ (flag (c.w 0) 0 = true) ∧ (u = { begun k s with pos := { s.pos with ptpEnable := true, ptpUdp := flag (c.w 0) 1, ptpDomain := BitVec.ofNat 8 (fld (c.w 0) 8 8), holdPpb := (c.w 1).toNat, holdLimit := (c.w 2).toNat, ipv4 := c.w 3, ipv4Mask := c.w 4 } }) ∧ (u.pos.ptpUdp ≠ s.pos.ptpUdp ∨ u.pos.ptpDomain ≠ s.pos.ptpDomain)) ∧
    (∃ (k : _) (c : _) (s : _), Rung 0x0907 5 k c s ∧ (c.w 0 &&& ~~~ 0xFF03 = 0) ∧ (1 ≤ (c.w 1).toNat) ∧ ((c.w 1).toNat ≤ 100000) ∧ (1 ≤ (c.w 2).toNat) ∧ ((c.w 2).toNat ≤ 1000) ∧ (s.host.opState ≠ .boot) ∧ (flag (c.w 0) 0 = false)) ∧
    (∃ (k : _) (c : _) (s : _), Rung 0x0908 2 k c s ∧ (s.pos.tState = .freeRun ∨ s.pos.tState = .expired)) :=
  ⟨⟨((0 : Int)), ((let s : State := ready; let s : State := { s with pos.tState := .acquiring }; let s : State := { s with pos.okRun := 15 }; s : State)), by decide +kernel⟩,
   ⟨((2000 : Int)), ((let s : State := ready; let s : State := { s with pos.tState := .acquiring }; let s : State := { s with pos.okRun := 14 }; s : State)), by decide +kernel⟩,
   ⟨((2000000 : Int)), ((let s : State := ready; let s : State := { s with pos.tState := .acquiring }; s : State)), by decide +kernel⟩,
   ⟨((-10001 : Int)), ((let s : State := ready; let s : State := { s with pos.tState := .locked }; s : State)), by decide +kernel⟩,
   ⟨((0 : Int)), ((let s : State := ready; let s : State := { s with pos.tState := .locked }; s : State)), by decide +kernel⟩,
   ⟨((-2001 : Int)), ((let s : State := ready; let s : State := { s with pos.tState := .holdover }; s : State)), by decide +kernel⟩,
   ⟨((0 : Int)), ((let s : State := ready; let s : State := { s with pos.tState := .holdover }; let s : State := { s with pos.okRun := 3 }; s : State)), by decide +kernel⟩,
   ⟨((0 : Int)), ((let s : State := ready; let s : State := { s with pos.tState := .holdover }; s : State)), by decide +kernel⟩,
   ⟨((let s : State := ready; let s : State := { s with pos.master := none }; s : State)), by decide +kernel⟩,
   ⟨((ptp : PtpMaster)), ((let s : State := ready; let s : State := { s with pos.master := some ((ptp : PtpMaster)) }; s : State)), by decide +kernel⟩,
   ⟨((let s : State := ready; s : State)), by decide +kernel⟩,
   ⟨((let s : State := ready; let s : State := { s with pos.tState := .holdover, pos.holdLimit := 1, pos.holdPpb := 1000, pos.mono := 2000000000, pos.holdStart := some 0 }; let s : State := setGroup 1 (fun zz => { zz with st := .armed, trigger := 1 }) s; s : State)), by decide +kernel⟩,
   ⟨((0 : Fin 16)), ((mkCmd 0x0907 [(0 + 1), 1, 1, 0, 0] : RungCmd)), ((let s : State := (ring ((mkCmd 0x0907 [(0 + 1), 1, 1, 0, 0] : RungCmd)) ready); s : State)), { begun ((0 : Fin 16)) ((let s : State := (ring ((mkCmd 0x0907 [(0 + 1), 1, 1, 0, 0] : RungCmd)) ready); s : State)) with pos := { ((let s : State := (ring ((mkCmd 0x0907 [(0 + 1), 1, 1, 0, 0] : RungCmd)) ready); s : State)).pos with ptpEnable := true, ptpUdp := flag (((mkCmd 0x0907 [(0 + 1), 1, 1, 0, 0] : RungCmd)).w 0) 1, ptpDomain := BitVec.ofNat 8 (fld (((mkCmd 0x0907 [(0 + 1), 1, 1, 0, 0] : RungCmd)).w 0) 8 8), holdPpb := (((mkCmd 0x0907 [(0 + 1), 1, 1, 0, 0] : RungCmd)).w 1).toNat, holdLimit := (((mkCmd 0x0907 [(0 + 1), 1, 1, 0, 0] : RungCmd)).w 2).toNat, ipv4 := ((mkCmd 0x0907 [(0 + 1), 1, 1, 0, 0] : RungCmd)).w 3, ipv4Mask := ((mkCmd 0x0907 [(0 + 1), 1, 1, 0, 0] : RungCmd)).w 4 } }, rung_ok (by decide +kernel), by decide +kernel⟩,
   ⟨((0 : Fin 16)), ((mkCmd 0x0907 [3, 1, 1, 0, 0] : RungCmd)), ((let s : State := (ring ((mkCmd 0x0907 [3, 1, 1, 0, 0] : RungCmd)) ready); s : State)), (({ begun ((0 : Fin 16)) ((let s : State := (ring ((mkCmd 0x0907 [3, 1, 1, 0, 0] : RungCmd)) ready); s : State)) with pos := { ((let s : State := (ring ((mkCmd 0x0907 [3, 1, 1, 0, 0] : RungCmd)) ready); s : State)).pos with ptpEnable := true, ptpUdp := flag (((mkCmd 0x0907 [3, 1, 1, 0, 0] : RungCmd)).w 0) 1, ptpDomain := BitVec.ofNat 8 (fld (((mkCmd 0x0907 [3, 1, 1, 0, 0] : RungCmd)).w 0) 8 8), holdPpb := (((mkCmd 0x0907 [3, 1, 1, 0, 0] : RungCmd)).w 1).toNat, holdLimit := (((mkCmd 0x0907 [3, 1, 1, 0, 0] : RungCmd)).w 2).toNat, ipv4 := ((mkCmd 0x0907 [3, 1, 1, 0, 0] : RungCmd)).w 3, ipv4Mask := ((mkCmd 0x0907 [3, 1, 1, 0, 0] : RungCmd)).w 4 } } : State)), rung_ok (by decide +kernel), by decide +kernel⟩,
   ⟨((0 : Fin 16)), ((mkCmd 0x0907 [0, 1, 1, 0, 0] : RungCmd)), ((let s : State := (ring ((mkCmd 0x0907 [0, 1, 1, 0, 0] : RungCmd)) ready); s : State)), rung_ok (by decide +kernel), by decide +kernel⟩,
   ⟨((0 : Fin 16)), ((mkCmd 0x0908 [0, 0] : RungCmd)), ((let s : State := (ring ((mkCmd 0x0908 [0, 0] : RungCmd)) ready); let s : State := { s with pos.tState := .freeRun }; s : State)), rung_ok (by decide +kernel), by decide +kernel⟩⟩

theorem test_wit_AbsolutePosition :
    (∃ (k : Fin 2) (b : Bool) (raw : Nat) (err : Nat) (crc : Nat) (s : State), ((cell s.pos.abs k.val {}).reading = false)) ∧
    (∃ (k : Fin 2) (b : Bool) (raw : Nat) (err : Nat) (crc : Nat) (pos : Nat) (o : Nat) (a : AbsPort) (s : State), (a = cell s.pos.abs k.val {}) ∧ (a.reading = true) ∧ (s.pos.abs.length = 2) ∧ (pos = (if a.protocol = 2 ∧ a.gray then ungray a.posBits (raw % 2 ^ a.posBits) else raw % 2 ^ a.posBits)) ∧ (o = absOutcome a b pos err crc)) ∧
    (∃ (n : Nat) (x : Nat), (x < 2 ^ n)) ∧
    (∃ (a : AbsPort) (pos : Nat) (err : Nat) (crc : Nat), (a.protocol = 1) ∧ (crc ≠ absCrc a pos err)) ∧
    (∃ (k : _) (c : _) (s : _) (n : Nat) (u : _), Rung 0x0906 5 k c s ∧ (n = fld (c.w 0) 0 1) ∧ (c.w 0 &&& ~~~ 0x1FFFF = 0) ∧ (fld (c.w 0) 1 2 ≠ 3) ∧ (8 ≤ fld (c.w 0) 4 6) ∧ (fld (c.w 0) 4 6 ≤ 40) ∧ (fld (c.w 0) 10 2 ≠ 3) ∧ (fld (c.w 0) 12 5 ≤ 16) ∧ (100 ≤ fld (c.w 1) 0 16) ∧ (fld (c.w 1) 0 16 ≤ 10000) ∧ ((s.timer n).st ≠ 1 ∨ (s.timer n).period = 0 ∨ readTime (fld (c.w 0) 1 2) (fld (c.w 0) 4 6) (fld (c.w 0) 10 2) (fld (c.w 0) 12 5) (fld (c.w 1) 0 16) (fld (c.w 2) 24 8) ≤ (s.timer n).period) ∧ (1 ≤ fld (c.w 2) 16 8) ∧ (fld (c.w 2) 16 8 ≤ 100) ∧ (1 ≤ fld (c.w 2) 24 8) ∧ (fld (c.w 2) 24 8 ≤ 100) ∧ (fld (c.w 3) 0 16 ≤ 2000) ∧ (c.w 3 &&& ~~~ 0xFFFF = 0) ∧ ((s.axis n).vel = 0) ∧ (s.pos.abs.length = 2) ∧ (u = (if (cell s.pos.abs n {}).posValid then posLost n (begun k s) else begun k s))) :=
  ⟨⟨((0 : Fin 2)), ((false : Bool)), ((0 : Nat)), ((0 : Nat)), ((0 : Nat)), ((let s : State := ready; let s : State := setAbs ((0 : Fin 2)).val (fun zz => { zz with reading := false }) s; s : State)), by decide +kernel⟩,
   ⟨((0 : Fin 2)), ((false : Bool)), ((0 : Nat)), ((0 : Nat)), ((0 : Nat)), (((if ((cell ((let s : State := ready; let s : State := setAbs ((0 : Fin 2)).val (fun zz => { zz with reading := true, posBits := 10 }) s; s : State)).pos.abs ((0 : Fin 2)).val {} : AbsPort)).protocol = 2 ∧ ((cell ((let s : State := ready; let s : State := setAbs ((0 : Fin 2)).val (fun zz => { zz with reading := true, posBits := 10 }) s; s : State)).pos.abs ((0 : Fin 2)).val {} : AbsPort)).gray then ungray ((cell ((let s : State := ready; let s : State := setAbs ((0 : Fin 2)).val (fun zz => { zz with reading := true, posBits := 10 }) s; s : State)).pos.abs ((0 : Fin 2)).val {} : AbsPort)).posBits (((0 : Nat)) % 2 ^ ((cell ((let s : State := ready; let s : State := setAbs ((0 : Fin 2)).val (fun zz => { zz with reading := true, posBits := 10 }) s; s : State)).pos.abs ((0 : Fin 2)).val {} : AbsPort)).posBits) else ((0 : Nat)) % 2 ^ ((cell ((let s : State := ready; let s : State := setAbs ((0 : Fin 2)).val (fun zz => { zz with reading := true, posBits := 10 }) s; s : State)).pos.abs ((0 : Fin 2)).val {} : AbsPort)).posBits) : Nat)), ((absOutcome ((cell ((let s : State := ready; let s : State := setAbs ((0 : Fin 2)).val (fun zz => { zz with reading := true, posBits := 10 }) s; s : State)).pos.abs ((0 : Fin 2)).val {} : AbsPort)) ((false : Bool)) (((if ((cell ((let s : State := ready; let s : State := setAbs ((0 : Fin 2)).val (fun zz => { zz with reading := true, posBits := 10 }) s; s : State)).pos.abs ((0 : Fin 2)).val {} : AbsPort)).protocol = 2 ∧ ((cell ((let s : State := ready; let s : State := setAbs ((0 : Fin 2)).val (fun zz => { zz with reading := true, posBits := 10 }) s; s : State)).pos.abs ((0 : Fin 2)).val {} : AbsPort)).gray then ungray ((cell ((let s : State := ready; let s : State := setAbs ((0 : Fin 2)).val (fun zz => { zz with reading := true, posBits := 10 }) s; s : State)).pos.abs ((0 : Fin 2)).val {} : AbsPort)).posBits (((0 : Nat)) % 2 ^ ((cell ((let s : State := ready; let s : State := setAbs ((0 : Fin 2)).val (fun zz => { zz with reading := true, posBits := 10 }) s; s : State)).pos.abs ((0 : Fin 2)).val {} : AbsPort)).posBits) else ((0 : Nat)) % 2 ^ ((cell ((let s : State := ready; let s : State := setAbs ((0 : Fin 2)).val (fun zz => { zz with reading := true, posBits := 10 }) s; s : State)).pos.abs ((0 : Fin 2)).val {} : AbsPort)).posBits) : Nat)) ((0 : Nat)) ((0 : Nat)) : Nat)), ((cell ((let s : State := ready; let s : State := setAbs ((0 : Fin 2)).val (fun zz => { zz with reading := true, posBits := 10 }) s; s : State)).pos.abs ((0 : Fin 2)).val {} : AbsPort)), ((let s : State := ready; let s : State := setAbs ((0 : Fin 2)).val (fun zz => { zz with reading := true, posBits := 10 }) s; s : State)), by decide +kernel⟩,
   ⟨((0 : Nat)), ((0 : Nat)), by decide +kernel⟩,
   ⟨(({ protocol := 1, posBits := 10, crcWidth := 6 } : AbsPort)), ((0 : Nat)), ((0 : Nat)), ((12345 : Nat)), by decide +kernel⟩,
   ⟨((0 : Fin 16)), ((mkCmd 0x0906 [(0 + 128), 100, (1 * 65536 + 1 * 16777216), 0, 0] : RungCmd)), ((let s : State := (ring ((mkCmd 0x0906 [(0 + 128), 100, (1 * 65536 + 1 * 16777216), 0, 0] : RungCmd)) ready); let s : State := setAxis ((fld (((mkCmd 0x0906 [(0 + 128), 100, (1 * 65536 + 1 * 16777216), 0, 0] : RungCmd)).w 0) 0 1 : Nat)) (fun zz => { zz with vel := 0 }) s; s : State)), ((fld (((mkCmd 0x0906 [(0 + 128), 100, (1 * 65536 + 1 * 16777216), 0, 0] : RungCmd)).w 0) 0 1 : Nat)), ((if (cell ((let s : State := (ring ((mkCmd 0x0906 [(0 + 128), 100, (1 * 65536 + 1 * 16777216), 0, 0] : RungCmd)) ready); let s : State := setAxis ((fld (((mkCmd 0x0906 [(0 + 128), 100, (1 * 65536 + 1 * 16777216), 0, 0] : RungCmd)).w 0) 0 1 : Nat)) (fun zz => { zz with vel := 0 }) s; s : State)).pos.abs ((fld (((mkCmd 0x0906 [(0 + 128), 100, (1 * 65536 + 1 * 16777216), 0, 0] : RungCmd)).w 0) 0 1 : Nat)) {}).posValid then posLost ((fld (((mkCmd 0x0906 [(0 + 128), 100, (1 * 65536 + 1 * 16777216), 0, 0] : RungCmd)).w 0) 0 1 : Nat)) (begun ((0 : Fin 16)) ((let s : State := (ring ((mkCmd 0x0906 [(0 + 128), 100, (1 * 65536 + 1 * 16777216), 0, 0] : RungCmd)) ready); let s : State := setAxis ((fld (((mkCmd 0x0906 [(0 + 128), 100, (1 * 65536 + 1 * 16777216), 0, 0] : RungCmd)).w 0) 0 1 : Nat)) (fun zz => { zz with vel := 0 }) s; s : State))) else begun ((0 : Fin 16)) ((let s : State := (ring ((mkCmd 0x0906 [(0 + 128), 100, (1 * 65536 + 1 * 16777216), 0, 0] : RungCmd)) ready); let s : State := setAxis ((fld (((mkCmd 0x0906 [(0 + 128), 100, (1 * 65536 + 1 * 16777216), 0, 0] : RungCmd)).w 0) 0 1 : Nat)) (fun zz => { zz with vel := 0 }) s; s : State)))), rung_ok (by decide +kernel), by decide +kernel⟩⟩

theorem test_wit_StepsAndCurrents :
    (∃ (x : Axis) (v : Int), (0 ≤ v)) ∧
    (∃ (x : Axis) (v : Int), (v < 0)) ∧
    (∃ (n : Nat), (n ≤ 256)) ∧
    (∃ (i : Int), (-2 ^ 31 ≤ i) ∧ (i < 2 ^ 31)) :=
  ⟨⟨(({ frac := 77, elec := 5 } : Axis)), ((1500 : Int)), by decide +kernel⟩,
   ⟨(({ frac := 77, elec := 5 } : Axis)), ((-1500000 : Int)), by decide +kernel⟩,
   ⟨((0 : Nat)), by decide +kernel⟩,
   ⟨((0 : Int)), by decide +kernel⟩⟩

theorem test_wit_PlannerLimits :
    (∃ (v : Int) (a : Int) (lim : Int) (jerk : Int) (p : _), (0 ≤ v) ∧ (|a| ≤ lim) ∧ (0 < jerk) ∧ (p = brake v a lim jerk)) ∧
    (∃ (v : Int) (a : Int) (vmax : Int) (lim : Int) (jerk : Int) (stops : List (Int × Int)) (p : _), (0 ≤ v) ∧ (|a| ≤ lim) ∧ (0 < jerk) ∧ (p = planTick v a vmax lim jerk stops)) :=
  ⟨⟨((0 : Int)), ((0 : Int)), ((0 : Int)), ((1 : Int)), (brake ((0 : Int)) ((0 : Int)) ((0 : Int)) ((1 : Int))), by decide +kernel⟩,
   ⟨((0 : Int)), ((0 : Int)), ((0 : Int)), ((0 : Int)), ((1 : Int)), (([] : List (Int × Int))), (planTick ((0 : Int)) ((0 : Int)) ((0 : Int)) ((0 : Int)) ((1 : Int)) (([] : List (Int × Int)))), by decide +kernel⟩⟩

theorem test_wit_TicksAndCauses :
    (∃ (s : State), (s.since s.axes.tickAt < 10000)) ∧
    (∃ (s : State) (u : State), (10000 ≤ s.since s.axes.tickAt) ∧ (u = { s with axes := { s.axes with tickAt := s.pos.mono } })) ∧
    (∃ (a : Nat) (s : State), (a < 2) ∧ (s.axes.ax.length = 2) ∧ ((s.axis a).st = .fault)) ∧
    (∃ (a : Nat) (m : Move) (tag : Word) (s : State), (a < 2) ∧ (s.axes.ax.length = 2) ∧ ((s.axis a).st = .moving) ∧ ((s.axis a).home = none) ∧ ((s.axis a).queue = [m]) ∧ (m.tag = some tag) ∧ (m.dir ≠ 0) ∧ (m.target = (s.axis a).cmd) ∧ ((s.axis a).vel = 0) ∧ ((s.axis a).err.natAbs ≤ (s.axis a).cfg.stallErr)) ∧
    (∃ (a : Nat) (s : State), ((s.axis a).stopDue ≠ [])) ∧
    (∃ (a : Nat) (s : State), ((s.axis a).st = .stopping ∨ (s.axis a).st = .fault) ∧ ((s.axis a).stopDue = [])) ∧
    (∃ (s : State), (s.axes.ax.length = 2)) :=
  ⟨⟨((let s : State := ready; let s : State := { s with axes.tickAt := s.pos.mono }; s : State)), by decide +kernel⟩,
   ⟨((let s : State := ready; s : State)), (({ ((let s : State := ready; s : State)) with axes := { ((let s : State := ready; s : State)).axes with tickAt := ((let s : State := ready; s : State)).pos.mono } } : State)), by decide +kernel⟩,
   ⟨((0 : Nat)), ((let s : State := ready; let s : State := setAxis ((0 : Nat)) (fun zz => { zz with st := .fault }) s; s : State)), by decide +kernel⟩,
   ⟨((0 : Nat)), (({ target := 0, v := 0, blend := false, tag := some 5, dir := 1 } : Move)), ((5 : Word)), ((let s : State := ready; let s : State := setAxis ((0 : Nat)) (fun zz => { zz with st := .moving }) s; let s : State := setAxis ((0 : Nat)) (fun zz => { zz with home := none }) s; let s : State := setAxis ((0 : Nat)) (fun zz => { zz with queue := [(({ target := 0, v := 0, blend := false, tag := some 5, dir := 1 } : Move))] }) s; let s : State := setAxis ((0 : Nat)) (fun zz => { zz with vel := 0 }) s; let s : State := setAxis ((0 : Nat)) (fun zz => { zz with cfg.stallErr := (s.axis ((0 : Nat))).err.natAbs }) s; s : State)), by decide +kernel⟩,
   ⟨((0 : Nat)), ((let s : State := ready; let s : State := setAxis 0 (fun zz => { zz with stopDue := [.limit] }) s; s : State)), by decide +kernel⟩,
   ⟨((0 : Nat)), ((let s : State := ready; let s : State := setAxis ((0 : Nat)) (fun zz => { zz with st := .stopping }) s; let s : State := setAxis ((0 : Nat)) (fun zz => { zz with stopDue := [] }) s; s : State)), by decide +kernel⟩,
   ⟨((let s : State := ready; s : State)), by decide +kernel⟩⟩

theorem test_wit_ChoppersAndSwitches :
    (∃ (a : Fin 2) (s : State), ((s.axis a).vel ≠ 0 ∨ (s.axis a).hold = true ∨ s.since (s.axis a).stillAt < 1000000 * (s.axis a).cfg.holdMs)) ∧
    (∃ (a : Fin 2) (s : State), ((s.axis a).vel = 0) ∧ ((s.axis a).hold = false) ∧ (1000000 * (s.axis a).cfg.holdMs ≤ s.since (s.axis a).stillAt)) ∧
    (∃ (a : Fin 2) (b : Bool) (s : State) (x : Axis) (p : Phase) (q : Phase), (x = s.axis a) ∧ (p = x.phase b) ∧ (p.on = false) ∧ (s.since p.since < 100 * x.cfg.tOff)) ∧
    (∃ (a : Fin 2) (b : Bool) (s : State) (x : Axis) (p : Phase) (q : Phase), (x = s.axis a) ∧ (p = x.phase b) ∧ (p.on = false) ∧ (100 * x.cfg.tOff ≤ s.since p.since) ∧ (q = { on := true, fast := false, code := dacCode x.iNow (x.phaseIndex b), neg := sineNeg (x.phaseIndex b) != (b && x.cfg.fwdSense), since := s.pos.mono })) ∧
    (∃ (a : Fin 2) (b : Bool) (s : State) (u : State) (x : Axis) (p : Phase) (q : Phase), (x = s.axis a) ∧ (p = x.phase b) ∧ (p.on = true) ∧ (s.since p.since < 50 * x.cfg.tBlank)) ∧
    (∃ (a : Fin 2) (b : Bool) (s : State) (u : State) (x : Axis) (p : Phase) (q : Phase), (x = s.axis a) ∧ (p = x.phase b) ∧ (p.on = true) ∧ (50 * x.cfg.tBlank ≤ s.since p.since) ∧ (x.cfg.decay = 0 ∨ x.cfg.fastFrac = 0 ∨ p.code = 0 ∨ (x.cfg.decay = 2 ∧ x.falling b = false)) ∧ (q = { p with on := false, fast := false, since := s.pos.mono })) ∧
    (∃ (a : Fin 2) (b : Bool) (s : State) (u : State) (x : Axis) (p : Phase) (q : Phase), (x = s.axis a) ∧ (p = x.phase b) ∧ (p.on = true) ∧ (50 * x.cfg.tBlank ≤ s.since p.since) ∧ (x.cfg.fastFrac ≠ 0) ∧ (p.code ≠ 0) ∧ (x.cfg.decay = 1 ∨ (x.cfg.decay = 2 ∧ x.falling b = true)) ∧ (q = { p with on := false, fast := true, since := s.pos.mono }) ∧ (u = drive (bridgeOut a b q) (setPhase a b (fun _ => q) s))) ∧
    (∃ (a : Nat) (i : Nat) (clocks : Nat) (level : Bool) (s : State), (a < 2) ∧ (i < 4) ∧ (s.axes.ax.length = 2) ∧ (clocks < (s.axis a).cfg.filtN ∨ (s.axis a).swMask.getLsbD i = true ∨ (s.axis a).sw.getLsbD i = (level == (s.axis a).cfg.pol.getLsbD i))) ∧
    (∃ (a : Nat) (i : Nat) (clocks : Nat) (level : Bool) (s : State), (a < 2) ∧ (i < 4) ∧ (s.axes.ax.length = 2) ∧ ((s.axis a).edgePos.length = 4) ∧ ((s.axis a).cfg.filtN ≤ clocks) ∧ ((s.axis a).swMask.getLsbD i = false) ∧ ((s.axis a).sw.getLsbD i ≠ (level == (s.axis a).cfg.pol.getLsbD i))) ∧
    (∃ (a : Fin 2) (hi : Bool) (level : Bool) (clocks : Nat) (s : State) (u : State) (e : Bool), ((e, u) = switchInput a (b2n hi) level clocks s) ∧ (e = false ∨ (u.axis a).sw.getLsbD (b2n hi) = false)) ∧
    (∃ (a : Fin 2) (hi : Bool) (level : Bool) (clocks : Nat) (s : State) (u : State) (e : Bool) (v : _), ((e, u) = switchInput a (b2n hi) level clocks s) ∧ (e = true) ∧ ((u.axis a).sw.getLsbD (b2n hi) = true) ∧ (v = stickEvent .limitTrip { ev := .limitTrip, source := 0x40 + a, p0 := w32 a, p1 := w32 (b2n hi), p2 := wInt (u.axis a).meas } (setAxis a (fun x => { x with limitTrips := satAdd x.limitTrips 1 }) u)) ∧ ((u.axis a).heading = (if hi then 1 else -1) ∨ s.axes.seq.isSome = true)) ∧
    (∃ (a : Fin 2) (hi : Bool) (level : Bool) (clocks : Nat) (s : State) (u : State) (e : Bool) (v : _), ((e, u) = switchInput a (b2n hi) level clocks s) ∧ (e = true) ∧ ((u.axis a).sw.getLsbD (b2n hi) = true) ∧ (v = stickEvent .limitTrip { ev := .limitTrip, source := 0x40 + a, p0 := w32 a, p1 := w32 (b2n hi), p2 := wInt (u.axis a).meas } (setAxis a (fun x => { x with limitTrips := satAdd x.limitTrips 1 }) u)) ∧ ((u.axis a).heading ≠ (if hi then 1 else -1)) ∧ (s.axes.seq = none)) ∧
    (∃ (a : Fin 2) (level : Bool) (clocks : Nat) (s : State) (u : State) (e : Bool), ((e, u) = switchInput a 2 level clocks s) ∧ ((u.axis a).home = none ∨ e = false)) ∧
    (∃ (a : Fin 2) (level : Bool) (clocks : Nat) (s : State) (u : State) (e : Bool) (h : HomeJob), ((e, u) = switchInput a 2 level clocks s) ∧ ((u.axis a).home = some h) ∧ (e = true) ∧ (h.phase = 2) ∧ ((u.axis a).sw.getLsbD 2 = true)) ∧
    (∃ (a : Fin 2) (level : Bool) (clocks : Nat) (s : State) (u : State) (e : Bool) (h : HomeJob), ((e, u) = switchInput a 2 level clocks s) ∧ ((u.axis a).home = some h) ∧ (e = true) ∧ (h.phase = 0) ∧ ((u.axis a).sw.getLsbD 2 = false)) :=
  ⟨⟨((0 : Fin 2)), ((let s : State := ready; let s : State := setAxis ((0 : Fin 2)) (fun zz => { zz with vel := 1 }) s; s : State)), by decide +kernel⟩,
   ⟨((0 : Fin 2)), ((let s : State := ready; let s : State := setAxis ((0 : Fin 2)) (fun zz => { zz with vel := 0 }) s; let s : State := setAxis ((0 : Fin 2)) (fun zz => { zz with hold := false }) s; s : State)), by decide +kernel⟩,
   ⟨((0 : Fin 2)), ((false : Bool)), ((let s : State := ready; let s : State := setAxis ((0 : Fin 2)) (fun zz => { zz with cfg := { zz.cfg with tOff := 5 } }) s; let s : State := setPhase ((0 : Fin 2)) ((false : Bool)) (fun zz => { zz with on := false, since := s.pos.mono }) s; s : State)), ((((let s : State := ready; let s : State := setAxis ((0 : Fin 2)) (fun zz => { zz with cfg := { zz.cfg with tOff := 5 } }) s; let s : State := setPhase ((0 : Fin 2)) ((false : Bool)) (fun zz => { zz with on := false, since := s.pos.mono }) s; s : State)).axis ((0 : Fin 2)) : Axis)), ((((((let s : State := ready; let s : State := setAxis ((0 : Fin 2)) (fun zz => { zz with cfg := { zz.cfg with tOff := 5 } }) s; let s : State := setPhase ((0 : Fin 2)) ((false : Bool)) (fun zz => { zz with on := false, since := s.pos.mono }) s; s : State)).axis ((0 : Fin 2)) : Axis)).phase ((false : Bool)) : Phase)), (({} : Phase)), by decide +kernel⟩,
   ⟨((0 : Fin 2)), ((false : Bool)), ((let s : State := ready; s : State)), ((((let s : State := ready; s : State)).axis ((0 : Fin 2)) : Axis)), ((((((let s : State := ready; s : State)).axis ((0 : Fin 2)) : Axis)).phase ((false : Bool)) : Phase)), (({ on := true, fast := false, code := dacCode ((((let s : State := ready; s : State)).axis ((0 : Fin 2)) : Axis)).iNow (((((let s : State := ready; s : State)).axis ((0 : Fin 2)) : Axis)).phaseIndex ((false : Bool))), neg := sineNeg (((((let s : State := ready; s : State)).axis ((0 : Fin 2)) : Axis)).phaseIndex ((false : Bool))) != (((false : Bool)) && ((((let s : State := ready; s : State)).axis ((0 : Fin 2)) : Axis)).cfg.fwdSense), since := ((let s : State := ready; s : State)).pos.mono } : Phase)), by decide +kernel⟩,
   ⟨((0 : Fin 2)), ((false : Bool)), ((let s : State := ready; let s : State := setAxis ((0 : Fin 2)) (fun zz => { zz with cfg := { zz.cfg with tBlank := 5 } }) s; let s : State := setPhase ((0 : Fin 2)) ((false : Bool)) (fun zz => { zz with on := true, since := s.pos.mono }) s; s : State)), (({} : State)), ((((let s : State := ready; let s : State := setAxis ((0 : Fin 2)) (fun zz => { zz with cfg := { zz.cfg with tBlank := 5 } }) s; let s : State := setPhase ((0 : Fin 2)) ((false : Bool)) (fun zz => { zz with on := true, since := s.pos.mono }) s; s : State)).axis ((0 : Fin 2)) : Axis)), ((((((let s : State := ready; let s : State := setAxis ((0 : Fin 2)) (fun zz => { zz with cfg := { zz.cfg with tBlank := 5 } }) s; let s : State := setPhase ((0 : Fin 2)) ((false : Bool)) (fun zz => { zz with on := true, since := s.pos.mono }) s; s : State)).axis ((0 : Fin 2)) : Axis)).phase ((false : Bool)) : Phase)), (({} : Phase)), by decide +kernel⟩,
   ⟨((0 : Fin 2)), ((false : Bool)), ((let s : State := ready; let s : State := setPhase ((0 : Fin 2)) ((false : Bool)) (fun zz => { zz with on := true }) s; s : State)), (({} : State)), ((((let s : State := ready; let s : State := setPhase ((0 : Fin 2)) ((false : Bool)) (fun zz => { zz with on := true }) s; s : State)).axis ((0 : Fin 2)) : Axis)), ((((((let s : State := ready; let s : State := setPhase ((0 : Fin 2)) ((false : Bool)) (fun zz => { zz with on := true }) s; s : State)).axis ((0 : Fin 2)) : Axis)).phase ((false : Bool)) : Phase)), (({ ((((((let s : State := ready; let s : State := setPhase ((0 : Fin 2)) ((false : Bool)) (fun zz => { zz with on := true }) s; s : State)).axis ((0 : Fin 2)) : Axis)).phase ((false : Bool)) : Phase)) with on := false, fast := false, since := ((let s : State := ready; let s : State := setPhase ((0 : Fin 2)) ((false : Bool)) (fun zz => { zz with on := true }) s; s : State)).pos.mono } : Phase)), by decide +kernel⟩,
   ⟨((0 : Fin 2)), ((false : Bool)), ((let s : State := ready; let s : State := setAxis ((0 : Fin 2)) (fun zz => { zz with cfg := { zz.cfg with tOff := 5, fastFrac := 2, decay := 1 } }) s; let s : State := setPhase ((0 : Fin 2)) ((false : Bool)) (fun zz => { zz with on := true, code := 4 }) s; s : State)), ((drive (bridgeOut ((0 : Fin 2)) ((false : Bool)) (({ ((((((let s : State := ready; let s : State := setAxis ((0 : Fin 2)) (fun zz => { zz with cfg := { zz.cfg with tOff := 5, fastFrac := 2, decay := 1 } }) s; let s : State := setPhase ((0 : Fin 2)) ((false : Bool)) (fun zz => { zz with on := true, code := 4 }) s; s : State)).axis ((0 : Fin 2)) : Axis)).phase ((false : Bool)) : Phase)) with on := false, fast := true, since := ((let s : State := ready; let s : State := setAxis ((0 : Fin 2)) (fun zz => { zz with cfg := { zz.cfg with tOff := 5, fastFrac := 2, decay := 1 } }) s; let s : State := setPhase ((0 : Fin 2)) ((false : Bool)) (fun zz => { zz with on := true, code := 4 }) s; s : State)).pos.mono } : Phase))) (setPhase ((0 : Fin 2)) ((false : Bool)) (fun _ => (({ ((((((let s : State := ready; let s : State := setAxis ((0 : Fin 2)) (fun zz => { zz with cfg := { zz.cfg with tOff := 5, fastFrac := 2, decay := 1 } }) s; let s : State := setPhase ((0 : Fin 2)) ((false : Bool)) (fun zz => { zz with on := true, code := 4 }) s; s : State)).axis ((0 : Fin 2)) : Axis)).phase ((false : Bool)) : Phase)) with on := false, fast := true, since := ((let s : State := ready; let s : State := setAxis ((0 : Fin 2)) (fun zz => { zz with cfg := { zz.cfg with tOff := 5, fastFrac := 2, decay := 1 } }) s; let s : State := setPhase ((0 : Fin 2)) ((false : Bool)) (fun zz => { zz with on := true, code := 4 }) s; s : State)).pos.mono } : Phase))) ((let s : State := ready; let s : State := setAxis ((0 : Fin 2)) (fun zz => { zz with cfg := { zz.cfg with tOff := 5, fastFrac := 2, decay := 1 } }) s; let s : State := setPhase ((0 : Fin 2)) ((false : Bool)) (fun zz => { zz with on := true, code := 4 }) s; s : State))) : State)), ((((let s : State := ready; let s : State := setAxis ((0 : Fin 2)) (fun zz => { zz with cfg := { zz.cfg with tOff := 5, fastFrac := 2, decay := 1 } }) s; let s : State := setPhase ((0 : Fin 2)) ((false : Bool)) (fun zz => { zz with on := true, code := 4 }) s; s : State)).axis ((0 : Fin 2)) : Axis)), ((((((let s : State := ready; let s : State := setAxis ((0 : Fin 2)) (fun zz => { zz with cfg := { zz.cfg with tOff := 5, fastFrac := 2, decay := 1 } }) s; let s : State := setPhase ((0 : Fin 2)) ((false : Bool)) (fun zz => { zz with on := true, code := 4 }) s; s : State)).axis ((0 : Fin 2)) : Axis)).phase ((false : Bool)) : Phase)), (({ ((((((let s : State := ready; let s : State := setAxis ((0 : Fin 2)) (fun zz => { zz with cfg := { zz.cfg with tOff := 5, fastFrac := 2, decay := 1 } }) s; let s : State := setPhase ((0 : Fin 2)) ((false : Bool)) (fun zz => { zz with on := true, code := 4 }) s; s : State)).axis ((0 : Fin 2)) : Axis)).phase ((false : Bool)) : Phase)) with on := false, fast := true, since := ((let s : State := ready; let s : State := setAxis ((0 : Fin 2)) (fun zz => { zz with cfg := { zz.cfg with tOff := 5, fastFrac := 2, decay := 1 } }) s; let s : State := setPhase ((0 : Fin 2)) ((false : Bool)) (fun zz => { zz with on := true, code := 4 }) s; s : State)).pos.mono } : Phase)), by decide +kernel⟩,
   ⟨((0 : Nat)), ((0 : Nat)), ((0 : Nat)), ((false : Bool)), ((let s : State := ready; let s : State := setAxis ((0 : Nat)) (fun zz => { zz with cfg.filtN := (((0 : Nat)) + 1) }) s; let s : State := setAxis ((0 : Nat)) (fun zz => { zz with swMask := 15 }) s; s : State)), by decide +kernel⟩,
   ⟨((0 : Nat)), ((0 : Nat)), ((0 : Nat)), ((true : Bool)), ((let s : State := ready; let s : State := setAxis ((0 : Nat)) (fun zz => { zz with cfg.pol := 15 }) s; s : State)), by decide +kernel⟩,
   ⟨((0 : Fin 2)), ((false : Bool)), ((false : Bool)), ((0 : Nat)), ((let s : State := ready; let s : State := setAxis ((0 : Fin 2)) (fun zz => { zz with swMask := 15 }) s; s : State)), (((switchInput ((0 : Fin 2)) (b2n ((false : Bool))) ((false : Bool)) ((0 : Nat)) ((let s : State := ready; let s : State := setAxis ((0 : Fin 2)) (fun zz => { zz with swMask := 15 }) s; s : State))).2 : State)), (((switchInput ((0 : Fin 2)) (b2n ((false : Bool))) ((false : Bool)) ((0 : Nat)) ((let s : State := ready; let s : State := setAxis ((0 : Fin 2)) (fun zz => { zz with swMask := 15 }) s; s : State))).1 : Bool)), by decide +kernel⟩,
   ⟨((0 : Fin 2)), ((false : Bool)), ((true : Bool)), ((0 : Nat)), ((let s : State := ready; let s : State := setAxis ((0 : Fin 2)) (fun zz => { zz with cfg.pol := 15, vel := -5 }) s; s : State)), (((switchInput ((0 : Fin 2)) (b2n ((false : Bool))) ((true : Bool)) ((0 : Nat)) ((let s : State := ready; let s : State := setAxis ((0 : Fin 2)) (fun zz => { zz with cfg.pol := 15, vel := -5 }) s; s : State))).2 : State)), (((switchInput ((0 : Fin 2)) (b2n ((false : Bool))) ((true : Bool)) ((0 : Nat)) ((let s : State := ready; let s : State := setAxis ((0 : Fin 2)) (fun zz => { zz with cfg.pol := 15, vel := -5 }) s; s : State))).1 : Bool)), (stickEvent .limitTrip { ev := .limitTrip, source := 0x40 + ((0 : Fin 2)), p0 := w32 ((0 : Fin 2)), p1 := w32 (b2n ((false : Bool))), p2 := wInt ((((switchInput ((0 : Fin 2)) (b2n ((false : Bool))) ((true : Bool)) ((0 : Nat)) ((let s : State := ready; let s : State := setAxis ((0 : Fin 2)) (fun zz => { zz with cfg.pol := 15, vel := -5 }) s; s : State))).2 : State)).axis ((0 : Fin 2))).meas } (setAxis ((0 : Fin 2)) (fun x => { x with limitTrips := satAdd x.limitTrips 1 }) (((switchInput ((0 : Fin 2)) (b2n ((false : Bool))) ((true : Bool)) ((0 : Nat)) ((let s : State := ready; let s : State := setAxis ((0 : Fin 2)) (fun zz => { zz with cfg.pol := 15, vel := -5 }) s; s : State))).2 : State)))), by decide +kernel⟩,
   ⟨((0 : Fin 2)), ((false : Bool)), ((true : Bool)), ((0 : Nat)), ((let s : State := ready; let s : State := setAxis ((0 : Fin 2)) (fun zz => { zz with cfg.pol := 15, vel := 5 }) s; s : State)), (((switchInput ((0 : Fin 2)) (b2n ((false : Bool))) ((true : Bool)) ((0 : Nat)) ((let s : State := ready; let s : State := setAxis ((0 : Fin 2)) (fun zz => { zz with cfg.pol := 15, vel := 5 }) s; s : State))).2 : State)), (((switchInput ((0 : Fin 2)) (b2n ((false : Bool))) ((true : Bool)) ((0 : Nat)) ((let s : State := ready; let s : State := setAxis ((0 : Fin 2)) (fun zz => { zz with cfg.pol := 15, vel := 5 }) s; s : State))).1 : Bool)), (stickEvent .limitTrip { ev := .limitTrip, source := 0x40 + ((0 : Fin 2)), p0 := w32 ((0 : Fin 2)), p1 := w32 (b2n ((false : Bool))), p2 := wInt ((((switchInput ((0 : Fin 2)) (b2n ((false : Bool))) ((true : Bool)) ((0 : Nat)) ((let s : State := ready; let s : State := setAxis ((0 : Fin 2)) (fun zz => { zz with cfg.pol := 15, vel := 5 }) s; s : State))).2 : State)).axis ((0 : Fin 2))).meas } (setAxis ((0 : Fin 2)) (fun x => { x with limitTrips := satAdd x.limitTrips 1 }) (((switchInput ((0 : Fin 2)) (b2n ((false : Bool))) ((true : Bool)) ((0 : Nat)) ((let s : State := ready; let s : State := setAxis ((0 : Fin 2)) (fun zz => { zz with cfg.pol := 15, vel := 5 }) s; s : State))).2 : State)))), by decide +kernel⟩,
   ⟨((0 : Fin 2)), ((true : Bool)), ((0 : Nat)), ((let s : State := ready; let s : State := setAxis ((0 : Fin 2)) (fun zz => { zz with cfg.pol := 15, vel := 5 }) s; s : State)), (((switchInput ((0 : Fin 2)) 2 ((true : Bool)) ((0 : Nat)) ((let s : State := ready; let s : State := setAxis ((0 : Fin 2)) (fun zz => { zz with cfg.pol := 15, vel := 5 }) s; s : State))).2 : State)), (((switchInput ((0 : Fin 2)) 2 ((true : Bool)) ((0 : Nat)) ((let s : State := ready; let s : State := setAxis ((0 : Fin 2)) (fun zz => { zz with cfg.pol := 15, vel := 5 }) s; s : State))).1 : Bool)), by decide +kernel⟩,
   ⟨((0 : Fin 2)), ((true : Bool)), ((0 : Nat)), ((let s : State := ready; let s : State := setAxis ((0 : Fin 2)) (fun zz => { zz with cfg.pol := 15, home := some { tag := 3, phase := 2 } }) s; s : State)), (((switchInput ((0 : Fin 2)) 2 ((true : Bool)) ((0 : Nat)) ((let s : State := ready; let s : State := setAxis ((0 : Fin 2)) (fun zz => { zz with cfg.pol := 15, home := some { tag := 3, phase := 2 } }) s; s : State))).2 : State)), (((switchInput ((0 : Fin 2)) 2 ((true : Bool)) ((0 : Nat)) ((let s : State := ready; let s : State := setAxis ((0 : Fin 2)) (fun zz => { zz with cfg.pol := 15, home := some { tag := 3, phase := 2 } }) s; s : State))).1 : Bool)), (({ tag := 3, phase := 2 } : HomeJob)), by decide +kernel⟩,
   ⟨((0 : Fin 2)), ((false : Bool)), ((0 : Nat)), ((let s : State := ready; let s : State := setAxis ((0 : Fin 2)) (fun zz => { zz with cfg.pol := 15, sw := 15, home := some { tag := 3, phase := 0 } }) s; s : State)), (((switchInput ((0 : Fin 2)) 2 ((false : Bool)) ((0 : Nat)) ((let s : State := ready; let s : State := setAxis ((0 : Fin 2)) (fun zz => { zz with cfg.pol := 15, sw := 15, home := some { tag := 3, phase := 0 } }) s; s : State))).2 : State)), (((switchInput ((0 : Fin 2)) 2 ((false : Bool)) ((0 : Nat)) ((let s : State := ready; let s : State := setAxis ((0 : Fin 2)) (fun zz => { zz with cfg.pol := 15, sw := 15, home := some { tag := 3, phase := 0 } }) s; s : State))).1 : Bool)), (({ tag := 3, phase := 0 } : HomeJob)), by decide +kernel⟩⟩

theorem test_wit_AxisCommands :
    (∃ (k : _) (c : _) (s : _) (a : _), Rung 0x0A00 1 k c s ∧ (s.host.opState ≠ .boot) ∧ ((c.w 0).toNat = a) ∧ (a < 2)) ∧
    (∃ (k : _) (c : _) (s : _) (a : _), Rung 0x0A00 1 k c s ∧ (s.host.opState ≠ .boot) ∧ ((c.w 0).toNat = 256 + a) ∧ (a < 2)) ∧
    (∃ (k : _) (c : _) (s : _) (a : Nat) (g : AxCfg), Rung 0x0A01 15 k c s ∧ (a = fld (c.w 0) 0 1) ∧ (g = axCfgOf c.payload) ∧ (c.w 0 &&& ~~~ 0x1F7F = 0) ∧ (g.decay ≤ 2) ∧ (5 ≤ g.tOff) ∧ (4 ≤ g.tBlank) ∧ (g.tBlank ≤ 60) ∧ (1 ≤ g.stallCycles) ∧ (c.w 2 &&& ~~~ 0x3FFFFFFF = 0) ∧ (g.iHold ≤ g.iRun) ∧ (g.iRun ≤ g.iBoost) ∧ (g.vMax ≤ 2000000) ∧ (g.aMax ≤ g.dMax) ∧ (1 ≤ g.filtN) ∧ (c.w 12 &&& ~~~ 0xFFFF = 0) ∧ ((s.axis a).st = .idle) ∧ (s.host.opState ≠ .safe)) ∧
    (∃ (k : _) (c : _) (s : _) (a : Nat) (target : Int) (n : Nat), Rung 0x0A02 3 k c s ∧ (a = fld (c.w 0) 0 1) ∧ (target = (c.w 1).toInt) ∧ (c.w 0 &&& ~~~ 7 = 0) ∧ ((s.axis a).cfg.softMin ≤ target) ∧ (target ≤ (s.axis a).cfg.softMax) ∧ ((c.w 2).toNat ≤ (s.axis a).cfg.vMax) ∧ (s.host.opState ∈ [.ready, .print, .service] ∨ (s.host.opState = .safe ∧ a = 0 ∧ (s.axis a).cmd < target)) ∧ (cycleOk a s = true) ∧ ((s.axis a).st ≠ .fault) ∧ ((s.axis a).limited target = false) ∧ (moveInterlock a target s = some n)) ∧
    (∃ (k : _) (c : _) (s : _) (a : Nat) (target : Int), Rung 0x0A02 3 k c s ∧ (a = fld (c.w 0) 0 1) ∧ (target = (c.w 1).toInt) ∧ (c.w 0 &&& ~~~ 7 = 0) ∧ ((s.axis a).cfg.softMin ≤ target) ∧ (target ≤ (s.axis a).cfg.softMax) ∧ ((c.w 2).toNat ≤ (s.axis a).cfg.vMax) ∧ (s.host.opState ∈ [.ready, .print, .service] ∨ (s.host.opState = .safe ∧ a = 0 ∧ (s.axis a).cmd < target)) ∧ (cycleOk a s = true) ∧ ((s.axis a).st ≠ .fault) ∧ ((s.axis a).limited target = false) ∧ (a = 0) ∧ ((s.axis 0).cmd < target)) ∧
    (∃ (k : _) (c : _) (s : _) (a : Nat) (target : Int), Rung 0x0A02 3 k c s ∧ (a = fld (c.w 0) 0 1) ∧ (target = (c.w 1).toInt) ∧ (c.w 0 &&& ~~~ 7 = 0) ∧ ((s.axis a).cfg.softMin ≤ target) ∧ (target ≤ (s.axis a).cfg.softMax) ∧ ((c.w 2).toNat ≤ (s.axis a).cfg.vMax) ∧ (s.host.opState ∈ [.ready, .print, .service] ∨ (s.host.opState = .safe ∧ a = 0 ∧ (s.axis a).cmd < target)) ∧ (cycleOk a s = true) ∧ ((s.axis a).st ≠ .fault) ∧ ((s.axis a).limited target = false) ∧ (moveInterlock a target s = none) ∧ (s.host.outst.length < 16) ∧ (flag (c.w 0) 2 = true ∨ (s.axis a).queue.length < 8) ∧ (((settle a (begun k s)).axis a).st = .fault)) ∧
    (∃ (k : _) (c : _) (s : _) (a : Nat) (target : Int) (u : _), Rung 0x0A02 3 k c s ∧ (a = fld (c.w 0) 0 1) ∧ (target = (c.w 1).toInt) ∧ (c.w 0 &&& ~~~ 7 = 0) ∧ ((s.axis a).cfg.softMin ≤ target) ∧ (target ≤ (s.axis a).cfg.softMax) ∧ ((c.w 2).toNat ≤ (s.axis a).cfg.vMax) ∧ (s.host.opState ∈ [.ready, .print, .service] ∨ (s.host.opState = .safe ∧ a = 0 ∧ (s.axis a).cmd < target)) ∧ (cycleOk a s = true) ∧ ((s.axis a).st ≠ .fault) ∧ ((s.axis a).limited target = false) ∧ (moveInterlock a target s = none) ∧ (s.host.outst.length < 16) ∧ (flag (c.w 0) 2 = true ∨ (s.axis a).queue.length < 8) ∧ (((settle a (begun k s)).axis a).st ≠ .fault) ∧ (u = settle a (outstand 0x0A02 c.tag a (begun k s))) ∧ (flag (c.w 0) 2 = false)) ∧
    (∃ (k : _) (c : _) (s : _) (a : Nat) (target : Int) (u : _), Rung 0x0A02 3 k c s ∧ (a = fld (c.w 0) 0 1) ∧ (target = (c.w 1).toInt) ∧ (c.w 0 &&& ~~~ 7 = 0) ∧ ((s.axis a).cfg.softMin ≤ target) ∧ (target ≤ (s.axis a).cfg.softMax) ∧ ((c.w 2).toNat ≤ (s.axis a).cfg.vMax) ∧ (s.host.opState ∈ [.ready, .print, .service] ∨ (s.host.opState = .safe ∧ a = 0 ∧ (s.axis a).cmd < target)) ∧ (cycleOk a s = true) ∧ ((s.axis a).st ≠ .fault) ∧ ((s.axis a).limited target = false) ∧ (moveInterlock a target s = none) ∧ (s.host.outst.length < 16) ∧ (flag (c.w 0) 2 = true ∨ (s.axis a).queue.length < 8) ∧ (((settle a (begun k s)).axis a).st ≠ .fault) ∧ (u = settle a (outstand 0x0A02 c.tag a (begun k s))) ∧ (flag (c.w 0) 2 = true) ∧ (u.axes.ax.length = 2)) ∧
    (∃ (k : _) (c : _) (s : _) (a : Nat) (u : _), Rung 0x0A03 1 k c s ∧ (a = fld (c.w 0) 0 1) ∧ (c.w 0 &&& ~~~ 3 = 0) ∧ (s.host.opState ≠ .boot) ∧ (u = settle a (begun k s)) ∧ (u.axes.ax.length = 2)) ∧
    (∃ (k : _) (c : _) (s : _) (a : Nat) (u : State) (n : Nat), Rung 0x0A04 1 k c s ∧ (a = fld (c.w 0) 0 1) ∧ (c.w 0 &&& ~~~ 1 = 0) ∧ (s.host.opState = .ready) ∧ ((s.axis a).st = .idle) ∧ (cycleOk a s = true) ∧ ((cell s.pos.abs a {}).posValid = true) ∧ (u = setAxis a (fun x => { x with st := .homing, home := some { tag := c.tag, phase := (if (s.axis a).sw.getLsbD 2 then 0 else 2), seen := (s.axis a).sw.getLsbD 2 } }) (begun k s)) ∧ (interlockOf a (u.axis a).cmd (u.axis a).dest false u = some n)) ∧
    (∃ (k : _) (c : _) (s : _) (a : Nat) (u : State), Rung 0x0A04 1 k c s ∧ (a = fld (c.w 0) 0 1) ∧ (c.w 0 &&& ~~~ 1 = 0) ∧ (s.host.opState = .ready) ∧ ((s.axis a).st = .idle) ∧ (cycleOk a s = true) ∧ ((cell s.pos.abs a {}).posValid = true) ∧ (u = setAxis a (fun x => { x with st := .homing, home := some { tag := c.tag, phase := (if (s.axis a).sw.getLsbD 2 then 0 else 2), seen := (s.axis a).sw.getLsbD 2 } }) (begun k s)) ∧ (interlockOf a (u.axis a).cmd (u.axis a).dest false u = none) ∧ (s.host.outst.length < 16)) ∧
    (∃ (k : _) (c : _) (s : _) (q : Nat), Rung 0x0A05 1 k c s ∧ (q = fld (c.w 0) 8 2) ∧ (c.w 0 &&& ~~~ 0xF301 = 0) ∧ (q ≠ 0) ∧ (q = 3 → fld (c.w 0) 12 4 ≠ 0) ∧ (s.host.opState = .ready ∨ (s.host.opState = .service ∧ q ≠ 2)) ∧ (s.axes.seqCfgd = true) ∧ (cycleOk 0 s = true) ∧ (cycleOk 1 s = true) ∧ (∀ x ∈ s.axes.ax, x.st = .idle) ∧ (s.host.outst.length < 16) ∧ (s.axes.ax.length = 2)) ∧
    (∃ (k : Fin 16) (c : RungCmd) (s : State) (p : Nat → Int), Rung 0x0A06 11 k c s ∧ (∀ i, p i = (c.w i).toInt) ∧ (∀ i, i < 5 → (s.axis 0).cfg.softMin ≤ p i ∧ p i ≤ (s.axis 0).cfg.softMax) ∧ (∀ i, i < 4 → (s.axis 1).cfg.softMin ≤ p (5 + i) ∧ p (5 + i) ≤ (s.axis 1).cfg.softMax) ∧ (p 0 < p 1) ∧ (p 1 ≤ p 3) ∧ (p 1 ≤ p 4) ∧ (p 3 < p 2) ∧ (p 4 < p 2) ∧ (1 ≤ fld (c.w 9) 16 16) ∧ (fld (c.w 9) 16 16 ≤ 1000) ∧ (∀ x ∈ s.axes.ax, x.st = .idle) ∧ (s.host.opState ≠ .safe)) ∧
    (∃ (k : _) (c : _) (s : _) (a : Nat), Rung 0x0A07 1 k c s ∧ (a = fld (c.w 0) 0 1) ∧ (c.w 0 &&& ~~~ 1 = 0) ∧ ((s.axis a).st = .fault) ∧ ((cell s.pos.abs a {}).posValid = true) ∧ ((s.axis a).fault = 2 ∨ ((s.axis a).vel = 0 ∧ (s.axis a).err.natAbs ≤ (s.axis a).cfg.stallErr))) :=
  ⟨⟨((0 : Fin 16)), ((mkCmd 0x0A00 [(BitVec.ofNat 32 (((0 : Nat))))] : RungCmd)), ((let s : State := (ring ((mkCmd 0x0A00 [(BitVec.ofNat 32 (((0 : Nat))))] : RungCmd)) ready); s : State)), ((0 : Nat)), rung_ok (by decide +kernel), by decide +kernel⟩,
   ⟨((0 : Fin 16)), ((mkCmd 0x0A00 [(BitVec.ofNat 32 (256 + ((0 : Nat))))] : RungCmd)), ((let s : State := (ring ((mkCmd 0x0A00 [(BitVec.ofNat 32 (256 + ((0 : Nat))))] : RungCmd)) ready); s : State)), ((0 : Nat)), rung_ok (by decide +kernel), by decide +kernel⟩,
   ⟨((0 : Fin 16)), ((mkCmd 0x0A01 ([0, (5 + 4 * 256 + 0x1000000)] ++ List.replicate 9 0 ++ [1, 0, 0, 0]) : RungCmd)), ((let s : State := (ring ((mkCmd 0x0A01 ([0, (5 + 4 * 256 + 0x1000000)] ++ List.replicate 9 0 ++ [1, 0, 0, 0]) : RungCmd)) ready); let s : State := setAxis ((fld (((mkCmd 0x0A01 ([0, (5 + 4 * 256 + 0x1000000)] ++ List.replicate 9 0 ++ [1, 0, 0, 0]) : RungCmd)).w 0) 0 1 : Nat)) (fun zz => { zz with st := .idle }) s; s : State)), ((fld (((mkCmd 0x0A01 ([0, (5 + 4 * 256 + 0x1000000)] ++ List.replicate 9 0 ++ [1, 0, 0, 0]) : RungCmd)).w 0) 0 1 : Nat)), ((axCfgOf ((mkCmd 0x0A01 ([0, (5 + 4 * 256 + 0x1000000)] ++ List.replicate 9 0 ++ [1, 0, 0, 0]) : RungCmd)).payload : AxCfg)), rung_ok (by decide +kernel), by decide +kernel⟩,
   ⟨((0 : Fin 16)), ((mkCmd 0x0A02 [1, 0, 0] : RungCmd)), ((let s : State := (ring ((mkCmd 0x0A02 [1, 0, 0] : RungCmd)) ready); let s : State := setAxis ((fld (((mkCmd 0x0A02 [1, 0, 0] : RungCmd)).w 0) 0 1 : Nat)) (fun zz => { zz with cfg.softMax := (((((mkCmd 0x0A02 [1, 0, 0] : RungCmd)).w 1).toInt : Int)) }) s; let s : State := setAxis ((fld (((mkCmd 0x0A02 [1, 0, 0] : RungCmd)).w 0) 0 1 : Nat)) (fun zz => { zz with cfg.vMax := (((mkCmd 0x0A02 [1, 0, 0] : RungCmd)).w 2).toNat }) s; let s : State := { s with pos.timers := s.pos.timers.map fun t => { t with st := 1, action := 4, period := 1000000 } }; let s : State := { s with axes.lifts := [0, 50, 100, 150, 200] }; let s : State := setAxis ((fld (((mkCmd 0x0A02 [1, 0, 0] : RungCmd)).w 0) 0 1 : Nat)) (fun zz => { zz with cfg.softMax := 1000 }) s; s : State)), ((fld (((mkCmd 0x0A02 [1, 0, 0] : RungCmd)).w 0) 0 1 : Nat)), (((((mkCmd 0x0A02 [1, 0, 0] : RungCmd)).w 1).toInt : Int)), ((2 : Nat)), rung_ok (by decide +kernel), by decide +kernel⟩,
   ⟨((0 : Fin 16)), ((mkCmd 0x0A02 [0, 500, 0] : RungCmd)), ((let s : State := (ring ((mkCmd 0x0A02 [0, 500, 0] : RungCmd)) ready); let s : State := setAxis ((fld (((mkCmd 0x0A02 [0, 500, 0] : RungCmd)).w 0) 0 1 : Nat)) (fun zz => { zz with cfg.softMax := (((((mkCmd 0x0A02 [0, 500, 0] : RungCmd)).w 1).toInt : Int)) }) s; let s : State := setAxis ((fld (((mkCmd 0x0A02 [0, 500, 0] : RungCmd)).w 0) 0 1 : Nat)) (fun zz => { zz with cfg.vMax := (((mkCmd 0x0A02 [0, 500, 0] : RungCmd)).w 2).toNat }) s; let s : State := { s with pos.timers := s.pos.timers.map fun t => { t with st := 1, action := 4, period := 1000000 } }; let s : State := setAxis ((fld (((mkCmd 0x0A02 [0, 500, 0] : RungCmd)).w 0) 0 1 : Nat)) (fun zz => { zz with cfg.softMax := 1000 }) s; s : State)), ((fld (((mkCmd 0x0A02 [0, 500, 0] : RungCmd)).w 0) 0 1 : Nat)), (((((mkCmd 0x0A02 [0, 500, 0] : RungCmd)).w 1).toInt : Int)), rung_ok (by decide +kernel), by decide +kernel⟩,
   ⟨((0 : Fin 16)), ((mkCmd 0x0A02 [0, 500, 0] : RungCmd)), ((let s : State := (ring ((mkCmd 0x0A02 [0, 500, 0] : RungCmd)) ready); let s : State := setAxis ((fld (((mkCmd 0x0A02 [0, 500, 0] : RungCmd)).w 0) 0 1 : Nat)) (fun zz => { zz with cfg.softMax := (((((mkCmd 0x0A02 [0, 500, 0] : RungCmd)).w 1).toInt : Int)) }) s; let s : State := setAxis ((fld (((mkCmd 0x0A02 [0, 500, 0] : RungCmd)).w 0) 0 1 : Nat)) (fun zz => { zz with cfg.vMax := (((mkCmd 0x0A02 [0, 500, 0] : RungCmd)).w 2).toNat }) s; let s : State := { s with pos.timers := s.pos.timers.map fun t => { t with st := 1, action := 4, period := 1000000 } }; let s : State := setAxis ((fld (((mkCmd 0x0A02 [0, 500, 0] : RungCmd)).w 0) 0 1 : Nat)) (fun zz => { zz with cfg.softMax := 1000 }) s; let s : State := setAxis ((fld (((mkCmd 0x0A02 [0, 500, 0] : RungCmd)).w 0) 0 1 : Nat)) (fun zz => { zz with stopDue := [.stall] }) s; s : State)), ((fld (((mkCmd 0x0A02 [0, 500, 0] : RungCmd)).w 0) 0 1 : Nat)), (((((mkCmd 0x0A02 [0, 500, 0] : RungCmd)).w 1).toInt : Int)), rung_ok (by decide +kernel), by decide +kernel⟩,
   ⟨((0 : Fin 16)), ((mkCmd 0x0A02 [0, 500, 0] : RungCmd)), ((let s : State := (ring ((mkCmd 0x0A02 [0, 500, 0] : RungCmd)) ready); let s : State := setAxis ((fld (((mkCmd 0x0A02 [0, 500, 0] : RungCmd)).w 0) 0 1 : Nat)) (fun zz => { zz with cfg.softMax := (((((mkCmd 0x0A02 [0, 500, 0] : RungCmd)).w 1).toInt : Int)) }) s; let s : State := setAxis ((fld (((mkCmd 0x0A02 [0, 500, 0] : RungCmd)).w 0) 0 1 : Nat)) (fun zz => { zz with cfg.vMax := (((mkCmd 0x0A02 [0, 500, 0] : RungCmd)).w 2).toNat }) s; let s : State := { s with pos.timers := s.pos.timers.map fun t => { t with st := 1, action := 4, period := 1000000 } }; let s : State := setAxis ((fld (((mkCmd 0x0A02 [0, 500, 0] : RungCmd)).w 0) 0 1 : Nat)) (fun zz => { zz with cfg.softMax := 1000 }) s; s : State)), ((fld (((mkCmd 0x0A02 [0, 500, 0] : RungCmd)).w 0) 0 1 : Nat)), (((((mkCmd 0x0A02 [0, 500, 0] : RungCmd)).w 1).toInt : Int)), (settle ((fld (((mkCmd 0x0A02 [0, 500, 0] : RungCmd)).w 0) 0 1 : Nat)) (outstand 0x0A02 ((mkCmd 0x0A02 [0, 500, 0] : RungCmd)).tag ((fld (((mkCmd 0x0A02 [0, 500, 0] : RungCmd)).w 0) 0 1 : Nat)) (begun ((0 : Fin 16)) ((let s : State := (ring ((mkCmd 0x0A02 [0, 500, 0] : RungCmd)) ready); let s : State := setAxis ((fld (((mkCmd 0x0A02 [0, 500, 0] : RungCmd)).w 0) 0 1 : Nat)) (fun zz => { zz with cfg.softMax := (((((mkCmd 0x0A02 [0, 500, 0] : RungCmd)).w 1).toInt : Int)) }) s; let s : State := setAxis ((fld (((mkCmd 0x0A02 [0, 500, 0] : RungCmd)).w 0) 0 1 : Nat)) (fun zz => { zz with cfg.vMax := (((mkCmd 0x0A02 [0, 500, 0] : RungCmd)).w 2).toNat }) s; let s : State := { s with pos.timers := s.pos.timers.map fun t => { t with st := 1, action := 4, period := 1000000 } }; let s : State := setAxis ((fld (((mkCmd 0x0A02 [0, 500, 0] : RungCmd)).w 0) 0 1 : Nat)) (fun zz => { zz with cfg.softMax := 1000 }) s; s : State))))), rung_ok (by decide +kernel), by decide +kernel⟩,
   ⟨((0 : Fin 16)), ((mkCmd 0x0A02 [4, 500, 0] : RungCmd)), ((let s : State := (ring ((mkCmd 0x0A02 [4, 500, 0] : RungCmd)) ready); let s : State := setAxis ((fld (((mkCmd 0x0A02 [4, 500, 0] : RungCmd)).w 0) 0 1 : Nat)) (fun zz => { zz with cfg.softMax := (((((mkCmd 0x0A02 [4, 500, 0] : RungCmd)).w 1).toInt : Int)) }) s; let s : State := setAxis ((fld (((mkCmd 0x0A02 [4, 500, 0] : RungCmd)).w 0) 0 1 : Nat)) (fun zz => { zz with cfg.vMax := (((mkCmd 0x0A02 [4, 500, 0] : RungCmd)).w 2).toNat }) s; let s : State := { s with pos.timers := s.pos.timers.map fun t => { t with st := 1, action := 4, period := 1000000 } }; let s : State := setAxis ((fld (((mkCmd 0x0A02 [4, 500, 0] : RungCmd)).w 0) 0 1 : Nat)) (fun zz => { zz with cfg.softMax := 1000 }) s; s : State)), ((fld (((mkCmd 0x0A02 [4, 500, 0] : RungCmd)).w 0) 0 1 : Nat)), (((((mkCmd 0x0A02 [4, 500, 0] : RungCmd)).w 1).toInt : Int)), (settle ((fld (((mkCmd 0x0A02 [4, 500, 0] : RungCmd)).w 0) 0 1 : Nat)) (outstand 0x0A02 ((mkCmd 0x0A02 [4, 500, 0] : RungCmd)).tag ((fld (((mkCmd 0x0A02 [4, 500, 0] : RungCmd)).w 0) 0 1 : Nat)) (begun ((0 : Fin 16)) ((let s : State := (ring ((mkCmd 0x0A02 [4, 500, 0] : RungCmd)) ready); let s : State := setAxis ((fld (((mkCmd 0x0A02 [4, 500, 0] : RungCmd)).w 0) 0 1 : Nat)) (fun zz => { zz with cfg.softMax := (((((mkCmd 0x0A02 [4, 500, 0] : RungCmd)).w 1).toInt : Int)) }) s; let s : State := setAxis ((fld (((mkCmd 0x0A02 [4, 500, 0] : RungCmd)).w 0) 0 1 : Nat)) (fun zz => { zz with cfg.vMax := (((mkCmd 0x0A02 [4, 500, 0] : RungCmd)).w 2).toNat }) s; let s : State := { s with pos.timers := s.pos.timers.map fun t => { t with st := 1, action := 4, period := 1000000 } }; let s : State := setAxis ((fld (((mkCmd 0x0A02 [4, 500, 0] : RungCmd)).w 0) 0 1 : Nat)) (fun zz => { zz with cfg.softMax := 1000 }) s; s : State))))), rung_ok (by decide +kernel), by decide +kernel⟩,
   ⟨((0 : Fin 16)), ((mkCmd 0x0A03 [0] : RungCmd)), ((let s : State := (ring ((mkCmd 0x0A03 [0] : RungCmd)) ready); let s : State := { s with pos.timers := s.pos.timers.map fun t => { t with st := 1, action := 4, period := 1000000 } }; s : State)), ((fld (((mkCmd 0x0A03 [0] : RungCmd)).w 0) 0 1 : Nat)), (settle ((fld (((mkCmd 0x0A03 [0] : RungCmd)).w 0) 0 1 : Nat)) (begun ((0 : Fin 16)) ((let s : State := (ring ((mkCmd 0x0A03 [0] : RungCmd)) ready); let s : State := { s with pos.timers := s.pos.timers.map fun t => { t with st := 1, action := 4, period := 1000000 } }; s : State)))), rung_ok (by decide +kernel), by decide +kernel⟩,
   ⟨((0 : Fin 16)), ((mkCmd 0x0A04 [1] : RungCmd)), ((let s : State := (ring ((mkCmd 0x0A04 [1] : RungCmd)) ready); let s : State := { s with host.opState := .ready }; let s : State := setAxis ((fld (((mkCmd 0x0A04 [1] : RungCmd)).w 0) 0 1 : Nat)) (fun zz => { zz with st := .idle }) s; let s : State := setAbs ((fld (((mkCmd 0x0A04 [1] : RungCmd)).w 0) 0 1 : Nat)) (fun zz => { zz with posValid := true }) s; let s : State := { s with pos.timers := s.pos.timers.map fun t => { t with st := 1, action := 4, period := 1000000 } }; let s : State := { s with axes.lifts := [0, 50, 100, 150, 200] }; s : State)), ((fld (((mkCmd 0x0A04 [1] : RungCmd)).w 0) 0 1 : Nat)), ((setAxis ((fld (((mkCmd 0x0A04 [1] : RungCmd)).w 0) 0 1 : Nat)) (fun x => { x with st := .homing, home := some { tag := ((mkCmd 0x0A04 [1] : RungCmd)).tag, phase := (if (((let s : State := (ring ((mkCmd 0x0A04 [1] : RungCmd)) ready); let s : State := { s with host.opState := .ready }; let s : State := setAxis ((fld (((mkCmd 0x0A04 [1] : RungCmd)).w 0) 0 1 : Nat)) (fun zz => { zz with st := .idle }) s; let s : State := setAbs ((fld (((mkCmd 0x0A04 [1] : RungCmd)).w 0) 0 1 : Nat)) (fun zz => { zz with posValid := true }) s; let s : State := { s with pos.timers := s.pos.timers.map fun t => { t with st := 1, action := 4, period := 1000000 } }; let s : State := { s with axes.lifts := [0, 50, 100, 150, 200] }; s : State)).axis ((fld (((mkCmd 0x0A04 [1] : RungCmd)).w 0) 0 1 : Nat))).sw.getLsbD 2 then 0 else 2), seen := (((let s : State := (ring ((mkCmd 0x0A04 [1] : RungCmd)) ready); let s : State := { s with host.opState := .ready }; let s : State := setAxis ((fld (((mkCmd 0x0A04 [1] : RungCmd)).w 0) 0 1 : Nat)) (fun zz => { zz with st := .idle }) s; let s : State := setAbs ((fld (((mkCmd 0x0A04 [1] : RungCmd)).w 0) 0 1 : Nat)) (fun zz => { zz with posValid := true }) s; let s : State := { s with pos.timers := s.pos.timers.map fun t => { t with st := 1, action := 4, period := 1000000 } }; let s : State := { s with axes.lifts := [0, 50, 100, 150, 200] }; s : State)).axis ((fld (((mkCmd 0x0A04 [1] : RungCmd)).w 0) 0 1 : Nat))).sw.getLsbD 2 } }) (begun ((0 : Fin 16)) ((let s : State := (ring ((mkCmd 0x0A04 [1] : RungCmd)) ready); let s : State := { s with host.opState := .ready }; let s : State := setAxis ((fld (((mkCmd 0x0A04 [1] : RungCmd)).w 0) 0 1 : Nat)) (fun zz => { zz with st := .idle }) s; let s : State := setAbs ((fld (((mkCmd 0x0A04 [1] : RungCmd)).w 0) 0 1 : Nat)) (fun zz => { zz with posValid := true }) s; let s : State := { s with pos.timers := s.pos.timers.map fun t => { t with st := 1, action := 4, period := 1000000 } }; let s : State := { s with axes.lifts := [0, 50, 100, 150, 200] }; s : State))) : State)), ((2 : Nat)), rung_ok (by decide +kernel), by decide +kernel⟩,
   ⟨((0 : Fin 16)), ((mkCmd 0x0A04 [0] : RungCmd)), ((let s : State := (ring ((mkCmd 0x0A04 [0] : RungCmd)) ready); let s : State := { s with host.opState := .ready }; let s : State := setAxis ((fld (((mkCmd 0x0A04 [0] : RungCmd)).w 0) 0 1 : Nat)) (fun zz => { zz with st := .idle }) s; let s : State := setAbs ((fld (((mkCmd 0x0A04 [0] : RungCmd)).w 0) 0 1 : Nat)) (fun zz => { zz with posValid := true }) s; let s : State := { s with pos.timers := s.pos.timers.map fun t => { t with st := 1, action := 4, period := 1000000 } }; s : State)), ((fld (((mkCmd 0x0A04 [0] : RungCmd)).w 0) 0 1 : Nat)), ((setAxis ((fld (((mkCmd 0x0A04 [0] : RungCmd)).w 0) 0 1 : Nat)) (fun x => { x with st := .homing, home := some { tag := ((mkCmd 0x0A04 [0] : RungCmd)).tag, phase := (if (((let s : State := (ring ((mkCmd 0x0A04 [0] : RungCmd)) ready); let s : State := { s with host.opState := .ready }; let s : State := setAxis ((fld (((mkCmd 0x0A04 [0] : RungCmd)).w 0) 0 1 : Nat)) (fun zz => { zz with st := .idle }) s; let s : State := setAbs ((fld (((mkCmd 0x0A04 [0] : RungCmd)).w 0) 0 1 : Nat)) (fun zz => { zz with posValid := true }) s; let s : State := { s with pos.timers := s.pos.timers.map fun t => { t with st := 1, action := 4, period := 1000000 } }; s : State)).axis ((fld (((mkCmd 0x0A04 [0] : RungCmd)).w 0) 0 1 : Nat))).sw.getLsbD 2 then 0 else 2), seen := (((let s : State := (ring ((mkCmd 0x0A04 [0] : RungCmd)) ready); let s : State := { s with host.opState := .ready }; let s : State := setAxis ((fld (((mkCmd 0x0A04 [0] : RungCmd)).w 0) 0 1 : Nat)) (fun zz => { zz with st := .idle }) s; let s : State := setAbs ((fld (((mkCmd 0x0A04 [0] : RungCmd)).w 0) 0 1 : Nat)) (fun zz => { zz with posValid := true }) s; let s : State := { s with pos.timers := s.pos.timers.map fun t => { t with st := 1, action := 4, period := 1000000 } }; s : State)).axis ((fld (((mkCmd 0x0A04 [0] : RungCmd)).w 0) 0 1 : Nat))).sw.getLsbD 2 } }) (begun ((0 : Fin 16)) ((let s : State := (ring ((mkCmd 0x0A04 [0] : RungCmd)) ready); let s : State := { s with host.opState := .ready }; let s : State := setAxis ((fld (((mkCmd 0x0A04 [0] : RungCmd)).w 0) 0 1 : Nat)) (fun zz => { zz with st := .idle }) s; let s : State := setAbs ((fld (((mkCmd 0x0A04 [0] : RungCmd)).w 0) 0 1 : Nat)) (fun zz => { zz with posValid := true }) s; let s : State := { s with pos.timers := s.pos.timers.map fun t => { t with st := 1, action := 4, period := 1000000 } }; s : State))) : State)), rung_ok (by decide +kernel), by decide +kernel⟩,
   ⟨((0 : Fin 16)), ((mkCmd 0x0A05 [(1 * 256)] : RungCmd)), ((let s : State := (ring ((mkCmd 0x0A05 [(1 * 256)] : RungCmd)) ready); let s : State := { s with host.opState := .ready }; let s : State := { s with axes.seqCfgd := true }; let s : State := { s with pos.timers := s.pos.timers.map fun t => { t with st := 1, action := 4, period := 1000000 } }; s : State)), ((fld (((mkCmd 0x0A05 [(1 * 256)] : RungCmd)).w 0) 8 2 : Nat)), rung_ok (by decide +kernel), by decide +kernel⟩,
   ⟨((0 : Fin 16)), ((mkCmd 0x0A06 [0, 10, 40, 20, 30, 0, 0, 0, 0, 65536, 0] : RungCmd)), ((let s : State := (ring ((mkCmd 0x0A06 [0, 10, 40, 20, 30, 0, 0, 0, 0, 65536, 0] : RungCmd)) ready); let s : State := { s with pos.timers := s.pos.timers.map fun t => { t with st := 1, action := 4, period := 1000000 } }; let s : State := setAxis 0 (fun zz => { zz with cfg.softMax := 1000 }) s; let s : State := setAxis 1 (fun zz => { zz with cfg.softMax := 1000 }) s; s : State)), ((fun i => (((mkCmd 0x0A06 [0, 10, 40, 20, 30, 0, 0, 0, 0, 65536, 0] : RungCmd)).w i).toInt : Nat → Int)), rung_ok (by decide +kernel), fun _ => rfl, by decide +kernel⟩,
   ⟨((0 : Fin 16)), ((mkCmd 0x0A07 [0] : RungCmd)), ((let s : State := (ring ((mkCmd 0x0A07 [0] : RungCmd)) ready); let s : State := setAxis ((fld (((mkCmd 0x0A07 [0] : RungCmd)).w 0) 0 1 : Nat)) (fun zz => { zz with st := .fault }) s; let s : State := setAbs ((fld (((mkCmd 0x0A07 [0] : RungCmd)).w 0) 0 1 : Nat)) (fun zz => { zz with posValid := true }) s; let s : State := setAxis ((fld (((mkCmd 0x0A07 [0] : RungCmd)).w 0) 0 1 : Nat)) (fun zz => { zz with fault := 2 }) s; let s : State := { s with pos.timers := s.pos.timers.map fun t => { t with st := 1, action := 4, period := 1000000 } }; s : State)), ((fld (((mkCmd 0x0A07 [0] : RungCmd)).w 0) 0 1 : Nat)), rung_ok (by decide +kernel), by decide +kernel⟩⟩

theorem test_wit_Illumination :
    (∃ (k : Fin 2) (s : State), ((s.chain k).inUse = false ∨ (s.chain k).legacy = true ∨ ((s.chain k).statusAt ≠ 0 ∧ s.pos.mono.toNat < (s.chain k).statusAt.toNat + 10000000))) ∧
    (∃ (k : Fin 2) (s : State), ((s.chain k).inUse = true) ∧ ((s.chain k).legacy = false) ∧ ((s.chain k).statusAt = 0 ∨ (s.chain k).statusAt.toNat + 10000000 ≤ s.pos.mono.toNat) ∧ (s.lamp.chains.length = 2)) ∧
    (∃ (k : Fin 2) (h : Byte) (seen : Byte) (sts : List (List Byte)) (s : State), ((s.chain k).returnBy = []) ∧ ((s.chain k).frameH = 0 ∨ (s.chain k).legacy = true)) ∧
    (∃ (k : Fin 2) (h : Byte) (seen : Byte) (sts : List (List Byte)) (s : State) (u : State), (listens k s = true) ∧ (u = setChain k (fun c => { c with seen := seen.toNat % 64, returnBy := c.returnBy.drop 1 }) s) ∧ (h ≠ 0 ∨ seen.toNat ≠ driversOf k s)) ∧
    (∃ (k : Fin 2) (h : Byte) (seen : Byte) (sts : List (List Byte)) (s : State), (listens k s = true) ∧ (h = 0) ∧ (seen.toNat = driversOf k s) ∧ (s.lamp.chains.length = 2)) ∧
    (∃ (k : Nat) (d : Nat) (st : List Byte) (s : State), (k < 2) ∧ (s.lamp.chains.length = 2) ∧ (le16 st 6 ≠ crc16 (bytesLE 1 d ++ st.take 6))) ∧
    (∃ (k : Nat) (d : Nat) (st : List Byte) (s : State) (v : Drv) (w : Drv), (k < 2) ∧ (d < 32) ∧ (s.lamp.chains.length = 2) ∧ ((s.chain k).drvs.length = 32) ∧ (le16 st 6 = crc16 (bytesLE 1 d ++ st.take 6)) ∧ (v = cell (s.chain k).drvs d {}) ∧ (w = cell ((takeDriver k d st s).chain k).drvs d {}) ∧ (lvTOff (judgeLevels k s) ≤ by8 st 0)) ∧
    (∃ (k : Nat) (d : Nat) (st : List Byte) (s : State) (v : Drv) (w : Drv), (k < 2) ∧ (d < 32) ∧ (s.lamp.chains.length = 2) ∧ ((s.chain k).drvs.length = 32) ∧ (le16 st 6 = crc16 (bytesLE 1 d ++ st.take 6)) ∧ (v = cell (s.chain k).drvs d {}) ∧ (w = cell ((takeDriver k d st s).chain k).drvs d {}) ∧ (by8 st 0 + 10 < lvTOff (judgeLevels k s))) ∧
    (∃ (k : Nat) (d : Nat) (st : List Byte) (s : State) (v : Drv) (w : Drv), (k < 2) ∧ (d < 32) ∧ (s.lamp.chains.length = 2) ∧ ((s.chain k).drvs.length = 32) ∧ (le16 st 6 = crc16 (bytesLE 1 d ++ st.take 6)) ∧ (v = cell (s.chain k).drvs d {}) ∧ (w = cell ((takeDriver k d st s).chain k).drvs d {}) ∧ (by8 st 0 < lvTOff (judgeLevels k s)) ∧ (lvTOff (judgeLevels k s) ≤ by8 st 0 + 10)) ∧
    (∃ (k : Nat) (s : State), ((s.chain k).levels ≠ []) ∧ ((s.chain k).legacy = false)) ∧
    (∃ (k : Fin 2) (s : State), ((s.chain k).returnBy = [])) ∧
    (∃ (k : Fin 2) (m : Nat) (t : Nat) (rest : List (Nat × Nat)) (s : State), ((s.chain k).returnBy = (m, t) :: rest) ∧ (s.pos.mono.toNat < t)) ∧
    (∃ (k : Fin 2) (m : Nat) (t : Nat) (rest : List (Nat × Nat)) (s : State), ((s.chain k).returnBy = (m, t) :: rest) ∧ (t ≤ s.pos.mono.toNat)) ∧
    (∃ (k : Nat) (light : Int) (s : State), ((s.chain k).inUse = false ∨ ((s.chain k).legacy = true ∧ s.host.opState = .safe))) ∧
    (∃ (lit : List (Int × Int)) (light : Int) (on : Int) (l : Int × Int), (overDuty lit light on = false) ∧ (l ∈ lit) ∧ (light ≤ l.1)) ∧
    (∃ (k : Nat) (light : Int) (on : Int) (s : State), (k < 2) ∧ (s.lamp.chains.length = 2) ∧ ((s.chain k).inUse = true) ∧ ((s.chain k).legacy = false ∨ s.host.opState ≠ .safe) ∧ (on = 10 * lvOnTime (s.chain k).levels) ∧ (tooClose (s.chain k).lit light on = false) ∧ (overDuty (s.chain k).lit light on = false)) ∧
    (∃ (k : Nat) (light : Int) (on : Int) (s : State), (k < 2) ∧ (s.lamp.chains.length = 2) ∧ ((s.chain k).inUse = true) ∧ ((s.chain k).legacy = false ∨ s.host.opState ≠ .safe) ∧ (on = 10 * lvOnTime (s.chain k).levels) ∧ (tooClose (s.chain k).lit light on = true ∨ overDuty (s.chain k).lit light on = true)) ∧
    (∃ (k : Fin 2) (s : State), ((s.chain k).legacyLights = [])) ∧
    (∃ (k : Fin 2) (start : Int) (stop : Int) (rest : List (Int × Int)) (s : State) (z : List Byte), ((s.chain k).legacyLights = (start, stop) :: rest) ∧ (z = zeros ((lvLegacyBits (s.chain k).levels + 7) / 8)) ∧ ((s.pos.mono.toNat : Int) < stop)) ∧
    (∃ (k : Fin 2) (start : Int) (stop : Int) (rest : List (Int × Int)) (s : State) (z : List Byte), ((s.chain k).legacyLights = (start, stop) :: rest) ∧ (z = zeros ((lvLegacyBits (s.chain k).levels + 7) / 8)) ∧ (stop ≤ (s.pos.mono.toNat : Int))) :=
  ⟨⟨((0 : Fin 2)), ((let s : State := ready; let s : State := setChain ((0 : Fin 2)) (fun zz => { zz with inUse := false }) s; s : State)), by decide +kernel⟩,
   ⟨((0 : Fin 2)), ((let s : State := ready; let s : State := setChain ((0 : Fin 2)) (fun zz => { zz with inUse := true }) s; let s : State := setChain ((0 : Fin 2)) (fun zz => { zz with legacy := false }) s; let s : State := setChain ((0 : Fin 2)) (fun zz => { zz with statusAt := 0 }) s; s : State)), by decide +kernel⟩,
   ⟨((0 : Fin 2)), ((0 : Byte)), ((0 : Byte)), (([] : List (List Byte))), ((let s : State := ready; let s : State := setChain ((0 : Fin 2)) (fun zz => { zz with returnBy := [] }) s; let s : State := setChain ((0 : Fin 2)) (fun zz => { zz with frameH := 0 }) s; s : State)), by decide +kernel⟩,
   ⟨((0 : Fin 2)), ((1 : Byte)), ((0 : Byte)), (([] : List (List Byte))), ((let s : State := ready; let s : State := setChain ((0 : Fin 2)) (fun zz => { zz with frameH := 1 }) s; s : State)), ((setChain ((0 : Fin 2)) (fun c => { c with seen := ((0 : Byte)).toNat % 64, returnBy := c.returnBy.drop 1 }) ((let s : State := ready; let s : State := setChain ((0 : Fin 2)) (fun zz => { zz with frameH := 1 }) s; s : State)) : State)), by decide +kernel⟩,
   ⟨((0 : Fin 2)), ((0 : Byte)), ((1 : Byte)), (([drvBytes 30] : List (List Byte))), ((let s : State := ready; let s : State := setChain ((0 : Fin 2)) (fun zz => { zz with frameH := 1 }) s; s : State)), by decide +kernel⟩,
   ⟨((0 : Nat)), ((0 : Nat)), (([] : List Byte)), ((let s : State := ready; s : State)), by decide +kernel⟩,
   ⟨((0 : Nat)), ((0 : Nat)), ((drvBytes 85 : List Byte)), ((let s : State := ready; let s : State := setChain ((0 : Nat)) (fun zz => { zz with levels := levels }) s; s : State)), ((cell (((let s : State := ready; let s : State := setChain ((0 : Nat)) (fun zz => { zz with levels := levels }) s; s : State)).chain ((0 : Nat))).drvs ((0 : Nat)) {} : Drv)), ((cell ((takeDriver ((0 : Nat)) ((0 : Nat)) ((drvBytes 85 : List Byte)) ((let s : State := ready; let s : State := setChain ((0 : Nat)) (fun zz => { zz with levels := levels }) s; s : State))).chain ((0 : Nat))).drvs ((0 : Nat)) {} : Drv)), by decide +kernel⟩,
   ⟨((0 : Nat)), ((0 : Nat)), ((drvBytes 74 : List Byte)), ((let s : State := ready; let s : State := setChain ((0 : Nat)) (fun zz => { zz with levels := levels }) s; s : State)), ((cell (((let s : State := ready; let s : State := setChain ((0 : Nat)) (fun zz => { zz with levels := levels }) s; s : State)).chain ((0 : Nat))).drvs ((0 : Nat)) {} : Drv)), ((cell ((takeDriver ((0 : Nat)) ((0 : Nat)) ((drvBytes 74 : List Byte)) ((let s : State := ready; let s : State := setChain ((0 : Nat)) (fun zz => { zz with levels := levels }) s; s : State))).chain ((0 : Nat))).drvs ((0 : Nat)) {} : Drv)), by decide +kernel⟩,
   ⟨((0 : Nat)), ((0 : Nat)), ((drvBytes 75 : List Byte)), ((let s : State := ready; let s : State := setChain ((0 : Nat)) (fun zz => { zz with levels := levels }) s; s : State)), ((cell (((let s : State := ready; let s : State := setChain ((0 : Nat)) (fun zz => { zz with levels := levels }) s; s : State)).chain ((0 : Nat))).drvs ((0 : Nat)) {} : Drv)), ((cell ((takeDriver ((0 : Nat)) ((0 : Nat)) ((drvBytes 75 : List Byte)) ((let s : State := ready; let s : State := setChain ((0 : Nat)) (fun zz => { zz with levels := levels }) s; s : State))).chain ((0 : Nat))).drvs ((0 : Nat)) {} : Drv)), by decide +kernel⟩,
   ⟨((0 : Nat)), ((let s : State := ready; let s : State := setChain ((0 : Nat)) (fun zz => { zz with legacy := false }) s; let s : State := setChain ((0 : Nat)) (fun zz => { zz with levels := levels }) s; s : State)), by decide +kernel⟩,
   ⟨((0 : Fin 2)), ((let s : State := ready; let s : State := setChain ((0 : Fin 2)) (fun zz => { zz with returnBy := [] }) s; s : State)), by decide +kernel⟩,
   ⟨((0 : Fin 2)), ((0 : Nat)), ((1000000000001 : Nat)), (([] : List (Nat × Nat))), ((let s : State := ready; let s : State := setChain ((0 : Fin 2)) (fun zz => { zz with returnBy := (((0 : Nat)), ((1000000000001 : Nat))) :: (([] : List (Nat × Nat))) }) s; s : State)), by decide +kernel⟩,
   ⟨((0 : Fin 2)), ((0 : Nat)), ((0 : Nat)), (([] : List (Nat × Nat))), ((let s : State := ready; let s : State := setChain ((0 : Fin 2)) (fun zz => { zz with returnBy := (((0 : Nat)), ((0 : Nat))) :: (([] : List (Nat × Nat))) }) s; let s : State := setChain ((0 : Fin 2)) (fun zz => { zz with levels := levels }) s; s : State)), by decide +kernel⟩,
   ⟨((0 : Nat)), ((0 : Int)), ((let s : State := ready; let s : State := setChain ((0 : Nat)) (fun zz => { zz with inUse := false }) s; s : State)), by decide +kernel⟩,
   ⟨(([(9000000, 1000)] : List (Int × Int))), ((5 : Int)), ((100 : Int)), (((9000000, 1000) : Int × Int)), by decide +kernel⟩,
   ⟨((0 : Nat)), ((0 : Int)), ((10 * lvOnTime (((let s : State := ready; let s : State := setChain ((0 : Nat)) (fun zz => { zz with inUse := true }) s; let s : State := setChain ((0 : Nat)) (fun zz => { zz with legacy := false }) s; s : State)).chain ((0 : Nat))).levels : Int)), ((let s : State := ready; let s : State := setChain ((0 : Nat)) (fun zz => { zz with inUse := true }) s; let s : State := setChain ((0 : Nat)) (fun zz => { zz with legacy := false }) s; s : State)), by decide +kernel⟩,
   ⟨((0 : Nat)), ((0 : Int)), ((10 * lvOnTime (((let s : State := ready; let s : State := setChain ((0 : Nat)) (fun zz => { zz with inUse := true }) s; let s : State := setChain ((0 : Nat)) (fun zz => { zz with legacy := false }) s; let s : State := setChain ((0 : Nat)) (fun zz => { zz with lit := [(0, 100)] }) s; s : State)).chain ((0 : Nat))).levels : Int)), ((let s : State := ready; let s : State := setChain ((0 : Nat)) (fun zz => { zz with inUse := true }) s; let s : State := setChain ((0 : Nat)) (fun zz => { zz with legacy := false }) s; let s : State := setChain ((0 : Nat)) (fun zz => { zz with lit := [(0, 100)] }) s; s : State)), by decide +kernel⟩,
   ⟨((0 : Fin 2)), ((let s : State := ready; let s : State := setChain ((0 : Fin 2)) (fun zz => { zz with legacyLights := [] }) s; s : State)), by decide +kernel⟩,
   ⟨((0 : Fin 2)), ((0 : Int)), ((1000000000001 : Int)), (([] : List (Int × Int))), ((let s : State := ready; let s : State := setChain ((0 : Fin 2)) (fun zz => { zz with legacyLights := (((0 : Int)), ((1000000000001 : Int))) :: (([] : List (Int × Int))) }) s; s : State)), ((zeros ((lvLegacyBits (((let s : State := ready; let s : State := setChain ((0 : Fin 2)) (fun zz => { zz with legacyLights := (((0 : Int)), ((1000000000001 : Int))) :: (([] : List (Int × Int))) }) s; s : State)).chain ((0 : Fin 2))).levels + 7) / 8) : List Byte)), by decide +kernel⟩,
   ⟨((0 : Fin 2)), ((0 : Int)), ((0 : Int)), (([] : List (Int × Int))), ((let s : State := ready; let s : State := setChain ((0 : Fin 2)) (fun zz => { zz with legacyLights := (((0 : Int)), ((0 : Int))) :: (([] : List (Int × Int))) }) s; s : State)), ((zeros ((lvLegacyBits (((let s : State := ready; let s : State := setChain ((0 : Fin 2)) (fun zz => { zz with legacyLights := (((0 : Int)), ((0 : Int))) :: (([] : List (Int × Int))) }) s; s : State)).chain ((0 : Fin 2))).levels + 7) / 8) : List Byte)), by decide +kernel⟩⟩

theorem test_wit_LampCommands :
    (∃ (k : _) (c : _) (s : _) (n : _), Rung 0x0B00 1 k c s ∧ (s.host.opState ≠ .boot) ∧ (n < 2) ∧ ((c.w 0).toNat = n)) ∧
    (∃ (k : _) (c : _) (s : _) (n : _), Rung 0x0B00 1 k c s ∧ (s.host.opState ≠ .boot) ∧ (n < 2) ∧ ((c.w 0).toNat = 256 + n)) ∧
    (∃ (k : _) (c : _) (s : _) (n : _), Rung 0x0B01 1 k c s ∧ ((c.w 0).toNat = n) ∧ (n < 2) ∧ (s.host.opState = .ready ∨ s.host.opState = .print) ∧ ((s.chain n).inUse = true) ∧ ((s.chain n).legacy = false) ∧ (triggerRuns (s.chain n).camera s = true)) ∧
    (∃ (k : _) (c : _) (s : _) (n : Nat), Rung 0x0B02 1 k c s ∧ ((c.w 0).toNat = n) ∧ (n < 2) ∧ (s.host.opState ≠ .boot) ∧ ((s.chain n).legacy = false) ∧ ((s.chain n).levels ≠ [])) :=
  ⟨⟨((0 : Fin 16)), ((mkCmd 0x0B00 [(BitVec.ofNat 32 (((0 : Nat))))] : RungCmd)), ((let s : State := (ring ((mkCmd 0x0B00 [(BitVec.ofNat 32 (((0 : Nat))))] : RungCmd)) ready); s : State)), ((0 : Nat)), rung_ok (by decide +kernel), by decide +kernel⟩,
   ⟨((0 : Fin 16)), ((mkCmd 0x0B00 [(BitVec.ofNat 32 (256 + ((0 : Nat))))] : RungCmd)), ((let s : State := (ring ((mkCmd 0x0B00 [(BitVec.ofNat 32 (256 + ((0 : Nat))))] : RungCmd)) ready); s : State)), ((0 : Nat)), rung_ok (by decide +kernel), by decide +kernel⟩,
   ⟨((0 : Fin 16)), ((mkCmd 0x0B01 [(BitVec.ofNat 32 (((0 : Nat))))] : RungCmd)), ((let s : State := (ring ((mkCmd 0x0B01 [(BitVec.ofNat 32 (((0 : Nat))))] : RungCmd)) ready); let s : State := { s with host.opState := .ready }; let s : State := setChain ((0 : Nat)) (fun zz => { zz with inUse := true }) s; let s : State := setChain ((0 : Nat)) (fun zz => { zz with legacy := false }) s; let s : State := setCmp 8 (fun zz => { zz with st := .armed }) s; s : State)), ((0 : Nat)), rung_ok (by decide +kernel), by decide +kernel⟩,
   ⟨((0 : Fin 16)), ((mkCmd 0x0B02 [(BitVec.ofNat 32 (((0 : Nat))))] : RungCmd)), ((let s : State := (ring ((mkCmd 0x0B02 [(BitVec.ofNat 32 (((0 : Nat))))] : RungCmd)) ready); let s : State := setChain ((0 : Nat)) (fun zz => { zz with legacy := false }) s; let s : State := setChain ((0 : Nat)) (fun zz => { zz with levels := levels }) s; s : State)), ((0 : Nat)), rung_ok (by decide +kernel), by decide +kernel⟩⟩

theorem test_wit_VigilFrames :
    (∃ (x : Samples) (s : State) (u : State), (u = mainUpdate (advance x s)) ∧ (vigilRuns u = false ∨ frameDue u = false)) ∧
    (∃ (x : Samples) (s : State) (u : State), (u = mainUpdate (advance x s)) ∧ (vigilRuns u = true) ∧ (frameDue u = true)) ∧
    (∃ (F : Nat) (s : State), (s.twin.role = .listen)) ∧
    (∃ (F : Nat) (s : State), (s.twin.role ≠ .listen) ∧ (s.twin.swLine = none)) ∧
    (∃ (F : Nat) (s : State) (l : Nat) (c : Word), (s.twin.role ≠ .listen) ∧ (s.twin.swLine = some (l, c, none)) ∧ (l ≤ F)) ∧
    (∃ (F : Nat) (s : State) (l : Nat) (c : Word) (t : Option Word), (s.twin.role ≠ .listen) ∧ (s.twin.swLine = some (l, c, t)) ∧ (F < l)) ∧
    (∃ (s : State), (s.twin.role = .solo ∨ s.twin.role = .active) ∧ (1000000 ≤ s.since s.twin.posTxAt)) ∧
    (∃ (s : State), (s.twin.role = .standby ∨ s.twin.role = .listen ∨ s.since s.twin.posTxAt < 1000000)) ∧
    (∃ (w : List Word) (crc : Word) (s : State), (crc.toNat ≠ crc32c (wordBytes w))) ∧
    (∃ (w : List Word) (crc : Word) (s : State), (crc = frameCrc w)) ∧
    (∃ (s : State), (s.since s.twin.rxAt < 7680)) ∧
    (∃ (s : State), (7680 ≤ s.since s.twin.rxAt) ∧ (s.twin.peerPresent = false)) ∧
    (∃ (s : State), (7680 ≤ s.since s.twin.rxAt) ∧ (s.twin.peerPresent = true)) ∧
    (∃ (s : State), (s.twin.peerPresent = true ∨ headsFirePeer s = false ∨ s.twin.role ≠ .standby ∨ s.twin.synced = false ∨ s.pos.mono.toNat < s.twin.lostAt.toNat + 1000000 * s.twin.graceMs)) :=
  ⟨⟨(([] : Samples)), ((let s : State := ready; s : State)), ((mainUpdate (advance (([] : Samples)) ((let s : State := ready; s : State))) : State)), by decide +kernel⟩,
   ⟨(([] : Samples)), ((let s : State := ready; let s : State := { s with twin.prsnt := true }; s : State)), ((mainUpdate (advance (([] : Samples)) ((let s : State := ready; let s : State := { s with twin.prsnt := true }; s : State))) : State)), by decide +kernel⟩,
   ⟨((0 : Nat)), ((let s : State := ready; let s : State := { s with twin.role := .listen }; s : State)), by decide +kernel⟩,
   ⟨((0 : Nat)), ((let s : State := ready; let s : State := { s with twin.swLine := none }; let s : State := { s with twin.role := .solo }; s : State)), by decide +kernel⟩,
   ⟨((0 : Nat)), ((let s : State := ready; let s : State := { s with twin.swLine := some (((0 : Nat)), ((9 : Word)), none) }; let s : State := { s with twin.role := .solo }; s : State)), ((0 : Nat)), ((9 : Word)), by decide +kernel⟩,
   ⟨((0 : Nat)), ((let s : State := ready; let s : State := { s with twin.swLine := some (((3 : Nat)), ((9 : Word)), ((none : Option Word))) }; let s : State := { s with twin.role := .active }; s : State)), ((3 : Nat)), ((9 : Word)), ((none : Option Word)), by decide +kernel⟩,
   ⟨((let s : State := ready; let s : State := { s with twin.role := .solo }; s : State)), by decide +kernel⟩,
   ⟨((let s : State := ready; let s : State := { s with twin.role := .standby }; s : State)), by decide +kernel⟩,
   ⟨(([] : List Word)), ((1 : Word)), ((let s : State := ready; s : State)), by decide +kernel⟩,
   ⟨(([] : List Word)), ((frameCrc (([] : List Word)) : Word)), ((let s : State := ready; s : State)), by decide +kernel⟩,
   ⟨((let s : State := ready; let s : State := { s with twin.rxAt := s.pos.mono }; s : State)), by decide +kernel⟩,
   ⟨((let s : State := ready; let s : State := { s with twin.peerPresent := false }; s : State)), by decide +kernel⟩,
   ⟨((let s : State := ready; let s : State := { s with twin.peerPresent := true }; s : State)), by decide +kernel⟩,
   ⟨((let s : State := ready; let s : State := { s with twin.peerPresent := true }; s : State)), by decide +kernel⟩⟩

theorem test_wit_VigilMessages :
    (∃ (q : Byte) (a : Word) (b : Word) (c : Word) (l : Bool) (d : Byte) (n : Dword) (s : State), (s.twin.peerMsgSeq = some q)) ∧
    (∃ (q : Byte) (s : State) (u : State) (r : ArmRec), (s.twin.peerMsgSeq ≠ some q) ∧ (u = { s with twin := { s.twin with peerMsgSeq := some q } }) ∧ (r ∉ s.cg.peerArms) ∧ (s.cg.peerArms.length < 16)) ∧
    (∃ (q : Byte) (s : State) (u : State) (r : ArmRec), (s.twin.peerMsgSeq ≠ some q) ∧ (u = { s with twin := { s.twin with peerMsgSeq := some q } }) ∧ (r ∈ s.cg.peerArms)) ∧
    (∃ (q : Byte) (s : State) (u : State) (e : Word) (l : Word) (b : Bool) (c : Byte), (s.twin.peerMsgSeq ≠ some q) ∧ (u = { s with twin := { s.twin with peerMsgSeq := some q } }) ∧ (s.twin.role ≠ .standby)) ∧
    (∃ (q : Byte) (s : State) (u : State) (e : Word) (l : Word) (c : Byte), (s.twin.peerMsgSeq ≠ some q) ∧ (u = { s with twin := { s.twin with peerMsgSeq := some q } }) ∧ (s.twin.role = .standby) ∧ (decidedGroup e l (agrees s) s = none)) ∧
    (∃ (q : Byte) (s : State) (u : State) (e : Word) (l : Word) (c : Byte), (s.twin.peerMsgSeq ≠ some q) ∧ (u = { s with twin := { s.twin with peerMsgSeq := some q } }) ∧ (s.twin.role = .standby) ∧ (decidedGroup e l (fun _ => true) s = none)) ∧
    (∃ (q : Byte) (s : State) (u : State) (e : Word) (l : Word) (c : Byte) (g : Nat), (s.twin.peerMsgSeq ≠ some q) ∧ (u = { s with twin := { s.twin with peerMsgSeq := some q } }) ∧ (s.twin.role = .standby) ∧ (decidedGroup e l (agrees s) s = some g)) ∧
    (∃ (q : Byte) (s : State) (u : State) (e : Word) (l : Word) (c : Byte) (g : _), (s.twin.peerMsgSeq ≠ some q) ∧ (u = { s with twin := { s.twin with peerMsgSeq := some q } }) ∧ (s.twin.role = .standby) ∧ (decidedGroup e l (fun _ => true) s = some g)) ∧
    (∃ (q : Byte) (s : State) (u : State) (e : Word) (l : Word) (num : Word), (s.twin.peerMsgSeq ≠ some q) ∧ (u = { s with twin := { s.twin with peerMsgSeq := some q } }) ∧ (s.twin.role = .standby) ∧ (s.pg.peerStart = []) ∧ (s.pg.decEpoch < e ∨ (e = s.pg.decEpoch ∧ s.pg.decRing = none ∧ startedAs num none s = none ∧ s.pos.absHigh < s.pg.decBase + l.toNat))) ∧
    (∃ (q : Byte) (s : State) (u : State) (e : Word) (l : Word) (num : Word), (s.twin.peerMsgSeq ≠ some q) ∧ (u = { s with twin := { s.twin with peerMsgSeq := some q } }) ∧ (s.twin.role = .standby) ∧ (s.pg.peerStart = []) ∧ (e = s.pg.decEpoch) ∧ (s.pg.decRing = none) ∧ (startedAs num none s = none) ∧ (s.pg.decBase + l.toNat ≤ s.pos.absHigh)) ∧
    (∃ (q : Byte) (s : State) (u : State) (e : Word) (l : Word) (num : Word) (r : Nat) (p : Page) (first : Nat), (s.twin.peerMsgSeq ≠ some q) ∧ (u = { s with twin := { s.twin with peerMsgSeq := some q } }) ∧ (s.twin.role = .standby) ∧ (s.pg.peerStart = []) ∧ (e = s.pg.decEpoch) ∧ (s.pg.decRing = some r) ∧ (nextPage r s = some p) ∧ (p.number = num) ∧ (p.stored = true) ∧ (first = s.pg.decBase + l.toNat) ∧ (startedAs num (some first) s = none) ∧ ((s.pg.ring p.ring).halted = false) ∧ (startCheck p (s.pg.nominal + gapBefore p s) s = none)) ∧
    (∃ (q : Byte) (s : State) (u : State) (e : Word) (l : Word) (claim : Word), (s.twin.peerMsgSeq ≠ some q) ∧ (u = { s with twin := { s.twin with peerMsgSeq := some q } }) ∧ (s.twin.role ≠ .standby ∨ s.twin.synced = false ∨ e ≠ s.cg.epochNow)) ∧
    (∃ (q : Byte) (s : State) (u : State) (e : Word) (l : Word) (claim : Word), (s.twin.peerMsgSeq ≠ some q) ∧ (u = { s with twin := { s.twin with peerMsgSeq := some q } }) ∧ (s.twin.role = .standby) ∧ (s.twin.synced = true) ∧ (e = s.cg.epochNow) ∧ (s.twin.exhausted = true ∨ 0xFFFFFFFF ≤ maxClaim s + 1)) ∧
    (∃ (q : Byte) (s : State) (u : State) (e : Word) (l : Word) (claim : Word), (s.twin.peerMsgSeq ≠ some q) ∧ (u = { s with twin := { s.twin with peerMsgSeq := some q } }) ∧ (s.twin.role = .standby) ∧ (s.twin.synced = true) ∧ (e = s.cg.epochNow) ∧ (s.twin.exhausted = false) ∧ (maxClaim s + 1 < 0xFFFFFFFF) ∧ (pageFull s.pers 0 = true)) ∧
    (∃ (q : Byte) (s : State) (u : State) (e : Word) (l : Word) (claim : Word), (s.twin.peerMsgSeq ≠ some q) ∧ (u = { s with twin := { s.twin with peerMsgSeq := some q } }) ∧ (s.twin.role = .standby) ∧ (s.twin.synced = true) ∧ (s.twin.exhausted = false) ∧ (maxClaim s + 1 < 0xFFFFFFFF) ∧ (e = s.cg.epochNow) ∧ (pageFull s.pers 0 = false) ∧ (s.pers.prf.length = 1024)) ∧
    (∃ (q : Byte) (s : State) (u : State) (j : JoinJob) (e : Word) (l : Word) (id : Word) (n : Word) (f : Word) (p : Word), (s.twin.peerMsgSeq ≠ some q) ∧ (u = { s with twin := { s.twin with peerMsgSeq := some q } }) ∧ (s.twin.joining = some j) ∧ (j.epoch = e) ∧ (j.ls = absOf l s)) ∧
    (∃ (q : Byte) (s : State) (u : State) (j : JoinJob) (e : Word) (l : Word) (id : Word) (n : Word) (f : Word) (p : Word), (s.twin.peerMsgSeq ≠ some q) ∧ (u = { s with twin := { s.twin with peerMsgSeq := some q } }) ∧ (s.twin.joining = some j) ∧ (j.epoch ≠ e ∨ j.ls ≠ absOf l s)) ∧
    (∃ (q : Byte) (s : State) (u : State) (e : Word) (l : Word) (id : Word) (n : Word) (f : Word) (p : Word), (s.twin.peerMsgSeq ≠ some q) ∧ (u = { s with twin := { s.twin with peerMsgSeq := some q } }) ∧ (s.twin.joining = none)) ∧
    (∃ (q : Byte) (s : State) (u : State) (n : Dword), (s.twin.peerMsgSeq ≠ some q) ∧ (u = { s with twin := { s.twin with peerMsgSeq := some q } })) ∧
    (∃ (s : State) (x : Group) (r : ArmRec), (r ∈ s.cg.peerArms) ∧ (r.epoch = x.epoch) ∧ (r.line = sentLine x) ∧ (∀ r' ∈ s.cg.peerArms, r'.epoch = x.epoch → r'.line = sentLine x → r'.digest ≠ x.digest)) ∧
    (∃ (q : Byte) (e : Word) (p : BitVec 50) (x : Samples) (s : State) (v : State) (u : State), (v = mainUpdate (advance x s)) ∧ (v.twin.peerMsgSeq ≠ some q) ∧ (u = { v with twin := { v.twin with peerMsgSeq := some q } }) ∧ (v.twin.role ≠ .standby)) ∧
    (∃ (q : Byte) (e : Word) (p : BitVec 50) (x : Samples) (s : State) (v : State) (u : State), (v = mainUpdate (advance x s)) ∧ (v.twin.peerMsgSeq ≠ some q) ∧ (u = { v with twin := { v.twin with peerMsgSeq := some q } }) ∧ (v.twin.role = .standby) ∧ (v.twin.posAdopted = false)) ∧
    (∃ (q : Byte) (e : Word) (p : BitVec 50) (x : Samples) (s : State) (v : State) (u : State), (v = mainUpdate (advance x s)) ∧ (v.twin.peerMsgSeq ≠ some q) ∧ (u = { v with twin := { v.twin with peerMsgSeq := some q } }) ∧ (v.twin.role = .standby) ∧ (v.twin.posAdopted = true) ∧ (e ≠ v.cg.epochNow)) ∧
    (∃ (q : Byte) (e : Word) (p : BitVec 50) (x : Samples) (s : State) (v : State) (u : State), (v = mainUpdate (advance x s)) ∧ (v.twin.peerMsgSeq ≠ some q) ∧ (u = { v with twin := { v.twin with peerMsgSeq := some q } }) ∧ (v.twin.role = .standby) ∧ (v.twin.posAdopted = true) ∧ (e = v.cg.epochNow) ∧ ((skewOf p v).natAbs ≤ 4096)) ∧
    (∃ (q : Byte) (e : Word) (p : BitVec 50) (x : Samples) (s : State) (v : State) (u : State), (v = mainUpdate (advance x s)) ∧ (v.twin.peerMsgSeq ≠ some q) ∧ (u = { v with twin := { v.twin with peerMsgSeq := some q } }) ∧ (v.twin.role = .standby) ∧ (v.twin.posAdopted = true) ∧ (e = v.cg.epochNow) ∧ (4096 < (skewOf p v).natAbs)) :=
  ⟨⟨((0 : Byte)), ((0 : Word)), ((0 : Word)), ((0 : Word)), ((false : Bool)), ((0 : Byte)), ((0 : Dword)), ((let s : State := ready; let s : State := { s with twin.peerMsgSeq := some ((0 : Byte)) }; s : State)), by decide +kernel⟩,
   ⟨((0 : Byte)), ((let s : State := ready; s : State)), (({ ((let s : State := ready; s : State)) with twin := { ((let s : State := ready; s : State)).twin with peerMsgSeq := some ((0 : Byte)) } } : State)), (({} : ArmRec)), by decide +kernel⟩,
   ⟨((0 : Byte)), ((let s : State := standing; let s : State := { s with cg.peerArms := [(({ epoch := 3, line := 4, digest := 5 } : ArmRec))] }; s : State)), (({ ((let s : State := standing; let s : State := { s with cg.peerArms := [(({ epoch := 3, line := 4, digest := 5 } : ArmRec))] }; s : State)) with twin := { ((let s : State := standing; let s : State := { s with cg.peerArms := [(({ epoch := 3, line := 4, digest := 5 } : ArmRec))] }; s : State)).twin with peerMsgSeq := some ((0 : Byte)) } } : State)), (({ epoch := 3, line := 4, digest := 5 } : ArmRec)), by decide +kernel⟩,
   ⟨((0 : Byte)), ((let s : State := ready; s : State)), (({ ((let s : State := ready; s : State)) with twin := { ((let s : State := ready; s : State)).twin with peerMsgSeq := some ((0 : Byte)) } } : State)), ((0 : Word)), ((0 : Word)), ((false : Bool)), ((0 : Byte)), by decide +kernel⟩,
   ⟨((0 : Byte)), ((let s : State := ready; let s : State := { s with twin.role := .standby }; s : State)), (({ ((let s : State := ready; let s : State := { s with twin.role := .standby }; s : State)) with twin := { ((let s : State := ready; let s : State := { s with twin.role := .standby }; s : State)).twin with peerMsgSeq := some ((0 : Byte)) } } : State)), ((0 : Word)), ((0 : Word)), ((0 : Byte)), by decide +kernel⟩,
   ⟨((0 : Byte)), ((let s : State := ready; let s : State := { s with twin.role := .standby }; s : State)), (({ ((let s : State := ready; let s : State := { s with twin.role := .standby }; s : State)) with twin := { ((let s : State := ready; let s : State := { s with twin.role := .standby }; s : State)).twin with peerMsgSeq := some ((0 : Byte)) } } : State)), ((0 : Word)), ((0 : Word)), ((0 : Byte)), by decide +kernel⟩,
   ⟨((0 : Byte)), ((let s : State := standing; let s : State := { s with twin.role := .standby }; let s : State := setGroup 0 (fun _ => { armedG with abs := 70 }) s; s : State)), (({ ((let s : State := standing; let s : State := { s with twin.role := .standby }; let s : State := setGroup 0 (fun _ => { armedG with abs := 70 }) s; s : State)) with twin := { ((let s : State := standing; let s : State := { s with twin.role := .standby }; let s : State := setGroup 0 (fun _ => { armedG with abs := 70 }) s; s : State)).twin with peerMsgSeq := some ((0 : Byte)) } } : State)), ((0 : Word)), ((70 : Word)), ((0 : Byte)), ((0 : Nat)), by decide +kernel⟩,
   ⟨((0 : Byte)), ((let s : State := standing; let s : State := { s with twin.role := .standby }; let s : State := setGroup 0 (fun _ => { armedG with abs := 70 }) s; s : State)), (({ ((let s : State := standing; let s : State := { s with twin.role := .standby }; let s : State := setGroup 0 (fun _ => { armedG with abs := 70 }) s; s : State)) with twin := { ((let s : State := standing; let s : State := { s with twin.role := .standby }; let s : State := setGroup 0 (fun _ => { armedG with abs := 70 }) s; s : State)).twin with peerMsgSeq := some ((0 : Byte)) } } : State)), ((0 : Word)), ((70 : Word)), ((0 : Byte)), 0, by decide +kernel⟩,
   ⟨((0 : Byte)), ((let s : State := ready; let s : State := { s with twin.role := .standby }; let s : State := { s with pg.peerStart := [] }; s : State)), (({ ((let s : State := ready; let s : State := { s with twin.role := .standby }; let s : State := { s with pg.peerStart := [] }; s : State)) with twin := { ((let s : State := ready; let s : State := { s with twin.role := .standby }; let s : State := { s with pg.peerStart := [] }; s : State)).twin with peerMsgSeq := some ((0 : Byte)) } } : State)), ((0 : Word)), ((77 : Word)), ((0 : Word)), by decide +kernel⟩,
   ⟨((0 : Byte)), ((let s : State := ready; let s : State := { s with twin.role := .standby }; let s : State := { s with pg.peerStart := [] }; let s : State := { s with pg.decRing := none }; let s : State := { s with pos.absHigh := s.pg.decBase + ((77 : Word)).toNat }; s : State)), (({ ((let s : State := ready; let s : State := { s with twin.role := .standby }; let s : State := { s with pg.peerStart := [] }; let s : State := { s with pg.decRing := none }; let s : State := { s with pos.absHigh := s.pg.decBase + ((77 : Word)).toNat }; s : State)) with twin := { ((let s : State := ready; let s : State := { s with twin.role := .standby }; let s : State := { s with pg.peerStart := [] }; let s : State := { s with pg.decRing := none }; let s : State := { s with pos.absHigh := s.pg.decBase + ((77 : Word)).toNat }; s : State)).twin with peerMsgSeq := some ((0 : Byte)) } } : State)), ((((let s : State := ready; let s : State := { s with twin.role := .standby }; let s : State := { s with pg.peerStart := [] }; let s : State := { s with pg.decRing := none }; let s : State := { s with pos.absHigh := s.pg.decBase + ((77 : Word)).toNat }; s : State)).pg.decEpoch : Word)), ((77 : Word)), ((0 : Word)), by decide +kernel⟩,
   ⟨((0 : Byte)), ((let s : State := paged; let s : State := { s with twin.role := .standby }; let s : State := { s with pg.peerStart := [] }; let s : State := { s with pg.decRing := some ((0 : Nat)) }; let s : State := setRing (({ aPage with blocks := List.replicate 4 { aBlk with st := .good, dec := .released } } : Page)).ring (fun zz => { zz with halted := false }) s; let s : State := { s with twin.role := .standby, pg.decRing := some 0, pg.decFirst := 9, cg.inForce := [barObj], pg.pages := [(({ aPage with blocks := List.replicate 4 { aBlk with st := .good, dec := .released } } : Page))] }; s : State)), (({ ((let s : State := paged; let s : State := { s with twin.role := .standby }; let s : State := { s with pg.peerStart := [] }; let s : State := { s with pg.decRing := some ((0 : Nat)) }; let s : State := setRing (({ aPage with blocks := List.replicate 4 { aBlk with st := .good, dec := .released } } : Page)).ring (fun zz => { zz with halted := false }) s; let s : State := { s with twin.role := .standby, pg.decRing := some 0, pg.decFirst := 9, cg.inForce := [barObj], pg.pages := [(({ aPage with blocks := List.replicate 4 { aBlk with st := .good, dec := .released } } : Page))] }; s : State)) with twin := { ((let s : State := paged; let s : State := { s with twin.role := .standby }; let s : State := { s with pg.peerStart := [] }; let s : State := { s with pg.decRing := some ((0 : Nat)) }; let s : State := setRing (({ aPage with blocks := List.replicate 4 { aBlk with st := .good, dec := .released } } : Page)).ring (fun zz => { zz with halted := false }) s; let s : State := { s with twin.role := .standby, pg.decRing := some 0, pg.decFirst := 9, cg.inForce := [barObj], pg.pages := [(({ aPage with blocks := List.replicate 4 { aBlk with st := .good, dec := .released } } : Page))] }; s : State)).twin with peerMsgSeq := some ((0 : Byte)) } } : State)), ((((let s : State := paged; let s : State := { s with twin.role := .standby }; let s : State := { s with pg.peerStart := [] }; let s : State := { s with pg.decRing := some ((0 : Nat)) }; let s : State := setRing (({ aPage with blocks := List.replicate 4 { aBlk with st := .good, dec := .released } } : Page)).ring (fun zz => { zz with halted := false }) s; let s : State := { s with twin.role := .standby, pg.decRing := some 0, pg.decFirst := 9, cg.inForce := [barObj], pg.pages := [(({ aPage with blocks := List.replicate 4 { aBlk with st := .good, dec := .released } } : Page))] }; s : State)).pg.decEpoch : Word)), ((77 : Word)), ((9 : Word)), ((0 : Nat)), (({ aPage with blocks := List.replicate 4 { aBlk with st := .good, dec := .released } } : Page)), ((((let s : State := paged; let s : State := { s with twin.role := .standby }; let s : State := { s with pg.peerStart := [] }; let s : State := { s with pg.decRing := some ((0 : Nat)) }; let s : State := setRing (({ aPage with blocks := List.replicate 4 { aBlk with st := .good, dec := .released } } : Page)).ring (fun zz => { zz with halted := false }) s; let s : State := { s with twin.role := .standby, pg.decRing := some 0, pg.decFirst := 9, cg.inForce := [barObj], pg.pages := [(({ aPage with blocks := List.replicate 4 { aBlk with st := .good, dec := .released } } : Page))] }; s : State)).pg.decBase + ((77 : Word)).toNat : Nat)), by decide +kernel⟩,
   ⟨((0 : Byte)), ((let s : State := ready; s : State)), (({ ((let s : State := ready; s : State)) with twin := { ((let s : State := ready; s : State)).twin with peerMsgSeq := some ((0 : Byte)) } } : State)), ((0 : Word)), ((0 : Word)), ((0 : Word)), by decide +kernel⟩,
   ⟨((0 : Byte)), ((let s : State := ready; let s : State := { s with twin.role := .standby }; let s : State := { s with twin.synced := true }; let s : State := { s with twin.exhausted := true }; s : State)), (({ ((let s : State := ready; let s : State := { s with twin.role := .standby }; let s : State := { s with twin.synced := true }; let s : State := { s with twin.exhausted := true }; s : State)) with twin := { ((let s : State := ready; let s : State := { s with twin.role := .standby }; let s : State := { s with twin.synced := true }; let s : State := { s with twin.exhausted := true }; s : State)).twin with peerMsgSeq := some ((0 : Byte)) } } : State)), ((((let s : State := ready; let s : State := { s with twin.role := .standby }; let s : State := { s with twin.synced := true }; let s : State := { s with twin.exhausted := true }; s : State)).cg.epochNow : Word)), ((0 : Word)), ((0 : Word)), by decide +kernel⟩,
   ⟨((0 : Byte)), ((let s : State := ready; let s : State := { s with twin.role := .standby }; let s : State := { s with twin.synced := true }; let s : State := { s with twin.exhausted := false }; let s : State := { s with pers.wear := s.pers.wear.set 0 100000000 }; s : State)), (({ ((let s : State := ready; let s : State := { s with twin.role := .standby }; let s : State := { s with twin.synced := true }; let s : State := { s with twin.exhausted := false }; let s : State := { s with pers.wear := s.pers.wear.set 0 100000000 }; s : State)) with twin := { ((let s : State := ready; let s : State := { s with twin.role := .standby }; let s : State := { s with twin.synced := true }; let s : State := { s with twin.exhausted := false }; let s : State := { s with pers.wear := s.pers.wear.set 0 100000000 }; s : State)).twin with peerMsgSeq := some ((0 : Byte)) } } : State)), ((((let s : State := ready; let s : State := { s with twin.role := .standby }; let s : State := { s with twin.synced := true }; let s : State := { s with twin.exhausted := false }; let s : State := { s with pers.wear := s.pers.wear.set 0 100000000 }; s : State)).cg.epochNow : Word)), ((0 : Word)), ((0 : Word)), by decide +kernel⟩,
   ⟨((0 : Byte)), ((let s : State := ready; let s : State := { s with twin.role := .standby }; let s : State := { s with twin.synced := true }; let s : State := { s with twin.exhausted := false }; s : State)), (({ ((let s : State := ready; let s : State := { s with twin.role := .standby }; let s : State := { s with twin.synced := true }; let s : State := { s with twin.exhausted := false }; s : State)) with twin := { ((let s : State := ready; let s : State := { s with twin.role := .standby }; let s : State := { s with twin.synced := true }; let s : State := { s with twin.exhausted := false }; s : State)).twin with peerMsgSeq := some ((0 : Byte)) } } : State)), ((((let s : State := ready; let s : State := { s with twin.role := .standby }; let s : State := { s with twin.synced := true }; let s : State := { s with twin.exhausted := false }; s : State)).cg.epochNow : Word)), ((0 : Word)), ((0 : Word)), by decide +kernel⟩,
   ⟨((0 : Byte)), ((let s : State := standing; let s : State := { s with twin.joining := some (({ tag := 3, group := 0, ring := 0, epoch := 0, ls := 77 } : JoinJob)) }; s : State)), (({ ((let s : State := standing; let s : State := { s with twin.joining := some (({ tag := 3, group := 0, ring := 0, epoch := 0, ls := 77 } : JoinJob)) }; s : State)) with twin := { ((let s : State := standing; let s : State := { s with twin.joining := some (({ tag := 3, group := 0, ring := 0, epoch := 0, ls := 77 } : JoinJob)) }; s : State)).twin with peerMsgSeq := some ((0 : Byte)) } } : State)), (({ tag := 3, group := 0, ring := 0, epoch := 0, ls := 77 } : JoinJob)), ((0 : Word)), ((77 : Word)), ((0 : Word)), ((0 : Word)), ((0 : Word)), ((0 : Word)), by decide +kernel⟩,
   ⟨((0 : Byte)), ((let s : State := standing; let s : State := { s with twin.joining := some (({ tag := 3, group := 0, ring := 0, epoch := 0, ls := 77 } : JoinJob)) }; s : State)), (({ ((let s : State := standing; let s : State := { s with twin.joining := some (({ tag := 3, group := 0, ring := 0, epoch := 0, ls := 77 } : JoinJob)) }; s : State)) with twin := { ((let s : State := standing; let s : State := { s with twin.joining := some (({ tag := 3, group := 0, ring := 0, epoch := 0, ls := 77 } : JoinJob)) }; s : State)).twin with peerMsgSeq := some ((0 : Byte)) } } : State)), (({ tag := 3, group := 0, ring := 0, epoch := 0, ls := 77 } : JoinJob)), ((4 : Word)), ((77 : Word)), ((0 : Word)), ((0 : Word)), ((0 : Word)), ((0 : Word)), by decide +kernel⟩,
   ⟨((0 : Byte)), ((let s : State := ready; let s : State := { s with twin.joining := none }; s : State)), (({ ((let s : State := ready; let s : State := { s with twin.joining := none }; s : State)) with twin := { ((let s : State := ready; let s : State := { s with twin.joining := none }; s : State)).twin with peerMsgSeq := some ((0 : Byte)) } } : State)), ((0 : Word)), ((0 : Word)), ((0 : Word)), ((0 : Word)), ((0 : Word)), ((0 : Word)), by decide +kernel⟩,
   ⟨((0 : Byte)), ((let s : State := ready; s : State)), (({ ((let s : State := ready; s : State)) with twin := { ((let s : State := ready; s : State)).twin with peerMsgSeq := some ((0 : Byte)) } } : State)), ((0 : Dword)), by decide +kernel⟩,
   ⟨((let s : State := ready; let s : State := { s with cg.peerArms := [(({ epoch := 0, line := 70, digest := 5 } : ArmRec))] }; s : State)), (({ armedG with digest := 4 } : Group)), (({ epoch := 0, line := 70, digest := 5 } : ArmRec)), by decide +kernel⟩,
   ⟨((0 : Byte)), ((0 : Word)), ((0 : BitVec 50)), (([] : Samples)), ((let s : State := barred; s : State)), ((mainUpdate (advance (([] : Samples)) ((let s : State := barred; s : State))) : State)), (({ ((mainUpdate (advance (([] : Samples)) ((let s : State := barred; s : State))) : State)) with twin := { ((mainUpdate (advance (([] : Samples)) ((let s : State := barred; s : State))) : State)).twin with peerMsgSeq := some ((0 : Byte)) } } : State)), by decide +kernel⟩,
   ⟨((0 : Byte)), ((0 : Word)), ((12345678 : BitVec 50)), (([] : Samples)), ((let s : State := standing; s : State)), ((mainUpdate (advance (([] : Samples)) ((let s : State := standing; s : State))) : State)), (({ ((mainUpdate (advance (([] : Samples)) ((let s : State := standing; s : State))) : State)) with twin := { ((mainUpdate (advance (([] : Samples)) ((let s : State := standing; s : State))) : State)).twin with peerMsgSeq := some ((0 : Byte)) } } : State)), by decide +kernel⟩,
   ⟨((0 : Byte)), ((7 : Word)), ((12345678 : BitVec 50)), (([] : Samples)), ((let s : State := standing; let s : State := { s with twin.posAdopted := true }; s : State)), ((mainUpdate (advance (([] : Samples)) ((let s : State := standing; let s : State := { s with twin.posAdopted := true }; s : State))) : State)), (({ ((mainUpdate (advance (([] : Samples)) ((let s : State := standing; let s : State := { s with twin.posAdopted := true }; s : State))) : State)) with twin := { ((mainUpdate (advance (([] : Samples)) ((let s : State := standing; let s : State := { s with twin.posAdopted := true }; s : State))) : State)).twin with peerMsgSeq := some ((0 : Byte)) } } : State)), by decide +kernel⟩,
   ⟨((0 : Byte)), ((((mainUpdate (advance (([] : Samples)) ((let s : State := standing; let s : State := { s with twin.posAdopted := true }; s : State))) : State)).cg.epochNow : Word)), ((4096 : BitVec 50)), (([] : Samples)), ((let s : State := standing; let s : State := { s with twin.posAdopted := true }; s : State)), ((mainUpdate (advance (([] : Samples)) ((let s : State := standing; let s : State := { s with twin.posAdopted := true }; s : State))) : State)), (({ ((mainUpdate (advance (([] : Samples)) ((let s : State := standing; let s : State := { s with twin.posAdopted := true }; s : State))) : State)) with twin := { ((mainUpdate (advance (([] : Samples)) ((let s : State := standing; let s : State := { s with twin.posAdopted := true }; s : State))) : State)).twin with peerMsgSeq := some ((0 : Byte)) } } : State)), by decide +kernel⟩,
   ⟨((0 : Byte)), ((((mainUpdate (advance (([] : Samples)) ((let s : State := standing; let s : State := { s with twin.posAdopted := true, twin.synced := true }; s : State))) : State)).cg.epochNow : Word)), ((4097 : BitVec 50)), (([] : Samples)), ((let s : State := standing; let s : State := { s with twin.posAdopted := true, twin.synced := true }; s : State)), ((mainUpdate (advance (([] : Samples)) ((let s : State := standing; let s : State := { s with twin.posAdopted := true, twin.synced := true }; s : State))) : State)), (({ ((mainUpdate (advance (([] : Samples)) ((let s : State := standing; let s : State := { s with twin.posAdopted := true, twin.synced := true }; s : State))) : State)) with twin := { ((mainUpdate (advance (([] : Samples)) ((let s : State := standing; let s : State := { s with twin.posAdopted := true, twin.synced := true }; s : State))) : State)).twin with peerMsgSeq := some ((0 : Byte)) } } : State)), by decide +kernel⟩⟩

theorem test_wit_RolesAndClaims :
    (∃ (c : Word) (s : State) (t : State), (issueClaim s = (some c, t)) ∧ (s.pers.prf.length = 1024)) ∧
    (∃ (s : State), (0xFFFFFFFF ≤ maxClaim s + 1)) ∧
    (∃ (cause : Nat) (s : State), (s.twin.role ≠ .standby ∨ s.twin.synced = false ∨ s.host.opState ≠ .print ∨ s.twin.takeoverEn = false)) ∧
    (∃ (cause : Nat) (s : State), (s.twin.role = .standby) ∧ (s.twin.synced = true) ∧ (s.host.opState = .print) ∧ (s.twin.takeoverEn = true) ∧ (s.twin.swLine = none) ∧ (pageFull s.pers 0 = false) ∧ (maxClaim s + 1 < 0xFFFFFFFF)) ∧
    (∃ (low : Bool) (s : State), (s.twin.prsnt = low)) ∧
    (∃ (s : State), (s.twin.prsnt = false) ∧ (s.host.opState = .safe)) ∧
    (∃ (s : State), (s.twin.prsnt = false) ∧ (s.host.opState ≠ .safe)) ∧
    (∃ (s : State), (s.twin.prsnt = true)) :=
  ⟨⟨((((issueClaim ((let s : State := ready; s : State))).1.getD 0) : Word)), ((let s : State := ready; s : State)), (((issueClaim ((let s : State := ready; s : State))).2 : State)), by decide +kernel⟩,
   ⟨((let s : State := ready; let s : State := { s with twin.claimSeen := 0xFFFFFFFE }; s : State)), by decide +kernel⟩,
   ⟨((0 : Nat)), ((let s : State := ready; s : State)), by decide +kernel⟩,
   ⟨((0 : Nat)), ((let s : State := ready; let s : State := { s with twin.role := .standby }; let s : State := { s with twin.synced := true }; let s : State := { s with host.opState := .print }; let s : State := { s with twin.takeoverEn := true }; let s : State := { s with twin.swLine := none }; s : State)), by decide +kernel⟩,
   ⟨((false : Bool)), ((let s : State := ready; let s : State := { s with twin.prsnt := ((false : Bool)) }; s : State)), by decide +kernel⟩,
   ⟨((let s : State := ready; let s : State := { s with twin.prsnt := false }; let s : State := { s with host.opState := .safe }; s : State)), by decide +kernel⟩,
   ⟨((let s : State := ready; let s : State := { s with twin.prsnt := false }; s : State)), by decide +kernel⟩,
   ⟨((let s : State := ready; let s : State := { s with twin.prsnt := true }; s : State)), by decide +kernel⟩⟩

theorem test_wit_TwinCommands :
    (∃ (k : _) (c : _) (s : _), Rung 0x0C00 1 k c s ∧ (s.host.opState ≠ .boot) ∧ (c.w 0 = 0)) ∧
    (∃ (k : _) (c : _) (s : _), Rung 0x0C00 1 k c s ∧ (s.host.opState ≠ .boot) ∧ (c.w 0 = 1)) ∧
    (∃ (k : _) (c : _) (s : _) (r : Role), Rung 0x0C01 1 k c s ∧ ((c.w 0).toNat = r.code) ∧ (r ≠ .active) ∧ (s.twin.role = r)) ∧
    (∃ (k : _) (c : _) (s : _), Rung 0x0C01 1 k c s ∧ (s.host.opState = .ready ∨ s.host.opState = .print ∨ s.host.opState = .service) ∧ (s.twin.prsnt = true) ∧ (c.w 0 = 0) ∧ (roleAllowed 0 s = true) ∧ (pageFull s.pers 0 = false) ∧ (maxClaim s + 1 < 0xFFFFFFFF)) ∧
    (∃ (k : _) (c : _) (s : _), Rung 0x0C01 1 k c s ∧ (s.host.opState = .ready ∨ s.host.opState = .print ∨ s.host.opState = .service) ∧ (s.twin.prsnt = true) ∧ (c.w 0 = 0) ∧ (roleAllowed 0 s = true) ∧ (pageFull s.pers 0 = false) ∧ (0xFFFFFFFF ≤ maxClaim s + 1)) ∧
    (∃ (k : _) (c : _) (s : _), Rung 0x0C01 1 k c s ∧ (s.host.opState = .ready ∨ s.host.opState = .print ∨ s.host.opState = .service) ∧ (s.twin.prsnt = true) ∧ (c.w 0 = 2) ∧ (roleAllowed 2 s = true) ∧ (s.pwr.state = .run)) ∧
    (∃ (k : _) (c : _) (s : _), Rung 0x0C01 1 k c s ∧ (s.host.opState = .ready ∨ s.host.opState = .print ∨ s.host.opState = .service) ∧ (s.twin.prsnt = true) ∧ (c.w 0 = 3) ∧ (s.twin.role ≠ .listen) ∧ (roleAllowed 3 s = true)) ∧
    (∃ (k : _) (c : _) (s : _) (n : _), Rung 0x0C02 3 k c s ∧ (c.w 0 = 0) ∧ (c.w 1 = s.cg.epochNow) ∧ (lineIndex s + 65 ≤ (c.w 2).toNat) ∧ (topLine s < (c.w 2).toNat) ∧ (s.twin.swLine = none) ∧ (s.twin.role = .active) ∧ (s.host.opState = .print) ∧ (peerReady s = true) ∧ (maxClaim s + 1 < 0xFFFFFFFF) ∧ (s.host.outst.length < 16) ∧ (n = w32 (max (wd s.pers.prf 16).toNat s.twin.claimOwn.toNat + 1))) ∧
    (∃ (k : _) (c : _) (s : _) (g : Nat), Rung 0x0C03 4 k c s ∧ (g = fld (c.w 0) 0 2) ∧ (c.w 0 &&& ~~~ 0x303 = 0) ∧ ((s.cg.group g).st = .valid) ∧ (c.w 1 = (s.cg.group g).handle) ∧ (c.w 2 = s.cg.epochNow) ∧ (lineIndex s + 65 ≤ (c.w 3).toNat) ∧ (topLine s < (c.w 3).toNat) ∧ ((s.cg.group g).running = false) ∧ (s.fire.probe = none) ∧ (s.twin.joining = none) ∧ (s.twin.role = .standby) ∧ (s.host.opState = .ready) ∧ (s.twin.posAdopted = true) ∧ (s.host.outst.length < 16) ∧ (s.cg.groups.length = 4)) ∧
    (∃ (k : _) (c : _) (s : _), Rung 0x0C04 2 k c s ∧ (c.w 0 &&& ~~~ 1 = 0) ∧ (fld (c.w 1) 0 16 ≤ 60000) ∧ (64 ≤ fld (c.w 1) 16 16) ∧ (fld (c.w 1) 16 16 ≤ 4096) ∧ (s.host.opState ≠ .boot)) ∧
    (∃ (k : _) (c : _) (s : _), Rung 0x0C05 0 k c s ∧ (s.host.opState ≠ .boot)) :=
  ⟨⟨((0 : Fin 16)), ((mkCmd 0x0C00 [0] : RungCmd)), ((let s : State := (ring ((mkCmd 0x0C00 [0] : RungCmd)) ready); s : State)), rung_ok (by decide +kernel), by decide +kernel⟩,
   ⟨((0 : Fin 16)), ((mkCmd 0x0C00 [1] : RungCmd)), ((let s : State := (ring ((mkCmd 0x0C00 [1] : RungCmd)) ready); s : State)), rung_ok (by decide +kernel), by decide +kernel⟩,
   ⟨((0 : Fin 16)), ((mkCmd 0x0C01 [2] : RungCmd)), ((let s : State := (ring ((mkCmd 0x0C01 [2] : RungCmd)) ready); let s : State := { s with twin.role := ((.standby : Role)) }; s : State)), ((.standby : Role)), rung_ok (by decide +kernel), by decide +kernel⟩,
   ⟨((0 : Fin 16)), ((mkCmd 0x0C01 [0] : RungCmd)), ((let s : State := (ring ((mkCmd 0x0C01 [0] : RungCmd)) ready); let s : State := { s with host.opState := .ready }; let s : State := { s with twin.prsnt := true }; let s : State := { s with twin.role := .listen, twin.peerPresent := false }; s : State)), rung_ok (by decide +kernel), by decide +kernel⟩,
   ⟨((0 : Fin 16)), ((mkCmd 0x0C01 [0] : RungCmd)), ((let s : State := (ring ((mkCmd 0x0C01 [0] : RungCmd)) ready); let s : State := { s with host.opState := .ready }; let s : State := { s with twin.prsnt := true }; let s : State := { s with twin.role := .listen, twin.claimSeen := 0xFFFFFFFE }; s : State)), rung_ok (by decide +kernel), by decide +kernel⟩,
   ⟨((0 : Fin 16)), ((mkCmd 0x0C01 [2] : RungCmd)), ((let s : State := (ring ((mkCmd 0x0C01 [2] : RungCmd)) ready); let s : State := { s with host.opState := .ready }; let s : State := { s with twin.prsnt := true }; let s : State := { s with pwr.state := .run }; let s : State := { s with twin.role := .listen, twin.peerPresent := true, twin.peerRole := 1 }; s : State)), rung_ok (by decide +kernel), by decide +kernel⟩,
   ⟨((0 : Fin 16)), ((mkCmd 0x0C01 [3] : RungCmd)), ((let s : State := (ring ((mkCmd 0x0C01 [3] : RungCmd)) ready); let s : State := { s with host.opState := .ready }; let s : State := { s with twin.prsnt := true }; let s : State := { s with twin.role := .solo }; s : State)), rung_ok (by decide +kernel), by decide +kernel⟩,
   ⟨((0 : Fin 16)), ((mkCmd 0x0C02 [0, 0, 100] : RungCmd)), ((let s : State := (ring ((mkCmd 0x0C02 [0, 0, 100] : RungCmd)) barred); let s : State := { s with twin.swLine := none }; let s : State := { s with twin.role := .active }; let s : State := { s with host.opState := .print }; let s : State := { s with twin.peerPresent := true, twin.peerRole := 2, twin.peerSynced := true, pos.high := 10 }; s : State)), (w32 (max (wd ((let s : State := (ring ((mkCmd 0x0C02 [0, 0, 100] : RungCmd)) barred); let s : State := { s with twin.swLine := none }; let s : State := { s with twin.role := .active }; let s : State := { s with host.opState := .print }; let s : State := { s with twin.peerPresent := true, twin.peerRole := 2, twin.peerSynced := true, pos.high := 10 }; s : State)).pers.prf 16).toNat ((let s : State := (ring ((mkCmd 0x0C02 [0, 0, 100] : RungCmd)) barred); let s : State := { s with twin.swLine := none }; let s : State := { s with twin.role := .active }; let s : State := { s with host.opState := .print }; let s : State := { s with twin.peerPresent := true, twin.peerRole := 2, twin.peerSynced := true, pos.high := 10 }; s : State)).twin.claimOwn.toNat + 1)), rung_ok (by decide +kernel), by decide +kernel⟩,
   ⟨((0 : Fin 16)), ((mkCmd 0x0C03 [0, 0, 0, 100] : RungCmd)), ((let s : State := (ring ((mkCmd 0x0C03 [0, 0, 0, 100] : RungCmd)) barred); let s : State := setGroup ((fld (((mkCmd 0x0C03 [0, 0, 0, 100] : RungCmd)).w 0) 0 2 : Nat)) (fun zz => { zz with st := .valid }) s; let s : State := { s with fire.probe := none }; let s : State := { s with twin.joining := none }; let s : State := { s with twin.role := .standby }; let s : State := { s with host.opState := .ready }; let s : State := { s with twin.posAdopted := true }; let s : State := { s with pos.high := 10, pos.absHigh := 10, twin.peerPresent := true }; s : State)), ((fld (((mkCmd 0x0C03 [0, 0, 0, 100] : RungCmd)).w 0) 0 2 : Nat)), rung_ok (by decide +kernel), by decide +kernel⟩,
   ⟨((0 : Fin 16)), ((mkCmd 0x0C04 [0, (0 + 4194304)] : RungCmd)), ((let s : State := (ring ((mkCmd 0x0C04 [0, (0 + 4194304)] : RungCmd)) ready); s : State)), rung_ok (by decide +kernel), by decide +kernel⟩,
   ⟨((0 : Fin 16)), ((mkCmd 0x0C05 [] : RungCmd)), ((let s : State := (ring ((mkCmd 0x0C05 [] : RungCmd)) ready); s : State)), rung_ok (by decide +kernel), by decide +kernel⟩⟩

theorem test_wit_Trips :
    (∃ (c : Nat) (p : Word) (s : State) (t : Train), (c < 17) ∧ (s.onyx.tripped = false) ∧ (t ∈ (latchTrip c p s).fire.trains)) ∧
    (∃ (c : Nat) (p : Word) (s : State), (c < 17) ∧ (s.onyx.tripped = true) ∧ (s.onyx.cause ≤ c ∨ s.pos.mono.toNat / 40 ≠ s.onyx.tripAt.toNat / 40)) ∧
    (∃ (c : Nat) (p : Word) (s : State), (c < 17) ∧ (s.onyx.tripped = true) ∧ (c < s.onyx.cause) ∧ (s.pos.mono.toNat / 40 = s.onyx.tripAt.toNat / 40)) ∧
    (∃ (n : Nat) (s : State), (940 ≤ n) ∧ (n ≤ 1060)) ∧
    (∃ (n : Nat) (s : State), (117 ≤ n) ∧ (n ≤ 133)) ∧
    (∃ (n : Nat) (s : State), (n < 940 ∨ 1060 < n)) ∧
    (∃ (n : Nat) (s : State), (n < 117 ∨ 133 < n)) ∧
    (∃ (tj : Int) (s : State) (u : State), (u = { s with pwr := { s.pwr with tj := tj, tjMax := max s.pwr.tjMax tj } }) ∧ (tj < 125)) ∧
    (∃ (tj : Int) (s : State) (u : State), (u = { s with pwr := { s.pwr with tj := tj, tjMax := max s.pwr.tjMax tj } }) ∧ (125 ≤ tj)) ∧
    (∃ (s : State), (s.onyx.hpwrA = true ∨ s.onyx.hpwrB = true ∨ s.aonDue s.onyx.fellAt 1000000 = false)) ∧
    (∃ (s : State), (s.onyx.hpwrA = false) ∧ (s.onyx.hpwrB = false) ∧ (s.aonDue s.onyx.fellAt 1000000 = true)) ∧
    (∃ (s : State), (s.onyx.reacting = false ∨ s.aonDue s.onyx.tripAt 6000 = false)) ∧
    (∃ (s : State), (s.onyx.reacting = true) ∧ (s.aonDue s.onyx.tripAt 6000 = true)) :=
  ⟨⟨((3 : Nat)), ((0 : Word)), ((let s : State := printing; let s : State := { s with onyx.tripped := false }; s : State)), ((((latchTrip ((3 : Nat)) ((0 : Word)) ((let s : State := printing; let s : State := { s with onyx.tripped := false }; s : State))).fire.trains.headD {}) : Train)), by decide +kernel⟩,
   ⟨((16 : Nat)), ((0 : Word)), ((let s : State := ready; let s : State := { s with onyx.tripped := true }; s : State)), by decide +kernel⟩,
   ⟨((0 : Nat)), ((0 : Word)), ((let s : State := ready; let s : State := { s with onyx.tripped := true }; let s : State := { s with onyx.cause := (((0 : Nat)) + 1) }; let s : State := { s with onyx.tripAt := s.pos.mono }; s : State)), by decide +kernel⟩,
   ⟨((940 : Nat)), ((let s : State := ready; s : State)), by decide +kernel⟩,
   ⟨((117 : Nat)), ((let s : State := ready; s : State)), by decide +kernel⟩,
   ⟨((0 : Nat)), ((let s : State := ready; s : State)), by decide +kernel⟩,
   ⟨((0 : Nat)), ((let s : State := ready; s : State)), by decide +kernel⟩,
   ⟨((0 : Int)), ((let s : State := ready; s : State)), (({ ((let s : State := ready; s : State)) with pwr := { ((let s : State := ready; s : State)).pwr with tj := ((0 : Int)), tjMax := max ((let s : State := ready; s : State)).pwr.tjMax ((0 : Int)) } } : State)), by decide +kernel⟩,
   ⟨((125 : Int)), ((let s : State := ready; s : State)), (({ ((let s : State := ready; s : State)) with pwr := { ((let s : State := ready; s : State)).pwr with tj := ((125 : Int)), tjMax := max ((let s : State := ready; s : State)).pwr.tjMax ((125 : Int)) } } : State)), by decide +kernel⟩,
   ⟨((let s : State := ready; let s : State := { s with onyx.hpwrA := true }; s : State)), by decide +kernel⟩,
   ⟨((let s : State := ready; let s : State := { s with onyx.hpwrA := false }; let s : State := { s with onyx.hpwrB := false }; s : State)), by decide +kernel⟩,
   ⟨((let s : State := ready; let s : State := { s with onyx.reacting := false }; s : State)), by decide +kernel⟩,
   ⟨((let s : State := ready; let s : State := { s with onyx.reacting := true }; s : State)), by decide +kernel⟩⟩

theorem test_wit_OnyxChecks :
    (∃ (e0 : Int) (e1 : Int) (here : Bool) (sw : Bool) (fb : Bool) (act : BitVec 17) (s : State) (v0 : Int) (v1 : Int) (run : Nat), (v0 = onyxSpeed (((if s.onyx.cfg.enc0Fwd then -e0 else e0) :: s.onyx.edges0).take 16) s.onyx.cfg.scale0) ∧ (v1 = onyxSpeed (((if s.onyx.cfg.enc1Fwd then -e1 else e1) :: s.onyx.edges1).take 16) s.onyx.cfg.scale1) ∧ (run = (if webCondition here v0 v1 s.onyx.cfg then min 3 (s.onyx.webRun + 1) else 0)) ∧ (s.aonDue s.onyx.tickAt 1000000 = true)) ∧
    (∃ (e0 : Int) (e1 : Int) (here : Bool) (sw : Bool) (fb : Bool) (act : BitVec 17) (i : Nat) (s : State), (s.aonDue s.onyx.tickAt 1000000 = true)) ∧
    (∃ (e0 : Int) (e1 : Int) (here : Bool) (sw : Bool) (fb : Bool) (act : BitVec 17) (i : Option Nat) (s : State), (s.aonDue s.onyx.tickAt 1000000 = false)) ∧
    (∃ (s : State), (gateDue s = false)) ∧
    (∃ (s : State), (gateDue s = true)) ∧
    (∃ (m : Fin 16) (f : Nat) (g : Option Word) (ef : Option (Word × Word)) (s : State) (x : Word) (y : Word) (w : Word), (s.onyx.tripped = false) ∧ ((g.or ((s.onyx.sumOf f m).bind (·.eG))) = some x) ∧ (ef = some (y, w)) ∧ (y + w = x) ∧ (y ≤ s.onyx.cfg.eMax)) ∧
    (∃ (m : Fin 16) (f : Nat) (g : Option Word) (ef : Option (Word × Word)) (s : State) (x : Word) (y : Word) (w : Word), (s.onyx.tripped = false) ∧ ((g.or ((s.onyx.sumOf f m).bind (·.eG))) = some x) ∧ (ef = some (y, w)) ∧ (y + w ≠ x)) ∧
    (∃ (m : Fin 16) (f : Nat) (g : Option Word) (ef : Option (Word × Word)) (s : State) (x : Word) (y : Word) (w : Word), (s.onyx.tripped = false) ∧ ((g.or ((s.onyx.sumOf f m).bind (·.eG))) = some x) ∧ (ef = some (y, w)) ∧ (y + w = x) ∧ (s.onyx.cfg.eMax < y)) ∧
    (∃ (m : Fin 16) (f : Nat) (g : Option Word) (ef : Option (Word × Word)) (s : State) (x : Word), (s.onyx.tripped = false) ∧ (g = some x) ∧ (s.onyx.sumOf f m = none) ∧ (ef = none)) ∧
    (∃ (m : Nat) (fire : Nat) (s : State), (s.onyx.tripped = true)) ∧
    (∃ (m : Nat) (fire : Nat) (s : State), (s.onyx.tripped = false) ∧ (s.onyx.gateOpen = false)) ∧
    (∃ (m : Nat) (fire : Nat) (s : State) (t : _) (noSum : _) (stale : _) (higher : _), (s.onyx.tripped = false) ∧ (s.onyx.gateOpen = true) ∧ (t = (presentMarker m fire s).2) ∧ (noSum = ((s.onyx.sumOf fire m).bind (·.eG)).isNone) ∧ (higher = decide (8 ≤ (s.lane m).higherRun)) ∧ (stale = ((s.lane m).statusSeq.isNone || decide ((s.lane m).statusTime.toNat + 40000 < s.pos.mono.toNat))) ∧ ((noSum || stale || higher) = true)) ∧
    (∃ (s : State), (s.onyx.lampPwr = false ∨ (s.onyx.lampLow < 50 ∧ (s.onyx.tripped = false ∨ s.aonDue s.onyx.tripAt 1000000 = false)))) ∧
    (∃ (s : State), (s.onyx.lampPwr = true) ∧ (50 ≤ s.onyx.lampLow ∨ (s.onyx.tripped = true ∧ s.aonDue s.onyx.tripAt 1000000 = true))) ∧
    (∃ (a : Fin 2) (s : State), (cell s.onyx.axRemoved a.val 0 ≠ 1 ∨ s.aonDue (cell s.onyx.removedAt a.val 0) 100000000 = false)) ∧
    (∃ (a : Fin 2) (s : State), (cell s.onyx.axRemoved a.val 0 = 1) ∧ (s.aonDue (cell s.onyx.removedAt a.val 0) 100000000 = true) ∧ ((cell s.onyx.abs a.val {}).known = true)) ∧
    (∃ (a : Fin 2) (s : State), (cell s.onyx.axRemoved a.val 0 = 1) ∧ (s.aonDue (cell s.onyx.removedAt a.val 0) 100000000 = true) ∧ ((cell s.onyx.abs a.val {}).known = false)) :=
  ⟨⟨((0 : Int)), ((0 : Int)), ((false : Bool)), ((false : Bool)), ((false : Bool)), ((0 : BitVec 17)), ((let s : State := ready; s : State)), ((onyxSpeed (((if ((let s : State := ready; s : State)).onyx.cfg.enc0Fwd then -((0 : Int)) else ((0 : Int))) :: ((let s : State := ready; s : State)).onyx.edges0).take 16) ((let s : State := ready; s : State)).onyx.cfg.scale0 : Int)), ((onyxSpeed (((if ((let s : State := ready; s : State)).onyx.cfg.enc1Fwd then -((0 : Int)) else ((0 : Int))) :: ((let s : State := ready; s : State)).onyx.edges1).take 16) ((let s : State := ready; s : State)).onyx.cfg.scale1 : Int)), (((if webCondition ((false : Bool)) ((onyxSpeed (((if ((let s : State := ready; s : State)).onyx.cfg.enc0Fwd then -((0 : Int)) else ((0 : Int))) :: ((let s : State := ready; s : State)).onyx.edges0).take 16) ((let s : State := ready; s : State)).onyx.cfg.scale0 : Int)) ((onyxSpeed (((if ((let s : State := ready; s : State)).onyx.cfg.enc1Fwd then -((0 : Int)) else ((0 : Int))) :: ((let s : State := ready; s : State)).onyx.edges1).take 16) ((let s : State := ready; s : State)).onyx.cfg.scale1 : Int)) ((let s : State := ready; s : State)).onyx.cfg then min 3 (((let s : State := ready; s : State)).onyx.webRun + 1) else 0) : Nat)), by decide +kernel⟩,
   ⟨((0 : Int)), ((0 : Int)), ((false : Bool)), ((false : Bool)), ((false : Bool)), ((0 : BitVec 17)), ((0 : Nat)), ((let s : State := ready; s : State)), by decide +kernel⟩,
   ⟨((0 : Int)), ((0 : Int)), ((false : Bool)), ((false : Bool)), ((false : Bool)), ((0 : BitVec 17)), ((none : Option Nat)), ((let s : State := ready; let s : State := { s with onyx.tickAt := s.pos.mono }; s : State)), by decide +kernel⟩,
   ⟨((let s : State := ready; let s : State := { s with onyx.permOnyx := 15 }; s : State)), by decide +kernel⟩,
   ⟨((let s : State := ready; s : State)), by decide +kernel⟩,
   ⟨((0 : Fin 16)), ((0 : Nat)), ((some 9 : Option Word)), ((some (4, 5) : Option (Word × Word))), ((let s : State := ready; let s : State := { s with onyx.tripped := false }; let s : State := { s with onyx.cfg.eMax := ((4 : Word)) }; s : State)), ((9 : Word)), ((4 : Word)), ((5 : Word)), by decide +kernel⟩,
   ⟨((0 : Fin 16)), ((0 : Nat)), ((some 9 : Option Word)), ((some (4, 6) : Option (Word × Word))), ((let s : State := ready; let s : State := { s with onyx.tripped := false }; s : State)), ((9 : Word)), ((4 : Word)), ((6 : Word)), by decide +kernel⟩,
   ⟨((0 : Fin 16)), ((0 : Nat)), ((some 9 : Option Word)), ((some (4, 5) : Option (Word × Word))), ((let s : State := ready; let s : State := { s with onyx.tripped := false }; let s : State := { s with onyx.cfg.eMax := 3 }; s : State)), ((9 : Word)), ((4 : Word)), ((5 : Word)), by decide +kernel⟩,
   ⟨((0 : Fin 16)), ((0 : Nat)), ((some 9 : Option Word)), ((none : Option (Word × Word))), ((let s : State := ready; let s : State := { s with onyx.tripped := false }; s : State)), ((9 : Word)), by decide +kernel⟩,
   ⟨((0 : Nat)), ((0 : Nat)), ((let s : State := ready; let s : State := { s with onyx.tripped := true }; s : State)), by decide +kernel⟩,
   ⟨((0 : Nat)), ((0 : Nat)), ((let s : State := ready; let s : State := { s with onyx.tripped := false }; let s : State := { s with onyx.gateOpen := false }; s : State)), by decide +kernel⟩,
   ⟨((0 : Nat)), ((0 : Nat)), ((let s : State := ready; let s : State := { s with onyx.tripped := false }; let s : State := { s with onyx.gateOpen := true }; s : State)), ((presentMarker ((0 : Nat)) ((0 : Nat)) ((let s : State := ready; let s : State := { s with onyx.tripped := false }; let s : State := { s with onyx.gateOpen := true }; s : State))).2), (((((let s : State := ready; let s : State := { s with onyx.tripped := false }; let s : State := { s with onyx.gateOpen := true }; s : State)).onyx.sumOf ((0 : Nat)) ((0 : Nat))).bind (·.eG)).isNone), (((((let s : State := ready; let s : State := { s with onyx.tripped := false }; let s : State := { s with onyx.gateOpen := true }; s : State)).lane ((0 : Nat))).statusSeq.isNone || decide ((((let s : State := ready; let s : State := { s with onyx.tripped := false }; let s : State := { s with onyx.gateOpen := true }; s : State)).lane ((0 : Nat))).statusTime.toNat + 40000 < ((let s : State := ready; let s : State := { s with onyx.tripped := false }; let s : State := { s with onyx.gateOpen := true }; s : State)).pos.mono.toNat))), (decide (8 ≤ (((let s : State := ready; let s : State := { s with onyx.tripped := false }; let s : State := { s with onyx.gateOpen := true }; s : State)).lane ((0 : Nat))).higherRun)), by decide +kernel⟩,
   ⟨((let s : State := ready; let s : State := { s with onyx.lampPwr := false }; s : State)), by decide +kernel⟩,
   ⟨((let s : State := ready; let s : State := { s with onyx.lampPwr := true }; let s : State := { s with onyx.lampLow := 50 }; s : State)), by decide +kernel⟩,
   ⟨((0 : Fin 2)), ((let s : State := ready; s : State)), by decide +kernel⟩,
   ⟨((0 : Fin 2)), ((let s : State := ready; let s : State := { s with onyx.axRemoved := [1, 0], onyx.abs := s.onyx.abs.map fun zz => { zz with known := true } }; s : State)), by decide +kernel⟩,
   ⟨((0 : Fin 2)), ((let s : State := ready; let s : State := { s with onyx.axRemoved := [1, 0] }; s : State)), by decide +kernel⟩⟩

theorem test_wit_Watchdog :
    (∃ (p : Nat) (s : State), (s.onyx.tripped = false)) ∧
    (∃ (n : Nat) (s : State), (s.onyx.wdogRunning = false) ∧ (s.onyx.wdogNext = 0x5A)) ∧
    (∃ (v : Byte) (n : Nat) (s : State), (s.onyx.wdogRunning = false) ∧ (v ≠ s.onyx.wdogNext)) ∧
    (∃ (v : Byte) (n : Nat) (s : State) (u : State), (s.onyx.wdogRunning = true) ∧ (aonInterval n s = true) ∧ (u = { s with onyx := { s.onyx with wdogLast := BitVec.ofNat 16 n, kickAt := s.pos.mono } }) ∧ (n < 750)) ∧
    (∃ (v : Byte) (n : Nat) (s : State) (u : State), (s.onyx.wdogRunning = true) ∧ (aonInterval n s = true) ∧ (u = { s with onyx := { s.onyx with wdogLast := BitVec.ofNat 16 n, kickAt := s.pos.mono } }) ∧ (1250 < n)) ∧
    (∃ (v : Byte) (n : Nat) (s : State) (u : State), (s.onyx.wdogRunning = true) ∧ (aonInterval n s = true) ∧ (u = { s with onyx := { s.onyx with wdogLast := BitVec.ofNat 16 n, kickAt := s.pos.mono } }) ∧ (750 ≤ n) ∧ (n ≤ 1250) ∧ (v ≠ s.onyx.wdogNext)) ∧
    (∃ (v : Byte) (n : Nat) (s : State) (u : State), (s.onyx.wdogRunning = true) ∧ (aonInterval n s = true) ∧ (u = { s with onyx := { s.onyx with wdogLast := BitVec.ofNat 16 n, kickAt := s.pos.mono } }) ∧ (750 ≤ n) ∧ (n ≤ 1250) ∧ (v = s.onyx.wdogNext) ∧ (v = 0x5A)) ∧
    (∃ (v : Byte) (n : Nat) (s : State) (u : State), (s.onyx.wdogRunning = true) ∧ (aonInterval n s = true) ∧ (u = { s with onyx := { s.onyx with wdogLast := BitVec.ofNat 16 n, kickAt := s.pos.mono } }) ∧ (750 ≤ n) ∧ (n ≤ 1250) ∧ (v = s.onyx.wdogNext) ∧ (v = 0xA5)) ∧
    (∃ (v : Byte) (n : Nat) (s : State), (s.onyx.wdogRunning = true) ∧ (aonInterval n s = false)) ∧
    (∃ (s : State), (s.pwr.inReset = true ∨ s.onyx.berylHeld = true ∨ s.aonDue s.onyx.kickAt (if s.onyx.wdogRunning then 1250000 else 2000000000) = false)) ∧
    (∃ (s : State), (s.pwr.inReset = false) ∧ (s.aonDue s.onyx.kickAt (if s.onyx.wdogRunning then 1250000 else 2000000000) = true) ∧ (s.onyx.berylHeld = false) ∧ (s.onyx.wdogRunning = true ∨ s.onyx.wdogRestarts = 0)) ∧
    (∃ (s : State), (s.pwr.inReset = false) ∧ (s.aonDue s.onyx.kickAt (if s.onyx.wdogRunning then 1250000 else 2000000000) = true) ∧ (s.onyx.berylHeld = false) ∧ (s.onyx.wdogRunning = false) ∧ (3 ≤ s.onyx.wdogRestarts)) ∧
    (∃ (s : State), (s.pwr.inReset = false) ∧ (s.aonDue s.onyx.kickAt (if s.onyx.wdogRunning then 1250000 else 2000000000) = true) ∧ (s.onyx.berylHeld = false) ∧ (s.onyx.wdogRunning = false) ∧ (1 ≤ s.onyx.wdogRestarts) ∧ (s.onyx.wdogRestarts < 3)) :=
  ⟨⟨((0 : Nat)), ((let s : State := ready; let s : State := { s with onyx.tripped := false }; s : State)), by decide +kernel⟩,
   ⟨((0 : Nat)), ((let s : State := ready; let s : State := { s with onyx.wdogRunning := false }; let s : State := { s with onyx.wdogNext := 0x5A }; s : State)), by decide +kernel⟩,
   ⟨((0 : Byte)), ((0 : Nat)), ((let s : State := ready; let s : State := { s with onyx.wdogRunning := false }; s : State)), by decide +kernel⟩,
   ⟨((0 : Byte)), ((700 : Nat)), ((let s : State := ready; let s : State := { s with onyx.wdogRunning := true }; let s : State := { s with onyx.kickAt := s.pos.mono - BitVec.ofNat 64 (1000 * 700) }; s : State)), (({ ((let s : State := ready; let s : State := { s with onyx.wdogRunning := true }; let s : State := { s with onyx.kickAt := s.pos.mono - BitVec.ofNat 64 (1000 * 700) }; s : State)) with onyx := { ((let s : State := ready; let s : State := { s with onyx.wdogRunning := true }; let s : State := { s with onyx.kickAt := s.pos.mono - BitVec.ofNat 64 (1000 * 700) }; s : State)).onyx with wdogLast := BitVec.ofNat 16 ((700 : Nat)), kickAt := ((let s : State := ready; let s : State := { s with onyx.wdogRunning := true }; let s : State := { s with onyx.kickAt := s.pos.mono - BitVec.ofNat 64 (1000 * 700) }; s : State)).pos.mono } } : State)), by decide +kernel⟩,
   ⟨((0 : Byte)), ((1300 : Nat)), ((let s : State := ready; let s : State := { s with onyx.wdogRunning := true }; let s : State := { s with onyx.kickAt := s.pos.mono - BitVec.ofNat 64 (1000 * 1300) }; s : State)), (({ ((let s : State := ready; let s : State := { s with onyx.wdogRunning := true }; let s : State := { s with onyx.kickAt := s.pos.mono - BitVec.ofNat 64 (1000 * 1300) }; s : State)) with onyx := { ((let s : State := ready; let s : State := { s with onyx.wdogRunning := true }; let s : State := { s with onyx.kickAt := s.pos.mono - BitVec.ofNat 64 (1000 * 1300) }; s : State)).onyx with wdogLast := BitVec.ofNat 16 ((1300 : Nat)), kickAt := ((let s : State := ready; let s : State := { s with onyx.wdogRunning := true }; let s : State := { s with onyx.kickAt := s.pos.mono - BitVec.ofNat 64 (1000 * 1300) }; s : State)).pos.mono } } : State)), by decide +kernel⟩,
   ⟨((0 : Byte)), ((1000 : Nat)), ((let s : State := ready; let s : State := { s with onyx.wdogRunning := true }; let s : State := { s with onyx.kickAt := s.pos.mono - BitVec.ofNat 64 (1000 * 1000) }; s : State)), (({ ((let s : State := ready; let s : State := { s with onyx.wdogRunning := true }; let s : State := { s with onyx.kickAt := s.pos.mono - BitVec.ofNat 64 (1000 * 1000) }; s : State)) with onyx := { ((let s : State := ready; let s : State := { s with onyx.wdogRunning := true }; let s : State := { s with onyx.kickAt := s.pos.mono - BitVec.ofNat 64 (1000 * 1000) }; s : State)).onyx with wdogLast := BitVec.ofNat 16 ((1000 : Nat)), kickAt := ((let s : State := ready; let s : State := { s with onyx.wdogRunning := true }; let s : State := { s with onyx.kickAt := s.pos.mono - BitVec.ofNat 64 (1000 * 1000) }; s : State)).pos.mono } } : State)), by decide +kernel⟩,
   ⟨((0x5A : Byte)), ((1000 : Nat)), ((let s : State := ready; let s : State := { s with onyx.wdogRunning := true }; let s : State := { s with onyx.kickAt := s.pos.mono - BitVec.ofNat 64 (1000 * 1000) }; s : State)), (({ ((let s : State := ready; let s : State := { s with onyx.wdogRunning := true }; let s : State := { s with onyx.kickAt := s.pos.mono - BitVec.ofNat 64 (1000 * 1000) }; s : State)) with onyx := { ((let s : State := ready; let s : State := { s with onyx.wdogRunning := true }; let s : State := { s with onyx.kickAt := s.pos.mono - BitVec.ofNat 64 (1000 * 1000) }; s : State)).onyx with wdogLast := BitVec.ofNat 16 ((1000 : Nat)), kickAt := ((let s : State := ready; let s : State := { s with onyx.wdogRunning := true }; let s : State := { s with onyx.kickAt := s.pos.mono - BitVec.ofNat 64 (1000 * 1000) }; s : State)).pos.mono } } : State)), by decide +kernel⟩,
   ⟨((0xA5 : Byte)), ((1000 : Nat)), ((let s : State := ready; let s : State := { s with onyx.wdogRunning := true }; let s : State := { s with onyx.wdogNext := 0xA5 }; let s : State := { s with onyx.kickAt := s.pos.mono - BitVec.ofNat 64 (1000 * 1000) }; s : State)), (({ ((let s : State := ready; let s : State := { s with onyx.wdogRunning := true }; let s : State := { s with onyx.wdogNext := 0xA5 }; let s : State := { s with onyx.kickAt := s.pos.mono - BitVec.ofNat 64 (1000 * 1000) }; s : State)) with onyx := { ((let s : State := ready; let s : State := { s with onyx.wdogRunning := true }; let s : State := { s with onyx.wdogNext := 0xA5 }; let s : State := { s with onyx.kickAt := s.pos.mono - BitVec.ofNat 64 (1000 * 1000) }; s : State)).onyx with wdogLast := BitVec.ofNat 16 ((1000 : Nat)), kickAt := ((let s : State := ready; let s : State := { s with onyx.wdogRunning := true }; let s : State := { s with onyx.wdogNext := 0xA5 }; let s : State := { s with onyx.kickAt := s.pos.mono - BitVec.ofNat 64 (1000 * 1000) }; s : State)).pos.mono } } : State)), by decide +kernel⟩,
   ⟨((0 : Byte)), ((0 : Nat)), ((let s : State := ready; let s : State := { s with onyx.wdogRunning := true }; s : State)), by decide +kernel⟩,
   ⟨((let s : State := ready; let s : State := { s with pwr.inReset := true }; s : State)), by decide +kernel⟩,
   ⟨((let s : State := ready; let s : State := { s with pwr.inReset := false }; let s : State := { s with onyx.berylHeld := false }; let s : State := { s with onyx.wdogRunning := true }; s : State)), by decide +kernel⟩,
   ⟨((let s : State := ready; let s : State := { s with pwr.inReset := false }; let s : State := { s with onyx.berylHeld := false }; let s : State := { s with onyx.wdogRunning := false }; let s : State := { s with onyx.wdogRestarts := 3 }; s : State)), by decide +kernel⟩,
   ⟨((let s : State := ready; let s : State := { s with pwr.inReset := false }; let s : State := { s with onyx.berylHeld := false }; let s : State := { s with onyx.wdogRunning := false }; let s : State := { s with onyx.wdogRestarts := 1 }; s : State)), by decide +kernel⟩⟩

theorem test_wit_SafetyCommands :
    (∃ (k : _) (c : _) (s : _), Rung 0x0D00 1 k c s ∧ (s.host.opState ≠ .boot) ∧ (c.w 0 = 0)) ∧
    (∃ (k : _) (c : _) (s : _), Rung 0x0D00 1 k c s ∧ (s.host.opState ≠ .boot) ∧ (c.w 0 = 1)) ∧
    (∃ (k : _) (c : _) (s : _), Rung 0x0D01 11 k c s ∧ (50000 ≤ (c.w 0).toNat) ∧ ((c.w 0).toNat ≤ 5000000) ∧ (4 * (c.w 2).toNat ≤ (c.w 0).toNat * 65536) ∧ (4 * (c.w 3).toNat ≤ (c.w 0).toNat * 65536) ∧ (1000 ≤ (c.w 1).toNat) ∧ ((c.w 1).toNat ≤ 1000000) ∧ (1 ≤ fld (c.w 9) 0 16) ∧ (c.w 9 &&& ~~~ 0x7FFFF = 0) ∧ (s.host.firing = false)) ∧
    (∃ (k : _) (c : _) (s : _), Rung 0x0D02 1 k c s ∧ ((c.w 0).toNat = s.onyx.tripSeq.toNat) ∧ (s.host.opState = .safe) ∧ (activeCauses s = 0) ∧ (s.onyx.wdogRunning = true) ∧ (s.onyx.reacting = false) ∧ (s.onyx.hard = false)) ∧
    (∃ (k : _) (c : _) (s : _), Rung 0x0D03 0 k c s ∧ (s.host.opState = .safe)) ∧
    (∃ (k : _) (c : _) (s : _), Rung 0x0D03 0 k c s ∧ (s.host.opState ≠ .safe) ∧ (s.host.opState ≠ .boot) ∧ (s.onyx.tripped = false)) :=
  ⟨⟨((0 : Fin 16)), ((mkCmd 0x0D00 [0] : RungCmd)), ((let s : State := (ring ((mkCmd 0x0D00 [0] : RungCmd)) ready); s : State)), rung_ok (by decide +kernel), by decide +kernel⟩,
   ⟨((0 : Fin 16)), ((mkCmd 0x0D00 [1] : RungCmd)), ((let s : State := (ring ((mkCmd 0x0D00 [1] : RungCmd)) ready); s : State)), rung_ok (by decide +kernel), by decide +kernel⟩,
   ⟨((0 : Fin 16)), ((mkCmd 0x0D01 [50000, 1000, 0, 0, 0, 0, 0, 0, 0, (0 + 1), 0] : RungCmd)), ((let s : State := (ring ((mkCmd 0x0D01 [50000, 1000, 0, 0, 0, 0, 0, 0, 0, (0 + 1), 0] : RungCmd)) ready); let s : State := { s with host.firing := false }; s : State)), rung_ok (by decide +kernel), by decide +kernel⟩,
   ⟨((0 : Fin 16)), ((mkCmd 0x0D02 [0] : RungCmd)), ((let s : State := (ring ((mkCmd 0x0D02 [0] : RungCmd)) ready); let s : State := { s with host.opState := .safe }; let s : State := { s with onyx.wdogRunning := true }; let s : State := { s with onyx.reacting := false }; let s : State := { s with onyx.selfTestOk := true }; s : State)), rung_ok (by decide +kernel), by decide +kernel⟩,
   ⟨((0 : Fin 16)), ((mkCmd 0x0D03 [] : RungCmd)), ((let s : State := (ring ((mkCmd 0x0D03 [] : RungCmd)) ready); let s : State := { s with host.opState := .safe }; s : State)), rung_ok (by decide +kernel), by decide +kernel⟩,
   ⟨((0 : Fin 16)), ((mkCmd 0x0D03 [] : RungCmd)), ((let s : State := (ring ((mkCmd 0x0D03 [] : RungCmd)) ready); let s : State := { s with onyx.tripped := false }; s : State)), rung_ok (by decide +kernel), by decide +kernel⟩⟩

theorem test_wit_DramRequests :
    (∃ (rt : List MemAsk) (asks : List MemAsk) (slots : List (List Nat)) (one : List (Fin 32)) (two : List (Fin 32)) (e0 : Bool) (e1 : Bool) (e2 : Bool) (s : State), (s.dram.fail = true ∨ flag s.dram.config 31 = false)) ∧
    (∃ (rt : List MemAsk) (asks : List MemAsk) (slots : List (List Nat)) (one : List (Fin 32)) (two : List (Fin 32)) (e0 : Bool) (e1 : Bool) (e2 : Bool) (s : State) (v : State), (s.dram.fail = false) ∧ (flag s.dram.config 31 = true) ∧ (v = emptied e0 e1 e2 (runSlots slots (asked (rt ++ asks) s))) ∧ (v.dram.returning = [])) ∧
    (∃ (rt : List MemAsk) (asks : List MemAsk) (slots : List (List Nat)) (one : List (Fin 32)) (two : List (Fin 32)) (e0 : Bool) (e1 : Bool) (e2 : Bool) (s : State) (v : State) (id : Nat) (rest : List Nat) (r : MemReq), (s.dram.fail = false) ∧ (flag s.dram.config 31 = true) ∧ (v = emptied e0 e1 e2 (runSlots slots (asked (rt ++ asks) s))) ∧ (v.dram.returning = id :: rest) ∧ (v.dram.reqs.find? (·.id == id) = some r)) ∧
    (∃ (e0 : Bool) (e1 : Bool) (e2 : Bool) (s : State), (e0 = false) ∧ (e1 = false) ∧ (e2 = false)) ∧
    (∃ (e0 : Bool) (e1 : Bool) (e2 : Bool) (s : State), (e0 = true) ∧ (e1 = false) ∧ (e2 = false)) ∧
    (∃ (d : Dram) (k : MemAsk), (k.requester.val ≠ 8) ∧ ((fittedBytes d.config).getD 0 ≤ 256 * k.chunk.toNat)) ∧
    (∃ (d : Dram) (k : MemAsk), (k.requester.val ≠ 8) ∧ (k.requester.val ≠ 9) ∧ (inTraining d.config k.chunk.toNat = true)) ∧
    (∃ (d : Dram) (k : MemAsk), (k.requester.val ≠ 8) ∧ (k.requester.val ≠ 9) ∧ (inTraining d.config k.chunk.toNat = false) ∧ (256 * k.chunk.toNat < (fittedBytes d.config).getD 0)) ∧
    (∃ (slots : List (List Nat)) (s : State), (s.pos.mono.toNat < s.dram.stallTo)) ∧
    (∃ (r : MemReq) (s : State) (q : MemReq), (r.write = false) ∧ (q ∈ (returnRead r [] s).dram.reqs)) ∧
    (∃ (r : MemReq) (s : State) (q : MemReq), (r.write = true) ∧ (q ∈ (returnRead r [] s).dram.reqs) ∧ (q.id = r.id)) ∧
    (∃ (r : MemReq) (w : Fin 32) (s : State) (u : State), ((32 * r.chunk + w) / 8 ∈ r.units) ∧ (u = setDram (fun d => endReq s.pos.mono r { d with returning := d.returning.filter fun id => id != r.id, rtLatMax := if r.rt then w32 (max d.rtLatMax.toNat (min (s.pos.mono.toNat - r.born.toNat) 0xFFFFFFFF)) else d.rtLatMax }) s)) ∧
    (∃ (d : Dram) (busy : List Nat) (r : MemReq) (q : MemReq), (pickReq d busy = some r) ∧ (q ∈ d.reqs) ∧ (mayIssue d q = true) ∧ (q.id ∉ busy)) ∧
    (∃ (d : Dram) (busy : List Nat) (q : MemReq), (pickReq d busy = none) ∧ (q ∈ d.reqs)) ∧
    (∃ (d : Dram) (q : MemReq) (r : MemReq), (q ∈ d.reqs) ∧ (q.id ≠ r.id) ∧ ((q.holds d = true ∧ q.sameUnit r = true) ∨ (q.write = true ∧ q.requester = r.requester ∧ q.id < r.id ∧ q.overlaps r = true))) ∧
    (∃ (d : Dram) (r : MemReq), (freePlace d r = .reserved)) ∧
    (∃ (d : Dram) (r : MemReq), (freePlace d r = .shared)) ∧
    (∃ (d : Dram), ((d.reqs.map (·.id)).Nodup) ∧ (countIf d.reqs (fun q => q.place == .reserved) ≤ 32) ∧ (countIf d.reqs (fun q => q.place == .shared) ≤ 96)) ∧
    (∃ (rt : List MemAsk) (asks : List MemAsk) (s : State) (u : State), (u = asked (rt ++ asks) s) ∧ (∀ r ∈ u.dram.reqs, r.ages = false ∨ r.urgent = true ∨ s.pos.mono.toNat < r.born.toNat + r.age)) ∧
    (∃ (rt : List MemAsk) (asks : List MemAsk) (s : State) (u : State) (r : MemReq), (u = asked (rt ++ asks) s) ∧ (u.dram.reqs.find? (fun r => r.ages && !r.urgent && decide (r.born.toNat + r.age ≤ s.pos.mono.toNat)) = some r)) ∧
    (∃ (asks : List MemAsk) (s : State) (u : State), (u = asked asks s) ∧ (∀ r ∈ u.dram.reqs, r.urgent = false ∨ r.starved = true ∨ s.pos.mono.toNat < r.born.toNat + 5 * r.age)) ∧
    (∃ (asks : List MemAsk) (s : State) (u : State) (r : _), (u = asked asks s) ∧ (u.dram.reqs.find? (fun r => r.urgent && !r.starved && decide (r.born.toNat + 5 * r.age ≤ s.pos.mono.toNat)) = some r)) :=
  ⟨⟨(([] : List MemAsk)), (([] : List MemAsk)), (([] : List (List Nat))), (([] : List (Fin 32))), (([] : List (Fin 32))), ((false : Bool)), ((false : Bool)), ((false : Bool)), ((let s : State := ready; let s : State := { s with dram.fail := true }; s : State)), by decide +kernel⟩,
   ⟨(([] : List MemAsk)), (([{ requester := 2, write := false, chunk := 3, a := 0, b := 63, what := 0 }] : List MemAsk)), (([[]] : List (List Nat))), (([] : List (Fin 32))), (([] : List (Fin 32))), ((false : Bool)), ((false : Bool)), ((false : Bool)), ((let s : State := ready; let s : State := { s with dram.fail := false }; let s : State := { s with dram.fail := false, dram.config := 0x80000000 }; s : State)), ((emptied ((false : Bool)) ((false : Bool)) ((false : Bool)) (runSlots (([[]] : List (List Nat))) (asked ((([] : List MemAsk)) ++ (([{ requester := 2, write := false, chunk := 3, a := 0, b := 63, what := 0 }] : List MemAsk))) ((let s : State := ready; let s : State := { s with dram.fail := false }; let s : State := { s with dram.fail := false, dram.config := 0x80000000 }; s : State)))) : State)), by decide +kernel⟩,
   ⟨(([] : List MemAsk)), (([] : List MemAsk)), (([] : List (List Nat))), (([1] : List (Fin 32))), (([0] : List (Fin 32))), ((false : Bool)), ((false : Bool)), ((false : Bool)), ((let s : State := ready; let s : State := { s with dram.fail := false }; let s : State := { s with dram.fail := false, dram.config := 0x80000000, dram.zeroed := true, dram.reqs := [aReq], dram.returning := [4] }; s : State)), ((emptied ((false : Bool)) ((false : Bool)) ((false : Bool)) (runSlots (([] : List (List Nat))) (asked ((([] : List MemAsk)) ++ (([] : List MemAsk))) ((let s : State := ready; let s : State := { s with dram.fail := false }; let s : State := { s with dram.fail := false, dram.config := 0x80000000, dram.zeroed := true, dram.reqs := [aReq], dram.returning := [4] }; s : State)))) : State)), ((4 : Nat)), (([] : List Nat)), ((aReq : MemReq)), by decide +kernel⟩,
   ⟨((false : Bool)), ((false : Bool)), ((false : Bool)), ((let s : State := ready; s : State)), by decide +kernel⟩,
   ⟨((true : Bool)), ((false : Bool)), ((false : Bool)), ((let s : State := ready; s : State)), by decide +kernel⟩,
   ⟨(({} : Dram)), (({ requester := 5, write := false, chunk := 0xFFFFFFFF, a := 0, b := 63, what := 0 } : MemAsk)), by decide +kernel⟩,
   ⟨(({ config := 0x80000000 } : Dram)), (({ requester := 5, write := false, chunk := 0x1FFFFFF, a := 0, b := 63, what := 0 } : MemAsk)), by decide +kernel⟩,
   ⟨(({ config := 0x80000000 } : Dram)), (({ requester := 5, write := false, chunk := 3, a := 0, b := 63, what := 0 } : MemAsk)), by decide +kernel⟩,
   ⟨(([] : List (List Nat))), ((let s : State := ready; let s : State := { s with dram.stallTo := (s.pos.mono.toNat + 1) }; s : State)), by decide +kernel⟩,
   ⟨((aReq : MemReq)), ((let s : State := ready; let s : State := { s with dram.reqs := [aReq, { aReq with id := 5 }], dram.returning := [4] }; s : State)), (({ aReq with id := 5 } : MemReq)), by decide +kernel⟩,
   ⟨(({ aReq with write := true, requester := 5, first := 3 } : MemReq)), ((let s : State := ready; let s : State := { s with dram.reqs := [{ aReq with write := true, requester := 5, first := 3 }], dram.returning := [4] }; s : State)), (({ aReq with write := true, requester := 5, first := 3, readDone := true } : MemReq)), by decide +kernel⟩,
   ⟨((aReq : MemReq)), ((1 : Fin 32)), ((let s : State := ready; let s : State := { s with dram.reqs := [aReq], dram.returning := [4] }; s : State)), ((setDram (fun d => endReq ((let s : State := ready; let s : State := { s with dram.reqs := [aReq], dram.returning := [4] }; s : State)).pos.mono ((aReq : MemReq)) { d with returning := d.returning.filter fun id => id != ((aReq : MemReq)).id, rtLatMax := if ((aReq : MemReq)).rt then w32 (max d.rtLatMax.toNat (min (((let s : State := ready; let s : State := { s with dram.reqs := [aReq], dram.returning := [4] }; s : State)).pos.mono.toNat - ((aReq : MemReq)).born.toNat) 0xFFFFFFFF)) else d.rtLatMax }) ((let s : State := ready; let s : State := { s with dram.reqs := [aReq], dram.returning := [4] }; s : State)) : State)), by decide +kernel⟩,
   ⟨(({ zeroed := true, reqs := [bReq, aReq] } : Dram)), (([] : List Nat)), ((aReq : MemReq)), ((bReq : MemReq)), by decide +kernel⟩,
   ⟨(({ zeroed := true, reqs := [bReq, aReq] } : Dram)), (([4, 6] : List Nat)), ((bReq : MemReq)), by decide +kernel⟩,
   ⟨(({ zeroed := true, reqs := [{ bReq with write := true, first := 3, opened := true }, aReq] } : Dram)), (({ bReq with write := true, first := 3, opened := true } : MemReq)), ((aReq : MemReq)), by decide +kernel⟩,
   ⟨(({ zeroed := true, reqs := [bReq] } : Dram)), ((aReq : MemReq)), by decide +kernel⟩,
   ⟨(({ zeroed := true, reqs := [aReq] } : Dram)), ((bReq : MemReq)), by decide +kernel⟩,
   ⟨(({ zeroed := true, reqs := [{ aReq with place := .outside }, bReq] } : Dram)), by decide +kernel⟩,
   ⟨(([] : List MemAsk)), (([{ requester := 5, write := false, chunk := 3, a := 0, b := 63, what := 0 }] : List MemAsk)), ((let s : State := ready; let s : State := { s with dram.age := List.replicate 10 5000 }; s : State)), ((asked ((([] : List MemAsk)) ++ (([{ requester := 5, write := false, chunk := 3, a := 0, b := 63, what := 0 }] : List MemAsk))) ((let s : State := ready; let s : State := { s with dram.age := List.replicate 10 5000 }; s : State)) : State)), by decide +kernel⟩,
   ⟨(([] : List MemAsk)), (([] : List MemAsk)), ((let s : State := ready; let s : State := { s with dram.zeroed := true, dram.reqs := [{ aReq with place := .outside }, { bReq with place := .shared }] }; s : State)), ((asked ((([] : List MemAsk)) ++ (([] : List MemAsk))) ((let s : State := ready; let s : State := { s with dram.zeroed := true, dram.reqs := [{ aReq with place := .outside }, { bReq with place := .shared }] }; s : State)) : State)), (({ bReq with place := .shared } : MemReq)), by decide +kernel⟩,
   ⟨(([] : List MemAsk)), ((let s : State := ready; s : State)), ((asked (([] : List MemAsk)) ((let s : State := ready; s : State)) : State)), by decide +kernel⟩,
   ⟨(([] : List MemAsk)), ((let s : State := ready; let s : State := { s with dram.reqs := [aReq, { bReq with urgent := true }] }; s : State)), ((asked (([] : List MemAsk)) ((let s : State := ready; let s : State := { s with dram.reqs := [aReq, { bReq with urgent := true }] }; s : State)) : State)), { bReq with urgent := true }, by decide +kernel⟩⟩

theorem test_wit_DramUpkeep :
    (∃ (r0 : Option (Fin 3)) (r1 : Option (Fin 3)) (s : State), (fittedBytes s.dram.config = none ∨ ∃ t, s.dram.refreshAt = some t ∧ s.pos.mono.toNat < t.toNat + (if s.dram.refFast then 3900 else 7800))) ∧
    (∃ (r0 : Option (Fin 3)) (r1 : Option (Fin 3)) (s : State) (d : Dram) (cs : List DdrCmd), ((fittedBytes s.dram.config).isSome = true) ∧ (∀ t, s.dram.refreshAt = some t → t.toNat + (if s.dram.refFast then 3900 else 7800) ≤ s.pos.mono.toNat) ∧ (s.dram.sinceZq < 127) ∧ (s.dram.hotSeen = false) ∧ ((d, cs) = finishOpen s.pos.mono s.dram)) ∧
    (∃ (r0 : Option (Fin 3)) (r1 : Option (Fin 3)) (s : State), ((fittedBytes s.dram.config).isSome = true) ∧ (∀ t, s.dram.refreshAt = some t → t.toNat + (if s.dram.refFast then 3900 else 7800) ≤ s.pos.mono.toNat) ∧ (s.dram.sinceZq < 127) ∧ (s.dram.hotSeen = true)) ∧
    (∃ (r0 : Option (Fin 3)) (r1 : Option (Fin 3)) (s : State), ((fittedBytes s.dram.config).isSome = true) ∧ (∀ t, s.dram.refreshAt = some t → t.toNat + (if s.dram.refFast then 3900 else 7800) ≤ s.pos.mono.toNat) ∧ (127 ≤ s.dram.sinceZq)) ∧
    (∃ (s : State), (s.dram.corrSince = 0 ∨ ∃ t, s.dram.corrAt = some t ∧ s.pos.mono.toNat < t.toNat + 1000000000)) ∧
    (∃ (s : State), (s.dram.corrSince ≠ 0) ∧ (∀ t, s.dram.corrAt = some t → t.toNat + 1000000000 ≤ s.pos.mono.toNat)) ∧
    (∃ (f : Option (Fin 8)) (mg : BitVec 24) (cmp : Word) (v : Bool) (s : State), (s.dram.training = none)) ∧
    (∃ (mg : BitVec 24) (cmp : Word) (v : Bool) (tag : Option Word) (b : Bool) (s : State) (u : State), (s.dram.training = some (tag, b)) ∧ (s.dram.discardPass = false) ∧ (16 ≤ mg.toNat % 256) ∧ (16 ≤ mg.toNat / 256 % 256) ∧ (u = setDram (fun d => admitted { d with training := none, trainStep := 0, trained := true, margin := mg, trnCmp := cmp &&& 0xFFFF01FF }) s) ∧ (s.dram.ratePending = none) ∧ (tag = none)) ∧
    (∃ (mg : BitVec 24) (cmp : Word) (v : Bool) (tag : Option Word) (b : Bool) (s : State) (u : State) (t : Word), (s.dram.training = some (tag, b)) ∧ (s.dram.discardPass = false) ∧ (16 ≤ mg.toNat % 256) ∧ (16 ≤ mg.toNat / 256 % 256) ∧ (u = setDram (fun d => admitted { d with training := none, trainStep := 0, trained := true, margin := mg, trnCmp := cmp &&& 0xFFFF01FF }) s) ∧ (s.dram.ratePending = none) ∧ (tag = some t)) ∧
    (∃ (mg : BitVec 24) (cmp : Word) (v : Bool) (tag : Option Word) (b : Bool) (s : State) (u : State) (t : Word) (r : Nat), (s.dram.training = some (tag, b)) ∧ (s.dram.discardPass = false) ∧ (16 ≤ mg.toNat % 256) ∧ (16 ≤ mg.toNat / 256 % 256) ∧ (u = setDram (fun d => admitted { d with training := none, trainStep := 0, trained := true, margin := mg, trnCmp := cmp &&& 0xFFFF01FF }) s) ∧ (s.dram.ratePending = some (t, r))) ∧
    (∃ (n : Fin 8) (mg : BitVec 24) (cmp : Word) (v : Bool) (b : Bool) (s : State), (s.dram.training = some (none, b)) ∧ (s.dram.discardPass = false) ∧ (s.dram.ratePending = none) ∧ (s.dram.zeroed = false) ∧ (s.host.opState = .boot)) ∧
    (∃ (n : Fin 8) (mg : BitVec 24) (cmp : Word) (b : Bool) (tag : Option Word) (t0 : Word) (r : Nat) (s : State), (s.dram.training = some (tag, b)) ∧ (s.dram.discardPass = false) ∧ (s.dram.ratePending = some (t0, r))) ∧
    (∃ (b : Bool) (s : State), (s.dram.trained = false ∨ s.dram.zeroed = true ∨ s.dram.training.isSome = true ∨ s.dram.fail = true)) ∧
    (∃ (s : State) (u : State), (s.dram.trained = true) ∧ (s.dram.zeroed = false) ∧ (s.dram.training = none) ∧ (s.dram.fail = false) ∧ (u = setDram (fun d => admitted { d with zeroed := true }) s)) :=
  ⟨⟨((none : Option (Fin 3))), ((none : Option (Fin 3))), ((let s : State := ready; let s : State := { s with dram.config := 0x80000000, dram.fail := false, dram.refreshAt := some 1000000000000 }; s : State)), .inr ⟨_, rfl, by decide +kernel⟩⟩,
   ⟨((none : Option (Fin 3))), ((none : Option (Fin 3))), ((let s : State := ready; let s : State := { s with dram.hotSeen := false }; let s : State := { s with dram.config := 0x80000000, dram.refreshAt := some 0 }; s : State)), (((finishOpen ((let s : State := ready; let s : State := { s with dram.hotSeen := false }; let s : State := { s with dram.config := 0x80000000, dram.refreshAt := some 0 }; s : State)).pos.mono ((let s : State := ready; let s : State := { s with dram.hotSeen := false }; let s : State := { s with dram.config := 0x80000000, dram.refreshAt := some 0 }; s : State)).dram).1 : Dram)), (((finishOpen ((let s : State := ready; let s : State := { s with dram.hotSeen := false }; let s : State := { s with dram.config := 0x80000000, dram.refreshAt := some 0 }; s : State)).pos.mono ((let s : State := ready; let s : State := { s with dram.hotSeen := false }; let s : State := { s with dram.config := 0x80000000, dram.refreshAt := some 0 }; s : State)).dram).2 : List DdrCmd)), by decide +kernel, every_some (by decide +kernel), by decide +kernel⟩,
   ⟨((none : Option (Fin 3))), ((none : Option (Fin 3))), ((let s : State := ready; let s : State := { s with dram.hotSeen := true }; let s : State := { s with dram.config := 0x80000000, dram.refreshAt := some 0 }; s : State)), by decide +kernel, every_some (by decide +kernel), by decide +kernel⟩,
   ⟨((none : Option (Fin 3))), ((none : Option (Fin 3))), ((let s : State := ready; let s : State := { s with dram.sinceZq := 127 }; let s : State := { s with dram.config := 0x80000000, dram.refreshAt := some 0 }; s : State)), by decide +kernel, every_some (by decide +kernel), by decide +kernel⟩,
   ⟨((let s : State := ready; let s : State := { s with dram.corrSince := 3, dram.corrAt := some 1000000000000 }; s : State)), .inr ⟨_, rfl, by decide +kernel⟩⟩,
   ⟨((let s : State := ready; let s : State := { s with dram.corrSince := 1 }; s : State)), by decide +kernel, every_some (by decide +kernel)⟩,
   ⟨((none : Option (Fin 8))), ((0 : BitVec 24)), ((0 : Word)), ((false : Bool)), ((let s : State := ready; let s : State := { s with dram.training := none }; s : State)), by decide +kernel⟩,
   ⟨((0x1010 : BitVec 24)), ((0 : Word)), ((false : Bool)), ((none : Option Word)), ((false : Bool)), ((let s : State := ready; let s : State := { s with dram.training := some (((none : Option Word)), ((false : Bool))) }; let s : State := { s with dram.discardPass := false }; let s : State := { s with dram.ratePending := none }; s : State)), ((setDram (fun d => admitted { d with training := none, trainStep := 0, trained := true, margin := ((0x1010 : BitVec 24)), trnCmp := ((0 : Word)) &&& 0xFFFF01FF }) ((let s : State := ready; let s : State := { s with dram.training := some (((none : Option Word)), ((false : Bool))) }; let s : State := { s with dram.discardPass := false }; let s : State := { s with dram.ratePending := none }; s : State)) : State)), by decide +kernel⟩,
   ⟨((0x1010 : BitVec 24)), ((0 : Word)), ((false : Bool)), ((some ((0 : Word)) : Option Word)), ((false : Bool)), ((let s : State := ready; let s : State := { s with dram.training := some (((some ((0 : Word)) : Option Word)), ((false : Bool))) }; let s : State := { s with dram.discardPass := false }; let s : State := { s with dram.ratePending := none }; s : State)), ((setDram (fun d => admitted { d with training := none, trainStep := 0, trained := true, margin := ((0x1010 : BitVec 24)), trnCmp := ((0 : Word)) &&& 0xFFFF01FF }) ((let s : State := ready; let s : State := { s with dram.training := some (((some ((0 : Word)) : Option Word)), ((false : Bool))) }; let s : State := { s with dram.discardPass := false }; let s : State := { s with dram.ratePending := none }; s : State)) : State)), ((0 : Word)), by decide +kernel⟩,
   ⟨((0x1010 : BitVec 24)), ((0 : Word)), ((false : Bool)), ((none : Option Word)), ((false : Bool)), ((let s : State := ready; let s : State := { s with dram.training := some (((none : Option Word)), ((false : Bool))) }; let s : State := { s with dram.discardPass := false }; let s : State := { s with dram.ratePending := some (((0 : Word)), ((0 : Nat))) }; s : State)), ((setDram (fun d => admitted { d with training := none, trainStep := 0, trained := true, margin := ((0x1010 : BitVec 24)), trnCmp := ((0 : Word)) &&& 0xFFFF01FF }) ((let s : State := ready; let s : State := { s with dram.training := some (((none : Option Word)), ((false : Bool))) }; let s : State := { s with dram.discardPass := false }; let s : State := { s with dram.ratePending := some (((0 : Word)), ((0 : Nat))) }; s : State)) : State)), ((0 : Word)), ((0 : Nat)), by decide +kernel⟩,
   ⟨((0 : Fin 8)), ((0 : BitVec 24)), ((0 : Word)), ((false : Bool)), ((false : Bool)), ((let s : State := ready; let s : State := { s with dram.training := some (none, ((false : Bool))) }; let s : State := { s with dram.discardPass := false }; let s : State := { s with dram.ratePending := none }; let s : State := { s with dram.zeroed := false }; let s : State := { s with host.opState := .boot }; s : State)), by decide +kernel⟩,
   ⟨((0 : Fin 8)), ((0 : BitVec 24)), ((0 : Word)), ((false : Bool)), ((none : Option Word)), ((0 : Word)), ((0 : Nat)), ((let s : State := ready; let s : State := { s with dram.training := some (((none : Option Word)), ((false : Bool))) }; let s : State := { s with dram.discardPass := false }; let s : State := { s with dram.ratePending := some (((0 : Word)), ((0 : Nat))) }; s : State)), by decide +kernel⟩,
   ⟨((false : Bool)), ((let s : State := ready; let s : State := { s with dram.trained := false }; s : State)), by decide +kernel⟩,
   ⟨((let s : State := ready; let s : State := { s with dram.trained := true }; let s : State := { s with dram.zeroed := false }; let s : State := { s with dram.training := none }; let s : State := { s with dram.fail := false }; s : State)), ((setDram (fun d => admitted { d with zeroed := true }) ((let s : State := ready; let s : State := { s with dram.trained := true }; let s : State := { s with dram.zeroed := false }; let s : State := { s with dram.training := none }; let s : State := { s with dram.fail := false }; s : State)) : State)), by decide +kernel⟩⟩

theorem test_wit_MemoryCommands :
    (∃ (k : _) (c : _) (s : _), Rung 0x0E00 1 k c s ∧ (s.host.opState ≠ .boot) ∧ (c.w 0 = 0)) ∧
    (∃ (k : _) (c : _) (s : _), Rung 0x0E00 1 k c s ∧ (s.host.opState ≠ .boot) ∧ (c.w 0 = 1)) ∧
    (∃ (k : _) (c : _) (s : _), Rung 0x0E01 1 k c s ∧ (c.w 0 &&& ~~~ 1 = 0) ∧ (s.dram.ratePending = none) ∧ (s.dram.training = none) ∧ (memBlocked s = false) ∧ (s.host.outst.length < 16)) ∧
    (∃ (k : _) (c : _) (s : _) (r : Nat), Rung 0x0E02 1 k c s ∧ ((c.w 0).toNat = r) ∧ (r ≤ fld s.dram.config 4 2) ∧ (s.dram.ratePending = none) ∧ (memBlocked s = false) ∧ (s.host.outst.length < 16) ∧ (r = s.dram.rate)) ∧
    (∃ (k : _) (c : _) (s : _) (r : Nat), Rung 0x0E02 1 k c s ∧ ((c.w 0).toNat = r) ∧ (r ≤ fld s.dram.config 4 2) ∧ (s.dram.ratePending = none) ∧ (memBlocked s = false) ∧ (s.host.outst.length < 16) ∧ (r ≠ s.dram.rate) ∧ (s.dram.training = none)) ∧
    (∃ (k : _) (c : _) (s : _) (r : Nat), Rung 0x0E02 1 k c s ∧ ((c.w 0).toNat = r) ∧ (r ≤ fld s.dram.config 4 2) ∧ (s.dram.ratePending = none) ∧ (memBlocked s = false) ∧ (s.host.outst.length < 16) ∧ (r ≠ s.dram.rate) ∧ (s.dram.training.isSome = true)) ∧
    (∃ (k : _) (c : _) (s : _) (r : _), Rung 0x0E03 2 k c s ∧ ((c.w 0).toNat = r) ∧ (3 ≤ r) ∧ (r ≤ 8) ∧ (250 ≤ (c.w 1).toNat) ∧ ((c.w 1).toNat < 65536) ∧ (s.host.opState ≠ .boot)) ∧
    (∃ (k : _) (c : _) (s : _), Rung 0x0E04 2 k c s ∧ ((c.w 1).toNat % 64 = 0) ∧ ((c.w 1).toNat < 2 ^ 20) ∧ (s.host.firing = false) ∧ (c.w 0 = 0)) ∧
    (∃ (k : _) (c : _) (s : _), Rung 0x0E04 2 k c s ∧ ((c.w 1).toNat % 64 = 0) ∧ ((c.w 1).toNat < 2 ^ 20) ∧ (s.host.firing = false) ∧ (c.w 0 = 1)) :=
  ⟨⟨((0 : Fin 16)), ((mkCmd 0x0E00 [0] : RungCmd)), ((let s : State := (ring ((mkCmd 0x0E00 [0] : RungCmd)) ready); s : State)), rung_ok (by decide +kernel), by decide +kernel⟩,
   ⟨((0 : Fin 16)), ((mkCmd 0x0E00 [1] : RungCmd)), ((let s : State := (ring ((mkCmd 0x0E00 [1] : RungCmd)) ready); s : State)), rung_ok (by decide +kernel), by decide +kernel⟩,
   ⟨((0 : Fin 16)), ((mkCmd 0x0E01 [0] : RungCmd)), ((let s : State := (ring ((mkCmd 0x0E01 [0] : RungCmd)) ready); let s : State := { s with dram.ratePending := none }; let s : State := { s with dram.training := none }; s : State)), rung_ok (by decide +kernel), by decide +kernel⟩,
   ⟨((0 : Fin 16)), ((mkCmd 0x0E02 [1] : RungCmd)), ((let s : State := (ring ((mkCmd 0x0E02 [1] : RungCmd)) ready); let s : State := { s with dram.ratePending := none }; let s : State := { s with dram.rate := 1, dram.config := 0x80000030 }; s : State)), ((1 : Nat)), rung_ok (by decide +kernel), by decide +kernel⟩,
   ⟨((0 : Fin 16)), ((mkCmd 0x0E02 [1] : RungCmd)), ((let s : State := (ring ((mkCmd 0x0E02 [1] : RungCmd)) ready); let s : State := { s with dram.ratePending := none }; let s : State := { s with dram.training := none }; let s : State := { s with dram.rate := 2, dram.config := 0x80000030 }; s : State)), ((1 : Nat)), rung_ok (by decide +kernel), by decide +kernel⟩,
   ⟨((0 : Fin 16)), ((mkCmd 0x0E02 [1] : RungCmd)), ((let s : State := (ring ((mkCmd 0x0E02 [1] : RungCmd)) ready); let s : State := { s with dram.ratePending := none }; let s : State := { s with dram.training := some default }; let s : State := { s with dram.rate := 2, dram.config := 0x80000030 }; s : State)), ((1 : Nat)), rung_ok (by decide +kernel), by decide +kernel⟩,
   ⟨((0 : Fin 16)), ((mkCmd 0x0E03 [(BitVec.ofNat 32 (3)), 250] : RungCmd)), ((let s : State := (ring ((mkCmd 0x0E03 [(BitVec.ofNat 32 (3)), 250] : RungCmd)) ready); s : State)), 3, rung_ok (by decide +kernel), by decide +kernel⟩,
   ⟨((0 : Fin 16)), ((mkCmd 0x0E04 [0, 0] : RungCmd)), ((let s : State := (ring ((mkCmd 0x0E04 [0, 0] : RungCmd)) ready); let s : State := { s with host.firing := false }; s : State)), rung_ok (by decide +kernel), by decide +kernel⟩,
   ⟨((0 : Fin 16)), ((mkCmd 0x0E04 [1, 0] : RungCmd)), ((let s : State := (ring ((mkCmd 0x0E04 [1, 0] : RungCmd)) ready); let s : State := { s with host.firing := false }; s : State)), rung_ok (by decide +kernel), by decide +kernel⟩⟩

theorem test_wit_PersistentWords :
    (∃ (w : Fin 1024) (v : Word) (m : Word) (s : State), (prfMask w = some m) ∧ (pageFull s.pers (w.val / 64) = false) ∧ (s.pers.prf.length = 1024) ∧ (s.pers.wear.length = 16)) ∧
    (∃ (w : Fin 1024) (v : Word) (s : State), (prfMask w = none)) ∧
    (∃ (w : Fin 1024) (v : Word) (m : Word) (s : State), (prfMask w = some m) ∧ (pageFull s.pers (w.val / 64) = true)) ∧
    (∃ (w : _), (64 ≤ w)) ∧
    (∃ (c : Bool) (u : Option Nat) (s : State), (s.pwr.state = .sleep ∨ s.pers.opMinutes - s.pers.refreshMin < 10080)) ∧
    (∃ (c : Bool) (u : Option Nat) (s : State), (s.pwr.state ≠ .sleep) ∧ (10080 ≤ s.pers.opMinutes - s.pers.refreshMin) ∧ (s.pers.wear.length = 16)) ∧
    (∃ (s : State), (s.pwr.state = .sleep ∨ s.since s.pers.minuteAt < 60000000000)) ∧
    (∃ (s : State), (s.pwr.state ≠ .sleep) ∧ (60000000000 ≤ s.since s.pers.minuteAt)) :=
  ⟨⟨((5 : Fin 1024)), ((0xFFFFFFFF : Word)), ((0x17FFF : Word)), ((let s : State := ready; s : State)), by decide +kernel⟩,
   ⟨((16 : Fin 1024)), ((0 : Word)), ((let s : State := ready; s : State)), by decide +kernel⟩,
   ⟨((64 : Fin 1024)), ((0 : Word)), ((0xFFFFFFFF : Word)), ((let s : State := ready; let s : State := { s with pers.wear := s.pers.wear.set 1 100000000 }; s : State)), by decide +kernel⟩,
   ⟨64, by decide +kernel⟩,
   ⟨((false : Bool)), ((none : Option Nat)), ((let s : State := ready; let s : State := { s with pwr.state := .sleep }; s : State)), by decide +kernel⟩,
   ⟨((false : Bool)), ((none : Option Nat)), ((let s : State := ready; let s : State := { s with pers.opMinutes := 20000 }; s : State)), by decide +kernel⟩,
   ⟨((let s : State := ready; let s : State := { s with pwr.state := .sleep }; s : State)), by decide +kernel⟩,
   ⟨((let s : State := ready; s : State)), by decide +kernel⟩⟩

theorem test_wit_Almanac :
    (∃ (l : List AlmRec) (b : AlmRec) (x : AlmRec), (bestRec l = some b) ∧ (x ∈ l) ∧ (x.severity = b.severity)) ∧
    (∃ (s : State), (s.since s.pers.almTickAt < 3906250)) ∧
    (∃ (s : State), (3906250 ≤ s.since s.pers.almTickAt)) ∧
    (∃ (s : State), (s.pers.almQueue = [] ∨ s.pers.almBudget = 0)) ∧
    (∃ (r : AlmRec) (s : State), (bestRec s.pers.almQueue = some r) ∧ (s.pers.almBudget ≠ 0)) ∧
    (∃ (k : _) (c : _) (s : _), Rung 0x0E13 5 k c s ∧ (fld (c.w 0) 8 3 ≤ 3) ∧ (c.w 0 &&& ~~~ 0x7FF = 0) ∧ (c.w 4 &&& ~~~ 0xFFFF = 0) ∧ (s.pers.almQueue.length < 16) ∧ (s.host.opState ≠ .boot)) ∧
    (∃ (k : Fin 16) (s : State), (∀ r ∈ s.pers.almQueue, r.host ≠ some k.val ∨ s.since r.asked < 10000000)) ∧
    (∃ (k : Fin 16) (r : AlmRec) (s : State), (r ∈ s.pers.almQueue) ∧ (r.host = some k.val) ∧ (10000000 ≤ s.since r.asked)) ∧
    (∃ (k : _) (c : _) (s : _) (n : _), Rung 0x0E14 2 k c s ∧ ((c.w 1).toNat = n) ∧ (1 ≤ n) ∧ (n ≤ 7)) ∧
    (∃ (p : Pers) (n : Nat) (w : List Word), (heldRecord p n = some w)) :=
  ⟨⟨(([{ severity := 2, seq := 5 }, { severity := 3, seq := 9 }, { severity := 3, seq := 8 }] : List AlmRec)), ((((bestRec (([{ severity := 2, seq := 5 }, { severity := 3, seq := 9 }, { severity := 3, seq := 8 }] : List AlmRec))).getD {}) : AlmRec)), (({ severity := 3, seq := 9 } : AlmRec)), by decide +kernel⟩,
   ⟨((let s : State := ready; let s : State := { s with pers.almTickAt := s.pos.mono }; s : State)), by decide +kernel⟩,
   ⟨((let s : State := ready; s : State)), by decide +kernel⟩,
   ⟨((let s : State := ready; let s : State := { s with pers.almQueue := [] }; s : State)), by decide +kernel⟩,
   ⟨(({ severity := 3, seq := 9, code := 0x0201 } : AlmRec)), ((let s : State := ready; let s : State := { s with pers.almBudget := 1 }; let s : State := { s with pers.almQueue := [(({ severity := 3, seq := 9, code := 0x0201 } : AlmRec))], pers.almBudget := 5 }; s : State)), by decide +kernel⟩,
   ⟨((0 : Fin 16)), ((mkCmd 0x0E13 [0, 0, 0, 0, 0] : RungCmd)), ((let s : State := (ring ((mkCmd 0x0E13 [0, 0, 0, 0, 0] : RungCmd)) ready); s : State)), rung_ok (by decide +kernel), by decide +kernel⟩,
   ⟨((0 : Fin 16)), ((let s : State := ready; s : State)), by decide +kernel⟩,
   ⟨((0 : Fin 16)), (({ severity := 3, seq := 9, code := 0x0201, host := some 0 } : AlmRec)), ((let s : State := ready; let s : State := { s with pers.almQueue := [(({ severity := 3, seq := 9, code := 0x0201, host := some 0 } : AlmRec))] }; s : State)), by decide +kernel⟩,
   ⟨((0 : Fin 16)), ((mkCmd 0x0E14 [0, (BitVec.ofNat 32 (1))] : RungCmd)), ((let s : State := (ring ((mkCmd 0x0E14 [0, (BitVec.ofNat 32 (1))] : RungCmd)) ready); s : State)), 1, rung_ok (by decide +kernel), by decide +kernel⟩,
   ⟨(({ alm := [(5, [4101, 0, 0, 0, 0, 0, 0, 0])] } : Pers)), ((4101 : Nat)), (([4101, 0, 0, 0, 0, 0, 0, 0] : List Word)), by decide +kernel⟩⟩

theorem test_wit_CalibrationSets :
    (∃ (s : State), (s.pers.pendWrite = false ∨ s.pers.writing.isSome = true ∨ setMinPassed s = false)) ∧
    (∃ (s : State), (s.pers.pendWrite = true) ∧ (s.pers.writing = none) ∧ (setMinPassed s = true)) ∧
    (∃ (c : Bool) (k : Bool) (s : State), (s.pers.writing = none ∨ s.host.berylRunning = false)) ∧
    (∃ (j : SetJob) (s : State), (s.host.berylRunning = true) ∧ (s.pers.writing = some j) ∧ (j.slot = true)) ∧
    (∃ (j : SetJob) (s : State), (s.host.berylRunning = true) ∧ (s.pers.writing = some j) ∧ (j.slot = false)) ∧
    (∃ (j : SetJob) (c : Bool) (k : Bool) (s : State), (s.host.berylRunning = true) ∧ (s.pers.writing = some j) ∧ (c = false ∨ k = false)) ∧
    (∃ (g : Word) (e : Word) (l : Word) (m : Nat) (objs : List Obj), (m ∈ [4, 8, 12, 16])) ∧
    (∃ (p : Pers), (recordValid p.slotA.commit = true) ∧ (recordValid p.slotB.commit = true)) ∧
    (∃ (p : Pers), (recordValid p.slotA.commit = false)) ∧
    (∃ (p : Pers), (recordValid p.slotA.commit = true) ∧ (recordValid p.slotB.commit = false)) :=
  ⟨⟨((let s : State := ready; let s : State := { s with pers.pendWrite := false }; s : State)), by decide +kernel⟩,
   ⟨((let s : State := ready; let s : State := { s with pers.pendWrite := true }; let s : State := { s with pers.writing := none }; s : State)), by decide +kernel⟩,
   ⟨((false : Bool)), ((false : Bool)), ((let s : State := ready; let s : State := { s with pers.writing := none }; s : State)), by decide +kernel⟩,
   ⟨(({ slot := true, gen := 5, image := [polObj], modules := 4 } : SetJob)), ((let s : State := ready; let s : State := { s with host.berylRunning := true }; let s : State := { s with pers.writing := some (({ slot := true, gen := 5, image := [polObj], modules := 4 } : SetJob)) }; s : State)), by decide +kernel⟩,
   ⟨(({ slot := false, gen := 5, image := [polObj], modules := 4 } : SetJob)), ((let s : State := ready; let s : State := { s with host.berylRunning := true }; let s : State := { s with pers.writing := some (({ slot := false, gen := 5, image := [polObj], modules := 4 } : SetJob)) }; s : State)), by decide +kernel⟩,
   ⟨(({} : SetJob)), ((false : Bool)), ((false : Bool)), ((let s : State := ready; let s : State := { s with host.berylRunning := true }; let s : State := { s with pers.writing := some (({} : SetJob)) }; s : State)), by decide +kernel⟩,
   ⟨((0 : Word)), ((0 : Word)), ((0 : Word)), ((16 : Nat)), (([polObj] : List Obj)), by decide +kernel⟩,
   ⟨(({ slotA := { commit := [1515406676, 5, 0, 0, 4, 0, 0, 0, 65213090, 0, 0, 0, 0, 0, 0, 3671079289] }, slotB := { commit := [1515406676, 6, 0, 0, 4, 0, 0, 0, 65213090, 0, 0, 0, 0, 0, 0, 2112039296] } } : Pers)), by decide +kernel⟩,
   ⟨(({} : Pers)), by decide +kernel⟩,
   ⟨(({ slotA := { commit := [1515406676, 5, 0, 0, 4, 0, 0, 0, 65213090, 0, 0, 0, 0, 0, 0, 3671079289] } } : Pers)), by decide +kernel⟩⟩

theorem test_wit_PersistenceCommands :
    (∃ (k : _) (c : _) (s : _), Rung 0x0E10 0 k c s ∧ (s.host.opState ≠ .boot)) ∧
    (∃ (k : _) (c : _) (s : _) (u : State), Rung 0x0E11 0 k c s ∧ (s.host.opState = .ready ∨ s.host.opState = .print ∨ s.host.opState = .service) ∧ (s.host.outst.length < 16) ∧ (u = outstand 0x0E11 c.tag 0 { begun k s with pers := { s.pers with image := setObjects s, imageLine := 0xFFFFFFFF, imageEpoch := s.cg.epochNow, imageModules := s.cg.modules } }) ∧ (s.pers.writing = none) ∧ (setMinPassed s = true) ∧ (s.pers.pendWrite = false)) ∧
    (∃ (k : _) (c : _) (s : _) (u : State), Rung 0x0E11 0 k c s ∧ (s.host.opState = .ready ∨ s.host.opState = .print ∨ s.host.opState = .service) ∧ (s.host.outst.length < 16) ∧ (u = outstand 0x0E11 c.tag 0 { begun k s with pers := { s.pers with image := setObjects s, imageLine := 0xFFFFFFFF, imageEpoch := s.cg.epochNow, imageModules := s.cg.modules } }) ∧ (s.pers.writing.isSome = true ∨ setMinPassed s = false ∨ s.pers.pendWrite = true)) ∧
    (∃ (k : _) (c : _) (s : _) (n : Nat), Rung 0x0E12 1 k c s ∧ ((c.w 0).toNat = n) ∧ (1 ≤ n) ∧ (n ≤ 3) ∧ (s.pers.writing = none) ∧ (s.host.opState ≠ .boot)) :=
  ⟨⟨((0 : Fin 16)), ((mkCmd 0x0E10 [] : RungCmd)), ((let s : State := (ring ((mkCmd 0x0E10 [] : RungCmd)) ready); s : State)), rung_ok (by decide +kernel), by decide +kernel⟩,
   ⟨((0 : Fin 16)), ((mkCmd 0x0E11 [] : RungCmd)), ((let s : State := (ring ((mkCmd 0x0E11 [] : RungCmd)) ready); let s : State := { s with host.opState := .ready }; let s : State := { s with pers.writing := none }; let s : State := { s with pers.pendWrite := false }; s : State)), ((outstand 0x0E11 ((mkCmd 0x0E11 [] : RungCmd)).tag 0 { begun ((0 : Fin 16)) ((let s : State := (ring ((mkCmd 0x0E11 [] : RungCmd)) ready); let s : State := { s with host.opState := .ready }; let s : State := { s with pers.writing := none }; let s : State := { s with pers.pendWrite := false }; s : State)) with pers := { ((let s : State := (ring ((mkCmd 0x0E11 [] : RungCmd)) ready); let s : State := { s with host.opState := .ready }; let s : State := { s with pers.writing := none }; let s : State := { s with pers.pendWrite := false }; s : State)).pers with image := setObjects ((let s : State := (ring ((mkCmd 0x0E11 [] : RungCmd)) ready); let s : State := { s with host.opState := .ready }; let s : State := { s with pers.writing := none }; let s : State := { s with pers.pendWrite := false }; s : State)), imageLine := 0xFFFFFFFF, imageEpoch := ((let s : State := (ring ((mkCmd 0x0E11 [] : RungCmd)) ready); let s : State := { s with host.opState := .ready }; let s : State := { s with pers.writing := none }; let s : State := { s with pers.pendWrite := false }; s : State)).cg.epochNow, imageModules := ((let s : State := (ring ((mkCmd 0x0E11 [] : RungCmd)) ready); let s : State := { s with host.opState := .ready }; let s : State := { s with pers.writing := none }; let s : State := { s with pers.pendWrite := false }; s : State)).cg.modules } } : State)), rung_ok (by decide +kernel), by decide +kernel⟩,
   ⟨((0 : Fin 16)), ((mkCmd 0x0E11 [] : RungCmd)), ((let s : State := (ring ((mkCmd 0x0E11 [] : RungCmd)) ready); let s : State := { s with host.opState := .ready }; let s : State := { s with pers.writing := some {} }; s : State)), ((outstand 0x0E11 ((mkCmd 0x0E11 [] : RungCmd)).tag 0 { begun ((0 : Fin 16)) ((let s : State := (ring ((mkCmd 0x0E11 [] : RungCmd)) ready); let s : State := { s with host.opState := .ready }; let s : State := { s with pers.writing := some {} }; s : State)) with pers := { ((let s : State := (ring ((mkCmd 0x0E11 [] : RungCmd)) ready); let s : State := { s with host.opState := .ready }; let s : State := { s with pers.writing := some {} }; s : State)).pers with image := setObjects ((let s : State := (ring ((mkCmd 0x0E11 [] : RungCmd)) ready); let s : State := { s with host.opState := .ready }; let s : State := { s with pers.writing := some {} }; s : State)), imageLine := 0xFFFFFFFF, imageEpoch := ((let s : State := (ring ((mkCmd 0x0E11 [] : RungCmd)) ready); let s : State := { s with host.opState := .ready }; let s : State := { s with pers.writing := some {} }; s : State)).cg.epochNow, imageModules := ((let s : State := (ring ((mkCmd 0x0E11 [] : RungCmd)) ready); let s : State := { s with host.opState := .ready }; let s : State := { s with pers.writing := some {} }; s : State)).cg.modules } } : State)), rung_ok (by decide +kernel), by decide +kernel⟩,
   ⟨((0 : Fin 16)), ((mkCmd 0x0E12 [(BitVec.ofNat 32 (((1 : Nat))))] : RungCmd)), ((let s : State := (ring ((mkCmd 0x0E12 [(BitVec.ofNat 32 (((1 : Nat))))] : RungCmd)) ready); let s : State := { s with pers.writing := none }; s : State)), ((1 : Nat)), rung_ok (by decide +kernel), by decide +kernel⟩⟩



/-! ## Witnesses that rest on what one part or one image fixes -/

/-- Of an image whose signature verifies and an empty one, each clause about staging has its case (R72). -/
theorem test_wit_SystemCommandsStaging (good : List Byte) (hg : imageGood good = true) (hl : good.length < 2 ^ 32) :
    (∃ (image : List Byte) (w : Bool) (tag : Word) (a : Dword) (n : Word) (s : State),
      s.host.fwStage = some (tag, a, n) ∧ image.length = n.toNat ∧ imageGood image = true ∧ w = true) ∧
    (∃ (image : List Byte) (tag : Word) (a : Dword) (n : Word) (s : State),
      s.host.fwStage = some (tag, a, n) ∧ image.length = n.toNat ∧ imageGood image = false) ∧
    (∃ (image : List Byte) (w : Bool) (tag : Word) (a : Dword) (n : Word) (s : State),
      s.host.fwStage = some (tag, a, n) ∧ image.length = n.toNat ∧ imageGood image = true ∧ w = false) :=
  ⟨⟨good, true, 7, 0, BitVec.ofNat 32 good.length, { ready with host := { ready.host with fwStage := some (7, 0, BitVec.ofNat 32 good.length) } }, rfl, by rw [BitVec.toNat_ofNat]; exact (Nat.mod_eq_of_lt hl).symm, hg, rfl⟩,
   ⟨[], 7, 0, 0, { ready with host := { ready.host with fwStage := some (7, 0, 0) } }, rfl, rfl, rfl⟩,
   ⟨good, false, 7, 0, BitVec.ofNat 32 good.length, { ready with host := { ready.host with fwStage := some (7, 0, BitVec.ofNat 32 good.length) } }, rfl, by rw [BitVec.toNat_ofNat]; exact (Nat.mod_eq_of_lt hl).symm, hg, rfl⟩⟩

/-- BOOT, the DRAM zeroed, Beryl not running. -/
def booting : State :=
  { ready with
    host := { ready.host with opState := .boot, berylRunning := false, bootRomWaiting := false }
    dram := { ready.dram with zeroed := true } }

/-- The same, the image to come from the half not in use. -/
def bootingAlt : State := { booting with host := { booting.host with bootAlt := true } }

/-- Beryl restarting, its image in the first half of the flash. -/
def restartingOn (good : List Byte) : State :=
  { ready with host := { ready.host with restarting := true, qspi := [some good, some []] } }

/-- The same for the clauses about the start of the firmware and its reload (R53, R547): what a half that the model does not hold reads is
an operand. -/
theorem test_wit_FirmwareStartsImages (good : List Byte) (hg : imageGood good = true) (hl : good.length < 2 ^ 32) :
    (∃ (a b : List Byte) (s u : State), s.host.opState = .boot ∧ s.host.berylRunning = false ∧ s.host.bootRomWaiting = false ∧
      s.host.restarting = false ∧ s.onyx.berylHeld = false ∧ s.pwr.inReset = false ∧ s.dram.zeroed = true ∧ u = readHalves a b s ∧ s.host.bootAlt = false ∧
      imageGood (halfRead u.host s.host.activeHalf) = true) ∧
    (∃ (a b : List Byte) (s u : State), s.host.opState = .boot ∧ s.host.berylRunning = false ∧ s.host.bootRomWaiting = false ∧
      s.host.restarting = false ∧ s.onyx.berylHeld = false ∧ s.pwr.inReset = false ∧ s.dram.zeroed = true ∧ u = readHalves a b s ∧ s.host.bootAlt = false ∧
      imageGood (halfRead u.host s.host.activeHalf) = false ∧ imageGood (halfRead u.host (!s.host.activeHalf)) = true) ∧
    (∃ (a b : List Byte) (s u : State), s.host.opState = .boot ∧ s.host.berylRunning = false ∧ s.host.bootRomWaiting = false ∧
      s.host.restarting = false ∧ s.onyx.berylHeld = false ∧ s.pwr.inReset = false ∧ s.dram.zeroed = true ∧ u = readHalves a b s ∧ s.host.bootAlt = true ∧
      imageGood (halfRead u.host (!s.host.activeHalf)) = true) ∧
    (∃ (a b : List Byte) (s u : State), s.host.opState = .boot ∧ s.host.berylRunning = false ∧ s.host.bootRomWaiting = false ∧
      s.host.restarting = false ∧ s.onyx.berylHeld = false ∧ s.pwr.inReset = false ∧ s.dram.zeroed = true ∧ u = readHalves a b s ∧ s.host.bootAlt = false ∧
      ∀ h, imageGood (halfRead u.host h) = false) ∧
    (∃ (image : List Byte) (tag : Word) (a : Dword) (n : Word) (s : State),
      s.host.bootLoad = some (tag, a, n) ∧ image.length = n.toNat ∧ imageGood image = true) ∧
    (∃ (image : List Byte) (tag : Word) (a : Dword) (n : Word) (s : State),
      s.host.bootLoad = some (tag, a, n) ∧ image.length = n.toNat ∧ imageGood image = false) ∧
    (∃ s u : State, s.host.restarting = true ∧ s.onyx.berylHeld = false ∧ s.pers.writing = none ∧ s.host.bootAlt = false ∧
      (s.host.opState ≠ .boot ∨ s.dram.zeroed = true) ∧ u = readHalves (Config.flashHalf false) (Config.flashHalf true) s ∧
      imageGood (halfRead u.host s.host.activeHalf) = true) :=
  ⟨⟨good, [], booting, _, rfl, rfl, rfl, rfl, rfl, rfl, rfl, rfl, rfl, hg⟩,
   ⟨[], good, booting, _, rfl, rfl, rfl, rfl, rfl, rfl, rfl, rfl, rfl, rfl, hg⟩,
   ⟨[], good, bootingAlt, _, rfl, rfl, rfl, rfl, rfl, rfl, rfl, rfl, rfl, hg⟩,
   ⟨[], [], booting, _, rfl, rfl, rfl, rfl, rfl, rfl, rfl, rfl, rfl, fun h => by cases h <;> rfl⟩,
   ⟨good, 7, 0, BitVec.ofNat 32 good.length, { ready with host := { ready.host with bootLoad := some (7, 0, BitVec.ofNat 32 good.length) } }, rfl, by rw [BitVec.toNat_ofNat]; exact (Nat.mod_eq_of_lt hl).symm, hg⟩,
   ⟨[], 7, 0, 0, { ready with host := { ready.host with bootLoad := some (7, 0, 0) } }, rfl, rfl, rfl⟩,
   ⟨restartingOn good, _, rfl, rfl, rfl, rfl, .inl (fun h => nomatch (show OpState.ready = .boot from h)), rfl, hg⟩⟩

/-- Eight little-endian bytes of a number, read back. -/
theorem leN_bytesLE8 (n : Nat) (h : n < 2 ^ 64) (t : List Byte) : leN (bytesLE 8 n ++ t) 0 8 = n := by
  simp [leN, bytesLE, by8]
  omega

/-- An Ethernet wake frame for this part (R534, R553). -/
theorem test_wit_PowerStatesWakeFrame : ∃ (payload : List Byte) (s : State), s.pwr.state = .sleep ∧ s.pwr.wakeEth = true ∧
    12 ≤ payload.length ∧ leN payload 0 8 = Config.serial.toNat ∧ leN payload 8 4 = s.pwr.wakeKey.toNat :=
  ⟨bytesLE 8 Config.serial.toNat ++ zeros 4, { ready with pwr := { ready.pwr with state := .sleep, wakeEth := true } }, rfl, rfl,
    by simp [bytesLE, zeros], leN_bytesLE8 _ Config.serial.isLt _, by simp [bytesLE, zeros, leN, by8]; rfl⟩

/-- A synchronised STANDBY role unit without a peer, whose heads have accepted another serial. -/
def passedBy : State :=
  setLane 0 (fun l => { l with accValid := true, accSerial := ~~~ Config.serial })
    { ready with twin := { ready.twin with peerPresent := false, role := .standby, synced := true } }

/-- Heads that fire another unit's frames (R433). -/
theorem test_wit_VigilFramesGrace : ∃ s : State, s.twin.peerPresent = false ∧ headsFirePeer s = true ∧ s.twin.role = .standby ∧
    s.twin.synced = true ∧ s.twin.lostAt.toNat + 1000000 * s.twin.graceMs ≤ s.pos.mono.toNat := by
  refine ⟨passedBy, rfl, ?_, rfl, rfl, by decide +kernel⟩
  have h : (~~~ Config.serial != Config.serial) = true := by
    simp only [bne_iff_ne, ne_eq]
    intro h
    have := congrArg (fun x : Dword => x.getLsbD 0) h
    simp at this
  have hv : (passedBy.lane 0).accValid = true := rfl
  have hs : (passedBy.lane 0).accSerial = ~~~ Config.serial := rfl
  simp only [headsFirePeer, List.any_eq_true]
  exact ⟨0, by decide +kernel, by rw [hv, hs]; simp [h]⟩

/-! ## Ill-formed commands that WellFormed refuses -/

theorem test_wf_samples_step_past_quarter_period : (Instr.lineBoundary [(.count 0, .count 1025)]).wf = false := by decide
theorem test_wf_train_samples : (Instr.trainCommit 0 0 0 0 0 [(.count (-1025), .count 0)]).wf = false := by decide
theorem test_wf_direction_samples : (Instr.direction 0 [(.count 0, .count (-1025))]).wf = false := by decide
theorem test_wf_position_samples : ∀ a b c, (Instr.position a b c [(.count 1030, .count 0)]).wf = false := by intros; rfl
theorem test_wf_unaligned_pair : (Instr.reg64LowerRead 0x24).wf = false := by decide
theorem test_wf_empty_write : (Instr.registerWrite 0 []).wf = false := by decide
theorem test_wf_write_past_bar0 : (Instr.registerWrite 0xFFFFE [some 0, some 0, some 0, some 0]).wf = false := by decide
theorem test_wf_write_past_slot : (Instr.commandSlotWrite 0 254 [0, 0, 0, 0]).wf = false := by decide
theorem test_wf_link_of_three_lanes : (Instr.pcieLinkTrained 4 3).wf = false := by decide
theorem test_wf_link_gen_five : (Instr.pcieLinkTrained 5 4).wf = false := by decide
theorem test_wf_short_descriptor : (Instr.descFetchDone 0 (List.replicate 60 0) []).wf = false := by decide
theorem test_wf_cut_block_table : (Instr.descFetchDone 0 (List.replicate 64 0) [0]).wf = false := by decide
theorem test_wf_short_capability_record : (Instr.capBlockRx 0 []).wf = false := by decide
theorem test_wf_short_status_frame : ∀ x, (Instr.statusFrameRx 0 [] x).wf = false := by intro; rfl
theorem test_wf_short_vigil_frame : ∀ x, (Instr.vigilFrameRx [0] x).wf = false := by intro; rfl
theorem test_wf_raw10_sample : CsiPacket.wf { type := 0x2B, samples := [1024], corrected := false, good := true } = false := by decide
theorem test_wf_raw12_sample : CsiPacket.wf { type := 0x2C, samples := [4096], corrected := false, good := true } = false := by decide
theorem test_wf_long_return_stream : ∀ a b c, (Instr.lanternReturnRx a b c (List.replicate 256 [])).wf = false := by
  intro a b c; simp only [Instr.wf, List.length_replicate]; decide
theorem test_wf_wide_abs_position : (Instr.absReadDone 0 0 (2 ^ 64) 0 0).wf = false := by decide
theorem test_wf_wide_ptp_sequence : (Instr.ptpDelayReqTx 65536 0).wf = false := by decide
theorem test_wf_sleep_without_reason : (Instr.sleepAborted 0).wf = false := by decide
theorem test_wf_fifteen_trials : (Instr.ctleSettled 0 (List.replicate 15 0) (List.replicate 16 0)).wf = false := by decide
theorem test_wf_real_time_write : (Instr.bulkPromote [] [{ requester := 1, write := true, chunk := 0, a := 0, b := 63, what := 0 }]).wf = false := by decide

/-! ## The spec's own worked examples -/

/-- The tones of R141's example: 150, 154, 160 and 166. -/
theorem test_expand : [150, 154, 160, 166].map (expandTone false) = [77101, 79157, 82241, 85325] := by decide

/-- The tone curve of the same example, between knots 9 and 10 (R145). -/
theorem test_curve : curve (fun j => if j = 9 then 76800 else 86016) 80956 = 84932 := by decide

/-- The cell of the same example gives drop M (R152). -/
theorem test_screen : screenCode 0x00270004E0009A00 84932 = 2 := by decide

/-- The error diffusion of R200's example: q16 is 1,338, taken to the accumulators from 0. -/
theorem test_overspeed_omission :
    (diffuse { ready with fire := { ready.fire with rate := 196000, acc := List.replicate 16 0 }, cg := { ready.cg with fLim := 192000 } }).1 =
      List.replicate 16 1338 := by decide +kernel

/-- The DAC code at a phase's peak with I_RUN 800 (R366). -/
theorem test_dac : dacCode 800 256 = 799 := by decide +kernel

/-- EVQ_TAIL's example: 261 − 250 entries, index 260 at entry 4 of 64 (R56). -/
theorem test_evq_count :
    ({ State.reset.host with evqHead := 261, evqTail := 250 } : HostIf).evqCount = 11 := by decide

/-- A LIT token and an UP token of R119's example. -/
theorem test_lit_token : tokenStep 1632 [] [0x03, 0x40, 0x41, 0x42, 0x43, 0xCB] = some ([0x43, 0x42, 0x41, 0x40], [0xCB]) := by decide

theorem test_run_token : tokenStep 1632 [] [0x5D, 0x00] = some (List.replicate 32 0, []) := by decide

/-- The quarter sine: 257 entries from 0 to 1,023, never falling (R366). -/
theorem test_sine_table : sineQuarter.length = 257 ∧ sineQuarter.head? = some 0 ∧ sineQuarter.getLast? = some 1023 ∧
    ∀ i, i < 256 → cell sineQuarter i 0 ≤ cell sineQuarter (i + 1) 0 := by decide +kernel

end Sys2Proof.Tests
end

section
/-!
PROOFS. The sticky block over a step (R15, R63), and what reset leaves.
-/
namespace Sys2Proof.Machine

/-- Whatever a command does, it keeps the sticky block sound. -/
theorem exec_stk (c : Instr) (s : State) {t : State} (h : s.StkSound) (e : exec c s = .next t) : t.StkSound :=
  match c, e with
  | .lineBoundary .., e => execLineBoundary_stk (h := h) (e := e)
  | .reg64LowerRead .., e => execReg64LowerRead_stk (h := h) (e := e)
  | .reg64UpperRead .., e => execReg64UpperRead_stk (h := h) (e := e)
  | .reg64LowerWrite .., e => execReg64LowerWrite_stk (h := h) (e := e)
  | .reg64UpperWrite .., e => execReg64UpperWrite_stk (h := h) (e := e)
  | .globalStateRead, e => execGlobalStateRead_stk (h := h) (e := e)
  | .registerWrite .., e => execRegisterWrite_stk (h := h) (e := e)
  | .flr, e => execFlr_stk (h := h) (e := e)
  | .pcieLinkDown, e => execPcieLinkDown_stk (h := h) (e := e)
  | .pcieLinkTrained .., e => execPcieLinkTrained_stk (h := h) (e := e)
  | .pcieUncorr, e => execPcieUncorr_stk (h := h) (e := e)
  | .pcieCorr, e => execPcieCorr_stk (h := h) (e := e)
  | .busMasterEnable, e => execBusMasterEnable_stk (h := h) (e := e)
  | .msixUnmask .., e => execMsixUnmask_stk (h := h) (e := e)
  | .hostAlive, e => execHostAlive_stk (h := h) (e := e)
  | .hostWdogCfg .., e => execHostWdogCfg_stk (h := h) (e := e)
  | .hostWdogExpired, e => execHostWdogExpired_stk (h := h) (e := e)
  | .commandSlotWrite .., e => execCommandSlotWrite_stk (h := h) (e := e)
  | .doorbell .., e => execDoorbell_stk (h := h) (e := e)
  | .respAck .., e => execRespAck_stk (h := h) (e := e)
  | .evqTail .., e => execEvqTail_stk (h := h) (e := e)
  | .coalesceTimeExpiry .., e => execCoalesceTimeExpiry_stk (h := h) (e := e)
  | .stkClear .., e => execStkClear_stk (h := h) (e := e)
  | .berylHeartbeat, e => execBerylHeartbeat_stk (h := h) (e := e)
  | .berylRestart, e => execBerylRestart_stk (h := h) (e := e)
  | .berylRestartDone, e => execBerylRestartDone_stk (h := h) (e := e)
  | .sysEcho .., e => execSysEcho_stk (h := h) (e := e)
  | .sysGetInfo .., e => execSysGetInfo_stk (h := h) (e := e)
  | .sysSetOpState .., e => execSysSetOpState_stk (h := h) (e := e)
  | .sysResetUnit .., e => execSysResetUnit_stk (h := h) (e := e)
  | .sysResetBegin, e => execSysResetBegin_stk (h := h) (e := e)
  | .sysFwStage .., e => execSysFwStage_stk (h := h) (e := e)
  | .sysFwStageDone .., e => execSysFwStageDone_stk (h := h) (e := e)
  | .cgOpen .., e => execCgOpen_stk (h := h) (e := e)
  | .cgStage .., e => execCgStage_stk (h := h) (e := e)
  | .cgStageDone .., e => execCgStageDone_stk (h := h) (e := e)
  | .cgValidate .., e => execCgValidate_stk (h := h) (e := e)
  | .cgValidateDone .., e => execCgValidateDone_stk (h := h) (e := e)
  | .cgArm .., e => execCgArm_stk (h := h) (e := e)
  | .cgAbort .., e => execCgAbort_stk (h := h) (e := e)
  | .cgRelease .., e => execCgRelease_stk (h := h) (e := e)
  | .cgLockLine .., e => execCgLockLine_stk (h := h) (e := e)
  | .cgCommit .., e => execCgCommit_stk (h := h) (e := e)
  | .webStopped, e => execWebStopped_stk (h := h) (e := e)
  | .cgLoadsComplete .., e => execCgLoadsComplete_stk (h := h) (e := e)
  | .cgTimeReachedStopped .., e => execCgTimeReachedStopped_stk (h := h) (e := e)
  | .cgDecisionDeadline .., e => execCgDecisionDeadline_stk (h := h) (e := e)
  | .ringProd .., e => execRingProd_stk (h := h) (e := e)
  | .fetchResume, e => execFetchResume_stk (h := h) (e := e)
  | .descFetchDone .., e => execDescFetchDone_stk (h := h) (e := e)
  | .blockFetchDone .., e => execBlockFetchDone_stk (h := h) (e := e)
  | .dmaError .., e => execDmaError_stk (h := h) (e := e)
  | .topazBlockDecoded .., e => execTopazBlockDecoded_stk (h := h) (e := e)
  | .topazRefetchDone .., e => execTopazRefetchDone_stk (h := h) (e := e)
  | .pdRingConfig .., e => execPdRingConfig_stk (h := h) (e := e)
  | .pdRingReset .., e => execPdRingReset_stk (h := h) (e := e)
  | .pdPageRelease .., e => execPdPageRelease_stk (h := h) (e := e)
  | .pdReprint .., e => execPdReprint_stk (h := h) (e := e)
  | .pdStoreInfo .., e => execPdStoreInfo_stk (h := h) (e := e)
  | .cvCompute .., e => execCvCompute_stk (h := h) (e := e)
  | .cvComputeDone .., e => execCvComputeDone_stk (h := h) (e := e)
  | .cvStart .., e => execCvStart_stk (h := h) (e := e)
  | .cvData .., e => execCvData_stk (h := h) (e := e)
  | .cvData64 .., e => execCvData64_stk (h := h) (e := e)
  | .cvData8 .., e => execCvData8_stk (h := h) (e := e)
  | .cvValueWrite .., e => execCvValueWrite_stk (h := h) (e := e)
  | .sliceLineStart .., e => execSliceLineStart_stk (h := h) (e := e)
  | .sliceLineDone .., e => execSliceLineDone_stk (h := h) (e := e)
  | .curveBankLoad .., e => execCurveBankLoad_stk (h := h) (e := e)
  | .curveBankLoaded .., e => execCurveBankLoaded_stk (h := h) (e := e)
  | .scrGetStatus .., e => execScrGetStatus_stk (h := h) (e := e)
  | .scrRowStateSave .., e => execScrRowStateSave_stk (h := h) (e := e)
  | .scrRowStateSaveDone .., e => execScrRowStateSaveDone_stk (h := h) (e := e)
  | .scrRowStateLoad .., e => execScrRowStateLoad_stk (h := h) (e := e)
  | .scrRowStateFetched .., e => execScrRowStateFetched_stk (h := h) (e := e)
  | .scrTrace .., e => execScrTrace_stk (h := h) (e := e)
  | .trainCommit .., e => execTrainCommit_stk (h := h) (e := e)
  | .trainPostponedStart .., e => execTrainPostponedStart_stk (h := h) (e := e)
  | .trainAbandon .., e => execTrainAbandon_stk (h := h) (e := e)
  | .prepMarker .., e => execPrepMarker_stk (h := h) (e := e)
  | .tempStale .., e => execTempStale_stk (h := h) (e := e)
  | .fireGetStatus .., e => execFireGetStatus_stk (h := h) (e := e)
  | .fireConfig .., e => execFireConfig_stk (h := h) (e := e)
  | .fireResume .., e => execFireResume_stk (h := h) (e := e)
  | .fireProbe .., e => execFireProbe_stk (h := h) (e := e)
  | .fireMeasureR .., e => execFireMeasureR_stk (h := h) (e := e)
  | .fireMeasureRDone .., e => execFireMeasureRDone_stk (h := h) (e := e)
  | .fireSpit .., e => execFireSpit_stk (h := h) (e := e)
  | .spitLine .., e => execSpitLine_stk (h := h) (e := e)
  | .receiverDetect .., e => execReceiverDetect_stk (h := h) (e := e)
  | .trainingSetRx .., e => execTrainingSetRx_stk (h := h) (e := e)
  | .laneStateTimeout .., e => execLaneStateTimeout_stk (h := h) (e := e)
  | .capBlockRx .., e => execCapBlockRx_stk (h := h) (e := e)
  | .echoSend .., e => execEchoSend_stk (h := h) (e := e)
  | .echoReturnRx .., e => execEchoReturnRx_stk (h := h) (e := e)
  | .laneRecovery .., e => execLaneRecovery_stk (h := h) (e := e)
  | .statusFrameTimeout .., e => execStatusFrameTimeout_stk (h := h) (e := e)
  | .statusFrameRx .., e => execStatusFrameRx_stk (h := h) (e := e)
  | .blankRepeat .., e => execBlankRepeat_stk (h := h) (e := e)
  | .hlGetStatus .., e => execHlGetStatus_stk (h := h) (e := e)
  | .hlLaneConfig .., e => execHlLaneConfig_stk (h := h) (e := e)
  | .hlRetrain .., e => execHlRetrain_stk (h := h) (e := e)
  | .hlGetCaps .., e => execHlGetCaps_stk (h := h) (e := e)
  | .comparatorFire .., e => execComparatorFire_stk (h := h) (e := e)
  | .csiLineRx .., e => execCsiLineRx_stk (h := h) (e := e)
  | .cameraLineTimeout .., e => execCameraLineTimeout_stk (h := h) (e := e)
  | .opalFrameStart, e => execOpalFrameStart_stk (h := h) (e := e)
  | .opalFrameDone, e => execOpalFrameDone_stk (h := h) (e := e)
  | .i2cWriteDone .., e => execI2cWriteDone_stk (h := h) (e := e)
  | .inspGetStatus .., e => execInspGetStatus_stk (h := h) (e := e)
  | .inspRingConfig .., e => execInspRingConfig_stk (h := h) (e := e)
  | .inspSetExposure .., e => execInspSetExposure_stk (h := h) (e := e)
  | .inspI2cXfer .., e => execInspI2cXfer_stk (h := h) (e := e)
  | .inspCapture .., e => execInspCapture_stk (h := h) (e := e)
  | .calSolveStart, e => execCalSolveStart_stk (h := h) (e := e)
  | .calSolveDone, e => execCalSolveDone_stk (h := h) (e := e)
  | .calAutoCommit, e => execCalAutoCommit_stk (h := h) (e := e)
  | .calGetStatus .., e => execCalGetStatus_stk (h := h) (e := e)
  | .calConfig .., e => execCalConfig_stk (h := h) (e := e)
  | .calRun .., e => execCalRun_stk (h := h) (e := e)
  | .calExport .., e => execCalExport_stk (h := h) (e := e)
  | .calExportDone .., e => execCalExportDone_stk (h := h) (e := e)
  | .calDiscard .., e => execCalDiscard_stk (h := h) (e := e)
  | .calClear .., e => execCalClear_stk (h := h) (e := e)
  | .encSignalFault .., e => execEncSignalFault_stk (h := h) (e := e)
  | .encRecovered .., e => execEncRecovered_stk (h := h) (e := e)
  | .overfreq .., e => execOverfreq_stk (h := h) (e := e)
  | .quadErr .., e => execQuadErr_stk (h := h) (e := e)
  | .direction .., e => execDirection_stk (h := h) (e := e)
  | .encIndex .., e => execEncIndex_stk (h := h) (e := e)
  | .indexMissing .., e => execIndexMissing_stk (h := h) (e := e)
  | .encAgreeWindow .., e => execEncAgreeWindow_stk (h := h) (e := e)
  | .ptpSyncRx .., e => execPtpSyncRx_stk (h := h) (e := e)
  | .ptpDelayReqTx .., e => execPtpDelayReqTx_stk (h := h) (e := e)
  | .ptpDelayRespRx .., e => execPtpDelayRespRx_stk (h := h) (e := e)
  | .ptpAnnounceRx .., e => execPtpAnnounceRx_stk (h := h) (e := e)
  | .ptpMasterLost, e => execPtpMasterLost_stk (h := h) (e := e)
  | .holdoverExpired, e => execHoldoverExpired_stk (h := h) (e := e)
  | .timerFire .., e => execTimerFire_stk (h := h) (e := e)
  | .absReadDone .., e => execAbsReadDone_stk (h := h) (e := e)
  | .posGetStatus .., e => execPosGetStatus_stk (h := h) (e := e)
  | .posEncConfig .., e => execPosEncConfig_stk (h := h) (e := e)
  | .posEncoConfig .., e => execPosEncoConfig_stk (h := h) (e := e)
  | .posCmpArm .., e => execPosCmpArm_stk (h := h) (e := e)
  | .posCmpDisarm .., e => execPosCmpDisarm_stk (h := h) (e := e)
  | .posCaptureRead .., e => execPosCaptureRead_stk (h := h) (e := e)
  | .posAbsConfig .., e => execPosAbsConfig_stk (h := h) (e := e)
  | .timeConfig .., e => execTimeConfig_stk (h := h) (e := e)
  | .timeSet .., e => execTimeSet_stk (h := h) (e := e)
  | .timeTimerArm .., e => execTimeTimerArm_stk (h := h) (e := e)
  | .plannerTick, e => execPlannerTick_stk (h := h) (e := e)
  | .axHoldCurrent .., e => execAxHoldCurrent_stk (h := h) (e := e)
  | .chopOnEnd .., e => execChopOnEnd_stk (h := h) (e := e)
  | .chopOffEnd .., e => execChopOffEnd_stk (h := h) (e := e)
  | .limitSwitchEdge .., e => execLimitSwitchEdge_stk (h := h) (e := e)
  | .homeEdge .., e => execHomeEdge_stk (h := h) (e := e)
  | .capSwEdge .., e => execCapSwEdge_stk (h := h) (e := e)
  | .axGetStatus .., e => execAxGetStatus_stk (h := h) (e := e)
  | .axConfig .., e => execAxConfig_stk (h := h) (e := e)
  | .axMove .., e => execAxMove_stk (h := h) (e := e)
  | .axStop .., e => execAxStop_stk (h := h) (e := e)
  | .axHome .., e => execAxHome_stk (h := h) (e := e)
  | .axSeq .., e => execAxSeq_stk (h := h) (e := e)
  | .axSeqConfig .., e => execAxSeqConfig_stk (h := h) (e := e)
  | .axClearFault .., e => execAxClearFault_stk (h := h) (e := e)
  | .lampStatusFrame .., e => execLampStatusFrame_stk (h := h) (e := e)
  | .lanternReturnRx .., e => execLanternReturnRx_stk (h := h) (e := e)
  | .lanternReturnTimeout .., e => execLanternReturnTimeout_stk (h := h) (e := e)
  | .lampGetStatus .., e => execLampGetStatus_stk (h := h) (e := e)
  | .lampDiagNow .., e => execLampDiagNow_stk (h := h) (e := e)
  | .lampReadDrivers .., e => execLampReadDrivers_stk (h := h) (e := e)
  | .vigilFrameTx .., e => execVigilFrameTx_stk (h := h) (e := e)
  | .vigilFrameRx .., e => execVigilFrameRx_stk (h := h) (e := e)
  | .vigilPeerLost, e => execVigilPeerLost_stk (h := h) (e := e)
  | .vigilGraceExpiry, e => execVigilGraceExpiry_stk (h := h) (e := e)
  | .vigilPositionTx, e => execVigilPositionTx_stk (h := h) (e := e)
  | .arm .., e => execArm_stk (h := h) (e := e)
  | .decision .., e => execDecision_stk (h := h) (e := e)
  | .pageStart .., e => execPageStart_stk (h := h) (e := e)
  | .switch .., e => execSwitch_stk (h := h) (e := e)
  | .position .., e => execPosition_stk (h := h) (e := e)
  | .joinA .., e => execJoinA_stk (h := h) (e := e)
  | .joinB .., e => execJoinB_stk (h := h) (e := e)
  | .serial .., e => execSerial_stk (h := h) (e := e)
  | .prsntChange .., e => execPrsntChange_stk (h := h) (e := e)
  | .twinGetStatus .., e => execTwinGetStatus_stk (h := h) (e := e)
  | .twinSetRole .., e => execTwinSetRole_stk (h := h) (e := e)
  | .twinSwitchover .., e => execTwinSwitchover_stk (h := h) (e := e)
  | .twinJoin .., e => execTwinJoin_stk (h := h) (e := e)
  | .twinConfig .., e => execTwinConfig_stk (h := h) (e := e)
  | .twinWakePeer .., e => execTwinWakePeer_stk (h := h) (e := e)
  | .onyxTick .., e => execOnyxTick_stk (h := h) (e := e)
  | .onyxEnvelopeLoss .., e => execOnyxEnvelopeLoss_stk (h := h) (e := e)
  | .onyxGateClose, e => execOnyxGateClose_stk (h := h) (e := e)
  | .onyxEnergySum .., e => execOnyxEnergySum_stk (h := h) (e := e)
  | .onyxLampOff, e => execOnyxLampOff_stk (h := h) (e := e)
  | .onyxAxisRestore .., e => execOnyxAxisRestore_stk (h := h) (e := e)
  | .onyxWdogKick .., e => execOnyxWdogKick_stk (h := h) (e := e)
  | .onyxWdogTimeout, e => execOnyxWdogTimeout_stk (h := h) (e := e)
  | .onyxClockCheck .., e => execOnyxClockCheck_stk (h := h) (e := e)
  | .supplyFault .., e => execSupplyFault_stk (h := h) (e := e)
  | .dieTempTrip .., e => execDieTempTrip_stk (h := h) (e := e)
  | .hpwrStuck, e => execHpwrStuck_stk (h := h) (e := e)
  | .safeGetStatus .., e => execSafeGetStatus_stk (h := h) (e := e)
  | .safeConfig .., e => execSafeConfig_stk (h := h) (e := e)
  | .safeExit .., e => execSafeExit_stk (h := h) (e := e)
  | .safeTrip .., e => execSafeTrip_stk (h := h) (e := e)
  | .dramRefresh .., e => execDramRefresh_stk (h := h) (e := e)
  | .dramReadReturn .., e => execDramReadReturn_stk (h := h) (e := e)
  | .bulkPromote .., e => execBulkPromote_stk (h := h) (e := e)
  | .starved .., e => execStarved_stk (h := h) (e := e)
  | .eccCorrected, e => execEccCorrected_stk (h := h) (e := e)
  | .trainingPassDone .., e => execTrainingPassDone_stk (h := h) (e := e)
  | .zeroFillDone .., e => execZeroFillDone_stk (h := h) (e := e)
  | .memGetStatus .., e => execMemGetStatus_stk (h := h) (e := e)
  | .memTrain .., e => execMemTrain_stk (h := h) (e := e)
  | .memSetRate .., e => execMemSetRate_stk (h := h) (e := e)
  | .memClassConfig .., e => execMemClassConfig_stk (h := h) (e := e)
  | .memEccInject .., e => execMemEccInject_stk (h := h) (e := e)
  | .prfWrite .., e => execPrfWrite_stk (h := h) (e := e)
  | .mramRefresh .., e => execMramRefresh_stk (h := h) (e := e)
  | .opMinute, e => execOpMinute_stk (h := h) (e := e)
  | .almanacBudgetTick, e => execAlmanacBudgetTick_stk (h := h) (e := e)
  | .almanacRecordWrite, e => execAlmanacRecordWrite_stk (h := h) (e := e)
  | .setWriteStart, e => execSetWriteStart_stk (h := h) (e := e)
  | .setWriteDone .., e => execSetWriteDone_stk (h := h) (e := e)
  | .persGetStatus .., e => execPersGetStatus_stk (h := h) (e := e)
  | .persSetWrite .., e => execPersSetWrite_stk (h := h) (e := e)
  | .persSetInvalidate .., e => execPersSetInvalidate_stk (h := h) (e := e)
  | .almWrite .., e => execAlmWrite_stk (h := h) (e := e)
  | .almRead .., e => execAlmRead_stk (h := h) (e := e)
  | .pwrGetStatus .., e => execPwrGetStatus_stk (h := h) (e := e)
  | .pwrSetState .., e => execPwrSetState_stk (h := h) (e := e)
  | .pwrResume .., e => execPwrResume_stk (h := h) (e := e)
  | .pwrPadRelease .., e => execPwrPadRelease_stk (h := h) (e := e)
  | .pwrWakeConfig .., e => execPwrWakeConfig_stk (h := h) (e := e)
  | .pwrBootLoad .., e => execPwrBootLoad_stk (h := h) (e := e)
  | .pwrBootLoadDone .., e => execPwrBootLoadDone_stk (h := h) (e := e)
  | .islandDrainDone .., e => execIslandDrainDone_stk (h := h) (e := e)
  | .drainTimeout .., e => execDrainTimeout_stk (h := h) (e := e)
  | .islandStageReady .., e => execIslandStageReady_stk (h := h) (e := e)
  | .seqTimeout .., e => execSeqTimeout_stk (h := h) (e := e)
  | .sleepEnter, e => execSleepEnter_stk (h := h) (e := e)
  | .sleepAborted .., e => execSleepAborted_stk (h := h) (e := e)
  | .sleepMinute, e => execSleepMinute_stk (h := h) (e := e)
  | .vigilActivityWake, e => execVigilActivityWake_stk (h := h) (e := e)
  | .vigilWakePattern, e => execVigilWakePattern_stk (h := h) (e := e)
  | .ethWakeFrame .., e => execEthWakeFrame_stk (h := h) (e := e)
  | .pcieL2Exit, e => execPcieL2Exit_stk (h := h) (e := e)
  | .brownoutWarn .., e => execBrownoutWarn_stk (h := h) (e := e)
  | .brownout .., e => execBrownout_stk (h := h) (e := e)
  | .coreStable, e => execCoreStable_stk (h := h) (e := e)
  | .coreUndervoltage, e => execCoreUndervoltage_stk (h := h) (e := e)
  | .coreResetAssert, e => execCoreResetAssert_stk (h := h) (e := e)
  | .powerOnReset .., e => execPowerOnReset_stk (h := h) (e := e)
  | .resetN .., e => execResetN_stk (h := h) (e := e)
  | .perstN .., e => execPerstN_stk (h := h) (e := e)
  | .trstN .., e => execTrstN_stk (h := h) (e := e)
  | .chipResetRelease .., e => execChipResetRelease_stk (h := h) (e := e)
  | .firmwareStart .., e => execFirmwareStart_stk (h := h) (e := e)
  | .bootComplete .., e => execBootComplete_stk (h := h) (e := e)
  | .ctleSettled .., e => execCtleSettled_stk (h := h) (e := e)
  | .aonClockCheck .., e => execAonClockCheck_stk (h := h) (e := e)
  | .lockstepMismatch, e => execLockstepMismatch_stk (h := h) (e := e)
  | .headPowerEnableRemoved, e => execHeadPowerEnableRemoved_stk (h := h) (e := e)
  | .coreUvAtOnce, e => execCoreUvAtOnce_stk (h := h) (e := e)
  | .startupRetry, e => execStartupRetry_stk (h := h) (e := e)
  | .almWriteTimeout .., e => execAlmWriteTimeout_stk (h := h) (e := e)
  | .overfreqClear .., e => execOverfreqClear_stk (h := h) (e := e)
  | .encoOverrun .., e => execEncoOverrun_stk (h := h) (e := e)
  | .tblBlockTx .., e => execTblBlockTx_stk (h := h) (e := e)
  | .legacyStrobeEnd .., e => execLegacyStrobeEnd_stk (h := h) (e := e)

/-- Settles O4: the clock that passes with no command waiting keeps the block sound, and so does every command. -/
theorem stickySoundKept : Obligations.StickySoundKept := by
  intro s t h e
  unfold step at e
  split at e
  · injection e with e
    rw [← e]
    exact idleTick_stk s h
  · next c rest _ => exact exec_stk c { s with pending := rest } h e

/-- Settles O3. -/
theorem stickySoundAtReset : Obligations.StickySoundAtReset :=
  ⟨rfl, rfl, rfl, by decide, by decide⟩

/-- Settles O2: each field has its reset value by definition; the groups and the check-value contexts are looked at one by one. -/
theorem resetValues : Obligations.ResetValues := by
  unfold Obligations.ResetValues
  decide
end Sys2Proof.Machine
end

section
/-!
PROOFS. Frames of the state, and what clearing and setting a sticky bit does (R14, R16, R63, R64).
-/
namespace Sys2Proof.Machine

/-! ## Frames -/

theorem OnlyChanges.mono {ps qs : List Part} {s t : State} (h : OnlyChanges ps s t) (hs : ps ⊆ qs) : OnlyChanges qs s t :=
  fun p hp => h p fun hin => hp (hs hin)

theorem onlyChanges_host (s : State) (h : HostIf) : OnlyChanges [.host] s { s with host := h } := by
  intro p hp
  cases p <;> simp_all [State.agree]

theorem onlyChanges_host_out (s : State) (h : HostIf) (o : List Output) : OnlyChanges [.host, .out] s { s with host := h, out := o } := by
  intro p hp
  cases p <;> simp_all [State.agree]

/-! ## STK_CLEAR -/

theorem stickyClear : Claims.StickyClear := by
  intro n v setNow s hs
  have hstk : n.val < s.host.stk.length := hs.stkLen.symm ▸ n.isLt
  have hfirst : n.val < s.host.stkFirst.length := hs.firstLen.symm ▸ n.isLt
  refine ⟨_, rfl, onlyChanges_host s _, fun m _ => ?_, fun m _ => ?_, rfl⟩
  · refine (wd_upd _ _ _ _ hstk).trans ?_
    by_cases hm : m = n.val
    · subst hm; simp [State.log]
    · simp [hm, Ne.symm hm]
  · refine (cell_upd _ _ _ _ _ hfirst).trans ?_
    have hw : wd (s.withLog (s.log.stkClear n (v &&& ~~~setNow))).host.stk m = _ := wd_upd _ _ _ _ hstk
    rw [hw]
    by_cases hm : m = n.val
    · subst hm; simp [State.log]; congr
    · simp [hm, Ne.symm hm, State.log]

/-! ## Setting a sticky bit -/

/-- A bit that was set, or is masked, sends no message. -/
theorem Log.stick_quiet (k : Sticky) (l : Log) (h : flag (wd l.host.stk k.n) k.b = true ∨ flag (wd l.host.stkMask k.n) k.b = false) :
    (l.stick k).out = l.out ∧ (l.stick k).host.pba = l.host.pba := by
  unfold Log.stick
  rcases h with h | h <;> simp only [h] <;> split <;> simp

/-- A bit that goes from 0 to 1 under a set mask bit sends vector 2, or leaves it pending. -/
theorem Log.stick_sends (k : Sticky) (l : Log) (hd : flag (wd Config.stkDefined k.n) k.b = true) (h0 : flag (wd l.host.stk k.n) k.b = false)
    (hm : flag (wd l.host.stkMask k.n) k.b = true) :
    if l.host.vecOpen 2 then (l.stick k).out = .msix 2 :: l.out else (l.stick k).host.pba = l.host.pba ||| 4 := by
  have hv : ∀ a b, ({ l.host with stk := a, stkFirst := b } : HostIf).vecOpen 2 = l.host.vecOpen 2 := fun _ _ => rfl
  unfold Log.stick
  simp only [hd, h0, hm, Log.send, hv]
  split <;> simp

@[simp] theorem Log.send_pers (v : Nat) (l : Log) : (l.send v).pers = l.pers := by
  unfold Log.send; split <;> rfl

@[simp] theorem Log.stick_pers (k : Sticky) (l : Log) : (l.stick k).pers = l.pers := by
  unfold Log.stick
  dsimp only
  split
  · rfl
  · split <;> simp

theorem stick_onlyChanges (k : Sticky) (s : State) : OnlyChanges [.host, .out] s (stick k s) := by
  have e : stick k s = { s with host := (s.log.stick k).host, out := (s.log.stick k).out } := by
    simp [stick, State.withLog, State.log]
  rw [e]
  exact onlyChanges_host_out s _ _

theorem stickySet : Claims.StickySet := by
  intro k s hs hd
  obtain ⟨estk, -, efirst⟩ := s.log.stick_parts k hd
  obtain ⟨hn, -⟩ := flag_lt _ _ hd
  refine ⟨stick_onlyChanges k s, fun m _ => ?_, fun m _ => ?_, fun h => s.log.stick_sends k hd h.1 h.2, fun h => s.log.stick_quiet k h⟩
  · have hw := wd_upd s.host.stk k.n m (fun w => w ||| (1#32 <<< k.b)) (hs.stkLen.symm ▸ hn)
    simp only [eq_comm (a := m)]
    exact (congrArg (wd · m) estk).trans hw
  · have hc := cell_upd s.host.stkFirst k.n m (fun f => if wd s.host.stk k.n = 0 then some (BitVec.ofNat 5 k.b) else f) none
      (hs.firstLen.symm ▸ hn)
    refine (congrArg (cell · m none) efirst).trans (hc.trans ?_)
    by_cases hm : m = k.n
    · subst hm; simp
    · simp [hm, Ne.symm hm]

/-- Settles O5: a clear and a set, each over a sound block. (The model's own `stickyBlock` is the register block a read gives.) -/
theorem stickyBlock_clear_and_set : Obligations.StickyBlock := ⟨stickyClear, stickySet⟩

end Sys2Proof.Machine
end

section
/-!
PROOFS. The 64-bit registers: the latches a read takes and the halves a write holds (R13, R40, R132, R133).
-/
namespace Sys2Proof.Machine

/-! ## Lookup -/

theorem find?_put {κ β : Type} [DecidableEq κ] (l : List (κ × β)) (k : κ) (v : β) : find? (put l k v) k = some v := by
  simp [find?, put]

theorem find?_filter_ne {κ β : Type} [DecidableEq κ] (l : List (κ × β)) (k : κ) : find? (l.filter fun x => x.1 != k) k = none := by
  simp [find?]
  exact fun a _ _ h e => h e.symm

/-! ## Reads -/

/-- A read's data always goes out: no pad holds it back. -/
theorem readOut_eq (off : Nat) (v : Word) (s : State) : readOut off v s = { s with out := .readData off v :: s.out } :=
  emit_unheld s _ rfl

theorem bar0Word_linePosLo {s : State} {b lo hi : Word} (h : s.host.gsLatch = some (b, lo, hi)) : bar0Word 0x20 s = lo := by
  simp [bar0Word, idBlock, h, words64, wd]

theorem reg64LowerRead_latches (r : Fin 0x100000) (s : State) (hp : isPair r = true) (hg : r.val = 0x20 → s.host.gsLatch = none) :
    execReg64LowerRead r s = .next { s with
      host := { s.host with latch64 := put s.host.latch64 r.val (bar0Word (r.val + 4) s) }, out := .readData r (bar0Word r s) :: s.out } := by
  have hc : (isPair r && !(r.val == 0x20 && s.host.gsLatch.isSome)) = true := by
    by_cases h20 : r.val = 0x20
    · simp [hp, hg h20]
    · simp [hp, h20]
  unfold execReg64LowerRead
  dsimp only
  rw [if_pos hc, readOut_eq]

/-- With no GLOBAL_STATE latch to give LINE_POS_HI, an upper read gives what the register's own latch holds, and releases it. -/
theorem reg64UpperRead_latched {r : Fin 0x100000} {v : Word} {s : State} (hg : r.val = 0x20 → s.host.gsLatch = none)
    (hv : find? s.host.latch64 r.val = some v) :
    execReg64UpperRead r s = .next { s with
      host := { s.host with latch64 := s.host.latch64.filter fun x => x.1 != r.val }, out := .readData (r.val + 4) v :: s.out } := by
  unfold execReg64UpperRead
  simp only [readOut_eq, hv]
  split
  next hi h20 hs => simp [hg (by simpa using h20)] at hs
  next => rfl

/-- With no latch at all it gives the present upper half. -/
theorem reg64UpperRead_present {r : Fin 0x100000} {s : State} (hg : r.val = 0x20 → s.host.gsLatch = none)
    (hv : find? s.host.latch64 r.val = none) :
    execReg64UpperRead r s = .next { s with out := .readData (r.val + 4) (bar0Word (r.val + 4) s) :: s.out } := by
  unfold execReg64UpperRead
  simp only [readOut_eq, hv]
  split
  next hi h20 hs => simp [hg (by simpa using h20)] at hs
  next => rfl

theorem reg64UpperRead_linePosHi (b lo hi : Word) (s : State) (h : s.host.gsLatch = some (b, lo, hi)) :
    execReg64UpperRead 0x20 s = .next { s with
      host := { s.host with gsLatch := none, latch64 := s.host.latch64.filter fun x => x.1 != 0x20 },
      out := .readData 0x24 hi :: s.out } := by
  unfold execReg64UpperRead
  simp only [readOut_eq, h]
  rfl

/-- While the latch of R40 is held, LINE_POS_LO comes from it and latches nothing. -/
theorem reg64LowerRead_linePosLo {b lo hi : Word} {s : State} (h : s.host.gsLatch = some (b, lo, hi)) :
    execReg64LowerRead 0x20 s = .next { s with out := .readData 0x20 lo :: s.out } := by
  have h20 : ((0x20 : Fin 0x100000) : Nat) = 0x20 := rfl
  unfold execReg64LowerRead
  simp only [h20, readOut_eq, bar0Word_linePosLo h]
  simp [h]

theorem pairReads : Claims.PairReads := by
  refine ⟨fun r s hp hg => ⟨_, reg64LowerRead_latches r s hp hg, onlyChanges_host_out s _ _, rfl, find?_put _ _ _⟩,
    fun r v s hg hv => ⟨_, reg64UpperRead_latched hg hv, onlyChanges_host_out s _ _, rfl, find?_filter_ne _ _⟩,
    fun r s hg hv => reg64UpperRead_present hg hv, fun s => ⟨_, rfl, ?_⟩,
    fun b lo hi s h => ⟨reg64LowerRead_linePosLo h, _, reg64UpperRead_linePosHi b lo hi s h, onlyChanges_host_out s _ _, rfl, rfl⟩⟩
  rw [readOut_eq]
  exact ⟨onlyChanges_host_out s _ _, rfl, rfl⟩

/-! ## Writes of a check-value context -/

/-- The 64-bit registers of a check-value context that keep what is written. -/
theorem pairAt_isSome (c : CvCtx) {reg : Nat} (h : reg ∈ [0x08, 0x10, 0x18, 0x20, 0x30]) : (c.pairAt reg).isSome = true := by
  fin_cases h <;> rfl

theorem cvOffset_isPair : ∀ k < 4, ∀ reg ∈ [0x08, 0x10, 0x18, 0x20, 0x30, 0x48], isPair (cvOffset k reg) = true := by decide

theorem cvOffset_inCv {k reg : Nat} (hk : k < 4) (hr : reg < 0x1000) : inCv (cvOffset k reg) = true := by
  unfold inCv cvOffset
  exact decide_eq_true (by omega)

theorem cvPlace_cvOffset (k : Nat) {reg : Nat} (hr : reg < 0x1000) : cvPlace (cvOffset k reg) = (k, reg) := by
  simp only [cvPlace, cvOffset, Prod.mk.injEq]; omega

theorem pairReg_lt {reg : Nat} (h : reg ∈ [0x08, 0x10, 0x18, 0x20, 0x30, 0x48]) : reg < 0x1000 := by
  fin_cases h <;> decide

theorem dataReg_mem {reg : Nat} (h : reg ∈ [0x08, 0x10, 0x18, 0x20, 0x30]) : reg ∈ [0x08, 0x10, 0x18, 0x20, 0x30, 0x48] ∧ reg ≠ 0x48 := by
  fin_cases h <;> decide

section
variable {k reg : Nat} (hk : k < 4) (v : Word) (s : State)
include hk

theorem lowerWrite_held (hr : reg ∈ [0x08, 0x10, 0x18, 0x20, 0x30]) (hb : (s.pg.ctx k).busy = none) :
    lowerWrite (cvOffset k reg) v s = setHost (fun h => { h with held64 := put h.held64 (cvOffset k reg) v }) s := by
  obtain ⟨hm, hne⟩ := dataReg_mem hr
  simp [lowerWrite, cvOffset_inCv hk (pairReg_lt hm), cvPlace_cvOffset k (pairReg_lt hm), hb, hne, pairAt_isSome _ hr]

theorem upperWrite_takes {old : Dword} {f : Dword → CvCtx} (hr : reg ∈ [0x08, 0x10, 0x18, 0x20, 0x30]) (hb : (s.pg.ctx k).busy = none)
    (hp : (s.pg.ctx k).pairAt reg = some (old, f)) :
    upperWrite (cvOffset k reg) v s = setHost (fun h => { h with held64 := h.held64.filter fun x => x.1 != cvOffset k reg })
      (setCtx k (fun _ => f (v ++ (find? s.host.held64 (cvOffset k reg)).getD (old.setWidth 32))) s) := by
  obtain ⟨hm, hne⟩ := dataReg_mem hr
  simp [upperWrite, cvOffset_inCv hk (pairReg_lt hm), cvPlace_cvOffset k (pairReg_lt hm), hb, hne, hp]

theorem halfWrite_busy (hr : reg ∈ [0x08, 0x10, 0x18, 0x20, 0x30, 0x48]) (hb : (s.pg.ctx k).busy.isSome = true) :
    lowerWrite (cvOffset k reg) v s = stickRec .cvConflict s ∧ upperWrite (cvOffset k reg) v s = stickRec .cvConflict s := by
  simp [lowerWrite, upperWrite, cvOffset_inCv hk (pairReg_lt hr), cvPlace_cvOffset k (pairReg_lt hr), hb]

end

/-- A 64-bit field takes the bits below WIDTH and keeps the others. -/
theorem CvCtx.put_bit (c : CvCtx) (old v : Dword) {i : Nat} (hi : i < 64) :
    (c.put old v).getLsbD i = if i < c.width then v.getLsbD i else old.getLsbD i := by
  have hm : (BitVec.ofNat 64 (2 ^ min 64 c.width - 1)).getLsbD i = decide (i < c.width) := by
    rw [BitVec.getLsbD_ofNat, Nat.testBit_two_pow_sub_one]
    simp [hi]
  unfold CvCtx.put
  simp only [BitVec.getLsbD_or, BitVec.getLsbD_and, BitVec.getLsbD_not, hm, hi, decide_true, Bool.true_and]
  by_cases hw : i < c.width <;> simp [hw]

theorem setCtx_onlyChanges (k : Nat) (g : CvCtx → CvCtx) (f : HostIf → HostIf) (s : State) :
    OnlyChanges [.host, .pg] s (setHost f (setCtx k g s)) := by
  intro p hp
  cases p <;> simp_all [State.agree]

theorem pairWrites : Claims.PairWrites := by
  refine ⟨fun r k reg v s hk hr hrv hb => ?lowerHeld, fun r k reg lo v old f s hk hrv hr hlen hb hp hlo => ?upperTakes,
    fun c old v f hd hp => ?disabledHolds, fun c old v i hi => c.put_bit old v hi, fun r k reg v s hk hr hrv hb => ?busyConflict⟩
  case lowerHeld =>
    have hpair := cvOffset_isPair k hk reg (dataReg_mem hr).1
    refine ⟨setHost (fun h => { h with held64 := put h.held64 r.val v }) s, ?_, onlyChanges_host s _, find?_put s.host.held64 r.val v⟩
    change Host.Outcome.next (if isPair r then lowerWrite r v s else s) = _
    rw [hrv, if_pos hpair, lowerWrite_held hk v s hr hb]
  case upperTakes =>
    have hpair := cvOffset_isPair k hk reg (dataReg_mem hr).1
    have hctx := cell_upd s.pg.cv k (f := fun _ => f (v ++ lo)) (d := {}) (hi := hlen.symm ▸ hk)
    refine ⟨setHost (fun h => { h with held64 := h.held64.filter fun x => x.1 != r.val }) (setCtx k (fun _ => f (v ++ lo)) s), ?_,
      setCtx_onlyChanges _ _ _ _, (hctx k).trans (if_pos rfl), find?_filter_ne _ _, fun j hj => (hctx j).trans (if_neg (Ne.symm hj))⟩
    change Host.Outcome.next (if isPair r then upperWrite r v s else s) = _
    rw [← hlo, hrv, if_pos hpair, upperWrite_takes hk v s hr hb hp]
  case disabledHolds =>
    cases hp
    exact if_pos hd
  case busyConflict =>
    have hpair := cvOffset_isPair k hk reg hr
    obtain ⟨hlow, hup⟩ := halfWrite_busy hk v s hr hb
    change Host.Outcome.next (if isPair r then lowerWrite r v s else s) = _ ∧ Host.Outcome.next (if isPair r then upperWrite r v s else s) = _
    rw [hrv, if_pos hpair, if_pos hpair, hlow, hup]
    exact ⟨rfl, rfl⟩

/-- Settles O6: the latch a read takes or finds decides what it gives, and the half a write holds or completes decides what it does. -/
theorem pairs : Obligations.Pairs := ⟨pairReads, pairWrites⟩

end Sys2Proof.Machine
end

section
/-!
PROOFS. What messages, sticky bits, records, events, completions and answers leave as it is, in the host interface and in persistent
storage.
-/
namespace Sys2Proof.Machine

/-- The host interface without the fields that the log writes: a field left in it is one that no message, sticky bit, record, event, completion
or answer changes. -/
def HostIf.quiet (h : HostIf) : HostIf := { h with
  stk := [], stkFirst := [], pba := 0, rung := [], rspSlots := [], lastSeq := 0, slotState := [], evq := [], evqHead := 0, evqLost := 0
  evqOverflowed := false, unsig := [], outst := [] }

/-- Persistent storage without the recording queue and its counts. -/
def Pers.quiet (p : Pers) : Pers := { p with
  almQueue := [], almArrive := 0, almSuppressed := 0, lostBefore := false, lostOwe := false, lostSince := 0 }

/-- From `l` to `m` only the log's own fields have changed, and of the rung commands some may have been answered. -/
structure Log.Keeps (l m : Log) : Prop where
  /-- The host interface's other fields. -/
  host : m.host.quiet = l.host.quiet
  /-- No command is rung. -/
  rung : m.host.rung.Sublist l.host.rung
  /-- What persistent storage holds but for the recording queue. -/
  pers : m.pers.quiet = l.pers.quiet

theorem Log.Keeps.refl (l : Log) : l.Keeps l := ⟨rfl, .refl _, rfl⟩

theorem Log.Keeps.trans {a b c : Log} (h : a.Keeps b) (k : b.Keeps c) : a.Keeps c :=
  ⟨k.host.trans h.host, k.rung.trans h.rung, k.pers.trans h.pers⟩

/-- What comes after a write of the log's own fields. -/
theorem Log.Keeps.after {a b c : Log} (k : b.Keeps c) (hh : b.host.quiet = a.host.quiet) (hr : b.host.rung.Sublist a.host.rung)
    (hp : b.pers.quiet = a.pers.quiet) : a.Keeps c := Log.Keeps.trans ⟨hh, hr, hp⟩ k

namespace Log
variable (l : Log)

theorem send_keeps (v : Nat) : l.Keeps (l.send v) := by
  unfold send
  split <;> exact ⟨rfl, .refl _, rfl⟩

theorem stick_keeps (k : Sticky) : l.Keeps (l.stick k) := by
  unfold stick
  dsimp only
  split
  · exact .refl l
  · split
    · exact (send_keeps _ 2).after rfl (.refl _) rfl
    · exact ⟨rfl, (.refl _), rfl⟩

theorem dropRung_sublist (slot : Nat) : ∀ cs : List RungCmd, (dropRung slot cs).Sublist cs
  | [] => .refl _
  | c :: cs => by
    unfold dropRung
    split
    · exact List.sublist_cons_self c cs
    · exact (dropRung_sublist slot cs).cons_cons c

theorem respond_keeps (slot : Nat) (a : Ans) : l.Keeps (l.respond slot a) := by
  unfold respond
  split
  · exact .refl l
  next c _ =>
    dsimp only
    split
    · exact ⟨rfl, (dropRung_sublist slot _), rfl⟩
    · split
      · exact ⟨rfl, (dropRung_sublist slot _), rfl⟩
      · exact (send_keeps _ 0).after rfl (dropRung_sublist slot _) rfl

theorem record_keeps (r : AlmRec) : l.Keeps (l.record r) := by
  unfold record
  dsimp only
  split
  · exact ⟨rfl, (.refl _), rfl⟩
  · split
    · exact ((stick_keeps _ _).trans (respond_keeps _ _ _)).after rfl (.refl _) rfl
    · exact (stick_keeps _ _).after rfl (.refl _) rfl

theorem stickRec_keeps (line : Word) (k : Sticky) (source : Nat) : l.Keeps (l.stickRec line k source) := by
  unfold stickRec
  split
  · exact .refl l
  · exact (stick_keeps l k).trans (record_keeps _ _)

theorem signal_keeps (now : Bool) (i : Word) (v : Nat) : l.Keeps (l.signal now i v) := by
  unfold signal
  dsimp only
  split
  · exact (send_keeps _ v).after rfl (.refl _) rfl
  · exact ⟨rfl, (.refl _), rfl⟩

theorem enqueue_keeps (line : Word) (code source sev : Nat) (tag p0 p1 p2 w7 : Word) :
    l.Keeps (l.enqueue line code source sev tag p0 p1 p2 w7) := by
  unfold enqueue
  dsimp only
  split
  · exact (signal_keeps _ _ _ _).after rfl (.refl _) rfl
  · exact (signal_keeps _ _ _ _).after rfl (.refl _) rfl
  · exact ((signal_keeps _ _ _ _).trans (signal_keeps _ _ _ _)).after rfl (.refl _) rfl

theorem queueEvent_keeps (line : Word) (e : Event) : l.Keeps (l.queueEvent line e) := by
  unfold queueEvent
  dsimp only
  split
  · exact .refl l
  · split
    · exact enqueue_keeps l _ _ _ _ _ _ _ _ _
    · exact (stickRec_keeps _ _ _ _).after rfl (.refl _) rfl

theorem event_keeps (line : Word) (e : Event) : l.Keeps (l.event line e) := by
  unfold event
  dsimp only
  split
  · exact (queueEvent_keeps l line e).trans (record_keeps _ _)
  · exact queueEvent_keeps l line e

theorem complete_keeps (line : Word) (opcode : Nat) (tag : Word) (status : Nat) (p0 p1 p2 : Word) :
    l.Keeps (l.complete line opcode tag status p0 p1 p2) := by
  unfold complete
  exact (enqueue_keeps _ _ _ _ _ _ _ _ _ _).after rfl (.refl _) rfl

end Log

/-! ## The same of the state -/

/-- From `s` to `t` the host interface and persistent storage have changed only as the log changes them. -/
def State.Keeps (s t : State) : Prop := s.log.Keeps t.log

namespace State.Keeps

theorem refl (s : State) : s.Keeps s := Log.Keeps.refl _

theorem trans {s t u : State} (h : s.Keeps t) (k : t.Keeps u) : s.Keeps u := Log.Keeps.trans h k

theorem host {s t : State} (h : s.Keeps t) : t.host.quiet = s.host.quiet := Log.Keeps.host h

theorem rung {s t : State} (h : s.Keeps t) : t.host.rung.Sublist s.host.rung := Log.Keeps.rung h

theorem pers {s t : State} (h : s.Keeps t) : t.pers.quiet = s.pers.quiet := Log.Keeps.pers h

/-- Updates of the other parts of the state are none of the log. -/
theorem of_eq {s t : State} (hh : t.host = s.host) (hp : t.pers = s.pers) : s.Keeps t :=
  ⟨congrArg HostIf.quiet hh, (congrArg HostIf.rung hh) ▸ .refl _, congrArg Pers.quiet hp⟩

theorem foldl {α : Type} (g : State → α → State) (l : List α) (s : State) (h : ∀ (s : State) x, s.Keeps (g s x)) : s.Keeps (l.foldl g s) :=
  List.foldlRecOn (motive := s.Keeps) l g (refl s) fun t ht x _ => ht.trans (h t x)

end State.Keeps

section
variable (s : State)

theorem withLog_keeps {l : Log} (h : s.log.Keeps l) : s.Keeps (s.withLog l) := ⟨h.host, h.rung, h.pers⟩
theorem stick_keeps (k : Sticky) : s.Keeps (stick k s) := withLog_keeps s (s.log.stick_keeps k)
theorem stickRec_keeps (k : Sticky) (source : Nat) : s.Keeps (stickRec k s source) := withLog_keeps s (s.log.stickRec_keeps _ k source)
theorem event_keeps (e : Event) : s.Keeps (event e s) := withLog_keeps s (s.log.event_keeps _ e)
theorem stickEvent_keeps (k : Sticky) (e : Event) : s.Keeps (stickEvent k e s) :=
  withLog_keeps s ((s.log.stick_keeps k).trans (Log.event_keeps _ _ _))
theorem completeNow_keeps (opcode : Nat) (tag : Word) (status : Nat) (p0 p1 p2 : Word) : s.Keeps (completeNow opcode tag status p0 p1 p2 s) :=
  withLog_keeps s (s.log.complete_keeps _ _ _ _ _ _ _)
theorem sendVec_keeps (v : Nat) : s.Keeps (sendVec v s) := withLog_keeps s (s.log.send_keeps v)
theorem respond_keeps (slot : Nat) (a : Ans) : s.Keeps (respond slot a s) := withLog_keeps s (s.log.respond_keeps slot a)

theorem complete_keeps (opcode : Nat) (tag : Word) (status : Nat) (p0 p1 p2 : Word) : s.Keeps (complete opcode tag status p0 p1 p2 s) := by
  unfold complete
  split
  · exact .refl s
  · exact completeNow_keeps s _ _ _ _ _ _

theorem emit_keeps (o : Output) : s.Keeps (emit o s) := .of_eq (emit_host s o) (emit_pers s o)

end

end Sys2Proof.Machine
end

section
/-!
PROOFS. Register writes and the host watchdog (R14, R15, R34, R41, R63, R66, R279).
-/
namespace Sys2Proof.Machine

/-! ## Changes of the operating state -/

/-- The answer to a waiting SYS_SET_OP_STATE writes nothing of its own but the wait. -/
theorem answerOpReq_host (new : OpState) (s : State) : ∃ q, (answerOpReq new s).host.quiet = { s.host.quiet with opReq := q } := by
  unfold answerOpReq
  split
  · exact ⟨s.host.opReq, rfl⟩
  · extract_lets _ s1
    split
    · exact ⟨none, (respond_keeps s1 _ _).host⟩
    · split
      · exact ⟨none, (respond_keeps s1 _ _).host⟩
      · exact ⟨s.host.opReq, rfl⟩

/-- A change of the operating state: the state and a request that waited for it. -/
theorem setOpState_host (new : OpState) (forced : Bool) (s : State) :
    ∃ q, (setOpState new forced s).host.quiet = { s.host.quiet with opState := new, opReq := q } := by
  unfold setOpState
  split
  next h => exact ⟨s.host.opReq, h ▸ rfl⟩
  next =>
    extract_lets e _ s1 s2
    have h2 : s1.Keeps s2 := by
      cases forced
      · exact event_keeps s1 e
      · exact stickEvent_keeps s1 _ e
    have h3 : s1.Keeps (if new = .safe then sendVec 2 s2 else s2) := by
      split
      · exact h2.trans (sendVec_keeps s2 2)
      · exact h2
    obtain ⟨q, hq⟩ := answerOpReq_host new (if new = .safe then sendVec 2 s2 else s2)
    exact ⟨q, hq.trans (congrArg (fun h => { h with opReq := q }) h3.host)⟩

/-! ## Register writes -/

theorem filterMap_length_ne {α : Type} {l : List (Option α)} (h : none ∈ l) : (l.filterMap id).length ≠ l.length :=
  fun e => nomatch List.filterMap_length_eq_length.mp e none h

/-- The little-endian word of four bytes (R12). -/
theorem word_of_bytes (b0 b1 b2 b3 : Byte) : w32 (le32 [b0, b1, b2, b3] 0) = b3 ++ b2 ++ b1 ++ b0 := by
  apply BitVec.eq_of_toNat_eq
  simp only [BitVec.toNat_append]
  rw [← Nat.shiftLeft_add_eq_or_of_lt b2.isLt, ← Nat.shiftLeft_add_eq_or_of_lt b1.isLt, ← Nat.shiftLeft_add_eq_or_of_lt b0.isLt]
  simp only [w32, le32, leN, by8, List.getD_cons_zero, List.getD_cons_succ, BitVec.toNat_ofNat, Nat.shiftLeft_eq]
  omega

/-- An aligned write of a whole word outside the command slots. -/
theorem registerWrite_word (off : Fin 0x100000) (b0 b1 b2 b3 : Byte) (s : State) (hs : ¬ (0x10000 ≤ off.val ∧ off.val < 0x11000))
    (ha : off.val % 4 = 0) :
    execRegisterWrite off [some b0, some b1, some b2, some b3] s = .next (bar0Write off (b3 ++ b2 ++ b1 ++ b0) s) := by
  simp [execRegisterWrite, hs, ha, word_of_bytes]

theorem registerWrite_partial (off : Fin 0x100000) (bs : List (Option Byte)) (s : State) (hs : ¬ (0x10000 ≤ off.val ∧ off.val < 0x11000))
    (h : none ∈ bs ∨ (bs.length ≠ 4 ∧ bs.length ≠ 8) ∨ off.val % bs.length ≠ 0) :
    execRegisterWrite off bs s = .next (stickRec .barPartialWrite s) := by
  have hc : (bs.filterMap id).length ≠ bs.length ∨ (!(bs.length == 4 || bs.length == 8)) = true ∨ off.val % bs.length ≠ 0 := by
    rcases h with h | ⟨h4, h8⟩ | h
    · exact .inl (filterMap_length_ne h)
    · exact .inr (.inl (by simp [h4, h8]))
    · exact .inr (.inr h)
  unfold execRegisterWrite
  dsimp only
  rw [if_neg hs, if_pos hc]

/-- The word at an offset is neither half of a 64-bit register. -/
def PlainWord (off : Nat) : Prop := ¬ isPair off = true ∧ ¬ (4 ≤ off ∧ isPair (off - 4) = true)

theorem plainWord_iff (off : Nat) : PlainWord off ↔ (!isPair off && !(decide (4 ≤ off) && isPair (off - 4))) = true := by
  simp [PlainWord]
  intro _
  rw [imp_iff_not_or, not_le]
theorem bar0Write_scratch (v : Word) (s : State) : bar0Write 0x34 v s = { s with host := { s.host with scratch := v } } := by
  obtain ⟨h1, h2⟩ := (plainWord_iff 0x34).mpr (by decide)
  unfold bar0Write
  rw [if_neg h1, if_neg h2]
  rfl

theorem bar0Write_reserved (v : Word) (s : State) : bar0Write 0x38 v s = s := by
  obtain ⟨h1, h2⟩ := (plainWord_iff 0x38).mpr (by decide)
  unfold bar0Write
  rw [if_neg h1, if_neg h2]
  rfl

theorem bar0Write_stkMask {n : Nat} (h0 : 0 < n) (hn : n < 16) (v : Word) (s : State) :
    bar0Write (0x1004 + 16 * n) v s = { s with host := { s.host with stkMask := upd s.host.stkMask n fun _ => v } } := by
  have hp : ∀ n < 16, (!isPair (0x1004 + 16 * n) && !(decide (4 ≤ 0x1004 + 16 * n) && isPair (0x1004 + 16 * n - 4))) = true := by decide
  obtain ⟨h1, h2⟩ := (plainWord_iff _).mpr (hp n hn)
  have hd : (0x1004 + 16 * n - 0x1000) / 16 = n := by omega
  have hm : (0x1004 + 16 * n) % 16 = 4 := by omega
  unfold bar0Write
  rw [if_neg h1, if_neg h2, if_neg (by omega), if_neg (by omega), if_neg (by omega), if_pos (by omega), hd, hm, stickyWrite, if_neg (by omega)]
  rfl

theorem bar0Write_cons (v : Word) (s : State) :
    bar0Write 0x1F0E4 v s = { s with insp := { s.insp with stats := { s.insp.stats with cons := v } } } ∧
    bar0Write 0x1F0EC v s = { s with insp := { s.insp with qual := { s.insp.qual with cons := v } } } := by
  obtain ⟨h1, h2⟩ := (plainWord_iff 0x1F0E4).mpr (by decide)
  obtain ⟨h3, h4⟩ := (plainWord_iff 0x1F0EC).mpr (by decide)
  constructor
  · unfold bar0Write
    rw [if_neg h1, if_neg h2]
    rfl
  · unfold bar0Write
    rw [if_neg h3, if_neg h4]
    rfl

theorem registerWrites : Claims.RegisterWrites := by
  refine ⟨fun off bs s hs h => registerWrite_partial off bs s hs h, fun b0 b1 b2 b3 s => ?_, fun b0 b1 b2 b3 s => ?_, fun s => rfl,
    fun v s => rfl, fun s hr hb => congrArg _ (if_pos ⟨hr, hb⟩), fun n b0 b1 b2 b3 off s h0 hn ho => ?_, fun b0 b1 b2 b3 s => ⟨?_, ?_⟩⟩
  · exact (registerWrite_word _ _ _ _ _ _ (by decide) (by decide)).trans (congrArg _ (bar0Write_scratch _ _))
  · exact (registerWrite_word _ _ _ _ _ _ (by decide) (by decide)).trans (congrArg _ (bar0Write_reserved _ _))
  · refine (registerWrite_word off _ _ _ _ _ (by omega) (by omega)).trans (congrArg _ ?_)
    rw [ho, bar0Write_stkMask h0 hn]
  · exact (registerWrite_word _ _ _ _ _ _ (by decide) (by decide)).trans (congrArg _ (bar0Write_cons _ _).1)
  · exact (registerWrite_word _ _ _ _ _ _ (by decide) (by decide)).trans (congrArg _ (bar0Write_cons _ _).2)

/-! ## The host watchdog -/

theorem wdogDue_iff {s : State} (h0 : s.host.wdogTimeout ≠ 0) (he : s.host.wdogExpired = false) :
    wdogDue s = true ↔ s.host.wdogStart.toNat + 1000000 * s.host.wdogTimeout.toNat ≤ s.pos.mono.toNat := by
  simp only [wdogDue, he, Bool.not_false, Bool.and_true, Bool.and_eq_true, bne_iff_ne, decide_eq_true_eq]
  exact and_iff_right h0

/-- An expiry that orders no READY at once: only a boundary to come may be ordered. -/
theorem hostWdogExpired_stays {s : State} (hd : wdogDue s = true)
    (h : (s.host.wdogAction && s.host.opState == .print && !lineFires s) = false) :
    execHostWdogExpired s = .next (stickEvent .hostWdog { ev := .hostWdogExpired } { s with host := { s.host with
      wdogExpired := true, wdogForce := s.host.wdogForce || (s.host.wdogAction && s.host.opState == .print && lineFires s) } }) := by
  unfold execHostWdogExpired
  simp [hd, h]

theorem hostWdogExpired_leaves {s : State} (hd : wdogDue s = true)
    (h : (s.host.wdogAction && s.host.opState == .print && !lineFires s) = true) :
    ∃ u : State, execHostWdogExpired s = .next (setOpState .ready true u) ∧ u.host.wdogExpired = true := by
  refine ⟨stickEvent .hostWdog { ev := .hostWdogExpired } { s with host := { s.host with
      wdogExpired := true, wdogForce := s.host.wdogForce || (s.host.wdogAction && s.host.opState == .print && lineFires s) } },
    ?_, congrArg HostIf.wdogExpired (stickEvent_keeps _ _ _).host⟩
  unfold execHostWdogExpired
  simp [hd, h]

theorem hostWatchdog : Claims.HostWatchdog := by
  refine ⟨fun s h0 he hlt => ?_, fun s h0 he hle => ?_⟩
  · have hd : wdogDue s = false := by
      have := (wdogDue_iff h0 he).not.mpr (Nat.not_le.mpr hlt)
      simpa using this
    exact congrArg _ (if_pos (by simp [hd]))
  · have hd := (wdogDue_iff h0 he).mpr hle
    refine ⟨fun h => ?_, fun ha hp hl => ?_, fun ha hp hl => ?_⟩
    · have hp : (s.host.wdogAction && s.host.opState == .print) = false := by
        rcases h with h | h <;> simp [h]
      refine (hostWdogExpired_stays hd (by simp [hp])).trans ?_
      simp [hp]
    · refine (hostWdogExpired_stays hd (by simp [hl])).trans ?_
      simp [ha, hp, hl]
    · obtain ⟨u, hu, hx⟩ := hostWdogExpired_leaves hd (by simp [ha, hp, hl])
      obtain ⟨q, hq⟩ := setOpState_host .ready true u
      exact ⟨_, hu, congrArg HostIf.opState hq, (congrArg HostIf.wdogExpired hq).trans hx⟩

/-- Settles O9: each write by the register at its offset, and an expiry by whether it is due and orders READY. -/
theorem registersAndWatchdog : Obligations.RegistersAndWatchdog := ⟨registerWrites, hostWatchdog⟩

end Sys2Proof.Machine
end

section
/-!
PROOFS. Function-level reset, the link, chip reset and the reset commands (R32, R35, R36, R53, R71, R544, R545).
-/
namespace Sys2Proof.Machine

/-! ## Frames of what the log does -/

theorem OnlyChanges.refl (ps : List Part) (s : State) : OnlyChanges ps s s := by
  intro p _
  cases p <;> rfl

theorem OnlyChanges.trans {ps : List Part} {s t u : State} (h : OnlyChanges ps s t) (k : OnlyChanges ps t u) : OnlyChanges ps s u := by
  intro p hp
  have h1 := h p hp
  have h2 := k p hp
  cases p <;> exact Eq.trans h1 h2

theorem OnlyChanges.foldl {α : Type} {ps : List Part} (g : State → α → State) (l : List α) (s : State)
    (h : ∀ (s : State) x, OnlyChanges ps s (g s x)) : OnlyChanges ps s (l.foldl g s) :=
  List.foldlRecOn (motive := OnlyChanges ps s) l g (.refl ps s) fun t ht x _ => ht.trans (h t x)

theorem withLog_onlyChanges (l : Log) (s : State) : OnlyChanges [.host, .pers, .out] s (s.withLog l) := by
  intro p hp
  cases p <;> simp_all [State.agree]

theorem Log.respond_pers (slot : Nat) (a : Ans) (l : Log) : (l.respond slot a).pers = l.pers := by
  unfold Log.respond
  split
  · rfl
  next =>
    dsimp only
    split
    · rfl
    · split
      · rfl
      · exact Log.send_pers _ _

theorem respond_onlyChanges (slot : Nat) (a : Ans) (s : State) : OnlyChanges [.host, .out] s (respond slot a s) := by
  have e : respond slot a s = { s with host := (s.log.respond slot a).host, out := (s.log.respond slot a).out } := by
    simp [respond, State.withLog, Log.respond_pers, State.log]
  rw [e]
  exact onlyChanges_host_out s _ _

/-! ## Bus mastering -/

theorem ringOrder_lt {s : State} {r : Nat} (h : r ∈ ringOrder s) : r < 4 := by
  simp only [ringOrder, List.mem_append, List.mem_filter, List.mem_range] at h
  rcases h with h | h <;> exact h.1

theorem fetchNext_disabled {r : Nat} {s : State} (h : (s.pg.ring r).enabled = false) : fetchNext r s = s := by
  simp [fetchNext, mayFetch, h]

/-- With no ring enabled nothing is fetched. -/
theorem fetchAll_disabled {s : State} (h : ∀ r, r < 4 → (s.pg.ring r).enabled = false) : fetchAll s = s := by
  have hf : ∀ l : List Nat, (∀ r ∈ l, r < 4) → l.foldl (fun s r => fetchNext r s) s = s := by
    intro l hl
    induction l with
    | nil => rfl
    | cons r l ih =>
      rw [List.foldl_cons, fetchNext_disabled (h r (hl r (by simp)))]
      exact ih fun x hx => hl x (by simp [hx])
  exact hf _ fun r hr => ringOrder_lt hr

theorem answerResets_pg (s : State) : (answerResets s).pg = { s.pg with resets := s.pg.resets.filter fun x => discarding x.2 s } :=
  List.foldlRecOn (motive := fun t : State => t.pg = { s.pg with resets := s.pg.resets.filter fun x => discarding x.2 s }) _ _ rfl
    fun _ ht _ _ => ht

theorem answerResets_onlyChanges (s : State) : OnlyChanges [.host, .pg, .out] s (answerResets s) := by
  unfold answerResets
  refine OnlyChanges.trans (t := { s with pg := { s.pg with resets := s.pg.resets.filter fun x => discarding x.2 s } }) ?_
    (OnlyChanges.foldl _ _ _ fun t x => (respond_onlyChanges x.1 ok t).mono (by decide))
  intro p hp
  cases p <;> simp_all [State.agree]

theorem answerResets_keeps (s : State) : s.Keeps (answerResets s) := by
  unfold answerResets
  refine State.Keeps.trans (t := { s with pg := { s.pg with resets := s.pg.resets.filter fun x => discarding x.2 s } }) (.of_eq rfl rfl) ?_
  exact State.Keeps.foldl _ _ _ fun t x => respond_keeps t x.1 ok

/-- With no pages and no ring enabled, all that falls due is the answers of resets. -/
theorem resume_idle {s : State} (hp : s.pg.pages = []) (hr : ∀ r, r < 4 → (s.pg.ring r).enabled = false) :
    fetchAll (resumeBlocks (recordsDue s)) = answerResets s := by
  have e1 : recordsDue s = answerResets s := by simp [recordsDue, hp, writeRecords]
  have e2 : resumeBlocks (answerResets s) = answerResets s := by simp [resumeBlocks, answerResets_pg, hp]
  rw [e1, e2]
  exact fetchAll_disabled fun r h => by rw [answerResets_pg]; exact hr r h

/-- The host has set bus mastering: the function is in D0, with payload and request sizes of R32's ranges (log 3). -/
def mastered (s : State) : State := { s with
  free := s.free + 1 + 1
  host := { s.host with
    busMaster := true, d3hot := false, maxPayload := 128 * 2 ^ (Config.freeNat s.free % 3)
    maxRead := 128 * 2 ^ (Config.freeNat (s.free + 1) % 6) } }

theorem mastered_onlyChanges (s : State) : OnlyChanges [.host, .pg, .free, .out] s (mastered s) := by
  intro p hp
  cases p <;> simp_all [State.agree, mastered]

theorem busMasterEnable_off {s : State} (h : s.host.busMaster = false) :
    execBusMasterEnable s = .next (fetchAll (resumeBlocks (recordsDue (mastered s)))) :=
  congrArg _ (if_neg (by simp [h]))

/-! ## FLR and the link -/

theorem resetFunction_rung {s : State} {c : RungCmd} (h : c ∈ (resetFunction s).host.rung) : c.running = true ∧ c.discard = true ∧ 16 ≤ c.slot := by
  simp only [resetFunction, discardRung, List.mem_map, List.mem_filter] at h
  obtain ⟨b, ⟨-, hb⟩, rfl⟩ := h
  exact ⟨hb, rfl, Nat.le_add_left 16 _⟩

theorem resetFunction_onlyChanges (s : State) : OnlyChanges [.host, .onyx, .insp, .pg, .pers, .pwr] s (resetFunction s) := by
  intro p hp
  cases p <;> simp_all [State.agree, resetFunction, discardRung]

theorem pcieLinkTrained_ready (gen : BitVec 4) (width : BitVec 5) (s : State) (hp : s.host.perstLow = false) (hr : s.pwr.inReset = false)
    (hi : (cell s.pwr.islands 3 {}).on = true) (hl : s.host.idsLoaded = true) :
    execPcieLinkTrained gen width s =
      .next (if gen.toNat < 4 ∨ width.toNat < 4 then
        stickRec .pcieLinkDegraded { s with host := { s.host with linkUp := true, linkInL2 := false, linkGen := gen, linkWidth := width } }
      else { s with host := { s.host with linkUp := true, linkInL2 := false, linkGen := gen, linkWidth := width } }) := by
  have hn : ¬ (s.host.perstLow = true ∨ s.pwr.inReset = true ∨ (!(cell s.pwr.islands 3 {}).on) = true ∨ (!s.host.idsLoaded) = true) := by
    simp only [hp, hr, hi, hl, Bool.not_true, Bool.false_eq_true, or_self, not_false_iff]
  unfold execPcieLinkTrained
  rw [if_neg hn]

theorem functionReset_claim : Claims.FunctionReset := by
  refine ⟨fun s => ⟨rfl, rfl, resetFunction_onlyChanges s, rfl, rfl, rfl, rfl, rfl, rfl, rfl, rfl, rfl, rfl, rfl, fun c => resetFunction_rung⟩,
    fun s hup => ?linkDown, fun gen width s h => ?heldInReset, fun gen width s hp hr hi hl u hu => ?trained, fun s => ⟨rfl, rfl⟩,
    fun s h => ?perstHigh, fun s h => ?perstLow, fun s hb hp hr => ?masterOn, fun s h => congrArg _ (if_pos h)⟩
  case linkDown => exact ⟨linkLost s, _, congrArg _ (if_pos hup), rfl, congrArg HostIf.linkUp (stickRec_keeps _ _ _).host, rfl⟩
  case heldInReset =>
    refine congrArg _ (if_pos ?_)
    rcases h with h | h | h
    · exact .inl h
    · exact .inr (.inr (.inl (by rw [h]; rfl)))
    · exact .inr (.inr (.inr (by rw [h]; rfl)))
  case trained =>
    subst hu
    have e := pcieLinkTrained_ready gen width s hp hr hi hl
    exact ⟨fun h => e.trans (congrArg _ (if_neg (by omega))), fun h => e.trans (congrArg _ (if_pos h))⟩
  case perstHigh => 
    have hn : ¬ (s.host.perstLow = true ∧ s.pwr.state = .sleep) := fun hc => h hc.2
    exact congrArg _ (if_neg hn)
  case perstLow => 
    have hn : ¬ (s.host.linkUp = true ∧ s.pwr.state ≠ .sleep) := by simp [h]
    exact congrArg _ (if_neg hn)
  case masterOn =>
    have e := resume_idle (s := mastered s) hp hr
    have k := (answerResets_keeps (mastered s)).host
    refine ⟨_, (busMasterEnable_off hb).trans (congrArg _ e), congrArg HostIf.busMaster k,
      ⟨_, ?_, congrArg HostIf.maxPayload k⟩, ⟨_, ?_, congrArg HostIf.maxRead k⟩,
      (mastered_onlyChanges s).trans ((answerResets_onlyChanges _).mono (by decide))⟩
    · omega
    · omega

/-! ## Chip reset -/

/-- What a chip reset leaves, before a change of role is reported (R544). -/
def resetParts (cause : Nat) (s : State) : State := { State.reset with
  pers := s.pers.afterReset, pwr := s.pwr.afterReset cause s.pos.mono
  host := { State.reset.host with
    perstLow := s.host.perstLow, activeHalf := s.host.activeHalf, stagedImage := s.host.stagedImage, bootAlt := s.host.bootAlt, qspi := s.host.qspi }
  pending := s.pending, free := s.free, out := s.out }

theorem chipReset_eq (cause : Nat) (s : State) : chipReset cause s =
    if s.twin.role = .listen then resetParts cause s
    else sendVec 3 (event { ev := .roleChanged, p0 := w32 s.twin.role.code, p1 := 3, p2 := 0 } (resetParts cause s)) := rfl

theorem chipReset_onlyChanges (cause : Nat) (s : State) : OnlyChanges [.host, .pers, .out] (resetParts cause s) (chipReset cause s) := by
  rw [chipReset_eq]
  split
  · exact .refl _ _
  · exact (withLog_onlyChanges _ _).trans (withLog_onlyChanges _ _)

theorem chipReset_keeps (cause : Nat) (s : State) : (resetParts cause s).Keeps (chipReset cause s) := by
  rw [chipReset_eq]
  split
  · exact .refl _
  · exact (event_keeps _ _).trans (sendVec_keeps _ 3)

theorem chipReset_pwr (cause : Nat) (s : State) : (chipReset cause s).pwr = s.pwr.afterReset cause s.pos.mono :=
  (chipReset_onlyChanges cause s .pwr (by decide)).symm

theorem cell_map {α β : Type} (f : α → β) (l : List α) {i : Nat} (d : α) (e : β) (h : i < l.length) : cell (l.map f) i e = f (cell l i d) := by
  simp [cell, h]

theorem chipReset_claim : Claims.ChipReset := by
  intro cause s
  have frame := chipReset_onlyChanges cause s
  have khost := (chipReset_keeps cause s).host
  have kpers := (chipReset_keeps cause s).pers
  have hpwr := chipReset_pwr cause s
  refine ⟨(congrArg HostIf.opState khost :), congrArg Twin.role (frame .twin (by decide)).symm, (congrArg Pwr.cause hpwr :), (frame .cg (by decide)).symm,
    (frame .pg (by decide)).symm, (frame .scr (by decide)).symm, (frame .fire (by decide)).symm, (frame .hl (by decide)).symm,
    (frame .insp (by decide)).symm, (frame .cal (by decide)).symm, (frame .pos (by decide)).symm, (frame .axes (by decide)).symm,
    (frame .lamp (by decide)).symm, (frame .twin (by decide)).symm, (frame .onyx (by decide)).symm, (frame .dram (by decide)).symm,
    (congrArg Pers.prf kpers :), (congrArg Pers.alm kpers :), (congrArg Pers.slotA kpers :), (congrArg Pers.slotB kpers :), (congrArg Pers.wear kpers :),
    (congrArg HostIf.qspi khost :), (congrArg HostIf.activeHalf khost :), (congrArg Pwr.wakeKey hpwr :), (congrArg Pwr.wakeEtype hpwr :), fun i hi => ?_,
    (frame .pending (by decide)).symm⟩
  have hc : cell (chipReset cause s).pwr.islands i {} = { islandOff with padHeld := (cell s.pwr.islands i {}).padHeld } :=
    (congrArg (fun p => cell p.islands i {}) hpwr).trans (cell_map (fun x => { islandOff with padHeld := x.padHeld }) _ {} {} hi)
  rw [hc]
  exact ⟨rfl, rfl⟩

/-! ## Beryl's restart -/

theorem unsync_keeps (cause : Nat) (s : State) : s.Keeps (unsync cause s) := by
  unfold unsync
  split
  · exact .refl s
  · split
    · exact State.Keeps.trans (.of_eq rfl rfl) (stickEvent_keeps { s with twin := { s.twin with synced := false } } _ _)
    · split
      · exact stickRec_keeps s _ _
      · exact .refl s

theorem failJoin_keeps (what : Nat) (s : State) : s.Keeps (failJoin what s) := by
  unfold failJoin
  split
  · exact .refl s
  next j _ =>
    extract_lets _ s1 s2
    have h1 : s.Keeps s1 := .of_eq rfl rfl
    exact ((h1.trans (stickRec_keeps s1 _ _)).trans (complete_keeps s2 _ _ _ _ _ _)).trans (unsync_keeps _ _)

theorem completeArm_keeps (g status : Nat) (p0 p1 p2 : Word) (s : State) : s.Keeps (completeArm g status p0 p1 p2 s) := by
  unfold completeArm
  split
  · exact .refl s
  · exact (complete_keeps s _ _ _ _ _ _).trans (.of_eq rfl rfl)

theorem dropResult_keeps (cause : Nat) (s0 : State) : s0.Keeps (dropResult cause s0) := by
  unfold dropResult
  extract_lets s _ s1
  have h : s0.Keeps s := by
    unfold s
    split
    · split
      · exact stickRec_keeps s0 _ _
      · exact .refl s0
    · exact .refl s0
  have h1 : s.Keeps s1 := .of_eq rfl rfl
  exact ((h.trans h1).trans (stickEvent_keeps s1 _ _)).trans (sendVec_keeps _ 6)

theorem abortGroupTo_keeps (again : Bool) (g cause : Nat) (s : State) : s.Keeps (abortGroupTo again g cause s) := by
  unfold abortGroupTo
  extract_lets grp lc s1 ev s2 s3 _ t2 t3
  have h1 : s.Keeps s1 := .of_eq rfl rfl
  have h2 : s1.Keeps s2 := by
    refine State.Keeps.trans ?_ (sendVec_keeps _ 6)
    split
    · exact stickEvent_keeps s1 _ _
    · exact event_keeps s1 _
  have h3 : s.Keeps s3 := (h1.trans h2).trans (.of_eq rfl rfl)
  have k2 : s1.Keeps t2 := by
    unfold t2
    split
    · exact stickRec_keeps s1 _ _
    · exact .refl s1
  have k3 : s.Keeps t3 := (h1.trans k2).trans (completeArm_keeps _ _ _ _ _ t2)
  split
  · exact .refl s
  · split
    · split
      · exact h3.trans (.of_eq rfl rfl)
      · exact h3.trans (dropResult_keeps cause s3)
    · split
      · exact k3.trans (failJoin_keeps 1 t3)
      · exact k3

theorem abortArmed_keeps (cause : Nat) (s : State) : s.Keeps (abortArmed cause s) :=
  .foldl _ _ _ fun t g => abortGroupTo_keeps false g cause t

/-- Beryl has stopped: MBX_READY 0, and what was rung counts as running (R53). -/
def berylStopped (s : State) : State := { s with host := { s.host with
  restarting := true, mbxReady := false, berylRunning := false, bootRomWaiting := false
  rung := s.host.rung.map fun c => { c with running := true } } }

theorem berylRestart_keeps (s : State) : (berylStopped s).Keeps (failJoin 0 (abortArmed 8 (berylStopped s))) :=
  (abortArmed_keeps 8 _).trans (failJoin_keeps 0 _)

theorem berylRestart_eq (s : State) : berylRestart s = dropJobs (failJoin 0 (abortArmed 8 (berylStopped s))) := rfl

theorem berylRestart_rung {s : State} {c : RungCmd} (h : c ∈ (berylRestart s).host.rung) : c.running = true := by
  have hs := (berylRestart_keeps s).rung
  rw [berylRestart_eq] at h
  generalize failJoin 0 (abortArmed 8 (berylStopped s)) = t at h hs
  obtain ⟨b, -, rfl⟩ := List.mem_map.mp (hs.mem h)
  rfl

theorem berylRestart_host (s : State) : (berylRestart s).host.mbxReady = false ∧ (berylRestart s).host.berylRunning = false ∧
    (berylRestart s).host.restarting = true ∧ (berylRestart s).host.heartbeat = s.host.heartbeat := by
  have k := (berylRestart_keeps s).host
  rw [berylRestart_eq]
  generalize failJoin 0 (abortArmed 8 (berylStopped s)) = t at k
  exact ⟨(congrArg HostIf.mbxReady k :), (congrArg HostIf.berylRunning k :), (congrArg HostIf.restarting k :), (congrArg HostIf.heartbeat k :)⟩

theorem failRung_keeps (s : State) : s.Keeps (failRung s) := .foldl _ _ _ fun t c => respond_keeps t c.slot hwFault

theorem failOutstanding_keeps (s : State) : s.Keeps (failOutstanding s) := .foldl _ _ _ fun t _ => completeNow_keeps t _ _ _ _ _ _

theorem failRung_onlyChanges (s : State) : OnlyChanges [.host, .pers, .out] s (failRung s) := .foldl _ _ _ fun t _ => withLog_onlyChanges _ t

theorem failOutstanding_onlyChanges (s : State) : OnlyChanges [.host, .pers, .out] s (failOutstanding s) :=
  .foldl _ _ _ fun t _ => withLog_onlyChanges _ t

/-- Before the image is read again only the log's fields and the note of the restart have changed. -/
theorem berylRestarted_host (s : State) : (berylRestarted s).host.quiet = { s.host.quiet with restarting := false } :=
  congrArg (fun h => { h with restarting := false })
    (((failRung_keeps s).trans (failOutstanding_keeps _)).trans (stickRec_keeps _ .fwRestart 0)).host

theorem berylRestarted_pers (s : State) : (berylRestarted s).pers.quiet = s.pers.quiet :=
  (((failRung_keeps s).trans (failOutstanding_keeps _)).trans (stickRec_keeps _ .fwRestart 0)).pers

theorem berylRestarted_dram (s : State) : (berylRestarted s).dram = s.dram :=
  ((failRung_onlyChanges s).trans (failOutstanding_onlyChanges _) .dram (by decide)).symm

/-- The half marked active boots where it verifies and BOOT_ALT names no other. -/
theorem bootImage_active {s : State} (ha : s.host.bootAlt = false) (hg : imageGood (halfRead s.host s.host.activeHalf) = true) :
    bootImage s = bootHalf s.host.activeHalf (halfRead s.host s.host.activeHalf) s := by
  simp [bootImage, ha, hg]

/-- What a half holds does not depend on the log. -/
theorem readHalves_halfRead {s t : State} (h : t.host.qspi = s.host.qspi) (a b : List Byte) (half : Bool) :
    halfRead (readHalves a b t).host half = halfRead (readHalves a b s).host half := by
  simp only [readHalves, halfRead, h]

/-- The image that the flash holds in the half marked active. -/
theorem rebootImage_active {r : State} {half : Bool} {image : List Byte} (hb : ¬ (r.host.opState = .boot ∧ ¬ r.dram.zeroed = true))
    (ha : r.host.bootAlt = false) (hact : r.host.activeHalf = half)
    (hi : halfRead (readHalves (Config.flashHalf false) (Config.flashHalf true) r).host half = image) (hg : imageGood image = true) :
    rebootImage r = bootHalf half image (readHalves (Config.flashHalf false) (Config.flashHalf true) r) := by
  subst hact hi
  exact (if_neg hb).trans (bootImage_active (s := readHalves _ _ r) ha hg)

theorem berylRestartDone_boots {s u : State} (hr : s.host.restarting = true) (hh : s.onyx.berylHeld = false) (hw : s.pers.writing = none)
    (ha : s.host.bootAlt = false) (ho : s.host.opState ≠ .boot ∨ s.dram.zeroed = true)
    (hu : u = readHalves (Config.flashHalf false) (Config.flashHalf true) s)
    (hg : imageGood (halfRead u.host s.host.activeHalf) = true) :
    execBerylRestartDone s = .next (bootHalf s.host.activeHalf (halfRead u.host s.host.activeHalf)
      (readHalves (Config.flashHalf false) (Config.flashHalf true) (berylRestarted s))) := by
  have khost := berylRestarted_host s
  have hop : (berylRestarted s).host.opState = s.host.opState := (congrArg HostIf.opState khost :)
  have halt : (berylRestarted s).host.bootAlt = false := (congrArg HostIf.bootAlt khost :).trans ha
  have hact : (berylRestarted s).host.activeHalf = s.host.activeHalf := (congrArg HostIf.activeHalf khost :)
  have hhalf := readHalves_halfRead (s := s) (t := berylRestarted s) (congrArg HostIf.qspi khost :) (Config.flashHalf false)
    (Config.flashHalf true) s.host.activeHalf
  have hboot : rebootImage (berylRestarted s) = bootHalf s.host.activeHalf (halfRead u.host s.host.activeHalf)
      (readHalves (Config.flashHalf false) (Config.flashHalf true) (berylRestarted s)) := by
    refine rebootImage_active ?_ halt hact (hu ▸ hhalf) hg
    rw [hop, berylRestarted_dram]
    rintro ⟨h1, h2⟩
    rcases ho with h | h
    · exact h h1
    · exact h2 h
  have hwrite : (bootHalf s.host.activeHalf (halfRead u.host s.host.activeHalf)
      (readHalves (Config.flashHalf false) (Config.flashHalf true) (berylRestarted s))).pers.writing = none :=
    (congrArg Pers.writing (berylRestarted_pers s) :).trans hw
  unfold execBerylRestartDone
  rw [if_neg (by simp [hr, hh])]
  dsimp only
  rw [hboot, hwrite]
  rfl

/-! ## The reset commands -/

theorem sysResetBegin_early {s : State} {kind alt : Bool} {at_ : Dword} (h : s.host.resetReq = some (kind, alt, at_))
    (ht : s.pos.mono.toNat < at_.toNat + 1000000) : execSysResetBegin s = .next s := by
  simp [execSysResetBegin, h, ht]

theorem sysResetBegin_due {s : State} {kind alt : Bool} {at_ : Dword} (h : s.host.resetReq = some (kind, alt, at_))
    (ht : at_.toNat + 1000000 ≤ s.pos.mono.toNat) : execSysResetBegin s = .next (
      if kind then chipReset 3 { s with
        host := { s.host with resetReq := none, bootAlt := alt }, pers := { s.pers with wearStore := s.pers.wear, clean := true } }
      else berylRestart { s with host := { s.host with resetReq := none, bootAlt := alt } }) := by
  unfold execSysResetBegin
  simp only [h]
  rw [if_neg (Nat.not_lt.mpr ht)]
  rfl

theorem resetCommands : Claims.ResetCommands := by
  refine ⟨fun kind alt at_ s h ht => sysResetBegin_early h ht,
    fun alt at_ s h ht => (sysResetBegin_due h ht).trans (congrArg _ (if_pos rfl)),
    fun alt at_ s h ht => (sysResetBegin_due h ht).trans (congrArg _ (if_neg Bool.false_ne_true)), fun s => ?restartBegins,
    fun s u hr hh hw ha ho hu hg => ?restartEnds, fun s h => ?noRestart, fun s => rfl, fun s => rfl, fun s => ⟨rfl, rfl⟩, fun s => ?powerOn,
    fun s h => ?powerOnReleased, fun s => rfl, fun s h ht => ?undervoltage⟩
  case restartBegins =>
    obtain ⟨hm, hb, hr, hh⟩ := berylRestart_host s
    exact ⟨berylRestart s, rfl, hm, hb, hr, fun c => berylRestart_rung, hh, rfl, rfl, rfl, rfl, rfl⟩
  case restartEnds =>
    exact ⟨_, berylRestartDone_boots hr hh hw ha ho hu hg, rfl, rfl, (congrArg HostIf.restarting (berylRestarted_host s) :), rfl⟩
  case noRestart => exact congrArg _ (if_pos (by simp [h]))
  case powerOn =>
    have khost := (chipReset_keeps 0 s).host
    have kpers := (chipReset_keeps 0 s).pers
    exact ⟨_, rfl, rfl, rfl, rfl, (congrArg HostIf.opState khost :), (congrArg Pers.prf kpers :), (congrArg Pers.alm kpers :)⟩
  case powerOnReleased =>
    refine ⟨{ s with
      pwr := { s.pwr with porHeld := false, coreStable := true }
      pers := { s.pers with powerCycles := s.pers.powerCycles + 1, almNext := nextOf (s.pers.alm.map fun p => wd p.2 0) } },
      ?_, fun p hp => ?_, rfl, rfl, fun ha => ?_⟩
    · change execPowerOnReset false s = _
      simp [execPowerOnReset, h]
    · cases p <;> simp_all [State.agree]
    · simp [ha, nextOf]
  case undervoltage => exact congrArg _ (if_neg (by simp [h, ht]))

/-- Settles O13: FLR and the link, what a chip reset leaves, and the reset commands. -/
theorem resets : Obligations.Resets := ⟨functionReset_claim, chipReset_claim, resetCommands⟩

end Sys2Proof.Machine
end

section
/-!
PROOFS. Object lists in ascending order of kind and target (R74, R86): merging a list that was itself merged is merging it at once.
-/
namespace Sys2Proof.Machine

theorem Obj.before_iff (a b : Obj) : a.before b = true ↔ a.kind < b.kind ∨ (a.kind = b.kind ∧ a.target < b.target) := by
  simp [Obj.before]

theorem Obj.before_trans {a b c : Obj} (h : a.before b = true) (k : b.before c = true) : a.before c = true := by
  rw [Obj.before_iff] at *
  omega

theorem Obj.before_asymm {a b : Obj} (h : a.before b = true) : b.before a = false := by
  rw [← Bool.not_eq_true, Obj.before_iff]
  rw [Obj.before_iff] at h
  omega

/-- Two objects of one kind and target come before and after the same objects. -/
theorem Obj.same_key {a b : Obj} (h : ¬ a.before b = true) (k : ¬ b.before a = true) : a.kind = b.kind ∧ a.target = b.target := by
  rw [Obj.before_iff] at h k
  omega

theorem Obj.before_congr_left {a b : Obj} (h : a.kind = b.kind ∧ a.target = b.target) (c : Obj) : a.before c = b.before c := by
  simp [Obj.before, h]

theorem Obj.before_congr_right {a b : Obj} (h : a.kind = b.kind ∧ a.target = b.target) (c : Obj) : c.before a = c.before b := by
  simp [Obj.before, h]

theorem insertObj_comm {a b : Obj} (h : a.before b = true) (l : List Obj) : insertObj a (insertObj b l) = insertObj b (insertObj a l) := by
  induction l with
  | nil => simp [insertObj, h, Obj.before_asymm h]
  | cons x l ih =>
    by_cases hxa : x.before a = true
    · simp [insertObj, hxa, Obj.before_trans hxa h, ih]
    · by_cases hax : a.before x = true
      · by_cases hxb : x.before b = true
        · simp [insertObj, hxa, hax, hxb, h]
        · by_cases hbx : b.before x = true <;> simp [insertObj, hxa, hax, hxb, hbx, h, Obj.before_asymm h]
      · have hk := Obj.same_key hxa hax
        have hxb : x.before b = true := (Obj.before_congr_left hk b).trans h
        simp [insertObj, hxa, hax, hxb, h]

theorem insertObj_same {a b : Obj} (h : a.kind = b.kind ∧ a.target = b.target) (l : List Obj) : insertObj a (insertObj b l) = insertObj a l := by
  have haa : ¬ a.before a = true := by rw [Obj.before_iff]; omega
  have hl := Obj.before_congr_left h
  have hr := Obj.before_congr_right h
  have hba : ¬ b.before a = true := hl a ▸ haa
  have hab : ¬ a.before b = true := hr a ▸ haa
  induction l with
  | nil => simp [insertObj, hba, hab]
  | cons x l ih =>
    by_cases hx : x.before a = true
    · simp [insertObj, hx, ← hr, ih]
    · by_cases hx' : a.before x = true <;> simp [insertObj, hx, hx', ← hr, ← hl, haa]

/-- An ascending list: no two objects of one kind and target. -/
def Ascending (l : List Obj) : Prop := l.Pairwise fun a b => a.before b = true

theorem mem_insertObj {o x : Obj} {l : List Obj} (h : x ∈ insertObj o l) : x = o ∨ x ∈ l := by
  induction l with
  | nil => simpa [insertObj] using h
  | cons y l ih =>
    unfold insertObj at h
    split at h
    · rcases List.mem_cons.mp h with h | h
      · exact .inr (h ▸ List.mem_cons_self)
      · exact (ih h).imp_right (List.mem_cons_of_mem y)
    · split at h
      · exact List.mem_cons.mp h
      · exact (List.mem_cons.mp h).imp_right (List.mem_cons_of_mem y)

theorem insertObj_ascending (o : Obj) {l : List Obj} (h : Ascending l) : Ascending (insertObj o l) := by
  induction l with
  | nil => exact List.pairwise_singleton _ _
  | cons x l ih =>
    obtain ⟨hx, hl⟩ := List.pairwise_cons.mp h
    unfold insertObj
    split
    next hxo =>
      refine List.pairwise_cons.mpr ⟨fun y hy => ?_, ih hl⟩
      rcases mem_insertObj hy with rfl | hy
      · exact hxo
      · exact hx y hy
    next hxo =>
      split
      next hox =>
        refine List.pairwise_cons.mpr ⟨fun y hy => ?_, h⟩
        rcases List.mem_cons.mp hy with rfl | hy
        · exact hox
        · exact Obj.before_trans hox (hx y hy)
      next hox =>
        exact List.pairwise_cons.mpr ⟨fun y hy => (Obj.before_congr_left (Obj.same_key hxo hox) y) ▸ hx y hy, hl⟩

theorem mem_mergeObjs {new old : List Obj} {o : Obj} (h : o ∈ mergeObjs new old) : o ∈ new ∨ o ∈ old := by
  induction new generalizing old with
  | nil => exact .inr h
  | cons a new ih =>
    rcases ih (old := insertObj a old) h with h | h
    · exact .inl (List.mem_cons_of_mem a h)
    · rcases mem_insertObj h with rfl | h
      · exact .inl List.mem_cons_self
      · exact .inr h

/-- An object that comes before all of a list may be put in before or after it. -/
theorem mergeObjs_insertObj_before {o : Obj} {l : List Obj} (h : ∀ x ∈ l, o.before x = true) (m : List Obj) :
    mergeObjs l (insertObj o m) = insertObj o (mergeObjs l m) := by
  induction l generalizing m with
  | nil => rfl
  | cons x l ih =>
    change mergeObjs l (insertObj x (insertObj o m)) = insertObj o (mergeObjs l (insertObj x m))
    rw [← insertObj_comm (h x List.mem_cons_self)]
    exact ih (fun y hy => h y (List.mem_cons_of_mem x hy)) _

theorem mergeObjs_insertObj (o : Obj) {l : List Obj} (h : Ascending l) (m : List Obj) :
    mergeObjs (insertObj o l) m = insertObj o (mergeObjs l m) := by
  induction l generalizing m with
  | nil => rfl
  | cons x l ih =>
    obtain ⟨hx, hl⟩ := List.pairwise_cons.mp h
    by_cases hxo : x.before o = true
    · have e : insertObj o (x :: l) = x :: insertObj o l := by simp [insertObj, hxo]
      rw [e]
      exact ih hl (insertObj x m)
    · by_cases hox : o.before x = true
      · have e : insertObj o (x :: l) = o :: x :: l := by simp [insertObj, hxo, hox]
        rw [e]
        refine mergeObjs_insertObj_before (fun y hy => ?_) m
        rcases List.mem_cons.mp hy with rfl | hy
        · exact hox
        · exact Obj.before_trans hox (hx y hy)
      · have hk := Obj.same_key hox hxo
        have e : insertObj o (x :: l) = o :: l := by simp [insertObj, hxo, hox]
        have hb : ∀ y ∈ l, o.before y = true := fun y hy => (Obj.before_congr_left hk y).trans (hx y hy)
        calc mergeObjs (insertObj o (x :: l)) m = mergeObjs l (insertObj o m) := by rw [e]; rfl
          _ = mergeObjs l (insertObj o (insertObj x m)) := by rw [insertObj_same hk]
          _ = insertObj o (mergeObjs (x :: l) m) := mergeObjs_insertObj_before hb _

theorem mergeObjs_assoc (a : List Obj) {b : List Obj} (h : Ascending b) (m : List Obj) :
    mergeObjs (mergeObjs a b) m = mergeObjs a (mergeObjs b m) := by
  induction a generalizing b with
  | nil => rfl
  | cons x a ih =>
    calc mergeObjs (mergeObjs a (insertObj x b)) m = mergeObjs a (mergeObjs (insertObj x b) m) := ih (insertObj_ascending x h)
      _ = mergeObjs a (insertObj x (mergeObjs b m)) := by rw [mergeObjs_insertObj x h]

/-- The objects of a group may be put in ascending order first (R86). -/
theorem mergeObjs_sorted (a m : List Obj) : mergeObjs (mergeObjs a []) m = mergeObjs a m := mergeObjs_assoc a .nil m

end Sys2Proof.Machine
end

section
/-!
PROOFS. The commit of a group, part of the state by part (R79, R80, R83), and the line boundary (R11, R27, R204, R327).
-/
namespace Sys2Proof.Machine

/-! ## What of the commit leaves the commit groups as they are -/

theorem foldl_cg {α : Type} (g : State → α → State) (l : List α) (s : State) (h : ∀ s x, (g s x).cg = s.cg) : (l.foldl g s).cg = s.cg :=
  List.foldlRecOn (motive := fun t : State => t.cg = s.cg) l g rfl fun t ht x _ => (h t x).trans ht

theorem forAll_cg (l : List Nat) (f : Nat → State → State) (s : State) (h : ∀ n s, (f n s).cg = s.cg) : (forAll l f s).cg = s.cg :=
  foldl_cg _ l s fun s n => h n s

theorem forAll_one (n : Nat) (f : Nat → State → State) (s : State) : forAll [n] f s = f n s := rfl

theorem discardIf_cg (mods : List Nat) (s : State) : (discardIf mods s).cg = s.cg := by
  unfold discardIf
  split
  · split <;> rfl
  · rfl

theorem clearSums_cg (mods : List Nat) (s : State) : (clearSums mods s).cg = s.cg := by
  unfold clearSums
  split <;> rfl

theorem calCommit_cg (objs : List Obj) (lc : Nat) (s : State) : (calCommit objs lc s).cg = s.cg :=
  (discardIf_cg _ _).trans (clearSums_cg _ _)

theorem commitBanks_cg (g : Nat) (s : State) : (commitBanks g s).cg = s.cg :=
  forAll_cg _ _ _ fun m s => by
    dsimp only
    split <;> rfl

theorem switchBanks_cg (g : Nat) (s : State) : (switchBanks g s).cg = s.cg :=
  forAll_cg _ _ _ fun m s => by
    split
    · unfold switchBank1
      split <;> rfl
    · rfl

/-- A group without levels commits none. -/
theorem lampCommit_none {g : Nat} {s : State} (h : ∀ k, objOf (s.cg.group g).objs 13 k = none) (lc : Nat) : lampCommit lc g s = s := by
  simp [lampCommit, forAll, h]

theorem armCam_cg (k : Nat) (s : State) : (armCam k s).cg = s.cg := by
  unfold armCam
  dsimp only
  split
  · rfl
  · split <;> rfl

/-- A segment begins where the camera was in none. -/
theorem beginSeg_cg {k : Nat} {g : CamSeg} {s : State} (hs : (s.cam k).seg = none) (he : cxEnable g.ctx = true) : (beginSeg k g s).cg = s.cg := by
  simp [beginSeg, hs, he]

theorem camCommit_cg (lc base : Nat) (epoch : Word) (k : Nat) (s : State) : (camCommit lc base epoch k s).cg = s.cg := by
  unfold camCommit
  dsimp only
  split
  next hs =>
    split
    next he => exact (armCam_cg _ _).trans (beginSeg_cg hs he)
    next => rfl
  next => exact armCam_cg _ _

theorem writeRecord_cg (p : Page) (s : State) : (writeRecord p s).cg = s.cg := by
  unfold writeRecord
  dsimp only
  split <;> simp [setRing]

theorem writeRecords_cg (fuel : Nat) (s : State) : (writeRecords fuel s).cg = s.cg := by
  induction fuel generalizing s with
  | zero => rfl
  | succ fuel ih =>
    unfold writeRecords
    split
    · rfl
    · split
      · rfl
      · exact (ih _).trans (writeRecord_cg _ s)

theorem recordsDue_cg (s : State) : (recordsDue s).cg = s.cg :=
  ((answerResets_onlyChanges _ .cg (by decide)).symm).trans (writeRecords_cg _ s)

theorem qualityRecord_cg (cams : BitVec 4) (p : Page) (s : State) : (qualityRecord cams p s).cg = s.cg := by
  unfold qualityRecord
  dsimp only
  split <;> split <;> simp [setPage]

theorem qualitiesFor_cg (left : Option Nat) (s : State) : (qualitiesFor left s).cg = s.cg :=
  (recordsDue_cg _).trans (foldl_cg _ _ _ fun s p => qualityRecord_cg _ p s)

theorem upd_upd {α : Type} (l : List α) (i : Nat) (f g : α → α) : upd (upd l i f) i g = upd l i (g ∘ f) := List.modify_modify_eq ..

/-- What commits leaves of a group (R83). -/
def Group.committed (x : Group) : Group := { x with st := .committed, objs := [], bad := [], dPend := [], stopped := false, joinGroup := false }

theorem completeArm_cg (g status : Nat) (p0 p1 p2 : Word) (s : State) : (completeArm g status p0 p1 p2 s).cg = s.cg ∨
    (completeArm g status p0 p1 p2 s).cg = { s.cg with groups := upd s.cg.groups g fun x => { x with armTag := none } } := by
  unfold completeArm
  split
  · exact .inl rfl
  · exact .inr (by simp [setGroup])

/-- A COMMITTED group holds no objects any more (R83). -/
theorem finishGroup_cg {g : Nat} {s : State} (h : (s.cg.group g).ownerCal = false) :
    ∃ f : Group → Group, (finishGroup g s).cg = { s.cg with groups := upd s.cg.groups g f } ∧ ∀ x, (f x).st = .committed ∧ (f x).objs = [] := by
  have hs : ∀ u : State, u.cg = { s.cg with groups := upd s.cg.groups g Group.committed } → ∀ lc e d,
      ∃ f : Group → Group, (completeArm g 0 lc e d u).cg = { s.cg with groups := upd s.cg.groups g f } ∧
        ∀ x, (f x).st = .committed ∧ (f x).objs = [] := by
    intro u hu lc e d
    rcases completeArm_cg g 0 lc e d u with h | h
    · exact ⟨Group.committed, h.trans hu, fun x => ⟨rfl, rfl⟩⟩
    · refine ⟨(fun x => { x with armTag := none }) ∘ Group.committed, h.trans ?_, fun x => ⟨rfl, rfl⟩⟩
      rw [hu, upd_upd]
  unfold finishGroup
  extract_lets grp lc s1
  rw [if_neg (by simp [grp, h])]
  exact hs _ rfl _ _ _

/-! ## A group of tone and screening objects -/

/-- Objects of kinds 5 and 6 hold no JOB_START. -/
theorem keepsNoJob {l : List Obj} (h : ∀ o ∈ l, o.kind = 5 ∨ o.kind = 6) : l.filter (fun o => o.kind != 2) = l := by
  refine List.filter_eq_self.mpr fun o ho => ?_
  rcases h o ho with e | e <;> simp [e]

theorem objOf_none {objs : List Obj} {kind : Nat} (h : ∀ o ∈ objs, o.kind ≠ kind) (target : Nat) : objOf objs kind target = none := by
  simp only [objOf, Option.map_eq_none_iff, List.find?_eq_none]
  intro o ho
  simp [h o ho]

theorem commitBar_none {objs : List Obj} (h : ∀ o ∈ objs, o.kind ≠ 1) (s : State) : commitBar objs s = s :=
  if_pos (by simp [objOf_none h])

theorem commitLimits_none {objs : List Obj} (h1 : ∀ o ∈ objs, o.kind ≠ 1) (h7 : ∀ o ∈ objs, o.kind ≠ 7) (s : State) :
    commitLimits objs s = s := by
  have h : objs.any (fun o => o.kind == 1 || o.kind == 7) = false := by
    simp only [List.any_eq_false]
    intro o ho
    simp [h1 o ho, h7 o ho]
  exact if_pos (by simp [h])

theorem commitPersist_none {g : Nat} {s : State} (h : (s.cg.group g).persist = false) (line epoch : Word) : commitPersist g line epoch s = s :=
  if_pos (by simp [h])

/-- The commit of one group that names no bar, job, map, persistence or levels: its objects replace those in force, and it is COMMITTED. -/
theorem commitAt_one {lc g : Nat} {moving : Bool} {s : State} (hc : (s.cg.group g).ownerCal = false) (hp : (s.cg.group g).persist = false)
    (ho : ∀ o ∈ (s.cg.group g).objs, o.kind = 5 ∨ o.kind = 6) :
    ∃ (c : Commit) (f : Group → Group), (commitAt lc moving [g] s).cg = { c with groups := upd c.groups g f } ∧
      c.groups = s.cg.groups ∧ c.epochNow = s.cg.epochNow ∧
      c.inForce = mergeObjs ((s.cg.group g).objs.filter fun o => o.kind != 2) s.cg.inForce ∧
      ∀ x, (f x).st = .committed ∧ (f x).objs = [] := by
  unfold commitAt
  rw [if_neg (by simp)]
  extract_lets objs kinds line epoch d s1 _ s2 s3 s4 s5 s6 _ s7 s8
  have hobjs : ∀ o ∈ objs, o.kind = 5 ∨ o.kind = 6 := fun o h => (mem_mergeObjs h).elim (ho o) (nomatch ·)
  have hkinds : kinds = objs := keepsNoJob hobjs
  have hnone : ∀ n, n ≠ 5 → n ≠ 6 → ∀ o ∈ kinds, o.kind ≠ n := by
    intro n h5 h6 o h e
    rcases hobjs o (hkinds ▸ h) with h | h
    · exact h5 (e.symm.trans h)
    · exact h6 (e.symm.trans h)
  have h1 : s1.cg = s.cg := calCommit_cg _ _ _
  have hin : s2.cg.inForce = mergeObjs ((s.cg.group g).objs.filter fun o => o.kind != 2) s.cg.inForce :=
    calc mergeObjs kinds s1.cg.inForce = mergeObjs (mergeObjs (s.cg.group g).objs []) s.cg.inForce := by rw [hkinds, h1]; rfl
      _ = mergeObjs ((s.cg.group g).objs.filter fun o => o.kind != 2) s.cg.inForce := by rw [mergeObjs_sorted, keepsNoJob ho]
  have hgroup : s2.cg.groups = s.cg.groups := (congrArg Commit.groups h1 :)
  have hepoch : s2.cg.epochNow = s.cg.epochNow := (congrArg Commit.epochNow h1 :)
  have hgrp : s2.cg.group g = s.cg.group g := (congrArg (fun l => cell l g ({} : Group)) hgroup :)
  clear_value s2
  have h3 : s3 = s2 := (commitLimits_none (hnone 1 (by decide) (by decide)) (hnone 7 (by decide) (by decide)) _).trans
    (commitBar_none (hnone 1 (by decide) (by decide)) _)
  have h4 : s4 = s3 := by
    unfold s4
    rw [objOf_none (hkinds ▸ hnone 2 (by decide) (by decide))]
  have h34 : s4 = s2 := h4.trans h3
  clear_value s4
  have hbanks : (switchBanks g (commitBanks g s4)).cg = s2.cg := by
    rw [switchBanks_cg, commitBanks_cg, h34]
  have h5 : s5.cg = s2.cg := by
    have hlamp : ∀ k, objOf ((switchBanks g (commitBanks g s4)).cg.group g).objs 13 k = none := by
      rw [hbanks, hgrp]
      exact objOf_none fun o h e => by rcases ho o h with h | h <;> omega
    have hl : s5 = lampCommit lc g (switchBanks g (commitBanks g s4)) :=
      forAll_one g (fun g s => lampCommit lc g (switchBanks g (commitBanks g s))) s4
    rw [hl, lampCommit_none hlamp, hbanks]
  clear_value s5
  have h6 : s6.cg = s2.cg := (forAll_cg [0, 1, 2, 3] (camCommit lc s5.cg.imgKeyEpoch s5.cg.epochNow) s5 (camCommit_cg _ _ _)).trans h5
  have h7 : s7.cg = s2.cg := h6
  clear_value s7
  have h8 : s8 = s7 := by
    have hp7 : (s7.cg.group g).persist = false := by rw [h7, hgrp, hp]
    exact (forAll_one g (fun g => commitPersist g line epoch) s7).trans (commitPersist_none hp7 line epoch)
  have h9 : (recordsDue (qualitiesFor (if camsConfigured s = 0 then none else some lc) s8)).cg = s2.cg := by
    rw [recordsDue_cg, qualitiesFor_cg, h8, h7]
  obtain ⟨f, hf, hfx⟩ := finishGroup_cg (g := g) (s := recordsDue (qualitiesFor (if camsConfigured s = 0 then none else some lc) s8))
    (by rw [h9, hgrp]; exact hc)
  refine ⟨s2.cg, f, ?_, hgroup, hepoch, hin, hfx⟩
  rw [forAll_one, hf, h9]

/-! ## The line boundary -/

theorem addCorr_lines (p : Pos) : (addCorr p).high = p.high ∧ (addCorr p).absHigh = p.absHigh := by
  unfold addCorr
  split
  · exact ⟨rfl, rfl⟩
  · split <;> exact ⟨rfl, rfl⟩

theorem addCorr_adds (p : Pos) : (addCorr p).acc = p.acc + BitVec.ofInt 80 p.corr ∧ (addCorr p).corr = 0 ∧ (addCorr p).corrOn = false := by
  unfold addCorr
  split
  next h => simp [h]
  next => dsimp only; split <;> exact ⟨rfl, rfl, rfl⟩

theorem beginBoundary_eq {u v w : State} {B : Nat} (hB : B = u.pos.absHigh + 1) (hj : startsJob B u = true → v = fireDue u)
    (hn : startsJob B u = false → v = u) (hv : v.pos.absHigh = u.pos.absHigh)
    (hw : w = { v with pos := { addCorr v.pos with high := v.pos.high + 1, absHigh := B } }) :
    beginBoundary u = boundaryCore B (commitAt B true (lockedAt B w) w) := by
  have hs : (if startsJob (u.pos.absHigh + 1) u then fireDue u else u) = v := by
    rw [← hB]
    cases h : startsJob B u
    · exact (hn h).symm
    · exact (hj h).symm
  obtain ⟨hhigh, habs⟩ := addCorr_lines v.pos
  unfold beginBoundary
  dsimp only
  rw [hs, hhigh, habs, hv, ← hB, ← hw]

theorem spitDue_iff {s : State} {j : SpitJob} (h : s.fire.spit = some j) : spitDue s = true ↔ 1000000000 ≤ (s.pos.mono - j.tick).toNat * j.rate := by
  simp [spitDue, h]

/-- Settles O26: the boundary is `beginBoundary` where it is due, and the commit of one group is read off `commitAt_one`. -/
theorem lineBoundaries : Obligations.LineBoundaries := by
  refine ⟨fun x s u v w B hu hB hj hn hv hw => ?_,
    fun lc moving s => rfl, fun lc g moving s hg hl hst hc hp ho => ?groupCommits⟩
  obtain ⟨hacc, hcorr, hon⟩ := addCorr_adds v.pos
  refine ⟨fun hd hsp => ?due, hacc, hcorr, hon, fun h => ?notDue, fun h => ?noSpit, fun j h => ⟨fun hle => ?spitTicks, fun hlt => ?spitWaits⟩⟩
  case due =>
    have hb := beginBoundary_eq hB hj hn hv hw
    have hnow : boundaryNow u = true := by simp [boundaryNow, hd, hsp]
    refine ⟨beginBoundary u, ?_, hb, fun hl => ?_⟩
    · change execLineBoundary x s = _
      unfold execLineBoundary
      rw [← hu]
      exact congrArg _ (if_pos hnow)
    · have hc : commitDue u = true := by simpa [commitDue, ← hB] using hl
      change execCgCommit x s = _
      unfold execCgCommit
      rw [← hu]
      exact congrArg _ (if_pos (by simp [hnow, hc]))
  case notDue =>
    have hnow : boundaryNow u = false := by
      rcases h with h | h
      · simp [boundaryNow, h]
      · simp [boundaryNow, Option.isNone_eq_false_iff.mpr h]
    constructor
    · change execLineBoundary x s = _
      unfold execLineBoundary
      rw [← hu]
      exact congrArg _ (if_neg (by simp [hnow]))
    · change execCgCommit x s = _
      unfold execCgCommit
      rw [← hu]
      exact congrArg _ (if_neg (by simp [hnow]))
  case noSpit =>
    change execSpitLine x s = _
    unfold execSpitLine
    rw [← hu]
    exact congrArg _ (if_neg (by simp [spitDue, h]))
  case spitTicks =>
    change execSpitLine x s = _
    unfold execSpitLine
    rw [← hu]
    exact congrArg _ (if_pos ((spitDue_iff h).mpr hle))
  case spitWaits =>
    change execSpitLine x s = _
    unfold execSpitLine
    rw [← hu]
    exact congrArg _ (if_neg fun hd => absurd ((spitDue_iff h).mp hd) (Nat.not_le.mpr hlt))
  case groupCommits =>
    obtain ⟨c, f, hcg, hgroups, hepoch, hin, hf⟩ := commitAt_one (lc := lc) (moving := moving) hc hp ho
    have hgrp : ∀ j, (commitAt lc moving [g] s).cg.group j = if g = j then f (s.cg.group j) else s.cg.group j := by
      intro j
      rw [hcg, hgroups]
      exact cell_upd s.cg.groups g j f {} (hl.symm ▸ hg)
    have hown := (hgrp g).trans (if_pos rfl)
    refine ⟨(congrArg Commit.inForce hcg).trans hin, ?_, ?_, fun j hj => ?_, (congrArg Commit.epochNow hcg).trans hepoch⟩
    · rw [hown]; exact (hf _).1
    · rw [hown]; exact (hf _).2
    · rw [hgrp j, if_neg (Ne.symm hj)]

end Sys2Proof.Machine
end

section
/-!
PROOFS. What a sample moves: the counts of both encoders, the position and the two time scales (R25, R317, R320, R322, R324).
-/
namespace Sys2Proof.Machine

/-! ## The inputs of one sample -/

/-- The clocks of a sample write the filters only (R320). -/
theorem clocks_filt (l : List (Bool × Bool × Bool)) (x : Enc × Int) : ∃ filt, (l.foldl Enc.clock x).1 = { x.1 with filt := filt } := by
  induction l generalizing x with
  | nil => exact ⟨x.1.filt, rfl⟩
  | cons c cs ih =>
    obtain ⟨filt, h⟩ := ih (Enc.clock x c)
    exact ⟨filt, h⟩

/-- What the inputs come to leaves whether the encoder counts, its forward order and its count (R317, R322). -/
theorem front_keeps (k : Nat) (x : EncIn) (e : Enc) :
    (e.front k x).1.counting = e.counting ∧ (e.front k x).1.forward = e.forward ∧ (e.front k x).1.count = e.count := by
  cases x with
  | count d => exact ⟨rfl, rfl, rfl⟩
  | pins l =>
    obtain ⟨filt, h⟩ := clocks_filt l (e, 0)
    unfold Enc.front
    dsimp only
    rw [h]
    exact ⟨rfl, rfl, rfl⟩
  | tracks sine cosine z => exact ⟨rfl, rfl, rfl⟩

/-! ## One encoder, and the position -/

theorem Enc.sample_count (d : Int) (e : Enc) : (e.sample d).count = if e.counting then e.count + wInt d else e.count := by
  unfold Enc.sample
  cases e.counting <;> rfl

theorem Enc.sample_counting (d : Int) (e : Enc) : (e.sample d).counting = e.counting := by
  unfold Enc.sample
  cases h : e.counting <;> exact h

/-- The window of R324 is one of those it lists. -/
theorem Enc.window_mem (e : Enc) : e.window ∈ [16, 32, 64, 128, 256, 512, 1024] := by
  unfold Enc.window
  cases h : [16, 32, 64, 128, 256, 512].find? fun n => decide (4096 ≤ |(e.hist.take n).sum|) with
  | none => decide
  | some n => exact List.mem_append_left [1024] (List.mem_of_find?_eq_some h)

/-- The emulation output leaves the time scale, the encoders and the accumulator. -/
theorem enco_keeps (d : Int) (p : Pos) : (p.enco d).mono = p.mono ∧ (p.enco d).encs = p.encs ∧ (p.enco d).acc = p.acc := by
  unfold Pos.enco
  split
  · exact ⟨rfl, rfl, rfl⟩
  · dsimp only
    split <;> exact ⟨rfl, rfl, rfl⟩

/-- Encoder k after one sample of its inputs. -/
def Enc.sampled (k : Nat) (x : EncIn) (e : Enc) : Enc := (e.front k x).1.sample ((e.front k x).1.forward (e.front k x).2)

theorem Enc.sampled_counting (k : Nat) (x : EncIn) (e : Enc) : (e.sampled k x).counting = e.counting :=
  (Enc.sample_counting _ _).trans (front_keeps k x e).1

theorem Enc.sampled_count (k : Nat) (x : EncIn) (e : Enc) :
    (e.sampled k x).count = if e.counting then e.count + wInt (e.forward (e.front k x).2) else e.count := by
  obtain ⟨hcounting, hforward, hcount⟩ := front_keeps k x e
  unfold Enc.sampled
  rw [Enc.sample_count, hcounting, hforward, hcount]

/-- A sample writes position and time only. -/
theorem sample1_eq (s : State) (x : EncIn × EncIn) : ∃ q : Pos, sample1 s x = { s with pos := q } ∧ q.mono = s.pos.mono + 50 ∧
    q.encs = [(s.pos.enc 0).sampled 0 x.1, (s.pos.enc 1).sampled 1 x.2] ∧
    q.acc = if (s.pos.enc 0).counting then
      s.pos.acc + BitVec.ofInt 80 ((s.pos.enc 0).forward ((s.pos.enc 0).front 0 x.1).2 * (s.cg.lineStep.toNat : Int)) else s.pos.acc := by
  obtain ⟨hcounting, hforward, -⟩ := front_keeps 0 x.1 (s.pos.enc 0)
  have hacc : s.pos.acc + BitVec.ofInt 80 ((if ((s.pos.enc 0).front 0 x.1).1.counting then
        ((s.pos.enc 0).front 0 x.1).1.forward ((s.pos.enc 0).front 0 x.1).2 else 0) * (s.cg.lineStep.toNat : Int)) =
      if (s.pos.enc 0).counting then
        s.pos.acc + BitVec.ofInt 80 ((s.pos.enc 0).forward ((s.pos.enc 0).front 0 x.1).2 * (s.cg.lineStep.toNat : Int)) else s.pos.acc := by
    rw [hcounting, hforward]
    cases (s.pos.enc 0).counting <;> simp
  unfold sample1
  extract_lets p a b f0 d0 e0 e1 acc p1 dp hist n
  split
  · exact ⟨p1, rfl, rfl, rfl, hacc⟩
  · obtain ⟨hmono, hencs, hacc1⟩ := enco_keeps d0 p1
    exact ⟨_, rfl, hmono, hencs, hacc1.trans hacc⟩

theorem onlyChanges_pos (s : State) (q : Pos) : OnlyChanges [.pos] s { s with pos := q } := by
  intro p hp
  cases p <;> simp_all [State.agree]

theorem sample1_onlyChanges (s : State) (x : EncIn × EncIn) : OnlyChanges [.pos] s (sample1 s x) := by
  obtain ⟨q, hq, -⟩ := sample1_eq s x
  exact hq ▸ onlyChanges_pos s q

theorem sample1_mono (s : State) (x : EncIn × EncIn) : (sample1 s x).pos.mono = s.pos.mono + 50 := by
  obtain ⟨q, hq, hmono, -⟩ := sample1_eq s x
  rw [hq, hmono]

/-- Each sample takes 50 ns (R317). -/
theorem advance_mono (samples : Samples) (s : State) : (advance samples s).pos.mono = s.pos.mono + BitVec.ofNat 64 (50 * samples.length) := by
  induction samples generalizing s with
  | nil => simp [advance]
  | cons x xs ih =>
    calc (advance xs (sample1 s x)).pos.mono = s.pos.mono + 50 + BitVec.ofNat 64 (50 * xs.length) := by rw [ih, sample1_mono]
      _ = s.pos.mono + BitVec.ofNat 64 (50 * (xs.length + 1)) := by
        rw [Nat.mul_succ, BitVec.ofNat_add, BitVec.add_assoc, BitVec.add_comm 50]
        rfl

/-- Settles O43: one sample by `sample1_eq`, a row's samples one after another. -/
theorem samplesMove : Obligations.SamplesMove := by
  refine ⟨fun x0 x1 d0 d1 s h0 h1 => ?oneSample, fun k d l e => ⟨rfl, fun h => if_neg h⟩, fun n c b => ⟨if_pos rfl, ?newLevel⟩,
    fun e d => ⟨fun h => by simp [Enc.forward, h], fun h => by simp [Enc.forward, h]⟩, fun n dp h => if_pos h,
    fun samples s => ⟨.foldl _ _ _ sample1_onlyChanges, advance_mono samples s⟩, Enc.window_mem⟩
  case oneSample =>
    obtain ⟨q, hq, hmono, hencs, hacc⟩ := sample1_eq s (x0, x1)
    have henc0 : q.enc 0 = (s.pos.enc 0).sampled 0 x0 := by unfold Pos.enc; rw [hencs]; rfl
    have henc1 : q.enc 1 = (s.pos.enc 1).sampled 1 x1 := by unfold Pos.enc; rw [hencs]; rfl
    subst h0 h1
    rw [hq]
    exact ⟨onlyChanges_pos s q, hmono, (congrArg Enc.count henc0).trans (Enc.sampled_count 0 x0 _),
      (congrArg Enc.count henc1).trans (Enc.sampled_count 1 x1 _), hacc⟩
  case newLevel =>
    unfold filterStep
    rw [if_neg (by simp)]

end Sys2Proof.Machine
end

section
/-!
PROOFS. A slice's line from its start to its end, and the curve banks (R30, R137, R138, R149, R165).
-/
namespace Sys2Proof.Machine

/-! ## What leaves tone path and screening as they are -/

theorem foldl_scr {α : Type} (g : State → α → State) (l : List α) (s : State) (h : ∀ s x, (g s x).scr = s.scr) : (l.foldl g s).scr = s.scr :=
  List.foldlRecOn (motive := fun t : State => t.scr = s.scr) l g rfl fun t ht x _ => (h t x).trans ht

theorem setPermission_scr (side p : Nat) (granted : Bool) (s : State) : (setPermission side p granted s).scr = s.scr := by
  unfold setPermission
  extract_lets cur m new _ s1 e
  have h1 : s1.scr = s.scr := by
    unfold s1
    split <;> rfl
  split
  · rfl
  · split
    · exact h1
    · split <;> exact h1

theorem latchTrip_scr (cause : Nat) (param : Word) (s : State) : (latchTrip cause param s).scr = s.scr := by
  unfold latchTrip
  extract_lets o mask first _ s1 s2 s3
  split
  · rfl
  · exact setPermission_scr 2 4 false s2

theorem onyxSum_scr (m F : Nat) (eG : Option Word) (eFW : Option (Word × Word)) (s : State) : (onyxSum m F eG eFW s).scr = s.scr := by
  unfold onyxSum
  extract_lets old e _ s1 s2
  have h2 : s2.scr = s.scr := by
    unfold s2
    split
    · split
      · exact latchTrip_scr _ _ s1
      · rfl
    · rfl
  split
  · split
    · exact (latchTrip_scr _ _ s2).trans h2
    · exact h2
  · exact h2

theorem unsync_scr (cause : Nat) (s : State) : (unsync cause s).scr = s.scr := by
  unfold unsync
  split
  · rfl
  · split
    · rfl
    · split <;> rfl

theorem compareDigests_scr (line own peer : Word) (s : State) : (compareDigests line own peer s).scr = s.scr := by
  unfold compareDigests
  extract_lets _ s1 _ s2
  split
  · rfl
  · exact unsync_scr 1 s2

theorem countMatch_scr (epoch line own peer prev : Word) (s : State) : (countMatch epoch line own peer prev s).scr = s.scr := by
  unfold countMatch
  split
  · split <;> rfl
  · rfl

theorem peerDigest_scr (epoch line d : Word) (s : State) : (peerDigest epoch line d s).scr = s.scr := by
  unfold peerDigest
  split
  · split
    · rfl
    · exact (countMatch_scr _ _ _ _ _ _).trans (compareDigests_scr _ _ _ s)
  · extract_lets newer
    split <;> rfl

theorem waitingDigests_scr (s : State) : (waitingDigests s).scr = s.scr :=
  foldl_scr _ _ _ fun s x => peerDigest_scr x.1 x.2.1 x.2.2 s

theorem formDigest_scr (s : State) (F : Nat) : (formDigest s F).scr = s.scr := by
  unfold formDigest
  split <;> rfl

theorem formDigests_scr (s : State) : (formDigests s).scr = s.scr := foldl_scr _ _ _ formDigest_scr

/-! ## Fire lines pass on, and the line stays where it is -/

/-- What an update of cells keeps, each cell keeps. -/
theorem cell_upd_keeps {α β : Type} (g : α → β) {f : α → α} (h : ∀ x, g (f x) = g x) (l : List α) (i j : Nat) (d : α) :
    g (cell (upd l i f) j d) = g (cell l j d) := by
  unfold cell upd
  rw [List.getD_eq_getElem?_getD, List.getD_eq_getElem?_getD, List.getElem?_modify]
  cases l[j]? with
  | none => rfl
  | some x =>
    by_cases hij : i = j
    · simp [hij, h]
    · simp [hij]

/-- From `s` to `t` slice m is at the same line, and no drop has been placed and no job has gone on. -/
structure SameLine (m : Nat) (s t : State) : Prop where
  /-- The line in progress. -/
  busy : (t.slice m).busy = (s.slice m).busy
  /-- The next line to begin. -/
  next : (t.slice m).next = (s.slice m).next
  /-- Whether the line in progress came too late. -/
  late : (t.slice m).late = (s.slice m).late
  /-- The drops placed. -/
  placed : t.scr.placed = s.scr.placed
  /-- The save, load or trace in progress. -/
  job : t.scr.job = s.scr.job

namespace SameLine
variable {m : Nat}

theorem refl (s : State) : SameLine m s s := ⟨rfl, rfl, rfl, rfl, rfl⟩

theorem trans {s t u : State} (h : SameLine m s t) (k : SameLine m t u) : SameLine m s u :=
  ⟨k.busy.trans h.busy, k.next.trans h.next, k.late.trans h.late, k.placed.trans h.placed, k.job.trans h.job⟩

theorem of_scr {s t : State} (h : t.scr = s.scr) : SameLine m s t := by
  have hs : t.slice m = s.slice m := congrArg (fun x : Screen => cell x.slices m {}) h
  exact ⟨hs ▸ rfl, hs ▸ rfl, hs ▸ rfl, h ▸ rfl, h ▸ rfl⟩

theorem foldl {α : Type} (g : State → α → State) (l : List α) (s : State) (h : ∀ s x, SameLine m s (g s x)) : SameLine m s (l.foldl g s) :=
  List.foldlRecOn (motive := SameLine m s) l g (refl s) fun t ht x _ => ht.trans (h t x)

theorem setSlice {f : Slice → Slice} {s : State} {j : Nat} (hb : ∀ x, (f x).busy = x.busy) (hn : ∀ x, (f x).next = x.next)
    (hl : ∀ x, (f x).late = x.late) : SameLine m s (setSlice j f s) :=
  ⟨cell_upd_keeps Slice.busy hb _ _ _ _, cell_upd_keeps Slice.next hn _ _ _ _, cell_upd_keeps Slice.late hl _ _ _ _, rfl, rfl⟩

end SameLine

theorem assemble_sameLine (m : Nat) (s : State) (F : Nat) : SameLine m s (assemble m s F) := by
  unfold assemble
  extract_lets e _ s1
  have h1 : SameLine m s s1 := ⟨rfl, rfl, rfl, rfl, rfl⟩
  have h2 : SameLine m s1 (setSlice m (fun sl => { sl with esum := e, passed := F + 1 }) s1) := by
    refine .setSlice ?_ ?_ ?_ <;> exact fun _ => rfl
  exact (h1.trans h2).trans (.of_scr (onyxSum_scr m F _ none _))

theorem passOn_sameLine (m L : Nat) (s : State) : SameLine m s (passOn m L s) := .foldl _ _ s (assemble_sameLine m)

theorem noteLineDone_sameLine (m : Nat) (s : State) : SameLine m s (noteLineDone s) := by
  unfold noteLineDone
  extract_lets last
  split
  · exact .refl s
  · exact ⟨rfl, rfl, rfl, rfl, rfl⟩

/-! ## The end of a line -/

/-- The slices are the 16 of R137, so a change of one is seen. -/
theorem slice_setSlice {m : Nat} {f : Slice → Slice} {s : State} (h : m < s.scr.slices.length) : (setSlice m f s).slice m = f (s.slice m) :=
  (cell_upd s.scr.slices m m f {} h).trans (if_pos rfl)

/-- A line that no save, load or trace waits for ends with its drops placed, unless it came too late. -/
theorem lineDone_ends {m L : Nat} {s : State} (hj : s.scr.job = none) (hm : m < s.scr.slices.length) :
    ((lineDone m L s).slice m).busy = none ∧ ((lineDone m L s).slice m).next = L + 1 ∧ ((lineDone m L s).slice m).late = false ∧
      (lineDone m L s).scr.placed = s.scr.placed ++ (if (s.slice m).late then [] else (s.slice m).result) := by
  unfold lineDone
  extract_lets sl ds _ s1 s2 s3
  have h2 : s2.slice m = { s1.slice m with busy := none, result := [], late := false, next := L + 1 } := slice_setSlice hm
  have h3 : SameLine m s2 s3 := (passOn_sameLine m L s2).trans (noteLineDone_sameLine m _)
  have hjob : s3.scr.job = none := h3.job.trans hj
  rw [hjob]
  exact ⟨h3.busy.trans (congrArg Slice.busy h2), h3.next.trans (congrArg Slice.next h2), h3.late.trans (congrArg Slice.late h2), h3.placed⟩

theorem sliceLineDone_ends {m : Fin 16} {L : Nat} {s : State} (hb : (s.slice m).busy = some L) (hj : s.scr.job = none)
    (hl : s.scr.slices.length = 16) :
    ∃ t, execSliceLineDone m s = .next t ∧ (t.slice m).busy = none ∧ (t.slice m).next = L + 1 ∧ (t.slice m).late = false ∧
      t.scr.placed = s.scr.placed ++ (if (s.slice m).late then [] else (s.slice m).result) := by
  obtain ⟨hbusy, hnext, hlate, hplaced⟩ := lineDone_ends (L := L) hj (m.isLt.trans_eq hl.symm)
  have hsame : SameLine m (lineDone m L s) (waitingDigests (formDigests (lineDone m L s))) :=
    .of_scr ((waitingDigests_scr _).trans (formDigests_scr _))
  refine ⟨_, ?_, hsame.busy.trans hbusy, hsame.next.trans hnext, hsame.late.trans hlate, hsame.placed.trans hplaced⟩
  unfold execSliceLineDone
  rw [hb]

/-! ## The start of a line, and the curve banks -/

theorem slices : Claims.Slices := by
  refine ⟨fun m L u s hn hb hL hm hu => ?starts, fun m s h => ?waits, fun m L s => sliceLineDone_ends, fun m g s hg hp => ?bankLoads,
    fun m s h => congrArg Host.Outcome.next (if_pos h)⟩
  case starts =>
    have hstarts : ¬ ((s.slice m).busy.isSome ∨ (s.slice m).next > s.pos.absHigh + 16 ∨ (m : Nat) ≥ (barOf (objsAt (s.slice m).next s)).modules) := by
      subst hn
      simp only [hb, Option.isSome_none, Bool.false_eq_true, false_or, not_or, not_lt, not_le]
      exact ⟨hL, hm⟩
    subst hn hu
    exact congrArg Host.Outcome.next (if_neg hstarts)
  case waits => exact congrArg Host.Outcome.next (if_pos (h.imp_right Or.inl))
  case bankLoads =>
    change execCurveBankLoad m s = _
    unfold execCurveBankLoad
    rw [hg]
    exact congrArg Host.Outcome.next (if_pos hp)

end Sys2Proof.Machine
end

section
/-!
PROOFS. The screening commands and what becomes of their jobs (R168, R170, R172 to R176).
-/
namespace Sys2Proof.Machine

/-! ## A command that is refused -/

theorem pick_append_of_none {l : List (Bool × Ans)} (h : pick l = none) (m : List (Bool × Ans)) : pick (l ++ m) = pick m := by
  induction l with
  | nil => rfl
  | cons x l ih =>
    obtain ⟨hx, hl⟩ := List.forall_mem_cons.mp ((pick_none_iff _).mp h)
    obtain ⟨c, a⟩ := x
    subst hx
    rw [List.cons_append, pick, ih ((pick_none_iff l).mpr hl)]
    cases pick m <;> rfl

/-- A check that passes gives no answer. -/
theorem pick_passed {x : Bool × Ans} (h : x.1 = false) (l : List (Bool × Ans)) : pick (x :: l) = pick l :=
  pick_append_of_none ((pick_none_iff [x]).mpr (by simpa using h)) l

theorem pick_false (a : Ans) (l : List (Bool × Ans)) : pick ((false, a) :: l) = pick l := pick_passed rfl l

theorem pick_failed (a : Ans) : pick [(true, a)] = some a := rfl

/-- A command that its own checks refuse answers so and does nothing else. -/
theorem command_refused {op minWords : Nat} {k : Fin 16} {c : RungCmd} {s : State} {checks : State → List Word → List (Bool × Ans)}
    {effect : Word → List Word → State → State × Option Ans} (h : Rung op minWords k c s) {a : Ans} (hp : pick (checks s c.payload) = some a) :
    command op minWords k checks effect s = respond k a (begun k s) := by
  have hw : ¬ c.payloadWords < minWords := Nat.not_lt.mpr h.words
  have hn : pick ([(c.headerBad, badParam 0xFFFE), (decide (c.payloadWords < minWords), badParam 0xFFFF)] ++ served op s ++
      (if c.headerBad || decide (c.payloadWords < minWords) then [] else checks s c.payload)) = some a := by
    have hcommon : pick ([(c.headerBad, badParam 0xFFFE), (decide (c.payloadWords < minWords), badParam 0xFFFF)] ++ served op s) = none :=
      (pick_append_none _ _).mpr ⟨by simp [pick_none_iff, h.header, hw], h.served⟩
    rw [pick_append_of_none hcommon, if_neg (by simp [h.header, hw]), hp]
  unfold command
  rw [h.waiting]
  simp only [h.opcode, h.starts, and_self, if_true, hn]
  rfl

/-! ## Operands -/

/-- A word below 2^n has no bit outside the mask of n bits. -/
theorem reserved_clear {w : Word} {n : Nat} (h : w.toNat < 2 ^ n) : w &&& ~~~ BitVec.ofNat 32 (2 ^ n - 1) = 0 := by
  apply BitVec.eq_of_getLsbD_eq
  intro i hi
  rw [BitVec.getLsbD_and, BitVec.getLsbD_not, BitVec.getLsbD_ofNat, Nat.testBit_two_pow_sub_one]
  by_cases hn : i < n
  · simp [hn, hi]
  · have hw : w.getLsbD i = false := Nat.testBit_lt_two_pow (h.trans_le (Nat.pow_le_pow_right (by norm_num) (Nat.le_of_not_lt hn)))
    simp [hw]

theorem reservedW_passes {ws : List Word} {i : Nat} {mask : Word} (h : wd ws i &&& ~~~ mask = 0) : (reservedW ws i mask).1 = false := by
  simp [reservedW, h]

theorem notBoot_passes {s : State} (h : s.host.opState ≠ .boot) : (notBoot s).1 = false := by
  simp [notBoot, inBoot, h]

theorem completionsFull_passes {s : State} (h : s.host.outst.length < 16) : (completionsFull s).1 = false := by
  simp [completionsFull, h]

theorem fld_of_lt {w : Word} {n : Nat} (h : w.toNat < 2 ^ n) : fld w 0 n = w.toNat := Nat.mod_eq_of_lt h

theorem zero_or_one {w : Word} (h : w.toNat < 2) : w = 0 ∨ w = 1 := by
  have h2 : w.toNat = 0 ∨ w.toNat = 1 := by omega
  exact h2.imp BitVec.eq_of_toNat_eq BitVec.eq_of_toNat_eq

/-! ## Little-endian fields and the CRC of an image -/

theorem leN_cons (b : Byte) (bs : List Byte) (i n : Nat) : leN (b :: bs) (i + 1) n = leN bs i n := by
  induction n generalizing i with
  | zero => rfl
  | succ n ih => rw [leN, leN, ih]; rfl

theorem leN_append (a b : List Byte) (n : Nat) : leN (a ++ b) a.length n = leN b 0 n := by
  induction a with
  | nil => rfl
  | cons x a ih => exact (leN_cons x (a ++ b) a.length n).trans ih

/-- A number's little-endian bytes read back (R12). -/
theorem leN_bytesLE (n x : Nat) (t : List Byte) : leN (bytesLE n x ++ t) 0 n = x % 256 ^ n := by
  induction n generalizing x with
  | zero => exact (Nat.mod_one x).symm
  | succ n ih =>
    have hb : by8 (bytesLE (n + 1) x ++ t) 0 = x % 256 := BitVec.toNat_ofNat x 8
    rw [leN, hb, show bytesLE (n + 1) x ++ t = BitVec.ofNat 8 x :: (bytesLE n (x / 256) ++ t) from rfl, leN_cons, ih, Nat.pow_succ',
      Nat.mod_mul]

theorem length_bytesLE (n x : Nat) : (bytesLE n x).length = n := by
  induction n generalizing x with
  | zero => rfl
  | succ n ih => exact congrArg Nat.succ (ih _)

theorem length_wordBytes (ws : List Word) : (wordBytes ws).length = 4 * ws.length := by
  simp [wordBytes, length_bytesLE, mul_comm]

theorem reflect_lt (n x : Nat) : reflect n x < 2 ^ n := by
  induction n generalizing x with
  | zero => exact Nat.one_pos
  | succ n ih =>
    have := ih (x / 2)
    unfold reflect
    rw [Nat.pow_succ']
    split <;> omega

theorem crc32c_lt (bs : List Byte) : crc32c bs < 2 ^ 32 := Nat.xor_lt_two_pow (reflect_lt 32 _) (by norm_num)

/-- The check value of an image is the CRC-32C of the image with 0 in its place (R168). -/
theorem rowImage_check {modules : Nat} {epoch line : Word} {pages digest : Nat} {cols img : List Byte}
    (h : img = rowImage modules epoch line pages digest cols) : le32 img 60 = crc32c (img.take 60 ++ zeros 4 ++ img.drop 64) := by
  unfold rowImage at h
  extract_lets head at h
  have hhead : head.length = 60 := length_wordBytes _
  clear_value head
  rw [List.append_assoc] at h
  have hfield : le32 img 60 = crc32c (head ++ zeros 4 ++ cols) := by
    rw [h, ← hhead]
    unfold le32
    rw [leN_append, leN_bytesLE]
    exact Nat.mod_eq_of_lt (crc32c_lt _)
  have htake : img.take 60 = head := by
    rw [h, List.take_left' hhead]
  have hdrop : img.drop 64 = cols := by
    rw [h, ← List.append_assoc, List.drop_left' (by simp [hhead, length_bytesLE])]
  rw [hfield, htake, hdrop]

/-! ## The commands -/

section
variable {k : Fin 16} {c : RungCmd} {s : State}

theorem scrGetStatus_answers (h : Rung 0x0400 1 k c s) (hb : s.host.opState ≠ .boot) (hw : (c.w 0).toNat < 2) :
    execScrGetStatus k s = .next (respond k
      (okWith [s.scr.rowOmit, s.scr.deadOmit, s.scr.lateLines, s.scr.deadColDrops, s.scr.deadCols, s.scr.doneLine])
      (if c.w 0 = 1 then { begun k s with scr := { s.scr with rowOmit := 0, deadOmit := 0, lateLines := 0, deadColDrops := 0, deadCols := 0 } }
        else begun k s)) := by
  have hclear : (if flag (c.w 0) 0 then { begun k s with scr := { s.scr with
        rowOmit := 0, deadOmit := 0, lateLines := 0, deadColDrops := 0, deadCols := 0 } } else begun k s) =
      if c.w 0 = 1 then { begun k s with scr := { s.scr with rowOmit := 0, deadOmit := 0, lateLines := 0, deadColDrops := 0, deadCols := 0 } }
        else begun k s := by
    rcases zero_or_one hw with h | h <;> rw [h] <;> rfl
  refine congrArg Host.Outcome.next (command_done h ?_ (congrArg (fun t => (t, some _)) hclear))
  simp only [passes_cons, passes_nil, and_true]
  exact ⟨reservedW_passes (reserved_clear (n := 1) hw), notBoot_passes hb⟩

theorem scrRowStateSave_answers {L : Nat} (h : Rung 0x0401 6 k c s) (h0 : c.w 0 = 0) (h1 : (c.w 1).toNat % 4096 = 0)
    (h3 : rowImageSize s.cg.modules ≤ (c.w 3).toNat) (hl : namedLine (c.w 4) (c.w 5) s = some L) (hj : s.scr.job = none)
    (hs : s.host.opState = .ready ∨ s.host.opState = .print ∨ s.host.opState = .service) (ho : s.host.outst.length < 16) :
    (anyBegan L s = false → execScrRowStateSave k s = .next (respond k accepted (outstand 0x0401 c.tag 0
      { begun k s with scr := { s.scr with job := some (.save c.tag (wn64 c.payload 1) (c.w 4) (c.w 5) L 0 []) } }))) ∧
    (anyBegan L s = true → execScrRowStateSave k s = .next (respond k late (begun k s))) := by
  have h0 : (reservedW c.payload 0 0).1 = false := reservedW_passes (by rw [show wd c.payload 0 = 0 from h0]; rfl)
  have h1 : (wn c.payload 1 % 4096 != 0) = false := by simpa [wn, RungCmd.w] using h1
  have h3 : decide (wn c.payload 3 < rowImageSize s.cg.modules) = false := decide_eq_false (Nat.not_lt.mpr h3)
  have hl : namedLine (wd c.payload 4) (wd c.payload 5) s = some L := hl
  have hs : (!(s.host.opState == .ready || s.host.opState == .print || s.host.opState == .service)) = false := by
    rcases hs with h | h | h <;> rw [h] <;> rfl
  constructor
  · intro hn
    refine congrArg Host.Outcome.next (command_done h ?_ ?_)
    · simp only [passes_cons, passes_nil, h0, h1, h3, hl, hj, hs, hn, completionsFull_passes ho, Option.isNone_some, Option.isSome_none,
        Bool.false_and, and_self]
    · have hL : (namedLine (wd c.payload 4) (wd c.payload 5) (begun k s)).getD 0 = L := congrArg (Option.getD · 0) hl
      dsimp only
      rw [hL]
      rfl
  · intro hn
    refine congrArg Host.Outcome.next (command_refused h ?_)
    simp only [pick_passed h0, pick_passed (completionsFull_passes ho), pick_false, pick_failed, h1, h3, hl, hj, hs, hn, Option.isNone_some,
      Option.isSome_none, Bool.false_and]

theorem scrRowStateLoad_answers (h : Rung 0x0402 4 k c s) (h0 : c.w 0 = 0) (h1 : (c.w 1).toNat % 4096 = 0) (hj : s.scr.job = none)
    (hr : s.twin.role = .listen ∨ s.twin.role = .standby) (hb : s.host.opState ≠ .boot) (ho : s.host.outst.length < 16) :
    execScrRowStateLoad k s = .next (respond k accepted (readHost (wn64 c.payload 1) (c.w 3).toNat (outstand 0x0402 c.tag 0
      { begun k s with scr := { s.scr with job := some (.load (some c.tag) none 0 []) } }))) := by
  refine congrArg Host.Outcome.next (command_done h ?_ rfl)
  have hrole : (!(s.twin.role == .listen || s.twin.role == .standby)) = false := by
    rcases hr with h | h <;> rw [h] <;> rfl
  have h0' : (reservedW c.payload 0 0).1 = false := reservedW_passes (by rw [show wd c.payload 0 = 0 from h0]; rfl)
  have h1' : (wn c.payload 1 % 4096 != 0) = false := by simpa [wn, RungCmd.w] using h1
  simp only [passes_cons, passes_nil, h0', h1', hj, hrole, notBoot_passes hb, completionsFull_passes ho, Option.isSome_none, and_self]

theorem scrTrace_answers {L : Nat} (h : Rung 0x0403 3 k c s) (hc : (c.w 0).toNat < colsPer * s.cg.modules) (hw : (c.w 0).toNat < 65536)
    (hl : namedLine (c.w 1) (c.w 2) s = some L) (hj : s.scr.job = none) (hb : s.host.opState ≠ .boot) (ho : s.host.outst.length < 16)
    (hbusy : (s.slice ((c.w 0).toNat / colsPer)).busy ≠ some L) (hnext : (s.slice ((c.w 0).toNat / colsPer)).next ≤ L) :
    execScrTrace k s = .next (respond k accepted (outstand 0x0403 c.tag 0
      { begun k s with scr := { s.scr with job := some (.trace c.tag (c.w 0).toNat (c.w 1) L) } })) := by
  have hcol : fld (wd c.payload 0) 0 16 = (c.w 0).toNat := fld_of_lt (n := 16) hw
  have hl0 : namedLine (wd c.payload 1) (wd c.payload 2) s = some L := hl
  have hl1 : namedLine (wd c.payload 1) (wd c.payload 2) (begun k s) = some L := hl
  refine congrArg Host.Outcome.next (command_done h ?_ ?_)
  · have h0 : (reservedW c.payload 0 0xFFFF).1 = false := reservedW_passes (reserved_clear (n := 16) hw)
    have hbegun : (decide (L < (s.slice ((c.w 0).toNat / colsPer)).next) || (s.slice ((c.w 0).toNat / colsPer)).busy == some L) = false := by
      simp [hbusy, hnext]
    simp only [passes_cons, passes_nil, h0, hcol, hl0, hj, notBoot_passes hb, completionsFull_passes ho, decide_eq_false (Nat.not_le.mpr hc),
      hbegun, Option.isNone_some, Option.isSome_none, Bool.false_and, and_self]
  · dsimp only
    rw [hl1, hcol]
    rfl

end

/-! ## The ends of a save and of a load's fetch -/

section
variable {s : State} {tag : Word}

/-- The image of a save whose slices have all been captured (R168, R174). -/
def savedImage (ep ln : Word) (L pages : Nat) (parts : List (Nat × List Byte)) (s : State) : List Byte :=
  let mods := (barOf (objsAt L s)).modules
  rowImage mods ep ln pages (stateDigest (objsAt L s) mods) ((List.range mods).flatMap fun m => (find? parts m).getD [])

/-- A save whose slices have all been captured ends with the write of its image (R174). -/
theorem scrRowStateSaveDone_ends {a L p : Nat} {ep ln : Word} {parts : List (Nat × List Byte)}
    (hj : s.scr.job = some (.save tag a ep ln L p parts)) (hp : (barOf (objsAt L s)).modules ≤ parts.length) (writeOk : Bool) :
    execScrRowStateSaveDone writeOk s = .next (if writeOk && s.host.busMaster then
      complete 0x0401 tag 0 (w32 (savedImage ep ln L p parts s).length) (w32 (le32 (savedImage ep ln L p parts s) 60)) 0
        (emit (.dmaWrite a (savedImage ep ln L p parts s)) { s with scr := { s.scr with job := none } })
      else complete 0x0401 tag 0x30 0 0 0 { s with scr := { s.scr with job := none } }) := by
  unfold execScrRowStateSaveDone
  rw [hj]
  exact congrArg Host.Outcome.next (if_neg (Nat.not_lt.mpr hp))

theorem failJoin_none {what : Nat} (h : s.twin.joining = none) : failJoin what s = s := by
  unfold failJoin
  rw [h]

/-- A load of a command that no join has made: each end of its fetch (R175). -/
theorem scrRowStateFetched_ends {L : Nat} {taken : List Nat} (hj : s.scr.job = some (.load (some tag) none L taken)) (ht : s.twin.joining = none)
    {u : State} (hu : u = { s with scr := { s.scr with job := none } }) :
    execScrRowStateFetched none s = .next (complete 0x0402 tag 0x30 0 0 0 u) ∧
    (∀ img a, (imageCheck img s = (1, a) → execScrRowStateFetched (some img) s = .next (complete 0x0402 tag 0x41 0 0 0 u)) ∧
      (imageCheck img s = (2, a) → execScrRowStateFetched (some img) s = .next (complete 0x0402 tag 0x41 1 0 0 u)) ∧
      (imageCheck img s = (3, a) → execScrRowStateFetched (some img) s = .next (complete 0x0402 tag 0x21 0 0 0 u)) ∧
      (imageCheck img s = (0, a) → execScrRowStateFetched (some img) s =
        .next { s with scr := { s.scr with job := some (.load (some tag) (some img) a []) } })) := by
  have hfail : ∀ st p0, failJoin 2 (complete 0x0402 tag st p0 0 0 u) = complete 0x0402 tag st p0 0 0 u := by
    intro st p0
    apply failJoin_none
    rw [complete_twin, hu]
    exact ht
  subst hu
  have hend : ∀ image t, rowStateFetched image s = t → execScrRowStateFetched image s = .next t := fun image t h => congrArg Host.Outcome.next h
  refine ⟨hend none _ ?_, fun img a => ⟨fun h => hend (some img) _ ?_, fun h => hend (some img) _ ?_, fun h => hend (some img) _ ?_,
    fun h => hend (some img) _ ?_⟩⟩
  · unfold rowStateFetched
    rw [hj]
    exact hfail _ _
  all_goals
    unfold rowStateFetched
    rw [hj]
    dsimp only
    rw [h]
  · exact hfail _ _
  · exact hfail _ _
  · exact hfail _ _
  · rfl

end

theorem screeningCommands : Claims.ScreeningCommands := by
  refine ⟨fun k c s h hb hw => scrGetStatus_answers h hb hw, fun k c s L h h0 h1 h3 hl hj hs ho => scrRowStateSave_answers h h0 h1 h3 hl hj hs ho,
    fun tag a ep ln L p parts s hj hp => ?saved, fun k c s h h0 h1 hj hr hb ho => scrRowStateLoad_answers h h0 h1 hj hr hb ho,
    fun tag L taken s u hj ht hu => scrRowStateFetched_ends hj ht hu,
    fun k c s L h hc hw hl hj hb ho hbusy hnext => scrTrace_answers h hc hw hl hj hb ho hbusy hnext⟩
  case saved =>
    have hend := scrRowStateSaveDone_ends hj hp
    exact ⟨hend false, fun hm => (hend true).trans (by simp [hm]),
      fun hm => ⟨savedImage ep ln L p parts s, _, (hend true).trans (by simp [hm]), rfl, rowImage_check rfl⟩⟩

/-- Settles O30: a line's end by `lineDone_ends`, a command by its checks and its effect. -/
theorem slicesAndScreening : Obligations.SlicesAndScreening := ⟨slices, screeningCommands⟩

end Sys2Proof.Machine
end

section
/-!
PROOFS. The step, GLOBAL_STATE and IRQ_MIRROR (R39, R49, R53, R62).
-/
namespace Sys2Proof.Machine

/-- Settles O1: by the two cases of the queue. -/
theorem stepRunsFrontCommand : Obligations.StepRunsFrontCommand :=
  ⟨fun c rest s h => by rw [step, h], fun s h => by rw [step, h]⟩

/-! ## GLOBAL_STATE -/

theorem OpState.code_le (o : OpState) : o.code ≤ 4 := by cases o <;> decide

theorem Role.code_lt (r : Role) : r.code < 4 := by cases r <;> decide

theorem PwrState.code_bounds (p : PwrState) : 1 ≤ p.code ∧ p.code ≤ 4 := by cases p <;> decide

/-- An operating state has a code of its own. -/
theorem OpState.code_inj {a b : OpState} : a = b ↔ a.code = b.code := by cases a <;> cases b <;> decide

theorem Role.code_inj {a b : Role} : a = b ↔ a.code = b.code := by cases a <;> cases b <;> decide

theorem PwrState.code_inj {a b : PwrState} : a = b ↔ a.code = b.code := by cases a <;> cases b <;> decide

theorem b2n_le (b : Bool) : b2n b ≤ 1 := by cases b <;> decide

/-- The fields of GLOBAL_STATE hold the codes of R39. -/
theorem globalState_fields (s : State) : fld (globalState s) 0 3 = s.host.opState.code ∧ fld (globalState s) 4 2 = s.twin.role.code ∧
    fld (globalState s) 8 3 = s.pwr.state.code := by
  have ho := s.host.opState.code_le
  have hr := s.twin.role.code_lt
  have hp := s.pwr.state.code_bounds
  have h1 := b2n_le s.host.mbxReady
  have h2 := b2n_le s.host.firing
  have h3 := b2n_le s.onyx.safeOk
  have h4 := b2n_le (s.onyx.hpwrA && s.onyx.hpwrB)
  simp only [fld, bits, globalState, w32, BitVec.toNat_ofNat, Nat.shiftRight_eq_div_pow]
  omega

/-- Settles O7: each field is the code of its state, which no other state has. -/
theorem globalStateFields : Obligations.GlobalStateFields := by
  intro s
  obtain ⟨ho, hr, hp⟩ := globalState_fields s
  refine ⟨_, globalState s, rfl, congrArg State.out (readOut_eq _ _ _), ?_⟩
  rw [ho, hr, hp]
  exact ⟨OpState.code_inj, OpState.code_inj, OpState.code_inj, OpState.code_inj, OpState.code_inj, OpState.code_le _,
    Role.code_inj, Role.code_inj, Role.code_inj, Role.code_inj,
    PwrState.code_inj, PwrState.code_inj, PwrState.code_inj, PwrState.code_inj, PwrState.code_bounds _⟩

/-! ## IRQ_MIRROR -/

theorem bar0Word_irqMirror (s : State) : bar0Word 0x1100 s = s.host.pba.setWidth 32 := BitVec.ofNat_toNat 32 _

theorem bar0Write_irqMirror (v : Word) (s : State) : bar0Write 0x1100 v s = s := by
  obtain ⟨h1, h2⟩ := (plainWord_iff 0x1100).mpr (by decide)
  unfold bar0Write
  rw [if_neg h1, if_neg h2]
  rfl

/-- Settles O8: the word read is the PBA widened, and no register stands at the offset for a write to change. -/
theorem irqMirror : Obligations.IrqMirror := by
  refine ⟨fun s v hv => ?_, fun s i hi => ?_, rfl, fun v s hl hn => ?_⟩
  · rw [bar0Word_irqMirror, BitVec.getLsbD_setWidth]
    simp [show v < 32 by omega]
  · rw [bar0Word_irqMirror, BitVec.getLsbD_setWidth, BitVec.getLsbD_of_ge _ _ hi, Bool.and_false]
  · match v, hl with
    | [some b0, some b1, some b2, some b3], _ =>
      exact (registerWrite_word _ _ _ _ _ _ (by decide) (by decide)).trans (congrArg _ (bar0Write_irqMirror _ _))
    | [none, _, _, _], _ => simp at hn
    | [some _, none, _, _], _ => simp at hn
    | [some _, some _, none, _], _ => simp at hn
    | [some _, some _, some _, none], _ => simp at hn

end Sys2Proof.Machine
end

section
/-!
PROOFS. Doorbells, acknowledgements and command slots (R34, R42, R46, R47).
-/
namespace Sys2Proof.Machine

/-! ## Setting a sticky bit of misuse -/

/-- Setting and recording bit k drops no record of the queue (R520): the bit is set already, or the queue is not full. -/
def State.recordsFreely (k : Sticky) (s : State) : Prop := flag (wd s.host.stk k.n) k.b = true ∨ s.pers.almQueue.length < 16

theorem Log.send_slots (v : Nat) (l : Log) : (l.send v).host.slotState = l.host.slotState ∧ (l.send v).host.rung = l.host.rung ∧
    (l.send v).host.stk = l.host.stk := by
  unfold Log.send
  split <;> exact ⟨rfl, rfl, rfl⟩

theorem Log.stick_slots (k : Sticky) (l : Log) : (l.stick k).host.slotState = l.host.slotState ∧ (l.stick k).host.rung = l.host.rung := by
  unfold Log.stick
  dsimp only
  split
  · exact ⟨rfl, rfl⟩
  · split
    · obtain ⟨hs, hr, -⟩ := Log.send_slots 2 { l with host := { l.host with
        stk := upd l.host.stk k.n (fun w => w ||| (1#32 <<< k.b))
        stkFirst := upd l.host.stkFirst k.n (fun f => if wd l.host.stk k.n = 0 then some (BitVec.ofNat 5 k.b) else f) } }
      exact ⟨hs, hr⟩
    · exact ⟨rfl, rfl⟩

/-- A record that finds room in the queue changes nothing of the host interface. -/
theorem Log.record_room {l : Log} (r : AlmRec) (h : l.pers.almQueue.length < 16) : (l.record r).host = l.host := by
  unfold Log.record
  dsimp only
  rw [if_pos h]

theorem stickRec_slots {k : Sticky} {s : State} (h : s.recordsFreely k) :
    (stickRec k s).host.slotState = s.host.slotState ∧ (stickRec k s).host.rung = s.host.rung := by
  obtain ⟨hs, hr⟩ := Log.stick_slots k s.log
  rw [stickRec_host]
  unfold Log.stickRec
  split
  next => exact ⟨rfl, rfl⟩
  next hf =>
    have hq : (s.log.stick k).pers.almQueue.length < 16 := by
      rw [Log.stick_pers]
      exact h.resolve_left hf
    rw [Log.record_room _ hq]
    exact ⟨hs, hr⟩

theorem flag_or_bit (w : Word) {b : Nat} (hb : b < 32) : flag (w ||| (1#32 <<< b)) b = true := by
  change (w ||| (1#32 <<< b)).getLsbD b = true
  simp [hb]

theorem flag_or_left {w v : Word} {b : Nat} (h : flag w b = true) : flag (w ||| v) b = true := by
  change (w ||| v).getLsbD b = true
  rw [BitVec.getLsbD_or, show w.getLsbD b = true from h, Bool.true_or]

/-- A defined bit is 1 once it has been set. -/
theorem Log.stick_sets {k : Sticky} {l : Log} (hd : flag (wd Config.stkDefined k.n) k.b = true) (hs : l.host.StkSound) :
    flag (wd (l.stick k).host.stk k.n) k.b = true := by
  obtain ⟨hn, hb⟩ := flag_lt _ _ hd
  obtain ⟨e, -, -⟩ := l.stick_parts k hd
  rw [e, wd_upd _ _ _ _ (hs.stkLen.symm ▸ hn), if_pos rfl]
  exact flag_or_bit _ hb

/-- Setting one bit clears no other. -/
theorem Log.stick_keepsFlag (k : Sticky) {l : Log} {n b : Nat} (h : flag (wd l.host.stk n) b = true) (hs : l.host.StkSound) :
    flag (wd (l.stick k).host.stk n) b = true := by
  by_cases hd : flag (wd Config.stkDefined k.n) k.b = true
  · obtain ⟨hn, -⟩ := flag_lt _ _ hd
    obtain ⟨e, -, -⟩ := l.stick_parts k hd
    rw [e, wd_upd _ _ _ _ (hs.stkLen.symm ▸ hn)]
    split
    · exact flag_or_left h
    · exact h
  · unfold Log.stick
    simpa [hd] using h

theorem Log.respond_stkSame (slot : Nat) (a : Ans) (l : Log) : (l.respond slot a).host.stk = l.host.stk := by
  unfold Log.respond
  split
  · rfl
  · dsimp only
    split
    · rfl
    · split
      · rfl
      · exact (Log.send_slots 0 _).2.2

/-- A record clears no sticky bit. -/
theorem Log.record_keepsFlag (r : AlmRec) {l : Log} {n b : Nat} (h : flag (wd l.host.stk n) b = true) (hs : l.host.StkSound) :
    flag (wd (l.record r).host.stk n) b = true := by
  unfold Log.record
  dsimp only
  split
  · exact h
  · split
    · rw [Log.respond_stkSame]
      exact Log.stick_keepsFlag _ h hs
    · exact Log.stick_keepsFlag _ h hs

theorem Log.stickRec_sets {k : Sticky} {l : Log} (line : Word) (source : Nat) (hd : flag (wd Config.stkDefined k.n) k.b = true)
    (hs : l.host.StkSound) : flag (wd (l.stickRec line k source).host.stk k.n) k.b = true := by
  unfold Log.stickRec
  split
  · assumption
  · exact Log.record_keepsFlag _ (Log.stick_sets hd hs) (Log.stick_stk k l hs)

/-! ## Slots that change hands -/

/-- What a doorbell and an acknowledgement do with one slot: from one state to another, with the commands this rings, or the bit of misuse. -/
def turnSlot (dflt src dst : SlotState) (rings : List (List Word) → Nat → List RungCmd) (misuse : Sticky) (s : State) (slot : Nat) : State :=
  if cell s.host.slotState slot dflt = src then
    { s with host := { s.host with
      slotState := upd s.host.slotState slot (fun _ => dst), rung := s.host.rung ++ rings s.host.cmdSlots slot } }
  else stickRec misuse s

theorem ring_eq : ring = turnSlot .device .host .device (fun slots k => [{ slot := k, words := cell slots k [] }]) .doorbellMisuse := rfl

theorem acknowledge_eq : acknowledge = turnSlot .host .done .host (fun _ _ => []) .ackMisuse := by
  funext s slot
  simp [acknowledge, turnSlot]

/-- What becomes of the slots of a list that are turned one after another. -/
structure Turned (src dst : SlotState) (rings : List (List Word) → Nat → List RungCmd) (misuse : Sticky) (slots : List Nat) (s t : State) :
    Prop where
  frame : OnlyChanges [.host, .pers, .out] s t
  slotState : ∀ k, k < 16 → cell t.host.slotState k .host =
    if k ∈ slots ∧ cell s.host.slotState k .host = src then dst else cell s.host.slotState k .host
  rung : t.host.rung = s.host.rung ++ (slots.filter fun k => cell s.host.slotState k .host == src).flatMap (rings s.host.cmdSlots)
  cmdSlots : t.host.cmdSlots = s.host.cmdSlots
  misused : flag (wd s.host.stk misuse.n) misuse.b = true ∨ (∃ k ∈ slots, cell s.host.slotState k .host ≠ src) →
    flag (wd t.host.stk misuse.n) misuse.b = true

theorem cell_default {α : Type} {l : List α} {i : Nat} (d e : α) (h : i < l.length) : cell l i d = cell l i e := by
  simp [cell, h]

section
variable {dflt src dst : SlotState} {rings : List (List Word) → Nat → List RungCmd} {misuse : Sticky}

theorem turnSlots (hd : flag (wd Config.stkDefined misuse.n) misuse.b = true) {slots : List Nat} (hu : slots.Nodup) (hk : ∀ k ∈ slots, k < 16)
    {s : State} (hl : s.host.slotState.length = 16) (hs : s.StkSound) (hq : s.recordsFreely misuse) :
    Turned src dst rings misuse slots s (slots.foldl (turnSlot dflt src dst rings misuse) s) := by
  induction slots generalizing s with
  | nil => exact ⟨.refl _ s, fun k _ => by simp, by simp, rfl, fun h => h.resolve_right (by simp)⟩
  | cons j slots ih =>
    obtain ⟨hj, hks⟩ := List.forall_mem_cons.mp hk
    obtain ⟨hjn, hus⟩ := List.nodup_cons.mp hu
    have hjl : j < s.host.slotState.length := hl.symm ▸ hj
    have hne : ∀ k ∈ slots, j ≠ k := fun k hk e => hjn (e ▸ hk)
    rw [List.foldl_cons, turnSlot, cell_default dflt .host hjl]
    split
    next hc =>
      have hcell := fun k => cell_upd s.host.slotState j k (fun _ => dst) .host hjl
      have T := ih hus hks (s := { s with host := { s.host with
        slotState := upd s.host.slotState j (fun _ => dst), rung := s.host.rung ++ rings s.host.cmdSlots j } })
        (by simpa using hl) hs hq
      refine ⟨((onlyChanges_host s _).mono (by decide)).trans T.frame, fun k hk => ?_, ?_, T.cmdSlots, fun h => T.misused ?_⟩
      · rw [T.slotState k hk, hcell]
        by_cases e : j = k
        · subst e; simp [hjn, hc]
        · simp [e, Ne.symm e]
      · have hf : slots.filter (fun k => cell (upd s.host.slotState j (fun _ => dst)) k .host == src) =
            slots.filter (fun k => cell s.host.slotState k .host == src) :=
          List.filter_congr fun k hk => by rw [hcell, if_neg (hne k hk)]
        rw [T.rung, hf]
        simp [hc]
      · refine h.imp id fun ⟨k, hk, hx⟩ => ?_
        rcases List.mem_cons.mp hk with rfl | hk
        · exact absurd hc hx
        · exact ⟨k, hk, by rwa [hcell, if_neg (hne k hk)]⟩
    next hc =>
      obtain ⟨hslot, hrung⟩ := stickRec_slots hq
      have hset : flag (wd (stickRec misuse s).host.stk misuse.n) misuse.b = true := Log.stickRec_sets _ 0 hd hs
      have T := ih hus hks (s := stickRec misuse s) (hslot ▸ hl) (stickRec_stk misuse s 0 hs) (.inl hset)
      have hcmd : (stickRec misuse s).host.cmdSlots = s.host.cmdSlots := (congrArg HostIf.cmdSlots (stickRec_keeps s misuse 0).host :)
      refine ⟨(withLog_onlyChanges _ s).trans T.frame, fun k hk => ?_, ?_, T.cmdSlots.trans hcmd, fun _ => T.misused (.inl hset)⟩
      · rw [T.slotState k hk, hslot]
        by_cases e : k = j
        · subst e; simp [hc, hjn]
        · simp [e]
      · rw [T.rung, hrung, hslot, hcmd]
        simp [hc]

theorem mem_slotsOf {mask : BitVec 16} {k : Nat} : k ∈ slotsOf mask ↔ k < 16 ∧ mask.getLsbD k = true := by
  simp [slotsOf]

/-- The slots a mask names, turned in ascending order. -/
theorem turnNamed (hd : flag (wd Config.stkDefined misuse.n) misuse.b = true) (mask : BitVec 16) {s : State}
    (hl : s.host.slotState.length = 16) (hs : s.StkSound) (hq : s.pers.almQueue.length < 16) :
    Turned src dst rings misuse (slotsOf mask) s ((slotsOf mask).foldl (turnSlot dflt src dst rings misuse) s) :=
  turnSlots hd (List.nodup_range.filter _) (fun _ hk => (mem_slotsOf.mp hk).1) hl hs (.inr hq)

theorem Turned.named {mask : BitVec 16} {s t : State} (h : Turned src dst rings misuse (slotsOf mask) s t) :
    (∀ k, k < 16 → cell t.host.slotState k .host =
      if mask.getLsbD k = true ∧ cell s.host.slotState k .host = src then dst else cell s.host.slotState k .host) ∧
    ((∃ k, k < 16 ∧ mask.getLsbD k = true ∧ cell s.host.slotState k .host ≠ src) → flag (wd t.host.stk misuse.n) misuse.b = true) := by
  refine ⟨fun k hk => ?_, fun ⟨k, hk, hm, hx⟩ => h.misused (.inr ⟨k, mem_slotsOf.mpr ⟨hk, hm⟩, hx⟩)⟩
  simp only [h.slotState k hk, mem_slotsOf, hk, true_and]

end

theorem doorbells : Claims.Doorbells := by
  intro mask s hl hs hq
  have T := turnNamed (dflt := .device) (src := .host) (dst := .device)
    (rings := fun slots k => [{ slot := k, words := cell slots k [] }]) (misuse := .doorbellMisuse) (by decide) mask hl hs hq
  rw [← ring_eq] at T
  obtain ⟨hslot, hmis⟩ := T.named
  refine ⟨_, rfl, T.frame, hslot, T.rung.trans ?_, T.cmdSlots, hmis⟩
  rw [slotsOf, List.filter_filter, List.map_eq_flatMap]
  simp only [Bool.and_comm]

/-! ## The bytes of a command slot -/

theorem leN_lt (bs : List Byte) (i n : Nat) : leN bs i n < 256 ^ n := by
  induction n generalizing i with
  | zero => simp [leN]
  | succ n ih =>
    have hb : by8 bs i < 256 := (bs.getD i 0).isLt
    have := ih (i + 1)
    rw [leN, pow_succ]
    omega

/-- The bytes of a little-endian number are the bytes it was read from. -/
theorem bytesLE_leN (bs : List Byte) {i n : Nat} (h : i + n ≤ bs.length) : bytesLE n (leN bs i n) = (bs.drop i).take n := by
  induction n generalizing i with
  | zero => simp [bytesLE]
  | succ n ih =>
    have hb : by8 bs i < 256 := (bs.getD i 0).isLt
    have hi : i < bs.length := by omega
    have hhead : BitVec.ofNat 8 (by8 bs i + 256 * leN bs (i + 1) n) = bs[i] := by
      apply BitVec.eq_of_toNat_eq
      simp only [by8, BitVec.toNat_ofNat, List.getD_eq_getElem _ _ hi, Nat.add_mul_mod_self_left]
      exact Nat.mod_eq_of_lt (bs[i]).isLt
    have htail : (by8 bs i + 256 * leN bs (i + 1) n) / 256 = leN bs (i + 1) n := by omega
    rw [leN, bytesLE, hhead, htail, ih (by omega), List.drop_eq_getElem_cons hi, List.take_succ_cons]

theorem wordBytes_bytesToWords (bs : List Byte) {i n : Nat} (h : i + 4 * n ≤ bs.length) :
    wordBytes (bytesToWords bs i n) = (bs.drop i).take (4 * n) := by
  induction n generalizing i with
  | zero => simp [bytesToWords, wordBytes]
  | succ n ih =>
    have hw : (w32 (le32 bs i)).toNat = leN bs i 4 := by
      rw [w32, BitVec.toNat_ofNat]
      exact Nat.mod_eq_of_lt (leN_lt bs i 4)
    have hcons : wordBytes (bytesToWords bs i (n + 1)) = bytesLE 4 (w32 (le32 bs i)).toNat ++ wordBytes (bytesToWords bs (i + 4) n) := rfl
    rw [hcons, hw, bytesLE_leN bs (by omega), ih (by omega), Nat.mul_succ, Nat.add_comm (4 * n), List.take_add, List.drop_drop]

/-- The bytes of a slot after a write: those written, and the others as they were. -/
theorem patchBytes_byte {ws : List Word} {off i : Nat} {bs : List Byte} (hi : i < 4 * ws.length) :
    (wordBytes (patchBytes ws off bs)).getD i 0 =
      if off ≤ i ∧ i < off + bs.length then bs.getD (i - off) 0 else (wordBytes ws).getD i 0 := by
  have hl : i < (wordBytes ws).length := (length_wordBytes ws).symm ▸ hi
  unfold patchBytes
  rw [wordBytes_bytesToWords _ (by simp [length_wordBytes])]
  simp [hi, hl]

theorem commandSlotWrite_free {k : Fin 16} {s : State} (h : cell s.host.slotState k .host ≠ .device) (off : Nat) (bytes : List Byte) :
    execCommandSlotWrite k off bytes s =
      .next { s with host := { s.host with cmdSlots := upd s.host.cmdSlots k (fun ws => patchBytes ws off bytes) } } :=
  congrArg _ (if_neg h)

theorem acksAndSlotWrites : Claims.AcksAndSlotWrites := by
  refine ⟨fun mask s hl hs hq => ?acks, fun k off bytes s h => congrArg _ (if_pos h), fun k off bytes s h _ hn hw => ?written⟩
  case acks =>
    have T := turnNamed (dflt := .host) (src := .done) (dst := .host) (rings := fun _ _ => []) (misuse := .ackMisuse) (by decide) mask hl hs hq
    rw [← acknowledge_eq] at T
    obtain ⟨hslot, hmis⟩ := T.named
    exact ⟨_, rfl, T.frame, hslot, T.rung.trans (by simp), hmis⟩
  case written =>
    have hc := fun j => cell_upd s.host.cmdSlots k j (fun ws => patchBytes ws off bytes) [] (hn.symm ▸ k.isLt)
    refine ⟨_, commandSlotWrite_free h off bytes, onlyChanges_host s _, fun i hi => ?_, fun j hj => ?_⟩
    · rw [hc, if_pos rfl]
      exact patchBytes_byte (by rw [hw]; exact hi)
    · rw [hc, if_neg (Ne.symm hj)]

/-- Settles O10: the slots a mask names are turned one by one, each on its own; a write patches the slot's bytes. -/
theorem slotsAndDoorbells : Obligations.SlotsAndDoorbells := ⟨doorbells, acksAndSlotWrites⟩

end Sys2Proof.Machine
end

section
/-!
PROOFS. Answering a command, the order of statuses and of the commands themselves (R43, R44, R48, R49, R51, R53).
-/
namespace Sys2Proof.Machine

/-! ## The response -/

/-- The log with the response of command c in its slot, before its message (R43, R44, R48). -/
def Log.answered (slot : Nat) (a : Ans) (c : RungCmd) (l : Log) : Log := { l with host := { l.host with
  rung := dropRung slot l.host.rung
  rspSlots := upd l.host.rspSlots slot fun old =>
    [(wd c.words 0 &&& 0xFFFF) ||| w32 (a.status * 65536), wd c.words 1, w32 (a.payload.length + 65536 * a.detail), nextSeq l.host.lastSeq] ++
      a.payload ++ old.drop (4 + a.payload.length)
  lastSeq := nextSeq l.host.lastSeq
  slotState := upd l.host.slotState slot fun _ => .done } }

/-- The message of a response goes out unless QUIET is set or RESP_IRQ_EN is 0. -/
theorem Log.respond_running {slot : Nat} (a : Ans) {c : RungCmd} {l : Log}
    (h : l.host.rung.find? (fun x => x.slot == slot && x.running) = some c) (hd : c.discard = false) :
    l.respond slot a = if flag (wd c.words 0) 17 || !l.host.respIrqEn then l.answered slot a c else (l.answered slot a c).send 0 := by
  unfold Log.respond
  rw [h]
  dsimp only
  rw [if_neg (by simp [hd])]
  rfl

/-- A response that an FLR discarded only takes its command off the list (R35). -/
theorem Log.respond_discarded {slot : Nat} (a : Ans) {c : RungCmd} {l : Log}
    (h : l.host.rung.find? (fun x => x.slot == slot && x.running) = some c) (hd : c.discard = true) :
    l.respond slot a = { l with host := { l.host with rung := dropRung slot l.host.rung } } := by
  unfold Log.respond
  rw [h]
  dsimp only
  rw [if_pos hd]

/-- Sending a message changes the PBA at most. -/
theorem Log.send_host (v : Nat) (l : Log) : ∃ p, (l.send v).host = { l.host with pba := p } := by
  unfold Log.send
  split
  · exact ⟨l.host.pba, rfl⟩
  · exact ⟨_, rfl⟩

/-- After a response the host interface is as `answered` has it, but for a message that pends. -/
theorem Log.respond_host {slot : Nat} (a : Ans) {c : RungCmd} {l : Log}
    (h : l.host.rung.find? (fun x => x.slot == slot && x.running) = some c) (hd : c.discard = false) :
    ∃ p, (l.respond slot a).host = { (l.answered slot a c).host with pba := p } := by
  rw [Log.respond_running a h hd]
  split
  · exact ⟨l.host.pba, rfl⟩
  · exact Log.send_host 0 _

/-- Word 0 of a response: the opcode below the status. -/
theorem response_word0 (w : Word) {status : Nat} (h : status < 65536) :
    (w &&& 0xFFFF) ||| w32 (status * 65536) = w32 (fld w 0 16 + 65536 * status) := by
  have hlow : w.toNat &&& 65535 = w.toNat % 2 ^ 16 := Nat.and_two_pow_sub_one_eq_mod w.toNat 16
  have hor := Nat.shiftLeft_add_eq_or_of_lt (Nat.mod_lt w.toNat (Nat.two_pow_pos 16)) status
  apply BitVec.eq_of_toNat_eq
  rw [BitVec.toNat_or, BitVec.toNat_and, w32, w32, BitVec.toNat_ofNat, BitVec.toNat_ofNat, Nat.mod_eq_of_lt (a := status * 65536) (by omega)]
  change w.toNat &&& 65535 ||| status * 65536 = (w.toNat % 2 ^ 16 + 65536 * status) % 2 ^ 32
  rw [hlow, Nat.or_comm, show status * 65536 = status <<< 16 by rw [Nat.shiftLeft_eq], ← hor, Nat.shiftLeft_eq]
  omega

theorem nextSeq_ne_zero (w : Word) : nextSeq w ≠ 0 := by
  unfold nextSeq
  split
  · decide
  · bv_omega

theorem responses : Claims.Responses := by
  refine ⟨fun k a c s hf hd hl hr hs _ _ => ?_, fun k a c s hf hd => ?_⟩
  · obtain ⟨p, hh⟩ := Log.respond_host (l := s.log) a hf hd
    have hrun := Log.respond_running (l := s.log) a hf hd
    extract_lets t seq
    have hth : t.host = { (s.log.answered k a c).host with pba := p } := hh
    refine ⟨congrArg HostIf.lastSeq hth, nextSeq_ne_zero s.host.lastSeq, ?slotDone, ?response, fun hq he hv => ?sent, fun h => ?quiet,
      respond_onlyChanges k a s⟩
    case slotDone =>
      rw [hth]
      exact (cell_upd s.host.slotState k k (fun _ => .done) .host (hl.symm ▸ k.isLt)).trans (if_pos rfl)
    case response =>
      rw [hth]
      refine (congrArg (List.take _) ((cell_upd s.host.rspSlots k k _ [] (hr.symm ▸ k.isLt)).trans (if_pos rfl))).trans ?_
      rw [List.take_left' (by simp; omega), response_word0 _ hs]
      rfl
    case sent =>
      have he' : (flag (wd c.words 0) 17 || !s.log.host.respIrqEn) = false := by simp [hq, State.log, he]
      have hv' : (s.log.answered k a c).host.vecOpen 0 = true := hv
      rw [he'] at hrun
      exact congrArg Log.out (hrun.trans (if_pos hv'))
    case quiet =>
      have he' : (flag (wd c.words 0) 17 || !s.log.host.respIrqEn) = true := by
        rcases h with h | h <;> simp [h, State.log]
      rw [he'] at hrun
      exact ⟨congrArg Log.out hrun, congrArg (fun l => l.host.pba) hrun⟩
  · have h := Log.respond_discarded (l := s.log) a hf hd
    exact ⟨congrArg (fun l => l.host.lastSeq) h, congrArg (fun l => l.host.rspSlots) h, congrArg (fun l => l.host.slotState) h,
      congrArg Log.out h⟩

/-! ## The order of statuses -/

theorem answerOrder : Claims.AnswerOrder := by
  intro l
  induction l with
  | nil => intro a h; cases h
  | cons x l ih =>
    obtain ⟨c, a⟩ := x
    intro b hb
    cases hl : pick l with
    | none =>
      have hno := (pick_none_iff l).mp hl
      cases c with
      | false => simp [pick, hl] at hb
      | true =>
        obtain rfl : a = b := by simpa [pick, hl] using hb
        refine ⟨by simp, fun d hd => ?_⟩
        rcases List.mem_cons.mp hd with e | hd
        · cases e; exact le_rfl
        · cases hno _ hd
    | some p =>
      obtain ⟨hp, hmin⟩ := ih p hl
      by_cases hc : (c && decide (rank a ≤ rank p)) = true
      · obtain rfl : a = b := by simpa [pick, hl, hc] using hb
        obtain ⟨rfl, hle⟩ : c = true ∧ rank a ≤ rank p := by simpa using hc
        refine ⟨by simp, fun d hd => ?_⟩
        rcases List.mem_cons.mp hd with e | hd
        · cases e; exact le_rfl
        · exact hle.trans (hmin d hd)
      · obtain rfl : p = b := by simpa [pick, hl, hc] using hb
        refine ⟨List.mem_cons_of_mem _ hp, fun d hd => ?_⟩
        rcases List.mem_cons.mp hd with e | hd
        · cases e
          exact Nat.le_of_not_le fun h => hc (by simpa using h)
        · exact hmin d hd

/-! ## The order of the ring -/

theorem waiting_slot {k : Nat} {c : RungCmd} {h : HostIf} (hw : h.waiting k = some c) : c.slot = k := by
  have := List.find?_some hw
  simp only [Bool.and_eq_true, beq_iff_eq] at this
  exact this.1

/-- What holds a command back: MBX_READY 0, a command rung before it, or that it runs already. -/
theorem not_startable {k : Nat} {c b : RungCmd} {h : HostIf} (hw : h.waiting k = some c)
    (hb : h.mbxReady = false ∨ (b ∈ rungBefore k h.rung ∧ (b.subsystem = c.subsystem ∨ b.ordered = true ∨ c.ordered = true)) ∨
      c.running = true) : startable h c = false := by
  rw [← Bool.not_eq_true]
  intro hs
  simp only [startable, Bool.and_eq_true, Bool.not_eq_true', List.all_eq_true, Bool.or_eq_true, List.isEmpty_iff, waiting_slot hw,
    bne_iff_ne] at hs
  obtain ⟨⟨⟨⟨hready, hrun⟩, -⟩, hbefore⟩, hord⟩ := hs
  rcases hb with h | ⟨hm, h | h | h⟩ | h
  · simp [h] at hready
  · exact (hbefore b hm).1 h
  · exact Bool.false_ne_true ((hbefore b hm).2.symm.trans h)
  · rcases hord with ho | he
    · simp [h] at ho
    · simp [he] at hm
  · simp [h] at hrun

theorem ringOrder_claim : Claims.RingOrder := by
  intro k c b s hw h
  have hs := not_startable hw h
  exact ⟨congrArg _ (command_held hw hs), congrArg _ (command_held hw hs), congrArg _ (command_held hw hs), congrArg _ (command_held hw hs)⟩

/-- Settles O11: the response as `answered` writes it, the order of statuses by induction on the checks, the order of the ring by what holds a
command back. -/
theorem runningCommands : Obligations.RunningCommands := ⟨responses, answerOrder, ringOrder_claim⟩

end Sys2Proof.Machine
end

section
/-!
PROOFS. The event queue and the interrupts (R50, R53, R56, R57, R59, R60).
-/
namespace Sys2Proof.Machine

/-! ## EVQ_TAIL -/

/-- A tail in range, the queue not having overflowed: no event comes of it. -/
theorem evqTail_inRange {v : Word} {s : State} (hr : (s.host.evqHead - v).toNat ≤ 64) (ho : s.host.evqOverflowed = false) :
    evqTail v s = { s with host := { s.host with
      evqTail := v, unsig := s.host.unsig.map fun q => q.filter fun x => !freed v x.1, outst := s.host.outst.filter fun o => match o.evIdx with
        | some i => !freed v i
        | none => true } } :=
  (if_neg (Nat.not_lt.mpr hr)).trans (if_neg fun h => Bool.false_ne_true (ho.symm.trans h.1))

/-! ## The entries of the queue -/

/-- The entries of the event queue, its head, and the events it has lost. -/
structure EntryRing where
  /-- The entries (R54). -/
  evq : List (List Word)
  /-- EVQ_HEAD. -/
  head : Word
  /-- EVQ_LOST. -/
  lost : Word

/-- What the host interface holds of them. -/
def HostIf.entries (h : HostIf) : EntryRing := ⟨h.evq, h.evqHead, h.evqLost⟩

namespace Log
variable (l : Log)

theorem send_entries (v : Nat) : (l.send v).host.entries = l.host.entries := by
  unfold send
  split <;> rfl

theorem stick_entries (k : Sticky) : (l.stick k).host.entries = l.host.entries := by
  unfold stick
  dsimp only
  split
  · rfl
  · split
    · exact send_entries _ 2
    · rfl

theorem respond_entries (slot : Nat) (a : Ans) : (l.respond slot a).host.entries = l.host.entries := by
  unfold respond
  split
  · rfl
  · dsimp only
    split
    · rfl
    · split
      · rfl
      · exact send_entries _ 0

theorem record_entries (r : AlmRec) : (l.record r).host.entries = l.host.entries := by
  unfold record
  dsimp only
  split
  · rfl
  · split
    · exact (respond_entries _ _ _).trans (stick_entries _ _)
    · exact stick_entries _ _

theorem stickRec_entries (line : Word) (k : Sticky) (source : Nat) : (l.stickRec line k source).host.entries = l.host.entries := by
  unfold stickRec
  split
  · rfl
  · exact (record_entries _ _).trans (stick_entries l k)

theorem signal_entries (now : Bool) (i : Word) (v : Nat) : (l.signal now i v).host.entries = l.host.entries := by
  unfold signal
  dsimp only
  split
  · exact send_entries _ v
  · rfl

/-- An entry is written at the head, and the head moves on by one (R54, R56). -/
theorem enqueue_entries (line : Word) (code source sev : Nat) (tag p0 p1 p2 w7 : Word) :
    (l.enqueue line code source sev tag p0 p1 p2 w7).host.entries =
      ⟨upd l.host.evq (l.host.evqHead.toNat % 64) fun _ =>
        [l.host.evqHead, w32 (code + 65536 * source + 16777216 * sev), tag, line, p0, p1, p2, w7], l.host.evqHead + 1, l.host.evqLost⟩ := by
  unfold enqueue
  dsimp only
  split
  · exact signal_entries _ _ _ _
  · exact signal_entries _ _ _ _
  · exact (signal_entries _ _ _ _).trans (signal_entries _ _ _ _)

/-- An event that finds too little room: lost, counted, and EVQ_OVERFLOW sets (R57). -/
theorem queueEvent_full {line : Word} {e : Event} (hs : l.host.minSeverity.toNat ≤ e.ev.severity (e.p1 == 1))
    (hf : 64 < l.host.evqCount + 17) : l.queueEvent line e =
      ({ l with host := { l.host with evqLost := satAdd l.host.evqLost 1, evqOverflowed := true } }).stickRec line .evqOverflow := by
  unfold queueEvent
  dsimp only
  rw [if_neg (Nat.not_lt.mpr hs), if_neg (by omega)]

/-- What an event queues is all that it does to the queue: its record adds nothing. -/
theorem event_entries (line : Word) (e : Event) : (l.event line e).host.entries = (l.queueEvent line e).host.entries := by
  unfold event
  dsimp only
  split
  · exact record_entries _ _
  · rfl

theorem event_keepsFlag {line : Word} {e : Event} {n b : Nat} (h : flag (wd (l.queueEvent line e).host.stk n) b = true)
    (hs : (l.queueEvent line e).host.StkSound) : flag (wd (l.event line e).host.stk n) b = true := by
  unfold event
  dsimp only
  split
  · exact record_keepsFlag _ h hs
  · exact h

end Log

theorem satAdd_one {w : Word} (h : w ≠ 0xFFFFFFFF) : satAdd w 1 = w + 1 := by
  have hne : w.toNat ≠ 4294967295 := fun e => h (BitVec.eq_of_toNat_eq e)
  have hlt := w.isLt
  apply BitVec.eq_of_toNat_eq
  rw [satAdd, w32, BitVec.toNat_ofNat, BitVec.toNat_add]
  change min (w.toNat + 1) 4294967295 % 2 ^ 32 = (w.toNat + 1) % 2 ^ 32
  omega

theorem event_overflows {e : Event} {s : State} (hsev : s.host.minSeverity.toNat ≤ e.ev.severity (e.p1 == 1)) (hf : 64 < s.host.evqCount + 17)
    (hs : s.StkSound) : (event e s).host.entries = ⟨s.host.evq, s.host.evqHead, satAdd s.host.evqLost 1⟩ ∧
      flag (wd (event e s).host.stk 1) 4 = true := by
  have hq := s.log.queueEvent_full (line := s.line) hsev hf
  refine ⟨(s.log.event_entries _ _).trans (hq ▸ Log.stickRec_entries _ _ _ _), s.log.event_keepsFlag ?_ (Log.queueEvent_stk _ _ _ hs)⟩
  rw [hq]
  exact Log.stickRec_sets (k := .evqOverflow) _ 0 (by decide) hs

/-- A completion is queued whatever room there is (R57), but not while Beryl restarts (R53). -/
theorem complete_entries {opcode : Nat} {tag : Word} {status : Nat} {p0 p1 p2 : Word} {s : State} (h : s.host.restarting = false) :
    (complete opcode tag status p0 p1 p2 s).host.entries =
      ⟨upd s.host.evq (s.host.evqHead.toNat % 64) fun _ =>
        [s.host.evqHead, w32 (opcode + 65536 * 0xFF + 16777216 * 1), tag, s.line, p0, p1, p2, w32 (status + 65536)],
        s.host.evqHead + 1, s.host.evqLost⟩ := by
  rw [complete_running s _ _ _ _ _ _ h]
  exact Log.enqueue_entries _ _ _ _ _ _ _ _ _ _

theorem eventQueue : Claims.EventQueue := by
  refine ⟨fun v s h => congrArg _ (if_pos h), fun v s hr ho => congrArg _ (evqTail_inRange hr ho), fun e s hsev hf hl hs => ?lost,
    fun opcode tag status p0 p1 p2 s hr hn _ _ => ?completion⟩
  case lost =>
    obtain ⟨he, hflag⟩ := event_overflows hsev hf hs
    exact ⟨(congrArg EntryRing.lost he).trans (satAdd_one hl), congrArg EntryRing.head he, congrArg EntryRing.evq he, hflag⟩
  case completion =>
    have he := complete_entries (opcode := opcode) (tag := tag) (status := status) (p0 := p0) (p1 := p1) (p2 := p2) hr
    have hc := fun i => (congrArg (fun q => cell q i []) (congrArg EntryRing.evq he)).trans
      (cell_upd s.host.evq (s.host.evqHead.toNat % 64) i _ [] (hn.symm ▸ Nat.mod_lt _ (by decide)))
    exact ⟨congrArg EntryRing.head he, (hc _).trans (if_pos rfl), fun i hi => (hc i).trans (if_neg (Ne.symm hi))⟩

/-! ## Messages that pend -/

/-- Sends vector v's message where it pends and the vector is open: one step of `Log.flush`. -/
def Log.flushOne (l : Log) (v : Nat) : Log :=
  if l.host.pba.getLsbD v && l.host.vecOpen v then
    { l with host := { l.host with pba := l.host.pba &&& ~~~ (1#16 <<< v) }, out := .msix v :: l.out }
  else l

theorem Log.flush_eq (l : Log) : l.flush = (List.range 16).foldl Log.flushOne l := rfl

theorem Log.flushOne_clear {l : Log} {v : Nat} (h : l.host.pba.getLsbD v = false) : l.flushOne v = l := by
  unfold Log.flushOne
  rw [h, Bool.false_and]
  rfl

/-- With nothing pending nothing is sent. -/
theorem Log.flushOne_none {l : Log} (h : l.host.pba = 0) (vs : List Nat) : vs.foldl Log.flushOne l = l := by
  induction vs with
  | nil => rfl
  | cons v vs ih => rw [List.foldl_cons, Log.flushOne_clear (by rw [h]; exact BitVec.getLsbD_zero), ih]

theorem bit_getLsbD {v w : Nat} (hv : v < 16) : (1#16 <<< v).getLsbD w = decide (w = v) := by
  rw [BitVec.getLsbD_shiftLeft, BitVec.getLsbD_one]
  grind

/-- The one message that pends is sent, if its vector is open and among those looked at. -/
theorem Log.flushOne_only {l : Log} {v : Nat} (hv : v < 16) (hp : l.host.pba = 1#16 <<< v) (ho : l.host.vecOpen v = true) {vs : List Nat}
    (hm : v ∈ vs) : vs.foldl Log.flushOne l = { l with host := { l.host with pba := 0 }, out := .msix v :: l.out } := by
  induction vs with
  | nil => cases hm
  | cons w vs ih =>
    rw [List.foldl_cons]
    by_cases hw : w = v
    · subst hw
      have hone : l.flushOne w = { l with host := { l.host with pba := 0 }, out := .msix w :: l.out } := by
        unfold Log.flushOne
        rw [ho, hp, bit_getLsbD hv, BitVec.and_not_self]
        simp
      rw [hone]
      exact Log.flushOne_none rfl vs
    · rw [Log.flushOne_clear (by rw [hp, bit_getLsbD hv, decide_eq_false hw])]
      exact ih ((List.mem_cons.mp hm).resolve_left (Ne.symm hw))

/-- The MSI-X registers after the host has enabled MSI-X and unmasked vector v (R59). -/
def HostIf.unmasked (v : Nat) (h : HostIf) : HostIf :=
  { h with msixEnable := true, msixFuncMask := false, msixTable := upd h.msixTable (4 * v + 3) (fun w => w &&& ~~~ 1#32) }

theorem flag_zero_cleared (w : Word) : flag (w &&& ~~~ 1#32) 0 = false := by
  change (w &&& ~~~ 1#32).getLsbD 0 = false
  simp

theorem unmasked_vecOpen {v : Nat} (hv : v < 16) {h : HostIf} (hl : h.msixTable.length = 64) : (h.unmasked v).vecOpen v = true := by
  have hw : wd (h.unmasked v).msixTable (4 * v + 3) = wd h.msixTable (4 * v + 3) &&& ~~~ 1#32 :=
    (wd_upd _ _ _ _ (by omega)).trans (if_pos rfl)
  unfold HostIf.vecOpen
  rw [hw, flag_zero_cleared]
  rfl

theorem msixUnmask_sends (v : Fin 16) {s : State} (hp : s.host.pba = 1#16 <<< v.val) (hl : s.host.msixTable.length = 64) :
    execMsixUnmask true false (some v) s =
      .next { s with host := { s.host.unmasked v with pba := 0 }, out := .msix v :: s.out } := by
  have hf := Log.flushOne_only (l := { s.log with host := s.host.unmasked v }) v.isLt hp (unmasked_vecOpen v.isLt hl)
    (List.mem_range.mpr v.isLt)
  rw [← Log.flush_eq] at hf
  exact congrArg (fun l => Host.Outcome.next (State.withLog l s)) hf

/-! ## COALESCE_TIME -/

theorem sendVec_open {v : Nat} {s : State} (h : s.host.vecOpen v = true) : sendVec v s = { s with out := .msix v :: s.out } := by
  have : s.log.send v = { s.log with out := .msix v :: s.out } := if_pos h
  rw [sendVec, this]
  rfl

section
variable {v : Fin 16} {i : Word} {at_ : Dword} {q : List (Word × Dword)} {s : State} (h : cell s.host.unsig v [] = (i, at_) :: q)
include h

theorem coalesceTimeExpiry_due (hc : s.host.coalesceTime ≠ 0) (ht : at_.toNat + 1000 * s.host.coalesceTime.toNat ≤ s.pos.mono.toNat) :
    execCoalesceTimeExpiry v s = .next (sendVec v { s with host := { s.host with unsig := upd s.host.unsig v fun _ => [] } }) := by
  unfold execCoalesceTimeExpiry
  rw [h]
  exact congrArg _ (if_pos ⟨hc, ht⟩)

theorem coalesceTimeExpiry_early (ht : s.pos.mono.toNat < at_.toNat + 1000 * s.host.coalesceTime.toNat) :
    execCoalesceTimeExpiry v s = .next s := by
  unfold execCoalesceTimeExpiry
  rw [h]
  exact congrArg _ (if_neg fun hd => Nat.not_le.mpr ht hd.2)

end

theorem interrupts : Claims.Interrupts := by
  refine ⟨fun v s hp hl => ⟨_, msixUnmask_sends v hp hl, onlyChanges_host_out s _ _, rfl, rfl, rfl, rfl⟩,
    fun v i at_ q s h => ⟨fun hc ht ho => ?_, coalesceTimeExpiry_early h⟩⟩
  refine (coalesceTimeExpiry_due h hc ht).trans (congrArg _ ?_)
  exact sendVec_open (s := { s with host := { s.host with unsig := upd s.host.unsig v fun _ => [] } }) ho

/-- Settles O12: an entry by what writes the queue, a message by what the PBA holds and by when its oldest entry came. -/
theorem eventsAndInterrupts : Obligations.EventsAndInterrupts := ⟨eventQueue, interrupts⟩

end Sys2Proof.Machine
end

section
/-!
PROOFS. The system commands, and commands that are turned away (R42, R44, R51, R52, R66, R68 to R72).
-/
namespace Sys2Proof.Machine

/-! ## A command that is turned away -/

/-- A check that fails gives its answer where no other that fails goes before it in the order of R51. -/
theorem pick_first {a : Ans} {l : List (Bool × Ans)} (h : ∀ b, (true, b) ∈ l → rank a ≤ rank b) : pick ((true, a) :: l) = some a := by
  unfold pick
  cases hl : pick l with
  | none => rfl
  | some b => simp [h b (answerOrder l b hl).1]

/-- What a unit that does not serve a command answers stands behind faults of the header (R51). -/
theorem served_rank (op : Nat) (s : State) : ∀ b, (true, b) ∈ served op s → 2 ≤ rank b := by
  intro b hb
  have hm : b ∈ (served op s).map Prod.snd := List.mem_map.mpr ⟨_, hb, rfl⟩
  have hs : (served op s).map Prod.snd = [badState, hwFault, badState, badState] := rfl
  rw [hs] at hm
  fin_cases hm <;> decide

section
variable {op n : Nat} {k : Fin 16} {c : RungCmd} {s : State} {checks : State → List Word → List (Bool × Ans)}
  {effect : Word → List Word → State → State × Option Ans}
  (hw : s.host.waiting k = some c) (ho : c.opcode = op) (hst : startable s.host c = true)
include hw ho hst

/-- A command whose header or length is wrong: the answer is among those checks and the service's. -/
theorem command_malformed (hm : (c.headerBad || decide (c.payloadWords < n)) = true) {a : Ans}
    (hp : pick ((c.headerBad, badParam 0xFFFE) :: (decide (c.payloadWords < n), badParam 0xFFFF) :: served op s) = some a) :
    command op n k checks effect s = respond k a (begun k s) := by
  have hp' : pick ([(c.headerBad, badParam 0xFFFE), (decide (c.payloadWords < n), badParam 0xFFFF)] ++ served op s ++ []) = some a := by
    rwa [List.append_nil]
  unfold command
  rw [hw]
  simp only [ho, hst, and_self, if_true, if_pos hm, hp']
  rfl

theorem command_badHeader (hb : c.headerBad = true) : command op n k checks effect s = respond k (badParam 0xFFFE) (begun k s) := by
  refine command_malformed hw ho hst (by simp [hb]) ?_
  rw [hb]
  refine pick_first fun b hm => ?_
  rcases List.mem_cons.mp hm with e | hm
  · rw [(Prod.mk.inj e).2]
    decide
  · exact le_trans (by decide) (served_rank op s b hm)

theorem command_short (hb : c.headerBad = false) (hn : c.payloadWords < n) :
    command op n k checks effect s = respond k (badParam 0xFFFF) (begun k s) := by
  refine command_malformed hw ho hst (by simp [hn]) ?_
  rw [pick_passed hb, decide_eq_true hn]
  exact pick_first (served_rank op s)

end

theorem turnedAway : Claims.TurnedAway := fun _ _ _ _ _ _ _ hw ho hst =>
  ⟨command_badHeader hw ho hst, command_short hw ho hst, fun _ hb hn hs hp => command_refused ⟨hw, ho, hst, hb, hn, hs⟩ hp⟩

/-! ## SYS_SET_OP_STATE -/

section
variable {k : Fin 16} {c : RungCmd} {s : State}

/-- A permitted change of the operating state that need not wait for a boundary (R66, R70). -/
theorem sysSetOpState_moves {t : OpState} (h : Rung 0x0102 1 k c s) (ht : opTarget (fld (c.w 0) 0 3) = some t)
    (hp : Passes (setOpChecks s c.payload)) (hn : ¬ (s.host.opState = .print ∧ lineFires s = true)) :
    execSysSetOpState k s = .next (respond k ok (setOpState t false (begun k s))) := by
  refine congrArg Host.Outcome.next (command_done h hp ?_)
  have ht' : opTarget (fld (wd c.payload 0) 0 3) = some t := ht
  unfold setOpEffect
  rw [ht']
  exact if_neg hn

/-- What a payload word of a target's code names (R70), with no reserved bit set. -/
theorem opTarget_named {w : Word} {t : OpState} (hw : c.w 0 = w) (ht : opTarget (fld w 0 3) = some t) (hr : w &&& ~~~ 7 = 0) :
    opTarget (fld (wd c.payload 0) 0 3) = some t ∧ (reservedW c.payload 0 7).1 = false := by
  subst hw
  exact ⟨ht, reservedW_passes hr⟩

theorem setOpChecks_print (hw : c.w 0 = 2) (ho : s.host.opState = .ready) (hr : s.twin.role ≠ .listen) (hm : s.cg.modules ≠ 0)
    (hp : s.pwr.state = .run) (hl : ∀ m, m < s.cg.modules → (s.lane m).st = .active) : Passes (setOpChecks s c.payload) := by
  obtain ⟨ht, hres⟩ := opTarget_named (t := .print) hw rfl (by decide)
  have hla : lanesActive s = true := by simpa [lanesActive, State.fitted] using hl
  simp only [setOpChecks, passes_cons, passes_nil, hres, ht, ho, hp]
  simp [hr, hm, hla]

theorem setOpChecks_service (hw : c.w 0 = 3) (ho : s.host.opState = .ready) (hp : s.pwr.state = .run) (h2 : s.permits 2 = true) :
    Passes (setOpChecks s c.payload) := by
  obtain ⟨ht, hres⟩ := opTarget_named (t := .service) hw rfl (by decide)
  simp only [setOpChecks, passes_cons, passes_nil, hres, ht, ho, hp, h2]
  simp

theorem setOpChecks_ready (hw : c.w 0 = 1) (ho : s.host.opState = .service ∨ s.host.opState = .print) : Passes (setOpChecks s c.payload) := by
  obtain ⟨ht, hres⟩ := opTarget_named (t := .ready) hw rfl (by decide)
  rcases ho with ho | ho
  · simp only [setOpChecks, passes_cons, passes_nil, hres, ht, ho]
    simp
  · simp only [setOpChecks, passes_cons, passes_nil, hres, ht, ho]
    simp

/-- In SAFE every change is refused for NO_TRIP (R70), which goes before the BAD_STATE of the same rank. -/
theorem setOpChecks_safe (hw : c.w 0 = 1) (ho : s.host.opState = .safe) : pick (setOpChecks s c.payload) = some (safetyBlocked 4) := by
  obtain ⟨ht, hres⟩ := opTarget_named (t := .ready) hw rfl (by decide)
  simp only [setOpChecks, ht, ho, Option.isNone_some, pick_false, pick_passed hres]
  rfl

/-! ## SYS_RESET_UNIT -/

/-- Outside PRINT the reset is asked for at once (R71). -/
theorem sysResetUnit_answers (h : Rung 0x0103 1 k c s) (hw : c.w 0 ≤ 1) (hp : s.host.opState ≠ .print) :
    execSysResetUnit k s = .next (respond k ok (askReset (flag (c.w 0) 0) false (begun k s))) := by
  have hw' : wd c.payload 0 = 0 ∨ wd c.payload 0 = 1 := zero_or_one (w := c.w 0) (Nat.lt_succ_of_le hw)
  have h9 : flag (wd c.payload 0) 9 = false := by rcases hw' with e | e <;> rw [e] <;> rfl
  have hkind : decide (fld (wd c.payload 0) 0 2 > 1) = false := by rcases hw' with e | e <;> rw [e] <;> rfl
  have hres : (reservedW c.payload 0 0x303).1 = false := reservedW_passes (by rcases hw' with e | e <;> rw [e] <;> decide)
  have hne : (s.host.opState == .print) = false := beq_eq_false_iff_ne.mpr hp
  have hne' : (begun k s).host.opState ≠ .print := hp
  refine congrArg Host.Outcome.next (command_done h ?_ ?_)
  · simp only [passes_cons, passes_nil, hkind, hres, h9, hne, Bool.false_and, and_self]
  · dsimp only
    rw [if_neg fun hc => hne' hc.1, if_neg hne', h9]
    rfl

/-! ## SYS_FW_STAGE -/

/-- The 64-bit number of two payload words. -/
theorem wn64_append (ws : List Word) (i : Nat) : BitVec.ofNat 64 (wn64 ws i) = wd ws (i + 1) ++ wd ws i := by
  apply BitVec.eq_of_toNat_eq
  have h0 := (wd ws i).isLt
  have h1 := (wd ws (i + 1)).isLt
  rw [BitVec.toNat_append, ← Nat.shiftLeft_add_eq_or_of_lt h0, BitVec.toNat_ofNat, wn64, wn, wn, Nat.shiftLeft_eq]
  omega

/-- The address and the length of an image to be fetched are ones the unit takes (R72, R554). -/
theorem imageOperands_pass {ws : List Word} (ha : (wd ws 0).toNat % 4096 = 0) (hl : 4096 ≤ (wd ws 2).toNat) (hu : (wd ws 2).toNat ≤ 4194304) :
    (wn ws 0 % 4096 != 0) = false ∧ decide (wn ws 2 < 4096 ∨ wn ws 2 > 4194304) = false := by
  refine ⟨by simpa [wn] using ha, decide_eq_false ?_⟩
  rintro (h | h)
  · exact Nat.not_le.mpr h hl
  · exact Nat.not_le.mpr h hu

/-- The state in which a staging of tag c.tag has been accepted and its bytes asked for (R72). -/
def staging (k : Fin 16) (c : RungCmd) (s : State) : State :=
  let s1 := outstand 0x0104 c.tag 0 (begun k s)
  readHost (wn64 c.payload 0) (c.w 2).toNat { s1 with host := { s1.host with fwStage := some (c.tag, c.w 1 ++ c.w 0, c.w 2) } }

theorem sysFwStage_answers (h : Rung 0x0104 3 k c s) (ha : (c.w 0).toNat % 4096 = 0) (hl : 4096 ≤ (c.w 2).toNat)
    (hu : (c.w 2).toNat ≤ 4194304) (hf : s.host.fwStage = none) (hb : s.host.opState ≠ .boot) (ho : s.host.outst.length < 16) :
    execSysFwStage k s = .next (respond k accepted (staging k c s)) := by
  obtain ⟨haddr, hlen⟩ := imageOperands_pass (ws := c.payload) ha hl hu
  refine congrArg Host.Outcome.next (command_done h ?_ ?_)
  · simp only [passes_cons, passes_nil, haddr, hlen, hf, notBoot_passes hb, completionsFull_passes ho, Option.isSome_none, and_self]
  · dsimp only
    rw [wn64_append]
    rfl

end

/-! ## The end of a staging -/

/-- What a staging leaves: the image it has written, or a half marked empty (R72). -/
def staged (good : Bool) (image : List Byte) (s : State) : State := { s with host := { s.host with
  fwStage := none, stagedImage := if good then some (imageFwVersion image) else none
  qspi := upd s.host.qspi (b2n !s.host.activeHalf) fun _ => some (if good then image else []) } }

theorem sysFwStageDone_ends {image : List Byte} {w : Bool} {tag : Word} {a : Dword} {n : Word} {s : State}
    (h : s.host.fwStage = some (tag, a, n)) (hl : image.length = n.toNat) : execSysFwStageDone image w s =
      .next (complete 0x0104 tag (if !imageGood image then 0x41 else if !w then 0x30 else 0)
        (if imageGood image && w then imageFwVersion image else 0) 0 0 (staged (imageGood image && w) image s)) := by
  unfold execSysFwStageDone
  rw [h]
  exact congrArg _ (if_neg (not_not.mpr hl))

theorem systemCommands : Claims.SystemCommands := by
  refine ⟨fun k c s h => congrArg _ (command_done h passes_nil rfl), fun k c s h => congrArg _ (command_done h passes_nil rfl),
    fun k c s h hw ho hr hm hp hl => ?print, fun k c s h hw ho hp h2 => ?service, fun k c s h hw ho => ?ready, fun k c s h hw ho => ?safe,
    fun k c s h hw hp => ⟨fun hn => ?reset, fun hs => ?resetTwice⟩, fun k c s h ha hl hu hf hb ho => ?stage,
    fun image w tag a n s hf hl => ⟨fun hg hw => ?good, fun hg => ?bad, fun hg hw => ?notWritten⟩⟩
  case print => exact sysSetOpState_moves h (by rw [hw]; rfl) (setOpChecks_print hw ho hr hm hp hl) (by simp [ho])
  case service => exact sysSetOpState_moves h (by rw [hw]; rfl) (setOpChecks_service hw ho hp h2) (by simp [ho])
  case ready =>
    refine sysSetOpState_moves h (by rw [hw]; rfl) (setOpChecks_ready hw (ho.imp_right And.left)) ?_
    rcases ho with ho | ⟨-, hf⟩
    · simp [ho]
    · simp [hf]
  case safe => exact congrArg _ (command_refused h (setOpChecks_safe hw ho))
  case reset =>
    have hn' : ¬ (begun k s).host.resetReq.isSome = true := by simp [begun, hn]
    exact (sysResetUnit_answers h hw hp).trans (congrArg (fun t => Host.Outcome.next (respond k ok t)) (if_neg hn'))
  case resetTwice => exact (sysResetUnit_answers h hw hp).trans (congrArg (fun t => Host.Outcome.next (respond k ok t)) (if_pos hs))
  case stage => exact ⟨staging k c s, sysFwStage_answers h ha hl hu hf hb ho, onlyChanges_host_out (begun k s) _ _, rfl, rfl, rfl⟩
  case good =>
    rw [show exec (.sysFwStageDone image w) s = _ from sysFwStageDone_ends hf hl, hg, hw]
    rfl
  case bad =>
    rw [show exec (.sysFwStageDone image w) s = _ from sysFwStageDone_ends hf hl, hg]
    rfl
  case notWritten =>
    rw [show exec (.sysFwStageDone image w) s = _ from sysFwStageDone_ends hf hl, hg, hw]
    rfl

/-- Settles O14: each command by its checks and its effect; one turned away by the first of its checks that fails. -/
theorem systemCommandsAnswer : Obligations.SystemCommandsAnswer := ⟨systemCommands, turnedAway⟩

end Sys2Proof.Machine
end

section
/-!
PROOFS. What changes of the operating state, permissions and trips leave and write (R66, R450, R456, R461, R464).
-/
namespace Sys2Proof.Machine

/-! ## Frames of single updates -/

/-- The parts that messages, sticky bits, records, events, completions and answers write. -/
abbrev logParts : List Part := [.host, .pers, .out]

theorem emit_onlyChanges (o : Output) (s : State) : OnlyChanges [.out] s (emit o s) := by
  intro p hp
  cases p <;> simp_all [State.agree]

theorem setLane_onlyChanges (m : Nat) (f : Lane → Lane) (s : State) : OnlyChanges [.hl] s (setLane m f s) := by
  intro p hp
  cases p <;> simp_all [State.agree]

theorem onlyChanges_onyx (s : State) (o : Onyx) : OnlyChanges [.onyx] s { s with onyx := o } := by
  intro p hp
  cases p <;> simp_all [State.agree]

theorem onlyChanges_pwr (s : State) (q : Pwr) : OnlyChanges [.pwr] s { s with pwr := q } := by
  intro p hp
  cases p <;> simp_all [State.agree]

/-! ## Changes of the operating state -/

/-- Onyx without its outputs: what a change of the operating state leaves as it is. -/
def Onyx.core (o : Onyx) : Onyx := { o with hpwrA := false, hpwrB := false, safeOk := false, fellAt := 0 }

theorem answerOpReq_onlyChanges (new : OpState) (s : State) : OnlyChanges logParts s (answerOpReq new s) := by
  unfold answerOpReq
  split
  · exact .refl _ s
  · extract_lets _ s1
    have h1 : OnlyChanges logParts s s1 := (onlyChanges_host s _).mono (by decide)
    split
    · exact h1.trans (withLog_onlyChanges _ s1)
    · split
      · exact h1.trans (withLog_onlyChanges _ s1)
      · exact .refl _ s

/-- A change of the operating state: Onyx's outputs follow, and the rest is messages and answers. -/
theorem setOpState_frame (new : OpState) (forced : Bool) (s : State) :
    ∃ o : Onyx, o.core = s.onyx.core ∧ OnlyChanges logParts { s with onyx := o } (setOpState new forced s) := by
  unfold setOpState
  split
  · exact ⟨s.onyx, rfl, .refl _ s⟩
  · extract_lets e _ s1 s2
    refine ⟨s1.onyx, rfl, ?_⟩
    have h1 : OnlyChanges logParts { s with onyx := s1.onyx } s1 := (onlyChanges_host { s with onyx := s1.onyx } _).mono (by decide)
    have h2 : OnlyChanges logParts s1 s2 := by
      cases forced
      · exact withLog_onlyChanges _ s1
      · exact withLog_onlyChanges _ s1
    refine (h1.trans h2).trans (OnlyChanges.trans ?_ (answerOpReq_onlyChanges new _))
    split
    · exact withLog_onlyChanges _ s2
    · exact .refl _ s2

theorem setOpState_onlyChanges (new : OpState) (forced : Bool) (s : State) :
    OnlyChanges [.host, .pers, .onyx, .out] s (setOpState new forced s) := by
  obtain ⟨o, -, h⟩ := setOpState_frame new forced s
  exact OnlyChanges.trans ((onlyChanges_onyx s o).mono (by decide)) (h.mono (by decide))

theorem setOpState_onyx (new : OpState) (forced : Bool) (s : State) : (setOpState new forced s).onyx.core = s.onyx.core := by
  obtain ⟨o, ho, h⟩ := setOpState_frame new forced s
  exact (congrArg Onyx.core (h .onyx (by decide))).symm.trans ho

theorem setOpState_pwr (new : OpState) (forced : Bool) (s : State) : (setOpState new forced s).pwr = s.pwr :=
  (setOpState_onlyChanges new forced s .pwr (by decide)).symm

theorem setOpState_opState (new : OpState) (forced : Bool) (s : State) : (setOpState new forced s).host.opState = new := by
  obtain ⟨q, hq⟩ := setOpState_host new forced s
  exact (congrArg HostIf.opState hq :)

theorem answerOpReq_pers (new : OpState) (s : State) : (answerOpReq new s).pers = s.pers := by
  unfold answerOpReq
  split
  · rfl
  · extract_lets _ s1
    split
    · exact Log.respond_pers _ _ s1.log
    · split
      · exact Log.respond_pers _ _ s1.log
      · rfl

/-- Of persistent storage a change of the operating state writes records at most. -/
theorem setOpState_pers (new : OpState) (forced : Bool) (s : State) : (setOpState new forced s).pers.quiet = s.pers.quiet := by
  unfold setOpState
  split
  · rfl
  · extract_lets e _ s1 s2
    have h2 : s1.Keeps s2 := by
      cases forced
      · exact event_keeps s1 e
      · exact stickEvent_keeps s1 _ e
    rw [answerOpReq_pers]
    split
    · exact (h2.trans (sendVec_keeps s2 2)).pers
    · exact h2.pers

/-! ## Permissions -/

/-- Onyx without the permissions. -/
def Onyx.sansPermits (o : Onyx) : Onyx := { o with permMain := 0, permOnyx := 0, wdrAt := [] }

/-- A change of a permission: the permission, and an event or a sticky bit. -/
theorem setPermission_frame (side p : Nat) (granted : Bool) (s : State) :
    ∃ o : Onyx, o.sansPermits = s.onyx.sansPermits ∧ State.Keeps { s with onyx := o } (setPermission side p granted s) ∧
      OnlyChanges logParts { s with onyx := o } (setPermission side p granted s) := by
  unfold setPermission
  extract_lets cur m new _ s1 e
  split
  · exact ⟨s.onyx, rfl, .refl s, .refl _ s⟩
  · have h1 : ∃ o : Onyx, s1 = { s with onyx := o } ∧ o.sansPermits = s.onyx.sansPermits := by
      unfold s1
      split
      · exact ⟨_, rfl, rfl⟩
      · exact ⟨_, rfl, rfl⟩
    obtain ⟨o, hs, ho⟩ := h1
    refine ⟨o, ho, ?_⟩
    rw [← hs]
    split
    · exact ⟨event_keeps s1 e, withLog_onlyChanges _ s1⟩
    · split
      · exact ⟨stickEvent_keeps s1 _ e, withLog_onlyChanges _ s1⟩
      · exact ⟨event_keeps s1 e, withLog_onlyChanges _ s1⟩

theorem setPermission_opState (side p : Nat) (granted : Bool) (s : State) : (setPermission side p granted s).host.opState = s.host.opState := by
  obtain ⟨o, -, hk, -⟩ := setPermission_frame side p granted s
  exact (congrArg HostIf.opState hk.host :)

theorem bit4_getLsbD (w : BitVec 4) {i : Nat} (h : i < 4) : (w ||| (1#4 <<< i)).getLsbD i = true := by simp [h]

/-- The main side grants. -/
theorem setPermission_main (s : State) {p : Nat} (hp : p - 1 < 4) : (setPermission 1 p true s).onyx.permMain.getLsbD (p - 1) = true := by
  simp only [setPermission, if_true]
  split
  · assumption
  · exact bit4_getLsbD s.onyx.permMain hp

/-- Onyx grants, and the main side's grants stay. -/
theorem setPermission_own (s : State) {p : Nat} (hp : p - 1 < 4) : (setPermission 2 p true s).onyx.permOnyx.getLsbD (p - 1) = true ∧
    (setPermission 2 p true s).onyx.permMain = s.onyx.permMain := by
  simp only [setPermission, if_true, OfNat.ofNat_ne_one, if_false]
  split
  · exact ⟨by assumption, rfl⟩
  · exact ⟨bit4_getLsbD s.onyx.permOnyx hp, rfl⟩

theorem permits_granted (s : State) {p : Nat} (hp : p - 1 < 4) : (setPermission 2 p true (setPermission 1 p true s)).permits p = true := by
  obtain ⟨ho, hm⟩ := setPermission_own (setPermission 1 p true s) hp
  unfold State.permits
  rw [ho, hm, setPermission_main s hp]
  rfl

/-! ## Trips -/

/-- The state of a first trip before its permission is withdrawn and its bit set (R461, R464, R465). -/
def tripLatched (cause : Nat) (param : Word) (s : State) : State :=
  withholdAll (blankLanes 1 { s with
    onyx := { s.onyx with
      tripped := true, reacting := true, gateOpen := false, gateReopen := false
      cause := cause, param := param, tripSeq := s.onyx.tripSeq + 1, mask := 1#17 <<< cause
      tripLine := s.line, trips := satAdd s.onyx.trips 1, tripAt := s.pos.mono }
    host := { s.host with firing := false } })

theorem latchTrip_first (cause : Nat) (param : Word) {s : State} (h : s.onyx.tripped = false) :
    latchTrip cause param s = stick .trip (setPermission 2 4 false (tripLatched cause param s)) := by
  unfold latchTrip
  exact if_neg (by simp [h])

theorem latchTrip_again (cause : Nat) (param : Word) {s : State} (h : s.onyx.tripped = true) :
    ∃ m n c q, latchTrip cause param s = { s with onyx := { s.onyx with mask := m, trips := n, cause := c, param := q } } := by
  unfold latchTrip
  exact ⟨_, _, _, _, if_pos h⟩

/-- After a first trip Onyx stands as the trip latched it, its permissions apart. -/
theorem latchTrip_onyx (cause : Nat) (param : Word) {s : State} (h : s.onyx.tripped = false) :
    (latchTrip cause param s).onyx.sansPermits = (tripLatched cause param s).onyx.sansPermits := by
  obtain ⟨o, ho, -, hf⟩ := setPermission_frame 2 4 false (tripLatched cause param s)
  rw [latchTrip_first cause param h]
  exact (congrArg Onyx.sansPermits (hf .onyx (by decide))).symm.trans ho

/-- A trip leaves the power controller, persistent storage but for its records, and the verdict of the last self-test. -/
theorem latchTrip_leaves (cause : Nat) (param : Word) (s : State) : (latchTrip cause param s).pwr = s.pwr ∧
    (latchTrip cause param s).pers.quiet = s.pers.quiet ∧ (latchTrip cause param s).onyx.selfTestOk = s.onyx.selfTestOk := by
  cases h : s.onyx.tripped with
  | true =>
    obtain ⟨m, n, c, q, e⟩ := latchTrip_again cause param h
    rw [e]
    exact ⟨rfl, rfl, rfl⟩
  | false =>
    obtain ⟨o, -, hk, hf⟩ := setPermission_frame 2 4 false (tripLatched cause param s)
    refine ⟨?_, ?_, (congrArg Onyx.selfTestOk (latchTrip_onyx cause param h) :)⟩
    · rw [latchTrip_first cause param h]
      exact (hf .pwr (by decide)).symm
    · rw [latchTrip_first cause param h]
      exact (hk.trans (stick_keeps _ .trip)).pers

end Sys2Proof.Machine
end

section
/-!
PROOFS. Islands that come up, and what their readiness brings: the IDs, DRAM bring-up, lanes in DETECT (R33, R218, R477, R538, R546).
-/
namespace Sys2Proof.Machine

/-! ## The lanes as the PIPE island comes up -/

/-- No lane is ACTIVE (R218). -/
def State.noneActive (s : State) : Prop := ∀ m, m < 16 → (s.lane m).st ≠ .active

/-- An update that keeps a property of each entry keeps it of the list's. -/
theorem cell_upd_of {α : Type} {P : α → Prop} {l : List α} {j : Nat} {d : α} (i : Nat) {f : α → α} (hf : ∀ x, P x → P (f x))
    (h : P (cell l j d)) : P (cell (upd l i f) j d) := by
  by_cases hi : i < l.length
  · rw [cell_upd _ _ _ _ _ hi]
    split
    · exact hf _ h
    · exact h
  · rwa [upd, List.modify_eq_self (Nat.le_of_not_lt hi)]

theorem setLane_noneActive {m : Nat} {f : Lane → Lane} {s : State} (hf : ∀ x, x.st ≠ .active → (f x).st ≠ .active) (h : s.noneActive) :
    (setLane m f s).noneActive :=
  fun j hj => cell_upd_of (P := fun x : Lane => x.st ≠ .active) m hf (h j hj)

theorem leaveActive_onlyChanges (m : Nat) (s : State) : OnlyChanges [.host, .pers, .free, .out] s (leaveActive m s) := by
  unfold leaveActive
  split
  · exact .refl _ s
  · refine OnlyChanges.trans (t := (takeFree s).2) ?_ ((withLog_onlyChanges _ _).mono (by decide))
    intro p hp
    cases p <;> simp_all [State.agree, takeFree]

theorem enterLane_onlyChanges (m : Nat) (st : LaneState) (s : State) : OnlyChanges [.hl, .out] s (enterLane m st s) :=
  ((setLane_onlyChanges m _ s).mono (by decide)).trans ((emit_onlyChanges _ _).mono (by decide))

theorem toDetect_onlyChanges (m : Nat) (s : State) : OnlyChanges [.host, .pers, .hl, .free, .out] s (toDetect m s) :=
  (((leaveActive_onlyChanges m s).mono (by decide)).trans ((setLane_onlyChanges m _ _).mono (by decide))).trans
    ((enterLane_onlyChanges m .detect _).mono (by decide))

theorem lanesToDetect_onlyChanges (s : State) : OnlyChanges [.host, .pers, .hl, .free, .out] s (lanesToDetect s) := by
  refine OnlyChanges.foldl _ _ s fun t m => ?_
  have h1 := (setLane_onlyChanges m (fun l => { l with idleHeld := false }) t).mono (qs := [.host, .pers, .hl, .free, .out]) (by decide)
  dsimp only
  split
  · exact h1.trans (toDetect_onlyChanges m _)
  · exact h1

/-- A lane that is not ACTIVE goes to DETECT without a word to the host (R219). -/
theorem toDetect_quiet {m : Nat} {s : State} (hm : m < 16) (h : s.noneActive) :
    OnlyChanges [.hl, .out] s (toDetect m s) ∧ (toDetect m s).noneActive := by
  have hl : leaveActive m s = s := if_pos (h m hm)
  unfold toDetect
  rw [hl]
  refine ⟨((setLane_onlyChanges m _ s).mono (by decide)).trans (enterLane_onlyChanges m .detect _), fun j hj => ?_⟩
  have hset : (setLane m Lane.forget s).noneActive := setLane_noneActive (fun _ hx => hx) h
  unfold enterLane State.lane
  rw [emit_hl]
  exact setLane_noneActive (fun _ _ => (by decide : LaneState.detect ≠ .active)) hset j hj

/-- The frame of a fold whose steps keep what their own frame rests on. -/
theorem OnlyChanges.foldl_of {α : Type} {ps : List Part} {P : State → Prop} {g : State → α → State} {l : List α} {s : State} (hs : P s)
    (h : ∀ x ∈ l, ∀ t, P t → OnlyChanges ps t (g t x) ∧ P (g t x)) : OnlyChanges ps s (l.foldl g s) :=
  (List.foldlRecOn (motive := fun t => OnlyChanges ps s t ∧ P t) l g ⟨.refl ps s, hs⟩ fun t ⟨hf, ht⟩ x hx =>
    ⟨hf.trans (h x hx t ht).1, (h x hx t ht).2⟩).1

theorem lanesToDetect_quiet {s : State} (h : s.noneActive) : OnlyChanges [.hl, .out] s (lanesToDetect s) := by
  refine OnlyChanges.foldl_of (P := State.noneActive) h fun m hm t ht => ?_
  have h1 : (setLane m (fun l => { l with idleHeld := false }) t).noneActive := setLane_noneActive (fun _ hx => hx) ht
  have f1 := (setLane_onlyChanges m (fun l => { l with idleHeld := false }) t).mono (qs := [.hl, .out]) (by decide)
  dsimp only
  split
  · obtain ⟨f2, h2⟩ := toDetect_quiet (List.mem_range.mp hm) h1
    exact ⟨f1.trans f2, h2⟩
  · exact ⟨f1, h1⟩

/-! ## The stages of an island -/

/-- An island that has come up (R538). -/
def Island.up (x : Island) : Island := { x with stage := 5, on := true, timeout := false, tries := 0 }

/-- What the readiness of an island brings: the subsystem IDs with IO, DRAM bring-up with MEM at start-up (R33, R477, R538). -/
def islandUp (i : Nat) (s : State) : State :=
  let s1 := setIsland i Island.up s
  if i = 3 then loadIds s1 else if i = 1 ∧ s.pwr.starting = true then dramBringUp s1 else s1

theorem dramFailed_pwr (s : State) : (dramFailed s).pwr = s.pwr := by
  unfold dramFailed
  extract_lets _ _ s1
  split
  · exact setOpState_pwr .safe false s1
  · rfl

theorem dramBringUp_pwr (s : State) : (dramBringUp s).pwr = s.pwr := by
  unfold dramBringUp
  extract_lets w _ s1
  split
  · exact dramFailed_pwr s1
  · rfl

theorem islandUp_pwr (i : Nat) (s : State) : (islandUp i s).pwr = { s.pwr with islands := upd s.pwr.islands i Island.up } := by
  unfold islandUp
  split
  · rfl
  · split
    · exact dramBringUp_pwr _
    · rfl

/-- At start-up the island that follows begins (R538). -/
theorem islandReady_next {i j : Nat} {s : State} (h : s.pwr.starting = true) (hn : nextIsland i = some j) :
    islandReady i s = beginIsland j (islandUp i s) := by
  unfold islandReady
  rw [if_pos h, hn]
  rfl

/-- With the last island start-up has ended (R538, R546). -/
theorem islandReady_last {i : Nat} {s : State} (h : s.pwr.starting = true) (hn : nextIsland i = none) :
    islandReady i s = lanesToDetect { islandUp i s with pwr := { (islandUp i s).pwr with starting := false } } := by
  unfold islandReady
  rw [if_pos h, hn]
  rfl

theorem lanesToDetect_pwr (s : State) : (lanesToDetect s).pwr = s.pwr := (lanesToDetect_onlyChanges s .pwr (by decide)).symm

/-- Where no start-up runs, readiness of an island changes no other. -/
theorem islandReady_alone {i : Nat} {s : State} (h : s.pwr.starting = false) :
    (islandReady i s).pwr.islands = upd s.pwr.islands i Island.up := by
  have hup : (islandUp i s).pwr.islands = upd s.pwr.islands i Island.up := congrArg Pwr.islands (islandUp_pwr i s)
  unfold islandReady
  rw [if_neg (by simp [h])]
  rw [← hup]
  dsimp only
  split
  · split
    · rw [complete_pwr, lanesToDetect_pwr]
      rfl
    · rw [lanesToDetect_pwr]
      rfl
  · split
    · rw [respond_pwr, lanesToDetect_pwr]
      rfl
    · rw [lanesToDetect_pwr]
      rfl
  · rfl

theorem islandStageReady_last {i : Fin 4} {s : State} (h : (cell s.pwr.islands i {}).stage = 4) :
    execIslandStageReady i s = .next (islandReady i s) := by
  unfold execIslandStageReady
  dsimp only
  rw [if_neg (by omega), if_neg (by omega)]

theorem islandStageReady_more {i : Fin 4} {s : State} (h : (cell s.pwr.islands i {}).stage ∈ [1, 2, 3]) : execIslandStageReady i s =
    .next (setIsland i (fun x => { x with stage := (cell s.pwr.islands i {}).stage + 1, stageAt := s.pos.mono }) s) := by
  have hb : 1 ≤ (cell s.pwr.islands i {}).stage ∧ (cell s.pwr.islands i {}).stage < 4 := by
    simp only [List.mem_cons, List.not_mem_nil, or_false] at h
    omega
  unfold execIslandStageReady
  dsimp only
  rw [if_neg (by omega), if_pos hb.2]

section
variable {i : Nat} {s : State} (hl : s.pwr.islands.length = 4) (hi : i < 4)
include hl hi

theorem islandUp_up : cell (islandUp i s).pwr.islands i {} = (cell s.pwr.islands i {}).up := by
  rw [islandUp_pwr]
  exact (cell_upd s.pwr.islands i i Island.up {} (hl.symm ▸ hi)).trans (if_pos rfl)

/-- The next island begins, and the one that has come up stays up. -/
theorem beginIsland_next {j : Nat} (hj : j < 4) (hne : j ≠ i) :
    cell (beginIsland j (islandUp i s)).pwr.islands i {} = (cell s.pwr.islands i {}).up ∧
    (cell (beginIsland j (islandUp i s)).pwr.islands j {}).stage = 1 := by
  have hlen : (islandUp i s).pwr.islands.length = 4 := by
    rw [islandUp_pwr]
    exact (length_upd _ _ _).trans hl
  have hc := fun m => cell_upd (islandUp i s).pwr.islands j m
    (fun x : Island => { x with stage := 1, on := false, stageAt := (islandUp i s).pos.mono }) {} (hlen.symm ▸ hj)
  refine ⟨(hc i).trans ((if_neg hne).trans (islandUp_up hl hi)), ?_⟩
  exact congrArg Island.stage ((hc j).trans (if_pos rfl))

end

/-- Whatever follows, the island has come up. -/
theorem islandReady_up {i : Fin 4} {s : State} (hl : s.pwr.islands.length = 4) :
    cell (islandReady i s).pwr.islands i {} = (cell s.pwr.islands i {}).up := by
  cases hs : s.pwr.starting with
  | false =>
    rw [islandReady_alone hs]
    exact (cell_upd s.pwr.islands i i Island.up {} (hl.symm ▸ i.isLt)).trans (if_pos rfl)
  | true =>
    cases hn : nextIsland i with
    | none =>
      rw [islandReady_last hs hn, lanesToDetect_pwr]
      exact islandUp_up hl i.isLt
    | some j =>
      have hj : j < 4 ∧ j ≠ i := by
        revert hn
        fin_cases i <;> simp [nextIsland] <;> omega
      rw [islandReady_next hs hn]
      exact (beginIsland_next hl i.isLt hj.1 hj.2).1

end Sys2Proof.Machine
end

section
/-!
PROOFS. The release of chip reset, the timeouts of start-up, and the boot of the firmware (R66, R71, R462, R507, R515, R539, R546, R547, R554).
-/
namespace Sys2Proof.Machine

/-! ## The release of chip reset -/

/-- Core reset is released, the wear counters and the axes' words are loaded, and the CPU island begins, before the verdict of Onyx's self-test
counts (R451, R507, R546). -/
def coreReleased (testOk : Bool) (s : State) : State :=
  let s0 := releaseClocks s
  beginIsland 0 (loadAxes { s0 with
    pers := loadWear { s0.pers with opMinutes := s.pers.opMinutes + w32 s.pwr.sleepMinutes }
    pwr := { s0.pwr with
      inReset := false, starting := true, sleepMinutes := 0,
      islands := s.pwr.islands.map fun i => { islandOff with padHeld := i.padHeld } }
    onyx := { s0.onyx with selfTestOk := testOk } })

theorem chipResetRelease_eq {f : Option Nat} {s : State} (hp : s.pwr.porHeld = false) (hr : s.pwr.resetPin = false) (hu : s.pwr.uvHeld = false)
    (hi : s.pwr.inReset = true) : execChipResetRelease f s = .next (match f with
      | none => coreReleased true s
      | some i => setOpState .safe false (latchTrip 15 (w32 i) (coreReleased false s))) := by
  have hn : ¬ (s.pwr.porHeld = true ∨ s.pwr.resetPin = true ∨ s.pwr.uvHeld = true ∨ ¬ s.pwr.inReset = true) := by simp [hp, hr, hu, hi]
  unfold execChipResetRelease
  rw [if_neg hn]
  cases f <;> rfl

theorem loadWear_opMinutes (p : Pers) : (loadWear p).opMinutes = p.opMinutes := by
  unfold loadWear
  split <;> rfl

/-- The first island's bring-up begins, and no other's. -/
theorem beginIsland_first {s : State} {l : List Island} (hl : l.length = 4)
    (hs : s.pwr.islands = l.map fun i => { islandOff with padHeld := i.padHeld }) :
    (cell (beginIsland 0 s).pwr.islands 0 {}).stage = 1 ∧ ∀ i, 0 < i → i < 4 → (cell (beginIsland 0 s).pwr.islands i {}).stage = 0 := by
  have hlen : s.pwr.islands.length = 4 := by rw [hs, List.length_map, hl]
  have hc := fun m => cell_upd s.pwr.islands 0 m (fun x : Island => { x with stage := 1, on := false, stageAt := s.pos.mono }) {} (by omega)
  refine ⟨congrArg Island.stage ((hc 0).trans (if_pos rfl)), fun i h0 h4 => ?_⟩
  have hm : cell s.pwr.islands i {} = { islandOff with padHeld := (cell l i {}).padHeld } := by
    rw [hs]
    exact cell_map (fun x : Island => { islandOff with padHeld := x.padHeld }) l {} {} (hl.symm ▸ h4)
  exact congrArg Island.stage (((hc i).trans (if_neg (Nat.ne_of_lt h0))).trans hm)

theorem coreReleased_starts (testOk : Bool) {s : State} (hl : s.pwr.islands.length = 4) :
    (cell (coreReleased testOk s).pwr.islands 0 {}).stage = 1 ∧
    (coreReleased testOk s).pers.opMinutes = s.pers.opMinutes + w32 s.pwr.sleepMinutes :=
  ⟨(beginIsland_first hl rfl).1, loadWear_opMinutes _⟩

/-- A self-test that fails trips, and takes the unit to SAFE (R451); what the release did stays. -/
theorem selfTestTrip (i : Nat) (s : State) : (setOpState .safe false (latchTrip 15 (w32 i) s)).pwr = s.pwr ∧
    (setOpState .safe false (latchTrip 15 (w32 i) s)).pers.quiet = s.pers.quiet ∧
    (setOpState .safe false (latchTrip 15 (w32 i) s)).onyx.selfTestOk = s.onyx.selfTestOk ∧
    (s.onyx.tripped = false → (setOpState .safe false (latchTrip 15 (w32 i) s)).onyx.tripped = true ∧
      (setOpState .safe false (latchTrip 15 (w32 i) s)).onyx.cause = 15 ∧
      (setOpState .safe false (latchTrip 15 (w32 i) s)).onyx.param = w32 i) := by
  obtain ⟨hpwr, hpers, htest⟩ := latchTrip_leaves 15 (w32 i) s
  have ho := setOpState_onyx .safe false (latchTrip 15 (w32 i) s)
  refine ⟨(setOpState_pwr ..).trans hpwr, (setOpState_pers ..).trans hpers, (congrArg Onyx.selfTestOk ho :).trans htest, fun h => ?_⟩
  have ht := latchTrip_onyx 15 (w32 i) h
  exact ⟨(congrArg Onyx.tripped ho :).trans (congrArg Onyx.tripped ht :), (congrArg Onyx.cause ho :).trans (congrArg Onyx.cause ht :),
    (congrArg Onyx.param ho :).trans (congrArg Onyx.param ht :)⟩

/-! ## Timeouts -/

theorem seqTimeout_early {i : Fin 4} {s : State}
    (h : s.aonDue (cell s.pwr.islands i {}).stageAt (stageLimit (cell s.pwr.islands i {}).stage) = false) : execSeqTimeout i s = .next s :=
  congrArg _ (if_pos (.inr (.inr (by rw [h]; rfl))))

section
variable {i : Fin 4} {s : State} (hst : (cell s.pwr.islands i {}).stage ∈ [1, 2, 3, 4])
  (hd : s.aonDue (cell s.pwr.islands i {}).stageAt (stageLimit (cell s.pwr.islands i {}).stage) = true)
include hst hd

theorem seqTimeout_counts : ¬ ((cell s.pwr.islands i {}).stage = 0 ∨ (cell s.pwr.islands i {}).stage ≥ 5 ∨
    (!s.aonDue (cell s.pwr.islands i {}).stageAt (stageLimit (cell s.pwr.islands i {}).stage)) = true) := by
  rw [hd]
  simp only [List.mem_cons, List.not_mem_nil, or_false] at hst
  simp only [Bool.not_true, Bool.false_eq_true, or_false]
  omega

theorem seqTimeout_first (ht : (cell s.pwr.islands i {}).tries = 0) : execSeqTimeout i s =
    .next (stickRec .seqTimeout (setIsland i (fun x => { x with tries := 1, stage := 1, stageAt := s.pos.mono }) s)) := by
  unfold execSeqTimeout
  dsimp only
  rw [if_neg (seqTimeout_counts hst hd), if_pos ht]

/-- A second timeout of the CPU or the IO island at start-up leaves the chip in reset (R539). -/
theorem seqTimeout_second (ht : (cell s.pwr.islands i {}).tries ≠ 0) (hs : s.pwr.starting = true) (hi : i = 0 ∨ i = 3) :
    ∃ u : State, execSeqTimeout i s = .next (stickRec .seqTimeout u) ∧ u.pwr.inReset = true ∧ u.pwr.starting = false := by
  have hi' : (i : Nat) = 0 ∨ (i : Nat) = 3 := hi.imp (congrArg Fin.val) (congrArg Fin.val)
  unfold execSeqTimeout
  dsimp only
  rw [if_neg (seqTimeout_counts hst hd), if_neg ht, if_pos hs, if_pos hi']
  exact ⟨_, rfl, rfl, rfl⟩

end

/-- The start-up sequence begins anew (R539). -/
def startupAgain (s : State) : State :=
  let s := releaseClocks s
  beginIsland 0 { s with pwr := { s.pwr with
    inReset := false, starting := true, islands := s.pwr.islands.map fun i => { islandOff with padHeld := i.padHeld } } }

theorem startupAgain_onlyChanges (s : State) : OnlyChanges [.pwr, .pos, .host, .onyx, .pers] s (startupAgain s) := by
  intro p hp
  cases p <;> simp_all [State.agree, startupAgain, releaseClocks, beginIsland]

theorem startupRetry_due {s : State} (hr : s.pwr.inReset = true) (ho : s.host.opState = .boot) (ht : ∃ x ∈ s.pwr.islands, x.timeout = true)
    (hd : s.aonDue s.pwr.retryAt 1000000000 = true) : execStartupRetry s = .next (startupAgain s) :=
  congrArg _ (if_pos ⟨List.any_eq_true.mpr ht, hr, ho, hd⟩)

/-! ## START-UP -/

/-- At start-up the islands come up in the order CPU, IO, MEM, PIPE (R538); the CPU island's readiness changes nothing else. -/
theorem islandReady_cpu {s : State} (hs : s.pwr.starting = true) (hl : s.pwr.islands.length = 4) :
    (cell (islandReady 0 s).pwr.islands 3 {}).stage = 1 ∧ OnlyChanges [.pwr] s (islandReady 0 s) := by
  rw [islandReady_next (j := 3) hs rfl]
  exact ⟨(beginIsland_next hl (by decide) (by decide) (by decide)).2, onlyChanges_pwr s _⟩

/-- The IO island's readiness loads the IDs. -/
theorem islandReady_io {s : State} (hs : s.pwr.starting = true) (hl : s.pwr.islands.length = 4) :
    (cell (islandReady 3 s).pwr.islands 1 {}).stage = 1 ∧ OnlyChanges [.pwr, .host] s (islandReady 3 s) := by
  rw [islandReady_next (j := 1) hs rfl]
  refine ⟨(beginIsland_next hl (by decide) (by decide) (by decide)).2, ?_⟩
  refine OnlyChanges.trans (t := setIsland 3 Island.up s) ((onlyChanges_pwr s _).mono (by decide)) ?_
  exact OnlyChanges.trans (t := loadIds (setIsland 3 Island.up s)) ((onlyChanges_host _ _).mono (by decide))
    ((onlyChanges_pwr _ _).mono (by decide))

theorem islandReady_mem {s : State} (hs : s.pwr.starting = true) (hl : s.pwr.islands.length = 4) :
    (cell (islandReady 1 s).pwr.islands 2 {}).stage = 1 := by
  rw [islandReady_next (j := 2) hs rfl]
  exact (beginIsland_next hl (by decide) (by decide) (by decide)).2

/-- The PIPE island's readiness brings nothing with it. -/
theorem islandUp_pipe (s : State) : islandUp 2 s = setIsland 2 Island.up s := by
  unfold islandUp
  dsimp only
  rw [if_neg (by decide), if_neg (by simp)]

/-- With the PIPE island start-up has ended. -/
def startupEnded (s : State) : State :=
  { setIsland 2 Island.up s with pwr := { (setIsland 2 Island.up s).pwr with starting := false } }

/-- Then the lanes enter DETECT (R546). -/
theorem islandReady_pipe {s : State} (hs : s.pwr.starting = true) : islandReady 2 s = lanesToDetect (startupEnded s) := by
  rw [islandReady_last hs rfl, islandUp_pipe]
  rfl

theorem islandReady_pipe_frame {s : State} (hs : s.pwr.starting = true) : (islandReady 2 s).pwr.starting = false ∧
    (s.noneActive → OnlyChanges [.pwr, .hl, .out] s (islandReady 2 s)) := by
  rw [islandReady_pipe hs, lanesToDetect_pwr]
  refine ⟨rfl, fun hn => ?_⟩
  have h1 : OnlyChanges [.pwr, .hl, .out] s (startupEnded s) := (onlyChanges_pwr s _).mono (by decide)
  have h2 : (startupEnded s).noneActive := hn
  exact h1.trans ((lanesToDetect_quiet h2).mono (by decide))

/-- What the release of core reset does, whatever the self-test says (R451, R462, R507, R546). -/
theorem chipResetRelease_starts (f : Option Nat) {s : State} (hp : s.pwr.porHeld = false) (hr : s.pwr.resetPin = false)
    (hu : s.pwr.uvHeld = false) (hi : s.pwr.inReset = true) (hl : s.pwr.islands.length = 4) :
    ∃ t, execChipResetRelease f s = .next t ∧ t.pwr.inReset = false ∧ t.pwr.starting = true ∧ (cell t.pwr.islands 0 {}).stage = 1 ∧
      t.pers.opMinutes = s.pers.opMinutes + w32 s.pwr.sleepMinutes ∧ t.onyx.selfTestOk = f.isNone ∧
      (f = none → t.onyx.tripped = s.onyx.tripped ∧ t.host.opState = s.host.opState ∧ t.pos.mono = 0 ∧ t.pos.net = 0) ∧
      (∀ i, f = some i → s.onyx.tripped = false → t.onyx.tripped = true ∧ t.onyx.cause = 15 ∧ t.onyx.param = w32 i ∧
        t.host.opState = .safe) := by
  rw [chipResetRelease_eq hp hr hu hi]
  cases f with
  | none =>
    obtain ⟨hstage, hmin⟩ := coreReleased_starts true hl
    exact ⟨_, rfl, rfl, rfl, hstage, hmin, rfl, fun _ => ⟨rfl, rfl, rfl, rfl⟩, fun i h => nomatch h⟩
  | some n =>
    obtain ⟨hstage, hmin⟩ := coreReleased_starts false hl
    obtain ⟨hpwr, hpers, htest, htrip⟩ := selfTestTrip n (coreReleased false s)
    refine ⟨_, rfl, congrArg Pwr.inReset hpwr, congrArg Pwr.starting hpwr, hpwr ▸ hstage, (congrArg Pers.opMinutes hpers :).trans hmin, htest,
      (fun h => nomatch h), fun i h hnt => ?_⟩
    obtain rfl : n = i := Option.some.inj h
    obtain ⟨h1, h2, h3⟩ := htrip hnt
    exact ⟨h1, h2, h3, setOpState_opState ..⟩

theorem startUp : Claims.StartUp := by
  refine ⟨fun f s hp hr hu hi hl => chipResetRelease_starts f hp hr hu hi hl, fun i s h => islandStageReady_more h, fun i s h hl => ?lastStage,
    fun i s h => seqTimeout_early h, fun i s hst ht hd => seqTimeout_first hst hd ht, fun i s hst ht hs hd hi => ?secondTimeout,
    fun s hr ho hl ht hd => ?retry⟩
  case lastStage =>
    refine ⟨_, islandStageReady_last h, congrArg Island.on (islandReady_up hl), congrArg Island.stage (islandReady_up hl),
      fun hs hi => ?_, fun hs hi => ?_, fun hs hi => ?_, fun hs hi => ?_⟩
    · subst hi
      exact islandReady_cpu hs hl
    · subst hi
      exact islandReady_io hs hl
    · subst hi
      exact islandReady_mem hs hl
    · subst hi
      exact islandReady_pipe_frame hs
  case secondTimeout =>
    obtain ⟨u, hu, hr, hst'⟩ := seqTimeout_second hst hd ht hs hi
    exact ⟨_, hu, hr, hst'⟩
  case retry =>
    obtain ⟨hstage, hrest⟩ := beginIsland_first (s := { releaseClocks s with pwr := { (releaseClocks s).pwr with
      inReset := false, starting := true, islands := s.pwr.islands.map fun i => { islandOff with padHeld := i.padHeld } } }) hl rfl
    exact ⟨_, startupRetry_due hr ho ht hd, startupAgain_onlyChanges s, rfl, rfl, rfl, hstage, hrest⟩

/-! ## The boot image -/

/-- DRAM is ready and nothing holds Beryl: the boot image is read (R546, R547). -/
theorem firmwareStart_boots {a b : List Byte} {s : State} (ho : s.host.opState = .boot) (hr : s.host.berylRunning = false)
    (hw : s.host.bootRomWaiting = false) (hrs : s.host.restarting = false) (hh : s.onyx.berylHeld = false) (hi : s.pwr.inReset = false)
    (hz : s.dram.zeroed = true) : execFirmwareStart a b s = .next (bootImage (readHalves a b s)) := by
  unfold execFirmwareStart
  rw [if_neg (by simp [ho, hr, hw, hrs, hh, hi, hz])]

section
variable {s : State}

theorem bootImage_other (ha : s.host.bootAlt = false) (hb : imageGood (halfRead s.host s.host.activeHalf) = false)
    (hg : imageGood (halfRead s.host (!s.host.activeHalf)) = true) :
    bootImage s = bootHalf (!s.host.activeHalf) (halfRead s.host (!s.host.activeHalf)) s := by
  simp [bootImage, ha, hb, hg]

/-- BOOT_ALT has the half not in use tried first (R71). -/
theorem bootImage_alt (ha : s.host.bootAlt = true) (hg : imageGood (halfRead s.host (!s.host.activeHalf)) = true) :
    bootImage s = bootHalf (!s.host.activeHalf) (halfRead s.host (!s.host.activeHalf)) s := by
  simp [bootImage, ha, hg]

/-- With neither half good the boot ROM waits for a pushed image (R547). -/
theorem bootImage_none (ha : s.host.bootAlt = false) (hb : ∀ h, imageGood (halfRead s.host h) = false) :
    bootImage s = { s with host := { s.host with bootRomWaiting := true, mbxReady := true, bootAlt := false } } := by
  simp [bootImage, ha, hb]

end

theorem readHalves_reads (a b : List Byte) (s : State) : halfRead (readHalves a b s).host false = ((cell s.host.qspi 0 none).getD a) ∧
    halfRead (readHalves a b s).host true = ((cell s.host.qspi 1 none).getD b) := by
  constructor
  · change ((cell s.host.qspi 0 none).or (some a)).getD [] = _
    cases cell s.host.qspi 0 none <;> rfl
  · change ((cell s.host.qspi 1 none).or (some b)).getD [] = _
    cases cell s.host.qspi 1 none <;> rfl

/-! ## BOOT_COMPLETE -/

theorem loadSlot_onyx (b : Bool) (s : State) : (loadSlot b s).onyx = s.onyx := rfl

theorem stickEvent_onyx (k : Sticky) (e : Event) (s : State) : (stickEvent k e s).onyx = s.onyx := rfl

theorem loadSet_onyx (badA badB : Bool) (s : State) : (loadSet badA badB s).onyx = s.onyx := by
  simp only [loadSet, apply_ite State.onyx, loadSlot_onyx, stickRec_onyx, stickEvent_onyx, ite_self]

/-- The set is loaded and BOOT_COMPLETE queued (R515, R546). -/
def booted (badA badB : Bool) (s : State) : State := event { ev := .bootComplete } (loadSet badA badB s)

theorem bootComplete_eq (a b : Bool) {s : State} (ho : s.host.opState = .boot) (hr : s.host.berylRunning = true)
    (hw : s.host.bootRomWaiting = false) (hs : s.pwr.starting = false) (hp : (cell s.pwr.islands 2 {}).on = true) :
    execBootComplete a b s = .next (if (booted a b s).onyx.tripped then setOpState .safe false (booted a b s)
      else setPermission 2 4 true (setPermission 1 4 true (setOpState .ready false (booted a b s)))) := by
  have hn : ¬ (s.host.opState ≠ .boot ∨ (!s.host.berylRunning) = true ∨ s.host.bootRomWaiting = true ∨ s.pwr.starting = true ∨
      (!(cell s.pwr.islands 2 {}).on) = true) := by
    rw [hp]
    simp [ho, hr, hw, hs]
  unfold execBootComplete
  rw [if_neg hn]
  rfl

/-! ## PWR_BOOT_LOAD -/

section
variable {k : Fin 16} {c : RungCmd} {s : State}

/-- The state in which a boot load of tag c.tag has been accepted and its bytes asked for (R554). -/
def bootLoading (k : Fin 16) (c : RungCmd) (s : State) : State :=
  let s1 := outstand 0x0F05 c.tag 0 (begun k s)
  readHost (wn64 c.payload 0) (c.w 2).toNat { s1 with host := { s1.host with bootLoad := some (c.tag, c.w 1 ++ c.w 0, c.w 2) } }

theorem pwrBootLoad_answers (h : Rung 0x0F05 3 k c s) (ha : (c.w 0).toNat % 4096 = 0) (hl : 4096 ≤ (c.w 2).toNat)
    (hu : (c.w 2).toNat ≤ 4194304) (hf : s.host.bootLoad = none) (hw : s.host.bootRomWaiting = true) (ho : s.host.outst.length < 16) :
    execPwrBootLoad k s = .next (respond k accepted (bootLoading k c s)) := by
  obtain ⟨haddr, hlen⟩ := imageOperands_pass (ws := c.payload) ha hl hu
  refine congrArg Host.Outcome.next (command_done h ?_ ?_)
  · simp only [passes_cons, passes_nil, haddr, hlen, hf, hw, completionsFull_passes ho, Option.isSome_none, Bool.not_true, and_self]
  · dsimp only
    rw [wn64_append]
    rfl

theorem pwrBootLoadDone_ends {image : List Byte} {tag : Word} {a : Dword} {n : Word} (h : s.host.bootLoad = some (tag, a, n))
    (hl : image.length = n.toNat) : execPwrBootLoadDone image s = .next (if imageGood image
      then complete 0x0F05 tag 0 0 0 0 (startFirmware image 2 { s with host := { s.host with bootLoad := none } })
      else complete 0x0F05 tag 0x41 0 0 0 { s with host := { s.host with bootLoad := none } }) := by
  unfold execPwrBootLoadDone
  rw [h]
  exact congrArg _ (if_neg (not_not.mpr hl))

end

/-! ## The firmware starts -/

theorem firmwareStarts : Claims.FirmwareStarts := by
  refine ⟨fun a b s u ho hr hw hrs hh hi hz hu => ?halves, fun a b s => ⟨onlyChanges_host s _, readHalves_reads a b s⟩,
    fun h image s => ⟨rfl, rfl, rfl, rfl, rfl, onlyChanges_host s _⟩, fun a b s ho hr hw hs hp => ?complete,
    fun k c s h ha hl hu hf hw ho => ⟨_, pwrBootLoad_answers h ha hl hu hf hw ho, onlyChanges_host_out (begun k s) _ _, rfl, rfl⟩,
    fun image tag a n s h hl => ⟨fun hg => (pwrBootLoadDone_ends h hl).trans (congrArg _ (if_pos hg)),
      fun hg => (pwrBootLoadDone_ends h hl).trans (congrArg _ (if_neg (by simp [hg])))⟩⟩
  case halves =>
    subst hu
    have hstart := firmwareStart_boots (a := a) (b := b) ho hr hw hrs hh hi hz
    exact ⟨fun ha hg => hstart.trans (congrArg _ (bootImage_active (s := readHalves a b s) ha hg)),
      fun ha hb hg => hstart.trans (congrArg _ (bootImage_other (s := readHalves a b s) ha hb hg)),
      fun ha hg => hstart.trans (congrArg _ (bootImage_alt (s := readHalves a b s) ha hg)),
      fun ha hb => hstart.trans (congrArg _ (bootImage_none (s := readHalves a b s) ha hb))⟩
  case complete =>
    have ht : (booted a b s).onyx = s.onyx := loadSet_onyx a b s
    refine ⟨_, bootComplete_eq a b ho hr hw hs hp, fun h => ?_, fun h => ?_⟩
    · rw [ht, h]
      exact ⟨(setPermission_opState ..).trans ((setPermission_opState ..).trans (setOpState_opState ..)), permits_granted _ (by decide)⟩
    · rw [ht, h]
      exact setOpState_opState ..

/-- Settles O15: the release of reset, each stage and each timeout by its case; the boot image by the halves that verify. -/
theorem startUpAndFirmware : Obligations.StartUpAndFirmware := ⟨startUp, firmwareStarts⟩

end Sys2Proof.Machine
end

section
/-!
PROOFS. One commit group among the four: what changes of a group, messages and completions leave and write (R75, R83).
-/
namespace Sys2Proof.Machine

/-! ## One group among the four -/

theorem setGroup_onlyChanges (g : Nat) (f : Group → Group) (s : State) : OnlyChanges [.cg] s (setGroup g f s) := by
  intro p hp
  cases p <;> simp_all [State.agree]

/-- The groups are the four of R75, so a change of one is seen, and only there. -/
theorem group_setGroup {g : Nat} {f : Group → Group} {s : State} (h : g < s.cg.groups.length) (j : Nat) :
    (setGroup g f s).cg.group j = if g = j then f (s.cg.group j) else s.cg.group j :=
  cell_upd s.cg.groups g j f {} h

theorem group_setGroup_same {g : Nat} {f : Group → Group} {s : State} (h : g < s.cg.groups.length) :
    (setGroup g f s).cg.group g = f (s.cg.group g) := (group_setGroup h g).trans (if_pos rfl)

theorem group_setGroup_other {g j : Nat} (f : Group → Group) (s : State) (h : j ≠ g) : (setGroup g f s).cg.group j = s.cg.group j := by
  simp [Commit.group, cell, upd, List.getD_eq_getElem?_getD, h.symm]

theorem setGroup_setGroup (g : Nat) (f h : Group → Group) (s : State) : setGroup g h (setGroup g f s) = setGroup g (h ∘ f) s :=
  congrArg (fun l => { s with cg := { s.cg with groups := l } }) (upd_upd s.cg.groups g f h)

/-- A change of a group is what it makes of that group. -/
theorem setGroup_eq_const {g : Nat} (f : Group → Group) {s : State} (h : g < s.cg.groups.length) :
    setGroup g f s = setGroup g (fun _ => f (s.cg.group g)) s := by
  have e : upd s.cg.groups g f = upd s.cg.groups g fun _ => f (s.cg.group g) := by
    refine List.ext_getElem (by simp [upd]) fun i hi _ => ?_
    simp only [upd, List.getElem_modify, Commit.group, cell]
    split
    next hg => subst hg; rw [List.getD_eq_getElem _ _ h]
    next => rfl
  exact congrArg (fun l => { s with cg := { s.cg with groups := l } }) e

theorem mem_groupsWhere {p : Group → Bool} {s : State} {g : Nat} : g ∈ groupsWhere p s ↔ g < 4 ∧ p (s.cg.group g) = true := by
  simp [groupsWhere]

theorem groupsWhere_eq_nil {p : Group → Bool} {s : State} (h : ∀ j, j < 4 → p (s.cg.group j) = false) : groupsWhere p s = [] :=
  List.filter_eq_nil_iff.mpr fun j hj => by simp [h j (List.mem_range.mp hj)]

/-- The lowest of the groups a test picks. -/
theorem groupsWhere_head? {p : Group → Bool} {s : State} {g : Nat} (hg : g < 4) (hp : p (s.cg.group g) = true)
    (hl : ∀ j, j < g → p (s.cg.group j) = false) : (groupsWhere p s).head? = some g := by
  rw [groupsWhere, List.head?_filter, List.find?_range_eq_some]
  exact ⟨hp, List.mem_range.mpr hg, fun j hj => by simp [hl j hj]⟩

end Sys2Proof.Machine
end

section
/-!
PROOFS. Opening, staging, validating and releasing commit groups (R83 to R86, R99, R101, R103 to R106, R581).
-/
namespace Sys2Proof.Machine

/-! ## Operands -/

/-- A group is named by its number and its handle (R103). -/
theorem groupNumber {w : Word} {g : Nat} (h : w.toNat = g) (hg : g < 4) : fld w 0 2 = g := by
  rw [fld_of_lt (n := 2) (by omega), h]

/-- Of a group named rightly whose last CG_STAGE or CG_VALIDATE has ended, the checks of R103 pass. -/
theorem groupChecks_pass {mask : Word} {ws : List Word} {s : State} {g : Nat} (hm : wd ws 0 &&& ~~~ mask = 0) (hg : fld (wd ws 0) 0 2 = g)
    (hh : wd ws 1 = (s.cg.group g).handle) (hr : (s.cg.group g).running = false) : Passes (groupChecks mask s ws) := by
  simp only [groupChecks, passes_cons, passes_nil, hg, hr, reservedW_passes hm, hh, bne_self_eq_false, and_self]

theorem groupMask {w : Word} {g : Nat} (h : w.toNat = g) (hg : g < 4) : w &&& ~~~ 3 = 0 := reserved_clear (n := 2) (by omega)

/-! ## CG_OPEN -/

theorem nextHandle_ne_zero (w : Word) : nextHandle w ≠ 0 := by
  unfold nextHandle
  split
  · decide
  · bv_omega

section
variable {k : Fin 16} {c : RungCmd} {s : State}

theorem cgOpen_answers {g : Nat} (h : Rung 0x0200 0 k c s) (hb : s.host.opState ≠ .boot) (hg : g < 4) (he : (s.cg.group g).st = .empty)
    (hl : ∀ j, j < g → (s.cg.group j).st ≠ .empty) :
    execCgOpen k s = .next (respond k (okWith [w32 g, nextHandle s.cg.handleCtr])
      (setGroup g (fun _ => { st := .opened, handle := nextHandle s.cg.handleCtr })
        { begun k s with cg := { s.cg with handleCtr := nextHandle s.cg.handleCtr } })) := by
  have hhead : (groupsWhere (fun x => x.st == .empty) s).head? = some g :=
    groupsWhere_head? hg (by simp [he]) fun j hj => by simp [hl j hj]
  have hsome : (groupsWhere (fun x => x.st == .empty) s).isEmpty = false := by
    cases e : groupsWhere (fun x => x.st == .empty) s with
    | nil => rw [e] at hhead; cases hhead
    | cons => rfl
  have hhead' : (groupsWhere (fun x => x.st == .empty) (begun k s)).head? = some g := hhead
  refine congrArg Host.Outcome.next (command_done h ?_ ?_)
  · simp only [passes_cons, passes_nil, notBoot_passes hb, hsome, and_self]
  · simp only [openGroup, hhead', done]
    rfl

theorem cgOpen_full (h : Rung 0x0200 0 k c s) (hb : s.host.opState ≠ .boot) (he : ∀ j, j < 4 → (s.cg.group j).st ≠ .empty) :
    execCgOpen k s = .next (respond k noResource (begun k s)) := by
  have hnone : (groupsWhere (fun x => x.st == .empty) s).isEmpty = true := by
    rw [groupsWhere_eq_nil fun j hj => by simp [he j hj]]
    rfl
  refine congrArg Host.Outcome.next (command_refused h ?_)
  simp only [pick_passed (notBoot_passes hb), hnone, pick_failed]

/-! ## CG_STAGE -/

/-- The fetch that a CG_STAGE begins (R105). -/
def stageJob (c : RungCmd) : StageJob :=
  { tag := c.tag, kind := (c.w 2).toNat % 256, target := (c.w 2).toNat / 256, len := (c.w 5).toNat, crc := c.w 6 }

/-- The state in which a CG_STAGE of group g has been accepted and its object asked for (R84). -/
def stagingGroup (k : Fin 16) (c : RungCmd) (g : Nat) (s : State) : State :=
  readHost (wn64 c.payload 3) (c.w 5).toNat
    (outstand 0x0201 c.tag g (setGroup g (fun x => { x with stage := some (stageJob c) }) (begun k s)))

theorem outstand_onlyChanges (opcode : Nat) (tag : Word) (ref : Nat) (s : State) : OnlyChanges [.host] s (outstand opcode tag ref s) :=
  onlyChanges_host s _

theorem readHost_onlyChanges (addr len : Nat) (s : State) : OnlyChanges [.out] s (readHost addr len s) := by
  intro p hp
  cases p <;> simp_all [State.agree]

/-- The kind and the target of a CG_STAGE stand in the low two bytes of its word 2 (R105). -/
theorem stageJob_word {w : Word} (h : w.toNat < 65536) : fld w 0 8 = w.toNat % 256 ∧ fld w 8 8 = w.toNat / 256 := by
  constructor
  · rfl
  · simp only [fld, bits]
    omega

theorem cgStage_answers {g : Nat} (h : Rung 0x0201 7 k c s) (hw : (c.w 0).toNat = g) (hg : g < 4) (hh : c.w 1 = (s.cg.group g).handle)
    (hr : (s.cg.group g).running = false)
    (hst : (s.cg.group g).st = .opened ∨ (s.cg.group g).st = .valid ∨ (s.cg.group g).st = .aborted) (hlo : 1 ≤ (c.w 2).toNat % 256)
    (hhi : (c.w 2).toNat % 256 ≤ 13) (h2 : (c.w 2).toNat < 65536) (h3 : (c.w 3).toNat % 8 = 0) (ho : s.host.outst.length < 16) :
    execCgStage k s = .next (respond k accepted (stagingGroup k c g s)) := by
  obtain ⟨hkind, htarget⟩ := stageJob_word h2
  have hnum : fld (wd c.payload 0) 0 2 = g := groupNumber hw hg
  have hk : decide (fld (wd c.payload 2) 0 8 < 1 ∨ fld (wd c.payload 2) 0 8 > 13) = false := decide_eq_false (by
    rw [show fld (wd c.payload 2) 0 8 = _ from hkind]; omega)
  have hstate : (!((s.cg.group g).st == .opened || (s.cg.group g).st == .valid || (s.cg.group g).st == .aborted)) = false := by
    rcases hst with e | e | e <;> rw [e] <;> rfl
  have hres : (reservedW c.payload 2 0xFFFF).1 = false := reservedW_passes (reserved_clear (n := 16) h2)
  have halign : (wn c.payload 3 % 8 != 0) = false := by simpa [wn, RungCmd.w] using h3
  refine congrArg Host.Outcome.next (command_done h ?_ ?_)
  · simp only [passes_append, passes_cons, passes_nil, groupChecks_pass (groupMask hw hg) hnum hh hr, hnum, hk, hstate, hres, halign,
      completionsFull_passes ho, and_self]
  · dsimp only
    rw [hnum, show fld (wd c.payload 2) 0 8 = _ from hkind, show fld (wd c.payload 2) 8 8 = _ from htarget]
    rfl

theorem stagingGroup_frame (g : Nat) : OnlyChanges [.host, .cg, .out] (begun k s) (stagingGroup k c g s) :=
  (((setGroup_onlyChanges g _ _).mono (by decide)).trans ((outstand_onlyChanges _ _ g _).mono (by decide))).trans
    ((readHost_onlyChanges _ _ _).mono (by decide))

/-! ## CG_VALIDATE -/

theorem cgValidate_answers {g : Nat} (h : Rung 0x0202 2 k c s) (hw : (c.w 0).toNat = g) (hg : g < 4) (hh : c.w 1 = (s.cg.group g).handle)
    (hr : (s.cg.group g).running = false) (hst : (s.cg.group g).st = .opened) (ho : s.host.outst.length < 16) :
    execCgValidate k s = .next (respond k accepted
      (outstand 0x0202 c.tag g (setGroup g (fun x => { x with validTag := some c.tag }) (begun k s)))) := by
  have hnum : fld (wd c.payload 0) 0 2 = g := groupNumber hw hg
  refine congrArg Host.Outcome.next (command_done h ?_ ?_)
  · simp only [passes_append, passes_cons, passes_nil, groupChecks_pass (groupMask hw hg) hnum hh hr, hnum, hst, bne_self_eq_false,
      completionsFull_passes ho, and_self]
  · dsimp only
    rw [hnum]
    rfl

/-! ## CG_RELEASE -/

theorem cgRelease_answers {g : Nat} (h : Rung 0x0205 2 k c s) (hw : (c.w 0).toNat = g) (hg : g < 4) (hh : c.w 1 = (s.cg.group g).handle)
    (hr : (s.cg.group g).running = false) (hst : (s.cg.group g).st = .opened ∨ (s.cg.group g).st = .valid ∨ (s.cg.group g).st = .committed ∨
      (s.cg.group g).st = .aborted) : execCgRelease k s = .next (respond k ok (setGroup g Group.released (begun k s))) := by
  have hnum : fld (wd c.payload 0) 0 2 = g := groupNumber hw hg
  have hstate : (!((s.cg.group g).st == .opened || (s.cg.group g).st == .valid || (s.cg.group g).st == .committed ||
      (s.cg.group g).st == .aborted)) = false := by
    rcases hst with e | e | e | e <;> rw [e] <;> rfl
  refine congrArg Host.Outcome.next (command_done h ?_ ?_)
  · simp only [passes_append, passes_cons, passes_nil, groupChecks_pass (groupMask hw hg) hnum hh hr, hnum, hstate, and_self]
  · rw [hnum]
    rfl

end

/-! ## The end of a fetch -/

/-- The group after an object has joined it (R74, R83). -/
def Group.withObject (j : StageJob) (bytes : List Byte) (x : Group) : Group :=
  { x with
    stage := none, objs := insertObj { kind := j.kind, target := j.target, bytes := bytes } x.objs
    bad := x.bad.filter (· != (j.kind, j.target)), st := .opened, digest := 0 }

section
variable {g : Fin 4} {j : StageJob} {bytes : List Byte} {s : State} (hj : (s.cg.group g).stage = some j)
include hj

theorem cgStageDone_failed : execCgStageDone g none s =
    .next (complete 0x0201 j.tag 0x30 0 0 0 (setGroup g (fun x => { x with stage := none }) s)) := by
  unfold execCgStageDone
  rw [hj]

theorem cgStageDone_whole (hl : bytes.length = j.len) : execCgStageDone g (some bytes) s = .next (stageObject g j bytes s) := by
  unfold execCgStageDone
  rw [hj]
  exact congrArg Host.Outcome.next (if_pos hl)

end

theorem stageObject_wrong {g : Nat} {j : StageJob} {bytes : List Byte} (h : crc32 bytes ≠ j.crc.toNat) (s : State) :
    stageObject g j bytes s = complete 0x0201 j.tag 0x41 0 0 0 (setGroup g (fun x => { x with stage := none }) s) := if_pos h

theorem stageObject_joins {g : Nat} {j : StageJob} {bytes : List Byte} {s : State} (hg : g < s.cg.groups.length) {u : Group} {t : State}
    (hu : u = (s.cg.group g).withObject j bytes) (ht : t = setGroup g (fun _ => u) s) (hc : crc32 bytes = j.crc.toNat)
    (hn : u.objs.length ≤ 128) (hs : stagedTotal t ≤ 67108864) :
    stageObject g j bytes s = complete 0x0201 j.tag 0 (w32 u.objs.length) (w32 u.size) (w32 (stagedTotal t)) t := by
  have e : setGroup g (fun x => { x with
      objs := insertObj { kind := j.kind, target := j.target, bytes := bytes } (s.cg.group g).objs
      bad := x.bad.filter (· != (j.kind, j.target)), st := .opened, digest := 0 }) (setGroup g (fun x => { x with stage := none }) s) = t := by
    rw [setGroup_setGroup, setGroup_eq_const _ hg, ht, hu]
    rfl
  have hgrp : t.cg.group g = u := by rw [ht]; exact group_setGroup_same hg
  unfold stageObject
  extract_lets s1 objs s2
  have h2 : s2 = t := e
  have hobjs : objs = u.objs := (congrArg Group.objs hu).symm
  rw [h2, hobjs, hgrp, if_neg (not_not.mpr hc), if_neg (by omega)]

theorem groupStaging : Claims.GroupStaging := by
  refine ⟨fun k c s g h hb hl hg he hlow => ?opens, fun k c s => cgOpen_full, fun k c s g h hw hg hh hr hst hlo hhi h2 h3 ho hl => ?stages,
    fun g j bytes objs u s hj hl hobjs hu => ⟨fun hb hc hn hs => ?joins, fun hb hc => ?wrong, cgStageDone_failed hj⟩,
    fun k c s g => cgRelease_answers⟩
  case opens =>
    have hlen : g < (begun k s).cg.groups.length := hl.symm ▸ hg
    refine ⟨_, _, cgOpen_answers h hb hg he hlow, ?_, rfl, ?_, ?_, fun j hj => ?_, rfl⟩
    · intro p hp
      cases p <;> simp_all [State.agree]
    · exact nextHandle_ne_zero _
    · exact group_setGroup_same hlen
    · exact group_setGroup_other _ _ hj
  case stages =>
    refine ⟨_, cgStage_answers h hw hg hh hr hst hlo hhi h2 h3 ho, stagingGroup_frame g, ?_, rfl, rfl⟩
    exact group_setGroup_same (hl.symm ▸ hg)
  case joins =>
    subst hobjs
    have ht := stageObject_joins (hl.symm ▸ g.isLt) hu rfl hc (by rw [hu]; exact hn) hs
    rw [show exec (.cgStageDone g (some bytes)) s = _ from cgStageDone_whole hj hb, ht, hu]
  case wrong => exact (cgStageDone_whole hj hb).trans (congrArg _ (stageObject_wrong hc s))

/-! ## Validation -/

section
variable {g : Fin 4} {tag : Word} {s : State} (ht : (s.cg.group g).validTag = some tag)
include ht

theorem cgValidateDone_valid (hc : checkGroup (s.cg.group g).ownerCal (s.cg.group g).objs s.cg.inForce s = none) :
    execCgValidateDone g s = .next (complete 0x0202 tag 0 (groupDigest (s.cg.group g).objs) 0 0
      (setGroup g (fun x => { x with validTag := none, st := .valid, digest := groupDigest (s.cg.group g).objs }) s)) := by
  unfold execCgValidateDone
  dsimp only
  rw [ht, hc]
  dsimp only
  rw [setGroup_setGroup]
  rfl

theorem cgValidateDone_fails {r i sub : Nat}
    (hc : checkGroup (s.cg.group g).ownerCal (s.cg.group g).objs s.cg.inForce s = some (r, i, sub)) :
    execCgValidateDone g s = .next (complete 0x0202 tag 0x20 (w32 r) (w32 i) (w32 sub)
      (setGroup g (fun x => { x with validTag := none }) s)) := by
  unfold execCgValidateDone
  dsimp only
  rw [ht, hc]

end

/-- An object that passes its checks has a length and a target of its kind (R73). -/
theorem checkObj_passes {x : CheckCtx} {o : Obj} {s : State} (h : checkObj x o s = none) :
    sizeOk o.kind o.bytes.length = true ∧ targetOk o.kind o.target = true := by
  unfold checkObj at h
  split at h
  · cases h
  next hs =>
    split at h
    · cases h
    next ht => exact ⟨by simpa using hs, by simpa using ht⟩

/-- The position reported is that of the first object that fails (R85). -/
theorem checkGroup_first {own : Bool} {objs base : List Obj} {s : State} {r i sub : Nat} (h : checkGroup own objs base s = some (r, i, sub))
    (hn : objs ≠ []) : ∃ x : CheckCtx, i < objs.length ∧ ∀ j, j < i → ∀ o, objs[j]? = some o → checkObj x o s = none := by
  unfold checkGroup at h
  rw [if_neg (by simpa using hn)] at h
  extract_lets merged x at h
  obtain ⟨l₁, ⟨o, n⟩, l₂, hsplit, hfail, hpass⟩ := List.findSome?_eq_some_iff.mp h
  obtain ⟨⟨r', c'⟩, -, hi⟩ := Option.map_eq_some_iff.mp hfail
  have hi : n = i := congrArg (fun p => p.2.1) hi
  have hat : objs.zipIdx[l₁.length]? = some (o, n) := by simp [hsplit]
  have hlen : n = l₁.length := by
    rw [List.getElem?_zipIdx] at hat
    obtain ⟨_, -, e⟩ := Option.map_eq_some_iff.mp hat
    simpa using (congrArg Prod.snd e).symm
  have hlt : l₁.length < objs.length := by
    have := congrArg List.length hsplit
    simp only [List.length_zipIdx, List.length_append, List.length_cons] at this
    omega
  refine ⟨x, by omega, fun j hj o' ho' => ?_⟩
  have hmem : (o', j) ∈ l₁ := by
    have hz : objs.zipIdx[j]? = some (o', j) := by simp [ho']
    rw [hsplit, List.getElem?_append_left (by omega)] at hz
    exact List.mem_of_getElem? hz
  exact Option.map_eq_none_iff.mp (hpass _ hmem)

theorem groupValidation : Claims.GroupValidation := by
  refine ⟨fun k c s g h hw hg hh hr hst ho => ⟨_, cgValidate_answers h hw hg hh hr hst ho, ?frame, fun hl => ?tagged, rfl⟩,
    fun g tag s ht hl => ⟨cgValidateDone_valid ht, fun r i sub => cgValidateDone_fails ht⟩, fun own base s => rfl,
    fun own objs base s r i sub h hn => ?first⟩
  case frame => exact ((setGroup_onlyChanges g _ _).mono (by decide)).trans ((outstand_onlyChanges _ _ g _).mono (by decide))
  case tagged => exact group_setGroup_same (s := begun k s) (hl.symm ▸ hg)
  case first =>
    obtain ⟨x, hlt, hpass⟩ := checkGroup_first h hn
    exact ⟨hlt, fun j hj o ho => checkObj_passes (hpass j hj o ho)⟩

/-- Settles O24: each command by its checks and its effect, the end of a fetch by what came, and a validation by the first object that fails. -/
theorem groupsStagedAndValidated : Obligations.GroupsStagedAndValidated := ⟨groupStaging, groupValidation⟩

end Sys2Proof.Machine
end

section
/-!
PROOFS. What aborts of groups, the synchronisation with a peer and the cameras leave as it is (R82, R92, R274, R426, R439).
-/
namespace Sys2Proof.Machine

/-! ## Frames of single updates -/

theorem onlyChanges_twin (s : State) (w : Twin) : OnlyChanges [.twin] s { s with twin := w } := by
  intro p hp
  cases p <;> simp_all [State.agree]

theorem onlyChanges_cal (s : State) (c : Cal) : OnlyChanges [.cal] s { s with cal := c } := by
  intro p hp
  cases p <;> simp_all [State.agree]

theorem onlyChanges_insp (s : State) (i : Insp) : OnlyChanges [.insp] s { s with insp := i } := by
  intro p hp
  cases p <;> simp_all [State.agree]

theorem onlyChanges_pg (s : State) (q : Pages) : OnlyChanges [.pg] s { s with pg := q } := by
  intro p hp
  cases p <;> simp_all [State.agree]

theorem onlyChanges_scr (s : State) (c : Screen) : OnlyChanges [.scr] s { s with scr := c } := by
  intro p hp
  cases p <;> simp_all [State.agree]

theorem complete_onlyChanges (opcode : Nat) (tag : Word) (status : Nat) (p0 p1 p2 : Word) (s : State) :
    OnlyChanges logParts s (complete opcode tag status p0 p1 p2 s) := by
  unfold complete
  split
  · exact .refl _ s
  · exact withLog_onlyChanges _ s

/-! ## The twin -/

theorem unsync_onlyChanges (cause : Nat) (s : State) : OnlyChanges (.twin :: logParts) s (unsync cause s) := by
  unfold unsync
  split
  · exact .refl _ s
  · split
    · exact ((onlyChanges_twin s _).mono (by decide)).trans ((withLog_onlyChanges _ _).mono (by decide))
    · split
      · exact (withLog_onlyChanges _ s).mono (by decide)
      · exact .refl _ s

theorem unsync_twin (cause : Nat) (s : State) : ∃ b, (unsync cause s).twin = { s.twin with synced := b } := by
  unfold unsync
  split
  · exact ⟨_, rfl⟩
  · split
    · exact ⟨_, rfl⟩
    · split <;> exact ⟨_, rfl⟩

/-- The state in which a join has ended and its completion has fallen due (R439). -/
def joinEnded (what : Nat) (j : JoinJob) (s : State) : State :=
  complete 0x0C03 j.tag 0x30 (w32 what) 0 0 (stickRec .joinFailed { s with twin := { s.twin with joining := none, fSync := none } })

theorem failJoin_some {j : JoinJob} {s : State} (what : Nat) (h : s.twin.joining = some j) :
    failJoin what s = unsync 8 (joinEnded what j s) := by
  unfold failJoin
  rw [h]
  rfl

theorem joinEnded_onlyChanges (what : Nat) (j : JoinJob) (s : State) : OnlyChanges (.twin :: logParts) s (joinEnded what j s) :=
  (((onlyChanges_twin s _).mono (by decide)).trans ((withLog_onlyChanges _ _).mono (by decide))).trans
    ((complete_onlyChanges _ _ _ _ _ _ _).mono (by decide))

theorem failJoin_onlyChanges (what : Nat) (s : State) : OnlyChanges (.twin :: logParts) s (failJoin what s) := by
  cases h : s.twin.joining with
  | none => simp only [failJoin, h]; exact .refl _ s
  | some j =>
    rw [failJoin_some what h]
    exact (joinEnded_onlyChanges what j s).trans (unsync_onlyChanges 8 _)

theorem failJoin_twin (what : Nat) (s : State) : ∃ j f b, (failJoin what s).twin = { s.twin with joining := j, fSync := f, synced := b } := by
  cases h : s.twin.joining with
  | none =>
    have e : failJoin what s = s := by simp only [failJoin, h]
    exact ⟨_, _, _, congrArg State.twin e⟩
  | some j =>
    obtain ⟨b, hb⟩ := unsync_twin 8 (joinEnded what j s)
    have he : (joinEnded what j s).twin = { s.twin with joining := none, fSync := none } := complete_twin _ _ _ _ _ _ _
    rw [failJoin_some what h]
    exact ⟨none, none, b, by rw [hb, he]⟩

/-! ## Aborts of groups -/

theorem completeArm_onlyChanges (g status : Nat) (p0 p1 p2 : Word) (s : State) :
    OnlyChanges (.cg :: logParts) s (completeArm g status p0 p1 p2 s) := by
  unfold completeArm
  split
  · exact .refl _ s
  · exact ((complete_onlyChanges _ _ _ _ _ _ s).mono (by decide)).trans ((setGroup_onlyChanges g _ _).mono (by decide))

theorem dropResult_onlyChanges (cause : Nat) (s0 : State) : OnlyChanges (.cal :: logParts) s0 (dropResult cause s0) := by
  unfold dropResult
  extract_lets s _ s1
  have h : OnlyChanges (.cal :: logParts) s0 s := by
    unfold s
    split
    · split
      · exact (withLog_onlyChanges _ s0).mono (by decide)
      · exact .refl _ s0
    · exact .refl _ s0
  have h1 : OnlyChanges (.cal :: logParts) s s1 := (onlyChanges_cal s s1.cal).mono (by decide)
  exact (h.trans h1).trans (((withLog_onlyChanges _ s1).trans (withLog_onlyChanges _ _)).mono (by decide))

/-- What an abort makes of an ARMED group before its completion (R92). -/
def Group.abortedBy (cause : Nat) (x : Group) : Group := { x with st := .aborted, abortCause := cause, stopped := false, joinGroup := false }

/-- The state in which an ARMED group has aborted and what it held is free again. -/
def abortBegun (g cause : Nat) (s : State) : State := endGroupCmps g (dropLoads g (setGroup g (Group.abortedBy cause) s))

theorem abortBegun_onlyChanges (g cause : Nat) (s : State) : OnlyChanges [.cg, .pos, .scr, .hl, .lamp] s (abortBegun g cause s) := by
  intro p hp
  cases p <;> simp_all [State.agree, abortBegun, endGroupCmps, dropLoads]

/-- How the abort of a host's group ends: its sticky bit, the completion of its CG_ARM, and the join it belongs to (R92, R439). -/
def abortHost (g cause : Nat) (s : State) : State :=
  let s2 := match abortSticky cause with
    | some k => stickRec k (abortBegun g cause s)
    | none => abortBegun g cause s
  completeArm g (abortStatus cause) (w32 cause) ((s.cg.group g).line.getD 0xFFFFFFFF) 0 s2

/-- How the abort of calibration's group ends: event 0x0211, and the slot is EMPTY (R83, R102). -/
def abortCal (g cause : Nat) (s : State) : State :=
  let ev : Event := { ev := .cgAborted, p0 := w32 g, p1 := (s.cg.group g).line.getD 0xFFFFFFFF, p2 := w32 cause }
  setGroup g Group.released (sendVec 6 (match abortSticky cause with
    | some k => stickEvent k ev (abortBegun g cause s)
    | none => event ev (abortBegun g cause s)))

section
variable {g : Nat} {s : State} (again : Bool) (cause : Nat)

theorem abortGroupTo_idle (h : (s.cg.group g).st ≠ .armed) : abortGroupTo again g cause s = s := if_pos h

theorem abortGroupTo_host (h : (s.cg.group g).st = .armed) (ho : (s.cg.group g).ownerCal = false) : abortGroupTo again g cause s =
    if (s.cg.group g).joinGroup then failJoin 1 (abortHost g cause s) else abortHost g cause s := by
  unfold abortGroupTo
  dsimp only
  rw [if_neg (not_not.mpr h), if_neg (by simp [ho])]
  rfl

theorem abortGroupTo_cal (h : (s.cg.group g).st = .armed) (ho : (s.cg.group g).ownerCal = true) : abortGroupTo again g cause s =
    if again then { abortCal g cause s with cal := { (abortCal g cause s).cal with result := .ready, group := none } }
    else dropResult cause (abortCal g cause s) := by
  unfold abortGroupTo
  dsimp only
  rw [if_neg (not_not.mpr h), if_pos ho]
  rfl

theorem abortHost_onlyChanges (g : Nat) (s : State) : OnlyChanges [.cg, .pos, .scr, .hl, .lamp, .host, .pers, .out] s (abortHost g cause s) := by
  unfold abortHost
  extract_lets s2
  have h2 : OnlyChanges logParts (abortBegun g cause s) s2 := by
    unfold s2
    split
    · exact withLog_onlyChanges _ _
    · exact .refl _ _
  exact (((abortBegun_onlyChanges g cause s).mono (by decide)).trans (h2.mono (by decide))).trans
    ((completeArm_onlyChanges _ _ _ _ _ s2).mono (by decide))

theorem abortCal_onlyChanges (g : Nat) (s : State) : OnlyChanges [.cg, .pos, .scr, .hl, .lamp, .host, .pers, .out] s (abortCal g cause s) := by
  unfold abortCal
  extract_lets ev
  refine (((abortBegun_onlyChanges g cause s).mono (by decide)).trans ?_).trans ((setGroup_onlyChanges g _ _).mono (by decide))
  refine OnlyChanges.trans ?_ ((withLog_onlyChanges _ _).mono (by decide))
  split <;> exact (withLog_onlyChanges _ _).mono (by decide)

/-- A host's group that aborts is ABORTED with its cause, and keeps its objects (R92). -/
theorem abortHost_cg (g : Nat) (s : State) : ∃ f : Group → Group, (abortHost g cause s).cg = { s.cg with groups := upd s.cg.groups g f } ∧
    ∀ x, (f x).st = .aborted ∧ (f x).abortCause = cause ∧ (f x).objs = x.objs := by
  unfold abortHost
  extract_lets s2
  have h2 : s2.cg = { s.cg with groups := upd s.cg.groups g (Group.abortedBy cause) } := by
    unfold s2
    split <;> rfl
  rcases completeArm_cg g (abortStatus cause) (w32 cause) ((s.cg.group g).line.getD 0xFFFFFFFF) 0 s2 with e | e
  · exact ⟨_, e.trans h2, fun x => ⟨rfl, rfl, rfl⟩⟩
  · refine ⟨(fun x => { x with armTag := none }) ∘ Group.abortedBy cause, e.trans ?_, fun x => ⟨rfl, rfl, rfl⟩⟩
    rw [h2, upd_upd]

theorem abortCal_cg (g : Nat) (s : State) :
    (abortCal g cause s).cg = { s.cg with groups := upd s.cg.groups g (Group.released ∘ Group.abortedBy cause) } := by
  unfold abortCal
  extract_lets ev
  rw [← upd_upd]
  split <;> rfl

theorem abortHost_pos (g : Nat) (s : State) : ∃ l, (abortHost g cause s).pos = { s.pos with cmps := l } := by
  unfold abortHost
  extract_lets s2
  refine ⟨(abortBegun g cause s).pos.cmps, (completeArm_onlyChanges _ _ _ _ _ s2 .pos (by decide)).symm.trans ?_⟩
  unfold s2
  split <;> rfl

theorem abortCal_pos (g : Nat) (s : State) : ∃ l, (abortCal g cause s).pos = { s.pos with cmps := l } := by
  unfold abortCal
  extract_lets ev
  refine ⟨(abortBegun g cause s).pos.cmps, ?_⟩
  split <;> rfl

/-- Of the commit groups an abort changes the one that aborts. -/
theorem abortGroupTo_cg (g : Nat) (s : State) :
    ∃ f : Group → Group, (abortGroupTo again g cause s).cg = { s.cg with groups := upd s.cg.groups g f } := by
  by_cases h : (s.cg.group g).st = .armed
  · cases ho : (s.cg.group g).ownerCal
    · obtain ⟨f, hf, -⟩ := abortHost_cg cause g s
      rw [abortGroupTo_host again cause h ho]
      split
      · exact ⟨f, (failJoin_onlyChanges 1 _ .cg (by decide)).symm.trans hf⟩
      · exact ⟨f, hf⟩
    · rw [abortGroupTo_cal again cause h ho]
      split
      · exact ⟨_, abortCal_cg cause g s⟩
      · exact ⟨_, (dropResult_onlyChanges cause _ .cg (by decide)).symm.trans (abortCal_cg cause g s)⟩
  · rw [abortGroupTo_idle again cause h]
    exact ⟨id, by simp [upd]⟩

/-- Of the position unit an abort ends comparators, and of the twin's state the join at most. -/
theorem abortGroupTo_leaves (g : Nat) (s : State) : (∃ l, (abortGroupTo again g cause s).pos = { s.pos with cmps := l }) ∧
    ∃ j f b, (abortGroupTo again g cause s).twin = { s.twin with joining := j, fSync := f, synced := b } := by
  by_cases h : (s.cg.group g).st = .armed
  · cases ho : (s.cg.group g).ownerCal
    · obtain ⟨l, hp⟩ := abortHost_pos cause g s
      have ht : (abortHost g cause s).twin = s.twin := (abortHost_onlyChanges cause g s .twin (by decide)).symm
      rw [abortGroupTo_host again cause h ho]
      split
      · obtain ⟨j, f, b, e⟩ := failJoin_twin 1 (abortHost g cause s)
        exact ⟨⟨l, (failJoin_onlyChanges 1 _ .pos (by decide)).symm.trans hp⟩, j, f, b, by rw [e, ht]⟩
      · exact ⟨⟨l, hp⟩, _, _, _, ht⟩
    · obtain ⟨l, hp⟩ := abortCal_pos cause g s
      have ht : (abortCal g cause s).twin = s.twin := (abortCal_onlyChanges cause g s .twin (by decide)).symm
      rw [abortGroupTo_cal again cause h ho]
      split
      · exact ⟨⟨l, hp⟩, _, _, _, ht⟩
      · exact ⟨⟨l, (dropResult_onlyChanges cause _ .pos (by decide)).symm.trans hp⟩, _, _, _,
          (dropResult_onlyChanges cause _ .twin (by decide)).symm.trans ht⟩
  · rw [abortGroupTo_idle again cause h]
    exact ⟨⟨_, rfl⟩, _, _, _, rfl⟩

end

end Sys2Proof.Machine
end

section
/-!
PROOFS. What a camera's segments, frames and scripts write (R82, R253, R258 to R261, R273 to R275, R277, R289).
-/
namespace Sys2Proof.Machine

/-- The parts that a camera's segments, frames and scripts may write. -/
abbrev camParts : List Part := [.host, .pg, .insp, .pers, .out]

theorem setCam_onlyChanges (k : Nat) (f : Cam → Cam) (s : State) : OnlyChanges [.insp] s (setCam k f s) := onlyChanges_insp s _

theorem setPage_onlyChanges (uid : Nat) (f : Page → Page) (s : State) : OnlyChanges [.pg] s (setPage uid f s) := onlyChanges_pg s _

theorem setQual_onlyChanges (uid k : Nat) (f : QualAcc → QualAcc) (s : State) : OnlyChanges [.insp] s (setQual uid k f s) := onlyChanges_insp s _

/-! ## Records -/

theorem writeRecord_onlyChanges (p : Page) (s : State) : OnlyChanges camParts s (writeRecord p s) := by
  unfold writeRecord
  extract_lets _ _ _ irq s1 s2 pages _ s3
  have h1 : OnlyChanges camParts s s1 := (emit_onlyChanges _ s).mono (by decide)
  have h3 : OnlyChanges camParts s1 s3 := (onlyChanges_pg s1 s3.pg).mono (by decide)
  split
  · exact (h1.trans h3).trans ((withLog_onlyChanges _ s3).mono (by decide))
  · exact h1.trans h3

theorem writeRecords_onlyChanges (fuel : Nat) (s : State) : OnlyChanges camParts s (writeRecords fuel s) := by
  induction fuel generalizing s with
  | zero => exact .refl _ s
  | succ fuel ih =>
    unfold writeRecords
    split
    · exact .refl _ s
    · split
      · exact .refl _ s
      · exact (writeRecord_onlyChanges _ s).trans (ih _)

theorem recordsDue_onlyChanges (s : State) : OnlyChanges camParts s (recordsDue s) :=
  (writeRecords_onlyChanges _ s).trans ((answerResets_onlyChanges _).mono (by decide))

theorem qualityRecord_onlyChanges (cams : BitVec 4) (p : Page) (s : State) : OnlyChanges camParts s (qualityRecord cams p s) := by
  unfold qualityRecord
  extract_lets words _ s0 _ s2
  have h0 : OnlyChanges camParts s s0 := (onlyChanges_insp s _).mono (by decide)
  split
  next i r _ =>
    extract_lets s1
    have h1 : OnlyChanges camParts s s1 :=
      ((h0.trans ((onlyChanges_insp s0 _).mono (by decide))).trans ((setPage_onlyChanges _ _ _).mono (by decide))).trans
        ((emit_onlyChanges _ _).mono (by decide))
    split
    · exact h1.trans ((withLog_onlyChanges _ s1).mono (by decide))
    · exact h1
  · have h2 : OnlyChanges camParts s s2 := h0.trans ((setPage_onlyChanges _ _ s0).mono (by decide))
    split
    · exact h2.trans ((withLog_onlyChanges _ s2).mono (by decide))
    · exact h2

theorem qualitiesFor_onlyChanges (left : Option Nat) (s : State) : OnlyChanges camParts s (qualitiesFor left s) :=
  OnlyChanges.trans (.foldl _ _ s fun t p => qualityRecord_onlyChanges _ p t) (recordsDue_onlyChanges _)

/-! ## Frames of a camera -/

theorem notInspect_onlyChanges (k a b : Nat) (s : State) : OnlyChanges camParts s (notInspect k a b s) :=
  .foldl _ _ s fun t p => ((setPage_onlyChanges _ _ t).mono (by decide)).trans ((setQual_onlyChanges _ _ _ _).mono (by decide))

theorem writeStats_onlyChanges (k : Nat) (f : CamFrame) (dropped : Bool) (st : FrameStats) (s : State) :
    OnlyChanges camParts s (writeStats k f dropped st s) := by
  unfold writeStats
  split
  next i r _ =>
    extract_lets _ s1
    have h1 : OnlyChanges camParts s s1 := ((onlyChanges_insp s _).mono (by decide)).trans ((emit_onlyChanges _ _).mono (by decide))
    split
    · exact h1.trans ((withLog_onlyChanges _ s1).mono (by decide))
    · exact h1
  · split
    · exact (withLog_onlyChanges _ s).mono (by decide)
    · exact .refl _ s

theorem reportPages_onlyChanges (k E : Nat) (s : State) : OnlyChanges camParts s (reportPages k E s) :=
  ((onlyChanges_pg s _).mono (by decide)).trans (qualitiesFor_onlyChanges none _)

theorem dropFrame_onlyChanges (k : Nat) (f : CamFrame) (s : State) : OnlyChanges camParts s (dropFrame k f s) := by
  unfold dropFrame
  extract_lets a b s1 s2 s3
  have h2 : OnlyChanges camParts s s2 := ((setCam_onlyChanges k _ s).mono (by decide)).trans ((withLog_onlyChanges _ s1).mono (by decide))
  have h3 : OnlyChanges camParts s2 s3 := (notInspect_onlyChanges k a b s2).trans
    (.foldl _ _ _ fun t p => (setQual_onlyChanges _ _ _ t).mono (by decide))
  exact (h2.trans h3).trans ((writeStats_onlyChanges _ _ _ _ s3).trans (reportPages_onlyChanges _ _ _))

theorem endFill_onlyChanges (k b deadline : Nat) (s : State) : OnlyChanges camParts s (endFill k b deadline s) := by
  unfold endFill
  extract_lets s1 c
  have h1 : OnlyChanges camParts s s1 := (setCam_onlyChanges k _ s).mono (by decide)
  split
  · exact (h1.trans ((setCam_onlyChanges k _ s1).mono (by decide))).trans (dropFrame_onlyChanges _ _ _)
  · exact h1

theorem cutFrame_onlyChanges (k : Nat) (s : State) : OnlyChanges camParts s (cutFrame k s) := by
  unfold cutFrame
  extract_lets c
  split
  · exact (setCam_onlyChanges k _ s).mono (by decide)
  · exact endFill_onlyChanges _ _ _ s
  · exact .refl _ s

/-! ## Scripts of a camera -/

theorem abandonSets_onlyChanges (k : Nat) (which : ExpSet → Bool) (status : Nat) (s : State) :
    OnlyChanges camParts s (abandonSets k which status s) := by
  unfold abandonSets
  extract_lets gone
  refine OnlyChanges.trans ((setCam_onlyChanges k _ s).mono (by decide)) (.foldl _ _ _ fun t e => ?_)
  split
  · exact (complete_onlyChanges _ _ _ _ _ _ t).mono (by decide)
  · exact .refl _ t

theorem startSets_onlyChanges (k : Nat) (atStart : Bool) (fuel : Nat) (s : State) : OnlyChanges camParts s (startSets k atStart fuel s) := by
  induction fuel generalizing s with
  | zero => exact .refl _ s
  | succ fuel ih =>
    unfold startSets
    extract_lets c
    split
    · exact .refl _ s
    · split
      · exact .refl _ s
      · split
        · exact .refl _ s
        · extract_lets lat e1 s1
          have h1 : OnlyChanges camParts s s1 := (setCam_onlyChanges k _ s).mono (by decide)
          split
          · exact h1.trans (ih s1)
          · exact h1.trans ((emit_onlyChanges _ s1).mono (by decide))

theorem startSet_onlyChanges (k : Nat) (atStart : Bool) (s : State) : OnlyChanges camParts s (startSet k atStart s) := by
  refine OnlyChanges.trans ?_ (startSets_onlyChanges k atStart _ _)
  unfold openScripts
  split
  · exact .refl _ s
  · exact ((setCam_onlyChanges k _ s).mono (by decide)).trans (abandonSets_onlyChanges _ _ _ _)

theorem turnXfer_onlyChanges (k : Nat) (s : State) : OnlyChanges camParts s (turnXfer k s) := by
  unfold turnXfer
  split
  next j _ =>
    split
    · refine OnlyChanges.trans ?_ ((respond_onlyChanges _ _ _).mono (by decide))
      unfold runXfer
      extract_lets _ s1
      have h1 : OnlyChanges camParts s s1 := ((onlyChanges_insp s _).mono (by decide)).trans ((emit_onlyChanges _ _).mono (by decide))
      split
      · exact h1
      · exact h1.trans ((withLog_onlyChanges _ s1).mono (by decide))
    · exact .refl _ s
  · exact .refl _ s

/-! ## Segments of a camera -/

theorem beginSeg_onlyChanges (k : Nat) (g : CamSeg) (s : State) : OnlyChanges camParts s (beginSeg k g s) := by
  unfold beginSeg
  extract_lets c s1 ends s0 s2 _ s3 restart newEpoch
  have h1 : OnlyChanges camParts s s1 := by
    unfold s1
    split
    · exact (cutFrame_onlyChanges k s).trans (notInspect_onlyChanges _ _ _ _)
    · exact .refl _ s
  split
  · have h2 : OnlyChanges camParts s0 s2 := by
      unfold s2
      split
      · exact .refl _ s0
      · exact turnXfer_onlyChanges k s0
    have h3 : OnlyChanges camParts s2 s3 := by
      unfold s3
      split
      · split
        · exact ((onlyChanges_insp s2 _).mono (by decide)).trans ((complete_onlyChanges _ _ _ _ _ _ _).mono (by decide))
        · exact .refl _ s2
      · exact .refl _ s2
    exact (((h1.trans (abandonSets_onlyChanges _ _ _ s1)).trans h2).trans h3).trans
      (((setCam_onlyChanges k _ s3).mono (by decide)).trans (startSet_onlyChanges k false _))
  · exact h1.trans ((setCam_onlyChanges k _ s1).mono (by decide))

theorem armCam_onlyChanges (k : Nat) (s : State) : OnlyChanges (.pos :: camParts) s (armCam k s) := by
  unfold armCam
  extract_lets set
  have hset : ∀ f t, OnlyChanges (.pos :: camParts) t (set f t) := fun f t => (onlyChanges_pos t _).mono (by decide)
  split
  · exact hset _ s
  · extract_lets d target s1 s2
    have h2 : OnlyChanges (.pos :: camParts) s s2 := ((setCam_onlyChanges k _ s).mono (by decide)).trans (hset _ s1)
    split
    · exact h2.trans ((withLog_onlyChanges _ s2).mono (by decide))
    · exact h2

/-- Of the position unit a camera's comparator is all that is armed anew. -/
theorem armCam_pos (k : Nat) (s : State) : ∃ l, (armCam k s).pos = { s.pos with cmps := l } := by
  unfold armCam
  dsimp only
  split
  · exact ⟨_, rfl⟩
  · split <;> exact ⟨_, rfl⟩

theorem camLock_onlyChanges (g : Nat) (s : State) : OnlyChanges (.pos :: camParts) s (camLock g s) := by
  have hr : ∀ k (t : State), OnlyChanges (.pos :: camParts) t (rearm k t) := by
    intro k t
    unfold rearm
    split
    · split
      · exact .refl _ t
      · exact armCam_onlyChanges k t
    · exact .refl _ t
  refine .foldl _ _ s fun t k => ?_
  split
  · exact hr k t
  · extract_lets s1 c fl firstSeq opens id e
    split
    · exact hr k t
    · exact ((hr k t).trans ((setCam_onlyChanges k _ s1).mono (by decide))).trans ((startSet_onlyChanges k false _).mono (by decide))

end Sys2Proof.Machine
end

section
/-!
PROOFS. Arming and aborting commit groups (R87 to R92, R103, R107, R334).
-/
namespace Sys2Proof.Machine

/-! ## What arming leaves of the commit groups -/

theorem lampFrame_cg (k : Nat) (load : Option (List Byte)) (s : State) : (lampFrame k load s).cg = s.cg := emit_cg _ _

theorem startLoads_cg (g : Nat) (s : State) : (startLoads g s).cg = s.cg :=
  forAll_cg _ _ _ fun m s => by
    unfold queueLoad
    split <;> rfl

theorem lampLoads_cg (g : Nat) (s : State) : (lampLoads g s).cg = s.cg :=
  forAll_cg _ _ _ fun k s => by
    split
    · split
      · rfl
      · exact lampFrame_cg _ _ _
    · rfl

theorem armGroup_cg (g : Nat) (s : State) : (armGroup g s).cg = (setGroup g (fun x => { x with st := .armed }) s).cg := by
  unfold armGroup
  extract_lets s1 grp s2
  have h2 : s2.cg = s1.cg := by
    unfold s2
    split <;> rfl
  exact (lampLoads_cg g _).trans ((startLoads_cg g s2).trans h2)

/-- A group that is not calibration's own stays as it is where calibration's groups give way to it, and so does the state in force (R309). -/
theorem clearCal_leaves {g : Nat} {s : State} (ho : (s.cg.group g).ownerCal = false) :
    (clearCal g s).cg.group g = s.cg.group g ∧ (clearCal g s).cg.inForce = s.cg.inForce := by
  unfold clearCal
  extract_lets grp
  split
  · exact ⟨rfl, rfl⟩
  · refine List.foldlRecOn (motive := fun t : State => t.cg.group g = s.cg.group g ∧ t.cg.inForce = s.cg.inForce) _ _ ⟨rfl, rfl⟩ fun t ht k hk => ?_
    have hne : g ≠ k := by
      rintro rfl
      have hp := (mem_groupsWhere.mp hk).2
      simp [ho] at hp
    obtain ⟨f, hf⟩ := abortGroupTo_cg true 1 k t
    exact ⟨((congrArg (Commit.group · g) hf).trans (group_setGroup_other f t hne)).trans ht.1, (congrArg Commit.inForce hf).trans ht.2⟩

/-- What an armed group becomes: ARMED, and else as it has been placed. -/
theorem armedGroup {g : Nat} {u : State} (hl : g < u.cg.groups.length) (ho : (u.cg.group g).ownerCal = false) :
    (clearCal g (armGroup g u)).cg.group g = { u.cg.group g with st := .armed } ∧
      (clearCal g (armGroup g u)).cg.inForce = u.cg.inForce := by
  have hg : (armGroup g u).cg.group g = { u.cg.group g with st := .armed } :=
    (congrArg (Commit.group · g) (armGroup_cg g u)).trans (group_setGroup_same hl)
  obtain ⟨h1, h2⟩ := clearCal_leaves (g := g) (s := armGroup g u) (by rw [hg]; exact ho)
  exact ⟨h1.trans hg, h2.trans (congrArg Commit.inForce (armGroup_cg g u) :)⟩

/-! ## CG_ARM -/

/-- What a CG_ARM orders of a group (R107). -/
def Group.ordered (c : RungCmd) (epoch : Word) (moves : Bool) (x : Group) : Group := { x with
  trigger := fld (wd c.payload 0) 4 2, policy := flag (wd c.payload 0) 8, persist := flag (wd c.payload 0) 9, armTag := some c.tag, epoch := epoch
  line := none, abs := 0, time := BitVec.ofNat 64 (wn64 c.payload 4), stopped := fld (wd c.payload 0) 4 2 == 2 && !moves }

/-- The state in which a CG_ARM of group g has been accepted, before the group stands on a line. -/
def armOrdered (k : Fin 16) (c : RungCmd) (g : Nat) (s : State) : State :=
  outstand 0x0203 c.tag g (setGroup g (Group.ordered c s.cg.epochNow (webMoves s)) (begun k s))

/-- The same after a LINE group has been placed on its line (R87). -/
def armOnLine (k : Fin 16) (c : RungCmd) (g : Nat) (s : State) : State :=
  groupCmps g .armed .armed (setGroup g (fun x => { x with line := some (wd c.payload 3), abs := absOf (wd c.payload 3) s }) (armOrdered k c g s))

theorem lineLate_iff {w : Word} {s : State} :
    lineLate w s = true ↔ (w.toNat : Int) < lineIndex s + 65 ∨ (w.toNat : Int) ≤ topLine s := decide_eq_true_iff

theorem done_armed {g : Nat} {u v : State} (h : u = v) :
    done (clearCal g (armGroup g u), accepted) = (clearCal g (armGroup g v), some accepted) := by simp only [done, h]

theorem lineLate_begun (w : Word) (k : Fin 16) (s : State) : lineLate w (begun k s) = lineLate w s := rfl

theorem absOf_begun (w : Word) (k : Fin 16) (s : State) : absOf w (begun k s) = absOf w s := rfl

theorem webMoves_begun (k : Fin 16) (s : State) : webMoves (begun k s) = webMoves s := rfl

section
variable {k : Fin 16} {c : RungCmd} {s : State} {g : Nat} (h : Rung 0x0203 6 k c s) (hg : fld (wd c.payload 0) 0 2 = g)
  (hm : wd c.payload 0 &&& ~~~ 0x333 = 0) (hh : wd c.payload 1 = (s.cg.group g).handle) (hr : (s.cg.group g).running = false)
  (hst : (s.cg.group g).st = .valid ∨ (s.cg.group g).st = .aborted) (ho : s.host.outst.length < 16)
include hg hm hh hr hst ho

/-- The checks of a CG_ARM come down to those of its trigger (R107). -/
theorem cgArm_checks (l : List (Bool × Ans)) (ht : fld (wd c.payload 0) 4 2 ≠ 3) (hv : fld (wd c.payload 0) 4 2 = 1 → s.pos.tState.valid = true) :
    pick ([reservedW c.payload 0 0x333, (fld (wd c.payload 0) 4 2 == 3, badParam 0)] ++ groupChecks 0x333 s c.payload ++
      ([(!((s.cg.group g).st == .valid || (s.cg.group g).st == .aborted), badState),
        (fld (wd c.payload 0) 4 2 == 1 && !s.pos.tState.valid, badState), completionsFull s] ++ l)) = pick l := by
  have hstate : (!((s.cg.group g).st == .valid || (s.cg.group g).st == .aborted)) = false := by
    rcases hst with e | e <;> rw [e] <;> rfl
  have htime : (fld (wd c.payload 0) 4 2 == 1 && !s.pos.tState.valid) = false := by
    by_cases e : fld (wd c.payload 0) 4 2 = 1
    · simp [hv e]
    · simp [e]
  rw [← List.append_assoc]
  refine pick_append_of_none ((pick_none_iff _).mpr ?_) l
  change Passes _
  simp only [passes_append, passes_cons, passes_nil, reservedW_passes hm, groupChecks_pass hm hg hh hr, hstate, htime, beq_eq_false_iff_ne.mpr ht,
    completionsFull_passes ho, and_self]

include h

theorem cgArm_otherEpoch (ht : fld (wd c.payload 0) 4 2 = 0) (he : wd c.payload 2 ≠ s.cg.epochNow) : execCgArm k s = .next (respond k late (begun k s)) := by
  subst hg
  refine congrArg Host.Outcome.next (command_refused h ((cgArm_checks rfl hm hh hr hst ho _ (by rw [ht]; decide) fun e => absurd (ht.symm.trans e) (by decide)).trans ?_))
  have hlate : (fld (wd c.payload 0) 4 2 == 0 && wd c.payload 2 != s.cg.epochNow) = true := by simp [ht, he]
  change pick ((fld (wd c.payload 0) 4 2 == 0 && wd c.payload 2 != s.cg.epochNow, late) :: _) = _
  rw [hlate]
  refine pick_first fun b hb => ?_
  simp only [List.mem_cons, Prod.mk.injEq, List.not_mem_nil, or_false] at hb
  rcases hb with ⟨-, rfl⟩ | ⟨-, rfl⟩ <;> decide

theorem cgArm_late (ht : fld (wd c.payload 0) 4 2 = 0) (he : wd c.payload 2 = s.cg.epochNow) (hl : lineLate (wd c.payload 3) s = true) :
    execCgArm k s = .next (respond k late (lateCmps g (absOf (wd c.payload 3) s) (begun k s))) := by
  subst hg
  refine congrArg Host.Outcome.next (command_done h
    ((pick_none_iff _).mp ((cgArm_checks rfl hm hh hr hst ho _ (by rw [ht]; decide) fun e => absurd (ht.symm.trans e) (by decide)).trans ((pick_none_iff _).mpr ?_))) ?_)
  · change Passes [(fld (wd c.payload 0) 4 2 == 0 && wd c.payload 2 != s.cg.epochNow, _), (fld (wd c.payload 0) 4 2 == 1 && _, _),
      (((fld (wd c.payload 0) 4 2 == 0 && !lineLate (wd c.payload 3) s) || (fld (wd c.payload 0) 4 2 == 2 && _)) && _, _)]
    simp [ht, he, hl]
  · dsimp only
    rw [lineLate_begun, absOf_begun, if_pos ⟨ht, hl⟩]
    rfl

theorem cgArm_line (ht : fld (wd c.payload 0) 4 2 = 0) (he : wd c.payload 2 = s.cg.epochNow) (hl : lineLate (wd c.payload 3) s = false)
    (hov : overlaps g (absOf (wd c.payload 3) s) s = false) :
    execCgArm k s = .next (respond k accepted (clearCal g (armGroup g (armOnLine k c g s)))) := by
  subst hg
  refine congrArg Host.Outcome.next (command_done h
    ((pick_none_iff _).mp ((cgArm_checks rfl hm hh hr hst ho _ (by rw [ht]; decide) fun e => absurd (ht.symm.trans e) (by decide)).trans ((pick_none_iff _).mpr ?_))) ?_)
  · change Passes [(fld (wd c.payload 0) 4 2 == 0 && wd c.payload 2 != s.cg.epochNow, _), (fld (wd c.payload 0) 4 2 == 1 && _, _),
      (_ && overlaps (fld (wd c.payload 0) 0 2) (if fld (wd c.payload 0) 4 2 = 0 then absOf (wd c.payload 3) s else _) s, _)]
    simp [ht, he, hov]
  · have hn : ¬ (fld (wd c.payload 0) 4 2 = 0 ∧ lineLate (wd c.payload 3) s = true) := fun hc => absurd (hl.symm.trans hc.2) (by decide)
    dsimp only
    rw [lineLate_begun, if_neg hn, if_pos ht, absOf_begun, webMoves_begun]
    exact done_armed rfl

theorem cgArm_time (ht : fld (wd c.payload 0) 4 2 = 1) (hv : s.pos.tState.valid = true) (hn : s.pos.netNow ≤ wn64 c.payload 4) :
    execCgArm k s = .next (respond k accepted (clearCal g (armGroup g (armOrdered k c g s)))) := by
  subst hg
  refine congrArg Host.Outcome.next (command_done h
    ((pick_none_iff _).mp ((cgArm_checks rfl hm hh hr hst ho _ (by rw [ht]; decide) fun _ => hv).trans ((pick_none_iff _).mpr ?_))) ?_)
  · change Passes [(fld (wd c.payload 0) 4 2 == 0 && _, _), (fld (wd c.payload 0) 4 2 == 1 && decide (wn64 c.payload 4 < s.pos.netNow), _),
      (((fld (wd c.payload 0) 4 2 == 0 && _) || (fld (wd c.payload 0) 4 2 == 2 && _)) && _, _)]
    simp [ht, hn]
  · have h0 : fld (wd c.payload 0) 4 2 ≠ 0 := by rw [ht]; decide
    have h2 : ¬ (fld (wd c.payload 0) 4 2 = 2 ∧ webMoves s = true) := fun hc => absurd (ht.symm.trans hc.1) (by decide)
    dsimp only
    rw [if_neg fun hc => h0 hc.1, if_neg h0, webMoves_begun, if_neg h2]
    exact done_armed rfl

theorem cgArm_immediate (ht : fld (wd c.payload 0) 4 2 = 2) (hw : webMoves s = true)
    (hov : overlaps g (s.pos.absHigh + max 1 (65 - linesBack s)) s = false) :
    execCgArm k s = .next (respond k accepted (clearCal g (armGroup g (resolve g 65 (armOrdered k c g s))))) := by
  subst hg
  refine congrArg Host.Outcome.next (command_done h
    ((pick_none_iff _).mp ((cgArm_checks rfl hm hh hr hst ho _ (by rw [ht]; decide) fun e => absurd (ht.symm.trans e) (by decide)).trans ((pick_none_iff _).mpr ?_))) ?_)
  · change Passes [(fld (wd c.payload 0) 4 2 == 0 && _, _), (fld (wd c.payload 0) 4 2 == 1 && _, _),
      (_ && overlaps (fld (wd c.payload 0) 0 2) (if fld (wd c.payload 0) 4 2 = 0 then _ else s.pos.absHigh + max 1 (65 - linesBack s)) s, _)]
    simp [ht, hov]
  · have h0 : fld (wd c.payload 0) 4 2 ≠ 0 := by rw [ht]; decide
    dsimp only
    rw [if_neg fun hc => h0 hc.1, if_neg h0, webMoves_begun, if_pos ⟨ht, hw⟩]
    exact done_armed rfl

end

/-! ## CG_ABORT -/

section
variable {k : Fin 16} {c : RungCmd} {s : State} {g : Nat} (h : Rung 0x0204 2 k c s) (hw : (c.w 0).toNat = g) (hg : g < 4)
  (hh : c.w 1 = (s.cg.group g).handle) (hr : (s.cg.group g).running = false)
include h hw hg hh hr

theorem cgAbort_armed (hst : (s.cg.group g).st = .armed) : execCgAbort k s = .next (respond k ok (abortGroup g 1 (begun k s))) := by
  have hnum : fld (wd c.payload 0) 0 2 = g := groupNumber hw hg
  refine congrArg Host.Outcome.next (command_done h ?_ ?_)
  · simp only [passes_append, passes_cons, passes_nil, groupChecks_pass (groupMask hw hg) hnum hh hr, hnum, hst]
    decide
  · rw [hnum]
    rfl

theorem cgAbort_late (hst : (s.cg.group g).st = .locked ∨ (s.cg.group g).st = .committed) :
    execCgAbort k s = .next (respond k late (begun k s)) := by
  have hnum : fld (wd c.payload 0) 0 2 = g := groupNumber hw hg
  refine congrArg Host.Outcome.next (command_refused h ?_)
  dsimp only
  rw [pick_append_of_none ((pick_none_iff _).mpr (groupChecks_pass (groupMask hw hg) hnum hh hr)), hnum]
  rcases hst with e | e <;> rw [e] <;> rfl

end

/-- An ARMED group of a host that aborts: ABORTED, its objects stay, and so do the state in force and the other groups (R92). -/
theorem abortGroup_host {g : Nat} (cause : Nat) {s : State} (h : (s.cg.group g).st = .armed) (ho : (s.cg.group g).ownerCal = false) :
    ∃ f : Group → Group, (abortGroup g cause s).cg = { s.cg with groups := upd s.cg.groups g f } ∧
      ∀ x, (f x).st = .aborted ∧ (f x).abortCause = cause ∧ (f x).objs = x.objs := by
  obtain ⟨f, hf, hx⟩ := abortHost_cg cause g s
  refine ⟨f, ?_, hx⟩
  rw [abortGroup, abortGroupTo_host false cause h ho]
  split
  · exact (failJoin_onlyChanges 1 _ .cg (by decide)).symm.trans hf
  · exact hf

theorem groupArming : Claims.GroupArming := by
  refine ⟨fun k c s g h hg hm hh hr hst ho hl hown => ?arms,
    fun k c s g h hw hg hh hr => ⟨cgAbort_armed h hw hg hh hr, cgAbort_late h hw hg hh hr⟩,
    fun g cause s hst hg hl hown => ?aborts, fun g cause s h => abortGroupTo_idle false cause h⟩
  case arms =>
    have hg4 : g < 4 := hg ▸ Nat.mod_lt _ (by decide)
    have hlen : g < (armOrdered k c g s).cg.groups.length := by simp [armOrdered, outstand, begun, hl, hg4]
    have hord : (armOrdered k c g s).cg.group g = (s.cg.group g).ordered c s.cg.epochNow (webMoves s) :=
      group_setGroup_same (s := begun k s) (hl.symm ▸ hg4)
    refine ⟨fun ht he hle htop hov => ?line, cgArm_otherEpoch h hg hm hh hr hst ho, fun ht he hlt => ?late,
      fun ht hv hn => ?time, fun ht hw hov => ?immediate⟩
    case line =>
      have hnl : lineLate (c.w 3) s = false := by
        rw [← Bool.not_eq_true, lineLate_iff]
        omega
      have hu : (armOnLine k c g s).cg.group g =
          { (s.cg.group g).ordered c s.cg.epochNow (webMoves s) with line := some (c.w 3), abs := absOf (c.w 3) s } :=
        (group_setGroup_same hlen).trans (by rw [hord]; rfl)
      obtain ⟨hgrp, hforce⟩ := armedGroup (g := g) (u := armOnLine k c g s) (by simpa [armOnLine, groupCmps, cmpsAt] using hlen)
        (by rw [hu]; exact hown)
      refine ⟨_, cgArm_line h hg hm hh hr hst ho ht he hnl hov, ?_, ?_, ?_, ?_, ?_, ?_, ?_, hforce⟩ <;> rw [hgrp, hu] <;> rfl
    case late => exact cgArm_late h hg hm hh hr hst ho ht he (lineLate_iff.mpr hlt)
    case time =>
      obtain ⟨hgrp, hforce⟩ := armedGroup (g := g) hlen (by rw [hord]; exact hown)
      refine ⟨_, cgArm_time h hg hm hh hr hst ho ht hv hn, ?_, ?_, ?_, ?_, hforce⟩ <;> rw [hgrp, hord]
      · rfl
      · exact wn64_append c.payload 4
      · rfl
    case immediate =>
      have hw' : webMoves s = true := by rw [webMoves, hw]; rfl
      have hu : (resolve g 65 (armOrdered k c g s)).cg.group g = { (s.cg.group g).ordered c s.cg.epochNow (webMoves s) with
          line := some (wInt (lineIndex s + 65)), abs := s.pos.absHigh + max 1 (65 - linesBack s), epoch := s.cg.epochNow } :=
        (group_setGroup_same hlen).trans (by rw [hord]; rfl)
      obtain ⟨hgrp, hforce⟩ := armedGroup (g := g) (u := resolve g 65 (armOrdered k c g s)) (by simpa [resolve, groupCmps, cmpsAt] using hlen)
        (by rw [hu]; exact hown)
      refine ⟨_, cgArm_immediate h hg hm hh hr hst ho ht hw' hov, ?_, ?_, ?_, hforce⟩ <;> rw [hgrp, hu]
  case aborts =>
    obtain ⟨f, hcg, hf⟩ := abortGroup_host cause hst hown
    have hgrp : ∀ j, (abortGroup g cause s).cg.group j = (setGroup g f s).cg.group j := fun j => congrArg (Commit.group · j) hcg
    have hsame := group_setGroup_same (f := f) (s := s) (hl.symm ▸ hg)
    obtain ⟨hst', hcause, hobjs⟩ := hf (s.cg.group g)
    rw [hgrp, hsame]
    exact ⟨hst', hcause, hobjs, (congrArg Commit.inForce hcg :), fun j hj => (hgrp j).trans (group_setGroup_other f s hj)⟩

end Sys2Proof.Machine
end

section
/-!
PROOFS. The lock line, stopped webs and the decision's deadline (R66, R88 to R90, R92, R94, R95).
-/
namespace Sys2Proof.Machine

/-! ## Why a group cannot lock -/

theorem lockCause_bad {g : Nat} {s : State} (h : ∃ o ∈ (s.cg.group g).objs, (o.kind, o.target) ∈ (s.cg.group g).bad) :
    lockCause g s = some 10 := by
  obtain ⟨o, ho, hb⟩ := h
  exact if_pos (List.any_eq_true.mpr ⟨o, ho, List.elem_eq_true_of_mem hb⟩)

theorem lockCause_state {g : Nat} {s : State} (hb : (s.cg.group g).bad = []) (hf : s.host.firing = false)
    (h : loadsDone g s = false ∨ overlapsAtLock g s = true) : lockCause g s = some 9 := by
  unfold lockCause
  dsimp only
  rw [if_neg (by simp [hb]), if_neg (by simp [hf]), if_pos]
  rcases h with e | e <;> simp [e]

/-! ## The lock -/

section
variable {g : Nat} {s : State}

theorem tryLock_fails {cause : Nat} (h : lockCause g s = some cause) : tryLock g s = failLock g cause s := by
  unfold tryLock
  rw [h]

theorem tryLock_alone (h : lockCause g s = none) (hp : withPeer s = false) : tryLock g s = lockGroup g s := by
  unfold tryLock
  rw [h]
  exact if_pos (by simp [hp])

theorem tryLock_standby (h : lockCause g s = none) (hp : withPeer s = true) (hj : (s.cg.group g).joinGroup = false)
    (hr : s.twin.role = .standby) : tryLock g s = s := by
  unfold tryLock
  rw [h]
  exact (if_neg (by simp [hp, hj])).trans (if_pos hr)

/-- The ACTIVE role unit locks where the peer's record of the group is the same (R94). -/
theorem tryLock_agreed (h : lockCause g s = none) (hr : s.twin.role = .active)
    (ha : ∃ r ∈ s.cg.peerArms, recMatches r (s.cg.group g) = true) : tryLock g s = lockGroup g s := by
  have hcause : twinCause g s = none := if_pos (List.any_eq_true.mpr ha)
  unfold tryLock
  rw [h]
  dsimp only
  split
  · rfl
  · rw [if_neg (by simp [hr]), hcause]

end

/-- A projection that a map over numbered cells keeps, each cell keeps. -/
theorem cell_zipIdx_map_keeps {α β : Type} (p : α → β) {f : α × Nat → α} (h : ∀ x k, p (f (x, k)) = p x) (l : List α) (j : Nat) (d : α) :
    p (cell (l.zipIdx.map f) j d) = p (cell l j d) := by
  unfold cell
  rw [List.getD_eq_getElem?_getD, List.getD_eq_getElem?_getD, List.getElem?_map, List.getElem?_zipIdx]
  cases l[j]? with
  | none => rfl
  | some x => exact h x _

/-- From `s` to `t` the state in force is the same, and so are the state and the objects of group g. -/
structure SameGroup (g : Nat) (s t : State) : Prop where
  /-- The objects in force. -/
  inForce : t.cg.inForce = s.cg.inForce
  /-- The group's state. -/
  st : (t.cg.group g).st = (s.cg.group g).st
  /-- The group's objects. -/
  objs : (t.cg.group g).objs = (s.cg.group g).objs

namespace SameGroup
variable {g : Nat} {s t u : State}

theorem trans (h : SameGroup g s t) (k : SameGroup g t u) : SameGroup g s u :=
  ⟨k.inForce.trans h.inForce, k.st.trans h.st, k.objs.trans h.objs⟩

theorem of_cg (h : t.cg = s.cg) : SameGroup g s t := by
  refine ⟨?_, ?_, ?_⟩ <;> rw [h]

end SameGroup

theorem lockOffsets_sameGroup (g j : Nat) (s : State) : SameGroup j s (lockOffsets g s) := by
  unfold lockOffsets
  extract_lets grp objs d low share s1
  split
  · exact .of_cg rfl
  · have hst : ∀ x k, (share (x, k)).st = x.st := fun x k => by unfold share; dsimp only; split <;> rfl
    have hobjs : ∀ x k, (share (x, k)).objs = x.objs := fun x k => by unfold share; dsimp only; split <;> rfl
    exact ⟨rfl, cell_zipIdx_map_keeps Group.st hst _ _ _, cell_zipIdx_map_keeps Group.objs hobjs _ _ _⟩

theorem fitSlices_cg (g : Nat) (s : State) : (fitSlices g s).cg = s.cg := forAll_cg _ _ _ fun _ _ => rfl

theorem unstart_cg (lc : Nat) (epoch : Word) (s : State) : (unstart lc epoch s).cg = s.cg := by
  unfold unstart
  dsimp only
  split <;> rfl

theorem lockPages_sameGroup (g j : Nat) (s : State) : SameGroup j s (lockPages g s) := by
  unfold lockPages
  dsimp only
  split
  · exact .of_cg rfl
  next b _ =>
    exact SameGroup.trans (t := { s with cg := { s.cg with jobs := (epochOf g s, objWord b 0) :: s.cg.jobs } }) ⟨rfl, rfl, rfl⟩
      (.of_cg (unstart_cg _ _ _))

theorem sendDecision_cg (g : Nat) (cause : Option Nat) (s : State) : (sendDecision g cause s).cg = s.cg := by
  unfold sendDecision
  dsimp only
  split <;> rfl

/-- A group that locks is LOCKED, and keeps its objects; the state in force does not change before Lc (R79, R88). -/
theorem lockGroup_locks {g : Nat} {s : State} (hl : g < s.cg.groups.length) : ((lockGroup g s).cg.group g).st = .locked ∧
    (lockGroup g s).cg.inForce = s.cg.inForce ∧ ((lockGroup g s).cg.group g).objs = (s.cg.group g).objs := by
  unfold lockGroup
  extract_lets s1
  have hlen : g < (usedRecords g (sendDecision g none s)).cg.groups.length := by simpa [usedRecords, sendDecision_cg] using hl
  have hrec : (usedRecords g (sendDecision g none s)).cg.group g = s.cg.group g :=
    (congrArg (fun c : Commit => cell c.groups g ({} : Group)) (sendDecision_cg g none s) :)
  have hgrp : s1.cg.group g = { s.cg.group g with st := .locked } := (group_setGroup_same hlen).trans (by rw [hrec])
  have hforce : s1.cg.inForce = s.cg.inForce := (congrArg Commit.inForce (sendDecision_cg g none s) :)
  clear_value s1
  have hlock := ((lockOffsets_sameGroup g g s1).trans (.of_cg (fitSlices_cg g _))).trans
    ((lockPages_sameGroup g g _).trans (.of_cg (camLock_onlyChanges g _ .cg (by decide)).symm))
  exact ⟨hlock.st.trans (by rw [hgrp]), hlock.inForce.trans hforce, hlock.objs.trans (by rw [hgrp])⟩

/-! ## The lock line -/

section
variable {g : Fin 4} {s : State}

theorem cgLockLine_reached (h : (s.cg.group g).st = .armed) (hl : (s.cg.group g).line.isSome = true)
    (hc : (s.cg.group g).abs + linesBack s ≤ s.pos.absHigh + 64) (hb : s.pos.absHigh < (s.cg.group g).abs) :
    execCgLockLine g s = .next (pageDecisions s.pos.absHigh (tryLock g s)) := congrArg _ (if_pos ⟨h, hl, hc, hb⟩)

theorem cgDecisionDeadline_passes (hr : s.twin.role = .standby) (hp : withPeer s = true) (h : (s.cg.group g).st = .armed)
    (hl : (s.cg.group g).line.isSome = true) (hj : (s.cg.group g).joinGroup = false) (hd : (s.cg.group g).abs ≤ s.pos.absHigh + 48) :
    execCgDecisionDeadline g s = .next (unsync 3 (abortGroup g 6 s)) := congrArg _ (if_pos ⟨hr, hp, h, hl, by simp [hj], hd⟩)

/-! ## Stopped webs -/

theorem cgLoadsComplete_ready (h : (s.cg.group g).st = .armed) (hs : (s.cg.group g).stopped = true) (hl : (s.cg.group g).line = none)
    (hd : loadsDone g s = true) : execCgLoadsComplete g s = .next (loadsReady g s) := congrArg _ (if_pos ⟨h, hs, by simp [hl], hd⟩)

theorem cgTimeReachedStopped_due (h : (s.cg.group g).st = .armed) (ht : (s.cg.group g).trigger = 1) (hl : (s.cg.group g).line = none)
    (hw : s.cg.webStopped = true) (hn : (s.cg.group g).time.toNat ≤ s.pos.netNow) : execCgTimeReachedStopped g s =
      .next (if loadsDone g s then commitStopped g s else setGroup g (fun x => { x with stopped := true }) s) :=
  congrArg _ (if_pos ⟨h, ht, by simp [hl], by simp [webMoves, hw], hn⟩)

end

theorem loadsReady_moving {g : Nat} {s : State} (h : s.cg.webStopped = false) : loadsReady g s = clearCal g (resolve g 65 s) :=
  if_pos (by simp [webMoves, h])

theorem loadsReady_stopped {g : Nat} {s : State} (h : s.cg.webStopped = true) : loadsReady g s = commitStopped g s :=
  if_neg (by simp [webMoves, h])

theorem webStopped_quiet {s u : State} (hq : quietWeb s = true) (hu : u = { s with cg := { s.cg with webStopped := true } }) :
    execWebStopped s = .next (if u.fire.spit.isSome then u else wdogStep (resetStopStep (opReqStep (stopFiring u)))) := by
  subst hu
  exact congrArg _ (if_pos hq)

theorem webStopped_moving {s : State} (hq : quietWeb s = false) : execWebStopped s = .next s := congrArg _ (if_neg (by simp [hq]))

theorem quietWeb_early {t : Dword} {l : List Dword} {s : State} (h : s.fire.bTimes = t :: l) (ht : s.pos.mono.toNat < t.toNat + 1000000) :
    quietWeb s = false := by
  simp [quietWeb, h, ht]

theorem groupLocking : Claims.GroupLocking := by
  refine ⟨fun g s h hl hc hb => ⟨fun hn hp => ?alone, fun hn hp hj hr => ?standby, fun hn _ hr ha => ?agreed, fun cause hf => ?fails,
      fun hr hp hj hd => cgDecisionDeadline_passes hr hp h hl hj hd⟩, fun g s hl => lockGroup_locks (hl.symm ▸ g.isLt),
    fun g s => ⟨lockCause_bad, lockCause_state⟩, fun s u hq hu => ⟨fun hs => ?spits, fun hs => ?stops⟩,
    fun t l s h ht => webStopped_moving (quietWeb_early h ht), fun g s h hs hl hd => ⟨fun hw => ?moves, fun hw => ?stands⟩,
    fun g s h ht hl hw hn => ⟨fun hd => ?loaded, fun hd => ?waits⟩⟩
  case alone => exact (cgLockLine_reached h hl hc hb).trans (by rw [tryLock_alone hn hp])
  case standby => exact (cgLockLine_reached h hl hc hb).trans (by rw [tryLock_standby hn hp hj hr])
  case agreed => exact (cgLockLine_reached h hl hc hb).trans (by rw [tryLock_agreed hn hr ha])
  case fails => exact (cgLockLine_reached h hl hc hb).trans (by rw [tryLock_fails hf])
  case spits => exact (webStopped_quiet hq hu).trans (congrArg _ (if_pos (by rw [hu]; exact hs)))
  case stops => exact (webStopped_quiet hq hu).trans (congrArg _ (if_neg (by rw [hu]; simp [hs])))
  case moves => exact (cgLoadsComplete_ready h hs hl hd).trans (by rw [loadsReady_moving hw])
  case stands => exact (cgLoadsComplete_ready h hs hl hd).trans (by rw [loadsReady_stopped hw])
  case loaded => exact (cgTimeReachedStopped_due h ht hl hw hn).trans (congrArg _ (if_pos hd))
  case waits => exact (cgTimeReachedStopped_due h ht hl hw hn).trans (congrArg _ (if_neg (by simp [hd])))

/-- Settles O25: a CG_ARM by its checks and its trigger, an abort by the group it changes, and the lock line by what keeps a group from locking. -/
theorem groupsArmedAndLocked : Obligations.GroupsArmedAndLocked := ⟨groupArming, groupLocking⟩

end Sys2Proof.Machine
end

section
/-!
PROOFS. What changes of role, take-overs and digests leave of the state heard from the peer (R411, R415, R424, R428).
-/
namespace Sys2Proof.Machine

/-! ## Persistent words -/

theorem onlyChanges_pers (s : State) (q : Pers) : OnlyChanges [.pers] s { s with pers := q } := by
  intro p hp
  cases p <;> simp_all [State.agree]

theorem wornOut_onlyChanges (page : Nat) (s : State) : OnlyChanges logParts s (wornOut page s) := by
  unfold wornOut
  split
  · exact withLog_onlyChanges _ s
  · exact ((onlyChanges_pers s _).mono (by decide)).trans (withLog_onlyChanges _ _)

theorem countWear_onlyChanges (page k : Nat) (s : State) : OnlyChanges logParts s (countWear page k s) := by
  unfold countWear
  extract_lets old n _ s1
  have h1 : OnlyChanges logParts s s1 := (onlyChanges_pers s _).mono (by decide)
  split
  · exact h1.trans (withLog_onlyChanges _ s1)
  · exact h1

theorem prfStore_onlyChanges (w : Nat) (v : Word) (s : State) : OnlyChanges logParts s (prfStore w v s) := by
  unfold prfStore
  split
  · exact wornOut_onlyChanges _ s
  · exact ((onlyChanges_pers s _).mono (by decide)).trans (countWear_onlyChanges _ _ _)

theorem countWear_prf (page k : Nat) (s : State) : (countWear page k s).pers.prf = s.pers.prf := by
  unfold countWear
  extract_lets old n _ s1
  split
  · exact (congrArg Pers.prf (stickEvent_keeps s1 _ _).pers :)
  · rfl

/-- A write of a PRF word that its page still takes. -/
theorem prfStore_prf {w : Nat} {v : Word} {s : State} (h : pageFull s.pers (w / 64) = false) :
    (prfStore w v s).pers.prf = upd s.pers.prf w fun _ => v := by
  unfold prfStore
  rw [if_neg (by simp [h])]
  exact countWear_prf _ _ _

/-! ## What is heard from the peer -/

/-- The twin's state without the own role, claim, synchronisation, join, switchover and digests: what frames of the peer have said, among the rest. -/
def Twin.heard (t : Twin) : Twin := { t with
  role := .listen, synced := false, joining := none, fSync := none, matchRun := 0, swLine := none, exhausted := false, takeovers := 0
  claimOwn := 0, digestLine := 0, digestOwn := 0, digestPeer := 0, mismatches := 0, peerDig := [] }

/-- From `s` to `t` what is heard from the peer, the objects in force and the position are the same. -/
structure KeepsPeer (s t : State) : Prop where
  /-- What is heard from the peer. -/
  heard : t.twin.heard = s.twin.heard
  /-- The objects in force. -/
  inForce : t.cg.inForce = s.cg.inForce
  /-- The position. -/
  acc : t.pos.acc = s.pos.acc

namespace KeepsPeer
variable {s t u : State}

theorem refl (s : State) : KeepsPeer s s := ⟨rfl, rfl, rfl⟩

theorem trans (h : KeepsPeer s t) (k : KeepsPeer t u) : KeepsPeer s u :=
  ⟨k.heard.trans h.heard, k.inForce.trans h.inForce, k.acc.trans h.acc⟩

theorem of_twin {ps : List Part} (h : OnlyChanges ps s t) (hp : Part.cg ∉ ps ∧ Part.pos ∉ ps) (ht : t.twin.heard = s.twin.heard) :
    KeepsPeer s t := ⟨ht, congrArg Commit.inForce (h .cg hp.1).symm, congrArg Pos.acc (h .pos hp.2).symm⟩

theorem of_onlyChanges {ps : List Part} (h : OnlyChanges ps s t) (hp : Part.cg ∉ ps ∧ Part.pos ∉ ps ∧ Part.twin ∉ ps) : KeepsPeer s t :=
  of_twin h ⟨hp.1, hp.2.1⟩ (congrArg Twin.heard (h .twin hp.2.2).symm)

theorem log {t : State} (h : OnlyChanges logParts s t) : KeepsPeer s t := of_onlyChanges h (by decide)

theorem foldl {α : Type} (g : State → α → State) (l : List α) (s : State) (h : ∀ s x, KeepsPeer s (g s x)) : KeepsPeer s (l.foldl g s) :=
  List.foldlRecOn (motive := KeepsPeer s) l g (refl s) fun t ht x _ => ht.trans (h t x)

end KeepsPeer

/-! ## Joins, switchovers and roles -/

theorem unsync_keepsPeer (cause : Nat) (s : State) : KeepsPeer s (unsync cause s) := by
  obtain ⟨b, e⟩ := unsync_twin cause s
  exact .of_twin (unsync_onlyChanges cause s) (by decide) (by rw [e]; rfl)

theorem failJoin_keepsPeer (what : Nat) (s : State) : KeepsPeer s (failJoin what s) := by
  obtain ⟨j, f, b, e⟩ := failJoin_twin what s
  exact .of_twin (failJoin_onlyChanges what s) (by decide) (by rw [e]; rfl)

theorem abortGroupTo_keepsPeer (again : Bool) (g cause : Nat) (s : State) : KeepsPeer s (abortGroupTo again g cause s) := by
  obtain ⟨f, hcg⟩ := abortGroupTo_cg again cause g s
  obtain ⟨⟨l, hpos⟩, j, fs, b, htwin⟩ := abortGroupTo_leaves again cause g s
  exact ⟨by rw [htwin]; rfl, (congrArg Commit.inForce hcg :), (congrArg Pos.acc hpos :)⟩

theorem leaveSolo_keepsPeer (s : State) : KeepsPeer s (leaveSolo s) := by
  refine .foldl _ _ s fun t g => ?_
  dsimp only
  split
  · exact .refl t
  · exact abortGroupTo_keepsPeer false g 1 t

theorem leaveJoin_keepsPeer (s : State) : KeepsPeer s (leaveJoin s) := by
  unfold leaveJoin
  split
  · exact .refl s
  · exact KeepsPeer.trans (t := (takeFree s).2) ⟨rfl, rfl, rfl⟩ (failJoin_keepsPeer _ _)

theorem failSwitch_onlyChanges (s : State) : OnlyChanges (.twin :: logParts) s (failSwitch s) := by
  unfold failSwitch
  split
  · exact .refl _ s
  · extract_lets _ s1
    have h1 : OnlyChanges (.twin :: logParts) s s1 := ((onlyChanges_twin s _).mono (by decide)).trans ((withLog_onlyChanges _ _).mono (by decide))
    split
    · exact h1.trans ((complete_onlyChanges _ _ _ _ _ _ s1).mono (by decide))
    · exact h1

theorem failSwitch_twin (s : State) : ∃ l, (failSwitch s).twin = { s.twin with swLine := l } := by
  unfold failSwitch
  split
  · exact ⟨_, rfl⟩
  · split
    · exact ⟨none, complete_twin _ _ _ _ _ _ _⟩
    · exact ⟨none, rfl⟩

theorem failSwitch_keepsPeer (s : State) : KeepsPeer s (failSwitch s) := by
  obtain ⟨l, e⟩ := failSwitch_twin s
  exact .of_twin (failSwitch_onlyChanges s) (by decide) (by rw [e]; rfl)

theorem setRole_keepsPeer (new : Role) (s : State) : KeepsPeer s (setRole new s) := by
  unfold setRole
  split
  · exact .refl s
  · extract_lets old s0 claim _ s1
    have h0 : KeepsPeer s s0 := by
      unfold s0
      split
      · exact leaveSolo_keepsPeer s
      · split
        · exact leaveJoin_keepsPeer s
        · exact .refl s
    exact h0.trans ⟨rfl, rfl, rfl⟩

/-- A unit that leaves ACTIVE role for SOLO keeps its claim and ends nothing (R411). -/
theorem setRole_solo_twin {s : State} (h : s.twin.role = .active) : (setRole .solo s).twin = { s.twin with role := .solo } := by
  simp [setRole, h]

/-! ## Claims and take-overs -/

theorem issueClaim_keepsPeer (s : State) : KeepsPeer s (issueClaim s).2 := by
  unfold issueClaim
  extract_lets n
  split
  · exact .log (wornOut_onlyChanges 0 s)
  · split
    · exact ⟨rfl, rfl, rfl⟩
    · exact KeepsPeer.trans (t := { s with twin := { s.twin with claimOwn := w32 n, exhausted := false } }) ⟨rfl, rfl, rfl⟩
        (.log (prfStore_onlyChanges 16 _ _))

theorem takeOver_keepsPeer (cause : Nat) (s : State) : KeepsPeer s (takeOver cause s) := by
  unfold takeOver
  split
  · have hi := (failSwitch_keepsPeer s).trans (issueClaim_keepsPeer (failSwitch s))
    split
    next s1 e => rw [e] at hi; exact hi
    next c s1 e =>
      rw [e] at hi
      extract_lets new _ s2
      have h2 : KeepsPeer s1 s2 :=
        KeepsPeer.trans (t := { s1 with twin := { s1.twin with takeovers := satAdd s1.twin.takeovers 1 } }) ⟨rfl, rfl, rfl⟩ (setRole_keepsPeer new _)
      exact (hi.trans h2).trans ⟨rfl, rfl, rfl⟩
  · exact .refl s

theorem checkTakeover_keepsPeer (s : State) : KeepsPeer s (checkTakeover s) := by
  unfold checkTakeover
  split
  · exact takeOver_keepsPeer _ s
  · exact .refl s

theorem followPeer_keepsPeer (before : Nat) (s : State) : KeepsPeer s (followPeer before s) := by
  unfold followPeer
  extract_lets s1
  have h1 : KeepsPeer s s1 := by
    unfold s1
    split
    · exact failSwitch_keepsPeer s
    · exact .refl s
  split
  · exact h1.trans (setRole_keepsPeer _ s1)
  · split
    · exact h1.trans (setRole_keepsPeer _ s1)
    · exact h1

theorem joinPeer_keepsPeer (s : State) : KeepsPeer s (joinPeer s) := by
  unfold joinPeer
  split
  · exact failJoin_keepsPeer 5 s
  · exact .refl s

theorem claimStep_keepsPeer (s : State) : KeepsPeer s (claimStep s) := by
  unfold claimStep
  split <;> exact ⟨rfl, rfl, rfl⟩

/-! ## Digests -/

theorem compareDigests_keepsPeer (line own peer : Word) (s : State) : KeepsPeer s (compareDigests line own peer s) := by
  unfold compareDigests
  extract_lets _ s1 _ s2
  have h1 : KeepsPeer s s1 := ⟨rfl, rfl, rfl⟩
  split
  · exact h1
  · have h2 : KeepsPeer s1 s2 := ⟨rfl, rfl, rfl⟩
    exact (h1.trans h2).trans (unsync_keepsPeer 1 s2)

theorem countMatch_keepsPeer (epoch line own peer prev : Word) (s : State) : KeepsPeer s (countMatch epoch line own peer prev s) := by
  unfold countMatch
  split
  · split <;> exact ⟨rfl, rfl, rfl⟩
  · exact .refl s

theorem peerDigest_keepsPeer (epoch line d : Word) (s : State) : KeepsPeer s (peerDigest epoch line d s) := by
  unfold peerDigest
  split
  · split
    · exact .refl s
    · exact (compareDigests_keepsPeer _ _ _ s).trans (countMatch_keepsPeer _ _ _ _ _ _)
  · extract_lets newer
    split <;> exact ⟨rfl, rfl, rfl⟩

end Sys2Proof.Machine
end

section
/-!
PROOFS. Vigil frames: sending, receiving and losing the peer (R418 to R421, R433).
-/
namespace Sys2Proof.Machine

/-! ## Sending a frame -/

theorem claimStep_onlyChanges (s : State) : OnlyChanges [.twin] s (claimStep s) := by
  unfold claimStep
  split
  · exact onlyChanges_twin s _
  · exact onlyChanges_twin s _
  · exact .refl _ s

/-- The claim of R416 is all of the twin's state that it writes. -/
theorem claimStep_twin (s : State) : (claimStep s).twin = { s.twin with claimOwn := match s.twin.role with
    | .standby => s.twin.claimPeer - 1
    | .listen => 0
    | _ => s.twin.claimOwn } := by
  unfold claimStep
  cases h : s.twin.role <;> simp [h] <;> rw [← h]

/-- Taking the next message writes the queue, the copy that is due and the message's number. -/
theorem nextMsg_state (s : State) : ∃ q c b n,
    (nextMsg s).2 = { s with twin := { s.twin with txQueue := q, txCopy := c, serialSent := b, msgSeq := n } } := by
  unfold nextMsg
  dsimp only
  split
  · exact ⟨_, _, _, _, rfl⟩
  · split
    · exact ⟨_, _, _, _, rfl⟩
    · split <;> exact ⟨_, _, _, _, rfl⟩

theorem latestDigest_state (s : State) : ∃ n, (latestDigest s).2 = { s with free := n } := by
  unfold latestDigest
  split <;> exact ⟨_, rfl⟩

theorem msgWords_length (m : VMsg) (s : State) : (msgWords m s).length = 3 := by
  unfold msgWords
  split <;> rfl

/-- A frame's number stands in the low byte of its word 0 (R419). -/
theorem frameWord0_fseq (type : Nat) (seq : Byte) (s : State) : fld (frameWord0 type seq s) 0 8 = s.twin.fseq.toNat := by
  have h := s.twin.fseq.isLt
  simp only [frameWord0, fld, bits, w32, BitVec.toNat_ofNat, Nat.shiftRight_zero]
  omega

/-- The body of a frame with a message and a digest (R419). -/
def frameBody (m : Option VMsg) (d : Word × Word) (s : State) : List Word :=
  [frameWord0 ((m.map (·.type)).getD 0) s.twin.msgSeq s, claimFor (s.pos.absHigh + 2) s, s.cg.epochNow, d.1, d.2] ++
    (m.map (msgWords · s)).getD [0, 0, 0]

theorem frameBody_length (m : Option VMsg) (d : Word × Word) (s : State) : (frameBody m d s).length = 8 := by
  cases m with
  | none => rfl
  | some m => simp [frameBody, msgWords_length]

/-- The state in which the next frame is on its way, before its message is taken (R416, R418). -/
def frameBegun (s : State) : State := claimStep { s with twin := { s.twin with txAt := nextTx s } }

theorem vigilFrameTx_idle {x : Samples} {s u : State} (hu : u = mainUpdate (advance x s)) (h : vigilRuns u = false ∨ frameDue u = false) :
    execVigilFrameTx x s = .next u := by
  subst hu
  exact congrArg _ (if_pos (h.imp (by simp [·]) (by simp [·])))

theorem vigilFrameTx_due {x : Samples} {s u t w : State} {m : Option VMsg} {d : Word × Word} (hu : u = mainUpdate (advance x s))
    (hr : vigilRuns u = true) (hd : frameDue u = true) (hm : nextMsg (frameBegun u) = (m, t)) (hw : latestDigest t = (d, w)) :
    execVigilFrameTx x s =
      .next (emit (.vigil (some (vigilFrame (frameBody m d w)))) { w with twin := { w.twin with fseq := w.twin.fseq + 1 } }) := by
  subst hu
  unfold frameBegun at hm
  unfold execVigilFrameTx
  dsimp only
  rw [if_neg (by simp [hr, hd]), hm]
  dsimp only
  rw [hw]
  cases m <;> rfl

/-- A frame that leaves (R418 to R420). -/
theorem vigilFrameTx_sends {x : Samples} {s u : State} (hu : u = mainUpdate (advance x s)) (hr : vigilRuns u = true) (hd : frameDue u = true) :
    ∃ t body, execVigilFrameTx x s = .next t ∧ OnlyChanges [.twin, .free, .out] u t ∧ t.out = .vigil (some (vigilFrame body)) :: u.out ∧
      body.length = 8 ∧ fld (wd body 0) 0 8 = u.twin.fseq.toNat ∧ t.twin.fseq = u.twin.fseq + 1 ∧ t.twin.txAt = nextTx u ∧
      wd body 1 = claimFor (u.pos.absHigh + 2) t ∧ wd body 2 = u.cg.epochNow ∧ t.twin.claimOwn = (frameBegun u).twin.claimOwn := by
  obtain ⟨q, c, b, n, hnext⟩ := nextMsg_state (frameBegun u)
  rcases hm : nextMsg (frameBegun u) with ⟨m, v⟩
  obtain ⟨f, hdig⟩ := latestDigest_state v
  rcases hw : latestDigest v with ⟨d, w⟩
  have hw2 : w = { v with free := f } := (congrArg Prod.snd hw).symm.trans hdig
  have hv : v = { frameBegun u with twin := { (frameBegun u).twin with txQueue := q, txCopy := c, serialSent := b, msgSeq := n } } :=
    (congrArg Prod.snd hm).symm.trans hnext
  have hbegun : (frameBegun u).twin.fseq = u.twin.fseq ∧ (frameBegun u).twin.txAt = nextTx u := by
    unfold frameBegun
    rw [claimStep_twin]
    exact ⟨rfl, rfl⟩
  have hframe : OnlyChanges [.twin, .free, .out] u (frameBegun u) :=
    ((onlyChanges_twin u _).trans (claimStep_onlyChanges _)).mono (by decide)
  have hpos : (frameBegun u).pos = u.pos := (hframe .pos (by decide)).symm
  have hcg : (frameBegun u).cg = u.cg := (hframe .cg (by decide)).symm
  have hout : (frameBegun u).out = u.out := ((onlyChanges_twin u _).trans (claimStep_onlyChanges _) .out (by decide)).symm
  refine ⟨_, frameBody m d w, vigilFrameTx_due hu hr hd hm hw, ?_⟩
  rw [emit_unheld _ _ rfl, hw2, hv]
  clear hm hw hw2 hv hnext hdig
  generalize frameBegun u = v at *
  refine ⟨?_, congrArg _ hout, frameBody_length _ _ _, ?_, ?_, hbegun.2, ?_, ?_, rfl⟩
  · refine hframe.trans fun p hp => ?_
    cases p <;> simp_all [State.agree]
  · exact (frameWord0_fseq _ _ _).trans (congrArg BitVec.toNat hbegun.1)
  · exact congrArg (· + 1) hbegun.1
  · exact congrArg (fun p : Pos => claimFor (p.absHigh + 2) _) hpos
  · exact congrArg Commit.epochNow hcg

/-! ## POSITION -/

theorem insertMsg_length (m : VMsg) (l : List VMsg) : (insertMsg m l).length = l.length + 1 := by
  induction l with
  | nil => rfl
  | cons x xs ih =>
    unfold insertMsg
    split
    · simp [ih]
    · rfl

theorem mem_insertMsg (m : VMsg) (l : List VMsg) : m ∈ insertMsg m l := by
  induction l with
  | nil => exact List.mem_singleton.mpr rfl
  | cons x xs ih =>
    unfold insertMsg
    split
    · exact List.mem_cons_of_mem x ih
    · exact List.mem_cons_self

/-! ## The peer's frames -/

/-- A frame whose CRC-32C is another is not a valid one (R418). -/
theorem frameCrc_ne {w : List Word} {crc : Word} (h : crc.toNat ≠ crc32c (wordBytes w)) : crc ≠ frameCrc w := by
  rintro rfl
  exact h (Nat.mod_eq_of_lt (crc32c_lt _))

theorem seeClaim_onlyChanges (c : Word) (s : State) : OnlyChanges (.twin :: logParts) s (seeClaim c s) := by
  unfold seeClaim
  split
  · extract_lets s1
    have h1 : OnlyChanges (.twin :: logParts) s s1 := by
      unfold s1
      split
      · exact (prfStore_onlyChanges 16 c s).mono (by decide)
      · exact .refl _ s
    exact h1.trans ((onlyChanges_twin s1 _).mono (by decide))
  · exact .refl _ s

/-- A claim that has been seen is at most the highest one seen (R415). -/
theorem seeClaim_twin (c : Word) (s : State) : ∃ m, (seeClaim c s).twin = { s.twin with claimSeen := m } ∧ s.twin.claimSeen ≤ m ∧ c ≤ m := by
  unfold seeClaim
  split
  next h =>
    have h1 : (if wd s.pers.prf 16 < c then prfStore 16 c s else s).twin = s.twin := by
      split
      · exact (prfStore_onlyChanges 16 c s .twin (by decide)).symm
      · rfl
    exact ⟨c, congrArg (fun t : Twin => { t with claimSeen := c }) h1, BitVec.le_of_lt h, BitVec.le_refl c⟩
  next h => exact ⟨s.twin.claimSeen, rfl, BitVec.le_refl _, BitVec.not_lt.mp h⟩

/-- What a valid frame tells of the peer (R419, R421). -/
theorem takeFrame_hears (w : List Word) (s : State) : (takeFrame w s).twin.rxFresh = true ∧ (takeFrame w s).twin.peerRole = fld (wd w 0) 8 2 ∧
    (takeFrame w s).twin.peerOp = fld (wd w 0) 10 3 ∧ (takeFrame w s).twin.peerSynced = flag (wd w 0) 13 ∧
    (takeFrame w s).twin.peerFiring = flag (wd w 0) 14 ∧ (takeFrame w s).twin.peerHears = flag (wd w 0) 15 ∧
    (takeFrame w s).twin.claimPeer = wd w 1 ∧ s.twin.claimSeen ≤ (takeFrame w s).twin.claimSeen ∧
    wd w 1 ≤ (takeFrame w s).twin.claimSeen ∧ (1 ≤ s.twin.peerRun → (takeFrame w s).twin.peerPresent = true) ∧
    (takeFrame w s).cg.inForce = s.cg.inForce ∧ (takeFrame w s).pos.acc = s.pos.acc := by
  unfold takeFrame
  extract_lets t w0 run s1 s2 _ s3 s4
  obtain ⟨m, htwin, hseen, hclaim⟩ := seeClaim_twin (wd w 1) s1
  have hpresent : ∃ b, s3.twin = { s2.twin with peerPresent := b } ∧ (1 ≤ s.twin.peerRun → b = true) := by
    by_cases h : run = 2 ∧ ¬ t.peerPresent = true
    · exact ⟨true, by rw [show s3 = _ from if_pos h]; rfl, fun _ => rfl⟩
    · refine ⟨s2.twin.peerPresent, by rw [show s3 = _ from if_neg h], fun h1 => ?_⟩
      have hrun : run = 2 := by change min 2 (s.twin.peerRun + 1) = 2; omega
      have ht : t.peerPresent = true := by simpa [hrun] using h
      exact (congrArg Twin.peerPresent htwin).trans ht
  obtain ⟨b, h3, hb⟩ := hpresent
  have hkeep : KeepsPeer s3 (if s4.twin.peerPresent then checkTakeover (joinPeer (followPeer t.peerRole s4)) else s4) := by
    have h4 : KeepsPeer s3 s4 := (peerDigest_keepsPeer _ _ _ s3).trans (claimStep_keepsPeer _)
    split
    · exact h4.trans (((followPeer_keepsPeer _ s4).trans (joinPeer_keepsPeer _)).trans (checkTakeover_keepsPeer _))
    · exact h4
  have hcg : s3.cg = s.cg := by
    unfold s3
    split <;> exact (seeClaim_onlyChanges (wd w 1) s1 .cg (by decide)).symm
  have hpos : s3.pos = s.pos := by
    unfold s3
    split <;> exact (seeClaim_onlyChanges (wd w 1) s1 .pos (by decide)).symm
  have h3 : s3.twin = { s1.twin with claimSeen := m, peerPresent := b } := h3.trans (by rw [show s2.twin = _ from htwin])
  generalize (if s4.twin.peerPresent then checkTakeover (joinPeer (followPeer t.peerRole s4)) else s4) = v at hkeep ⊢
  obtain ⟨hheard, hforce, hacc⟩ := hkeep
  rw [h3] at hheard
  have hs : v.twin.claimSeen = m := (congrArg Twin.claimSeen hheard :)
  rw [hs]
  exact ⟨(congrArg Twin.rxFresh hheard :), (congrArg Twin.peerRole hheard :), (congrArg Twin.peerOp hheard :), (congrArg Twin.peerSynced hheard :),
    (congrArg Twin.peerFiring hheard :), (congrArg Twin.peerHears hheard :), (congrArg Twin.claimPeer hheard :), hseen, hclaim,
    fun h => (congrArg Twin.peerPresent hheard :).trans (hb h), hforce.trans (congrArg Commit.inForce hcg), hacc.trans (congrArg Pos.acc hpos)⟩

end Sys2Proof.Machine
end

section
/-!
PROOFS. Vigil frames, assembled (R418 to R421, R426, R432, R433).
-/
namespace Sys2Proof.Machine

/-! ## The claim sent -/

theorem claimFor_listen (F : Nat) {s : State} (h : s.twin.role = .listen) : claimFor F s = 0 := if_pos h

section
variable {F : Nat} {s : State} (h : s.twin.role ≠ .listen)
include h

theorem claimFor_own (hs : s.twin.swLine = none) : claimFor F s = s.twin.claimOwn := by
  unfold claimFor
  rw [if_neg h, hs]

theorem claimFor_switched {l : Nat} {c : Word} (hs : s.twin.swLine = some (l, c, none)) (hl : l ≤ F) : claimFor F s = c := by
  unfold claimFor
  rw [if_neg h, hs]
  exact if_pos hl

theorem claimFor_before {l : Nat} {c : Word} {t : Option Word} (hs : s.twin.swLine = some (l, c, t)) (hl : F < l) :
    claimFor F s = s.twin.claimOwn := by
  unfold claimFor
  rw [if_neg h, hs]
  cases t with
  | none => exact if_neg (Nat.not_le.mpr hl)
  | some t => rfl

end

/-! ## POSITION, a lost peer and its grace -/

section
variable {s : State}

theorem vigilPositionTx_due (hr : s.twin.role = .solo ∨ s.twin.role = .active) (ht : 1000000 ≤ s.since s.twin.posTxAt) :
    execVigilPositionTx s = .next (vigilSend { type := 5 } { s with twin := { s.twin with posTxAt := s.pos.mono } }) :=
  congrArg _ (if_pos ⟨hr, ht⟩)

theorem vigilPositionTx_idle (h : s.twin.role = .standby ∨ s.twin.role = .listen ∨ s.since s.twin.posTxAt < 1000000) :
    execVigilPositionTx s = .next s := by
  refine congrArg _ (if_neg ?_)
  rintro ⟨hr, ht⟩
  rcases h with e | e | e
  · simp [e] at hr
  · simp [e] at hr
  · exact Nat.not_le.mpr e ht

theorem vigilFrameRx_wrong {w : List Word} {crc : Word} (h : crc.toNat ≠ crc32c (wordBytes w)) : execVigilFrameRx w crc s =
    .next (stickRec (source := 0x60) .vigilCrc { s with twin := { s.twin with crcErrors := satAdd s.twin.crcErrors 1, peerRun := 0 } }) :=
  congrArg _ (if_neg (frameCrc_ne h))

theorem vigilFrameRx_right {w : List Word} {crc : Word} (h : crc = frameCrc w) : execVigilFrameRx w crc s = .next (takeFrame w s) :=
  congrArg _ (if_pos h)

theorem vigilPeerLost_fresh (h : s.since s.twin.rxAt < 7680) : execVigilPeerLost s = .next s := congrArg _ (if_pos h)

theorem vigilPeerLost_absent (h : 7680 ≤ s.since s.twin.rxAt) (hp : s.twin.peerPresent = false) : execVigilPeerLost s =
    .next { s with twin := { s.twin with rxFresh := false, serialSent := false, peerRun := 0, peerMsgSeq := none } } :=
  congrArg _ ((if_neg (Nat.not_lt.mpr h)).trans (if_pos (by simp [hp])))

/-- The twin's state as the peer is lost, before the role follows (R421). -/
def Twin.peerLost (now : Dword) (t : Twin) : Twin := { t with
  rxFresh := false, serialSent := false, peerRun := 0, peerMsgSeq := none, peerPresent := false, lostAt := now, losses := satAdd t.losses 1 }

/-- A unit that has lost its peer in ACTIVE role is SOLO (R421): its switchover fails with it, and nothing else of the twin's state goes. -/
theorem vigilPeerLost_present (h : 7680 ≤ s.since s.twin.rxAt) (hp : s.twin.peerPresent = true) :
    ∃ t l, execVigilPeerLost s = .next t ∧
      t.twin = { s.twin.peerLost s.pos.mono with role := if s.twin.role = .active then .solo else s.twin.role, swLine := l } := by
  unfold execVigilPeerLost
  extract_lets _ s1 _ s2 s3
  have h2 : s2.twin = s.twin.peerLost s.pos.mono := rfl
  rw [if_neg (Nat.not_lt.mpr h), if_neg (by simp [hp])]
  clear_value s2
  have hrole : s2.twin.role = s.twin.role := (congrArg Twin.role h2 :)
  by_cases ha : s.twin.role = .active
  · obtain ⟨l, hl⟩ := failSwitch_twin s2
    have h3 : s3.twin = { s2.twin with swLine := l } := by rw [show s3 = failSwitch s2 from if_pos (hrole.trans ha), hl]
    have hact : s3.twin.role = .active := (congrArg Twin.role h3).trans (hrole.trans ha)
    refine ⟨_, l, rfl, ?_⟩
    rw [if_pos hact, setRole_solo_twin hact, h3, h2, if_pos ha]
  · have h3 : s3 = s2 := if_neg (by rw [hrole]; exact ha)
    refine ⟨_, (s.twin.peerLost s.pos.mono).swLine, rfl, ?_⟩
    rw [h3, if_neg (by rw [hrole]; exact ha), h2, if_neg ha]
    rfl

theorem vigilGraceExpiry_waits (h : s.twin.peerPresent = true ∨ headsFirePeer s = false ∨ s.twin.role ≠ .standby ∨ s.twin.synced = false ∨
    s.pos.mono.toNat < s.twin.lostAt.toNat + 1000000 * s.twin.graceMs) : execVigilGraceExpiry s = .next s := by
  have hrole : s.twin.role ≠ .standby → unsync 7 s = s := fun e => if_pos e
  have hsync : s.twin.synced = false → unsync 7 s = s := fun e => by simp [unsync, e]
  refine congrArg _ (?_ : ite _ _ _ = s)
  split
  next hd =>
    simp only [Bool.and_eq_true, Bool.not_eq_true', decide_eq_true_eq] at hd
    obtain ⟨⟨hp, hf⟩, ht⟩ := hd
    rcases h with e | e | e | e | e
    · rw [hp] at e; cases e
    · rw [hf] at e; cases e
    · exact hrole e
    · exact hsync e
    · exact absurd ht (Nat.not_le.mpr e)
  · rfl

theorem vigilGraceExpiry_ends (hp : s.twin.peerPresent = false) (hf : headsFirePeer s = true) (hr : s.twin.role = .standby)
    (hs : s.twin.synced = true) (ht : s.twin.lostAt.toNat + 1000000 * s.twin.graceMs ≤ s.pos.mono.toNat) : execVigilGraceExpiry s =
    .next (stickEvent .twinUnsync { ev := .unsync, p0 := 7, p1 := fireLineNow s, always := true } { s with twin := { s.twin with synced := false } }) :=
  congrArg _ ((if_pos (by simp [hp, hf, ht])).trans ((if_neg (not_not.mpr hr)).trans (if_pos (.inl hs))))

end

theorem vigilFrames : Claims.VigilFrames := by
  refine ⟨fun x s u => vigilFrameTx_idle, fun x s u hu hr hd => ?sends,
    fun F s => ⟨claimFor_listen F, fun h => ⟨claimFor_own h, fun l c => claimFor_switched h, fun l c t => claimFor_before h⟩⟩,
    fun s hr ht => ?position, fun s => vigilPositionTx_idle, fun w crc s => vigilFrameRx_wrong,
    fun w crc s h => ⟨_, vigilFrameRx_right h, takeFrame_hears w s⟩, fun s => vigilPeerLost_fresh, fun s => vigilPeerLost_absent,
    fun s h hp => ?lost, fun s => vigilGraceExpiry_waits, fun s => vigilGraceExpiry_ends⟩
  case sends =>
    obtain ⟨t, body, he, hf, ho, hl, h0, hseq, hat, h1, h2, hc⟩ := vigilFrameTx_sends hu hr hd
    have hclaim := congrArg Twin.claimOwn (claimStep_twin { u with twin := { u.twin with txAt := nextTx u } })
    exact ⟨t, body, he, hf, ho, hl, h0, hseq, hat, h1, h2, hc.trans hclaim⟩
  case position =>
    refine ⟨_, vigilPositionTx_due hr ht, (onlyChanges_twin s _).trans (onlyChanges_twin _ _), insertMsg_length _ _, mem_insertMsg _ _⟩
  case lost =>
    obtain ⟨t, l, he, ht⟩ := vigilPeerLost_present h hp
    exact ⟨t, he, by rw [ht]; rfl, by rw [ht]; rfl, by rw [ht]; rfl, by rw [ht]; rfl, by rw [ht], by rw [ht]; rfl⟩

end Sys2Proof.Machine
end

section
/-!
PROOFS. Vigil messages, row by row (R94, R95, R123, R420, R432, R439).
-/
namespace Sys2Proof.Machine

/-! ## First and second copies (R420) -/

/-- The state once the first copy of a message has come (R420). -/
def heardMsg (q : Byte) (s : State) : State := { s with twin := { s.twin with peerMsgSeq := some q } }

theorem onMessage_again {q : Byte} {s : State} (f : State → State) (h : s.twin.peerMsgSeq = some q) : onMessage q f s = s := if_pos h

theorem onMessage_first {q : Byte} {s : State} (f : State → State) (h : s.twin.peerMsgSeq ≠ some q) : onMessage q f s = f (heardMsg q s) := if_neg h

/-! ## The main side's permissions leave the twin -/

theorem setPermission_onlyChanges (side p : Nat) (granted : Bool) (s : State) :
    OnlyChanges [.host, .pers, .onyx, .out] s (setPermission side p granted s) := by
  obtain ⟨o, -, -, h⟩ := setPermission_frame side p granted s
  exact ((onlyChanges_onyx s o).mono (by decide)).trans (h.mono (by decide))

theorem mainPermissions_onlyChanges (s : State) : OnlyChanges [.host, .pers, .onyx, .out] s (mainPermissions s) :=
  (((setPermission_onlyChanges 1 1 _ s).trans (setPermission_onlyChanges 1 2 _ _)).trans (setPermission_onlyChanges 1 3 _ _)).trans
    (setPermission_onlyChanges 1 4 _ _)

theorem serviceCheck_onlyChanges (s : State) : OnlyChanges [.host, .pers, .onyx, .out] s (serviceCheck s) := by
  unfold serviceCheck
  split
  · exact ((onlyChanges_host s _).mono (by decide)).trans (setOpState_onlyChanges _ _ _)
  · exact .refl _ s

theorem mainUpdate_onlyChanges (s : State) : OnlyChanges [.host, .pers, .onyx, .out] s (mainUpdate s) :=
  ((mainPermissions_onlyChanges s).trans ((onlyChanges_onyx _ _).mono (by decide))).trans (serviceCheck_onlyChanges _)

/-! ## ARM and DECISION (R94, R95) -/

section
variable {q : Byte} {s : State} (h : s.twin.peerMsgSeq ≠ some q)
include h

theorem arm_new {r : ArmRec} (hr : r ∉ s.cg.peerArms) (hl : s.cg.peerArms.length < 16) : execArm q r.epoch r.line r.digest s =
    .next { heardMsg q s with cg := { s.cg with peerArms := s.cg.peerArms ++ [r] } } := by
  have hdrop : s.cg.peerArms.length + 1 - 16 = 0 := by omega
  unfold execArm
  extract_lets x
  rw [onMessage_first _ h]
  refine congrArg _ ((if_neg ?_).trans ?_)
  · exact fun hc => hr (List.contains_iff_mem.mp hc)
  · exact congrArg (fun n => { heardMsg q s with cg := { s.cg with peerArms := (s.cg.peerArms ++ [r]).drop n } }) hdrop

theorem arm_held {r : ArmRec} (hr : r ∈ s.cg.peerArms) : execArm q r.epoch r.line r.digest s = .next (heardMsg q s) := by
  unfold execArm
  extract_lets x
  rw [onMessage_first _ h]
  exact congrArg _ (if_pos (List.contains_iff_mem.mpr hr))

theorem decision_other (e l : Word) (b : Bool) (c : Byte) (hr : s.twin.role ≠ .standby) :
    execDecision q e l b c s = .next (heardMsg q s) := by
  unfold execDecision
  rw [onMessage_first _ h]
  exact congrArg _ (if_pos hr)

section
variable {e l : Word} (hr : s.twin.role = .standby)
include hr

theorem decision_standby (b : Bool) (c : Byte) : execDecision q e l b c s = .next (if b then
      match decidedGroup e l (agrees s) s with
      | some g => followLock g l (heardMsg q s)
      | none => unsync 4 (heardMsg q s)
    else match decidedGroup e l (fun _ => true) s with
      | some g => abortGroup g c.toNat (heardMsg q s)
      | none => heardMsg q s) := by
  unfold execDecision
  rw [onMessage_first _ h]
  exact congrArg _ (if_neg (not_not.mpr hr))

theorem decision_lock (c : Byte) : (decidedGroup e l (agrees s) s = none → execDecision q e l true c s = .next (unsync 4 (heardMsg q s))) ∧
    ∀ g, decidedGroup e l (agrees s) s = some g → execDecision q e l true c s = .next (followLock g l (heardMsg q s)) := by
  rw [decision_standby h hr]
  exact ⟨fun hd => by rw [hd]; rfl, fun g hd => by rw [hd]; rfl⟩

theorem decision_abort (c : Byte) : (decidedGroup e l (fun _ => true) s = none → execDecision q e l false c s = .next (heardMsg q s)) ∧
    ∀ g, decidedGroup e l (fun _ => true) s = some g → execDecision q e l false c s = .next (abortGroup g c.toNat (heardMsg q s)) := by
  rw [decision_standby h hr]
  exact ⟨fun hd => by rw [hd]; rfl, fun g hd => by rw [hd]; rfl⟩

end

end

/-- A group whose digest no arm record of its line bears differs from the record (R94). -/
theorem agrees_other {s : State} {x : Group} {r : ArmRec} (hr : r ∈ s.cg.peerArms) (he : r.epoch = x.epoch) (hl : r.line = sentLine x)
    (hd : ∀ r' ∈ s.cg.peerArms, r'.epoch = x.epoch → r'.line = sentLine x → r'.digest ≠ x.digest) : agrees s x = false := by
  unfold agrees
  extract_lets recs
  have hmem : ∀ r', r' ∈ recs ↔ r' ∈ s.cg.peerArms ∧ r'.epoch = x.epoch ∧ r'.line = sentLine x := fun r' => by simp [recs]
  have hne : recs.isEmpty = false := List.isEmpty_eq_false_iff.mpr (List.ne_nil_of_mem ((hmem r).mpr ⟨hr, he, hl⟩))
  have hany : (recs.any fun r => r.digest == x.digest) = false := by
    refine List.any_eq_false.mpr fun r' h' => ?_
    obtain ⟨h1, h2, h3⟩ := (hmem r').mp h'
    simpa using hd r' h1 h2 h3
  rw [hne, hany]
  rfl

/-! ## PAGE_START (R123) -/

/-- The state with the PAGE_STARTs that wait given. -/
def State.withStarts (l : List (Word × Word × Word)) (s : State) : State := { s with pg := { s.pg with peerStart := l } }

theorem startPage_withStarts (p : Page) (n f : Nat) (l : List (Word × Word × Word)) (s : State) :
    startPage p n f (s.withStarts l) = (startPage p n f s).withStarts l := by
  unfold startPage
  dsimp only
  rw [apply_ite (State.withStarts l)]
  rfl

theorem startPage_peerStart (p : Page) (n f : Nat) (s : State) : (startPage p n f s).pg.peerStart = s.pg.peerStart := by
  unfold startPage
  dsimp only
  split <;> rfl

/-- The PAGE_START that came has been dealt with: none waits. -/
theorem withStarts_undone {s : State} (hs : s.pg.peerStart = []) (m : Word × Word × Word) :
    (s.withStarts [m]).withStarts ((s.withStarts [m]).pg.peerStart.filter fun x => x != m) = s := by
  have hnil : ([m].filter fun x => x != m) = s.pg.peerStart := by simp [hs]
  exact congrArg s.withStarts hnil

theorem startedAs_at {num : Word} {s : State} (h : startedAs num none s = none) (f : Nat) : startedAs num (some f) s = none := by
  refine List.find?_eq_none.mpr fun p hp => ?_
  have := List.find?_eq_none.mp h p hp
  simp_all

section
variable {B : Nat} {e l num : Word} {s : State}

theorem followStart_later (h : s.pg.decEpoch < e) : followStart B (e, l, num) s = none := by
  have hne : e ≠ s.pg.decEpoch := fun he => BitVec.lt_irrefl e (he ▸ h)
  exact (if_pos hne).trans (if_neg (BitVec.not_lt.mpr (BitVec.le_of_lt h)))

/-- Without a page to come and none begun, the line decides (R123). -/
theorem followStart_absent (he : e = s.pg.decEpoch) (hr : s.pg.decRing = none) (hs : startedAs num none s = none) :
    followStart B (e, l, num) s = if B ≥ s.pg.decBase + l.toNat then some (true, s) else none := by
  unfold followStart
  dsimp only
  rw [if_neg (not_not.mpr he), startedAs_at hs, hr, hs]
  rfl

theorem followStart_held {r : Nat} {p : Page} (he : e = s.pg.decEpoch) (hr : s.pg.decRing = some r) (hp : nextPage r s = some p) (hn : p.number = num)
    (hst : p.stored = true) (hs : startedAs num (some (s.pg.decBase + l.toNat)) s = none) (hh : (s.pg.ring p.ring).halted = false)
    (hc : startCheck p (s.pg.nominal + gapBefore p s) s = none) : followStart B (e, l, num) s =
      some (false, startPage p (s.pg.nominal + gapBefore p s) (s.pg.decBase + l.toNat) s) := by
  have hnext : (s.pg.decRing.bind fun r => nextPage r s) = some p := by rw [hr]; exact hp
  unfold followStart
  dsimp only
  rw [if_neg (not_not.mpr he), hs, hnext]
  dsimp only
  rw [if_neg (by simp), if_pos hn, if_pos ⟨hst, by simp [hh], by simp [hc]⟩]

/-- The one PAGE_START that waits, as it came. -/
theorem peerPageStart_one (m : Word × Word × Word) (hr : s.twin.role = .standby) (hs : s.pg.peerStart = [m]) : peerPageStart B s =
    match followStart B m s with
    | none => (false, s)
    | some (late, t) => (late, t.withStarts (t.pg.peerStart.filter fun x => x != m)) := by
  unfold peerPageStart
  rw [if_neg (not_not.mpr hr), hs]
  rfl

end

/-- A unit whose claim space is not exhausted (R415). -/
theorem claim_left {s : State} (hx : s.twin.exhausted = false) (hm : maxClaim s + 1 < 0xFFFFFFFF) :
    ¬(s.twin.exhausted = true ∨ maxClaim s + 1 ≥ 0xFFFFFFFF) := by
  rintro (h | h)
  · rw [hx] at h; cases h
  · exact absurd hm (Nat.not_lt.mpr h)

section
variable {q : Byte} {e l num : Word} {s : State} (h : s.twin.peerMsgSeq ≠ some q)
include h

theorem pageStart_other (hr : s.twin.role ≠ .standby) : execPageStart q e l num s = .next (heardMsg q s) := by
  unfold execPageStart
  rw [onMessage_first _ h]
  exact congrArg _ (if_pos hr)

section
variable (hr : s.twin.role = .standby) (hs : s.pg.peerStart = [])
include hr hs

theorem pageStart_standby : execPageStart q e l num s = .next (match followStart s.pos.absHigh (e, l, num) ((heardMsg q s).withStarts [(e, l, num)]) with
    | none => (heardMsg q s).withStarts [(e, l, num)]
    | some (late, t) =>
      let t1 := t.withStarts (t.pg.peerStart.filter fun x => x != (e, l, num))
      if late then unsync 6 t1 else t1) := by
  have hone : (heardMsg q s).withStarts ((heardMsg q s).pg.peerStart ++ [(e, l, num)]) = (heardMsg q s).withStarts [(e, l, num)] :=
    congrArg (fun k => (heardMsg q s).withStarts (k ++ [(e, l, num)])) hs
  unfold execPageStart
  rw [onMessage_first _ h]
  refine congrArg _ ((if_neg (not_not.mpr hr)).trans ?_)
  dsimp only
  change (let (lost, s1) := peerPageStart s.pos.absHigh ((heardMsg q s).withStarts ((heardMsg q s).pg.peerStart ++ [(e, l, num)]))
    if lost then unsync 6 s1 else s1) = _
  rw [hone, peerPageStart_one (s := (heardMsg q s).withStarts [(e, l, num)]) (e, l, num) hr rfl]
  cases followStart s.pos.absHigh (e, l, num) ((heardMsg q s).withStarts [(e, l, num)]) <;> rfl

theorem pageStart_waits (hw : s.pg.decEpoch < e ∨ (e = s.pg.decEpoch ∧ s.pg.decRing = none ∧ startedAs num none s = none ∧
    s.pos.absHigh < s.pg.decBase + l.toNat)) : execPageStart q e l num s = .next ((heardMsg q s).withStarts [(e, l, num)]) := by
  have hf : followStart s.pos.absHigh (e, l, num) ((heardMsg q s).withStarts [(e, l, num)]) = none := by
    rcases hw with hlt | ⟨he, hn, ha, hb⟩
    · exact followStart_later hlt
    · exact (followStart_absent (s := (heardMsg q s).withStarts [(e, l, num)]) he hn ha).trans (if_neg (Nat.not_le.mpr hb))
  rw [pageStart_standby h hr hs, hf]

theorem pageStart_missing (he : e = s.pg.decEpoch) (hn : s.pg.decRing = none) (ha : startedAs num none s = none)
    (hb : s.pg.decBase + l.toNat ≤ s.pos.absHigh) : execPageStart q e l num s = .next (unsync 6 (heardMsg q s)) := by
  have hf : followStart s.pos.absHigh (e, l, num) ((heardMsg q s).withStarts [(e, l, num)]) =
    some (true, (heardMsg q s).withStarts [(e, l, num)]) := (followStart_absent (s := (heardMsg q s).withStarts [(e, l, num)]) he hn ha).trans (if_pos hb)
  rw [pageStart_standby h hr hs, hf]
  exact congrArg (fun t => Host.Outcome.next (unsync 6 t)) (withStarts_undone (s := heardMsg q s) hs _)

theorem pageStart_starts {r : Nat} {p : Page} (he : e = s.pg.decEpoch) (hring : s.pg.decRing = some r) (hp : nextPage r s = some p)
    (hn : p.number = num) (hst : p.stored = true) (ha : startedAs num (some (s.pg.decBase + l.toNat)) s = none)
    (hh : (s.pg.ring p.ring).halted = false) (hc : startCheck p (s.pg.nominal + gapBefore p s) s = none) : execPageStart q e l num s =
      .next (startPage p (s.pg.nominal + gapBefore p s) (s.pg.decBase + l.toNat) (heardMsg q s)) := by
  have hf : followStart s.pos.absHigh (e, l, num) ((heardMsg q s).withStarts [(e, l, num)]) = some (false,
      startPage p (s.pg.nominal + gapBefore p s) (s.pg.decBase + l.toNat) ((heardMsg q s).withStarts [(e, l, num)])) :=
    followStart_held he hring hp hn hst ha hh hc
  rw [pageStart_standby h hr hs, hf]
  dsimp only
  rw [if_neg (by decide), startPage_peerStart, ← startPage_withStarts, withStarts_undone (s := heardMsg q s) hs]

end

/-! ## SWITCH (R432) -/

theorem switch_other {claim : Word} (hw : s.twin.role ≠ .standby ∨ s.twin.synced = false ∨ e ≠ s.cg.epochNow) :
    execSwitch q e l claim s = .next (heardMsg q s) := by
  unfold execSwitch
  rw [onMessage_first _ h]
  exact congrArg _ (if_pos (hw.imp_right (Or.imp_left fun hf => ne_true_of_eq_false hf)))

section
variable {claim : Word} (hr : s.twin.role = .standby) (hs : s.twin.synced = true) (he : e = s.cg.epochNow)
include hr hs he

theorem switch_standby : execSwitch q e l claim s = .next (
    if s.twin.exhausted = true ∨ maxClaim s + 1 ≥ 0xFFFFFFFF then stickRec .switchoverFailed (heardMsg q s)
    else if pageFull s.pers 0 = true then stickRec .switchoverFailed (wornOut 0 (heardMsg q s))
    else prfStore 16 claim { s with twin := { s.twin with peerMsgSeq := some q, swLine := some (absOf l s, claim, none) } }) := by
  unfold execSwitch
  rw [onMessage_first _ h]
  refine congrArg _ (if_neg ?_)
  rintro (hx | hx | hx)
  · exact hx hr
  · exact hx hs
  · exact hx he

theorem switch_exhausted (hx : s.twin.exhausted = true ∨ 0xFFFFFFFF ≤ maxClaim s + 1) :
    execSwitch q e l claim s = .next (stickRec .switchoverFailed (heardMsg q s)) :=
  (switch_standby h hr hs he).trans (congrArg _ (if_pos hx))

section
variable (hx : s.twin.exhausted = false) (hm : maxClaim s + 1 < 0xFFFFFFFF)
include hx hm

theorem switch_worn (hp : pageFull s.pers 0 = true) :
    execSwitch q e l claim s = .next (stickRec .switchoverFailed (wornOut 0 (heardMsg q s))) :=
  (switch_standby h hr hs he).trans (congrArg _ ((if_neg (claim_left hx hm)).trans (if_pos hp)))

theorem switch_writes (hp : pageFull s.pers 0 = false) (hlen : s.pers.prf.length = 1024) : ∃ t, execSwitch q e l claim s = .next t ∧
    OnlyChanges [.host, .pers, .out, .twin] s t ∧ t.twin.swLine = some (absOf l s, claim, none) ∧ wd t.pers.prf 16 = claim ∧
    ∀ i, i ≠ 16 → wd t.pers.prf i = wd s.pers.prf i := by
  let u : State := { s with twin := { s.twin with peerMsgSeq := some q, swLine := some (absOf l s, claim, none) } }
  have hk : OnlyChanges logParts u (prfStore 16 claim u) := prfStore_onlyChanges 16 claim u
  have hprf : (prfStore 16 claim u).pers.prf = upd s.pers.prf 16 fun _ => claim := prfStore_prf hp
  have hwd : ∀ i, wd (prfStore 16 claim u).pers.prf i = if 16 = i then claim else wd s.pers.prf i := fun i => by
    rw [hprf, wd_upd _ _ _ _ (by omega)]
  refine ⟨prfStore 16 claim u, ?_, ?_, (congrArg Twin.swLine (hk .twin (by decide)).symm :), by rw [hwd, if_pos rfl],
    fun i hi => by rw [hwd, if_neg (Ne.symm hi)]⟩
  · rw [switch_standby h hr hs he, if_neg (claim_left hx hm), if_neg (by simp [hp])]
  · exact ((onlyChanges_twin s _).mono (by decide)).trans (hk.mono (by decide))

end

end

/-! ## JOIN_A, JOIN_B and SERIAL (R419, R439) -/

theorem joinA_noted {j : JoinJob} (id : Word) (hj : s.twin.joining = some j) (he : j.epoch = e) (hl : j.ls = absOf l s) : execJoinA q e l id s =
    .next { heardMsg q s with twin := { (heardMsg q s).twin with joining := some { j with jobId := some id } } } := by
  unfold execJoinA
  rw [onMessage_first _ h]
  simp only [heardMsg, hj]
  exact congrArg _ (if_pos ⟨he, hl⟩)

theorem joinA_other {j : JoinJob} (id : Word) (hj : s.twin.joining = some j) (hne : j.epoch ≠ e ∨ j.ls ≠ absOf l s) :
    execJoinA q e l id s = .next (heardMsg q s) := by
  unfold execJoinA
  rw [onMessage_first _ h]
  simp only [heardMsg, hj]
  exact congrArg _ (if_neg fun hc => hne.elim (· hc.1) (· hc.2))

theorem joinA_idle (id : Word) (hj : s.twin.joining = none) : execJoinA q e l id s = .next (heardMsg q s) := by
  unfold execJoinA
  rw [onMessage_first _ h]
  simp only [heardMsg, hj]

theorem joinB_noted {j : JoinJob} (n f p : Word) (hj : s.twin.joining = some j) : execJoinB q n f p s =
    .next { heardMsg q s with twin := { (heardMsg q s).twin with joining := some { j with page := some (n, f, p) } } } := by
  unfold execJoinB
  rw [onMessage_first _ h]
  simp only [heardMsg, hj]

theorem joinB_idle (n f p : Word) (hj : s.twin.joining = none) : execJoinB q n f p s = .next (heardMsg q s) := by
  unfold execJoinB
  rw [onMessage_first _ h]
  simp only [heardMsg, hj]

theorem serial_noted (n : Dword) : execSerial q n s = .next { heardMsg q s with twin := { (heardMsg q s).twin with peerSerial := n } } :=
  congrArg _ (onMessage_first _ h)

end

end Sys2Proof.Machine
end

section
/-!
PROOFS. POSITION (R425), and the Vigil messages assembled.
-/
namespace Sys2Proof.Machine

/-! ## Taking the peer's epoch and position -/

/-- A state that stands in the peer's epoch at its position, the objects in force untouched (R425). -/
structure Adopted (epoch : Word) (position : BitVec 50) (objs : List Obj) (s : State) : Prop where
  /-- The position has been adopted. -/
  adopted : s.twin.posAdopted = true
  /-- The peer's epoch is the present one. -/
  epochNow : s.cg.epochNow = epoch
  /-- The accumulator. -/
  acc : s.pos.acc = BitVec.ofNat 80 (position.toNat * 2 ^ 30)
  /-- The line. -/
  high : s.pos.high = w32 (position.toNat >>> 18)
  /-- The objects in force. -/
  inForce : s.cg.inForce = objs

theorem Adopted.camera {e : Word} {p : BitVec 50} {objs : List Obj} {s t : State} (h : Adopted e p objs s)
    (ht : OnlyChanges (.pos :: camParts) s t) (hp : ∃ l, t.pos = { s.pos with cmps := l }) : Adopted e p objs t := by
  obtain ⟨l, hpos⟩ := hp
  have htwin : t.twin = s.twin := (ht .twin (by decide)).symm
  have hcg : t.cg = s.cg := (ht .cg (by decide)).symm
  exact ⟨(congrArg Twin.posAdopted htwin).trans h.adopted, (congrArg Commit.epochNow hcg).trans h.epochNow,
    (congrArg Pos.acc hpos :).trans h.acc, (congrArg Pos.high hpos :).trans h.high, (congrArg Commit.inForce hcg).trans h.inForce⟩

/-- A segment begun anew from a state that has adopted the position. -/
theorem Adopted.beginSeg {e : Word} {p : BitVec 50} {objs : List Obj} {s : State} (h : Adopted e p objs s) (k : Nat) (g : CamSeg) (f : Cam → Cam) :
    Adopted e p objs (armCam k (beginSeg k g (setCam k f s))) := by
  have hb : OnlyChanges camParts s (Machine.beginSeg k g (setCam k f s)) :=
    ((setCam_onlyChanges k f s).mono (by decide)).trans (beginSeg_onlyChanges k g _)
  obtain ⟨l, hl⟩ := armCam_pos k (Machine.beginSeg k g (setCam k f s))
  refine h.camera ((hb.mono (by decide)).trans (armCam_onlyChanges k _)) ⟨l, ?_⟩
  rw [hl, ← hb .pos (by decide)]

theorem endScrJob_onlyChanges (lc : Nat) (s : State) : OnlyChanges (.twin :: .scr :: logParts) s (endScrJob lc s) := by
  unfold endScrJob
  extract_lets _ _ ended
  have hended : ∀ op tag, OnlyChanges (.twin :: .scr :: logParts) s (ended op tag) := by
    intro op tag
    have h1 := (onlyChanges_scr s { s.scr with job := none }).mono (qs := .twin :: .scr :: logParts) (by decide)
    cases tag with
    | none => exact h1
    | some t => exact h1.trans ((complete_onlyChanges _ _ _ _ _ _ _).mono (by decide))
  split
  · split
    · exact hended 0x0401 (some _)
    · exact .refl _ s
  · split
    · exact (hended _ _).trans ((failJoin_onlyChanges 2 _).mono (by decide))
    · exact .refl _ s
  · split
    · exact hended 0x0403 (some _)
    · exact .refl _ s
  · exact .refl _ s

theorem adopt_adopted (e : Word) (p : BitVec 50) (s : State) : Adopted e p s.cg.inForce (adopt e p s) := by
  unfold adopt
  extract_lets s0 line base top _ _ _ s1 s2 _ _ _ s3
  have h0 : s0.cg.inForce = s.cg.inForce := by
    unfold s0
    split
    · rfl
    · exact (congrArg Commit.inForce (endScrJob_onlyChanges 0 s .cg (by decide))).symm
  have h1 : Adopted e p s.cg.inForce s1 := ⟨rfl, rfl, rfl, rfl, h0⟩
  split
  · exact h1
  · have h2 : OnlyChanges [.scr] s1 s2 := by
      refine List.foldlRecOn (motive := OnlyChanges [.scr] s1) _ _ (.refl _ s1) fun t ht m _ => ht.trans (onlyChanges_scr t _)
    have h3 : Adopted e p s.cg.inForce s3 := by
      have htwin : s2.twin = s1.twin := (h2 .twin (by decide)).symm
      have hcg : s2.cg = s1.cg := (h2 .cg (by decide)).symm
      have hpos : s2.pos = s1.pos := (h2 .pos (by decide)).symm
      exact ⟨(congrArg Twin.posAdopted htwin).trans h1.adopted, (congrArg Commit.epochNow hcg).trans h1.epochNow,
        (congrArg Pos.acc hpos).trans h1.acc, (congrArg Pos.high hpos).trans h1.high, (congrArg Commit.inForce hcg).trans h1.inForce⟩
    refine List.foldlRecOn (motive := Adopted e p s.cg.inForce) _ _ h3 fun t ht k _ => ?_
    dsimp only
    split
    · exact ht
    · exact ht.beginSeg k _ _

/-! ## What a STANDBY role unit does with a position (R425) -/

/-- A STANDBY role unit is unsynchronised after cause 2, whatever it was before (R426). -/
theorem unsync_position {s : State} (h : s.twin.role = .standby) : (unsync 2 s).twin.synced = false := by
  unfold unsync
  rw [if_neg (not_not.mpr h)]
  split
  · rfl
  next hs =>
    rw [if_neg (by decide)]
    simpa using hs

/-- A skew beyond the limit costs a STANDBY role unit its synchronisation, and of what it holds nothing (R425). -/
theorem unsync_skew {s : State} (h : s.twin.role = .standby) (d : Word) : ∃ t,
    unsync 2 (stickRec .posSkew { s with twin := { s.twin with posDiff := d } }) = t ∧
      t.twin.synced = false ∧ t.twin.posDiff = d ∧ t.pos = s.pos ∧ t.cg = s.cg := by
  have hstick : OnlyChanges logParts { s with twin := { s.twin with posDiff := d } } (stickRec .posSkew { s with twin := { s.twin with posDiff := d } }) :=
    withLog_onlyChanges _ _
  generalize stickRec .posSkew { s with twin := { s.twin with posDiff := d } } = t at *
  have htwin : t.twin = { s.twin with posDiff := d } := (hstick .twin (by decide)).symm
  obtain ⟨b, hb⟩ := unsync_twin 2 t
  have hk := unsync_onlyChanges 2 t
  refine ⟨_, rfl, unsync_position ((congrArg Twin.role htwin).trans h), by rw [hb, htwin], ?_, ?_⟩
  · exact (hk .pos (by decide)).symm.trans (hstick .pos (by decide)).symm
  · exact (hk .cg (by decide)).symm.trans (hstick .cg (by decide)).symm

section
variable {e : Word} {p : BitVec 50} {s : State}

theorem takePosition_other (h : s.twin.role ≠ .standby) : takePosition e p s = s := if_pos h

section
variable (hr : s.twin.role = .standby)
include hr

theorem takePosition_adopts (ha : s.twin.posAdopted = false) : takePosition e p s = adopt e p s :=
  (if_neg (not_not.mpr hr)).trans (if_pos (by simp [ha]))

variable (ha : s.twin.posAdopted = true)
include ha

theorem takePosition_epoch (he : e ≠ s.cg.epochNow) : takePosition e p s = s :=
  (if_neg (not_not.mpr hr)).trans ((if_neg (by simp [ha])).trans (if_pos he))

variable (he : e = s.cg.epochNow)
include he

theorem takePosition_compares : takePosition e p s =
    if 4096 < (skewOf p s).natAbs then unsync 2 (stickRec .posSkew { s with twin := { s.twin with posDiff := wInt (skewOf p s) } })
    else { s with twin := { s.twin with posDiff := wInt (skewOf p s) } } :=
  (if_neg (not_not.mpr hr)).trans ((if_neg (by simp [ha])).trans (if_neg (not_not.mpr he)))

theorem takePosition_near (hd : (skewOf p s).natAbs ≤ 4096) :
    takePosition e p s = { s with twin := { s.twin with posDiff := wInt (skewOf p s) } } :=
  (takePosition_compares hr ha he).trans (if_neg (Nat.not_lt.mpr hd))

theorem takePosition_far (hd : 4096 < (skewOf p s).natAbs) : ∃ t, takePosition e p s = t ∧ t.twin.synced = false ∧
    t.twin.posDiff = wInt (skewOf p s) ∧ t.pos = s.pos ∧ t.cg = s.cg := by
  rw [(takePosition_compares hr ha he).trans (if_pos hd)]
  exact unsync_skew hr (wInt (skewOf p s))

end

end

theorem position_again {q : Byte} {a : Word} {s : State} (h : s.twin.peerMsgSeq = some q) : execPosition q a 0 [] s = .next (mainUpdate s) := by
  have htwin : (mainUpdate s).twin = s.twin := (mainUpdate_onlyChanges s .twin (by decide)).symm
  exact congrArg _ (onMessage_again (s := mainUpdate s) _ ((congrArg Twin.peerMsgSeq htwin).trans h))

theorem position_first {q : Byte} {e : Word} {p : BitVec 50} {x : Samples} {s v : State} (hv : v = mainUpdate (advance x s))
    (h : v.twin.peerMsgSeq ≠ some q) : execPosition q e p x s = .next (takePosition e p (heardMsg q v)) := by
  subst hv
  exact congrArg _ (onMessage_first _ h)

/-! ## The messages -/

theorem vigilMessages : Claims.VigilMessages := by
  refine ⟨fun q a b c l d n s h => ?again, fun q s u h hu => ?first, fun s x r hr he hl hd => agrees_other hr he hl hd,
    fun q e p x s v u hv h hu => ?position⟩
  case again =>
    exact ⟨congrArg _ (onMessage_again _ h), congrArg _ (onMessage_again _ h), congrArg _ (onMessage_again _ h), congrArg _ (onMessage_again _ h),
      congrArg _ (onMessage_again _ h), congrArg _ (onMessage_again _ h), congrArg _ (onMessage_again _ h), position_again h⟩
  case first =>
    subst hu
    refine ⟨fun r => arm_new h, fun r => arm_held h, fun e l b c hr => ⟨decision_other h e l b c hr, pageStart_other h hr⟩,
      fun e l c hr => ?decision, fun e l num hr hs => ?page, fun e l claim => switch_other h, fun e l claim hr hs he => ?fails,
      fun e l claim hr hs hx hm he => switch_writes h hr hs he hx hm, fun j e l id n f p hj => ?joins,
      fun e l id n f p hj => ⟨joinA_idle h id hj, joinB_idle h n f p hj⟩, fun n => serial_noted h n⟩
    case decision =>
      obtain ⟨hnone, hlock⟩ := decision_lock (e := e) (l := l) h hr c
      obtain ⟨hstay, habort⟩ := decision_abort (e := e) (l := l) h hr c
      exact ⟨hnone, hstay, hlock, habort⟩
    case page =>
      refine ⟨pageStart_waits h hr hs, pageStart_missing h hr hs, fun r p first he hring hp hn hst hf ha hh hc => ?_⟩
      subst hf
      exact pageStart_starts h hr hs he hring hp hn hst ha hh hc
    case fails => exact ⟨switch_exhausted h hr hs he, switch_worn h hr hs he⟩
    case joins => exact ⟨joinA_noted h id hj, joinA_other h id hj, joinB_noted h n f p hj⟩
  case position =>
    subst hu
    have hrow := position_first (e := e) (p := p) hv h
    refine ⟨fun hr => ?_, fun hr ha => ⟨_, hrow, ?_⟩, fun hr ha he => ?_, fun hr ha he hd => ?_, fun hr ha he hd => ?_⟩
    · exact hrow.trans (congrArg _ (takePosition_other hr))
    · rw [takePosition_adopts (s := heardMsg q v) hr ha]
      obtain ⟨hadopted, hepoch, hacc, hhigh, hforce⟩ := adopt_adopted e p (heardMsg q v)
      exact ⟨hadopted, hepoch, hacc, hhigh, hforce⟩
    · exact hrow.trans (congrArg _ (takePosition_epoch hr ha he))
    · exact hrow.trans (congrArg _ (takePosition_near (s := heardMsg q v) hr ha he hd))
    · obtain ⟨t, ht, hfar⟩ := takePosition_far (s := heardMsg q v) hr ha he hd
      exact ⟨t, hrow.trans (congrArg _ ht), hfar⟩

/-- Settles O52: the frames and the messages of Vigil. -/
theorem vigil : Obligations.Vigil := ⟨vigilFrames, vigilMessages⟩

end Sys2Proof.Machine
end

section
/-!
PROOFS. Rings and their fetches (R111, R114 to R116, R121, R126, R130, R134).
-/
namespace Sys2Proof.Machine

/-! ## One ring among the four -/

theorem setRing_onlyChanges (r : Nat) (f : Ring → Ring) (s : State) : OnlyChanges [.pg] s (setRing r f s) := onlyChanges_pg s _

theorem dropFetch_onlyChanges (r : Nat) (s : State) : OnlyChanges [.pg] s (dropFetch r s) := onlyChanges_pg s _

theorem ring_setRing_same {r : Nat} {f : Ring → Ring} {s : State} (h : r < s.pg.rings.length) :
    (setRing r f s).pg.ring r = f (s.pg.ring r) := (cell_upd s.pg.rings r r f {} h).trans (if_pos rfl)

theorem ring_setRing_other {r q : Nat} (f : Ring → Ring) (s : State) (h : q ≠ r) : (setRing r f s).pg.ring q = s.pg.ring q := by
  simp [Pages.ring, cell, upd, List.getD_eq_getElem?_getD, h.symm]

theorem setRing_setRing (r : Nat) (f g : Ring → Ring) (s : State) : setRing r g (setRing r f s) = setRing r (g ∘ f) s :=
  congrArg (fun l => { s with pg := { s.pg with rings := l } }) (upd_upd s.pg.rings r f g)

/-! ## Asking for descriptors -/

/-- A ring that may fetch asks for 64 bytes in its place of the ring (R111, R116). -/
theorem fetchNext_asks {r : Nat} {s : State} (h : mayFetch r s = true) : fetchNext r s =
    readHost ((s.pg.ring r).descBase.toNat + 64 * ((s.pg.ring r).fetch.toNat % 2 ^ (s.pg.ring r).sizeLog2)) 64
      { s with pg := { s.pg with descReq := s.pg.descReq ++ [(r, (s.pg.ring r).fetch)] } } := if_pos h

theorem fetchNext_waits {r : Nat} {s : State} (h : mayFetch r s = false) : fetchNext r s = s := if_neg (by simp [h])

/-- Of the pages part, a fetch that begins changes the descriptors asked for. -/
theorem fetchNext_pg (r : Nat) (s : State) : ∃ l, (fetchNext r s).pg = { s.pg with descReq := l } := by
  cases h : mayFetch r s
  · exact ⟨s.pg.descReq, by rw [fetchNext_waits h]⟩
  · exact ⟨_, by rw [fetchNext_asks h]; rfl⟩

theorem fetchNext_onlyChanges (r : Nat) (s : State) : OnlyChanges [.pg, .out] s (fetchNext r s) := by
  cases h : mayFetch r s
  · rw [fetchNext_waits h]
    exact .refl _ s
  · rw [fetchNext_asks h]
    exact ((onlyChanges_pg s _).mono (by decide)).trans ((readHost_onlyChanges _ _ _).mono (by decide))

theorem fetchAll_pg (s : State) : ∃ l, (fetchAll s).pg = { s.pg with descReq := l } :=
  List.foldlRecOn (motive := fun t : State => ∃ l, t.pg = { s.pg with descReq := l }) _ _ ⟨s.pg.descReq, rfl⟩ fun t ⟨_, ht⟩ r _ => by
    obtain ⟨l, h⟩ := fetchNext_pg r t
    exact ⟨l, by rw [h, ht]⟩

theorem fetchAll_onlyChanges (s : State) : OnlyChanges [.pg, .out] s (fetchAll s) := .foldl _ _ s fun t r => fetchNext_onlyChanges r t

theorem ringProd_asks {r : Nat} {v : Word} {s : State} (h : mayFetch r (setRing r (fun g => { g with prod := v }) s) = true)
    (hr : r < s.pg.rings.length) : ringProd r v s =
      readHost ((s.pg.ring r).descBase.toNat + 64 * ((s.pg.ring r).fetch.toNat % 2 ^ (s.pg.ring r).sizeLog2)) 64
        (setRing r (fun g => { g with prod := v }) { s with pg := { s.pg with descReq := s.pg.descReq ++ [(r, (s.pg.ring r).fetch)] } }) := by
  rw [ringProd, fetchNext_asks h, ring_setRing_same hr]
  rfl

/-- A ring that is halted, disabled or has fetched all that is posted does not fetch (R115, R130). -/
theorem mayFetch_idle {r : Nat} {v : Word} {s : State} (hr : r < s.pg.rings.length)
    (h : (s.pg.ring r).halted = true ∨ (s.pg.ring r).enabled = false ∨ (s.pg.ring r).fetch = v) :
    mayFetch r (setRing r (fun g => { g with prod := v }) s) = false := by
  unfold mayFetch
  rw [ring_setRing_same hr]
  rcases h with h | h | h <;> simp [h]

/-! ## A ring halts -/

theorem haltRing_onlyChanges (r code : Nat) (idx : Word) (ev : Ev) (s : State) :
    OnlyChanges [.host, .pg, .pers, .out] s (haltRing r code idx ev s) := by
  unfold haltRing
  extract_lets s1
  have h1 : OnlyChanges [.host, .pg, .pers, .out] s s1 :=
    ((dropFetch_onlyChanges r s).trans (setRing_onlyChanges r _ _)).mono (by decide)
  exact (h1.trans ((withLog_onlyChanges _ s1).mono (by decide))).trans ((withLog_onlyChanges _ _).mono (by decide))

/-- The message, the sticky bit and the event of a halt leave the pages part. -/
theorem haltRing_pg (r code : Nat) (idx : Word) (ev : Ev) (s : State) : (haltRing r code idx ev s).pg =
    (setRing r (fun g => { g with halted := true, haltReason := code, sinceIrq := 0 }) (dropFetch r s)).pg := rfl

/-- A halted ring has no fetch under way (R114). -/
theorem haltRing_descReq {r code : Nat} {idx : Word} {ev : Ev} {s : State} {d : Nat × Word} (h : d ∈ (haltRing r code idx ev s).pg.descReq) :
    d.1 ≠ r := by
  rw [haltRing_pg] at h
  simpa using (List.mem_filter.mp h).2

/-! ## A page is taken in -/

theorem setRing_stored_zero (r : Nat) (s : State) : setRing r (fun g => { g with stored := g.stored + 0 }) s = s := by
  have hid : upd s.pg.rings r (fun g => { g with stored := g.stored + 0 }) = s.pg.rings := by
    simp only [add_zero]
    exact List.modify_id r s.pg.rings
  rw [setRing, hid]

/-- RING_STORED alone moves on as pages become stored (R121). -/
theorem advanceStored_eq (r fuel : Nat) (s : State) : ∃ n, advanceStored r fuel s = setRing r (fun g => { g with stored := g.stored + n }) s := by
  induction fuel generalizing s with
  | zero => exact ⟨0, (setRing_stored_zero r s).symm⟩
  | succ fuel ih =>
    unfold advanceStored
    dsimp only
    split
    · split
      · obtain ⟨n, h⟩ := ih (setRing r (fun g => { g with stored := g.stored + 1 }) s)
        refine ⟨1 + n, ?_⟩
        rw [h, setRing_setRing]
        simp only [Function.comp_def, BitVec.add_assoc]
      · exact ⟨0, (setRing_stored_zero r s).symm⟩
    · exact ⟨0, (setRing_stored_zero r s).symm⟩

/-- The requests of several reads. -/
theorem readHosts_state (l : List Blk) (s : State) : ∃ o, l.foldl (fun s b => readHost b.addr.toNat b.len s) s = { s with out := o } :=
  List.foldlRecOn (motive := fun t : State => ∃ o, t = { s with out := o }) l _ ⟨s.out, rfl⟩ fun t ⟨o, ht⟩ b _ =>
    ⟨(readReqs s.host.maxRead b.addr.toNat b.len).reverse ++ o, by rw [ht]; rfl⟩

/-- The page of a descriptor as it is taken in (R113, R121). -/
def takenPage (r : Nat) (idx : Word) (desc : List Word) (blocks : List Blk) (uid : Nat) : Page :=
  { uid := uid, ring := r, descIdx := idx, desc := desc, lines := wn desc 2, blocks := blocks.map fun b => { b with fetches := 1 } }

theorem takenPage_size (r : Nat) (idx : Word) (desc : List Word) (blocks : List Blk) (uid : Nat) :
    (takenPage r idx desc blocks uid).size = (blocks.map fun b => if b.blank then 0 else b.len).sum := by
  simp [Page.size, takenPage, Function.comp_def]

/-- The pages part with a page taken in, RING_STORED having moved on by `n` (R116, R121). -/
def Pages.taking (p : Page) (n : Word) (q : Pages) : Pages := { q with
  rings := upd q.rings p.ring fun g => { g with fetch := g.fetch + 1, stored := g.stored + n }, pages := q.pages ++ [p], nextUid := q.nextUid + 1 }

section
variable {r : Nat} {idx : Word} {desc : List Word} {blocks : List Blk} {s : State} {p : Page} (hp : p = takenPage r idx desc blocks s.pg.nextUid)
include hp

theorem takePage_full (h : s.pg.used + p.size > s.pg.capacity) : takePage r idx desc blocks s =
    stickRec .storeFull (setRing r (fun g => { g with waitSpace := true }) s) := by
  subst hp
  exact if_pos h

variable (hs : s.pg.used + p.size ≤ s.pg.capacity)
include hs

theorem takePage_waits (h : fetchRoom r (s.pg.used + p.sizeButLast) s = false) : takePage r idx desc blocks s =
    setRing r (fun g => { g with waitSpace := true }) s := by
  subst hp
  exact (if_neg (Nat.not_lt.mpr hs)).trans (if_pos fun e => Bool.false_ne_true (h.symm.trans e))

/-- A page that fits is the last page, its blocks are asked for, and the ring goes on (R116, R121). -/
theorem takePage_takes (h : fetchRoom r (s.pg.used + p.sizeButLast) s = true) :
    ∃ n o, takePage r idx desc blocks s = fetchNext r { s with pg := s.pg.taking p n, out := o } := by
  subst hp
  unfold takePage
  extract_lets q _ s1 s2
  obtain ⟨o, ho⟩ := readHosts_state (blocks.filter fun b => !b.blank) s1
  have h2 : s2 = { s1 with out := o } := ho
  obtain ⟨n, hn⟩ := advanceStored_eq r s2.pg.pages.length s2
  have hrings : upd (upd s.pg.rings r fun g => { g with fetch := g.fetch + 1 }) r (fun g => { g with stored := g.stored + n }) =
      upd s.pg.rings r fun g => { g with fetch := g.fetch + 1, stored := g.stored + n } := upd_upd _ _ _ _
  refine ⟨n, o, ((if_neg (Nat.not_lt.mpr hs)).trans (if_neg (not_not.mpr h))).trans (congrArg (fetchNext r) ?_)⟩
  rw [hn, h2]
  exact congrArg (fun l => { s with pg := { s.pg with rings := l, pages := s.pg.pages ++ [q], nextUid := s.pg.nextUid + 1 }, out := o }) hrings

end

/-! ## A descriptor arrives -/

section
variable {r : Fin 4} {idx : Word} {bytes table : List Byte} {desc : List Word} {blocks : List Blk} {s u : State}
  (hq : s.pg.descReq.find? (fun d => d.1 == r.val) = some (r.val, idx)) (hd : desc = bytesToWords bytes 0 16)
  (ht : table.length = tableLen desc) (hb : blocks = tableOf desc table) (hu : u = readHost (wn64 desc 6) (tableLen desc) (dropFetch r s))
include hq hd ht hb hu

theorem descArrived_fails {code : Nat} (hc : descCheck desc blocks s.pg.capacity = some code) :
    execDescFetchDone r bytes table s = .next (haltRing r code idx .descError u) := by
  subst hd hb hu
  unfold execDescFetchDone descArrived
  rw [hq]
  dsimp only
  rw [if_neg (not_not.mpr ht), hc]

theorem descArrived_passes (hc : descCheck desc blocks s.pg.capacity = none) :
    execDescFetchDone r bytes table s = .next (takePage r idx desc blocks u) := by
  subst hd hb hu
  unfold execDescFetchDone descArrived
  rw [hq]
  dsimp only
  rw [if_neg (not_not.mpr ht), hc]

end

/-- A table of another length is not the one asked for. -/
theorem descArrived_other {r : Fin 4} {bytes table : List Byte} {s : State} (h : table.length ≠ tableLen (bytesToWords bytes 0 16)) :
    execDescFetchDone r bytes table s = .next s := by
  refine congrArg Host.Outcome.next ?_
  unfold descArrived
  split
  · rfl
  · exact if_pos h

/-- Settles O18: a write and a resumption by what `fetchNext` asks for, a descriptor by its checks and by the room for its page. -/
theorem ringFetches : Obligations.RingFetches := by
  have hlt : ∀ (r : Fin 4) {s : State}, s.pg.rings.length = 4 → r.val < s.pg.rings.length := fun r s hl => r.isLt.trans_eq hl.symm
  refine ⟨fun r v s h hl => ?asks, fun r v s h hl => congrArg _ (fetchNext_waits (mayFetch_idle (hlt r hl) h)), fun s hl => ?resumes,
    fun r idx bytes table desc blocks s u hq hd ht hb hu => ?arrives, fun r bytes table s h => descArrived_other h,
    fun r idx page s h => congrArg _ (if_pos h),
    fun r code idx ev s hl => ⟨ring_setRing_same (s := dropFetch r s) (hlt r hl), fun d hd => haltRing_descReq hd, haltRing_onlyChanges r code idx ev s⟩⟩
  case asks =>
    refine ⟨ringProd r v s, rfl, ((setRing_onlyChanges r _ s).mono (by decide)).trans (fetchNext_onlyChanges r _), ?_⟩
    rw [ringProd_asks h (hlt r hl)]
    exact ⟨rfl, ring_setRing_same (hlt r hl), fun q hq => ring_setRing_other _ s hq, rfl⟩
  case resumes =>
    obtain ⟨l, h⟩ := fetchAll_pg { s with pg := { s.pg with rings := s.pg.rings.map fun g => { g with waitSpace := false } } }
    refine ⟨_, rfl, ((onlyChanges_pg s _).mono (by decide)).trans (fetchAll_onlyChanges _), fun r hr => ?_⟩
    rw [h]
    exact cell_map _ _ _ _ (hl ▸ hr)
  case arrives =>
    have hpg : u.pg = (dropFetch r s).pg := by rw [hu]; rfl
    have hlen : s.pg.rings.length = 4 → r.val < u.pg.rings.length := fun hl => by rw [hpg]; exact hlt r hl
    have hpages : u.pg.pages = s.pg.pages := by rw [hpg]; rfl
    have hring : u.pg.ring r = s.pg.ring r := by rw [hpg]; rfl
    have hused : u.pg.used = s.pg.used := by rw [hpg]; rfl
    have hcap : u.pg.capacity = s.pg.capacity := by rw [hpg]; rfl
    have hnew : takenPage r idx desc blocks s.pg.nextUid = takenPage r idx desc blocks u.pg.nextUid := by rw [hpg]; rfl
    have hpass : ∀ t, descCheck desc blocks s.pg.capacity = none → takePage r idx desc blocks u = t → exec (.descFetchDone r bytes table) s = .next t :=
      fun t hc e => (descArrived_passes hq hd ht hb hu hc).trans (congrArg _ e)
    refine ⟨fun code hc => descArrived_fails hq hd ht hb hu hc, fun hc hf => ?full, fun q hq' hc hs hroom => ?waits, fun q hq' hc hs hroom => ?taken⟩
    case full =>
      refine ⟨_, hpass _ hc (takePage_full rfl ?_), setRing_onlyChanges _ _ u, hpages, fun hl => by rw [ring_setRing_same (hlen hl)]⟩
      rw [takenPage_size, hused, hcap]
      exact hf
    case waits =>
      refine ⟨_, hpass _ hc (takePage_waits (hq'.trans hnew) ?_ (hused.symm ▸ hroom)), setRing_onlyChanges _ _ u, hpages,
        fun hl => by rw [ring_setRing_same (hlen hl)]⟩
      rw [hq'.trans hnew, takenPage_size, hused, hcap]
      exact hs
    case taken =>
      obtain ⟨n, o, e⟩ := takePage_takes (hq'.trans hnew) (by rw [hq'.trans hnew, takenPage_size, hused, hcap]; exact hs) (hused.symm ▸ hroom)
      obtain ⟨l, hl'⟩ := fetchNext_pg r { u with pg := u.pg.taking q n, out := o }
      have hsame : OnlyChanges [.pg, .out] s { u with pg := u.pg.taking q n, out := o } := by
        rw [hu]
        intro part hpart
        cases part <;> simp_all [State.agree]
      refine ⟨_, q, hpass _ hc e, hsame.trans (fetchNext_onlyChanges r _), ?_, congrArg Page.ring hq', congrArg Page.descIdx hq', congrArg Page.desc hq',
        congrArg Page.started hq', (congrArg (·.blocks.length) hq').trans (List.length_map _), fun hl => ?_⟩
      · exact (congrArg Pages.pages hl').trans (congrArg (· ++ [q]) hpages)
      · have hmoved : (u.pg.taking q n).ring r = { u.pg.ring r with fetch := (u.pg.ring r).fetch + 1, stored := (u.pg.ring r).stored + n } := by
          rw [hq'.trans hnew]
          exact ring_setRing_same (s := u) (hlen hl)
        exact (congrArg (fun p => (Pages.ring p r).fetch) hl').trans ((congrArg Ring.fetch hmoved).trans (congrArg (fun g => g.fetch + 1) hring))

end Sys2Proof.Machine
end

section
/-!
PROOFS. The Topaz form of a block and its tokens (R108 to R110, R117 to R119).
-/
namespace Sys2Proof.Machine

/-! ## Tokens -/

/-- The parts of a TOKEN's first byte: its kind, its count, and the bit that tells the two long kinds apart (R118). -/
theorem control_fields {k n : Nat} (hk : k < 4) (hn : n < 64) :
    (BitVec.ofNat 8 (64 * k + n)).toNat / 64 = k ∧ (BitVec.ofNat 8 (64 * k + n)).toNat % 64 = n ∧
    (BitVec.ofNat 8 (64 * k + n)).toNat % 32 = n % 32 ∧ (BitVec.ofNat 8 (64 * k + n)).getLsbD 5 = decide (32 ≤ n) := by
  have hc : (BitVec.ofNat 8 (64 * k + n)).toNat = 64 * k + n := Nat.mod_eq_of_lt (by omega)
  refine ⟨by omega, by omega, by omega, ?_⟩
  rw [BitVec.getLsbD, hc, Nat.testBit_eq_decide_div_mod_eq, decide_eq_decide]
  omega

theorem tokenStep_lit (lb : Nat) {n : Nat} (out rest : List Byte) {data : List Byte} (hn : n < 64) (hl : data.length = n + 1) :
    tokenStep lb out (BitVec.ofNat 8 n :: (data ++ rest)) = some (data.reverse ++ out, rest) := by
  obtain ⟨hk, hm, -, -⟩ := control_fields (k := 0) (by norm_num) hn
  rw [mul_zero, zero_add] at hk hm
  generalize BitVec.ofNat 8 n = b at hk hm ⊢
  simp [tokenStep, hk, hm, ← hl]

theorem tokenStep_run (lb : Nat) {n : Nat} (v : Byte) (out rest : List Byte) (hn : n < 64) :
    tokenStep lb out (BitVec.ofNat 8 (64 + n) :: v :: rest) = some (List.replicate (n + 3) v ++ out, rest) := by
  obtain ⟨hk, hm, -, -⟩ := control_fields (k := 1) (by norm_num) hn
  simp only [mul_one] at hk hm
  generalize BitVec.ofNat 8 (64 + n) = b at hk hm ⊢
  simp [tokenStep, hk, hm]

theorem tokenStep_up (lb : Nat) {n : Nat} (out rest : List Byte) (hn : n < 64) :
    tokenStep lb out (BitVec.ofNat 8 (128 + n) :: rest) = some (copyUp lb (n + 1) out, rest) := by
  obtain ⟨hk, hm, -, -⟩ := control_fields (k := 2) (by norm_num) hn
  simp only [Nat.reduceMul] at hk hm
  generalize BitVec.ofNat 8 (128 + n) = b at hk hm ⊢
  simp [tokenStep, hk, hm]

theorem tokenStep_longRun (lb : Nat) {n : Nat} (v : Byte) (out rest : List Byte) (hn : n < 32) :
    tokenStep lb out (BitVec.ofNat 8 (192 + n) :: v :: rest) = some (List.replicate ((n + 1) * 64) v ++ out, rest) := by
  obtain ⟨hk, -, hm, hb⟩ := control_fields (k := 3) (n := n) (by norm_num) (by omega)
  simp only [Nat.reduceMul, Nat.mod_eq_of_lt hn, decide_eq_false (Nat.not_le.mpr hn)] at hk hm hb
  rw [BitVec.getLsbD_eq_getElem (by norm_num)] at hb
  generalize BitVec.ofNat 8 (192 + n) = b at hk hm hb ⊢
  simp [tokenStep, hk, hm, hb]

theorem tokenStep_longUp (lb : Nat) {n : Nat} (out rest : List Byte) (hn : n < 32) :
    tokenStep lb out (BitVec.ofNat 8 (224 + n) :: rest) = some (copyUp lb ((n + 1) * 64) out, rest) := by
  obtain ⟨hk, -, hm, hb⟩ := control_fields (k := 3) (n := 32 + n) (by norm_num) (by omega)
  simp only [Nat.reduceMul, ← Nat.add_assoc, Nat.reduceAdd, Nat.add_mod_left, Nat.mod_eq_of_lt hn, Nat.le_add_right, decide_true] at hk hm hb
  generalize BitVec.ofNat 8 (224 + n) = b at hk hm hb ⊢
  simp [tokenStep, hk, hm, hb]

/-! ## Copies from the line above -/

/-- A copy adds at the end: what was put out before stays. -/
theorem copyUp_before (lb n : Nat) {i : Nat} (out : List Byte) (h : i < out.length) :
    (copyUp lb n out).reverse.getD i 0 = out.reverse.getD i 0 := by
  induction n generalizing out with
  | zero => rfl
  | succ n ih =>
    rw [copyUp, ih _ (by rw [List.length_cons]; omega), List.reverse_cons, List.getD_append _ _ _ _ (by simpa using h)]

/-- Each byte copied is the one LINE_BYTES before it, or 0 before the block's start (R118). -/
theorem copyUp_copied {lb n i : Nat} {out : List Byte} (hb : 0 < lb) (hi : out.length ≤ i) (hn : i < out.length + n) :
    (copyUp lb n out).reverse.getD i 0 = if i < lb then 0 else (copyUp lb n out).reverse.getD (i - lb) 0 := by
  induction n generalizing out with
  | zero => omega
  | succ n ih =>
    rw [copyUp]
    rcases Nat.eq_or_lt_of_le hi with h | h
    · have hcopy : (out.getD (lb - 1) 0 :: out).reverse.getD i 0 = out.getD (lb - 1) 0 := by
        rw [List.reverse_cons, ← h, List.getD_append_right _ _ _ _ (by simp)]
        simp
      rw [copyUp_before lb n _ (by simp [h]), hcopy]
      split
      · exact List.getD_eq_default _ _ (by omega)
      · rw [copyUp_before lb n _ (by simp; omega), List.reverse_cons, List.getD_append _ _ _ _ (by simp; omega),
          List.getD_eq_getElem _ _ (by omega), List.getD_eq_getElem _ _ (by simp; omega), List.getElem_reverse]
        congr 1
        omega
    · exact ih h (by rw [List.length_cons]; omega)

/-! ## A payload of LIT tokens -/

/-- The LIT token of 1 to 64 bytes (R118). -/
def litToken (c : List Byte) : List Byte := BitVec.ofNat 8 (c.length - 1) :: c

theorem decodeTokens_lits (lb : Nat) {chunks : List (List Byte)} (h : ∀ c ∈ chunks, 1 ≤ c.length ∧ c.length ≤ 64) {fuel : Nat}
    (hf : chunks.length ≤ fuel) (out : List Byte) :
    decodeTokens lb (out.length + chunks.flatten.length) fuel out (chunks.flatMap litToken) = some (out.reverse ++ chunks.flatten) := by
  induction chunks generalizing fuel out with
  | nil => cases fuel <;> simp [decodeTokens]
  | cons c cs ih =>
    obtain ⟨⟨hpos, hle⟩, hcs⟩ := List.forall_mem_cons.mp h
    obtain ⟨fuel, rfl⟩ : ∃ f, fuel = f + 1 := ⟨fuel - 1, by simp at hf; omega⟩
    have hstep : tokenStep lb out ((c :: cs).flatMap litToken) = some (c.reverse ++ out, cs.flatMap litToken) :=
      tokenStep_lit lb out _ (by omega) (by omega)
    have hrest := ih hcs (fuel := fuel) (by simpa using hf) (c.reverse ++ out)
    have hlen : (c.reverse ++ out).length + cs.flatten.length = out.length + (c :: cs).flatten.length := by
      simp
      omega
    have hmore : out.length < out.length + (c :: cs).flatten.length := by
      rw [List.flatten_cons, List.length_append]
      omega
    rw [hlen] at hrest
    rw [decodeTokens, if_neg (by omega), if_neg (by simp [litToken]), if_neg hmore.ne, hstep]
    simpa using hrest

theorem tokensDecode : Claims.TokensDecode := by
  refine ⟨fun lb n out data rest hn hl => tokenStep_lit lb out rest hn hl, fun lb n v out rest hn => tokenStep_run lb v out rest hn,
    fun lb n out rest hn => tokenStep_up lb out rest hn, fun lb n v out rest hn => tokenStep_longRun lb v out rest hn,
    fun lb n out rest hn => tokenStep_longUp lb out rest hn, fun lb n i out hb hi => ?copies, fun lb chunks h fuel hf => ?lits⟩
  case copies =>
    split
    next hlt => exact copyUp_before lb n out hlt
    next hge => exact copyUp_copied hb (Nat.not_lt.mp hge) hi
  case lits =>
    have hlits := decodeTokens_lits lb h hf []
    rwa [List.length_nil, Nat.zero_add] at hlits

/-! ## A STORED block -/

/-- Words read back from their bytes (R12). -/
theorem bytesToWords_wordBytes (pre : List Byte) (ws : List Word) (rest : List Byte) :
    bytesToWords (pre ++ (wordBytes ws ++ rest)) pre.length ws.length = ws := by
  induction ws generalizing pre with
  | nil => rfl
  | cons w ws ih =>
    have hword : w32 (le32 (pre ++ (wordBytes (w :: ws) ++ rest)) pre.length) = w := by
      have hb : wordBytes (w :: ws) ++ rest = bytesLE 4 w.toNat ++ (wordBytes ws ++ rest) := List.append_assoc ..
      rw [le32, leN_append, hb, leN_bytesLE, show w.toNat % 256 ^ 4 = w.toNat from Nat.mod_eq_of_lt w.isLt]
      exact BitVec.ofNat_toNat 32 w
    have hrest := ih (pre ++ bytesLE 4 w.toNat)
    rw [List.length_append, length_bytesLE, List.append_assoc, ← List.append_assoc (bytesLE 4 w.toNat)] at hrest
    rw [List.length_cons, bytesToWords, hword]
    exact congrArg (w :: ·) hrest

/-- A known format's lines are whole words (R108). -/
theorem lineBytes_known {fmt lb : Nat} (h : lineBytes fmt = some lb) : fmt < 16 ∧ lb % 4 = 0 ∧ 0 < lb ∧ maxBandLines fmt = min 64 (65536 / lb) := by
  refine ⟨?_, ?_, ?_, by simp [maxBandLines, h]⟩ <;>
  · unfold lineBytes at h
    split at h <;> simp at h <;> omega

/-- The fields of a block header's word 2 (R117). -/
theorem layout_fields {lines fmt module : Nat} (hl : lines < 128) (hf : fmt < 16) (hm : module < 16) {w : Word}
    (hw : w = w32 (lines + 256 * fmt + 65536 * module)) : fld w 0 7 = lines ∧ fld w 8 4 = fmt ∧ fld w 16 4 = module ∧ flag w 7 = false ∧
      fld w 12 4 = 0 ∧ fld w 20 12 = 0 := by
  have hn : w.toNat = lines + 256 * fmt + 65536 * module := by
    rw [hw]
    exact Nat.mod_eq_of_lt (by omega)
  simp only [fld, flag, bits, hn, Nat.shiftRight_eq_div_pow, Nat.testBit_eq_decide_div_mod_eq, decide_eq_false_iff_not]
  omega

theorem crc32_lt (bs : List Byte) : crc32 bs < 2 ^ 32 := Nat.xor_lt_two_pow (reflect_lt 32 _) (by norm_num)

theorem storedBlockDecodes : Claims.StoredBlockDecodes := by
  intro idx module fmt lines lb data hmod hfmt hpos hmax hlen
  obtain ⟨hf16, hmul, hlb, hband⟩ := lineBytes_known hfmt
  have h64 : lines ≤ 64 := by omega
  have hsize : data.length ≤ 65536 := by
    rw [hlen]
    exact (Nat.mul_le_mul_right lb (by omega)).trans (Nat.div_mul_le_self 65536 lb)
  have hge : 1 ≤ data.length := by
    rw [hlen]
    exact Nat.mul_pos hpos hlb
  have h4 : data.length % 4 = 0 := by rw [hlen, Nat.mul_mod, hmul, mul_zero, Nat.zero_mod]
  have hpad : 4 * ((data.length + 3) / 4) = data.length := by omega
  obtain ⟨hlines, hform, hmodule, hb7, hb12, hb20⟩ := layout_fields (lines := lines) (by omega) hf16 hmod rfl
  generalize hws : ([0x00015A54, idx, w32 (lines + 256 * fmt + 65536 * module), w32 data.length] : List Word) = ws
  generalize hcrc : bytesLE 4 (crc32 (bytesLE 4 idx.toNat ++ data)) = check
  have hchecklen : check.length = 4 := by rw [← hcrc, length_bytesLE]
  have hhead : (wordBytes ws).length = 16 := by rw [length_wordBytes, ← hws]; rfl
  have hwords : bytesToWords (wordBytes ws ++ data ++ check) 0 4 = ws := by
    have := bytesToWords_wordBytes [] ws (data ++ check)
    rw [List.append_assoc]
    rw [← hws] at this ⊢
    exact this
  have hpay : wn ws 3 = data.length := by rw [← hws]; exact Nat.mod_eq_of_lt (by omega)
  have hw0 : wd ws 0 = 0x00015A54 := by rw [← hws]; rfl
  have hw1 : wd ws 1 = idx := by rw [← hws]; rfl
  have hw2 : wd ws 2 = w32 (lines + 256 * fmt + 65536 * module) := by rw [← hws]; rfl
  have hpayload : ((wordBytes ws ++ data ++ check).drop 16).take data.length = data := by
    rw [List.append_assoc, List.drop_left' hhead, List.take_left' rfl]
  have hcheck : le32 (wordBytes ws ++ data ++ check) (16 + data.length) = crc32 (bytesLE 4 idx.toNat ++ data) := by
    rw [show 16 + data.length = (wordBytes ws ++ data).length by rw [List.length_append, hhead], le32, leN_append, ← hcrc,
      ← List.append_nil (bytesLE 4 _), leN_bytesLE]
    exact Nat.mod_eq_of_lt (crc32_lt _)
  unfold checkBlock
  simp only [hfmt, hwords, hpay, hpad, hw0, hw1, hw2, hlines, hform, hmodule, hb7, hb12, hb20, hpayload, hcheck, ← hlen]
  simp [fld, bits, hpos, h64, hge, hsize, hhead, hchecklen]
  omega

/-- Settles O20. -/
theorem blockDecoding : Obligations.BlockDecoding := ⟨storedBlockDecodes, tokensDecode⟩

end Sys2Proof.Machine
end

section
/-!
PROOFS. Blocks fetched, checked and decoded (R35, R121, R124, R134).
-/
namespace Sys2Proof.Machine

/-! ## At ingest -/

section
variable {r : Fin 4} {idx : Word} {j : Nat} {bytes : List Byte} {p : Page} {b : Blk} {s : State}

/-- After an FLR has stopped DMA nothing is stored (R35). -/
theorem blockFetchDone_off (h : s.host.busMaster = false) : execBlockFetchDone r idx j bytes s = .next s := by
  refine congrArg Host.Outcome.next ?_
  split
  · rfl
  · exact if_pos (.inr (.inr (by simp [h])))

variable (h : blkAt r idx j s = some (p, b)) (hbl : b.blank = false) (hst : b.st = .wanted) (hm : s.host.busMaster = true)
include h hbl hst hm

/-- A fetched block that passes is stored, and RING_STORED advances past what is whole (R121). -/
theorem blockFetchDone_passes (hc : (checkBlock b.idx (j % p.modules) p.format b.len bytes).isSome = true) :
    execBlockFetchDone r idx j bytes s =
      .next (advanceStored r s.pg.pages.length (setBlk p.uid j (fun b => { b with st := .good, data := bytes }) s)) := by
  obtain ⟨d, hd⟩ := Option.isSome_iff_exists.mp hc
  unfold execBlockFetchDone
  rw [h]
  dsimp only
  rw [if_neg (by simp [hbl, hst, hm]), hd]
  simp [setBlk, setPage]

theorem blockFetchDone_fails (hc : checkBlock b.idx (j % p.modules) p.format b.len bytes = none) :
    execBlockFetchDone r idx j bytes s = .next (ingestFail p j b s) := by
  unfold execBlockFetchDone
  rw [h]
  dsimp only
  rw [if_neg (by simp [hbl, hst, hm]), hc]

theorem dmaError_ingest : execDmaError r idx (some j) none s = .next (ingestFail p j b (stickRec .dmaError s)) := by
  unfold execDmaError
  dsimp only
  rw [h]
  exact congrArg _ (if_neg (by simp [hbl, hst, hm]))

end

/-! ## At print time -/

section
variable {u j : Nat} {p : Page} {b : Blk} {s : State} (h : printBlk u j s = some (p, b))
include h

theorem topazBlockDecoded_passes (hd : b.dec = .decoding) (hp : b.poison = false)
    (hc : (checkBlock b.idx (j % p.modules) p.format b.len b.data).isSome = true) :
    execTopazBlockDecoded u j false s = .next (setBlk u j (fun b => { b with dec := .released }) s) := by
  unfold execTopazBlockDecoded
  rw [h]
  exact congrArg _ ((if_neg (not_not.mpr hd)).trans (if_pos ⟨rfl, by rw [hp]; rfl, hc⟩))

/-- A stored block that does not decode: it is given up where it may not be fetched, or fetched once more (R124). -/
theorem topazBlockDecoded_fails {poisoned : Bool} (hd : b.dec = .decoding)
    (hf : poisoned = true ∨ b.poison = true ∨ checkBlock b.idx (j % p.modules) p.format b.len b.data = none) :
    execTopazBlockDecoded u j poisoned s = .next (if p.earlyFree ∨ !s.host.busMaster then blankBlock p j b s
      else readHost b.addr.toNat b.len (stickRec .blockRefetch (setPage u (fun p => { p with refetches := p.refetches + 1 })
        (setBlk u j (fun b => { b with dec := .refetching, poison := false }) s)))) := by
  have hn : ¬ ((!poisoned) = true ∧ (!b.poison) = true ∧ (checkBlock b.idx (j % p.modules) p.format b.len b.data).isSome = true) := by
    rintro ⟨h1, h2, h3⟩
    rcases hf with e | e | e <;> simp_all
  unfold execTopazBlockDecoded
  rw [h]
  exact congrArg _ ((if_neg (not_not.mpr hd)).trans (if_neg hn))

variable (hd : b.dec = .refetching)
include hd

theorem topazRefetchDone_passes {bytes : List Byte} (hc : (checkBlock b.idx (j % p.modules) p.format b.len bytes).isSome = true) :
    execTopazRefetchDone u j bytes s = .next (setBlk u j (fun b => { b with dec := .released, data := bytes }) s) := by
  unfold execTopazRefetchDone
  rw [h]
  exact congrArg _ ((if_neg (not_not.mpr hd)).trans (if_pos hc))

theorem topazRefetchDone_fails {bytes : List Byte} (hc : checkBlock b.idx (j % p.modules) p.format b.len bytes = none) :
    execTopazRefetchDone u j bytes s = .next (blankBlock p j b s) := by
  unfold execTopazRefetchDone
  rw [h]
  exact congrArg _ ((if_neg (not_not.mpr hd)).trans (if_neg (by simp [hc])))

theorem dmaError_print (r : Fin 4) (idx : Word) : execDmaError r idx (some j) (some u) s = .next (blankBlock p j b (stickRec .dmaError s)) := by
  unfold execDmaError
  dsimp only
  rw [h]
  exact congrArg _ (if_pos hd)

end

/-- Settles O19: at ingest by whether DMA runs and the block passes, at print time by the step of the block's decoding. -/
theorem blocksFetched : Obligations.BlocksFetched := by
  refine ⟨fun r idx j bytes p b s h hbl hst hm =>
      ⟨blockFetchDone_passes h hbl hst hm, blockFetchDone_fails h hbl hst hm, dmaError_ingest h hbl hst hm⟩,
    fun r idx j bytes s => blockFetchDone_off, fun p j b s h => if_pos h, fun p j b s h => ⟨_, if_neg (Nat.not_lt.mpr h)⟩,
    fun u j p b s h hd => ⟨fun hc hp => topazBlockDecoded_passes h hd hp hc, fun poisoned hf => ⟨fun hn => ?_, fun he hm => ?_⟩⟩,
    fun u j bytes p b s h hd => ⟨topazRefetchDone_passes h hd, topazRefetchDone_fails h hd, dmaError_print h hd⟩⟩
  · exact (topazBlockDecoded_fails h hd hf).trans (congrArg _ (if_pos (by simpa using hn)))
  · exact (topazBlockDecoded_fails h hd hf).trans (congrArg _ (if_neg (by simp [he, hm])))

end Sys2Proof.Machine
end

section
/-!
PROOFS. The records of pages that are discarded, and the page commands (R114, R125 to R130, R135).
-/
namespace Sys2Proof.Machine

/-! ## Records and discarded pages -/

theorem sendVec_onlyChanges (v : Nat) (s : State) : OnlyChanges [.host, .out] s (sendVec v s) := by
  have e : sendVec v s = { s with host := (s.log.send v).host, out := (s.log.send v).out } := by
    simp [sendVec, State.withLog, State.log]
  rw [e]
  exact onlyChanges_host_out s _ _

/-- A record writes of the state what its ring counts, the pages held and a message. -/
theorem writeRecord_frame (p : Page) (s : State) : OnlyChanges [.host, .pg, .out] s (writeRecord p s) := by
  unfold writeRecord
  extract_lets _ _ _ irq s1 s2 pages _ s3
  have h1 : OnlyChanges [.host, .pg, .out] s s1 := (emit_onlyChanges _ s).mono (by decide)
  have h3 : OnlyChanges [.host, .pg, .out] s1 s3 := (onlyChanges_pg s1 s3.pg).mono (by decide)
  split
  · exact (h1.trans h3).trans ((sendVec_onlyChanges 4 s3).mono (by decide))
  · exact h1.trans h3

/-- What becomes of a page as the record of `p` is written in an epoch: one that is not kept leaves the page store (R125, R126). -/
def afterRecord (p : Page) (epoch : Word) (x : Page) : Option Page :=
  if x.uid = p.uid then
    (if p.keeps then some { (if p.epoch = epoch then x else x.withoutSpace) with recorded := true, retained := true } else none)
  else some x

theorem writeRecord_pages (p : Page) (s : State) : (writeRecord p s).pg.pages = s.pg.pages.filterMap (afterRecord p s.cg.epochNow) := by
  unfold writeRecord
  dsimp only
  split <;> rfl

theorem writeRecord_rings (p : Page) (s : State) : (writeRecord p s).pg.rings.length = s.pg.rings.length := by
  unfold writeRecord
  dsimp only
  split <;> exact length_upd _ _ _

/-- A page held after a record was held before, but where it is one recorded. -/
theorem mem_writeRecord {p x : Page} {s : State} (h : x ∈ (writeRecord p s).pg.pages) : x.recorded = true ∨ x ∈ s.pg.pages := by
  rw [writeRecord_pages, List.mem_filterMap] at h
  obtain ⟨y, hy, hx⟩ := h
  unfold afterRecord at hx
  split at hx
  · split at hx
    · injection hx with hx
      exact .inl (hx ▸ rfl)
    · cases hx
  · injection hx with hx
    exact .inr (hx ▸ hy)

/-- What the writing of every record that is due keeps. -/
structure Recorded (s t : State) : Prop where
  /-- It writes the host interface, the pages part and the outputs. -/
  frame : OnlyChanges [.host, .pg, .out] s t
  /-- The rings stay four. -/
  rings : t.pg.rings.length = s.pg.rings.length
  /-- A page held that is not recorded was held before. -/
  pages : ∀ x ∈ t.pg.pages, x.recorded = true ∨ x ∈ s.pg.pages

theorem writeRecords_recorded (fuel : Nat) (s : State) : Recorded s (writeRecords fuel s) := by
  induction fuel generalizing s with
  | zero => exact ⟨.refl _ s, rfl, fun _ => .inr⟩
  | succ fuel ih =>
    unfold writeRecords
    split
    · exact ⟨.refl _ s, rfl, fun _ => .inr⟩
    · split
      · exact ⟨.refl _ s, rfl, fun _ => .inr⟩
      next p _ =>
        obtain ⟨hframe, hrings, hpages⟩ := ih (writeRecord p s)
        exact ⟨(writeRecord_frame p s).trans hframe, hrings.trans (writeRecord_rings p s), fun x hx => (hpages x hx).elim .inl mem_writeRecord⟩

theorem recordsDue_recorded (s : State) : Recorded s (recordsDue s) := by
  obtain ⟨hframe, hrings, hpages⟩ := writeRecords_recorded s.pg.pages.length s
  have hpg := answerResets_pg (writeRecords s.pg.pages.length s)
  exact ⟨hframe.trans (answerResets_onlyChanges _), (congrArg (·.rings.length) hpg).trans hrings,
    fun x hx => hpages x (by rwa [recordsDue, hpg] at hx)⟩

/-- A page that is not printed: it counts as fired and reported, and waits for its record (R129, R135). -/
def Page.discarded (p : Page) : Page := { p with notPrinted := true, fired := true, inspBy := 15 }

/-- What a discard leaves of the pages of ring r and of the others: each is recorded, or stood there before and is discarded now where it is one of
the ring's that had not started. -/
theorem mem_discardPages {r : Nat} {x : Page} {s : State} (h : x ∈ (discardPages (fun p => p.ring == r) s).pg.pages) :
    x.recorded = true ∨ ∃ y ∈ s.pg.pages, if y.ring = r ∧ y.started = false ∧ y.recorded = false then x = y.discarded else x = y := by
  refine ((recordsDue_recorded _).pages x h).imp_right fun h => ?_
  obtain ⟨y, hy, rfl⟩ := List.mem_map.mp h
  refine ⟨y, hy, ?_⟩
  simp only [Bool.and_eq_true, beq_iff_eq, Bool.not_eq_true', and_assoc]
  split <;> rfl

theorem discardPages_onlyChanges (which : Page → Bool) (s : State) : OnlyChanges [.host, .pg, .out] s (discardPages which s) :=
  ((onlyChanges_pg s _).mono (by decide)).trans (recordsDue_recorded _).frame

/-! ## PD_RING_CONFIG -/

section
variable {k : Fin 16} {c : RungCmd} {s : State}

/-- A ring as PD_RING_CONFIG leaves it (R135). -/
def Ring.configured (c : RungCmd) (g : Ring) : Ring := { g with
  prod := 0, fetch := 0, stored := 0, done := 0, enabled := flag (c.w 0) 8, descBase := c.w 2 ++ c.w 1, sizeLog2 := (c.w 3).toNat
  recordBase := c.w 5 ++ c.w 4, irqCount := (c.w 6).toNat, sinceIrq := 0, waitSpace := false }

theorem pdRingConfig_answers (h : Rung 0x0300 7 k c s) {r : Nat} (hr : r = fld (c.w 0) 0 2) (h0 : c.w 0 &&& ~~~ 0x103 = 0)
    (h1 : (c.w 1).toNat % 4096 = 0) (h4 : (c.w 4).toNat % 4096 = 0) (hlo : 4 ≤ (c.w 3).toNat) (hhi : (c.w 3).toNat ≤ 12)
    (h6 : (c.w 6).toNat < 256) (hf : (s.pg.ring r).inForce = false) (hd : (s.pg.ring r).fetch = (s.pg.ring r).done) :
    execPdRingConfig k s = .next (respond k ok (setRing r (Ring.configured c) (dropFetch r (begun k s)))) := by
  have hnum : fld (wd c.payload 0) 0 2 = r := hr.symm
  have hsize : fld (wd c.payload 3) 0 4 = (c.w 3).toNat := fld_of_lt (n := 4) (w := c.w 3) (by omega)
  have hcount : fld (wd c.payload 6) 0 8 = (c.w 6).toNat := fld_of_lt (n := 8) h6
  have hdesc : (wn c.payload 1 % 4096 != 0) = false := by simpa [wn, RungCmd.w] using h1
  have hrec : (wn c.payload 4 % 4096 != 0) = false := by simpa [wn, RungCmd.w] using h4
  have hrange : decide ((c.w 3).toNat < 4 ∨ (c.w 3).toNat > 12) = false := decide_eq_false (by omega)
  have hsizeBits : (reservedW c.payload 3 0xF).1 = false := reservedW_passes (reserved_clear (n := 4) (w := c.w 3) (by omega))
  have hcountBits : (reservedW c.payload 6 0xFF).1 = false := reservedW_passes (reserved_clear (n := 8) h6)
  have hidle : ((s.pg.ring r).inForce || (s.pg.ring r).fetch != (s.pg.ring r).done) = false := by simp [hf, hd]
  refine congrArg Host.Outcome.next (command_done h ?_ ?_)
  · simp only [passes_cons, passes_nil, hnum, hsize, hdesc, hrec, hrange, hidle, hsizeBits, hcountBits, reservedW_passes (i := 0) h0,
      and_self]
  · dsimp only
    rw [hnum, hsize, hcount, wn64_append, wn64_append]
    rfl

/-! ## PD_RING_RESET -/

/-- A ring as PD_RING_RESET leaves it: no halt, and RING_STORED up to RING_FETCH (R114, R135; log 15). -/
def Ring.resumed (g : Ring) : Ring := { g with halted := false, haltReason := 0, stopped := false, waitSpace := false, stored := g.fetch }

/-- PD_RING_RESET of ring r: its pages that have not started are discarded, the halt ends, and fetching goes on (R114, R129, R135). -/
def ringReset (r : Nat) (s : State) : State := fetchNext r (setRing r Ring.resumed (dropFetch r (discardPages (fun p => p.ring == r) s)))

theorem ringReset_onlyChanges (r : Nat) (s : State) : OnlyChanges [.host, .pg, .out] s (ringReset r s) :=
  (((discardPages_onlyChanges _ s).trans ((dropFetch_onlyChanges r _).mono (by decide))).trans ((setRing_onlyChanges r _ _).mono (by decide))).trans
    ((fetchNext_onlyChanges r _).mono (by decide))

/-- Of the pages part, what follows the discard changes the ring and the descriptors asked for. -/
theorem ringReset_pg (r : Nat) (s : State) :
    ∃ l, (ringReset r s).pg = { (setRing r Ring.resumed (discardPages (fun p => p.ring == r) s)).pg with descReq := l } := by
  obtain ⟨l, h⟩ := fetchNext_pg r (setRing r Ring.resumed (dropFetch r (discardPages (fun p => p.ring == r) s)))
  exact ⟨l, h⟩

theorem ringReset_pages (r : Nat) (s : State) : (ringReset r s).pg.pages = (discardPages (fun p => p.ring == r) s).pg.pages := by
  obtain ⟨l, h⟩ := ringReset_pg r s
  rw [h]
  rfl

theorem ringReset_runs {r : Nat} {s : State} (hr : r < s.pg.rings.length) :
    ((ringReset r s).pg.ring r).halted = false ∧ ((ringReset r s).pg.ring r).haltReason = 0 := by
  obtain ⟨l, h⟩ := ringReset_pg r s
  have hlen : r < (discardPages (fun p => p.ring == r) s).pg.rings.length := (recordsDue_recorded _).rings.symm ▸ hr
  have hring : (ringReset r s).pg.ring r = Ring.resumed _ := (congrArg (Pages.ring · r) h).trans (ring_setRing_same hlen)
  rw [hring]
  exact ⟨rfl, rfl⟩

/-- No page of the ring is left to start. -/
theorem ringReset_discards {r : Nat} {s : State} {p : Page} (h : p ∈ (ringReset r s).pg.pages) (hr : p.ring = r) :
    p.started = true ∨ p.notPrinted = true ∨ p.recorded = true := by
  rw [ringReset_pages] at h
  rcases mem_discardPages h with h | ⟨y, -, h⟩
  · exact .inr (.inr h)
  · split at h
    next => exact .inr (.inl (h ▸ rfl))
    next hn =>
      subst h
      by_contra hc
      simp only [not_or, Bool.not_eq_true] at hc
      exact hn ⟨hr, hc.1, hc.2.2⟩

/-- Where every page of the ring has its record, none waits for one. -/
theorem ringReset_settled {r : Nat} {s : State} (h : ∀ p ∈ s.pg.pages, p.ring = r → p.recorded = true) : discarding r (ringReset r s) = false := by
  refine List.any_eq_false.mpr fun x hx => ?_
  rw [ringReset_pages] at hx
  rcases mem_discardPages hx with h' | ⟨y, hy, h'⟩
  · simp [h']
  · split at h'
    next hc => exact absurd (h y hy hc.1) (by simp [hc.2.2])
    next =>
      subst h'
      by_cases hr : x.ring = r
      · simp [h x hy hr]
      · simp [hr]

theorem ringReset_checks (hw : (c.w 0).toNat < 4) (hp : pageInProgress (c.w 0).toNat s = false) :
    Passes [reservedW c.payload 0 3, (pageInProgress (fld (wd c.payload 0) 0 2) s, busy)] := by
  have hnum : fld (wd c.payload 0) 0 2 = (c.w 0).toNat := fld_of_lt (n := 2) hw
  simp only [passes_cons, passes_nil, hnum, hp, reservedW_passes (groupMask (w := wd c.payload 0) rfl hw), and_self]

section
variable (h : Rung 0x0301 1 k c s) (hw : (c.w 0).toNat < 4) (hp : pageInProgress (c.w 0).toNat s = false)
include h hw hp

theorem pdRingReset_answers (hd : discarding (c.w 0).toNat (ringReset (c.w 0).toNat (begun k s)) = false) :
    execPdRingReset k s = .next (respond k ok (ringReset (c.w 0).toNat (begun k s))) := by
  have hnum : fld (wd c.payload 0) 0 2 = (c.w 0).toNat := fld_of_lt (n := 2) hw
  refine congrArg Host.Outcome.next (command_done h (ringReset_checks hw hp) ?_)
  dsimp only
  rw [hnum]
  exact if_neg (Bool.eq_false_iff.mp hd)

theorem pdRingReset_waits (hd : discarding (c.w 0).toNat (ringReset (c.w 0).toNat (begun k s)) = true) :
    execPdRingReset k s = .next { ringReset (c.w 0).toNat (begun k s) with pg := { (ringReset (c.w 0).toNat (begun k s)).pg with
      resets := (ringReset (c.w 0).toNat (begun k s)).pg.resets ++ [(k.val, (c.w 0).toNat)] } } := by
  have hnum : fld (wd c.payload 0) 0 2 = (c.w 0).toNat := fld_of_lt (n := 2) hw
  refine congrArg Host.Outcome.next (command_later h (ringReset_checks hw hp) ?_)
  dsimp only
  rw [hnum]
  exact if_pos hd

end

/-! ## PD_PAGE_RELEASE -/

theorem pdPageRelease_answers {p : Page} (h : Rung 0x0302 3 k c s) (hw : (c.w 0).toNat < 4)
    (hp : retainedPage (c.w 0).toNat (c.w 1) (c.w 2) s = some p) : execPdPageRelease k s =
      .next (respond k ok { begun k s with pg := { s.pg with pages := s.pg.pages.filter fun x => x.uid != p.uid } }) := by
  have hnum : fld (wd c.payload 0) 0 2 = (c.w 0).toNat := fld_of_lt (n := 2) hw
  have hp0 : retainedPage (c.w 0).toNat (wd c.payload 1) (wd c.payload 2) s = some p := hp
  have hp1 : retainedPage (c.w 0).toNat (wd c.payload 1) (wd c.payload 2) (begun k s) = some p := hp
  refine congrArg Host.Outcome.next (command_done h ?_ ?_)
  · simp only [passes_cons, passes_nil, hnum, hp0, Option.isNone_some, reservedW_passes (groupMask (w := wd c.payload 0) rfl hw), and_self]
  · dsimp only
    rw [hnum, hp1]
    rfl

theorem pdPageRelease_absent (h : Rung 0x0302 3 k c s) (hw : (c.w 0).toNat < 4)
    (hp : retainedPage (c.w 0).toNat (c.w 1) (c.w 2) s = none) : execPdPageRelease k s = .next (respond k (badParam 1) (begun k s)) := by
  have hnum : fld (wd c.payload 0) 0 2 = (c.w 0).toNat := fld_of_lt (n := 2) hw
  have hp0 : retainedPage (c.w 0).toNat (wd c.payload 1) (wd c.payload 2) s = none := hp
  refine congrArg Host.Outcome.next (command_refused h ?_)
  simp only [pick_passed (reservedW_passes (groupMask (w := wd c.payload 0) rfl hw)), hnum, hp0, Option.isNone_none, pick_failed]

/-! ## PD_REPRINT -/

/-- The reprint of a page, to stand before the page of a number (R127). -/
def Page.again (r : Nat) (before : Word) (uid : Nat) (p : Page) : Page :=
  { uid := uid, ring := r, descIdx := p.descIdx, desc := p.desc, lines := p.pageLines, before := some before
    blocks := p.blocks.map fun b => { b with dec := .idle, counted := false }, reprint := true }

theorem pdReprint_answers {p : Page} (h : Rung 0x0303 3 k c s) (hw : (c.w 0).toNat < 4)
    (hp : s.pg.pages.find? (fun p => p.retained && p.ring == (c.w 0).toNat && p.number == c.w 1 && p.epoch == s.cg.epochNow) = some p)
    (hq : ∃ q ∈ s.pg.pages, q.ring = (c.w 0).toNat ∧ q.number = c.w 2 ∧ q.reprint = false ∧ q.started = false ∧ q.recorded = false)
    (hs : s.pg.used + p.size ≤ s.pg.capacity) : execPdReprint k s =
      .next (respond k ok { begun k s with pg := { s.pg with
        pages := insertBefore (p.again (c.w 0).toNat (c.w 2) s.pg.nextUid) (c.w 2) s.pg.pages, nextUid := s.pg.nextUid + 1 } }) := by
  have hnum : fld (wd c.payload 0) 0 2 = (c.w 0).toNat := fld_of_lt (n := 2) hw
  have hcur : (s.pg.pages.filter fun p => p.retained && p.ring == (c.w 0).toNat && p.number == wd c.payload 1).find?
      (fun p => p.epoch == s.cg.epochNow) = some p := by
    simp only [List.find?_filter, Bool.decide_and, Bool.decide_eq_true]
    exact hp
  have hkept : (s.pg.pages.filter fun p => p.retained && p.ring == (c.w 0).toNat && p.number == wd c.payload 1).isEmpty = false :=
    List.isEmpty_eq_false_iff_exists_mem.mpr ⟨p, List.mem_of_find?_eq_some hcur⟩
  obtain ⟨q, hmem, hring, hno, hre, hst, hrec⟩ := hq
  have hbefore : q ∈ s.pg.pages.filter fun p => p.ring == (c.w 0).toNat && p.number == wd c.payload 2 && !p.reprint :=
    List.mem_filter.mpr ⟨hmem, by simp [hring, hre, show q.number = wd c.payload 2 from hno]⟩
  have hopen : (s.pg.pages.filter fun p => p.ring == (c.w 0).toNat && p.number == wd c.payload 2 && !p.reprint).any
      (fun p => !p.started && !p.recorded) = true := List.any_eq_true.mpr ⟨q, hbefore, by simp [hst, hrec]⟩
  have hsome : (s.pg.pages.filter fun p => p.ring == (c.w 0).toNat && p.number == wd c.payload 2 && !p.reprint).isEmpty = false :=
    List.isEmpty_eq_false_iff_exists_mem.mpr ⟨q, hbefore⟩
  have hroom : decide (s.pg.used + ((some p).map Page.size).getD 0 > s.pg.capacity) = false := decide_eq_false (Nat.not_lt.mpr hs)
  have hp1 : (begun k s).pg.pages.find? (fun p => p.retained && p.ring == (c.w 0).toNat && p.number == wd c.payload 1 &&
      p.epoch == (begun k s).cg.epochNow) = some p := hp
  refine congrArg Host.Outcome.next (command_done h ?_ ?_)
  · simp only [passes_cons, passes_nil, hnum, hkept, hcur, hopen, hsome, hroom, reservedW_passes (groupMask (w := wd c.payload 0) rfl hw),
      Option.isNone_some, Bool.not_true, Bool.false_and, Bool.and_false, Bool.not_false, and_self]
  · dsimp only
    rw [hnum, hp1]
    rfl

end

/-! ## The commands -/

/-- Settles O21: each command by its checks and its effect, PD_RING_RESET by what `ringReset` leaves of the ring's pages. -/
theorem pageCommands : Obligations.PageCommands := by
  refine ⟨fun k c s h r hr h0 h1 h4 hlo hhi h6 hf hd hl => ?config, fun k c s h hw hp hl => ?reset,
    fun k c s p h hw hp => pdPageRelease_answers h hw hp, fun k c s h hw hp => pdPageRelease_absent h hw hp,
    fun k c s p h hw hp hq hs => ⟨_, _, pdReprint_answers h hw hp hq hs, onlyChanges_pg (begun k s) _, rfl, rfl, rfl, rfl, rfl, rfl, rfl⟩,
    fun k c s h => congrArg _ (command_done h passes_nil rfl)⟩
  case config =>
    have hlt : r < s.pg.rings.length := by
      rw [hl, hr]
      exact Nat.mod_lt _ (by norm_num)
    exact ⟨_, pdRingConfig_answers h hr h0 h1 h4 hlo hhi h6 hf hd, (dropFetch_onlyChanges r _).trans (setRing_onlyChanges r _ _),
      fun q hq => ring_setRing_other _ _ hq, ring_setRing_same (s := dropFetch r (begun k s)) hlt⟩
  case reset =>
    have hrun := ringReset_runs (s := begun k s) (hl.symm ▸ hw : (c.w 0).toNat < s.pg.rings.length)
    exact ⟨_, ringReset_onlyChanges _ _, hrun.1, hrun.2, fun p hp hr => ringReset_discards hp hr, pdRingReset_answers h hw hp,
      pdRingReset_waits h hw hp, fun hrec => ringReset_settled hrec⟩

end Sys2Proof.Machine
end

section
/-!
PROOFS. The named CRCs and the check-value contexts (R131 to R133, R135).
-/
namespace Sys2Proof.Machine

/-! ## The named CRCs -/

/-- Settles O22: the parameter sets are those of the definitions, and each result is computed. -/
theorem checkValues : Obligations.CheckValues := ⟨fun _ => ⟨rfl, rfl, rfl⟩, by decide +kernel, by decide +kernel, by decide +kernel⟩

/-! ## Register values stay within the width -/

theorem crcBit_lt {width poly : Nat} (hp : poly < 2 ^ width) (reg : Nat) (b : Bool) : crcBit width poly reg b < 2 ^ width := by
  have hr : reg * 2 % 2 ^ width < 2 ^ width := Nat.mod_lt _ (Nat.two_pow_pos width)
  unfold crcBit
  dsimp only
  split
  · exact Nat.xor_lt_two_pow hr hp
  · exact hr

theorem crcByte_lt {width poly : Nat} (hp : poly < 2 ^ width) (refin : Bool) {reg : Nat} (hr : reg < 2 ^ width) (b : Byte) :
    crcByte width poly refin reg b < 2 ^ width :=
  List.foldlRecOn (motive := (· < 2 ^ width)) _ _ hr fun r _ x _ => crcBit_lt hp r x

namespace CvCtx
variable (c : CvCtx)

/-- The running register after bytes have been fed (R132). -/
def run (bs : List Byte) : Nat := bs.foldl (crcByte c.width (c.narrow c.poly.toNat) c.refin) (c.narrow c.value.toNat)

theorem feed_eq (bs : List Byte) : c.feed bs = { c with value := BitVec.ofNat 64 (c.run bs), count := c.count + w32 bs.length } := rfl

theorem narrow_lt (x : Nat) : c.narrow x < 2 ^ c.width := Nat.mod_lt _ (Nat.two_pow_pos c.width)

theorem run_lt (bs : List Byte) : c.run bs < 2 ^ c.width :=
  List.foldlRecOn (motive := (· < 2 ^ c.width)) _ _ (c.narrow_lt _) fun _ hr b _ => crcByte_lt (c.narrow_lt _) c.refin hr b

/-- What is fed is kept whole in VALUE. -/
theorem narrow_run (hw : c.width ≤ 64) (bs : List Byte) : c.narrow (BitVec.ofNat 64 (c.run bs)).toNat = c.run bs := by
  have h := c.run_lt bs
  rw [BitVec.toNat_ofNat, Nat.mod_eq_of_lt (h.trans_le (Nat.pow_le_pow_right (by norm_num) hw))]
  exact Nat.mod_eq_of_lt h

theorem feed_feed (hw : c.width ≤ 64) (a b : List Byte) : (c.feed a).feed b = c.feed (a ++ b) := by
  have hrun : (c.feed a).run b = c.run (a ++ b) := by
    rw [run, run, List.foldl_append]
    exact congrArg (b.foldl _) (c.narrow_run hw a)
  have hcount : c.count + w32 a.length + w32 b.length = c.count + w32 (a ++ b).length := by
    rw [List.length_append, w32, w32, w32, BitVec.ofNat_add, BitVec.add_assoc]
  rw [feed_eq (c.feed a), hrun, c.feed_eq (a ++ b), ← hcount]
  rfl

/-- CV_RESULT of an enabled context is the CRC under its parameters, from the register's value (R131, R132). -/
theorem result_feed (hw : c.width ≤ 64) (hd : c.disabled = false) (bs : List Byte) : (c.feed bs).result =
    crc c.width (c.narrow c.poly.toNat) (c.narrow c.value.toNat) c.refin c.refout (c.narrow c.xorout.toNat) bs := by
  have hr : (c.feed bs).narrow (c.feed bs).value.toNat = c.run bs := c.narrow_run hw bs
  unfold result
  rw [if_neg (by rw [show (c.feed bs).disabled = c.disabled from rfl, hd]; decide), hr]
  rfl

/-- A context as a start leaves it before the tag: VALUE holds INIT, and nothing has been counted (R132). -/
def restarted : CvCtx := { c with value := BitVec.ofNat 64 (c.narrow c.init.toNat), count := 0 }

theorem start_eq : c.start = c.restarted.feed (bytesLE (min 8 c.tagBytes) c.tag.toNat) := rfl

theorem start_feed (hw : c.width ≤ 64) (bs : List Byte) : c.start.feed bs = c.restarted.feed (bytesLE (min 8 c.tagBytes) c.tag.toNat ++ bs) := by
  rw [start_eq, feed_feed c.restarted hw]

end CvCtx

theorem contextsCompute : Claims.ContextsCompute := by
  have hw : 32 ≤ 64 := by norm_num
  refine ⟨fun c a b hw => c.feed_feed hw a b, fun bs => ?_, fun idx bs => ?_, fun c h => by rw [CvCtx.result, if_pos h]⟩
  · rw [CvCtx.start_feed _ hw, CvCtx.result_feed _ hw rfl]
    rfl
  · have ht : (idx.setWidth 64).toNat = idx.toNat := BitVec.toNat_setWidth_of_le (by norm_num)
    rw [CvCtx.start_feed _ hw, CvCtx.result_feed _ hw rfl, ← ht]
    rfl

/-! ## Writes -/

section
variable {k : Nat} (f : CvCtx → CvCtx) {s : State}

theorem cvWrite_enabled (hb : (s.pg.ctx k).busy = none) (hd : (s.pg.ctx k).disabled = false) : cvWrite k true f s = setCtx k f s := by
  simp [cvWrite, hb, hd]

theorem cvWrite_disabled (hb : (s.pg.ctx k).busy = none) (hd : (s.pg.ctx k).disabled = true) : cvWrite k true f s = s := by
  simp [cvWrite, hb, hd]

theorem cvWrite_busy (data : Bool) (hb : (s.pg.ctx k).busy.isSome = true) : cvWrite k data f s = stickRec .cvConflict s := if_pos hb

end

/-! ## CV_COMPUTE -/

section
variable {k : Fin 16} {c : RungCmd} {s : State}

/-- The state in which a CV_COMPUTE has been accepted and its bytes asked for (R132, R135). -/
def computing (k : Fin 16) (c : RungCmd) (s : State) : State :=
  readHost (wn64 c.payload 1) (c.w 3).toNat (outstand 0x0305 c.tag (c.w 0).toNat (setCtx (c.w 0).toNat (fun x => { x with
    busy := some (c.tag, c.w 2 ++ c.w 1, c.w 3), stopped := false }) (begun k s)))

theorem cvCompute_answers (h : Rung 0x0305 4 k c s) (hw : (c.w 0).toNat < 4) (hd : (s.pg.ctx (c.w 0).toNat).disabled = false)
    (hb : (s.pg.ctx (c.w 0).toNat).busy = none) (hn : c.w 3 ≠ 0) (ho : s.host.outst.length < 16) :
    execCvCompute k s = .next (respond k accepted (computing k c s)) := by
  have hnum : fld (wd c.payload 0) 0 2 = (c.w 0).toNat := fld_of_lt (n := 2) hw
  have hlen : (wd c.payload 3 == 0) = false := beq_false_of_ne hn
  refine congrArg Host.Outcome.next (command_done h ?_ ?_)
  · simp only [passes_cons, passes_nil, hnum, hd, hb, hlen, Option.isSome_none, completionsFull_passes ho,
      reservedW_passes (groupMask (w := wd c.payload 0) rfl hw), and_self]
  · dsimp only
    rw [hnum, wn64_append]
    rfl

theorem computing_onlyChanges : OnlyChanges [.host, .pg, .out] (begun k s) (computing k c s) :=
  (((onlyChanges_pg (begun k s) _).mono (by decide)).trans ((outstand_onlyChanges _ _ _ _).mono (by decide))).trans
    ((readHost_onlyChanges _ _ _).mono (by decide))

end

section
variable {k : Fin 4} {bytes : List Byte} {tag : Word} {a : Dword} {n : Word} {s : State} (hb : (s.pg.ctx k).busy = some (tag, a, n))
include hb

theorem cvComputeDone_whole (hs : (s.pg.ctx k).stopped = false) (hl : bytes.length = n.toNat) {u : CvCtx}
    (hu : u = { (s.pg.ctx k).feed bytes with busy := none, stopped := false }) :
    execCvComputeDone k bytes s = .next (complete 0x0305 tag 0 (w32 u.result) (w32 (u.result >>> 32)) 0 (setCtx k (fun _ => u) s)) := by
  unfold execCvComputeDone
  simp [hb, hs, hl, hu]

theorem cvComputeDone_stopped (hs : (s.pg.ctx k).stopped = true) (hl : bytes.length ≤ n.toNat) {u : CvCtx}
    (hu : u = { (s.pg.ctx k).feed bytes with busy := none, stopped := false }) :
    execCvComputeDone k bytes s = .next (complete 0x0305 tag 0x30 (w32 bytes.length) 0 0 (setCtx k (fun _ => u) s)) := by
  unfold execCvComputeDone
  simp [hb, hs, hl, hu]

end

theorem contextWrites : Claims.ContextWrites := by
  refine ⟨fun k s hb hd => ?enabled, fun k s hb hd => ?disabled, fun k s hb => ?busy,
    fun k c s h hw hd hb hn ho => ⟨_, cvCompute_answers h hw hd hb hn ho, computing_onlyChanges, rfl, rfl⟩,
    fun k bytes tag a n u s hb hu => ⟨fun hs hl => cvComputeDone_whole hb hs hl hu, fun hs hl => cvComputeDone_stopped hb hs hl hu⟩⟩
  case enabled =>
    have hwrite : ∀ f, Host.Outcome.next (cvWrite k true f s) = (.next (setCtx k f s) : Host.Outcome State Fault Refusal) :=
      fun f => congrArg _ (cvWrite_enabled f hb hd)
    refine ⟨hwrite _, fun v => hwrite _, fun lo up hlo => ?_, fun v => hwrite _, fun v => hwrite _⟩
    refine (hwrite fun c => c.feed (bytesLE 4 ((find? s.host.woLow (cvOffset k 0x48)).getD 0).toNat ++ bytesLE 4 up.toNat)).trans ?_
    rw [hlo]
    rfl
  case disabled =>
    have hwrite : ∀ f, Host.Outcome.next (cvWrite k true f s) = (.next s : Host.Outcome State Fault Refusal) :=
      fun f => congrArg _ (cvWrite_disabled f hb hd)
    exact ⟨hwrite _, fun v => hwrite _, fun v => hwrite _, fun v => hwrite _, fun v => hwrite _⟩
  case busy =>
    have hwrite : ∀ f, Host.Outcome.next (cvWrite k true f s) = (.next (stickRec .cvConflict s) : Host.Outcome State Fault Refusal) :=
      fun f => congrArg _ (cvWrite_busy f true hb)
    exact ⟨hwrite _, fun v => hwrite _, fun v => hwrite _, fun v => hwrite _, fun v => hwrite _⟩

/-- Settles O23: a write by the context's state, and what it computes by feeding in parts. -/
theorem checkValueContexts : Obligations.CheckValueContexts := ⟨contextWrites, contextsCompute⟩

end Sys2Proof.Machine
end

section
/-!
PROOFS. Tone expansion, tone curves and screening (R141, R144, R145, R148, R152, R153).
-/
namespace Sys2Proof.Machine

/-! ## Expansion -/

theorem expandTone_mono (w : Bool) {a b : Nat} (h : a ≤ b) : expandTone w a ≤ expandTone w b := by
  have scaled (c d : Nat) : (a * 131072 + c) / d ≤ (b * 131072 + c) / d := by gcongr
  cases w
  · exact scaled 127 255
  · exact scaled 32767 65535

/-! ## Tone curves -/

/-- Below the last knot the output is the segment's lower knot and the rounded part of its rise (R145). -/
theorem curve_of_lt (K : Nat → Nat) {t : Nat} (h : t < 0x20000) :
    curve K t = ((K (t / 8192) : Int) + (((K (t / 8192 + 1) : Int) - K (t / 8192)) * (t % 8192 : Nat) + 4096) / 8192).toNat :=
  if_neg (by omega)

theorem curve_knot (K : Nat → Nat) {j : Nat} (h : j ≤ 16) : curve K (8192 * j) = K j := by
  obtain rfl | hj : j = 16 ∨ j < 16 := by omega
  · rfl
  · rw [curve_of_lt K (by omega), Nat.mul_div_cancel_left j (by norm_num), Nat.mul_mod_right]
    simp

/-- The rounded part of a rise lies between nothing and the whole of it. -/
theorem risePart_between (d : Int) {f : Nat} (h : f < 8192) : min 0 d ≤ (d * f + 4096) / 8192 ∧ (d * f + 4096) / 8192 ≤ max 0 d := by
  have hf : (f : Int) ≤ 8192 := by omega
  obtain hd | hd := le_total 0 d
  · have hlow : 0 ≤ d * f := by positivity
    have hhigh : d * f ≤ d * 8192 := by gcongr
    omega
  · have hlow : d * 8192 ≤ d * f := mul_le_mul_of_nonpos_left hf hd
    have hhigh : d * f ≤ 0 := mul_nonpos_of_nonpos_of_nonneg hd (by positivity)
    omega

theorem curve_between (K : Nat → Nat) {t : Nat} (h : t < 0x20000) :
    min (K (t / 8192)) (K (t / 8192 + 1)) ≤ curve K t ∧ curve K t ≤ max (K (t / 8192)) (K (t / 8192 + 1)) := by
  have hpart := risePart_between ((K (t / 8192 + 1) : Int) - K (t / 8192)) (Nat.mod_lt t (by norm_num : 0 < 8192))
  rw [curve_of_lt K h]
  omega

/-- Through the knots of the identity a curve is the identity (R148). -/
theorem curve_identity {K : Nat → Nat} (hK : ∀ j, K j = j * 0x2000) {t : Nat} (h : t ≤ 0x20000) : curve K t = t := by
  obtain rfl | ht : t = 0x20000 ∨ t < 0x20000 := by omega
  · exact hK 16
  · rw [curve_of_lt K ht, hK, hK]
    omega

theorem knot_none {objs : List Obj} {m : Nat} (h : objOf objs 3 m = none) (k j : Nat) : knot objs m k j = j * 0x2000 := by
  rw [knot, h]

/-! ## Screening -/

theorem met_mono {t t' T : Nat} (h : t ≤ t') (hm : met t T = true) : met t' T = true := by
  simp only [met, Bool.and_eq_true, decide_eq_true_eq] at hm ⊢
  exact hm.imp_right h.trans'

theorem screenCode_mono (c : Nat) {t t' : Nat} (h : t ≤ t') : screenCode c t ≤ screenCode c t' := by
  unfold screenCode
  split
  · next h3 => rw [if_pos (met_mono h h3)]
  · split
    · next h2 =>
      rw [if_pos (met_mono h h2)]
      split <;> decide
    · split
      · next h1 =>
        rw [if_pos (met_mono h h1)]
        split_ifs <;> decide
      · exact Nat.zero_le _

/-- Settles O27: the rounded part of a segment's rise stays within the rise, and a threshold once met stays met. -/
theorem toneAndScreening : Obligations.ToneAndScreening :=
  ⟨rfl, rfl, rfl, rfl, fun w _ _ => expandTone_mono w, fun K _ => curve_knot K, fun K _ => curve_between K,
    fun _ _ k _ hnone => curve_identity (knot_none hnone k), fun _ => rfl, fun c _ _ _ _ => screenCode_mono c⟩

end Sys2Proof.Machine
end

section
/-!
PROOFS. Row choice and the claims it makes (R158 to R163, R165, R193).
-/
namespace Sys2Proof.Machine

/-! ## Eligible rows -/

theorem eligible_iff (x : RowCtx) (rs : RowSt) (k kk r : Nat) :
    eligible x rs k kk r = true ↔ liveNozzle x.objs x.m k r = true ∧ (∀ i, (x.m * colsPer + k, x.L + dInt x.d x.m r, i) ∉ rs.claims) ∧
      ∀ f, rs.lastFire (x.m * colsPer + k) r = some f → f + kk ≤ (x.L + dInt x.d x.m r : Nat) := by
  have hclaim : (!rs.claims.any fun y => y.1 == x.m * colsPer + k && y.2.1 == x.L + dInt x.d x.m r) = true ↔
      ∀ i, (x.m * colsPer + k, x.L + dInt x.d x.m r, i) ∉ rs.claims := by
    rw [Bool.not_eq_true', List.any_eq_false]
    refine ⟨fun h i hi => h _ hi (by simp), fun h ⟨c, F, i⟩ hy hcF => ?_⟩
    obtain ⟨rfl, rfl⟩ : c = x.m * colsPer + k ∧ F = x.L + dInt x.d x.m r := by simpa using hcF
    exact h i hy
  unfold eligible
  dsimp only
  rw [Bool.and_eq_true, Bool.and_eq_true, hclaim, and_assoc]
  cases rs.lastFire (x.m * colsPer + k) r <;> simp

section
variable {x : RowCtx} {rs : RowSt} {k kk r : Nat} (h : eligible x rs k kk r = true)
include h

theorem eligible_live : liveNozzle x.objs x.m k r = true := ((eligible_iff x rs k kk r).mp h).1

theorem eligible_unclaimed : ∀ i, (x.m * colsPer + k, x.L + dInt x.d x.m r, i) ∉ rs.claims := ((eligible_iff x rs k kk r).mp h).2.1

end

/-! ## The fallback -/

/-- The better of the best row so far and the next one: the later row only where its LAST_FIRE is lower (R161). -/
def betterRow (last : Nat → Option Int) (best : Option Nat) (r : Nat) : Option Nat :=
  match best with
  | none => some r
  | some b => if earlier (last r) (last b) then some r else some b

theorem fallback_eq (x : RowCtx) (rs : RowSt) (k kk : Nat) (lr : List Nat) :
    fallback x rs k kk lr = (lr.filter (eligible x rs k kk)).foldl (betterRow (rs.lastFire (x.m * colsPer + k))) none := rfl

theorem betterRow_cases (last : Nat → Option Int) (best : Option Nat) (r : Nat) :
    betterRow last best r = some r ∨ betterRow last best r = best ∧ best.isSome = true := by
  cases best with
  | none => exact .inl rfl
  | some b =>
    unfold betterRow
    dsimp only
    split
    · exact .inl rfl
    · exact .inr ⟨rfl, rfl⟩

theorem betterRow_isSome (last : Nat → Option Int) (best : Option Nat) (r : Nat) : (betterRow last best r).isSome = true := by
  obtain h | ⟨h, hb⟩ := betterRow_cases last best r
  · rw [h]; rfl
  · rwa [h]

theorem fallback_eligible {x : RowCtx} {rs : RowSt} {k kk r : Nat} {lr : List Nat} (h : fallback x rs k kk lr = some r) :
    eligible x rs k kk r = true := by
  rw [fallback_eq] at h
  refine List.foldlRecOn (motive := fun b => ∀ r, b = some r → eligible x rs k kk r = true) _ _ (by simp) (fun b hb a ha r hr => ?_) r h
  obtain e | ⟨e, -⟩ := betterRow_cases (rs.lastFire (x.m * colsPer + k)) b a
  · obtain rfl : a = r := Option.some.inj (e.symm.trans hr)
    exact List.of_mem_filter ha
  · exact hb r (e.symm.trans hr)

theorem fallback_isSome {x : RowCtx} {rs : RowSt} {k kk : Nat} {lr : List Nat} (h : ∃ r ∈ lr, eligible x rs k kk r = true) :
    ∃ r, fallback x rs k kk lr = some r := by
  obtain ⟨r, hr, he⟩ := h
  obtain ⟨a, l, hl⟩ := List.exists_cons_of_ne_nil (List.ne_nil_of_mem (List.mem_filter.mpr ⟨hr, he⟩))
  rw [fallback_eq, hl, List.foldl_cons]
  exact Option.isSome_iff_exists.mp (List.foldlRecOn (motive := fun b => b.isSome = true) _ _ (betterRow_isSome _ _ _)
    fun b _ a _ => betterRow_isSome _ b a)

/-! ## One drop -/

/-- k_c, or the rows in use under NO_TAKEOVER (R160, R162). -/
def rowsCounted (x : RowCtx) (k : Nat) : Nat :=
  if flag (policyWord x.objs) 5 then x.rows else (liveRows x.objs x.rows x.m k).length

/-- The index of the preferred row (R159). -/
def rowIndex (x : RowCtx) (k : Nat) : Nat :=
  (x.n + fld (policyWord x.objs) 0 2 * (x.m * colsPer + k) + b2n (flag (policyWord x.objs) 4) * x.p) % rowsCounted x k

/-- The preferred row (R159, R162). -/
def preferredRow (x : RowCtx) (k : Nat) : Nat :=
  if flag (policyWord x.objs) 5 then rowIndex x k else cell (liveRows x.objs x.rows x.m k) (rowIndex x k) 0

/-- The row a drop is given: the preferred one where it is eligible, else the fallback (R161). -/
def chosenRow (x : RowCtx) (rs : RowSt) (k : Nat) : Option Nat :=
  if eligible x rs k (rowsCounted x k) (preferredRow x k) then some (preferredRow x k)
  else fallback x rs k (rowsCounted x k) (liveRows x.objs x.rows x.m k)

/-- An outcome is noted and nothing else is changed. -/
def RowSt.note (rs : RowSt) (o : Nat × Nat × Nat × Nat) : RowSt := { rs with outs := o :: rs.outs }

/-- A column without rows, or whose preferred row is dead under NO_TAKEOVER, gets no drop (R162, R163). -/
theorem placeDrop_eq (x : RowCtx) (rs : RowSt) (k : Nat) {code : Nat} (hc : code ≠ 0) : placeDrop x rs k code =
    if (liveRows x.objs x.rows x.m k).isEmpty && !flag (policyWord x.objs) 5 || rowsCounted x k == 0 then rs.note (k, 4, 0, 0)
    else if flag (policyWord x.objs) 5 && !liveNozzle x.objs x.m k (preferredRow x k) then rs.note (k, 3, 0, 0)
    else match chosenRow x rs k with
      | some r => takeRow x rs k r code none
      | none => rs.note (k, if byReduction x rs k (rowsCounted x k) (liveRows x.objs x.rows x.m k) then 6 else 2, 0, 0) := by
  rw [placeDrop, if_neg hc]
  rfl

theorem chosenRow_eligible {x : RowCtx} {rs : RowSt} {k r : Nat} (h : chosenRow x rs k = some r) :
    eligible x rs k (rowsCounted x k) r = true := by
  unfold chosenRow at h
  split at h
  · next he => exact Option.some.inj h ▸ he
  · exact fallback_eligible h

/-- A drop is not placed, or goes into an eligible row (R158 to R163). -/
theorem placeDrop_cases (x : RowCtx) (rs : RowSt) (k code : Nat) :
    (∃ o, placeDrop x rs k code = rs.note o) ∨
      ∃ r, placeDrop x rs k code = takeRow x rs k r code none ∧ eligible x rs k (rowsCounted x k) r = true := by
  obtain rfl | hc := eq_or_ne code 0
  · exact .inl ⟨_, rfl⟩
  rw [placeDrop_eq x rs k hc]
  split
  · exact .inl ⟨_, rfl⟩
  split
  · exact .inl ⟨_, rfl⟩
  split
  · next r hr => exact .inr ⟨r, rfl, chosenRow_eligible hr⟩
  · exact .inl ⟨_, rfl⟩

section
variable {x : RowCtx} {rs : RowSt} {k r code : Nat} (hc : code ≠ 0)
include hc

theorem placeDrop_noRow (hn : flag (policyWord x.objs) 5 = false) (h : liveRows x.objs x.rows x.m k = []) :
    placeDrop x rs k code = rs.note (k, 4, 0, 0) := by
  rw [placeDrop_eq x rs k hc, if_pos (by simp [hn, h])]

/-- The row chosen gets the drop, but for a dead preferred row under NO_TAKEOVER. -/
theorem placeDrop_chosen (hk : rowsCounted x k ≠ 0) (hl : flag (policyWord x.objs) 5 = true → liveNozzle x.objs x.m k (preferredRow x k) = true)
    (hr : chosenRow x rs k = some r) : placeDrop x rs k code = takeRow x rs k r code none := by
  have hempty : ((liveRows x.objs x.rows x.m k).isEmpty && !flag (policyWord x.objs) 5) = false := by
    unfold rowsCounted at hk
    split at hk
    · next hn => rw [hn, Bool.not_true, Bool.and_false]
    · rw [List.isEmpty_eq_false_iff.mpr (List.ne_nil_of_length_pos (Nat.pos_of_ne_zero hk)), Bool.false_and]
  have hdead : (flag (policyWord x.objs) 5 && !liveNozzle x.objs x.m k (preferredRow x k)) = false := by
    cases hn : flag (policyWord x.objs) 5
    · rfl
    · rw [hl hn]
      rfl
  rw [placeDrop_eq x rs k hc, hempty, hdead, hr]
  simp [hk]

theorem placeDrop_preferred (hk : rowsCounted x k ≠ 0) (he : eligible x rs k (rowsCounted x k) (preferredRow x k) = true) :
    placeDrop x rs k code = takeRow x rs k (preferredRow x k) code none :=
  placeDrop_chosen hc hk (fun _ => eligible_live he) (if_pos he)

/-- Where a row among those in use is eligible the drop is placed (R161). -/
theorem placeDrop_placed (hn : flag (policyWord x.objs) 5 = false)
    (h : ∃ r ∈ liveRows x.objs x.rows x.m k, eligible x rs k (rowsCounted x k) r = true) : ∃ r, placeDrop x rs k code = takeRow x rs k r code none := by
  have hk : rowsCounted x k ≠ 0 := by
    obtain ⟨r, hr, -⟩ := h
    rw [rowsCounted, if_neg (by simp [hn])]
    exact (List.length_pos_of_mem hr).ne'
  have hchosen : ∃ r, chosenRow x rs k = some r := by
    unfold chosenRow
    split
    · exact ⟨_, rfl⟩
    · exact fallback_isSome h
  obtain ⟨r, hr⟩ := hchosen
  exact ⟨r, placeDrop_chosen hc hk (fun h1 => absurd (hn.symm.trans h1) (by decide)) hr⟩

end

theorem rowChoice : Claims.RowChoice := by
  rintro x rs k code lr kk idx noTake hc rfl rfl rfl rfl
  have hkk : (if flag (policyWord x.objs) 5 = true then x.rows else (liveRows x.objs x.rows x.m k).length) = rowsCounted x k := rfl
  simp only [hkk]
  refine ⟨?_, fun hn hk he => ?_, fun hn h => ?_, fun hn hk he => ?_, fun hl hn => congrArg RowSt.outs (placeDrop_noRow hc hn hl)⟩
  · obtain ⟨o, h⟩ | ⟨r, h, he⟩ := placeDrop_cases x rs k code
    · exact .inl (h ▸ ⟨rfl, rfl, rfl⟩)
    · exact .inr ⟨r, h, he, eligible_live he, eligible_unclaimed he⟩
  · have hp : preferredRow x k = cell (liveRows x.objs x.rows x.m k) (rowIndex x k) 0 := if_neg (by simp [hn])
    exact (placeDrop_preferred hc hk (hp ▸ he)).trans (by rw [hp]; rfl)
  · obtain ⟨r, hr⟩ := placeDrop_placed hc hn h
    rw [hr]
    rfl
  · have hp : preferredRow x k = rowIndex x k := if_pos hn
    exact (placeDrop_preferred hc hk (hp ▸ he)).trans (by rw [hp]; rfl)

/-! ## Claims without a repeat -/

/-- The claims as pairs of column and fire line have no repeat. -/
def RowSt.ClaimsNodup (rs : RowSt) : Prop := (rs.claims.map fun y => (y.1, y.2.1)).Nodup

theorem takeRow_claimsNodup {x : RowCtx} {rs : RowSt} {k kk r : Nat} (he : eligible x rs k kk r = true) (h : rs.ClaimsNodup) (code : Nat)
    (probe : Option Nat) : (takeRow x rs k r code probe).ClaimsNodup := by
  refine List.nodup_cons.mpr ⟨fun hmem => ?_, h⟩
  obtain ⟨⟨c, F, i⟩, hy, heq⟩ := List.mem_map.mp hmem
  obtain ⟨rfl, rfl⟩ := Prod.mk.inj heq
  exact eligible_unclaimed he i hy

theorem placeDrop_claimsNodup (x : RowCtx) {rs : RowSt} (h : rs.ClaimsNodup) (k code : Nat) : (placeDrop x rs k code).ClaimsNodup := by
  obtain ⟨o, e⟩ | ⟨r, e, he⟩ := placeDrop_cases x rs k code
  · exact e ▸ h
  · exact e ▸ takeRow_claimsNodup he h code none

theorem placeProbe_eq (x : RowCtx) (rs : RowSt) (k r code : Nat) : placeProbe x rs k r code =
    if eligible x rs k (rowsCounted x k) r then takeRow x rs k r 3 (some code) else rs.note (k, 7, 0, 0) := rfl

theorem placeProbe_claimsNodup (x : RowCtx) {rs : RowSt} (h : rs.ClaimsNodup) (k r code : Nat) : (placeProbe x rs k r code).ClaimsNodup := by
  rw [placeProbe_eq]
  split
  · next he => exact takeRow_claimsNodup he h 3 (some code)
  · exact h

theorem claimsDistinct : Claims.ClaimsDistinct :=
  ⟨fun x _ codes h => List.foldlRecOn (motive := RowSt.ClaimsNodup) codes.zipIdx _ h fun _ hrs y _ => placeDrop_claimsNodup x hrs y.2 y.1,
    fun x _ k r code h => placeProbe_claimsNodup x h k r code⟩

/-- Settles O28: a drop that is placed goes into an eligible row, whose fire line is unclaimed. -/
theorem rowsAndClaims : Obligations.RowsAndClaims := ⟨rowChoice, claimsDistinct⟩

end Sys2Proof.Machine
end

section
/-!
PROOFS. Row-state records: what a load gives back of what a capture wrote (R168, R175).
-/
namespace Sys2Proof.Machine

/-! ## The fields of a record -/

theorem leN_append_add (a b : List Byte) (i n : Nat) : leN (a ++ b) (a.length + i) n = leN b i n := by
  induction a with
  | nil => rw [List.nil_append, List.length_nil, Nat.zero_add]
  | cons x a ih => rw [List.cons_append, List.length_cons, Nat.add_right_comm, leN_cons, ih]

/-- Field i of a run of little-endian fields of one width reads back (R12). -/
theorem leN_fields {α : Type} (g : α → Nat) (n : Nat) (l : List α) {i : Nat} (h : i < l.length) :
    leN (l.flatMap fun x => bytesLE n (g x)) (n * i) n = g l[i] % 256 ^ n := by
  induction l generalizing i with
  | nil => exact absurd h (Nat.not_lt_zero i)
  | cons x l ih =>
    rw [List.flatMap_cons]
    cases i with
    | zero => exact leN_bytesLE n (g x) _
    | succ i =>
      have hnext := leN_append_add (bytesLE n (g x)) (l.flatMap fun x => bytesLE n (g x)) (n * i) n
      rw [length_bytesLE, Nat.add_comm, ← Nat.mul_succ] at hnext
      exact hnext.trans (ih (Nat.lt_of_succ_lt_succ h))

/-- Setting a bit for each element of a list sets those bits and no other. -/
theorem testBit_foldl_lor {α : Type} (g : α → Nat) (l : List α) (a i : Nat) :
    (l.foldl (fun a x => Nat.lor a (2 ^ g x)) a).testBit i = true ↔ a.testBit i = true ∨ ∃ x ∈ l, g x = i := by
  induction l generalizing a with
  | nil => simp
  | cons x l ih =>
    have hor : (Nat.lor a (2 ^ g x)).testBit i = (a.testBit i || (2 ^ g x).testBit i) := Nat.testBit_or a _ i
    rw [List.foldl_cons, ih, hor, Nat.testBit_two_pow, Bool.or_eq_true, decide_eq_true_eq, List.exists_mem_cons_iff, or_assoc]

/-- The claims of a column in the 1,024 fire lines from Ls (R168). -/
def claimsFrom (c Ls : Nat) (s : State) : List (Nat × Nat × Nat) :=
  s.scr.claims.filter fun x => x.1 == c && decide (Ls ≤ x.2.1 ∧ x.2.1 < Ls + 1024)

/-- Bit i stands for a claim of fire line Ls + i (R168). -/
def claimedBits (c Ls : Nat) (s : State) : Nat := (claimsFrom c Ls s).foldl (fun a x => Nat.lor a (2 ^ (x.2.1 - Ls))) 0

/-- The LAST_FIRE field of row r (R168). -/
def recordField (c Ls : Nat) (s : State) (r : Nat) : Nat := lastField (((find? s.scr.lastFire (c, r)).bind (·.head?)).map (·.1)) Ls

theorem columnRecord_eq (c Ls : Nat) (s : State) :
    columnRecord c Ls s = bytesLE 128 (claimedBits c Ls s) ++ (List.range 4).flatMap fun r => bytesLE 2 (recordField c Ls s r) := by
  simp [columnRecord, claimedBits, claimsFrom, recordField, List.range_succ]

theorem columnRecord_length (c Ls : Nat) (s : State) : (columnRecord c Ls s).length = 136 := by
  simp [columnRecord_eq, length_bytesLE]

theorem claimedBits_testBit (c Ls : Nat) (s : State) {i : Nat} (h : i < 1024) :
    (claimedBits c Ls s).testBit i = true ↔ ∃ j, (c, Ls + i, j) ∈ s.scr.claims := by
  rw [claimedBits, testBit_foldl_lor]
  constructor
  · rintro (h0 | ⟨⟨d, F, j⟩, hx, hi⟩)
    · exact absurd h0 (by simp)
    · obtain ⟨hmem, hcol, hfrom, -⟩ : (d, F, j) ∈ s.scr.claims ∧ d = c ∧ Ls ≤ F ∧ F < Ls + 1024 := by simpa [claimsFrom] using hx
      obtain rfl : Ls + i = F := by dsimp only at hi; omega
      exact ⟨j, hcol ▸ hmem⟩
  · rintro ⟨j, hj⟩
    exact .inr ⟨(c, Ls + i, j), by simp [claimsFrom, hj, h], by simp⟩

theorem columnRecord_testBit (c Ls : Nat) (s : State) {i : Nat} (h : i < 1024) :
    (leN (columnRecord c Ls s) 0 128).testBit i = (claimedBits c Ls s).testBit i := by
  have hwidth : 256 ^ 128 = 2 ^ (8 * 128) := (pow_mul 2 8 128).symm
  rw [columnRecord_eq, leN_bytesLE, hwidth, Nat.testBit_mod_two_pow, decide_eq_true h, Bool.true_and]

theorem lastField_lt (last : Option Int) (Ls : Nat) : lastField last Ls < 65536 := by
  unfold lastField
  split
  · decide
  · dsimp only
    split <;> omega

theorem le16_columnRecord (c Ls : Nat) (s : State) {r : Nat} (h : r < 4) : le16 (columnRecord c Ls s) (128 + 2 * r) = recordField c Ls s r := by
  have hskip := leN_append_add (bytesLE 128 (claimedBits c Ls s)) ((List.range 4).flatMap fun r => bytesLE 2 (recordField c Ls s r)) (2 * r) 2
  have hfield := leN_fields (recordField c Ls s) 2 (List.range 4) (by simpa using h : r < (List.range 4).length)
  have hlt : recordField c Ls s r < 256 ^ 2 := lastField_lt _ Ls
  rw [length_bytesLE] at hskip
  rw [List.getElem_range, Nat.mod_eq_of_lt hlt] at hfield
  exact hskip.trans hfield

/-! ## LAST_FIRE as a field -/

/-- The history that a LAST_FIRE field gives (R168, R175). -/
def fieldHistory (Ls v : Nat) : List (Int × Nat) := if v = 0x8000 then [] else [((Ls + sx 16 v : Int), Ls - 1)]

theorem lastField_some {f : Int} {Ls : Nat} (hlow : (Ls : Int) ≤ f + 32767) : lastField (some f) Ls = ((f - Ls) % 65536).toNat :=
  if_neg (by omega)

/-- A LAST_FIRE within 32,767 lines reads back (R168). -/
theorem fieldHistory_lastField {f : Int} {Ls : Nat} (hlow : (Ls : Int) ≤ f + 32767) (hhigh : f ≤ (Ls : Int) + 32767) :
    fieldHistory Ls (lastField (some f) Ls) = [(f, Ls - 1)] := by
  have hsx : sx 16 ((f - Ls) % 65536).toNat = f - Ls := by
    unfold sx
    norm_num
    split <;> omega
  rw [lastField_some hlow, fieldHistory, if_neg (by omega), hsx, add_sub_cancel]

theorem fieldHistory_none (Ls : Nat) : fieldHistory Ls (lastField none Ls) = [] := if_pos rfl

/-! ## A load -/

theorem find?_cons_ne {κ β : Type} [DecidableEq κ] {j k : κ} (h : k ≠ j) (v : β) (l : List (κ × β)) : find? ((j, v) :: l) k = find? l k := by
  rw [find?, List.lookup, beq_false_of_ne h]
  rfl

/-- In a list that begins with a table, an index of the table finds its entry. -/
theorem find?_table {ι κ β : Type} [DecidableEq κ] {key : ι → κ} (hkey : key.Injective) (f : ι → β) (others : List (κ × β)) {l : List ι} {i : ι}
    (hi : i ∈ l) : find? (l.map (fun i => (key i, f i)) ++ others) (key i) = some (f i) := by
  induction l with
  | nil => exact absurd hi List.not_mem_nil
  | cons j l ih =>
    by_cases hj : i = j
    · subst hj
      exact List.lookup_cons_self
    · exact (find?_cons_ne (hkey.ne hj) _ _).trans (ih ((List.mem_cons.mp hi).resolve_left hj))

section
variable (c Ls : Nat) (bytes : List Byte) (s : State)

theorem loadColumn_onlyChanges : OnlyChanges [.scr] s (loadColumn c Ls bytes s) := onlyChanges_scr s _

/-- A load replaces the column's LAST_FIRE values by the record's (R175). -/
theorem loadColumn_lastFire {r : Nat} (hr : r < 4) :
    find? (loadColumn c Ls bytes s).scr.lastFire (c, r) = some (fieldHistory Ls (le16 bytes (128 + 2 * r))) :=
  find?_table (Prod.mk_right_injective c) (fun r => fieldHistory Ls (le16 bytes (128 + 2 * r))) _ (List.mem_range.mpr hr)

theorem mem_loadColumn_claims (d F i : Nat) : (d, F, i) ∈ (loadColumn c Ls bytes s).scr.claims ↔
    ((d, F, i) ∈ s.scr.claims ∧ d ≠ c) ∨ ∃ j, (j < 1024 ∧ (leN bytes 0 128).testBit j = true) ∧ c = d ∧ Ls + j = F ∧ Ls - 1 = i := by
  simp only [loadColumn, List.mem_append, List.mem_filter, List.mem_map, List.mem_range, bne_iff_ne, Prod.mk.injEq]

theorem loadColumn_otherClaims {d : Nat} (hd : d ≠ c) (F i : Nat) :
    (d, F, i) ∈ (loadColumn c Ls bytes s).scr.claims ↔ (d, F, i) ∈ s.scr.claims := by
  simp [mem_loadColumn_claims, hd, hd.symm]

/-- A load replaces the column's claims by the record's (R175). -/
theorem loadColumn_claims {i : Nat} (h : i < 1024) :
    (∃ j, (c, Ls + i, j) ∈ (loadColumn c Ls bytes s).scr.claims) ↔ (leN bytes 0 128).testBit i = true := by
  simp [mem_loadColumn_claims, h]

end

/-- Settles O29: each field of a record reads back, and a load takes the column's state from the fields. -/
theorem rowStateRoundTrip : Obligations.RowStateRoundTrip := by
  rintro col Ls s t rfl
  have hfields {r : Nat} (hr : r < 4) : find? (loadColumn col Ls (columnRecord col Ls s) s).scr.lastFire (col, r) =
      some (fieldHistory Ls (recordField col Ls s r)) := by
    rw [loadColumn_lastFire col Ls _ s hr, le16_columnRecord col Ls s hr]
  refine ⟨columnRecord_length col Ls s, loadColumn_onlyChanges col Ls _ s, fun F hlow hhigh => ?claims,
    fun d F i hd => loadColumn_otherClaims col Ls _ s hd F i, fun r f i h hr hf hlow hhigh => ⟨Ls - 1, ?last⟩, fun r hr hf => ?none⟩
  case claims =>
    obtain ⟨i, rfl⟩ := Nat.exists_eq_add_of_le hlow
    have hi : i < 1024 := by omega
    rw [loadColumn_claims col Ls _ s hi, columnRecord_testBit col Ls s hi, claimedBits_testBit col Ls s hi]
  case last =>
    rw [hfields hr, recordField, hf]
    exact congrArg some (fieldHistory_lastField hlow hhigh)
  case none =>
    rw [hfields hr, recordField, hf]
    exact congrArg some (fieldHistory_none Ls)

end Sys2Proof.Machine
end

section
/-!
PROOFS. Trains and their guards (R179 to R182, R190, R191, R232, R233).
-/
namespace Sys2Proof.Machine

/-! ## A train's row at a sample -/

theorem sendMarker_out (m : Nat) (x : LaneItem) (s : State) : (sendMarker m x s).out.head? = some (.lane m x) := by
  unfold sendMarker
  rw [emit_unheld _ _ rfl]
  rfl

section
variable {m : Fin 16} {fire : Nat} {row : Fin 4} {grp : Fin 8} {tx : Nat} {x : Samples} {s u : State} (hu : u = mainUpdate (advance x s))
include hu

theorem trainRows_absent (h : findTrain m fire row grp u = none) : exec (.trainCommit m fire row grp tx x) s = .next u ∧
    exec (.trainPostponedStart m fire row grp tx x) s = .next u ∧ exec (.prepMarker m fire row grp tx x) s = .next u := by
  subst hu
  refine ⟨?_, ?_, ?_⟩
  · change execTrainCommit m fire row grp tx x s = _
    simp only [execTrainCommit, h]
  · change execTrainPostponedStart m fire row grp tx x s = _
    simp only [execTrainPostponedStart, h]
  · change execPrepMarker m fire row grp tx x s = _
    simp only [execPrepMarker, h]

theorem trainCommit_found {t : Train} {d : Int} (h : findTrain m fire row grp u = some t) (hd : stepsTo (t.target u) u = some d)
    (hst : t.st = .waiting ∨ t.st = .prepared) : exec (.trainCommit m fire row grp tx x) s =
      .next (if trainTurn t u then deliverAll (tryTrain true t tx (nowSteps u + d) u) else u) := by
  subst hu
  change execTrainCommit m fire row grp tx x s = _
  simp only [execTrainCommit, h, hd, hst, true_and]

theorem trainPostponedStart_found {t : Train} (h : findTrain m fire row grp u = some t) (hst : t.st = .postponed) :
    exec (.trainPostponedStart m fire row grp tx x) s = .next (if trainTurn t u then deliverAll (tryTrain false t tx t.tMain u) else u) := by
  subst hu
  change execTrainPostponedStart m fire row grp tx x s = _
  simp only [execTrainPostponedStart, h, hst, true_and]

/-- A PREP whose turn has come is presented at the gate, and goes where the gate lets it. -/
theorem prepMarker_found {t : Train} {d : Int} (h : findTrain m fire row grp u = some t) (hd : stepsTo (t.target u) u = some d)
    (hst : t.st = .waiting) (hnear : d < 9600) (hpre : 0 < t.preLen u) (hturn : prepTurn t u = true) (hlane : (u.lane m).st = .active) :
    ∃ v, exec (.prepMarker m fire row grp tx x) s = .next v ∧ ((presentMarker m t.fire u).1 = false → v = (presentMarker m t.fire u).2) ∧
      ((presentMarker m t.fire u).1 = true →
        ∃ delay, delay ≤ 511 ∧ v.out.head? = some (.lane m (prepMarker (lphOf t.fire u) row grp delay))) := by
  subst hu
  change ∃ v, execPrepMarker m fire row grp tx x s = _ ∧ _
  simp only [execPrepMarker, h, hd, hst, hnear, hpre, hturn, hlane, and_self, if_true]
  cases hgo : (presentMarker m t.fire (mainUpdate (advance x s))).1 with
  | false => exact ⟨_, rfl, fun _ => rfl, nofun⟩
  | true => exact ⟨_, rfl, nofun, fun _ => ⟨_, min_le_left _ _, sendMarker_out _ _ _⟩⟩

end

/-! ## When it is a train's turn -/

theorem trainTurn_iff (t : Train) (s : State) :
    trainTurn t s = true ↔ ∃ r, readyAt t s = some r ∧ r < nowSteps s + 1280 ∧ ∀ x ∈ s.fire.trains, goesFirst t x s = false := by
  unfold trainTurn
  cases readyAt t s with
  | none => simp
  | some r => simp

theorem readyAt_none (t : Train) (s : State)
    (h : forward s = false ∨ lineOpen t.fire s = false ∨ sendsFrames s = false ∨ stopExpired s = true) : readyAt t s = none := by
  refine if_pos ?_
  rcases h with h | h | h | h <;> simp [h]

/-! ## A train that firing's stop leaves behind (R181) -/

theorem stopExpired_ordered {at_ : Dword} {s : State} (h : s.fire.stopAt = some at_) :
    stopExpired s = decide (at_.toNat + 100000 ≤ s.pos.mono.toNat) := by
  simp [stopExpired, h]

theorem stopExpired_running {s : State} (h : s.fire.stopAt = none) : stopExpired s = false := by
  simp [stopExpired, h]

theorem trainAbandon_found {m : Fin 16} {fire : Nat} {row : Fin 4} {grp : Fin 8} {s : State} {t : Train}
    (h : findTrain m fire row grp s = some t) (ho : t.open_ = true) (hb : t.fire ≤ s.pos.absHigh) :
    exec (.trainAbandon m fire row grp) s = .next (if stopExpired s then
    deliverAll (withhold (Train.is t) (stickRec (source := 0x10 + m) .slotAbandoned
      { s with fire := { s.fire with abandoned := satAdd s.fire.abandoned 1 } })) else s) := by
  change execTrainAbandon m fire row grp s = _
  simp only [execTrainAbandon, h, ho, hb, true_and]

/-! ## The trial of a train (R179, R190, R191) -/

section
variable {first : Bool} {t : Train} {tx : Nat} {wanted main b : Int} {s : State} (hm : main = max wanted (nowSteps s + tx + linkDelay t.mod s))
  (hb : boundaryIn (t.fire + 2) s = some b)
include hm hb

theorem tryTrain_omits (h : nowSteps s + b ≤ guardedStart t main s) : tryTrain first t tx wanted s = slotOmit t s := by
  subst hm
  simp only [tryTrain, hb, h, decide_true, if_true]

theorem tryTrain_fires (h : guardedStart t main s < nowSteps s + b) (hs : guardedStart t main s = main - t.preLen s) :
    tryTrain first t tx wanted s = fireTrain t tx main s := by
  subst hm
  have hin : decide (guardedStart t (max wanted (nowSteps s + tx + linkDelay t.mod s)) s ≥ nowSteps s + b) = false :=
    decide_eq_false (not_le.mpr h)
  simp only [tryTrain, hb, hin, Bool.false_eq_true, if_false, if_pos hs]

end

theorem trains : Claims.Trains := by
  refine ⟨fun m fire row grp tx x s u hu => ⟨trainRows_absent hu, fun t d => trainCommit_found hu, fun t => trainPostponedStart_found hu,
      fun t d => prepMarker_found hu⟩,
    trainTurn_iff, readyAt_none, fun m fire row grp s t h ho hb => ⟨fun at_ hat hle => ?expired, fun at_ hat hlt => ?early, fun hat => ?running⟩,
    fun first t tx wanted main b s hm hb => ⟨tryTrain_omits hm hb, tryTrain_fires hm hb⟩⟩
  case expired => rw [trainAbandon_found h ho hb, stopExpired_ordered hat, if_pos (decide_eq_true hle)]
  case early => rw [trainAbandon_found h ho hb, stopExpired_ordered hat, if_neg (by simpa using hlt)]
  case running => rw [trainAbandon_found h ho hb, stopExpired_running hat]; rfl

/-! ## The refill guard (R191) -/

/-- The earliest main pulse that lets one more drop's nozzle refill. -/
def Drop.refilled (refill : Int) (s : State) (main : Int) (d : Drop) : Int := match find? s.fire.lastMain (d.col, d.row) with
  | some l => max main (l + refill)
  | none => main

/-- The refill time of the head of a train's module, in whole steps. -/
def Train.refill (t : Train) (s : State) : Int := stepsUp (capRefill (capOf t.mod s))

theorem guardedStart_eq (t : Train) (main : Int) (s : State) : guardedStart t main s =
    heaterGuard t.mod (t.heating s) s (s.fire.heaters.length * (t.heating s).length) ((t.drops s).foldl (Drop.refilled (t.refill s) s) main) -
      t.preLen s := rfl

theorem le_refilled (refill : Int) (s : State) (main : Int) (d : Drop) : main ≤ d.refilled refill s main := by
  unfold Drop.refilled
  split
  · exact le_max_left _ _
  · exact le_rfl

theorem lastMain_le_refilled {s : State} {d : Drop} {l : Int} (h : find? s.fire.lastMain (d.col, d.row) = some l) (refill main : Int) :
    l + refill ≤ d.refilled refill s main := by
  simp [Drop.refilled, h]

theorem le_foldl_refilled (refill : Int) (s : State) (ds : List Drop) (main : Int) : main ≤ ds.foldl (Drop.refilled refill s) main :=
  List.foldlRecOn (motive := (main ≤ ·)) ds _ le_rfl fun a ha d _ => ha.trans (le_refilled refill s a d)

theorem lastMain_le_foldl_refilled {s : State} {d : Drop} {l : Int} (h : find? s.fire.lastMain (d.col, d.row) = some l) (refill : Int)
    {ds : List Drop} (hd : d ∈ ds) (main : Int) : l + refill ≤ ds.foldl (Drop.refilled refill s) main := by
  obtain ⟨before, after, rfl⟩ := List.append_of_mem hd
  rw [List.foldl_append, List.foldl_cons]
  exact (lastMain_le_refilled h refill _).trans (le_foldl_refilled refill s after _)

/-! ## The heater guard (R190) -/

section
variable (m : Nat) (own : List (Int × Int × Nat)) (s : State)

/-- The main pulses at which some of a train's heaters start just as heaters of its module are released. -/
def releases : List Int := (s.fire.heaters.filter fun h => h.1 == m).flatMap fun h => own.map fun x => h.2.2.1 + x.1

theorem nextRelease_eq (main : Int) : nextRelease m main own s = ((releases m own s).filter fun t => decide (main < t)).min? := rfl

variable {m own s}

theorem mem_releases {t : Int} : t ∈ releases m own s ↔ ∃ h ∈ s.fire.heaters, h.1 = m ∧ ∃ x ∈ own, h.2.2.1 + x.1 = t := by
  simp [releases, and_assoc]

theorem length_releases_le : (releases m own s).length ≤ s.fire.heaters.length * own.length := by
  have hlen : (releases m own s).length = (s.fire.heaters.filter fun h => h.1 == m).length * own.length := by
    simp [releases, List.length_flatMap]
  rw [hlen]
  exact Nat.mul_le_mul_right _ (List.length_filter_le _ _)

theorem nextRelease_mem {main t : Int} (h : nextRelease m main own s = some t) : t ∈ releases m own s ∧ main < t := by
  have ht := List.min?_mem (nextRelease_eq m own s main ▸ h)
  simpa using ht

theorem nextRelease_none {main : Int} (h : nextRelease m main own s = none) : ∀ t ∈ releases m own s, t ≤ main := by
  rw [nextRelease_eq, List.min?_eq_none_iff, List.filter_eq_nil_iff] at h
  simpa using h

theorem energisedAt_ne_zero {t : Int} {hs : List (Nat × Int × Int × Nat)} (h : energisedAt m t hs ≠ 0) :
    ∃ r ∈ hs, r.1 = m ∧ r.2.1 ≤ t ∧ t < r.2.2.1 := by
  by_contra hnone
  have hnil : (hs.filter fun h => h.1 == m && decide (h.2.1 ≤ t ∧ t < h.2.2.1)) = [] :=
    List.filter_eq_nil_iff.mpr fun r hr hon => hnone ⟨r, hr, by simpa using hon⟩
  exact h (by rw [energisedAt, hnil]; rfl)

theorem energisedAt_heatRecords_le (main t : Int) : energisedAt m t (heatRecords m main own) ≤ (own.map fun x => x.2.2).sum := by
  have hall : (heatRecords m main own).map (·.2.2.2) = own.map fun x => x.2.2 := by simp [heatRecords]
  rw [← hall]
  exact (List.filter_sublist.map _).sum_le_sum fun _ _ => Nat.zero_le _

/-- Once no release is to come, a train whose own heaters are within the limit fits: none of the others is on when they start. -/
theorem heatersFit_of_released {main : Int} (hrel : ∀ t ∈ releases m own s, t ≤ main) (hsum : (own.map fun x => x.2.2).sum ≤ heaterLimit m s) :
    heatersFit m main own s = true := by
  refine List.all_eq_true.mpr fun t _ => ?_
  by_cases hmine : energisedAt m t (heatRecords m main own) = 0
  · simp [hmine]
  have hothers : energisedAt m t s.fire.heaters = 0 := by
    by_contra hon
    obtain ⟨r, hr, -, hstart, -⟩ := energisedAt_ne_zero hmine
    obtain ⟨x, hx, rfl⟩ := List.mem_map.mp hr
    obtain ⟨h, hh, hmod, -, hend⟩ := energisedAt_ne_zero hon
    have hbefore := hrel _ (mem_releases.mpr ⟨h, hh, hmod, x, hx, rfl⟩)
    dsimp only at hstart
    omega
  have hle := (energisedAt_heatRecords_le (m := m) (own := own) main t).trans hsum
  simp [hothers, hle]

/-- The guard leaves the main pulses where they are, or moves them to a release. -/
theorem heaterGuard_release (fuel : Nat) (main : Int) : heaterGuard m own s fuel main = main ∨
    (main < heaterGuard m own s fuel main ∧ heaterGuard m own s fuel main ∈ releases m own s) := by
  induction fuel generalizing main with
  | zero => exact .inl rfl
  | succ fuel ih =>
    unfold heaterGuard
    split
    · exact .inl rfl
    · split
      next t ht =>
        obtain ⟨hmem, hlt⟩ := nextRelease_mem ht
        rcases ih t with heq | ⟨hgt, hrel⟩
        · rw [heq]; exact .inr ⟨hlt, hmem⟩
        · exact .inr ⟨hlt.trans hgt, hrel⟩
      next => exact .inl rfl

theorem le_heaterGuard (fuel : Nat) (main : Int) : main ≤ heaterGuard m own s fuel main := by
  rcases heaterGuard_release (m := m) (own := own) (s := s) fuel main with h | ⟨h, -⟩
  · exact h.ge
  · exact h.le

/-- Each move uses up a release, so a fuel of as many as are to come is enough. -/
theorem heaterGuard_fits (hsum : (own.map fun x => x.2.2).sum ≤ heaterLimit m s) (fuel : Nat) (main : Int)
    (hf : ((releases m own s).filter fun t => decide (main < t)).length ≤ fuel) :
    heatersFit m (heaterGuard m own s fuel main) own s = true := by
  induction fuel generalizing main with
  | zero =>
    change heatersFit m main own s = true
    have hnil := List.filter_eq_nil_iff.mp (List.length_eq_zero_iff.mp (Nat.le_zero.mp hf))
    exact heatersFit_of_released (by simpa using hnil) hsum
  | succ fuel ih =>
    unfold heaterGuard
    split
    next hfit => exact hfit
    next =>
      split
      next t ht =>
        obtain ⟨hmem, hlt⟩ := nextRelease_mem ht
        refine ih t (Nat.le_of_lt_succ (lt_of_lt_of_le ?_ hf))
        have hsub : ((releases m own s).filter fun y => decide (t < y)) =
            ((releases m own s).filter fun y => decide (main < y)).filter fun y => decide (t < y) := by
          rw [List.filter_filter]
          refine List.filter_congr fun y _ => ?_
          by_cases hy : t < y <;> simp [hy, hlt.trans]
        rw [hsub]
        exact List.length_filter_lt_length_iff_exists.mpr ⟨t, by simp [hmem, hlt], by simp⟩
      next ht => exact heatersFit_of_released (nextRelease_none ht) hsum

end

theorem trainGuards : Claims.TrainGuards := by
  refine ⟨fun t main s => ?notEarlier, fun t main l d s hd hl => ?refill, fun m fuel own main s => ⟨le_heaterGuard fuel main, fun hne => ?release⟩,
    fun m fuel own main s hf hsum => heaterGuard_fits hsum fuel main ((List.length_filter_le _ _).trans (length_releases_le.trans hf))⟩
  case notEarlier =>
    rw [guardedStart_eq]
    exact Int.sub_le_sub_right ((le_foldl_refilled _ s _ main).trans (le_heaterGuard _ _)) _
  case refill =>
    rw [guardedStart_eq, Int.sub_add_cancel]
    exact (lastMain_le_foldl_refilled hl (t.refill s) hd main).trans (le_heaterGuard _ _)
  case release =>
    obtain ⟨-, hmem⟩ := (heaterGuard_release fuel main).resolve_left hne
    obtain ⟨h, hh, hmod, x, hx, he⟩ := mem_releases.mp hmem
    exact ⟨h, hh, hmod, x, hx, he.symm⟩

/-- Settles O31: a train's row by what it finds, the guards by the releases that are still to come. -/
theorem trainsAndGuards : Obligations.TrainsAndGuards := ⟨trains, trainGuards⟩

end Sys2Proof.Machine
end

section
/-!
PROOFS. Head heat (R196 to R198) and overspeed (R199 to R201).
-/
namespace Sys2Proof.Machine

/-! ## What a fold over numbers keeps and brings about -/

theorem forAll_keeps {P : State → Prop} {f : Nat → State → State} (hkeep : ∀ k s, P s → P (f k s)) (l : List Nat) {s : State} (hs : P s) :
    P (forAll l f s) :=
  List.foldlRecOn l _ hs fun t ht k _ => hkeep k t ht

/-- What one of the steps brings about, and all of them keep, holds at the end. -/
theorem forAll_reaches {P Q : State → Prop} {f : Nat → State → State} {l : List Nat} {n : Nat} (hn : n ∈ l)
    (hready : ∀ k s, Q s → Q (f k s)) (hdoes : ∀ s, Q s → P (f n s)) (hkeep : ∀ k s, P s → P (f k s)) {s : State} (hs : Q s) :
    P (forAll l f s) := by
  obtain ⟨before, after, rfl⟩ := List.append_of_mem hn
  simp only [forAll, List.foldl_append, List.foldl_cons]
  exact forAll_keeps hkeep after (hdoes _ (forAll_keeps hready before hs))

/-! ## The zones of a head -/

theorem zone_of_fire {s t : State} (h : t.fire = s.fire) (m z : Nat) : t.zone m z = s.zone m z :=
  congrArg (fun f : Fire => cell (cell f.zones m []) z {}) h

/-- Module m has a zone z. -/
def State.hasZone (m z : Nat) (s : State) : Prop := z < (cell s.fire.zones m []).length

theorem hasZone_of_fire {s t : State} {m z : Nat} (h : t.fire = s.fire) : t.hasZone m z ↔ s.hasZone m z := by
  rw [State.hasZone, State.hasZone, h]

@[simp] theorem setZone_hasZone (m z : Nat) (f : ZoneT → ZoneT) (s : State) (i j : Nat) : (setZone m z f s).hasZone i j ↔ s.hasZone i j :=
  iff_of_eq (congrArg (j < ·) (cell_upd_keeps List.length (fun l => length_upd l z f) s.fire.zones m i []))

/-- What a change of zones keeps, each zone keeps. -/
theorem zone_setZone_keeps {β : Type} (g : ZoneT → β) {f : ZoneT → ZoneT} (h : ∀ x, g (f x) = g x) (m z : Nat) (s : State) (i j : Nat) :
    g ((setZone m z f s).zone i j) = g (s.zone i j) :=
  cell_upd_keeps (fun l : List ZoneT => g (cell l j {})) (fun l => cell_upd_keeps g h l z j {}) s.fire.zones m i []

/-- A change that keeps a property of a zone keeps it of each zone. -/
theorem setZone_preserves {P : ZoneT → Prop} {f : ZoneT → ZoneT} (hf : ∀ x, P x → P (f x)) (m z : Nat) (s : State) {i j : Nat}
    (h : P (s.zone i j)) : P ((setZone m z f s).zone i j) :=
  cell_upd_of (P := fun l : List ZoneT => P (cell l j {})) m (fun _ hl => cell_upd_of z hf hl) h

theorem zone_setZone {m z : Nat} {s : State} (h : s.hasZone m z) (f : ZoneT → ZoneT) : (setZone m z f s).zone m z = f (s.zone m z) := by
  have hm : m < s.fire.zones.length := by
    by_contra hm
    simp [State.hasZone, cell, List.getD_eq_getElem?_getD, List.getElem?_eq_none (Nat.le_of_not_lt hm)] at h
  change cell (cell (upd s.fire.zones m fun l => upd l z f) m []) z {} = _
  rw [cell_upd _ _ _ _ _ hm, if_pos rfl, cell_upd _ _ _ _ _ h, if_pos rfl]
  rfl

/-! ## A zone at T_TRIP (R196, R198) -/

theorem heatTrip_again {m z : Nat} {s : State} (h : (s.zone m z).trip = true ∨ s.cg.modules ≤ m) : heatTrip m z s = s := if_pos h

/-- The trip of a zone as it is marked: firing is held and ordered to stop. -/
def tripMarked (m z : Nat) (s : State) : State :=
  setZone m z (fun t => { t with trip := true }) (orderStop { s with fire := { s.fire with heatHold := true, resumeHeat := false } })

theorem heatTrip_onset {m z : Nat} {s : State} (hm : m < s.cg.modules) (h : (s.zone m z).trip = false) :
    (heatTrip m z s).fire = (tripMarked m z s).fire := by
  rw [heatTrip, if_neg (by simp [h, hm])]
  rfl

theorem heatTrip_cases (m z : Nat) (s : State) : heatTrip m z s = s ∨ (heatTrip m z s).fire = (tripMarked m z s).fire := by
  by_cases h : (s.zone m z).trip = true ∨ s.cg.modules ≤ m
  · exact .inl (heatTrip_again h)
  · exact .inr (heatTrip_onset (by simpa using fun hm => h (.inr hm)) (by simpa using fun ht => h (.inl ht)))

theorem heatTrip_cg (m z : Nat) (s : State) : (heatTrip m z s).cg = s.cg := by
  unfold heatTrip
  dsimp only
  split <;> rfl

theorem heatTrip_fitted {m i : Nat} (z : Nat) {s : State} (h : i < s.cg.modules) : i < (heatTrip m z s).cg.modules := by
  rwa [heatTrip_cg]

theorem heatTrip_hasZone (m z : Nat) (s : State) (i j : Nat) : (heatTrip m z s).hasZone i j ↔ s.hasZone i j := by
  rcases heatTrip_cases m z s with h | h
  · rw [h]
  · rw [hasZone_of_fire h]
    exact setZone_hasZone m z _ _ i j

theorem heatTrip_keeps {β : Type} (g : ZoneT → β) (h : ∀ x : ZoneT, g { x with trip := true } = g x) (m z : Nat) (s : State) (i j : Nat) :
    g ((heatTrip m z s).zone i j) = g (s.zone i j) := by
  rcases heatTrip_cases m z s with e | e
  · rw [e]
  · rw [zone_of_fire e]
    exact zone_setZone_keeps g h m z _ i j

theorem heatTrip_trips {m z : Nat} {s : State} (hm : m < s.cg.modules) (hz : s.hasZone m z) : ((heatTrip m z s).zone m z).trip = true := by
  cases h : (s.zone m z).trip with
  | true => rw [heatTrip_again (.inl h), h]
  | false =>
    rw [zone_of_fire (heatTrip_onset hm h)]
    exact congrArg ZoneT.trip (zone_setZone (s := orderStop _) hz _)

theorem heatTrip_holds {m z : Nat} {s : State} (hm : m < s.cg.modules) (h : (s.zone m z).trip = false) :
    (heatTrip m z s).fire.heatHold = true := congrArg Fire.heatHold (heatTrip_onset hm h)

theorem heatTrip_keepsHold (m z : Nat) {s : State} (h : s.fire.heatHold = true) : (heatTrip m z s).fire.heatHold = true := by
  rcases heatTrip_cases m z s with e | e
  · rw [e, h]
  · rw [e]; rfl

theorem heatTrip_keepsTrip (m z : Nat) {s : State} {i j : Nat} (h : (s.zone i j).trip = true) :
    ((heatTrip m z s).zone i j).trip = true := by
  rcases heatTrip_cases m z s with e | e
  · rw [e, h]
  · rw [zone_of_fire e]
    exact setZone_preserves (P := fun x => x.trip = true) (fun _ _ => rfl) m z _ h

/-! ## A reading arrives (R196 to R198) -/

/-- The state with the warning of a zone whose reading is at T_WARN or above. -/
def heatWarned (m z : Nat) (s : State) : State :=
  let v := (s.zone m z).reading
  let warn := match warnLevel s with
    | some w => decide (w ≤ v)
    | none => false
  if warn && !(s.zone m z).warn then
    stickEvent .heatWarn { ev := .heatWarn, source := 0x10 + m, p0 := w32 m, p1 := w32 z, p2 := w32 v }
      (setZone m z (fun t => { t with warn := true }) s)
  else s

section
variable {m z : Nat} {s : State}

theorem judgeZone_eq {T : Nat} (hm : m < s.cg.modules) (hT : tripLevel s = some T) : judgeZone m z s =
    if T ≤ (s.zone m z).reading then heatTrip m z (heatWarned m z s)
    else setZone m z (fun t => { t with trip := false }) (heatWarned m z s) := by
  unfold judgeZone
  rw [if_neg (Nat.not_le.mpr hm)]
  simp only [hT, decide_eq_true_eq]
  rfl

theorem heatWarned_fire (m z : Nat) (s : State) :
    (heatWarned m z s).fire = s.fire ∨ (heatWarned m z s).fire = (setZone m z (fun t => { t with warn := true }) s).fire := by
  unfold heatWarned
  extract_lets v warn
  split
  · exact .inr rfl
  · exact .inl rfl

theorem heatWarned_cg (m z : Nat) (s : State) : (heatWarned m z s).cg = s.cg := by
  unfold heatWarned
  extract_lets v warn
  split <;> rfl

theorem heatWarned_hold (m z : Nat) (s : State) : (heatWarned m z s).fire.heatHold = s.fire.heatHold := by
  rcases heatWarned_fire m z s with h | h <;> rw [h]
  rfl

theorem heatWarned_hasZone (i j : Nat) : (heatWarned m z s).hasZone i j ↔ s.hasZone i j := by
  rcases heatWarned_fire m z s with h | h
  · exact hasZone_of_fire h
  · exact (hasZone_of_fire h).trans (setZone_hasZone m z _ s i j)

theorem heatWarned_keeps {β : Type} (g : ZoneT → β) (h : ∀ x : ZoneT, g { x with warn := true } = g x) (i j : Nat) :
    g ((heatWarned m z s).zone i j) = g (s.zone i j) := by
  rcases heatWarned_fire m z s with e | e
  · rw [zone_of_fire e]
  · rw [zone_of_fire e]
    exact zone_setZone_keeps g h m z s i j

/-- The state that holds a reading that has arrived, before it is judged. -/
def readingHeld (m z v : Nat) (s : State) : State :=
  setLane m (fun l => { l with readAt := s.pos.mono }) (setZone m z (fun t => { t with reading := v, fresh := true, stale := false }) s)

theorem zoneReading_eq (m z v : Nat) (s : State) : zoneReading m z v s = judgeZone m z (readingHeld m z v s) := rfl

theorem readingHeld_tripLevel (m z v : Nat) (s : State) : tripLevel (readingHeld m z v s) = tripLevel s := by
  have hcap : ∀ i, ((readingHeld m z v s).lane i).capHeld = (s.lane i).capHeld := fun i =>
    cell_upd_keeps Lane.capHeld (f := fun l => { l with readAt := s.pos.mono }) (fun _ => rfl) s.hl.lanes m i {}
  have hlow : lowestTMax (readingHeld m z v s) = lowestTMax s := by
    simp only [lowestTMax, capOf, hcap]
    rfl
  rw [tripLevel, tripLevel, hlow]
  rfl

theorem readingHeld_zone {v : Nat} (hz : s.hasZone m z) :
    (readingHeld m z v s).zone m z = { s.zone m z with reading := v, fresh := true, stale := false } := zone_setZone hz _

theorem readingHeld_hasZone (m z v : Nat) (s : State) (i j : Nat) : (readingHeld m z v s).hasZone i j ↔ s.hasZone i j :=
  setZone_hasZone m z _ s i j

theorem heldWarned_hasZone (hz : s.hasZone m z) (v : Nat) : (heatWarned m z (readingHeld m z v s)).hasZone m z :=
  (heatWarned_hasZone m z).mpr ((readingHeld_hasZone m z v s m z).mpr hz)

theorem heldWarned_fitted (hm : m < s.cg.modules) (v : Nat) : m < (heatWarned m z (readingHeld m z v s)).cg.modules := by
  rw [heatWarned_cg]; exact hm

variable {v T : Nat} (hm : m < s.cg.modules) (hz : s.hasZone m z) (hT : tripLevel s = some T)
include hm hz hT

theorem zoneReading_high (hv : T ≤ v) : zoneReading m z v s = heatTrip m z (heatWarned m z (readingHeld m z v s)) := by
  rw [zoneReading_eq, judgeZone_eq (s := readingHeld m z v s) hm ((readingHeld_tripLevel m z v s).trans hT), readingHeld_zone hz]
  exact if_pos hv

theorem zoneReading_low (hv : v < T) :
    zoneReading m z v s = setZone m z (fun t => { t with trip := false }) (heatWarned m z (readingHeld m z v s)) := by
  rw [zoneReading_eq, judgeZone_eq (s := readingHeld m z v s) hm ((readingHeld_tripLevel m z v s).trans hT), readingHeld_zone hz]
  exact if_neg (Nat.not_le.mpr hv)

theorem zoneReading_trips (hv : T ≤ v) : ((zoneReading m z v s).zone m z).trip = true := by
  rw [zoneReading_high hm hz hT hv]
  exact heatTrip_trips (heldWarned_fitted hm v) (heldWarned_hasZone hz v)

/-- A zone's onset of T_TRIP holds firing. -/
theorem zoneReading_holds (hv : T ≤ v) (hn : (s.zone m z).trip = false) : (zoneReading m z v s).fire.heatHold = true := by
  rw [zoneReading_high hm hz hT hv]
  refine heatTrip_holds (heldWarned_fitted hm v) ?_
  rw [heatWarned_keeps ZoneT.trip (fun _ => rfl), readingHeld_zone hz]
  exact hn

theorem zoneReading_reading : ((zoneReading m z v s).zone m z).reading = v := by
  have hheld : ((heatWarned m z (readingHeld m z v s)).zone m z).reading = v := by
    rw [heatWarned_keeps ZoneT.reading (fun _ => rfl), readingHeld_zone hz]
  rcases Nat.lt_or_ge v T with hv | hv
  · rw [zoneReading_low hm hz hT hv, zone_setZone_keeps ZoneT.reading (f := fun t => { t with trip := false }) (fun _ => rfl), hheld]
  · rw [zoneReading_high hm hz hT hv, heatTrip_keeps ZoneT.reading (fun _ => rfl), hheld]

theorem zoneReading_cool (hv : v < T) :
    ((zoneReading m z v s).zone m z).trip = false ∧ (zoneReading m z v s).fire.heatHold = s.fire.heatHold := by
  rw [zoneReading_low hm hz hT hv]
  exact ⟨congrArg ZoneT.trip (zone_setZone (heldWarned_hasZone hz v) _), heatWarned_hold m z (readingHeld m z v s)⟩

end

/-! ## No reading for 20 µs (R196) -/

/-- The state in which every zone of module m is stale, and TEMP_STALE set. -/
def zonesStale (m : Nat) (s : State) : State :=
  stickRec (source := 0x10 + m) .tempStale (forAll (List.range 8) (fun z => setZone m z fun t => { t with stale := true, fresh := false }) s)

section
variable {m : Fin 16} {s : State}

theorem tempStale_fresh (h : s.pos.mono.toNat < (s.lane m).readAt.toNat + 20000) : exec (.tempStale m) s = .next s :=
  congrArg Host.Outcome.next (if_pos (.inl h))

theorem tempStale_due (hm : m.val < s.cg.modules) (ht : (s.lane m).readAt.toNat + 20000 ≤ s.pos.mono.toNat)
    (hz : ∃ z, z < 8 ∧ (s.zone m z).stale = false) :
    exec (.tempStale m) s = .next (forAll (List.range 8) (heatTrip m) (zonesStale m s)) := by
  obtain ⟨z, hlt, hstale⟩ := hz
  have hsome : (List.range 8).all (fun z => (s.zone m z).stale) = false :=
    List.all_eq_false.mpr ⟨z, List.mem_range.mpr hlt, by simp [hstale]⟩
  exact congrArg Host.Outcome.next (if_neg (by simp [hsome, hm, ht]))

end

section
variable {m : Nat} {s : State}

theorem zonesStale_cg (m : Nat) (s : State) : (zonesStale m s).cg = s.cg := forAll_cg _ _ s fun _ _ => rfl

theorem zonesStale_hasZone {z : Nat} (h : s.hasZone m z) : (zonesStale m s).hasZone m z :=
  forAll_keeps (P := State.hasZone m z) (fun k t => (setZone_hasZone m k _ t m z).mpr) _ h

theorem zonesStale_stale {z : Nat} (h : s.hasZone m z) (hz : z < 8) : ((zonesStale m s).zone m z).stale = true :=
  forAll_reaches (P := fun t => (t.zone m z).stale = true) (Q := State.hasZone m z) (List.mem_range.mpr hz)
    (fun k t => (setZone_hasZone m k _ t m z).mpr) (fun _ ht => congrArg ZoneT.stale (zone_setZone ht _))
    (fun k t => setZone_preserves (P := fun x => x.stale = true) (fun _ _ => rfl) m k t) h

theorem zonesStale_trip (z : Nat) : ((zonesStale m s).zone m z).trip = (s.zone m z).trip :=
  forAll_keeps (P := fun t => (t.zone m z).trip = (s.zone m z).trip)
    (fun k t ht => (zone_setZone_keeps ZoneT.trip (f := fun t => { t with stale := true, fresh := false }) (fun _ => rfl) m k t m z).trans ht) _ rfl

/-- Every zone of a fitted module trips. -/
theorem tripAll_trips {z : Nat} (hm : m < s.cg.modules) (h : s.hasZone m z) (hz : z < 8) :
    ((forAll (List.range 8) (heatTrip m) s).zone m z).trip = true :=
  forAll_reaches (P := fun t => (t.zone m z).trip = true) (Q := fun t => m < t.cg.modules ∧ t.hasZone m z) (List.mem_range.mpr hz)
    (fun k t ht => ⟨heatTrip_fitted k ht.1, (heatTrip_hasZone m k t m z).mpr ht.2⟩) (fun _ ht => heatTrip_trips ht.1 ht.2)
    (fun k _ => heatTrip_keepsTrip m k) ⟨hm, h⟩

/-- A module with a zone that has not tripped yet holds firing once all have: the first of them to trip does. -/
theorem tripAll_holds {z : Nat} (hm : m < s.cg.modules) (h : (s.zone m z).trip = false) (hz : z < 8) :
    (forAll (List.range 8) (heatTrip m) s).fire.heatHold = true := by
  have hready : ∀ (k : Nat) (t : State), m < t.cg.modules ∧ (t.fire.heatHold = true ∨ (t.zone m z).trip = false) →
      m < (heatTrip m k t).cg.modules ∧ ((heatTrip m k t).fire.heatHold = true ∨ ((heatTrip m k t).zone m z).trip = false) := by
    rintro k t ⟨hfit, ht⟩
    refine ⟨heatTrip_fitted k hfit, ?_⟩
    rcases heatTrip_cases m k t with e | e
    · rw [e]; exact ht
    · rw [e]; exact .inl rfl
  exact forAll_reaches (P := fun t => t.fire.heatHold = true) (List.mem_range.mpr hz) hready
    (fun t ht => ht.2.elim (heatTrip_keepsHold m z) (heatTrip_holds ht.1)) (fun k _ => heatTrip_keepsHold m k) ⟨hm, .inr h⟩

theorem tripAll_stale {z : Nat} : ((forAll (List.range 8) (heatTrip m) s).zone m z).stale = (s.zone m z).stale :=
  forAll_keeps (P := fun t => (t.zone m z).stale = (s.zone m z).stale)
    (fun k t ht => (heatTrip_keeps ZoneT.stale (fun _ => rfl) m k t m z).trans ht) _ rfl

end

theorem headHeat : Claims.HeadHeat := by
  refine ⟨fun m z v T s hm hz hlen _ hT => ?reading, fun m s hm hlen h8 ht hfresh hcool => ?stale, fun m s => tempStale_fresh⟩
  case reading =>
    have hzone : s.hasZone m z := hz.trans_eq hlen.symm
    refine ⟨fun hv => ?_, zoneReading_trips hm hzone hT, zoneReading_reading hm hzone hT, zoneReading_cool hm hzone hT⟩
    cases h : (s.zone m z).trip with
    | true => exact .inr rfl
    | false => exact .inl (zoneReading_holds hm hzone hT hv h)
  case stale =>
    have hzone : ∀ z, z < 8 → s.hasZone m z := fun z hz => by
      have hmem : cell s.fire.zones m [] ∈ s.fire.zones := by
        have hlt : m.val < s.fire.zones.length := hlen.symm ▸ m.isLt
        rw [cell, List.getD_eq_getElem _ _ hlt]
        exact List.getElem_mem hlt
      exact hz.trans_eq (h8 _ hmem).symm
    have hfit : m.val < (zonesStale m s).cg.modules := by rw [zonesStale_cg]; exact hm
    refine ⟨_, tempStale_due hm ht hfresh, tripAll_holds (z := 0) hfit ((zonesStale_trip 0).trans (hcool 0 (by decide))) (by decide),
      fun z hz => ⟨tripAll_trips hfit (zonesStale_hasZone (hzone z hz)) hz, ?_⟩⟩
    rw [tripAll_stale, zonesStale_stale (hzone z hz) hz]

/-! ## Overspeed (R200, R201) -/

/-- An overspeed stop as it is marked: firing is held and ordered to stop. -/
def overMarked (s : State) : State := orderStop { s with fire := { s.fire with overHold := true, slowdown := true, resumeReq := false } }

theorem overStop_fires {s : State} (hf : s.cg.fLim ≠ 0) (hr : 103 * s.cg.fLim < 100 * s.fire.rate.toNat) (ho : s.fire.overHold = false) :
    (overStop s).fire = (overMarked s).fire := by
  rw [overStop, if_neg (by simp [hf, hr, ho])]
  exact emit_fire _ _

theorem overStop_idle {s : State} (h : 100 * s.fire.rate.toNat ≤ 103 * s.cg.fLim ∨ s.fire.overHold = true) : overStop s = s := if_pos (.inr h)

theorem overStop_claim {s : State} (hf : s.cg.fLim ≠ 0) (hr : 103 * s.cg.fLim < 100 * s.fire.rate.toNat) : (overStop s).fire.overHold = true ∧
    (s.fire.overHold = false →
      (overStop s).fire.slowdown = true ∧ (overStop s).fire.resumeReq = false ∧ (overStop s).fire.stopAt.isSome = true) := by
  cases ho : s.fire.overHold with
  | true => exact ⟨by rw [overStop_idle (.inr ho), ho], nofun⟩
  | false =>
    rw [overStop_fires hf hr ho]
    exact ⟨rfl, fun _ => ⟨rfl, rfl, by simp [overMarked]⟩⟩

theorem overClear_waits {s : State} (h : s.fire.slowRun < 64) : overClear s = s := if_neg (by omega)

theorem overClear_ends {s : State} (ho : s.fire.overHold = true) (hr : 64 ≤ s.fire.slowRun) (ha : s.fire.autoResume = true) :
    (overClear s).fire.overHold = false ∧ (overClear s).fire.slowdown = false := by
  rw [overClear, if_pos ⟨ho, hr, .inl ha⟩, event_fire, emit_fire]
  exact ⟨rfl, rfl⟩

theorem diffuse_slow {s : State} (h : s.fire.rate.toNat ≤ s.cg.fLim ∨ s.cg.fLim = 0) :
    diffuse s = ((List.range 16).map fun m => m * 4096 % 65536, []) := if_pos h

theorem diffuse_stopped {s : State} (h : ¬ (s.fire.rate.toNat ≤ s.cg.fLim ∨ s.cg.fLim = 0)) (hr : ¬ 100 * s.fire.rate.toNat ≤ 103 * s.cg.fLim) :
    diffuse s = (s.fire.acc, []) := (if_neg h).trans (if_neg hr)

theorem diffuse_omitting {s : State} (h : ¬ (s.fire.rate.toNat ≤ s.cg.fLim ∨ s.cg.fLim = 0)) (hr : 100 * s.fire.rate.toNat ≤ 103 * s.cg.fLim) :
    (diffuse s).1 = (s.fire.acc.map (· + (65536 - 65536 * s.cg.fLim / s.fire.rate.toNat))).map fun a => if a ≥ 65536 then a - 65536 else a := by
  rw [diffuse, if_neg h, if_pos hr]

/-- An accumulator takes less than a whole line on, and gives a line up once it has one. -/
theorem diffuse_bounded {s : State} (hlen : s.fire.acc.length = 16) (hacc : ∀ a ∈ s.fire.acc, a < 65536) :
    (∀ a ∈ (diffuse s).1, a < 65536) ∧ (diffuse s).1.length = 16 := by
  by_cases h : s.fire.rate.toNat ≤ s.cg.fLim ∨ s.cg.fLim = 0
  · rw [diffuse_slow h]
    refine ⟨fun a ha => ?_, by simp⟩
    obtain ⟨m, -, rfl⟩ := List.mem_map.mp ha
    exact Nat.mod_lt _ (by decide)
  by_cases hr : 100 * s.fire.rate.toNat ≤ 103 * s.cg.fLim
  · rw [diffuse_omitting h hr]
    refine ⟨fun a ha => ?_, by simp [hlen]⟩
    simp only [List.map_map, List.mem_map, Function.comp_apply] at ha
    obtain ⟨b, hb, rfl⟩ := ha
    have hlt := hacc b hb
    generalize 65536 * s.cg.fLim / s.fire.rate.toNat = q
    split <;> omega
  · rw [diffuse_stopped h hr]
    exact ⟨hacc, hlen⟩

theorem overspeed : Claims.Overspeed :=
  ⟨fun _ => overStop_claim, fun _ => ⟨fun h => if_pos h, fun h => if_neg (Nat.not_le.mpr h)⟩,
    fun s h => by rw [overStop_idle (.inl h)]; exact ⟨rfl, rfl⟩, fun _ => diffuse_bounded, fun s h => by rw [diffuse_slow (.inl h)],
    fun _ _ => overClear_waits, fun _ => overClear_ends⟩

/-- Settles O32: a reading by how it is judged, the missing ones zone by zone, the speed by its range. -/
theorem heatAndSpeed : Obligations.HeatAndSpeed := ⟨headHeat, overspeed⟩

end Sys2Proof.Machine
end

section
/-!
PROOFS. The fire commands and the end of a resistance measurement (R198, R201 to R205, R208 to R212).
-/
namespace Sys2Proof.Machine

theorem onlyChanges_host_fire (s : State) (h : HostIf) (f : Fire) : OnlyChanges [.host, .fire] s { s with host := h, fire := f } := by
  intro p hp
  cases p <;> simp_all [State.agree]

theorem onlyChanges_fire_out (s : State) (f : Fire) (o : List Output) : OnlyChanges [.fire, .out] s { s with fire := f, out := o } := by
  intro p hp
  cases p <;> simp_all [State.agree]

/-- A field of n bits as a bit vector of n bits. -/
theorem fld_toNat (w : Word) (lo n : Nat) : (BitVec.ofNat n (fld w lo n)).toNat = fld w lo n := by
  simp [fld, bits]

section
variable {k : Fin 16} {c : RungCmd} {s : State}

/-! ## Status, configuration and resumption (R198, R201, R208, R209) -/

theorem fireGetStatus_answers (h : Rung 0x0500 1 k c s) (hb : s.host.opState ≠ .boot) (hw : (c.w 0).toNat < 2) :
    execFireGetStatus k s = .next (respond k (okWith (fireView s)) (if c.w 0 = 1 then { begun k s with fire := { s.fire with
      omitLines := 0, postpone := 0, slotOmit := 0, abandoned := 0, probeVisit := 0, probeSkip := 0 } } else begun k s)) := by
  have hclear : (if flag (c.w 0) 0 then { begun k s with fire := { s.fire with
        omitLines := 0, postpone := 0, slotOmit := 0, abandoned := 0, probeVisit := 0, probeSkip := 0 } } else begun k s) =
      if c.w 0 = 1 then { begun k s with fire := { s.fire with
        omitLines := 0, postpone := 0, slotOmit := 0, abandoned := 0, probeVisit := 0, probeSkip := 0 } } else begun k s := by
    rcases zero_or_one hw with h | h <;> rw [h] <;> rfl
  refine congrArg Host.Outcome.next (command_done h ?_ (congrArg (fun t => (t, some _)) hclear))
  simp only [passes_cons, passes_nil, and_true]
  exact ⟨reservedW_passes (reserved_clear (n := 1) hw), notBoot_passes hb⟩

theorem fireConfig_answers (h : Rung 0x0501 3 k c s) (hpitch : fld (c.w 0) 0 18 ≤ 0x8000) (hlow : 408 ≤ fld (c.w 0) 20 12)
    (hhigh : fld (c.w 0) 20 12 ≤ 3264) (h1 : c.w 1 &&& ~~~ 0x07FFFFFF = 0) (hmin : 2 ≤ fld (c.w 1) 16 8) (hmax : fld (c.w 1) 16 8 ≤ 40)
    (ht : ∀ t, lowestTMax s = some t → fld (c.w 1) 8 8 ≤ t) (hm : 0x9334 ≤ (c.w 2).toNat) (hM : (c.w 2).toNat ≤ 0xC000)
    (hf : s.host.firing = false) :
    execFireConfig k s = .next (respond k ok (judgeAll (slotAgain { begun k s with fire := { s.fire with
      slotPitch := fld (c.w 0) 0 18, rotate := flag (c.w 0) 18, autoResume := flag (c.w 0) 19, maxHeaters := fld (c.w 0) 20 12
      tWarn := some (fld (c.w 1) 0 8), tTrip := some (fld (c.w 1) 8 8), tHyst := fld (c.w 1) 16 8
      warnDerate := fld (c.w 1) 24 3, margin := (c.w 2).toNat } }))) := by
  have h16 : (c.w 2).toNat < 2 ^ 16 := by omega
  have hmargin : fld (c.w 2) 0 16 = (c.w 2).toNat := fld_of_lt h16
  have hwords : decide (fld (c.w 0) 0 18 > 0x8000 ∨ fld (c.w 0) 20 12 < 408 ∨ fld (c.w 0) 20 12 > 3264) = false :=
    decide_eq_false (by omega)
  have hhyst : decide (fld (c.w 1) 16 8 < 2 ∨ fld (c.w 1) 16 8 > 40) = false := decide_eq_false (by omega)
  have hhead : (match lowestTMax s with
      | some t => decide (t < fld (c.w 1) 8 8)
      | none => false) = false := by
    cases e : lowestTMax s with
    | none => rfl
    | some t => simpa using ht t e
  have hrange : decide (wn c.payload 2 % 65536 < 0x9334 ∨ wn c.payload 2 % 65536 > 0xC000) = false := by
    change decide ((c.w 2).toNat % 65536 < 0x9334 ∨ (c.w 2).toNat % 65536 > 0xC000) = false
    exact decide_eq_false (by omega)
  refine congrArg Host.Outcome.next (command_done h ?_ ?_)
  · simp only [passes_cons, passes_nil, and_true]
    exact ⟨hwords, Bool.or_eq_false_iff.mpr ⟨hhyst, hhead⟩, reservedW_passes h1, hrange, reservedW_passes (reserved_clear (n := 16) h16), hf⟩
  · dsimp only
    rw [show fld (wd c.payload 2) 0 16 = _ from hmargin]
    rfl

theorem opState_printOrService (h : s.host.opState = .print ∨ s.host.opState = .service) :
    (s.host.opState != .print && s.host.opState != .service) = false := by
  rcases h with e | e <;> rw [e] <;> rfl

section
variable (h : Rung 0x0502 0 k c s) (ho : s.host.opState = .print ∨ s.host.opState = .service)
include h ho

theorem fireResume_answers (hc : s.fire.heatHold = false ∨ coolEnough s = true) : execFireResume k s = .next (respond k ok
    { begun k s with fire := { s.fire with resumeHeat := s.fire.heatHold, resumeReq := s.fire.overHold } }) := by
  have hcool : (s.fire.heatHold && !coolEnough s) = false := by
    rcases hc with e | e <;> simp [e]
  refine congrArg Host.Outcome.next (command_done h ?_ rfl)
  simp only [passes_cons, passes_nil, opState_printOrService ho, hcool, and_self]

theorem fireResume_hot (hh : s.fire.heatHold = true) (hc : coolEnough s = false) :
    execFireResume k s = .next (respond k badState (begun k s)) := by
  refine congrArg Host.Outcome.next (command_refused h ?_)
  simp only [opState_printOrService ho, hh, hc, Bool.not_false, Bool.and_self, pick_false, pick_failed]

end

/-! ## Probe plans (R210) -/

/-- The plan that a FIRE_PROBE starts. -/
def probePlan (c : RungCmd) (s : State) : Probe :=
  { tag := c.tag, no := s.fire.plans, steps := fld (c.w 0) 4 4, stride := fld (c.w 0) 8 4, drops := fld (c.w 0) 12 5, epoch := c.w 1
    startLine := c.w 2, mods := BitVec.ofNat 16 (fld (c.w 3) 0 16), rows := BitVec.ofNat 4 (fld (c.w 3) 16 4) }

/-- The state in which a FIRE_PROBE's plan has been taken. -/
def probing (k : Fin 16) (c : RungCmd) (s : State) : State :=
  outstand 0x0503 c.tag 0 { begun k s with fire := { s.fire with probe := some (probePlan c s), plans := s.fire.plans + 1, probeVisit := 0 } }

theorem opState_readyOrPrint (h : s.host.opState = .ready ∨ s.host.opState = .print) :
    (s.host.opState != .ready && s.host.opState != .print) = false := by
  rcases h with e | e <;> rw [e] <;> rfl

theorem fireProbe_starts (h : Rung 0x0503 4 k c s) (hs : flag (c.w 0) 0 = true) (h0 : c.w 0 &&& ~~~ 0x1FFF1 = 0)
    (hshape : ¬ (fld (c.w 0) 4 4 < 1 ∨ fld (c.w 0) 4 4 > 8 ∨ fld (c.w 0) 8 4 < 1 ∨ fld (c.w 0) 8 4 > 8 ∨ fld (c.w 0) 12 5 < 2 ∨
      fld (c.w 0) 12 5 > 16)) (h3 : c.w 3 &&& ~~~ 0xFFFFF = 0) (hp : s.fire.probe = none)
    (ho : s.host.opState = .ready ∨ s.host.opState = .print) (hout : s.host.outst.length < 16) (hl : probeLate (c.w 1) (c.w 2) s = false) :
    execFireProbe k s = .next (respond k accepted (probing k c s)) := by
  refine congrArg Host.Outcome.next (command_done h ?_ (if_pos hs))
  simp only [passes_cons, passes_nil, and_true]
  refine ⟨reservedW_passes h0, ?_, reservedW_passes h3, ?_, opState_readyOrPrint ho, ?_, ?_⟩
  · exact (congrArg (flag (c.w 0) 0 && ·) (decide_eq_false hshape)).trans (Bool.and_false _)
  · simp [hp]
  · simp [hout]
  · exact (congrArg (flag (c.w 0) 0 && ·) hl).trans (Bool.and_false _)

theorem fireProbe_stops (h : Rung 0x0503 4 k c s) (h0 : c.w 0 = 0) (h3 : c.w 3 &&& ~~~ 0xFFFFF = 0)
    (ho : s.host.opState = .ready ∨ s.host.opState = .print) : execFireProbe k s = .next (respond k ok
      { begun k s with fire := { s.fire with probe := s.fire.probe.map fun p => { p with stopping := true } } }) := by
  have hstop : flag (wd c.payload 0) 0 = false := by rw [show wd c.payload 0 = 0 from h0]; rfl
  refine congrArg Host.Outcome.next (command_done h ?_ (if_neg (Bool.eq_false_iff.mp hstop)))
  simp only [passes_cons, passes_nil, hstop, Bool.false_and, and_true, true_and]
  exact ⟨reservedW_passes (by rw [show wd c.payload 0 = 0 from h0]; rfl), reservedW_passes h3, opState_readyOrPrint ho⟩

/-! ## Resistance measurement (R202, R203, R211) -/

theorem fireMeasureR_answers (h : Rung 0x0504 3 k c s) (hw : (c.w 0).toNat < 65536) (ha : (c.w 1).toNat % 4096 = 0) (hm : s.fire.meas = none)
    (ho : s.host.opState = .ready ∨ s.host.opState = .service ∨ s.host.opState = .print) (hr : s.twin.role = .solo ∨ s.twin.role = .active)
    (hf : s.host.firing = false) (hout : s.host.outst.length < 16) :
    execFireMeasureR k s = .next (respond k accepted (outstand 0x0504 c.tag 0 { begun k s with fire := { s.fire with
      meas := some { tag := c.tag, mods := s.fitted.filter fun m => (c.w 0).getLsbD m, addr := wn64 c.payload 1 } } })) := by
  have hstate : (s.host.opState != .ready && s.host.opState != .service && s.host.opState != .print) = false := by
    rcases ho with e | e | e <;> rw [e] <;> rfl
  have hrole : (s.twin.role != .solo && s.twin.role != .active) = false := by
    rcases hr with e | e <;> rw [e] <;> rfl
  have h0 : (reservedW c.payload 0 0xFFFF).1 = false := reservedW_passes (reserved_clear (n := 16) hw)
  have h1 : (wn c.payload 1 % 4096 != 0) = false := by simpa [wn, RungCmd.w] using ha
  refine congrArg Host.Outcome.next (command_done h ?_ rfl)
  simp only [passes_cons, passes_nil, h0, h1, hm, hstate, hrole, hf, completionsFull_passes hout, Option.isSome_none, and_self]

end

/-- The buffer of a measurement (R203): two bytes for each heater of every module, 0 for those without a reading. -/
def ohmBytes (j : MeasJob) (s : State) : List Byte :=
  (List.range (13056 * s.cg.modules)).flatMap fun i => bytesLE 2 ((find? j.readings i).getD 0)

theorem ohmBytes_length (j : MeasJob) (s : State) : (ohmBytes j s).length = 26112 * s.cg.modules := by
  simp only [ohmBytes, List.length_flatMap, length_bytesLE, List.map_const', List.length_range, List.sum_replicate, smul_eq_mul]
  omega

section
variable {j : MeasJob} {s : State} (hj : s.fire.meas = some j) (hf : measureFull j s = true)
include hj hf

theorem fireMeasureRDone_unwritten : execFireMeasureRDone false s = .next (endMeasure j 0x30 0 0 0 s) := by
  simp [execFireMeasureRDone, hj, hf]

theorem fireMeasureRDone_written (hb : s.host.busMaster = true) : ∃ o sh mid, execFireMeasureRDone true s =
    .next (endMeasure j 0 o sh mid { s with fire := { s.fire with ohms := j.readings }, out := .dmaWrite j.addr (ohmBytes j s) :: s.out }) := by
  simp only [execFireMeasureRDone, hj, hf, hb, Bool.not_true, Bool.false_eq_true, or_self, if_false]
  exact ⟨_, _, _, rfl⟩

end

/-! ## Maintenance spitting (R204, R212) -/

section
variable {k : Fin 16} {c : RungCmd} {s : State}

/-- The first image line that no slice of a fitted module has begun. -/
def firstUnbegun (s : State) : Nat := maxOf (s.fitted.map fun m => (s.slice m).next + b2n (s.slice m).busy.isSome)

/-- The run that a FIRE_SPIT starts. -/
def spitRun (c : RungCmd) (s : State) : SpitJob :=
  { tag := c.tag, lines := fld (c.w 0) 0 16, drop := fld (c.w 0) 16 2, rate := (c.w 1).toNat, mods := BitVec.ofNat 16 (c.w 2).toNat
    first := max (firstUnbegun s) (s.pos.absHigh + 17), tick := s.pos.mono }

/-- The state in which a FIRE_SPIT's run has been taken. -/
def spitting (k : Fin 16) (c : RungCmd) (s : State) : State :=
  outstand 0x0505 c.tag 0 { begun k s with fire := { s.fire with spit := some (spitRun c s) } }

variable (h : Rung 0x0505 3 k c s) (h0 : c.w 0 &&& ~~~ 0x3FFFF = 0) (hd : fld (c.w 0) 16 2 ≠ 0) (hlow : 1000 ≤ (c.w 1).toNat)
  (hhigh : (c.w 1).toNat ≤ 20000) (hm : (c.w 2).toNat < 65536) (ho : s.host.opState = .service) (hs : s.fire.spit = none)
include h h0 hd hlow hhigh hm ho hs

theorem fireSpit_starts (h2 : s.permits 2 = true) (h3 : s.permits 3 = true) (h4 : s.permits 4 = true) (hout : s.host.outst.length < 16) :
    execFireSpit k s = .next (respond k accepted (spitting k c s)) := by
  have hnone : firstMissing [2, 3, 4] s = none := by simp [firstMissing, h2, h3, h4]
  refine congrArg Host.Outcome.next (command_done h ?_ rfl)
  simp only [passes_cons, passes_nil, and_true]
  exact ⟨beq_eq_false_iff_ne.mpr hd, reservedW_passes h0, decide_eq_false (by change ¬ ((c.w 1).toNat < 1000 ∨ (c.w 1).toNat > 20000); omega),
    reservedW_passes (reserved_clear (n := 16) hm), by simp [ho, hs], by simp [hnone], completionsFull_passes hout⟩

/-- A missing permission comes before a completion too many (R51). -/
theorem fireSpit_blocked (h2 : s.permits 2 = false) : execFireSpit k s = .next (respond k (safetyBlocked 2) (begun k s)) := by
  have hmiss : firstMissing [2, 3, 4] s = some 2 := by simp [firstMissing, h2]
  have hdrop : (fld (wd c.payload 0) 16 2 == 0) = false := beq_eq_false_iff_ne.mpr hd
  have hrate : decide (wn c.payload 1 < 1000 ∨ wn c.payload 1 > 20000) = false :=
    decide_eq_false (by change ¬ ((c.w 1).toNat < 1000 ∨ (c.w 1).toNat > 20000); omega)
  have hstate : (s.host.opState != .service || s.fire.spit.isSome) = false := by simp [ho, hs]
  refine congrArg Host.Outcome.next (command_refused h ?_)
  simp only [hdrop, hrate, hstate, hmiss, pick_false, pick_passed (reservedW_passes h0),
    pick_passed (reservedW_passes (reserved_clear (n := 16) hm) : (reservedW c.payload 2 0xFFFF).1 = false), Option.isSome_some, Option.getD_some]
  exact pick_first fun b hb => by
    simp only [List.mem_singleton, completionsFull, Prod.mk.injEq] at hb
    rw [hb.2]
    decide

end

/-- Settles O33: each command by its checks and its effect. -/
theorem fireCommands : Obligations.FireCommands := by
  refine ⟨fun k c s => fireGetStatus_answers, fun k c s => fireConfig_answers,
    fun k c s h ho => ⟨fireResume_answers h ho, fireResume_hot h ho⟩,
    fun k c s h hs h0 hs1 hs8 ht1 ht8 hd2 hd16 h3 hp ho hout hl => ⟨probing k c s, probePlan c s,
      fireProbe_starts h hs h0 (by omega) h3 hp ho hout hl, onlyChanges_host_fire (begun k s) _ _,
      rfl, rfl, rfl, rfl, rfl, rfl, rfl, rfl, fld_toNat _ 0 16, fld_toNat _ 16 4⟩,
    fun k c s => fireProbe_stops, fun k c s => fireMeasureR_answers,
    fun j s hj hf => ⟨fireMeasureRDone_unwritten hj hf, fun hb => ?measured⟩,
    fun k c s h h0 hd hlow hhigh hm ho hs h2 h3 h4 hout => ⟨spitting k c s, spitRun c s,
      fireSpit_starts h h0 hd hlow hhigh hm ho hs h2 h3 h4 hout, onlyChanges_host_fire (begun k s) _ _, rfl, rfl, rfl, rfl, rfl,
      Nat.mod_eq_of_lt hm, le_max_right _ _⟩,
    fun k c s => fireSpit_blocked⟩
  obtain ⟨o, sh, mid, he⟩ := fireMeasureRDone_written hj hf hb
  exact ⟨_, ohmBytes j s, o, sh, mid, he, onlyChanges_fire_out s _ _, rfl, ohmBytes_length j s, rfl⟩

end Sys2Proof.Machine
end

section
/-!
PROOFS. Lanes: what an update of a lane and its entry into a state leave and write (R218 to R222, R242).
-/
namespace Sys2Proof.Machine

/-! ## One lane among the sixteen -/

theorem lane_of_hl {s t : State} (h : t.hl = s.hl) (j : Nat) : t.lane j = s.lane j := congrArg (fun x : Hlink => cell x.lanes j {}) h

theorem lane_setLane_same {m : Nat} {f : Lane → Lane} {s : State} (h : m < s.hl.lanes.length) : (setLane m f s).lane m = f (s.lane m) :=
  (cell_upd _ _ _ _ _ h).trans (if_pos rfl)

theorem lane_setLane_other {m j : Nat} (f : Lane → Lane) (s : State) (h : j ≠ m) : (setLane m f s).lane j = s.lane j := by
  simp [State.lane, cell, upd, List.getD_eq_getElem?_getD, h.symm]

/-- What an update of a lane keeps, each lane keeps. -/
theorem lane_setLane_keeps {β : Type} (g : Lane → β) {f : Lane → Lane} (h : ∀ x, g (f x) = g x) (m j : Nat) (s : State) :
    g ((setLane m f s).lane j) = g (s.lane j) := cell_upd_keeps g h _ m j _

theorem setLane_setLane (m : Nat) (f g : Lane → Lane) (s : State) : setLane m g (setLane m f s) = setLane m (g ∘ f) s :=
  congrArg (fun l : List Lane => { s with hl := { s.hl with lanes := l } }) (upd_upd _ _ _ _)

theorem setLane_length (m : Nat) (f : Lane → Lane) (s : State) : (setLane m f s).hl.lanes.length = s.hl.lanes.length := length_upd _ _ _

/-! ## Entry into a state (R218) -/

/-- A lane as it enters a state. -/
def Lane.enter (st : LaneState) (now : Dword) (l : Lane) : Lane :=
  { l with st := st, tsCount := 0, enteredAt := now, detectAt := none, txq := [] }

section
variable {m : Nat} {st : LaneState} {s : State}

theorem enterLane_hl : (enterLane m st s).hl = (setLane m (Lane.enter st s.pos.mono) s).hl := emit_hl _ _

theorem enterLane_lane_same (h : m < s.hl.lanes.length) : (enterLane m st s).lane m = (s.lane m).enter st s.pos.mono :=
  (lane_of_hl enterLane_hl m).trans (lane_setLane_same h)

theorem enterLane_lane_other {j : Nat} (h : j ≠ m) : (enterLane m st s).lane j = s.lane j :=
  (lane_of_hl enterLane_hl j).trans (lane_setLane_other _ s h)

theorem enterLane_length : (enterLane m st s).hl.lanes.length = s.hl.lanes.length :=
  (congrArg (fun x : Hlink => x.lanes.length) enterLane_hl).trans (setLane_length m _ s)

/-- An update of a lane, and then its entry into a state. -/
theorem enterLane_setLane_same (f : Lane → Lane) (h : m < s.hl.lanes.length) :
    (enterLane m st (setLane m f s)).lane m = (f (s.lane m)).enter st s.pos.mono := by
  rw [enterLane_lane_same ((setLane_length m f s).symm ▸ h), lane_setLane_same h, setLane_pos]

theorem enterLane_setLane_other (f : Lane → Lane) {j : Nat} (h : j ≠ m) : (enterLane m st (setLane m f s)).lane j = s.lane j :=
  (enterLane_lane_other h).trans (lane_setLane_other f s h)

theorem enterLane_setLane_onlyChanges (f : Lane → Lane) : OnlyChanges [.hl, .out] s (enterLane m st (setLane m f s)) :=
  ((setLane_onlyChanges m f s).mono (by decide)).trans (enterLane_onlyChanges m st _)

end

/-! ## A lane that begins anew, is disabled, or is held (R219, R222, R248) -/

section
variable {m : Nat} {s : State}

theorem leaveActive_hl : (leaveActive m s).hl = s.hl := (leaveActive_onlyChanges m s .hl (by decide)).symm

theorem leaveActive_pos : (leaveActive m s).pos = s.pos := (leaveActive_onlyChanges m s .pos (by decide)).symm

theorem toDetect_lane_same (h : m < s.hl.lanes.length) : (toDetect m s).lane m = (s.lane m).forget.enter .detect s.pos.mono := by
  rw [toDetect, enterLane_setLane_same _ (leaveActive_hl.symm ▸ h), lane_of_hl leaveActive_hl, leaveActive_pos]

theorem toDetect_lane_other {j : Nat} (h : j ≠ m) : (toDetect m s).lane j = s.lane j :=
  (enterLane_setLane_other _ h).trans (lane_of_hl leaveActive_hl j)

theorem toDetect_length : (toDetect m s).hl.lanes.length = s.hl.lanes.length := by
  rw [toDetect, enterLane_length, setLane_length, leaveActive_hl]

theorem toDisabled_lane_other {j : Nat} (h : j ≠ m) : (toDisabled m s).lane j = s.lane j := by
  unfold toDisabled
  split
  · exact lane_setLane_other _ s h
  · exact (enterLane_setLane_other _ h).trans (lane_of_hl leaveActive_hl j)

theorem toDisabled_lane_same (h : m < s.hl.lanes.length) : ((toDisabled m s).lane m).enabled = false ∧
    ((toDisabled m s).lane m).st = .disabled ∧ ((toDisabled m s).lane m).nextCfg = (s.lane m).nextCfg := by
  unfold toDisabled
  split
  next hst =>
    rw [lane_setLane_same h]
    exact ⟨rfl, hst, rfl⟩
  next =>
    rw [enterLane_setLane_same _ (leaveActive_hl.symm ▸ h), lane_of_hl leaveActive_hl]
    exact ⟨rfl, rfl, rfl⟩

theorem toDisabled_length : (toDisabled m s).hl.lanes.length = s.hl.lanes.length := by
  unfold toDisabled
  split
  · exact setLane_length m _ s
  · rw [enterLane_length, setLane_length, leaveActive_hl]

/-- A record that fails leaves what was accepted before it, and the latency (R222). -/
theorem rejectCap_lane {r : Nat} (h : m < s.hl.lanes.length) : ((rejectCap m r s).lane m).st = .held ∧
    ((rejectCap m r s).lane m).heldReason = r ∧ ((rejectCap m r s).lane m).capHeld = (s.lane m).capHeld ∧
    ((rejectCap m r s).lane m).lat = (s.lane m).lat := by
  have hlane : (rejectCap m r s).lane m = _ :=
    enterLane_setLane_same (st := .held) (fun l => { l with heldReason := r, capOk := false, capNext := none }) h
  rw [hlane]
  exact ⟨rfl, rfl, rfl, rfl⟩

theorem rejectCap_onlyChanges (r : Nat) : OnlyChanges [.hl, .host, .pers, .out] s (rejectCap m r s) :=
  ((enterLane_setLane_onlyChanges _).mono (by decide)).trans ((withLog_onlyChanges _ _).mono (by decide))

theorem toRecovery_lane {cause : Nat} (h : m < s.hl.lanes.length) : (toRecovery m cause s).lane m =
    ({ s.lane m with recoveries := satAdd (s.lane m).recoveries 1, resend := [] }).enter .recovery s.pos.mono :=
  enterLane_setLane_same (fun l => { l with recoveries := satAdd l.recoveries 1, resend := [] }) h

theorem toRecovery_onlyChanges (cause : Nat) : OnlyChanges [.hl, .host, .pers, .out] s (toRecovery m cause s) :=
  ((enterLane_setLane_onlyChanges _).mono (by decide)).trans ((withLog_onlyChanges _ _).mono (by decide))

end

/-! ## A lane that becomes ACTIVE (R188, R218, R242) -/

/-- A lane but for its store load. -/
def Lane.sansLoad (l : Lane) : Lane :=
  { l with loadId := 0, loadBank := false, tblQueue := [], loadGroup := none, loadWait := [], loaded := false }

section
variable {m : Nat} {s : State}

theorem queueLoad_sansLoad (g j : Nat) : ((queueLoad g m s).lane j).sansLoad = (s.lane j).sansLoad := by
  unfold queueLoad startLoad
  split <;> exact lane_setLane_keeps Lane.sansLoad (by intro; rfl) m j s

/-- Whatever is loaded, the lane itself is ACTIVE as it stands. -/
theorem toActive_lane (fresh : Bool) (h : m < s.hl.lanes.length) : ((toActive m fresh s).lane m).sansLoad =
    (({ s.lane m with upAt := s.pos.mono, resend := [] }).enter .active s.pos.mono).sansLoad := by
  have hup := congrArg Lane.sansLoad
    (enterLane_setLane_same (st := .active) (fun l => { l with upAt := s.pos.mono, resend := [] }) h)
  unfold toActive
  dsimp only
  split
  · exact (queueLoad_sansLoad 4 m).trans hup
  · exact hup

end

end Sys2Proof.Machine
end

section
/-!
PROOFS. Lane training (R217, R218, R223) and capability records (R222).
-/
namespace Sys2Proof.Machine

/-! ## DETECT (R218) -/

/-- A lane in DETECT has looked for a receiver. -/
def detected (m : Nat) (s : State) : State := emit (.lane m .detect) (setLane m (fun l => { l with detectAt := some s.pos.mono }) s)

/-- A lane's settings take effect (R248). -/
def Lane.configured (l : Lane) : Lane := { l with
  swing := l.nextCfg.1, deemph := l.nextCfg.2.1, ctleFixed := l.nextCfg.2.2.1, ctleBoost := l.nextCfg.2.2.2
  ctle := if l.nextCfg.2.2.1 then l.nextCfg.2.2.2 else l.ctle }

theorem detected_hl (m : Nat) (s : State) : (detected m s).hl = (setLane m (fun l => { l with detectAt := some s.pos.mono }) s).hl := emit_hl _ _

theorem detected_onlyChanges (m : Nat) (s : State) : OnlyChanges [.hl, .out] s (detected m s) :=
  ((setLane_onlyChanges m _ s).mono (by decide)).trans ((emit_onlyChanges _ _).mono (by decide))

section
variable {m : Fin 16} {s : State}

theorem receiverDetect_due (hst : (s.lane m).st = .detect) (hi : (s.lane m).idleHeld = false) (hp : s.twin.prsnt = true)
    (ho : (cell s.pwr.islands 2 {}).on = true) (hd : ∀ x, (s.lane m).detectAt = some x → x.toNat + 1000000 ≤ s.pos.mono.toNat) (a b : Bool) :
    exec (.receiverDetect m a b) s =
      .next (if a = true ∧ b = true then enterLane m .poll (setLane m Lane.configured (detected m s)) else detected m s) := by
  change execReceiverDetect m a b s = _
  unfold execReceiverDetect
  cases e : (s.lane m).detectAt with
  | none => simp only [hst, hi, hp, ho, e]; rfl
  | some x => simp only [hst, hi, hp, ho, e, hd x e]; rfl

theorem receiverDetect_early {x : Dword} (a b : Bool) (hd : (s.lane m).detectAt = some x) (ht : s.pos.mono.toNat < x.toNat + 1000000) :
    exec (.receiverDetect m a b) s = .next s := by
  change execReceiverDetect m a b s = _
  simp [execReceiverDetect, hd, ht]

theorem detected_configured_lane (h : m < s.hl.lanes.length) : (enterLane m .poll (setLane m Lane.configured (detected m s))).lane m =
    ({ s.lane m with detectAt := some s.pos.mono } : Lane).configured.enter .poll s.pos.mono := by
  have hl : m < (detected m s).hl.lanes.length := by rw [detected_hl, setLane_length]; exact h
  rw [enterLane_setLane_same _ hl, lane_of_hl (detected_hl m s), lane_setLane_same h]
  exact congrArg (fun p : Pos => Lane.enter .poll p.mono _) (emit_pos _ _)

end

/-! ## Training sets (R218, R224) -/

/-- One more training set of the state has come. -/
def Lane.counted (l : Lane) : Lane := { l with tsCount := l.tsCount + 1 }

/-- A training set with the right check byte is not discarded. -/
theorem trainingSet_taken {ty v c : Byte} (hg : setGood ty v c = true) (ht : ty = 1 ∨ ty = 2) :
    ¬ ((!setGood ty v c) = true ∨ (ty ≠ 1 ∧ ty ≠ 2)) :=
  fun | .inl e => by simp [hg] at e
      | .inr ⟨h1, h2⟩ => ht.elim h1 h2

section
variable {m : Fin 16} {ty v c : Byte} {s : State} (hi : (s.lane m).idleHeld = false)
include hi

theorem trainingSetRx_pollOther (hst : (s.lane m).st = .poll) (h : setGood ty v c = false ∨ (ty ≠ 1 ∧ ty ≠ 2)) :
    exec (.trainingSetRx m (ty, v) c) s = .next (setLane m (fun l => { l with tsCount := 0 }) s) :=
  congrArg Host.Outcome.next ((if_neg (by simp [hi])).trans ((if_pos (h.imp_left (by simp))).trans (if_pos hst)))

theorem trainingSetRx_poll (hst : (s.lane m).st = .poll) (hg : setGood ty v c = true) (ht : ty = 1 ∨ ty = 2) :
    exec (.trainingSetRx m (ty, v) c) s = .next (if 8 ≤ (s.lane m).tsCount + 1 then
      enterLane m .equalise (setLane m (fun l => { l with passedPoll := true, ctleDone := l.ctleFixed }) s)
      else setLane m Lane.counted s) := by
  refine congrArg Host.Outcome.next ((if_neg (by simp [hi])).trans ((if_neg (trainingSet_taken hg ht)).trans ?_))
  rw [hst]
  rfl

theorem trainingSetRx_config (hst : (s.lane m).st = .config) (hg : setGood 2 v c = true) (hv : v.toNat = m.val) :
    exec (.trainingSetRx m (2, v) c) s = .next (configDone m (setLane m Lane.counted s)) := by
  have h7 : v.getLsbD 7 = false := Nat.testBit_lt_two_pow (hv ▸ m.isLt.trans (by decide))
  have hm : v.toNat % 16 = m.val := by rw [hv, Nat.mod_eq_of_lt m.isLt]
  refine congrArg Host.Outcome.next ((if_neg (by simp [hi])).trans ((if_neg (trainingSet_taken hg (.inr rfl))).trans ?_))
  rw [hst]
  exact if_pos (by rw [h7, hm]; simp)

theorem trainingSetRx_recovery (hst : (s.lane m).st = .recovery) (hg : setGood 1 v c = true) (hn : 8 ≤ (s.lane m).tsCount + 1) :
    exec (.trainingSetRx m (1, v) c) s = .next (toActive m false s) := by
  refine congrArg Host.Outcome.next ((if_neg (by simp [hi])).trans ((if_neg (trainingSet_taken hg (.inl rfl))).trans ?_))
  rw [hst]
  exact (if_neg (by decide)).trans (if_pos hn)

end

/-! ## The CTLE (R217) -/

/-- The better of two boosts, on a tie the first. -/
def betterBoost (eyes : List (BitVec 16)) (b i : Nat) : Nat := if eyeArea (cell eyes b 0) < eyeArea (cell eyes i 0) then i else b

/-- A boost is the first of those with the widest eye among the first n. -/
def BestOf (eyes : List (BitVec 16)) (n b : Nat) : Prop := b < n ∧
  ∀ i, i < n → eyeArea (cell eyes i 0) ≤ eyeArea (cell eyes b 0) ∧ (i < b → eyeArea (cell eyes i 0) < eyeArea (cell eyes b 0))

theorem foldl_betterBoost (eyes : List (BitVec 16)) (n : Nat) : BestOf eyes (n + 1) ((List.range (n + 1)).foldl (betterBoost eyes) 0) := by
  induction n with
  | zero =>
    have h0 : (List.range 1).foldl (betterBoost eyes) 0 = 0 := if_neg (Nat.lt_irrefl _)
    rw [zero_add, h0]
    exact ⟨Nat.one_pos, fun i hi => by obtain rfl := Nat.lt_one_iff.mp hi; exact ⟨le_rfl, fun h => absurd h (Nat.lt_irrefl 0)⟩⟩
  | succ n ih =>
    rw [List.range_succ, List.foldl_append, List.foldl_cons, List.foldl_nil]
    generalize (List.range (n + 1)).foldl (betterBoost eyes) 0 = b at ih
    obtain ⟨hb, hbest⟩ := ih
    unfold betterBoost
    split
    next hlt =>
      refine ⟨Nat.lt_succ_self _, fun i hi => ?_⟩
      rcases Nat.lt_succ_iff_lt_or_eq.mp hi with h | rfl
      · exact ⟨((hbest i h).1.trans_lt hlt).le, fun _ => (hbest i h).1.trans_lt hlt⟩
      · exact ⟨le_rfl, fun h => absurd h (Nat.lt_irrefl _)⟩
    next hge =>
      refine ⟨hb.trans (Nat.lt_succ_self _), fun i hi => ?_⟩
      rcases Nat.lt_succ_iff_lt_or_eq.mp hi with h | rfl
      · exact hbest i h
      · exact ⟨Nat.le_of_not_lt hge, fun h => absurd (h.trans hb) (Nat.lt_irrefl _)⟩

theorem bestBoost_best (eyes : List (BitVec 16)) : BestOf eyes 16 (bestBoost eyes) := foldl_betterBoost eyes 15

/-- A lane whose CTLE has settled on a boost. -/
def Lane.settled (eyes : List (BitVec 16)) (l : Lane) : Lane :=
  { l with ctle := bestBoost eyes, ctleDone := true, eye := cell eyes (bestBoost eyes) 0 }

section
variable {m : Fin 16} {s : State}

theorem ctleSettled_due {w h : List Byte} (hst : (s.lane m).st = .equalise) (hf : (s.lane m).ctleFixed = false) (hd : (s.lane m).ctleDone = false)
    (ht : (s.lane m).enteredAt.toNat + 1024000 ≤ s.pos.mono.toNat) :
    exec (.ctleSettled m w h) s = .next (equaliseDone m (setLane m (Lane.settled (eyesOf w h)) s)) :=
  congrArg Host.Outcome.next (if_neg (by simp [hst, hf, hd, Lane.inStateFor, ht]))

theorem equaliseDone_settled (hst : (s.lane m).st = .equalise) (hd : (s.lane m).ctleDone = true) :
    equaliseDone m s = if 8 ≤ (s.lane m).tsCount then enterLane m .config s else s := by
  simp [equaliseDone, hst, hd]

/-! ## Records (R222) and CONFIG (R218) -/

/-- LATENCY begins with no echo sent (R223). -/
def Lane.unechoed (l : Lane) : Lane := { l with echoSent := 0, echoSeen := 0, echoIds := 0, echoSum := 0 }

theorem configDone_accepted (hst : (s.lane m).st = .config) (hc : (s.lane m).capOk = true) :
    configDone m s = if 8 ≤ (s.lane m).tsCount then enterLane m .latency (setLane m Lane.unechoed s) else s := by
  simp only [configDone, hst, hc, true_and, ge_iff_le]
  rfl

/-- A lane whose record has passed all checks but that of the latency. -/
def Lane.recorded (ws : List Word) (l : Lane) : Lane := { l with cap := some ws, capOk := true, capNext := some ws }

theorem capBlockRx_passes {ws : List Word} (hst : (s.lane m).st = .config) (hc : capReason m (ws.take 16) none = none) :
    exec (.capBlockRx m ws) s = .next (configDone m (setLane m (Lane.recorded (ws.take 16)) s)) := by
  change execCapBlockRx m ws s = _
  simp only [execCapBlockRx, hst, hc, setLane_setLane]
  rfl

theorem capBlockRx_fails {ws : List Word} {r : Nat} (hst : (s.lane m).st = .config) (hc : capReason m (ws.take 16) none = some r) :
    exec (.capBlockRx m ws) s = .next (rejectCap m r (setLane m (fun l => { l with cap := some (ws.take 16) }) s)) := by
  change execCapBlockRx m ws s = _
  simp only [execCapBlockRx, hst, hc]

/-! ## Echoes (R223) -/

theorem echoSend_due (hst : (s.lane m).st = .latency) (hi : (s.lane m).idleHeld = false) (hn : (s.lane m).echoSent < 16)
    (hd : (s.lane m).echoSent = 0 ∨ (s.lane m).echoAt.toNat + 4000 ≤ s.pos.mono.toNat) :
    exec (.echoSend m) s = .next (emit (.lane m (orderedSet .k28_5 4 (s.lane m).echoSent))
      (setLane m (fun l => { l with echoSent := l.echoSent + 1, echoAt := s.pos.mono }) s)) :=
  congrArg Host.Outcome.next (if_neg (by simp [hst, hi, hn, hd]))

theorem echoSend_early (hs : (s.lane m).echoSent ≠ 0) (ht : s.pos.mono.toNat < (s.lane m).echoAt.toNat + 4000) :
    exec (.echoSend m) s = .next s :=
  congrArg Host.Outcome.next (if_pos (by simp [hs, ht]))

/-- A lane that has counted an ECHO return. -/
def Lane.echoed (id : Byte) (trip : Nat) (l : Lane) : Lane :=
  { l with echoIds := l.echoIds ||| (1#16 <<< id.toNat), echoSeen := l.echoSeen + 1, echoSum := l.echoSum + trip }

theorem echoReturnRx_ignored {id c : Byte} (trip : Nat) (h : setGood 5 id c = false ∨ (s.lane m).echoIds.getLsbD id.toNat = true) :
    exec (.echoReturnRx m ⟨id, c, trip⟩) s = .next s :=
  congrArg Host.Outcome.next (if_pos (h.imp (fun e => by rw [e]; rfl) fun e => .inr (.inr e)))

section
variable {id c : Byte} {trip : Nat} (hst : (s.lane m).st = .latency) (hg : setGood 5 id c = true) (hn : id.toNat < (s.lane m).echoSent)
  (hnew : (s.lane m).echoIds.getLsbD id.toNat = false)
include hst hg hn hnew

/-- An identifier sent and not seen before is not discarded. -/
theorem echo_taken : ¬ ((!setGood 5 id c) = true ∨ (s.lane m).st ≠ .latency ∨ (s.lane m).echoSent ≤ id.toNat ∨
    (s.lane m).echoIds.getLsbD id.toNat = true) := by
  rintro (e | e | e | e)
  · rw [hg] at e
    exact absurd e (by decide)
  · exact e hst
  · exact Nat.not_le.mpr hn e
  · rw [hnew] at e
    exact absurd e (by decide)

theorem echoReturnRx_counts (hlast : (s.lane m).echoSeen + 1 < 16) :
    exec (.echoReturnRx m ⟨id, c, trip⟩) s = .next (setLane m (Lane.echoed id trip) s) :=
  congrArg Host.Outcome.next ((if_neg (echo_taken hst hg hn hnew)).trans (if_pos hlast))

/-- The 16th return gives the latency, by which the lane becomes ACTIVE or is held. -/
theorem echoReturnRx_last {lat : Nat} (hlast : (s.lane m).echoSeen = 15)
    (hlat : lat = latOf ((s.lane m).echoSum + trip) (fld (wd ((s.lane m).capNext.getD []) 7) 16 16)) :
    exec (.echoReturnRx m ⟨id, c, trip⟩) s = .next (if 320 < lat
      then rejectCap m 7 (setLane m (fun l => { l.echoed id trip with lat := lat }) s)
      else toActive m true (setLane m (fun l => { l.echoed id trip with lat := lat, capHeld := l.capNext, capNext := none }) s)) := by
  subst hlat
  refine congrArg Host.Outcome.next ((if_neg (echo_taken hst hg hn hnew)).trans ((if_neg (by omega)).trans ?_))
  simp only [setLane_setLane]
  rfl

end

/-! ## Timeouts (R218) -/

theorem laneStateTimeout_some {ns : Nat} (h : (s.lane m).st.timeout = some ns) : exec (.laneStateTimeout m) s =
    .next (if (s.lane m).enteredAt.toNat + ns ≤ s.pos.mono.toNat then toDetect m s else s) := by
  change execLaneStateTimeout m s = _
  simp [execLaneStateTimeout, h, Lane.inStateFor]

theorem laneStateTimeout_none (h : (s.lane m).st.timeout = none) : exec (.laneStateTimeout m) s = .next s := by
  change execLaneStateTimeout m s = _
  simp [execLaneStateTimeout, h]

end

/-! ## The clauses of training that say where a row leaves its lane -/

section
variable {m : Fin 16} {s : State} (hl : s.hl.lanes.length = 16)
include hl

theorem lane_lt : m.val < s.hl.lanes.length := m.isLt.trans_eq hl.symm

theorem receiverDetect_polls (hst : (s.lane m).st = .detect) (hi : (s.lane m).idleHeld = false) (hp : s.twin.prsnt = true)
    (ho : (cell s.pwr.islands 2 {}).on = true) (hd : ∀ x, (s.lane m).detectAt = some x → x.toNat + 1000000 ≤ s.pos.mono.toNat) :
    ∃ t, exec (.receiverDetect m true true) s = .next t ∧ OnlyChanges [.hl, .out] s t ∧ (t.lane m).st = .poll ∧ (t.lane m).tsCount = 0 ∧
      (t.lane m).swing = (s.lane m).nextCfg.1 ∧ ((s.lane m).nextCfg.2.2.1 = true → (t.lane m).ctle = (s.lane m).nextCfg.2.2.2) ∧
      ∀ j, j ≠ m.val → t.lane j = s.lane j := by
  refine ⟨_, receiverDetect_due hst hi hp ho hd true true, (detected_onlyChanges m s).trans (enterLane_setLane_onlyChanges _), ?_⟩
  have hlane : (enterLane m .poll (setLane m Lane.configured (detected m s))).lane m = _ := detected_configured_lane (lane_lt hl)
  refine ⟨congrArg Lane.st hlane, congrArg Lane.tsCount hlane, congrArg Lane.swing hlane,
    fun hf => (congrArg Lane.ctle hlane).trans (if_pos hf), fun j hj => ?_⟩
  exact (enterLane_setLane_other _ hj).trans ((lane_of_hl (detected_hl m s) j).trans (lane_setLane_other _ s hj))

theorem trainingSetRx_equalises {ty v c : Byte} (hst : (s.lane m).st = .poll) (hi : (s.lane m).idleHeld = false) (hg : setGood ty v c = true)
    (ht : ty = 1 ∨ ty = 2) (hn : 8 ≤ (s.lane m).tsCount + 1) : ∃ t, exec (.trainingSetRx m (ty, v) c) s = .next t ∧
      (t.lane m).st = .equalise ∧ (t.lane m).tsCount = 0 ∧ (t.lane m).passedPoll = true ∧ OnlyChanges [.hl, .out] s t := by
  have hlane := enterLane_setLane_same (st := .equalise) (fun l => { l with passedPoll := true, ctleDone := l.ctleFixed }) (lane_lt hl (m := m))
  exact ⟨_, (trainingSetRx_poll hi hst hg ht).trans (congrArg _ (if_pos hn)), congrArg Lane.st hlane, congrArg Lane.tsCount hlane,
    congrArg Lane.passedPoll hlane, enterLane_setLane_onlyChanges _⟩

theorem ctleSettled_settles {w h : List Byte} {eyes : List (BitVec 16)} (he : eyes = eyesOf w h) (hst : (s.lane m).st = .equalise)
    (hf : (s.lane m).ctleFixed = false) (hd : (s.lane m).ctleDone = false) (ht : (s.lane m).enteredAt.toNat + 1024000 ≤ s.pos.mono.toNat) :
    ∃ t b, exec (.ctleSettled m w h) s = .next t ∧ (t.lane m).ctle = b ∧ (t.lane m).eye = cell eyes b 0 ∧
      OnlyChanges [.hl, .out] s t ∧ b < 16 ∧
      (∀ i, i < 16 → eyeArea (cell eyes i 0) ≤ eyeArea (cell eyes b 0) ∧ (i < b → eyeArea (cell eyes i 0) < eyeArea (cell eyes b 0))) ∧
      (t.lane m).st = if 8 ≤ (s.lane m).tsCount then .config else .equalise := by
  subst he
  obtain ⟨hb, hbest⟩ := bestBoost_best (eyesOf w h)
  have hset : (setLane m (Lane.settled (eyesOf w h)) s).lane m = (s.lane m).settled (eyesOf w h) := lane_setLane_same (lane_lt hl)
  have hdone := equaliseDone_settled (s := setLane m (Lane.settled (eyesOf w h)) s) ((congrArg Lane.st hset).trans hst) (congrArg Lane.ctleDone hset)
  rw [hset, show ((s.lane m).settled (eyesOf w h)).tsCount = (s.lane m).tsCount from rfl] at hdone
  refine ⟨_, bestBoost (eyesOf w h), ctleSettled_due hst hf hd ht, ?_⟩
  rw [hdone]
  split
  · have hlane := enterLane_setLane_same (st := .config) (Lane.settled (eyesOf w h)) (lane_lt hl (m := m))
    exact ⟨congrArg Lane.ctle hlane, congrArg Lane.eye hlane, enterLane_setLane_onlyChanges _, hb, hbest, congrArg Lane.st hlane⟩
  · exact ⟨congrArg Lane.ctle hset, congrArg Lane.eye hset, (setLane_onlyChanges m _ s).mono (by decide), hb, hbest,
      (congrArg Lane.st hset).trans hst⟩

theorem capBlockRx_accepts {ws : List Word} (hst : (s.lane m).st = .config) (hc : capReason m (ws.take 16) none = none) :
    ∃ t, exec (.capBlockRx m ws) s = .next t ∧ (t.lane m).capNext = some (ws.take 16) ∧ (t.lane m).capHeld = (s.lane m).capHeld ∧
      (t.lane m).capOk = true ∧ (t.lane m).st = (if 8 ≤ (s.lane m).tsCount then .latency else .config) ∧ OnlyChanges [.hl, .out] s t := by
  have hset : (setLane m (Lane.recorded (ws.take 16)) s).lane m = (s.lane m).recorded (ws.take 16) := lane_setLane_same (lane_lt hl)
  have hdone := configDone_accepted (s := setLane m (Lane.recorded (ws.take 16)) s) ((congrArg Lane.st hset).trans hst) (congrArg Lane.capOk hset)
  rw [hset, show ((s.lane m).recorded (ws.take 16)).tsCount = (s.lane m).tsCount from rfl, setLane_setLane] at hdone
  refine ⟨_, capBlockRx_passes hst hc, ?_⟩
  rw [hdone]
  split
  · have hlane := enterLane_setLane_same (st := .latency) (Lane.unechoed ∘ Lane.recorded (ws.take 16)) (lane_lt hl (m := m))
    exact ⟨congrArg Lane.capNext hlane, (congrArg Lane.capHeld hlane).trans rfl, congrArg Lane.capOk hlane, congrArg Lane.st hlane,
      enterLane_setLane_onlyChanges _⟩
  · exact ⟨congrArg Lane.capNext hset, (congrArg Lane.capHeld hset).trans rfl, congrArg Lane.capOk hset, (congrArg Lane.st hset).trans hst,
      (setLane_onlyChanges m _ s).mono (by decide)⟩

theorem capBlockRx_rejects {ws : List Word} {r : Nat} (hst : (s.lane m).st = .config) (hc : capReason m (ws.take 16) none = some r) :
    ∃ t, exec (.capBlockRx m ws) s = .next t ∧ (t.lane m).st = .held ∧ (t.lane m).heldReason = r ∧
      (t.lane m).capHeld = (s.lane m).capHeld ∧ OnlyChanges [.hl, .host, .pers, .out] s t := by
  obtain ⟨hheld, hreason, hcap, -⟩ := rejectCap_lane (r := r) ((lane_lt hl).trans_eq (setLane_length m _ s).symm)
  exact ⟨_, capBlockRx_fails hst hc, hheld, hreason, hcap.trans (lane_setLane_keeps Lane.capHeld (by intro; rfl) m m s),
    ((setLane_onlyChanges m _ s).mono (by decide)).trans (rejectCap_onlyChanges r)⟩

theorem echoReturnRx_ends {id c : Byte} {trip lat : Nat} (hst : (s.lane m).st = .latency) (hg : setGood 5 id c = true)
    (hn : id.toNat < (s.lane m).echoSent) (hnew : (s.lane m).echoIds.getLsbD id.toNat = false) (hlast : (s.lane m).echoSeen = 15)
    (hlat : lat = latOf ((s.lane m).echoSum + trip) (fld (wd ((s.lane m).capNext.getD []) 7) 16 16)) :
    ∃ t, exec (.echoReturnRx m ⟨id, c, trip⟩) s = .next t ∧ (t.lane m).lat = lat ∧
      (lat ≤ 320 → (t.lane m).st = .active ∧ (t.lane m).capHeld = (s.lane m).capNext) ∧
      (320 < lat → (t.lane m).st = .held ∧ (t.lane m).heldReason = 7 ∧ (t.lane m).capHeld = (s.lane m).capHeld) := by
  have hlt := lane_lt hl (m := m)
  refine ⟨_, echoReturnRx_last hst hg hn hnew hlast hlat, ?_⟩
  split
  next h =>
    obtain ⟨hheld, hreason, hcap, hlatency⟩ := rejectCap_lane (r := 7) (hlt.trans_eq (setLane_length m _ s).symm)
    exact ⟨hlatency.trans (congrArg Lane.lat (lane_setLane_same hlt)), fun h' => absurd h (Nat.not_lt.mpr h'),
      fun _ => ⟨hheld, hreason, hcap.trans (lane_setLane_keeps Lane.capHeld (by intro; rfl) m m s)⟩⟩
  next h =>
    have hlane := toActive_lane true (hlt.trans_eq
      (setLane_length m (fun l => { l.echoed id trip with lat := lat, capHeld := l.capNext, capNext := none }) s).symm)
    rw [lane_setLane_same hlt] at hlane
    exact ⟨congrArg Lane.lat hlane, fun _ => ⟨congrArg Lane.st hlane, congrArg Lane.capHeld hlane⟩, fun h' => absurd h' h⟩

end

theorem laneTraining : Claims.LaneTraining := by
  refine ⟨fun m s hl hst hi hp ho hd => ⟨receiverDetect_polls hl hst hi hp ho hd, fun a b hab => ?undetected⟩,
    fun m a b x s => receiverDetect_early a b,
    fun m ty v c s hl hst hi => ⟨trainingSetRx_pollOther hi hst,
      fun hg ht hn => (trainingSetRx_poll hi hst hg ht).trans (congrArg _ (if_neg (Nat.not_le.mpr hn))),
      trainingSetRx_equalises hl hst hi⟩,
    fun m v c s hst hi => trainingSetRx_config hi hst, fun m v c s hst hi => trainingSetRx_recovery hi hst,
    fun m w h eyes s he hl => ctleSettled_settles hl he,
    fun m ws s hl hst => ⟨capBlockRx_accepts hl hst, fun r => capBlockRx_rejects hl hst⟩,
    fun m s hl hst hi => ⟨echoSend_due hst hi, echoSend_early, fun id c trip => echoReturnRx_counts hst,
      fun id c trip => echoReturnRx_ignored trip, fun id c trip lat => echoReturnRx_ends hl hst⟩,
    fun m ns s h => ⟨fun ht => (laneStateTimeout_some h).trans (congrArg _ (if_pos ht)),
      fun ht => (laneStateTimeout_some h).trans (congrArg _ (if_neg (Nat.not_le.mpr ht)))⟩,
    ⟨rfl, rfl, rfl, rfl, rfl⟩, fun m s h => laneStateTimeout_none ?untimed⟩
  case undetected =>
    refine (receiverDetect_due hst hi hp ho hd a b).trans (congrArg _ (if_neg ?_))
    rintro ⟨rfl, rfl⟩
    exact absurd hab (by decide)
  case untimed => rcases h with h | h | h | h <;> rw [h] <;> rfl

/-! ## Capability records (R222) -/

theorem firstCode_none_iff (l : List (Bool × Nat)) : firstCode l = none ↔ ∀ x ∈ l, x.1 = false := by
  simp [firstCode]

theorem firstCode_mem {l : List (Bool × Nat)} {r : Nat} (h : firstCode l = some r) : r ∈ l.map (·.2) := by
  obtain ⟨x, hx, rfl⟩ := Option.map_eq_some_iff.mp h
  exact List.mem_map_of_mem (List.mem_of_find?_eq_some hx)

theorem capabilityRecords : Claims.CapabilityRecords := by
  refine ⟨fun lane ws held => ?_, fun lane ws held r h => ?_⟩
  · unfold capReason
    rw [firstCode_none_iff]
    cases held <;> simp [and_assoc, Nat.one_le_iff_ne_zero]
  · have hr : r ∈ [1, 2, 3, 4, 5, 6] := firstCode_mem h
    simp only [List.mem_cons, List.not_mem_nil, or_false] at hr
    omega

/-- Settles O34: each row of training by the state it leaves its lane in, a record by the list of its checks. -/
theorem lanesTrained : Obligations.LanesTrained := ⟨laneTraining, capabilityRecords⟩

end Sys2Proof.Machine
end

section
/-!
PROOFS. Lanes in service: the ends of ACTIVE, status frames, blanking and table loads (R219, R233, R234, R241, R242).
-/
namespace Sys2Proof.Machine

/-! ## The ends of ACTIVE (R219) -/

section
variable {m : Fin 16} {s : State}

/-- A lane whose symbol errors have been counted (R244). -/
def Lane.mistaken (e : Nat) (l : Lane) : Lane := { l with codeErrors := satAdd l.codeErrors e }

theorem laneRecovery_few {e : Fin 257} (h : e.val < 4) : exec (.laneRecovery m false e) s = .next (setLane m (Lane.mistaken e) s) :=
  congrArg Host.Outcome.next (if_neg fun ⟨_, hbad⟩ => hbad.elim (by decide) (Nat.not_le.mpr h))

theorem laneRecovery_many {los : Bool} {e : Fin 257} (hst : (s.lane m).st = .active) (h : los = true ∨ 4 ≤ e.val) :
    exec (.laneRecovery m los e) s = .next (toRecovery m (if los then 2 else 1) (setLane m (Lane.mistaken e) s)) :=
  congrArg Host.Outcome.next (if_pos ⟨hst, h⟩)

theorem laneRecovery_recovers {los : Bool} {e : Fin 257} (hl : s.hl.lanes.length = 16) (hst : (s.lane m).st = .active)
    (h : los = true ∨ 4 ≤ e.val) : ∃ t, exec (.laneRecovery m los e) s = .next t ∧ (t.lane m).st = .recovery ∧
      (t.lane m).capHeld = (s.lane m).capHeld ∧ (t.lane m).lat = (s.lane m).lat ∧ (t.lane m).ctle = (s.lane m).ctle ∧
      (t.lane m).recoveries = satAdd (s.lane m).recoveries 1 ∧ (t.lane m).codeErrors = satAdd (s.lane m).codeErrors e ∧
      OnlyChanges [.hl, .host, .pers, .out] s t := by
  have hlt : m < s.hl.lanes.length := lane_lt hl
  have hlane := toRecovery_lane (cause := if los then 2 else 1) (hlt.trans_eq (setLane_length m (Lane.mistaken e) s).symm)
  rw [lane_setLane_same hlt] at hlane
  refine ⟨_, laneRecovery_many hst h, ?_⟩
  rw [hlane]
  exact ⟨rfl, rfl, rfl, rfl, rfl, rfl, ((setLane_onlyChanges m _ s).mono (by decide)).trans (toRecovery_onlyChanges _)⟩

theorem statusFrameTimeout_due (hst : (s.lane m).st = .active) (ht : (s.lane m).statusTime.toNat + 8000 ≤ s.pos.mono.toNat)
    (hu : (s.lane m).upAt.toNat + 8000 ≤ s.pos.mono.toNat) : exec (.statusFrameTimeout m) s = .next (toRecovery m 3 s) :=
  congrArg Host.Outcome.next (if_pos ⟨hst, by omega⟩)

theorem statusFrameTimeout_early
    (h : s.pos.mono.toNat < (s.lane m).statusTime.toNat + 8000 ∨ s.pos.mono.toNat < (s.lane m).upAt.toNat + 8000) :
    exec (.statusFrameTimeout m) s = .next s :=
  congrArg Host.Outcome.next (if_neg fun ⟨_, hdue⟩ => by omega)

/-! ## Status frames (R234) -/

theorem statusFrameRx_bad {ws : List Word} {crc : Word} (hst : (s.lane m).st = .active) (h : crc ≠ frameCrc ws ∨ fld (wd ws 0) 0 4 ≠ m.val) :
    exec (.statusFrameRx m ws crc) s =
      .next (stickRec (source := 0x10 + m) .statusBad (setLane m (fun l => { l with statusBad := satAdd l.statusBad 1 }) s)) :=
  congrArg Host.Outcome.next ((if_neg (not_not.mpr hst)).trans (if_pos h))

/-- A lane that has had a valid status frame. -/
def Lane.reported (ws : List Word) (now : Dword) (l : Lane) : Lane := { l with statusSeq := some (fld (wd ws 0) 8 8), statusTime := now }

/-- A frame's temperatures and claim have been taken in. -/
def claimTaken (m : Nat) (ws : List Word) (s : State) : State :=
  takeClaim m ws (takeTemps m ws (setLane m (Lane.reported ws s.pos.mono) s))

/-- And its check reports, its latched line and its faults; `prev` is the instant of the frame before it. -/
def faultsTaken (m prev : Nat) (ws : List Word) (u : State) : State :=
  takeFaults m prev (wd ws 8) (takeLatch m (wd ws 5) (takeNack m (wd ws 11) (wd ws 12) (takeNack m (wd ws 9) (wd ws 10) u)))

/-- And its table report and its readings, and what all of it tells of the heads' source. -/
def statusTaken (m : Nat) (ws : List Word) (v : State) : State :=
  checkTakeover (checkDisplaced (takeMeas m ws (takeTable m (wd ws 13) (wd ws 14) v)))

theorem statusFrameRx_good {ws : List Word} (hst : (s.lane m).st = .active) (h : fld (wd ws 0) 0 4 = m.val) :
    exec (.statusFrameRx m ws (frameCrc ws)) s =
      .next (statusTaken m ws (faultsTaken m (s.lane m).statusTime.toNat ws (claimTaken m ws s))) := by
  have hgood : ¬ (frameCrc ws ≠ frameCrc ws ∨ fld (wd ws 0) 0 4 ≠ m.val) := not_or.mpr ⟨not_not.mpr rfl, not_not.mpr h⟩
  change execStatusFrameRx m ws (frameCrc ws) s = _
  unfold execStatusFrameRx
  dsimp only
  rw [if_neg (not_not.mpr hst), if_neg hgood]
  rfl

/-! ## Blanking (R241, R429) -/

section
variable (hb : (s.lane m).blanking = true) (ht : (s.lane m).blankAt.toNat + 1000 ≤ s.pos.mono.toNat)
include hb ht

theorem blank_due : ¬ ((!(s.lane m).blanking) = true ∨ s.pos.mono.toNat < (s.lane m).blankAt.toNat + 1000) := by
  rw [hb]
  simpa using ht

theorem blankRepeat_last (hr : 1 ≤ (s.lane m).blankRuns) : exec (.blankRepeat m) s = .next (emit (.lane m .elecIdle)
    (setLane m (fun l => { l with blanking := false, blankRuns := 0, idleHeld := true }) s)) :=
  congrArg Host.Outcome.next ((if_neg (blank_due hb ht)).trans (if_pos hr))

theorem blankRepeat_first (hr : (s.lane m).blankRuns = 0) :
    exec (.blankRepeat m) s = .next (emit (.lane m (blankSet (if s.onyx.tripped then 1 else 3)))
      (setLane m (fun l => { l with blankRuns := l.blankRuns + 1, blankAt := s.pos.mono }) s)) :=
  congrArg Host.Outcome.next ((if_neg (blank_due hb ht)).trans (if_neg (by omega)))

end

theorem blankRepeat_early (h : s.pos.mono.toNat < (s.lane m).blankAt.toNat + 1000) : exec (.blankRepeat m) s = .next s :=
  congrArg Host.Outcome.next (if_pos (.inr h))

end

/-! ## Table loads (R242) -/

theorem tableData_length (g kind m block : Nat) (s : State) : (tableData g kind m block s).length = 64 := by
  unfold tableData
  dsimp only
  split
  · simp [zeros]
  · exact List.length_replicate

/-- What a block's check covers: its heading and its data. -/
def tableBody (g kind block : Nat) (m : Nat) (s : State) : List Byte :=
  wordBytes [w32 (kind + 256 * b2n (s.lane m).loadBank + 65536 * block), w32 (s.lane m).loadId] ++ tableData g kind m block s

theorem tableBody_length (g kind block m : Nat) (s : State) : (tableBody g kind block m s).length = 72 := by
  rw [tableBody, List.length_append, length_wordBytes, tableData_length]
  rfl

theorem tblBlockTx_sends {m : Fin 16} {kind block g : Nat} {rest : List (Nat × Nat)} {s : State} (hg : (s.lane m).loadGroup = some g)
    (hq : (s.lane m).tblQueue = (kind, block) :: rest) (hst : (s.lane m).st = .active) (hi : (s.lane m).idleHeld = false)
    (hx : (s.lane m).txq = []) (hf : (s.lane m).txFree ≤ s.pos.mono.toNat) : exec (.tblBlockTx m) s =
      .next (emit (.lane m (.table (tableBody g kind block m s ++ bytesLE 4 (crc32c (bytesLE 1 m ++ tableBody g kind block m s)))))
        (setLane m (fun l => { l with tblQueue := rest, txFree := s.pos.mono.toNat + 154 }) s)) := by
  change execTblBlockTx m s = _
  unfold execTblBlockTx
  simp only [hg, hq]
  exact congrArg Host.Outcome.next (if_neg (by simp [hst, hi, hx, hf]))

/-- Settles O35: each row by what its lane waits for. -/
theorem lanesInService : Obligations.LanesInService :=
  ⟨fun _ _ _ => laneRecovery_few, fun _ _ _ _ => laneRecovery_recovers,
    fun _ _ hst => ⟨statusFrameTimeout_due hst, statusFrameTimeout_early⟩,
    fun _ _ _ _ => statusFrameRx_bad,
    fun m ws s hst h => ⟨_, statusFrameRx_good hst h, fun u hu =>
      ⟨faultsTaken m (s.lane m).statusTime.toNat ws u, rfl, by rw [hu, statusTaken, claimTaken]; rfl⟩⟩,
    fun _ _ hb ht => ⟨blankRepeat_last hb ht, blankRepeat_first hb ht⟩, fun _ _ => blankRepeat_early,
    fun m kind block g rest s hg hq hst hi hx hf =>
      ⟨tableBody g kind block m s, tblBlockTx_sends hg hq hst hi hx hf, rfl, tableBody_length g kind block m s⟩⟩

end Sys2Proof.Machine
end

section
/-!
PROOFS. Firing frames (R226 to R229).
-/
namespace Sys2Proof.Machine

/-! ## A part and its check (R229) -/

theorem partWithCheck_length (m seq part : Nat) (bs : List Byte) : (partWithCheck m seq part bs).length = bs.length + 4 := by
  rw [partWithCheck, List.length_append, length_bytesLE]

theorem partWithCheck_check (m seq part : Nat) (bs : List Byte) : leN (partWithCheck m seq part bs) bs.length 4 =
    crc32c (bytesLE 1 m ++ bytesLE 2 seq ++ bytesLE 1 part ++ bs) := by
  have hfield := leN_bytesLE 4 (crc32c (bytesLE 1 m ++ bytesLE 2 seq ++ bytesLE 1 part ++ bs)) []
  rw [List.append_nil] at hfield
  rw [partWithCheck, leN_append]
  exact hfield.trans (Nat.mod_eq_of_lt (crc32c_lt _))

/-! ## The payload (R228) -/

theorem nibble_lt (ds : List Drop) (k : Nat) : nibble ds k < 16 := by
  unfold nibble
  split <;> omega

section
variable (F m : Nat) (s : State)

theorem payloadOf_length : (payloadOf F m s).length = 1632 := by
  rw [payloadOf, List.length_map, List.length_range]

/-- A byte of the payload holds the nibbles of two columns. -/
theorem payloadOf_byte {i : Nat} (h : i < 1632) : by8 (payloadOf F m s) i =
    nibble (dropsOf F m s) (2 * i) + 16 * nibble (dropsOf F m s) (2 * i + 1) := by
  have hlow := nibble_lt (dropsOf F m s) (2 * i)
  have hhigh := nibble_lt (dropsOf F m s) (2 * i + 1)
  simp only [by8, payloadOf, List.getD_eq_getElem?_getD, List.getElem?_map, List.getElem?_range h, Option.map_some, Option.getD_some,
    BitVec.toNat_ofNat]
  omega

theorem payloadOf_nibble {k : Nat} (h : k < 3264) : (by8 (payloadOf F m s) (k / 2) / 16 ^ (k % 2)) % 16 = nibble (dropsOf F m s) k := by
  have hk := nibble_lt (dropsOf F m s) k
  rw [payloadOf_byte F m s (by omega)]
  rcases Nat.mod_two_eq_zero_or_one k with e | e
  · have hfirst : 2 * (k / 2) = k := by omega
    rw [e, hfirst, pow_zero, Nat.div_one, Nat.add_mul_mod_self_left, Nat.mod_eq_of_lt hk]
  · have hsecond : 2 * (k / 2) + 1 = k := by omega
    have hfirst := nibble_lt (dropsOf F m s) (2 * (k / 2))
    rw [e, hsecond, pow_one]
    omega

/-! ## The parts (R226, R227) -/

theorem headerPart_length {zs : List ZoneSel} (h : zs.length = 8) : (headerPart F m zs s).length = 40 := by
  simp only [headerPart, List.length_append, length_bytesLE, List.length_flatMap, List.map_const', List.sum_replicate, h]
  rfl

theorem frameParts_length (zs : List ZoneSel) : (frameParts F m zs s).length = 17 := by
  rw [frameParts, List.length_cons, List.length_map, List.length_range]

theorem frameParts_segment (zs : List ZoneSel) {i : Nat} (h : i < 16) : cell (frameParts F m zs s) (i + 1) [] =
    partWithCheck m (lineIn F s).2 (i + 1) (((payloadOf F m s).drop (102 * i)).take 102) := by
  have hi : cell (List.range 16) i 0 = i := by simp [cell, List.getD_eq_getElem?_getD, List.getElem?_range h]
  rw [frameParts, cell, List.getD_cons_succ]
  exact (cell_map _ (List.range 16) 0 [] (h.trans_eq List.length_range.symm)).trans (by rw [hi])

theorem segment_length {i : Nat} (h : i < 16) : (((payloadOf F m s).drop (102 * i)).take 102).length = 102 := by
  rw [List.length_take, List.length_drop, payloadOf_length]
  omega

end

/-- Settles O36: a part by its check value, a nibble by the byte it stands in. -/
theorem firingFrames : Obligations.FiringFrames := by
  refine ⟨fun F m zs s hz => ⟨frameParts_length F m s zs, ?header, fun j hlow hhigh => ?segment⟩, payloadOf_length,
    fun F m k s => payloadOf_nibble F m s, partWithCheck_check⟩
  case header => exact (partWithCheck_length _ _ _ _).trans (congrArg (· + 4) (headerPart_length F m s hz))
  case segment =>
    obtain ⟨i, rfl⟩ := Nat.exists_eq_add_of_le' hlow
    have hi : i < 16 := by omega
    rw [frameParts_segment F m s zs hi, Nat.add_sub_cancel]
    exact ⟨rfl, (partWithCheck_length _ _ _ _).trans (congrArg (· + 4) (segment_length F m s hi))⟩

end Sys2Proof.Machine
end

section
/-!
PROOFS. The lane commands (R247 to R250).
-/
namespace Sys2Proof.Machine

/-! ## Operands -/

/-- A lane number, and bit 8 with one, as HL_GET_STATUS and HL_GET_CAPS read them (R247, R250). -/
theorem laneOperand_fields : ∀ m < 16, BitVec.ofNat 32 m &&& ~~~ 0xF = 0 ∧ BitVec.ofNat 32 m &&& ~~~ 0x10F = 0 ∧
    fld (BitVec.ofNat 32 m) 0 4 = m ∧ flag (BitVec.ofNat 32 m) 8 = false ∧ BitVec.ofNat 32 (256 + m) &&& ~~~ 0x10F = 0 ∧
    fld (BitVec.ofNat 32 (256 + m)) 0 4 = m ∧ flag (BitVec.ofNat 32 (256 + m)) 8 = true := by decide

theorem word_of_toNat {w : Word} {n : Nat} (h : w.toNat = n) : w = BitVec.ofNat 32 n := by
  rw [← h, BitVec.ofNat_toNat, BitVec.setWidth_eq]

/-- The lanes that a mask names. -/
def lanesOf (w : Word) : List Nat := (List.range 16).filter fun m => flag w m

theorem lanesOf_nodup (w : Word) : (lanesOf w).Nodup := List.nodup_range.filter _

theorem mem_lanesOf {w : Word} {m : Nat} (hm : m < 16) : m ∈ lanesOf w ↔ flag w m = true := by
  simp [lanesOf, hm]

/-! ## Commands over several lanes -/

theorem forAll_lane_other {l : List Nat} {f : Nat → State → State} (hf : ∀ n t j, j ≠ n → (f n t).lane j = t.lane j) {j : Nat}
    (hj : j ∉ l) (s : State) : (forAll l f s).lane j = s.lane j :=
  List.foldlRecOn (motive := fun t => t.lane j = s.lane j) l _ rfl fun t ht n hn =>
    (hf n t j fun e => hj (e ▸ hn)).trans ht

/-- What each step brings about on its own lane, which no other step changes, holds of every lane named. -/
theorem forAll_lane_named {l : List Nat} {f : Nat → State → State} {P : Lane → Prop} (hf : ∀ n t j, j ≠ n → (f n t).lane j = t.lane j)
    (hlen : ∀ n t, (f n t).hl.lanes.length = t.hl.lanes.length) (hnodup : l.Nodup) {m : Nat} (hm : m ∈ l) {s : State}
    (hdoes : ∀ t : State, t.hl.lanes.length = s.hl.lanes.length → t.lane m = s.lane m → P ((f m t).lane m)) :
    P ((forAll l f s).lane m) := by
  obtain ⟨before, after, rfl⟩ := List.append_of_mem hm
  obtain ⟨-, hafter, hdisjoint⟩ := List.nodup_append.mp hnodup
  have hfresh : m ∉ before := fun h => hdisjoint m h m List.mem_cons_self rfl
  have hkept : (forAll before f s).hl.lanes.length = s.hl.lanes.length :=
    forAll_keeps (P := fun t => t.hl.lanes.length = s.hl.lanes.length) (fun n t ht => (hlen n t).trans ht) before rfl
  have hdone := hdoes _ hkept (forAll_lane_other hf hfresh s)
  have hlast := forAll_lane_other hf (List.nodup_cons.mp hafter).1 (f m (forAll before f s))
  rw [← hlast] at hdone
  simpa only [forAll, List.foldl_append, List.foldl_cons] using hdone

section
variable {k : Fin 16} {c : RungCmd} {s : State}

/-! ## HL_GET_STATUS (R247) -/

/-- A lane with its counters cleared. -/
def Lane.countersClear (l : Lane) : Lane := { l with
  frames := 0, partsFailed := 0, partsResent := 0, linesBlanked := 0, resendOver := 0, codeErrors := 0, recoveries := 0, statusBad := 0 }

theorem hlGetStatus_answers (h : Rung 0x0600 1 k c s) (hw : c.w 0 &&& ~~~ 0x10F = 0) (hb : s.host.opState ≠ .boot) :
    execHlGetStatus k s = .next (respond k (okWith (laneView (s.lane (fld (c.w 0) 0 4))))
      (if flag (c.w 0) 8 = true then setLane (fld (c.w 0) 0 4) Lane.countersClear (begun k s) else begun k s)) := by
  refine congrArg Host.Outcome.next (command_done h ?_ rfl)
  simp only [passes_cons, passes_nil, and_true]
  exact ⟨reservedW_passes hw, notBoot_passes hb⟩

theorem hlGetStatus_reads (h : Rung 0x0600 1 k c s) (hw : (c.w 0).toNat < 16) (hb : s.host.opState ≠ .boot) :
    execHlGetStatus k s = .next (respond k (okWith (laneView (s.lane (c.w 0).toNat))) (begun k s)) := by
  obtain ⟨-, hmask, hlane, hclear, -⟩ := laneOperand_fields _ hw
  rw [← word_of_toNat rfl] at hmask hlane hclear
  rw [hlGetStatus_answers h hmask hb, hlane, hclear]
  rfl

theorem hlGetStatus_clears {m : Nat} (h : Rung 0x0600 1 k c s) (hw : (c.w 0).toNat = 256 + m) (hm : m < 16) (hb : s.host.opState ≠ .boot) :
    execHlGetStatus k s = .next (respond k (okWith (laneView (s.lane m))) (setLane m Lane.countersClear (begun k s))) := by
  obtain ⟨-, -, -, -, hmask, hlane, hclear⟩ := laneOperand_fields _ hm
  rw [← word_of_toNat hw] at hmask hlane hclear
  rw [hlGetStatus_answers h hmask hb, hlane, hclear]
  rfl

/-! ## HL_LANE_CONFIG (R248) -/

/-- The settings of a HL_LANE_CONFIG: SWING, DEEMPH, CTLE_FIXED and CTLE_BOOST. -/
def laneSettings (w : Word) : Nat × Nat × Bool × Nat := (fld w 0 3, fld w 3 2, flag w 5, fld w 6 4)

/-- A lane takes settings for its next entry into POLL, and is disabled. -/
def disableLane (cfg : Nat × Nat × Bool × Nat) (m : Nat) (s : State) : State := toDisabled m (setLane m (fun l => { l with nextCfg := cfg }) s)

/-- A lane takes settings for its next entry into POLL, and is enabled. -/
def enableLane (cfg : Nat × Nat × Bool × Nat) (m : Nat) (s : State) : State :=
  if (s.lane m).st = .disabled then
    enterLane m .detect (setLane m (fun l => { l with enabled := true }) (setLane m (fun l => { l with nextCfg := cfg }) s))
  else setLane m (fun l => { l with nextCfg := cfg }) s

section
variable (cfg : Nat × Nat × Bool × Nat) (m : Nat) (t : State)

theorem disableLane_other (j : Nat) (h : j ≠ m) : (disableLane cfg m t).lane j = t.lane j :=
  (toDisabled_lane_other h).trans (lane_setLane_other _ t h)

theorem disableLane_length : (disableLane cfg m t).hl.lanes.length = t.hl.lanes.length := toDisabled_length.trans (setLane_length m _ t)

theorem disableLane_same {m : Nat} {t : State} (h : m < t.hl.lanes.length) : ((disableLane cfg m t).lane m).enabled = false ∧
    ((disableLane cfg m t).lane m).st = .disabled ∧ ((disableLane cfg m t).lane m).nextCfg = cfg := by
  obtain ⟨hoff, hst, hcfg⟩ := toDisabled_lane_same (h.trans_eq (setLane_length m (fun l => { l with nextCfg := cfg }) t).symm)
  exact ⟨hoff, hst, hcfg.trans (congrArg Lane.nextCfg (lane_setLane_same h))⟩

theorem enableLane_other (j : Nat) (h : j ≠ m) : (enableLane cfg m t).lane j = t.lane j := by
  unfold enableLane
  split
  · exact (enterLane_setLane_other _ h).trans (lane_setLane_other _ t h)
  · exact lane_setLane_other _ t h

theorem enableLane_length : (enableLane cfg m t).hl.lanes.length = t.hl.lanes.length := by
  unfold enableLane
  split
  · rw [enterLane_length, setLane_length, setLane_length]
  · exact setLane_length m _ t

theorem enableLane_onlyChanges : OnlyChanges [.hl, .out] t (enableLane cfg m t) := by
  have hset := (setLane_onlyChanges m (fun l => { l with nextCfg := cfg }) t).mono (qs := [.hl, .out]) (by decide)
  unfold enableLane
  split
  · exact hset.trans (enterLane_setLane_onlyChanges _)
  · exact hset

theorem enableLane_same {m : Nat} {t : State} (h : m < t.hl.lanes.length) :
    ((enableLane cfg m t).lane m).st = (if (t.lane m).st = .disabled then .detect else (t.lane m).st) ∧
    ((enableLane cfg m t).lane m).nextCfg = cfg := by
  unfold enableLane
  split
  · rw [setLane_setLane, enterLane_setLane_same _ h]
    exact ⟨rfl, rfl⟩
  · rw [lane_setLane_same h]
    exact ⟨rfl, rfl⟩

end

/-- What both forms of the command are held to beside the lanes they name. -/
structure ConfigAllowed (c : RungCmd) (s : State) : Prop where
  /-- No reserved bit is set. -/
  reserved : c.w 1 &&& ~~~ 0x3FF = 0
  /-- SWING. -/
  swing : fld (c.w 1) 0 3 ≤ 6
  /-- DEEMPH. -/
  deemph : fld (c.w 1) 3 2 ≠ 3
  /-- No lane fires. -/
  still : s.host.firing = false

theorem hlLaneConfig_answers (h : Rung 0x0601 2 k c s) (hw : (c.w 0).toNat < 2 ^ 17)
    (hfit : flag (c.w 0) 16 = true → fld (c.w 0) 0 16 < 2 ^ s.cg.modules) (ha : ConfigAllowed c s) :
    execHlLaneConfig k s = .next (respond k ok (forAll (lanesOf (c.w 0))
      (fun m t => if flag (c.w 0) 16 = true then enableLane (laneSettings (c.w 1)) m t else disableLane (laneSettings (c.w 1)) m t)
      (begun k s))) := by
  have hbeyond : (flag (c.w 0) 16 && s.cg.modules != 0 && decide (fld (c.w 0) 0 16 ≥ 2 ^ s.cg.modules)) = false := by
    cases e : flag (c.w 0) 16 with
    | false => rfl
    | true => rw [decide_eq_false (Nat.not_le.mpr (hfit e)), Bool.and_false]
  refine congrArg Host.Outcome.next (command_done h ?_ rfl)
  simp only [passes_cons, passes_nil, and_true]
  exact ⟨hbeyond, reservedW_passes (reserved_clear hw), decide_eq_false (not_or.mpr ⟨Nat.not_lt.mpr ha.swing, ha.deemph⟩),
    reservedW_passes ha.reserved, ha.still⟩

theorem hlLaneConfig_disables (h : Rung 0x0601 2 k c s) (hw : (c.w 0).toNat < 65536) (ha : ConfigAllowed c s) :
    execHlLaneConfig k s = .next (respond k ok (forAll (lanesOf (c.w 0)) (disableLane (laneSettings (c.w 1))) (begun k s))) := by
  have hoff : flag (c.w 0) 16 = false := Nat.testBit_lt_two_pow hw
  rw [hlLaneConfig_answers h (by omega) (fun hon => absurd hon (by simp [hoff])) ha]
  simp only [hoff, Bool.false_eq_true, if_false]

theorem hlLaneConfig_enables (h : Rung 0x0601 2 k c s) (hon : 65536 ≤ (c.w 0).toNat) (hw : (c.w 0).toNat < 65536 + 2 ^ s.cg.modules)
    (hmods : s.cg.modules ≤ 16) (ha : ConfigAllowed c s) :
    execHlLaneConfig k s = .next (respond k ok (forAll (lanesOf (c.w 0)) (enableLane (laneSettings (c.w 1))) (begun k s))) := by
  have hpow : 2 ^ s.cg.modules ≤ 65536 := Nat.pow_le_pow_right (by decide) hmods
  have hflag : flag (c.w 0) 16 = true := by
    rw [flag, Nat.testBit_eq_decide_div_mod_eq, decide_eq_true_eq]
    omega
  have hfit : fld (c.w 0) 0 16 < 2 ^ s.cg.modules := by
    change (c.w 0).toNat % 65536 < _
    omega
  rw [hlLaneConfig_answers h (by omega) (fun _ => hfit) ha]
  simp only [hflag, if_true]

/-! ## HL_RETRAIN (R249) and HL_GET_CAPS (R250) -/

theorem hlRetrain_answers (h : Rung 0x0602 1 k c s) (hw : (c.w 0).toNat < 65536) (hf : s.host.firing = false) :
    execHlRetrain k s = .next (respond k ok (forAll ((List.range 16).filter fun m => flag (c.w 0) m && (s.lane m).enabled) toDetect
      (begun k s))) := by
  refine congrArg Host.Outcome.next (command_done h ?_ rfl)
  simp only [passes_cons, passes_nil, and_true]
  exact ⟨reservedW_passes (reserved_clear (n := 16) hw), hf⟩

theorem hlGetCaps_answers {m : Nat} (h : Rung 0x0603 1 k c s) (hw : (c.w 0).toNat = m) (hm : m < 16) (hb : s.host.opState ≠ .boot)
    (hp : (s.lane m).passedPoll = true) : execHlGetCaps k s =
      .next (respond k (okWith ((List.range 16).map (fun i => wd ((s.lane m).cap.getD []) i) ++ [w32 (s.lane m).st.code])) (begun k s)) := by
  obtain ⟨hmask, -, hlane, -⟩ := laneOperand_fields _ hm
  rw [← word_of_toNat hw] at hmask hlane
  refine congrArg Host.Outcome.next (command_done h ?_ (by rw [show fld (wd c.payload 0) 0 4 = m from hlane]; rfl))
  simp only [passes_cons, passes_nil, and_true]
  exact ⟨reservedW_passes hmask, notBoot_passes hb, by rw [show fld (wd c.payload 0) 0 4 = m from hlane, hp]; rfl⟩

theorem hlGetCaps_early {m : Nat} (h : Rung 0x0603 1 k c s) (hw : (c.w 0).toNat = m) (hm : m < 16) (hb : s.host.opState ≠ .boot)
    (hp : (s.lane m).passedPoll = false) : execHlGetCaps k s = .next (respond k badState (begun k s)) := by
  obtain ⟨hmask, -, hlane, -⟩ := laneOperand_fields _ hm
  rw [← word_of_toNat hw] at hmask hlane
  refine congrArg Host.Outcome.next (command_refused h ?_)
  rw [pick_passed (reservedW_passes hmask), pick_passed (notBoot_passes hb), show fld (wd c.payload 0) 0 4 = m from hlane, hp]
  rfl

end

/-- Settles O37: each command by its checks and its effect, one over several lanes by what a step does to its own lane. -/
theorem laneCommands : Obligations.LaneCommands := by
  refine ⟨fun k c s => hlGetStatus_reads, fun k c s m => hlGetStatus_clears,
    fun k c s h hw hr hs hd hf => ⟨_, hlLaneConfig_disables h hw ⟨hr, hs, hd, hf⟩,
      fun hl m hm hflag => ?disabled, fun m hm hflag => ?unnamed⟩,
    fun k c s h hon hw _ hmods hr hs hd hf => ⟨_, hlLaneConfig_enables h hon hw hmods ⟨hr, hs, hd, hf⟩,
      .foldl _ _ _ fun t m => enableLane_onlyChanges _ m t, fun hl m hm hflag => ?enabled⟩,
    fun k c s h hw hf => ⟨_, hlRetrain_answers h hw hf, fun hl m hm => ⟨fun hflag hen => ?retrained, fun hno => ?untouched⟩⟩,
    fun k c s m => hlGetCaps_answers, fun k c s m => hlGetCaps_early⟩
  case disabled =>
    exact forAll_lane_named (P := fun l => l.enabled = false ∧ l.st = .disabled ∧ l.nextCfg = laneSettings (c.w 1))
      (disableLane_other _) (disableLane_length _) (lanesOf_nodup _) ((mem_lanesOf hm).mpr hflag)
      fun t hlen _ => disableLane_same _ (hm.trans_eq (hlen.trans hl).symm)
  case unnamed =>
    exact forAll_lane_other (disableLane_other _) (fun h => by simp [(mem_lanesOf hm).mp h] at hflag) (begun k s)
  case enabled =>
    exact forAll_lane_named (P := fun l => l.st = (if (s.lane m).st = .disabled then .detect else (s.lane m).st) ∧ l.nextCfg = laneSettings (c.w 1))
      (enableLane_other _) (enableLane_length _) (lanesOf_nodup _) ((mem_lanesOf hm).mpr hflag)
      fun t hlen hlane => by
        have hsame := enableLane_same (laneSettings (c.w 1)) (hm.trans_eq (hlen.trans hl).symm)
        rwa [hlane] at hsame
  case retrained =>
    exact forAll_lane_named (P := fun l => l.st = .detect) (fun _ _ _ => toDetect_lane_other) (fun _ _ => toDetect_length)
      (List.nodup_range.filter _) (List.mem_filter.mpr ⟨List.mem_range.mpr hm, by rw [hflag, hen]; rfl⟩)
      fun t hlen _ => congrArg Lane.st (toDetect_lane_same (hm.trans_eq (hlen.trans hl).symm))
  case untouched =>
    refine forAll_lane_other (fun _ _ _ => toDetect_lane_other) (fun h => ?_) (begun k s)
    obtain ⟨hflag, hen⟩ := Bool.and_eq_true_iff.mp (List.mem_filter.mp h).2
    rcases hno with e | e
    · exact absurd (hflag.symm.trans e) (by decide)
    · exact absurd (hen.symm.trans e) (by decide)

end Sys2Proof.Machine
end

section
/-!
PROOFS. The image stages (R263 to R267).
-/
namespace Sys2Proof.Machine

/-! ## Outputs of 16 bits (R263) -/

theorem clamp16_le (x : Int) : clamp16 x ≤ 65535 := by
  unfold clamp16 clampI
  omega

theorem clamp16_of_le {x : Nat} (h : x ≤ 65535) : clamp16 x = x := by
  unfold clamp16 clampI
  omega

/-! ## Spatial noise reduction (R264) -/

/-- A neighbour's weight and weighted value, where there is a neighbour within the threshold. -/
def tap (thresh : Nat) (x : List Nat) (i v : Nat) (dw : Nat × Nat) : Option (Nat × Nat) :=
  if i + dw.1 < 2 then none else match x[i + dw.1 - 2]? with
    | some u => if u ≤ v + thresh ∧ v ≤ u + thresh then some (dw.2, dw.2 * u) else none
    | none => none

/-- The taps of pixel i, whose value is v. -/
def taps (thresh : Nat) (x : List Nat) (i v : Nat) : List (Nat × Nat) :=
  [(0, 1), (1, 2), (2, 4), (3, 2), (4, 1)].filterMap (tap thresh x i v)

/-- The mean of taps by their weights, rounded. -/
def tapMean (l : List (Nat × Nat)) : Nat := ((l.map (·.2)).sum + (l.map (·.1)).sum / 2) / (l.map (·.1)).sum

theorem spatial_eq (thresh : Nat) (x : List Nat) : spatial thresh x = x.zipIdx.map fun p => tapMean (taps thresh x p.2 p.1) := rfl

theorem spatial_length (thresh : Nat) (x : List Nat) : (spatial thresh x).length = x.length := by
  rw [spatial_eq, List.length_map, List.length_zipIdx]

theorem spatial_pixel {thresh i v : Nat} {x : List Nat} (h : x[i]? = some v) : (spatial thresh x)[i]? = some (tapMean (taps thresh x i v)) := by
  simp [spatial_eq, List.getElem?_zipIdx, h]

/-- A tap that counts weighs the value of a neighbour within the threshold. -/
theorem tap_eq_some {thresh i v : Nat} {x : List Nat} {dw t : Nat × Nat} (h : tap thresh x i v dw = some t) :
    2 ≤ i + dw.1 ∧ ∃ u, x[i + dw.1 - 2]? = some u ∧ u ≤ v + thresh ∧ v ≤ u + thresh ∧ t = (dw.2, dw.2 * u) := by
  unfold tap at h
  split at h
  · cases h
  next hlow =>
    split at h
    next u hu =>
      split at h
      next hnear => exact ⟨Nat.le_of_not_lt hlow, u, hu, hnear.1, hnear.2, (Option.some.inj h).symm⟩
      · cases h
    · cases h

/-- The pixel itself always counts, with weight 4. -/
theorem own_tap {thresh i v : Nat} {x : List Nat} (h : x[i]? = some v) : (4, 4 * v) ∈ taps thresh x i v :=
  List.mem_filterMap.mpr ⟨(2, 4), by simp, by simp [tap, h]⟩

/-- The mean of one value, however it is weighed, is that value. -/
theorem tapMean_of_equal {l : List (Nat × Nat)} {v : Nat} (hv : ∀ t ∈ l, t.2 = t.1 * v) (hw : ∃ t ∈ l, 0 < t.1) : tapMean l = v := by
  have hpos : 0 < (l.map (·.1)).sum := by
    obtain ⟨t, ht, h0⟩ := hw
    exact h0.trans_le (List.single_le_sum (fun _ _ => Nat.zero_le _) _ (List.mem_map_of_mem ht))
  have hsum : (l.map (·.2)).sum = (l.map (·.1)).sum * v := by
    rw [List.map_congr_left hv, List.sum_map_mul_right]
  rw [tapMean, hsum, Nat.mul_add_div hpos, Nat.div_eq_of_lt (by omega), Nat.add_zero]

/-- A pixel keeps its value where every neighbour that counts has the same. -/
theorem spatial_keeps {thresh i v : Nat} {x : List Nat} (h : x[i]? = some v)
    (hn : ∀ d u, d ≤ 4 → 2 ≤ i + d → x[i + d - 2]? = some u → u ≤ v + thresh → v ≤ u + thresh → u = v) :
    (spatial thresh x)[i]? = some v := by
  rw [spatial_pixel h, tapMean_of_equal (v := v) ?_ ⟨_, own_tap h, Nat.succ_pos 3⟩]
  intro t ht
  obtain ⟨dw, hdw, htap⟩ := List.mem_filterMap.mp ht
  have hd : ∀ dw ∈ ([(0, 1), (1, 2), (2, 4), (3, 2), (4, 1)] : List (Nat × Nat)), dw.1 ≤ 4 := by decide
  obtain ⟨hlow, u, hu, hle, hge, rfl⟩ := tap_eq_some htap
  rw [hn dw.1 u (hd dw hdw) hlow hu hle hge]

theorem spatial_replicate (thresh v n : Nat) : spatial thresh (List.replicate n v) = List.replicate n v := by
  refine List.ext_getElem? fun i => ?_
  have hvalue : ∀ {j u : Nat}, (List.replicate n v)[j]? = some u → u = v := fun h => by
    obtain ⟨-, rfl⟩ := List.getElem?_eq_some_iff.mp h
    simp
  cases h : (List.replicate n v)[i]? with
  | none => rwa [List.getElem?_eq_none_iff, spatial_length, ← List.getElem?_eq_none_iff]
  | some u =>
    obtain rfl := hvalue h
    exact spatial_keeps h fun _ _ _ _ hu _ _ => hvalue hu

theorem spatial_edge {thresh i v : Nat} {x : List Nat} (h : x[i]? = some v)
    (hn : ∀ d u, d ≤ 4 → d ≠ 2 → 2 ≤ i + d → x[i + d - 2]? = some u → v + thresh < u ∨ u + thresh < v) :
    (spatial thresh x)[i]? = some v := by
  refine spatial_keeps h fun d u hd hlow hu hle hge => ?_
  by_cases hown : d = 2
  · subst hown
    exact Option.some.inj (hu.symm.trans h)
  · have hfar := hn d u hd hown hlow hu
    omega

/-! ## Temporal noise reduction (R265) -/

theorem temporal_far {thresh z x : Nat} (alpha : Nat) (h : x > z + thresh ∨ z > x + thresh) : temporal alpha thresh z x = x := if_pos h

theorem temporal_near {thresh z x : Nat} (alpha : Nat) (h : ¬(x > z + thresh ∨ z > x + thresh)) :
    temporal alpha thresh z x = clamp16 ((z : Int) + (((x : Int) - z) * alpha + 8) / 16) := if_neg h

theorem temporal_full {x : Nat} (thresh z : Nat) (h : x ≤ 65535) : temporal 16 thresh z x = x := by
  by_cases hfar : x > z + thresh ∨ z > x + thresh
  · exact temporal_far 16 hfar
  · have hstep : (z : Int) + (((x : Int) - z) * (16 : Nat) + 8) / 16 = x := by omega
    rw [temporal_near 16 hfar, hstep, clamp16_of_le h]

theorem temporal_still {z : Nat} (alpha thresh : Nat) (h : z ≤ 65535) : temporal alpha thresh z z = z := by
  have hstep : (z : Int) + (((z : Int) - z) * alpha + 8) / 16 = z := by
    rw [sub_self, zero_mul]
    rfl
  rw [temporal_near alpha (by omega), hstep, clamp16_of_le h]

/-! ## Linearisation and colour (R266, R267) -/

theorem colour_le {b : List Byte} {x : List Nat} {v : Nat} (h : v ∈ colour b x) : v ≤ 65535 := by
  obtain ⟨i, -, rfl⟩ := List.mem_map.mp h
  exact clamp16_le _

/-- Settles O39: an output is clamped, and of the neighbours that count in a mean each has the pixel's own value. -/
theorem imageStages : Obligations.ImageStages :=
  ⟨clamp16_le, spatial_replicate, fun _ _ _ _ => spatial_edge, fun alpha _ _ _ => temporal_far alpha, fun thresh z _ => temporal_full thresh z,
    fun alpha thresh _ => temporal_still alpha thresh, fun _ _ _ _ => clamp16_le _, fun _ _ => ⟨rfl, fun _ => colour_le⟩⟩

end Sys2Proof.Machine
end

section
/-!
PROOFS. Camera lines (R251 to R254, R258).
-/
namespace Sys2Proof.Machine

/-! ## One camera among the four -/

theorem cam_of_insp {s t : State} (h : t.insp = s.insp) (k : Nat) : t.cam k = s.cam k := congrArg (fun x : Insp => cell x.cams k {}) h

theorem cam_setCam_same {k : Nat} {f : Cam → Cam} {s : State} (h : k < s.insp.cams.length) : (setCam k f s).cam k = f (s.cam k) :=
  (cell_upd _ _ _ _ _ h).trans (if_pos rfl)

/-- What an update of a camera keeps, each camera keeps. -/
theorem cam_setCam_keeps {β : Type} (g : Cam → β) {f : Cam → Cam} (h : ∀ c, g (f c) = g c) (k j : Nat) (s : State) :
    g ((setCam k f s).cam j) = g (s.cam j) := cell_upd_keeps g h _ k j _

/-! ## A CSI-2 frame that no trigger waits for (R251, R254) -/

section
variable {k vc : Fin 4} {s : State} (early : Bool) (ps : List CsiPacket)

section
variable (h : (s.cam k).trigs = [])
include h

theorem cameraLineTimeout_idle : execCameraLineTimeout k s = .next s := by
  simp only [execCameraLineTimeout, h]

theorem csiLineRx_idle : execCsiLineRx k vc early ps s =
    .next (if (s.cam k).seg.isSome ∧ vc.val = cxVc (camCtx k s) then countPackets k ps s else s) := by
  simp only [execCsiLineRx, h]

theorem csiLineRx_idle_other (hno : (s.cam k).seg = none ∨ vc.val ≠ cxVc (camCtx k s)) : execCsiLineRx k vc early ps s = .next s := by
  rw [csiLineRx_idle early ps h, if_neg]
  rintro ⟨hsome, hvc⟩
  rcases hno with hseg | hne
  · simp [hseg] at hsome
  · exact hne hvc

theorem csiLineRx_idle_counted (hseg : (s.cam k).seg.isSome = true) (hvc : vc.val = cxVc (camCtx k s)) :
    execCsiLineRx k vc early ps s = .next (countPackets k ps s) := by
  rw [csiLineRx_idle early ps h, if_pos ⟨hseg, hvc⟩]

end

/-! ## A CSI-2 frame that answers a trigger (R251 to R254, R258) -/

/-- The packets of a camera line: those of the data types RAW10 and RAW12 (R251). -/
def linePackets (ps : List CsiPacket) : List CsiPacket := ps.filter fun p => p.type == 0x2B || p.type == 0x2C

/-- The state in which a CSI-2 frame answers the oldest trigger: its packets are counted, and no part is to be discarded. -/
def lineBegun (k : Nat) (ps : List CsiPacket) (s : State) : State := setCam k (fun c => { c with skipPart := false }) (countPackets k ps s)

theorem unfit_of {b : List Byte} {ps : List CsiPacket} (h : (∃ p ∈ ps, p.good = false) ∨ lineFits b (linePackets ps) = false) :
    ¬(ps.all (·.good) && lineFits b (linePackets ps)) = true := by
  intro hfit
  obtain ⟨hall, hfits⟩ := (Bool.and_eq_true _ _).mp hfit
  rcases h with ⟨p, hp, e⟩ | e
  · exact Bool.false_ne_true (e.symm.trans (List.all_eq_true.mp hall p hp))
  · exact Bool.false_ne_true (e.symm.trans hfits)

variable {t : CamTrig} {ts : List CamTrig} (h : (s.cam k).trigs = t :: ts)
include h

theorem csiLineRx_other (hvc : vc.val ≠ cxVc t.seg.ctx) : execCsiLineRx k vc early ps s = .next s := by
  simp only [execCsiLineRx, h, if_pos hvc]

theorem csiLineRx_part (hvc : vc.val = cxVc t.seg.ctx) (hskip : (s.cam k).skipPart = true) :
    execCsiLineRx k vc true ps s = .next (countPackets k ps s) := by
  simp only [execCsiLineRx, h, if_neg (not_not.mpr hvc), hskip, and_self, if_true]

theorem csiLineRx_answers (hvc : vc.val = cxVc t.seg.ctx) (hwhole : (s.cam k).skipPart = false ∨ early = false) :
    execCsiLineRx k vc early ps s = .next (
      if ps.all (·.good) && lineFits t.seg.ctx (linePackets ps) then
        takeLine k (some (formPixels t.seg.ctx (linePackets ps))) (lineGood k t (lineBegun k ps s))
      else if (s.cam k).quiet && ofPort k t s then takeLine k none (lineMissing k t (lineBegun k ps s))
      else takeLine k none (stickRec (source := 0x20 + k) .lineBad
        (setCam k (fun c => { c with linesBad := satAdd c.linesBad 1, missRun := 0 }) (lineBegun k ps s)))) := by
  have hpart : ¬((s.cam k).skipPart = true ∧ early = true) := by
    rintro ⟨hskip, hearly⟩
    rcases hwhole with e | e
    · simp [e] at hskip
    · simp [e] at hearly
  simp only [execCsiLineRx, h, if_neg (not_not.mpr hvc), if_neg hpart]
  rfl

section
variable (hvc : vc.val = cxVc t.seg.ctx) (hwhole : (s.cam k).skipPart = false ∨ early = false)
include hvc hwhole

theorem csiLineRx_good (hgood : ∀ p ∈ ps, p.good = true) (hfits : lineFits t.seg.ctx (linePackets ps) = true) :
    execCsiLineRx k vc early ps s =
      .next (takeLine k (some (formPixels t.seg.ctx (linePackets ps))) (lineGood k t (lineBegun k ps s))) := by
  have hall : (ps.all (·.good) && lineFits t.seg.ctx (linePackets ps)) = true := by simpa [hfits] using hgood
  rw [csiLineRx_answers early ps h hvc hwhole, if_pos hall]

variable (hbad : (∃ p ∈ ps, p.good = false) ∨ lineFits t.seg.ctx (linePackets ps) = false)
include hbad

theorem csiLineRx_bad (hloud : (s.cam k).quiet = false ∨ ofPort k t s = false) :
    execCsiLineRx k vc early ps s = .next (takeLine k none (stickRec (source := 0x20 + k) .lineBad
      (setCam k (fun c => { c with linesBad := satAdd c.linesBad 1, missRun := 0 }) (lineBegun k ps s)))) := by
  have hquiet : ¬((s.cam k).quiet && ofPort k t s) = true := by
    rcases hloud with e | e <;> simp [e]
  rw [csiLineRx_answers early ps h hvc hwhole, if_neg (unfit_of hbad), if_neg hquiet]

theorem csiLineRx_restarting (hq : (s.cam k).quiet = true) (ho : ofPort k t s = true) :
    execCsiLineRx k vc early ps s = .next (takeLine k none (lineMissing k t (lineBegun k ps s))) := by
  rw [csiLineRx_answers early ps h hvc hwhole, if_neg (unfit_of hbad), if_pos (by simp [hq, ho])]

end

theorem cameraLineTimeout_early (hlt : s.pos.mono.toNat < t.fired + 1000 * fld (objWord t.seg.ctx 8) 20 12) :
    execCameraLineTimeout k s = .next s := by
  simp only [execCameraLineTimeout, h, if_pos hlt]

theorem cameraLineTimeout_due (hle : t.fired + 1000 * fld (objWord t.seg.ctx 8) 20 12 ≤ s.pos.mono.toNat) :
    execCameraLineTimeout k s = .next (takeLine k none (lineMissing k t (setCam k (fun c => { c with skipPart := true }) s))) := by
  simp only [execCameraLineTimeout, h, if_neg (Nat.not_lt.mpr hle)]

end

/-! ## Good and missing lines (R254, R258) -/

section
variable {k : Nat} {s : State} (t : CamTrig)

/-- What a missing line makes of its camera: one more is missing, and the 16th in a row loses it. -/
def Cam.lineMissed (c : Cam) : Cam := { c with
  linesMissing := satAdd c.linesMissing 1, missRun := min 16 (c.missRun + 1)
  st := if c.seg.isSome ∧ c.missRun = 15 then .lost else c.st }

/-- What a good line makes of its camera, which has a segment in progress; `own` says that the line is of the port as it now runs. -/
def Cam.lineCame (own : Bool) (c : Cam) : Cam := { c with
  st := if own then .stream else if c.st = .lost then .sync else c.st, quiet := c.quiet && !own, missRun := 0 }

theorem lineMissing_cam (hk : k < s.insp.cams.length) : (lineMissing k t s).cam k = (s.cam k).lineMissed := by
  unfold lineMissing
  extract_lets c s1 s2
  have h1 : s1.cam k = { c with linesMissing := satAdd c.linesMissing 1, missRun := min 16 (c.missRun + 1) } := cam_setCam_same hk
  have hinsp : s2.insp = s1.insp := by
    unfold s2
    split <;> rfl
  have h2 : s2.cam k = s1.cam k := cam_of_insp hinsp k
  have hk2 : k < s2.insp.cams.length := by
    rw [hinsp]
    exact hk.trans_eq (length_upd _ _ _).symm
  split
  next hlost =>
    obtain ⟨hseg, hrun, -⟩ := hlost
    have hcond : c.seg.isSome ∧ c.missRun = 15 := ⟨hseg, Nat.succ_injective hrun⟩
    refine (cam_setCam_same hk2).trans ?_
    rw [h2, h1]
    simp only [Cam.lineMissed, c, if_pos hcond]
  next hkept =>
    rw [h2, h1]
    by_cases hcond : c.seg.isSome ∧ c.missRun = 15
    · have hst : c.st = .lost := by
        by_contra hne
        exact hkept ⟨hcond.1, by omega, hne⟩
      simp only [Cam.lineMissed, if_pos hcond, ← hst, c]
    · simp only [Cam.lineMissed, if_neg hcond, c]

theorem lineGood_cam (hk : k < s.insp.cams.length) (hseg : (s.cam k).seg.isSome = true) :
    (lineGood k t s).cam k = (s.cam k).lineCame (ofPort k t s) := by
  unfold lineGood
  extract_lets c own s1
  have hsome : ¬c.seg.isNone = true := by simpa [c] using Option.isSome_iff_ne_none.mp hseg
  have hcam : s1.cam k = c.lineCame own := cam_setCam_same hk
  rw [if_neg hsome]
  split
  · exact (cam_of_insp (event_insp _ _) k).trans hcam
  · exact hcam

theorem lineGood_off (hseg : (s.cam k).seg = none) : lineGood k t s = s := by
  simp only [lineGood, hseg, Option.isNone_none, if_true]

end

theorem cameraLines : Claims.CameraLines := by
  refine ⟨fun k vc early ps s h =>
    ⟨cameraLineTimeout_idle h, csiLineRx_idle_other early ps h, csiLineRx_idle_counted early ps h⟩, ?answered, ?judged⟩
  case answered =>
    rintro k vc early ps _ t ts s _ h rfl rfl
    refine ⟨csiLineRx_other early ps h, ?_, fun hvc hwhole => ⟨csiLineRx_good early ps h hvc hwhole, fun hbad =>
      ⟨csiLineRx_bad early ps h hvc hwhole hbad, csiLineRx_restarting early ps h hvc hwhole hbad⟩⟩,
      cameraLineTimeout_early h, cameraLineTimeout_due h⟩
    rintro hvc hskip rfl
    exact csiLineRx_part ps h hvc hskip
  case judged =>
    intro k t s hk hlen
    have hin : k < s.insp.cams.length := hk.trans_eq hlen.symm
    rw [lineMissing_cam t hin]
    refine ⟨rfl, fun hseg => ?_, fun hrun => ?_, fun hseg => ⟨?_, lineGood_off t hseg⟩⟩
    · rw [lineGood_cam t hin hseg]
      exact ⟨fun hrun => if_pos ⟨hseg, hrun⟩, rfl, fun hown => if_pos hown, fun hother => if_neg (by simp [hother])⟩
    · exact if_neg fun hlost => hrun hlost.2
    · exact if_neg fun hlost => by simp [hseg] at hlost

end Sys2Proof.Machine
end

section
/-!
PROOFS. Frames through Opal and the scripts of exposure sets (R261, R274 to R276).
-/
namespace Sys2Proof.Machine

/-! ## The frame Opal begins (R276) -/

/-- The better of the best frame so far and the next. -/
def firstFrame (best : Option (Nat × Nat × Nat × Nat)) (x : Nat × Nat × Nat × Nat) : Option (Nat × Nat × Nat × Nat) :=
  match best with
  | none => some x
  | some y => if before x y then some x else some y

theorem before_deadline {x y : Nat × Nat × Nat × Nat} (h : before x y = true) : x.1 ≤ y.1 := by
  have := of_decide_eq_true h
  omega

theorem not_before_deadline {x y : Nat × Nat × Nat × Nat} (h : ¬before x y = true) : y.1 ≤ x.1 := by
  have : ¬(x.1 < y.1 ∨ _) := fun hlt => h (decide_eq_true hlt)
  omega

/-- The frame chosen has the earliest deadline of those looked at. -/
theorem foldl_firstFrame (l : List (Nat × Nat × Nat × Nat)) (y : Nat × Nat × Nat × Nat) :
    ∃ z ∈ y :: l, l.foldl firstFrame (some y) = some z ∧ ∀ x ∈ y :: l, z.1 ≤ x.1 := by
  induction l generalizing y with
  | nil => exact ⟨y, List.mem_singleton_self y, rfl, by simp⟩
  | cons a l ih =>
    by_cases h : before a y = true
    · obtain ⟨z, hz, hfold, hmin⟩ := ih a
      refine ⟨z, List.mem_cons_of_mem y hz, ?_, List.forall_mem_cons.mpr ⟨?_, hmin⟩⟩
      · rw [List.foldl_cons, firstFrame, if_pos h, hfold]
      · exact (hmin a List.mem_cons_self).trans (before_deadline h)
    · obtain ⟨z, hz, hfold, hmin⟩ := ih y
      obtain ⟨hy, hl⟩ := List.forall_mem_cons.mp hmin
      refine ⟨z, ?_, ?_, ?_⟩
      · exact List.mem_cons.mpr ((List.mem_cons.mp hz).imp_right (List.mem_cons_of_mem a))
      · rw [List.foldl_cons, firstFrame, if_neg h, hfold]
      · exact List.forall_mem_cons.mpr ⟨hy, List.forall_mem_cons.mpr ⟨hy.trans (not_before_deadline h), hl⟩⟩

theorem foldl_firstFrame_none {l : List (Nat × Nat × Nat × Nat)} (h : l ≠ []) :
    ∃ z ∈ l, l.foldl firstFrame none = some z ∧ ∀ x ∈ l, z.1 ≤ x.1 := by
  cases l with
  | nil => exact absurd rfl h
  | cons y l => exact foldl_firstFrame l y

/-- The state in which Opal processes the frame in buffer b of camera k. -/
def processing (k b : Nat) (s : State) : State :=
  { setCam k (fun c => { c with bufs := upd c.bufs b (fun _ => .processing) }) s with
    insp := { (setCam k (fun c => { c with bufs := upd c.bufs b (fun _ => .processing) }) s).insp with
      running := some (k, b), since := s.pos.mono.toNat } }

theorem opalFrameStart_eq (s : State) : execOpalFrameStart s = .next (match s.insp.running, (waitingFrames s).foldl firstFrame none with
    | none, some (_, _, k, b) => if !switched k s then s else processing k b s
    | _, _ => s) := rfl

theorem opalFrameStart_begins {s : State} (hr : s.insp.running = none) (hw : waitingFrames s ≠ []) :
    ∃ d p k b, (d, p, k, b) ∈ waitingFrames s ∧ (∀ x ∈ waitingFrames s, d ≤ x.1) ∧
      (switched k s = false → execOpalFrameStart s = .next s) ∧
      (switched k s = true → execOpalFrameStart s = .next (processing k b s)) := by
  obtain ⟨⟨d, p, k, b⟩, hmem, hfold, hmin⟩ := foldl_firstFrame_none hw
  refine ⟨d, p, k, b, hmem, hmin, fun h => ?_, fun h => ?_⟩ <;> simp [opalFrameStart_eq, hr, hfold, h]

theorem opalFrameStart_idle {s : State} (h : s.insp.running.isSome = true ∨ waitingFrames s = []) : execOpalFrameStart s = .next s := by
  rw [opalFrameStart_eq]
  rcases h with h | h
  · obtain ⟨r, hr⟩ := Option.isSome_iff_exists.mp h
    rw [hr]
  · rw [h]
    cases s.insp.running <;> rfl

theorem switched_iff {j k t : Nat} {s : State} (h : s.insp.lastDone = some (j, t)) :
    switched k s = true ↔ (j = k ∨ t + 1024 ≤ s.pos.mono.toNat) := by
  simp [switched, h]

/-! ## What the end of a frame leaves of Opal's progress (R276, R284) -/

/-- From s to t Opal goes on with the frame it processes, and no camera's count of frames changes. -/
structure SameFrames (s t : State) : Prop where
  /-- The frame in processing. -/
  running : t.insp.running = s.insp.running
  /-- INSP_FRAMES_DONE. -/
  done : ∀ k, (t.cam k).framesDone = (s.cam k).framesDone

namespace SameFrames

theorem refl (s : State) : SameFrames s s := ⟨rfl, fun _ => rfl⟩

theorem trans {s t u : State} (h : SameFrames s t) (g : SameFrames t u) : SameFrames s u :=
  ⟨g.running.trans h.running, fun k => (g.done k).trans (h.done k)⟩

theorem foldl {α : Type} (g : State → α → State) (l : List α) (s : State) (h : ∀ s x, SameFrames s (g s x)) : SameFrames s (l.foldl g s) :=
  List.foldlRecOn (motive := SameFrames s) l g (.refl s) fun t ht x _ => ht.trans (h t x)

/-- What leaves the inspection pipeline's cameras and the frame it processes. -/
theorem of_insp {s t : State} (hr : t.insp.running = s.insp.running) (hc : t.insp.cams = s.insp.cams) : SameFrames s t :=
  ⟨hr, fun k => by rw [State.cam, hc, State.cam]⟩

theorem of_eq {s t : State} (h : t.insp = s.insp) : SameFrames s t := of_insp (congrArg Insp.running h) (congrArg Insp.cams h)

theorem of_onlyChanges {ps : List Part} {s t : State} (h : OnlyChanges ps s t) (hp : .insp ∉ ps) : SameFrames s t :=
  of_eq (h .insp hp).symm

end SameFrames

theorem setCam_sameFrames (k : Nat) {f : Cam → Cam} (hf : ∀ c, (f c).framesDone = c.framesDone) (s : State) : SameFrames s (setCam k f s) :=
  ⟨rfl, fun j => cam_setCam_keeps Cam.framesDone hf k j s⟩

theorem SameFrames.emit {s t : State} (o : Output) (h : SameFrames s t) : SameFrames s (emit o t) := h.trans (.of_eq (emit_insp t o))

theorem recordsDue_sameFrames (s : State) : SameFrames s (recordsDue s) := by
  have hrecords : ∀ fuel (t : State), SameFrames t (writeRecords fuel t) := fun fuel => by
    induction fuel with
    | zero => exact .refl
    | succ fuel ih =>
      intro t
      unfold writeRecords
      split
      · exact .refl t
      · split
        · exact .refl t
        next p _ => exact (SameFrames.of_onlyChanges (writeRecord_frame p t) (by decide)).trans (ih _)
  exact (hrecords _ s).trans (.of_onlyChanges (answerResets_onlyChanges _) (by decide))

theorem qualityRecord_sameFrames (cams : BitVec 4) (p : Page) (s : State) : SameFrames s (qualityRecord cams p s) := by
  unfold qualityRecord
  extract_lets words _ s0 _ s2
  split
  next i r _ =>
    extract_lets s1
    have h1 : SameFrames s s1 := .emit _ (.of_insp rfl rfl)
    split
    · exact h1.trans (.of_eq rfl)
    · exact h1
  · split <;> exact .of_insp rfl rfl

theorem reportPages_sameFrames (k E : Nat) (s : State) : SameFrames s (reportPages k E s) :=
  ((SameFrames.of_eq (mapPages_insp s _ _)).trans (.foldl _ _ _ fun t p => qualityRecord_sameFrames _ p t)).trans (recordsDue_sameFrames _)

theorem framePages_sameFrames (k : Nat) (f : CamFrame) (meas : List (Option (List Nat))) (st : FrameStats) (s : State) :
    SameFrames s (framePages k f meas st s) := by
  refine .foldl _ _ s fun t p => ?_
  extract_lets parts bad good vals s1
  have h1 : SameFrames t s1 := .of_insp rfl rfl
  split
  · exact h1
  · exact h1.trans (.of_eq rfl)

theorem noteHold_insp (k : Nat) (f : CamFrame) (s : State) : (noteHold k f s).insp = s.insp := by
  have honce : ∀ b e p (t : State), (oncePerPage b .alignHold e (some p) t).insp = t.insp := by
    intro b e p t
    unfold oncePerPage
    dsimp only
    split <;> rfl
  unfold noteHold
  dsimp only
  split
  · rfl
  · exact List.foldlRecOn (motive := fun t => t.insp = s.insp) _ _ rfl fun t ht p _ => (honce _ _ p t).trans ht

theorem writeStats_sameFrames (k : Nat) (f : CamFrame) (dropped : Bool) (st : FrameStats) (s : State) :
    SameFrames s (writeStats k f dropped st s) := by
  unfold writeStats
  split
  next i r _ =>
    extract_lets _ s1
    have h1 : SameFrames s s1 := .emit _ (.of_insp rfl rfl)
    split
    · exact h1.trans (.of_eq rfl)
    · exact h1
  · split <;> exact .of_insp rfl rfl

theorem captureDone_sameFrames (k : Nat) (f : CamFrame) (out : List (Option (List (List Nat)))) (s : State) :
    SameFrames s (captureDone k f out s) := by
  unfold captureDone
  split
  · exact .refl s
  · split
    · exact .refl s
    · extract_lets bytes _ s1
      have h1 : SameFrames s s1 := .of_insp rfl rfl
      split
      · exact (h1.emit _).trans (.of_eq (complete_insp _ _ _ _ _ _ _))
      · exact h1.trans (.of_eq (complete_insp _ _ _ _ _ _ _))

/-! ## What a frame gives calibration changes no count (R271, R295 to R300) -/

theorem sampleLine_onlyChanges (x : Measured) (i : Nat) (v t prev : List Nat) (s : State) : OnlyChanges [.cal] s (sampleLine x i v t prev s) := by
  refine .foldl _ _ s fun u p => ?_
  dsimp only
  split
  · unfold shareSample
    dsimp only
    split
    · exact .refl _ u
    · exact onlyChanges_cal u _
  · exact onlyChanges_cal u _

theorem calLine_sameFrames (x : Measured) (i : Nat) (s : State) : SameFrames s (calLine x i s) := by
  unfold calLine
  split
  · exact .refl s
  next v _ =>
    extract_lets t prev s1 now old _ s2
    have h1 : SameFrames s s1 := by
      unfold s1
      split
      · exact .of_onlyChanges (sampleLine_onlyChanges x i v t prev s) (by decide)
      · exact .refl s
    have h2 : SameFrames s1 s2 := by
      unfold s2
      split <;> exact .of_insp rfl rfl
    exact (h1.trans h2).trans (setCam_sameFrames x.cam (f := fun c => { c with prevRef := t }) (fun _ => rfl) s2)

theorem measureMark_sameFrames (x : Measured) (s : State) (m : Mark) : SameFrames s (measureMark x s m) := by
  unfold measureMark
  dsimp only
  split <;> exact .of_insp rfl rfl

theorem measureMarks_sameFrames (x : Measured) (s : State) : SameFrames s (measureMarks x s) := by
  unfold measureMarks
  extract_lets new s1 s2 keep
  have h1 : SameFrames s s1 := setCam_sameFrames x.cam (f := fun c => { c with meas := c.meas ++ new }) (fun _ => rfl) s
  have h2 : SameFrames s1 s2 := .foldl _ _ s1 (measureMark_sameFrames x)
  exact (h1.trans h2).trans
    (setCam_sameFrames x.cam (f := fun c => { c with meas := c.meas.filter fun m => decide (keep ≤ m.1 + 64) }) (fun _ => rfl) s2)

theorem calFrame_sameFrames (x : Measured) (s : State) : SameFrames s (calFrame x s) := by
  have hlines : SameFrames s ((List.range x.frame.n).foldl (fun s i => calLine x i s) s) := .foldl _ _ s fun t i => calLine_sameFrames x i t
  exact (hlines.trans (measureMarks_sameFrames x _)).trans (.of_insp rfl rfl)

/-! ## A frame that ends (R276, R284) -/

/-- As a frame ends Opal is free and one more frame of its camera is done; what follows changes neither. -/
theorem finishFrame_ends {k : Nat} (b : Nat) (f : CamFrame) {s : State} (hk : k < s.insp.cams.length) :
    ∃ u : State, u.insp.running = none ∧ (u.cam k).framesDone = satAdd (s.cam k).framesDone 1 ∧ SameFrames u (finishFrame k b f s) := by
  unfold finishFrame
  extract_lets c ctx g restart
  split
  next out z _ =>
    extract_lets meas refs
    split
    next dx dy conf hold _ =>
      extract_lets st s1 now s2 s3 trusted x s4
      have hdone : (s2.cam k).framesDone = satAdd (s.cam k).framesDone 1 :=
        congrArg Cam.framesDone (cam_setCam_same (s := { s with free := s.free + 1 }) hk)
      have h3 : SameFrames s2 s3 := by
        unfold s3
        split
        · exact .of_eq (noteHold_insp k f s2)
        · exact .refl s2
      have h4 : SameFrames s3 s4 := (writeStats_sameFrames _ _ _ _ s3).trans (captureDone_sameFrames _ _ _ _)
      exact ⟨s2, rfl, hdone, ((h3.trans h4).trans (calFrame_sameFrames x s4)).trans
        ((framePages_sameFrames _ _ _ _ _).trans (reportPages_sameFrames _ _ _))⟩

theorem opalFrameDone_idle {s : State} (h : s.insp.running = none) : execOpalFrameDone s = .next s := by
  simp only [execOpalFrameDone, h]

theorem opalFrameDone_ends {k b : Nat} {s : State} (h : s.insp.running = some (k, b)) (hk : k < s.insp.cams.length) :
    ∃ t, execOpalFrameDone s = .next t ∧ t.insp.running = none ∧ (t.cam k).framesDone = satAdd (s.cam k).framesDone 1 := by
  obtain ⟨u, hfree, hdone, hsame⟩ := finishFrame_ends b (cell (s.cam k).frames b {}) hk
  refine ⟨finishFrame k b (cell (s.cam k).frames b {}) s, ?_, hsame.running.trans hfree, (hsame.done k).trans hdone⟩
  simp only [execOpalFrameDone, h]

/-! ## Script writes (R274, R275) -/

section
variable {k : Fin 4} {s : State}

/-- The set `e` of camera k has `rest` of its script still to be written. -/
def scriptLeft (k : Nat) (e : ExpSet) (rest : List (Word × Word)) (s : State) : State :=
  setCam k (fun c => { c with sets := c.sets.map fun y => if y.id = e.id then { e with
    script := rest, written := rest.isEmpty, applyAt := (s.cam k).frameSeq + latencyOf k e s - 1 } else y }) s

theorem not_writing {e : ExpSet} (h : e.started = false ∨ e.written = true) : ¬(e.started && !e.written) = true := by
  rcases h with h | h <;> simp [h]

theorem i2cWriteDone_idle (ack : Bool) (h : ∀ e ∈ (s.cam k).sets, e.started = false ∨ e.written = true) :
    execI2cWriteDone k ack s = .next s := by
  have hnone : (s.cam k).sets.find? (fun e => e.started && !e.written) = none :=
    List.find?_eq_none.mpr fun e he => not_writing (h e he)
  simp only [execI2cWriteDone, hnone]

variable {e : ExpSet} (h : (s.cam k).sets.find? (fun e => e.started && !e.written) = some e)
include h

theorem i2cWriteDone_next {w x : Word × Word} {rest : List (Word × Word)} (he : e.script = w :: x :: rest) :
    execI2cWriteDone k true s = .next (sendEntry k e x (turnXfer k (scriptLeft k e (x :: rest) s))) := by
  simp only [execI2cWriteDone, h, he]
  rfl

theorem i2cWriteDone_last {w : Word × Word} (he : e.script = [w]) :
    execI2cWriteDone k true s = .next (startSet k false (turnXfer k (scriptLeft k e [] s))) := by
  simp only [execI2cWriteDone, h, he]
  rfl

theorem i2cWriteDone_failed : execI2cWriteDone k false s = .next (startSet k false (turnXfer k
    (stickEvent .i2cError { ev := .i2cError, source := 0x20 + k, p0 := w32 k } (abandonSets k (fun x => x.id == e.id) 0x30 s)))) := by
  simp only [execI2cWriteDone, h]
  rfl

end

theorem framesAndScripts : Claims.FramesAndScripts :=
  ⟨fun _ => opalFrameStart_begins, fun _ _ _ _ => switched_iff, fun _ => opalFrameStart_idle, fun _ => opalFrameDone_idle,
    fun _ _ _ hr hk hlen => opalFrameDone_ends hr (hk.trans_eq hlen.symm),
    fun _ _ _ h => ⟨fun _ _ _ => i2cWriteDone_next h, fun _ => i2cWriteDone_last h, i2cWriteDone_failed h⟩,
    fun _ _ h => ⟨i2cWriteDone_idle true h, i2cWriteDone_idle false h⟩⟩

/-- Settles O38: a camera line by whether it answers a trigger and fits, the choice of a frame by induction on the WAITING ones, the end of a frame
by what leaves Opal's progress as it is. -/
theorem camerasAndFrames : Obligations.CamerasAndFrames := ⟨cameraLines, framesAndScripts⟩

end Sys2Proof.Machine
end

section
/-!
PROOFS. The inspection commands (R273, R286 to R290).
-/
namespace Sys2Proof.Machine

/-! ## Operands -/

/-- A camera number, and bit 8 with one, as INSP_GET_STATUS reads them (R286). -/
theorem cameraOperand_fields : ∀ m < 4, BitVec.ofNat 32 m &&& ~~~ 0x103 = 0 ∧ fld (BitVec.ofNat 32 m) 0 2 = m ∧
    flag (BitVec.ofNat 32 m) 8 = false ∧ BitVec.ofNat 32 (256 + m) &&& ~~~ 0x103 = 0 ∧ fld (BitVec.ofNat 32 (256 + m)) 0 2 = m ∧
    flag (BitVec.ofNat 32 (256 + m)) 8 = true := by decide

/-- A camera number and a count of script entries, as INSP_SET_EXPOSURE reads them (R288). -/
theorem exposureOperand_fields : ∀ cam < 4, ∀ n < 30, BitVec.ofNat 32 (cam + 256 * n) &&& ~~~ 0x1F03 = 0 ∧
    fld (BitVec.ofNat 32 (cam + 256 * n)) 0 2 = cam ∧ fld (BitVec.ofNat 32 (cam + 256 * n)) 8 5 = n := by decide

theorem passes_flatMap {α : Type} (l : List α) (f : α → List (Bool × Ans)) : Passes (l.flatMap f) ↔ ∀ i ∈ l, Passes (f i) :=
  List.forall_mem_flatMap

section
variable {k : Fin 16} {c : RungCmd} {s : State}

/-! ## INSP_GET_STATUS (R286) -/

/-- A camera with its counters cleared. -/
def Cam.countersClear (c : Cam) : Cam := { c with framesDone := 0, framesDropped := 0, linesBad := 0, linesMissing := 0, csiCorrected := 0 }

theorem inspGetStatus_answers (h : Rung 0x0700 1 k c s) (hw : c.w 0 &&& ~~~ 0x103 = 0) (hb : s.host.opState ≠ .boot) :
    execInspGetStatus k s = .next (respond k (okWith (camView (s.cam (fld (c.w 0) 0 2))))
      (if flag (c.w 0) 8 = true then setCam (fld (c.w 0) 0 2) Cam.countersClear (begun k s) else begun k s)) := by
  refine congrArg Host.Outcome.next (command_done h ?_ rfl)
  simp only [passes_cons, passes_nil, and_true]
  exact ⟨reservedW_passes hw, notBoot_passes hb⟩

theorem inspGetStatus_reads (h : Rung 0x0700 1 k c s) (hw : (c.w 0).toNat < 4) (hb : s.host.opState ≠ .boot) :
    execInspGetStatus k s = .next (respond k (okWith (camView (s.cam (c.w 0).toNat))) (begun k s)) := by
  obtain ⟨hmask, hcam, hclear, -⟩ := cameraOperand_fields _ hw
  rw [← word_of_toNat rfl] at hmask hcam hclear
  rw [inspGetStatus_answers h hmask hb, hcam, hclear]
  rfl

theorem inspGetStatus_clears {m : Nat} (h : Rung 0x0700 1 k c s) (hw : (c.w 0).toNat = 256 + m) (hm : m < 4) (hb : s.host.opState ≠ .boot) :
    execInspGetStatus k s = .next (respond k (okWith (camView (s.cam m))) (setCam m Cam.countersClear (begun k s))) := by
  obtain ⟨-, -, -, hmask, hcam, hclear⟩ := cameraOperand_fields _ hm
  rw [← word_of_toNat hw] at hmask hcam hclear
  rw [inspGetStatus_answers h hmask hb, hcam, hclear]
  rfl

/-! ## INSP_RING_CONFIG (R287) -/

/-- The ring an INSP_RING_CONFIG sets up. -/
def ringOf (c : RungCmd) : InspRing :=
  { enabled := flag (c.w 0) 8, base := c.w 2 ++ c.w 1, sizeLog2 := (c.w 3).toNat, irqCount := (c.w 4).toNat }

theorem inspRingConfig_answers (h : Rung 0x0701 5 k c s) (h0 : c.w 0 &&& ~~~ 0x101 = 0) (h1 : (c.w 1).toNat % 4096 = 0)
    (hlo : 4 ≤ (c.w 3).toNat) (hhi : (c.w 3).toNat ≤ 10) (h4 : (c.w 4).toNat < 256) (hoff : camsConfigured s = 0) :
    execInspRingConfig k s = .next (respond k ok { begun k s with
      insp := if flag (c.w 0) 0 then { s.insp with qual := ringOf c } else { s.insp with stats := ringOf c } }) := by
  have hsize : fld (wd c.payload 3) 0 4 = (c.w 3).toNat := fld_of_lt (n := 4) (w := c.w 3) (by omega)
  have hcount : fld (wd c.payload 4) 0 8 = (c.w 4).toNat := fld_of_lt (n := 8) h4
  have halign : (wn c.payload 1 % 4096 != 0) = false := by simpa [wn, RungCmd.w] using h1
  have hrange : decide ((c.w 3).toNat < 4 ∨ (c.w 3).toNat > 10) = false := decide_eq_false (by omega)
  have hsizeBits : (reservedW c.payload 3 0xF).1 = false := reservedW_passes (reserved_clear (n := 4) (w := c.w 3) (by omega))
  have hcountBits : (reservedW c.payload 4 0xFF).1 = false := reservedW_passes (reserved_clear (n := 8) h4)
  have hnone : (camsConfigured s != 0) = false := by simp [hoff]
  refine congrArg Host.Outcome.next (command_done h ?_ ?_)
  · simp only [passes_cons, passes_nil, hsize, halign, hrange, hsizeBits, hcountBits, hnone, reservedW_passes (i := 0) h0, and_self]
  · dsimp only
    rw [hsize, hcount, wn64_append]
    change done (if flag (c.w 0) 0 = true then _ else _, ok) = _
    split <;> rfl

/-! ## INSP_SET_EXPOSURE (R273, R288) -/

theorem nextId_ne_zero (x : BitVec 16) : nextId x ≠ 0 := by
  unfold nextId
  split
  · decide
  · bv_omega

/-- The set an INSP_SET_EXPOSURE queues. -/
def exposureSet (c : RungCmd) (cam : Nat) (s : State) : ExpSet :=
  { id := nextId (s.cam cam).lastId, tag := some c.tag, script := setScript c.payload, bus := cxBus (camCtx cam s) }

/-- The state in which an INSP_SET_EXPOSURE has been accepted. -/
def exposureQueued (k : Fin 16) (c : RungCmd) (cam : Nat) (s : State) : State :=
  outstand 0x0702 c.tag cam (setCam cam (fun x => { x with
    sets := x.sets ++ [exposureSet c cam s], lastId := (exposureSet c cam s).id }) (begun k s))

theorem exposureQueued_onlyChanges (cam : Nat) : OnlyChanges [.host, .insp] (begun k s) (exposureQueued k c cam s) :=
  ((setCam_onlyChanges cam _ _).mono (by decide)).trans ((outstand_onlyChanges _ _ cam _).mono (by decide))

theorem exposureQueued_cam {cam : Nat} (hcam : cam < s.insp.cams.length) : (exposureQueued k c cam s).cam cam =
    { s.cam cam with sets := (s.cam cam).sets ++ [exposureSet c cam s], lastId := (exposureSet c cam s).id } :=
  cam_setCam_same (s := begun k s) hcam

section
variable {cam n : Nat} (hn : fld (wd c.payload 0) 8 5 = n)
include hn

theorem setScript_length : (setScript c.payload).length = n := by
  rw [setScript, List.length_map, List.length_range, hn]

theorem setScript_entry {i : Nat} (hi : i < n) : (setScript c.payload)[i]? = some (c.w (1 + 2 * i), c.w (2 + 2 * i)) := by
  rw [setScript, hn, List.getElem?_map, List.getElem?_range hi]
  rfl

end

theorem inspSetExposure_accepted {cam n : Nat} (h : Rung 0x0702 3 k c s) (hw : (c.w 0).toNat = cam + 256 * n) (hcam : cam < 4) (h1 : 1 ≤ n)
    (h29 : n ≤ 29) (hlen : 1 + 2 * n ≤ c.payload.length)
    (hbits : ∀ i, i < n → (c.w (1 + 2 * i)).toNat < 262144 ∧ (c.w (2 + 2 * i)).toNat < 65536) (hsets : (s.cam cam).sets = [])
    (hconf : configured cam s = true) (hfree : ∀ g ∈ s.cg.groups, (g.st = .armed ∨ g.st = .locked) → objOf g.objs 12 cam = none)
    (hout : s.host.outst.length < 16) : execInspSetExposure k s = .next (respond k accepted (exposureQueued k c cam s)) := by
  obtain ⟨hmask, hnum, hcount⟩ := exposureOperand_fields cam hcam n (by omega)
  rw [← word_of_toNat hw] at hmask hnum hcount
  have hnum : fld (wd c.payload 0) 0 2 = cam := hnum
  have hcount : fld (wd c.payload 0) 8 5 = n := hcount
  have hrange : decide (n < 1 ∨ n > 29) = false := decide_eq_false (by omega)
  have hshort : decide (c.payload.length < 1 + 2 * n) = false := decide_eq_false (by omega)
  have hentries : ∀ i ∈ List.range n, (reservedW c.payload (1 + 2 * i) 0x3FFFF).1 = false ∧
      (reservedW c.payload (2 + 2 * i) 0xFFFF).1 = false := by
    intro i hi
    obtain ⟨hreg, hdata⟩ := hbits i (List.mem_range.mp hi)
    exact ⟨reservedW_passes (reserved_clear (n := 18) hreg), reservedW_passes (reserved_clear (n := 16) hdata)⟩
  have hheld : (s.cg.groups.any fun g => (g.st == .armed || g.st == .locked) && (objOf g.objs 12 cam).isSome) = false := by
    refine List.any_eq_false.mpr fun g hg hbusy => ?_
    obtain ⟨hst, hobj⟩ := (Bool.and_eq_true _ _).mp hbusy
    rw [hfree g hg (by simpa using hst)] at hobj
    cases hobj
  refine congrArg Host.Outcome.next (command_done h ?_ ?_)
  · simp only [passes_append, passes_cons, passes_nil, passes_flatMap, hnum, hcount, hrange, hshort, hheld, hsets, hconf,
      reservedW_passes (i := 0) hmask, completionsFull_passes hout, List.isEmpty_nil, Bool.not_true, Bool.or_self, and_self, and_true, true_and]
    exact hentries
  · dsimp only
    rw [hnum]
    rfl

/-! ## INSP_I2C_XFER (R289) -/

/-- The transfer an INSP_I2C_XFER asks for, and what it will give. -/
def xferJob (k : Fin 16) (c : RungCmd) (r : Fin 4) (bytes : List Byte) : XferJob := {
  slot := k, cam := fld (c.w 0) 0 2, bus := (fld (c.w 0) 16 2, fld (c.w 0) 8 7), write := (wordBytes (c.payload.drop 1)).take (fld (c.w 0) 18 6)
  read := fld (c.w 0) 24 6, reason := r, bytes := bytes }

/-- What the operands of an INSP_I2C_XFER and the operating state are held to. -/
structure XferAllowed (c : RungCmd) (s : State) : Prop where
  /-- No reserved bit is set. -/
  reserved : c.w 0 &&& ~~~ 0x3FFF7F03 = 0
  /-- I2C_SPEED. -/
  speed : fld (c.w 0) 16 2 ≠ 3
  /-- WRITE_LEN. -/
  write : fld (c.w 0) 18 6 ≤ 32
  /-- READ_LEN. -/
  read : fld (c.w 0) 24 6 ≤ 32
  /-- The operating state is not BOOT. -/
  opState : s.host.opState ≠ .boot

theorem XferAllowed.passes (ha : XferAllowed c s) : Passes [reservedW c.payload 0 0x3FFF7F03,
    (decide (fld (wd c.payload 0) 16 2 = 3 ∨ fld (wd c.payload 0) 18 6 > 32 ∨ fld (wd c.payload 0) 24 6 > 32), badParam 0), notBoot s] := by
  simp only [passes_cons, passes_nil, and_true]
  exact ⟨reservedW_passes ha.reserved,
    decide_eq_false (not_or.mpr ⟨ha.speed, not_or.mpr ⟨Nat.not_lt.mpr ha.write, Nat.not_lt.mpr ha.read⟩⟩), notBoot_passes ha.opState⟩

section
variable (r : Fin 4) (bytes : List Byte) (h : Rung 0x0703 9 k c s) (ha : XferAllowed c s)
include h ha

theorem inspI2cXfer_runs (hidle : ∀ e ∈ (s.cam (fld (c.w 0) 0 2)).sets, e.started = false ∨ e.written = true) :
    execInspI2cXfer k r bytes s = .next (respond k (xferJob k c r bytes).ans (runXfer (xferJob k c r bytes) (begun k s))) := by
  have hquiet : writingSet (fld (wd c.payload 0) 0 2) (begun k s) = false :=
    List.any_eq_false.mpr fun e he => not_writing (hidle e he)
  refine congrArg Host.Outcome.next (command_done h ha.passes ?_)
  dsimp only
  rw [hquiet]
  rfl

theorem inspI2cXfer_waits (hbusy : ∃ e ∈ (s.cam (fld (c.w 0) 0 2)).sets, e.started = true ∧ e.written = false) :
    execInspI2cXfer k r bytes s = .next { begun k s with insp := { s.insp with xfer := some (xferJob k c r bytes) } } := by
  have hwriting : writingSet (fld (wd c.payload 0) 0 2) (begun k s) = true := by
    obtain ⟨e, he, hs, hd⟩ := hbusy
    exact List.any_eq_true.mpr ⟨e, he, by simp [hs, hd]⟩
  refine congrArg Host.Outcome.next (command_later h ha.passes ?_)
  dsimp only
  rw [hwriting]
  rfl

end

theorem xfer_failed {j : XferJob} (h : j.reason ≠ 0) (t : State) : j.ans = { status := 0x30, payload := [w32 j.reason] } ∧
    runXfer j t = stickEvent .i2cError { ev := .i2cError, source := 0x20 + j.cam, p0 := w32 j.cam }
      (emit (.i2c j.cam j.bus.1 j.bus.2 j.write j.read) t) := ⟨if_neg h, if_neg h⟩

theorem turnXfer_runs {m : Nat} {j : XferJob} (hx : s.insp.xfer = some j) (hj : j.cam = m) :
    turnXfer m s = respond j.slot j.ans (runXfer j { s with insp := { s.insp with xfer := none } }) := by
  simp only [turnXfer, hx, if_pos hj]

/-! ## INSP_CAPTURE (R290) -/

/-- What an INSP_CAPTURE of camera `cam` from image line L on is held to. -/
structure CaptureAllowed (c : RungCmd) (cam L : Nat) (s : State) : Prop where
  /-- No reserved bit is set. -/
  reserved : c.w 0 &&& ~~~ 0x103 = 0
  /-- CAMERA. -/
  camera : fld (c.w 0) 0 2 = cam
  /-- EPOCH and LINE name the image line. -/
  line : namedLine (c.w 1) (c.w 2) s = some L
  /-- The buffer's address is a page's. -/
  aligned : (c.w 3).toNat % 4096 = 0
  /-- The buffer holds a frame. -/
  room : 6 * cxWidth (camCtx cam s) * cxFrameLines (camCtx cam s) ≤ (c.w 5).toNat
  /-- No capture is under way. -/
  free : s.insp.capture = none
  /-- The camera is configured. -/
  configured : configured cam s = true
  /-- There is room for a completion. -/
  completions : s.host.outst.length < 16

/-- The capture an INSP_CAPTURE asks for. -/
def captureJob (c : RungCmd) (cam L : Nat) : CapJob := { tag := c.tag, cam := cam, matrix := flag (c.w 0) 8, start := L, addr := wn64 c.payload 3 }

theorem inspCapture_answers {cam L : Nat} (h : Rung 0x0704 6 k c s) (ha : CaptureAllowed c cam L s) :
    execInspCapture k s = .next (respond k accepted (
      if (s.cam cam).frameSeq ≠ 0 ∧ L ≤ (s.cam cam).lastBegun then complete 0x0704 c.tag 0x21 0 0 0 (outstand 0x0704 c.tag cam (begun k s))
      else { outstand 0x0704 c.tag cam (begun k s) with insp := { s.insp with capture := some (captureJob c cam L) } })) := by
  have hnum : fld (wd c.payload 0) 0 2 = cam := ha.camera
  have hline : namedLine (wd c.payload 1) (wd c.payload 2) s = some L := ha.line
  have hline' : namedLine (wd c.payload 1) (wd c.payload 2) (begun k s) = some L := ha.line
  have halign : (wn c.payload 3 % 4096 != 0) = false := by simpa [wn, RungCmd.w] using ha.aligned
  have hroom : decide (wn c.payload 5 < 6 * cxWidth (camCtx cam s) * cxFrameLines (camCtx cam s)) = false :=
    decide_eq_false (Nat.not_lt.mpr ha.room)
  refine congrArg Host.Outcome.next (command_done h ?_ ?_)
  · simp only [passes_cons, passes_nil, hnum, hline, halign, hroom, ha.free, ha.configured, reservedW_passes (i := 0) ha.reserved,
      completionsFull_passes ha.completions, Option.isNone_some, Option.isSome_none, Bool.false_and, Bool.and_false, Bool.not_true, and_self]
  · dsimp only
    rw [hnum, hline']
    change (if (s.cam cam).frameSeq ≠ 0 ∧ L ≤ (s.cam cam).lastBegun then _ else _) = _
    split <;> rfl

section
variable {cam L : Nat} (h : Rung 0x0704 6 k c s) (ha : CaptureAllowed c cam L s)
include h ha

theorem inspCapture_accepted (hlt : (s.cam cam).lastBegun < L) : execInspCapture k s = .next (respond k accepted
    { outstand 0x0704 c.tag cam (begun k s) with insp := { s.insp with capture := some (captureJob c cam L) } }) := by
  rw [inspCapture_answers h ha, if_neg fun hlate => Nat.not_le.mpr hlt hlate.2]

theorem inspCapture_late (hseq : (s.cam cam).frameSeq ≠ 0) (hle : L ≤ (s.cam cam).lastBegun) : execInspCapture k s =
    .next (respond k accepted (complete 0x0704 c.tag 0x21 0 0 0 (outstand 0x0704 c.tag cam (begun k s)))) := by
  rw [inspCapture_answers h ha, if_pos ⟨hseq, hle⟩]

end

end

/-- Settles O40: each command by its checks and its effect. -/
theorem inspectionCommands : Obligations.InspectionCommands := by
  refine ⟨fun k c s => inspGetStatus_reads, fun k c s m => inspGetStatus_clears, ?ring, ?exposure, ?xfer,
    fun k c s r bytes h hr hs hw hd ho => inspI2cXfer_waits r bytes h ⟨hr, hs, hw, hd, ho⟩, fun m j s => turnXfer_runs, ?capture⟩
  case ring =>
    rintro k c s h h0 h1 hlo hhi h4 hoff _ rfl
    exact inspRingConfig_answers h h0 h1 hlo hhi h4 hoff
  case exposure =>
    intro k c s cam n h hw hcam h1 h29 hlen hbits hsets hconf hfree hout hcams
    obtain ⟨-, -, hcount⟩ := exposureOperand_fields cam hcam n (by omega)
    rw [← word_of_toNat hw] at hcount
    refine ⟨_, exposureSet c cam s, inspSetExposure_accepted h hw hcam h1 h29 hlen hbits hsets hconf hfree hout,
      exposureQueued_onlyChanges cam, ?_, rfl, setScript_length hcount, rfl, nextId_ne_zero _, ?_, fun i => setScript_entry hcount⟩
    · rw [exposureQueued_cam (hcam.trans_eq hcams.symm), hsets]
      rfl
    · rw [exposureQueued_cam (hcam.trans_eq hcams.symm)]
  case xfer =>
    rintro k c s bytes h hr hs hw hd ho _ rfl hidle
    refine ⟨inspI2cXfer_runs 0 bytes h ⟨hr, hs, hw, hd, ho⟩ hidle, fun r hne => ?_⟩
    obtain ⟨hans, hrun⟩ := xfer_failed (j := xferJob k c r bytes) (Fin.val_ne_zero_iff.mpr hne) (begun k s)
    refine (inspI2cXfer_runs r bytes h ⟨hr, hs, hw, hd, ho⟩ hidle).trans ?_
    rw [hans, hrun]
    rfl
  case capture =>
    intro k c s cam L h h0 hcam hline halign hroom hfree hconf hout
    have ha : CaptureAllowed c cam L s := ⟨h0, hcam, hline, halign, hroom, hfree, hconf, hout⟩
    exact ⟨inspCapture_accepted h ha, inspCapture_late h ha⟩

end Sys2Proof.Machine
end

section
/-!
PROOFS. Calibration runs: how a solve begins and how it ends, and how a READY result is committed (R299 to R310).
-/
namespace Sys2Proof.Machine

/-! ## The two banks (R300) -/

/-- Calibration with other accumulator banks. -/
def Cal.withBanks (b0 b1 : CalBank) (c : Cal) : Cal := { c with bank0 := b0, bank1 := b1 }

theorem Cal.gather_banks (f : CalBank → CalBank) (c : Cal) : ∃ b0 b1, c.gather f = c.withBanks b0 b1 := by
  unfold Cal.gather
  split <;> exact ⟨_, _, rfl⟩

theorem mergeBack_banks (s : State) : ∃ b0 b1, mergeBack s = { s with cal := s.cal.withBanks b0 b1 } := by
  unfold mergeBack
  extract_lets old c
  obtain ⟨b0, b1, hc⟩ : ∃ b0 b1, c = s.cal.withBanks b0 b1 := Cal.gather_banks _ _
  rw [hc]
  split <;> exact ⟨_, _, rfl⟩

/-! ## Frames of calibration's events -/

theorem calStickEvent_onlyChanges (k : Sticky) (e : Event) (s : State) : OnlyChanges logParts s (calStickEvent k e s) :=
  (withLog_onlyChanges _ s).trans (withLog_onlyChanges _ _)

theorem calEvent_onlyChanges (e : Event) (s : State) : OnlyChanges logParts s (calEvent e s) :=
  (withLog_onlyChanges _ s).trans (withLog_onlyChanges _ _)

/-! ## A solve begins (R300, R301) -/

theorem calSolveStart_idle {s : State} (h : solveMode s = none) : execCalSolveStart s = .next s := by
  unfold execCalSolveStart
  rw [h]

/-- The banks change places: the one that gathered is solved, and an empty one gathers. -/
theorem calSolveStart_begins {run : Option Word × BitVec 16} {s : State} (h : solveMode s = some run) :
    ∃ c : Cal, execCalSolveStart s = .next { s with cal := c } ∧ c.bank = (!s.cal.bank) ∧ c.result = .solving ∧ c.run = some run ∧
      c.runReq = none ∧ c.gathering = {} ∧ c.solveBank = { s.cal.gathering with pages := [] } := by
  unfold execCalSolveStart
  rw [h]
  cases hb : s.cal.bank <;> exact ⟨_, rfl, by simp [Cal.gather, Cal.gathering, Cal.solveBank, hb]⟩

/-! ## A solve ends (R301 to R308) -/

theorem nextResult_ne_zero (w : Word) : nextResult w ≠ 0 := by
  unfold nextResult
  split
  · decide
  · bv_omega

/-- From `s` to `t` a solve has ended for a reason of R303, or 0: with no result, or with a READY one that has the next RESULT_ID. -/
structure SolveEnded (reason : Nat) (s t : State) : Prop where
  /-- Its events and its completion, and calibration. -/
  frame : OnlyChanges (.cal :: logParts) s t
  /-- No solve runs. -/
  run : t.cal.run = none
  /-- CAL_REJECTS. -/
  rejects : t.cal.rejects = if reason = 0 then s.cal.rejects else satAdd s.cal.rejects 1
  /-- The result. -/
  result : (t.cal.result = .none ∧ t.cal.resultId = s.cal.resultId) ∨
    (reason = 0 ∧ t.cal.result = .ready ∧ t.cal.resultId = nextResult s.cal.resultId ∧
      ∃ r, t.cal.res = some r ∧ r.id = t.cal.resultId ∧ r.objs ≠ [])

namespace SolveEnded
variable {reason : Nat} {s t u : State}

/-- What came before the end left CAL_REJECTS and RESULT_ID. -/
theorem after (h : SolveEnded reason t u) (hf : OnlyChanges (.cal :: logParts) s t) (hrej : t.cal.rejects = s.cal.rejects)
    (hid : t.cal.resultId = s.cal.resultId) : SolveEnded reason s u :=
  ⟨hf.trans h.frame, h.run, hrej ▸ h.rejects, hid ▸ h.result⟩

/-- What came after the end is in the log only. -/
theorem log (h : SolveEnded reason s t) (hf : OnlyChanges logParts t u) : SolveEnded reason s u := by
  have hcal : t.cal = u.cal := hf .cal (by decide)
  exact ⟨h.frame.trans (hf.mono (by decide)), hcal ▸ h.run, hcal ▸ h.rejects, hcal ▸ h.result⟩

end SolveEnded

/-- The state in which a solve has ended without a result, and the solve bank is back in the gathering one (R300). -/
def solveDropped (s : State) : State := mergeBack { s with cal := { s.cal with run := none, snap := none, result := .none } }

/-- The same, counted in CAL_REJECTS (R303). -/
def solveRejected (s : State) : State :=
  { solveDropped s with cal := { (solveDropped s).cal with rejects := satAdd (solveDropped s).cal.rejects 1 } }

theorem solveDropped_ended (s : State) : SolveEnded 0 s (solveDropped s) := by
  obtain ⟨b0, b1, h⟩ := mergeBack_banks { s with cal := { s.cal with run := none, snap := none, result := .none } }
  rw [solveDropped, h]
  exact ⟨(onlyChanges_cal s _).mono (by decide), rfl, rfl, .inl ⟨rfl, rfl⟩⟩

theorem solveRejected_ended {reason : Nat} (hr : reason ≠ 0) (s : State) : SolveEnded reason s (solveRejected s) := by
  obtain ⟨b0, b1, h⟩ := mergeBack_banks { s with cal := { s.cal with run := none, snap := none, result := .none } }
  rw [solveRejected, solveDropped, h]
  exact ⟨(onlyChanges_cal s _).mono (by decide), rfl, (if_neg hr).symm, .inl ⟨rfl, rfl⟩⟩

theorem endSolve_ended (run : Option Word × BitVec 16) (reason : Nat) (s : State) : SolveEnded reason s (endSolve run reason s) := by
  obtain ⟨tag, mask⟩ := run
  match reason, tag with
  | 0, none => exact solveDropped_ended s
  | 0, some _ => exact (solveDropped_ended s).log (complete_onlyChanges _ _ _ _ _ _ _)
  | n + 1, none => exact (solveRejected_ended n.succ_ne_zero s).log (calStickEvent_onlyChanges _ _ _)
  | n + 1, some _ => exact (solveRejected_ended n.succ_ne_zero s).log (complete_onlyChanges _ _ _ _ _ _ _)

theorem calSolveDone_idle {s : State} (h : s.cal.run = none ∨ s.cal.result ≠ .solving) : execCalSolveDone s = .next s := by
  unfold execCalSolveDone
  split
  next hrun hres => simp [hrun, hres] at h
  next => rfl

theorem calSolveDone_ends {run : Option Word × BitVec 16} {s : State} (hrun : s.cal.run = some run) (hres : s.cal.result = .solving) :
    ∃ t, execCalSolveDone s = .next t ∧
      SolveEnded (solveReason s.cal s.cal.solveBank (fitColumns s.cal s.cal.solveBank s.cg.modules) (maskModules run.2 s.cg.modules)) s t := by
  refine ⟨_, rfl, ?_⟩
  split
  case h_2 hno => exact absurd hres (hno run hrun)
  case h_1 run' hrun' _ =>
    obtain rfl : run' = run := Option.some.inj (hrun'.symm.trans hrun)
    extract_lets bank mods fits outs s1 reason cols found s2 s3 c3 s4 id plan snap c4
    have hs1 : OnlyChanges logParts s s1 := .foldl _ _ s fun _ _ => calStickEvent_onlyChanges _ _ _
    have hs3 : OnlyChanges logParts s s3 := by
      have hs2 : OnlyChanges logParts s s2 := hs1.trans (.foldl _ _ s1 fun _ _ => calStickEvent_onlyChanges _ _ _)
      unfold s3
      split
      · exact hs2.trans (withLog_onlyChanges _ s2)
      · exact hs2
    have hcal1 : s1.cal = s.cal := (hs1 .cal (by decide)).symm
    have hcal3 : s3.cal = s.cal := (hs3 .cal (by decide)).symm
    have hs4 : OnlyChanges (.cal :: logParts) s s4 := (hs3.mono (by decide)).trans ((onlyChanges_cal s3 _).mono (by decide))
    have hrej : s4.cal.rejects = s.cal.rejects := (congrArg Cal.rejects hcal3 :)
    have hid : s4.cal.resultId = s.cal.resultId := (congrArg Cal.resultId hcal3 :)
    change SolveEnded reason s _
    clear_value s1 s3 reason
    split
    next => exact (endSolve_ended run' reason s1).after (hs1.mono (by decide)) (congrArg Cal.rejects hcal1) (congrArg Cal.resultId hcal1)
    next hr =>
      obtain rfl : reason = 0 := not_not.mp hr
      -- the curves and how many columns change, then the codes and how many nozzles are at the ceiling
      split
      split
      extract_lets objs after res s5 s6
      split
      next => exact (endSolve_ended run' 0 s4).after hs4 hrej hid
      next hobjs =>
        have hready : SolveEnded 0 s s5 := ⟨hs4.trans ((onlyChanges_cal s4 _).mono (by decide)), rfl, hrej,
          .inr ⟨rfl, rfl, rfl, res, rfl, rfl, fun hnil => hobjs (List.isEmpty_iff.mpr hnil)⟩⟩
        have hevent : SolveEnded 0 s s6 := hready.log (calEvent_onlyChanges _ _)
        split
        · exact hevent.log (complete_onlyChanges _ _ _ _ _ _ _)
        · exact hevent

/-! ## A READY result is committed (R309 to R311) -/

theorem holdMaps_frame {r : CalRes} {objs : List Obj} {s s1 : State} (h : holdMaps r s = (objs, s1)) : OnlyChanges logParts s s1 := by
  obtain rfl : (holdMaps r s).2 = s1 := congrArg Prod.snd h
  unfold holdMaps
  extract_lets new
  split
  · exact calStickEvent_onlyChanges _ _ s
  · exact .refl _ s

/-- The state in which slot `g` has been opened (R104). -/
def groupOpened (own : Bool) (g : Nat) (s : State) : State :=
  setGroup g (fun _ => { st := .opened, handle := nextHandle s.cg.handleCtr, ownerCal := own })
    { s with cg := { s.cg with handleCtr := nextHandle s.cg.handleCtr } }

/-- The lowest EMPTY slot opens (R104). -/
theorem openGroup_lowest {own : Bool} {g : Nat} {s : State} (hg : g < 4) (he : (s.cg.group g).st = .empty)
    (hl : ∀ j, j < g → (s.cg.group j).st ≠ .empty) :
    openGroup own s = (some g, groupOpened own g s) := by
  have hhead : (groupsWhere (fun x => x.st == .empty) s).head? = some g :=
    groupsWhere_head? hg (by simp [he]) fun j hj => by simp [hl j hj]
  unfold openGroup
  rw [hhead]
  rfl

theorem groupOpened_group {own : Bool} {g : Nat} {s : State} (hl : g < s.cg.groups.length) :
    (groupOpened own g s).cg.group g = { st := .opened, handle := nextHandle s.cg.handleCtr, ownerCal := own } :=
  group_setGroup_same (s := { s with cg := { s.cg with handleCtr := nextHandle s.cg.handleCtr } }) hl

theorem groupOpened_length (own : Bool) (g : Nat) (s : State) : (groupOpened own g s).cg.groups.length = s.cg.groups.length :=
  List.length_modify ..

theorem startLoads_onlyChanges (g : Nat) (s : State) : OnlyChanges [.hl] s (startLoads g s) :=
  .foldl _ _ s fun t m => by
    unfold queueLoad
    split
    · exact setLane_onlyChanges m _ t
    · exact setLane_onlyChanges m _ t

theorem setChain_onlyChanges (k : Nat) (f : Chain → Chain) (s : State) : OnlyChanges [.lamp] s (setChain k f s) := by
  intro p hp
  cases p <;> simp_all [State.agree]

theorem lampLoads_onlyChanges (g : Nat) (s : State) : OnlyChanges [.lamp, .out] s (lampLoads g s) :=
  .foldl _ _ s fun t k => by
    dsimp only
    split
    · split
      · exact .refl _ t
      · exact (((setChain_onlyChanges k _ t).trans (setChain_onlyChanges k _ _)).mono (by decide)).trans ((emit_onlyChanges _ _).mono (by decide))
    · exact .refl _ t

theorem armGroup_onlyChanges (g : Nat) (s : State) : OnlyChanges [.cg, .hl, .lamp, .out, .twin] s (armGroup g s) := by
  unfold armGroup
  extract_lets s1 grp s2
  have h1 : OnlyChanges [.cg, .hl, .lamp, .out, .twin] s s1 := (setGroup_onlyChanges g _ s).mono (by decide)
  have h2 : OnlyChanges [.cg, .hl, .lamp, .out, .twin] s1 s2 := by
    unfold s2
    split
    · exact (onlyChanges_twin s1 _).mono (by decide)
    · exact .refl _ s1
  exact ((h1.trans h2).trans ((startLoads_onlyChanges g s2).mono (by decide))).trans ((lampLoads_onlyChanges g _).mono (by decide))

theorem calLead_ge (s : State) : 65 ≤ calLead s := by
  unfold calLead
  split
  next => split <;> omega
  next => exact le_rfl

/-- What R309 asks for before a READY result `r` is committed: AUTO_COMMIT, a unit alone in PRINT with the web moving, no group of the host's in
the way, and slot `g` the lowest EMPTY one. -/
structure CommitAllowed (r : CalRes) (g : Nat) (s : State) : Prop where
  /-- The result is READY. -/
  ready : s.cal.result = .ready
  /-- It is `r`. -/
  res : s.cal.res = some r
  /-- AUTO_COMMIT. -/
  auto : s.cal.autoCommit = true
  /-- The unit's role is SOLO. -/
  solo : s.twin.role = .solo
  /-- OP_STATE is PRINT. -/
  print : s.host.opState = .print
  /-- The web moves. -/
  moves : s.cg.webStopped = false
  /-- No group of the host's is ARMED or LOCKED or was within 3 ms. -/
  quiet : hostQuiet s = true
  /-- Slot `g` is one of the four. -/
  slot : g < 4
  /-- Slot `g` is EMPTY. -/
  empty : (s.cg.group g).st = .empty
  /-- No lower one is. -/
  lowest : ∀ j, j < g → (s.cg.group j).st ≠ .empty

theorem calAutoCommit_waits {s : State} (h : s.cal.result ≠ .ready ∨ s.cal.autoCommit = false ∨ s.twin.role ≠ .solo ∨
    s.host.opState ≠ .print ∨ s.cg.webStopped = true ∨ hostQuiet s = false ∨ ∀ g, g < 4 → (s.cg.group g).st ≠ .empty) : execCalAutoCommit s = .next s := by
  unfold execCalAutoCommit
  split
  next r hready _ =>
    refine congrArg Host.Outcome.next (if_pos ?_)
    rcases h with h | h | h | h | h | h | h
    · exact absurd hready h
    · simp [h]
    · simp [h]
    · simp [h]
    · simp [webMoves, h]
    · simp [h]
    · rw [groupsWhere_eq_nil fun j hj => by simp [h j hj]]
      simp
  next => rfl

/-- Calibration's group as it is staged and validated: its objects in ascending order, their digest, and PERSIST (R309). -/
def Group.calStaged (objs : List Obj) (persist : Bool) (x : Group) : Group :=
  { x with objs := objs.foldl (fun l o => insertObj o l) [], digest := groupDigest objs, persist := persist }

/-- The state in which calibration's group `g` has been opened, staged and placed on its line, from `s1`, and the result is COMMITTING. -/
def calPlaced (objs : List Obj) (g lead : Nat) (s1 : State) : State :=
  let placed := resolve g lead (setGroup g (Group.calStaged objs s1.cal.persist) (groupOpened true g s1))
  { placed with cal := { placed.cal with result := .committing, group := some g } }

section
variable {r : CalRes} {objs : List Obj} {s1 s : State} {g : Nat} (h : CommitAllowed r g s) (hm : holdMaps r s = (objs, s1))
include h

theorem CommitAllowed.passes : (!s.cal.autoCommit || s.twin.role != .solo || s.host.opState != .print || !webMoves s || !hostQuiet s ||
    (groupsWhere (fun x => x.st == .empty) s).isEmpty) = false := by
  have hfree : (groupsWhere (fun x => x.st == .empty) s).isEmpty = false :=
    List.isEmpty_eq_false_iff_exists_mem.mpr ⟨g, mem_groupsWhere.mpr ⟨h.slot, by simp [h.empty]⟩⟩
  simp [h.auto, h.solo, h.print, webMoves, h.moves, h.quiet, hfree]

include hm

theorem calAutoCommit_held (hnil : objs = []) : execCalAutoCommit s = .next (discardResult s1) := by
  unfold execCalAutoCommit
  simp only [h.ready, h.res, h.passes, hm, hnil, List.isEmpty_nil, if_true, Bool.false_eq_true, if_false]

theorem calAutoCommit_refused (hne : objs ≠ []) {why : Nat} {x : Nat × Nat} (hc : checkGroup true objs s.cg.inForce s = some (why, x)) :
    execCalAutoCommit s = .next (dropResult why s1) := by
  unfold execCalAutoCommit
  simp only [h.ready, h.res, h.passes, hm, List.isEmpty_eq_false_iff.mpr hne, hc, Bool.false_eq_true, if_false]

theorem calAutoCommit_arms (hne : objs ≠ []) (hc : checkGroup true objs s.cg.inForce s = none) :
    execCalAutoCommit s = .next (armGroup g (calPlaced objs g (calLead s) s1)) := by
  have hlog := holdMaps_frame hm
  have hcg : s1.cg = s.cg := (hlog .cg (by decide)).symm
  have hcal : s1.cal = s.cal := (hlog .cal (by decide)).symm
  have hopen := openGroup_lowest (own := true) (s := s1) h.slot (by rw [hcg]; exact h.empty) (by rw [hcg]; exact h.lowest)
  unfold execCalAutoCommit
  simp only [h.ready, h.res, h.passes, hm, List.isEmpty_eq_false_iff.mpr hne, hc, hopen, Bool.false_eq_true, if_false]
  rw [calPlaced, hcal]
  rfl

end

section
variable {objs : List Obj} {g lead : Nat} {s1 : State}

theorem calPlaced_length : (calPlaced objs g lead s1).cg.groups.length = s1.cg.groups.length :=
  ((List.length_modify ..).trans (List.length_modify ..)).trans (groupOpened_length true g s1)

theorem calPlaced_group (hl : g < s1.cg.groups.length) : (calPlaced objs g lead s1).cg.group g = {
    st := .opened, handle := nextHandle s1.cg.handleCtr, ownerCal := true, objs := objs.foldl (fun l o => insertObj o l) []
    digest := groupDigest objs, persist := s1.cal.persist, line := some (wInt (lineIndex s1 + lead))
    abs := s1.pos.absHigh + max 1 (lead - linesBack s1), epoch := s1.cg.epochNow } := by
  have hopened : g < (groupOpened true g s1).cg.groups.length := hl.trans_eq (groupOpened_length true g s1).symm
  have hstaged : g < (setGroup g (Group.calStaged objs s1.cal.persist) (groupOpened true g s1)).cg.groups.length :=
    hopened.trans_eq (List.length_modify ..).symm
  refine (group_setGroup_same hstaged).trans ?_
  rw [group_setGroup_same hopened, groupOpened_group hl]
  rfl

theorem calPlaced_other {j : Nat} (hj : j ≠ g) : (calPlaced objs g lead s1).cg.group j = s1.cg.group j :=
  ((group_setGroup_other _ _ hj).trans (group_setGroup_other _ _ hj)).trans (group_setGroup_other _ _ hj)

/-- Once ARMED the group is as it was placed. -/
theorem calPlaced_armed (hl : g < s1.cg.groups.length) :
    (armGroup g (calPlaced objs g lead s1)).cg.group g = { (calPlaced objs g lead s1).cg.group g with st := .armed } :=
  (congrArg (Commit.group · g) (armGroup_cg g _)).trans (group_setGroup_same (hl.trans_eq calPlaced_length.symm))

theorem armGroup_other {j : Nat} (s : State) (hj : j ≠ g) : (armGroup g s).cg.group j = s.cg.group j :=
  (congrArg (Commit.group · j) (armGroup_cg g s)).trans (group_setGroup_other _ s hj)

end

/-- Settles O41: a solve by whether one is due and runs, its end by what it gives, and a commit by what R309 asks for and what validation finds. -/
theorem calibrationRuns : Obligations.CalibrationRuns := by
  refine ⟨fun s => calSolveStart_idle, fun run s h => ?begins, fun s => calSolveDone_idle, fun run reason s hrun hres hreason => ?ends,
    nextResult_ne_zero, fun s => calAutoCommit_waits,
    fun r objs s1 g s hready hres hauto hsolo hprint hmoves hquiet hm hlen hg hempty hlow => ?commits⟩
  case begins =>
    obtain ⟨c, hc, hparts⟩ := calSolveStart_begins h
    exact ⟨_, hc, onlyChanges_cal s c, hparts⟩
  case ends =>
    obtain ⟨t, ht, he⟩ := calSolveDone_ends hrun hres
    rw [← hreason] at he
    refine ⟨t, ht, he.frame.mono (by decide), he.run, fun hready => ?_, he.rejects, ?_⟩
    · rcases he.result with ⟨hnone, -⟩ | ⟨h0, -⟩
      · rw [hnone] at hready
        cases hready
      · exact h0
    · rcases he.result with ⟨hnone, hid⟩ | ⟨-, hready, hid, r, hr, hrid, hobjs⟩
      · rw [hnone]
        exact hid
      · rw [hready, hr]
        exact ⟨hid, hrid, hobjs⟩
  case commits =>
    have ha : CommitAllowed r g s := ⟨hready, hres, hauto, hsolo, hprint, hmoves, hquiet, hg, hempty, hlow⟩
    refine ⟨calAutoCommit_held ha hm, fun why x hne => calAutoCommit_refused ha hm hne, fun hne hc => ?_⟩
    have hlog : OnlyChanges logParts s s1 := holdMaps_frame hm
    have hcg : s1.cg = s.cg := (hlog .cg (by decide)).symm
    have hpos : s1.pos = s.pos := (hlog .pos (by decide)).symm
    have hl : g < s1.cg.groups.length := by rw [hcg, hlen]; exact hg
    have hcal := (armGroup_onlyChanges g (calPlaced objs g (calLead s) s1) .cal (by decide)).symm
    have hgroup := calPlaced_armed (objs := objs) (lead := calLead s) hl
    rw [calPlaced_group hl] at hgroup
    refine ⟨_, calAutoCommit_arms ha hm hne hc, congrArg Cal.result hcal, congrArg Cal.group hcal, ?_, ?_, ?_, ?_, ?_, calLead_ge s,
      fun j hj => ?_⟩
    · rw [hgroup]
    · rw [hgroup]
    · rw [hgroup]
    · exact (congrArg Commit.inForce (armGroup_cg g _)).trans (congrArg Commit.inForce hcg :)
    · rw [hgroup, linesBack, linesBack, webAbs, webAbs, hpos]
    · exact ((armGroup_other _ hj).trans (calPlaced_other hj)).trans (congrArg (Commit.group · j) hcg)

end Sys2Proof.Machine
end

section
/-!
PROOFS. The calibration commands (R308, R312 to R316).
-/
namespace Sys2Proof.Machine

/-! ## What clears and discards leave of calibration -/

theorem clearSums_banks (mods : List Nat) (s : State) : ∃ b0 b1, clearSums mods s = { s with cal := s.cal.withBanks b0 b1 } := by
  unfold clearSums
  split
  · exact ⟨s.cal.bank0, s.cal.bank1, rfl⟩
  · extract_lets _ c
    obtain ⟨b0, b1, hc⟩ := Cal.gather_banks (fun b => { b with pages := [] }) c
    rw [hc]
    exact ⟨b0, b1, rfl⟩

theorem discardResult_banks (s : State) :
    ∃ b0 b1, discardResult s = { s with cal := { s.cal.withBanks b0 b1 with result := .none, res := none } } := by
  obtain ⟨b0, b1, h⟩ := mergeBack_banks { s with cal := { s.cal with result := .none, res := none } }
  exact ⟨b0, b1, h⟩

/-- Whether or not a result goes, the pending classifications stay. -/
theorem discardIf_leaves (mods : List Nat) (s : State) : OnlyChanges [.cal] s (discardIf mods s) ∧ (discardIf mods s).cal.pend = s.cal.pend ∧
    (s.cal.result = .none → (discardIf mods s).cal.result = .none) := by
  unfold discardIf
  split
  · split
    · obtain ⟨b0, b1, h⟩ := discardResult_banks s
      rw [h]
      exact ⟨onlyChanges_cal s _, rfl, fun _ => rfl⟩
    · exact ⟨.refl _ s, rfl, id⟩
  · exact ⟨.refl _ s, rfl, id⟩

section
variable {k : Fin 16} {c : RungCmd} {s : State}

/-! ## CAL_GET_STATUS (R313) -/

theorem calGetStatus_answers (h : Rung 0x0800 1 k c s) (hw : c.w 0 &&& ~~~ 1 = 0) (hb : s.host.opState ≠ .boot) :
    execCalGetStatus k s = .next (respond k (okWith (calView (begun k s)))
      (if flag (c.w 0) 0 then { begun k s with cal := { s.cal with samples := 0, excluded := 0, commits := 0, rejects := 0 } } else begun k s)) := by
  refine congrArg Host.Outcome.next (command_done h ?_ rfl)
  simp only [passes_cons, passes_nil, reservedW_passes (i := 0) hw, notBoot_passes hb, and_self]

/-! ## CAL_CONFIG (R316) -/

/-- What R316 holds the operands of a CAL_CONFIG to, and calibration and the operating state with them. -/
structure CalConfigAllowed (c : RungCmd) (s : State) : Prop where
  /-- No reserved bit of the switches is set. -/
  switches : c.w 0 &&& ~~~ 0x1FFF = 0
  /-- MIN_SAMPLES. -/
  minSamples : 256 ≤ fld (c.w 1) 0 16
  /-- MIN_NOZZLE. -/
  minNozzle : 64 ≤ fld (c.w 1) 16 16
  /-- GAIN. -/
  gain : 1 ≤ fld (c.w 2) 0 8
  /-- MIN_PAGES. -/
  minPages : 1 ≤ fld (c.w 2) 8 8
  /-- MAX_KNOT_STEP is not 0. -/
  stepLow : 1 ≤ fld (c.w 2) 16 16
  /-- MAX_KNOT_STEP is at most a quarter. -/
  stepHigh : fld (c.w 2) 16 16 ≤ 0x4000
  /-- SOLVE_PAGES. -/
  solvePages : 1 ≤ fld (c.w 3) 0 16
  /-- LEAD_US. -/
  leadUs : 3000 ≤ fld (c.w 3) 16 16
  /-- No reserved bit beside FLAT_TOL is set. -/
  flatTol : c.w 4 &&& ~~~ 0xFFFF = 0
  /-- No reserved bit beside the volumes is set. -/
  volumes : c.w 5 &&& ~~~ 0xFFFFFF = 0
  /-- VOL_S. -/
  volS : 1 ≤ fld (c.w 5) 0 8
  /-- VOL_M. -/
  volM : 1 ≤ fld (c.w 5) 8 8
  /-- VOL_L. -/
  volL : 1 ≤ fld (c.w 5) 16 8
  /-- AIM begins at 0. -/
  aimZero : aimWord c.payload 0 = 0
  /-- AIM does not fall. -/
  aimRises : ∀ j, j < 16 → aimWord c.payload j ≤ aimWord c.payload (j + 1)
  /-- No reserved bit beside the last AIM is set. -/
  aimLast : c.w 14 &&& ~~~ 0xFFFF = 0
  /-- No solve runs. -/
  solving : s.cal.result ≠ .solving
  /-- No result is being committed. -/
  committing : s.cal.result ≠ .committing
  /-- The operating state is not BOOT. -/
  opState : s.host.opState ≠ .boot

theorem calBusy_passes (hs : s.cal.result ≠ .solving) (hc : s.cal.result ≠ .committing) : calBusy s = false := by
  simp [calBusy, hs, hc]

/-- Calibration as a CAL_CONFIG sets it up. -/
def Cal.configured (c : RungCmd) (x : Cal) : Cal := { x with
  enable := flag (c.w 0) 0, autoSolve := flag (c.w 0) 1, autoCommit := flag (c.w 0) 2, persist := flag (c.w 0) 3, guardAll := flag (c.w 0) 4
  absolute := flag (c.w 0) 5, curves := flag (c.w 0) 6, classify := flag (c.w 0) 7, codes := flag (c.w 0) 8
  cameraMask := BitVec.ofNat 4 (fld (c.w 0) 9 4), minSamples := fld (c.w 1) 0 16, minNozzle := fld (c.w 1) 16 16, gain := fld (c.w 2) 0 8
  minPages := fld (c.w 2) 8 8, maxKnotStep := fld (c.w 2) 16 16, solvePages := fld (c.w 3) 0 16, leadUs := fld (c.w 3) 16 16
  flatTol := fld (c.w 4) 0 16, volS := fld (c.w 5) 0 8, volM := fld (c.w 5) 8 8, volL := fld (c.w 5) 16 8
  aim := (List.range 17).map (aimWord c.payload) }

/-- Where a sample rule changes the sums clear, and the rest stays as it was set up. -/
theorem calConfig_answers (h : Rung 0x0801 15 k c s) (ha : CalConfigAllowed c s) :
    ∃ b0 b1, execCalConfig k s = .next (respond k ok { begun k s with cal := (s.cal.configured c).withBanks b0 b1 }) := by
  have hnonzero {n : Nat} (hn : 1 ≤ n) : (n == 0) = false := beq_eq_false_iff_ne.mpr (Nat.ne_of_gt hn)
  unfold execCalConfig
  rw [command_run h ?checks]
  case checks =>
    refine (passes_append _ _).mpr ⟨(passes_append _ _).mpr ⟨?fields, ?aims⟩, ?state⟩
    case fields =>
      simp only [passes_cons, passes_nil, and_true]
      exact ⟨reservedW_passes ha.switches, decide_eq_false (not_or.mpr ⟨Nat.not_lt.mpr ha.minSamples, Nat.not_lt.mpr ha.minNozzle⟩),
        Bool.or_eq_false_iff.mpr ⟨Bool.or_eq_false_iff.mpr ⟨hnonzero ha.gain, hnonzero ha.minPages⟩,
          decide_eq_false (not_or.mpr ⟨Nat.not_lt.mpr ha.stepLow, Nat.not_lt.mpr ha.stepHigh⟩)⟩,
        Bool.or_eq_false_iff.mpr ⟨hnonzero ha.solvePages, decide_eq_false (Nat.not_lt.mpr ha.leadUs)⟩,
        reservedW_passes ha.flatTol, reservedW_passes ha.volumes,
        Bool.or_eq_false_iff.mpr ⟨Bool.or_eq_false_iff.mpr ⟨hnonzero ha.volS, hnonzero ha.volM⟩, hnonzero ha.volL⟩,
        bne_eq_false_iff_eq.mpr ha.aimZero⟩
    case aims =>
      intro x hx
      obtain ⟨j, hj, rfl⟩ := List.mem_map.mp hx
      exact decide_eq_false (Nat.not_lt.mpr (ha.aimRises j (List.mem_range.mp hj)))
    case state =>
      simp only [passes_cons, passes_nil, and_true]
      exact ⟨reservedW_passes ha.aimLast, calBusy_passes ha.solving ha.committing, notBoot_passes ha.opState⟩
  dsimp only [done]
  split
  · exact ⟨s.cal.bank0, s.cal.bank1, rfl⟩
  · obtain ⟨b0, b1, hclear⟩ := clearSums_banks (List.range 16) { begun k s with cal := s.cal.configured c }
    exact ⟨b0, b1, congrArg (fun u => Host.Outcome.next (respond k ok u)) hclear⟩

/-! ## CAL_RUN (R301, R315) -/

theorem calRun_accepted (h : Rung 0x0802 1 k c s) (hw : c.w 0 &&& ~~~ 0xFFFF = 0) (hres : s.cal.result = .none) (hreq : s.cal.runReq = none)
    (hop : s.host.opState = .ready ∨ s.host.opState = .print) (ho : s.host.outst.length < 16) :
    execCalRun k s = .next (respond k accepted (outstand 0x0802 c.tag 0
      { begun k s with cal := { s.cal with runReq := some (c.tag, BitVec.ofNat 16 (fld (c.w 0) 0 16)) } })) := by
  have hstate : (!(s.host.opState == .ready || s.host.opState == .print)) = false := by
    rcases hop with e | e <;> rw [e] <;> rfl
  refine congrArg Host.Outcome.next (command_done h ?_ rfl)
  simp only [passes_cons, passes_nil, reservedW_passes (i := 0) hw, hres, hreq, hstate, completionsFull_passes ho, bne_self_eq_false,
    Option.isSome_none, Bool.or_self, and_self]

/-! ## CAL_EXPORT (R312) -/

theorem calExport_accepted {r : CalRes} (h : Rung 0x0803 4 k c s) (hready : s.cal.result = .ready) (hres : s.cal.res = some r)
    (halign : (c.w 1).toNat % 4096 = 0) (hroom : (resultBytes r).length ≤ (c.w 3).toNat) (hw : c.w 0 = 0) (ho : s.host.outst.length < 16) :
    execCalExport k s = .next (respond k accepted (outstand 0x0803 c.tag 0 { begun k s with
      cal := { s.cal with sending := s.cal.sending ++ [(c.tag, (resultBytes r).length)] }
      out := .dmaWrite (wn64 c.payload 1) (resultBytes r) :: s.out })) := by
  have hmask : (reservedW c.payload 0 0).1 = false := reservedW_passes (by rw [show wd c.payload 0 = 0 from hw]; rfl)
  have hpage : (wn c.payload 1 % 4096 != 0) = false := by simpa [wn, RungCmd.w] using halign
  have hfits : decide (wn c.payload 3 < (resultBytes r).length) = false := decide_eq_false (Nat.not_lt.mpr hroom)
  have hout (t : State) := emit_unheld t (.dmaWrite (wn64 c.payload 1) (resultBytes r)) rfl
  refine congrArg Host.Outcome.next (command_done h ?_ ?_)
  · simp only [passes_cons, passes_nil, hmask, hpage, hready, hres, hfits, completionsFull_passes ho, bne_self_eq_false, Bool.and_false, and_self]
  · dsimp only
    split
    next hnone => exact nomatch hres.symm.trans hnone
    next r' hr' =>
      obtain rfl : r' = r := Option.some.inj (hr'.symm.trans hres)
      rw [hout]
      rfl

theorem calExportDone_idle (h : s.cal.sending = []) (written : Bool) : execCalExportDone written s = .next s := by
  unfold execCalExportDone
  rw [h]

theorem calExportDone_completes {tag : Word} {n : Nat} {rest : List (Word × Nat)} (h : s.cal.sending = (tag, n) :: rest) (written : Bool) :
    execCalExportDone written s = .next (
      if written then complete 0x0803 tag 0 (w32 n) 0 0 { s with cal := { s.cal with sending := rest } }
      else complete 0x0803 tag 0x30 0 0 0 { s with cal := { s.cal with sending := rest } }) := by
  unfold execCalExportDone
  rw [h]

/-! ## CAL_DISCARD (R308) and CAL_CLEAR (R299, R315) -/

theorem calDiscard_answers (h : Rung 0x0804 0 k c s) (hc : s.cal.result ≠ .committing) (hb : s.host.opState ≠ .boot) :
    execCalDiscard k s = .next (respond k ok (if s.cal.result = .ready then discardResult (begun k s) else begun k s)) := by
  have hidle : (s.cal.result == .committing) = false := by simp [hc]
  refine congrArg Host.Outcome.next (command_done h ?_ rfl)
  simp only [passes_cons, passes_nil, hidle, notBoot_passes hb, and_self]

/-- Calibration without the pending classifications of some modules. -/
def Cal.forget (mods : List Nat) (x : Cal) : Cal := { x with pend := x.pend.filter fun y => !mods.contains (y.1.1 / colsPer) }

/-- The modules a CAL_CLEAR names. -/
def clearedModules (c : RungCmd) (s : State) : List Nat := maskModules (BitVec.ofNat 16 (fld (c.w 0) 0 16)) s.cg.modules

theorem calClear_answers (h : Rung 0x0805 1 k c s) (hw : c.w 0 &&& ~~~ 0xFFFF = 0) (hs : s.cal.result ≠ .solving)
    (hc : s.cal.result ≠ .committing) (hb : s.host.opState ≠ .boot) : ∃ b0 b1, execCalClear k s = .next (respond k ok
      (discardIf (clearedModules c s) { begun k s with cal := (s.cal.withBanks b0 b1).forget (clearedModules c s) })) := by
  obtain ⟨b0, b1, hclear⟩ := clearSums_banks (clearedModules c s) (begun k s)
  refine ⟨b0, b1, congrArg Host.Outcome.next (command_done h ?_ ?_)⟩
  · simp only [passes_cons, passes_nil, reservedW_passes (i := 0) hw, calBusy_passes hs hc, notBoot_passes hb, and_self]
  · exact congrArg (fun u : State => (discardIf _ { u with cal := u.cal.forget _ }, some ok)) hclear

end

/-- Settles O42: each command by its checks and its effect. -/
theorem calibrationCommands : Obligations.CalibrationCommands := by
  refine ⟨fun k c s h hw hb => ?view, fun k c s h hw hb => ?viewClears, fun k c s h h0 hlo hhi => ?config, fun k c s => calRun_accepted,
    fun k c s r => calExport_accepted, fun s h => ⟨calExportDone_idle h true, calExportDone_idle h false⟩,
    fun tag n rest s h => ⟨calExportDone_completes h true, calExportDone_completes h false⟩, fun k c s h hc hb => ?discard,
    fun k c s h hw hs hc hb => ?clear⟩
  case view =>
    refine (calGetStatus_answers h (by rw [hw]; rfl) hb).trans ?_
    rw [hw]
    rfl
  case viewClears =>
    refine (calGetStatus_answers h (by rw [hw]; rfl) hb).trans ?_
    rw [hw]
    rfl
  case config =>
    intro hgain hpages hstep hstep' hsolve hlead h4 h5 hs hm hl hzero hrises h14 hsolving hcommitting hb
    obtain ⟨b0, b1, hconf⟩ := calConfig_answers h ⟨h0, hlo, hhi, hgain, hpages, hstep, hstep', hsolve, hlead, h4, h5, hs, hm, hl, hzero,
      hrises, h14, hsolving, hcommitting, hb⟩
    refine ⟨_, hconf, onlyChanges_cal (begun k s) _, ?_⟩
    simp only [Cal.withBanks, Cal.configured, and_self]
  case discard =>
    refine ⟨fun hready => ?_, fun hready => ?_⟩
    · obtain ⟨b0, b1, hbanks⟩ := discardResult_banks (begun k s)
      refine ⟨_, (calDiscard_answers h hc hb).trans (by rw [if_pos hready]), ?_⟩
      rw [hbanks]
      exact ⟨onlyChanges_cal (begun k s) _, rfl, rfl, rfl⟩
    · refine (calDiscard_answers h hc hb).trans ?_
      rw [if_neg hready]
  case clear =>
    obtain ⟨b0, b1, hclear⟩ := calClear_answers h hw hs hc hb
    obtain ⟨hframe, hpend, hnone⟩ :=
      discardIf_leaves (clearedModules c s) { begun k s with cal := (s.cal.withBanks b0 b1).forget (clearedModules c s) }
    exact ⟨_, hclear, (onlyChanges_cal (begun k s) _).trans hframe, hpend, hnone⟩

end Sys2Proof.Machine
end

section
/-!
PROOFS. What an update of one encoder, comparator, timer or absolute-position port writes and leaves (R317, R332, R349, R351).
-/
namespace Sys2Proof.Machine

theorem cell_upd_same {α : Type} {l : List α} {i : Nat} (f : α → α) (d : α) (h : i < l.length) : cell (upd l i f) i d = f (cell l i d) :=
  (cell_upd l i i f d h).trans (if_pos rfl)

theorem cell_upd_other {α : Type} {l : List α} {i j : Nat} (f : α → α) (d : α) (h : j ≠ i) : cell (upd l i f) j d = cell l j d := by
  simp [cell, upd, List.getD_eq_getElem?_getD, h.symm]

section
variable {k j : Nat} {s : State}

theorem enc_setEnc_same (f : Enc → Enc) (h : k < s.pos.encs.length) : (setEnc k f s).pos.enc k = f (s.pos.enc k) := cell_upd_same f {} h

theorem enc_setEnc_other (f : Enc → Enc) (h : j ≠ k) : (setEnc k f s).pos.enc j = s.pos.enc j := cell_upd_other f {} h

theorem setEnc_setEnc (f g : Enc → Enc) : setEnc k g (setEnc k f s) = setEnc k (g ∘ f) s :=
  congrArg (fun l : List Enc => { s with pos := { s.pos with encs := l } }) (upd_upd _ _ _ _)

theorem cmp_setCmp_same (f : Cmp → Cmp) (h : k < s.pos.cmps.length) : (setCmp k f s).cmp k = f (s.cmp k) := cell_upd_same f {} h

theorem cmp_setCmp_other (f : Cmp → Cmp) (h : j ≠ k) : (setCmp k f s).cmp j = s.cmp j := cell_upd_other f {} h

theorem timer_setTimer_same (f : Timer → Timer) (h : k < s.pos.timers.length) : (setTimer k f s).timer k = f (s.timer k) := cell_upd_same f {} h

theorem timer_setTimer_other (f : Timer → Timer) (h : j ≠ k) : (setTimer k f s).timer j = s.timer j := cell_upd_other f {} h

end

end Sys2Proof.Machine
end

section
/-!
PROOFS. Encoders: signal faults, direction, index pulses and agreement (R319, R321, R323, R325 to R328, R330).
-/
namespace Sys2Proof.Machine

/-! ## Faults (R319, R321, R326, R330) -/

theorem encoderFaults : Claims.EncoderFaults := by
  refine ⟨fun k s h => congrArg _ (if_pos h), fun k s hm hf => congrArg _ (if_neg (by simp [hm, hf])), fun k s h => ?notRecovered,
    fun s hf ht => ?recovers1, fun s hf ht => ?recovers0, fun k s h => congrArg _ (if_pos h), fun k s hm ho => congrArg _ (if_neg (by simp [hm, ho])),
    fun k s => rfl, fun k s h => congrArg _ (if_pos h), fun k s hm hf => congrArg _ (if_neg (by simp [hm, hf])), fun k x s e he => ?indexMissing,
    fun x s => ⟨fun hon hlag => ?overruns, fun h => ?follows⟩⟩
  case notRecovered => exact congrArg _ (if_pos (by simpa using h))
  case recovers1 => exact congrArg _ (if_neg (by simp [hf, ht]))
  case recovers0 => exact congrArg _ (if_neg (by simp [hf, ht]))
  case indexMissing =>
    subst he
    refine ⟨fun ⟨hc, hv, hn, hm, hrun⟩ => ?_, fun h => ?_⟩
    · exact congrArg (Host.Outcome.next ∘ mainUpdate) (if_pos ⟨hc, hv, hn, by simp [hm], hrun⟩)
    · refine congrArg (Host.Outcome.next ∘ mainUpdate) (if_neg fun ⟨hc, hv, hn, hm, hrun⟩ => ?_)
      rcases h with h | h | h | h | h
      · exact Bool.false_ne_true (h.symm.trans hc)
      · exact Bool.false_ne_true (h.symm.trans hv)
      · exact hn h
      · exact hm h
      · exact not_lt.mpr h hrun
  case overruns => exact congrArg (Host.Outcome.next ∘ mainUpdate) (if_pos ⟨hon, hlag⟩)
  case follows =>
    refine congrArg (Host.Outcome.next ∘ mainUpdate) (if_neg fun ⟨hon, hlag⟩ => ?_)
    rcases h with h | h
    · exact Bool.false_ne_true (h.symm.trans hon)
    · exact Nat.not_lt.mpr h hlag

/-! ## Direction (R323) -/

/-- An encoder's direction turned. -/
def Enc.turned (new : Bool) (e : Enc) : Enc := { e with dir := new, dirExt := 0 }

section
variable {k : Fin 2} {x : Samples} {s u : State} {e : Enc} (hu : u = advance x s) (he : e = u.pos.enc k)
include hu he

theorem direction_stays (h : e.counting = false ∨ e.dirExt < (e.dirHyst : Int)) : exec (.direction k x) s = .next (mainUpdate u) := by
  subst hu he
  refine congrArg Host.Outcome.next (if_neg fun ⟨hc, hd⟩ => ?_)
  rcases h with h | h
  · exact Bool.false_ne_true (h.symm.trans hc)
  · exact not_lt.mpr hd h

theorem direction_turns (hc : e.counting = true) (hd : (e.dirHyst : Int) ≤ e.dirExt) {ev : Event}
    (hev : ev = { ev := .direction, source := 0x30 + k, p0 := w32 k, p1 := w32 (b2n !e.dir), p2 := u.line }) :
    exec (.direction k x) s = .next (mainUpdate (if decide ((k : Nat) = 0) && !e.dir then stickEvent .reverse ev (setEnc k (Enc.turned !e.dir) u)
      else event ev (setEnc k (Enc.turned !e.dir) u))) := by
  subst hu he hev
  exact congrArg Host.Outcome.next (if_pos ⟨hc, hd⟩)

theorem direction_forwards (hc : e.counting = true) (hd : (e.dirHyst : Int) ≤ e.dirExt) (hdir : e.dir = true) :
    exec (.direction k x) s = .next (mainUpdate (event { ev := .direction, source := 0x30 + k, p0 := w32 k, p1 := 0, p2 := u.line }
      (setEnc k (Enc.turned false) u))) := by
  rw [direction_turns hu he hc hd rfl, hdir, if_neg (by simp)]
  rfl

theorem direction_backwards (hc : e.counting = true) (hd : (e.dirHyst : Int) ≤ e.dirExt) (hdir : e.dir = false) {ev : Event}
    (hev : ev = { ev := .direction, source := 0x30 + k, p0 := w32 k, p1 := 1, p2 := u.line }) :
    (k = 0 → exec (.direction k x) s = .next (mainUpdate (stickEvent .reverse ev (setEnc k (Enc.turned true) u)))) ∧
    (k = 1 → exec (.direction k x) s = .next (mainUpdate (event ev (setEnc k (Enc.turned true) u)))) := by
  subst hev
  constructor
  · rintro rfl
    rw [direction_turns hu he hc hd rfl, hdir, if_pos (by simp)]
    rfl
  · rintro rfl
    rw [direction_turns hu he hc hd rfl, hdir, if_neg (by simp)]
    rfl

end

/-! ## Index pulses (R325 to R327) -/

/-- A deviation is at most half a period: the nearest whole number of periods is taken off. -/
theorem indexDev_half (c ref : Word) {n : Nat} (h : n ≠ 0) : |2 * indexDev c ref n| ≤ n := by
  unfold indexDev roundHalfUp
  dsimp only
  generalize sx 32 (c - ref).toNat = d
  have hn : (0 : Int) < 2 * n := by omega
  have hlow := Int.mul_ediv_self_le (x := 2 * d + n) (k := 2 * (n : Int)) hn.ne'
  have hhigh := Int.lt_mul_ediv_self_add (x := 2 * d + n) hn
  generalize (2 * d + (n : Int)) / (2 * n) = q at hlow hhigh
  rw [abs_le]
  constructor <;> nlinarith

/-- An encoder whose index has been measured, with its deviation. -/
def Enc.measured (dev : Int) (e : Enc) : Enc := { e with dev := wInt dev, sinceIndex := 0, missing := false }

/-- An encoder's count with a slip taken off. -/
def Enc.slipped (dev : Int) (e : Enc) : Enc := { e with count := e.count - wInt dev, slips := satAdd e.slips 1 }

section
variable {k : Fin 2} {x : Samples} {s u : State} {e : Enc} {dev : Int} (hu : u = advance x s) (he : e = u.pos.enc k)
include hu he

theorem encIndex_ignored (h : e.counting = false ∨ e.dir = true ∨ e.indexCounts = 0 ∨ e.zRise = some false) :
    exec (.encIndex k x) s = .next (mainUpdate u) := by
  subst hu he
  exact congrArg Host.Outcome.next (if_pos (by simpa using h))

variable (hc : e.counting = true) (hd : e.dir = false) (hn : e.indexCounts ≠ 0) (hz : e.zRise ≠ some false)
include hc hd hn hz

theorem encIndex_first (hv : e.indexValid = false) : exec (.encIndex k x) s = .next (mainUpdate
    (setEnc k (fun e => { e with indexValid := true, ref := e.count, sinceIndex := 0, missing := false }) u)) := by
  subst hu he
  exact congrArg Host.Outcome.next ((if_neg (by simp [hc, hd, hn, hz])).trans (if_pos (by simp [hv])))

/-- A later index is measured against the reference. -/
theorem encIndex_later (hv : e.indexValid = true) (hdev : dev = indexDev e.count e.ref e.indexCounts) {v : State}
    (hvs : v = setEnc k (Enc.measured dev) u) : exec (.encIndex k x) s = .next (
      if |dev| ≤ 2 then
        if dev = 0 then mainUpdate v
        else mainUpdate (if (k : Nat) = 0 then { setEnc k (Enc.slipped dev) v with
          pos := { (setEnc k (Enc.slipped dev) v).pos with corr := v.pos.corr - dev * (v.cg.lineStep.toNat : Int), corrOn := true } }
          else setEnc k (Enc.slipped dev) v)
      else mainUpdate (stickEvent .indexMismatch { ev := .indexMismatch, source := 0x30 + k, p0 := w32 k, p1 := wInt dev, p2 := u.line }
        (setEnc k (fun e => { e with ref := e.count }) v))) := by
  subst hu he hdev hvs
  exact congrArg Host.Outcome.next ((if_neg (by simp [hc, hd, hn, hz])).trans (if_neg (by simp [hv])))

/-- A slip corrects the count, and ENC0's the position with it. -/
theorem encIndex_slip (hv : e.indexValid = true) (hdev : dev = indexDev e.count e.ref e.indexCounts) (hs : |dev| ≤ 2) (h0 : dev ≠ 0)
    (hl : u.pos.encs.length = 2) : ∃ t, exec (.encIndex k x) s = .next (mainUpdate t) ∧ OnlyChanges [.pos] u t ∧
      t.pos.acc = u.pos.acc ∧ (t.pos.enc k).count = e.count - wInt dev ∧ (t.pos.enc k).slips = satAdd e.slips 1 ∧
      (k = 0 → t.pos.corr = u.pos.corr - dev * (u.cg.lineStep.toNat : Int) ∧ t.pos.corrOn = true) ∧ (k = 1 → t.pos.corr = u.pos.corr) := by
  have hlater := encIndex_later hu he hc hd hn hz hv hdev rfl
  rw [if_pos hs, if_neg h0, setEnc_setEnc] at hlater
  have henc : (setEnc k (Enc.slipped dev ∘ Enc.measured dev) u).pos.enc k = (e.measured dev).slipped dev := by
    rw [he]
    exact enc_setEnc_same _ (hl.symm ▸ k.isLt)
  refine ⟨_, hlater, ?_⟩
  split
  next hk =>
    exact ⟨onlyChanges_pos u _, rfl, (congrArg Enc.count henc :), (congrArg Enc.slips henc :), fun _ => ⟨rfl, rfl⟩, fun h1 => absurd hk (by simp [h1])⟩
  next hk =>
    exact ⟨onlyChanges_pos u _, rfl, (congrArg Enc.count henc :), (congrArg Enc.slips henc :), fun h0 => absurd (congrArg Fin.val h0) hk, fun _ => rfl⟩

end

theorem directionAndIndex : Claims.DirectionAndIndex := by
  refine ⟨fun k x s u e hu he => ⟨direction_stays hu he, direction_forwards hu he, fun hc hd hdir => (direction_backwards hu he hc hd hdir rfl).1,
    fun hc hd hdir => (direction_backwards hu he hc hd hdir rfl).2⟩, fun k x s u e dev hu he hdev => ⟨encIndex_ignored hu he,
    fun hc hd hn hz => ⟨encIndex_first hu he hc hd hn hz, fun hv hm => ?mismatch, fun hv h0 => ?exact,
      fun hv hs h0 hl => encIndex_slip hu he hc hd hn hz hv hdev hs h0 hl⟩⟩, fun c ref n h => indexDev_half c ref h⟩
  case mismatch => rw [encIndex_later hu he hc hd hn hz hv hdev rfl, if_neg (not_le.mpr hm)]; rfl
  case exact =>
    rw [encIndex_later hu he hc hd hn hz hv hdev rfl, h0]
    rfl

/-! ## Agreement (R328) -/

/-- The state in which a window of R328 has ended with a verdict, after so many windows that agreed in a row. -/
def agreeNoted (run : Nat) (new : Bool) (u : State) : State := { u with pos := { u.pos with
  agree := new, agreeRun := run, agreeAt := u.pos.mono
  s0 := Int.tdiv (u.pos.enc 0).winSpeed 65536, s1 := Int.tdiv (u.pos.enc 1).winSpeed 65536
  encs := [{ u.pos.enc 0 with winCount := 0 }, { u.pos.enc 1 with winCount := 0 }] } }

theorem agreement : Claims.Agreement := by
  rintro x s u e0 e1 run new rfl rfl rfl
  refine ⟨fun ht => congrArg (Host.Outcome.next ∘ mainUpdate) (if_pos ht), fun ht hrun hnew => ⟨agreeNoted run new (advance x s), onlyChanges_pos _ _,
    rfl, rfl, rfl, rfl, rfl, rfl, fun h => ?kept, fun ⟨ha, hn, h0, h1⟩ => ?ended⟩⟩
  case kept =>
    subst hnew hrun
    refine congrArg (Host.Outcome.next ∘ mainUpdate) ((if_neg (Nat.not_lt.mpr ht)).trans (if_neg fun ⟨ha, hn, hon⟩ => ?_))
    rcases h with h | h | h | h
    · exact Bool.false_ne_true (h.symm.trans ha)
    · exact hn h
    · simp [h] at hon
    · simp [h] at hon
  case ended =>
    subst hnew hrun
    exact congrArg (Host.Outcome.next ∘ mainUpdate) ((if_neg (Nat.not_lt.mpr ht)).trans (if_pos ⟨ha, by simp [hn], by simp [h0, h1]⟩))

/-- Settles O44: a row by whether its condition stands, an index by its deviation, a window by its verdict. -/
theorem encoders : Obligations.Encoders := ⟨encoderFaults, directionAndIndex, agreement⟩

end Sys2Proof.Machine
end

section
/-!
PROOFS. The position commands and the absolute-position ports (R351 to R357, R361).
-/
namespace Sys2Proof.Machine

section
variable {k : Fin 16} {c : RungCmd} {s : State}

/-! ## POS_GET_STATUS (R353) -/

theorem posGetStatus_answers (h : Rung 0x0900 1 k c s) (hw : c.w 0 &&& ~~~ 1 = 0) (hb : s.host.opState ≠ .boot) :
    execPosGetStatus k s = .next (respond k (okWith (posView (begun k s))) (if flag (c.w 0) 0 then { begun k s with pos := { s.pos with
      encs := s.pos.encs.map fun e => { e with slips := 0, quadErrors := 0 }
      abs := s.pos.abs.map fun a => { a with errors := 0 } } } else begun k s)) := by
  refine congrArg Host.Outcome.next (command_done h ?_ rfl)
  simp only [passes_cons, passes_nil, reservedW_passes (i := 0) hw, notBoot_passes hb, and_self]

/-! ## POS_ENC_CONFIG (R356) -/

/-- An encoder as a POS_ENC_CONFIG sets it up. -/
def Enc.configured (c : RungCmd) (e : Enc) : Enc := { e with
  mode := fld (c.w 0) 1 2, fwdSense := flag (c.w 0) 3, autoCorr := flag (c.w 0) 4, filterN := fld (c.w 0) 8 8
  dirHyst := fld (c.w 0) 16 16, scale := (c.w 1).toNat, indexCounts := (c.w 2).toNat
  fault := false, indexValid := false, sinceIndex := 0, missing := false, hist := [], speed := 0, speedValid := false
  overfreq := false, winCount := 0, phase := none }

/-- The state in which a POS_ENC_CONFIG has set its encoder up: the windows of R328 begin again. -/
def encConfigured (c : RungCmd) (s : State) : State := { s with pos := { s.pos with
  encs := upd s.pos.encs (fld (c.w 0) 0 1) (Enc.configured c), agree := s.pos.agree && fld (c.w 0) 1 2 != 0, agreeRun := 0 } }

theorem posEncConfig_answers (h : Rung 0x0901 3 k c s) (hmode : fld (c.w 0) 1 2 ≠ 3) (hfilter : 1 ≤ fld (c.w 0) 8 8)
    (hhyst : 1 ≤ fld (c.w 0) 16 16) (hw : c.w 0 &&& ~~~ 0xFFFFFF1F = 0) (hindex : c.w 2 = 0 ∨ (4 ≤ (c.w 2).toNat ∧ (c.w 2).toNat < 2 ^ 31))
    (hf : s.host.firing = false) : execPosEncConfig k s = .next (respond k ok (mainUpdate (encConfigured c (begun k s)))) := by
  have hfields : (fld (c.w 0) 1 2 == 3 || fld (c.w 0) 8 8 == 0 || fld (c.w 0) 16 16 == 0) = false := by
    simp only [Bool.or_eq_false_iff, beq_eq_false_iff_ne]
    omega
  have hcounts : ¬ ((c.w 2).toNat ≠ 0 ∧ ((c.w 2).toNat < 4 ∨ (c.w 2).toNat ≥ 2 ^ 31)) := by
    rcases hindex with h0 | hr
    · simp [h0]
    · omega
  refine congrArg Host.Outcome.next (command_done h ?_ rfl)
  simp only [passes_cons, passes_nil, and_true]
  exact ⟨hfields, reservedW_passes hw, decide_eq_false hcounts, hf⟩

theorem encConfigured_enc (hl : s.pos.encs.length = 2) : (encConfigured c s).pos.enc (fld (c.w 0) 0 1) = (s.pos.enc (fld (c.w 0) 0 1)).configured c :=
  cell_upd_same _ _ (hl.symm ▸ Nat.mod_lt _ (by decide))

/-! ## POS_ENCO_CONFIG (R357) -/

theorem posEncoConfig_answers (h : Rung 0x0902 3 k c s) (hw : c.w 0 &&& ~~~ 1 = 0) (hlow : 65536 ≤ (c.w 1).toNat)
    (hhigh : (c.w 1).toNat ≤ 65535 * 65536) (hb : s.host.opState ≠ .boot) :
    execPosEncoConfig k s = .next (respond k ok { begun k s with pos := { s.pos with
      encoEnable := flag (c.w 0) 0, encoRatio := (c.w 1).toNat, encoZ := (c.w 2).toNat, encoRem := 0 } }) := by
  refine congrArg Host.Outcome.next (command_done h ?_ rfl)
  simp only [passes_cons, passes_nil, and_true]
  exact ⟨reservedW_passes hw, decide_eq_false (not_or.mpr ⟨Nat.not_lt.mpr hlow, Nat.not_lt.mpr hhigh⟩), notBoot_passes hb⟩

end

theorem positionCommands : Claims.PositionCommands := by
  refine ⟨fun k c s h hb => ⟨fun hw => ?view, fun hw => ?viewClears⟩, fun k c s n mode h hn hm hmode hfilter hhyst hw hindex hf hl => ?encoder,
    fun k c s => posEncoConfig_answers⟩
  case view =>
    refine (posGetStatus_answers h (by rw [hw]; rfl) hb).trans ?_
    rw [hw]
    rfl
  case viewClears =>
    refine (posGetStatus_answers h (by rw [hw]; rfl) hb).trans ?_
    rw [hw]
    rfl
  case encoder =>
    subst hn hm
    refine ⟨_, posEncConfig_answers h hmode hfilter hhyst hw hindex hf, onlyChanges_pos _ _, ?_⟩
    rw [encConfigured_enc (s := begun k s) hl]
    exact ⟨rfl, rfl, rfl, rfl, rfl, rfl, rfl, rfl, fun j hj => cell_upd_other _ _ hj, rfl⟩

/-! ## What a read brings leaves the position unit (R364, R373, R459) -/

section
variable (s : State)

theorem latchTrip_pos (cause : Nat) (param : Word) : (latchTrip cause param s).pos = s.pos := by
  cases h : s.onyx.tripped with
  | true =>
    obtain ⟨m, n, c, q, e⟩ := latchTrip_again cause param h
    rw [e]
  | false =>
    rw [latchTrip_first cause param h]
    exact (setPermission_onlyChanges 2 4 false (tripLatched cause param s) .pos (by decide)).symm

theorem setAxisEnable_pos (a : Nat) (level : Bool) (reason : Nat) : (setAxisEnable a level reason s).pos = s.pos := by
  unfold setAxisEnable
  dsimp only
  split
  · rfl
  · split <;> rfl

theorem axisKnown_pos (a : Nat) : (axisKnown a s).pos = s.pos := by
  unfold axisKnown
  dsimp only
  split
  · exact setAxisEnable_pos _ a _ _
  · split
    · exact setAxisEnable_pos _ a _ _
    · split
      · exact setAxisEnable_pos s a _ _
      · rfl

theorem onyxAbsRead_pos (a : Nat) (good : Option Word) : (onyxAbsRead a good s).pos = s.pos := by
  cases good with
  | none => exact axisKnown_pos _ a
  | some p =>
    unfold onyxAbsRead
    dsimp only
    split
    · exact (latchTrip_pos _ _ _).trans ((setAxisEnable_pos _ a _ _).trans (axisKnown_pos _ a))
    · exact axisKnown_pos _ a

theorem mainUpdate_pos : (mainUpdate s).pos = s.pos := (mainUpdate_onlyChanges s .pos (by decide)).symm

theorem capUpdate_pos : (capUpdate s).pos = s.pos := by
  unfold capUpdate
  dsimp only
  split
  · rfl
  · exact mainUpdate_pos _

theorem posLost_pos (a : Nat) : (posLost a s).pos = s.pos := rfl

theorem controlCycle_pos (a : Nat) (was : Bool) : (controlCycle a was s).pos = s.pos := by
  unfold controlCycle
  extract_lets s0 p x meas err i boost above run stalls s1 s2 s3 s4
  have h2 : s2.pos = s.pos := by
    unfold s2
    split <;> rfl
  have h3 : s3.pos = s.pos := by
    unfold s3
    split
    · exact (posLost_pos s2 a).trans h2
    · exact h2
  refine (capUpdate_pos s4).trans ?_
  unfold s4
  split <;> exact h3

end

/-! ## The end of a read (R351, R352) -/

/-- A port after a read with a GOOD or WARN outcome. -/
def AbsPort.readGood (pos o : Nat) (a : AbsPort) : AbsPort := { a with
  reading := false, outcome := o, warn := o == 1, pos := BitVec.ofNat 40 pos, good := true, badRun := 0, goodRun := min 3 (a.goodRun + 1)
  posValid := a.posValid || decide (min 3 (a.goodRun + 1) ≥ 3) }

/-- A port after a read with another outcome: it holds its position. -/
def AbsPort.readHeld (o : Nat) (a : AbsPort) : AbsPort := { a with
  reading := false, outcome := o, warn := false, goodRun := 0, badRun := min 3 (a.badRun + 1), errors := satAdd a.errors 1
  posValid := a.posValid && decide (min 3 (a.badRun + 1) < 3) }

/-- The position of a read as decoded. -/
def AbsPort.decode (raw : Nat) (a : AbsPort) : Nat :=
  if a.protocol = 2 ∧ a.gray then ungray a.posBits (raw % 2 ^ a.posBits) else raw % 2 ^ a.posBits

section
variable {k : Fin 2} {s : State} {a : AbsPort} {o : Nat}

theorem absReadDone_idle (b : Bool) (raw err crc : Nat) (h : (cell s.pos.abs k.val {}).reading = false) :
    exec (.absReadDone k b raw err crc) s = .next s := congrArg _ (if_pos ((Bool.not_eq_true' _).mpr h))

/-- A read that ends with outcome o: below 2 the port takes the position, else it holds the last one. -/
theorem absReadDone_ends (b : Bool) (raw err crc : Nat) (ha : a = cell s.pos.abs k.val {}) (hr : a.reading = true) (hl : s.pos.abs.length = 2)
    (ho : o = absOutcome a b (a.decode raw) err crc) : ∃ t, exec (.absReadDone k b raw err crc) s = .next t ∧
      (o < 2 → cell t.pos.abs k.val {} = a.readGood (a.decode raw) o) ∧ (2 ≤ o → cell t.pos.abs k.val {} = a.readHeld o) := by
  have hk : k.val < s.pos.abs.length := hl.symm ▸ k.isLt
  have hreads : ¬ (!a.reading) = true := by simp [hr]
  subst ha ho
  refine ⟨_, congrArg Host.Outcome.next (if_neg hreads), ?_⟩
  rw [onyxAbsRead_pos, controlCycle_pos]
  refine ⟨fun ho => ?takes, fun ho => ?holds⟩
  case takes => exact (congrArg (fun t : State => cell t.pos.abs k.val {}) (if_pos ho)).trans (cell_upd_same _ _ hk)
  case holds =>
    refine (congrArg (fun t : State => cell t.pos.abs k.val {}) (if_neg (Nat.not_lt.mpr ho))).trans ?_
    dsimp only
    split <;> exact cell_upd_same _ _ hk

end

/-- An encoder that has not answered gives TIMEOUT. -/
theorem absOutcome_silent (a : AbsPort) (pos err crc : Nat) : absOutcome a false pos err crc = 2 := rfl

theorem absOutcome_le (a : AbsPort) (b : Bool) (pos err crc : Nat) : absOutcome a b pos err crc ≤ 5 := by
  unfold absOutcome
  extract_lets jump
  split_ifs <;> decide

theorem absOutcome_crc {a : AbsPort} {pos err crc : Nat} (hp : a.protocol = 1) (hc : crc ≠ absCrc a pos err) :
    absOutcome a true pos err crc = 3 := by
  unfold absOutcome
  extract_lets jump
  rw [if_neg (by simp), if_pos ⟨hp, hc⟩]

/-- Gray code is decoded to the number it stands for. -/
theorem ungray_gray (n x : Nat) (h : x < 2 ^ n) : ungray n (Nat.xor x (x / 2)) = x := by
  induction n generalizing x with
  | zero => 
    obtain rfl : x = 0 := by simpa using h
    rfl
  | succ n ih =>
    have hhalf : Nat.xor x (x / 2) / 2 = Nat.xor (x / 2) (x / 2 / 2) := Nat.xor_div_two
    rw [ungray, hhalf, ih (x / 2) (by omega)]
    exact Nat.xor_xor_cancel_right x (x / 2)

/-! ## POS_ABS_CONFIG (R361) -/

/-- What R361 holds the operands of a POS_ABS_CONFIG to, and the port's timer and axis with them. -/
structure AbsConfigAllowed (c : RungCmd) (s : State) : Prop where
  /-- No reserved bit of the first word is set. -/
  reserved : c.w 0 &&& ~~~ 0x1FFFF = 0
  /-- PROTOCOL. -/
  protocol : fld (c.w 0) 1 2 ≠ 3
  /-- POS_BITS. -/
  posBits : 8 ≤ fld (c.w 0) 4 6 ∧ fld (c.w 0) 4 6 ≤ 40
  /-- ERR_BITS. -/
  errBits : fld (c.w 0) 10 2 ≠ 3
  /-- CRC_WIDTH. -/
  crcWidth : fld (c.w 0) 12 5 ≤ 16
  /-- CLOCK_KHZ. -/
  clock : 100 ≤ fld (c.w 1) 0 16 ∧ fld (c.w 1) 0 16 ≤ 10000
  /-- A read ends within the period of the timer that starts it. -/
  period : (s.timer (fld (c.w 0) 0 1)).st ≠ 1 ∨ (s.timer (fld (c.w 0) 0 1)).period = 0 ∨
    readTime (fld (c.w 0) 1 2) (fld (c.w 0) 4 6) (fld (c.w 0) 10 2) (fld (c.w 0) 12 5) (fld (c.w 1) 0 16) (fld (c.w 2) 24 8) ≤
      (s.timer (fld (c.w 0) 0 1)).period
  /-- TIMEOUT_US. -/
  timeout : 1 ≤ fld (c.w 2) 16 8 ∧ fld (c.w 2) 16 8 ≤ 100
  /-- MONO_US. -/
  mono : 1 ≤ fld (c.w 2) 24 8 ∧ fld (c.w 2) 24 8 ≤ 100
  /-- DELAY_NS. -/
  delay : fld (c.w 3) 0 16 ≤ 2000
  /-- No reserved bit beside DELAY_NS is set. -/
  delayReserved : c.w 3 &&& ~~~ 0xFFFF = 0
  /-- The axis stands. -/
  stands : (s.axis (fld (c.w 0) 0 1)).vel = 0

/-- A port as a POS_ABS_CONFIG sets it up: without a valid position (log 24). -/
def AbsPort.configured (c : RungCmd) (a : AbsPort) : AbsPort := { a with
  protocol := fld (c.w 0) 1 2, gray := flag (c.w 0) 3, posBits := fld (c.w 0) 4 6, errBits := fld (c.w 0) 10 2, crcWidth := fld (c.w 0) 12 5
  clockKhz := fld (c.w 1) 0 16, crcPoly := fld (c.w 1) 16 16, crcXor := fld (c.w 2) 0 16, timeoutUs := fld (c.w 2) 16 8
  monoUs := fld (c.w 2) 24 8, delayNs := fld (c.w 3) 0 16, maxStep := (c.w 4).toNat
  reading := false, posValid := false, good := false, badRun := 0, goodRun := 0 }

theorem posAbsConfig_answers {k : Fin 16} {c : RungCmd} {s u : State} (h : Rung 0x0906 5 k c s) (ha : AbsConfigAllowed c s)
    (hu : u = if (cell s.pos.abs (fld (c.w 0) 0 1) {}).posValid then posLost (fld (c.w 0) 0 1) (begun k s) else begun k s) :
    execPosAbsConfig k s = .next (respond k ok (setAbs (fld (c.w 0) 0 1) (AbsPort.configured c) u)) := by
  have hin {x lo hi : Nat} (hx : lo ≤ x ∧ x ≤ hi) : decide (x < lo ∨ hi < x) = false := decide_eq_false (by omega)
  subst hu
  refine congrArg Host.Outcome.next (command_done h ?_ rfl)
  simp only [passes_cons, passes_nil, and_true]
  refine ⟨?fields, reservedW_passes ha.reserved, ?clock, ?times, decide_eq_false (Nat.not_lt.mpr ha.delay), reservedW_passes ha.delayReserved,
    bne_eq_false_iff_eq.mpr ha.stands⟩
  case fields =>
    exact Bool.or_eq_false_iff.mpr ⟨Bool.or_eq_false_iff.mpr ⟨Bool.or_eq_false_iff.mpr ⟨beq_eq_false_iff_ne.mpr ha.protocol, hin ha.posBits⟩,
      beq_eq_false_iff_ne.mpr ha.errBits⟩, hin ⟨Nat.zero_le _, ha.crcWidth⟩⟩
  case clock =>
    refine Bool.or_eq_false_iff.mpr ⟨hin ha.clock, Bool.and_eq_false_imp.mpr fun hruns => decide_eq_false (Nat.not_lt.mpr ?_)⟩
    obtain ⟨⟨hst, hperiod⟩, -⟩ : (_ ∧ _) ∧ _ := by simpa using hruns
    exact (ha.period.resolve_left (not_not.mpr hst)).resolve_left hperiod
  case times => exact Bool.or_eq_false_iff.mpr ⟨hin ha.timeout, hin ha.mono⟩

theorem absolutePosition : Claims.AbsolutePosition := by
  refine ⟨fun k b raw err crc s => absReadDone_idle b raw err crc, fun k b raw err crc pos o a s ha hr hl hp ho => ?read, ungray_gray,
    fun a pos err crc => ⟨absOutcome_silent a pos err crc, absOutcome_le a true pos err crc, absOutcome_crc⟩,
    fun k c s n h hn hw hprot hp1 hp2 he hcrc hk1 hk2 ht hto1 hto2 hm1 hm2 hd hdr hv hl u hu => ?config⟩
  case read =>
    subst hp
    obtain ⟨t, ht, hgood, hheld⟩ := absReadDone_ends b raw err crc ha hr hl ho
    refine ⟨t, cell t.pos.abs k.val {}, ht, rfl, ?_⟩
    rcases Nat.lt_or_ge o 2 with ho2 | ho2
    · rw [hgood ho2]
      refine ⟨rfl, rfl, fun _ => ⟨rfl, rfl, rfl, congrArg (a.posValid || ·) (decide_eq_decide.mpr (by omega))⟩,
        fun h => absurd h (Nat.not_le.mpr ho2)⟩
    · rw [hheld ho2]
      exact ⟨rfl, rfl, fun h => absurd ho2 (Nat.not_le.mpr h),
        fun _ => ⟨rfl, rfl, rfl, congrArg (a.posValid && ·) (decide_eq_decide.mpr (by omega))⟩⟩
  case config =>
    subst hn
    refine ⟨_, _, posAbsConfig_answers h ⟨hw, hprot, ⟨hp1, hp2⟩, he, hcrc, ⟨hk1, hk2⟩, ht, ⟨hto1, hto2⟩, ⟨hm1, hm2⟩, hd, hdr, hv⟩ hu,
      onlyChanges_pos u _, rfl, ?_⟩
    have habs : u.pos.abs = s.pos.abs := by
      rw [hu]
      split <;> rfl
    have hport : cell (setAbs (fld (c.w 0) 0 1) (AbsPort.configured c) u).pos.abs (fld (c.w 0) 0 1) {} =
        (cell u.pos.abs (fld (c.w 0) 0 1) {}).configured c := cell_upd_same _ _ (by rw [habs, hl]; exact Nat.mod_lt _ (by decide))
    rw [hport]
    exact ⟨rfl, rfl, rfl, rfl, rfl, rfl, rfl, rfl, rfl, rfl, rfl, rfl, rfl, fun j hj => (cell_upd_other _ _ hj).trans (by rw [habs])⟩

/-- Settles O47: a command by its checks and its effect, a read by its outcome. -/
theorem positionAndItsCommands : Obligations.PositionAndItsCommands := ⟨positionCommands, absolutePosition⟩

end Sys2Proof.Machine
end

section
/-!
PROOFS. Network time: its messages, its states and its steps (R340 to R346, R360).
-/
namespace Sys2Proof.Machine

/-! ## Messages of the selected master (R340, R341) -/

theorem fromMaster_iff {d : Byte} {b : Bool} {p : Dword} {s : State} : fromMaster d b p s = true ↔
    s.pos.ptpEnable = true ∧ d = s.pos.ptpDomain ∧ b = s.pos.ptpUdp ∧ ∃ m, s.pos.master = some m ∧ m.port = p := by
  unfold fromMaster hears
  cases s.pos.master <;> simp [and_assoc]

theorem hears_eq_false {d : Byte} {b : Bool} {s : State} (h : s.pos.ptpEnable = false ∨ d ≠ s.pos.ptpDomain ∨ b ≠ s.pos.ptpUdp) :
    hears d b s = false := by
  unfold hears
  rcases h with h | h | h <;> simp [h]

/-- The exchange of a window with the smallest round trip is one of them. -/
theorem bestOf_least (x : Int × Int) (l : List (Int × Int)) : ∃ y, bestOf (x :: l) = some y ∧ y ∈ x :: l ∧ ∀ z ∈ x :: l, y.1 ≤ z.1 := by
  induction l generalizing x with
  | nil => exact ⟨x, rfl, by simp, by simp⟩
  | cons w l ih =>
    obtain ⟨y, hy, hmem, hle⟩ := ih w
    have hbest : bestOf (x :: w :: l) = if x.1 ≤ y.1 then some x else some y := by rw [bestOf, hy]
    rw [hbest]
    split
    next h =>
      exact ⟨x, rfl, List.mem_cons_self, List.forall_mem_cons.mpr ⟨le_rfl, fun z hz => h.trans (hle z hz)⟩⟩
    next h =>
      exact ⟨y, rfl, List.mem_cons_of_mem x hmem, List.forall_mem_cons.mpr ⟨(not_le.mp h).le, hle⟩⟩

section
variable {d : Byte} {b : Bool} {p : Dword} {s : State}

theorem ptpSyncRx_other {log : Int} (seq : Nat) (f : Bool) (t1 : Option Dword) (j : Int) (h : fromMaster d b p s = false ∨ log < -4 ∨ 1 < log) :
    exec (.ptpSyncRx d p ⟨b, seq, log⟩ f t1 j) s = .next s :=
  congrArg _ (if_pos (h.imp_left fun h => by simp [h]))

theorem ptpSyncRx_sync {log : Int} (seq : Nat) (t1 : Option Dword) (j : Int) (hm : fromMaster d b p s = true) (hlo : -4 ≤ log) (hhi : log ≤ 1) :
    exec (.ptpSyncRx d p ⟨b, seq, log⟩ false t1 j) s = .next { s with pos := { s.pos with
      syncT1 := some (t1, BitVec.ofInt 64 (s.pos.netNow + j), seq), syncAt := s.pos.mono, syncNs := logNs log } } :=
  congrArg _ ((if_neg (by simp [hm, hlo, hhi])).trans (if_neg Bool.false_ne_true))

theorem ptpSyncRx_followUp {log : Int} {seq : Nat} {t2 : Dword} (t1 : Option Dword) (j : Int) (hm : fromMaster d b p s = true) (hlo : -4 ≤ log)
    (hhi : log ≤ 1) (h : s.pos.syncT1 = some (none, t2, seq)) : exec (.ptpSyncRx d p ⟨b, seq, log⟩ true t1 j) s =
      .next { s with pos := { s.pos with syncT1 := some (t1, t2, seq) } } := by
  refine congrArg Host.Outcome.next ((if_neg (by simp [hm, hlo, hhi])).trans ((if_pos rfl).trans ?_))
  rw [h]
  exact if_pos rfl

section
variable {log : Int} {seq q2 : Nat} {t1 t2 t3 t4 : Dword} {x : Int × Int} (hm : fromMaster d b p s = true)
  (h1 : s.pos.syncT1 = some (some t1, t2, q2)) (h3 : s.pos.delayT3 = some (t3, seq)) (hx : x = exchangeOf t1.toNat t2.toNat t3.toNat t4.toNat)
include hm h1 h3 hx

/-- An exchange joins a window that it does not fill. -/
theorem ptpDelayRespRx_joins (hl : s.pos.xchg.length < 7) : exec (.ptpDelayRespRx d ⟨b, p, log⟩ seq t4) s =
    .next { s with pos := { s.pos with syncT1 := none, delayT3 := none, xchg := s.pos.xchg ++ [x] } } := by
  have hlen : (s.pos.xchg ++ [x]).length < 8 := by simp; omega
  subst hx
  refine congrArg Host.Outcome.next ((if_neg (by simp [hm])).trans ?_)
  rw [h1, h3]
  refine (if_neg (not_not.mpr rfl)).trans ((if_pos hlen).trans ?_)
  rw [if_neg (Nat.not_le.mpr hlen)]

/-- The eighth exchange gives a filtered one: that of the smallest round trip. -/
theorem ptpDelayRespRx_filters {y : Int × Int} (hl : s.pos.xchg.length = 7) (hy : bestOf (s.pos.xchg ++ [x]) = some y) :
    exec (.ptpDelayRespRx d ⟨b, p, log⟩ seq t4) s =
      .next (filtered y.2 { s with pos := { s.pos with syncT1 := none, delayT3 := none, xchg := [] } }) := by
  have hlen : (s.pos.xchg ++ [x]).length = 8 := by simpa using hl
  subst hx
  refine congrArg Host.Outcome.next ((if_neg (by simp [hm])).trans ?_)
  rw [h1, h3]
  refine (if_neg (not_not.mpr rfl)).trans ((if_neg (Nat.not_lt.mpr hlen.ge)).trans ?_)
  rw [hy, if_pos hlen.ge]

end

end

/-! ## Changes of the time state (R343, R346) -/

theorem abortTimeGroups_pos (s : State) : ∃ l, (abortTimeGroups s).pos = { s.pos with cmps := l } :=
  List.foldlRecOn (motive := fun t : State => ∃ l, t.pos = { s.pos with cmps := l }) _ _ ⟨s.pos.cmps, rfl⟩ fun t ⟨l, ht⟩ g _ => by
    dsimp only
    split
    · obtain ⟨⟨m, hm⟩, -⟩ := abortGroupTo_leaves false 2 g t
      exact ⟨m, hm.trans (by rw [ht])⟩
    · exact ⟨l, ht⟩

/-- The position unit as the time state becomes another (R343). -/
def Pos.entered (new : TimeState) (p : Pos) : Pos :=
  { p with tState := new, okRun := 0, holdStart := if new = .holdover then some p.mono else none }

theorem setTime_same {new : TimeState} {s : State} (k : Option Sticky) (h : s.pos.tState = new) : (setTime new k s).pos = s.pos := by
  unfold setTime
  dsimp only
  rw [if_pos h]
  split <;> rfl

theorem setTime_pos {new : TimeState} {s : State} (k : Option Sticky) (h : s.pos.tState ≠ new) :
    ∃ l, (setTime new k s).pos = { s.pos.entered new with cmps := l } := by
  unfold setTime
  extract_lets old e _ s1 s2
  rw [if_neg h]
  have h2 : s2.pos = s.pos.entered new := by
    unfold s2
    split <;> rfl
  split
  · obtain ⟨l, hl⟩ := abortTimeGroups_pos s2
    exact ⟨l, hl.trans (by rw [h2])⟩
  · exact ⟨s.pos.cmps, h2⟩

/-! ## Steps and slewing (R342, R344) -/

theorem timerStep_onlyChanges (s : State) (n : Nat) : OnlyChanges [.host, .pers, .out, .pos] s (timerStep s n) := by
  unfold timerStep
  extract_lets t now late s1
  split
  · exact .refl _ s
  · have h1 : OnlyChanges [.host, .pers, .out, .pos] s s1 := by
      unfold s1
      split
      · exact (onlyChanges_pos s _).mono (by decide)
      · split
        · exact (onlyChanges_pos s _).mono (by decide)
        · exact .refl _ s
    split
    · exact h1.trans ((withLog_onlyChanges _ s1).mono (by decide))
    · exact h1

theorem timerStep_pos (s : State) (n : Nat) : ∃ l, (timerStep s n).pos = { s.pos with timers := l } := by
  unfold timerStep
  extract_lets t now late s1
  split
  · exact ⟨s.pos.timers, rfl⟩
  · have h1 : ∃ l, s1.pos = { s.pos with timers := l } := by
      unfold s1
      split
      · exact ⟨_, rfl⟩
      · split <;> exact ⟨_, rfl⟩
    split
    · exact h1
    · exact h1

theorem stepNet_pos (delta : Int) (s : State) : ∃ l, (stepNet delta s).pos = { s.pos with
    net := s.pos.net + BitVec.ofInt 96 (delta * 2 ^ 32), stepGen := s.pos.stepGen + 1, timers := l } := by
  unfold stepNet
  extract_lets d64 _ s1 s2
  refine List.foldlRecOn (motive := fun t : State => ∃ l, t.pos = { s1.pos with timers := l }) _ _ ⟨s.pos.timers, rfl⟩ fun t ⟨l, ht⟩ n _ => ?_
  obtain ⟨m, hm⟩ := timerStep_pos t n
  exact ⟨m, hm.trans (by rw [ht])⟩

theorem stepNet_onlyChanges (delta : Int) (s : State) : OnlyChanges [.host, .pers, .out, .pos] s (stepNet delta s) := by
  unfold stepNet
  extract_lets d64 _ s1 s2
  exact (((onlyChanges_pos s _).mono (by decide)).trans ((withLog_onlyChanges _ s1).mono (by decide))).trans
    (.foldl _ _ s2 timerStep_onlyChanges)

/-- The servo keeps RATE_ADJ within 200 ppm of 2^32. -/
theorem slew_pos (s : State) : ∃ r l, |r| ≤ 4294967 ∧ (slew s).pos = { s.pos with rateAdj := r, rateHist := l } := by
  refine ⟨_, _, ?_, rfl⟩
  unfold clampI
  rw [abs_le]
  omega

end Sys2Proof.Machine
end

section
/-!
PROOFS. The states of network time, the choice of its master and its commands (R340, R341, R343 to R346, R360).
-/
namespace Sys2Proof.Machine

/-! ## A filtered exchange (R341, R343, R344) -/

/-- The state in which a filtered exchange has given its offset. -/
def offsetNoted (o : Int) (s : State) : State := { s with pos := { s.pos with offset := wInt o } }

section
variable {o : Int} {s : State}

theorem filtered_acquiring_near (h : s.pos.tState = .acquiring) (ho : |o| ≤ 2000) : filtered o s =
    if s.pos.okRun + 1 ≥ 16 then setTime .locked none (slew (offsetNoted o s))
    else { slew (offsetNoted o s) with pos := { (slew (offsetNoted o s)).pos with okRun := s.pos.okRun + 1 } } := by
  unfold filtered
  extract_lets +onlyGivenNames _ s1 near
  rw [show s1.pos.tState = .acquiring from h]
  dsimp only
  rw [if_neg (show ¬ |o| > 1000000 by omega), if_pos (show near = true from decide_eq_true ho)]
  rfl

theorem filtered_acquiring_far (h : s.pos.tState = .acquiring) (ho : 2000 < |o|) {u : State}
    (hu : u = if |o| > 1000000 then stepNet (-o) (offsetNoted o s) else slew (offsetNoted o s)) :
    filtered o s = { u with pos := { u.pos with okRun := 0 } } := by
  subst hu
  unfold filtered
  extract_lets +onlyGivenNames _ s1 near
  rw [show s1.pos.tState = .acquiring from h]
  dsimp only
  rw [if_neg (show ¬ near = true by simpa [near] using ho), if_neg (by decide)]
  rfl

theorem filtered_locked (h : s.pos.tState = .locked) : filtered o s =
    if |o| > 10000 then setTime .acquiring none (slew (offsetNoted o s)) else slew (offsetNoted o s) := by
  unfold filtered
  extract_lets +onlyGivenNames _ s1 near
  rw [show s1.pos.tState = .locked from h]
  rfl

theorem filtered_holdover (h : s.pos.tState = .holdover) : filtered o s =
    if !decide (|o| ≤ 2000) then setTime .acquiring none (offsetNoted o s)
    else if s.pos.okRun + 1 ≥ 4 then setTime .locked none (offsetNoted o s)
    else { offsetNoted o s with pos := { (offsetNoted o s).pos with okRun := s.pos.okRun + 1 } } := by
  unfold filtered
  extract_lets +onlyGivenNames _ s1 near
  rw [show s1.pos.tState = .holdover from h]
  rfl

theorem offsetsAcquiring (h : s.pos.tState = .acquiring) (ho : |o| ≤ 2000) :
    (15 ≤ s.pos.okRun → (filtered o s).pos.tState = .locked) ∧
    (s.pos.okRun < 15 → (filtered o s).pos.tState = .acquiring ∧ (filtered o s).pos.okRun = s.pos.okRun + 1) := by
  obtain ⟨r, l, -, hslew⟩ := slew_pos (offsetNoted o s)
  rw [filtered_acquiring_near h ho]
  refine ⟨fun hr => ?_, fun hr => ?_⟩
  · have hst : (slew (offsetNoted o s)).pos.tState ≠ .locked := by
      rw [hslew]
      exact fun hl => TimeState.noConfusion (h.symm.trans hl)
    obtain ⟨m, hm⟩ := setTime_pos none hst
    rw [if_pos (by omega), hm]
    rfl
  · rw [if_neg (by omega), hslew]
    exact ⟨h, rfl⟩

theorem offsetsFar (h : s.pos.tState = .acquiring) (ho : 2000 < |o|) : (filtered o s).pos.tState = .acquiring ∧ (filtered o s).pos.okRun = 0 ∧
    ((filtered o s).pos.net ≠ s.pos.net → 1000000 < |o|) := by
  rw [filtered_acquiring_far h ho rfl]
  split
  next hstep =>
    obtain ⟨l, hl⟩ := stepNet_pos (-o) (offsetNoted o s)
    rw [hl]
    exact ⟨h, rfl, fun _ => hstep⟩
  next =>
    obtain ⟨r, l, -, hl⟩ := slew_pos (offsetNoted o s)
    rw [hl]
    exact ⟨h, rfl, fun hn => absurd rfl hn⟩

theorem offsetsLocked (h : s.pos.tState = .locked) : (10000 < |o| → (filtered o s).pos.tState = .acquiring) ∧
    (|o| ≤ 10000 → (filtered o s).pos.tState = .locked) ∧ (filtered o s).pos.net = s.pos.net ∧ |(filtered o s).pos.rateAdj| ≤ 4294967 := by
  obtain ⟨r, l, hr, hslew⟩ := slew_pos (offsetNoted o s)
  rw [filtered_locked h]
  split
  next ho =>
    have hst : (slew (offsetNoted o s)).pos.tState ≠ .acquiring := by
      rw [hslew]
      exact fun hl => TimeState.noConfusion (h.symm.trans hl)
    obtain ⟨m, hm⟩ := setTime_pos none hst
    rw [hm, hslew]
    exact ⟨fun _ => rfl, fun hle => absurd ho (not_lt.mpr hle), rfl, hr⟩
  next ho =>
    rw [hslew]
    exact ⟨fun hlt => absurd hlt ho, fun _ => h, rfl, hr⟩

theorem offsetsHoldover (h : s.pos.tState = .holdover) : (2000 < |o| → (filtered o s).pos.tState = .acquiring) ∧
    (|o| ≤ 2000 → 3 ≤ s.pos.okRun → (filtered o s).pos.tState = .locked) ∧
    (|o| ≤ 2000 → s.pos.okRun < 3 → (filtered o s).pos.tState = .holdover ∧ (filtered o s).pos.okRun = s.pos.okRun + 1) := by
  have hst {new : TimeState} (hn : new ≠ .holdover) : (offsetNoted o s).pos.tState ≠ new := fun hl => hn (hl.symm.trans h)
  rw [filtered_holdover h]
  refine ⟨fun ho => ?_, fun ho hr => ?_, fun ho hr => ?_⟩
  · obtain ⟨m, hm⟩ := setTime_pos none (hst (new := .acquiring) (by decide))
    rw [if_pos (by simpa using ho), hm]
    rfl
  · obtain ⟨m, hm⟩ := setTime_pos none (hst (new := .locked) (by decide))
    rw [if_neg (by simpa using ho), if_pos (by omega), hm]
    rfl
  · rw [if_neg (by simpa using ho), if_neg (by omega)]
    exact ⟨h, rfl⟩

end

/-! ## The choice of a master (R340, R343) -/

/-- The foreign masters known once an Announce of `m` has been heard. -/
def foreignHeard (m : PtpMaster) (l : List (PtpMaster × Nat)) : List (PtpMaster × Nat) :=
  (m, ((l.find? fun x => x.1.port == m.port).map (·.2)).getD 0 + 1) :: l.filter fun x => x.1.port != m.port

/-- The state in which `best` is the selected master after an Announce of `m`. -/
def announced (m : PtpMaster) (log : Int) (best : Option PtpMaster) (s : State) : State :=
  let same := best.map (·.port) == s.pos.master.map (·.port)
  let heard := best.map (·.port) == some m.port
  { s with pos := { s.pos with
    foreign := foreignHeard m s.pos.foreign, master := best
    annAt := if heard then s.pos.mono else s.pos.annAt, annNs := if heard then logNs log else s.pos.annNs
    syncAt := if same then s.pos.syncAt else s.pos.mono, syncNs := if same then s.pos.syncNs else logNs 1
    xchg := if same then s.pos.xchg else [], syncT1 := if same then s.pos.syncT1 else none, delayT3 := if same then s.pos.delayT3 else none } }

theorem foreignHeard_nil (m : PtpMaster) : foreignHeard m [] = [(m, 1)] := rfl

theorem foreignHeard_again (m : PtpMaster) (n : Nat) : foreignHeard m [(m, n)] = [(m, n + 1)] := by simp [foreignHeard]

/-- One foreign master is selected at its second Announce (log 24). -/
theorem selectMaster_one (m : PtpMaster) (n : Nat) : selectMaster [(m, n)] = if 2 ≤ n then some m else none := by
  unfold selectMaster
  split
  next h => rw [List.filter_cons_of_pos (by simpa using h)]; rfl
  next h => rw [List.filter_cons_of_neg (by simpa using h)]; rfl

section
variable {d : Byte} {m best : PtpMaster} {log : Int} {s : State} (he : s.pos.ptpEnable = true) (hd : d = s.pos.ptpDomain)
include he hd

theorem ptpAnnounceRx_selects (hb : selectMaster (foreignHeard m s.pos.foreign) = some best) (ht : s.pos.tState = .freeRun ∨ s.pos.tState = .expired) :
    exec (.ptpAnnounceRx d m.p1 m.cls m.acc m.var m.p2 m.gm m.steps ⟨s.pos.ptpUdp, m.port, log⟩) s =
      .next (setTime .acquiring none (announced m log (some best) s)) := by
  rw [← hb]
  exact congrArg Host.Outcome.next ((if_neg (by simp [hears, he, hd])).trans (if_pos ⟨Option.isSome_of_eq_some hb, ht⟩))

theorem ptpAnnounceRx_waits (hb : selectMaster (foreignHeard m s.pos.foreign) = none) :
    exec (.ptpAnnounceRx d m.p1 m.cls m.acc m.var m.p2 m.gm m.steps ⟨s.pos.ptpUdp, m.port, log⟩) s = .next (announced m log none s) := by
  rw [← hb]
  exact congrArg Host.Outcome.next ((if_neg (by simp [hears, he, hd])).trans (if_neg fun h => Option.isSome_iff_ne_none.mp h.1 hb))

/-- The only foreign master known becomes the selected one as it is heard again. -/
theorem ptpAnnounceRx_second {n : Nat} (hf : s.pos.foreign = [(m, n)]) (hn : 1 ≤ n) (ht : s.pos.tState = .freeRun ∨ s.pos.tState = .expired) :
    ∃ t, exec (.ptpAnnounceRx d m.p1 m.cls m.acc m.var m.p2 m.gm m.steps ⟨s.pos.ptpUdp, m.port, log⟩) s = .next t ∧ t.pos.master = some m ∧
      t.pos.foreign = [(m, n + 1)] ∧ t.pos.annAt = s.pos.mono ∧ t.pos.annNs = logNs log ∧ t.pos.tState = .acquiring ∧ t.pos.net = s.pos.net := by
  have hforeign : foreignHeard m s.pos.foreign = [(m, n + 1)] := (congrArg _ hf).trans (foreignHeard_again m n)
  have hselect : selectMaster (foreignHeard m s.pos.foreign) = some m := by rw [hforeign, selectMaster_one, if_pos (by omega)]
  have hst : (announced m log (some m) s).pos.tState ≠ .acquiring := fun h => by
    rcases ht with ht | ht <;> exact TimeState.noConfusion (ht.symm.trans h)
  obtain ⟨l, hl⟩ := setTime_pos none hst
  refine ⟨_, ptpAnnounceRx_selects he hd hselect ht, ?_⟩
  rw [hl]
  exact ⟨rfl, hforeign, if_pos (beq_self_eq_true _), if_pos (beq_self_eq_true _), rfl, rfl⟩

/-- The first Announce of a foreign master selects none. -/
theorem ptpAnnounceRx_first (hf : s.pos.foreign = []) :
    ∃ t, exec (.ptpAnnounceRx d m.p1 m.cls m.acc m.var m.p2 m.gm m.steps ⟨s.pos.ptpUdp, m.port, log⟩) s = .next t ∧ OnlyChanges [.pos] s t ∧
      t.pos.master = none ∧ t.pos.foreign = [(m, 1)] ∧ t.pos.tState = s.pos.tState := by
  have hforeign : foreignHeard m s.pos.foreign = [(m, 1)] := (congrArg _ hf).trans (foreignHeard_nil m)
  have hselect : selectMaster (foreignHeard m s.pos.foreign) = none := by rw [hforeign, selectMaster_one, if_neg (by decide)]
  exact ⟨_, ptpAnnounceRx_waits he hd hselect, onlyChanges_pos s _, rfl, hforeign, rfl⟩

end

theorem timeMessages : Claims.TimeMessages := by
  refine ⟨fun d b p s h => Bool.eq_false_iff.mpr (mt fromMaster_iff.mp h), fun d b p seq f log t1 t4 j s h => ⟨ptpSyncRx_other seq f t1 j (.inl h),
      congrArg _ (if_pos (by simp [h]))⟩, fun d b p seq f log t1 j s h => ptpSyncRx_other seq f t1 j (.inr h),
    fun d b p seq log t1 j s hm hlo hhi => ⟨ptpSyncRx_sync seq t1 j hm hlo hhi, fun t2 h => ptpSyncRx_followUp t1 j hm hlo hhi h⟩,
    fun seq j s h => congrArg _ (if_pos (by simpa using h)), fun seq j s he hm => congrArg _ (if_neg ?request),
    fun d b p log seq q2 t1 t2 t3 t4 s hm h1 h3 => ⟨ptpDelayRespRx_joins hm h1 h3 rfl, fun hl => ?eighth⟩,
    fun d p1 cls acc var p2 gm steps b port log s h => congrArg _ (if_pos ?other),
    fun d m n log s he hd hf hn _ ht => ptpAnnounceRx_second he hd hf hn ht, fun d m log s he hd hf _ => ptpAnnounceRx_first he hd hf⟩
  case request => simp [he, Option.isSome_iff_ne_none.mp hm]
  case eighth =>
    obtain ⟨x0, l, hx⟩ := List.exists_cons_of_ne_nil (List.append_ne_nil_of_right_ne_nil s.pos.xchg
      (List.cons_ne_nil (exchangeOf t1.toNat t2.toNat t3.toNat t4.toNat) []))
    obtain ⟨y, hy, hmem, hle⟩ := bestOf_least x0 l
    rw [← hx] at hy hmem hle
    exact ⟨y, hmem, hle, ptpDelayRespRx_filters hm h1 h3 rfl hl hy⟩
  case other => simp [hears_eq_false h]

/-! ## The loss of a master (R343, R345, R360) -/

/-- The state in which no master is selected and `left` are the foreign masters that remain. -/
def masterless (left : List (PtpMaster × Nat)) (s : State) : State :=
  { s with pos := { s.pos with master := none, foreign := left, xchg := [], syncT1 := none, delayT3 := none } }

theorem loseMaster_leaves (left : List (PtpMaster × Nat)) (s : State) : (loseMaster left s).pos.master = none ∧
    (loseMaster left s).pos.foreign = left ∧ (loseMaster left s).pos.net = s.pos.net ∧
    (loseMaster left s).pos.tState = (if s.pos.tState = .locked then .holdover else s.pos.tState) ∧
    (s.pos.tState = .locked → (loseMaster left s).pos.holdStart = some s.pos.mono) := by
  by_cases h : s.pos.tState = .locked
  · have hlose : loseMaster left s = setTime .holdover (some .ptpMasterLost) { masterless left s with
        pos := { (masterless left s).pos with rateAdj := meanRate (masterless left s).pos } } := if_pos h
    have hst : s.pos.tState ≠ .holdover := fun hl => TimeState.noConfusion (h.symm.trans hl)
    obtain ⟨l, hl⟩ := setTime_pos (s := { masterless left s with
      pos := { (masterless left s).pos with rateAdj := meanRate (masterless left s).pos } }) (some .ptpMasterLost) hst
    rw [hlose, hl, if_pos h]
    exact ⟨rfl, rfl, rfl, rfl, fun _ => rfl⟩
  · have hlose : loseMaster left s = stickRec .ptpMasterLost (masterless left s) := if_neg h
    rw [hlose, if_neg h]
    exact ⟨rfl, rfl, rfl, rfl, fun hl => absurd hl h⟩

theorem forgetMasters_leaves (s : State) : (forgetMasters s).pos.master = none ∧ (forgetMasters s).pos.foreign = [] ∧
    (forgetMasters s).pos.net = s.pos.net ∧
    (forgetMasters s).pos.tState = (if s.pos.master.isSome ∧ s.pos.tState = .locked then .holdover else s.pos.tState) := by
  unfold forgetMasters
  split
  next h =>
    obtain ⟨hm, hf, hn, ht, -⟩ := loseMaster_leaves [] s
    exact ⟨hm, hf, hn, ht.trans (by simp [h])⟩
  next h => exact ⟨by simpa using h, rfl, rfl, (if_neg fun hb => h hb.1).symm⟩

/-! ## Groups armed on a time that is no longer valid (R346) -/

section
variable {g cause : Nat} {s : State}

theorem abortGroup_ends : ((abortGroup g cause s).cg.group g).st ≠ .armed := by
  by_cases h : (s.cg.group g).st = .armed
  · have hg : g < s.cg.groups.length := by
      by_contra hl
      have hdefault : s.cg.group g = {} := List.getD_eq_default _ _ (Nat.le_of_not_lt hl)
      rw [hdefault] at h
      exact CgState.noConfusion h
    cases ho : (s.cg.group g).ownerCal with
    | false =>
      obtain ⟨f, hf, hx⟩ := abortGroup_host cause h ho
      have hgroup : (abortGroup g cause s).cg.group g = f (s.cg.group g) := (congrArg (Commit.group · g) hf).trans (cell_upd_same f {} hg)
      rw [hgroup, (hx _).1]
      decide
    | true =>
      have hcg : (abortGroup g cause s).cg = { s.cg with groups := upd s.cg.groups g (Group.released ∘ Group.abortedBy cause) } := by
        rw [abortGroup, abortGroupTo_cal false cause h ho]
        exact (dropResult_onlyChanges cause _ .cg (by decide)).symm.trans (abortCal_cg cause g s)
      have hgroup : (abortGroup g cause s).cg.group g = ((s.cg.group g).abortedBy cause).released :=
        (congrArg (Commit.group · g) hcg).trans (cell_upd_same (Group.released ∘ Group.abortedBy cause) {} hg)
      rw [hgroup]
      exact fun hst => CgState.noConfusion hst
  · rw [abortGroup, abortGroupTo_idle false cause h]
    exact h

theorem abortGroup_other {j : Nat} (h : j ≠ g) : (abortGroup g cause s).cg.group j = s.cg.group j := by
  obtain ⟨f, hf⟩ := abortGroupTo_cg false cause g s
  exact (congrArg (Commit.group · j) hf).trans (cell_upd_other f {} h)

theorem abortGroup_inForce : (abortGroup g cause s).cg.inForce = s.cg.inForce := by
  obtain ⟨f, hf⟩ := abortGroupTo_cg false cause g s
  exact (congrArg Commit.inForce hf :)

end

/-- One group as time ceases to be valid: armed on TIME and without a line, it aborts. -/
def timeAbort (s : State) (g : Nat) : State := if (s.cg.group g).trigger = 1 ∧ (s.cg.group g).line.isNone then abortGroup g 2 s else s

theorem abortTimeGroups_eq (s : State) : abortTimeGroups s = (List.range 4).foldl timeAbort s := rfl

theorem timeAbort_other {s : State} {g j : Nat} (h : j ≠ g) : (timeAbort s g).cg.group j = s.cg.group j := by
  unfold timeAbort
  split
  · exact abortGroup_other h
  · rfl

theorem timeAbort_keepsEnded {s : State} {g : Nat} (j : Nat) (h : (s.cg.group g).st ≠ .armed) : ((timeAbort s j).cg.group g).st ≠ .armed := by
  rcases eq_or_ne g j with rfl | hj
  · unfold timeAbort
    split
    · exact abortGroup_ends
    · exact h
  · rw [timeAbort_other hj]
    exact h

theorem timeAborts_end {g : Nat} {l : List Nat} (hg : g ∈ l) {s : State} (ht : (s.cg.group g).trigger = 1) (hl : (s.cg.group g).line = none) :
    ((l.foldl timeAbort s).cg.group g).st ≠ .armed := by
  induction l generalizing s with
  | nil => exact absurd hg List.not_mem_nil
  | cons j l ih =>
    rcases eq_or_ne g j with rfl | hj
    · have hends : ((timeAbort s g).cg.group g).st ≠ .armed := by
        unfold timeAbort
        rw [if_pos ⟨ht, by simp [hl]⟩]
        exact abortGroup_ends
      exact List.foldlRecOn (motive := fun t : State => (t.cg.group g).st ≠ .armed) l timeAbort hends fun t h i _ => timeAbort_keepsEnded i h
    · exact ih ((List.mem_cons.mp hg).resolve_left hj) (by rw [timeAbort_other hj, ht]) (by rw [timeAbort_other hj, hl])

theorem abortTimeGroups_inForce (s : State) : (abortTimeGroups s).cg.inForce = s.cg.inForce := by
  rw [abortTimeGroups_eq]
  refine List.foldlRecOn (motive := fun t : State => t.cg.inForce = s.cg.inForce) _ _ rfl fun t h g _ => ?_
  unfold timeAbort
  split
  · exact abortGroup_inForce.trans h
  · exact h

/-- HOLDOVER that has gone on too long: EXPIRED, and with TIME_VALID the groups armed on it go (R345, R346). -/
theorem holdoverExpired_ends {s : State} (h : s.pos.tState = .holdover) (he : 1000 * s.pos.holdLimit < s.pos.errNow) :
    ∃ t, exec .holdoverExpired s = .next t ∧ t.pos.tState = .expired ∧
      (∀ g, g < 4 → (s.cg.group g).trigger = 1 → (s.cg.group g).line = none → (t.cg.group g).st ≠ .armed) ∧ t.cg.inForce = s.cg.inForce := by
  have hst : s.pos.tState ≠ .expired := fun hl => TimeState.noConfusion (h.symm.trans hl)
  obtain ⟨l, hl⟩ := setTime_pos (some .holdoverExpired) hst
  refine ⟨_, congrArg Host.Outcome.next (if_pos ⟨h, he⟩), by rw [hl]; rfl, ?_⟩
  obtain ⟨u, hu, hcg⟩ : ∃ u, setTime .expired (some .holdoverExpired) s = abortTimeGroups u ∧ u.cg = s.cg := by
    refine ⟨_, (if_neg hst).trans (if_pos ?_), rfl⟩
    rw [h]
    rfl
  rw [hu]
  exact ⟨fun g hg ht hline => timeAborts_end (List.mem_range.mpr hg) (by rw [hcg, ht]) (by rw [hcg, hline]),
    (abortTimeGroups_inForce u).trans (by rw [hcg])⟩

/-! ## TIME_CONFIG and TIME_SET (R344, R360) -/

section
variable {k : Fin 16} {c : RungCmd} {s : State}

/-- The state in which a TIME_CONFIG has set the network time up. -/
def timeConfigured (c : RungCmd) (s : State) : State := { s with pos := { s.pos with
  ptpEnable := flag (c.w 0) 0, ptpUdp := flag (c.w 0) 1, ptpDomain := BitVec.ofNat 8 (fld (c.w 0) 8 8), holdPpb := (c.w 1).toNat
  holdLimit := (c.w 2).toNat, ipv4 := c.w 3, ipv4Mask := c.w 4 } }

theorem timeConfig_answers (h : Rung 0x0907 5 k c s) (hw : c.w 0 &&& ~~~ 0xFF03 = 0) (hp1 : 1 ≤ (c.w 1).toNat) (hp2 : (c.w 1).toNat ≤ 100000)
    (hl1 : 1 ≤ (c.w 2).toNat) (hl2 : (c.w 2).toNat ≤ 1000) (hb : s.host.opState ≠ .boot) {u : State} (hu : u = timeConfigured c (begun k s)) :
    execTimeConfig k s = .next (respond k ok (if !flag (c.w 0) 0 then setTime .freeRun none (masterless [] u)
      else if s.pos.ptpUdp == u.pos.ptpUdp && s.pos.ptpDomain == u.pos.ptpDomain then u else forgetMasters u)) := by
  subst hu
  refine congrArg Host.Outcome.next (command_done h ?_ rfl)
  simp only [passes_cons, passes_nil, and_true]
  exact ⟨reservedW_passes hw, decide_eq_false (not_or.mpr ⟨Nat.not_lt.mpr hp1, Nat.not_lt.mpr hp2⟩),
    decide_eq_false (not_or.mpr ⟨Nat.not_lt.mpr hl1, Nat.not_lt.mpr hl2⟩), notBoot_passes hb⟩

theorem setTime_freeRun (s : State) : ∃ l n h, (setTime .freeRun none s).pos = { s.pos with tState := .freeRun, cmps := l, okRun := n, holdStart := h } := by
  by_cases h : s.pos.tState = .freeRun
  · refine ⟨s.pos.cmps, s.pos.okRun, s.pos.holdStart, (setTime_same none h).trans ?_⟩
    rw [← h]
  · obtain ⟨l, hl⟩ := setTime_pos none h
    exact ⟨l, _, _, hl⟩

theorem timeSet_answers (h : Rung 0x0908 2 k c s) (ht : s.pos.tState = .freeRun ∨ s.pos.tState = .expired) {u : State}
    (hu : u = stepNet ((wn64 c.payload 0 : Int) - (begun k s).pos.netNow) (begun k s)) :
    execTimeSet k s = .next (respond k ok { u with pos := { u.pos with net := BitVec.ofNat 96 (wn64 c.payload 0 * 2 ^ 32) } }) := by
  unfold execTimeSet
  rw [command_run h]
  dsimp only [done]
  · rw [← hu]
  · simp only [passes_cons, passes_nil, and_true]
    rcases ht with e | e <;> rw [e] <;> rfl

/-- The value is a variable: the kernel would evaluate the product that TIME_SET writes. -/
theorem stepNet_then_setNet (delta : Int) (n : BitVec 96) {u v : State} (hu : u = stepNet delta s) (hv : v = { u with pos := { u.pos with net := n } }) :
    v.pos.net = n ∧ v.pos.stepGen = s.pos.stepGen + 1 ∧ v.pos.mono = s.pos.mono ∧ OnlyChanges [.host, .pers, .out, .pos] s v := by
  obtain ⟨l, hl⟩ := stepNet_pos delta s
  have hframe := stepNet_onlyChanges delta s
  rw [← hu] at hl hframe
  subst hv
  refine ⟨rfl, ?_, ?_, hframe.trans ((onlyChanges_pos u _).mono (by decide))⟩
  · change u.pos.stepGen = _
    rw [hl]
  · change u.pos.mono = _
    rw [hl]

theorem timeSet_sets_net (h : Rung 0x0908 2 k c s) (ht : s.pos.tState = .freeRun ∨ s.pos.tState = .expired) :
    ∃ t, execTimeSet k s = .next (respond k ok t) ∧ t.pos.net = BitVec.ofNat 96 (wn64 c.payload 0 * 2 ^ 32) ∧
      t.pos.stepGen = s.pos.stepGen + 1 ∧ t.pos.mono = s.pos.mono ∧ OnlyChanges [.host, .pers, .out, .pos] (begun k s) t := by
  obtain ⟨v, hv⟩ : ∃ v, v = { stepNet ((wn64 c.payload 0 : Int) - (begun k s).pos.netNow) (begun k s) with
    pos := { (stepNet ((wn64 c.payload 0 : Int) - (begun k s).pos.netNow) (begun k s)).pos with net := BitVec.ofNat 96 (wn64 c.payload 0 * 2 ^ 32) } } := ⟨_, rfl⟩
  refine ⟨v, hv ▸ timeSet_answers h ht rfl, ?_⟩
  exact stepNet_then_setNet _ _ rfl hv

end

theorem timeStates : Claims.TimeStates := by
  refine ⟨fun o s => offsetsAcquiring, fun o s => offsetsFar, fun o s => offsetsLocked, fun o s => offsetsHoldover, fun s h => ?noLoss,
    fun m s hm h => ?lost, fun s h => congrArg _ (if_neg ?stays), fun s => holdoverExpired_ends, fun delta s => ?step, forgetMasters_leaves,
    fun k c s h hw hp1 hp2 hl1 hl2 hb => ⟨fun hon u hu => ?on, fun hoff => ?off⟩, fun k c s h ht => ?set⟩
  case noLoss =>
    change Host.Outcome.next _ = _
    rcases h with h | ⟨ha, hs⟩
    · rw [h]
    · have hgone : masterGone s = false := by simp [masterGone, ha, hs]
      split
      · rfl
      · rw [if_pos (by simp [hgone])]
  case lost =>
    have hgone : masterGone s = true := by
      unfold masterGone
      rcases h with h | h <;> simp [h]
    have hlost : exec .ptpMasterLost s = .next (loseMaster (s.pos.foreign.filter fun x => x.1.port != m.port) s) := by
      change Host.Outcome.next _ = _
      rw [hm]
      exact congrArg _ (if_neg (by simp [hgone]))
    obtain ⟨hmaster, -, hnet, hst, hstart⟩ := loseMaster_leaves (s.pos.foreign.filter fun x => x.1.port != m.port) s
    exact ⟨_, hlost, hmaster, hnet, hst, hstart⟩
  case stays =>
    rintro ⟨hst, he⟩
    exact h.elim (fun hn => hn hst) fun hle => Nat.not_lt.mpr hle he
  case step =>
    obtain ⟨l, hl⟩ := stepNet_pos delta s
    rw [hl]
    exact ⟨rfl, rfl, rfl, stepNet_onlyChanges delta s⟩
  case on =>
    have hu' : u = timeConfigured c (begun k s) := by rw [hu, timeConfigured, hon]; rfl
    have hanswer := timeConfig_answers h hw hp1 hp2 hl1 hl2 hb hu'
    rw [if_neg (by simp [hon])] at hanswer
    refine ⟨fun hudp hdom => hanswer.trans (by rw [hudp, hdom, if_pos (by simp)]), fun hne => hanswer.trans ?_⟩
    rw [if_neg]
    intro hsame
    obtain ⟨hudp, hdom⟩ := Bool.and_eq_true_iff.mp hsame
    exact hne.elim (fun hn => hn (eq_of_beq hudp).symm) fun hn => hn (eq_of_beq hdom).symm
  case off =>
    have hanswer := timeConfig_answers h hw hp1 hp2 hl1 hl2 hb rfl
    rw [if_pos (by simp [hoff])] at hanswer
    obtain ⟨l, n, hs, hl⟩ := setTime_freeRun (masterless [] (timeConfigured c (begun k s)))
    refine ⟨_, hanswer, ?_⟩
    rw [hl]
    exact ⟨hoff, rfl, rfl, rfl, rfl⟩
  case set => exact timeSet_sets_net h ht

/-- Settles O46: a message by whether the selected master sent it, an offset by the state it finds, a command by its checks and its effect. -/
theorem networkTime : Obligations.NetworkTime := ⟨timeMessages, timeStates⟩

end Sys2Proof.Machine
end

section
/-!
PROOFS. The actions of comparators and timers, and the comparators (R332 to R339, R358).
-/
namespace Sys2Proof.Machine

/-! ## Actions (R338, R339) -/

theorem strobe_onlyChanges (k : Nat) (light : Int) (s : State) : OnlyChanges [.host, .pers, .lamp, .out] s (strobe k light s) := by
  have hchain : ∀ (f : Chain → Chain) (t : State), OnlyChanges [.host, .pers, .lamp, .out] t (setChain k f t) :=
    fun f t => (setChain_onlyChanges k f t).mono (by decide)
  have hemit : ∀ (o : Output) (t : State), OnlyChanges [.host, .pers, .lamp, .out] t (emit o t) := fun o t => (emit_onlyChanges o t).mono (by decide)
  have hrec : ∀ (l : Log) (t : State), OnlyChanges [.host, .pers, .lamp, .out] t (t.withLog l) := fun l t => (withLog_onlyChanges l t).mono (by decide)
  unfold strobe
  dsimp only
  split
  · exact .refl _ s
  · split
    · exact (hchain _ s).trans (hrec _ _)
    · split
      · exact (hchain _ s).trans (hrec _ _)
      · split
        · exact ((hchain _ s).trans (hchain _ _)).trans (hemit _ _)
        · exact (hchain _ s).trans (hemit _ _)

theorem emitPulse_onlyChanges (name : String) (width start : Nat) (s : State) : OnlyChanges [.out] s (emitPulse name width start s) := by
  unfold emitPulse
  split
  · intro p hp
    cases p <;> simp_all [State.agree]
  · exact emit_onlyChanges _ s

section
variable (source n : Nat) (p : BitVec 50) (s : State)

theorem capture_room (h : s.pos.fifo.length < 32) : ∃ r, capture source n p s = { s with pos := { s.pos with
    fifo := s.pos.fifo ++ [r], capSeq := s.pos.capSeq + 1 } } ∧ r.length = 8 :=
  ⟨_, if_neg (Nat.not_le.mpr h), rfl⟩

theorem capture_full (h : 32 ≤ s.pos.fifo.length) : capture source n p s = stickRec .captureLost s := if_pos h

theorem capture_onlyChanges : OnlyChanges [.host, .pers, .pos, .out] s (capture source n p s) := by
  rcases Nat.lt_or_ge s.pos.fifo.length 32 with h | h
  · obtain ⟨r, e, -⟩ := capture_room source n p s h
    exact e ▸ (onlyChanges_pos s _).mono (by decide)
  · exact capture_full source n p s h ▸ (withLog_onlyChanges _ s).mono (by decide)

theorem capture_pos : ∃ l q, (capture source n p s).pos = { s.pos with fifo := l, capSeq := q } := by
  rcases Nat.lt_or_ge s.pos.fifo.length 32 with h | h
  · obtain ⟨r, e, -⟩ := capture_room source n p s h
    exact ⟨_, _, (congrArg State.pos e :)⟩
  · exact ⟨s.pos.fifo, s.pos.capSeq, (congrArg State.pos (capture_full source n p s h) :)⟩

variable (action pin width : Nat) (clocks : Nat)

theorem doAction_onlyChanges : OnlyChanges [.host, .pers, .lamp, .pos, .out] s (doAction action pin width source clocks p s) := by
  unfold doAction
  split
  · exact (emitPulse_onlyChanges _ _ _ s).mono (by decide)
  · exact (strobe_onlyChanges _ _ s).mono (by decide)
  · exact (capture_onlyChanges source clocks p s).mono (by decide)
  · exact .refl _ s

/-- Of the position unit an action changes its capture records only. -/
theorem doAction_pos : ∃ l q, (doAction action pin width source clocks p s).pos = { s.pos with fifo := l, capSeq := q } := by
  unfold doAction
  split
  · exact ⟨s.pos.fifo, s.pos.capSeq, (emitPulse_onlyChanges _ _ _ s .pos (by decide)).symm⟩
  · exact ⟨s.pos.fifo, s.pos.capSeq, (strobe_onlyChanges _ _ s .pos (by decide)).symm⟩
  · exact capture_pos source clocks p s
  · exact ⟨s.pos.fifo, s.pos.capSeq, rfl⟩

end

/-! ## The late test (R334) -/

/-- A comparator that the late test finds late. -/
def Cmp.foundLate (c : Cmp) : Cmp := if c.late then { c with now := true } else { c with st := .late }

theorem Cmp.foundLate_total (c : Cmp) : c.foundLate.total = c.total := by
  unfold foundLate
  split <;> rfl

theorem Cmp.foundLate_target (c : Cmp) : c.foundLate.target = c.target := by
  unfold foundLate
  split <;> rfl

section
variable {n : Nat} {s : State}

theorem lateTest_ahead (h : (s.cmp n).isLate s.pos = false) : lateTest n s = s := if_pos (by rw [h]; rfl)

theorem lateTest_late (h : (s.cmp n).isLate s.pos = true) : ∃ e, lateTest n s = stickEvent .compareLate e (setCmp n Cmp.foundLate s) :=
  ⟨_, if_neg (by rw [h]; exact Bool.false_ne_true)⟩

theorem lateTest_onlyChanges (n : Nat) (s : State) : OnlyChanges [.host, .pers, .out, .pos] s (lateTest n s) := by
  cases h : (s.cmp n).isLate s.pos with
  | false => exact (lateTest_ahead h).symm ▸ .refl _ s
  | true =>
    obtain ⟨e, he⟩ := lateTest_late h
    exact he ▸ ((onlyChanges_pos s _).mono (by decide)).trans ((withLog_onlyChanges _ _).mono (by decide))

/-- The late test leaves a comparator's target and its firings, the other comparators and the position. -/
theorem lateTest_keeps (hn : n < s.pos.cmps.length) : (lateTest n s).pos.acc = s.pos.acc ∧ ((lateTest n s).cmp n).total = (s.cmp n).total ∧
    ((lateTest n s).cmp n).target = (s.cmp n).target ∧ ∀ j, j ≠ n → (lateTest n s).cmp j = s.cmp j := by
  cases h : (s.cmp n).isLate s.pos with
  | false =>
    rw [lateTest_ahead h]
    exact ⟨rfl, rfl, rfl, fun _ _ => rfl⟩
  | true =>
    obtain ⟨e, he⟩ := lateTest_late h
    have hsame : (lateTest n s).cmp n = (s.cmp n).foundLate := by
      rw [he]
      exact cmp_setCmp_same _ hn
    rw [hsame, he]
    exact ⟨rfl, Cmp.foundLate_total _, Cmp.foundLate_target _, fun j hj => cmp_setCmp_other _ hj⟩

end

/-! ## Firing (R333, R335 to R338) -/

/-- A comparator has targets to come after this firing (R335). -/
def Cmp.goesOn (c : Cmp) : Bool := (c.dir == 2 || c.period != 0) && (c.cnt == 0 || decide (c.total + 1 < c.cnt))

/-- A comparator that has fired, before the late test of its next target. -/
def Cmp.hasFired (p : Pos) (c : Cmp) : Cmp := { c with
  now := false, total := c.total + 1, firings := if c.firings = 0xFFFF then c.firings else c.firings + 1
  pre := if c.dir = 2 then some (decide (0 < p.posHist.headD 0)) else none, firedAt := some p.mono
  st := if c.goesOn then .armed else .fired
  target := if c.goesOn then (if c.dir = 1 then c.target - BitVec.ofNat 50 c.period else c.target + BitVec.ofNat 50 c.period) else c.target }

/-- The state in which a firing comparator has acted. -/
def cmpActed (n : Nat) (s : State) : State :=
  let c := s.cmp n
  let s1 := doAction c.action c.pin c.width n (c.clocks s.pos) (if c.now then BitVec.ofNat 50 s.pos.raw else c.target) s
  if c.event then event { ev := .compareFired, p0 := w32 n, p1 := if c.now then s.line else w32 (c.target.toNat / 2 ^ 18) } s1 else s1

section
variable {n : Nat} {s : State}

theorem cmpFire_last (h : (s.cmp n).goesOn = false) : cmpFire n s = setCmp n (fun _ => (s.cmp n).hasFired s.pos) (cmpActed n s) :=
  if_neg (ne_true_of_eq_false h)

theorem cmpFire_goesOn (h : (s.cmp n).goesOn = true) :
    cmpFire n s = lateTest n (setCmp n (fun _ => (s.cmp n).hasFired s.pos) (cmpActed n s)) :=
  if_pos h

theorem cmpActed_onlyChanges (n : Nat) (s : State) : OnlyChanges [.host, .pers, .lamp, .pos, .out] s (cmpActed n s) := by
  unfold cmpActed
  dsimp only
  split
  · exact (doAction_onlyChanges _ _ s _ _ _ _).trans ((withLog_onlyChanges _ _).mono (by decide))
  · exact doAction_onlyChanges _ _ s _ _ _ _

theorem cmpActed_pos (n : Nat) (s : State) : ∃ l q, (cmpActed n s).pos = { s.pos with fifo := l, capSeq := q } := by
  unfold cmpActed
  dsimp only
  split <;> exact doAction_pos ..

theorem cmpActed_cmps (n : Nat) (s : State) : (cmpActed n s).pos.cmps = s.pos.cmps := by
  obtain ⟨l, q, hpos⟩ := cmpActed_pos n s
  exact (congrArg Pos.cmps hpos :)

theorem cmpActed_quiet (ha : (s.cmp n).action = 0) (he : (s.cmp n).event = false) : cmpActed n s = s := by
  unfold cmpActed
  dsimp only
  rw [he, ha]
  rfl

theorem cmpFire_onlyChanges (n : Nat) (s : State) : OnlyChanges [.host, .pers, .lamp, .pos, .out] s (cmpFire n s) := by
  have hset := (cmpActed_onlyChanges n s).trans
    ((onlyChanges_pos (cmpActed n s) { (cmpActed n s).pos with cmps := upd (cmpActed n s).pos.cmps n fun _ => (s.cmp n).hasFired s.pos }).mono (by decide))
  cases h : (s.cmp n).goesOn with
  | false => exact cmpFire_last h ▸ hset
  | true => exact cmpFire_goesOn h ▸ hset.trans ((lateTest_onlyChanges n _).mono (by decide))

/-- A firing counts, moves the target of a comparator that goes on, and leaves the position and the other comparators. -/
theorem cmpFire_leaves (hn : n < s.pos.cmps.length) : (cmpFire n s).pos.acc = s.pos.acc ∧
    ((cmpFire n s).cmp n).total = (s.cmp n).total + 1 ∧ ((cmpFire n s).cmp n).target = ((s.cmp n).hasFired s.pos).target ∧
    ∀ j, j ≠ n → (cmpFire n s).cmp j = s.cmp j := by
  obtain ⟨l, q, hpos⟩ := cmpActed_pos n s
  have hcmps := cmpActed_cmps n s
  have hacc : (cmpActed n s).pos.acc = s.pos.acc := (congrArg Pos.acc hpos :)
  obtain ⟨t, ht⟩ : ∃ t, t = setCmp n (fun _ => (s.cmp n).hasFired s.pos) (cmpActed n s) := ⟨_, rfl⟩
  have hsame : t.cmp n = (s.cmp n).hasFired s.pos := by
    rw [ht]
    exact cmp_setCmp_same _ (hcmps.symm ▸ hn)
  have hother : ∀ j, j ≠ n → t.cmp j = s.cmp j := fun j hj => by
    rw [ht, cmp_setCmp_other _ hj]
    exact congrArg (fun l => cell l j {}) hcmps
  have htacc : t.pos.acc = s.pos.acc := ht ▸ hacc
  cases h : (s.cmp n).goesOn with
  | false =>
    rw [cmpFire_last h, ← ht, hsame]
    exact ⟨htacc, rfl, rfl, hother⟩
  | true =>
    have hlen : n < t.pos.cmps.length := by
      rw [ht]
      exact (length_upd _ _ _).symm ▸ hcmps.symm ▸ hn
    obtain ⟨hkacc, hktotal, hktarget, hkother⟩ := lateTest_keeps hlen
    rw [cmpFire_goesOn h, ← ht, hktotal, hktarget, hsame]
    exact ⟨hkacc.trans htacc, rfl, rfl, fun j hj => (hkother j hj).trans (hother j hj)⟩

/-- The last firing leaves a comparator FIRED at its target. -/
theorem cmpFire_fired (hn : n < s.pos.cmps.length) (h : (s.cmp n).goesOn = false) :
    ((cmpFire n s).cmp n).st = .fired ∧ ((cmpFire n s).cmp n).target = (s.cmp n).target := by
  have hlen : n < (cmpActed n s).pos.cmps.length := (cmpActed_cmps n s).symm ▸ hn
  rw [cmpFire_last h, cmp_setCmp_same _ hlen]
  exact ⟨if_neg (ne_true_of_eq_false h), if_neg (ne_true_of_eq_false h)⟩

end

theorem Cmp.goesOn_last {c : Cmp} (h : (c.dir ≠ 2 ∧ c.period = 0) ∨ (c.cnt ≠ 0 ∧ c.cnt ≤ c.total + 1)) : c.goesOn = false := by
  unfold goesOn
  rcases h with ⟨hd, hp⟩ | ⟨h0, ht⟩
  · simp [hd, hp]
  · simp [h0, ht]

theorem Cmp.goesOn_period {c : Cmp} (hp : c.period ≠ 0) (hc : c.cnt = 0) : c.goesOn = true := by
  simp [goesOn, hp, hc]

section
variable {n : Nat} {s : State}

theorem fireOne_idle (h : n < 8 ∨ (s.cmp n).fires s.pos = false) : fireOne n s = s :=
  if_pos (h.imp_right fun h => by rw [h]; rfl)

theorem fireOne_camera (h8 : 8 ≤ n) (h12 : n < 12) (h : (s.cmp n).fires s.pos = true) :
    fireOne n s = camFire (n - 8) ((s.cmp n).clocks s.pos) (setCmp n (fun c => { c with now := false }) s) :=
  (if_neg (by simp [h, h8])).trans (if_pos h12)

theorem fireOne_yours (h12 : 12 ≤ n) (h : (s.cmp n).fires s.pos = true) : fireOne n s = cmpFire n s :=
  (if_neg (by simp [h]; omega)).trans (if_neg (Nat.not_lt.mpr h12))

end

section
variable {n : Fin 24} {x : Samples} {s u : State} (hu : u = mainUpdate (advance x s))
include hu

theorem comparatorFire_waits (h : lowerDue n u = true) : exec (.comparatorFire n x) s = .next u := by
  subst hu
  exact congrArg Host.Outcome.next (if_pos h)

theorem comparatorFire_first (h : lowerDue n u = false) : exec (.comparatorFire n x) s = .next (fireOne n u) := by
  subst hu
  exact congrArg Host.Outcome.next (if_neg (ne_true_of_eq_false h))

theorem comparatorFire_idle (h : n.val < 8 ∨ (u.cmp n).fires u.pos = false) : exec (.comparatorFire n x) s = .next u := by
  cases hl : lowerDue n u with
  | true => exact comparatorFire_waits hu hl
  | false => exact (comparatorFire_first hu hl).trans (congrArg _ (fireOne_idle h))

end

/-! ## The comparator commands (R337, R355, R358) -/

section
variable {k : Fin 16} {c : RungCmd} {s : State} {n : Nat}

theorem readyPrintService_passes {st : OpState} (h : st = .ready ∨ st = .print ∨ st = .service) : (!(st == .ready || st == .print || st == .service)) = false := by
  rcases h with rfl | rfl | rfl <;> rfl

theorem upd_eq_upd {α : Type} {l : List α} {i : Nat} {f g : α → α} (d : α) (hi : i < l.length) (h : f (cell l i d) = g (cell l i d)) :
    upd l i f = upd l i g := by
  have hcell : cell l i d = l[i] := by simp [cell, hi]
  rw [hcell] at h
  refine List.ext_getElem (by simp) fun j hj _ => ?_
  simp only [upd, List.getElem_modify]
  split
  next e =>
    subst e
    exact h
  next => rfl

theorem setCmp_eq_setCmp {f g : Cmp → Cmp} (hn : n < s.pos.cmps.length) (h : f (s.cmp n) = g (s.cmp n)) : setCmp n f s = setCmp n g s :=
  congrArg (fun l : List Cmp => { s with pos := { s.pos with cmps := l } }) (upd_eq_upd {} hn h)

theorem posCmpArm_answers (h : Rung 0x0903 6 k c s) (hn : n = fld (c.w 0) 0 5) (hlo : 12 ≤ n) (hhi : n ≤ 23) (hdir : fld (c.w 0) 5 2 ≤ 2)
    (hw : c.w 0 &&& ~~~ 0x3FFF = 0) (hepoch : c.w 1 = s.cg.epochNow) (hw3 : c.w 3 &&& ~~~ 0x3FFFF = 0) (heither : fld (c.w 0) 5 2 = 2 → c.w 4 = 0)
    (hpulse : fld (c.w 0) 8 2 = 1 → fld (c.w 5) 16 16 ≠ 0) (hst : s.host.opState = .ready ∨ s.host.opState = .print ∨ s.host.opState = .service)
    (hidle : (s.cmp n).fires s.pos = false) {p : Cmp}
    (hp : p = { st := .armed, dir := fld (c.w 0) 5 2, late := flag (c.w 0) 7, action := fld (c.w 0) 8 2, pin := fld (c.w 0) 10 2, event := flag (c.w 0) 12
                epochBound := flag (c.w 0) 13, epoch := c.w 1, target := BitVec.ofNat 50 (wn64 c.payload 2), period := (c.w 4).toNat
                cnt := fld (c.w 5) 0 16, width := fld (c.w 5) 16 16 })
    {t : State} (ht : t = lateTest n (setCmp n (fun _ => p) (begun k s))) :
    execPosCmpArm k s = .next (respond k (if (t.cmp n).st = .late then late else okWith [w32 (b2n (t.cmp n).now)]) t) := by
  unfold execPosCmpArm
  rw [command_run h]
  · have hquiet : fireOne (fld (wd c.payload 0) 0 5) (begun k s) = begun k s := fireOne_idle (.inr (hn ▸ hidle))
    dsimp only [done]
    rw [hquiet, ht, hp, hn]
    rfl
  · simp only [passes_cons, passes_nil, and_true]
    refine ⟨decide_eq_false ?_, reservedW_passes hw, decide_eq_false ?_, reservedW_passes hw3, ?_, ?_, readyPrintService_passes hst, decide_eq_false ?_⟩
    · change ¬ (fld (c.w 0) 0 5 < 12 ∨ fld (c.w 0) 0 5 > 23 ∨ fld (c.w 0) 5 2 = 3)
      omega
    · exact hepoch ▸ BitVec.lt_irrefl (c.w 1)
    · exact Bool.and_eq_false_imp.mpr fun hd => bne_eq_false_iff_eq.mpr (heither (eq_of_beq hd))
    · exact Bool.and_eq_false_imp.mpr fun hp => beq_eq_false_iff_ne.mpr (hpulse (eq_of_beq hp))
    · exact hepoch ▸ BitVec.lt_irrefl (c.w 1)

theorem posCmpDisarm_answers (h : Rung 0x0904 1 k c s) (hn : (c.w 0).toNat = n) (hlo : 12 ≤ n) (hhi : n ≤ 23) (hb : s.host.opState ≠ .boot)
    (hidle : (s.cmp n).fires s.pos = false) {t : State} (ht : t = setCmp n (fun x => if x.st = .armed then
      { x with st := if firedNow n s then .fired else .idle, now := false } else x) (begun k s)) :
    execPosCmpDisarm k s = .next (respond k (okWith [w32 (t.cmp n).st.code]) t) := by
  have hfld : fld (wd c.payload 0) 0 5 = n := (fld_of_lt (w := c.w 0) (n := 5) (by omega)).trans hn
  unfold execPosCmpDisarm
  rw [command_run h]
  · have hquiet : fireOne (fld (wd c.payload 0) 0 5) (begun k s) = begun k s := fireOne_idle (.inr (hfld.symm ▸ hidle))
    dsimp only [done]
    rw [hquiet, ht, hfld]
    rfl
  · simp only [passes_cons, passes_nil, and_true]
    refine ⟨decide_eq_false ?_, reservedW_passes (reserved_clear (w := c.w 0) (n := 5) (by omega)), notBoot_passes hb⟩
    rw [hfld]
    omega

/-- An armed comparator ends IDLE, or FIRED where it has fired in this sample. -/
theorem posCmpDisarm_armed (h : Rung 0x0904 1 k c s) (hn : (c.w 0).toNat = n) (hlo : 12 ≤ n) (hhi : n ≤ 23) (hb : s.host.opState ≠ .boot)
    (hidle : (s.cmp n).fires s.pos = false) (hlen : s.pos.cmps.length = 24) (ha : (s.cmp n).st = .armed) {st : CmpState}
    (hst : (if firedNow n s then CmpState.fired else .idle) = st) : execPosCmpDisarm k s =
      .next (respond k (okWith [w32 st.code]) (setCmp n (fun x => { x with st := st, now := false }) (begun k s))) := by
  have hlt : n < (begun k s).pos.cmps.length := hlen.symm ▸ Nat.lt_succ_of_le hhi
  have ha' : ((begun k s).cmp n).st = .armed := ha
  refine (posCmpDisarm_answers h hn hlo hhi hb hidle (setCmp_eq_setCmp (g := fun x => { x with st := st, now := false }) hlt ?_).symm).trans ?_
  · rw [if_pos ha', hst]
  · rw [cmp_setCmp_same _ hlt]

theorem Cmp.fires_armed {x : Cmp} {p : Pos} (h : x.st ≠ .armed) : x.fires p = false := by
  simp [fires, h]

theorem posCaptureRead_answers (h : Rung 0x0905 0 k c s) (hb : s.host.opState ≠ .boot) : execPosCaptureRead k s = .next (respond k
    (okWith (w32 (s.pos.fifo.take 7).length :: (s.pos.fifo.take 7).flatten)) { begun k s with pos := { s.pos with fifo := s.pos.fifo.drop 7 } }) := by
  refine congrArg Host.Outcome.next (command_done h ?_ rfl)
  simp only [passes_cons, passes_nil, notBoot_passes hb, and_self]

end

theorem comparators : Claims.Comparators := by
  refine ⟨fun n x s u => comparatorFire_idle, fun n x s u => comparatorFire_waits, fun n x s u hu h8 h12 hf hl => ?camera,
    fun n x s u hu h12 hf hl hlen => ?yours, capture_room, capture_full,
    fun k c s n h hn hlo hhi hdir hw hepoch hw3 heither hpulse hlen hst hidle p hp => ?arm,
    fun k c s n h hn hlo hhi hb hlen => ⟨fun ha hidle hnow => ?disarm, fun ha hidle hnow => ?disarmFired, fun ha => ?disarmNot⟩,
    fun k c s => posCaptureRead_answers⟩
  case camera => rw [comparatorFire_first hu hl, fireOne_camera h8 h12 hf]
  case yours =>
    have hn : n.val < u.pos.cmps.length := hlen.symm ▸ n.isLt
    obtain ⟨hacc, htotal, htarget, hother⟩ := cmpFire_leaves hn
    refine ⟨_, (comparatorFire_first hu hl).trans (congrArg _ (fireOne_yours h12 hf)), (cmpFire_onlyChanges n u .cg (by decide)).symm, hacc, htotal, hother,
      fun h => cmpFire_fired hn (Cmp.goesOn_last h), fun hd hp hc => htarget.trans ?_, fun ha he hd hp => ?_⟩
    · exact (if_pos (Cmp.goesOn_period hp hc)).trans (if_neg (by omega))
    · rw [cmpFire_last (Cmp.goesOn_last (.inl ⟨by omega, hp⟩)), cmpActed_quiet ha he]
      exact onlyChanges_pos u _
  case arm =>
    obtain ⟨v, hv⟩ : ∃ v, v = setCmp n (fun _ => p) (begun k s) := ⟨_, rfl⟩
    have hlv : n < v.pos.cmps.length := by
      rw [hv]
      exact (length_upd _ _ _).symm ▸ hlen.symm ▸ Nat.lt_succ_of_le hhi
    have hvn : v.cmp n = p := by
      rw [hv]
      exact cmp_setCmp_same _ (hlen.symm ▸ Nat.lt_succ_of_le hhi)
    have hlate : (v.cmp n).isLate v.pos = p.isLate s.pos := by
      rw [hvn, hv]
      rfl
    have hanswer := fun t => posCmpArm_answers h hn hlo hhi hdir hw hepoch hw3 heither hpulse hst hidle hp (t := t)
    rw [← hv] at hanswer
    have hframe : OnlyChanges [.host, .pers, .out, .pos] (begun k s) (lateTest n v) :=
      (hv ▸ (onlyChanges_pos (begun k s) _).mono (by decide) : OnlyChanges [.host, .pers, .out, .pos] (begun k s) v).trans (lateTest_onlyChanges n v)
    have hfound : p.isLate s.pos = true → (lateTest n v).cmp n = p.foundLate := fun hl => by
      obtain ⟨e, he⟩ := lateTest_late (hlate.trans hl)
      rw [he, ← hvn]
      exact cmp_setCmp_same _ hlv
    have hst : p.st = .armed := by rw [hp]
    refine ⟨fun hl => ?ahead, fun hl hfire => ⟨_, ?fireNow, ?_, hframe⟩, fun hl hdiscard => ⟨_, ?discard, ?_, hframe⟩⟩
    case ahead =>
      refine (hanswer v (lateTest_ahead (hlate.trans hl)).symm).trans ?_
      rw [← hv, hvn, hp]
      rfl
    case fireNow =>
      refine (hanswer _ rfl).trans ?_
      rw [hfound hl, Cmp.foundLate, if_pos hfire]
      dsimp only
      rw [hst]
      rfl
    case discard =>
      refine (hanswer _ rfl).trans ?_
      rw [hfound hl, Cmp.foundLate, if_neg (ne_true_of_eq_false hdiscard)]
      rfl
    · exact (hfound hl).trans (if_pos hfire)
    · exact (hfound hl).trans (if_neg (ne_true_of_eq_false hdiscard))
  case disarm => exact posCmpDisarm_armed h hn hlo hhi hb hidle hlen ha (if_neg (ne_true_of_eq_false hnow))
  case disarmFired => exact posCmpDisarm_armed h hn hlo hhi hb hidle hlen ha (if_pos hnow)
  case disarmNot =>
    obtain ⟨t, ht⟩ : ∃ t, t = setCmp n (fun x => if x.st = .armed then
      { x with st := if firedNow n s then .fired else .idle, now := false } else x) (begun k s) := ⟨_, rfl⟩
    have hkeeps : ∀ j, t.cmp j = s.cmp j := fun j => by
      rw [ht]
      by_cases hj : j = n
      · subst hj
        exact (cmp_setCmp_same _ (hlen.symm ▸ Nat.lt_succ_of_le hhi)).trans (if_neg ha)
      · exact cmp_setCmp_other _ hj
    refine ⟨t, ?_, hkeeps n, ht ▸ onlyChanges_pos (begun k s) _, hkeeps⟩
    rw [← hkeeps n]
    exact posCmpDisarm_answers h hn hlo hhi hb (Cmp.fires_armed ha) ht

end Sys2Proof.Machine
end

section
/-!
PROOFS. The timers (R349, R350, R359).
-/
namespace Sys2Proof.Machine

/-! ## TIMER_FIRE (R349) -/

/-- A timer that has fired at a time: FIRED, or with a period at an instant to come. -/
def Timer.hasFired (now : Nat) (t : Timer) : Timer := if t.period = 0 then { t with st := 2 }
  else { t with nextAt := BitVec.ofNat 64 (max (t.nextAt.toNat + t.period) (t.after now)) }

/-- The state in which a read of an absolute port has been asked for and its axis' position latched. -/
def absAsked (n : Nat) (u : State) : State := { u with
  pos := { u.pos with abs := upd u.pos.abs n (fun a => { a with reading := a.protocol != 0 }) }
  axes := { u.axes with ax := upd u.axes.ax n (fun a => { a with latched := a.cmd }) } }

/-- The state in which a firing timer has acted. -/
def timerActed (n : Nat) (u : State) : State :=
  let t := u.timer n
  if t.action = 4 then
    if (cell u.pos.abs n {}).protocol = 0 then absAsked n u else emit (.absRead n) (absAsked n u)
  else doAction t.action t.pin t.width (0x80 + n) ((t.nextAt.toNat - t.now u.pos) / 5) (BitVec.ofNat 50 u.pos.raw) u

/-- The state in which a timer has fired. -/
def timerFired (n : Nat) (u : State) : State :=
  let v := setTimer n (Timer.hasFired ((u.timer n).now u.pos)) (timerActed n u)
  if (u.timer n).event then event { ev := .timerFired, p0 := w32 n } v else v

section
variable {n : Fin 8} {x : Samples} {s u : State} (hu : u = mainUpdate (advance x s))
include hu

theorem timerFire_idle (h : (u.timer n).st ≠ 1 ∨ (u.timer n).now u.pos + 50 ≤ (u.timer n).nextAt.toNat) : exec (.timerFire n x) s = .next u := by
  subst hu
  exact congrArg Host.Outcome.next (if_pos h)

theorem timerFire_due (hst : (u.timer n).st = 1) (hdue : (u.timer n).nextAt.toNat < (u.timer n).now u.pos + 50) :
    exec (.timerFire n x) s = .next (timerFired n u) := by
  subst hu
  exact congrArg Host.Outcome.next (if_neg fun h => h.elim (fun hne => hne hst) fun hle => Nat.not_lt.mpr hle hdue)

end

section
variable (n : Nat) (u : State)

theorem absAsked_onlyChanges : OnlyChanges [.pos, .axes] u (absAsked n u) := by
  intro p hp
  cases p <;> simp_all [State.agree, absAsked]

theorem timerActed_onlyChanges : OnlyChanges [.host, .pers, .lamp, .pos, .axes, .out] u (timerActed n u) := by
  unfold timerActed
  dsimp only
  split
  · split
    · exact (absAsked_onlyChanges n u).mono (by decide)
    · exact ((absAsked_onlyChanges n u).mono (by decide)).trans ((emit_onlyChanges _ _).mono (by decide))
  · exact (doAction_onlyChanges _ _ u _ _ _ _).mono (by decide)

theorem timerActed_pos : ∃ l q a, (timerActed n u).pos = { u.pos with fifo := l, capSeq := q, abs := a } := by
  unfold timerActed
  dsimp only
  split
  · split
    · exact ⟨u.pos.fifo, u.pos.capSeq, _, rfl⟩
    · exact ⟨u.pos.fifo, u.pos.capSeq, _, emit_pos (absAsked n u) _⟩
  · obtain ⟨l, q, h⟩ := doAction_pos (0x80 + n) (BitVec.ofNat 50 u.pos.raw) u (u.timer n).action (u.timer n).pin (u.timer n).width
      (((u.timer n).nextAt.toNat - (u.timer n).now u.pos) / 5)
    exact ⟨l, q, u.pos.abs, h⟩

theorem timerFired_onlyChanges : OnlyChanges [.host, .pers, .lamp, .pos, .axes, .out] u (timerFired n u) := by
  have hset := (timerActed_onlyChanges n u).trans
    ((onlyChanges_pos _ (setTimer n (Timer.hasFired ((u.timer n).now u.pos)) (timerActed n u)).pos).mono (by decide))
  unfold timerFired
  dsimp only
  split
  · exact hset.trans ((withLog_onlyChanges _ _).mono (by decide))
  · exact hset

/-- The event of a timer touches neither the position unit nor the axes. -/
theorem timerFired_pos : (timerFired n u).pos = (setTimer n (Timer.hasFired ((u.timer n).now u.pos)) (timerActed n u)).pos := by
  unfold timerFired
  dsimp only
  split <;> rfl

theorem timerFired_axes : (timerFired n u).axes = (timerActed n u).axes := by
  unfold timerFired
  dsimp only
  split <;> rfl

end

section
variable {n : Nat} {u : State}

theorem timerFired_acc : (timerFired n u).pos.acc = u.pos.acc := by
  obtain ⟨l, q, a, h⟩ := timerActed_pos n u
  rw [timerFired_pos]
  exact (congrArg Pos.acc h :)

theorem timerActed_timers : (timerActed n u).pos.timers = u.pos.timers := by
  obtain ⟨l, q, a, h⟩ := timerActed_pos n u
  exact (congrArg Pos.timers h :)

theorem timerFired_timer (hn : n < u.pos.timers.length) : (timerFired n u).timer n = (u.timer n).hasFired ((u.timer n).now u.pos) := by
  unfold State.timer
  rw [timerFired_pos]
  refine (timer_setTimer_same _ (timerActed_timers.symm ▸ hn)).trans ?_
  unfold State.timer
  rw [timerActed_timers]

theorem timerFired_other {j : Nat} (hj : j ≠ n) : (timerFired n u).timer j = u.timer j := by
  unfold State.timer
  rw [timerFired_pos]
  refine (timer_setTimer_other _ hj).trans ?_
  unfold State.timer
  rw [timerActed_timers]

theorem timerFired_pulse (ha : (u.timer n).action = 1) (he : (u.timer n).event = false) : (timerFired n u).out =
    (emitPulse (posOut (u.timer n).pin) (10 * (u.timer n).width)
      (u.pos.mono.toNat + 5 * (((u.timer n).nextAt.toNat - (u.timer n).now u.pos) / 5)) u).out := by
  have hacted : timerActed n u = emitPulse (posOut (u.timer n).pin) (10 * (u.timer n).width)
      (u.pos.mono.toNat + 5 * (((u.timer n).nextAt.toNat - (u.timer n).now u.pos) / 5)) u := by
    unfold timerActed
    dsimp only
    rw [ha]
    rfl
  have hfired : timerFired n u = setTimer n (Timer.hasFired ((u.timer n).now u.pos)) (timerActed n u) := if_neg (ne_true_of_eq_false he)
  rw [hfired, ← hacted]
  rfl

theorem timerFired_absRead (ha : (u.timer n).action = 4) (hp : (cell u.pos.abs n {}).protocol ≠ 0) (hn : n < u.pos.abs.length)
    (hx : n < u.axes.ax.length) : (cell (timerFired n u).pos.abs n {}).reading = true ∧ ((timerFired n u).axis n).latched = (u.axis n).cmd := by
  have hacted : timerActed n u = emit (.absRead n) (absAsked n u) := (if_pos ha).trans (if_neg hp)
  have hpos : (timerActed n u).pos = (absAsked n u).pos := hacted ▸ emit_pos _ _
  have haxes : (timerActed n u).axes = (absAsked n u).axes := hacted ▸ emit_axes _ _
  constructor
  · have habs : (timerFired n u).pos.abs = (absAsked n u).pos.abs := (congrArg Pos.abs (timerFired_pos n u)).trans (congrArg Pos.abs hpos :)
    rw [habs]
    refine (congrArg AbsPort.reading (cell_upd_same _ _ hn)).trans ?_
    exact bne_iff_ne.mpr hp
  · unfold State.axis
    rw [timerFired_axes, haxes]
    exact congrArg Axis.latched (cell_upd_same _ _ hx)

end

theorem Timer.hasFired_once {t : Timer} (now : Nat) (h : t.period = 0) : t.hasFired now = { t with st := 2 } := if_pos h

theorem Timer.hasFired_again {t : Timer} (now : Nat) (h : t.period ≠ 0) :
    t.hasFired now = { t with nextAt := BitVec.ofNat 64 (max (t.nextAt.toNat + t.period) (t.after now)) } := if_neg h

/-! ## A step of NET_TIME (R350) -/

theorem timerStep_oneShotLate {n : Nat} {s : State} (hst : (s.timer n).st = 1) (hbase : (s.timer n).base = true) (hp : (s.timer n).period = 0)
    (hl : (s.timer n).late = false) (hle : (s.timer n).nextAt.toNat ≤ s.pos.netNow) :
    timerStep s n = stickRec .timerLate (setTimer n (fun t => { t with st := 3 }) s) := by
  unfold timerStep
  dsimp only
  rw [if_neg (by simp [hst, hbase]), if_pos (decide_eq_true hle), if_neg (not_not.mpr hp), if_pos (by simp [hle, hl])]

/-! ## TIME_TIMER_ARM (R355, R359) -/

/-- What a TIME_TIMER_ARM that starts a timer does and answers. -/
def timerStarted (n : Nat) (t : Timer) (s : State) : State × Option Ans :=
  let s1 := setTimer n (fun _ => if decide (t.start.toNat ≤ t.now s.pos) && !t.late then { t with st := 3 } else t) s
  if decide (t.start.toNat ≤ t.now s.pos) then done (stickRec .timerLate s1, if t.late then okWith [1] else late) else done (s1, okWith [0])

section
variable {n : Nat} {t : Timer} {s : State}

theorem timerStarted_ahead (h : t.now s.pos < t.start.toNat) : timerStarted n t s = (setTimer n (fun _ => t) s, some (okWith [0])) := by
  unfold timerStarted
  rw [decide_eq_false (Nat.not_le.mpr h)]
  rfl

variable (h : t.start.toNat ≤ t.now s.pos)
include h

theorem timerStarted_fireNow (hl : t.late = true) :
    timerStarted n t s = (stickRec .timerLate (setTimer n (fun _ => t) s), some (okWith [1])) := by
  unfold timerStarted
  rw [decide_eq_true h, hl]
  rfl

theorem timerStarted_late (hl : t.late = false) :
    timerStarted n t s = (stickRec .timerLate (setTimer n (fun _ => { t with st := 3 }) s), some late) := by
  unfold timerStarted
  rw [decide_eq_true h, hl]
  rfl

end

section
variable {k : Fin 16} {c : RungCmd} {s : State} {n : Nat} (h : Rung 0x0909 5 k c s) (hn : n = fld (c.w 0) 0 3) (hw : c.w 0 &&& ~~~ 0xFFF = 0)
  (hb : s.host.opState ≠ .boot)
include h hn hw hb

theorem timeTimerArm_stops (hstop : flag (c.w 0) 11 = true) :
    execTimeTimerArm k s = .next (respond k ok (setTimer n (fun t => { t with st := 0 }) (begun k s))) := by
  subst hn
  have hstop' : flag (wd c.payload 0) 11 = true := hstop
  refine congrArg Host.Outcome.next (command_done h ?_ (if_pos hstop))
  simp only [passes_cons, passes_nil, and_true]
  exact ⟨reservedW_passes hw, by rw [hstop']; rfl, by rw [hstop']; rfl, by rw [hstop']; rfl, notBoot_passes hb⟩

theorem timeTimerArm_starts (hstart : flag (c.w 0) 11 = false) (hread : n < 2 → fld (c.w 0) 5 3 = 4) (hact : 2 ≤ n → fld (c.w 0) 5 3 < 4)
    (hp : (c.w 3).toNat = 0 ∨ (10000 ≤ (c.w 3).toNat ∧ (c.w 3).toNat ≤ 1000000000)) (hw4 : fld (c.w 4) 16 16 = 0)
    (hpulse : fld (c.w 0) 5 3 = 1 → fld (c.w 4) 0 16 ≠ 0) {t : Timer}
    (ht : t = { st := 1, base := flag (c.w 0) 3 && decide (2 ≤ n), late := flag (c.w 0) 4, action := fld (c.w 0) 5 3, pin := fld (c.w 0) 8 2
                event := flag (c.w 0) 10, start := BitVec.ofNat 64 (wn64 c.payload 1), nextAt := BitVec.ofNat 64 (wn64 c.payload 1)
                period := (c.w 3).toNat, width := fld (c.w 4) 0 16 }) {u : State} {a : Ans} (hu : timerStarted n t (begun k s) = (u, some a)) :
    execTimeTimerArm k s = .next (respond k a u) := by
  subst hn ht
  refine congrArg Host.Outcome.next (command_done h ?_ ((if_neg (ne_true_of_eq_false hstart)).trans hu))
  have haction : (if fld (c.w 0) 0 3 < 2 then fld (c.w 0) 5 3 != 4 else decide (fld (c.w 0) 5 3 ≥ 4)) = false := by
    split
    next hlt => exact bne_eq_false_iff_eq.mpr (hread hlt)
    next hge => exact decide_eq_false (Nat.not_le.mpr (hact (Nat.not_lt.mp hge)))
  have hperiod : ¬ ((c.w 3).toNat ≠ 0 ∧ ((c.w 3).toNat < 10000 ∨ (c.w 3).toNat > 1000000000)) := by omega
  have hwidth : (fld (c.w 4) 16 16 != 0 || (fld (c.w 0) 5 3 == 1 && fld (c.w 4) 0 16 == 0)) = false := by
    rw [hw4]
    exact Bool.and_eq_false_imp.mpr fun hpin => beq_eq_false_iff_ne.mpr (hpulse (eq_of_beq hpin))
  simp only [passes_cons, passes_nil, and_true]
  exact ⟨reservedW_passes hw, Bool.and_eq_false_imp.mpr fun _ => haction, Bool.and_eq_false_imp.mpr fun _ => decide_eq_false hperiod,
    Bool.and_eq_false_imp.mpr fun _ => hwidth, notBoot_passes hb⟩

end

theorem timers : Claims.Timers := by
  refine ⟨fun n x s u => timerFire_idle, fun n x s u hu hst hdue hlen => ?fires, fun n s => timerStep_oneShotLate,
    fun k c s n h hn hw hb hlen => ⟨timeTimerArm_stops h hn hw hb, fun hstart hread hact hp hw4 hpulse t ht => ?starts⟩⟩
  case fires =>
    have htimer := timerFired_timer (u := u) (n.isLt.trans_eq hlen.symm)
    refine ⟨_, timerFire_due hu hst hdue, (timerFired_onlyChanges n u .cg (by decide)).symm, timerFired_acc, ?_, ?_, fun j => timerFired_other,
      timerFired_pulse, fun ha hn hp habs hax => timerFired_absRead ha hp (hn.trans_eq habs.symm) (hn.trans_eq hax.symm)⟩
    · intro hp
      rw [htimer, Timer.hasFired_once _ hp]
    · intro hp
      rw [htimer, Timer.hasFired_again _ hp]
      exact ⟨hst, rfl⟩
  case starts =>
    have hanswer := fun u a => timeTimerArm_starts h hn hw hb hstart hread hact hp hw4 hpulse ht (u := u) (a := a)
    exact ⟨fun ha => hanswer _ _ (timerStarted_ahead ha), fun hle hl => hanswer _ _ (timerStarted_fireNow hle hl),
      fun hle hl => hanswer _ _ (timerStarted_late hle hl)⟩

/-- Settles O45: a comparator by whether it fires and goes on, a timer by its instant and its period, a command by its checks and its effect. -/
theorem comparatorsAndTimers : Obligations.ComparatorsAndTimers := ⟨comparators, timers⟩

end Sys2Proof.Machine
end

section
/-!
PROOFS. The step generator, the current references and the limits that a planner tick keeps (R365, R366, R369, R372).
-/
namespace Sys2Proof.Machine

/-! ## Positions of 32 bits and the step generator (R363, R365) -/

theorem wrap32_of_range {i : Int} (hlo : -2 ^ 31 ≤ i) (hhi : i < 2 ^ 31) : wrap32 i = i := by
  unfold wrap32 wInt
  exact BitVec.toInt_ofInt_eq_self (by norm_num) hlo (by omega)

/-- The steps that 1,000 clocks at a velocity make: the carries of the phase accumulator. -/
def Axis.carries (x : Axis) (v : Int) : Nat := (x.frac + 1000 * velInc v) / 2 ^ 32

theorem steps_frac (x : Axis) (v : Int) : (x.steps v).frac + x.carries v * 2 ^ 32 = x.frac + 1000 * velInc v ∧ (x.steps v).frac < 2 ^ 32 :=
  ⟨Nat.mod_add_div' _ _, Nat.mod_lt _ (by norm_num)⟩

theorem steps_forward (x : Axis) {v : Int} (hv : 0 ≤ v) :
    (x.steps v).cmd = wrap32 (x.cmd + x.carries v) ∧ (x.steps v).elec = (x.elec + x.carries v) % 1024 := by
  have hneg : ¬ v < 0 := by omega
  simp only [Axis.steps, Axis.carries, hneg, if_false, true_and]
  omega

theorem steps_backward (x : Axis) {v : Int} (hv : v < 0) :
    (x.steps v).cmd = wrap32 (x.cmd - x.carries v) ∧ ((x.steps v).elec : Int) = ((x.elec : Int) - x.carries v) % 1024 := by
  simp only [Axis.steps, Axis.carries, hv, if_true, ← sub_eq_add_neg, true_and]
  exact Int.toNat_of_nonneg (Int.emod_nonneg _ (by norm_num))

/-! ## The current references (R366) -/

theorem sineQuarter_le (k : Nat) : sineQuarter.getD k 0 ≤ 1023 := by
  have hall : ∀ y ∈ sineQuarter, y ≤ 1023 := by decide +kernel
  rw [List.getD_eq_getElem?_getD]
  cases h : sineQuarter[k]? with
  | none => exact Nat.zero_le _
  | some y => exact hall y (List.mem_of_getElem? h)

theorem sineAbs_le (n : Nat) : sineAbs n ≤ 1023 := sineQuarter_le _

theorem sineAbs_period (n : Nat) : sineAbs (n + 512) = sineAbs n := by
  unfold sineAbs
  rw [Nat.add_mod_right]

theorem sineNeg_period (n : Nat) : sineNeg (n + 1024) = sineNeg n := by
  unfold sineNeg
  rw [Nat.add_mod_right]

theorem dacCode_le (i n : Nat) : dacCode i n ≤ i := by
  have h : i * sineAbs n ≤ i * 1023 := Nat.mul_le_mul_left i (sineAbs_le n)
  unfold dacCode
  omega

/-- S of a quarter and of the quarter before its end stand at a right angle, up to the rounding of the table. -/
theorem sineAbs_quadrature : ∀ n < 257, sineAbs n * sineAbs n + sineAbs (256 - n) * sineAbs (256 - n) ≤ 1023 * 1023 + 1450 ∧
    1023 * 1023 ≤ sineAbs n * sineAbs n + sineAbs (256 - n) * sineAbs (256 - n) + 1450 := by decide +kernel

theorem stepsAndCurrents : Claims.StepsAndCurrents :=
  ⟨fun x v hv => ⟨x.carries v, (steps_frac x v).1, (steps_frac x v).2, steps_forward x hv⟩,
    fun x v hv => ⟨x.carries v, (steps_frac x v).1, (steps_frac x v).2, steps_backward x hv⟩, dacCode_le,
    fun n => ⟨sineAbs_period n, sineNeg_period n, sineAbs_le n⟩, by decide, by decide,
    fun n hn => sineAbs_quadrature n (Nat.lt_succ_of_le hn), fun _ => wrap32_of_range⟩

/-! ## The planner's limits (R369, R372) -/

/-- What a tick from velocity v ≥ 0 and acceleration a keeps: the direction, the acceleration's limit, and the jerk unless the axis comes to rest. -/
def KeepsLimits (v a lim jerk : Int) (p : Int × Int) : Prop :=
  0 ≤ p.1 ∧ |p.2| ≤ lim ∧ ((p.1 = v + p.2 ∧ |p.2 - a| ≤ jerk) ∨ p = (0, 0))

section
variable {v a lim jerk : Int}

theorem brake_keepsLimits (ha : |a| ≤ lim) (hj : 0 < jerk) : KeepsLimits v a lim jerk (brake v a lim jerk) := by
  obtain ⟨hlo, hhi⟩ := abs_le.mp ha
  unfold brake
  extract_lets a1
  have h1 : -lim ≤ a1 ∧ a1 ≤ lim ∧ -jerk ≤ a1 - a ∧ a1 - a ≤ jerk := by
    unfold a1
    split
    · omega
    · omega
  obtain ⟨hl, hu, hd, hi⟩ := h1
  split
  · exact ⟨le_rfl, by simpa using (abs_nonneg a).trans ha, Or.inr rfl⟩
  · exact ⟨by dsimp only; omega, abs_le.mpr ⟨hl, hu⟩, Or.inl ⟨rfl, abs_le.mpr ⟨hd, hi⟩⟩⟩

/-- The accelerations that a tick tries are within the limit and one jerk of the present one. -/
theorem planTries_limits {k : Int} (ha : |a| ≤ lim) (hj : 0 < jerk)
    (hk : k ∈ [min lim (a + jerk), a] ++ (if |a| ≤ jerk then [0] else []) ++ [max (-lim) (a - jerk)]) : |k| ≤ lim ∧ |k - a| ≤ jerk := by
  obtain ⟨hlo, hhi⟩ := abs_le.mp ha
  rw [abs_le, abs_le]
  simp only [List.mem_append, List.mem_cons, List.not_mem_nil, or_false] at hk
  rcases hk with ((rfl | rfl) | hk) | rfl
  · omega
  · omega
  · split at hk
    next h =>
      obtain ⟨hl, hu⟩ := abs_le.mp h
      rw [List.mem_singleton] at hk
      omega
    next => exact absurd hk List.not_mem_nil
  · omega

theorem planTick_keepsLimits (hv : 0 ≤ v) (ha : |a| ≤ lim) (hj : 0 < jerk) (vmax : Int) (stops : List (Int × Int)) :
    KeepsLimits v a lim jerk (planTick v a vmax lim jerk stops) ∧
      ((planTick v a vmax lim jerk stops).1 ≤ vmax ∨ planTick v a vmax lim jerk stops = brake v a lim jerk) := by
  unfold planTick
  rw [if_neg (by omega)]
  extract_lets tries fits
  split
  next k hk =>
    have hfits := List.find?_some hk
    obtain ⟨hlim, hjerk⟩ := planTries_limits ha hj (List.mem_of_find?_eq_some hk)
    simp only [fits, Bool.and_eq_true, decide_eq_true_eq] at hfits
    obtain ⟨⟨hpos, hmax⟩, -⟩ := hfits
    have hsq : 0 ≤ if 0 < k then k * k else 0 := by
      split
      · exact mul_self_nonneg k
      · exact le_rfl
    exact ⟨⟨hpos, hlim, Or.inl ⟨rfl, hjerk⟩⟩, Or.inl (le_of_mul_le_mul_left (by omega : 2 * jerk * (v + k) ≤ 2 * jerk * vmax) (by omega))⟩
  next => exact ⟨brake_keepsLimits ha hj, Or.inr rfl⟩

end

theorem plannerLimits : Claims.PlannerLimits := by
  refine ⟨fun v a lim jerk _ ha hj p hp => ?_, fun v a vmax lim jerk stops hv ha hj p hp => ?_⟩
  · exact hp ▸ brake_keepsLimits ha hj
  · obtain ⟨⟨hpos, hlim, hjerk⟩, hmax⟩ := planTick_keepsLimits hv ha hj vmax stops
    exact hp ▸ ⟨hpos, hlim, hjerk, hmax⟩

/-- Settles O48: the carries of the accumulator are the steps, the table of S is checked entry by entry, and every acceleration that a tick tries keeps the limits. -/
theorem stepsAndPlanner : Obligations.StepsAndPlanner := ⟨stepsAndCurrents, plannerLimits⟩

end Sys2Proof.Machine
end

section
/-!
PROOFS. What the shared operations leave of the axes: one axis of the two, aborts, switch inputs and CAP_CONFIRMED (R371, R374 to R378, R383, R384).
-/
namespace Sys2Proof.Machine

/-! ## One axis of the two -/

theorem upd_congr {α : Type} {l : List α} {i : Nat} {d : α} {f g : α → α} (h : f (cell l i d) = g (cell l i d)) : upd l i f = upd l i g := by
  refine List.ext_getElem (by simp) fun j hf hg => ?_
  have hj : j < l.length := by simpa using hf
  simp only [upd, List.getElem_modify]
  split
  next e =>
    subst e
    simpa [cell, hj] using h
  next => rfl

theorem setAxis_onlyChanges (a : Nat) (f : Axis → Axis) (s : State) : OnlyChanges [.axes] s (setAxis a f s) := by
  intro p hp
  cases p <;> simp_all [State.agree]

theorem onlyChanges_axes (s : State) (x : Axes) : OnlyChanges [.axes] s { s with axes := x } := by
  intro p hp
  cases p <;> simp_all [State.agree]

theorem takeFree_onlyChanges (s : State) : OnlyChanges [.free] s (takeFree s).2 := by
  intro p hp
  cases p <;> simp_all [State.agree, takeFree]

theorem stickEvent_onlyChanges (k : Sticky) (e : Event) (s : State) : OnlyChanges logParts s (stickEvent k e s) := withLog_onlyChanges _ s

theorem event_onlyChanges (e : Event) (s : State) : OnlyChanges logParts s (event e s) := withLog_onlyChanges _ s

theorem stickRec_onlyChanges (k : Sticky) (source : Nat) (s : State) : OnlyChanges logParts s (stickRec k s source) := withLog_onlyChanges _ s

section
variable {a : Nat} {s : State}

theorem axis_setAxis_same (f : Axis → Axis) (h : a < s.axes.ax.length) : (setAxis a f s).axis a = f (s.axis a) := cell_upd_same f {} h

theorem axis_setAxis_other {j : Nat} (f : Axis → Axis) (h : j ≠ a) : (setAxis a f s).axis j = s.axis j := cell_upd_other f {} h

theorem setAxis_length (a : Nat) (f : Axis → Axis) (s : State) : (setAxis a f s).axes.ax.length = s.axes.ax.length := length_upd _ _ _

/-- Two changes of an axis that make the same of it are one. -/
theorem setAxis_congr {f g : Axis → Axis} (h : f (s.axis a) = g (s.axis a)) : setAxis a f s = setAxis a g s := by
  unfold setAxis
  rw [upd_congr (d := {}) h]

/-- What every change of an axis keeps, the change of one of them keeps of all. -/
theorem axis_setAxis_keeps {β : Type} (p : Axis → β) {f : Axis → Axis} (h : ∀ x, p (f x) = p x) (a j : Nat) (s : State) :
    p ((setAxis a f s).axis j) = p (s.axis j) := cell_upd_keeps p h _ _ _ _

/-- An axis that is not as after reset is one of those that there are. -/
theorem axis_lt {β : Type} (p : Axis → β) (h : p (s.axis a) ≠ p {}) : a < s.axes.ax.length := by
  by_contra hlt
  exact h (congrArg p (List.getD_eq_default _ _ (Nat.not_lt.mp hlt)))

/-- The end of a part of the frame: what an operation does not list it leaves. -/
theorem OnlyChanges.axis {ps : List Part} {t : State} (h : OnlyChanges ps s t) (hp : Part.axes ∉ ps) (j : Nat) : t.axis j = s.axis j := by
  unfold State.axis
  rw [show s.axes = t.axes from h .axes hp]

end

/-! ## Aborts (R371, R378, R383) -/

/-- An axis without its moves, its homing and the state they are in: what the abort of moves, homing and sequences leaves as it is. -/
def Axis.sansMotion (x : Axis) : Axis := { x with queue := [], home := none, st := .idle, stopHard := false, accel := 0 }

/-- From s to t moves, homing and sequences have ended at most. -/
structure MotionEnds (s t : State) : Prop where
  /-- There are as many axes. -/
  length : t.axes.ax.length = s.axes.ax.length
  /-- Each is where it was. -/
  sansMotion : ∀ j, (t.axis j).sansMotion = (s.axis j).sansMotion
  /-- No move is queued. -/
  queue : ∀ j, (s.axis j).queue = [] → (t.axis j).queue = []
  /-- No homing begins. -/
  home : ∀ j, (s.axis j).home = none → (t.axis j).home = none
  /-- No sequence begins. -/
  seq : s.axes.seq = none → t.axes.seq = none

namespace MotionEnds
variable {s t u : State}

theorem refl (s : State) : MotionEnds s s := ⟨rfl, fun _ => rfl, fun _ h => h, fun _ h => h, fun h => h⟩

theorem trans (h : MotionEnds s t) (k : MotionEnds t u) : MotionEnds s u :=
  ⟨k.length.trans h.length, fun j => (k.sansMotion j).trans (h.sansMotion j), fun j hq => k.queue j (h.queue j hq),
    fun j hh => k.home j (h.home j hh), fun hs => k.seq (h.seq hs)⟩

theorem of_onlyChanges {ps : List Part} (h : OnlyChanges ps s t) (hp : Part.axes ∉ ps) : MotionEnds s t := by
  have hax : t.axes = s.axes := (h .axes hp).symm
  have hj := h.axis hp
  exact ⟨by rw [hax], fun j => by rw [hj], fun j hq => by rw [hj, hq], fun j hh => by rw [hj, hh], fun hs => by rw [hax, hs]⟩

theorem log (h : OnlyChanges logParts s t) : MotionEnds s t := of_onlyChanges h (by decide)

/-- A change of one axis that only ends motion. -/
theorem setAxis (a : Nat) (f : Axis → Axis) (s : State) (hf : ∀ x, (f x).sansMotion = x.sansMotion) (hq : ∀ x, x.queue = [] → (f x).queue = [])
    (hh : ∀ x, x.home = none → (f x).home = none) : MotionEnds s (setAxis a f s) :=
  ⟨setAxis_length a f s, fun j => axis_setAxis_keeps Axis.sansMotion hf a j s,
    fun _ h => cell_upd_of (P := fun x : Axis => x.queue = []) a hq h, fun _ h => cell_upd_of (P := fun x : Axis => x.home = none) a hh h, fun h => h⟩

theorem foldl {α : Type} (g : State → α → State) (l : List α) (s : State) (h : ∀ s x, MotionEnds s (g s x)) : MotionEnds s (l.foldl g s) :=
  List.foldlRecOn (motive := MotionEnds s) l g (refl s) fun t ht x _ => ht.trans (h t x)

theorem cmd (h : MotionEnds s t) (j : Nat) : (t.axis j).cmd = (s.axis j).cmd := (congrArg Axis.cmd (h.sansMotion j) :)

theorem meas (h : MotionEnds s t) (j : Nat) : (t.axis j).meas = (s.axis j).meas := (congrArg Axis.meas (h.sansMotion j) :)

theorem cfg (h : MotionEnds s t) (j : Nat) : (t.axis j).cfg = (s.axis j).cfg := (congrArg Axis.cfg (h.sansMotion j) :)

theorem replans (h : MotionEnds s t) (j : Nat) : (t.axis j).replans = (s.axis j).replans := (congrArg Axis.replans (h.sansMotion j) :)

end MotionEnds

/-- The parts that the end of a motion writes. -/
abbrev motionParts : List Part := [.host, .pers, .out, .axes]

/-- The moves that the queue's end reports. -/
def reportMoves (status cause : Nat) (s : State) (q : List Move) : State :=
  q.foldl (fun s m => match m.tag with
    | none => s
    | some t => complete 0x0A02 t status 0 (w32 cause) 0 s) s

theorem emptyQueue_eq (a status cause : Nat) (s : State) :
    emptyQueue a status cause s = reportMoves status cause (setAxis a (fun x => { x with queue := [] }) s) (s.axis a).queue := rfl

theorem reportMoves_onlyChanges (status cause : Nat) (s : State) (q : List Move) : OnlyChanges logParts s (reportMoves status cause s q) := by
  refine .foldl _ _ s fun t m => ?_
  cases m.tag with
  | none => exact .refl _ t
  | some tag => exact complete_onlyChanges _ _ _ _ _ _ t

theorem emptyQueue_onlyChanges (a status cause : Nat) (s : State) : OnlyChanges motionParts s (emptyQueue a status cause s) := by
  rw [emptyQueue_eq]
  exact ((setAxis_onlyChanges a _ s).mono (by decide)).trans ((reportMoves_onlyChanges status cause _ _).mono (by decide))

theorem emptyQueue_ends (a status cause : Nat) (s : State) : MotionEnds s (emptyQueue a status cause s) := by
  rw [emptyQueue_eq]
  refine .trans (.setAxis a _ s ?_ ?_ ?_) (.log (reportMoves_onlyChanges status cause _ _))
  · exact fun _ => rfl
  · exact fun _ _ => rfl
  · exact fun _ h => h

theorem emptyQueue_queue (a status cause : Nat) {s : State} (h : a < s.axes.ax.length) : ((emptyQueue a status cause s).axis a).queue = [] := by
  rw [emptyQueue_eq, (reportMoves_onlyChanges status cause _ _).axis (by decide), axis_setAxis_same _ h]

theorem failHome_onlyChanges (a status : Nat) (s : State) : OnlyChanges motionParts s (failHome a status s) := by
  unfold failHome
  split
  · exact .refl _ s
  · exact ((setAxis_onlyChanges a _ s).mono (by decide)).trans ((complete_onlyChanges _ _ _ _ _ _ _).mono (by decide))

theorem failHome_ends (a status : Nat) (s : State) : MotionEnds s (failHome a status s) := by
  unfold failHome
  split
  · exact .refl s
  · refine .trans (.setAxis a _ s ?_ ?_ ?_) (.log (complete_onlyChanges _ _ _ _ _ _ _))
    · exact fun _ => rfl
    · exact fun _ h => h
    · exact fun _ _ => rfl

theorem failHome_home (a status : Nat) {s : State} (h : a < s.axes.ax.length) : ((failHome a status s).axis a).home = none := by
  unfold failHome
  split
  · assumption
  · rw [(complete_onlyChanges _ _ _ _ _ _ _).axis (by decide), axis_setAxis_same _ h]

theorem stopAxis_ends (a : Nat) (hard : Bool) (s : State) : MotionEnds s (stopAxis a hard s) := by
  refine .setAxis a _ s (fun x => ?_) (fun x h => ?_) fun x h => ?_
  · split
    · rfl
    · split <;> rfl
  · split
    · exact h
    · split <;> exact h
  · split
    · exact h
    · split <;> exact h

theorem stopAxis_onlyChanges (a : Nat) (hard : Bool) (s : State) : OnlyChanges [.axes] s (stopAxis a hard s) := setAxis_onlyChanges a _ s

/-- Both axes of an aborted sequence stop, and the abort is reported (R383). -/
def seqStopped (a c : Nat) (hard : Bool) (q : SeqJob) (step : Nat) (s : State) : State :=
  let stop := fun (n : Nat) (s : State) => stopAxis n hard (emptyQueue n 0x12 c s)
  complete 0x0A05 q.tag 0x12 (w32 step) (w32 c) 0 (stickEvent .seqAborted { ev := .seqAborted, source := 0x40 + a, p0 := w32 a }
    (stop 1 (stop 0 { s with axes := { s.axes with seq := none, seqStep := 0 } })))

theorem abortSeq_none {a : Nat} {cause : Option Nat} {hard : Bool} {s : State} (h : s.axes.seq = none) : abortSeq a cause hard s = s := by
  unfold abortSeq
  rw [h]

/-- A sequence that aborts: with the cause that it has, or with a free one. -/
theorem abortSeq_some {a : Nat} {cause : Option Nat} {hard : Bool} {q : SeqJob} {s : State} (h : s.axes.seq = some q) :
    ∃ c n, abortSeq a cause hard s = seqStopped a c hard q s.axes.seqStep { s with free := n } ∧ (cause.isSome = true → n = s.free) := by
  unfold abortSeq
  rw [h]
  cases cause with
  | some c => exact ⟨c, s.free, rfl, fun _ => rfl⟩
  | none => exact ⟨_, _, rfl, fun h => absurd h (by simp)⟩

section
variable {a c : Nat} {hard : Bool} {q : SeqJob} {step : Nat} {s : State}

theorem seqStopped_onlyChanges : OnlyChanges motionParts s (seqStopped a c hard q step s) := by
  have hstop : ∀ n t, OnlyChanges motionParts t (stopAxis n hard (emptyQueue n 0x12 c t)) := fun n t =>
    (emptyQueue_onlyChanges n 0x12 c t).trans ((stopAxis_onlyChanges n hard _).mono (by decide))
  exact ((((onlyChanges_axes s _).mono (by decide)).trans (hstop 0 _)).trans (hstop 1 _)).trans
    (((stickEvent_onlyChanges _ _ _).mono (by decide)).trans ((complete_onlyChanges _ _ _ _ _ _ _).mono (by decide)))

theorem seqStopped_ends : MotionEnds s (seqStopped a c hard q step s) := by
  have hstop : ∀ n t, MotionEnds t (stopAxis n hard (emptyQueue n 0x12 c t)) := fun n t =>
    (emptyQueue_ends n 0x12 c t).trans (stopAxis_ends n hard _)
  have hseq : MotionEnds s { s with axes := { s.axes with seq := none, seqStep := 0 } } :=
    ⟨rfl, fun _ => rfl, fun _ h => h, fun _ h => h, fun _ => rfl⟩
  exact ((hseq.trans (hstop 0 _)).trans (hstop 1 _)).trans
    ((MotionEnds.log (stickEvent_onlyChanges _ _ _)).trans (.log (complete_onlyChanges _ _ _ _ _ _ _)))

theorem seqStopped_seq : (seqStopped a c hard q step s).axes.seq = none := by
  have hstop : ∀ n t, MotionEnds t (stopAxis n hard (emptyQueue n 0x12 c t)) := fun n t =>
    (emptyQueue_ends n 0x12 c t).trans (stopAxis_ends n hard _)
  unfold seqStopped
  extract_lets stop
  rw [complete_axes]
  exact ((hstop 0 _).trans (hstop 1 _)).seq rfl

end

theorem abortSeq_ends (a : Nat) (cause : Option Nat) (hard : Bool) (s : State) : MotionEnds s (abortSeq a cause hard s) := by
  cases h : s.axes.seq with
  | none => rw [abortSeq_none h]; exact .refl s
  | some q =>
    obtain ⟨c, n, e, -⟩ := abortSeq_some (a := a) (cause := cause) (hard := hard) h
    have hfree : MotionEnds s { s with free := n } := ⟨rfl, fun _ => rfl, fun _ h => h, fun _ h => h, fun h => h⟩
    rw [e]
    exact hfree.trans seqStopped_ends

theorem abortSeq_seq (a : Nat) (cause : Option Nat) (hard : Bool) (s : State) : (abortSeq a cause hard s).axes.seq = none := by
  cases h : s.axes.seq with
  | none => rw [abortSeq_none h, h]
  | some q =>
    obtain ⟨c, n, e, -⟩ := abortSeq_some (a := a) (cause := cause) (hard := hard) h
    rw [e]
    exact seqStopped_seq

/-- An abort whose cause is given takes no free value. -/
theorem abortSeq_onlyChanges (a c : Nat) (hard : Bool) (s : State) : OnlyChanges motionParts s (abortSeq a (some c) hard s) := by
  cases h : s.axes.seq with
  | none => rw [abortSeq_none h]; exact .refl _ s
  | some q =>
    obtain ⟨c', n, e, hn⟩ := abortSeq_some (a := a) (cause := some c) (hard := hard) h
    rw [e, hn rfl]
    exact seqStopped_onlyChanges

/-! ## FAULT (R374, R375) -/

/-- The axis in FAULT: where it was, without moves, homing or sequence. -/
theorem axisFault_fault (code : Nat) {a : Nat} {s : State} (h : a < s.axes.ax.length) : ((axisFault a code s).axis a).st = .fault ∧
    ((axisFault a code s).axis a).queue = [] ∧ ((axisFault a code s).axis a).meas = (s.axis a).meas ∧
    ((axisFault a code s).axis a).cfg = (s.axis a).cfg ∧ (axisFault a code s).axes.seq = none ∧
    (axisFault a code s).axes.ax.length = s.axes.ax.length := by
  unfold axisFault
  extract_lets s1 s2 s3
  have h12 : MotionEnds s1 s2 := by
    unfold s2
    split
    · exact .refl s1
    · exact failHome_ends a 0x30 s1
  have h23 : MotionEnds s2 s3 := abortSeq_ends a none true s2
  have h3 : MotionEnds s s3 := ((emptyQueue_ends a 0x30 0 s).trans h12).trans h23
  rw [axis_setAxis_same _ (h3.length.symm ▸ h)]
  exact ⟨rfl, (h12.trans h23).queue a (emptyQueue_queue a 0x30 0 h), h3.meas a, h3.cfg a, abortSeq_seq a none true s2,
    (setAxis_length a _ s3).trans h3.length⟩

/-! ## Causes that wait (R378) -/

theorem addCause_stopDue (c : StopCause) {a : Nat} {s : State} (h : a < s.axes.ax.length) : c ∈ ((addCause a c s).axis a).stopDue := by
  unfold addCause
  rw [axis_setAxis_same _ h]
  split
  · exact List.mem_of_elem_eq_true (by assumption)
  · exact List.mem_append_right _ (List.mem_singleton_self c)

theorem addCause_onlyChanges (a : Nat) (c : StopCause) (s : State) : OnlyChanges [.axes] s (addCause a c s) := setAxis_onlyChanges a _ s

/-- A waiting cause leaves all else of the axes. -/
theorem addCause_keeps {β : Type} (p : Axis → β) (hp : ∀ x l, p { x with stopDue := l } = p x) (a : Nat) (c : StopCause) (j : Nat) (s : State) :
    p ((addCause a c s).axis j) = p (s.axis j) := by
  refine axis_setAxis_keeps p (fun x => ?_) a j s
  split
  · rfl
  · exact hp x _

/-- An axis that stops already, or stands in FAULT, breaks no interlock anew (R381). -/
theorem interlockTick_stopped {a : Nat} {s : State} (h : (s.axis a).st = .stopping ∨ (s.axis a).st = .fault) : interlockTick a s = s := by
  unfold interlockTick
  rcases h with h | h <;> simp [h]

theorem interlockTick_stopDue {a : Nat} {s : State} (h : (s.axis a).stopDue ≠ []) : ((interlockTick a s).axis a).stopDue ≠ [] := by
  unfold interlockTick
  extract_lets x planned
  split
  · exact h
  · refine List.ne_nil_of_mem (addCause_stopDue .interlock ?_)
    exact (setAxis_length a _ s).symm ▸ axis_lt Axis.stopDue h

theorem settle_causes {a : Nat} {s : State} (h : (s.axis a).stopDue ≠ []) : settle a s = applyCauses a (interlockTick a s) := by
  unfold settle
  exact if_neg (by simpa using interlockTick_stopDue h)

theorem settle_stopped {a : Nat} {s : State} (h : (s.axis a).st = .stopping ∨ (s.axis a).st = .fault) (hd : (s.axis a).stopDue = []) :
    settle a s = s := by
  unfold settle
  rw [interlockTick_stopped h]
  exact if_pos (by simp [hd])

/-! ## CAP_CONFIRMED (R384) -/

theorem capUpdate_same {s : State} (h : (s.axis 1).capConf = capConditions s) : capUpdate s = s := if_pos h

/-- CAP_CONFIRMED is all that its conditions change of the axes. -/
theorem capUpdate_axes (s : State) : (capUpdate s).axes = s.axes ∨
    (capUpdate s).axes = (setAxis 1 (fun x => { x with capConf := capConditions s }) s).axes := by
  by_cases h : (s.axis 1).capConf = capConditions s
  · exact Or.inl (by rw [capUpdate_same h])
  · refine Or.inr ?_
    unfold capUpdate
    rw [if_neg h]
    exact (mainUpdate_onlyChanges _ .axes (by decide)).symm

theorem capUpdate_capConf {s : State} (h : s.axes.ax.length = 2) : ((capUpdate s).axis 1).capConf = capConditions s := by
  by_cases hc : (s.axis 1).capConf = capConditions s
  · rw [capUpdate_same hc, hc]
  · unfold capUpdate
    rw [if_neg hc, (mainUpdate_onlyChanges _).axis (by decide), (event_onlyChanges _ _).axis (by decide), axis_setAxis_same _ (by omega)]

theorem capUpdate_other {j : Nat} (s : State) (h : j ≠ 1) : (capUpdate s).axis j = s.axis j := by
  unfold State.axis
  rcases capUpdate_axes s with e | e
  · rw [e]
  · rw [e]
    exact axis_setAxis_other _ h

theorem capUpdate_seq (s : State) : (capUpdate s).axes.seq = s.axes.seq := by
  rcases capUpdate_axes s with e | e <;> rw [e]
  rfl

end Sys2Proof.Machine
end

section
/-!
PROOFS. Ticks, causes, choppers and switches of the axes (R366 to R370, R374 to R379, R383, R384).
-/
namespace Sys2Proof.Machine

/-! ## PLANNER_TICK (R369, R378) -/

theorem plannerTick_early {s : State} (h : s.since s.axes.tickAt < 10000) : exec .plannerTick s = .next s := congrArg _ (if_pos h)

theorem plannerTick_due {s u : State} (h : 10000 ≤ s.since s.axes.tickAt) (hu : u = { s with axes := { s.axes with tickAt := s.pos.mono } }) :
    exec .plannerTick s = .next (capUpdate (seqTick (axisTick (axisTick u 0) 1))) := by
  subst hu
  simp only [exec, execPlannerTick, if_neg (Nat.not_lt.mpr h)]
  rfl

/-! ## The motion of a tick (R369, R372, R375) -/

theorem go_st (x : Axis) (v acc : Int) : (x.go v acc).st = x.st := by
  unfold Axis.go
  dsimp only
  split <;> rfl

theorem stopTick_st (x : Axis) (hard : Bool) : (x.stopTick hard).st = x.st := by
  unfold Axis.stopTick
  split
  · rfl
  · exact go_st x _ _

theorem motionTick_fault {a : Nat} {s : State} (h : (s.axis a).st = .fault) : motionTick a s = setAxis a (fun x => x.stopTick true) s := if_pos h

/-- A move that does not go on past its target does not pass it. -/
theorem passTick_last {a : Nat} {m : Move} {s : State} (h : (s.axis a).queue = [m]) : passTick a s = s := by
  unfold passTick
  dsimp only
  rw [h]
  exact if_neg (by simp [Move.goesOn])

theorem begin_begun {m : Move} {rest : List Move} {x : Axis} (h : x.queue = m :: rest) (hd : m.dir ≠ 0) : x.begin_ = x := by
  unfold Axis.begin_
  rw [h]
  exact if_neg hd

/-- The state in which the last move of an axis has ended at its target. -/
def moveEnded (a : Nat) (s : State) : State :=
  setAxis a (fun x => { x with queue := x.queue.drop 1 }) (setAxis a (fun x => { x with accel := 0 }) (setAxis a Axis.begin_ s))

theorem moveEnded_onlyChanges (a : Nat) (s : State) : OnlyChanges [.axes] s (moveEnded a s) :=
  ((setAxis_onlyChanges a _ s).trans (setAxis_onlyChanges a _ _)).trans (setAxis_onlyChanges a _ _)

theorem moveEnded_axis {a : Nat} {m : Move} {s : State} (ha : a < s.axes.ax.length) (hq : (s.axis a).queue = [m]) (hd : m.dir ≠ 0) :
    (moveEnded a s).axis a = { s.axis a with accel := 0, queue := [] } := by
  unfold moveEnded
  rw [axis_setAxis_same _ (by simpa using ha), axis_setAxis_same _ (by simpa using ha), axis_setAxis_same _ ha, begin_begun hq hd]
  simp only [hq, List.drop_one, List.tail_cons]

theorem motionTick_atTarget {a : Nat} {m : Move} {tag : Word} {s : State} (ha : a < s.axes.ax.length) (hst : (s.axis a).st = .moving)
    (hh : (s.axis a).home = none) (hq : (s.axis a).queue = [m]) (ht : m.tag = some tag) (hd : m.dir ≠ 0) (hm : m.target = (s.axis a).cmd)
    (hv : (s.axis a).vel = 0) (he : (s.axis a).err.natAbs ≤ (s.axis a).cfg.stallErr) :
    motionTick a s = complete 0x0A02 tag 0 (wInt (s.axis a).meas) 0 0 (moveEnded a s) := by
  have h1 : (setAxis a Axis.begin_ s).axis a = s.axis a := by rw [axis_setAxis_same _ ha, begin_begun hq hd]
  have h2 : (setAxis a (fun x => { x with accel := 0 }) (setAxis a Axis.begin_ s)).axis a = { s.axis a with accel := 0 } := by
    rw [axis_setAxis_same _ (by simpa using ha), h1]
  unfold motionTick
  simp only [hst, reduceCtorEq, if_false, hh, passTick_last hq, h1, hq, hm, hv, and_self, if_true, ht, Option.isSome_some, true_and,
    Nat.not_lt.mpr he]
  unfold moveDone
  simp only [h2, hq]
  rw [show m = { m with tag := some tag } by rw [← ht]]
  rfl

theorem ticksAndCauses : Claims.TicksAndCauses := by
  refine ⟨fun s => plannerTick_early, fun s u => plannerTick_due, fun a s ha hl => ?causes, fun a s ha hl hst => ?fault,
    fun a m tag s ha hl hst hh hq ht hd hm hv he => ?done, fun a s => settle_causes, fun a s => settle_stopped,
    fun s => ⟨capUpdate_seq s, capUpdate_other s (by decide)⟩, fun s => capUpdate_capConf⟩
  case causes =>
    obtain ⟨hpst, hpq, -⟩ := axisFault_fault (a := a) (s := s) 2 (by omega)
    obtain ⟨hst, hq, hmeas, hcfg, hseq, hlen⟩ := axisFault_fault (a := a) (s := s) 1 (by omega)
    have hsame : (applyCause a s .stall).axis a = _ := axis_setAxis_same (s := axisFault a 1 s) _ (by omega)
    rw [hsame]
    exact ⟨hpst, hpq, hst, hq, hmeas, rfl, congrArg AxCfg.iRun hcfg, hseq⟩
  case fault =>
    rw [motionTick_fault hst, axis_setAxis_same _ (by omega), stopTick_st]
    exact ⟨rfl, hst⟩
  case done =>
    refine ⟨_, motionTick_atTarget (by omega) hst hh hq ht hd hm hv he, moveEnded_onlyChanges a s, ?_⟩
    rw [moveEnded_axis (by omega) hq hd]
    exact ⟨rfl, hm.symm⟩

/-! ## AX_HOLD_CURRENT (R370) -/

section
variable {a : Fin 2} {s : State}

theorem axHoldCurrent_waits (h : (s.axis a).vel ≠ 0 ∨ (s.axis a).hold = true ∨ s.since (s.axis a).stillAt < 1000000 * (s.axis a).cfg.holdMs) :
    exec (.axHoldCurrent a) s = .next s := congrArg _ (if_pos h)

theorem axHoldCurrent_due (hv : (s.axis a).vel = 0) (hh : (s.axis a).hold = false)
    (ht : 1000000 * (s.axis a).cfg.holdMs ≤ s.since (s.axis a).stillAt) : exec (.axHoldCurrent a) s = .next (setAxis a (fun x => { x with
      hold := true, iNow := if x.err.natAbs > x.cfg.boostErr ∨ x.cfg.iRun < x.iNow then x.iNow else x.cfg.iHold }) s) := by
  refine congrArg Host.Outcome.next (if_neg ?_)
  simp only [hv, hh, ne_eq, not_true, false_or, Bool.false_eq_true]
  exact Nat.not_lt.mpr ht

/-! ## Choppers (R366 to R368) -/

variable {b : Bool} {x : Axis} {p : Phase}

theorem chopOnEnd_waits (hx : x = s.axis a) (hp : p = x.phase b) (h : p.on = false ∨ s.since p.since < 50 * x.cfg.tBlank) :
    exec (.chopOnEnd a b) s = .next s := by
  subst hx hp
  exact congrArg _ (if_pos (h.imp_left fun hoff => by simp [hoff]))

theorem chopOffEnd_waits (hx : x = s.axis a) (hp : p = x.phase b) (h : p.on = true ∨ s.since p.since < 100 * x.cfg.tOff) :
    exec (.chopOffEnd a b) s = .next s := by
  subst hx hp
  exact congrArg _ (if_pos h)

theorem chopOffEnd_due {q : Phase} (hx : x = s.axis a) (hp : p = x.phase b) (hon : p.on = false) (ht : 100 * x.cfg.tOff ≤ s.since p.since)
    (hq : q = { on := true, fast := false, code := dacCode x.iNow (x.phaseIndex b), neg := sineNeg (x.phaseIndex b) != (b && x.cfg.fwdSense)
                since := s.pos.mono }) :
    exec (.chopOffEnd a b) s = .next (drive (bridgeOut a b q) (setPhase a b (fun _ => q) s)) := by
  subst hx hp hq
  exact congrArg _ (if_neg (not_or.mpr ⟨by simp [hon], Nat.not_lt.mpr ht⟩))

/-- An off-period begins with fast decay. -/
def Axis.decaysFast (x : Axis) (b : Bool) (p : Phase) : Bool :=
  x.cfg.fastFrac != 0 && p.code != 0 && (x.cfg.decay == 1 || (x.cfg.decay == 2 && x.falling b))

/-- An on-period that may end: the off-period begins, and with fast decay a pulse of reverse polarity. -/
theorem chopOnEnd_due {q : Phase} {u : State} (hx : x = s.axis a) (hp : p = x.phase b) (hon : p.on = true)
    (ht : 50 * x.cfg.tBlank ≤ s.since p.since) (hq : q = { p with on := false, fast := x.decaysFast b p, since := s.pos.mono })
    (hu : u = drive (bridgeOut a b q) (setPhase a b (fun _ => q) s)) :
    exec (.chopOnEnd a b) s = .next (if x.decaysFast b p then
      emit (.pulse (bridgePin a b (!p.neg)) (x.cfg.tOff * 100 * x.cfg.fastFrac / 8) true u.pos.mono.toNat) u else u) := by
  subst hx hp hq hu
  exact congrArg _ (if_neg (not_or.mpr ⟨by simp [hon], Nat.not_lt.mpr ht⟩))

theorem decaysFast_false (h : x.cfg.decay = 0 ∨ x.cfg.fastFrac = 0 ∨ p.code = 0 ∨ (x.cfg.decay = 2 ∧ x.falling b = false)) :
    x.decaysFast b p = false := by
  unfold Axis.decaysFast
  rcases h with h | h | h | ⟨h, hf⟩ <;> simp [h]
  exact fun _ _ => hf

theorem decaysFast_true (hf : x.cfg.fastFrac ≠ 0) (hc : p.code ≠ 0) (hd : x.cfg.decay = 1 ∨ (x.cfg.decay = 2 ∧ x.falling b = true)) :
    x.decaysFast b p = true := by
  unfold Axis.decaysFast
  rcases hd with h | ⟨h, hfall⟩
  · simp [hf, hc, h]
  · simp [hf, hc, h, hfall]

end

/-! ## Switch inputs (R377) -/

section
variable {a i clocks : Nat} {level : Bool} {s : State}

/-- A level that the input had for long enough to be seen. -/
def switchSeen (a i : Nat) (level : Bool) (s : State) : State :=
  setAxis a (fun x => { x with
    swIn := if level == (s.axis a).cfg.pol.getLsbD i then x.swIn ||| 1#4 <<< i else x.swIn &&& ~~~ (1#4 <<< i)
    swSeen := x.swSeen ||| 1#4 <<< i }) s

theorem switchInput_short (h : clocks < (s.axis a).cfg.filtN) : switchInput a i level clocks s = (false, s) := if_pos h

theorem switchInput_ignored (hn : (s.axis a).cfg.filtN ≤ clocks)
    (h : (s.axis a).swMask.getLsbD i = true ∨ (s.axis a).sw.getLsbD i = (level == (s.axis a).cfg.pol.getLsbD i)) :
    switchInput a i level clocks s = (false, switchSeen a i level s) := by
  unfold switchInput
  dsimp only
  rw [if_neg (Nat.not_lt.mpr hn)]
  refine if_pos ?_
  rcases h with h | h
  · rw [h]; rfl
  · rw [h]; simp

/-- The state in which a valid edge has been taken. -/
def switchTaken (a i clocks : Nat) (level : Bool) (s : State) : State :=
  let p := wrap32 ((s.axis a).cmdBefore clocks)
  setAxis a (fun x => { x with
    sw := if level == (s.axis a).cfg.pol.getLsbD i then x.sw ||| 1#4 <<< i else x.sw &&& ~~~ (1#4 <<< i)
    edgePos := upd x.edgePos i (fun _ => p)
    swMask := if x.cfg.swHyst = 0 then x.swMask else x.swMask ||| 1#4 <<< i
    edgeLatch := if i = 2 then p else x.edgeLatch }) (switchSeen a i level s)

theorem switchInput_valid (hn : (s.axis a).cfg.filtN ≤ clocks) (hm : (s.axis a).swMask.getLsbD i = false)
    (h : (s.axis a).sw.getLsbD i ≠ (level == (s.axis a).cfg.pol.getLsbD i)) :
    switchInput a i level clocks s = (true, switchTaken a i clocks level s) := by
  unfold switchInput
  dsimp only
  rw [if_neg (Nat.not_lt.mpr hn)]
  exact if_neg (by simpa [hm] using h)

theorem put1_getLsbD (w : BitVec 4) {i : Nat} (hi : i < 4) (b : Bool) :
    (if b then w ||| 1#4 <<< i else w &&& ~~~ (1#4 <<< i)).getLsbD i = b := by
  cases b <;> simp [hi]

theorem switchSeen_onlyChanges : OnlyChanges [.axes] s (switchSeen a i level s) := setAxis_onlyChanges a _ s

theorem switchTaken_onlyChanges : OnlyChanges [.axes] s (switchTaken a i clocks level s) :=
  switchSeen_onlyChanges.trans (setAxis_onlyChanges a _ _)

theorem switchInput_drops (h : clocks < (s.axis a).cfg.filtN ∨ (s.axis a).swMask.getLsbD i = true ∨
      (s.axis a).sw.getLsbD i = (level == (s.axis a).cfg.pol.getLsbD i)) :
    (switchInput a i level clocks s).1 = false ∧ ((switchInput a i level clocks s).2.axis a).sw = (s.axis a).sw ∧
      OnlyChanges [.axes] s (switchInput a i level clocks s).2 := by
  by_cases hn : clocks < (s.axis a).cfg.filtN
  · rw [switchInput_short hn]
    exact ⟨rfl, rfl, .refl _ s⟩
  · rw [switchInput_ignored (Nat.not_lt.mp hn) (h.resolve_left hn)]
    refine ⟨rfl, axis_setAxis_keeps Axis.sw ?_ a a s, switchSeen_onlyChanges⟩
    exact fun _ => rfl

theorem switchInput_takes (ha : a < s.axes.ax.length) (hi : i < 4) (hl : (s.axis a).edgePos.length = 4) (hn : (s.axis a).cfg.filtN ≤ clocks)
    (hm : (s.axis a).swMask.getLsbD i = false) (h : (s.axis a).sw.getLsbD i ≠ (level == (s.axis a).cfg.pol.getLsbD i)) :
    (switchInput a i level clocks s).1 = true ∧
      ((switchInput a i level clocks s).2.axis a).sw.getLsbD i = (level == (s.axis a).cfg.pol.getLsbD i) ∧
      cell ((switchInput a i level clocks s).2.axis a).edgePos i 0 = wrap32 ((s.axis a).cmdBefore clocks) ∧
      OnlyChanges [.axes] s (switchInput a i level clocks s).2 := by
  have hseen : (switchSeen a i level s).axis a = _ := axis_setAxis_same _ ha
  have htaken : (switchTaken a i clocks level s).axis a = _ := axis_setAxis_same _ ((setAxis_length a _ s).symm ▸ ha)
  rw [switchInput_valid hn hm h, htaken, hseen]
  exact ⟨rfl, put1_getLsbD _ hi _, cell_upd_same _ _ (hl.symm ▸ hi), switchTaken_onlyChanges⟩

end

/-! ## Edges of the limit, home and cap switches (R376, R379, R384) -/

section
variable {a : Fin 2} {level e : Bool} {clocks : Nat} {s u : State}

theorem limitSwitchEdge_off {hi : Bool} (hu : (e, u) = switchInput a (b2n hi) level clocks s)
    (h : e = false ∨ (u.axis a).sw.getLsbD (b2n hi) = false) : exec (.limitSwitchEdge a hi level clocks) s = .next u := by
  simp only [exec, execLimitSwitchEdge, ← hu]
  exact congrArg _ (if_pos (by rcases h with h | h <;> simp [h]))

theorem limitSwitchEdge_trips {hi : Bool} {v : State} (hu : (e, u) = switchInput a (b2n hi) level clocks s) (he : e = true)
    (hon : (u.axis a).sw.getLsbD (b2n hi) = true) (hv : v = stickEvent .limitTrip
      { ev := .limitTrip, source := 0x40 + a, p0 := w32 a, p1 := w32 (b2n hi), p2 := wInt (u.axis a).meas }
      (setAxis a (fun x => { x with limitTrips := satAdd x.limitTrips 1 }) u)) :
    exec (.limitSwitchEdge a hi level clocks) s =
      .next (if (u.axis a).heading = (if hi then 1 else -1) ∨ s.axes.seq.isSome = true then addCause a .limit v else v) := by
  subst hv
  simp only [exec, execLimitSwitchEdge, ← hu]
  exact congrArg _ (if_neg (by simp [he, hon]))

theorem homeEdge_idle (hu : (e, u) = switchInput a 2 level clocks s) (h : (u.axis a).home = none ∨ e = false) :
    exec (.homeEdge a level clocks) s = .next u := by
  simp only [exec, execHomeEdge, ← hu]
  refine congrArg _ ?_
  cases hh : (u.axis a).home with
  | none => rfl
  | some j => simp [h.resolve_left (by simp [hh])]

variable {h : HomeJob}

theorem homeEdge_found (hu : (e, u) = switchInput a 2 level clocks s) (hh : (u.axis a).home = some h) (he : e = true) (hp : h.phase = 2)
    (hon : (u.axis a).sw.getLsbD 2 = true) : exec (.homeEdge a level clocks) s =
      .next (setAxis a (fun x => { x with home := some { h with phase := 3, edge := some (u.axis a).edgeLatch } }) u) := by
  simp only [exec, execHomeEdge, ← hu, hh, he, hp, hon, Bool.not_true, Bool.false_eq_true, if_false, and_self, if_true]
  exact congrArg _ (setAxis_congr rfl)

theorem homeEdge_left (hu : (e, u) = switchInput a 2 level clocks s) (hh : (u.axis a).home = some h) (he : e = true) (hp : h.phase = 0)
    (hoff : (u.axis a).sw.getLsbD 2 = false) : exec (.homeEdge a level clocks) s =
      .next (setAxis a (fun x => { x with home := some { h with edge := some (u.axis a).edgeLatch } }) u) := by
  simp only [exec, execHomeEdge, ← hu, hh, he, hp, hoff, Bool.not_true, Bool.false_eq_true, if_false, OfNat.zero_ne_ofNat, not_false_eq_true,
    and_self, if_true]
  exact congrArg _ (setAxis_congr rfl)

end

theorem choppersAndSwitches : Claims.ChoppersAndSwitches := by
  refine ⟨fun a s => axHoldCurrent_waits, fun a s => axHoldCurrent_due, fun a b s x p q hx hp hoff => ⟨chopOnEnd_waits hx hp (.inl hoff),
      fun ht => chopOffEnd_waits hx hp (.inr ht), fun ht => chopOffEnd_due hx hp hoff ht⟩,
    fun a b s u x p q hx hp hon => ⟨chopOffEnd_waits hx hp (.inl hon), fun ht => chopOnEnd_waits hx hp (.inr ht), fun ht => ⟨?slow, ?fast⟩⟩,
    fun a i clocks level s _ _ _ => switchInput_drops, fun a i clocks level s ha hi hl => switchInput_takes (by omega) hi,
    fun a hi level clocks s u e hu => ⟨limitSwitchEdge_off hu, fun he hon v hv => ⟨fun h => ?stops, fun hdir hseq => ?only⟩⟩,
    fun a level clocks s u e hu => ⟨homeEdge_idle hu, fun h => homeEdge_found hu, fun h => homeEdge_left hu⟩, fun level clocks s => rfl⟩
  case slow =>
    intro hd hq
    have hslow := decaysFast_false hd
    rw [chopOnEnd_due (q := q) hx hp hon ht (by rw [hslow]; exact hq) rfl, hslow]
    rfl
  case fast =>
    intro hf hc hd hq hu
    have hfast := decaysFast_true hf hc hd
    rw [chopOnEnd_due hx hp hon ht (by rw [hfast]; exact hq) hu, hfast]
    rfl
  case stops => rw [limitSwitchEdge_trips hu he hon hv, if_pos h]
  case only => rw [limitSwitchEdge_trips hu he hon hv, if_neg (not_or.mpr ⟨hdir, by simp [hseq]⟩)]

/-- Settles O49: a tick and a cause by what they end, a chopper by the time of its phase, a switch by whether its level is accepted. -/
theorem axisMotion : Obligations.AxisMotion := ⟨ticksAndCauses, choppersAndSwitches⟩

end Sys2Proof.Machine
end

section
/-!
PROOFS. The axis commands (R369, R371, R372, R375, R381 to R383, R387 to R389).
-/
namespace Sys2Proof.Machine

/-! ## Operands -/

/-- An axis or chain number, and bit 8 with one, as the GET_STATUS commands of axes and chains read them (R387, R409). -/
theorem pairOperand_fields : ∀ a < 2, BitVec.ofNat 32 a &&& ~~~ 0x101 = 0 ∧ fld (BitVec.ofNat 32 a) 0 1 = a ∧ flag (BitVec.ofNat 32 a) 8 = false ∧
    BitVec.ofNat 32 (256 + a) &&& ~~~ 0x101 = 0 ∧ fld (BitVec.ofNat 32 (256 + a)) 0 1 = a ∧ flag (BitVec.ofNat 32 (256 + a)) 8 = true := by decide

theorem axisNumber_lt (w : Word) : fld w 0 1 < 2 := Nat.mod_lt _ (by decide)

theorem noneBusy {s : State} (h : ∀ x ∈ s.axes.ax, x.st = .idle) : s.axes.ax.any (·.st != .idle) = false :=
  List.any_eq_false.mpr fun x hx => by simp [h x hx]

section
variable {k : Fin 16} {c : RungCmd} {s : State} {a : Nat}

/-! ## AX_GET_STATUS (R387) -/

theorem axGetStatus_answers (h : Rung 0x0A00 1 k c s) (hw : c.w 0 &&& ~~~ 0x101 = 0) (hb : s.host.opState ≠ .boot) :
    execAxGetStatus k s = .next (respond k (okWith (axisView (fld (c.w 0) 0 1) s)) (if flag (c.w 0) 8 = true then
      setAxis (fld (c.w 0) 0 1) (fun x => { x with stalls := 0, limitTrips := 0, replans := 0 }) (begun k s) else begun k s)) := by
  refine congrArg Host.Outcome.next (command_done h ?_ rfl)
  simp only [passes_cons, passes_nil, and_true]
  exact ⟨reservedW_passes hw, notBoot_passes hb⟩

/-! ## AX_CONFIG (R388) -/

/-- What R388 holds the operands of an AX_CONFIG to, and the axis with them. -/
structure AxConfigAllowed (c : RungCmd) (g : AxCfg) (s : State) : Prop where
  /-- No reserved bit of the first word is set. -/
  reserved : c.w 0 &&& ~~~ 0x1F7F = 0
  /-- DECAY. -/
  decay : g.decay ≤ 2
  /-- T_OFF, T_BLANK and STALL_CYCLES. -/
  times : 5 ≤ g.tOff ∧ 4 ≤ g.tBlank ∧ g.tBlank ≤ 60 ∧ 1 ≤ g.stallCycles
  /-- No reserved bit beside the currents is set. -/
  currentsReserved : c.w 2 &&& ~~~ 0x3FFFFFFF = 0
  /-- I_HOLD, I_RUN and I_BOOST ascend. -/
  currents : g.iHold ≤ g.iRun ∧ g.iRun ≤ g.iBoost
  /-- V_MAX. -/
  vMax : g.vMax ≤ 2000000
  /-- A_MAX and D_MAX. -/
  dMax : g.aMax ≤ g.dMax
  /-- FILT_N. -/
  filtN : 1 ≤ g.filtN
  /-- No reserved bit beside BOOST_GAIN is set. -/
  gainReserved : c.w 12 &&& ~~~ 0xFFFF = 0
  /-- The axis is idle. -/
  idle : (s.axis (fld (c.w 0) 0 1)).st = .idle
  /-- The unit is not in SAFE. -/
  op : s.host.opState ≠ .safe

theorem axConfig_answers (h : Rung 0x0A01 15 k c s) (ha : AxConfigAllowed c (axCfgOf c.payload) s) :
    execAxConfig k s = .next (respond k ok (capUpdate (setAxis (fld (c.w 0) 0 1)
      (fun x => { x.repolar (axCfgOf c.payload).pol with cfg := axCfgOf c.payload }) (begun k s)))) := by
  obtain ⟨htOff, hblank, hblank2, hcycles⟩ := ha.times
  obtain ⟨hhold, hrun⟩ := ha.currents
  have hdecay := ha.decay
  have hfilt := ha.filtN
  refine congrArg Host.Outcome.next (command_done h ?_ rfl)
  simp only [passes_cons, passes_nil, and_true]
  exact ⟨reservedW_passes ha.reserved, beq_eq_false_iff_ne.mpr (by omega), decide_eq_false (by omega), reservedW_passes ha.currentsReserved,
    decide_eq_false (by omega), decide_eq_false (Nat.not_lt.mpr ha.vMax), decide_eq_false (Nat.not_lt.mpr ha.dMax),
    beq_eq_false_iff_ne.mpr (by omega), reservedW_passes ha.gainReserved,
    Bool.or_eq_false_iff.mpr ⟨bne_eq_false_iff_eq.mpr ha.idle, beq_eq_false_iff_ne.mpr ha.op⟩⟩

theorem repolar_sw (x : Axis) (pol : BitVec 4) (i : Nat) : (x.repolar pol).sw.getLsbD i =
    (if x.swSeen.getLsbD i = true ∧ x.cfg.pol.getLsbD i ≠ pol.getLsbD i then !x.sw.getLsbD i else x.sw.getLsbD i) := by
  simp only [Axis.repolar, BitVec.getLsbD_xor, BitVec.getLsbD_and]
  cases x.swSeen.getLsbD i
  · simp
  · cases x.cfg.pol.getLsbD i <;> cases pol.getLsbD i <;> simp

/-! ## AX_MOVE (R369, R371, R381) -/

/-- What lets an AX_MOVE pass its checks: its operands, the operating state and the axis. -/
structure MoveAllowed (c : RungCmd) (a : Nat) (s : State) : Prop where
  /-- The axis named. -/
  axis : a = fld (c.w 0) 0 1
  /-- No reserved bit is set. -/
  reserved : c.w 0 &&& ~~~ 7 = 0
  /-- SOFT_MIN. -/
  softMin : (s.axis a).cfg.softMin ≤ (c.w 1).toInt
  /-- SOFT_MAX. -/
  softMax : (c.w 1).toInt ≤ (s.axis a).cfg.softMax
  /-- V_MAX. -/
  vMax : (c.w 2).toNat ≤ (s.axis a).cfg.vMax
  /-- The operating state allows it; in SAFE LIFT goes up only. -/
  op : s.host.opState ∈ [.ready, .print, .service] ∨ (s.host.opState = .safe ∧ a = 0 ∧ (s.axis a).cmd < (c.w 1).toInt)
  /-- The control cycle runs. -/
  cycle : cycleOk a s = true
  /-- The axis is not in FAULT. -/
  fault : (s.axis a).st ≠ .fault
  /-- No limit switch is active on the way. -/
  limit : (s.axis a).limited (c.w 1).toInt = false

/-- The move that an AX_MOVE asks for. -/
def moveOf (c : RungCmd) : Move := { target := (c.w 1).toInt, v := (c.w 2).toNat, blend := flag (c.w 0) 1, tag := some c.tag }

theorem axMove_effect {t : State} {ans : Ans} (h : Rung 0x0A02 3 k c s) (ha : MoveAllowed c a s)
    (he : (match moveInterlock a (c.w 1).toInt s with
      | some n => done (setAxis a (fun x => { x with interlock := n }) (begun k s), { badState with payload := [w32 n] })
      | none =>
        if (!flag (c.w 0) 2 && decide ((s.axis a).queue.length ≥ 8)) || (completionsFull s).1 then done (begun k s, noResource)
        else if ((settle a (begun k s)).axis a).st = .fault then done (settle a (begun k s), badState)
        else done (queueMove a (moveOf c) (flag (c.w 0) 2) (outstand 0x0A02 c.tag a (begun k s)), accepted)) = (t, some ans)) :
    execAxMove k s = .next (respond k ans t) := by
  obtain ⟨rfl, hreserved, hmin, hmax, hv, hop, hcycle, hfault, hlimit⟩ := ha
  refine congrArg Host.Outcome.next (command_done h ?_ he)
  simp only [passes_cons, passes_nil, and_true]
  refine ⟨reservedW_passes hreserved, decide_eq_false (not_or.mpr ⟨Int.not_lt.mpr hmin, Int.not_lt.mpr hmax⟩), decide_eq_false (Nat.not_lt.mpr hv),
    ?_, ?_⟩
  · rcases hop with hop | ⟨hop, h0, hup⟩
    · rcases List.mem_cons.mp hop with hop | hop
      · rw [hop]; rfl
      · rcases List.mem_cons.mp hop with hop | hop
        · rw [hop]; rfl
        · rw [List.mem_singleton.mp hop]; rfl
    · rw [hop]
      simp only [RungCmd.w] at h0 hup ⊢
      simp [h0, h0 ▸ hup]
  · exact Bool.or_eq_false_iff.mpr ⟨Bool.or_eq_false_iff.mpr ⟨(Bool.not_eq_false' _).mpr hcycle, beq_eq_false_iff_ne.mpr hfault⟩, hlimit⟩

theorem axMove_blocked {n : Nat} (h : Rung 0x0A02 3 k c s) (ha : MoveAllowed c a s)
    (hn : moveInterlock a (c.w 1).toInt s = some n) : execAxMove k s =
      .next (respond k { badState with payload := [w32 n] } (setAxis a (fun x => { x with interlock := n }) (begun k s))) := by
  refine axMove_effect h ha ?_
  rw [hn]
  rfl

/-- No interlock refuses an upward move of LIFT (R381). -/
theorem moveInterlock_up {target : Int} (h : (s.axis 0).cmd < target) : moveInterlock 0 target s = none := by
  have hnone : interlockOf 0 target target false s = none := by
    unfold interlockOf
    exact (if_pos rfl).trans (if_pos (le_of_lt h))
  unfold moveInterlock
  rw [hnone]
  exact if_neg fun hb => hb.2 ⟨rfl, h⟩

theorem moveHasRoom (hout : s.host.outst.length < 16) (hroom : flag (c.w 0) 2 = true ∨ (s.axis a).queue.length < 8) :
    ((!flag (c.w 0) 2 && decide ((s.axis a).queue.length ≥ 8)) || (completionsFull s).1) = false := by
  rw [completionsFull_passes hout, Bool.or_false]
  rcases hroom with hr | hr
  · simp [hr]
  · simp [Nat.not_le.mpr hr]

section
variable (h : Rung 0x0A02 3 k c s) (ha : MoveAllowed c a s) (hn : moveInterlock a (c.w 1).toInt s = none)
  (hout : s.host.outst.length < 16) (hroom : flag (c.w 0) 2 = true ∨ (s.axis a).queue.length < 8)
include h ha hn hout hroom

theorem axMove_fault (hf : ((settle a (begun k s)).axis a).st = .fault) :
    execAxMove k s = .next (respond k badState (settle a (begun k s))) := by
  refine axMove_effect h ha ?_
  rw [hn, moveHasRoom hout hroom, if_pos hf]
  rfl

theorem axMove_queues (hf : ((settle a (begun k s)).axis a).st ≠ .fault) :
    execAxMove k s = .next (respond k accepted (queueMove a (moveOf c) (flag (c.w 0) 2) (outstand 0x0A02 c.tag a (begun k s)))) := by
  refine axMove_effect h ha ?_
  rw [hn, moveHasRoom hout hroom, if_neg hf]
  rfl

end

theorem queueMove_joins (m : Move) (u : State) :
    queueMove a m false u = setAxis a (fun x => { x with queue := x.queue ++ [m] }) (settle a u) := rfl

/-- A replaced queue before the new move joins it: where the axis cannot stop in time for the target, that is counted and reported (R371). -/
def queueReplaced (a : Nat) (target : Int) (u : State) : State :=
  if (u.axis a).canStopAt target then emptyQueue a 0x12 1 u else
    stickEvent .replanReverse { ev := .replanReverse, source := 0x40 + a, p0 := w32 a, p1 := wInt (u.axis a).cmd }
      (setAxis a (fun x => { x with replans := satAdd x.replans 1 }) (emptyQueue a 0x12 1 u))

theorem queueMove_replaces (m : Move) (u : State) : queueMove a m true u =
    setAxis a (fun x => { x with queue := x.queue ++ [m] }) (queueReplaced a m.target (settle a u)) := by
  unfold queueMove queueReplaced
  exact if_neg (by decide)

theorem queueReplaced_onlyChanges (target : Int) (u : State) : OnlyChanges motionParts u (queueReplaced a target u) := by
  unfold queueReplaced
  split
  · exact emptyQueue_onlyChanges a 0x12 1 u
  · exact ((emptyQueue_onlyChanges a 0x12 1 u).trans ((setAxis_onlyChanges a _ _).mono (by decide))).trans
      ((stickEvent_onlyChanges _ _ _).mono (by decide))

theorem queueReplaced_axis (target : Int) {u : State} (ha : a < u.axes.ax.length) :
    a < (queueReplaced a target u).axes.ax.length ∧ ((queueReplaced a target u).axis a).queue = [] ∧
      ((queueReplaced a target u).axis a).cmd = (u.axis a).cmd ∧
      ((queueReplaced a target u).axis a).replans = (if (u.axis a).canStopAt target then (u.axis a).replans else satAdd (u.axis a).replans 1) := by
  have hends := emptyQueue_ends a 0x12 1 u
  have hlen : a < (emptyQueue a 0x12 1 u).axes.ax.length := hends.length.symm ▸ ha
  have hqueue := emptyQueue_queue a 0x12 1 ha
  unfold queueReplaced
  split
  · exact ⟨hlen, hqueue, hends.cmd a, hends.replans a⟩
  · have haxis := fun f => (stickEvent_onlyChanges .replanReverse { ev := .replanReverse, source := 0x40 + a, p0 := w32 a, p1 := wInt (u.axis a).cmd }
      (setAxis a f (emptyQueue a 0x12 1 u))).axis (by decide) a
    rw [haxis, axis_setAxis_same _ hlen]
    exact ⟨(length_upd _ _ _).symm ▸ hlen, hqueue, hends.cmd a, congrArg (satAdd · 1) (hends.replans a)⟩

/-! ## AX_STOP (R372, R378) -/

/-- The axis after an AX_STOP: its moves, its homing and a sequence have ended, and the stop waits for the next tick. -/
def axisStopped (a : Nat) (hard : Bool) (u : State) : State :=
  addCause a (if hard then .stopHard else .stopSoft) (abortSeq a (some 1) hard (failHome a 0x12 (emptyQueue a 0x12 1 u)))

theorem axStop_answers (h : Rung 0x0A03 1 k c s) (hw : c.w 0 &&& ~~~ 3 = 0) (hb : s.host.opState ≠ .boot) :
    execAxStop k s = .next (respond k ok (axisStopped (fld (c.w 0) 0 1) (flag (c.w 0) 1) (settle (fld (c.w 0) 0 1) (begun k s)))) := by
  refine congrArg Host.Outcome.next (command_done h ?_ rfl)
  simp only [passes_cons, passes_nil, and_true]
  exact ⟨reservedW_passes hw, notBoot_passes hb⟩

theorem axisStopped_onlyChanges (hard : Bool) (u : State) : OnlyChanges motionParts u (axisStopped a hard u) :=
  (((emptyQueue_onlyChanges a 0x12 1 u).trans (failHome_onlyChanges a 0x12 _)).trans (abortSeq_onlyChanges a 1 hard _)).trans
    ((addCause_onlyChanges a _ _).mono (by decide))

theorem axisStopped_axis (hard : Bool) {u : State} (ha : a < u.axes.ax.length) : ((axisStopped a hard u).axis a).queue = [] ∧
    ((axisStopped a hard u).axis a).home = none ∧ (axisStopped a hard u).axes.seq = none ∧
    (if hard then StopCause.stopHard else .stopSoft) ∈ ((axisStopped a hard u).axis a).stopDue ∧
    ((axisStopped a hard u).axis a).cmd = (u.axis a).cmd := by
  have h1 := emptyQueue_ends a 0x12 1 u
  have h2 := failHome_ends a 0x12 (emptyQueue a 0x12 1 u)
  have h3 := abortSeq_ends a (some 1) hard (failHome a 0x12 (emptyQueue a 0x12 1 u))
  have hall := (h1.trans h2).trans h3
  unfold axisStopped
  refine ⟨?_, ?_, ?_, addCause_stopDue _ (hall.length.symm ▸ ha), ?_⟩
  · rw [addCause_keeps Axis.queue (fun _ _ => rfl)]
    exact (h2.trans h3).queue a (emptyQueue_queue a 0x12 1 ha)
  · rw [addCause_keeps Axis.home (fun _ _ => rfl)]
    exact h3.home a (failHome_home a 0x12 (h1.length.symm ▸ ha))
  · exact abortSeq_seq a (some 1) hard _
  · rw [addCause_keeps Axis.cmd (fun _ _ => rfl)]
    exact hall.cmd a

/-! ## AX_HOME (R379) -/

/-- The axis begins to home. -/
def homingBegun (a : Nat) (tag : Word) (s : State) : State := setAxis a (fun x => { x with
  st := .homing, home := some { tag := tag, phase := if (s.axis a).sw.getLsbD 2 then 0 else 2, seen := (s.axis a).sw.getLsbD 2 } }) s

theorem axHome_effect {t : State} {ans : Ans} (h : Rung 0x0A04 1 k c s) (hax : a = fld (c.w 0) 0 1) (hw : c.w 0 &&& ~~~ 1 = 0)
    (hop : s.host.opState = .ready) (hst : (s.axis a).st = .idle) (hcycle : cycleOk a s = true) (hpos : (cell s.pos.abs a {}).posValid = true)
    (he : (match interlockOf a ((homingBegun a c.tag (begun k s)).axis a).cmd ((homingBegun a c.tag (begun k s)).axis a).dest false
        (homingBegun a c.tag (begun k s)) with
      | some n => done (setAxis a (fun x => { x with interlock := n }) (begun k s), { badState with payload := [w32 n] })
      | none => if (completionsFull s).1 then done (begun k s, noResource) else
        done (outstand 0x0A04 c.tag a (homingBegun a c.tag (begun k s)), accepted)) = (t, some ans)) :
    execAxHome k s = .next (respond k ans t) := by
  subst hax
  refine congrArg Host.Outcome.next (command_done h ?_ he)
  simp only [passes_cons, passes_nil, and_true]
  exact ⟨reservedW_passes hw, Bool.or_eq_false_iff.mpr ⟨bne_eq_false_iff_eq.mpr hop, bne_eq_false_iff_eq.mpr hst⟩,
    Bool.or_eq_false_iff.mpr ⟨(Bool.not_eq_false' _).mpr hcycle, (Bool.not_eq_false' _).mpr hpos⟩⟩

/-! ## AX_SEQ and AX_SEQ_CONFIG (R382, R383, R389) -/

/-- Both axes have begun a sequence. -/
def sequenceBegun (q : SeqJob) (s : State) : State :=
  setAxis 1 (fun x => { x with st := .sequence }) (setAxis 0 (fun x => { x with st := .sequence })
    { s with axes := { s.axes with seq := some q, seqStep := 1 } })

/-- The sequence that an AX_SEQ asks for. -/
def seqOf (c : RungCmd) (s : State) : SeqJob := { tag := c.tag, seq := fld (c.w 0) 8 2, passes := fld (c.w 0) 12 4, since := s.pos.mono }

theorem axSeq_answers {q : Nat} (h : Rung 0x0A05 1 k c s) (hq : q = fld (c.w 0) 8 2) (hw : c.w 0 &&& ~~~ 0xF301 = 0) (h0 : q ≠ 0)
    (h3 : q = 3 → fld (c.w 0) 12 4 ≠ 0) (hop : s.host.opState = .ready ∨ (s.host.opState = .service ∧ q ≠ 2)) (hcfg : s.axes.seqCfgd = true)
    (hc0 : cycleOk 0 s = true) (hc1 : cycleOk 1 s = true) (hidle : ∀ x ∈ s.axes.ax, x.st = .idle) (hout : s.host.outst.length < 16) :
    execAxSeq k s = .next (respond k accepted (outstand 0x0A05 c.tag 0 (sequenceBegun (seqOf c s) (begun k s)))) := by
  subst hq
  refine congrArg Host.Outcome.next (command_done h ?_ rfl)
  simp only [passes_cons, passes_nil, and_true]
  refine ⟨reservedW_passes hw, ?_, ?_, ?_, completionsFull_passes hout⟩
  · exact Bool.or_eq_false_iff.mpr ⟨beq_eq_false_iff_ne.mpr h0,
      Bool.and_eq_false_imp.mpr fun he => beq_eq_false_iff_ne.mpr (h3 (eq_of_beq he))⟩
  · rcases hop with hop | ⟨hop, h2⟩
    · rw [hop]; rfl
    · rw [hop, show (fld (wd c.payload 0) 8 2 != 2) = true from bne_iff_ne.mpr h2]; rfl
  · rw [hcfg, hc0, hc1, noneBusy hidle]
    rfl

theorem sequenceBegun_axes {q : SeqJob} (hl : s.axes.ax.length = 2) : (sequenceBegun q s).axes.seqStep = 1 ∧
    (sequenceBegun q s).axes.seq = some q ∧ ((sequenceBegun q s).axis 0).st = .sequence ∧ ((sequenceBegun q s).axis 1).st = .sequence := by
  have h0 : 0 < s.axes.ax.length := by omega
  have h1 : 1 < s.axes.ax.length := by omega
  unfold sequenceBegun
  refine ⟨rfl, rfl, ?_, ?_⟩
  · rw [axis_setAxis_other _ (by decide)]
    exact congrArg Axis.st (axis_setAxis_same _ h0)
  · rw [axis_setAxis_same _ (by simpa using h1)]

theorem sequenceBegun_onlyChanges (q : SeqJob) : OnlyChanges [.axes] s (sequenceBegun q s) :=
  ((onlyChanges_axes s _).trans (setAxis_onlyChanges 0 _ _)).trans (setAxis_onlyChanges 1 _ _)

/-- Positions within soft limits pass R389's checks of them. -/
theorem passes_positions {n first : Nat} {p : Nat → Int} {lo hi : Int} (h : ∀ i, i < n → lo ≤ p (first + i) ∧ p (first + i) ≤ hi) :
    Passes ((List.range n).map fun i => (decide (p (first + i) < lo ∨ hi < p (first + i)), badParam (first + i))) := by
  intro x hx
  obtain ⟨i, hi, rfl⟩ := List.mem_map.mp hx
  obtain ⟨hlo, hhi⟩ := h i (List.mem_range.mp hi)
  exact decide_eq_false (not_or.mpr ⟨Int.not_lt.mpr hlo, Int.not_lt.mpr hhi⟩)

theorem axSeqConfig_answers {p : Nat → Int} (h : Rung 0x0A06 11 k c s) (hp : ∀ i, p i = (c.w i).toInt)
    (hlift : ∀ i, i < 5 → (s.axis 0).cfg.softMin ≤ p i ∧ p i ≤ (s.axis 0).cfg.softMax)
    (hcap : ∀ i, i < 4 → (s.axis 1).cfg.softMin ≤ p (5 + i) ∧ p (5 + i) ≤ (s.axis 1).cfg.softMax)
    (h01 : p 0 < p 1) (h13 : p 1 ≤ p 3) (h14 : p 1 ≤ p 4) (h32 : p 3 < p 2) (h42 : p 4 < p 2) (hlo : 1 ≤ fld (c.w 9) 16 16)
    (hhi : fld (c.w 9) 16 16 ≤ 1000) (hidle : ∀ x ∈ s.axes.ax, x.st = .idle) (hop : s.host.opState ≠ .safe) :
    execAxSeqConfig k s = .next (respond k ok { begun k s with axes := { s.axes with
      lifts := [p 0, p 1, p 2, p 3, p 4], caps := [p 5, p 6, p 7, p 8], posTol := fld (c.w 9) 0 16, confirmMs := fld (c.w 9) 16 16
      wipeV := (c.w 10).toNat, seqCfgd := true } }) := by
  obtain rfl : p = fun i => (c.w i).toInt := funext hp
  refine congrArg Host.Outcome.next (command_done h ?_ rfl)
  simp only [passes_append, passes_cons, passes_nil, and_true]
  refine ⟨⟨?_, passes_positions (p := fun i => (c.w i).toInt) hcap⟩, decide_eq_false ?_, decide_eq_false ?_, decide_eq_false ?_,
    Bool.or_eq_false_iff.mpr ⟨noneBusy hidle, beq_eq_false_iff_ne.mpr hop⟩⟩
  · have hfirst := passes_positions (n := 5) (first := 0) (p := fun i => (c.w i).toInt) (fun i hi => by simpa using hlift i hi)
    simp only [Nat.zero_add] at hfirst
    exact hfirst
  · exact not_or.mpr ⟨Int.not_le.mpr h01, Int.not_lt.mpr (le_min h13 h14)⟩
  · exact Int.not_le.mpr (max_lt h32 h42)
  · exact not_or.mpr ⟨Nat.not_lt.mpr hlo, Nat.not_lt.mpr hhi⟩

/-! ## AX_CLEAR_FAULT (R375) -/

theorem axClearFault_answers (h : Rung 0x0A07 1 k c s) (hax : a = fld (c.w 0) 0 1) (hw : c.w 0 &&& ~~~ 1 = 0) (hst : (s.axis a).st = .fault)
    (hpos : (cell s.pos.abs a {}).posValid = true)
    (hgone : (s.axis a).fault = 2 ∨ ((s.axis a).vel = 0 ∧ (s.axis a).err.natAbs ≤ (s.axis a).cfg.stallErr)) :
    execAxClearFault k s = .next (respond k ok (setAxis a (fun x => { x with
      st := (if x.vel = 0 then .idle else .stopping), fault := 0, stallRun := 0, stopHard := x.vel != 0 }) (begun k s))) := by
  subst hax
  have hclear : ((s.axis (fld (c.w 0) 0 1)).fault == 2 || (s.axis (fld (c.w 0) 0 1)).vel == 0 &&
      decide ((s.axis (fld (c.w 0) 0 1)).err.natAbs ≤ (s.axis (fld (c.w 0) 0 1)).cfg.stallErr)) = true := by
    rcases hgone with hf | ⟨hv, he⟩
    · simp [hf]
    · simp [hv, he]
  refine congrArg Host.Outcome.next (command_done h ?_ rfl)
  simp only [passes_cons, passes_nil, and_true]
  exact ⟨reservedW_passes hw, (Bool.not_eq_false' _).mpr
    (Bool.and_eq_true_iff.mpr ⟨Bool.and_eq_true_iff.mpr ⟨beq_iff_eq.mpr hst, hpos⟩, hclear⟩)⟩

end

/-- Settles O50: each command by its checks and its effect; a move that joins or replaces by what is left of the queue. -/
theorem axisCommands : Obligations.AxisCommands := by
  refine ⟨fun k c s a h hb hw ha => ?view, fun k c s a h hb hw ha => ?viewClears,
    fun k c s a g h ha hg hw hdecay ht hb1 hb2 hc hw2 hi1 hi2 hv hd hf hw12 hst hop => ?config, repolar_sw,
    fun k c s a target h ha ht hw hmin hmax hv hop hcycle hst hlim => ?move, fun k c s a h ha hw hb u hu hl => ?stop,
    fun k c s a u h ha hw hop hst hcycle hpos hu => ?home,
    fun k c s q h hq hw h0 h3 hop hcfg hc0 hc1 hidle hout hl => ?seq, fun k c s p h => axSeqConfig_answers h,
    fun k c s a h => axClearFault_answers h⟩
  case view =>
    obtain ⟨hmask, hnum, hclear, -⟩ := pairOperand_fields a ha
    rw [← word_of_toNat hw] at hmask hnum hclear
    refine (axGetStatus_answers h hmask hb).trans ?_
    rw [hnum, hclear]
    rfl
  case viewClears =>
    obtain ⟨-, -, -, hmask, hnum, hclear⟩ := pairOperand_fields a ha
    rw [← word_of_toNat hw] at hmask hnum hclear
    refine (axGetStatus_answers h hmask hb).trans ?_
    rw [hnum, hclear]
    rfl
  case config =>
    subst ha hg
    exact axConfig_answers h ⟨hw, hdecay, ⟨ht, hb1, hb2, hc⟩, hw2, ⟨hi1, hi2⟩, hv, hd, hf, hw12, hst, hop⟩
  case move =>
    subst ht
    have hall : MoveAllowed c a s := ⟨ha, hw, hmin, hmax, hv, hop, hcycle, hst, hlim⟩
    refine ⟨fun n => axMove_blocked h hall, fun h0 hup => h0 ▸ moveInterlock_up hup,
      fun hn hout hroom => ⟨axMove_fault h hall hn hout hroom, fun hf u hu => ⟨fun hjoin => ?_, fun hrep hl => ?_⟩⟩⟩
    · refine (axMove_queues h hall hn hout hroom hf).trans ?_
      rw [hjoin, queueMove_joins, hu]
      rfl
    · have hlt : a < u.axes.ax.length := by rw [hl, ha]; exact axisNumber_lt _
      obtain ⟨hlen, hqueue, hcmd, hreplans⟩ := queueReplaced_axis (moveOf c).target hlt
      refine ⟨_, (axMove_queues h hall hn hout hroom hf).trans (by rw [hrep, queueMove_replaces, ← hu]),
        (queueReplaced_onlyChanges _ u).trans ((setAxis_onlyChanges a _ _).mono (by decide)), ?_⟩
      rw [axis_setAxis_same _ hlen]
      exact ⟨congrArg (· ++ [moveOf c]) hqueue, hcmd, hreplans⟩
  case stop =>
    subst ha hu
    exact ⟨_, axStop_answers h hw hb, axisStopped_onlyChanges _ _, axisStopped_axis _ (hl.symm ▸ axisNumber_lt _)⟩
  case home =>
    obtain rfl : u = homingBegun a c.tag (begun k s) := hu
    refine ⟨fun n hn => axHome_effect h ha hw hop hst hcycle hpos ?_, fun hn hout => axHome_effect h ha hw hop hst hcycle hpos ?_⟩
    · rw [hn]; rfl
    · rw [hn, completionsFull_passes hout]; rfl
  case seq =>
    obtain ⟨hstep, hjob, hlift, hcap⟩ := sequenceBegun_axes (q := seqOf c s) (s := begun k s) hl
    exact ⟨_, axSeq_answers h hq hw h0 h3 hop hcfg hc0 hc1 hidle hout, sequenceBegun_onlyChanges _, hstep,
      ⟨_, hjob, rfl, hq.symm, rfl⟩, hlift, hcap⟩

end Sys2Proof.Machine
end

section
/-!
PROOFS. Illumination and its commands (R392 to R394, R398, R399, R401 to R404, R407, R409).
-/
namespace Sys2Proof.Machine

/-! ## One chain of the two -/

section
variable {k : Nat} {s : State}

theorem chain_setChain_same {f : Chain → Chain} (h : k < s.lamp.chains.length) : (setChain k f s).chain k = f (s.chain k) := cell_upd_same f {} h

/-- Two changes of a chain that make the same of it are one. -/
theorem setChain_congr {f g : Chain → Chain} (h : f (s.chain k) = g (s.chain k)) : setChain k f s = setChain k g s := by
  unfold setChain
  rw [upd_congr (d := {}) h]

theorem chain_setChain_keeps {β : Type} (p : Chain → β) {f : Chain → Chain} (h : ∀ x, p (f x) = p x) (k j : Nat) (s : State) :
    p ((setChain k f s).chain j) = p (s.chain j) := cell_upd_keeps p h _ _ _ _

theorem setChain_length (k : Nat) (f : Chain → Chain) (s : State) : (setChain k f s).lamp.chains.length = s.lamp.chains.length := length_upd _ _ _

theorem chain_of_lamp {t : State} (h : t.lamp = s.lamp) (j : Nat) : t.chain j = s.chain j := by
  unfold State.chain
  rw [h]

end

/-! ## Frames (R392, R393) -/

theorem length_flatMap_const {α β : Type} {f : α → List β} {n : Nat} (h : ∀ x, (f x).length = n) (l : List α) :
    (l.flatMap f).length = n * l.length := by
  simp [List.length_flatMap, h, Nat.mul_comm]

/-- A share that loads nothing has 24 bytes (R393). -/
theorem shareOf_length (d drivers onTime derate : Nat) (off : Bool) : (shareOf d drivers onTime derate off none).length = 24 := by
  simp [shareOf, length_bytesLE, zeros]

/-- The bytes of a frame that loads nothing, its levels given: the header with H and S, and the shares. -/
def statusBytes (k : Nat) (levels : List Byte) (s : State) : List Byte :=
  bytesLE 1 (lvDrivers levels) ++ bytesLE 1 0 ++ (List.range (lvDrivers levels)).flatMap fun d =>
    let v := cell (s.chain k).drvs d {}
    shareOf d (lvDrivers levels) (lvOnTime levels) v.derate (s.host.opState == .safe || !(s.chain k).inUse || v.off) none

theorem statusBytes_length (k : Nat) (levels : List Byte) (s : State) : (statusBytes k levels s).length = 2 + 24 * lvDrivers levels := by
  have hshares := length_flatMap_const (fun d => shareOf_length d (lvDrivers levels) (lvOnTime levels) (cell (s.chain k).drvs d {}).derate
    (s.host.opState == .safe || !(s.chain k).inUse || (cell (s.chain k).drvs d {}).off)) (List.range (lvDrivers levels))
  simp only [statusBytes, List.length_append, length_bytesLE, hshares, List.length_range]

theorem statusBytes_second (k : Nat) (levels : List Byte) (s : State) : (statusBytes k levels s).getD 1 0 = 0 := rfl

theorem lampFrame_status (k : Nat) (s : State) : lampFrame k none s =
    emit (.lamp k (.frame (lanternPulses (statusBytes k (s.chain k).levels s)))) (awaitReturn k (lvDrivers (s.chain k).levels) s) := by
  have hlevels : (if (s.chain k).levels.isEmpty then (none : Option (List Byte)).getD [] else (s.chain k).levels) = (s.chain k).levels := by
    split
    next h => exact (List.isEmpty_iff.mp h).symm
    next => rfl
  unfold lampFrame
  dsimp only
  rw [hlevels]
  simp only [Option.getD_none, Option.isNone_none, Bool.and_true]
  rfl

section
variable {k : Fin 2} {s : State}

theorem lampStatusFrame_idle (h : (s.chain k).inUse = false ∨ (s.chain k).legacy = true ∨
      ((s.chain k).statusAt ≠ 0 ∧ s.pos.mono.toNat < (s.chain k).statusAt.toNat + 10000000)) : exec (.lampStatusFrame k) s = .next s := by
  refine congrArg _ (if_neg fun hdue => ?_)
  obtain ⟨huse, hleg, ht⟩ := hdue
  rcases h with h | h | ⟨h0, hlt⟩
  · exact absurd huse (by simp [h])
  · exact hleg h
  · exact ht.elim h0 (Nat.not_le.mpr hlt)

theorem lampStatusFrame_due (huse : (s.chain k).inUse = true) (hleg : (s.chain k).legacy = false)
    (ht : (s.chain k).statusAt = 0 ∨ (s.chain k).statusAt.toNat + 10000000 ≤ s.pos.mono.toNat) :
    ∃ b, exec (.lampStatusFrame k) s = .next (emit (.lamp k (.frame (lanternPulses b))) (awaitReturn k (lvDrivers (s.chain k).levels)
      (setChain k (fun c => { c with statusAt := s.pos.mono }) s))) ∧ b.length = 2 + 24 * lvDrivers (s.chain k).levels ∧ b.getD 1 0 = 0 := by
  have hlevels : ((setChain k (fun c => { c with statusAt := s.pos.mono }) s).chain k).levels = (s.chain k).levels := by
    refine chain_setChain_keeps Chain.levels ?_ k k s
    exact fun _ => rfl
  refine ⟨statusBytes k (s.chain k).levels (setChain k (fun c => { c with statusAt := s.pos.mono }) s), ?_, statusBytes_length _ _ _, statusBytes_second _ _ _⟩
  refine (congrArg Host.Outcome.next (if_pos ⟨huse, by simp [hleg], ht⟩)).trans (congrArg _ ?_)
  rw [lampFrame_status, hlevels]

end

/-! ## Derating and status words (R394, R401) -/

theorem judgeLevels_inForce {k : Nat} {s : State} (h : (s.chain k).levels ≠ []) (hl : (s.chain k).legacy = false) :
    judgeLevels k s = (s.chain k).levels := if_pos ⟨by simp [h], by simp [hl]⟩

theorem derateTarget_bounds (b : List Byte) (temp : Nat) : lvFloor b ≤ derateTarget b temp ∧ derateTarget b temp ≤ 255 := by
  have hfloor : lvFloor b < 256 := Nat.mod_lt _ (by decide)
  unfold derateTarget
  split
  · omega
  · exact ⟨le_max_left _ _, max_le (by omega) (by omega)⟩

theorem stepTo_moves (x y : Nat) : stepTo x y = y ∨ (x < y ∧ stepTo x y = x + 1) ∨ (y < x ∧ stepTo x y + 1 = x) := by
  unfold stepTo
  split
  · omega
  · split <;> omega

/-- What a right status word makes of what is known of its driver. -/
def Drv.reported (levels st : List Byte) (v : Drv) : Drv := {
  derate := stepTo v.derate (derateTarget levels (by8 st 0))
  off := if by8 st 0 ≥ lvTOff levels then true else if by8 st 0 + 10 < lvTOff levels then false else v.off
  status := st.take 8, pendOk := by8 st 1 / 2 % 2 == 1 }

section
variable {k d : Nat} {st : List Byte} {s : State}

theorem takeDriver_bad (h : le16 st 6 ≠ crc16 (bytesLE 1 d ++ st.take 6)) :
    takeDriver k d st s = setChain k (fun c => { c with statusBad := satAdd c.statusBad 1 }) s := if_pos h

/-- A right status word: its driver, and bits, events and records. -/
theorem takeDriver_good (h : le16 st 6 = crc16 (bytesLE 1 d ++ st.take 6)) : OnlyChanges logParts
    (setChain k (fun c => { c with drvs := upd c.drvs d (fun _ => (cell (s.chain k).drvs d {}).reported (judgeLevels k s) st) }) s)
    (takeDriver k d st s) := by
  have hstick : ∀ (x : Sticky) (t : State), OnlyChanges logParts t (stick x t) := fun x t => (stick_onlyChanges x t).mono (by decide)
  unfold takeDriver
  rw [if_neg (not_not.mpr h)]
  extract_lets c v temp old new fresh b off v1 s1 s2 s3 sets always s4
  have h2 : OnlyChanges logParts s1 s2 := by
    unfold s2
    split
    · exact hstick _ s1
    · exact .refl _ s1
  have h3 : OnlyChanges logParts s2 s3 := by
    unfold s3
    split
    · exact hstick _ s2
    · exact .refl _ s2
  have h4 : OnlyChanges logParts s3 s4 := by
    unfold s4
    split
    · exact .refl _ s3
    · exact event_onlyChanges _ s3
  refine ((h2.trans h3).trans h4).trans ?_
  split
  · exact stickEvent_onlyChanges _ _ s4
  · exact .refl _ s4

theorem takeDriver_onlyChanges : OnlyChanges (.lamp :: logParts) s (takeDriver k d st s) := by
  by_cases h : le16 st 6 = crc16 (bytesLE 1 d ++ st.take 6)
  · exact ((setChain_onlyChanges k _ s).mono (by decide)).trans ((takeDriver_good h).mono (by decide))
  · rw [takeDriver_bad h]
    exact (setChain_onlyChanges k _ s).mono (by decide)

/-- What the chip knows of driver i after a right status word of driver d. -/
theorem takeDriver_drvs (hk : k < s.lamp.chains.length) (h : le16 st 6 = crc16 (bytesLE 1 d ++ st.take 6)) :
    ((takeDriver k d st s).chain k).drvs = upd (s.chain k).drvs d (fun _ => (cell (s.chain k).drvs d {}).reported (judgeLevels k s) st) := by
  rw [chain_of_lamp (takeDriver_good h .lamp (by decide)).symm, chain_setChain_same hk]

end

/-! ## Return streams (R401, R403) -/

/-- A chain without what status words change of it. -/
def Chain.sansStatus (c : Chain) : Chain := { c with drvs := [], statusBad := 0 }

section
variable {k : Nat} {s : State}

theorem takeDriver_sansStatus (k d : Nat) (st : List Byte) (s : State) (j : Nat) :
    ((takeDriver k d st s).chain j).sansStatus = (s.chain j).sansStatus := by
  by_cases h : le16 st 6 = crc16 (bytesLE 1 d ++ st.take 6)
  · rw [chain_of_lamp (takeDriver_good h .lamp (by decide)).symm]
    refine chain_setChain_keeps Chain.sansStatus ?_ k j s
    exact fun _ => rfl
  · rw [takeDriver_bad h]
    refine chain_setChain_keeps Chain.sansStatus ?_ k j s
    exact fun _ => rfl

theorem takeDriver_length (k d : Nat) (st : List Byte) (s : State) : (takeDriver k d st s).lamp.chains.length = s.lamp.chains.length := by
  by_cases h : le16 st 6 = crc16 (bytesLE 1 d ++ st.take 6)
  · rw [← takeDriver_good h .lamp (by decide)]
    exact setChain_length k _ s
  · rw [takeDriver_bad h]
    exact setChain_length k _ s

/-- The status words of the first n drivers of a return stream. -/
def takeDrivers (k n : Nat) (sts : List (List Byte)) (s : State) : State := (List.range n).foldl (fun s d => takeDriver k d (cell sts d []) s) s

theorem takeDrivers_succ (k n : Nat) (sts : List (List Byte)) (s : State) :
    takeDrivers k (n + 1) sts s = takeDriver k n (cell sts n []) (takeDrivers k n sts s) := by
  unfold takeDrivers
  rw [List.range_succ, List.foldl_append]
  rfl

theorem takeDrivers_onlyChanges (n : Nat) (sts : List (List Byte)) : OnlyChanges (.lamp :: logParts) s (takeDrivers k n sts s) :=
  .foldl _ _ s fun _ _ => takeDriver_onlyChanges

theorem takeDrivers_sansStatus (n : Nat) (sts : List (List Byte)) (j : Nat) :
    ((takeDrivers k n sts s).chain j).sansStatus = (s.chain j).sansStatus := by
  induction n with
  | zero => rfl
  | succ n ih => rw [takeDrivers_succ, takeDriver_sansStatus, ih]

theorem takeDrivers_length (n : Nat) (sts : List (List Byte)) : (takeDrivers k n sts s).lamp.chains.length = s.lamp.chains.length := by
  induction n with
  | zero => rfl
  | succ n ih => rw [takeDrivers_succ, takeDriver_length, ih]

/-- Where every status word of a stream is right and has PENDING_OK, each of the drivers that it is about has it. -/
theorem takeDrivers_pendOk {n : Nat} {sts : List (List Byte)} (hk : k < s.lamp.chains.length)
    (h : ∀ d, d < n → le16 (cell sts d []) 6 = crc16 (bytesLE 1 d ++ (cell sts d []).take 6) ∧ by8 (cell sts d []) 1 / 2 % 2 = 1) :
    ∀ v ∈ ((takeDrivers k n sts s).chain k).drvs.take n, v.pendOk = true := by
  induction n with
  | zero => simp
  | succ n ih =>
    obtain ⟨hcrc, hpend⟩ := h n (Nat.lt_succ_self n)
    have hold := ih fun d hd => h d (Nat.lt_succ_of_lt hd)
    intro v hv
    rw [takeDrivers_succ, takeDriver_drvs ((takeDrivers_length n sts).symm ▸ hk) hcrc] at hv
    obtain ⟨i, hi, rfl⟩ := List.getElem_of_mem hv
    simp only [List.length_take, length_upd, lt_min_iff] at hi
    obtain ⟨hin, hlen⟩ := hi
    simp only [upd, List.getElem_take, List.getElem_modify]
    split
    · simpa [Drv.reported] using hpend
    next hne =>
      refine hold _ (List.mem_take_iff_getElem.mpr ⟨i, ?_, rfl⟩)
      omega

/-- One of the first n drivers is derated. -/
def Chain.derates (n : Nat) (c : Chain) : Bool := !c.legacy && (c.drvs.take n).any fun v => v.derate != 255

/-- The chain after the status words: PENDING_OK of a group's levels, of m drivers, and whether one derates. -/
def Chain.judged (m : Nat) (derating : Bool) (c : Chain) : Chain := { c with
  pendOk := c.pendGroup.isSome && (c.drvs.take m).all (·.pendOk), derating := derating }

end

section
variable {k : Fin 2} {h seen : Byte} {sts : List (List Byte)} {s : State}

theorem lanternReturnRx_unheard (hr : (s.chain k).returnBy = []) (hf : (s.chain k).frameH = 0 ∨ (s.chain k).legacy = true) :
    exec (.lanternReturnRx k h seen sts) s = .next s := by
  refine congrArg _ (if_pos ?_)
  unfold listens
  rcases hf with hf | hf <;> simp [hr, hf]

/-- The state in which a return stream has come in. -/
def streamSeen (k : Nat) (seen : Byte) (s : State) : State :=
  setChain k (fun c => { c with seen := seen.toNat % 64, returnBy := c.returnBy.drop 1 }) s

theorem lanternReturnRx_broken (hl : listens k s = true) (hbad : h ≠ 0 ∨ seen.toNat ≠ driversOf k s) :
    exec (.lanternReturnRx k h seen sts) s = .next (chainBroken k seen.toNat (streamSeen k seen s)) := by
  have hheard : ¬ (!listens k s) = true := by simp [hl]
  exact congrArg _ ((if_neg hheard).trans (if_pos hbad))

/-- A right stream: its status words are taken, the chain is judged by the drivers of the levels sent with LOAD, and the onset of derating is noted. -/
theorem lanternReturnRx_right {u : State} {m : Nat} (hl : listens k s = true) (h0 : h = 0) (hs : seen.toNat = driversOf k s)
    (hu : u = takeDrivers k (driversOf k s) sts (streamSeen k seen s))
    (hm : m = (((u.chain k).pendGroup.bind fun g => objOf (u.cg.group g).objs 13 k).map lvDrivers).getD (driversOf k s)) :
    ∃ t, exec (.lanternReturnRx k h seen sts) s = .next t ∧
      OnlyChanges logParts (setChain k (Chain.judged m ((u.chain k).derates (driversOf k s))) u) t := by
  have hheard : ¬ (!listens k s) = true := by simp [hl]
  have hgood : ¬ (h ≠ 0 ∨ seen.toNat ≠ driversOf k s) := by simp [h0, hs]
  have hcg : u.cg = s.cg := by
    rw [hu, ← takeDrivers_onlyChanges (driversOf k s) sts .cg (by decide)]
    rfl
  rw [hcg] at hm
  subst hu hm
  refine ⟨_, congrArg Host.Outcome.next ((if_neg hheard).trans (if_neg hgood)), ?_⟩
  dsimp only
  split
  · exact stickRec_onlyChanges _ _ _
  · exact .refl _ _

end

theorem returnStream_taken {k : Fin 2} {h seen : Byte} {sts : List (List Byte)} {s : State} (hl : listens k s = true) (h0 : h = 0)
    (hs : seen.toNat = driversOf k s) (hlen : s.lamp.chains.length = 2) :
    ∃ t, exec (.lanternReturnRx k h seen sts) s = .next t ∧ OnlyChanges [.host, .pers, .out, .lamp] s t ∧ (t.chain k).seen = seen.toNat % 64 ∧
      (t.chain k).returnBy = (s.chain k).returnBy.drop 1 ∧
      (t.chain k).levels = (s.chain k).levels ∧ (t.chain k).strobes = (s.chain k).strobes ∧ ((s.chain k).pendGroup = none → (t.chain k).pendOk = false) ∧
      (∀ g b, (s.chain k).pendGroup = some g → objOf (s.cg.group g).objs 13 k = some b → lvDrivers b ≤ driversOf k s →
        (∀ d, d < driversOf k s → le16 (cell sts d []) 6 = crc16 (bytesLE 1 d ++ (cell sts d []).take 6) ∧
          by8 (cell sts d []) 1 / 2 % 2 = 1) → (t.chain k).pendOk = true) := by
  obtain ⟨t, ht, hframe⟩ := lanternReturnRx_right (sts := sts) hl h0 hs rfl rfl
  generalize hu : takeDrivers k (driversOf k s) sts (streamSeen k seen s) = u at hframe
  have hin : k.val < (streamSeen k seen s).lamp.chains.length := by
    unfold streamSeen
    rw [setChain_length, hlen]
    exact k.isLt
  have hku : k.val < u.lamp.chains.length := by
    rw [← hu, takeDrivers_length]
    exact hin
  have hseen : (streamSeen k seen s).chain k = _ := chain_setChain_same (hlen.symm ▸ k.isLt)
  have hchain : (u.chain k).sansStatus = _ := (hu ▸ takeDrivers_sansStatus _ _ _).trans (congrArg Chain.sansStatus hseen)
  have hpg : (u.chain k).pendGroup = (s.chain k).pendGroup := (congrArg Chain.pendGroup hchain :)
  have hfu : OnlyChanges (.lamp :: logParts) s u :=
    hu ▸ ((setChain_onlyChanges k _ s).mono (by decide)).trans (takeDrivers_onlyChanges _ _)
  refine ⟨t, ht, (hfu.trans (((setChain_onlyChanges k _ u).mono (by decide)).trans (hframe.mono (by decide)))).mono (by decide), ?_⟩
  rw [chain_of_lamp (hframe .lamp (by decide)).symm, chain_setChain_same hku]
  refine ⟨(congrArg Chain.seen hchain :), (congrArg Chain.returnBy hchain :), (congrArg Chain.levels hchain :),
    (congrArg Chain.strobes hchain :), fun hnone => ?_, fun g b hg hb hle hall => ?_⟩
  · simp only [Chain.judged, hpg, hnone, Option.isSome_none, Bool.false_and]
  · have hlevels : objOf (u.cg.group g).objs 13 k = some b := by
      rw [← hfu .cg (by decide)]
      exact hb
    have hok := takeDrivers_pendOk hin hall
    rw [hu] at hok
    simp only [Chain.judged, hpg, hg, Option.isSome_some, Option.bind_some, hlevels, Option.map_some, Option.getD_some, Bool.true_and]
    exact List.all_eq_true.mpr fun v hv => hok v (List.take_subset_take_left _ hle hv)

/-! ## Timeouts (R403) -/

section
variable {k : Fin 2} {m t : Nat} {rest : List (Nat × Nat)} {s : State}

theorem lanternReturnTimeout_none (h : (s.chain k).returnBy = []) : exec (.lanternReturnTimeout k) s = .next s := by
  simp only [exec, execLanternReturnTimeout, h]

theorem lanternReturnTimeout_early (h : (s.chain k).returnBy = (m, t) :: rest) (ht : s.pos.mono.toNat < t) :
    exec (.lanternReturnTimeout k) s = .next s := by
  simp only [exec, execLanternReturnTimeout, h, Nat.not_le.mpr ht, if_false]

theorem lanternReturnTimeout_due (h : (s.chain k).returnBy = (m, t) :: rest) (ht : t ≤ s.pos.mono.toNat) :
    exec (.lanternReturnTimeout k) s = .next (chainBroken k (s.chain k).seen (setChain k (fun c => { c with returnBy := rest }) s)) := by
  simp only [exec, execLanternReturnTimeout, h, ht, if_true]

end

/-! ## Strobes (R398, R399, R404) -/

section
variable {k : Nat} {light on : Int} {s : State}

theorem strobe_dark (h : (s.chain k).inUse = false ∨ ((s.chain k).legacy = true ∧ s.host.opState = .safe)) : strobe k light s = s := by
  refine if_pos ?_
  rcases h with h | ⟨hl, ho⟩
  · simp [h]
  · simp [hl, ho]

theorem tooClose_iff (lit : List (Int × Int)) (light on : Int) :
    tooClose lit light on = false ↔ ∀ l ∈ lit, l.1 + l.2 + 1000 ≤ light ∨ light + on + 1000 ≤ l.1 := by
  unfold tooClose
  rw [List.any_eq_false]
  refine forall₂_congr fun l _ => ?_
  rw [decide_eq_true_eq]
  omega

theorem overDuty_false {lit : List (Int × Int)} (h : overDuty lit light on = false) : 4 * litIn ((light, on) :: lit) (light + on) ≤ 1000000 ∧
    ∀ l ∈ lit, light ≤ l.1 → 4 * litIn ((light, on) :: lit) (l.1 + l.2) ≤ 1000000 := by
  unfold overDuty at h
  simp only [List.any_eq_false, Bool.and_eq_true, decide_eq_true_eq, not_and, gt_iff_lt, not_lt] at h
  exact ⟨h (light, on) List.mem_cons_self le_rfl, fun l hl => h l (List.mem_cons_of_mem _ hl)⟩

section
variable (hk : k < s.lamp.chains.length) (huse : (s.chain k).inUse = true) (hleg : (s.chain k).legacy = false ∨ s.host.opState ≠ .safe)
  (hon : on = 10 * lvOnTime (s.chain k).levels)
include hk huse hleg hon

/-- A strobe that is withheld is counted, and noted with the bit of its reason. -/
theorem strobe_withheld (h : tooClose (s.chain k).lit light on = true ∨ overDuty (s.chain k).lit light on = true) :
    (strobe k light s).chain k = { s.chain k with skips := satAdd (s.chain k).skips 1 } := by
  have hrun : ¬ (!(s.chain k).inUse || ((s.chain k).legacy && s.host.opState == .safe)) = true := by
    rcases hleg with hleg | hleg <;> simp [huse, hleg]
  have hskip : ∀ x : Sticky, (stickRec x (setChain k (fun c => { c with skips := satAdd c.skips 1 }) s) (0x50 + k)).chain k =
      { s.chain k with skips := satAdd (s.chain k).skips 1 } := fun x => chain_setChain_same hk
  unfold strobe
  dsimp only
  rw [if_neg hrun, ← hon]
  split
  · exact hskip _
  next hclose =>
    rw [if_pos (h.resolve_left hclose)]
    exact hskip _

/-- A strobe that fits is counted and lights. -/
theorem strobe_lights (hclose : tooClose (s.chain k).lit light on = false) (hduty : overDuty (s.chain k).lit light on = false) :
    ((strobe k light s).chain k).strobes = satAdd (s.chain k).strobes 1 ∧ ((strobe k light s).chain k).skips = (s.chain k).skips ∧
      (light, on) ∈ ((strobe k light s).chain k).lit := by
  have hrun : ¬ (!(s.chain k).inUse || ((s.chain k).legacy && s.host.opState == .safe)) = true := by
    rcases hleg with hleg | hleg <;> simp [huse, hleg]
  unfold strobe
  dsimp only
  rw [if_neg hrun, ← hon, hclose, hduty]
  simp only [Bool.false_eq_true, if_false]
  split
  · rw [chain_of_lamp (emit_lamp _ _), chain_setChain_same ((setChain_length k _ s).symm ▸ hk), chain_setChain_same hk]
    exact ⟨rfl, rfl, List.mem_cons_self⟩
  · rw [chain_of_lamp (emit_lamp _ _), chain_setChain_same hk]
    exact ⟨rfl, rfl, List.mem_cons_self⟩

end

end

section
variable {k : Fin 2} {start stop : Int} {rest : List (Int × Int)} {s : State}

theorem legacyStrobeEnd_none (h : (s.chain k).legacyLights = []) : exec (.legacyStrobeEnd k) s = .next s := by
  simp only [exec, execLegacyStrobeEnd, h]

theorem legacyStrobeEnd_early (h : (s.chain k).legacyLights = (start, stop) :: rest) (ht : (s.pos.mono.toNat : Int) < stop) :
    exec (.legacyStrobeEnd k) s = .next s := by
  simp only [exec, execLegacyStrobeEnd, h, ht, if_true]

theorem legacyStrobeEnd_due (h : (s.chain k).legacyLights = (start, stop) :: rest) (ht : stop ≤ (s.pos.mono.toNat : Int)) :
    exec (.legacyStrobeEnd k) s = .next (emit (.lamp k (.latch stop (legacyZeros (s.chain k).levels))) (setChain k (fun c => { c with
      legacyLights := rest, lightOn := !rest.isEmpty, pattern := legacyZeros (s.chain k).levels }) s)) := by
  simp only [exec, execLegacyStrobeEnd, h, Int.not_lt.mpr ht, if_false]
  exact congrArg _ (congrArg _ (setChain_congr rfl))

end

theorem illumination : Claims.Illumination := by
  refine ⟨fun k s => lampStatusFrame_idle, fun k s huse hleg ht _ => lampStatusFrame_due huse hleg ht,
    fun k h seen sts s => lanternReturnRx_unheard, fun k h seen sts s u hl hu hbad => hu ▸ lanternReturnRx_broken hl hbad,
    fun k h seen sts s => returnStream_taken, fun k d st s _ _ => takeDriver_bad, fun k d st s v w hk hd hl hdl hcrc hv hw => ?driver,
    fun k s => judgeLevels_inForce, derateTarget_bounds, stepTo_moves, fun k s => lanternReturnTimeout_none,
    fun k m t rest s h => ⟨lanternReturnTimeout_early h, lanternReturnTimeout_due h⟩, fun k light s => strobe_dark, tooClose_iff,
    fun lit light on => overDuty_false, fun k light on s hk hl huse hleg hon => ⟨strobe_lights (by omega) huse hleg hon, fun h => ?withheld⟩,
    fun k s => legacyStrobeEnd_none, fun k start stop rest s z h hz => ⟨legacyStrobeEnd_early h, fun ht => hz ▸ legacyStrobeEnd_due h ht⟩⟩
  case driver =>
    rw [takeDriver_drvs (by omega) hcrc, cell_upd_same _ _ (by omega), ← hv] at hw
    subst hw
    refine ⟨rfl, fun h => if_pos h, fun h => ?_, fun hlt hle => ?_⟩
    · exact (if_neg (by omega)).trans (if_pos h)
    · exact (if_neg (by omega)).trans (if_neg (by omega))
  case withheld =>
    rw [strobe_withheld (by omega) huse hleg hon h]
    exact ⟨rfl, rfl, rfl⟩

/-! ## The commands (R402, R407, R409) -/

section
variable {k : Fin 16} {c : RungCmd} {s : State} {n : Nat}

theorem lampGetStatus_answers (h : Rung 0x0B00 1 k c s) (hw : c.w 0 &&& ~~~ 0x101 = 0) (hb : s.host.opState ≠ .boot) :
    execLampGetStatus k s = .next (respond k (okWith (lampView (s.chain (fld (c.w 0) 0 1)))) (if flag (c.w 0) 8 = true then
      setChain (fld (c.w 0) 0 1) (fun c => { c with strobes := 0, skips := 0, diagRuns := 0, statusBad := 0 }) (begun k s) else begun k s)) := by
  refine congrArg Host.Outcome.next (command_done h ?_ rfl)
  simp only [passes_cons, passes_nil, and_true]
  exact ⟨reservedW_passes hw, notBoot_passes hb⟩

/-- A chain is named by its number. -/
theorem chainNumber {w : Word} (h : w.toNat = n) (hn : n < 2) : fld w 0 1 = n ∧ w &&& ~~~ 1 = 0 :=
  ⟨by rw [fld_of_lt (n := 1) (by omega), h], reserved_clear (n := 1) (by omega)⟩

theorem lampDiagNow_answers (h : Rung 0x0B01 1 k c s) (hw : (c.w 0).toNat = n) (hn : n < 2)
    (hop : s.host.opState = .ready ∨ s.host.opState = .print) (huse : (s.chain n).inUse = true) (hleg : (s.chain n).legacy = false)
    (hrun : triggerRuns (s.chain n).camera s = true) :
    execLampDiagNow k s = .next (respond k ok (setChain n (fun c => { c with diagTries := some 0 }) (begun k s))) := by
  obtain ⟨rfl, hmask⟩ := chainNumber hw hn
  refine congrArg Host.Outcome.next (command_done h ?_ rfl)
  simp only [passes_cons, passes_nil, and_true]
  refine ⟨reservedW_passes hmask, ?_, Bool.or_eq_false_iff.mpr ⟨Bool.or_eq_false_iff.mpr ⟨(Bool.not_eq_false' _).mpr huse, hleg⟩,
    (Bool.not_eq_false' _).mpr hrun⟩⟩
  rcases hop with hop | hop <;> rw [hop] <;> rfl

theorem lampReadDrivers_answers (h : Rung 0x0B02 1 k c s) (hw : (c.w 0).toNat = n) (hn : n < 2) (hb : s.host.opState ≠ .boot) :
    execLampReadDrivers k s =
      .next (respond k (okWith (((s.chain n).drivers.take 30).flatMap fun v => bytesToWords v.status 0 2)) (begun k s)) := by
  obtain ⟨rfl, hmask⟩ := chainNumber hw hn
  refine congrArg Host.Outcome.next (command_done h ?_ rfl)
  simp only [passes_cons, passes_nil, and_true]
  exact ⟨reservedW_passes hmask, notBoot_passes hb⟩

theorem drivers_inForce {c : Chain} (hleg : c.legacy = false) (hl : c.levels ≠ []) : c.drivers = c.drvs.take (lvDrivers c.levels) := by
  simp [Chain.drivers, hleg, hl]

end

theorem lampCommands : Claims.LampCommands := by
  refine ⟨fun k c s n h hb hn => ⟨fun hw => ?view, fun hw => ?viewClears⟩, fun k c s n => lampDiagNow_answers,
    fun k c s n h hw hn hb => ⟨lampReadDrivers_answers h hw hn hb, drivers_inForce⟩⟩
  case view =>
    obtain ⟨hmask, hnum, hclear, -⟩ := pairOperand_fields n hn
    rw [← word_of_toNat hw] at hmask hnum hclear
    refine (lampGetStatus_answers h hmask hb).trans ?_
    rw [hnum, hclear]
    rfl
  case viewClears =>
    obtain ⟨-, -, -, hmask, hnum, hclear⟩ := pairOperand_fields n hn
    rw [← word_of_toNat hw] at hmask hnum hclear
    refine (lampGetStatus_answers h hmask hb).trans ?_
    rw [hnum, hclear]
    rfl

/-- Settles O51: a frame by its shares, a return stream driver by driver, a strobe by the lights around it, a command by its checks and its effect. -/
theorem lamps : Obligations.Lamps := ⟨illumination, lampCommands⟩

end Sys2Proof.Machine
end

section
/-!
PROOFS. The memory commands (R484, R494 to R496, R498), and what the requests at the DRAM controller leave as it is.
-/
namespace Sys2Proof.Machine

/-! ## What admitting and presenting leave -/

/-- The DRAM controller without its requests, their entries and the scrubber's place. -/
def Dram.sansReqs (d : Dram) : Dram := { d with reqs := [], nextReq := 0, scrub := 0, peak := 0 }

theorem admitOne_sansReqs (ids : List Nat) (d : Dram) : (ids.foldl admitOne d).sansReqs = d.sansReqs := by
  induction ids generalizing d with
  | nil => rfl
  | cons x xs ih => exact (ih _).trans rfl

theorem admitted_sansReqs (d : Dram) : (admitted d).sansReqs = d.sansReqs := (rfl : _ = _).trans (admitOne_sansReqs _ d)

theorem presentOne_sansReqs (mono : Dword) (ks : List (MemAsk × Bool)) (d : Dram) : (ks.foldl (presentOne mono) d).sansReqs = d.sansReqs := by
  induction ks generalizing d with
  | nil => rfl
  | cons x xs ih =>
    refine (ih _).trans ?_
    unfold presentOne
    split <;> rfl

theorem present_sansReqs (asks : List MemAsk) (s : State) : (present asks s).dram.sansReqs = s.dram.sansReqs :=
  (admitted_sansReqs _).trans (presentOne_sansReqs _ _ _)

theorem onlyChanges_dram (s : State) (d : Dram) : OnlyChanges [.dram] s { s with dram := d } := by
  intro p hp
  cases p <;> simp_all [State.agree]

theorem setDram_onlyChanges (f : Dram → Dram) (s : State) : OnlyChanges [.dram] s (setDram f s) := onlyChanges_dram s _

section
variable {k : Fin 16} {c : RungCmd} {s : State}

/-! ## MEM_GET_STATUS (R498) -/

theorem firstFlag_clear (hw : c.w 0 = 0) : flag (wd c.payload 0) 0 = false := congrArg (flag · 0) hw

theorem firstFlag_set (hw : c.w 0 = 1) : flag (wd c.payload 0) 0 = true := congrArg (flag · 0) hw

theorem memGetStatus_passes (hw : c.w 0 &&& ~~~ 1 = 0) (hb : s.host.opState ≠ .boot) : Passes [reservedW c.payload 0 1, notBoot s] := by
  simp only [passes_cons, passes_nil, and_true]
  exact ⟨reservedW_passes hw, notBoot_passes hb⟩

theorem memGetStatus_answers (h : Rung 0x0E00 1 k c s) (hb : s.host.opState ≠ .boot) (hw : c.w 0 = 0) :
    execMemGetStatus k s = .next (respond k (okWith (memView s.pos.mono s.dram)) (begun k s)) := by
  refine congrArg Host.Outcome.next (command_done h (memGetStatus_passes (by rw [hw]; rfl) hb) ?_)
  rw [firstFlag_clear hw]
  rfl

theorem memGetStatus_clears (h : Rung 0x0E00 1 k c s) (hb : s.host.opState ≠ .boot) (hw : c.w 0 = 1) :
    execMemGetStatus k s = .next (respond k (okWith (memView s.pos.mono s.dram)) { begun k s with dram := { s.dram with
      eccCorr := 0, eccUncorr := 0, refreshes := 0, promotions := 0, rtLatMax := 0, rtUnderruns := 0, peak := countIf s.dram.reqs (·.inEntry) } }) := by
  refine congrArg Host.Outcome.next (command_done h (memGetStatus_passes (by rw [hw]; rfl) hb) ?_)
  rw [firstFlag_set hw]
  rfl

/-! ## MEM_TRAIN (R495) -/

theorem beginPass_onlyChanges (tag : Option Word) (marginOnly : Bool) (s : State) : OnlyChanges [.dram, .free] s (beginPass tag marginOnly s) :=
  ((takeFree_onlyChanges s).mono (by decide)).trans ((onlyChanges_dram _ _).mono (by decide))

theorem beginPass_training (tag : Option Word) (marginOnly : Bool) (s : State) :
    (beginPass tag marginOnly s).dram.training = some (tag, marginOnly) := rfl

theorem beginPass_trainStep (tag : Option Word) (marginOnly : Bool) (s : State) :
    1 ≤ (beginPass tag marginOnly s).dram.trainStep ∧ (beginPass tag marginOnly s).dram.trainStep ≤ 7 := by
  have hmod : (takeFree s).1 % 7 < 7 := Nat.mod_lt _ (by decide)
  change 1 ≤ 1 + (takeFree s).1 % 7 ∧ 1 + (takeFree s).1 % 7 ≤ 7
  omega

theorem memTrain_begins (h : Rung 0x0E01 1 k c s) (hw : c.w 0 &&& ~~~ 1 = 0) (hrate : s.dram.ratePending = none) (htrain : s.dram.training = none)
    (hblock : memBlocked s = false) (hout : s.host.outst.length < 16) :
    ∃ t, execMemTrain k s = .next (respond k accepted t) ∧ OnlyChanges [.host, .dram, .free] (begun k s) t ∧
      t.dram.training = some (some c.tag, flag (c.w 0) 0) ∧ 1 ≤ t.dram.trainStep ∧ t.dram.trainStep ≤ 7 := by
  refine ⟨beginPass (some c.tag) (flag (c.w 0) 0) (outstand 0x0E01 c.tag 0 (begun k s)), congrArg Host.Outcome.next (command_done h ?_ rfl),
    ((outstand_onlyChanges _ _ _ _).mono (by decide)).trans ((beginPass_onlyChanges _ _ _).mono (by decide)), rfl, beginPass_trainStep _ _ _⟩
  simp only [passes_cons, passes_nil, and_true]
  exact ⟨reservedW_passes hw, by rw [hrate, htrain]; rfl, hblock, completionsFull_passes hout⟩

/-! ## MEM_SET_RATE (R494, R495) -/

/-- What lets a MEM_SET_RATE pass its checks. -/
structure RateAllowed (c : RungCmd) (r : Nat) (s : State) : Prop where
  /-- RATE. -/
  rate : (c.w 0).toNat = r
  /-- The highest rate that the PRF word allows. -/
  limit : r ≤ fld s.dram.config 4 2
  /-- No change of the rate is pending. -/
  free : s.dram.ratePending = none
  /-- The unit's state allows it. -/
  state : memBlocked s = false
  /-- A completion may be outstanding. -/
  completions : s.host.outst.length < 16

theorem RateAllowed.lt (ha : RateAllowed c r s) : (c.w 0).toNat < 2 ^ 2 :=
  ha.rate ▸ ha.limit.trans_lt (Nat.mod_lt _ (by decide))

theorem RateAllowed.field (ha : RateAllowed c r s) : fld (wd c.payload 0) 0 2 = r := (fld_of_lt ha.lt).trans ha.rate

theorem memSetRate_effect {t : State} {ans : Ans} (h : Rung 0x0E02 1 k c s) (ha : RateAllowed c r s)
    (he : (if r = s.dram.rate then done (complete 0x0E02 c.tag 0 (w32 r) 0 0 (outstand 0x0E02 c.tag 0 (begun k s)), accepted)
      else if s.dram.training.isSome then done (setDram (fun d => { d with discardPass := true })
        (setDram (fun d => { d with ratePending := some (c.tag, r) }) (outstand 0x0E02 c.tag 0 (begun k s))), deferred)
      else done (beginRate r (setDram (fun d => { d with ratePending := some (c.tag, r) }) (outstand 0x0E02 c.tag 0 (begun k s))), accepted)) =
        (t, some ans)) : execMemSetRate k s = .next (respond k ans t) := by
  refine congrArg Host.Outcome.next (command_done h ?_ ?_)
  · simp only [passes_cons, passes_nil, and_true, ha.field]
    exact ⟨reservedW_passes (reserved_clear (n := 2) ha.lt), decide_eq_false (Nat.not_lt.mpr ha.limit), by rw [ha.free]; rfl, ha.state,
      completionsFull_passes ha.completions⟩
  · rw [← he]
    simp only [ha.field]
    rfl

theorem memSetRate_same (h : Rung 0x0E02 1 k c s) (ha : RateAllowed c r s) (hr : r = s.dram.rate) : execMemSetRate k s =
    .next (respond k accepted (complete 0x0E02 c.tag 0 (w32 r) 0 0 (outstand 0x0E02 c.tag 0 (begun k s)))) :=
  memSetRate_effect h ha (if_pos hr)

theorem memSetRate_begins (h : Rung 0x0E02 1 k c s) (ha : RateAllowed c r s) (hr : r ≠ s.dram.rate) (ht : s.dram.training = none) :
    ∃ t, execMemSetRate k s = .next (respond k accepted t) ∧ t.dram.rate = r ∧ t.dram.oldRate = s.dram.rate ∧
      t.dram.ratePending = some (c.tag, r) ∧ t.dram.trained = false ∧ t.dram.training = some (none, false) :=
  ⟨_, memSetRate_effect h ha ((if_neg hr).trans (if_neg (by simp [ht]))), rfl, rfl, rfl, rfl, rfl⟩

theorem memSetRate_deferred (h : Rung 0x0E02 1 k c s) (ha : RateAllowed c r s) (hr : r ≠ s.dram.rate) (ht : s.dram.training.isSome = true) :
    ∃ t, execMemSetRate k s = .next (respond k deferred t) ∧ t.dram.rate = s.dram.rate ∧
      t.dram.ratePending = some (c.tag, r) ∧ t.dram.discardPass = true ∧ t.dram.training = s.dram.training :=
  ⟨_, memSetRate_effect h ha ((if_neg hr).trans (if_pos ht)), rfl, rfl, rfl, rfl⟩

/-! ## MEM_CLASS_CONFIG (R484) -/

theorem memClassConfig_answers {r : Nat} (h : Rung 0x0E03 2 k c s) (hw : (c.w 0).toNat = r) (hlow : 3 ≤ r) (hhigh : r ≤ 8)
    (hage : 250 ≤ (c.w 1).toNat) (hbits : (c.w 1).toNat < 65536) (hb : s.host.opState ≠ .boot) :
    execMemClassConfig k s = .next (respond k ok { begun k s with dram := { s.dram with age := upd s.dram.age r (fun _ => (c.w 1).toNat) } }) := by
  have hlt : (c.w 0).toNat < 2 ^ 4 := by omega
  have hfld : fld (wd c.payload 0) 0 4 = r := (fld_of_lt hlt).trans hw
  have hfldAge : fld (wd c.payload 1) 0 16 = (c.w 1).toNat := fld_of_lt hbits
  refine congrArg Host.Outcome.next (command_done h ?_ ?_)
  · simp only [passes_cons, passes_nil, and_true, hfld, hfldAge]
    exact ⟨reservedW_passes (reserved_clear (n := 4) hlt), decide_eq_false (by omega), reservedW_passes (reserved_clear (n := 16) hbits),
      decide_eq_false (by omega), notBoot_passes hb⟩
  · simp only [hfld, hfldAge]
    rfl

/-! ## MEM_ECC_INJECT (R498) -/

/-- What a correction or an uncorrectable word changes beside the DRAM controller: the logs. -/
def eccParts : List Part := [.host, .pers, .out, .dram]

theorem present_onlyChanges (asks : List MemAsk) (s : State) : OnlyChanges [.dram] s (present asks s) := setDram_onlyChanges _ s

theorem eccCorrected_onlyChanges (word : Nat) (s : State) : OnlyChanges eccParts s (eccCorrected word s) :=
  (((setDram_onlyChanges _ s).mono (by decide)).trans ((stickRec_onlyChanges _ _ _).mono (by decide))).trans
    ((present_onlyChanges _ _).mono (by decide))

theorem eccUncorrectable_onlyChanges (requester : Nat) (addr : Word) (s : State) : OnlyChanges eccParts s (eccUncorrectable requester addr s) :=
  ((setDram_onlyChanges _ s).mono (by decide)).trans ((stickEvent_onlyChanges _ _ _).mono (by decide))

theorem eccCorrected_dram (word : Nat) (s : State) :
    (eccCorrected word s).dram.sansReqs = { s.dram.sansReqs with eccCorr := satAdd s.dram.eccCorr 1, corrSince := s.dram.corrSince + 1 } :=
  present_sansReqs _ _

theorem memEccInject_passes (hunit : (c.w 1).toNat % 64 = 0) (hoff : (c.w 1).toNat < 2 ^ 20) (hf : s.host.firing = false)
    (hw : c.w 0 &&& ~~~ 1 = 0) : Passes [reservedW c.payload 0 1, (wn c.payload 1 % 64 != 0 || decide (wn c.payload 1 ≥ 2 ^ 20), badParam 1),
      (s.host.firing, badState)] := by
  simp only [passes_cons, passes_nil, and_true]
  exact ⟨reservedW_passes hw, Bool.or_eq_false_iff.mpr ⟨bne_eq_false_iff_eq.mpr hunit, decide_eq_false (Nat.not_le.mpr hoff)⟩, hf⟩

theorem memEccInject_one (h : Rung 0x0E04 2 k c s) (hunit : (c.w 1).toNat % 64 = 0) (hoff : (c.w 1).toNat < 2 ^ 20) (hf : s.host.firing = false)
    (hw : c.w 0 = 0) : ∃ t, execMemEccInject k s = .next (respond k (okWith [1]) t) ∧ t.dram.eccCorr = satAdd s.dram.eccCorr 1 ∧
      t.dram.eccUncorr = s.dram.eccUncorr ∧ OnlyChanges eccParts (begun k s) t := by
  have hd := eccCorrected_dram (8 * (trainingAddr s.dram.config (c.w 1).toNat).toNat) (begun k s)
  refine ⟨_, congrArg Host.Outcome.next (command_done h (memEccInject_passes hunit hoff hf (by rw [hw]; rfl)) ?_), (congrArg Dram.eccCorr hd :),
    (congrArg Dram.eccUncorr hd :), eccCorrected_onlyChanges _ _⟩
  rw [firstFlag_clear hw]
  rfl

theorem memEccInject_two (h : Rung 0x0E04 2 k c s) (hunit : (c.w 1).toNat % 64 = 0) (hoff : (c.w 1).toNat < 2 ^ 20) (hf : s.host.firing = false)
    (hw : c.w 0 = 1) : ∃ t, execMemEccInject k s = .next (respond k (okWith [2]) t) ∧ t.dram.eccUncorr = satAdd s.dram.eccUncorr 1 ∧
      t.dram.eccAddr = trainingAddr s.dram.config (c.w 1).toNat ∧ OnlyChanges eccParts (begun k s) t := by
  refine ⟨eccUncorrectable 9 (trainingAddr s.dram.config (c.w 1).toNat) (begun k s),
    congrArg Host.Outcome.next (command_done h (memEccInject_passes hunit hoff hf (by rw [hw]; rfl)) ?_), rfl, rfl,
    eccUncorrectable_onlyChanges _ _ _⟩
  rw [firstFlag_set hw]
  rfl

end

/-- Settles O58: each memory command passes its checks under the premises of its clause, and its effect is the one stated. -/
theorem memoryCommands : Obligations.MemoryCommands := by
  unfold Obligations.MemoryCommands
  refine ⟨?status, ?train, ?rate, ?age, ?inject⟩
  case status => exact fun k c s h hb => ⟨memGetStatus_answers h hb, memGetStatus_clears h hb⟩
  case train => exact fun k c s h hw hrate htrain hblock hout => memTrain_begins h hw hrate htrain hblock hout
  case rate =>
    intro k c s r h hw hlimit hfree hblock hout
    have ha : RateAllowed c r s := ⟨hw, hlimit, hfree, hblock, hout⟩
    exact ⟨memSetRate_same h ha, memSetRate_begins h ha, memSetRate_deferred h ha⟩
  case age => exact fun k c s r h hw hlow hhigh hage hbits hb => memClassConfig_answers h hw hlow hhigh hage hbits hb
  case inject => exact fun k c s h hunit hoff hf => ⟨memEccInject_one h hunit hoff hf, memEccInject_two h hunit hoff hf⟩

end Sys2Proof.Machine
end

section
/-!
PROOFS. Calibration sets and the persistence commands (R510 to R515, R524, R526).
-/
namespace Sys2Proof.Machine

/-! ## Flags that later events keep -/

namespace Log
variable (l : Log)

theorem signal_stkSame (now : Bool) (i : Word) (v : Nat) : (l.signal now i v).host.stk = l.host.stk := by
  unfold signal
  dsimp only
  split
  · exact (send_slots v _).2.2
  · rfl

theorem enqueue_stkSame (line : Word) (code source sev : Nat) (tag p0 p1 p2 w7 : Word) :
    (l.enqueue line code source sev tag p0 p1 p2 w7).host.stk = l.host.stk := by
  unfold enqueue
  dsimp only
  split
  · exact signal_stkSame _ _ _ _
  · exact signal_stkSame _ _ _ _
  · exact (signal_stkSame _ _ _ _).trans (signal_stkSame _ _ _ _)

variable {l} {n b : Nat}

theorem stickRec_keepsFlag (line : Word) (k : Sticky) (source : Nat) (h : flag (wd l.host.stk n) b = true) (hs : l.host.StkSound) :
    flag (wd (l.stickRec line k source).host.stk n) b = true := by
  unfold stickRec
  split
  · exact h
  · exact record_keepsFlag _ (stick_keepsFlag k h hs) (Log.stick_stk k l hs)

theorem queueEvent_keepsFlag (line : Word) (e : Event) (h : flag (wd l.host.stk n) b = true) (hs : l.host.StkSound) :
    flag (wd (l.queueEvent line e).host.stk n) b = true := by
  unfold queueEvent
  dsimp only
  split
  · exact h
  · split
    · rwa [enqueue_stkSame]
    · exact stickRec_keepsFlag line .evqOverflow 0 h hs

end Log

theorem stickEvent_sets {k : Sticky} (e : Event) {s : State} (hd : flag (wd Config.stkDefined k.n) k.b = true) (hs : s.StkSound) :
    flag (wd (stickEvent k e s).host.stk k.n) k.b = true := by
  have hl : s.log.host.StkSound := hs
  have hstick := Log.stick_stk k s.log hl
  exact Log.event_keepsFlag _ (Log.queueEvent_keepsFlag _ _ (Log.stick_sets hd hl) hstick) (Log.queueEvent_stk _ _ _ hstick)

theorem complete_stkSame (opcode : Nat) (tag : Word) (status : Nat) (p0 p1 p2 : Word) (s : State) :
    (complete opcode tag status p0 p1 p2 s).host.stk = s.host.stk := by
  unfold complete
  split
  · rfl
  · exact Log.enqueue_stkSame _ _ _ _ _ _ _ _ _ _

/-! ## Commit records (R511, R515) -/

theorem recordValid_zeros : recordValid (List.replicate 16 0) = false := rfl

theorem slotGen_invalid (t : SetSlot) : slotGen t.invalid = 0 := if_neg (by rw [SetSlot.invalid, recordValid_zeros]; decide)

theorem commitRecord_valid {g e l : Word} {m : Nat} {objs : List Obj} (hm : m ∈ [4, 8, 12, 16]) :
    recordValid (commitRecord g e l m objs) = true := by
  have hmodules : fld (w32 m) 0 5 = m := by
    simp only [List.mem_cons, List.not_mem_nil, or_false] at hm
    rcases hm with rfl | rfl | rfl | rfl <;> rfl
  have hfitted : [4, 8, 12, 16].contains (fld (wd (commitRecord g e l m objs) 4) 0 5) = true :=
    List.contains_iff_mem.mpr ((congrArg (· ∈ [4, 8, 12, 16]) hmodules).mpr hm)
  unfold recordValid
  rw [hfitted, Bool.and_true]
  exact Bool.and_eq_true_iff.mpr ⟨rfl, beq_self_eq_true _⟩

theorem writeTarget_bothValid {p : Pers} (hA : recordValid p.slotA.commit = true) (hB : recordValid p.slotB.commit = true) :
    writeTarget p = decide (slotGen p.slotB ≤ slotGen p.slotA) := by
  simp [writeTarget, hA, hB]

theorem writeTarget_invalidA {p : Pers} (hA : recordValid p.slotA.commit = false) : writeTarget p = false := by
  simp [writeTarget, hA]

theorem writeTarget_invalidB {p : Pers} (hA : recordValid p.slotA.commit = true) (hB : recordValid p.slotB.commit = false) :
    writeTarget p = true := by
  simp [writeTarget, hA, hB]

/-! ## A set write starts (R513, R514) -/

/-- The slot of a job holds an invalid record, and the other one what it held. -/
def slotLost (b : Bool) (p q : Pers) : Prop :=
  if b then slotGen q.slotB = 0 ∧ q.slotA = p.slotA else slotGen q.slotA = 0 ∧ q.slotB = p.slotB

theorem slotLost_invalid {b : Bool} {p q : Pers} (hA : q.slotA = (setSlot b SetSlot.invalid p).slotA)
    (hB : q.slotB = (setSlot b SetSlot.invalid p).slotB) : slotLost b p q := by
  unfold slotLost
  rw [hA, hB]
  cases b
  · exact ⟨slotGen_invalid _, rfl⟩
  · exact ⟨slotGen_invalid _, rfl⟩

theorem setWriteStart_idle {s : State} (h : s.pers.pendWrite = false ∨ s.pers.writing.isSome = true ∨ setMinPassed s = false) :
    execSetWriteStart s = .next s := by
  refine congrArg Host.Outcome.next (if_neg ?_)
  rintro ⟨hpend, hnone, hmin⟩
  rcases h with h | h | h
  · simp [h] at hpend
  · simp [Option.isNone_iff_eq_none.mp hnone] at h
  · simp [h] at hmin

theorem setWriteStart_starts {s : State} (hpend : s.pers.pendWrite = true) (hnone : s.pers.writing = none) (hmin : setMinPassed s = true) :
    ∃ t j, execSetWriteStart s = .next t ∧ OnlyChanges [.pers] s t ∧ t.pers.writing = some j ∧
      j.slot = writeTarget s.pers ∧ j.gen = w32 (max (slotGen s.pers.slotA) (slotGen s.pers.slotB) + 1) ∧ j.image = s.pers.image ∧
      j.tags = s.pers.pendTags ∧ t.pers.pendWrite = false ∧ slotLost j.slot s.pers t.pers :=
  ⟨startSetWrite s.pers.pendTags s, _, congrArg Host.Outcome.next (if_pos ⟨hpend, Option.isNone_iff_eq_none.mpr hnone, hmin⟩),
    onlyChanges_pers _ _, rfl, rfl, rfl, rfl, rfl, rfl, slotLost_invalid rfl rfl⟩

/-! ## A set write ends (R513) -/

theorem setWriteDone_idle {copied committed : Bool} {s : State} (h : s.pers.writing = none ∨ s.host.berylRunning = false) :
    execSetWriteDone copied committed s = .next s := by
  refine congrArg Host.Outcome.next ?_
  rcases h with h | h
  · rw [h]
    exact ite_self s
  · exact if_pos (by simp [h])

theorem completeSet_keeps (tags : List Word) (status : Nat) (p0 p1 : Word) (s : State) : s.Keeps (completeSet tags status p0 p1 s) :=
  .foldl _ _ _ fun t _ => complete_keeps t _ _ _ _ _ _

theorem completeSet_onlyChanges (tags : List Word) (status : Nat) (p0 p1 : Word) (s : State) :
    OnlyChanges logParts s (completeSet tags status p0 p1 s) :=
  .foldl _ tags s fun t x => complete_onlyChanges 0x0E11 x status p0 p1 0 t

theorem completeSet_stkSame (tags : List Word) (status : Nat) (p0 p1 : Word) (s : State) :
    (completeSet tags status p0 p1 s).host.stk = s.host.stk :=
  List.foldlRecOn (motive := fun t : State => t.host.stk = s.host.stk) tags _ rfl fun _ ht _ _ => (complete_stkSame _ _ _ _ _ _ _).trans ht

section
variable {j : SetJob} {s : State}

/-- The state in which job j has failed at a step: its slot is invalid, and the commands that asked for it have completed. -/
def setFailed (j : SetJob) (step : Word) (s : State) : State :=
  completeSet j.tags 0x30 step 0 (stickEvent .setWriteFail { ev := .setWriteFailed, p0 := w32 (b2n j.slot), p1 := step }
    { s with pers := { setSlot j.slot SetSlot.invalid s.pers with writing := none } })

theorem setWriteDone_fails {copied committed : Bool} (hrun : s.host.berylRunning = true) (hj : s.pers.writing = some j)
    (h : copied = false ∨ committed = false) : ∃ step, execSetWriteDone copied committed s = .next (setFailed j step s) := by
  unfold execSetWriteDone
  rw [if_neg (by simp [hrun]), hj]
  cases copied
  · exact ⟨w32 4, rfl⟩
  · obtain rfl : committed = false := h.resolve_left (by decide)
    exact ⟨w32 5, rfl⟩

theorem setFailed_quiet (j : SetJob) (step : Word) (s : State) :
    (setFailed j step s).pers.quiet = ({ setSlot j.slot SetSlot.invalid s.pers with writing := none } : Pers).quiet :=
  ((stickEvent_keeps _ _ _).trans (completeSet_keeps _ _ _ _ _)).pers

theorem setFailed_onlyChanges (j : SetJob) (step : Word) (s : State) : OnlyChanges logParts s (setFailed j step s) :=
  ((onlyChanges_pers s _).mono (by decide)).trans ((stickEvent_onlyChanges _ _ _).trans (completeSet_onlyChanges _ _ _ _ _))

theorem setFailed_sticky (j : SetJob) (step : Word) (hs : s.StkSound) :
    flag (wd (setFailed j step s).host.stk Sticky.setWriteFail.n) Sticky.setWriteFail.b = true := by
  unfold setFailed
  rw [completeSet_stkSame]
  exact stickEvent_sets _ (by decide) hs

theorem setFailed_lost (j : SetJob) (step : Word) (s : State) : slotLost j.slot s.pers (setFailed j step s).pers := by
  have hq := setFailed_quiet j step s
  exact slotLost_invalid (congrArg Pers.slotA hq :) (congrArg Pers.slotB hq :)

theorem setWriteDone_failed {copied committed : Bool} (hrun : s.host.berylRunning = true) (hj : s.pers.writing = some j)
    (h : copied = false ∨ committed = false) : ∃ t, execSetWriteDone copied committed s = .next t ∧ t.pers.writing = none ∧
      (s.StkSound → flag (wd t.host.stk Sticky.setWriteFail.n) Sticky.setWriteFail.b = true) ∧ OnlyChanges logParts s t ∧
      slotLost j.slot s.pers t.pers := by
  obtain ⟨step, he⟩ := setWriteDone_fails hrun hj h
  exact ⟨_, he, (congrArg Pers.writing (setFailed_quiet j step s) :), setFailed_sticky j step, setFailed_onlyChanges j step s, setFailed_lost j step s⟩

/-- What a job writes into its slot: the copied state under its generation. -/
def SetSlot.written (j : SetJob) (t : SetSlot) : SetSlot :=
  { t with commit := commitRecord j.gen j.epoch j.line j.modules j.image, objs := j.image, writes := t.writes + 1 }

theorem setWriteDone_succeeds (hrun : s.host.berylRunning = true) (hj : s.pers.writing = some j) : ∃ t, execSetWriteDone true true s = .next t ∧
    t.pers.quiet = ({ setSlot j.slot (SetSlot.written j) s.pers with writing := none } : Pers).quiet ∧ OnlyChanges logParts s t := by
  unfold execSetWriteDone
  rw [if_neg (by simp [hrun]), hj]
  exact ⟨_, rfl, ((event_keeps _ _).trans (completeSet_keeps _ _ _ _ _)).pers,
    ((onlyChanges_pers s _).mono (by decide)).trans ((event_onlyChanges _ _).trans (completeSet_onlyChanges _ _ _ _ _))⟩

theorem setWriteDone_slotB (hrun : s.host.berylRunning = true) (hj : s.pers.writing = some j) (hb : j.slot = true) :
    ∃ t, execSetWriteDone true true s = .next t ∧ t.pers.writing = none ∧ t.pers.slotA = s.pers.slotA ∧ t.pers.slotB.objs = j.image ∧
      t.pers.slotB.writes = s.pers.slotB.writes + 1 ∧ t.pers.slotB.commit = commitRecord j.gen j.epoch j.line j.modules j.image ∧
      OnlyChanges logParts s t := by
  obtain ⟨t, he, hq, ho⟩ := setWriteDone_succeeds hrun hj
  rw [hb] at hq
  have hslot : t.pers.slotB = s.pers.slotB.written j := (congrArg Pers.slotB hq :)
  exact ⟨t, he, (congrArg Pers.writing hq :), (congrArg Pers.slotA hq :), hslot ▸ rfl, hslot ▸ rfl, hslot ▸ rfl, ho⟩

theorem setWriteDone_slotA (hrun : s.host.berylRunning = true) (hj : s.pers.writing = some j) (hb : j.slot = false) :
    ∃ t, execSetWriteDone true true s = .next t ∧ t.pers.writing = none ∧ t.pers.slotB = s.pers.slotB ∧ t.pers.slotA.objs = j.image ∧
      t.pers.slotA.writes = s.pers.slotA.writes + 1 ∧ t.pers.slotA.commit = commitRecord j.gen j.epoch j.line j.modules j.image ∧
      OnlyChanges logParts s t := by
  obtain ⟨t, he, hq, ho⟩ := setWriteDone_succeeds hrun hj
  rw [hb] at hq
  have hslot : t.pers.slotA = s.pers.slotA.written j := (congrArg Pers.slotA hq :)
  exact ⟨t, he, (congrArg Pers.writing hq :), (congrArg Pers.slotB hq :), hslot ▸ rfl, hslot ▸ rfl, hslot ▸ rfl, ho⟩

end

theorem calibrationSets : Claims.CalibrationSets := by
  unfold Claims.CalibrationSets
  refine ⟨?idle, ?starts, ?idleDone, ?slotB, ?slotA, ?failed, ?record, ?bothValid, ?invalidA, ?invalidB⟩
  case idle => exact fun s h => setWriteStart_idle h
  case starts => exact fun s hpend hnone hmin => setWriteStart_starts hpend hnone hmin
  case idleDone => exact fun c k s h => setWriteDone_idle h
  case slotB => exact fun j s hrun hj hb => setWriteDone_slotB hrun hj hb
  case slotA => exact fun j s hrun hj hb => setWriteDone_slotA hrun hj hb
  case failed => exact fun j c k s hrun hj h => setWriteDone_failed hrun hj h
  case record => exact fun g e l m objs hm => ⟨commitRecord_valid hm, rfl⟩
  case bothValid => exact fun p hA hB => writeTarget_bothValid hA hB
  case invalidA => exact fun p hA => writeTarget_invalidA hA
  case invalidB => exact fun p hA hB => writeTarget_invalidB hA hB

/-! ## The commands (R526) -/

section
variable {k : Fin 16} {c : RungCmd} {s u : State}

theorem persGetStatus_answers (h : Rung 0x0E10 0 k c s) (hb : s.host.opState ≠ .boot) :
    execPersGetStatus k s = .next (respond k (okWith (s.pers.wear.map wearReg ++ setView s.pers ++
      [s.pers.almNext, almOldest s.pers, s.pers.almSuppressed, s.pers.opMinutes, s.pers.powerCycles])) (begun k s)) := by
  refine congrArg Host.Outcome.next (command_done h ?_ rfl)
  simp only [passes_cons, passes_nil, and_true]
  exact notBoot_passes hb

/-- The state in which a PERS_SET_WRITE has copied the state in force and its completion is outstanding (R512). -/
def imaged (tag : Word) (s : State) : State :=
  outstand 0x0E11 tag 0 { s with pers := { s.pers with
    image := setObjects s, imageLine := 0xFFFFFFFF, imageEpoch := s.cg.epochNow, imageModules := s.cg.modules } }

theorem persSetWrite_effect {t : State} {ans : Ans} (h : Rung 0x0E11 0 k c s)
    (hop : s.host.opState = .ready ∨ s.host.opState = .print ∨ s.host.opState = .service) (hout : s.host.outst.length < 16)
    (he : requestSetWrite [c.tag] (imaged c.tag (begun k s)) = t)
    (ha : (if (s.pers.writing.isNone && setMinPassed s && !s.pers.pendWrite) = true then accepted else deferred) = ans) :
    execPersSetWrite k s = .next (respond k ans t) := by
  refine congrArg Host.Outcome.next (command_done h ?_ (Prod.ext he (congrArg some ha)))
  simp only [passes_cons, passes_nil, and_true]
  refine ⟨?_, completionsFull_passes hout⟩
  rcases hop with hop | hop | hop <;> rw [hop] <;> rfl

theorem persSetWrite_starts (h : Rung 0x0E11 0 k c s) (hop : s.host.opState = .ready ∨ s.host.opState = .print ∨ s.host.opState = .service)
    (hout : s.host.outst.length < 16) (hnone : s.pers.writing = none) (hmin : setMinPassed s = true) (hpend : s.pers.pendWrite = false) :
    execPersSetWrite k s = .next (respond k accepted (startSetWrite [c.tag] (imaged c.tag (begun k s)))) :=
  persSetWrite_effect h hop hout
    (if_pos ⟨Option.isNone_iff_eq_none.mpr hnone, hmin, Bool.eq_false_iff.mp hpend⟩) (if_pos (by simp [hnone, hmin, hpend]))

theorem persSetWrite_deferred (h : Rung 0x0E11 0 k c s) (hop : s.host.opState = .ready ∨ s.host.opState = .print ∨ s.host.opState = .service)
    (hout : s.host.outst.length < 16) (hu : u = imaged c.tag (begun k s))
    (hd : s.pers.writing.isSome = true ∨ setMinPassed s = false ∨ s.pers.pendWrite = true) :
    execPersSetWrite k s = .next (respond k deferred { u with pers := { u.pers with pendWrite := true, pendTags := s.pers.pendTags ++ [c.tag] } }) := by
  subst hu
  have hnot : ¬ (s.pers.writing.isNone = true ∧ setMinPassed s = true ∧ ¬ s.pers.pendWrite = true) := by
    rintro ⟨hnone, hmin, hpend⟩
    rcases hd with hd | hd | hd
    · simp [Option.isNone_iff_eq_none.mp hnone] at hd
    · simp [hd] at hmin
    · exact hpend hd
  refine persSetWrite_effect h hop hout (if_neg hnot) (if_neg ?_)
  simpa [and_assoc] using hnot

theorem persSetInvalidate_answers {n : Nat} (h : Rung 0x0E12 1 k c s) (hw : (c.w 0).toNat = n) (hlow : 1 ≤ n) (hhigh : n ≤ 3)
    (hnone : s.pers.writing = none) (hb : s.host.opState ≠ .boot) : execPersSetInvalidate k s = .next (respond k ok { begun k s with pers := { s.pers with
      slotA := if n = 2 then s.pers.slotA else s.pers.slotA.invalid, slotB := if n = 1 then s.pers.slotB else s.pers.slotB.invalid } }) := by
  have hlt : (c.w 0).toNat < 2 ^ 2 := by omega
  have hfld : fld (wd c.payload 0) 0 2 = n := (fld_of_lt hlt).trans hw
  refine congrArg Host.Outcome.next (command_done h ?_ ?_)
  · simp only [passes_cons, passes_nil, and_true, hfld]
    exact ⟨beq_eq_false_iff_ne.mpr (by omega), reservedW_passes (reserved_clear (n := 2) hlt), by rw [hnone], notBoot_passes hb⟩
  · have hword : wd c.payload 0 = BitVec.ofNat 32 n := word_of_toNat hw
    rw [hword]
    obtain rfl | rfl | rfl : n = 1 ∨ n = 2 ∨ n = 3 := by omega
    · rfl
    · rfl
    · rfl

end

theorem persistenceCommands : Claims.PersistenceCommands := by
  unfold Claims.PersistenceCommands
  refine ⟨?status, ?write, ?invalidate⟩
  case status => exact fun k c s h hb => persGetStatus_answers h hb
  case write =>
    intro k c s u h hop hout hu
    refine ⟨fun hnone hmin hpend => ?_, persSetWrite_deferred h hop hout hu⟩
    rw [hu]
    exact persSetWrite_starts h hop hout hnone hmin hpend
  case invalidate => exact fun k c s n h hw hlow hhigh hnone hb => persSetInvalidate_answers h hw hlow hhigh hnone hb

/-- Settles O60: a set write goes through its start and its end, and each command passes its checks. -/
theorem setsAndPersistence : Obligations.SetsAndPersistence := ⟨calibrationSets, persistenceCommands⟩

end Sys2Proof.Machine
end

section
/-!
PROOFS. Persistent words and the Almanac (R500, R502 to R508, R519 to R522, R526).
-/
namespace Sys2Proof.Machine

/-! ## Wear counters (R506) -/

/-- Persistent storage without the recording queue and without the wear counters. -/
def Pers.sansWear (p : Pers) : Pers := { p.quiet with wear := [], wearStore := [], clean := false, wearLimitSeen := 0 }

theorem sansWear_of_quiet {p q : Pers} (h : p.quiet = q.quiet) : p.sansWear = q.sansWear :=
  (congrArg (fun r : Pers => { r with wear := [], wearStore := [], clean := false, wearLimitSeen := 0 }) h :)

/-- Words, wear counters and the last refresh are none of the recording queue's. -/
theorem sansQueue_of_quiet {p q : Pers} (h : p.quiet = q.quiet) : p.prf = q.prf ∧ p.wear = q.wear ∧ p.refreshMin = q.refreshMin :=
  ⟨(congrArg Pers.prf h :), (congrArg Pers.wear h :), (congrArg Pers.refreshMin h :)⟩

theorem refreshMin_of_sansWear {p q : Pers} (h : p.sansWear = q.sansWear) : p.refreshMin = q.refreshMin := (congrArg Pers.refreshMin h :)

section
variable (page k : Nat) (s : State)

/-- The state in which k writes to a page have been counted and no warning given yet. -/
def wearCounted : State :=
  let n := min (cell s.pers.wear page 0 + k) 100000000
  { s with pers := { s.pers with
    wear := upd s.pers.wear page (fun _ => n), clean := false
    wearStore := if cell s.pers.wear page 0 / 1024 ≠ n / 1024 then upd s.pers.wearStore page (fun _ => n) else s.pers.wearStore } }

theorem countWear_quiet : (countWear page k s).pers.quiet = (wearCounted page k s).pers.quiet := by
  unfold countWear
  extract_lets old n _ s1
  split
  · exact (stickEvent_keeps s1 _ _).pers
  · rfl

theorem countWear_wear : (countWear page k s).pers.wear = upd s.pers.wear page fun _ => min (cell s.pers.wear page 0 + k) 100000000 :=
  (congrArg Pers.wear (countWear_quiet page k s) :)

theorem countWear_clean : (countWear page k s).pers.clean = false := (congrArg Pers.clean (countWear_quiet page k s) :)

theorem countWear_sansWear : (countWear page k s).pers.sansWear = s.pers.sansWear :=
  (sansWear_of_quiet (countWear_quiet page k s)).trans rfl

end

/-- The writes counted for each of the first n pages. -/
def countPages (k n : Nat) (s : State) : State := (List.range n).foldl (fun s p => countWear p k s) s

theorem countPages_onlyChanges (k n : Nat) (s : State) : OnlyChanges logParts s (countPages k n s) :=
  .foldl _ _ s fun t p => countWear_onlyChanges p k t

theorem countPages_sansWear (k n : Nat) (s : State) : (countPages k n s).pers.sansWear = s.pers.sansWear :=
  List.foldlRecOn (motive := fun t : State => t.pers.sansWear = s.pers.sansWear) _ _ rfl fun t ht p _ => (countWear_sansWear p k t).trans ht

theorem countPages_prf (k n : Nat) (s : State) : (countPages k n s).pers.prf = s.pers.prf := (congrArg Pers.prf (countPages_sansWear k n s) :)

theorem countPages_succ (k n : Nat) (s : State) : countPages k (n + 1) s = countWear n k (countPages k n s) := by
  simp [countPages, List.range_succ]

theorem length_countPages (k n : Nat) (s : State) : (countPages k n s).pers.wear.length = s.pers.wear.length := by
  induction n with
  | zero => rfl
  | succ n ih => rw [countPages_succ, countWear_wear, length_upd, ih]

theorem countPages_cell {k n : Nat} {s : State} (hn : n ≤ s.pers.wear.length) (p : Nat) : cell (countPages k n s).pers.wear p 0 =
    if p < n then min (cell s.pers.wear p 0 + k) 100000000 else cell s.pers.wear p 0 := by
  induction n generalizing p with
  | zero => rfl
  | succ n ih =>
    have hlt : n < (countPages k n s).pers.wear.length := by rw [length_countPages]; omega
    have hrest := ih (by omega)
    rw [countPages_succ, countWear_wear, cell_upd _ _ _ _ _ hlt, hrest, hrest]
    rcases eq_or_ne n p with rfl | hne
    · simp
    · rw [if_neg hne]
      exact if_congr (by omega) rfl rfl

/-! ## Writes of the host (R503, R504, R508) -/

section
variable {w : Fin 1024} {v m : Word} {s : State}

theorem prfWrite_stores (hm : prfMask w = some m) : prfWrite w v s = prfStore w (v &&& m) s := by
  unfold prfWrite
  rw [hm]

theorem prfWrite_writes (hm : prfMask w = some m) (hp : pageFull s.pers (w.val / 64) = false) (hprf : s.pers.prf.length = 1024)
    (hwear : s.pers.wear.length = 16) : ∃ t, execPrfWrite w v s = .next t ∧ OnlyChanges logParts s t ∧
      (∀ i, i < 1024 → wd t.pers.prf i = if i = w.val then v &&& m else wd s.pers.prf i) ∧
      (∀ p, p < 16 → cell t.pers.wear p 0 = if p = w.val / 64 then min (cell s.pers.wear p 0 + 1) 100000000 else cell s.pers.wear p 0) ∧
      t.pers.clean = false := by
  have hstore : prfStore w (v &&& m) s =
      countWear (w.val / 64) 1 { s with pers := { s.pers with prf := upd s.pers.prf w fun _ => v &&& m } } := if_neg (by simp [hp])
  refine ⟨prfWrite w v s, rfl, ?_, fun i hi => ?_, fun p hp16 => ?_, ?_⟩
  · rw [prfWrite_stores hm]
    exact prfStore_onlyChanges _ _ _
  · rw [prfWrite_stores hm, prfStore_prf hp, wd_upd _ _ _ _ (hprf.symm ▸ w.isLt)]
    exact if_congr eq_comm rfl rfl
  · have hpage : w.val / 64 < s.pers.wear.length := by have := w.isLt; omega
    rw [prfWrite_stores hm, hstore, countWear_wear, cell_upd _ _ _ _ _ hpage]
    rcases eq_or_ne p (w.val / 64) with rfl | hne
    · simp
    · rw [if_neg hne, if_neg hne.symm]
  · rw [prfWrite_stores hm, hstore]
    exact countWear_clean _ _ _

theorem prfWrite_protected (hm : prfMask w = none) : execPrfWrite w v s = .next (stickRec .prfProtected s) := by
  unfold execPrfWrite prfWrite
  rw [hm]

theorem wornOut_quiet (page : Nat) (s : State) : ∃ seen, (wornOut page s).pers.quiet = ({ s.pers with wearLimitSeen := seen } : Pers).quiet := by
  unfold wornOut
  split
  · exact ⟨_, (stickRec_keeps s _ _).pers⟩
  · exact ⟨_, (stickEvent_keeps _ _ _).pers⟩

theorem prfWrite_discarded (hm : prfMask w = some m) (hp : pageFull s.pers (w.val / 64) = true) : ∃ t, execPrfWrite w v s = .next t ∧
    OnlyChanges logParts s t ∧ t.pers.prf = s.pers.prf ∧ t.pers.wear = s.pers.wear := by
  have hworn : prfStore w (v &&& m) s = wornOut (w.val / 64) s := if_pos hp
  obtain ⟨_, hq⟩ := wornOut_quiet (w.val / 64) s
  refine ⟨prfWrite w v s, rfl, ?_, ?_, ?_⟩
  · rw [prfWrite_stores hm]
    exact prfStore_onlyChanges _ _ _
  · rw [prfWrite_stores hm, hworn]
    exact (congrArg Pers.prf hq :)
  · rw [prfWrite_stores hm, hworn]
    exact (congrArg Pers.wear hq :)

end

/-- The host writes every bit of the words from 64 on (R504). -/
theorem prfMask_host {w : Nat} (h : 64 ≤ w) : prfMask w = some 0xFFFFFFFF := by
  unfold prfMask
  rw [if_neg (by omega : ¬ (w = 0 ∨ w = 8 ∨ w = 9)), if_neg (by omega : w ≠ 4), if_neg (by omega : w ≠ 5), if_neg (by omega : w ≠ 10), if_pos h]

/-! ## The refresh and the minutes (R500, R502, R517) -/

theorem mramRefresh_idle {corrected : Bool} {lost : Option Nat} {s : State}
    (h : s.pwr.state = .sleep ∨ s.pers.opMinutes - s.pers.refreshMin < 10080) : execMramRefresh corrected lost s = .next s := if_pos h

/-- What a refresh reports: a word corrected, and the address of one that was uncorrectable. -/
def refreshReport (corrected : Bool) (lost : Option Nat) (s : State) : State :=
  let s1 := if corrected then stickRec .mramCorr s else s
  match lost with
  | some a => stickEvent .mramUncorr { ev := .mramUncorrectable, p0 := w32 a } s1
  | none => s1

theorem refreshReport_keeps (corrected : Bool) (lost : Option Nat) (s : State) : s.Keeps (refreshReport corrected lost s) := by
  have h1 : s.Keeps (if corrected then stickRec .mramCorr s else s) := by
    split
    · exact stickRec_keeps s _ _
    · exact .refl s
  cases lost with
  | none => exact h1
  | some a => exact h1.trans (stickEvent_keeps _ _ _)

theorem refreshReport_onlyChanges (corrected : Bool) (lost : Option Nat) (s : State) : OnlyChanges logParts s (refreshReport corrected lost s) := by
  have h1 : OnlyChanges logParts s (if corrected then stickRec .mramCorr s else s) := by
    split
    · exact stickRec_onlyChanges _ _ s
    · exact .refl _ s
  cases lost with
  | none => exact h1
  | some a => exact h1.trans (stickEvent_onlyChanges _ _ _)

/-- The state in which a refresh has counted its writes. -/
def refreshCounted (s : State) : State := countPages 64 16 { s with pers := { s.pers with refreshMin := s.pers.opMinutes } }

theorem mramRefresh_eq {corrected : Bool} {lost : Option Nat} {s : State} (hs : s.pwr.state ≠ .sleep)
    (hd : 10080 ≤ s.pers.opMinutes - s.pers.refreshMin) : execMramRefresh corrected lost s = .next (refreshReport corrected lost (refreshCounted s)) := by
  have hdue : ¬ (s.pwr.state = .sleep ∨ s.pers.opMinutes - s.pers.refreshMin < 10080) := not_or.mpr ⟨hs, BitVec.not_lt.mpr hd⟩
  unfold execMramRefresh refreshReport refreshCounted countPages
  exact if_neg hdue

theorem refreshCounted_prf (s : State) : (refreshCounted s).pers.prf = s.pers.prf := by
  unfold refreshCounted
  rw [countPages_prf]

theorem refreshCounted_refreshMin (s : State) : (refreshCounted s).pers.refreshMin = s.pers.opMinutes := by
  unfold refreshCounted
  rw [refreshMin_of_sansWear (countPages_sansWear 64 16 _)]

theorem refreshCounted_cell {s : State} (hw : s.pers.wear.length = 16) {p : Nat} (hp : p < 16) :
    cell (refreshCounted s).pers.wear p 0 = min (cell s.pers.wear p 0 + 64) 100000000 := by
  unfold refreshCounted
  rw [countPages_cell, if_pos hp]
  exact hw.ge

theorem refreshCounted_onlyChanges (s : State) : OnlyChanges logParts s (refreshCounted s) :=
  ((onlyChanges_pers s _).mono (by decide)).trans (countPages_onlyChanges 64 16 _)

theorem mramRefresh_counts {corrected : Bool} {lost : Option Nat} {s : State} (hs : s.pwr.state ≠ .sleep)
    (hd : 10080 ≤ s.pers.opMinutes - s.pers.refreshMin) (hw : s.pers.wear.length = 16) : ∃ t, execMramRefresh corrected lost s = .next t ∧
      OnlyChanges logParts s t ∧ t.pers.prf = s.pers.prf ∧ t.pers.refreshMin = s.pers.opMinutes ∧
      ∀ p, p < 16 → cell t.pers.wear p 0 = min (cell s.pers.wear p 0 + 64) 100000000 := by
  have hq := sansQueue_of_quiet (refreshReport_keeps corrected lost (refreshCounted s)).pers
  obtain ⟨hprf, hwear, hmin⟩ := hq
  refine ⟨_, mramRefresh_eq hs hd, (refreshCounted_onlyChanges s).trans (refreshReport_onlyChanges corrected lost _),
    hprf.trans (refreshCounted_prf s), hmin.trans (refreshCounted_refreshMin s), fun p hp => ?_⟩
  rw [hwear]
  exact refreshCounted_cell hw hp

theorem opMinute_cases (s : State) : ((s.pwr.state = .sleep ∨ s.since s.pers.minuteAt < 60000000000) → execOpMinute s = .next s) ∧
    (s.pwr.state ≠ .sleep → 60000000000 ≤ s.since s.pers.minuteAt → execOpMinute s =
      .next { s with pers := { s.pers with opMinutes := s.pers.opMinutes + 1, minuteAt := s.pos.mono } }) :=
  ⟨fun h => congrArg Host.Outcome.next (if_pos h),
    fun hs hd => congrArg Host.Outcome.next (if_neg (not_or.mpr ⟨hs, Nat.not_lt.mpr hd⟩))⟩

theorem persistentWords : Claims.PersistentWords := by
  unfold Claims.PersistentWords
  refine ⟨?writes, ?protect, ?discards, fun w h => prfMask_host h, rfl, rfl, ?idle, ?refresh, opMinute_cases⟩
  case writes => exact fun w v m s hm hp hprf hwear => prfWrite_writes hm hp hprf hwear
  case protect => exact fun w v s hm => prfWrite_protected hm
  case discards => exact fun w v m s hm hp => prfWrite_discarded hm hp
  case idle => exact fun c u s h => mramRefresh_idle h
  case refresh => exact fun c u s hs hd hw => mramRefresh_counts hs hd hw

/-! ## The record served next (R520) -/

theorem bestRec_best {l : List AlmRec} {b : AlmRec} (h : bestRec l = some b) :
    b ∈ l ∧ ∀ x ∈ l, x.severity ≤ b.severity ∧ (x.severity = b.severity → b.seq ≤ x.seq) := by
  induction l generalizing b with
  | nil => cases h
  | cons r rs ih =>
    unfold bestRec at h
    cases hr : bestRec rs with
    | none =>
      rw [hr] at h
      obtain rfl := Option.some.inj h
      have hnil : rs = [] := by
        cases rs with
        | nil => rfl
        | cons y ys =>
          unfold bestRec at hr
          split at hr
          · cases hr
          · split at hr <;> cases hr
      subst hnil
      exact ⟨List.mem_cons_self, fun x hx => by obtain rfl := List.mem_singleton.mp hx; exact ⟨le_rfl, fun _ => le_rfl⟩⟩
    | some b1 =>
      obtain ⟨hmem, hbest⟩ := ih hr
      rw [hr] at h
      dsimp only at h
      split at h
      next hlt =>
        obtain rfl := Option.some.inj h
        refine ⟨List.mem_cons_self, fun x hx => ?_⟩
        rcases List.mem_cons.mp hx with rfl | hx
        · exact ⟨le_rfl, fun _ => le_rfl⟩
        · obtain ⟨hsev, hseq⟩ := hbest x hx
          omega
      next hge =>
        obtain rfl := Option.some.inj h
        refine ⟨List.mem_cons_of_mem _ hmem, fun x hx => ?_⟩
        rcases List.mem_cons.mp hx with rfl | hx
        · omega
        · exact hbest x hx

/-! ## The ring (R519, R521) -/

theorem ringPut_lookup_same (k : Nat) (ws : List Word) (l : List (Nat × List Word)) : (ringPut k ws l).lookup k = some ws := by
  induction l with
  | nil => simp [ringPut]
  | cons p ps ih =>
    unfold ringPut
    split
    next hlt => rw [List.lookup_cons, beq_eq_false_iff_ne.mpr hlt.ne', ih]
    next => split <;> simp

theorem ringPut_lookup_other {k j : Nat} (ws : List Word) (l : List (Nat × List Word)) (h : j ≠ k) : (ringPut k ws l).lookup j = l.lookup j := by
  have hjk : (j == k) = false := beq_eq_false_iff_ne.mpr h
  induction l with
  | nil => simp [ringPut, h]
  | cons p ps ih =>
    unfold ringPut
    split
    next => rw [List.lookup_cons, List.lookup_cons, ih]
    next =>
      split
      next he => rw [List.lookup_cons, List.lookup_cons, hjk, he, hjk]
      next => rw [List.lookup_cons, hjk]

theorem crc16_lt (bs : List Byte) : crc16 bs < 2 ^ 16 := by
  refine Nat.xor_lt_two_pow (n := 16) ?_ (by decide)
  exact List.foldlRecOn (motive := (· < 2 ^ 16)) _ _ (by decide) fun _ hr b _ => crcByte_lt (by decide) false hr b

section
variable (seq : Word) (valid : Bool) (r : AlmRec) (p : Pers)

theorem almWords_code : fld (wd (almWords seq valid r p) 1) 0 16 = r.code.toNat := by
  have hcode := r.code.isLt
  change (w32 (r.code.toNat + 65536 * r.source.toNat + 16777216 * r.severity)).toNat >>> 0 % 2 ^ 16 = r.code.toNat
  rw [w32, BitVec.toNat_ofNat]
  omega

theorem bytesLE_two_of_word {p c : Nat} (hp : p < 2 ^ 16) (hc : c < 2 ^ 16) : (bytesLE 4 (w32 (p + 65536 * c)).toNat).take 2 = bytesLE 2 p := by
  have hsum : (w32 (p + 65536 * c)).toNat = p + 65536 * c := BitVec.toNat_ofNat .. |>.trans (Nat.mod_eq_of_lt (by omega))
  rw [hsum]
  refine congrArg₂ (fun a b : Byte => [a, b]) ?_ ?_
  · apply BitVec.eq_of_toNat_eq
    rw [BitVec.toNat_ofNat, BitVec.toNat_ofNat]
    omega
  · apply BitVec.eq_of_toNat_eq
    rw [BitVec.toNat_ofNat, BitVec.toNat_ofNat]
    omega

/-- The CRC of a record runs over its first thirty bytes, and stands behind them (R519). -/
theorem almWords_crc : fld (wd (almWords seq valid r p) 7) 16 16 = crc16 ((wordBytes (almWords seq valid r p)).take 30) := by
  unfold almWords
  extract_lets w1 w3 body c
  have hc : c < 2 ^ 16 := crc16_lt _
  have hp3 := r.p3.isLt
  have hbody : (wordBytes body).length = 28 := length_wordBytes body
  have hbytes : (wordBytes (body ++ [w32 (r.p3.toNat + 65536 * c)])).take 30 = wordBytes body ++ bytesLE 2 r.p3.toNat := by
    rw [wordBytes, List.flatMap_append, List.take_append, ← wordBytes, hbody, List.take_of_length_le (by omega)]
    refine congrArg (wordBytes body ++ ·) ?_
    rw [List.flatMap_cons, List.flatMap_nil, List.append_nil]
    exact bytesLE_two_of_word hp3 hc
  rw [hbytes]
  change (w32 (r.p3.toNat + 65536 * c)).toNat >>> 16 % 2 ^ 16 = c
  rw [w32, BitVec.toNat_ofNat, Nat.shiftRight_eq_div_pow]
  omega

end

/-! ## A record is written (R519 to R523) -/

theorem budgetTick_cases (s : State) : (s.since s.pers.almTickAt < 3906250 → execAlmanacBudgetTick s = .next s) ∧
    (3906250 ≤ s.since s.pers.almTickAt → execAlmanacBudgetTick s = .next { s with pers := { s.pers with
      almBudget := min 256 (s.pers.almBudget + 1), almTickAt := s.pos.mono } }) :=
  ⟨fun h => congrArg Host.Outcome.next (if_pos h), fun h => congrArg Host.Outcome.next (if_neg (Nat.not_lt.mpr h))⟩

section
variable {r : AlmRec} {s : State}

theorem recordWrite_idle (h : s.pers.almQueue = [] ∨ s.pers.almBudget = 0) : execAlmanacRecordWrite s = .next s := by
  refine congrArg Host.Outcome.next ?_
  unfold almWriteRecord
  cases hr : bestRec s.pers.almQueue with
  | none => rfl
  | some r =>
    rcases h with h | h
    · rw [h] at hr
      cases hr
    · exact if_pos h

/-- The state in which a record stands in the ring and nobody has been told yet. -/
def recordPut (r : AlmRec) (s : State) : State :=
  let p := s.pers
  { s with pers := { p with
    alm := ringPut (p.almNext.toNat % 4096) (almWords p.almNext (timeValid s) r p) p.alm
    almNext := nextSeq p.almNext, almBudget := p.almBudget - 1
    almQueue := p.almQueue.filter (fun x => x.seq != r.seq)
    firstRec := false, lostBefore := false } }

/-- What a record's writing tells: the host that asked for it, the vector, and the records that were dropped before it. -/
def recordTold (r : AlmRec) (p : Pers) (s1 : State) : State :=
  let s2 := match r.host with
    | some sl => respond sl (okWith [p.almNext]) s1
    | none => s1
  let irqAll := flag (wd p.prf 5) 16
  let s3 := if irqAll ∨ r.severity ≥ 3 ∨ r.code = 0x0E15 then sendVec 7 s2 else s2
  if p.lostOwe then
    event { ev := .almanacSuppressed, p0 := p.lostSince, p1 := p.almSuppressed, always := true }
      { s3 with pers := { s3.pers with lostOwe := false, lostSince := 0 } }
  else s3

theorem almWriteRecord_eq (hr : bestRec s.pers.almQueue = some r) (hb : s.pers.almBudget ≠ 0) :
    almWriteRecord s = recordTold r s.pers (recordPut r s) := by
  unfold almWriteRecord
  rw [hr]
  exact if_neg hb

theorem recordTold_pers (r : AlmRec) (p : Pers) (s : State) : (recordTold r p s).pers.quiet = s.pers.quiet := by
  unfold recordTold
  extract_lets s2 irqAll s3
  have h2 : s.Keeps s2 := by
    unfold s2
    split
    · exact respond_keeps s _ _
    · exact .refl s
  have h3 : s.Keeps s3 := by
    unfold s3
    split
    · exact h2.trans (sendVec_keeps s2 _)
    · exact h2
  split
  · exact ((event_keeps _ _).pers).trans h3.pers
  · exact h3.pers

theorem recordTold_onlyChanges (r : AlmRec) (p : Pers) (s : State) : OnlyChanges logParts s (recordTold r p s) := by
  unfold recordTold
  extract_lets s2 irqAll s3
  have h2 : OnlyChanges logParts s s2 := by
    unfold s2
    split
    · exact (respond_onlyChanges _ _ s).mono (by decide)
    · exact .refl _ s
  have h3 : OnlyChanges logParts s s3 := by
    unfold s3
    split
    · exact h2.trans (withLog_onlyChanges _ s2)
    · exact h2
  split
  · exact h3.trans (((onlyChanges_pers s3 _).mono (by decide)).trans (event_onlyChanges _ _))
  · exact h3

theorem recordWrite_writes (hr : bestRec s.pers.almQueue = some r) (hb : s.pers.almBudget ≠ 0) :
    ∃ t w, execAlmanacRecordWrite s = .next t ∧ OnlyChanges logParts s t ∧ t.pers.almNext = nextSeq s.pers.almNext ∧
      t.pers.almBudget + 1 = s.pers.almBudget ∧ t.pers.alm.lookup (s.pers.almNext.toNat % 4096) = some w ∧ w.length = 8 ∧ wd w 0 = s.pers.almNext ∧
      fld (wd w 1) 0 16 = r.code.toNat ∧ fld (wd w 7) 16 16 = crc16 ((wordBytes w).take 30) ∧
      ∀ j, j ≠ s.pers.almNext.toNat % 4096 → t.pers.alm.lookup j = s.pers.alm.lookup j := by
  have hq := recordTold_pers r s.pers (recordPut r s)
  have halm : (recordTold r s.pers (recordPut r s)).pers.alm = (recordPut r s).pers.alm := (congrArg Pers.alm hq :)
  refine ⟨_, almWords s.pers.almNext (timeValid s) r s.pers, congrArg Host.Outcome.next (almWriteRecord_eq hr hb),
    ((onlyChanges_pers s _).mono (by decide)).trans (recordTold_onlyChanges _ _ _), (congrArg Pers.almNext hq :), ?_, ?_, rfl, rfl,
    almWords_code _ _ _ _, almWords_crc _ _ _ _, fun j hj => ?_⟩
  · rw [show (recordTold r s.pers (recordPut r s)).pers.almBudget = s.pers.almBudget - 1 from (congrArg Pers.almBudget hq :)]
    omega
  · rw [halm]
    exact ringPut_lookup_same _ _ _
  · rw [halm]
    exact ringPut_lookup_other _ _ hj

end

/-! ## The commands (R522, R526) -/

section
variable {k : Fin 16} {c : RungCmd} {s : State}

theorem almWrite_queues (h : Rung 0x0E13 5 k c s) (hsev : fld (c.w 0) 8 3 ≤ 3) (h0 : c.w 0 &&& ~~~ 0x7FF = 0) (h4 : c.w 4 &&& ~~~ 0xFFFF = 0)
    (hroom : s.pers.almQueue.length < 16) (hb : s.host.opState ≠ .boot) :
    ∃ t r, execAlmWrite k s = .next t ∧ OnlyChanges [.pers] (begun k s) t ∧ t.pers.almQueue = s.pers.almQueue ++ [r] ∧
      r.code.toNat = fld (c.w 0) 0 8 ∧ r.source = 0xFF ∧ r.severity = fld (c.w 0) 8 3 ∧ r.p0 = c.w 1 ∧ r.p1 = c.w 2 ∧ r.p2 = c.w 3 ∧
      r.host = some k.val ∧ r.asked = s.pos.mono ∧ t.pers.alm = s.pers.alm := by
  have hrecord : ∀ r : AlmRec, (begun k s).withLog ((begun k s).log.record r) = { begun k s with pers := { s.pers with
      almQueue := s.pers.almQueue ++ [{ r with seq := s.pers.almArrive }], almArrive := s.pers.almArrive + 1 } } := by
    intro r
    have hl : (begun k s).log.pers.almQueue.length < 16 := hroom
    rw [show (begun k s).log.record r = _ from if_pos hl]
    rfl
  have hcode : fld (c.w 0) 0 8 < 2 ^ 8 := Nat.mod_lt _ (by decide)
  refine ⟨_, _, congrArg Host.Outcome.next (command_later h ?_ (congrArg (fun t : State => (t, (none : Option Ans))) (hrecord _))),
    onlyChanges_pers _ _, rfl, Nat.mod_eq_of_lt (hcode.trans (by decide)), rfl, rfl, rfl, rfl, rfl, rfl, rfl, rfl⟩
  simp only [passes_cons, passes_nil, and_true]
  exact ⟨decide_eq_false (Nat.not_lt.mpr hsev), reservedW_passes h0, reservedW_passes h4, decide_eq_false (Nat.not_le.mpr hroom), notBoot_passes hb⟩

theorem almWriteTimeout_idle (h : ∀ r ∈ s.pers.almQueue, r.host ≠ some k.val ∨ s.since r.asked < 10000000) :
    execAlmWriteTimeout k s = .next s := by
  refine congrArg Host.Outcome.next (if_neg ?_)
  rw [List.any_eq_true]
  rintro ⟨r, hr, hlate⟩
  obtain ⟨hhost, hdue⟩ := Bool.and_eq_true_iff.mp hlate
  exact (h r hr).elim (fun hne => hne (beq_iff_eq.mp hhost)) (fun hlt => Nat.not_lt.mpr (of_decide_eq_true hdue) hlt)

theorem almWriteTimeout_withdraws {r : AlmRec} (hr : r ∈ s.pers.almQueue) (hhost : r.host = some k.val) (hdue : 10000000 ≤ s.since r.asked) :
    execAlmWriteTimeout k s = .next (respond k busy
      { s with pers := { s.pers with almQueue := s.pers.almQueue.filter fun r => r.host != some k.val } }) :=
  congrArg Host.Outcome.next (if_pos (List.any_eq_true.mpr
    ⟨r, hr, Bool.and_eq_true_iff.mpr ⟨beq_iff_eq.mpr hhost, decide_eq_true hdue⟩⟩))

theorem heldRecord_held {p : Pers} {n : Nat} {w : List Word} (h : heldRecord p n = some w) :
    p.alm.lookup (n % 4096) = some w ∧ wd w 0 = w32 n := by
  unfold heldRecord at h
  split at h
  next ws hws =>
    split at h
    next hseq => exact ⟨hws.trans h, (Option.some.inj h) ▸ hseq⟩
    next => cases h
  next => cases h

theorem heldFrom_held {p : Pers} {start : Nat} {w : List Word} (h : w ∈ heldFrom p start) :
    ∃ i, start ≤ i ∧ i < p.almNext.toNat ∧ heldRecord p i = some w := by
  obtain ⟨x, hx, rfl⟩ := List.mem_map.mp h
  have hheld : x ∈ p.alm.filter fun x =>
      decide (start ≤ wn x.2 0 ∧ wn x.2 0 < p.almNext.toNat) && heldRecord p (wn x.2 0) == some x.2 :=
    (List.mem_append.mp hx).elim (fun h => (List.mem_filter.mp h).1) (fun h => (List.mem_filter.mp h).1)
  obtain ⟨hrange, hrec⟩ := Bool.and_eq_true_iff.mp (List.mem_filter.mp hheld).2
  obtain ⟨hlow, hhigh⟩ := of_decide_eq_true hrange
  exact ⟨_, hlow, hhigh, eq_of_beq hrec⟩

theorem almRead_answers {n : Nat} (h : Rung 0x0E14 2 k c s) (hw : (c.w 1).toNat = n) (hlow : 1 ≤ n) (hhigh : n ≤ 7) :
    ∃ rs : List (List Word), execAlmRead k s = .next (respond k (okWith (w32 rs.length :: rs.flatten)) (begun k s)) ∧ rs.length ≤ n ∧
      ∀ w ∈ rs, ∃ i, max (c.w 0).toNat (almOldest s.pers).toNat ≤ i ∧ i < s.pers.almNext.toNat ∧ heldRecord s.pers i = some w := by
  have hlt : (c.w 1).toNat < 2 ^ 3 := by omega
  have hfld : fld (wd c.payload 1) 0 3 = n := (fld_of_lt hlt).trans hw
  refine ⟨(heldFrom s.pers (max (c.w 0).toNat (almOldest s.pers).toNat)).take n, congrArg Host.Outcome.next (command_done h ?_ ?_),
    List.length_take_le _ _, fun w hw => heldFrom_held (List.mem_of_mem_take hw)⟩
  · simp only [passes_cons, passes_nil, and_true, hfld]
    exact ⟨beq_eq_false_iff_ne.mpr (by omega), reservedW_passes (reserved_clear (n := 3) hlt)⟩
  · simp only [hfld]
    rfl

end

theorem almanac : Claims.Almanac := by
  unfold Claims.Almanac
  refine ⟨fun l b h => bestRec_best h, budgetTick_cases, ?idle, ?writes, ?queues, ?waits, ?withdraws, ?reads, fun p n w h => heldRecord_held h⟩
  case idle => exact fun s h => recordWrite_idle h
  case writes => exact fun r s hr hb => recordWrite_writes hr hb
  case queues => exact fun k c s h hsev h0 h4 hroom hb => almWrite_queues h hsev h0 h4 hroom hb
  case waits => exact fun k s h => almWriteTimeout_idle h
  case withdraws => exact fun k r s hr hhost hdue => almWriteTimeout_withdraws hr hhost hdue
  case reads => exact fun k c s n h hw hlow hhigh => almRead_answers h hw hlow hhigh

/-- Settles O59: writes of words are followed to the page's wear counter, and a record to its place in the ring. -/
theorem wordsAndAlmanac : Obligations.WordsAndAlmanac := ⟨persistentWords, almanac⟩

end Sys2Proof.Machine
end

section
/-!
PROOFS. The power commands (R530 to R532, R535, R542, R548 to R553).
-/
namespace Sys2Proof.Machine

/-! ## What a list of cells holds, and what stays put out -/

theorem cell_zipIdx_map {α β : Type} (f : α × Nat → β) (l : List α) {j : Nat} (d : α) (e : β) (h : j < l.length) :
    cell (l.zipIdx.map f) j e = f (cell l j d, j) := by
  simp [cell, h]

theorem emit_keepsOut {o p : Output} {s : State} (h : o ∈ s.out) : o ∈ (emit p s).out := by
  rw [emit_out]
  split
  · exact h
  · exact List.mem_cons_of_mem _ h

theorem drive_keepsOut {o : Output} {s : State} (os : List Output) (h : o ∈ s.out) : o ∈ (drive os s).out :=
  List.foldlRecOn (motive := fun t : State => o ∈ t.out) os _ h fun _ ht _ _ => emit_keepsOut ht

theorem drive_onlyChanges (os : List Output) (s : State) : OnlyChanges [.out] s (drive os s) :=
  .foldl _ os s fun t o => emit_onlyChanges o t

theorem applyIf_onlyChanges {ps : List Part} (b : Bool) {f : State → State} {s : State} (h : OnlyChanges ps s (f s)) :
    OnlyChanges ps s (applyIf b f s) := by
  cases b
  · exact .refl _ s
  · exact h

section
variable {k : Fin 16} {c : RungCmd} {s : State}

/-! ## PWR_GET_STATUS (R550) -/

theorem pwrGetStatus_answers (h : Rung 0x0F00 1 k c s) (hw : c.w 0 = 0) :
    execPwrGetStatus k s = .next (respond k (okWith (pwrView s)) (begun k s)) := by
  refine congrArg Host.Outcome.next (command_done h ?_ ?_)
  · simp only [passes_cons, passes_nil, and_true]
    exact reservedW_passes (by rw [show wd c.payload 0 = 0 from hw]; rfl)
  · rw [firstFlag_clear hw]
    rfl

theorem pwrGetStatus_clears (h : Rung 0x0F00 1 k c s) (hw : c.w 0 = 1) : execPwrGetStatus k s = .next (respond k (okWith (pwrView s)) { begun k s with
    pwr := { s.pwr with vcoreMin := 0x3FF, tjMax := -128, brownouts := 0, drainTimeouts := 0 } }) := by
  refine congrArg Host.Outcome.next (command_done h ?_ ?_)
  · simp only [passes_cons, passes_nil, and_true]
    exact reservedW_passes (by rw [show wd c.payload 0 = 1 from hw]; rfl)
  · rw [firstFlag_set hw]
    rfl

/-! ## PWR_SET_STATE (R530, R551) -/

theorem pwrSetState_standby (h : Rung 0x0F01 1 k c s) (hw : c.w 0 = 3) (hstate : s.pwr.state = .run) (htarget : s.pwr.target = none)
    (hfree : lowerBlocked false s = false) : execPwrSetState k s =
      .next (setIsland 2 (fun i => { i with draining := true, drainAt := s.pos.mono })
        { begun k s with pwr := { s.pwr with target := some (.standby, some k, none) } }) := by
  have hword : wd c.payload 0 = 3 := hw
  have hrun : (begun k s).pwr.state ≠ .hold := by rw [show (begun k s).pwr.state = .run from hstate]; decide
  refine congrArg Host.Outcome.next (command_later h ?_ ?_)
  · simp only [passes_cons, passes_nil, and_true, hword, hstate, htarget]
    exact ⟨rfl, reservedW_passes (by rw [hword]; rfl), rfl, rfl, rfl, hfree, rfl⟩
  · simp only [hword]
    exact if_neg hrun

theorem pwrSetState_sleep (h : Rung 0x0F01 1 k c s) (hw : c.w 0 = 1) (hstate : s.pwr.state = .run) (htarget : s.pwr.target = none)
    (hfree : lowerBlocked true s = false) : execPwrSetState k s =
      .next (respond k ok { begun k s with pwr := { s.pwr with sleepArmed := true, armedAt := s.pos.mono } }) := by
  have hword : wd c.payload 0 = 1 := hw
  refine congrArg Host.Outcome.next (command_done h ?_ ?_)
  · simp only [passes_cons, passes_nil, and_true, hword, hstate, htarget]
    exact ⟨rfl, reservedW_passes (by rw [hword]; rfl), rfl, rfl, rfl, hfree, rfl⟩
  · simp only [hword]
    rfl

/-- The state in which a PWR_SET_STATE has begun the way out of HOLD (R529, R538). -/
def risingFromHold (k : Fin 16) (tag : Word) (s : State) : State :=
  beginIsland 2 (outstand 0x0F01 tag 0
    { begun k s with pwr := { s.pwr with target := some (.run, none, some tag), wakeBy := 5, sleepArmed := false } })

theorem pwrSetState_fromHold (h : Rung 0x0F01 1 k c s) (hw : c.w 0 = 4) (hstate : s.pwr.state = .hold) (htarget : s.pwr.target = none)
    (hb : s.host.opState ≠ .boot) (hout : s.host.outst.length < 16) :
    execPwrSetState k s = .next (respond k accepted (risingFromHold k c.tag s)) := by
  have hword : wd c.payload 0 = 4 := hw
  have hnotRun : ¬ ((begun k s).pwr.sleepArmed = true ∧ (begun k s).pwr.state = .run) := by
    rw [show (begun k s).pwr.state = .hold from hstate]
    exact fun hc => absurd hc.2 (by decide)
  refine congrArg Host.Outcome.next (command_done h ?_ ?_)
  · simp only [passes_cons, passes_nil, and_true, hword, hstate, htarget]
    exact ⟨rfl, reservedW_passes (by rw [hword]; rfl), rfl, rfl, notBoot_passes hb, rfl, (completionsFull_passes hout :)⟩
  · simp only [hword]
    exact (if_neg hnotRun).trans (if_pos hstate)

theorem risingFromHold_stage (k : Fin 16) (tag : Word) (hl : s.pwr.islands.length = 4) :
    (cell (risingFromHold k tag s).pwr.islands 2 {}).stage = 1 :=
  congrArg Island.stage (cell_upd_same (l := s.pwr.islands) (fun x : Island => { x with stage := 1, on := false, stageAt := s.pos.mono }) {} (by omega))

theorem pwrSetState_fromStandby (h : Rung 0x0F01 1 k c s) (hw : c.w 0 = 4) (hstate : s.pwr.state = .standby) (htarget : s.pwr.target = none)
    (hb : s.host.opState ≠ .boot) :
    execPwrSetState k s = .next (respond k ok (enterRun 5 { begun k s with pwr := { s.pwr with sleepArmed := false } })) := by
  have hword : wd c.payload 0 = 4 := hw
  have hst : (begun k s).pwr.state = .standby := hstate
  have hnotRun : ¬ ((begun k s).pwr.sleepArmed = true ∧ (begun k s).pwr.state = .run) := by
    rw [hst]
    exact fun hc => absurd hc.2 (by decide)
  refine congrArg Host.Outcome.next (command_done h ?_ ?_)
  · simp only [passes_cons, passes_nil, and_true, hword, hstate, htarget]
    exact ⟨rfl, reservedW_passes (by rw [hword]; rfl), rfl, rfl, notBoot_passes hb, rfl, rfl⟩
  · simp only [hword]
    exact (if_neg hnotRun).trans (if_neg (by rw [hst]; decide))

/-! ## PWR_RESUME (R542) -/

theorem pwrResume_unheld (h : Rung 0x0F02 0 k c s) (hb : s.host.opState ≠ .boot) (hbrown : s.pwr.brownout = false) :
    execPwrResume k s = .next (respond k ok (begun k s)) := by
  refine congrArg Host.Outcome.next (command_refused h ?_)
  rw [hbrown, show inBoot s = false from notBoot_passes hb]
  rfl

theorem pwrResume_resumes (h : Rung 0x0F02 0 k c s) (hb : s.host.opState ≠ .boot) (hbrown : s.pwr.brownout = true) (hstable : s.pwr.coreStable = true) :
    execPwrResume k s = .next (respond k ok (setPermission 1 3 true { begun k s with pwr := { s.pwr with brownout := false } })) := by
  refine congrArg Host.Outcome.next (command_done h ?_ rfl)
  simp only [passes_cons, passes_nil, and_true, hbrown, hstable]
  exact ⟨notBoot_passes hb, rfl, rfl⟩

theorem pwrResume_early (h : Rung 0x0F02 0 k c s) (hb : s.host.opState ≠ .boot) (hbrown : s.pwr.brownout = true) (hstable : s.pwr.coreStable = false) :
    execPwrResume k s = .next (respond k { status := 0x12, payload := [w32 (stableLeft s)] } (begun k s)) := by
  refine congrArg Host.Outcome.next (command_refused h ?_)
  rw [hbrown, hstable, show inBoot s = false from notBoot_passes hb]
  rfl

/-! ## PWR_PAD_RELEASE (R532, R552) -/

/-- The islands after a PWR_PAD_RELEASE that names those of w. -/
def padsReleased (w : Word) (l : List Island) : List Island := l.zipIdx.map fun (x, i) => if flag w i then { x with padHeld := false } else x

theorem padsReleased_padHeld {w : Word} {l : List Island} {i : Nat} (hi : i < l.length) :
    (cell (padsReleased w l) i {}).padHeld = ((cell l i {}).padHeld && !flag w i) := by
  rw [padsReleased, cell_zipIdx_map _ l ({} : Island) ({} : Island) hi]
  cases hw : flag w i <;> simp [hw]

/-- The state in which the islands that w names have let go of their pads, which take the levels of their logic (R532). -/
def padsFreed (w : Word) (s : State) : State :=
  applyIf (flag w 3 && (cell s.pwr.islands 3 {}).padHeld) (fun s => drive (bridgeLevels s) s)
    (applyIf (flag w 2 && (cell s.pwr.islands 2 {}).padHeld) (emit (.pin "SLOWDOWN_N" (!s.fire.slowdown)))
      { s with pwr := { s.pwr with islands := padsReleased w s.pwr.islands } })

theorem padsFreed_frame (w : Word) (s : State) :
    OnlyChanges [.out] { s with pwr := { s.pwr with islands := padsReleased w s.pwr.islands } } (padsFreed w s) := by
  unfold padsFreed
  generalize ({ s with pwr := { s.pwr with islands := padsReleased w s.pwr.islands } } : State) = s1
  have h2 := applyIf_onlyChanges (flag w 2 && (cell s.pwr.islands 2 {}).padHeld) (emit_onlyChanges (.pin "SLOWDOWN_N" (!s.fire.slowdown)) s1)
  generalize applyIf (flag w 2 && (cell s.pwr.islands 2 {}).padHeld) (emit (.pin "SLOWDOWN_N" (!s.fire.slowdown))) s1 = s2 at h2 ⊢
  exact h2.trans (applyIf_onlyChanges (f := fun s => drive (bridgeLevels s) s) _ (drive_onlyChanges (bridgeLevels s2) s2))

theorem padsFreed_onlyChanges (w : Word) (s : State) : OnlyChanges [.pwr, .out] s (padsFreed w s) :=
  ((onlyChanges_pwr s _).mono (by decide)).trans ((padsFreed_frame w s).mono (by decide))

theorem padsFreed_pwr (w : Word) (s : State) : (padsFreed w s).pwr = { s.pwr with islands := padsReleased w s.pwr.islands } :=
  (padsFreed_frame w s .pwr (by decide)).symm

theorem padsFreed_slowdown {w : Word} (hl : s.pwr.islands.length = 4) (hw : flag w 2 = true) (hheld : (cell s.pwr.islands 2 {}).padHeld = true) :
    Output.pin "SLOWDOWN_N" (!s.fire.slowdown) ∈ (padsFreed w s).out := by
  have hfree : (cell (padsReleased w s.pwr.islands) 2 {}).padHeld = false := by
    rw [padsReleased_padHeld (by omega), hw]
    exact Bool.and_false _
  unfold padsFreed
  rw [hw, hheld]
  generalize hs : ({ s with pwr := { s.pwr with islands := padsReleased w s.pwr.islands } } : State) = s1
  have hunheld : padHeld (.pin "SLOWDOWN_N" (!s.fire.slowdown)) s1 = false := by
    rw [← hs]
    exact hfree
  have hout : Output.pin "SLOWDOWN_N" (!s.fire.slowdown) ∈ (emit (.pin "SLOWDOWN_N" (!s.fire.slowdown)) s1).out := by
    rw [emit_out, hunheld]
    exact List.mem_cons_self
  cases hb : flag w 3 && (cell s.pwr.islands 3 {}).padHeld
  · exact hout
  · exact drive_keepsOut _ hout

theorem pwrPadRelease_answers (h : Rung 0x0F03 1 k c s) (hlow : 1 ≤ (c.w 0).toNat) (hhigh : (c.w 0).toNat ≤ 15) (hb : s.host.opState ≠ .boot)
    (hon : ∀ i, i < 4 → flag (c.w 0) i = true → (cell s.pwr.islands i {}).on = true) :
    execPwrPadRelease k s = .next (respond k ok (padsFreed (c.w 0) (begun k s))) := by
  have hlt : (c.w 0).toNat < 2 ^ 4 := by omega
  have hfld : fld (wd c.payload 0) 0 4 = (c.w 0).toNat := fld_of_lt hlt
  refine congrArg Host.Outcome.next (command_done h ?_ rfl)
  simp only [passes_cons, passes_nil, and_true, hfld]
  refine ⟨beq_eq_false_iff_ne.mpr (by omega), reservedW_passes (reserved_clear (n := 4) hlt), notBoot_passes hb, ?_⟩
  rw [List.any_eq_false]
  intro i hi hbad
  obtain ⟨hnamed, hoff⟩ := Bool.and_eq_true_iff.mp hbad
  rw [hon i (List.mem_range.mp hi) hnamed] at hoff
  cases hoff

theorem pwrPadRelease_releases (h : Rung 0x0F03 1 k c s) (hlow : 1 ≤ (c.w 0).toNat) (hhigh : (c.w 0).toNat ≤ 15) (hb : s.host.opState ≠ .boot)
    (hl : s.pwr.islands.length = 4) (hon : ∀ i, i < 4 → flag (c.w 0) i = true → (cell s.pwr.islands i {}).on = true) :
    ∃ t, execPwrPadRelease k s = .next (respond k ok t) ∧ OnlyChanges [.pwr, .out] (begun k s) t ∧
      (flag (c.w 0) 2 = true → (cell s.pwr.islands 2 {}).padHeld = true → Output.pin "SLOWDOWN_N" (!s.fire.slowdown) ∈ t.out) ∧
      ∀ i, i < 4 → (cell t.pwr.islands i {}).padHeld = ((cell s.pwr.islands i {}).padHeld && !flag (c.w 0) i) := by
  refine ⟨_, pwrPadRelease_answers h hlow hhigh hb hon, padsFreed_onlyChanges _ _, fun hw hheld => padsFreed_slowdown (s := begun k s) hl hw hheld,
    fun i hi => ?_⟩
  rw [padsFreed_pwr]
  exact padsReleased_padHeld (hl.symm ▸ hi)

/-! ## PWR_WAKE_CONFIG (R553) -/

theorem pwrWakeConfig_answers (h : Rung 0x0F04 3 k c s) (h0 : (c.w 0).toNat < 8) (h1 : (c.w 1).toNat < 65536) (hb : s.host.opState ≠ .boot) :
    execPwrWakeConfig k s = .next (respond k ok { begun k s with pwr := { s.pwr with
      wakeVigil := flag (c.w 0) 0, wakePattern := flag (c.w 0) 1, wakeEth := flag (c.w 0) 2, wakeEtype := (c.w 1).setWidth 16, wakeKey := c.w 2 } }) := by
  refine congrArg Host.Outcome.next (command_done h ?_ rfl)
  simp only [passes_cons, passes_nil, and_true]
  exact ⟨reservedW_passes (reserved_clear (n := 3) h0), reservedW_passes (reserved_clear (n := 16) h1), notBoot_passes hb⟩

end

/-- Settles O16: each power command passes its checks under the premises of its clause, and its effect is the one stated. -/
theorem powerCommands : Obligations.PowerCommands := by
  unfold Obligations.PowerCommands
  refine ⟨?status, ?statusClear, ?standby, ?sleep, ?fromHold, ?fromStandby, ?resume, ?pads, ?wake⟩
  case status => exact fun k c s h hw => pwrGetStatus_answers h hw
  case statusClear => exact fun k c s h hw => pwrGetStatus_clears h hw
  case standby => exact fun k c s h hw hstate htarget hfree => pwrSetState_standby h hw hstate htarget hfree
  case sleep => exact fun k c s h hw hstate htarget hfree => pwrSetState_sleep h hw hstate htarget hfree
  case fromHold =>
    exact fun k c s h hw hstate htarget hb hout _ =>
      ⟨_, pwrSetState_fromHold h hw hstate htarget hb hout, rfl, risingFromHold_stage k c.tag, rfl⟩
  case fromStandby => exact fun k c s h hw hstate htarget hb => pwrSetState_fromStandby h hw hstate htarget hb
  case resume =>
    exact fun k c s h hb => ⟨pwrResume_unheld h hb, pwrResume_resumes h hb, fun hbrown hstable => ⟨_, pwrResume_early h hb hbrown hstable⟩⟩
  case pads => exact fun k c s h hlow hhigh hb hl hon => pwrPadRelease_releases h hlow hhigh hb hl hon
  case wake => exact fun k c s h h0 h1 hb => pwrWakeConfig_answers h h0 h1 hb

end Sys2Proof.Machine
end

section
/-!
PROOFS. What a change of a permission and a trip do to Onyx (R453, R461, R464 to R466).
-/
namespace Sys2Proof.Machine

/-! ## One permission among four -/

/-- A permission is granted in a mask, or withdrawn. -/
def permSet (granted : Bool) (p : Nat) (cur : BitVec 4) : BitVec 4 :=
  if cur.getLsbD (p - 1) = granted then cur else if granted then cur ||| (1#4 <<< (p - 1)) else cur &&& ~~~ (1#4 <<< (p - 1))

theorem permSet_getLsbD (granted : Bool) {p i : Nat} (cur : BitVec 4) (hi : i < 4) :
    (permSet granted p cur).getLsbD i = if i = p - 1 then granted else cur.getLsbD i := by
  have hbit : (1#4 <<< (p - 1)).getLsbD i = decide (i = p - 1) := by
    rw [BitVec.getLsbD_shiftLeft, BitVec.getLsbD_one]
    simp only [decide_eq_true hi, Bool.true_and, Nat.zero_lt_succ, decide_true]
    rcases Nat.lt_trichotomy i (p - 1) with h | h | h
    · simp [h, h.ne]
    · simp [h]
    · simp [h.ne', Nat.not_lt.mpr h.le]
      omega
  unfold permSet
  split
  next hcur =>
    split
    next he => rw [he, hcur]
    next => rfl
  next =>
    cases granted
    · simp only [Bool.false_eq_true, if_false, BitVec.getLsbD_and, BitVec.getLsbD_not, hbit, decide_eq_true hi, Bool.true_and]
      by_cases he : i = p - 1 <;> simp [he]
    · simp only [if_true, BitVec.getLsbD_or, hbit]
      by_cases he : i = p - 1 <;> simp [he]

section
variable (p : Nat) (granted : Bool) (s : State)

theorem setPermission_permMain_main : (setPermission 1 p granted s).onyx.permMain = permSet granted p s.onyx.permMain := by
  simp only [setPermission, permSet, if_true]
  split
  · rfl
  · cases granted
    · simp only [Bool.false_eq_true, if_false]
      split <;> rfl
    · rfl

theorem setPermission_permOnyx_main : (setPermission 1 p granted s).onyx.permOnyx = s.onyx.permOnyx := by
  simp only [setPermission, if_true]
  split
  · rfl
  · cases granted
    · simp only [Bool.false_eq_true, if_false]
      split <;> rfl
    · rfl

theorem setPermission_permOnyx_own : (setPermission 2 p granted s).onyx.permOnyx = permSet granted p s.onyx.permOnyx := by
  simp only [setPermission, permSet, OfNat.ofNat_ne_one, if_false]
  split
  · rfl
  · cases granted
    · simp only [Bool.false_eq_true, if_false]
      split <;> rfl
    · rfl

theorem setPermission_permMain_own : (setPermission 2 p granted s).onyx.permMain = s.onyx.permMain := by
  simp only [setPermission, OfNat.ofNat_ne_one, if_false]
  split
  · rfl
  · cases granted
    · simp only [Bool.false_eq_true, if_false]
      split <;> rfl
    · rfl

end

theorem setPermission_sansPermits (side p : Nat) (granted : Bool) (s : State) :
    (setPermission side p granted s).onyx.sansPermits = s.onyx.sansPermits := by
  obtain ⟨o, ho, -, h⟩ := setPermission_frame side p granted s
  exact (congrArg Onyx.sansPermits (h .onyx (by decide))).symm.trans ho

theorem setPermission_quiet (side p : Nat) (granted : Bool) (s : State) :
    (setPermission side p granted s).host.quiet = s.host.quiet ∧ (setPermission side p granted s).pers.quiet = s.pers.quiet := by
  obtain ⟨o, -, h, -⟩ := setPermission_frame side p granted s
  exact ⟨h.host, h.pers⟩

theorem setPermission_pwr (side p : Nat) (granted : Bool) (s : State) : (setPermission side p granted s).pwr = s.pwr :=
  (setPermission_onlyChanges side p granted s .pwr (by decide)).symm

/-! ## Trips -/

theorem onlyChanges_hl (s : State) (h : Hlink) : OnlyChanges [.hl] s { s with hl := h } := by
  intro p hp
  cases p <;> simp_all [State.agree]

theorem onlyChanges_fire (s : State) (f : Fire) : OnlyChanges [.fire] s { s with fire := f } := by
  intro p hp
  cases p <;> simp_all [State.agree]

theorem onlyChanges_host_onyx (s : State) (h : HostIf) (o : Onyx) : OnlyChanges [.host, .onyx] s { s with host := h, onyx := o } := by
  intro p hp
  cases p <;> simp_all [State.agree]

/-- What a trip changes. -/
def tripParts : List Part := [.host, .pers, .out, .hl, .fire, .onyx]

theorem emits_onlyChanges (os : List Output) (s : State) : OnlyChanges [.out] s (emits os s) := by
  intro p hp
  cases p <;> simp_all [State.agree, emits]

theorem blankLanes_onlyChanges (reason : Nat) (s : State) : OnlyChanges [.hl, .out] s (blankLanes reason s) :=
  ((onlyChanges_hl s _).mono (by decide)).trans ((emits_onlyChanges _ _).mono (by decide))

theorem withholdAll_onlyChanges (s : State) : OnlyChanges [.fire] s (withholdAll s) := onlyChanges_fire s _

theorem withholdAll_trains (s : State) : ∀ t ∈ (withholdAll s).fire.trains, t.st = .fired ∨ t.st = .withheld := by
  intro t ht
  obtain ⟨u, -, rfl⟩ := List.mem_map.mp ht
  split
  next h => exact .inl h
  next => exact .inr rfl

theorem tripLatched_onlyChanges (cause : Nat) (param : Word) (s : State) : OnlyChanges tripParts s (tripLatched cause param s) :=
  ((onlyChanges_host_onyx s _ _).mono (by decide)).trans
    (((blankLanes_onlyChanges 1 _).mono (by decide)).trans ((withholdAll_onlyChanges _).mono (by decide)))

section
variable (cause : Nat) (param : Word) (s : State)

theorem latchTrip_onlyChanges : OnlyChanges tripParts s (latchTrip cause param s) := by
  cases h : s.onyx.tripped with
  | true =>
    obtain ⟨m, n, c, q, e⟩ := latchTrip_again cause param h
    rw [e]
    exact (onlyChanges_onyx s _).mono (by decide)
  | false =>
    rw [latchTrip_first cause param h]
    exact (tripLatched_onlyChanges cause param s).trans
      (((setPermission_onlyChanges 2 4 false _).mono (by decide)).trans ((stick_onlyChanges .trip _).mono (by decide)))

theorem latchTrip_quiet : (latchTrip cause param s).pers.quiet = s.pers.quiet := (latchTrip_leaves cause param s).2.1

theorem latchTrip_pwr : (latchTrip cause param s).pwr = s.pwr := (latchTrip_leaves cause param s).1

theorem latchTrip_tripped : (latchTrip cause param s).onyx.tripped = true := by
  cases h : s.onyx.tripped with
  | true =>
    obtain ⟨m, n, c, q, e⟩ := latchTrip_again cause param h
    rw [e]
    exact h
  | false => exact (congrArg Onyx.tripped (latchTrip_onyx cause param h) :)

end

section
variable {cause : Nat} {param : Word} {s : State}

/-- What the first trip leaves on Onyx (R461, R464, R465). -/
theorem latchTrip_latches (h : s.onyx.tripped = false) :
    (latchTrip cause param s).onyx.cause = cause ∧ (latchTrip cause param s).onyx.param = param ∧
    (latchTrip cause param s).onyx.mask = 1#17 <<< cause ∧ (latchTrip cause param s).onyx.gateOpen = false ∧
    (latchTrip cause param s).onyx.tripSeq = s.onyx.tripSeq + 1 ∧ (latchTrip cause param s).onyx.tripLine = s.line ∧
    (latchTrip cause param s).onyx.tripAt = s.pos.mono := by
  have ho := latchTrip_onyx cause param h
  exact ⟨(congrArg Onyx.cause ho :), (congrArg Onyx.param ho :), (congrArg Onyx.mask ho :), (congrArg Onyx.gateOpen ho :),
    (congrArg Onyx.tripSeq ho :), (congrArg Onyx.tripLine ho :), (congrArg Onyx.tripAt ho :)⟩

theorem latchTrip_firing (h : s.onyx.tripped = false) : (latchTrip cause param s).host.firing = false := by
  obtain ⟨hq, -⟩ := setPermission_quiet 2 4 false (tripLatched cause param s)
  rw [latchTrip_first cause param h]
  exact (congrArg HostIf.firing ((stick_keeps _ .trip).host.trans hq) :)

theorem latchTrip_permission (h : s.onyx.tripped = false) : (latchTrip cause param s).onyx.permOnyx.getLsbD 3 = false := by
  rw [latchTrip_first cause param h]
  change (setPermission 2 4 false (tripLatched cause param s)).onyx.permOnyx.getLsbD 3 = false
  rw [setPermission_permOnyx_own, permSet_getLsbD false _ (by decide)]
  rfl

theorem latchTrip_trains (h : s.onyx.tripped = false) : ∀ t ∈ (latchTrip cause param s).fire.trains, t.st = .fired ∨ t.st = .withheld := by
  have hfire : (latchTrip cause param s).fire = (tripLatched cause param s).fire := by
    rw [latchTrip_first cause param h]
    exact (((setPermission_onlyChanges 2 4 false _).mono (qs := tripParts.erase .fire) (by decide)).trans
      ((stick_onlyChanges .trip _).mono (by decide)) .fire (by decide)).symm
  rw [hfire]
  exact withholdAll_trains _

/-- A trip while one is latched sets its bit and is counted (R466). -/
theorem latchTrip_more (h : s.onyx.tripped = true) (hc : s.onyx.cause ≤ cause ∨ s.pos.mono.toNat / 40 ≠ s.onyx.tripAt.toNat / 40) :
    latchTrip cause param s = { s with onyx := { s.onyx with mask := s.onyx.mask ||| (1#17 <<< cause), trips := satAdd s.onyx.trips 1 } } := by
  have hfirst : (decide (cause < s.onyx.cause) && s.pos.mono.toNat / 40 == s.onyx.tripAt.toNat / 40) = false := by
    rcases hc with hc | hc
    · rw [decide_eq_false (Nat.not_lt.mpr hc), Bool.false_and]
    · rw [beq_eq_false_iff_ne.mpr hc, Bool.and_false]
  unfold latchTrip
  rw [if_pos h]
  simp only [hfirst, Bool.false_eq_true, if_false]

/-- In the AON tick of the latch a lower code becomes the cause (R466). -/
theorem latchTrip_lower (h : s.onyx.tripped = true) (hc : cause < s.onyx.cause) (ht : s.pos.mono.toNat / 40 = s.onyx.tripAt.toNat / 40) :
    latchTrip cause param s = { s with onyx := { s.onyx with
      mask := s.onyx.mask ||| (1#17 <<< cause), trips := satAdd s.onyx.trips 1, cause := cause, param := param } } := by
  have hfirst : (decide (cause < s.onyx.cause) && s.pos.mono.toNat / 40 == s.onyx.tripAt.toNat / 40) = true := by
    rw [decide_eq_true hc, beq_iff_eq.mpr ht, Bool.true_and]
  unfold latchTrip
  rw [if_pos h]
  simp only [hfirst, if_true]

end

end Sys2Proof.Machine
end

section
/-!
PROOFS. Power states and supplies (R529, R531 to R536, R540, R541, R543).
-/
namespace Sys2Proof.Machine

/-! ## The lamp supply and the lanes below RUN (R529, R533) -/

theorem lampLow_onlyChanges (s : State) : OnlyChanges [.host, .pers, .out, .onyx] s (lampLow s) := by
  unfold lampLow
  split
  · exact ((onlyChanges_onyx s _).mono (by decide)).trans (((emit_onlyChanges _ _).mono (by decide)).trans
      ((stickRec_onlyChanges _ _ _).mono (by decide)))
  · exact .refl _ s

theorem lampLow_onyx (s : State) : (lampLow s).onyx = { s.onyx with lampPwr := false } := by
  unfold lampLow
  split
  next => exact emit_onyx _ _
  next h => exact congrArg (fun b => { s.onyx with lampPwr := b }) (Bool.eq_false_iff.mpr h)

theorem lampLow_keeps (s : State) : s.Keeps (lampLow s) := by
  unfold lampLow
  split
  · have hoff : s.Keeps { s with onyx := { s.onyx with lampPwr := false } } := .of_eq rfl rfl
    exact hoff.trans ((emit_keeps _ _).trans (stickRec_keeps _ _ _))
  · exact .refl s

theorem setOutputs_onlyChanges (op : OpState) (p : PwrState) (s : State) : OnlyChanges [.onyx] s (setOutputs op p s) := onlyChanges_onyx s _

/-- One lane of `lanesOff`. -/
def laneOff (m : Nat) (s : State) : State := enterLane m .disabled (setLane m (fun l => { l.forget with idleHeld := true }) (leaveActive m s))

theorem lanesOff_eq (s : State) : lanesOff s = forAll (List.range 16) laneOff s := rfl

theorem laneOff_onlyChanges (m : Nat) (s : State) : OnlyChanges [.host, .pers, .hl, .free, .out] s (laneOff m s) :=
  ((leaveActive_onlyChanges m s).mono (by decide)).trans ((enterLane_setLane_onlyChanges _).mono (by decide))

theorem enterLane_keeps (m : Nat) (st : LaneState) (s : State) : s.Keeps (enterLane m st s) :=
  .of_eq (emit_host _ _) (emit_pers _ _)

theorem leaveActive_keeps (m : Nat) (s : State) : s.Keeps (leaveActive m s) := by
  unfold leaveActive
  split
  · exact .refl s
  · exact (State.Keeps.of_eq (t := (takeFree s).2) rfl rfl).trans (stickEvent_keeps _ _ _)

theorem setLane_keeps (m : Nat) (f : Lane → Lane) (s : State) : s.Keeps (setLane m f s) := .of_eq rfl rfl

theorem laneOff_keeps (m : Nat) (s : State) : s.Keeps (laneOff m s) := by
  unfold laneOff
  exact (leaveActive_keeps m s).trans ((setLane_keeps m _ _).trans (enterLane_keeps m .disabled _))

theorem forAll_onlyChanges {ps : List Part} {f : Nat → State → State} (h : ∀ k s, OnlyChanges ps s (f k s)) (l : List Nat) (s : State) :
    OnlyChanges ps s (forAll l f s) := .foldl _ l s fun t k => h k t

theorem forAll_keepsLog {f : Nat → State → State} (h : ∀ k (s : State), s.Keeps (f k s)) (l : List Nat) (s : State) : s.Keeps (forAll l f s) :=
  .foldl _ l s fun t k => h k t

theorem lanesOff_onlyChanges (s : State) : OnlyChanges [.host, .pers, .hl, .free, .out] s (lanesOff s) := by
  rw [lanesOff_eq]
  exact forAll_onlyChanges laneOff_onlyChanges _ s

theorem lanesOff_keeps (s : State) : s.Keeps (lanesOff s) := by
  rw [lanesOff_eq]
  exact forAll_keepsLog laneOff_keeps _ s

theorem laneOff_length (m : Nat) (s : State) : (laneOff m s).hl.lanes.length = s.hl.lanes.length := by
  rw [laneOff, enterLane_length, setLane_length, leaveActive_hl]

theorem laneOff_same {m : Nat} {s : State} (h : m < s.hl.lanes.length) : ((laneOff m s).lane m).st = .disabled := by
  rw [laneOff, enterLane_setLane_same _ (leaveActive_hl.symm ▸ h)]
  rfl

theorem laneOff_stays {m j : Nat} {s : State} (hj : j < s.hl.lanes.length) (h : (s.lane j).st = .disabled) : ((laneOff m s).lane j).st = .disabled := by
  rcases eq_or_ne j m with rfl | hne
  · exact laneOff_same hj
  · rw [laneOff, enterLane_setLane_other _ hne, lane_of_hl leaveActive_hl, h]

theorem lanesOff_length (s : State) : (lanesOff s).hl.lanes.length = s.hl.lanes.length := by
  rw [lanesOff_eq]
  exact forAll_keeps (s := s) (f := laneOff) (P := fun t : State => t.hl.lanes.length = s.hl.lanes.length) (fun k t ht => (laneOff_length k t).trans ht) _ rfl

theorem lanesOff_lane {s : State} {j : Nat} (hl : s.hl.lanes.length = 16) (hj : j < 16) : ((lanesOff s).lane j).st = .disabled := by
  rw [lanesOff_eq]
  exact (forAll_reaches (P := fun t : State => t.hl.lanes.length = 16 ∧ (t.lane j).st = .disabled) (Q := fun t : State => t.hl.lanes.length = 16)
    (f := laneOff) (List.mem_range.mpr hj) (fun k t ht => (laneOff_length k t).trans ht)
    (fun t ht => ⟨(laneOff_length j t).trans ht, laneOff_same (by omega)⟩)
    (fun k t ht => ⟨(laneOff_length k t).trans ht.1, laneOff_stays (by omega) ht.2⟩) hl).2

theorem lanesOff_disabled {s : State} (hl : s.hl.lanes.length = 16) : ∀ l ∈ (lanesOff s).hl.lanes, l.st = .disabled := by
  intro l hmem
  obtain ⟨j, hj, rfl⟩ := List.getElem_of_mem hmem
  have hcell : (lanesOff s).lane j = (lanesOff s).hl.lanes[j] := by simp [State.lane, cell, hj]
  rw [← hcell]
  exact lanesOff_lane hl (hl ▸ lanesOff_length s ▸ hj)

/-! ## A drain ends (R531, R532) -/

section
variable {i : Fin 4} {k : Fin 16} {w : Option Word} {s : State}

/-- The state in which a drain has ended and the clocks of the PIPE island stop (R531). -/
def standbyEntered (i : Nat) (s : State) : State :=
  let s1 := setIsland i (fun x => { x with draining := false }) s
  lampLow (setOutputs s1.host.opState .standby { s1 with pwr := { s1.pwr with state := .standby, target := none } })

theorem islandDrainDone_standby (hd : (cell s.pwr.islands i {}).draining = true) (ht : s.pwr.target = some (.standby, some k.val, w)) :
    execIslandDrainDone i s = .next (respond k ok (standbyEntered i s)) := by
  unfold execIslandDrainDone
  rw [if_neg (by rw [hd]; decide), ht]
  rfl

theorem standbyEntered_pwr (i : Nat) (s : State) :
    (standbyEntered i s).pwr = { (setIsland i (fun x => { x with draining := false }) s).pwr with state := .standby, target := none } :=
  (lampLow_onlyChanges _ .pwr (by decide)).symm

theorem standbyEntered_lamp (i : Nat) (s : State) : (standbyEntered i s).onyx.lampPwr = false :=
  congrArg Onyx.lampPwr (lampLow_onyx _)

/-- The PIPE island as its isolation leaves it: off, with its pads held (R532). -/
def pipeOff (i : Nat) (s : State) : State :=
  setIsland i (fun x => { x with on := false, stage := 0, padHeld := true }) (setIsland i (fun x => { x with draining := false }) s)

/-- HOLD is in force once the lanes are off (R532, R533). -/
def holdEntered (s2 : State) : State :=
  lampLow (setOutputs s2.host.opState .hold { s2 with
    pwr := { s2.pwr with state := .hold, target := none }
    insp := { s2.insp with cams := s2.insp.cams.map fun c => { c with st := .off } } })

theorem islandDrainDone_hold (hd : (cell s.pwr.islands i {}).draining = true) (ht : s.pwr.target = some (.hold, some k.val, w)) :
    execIslandDrainDone i s = .next (respond k ok (holdEntered (lanesOff (pipeOff i s)))) := by
  unfold execIslandDrainDone
  rw [if_neg (by rw [hd]; decide), ht]
  dsimp only [holdEntered, pipeOff]

theorem holdEntered_pwr (s : State) : (holdEntered s).pwr = { s.pwr with state := .hold, target := none } :=
  (lampLow_onlyChanges _ .pwr (by decide)).symm

theorem holdEntered_lamp (s : State) : (holdEntered s).onyx.lampPwr = false := congrArg Onyx.lampPwr (lampLow_onyx _)

theorem holdEntered_hl (s : State) : (holdEntered s).hl = s.hl := (lampLow_onlyChanges _ .hl (by decide)).symm

theorem pipeOff_island (hl : s.pwr.islands.length = 4) : cell (pipeOff 2 s).pwr.islands 2 {} =
    { cell s.pwr.islands 2 {} with draining := false, on := false, stage := 0, padHeld := true } := by
  simp only [pipeOff, setIsland_pwr, upd_upd]
  exact cell_upd_same _ _ (by omega)

theorem holdEntered_claim {u : State} (hpwr : u.pwr = (pipeOff 2 s).pwr) (hl : s.pwr.islands.length = 4)
    (hoff : ∀ l ∈ u.hl.lanes, l.st = .disabled) : (holdEntered u).pwr.state = .hold ∧ (cell (holdEntered u).pwr.islands 2 {}).on = false ∧
      (cell (holdEntered u).pwr.islands 2 {}).padHeld = true ∧ (∀ l ∈ (holdEntered u).hl.lanes, l.st = .disabled) ∧
      (holdEntered u).onyx.lampPwr = false := by
  have hisland := pipeOff_island hl
  rw [← hpwr] at hisland
  refine ⟨congrArg Pwr.state (holdEntered_pwr u), ?_, ?_, ?_, holdEntered_lamp u⟩
  · rw [holdEntered_pwr, hisland]
  · rw [holdEntered_pwr, hisland]
  · rw [holdEntered_hl]
    exact hoff

theorem islandDrainDone_holds (hd : (cell s.pwr.islands 2 {}).draining = true) (hl : s.pwr.islands.length = 4) (hlanes : s.hl.lanes.length = 16)
    (ht : s.pwr.target = some (.hold, some k.val, w)) : ∃ t, execIslandDrainDone 2 s = .next (respond k ok t) ∧ t.pwr.state = .hold ∧
      (cell t.pwr.islands 2 {}).on = false ∧ (cell t.pwr.islands 2 {}).padHeld = true ∧ (∀ l ∈ t.hl.lanes, l.st = .disabled) ∧
      t.onyx.lampPwr = false := by
  have hpwr := (lanesOff_onlyChanges (pipeOff 2 s) .pwr (by decide)).symm
  have hoff := lanesOff_disabled (s := pipeOff 2 s) hlanes
  have he := islandDrainDone_hold (i := 2) hd ht
  rw [show ((2 : Fin 4) : Nat) = 2 from rfl] at he
  generalize lanesOff (pipeOff 2 s) = u at hpwr hoff he
  exact ⟨_, he, holdEntered_claim hpwr hl hoff⟩

theorem drainTimeout_busy {n : Nat} {p : PwrState} (hd : (cell s.pwr.islands i {}).draining = true) (ht : s.pwr.target = some (p, some k.val, w))
    (hdue : s.aonDue (cell s.pwr.islands i {}).drainAt 100000 = true) : execDrainTimeout i n s =
      .next (respond k { status := 0x13, payload := [w32 i] } (stickEvent .drainTimeout { ev := .drainTimeout, p0 := w32 i, p1 := w32 n }
        (setIsland i (fun x => { x with draining := false })
          { s with pwr := { s.pwr with target := none, drainTimeouts := satAdd s.pwr.drainTimeouts 1 } }))) := by
  unfold execDrainTimeout
  dsimp only
  rw [if_neg (by rw [hd, hdue]; decide), ht]

end

/-! ## SLEEP (R533, R535) -/

theorem setAxisEnable_onlyChanges (a : Nat) (level : Bool) (why : Nat) (s : State) :
    OnlyChanges [.host, .pers, .out, .axes] s (setAxisEnable a level why s) := by
  unfold setAxisEnable
  extract_lets _ s1 e
  have h1 : OnlyChanges [.host, .pers, .out, .axes] s s1 := (onlyChanges_axes s _).mono (by decide)
  split
  · exact .refl _ s
  · split
    · exact h1.trans ((event_onlyChanges e s1).mono (by decide))
    · exact h1.trans ((stickEvent_onlyChanges _ e s1).mono (by decide))

theorem setAxisEnable_keeps (a : Nat) (level : Bool) (why : Nat) (s : State) : s.Keeps (setAxisEnable a level why s) := by
  unfold setAxisEnable
  extract_lets _ s1 e
  have h1 : s.Keeps s1 := .of_eq rfl rfl
  split
  · exact .refl s
  · split
    · exact h1.trans (event_keeps s1 e)
    · exact h1.trans (stickEvent_keeps s1 _ e)

theorem setAxisEnable_ax (a : Nat) (level : Bool) (why : Nat) (s : State) :
    (setAxisEnable a level why s).axes.ax = s.axes.ax ∧ (cell s.axes.ax a {}).enabled = level ∨
    (setAxisEnable a level why s).axes.ax = upd s.axes.ax a (fun x => { x with enabled := level }) := by
  unfold setAxisEnable
  split
  next h => exact .inl ⟨rfl, h⟩
  next =>
    refine .inr ?_
    dsimp only
    split <;> rfl

theorem setAxisEnable_low (a : Nat) (why : Nat) (s : State) : (cell (setAxisEnable a false why s).axes.ax a {}).enabled = false := by
  rcases setAxisEnable_ax a false why s with ⟨hsame, hlow⟩ | hupd
  · rw [hsame, hlow]
  · rw [hupd]
    by_cases ha : a < s.axes.ax.length
    · rw [cell_upd_same _ _ ha]
    · rw [upd, List.modify_eq_self (Nat.le_of_not_lt ha), cell, List.getD_eq_default _ _ (Nat.le_of_not_lt ha)]

theorem setAxisEnable_staysLow (a j : Nat) (why : Nat) {s : State} (h : (cell s.axes.ax j {}).enabled = false) :
    (cell (setAxisEnable a false why s).axes.ax j {}).enabled = false := by
  rcases setAxisEnable_ax a false why s with ⟨hsame, -⟩ | hupd
  · rw [hsame, h]
  · rw [hupd]
    exact cell_upd_of (P := fun x : Axis => x.enabled = false) a (fun _ _ => rfl) h

/-- Every enable falls on the way into SLEEP. -/
def enablesLow (op : OpState) (why : Nat) (s : State) : State := setAxisEnable 1 false why (setAxisEnable 0 false why (setOutputs op .sleep s))

/-- SLEEP is in force: the wear counters are stored, and the islands are off with their pads held (R507, R533). -/
def asleep (now : Dword) (s1 : State) : State :=
  { s1 with
    pers := orderlyStore s1.pers
    pwr := { s1.pwr with state := .sleep, sleepArmed := false, target := none, sleepMinutes := 0, minuteAt := now
                         islands := s1.pwr.islands.map fun _ => { islandOff with padHeld := true } }
    host := { s1.host with mbxReady := false, berylRunning := false, linkInL2 := s1.host.linkUp, d3hot := s1.host.linkUp } }

section
variable {s : State}

theorem enablesLow_onyx (op : OpState) (why : Nat) (s : State) : (enablesLow op why s).onyx = (setOutputs op .sleep s).onyx :=
  (((setAxisEnable_onlyChanges 0 false why _).trans (setAxisEnable_onlyChanges 1 false why _)) .onyx (by decide)).symm

theorem setOutputs_sleep (op : OpState) (s : State) : (setOutputs op .sleep s).onyx.hpwrA = false ∧ (setOutputs op .sleep s).onyx.hpwrB = false ∧
    (setOutputs op .sleep s).onyx.safeOk = false ∧ (setOutputs op .sleep s).onyx.lampPwr = s.onyx.lampPwr :=
  ⟨Bool.and_false _, Bool.and_false _, Bool.and_false _, rfl⟩

theorem enablesLow_axes (op : OpState) (why : Nat) (s : State) {a : Nat} (ha : a < 2) :
    (cell (enablesLow op why s).axes.ax a {}).enabled = false := by
  obtain rfl | rfl : a = 0 ∨ a = 1 := by omega
  · exact setAxisEnable_staysLow 1 0 _ (setAxisEnable_low 0 _ _)
  · exact setAxisEnable_low 1 _ _

theorem enablesLow_keeps (op : OpState) (why : Nat) (s : State) : s.Keeps (enablesLow op why s) :=
  ((State.Keeps.of_eq (s := s) (t := setOutputs op .sleep s) rfl rfl).trans (setAxisEnable_keeps 0 false why _)).trans
    (setAxisEnable_keeps 1 false why _)

/-- The state in which the lanes and the lamp supply are off, of a unit that enters SLEEP. -/
def darkened (s : State) : State := lampLow (lanesOff (takeFree s).2)

theorem darkened_keeps (s : State) : s.Keeps (darkened s) :=
  ((State.Keeps.of_eq (s := s) (t := (takeFree s).2) rfl rfl).trans (lanesOff_keeps _)).trans (lampLow_keeps _)

theorem darkened_lamp (s : State) : (darkened s).onyx.lampPwr = false := by
  unfold darkened
  rw [lampLow_onyx]

theorem sleepEnter_sleeps (harmed : s.pwr.sleepArmed = true) (hq : vigilQuiet s = true) :
    execSleepEnter s = .next (asleep s.pos.mono (enablesLow s.host.opState (takeFree s).1 (darkened s))) := by
  unfold execSleepEnter
  rw [if_neg (by rw [harmed, hq]; decide)]
  dsimp only [asleep, enablesLow, darkened]

theorem asleep_claim {t : State} {now : Dword} (hw : t.pers.wear = s.pers.wear) : (asleep now t).pwr.state = .sleep ∧
    (asleep now t).pwr.sleepArmed = false ∧ (asleep now t).pers.wearStore = s.pers.wear ∧ (asleep now t).pers.clean = true ∧
    (∀ i ∈ (asleep now t).pwr.islands, i.on = false ∧ i.padHeld = true) ∧ (asleep now t).host.mbxReady = false := by
  refine ⟨rfl, rfl, hw, rfl, fun i hi => ?_, rfl⟩
  obtain ⟨_, -, rfl⟩ := List.mem_map.mp hi
  exact ⟨rfl, rfl⟩

theorem sleepEnter_claim (harmed : s.pwr.sleepArmed = true) (hq : vigilQuiet s = true) : ∃ t, execSleepEnter s = .next t ∧ t.pwr.state = .sleep ∧
    t.pwr.sleepArmed = false ∧ t.pers.wearStore = s.pers.wear ∧ t.pers.clean = true ∧ t.onyx.hpwrA = false ∧ t.onyx.hpwrB = false ∧
    t.onyx.safeOk = false ∧ t.onyx.lampPwr = false ∧ (∀ a, a < 2 → (cell t.axes.ax a {}).enabled = false) ∧
    (∀ i ∈ t.pwr.islands, i.on = false ∧ i.padHeld = true) ∧ t.host.mbxReady = false := by
  have hlamp := darkened_lamp s
  have hkept := ((darkened_keeps s).trans (enablesLow_keeps s.host.opState (takeFree s).1 _)).pers
  have he := sleepEnter_sleeps harmed hq
  generalize darkened s = d at hlamp hkept he
  have honyx := enablesLow_onyx s.host.opState (takeFree s).1 d
  have haxes := fun a (ha : a < 2) => enablesLow_axes s.host.opState (takeFree s).1 d ha
  obtain ⟨ha, hb, hok, hsame⟩ := setOutputs_sleep s.host.opState d
  generalize enablesLow s.host.opState (takeFree s).1 d = t at hkept he honyx haxes
  obtain ⟨-, hwear, -⟩ := sansQueue_of_quiet hkept
  obtain ⟨hstate, hunarmed, hstore, hclean, hislands, hready⟩ := asleep_claim (s := s) (now := s.pos.mono) hwear
  exact ⟨_, he, hstate, hunarmed, hstore, hclean, (congrArg Onyx.hpwrA honyx).trans ha, (congrArg Onyx.hpwrB honyx).trans hb,
    (congrArg Onyx.safeOk honyx).trans hok, (congrArg Onyx.lampPwr honyx).trans (hsame.trans hlamp), haxes, hislands, hready⟩

theorem sleepAborted_aborts {r : Fin 3} (harmed : s.pwr.sleepArmed = true) (hr : r ≠ 0) (hdue : s.aonDue s.pwr.armedAt 1000000000 = true) :
    execSleepAborted r s = .next (stickEvent .sleepAborted { ev := .sleepAborted, p0 := w32 r } { s with pwr := { s.pwr with sleepArmed := false } }) := by
  have hr' : (r : Nat) ≠ 0 := fun h => hr (Fin.ext h)
  exact congrArg Host.Outcome.next (if_neg (by simp [harmed, hdue, hr]))

theorem sleeping_rows (hs : s.pwr.state = .sleep) :
    (s.aonDue s.pwr.minuteAt 60000000000 = true →
      execSleepMinute s = .next { s with pwr := { s.pwr with sleepMinutes := s.pwr.sleepMinutes + 1, minuteAt := s.pos.mono } }) ∧
    (s.aonDue s.pwr.minuteAt 60000000000 = false → execSleepMinute s = .next s) ∧ execPcieL2Exit s = .next (wake 4 s) ∧
    (s.pwr.wakeVigil = true → execVigilActivityWake s = .next (wake 1 s)) ∧ (s.pwr.wakeVigil = false → execVigilActivityWake s = .next s) ∧
    (s.pwr.wakePattern = true → execVigilWakePattern s = .next (wake 2 s)) ∧
    (s.pwr.wakePattern = false → execVigilWakePattern s = .next s) := by
  refine ⟨fun h => congrArg _ (if_pos ⟨hs, h⟩), fun h => congrArg _ (if_neg (by simp [h])), congrArg _ (if_pos hs),
    fun h => congrArg _ (if_pos ⟨hs, h⟩), fun h => congrArg _ (if_neg (by simp [h])), fun h => ?_, fun h => congrArg _ (if_pos (by simp [h]))⟩
  exact congrArg Host.Outcome.next ((if_neg (by simp [h])).trans (if_pos hs))

theorem ethWakeFrame_wakes {payload : List Byte} (hs : s.pwr.state = .sleep) (he : s.pwr.wakeEth = true) (hlen : 12 ≤ payload.length)
    (hserial : leN payload 0 8 = Config.serial.toNat) (hkey : leN payload 8 4 = s.pwr.wakeKey.toNat) :
    execEthWakeFrame true s.pwr.wakeEtype payload s = .next (wake 3 s) ∧ execEthWakeFrame false s.pwr.wakeEtype payload s = .next s :=
  ⟨congrArg _ (if_pos ⟨hs, he, rfl, rfl, hserial, hkey, hlen⟩), congrArg _ (if_neg (by simp))⟩

theorem wake_claim (n : Fin 5) (s : State) :
    (wake n s).host.opState = .boot ∧ (wake n s).pwr.cause = 16 ∧ (wake n s).pwr.wakeSrc = BitVec.ofNat 3 n :=
  ⟨(congrArg HostIf.opState (chipReset_keeps 4 s).host :), congrArg Pwr.cause (chipReset_pwr 4 s), rfl⟩

end

theorem powerStates : Claims.PowerStates := by
  unfold Claims.PowerStates
  refine ⟨?standby, ?hold, ?timeout, ?enter, ?aborted, fun s hs => sleeping_rows hs, ?eth, wake_claim⟩
  case standby =>
    exact fun i k w s hd ht => ⟨_, islandDrainDone_standby hd ht, congrArg Pwr.state (standbyEntered_pwr i s),
      congrArg Pwr.target (standbyEntered_pwr i s), standbyEntered_lamp i s⟩
  case hold =>
    intro k w s hd hl hlanes ht
    obtain ⟨t, he, hrest⟩ := islandDrainDone_holds hd hl hlanes ht
    exact ⟨t, he, hrest⟩
  case timeout => exact fun i n k p w s hd ht hdue => drainTimeout_busy hd ht hdue
  case enter => exact fun s harmed hq => sleepEnter_claim harmed hq
  case aborted => exact fun r s harmed hr hdue => sleepAborted_aborts harmed hr hdue
  case eth => exact fun payload s hs he hlen hserial hkey => ethWakeFrame_wakes hs he hlen hserial hkey

/-! ## Supplies (R540, R541, R543) -/

section
variable {s : State}

/-- The power controller at the onset of a brownout (R540, R541). -/
def Pwr.browned (mv : Nat) (p : Pwr) : Pwr :=
  { noteVcore mv p with
    warnNow := true, brownout := true, coreStable := false, riseAt := none, brownouts := satAdd p.brownouts 1, dipMin := mv, dipUs := 0 }

theorem brownoutWarn_begins {mv : Nat} (hw : s.pwr.warnNow = false) (hmv : mv < 705) : execBrownoutWarn mv s =
    .next (setPermission 2 3 false (setPermission 1 3 false (stick .brownoutWarn { s with pwr := s.pwr.browned mv }))) :=
  congrArg Host.Outcome.next (if_neg (by simp [hw, hmv]))

theorem supplyWithdrawn (s : State) : (setPermission 2 3 false (setPermission 1 3 false s)).onyx.permMain.getLsbD 2 = false ∧
    (setPermission 2 3 false (setPermission 1 3 false s)).onyx.permOnyx.getLsbD 2 = false := by
  constructor
  · rw [setPermission_permMain_own, setPermission_permMain_main, permSet_getLsbD false _ (by decide)]
    rfl
  · rw [setPermission_permOnyx_own, permSet_getLsbD false _ (by decide)]
    rfl

theorem brownoutWarn_claim {mv : Nat} (hw : s.pwr.warnNow = false) (hmv : mv < 705) : ∃ t, execBrownoutWarn mv s = .next t ∧
    t.permits 3 = false ∧ t.onyx.permMain.getLsbD 2 = false ∧ t.onyx.permOnyx.getLsbD 2 = false ∧ t.pwr.brownout = true ∧ t.pwr.warnNow = true ∧
    t.pwr.coreStable = false ∧ t.pwr.brownouts = satAdd s.pwr.brownouts 1 ∧ t.pwr.vcore = mv ∧ t.pwr.vcoreMin = min s.pwr.vcoreMin mv := by
  obtain ⟨hmain, hown⟩ := supplyWithdrawn (stick .brownoutWarn { s with pwr := s.pwr.browned mv })
  have hpwr : (setPermission 2 3 false (setPermission 1 3 false (stick .brownoutWarn { s with pwr := s.pwr.browned mv }))).pwr = s.pwr.browned mv :=
    (setPermission_pwr 2 3 false _).trans (setPermission_pwr 1 3 false _)
  refine ⟨_, brownoutWarn_begins hw hmv, ?_, hmain, hown, congrArg Pwr.brownout hpwr, congrArg Pwr.warnNow hpwr, congrArg Pwr.coreStable hpwr,
    congrArg Pwr.brownouts hpwr, congrArg Pwr.vcore hpwr, congrArg Pwr.vcoreMin hpwr⟩
  unfold State.permits
  rw [hown]
  simp

theorem brownout_reset {mv us : Nat} (hw : s.pwr.warnNow = true) (h : s.pwr.uvHeld = true ∨ s.pwr.uvPending = true) : ∃ t, execBrownout mv us s = .next t ∧
    OnlyChanges [.pwr] s t ∧ t.pwr.warnNow = false ∧ t.pwr.riseAt = some s.pos.mono :=
  ⟨_, congrArg Host.Outcome.next ((if_neg (by simp [hw])).trans (if_pos h)), onlyChanges_pwr s _, rfl, rfl⟩

theorem brownout_reports {mv us : Nat} (hw : s.pwr.warnNow = true) (hheld : s.pwr.uvHeld = false) (hpend : s.pwr.uvPending = false) :
    ∃ t, execBrownout mv us s = .next t ∧
      t = event { ev := .brownout, p0 := w32 mv, p1 := w32 us, always := true } { s with pwr := t.pwr } ∧
      t.pwr.warnNow = false ∧ t.pwr.brownout = s.pwr.brownout ∧ t.pwr.riseAt = some s.pos.mono :=
  ⟨_, congrArg Host.Outcome.next ((if_neg (by simp [hw])).trans (if_neg (by simp [hheld, hpend]))), rfl, rfl, rfl, rfl⟩

theorem coreStable_early {at_ : Dword} (hr : s.pwr.riseAt = some at_) (hd : s.aonDue at_ 1000000 = false) : execCoreStable s = .next s :=
  congrArg Host.Outcome.next (if_pos (.inr (by simp [hr, hd])))

theorem coreStable_grants (hw : s.pwr.warnNow = false) (hreset : s.pwr.inReset = false)
    (hd : ∀ t, s.pwr.riseAt = some t → s.aonDue t 1000000 = true) :
    ∃ t, execCoreStable s = .next t ∧ t.pwr.coreStable = true ∧ t.onyx.permOnyx.getLsbD 2 = true := by
  have hrise : (s.pwr.riseAt.any fun t => !s.aonDue t 1000000) = false := by
    cases hr : s.pwr.riseAt with
    | none => rfl
    | some t => simp [hd t hr]
  have he : execCoreStable s = .next (noteGrant (setPermission 2 3 true { s with pwr := { s.pwr with coreStable := true, uvHeld := false } })) :=
    congrArg Host.Outcome.next ((if_neg (by simp [hw, hrise])).trans (if_neg (by simp [hreset])))
  exact ⟨_, he, congrArg Pwr.coreStable (setPermission_pwr 2 3 true _), (setPermission_own _ (p := 3) (by decide)).1⟩

theorem coreUndervoltage_trips (h : s.onyx.tripped = false) : ∃ t, execCoreUndervoltage s = .next t ∧ t.onyx.tripped = true ∧ t.onyx.cause = 11 ∧
    t.onyx.gateOpen = false ∧ t.pwr.uvPending = true ∧ t.pwr.coreStable = false ∧ t.host.firing = false := by
  generalize hu : activeNow 11 { s with pwr := { s.pwr with
    uvPending := true, uvAt := if s.pwr.uvPending then s.pwr.uvAt else s.pos.mono, coreStable := false, warnNow := true, riseAt := none } } = u
  have htrip : u.onyx.tripped = false := hu ▸ h
  have hpwr := latchTrip_pwr 11 0 u
  obtain ⟨hcause, -, -, hgate, -⟩ := latchTrip_latches (cause := 11) (param := 0) htrip
  exact ⟨latchTrip 11 0 u, congrArg (fun t => Host.Outcome.next (latchTrip 11 0 t)) hu, latchTrip_tripped 11 0 u, hcause, hgate,
    (congrArg Pwr.uvPending hpwr).trans (hu ▸ rfl), (congrArg Pwr.coreStable hpwr).trans (hu ▸ rfl), latchTrip_firing htrip⟩

end

theorem supplies : Claims.Supplies := by
  unfold Claims.Supplies
  refine ⟨?above, ?onset, ?reset, ?ends, ?early, ?stable, fun s h => coreUndervoltage_trips h⟩
  case above => exact fun mv s h => congrArg _ (if_pos (.inr h))
  case onset => exact fun mv s hw hmv => brownoutWarn_claim hw hmv
  case reset => exact fun mv us s hw h => brownout_reset hw h
  case ends => exact fun mv us s hw hheld hpend => brownout_reports hw hheld hpend
  case early => exact fun at_ s hr hd => coreStable_early hr hd
  case stable => exact fun s hw hreset hd => coreStable_grants hw hreset hd

/-- Settles O17: each move to a power state is followed through the lamp, the lanes and the enables, and each supply row through its permission. -/
theorem powerAndSupplies : Obligations.PowerAndSupplies := ⟨powerStates, supplies⟩

end Sys2Proof.Machine
end

section
/-!
PROOFS. Steps that leave the host interface and persistent storage to the log: aborts of groups, changes of role, and the ends of motions (R92, R378, R411, R439).
-/
namespace Sys2Proof.Machine

/-! ## Frames with the log -/

/-- From `s` to `t` only the parts named have changed, and of the host interface and persistent storage what the log writes. -/
structure Quietly (ps : List Part) (s t : State) : Prop where
  /-- The frame. -/
  parts : OnlyChanges ps s t
  /-- What the log leaves. -/
  keeps : s.Keeps t

namespace Quietly
variable {ps qs : List Part} {s t u : State}

theorem refl (ps : List Part) (s : State) : Quietly ps s s := ⟨.refl ps s, .refl s⟩

theorem trans (h : Quietly ps s t) (k : Quietly ps t u) : Quietly ps s u := ⟨h.parts.trans k.parts, h.keeps.trans k.keeps⟩

theorem mono (h : Quietly ps s t) (hs : ps ⊆ qs) : Quietly qs s t := ⟨h.parts.mono hs, h.keeps⟩

theorem foldl {α : Type} (g : State → α → State) (l : List α) (s : State) (h : ∀ (t : State) x, Quietly ps t (g t x)) : Quietly ps s (l.foldl g s) :=
  ⟨.foldl g l s fun t x => (h t x).parts, .foldl g l s fun t x => (h t x).keeps⟩

/-- A step that leaves the host interface and persistent storage as they are. -/
theorem of_frame (h : OnlyChanges ps s t) (hh : Part.host ∉ ps) (hp : Part.pers ∉ ps) : Quietly ps s t :=
  ⟨h, .of_eq (h .host hh).symm (h .pers hp).symm⟩

end Quietly

theorem event_quietly (e : Event) (s : State) : Quietly logParts s (event e s) := ⟨event_onlyChanges e s, event_keeps s e⟩

theorem eventAt_quietly (line : Word) (e : Event) (s : State) : Quietly logParts s (eventAt line e s) :=
  ⟨withLog_onlyChanges _ s, withLog_keeps s (s.log.event_keeps _ e)⟩

theorem stickEvent_quietly (k : Sticky) (e : Event) (s : State) : Quietly logParts s (stickEvent k e s) :=
  ⟨stickEvent_onlyChanges k e s, stickEvent_keeps s k e⟩

theorem stickRec_quietly (k : Sticky) (source : Nat) (s : State) : Quietly logParts s (stickRec k s source) :=
  ⟨stickRec_onlyChanges k source s, stickRec_keeps s k source⟩

theorem sendVec_quietly (v : Nat) (s : State) : Quietly logParts s (sendVec v s) := ⟨withLog_onlyChanges _ s, sendVec_keeps s v⟩

theorem complete_quietly (opcode : Nat) (tag : Word) (status : Nat) (p0 p1 p2 : Word) (s : State) :
    Quietly logParts s (complete opcode tag status p0 p1 p2 s) := ⟨complete_onlyChanges _ _ _ _ _ _ s, complete_keeps s _ _ _ _ _ _⟩

theorem respond_quietly (slot : Nat) (a : Ans) (s : State) : Quietly logParts s (respond slot a s) :=
  ⟨(respond_onlyChanges slot a s).mono (by decide), respond_keeps s slot a⟩

theorem takeFree_quietly (s : State) : Quietly [.free] s (takeFree s).2 := .of_frame (takeFree_onlyChanges s) (by decide) (by decide)

/-! ## Aborts and roles -/

/-- What the abort of a group may change (R92, R310, R439). -/
def abortParts : List Part := [.cg, .pos, .scr, .hl, .lamp, .cal, .twin, .host, .pers, .out]

theorem abortGroupTo_quietly (again : Bool) (g cause : Nat) (s : State) : Quietly abortParts s (abortGroupTo again g cause s) := by
  refine ⟨?_, abortGroupTo_keeps again g cause s⟩
  by_cases h : (s.cg.group g).st = .armed
  · cases ho : (s.cg.group g).ownerCal
    · have hhost := (abortHost_onlyChanges cause g s).mono (qs := abortParts) (by decide)
      rw [abortGroupTo_host again cause h ho]
      split
      · exact hhost.trans ((failJoin_onlyChanges 1 _).mono (by decide))
      · exact hhost
    · have hcal := (abortCal_onlyChanges cause g s).mono (qs := abortParts) (by decide)
      rw [abortGroupTo_cal again cause h ho]
      split
      · exact hcal.trans ((onlyChanges_cal _ _).mono (by decide))
      · exact hcal.trans ((dropResult_onlyChanges cause _).mono (by decide))
  · rw [abortGroupTo_idle again cause h]
    exact .refl _ s

theorem failJoin_quietly (what : Nat) (s : State) : Quietly (.twin :: logParts) s (failJoin what s) :=
  ⟨failJoin_onlyChanges what s, failJoin_keeps what s⟩

theorem failSwitch_quietly (s : State) : Quietly (.twin :: logParts) s (failSwitch s) := by
  unfold failSwitch
  split
  · exact .refl _ s
  · have h1 : Quietly (.twin :: logParts) s { s with twin := { s.twin with swLine := none } } :=
      (Quietly.of_frame (onlyChanges_twin s _) (by decide) (by decide)).mono (by decide)
    have h2 := h1.trans ((stickRec_quietly .switchoverFailed 0 _).mono (by decide))
    dsimp only
    split
    · exact h2.trans ((complete_quietly _ _ _ _ _ _ _).mono (by decide))
    · exact h2

/-- One group of calibration's that aborts as the role leaves SOLO. -/
theorem leaveSolo_quietly (s : State) : Quietly abortParts s (leaveSolo s) := by
  refine .foldl _ _ s fun t g => ?_
  dsimp only
  split
  · exact .refl _ t
  · exact abortGroupTo_quietly false g 1 t

theorem leaveJoin_quietly (s : State) : Quietly (.free :: .twin :: logParts) s (leaveJoin s) := by
  unfold leaveJoin
  split
  · exact .refl _ s
  · exact ((takeFree_quietly s).mono (by decide)).trans ((failJoin_quietly _ _).mono (by decide))

/-- What the old role leaves behind (R310, R411, R439). -/
def roleLeft (s : State) : State :=
  if s.twin.role = .solo then leaveSolo s else if s.twin.role = .standby then leaveJoin s else s

theorem roleLeft_quietly (s : State) : Quietly (.free :: abortParts) s (roleLeft s) := by
  unfold roleLeft
  split
  · exact (leaveSolo_quietly s).mono (by decide)
  · split
    · exact (leaveJoin_quietly s).mono (by decide)
    · exact .refl _ s

/-- The state in which a new role is in force and has not been reported. -/
def roleTaken (new : Role) (s0 : State) : State :=
  { s0 with twin := { s0.twin with role := new, claimOwn := if new = .listen then 0 else s0.twin.claimOwn }
            hl := { s0.hl with lanes := s0.hl.lanes.map fun l => { l with otherRun := 0, higherRun := 0 } } }

theorem setRole_same {new : Role} {s : State} (h : s.twin.role = new) : setRole new s = s := if_pos h

theorem setRole_new {new : Role} {s : State} (h : s.twin.role ≠ new) : setRole new s =
    sendVec 3 (event { ev := .roleChanged, p0 := w32 s.twin.role.code, p1 := w32 new.code, p2 := (roleTaken new (roleLeft s)).twin.claimOwn }
      (roleTaken new (roleLeft s))) := if_neg h

theorem roleTaken_quietly (new : Role) (s : State) : Quietly [.twin, .hl] s (roleTaken new s) := by
  refine .of_frame ?_ (by decide) (by decide)
  intro p hp
  cases p <;> simp_all [State.agree, roleTaken]

theorem setRole_quietly (new : Role) (s : State) : Quietly (.free :: abortParts) s (setRole new s) := by
  by_cases h : s.twin.role = new
  · rw [setRole_same h]
    exact .refl _ s
  · rw [setRole_new h]
    exact ((roleLeft_quietly s).trans ((roleTaken_quietly new _).mono (by decide))).trans
      (((event_quietly _ _).mono (by decide)).trans ((sendVec_quietly 3 _).mono (by decide)))

theorem setRole_role (new : Role) (s : State) : (setRole new s).twin.role = new := by
  by_cases h : s.twin.role = new
  · rw [setRole_same h, h]
  · rw [setRole_new h]
    rfl

/-! ## Groups that are not ARMED -/

theorem abortGroup_staysUnarmed {g cause j : Nat} {s : State} (h : (s.cg.group j).st ≠ .armed) : ((abortGroup g cause s).cg.group j).st ≠ .armed := by
  by_cases hj : j = g
  · subst hj
    exact abortGroup_ends
  · rwa [abortGroup_other hj]

/-- No group is armed anew, and the state in force stays. -/
structure NoneArms (s t : State) : Prop where
  /-- A group that is not ARMED. -/
  unarmed : ∀ g, (s.cg.group g).st ≠ .armed → (t.cg.group g).st ≠ .armed
  /-- The objects in force. -/
  inForce : t.cg.inForce = s.cg.inForce

namespace NoneArms
variable {s t u : State}

theorem of_cg (h : t.cg = s.cg) : NoneArms s t := ⟨fun g hg => by rwa [h], by rw [h]⟩

theorem trans (h : NoneArms s t) (k : NoneArms t u) : NoneArms s u := ⟨fun g hg => k.unarmed g (h.unarmed g hg), k.inForce.trans h.inForce⟩

theorem foldl {α : Type} (g : State → α → State) (l : List α) (s : State) (h : ∀ (t : State) x, NoneArms t (g t x)) : NoneArms s (l.foldl g s) :=
  List.foldlRecOn (motive := NoneArms s) l g (.of_cg rfl) fun t ht x _ => ht.trans (h t x)

end NoneArms

theorem abortGroup_noneArms (g cause : Nat) (s : State) : NoneArms s (abortGroup g cause s) :=
  ⟨fun _ h => abortGroup_staysUnarmed h, abortGroup_inForce⟩

theorem abortArmed_noneArms (cause : Nat) (s : State) : NoneArms s (abortArmed cause s) := .foldl _ _ s fun t g => abortGroup_noneArms g cause t

theorem abortArmed_quietly (cause : Nat) (s : State) : Quietly abortParts s (abortArmed cause s) :=
  .foldl _ _ s fun t g => abortGroupTo_quietly false g cause t

theorem abortArmed_unarmed (cause : Nat) (s : State) {g : Nat} (hg : g < 4) : ((abortArmed cause s).cg.group g).st ≠ .armed :=
  forAll_reaches (P := fun t : State => (t.cg.group g).st ≠ .armed) (Q := fun _ => True) (f := fun g t => abortGroup g cause t)
    (List.mem_range.mpr hg) (fun _ _ h => h) (fun _ _ => abortGroup_ends) (fun _ _ h => abortGroup_staysUnarmed h) trivial

theorem roleLeft_noneArms (s : State) : NoneArms s (roleLeft s) := by
  unfold roleLeft
  split
  · refine .foldl _ _ s fun t g => ?_
    dsimp only
    split
    · exact .of_cg rfl
    · exact abortGroup_noneArms g 1 t
  · split
    · exact .of_cg ((leaveJoin_quietly s).parts .cg (by decide)).symm
    · exact .of_cg rfl

theorem setRole_noneArms (new : Role) (s : State) : NoneArms s (setRole new s) := by
  by_cases h : s.twin.role = new
  · rw [setRole_same h]
    exact .of_cg rfl
  · rw [setRole_new h]
    exact (roleLeft_noneArms s).trans (.of_cg rfl)

/-! ## Ends of motions -/

/-- What the ends of motions may change. -/
def restParts : List Part := [.host, .pers, .out, .axes, .free]

theorem setAxis_quietly (a : Nat) (f : Axis → Axis) (s : State) : Quietly restParts s (setAxis a f s) :=
  (Quietly.of_frame (setAxis_onlyChanges a f s) (by decide) (by decide)).mono (by decide)

theorem log_rests {s t : State} (h : Quietly logParts s t) : Quietly restParts s t := h.mono (by decide)

theorem emptyQueue_quietly (a status cause : Nat) (s : State) : Quietly restParts s (emptyQueue a status cause s) := by
  rw [emptyQueue_eq]
  refine (setAxis_quietly a _ s).trans (.foldl _ _ _ fun t m => ?_)
  cases m.tag with
  | none => exact .refl _ t
  | some tag => exact log_rests (complete_quietly _ _ _ _ _ _ t)

theorem failHome_quietly (a status : Nat) (s : State) : Quietly restParts s (failHome a status s) := by
  unfold failHome
  split
  · exact .refl _ s
  · exact (setAxis_quietly a _ s).trans (log_rests (complete_quietly _ _ _ _ _ _ _))

theorem stopAxis_quietly (a : Nat) (hard : Bool) (s : State) : Quietly restParts s (stopAxis a hard s) := setAxis_quietly a _ s

theorem addCause_quietly (a : Nat) (c : StopCause) (s : State) : Quietly restParts s (addCause a c s) := setAxis_quietly a _ s

theorem seqStopped_quietly (a c : Nat) (hard : Bool) (q : SeqJob) (step : Nat) (s : State) : Quietly restParts s (seqStopped a c hard q step s) := by
  have hseq : Quietly restParts s { s with axes := { s.axes with seq := none, seqStep := 0 } } :=
    (Quietly.of_frame (onlyChanges_axes s _) (by decide) (by decide)).mono (by decide)
  have hstop : ∀ n t, Quietly restParts t (stopAxis n hard (emptyQueue n 0x12 c t)) := fun n t =>
    (emptyQueue_quietly n 0x12 c t).trans (stopAxis_quietly n hard _)
  exact ((hseq.trans (hstop 0 _)).trans (hstop 1 _)).trans
    (log_rests ((stickEvent_quietly _ _ _).trans (complete_quietly _ _ _ _ _ _ _)))

theorem abortSeq_quietly (a : Nat) (cause : Option Nat) (hard : Bool) (s : State) : Quietly restParts s (abortSeq a cause hard s) := by
  cases h : s.axes.seq with
  | none =>
    rw [abortSeq_none h]
    exact .refl _ s
  | some q =>
    obtain ⟨c, n, e, -⟩ := abortSeq_some (a := a) (cause := cause) (hard := hard) h
    have hfree : Quietly restParts s { s with free := n } := by
      refine (Quietly.of_frame (ps := [.free]) ?_ (by decide) (by decide)).mono (by decide)
      intro p hp
      cases p <;> simp_all [State.agree]
    rw [e]
    exact hfree.trans (seqStopped_quietly a c hard q _ _)

theorem axisFault_quietly (a code : Nat) (s : State) : Quietly restParts s (axisFault a code s) := by
  unfold axisFault
  extract_lets s1 s2 s3
  have h2 : Quietly restParts s1 s2 := by
    unfold s2
    split
    · exact .refl _ s1
    · exact failHome_quietly a 0x30 s1
  exact (((emptyQueue_quietly a 0x30 0 s).trans h2).trans (abortSeq_quietly a none true s2)).trans (setAxis_quietly a _ s3)

theorem applyCause_quietly (a : Nat) (s : State) (c : StopCause) : Quietly restParts s (applyCause a s c) := by
  cases c with
  | posInvalid => exact axisFault_quietly a 2 s
  | stall => exact (axisFault_quietly a 1 s).trans (setAxis_quietly a _ _)
  | interlock =>
    exact ((emptyQueue_quietly a 0x12 3 s).trans (failHome_quietly a 0x12 _)).trans
      ((abortSeq_quietly a (some 3) true _).trans (stopAxis_quietly a true _))
  | limit =>
    unfold applyCause
    dsimp only
    split
    · split
      · exact (setAxis_quietly a _ s).trans (log_rests (stickEvent_quietly _ _ _))
      · split
        · exact (failHome_quietly a 0x30 s).trans (stopAxis_quietly a true _)
        · exact setAxis_quietly a _ s
    · exact (emptyQueue_quietly a 0x12 2 s).trans ((abortSeq_quietly a (some 2) true _).trans (stopAxis_quietly a true _))
  | stopHard => exact stopAxis_quietly a true s
  | stopSoft => exact stopAxis_quietly a false s

theorem interlockTick_quietly (a : Nat) (s : State) : Quietly restParts s (interlockTick a s) := by
  unfold interlockTick
  extract_lets x planned
  split
  · exact .refl _ s
  · exact (setAxis_quietly a _ s).trans ((log_rests (stickEvent_quietly _ _ _)).trans (addCause_quietly a .interlock _))

theorem settle_quietly (a : Nat) (s : State) : Quietly restParts s (settle a s) := by
  unfold settle
  extract_lets s1
  have h1 : Quietly restParts s s1 := interlockTick_quietly a s
  split
  · exact h1
  · exact h1.trans ((setAxis_quietly a _ s1).trans (.foldl _ _ _ fun t c => applyCause_quietly a t c))

theorem axesSafe_quietly (s : State) : Quietly restParts s (axesSafe s) := by
  unfold axesSafe
  extract_lets s1 one
  have hone : ∀ t a, Quietly restParts t (one t a) := fun t a =>
    ((emptyQueue_quietly a 0x12 4 t).trans (failHome_quietly a 0x12 _)).trans (addCause_quietly a .stopHard _)
  exact (((settle_quietly 0 s).trans (settle_quietly 1 _)).trans (abortSeq_quietly _ (some 4) true s1)).trans (.foldl one _ _ hone)

/-! ## The lamps go dark (R405) -/

theorem lampOff_quietly (k : Nat) (s : State) : Quietly [.lamp, .out] s (lampOff k s) := by
  have hset : ∀ f (t : State), Quietly [.lamp, .out] t (setChain k f t) := fun f t =>
    (Quietly.of_frame (setChain_onlyChanges k f t) (by decide) (by decide)).mono (by decide)
  have hemit : ∀ o (t : State), Quietly [.lamp, .out] t (emit o t) := fun o t =>
    (Quietly.of_frame (emit_onlyChanges o t) (by decide) (by decide)).mono (by decide)
  have hlegacy : Quietly [.lamp, .out] s (legacyOff k s) := by
    unfold legacyOff
    extract_lets now c left ahead s1 s2
    have h2 : Quietly [.lamp, .out] s s2 := by
      unfold s2
      split
      · exact hset _ s
      · exact (hset _ s).trans (hemit _ s1)
    split
    · exact h2
    · exact h2.trans ((hset _ s2).trans (hemit _ _))
  unfold lampOff
  extract_lets c n
  split
  · exact .refl _ s
  · split
    · exact hlegacy
    · exact (hset _ s).trans (hemit _ _)

end Sys2Proof.Machine
end

section
/-!
PROOFS. Trips and the watchdog (R461 to R466).
-/
namespace Sys2Proof.Machine

/-! ## The rows that trip (R461, R463) -/

theorem latchTrip_firstClaim {c : Nat} {p : Word} {s : State} (h : s.onyx.tripped = false) :
    (latchTrip c p s).onyx.tripped = true ∧ (latchTrip c p s).onyx.cause = c ∧ (latchTrip c p s).onyx.param = p ∧
    (latchTrip c p s).onyx.mask = 1#17 <<< c ∧ (latchTrip c p s).onyx.gateOpen = false ∧ (latchTrip c p s).onyx.tripSeq = s.onyx.tripSeq + 1 ∧
    (latchTrip c p s).onyx.tripLine = s.line ∧ (latchTrip c p s).onyx.tripAt = s.pos.mono ∧ (latchTrip c p s).host.firing = false ∧
    (latchTrip c p s).onyx.permOnyx.getLsbD 3 = false ∧ (∀ t ∈ (latchTrip c p s).fire.trains, t.st = .fired ∨ t.st = .withheld) ∧
    OnlyChanges tripParts s (latchTrip c p s) := by
  obtain ⟨hcause, hparam, hmask, hgate, hseq, hline, hat⟩ := latchTrip_latches (cause := c) (param := p) h
  exact ⟨latchTrip_tripped c p s, hcause, hparam, hmask, hgate, hseq, hline, hat, latchTrip_firing h, latchTrip_permission h, latchTrip_trains h,
    latchTrip_onlyChanges c p s⟩

theorem clockChecks (n : Nat) (s : State) : (940 ≤ n → n ≤ 1060 → execOnyxClockCheck n s = .next s) ∧
    (117 ≤ n → n ≤ 133 → execAonClockCheck n s = .next s) ∧
    (n < 940 ∨ 1060 < n → execOnyxClockCheck n s = .next (latchTrip 10 1 (activeNow 10 s))) ∧
    (n < 117 ∨ 133 < n → execAonClockCheck n s = .next (latchTrip 10 2 (activeNow 10 s))) :=
  ⟨fun h k => congrArg _ (if_pos ⟨h, k⟩), fun h k => congrArg _ (if_pos ⟨h, k⟩), fun h => congrArg _ (if_neg (by omega)),
    fun h => congrArg _ (if_neg (by omega))⟩

theorem hpwrStuck_idle {s : State} (h : s.onyx.hpwrA = true ∨ s.onyx.hpwrB = true ∨ s.aonDue s.onyx.fellAt 1000000 = false) :
    execHpwrStuck s = .next s := by
  refine congrArg _ (if_pos ?_)
  rcases h with h | h | h
  · exact .inl h
  · exact .inr (.inl h)
  · exact .inr (.inr (by rw [h]; rfl))

theorem hpwrStuck_trips {s : State} (ha : s.onyx.hpwrA = false) (hb : s.onyx.hpwrB = false) (hdue : s.aonDue s.onyx.fellAt 1000000 = true) :
    execHpwrStuck s = .next (latchTrip 14 0 (activeNow 14 { s with onyx := { s.onyx with hpwrFb := true } })) :=
  congrArg _ (if_neg (by rw [ha, hb, hdue]; decide))

/-! ## What the entry into SAFE has brought about, and what follows leaves (R464, R465) -/

/-- What stays from `s` to `t` as the entry into SAFE goes on. -/
structure SafeKept (s t : State) : Prop where
  /-- Nothing fires. -/
  firing : s.host.firing = false → t.host.firing = false
  /-- The operating state. -/
  opState : t.host.opState = s.host.opState
  /-- LISTEN role. -/
  role : s.twin.role = .listen → t.twin.role = .listen
  /-- A trip whose reaction is over. -/
  tripped : s.onyx.tripped = true → t.onyx.tripped = true ∧ t.onyx.reacting = s.onyx.reacting
  /-- The head power enables and SAFE_OK. -/
  enables : t.onyx.hpwrA = s.onyx.hpwrA ∧ t.onyx.hpwrB = s.onyx.hpwrB ∧ t.onyx.safeOk = s.onyx.safeOk
  /-- The groups that are not ARMED, and the objects in force. -/
  groups : NoneArms s t
  /-- No spit run. -/
  spit : s.fire.spit = none → t.fire.spit = none

namespace SafeKept
variable {ps : List Part} {s t u : State}

theorem trans (h : SafeKept s t) (k : SafeKept t u) : SafeKept s u where
  firing := k.firing ∘ h.firing
  opState := k.opState.trans h.opState
  role := k.role ∘ h.role
  tripped hs := ⟨(k.tripped (h.tripped hs).1).1, (k.tripped (h.tripped hs).1).2.trans (h.tripped hs).2⟩
  enables := ⟨k.enables.1.trans h.enables.1, k.enables.2.1.trans h.enables.2.1, k.enables.2.2.trans h.enables.2.2⟩
  groups := h.groups.trans k.groups
  spit := k.spit ∘ h.spit

/-- A step that leaves Onyx, the groups' states, the role and the spit run. -/
theorem of_parts (hk : s.Keeps t) (ho : t.onyx = s.onyx) (hg : NoneArms s t) (hr : s.twin.role = .listen → t.twin.role = .listen)
    (hf : t.fire = s.fire) : SafeKept s t where
  firing h := ((congrArg HostIf.firing hk.host :) : t.host.firing = s.host.firing).trans h
  opState := (congrArg HostIf.opState hk.host :)
  role := hr
  tripped h := by rw [ho]; exact ⟨h, rfl⟩
  enables := by rw [ho]; exact ⟨rfl, rfl, rfl⟩
  groups := hg
  spit h := by rw [hf, h]

theorem of_quietly (h : Quietly ps s t) (ho : Part.onyx ∉ ps) (hc : Part.cg ∉ ps) (ht : Part.twin ∉ ps) (hf : Part.fire ∉ ps) : SafeKept s t :=
  of_parts h.keeps (h.parts .onyx ho).symm (.of_cg (h.parts .cg hc).symm) (fun hr => (congrArg Twin.role (h.parts .twin ht)).symm.trans hr)
    (h.parts .fire hf).symm

theorem refl (s : State) : SafeKept s s := of_quietly (.refl [] s) (by decide) (by decide) (by decide) (by decide)

theorem foldl {α : Type} (g : State → α → State) (l : List α) (s : State) (h : ∀ (t : State) x, SafeKept t (g t x)) : SafeKept s (l.foldl g s) :=
  List.foldlRecOn (motive := SafeKept s) l g (refl s) fun t ht x _ => ht.trans (h t x)

end SafeKept

theorem failJoin_role (what : Nat) (s : State) : (failJoin what s).twin.role = s.twin.role := by
  obtain ⟨j, f, b, e⟩ := failJoin_twin what s
  exact (congrArg Twin.role e :)

theorem abortGroup_role (g cause : Nat) (s : State) : (abortGroup g cause s).twin.role = s.twin.role := by
  obtain ⟨-, j, f, b, e⟩ := abortGroupTo_leaves false cause g s
  exact (congrArg Twin.role e :)

theorem abortArmed_safeKept (cause : Nat) (s : State) : SafeKept s (abortArmed cause s) := by
  refine .foldl _ _ s fun t g => ?_
  have hq := abortGroupTo_quietly false g cause t
  exact .of_parts hq.keeps (hq.parts .onyx (by decide)).symm (abortGroup_noneArms g cause t) (fun hr => (abortGroup_role g cause t).trans hr)
    (hq.parts .fire (by decide)).symm

theorem failSwitch_safeKept (s : State) : SafeKept s (failSwitch s) := by
  have hq := failSwitch_quietly s
  obtain ⟨l, e⟩ := failSwitch_twin s
  exact .of_parts hq.keeps (hq.parts .onyx (by decide)).symm (.of_cg (hq.parts .cg (by decide)).symm)
    (fun hr => (congrArg Twin.role e).trans hr) (hq.parts .fire (by decide)).symm

theorem setRole_safeKept (s : State) : SafeKept s (setRole .listen s) := by
  have hq := setRole_quietly .listen s
  exact .of_parts hq.keeps (hq.parts .onyx (by decide)).symm (setRole_noneArms .listen s) (fun _ => setRole_role .listen s)
    (hq.parts .fire (by decide)).symm

/-- The state in which a unit counts as unsynchronised. -/
def unsynced (s : State) : State := { s with twin := { s.twin with synced := false } }

/-- A unit that neither prints nor serves keeps its operating state as it enters LISTEN (R412). -/
theorem enterListen_idle {s : State} (h : s.host.opState ≠ .print ∧ s.host.opState ≠ .service) : enterListen s = setRole .listen (unsynced s) := by
  have hop : (setRole .listen (unsynced s)).host.opState = s.host.opState :=
    (congrArg HostIf.opState (setRole_quietly .listen (unsynced s)).keeps.host :)
  refine if_neg ?_
  rw [show (setRole .listen { s with twin := { s.twin with synced := false } }).host.opState = s.host.opState from hop]
  exact not_or.mpr h

theorem enterListen_safeKept {s : State} (h : s.host.opState ≠ .print ∧ s.host.opState ≠ .service) : SafeKept s (enterListen s) := by
  have hun : SafeKept s (unsynced s) := .of_parts (.of_eq rfl rfl) rfl (.of_cg rfl) (fun hr => hr) rfl
  rw [enterListen_idle h]
  exact hun.trans (setRole_safeKept _)

theorem eventAt_safeKept (line : Word) (e : Event) (s : State) : SafeKept s (eventAt line e s) :=
  .of_quietly (eventAt_quietly line e s) (by decide) (by decide) (by decide) (by decide)

/-! ## Sums that are delivered (R189, R460) -/

theorem latchTrip_keepsOp (c : Nat) (p : Word) (s : State) : (latchTrip c p s).host.opState = s.host.opState := by
  cases h : s.onyx.tripped with
  | true =>
    obtain ⟨m, n, k, q, e⟩ := latchTrip_again c p h
    rw [e]
  | false =>
    rw [latchTrip_first c p h]
    exact (congrArg HostIf.opState ((stick_keeps _ .trip).host.trans (setPermission_quiet 2 4 false _).1) :)

theorem latchTrip_spit (c : Nat) (p : Word) (s : State) : (latchTrip c p s).fire.spit = s.fire.spit := by
  cases h : s.onyx.tripped with
  | true =>
    obtain ⟨m, n, k, q, e⟩ := latchTrip_again c p h
    rw [e]
  | false =>
    rw [latchTrip_first c p h]
    exact (congrArg Fire.spit (setPermission_onlyChanges 2 4 false (tripLatched c p s) .fire (by decide)).symm :)

theorem latchTrip_safeKept (c : Nat) (p : Word) (s : State) : SafeKept s (latchTrip c p s) where
  firing hs := by
    cases h : s.onyx.tripped with
    | true =>
      obtain ⟨m, n, k, q, e⟩ := latchTrip_again c p h
      rw [e]
      exact hs
    | false => exact latchTrip_firing h
  opState := latchTrip_keepsOp c p s
  role hr := (congrArg Twin.role (latchTrip_onlyChanges c p s .twin (by decide))).symm.trans hr
  tripped h := by
    obtain ⟨m, n, k, q, e⟩ := latchTrip_again c p h
    rw [e]
    exact ⟨h, rfl⟩
  enables := by
    cases h : s.onyx.tripped with
    | true =>
      obtain ⟨m, n, k, q, e⟩ := latchTrip_again c p h
      rw [e]
      exact ⟨rfl, rfl, rfl⟩
    | false =>
      have ho := latchTrip_onyx c p h
      exact ⟨(congrArg Onyx.hpwrA ho :), (congrArg Onyx.hpwrB ho :), (congrArg Onyx.safeOk ho :)⟩
  groups := .of_cg (latchTrip_onlyChanges c p s .cg (by decide)).symm
  spit hs := (latchTrip_spit c p s).trans hs

theorem onyxSum_safeKept (m f : Nat) (g : Option Word) (ef : Option (Word × Word)) (s : State) : SafeKept s (onyxSum m f g ef s) := by
  unfold onyxSum
  extract_lets old e _ s1 s2
  have h1 : SafeKept s s1 := ⟨fun h => h, rfl, fun h => h, fun h => ⟨h, rfl⟩, ⟨rfl, rfl, rfl⟩, .of_cg rfl, fun h => h⟩
  have h2 : SafeKept s1 s2 := by
    unfold s2
    split
    · split
      · exact latchTrip_safeKept 1 _ s1
      · exact .refl s1
    · exact .refl s1
  split
  · split
    · exact (h1.trans h2).trans (latchTrip_safeKept 3 _ s2)
    · exact h1.trans h2
  · exact h1.trans h2

theorem spoilDrops_quietly (ds : List Drop) (s : State) : Quietly [.pg, .cal] s (spoilDrops ds s) := by
  refine .of_frame ?_ (by decide) (by decide)
  intro p hp
  cases p <;> simp_all [State.agree, spoilDrops, exclude, spoil, mapPages]

theorem fire_safeKept {s : State} {f : Fire} (h : s.fire.spit = none → f.spit = none) : SafeKept s { s with fire := f } :=
  ⟨fun h => h, rfl, fun h => h, fun h => ⟨h, rfl⟩, ⟨rfl, rfl, rfl⟩, .of_cg rfl, h⟩

theorem spoilDrops_safeKept (ds : List Drop) (s : State) : SafeKept s (spoilDrops ds s) :=
  .of_quietly (spoilDrops_quietly ds s) (by decide) (by decide) (by decide) (by decide)

theorem deliver_safeKept (s : State) (k : Nat × Nat) : SafeKept s (deliver s k) := by
  obtain ⟨F, m⟩ := k
  dsimp only [deliver]
  split
  · exact .refl s
  · refine SafeKept.trans ?_ (onyxSum_safeKept m F none _ _)
    refine (spoilDrops_safeKept _ s).trans (fire_safeKept ?_)
    exact fun h => h

theorem deliverAll_safeKept (s : State) : SafeKept s (deliverAll s) := .foldl _ _ s fun t k => deliver_safeKept t k

/-! ## Jobs and requests that SAFE ends (R70, R71, R465) -/

theorem hostWaits_safeKept {s : State} {h : HostIf} (hf : h.firing = s.host.firing) (ho : h.opState = s.host.opState) :
    SafeKept s { s with host := h } :=
  ⟨fun hs => hf.trans hs, ho, fun h => h, fun h => ⟨h, rfl⟩, ⟨rfl, rfl, rfl⟩, .of_cg rfl, fun h => h⟩

theorem askReset_safeKept (kind alt : Bool) (s : State) : SafeKept s (askReset kind alt s) := by
  unfold askReset
  split
  · exact .refl s
  · exact hostWaits_safeKept rfl rfl

theorem respond_safeKept (slot : Nat) (a : Ans) (s : State) : SafeKept s (respond slot a s) :=
  .of_quietly (respond_quietly slot a s) (by decide) (by decide) (by decide) (by decide)

theorem complete_safeKept (opcode : Nat) (tag : Word) (status : Nat) (p0 p1 p2 : Word) (s : State) :
    SafeKept s (complete opcode tag status p0 p1 p2 s) :=
  .of_quietly (complete_quietly _ _ _ _ _ _ s) (by decide) (by decide) (by decide) (by decide)

theorem answerWaiting_safeKept (s : State) : SafeKept s (answerWaiting s) := by
  have h2 : SafeKept s { s with host := { s.host with wdogForce := false } } := hostWaits_safeKept rfl rfl
  unfold answerWaiting
  extract_lets _ s2
  split
  · have h3 : SafeKept s2 { s2 with host := { s2.host with resetStop := none } } := hostWaits_safeKept rfl rfl
    exact ((h2.trans h3).trans (askReset_safeKept _ _ _)).trans (respond_safeKept _ _ _)
  · exact h2

/-- A spit run that ends as SAFE is entered. -/
def spitEnded (s : State) : State :=
  match s.fire.spit with
  | some j => complete 0x0505 j.tag 0x31 0 0 0 { s with fire := { s.fire with spit := none } }
  | none => s

theorem spitEnded_safeKept (s : State) : SafeKept s (spitEnded s) ∧ (spitEnded s).fire.spit = none := by
  unfold spitEnded
  split
  · exact ⟨(fire_safeKept fun _ => rfl).trans (complete_safeKept _ _ _ _ _ _ _), congrArg Fire.spit (complete_onlyChanges _ _ _ _ _ _ _ .fire (by decide)).symm⟩
  next h => exact ⟨.refl s, h⟩

theorem endFireJobs_safeKept (s : State) : SafeKept s (endFireJobs s) ∧ (endFireJobs s).fire.spit = none := by
  obtain ⟨h1, hnone⟩ := spitEnded_safeKept s
  have h2 : SafeKept (spitEnded s) (endFireJobs s) := by
    unfold endFireJobs
    change SafeKept (spitEnded s) (match (spitEnded s).fire.meas with
      | some j => endMeasure j 0x12 (w32 (countIf j.readings (fittedReading s))) 0 0 (spitEnded s)
      | none => spitEnded s)
    split
    · exact (fire_safeKept (f := { (spitEnded s).fire with meas := none }) fun h => h).trans (complete_safeKept _ _ _ _ _ _ _)
    · exact .refl _
  exact ⟨h1.trans h2, h2.spit hnone⟩

/-! ## The main side, and what SAFE begins (R453, R466, R474) -/

theorem mainPermissions_quiet (s : State) : (mainPermissions s).host.quiet = s.host.quiet ∧ (mainPermissions s).onyx.sansPermits = s.onyx.sansPermits := by
  unfold mainPermissions
  extract_lets s1 s2 s3
  obtain ⟨h1, -⟩ := setPermission_quiet 1 1 (mainCondition 1 s) s
  obtain ⟨h2, -⟩ := setPermission_quiet 1 2 (mainCondition 2 s1) s1
  obtain ⟨h3, -⟩ := setPermission_quiet 1 3 (mainCondition 3 s2) s2
  obtain ⟨h4, -⟩ := setPermission_quiet 1 4 (mainCondition 4 s3) s3
  exact ⟨h4.trans (h3.trans (h2.trans h1)), (setPermission_sansPermits 1 4 _ s3).trans ((setPermission_sansPermits 1 3 _ s2).trans
    ((setPermission_sansPermits 1 2 _ s1).trans (setPermission_sansPermits 1 1 _ s)))⟩

theorem mainUpdate_idle {s : State} (h : s.host.opState ≠ .service) : mainUpdate s = noteGrant (mainPermissions s) := by
  have hop : (noteGrant (mainPermissions s)).host.opState = s.host.opState := (congrArg HostIf.opState (mainPermissions_quiet s).1 :)
  exact if_neg fun hc => h (hop.symm.trans hc.1)

theorem mainUpdate_safeKept {s : State} (h : s.host.opState ≠ .service) : SafeKept s (mainUpdate s) := by
  obtain ⟨hq, ho⟩ := mainPermissions_quiet s
  have hp := mainPermissions_onlyChanges s
  rw [mainUpdate_idle h]
  exact ⟨fun hs => ((congrArg HostIf.firing hq :) : (mainPermissions s).host.firing = s.host.firing).trans hs, (congrArg HostIf.opState hq :),
    fun hr => (congrArg Twin.role (hp .twin (by decide))).symm.trans hr,
    fun ht => ⟨((congrArg Onyx.tripped ho :) : (mainPermissions s).onyx.tripped = s.onyx.tripped).trans ht, (congrArg Onyx.reacting ho :)⟩,
    ⟨(congrArg Onyx.hpwrA ho :), (congrArg Onyx.hpwrB ho :), (congrArg Onyx.safeOk ho :)⟩, .of_cg (hp .cg (by decide)).symm,
    fun hs => (congrArg Fire.spit (hp .fire (by decide))).symm.trans hs⟩

theorem berylRestart_safeKept (s : State) : SafeKept s (berylRestart s) := by
  have h0 : SafeKept s (berylStopped s) := hostWaits_safeKept rfl rfl
  have hq := failJoin_quietly 0 (abortArmed 8 (berylStopped s))
  have h2 : SafeKept (abortArmed 8 (berylStopped s)) (failJoin 0 (abortArmed 8 (berylStopped s))) :=
    .of_parts hq.keeps (hq.parts .onyx (by decide)).symm (.of_cg (hq.parts .cg (by decide)).symm) (fun hr => (failJoin_role 0 _).trans hr)
      (hq.parts .fire (by decide)).symm
  have h3 := (h0.trans (abortArmed_safeKept 8 _)).trans h2
  rw [berylRestart_eq]
  generalize failJoin 0 (abortArmed 8 (berylStopped s)) = t at h3
  refine h3.trans ⟨fun h => h, rfl, fun h => h, fun h => ⟨h, rfl⟩, ⟨rfl, rfl, rfl⟩, ⟨fun g hg => ?_, rfl⟩, fun _ => rfl⟩
  have hst : ((dropJobs t).cg.group g).st = (t.cg.group g).st := by
    unfold dropJobs Commit.group cell
    simp only [List.getD_eq_getElem?_getD, List.getElem?_map]
    cases t.cg.groups[g]? <;> rfl
  rwa [hst]

/-- The state in which a restart by Onyx is counted and the watchdog waits for its first kick. -/
def restartNoted (s : State) : State := { s with onyx := { s.onyx with
  wdogRestarts := s.onyx.wdogRestarts + 1, wdogRunning := false, wdogNext := 0x5A, restartDue := false, kickAt := s.pos.mono } }

theorem onyxRestart_eq (s : State) : onyxRestart s =
    berylRestart (stickEvent .wdogRestart { ev := .berylRestart, p0 := w32 (s.onyx.wdogRestarts + 1) } (restartNoted s)) := rfl

theorem onyxRestart_safeKept (s : State) : SafeKept s (onyxRestart s) := by
  have h0 : SafeKept s (restartNoted s) := ⟨fun h => h, rfl, fun h => h, fun h => ⟨h, rfl⟩, ⟨rfl, rfl, rfl⟩, .of_cg rfl, fun h => h⟩
  have h1 := stickEvent_quietly .wdogRestart { ev := .berylRestart, p0 := w32 (s.onyx.wdogRestarts + 1) } (restartNoted s)
  rw [onyxRestart_eq]
  exact (h0.trans (.of_quietly h1 (by decide) (by decide) (by decide) (by decide))).trans (berylRestart_safeKept _)

theorem afterSafe_safeKept (s : State) : SafeKept s (afterSafe s) := by
  unfold afterSafe
  extract_lets _ s1
  have h1 : SafeKept s s1 := by
    unfold s1
    split
    · have h0 : SafeKept s { s with onyx := { s.onyx with tripSlot := none } } :=
        ⟨fun h => h, rfl, fun h => h, fun h => ⟨h, rfl⟩, ⟨rfl, rfl, rfl⟩, .of_cg rfl, fun h => h⟩
      exact h0.trans (respond_safeKept _ _ _)
    · exact .refl s
  split
  · exact h1.trans (onyxRestart_safeKept s1)
  · exact h1

/-! ## HEAD_POWER_ENABLE_REMOVED (R464, R465) -/

theorem setOpState_onyx_eq {new : OpState} (forced : Bool) {s : State} (h : s.host.opState ≠ new) :
    (setOpState new forced s).onyx = (setOutputs new s.pwr.state s).onyx := by
  unfold setOpState
  rw [if_neg h]
  extract_lets e _ s1 s2
  have h2 : OnlyChanges logParts s1 s2 := by
    cases forced
    · exact withLog_onlyChanges _ s1
    · exact withLog_onlyChanges _ s1
  have h3 : OnlyChanges logParts s2 (if new = .safe then sendVec 2 s2 else s2) := by
    split
    · exact withLog_onlyChanges _ s2
    · exact .refl _ s2
  exact ((h2.trans h3).trans (answerOpReq_onlyChanges new _) .onyx (by decide)).symm

/-- What the entry into SAFE has brought about once OP_STATE has followed. -/
theorem enterSafeState_safe {s : State} (hf : s.host.firing = false) : (enterSafeState s).host.firing = false ∧
    (enterSafeState s).host.opState = (if s.host.opState = .boot then .boot else .safe) ∧
    ((enterSafeState s).onyx.tripped = s.onyx.tripped ∧ (enterSafeState s).onyx.reacting = s.onyx.reacting) ∧
    (s.host.opState ≠ .safe → (enterSafeState s).onyx.hpwrA = false ∧ (enterSafeState s).onyx.hpwrB = false ∧ (enterSafeState s).onyx.safeOk = false) ∧
    (enterSafeState s).cg = s.cg := by
  unfold enterSafeState
  split
  next hb =>
    exact ⟨hf, hb, ⟨rfl, rfl⟩, fun _ => ⟨rfl, rfl, rfl⟩, rfl⟩
  next hb =>
    obtain ⟨q, hq⟩ := setOpState_host .safe false s
    have hcore := setOpState_onyx .safe false s
    refine ⟨((congrArg HostIf.firing hq :) : _ = s.host.firing).trans hf, setOpState_opState .safe false s,
      ⟨(congrArg Onyx.tripped hcore :), (congrArg Onyx.reacting hcore :)⟩, fun hs => ?_, (setOpState_onlyChanges .safe false s .cg (by decide)).symm⟩
    rw [setOpState_onyx_eq false hs]
    exact ⟨rfl, rfl, rfl⟩

/-- All that follows once no group is ARMED. -/
def safeFollows (s2 : State) : State :=
  let s3 := enterListen (failSwitch s2)
  let s4 := eventAt s3.onyx.tripLine { ev := .trip, p0 := w32 s3.onyx.cause, p1 := s3.onyx.param, p2 := w32 s3.onyx.tripSeq.toNat } s3
  let s5 := axesSafe (endFireJobs (answerWaiting (deliverAll s4)))
  afterSafe (mainUpdate (forAll [0, 1] lampOff s5))

theorem lampsDark_safeKept (s : State) : SafeKept s (forAll [0, 1] lampOff s) :=
  .foldl _ _ s fun t k => .of_quietly (lampOff_quietly k t) (by decide) (by decide) (by decide) (by decide)

/-- The unit is in LISTEN role and no spit run goes on, and what SAFE has brought about stays. -/
theorem safeFollows_kept {s : State} (h : s.host.opState = .boot ∨ s.host.opState = .safe) :
    SafeKept s (safeFollows s) ∧ (safeFollows s).twin.role = .listen ∧ (safeFollows s).fire.spit = none := by
  have hidle : ∀ t : State, t.host.opState = s.host.opState → (t.host.opState ≠ .print ∧ t.host.opState ≠ .service) := by
    intro t ht
    rcases h with h | h <;> rw [ht, h] <;> decide
  have k1 := failSwitch_safeKept s
  have k2 := enterListen_safeKept (hidle _ k1.opState)
  have hrole : (enterListen (failSwitch s)).twin.role = .listen := by
    rw [enterListen_idle (hidle _ k1.opState)]
    exact setRole_role .listen _
  unfold safeFollows
  extract_lets s3 s4 s5
  have k4 : SafeKept s3 s4 := eventAt_safeKept _ _ _
  have k5 := (deliverAll_safeKept s4).trans (answerWaiting_safeKept _)
  obtain ⟨k6, hspit⟩ := endFireJobs_safeKept (answerWaiting (deliverAll s4))
  have k7 : SafeKept (endFireJobs (answerWaiting (deliverAll s4))) s5 := .of_quietly (axesSafe_quietly _) (by decide) (by decide) (by decide) (by decide)
  have k8 := k7.trans (lampsDark_safeKept s5)
  have kto := (((k1.trans k2).trans k4).trans (k5.trans k6)).trans k8
  have k9 := (mainUpdate_safeKept (hidle _ kto.opState).2).trans (afterSafe_safeKept _)
  exact ⟨kto.trans k9, ((((k4.trans k5).trans k6).trans k8).trans k9).role hrole, (k8.trans k9).spit hspit⟩

theorem enablesRemoved_idle {s : State} (h : s.onyx.reacting = false ∨ s.aonDue s.onyx.tripAt 6000 = false) :
    execHeadPowerEnableRemoved s = .next s := by
  refine congrArg _ (if_pos ?_)
  rcases h with h | h
  · exact .inl (by rw [h]; rfl)
  · exact .inr (by rw [h]; rfl)

/-- The state 6 µs after a trip, in which nothing fires. -/
def stopped (s : State) : State := { s with onyx := { s.onyx with reacting := false }, host := { s.host with firing := false } }

theorem enablesRemoved_eq {s : State} (hr : s.onyx.reacting = true) (hd : s.aonDue s.onyx.tripAt 6000 = true) :
    execHeadPowerEnableRemoved s = .next (safeFollows (abortArmed 7 (enterSafeState (stopped s)))) := by
  unfold execHeadPowerEnableRemoved
  rw [if_neg (by rw [hr, hd]; decide)]
  simp only [safeFollows, stopped]

theorem enablesRemoved_claim {s : State} (hr : s.onyx.reacting = true) (hd : s.aonDue s.onyx.tripAt 6000 = true) :
    ∃ t, execHeadPowerEnableRemoved s = .next t ∧ (s.onyx.tripped = true → t.onyx.reacting = false) ∧ t.host.firing = false ∧
      t.host.opState = (if s.host.opState = .boot then .boot else .safe) ∧ t.twin.role = .listen ∧ t.cg.inForce = s.cg.inForce ∧
      (s.host.opState ≠ .safe → t.onyx.hpwrA = false ∧ t.onyx.hpwrB = false ∧ t.onyx.safeOk = false) ∧ t.fire.spit = none ∧
      ∀ g, g < 4 → (t.cg.group g).st ≠ .armed := by
  obtain ⟨hfiring, hop, ⟨htripped, hreacting⟩, henables, hcg⟩ := enterSafeState_safe (s := stopped s) rfl
  have k1 := abortArmed_safeKept 7 (enterSafeState (stopped s))
  have hunarmed := fun g (hg : g < 4) => abortArmed_unarmed 7 (enterSafeState (stopped s)) hg
  have he := enablesRemoved_eq hr hd
  have hop' : (abortArmed 7 (enterSafeState (stopped s))).host.opState = (if s.host.opState = .boot then .boot else .safe) := k1.opState.trans hop
  have hready : (abortArmed 7 (enterSafeState (stopped s))).host.opState = .boot ∨ (abortArmed 7 (enterSafeState (stopped s))).host.opState = .safe := by
    rw [hop']
    split
    · exact .inl rfl
    · exact .inr rfl
  obtain ⟨k2, hrole, hspit⟩ := safeFollows_kept hready
  have k := k1.trans k2
  obtain ⟨hA, hB, hok⟩ := k.enables
  refine ⟨_, he, fun ht => ?_, k.firing hfiring, k.opState.trans hop, hrole, ?_, fun hs => ?_, hspit, fun g hg => k2.groups.unarmed g (hunarmed g hg)⟩
  · exact (k.tripped (htripped.trans ht)).2.trans hreacting
  · exact k.groups.inForce.trans (congrArg Commit.inForce hcg)
  · obtain ⟨ha, hb, ho⟩ := henables hs
    exact ⟨hA.trans ha, hB.trans hb, hok.trans ho⟩

theorem trips : Claims.Trips := by
  unfold Claims.Trips
  refine ⟨?first, ?again, clockChecks, fun r s => rfl, ?die, ?idle, ?stuck, fun s => rfl, fun s h => enablesRemoved_idle h,
    fun s hr hd => enablesRemoved_claim hr hd⟩
  case first => exact fun c p s _ h => latchTrip_firstClaim h
  case again => exact fun c p s _ h => ⟨latchTrip_more h, latchTrip_lower h⟩
  case die =>
    intro tj s u hu
    subst hu
    exact ⟨fun h => congrArg _ (if_neg (by omega)), fun h => congrArg _ (if_pos h)⟩
  case idle => exact fun s h => hpwrStuck_idle h
  case stuck => exact fun s ha hb hdue => hpwrStuck_trips ha hb hdue

/-! ## The watchdog (R462) -/

section
variable {s : State}

theorem wdogTrip_first {p : Nat} (h : s.onyx.tripped = false) : (wdogTrip p s).onyx.cause = 8 ∧ (wdogTrip p s).onyx.param = w32 p ∧
    (wdogTrip p s).onyx.restartDue = true ∧ (wdogTrip p s).onyx.wdogRunning = false := by
  have hq : ({ s with onyx := { s.onyx with wdogRunning := false, wdogNext := 0x5A } } : State).onyx.tripped = false := h
  have ho := latchTrip_onyx 8 (w32 p) hq
  have hreacting : (latchTrip 8 (w32 p) { s with onyx := { s.onyx with wdogRunning := false, wdogNext := 0x5A } }).onyx.reacting = true :=
    (congrArg Onyx.reacting ho :)
  have he : wdogTrip p s = { latchTrip 8 (w32 p) { s with onyx := { s.onyx with wdogRunning := false, wdogNext := 0x5A } } with
      onyx := { (latchTrip 8 (w32 p) { s with onyx := { s.onyx with wdogRunning := false, wdogNext := 0x5A } }).onyx with restartDue := true } } :=
    if_pos hreacting
  rw [he]
  exact ⟨(congrArg Onyx.cause ho :), (congrArg Onyx.param ho :), rfl, (congrArg Onyx.wdogRunning ho :)⟩

theorem wdogKick_first {n : Nat} (hr : s.onyx.wdogRunning = false) (hn : s.onyx.wdogNext = 0x5A) : execOnyxWdogKick 0x5A n s =
    .next { s with onyx := { s.onyx with wdogRunning := true, wdogNext := 0xA5, wdogRestarts := 0, kickAt := s.pos.mono } } :=
  congrArg Host.Outcome.next ((if_pos (by rw [hr]; rfl)).trans (if_neg (by rw [hn]; decide)))

theorem wdogKick_wrongFirst {v : Byte} {n : Nat} (hr : s.onyx.wdogRunning = false) (hv : v ≠ s.onyx.wdogNext) :
    execOnyxWdogKick v n s = .next (wdogTrip 3 s) :=
  congrArg Host.Outcome.next ((if_pos (by rw [hr]; rfl)).trans (if_pos hv))

theorem wdogKick_foreign {v : Byte} {n : Nat} (hr : s.onyx.wdogRunning = true) (hi : aonInterval n s = false) : execOnyxWdogKick v n s = .next s :=
  congrArg Host.Outcome.next ((if_neg (by rw [hr]; decide)).trans (if_pos (by rw [hi]; rfl)))

/-- The state in which a kick's interval is noted. -/
def kicked (n : Nat) (s : State) : State := { s with onyx := { s.onyx with wdogLast := BitVec.ofNat 16 n, kickAt := s.pos.mono } }

theorem wdogKick_running {v : Byte} {n : Nat} (hr : s.onyx.wdogRunning = true) (hi : aonInterval n s = true) : execOnyxWdogKick v n s =
    .next (if n < 750 then wdogTrip 1 (kicked n s) else if n > 1250 then wdogTrip 2 (kicked n s)
      else if v ≠ s.onyx.wdogNext then wdogTrip 3 (kicked n s)
      else { kicked n s with onyx := { (kicked n s).onyx with wdogNext := if v = 0x5A then 0xA5 else 0x5A } }) :=
  congrArg Host.Outcome.next ((if_neg (by rw [hr]; decide)).trans (if_neg (by rw [hi]; decide)))

theorem wdogKick_claim {v : Byte} {n : Nat} {u : State} (hr : s.onyx.wdogRunning = true) (hi : aonInterval n s = true) (hu : u = kicked n s) :
    (n < 750 → execOnyxWdogKick v n s = .next (wdogTrip 1 u)) ∧ (1250 < n → execOnyxWdogKick v n s = .next (wdogTrip 2 u)) ∧
    (750 ≤ n → n ≤ 1250 → v ≠ s.onyx.wdogNext → execOnyxWdogKick v n s = .next (wdogTrip 3 u)) ∧
    (750 ≤ n → n ≤ 1250 → v = s.onyx.wdogNext → v = 0x5A → execOnyxWdogKick v n s = .next { u with onyx := { u.onyx with wdogNext := 0xA5 } }) ∧
    (750 ≤ n → n ≤ 1250 → v = s.onyx.wdogNext → v = 0xA5 → execOnyxWdogKick v n s = .next { u with onyx := { u.onyx with wdogNext := 0x5A } }) := by
  subst hu
  have he := wdogKick_running (v := v) hr hi
  refine ⟨fun h => ?_, fun h => ?_, fun hlow hhigh hv => ?_, fun hlow hhigh hv h5 => ?_, fun hlow hhigh hv hA => ?_⟩
  · rw [he, if_pos h]
  · rw [he, if_neg (by omega), if_pos h]
  · rw [he, if_neg (by omega), if_neg (by omega), if_pos hv]
  · rw [he, if_neg (by omega), if_neg (by omega), if_neg (not_not.mpr hv), if_pos h5]
  · rw [he, if_neg (by omega), if_neg (by omega), if_neg (not_not.mpr hv), if_neg (by rw [hA]; decide)]

theorem wdogTimeout_idle (h : s.pwr.inReset = true ∨ s.onyx.berylHeld = true ∨
    s.aonDue s.onyx.kickAt (if s.onyx.wdogRunning then 1250000 else 2000000000) = false) : execOnyxWdogTimeout s = .next s := by
  refine congrArg _ (if_pos ?_)
  rcases h with h | h | h
  · exact .inl h
  · exact .inr (.inl h)
  · exact .inr (.inr (by rw [h]; rfl))

theorem wdogTimeout_due (hr : s.pwr.inReset = false) (hh : s.onyx.berylHeld = false)
    (hd : s.aonDue s.onyx.kickAt (if s.onyx.wdogRunning then 1250000 else 2000000000) = true) : execOnyxWdogTimeout s =
      .next (if s.onyx.wdogRunning = true ∨ s.onyx.wdogRestarts = 0 then wdogTrip 2 s
        else if s.onyx.wdogRestarts ≥ 3 then
          stickRec .berylHeld { s with onyx := { s.onyx with berylHeld := true }, host := { s.host with mbxReady := false, berylRunning := false } }
        else onyxRestart s) :=
  congrArg Host.Outcome.next (if_neg (by rw [hr, hh, hd]; decide))

theorem onyxRestart_onyx (s : State) : (onyxRestart s).onyx = { s.onyx with
    wdogRestarts := s.onyx.wdogRestarts + 1, wdogRunning := false, wdogNext := 0x5A, restartDue := false, kickAt := s.pos.mono, tripSlot := none } := by
  unfold onyxRestart
  extract_lets n
  rw [berylRestart_eq]
  have hparts : ∀ t : State, (failJoin 0 (abortArmed 8 (berylStopped t))).onyx = t.onyx := fun t =>
    ((((abortArmed_quietly 8 (berylStopped t)).parts.trans (failJoin_quietly 0 _ |>.mono (by decide)).parts) .onyx (by decide)).symm :)
  generalize ht : stickEvent .wdogRestart { ev := .berylRestart, p0 := w32 n } { s with onyx := { s.onyx with
    wdogRestarts := n, wdogRunning := false, wdogNext := 0x5A, restartDue := false, kickAt := s.pos.mono } } = t
  have honyx : t.onyx = { s.onyx with wdogRestarts := n, wdogRunning := false, wdogNext := 0x5A, restartDue := false, kickAt := s.pos.mono } := by
    rw [← ht]
    rfl
  have h := hparts t
  generalize failJoin 0 (abortArmed 8 (berylStopped t)) = u at h
  change { u.onyx with tripSlot := none } = _
  rw [h, honyx]

theorem wdogTimeout_claim (hr : s.pwr.inReset = false) (hd : s.aonDue s.onyx.kickAt (if s.onyx.wdogRunning then 1250000 else 2000000000) = true) :
    (s.onyx.berylHeld = false → (s.onyx.wdogRunning = true ∨ s.onyx.wdogRestarts = 0) → execOnyxWdogTimeout s = .next (wdogTrip 2 s)) ∧
    (s.onyx.berylHeld = false → s.onyx.wdogRunning = false → 3 ≤ s.onyx.wdogRestarts → ∃ t, execOnyxWdogTimeout s = .next t ∧ t.onyx.berylHeld = true ∧
      t.host.mbxReady = false ∧ t.host.berylRunning = false) ∧
    (s.onyx.berylHeld = false → s.onyx.wdogRunning = false → 1 ≤ s.onyx.wdogRestarts → s.onyx.wdogRestarts < 3 →
      ∃ t, execOnyxWdogTimeout s = .next t ∧ t.onyx.wdogRestarts = s.onyx.wdogRestarts + 1 ∧ t.onyx.wdogNext = 0x5A ∧ t.host.mbxReady = false) := by
  refine ⟨fun hh h => ?_, fun hh hrun h3 => ?_, fun hh hrun h1 h3 => ?_⟩
  · rw [wdogTimeout_due hr hh hd, if_pos h]
  · have hk := (stickRec_keeps { s with onyx := { s.onyx with berylHeld := true }, host := { s.host with mbxReady := false, berylRunning := false } }
      .berylHeld 0).host
    rw [wdogTimeout_due hr hh hd, if_neg (by rw [hrun]; simp; omega), if_pos h3]
    exact ⟨_, rfl, rfl, (congrArg HostIf.mbxReady hk :), (congrArg HostIf.berylRunning hk :)⟩
  · have ho := onyxRestart_onyx s
    rw [wdogTimeout_due hr hh hd, if_neg (by rw [hrun]; simp; omega), if_neg (by omega)]
    exact ⟨_, rfl, congrArg Onyx.wdogRestarts ho, congrArg Onyx.wdogNext ho, (berylRestart_host _).1⟩

end

theorem watchdog : Claims.Watchdog := by
  unfold Claims.Watchdog
  refine ⟨fun p s h => wdogTrip_first h, ?first, ?wrong, ?running, ?foreign, fun s h => wdogTimeout_idle h, fun s hr hd => wdogTimeout_claim hr hd⟩
  case first => exact fun n s hr hn => wdogKick_first hr hn
  case wrong => exact fun v n s hr hv => wdogKick_wrongFirst hr hv
  case running => exact fun v n s u hr hi hu => wdogKick_claim hr hi hu
  case foreign => exact fun v n s hr hi => wdogKick_foreign hr hi

/-- Settles O54: what the entry into SAFE brings about is kept by every later step of HEAD_POWER_ENABLE_REMOVED, and each kick is one of the watchdog's
cases. -/
theorem tripsAndWatchdog : Obligations.TripsAndWatchdog := ⟨trips, watchdog⟩

end Sys2Proof.Machine
end

section
/-!
PROOFS. Onyx's permissions and checks, and the safety commands (R453 to R460, R467, R472, R474, R475).
-/
namespace Sys2Proof.Machine

/-! ## The tick (R453, R454, R456, R458, R459) -/

/-- Onyx without what the cap part of a tick writes. -/
def Onyx.sansCap (o : Onyx) : Onyx :=
  { o with permMain := 0, permOnyx := 0, wdrAt := [], capSw := false, capSwMs := 0, abs := [], axRemoved := [] }

/-- Onyx without what the end of a tick writes: permissions, monitors, the gates' reopening and the outputs. -/
def Onyx.sansRest (o : Onyx) : Onyx := { o with
  permMain := 0, permOnyx := 0, wdrAt := [], active := 0, hpwrFb := false, gateReopen := false
  hpwrA := false, hpwrB := false, safeOk := false, fellAt := 0 }

/-- What a tick changes. -/
def tickParts : List Part := [.host, .pers, .out, .axes, .onyx]

section
variable {s : State}

theorem setAxisEnable_onyx (a : Nat) (level : Bool) (why : Nat) (s : State) : (setAxisEnable a level why s).onyx = s.onyx :=
  (setAxisEnable_onlyChanges a level why s .onyx (by decide)).symm

/-- Onyx's view of one axis changes at most why its enable is low. -/
theorem axisKnown_steps (a : Nat) (s : State) :
    OnlyChanges tickParts s (axisKnown a s) ∧ ∃ r, (axisKnown a s).onyx = { s.onyx with axRemoved := r } := by
  have henable : ∀ level r, OnlyChanges tickParts s (setAxisEnable a level 2 { s with onyx := { s.onyx with axRemoved := r } }) ∧
      ∃ r', (setAxisEnable a level 2 { s with onyx := { s.onyx with axRemoved := r } }).onyx = { s.onyx with axRemoved := r' } := fun level r =>
    ⟨((onlyChanges_onyx s _).mono (by decide)).trans ((setAxisEnable_onlyChanges a level 2 _).mono (by decide)), r, setAxisEnable_onyx a level 2 _⟩
  unfold axisKnown
  extract_lets known why
  split
  · exact henable false _
  · split
    · exact henable true _
    · split
      · exact henable true s.onyx.axRemoved
      · exact ⟨.refl _ s, s.onyx.axRemoved, rfl⟩

theorem permitAt (p i : Nat) (granted : Bool) (s : State) (hi : i < 4) :
    (setPermission 2 p granted s).onyx.permOnyx.getLsbD i = if i = p - 1 then granted else s.onyx.permOnyx.getLsbD i := by
  rw [setPermission_permOnyx_own, permSet_getLsbD granted _ hi]

theorem setPermission_ticks (side p : Nat) (granted : Bool) (s : State) : OnlyChanges tickParts s (setPermission side p granted s) :=
  (setPermission_onlyChanges side p granted s).mono (by decide)

/-- The cap part of a tick leaves the other permissions, and the rest of Onyx (R453, R459). -/
theorem tickCap_steps (sw : Bool) (s : State) : OnlyChanges tickParts s (tickCap sw s) ∧ (tickCap sw s).onyx.sansCap = s.onyx.sansCap ∧
    (tickCap sw s).onyx.capSw = sw ∧ ∀ i, i < 4 → i ≠ 1 → (tickCap sw s).onyx.permOnyx.getLsbD i = s.onyx.permOnyx.getLsbD i := by
  unfold tickCap
  extract_lets o s1 s2
  obtain ⟨h3, r0, e0⟩ := axisKnown_steps 0 s2
  obtain ⟨h4, r1, e1⟩ := axisKnown_steps 1 (axisKnown 0 s2)
  have hs2 := setPermission_sansPermits 2 2 (capCondition s1.onyx) s1
  have hparts : OnlyChanges tickParts s s2 := ((onlyChanges_onyx s _).mono (by decide)).trans (setPermission_ticks 2 2 _ s1)
  rw [e0] at e1
  refine ⟨(hparts.trans h3).trans h4, ?_, ?_, fun i hi hne => ?_⟩
  · rw [e1]
    exact (congrArg Onyx.sansCap hs2 :)
  · rw [e1]
    exact (congrArg Onyx.capSw hs2 :)
  · rw [e1]
    exact (permitAt 2 i _ s1 hi).trans (if_neg hne)

/-- The lamp part of a tick only raises the lamp enable, and only where both speeds have reached V_LAMP (R458). -/
theorem tickLamp_steps (s : State) : OnlyChanges tickParts s (tickLamp s) ∧ ∃ l, (tickLamp s).onyx = { s.onyx with lampPwr := l } ∧
    (l = true → s.onyx.lampPwr = true ∨ (s.onyx.cfg.vLamp ≤ s.onyx.speed0 ∧ s.onyx.cfg.vLamp ≤ s.onyx.speed1)) := by
  unfold tickLamp
  dsimp only
  split
  next h =>
    simp only [Bool.and_eq_true, decide_eq_true_eq] at h
    exact ⟨((onlyChanges_onyx s _).mono (by decide)).trans ((emit_onlyChanges _ _).mono (by decide)), true, rfl, fun _ => .inr h.2⟩
  next => exact ⟨.refl _ s, s.onyx.lampPwr, rfl, .inl⟩

theorem serviceCheck_core (s : State) : (serviceCheck s).onyx.core = s.onyx.core := by
  unfold serviceCheck
  split
  · exact setOpState_onyx .ready true _
  · rfl

theorem mainPermissions_permOnyx (s : State) : (mainPermissions s).onyx.permOnyx = s.onyx.permOnyx := by
  unfold mainPermissions
  extract_lets s1 s2 s3
  rw [setPermission_permOnyx_main, setPermission_permOnyx_main, setPermission_permOnyx_main, setPermission_permOnyx_main]

/-- The end of a tick: SUPPLY and NO_TRIP, the main side, the monitors and SERVICE (R453, R456, R457). -/
def tickRest (act : BitVec 17) (fb : Bool) (s : State) : State :=
  let s2 := setPermission 2 3 (s.pwr.coreStable && !s.pwr.warnNow) s
  let s3 := setPermission 2 4 (!s2.onyx.tripped) s2
  serviceCheck (noteGrant (tickActive act fb (mainPermissions s3)))

theorem tickRest_steps (act : BitVec 17) (fb : Bool) (s : State) : OnlyChanges tickParts s (tickRest act fb s) ∧
    (tickRest act fb s).onyx.sansRest = s.onyx.sansRest ∧ (tickRest act fb s).onyx.hpwrFb = fb ∧
    (tickRest act fb s).onyx.permOnyx.getLsbD 0 = s.onyx.permOnyx.getLsbD 0 ∧
    (tickRest act fb s).onyx.permOnyx.getLsbD 2 = (s.pwr.coreStable && !s.pwr.warnNow) ∧
    (tickRest act fb s).onyx.permOnyx.getLsbD 3 = (!s.onyx.tripped) := by
  unfold tickRest
  extract_lets s2 s3
  have h2 := setPermission_sansPermits 2 3 (s.pwr.coreStable && !s.pwr.warnNow) s
  have h3 := setPermission_sansPermits 2 4 (!s2.onyx.tripped) s2
  have hm := (mainPermissions_quiet s3).2
  have hc := serviceCheck_core (noteGrant (tickActive act fb (mainPermissions s3)))
  have hrest : (serviceCheck (noteGrant (tickActive act fb (mainPermissions s3)))).onyx.sansRest = s.onyx.sansRest :=
    (congrArg Onyx.sansRest hc :).trans (congrArg Onyx.sansRest (hm.trans (h3.trans h2)) :)
  have hperm : (serviceCheck (noteGrant (tickActive act fb (mainPermissions s3)))).onyx.permOnyx = s3.onyx.permOnyx :=
    (congrArg Onyx.permOnyx hc :).trans (mainPermissions_permOnyx s3)
  have htripped : s2.onyx.tripped = s.onyx.tripped := (congrArg Onyx.tripped h2 :)
  have hparts : OnlyChanges tickParts s s3 := (setPermission_ticks 2 3 _ s).trans (setPermission_ticks 2 4 _ s2)
  have hmain : OnlyChanges tickParts s3 (noteGrant (tickActive act fb (mainPermissions s3))) :=
    ((mainPermissions_onlyChanges s3).mono (by decide)).trans
      (((onlyChanges_onyx _ _).mono (by decide)).trans ((onlyChanges_onyx _ _).mono (by decide)))
  refine ⟨(hparts.trans hmain).trans ((serviceCheck_onlyChanges _).mono (by decide)), hrest, (congrArg Onyx.hpwrFb hc :), ?_, ?_, ?_⟩
  · rw [hperm, permitAt 4 0 _ s2 (by decide), if_neg (by decide), permitAt 3 0 _ s (by decide), if_neg (by decide)]
  · rw [hperm, permitAt 4 2 _ s2 (by decide), if_neg (by decide), permitAt 3 2 _ s (by decide), if_pos rfl]
  · rw [hperm, permitAt 4 3 _ s2 (by decide), if_pos rfl, htripped]

/-- The encoder part of a tick gives the speeds, the run of good ticks and WEB (R454). -/
theorem tickWeb_steps {e0 e1 v0 v1 : Int} {here : Bool} {run : Nat} {s : State}
    (h0 : v0 = onyxSpeed (((if s.onyx.cfg.enc0Fwd then -e0 else e0) :: s.onyx.edges0).take 16) s.onyx.cfg.scale0)
    (h1 : v1 = onyxSpeed (((if s.onyx.cfg.enc1Fwd then -e1 else e1) :: s.onyx.edges1).take 16) s.onyx.cfg.scale1)
    (hr : run = (if webCondition here v0 v1 s.onyx.cfg then min 3 (s.onyx.webRun + 1) else 0)) :
    OnlyChanges tickParts s (tickWeb e0 e1 here s) ∧ (tickWeb e0 e1 here s).onyx.speed0 = v0 ∧ (tickWeb e0 e1 here s).onyx.speed1 = v1 ∧
    (tickWeb e0 e1 here s).onyx.webRun = run ∧ (tickWeb e0 e1 here s).onyx.permOnyx.getLsbD 0 = decide (3 ≤ run) ∧
    (tickWeb e0 e1 here s).onyx.tripped = s.onyx.tripped ∧ (tickWeb e0 e1 here s).onyx.lampPwr = s.onyx.lampPwr ∧
    (tickWeb e0 e1 here s).onyx.cfg = s.onyx.cfg := by
  subst h0 h1 hr
  unfold tickWeb
  extract_lets o l0 l1 v0 v1 good run
  generalize hu : ({ s with onyx := { o with
    edges0 := l0, edges1 := l1, speed0 := v0, speed1 := v1, webRun := run, envLost := if here then 0 else o.envLost,
    lampLow := if v0 < o.cfg.vLamp ∧ v1 < o.cfg.vLamp then min 50 (o.lampLow + 1) else 0 } } : State) = u
  have hq := setPermission_sansPermits 2 1 (decide (run ≥ 3)) u
  have hparts : OnlyChanges tickParts s u := hu ▸ (onlyChanges_onyx s _).mono (by decide)
  have hbit := permitAt 1 0 (decide (run ≥ 3)) u (by decide)
  refine ⟨hparts.trans (setPermission_ticks 2 1 _ u), (congrArg Onyx.speed0 hq :).trans ?_, (congrArg Onyx.speed1 hq :).trans ?_,
    (congrArg Onyx.webRun hq :).trans ?_, hbit.trans (if_pos rfl), (congrArg Onyx.tripped hq :).trans ?_, (congrArg Onyx.lampPwr hq :).trans ?_,
    (congrArg Onyx.cfg hq :).trans ?_⟩
  all_goals subst hu; rfl

/-- The state in which a tick is timed. -/
def ticked (s : State) : State := { s with onyx := { s.onyx with tickAt := s.pos.mono } }

/-- A tick's parts in their order. -/
def tick (e0 e1 : Int) (here sw fb : Bool) (act : BitVec 17) (s : State) : State :=
  tickRest act fb (tickLamp (tickCap sw (tickWeb e0 e1 here (ticked s))))

theorem onyxTick_idle (e0 e1 : Int) (here sw fb : Bool) (act : BitVec 17) (i : Option Nat) (h : s.aonDue s.onyx.tickAt 1000000 = false) :
    execOnyxTick e0 e1 here sw fb act i s = .next s :=
  if_pos (by rw [h]; rfl)

theorem onyxTick_good (e0 e1 : Int) (here sw fb : Bool) (act : BitVec 17) (h : s.aonDue s.onyx.tickAt 1000000 = true) :
    execOnyxTick e0 e1 here sw fb act none s = .next (tick e0 e1 here sw fb act s) := by
  unfold execOnyxTick
  rw [if_neg (by rw [h]; decide)]
  simp only [tick, tickRest, ticked]

theorem onyxTick_failed (e0 e1 : Int) (here sw fb : Bool) (act : BitVec 17) (i : Nat) (h : s.aonDue s.onyx.tickAt 1000000 = true) :
    execOnyxTick e0 e1 here sw fb act (some i) s = .next (latchTrip 15 (w32 i)
      { tick e0 e1 here sw fb act s with onyx := { (tick e0 e1 here sw fb act s).onyx with selfTestOk := false } }) := by
  unfold execOnyxTick
  rw [if_neg (by rw [h]; decide)]
  simp only [tick, tickRest, ticked]

theorem onyxTick_claim {e0 e1 v0 v1 : Int} {here sw fb : Bool} {act : BitVec 17} {run : Nat}
    (h0 : v0 = onyxSpeed (((if s.onyx.cfg.enc0Fwd then -e0 else e0) :: s.onyx.edges0).take 16) s.onyx.cfg.scale0)
    (h1 : v1 = onyxSpeed (((if s.onyx.cfg.enc1Fwd then -e1 else e1) :: s.onyx.edges1).take 16) s.onyx.cfg.scale1)
    (hr : run = (if webCondition here v0 v1 s.onyx.cfg then min 3 (s.onyx.webRun + 1) else 0)) (hdue : s.aonDue s.onyx.tickAt 1000000 = true) :
    ∃ t, execOnyxTick e0 e1 here sw fb act none s = .next t ∧ t.onyx.speed0 = v0 ∧ t.onyx.speed1 = v1 ∧ t.onyx.webRun = run ∧
      t.onyx.permOnyx.getLsbD 0 = decide (3 ≤ run) ∧ t.onyx.permOnyx.getLsbD 2 = (s.pwr.coreStable && !s.pwr.warnNow) ∧
      t.onyx.permOnyx.getLsbD 3 = (!s.onyx.tripped) ∧ t.onyx.tripped = s.onyx.tripped ∧ t.onyx.hpwrFb = fb ∧ t.onyx.capSw = sw ∧
      t.cg = s.cg ∧ t.pos = s.pos ∧ (t.onyx.lampPwr = true → s.onyx.lampPwr = true ∨ (s.onyx.cfg.vLamp ≤ v0 ∧ s.onyx.cfg.vLamp ≤ v1)) := by
  obtain ⟨p1, hv0, hv1, hrun, hweb, htrip, hlamp, hcfg⟩ := tickWeb_steps (s := ticked s) (e0 := e0) (e1 := e1) (here := here) h0 h1 hr
  have p0 : OnlyChanges tickParts s (ticked s) := (onlyChanges_onyx s _).mono (by decide)
  refine ⟨_, onyxTick_good e0 e1 here sw fb act hdue, ?_⟩
  unfold tick
  generalize tickWeb e0 e1 here (ticked s) = w at *
  obtain ⟨p2, hcap, hsw, hbits⟩ := tickCap_steps sw w
  generalize tickCap sw w = c at *
  obtain ⟨p3, l, hl, hraise⟩ := tickLamp_steps c
  generalize tickLamp c = g at *
  obtain ⟨p4, hrest, hfb, hbit0, hbit2, hbit3⟩ := tickRest_steps act fb g
  have p123 := ((p0.trans p1).trans p2).trans p3
  have p := p123.trans p4
  have hc0 : c.onyx.speed0 = v0 := (congrArg Onyx.speed0 hcap :).trans hv0
  have hc1 : c.onyx.speed1 = v1 := (congrArg Onyx.speed1 hcap :).trans hv1
  have hccfg : c.onyx.cfg = s.onyx.cfg := (congrArg Onyx.cfg hcap :).trans hcfg
  have hclamp : c.onyx.lampPwr = s.onyx.lampPwr := (congrArg Onyx.lampPwr hcap :).trans hlamp
  have hctrip : c.onyx.tripped = s.onyx.tripped := (congrArg Onyx.tripped hcap :).trans htrip
  have hg : g.onyx.tripped = s.onyx.tripped := (congrArg Onyx.tripped hl :).trans hctrip
  refine ⟨(congrArg Onyx.speed0 hrest :).trans ((congrArg Onyx.speed0 hl :).trans hc0),
    (congrArg Onyx.speed1 hrest :).trans ((congrArg Onyx.speed1 hl :).trans hc1),
    (congrArg Onyx.webRun hrest :).trans ((congrArg Onyx.webRun hl :).trans ((congrArg Onyx.webRun hcap :).trans hrun)), ?_, ?_, ?_,
    (congrArg Onyx.tripped hrest :).trans hg, hfb, (congrArg Onyx.capSw hrest :).trans ((congrArg Onyx.capSw hl :).trans hsw),
    (p .cg (by decide)).symm, (p .pos (by decide)).symm, fun hon => ?_⟩
  · rw [hbit0, (congrArg Onyx.permOnyx hl :), hbits 0 (by decide) (by decide), hweb]
  · rw [hbit2, ← (p123 .pwr (by decide))]
  · rw [hbit3, hg]
  · have hlit : l = true := (congrArg Onyx.lampPwr hl :).symm.trans ((congrArg Onyx.lampPwr hrest :).symm.trans hon)
    have h := hraise hlit
    rwa [hclamp, hccfg, hc0, hc1] at h

theorem latchTrip_mask {c : Nat} {p : Word} (hc : c < 17) (s : State) : (latchTrip c p s).onyx.mask.getLsbD c = true := by
  have hbit : (1#17 <<< c).getLsbD c = true := by
    rw [BitVec.getLsbD_shiftLeft, decide_eq_true hc, decide_eq_false (Nat.lt_irrefl c), Nat.sub_self]
    rfl
  cases h : s.onyx.tripped with
  | true =>
    have hm : (latchTrip c p s).onyx.mask = s.onyx.mask ||| (1#17 <<< c) := by
      unfold latchTrip
      rw [if_pos h]
    rw [hm, BitVec.getLsbD_or, hbit, Bool.or_true]
  | false =>
    obtain ⟨-, -, hmask, -⟩ := latchTrip_latches (cause := c) (param := p) h
    rw [hmask, hbit]

theorem onyxTick_fails {e0 e1 : Int} {here sw fb : Bool} {act : BitVec 17} {i : Nat} (hdue : s.aonDue s.onyx.tickAt 1000000 = true) :
    ∃ t, execOnyxTick e0 e1 here sw fb act (some i) s = .next t ∧
      t.onyx.tripped = true ∧ t.onyx.mask.getLsbD 15 = true ∧ t.onyx.hard = true ∧ t.onyx.selfTestOk = false := by
  refine ⟨_, onyxTick_failed e0 e1 here sw fb act i hdue, latchTrip_tripped _ _ _, latchTrip_mask (by decide) _, ?_, (latchTrip_leaves 15 _ _).2.2⟩
  unfold Onyx.hard
  rw [latchTrip_mask (by decide), Bool.or_true]

/-! ## Envelope and gates (R454, R456) -/

theorem permSet_webLost : ∀ cur : BitVec 4, permSet false 1 cur = cur &&& 14#4 := by decide

theorem envelopeLoss_claim (k : Fin 2) (s : State) : ∃ t, execOnyxEnvelopeLoss k s = .next t ∧ OnlyChanges [.host, .pers, .out, .onyx] s t ∧
    t.onyx.webRun = 0 ∧ t.onyx.permOnyx = s.onyx.permOnyx &&& 14#4 ∧ t.onyx.envLost = s.onyx.envLost ||| (1#2 <<< k.val) := by
  have hq := setPermission_sansPermits 2 1 false { s with onyx := { s.onyx with envLost := s.onyx.envLost ||| (1#2 <<< k.val), webRun := 0 } }
  refine ⟨_, rfl, ((onlyChanges_onyx s _).mono (by decide)).trans ((setPermission_onlyChanges 2 1 false _).mono (by decide)),
    (congrArg Onyx.webRun hq :), ?_, (congrArg Onyx.envLost hq :)⟩
  rw [setPermission_permOnyx_own, permSet_webLost]

theorem gateDue_iff (s : State) : gateDue s = true ↔ ∃ p ∈ firingNeeds s.host.opState, s.onyx.permOnyx.getLsbD (p - 1) = false ∧
    98 * 100000 ≤ 100 * s.since (cell s.onyx.wdrAt (p - 1) 0) := by
  unfold gateDue State.aonDue
  simp only [List.any_eq_true, Bool.and_eq_true, Bool.not_eq_true', decide_eq_true_eq]

/-! ## Energy sums (R460) -/

/-- A sum as it is held once it has arrived. -/
def sumArrived (m f : Nat) (g : Option Word) (ef : Option (Word × Word)) (s : State) : ESum :=
  { fire := f, mod := m, eG := g.or ((s.onyx.sumOf f m).bind (·.eG)), eFW := ef.or ((s.onyx.sumOf f m).bind (·.eFW)) }

/-- The state in which a sum is held. -/
def sumHeld (e : ESum) (s : State) : State := { s with onyx := { s.onyx with sums := s.onyx.putSum e } }

theorem sumArrived_eq (m f : Nat) (g : Option Word) (ef : Option (Word × Word)) (s : State) :
    ({ (s.onyx.sumOf f m).getD { fire := f, mod := m } with
      eG := g.or ((s.onyx.sumOf f m).getD { fire := f, mod := m }).eG
      eFW := ef.or ((s.onyx.sumOf f m).getD { fire := f, mod := m }).eFW } : ESum) = sumArrived m f g ef s := by
  unfold sumArrived
  cases h : s.onyx.sumOf f m with
  | none => rfl
  | some old =>
    have hkey := List.find?_some h
    simp only [Bool.and_eq_true, beq_iff_eq] at hkey
    obtain ⟨rfl, rfl⟩ := hkey
    rfl

/-- The comparison with E_G, and the one with E_MAX. -/
theorem onyxSum_both {m f : Nat} {g : Option Word} {ef : Option (Word × Word)} {x y w : Word} (hg : g.or ((s.onyx.sumOf f m).bind (·.eG)) = some x)
    (he : ef = some (y, w)) : onyxSum m f g ef s =
      (let s1 := sumHeld { fire := f, mod := m, eG := some x, eFW := some (y, w) } s
       let s2 := if y + w ≠ x then latchTrip 1 (w32 m) s1 else s1
       if y > s.onyx.cfg.eMax then latchTrip 3 (w32 m) s2 else s2) := by
  subst he
  have ha : sumArrived m f g (some (y, w)) s = { fire := f, mod := m, eG := some x, eFW := some (y, w) } := by
    unfold sumArrived
    rw [hg]
    rfl
  unfold onyxSum
  extract_lets old e _ s1 s2
  have hheld : e = { fire := f, mod := m, eG := some x, eFW := some (y, w) } := (sumArrived_eq m f g (some (y, w)) s).trans ha
  clear_value e
  subst hheld
  rfl

theorem onyxSum_agrees {m f : Nat} {g : Option Word} {ef : Option (Word × Word)} {x y w : Word} (hg : g.or ((s.onyx.sumOf f m).bind (·.eG)) = some x)
    (he : ef = some (y, w)) (hsum : y + w = x) (hmax : y ≤ s.onyx.cfg.eMax) :
    onyxSum m f g ef s = sumHeld { fire := f, mod := m, eG := some x, eFW := some (y, w) } s := by
  rw [onyxSum_both hg he]
  dsimp only
  rw [if_neg (not_not.mpr hsum), if_neg (BitVec.not_lt.mpr hmax)]

theorem onyxSum_mismatch {m f : Nat} {g : Option Word} {ef : Option (Word × Word)} {x y w : Word} (ht : s.onyx.tripped = false)
    (hg : g.or ((s.onyx.sumOf f m).bind (·.eG)) = some x) (he : ef = some (y, w)) (hsum : y + w ≠ x) :
    (onyxSum m f g ef s).onyx.tripped = true ∧ (onyxSum m f g ef s).onyx.cause = 1 ∧ (onyxSum m f g ef s).onyx.param = w32 m := by
  rw [onyxSum_both hg he]
  extract_lets s1 s2
  have hs2 : s2 = latchTrip 1 (w32 m) s1 := if_pos hsum
  obtain ⟨hcause, hparam, -⟩ := latchTrip_latches (cause := 1) (param := w32 m) (s := s1) ht
  have htripped := latchTrip_tripped 1 (w32 m) s1
  rw [hs2]
  split
  · rw [latchTrip_more htripped (.inl (by rw [hcause]; decide))]
    exact ⟨htripped, hcause, hparam⟩
  · exact ⟨htripped, hcause, hparam⟩

theorem onyxSum_limit {m f : Nat} {g : Option Word} {ef : Option (Word × Word)} {x y w : Word} (ht : s.onyx.tripped = false)
    (hg : g.or ((s.onyx.sumOf f m).bind (·.eG)) = some x) (he : ef = some (y, w)) (hsum : y + w = x) (hmax : s.onyx.cfg.eMax < y) :
    (onyxSum m f g ef s).onyx.tripped = true ∧ (onyxSum m f g ef s).onyx.cause = 3 ∧ (onyxSum m f g ef s).onyx.param = w32 m := by
  rw [onyxSum_both hg he]
  dsimp only
  rw [if_neg (not_not.mpr hsum), if_pos hmax]
  obtain ⟨hcause, hparam, -⟩ := latchTrip_latches (cause := 3) (param := w32 m)
    (s := sumHeld { fire := f, mod := m, eG := some x, eFW := some (y, w) } s) ht
  exact ⟨latchTrip_tripped _ _ _, hcause, hparam⟩

theorem onyxSum_alone {m f : Nat} {g : Option Word} {ef : Option (Word × Word)} {x : Word} (hg : g = some x) (hnone : s.onyx.sumOf f m = none)
    (he : ef = none) : onyxSum m f g ef s = sumHeld { fire := f, mod := m, eG := some x } s := by
  subst hg he
  unfold onyxSum
  rw [hnone]
  rfl

theorem energySum_claim (m : Fin 16) (f : Nat) (g : Option Word) (ef : Option (Word × Word)) (ht : s.onyx.tripped = false) :
    (∀ x y w, (g.or ((s.onyx.sumOf f m).bind (·.eG))) = some x → ef = some (y, w) → y + w = x → y ≤ s.onyx.cfg.eMax →
      execOnyxEnergySum m f g ef s = .next { s with onyx := { s.onyx with sums := s.onyx.putSum { fire := f, mod := m, eG := some x, eFW := some (y, w) } } }) ∧
    (∀ x y w, (g.or ((s.onyx.sumOf f m).bind (·.eG))) = some x → ef = some (y, w) → y + w ≠ x →
      ∃ t, execOnyxEnergySum m f g ef s = .next t ∧ t.onyx.tripped = true ∧ t.onyx.cause = 1 ∧ t.onyx.param = w32 m) ∧
    (∀ x y w, (g.or ((s.onyx.sumOf f m).bind (·.eG))) = some x → ef = some (y, w) → y + w = x → s.onyx.cfg.eMax < y →
      ∃ t, execOnyxEnergySum m f g ef s = .next t ∧ t.onyx.tripped = true ∧ t.onyx.cause = 3 ∧ t.onyx.param = w32 m) ∧
    (∀ x, g = some x → s.onyx.sumOf f m = none → ef = none →
      execOnyxEnergySum m f g ef s = .next { s with onyx := { s.onyx with sums := s.onyx.putSum { fire := f, mod := m, eG := some x } } }) :=
  ⟨fun _ _ _ hg he hs hm => congrArg _ (onyxSum_agrees hg he hs hm), fun _ _ _ hg he hs => ⟨_, rfl, onyxSum_mismatch ht hg he hs⟩,
    fun _ _ _ hg he hs hm => ⟨_, rfl, onyxSum_limit ht hg he hs hm⟩, fun _ hg hn he => congrArg _ (onyxSum_alone hg hn he)⟩

/-! ## Markers (R456, R460, R461, R466) -/

/-- Whether a trip is latched, its cause and the mask. -/
def Onyx.trip (o : Onyx) : Bool × Nat × BitVec 17 := (o.tripped, o.cause, o.mask)

/-- What a cause makes of them, none that is latched being higher. -/
def tripNoted (c : Nat) (v : Bool × Nat × BitVec 17) : Bool × Nat × BitVec 17 :=
  if v.1 then (true, v.2.1, v.2.2 ||| 1#17 <<< c) else (true, c, 1#17 <<< c)

theorem latchTrip_trip {c : Nat} {p : Word} (hc : s.onyx.trip.1 = true → s.onyx.trip.2.1 ≤ c) :
    (latchTrip c p s).onyx.trip = tripNoted c s.onyx.trip := by
  cases h : s.onyx.tripped with
  | true =>
    have hv : s.onyx.trip.1 = true := h
    rw [latchTrip_more h (.inl (hc hv))]
    exact (congrArg (fun b => (b, s.onyx.cause, s.onyx.mask ||| 1#17 <<< c)) h).trans (if_pos hv).symm
  | false =>
    have hv : ¬ s.onyx.trip.1 = true := by rw [show s.onyx.trip.1 = false from h]; decide
    obtain ⟨hcause, -, hmask, -⟩ := latchTrip_latches (cause := c) (param := p) h
    have ht := latchTrip_tripped c p s
    unfold tripNoted
    rw [if_neg hv]
    unfold Onyx.trip
    rw [ht, hcause, hmask]

/-- What the three checks of a marker make of them. -/
def markerNoted (noSum stale higher : Bool) (v : Bool × Nat × BitVec 17) : Bool × Nat × BitVec 17 :=
  let v1 := if noSum then tripNoted 2 v else v
  let v2 := if stale then tripNoted 5 v1 else v1
  if higher then tripNoted 7 v2 else v2

theorem markerNoted_table (noSum stale higher : Bool) (c : Nat) (m : BitVec 17) :
    (markerNoted noSum stale higher (false, c, m)).1 = (noSum || stale || higher) ∧ ((noSum || stale || higher) = true →
      (markerNoted noSum stale higher (false, c, m)).2.2.getLsbD 2 = noSum ∧ (markerNoted noSum stale higher (false, c, m)).2.2.getLsbD 5 = stale ∧
      (markerNoted noSum stale higher (false, c, m)).2.2.getLsbD 7 = higher ∧
      (markerNoted noSum stale higher (false, c, m)).2.1 = (if noSum then 2 else if stale then 5 else 7)) := by
  cases noSum <;> cases stale <;> cases higher <;> simp [markerNoted, tripNoted]

theorem latchIf_trip {b : Bool} {c : Nat} {p : Word} (hc : s.onyx.trip.1 = true → s.onyx.trip.2.1 ≤ c) :
    (if b then latchTrip c p s else s).onyx.trip = if b then tripNoted c s.onyx.trip else s.onyx.trip := by
  cases b
  · rfl
  · exact latchTrip_trip hc

/-- The state after the three checks of a marker. -/
def markerTrips (m : Nat) (noSum stale higher : Bool) (s : State) : State :=
  let s1 := if noSum then latchTrip 2 (w32 (m + 16)) s else s
  let s2 := if stale then latchTrip 5 (w32 m) s1 else s1
  if higher then latchTrip 7 (w32 m) s2 else s2

theorem markerTrips_trip {m : Nat} {noSum stale higher : Bool} (h : s.onyx.tripped = false) :
    (markerTrips m noSum stale higher s).onyx.trip = markerNoted noSum stale higher (false, s.onyx.cause, s.onyx.mask) := by
  have hv : s.onyx.trip = (false, s.onyx.cause, s.onyx.mask) := by
    unfold Onyx.trip
    rw [h]
  unfold markerTrips markerNoted
  extract_lets s1 s2 v1 v2
  have h1 : s1.onyx.trip = v1 := (latchIf_trip (by rw [hv]; exact fun hf => absurd hf Bool.false_ne_true)).trans (by rw [hv])
  have hlow1 : v1.1 = true → v1.2.1 ≤ 5 := by
    unfold v1
    cases noSum <;> simp [tripNoted]
  have h2 : s2.onyx.trip = v2 := (latchIf_trip (by rw [h1]; exact hlow1)).trans (by rw [h1])
  have hlow2 : v2.1 = true → v2.2.1 ≤ 7 := by
    unfold v2 v1
    cases noSum <;> cases stale <;> simp [tripNoted]
  exact (latchIf_trip (by rw [h2]; exact hlow2)).trans (by rw [h2])

theorem presentMarker_eq {m fire : Nat} (ht : s.onyx.tripped = false) (hg : s.onyx.gateOpen = true) :
    (presentMarker m fire s).2 = markerTrips m ((s.onyx.sumOf fire m).bind (·.eG)).isNone
      ((s.lane m).statusSeq.isNone || decide ((s.lane m).statusTime.toNat + 40000 < s.pos.mono.toNat)) (decide (8 ≤ (s.lane m).higherRun)) s ∧
    (presentMarker m fire s).1 = !(presentMarker m fire s).2.onyx.tripped := by
  unfold presentMarker markerTrips
  dsimp only
  rw [if_neg (by rw [ht]; decide), if_neg (by rw [hg]; decide)]
  refine ⟨?_, rfl⟩
  simp only [decide_eq_true_eq]
  cases s.onyx.sumOf fire m with
  | none => rfl
  | some e =>
    obtain ⟨-, -, eG, -⟩ := e
    cases eG
    · rfl
    · rfl

theorem presentMarker_claim (m fire : Nat) (s : State) : (s.onyx.tripped = true → presentMarker m fire s = (false, s)) ∧
    (s.onyx.tripped = false → s.onyx.gateOpen = false → presentMarker m fire s = (false, stickRec .gateHeld s)) ∧
    (s.onyx.tripped = false → s.onyx.gateOpen = true → ∀ t noSum stale higher, t = (presentMarker m fire s).2 →
      noSum = ((s.onyx.sumOf fire m).bind (·.eG)).isNone → higher = decide (8 ≤ (s.lane m).higherRun) →
      stale = ((s.lane m).statusSeq.isNone || decide ((s.lane m).statusTime.toNat + 40000 < s.pos.mono.toNat)) →
      (presentMarker m fire s).1 = !(noSum || stale || higher) ∧ t.onyx.tripped = (noSum || stale || higher) ∧
      ((noSum || stale || higher) = true → t.onyx.mask.getLsbD 2 = noSum ∧ t.onyx.mask.getLsbD 5 = stale ∧ t.onyx.mask.getLsbD 7 = higher ∧
        t.onyx.cause = (if noSum then 2 else if stale then 5 else 7))) := by
  refine ⟨fun h => if_pos h, fun h hg => (if_neg (by rw [h]; decide)).trans (if_pos (by rw [hg]; rfl)), ?_⟩
  intro h hg t noSum stale higher ht hn hh hs
  obtain ⟨he, hleaves⟩ := presentMarker_eq (m := m) (fire := fire) h hg
  rw [← hn, ← hh, ← hs, ← ht] at he
  rw [hleaves, ← ht]
  have hv := markerTrips_trip (m := m) (noSum := noSum) (stale := stale) (higher := higher) h
  rw [← he] at hv
  obtain ⟨htable, hmask⟩ := markerNoted_table noSum stale higher s.onyx.cause s.onyx.mask
  rw [← hv] at htable hmask
  have htrip : t.onyx.tripped = (noSum || stale || higher) := htable
  exact ⟨by rw [htrip], htrip, hmask⟩

/-! ## Lamp and axis enables (R458, R459) -/

theorem onyxLampOff_idle (h : s.onyx.lampPwr = false ∨ (s.onyx.lampLow < 50 ∧ (s.onyx.tripped = false ∨ s.aonDue s.onyx.tripAt 1000000 = false))) :
    execOnyxLampOff s = .next s := by
  refine congrArg _ (if_neg ?_)
  rintro ⟨hl, hdue⟩
  rcases h with h | ⟨hlow, h⟩
  · rw [h] at hl
    exact absurd hl (by decide)
  · rcases hdue with hdue | ⟨ht, hdue⟩
    · omega
    · rcases h with h | h
      · exact absurd (h.symm.trans ht) (by decide)
      · exact absurd (h.symm.trans hdue) (by decide)

theorem axisRestore_idle {a : Fin 2} (h : cell s.onyx.axRemoved a.val 0 ≠ 1 ∨ s.aonDue (cell s.onyx.removedAt a.val 0) 100000000 = false) :
    execOnyxAxisRestore a s = .next s := by
  refine congrArg _ (if_neg ?_)
  rintro ⟨hone, hdue⟩
  rcases h with h | h
  · exact h hone
  · exact absurd (h.symm.trans hdue) (by decide)

theorem axisRestore_due {a : Fin 2} (hone : cell s.onyx.axRemoved a.val 0 = 1) (hdue : s.aonDue (cell s.onyx.removedAt a.val 0) 100000000 = true) :
    execOnyxAxisRestore a s = .next (if (cell s.onyx.abs a.val {}).known then
      setAxisEnable a true 1 { s with onyx := { s.onyx with axRemoved := upd s.onyx.axRemoved a (fun _ => 0) } }
      else { s with onyx := { s.onyx with axRemoved := upd s.onyx.axRemoved a (fun _ => 2) } }) :=
  congrArg Host.Outcome.next (if_pos ⟨hone, hdue⟩)

end

theorem onyxChecks : Claims.OnyxChecks := by
  unfold Claims.OnyxChecks
  refine ⟨?tick, ?failed, ?early, fun k s => envelopeLoss_claim k s, ?gate, gateDue_iff, ?sums, presentMarker_claim, fun s h => onyxLampOff_idle h, ?lamp,
    fun a s h => axisRestore_idle h, ?restore⟩
  case tick => exact fun e0 e1 here sw fb act s v0 v1 run h0 h1 hr hdue => onyxTick_claim h0 h1 hr hdue
  case failed => exact fun e0 e1 here sw fb act i s hdue => onyxTick_fails hdue
  case early => exact fun e0 e1 here sw fb act i s h => onyxTick_idle e0 e1 here sw fb act i h
  case gate => exact fun s => ⟨fun h => congrArg _ (if_pos (by rw [h]; rfl)), fun h => congrArg _ (if_neg (by rw [h]; decide))⟩
  case sums => exact fun m f g ef s h => energySum_claim m f g ef h
  case lamp => exact fun s hl h => congrArg _ (if_pos ⟨hl, h⟩)
  case restore =>
    intro a s hone hdue
    refine ⟨fun h => (axisRestore_due hone hdue).trans ?_, fun h => (axisRestore_due hone hdue).trans ?_⟩
    · rw [if_pos h]
    · rw [if_neg (by rw [h]; decide)]

/-! ## Commands (R472, R474, R475) -/

section
variable {k : Fin 16} {c : RungCmd} {s : State}

theorem safeGetStatus_passes (hw : c.w 0 &&& ~~~ 1 = 0) (hb : s.host.opState ≠ .boot) : Passes [reservedW c.payload 0 1, notBoot s] := by
  simp only [passes_cons, passes_nil, and_true]
  exact ⟨reservedW_passes hw, notBoot_passes hb⟩

theorem safeGetStatus_answers (h : Rung 0x0D00 1 k c s) (hb : s.host.opState ≠ .boot) (hw : c.w 0 = 0) : execSafeGetStatus k s =
    .next (respond k (okWith (onyxView (onyxTLimit (lowestTMax (begun k s))) (noteActive (begun k s)))) (begun k s)) := by
  refine congrArg Host.Outcome.next (command_done h (safeGetStatus_passes (by rw [hw]; rfl) hb) ?_)
  rw [firstFlag_clear hw]
  rfl

theorem safeGetStatus_clears (h : Rung 0x0D00 1 k c s) (hb : s.host.opState ≠ .boot) (hw : c.w 0 = 1) : execSafeGetStatus k s =
    .next (respond k (okWith (onyxView (onyxTLimit (lowestTMax (begun k s))) (noteActive (begun k s))))
      { begun k s with onyx := { s.onyx with trips := 0 } }) := by
  refine congrArg Host.Outcome.next (command_done h (safeGetStatus_passes (by rw [hw]; rfl) hb) ?_)
  rw [firstFlag_set hw]
  rfl

/-- An edge length within a quarter of V_MIN (R454). -/
theorem vMinTooLow_passes {v e : Nat} (h : 4 * e ≤ v * 65536) : vMinTooLow v e = false := decide_eq_false (Nat.not_lt.mpr h)

theorem safeConfig_answers (h : Rung 0x0D01 11 k c s) (hlow : 50000 ≤ (c.w 0).toNat) (hhigh : (c.w 0).toNat ≤ 5000000)
    (he0 : 4 * (c.w 2).toNat ≤ (c.w 0).toNat * 65536) (he1 : 4 * (c.w 3).toNat ≤ (c.w 0).toNat * 65536) (hlamp : 1000 ≤ (c.w 1).toNat)
    (hlampHigh : (c.w 1).toNat ≤ 1000000) (htol : 1 ≤ fld (c.w 9) 0 16) (hres : c.w 9 &&& ~~~ 0x7FFFF = 0) (hf : s.host.firing = false) :
    execSafeConfig k s = .next (respond k ok { begun k s with onyx := { s.onyx with
      cfg := { vMin := (c.w 0).toNat, vLamp := (c.w 1).toNat, scale0 := (c.w 2).toNat, scale1 := (c.w 3).toNat
               cap1Lo := c.w 4, cap1Hi := c.w 5, cap0Lo := c.w 6, cap0Hi := c.w 7, liftGuard := c.w 8
               axTol := fld (c.w 9) 0 16, liftUpRising := flag (c.w 9) 16, enc0Fwd := flag (c.w 9) 17
               enc1Fwd := flag (c.w 9) 18, eMax := c.w 10 }
      cfgCrc := w32 (crc32c (wordBytes (cfgWords (cfgOf c.payload)))) } }) := by
  refine congrArg Host.Outcome.next (command_done h ?_ rfl)
  simp only [passes_cons, passes_nil, and_true]
  refine ⟨?speed, ?lamp, ?tolerance, reservedW_passes hres, hf⟩
  case speed =>
    change (decide ((c.w 0).toNat < 50000 ∨ (c.w 0).toNat > 5000000) || vMinTooLow (c.w 0).toNat (c.w 2).toNat ||
      vMinTooLow (c.w 0).toNat (c.w 3).toNat) = false
    rw [decide_eq_false (by omega), vMinTooLow_passes he0, vMinTooLow_passes he1]
    rfl
  case lamp =>
    change decide ((c.w 1).toNat < 1000 ∨ (c.w 1).toNat > 1000000) = false
    exact decide_eq_false (by omega)
  case tolerance => exact beq_eq_false_iff_ne.mpr (Nat.one_le_iff_ne_zero.mp htol)

theorem safeTrip_again (h : Rung 0x0D03 0 k c s) (hs : s.host.opState = .safe) :
    execSafeTrip k s = .next (respond k ok (latchTrip 16 0 (begun k s))) := by
  refine congrArg Host.Outcome.next (command_done h ?_ (if_pos hs))
  simp only [passes_cons, passes_nil, and_true]
  exact notBoot_passes (by rw [hs]; decide)

theorem safeTrip_waits (h : Rung 0x0D03 0 k c s) (hs : s.host.opState ≠ .safe) (hb : s.host.opState ≠ .boot) (ht : s.onyx.tripped = false) :
    ∃ t, execSafeTrip k s = .next t ∧ t.onyx.tripped = true ∧ t.onyx.cause = 16 ∧ t.onyx.tripSlot = some k.val ∧ t.host.firing = false := by
  have hu : ({ begun k s with onyx := { s.onyx with tripSlot := some k.val } } : State).onyx.tripped = false := ht
  obtain ⟨hcause, -⟩ := latchTrip_latches (cause := 16) (param := 0) hu
  refine ⟨_, congrArg Host.Outcome.next (command_later h ?_ (if_neg hs)), latchTrip_tripped _ _ _, hcause,
    (congrArg Onyx.tripSlot (latchTrip_onyx 16 0 hu) :), latchTrip_firing hu⟩
  simp only [passes_cons, passes_nil, and_true]
  exact notBoot_passes hb

/-! ## SAFE_EXIT (R467) -/

/-- One lane of `releaseIdle`. -/
def releaseLane (m : Nat) (s : State) : State :=
  let l := s.lane m
  if l.idleHeld ∨ l.blanking then
    let s1 := setLane m (fun l => { l with idleHeld := false, blanking := false, blankRuns := 0 }) s
    if l.st = .disabled ∨ l.st = .held then s1 else toDetect m s1
  else s

theorem releaseIdle_eq (s : State) : releaseIdle s = forAll (List.range 16) releaseLane s := rfl

theorem toDetect_keeps (m : Nat) (s : State) : s.Keeps (toDetect m s) :=
  ((leaveActive_keeps m s).trans (setLane_keeps m _ _)).trans (enterLane_keeps m .detect _)

theorem releaseLane_quietly (m : Nat) (s : State) : Quietly [.host, .pers, .hl, .free, .out] s (releaseLane m s) := by
  have hset : Quietly [.host, .pers, .hl, .free, .out] s (setLane m (fun l => { l with idleHeld := false, blanking := false, blankRuns := 0 }) s) :=
    ⟨(setLane_onlyChanges m _ s).mono (by decide), setLane_keeps m _ s⟩
  unfold releaseLane
  dsimp only
  split
  · split
    · exact hset
    · exact hset.trans ⟨toDetect_onlyChanges m _, toDetect_keeps m _⟩
  · exact .refl _ s

theorem releaseIdle_quietly (s : State) : Quietly [.host, .pers, .hl, .free, .out] s (releaseIdle s) := by
  rw [releaseIdle_eq]
  exact .foldl _ _ s fun t m => releaseLane_quietly m t

/-- The state in which the trip is cleared. -/
def tripCleared (s : State) : State := { s with onyx := { s.onyx with tripped := false } }

/-- The unit in READY again, its trip cleared and NO_TRIP given back. -/
def readied (s : State) : State := setOpState .ready false (setPermission 2 4 true (tripCleared s))

theorem readied_steps (h : s.host.opState = .safe) : OnlyChanges [.host, .pers, .onyx, .out] s (readied s) ∧ (readied s).host.opState = .ready ∧
    (readied s).onyx.tripped = false ∧ (readied s).onyx.hpwrA = (s.pwr.state == .run) ∧ (readied s).onyx.hpwrB = (s.pwr.state == .run) ∧
    (readied s).onyx.cause = s.onyx.cause ∧ (readied s).onyx.mask = s.onyx.mask ∧ (readied s).onyx.permOnyx.getLsbD 3 = true := by
  unfold readied
  have hp := setPermission_sansPermits 2 4 true (tripCleared s)
  have hop : (setPermission 2 4 true (tripCleared s)).host.opState = .safe :=
    (congrArg HostIf.opState (setPermission_quiet 2 4 true (tripCleared s)).1 :).trans h
  have hbit := permitAt 4 3 true (tripCleared s) (by decide)
  have hpwr : (setPermission 2 4 true (tripCleared s)).pwr = s.pwr := setPermission_pwr 2 4 true (tripCleared s)
  have hparts : OnlyChanges [.host, .pers, .onyx, .out] s (setPermission 2 4 true (tripCleared s)) :=
    ((onlyChanges_onyx s _).mono (by decide)).trans ((setPermission_onlyChanges 2 4 true (tripCleared s)).mono (by decide))
  have htrip : (setPermission 2 4 true (tripCleared s)).onyx.tripped = false := (congrArg Onyx.tripped hp :)
  have hcause : (setPermission 2 4 true (tripCleared s)).onyx.cause = s.onyx.cause := (congrArg Onyx.cause hp :)
  have hmask : (setPermission 2 4 true (tripCleared s)).onyx.mask = s.onyx.mask := (congrArg Onyx.mask hp :)
  generalize setPermission 2 4 true (tripCleared s) = v at *
  have ho : (setOpState .ready false v).onyx = (setOutputs .ready v.pwr.state v).onyx := setOpState_onyx_eq false (by rw [hop]; decide)
  have hon : (setOutputs .ready v.pwr.state v).onyx.hpwrA = (s.pwr.state == .run) ∧ (setOutputs .ready v.pwr.state v).onyx.hpwrB = (s.pwr.state == .run) := by
    rw [← hpwr]
    constructor
    · change ((true && !v.onyx.tripped) && _) = _
      rw [htrip]
      rfl
    · change ((true && !v.onyx.tripped) && _) = _
      rw [htrip]
      rfl
  rw [ho]
  exact ⟨hparts.trans (setOpState_onlyChanges .ready false v), setOpState_opState .ready false v, htrip, hon.1, hon.2, hcause, hmask,
    hbit.trans (if_pos rfl)⟩

/-- What follows once the unit is READY: its lanes train again, the event, and the main side's permissions. -/
def exitFollows (s : State) : State :=
  let s3 := if s.twin.prsnt then releaseIdle s else s
  mainUpdate (event { ev := .safeExited, p0 := w32 s3.onyx.tripSeq.toNat } s3)

theorem leaveSafe_eq (s : State) : leaveSafe s = exitFollows (readied s) := rfl

theorem exitFollows_steps (h : s.host.opState = .ready) : OnlyChanges [.host, .pers, .onyx, .hl, .free, .out] s (exitFollows s) ∧
    (exitFollows s).host.opState = .ready ∧ (exitFollows s).onyx.sansRest = s.onyx.sansRest ∧ (exitFollows s).onyx.hpwrA = s.onyx.hpwrA ∧
    (exitFollows s).onyx.hpwrB = s.onyx.hpwrB ∧ (exitFollows s).onyx.permOnyx = s.onyx.permOnyx := by
  unfold exitFollows
  extract_lets s3
  have h3 : Quietly [.host, .pers, .hl, .free, .out] s s3 := by
    unfold s3
    split
    · exact releaseIdle_quietly s
    · exact .refl _ s
  have h4 : Quietly [.host, .pers, .hl, .free, .out] s (event { ev := .safeExited, p0 := w32 s3.onyx.tripSeq.toNat } s3) :=
    h3.trans ((event_quietly _ s3).mono (by decide))
  generalize event { ev := .safeExited, p0 := w32 s3.onyx.tripSeq.toNat } s3 = w at *
  have hop : w.host.opState = .ready := (congrArg HostIf.opState h4.keeps.host :).trans h
  have honyx : w.onyx = s.onyx := (h4.parts .onyx (by decide)).symm
  obtain ⟨hq, ho⟩ := mainPermissions_quiet w
  have hall := h4.parts.mono (qs := [.host, .pers, .onyx, .hl, .free, .out]) (by decide)
  refine ⟨hall.trans ((mainUpdate_onlyChanges w).mono (by decide)), ?_⟩
  rw [mainUpdate_idle (by rw [hop]; decide), ← honyx]
  exact ⟨(congrArg HostIf.opState hq :).trans hop, (congrArg Onyx.sansRest ho :), (congrArg Onyx.hpwrA ho :), (congrArg Onyx.hpwrB ho :),
    mainPermissions_permOnyx w⟩

theorem leaveSafe_claim (h : s.host.opState = .safe) : (leaveSafe s).host.opState = .ready ∧ (leaveSafe s).onyx.tripped = false ∧
    (leaveSafe s).onyx.hpwrA = (s.pwr.state == .run) ∧ (leaveSafe s).onyx.hpwrB = (s.pwr.state == .run) ∧
    (leaveSafe s).onyx.cause = s.onyx.cause ∧ (leaveSafe s).onyx.mask = s.onyx.mask ∧ (leaveSafe s).onyx.permOnyx.getLsbD 3 = true ∧
    (leaveSafe s).twin.role = s.twin.role ∧ (leaveSafe s).cg = s.cg := by
  obtain ⟨p1, hop, htrip, hA, hB, hcause, hmask, hperm⟩ := readied_steps h
  rw [leaveSafe_eq]
  generalize readied s = r at *
  obtain ⟨p2, hop2, hrest, hA2, hB2, hperm2⟩ := exitFollows_steps hop
  have p := (p1.mono (qs := [.host, .pers, .onyx, .hl, .free, .out]) (by decide)).trans p2
  refine ⟨hop2, (congrArg Onyx.tripped hrest :).trans htrip, hA2.trans hA, hB2.trans hB, (congrArg Onyx.cause hrest :).trans hcause,
    (congrArg Onyx.mask hrest :).trans hmask, ?_, (congrArg Twin.role (p .twin (by decide))).symm, (p .cg (by decide)).symm⟩
  rw [hperm2, hperm]

theorem safeExit_claim (h : Rung 0x0D02 1 k c s) (hseq : (c.w 0).toNat = s.onyx.tripSeq.toNat) (hop : s.host.opState = .safe)
    (hactive : activeCauses s = 0) (hdog : s.onyx.wdogRunning = true) (hreact : s.onyx.reacting = false) (hhard : s.onyx.hard = false) :
    ∃ t, execSafeExit k s = .next (respond k ok t) ∧ t.host.opState = .ready ∧ t.onyx.tripped = false ∧
      t.onyx.hpwrA = (s.pwr.state == .run) ∧ t.onyx.hpwrB = (s.pwr.state == .run) ∧ t.onyx.cause = s.onyx.cause ∧ t.onyx.mask = s.onyx.mask ∧
      t.onyx.permOnyx.getLsbD 3 = true ∧ t.twin.role = s.twin.role ∧ t.cg = s.cg := by
  refine ⟨leaveSafe (begun k s), congrArg Host.Outcome.next (command_done h ?_ rfl), leaveSafe_claim hop⟩
  have hword : wn c.payload 0 = s.onyx.tripSeq.toNat := hseq
  simp only [passes_cons, passes_nil, and_true]
  refine ⟨?_, ?_, ?_, ?_, hhard⟩
  · rw [hword]
    exact bne_self_eq_false _
  · rw [hop]
    rfl
  · rw [hactive]
    rfl
  · rw [hdog, hreact]
    rfl

end

theorem safetyCommands : Claims.SafetyCommands := by
  unfold Claims.SafetyCommands
  refine ⟨?status, ?config, ?exit, fun k c s h hs => safeTrip_again h hs, fun k c s h hs hb ht => safeTrip_waits h hs hb ht⟩
  case status => exact fun k c s h hb => ⟨fun hw => safeGetStatus_answers h hb hw, fun hw => safeGetStatus_clears h hb hw⟩
  case config => exact fun k c s h hlow hhigh he0 he1 hl hlh ht hr hf => safeConfig_answers h hlow hhigh he0 he1 hl hlh ht hr hf
  case exit => exact fun k c s h hseq hop ha hd hr hh => safeExit_claim h hseq hop ha hd hr hh

/-- Settles O55: a tick part by part, the three causes of a marker by their table, and SAFE_EXIT by what leaving SAFE keeps. -/
theorem onyx : Obligations.Onyx := ⟨onyxChecks, safetyCommands⟩

end Sys2Proof.Machine
end

section
/-!
PROOFS. DRAM upkeep: refresh, corrected errors, training passes and the zero fill (R482, R487, R490 to R494, R497).
-/
namespace Sys2Proof.Machine

/-! ## What an event leaves of the output -/

namespace Log
variable (l : Log)

/-- A change of the log that begins with one that leaves the output. -/
theorem outAfter {l l1 l2 : Log} (h : l1.out <:+ l2.out) (e : l1.out = l.out) : l.out <:+ l2.out := e ▸ h

theorem send_out (v : Nat) : l.out <:+ (l.send v).out := by
  unfold send
  split
  · exact List.suffix_cons _ _
  · exact List.suffix_rfl

theorem stick_out (k : Sticky) : l.out <:+ (l.stick k).out := by
  unfold stick
  dsimp only
  split
  · exact List.suffix_rfl
  · split
    · exact outAfter (send_out _ 2) rfl
    · exact List.suffix_rfl

theorem respond_out (slot : Nat) (a : Ans) : l.out <:+ (l.respond slot a).out := by
  unfold respond
  split
  · exact List.suffix_rfl
  · dsimp only
    split
    · exact List.suffix_rfl
    · split
      · exact List.suffix_rfl
      · exact outAfter (send_out _ 0) rfl

theorem record_out (r : AlmRec) : l.out <:+ (l.record r).out := by
  unfold record
  dsimp only
  split
  · exact List.suffix_rfl
  · split
    · exact outAfter ((stick_out _ _).trans (respond_out _ _ _)) rfl
    · exact outAfter (stick_out _ _) rfl

theorem stickRec_out (line : Word) (k : Sticky) (source : Nat) : l.out <:+ (l.stickRec line k source).out := by
  unfold stickRec
  split
  · exact List.suffix_rfl
  · exact (stick_out l k).trans (record_out _ _)

theorem signal_out (now : Bool) (i : Word) (v : Nat) : l.out <:+ (l.signal now i v).out := by
  unfold signal
  dsimp only
  split
  · exact outAfter (send_out _ v) rfl
  · exact List.suffix_rfl

theorem enqueue_out (line : Word) (code source sev : Nat) (tag p0 p1 p2 w7 : Word) :
    l.out <:+ (l.enqueue line code source sev tag p0 p1 p2 w7).out := by
  unfold enqueue
  dsimp only
  split
  · exact outAfter (signal_out _ _ _ _) rfl
  · exact outAfter (signal_out _ _ _ _) rfl
  · exact outAfter ((signal_out _ _ _ _).trans (signal_out _ _ _ _)) rfl

theorem queueEvent_out (line : Word) (e : Event) : l.out <:+ (l.queueEvent line e).out := by
  unfold queueEvent
  dsimp only
  split
  · exact List.suffix_rfl
  · split
    · exact enqueue_out l _ _ _ _ _ _ _ _ _
    · exact outAfter (stickRec_out _ _ _ _) rfl

theorem event_out (line : Word) (e : Event) : l.out <:+ (l.event line e).out := by
  unfold event
  dsimp only
  split
  · exact (queueEvent_out l line e).trans (record_out _ _)
  · exact queueEvent_out l line e

end Log

theorem event_keepsOut {o : Output} (e : Event) {s : State} (h : o ∈ s.out) : o ∈ (event e s).out := (Log.event_out s.log s.line e).subset h

/-! ## Refresh (R487, R490) -/

/-- The DRAM controller without its requests and what serving them changes. -/
def Dram.sansService (d : Dram) : Dram := { d.sansReqs with returning := [], served := [] }

theorem endReq_sansService (mono : Dword) (r : MemReq) (d : Dram) : (endReq mono r d).sansService = d.sansService :=
  congrArg (fun d : Dram => { d with returning := [], served := [] }) (admitted_sansReqs _)

theorem issue_sansService (mono : Dword) (r : MemReq) (d : Dram) : (issue mono r d).sansService = d.sansService := by
  unfold issue
  split
  · rfl
  · split
    · rfl
    · split
      · rfl
      · exact endReq_sansService mono r d

theorem finishReq_sansService (mono : Dword) (x : Dram × List DdrCmd) (r : MemReq) : (finishReq mono x r).1.sansService = x.1.sansService :=
  List.foldlRecOn (motive := fun y : Dram × List DdrCmd => y.1.sansService = x.1.sansService) (List.range' r.cols (r.units.length - r.cols)) _ rfl
    fun _ hy _ _ => (issue_sansService mono _ _).trans hy

theorem finishOpen_sansService (mono : Dword) (d : Dram) : (finishOpen mono d).1.sansService = d.sansService := by
  unfold finishOpen
  exact List.foldlRecOn (motive := fun y : Dram × List DdrCmd => y.1.sansService = d.sansService) _ (finishReq mono) rfl
    fun y hy r _ => (finishReq_sansService mono y r).trans hy

theorem fitted_config {w : Word} (h : (fittedBytes w).isSome = true) : flag w 31 = true := by
  by_contra hf
  have hnone : fittedBytes w = none := if_pos (.inl (by rw [Bool.eq_false_iff.mpr hf]; rfl))
  rw [hnone] at h
  exact absurd h (by decide)

section
variable {s : State} {r0 r1 : Option (Fin 3)}

theorem dramRefresh_idle (h : fittedBytes s.dram.config = none ∨
    ∃ t, s.dram.refreshAt = some t ∧ s.pos.mono.toNat < t.toNat + (if s.dram.refFast then 3900 else 7800)) : execDramRefresh r0 r1 s = .next s := by
  have hdue : refreshDue s = false := by
    unfold refreshDue
    rcases h with h | ⟨t, ht, hlt⟩
    · rw [h]
      rfl
    · rw [ht]
      have hlate : decide (t.toNat + s.dram.trefi ≤ s.pos.mono.toNat) = false := decide_eq_false (Nat.not_le.mpr hlt)
      simp only [hlate, Bool.and_false]
  exact congrArg _ (if_pos (by rw [hdue]; rfl))

theorem refreshDue_of (hf : (fittedBytes s.dram.config).isSome = true)
    (hd : ∀ t, s.dram.refreshAt = some t → t.toNat + (if s.dram.refFast then 3900 else 7800) ≤ s.pos.mono.toNat) : refreshDue s = true := by
  unfold refreshDue
  rw [hf, fitted_config hf]
  cases h : s.dram.refreshAt with
  | none => rfl
  | some t => exact decide_eq_true (hd t h)

/-- The state before a refresh's bursts end: a readout above 85 °C takes effect. -/
def refreshTimed (s : State) : State := if s.dram.hotSeen then setRefresh true s else s

/-- The commands of a refresh. -/
def refreshCmds (last : Bool) (cs : List DdrCmd) (ranks : List Nat) : List DdrCmd :=
  cs ++ ranks.map .prechargeAll ++ ranks.map .refresh ++ (if last then ranks.map .zqcs else [])

/-- The state after a refresh's commands. -/
def refreshed (last : Bool) (s s1 : State) : State :=
  let x := finishOpen s.pos.mono s1.dram
  emits ((refreshCmds last x.2 (ranksOf x.1.config)).map .dram) { s1 with dram := { x.1 with
    refreshes := satAdd x.1.refreshes 1, sinceZq := if last then 0 else x.1.sinceZq + 1, refreshAt := some s.pos.mono
    stallTo := s.pos.mono.toNat + stallNs x.1.config last } }

theorem dramRefresh_due (hf : (fittedBytes s.dram.config).isSome = true)
    (hd : ∀ t, s.dram.refreshAt = some t → t.toNat + (if s.dram.refFast then 3900 else 7800) ≤ s.pos.mono.toNat) {last : Bool}
    (hl : decide (s.dram.sinceZq ≥ 127) = last) : execDramRefresh r0 r1 s =
      .next (if last then readout (hotter r0 r1) (refreshed last s (refreshTimed s)) else refreshed last s (refreshTimed s)) := by
  subst hl
  exact congrArg Host.Outcome.next (if_neg (by rw [refreshDue_of hf hd]; decide))

theorem refreshed_onlyChanges (last : Bool) (s s1 : State) : OnlyChanges [.dram, .out] s1 (refreshed last s s1) :=
  ((onlyChanges_dram s1 _).mono (by decide)).trans ((emits_onlyChanges _ _).mono (by decide))

theorem setRefresh_onlyChanges (fast : Bool) (s : State) : OnlyChanges eccParts s (setRefresh fast s) := by
  have h1 : OnlyChanges eccParts s (setDram (fun d => { d with refFast := fast, hotSeen := false }) s) := (setDram_onlyChanges _ s).mono (by decide)
  unfold setRefresh
  cases fast
  · exact h1.trans ((event_onlyChanges _ _).mono (by decide))
  · exact h1.trans ((stickEvent_onlyChanges _ _ _).mono (by decide))

theorem setRefresh_dram (fast : Bool) (s : State) : (setRefresh fast s).dram = { s.dram with refFast := fast, hotSeen := false } := by
  unfold setRefresh
  cases fast <;> rfl

/-- What serving the open bursts leaves of the state a refresh is timed in. -/
theorem refreshed_dram (last : Bool) (s s1 : State) : (refreshed last s s1).dram.sansService = { s1.dram.sansService with
    refreshes := satAdd s1.dram.refreshes 1, sinceZq := if last then 0 else s1.dram.sinceZq + 1, refreshAt := some s.pos.mono
    stallTo := s.pos.mono.toNat + stallNs s1.dram.config last } := by
  have h := finishOpen_sansService s.pos.mono s1.dram
  change { (finishOpen s.pos.mono s1.dram).1.sansService with
    refreshes := satAdd (finishOpen s.pos.mono s1.dram).1.sansService.refreshes 1
    sinceZq := if last then 0 else (finishOpen s.pos.mono s1.dram).1.sansService.sinceZq + 1, refreshAt := some s.pos.mono
    stallTo := s.pos.mono.toNat + stallNs (finishOpen s.pos.mono s1.dram).1.sansService.config last } = _
  rw [h]
  rfl

theorem dramRefresh_plain (hf : (fittedBytes s.dram.config).isSome = true)
    (hd : ∀ t, s.dram.refreshAt = some t → t.toNat + (if s.dram.refFast then 3900 else 7800) ≤ s.pos.mono.toNat) (hzq : s.dram.sinceZq < 127)
    (hhot : s.dram.hotSeen = false) {d : Dram} {cs : List DdrCmd} (h : (d, cs) = finishOpen s.pos.mono s.dram) : execDramRefresh r0 r1 s =
      .next (emits ((cs ++ (ranksOf d.config).map DdrCmd.prechargeAll ++ (ranksOf d.config).map DdrCmd.refresh).map Output.dram) { s with dram := { d with
        refreshes := satAdd d.refreshes 1, sinceZq := d.sinceZq + 1, refreshAt := some s.pos.mono
        stallTo := s.pos.mono.toNat + (60 + if flag d.config 1 then 550 else 350) } }) := by
  have ht : refreshTimed s = s := if_neg (by rw [hhot]; decide)
  rw [dramRefresh_due hf hd (last := false) (decide_eq_false (by omega)), ht]
  unfold refreshed refreshCmds
  rw [← h]
  dsimp only
  rw [if_neg Bool.false_ne_true, if_neg Bool.false_ne_true, if_neg Bool.false_ne_true, List.append_nil]
  rfl

theorem refreshTimed_onlyChanges (s : State) : OnlyChanges eccParts s (refreshTimed s) := by
  unfold refreshTimed
  split
  · exact setRefresh_onlyChanges true s
  · exact .refl _ s

theorem dramRefresh_hot (hf : (fittedBytes s.dram.config).isSome = true)
    (hd : ∀ t, s.dram.refreshAt = some t → t.toNat + (if s.dram.refFast then 3900 else 7800) ≤ s.pos.mono.toNat) (hzq : s.dram.sinceZq < 127)
    (hhot : s.dram.hotSeen = true) : ∃ t, execDramRefresh r0 r1 s = .next t ∧ OnlyChanges [.host, .pers, .out, .dram] s t ∧
      t.dram.refFast = true ∧ t.dram.hotSeen = false ∧ t.dram.sinceZq = s.dram.sinceZq + 1 := by
  have ht : refreshTimed s = setRefresh true s := if_pos hhot
  have h := refreshed_dram false s (setRefresh true s)
  rw [setRefresh_dram] at h
  refine ⟨refreshed false s (setRefresh true s), ?_, (setRefresh_onlyChanges true s).trans ((refreshed_onlyChanges false s _).mono (by decide)),
    (congrArg Dram.refFast h :), (congrArg Dram.hotSeen h :), (congrArg Dram.sinceZq h :)⟩
  rw [dramRefresh_due hf hd (last := false) (decide_eq_false (by omega)), ht]
  rfl

/-! ## The readout after a 128th refresh (R490) -/

/-- The DRAM controller without what a readout writes. -/
def Dram.sansReadout (d : Dram) : Dram := { d with tempRange := 0, coolNs := 0, hotSeen := false, refFast := false }

/-- The temperature that a readout gives, before tREFI follows it. -/
def rangeRead (r : Nat) (d : Dram) : Dram := { d with
  tempRange := min r 2
  coolNs := min (if decide (r ≥ 2) then 0 else d.coolNs + 128 * (if d.refFast then 3900 else 7800)) 1000000000
  hotSeen := decide (r ≥ 2) && !d.refFast }

theorem readout_some (r : Nat) (s : State) : readout (some r) s = setDram (rangeRead r) s ∨
    r < 2 ∧ readout (some r) s = setRefresh false (setDram (rangeRead r) s) := by
  dsimp -zeta only [readout]
  extract_lets d hot cool s1
  split
  next h =>
    simp only [hot, Bool.and_eq_true, Bool.not_eq_true', decide_eq_false_iff_not] at h
    exact .inr ⟨by omega, rfl⟩
  next => exact .inl rfl

theorem readout_steps (x : Option Nat) (s : State) : OnlyChanges eccParts s (readout x s) ∧ (readout x s).dram.sansReadout = s.dram.sansReadout ∧
    ∀ o ∈ s.out, o ∈ (readout x s).out := by
  cases x with
  | none => exact ⟨(setDram_onlyChanges _ s).mono (by decide), rfl, fun _ h => h⟩
  | some r =>
    have h1 : OnlyChanges eccParts s (setDram (rangeRead r) s) := (setDram_onlyChanges _ s).mono (by decide)
    rcases readout_some r s with h | ⟨-, h⟩
    · rw [h]
      exact ⟨h1, rfl, fun _ ho => ho⟩
    · rw [h]
      refine ⟨h1.trans (setRefresh_onlyChanges false _), ?_, fun o ho => event_keepsOut _ ho⟩
      rw [setRefresh_dram]
      rfl

theorem readout_range {r : Nat} (hr : r ≤ 2) (s : State) : (readout (some r) s).dram.tempRange = r ∧
    (r = 2 → (readout (some r) s).dram.refFast = s.dram.refFast ∧ (readout (some r) s).dram.hotSeen = !s.dram.refFast) := by
  have hmin : min r 2 = r := Nat.min_eq_left hr
  rcases readout_some r s with h | ⟨hlow, h⟩
  · rw [h]
    refine ⟨hmin, ?_⟩
    rintro rfl
    exact ⟨rfl, rfl⟩
  · rw [h, setRefresh_dram]
    exact ⟨hmin, fun he => absurd he (by omega)⟩

theorem hotter_le {x : Nat} (h : hotter r0 r1 = some x) : x ≤ 2 := by
  unfold hotter at h
  split at h
  all_goals injection h
  all_goals omega

theorem refreshed_out {r : Nat} (s1 : State) (hr : r ∈ ranksOf s1.dram.config) : .dram (.prechargeAll r) ∈ (refreshed true s s1).out ∧
    .dram (.refresh r) ∈ (refreshed true s s1).out ∧ .dram (.zqcs r) ∈ (refreshed true s s1).out := by
  have hcfg : (finishOpen s.pos.mono s1.dram).1.config = s1.dram.config := (congrArg Dram.config (finishOpen_sansService s.pos.mono s1.dram) :)
  have hput : ∀ c ∈ refreshCmds true (finishOpen s.pos.mono s1.dram).2 (ranksOf (finishOpen s.pos.mono s1.dram).1.config),
      .dram c ∈ (refreshed true s s1).out := fun c hc => List.mem_append_left _ (List.mem_reverse.mpr (List.mem_map_of_mem hc))
  rw [hcfg] at hput
  refine ⟨hput _ ?_, hput _ ?_, hput _ ?_⟩ <;> simp [refreshCmds, hr]

theorem dramRefresh_calibrates (hf : (fittedBytes s.dram.config).isSome = true)
    (hd : ∀ t, s.dram.refreshAt = some t → t.toNat + (if s.dram.refFast then 3900 else 7800) ≤ s.pos.mono.toNat) (hzq : 127 ≤ s.dram.sinceZq) :
    ∃ t, execDramRefresh r0 r1 s = .next t ∧ OnlyChanges [.host, .pers, .out, .dram] s t ∧ t.dram.sinceZq = 0 ∧
      t.dram.refreshes = satAdd s.dram.refreshes 1 ∧ t.dram.refreshAt = some s.pos.mono ∧
      t.dram.stallTo = s.pos.mono.toNat + (190 + if flag s.dram.config 1 then 550 else 350) ∧
      (∀ r ∈ ranksOf s.dram.config, .dram (.prechargeAll r) ∈ t.out ∧ .dram (.refresh r) ∈ t.out ∧ .dram (.zqcs r) ∈ t.out) ∧
      (hotter r0 r1 = none → t.dram.tempRange = 3) ∧
      (∀ x, hotter r0 r1 = some x → t.dram.tempRange = x ∧
        (x = 2 → s.dram.hotSeen = false → t.dram.refFast = s.dram.refFast ∧ t.dram.hotSeen = !s.dram.refFast)) := by
  have hsame : (refreshTimed s).dram.sansReadout = s.dram.sansReadout ∧ (s.dram.hotSeen = false → refreshTimed s = s) := by
    unfold refreshTimed
    split
    next h =>
      rw [setRefresh_dram]
      exact ⟨rfl, fun hh => absurd (hh.symm.trans h) Bool.false_ne_true⟩
    next => exact ⟨rfl, fun _ => rfl⟩
  have hparts := refreshTimed_onlyChanges s
  refine ⟨readout (hotter r0 r1) (refreshed true s (refreshTimed s)), dramRefresh_due hf hd (last := true) (decide_eq_true hzq), ?_⟩
  have hcfg : (refreshTimed s).dram.config = s.dram.config := (congrArg Dram.config hsame.1 :)
  have hcount : (refreshTimed s).dram.refreshes = s.dram.refreshes := (congrArg Dram.refreshes hsame.1 :)
  have hdone := refreshed_dram true s (refreshTimed s)
  have hout := fun r => refreshed_out (s := s) (r := r) (refreshTimed s)
  have hdoneParts := refreshed_onlyChanges true s (refreshTimed s)
  have hfast : s.dram.hotSeen = false → (refreshed true s (refreshTimed s)).dram.refFast = s.dram.refFast := fun hh => by
    rw [← congrArg (fun t : State => t.dram.refFast) (hsame.2 hh)]
    exact (congrArg Dram.refFast hdone :)
  generalize refreshed true s (refreshTimed s) = u at *
  obtain ⟨hp, hread, hkeeps⟩ := readout_steps (hotter r0 r1) u
  have hstall : u.dram.stallTo = s.pos.mono.toNat + (190 + if flag s.dram.config 1 then 550 else 350) := by
    refine (congrArg Dram.stallTo hdone :).trans ?_
    change s.pos.mono.toNat + stallNs (refreshTimed s).dram.config true = _
    rw [hcfg]
    unfold stallNs
    rw [if_pos rfl]
    omega
  refine ⟨(hparts.trans (hdoneParts.mono (by decide))).trans hp, (congrArg Dram.sinceZq hread :).trans (congrArg Dram.sinceZq hdone :),
    (congrArg Dram.refreshes hread :).trans ((congrArg Dram.refreshes hdone :).trans (congrArg (satAdd · 1) hcount)),
    (congrArg Dram.refreshAt hread :).trans (congrArg Dram.refreshAt hdone :), (congrArg Dram.stallTo hread :).trans hstall, fun r hr => ?_, fun hx => ?_,
    fun x hx => ?_⟩
  · obtain ⟨h1, h2, h3⟩ := hout r (hcfg.symm ▸ hr)
    exact ⟨hkeeps _ h1, hkeeps _ h2, hkeeps _ h3⟩
  · rw [hx]
    rfl
  · rw [hx]
    obtain ⟨hrange, htwo⟩ := readout_range (hotter_le hx) u
    refine ⟨hrange, fun h2 hh => ?_⟩
    rw [← hfast hh]
    exact htwo h2

/-! ## ECC_CORRECTED (R497) -/

theorem eccCorrected_idle (h : s.dram.corrSince = 0 ∨ ∃ t, s.dram.corrAt = some t ∧ s.pos.mono.toNat < t.toNat + 1000000000) :
    execEccCorrected s = .next s := by
  unfold execEccCorrected
  rcases h with h | ⟨t, ht, hlt⟩
  · exact congrArg _ (if_pos (.inl h))
  · rw [ht]
    exact congrArg _ (if_pos (.inr (decide_eq_true hlt)))

theorem eccCorrected_reports (hc : s.dram.corrSince ≠ 0) (h : ∀ t, s.dram.corrAt = some t → t.toNat + 1000000000 ≤ s.pos.mono.toNat) : execEccCorrected s =
    .next (event { ev := .eccCorrected, p0 := w32 s.dram.corrSince } { s with dram := { s.dram with corrSince := 0, corrAt := some s.pos.mono } }) := by
  unfold execEccCorrected
  refine congrArg _ (if_neg (not_or.mpr ⟨hc, ?_⟩))
  cases ht : s.dram.corrAt with
  | none => exact Bool.false_ne_true
  | some t => exact Bool.eq_false_iff.mp (decide_eq_false (Nat.not_lt.mpr (h t ht)))

/-! ## Training passes (R491 to R495) -/

/-- The DRAM controller once a pass has ended. -/
def passEnded (ok : Bool) (mg : BitVec 24) (cmp : Word) (d : Dram) : Dram :=
  admitted { d with training := none, trainStep := 0, trained := ok, margin := mg, trnCmp := cmp &&& 0xFFFF01FF }

theorem passFailed_none {mg : BitVec 24} (hr : 16 ≤ mg.toNat % 256) (hw : 16 ≤ mg.toNat / 256 % 256) : passFailed none mg = none := by
  unfold passFailed
  dsimp only
  rw [if_neg (by omega), if_neg (by omega)]

/-- The state once a pass has ended well. -/
def passGood (mg : BitVec 24) (cmp : Word) (s : State) : State := setDram (passEnded true mg cmp) s

/-- The state once a pass has failed. -/
def passBad (mg : BitVec 24) (cmp : Word) (s : State) : State := stickRec .trainFail (setDram (passEnded false mg cmp) s)

theorem trainingPassDone_good {mg : BitVec 24} {cmp : Word} {v b : Bool} {tag : Option Word} (ht : s.dram.training = some (tag, b))
    (hd : s.dram.discardPass = false) (hr : 16 ≤ mg.toNat % 256) (hw : 16 ≤ mg.toNat / 256 % 256) :
    (s.dram.ratePending = none → tag = none → execTrainingPassDone none mg cmp v s = .next (passGood mg cmp s)) ∧
    (∀ t, s.dram.ratePending = none → tag = some t → execTrainingPassDone none mg cmp v s =
      .next (complete 0x0E01 t 0 (w32 (mg.toNat % 256)) (w32 (mg.toNat / 256 % 256)) 0 (passGood mg cmp s))) ∧
    (∀ t r, s.dram.ratePending = some (t, r) → execTrainingPassDone none mg cmp v s =
      .next (complete 0x0E02 t 0 (w32 r) 0 0 (setDram (fun d => { d with ratePending := none }) (passGood mg cmp s)))) := by
  have hf : passFailed ((none : Option (Fin 8)).map fun n => (n : Nat)) mg = none := passFailed_none hr hw
  unfold execTrainingPassDone
  rw [ht]
  dsimp only
  rw [if_neg (by rw [hd]; decide), hf]
  refine ⟨fun hp htag => ?_, fun t hp htag => ?_, fun t r hp => ?_⟩
  · rw [hp, htag]
    rfl
  · rw [hp, htag]
    rfl
  · rw [hp]
    rfl

theorem passEnded_sansReqs (ok : Bool) (mg : BitVec 24) (cmp : Word) (d : Dram) : (passEnded ok mg cmp d).sansReqs =
    { d.sansReqs with training := none, trainStep := 0, trained := ok, margin := mg, trnCmp := cmp &&& 0xFFFF01FF } := admitted_sansReqs _

theorem passBad_dram (mg : BitVec 24) (cmp : Word) (s : State) : (passBad mg cmp s).dram.sansReqs =
    { s.dram.sansReqs with training := none, trainStep := 0, trained := false, margin := mg, trnCmp := cmp &&& 0xFFFF01FF } :=
  passEnded_sansReqs false mg cmp s.dram

theorem passBad_keeps (mg : BitVec 24) (cmp : Word) (s : State) : s.Keeps (passBad mg cmp s) :=
  (State.Keeps.of_eq (t := setDram (passEnded false mg cmp) s) rfl rfl).trans (stickRec_keeps _ _ _)

/-- A pass in BOOT that fails leads to SAFE (R493). -/
theorem dramFailed_boot (h : s.host.opState = .boot) : (dramFailed s).dram.fail = true ∧ (dramFailed s).dram.trained = false ∧
    (dramFailed s).host.opState = .safe ∧ (dramFailed s).host.mbxReady = true := by
  unfold dramFailed
  extract_lets _ _ s1
  rw [if_pos h]
  have hd := setOpState_onlyChanges .safe false s1 .dram (by decide)
  have hs1 : s1.host.mbxReady = true := (congrArg HostIf.mbxReady (stickRec_keeps _ _ _).host :)
  obtain ⟨q, hq⟩ := setOpState_host .safe false s1
  exact ⟨(congrArg Dram.fail hd).symm, (congrArg Dram.trained hd).symm, setOpState_opState .safe false s1,
    ((congrArg HostIf.mbxReady hq :) : _ = s1.host.mbxReady).trans hs1⟩

theorem bootPass_fails {n : Fin 8} {mg : BitVec 24} {cmp : Word} {v b : Bool} (ht : s.dram.training = some (none, b)) (hd : s.dram.discardPass = false)
    (hp : s.dram.ratePending = none) (hz : s.dram.zeroed = false) (hb : s.host.opState = .boot) : ∃ t, execTrainingPassDone (some n) mg cmp v s = .next t ∧
      t.dram.fail = true ∧ t.dram.trained = false ∧ t.host.opState = .safe ∧ t.host.mbxReady = true := by
  have hb' : (passBad mg cmp s).host.opState = .boot := (congrArg HostIf.opState (passBad_keeps mg cmp s).host :).trans hb
  refine ⟨dramFailed (passBad mg cmp s), ?_, dramFailed_boot hb'⟩
  unfold execTrainingPassDone
  rw [ht]
  dsimp only
  rw [if_neg (by rw [hd]; decide), hp]
  exact congrArg Host.Outcome.next (if_neg (by rw [hz]; decide))

/-- A rate change that fails, the old rate's values being good: the old rate again (R494). -/
def rateRestored (s : State) : State :=
  stickRec .rateChangeFail (setDram (fun d => { d with rate := d.oldRate, trained := true }) (setDram (fun d => { d with ratePending := none }) s))

theorem rateChange_fails {n : Fin 8} {mg : BitVec 24} {cmp : Word} {b : Bool} {tag : Option Word} {t0 : Word} {r : Nat}
    (ht : s.dram.training = some (tag, b)) (hd : s.dram.discardPass = false) (hp : s.dram.ratePending = some (t0, r)) :
    ∃ t, execTrainingPassDone (some n) mg cmp true s = .next t ∧
      t.dram.rate = s.dram.oldRate ∧ t.dram.trained = true ∧ t.dram.ratePending = none ∧ t.host.opState = s.host.opState := by
  have hbad := passBad_dram mg cmp s
  have hk := passBad_keeps mg cmp s
  refine ⟨complete 0x0E02 t0 0x30 0 0 0 (rateRestored (passBad mg cmp s)), ?_, ?_⟩
  · unfold execTrainingPassDone
    rw [ht]
    dsimp only
    rw [if_neg (by rw [hd]; decide), hp]
    rfl
  · generalize passBad mg cmp s = w at *
    have hw : w.Keeps (rateRestored w) :=
      (State.Keeps.of_eq (t := setDram (fun d => { d with rate := d.oldRate, trained := true }) (setDram (fun d => { d with ratePending := none }) w))
        rfl rfl).trans (stickRec_keeps _ _ _)
    have hc := complete_onlyChanges 0x0E02 t0 0x30 0 0 0 (rateRestored w) .dram (by decide)
    have hop := (hk.trans hw).trans (complete_keeps (rateRestored w) 0x0E02 t0 0x30 0 0 0)
    rw [← hc]
    exact ⟨(congrArg Dram.oldRate hbad :), rfl, rfl, (congrArg HostIf.opState hop.host :)⟩

/-! ## The zero fill (R482, R493) -/

theorem zeroFillDone_idle {b : Bool} (h : s.dram.trained = false ∨ s.dram.zeroed = true ∨ s.dram.training.isSome = true ∨ s.dram.fail = true) :
    execZeroFillDone b s = .next s := by
  refine congrArg _ (if_pos (h.imp_left fun ht => ?_))
  rw [ht]
  rfl

theorem zeroFillDone_ends {b : Bool} (ht : s.dram.trained = true) (hz : s.dram.zeroed = false) (hn : s.dram.training = none) (hf : s.dram.fail = false) :
    execZeroFillDone b s = .next (if !b then dramFailed s else
      { setDram (fun d => admitted { d with zeroed := true }) s with
        pg := { s.pg with capacity := (fittedBytes s.dram.config).getD 0 - 512 * 2 ^ 20 } }) :=
  congrArg Host.Outcome.next (if_neg (by rw [ht, hz, hn, hf]; decide))

end

/-- Settles O57: what the bursts of a refresh and the end of a pass leave of the DRAM controller is read off frames of its parts. -/
theorem dramUpkeep : Obligations.DramUpkeep := by
  unfold Obligations.DramUpkeep
  refine ⟨fun r0 r1 s h => dramRefresh_idle h, ?refresh, fun x y => ⟨rfl, rfl, rfl, rfl⟩, fun s h => eccCorrected_idle h,
    fun s hc h => eccCorrected_reports hc h, ?untrained, ?good, ?boot, ?rate, fun b s h => zeroFillDone_idle h, ?fill⟩
  case refresh =>
    intro r0 r1 s hf hd
    exact ⟨fun hz hh d cs h => dramRefresh_plain hf hd hz hh h, fun hz hh => dramRefresh_hot hf hd hz hh, fun hz => dramRefresh_calibrates hf hd hz⟩
  case untrained =>
    intro f mg cmp v s h
    change execTrainingPassDone f mg cmp v s = .next s
    unfold execTrainingPassDone
    rw [h]
  case good =>
    intro mg cmp v tag b s u ht hd hr hw hu
    subst hu
    exact trainingPassDone_good ht hd hr hw
  case boot => exact fun n mg cmp v b s ht hd hp hz hb => bootPass_fails ht hd hp hz hb
  case rate => exact fun n mg cmp b tag t0 r s ht hd hp => rateChange_fails ht hd hp
  case fill =>
    intro s u ht hz hn hf hu
    subst hu
    exact ⟨zeroFillDone_ends ht hz hn hf, zeroFillDone_ends ht hz hn hf⟩

end Sys2Proof.Machine
end

section
/-!
PROOFS. DRAM requests: presented, served in order, returned, promoted, reported (R480, R481, R483 to R486, R488).
-/
namespace Sys2Proof.Machine

/-! ## What is presented and admitted (R479, R483, R485) -/

/-- A request without its entry. -/
def MemReq.unplaced (r : MemReq) : MemReq := { r with place := .outside }

theorem admitOne_unplaced (d : Dram) (id : Nat) : (admitOne d id).reqs.map MemReq.unplaced = d.reqs.map MemReq.unplaced := by
  unfold admitOne
  rw [List.map_map]
  refine List.map_congr_left fun r _ => ?_
  dsimp only [Function.comp]
  split <;> rfl

theorem admitAll_unplaced (ids : List Nat) (d : Dram) : (ids.foldl admitOne d).reqs.map MemReq.unplaced = d.reqs.map MemReq.unplaced :=
  List.foldlRecOn (motive := fun e : Dram => e.reqs.map MemReq.unplaced = d.reqs.map MemReq.unplaced) ids admitOne rfl
    fun e he i _ => (admitOne_unplaced e i).trans he

theorem admitted_unplaced (d : Dram) : (admitted d).reqs.map MemReq.unplaced = d.reqs.map MemReq.unplaced := admitAll_unplaced _ d

/-- Admission leaves what a request is apart from its entry. -/
theorem admitted_map {α : Type} {g : MemReq → α} (hg : ∀ r, g r.unplaced = g r) (d : Dram) : (admitted d).reqs.map g = d.reqs.map g := by
  have h := congrArg (List.map g) (admitted_unplaced d)
  simpa only [List.map_map, Function.comp_def, hg] using h

theorem admitted_length (d : Dram) : (admitted d).reqs.length = d.reqs.length := by
  simpa only [List.length_map] using congrArg List.length (admitted_unplaced d)

theorem admitAll_nextReq (ids : List Nat) (d : Dram) : (ids.foldl admitOne d).nextReq = d.nextReq :=
  List.foldlRecOn (motive := fun e : Dram => e.nextReq = d.nextReq) ids admitOne rfl fun _ he _ _ => he

theorem presentOne_counts (mono : Dword) (d : Dram) (k : MemAsk × Bool) :
    (presentOne mono d k).nextReq = d.nextReq + 1 ∧ (presentOne mono d k).reqs.length = d.reqs.length + 1 := by
  unfold presentOne
  split
  · exact ⟨rfl, List.length_append⟩
  · exact ⟨rfl, List.length_append⟩

theorem presentAll_counts (mono : Dword) (ks : List (MemAsk × Bool)) (d : Dram) :
    (ks.foldl (presentOne mono) d).nextReq = d.nextReq + ks.length ∧ (ks.foldl (presentOne mono) d).reqs.length = d.reqs.length + ks.length := by
  induction ks generalizing d with
  | nil => exact ⟨rfl, rfl⟩
  | cons k ks ih =>
    obtain ⟨hn, hl⟩ := ih (presentOne mono d k)
    obtain ⟨hn1, hl1⟩ := presentOne_counts mono d k
    rw [List.foldl_cons, hn, hl, hn1, hl1, List.length_cons]
    omega

theorem present_counts (asks : List MemAsk) (s : State) : (present asks s).dram.nextReq = s.dram.nextReq + asks.length ∧
    s.dram.reqs.length + asks.length = (present asks s).dram.reqs.length := by
  obtain ⟨hn, hl⟩ := presentAll_counts s.pos.mono (asks.map fun k => (k, tileLoad s k)) s.dram
  rw [List.length_map] at hn hl
  exact ⟨(admitAll_nextReq _ _).trans hn, hl.symm.trans (admitted_length _).symm⟩

section
variable {d : Dram} {k : MemAsk}

theorem askable_eq (h : k.requester.val ≠ 8) : askable d k =
    (decide (256 * k.chunk.toNat < (fittedBytes d.config).getD 0) && inTraining d.config k.chunk.toNat == decide ((k.requester : Nat) = 9)) := if_neg h

theorem askable_claim (h : k.requester.val ≠ 8) : ((fittedBytes d.config).getD 0 ≤ 256 * k.chunk.toNat → askable d k = false) ∧
    (k.requester.val ≠ 9 → inTraining d.config k.chunk.toNat = true → askable d k = false) ∧
    (k.requester.val ≠ 9 → inTraining d.config k.chunk.toNat = false → 256 * k.chunk.toNat < (fittedBytes d.config).getD 0 → askable d k = true) := by
  rw [askable_eq h]
  refine ⟨fun hb => ?_, fun h9 ht => ?_, fun h9 ht hb => ?_⟩
  · rw [decide_eq_false (Nat.not_lt.mpr hb), Bool.false_and]
  · rw [decide_eq_false h9, ht]
    exact Bool.and_false _
  · rw [decide_eq_false h9, ht, decide_eq_true hb]
    rfl

end

/-! ## Entries and their limits (R485) -/

theorem countIf_eq_countP {α : Type} (l : List α) (p : α → Bool) : countIf l p = l.countP p := List.countP_eq_length_filter.symm

/-- A change of the one request of an identifier adds at most one to a count. -/
theorem countIf_mapOne_le {l : List MemReq} {i : Nat} {f : MemReq → MemReq} (p : MemReq → Bool) (hn : (l.map (·.id)).Nodup)
    (hf : ∀ r, r.id ≠ i → f r = r) : countIf (l.map f) p ≤ countIf l p + 1 := by
  rw [countIf_eq_countP, countIf_eq_countP]
  induction l with
  | nil => exact Nat.zero_le _
  | cons r rs ih =>
    obtain ⟨hr, hrs⟩ := List.nodup_cons.mp hn
    rw [List.map_cons, List.countP_cons, List.countP_cons]
    by_cases hi : r.id = i
    · have hrest : rs.map f = rs := by
        refine (List.map_congr_left fun q hq => hf q fun he => hr ?_).trans (List.map_id' rs)
        change r.id ∈ rs.map (·.id)
        rw [hi, ← he]
        exact List.mem_map_of_mem (f := (·.id)) hq
      rw [hrest]
      split <;> split <;> omega
    · rw [hf r hi]
      have h := ih hrs
      omega

/-- A place whose entries are limited is given only below its limit. -/
theorem admitOne_limit {d : Dram} {i cap : Nat} {pl : MemPlace} (hn : (d.reqs.map (·.id)).Nodup)
    (hfree : ∀ r, freePlace d r = pl → countIf d.reqs (fun q => q.place == pl) < cap) (hcap : countIf d.reqs (fun q => q.place == pl) ≤ cap) :
    countIf (admitOne d i).reqs (fun q => q.place == pl) ≤ cap := by
  by_cases h : ∃ r, freePlace d r = pl
  · obtain ⟨r, hr⟩ := h
    refine (countIf_mapOne_le (i := i) _ hn fun q hq => if_neg ?_).trans (hfree r hr)
    rw [beq_eq_false_iff_ne.mpr hq]
    exact Bool.false_ne_true
  · refine Nat.le_trans ?_ hcap
    rw [countIf_eq_countP, countIf_eq_countP]
    unfold admitOne
    rw [List.countP_map]
    refine List.countP_mono_left fun r _ hp => ?_
    dsimp only [Function.comp] at hp
    split at hp
    · exact absurd ⟨r, beq_iff_eq.mp hp⟩ h
    · exact hp

theorem freePlace_reserved {d : Dram} {r : MemReq} (h : freePlace d r = .reserved) :
    r.rt = true ∧ countIf d.reqs (fun q => q.place == .reserved) < 32 := by
  unfold freePlace at h
  split at h
  next hc => exact (Bool.and_eq_true_iff.mp hc).imp_right of_decide_eq_true
  next => split at h <;> cases h

theorem freePlace_shared {d : Dram} {r : MemReq} (h : freePlace d r = .shared) : countIf d.reqs (fun q => q.place == .shared) < 96 := by
  unfold freePlace at h
  split at h
  next => cases h
  next =>
    split at h
    next hc => exact hc
    next => cases h

theorem admitOne_ids (d : Dram) (i : Nat) : (admitOne d i).reqs.map (·.id) = d.reqs.map (·.id) := by
  have h := congrArg (List.map (·.id)) (admitOne_unplaced d i)
  simpa only [List.map_map, Function.comp_def, MemReq.unplaced] using h

/-- The entries stay within their limits. -/
def WithinLimits (d : Dram) : Prop := (d.reqs.map (·.id)).Nodup ∧ countIf d.reqs (fun q => q.place == .reserved) ≤ 32 ∧
  countIf d.reqs (fun q => q.place == .shared) ≤ 96

theorem admitOne_withinLimits {d : Dram} (i : Nat) (h : WithinLimits d) : WithinLimits (admitOne d i) := by
  obtain ⟨hn, hr, hs⟩ := h
  exact ⟨(admitOne_ids d i).symm ▸ hn, admitOne_limit hn (fun _ h => (freePlace_reserved h).2) hr, admitOne_limit hn (fun _ h => freePlace_shared h) hs⟩

theorem admitted_limits {d : Dram} (h : WithinLimits d) : countIf (admitted d).reqs (fun q => q.place == .reserved) ≤ 32 ∧
    countIf (admitted d).reqs (fun q => q.place == .shared) ≤ 96 :=
  (List.foldlRecOn (motive := WithinLimits) _ admitOne h fun _ he i _ => admitOne_withinLimits i he).2

/-! ## The command slots (R486, R487) -/

theorem runSlots_onlyChanges (slots : List (List Nat)) (s : State) : OnlyChanges [.dram, .out] s (runSlots slots s) := by
  unfold runSlots
  split
  · exact .refl _ s
  · exact ((onlyChanges_dram s _).mono (by decide)).trans ((emits_onlyChanges _ _).mono (by decide))

/-- The place of a request in the order of service. -/
def servePlace (d : Dram) (r : MemReq) : Nat := 3 * r.cls + writeRank d r

theorem servePlace_lt (d : Dram) (r : MemReq) : servePlace d r < 9 := by
  have hc : r.cls ≤ 2 := by
    unfold MemReq.cls
    split
    · decide
    · split <;> decide
  have hw : writeRank d r ≤ 2 := by
    unfold writeRank
    split
    · decide
    · split <;> decide
  unfold servePlace
  omega

/-- The requests that may be given their next command at a slot. -/
def canIssue (d : Dram) (busy : List Nat) : List MemReq := d.reqs.filter fun r => mayIssue d r && !busy.contains r.id

theorem mem_canIssue {d : Dram} {busy : List Nat} {r : MemReq} : r ∈ canIssue d busy ↔ r ∈ d.reqs ∧ mayIssue d r = true ∧ r.id ∉ busy := by
  unfold canIssue
  rw [List.mem_filter, Bool.and_eq_true, Bool.not_eq_true', List.contains_eq_mem, decide_eq_false_iff_not]

theorem pickReq_eq (d : Dram) (busy : List Nat) :
    pickReq d busy = (List.range 9).findSome? fun p => (canIssue d busy).find? fun r => servePlace d r == p := rfl

theorem pickReq_picks {d : Dram} {busy : List Nat} {r : MemReq} (h : pickReq d busy = some r) : r ∈ d.reqs ∧ mayIssue d r = true ∧ r.id ∉ busy ∧
    ∀ q ∈ d.reqs, mayIssue d q = true → q.id ∉ busy → servePlace d r ≤ servePlace d q := by
  rw [pickReq_eq] at h
  obtain ⟨before, p, after, hrange, hfind, hnone⟩ := List.findSome?_eq_some_iff.mp h
  obtain ⟨hr, hmay, hbusy⟩ := mem_canIssue.mp (List.mem_of_find?_eq_some hfind)
  have hp : servePlace d r = p := beq_iff_eq.mp (List.find?_some (p := fun r => servePlace d r == p) hfind)
  refine ⟨hr, hmay, hbusy, fun q hq hqmay hqbusy => ?_⟩
  have hsorted : (before ++ p :: after).Pairwise (· < ·) := hrange ▸ List.pairwise_lt_range
  have hmem : servePlace d q ∈ before ++ p :: after := hrange ▸ List.mem_range.mpr (servePlace_lt d q)
  rw [hp]
  rcases List.mem_append.mp hmem with hb | hb
  · have hmiss := List.find?_eq_none.mp (hnone _ hb) q (mem_canIssue.mpr ⟨hq, hqmay, hqbusy⟩)
    exact absurd (beq_self_eq_true _) hmiss
  · rcases List.mem_cons.mp hb with he | ha
    · exact he.symm.le
    · exact (List.rel_of_pairwise_cons (List.pairwise_append.mp hsorted).2.1 ha).le

theorem pickReq_none {d : Dram} {busy : List Nat} (h : pickReq d busy = none) {q : MemReq} (hq : q ∈ d.reqs) : mayIssue d q = false ∨ q.id ∈ busy := by
  rw [pickReq_eq] at h
  have hmiss := List.find?_eq_none.mp (List.findSome?_eq_none_iff.mp h _ (List.mem_range.mpr (servePlace_lt d q))) q
  by_contra hno
  obtain ⟨hmay, hbusy⟩ := not_or.mp hno
  exact hmiss (mem_canIssue.mpr ⟨hq, Bool.eq_true_of_not_eq_false hmay, hbusy⟩) (beq_self_eq_true _)

/-- What holds a request back among the others (R481, R486). -/
theorem mayIssue_held {d : Dram} {q r : MemReq} (hq : q ∈ d.reqs) (hne : q.id ≠ r.id) (h : (q.holds d = true ∧ q.sameUnit r = true) ∨
    (q.write = true ∧ q.requester = r.requester ∧ q.id < r.id ∧ q.overlaps r = true)) : mayIssue d r = false := by
  have hany : (d.reqs.any fun q => q.id != r.id &&
      ((q.opened && bankOf d.config q.chunk == bankOf d.config r.chunk) || (q.holds d && q.sameUnit r) ||
        (q.write && q.requester == r.requester && decide (q.id < r.id) && q.overlaps r))) = true := by
    refine List.any_eq_true.mpr ⟨q, hq, ?_⟩
    rw [bne_iff_ne.mpr hne, Bool.true_and]
    rcases h with ⟨hh, hs⟩ | ⟨hw, hreq, hlt, ho⟩
    · rw [hh, hs, Bool.true_and, Bool.or_true, Bool.true_or]
    · rw [hw, hreq, beq_self_eq_true, decide_eq_true hlt, ho, Bool.true_and, Bool.true_and, Bool.true_and, Bool.or_true]
  unfold mayIssue
  rw [hany, Bool.not_true, Bool.and_false]

/-! ## Reads that return (R480, R488) -/

theorem mem_wordErrors (one two : List (Fin 32)) (x : Fin 32) (b : Bool) : (x, b) ∈ wordErrors one two ↔ if b then x ∈ two else x ∈ one ∧ x ∉ two := by
  unfold wordErrors
  cases b <;> simp [List.mem_eraseDups]

/-- The controller's state once the data of a read has come back. -/
def readBack (mono : Dword) (r : MemReq) (d : Dram) : Dram := { d with
  returning := d.returning.filter fun id => id != r.id
  rtLatMax := if r.rt then w32 (max d.rtLatMax.toNat (min (mono.toNat - r.born.toNat) 0xFFFFFFFF)) else d.rtLatMax }

theorem returnRead_clean (r : MemReq) (s : State) : returnRead r [] s =
    setDram (fun d => if r.write then setReq r.id (fun q => { q with readDone := true }) (readBack s.pos.mono r d)
      else endReq s.pos.mono r (readBack s.pos.mono r d)) s := by
  unfold returnRead readBack
  cases r.write <;> rfl

theorem admitted_returning (d : Dram) : (admitted d).returning = d.returning := (congrArg Dram.returning (admitted_sansReqs d) :)

theorem endReq_ids (mono : Dword) (r : MemReq) (d : Dram) : ∀ q ∈ (endReq mono r d).reqs, q.id ≠ r.id := by
  intro q hq he
  have hids := admitted_map (g := (·.id)) (fun _ => rfl) { d with
    reqs := d.reqs.filter fun q => q.id != r.id
    served := (d.served.filter fun x => decide (mono.toNat < x.1.toNat + 1000000)) ++ [(mono, 64 * r.units.length, r.rt)] }
  have hmem : q.id ∈ (endReq mono r d).reqs.map (·.id) := List.mem_map_of_mem hq
  rw [show (endReq mono r d).reqs.map (·.id) = (d.reqs.filter fun q => q.id != r.id).map (·.id) from hids] at hmem
  obtain ⟨p, hp, hpq⟩ := List.mem_map.mp hmem
  exact bne_iff_ne.mp (List.mem_filter.mp hp).2 (hpq.trans he)

theorem returnRead_claim (r : MemReq) (s : State) : OnlyChanges [.dram] s (returnRead r [] s) ∧ r.id ∉ (returnRead r [] s).dram.returning ∧
    (r.write = false → ∀ q ∈ (returnRead r [] s).dram.reqs, q.id ≠ r.id) ∧
    (r.write = true → ∀ q ∈ (returnRead r [] s).dram.reqs, q.id = r.id → q.readDone = true) := by
  have hgone : r.id ∉ (readBack s.pos.mono r s.dram).returning := fun h => bne_iff_ne.mp (List.mem_filter.mp h).2 rfl
  rw [returnRead_clean]
  refine ⟨setDram_onlyChanges _ s, ?_, fun hw => ?_, fun hw => ?_⟩
  · unfold setDram
    dsimp only
    split
    · exact hgone
    · exact (admitted_returning _).symm ▸ hgone
  · unfold setDram
    dsimp only
    rw [if_neg (by rw [hw]; exact Bool.false_ne_true)]
    exact endReq_ids _ _ _
  · unfold setDram
    dsimp only
    rw [if_pos hw]
    intro q hq he
    obtain ⟨p, -, rfl⟩ := List.mem_map.mp hq
    split
    next => rfl
    next hne =>
      rw [if_neg hne] at he
      exact absurd (beq_iff_eq.mpr he) hne

/-- An uncorrectable word gives its address and poisons its reader (R480). -/
theorem returnRead_lost {r : MemReq} {w : Fin 32} {s u : State} (hw : (32 * r.chunk + w) / 8 ∈ r.units)
    (hu : u = setDram (fun d => endReq s.pos.mono r { d with
      returning := d.returning.filter fun id => id != r.id
      rtLatMax := if r.rt then w32 (max d.rtLatMax.toNat (min (s.pos.mono.toNat - r.born.toNat) 0xFFFFFFFF)) else d.rtLatMax }) s) :
    returnRead r [(w, true)] s = poisoned r.requester r.what [(32 * r.chunk + w) / 8] (eccUncorrectable r.requester (w32 ((32 * r.chunk + w) / 8)) u) := by
  have hc : r.units.contains ((32 * r.chunk + w) / 8) = true := List.contains_iff_mem.mpr hw
  have hl : ((([(w, true)] : List (Fin 32 × Bool)).filter (·.2)).map fun e => (32 * r.chunk + e.1) / 8).filter r.units.contains =
      [(32 * r.chunk + w) / 8] := List.filter_cons_of_pos hc
  have he : ∀ t : State, wordError r t (w, true) = eccUncorrectable r.requester (w32 ((32 * r.chunk + w) / 8)) t := fun t =>
    (if_neg (by rw [hc]; decide)).trans (if_pos rfl)
  subst hu
  unfold returnRead
  rw [hl]
  dsimp only [List.foldl_cons, List.foldl_nil]
  have hbad : (!([(32 * r.chunk + w) / 8] : List Nat).isEmpty) = true := rfl
  rw [he, if_pos hbad]
  have hkeep : (r.write && !!([(32 * r.chunk + w) / 8] : List Nat).isEmpty) = false := Bool.and_false _
  simp only [hkeep]
  rfl

theorem oncePerPage_onlyChanges (b : Nat) (k : Sticky) (e : Event) (page : Option Page) (s : State) :
    OnlyChanges [.host, .pers, .out, .pg] s (oncePerPage b k e page s) := by
  unfold oncePerPage
  split
  · exact (stickRec_onlyChanges k 0 s).mono (by decide)
  · split
    · exact (stick_onlyChanges k s).mono (by decide)
    · exact ((setPage_onlyChanges _ _ s).mono (by decide)).trans ((stickEvent_onlyChanges k e _).mono (by decide))

theorem rtUnderrun_onlyChanges (q : Nat) (s : State) : OnlyChanges [.host, .pers, .out, .pg, .dram] s (rtUnderrun q s) :=
  ((setDram_onlyChanges _ s).mono (by decide)).trans ((oncePerPage_onlyChanges 4 .rtUnderrun _ _ _).mono (by decide))

theorem rtUnderrun_counts (q : Nat) (s : State) : (rtUnderrun q s).dram.rtUnderruns = satAdd s.dram.rtUnderruns 1 :=
  (congrArg Dram.rtUnderruns (oncePerPage_onlyChanges 4 .rtUnderrun { ev := .rtUnderrun, p0 := w32 q } (pageAt s.pos.absHigh s)
    (setDram (fun d => { d with rtUnderruns := satAdd d.rtUnderruns 1 }) s) .dram (by decide))).symm

theorem emptied_claim (e0 e1 e2 : Bool) (s : State) : OnlyChanges [.host, .pers, .out, .pg, .dram] s (emptied e0 e1 e2 s) ∧
    (e0 = false → e1 = false → e2 = false → emptied e0 e1 e2 s = s) ∧ (e0 = true → e1 = false → e2 = false → emptied e0 e1 e2 s = rtUnderrun 0 s) := by
  refine ⟨.foldl _ _ s fun t x => rtUnderrun_onlyChanges x.1 t, ?_, ?_⟩
  · rintro rfl rfl rfl
    rfl
  · rintro rfl rfl rfl
    rfl

theorem eccCorrected_counts (w : Nat) (s : State) : (eccCorrected w s).dram.eccCorr = satAdd s.dram.eccCorr 1 ∧
    (eccCorrected w s).dram.reqs.length = s.dram.reqs.length + 1 :=
  ⟨(congrArg Dram.eccCorr (eccCorrected_dram w s) :), (present_counts _ _).2.symm⟩

/-! ## The rows (R484, R488) -/

section
variable {rt asks : List MemAsk} {slots : List (List Nat)} {one two : List (Fin 32)} {e0 e1 e2 : Bool} {s : State}

theorem readReturn_down (h : s.dram.fail = true ∨ flag s.dram.config 31 = false) : execDramReadReturn rt asks slots one two e0 e1 e2 s = .next s := by
  refine congrArg _ (if_pos (h.imp_right fun hf => ?_))
  rw [hf]
  exact Bool.false_ne_true

theorem readReturn_up {v : State} (hf : s.dram.fail = false) (hc : flag s.dram.config 31 = true)
    (hv : v = emptied e0 e1 e2 (runSlots slots (asked (rt ++ asks) s))) :
    (v.dram.returning = [] → execDramReadReturn rt asks slots one two e0 e1 e2 s = .next v) ∧
    (∀ id rest r, v.dram.returning = id :: rest → v.dram.reqs.find? (·.id == id) = some r →
      execDramReadReturn rt asks slots one two e0 e1 e2 s = .next (returnRead r (wordErrors one two) v)) := by
  unfold execDramReadReturn
  rw [if_neg (by rw [hf, hc]; decide), ← hv]
  dsimp only
  refine ⟨fun hnil => ?_, fun id rest r hcons hfind => ?_⟩
  · rw [hnil]
    rfl
  · rw [hcons]
    dsimp only [List.head?_cons, Option.bind_some]
    rw [hfind]

theorem bulkPromote_claim {u : State} (hu : u = asked (rt ++ asks) s) :
    ((∀ r ∈ u.dram.reqs, r.ages = false ∨ r.urgent = true ∨ s.pos.mono.toNat < r.born.toNat + r.age) → execBulkPromote rt asks s = .next u) ∧
    (∀ r, u.dram.reqs.find? (fun r => r.ages && !r.urgent && decide (r.born.toNat + r.age ≤ s.pos.mono.toNat)) = some r →
      execBulkPromote rt asks s = .next (setDram (fun d => admitted (setReq r.id (fun q => { q with urgent := true })
        { d with promotions := satAdd d.promotions 1 })) u)) := by
  have hpos : u.pos = s.pos := by rw [hu]; rfl
  unfold execBulkPromote
  dsimp only
  rw [← hu, hpos]
  refine ⟨fun hnone => ?_, fun r hr => ?_⟩
  · have hf : u.dram.reqs.find? (fun r => r.ages && !r.urgent && decide (r.born.toNat + r.age ≤ s.pos.mono.toNat)) = none := by
      refine List.find?_eq_none.mpr fun r hr hc => ?_
      simp only [Bool.and_eq_true, Bool.not_eq_true', decide_eq_true_eq] at hc
      obtain ⟨⟨hages, hurgent⟩, hdue⟩ := hc
      rcases hnone r hr with h | h | h
      · exact Bool.false_ne_true (h.symm.trans hages)
      · exact Bool.false_ne_true (hurgent.symm.trans h)
      · omega
    rw [hf]
  · rw [hr]

theorem starved_claim {u : State} (hu : u = asked asks s) :
    ((∀ r ∈ u.dram.reqs, r.urgent = false ∨ r.starved = true ∨ s.pos.mono.toNat < r.born.toNat + 5 * r.age) → execStarved asks s = .next u) ∧
    (∀ r, u.dram.reqs.find? (fun r => r.urgent && !r.starved && decide (r.born.toNat + 5 * r.age ≤ s.pos.mono.toNat)) = some r →
      execStarved asks s = .next (stickEvent .starved { ev := .starved, p0 := w32 r.requester } (setDram (setReq r.id (fun q => { q with starved := true })) u))) := by
  have hpos : u.pos = s.pos := by rw [hu]; rfl
  unfold execStarved
  dsimp only
  rw [← hu, hpos]
  refine ⟨fun hnone => ?_, fun r hr => ?_⟩
  · have hf : u.dram.reqs.find? (fun r => r.urgent && !r.starved && decide (r.born.toNat + 5 * r.age ≤ s.pos.mono.toNat)) = none := by
      refine List.find?_eq_none.mpr fun r hr hc => ?_
      simp only [Bool.and_eq_true, Bool.not_eq_true', decide_eq_true_eq] at hc
      obtain ⟨⟨hurgent, hstarved⟩, hdue⟩ := hc
      rcases hnone r hr with h | h | h
      · exact Bool.false_ne_true (h.symm.trans hurgent)
      · exact Bool.false_ne_true (hstarved.symm.trans h)
      · omega
    rw [hf]
  · rw [hr]

end

/-- Settles O56: every slot takes the least place of the order of service, and admission gives a place only below its limit. -/
theorem dramRequests : Obligations.DramRequests := by
  unfold Obligations.DramRequests
  refine ⟨fun rt asks slots one two e0 e1 e2 s h => readReturn_down h, ?up, mem_wordErrors, emptied_claim, fun asks s => rfl, fun d k h => askable_claim h,
    fun slots s h => if_pos h, ?present, returnRead_claim, fun r w s u hw hu => returnRead_lost hw hu, ?uncorrectable, eccCorrected_counts,
    fun q s => rtUnderrun_counts q s, fun d busy r h => pickReq_picks h, fun d busy h q hq => pickReq_none h hq, fun d q r hq hne h => mayIssue_held hq hne h,
    fun d r => ⟨freePlace_reserved, freePlace_shared⟩, fun d hn hr hs => admitted_limits ⟨hn, hr, hs⟩, fun rt asks s u hu => bulkPromote_claim hu,
    fun asks s u hu => starved_claim hu⟩
  case up => exact fun rt asks slots one two e0 e1 e2 s v hf hc hv => readReturn_up hf hc hv
  case present =>
    intro asks slots s
    exact ⟨((present_onlyChanges asks s).mono (by decide)).trans (runSlots_onlyChanges slots _), present_counts asks s⟩
  case uncorrectable => exact fun q a s => ⟨rfl, rfl, eccUncorrectable_onlyChanges q a s⟩

end Sys2Proof.Machine
end

section
/-!
PROOFS. Roles, claims and the twin commands (R411, R412, R415, R422, R427 to R429, R432, R436, R439, R441, R443 to R447).
-/
namespace Sys2Proof.Machine

/-! ## What a change of role leaves of the twin's state (R411, R412, R439) -/

/-- From `s` to `t` a join may end, and the unit may cease to be synchronised. -/
def JoinLost (s t : State) : Prop :=
  ∃ j f b, t.twin = { s.twin with joining := j, fSync := f, synced := b } ∧ (b = true → s.twin.synced = true)

namespace JoinLost
variable {s t u : State}

theorem of_twin (h : t.twin = s.twin) : JoinLost s t := ⟨s.twin.joining, s.twin.fSync, s.twin.synced, h, id⟩

theorem refl (s : State) : JoinLost s s := of_twin rfl

theorem trans (h : JoinLost s t) (k : JoinLost t u) : JoinLost s u := by
  obtain ⟨j, f, b, e, hb⟩ := h
  obtain ⟨j', f', b', e', hb'⟩ := k
  refine ⟨j', f', b', by rw [e', e], fun h => hb ?_⟩
  exact (congrArg Twin.synced e :).symm.trans (hb' h)

theorem foldl {α : Type} (g : State → α → State) (l : List α) (s : State) (h : ∀ (t : State) x, JoinLost t (g t x)) : JoinLost s (l.foldl g s) :=
  List.foldlRecOn (motive := JoinLost s) l g (refl s) fun t ht x _ => ht.trans (h t x)

end JoinLost

theorem unsync_joinLost (cause : Nat) (s : State) : JoinLost s (unsync cause s) := by
  unfold unsync
  split
  · exact .refl s
  · split
    · exact ⟨s.twin.joining, s.twin.fSync, false, rfl, fun h => absurd h Bool.false_ne_true⟩
    · split
      · exact .of_twin rfl
      · exact .refl s

theorem failJoin_joinLost (what : Nat) (s : State) : JoinLost s (failJoin what s) := by
  cases h : s.twin.joining with
  | none =>
    rw [failJoin_none h]
    exact .refl s
  | some j =>
    have h1 : JoinLost s (joinEnded what j s) := ⟨none, none, s.twin.synced, complete_twin _ _ _ _ _ _ _, id⟩
    rw [failJoin_some what h]
    exact h1.trans (unsync_joinLost 8 _)

theorem abortGroup_joinLost (g cause : Nat) (s : State) : JoinLost s (abortGroup g cause s) := by
  unfold abortGroup
  by_cases h : (s.cg.group g).st = .armed
  · cases ho : (s.cg.group g).ownerCal
    · have h1 : JoinLost s (abortHost g cause s) := .of_twin (abortHost_onlyChanges cause g s .twin (by decide)).symm
      rw [abortGroupTo_host false cause h ho]
      split
      · exact h1.trans (failJoin_joinLost 1 _)
      · exact h1
    · have h1 : JoinLost s (abortCal g cause s) := .of_twin (abortCal_onlyChanges cause g s .twin (by decide)).symm
      rw [abortGroupTo_cal false cause h ho]
      exact h1.trans (.of_twin (dropResult_onlyChanges cause _ .twin (by decide)).symm)
  · rw [abortGroupTo_idle false cause h]
    exact .refl s

theorem leaveSolo_joinLost (s : State) : JoinLost s (leaveSolo s) := by
  refine .foldl _ _ s fun t g => ?_
  dsimp only
  split
  · exact .refl t
  · exact abortGroup_joinLost g 1 t

theorem leaveJoin_joinLost (s : State) : JoinLost s (leaveJoin s) := by
  unfold leaveJoin
  split
  · exact .refl s
  · exact (JoinLost.of_twin (t := (takeFree s).2) rfl).trans (failJoin_joinLost _ _)

theorem roleLeft_joinLost (s : State) : JoinLost s (roleLeft s) := by
  unfold roleLeft
  split
  · exact leaveSolo_joinLost s
  · split
    · exact leaveJoin_joinLost s
    · exact .refl s

/-- The claim after a change of role (R411). -/
def claimAfter (new : Role) (claim : Word) : Word := if new = Role.listen then 0 else claim

theorem setRole_twin {new : Role} {s : State} (h : s.twin.role ≠ new) : ∃ j f b, (setRole new s).twin =
    { s.twin with role := new, claimOwn := claimAfter new s.twin.claimOwn, joining := j, fSync := f, synced := b } ∧
    (b = true → s.twin.synced = true) := by
  obtain ⟨j, f, b, e, hb⟩ := roleLeft_joinLost s
  refine ⟨j, f, b, ?_, hb⟩
  rw [setRole_new h]
  change { (roleLeft s).twin with role := new, claimOwn := if new = Role.listen then 0 else (roleLeft s).twin.claimOwn } = _
  rw [e]
  rfl

/-- A unit that enters neither from SOLO nor from STANDBY role ends nothing. -/
theorem setRole_twin_fresh {new : Role} {s : State} (h : s.twin.role = .listen) (hn : new ≠ .listen) :
    (setRole new s).twin = { s.twin with role := new } := by
  have hleft : roleLeft s = s := (if_neg (by rw [h]; decide)).trans (if_neg (by rw [h]; decide))
  rw [setRole_new (by rw [h]; exact hn.symm), hleft]
  exact congrArg (fun c : Word => { s.twin with role := new, claimOwn := c }) (if_neg hn)

theorem setRole_synced {new : Role} {s : State} (h : s.twin.synced = false) : (setRole new s).twin.synced = false := by
  by_cases hr : s.twin.role = new
  · rwa [setRole_same hr]
  · obtain ⟨j, f, b, e, hb⟩ := setRole_twin hr
    rw [e]
    exact Bool.eq_false_iff.mpr fun hbt => Bool.false_ne_true (h.symm.trans (hb hbt))

/-! ## LISTEN (R412) -/

theorem enterListen_cases (s : State) : enterListen s = setRole .listen (unsynced s) ∧
      (setRole .listen (unsynced s)).host.opState ≠ .print ∧ (setRole .listen (unsynced s)).host.opState ≠ .service ∨
    enterListen s = setOpState .ready true { setRole .listen (unsynced s) with host := { (setRole .listen (unsynced s)).host with firing := false } } := by
  unfold enterListen
  dsimp only
  split
  next => exact .inr rfl
  next h => exact .inl ⟨rfl, not_or.mp h⟩

theorem setOpState_twin (new : OpState) (forced : Bool) (s : State) : (setOpState new forced s).twin = s.twin :=
  (setOpState_onlyChanges new forced s .twin (by decide)).symm

theorem setOpState_cg (new : OpState) (forced : Bool) (s : State) : (setOpState new forced s).cg = s.cg :=
  (setOpState_onlyChanges new forced s .cg (by decide)).symm

theorem enterListen_twin (s : State) : (enterListen s).twin = (setRole .listen (unsynced s)).twin := by
  rcases enterListen_cases s with ⟨h, -⟩ | h
  · rw [h]
  · rw [h, setOpState_twin]

theorem enterListen_cg (s : State) : (enterListen s).cg = (setRole .listen (unsynced s)).cg := by
  rcases enterListen_cases s with ⟨h, -⟩ | h
  · rw [h]
  · rw [h, setOpState_cg]

theorem enterListen_role (s : State) : (enterListen s).twin.role = .listen := by
  rw [enterListen_twin]
  exact setRole_role .listen _

theorem enterListen_synced (s : State) : (enterListen s).twin.synced = false := by
  rw [enterListen_twin]
  exact setRole_synced rfl

theorem enterListen_stops (s : State) : (enterListen s).host.opState ≠ .print ∧ (enterListen s).host.opState ≠ .service := by
  rcases enterListen_cases s with ⟨h, hop⟩ | h
  · rw [h]
    exact hop
  · rw [h, setOpState_opState]
    decide

/-! ## Claims and take-overs (R415, R427, R428) -/

section
variable {s : State}

/-- The state before a claim is written: the claim is the own one. -/
def ownClaimed (s : State) : State := { s with twin := { s.twin with claimOwn := w32 (maxClaim s + 1), exhausted := false } }

theorem issueClaim_issues (hp : pageFull s.pers 0 = false) (hn : maxClaim s + 1 < 0xFFFFFFFF) :
    issueClaim s = (some (w32 (maxClaim s + 1)), prfStore 16 (w32 (maxClaim s + 1)) (ownClaimed s)) :=
  (if_neg (by rw [hp]; decide)).trans (if_neg (Nat.not_le.mpr hn))

theorem issueClaim_exhausted (hn : 0xFFFFFFFF ≤ maxClaim s + 1) : (issueClaim s).1 = none := by
  by_cases hp : pageFull s.pers 0 = true
  · exact congrArg Prod.fst (if_pos hp)
  · exact congrArg Prod.fst ((if_neg hp).trans (if_pos hn))

theorem ownClaimed_twin (s : State) : (prfStore 16 (w32 (maxClaim s + 1)) (ownClaimed s)).twin =
    { s.twin with claimOwn := w32 (maxClaim s + 1), exhausted := false } := (prfStore_onlyChanges 16 _ (ownClaimed s) .twin (by decide)).symm

theorem countWear_hostQuiet (page n : Nat) (s : State) : (countWear page n s).host.quiet = s.host.quiet := by
  unfold countWear
  extract_lets old new _ s1
  split
  · exact (stickEvent_keeps s1 _ _).host
  · rfl

theorem ownClaimed_opState (hp : pageFull s.pers 0 = false) :
    (prfStore 16 (w32 (maxClaim s + 1)) (ownClaimed s)).host.opState = s.host.opState := by
  have he : prfStore 16 (w32 (maxClaim s + 1)) (ownClaimed s) =
      countWear 0 1 { ownClaimed s with pers := { s.pers with prf := upd s.pers.prf 16 fun _ => w32 (maxClaim s + 1) } } :=
    if_neg (by rw [show pageFull (ownClaimed s).pers (16 / 64) = false from hp]; exact Bool.false_ne_true)
  rw [he]
  exact (congrArg HostIf.opState (countWear_hostQuiet 0 1 _) :)

theorem claim_toNat {n : Nat} (h : n < 0xFFFFFFFF) : (w32 n).toNat = n := (BitVec.toNat_ofNat n 32).trans (Nat.mod_eq_of_lt (by omega))

theorem issueClaim_claim {c : Word} {t : State} (h : issueClaim s = (some c, t)) (hl : s.pers.prf.length = 1024) :
    c.toNat = maxClaim s + 1 ∧ t.twin.claimOwn = c ∧ wd t.pers.prf 16 = c ∧ OnlyChanges [.host, .pers, .out, .twin] s t := by
  have hissued : pageFull s.pers 0 = false ∧ maxClaim s + 1 < 0xFFFFFFFF := by
    unfold issueClaim at h
    dsimp only at h
    split at h
    next => cases h
    next hp =>
      split at h
      next => cases h
      next hn => exact ⟨Bool.eq_false_iff.mpr hp, Nat.not_le.mp hn⟩
  obtain ⟨hp, hn⟩ := hissued
  rw [issueClaim_issues hp hn] at h
  cases h
  have hprf : (prfStore 16 (w32 (maxClaim s + 1)) (ownClaimed s)).pers.prf = upd s.pers.prf 16 fun _ => w32 (maxClaim s + 1) := prfStore_prf hp
  refine ⟨claim_toNat hn, (congrArg Twin.claimOwn (ownClaimed_twin s) :), ?_, ?_⟩
  · rw [hprf, wd_upd s.pers.prf 16 16 (fun _ => w32 (maxClaim s + 1)) (by omega), if_pos rfl]
  · exact ((onlyChanges_twin s _).mono (by decide)).trans ((prfStore_onlyChanges 16 _ _).mono (by decide))

theorem takeOver_idle {cause : Nat} (h : s.twin.role ≠ .standby ∨ s.twin.synced = false ∨ s.host.opState ≠ .print ∨ s.twin.takeoverEn = false) :
    takeOver cause s = s := by
  refine if_neg ?_
  rintro ⟨hr, hs, hop, ht⟩
  rcases h with h | h | h | h
  · exact h hr
  · exact Bool.false_ne_true (h.symm.trans hs)
  · exact h hop
  · exact Bool.false_ne_true (h.symm.trans ht)

/-- The role that a unit which takes over enters (R428). -/
def takenRole (s : State) : Role := if s.twin.peerPresent && s.twin.peerRole == 2 then .active else .solo

/-- The state in which a take-over has its claim and is counted. -/
def takeoverCounted (s : State) : State :=
  let s1 := prfStore 16 (w32 (maxClaim s + 1)) (ownClaimed s)
  { s1 with twin := { s1.twin with takeovers := satAdd s1.twin.takeovers 1 } }

theorem takeOver_eq {cause : Nat} (hr : s.twin.role = .standby) (hs : s.twin.synced = true) (hop : s.host.opState = .print)
    (ht : s.twin.takeoverEn = true) (hsw : s.twin.swLine = none) (hp : pageFull s.pers 0 = false) (hn : maxClaim s + 1 < 0xFFFFFFFF) :
    takeOver cause s = stickEvent .takeover
      { ev := .takeover, p0 := w32 cause, p1 := fireLineNow (setRole (takenRole s) (takeoverCounted s)), p2 := w32 (maxClaim s + 1), always := true }
      (setRole (takenRole s) (takeoverCounted s)) := by
  have hsame : failSwitch s = s := by
    unfold failSwitch
    rw [hsw]
  have htaken : takenRole s = takenRole (prfStore 16 (w32 (maxClaim s + 1)) (ownClaimed s)) := by
    have htwin := ownClaimed_twin s
    have hpeer : (prfStore 16 (w32 (maxClaim s + 1)) (ownClaimed s)).twin.peerPresent = s.twin.peerPresent :=
      (congrArg Twin.peerPresent htwin :)
    have hrole : (prfStore 16 (w32 (maxClaim s + 1)) (ownClaimed s)).twin.peerRole = s.twin.peerRole :=
      (congrArg Twin.peerRole htwin :)
    simp only [takenRole, hpeer, hrole]
  unfold takeOver
  rw [if_pos ⟨hr, hs, hop, ht⟩, hsame, issueClaim_issues hp hn, htaken]
  unfold takeoverCounted
  generalize prfStore 16 (w32 (maxClaim s + 1)) (ownClaimed s) = u
  rfl

theorem takeOver_claim {cause : Nat} (hr : s.twin.role = .standby) (hs : s.twin.synced = true) (hop : s.host.opState = .print)
    (ht : s.twin.takeoverEn = true) (hsw : s.twin.swLine = none) (hp : pageFull s.pers 0 = false) (hn : maxClaim s + 1 < 0xFFFFFFFF) :
    (takeOver cause s).twin.role = (if s.twin.peerPresent = true ∧ s.twin.peerRole = 2 then .active else .solo) ∧
    (takeOver cause s).twin.claimOwn = w32 (maxClaim s + 1) ∧ (takeOver cause s).twin.takeovers = satAdd s.twin.takeovers 1 ∧
    (takeOver cause s).host.opState = .print := by
  have htwin : (takeoverCounted s).twin = { s.twin with
      claimOwn := w32 (maxClaim s + 1), exhausted := false, takeovers := satAdd s.twin.takeovers 1 } :=
    congrArg (fun t : Twin => { t with takeovers := satAdd t.takeovers 1 }) (ownClaimed_twin s)
  have hcounted : (takeoverCounted s).host.opState = .print :=
    (ownClaimed_opState hp).trans hop
  have hlisten : takenRole s ≠ .listen := by
    unfold takenRole
    split <;> decide
  have hnew : (takeoverCounted s).twin.role ≠ takenRole s := by
    have hstandby : (takeoverCounted s).twin.role = .standby := (congrArg Twin.role htwin :).trans hr
    rw [hstandby]
    unfold takenRole
    split <;> decide
  obtain ⟨j, f, b, e, -⟩ := setRole_twin hnew
  rw [htwin] at e
  have hk := (setRole_quietly (takenRole s) (takeoverCounted s)).keeps.trans (stickEvent_keeps (setRole (takenRole s) (takeoverCounted s)) .takeover
    { ev := .takeover, p0 := w32 cause, p1 := fireLineNow (setRole (takenRole s) (takeoverCounted s)), p2 := w32 (maxClaim s + 1), always := true })
  rw [takeOver_eq hr hs hop ht hsw hp hn]
  generalize setRole (takenRole s) (takeoverCounted s) = t at *
  refine ⟨(congrArg Twin.role e :).trans ?_, (congrArg Twin.claimOwn e :).trans (if_neg hlisten), (congrArg Twin.takeovers e :),
    (congrArg HostIf.opState hk.host :).trans hcounted⟩
  unfold takenRole
  simp only [Bool.and_eq_true, beq_iff_eq]

/-! ## Hot plug (R429, R436) -/

theorem releaseLane_lane_other {m j : Nat} (h : j ≠ m) (t : State) : (releaseLane m t).lane j = t.lane j := by
  unfold releaseLane
  dsimp only
  split
  · split
    · exact lane_setLane_other _ t h
    · exact (toDetect_lane_other h).trans (lane_setLane_other _ t h)
  · rfl

theorem releaseLane_length (m : Nat) (t : State) : (releaseLane m t).hl.lanes.length = t.hl.lanes.length := by
  unfold releaseLane
  dsimp only
  split
  · split
    · exact setLane_length m _ t
    · exact toDetect_length.trans (setLane_length m _ t)
  · rfl

theorem releaseLane_released {m : Nat} {t : State} (h : m < t.hl.lanes.length) : ((releaseLane m t).lane m).idleHeld = false := by
  unfold releaseLane
  dsimp only
  split
  · split
    · rw [lane_setLane_same h]
    · rw [toDetect_lane_same ((setLane_length m _ t).symm ▸ h), lane_setLane_same h]
      rfl
  next hn => exact Bool.eq_false_iff.mpr (not_or.mp hn).1

theorem releaseIdle_released {m : Nat} (hl : s.hl.lanes.length = 16) (hm : m < 16) : ((releaseIdle s).lane m).idleHeld = false := by
  rw [releaseIdle_eq]
  exact forAll_lane_named (P := fun l => l.idleHeld = false) (fun n t j h => releaseLane_lane_other h t) releaseLane_length List.nodup_range
    (List.mem_range.mpr hm) fun t ht _ => releaseLane_released (by omega)

theorem holdIdle_onlyChanges (s : State) : OnlyChanges [.hl, .out] s (holdIdle s) := by
  refine .foldl _ _ s fun t m => ?_
  dsimp only
  split
  · exact .refl _ t
  · exact ((setLane_onlyChanges m _ t).mono (by decide)).trans ((emit_onlyChanges _ _).mono (by decide))

/-- The state in which PRSNT_N has a level. -/
def seated (low : Bool) (s : State) : State := { s with twin := { s.twin with prsnt := low } }

theorem prsntChange_seated (h : s.twin.prsnt = false) (hop : s.host.opState ≠ .safe) : ∃ t, execPrsntChange true s = .next t ∧
    OnlyChanges [.hl, .out, .host, .pers, .twin, .free] s t ∧ t.twin = { s.twin with prsnt := true } ∧
    (s.hl.lanes.length = 16 → ∀ m, m < 16 → (t.lane m).idleHeld = false) := by
  have hq := (releaseIdle_quietly (seated true s)).parts
  refine ⟨releaseIdle (seated true s), ?_, ((onlyChanges_twin s _).mono (by decide)).trans (hq.mono (by decide)), (hq .twin (by decide)).symm,
    fun hl m hm => releaseIdle_released (s := seated true s) hl hm⟩
  exact congrArg Host.Outcome.next ((if_neg (by rw [h]; decide)).trans ((if_pos rfl).trans (if_neg hop)))

/-- The state of a removed unit before it enters LISTEN role. -/
def removed (s : State) : State := stickRec .prsntRemoved (failSwitch (blankForIdle (seated false s)))

theorem removed_steps (s : State) : (removed s).twin.prsnt = false ∧ (removed s).cg = s.cg := by
  have hb := blankLanes_onlyChanges 3 (seated false s)
  obtain ⟨l, e⟩ := failSwitch_twin (blankForIdle (seated false s))
  have hf := failSwitch_onlyChanges (blankForIdle (seated false s))
  have hprsnt : (blankForIdle (seated false s)).twin.prsnt = false := congrArg Twin.prsnt (hb .twin (by decide)).symm
  exact ⟨(congrArg Twin.prsnt e :).trans hprsnt, (hf .cg (by decide)).symm.trans (hb .cg (by decide)).symm⟩

theorem enterListen_prsnt (s : State) : (enterListen s).twin.prsnt = s.twin.prsnt := by
  rw [enterListen_twin]
  exact (congrArg Twin.prsnt (setRole_keepsPeer .listen (unsynced s)).heard :)

theorem prsntChange_removed (h : s.twin.prsnt = true) : ∃ t, execPrsntChange false s = .next t ∧ t.twin.prsnt = false ∧ t.twin.role = .listen ∧
    (s.twin.role ≠ .listen → t.host.opState ≠ .print ∧ t.host.opState ≠ .service) ∧ t.cg.inForce = s.cg.inForce := by
  have hgone : execPrsntChange false s = .next (if s.twin.role = .listen then holdIdle (seated false s) else holdIdle (enterListen (removed s))) :=
    congrArg Host.Outcome.next ((if_neg (by rw [h]; decide)).trans (if_neg Bool.false_ne_true))
  by_cases hr : s.twin.role = .listen
  · have hi := holdIdle_onlyChanges (seated false s)
    rw [if_pos hr] at hgone
    exact ⟨_, hgone, congrArg Twin.prsnt (hi .twin (by decide)).symm, (congrArg Twin.role (hi .twin (by decide)).symm).trans hr,
      fun hn => absurd hr hn, congrArg Commit.inForce (hi .cg (by decide)).symm⟩
  · have hi := holdIdle_onlyChanges (enterListen (removed s))
    obtain ⟨hprsnt, hcg⟩ := removed_steps s
    rw [if_neg hr] at hgone
    refine ⟨_, hgone, ?_, ?_, fun _ => ?_, ?_⟩
    · rw [← hi .twin (by decide), enterListen_prsnt, hprsnt]
    · rw [← hi .twin (by decide), enterListen_role]
    · rw [← hi .host (by decide)]
      exact enterListen_stops _
    · rw [← hi .cg (by decide), enterListen_cg, (setRole_noneArms .listen (unsynced (removed s))).inForce]
      exact congrArg Commit.inForce hcg

end

theorem rolesAndClaims : Claims.RolesAndClaims := by
  unfold Claims.RolesAndClaims
  refine ⟨fun c s t h hl => issueClaim_claim h hl, fun s h => issueClaim_exhausted h, fun cause s h => takeOver_idle h, ?takeover, ?listen, ?same, ?safe,
    fun s h hop => prsntChange_seated h hop, fun s h => prsntChange_removed h⟩
  case takeover => exact fun cause s hr hs hop ht hsw hp hn => takeOver_claim hr hs hop ht hsw hp hn
  case listen => exact fun s => ⟨enterListen_role s, enterListen_synced s, enterListen_stops s⟩
  case same => exact fun low s h => congrArg Host.Outcome.next (if_pos h)
  case safe => exact fun s h hop => congrArg Host.Outcome.next ((if_neg (by rw [h]; decide)).trans ((if_pos rfl).trans (if_pos hop)))

/-! ## TWIN_GET_STATUS, TWIN_CONFIG and TWIN_WAKE_PEER (R441, R443, R447, R422) -/

section
variable {k : Fin 16} {c : RungCmd} {s : State}

theorem twinGetStatus_passes (hw : c.w 0 &&& ~~~ 1 = 0) (hb : s.host.opState ≠ .boot) : Passes [reservedW c.payload 0 1, notBoot s] := by
  simp only [passes_cons, passes_nil, and_true]
  exact ⟨reservedW_passes hw, notBoot_passes hb⟩

theorem twinGetStatus_answers (h : Rung 0x0C00 1 k c s) (hb : s.host.opState ≠ .boot) (hw : c.w 0 = 0) :
    execTwinGetStatus k s = .next (respond k (okWith (twinView (begun k s))) (begun k s)) := by
  refine congrArg Host.Outcome.next (command_done h (twinGetStatus_passes (by rw [hw]; rfl) hb) ?_)
  rw [firstFlag_clear hw]
  rfl

theorem twinGetStatus_clears (h : Rung 0x0C00 1 k c s) (hb : s.host.opState ≠ .boot) (hw : c.w 0 = 1) :
    execTwinGetStatus k s = .next (respond k (okWith (twinView (begun k s)))
      { begun k s with twin := { s.twin with takeovers := 0, mismatches := 0, crcErrors := 0, losses := 0 } }) := by
  refine congrArg Host.Outcome.next (command_done h (twinGetStatus_passes (by rw [hw]; rfl) hb) ?_)
  rw [firstFlag_set hw]
  rfl

theorem twinConfig_answers (h : Rung 0x0C04 2 k c s) (hw : c.w 0 &&& ~~~ 1 = 0) (hgrace : fld (c.w 1) 0 16 ≤ 60000) (hlow : 64 ≤ fld (c.w 1) 16 16)
    (hhigh : fld (c.w 1) 16 16 ≤ 4096) (hb : s.host.opState ≠ .boot) : execTwinConfig k s = .next (respond k ok { begun k s with twin := { s.twin with
      takeoverEn := flag (c.w 0) 0, graceMs := fld (c.w 1) 0 16, syncLines := fld (c.w 1) 16 16 } }) := by
  refine congrArg Host.Outcome.next (command_done h ?_ rfl)
  simp only [passes_cons, passes_nil, and_true]
  refine ⟨reservedW_passes hw, ?_, notBoot_passes hb⟩
  change decide (fld (c.w 1) 0 16 > 60000 ∨ fld (c.w 1) 16 16 < 64 ∨ fld (c.w 1) 16 16 > 4096) = false
  exact decide_eq_false (by omega)

theorem twinWakePeer_answers (h : Rung 0x0C05 0 k c s) (hb : s.host.opState ≠ .boot) : execTwinWakePeer k s =
    .next (respond k ok (if s.twin.prsnt then { begun k s with out := .vigil none :: s.out } else begun k s)) := by
  refine congrArg Host.Outcome.next (command_done h ?_ rfl)
  simp only [passes_cons, passes_nil, and_true]
  exact notBoot_passes hb

/-! ## TWIN_SET_ROLE (R411, R412, R415, R436) -/

theorem role_field {r : Nat} (hw : (c.w 0).toNat = r) (hr : r < 4) : fld (wd c.payload 0) 0 2 = r ∧ (reservedW c.payload 0 3).1 = false := by
  have hlt : (c.w 0).toNat < 2 ^ 2 := hw ▸ hr
  exact ⟨(fld_of_lt hlt).trans hw, reservedW_passes (reserved_clear (n := 2) hlt)⟩

theorem twinSetRole_inForce {r : Role} (h : Rung 0x0C01 1 k c s) (hw : (c.w 0).toNat = r.code) (hr : r ≠ .active) (hs : s.twin.role = r) :
    execTwinSetRole k s = .next (respond k ok (begun k s)) := by
  obtain ⟨hf, hres⟩ := role_field hw (Role.code_lt r)
  have hone : (r.code == 1) = false := by cases r <;> first | rfl | exact absurd rfl hr
  refine congrArg Host.Outcome.next (command_refused h ?_)
  dsimp only
  rw [pick_passed hres, hf, hs, hone, pick_false, beq_self_eq_true]
  refine pick_first fun b hb => ?_
  simp only [List.mem_cons, List.not_mem_nil, or_false, Prod.mk.injEq] at hb
  rcases hb with ⟨-, rfl⟩ | ⟨-, rfl⟩ | ⟨-, rfl⟩ <;> decide

theorem twinSetRole_takes {r : Nat} (h : Rung 0x0C01 1 k c s) (hw : (c.w 0).toNat = r) (hlt : r < 4) (hne : r ≠ 1) (hs : r ≠ s.twin.role.code)
    (hop : s.host.opState = .ready ∨ s.host.opState = .print ∨ s.host.opState = .service) (hp : s.twin.prsnt = true) (hallow : roleAllowed r s = true)
    (hrun : r = 2 → s.pwr.state = .run) : execTwinSetRole k s = .next (respond k (takeRole r (begun k s)).2 (takeRole r (begun k s)).1) := by
  obtain ⟨hf, hres⟩ := role_field hw hlt
  refine congrArg Host.Outcome.next (command_done h ?_ ?_)
  · simp only [passes_cons, passes_nil, and_true, hf, hp, hallow]
    refine ⟨hres, beq_eq_false_iff_ne.mpr hne, beq_eq_false_iff_ne.mpr hs, ?_, rfl, ?_⟩
    · rcases hop with hop | hop | hop <;> rw [hop] <;> rfl
    · rw [Bool.not_true, Bool.false_or]
      by_cases h2 : r = 2
      · rw [hrun h2]
        exact Bool.and_false _
      · rw [beq_eq_false_iff_ne.mpr h2, Bool.false_and]
  · rw [hf]
    rfl

theorem soloAllowed_role (h : roleAllowed 0 s = true) : s.twin.role = .listen := by
  simp only [roleAllowed, Bool.and_eq_true, beq_iff_eq] at h
  exact h.1.1

theorem standbyAllowed_role (h : roleAllowed 2 s = true) : s.twin.role = .listen := by
  simp only [roleAllowed, Bool.and_eq_true, beq_iff_eq] at h
  exact h.1.1.1

theorem twinSetRole_solo (h : Rung 0x0C01 1 k c s) (hop : s.host.opState = .ready ∨ s.host.opState = .print ∨ s.host.opState = .service)
    (hp : s.twin.prsnt = true) (hw : c.w 0 = 0) (hallow : roleAllowed 0 s = true) (hfull : pageFull s.pers 0 = false) (hn : maxClaim s + 1 < 0xFFFFFFFF) :
    ∃ t, execTwinSetRole k s = .next (respond k ok t) ∧ t.twin.role = .solo ∧ t.twin.claimOwn = w32 (maxClaim s + 1) := by
  have hr := soloAllowed_role hallow
  have hrun := twinSetRole_takes h (r := 0) (by rw [hw]; rfl) (by decide) (by decide) (by rw [hr]; decide) hop hp hallow (fun h2 => absurd h2 (by decide))
  have htake : takeRole 0 (begun k s) =
      (setRole .solo (prfStore 16 (w32 (maxClaim (begun k s) + 1)) (ownClaimed (begun k s))), ok) := by
    dsimp only [takeRole]
    rw [issueClaim_issues (s := begun k s) hfull hn]
    rfl
  have htwin := ownClaimed_twin (begun k s)
  have hset := setRole_twin_fresh (new := .solo) ((congrArg Twin.role htwin :).trans hr) (by decide)
  rw [htwin] at hset
  rw [htake] at hrun
  exact ⟨_, hrun, (congrArg Twin.role hset :), (congrArg Twin.claimOwn hset :)⟩

theorem twinSetRole_exhausted (h : Rung 0x0C01 1 k c s) (hop : s.host.opState = .ready ∨ s.host.opState = .print ∨ s.host.opState = .service)
    (hp : s.twin.prsnt = true) (hw : c.w 0 = 0) (hallow : roleAllowed 0 s = true) (hfull : pageFull s.pers 0 = false) (hn : 0xFFFFFFFF ≤ maxClaim s + 1) :
    ∃ t, execTwinSetRole k s = .next (respond k noResource t) ∧ t.twin.role = .listen := by
  have hr := soloAllowed_role hallow
  have hrun := twinSetRole_takes h (r := 0) (by rw [hw]; rfl) (by decide) (by decide) (by rw [hr]; decide) hop hp hallow (fun h2 => absurd h2 (by decide))
  have hnone : issueClaim (begun k s) = (none, stickEvent .claimExhausted { ev := .claimExhausted, p0 := w32 (maxClaim s), always := true }
      { begun k s with twin := { s.twin with exhausted := true } }) :=
    (if_neg (by rw [show pageFull (begun k s).pers 0 = false from hfull]; decide)).trans (if_pos hn)
  have htake : takeRole 0 (begun k s) = (stickEvent .claimExhausted { ev := .claimExhausted, p0 := w32 (maxClaim s), always := true }
      { begun k s with twin := { s.twin with exhausted := true } }, noResource) := by
    dsimp only [takeRole]
    rw [hnone]
    exact Prod.ext rfl (if_neg (by rw [show pageFull (begun k s).pers 0 = false from hfull]; decide))
  rw [htake] at hrun
  exact ⟨_, hrun, hr⟩

theorem twinSetRole_standby (h : Rung 0x0C01 1 k c s) (hop : s.host.opState = .ready ∨ s.host.opState = .print ∨ s.host.opState = .service)
    (hp : s.twin.prsnt = true) (hw : c.w 0 = 2) (hallow : roleAllowed 2 s = true) (hpwr : s.pwr.state = .run) :
    ∃ t, execTwinSetRole k s = .next (respond k ok t) ∧ t.twin.role = .standby ∧ t.twin.synced = false ∧
      t.twin.posAdopted = false ∧ t.twin.claimOwn = s.twin.claimPeer - 1 := by
  have hr := standbyAllowed_role hallow
  have hrun := twinSetRole_takes h (r := 2) (by rw [hw]; rfl) (by decide) (by decide) (by rw [hr]; decide) hop hp hallow (fun _ => hpwr)
  have hset := setRole_twin_fresh (new := .standby) (s := { begun k s with twin := { s.twin with
    synced := false, posAdopted := false, claimOwn := s.twin.claimPeer - 1 } }) hr (by decide)
  exact ⟨_, hrun, (congrArg Twin.role hset :), (congrArg Twin.synced hset :), (congrArg Twin.posAdopted hset :), (congrArg Twin.claimOwn hset :)⟩

theorem twinSetRole_listen (h : Rung 0x0C01 1 k c s) (hop : s.host.opState = .ready ∨ s.host.opState = .print ∨ s.host.opState = .service)
    (hp : s.twin.prsnt = true) (hw : c.w 0 = 3) (hr : s.twin.role ≠ .listen) (hallow : roleAllowed 3 s = true) :
    ∃ t, execTwinSetRole k s = .next (respond k ok t) ∧ t.twin.role = .listen ∧ t.twin.synced = false := by
  have hcode : 3 ≠ s.twin.role.code := by
    revert hr
    cases s.twin.role <;> decide
  have hrun := twinSetRole_takes h (r := 3) (by rw [hw]; rfl) (by decide) (by decide) hcode hop hp hallow (fun h2 => absurd h2 (by decide))
  exact ⟨_, hrun, enterListen_role _, enterListen_synced _⟩

/-! ## TWIN_SWITCHOVER (R415, R432, R445) -/

/-- A line that may still be named: 65 lines ahead, and above the highest reached. -/
theorem line_inTime {w : Word} (hlead : lineIndex s + 65 ≤ w.toNat) (htop : topLine s < w.toNat) :
    decide ((w.toNat : Int) < lineIndex s + 65 ∨ (w.toNat : Int) ≤ topLine s) = false := decide_eq_false (by omega)

theorem twinSwitchover_begins {n : Word} (h : Rung 0x0C02 3 k c s) (hw : c.w 0 = 0) (hep : c.w 1 = s.cg.epochNow)
    (hlead : lineIndex s + 65 ≤ (c.w 2).toNat) (htop : topLine s < (c.w 2).toNat) (hsw : s.twin.swLine = none) (hr : s.twin.role = .active)
    (hop : s.host.opState = .print) (hpeer : peerReady s = true) (hn : maxClaim s + 1 < 0xFFFFFFFF) (hout : s.host.outst.length < 16)
    (hclaim : n = w32 (max (wd s.pers.prf 16).toNat s.twin.claimOwn.toNat + 1)) :
    execTwinSwitchover k s = .next (respond k accepted (vigilSend { type := 4, w5 := c.w 1, w6 := c.w 2, w7 := n }
      (outstand 0x0C02 c.tag 0 { begun k s with twin := { s.twin with swLine := some (absOf (c.w 2) s, n, some c.tag) } }))) := by
  subst hclaim
  have hword : wd c.payload 1 = s.cg.epochNow := hep
  refine congrArg Host.Outcome.next (command_done h ?_ rfl)
  simp only [passes_cons, passes_nil, and_true]
  refine ⟨reservedW_passes ?_, ?_, ?_, ?_, decide_eq_false (Nat.not_le.mpr hn), completionsFull_passes hout, ?_⟩
  · rw [show wd c.payload 0 = 0 from hw]
    rfl
  · rw [hword]
    exact decide_eq_false (BitVec.lt_irrefl _)
  · rw [hsw]
    rfl
  · rw [hr, hop, hpeer]
    rfl
  · rw [hword, bne_self_eq_false, Bool.false_or]
    exact line_inTime (w := c.w 2) hlead htop

/-! ## TWIN_JOIN (R439, R446) -/

/-- What TWIN_JOIN makes of its group. -/
def Group.joins (epoch line : Word) (ls : Nat) (x : Group) : Group := { x with
  st := .armed, trigger := 0, policy := false, persist := false, armTag := none, epoch := epoch, line := some line
  abs := ls, stopped := false, joinGroup := true }

theorem startJoin_cg (tag : Word) (ws : List Word) (s : State) :
    (startJoin tag ws s).cg = (setGroup (fld (wd ws 0) 0 2) (Group.joins (wd ws 2) (wd ws 3) (absOf (wd ws 3) s)) s).cg := by
  unfold startJoin
  dsimp only
  rw [lampLoads_cg, startLoads_cg]
  rfl

theorem startJoin_joining (tag : Word) (ws : List Word) (s : State) : (startJoin tag ws s).twin.joining =
    some { tag := tag, group := fld (wd ws 0) 0 2, ring := fld (wd ws 0) 8 2, epoch := wd ws 2, ls := absOf (wd ws 3) s } := rfl

theorem twinJoin_begins {g : Nat} (h : Rung 0x0C03 4 k c s) (hg : g = fld (c.w 0) 0 2) (hw : c.w 0 &&& ~~~ 0x303 = 0)
    (hst : (s.cg.group g).st = .valid) (hhandle : c.w 1 = (s.cg.group g).handle) (hep : c.w 2 = s.cg.epochNow)
    (hlead : lineIndex s + 65 ≤ (c.w 3).toNat) (htop : topLine s < (c.w 3).toNat) (hrun : (s.cg.group g).running = false) (hprobe : s.fire.probe = none)
    (hjoin : s.twin.joining = none) (hr : s.twin.role = .standby) (hop : s.host.opState = .ready) (hpos : s.twin.posAdopted = true)
    (hout : s.host.outst.length < 16) (hlen : s.cg.groups.length = 4) :
    ∃ t j, execTwinJoin k s = .next (respond k accepted t) ∧ t.twin.joining = some j ∧ j.tag = c.tag ∧ j.group = g ∧ j.ring = fld (c.w 0) 8 2 ∧
      j.ls = absOf (c.w 3) s ∧ (t.cg.group g).st = .armed ∧ (t.cg.group g).joinGroup = true ∧ (t.cg.group g).line = some (c.w 3) ∧
      (∀ i, i ≠ g → t.cg.group i = s.cg.group i) ∧ t.cg.inForce = s.cg.inForce := by
  subst hg
  have hgroup : fld (c.w 0) 0 2 < 4 := Nat.mod_lt _ (by decide)
  have hcg := startJoin_cg c.tag c.payload (outstand 0x0C03 c.tag 0 (begun k s))
  have hsame : (startJoin c.tag c.payload (outstand 0x0C03 c.tag 0 (begun k s))).cg.group (fld (c.w 0) 0 2) =
      Group.joins (c.w 2) (c.w 3) (absOf (c.w 3) s) (s.cg.group (fld (c.w 0) 0 2)) :=
    (congrArg (Commit.group · (fld (c.w 0) 0 2)) hcg).trans (group_setGroup_same (s := outstand 0x0C03 c.tag 0 (begun k s)) (hlen.symm ▸ hgroup))
  refine ⟨_, _, congrArg Host.Outcome.next (command_done h ?_ rfl), startJoin_joining _ _ _, rfl, rfl, rfl, rfl, (congrArg Group.st hsame :),
    (congrArg Group.joinGroup hsame :), (congrArg Group.line hsame :), fun i hi => ?_, (congrArg Commit.inForce hcg :)⟩
  · have hword : wd c.payload 2 = s.cg.epochNow := hep
    have hgst : (s.cg.group (fld (wd c.payload 0) 0 2)).st = .valid := hst
    have hghandle : wd c.payload 1 = (s.cg.group (fld (wd c.payload 0) 0 2)).handle := hhandle
    have hgrun : (s.cg.group (fld (wd c.payload 0) 0 2)).running = false := hrun
    simp only [passes_cons, passes_nil, and_true]
    refine ⟨reservedW_passes hw, ?_, ?_, ?_, ?_, ?_, completionsFull_passes hout, ?_⟩
    · rw [hgst]
      rfl
    · rw [hghandle]
      exact bne_self_eq_false _
    · rw [hword]
      exact decide_eq_false (BitVec.lt_irrefl _)
    · rw [hgrun, hprobe, hjoin]
      rfl
    · rw [hr, hop, hpos]
      rfl
    · rw [hword, bne_self_eq_false, Bool.false_or]
      exact line_inTime (w := c.w 3) hlead htop
  · exact (congrArg (Commit.group · i) hcg).trans (group_setGroup_other _ (outstand 0x0C03 c.tag 0 (begun k s)) hi)

end

theorem twinCommands : Claims.TwinCommands := by
  unfold Claims.TwinCommands
  refine ⟨?status, ?role, ?switchover, ?join, ?config, fun k c s h hb => twinWakePeer_answers h hb⟩
  case status => exact fun k c s h hb => ⟨fun hw => twinGetStatus_answers h hb hw, fun hw => twinGetStatus_clears h hb hw⟩
  case role =>
    intro k c s h
    refine ⟨fun r hw hr hs => twinSetRole_inForce h hw hr hs, fun hop hp => ⟨?_, ?_, ?_, ?_⟩⟩
    · exact fun hw ha hf hn => twinSetRole_solo h hop hp hw ha hf hn
    · exact fun hw ha hf hn => twinSetRole_exhausted h hop hp hw ha hf hn
    · exact fun hw ha hpwr => twinSetRole_standby h hop hp hw ha hpwr
    · exact fun hw hr ha => twinSetRole_listen h hop hp hw hr ha
  case switchover =>
    exact fun k c s n h hw hep hlead htop hsw hr hop hpeer hn hout hclaim =>
      twinSwitchover_begins h hw hep hlead htop hsw hr hop hpeer hn hout hclaim
  case join =>
    exact fun k c s g h hg hw hst hh hep hlead htop hrun hprobe hj hr hop hpos hout hlen =>
      twinJoin_begins h hg hw hst hh hep hlead htop hrun hprobe hj hr hop hpos hout hlen
  case config => exact fun k c s h hw hg hlow hhigh hb => twinConfig_answers h hw hg hlow hhigh hb

/-- Settles O53: what a change of role leaves of the twin's state, applied to take-overs, LISTEN role and the commands. -/
theorem twinRoles : Obligations.TwinRoles := ⟨rolesAndClaims, twinCommands⟩

end Sys2Proof.Machine
end
